-- ==== Sys2Proof/Word.lean ====
section
/-! DEFINITION. Sys2Proof/Word.lean: the byte and word types of the block. -/

namespace Sys2Proof

/-- One byte of a buffer (R14). -/
abbrev Byte := BitVec 8

/-- One 32-bit register word (R15). -/
abbrev Word := BitVec 32

end Sys2Proof
end

