-- ==== Sys2Proof/Syntax.lean ====
section
/-! DEFINITION. Sys2Proof/Syntax.lean: the commands of the block, one constructor per row of
spec/opcode_table.json, each docstring the row's rule and summary. An operand is what the command brings
from outside: the port and tag of a packet, the offset and value of an access, what an agent, a stage or
a bus reported. -/

namespace Sys2Proof

/-- A frame as it arrives on a lane of an agent link (R37, R660): the lane, 0 A or 1 B, and its bytes. -/
structure Frame where
  lane : Nat
  bytes : List Nat
deriving DecidableEq, Repr

/-- A frame that arrives over the agent link of a die. -/
structure Arrival where
  die : Nat
  frame : Frame
deriving DecidableEq, Repr

/-- What is counted in a judgement window (R58, R395): edges of REFCLK, and of TCLK. -/
structure WindowCounts where
  ref : Nat
  tclk : Nat
deriving DecidableEq, Repr

/-- The stamps of a droop report (R290): where the cut began, and where it ended. -/
structure CutStamps where
  start : Nat
  stop : Nat
deriving DecidableEq, Repr

/-- What the tile arrays do in a slot: the tokens that the dispatchers ask for and the arrays that are free, cycle by cycle
(R302, R658), and the operand bytes of filler that each array consumes (R315). -/
structure SlotWork where
  asks : List Nat
  free : List Nat
  fed : List Nat
deriving DecidableEq, Repr

/-- The cycles of a slot in which a cut takes hold (R303), rising. -/
structure CutPoint where
  cycles : List Nat
deriving DecidableEq, Repr

/-- A round of transactions with a converter (R148, R151): whether its PAGE write succeeded, and the words read, up to
the first that is missing. -/
structure Round where
  page : Bool
  words : List Nat
deriving DecidableEq, Repr

/-- The outcomes of a PAGE write to a converter and of the transaction after it (R148, R151). -/
structure Acks where
  page : Bool
  data : Bool
deriving DecidableEq, Repr

/-- A cold reset (R617, R679): the FEED_ID strap sampled, and whether GOV_VDD is off until the supplies are good. -/
structure ColdCause where
  feed : Nat
  off : Bool
deriving DecidableEq, Repr

/-- Setting bits that an upset flipped (R649): the offset of the word, and the bits. -/
structure Upset where
  offset : Nat
  mask : Nat
deriving DecidableEq, Repr

/-- How the record write of an FW_COMMIT goes (R645, R651): whole; failed; or cut by a loss of supply in a copy, so many
of its bytes programmed. -/
inductive RecordWrite where
  | whole
  | failed
  | cut (copy bytes : Nat)
deriving DecidableEq, Repr

/-- SYNC_IN as measured at a period start, in ROOT periods (R112, R113): its last period, and the time since its last
rising edge. -/
structure SyncIn where
  period : Nat
  since : Nat
deriving DecidableEq, Repr

/-- What an agent forwards of a stack (R409): its temperature, and its correctable errors. -/
structure StackState where
  temp : Nat
  errors : Nat
deriving DecidableEq, Repr

/-- An engine's fault code, with the stamp that the agent gave it (R28, R464). -/
structure FaultCode where
  code : Nat
  stamp : Nat
deriving DecidableEq, Repr

/-- The commands. -/
inductive Instr where
  /-- JUDGE_WINDOW, R58. A REFCLK judgement window of 4,096 RC oscillator periods ends and its edge count is judged against 15,565 to 17,203. -/
  | judgeWindow (window : WindowCounts)
  /-- LOCK_MONITOR_WINDOW, R61. A lock-monitor window of 1,024 REFCLK periods ends and its ROOT/48 count is judged for lock or for loss. -/
  | lockMonitorWindow (count : Nat)
  /-- LOCK_RETRY, R62. The PLL is not locked 200 µs after LOCKING began, so the PLL is reset and the clock unit returns to JUDGE, setting LOCK_FAIL after 3 retries. -/
  | lockRetry
  /-- BOOT_CLOCK_TIMEOUT, R63. 10 ms after the GOV_PWRGOOD conditions without LOCKED, the clock unit enters COAST or waits in JUDGE according to COAST_BOOT. -/
  | bootClockTimeout
  /-- REF_LOST, R66. No REFCLK edge for 2 RC periods, or two failing lock-monitor windows, declares REFCLK lost. -/
  | refLost
  /-- COAST_ENTER, R67. At the first SLOT edge after the loss, ROOT changes over glitch-free to the coast band and the COAST flags, count and event are set. -/
  | coastEnter
  /-- RELOCK_START, R76. With AUTO_RELOCK at 1 and REF_OK set, the clock unit enters RELOCK at the next SLOT edge. -/
  | relockStart
  /-- RELOCK_TIMEOUT, R79. RELOCK has not reached LOCKED after 500 µs, so the PLL returns to the coast band and AUTO_RELOCK clears after 3 failures. -/
  | relockTimeout
  /-- AUTO_RELOCK_WRITE, R79. A write of 1 to CLK_CFG.AUTO_RELOCK starts a new relock attempt. -/
  | autoRelockWrite (port : Nat) (value : Nat)
  /-- LANE_LOSS, R664. A lane delivers no good frame for 1 µs while the other lane does, so it is lost and LANE_LOSS is recorded. -/
  | laneLoss (die : Nat) (lane : Nat)
  /-- LANE_RETRAIN, R664. A lost lane retrains every 10 ms. -/
  | laneRetrain (die : Nat) (lane : Nat)
  /-- LANE_RESTORE, R664. A lost lane returns to service after 64 consecutive good frames. -/
  | laneRestore (die : Nat) (lane : Nat)
  /-- LINK_LOST, R39. Both lanes of an agent link carry no good frame for 2 µs, so the die enters LINK_LOST, tokens fall to the floor and its estimate is substituted. -/
  | linkLost (die : Nat)
  /-- LINK_RESTORE, R40. 64 consecutive good frames end LINK_LOST, and the budget rises from the floor. -/
  | linkRestore (die : Nat)
  /-- LINK_TRAINED, R659. A die's agent link completes training after its VCORE loop reaches TRACK, ending its die-reset treatment. -/
  | linkTrained (die : Nat)
  /-- BUDGET_FRAME, R307. An agent receives a share, budget, slew or floor frame, which takes effect at the slot boundary R307 gives. -/
  | budgetFrame (die : Nat) (frame : Frame) (kind : Nat) (a : Nat) (b : Nat)
  /-- THRESHOLD_FRAME, R284. An agent receives a new droop threshold and applies it within 500 ns. -/
  | thresholdFrame (die : Nat) (frame : Frame) (threshold : Nat)
  /-- TOKENS_USED_FRAME, R320. The core receives a die's real and filler token counts for a slot, including any late-share report. -/
  | tokensUsedFrame (die : Nat) (frame : Frame) (real : Nat) (filler : Nat) (late : Bool)
  /-- TLM_FRAME, R102. A 64-bit stage telemetry frame arrives on a lane and its phase currents and SIDE bit are taken. -/
  | tlmFrame (stage : Nat) (lane : Nat) (word : Nat)
  /-- TLM_MISSING_FRAME, R105. A frame time passes with a bad or missing frame, so previous samples are reused, errors counted and lock lost after 3. -/
  | tlmMissingFrame (stage : Nat) (lane : Nat)
  /-- TLM_LOST, R106. A lane delivers no good frame for 16 frame times, so its 4 phases are marked FAILED with cause TLM_LOST. -/
  | tlmLost (stage : Nat) (lane : Nat)
  /-- SUPERFRAME, R108. A complete superframe of 64 good frames is received, checked and its fields taken into PST_STG_STAT. -/
  | superframe (stage : Nat) (sameStart : Bool)
  /-- SYNC_ACQUIRE, R112. The switching period locks to SYNC_IN after its phase error stays within 1 ROOT period for 16 periods. -/
  | syncAcquire (period : Nat)
  /-- SYNC_LOSS, R114. An out-of-range SYNC_IN period or 2 missing edges drop sync and restart acquisition. -/
  | syncLoss
  /-- LOOP_EVALUATION, R168. In each switching period every rail's control law is evaluated in both datapath copies and its duty passed to the stage controller. -/
  | loopEvaluation (vin : Nat) (volts : List Nat) (sync : SyncIn) (disagree : Nat) (flagged : Bool)
  /-- CMP_HOLD, R177. CMP_N consecutive disagreements put the rail in HOLD with cause CMP and a floor budget. -/
  | cmpHold (rail : Nat)
  /-- FE_HOLD, R181. The EXCURSION timer reaches TIME, putting the rail in HOLD with cause FE and a floor budget. -/
  | feHold (rail : Nat)
  /-- HICCUP_ENTER, R123. HICCUP_N consecutive limited cycles put a phase in HICCUP, or in FAILED at HICCUP_MAX. -/
  | hiccupEnter (phase : Nat)
  /-- HICCUP_END, R124. The HICCUP time passes and the phase enters SOFT. -/
  | hiccupEnd (phase : Nat)
  /-- HICCUP_RUN_CLEAR, R124. After 10 ms unbroken in RUN, a phase's HICCUP_RUN returns to 0. -/
  | hiccupRunClear (phase : Nat)
  /-- PHASE_RAMP_END, R127. A 16-cycle share ramp ends, moving the phase from SOFT to RUN or from SHEDDING to SHED. -/
  | phaseRampEnd (phase : Nat)
  /-- SHED_PHASE, R135. The shed conditions have held for SHED_HOLD (and SHED_STEP since the last shed), so the next phase enters SHEDDING. -/
  | shedPhase (rail : Nat)
  /-- BRAKE_TIMEOUT, R133. BRAKING ends when MAX_NS has passed. -/
  | brakeTimeout (rail : Nat)
  /-- OPEN_PHASE, R141. OPEN_CNT qualifying cycles mark a phase FAILED with cause OPEN and derate its rail. -/
  | openPhase (phase : Nat)
  /-- SENSE_FAILURE, R141. 16 qualifying cycles mark a phase FAILED with cause SENSE and derate its rail. -/
  | senseFailure (phase : Nat)
  /-- PMB_POLL, R149. Every 4 ms the stage controller reads telemetry and status from each enabled converter. -/
  | pmbPoll (readings : List Round)
  /-- PMB_ALERT, R152. PMB_ALERT_N low causes STATUS_WORD reads of every converter after the transaction in progress. -/
  | pmbAlert (statuses : List Round)
  /-- PHASE_RETIRE, R154. Command 0x0201 marks a phase FAILED with cause OPERATOR and derates its rail. -/
  | phaseRetire (port : Nat) (tag : Nat)
  /-- PHASE_RESTORE, R155. Command 0x0202 moves a FAILED phase to SOFT and clears a LOST rail. -/
  | phaseRestore (port : Nat) (tag : Nat)
  /-- CONV_VOUT_SET, R156. Command 0x0203 writes VOUT_COMMAND to a board converter and returns READ_VOUT. -/
  | convVoutSet (port : Nat) (tag : Nat) (acked : Acks)
  /-- CONV_CLEAR, R157. Command 0x0204 sends CLEAR_FAULTS and clears CONV_FAULT and NO_AUTO_CLR. -/
  | convClear (port : Nat) (tag : Nat) (acked : Acks)
  /-- COMMIT, R189. A write of 1 to LPE_CTRL.COMMIT checks a rail's shadow set and makes it active at the next evaluation. -/
  | commit (port : Nat) (rail : Nat) (value : Nat)
  /-- LOOP_RESUME, R200. Command 0x0301 takes a rail out of HOLD bumplessly into TRACK. -/
  | loopResume (port : Nat) (tag : Nat)
  /-- LOOP_TEST, R201. Command 0x0302 starts the injection and capture test described by the LPE_INJ and LPE_CAP registers. -/
  | loopTest (port : Nat) (tag : Nat)
  /-- LOOP_TEST_STOP, R202. Command 0x0303 stops the running test at the next evaluation. -/
  | loopTestStop (port : Nat) (tag : Nat)
  /-- LOOP_TEST_END, R198. A test stops when its steps or entries are complete, on stop, or on HOLD or OFF, completing LOOP_TEST. -/
  | loopTestEnd
  /-- COUNTER_LATCH, R207. At each estimator-cycle boundary every agent latches its 4,096 activity counters and starts its first layer. -/
  | counterLatch (counts : List (Nat × Nat × Nat))
  /-- FIRST_LAYER_DONE, R213. The agent completes the first layer and sends the 64 hidden outputs in an ESTIMATE frame. -/
  | firstLayerDone (die : Nat)
  /-- ESTIMATE_FRAME, R223. The core receives a die's ESTIMATE frame, discarding one that arrives after its window's second stage started. -/
  | estimateFrame (die : Nat) (frame : Frame) (window : Nat)
  /-- SECOND_STAGE, R214. At each estimator cycle the core runs the second layer, leakage and trim for all dies and publishes the outputs. -/
  | secondStage
  /-- TRIM_UPDATE, R229. At the end of each 64 µs trim window the trim pairs are updated by recursive least squares. -/
  | trimUpdate
  /-- MODEL_SWITCH, R242. Once all bank writes are done, every die of the mask switches banks at one estimator-cycle boundary. -/
  | modelSwitch
  /-- STAGE_TIMEOUT, R241. The staging buffer owner issues no write or load for 10 s, so the buffer is released. -/
  | stageTimeout
  /-- MODEL_OPEN, R247. Command 0x0401 assigns and zeroes the staging buffer. -/
  | modelOpen (port : Nat) (tag : Nat)
  /-- MODEL_WRITE, R248. Command 0x0402 copies words into the staging buffer. -/
  | modelWrite (port : Nat) (tag : Nat)
  /-- MODEL_LOAD, R249. Command 0x0403 checks the staged package and writes it into the inactive banks. -/
  | modelLoad (port : Nat) (tag : Nat)
  /-- MODEL_CLOSE, R250. Command 0x0404 releases the staging buffer. -/
  | modelClose (port : Nat) (tag : Nat)
  /-- MODEL_REVERT, R251. Command 0x0405 switches dies back to their other bank. -/
  | modelRevert (port : Nat) (tag : Nat)
  /-- TRIM_RESET, R252. Command 0x0406 returns trim pairs to the active model's initial values. -/
  | trimReset (port : Nat) (tag : Nat)
  /-- INTENT_PACKET, R257. An agent accepts or discards an intent packet from a source and enters it in the profile. -/
  | intentPacket (die : Nat) (word : Nat)
  /-- INTENT_FRAME, R258. The core receives forwarded intent entries into its copy of the profile. -/
  | intentFrame (die : Nat) (lane : Nat) (bytes : List Nat) (slot : Nat)
  /-- ENTRY_EXPIRE, R262. An intent entry's last slot passes, so it is removed and its level becomes the standing level. -/
  | entryExpire (die : Nat) (source : Nat)
  /-- MISMATCH_ENTER, R281. MM_N consecutive mismatched slots put the die in MISMATCH. -/
  | mismatchEnter (die : Nat)
  /-- MISMATCH_EXIT, R281. MM_CLR consecutive slots within the margin end MISMATCH. -/
  | mismatchExit (die : Nat)
  /-- DROOP_DETECT, R285. A droop site stays below threshold for the deglitch time, so issue is cut to the floor and STRETCH_REQ asserted. -/
  | droopDetect (die : Nat) (site : Nat)
  /-- DROOP_CLEAR, R287. Every detecting site clears, ending the cut and releasing STRETCH_REQ. -/
  | droopClear (die : Nat) (sites : Nat)
  /-- DROOP_REPORT, R290. The core receives a droop's site mask and stamps and updates status, records and capture trigger. -/
  | droopReport (die : Nat) (frame : Frame) (mask : Nat) (stamps : CutStamps)
  /-- SITE_STUCK, R291. A site detecting for STUCK_US while the sensed VCORE stays high is marked STUCK and masked. -/
  | siteStuck (die : Nat) (site : Nat)
  /-- SITE_TEST, R292. Every 1 ms each droop site is tested in turn. -/
  | siteTest (die : Nat) (failing : Nat)
  /-- INTENT_RESET, R294. Command 0x0501 clears intent entries, collectives and MISMATCH for the dies of a mask. -/
  | intentReset (port : Nat) (tag : Nat)
  /-- DROOP_SITE_RESTORE, R295. Command 0x0502 tests and unmasks named droop sites. -/
  | droopSiteRestore (port : Nat) (tag : Nat) (failing : Nat)
  /-- DROOP_FORCE, R296. Command 0x0503 forces a site to detecting for a duration. -/
  | droopForce (port : Nat) (tag : Nat)
  /-- AGENT_SLOT, R304. At each slot boundary the agent forms the grant, records the last grant and computes filler. -/
  | agentSlot (die : Nat) (work : SlotWork) (cut : CutPoint)
  /-- EPISODE_END, R317. A glide episode ends when n reaches n_g. -/
  | episodeEnd (die : Nat)
  /-- PACKAGE_ARBITRATION, R311. Each slot the core forms every die's share of the package pool for the next slot. -/
  | packageArbitration (slotPs : Nat)
  /-- WARM_TIMEOUT, R325. HEATING lasts TIMEOUT_S, setting WARM_TIMEOUT and asserting FAULT_N. -/
  | warmTimeout
  /-- WARMUP_END, R329. Command 0x0504 ends HEATING as at DONE. -/
  | warmupEnd (port : Nat) (tag : Nat)
  /-- BROWN_ENTER, R353. 2 consecutive VIN samples below WARN enter BROWNOUT and start the ride-through timer. -/
  | brownEnter
  /-- BROWN_EXIT, R355. 2 consecutive samples at or above WARN + HYST return the package to NORMAL. -/
  | brownExit
  /-- BROWN_EXPIRED, R356. The ride-through timer expires in BROWNOUT, entering EXPIRED and asserting FAULT_N. -/
  | brownExpired
  /-- BROWN_RESET, R357. 2 consecutive samples at or below RESET start the power-down sequence. -/
  | brownReset
  /-- AVERAGE_UPDATE, R346. Every 1 ms the cooling average and its allowance are updated. -/
  | averageUpdate
  /-- OP_FREQUENCY_SEND, R360. When the ramped reference reaches a raised target in TRACK, the new frequency is sent to the die clock generator. -/
  | opFrequencySend (die : Nat)
  /-- OP_CHANGE, R360. The agent reports the generator at the new frequency, completing or continuing an operating-point change. -/
  | opChange (report : Arrival)
  /-- DEFERRED_APPLY, R369. A deferred change takes effect when its scope leaves COLLECTIVE or reaches a step boundary. -/
  | deferredApply
  /-- DEFER_MAX, R369. A deferred change reaches MAX_MS and takes effect, setting DEFER_MAX. -/
  | deferMax
  /-- CAP_SET_DONE, R372. A CAP_SET completes at a 1 ms tick with OK or ACCEPTED_UNMET. -/
  | capSetDone
  /-- CAP_SET, R379. Command 0x0601 sets a package cap, die cap or average limit. -/
  | capSet (port : Nat) (tag : Nat)
  /-- OP_TABLE_SET, R380. Command 0x0602 installs an operating-point table on dies. -/
  | opTableSet (port : Nat) (tag : Nat)
  /-- OP_LIMIT, R381. Command 0x0603 sets MIN and MAX operating points. -/
  | opLimit (port : Nat) (tag : Nat)
  /-- MODE_SET, R382. Command 0x0604 sets the package mode. -/
  | modeSet (port : Nat) (tag : Nat)
  /-- HINT_SET, R383. Command 0x0605 sets a phase tag's preferred OP and ceiling. -/
  | hintSet (port : Nat) (tag : Nat)
  /-- CLASS_SET, R384. Command 0x0606 sets the class order and floors. -/
  | classSet (port : Nat) (tag : Nat)
  /-- FP_TARGET, R385. Command 0x0607 sets the FIXED_POWER target. -/
  | fpTarget (port : Nat) (tag : Nat)
  /-- CONVERSION_OPEN, R393. Every 20 µs the core opens a thermal conversion window at a slot mark. -/
  | conversionOpen
  /-- WINDOW_CLOSE, R399. The sensor window closes, counts are latched and sent to the core. -/
  | windowClose (report : Arrival) (counts : List Nat)
  /-- THERMAL_CONVERSION, R394. The core scales and converts sensor counts, cross-checks, judges levels and trips, and runs the thermal loop. -/
  | thermalConversion (opened : Nat) (closed : Nat)
  /-- STACK_REPORT, R409. An agent forwards a stack's temperature and correctable-error count. -/
  | stackReport (stack : Nat) (frame : Frame) (report : StackState)
  /-- STACK_STALE, R409. No stack temperature for 10 ms makes the stack STALE. -/
  | stackStale (stack : Nat)
  /-- THERM_THRESH_SET, R416. Command 0x0701 sets warning and throttle thresholds. -/
  | thermThreshSet (port : Nat) (tag : Nat)
  /-- SENSOR_EXCLUDE, R417. Command 0x0702 excludes a sensor with cause OPERATOR. -/
  | sensorExclude (port : Nat) (tag : Nat)
  /-- SENSOR_READMIT, R418. Command 0x0703 readmits a sensor. -/
  | sensorReadmit (port : Nat) (tag : Nat)
  /-- THERM_RELEASE, R419. Command 0x0704 releases THERMTRIP_N. -/
  | thermRelease (port : Nat) (tag : Nat)
  /-- MASTER_FRAME_START, R425. The active master starts a ring frame every 10 µs. -/
  | masterFrameStart
  /-- RING_FRAME, R428. A member receives a ring frame, checks its header, writes its slot and keeps copies of other slots. -/
  | ringFrame (header : List Nat) (slots : List (List Nat))
  /-- BALANCE_ROUND, R442. At the end of FRAME 99 the master computes the next balancing round. -/
  | balanceRound
  /-- L_RING_APPLY, R443. A taken assignment is applied as L_RING at the member's first 1 ms tick from FRAME 0 of the following superframe. -/
  | lRingApply
  /-- RING_JOIN, R435. After 100 good headers in LISTEN the governor opens its bypass and becomes a member. -/
  | ringJoin
  /-- MASTER_TAKEOVER, R438. A MASTER or BACKUP with no good header for its takeover time starts sending frames as master. -/
  | masterTakeover
  /-- MASTER_YIELD, R438. A master seeing a header of higher precedence stops sending at the next idle gap. -/
  | masterYield
  /-- NO_MASTER, R449. No good header for 30 µs sets NO_MASTER. -/
  | noMaster
  /-- BYPASS_CLOSE, R434. The ring bypass closes at the next idle gap after EN is written 0. -/
  | bypassClose
  /-- DIGEST_RECOMPUTE, R445. The configuration digest is recomputed after a generation change and DIG_BUSY clears. -/
  | digestRecompute
  /-- GET_CONFIG_DIGEST, R451. Command 0x0801 copies the digest and generation to the port's area. -/
  | getConfigDigest (port : Nat) (tag : Nat)
  /-- RING_FORGET, R452. Command 0x0802 makes a member unknown to the master. -/
  | ringForget (port : Nat) (tag : Nat)
  /-- SNAPSHOT, R457. At the first slot mark after each 1 ms tick every agent latches its queue taps. -/
  | snapshot
  /-- QUEUE_TAPS, R459. The core receives a die's taps and updates stall ages. -/
  | queueTaps (report : Arrival) (taps : List Nat)
  /-- TAP_LATE, R457. A die's taps not arrived 50 µs after the snapshot set TAP_LATE. -/
  | tapLate (die : Nat)
  /-- WALK, R461. The walker finds wait-for cycles among eligible queues. -/
  | walk (stop : Nat)
  /-- ENGINE_FAULT, R464. An agent's engine-fault report names the faulting context. -/
  | engineFault (report : Arrival) (ctx : Nat) (engine : Nat) (fault : FaultCode)
  /-- POLICY_QUEUE, R468. Firmware queues named contexts for reset by policy. -/
  | policyQueue (ctx : Nat)
  /-- SEQUENCE_START, R469. The sequencer takes the oldest pending context and sends fence orders. -/
  | sequenceStart
  /-- FENCE_ACK, R470. Every agent acknowledges the fence and draining begins. -/
  | fenceAck (who : Nat) (outstanding : Nat)
  /-- DRAIN_END, R470. Outstanding requests reach zero or DRAIN_US passes and abort begins. -/
  | drainEnd (who : Nat) (outstanding : Nat)
  /-- ABORT_ACK, R474. Every agent acknowledges the abort, settling transfers and starting capture. -/
  | abortAck (who : Nat) (answered : Nat)
  /-- CAPTURE_DONE, R476. The last captured byte is in the buffer and clear begins. -/
  | captureDone (data : List Nat) (trunc : Bool)
  /-- CAPTURE_OVERRUN, R476. Capture overruns its bound, keeps bytes copied, sets TRUNC and ends. -/
  | captureOverrun (data : List Nat)
  /-- CLEAR_ACK, R470. Every agent acknowledges the clear and release begins. -/
  | clearAck
  /-- RELEASE_ACK, R470. Every agent acknowledges release and the context returns to NORMAL. -/
  | releaseAck
  /-- SEQUENCE_STUCK, R473. A fence, abort, clear or release step overruns, so the context enters STUCK. -/
  | sequenceStuck
  /-- CTX_RESET, R484. Command 0x0901 queues a context reset. -/
  | ctxReset (port : Nat) (tag : Nat)
  /-- CTX_DISMISS, R485. Command 0x0902 returns a NAMED context to NORMAL. -/
  | ctxDismiss (port : Nat) (tag : Nat)
  /-- RETURN_TO_SERVICE, R486. Command 0x0903 ends OUT_OF_SERVICE. -/
  | returnToService (port : Nat) (tag : Nat)
  /-- CAPWIN_SET, R487. Command 0x0904 programs capture windows. -/
  | capwinSet (port : Nat) (tag : Nat)
  /-- CAPTURE_FREE, R488. Command 0x0905 frees capture slots. -/
  | captureFree (port : Nat) (tag : Nat)
  /-- ENTROPY_FAIL, R504. An entropy health test fails, clearing ENT_OK and asserting FAULT_N. -/
  | entropyFail
  /-- DRBG_RESEED, R504. The DRBG reseeds after 65,536 requests. -/
  | drbgReseed
  /-- KEY_COMMIT, R522. Every engine acknowledges LOAD, so one COMMIT switches the epoch. -/
  | keyCommit (part : Nat)
  /-- KEYBUS_TIMEOUT, R522. A missing acknowledgement within 100 µs erases standby keys and sets KEYBUS_ERR. -/
  | keybusTimeout (part : Nat)
  /-- PREV_EPOCH_COUNT, R523. Every 100 µs previous-epoch counts are read and the previous slot erased when both are 0. -/
  | prevEpochCount (part : Nat) (pages : Nat) (inflight : Nat)
  /-- SCRUB_OVERWRITE_DONE, R531. Every engine finishes overwriting under the scrub key and the scrub unbinds and frees the partition. -/
  | scrubOverwriteDone (part : Nat) (pages : Nat)
  /-- SCRUB_FAIL, R534. The overwrite overruns TIMEOUT_S, so the partition enters SCRUB_FAIL. -/
  | scrubFail (part : Nat)
  /-- PART_SET, R536. Command 0x0A01 creates, changes or dissolves a partition. -/
  | partSet (port : Nat) (tag : Nat)
  /-- PART_SCRUB, R537. Command 0x0A02 starts the scrub of a partition. -/
  | partScrub (port : Nat) (tag : Nat)
  /-- PORT_BIND, R538. Command 0x0A03 sets a host port's authority and partition. -/
  | portBind (port : Nat) (tag : Nat)
  /-- SPDM_MSG, R539. Command 0x0A04 carries an SPDM request and returns the response. -/
  | spdmMsg (port : Nat) (tag : Nat)
  /-- KEY_RELEASE, R540. Command 0x0A05 unwraps a model key and loads it into the partition's engines. -/
  | keyRelease (port : Nat) (tag : Nat)
  /-- KEY_ROTATE, R541. Command 0x0A06 starts a key rotation. -/
  | keyRotate (port : Nat) (tag : Nat)
  /-- DEBUG_SET, R542. Command 0x0A07 sets debug and profiling enables for dies. -/
  | debugSet (port : Nat) (tag : Nat)
  /-- COMMAND_FETCH, R561. The command logic fetches a port's next packet and judges it in order. -/
  | commandFetch (port : Nat) (packet : List Nat)
  /-- CMD_SQ_TAIL_WRITE, R555. A write to CMD_SQ_TAIL exposes new packets or is rejected. -/
  | cmdSqTailWrite (port : Nat) (value : Nat)
  /-- CMD_CQ_HEAD_WRITE, R556. A write to CMD_CQ_HEAD frees completion entries or is rejected. -/
  | cmdCqHeadWrite (port : Nat) (value : Nat)
  /-- NEGOTIATE, R569. Command 0x0101 sets the port's command-set version. -/
  | negotiate (port : Nat) (tag : Nat)
  /-- VIOL_CLEAR, R576. Command 0x0102 empties the violation log. -/
  | violClear (port : Nat) (tag : Nat)
  /-- LOCK_FORCE, R588. Command 0x0103 frees a lock. -/
  | lockForce (port : Nat) (tag : Nat)
  /-- ACCESS_VIOLATION, R548. An access outside the port's authority or of wrong size returns an error response and is logged. -/
  | accessViolation (port : Nat) (offset : Nat) (isWrite : Bool) (bytes : Nat) (value : Nat)
  /-- REGISTER_WRITE, R20. A write to a register without a row of its own is judged field by field and applied or rejected. -/
  | registerWrite (port : Nat) (offset : Nat) (value : Nat)
  /-- HIGH_WORD_LATCH, R19. A read of the low word of a 64-bit register latches its high word for the port. -/
  | highWordLatch (port : Nat) (offset : Nat)
  /-- MBX_SEND, R577. A write to MBX_SEND.DST sends a mailbox message or is rejected. -/
  | mbxSend (port : Nat) (value : Nat)
  /-- MBX_FORWARD, R579. A message waiting in an outbound queue moves to its inbound queue when space frees. -/
  | mbxForward (dst : Nat)
  /-- MBX_RECV, R580. A read of the low word of MBX_RECV returns and removes the oldest inbound entry. -/
  | mbxRecv (port : Nat)
  /-- NOTIFY_ENABLE_WRITE, R583. A write to CMD_NOTIFY_EN enabling a set cause asserts the notification at once. -/
  | notifyEnableWrite (port : Nat) (value : Nat)
  /-- LOCK_READ, R584. A read of LCK takes, reports or confirms ownership of a lock. -/
  | lockRead (lock : Nat) (ports : List Nat)
  /-- LOCK_RELEASE, R586. A write of 1 to LCK.RELEASE by the owner frees the lock. -/
  | lockRelease (port : Nat) (lock : Nat) (value : Nat)
  /-- I3C_PRIVATE_WRITE, R552. A BMC private write sets the offset and writes words to the window. -/
  | i3cPrivateWrite (data : List Nat)
  /-- I3C_PRIVATE_READ, R552. A BMC private read returns words from the current offset. -/
  | i3cPrivateRead (words : Nat)
  /-- ENTDAA, R551. CCC ENTDAA assigns the BMC port a dynamic address. -/
  | entdaa (address : Nat)
  /-- RSTDAA, R551. CCC RSTDAA resets the dynamic address. -/
  | rstdaa
  /-- ENEC, R553. CCC ENEC enables events, raising an IBI if an enabled bit is set. -/
  | enec (events : Nat)
  /-- DISEC, R551. CCC DISEC disables in-band interrupts. -/
  | disec (events : Nat)
  /-- SETMWL, R551. CCC SETMWL sets the maximum write length. -/
  | setmwl (length : Nat)
  /-- SETMRL, R551. CCC SETMRL sets the maximum read length. -/
  | setmrl (length : Nat)
  /-- GETPID, R550. CCC GETPID returns the provisional ID. -/
  | getpid
  /-- GETBCR, R550. CCC GETBCR returns BCR 0x06. -/
  | getbcr
  /-- GETDCR, R550. CCC GETDCR returns DCR 0x00. -/
  | getdcr
  /-- GETSTATUS, R551. CCC GETSTATUS returns the target status. -/
  | getstatus
  /-- GETMWL, R551. CCC GETMWL returns the maximum write length. -/
  | getmwl
  /-- GETMRL, R551. CCC GETMRL returns the maximum read length. -/
  | getmrl
  /-- RECORD_WRITE, R594. An event leaves the recorder queue and is written as a record with snapshots, or counted as a repeat. -/
  | recordWrite
  /-- RECORD_READ_LATCH, R602. A read of the low word of TIME or LAST in the recorder window latches the matching words for the port. -/
  | recordReadLatch (port : Nat) (offset : Nat)
  /-- WATCH_TRIGGER, R599. On each µs tick a watch trigger compares its masked word and records WATCH when it fires. -/
  | watchTrigger (trigger : Nat)
  /-- HEALTH_COMPUTE, R605. Every 10 ms firmware computes the checkpoint-risk score. -/
  | healthCompute
  /-- REC_TRIG_SET, R610. Command 0x0B01 sets a watch trigger. -/
  | recTrigSet (port : Nat) (tag : Nat)
  /-- REC_SNAP_SET, R611. Command 0x0B02 sets a snapshot slot. -/
  | recSnapSet (port : Nat) (tag : Nat)
  /-- REC_CLEAR, R612. Command 0x0B03 starts clearing the recorder. -/
  | recClear (port : Nat) (tag : Nat)
  /-- REC_CLEAR_DONE, R612. The clear ends with REC_CLEARED written as record 0 and CLEARING returns to 0. -/
  | recClearDone
  /-- HEALTH_SET, R613. Command 0x0B04 sets advisory and contributor settings. -/
  | healthSet (port : Nat) (tag : Nat)
  /-- SUPPLY_GOOD, R617. The supply and reset conditions hold for 1 ms, meeting the GOV_PWRGOOD conditions. -/
  | supplyGood
  /-- COLD_RESET, R617. A supply or GOV_RESET_N condition fails and the governor cold-resets. -/
  | coldReset (cause : ColdCause)
  /-- BOOT_STAGE_END, R618. A boot stage's end condition is met and the next stage begins. -/
  | bootStageEnd
  /-- BOOT_STAGE_TIMEOUT, R618. A boot stage reaches its bound and ends in BOOT_FAIL, OFF or power-down. -/
  | bootStageTimeout (sfdp : Bool)
  /-- GOV_WARM_RESET, R628. BOOT_RESET.GOV starts a governor warm reset that reruns LOAD and FW. -/
  | govWarmReset (port : Nat) (value : Nat)
  /-- ACCELERATOR_RESET, R628. BOOT_RESET.ACC resets every die and agent with PKG_RESET_N held low. -/
  | acceleratorReset (port : Nat) (value : Nat)
  /-- ACC_RESET_END, R628. PKG_RST_US passes and the accelerator leaves reset after keys are reloaded. -/
  | accResetEnd
  /-- DIE_RESET, R628. BOOT_RESET.DIE resets the named dies and their agents. -/
  | dieReset (port : Nat) (value : Nat)
  /-- DIE_RESET_END, R629. A die leaves reset after its keys are reloaded. -/
  | dieResetEnd (die : Nat)
  /-- G1_ENTER, R632. BOOT_GSTATE.REQ 1 from G0 lowers issue, gates die clocks and sheds phases. -/
  | g1Enter (port : Nat) (value : Nat)
  /-- G2_ENTER, R632. BOOT_GSTATE.REQ 2 puts memory in self-refresh and turns VCORE and VLINK OFF. -/
  | g2Enter (port : Nat) (value : Nat)
  /-- G0_RETURN, R632. BOOT_GSTATE.REQ 0 returns the package from G1, G2 or OFF. -/
  | g0Return (port : Nat) (value : Nat)
  /-- G3_REQUEST, R633. BOOT_GSTATE.REQ 3 runs power-down with cause REQUEST and drives GOV_PWRGOOD low. -/
  | g3Request (port : Nat) (value : Nat)
  /-- G2_ABANDONED, R634. A die does not report self-refresh within 1 ms, so G2 entry is abandoned. -/
  | g2Abandoned (die : Nat)
  /-- POWER_DOWN, R636. The power-down sequence zeroes grants and turns off VCORE, VMEM and VLINK in order. -/
  | powerDown
  /-- AUTO_RESTART, R637. After a brownout power-down, VIN holds good for RESTART_MS and the package powers up again. -/
  | autoRestart
  /-- LOCKSTEP_MISMATCH, R639. A lockstep mismatch starts a firmware restart. -/
  | lockstepMismatch
  /-- WATCHDOG_EXPIRE, R639. The watchdog expires without a kick, starting a firmware restart. -/
  | watchdogExpire
  /-- WATCHDOG_KICK, R639. A write to SAF_KICK from the firmware port restarts the watchdog. -/
  | watchdogKick (port : Nat) (value : Nat)
  /-- SRAM_UE, R639. An uncorrectable SRAM ECC error starts a firmware restart. -/
  | sramUe
  /-- SRAM_CE, R639. A correctable SRAM error is corrected and counted. -/
  | sramCe (count : Nat)
  /-- FW_REQUEST, R639. Firmware requests its own restart. -/
  | fwRequest
  /-- FW_RESTART_DONE, R640. The SRAM digest is checked after a restart trigger and firmware is ready again, or a warm reset follows. -/
  | fwRestartDone (upsets : List (Nat × Nat))
  /-- SVN_ADV, R627. An image with SVN_ADV has run 60 s in READY, so its SVN fuse is raised. -/
  | svnAdv (kind : Nat)
  /-- CONFIG_SCAN, R649. Every 1 ms a CRC over the KEEP settings is compared with its reference. -/
  | configScan (upsets : List Upset)
  /-- SAF_FAULT_CLEAR, R650. A write of 1 to a SAF_FAULT bit clears it once its condition no longer holds. -/
  | safFaultClear (port : Nat) (value : Nat)
  /-- FW_OPEN, R643. Command 0x0C01 erases and assigns the other flash slot. -/
  | fwOpen (port : Nat) (tag : Nat) (failed : Bool)
  /-- FW_WRITE, R644. Command 0x0C02 programs words into the assigned slot. -/
  | fwWrite (port : Nat) (tag : Nat) (failed : Bool)
  /-- FW_COMMIT, R645. Command 0x0C03 verifies the slot and writes a boot-select record preferring it. -/
  | fwCommit (port : Nat) (tag : Nat) (write : RecordWrite)
  /-- FW_RESTART, R646. Command 0x0C04 starts a firmware restart or a governor warm reset. -/
  | fwRestart (port : Nat) (tag : Nat)
  /-- SELF_REFRESH_REPORT, R632. Every die reports its memory in self-refresh, so G2 entry proceeds with PKG_RESET_N low and VCORE and VLINK turned OFF. -/
  | selfRefreshReport (report : Arrival)
  /-- KEY_BUS_ACKNOWLEDGEMENT, R506. Engines acknowledge a MODEL, ERASE, IDLE or SCRUB order on the key bus, completing a key release, a previous-epoch erase or a scrub step. -/
  | keyBusAcknowledgement (part : Nat) (order : Nat)
  /-- ENTROPY_SOURCE_RESTART, R504. A restart of the entropy source passes its start-up tests, setting ENT_OK to 1 so that fresh keys can be made again. -/
  | entropySourceRestart
  /-- READ_VOUT_AFTER_WRITE, R156. 1 ms after a CONV_VOUT_SET write, READ_VOUT is read from the converter and the command completes with it. -/
  | readVoutAfterWrite (port : Nat) (tag : Nat) (value : Nat) (acked : Acks)
  /-- CORRECTABLE_ERROR_REPORT, R604. An agent forwards correctable-error counts that the accelerator reports for its die, and HLT_EVT of contributor CE counts them. -/
  | correctableErrorReport (report : Arrival) (count : Nat)
deriving DecidableEq, Repr

end Sys2Proof
end

