-- ==== Sys2Proof/Machine/Bits.lean ====
section
/-! DEFINITION. Sys2Proof/Machine/Bits.lean: bit fields, two's complement codes, saturation and the
roundings of R12 and R24, over Nat and Int. -/

namespace Sys2Proof.Machine

/-- Bits [lo+w-1:lo] of a number. -/
def bits (v lo w : Nat) : Nat := (v >>> lo) % 2 ^ w

/-- Bit i of a number. -/
def bit (v i : Nat) : Bool := (v >>> i) % 2 = 1

/-- A number with bit i set. -/
def setBit (v i : Nat) : Nat := v ||| 2 ^ i

/-- A number with bit i cleared. -/
def clrBit (v i : Nat) : Nat := if bit v i then v - 2 ^ i else v

/-- Bit i of a number written to b. -/
def putBit (v i : Nat) (b : Bool) : Nat := if b then setBit v i else clrBit v i

/-- The bits of v that are not bits of m. -/
def bitsClear (v m : Nat) : Nat := v - (v &&& m)

/-- 1 for true, 0 for false. -/
def b2n (b : Bool) : Nat := if b then 1 else 0

/-- The integer that a w-bit two's complement code stands for (R11, R13). -/
def toSigned (w v : Nat) : Int := if v % 2 ^ w < 2 ^ (w - 1) then ((v % 2 ^ w : Nat) : Int) else ((v % 2 ^ w : Nat) : Int) - 2 ^ w

/-- The w-bit two's complement code of an integer, wrapped (R24). -/
def ofSigned (w : Nat) (x : Int) : Nat := (x % (2 ^ w : Int)).toNat

/-- sat(x, n) of R24: the range of an n-bit two's complement integer. -/
def satI (x : Int) (n : Nat) : Int := max (-(2 ^ (n - 1) : Int)) (min ((2 ^ (n - 1) : Int) - 1) x)

/-- An integer clamped to the range from lo to hi. -/
def clampI (lo hi x : Int) : Int := max lo (min hi x)

/-- A number clamped to the range from lo to hi. -/
def clampN (lo hi x : Nat) : Nat := max lo (min hi x)

/-- Division rounded up; 0 for a divisor of 0. -/
def cdiv (a b : Nat) : Nat := if b = 0 then 0 else (a + b - 1) / b

/-- R12: a quotient rounded to nearest, ties away from zero, for a positive divisor. -/
def roundDiv (a : Int) (b : Nat) : Int :=
  if a < 0 then -(((2 * a.natAbs + b) / (2 * b) : Nat) : Int) else (((2 * a.natAbs + b) / (2 * b) : Nat) : Int)

/-- R24: ">>" on a signed value, the arithmetic shift. -/
def sar (x : Int) (k : Nat) : Int := x.fdiv (2 ^ k)

/-- R24: integer division, rounding towards zero. -/
def divZ (a b : Int) : Int := a.tdiv b

/-- How many of the lowest n bits of v are 1. -/
def popcount (n v : Nat) : Nat := ((List.range n).filter (bit v)).length

/-- The indices below n whose bit of v is 1, rising. -/
def bitList (n v : Nat) : List Nat := (List.range n).filter (bit v)

/-- The mask whose bits are the given indices. -/
def maskOf (l : List Nat) : Nat := l.foldl setBit 0

/-- The little-endian number of a byte list (R14). -/
def leNat : List Nat → Nat
  | [] => 0
  | b :: t => b % 256 + 256 * leNat t

/-- The n little-endian bytes of a number (R14). -/
def leBytes (n v : Nat) : List Nat := (List.range n).map fun i => (v >>> (8 * i)) % 256

/-- The big-endian number of a byte list. -/
def beNat (l : List Nat) : Nat := l.foldl (fun a b => 256 * a + b % 256) 0

/-- The n big-endian bytes of a number. -/
def beBytes (n v : Nat) : List Nat := (List.range n).map fun i => (v >>> (8 * (n - 1 - i))) % 256

/-- The i-th element, 0 outside the list. -/
def nth (l : List Nat) (i : Nat) : Nat := l.getD i 0

/-- The i-th element of an integer list, 0 outside. -/
def nthI (l : List Int) (i : Nat) : Int := l.getD i 0

/-- A list with element i replaced (unchanged where i lies outside). -/
def upd {α : Type} (l : List α) (i : Nat) (v : α) : List α := l.set i v

/-- n bytes of a list from an offset. -/
def slice (l : List Nat) (o n : Nat) : List Nat := (l.drop o).take n

/-- A little-endian number of n bytes at an offset. -/
def leAt (l : List Nat) (o n : Nat) : Nat := leNat (slice l o n)

/-- A signed number of n bytes at an offset. -/
def seAt (l : List Nat) (o n : Nat) : Int := toSigned (8 * n) (leAt l o n)

/-- An integer wrapped to w bits (R24). -/
def wrapI (w : Nat) (x : Int) : Int := toSigned w (ofSigned w x)

end Sys2Proof.Machine
end

