-- ==== Sys2Proof/Machine/Crypto.lean ====
section
/-! DEFINITION. Sys2Proof/Machine/Crypto.lean: the algorithms that the spec names and that other standards
define: SHA-384 (R238, R445, R517, R625), ECDSA and ECDH on P-384 (R238, R505, R518, R624), and the AES-256
key unwrap of NIST SP 800-38F (R518). Log 13: taken from those standards, PRESUMED. -/

namespace Sys2Proof.Machine

/-- Round constants 0 to 19 of SHA-384. -/
def shaK0 : List Nat :=
  [0x428A2F98D728AE22, 0x7137449123EF65CD, 0xB5C0FBCFEC4D3B2F, 0xE9B5DBA58189DBBC,
   0x3956C25BF348B538, 0x59F111F1B605D019, 0x923F82A4AF194F9B, 0xAB1C5ED5DA6D8118,
   0xD807AA98A3030242, 0x12835B0145706FBE, 0x243185BE4EE4B28C, 0x550C7DC3D5FFB4E2,
   0x72BE5D74F27B896F, 0x80DEB1FE3B1696B1, 0x9BDC06A725C71235, 0xC19BF174CF692694,
   0xE49B69C19EF14AD2, 0xEFBE4786384F25E3, 0x0FC19DC68B8CD5B5, 0x240CA1CC77AC9C65]

/-- Round constants 20 to 39 of SHA-384. -/
def shaK1 : List Nat :=
  [0x2DE92C6F592B0275, 0x4A7484AA6EA6E483, 0x5CB0A9DCBD41FBD4, 0x76F988DA831153B5,
   0x983E5152EE66DFAB, 0xA831C66D2DB43210, 0xB00327C898FB213F, 0xBF597FC7BEEF0EE4,
   0xC6E00BF33DA88FC2, 0xD5A79147930AA725, 0x06CA6351E003826F, 0x142929670A0E6E70,
   0x27B70A8546D22FFC, 0x2E1B21385C26C926, 0x4D2C6DFC5AC42AED, 0x53380D139D95B3DF,
   0x650A73548BAF63DE, 0x766A0ABB3C77B2A8, 0x81C2C92E47EDAEE6, 0x92722C851482353B]

/-- Round constants 40 to 59 of SHA-384. -/
def shaK2 : List Nat :=
  [0xA2BFE8A14CF10364, 0xA81A664BBC423001, 0xC24B8B70D0F89791, 0xC76C51A30654BE30,
   0xD192E819D6EF5218, 0xD69906245565A910, 0xF40E35855771202A, 0x106AA07032BBD1B8,
   0x19A4C116B8D2D0C8, 0x1E376C085141AB53, 0x2748774CDF8EEB99, 0x34B0BCB5E19B48A8,
   0x391C0CB3C5C95A63, 0x4ED8AA4AE3418ACB, 0x5B9CCA4F7763E373, 0x682E6FF3D6B2B8A3,
   0x748F82EE5DEFB2FC, 0x78A5636F43172F60, 0x84C87814A1F0AB72, 0x8CC702081A6439EC]

/-- Round constants 60 to 79 of SHA-384. -/
def shaK3 : List Nat :=
  [0x90BEFFFA23631E28, 0xA4506CEBDE82BDE9, 0xBEF9A3F7B2C67915, 0xC67178F2E372532B,
   0xCA273ECEEA26619C, 0xD186B8C721C0C207, 0xEADA7DD6CDE0EB1E, 0xF57D4F7FEE6ED178,
   0x06F067AA72176FBA, 0x0A637DC5A2C898A6, 0x113F9804BEF90DAE, 0x1B710B35131C471B,
   0x28DB77F523047D84, 0x32CAAB7B40C72493, 0x3C9EBE0A15C9BEBC, 0x431D67C49C100D4C,
   0x4CC5D4BECB3E42B6, 0x597F299CFC657E2A, 0x5FCB6FAB3AD6FAEC, 0x6C44198C4A475817]

/-- The round constants of SHA-384. -/
def shaK : List Nat := shaK0 ++ shaK1 ++ shaK2 ++ shaK3

/-- The initial hash value of SHA-384. -/
def shaIV : List Nat :=
  [0xCBBB9D5DC1059ED8, 0x629A292A367CD507, 0x9159015A3070DD17, 0x152FECD8F70E5939,
   0x67332667FFC00B31, 0x8EB44A8768581511, 0xDB0C2E0D64F98FA7, 0x47B5481DBEFA4FA4]

/-- A 64-bit rotation to the right. -/
def rotr64 (x n : Nat) : Nat := (x >>> n) ||| (x <<< (64 - n)) % 2 ^ 64

/-- The message schedule, newest word first, extended n times. -/
def shaExtend : Nat → List Nat → List Nat
  | 0, w => w
  | n + 1, w =>
    let a := nth w 1
    let b := nth w 14
    let s1 := rotr64 a 19 ^^^ rotr64 a 61 ^^^ (a >>> 6)
    let s0 := rotr64 b 1 ^^^ rotr64 b 8 ^^^ (b >>> 7)
    shaExtend n ((s1 + nth w 6 + s0 + nth w 15) % 2 ^ 64 :: w)

/-- One round on the eight working variables. -/
def shaRound (v : List Nat) (kw : Nat × Nat) : List Nat :=
  match v with
  | [a, b, c, d, e, f, g, h] =>
    let t1 := h + (rotr64 e 14 ^^^ rotr64 e 18 ^^^ rotr64 e 41) + ((e &&& f) ^^^ ((2 ^ 64 - 1 - e) &&& g)) + kw.1 + kw.2
    let t2 := (rotr64 a 28 ^^^ rotr64 a 34 ^^^ rotr64 a 39) + ((a &&& b) ^^^ (a &&& c) ^^^ (b &&& c))
    [(t1 + t2) % 2 ^ 64, a, b, c, (d + t1) % 2 ^ 64, e, f, g]
  | _ => v

/-- One 128-byte block taken into the hash value. -/
def shaBlock (h block : List Nat) : List Nat :=
  let w := (List.range 16).map fun i => beNat ((block.drop (8 * i)).take 8)
  let ws := (shaExtend 64 w.reverse).reverse
  List.zipWith (fun x y => (x + y) % 2 ^ 64) h ((shaK.zip ws).foldl shaRound h)

/-- n blocks taken in order. -/
def shaBlocks : Nat → List Nat → List Nat → List Nat
  | 0, h, _ => h
  | n + 1, h, m => shaBlocks n (shaBlock h (m.take 128)) (m.drop 128)

/-- SHA-384: the 48 bytes of the digest of a byte string. -/
def sha384 (m : List Nat) : List Nat :=
  let z := (128 - (m.length + 17) % 128) % 128
  let p := m ++ [0x80] ++ List.replicate z 0 ++ beBytes 16 (8 * m.length)
  ((shaBlocks (p.length / 128) shaIV p).take 6).flatMap (beBytes 8)

/-- The prime of P-384. -/
def p384p : Nat := 2 ^ 384 - 2 ^ 128 - 2 ^ 96 + 2 ^ 32 - 1
/-- The order of P-384. -/
def p384n : Nat := 0xFFFFFFFFFFFFFFFFFFFFFFFFFFFFFFFFFFFFFFFFFFFFFFFFC7634D81F4372DDF581A0DB248B0A77AECEC196ACCC52973
/-- The coefficient b of P-384. -/
def p384b : Nat := 0xB3312FA7E23EE7E4988E056BE3F82D19181D9C6EFE8141120314088F5013875AC656398D8A2ED19D2A85C8EDD3EC2AEF
/-- The base point of P-384. -/
def p384G : Nat × Nat :=
  (0xAA87CA22BE8B05378EB1C71EF320AD746E1D3B628BA79B9859F741E082542A385502F25DBF55296C3A545E3872760AB7,
   0x3617DE4A96262C6F5D9E98BF9292DC29F8F41DBD289A147CE9DA3113B5F0B8C00A60B1CE1D7E819D7A431D7C90EA0E5F)

/-- a to the power of the lowest k bits of e, modulo m, times acc. -/
def powMod (m : Nat) : Nat → Nat → Nat → Nat → Nat
  | 0, _, _, acc => acc
  | k + 1, a, e, acc => powMod m k (a * a % m) (e / 2) (if e % 2 = 1 then acc * a % m else acc)

/-- The inverse modulo a 384-bit prime. -/
def invMod (m a : Nat) : Nat := powMod m 384 (a % m) (m - 2) 1

/-- Whether a point lies on P-384. -/
def onCurve (x y : Nat) : Bool :=
  decide (x < p384p ∧ y < p384p) && y * y % p384p = (x * x * x + (p384p - 3) * x + p384b) % p384p

/-- A difference modulo the prime, of numbers below it. -/
def subP (a b : Nat) : Nat := (a + p384p - b) % p384p

/-- A point doubled in the form (x, y, z), which stands for (x / z², y / z³), with z = 0 at infinity. -/
def ecDouble : Nat × Nat × Nat → Nat × Nat × Nat
  | (x, y, z) =>
    let d := z * z % p384p
    let g := y * y % p384p
    let b := x * g % p384p
    let a := 3 * subP x d * (x + d) % p384p
    let x3 := (a * a + 8 * (p384p - b)) % p384p
    (x3, (a * subP (4 * b % p384p) x3 + 8 * g * (p384p - g)) % p384p, 2 * y * z % p384p)

/-- The sum of two points in that form. -/
def ecAdd : Nat × Nat × Nat → Nat × Nat × Nat → Nat × Nat × Nat
  | (x1, y1, z1), (x2, y2, z2) =>
    if z1 = 0 then (x2, y2, z2)
    else if z2 = 0 then (x1, y1, z1)
    else
      let q1 := z1 * z1 % p384p
      let q2 := z2 * z2 % p384p
      let u := x1 * q2 % p384p
      let v := y1 * q2 * z2 % p384p
      let h := subP (x2 * q1 % p384p) u
      let r := subP (y2 * q1 * z1 % p384p) v
      if h = 0 then (if r = 0 then ecDouble (x1, y1, z1) else (1, 1, 0))
      else
        let k := h * h % p384p
        let m := k * h % p384p
        let n := u * k % p384p
        let x3 := (r * r + (p384p - m) + 2 * (p384p - n)) % p384p
        (x3, (r * subP n x3 + v * (p384p - m)) % p384p, h * z1 * z2 % p384p)

/-- The affine coordinates of a point; none at infinity. -/
def ecAffine : Nat × Nat × Nat → Option (Nat × Nat)
  | (x, y, z) =>
    if z = 0 then none
    else
      let i := invMod p384p z
      some (x * i * i % p384p, y * i * i * i % p384p)

/-- The multiple of a point by the lowest k bits of d, plus acc. -/
def ecMulAux : Nat → Nat → Nat × Nat × Nat → Nat × Nat × Nat → Nat × Nat × Nat
  | 0, _, _, acc => acc
  | k + 1, d, q, acc => ecMulAux k (d / 2) (ecDouble q) (if d % 2 = 1 then ecAdd acc q else acc)

/-- A multiple of a point given by its coordinates. -/
def ecMulJ (d : Nat) (q : Nat × Nat) : Nat × Nat × Nat := ecMulAux 384 d (q.1, q.2, 1) (1, 1, 0)

/-- A multiple of a point; none is the point at infinity. -/
def ecMul (d : Nat) (q : Nat × Nat) : Option (Nat × Nat) := ecAffine (ecMulJ d q)

/-- A private key from any number, in 1 to n - 1. -/
def ecPrivate (v : Nat) : Nat := v % (p384n - 1) + 1

/-- ECDSA P-384 with SHA-384: whether (r, t) signs the message under the public key (x, y). -/
def ecdsaVerify (x y : Nat) (msg : List Nat) (r t : Nat) : Bool :=
  if onCurve x y ∧ 0 < r ∧ r < p384n ∧ 0 < t ∧ t < p384n then
    let w := invMod p384n t
    let z := beNat (sha384 msg) % p384n
    match ecAffine (ecAdd (ecMulJ (z * w % p384n) p384G) (ecMulJ (r * w % p384n) (x, y))) with
    | none => false
    | some (vx, _) => vx % p384n = r
  else false

/-- The ECDSA P-384 signature with SHA-384 of a message under a private key with a nonce: r and then the other half, each of
48 bytes, most significant first. -/
def ecdsaSign (d k : Nat) (msg : List Nat) : List Nat :=
  let r := match ecMul k p384G with
    | some (x, _) => x % p384n
    | none => 0
  beBytes 48 r ++ beBytes 48 (invMod p384n k * (beNat (sha384 msg) + r * d) % p384n)

/-- The rows of the S-box of FIPS 197, the first byte of a row most significant. -/
def aesBox : List Nat :=
  [0x637C777BF26B6FC53001672BFED7AB76, 0xCA82C97DFA5947F0ADD4A2AF9CA472C0, 0xB7FD9326363FF7CC34A5E5F171D83115,
   0x04C723C31896059A071280E2EB27B275, 0x09832C1A1B6E5AA0523BD6B329E32F84, 0x53D100ED20FCB15B6ACBBE394A4C58CF,
   0xD0EFAAFB434D338545F9027F503C9FA8, 0x51A3408F929D38F5BCB6DA2110FFF3D2, 0xCD0C13EC5F974417C4A77E3D645D1973,
   0x60814FDC222A908846EEB814DE5E0BDB, 0xE0323A0A4906245CC2D3AC629195E479, 0xE7C8376D8DD54EA96C56F4EA657AAE08,
   0xBA78252E1CA6B4C6E8DD741F4BBD8B8A, 0x703EB5664803F60E613557B986C11D9E, 0xE1F8981169D98E949B1E87E9CE5528DF,
   0x8CA1890DBFE6426841992D0FB054BB16]

/-- The rows of the inverse S-box. -/
def aesInvBox : List Nat :=
  [0x52096AD53036A538BF40A39E81F3D7FB, 0x7CE339829B2FFF87348E4344C4DEE9CB, 0x547B9432A6C2233DEE4C950B42FAC34E,
   0x082EA16628D924B2765BA2496D8BD125, 0x72F8F66486689816D4A45CCC5D65B692, 0x6C704850FDEDB9DA5E154657A78D9D84,
   0x90D8AB008CBCD30AF7E45805B8B34506, 0xD02C1E8FCA3F0F02C1AFBD0301138A6B, 0x3A9111414F67DCEA97F2CFCEF0B4E673,
   0x96AC7422E7AD3585E2F937E81C75DF6E, 0x47F11A711D29C5896FB7620EAA18BE1B, 0xFC563E4BC6D279209ADBC0FE78CD5AF4,
   0x1FDDA8338807C731B11210592780EC5F, 0x60517FA919B54A0D2DE57A9F93C99CEF, 0xA0E03B4DAE2AF5B0C8EBBB3C83539961,
   0x172B047EBA77D626E169146355210C7D]

/-- The byte of a table of 16 rows at a byte. -/
def boxAt (t : List Nat) (x : Nat) : Nat := (nth t (x / 16) >>> (8 * (15 - x % 16))) % 256

/-- SubBytes of AES on one byte. -/
def aesSub (x : Nat) : Nat := boxAt aesBox x

/-- InvSubBytes of AES on one byte. -/
def aesInvSub (y : Nat) : Nat := boxAt aesInvBox y

/-- A product by x in the field of AES. -/
def xtime (a : Nat) : Nat := if 128 ≤ a then (2 * a) % 256 ^^^ 0x1B else 2 * a

/-- The sum of a byte's product by 14 and three others' by 11, 13 and 9 in the field of AES. -/
def mixByte (a b c d : Nat) : Nat :=
  let u := xtime (xtime (a ^^^ c))
  xtime (u ^^^ xtime (xtime (b ^^^ d))) ^^^ u ^^^ xtime (a ^^^ b) ^^^ b ^^^ c ^^^ d

/-- Two byte strings added bit by bit. -/
def xorBytes (a b : List Nat) : List Nat := List.zipWith (· ^^^ ·) a b

/-- The key schedule of AES-256: words i to i + n - 1, newest first. -/
def aesExpand : Nat → Nat → List (List Nat) → List (List Nat)
  | 0, _, ws => ws
  | n + 1, i, ws =>
    let t := ws.headD []
    let u :=
      if i % 8 = 0 then
        let r := (t.drop 1 ++ t.take 1).map aesSub
        xorBytes r [2 ^ (i / 8 - 1), 0, 0, 0]
      else if i % 8 = 4 then t.map aesSub else t
    aesExpand n (i + 1) (xorBytes (ws.getD 7 []) u :: ws)

/-- The 15 round keys of AES-256, last first. -/
def aesKeys (key : List Nat) : List (List Nat) :=
  let w0 := ((List.range 8).map fun i => (key.drop (4 * i)).take 4).reverse
  let ws := (aesExpand 52 8 w0).reverse
  ((List.range 15).map fun r => ((ws.drop (4 * r)).take 4).flatten).reverse

/-- InvShiftRows of AES. -/
def aesInvShift (b : List Nat) : List Nat :=
  (List.range 16).map fun i => nth b ((i + 16 - 4 * (i % 4)) % 16)

/-- InvMixColumns of AES. -/
def aesInvMix (b : List Nat) : List Nat :=
  (List.range 16).map fun i =>
    let c := 4 * (i / 4)
    mixByte (nth b i) (nth b (c + (i + 1) % 4)) (nth b (c + (i + 2) % 4)) (nth b (c + (i + 3) % 4))

/-- AES-256 decryption of one 16-byte block. -/
def aesDecrypt (key block : List Nat) : List Nat :=
  match aesKeys key with
  | [] => block
  | k :: ks =>
    let s := xorBytes block k
    let s := (ks.take 13).foldl (fun s k => aesInvMix (xorBytes ((aesInvShift s).map aesInvSub) k)) s
    xorBytes ((aesInvShift s).map aesInvSub) (ks.getLastD [])

/-- The steps of the key unwrap, counting t down to 1, over n registers of 8 bytes. -/
def kwSteps (key : List Nat) (n : Nat) : Nat → List Nat → List (List Nat) → List Nat × List (List Nat)
  | 0, a, r => (a, r)
  | t + 1, a, r =>
    let i := t % n
    let b := aesDecrypt key (xorBytes a (beBytes 8 (t + 1)) ++ r.getD i [])
    kwSteps key n t (b.take 8) (r.set i (b.drop 8))

/-- NIST SP 800-38F KW: the unwrapped key, or none where the integrity check fails. -/
def kwUnwrap (key wrap : List Nat) : Option (List Nat) :=
  let n := wrap.length / 8 - 1
  let x := kwSteps key n (6 * n) (wrap.take 8) ((List.range n).map fun i => (wrap.drop (8 * (i + 1))).take 8)
  if x.1 = List.replicate 8 0xA6 then some x.2.flatten else none

/-- A CRC over bytes, most significant bit first, of width w and a polynomial (R426). -/
def crcMsb (w poly init : Nat) (m : List Nat) : Nat :=
  m.foldl (fun c b => (List.range 8).foldl (fun c _ =>
    if bit c (w - 1) then (2 * c % 2 ^ w) ^^^ poly else 2 * c % 2 ^ w) (c ^^^ (b % 256) <<< (w - 8))) init

/-- The CRC-16 of R426. -/
def crc16 (m : List Nat) : Nat := crcMsb 16 0x1021 0xFFFF m

/-- The CRC-32 of IEEE 802.3 (R622, R649, R660): reflected, inverted at both ends. -/
def crc32 (m : List Nat) : Nat :=
  (m.foldl (fun c b => (List.range 8).foldl (fun c _ =>
    if c % 2 = 1 then c / 2 ^^^ 0xEDB88320 else c / 2) (c ^^^ b % 256)) 0xFFFFFFFF) ^^^ 0xFFFFFFFF

end Sys2Proof.Machine
end

