-- ==== Sys2Proof/Machine/Float.lean ====
section
/-! DEFINITION. Sys2Proof/Machine/Float.lean: IEEE 754 binary32 arithmetic with round-to-nearest-even on 32-bit
codes, for the drift trim (R228, R229). Every finite value is a whole number of units of 2^-149. -/

namespace Sys2Proof.Machine

/-- The sign bit of a code. -/
def fNeg (c : Nat) : Bool := bit c 31

/-- Exponent 255 without a fraction. -/
def fInf (c : Nat) : Bool := c % 2 ^ 31 = 0x7F800000

/-- Exponent 255 with a fraction. -/
def fNan (c : Nat) : Bool := 0x7F800000 < c % 2 ^ 31

/-- Finite codes. -/
def fFinite (c : Nat) : Bool := c % 2 ^ 31 < 0x7F800000

/-- The magnitude of a finite code in units of 2^-149. -/
def fMag (c : Nat) : Nat :=
  let e := bits c 23 8
  let m := bits c 0 23
  if e = 0 then m else (m + 2 ^ 23) * 2 ^ (e - 1)

/-- A finite code as an integer of units of 2^-149. -/
def fUnits (c : Nat) : Int := if fNeg c then -(fMag c : Int) else fMag c

/-- The code of a quiet NaN. -/
def fQuiet : Nat := 0x7FC00000

/-- A sign bit. -/
def fSign (neg : Bool) : Nat := if neg then 2 ^ 31 else 0

/-- n / d units of 2^-149 rounded to nearest, ties to even. -/
def fRound (neg : Bool) (n d : Nat) : Nat :=
  let q := n / d
  let k := if q < 2 ^ 24 then 0 else q.log2 - 23
  let den := d * 2 ^ k
  let m := n / den
  let r := n % den
  let m := if den < 2 * r ∨ (2 * r = den ∧ m % 2 = 1) then m + 1 else m
  let (m, k) := if m = 2 ^ 24 then (2 ^ 23, k + 1) else (m, k)
  if m < 2 ^ 23 then fSign neg + m
  else if 254 ≤ k then fSign neg + 0x7F800000
  else fSign neg + (k + 1) * 2 ^ 23 + (m - 2 ^ 23)

/-- An integer of units over a positive divisor, rounded. -/
def fOf (x : Int) (d : Nat) : Nat := fRound (decide (x < 0)) x.natAbs d

/-- The negation of a code. -/
def fNegate (a : Nat) : Nat := if fNeg a then a - 2 ^ 31 else a + 2 ^ 31

/-- a + b. -/
def fAdd (a b : Nat) : Nat :=
  if fNan a ∨ fNan b then fQuiet
  else if fInf a then (if fInf b ∧ fNeg a ≠ fNeg b then fQuiet else a)
  else if fInf b then b
  else
    let x := fUnits a + fUnits b
    if x = 0 then fSign (fNeg a && fNeg b) else fOf x 1

/-- a - b. -/
def fSub (a b : Nat) : Nat := fAdd a (if fNan b then b else fNegate b)

/-- a × b. -/
def fMul (a b : Nat) : Nat :=
  let neg := fNeg a != fNeg b
  if fNan a ∨ fNan b then fQuiet
  else if fInf a ∨ fInf b then (if (fFinite a ∧ fMag a = 0) ∨ (fFinite b ∧ fMag b = 0) then fQuiet else fSign neg + 0x7F800000)
  else fRound neg (fMag a * fMag b) (2 ^ 149)

/-- a / b. -/
def fDiv (a b : Nat) : Nat :=
  let neg := fNeg a != fNeg b
  if fNan a ∨ fNan b then fQuiet
  else if fInf a then (if fInf b then fQuiet else fSign neg + 0x7F800000)
  else if fInf b then fSign neg
  else if fMag b = 0 then (if fMag a = 0 then fQuiet else fSign neg + 0x7F800000)
  else fRound neg (fMag a * 2 ^ 149) (fMag b)

/-- a < b; false where either is a NaN. -/
def fLt (a b : Nat) : Bool :=
  if fNan a ∨ fNan b then false
  else
    let v (c : Nat) : Int := if fInf c then (if fNeg c then -(2 ^ 300) else 2 ^ 300) else fUnits c
    decide (v a < v b)

/-- The exact quotient of an integer by a positive number, rounded once (R228). -/
def fQuot (x : Int) (d : Nat) : Nat := if d = 0 then fQuiet else fOf (x * 2 ^ 149) d

/-- A finite code times k, rounded to nearest with ties away from zero (R12, R233). -/
def fScaled (c k : Nat) : Int := roundDiv (fUnits c * k) (2 ^ 149)

end Sys2Proof.Machine
end

