-- ==== Sys2Proof/Config.lean ====
section
/-! DEFINITION. Sys2Proof/Config.lean: the free values, constants without a body. Nothing in Lean can
compute one or prove a value of it, so a theorem that mentions one holds for every value (log 7). -/

namespace Sys2Proof

/-- The n-th value that the spec leaves open. The machine draws one by applying this to the counter
`State.free`, which it then advances; the drawing operation takes it modulo two to the field's width. -/
opaque Config.freeValue : Nat → Nat

/-- Byte i of what the device holds from its manufacture or serialises in a form the spec does not give:
kind 0 the boot ROM's digest, 1 the device certificate chain, 2 what the alias certificate of a boot says, 3 the
fused key digests in measurement block 4, 5 the I3C provisional ID; the second argument is the content it depends
on (log 15). -/
opaque Config.deviceByte : Nat → Nat → Nat → Nat

/-- How many bytes the certificate chain of a slot has beyond its header (log 15). -/
opaque Config.chainLength : Nat → Nat → Nat

/-- The error of the sine (0) or cosine (1) of a phase in test injection: 0, 1 or 2 modulo 3 stand for -1, 0 and 1
code, the bound of R193. -/
opaque Config.sineError : Nat → Nat → Nat

/-- Byte i of the payload of a frame of a TYPE that says what a list of numbers says, where R661 gives the payload no
layout (log 91). -/
opaque Config.frameByte : Nat → List Nat → Nat → Nat

/-- How many 8-byte units beyond the first such a payload takes, modulo the TYPE's largest (log 91). -/
opaque Config.frameUnits : Nat → List Nat → Nat

/-- How many idle frames one end (0 the core, 1 the agent) of a die's link sends before a frame, from the CLK_TIME and
the last SEQ sent (R664; log 91). -/
opaque Config.idleFrames : Nat → Nat → Nat → Nat → Nat

/-- The strap DSP_SRC: the intent source of dispatcher k of a die, modulo 8 (R658; log 100). -/
opaque Config.dspSrc : Nat → Nat → Nat

/-- The device's private identity key, which the fused secret gives (R508; log 15). -/
opaque Config.deviceKey : Nat

end Sys2Proof
end

