-- ==== Sys2Proof/Machine/Sparse.lean ====
section
/-! DEFINITION. Sys2Proof/Machine/Sparse.lean: sparse tables, lists of key and value with keys strictly
rising and no entry equal to the default, the one form of the register file, of byte memory and of the
arrays behind the registers. -/

namespace Sys2Proof.Machine

/-- The value at a key, the default where the key is not listed. -/
def sget {α : Type} (d : α) (k : Nat) : List (Nat × α) → α
  | [] => d
  | (k', v) :: t => if k' = k then v else sget d k t

/-- The table without a key. -/
def serase {α : Type} (k : Nat) (l : List (Nat × α)) : List (Nat × α) := l.filter fun e => e.1 ≠ k

/-- A table that does not list a key, with a value at that key, at its place. -/
def sins {α : Type} (k : Nat) (v : α) : List (Nat × α) → List (Nat × α)
  | [] => [(k, v)]
  | (k', v') :: t => if k' < k then (k', v') :: sins k v t else (k, v) :: (k', v') :: t

/-- The table with a value at a key; writing the default removes the entry. -/
def sset {α : Type} [DecidableEq α] (d : α) (k : Nat) (v : α) (l : List (Nat × α)) : List (Nat × α) :=
  if v = d then serase k l else sins k v (serase k l)

/-- The keys rise strictly from above lo. -/
def risesFrom {α : Type} (lo : Nat) : List (Nat × α) → Bool
  | [] => true
  | (k, _) :: t => decide (lo ≤ k) && risesFrom (k + 1) t

/-- The canonical form: keys strictly rising, no entry equal to what its key reads unlisted. -/
def sparseWf {α : Type} [DecidableEq α] (d : Nat → α) (l : List (Nat × α)) : Bool :=
  risesFrom 0 l && l.all fun e => decide (e.2 ≠ d e.1)

end Sys2Proof.Machine
end

