-- ==== Sys2Proof/Machine/Field.lean ====
section
/-! DEFINITION. Sys2Proof/Machine/Field.lean: what a register field is (R15, R16, R21). -/

namespace Sys2Proof.Machine

/-- The retention classes of R21; `none` marks a field that only triggers an action. -/
inductive Ret where
  | fuse | keep | gov | acc | die | none
deriving DecidableEq, Repr

/-- The access codes of R16 that the register tables use. -/
inductive Acc where
  | ro | rw | w1c | wo
deriving DecidableEq, Repr

/-- A field that is computed when read, from state that has its home elsewhere. -/
inductive View where
  | clkGate (k p : Nat) | failedPhases | hiccupPhases | railRun (r : Nat) | railAvail (r : Nat)
  | railFailed (r : Nat) | railShedBusy (r : Nat) | holdLow | holdHigh | estActive | itnMismatch
  | itnCut | itnColl | deferPending | thmDegraded | thmLost | stackStale | dieExcluded (d : Nat)
  | exMap (d w : Nat) | portInFlight (p : Nat) | govInFlight | fwWait | portNumber (p : Nat)
  | portAuth (p : Nat) | portPart (p : Nat) | mbxIn (p : Nat) | mbxInFull (p : Nat) | mbxOut (p : Nat)
  | mbxOutFull (p : Nat) | hngPend | qwinTap (p i : Nat) | qwinAge (p i : Nat) | qwinQueue (p i : Nat)
  | issueMax (d : Nat) | issueFloor (d : Nat) | modelFree | confAny | feedId | escInWindow | ringFrag | phState (n : Nat)
deriving DecidableEq, Repr

/-- One field: its retention class and, for class DIE, its die (16: none); the page (0: shared, p + 1:
the state of port p under R683); its word's window offset; its place [lo+w-1:lo], which for a field of
several words counts on from the first; its access code; its reset value; the bounds of a write; whether
the field is signed; and the view that computes it, where it has no cell of its own. -/
structure Field where
  cls : Ret
  page : Nat
  unit : Nat
  off : Nat
  lo : Nat
  w : Nat
  acc : Acc
  rst : Nat
  min : Int
  max : Int
  signed : Bool
  view : Option View
deriving DecidableEq, Repr

/-- Instances of one register layout: the first offset, the stride, the count, and the fields of
instance i as port p sees them. -/
structure Group where
  base : Nat
  stride : Nat
  count : Nat
  fields : Nat → Nat → List Field

/-- A retention class as a number, the highest part of a cell's key. -/
def retCode : Ret → Nat
  | .fuse => 0
  | .keep => 1
  | .gov => 2
  | .acc => 3
  | .die => 4
  | .none => 5

/-- The key of a field's cell: class, page, die, then the bit address within the window. -/
def fieldKey (f : Field) : Nat :=
  (((retCode f.cls * 16 + f.page) * 32 + f.unit) * 2 ^ 22 + f.off) * 32 + f.lo

/-- The retention class code in a cell's key. -/
def keyClass (k : Nat) : Nat := k / (16 * 32 * 2 ^ 22 * 32)

/-- The die in a cell's key (16: none). -/
def keyUnit (k : Nat) : Nat := k / (2 ^ 22 * 32) % 32

end Sys2Proof.Machine
end

