-- ==== Sys2Proof/Machine/Regs.lean ====
section
/-! DEFINITION. Sys2Proof/Machine/Regs.lean: every register field of the window, one definition each,
written from the register tables of spec/ (the rule of each table stands in the docstring), and the
groups of instances through which an offset finds its fields (R685). The reset column's fuse, strap and
HW entries are the values of assumption log 3, 4 and 5. -/

namespace Sys2Proof.Machine

/-- A value by the kind of rail r of R29: VCORE, VMEM or VLINK. -/
def byKind (r core mem link : Nat) : Nat := if r < 16 then core else if r < 32 then mem else link

/-- The neighbours of sensor s of the fused description (log 3): four others of its region, by index
exclusive-or, the other four places unused (0x7F). -/
def defaultNbr (s : Nat) : Nat :=
  let n := s % 96
  (n ^^^ 1) + (n ^^^ 2) * 2 ^ 7 + (n ^^^ 3) * 2 ^ 14 + (n ^^^ 4) * 2 ^ 21 + 0x7F * 2 ^ 28 + 0x7F * 2 ^ 35 + 0x7F * 2 ^ 42 + 0x7F * 2 ^ 49

/-- The class of sensor s (log 3): 3 in a layer (R392), 0 in the body. -/
def defaultClass (s : Nat) : Nat := if s % 96 < 64 then 0 else 3

/-- The page of an instance that exists. An index past the last instance names no register: such a field has
a cell on page 15, which no register has. -/
def pageIf (c : Prop) [Decidable c] (p : Nat) : Nat := if c then p else 15

/-- The page of port p (R683): 1 to 10 for the ten ports. -/
def portPage (p : Nat) : Nat := if p < 10 then p + 1 else 15

/-- R88. Clock state, coded as in R56; codes 5 to 7 unused. -/
def R.CLK_STATUS.STATE : Field :=
  ⟨.keep, 0, 16, 0x010000, 0, 3, .ro, 0, 0, 7, false, none⟩

/-- R88. 1 while in COAST or RELOCK. -/
def R.CLK_STATUS.COAST : Field :=
  ⟨.keep, 0, 16, 0x010000, 3, 1, .ro, 0, 0, 1, false, none⟩

/-- R88. 1 while REFCLK is judged good. -/
def R.CLK_STATUS.REF_OK : Field :=
  ⟨.keep, 0, 16, 0x010000, 4, 1, .ro, 0, 0, 1, false, none⟩

/-- R88. 1 after the third LOCKING retry at start-up. -/
def R.CLK_STATUS.LOCK_FAIL : Field :=
  ⟨.keep, 0, 16, 0x010000, 5, 1, .ro, 0, 0, 1, false, none⟩

/-- R88. 1 from COAST entry until SYNC_IN is re-acquired. -/
def R.CLK_STATUS.SYNC_LOST : Field :=
  ⟨.keep, 0, 16, 0x010000, 6, 1, .ro, 0, 0, 1, false, none⟩

/-- R89. REFCLK declared lost. -/
def R.CLK_EVENT.REF_LOST : Field :=
  ⟨.keep, 0, 16, 0x010004, 0, 1, .w1c, 0, 0, 1, false, none⟩

/-- R89. COAST entered. -/
def R.CLK_EVENT.COAST_ENTER : Field :=
  ⟨.keep, 0, 16, 0x010004, 1, 1, .w1c, 0, 0, 1, false, none⟩

/-- R89. LOCKED reached from RELOCK. -/
def R.CLK_EVENT.COAST_EXIT : Field :=
  ⟨.keep, 0, 16, 0x010004, 2, 1, .w1c, 0, 0, 1, false, none⟩

/-- R89. LOCKING or RELOCK timed out. -/
def R.CLK_EVENT.LOCK_RETRY : Field :=
  ⟨.keep, 0, 16, 0x010004, 3, 1, .w1c, 0, 0, 1, false, none⟩

/-- R89. A judgement window failed. -/
def R.CLK_EVENT.JUDGE_FAIL : Field :=
  ⟨.keep, 0, 16, 0x010004, 4, 1, .w1c, 0, 0, 1, false, none⟩

/-- R90. 1: boot continues in COAST when REFCLK fails at start-up. -/
def R.CLK_CFG.COAST_BOOT : Field :=
  ⟨.keep, 0, 16, 0x010008, 0, 1, .rw, 1, 0, 1, false, none⟩

/-- R90. 1: return from COAST automatically; hardware clears it under R79. -/
def R.CLK_CFG.AUTO_RELOCK : Field :=
  ⟨.keep, 0, 16, 0x010008, 1, 1, .rw, 1, 0, 1, false, none⟩

/-- R90. 1: no clock gating. -/
def R.CLK_CFG.GATE_DIS : Field :=
  ⟨.gov, 0, 16, 0x010008, 2, 1, .rw, 0, 0, 1, false, none⟩

/-- R91. REFCLK edges in the last judgement window. -/
def R.CLK_REF_COUNT.COUNT : Field :=
  ⟨.keep, 0, 16, 0x01000C, 0, 16, .ro, 0, 0, 65535, false, none⟩

/-- R91. Local time in TCLK counts; 64-bit, read under R19. -/
def R.CLK_TIME.COUNT : Field :=
  ⟨.keep, 0, 16, 0x010010, 0, 64, .ro, 0, 0, 18446744073709551615, false, none⟩

/-- R91. COAST entries, saturating at 0xFFFF. -/
def R.CLK_COAST_CNT.COUNT : Field :=
  ⟨.keep, 0, 16, 0x010018, 0, 16, .ro, 0, 0, 65535, false, none⟩

/-- R91. µs in COAST or RELOCK, saturating. -/
def R.CLK_COAST_US.TIME : Field :=
  ⟨.keep, 0, 16, 0x01001C, 0, 32, .ro, 0, 0, 4294967295, false, none⟩

/-- R91. 1 while the lockstepped cores' clock runs. -/
def R.CLK_GATE_STAT.CORES (p : Nat) : Field :=
  ⟨.gov, 0, 16, 0x010020, 0, 1, .ro, 0, 0, 1, false, some (.clkGate 0 p)⟩

/-- R91. 1 while the security unit's clock runs. -/
def R.CLK_GATE_STAT.SECURITY : Field :=
  ⟨.gov, 0, 16, 0x010020, 1, 1, .ro, 0, 0, 1, false, some (.clkGate 1 16)⟩

/-- R91. 1 while the command logic's clock runs. -/
def R.CLK_GATE_STAT.COMMAND : Field :=
  ⟨.gov, 0, 16, 0x010020, 2, 1, .ro, 0, 0, 1, false, some (.clkGate 2 16)⟩

/-- R91. 1 while the event recorder's clock runs. -/
def R.CLK_GATE_STAT.RECORDER : Field :=
  ⟨.gov, 0, 16, 0x010020, 3, 1, .ro, 0, 0, 1, false, some (.clkGate 3 16)⟩

/-- R91. 1 while the walker and reset sequencer clock runs. -/
def R.CLK_GATE_STAT.RECOVERY : Field :=
  ⟨.gov, 0, 16, 0x010020, 4, 1, .ro, 0, 0, 1, false, some (.clkGate 4 16)⟩

/-- R91. 1 while the injection and capture logic's clock runs. -/
def R.CLK_GATE_STAT.LOOP_TEST : Field :=
  ⟨.gov, 0, 16, 0x010020, 5, 1, .ro, 0, 0, 1, false, some (.clkGate 5 16)⟩

/-- R91. 1 while the boot flash controller's clock runs. -/
def R.CLK_GATE_STAT.FLASH : Field :=
  ⟨.gov, 0, 16, 0x010020, 6, 1, .ro, 0, 0, 1, false, some (.clkGate 6 16)⟩

/-- R91. 1 while the PMBus host's clock runs. -/
def R.CLK_GATE_STAT.PMBUS : Field :=
  ⟨.gov, 0, 16, 0x010020, 7, 1, .ro, 0, 0, 1, false, some (.clkGate 7 16)⟩

/-- R158. 1: follow SYNC_IN under R112. -/
def R.PST_CTRL.SYNC_EN : Field :=
  ⟨.keep, 0, 16, 0x020000, 0, 1, .rw, 0, 0, 1, false, none⟩

/-- R158. 1: drive SYNC_OUT. -/
def R.PST_CTRL.SYNC_OUT_EN : Field :=
  ⟨.keep, 0, 16, 0x020000, 1, 1, .rw, 0, 0, 1, false, none⟩

/-- R158. Offset from SYNC_IN in 1/256 period. -/
def R.PST_CTRL.SYNC_OFS : Field :=
  ⟨.keep, 0, 16, 0x020000, 2, 8, .rw, 0, 0, 255, false, none⟩

/-- R158. Dead time, 1 to 255 taps. -/
def R.PST_CTRL.DEAD_TAPS : Field :=
  ⟨.keep, 0, 16, 0x020000, 10, 8, .rw, 16, 1, 255, false, none⟩

/-- R158. Minimum on-time, 2 to 40. -/
def R.PST_CTRL.TON_MIN_NS : Field :=
  ⟨.keep, 0, 16, 0x020000, 18, 6, .rw, 6, 2, 40, false, none⟩

/-- R158. Minimum LOW time, 4 to 60. -/
def R.PST_CTRL.TOFF_MIN_NS : Field :=
  ⟨.keep, 0, 16, 0x020000, 24, 6, .rw, 12, 4, 60, false, none⟩

/-- R158. Sharing gain of R118. -/
def R.PST_SHARE.K_SHARE : Field :=
  ⟨.keep, 0, 16, 0x020004, 0, 16, .rw, 1024, 0, 65535, false, none⟩

/-- R158. Trim clamp, in 64 duty LSBs. -/
def R.PST_SHARE.TRIM_MAX : Field :=
  ⟨.keep, 0, 16, 0x020004, 16, 8, .rw, 16, 0, 255, false, none⟩

/-- R158. VIN of the last cycle. -/
def R.PST_VIN.VIN : Field :=
  ⟨.keep, 0, 16, 0x020008, 0, 16, .ro, 0, 0, 65535, false, none⟩

/-- R158. 1 while locked to SYNC_IN. -/
def R.PST_SYNC_STAT.LOCK : Field :=
  ⟨.keep, 0, 16, 0x02000C, 0, 1, .ro, 0, 0, 1, false, none⟩

/-- R158. ROOT periods in the last switching period. -/
def R.PST_SYNC_STAT.PERIOD : Field :=
  ⟨.keep, 0, 16, 0x02000C, 16, 16, .ro, 0, 0, 65535, false, none⟩

/-- R158. [0] PHASE_FAILED, [1] HICCUP, [2] BRAKE, [3] SHED_CANCEL, [4] TLM_ERR, [5] SYNC_LOSS, [6] CONV_FAULT, [7] PMB_ERR, [8] RAIL_LOST. -/
def R.PST_EVENT : Field :=
  ⟨.keep, 0, 16, 0x020010, 0, 9, .w1c, 0, 0, 511, false, none⟩

/-- R158. Phases in FAILED. -/
def R.PST_FAIL.N_FAILED : Field :=
  ⟨.keep, 0, 16, 0x020014, 0, 8, .ro, 0, 0, 255, false, some (.failedPhases)⟩

/-- R158. Phases in HICCUP. -/
def R.PST_FAIL.N_HICCUP : Field :=
  ⟨.keep, 0, 16, 0x020014, 8, 8, .ro, 0, 0, 255, false, some (.hiccupPhases)⟩

/-- R159. Shedding allowed. -/
def R.PST_RAIL_CFG.SHED_EN (i : Nat) : Field :=
  ⟨.keep, pageIf (i < 33) 0, 16, 0x020400 + 0x20 * (i % 33), 0, 1, .rw, 1, 0, 1, false, none⟩

/-- R159. Braking allowed. -/
def R.PST_RAIL_CFG.BRAKE_EN (i : Nat) : Field :=
  ⟨.keep, pageIf (i < 33) 0, 16, 0x020400 + 0x20 * (i % 33), 1, 1, .rw, 1, 0, 1, false, none⟩

/-- R159. Fewest phases in RUN, 1 to N. -/
def R.PST_RAIL_CFG.SHED_MIN (i : Nat) : Field :=
  ⟨.keep, pageIf (i < 33) 0, 16, 0x020400 + 0x20 * (i % 33), 2, 4, .rw, byKind i 2 1 2, 0, 15, false, none⟩

/-- R159. 3 to 8 cycles. -/
def R.PST_RAIL_CFG.OPEN_CNT (i : Nat) : Field :=
  ⟨.keep, pageIf (i < 33) 0, 16, 0x020400 + 0x20 * (i % 33), 6, 4, .rw, 3, 3, 8, false, none⟩

/-- R159. 4 to 255 limited cycles. -/
def R.PST_RAIL_CFG.HICCUP_N (i : Nat) : Field :=
  ⟨.keep, pageIf (i < 33) 0, 16, 0x020400 + 0x20 * (i % 33), 10, 8, .rw, 32, 4, 255, false, none⟩

/-- R159. 1 to 255 hiccups. -/
def R.PST_RAIL_CFG.HICCUP_MAX (i : Nat) : Field :=
  ⟨.keep, pageIf (i < 33) 0, 16, 0x020400 + 0x20 * (i % 33), 18, 8, .rw, 8, 1, 255, false, none⟩

/-- R159. Peak limit, 8 A to 48 A. -/
def R.PST_RAIL_ILIM.ILIM (i : Nat) : Field :=
  ⟨.keep, pageIf (i < 33) 0, 16, 0x020404 + 0x20 * (i % 33), 0, 24, .rw, 12032, 2048, 12288, false, none⟩

/-- R159. A per phase, 1 to 47 (R140). -/
def R.PST_RAIL_SHED.SHED_I (i : Nat) : Field :=
  ⟨.keep, pageIf (i < 33) 0, 16, 0x020408 + 0x20 * (i % 33), 0, 8, .rw, 12, 1, 47, false, none⟩

/-- R159. A per phase, SHED_I + 1 to 48 (R140). -/
def R.PST_RAIL_SHED.UNSHED_I (i : Nat) : Field :=
  ⟨.keep, pageIf (i < 33) 0, 16, 0x020408 + 0x20 * (i % 33), 8, 8, .rw, 20, 2, 48, false, none⟩

/-- R159. µs, 1 to 65,535. -/
def R.PST_RAIL_SHED.SHED_HOLD (i : Nat) : Field :=
  ⟨.keep, pageIf (i < 33) 0, 16, 0x020408 + 0x20 * (i % 33), 16, 16, .rw, 100, 1, 65535, false, none⟩

/-- R159. A/µs, 1 to 65,535 (R136). -/
def R.PST_RAIL_DIDT.DIDT_TH (i : Nat) : Field :=
  ⟨.keep, pageIf (i < 33) 0, 16, 0x02040C + 0x20 * (i % 33), 0, 16, .rw, 50, 1, 65535, false, none⟩

/-- R159. µs, 1 to 65,535. -/
def R.PST_RAIL_DIDT.SHED_STEP (i : Nat) : Field :=
  ⟨.keep, pageIf (i < 33) 0, 16, 0x02040C + 0x20 * (i % 33), 16, 16, .rw, 20, 1, 65535, false, none⟩

/-- R159. 1/256 period, 16 to 230. -/
def R.PST_RAIL_FAULT.OPEN_DUTY (i : Nat) : Field :=
  ⟨.keep, pageIf (i < 33) 0, 16, 0x020410 + 0x20 * (i % 33), 0, 8, .rw, 64, 16, 230, false, none⟩

/-- R159. 1/4 A, 2 to 64. -/
def R.PST_RAIL_FAULT.OPEN_I (i : Nat) : Field :=
  ⟨.keep, pageIf (i < 33) 0, 16, 0x020410 + 0x20 * (i % 33), 8, 8, .rw, 8, 2, 64, false, none⟩

/-- R159. 1/4 A, 8 to 192. -/
def R.PST_RAIL_FAULT.SENSE_TH (i : Nat) : Field :=
  ⟨.keep, pageIf (i < 33) 0, 16, 0x020410 + 0x20 * (i % 33), 16, 8, .rw, 32, 8, 192, false, none⟩

/-- R159. mV, 4 to 100. -/
def R.PST_RAIL_BRAKE.ENTER (i : Nat) : Field :=
  ⟨.keep, pageIf (i < 33) 0, 16, 0x020414 + 0x20 * (i % 33), 0, 8, .rw, 20, 4, 100, false, none⟩

/-- R159. mV, 2 to ENTER − 2. -/
def R.PST_RAIL_BRAKE.EXIT (i : Nat) : Field :=
  ⟨.keep, pageIf (i < 33) 0, 16, 0x020414 + 0x20 * (i % 33), 8, 8, .rw, 8, 2, 255, false, none⟩

/-- R159. 50 to 2,000. -/
def R.PST_RAIL_BRAKE.MAX_NS (i : Nat) : Field :=
  ⟨.keep, pageIf (i < 33) 0, 16, 0x020414 + 0x20 * (i % 33), 16, 11, .rw, 400, 50, 2000, false, none⟩

/-- R159. µs, 20 to 5,000. -/
def R.PST_RAIL_MISC.HICCUP (i : Nat) : Field :=
  ⟨.keep, pageIf (i < 33) 0, 16, 0x020418 + 0x20 * (i % 33), 0, 16, .rw, 200, 20, 5000, false, none⟩

/-- R159. 0.25 nH, 4 to 255. -/
def R.PST_RAIL_MISC.L_PH (i : Nat) : Field :=
  ⟨.keep, pageIf (i < 33) 0, 16, 0x020418 + 0x20 * (i % 33), 16, 8, .rw, 80, 4, 255, false, none⟩

/-- R159. 0.125 mV per µs, 1 to 255. -/
def R.PST_RAIL_MISC.SS_SLEW (i : Nat) : Field :=
  ⟨.keep, pageIf (i < 33) 0, 16, 0x020418 + 0x20 * (i % 33), 24, 8, .rw, 8, 1, 255, false, none⟩

/-- R159. Phases in RUN. -/
def R.PST_RAIL_STAT.N_RUN (i : Nat) : Field :=
  ⟨.keep, pageIf (i < 33) 0, 16, 0x02041C + 0x20 * (i % 33), 0, 4, .ro, 0, 0, 15, false, some (.railRun i)⟩

/-- R159. Available phases. -/
def R.PST_RAIL_STAT.N_AVAIL (i : Nat) : Field :=
  ⟨.keep, pageIf (i < 33) 0, 16, 0x02041C + 0x20 * (i % 33), 4, 4, .ro, 0, 0, 15, false, some (.railAvail i)⟩

/-- R159. Phases in FAILED. -/
def R.PST_RAIL_STAT.N_FAIL (i : Nat) : Field :=
  ⟨.keep, pageIf (i < 33) 0, 16, 0x02041C + 0x20 * (i % 33), 8, 4, .ro, 0, 0, 15, false, some (.railFailed i)⟩

/-- R159. 1 in BRAKING. -/
def R.PST_RAIL_STAT.BRAKING (i : Nat) : Field :=
  ⟨.keep, pageIf (i < 33) 0, 16, 0x02041C + 0x20 * (i % 33), 12, 1, .ro, 0, 0, 1, false, none⟩

/-- R159. 1 while a phase is SHEDDING. -/
def R.PST_RAIL_STAT.SHED_BUSY (i : Nat) : Field :=
  ⟨.keep, pageIf (i < 33) 0, 16, 0x02041C + 0x20 * (i % 33), 13, 1, .ro, 0, 0, 1, false, some (.railShedBusy i)⟩

/-- R159. 1 while the rail is LOST. -/
def R.PST_RAIL_STAT.LOST (i : Nat) : Field :=
  ⟨.keep, pageIf (i < 33) 0, 16, 0x02041C + 0x20 * (i % 33), 14, 1, .ro, 0, 0, 1, false, none⟩

/-- R160. State, coded as in R122. -/
def R.PST_PH_STAT.STATE (i : Nat) : Field :=
  ⟨.keep, pageIf (i < 200) 0, 16, 0x021000 + 0x10 * (i % 200), 0, 3, .ro, 1, 0, 7, false, some (.phState i)⟩

/-- R160. Cause of the present FAILED state: 1 OPEN, 2 SENSE, 3 HICCUP, 4 TLM_LOST, 5 DRV_FLT, 6 OPERATOR; 0 while the phase is not FAILED. -/
def R.PST_PH_STAT.CAUSE (i : Nat) : Field :=
  ⟨.keep, pageIf (i < 200) 0, 16, 0x021000 + 0x10 * (i % 200), 3, 3, .ro, 0, 0, 7, false, none⟩

/-- R160. Hiccups since the last 10 ms in RUN. -/
def R.PST_PH_STAT.HICCUP_RUN (i : Nat) : Field :=
  ⟨.keep, pageIf (i < 200) 0, 16, 0x021000 + 0x10 * (i % 200), 6, 8, .ro, 0, 0, 255, false, none⟩

/-- R160. Last sample, sign-extended; the fault code reads as −64 A. -/
def R.PST_PH_I.I (i : Nat) : Field :=
  ⟨.keep, pageIf (i < 200) 0, 16, 0x021004 + 0x10 * (i % 200), 0, 32, .ro, 0, 0, 4294967295, false, none⟩

/-- R160. Phase duty of the last period. -/
def R.PST_PH_DUTY.DUTY (i : Nat) : Field :=
  ⟨.keep, pageIf (i < 200) 0, 16, 0x021008 + 0x10 * (i % 200), 0, 16, .ro, 0, 0, 65535, false, none⟩

/-- R160. Sharing trim, signed. -/
def R.PST_PH_DUTY.TRIM (i : Nat) : Field :=
  ⟨.keep, pageIf (i < 200) 0, 16, 0x021008 + 0x10 * (i % 200), 16, 16, .ro, 0, 0, 65535, false, none⟩

/-- R160. Limited cycles, saturating. -/
def R.PST_PH_CNT.LIMITED (i : Nat) : Field :=
  ⟨.keep, pageIf (i < 200) 0, 16, 0x02100C + 0x10 * (i % 200), 0, 16, .ro, 0, 0, 65535, false, none⟩

/-- R160. HICCUP entries, saturating. -/
def R.PST_PH_CNT.HICCUPS (i : Nat) : Field :=
  ⟨.keep, pageIf (i < 200) 0, 16, 0x02100C + 0x10 * (i % 200), 16, 16, .ro, 0, 0, 65535, false, none⟩

/-- R160. SF.TEMP. -/
def R.PST_STG_STAT.TEMP (i : Nat) : Field :=
  ⟨.keep, pageIf (i < 25) 0, 16, 0x022000 + 0x10 * (i % 25), 0, 16, .ro, 0, 0, 65535, false, none⟩

/-- R160. SF.DRV_FLT. -/
def R.PST_STG_STAT.DRV_FLT (i : Nat) : Field :=
  ⟨.keep, pageIf (i < 25) 0, 16, 0x022000 + 0x10 * (i % 25), 16, 8, .ro, 0, 0, 255, false, none⟩

/-- R160. SF.OT_WARN. -/
def R.PST_STG_STAT.OT_WARN (i : Nat) : Field :=
  ⟨.keep, pageIf (i < 25) 0, 16, 0x022000 + 0x10 * (i % 25), 24, 1, .ro, 0, 0, 1, false, none⟩

/-- R160. SF.VIN_UV. -/
def R.PST_STG_STAT.VIN_UV (i : Nat) : Field :=
  ⟨.keep, pageIf (i < 25) 0, 16, 0x022000 + 0x10 * (i % 25), 25, 1, .ro, 0, 0, 1, false, none⟩

/-- R160. Lane 0 in frame lock. -/
def R.PST_STG_STAT.LANE0_OK (i : Nat) : Field :=
  ⟨.keep, pageIf (i < 25) 0, 16, 0x022000 + 0x10 * (i % 25), 26, 1, .ro, 0, 0, 1, false, none⟩

/-- R160. Lane 1 in frame lock. -/
def R.PST_STG_STAT.LANE1_OK (i : Nat) : Field :=
  ⟨.keep, pageIf (i < 25) 0, 16, 0x022000 + 0x10 * (i % 25), 27, 1, .ro, 0, 0, 1, false, none⟩

/-- R160. SF.CAP. -/
def R.PST_STG_STAT2.CAP (i : Nat) : Field :=
  ⟨.keep, pageIf (i < 25) 0, 16, 0x022004 + 0x10 * (i % 25), 0, 8, .ro, 0, 0, 255, false, none⟩

/-- R160. Discarded superframes, saturating. -/
def R.PST_STG_STAT2.CRC_ERR (i : Nat) : Field :=
  ⟨.keep, pageIf (i < 25) 0, 16, 0x022004 + 0x10 * (i % 25), 16, 16, .ro, 0, 0, 65535, false, none⟩

/-- R160. Lane 0 bad frames, saturating. -/
def R.PST_STG_ERR.L0 (i : Nat) : Field :=
  ⟨.keep, pageIf (i < 25) 0, 16, 0x022008 + 0x10 * (i % 25), 0, 16, .ro, 0, 0, 65535, false, none⟩

/-- R160. Lane 1 bad frames, saturating. -/
def R.PST_STG_ERR.L1 (i : Nat) : Field :=
  ⟨.keep, pageIf (i < 25) 0, 16, 0x022008 + 0x10 * (i % 25), 16, 16, .ro, 0, 0, 65535, false, none⟩

/-- R161. 7-bit address. -/
def R.PST_PMB_CONV.ADDR (i : Nat) : Field :=
  ⟨.keep, pageIf (i < 8) 0, 16, 0x020100 + 0x4 * (i % 8), 0, 7, .rw, 0, 0, 127, false, none⟩

/-- R161. 1: converter takes part. -/
def R.PST_PMB_CONV.EN (i : Nat) : Field :=
  ⟨.keep, pageIf (i < 8) 0, 16, 0x020100 + 0x4 * (i % 8), 7, 1, .rw, 0, 0, 1, false, none⟩

/-- R161. PAGE value; 0xFF: no PAGE. -/
def R.PST_PMB_CONV.PAGE (i : Nat) : Field :=
  ⟨.keep, pageIf (i < 8) 0, 16, 0x020100 + 0x4 * (i % 8), 8, 8, .rw, 255, 0, 255, false, none⟩

/-- R161. ULINEAR16 exponent. -/
def R.PST_PMB_CONV.VOUT_EXP (i : Nat) : Field :=
  ⟨.keep, pageIf (i < 8) 0, 16, 0x020100 + 0x4 * (i % 8), 16, 5, .rw, 20, 0, 31, false, none⟩

/-- R161. Last STATUS_WORD. -/
def R.PST_PMB_STAT.STATUS_WORD (i : Nat) : Field :=
  ⟨.keep, pageIf (i < 8) 0, 16, 0x020120 + 0x4 * (i % 8), 0, 16, .ro, 0, 0, 65535, false, none⟩

/-- R161. Set under R151. -/
def R.PST_PMB_STAT.NO_RESP (i : Nat) : Field :=
  ⟨.keep, pageIf (i < 8) 0, 16, 0x020120 + 0x4 * (i % 8), 16, 1, .ro, 0, 0, 1, false, none⟩

/-- R161. Set under R152. -/
def R.PST_PMB_STAT.CONV_FAULT (i : Nat) : Field :=
  ⟨.keep, pageIf (i < 8) 0, 16, 0x020120 + 0x4 * (i % 8), 17, 1, .ro, 0, 0, 1, false, none⟩

/-- R161. Set under R153. -/
def R.PST_PMB_STAT.NO_AUTO_CLR (i : Nat) : Field :=
  ⟨.keep, pageIf (i < 8) 0, 16, 0x020120 + 0x4 * (i % 8), 18, 1, .ro, 0, 0, 1, false, none⟩

/-- R161. READ_VIN. -/
def R.PST_PMB_DATA.VIN (i : Nat) : Field :=
  ⟨.keep, pageIf (i < 8) 0, 16, 0x020140 + 0x10 * (i % 8), 0, 16, .ro, 0, 0, 65535, false, none⟩

/-- R161. READ_VOUT. -/
def R.PST_PMB_DATA.VOUT (i : Nat) : Field :=
  ⟨.keep, pageIf (i < 8) 0, 16, 0x020140 + 0x10 * (i % 8), 16, 16, .ro, 0, 0, 65535, false, none⟩

/-- R161. READ_IIN, sign-extended. -/
def R.PST_PMB_DATA.IIN (i : Nat) : Field :=
  ⟨.keep, pageIf (i < 8) 0, 16, 0x020144 + 0x10 * (i % 8), 0, 32, .ro, 0, 0, 4294967295, false, none⟩

/-- R161. READ_IOUT, sign-extended. -/
def R.PST_PMB_DATA.IOUT (i : Nat) : Field :=
  ⟨.keep, pageIf (i < 8) 0, 16, 0x020148 + 0x10 * (i % 8), 0, 32, .ro, 0, 0, 4294967295, false, none⟩

/-- R161. READ_TEMPERATURE_1. -/
def R.PST_PMB_DATA.TEMP (i : Nat) : Field :=
  ⟨.keep, pageIf (i < 8) 0, 16, 0x02014C + 0x10 * (i % 8), 0, 16, .ro, 0, 0, 65535, false, none⟩

/-- R203. Consecutive mismatches before HOLD, 1 to 7. -/
def R.LPE_GLB.CMP_N : Field :=
  ⟨.keep, 0, 16, 0x040000, 0, 3, .rw, 3, 1, 7, false, none⟩

/-- R203. Nominal VIN for R172 and R173, 12,000 to 16,000. -/
def R.LPE_VIN.VIN_NOM : Field :=
  ⟨.keep, 0, 16, 0x040004, 0, 16, .rw, 14400, 12000, 16000, false, none⟩

/-- R203. Lowest VIN used, 8,000 to 14,400. -/
def R.LPE_VIN.VIN_FLOOR : Field :=
  ⟨.keep, 0, 16, 0x040004, 16, 16, .rw, 11200, 8000, 14400, false, none⟩

/-- R203. [0] FE_EXCURSION, [1] FE_HOLD, [2] CMP_MISMATCH, [3] CMP_HOLD, [4] SELFTEST_FAIL, [5] COMMIT_ERR, [6] TEST_DONE, [7] TEST_ABORT. -/
def R.LPE_EVENT : Field :=
  ⟨.keep, 0, 16, 0x040008, 0, 8, .w1c, 0, 0, 255, false, none⟩

/-- R203. Bit r is 1 while rail r is in HOLD, for r from 0 to 31. -/
def R.LPE_HOLD_LO.RAILS : Field :=
  ⟨.keep, 0, 16, 0x04000C, 0, 32, .ro, 0, 0, 4294967295, false, some (.holdLow)⟩

/-- R203. 1 while VLINK is in HOLD. -/
def R.LPE_HOLD_HI.RAIL32 : Field :=
  ⟨.keep, 0, 16, 0x040010, 0, 1, .ro, 0, 0, 1, false, some (.holdHigh)⟩

/-- R203. Disagreeing evaluations, saturating. -/
def R.LPE_CMP_CNT.COUNT : Field :=
  ⟨.keep, 0, 16, 0x040014, 0, 16, .ro, 0, 0, 65535, false, none⟩

/-- R204. 0 none, 1 PRBS, 2 SINE; 3 invalid. -/
def R.LPE_INJ_CFG.MODE : Field :=
  ⟨.keep, 0, 16, 0x040100, 0, 2, .rw, 0, 0, 2, false, none⟩

/-- R204. 0 REF, 1 DUTY. -/
def R.LPE_INJ_CFG.POINT : Field :=
  ⟨.keep, 0, 16, 0x040100, 2, 1, .rw, 0, 0, 1, false, none⟩

/-- R204. PRBS order, 7 to 15. -/
def R.LPE_INJ_CFG.ORDER : Field :=
  ⟨.keep, 0, 16, 0x040100, 3, 4, .rw, 7, 7, 15, false, none⟩

/-- R204. Rail under test, 0 to 32. -/
def R.LPE_INJ_CFG.RAIL : Field :=
  ⟨.keep, 0, 16, 0x040100, 7, 6, .rw, 0, 0, 32, false, none⟩

/-- R204. Evaluations per chip, 1 to 255. -/
def R.LPE_INJ_CFG.CHIP : Field :=
  ⟨.keep, 0, 16, 0x040100, 13, 8, .rw, 1, 1, 255, false, none⟩

/-- R204. SINE steps, 1 to 128. -/
def R.LPE_INJ_CFG.N_STEPS : Field :=
  ⟨.keep, 0, 16, 0x040100, 21, 8, .rw, 1, 1, 128, false, none⟩

/-- R204. Amplitude under R191. -/
def R.LPE_INJ_AMP.AMP : Field :=
  ⟨.keep, 0, 16, 0x040104, 0, 16, .rw, 0, 0, 65535, false, none⟩

/-- R204. PRBS: evaluations, 0 to 65,535; SINE: cycles, 1 to 255. -/
def R.LPE_INJ_AMP.SETTLE : Field :=
  ⟨.keep, 0, 16, 0x040104, 16, 16, .rw, 0, 0, 65535, false, none⟩

/-- R204. Measured cycles per step, 1 to 255. -/
def R.LPE_INJ_MEAS.MEAS_CYC : Field :=
  ⟨.keep, 0, 16, 0x040108, 0, 8, .rw, 1, 1, 255, false, none⟩

/-- R204. Signal code of R197, 0 to 12. -/
def R.LPE_CAP_CFG.SIG_A : Field :=
  ⟨.keep, 0, 16, 0x04010C, 0, 5, .rw, 0, 0, 12, false, none⟩

/-- R204. Signal code of R197, 0 to 12. -/
def R.LPE_CAP_CFG.SIG_B : Field :=
  ⟨.keep, 0, 16, 0x04010C, 8, 5, .rw, 2, 0, 12, false, none⟩

/-- R204. Evaluations per entry, 1 to 255. -/
def R.LPE_CAP_CFG.DECIM : Field :=
  ⟨.keep, 0, 16, 0x04010C, 16, 8, .rw, 1, 1, 255, false, none⟩

/-- R204. Trigger of R196. -/
def R.LPE_CAP_CFG.TRIG : Field :=
  ⟨.keep, 0, 16, 0x04010C, 24, 2, .rw, 0, 0, 3, false, none⟩

/-- R204. Pre-trigger entries, 0 to 4,095. -/
def R.LPE_CAP_PRE.PRE : Field :=
  ⟨.keep, 0, 16, 0x040110, 0, 12, .rw, 0, 0, 4095, false, none⟩

/-- R204. 0 IDLE, 1 ARMED, 2 RUN, 3 DONE. -/
def R.LPE_CAP_STAT.STATE : Field :=
  ⟨.keep, 0, 16, 0x040114, 0, 2, .ro, 0, 0, 3, false, none⟩

/-- R204. Entries or steps recorded. -/
def R.LPE_CAP_STAT.COUNT : Field :=
  ⟨.keep, 0, 16, 0x040114, 2, 14, .ro, 0, 0, 16383, false, none⟩

/-- R204. SINE step in progress. -/
def R.LPE_CAP_STAT.STEP : Field :=
  ⟨.keep, 0, 16, 0x040114, 16, 8, .ro, 0, 0, 255, false, none⟩

/-- R204. CLK_TIME of the trigger sample; 64-bit, read under R19. -/
def R.LPE_CAP_TS.TIME : Field :=
  ⟨.keep, 0, 16, 0x040118, 0, 64, .ro, 0, 0, 18446744073709551615, false, none⟩

/-- R205. Proportional gain, q8.24, duty LSBs per voltage code. -/
def R.LPE_KP.KP (i : Nat) : Field :=
  ⟨.keep, pageIf (i < 33) 0, 16, 0x041000 + 0x40 * (i % 33), 0, 32, .rw, 33554432, 0, 4294967295, false, none⟩

/-- R205. Integral gain, q8.24. -/
def R.LPE_KI.KI (i : Nat) : Field :=
  ⟨.keep, pageIf (i < 33) 0, 16, 0x041004 + 0x40 * (i % 33), 0, 32, .rw, 1048576, 0, 4294967295, false, none⟩

/-- R205. Derivative gain, q8.24. -/
def R.LPE_KD.KD (i : Nat) : Field :=
  ⟨.keep, pageIf (i < 33) 0, 16, 0x041008 + 0x40 * (i % 33), 0, 32, .rw, 134217728, 0, 4294967295, false, none⟩

/-- R205. Back-calculation gain, q8.24. -/
def R.LPE_KB.KB (i : Nat) : Field :=
  ⟨.keep, pageIf (i < 33) 0, 16, 0x04100C + 0x40 * (i % 33), 0, 32, .rw, 8388608, 0, 4294967295, false, none⟩

/-- R205. First filter stage, q8.24. -/
def R.LPE_A1.A1 (i : Nat) : Field :=
  ⟨.keep, pageIf (i < 33) 0, 16, 0x041010 + 0x40 * (i % 33), 0, 32, .rw, 8388608, 0, 4294967295, false, none⟩

/-- R205. Second filter stage, q8.24. -/
def R.LPE_A2.A2 (i : Nat) : Field :=
  ⟨.keep, pageIf (i < 33) 0, 16, 0x041014 + 0x40 * (i % 33), 0, 32, .rw, 16777216, 0, 4294967295, false, none⟩

/-- R205. Load feed-forward, q8.24, duty LSBs per 1/256 A. -/
def R.LPE_KFF.KFF (i : Nat) : Field :=
  ⟨.keep, pageIf (i < 33) 0, 16, 0x041018 + 0x40 * (i % 33), 0, 32, .rw, byKind i 0x01B4E81B 0 0, 0, 4294967295, false, none⟩

/-- R205. Profile lead, 0 to 1,000. -/
def R.LPE_FF.LEAD_NS (i : Nat) : Field :=
  ⟨.keep, pageIf (i < 33) 0, 16, 0x04101C + 0x40 * (i % 33), 0, 10, .rw, 200, 0, 1023, false, none⟩

/-- R205. 1: measured VIN in R168 and R173. -/
def R.LPE_FF.FFV_EN (i : Nat) : Field :=
  ⟨.keep, pageIf (i < 33) 0, 16, 0x04101C + 0x40 * (i % 33), 10, 1, .rw, 1, 0, 1, false, none⟩

/-- R205. 1: commanded-load term; VCORE only. -/
def R.LPE_FF.FFL_EN (i : Nat) : Field :=
  ⟨.keep, pageIf (i < 33) 0, 16, 0x04101C + 0x40 * (i % 33), 11, 1, .rw, byKind i 1 0 0, 0, 1, false, none⟩

/-- R205. 1: share-target addition of R175; VCORE only. -/
def R.LPE_FF.SHARE_EN (i : Nat) : Field :=
  ⟨.keep, pageIf (i < 33) 0, 16, 0x04101C + 0x40 * (i % 33), 12, 1, .rw, byKind i 1 0 0, 0, 1, false, none⟩

/-- R205. duty_min. -/
def R.LPE_DUTY_LIM.MIN (i : Nat) : Field :=
  ⟨.keep, pageIf (i < 33) 0, 16, 0x041020 + 0x40 * (i % 33), 0, 16, .rw, 0, 0, 65535, false, none⟩

/-- R205. duty_max, at most 62,259. -/
def R.LPE_DUTY_LIM.MAX (i : Nat) : Field :=
  ⟨.keep, pageIf (i < 33) 0, 16, 0x041020 + 0x40 * (i % 33), 16, 16, .rw, 52429, 0, 65535, false, none⟩

/-- R205. Target. For VCORE it reads the operating-point target and takes no write. A write whose TARGET bits equal the target in force leaves it unchanged and is not log. -/
def R.LPE_REF.TARGET (i : Nat) : Field :=
  ⟨.keep, pageIf (i < 33) 0, 16, 0x041024 + 0x40 * (i % 33), 0, 16, .rw, byKind i 5200 6400 6000, 0, 65535, false, none⟩

/-- R205. 0.125 mV per µs, 1 to 255. -/
def R.LPE_REF.SLEW (i : Nat) : Field :=
  ⟨.keep, pageIf (i < 33) 0, 16, 0x041024 + 0x40 * (i % 33), 16, 8, .rw, 40, 0, 255, false, none⟩

/-- R205. Following-error limit, voltage codes, 64 to 1,600. -/
def R.LPE_FE.LIMIT (i : Nat) : Field :=
  ⟨.keep, pageIf (i < 33) 0, 16, 0x041028 + 0x40 * (i % 33), 0, 16, .rw, 400, 0, 65535, false, none⟩

/-- R205. µs, 2 to 1,000. -/
def R.LPE_FE.TIME (i : Nat) : Field :=
  ⟨.keep, pageIf (i < 33) 0, 16, 0x041028 + 0x40 * (i % 33), 16, 10, .rw, 10, 0, 1023, false, none⟩

/-- R205. 1: commit the shadow set under R189. -/
def R.LPE_CTRL.COMMIT (i : Nat) : Field :=
  ⟨.none, pageIf (i < 33) 0, 16, 0x04102C + 0x40 * (i % 33), 0, 1, .wo, 0, 0, 1, false, none⟩

/-- R205. Loop state, coded as in R179. -/
def R.LPE_STAT.STATE (i : Nat) : Field :=
  ⟨.keep, pageIf (i < 33) 0, 16, 0x041030 + 0x40 * (i % 33), 0, 3, .ro, 0, 0, 7, false, none⟩

/-- R205. 0 none, 1 FE, 2 CMP. -/
def R.LPE_STAT.CAUSE (i : Nat) : Field :=
  ⟨.keep, pageIf (i < 33) 0, 16, 0x041030 + 0x40 * (i % 33), 3, 2, .ro, 0, 0, 3, false, none⟩

/-- R205. Last commit rejected. -/
def R.LPE_STAT.COMMIT_ERR (i : Nat) : Field :=
  ⟨.keep, pageIf (i < 33) 0, 16, 0x041030 + 0x40 * (i % 33), 5, 1, .ro, 0, 0, 1, false, none⟩

/-- R205. freeze_i or freeze_ki was 1 in the last evaluation. -/
def R.LPE_STAT.FROZEN (i : Nat) : Field :=
  ⟨.keep, pageIf (i < 33) 0, 16, 0x041030 + 0x40 * (i % 33), 6, 1, .ro, 0, 0, 1, false, none⟩

/-- R205. Effective reference of the last evaluation. -/
def R.LPE_V.VREF (i : Nat) : Field :=
  ⟨.keep, pageIf (i < 33) 0, 16, 0x041034 + 0x40 * (i % 33), 0, 16, .ro, 0, 0, 65535, false, none⟩

/-- R205. Sensed voltage of the last evaluation. -/
def R.LPE_V.VMEAS (i : Nat) : Field :=
  ⟨.keep, pageIf (i < 33) 0, 16, 0x041034 + 0x40 * (i % 33), 16, 16, .ro, 0, 0, 65535, false, none⟩

/-- R205. Duty sent for the next period. -/
def R.LPE_DUTY.U_SAT (i : Nat) : Field :=
  ⟨.keep, pageIf (i < 33) 0, 16, 0x041038 + 0x40 * (i % 33), 0, 16, .ro, 0, 0, 65535, false, none⟩

/-- R205. Last safe duty of R182. -/
def R.LPE_DUTY.SAFE (i : Nat) : Field :=
  ⟨.keep, pageIf (i < 33) 0, 16, 0x041038 + 0x40 * (i % 33), 16, 16, .ro, 0, 0, 65535, false, none⟩

/-- R205. i >> 16, duty LSBs, sign-extended. -/
def R.LPE_INT.I (i : Nat) : Field :=
  ⟨.keep, pageIf (i < 33) 0, 16, 0x04103C + 0x40 * (i % 33), 0, 32, .ro, 0, 0, 4294967295, false, none⟩

/-- R253. 1: update the pairs of outputs 0 and 1. -/
def R.EST_CTRL.TRIM_EN : Field :=
  ⟨.keep, 0, 16, 0x060000, 0, 1, .rw, 1, 0, 1, false, none⟩

/-- R253. Forgetting exponent, 4 to 15. -/
def R.EST_CTRL.FF : Field :=
  ⟨.keep, 0, 16, 0x060000, 1, 4, .rw, 10, 4, 15, false, none⟩

/-- R253. 1: update the link pair. -/
def R.EST_CTRL.LINK_TRIM_EN : Field :=
  ⟨.keep, 0, 16, 0x060000, 5, 1, .rw, 1, 0, 1, false, none⟩

/-- R253. Lowest gain, q2.14, 1 to 16,384. -/
def R.EST_TRIM_GAIN.GAIN_MIN : Field :=
  ⟨.keep, 0, 16, 0x060004, 0, 16, .rw, 8192, 1, 16384, false, none⟩

/-- R253. Highest gain, q2.14, 16,384 to 32,767. -/
def R.EST_TRIM_GAIN.GAIN_MAX : Field :=
  ⟨.keep, 0, 16, 0x060004, 16, 16, .rw, 24576, 16384, 32767, false, none⟩

/-- R253. Offset bound, current, 0 to 65,536. -/
def R.EST_TRIM_OFS.OFS_MAX : Field :=
  ⟨.keep, 0, 16, 0x060008, 0, 24, .rw, 4096, 0, 65536, false, none⟩

/-- R253. Initial gain covariance, binary32, positive and finite. -/
def R.EST_TRIM_P0G.P0 : Field :=
  ⟨.keep, 0, 16, 0x06000C, 0, 32, .rw, 953267991, 1, 2139095039, false, none⟩

/-- R253. Initial offset covariance, binary32, positive and finite. -/
def R.EST_TRIM_P0O.P0 : Field :=
  ⟨.keep, 0, 16, 0x060010, 0, 32, .rw, 1065353216, 1, 2139095039, false, none⟩

/-- R253. Covariance trace limit of R231, binary32, positive and finite. -/
def R.EST_TRIM_PMAX.PMAX : Field :=
  ⟨.keep, 0, 16, 0x060014, 0, 32, .rw, 1176256512, 1, 2139095039, false, none⟩

/-- R253. [0] LOAD_OK, [1] LOAD_FAIL, [2] LOAD_ABORT, [3] STAGE_TIMEOUT, [4] TRIM_CLAMP, [5] P_RESET, [6] LATE. -/
def R.EST_EVENT : Field :=
  ⟨.keep, 0, 16, 0x060018, 0, 7, .w1c, 0, 0, 127, false, none⟩

/-- R253. 1 while the staging buffer is assigned. -/
def R.EST_STAGE.OPEN : Field :=
  ⟨.gov, 0, 16, 0x06001C, 0, 1, .ro, 0, 0, 1, false, none⟩

/-- R253. 0 to 7: H0 to H7, 8: BMC, 9: firmware. -/
def R.EST_STAGE.OWNER : Field :=
  ⟨.gov, 0, 16, 0x06001C, 1, 4, .ro, 0, 0, 15, false, none⟩

/-- R253. Length given to MODEL_OPEN. -/
def R.EST_STAGE.LEN : Field :=
  ⟨.gov, 0, 16, 0x06001C, 5, 19, .ro, 0, 0, 524287, false, none⟩

/-- R253. Status of the last MODEL_LOAD. -/
def R.EST_LOAD_STAT.STATUS : Field :=
  ⟨.gov, 0, 16, 0x060020, 0, 8, .ro, 0, 0, 255, false, none⟩

/-- R253. Detail code of R240. -/
def R.EST_LOAD_STAT.DETAIL : Field :=
  ⟨.gov, 0, 16, 0x060020, 8, 8, .ro, 0, 0, 255, false, none⟩

/-- R253. Bit d: die d has an active model. -/
def R.EST_ACTIVE.MASK : Field :=
  ⟨.die, 0, 16, 0x060024, 0, 16, .ro, 0, 0, 65535, false, some (.estActive)⟩

/-- R253. Link pair gain G, q2.14, under R216. -/
def R.EST_LINK_TRIM.GAIN : Field :=
  ⟨.acc, 0, 16, 0x060028, 0, 16, .ro, 16384, 0, 65535, false, none⟩

/-- R253. Skipped link-pair updates of R232, saturating. -/
def R.EST_LINK_TRIM.SKIP : Field :=
  ⟨.acc, 0, 16, 0x060028, 16, 16, .ro, 0, 0, 65535, false, none⟩

/-- R253. Link pair offset O, sign-extended, under R216. -/
def R.EST_LINK_OFS.OFS : Field :=
  ⟨.acc, 0, 16, 0x06002C, 0, 32, .ro, 0, 0, 4294967295, false, none⟩

/-- R254. 1 while a model is active. -/
def R.EST_DIE_STAT.ACTIVE (i : Nat) : Field :=
  ⟨.die, pageIf (i < 16) 0, i % 16, 0x061000 + 0x80 * (i % 16), 0, 1, .ro, 0, 0, 1, false, none⟩

/-- R254. 1 while outputs are substituted under R225. -/
def R.EST_DIE_STAT.SUBST (i : Nat) : Field :=
  ⟨.die, pageIf (i < 16) 0, i % 16, 0x061000 + 0x80 * (i % 16), 1, 1, .ro, 0, 0, 1, false, none⟩

/-- R254. 1 while the other bank holds a model. -/
def R.EST_DIE_STAT.PREV_VALID (i : Nat) : Field :=
  ⟨.die, pageIf (i < 16) 0, i % 16, 0x061000 + 0x80 * (i % 16), 2, 1, .ro, 0, 0, 1, false, none⟩

/-- R254. 1 when the last update of output 0 or 1 was skipped. -/
def R.EST_DIE_STAT.TRIM_HOLD (i : Nat) : Field :=
  ⟨.die, pageIf (i < 16) 0, i % 16, 0x061000 + 0x80 * (i % 16), 3, 1, .ro, 0, 0, 1, false, none⟩

/-- R254. MODEL_ID of the active model. -/
def R.EST_DIE_MODEL.ID (i : Nat) : Field :=
  ⟨.die, pageIf (i < 16) 0, i % 16, 0x061004 + 0x80 * (i % 16), 0, 32, .ro, 0, 0, 4294967295, false, none⟩

/-- R254. MODEL_VER of the active model. -/
def R.EST_DIE_MVER.VER (i : Nat) : Field :=
  ⟨.die, pageIf (i < 16) 0, i % 16, 0x061008 + 0x80 * (i % 16), 0, 32, .ro, 0, 0, 4294967295, false, none⟩

/-- R254. Inputs. -/
def R.EST_DIE_SIZE.N_IN (i : Nat) : Field :=
  ⟨.die, pageIf (i < 16) 0, i % 16, 0x06100C + 0x80 * (i % 16), 0, 13, .ro, 0, 0, 8191, false, none⟩

/-- R254. Hidden units. -/
def R.EST_DIE_SIZE.N_HID (i : Nat) : Field :=
  ⟨.die, pageIf (i < 16) 0, i % 16, 0x06100C + 0x80 * (i % 16), 13, 7, .ro, 0, 0, 127, false, none⟩

/-- R254. Outputs. -/
def R.EST_DIE_SIZE.N_OUT (i : Nat) : Field :=
  ⟨.die, pageIf (i < 16) 0, i % 16, 0x06100C + 0x80 * (i % 16), 20, 3, .ro, 0, 0, 7, false, none⟩

/-- R254. out[k] of the last publication, sign-extended. -/
def R.EST_OUT.I (i k : Nat) : Field :=
  ⟨.die, pageIf (i < 16 ∧ k < 4) 0, i % 16, 0x061010 + 0x80 * (i % 16) + 4 * (k % 4), 0, 32, .ro, 0, 0, 4294967295, false, none⟩

/-- R254. raw[k], sign-extended. -/
def R.EST_RAW.I (i k : Nat) : Field :=
  ⟨.die, pageIf (i < 16 ∧ k < 4) 0, i % 16, 0x061020 + 0x80 * (i % 16) + 4 * (k % 4), 0, 32, .ro, 0, 0, 4294967295, false, none⟩

/-- R254. leak[k], sign-extended. -/
def R.EST_LEAK.I (i k : Nat) : Field :=
  ⟨.die, pageIf (i < 16 ∧ k < 4) 0, i % 16, 0x061030 + 0x80 * (i % 16) + 4 * (k % 4), 0, 32, .ro, 0, 0, 4294967295, false, none⟩

/-- R254. Gain in use, q2.14; k = 2 reads G. -/
def R.EST_GAIN.GAIN (i k : Nat) : Field :=
  ⟨.die, pageIf (i < 16 ∧ k < 4) 0, i % 16, 0x061040 + 0x80 * (i % 16) + 4 * (k % 4), 0, 16, .ro, 0, 0, 65535, false, none⟩

/-- R254. Offset in use, sign-extended; k = 2 reads O / n. -/
def R.EST_OFS.OFS (i k : Nat) : Field :=
  ⟨.die, pageIf (i < 16 ∧ k < 4) 0, i % 16, 0x061050 + 0x80 * (i % 16) + 4 * (k % 4), 0, 32, .ro, 0, 0, 4294967295, false, none⟩

/-- R254. Late windows of R223, saturating. -/
def R.EST_DIE_CNT.LATE (i : Nat) : Field :=
  ⟨.die, pageIf (i < 16) 0, i % 16, 0x061060 + 0x80 * (i % 16), 0, 16, .ro, 0, 0, 65535, false, none⟩

/-- R254. Skipped updates of the die's pairs of outputs 0 and 1 under R232, saturating. -/
def R.EST_DIE_CNT.SKIP (i : Nat) : Field :=
  ⟨.die, pageIf (i < 16) 0, i % 16, 0x061060 + 0x80 * (i % 16), 16, 16, .ro, 0, 0, 65535, false, none⟩

/-- R254. Die mean temperature used. -/
def R.EST_DIE_TIN.TCORE (i : Nat) : Field :=
  ⟨.die, pageIf (i < 16) 0, i % 16, 0x061064 + 0x80 * (i % 16), 0, 16, .ro, 0, 0, 65535, false, none⟩

/-- R254. Bonded-layer mean temperature used. -/
def R.EST_DIE_TIN.TMEM (i : Nat) : Field :=
  ⟨.die, pageIf (i < 16) 0, i % 16, 0x061064 + 0x80 * (i % 16), 16, 16, .ro, 0, 0, 65535, false, none⟩

/-- R254. CLK_TIME of the last publication; 64-bit, read under R19. -/
def R.EST_DIE_TS.TIME (i : Nat) : Field :=
  ⟨.die, pageIf (i < 16) 0, i % 16, 0x061068 + 0x80 * (i % 16), 0, 64, .ro, 0, 0, 18446744073709551615, false, none⟩

/-- R254. Mean VCORE used. -/
def R.EST_DIE_VIN.VCORE (i : Nat) : Field :=
  ⟨.die, pageIf (i < 16) 0, i % 16, 0x061070 + 0x80 * (i % 16), 0, 16, .ro, 0, 0, 65535, false, none⟩

/-- R254. Mean VMEM used. -/
def R.EST_DIE_VIN.VMEM (i : Nat) : Field :=
  ⟨.die, pageIf (i < 16) 0, i % 16, 0x061070 + 0x80 * (i % 16), 16, 16, .ro, 0, 0, 65535, false, none⟩

/-- R254. Mean VLINK used. -/
def R.EST_DIE_VIN2.VLINK (i : Nat) : Field :=
  ⟨.die, pageIf (i < 16) 0, i % 16, 0x061074 + 0x80 * (i % 16), 0, 16, .ro, 0, 0, 65535, false, none⟩

/-- R297. 1: the core uses intent under R265. -/
def R.ITN_CTRL.USE_EN : Field :=
  ⟨.keep, 0, 16, 0x080000, 0, 1, .rw, 1, 0, 1, false, none⟩

/-- R297. 1: pre-emphasis allowed. -/
def R.ITN_CTRL.PE_EN : Field :=
  ⟨.keep, 0, 16, 0x080000, 1, 1, .rw, 1, 0, 1, false, none⟩

/-- R297. Tokens per slot, 0 to 4,095. -/
def R.ITN_MM.MARGIN : Field :=
  ⟨.keep, 0, 16, 0x080004, 0, 12, .rw, 256, 0, 4095, false, none⟩

/-- R297. Slots to enter MISMATCH, 1 to 255. -/
def R.ITN_MM.MM_N : Field :=
  ⟨.keep, 0, 16, 0x080004, 12, 8, .rw, 8, 1, 255, false, none⟩

/-- R297. Slots to leave MISMATCH, 1 to 4,095. -/
def R.ITN_MM.MM_CLR : Field :=
  ⟨.keep, 0, 16, 0x080004, 20, 12, .rw, 400, 1, 4095, false, none⟩

/-- R297. Rise slew in MISMATCH or BLIND, in 1/16, 1 to 16. -/
def R.ITN_MM2.RISE_FRAC : Field :=
  ⟨.keep, 0, 16, 0x080008, 0, 5, .rw, 8, 1, 16, false, none⟩

/-- R297. Pre-emphasis gain, voltage codes per 1/256 A, q0.16. -/
def R.ITN_PE.KPE : Field :=
  ⟨.keep, 0, 16, 0x08000C, 0, 16, .rw, 51, 0, 65535, false, none⟩

/-- R297. Largest offset, voltage codes, 0 to 200. -/
def R.ITN_PE.PE_MAX : Field :=
  ⟨.keep, 0, 16, 0x08000C, 16, 8, .rw, 120, 0, 200, false, none⟩

/-- R297. Voltage codes per evaluation, 1 to 255. -/
def R.ITN_PE.PE_SLEW : Field :=
  ⟨.keep, 0, 16, 0x08000C, 24, 8, .rw, 4, 1, 255, false, none⟩

/-- R297. Look-ahead window, 0 to 4,000. -/
def R.ITN_PE2.WIN_NS : Field :=
  ⟨.keep, 0, 16, 0x080010, 0, 12, .rw, 4000, 0, 4000, false, none⟩

/-- R297. mV below the reference, 10 to 150. -/
def R.ITN_DRP_CFG.TH : Field :=
  ⟨.keep, 0, 16, 0x080014, 0, 8, .rw, 40, 10, 150, false, none⟩

/-- R297. mV, 2 to 50. -/
def R.ITN_DRP_CFG.HYST : Field :=
  ⟨.keep, 0, 16, 0x080014, 8, 8, .rw, 10, 2, 50, false, none⟩

/-- R297. 100 ps units, 1 to 8. -/
def R.ITN_DRP_CFG.DEGLITCH : Field :=
  ⟨.keep, 0, 16, 0x080014, 16, 4, .rw, 3, 1, 8, false, none⟩

/-- R297. Stretch depth of R286. -/
def R.ITN_DRP_CFG.DEPTH : Field :=
  ⟨.keep, 0, 16, 0x080014, 20, 2, .rw, 1, 0, 3, false, none⟩

/-- R297. 1: assert STRETCH_REQ on a droop. -/
def R.ITN_DRP_CFG.STRETCH_EN : Field :=
  ⟨.keep, 0, 16, 0x080014, 22, 1, .rw, 1, 0, 1, false, none⟩

/-- R297. Clear time, 10 to 255. -/
def R.ITN_DRP_CFG.CLR_NS : Field :=
  ⟨.keep, 0, 16, 0x080014, 24, 8, .rw, 50, 10, 255, false, none⟩

/-- R297. 2 to 1,000. -/
def R.ITN_DRP_CFG2.STUCK_US : Field :=
  ⟨.keep, 0, 16, 0x080018, 0, 16, .rw, 20, 2, 1000, false, none⟩

/-- R297. [0] BAD_PKT, [1] OVERFLOW, [2] MM_ENTER, [3] MM_EXIT, [4] DROOP, [5] SITE_STUCK, [6] SITE_FAIL, [7] BLIND. -/
def R.ITN_EVENT : Field :=
  ⟨.keep, 0, 16, 0x08001C, 0, 8, .w1c, 0, 0, 255, false, none⟩

/-- R297. Bit d: die d in MISMATCH. -/
def R.ITN_MISMATCH.DIES : Field :=
  ⟨.die, 0, 16, 0x080020, 0, 16, .ro, 0, 0, 65535, false, some (.itnMismatch)⟩

/-- R297. Bit d: droop cut active on die d. -/
def R.ITN_DROOP_ACT.DIES : Field :=
  ⟨.die, 0, 16, 0x080024, 0, 16, .ro, 0, 0, 65535, false, some (.itnCut)⟩

/-- R297. Bit d: die d in COLLECTIVE. -/
def R.ITN_COLL.DIES : Field :=
  ⟨.die, 0, 16, 0x080028, 0, 16, .ro, 0, 0, 65535, false, some (.itnColl)⟩

/-- R298. Bit s: source s enabled. -/
def R.ITN_SRC_CFG.SRC_EN (i : Nat) : Field :=
  ⟨.keep, pageIf (i < 16) 0, 16, 0x080400 + 0x40 * (i % 16), 0, 8, .rw, 255, 0, 255, false, none⟩

/-- R298. Step source of R266. -/
def R.ITN_SRC_CFG.STEP_SRC (i : Nat) : Field :=
  ⟨.keep, pageIf (i < 16) 0, 16, 0x080400 + 0x40 * (i % 16), 8, 3, .rw, 0, 0, 7, false, none⟩

/-- R298. 1/65,536 A per token per 100 ns slot; scaled in COAST and RELOCK under R271. -/
def R.ITN_KTOK.KTOK (i : Nat) : Field :=
  ⟨.keep, pageIf (i < 16) 0, 16, 0x080404 + 0x40 * (i % 16), 0, 16, .rw, 6554, 0, 65535, false, none⟩

/-- R298. Result of R265. -/
def R.ITN_DIE_STAT.EMPTY (i : Nat) : Field :=
  ⟨.die, pageIf (i < 16) 0, i % 16, 0x080408 + 0x40 * (i % 16), 0, 1, .ro, 1, 0, 1, false, none⟩

/-- R298. 1 in MISMATCH. -/
def R.ITN_DIE_STAT.MISMATCH (i : Nat) : Field :=
  ⟨.die, pageIf (i < 16) 0, i % 16, 0x080408 + 0x40 * (i % 16), 1, 1, .ro, 0, 0, 1, false, none⟩

/-- R298. 1 in COLLECTIVE. -/
def R.ITN_DIE_STAT.COLLECTIVE (i : Nat) : Field :=
  ⟨.die, pageIf (i < 16) 0, i % 16, 0x080408 + 0x40 * (i % 16), 2, 1, .ro, 0, 0, 1, false, none⟩

/-- R298. 1 in barrier wait. -/
def R.ITN_DIE_STAT.BARRIER (i : Nat) : Field :=
  ⟨.die, pageIf (i < 16) 0, i % 16, 0x080408 + 0x40 * (i % 16), 3, 1, .ro, 0, 0, 1, false, none⟩

/-- R298. 1 while the droop cut is active. -/
def R.ITN_DIE_STAT.CUT (i : Nat) : Field :=
  ⟨.die, pageIf (i < 16) 0, i % 16, 0x080408 + 0x40 * (i % 16), 4, 1, .ro, 0, 0, 1, false, none⟩

/-- R298. 1 while STRETCH_REQ is asserted. -/
def R.ITN_DIE_STAT.STRETCH (i : Nat) : Field :=
  ⟨.die, pageIf (i < 16) 0, i % 16, 0x080408 + 0x40 * (i % 16), 5, 1, .ro, 0, 0, 1, false, none⟩

/-- R298. 1 while BLIND. -/
def R.ITN_DIE_STAT.BLIND (i : Nat) : Field :=
  ⟨.die, pageIf (i < 16) 0, i % 16, 0x080408 + 0x40 * (i % 16), 6, 1, .ro, 0, 0, 1, false, none⟩

/-- R298. Pre-emphasis offset, voltage codes. -/
def R.ITN_DIE_STAT.PE (i : Nat) : Field :=
  ⟨.die, pageIf (i < 16) 0, i % 16, 0x080408 + 0x40 * (i % 16), 8, 8, .ro, 0, 0, 255, false, none⟩

/-- R298. Current step tag. -/
def R.ITN_DIE_STAT.STEP (i : Nat) : Field :=
  ⟨.die, pageIf (i < 16) 0, i % 16, 0x080408 + 0x40 * (i % 16), 16, 16, .ro, 0, 0, 65535, false, none⟩

/-- R298. Largest ia(k) of R275, sign-extended. -/
def R.ITN_DIE_PRED.IMAX (i : Nat) : Field :=
  ⟨.die, pageIf (i < 16) 0, i % 16, 0x08040C + 0x40 * (i % 16), 0, 32, .ro, 0, 0, 4294967295, false, none⟩

/-- R298. ipred of the last evaluation, sign-extended. -/
def R.ITN_DIE_PRED2.ILEAD (i : Nat) : Field :=
  ⟨.die, pageIf (i < 16) 0, i % 16, 0x080410 + 0x40 * (i % 16), 0, 32, .ro, 0, 0, 4294967295, false, none⟩

/-- R298. Accepted packets, saturating. -/
def R.ITN_DIE_CNT.ACCEPTED (i : Nat) : Field :=
  ⟨.die, pageIf (i < 16) 0, i % 16, 0x080414 + 0x40 * (i % 16), 0, 16, .ro, 0, 0, 65535, false, none⟩

/-- R298. Malformed packets, saturating. -/
def R.ITN_DIE_CNT.BAD (i : Nat) : Field :=
  ⟨.die, pageIf (i < 16) 0, i % 16, 0x080414 + 0x40 * (i % 16), 16, 16, .ro, 0, 0, 65535, false, none⟩

/-- R298. Packets refused under R261, saturating. -/
def R.ITN_DIE_CNT2.OVERFLOW (i : Nat) : Field :=
  ⟨.die, pageIf (i < 16) 0, i % 16, 0x080418 + 0x40 * (i % 16), 0, 16, .ro, 0, 0, 65535, false, none⟩

/-- R298. Packets from disabled sources, saturating. -/
def R.ITN_DIE_CNT2.SRC_OFF (i : Nat) : Field :=
  ⟨.die, pageIf (i < 16) 0, i % 16, 0x080418 + 0x40 * (i % 16), 16, 16, .ro, 0, 0, 65535, false, none⟩

/-- R298. Overstating slots, saturating. -/
def R.ITN_MM_CNT.OVER (i : Nat) : Field :=
  ⟨.die, pageIf (i < 16) 0, i % 16, 0x08041C + 0x40 * (i % 16), 0, 16, .ro, 0, 0, 65535, false, none⟩

/-- R298. Understating slots, saturating. -/
def R.ITN_MM_CNT.UNDER (i : Nat) : Field :=
  ⟨.die, pageIf (i < 16) 0, i % 16, 0x08041C + 0x40 * (i % 16), 16, 16, .ro, 0, 0, 65535, false, none⟩

/-- R298. Sites detecting now. -/
def R.ITN_DRP_STAT.FIRED (i : Nat) : Field :=
  ⟨.die, pageIf (i < 16) 0, i % 16, 0x080420 + 0x40 * (i % 16), 0, 4, .ro, 0, 0, 15, false, none⟩

/-- R298. Sites marked STUCK. -/
def R.ITN_DRP_STAT.STUCK (i : Nat) : Field :=
  ⟨.die, pageIf (i < 16) 0, i % 16, 0x080420 + 0x40 * (i % 16), 4, 4, .ro, 0, 0, 15, false, none⟩

/-- R298. Sites marked FAILED. -/
def R.ITN_DRP_STAT.FAILED (i : Nat) : Field :=
  ⟨.die, pageIf (i < 16) 0, i % 16, 0x080420 + 0x40 * (i % 16), 8, 4, .ro, 0, 0, 15, false, none⟩

/-- R298. Droops, saturating. -/
def R.ITN_DRP_STAT.EVENTS (i : Nat) : Field :=
  ⟨.die, pageIf (i < 16) 0, i % 16, 0x080420 + 0x40 * (i % 16), 16, 16, .ro, 0, 0, 65535, false, none⟩

/-- R298. Bit n: site n masked; all four at 1 rejected. -/
def R.ITN_DRP_MASK.SITE_DIS (i : Nat) : Field :=
  ⟨.keep, pageIf (i < 16) 0, 16, 0x080424 + 0x40 * (i % 16), 0, 4, .rw, 0, 0, 14, false, none⟩

/-- R298. CLK_TIME of the last droop start; 64-bit, read under R19. -/
def R.ITN_DRP_LAST.TIME (i : Nat) : Field :=
  ⟨.die, pageIf (i < 16) 0, i % 16, 0x080428 + 0x40 * (i % 16), 0, 64, .ro, 0, 0, 18446744073709551615, false, none⟩

/-- R298. Length of the last cut, saturating. -/
def R.ITN_DRP_DUR.NS (i : Nat) : Field :=
  ⟨.die, pageIf (i < 16) 0, i % 16, 0x080430 + 0x40 * (i % 16), 0, 32, .ro, 0, 0, 4294967295, false, none⟩

/-- R298. Tag of the last completed step. -/
def R.ITN_STEP.LAST (i : Nat) : Field :=
  ⟨.die, pageIf (i < 16) 0, i % 16, 0x080434 + 0x40 * (i % 16), 0, 16, .ro, 0, 0, 65535, false, none⟩

/-- R298. Barrier wait of that step, saturating. -/
def R.ITN_STEP_WAIT.NS (i : Nat) : Field :=
  ⟨.die, pageIf (i < 16) 0, i % 16, 0x080438 + 0x40 * (i % 16), 0, 32, .ro, 0, 0, 4294967295, false, none⟩

/-- R298. Length of that step, saturating. -/
def R.ITN_STEP_LEN.US (i : Nat) : Field :=
  ⟨.die, pageIf (i < 16) 0, i % 16, 0x08043C + 0x40 * (i % 16), 0, 32, .ro, 0, 0, 4294967295, false, none⟩

/-- R330. [0] SCALED, [1] FLOOR_ONLY, [2] SHARE_LATE. -/
def R.TOK_EVENT : Field :=
  ⟨.keep, 0, 16, 0x080800, 0, 3, .w1c, 0, 0, 7, false, none⟩

/-- R330. Slots with any die scaled, saturating. -/
def R.TOK_ARB_CNT.SCALED : Field :=
  ⟨.gov, 0, 16, 0x080804, 0, 32, .ro, 0, 0, 4294967295, false, none⟩

/-- R330. Slots under R312 floor-only, saturating. -/
def R.TOK_ARB_CNT2.FLOOR_ONLY : Field :=
  ⟨.gov, 0, 16, 0x080808, 0, 32, .ro, 0, 0, 4294967295, false, none⟩

/-- R330. Round-robin pointer of R311. -/
def R.TOK_RR.PTR : Field :=
  ⟨.gov, 0, 16, 0x08080C, 0, 4, .ro, 0, 0, 15, false, none⟩

/-- R331. 1: glide episodes under R317. -/
def R.FIL_CTRL.GLIDE_EN : Field :=
  ⟨.keep, 0, 16, 0x080900, 0, 1, .rw, 1, 0, 1, false, none⟩

/-- R331. µs, 20 to 500. -/
def R.FIL_CTRL.GLIDE : Field :=
  ⟨.keep, 0, 16, 0x080900, 16, 9, .rw, 100, 20, 500, false, none⟩

/-- R331. Warm-up filler per slot, lowest F to highest M of the present dies, under R324. -/
def R.FIL_WARM.LEVEL : Field :=
  ⟨.keep, 0, 16, 0x080904, 0, 12, .rw, 1024, 0, 4095, false, none⟩

/-- R331. s, 10 to 3,600. -/
def R.FIL_WARM.TIMEOUT_S : Field :=
  ⟨.keep, 0, 16, 0x080904, 16, 12, .rw, 900, 10, 3600, false, none⟩

/-- R331. Temperature, −40 °C to 0 °C. -/
def R.FIL_WARM_TH.ENTER : Field :=
  ⟨.keep, 0, 16, 0x080908, 0, 16, .rw, 65376, -640, 0, true, none⟩

/-- R331. Temperature, ENTER + 1 °C to +10 °C. -/
def R.FIL_WARM_TH.EXIT : Field :=
  ⟨.keep, 0, 16, 0x080908, 16, 16, .rw, 65456, -624, 160, true, none⟩

/-- R331. 0 NONE, 1 HEATING, 2 DONE, 3 ENDED. -/
def R.FIL_WARM_STAT.STATE : Field :=
  ⟨.gov, 0, 16, 0x08090C, 0, 2, .ro, 0, 0, 3, false, none⟩

/-- R331. Set under R325. -/
def R.FIL_WARM_STAT.TIMEOUT : Field :=
  ⟨.gov, 0, 16, 0x08090C, 2, 1, .ro, 0, 0, 1, false, none⟩

/-- R331. s in HEATING, saturating. -/
def R.FIL_WARM_STAT.ELAPSED_S : Field :=
  ⟨.gov, 0, 16, 0x08090C, 16, 16, .ro, 0, 0, 65535, false, none⟩

/-- R331. [0] EPISODE, [1] WARM_START, [2] WARM_DONE, [3] WARM_TIMEOUT. -/
def R.FIL_EVENT : Field :=
  ⟨.keep, 0, 16, 0x080910, 0, 4, .w1c, 0, 0, 15, false, none⟩

/-- R331. Filler energy of all dies; 64-bit, read under R19. -/
def R.FIL_SYS_E.ENERGY : Field :=
  ⟨.keep, 0, 16, 0x080918, 0, 64, .ro, 0, 0, 18446744073709551615, false, none⟩

/-- R332. Tokens per slot, 1 to 4,095. -/
def R.TOK_SLEW.RISE (i : Nat) : Field :=
  ⟨.keep, pageIf (i < 16) 0, 16, 0x080C00 + 0x40 * (i % 16), 0, 12, .rw, 64, 1, 4095, false, none⟩

/-- R332. Tokens per slot, 1 to 4,095. -/
def R.TOK_SLEW.FALL (i : Nat) : Field :=
  ⟨.keep, pageIf (i < 16) 0, 16, 0x080C00 + 0x40 * (i % 16), 16, 12, .rw, 64, 1, 4095, false, none⟩

/-- R332. Arbitration weight, 1 to 255. -/
def R.TOK_ARB.WEIGHT (i : Nat) : Field :=
  ⟨.keep, pageIf (i < 16) 0, 16, 0x080C04 + 0x40 * (i % 16), 0, 8, .rw, 16, 1, 255, false, none⟩

/-- R332. M of R299. -/
def R.TOK_DIE_LIM.MAX (i : Nat) : Field :=
  ⟨.fuse, pageIf (i < 16) 0, 16, 0x080C08 + 0x40 * (i % 16), 0, 12, .ro, 4095, 0, 4095, false, some (.issueMax i)⟩

/-- R332. F of R300. -/
def R.TOK_DIE_LIM.FLOOR (i : Nat) : Field :=
  ⟨.fuse, pageIf (i < 16) 0, 16, 0x080C08 + 0x40 * (i % 16), 12, 12, .ro, 128, 0, 4095, false, some (.issueFloor i)⟩

/-- R332. Fused grade, 1 to 32. -/
def R.TOK_DIE_LIM.GRADE (i : Nat) : Field :=
  ⟨.fuse, pageIf (i < 16) 0, 16, 0x080C08 + 0x40 * (i % 16), 24, 6, .ro, 32, 0, 63, false, none⟩

/-- R332. Grant of the last completed slot. -/
def R.TOK_DIE_STAT.GRANT (i : Nat) : Field :=
  ⟨.die, pageIf (i < 16) 0, i % 16, 0x080C0C + 0x40 * (i % 16), 0, 12, .ro, 0, 0, 4095, false, none⟩

/-- R332. Share of the last slot. -/
def R.TOK_DIE_STAT.SHARE (i : Nat) : Field :=
  ⟨.die, pageIf (i < 16) 0, i % 16, 0x080C0C + 0x40 * (i % 16), 16, 12, .ro, 0, 0, 4095, false, none⟩

/-- R332. 1: share below ask in the last slot. -/
def R.TOK_DIE_STAT.SCALED (i : Nat) : Field :=
  ⟨.die, pageIf (i < 16) 0, i % 16, 0x080C0C + 0x40 * (i % 16), 28, 1, .ro, 0, 0, 1, false, none⟩

/-- R332. 1: grant 0 under R304. -/
def R.TOK_DIE_STAT.ZERO (i : Nat) : Field :=
  ⟨.die, pageIf (i < 16) 0, i % 16, 0x080C0C + 0x40 * (i % 16), 29, 1, .ro, 1, 0, 1, false, none⟩

/-- R332. Budget in force. -/
def R.TOK_DIE_STAT2.BUDGET (i : Nat) : Field :=
  ⟨.die, pageIf (i < 16) 0, i % 16, 0x080C10 + 0x40 * (i % 16), 0, 12, .ro, 0, 0, 4095, false, none⟩

/-- R332. Real issue of the last slot. -/
def R.TOK_DIE_STAT2.USED (i : Nat) : Field :=
  ⟨.die, pageIf (i < 16) 0, i % 16, 0x080C10 + 0x40 * (i % 16), 16, 12, .ro, 0, 0, 4095, false, none⟩

/-- R332. rise_eff of R306. -/
def R.TOK_DIE_STAT3.RISE_EFF (i : Nat) : Field :=
  ⟨.die, pageIf (i < 16) 0, i % 16, 0x080C14 + 0x40 * (i % 16), 0, 12, .ro, 64, 0, 4095, false, none⟩

/-- R332. Filler of the last slot. -/
def R.TOK_DIE_STAT3.FILLER (i : Nat) : Field :=
  ⟨.die, pageIf (i < 16) 0, i % 16, 0x080C14 + 0x40 * (i % 16), 16, 12, .ro, 0, 0, 4095, false, none⟩

/-- R332. Slots with share below ask, saturating. -/
def R.TOK_DIE_CNT.SCALED (i : Nat) : Field :=
  ⟨.die, pageIf (i < 16) 0, i % 16, 0x080C18 + 0x40 * (i % 16), 0, 32, .ro, 0, 0, 4294967295, false, none⟩

/-- R332. 1 while a glide episode runs. -/
def R.FIL_DIE_STAT.EPISODE (i : Nat) : Field :=
  ⟨.die, pageIf (i < 16) 0, i % 16, 0x080C20 + 0x40 * (i % 16), 0, 1, .ro, 0, 0, 1, false, none⟩

/-- R332. 1 while warm-up filler issues. -/
def R.FIL_DIE_STAT.WARM (i : Nat) : Field :=
  ⟨.die, pageIf (i < 16) 0, i % 16, 0x080C20 + 0x40 * (i % 16), 1, 1, .ro, 0, 0, 1, false, none⟩

/-- R332. Slots into the episode, saturating. -/
def R.FIL_DIE_STAT.N (i : Nat) : Field :=
  ⟨.die, pageIf (i < 16) 0, i % 16, 0x080C20 + 0x40 * (i % 16), 16, 16, .ro, 0, 0, 65535, false, none⟩

/-- R332. l0 of the running episode. -/
def R.FIL_DIE_L0.L0 (i : Nat) : Field :=
  ⟨.die, pageIf (i < 16) 0, i % 16, 0x080C24 + 0x40 * (i % 16), 0, 12, .ro, 0, 0, 4095, false, none⟩

/-- R332. Filler energy of the die under R327; 64-bit, read under R19. -/
def R.FIL_DIE_E.ENERGY (i : Nat) : Field :=
  ⟨.keep, pageIf (i < 16) 0, 16, 0x080C28 + 0x40 * (i % 16), 0, 64, .ro, 0, 0, 18446744073709551615, false, none⟩

/-- R332. Episodes started, saturating. -/
def R.FIL_DIE_CNT.EPISODES (i : Nat) : Field :=
  ⟨.die, pageIf (i < 16) 0, i % 16, 0x080C30 + 0x40 * (i % 16), 0, 16, .ro, 0, 0, 65535, false, none⟩

/-- R386. Mode under R382. -/
def R.CAP_MODE.MODE : Field :=
  ⟨.keep, 0, 16, 0x0A0000, 0, 2, .ro, 0, 0, 3, false, none⟩

/-- R386. OP in FIXED_FREQ. -/
def R.CAP_MODE.OP_FIX : Field :=
  ⟨.keep, 0, 16, 0x0A0000, 2, 4, .ro, 0, 0, 15, false, none⟩

/-- R386. A, 100 to 2,000. -/
def R.CAP_PKG_ILIM.IIN_LIM : Field :=
  ⟨.keep, 0, 16, 0x0A0004, 0, 11, .rw, 1300, 100, 2000, false, none⟩

/-- R386. Conversion efficiency, q0.16, 32,768 to 65,535. -/
def R.CAP_PKG_CFG.EFF : Field :=
  ⟨.keep, 0, 16, 0x0A0008, 0, 16, .rw, 58982, 32768, 65535, false, none⟩

/-- R386. W added to P_pkg, 0 to 1,023. -/
def R.CAP_PKG_CFG.P_FIXED : Field :=
  ⟨.keep, 0, 16, 0x0A0008, 16, 10, .rw, 0, 0, 1023, false, none⟩

/-- R386. Package cap in force, mW. -/
def R.CAP_PKG_CAP.CAP : Field :=
  ⟨.keep, 0, 16, 0x0A000C, 0, 32, .ro, 4294967295, 0, 4294967295, false, none⟩

/-- R386. s, 1 to 64; used from the next 1 ms tick. -/
def R.CAP_AVG_CFG.TAU_S : Field :=
  ⟨.keep, 0, 16, 0x0A0010, 0, 7, .rw, 8, 1, 64, false, none⟩

/-- R386. Average limit, mW. -/
def R.CAP_AVG_LIM.LIM : Field :=
  ⟨.keep, 0, 16, 0x0A0014, 0, 32, .ro, 2000000, 0, 4294967295, false, none⟩

/-- R386. Class order of R384. -/
def R.CAP_CLASS.ORDER : Field :=
  ⟨.keep, 0, 16, 0x0A0018, 0, 6, .ro, 6, 0, 63, false, none⟩

/-- R386. W. -/
def R.CAP_CLASS_FLOOR.COMP : Field :=
  ⟨.keep, 0, 16, 0x0A001C, 0, 10, .ro, 20, 0, 1023, false, none⟩

/-- R386. W. -/
def R.CAP_CLASS_FLOOR.MEM : Field :=
  ⟨.keep, 0, 16, 0x0A001C, 10, 10, .ro, 10, 0, 1023, false, none⟩

/-- R386. W. -/
def R.CAP_CLASS_FLOOR.LINK : Field :=
  ⟨.keep, 0, 16, 0x0A001C, 20, 10, .ro, 5, 0, 1023, false, none⟩

/-- R386. Voltage, 1.550 V to 1.750 V. -/
def R.CAP_BROWN.WARN : Field :=
  ⟨.keep, 0, 16, 0x0A0020, 0, 16, .rw, 12960, 12400, 14000, false, none⟩

/-- R386. mV, 10 to 100. -/
def R.CAP_BROWN.HYST : Field :=
  ⟨.keep, 0, 16, 0x0A0020, 16, 8, .rw, 30, 10, 100, false, none⟩

/-- R386. Ride-through level, 1/32 of M, 1 to 31. -/
def R.CAP_BROWN.LEVEL : Field :=
  ⟨.keep, 0, 16, 0x0A0020, 24, 5, .rw, 8, 1, 31, false, none⟩

/-- R386. Voltage, 1.400 V to WARN − 50 mV. -/
def R.CAP_BROWN2.RESET : Field :=
  ⟨.keep, 0, 16, 0x0A0024, 0, 16, .rw, 12000, 11200, 65535, false, none⟩

/-- R386. µs, 10 to 65,535. -/
def R.CAP_BROWN2.RIDE_US : Field :=
  ⟨.keep, 0, 16, 0x0A0024, 16, 16, .rw, 1000, 10, 65535, false, none⟩

/-- R386. 0 NORMAL, 1 BROWNOUT, 2 EXPIRED. -/
def R.CAP_BROWN_STAT.STATE : Field :=
  ⟨.gov, 0, 16, 0x0A0028, 0, 2, .ro, 0, 0, 3, false, none⟩

/-- R386. BROWNOUT entries, saturating. -/
def R.CAP_BROWN_STAT.COUNT : Field :=
  ⟨.keep, 0, 16, 0x0A0028, 16, 16, .ro, 0, 0, 65535, false, none⟩

/-- R386. ms, 1 to 100. -/
def R.CAP_DEFER.MAX_MS : Field :=
  ⟨.keep, 0, 16, 0x0A002C, 0, 7, .rw, 10, 1, 100, false, none⟩

/-- R386. 1 while a change is deferred. -/
def R.CAP_DEFER.PENDING : Field :=
  ⟨.gov, 0, 16, 0x0A002C, 7, 1, .ro, 0, 0, 1, false, some (.deferPending)⟩

/-- R386. %, 0 to 100. -/
def R.CAP_OP_CFG.UP_PCT : Field :=
  ⟨.keep, 0, 16, 0x0A0030, 0, 7, .rw, 5, 0, 100, false, none⟩

/-- R386. %, 1 to 100. -/
def R.CAP_OP_CFG.DOWN_PCT : Field :=
  ⟨.keep, 0, 16, 0x0A0030, 7, 7, .rw, 20, 1, 100, false, none⟩

/-- R386. 1/256, 128 to 255. -/
def R.CAP_OP_CFG.HEADROOM : Field :=
  ⟨.keep, 0, 16, 0x0A0030, 14, 8, .rw, 240, 128, 255, false, none⟩

/-- R386. 1/1,000, 0 to 100. -/
def R.CAP_OP_CFG.BAND_PM : Field :=
  ⟨.keep, 0, 16, 0x0A0030, 22, 7, .rw, 20, 0, 100, false, none⟩

/-- R386. [0] BROWN_ENTER, [1] BROWN_EXIT, [2] BROWN_EXPIRED, [3] BROWN_RESET, [4] UNREACHABLE, [5] DEFER_MAX, [6] CONV_DERATE, [7] OP_CHANGE. -/
def R.CAP_EVENT : Field :=
  ⟨.keep, 0, 16, 0x0A0034, 0, 8, .w1c, 0, 0, 255, false, none⟩

/-- R386. Package floor power, W. -/
def R.CAP_FUSE.PKG_FLOOR : Field :=
  ⟨.fuse, 0, 16, 0x0A0038, 0, 12, .ro, 160, 0, 4095, false, none⟩

/-- R386. Die floor power, W. -/
def R.CAP_FUSE.DIE_FLOOR : Field :=
  ⟨.fuse, 0, 16, 0x0A0038, 12, 8, .ro, 0, 0, 255, false, none⟩

/-- R386. Distinct frequencies per table, 1 to 16. -/
def R.CAP_FUSE.N_FREQ : Field :=
  ⟨.fuse, 0, 16, 0x0A0038, 20, 5, .ro, 16, 0, 31, false, none⟩

/-- R386. MHz. -/
def R.CAP_FUSE2.FMIN : Field :=
  ⟨.fuse, 0, 16, 0x0A003C, 0, 16, .ro, 0, 0, 65535, false, none⟩

/-- R386. MHz. -/
def R.CAP_FUSE2.FMAX : Field :=
  ⟨.fuse, 0, 16, 0x0A003C, 16, 16, .ro, 0, 0, 65535, false, none⟩

/-- R386. P_pkg of the last estimator cycle, mW. -/
def R.CAP_PKG_P.P : Field :=
  ⟨.gov, 0, 16, 0x0A0040, 0, 32, .ro, 0, 0, 4294967295, false, none⟩

/-- R386. P_avg, mW, integer part. -/
def R.CAP_PKG_PAVG.P : Field :=
  ⟨.keep, 0, 16, 0x0A0044, 0, 32, .ro, 0, 0, 4294967295, false, none⟩

/-- R386. Pool of the last slot, current, sign-extended. -/
def R.CAP_POOL.I : Field :=
  ⟨.gov, 0, 16, 0x0A0048, 0, 32, .ro, 0, 0, 4294967295, false, none⟩

/-- R386. IIN_EFF of R343, A. -/
def R.CAP_IIN_EFF.IIN : Field :=
  ⟨.gov, 0, 16, 0x0A004C, 0, 11, .ro, 1300, 0, 2047, false, none⟩

/-- R386. Bit n: reason n active. -/
def R.CAP_THR_ACT.ACTIVE : Field :=
  ⟨.gov, 0, 16, 0x0A0050, 0, 16, .ro, 0, 0, 65535, false, none⟩

/-- R386. L_RING in force, mW; 0xFFFF_FFFF when not a member. -/
def R.CAP_RING.BUDGET : Field :=
  ⟨.gov, 0, 16, 0x0A0054, 0, 32, .ro, 4294967295, 0, 4294967295, false, none⟩

/-- R386. VLINK current limit, A, 8 to 256. -/
def R.CAP_LINK_LIM.LIM : Field :=
  ⟨.keep, 0, 16, 0x0A0058, 0, 9, .rw, 240, 8, 256, false, none⟩

/-- R387. Preferred OP. -/
def R.CAP_HINT.OP (i : Nat) : Field :=
  ⟨.keep, pageIf (i < 8) 0, 16, 0x0A0100 + 0x4 * (i % 8), 0, 4, .ro, 15, 0, 15, false, none⟩

/-- R387. Token ceiling, 1 to 4,095. -/
def R.CAP_HINT.CEIL (i : Nat) : Field :=
  ⟨.keep, pageIf (i < 8) 0, 16, 0x0A0100 + 0x4 * (i % 8), 4, 12, .ro, 4095, 0, 4095, false, none⟩

/-- R387. µs active; 64-bit, read under R19. -/
def R.CAP_THR_US.TIME (i : Nat) : Field :=
  ⟨.keep, pageIf (i < 16) 0, 16, 0x0A0200 + 0x10 * (i % 16), 0, 64, .ro, 0, 0, 18446744073709551615, false, none⟩

/-- R387. CLK_TIME of the last start; 64-bit, read under R19. -/
def R.CAP_THR_START.TIME (i : Nat) : Field :=
  ⟨.keep, pageIf (i < 16) 0, 16, 0x0A0208 + 0x10 * (i % 16), 0, 64, .ro, 0, 0, 18446744073709551615, false, none⟩

/-- R388. OP in force. -/
def R.CAP_DIE_OP.CUR (i : Nat) : Field :=
  ⟨.die, pageIf (i < 16) 0, i % 16, 0x0A1000 + 0x40 * (i % 16), 0, 4, .ro, 0, 0, 15, false, none⟩

/-- R388. OP being moved to. -/
def R.CAP_DIE_OP.TGT (i : Nat) : Field :=
  ⟨.die, pageIf (i < 16) 0, i % 16, 0x0A1000 + 0x40 * (i % 16), 4, 4, .ro, 0, 0, 15, false, none⟩

/-- R388. Lowest OP of R362. -/
def R.CAP_DIE_OP.MIN (i : Nat) : Field :=
  ⟨.keep, pageIf (i < 16) 0, 16, 0x0A1000 + 0x40 * (i % 16), 8, 4, .ro, 0, 0, 15, false, none⟩

/-- R388. Highest OP of R362; N_OP − 1 of the fused table at reset. -/
def R.CAP_DIE_OP.MAX (i : Nat) : Field :=
  ⟨.keep, pageIf (i < 16) 0, 16, 0x0A1000 + 0x40 * (i % 16), 12, 4, .ro, 0, 0, 15, false, none⟩

/-- R388. Entries, 1 to 16. -/
def R.CAP_DIE_OP.N_OP (i : Nat) : Field :=
  ⟨.keep, pageIf (i < 16) 0, 16, 0x0A1000 + 0x40 * (i % 16), 16, 5, .ro, 1, 0, 31, false, none⟩

/-- R388. 1 while a change runs. -/
def R.CAP_DIE_OP.CHG (i : Nat) : Field :=
  ⟨.die, pageIf (i < 16) 0, i % 16, 0x0A1000 + 0x40 * (i % 16), 21, 1, .ro, 0, 0, 1, false, none⟩

/-- R388. Die cap, mW. -/
def R.CAP_DIE_CAP.CAP (i : Nat) : Field :=
  ⟨.keep, pageIf (i < 16) 0, 16, 0x0A1004 + 0x40 * (i % 16), 0, 32, .ro, 4294967295, 0, 4294967295, false, none⟩

/-- R388. FIXED_POWER target, mW. -/
def R.CAP_DIE_FP.TARGET (i : Nat) : Field :=
  ⟨.keep, pageIf (i < 16) 0, 16, 0x0A1008 + 0x40 * (i % 16), 0, 32, .ro, 4294967295, 0, 4294967295, false, none⟩

/-- R388. A, CONT to 480. -/
def R.CAP_DIE_EDC.PEAK (i : Nat) : Field :=
  ⟨.keep, pageIf (i < 16) 0, 16, 0x0A100C + 0x40 * (i % 16), 0, 9, .rw, 480, 0, 480, false, none⟩

/-- R388. A, 16 to 320. -/
def R.CAP_DIE_EDC.CONT (i : Nat) : Field :=
  ⟨.keep, pageIf (i < 16) 0, 16, 0x0A100C + 0x40 * (i % 16), 16, 9, .rw, 320, 16, 320, false, none⟩

/-- R388. µs, 10 to 1,000. -/
def R.CAP_DIE_EDC2.PEAK_US (i : Nat) : Field :=
  ⟨.keep, pageIf (i < 16) 0, 16, 0x0A1010 + 0x40 * (i % 16), 0, 10, .rw, 1000, 10, 1000, false, none⟩

/-- R388. 0 PEAK, 1 CONT. -/
def R.CAP_DIE_EDC2.STATE (i : Nat) : Field :=
  ⟨.die, pageIf (i < 16) 0, i % 16, 0x0A1010 + 0x40 * (i % 16), 10, 1, .ro, 0, 0, 1, false, none⟩

/-- R388. A, 4 to 64. -/
def R.CAP_DIE_MEM.MEM_LIM (i : Nat) : Field :=
  ⟨.keep, pageIf (i < 16) 0, 16, 0x0A1014 + 0x40 * (i % 16), 0, 7, .rw, 60, 4, 64, false, none⟩

/-- R388. L_EDC in force of R341, current, sign-extended. -/
def R.CAP_DIE_LEDC.I (i : Nat) : Field :=
  ⟨.die, pageIf (i < 16) 0, i % 16, 0x0A1018 + 0x40 * (i % 16), 0, 32, .ro, 0, 0, 4294967295, false, none⟩

/-- R388. Bucket E, A·µs, saturating. -/
def R.CAP_DIE_BKT.E (i : Nat) : Field :=
  ⟨.die, pageIf (i < 16) 0, i % 16, 0x0A101C + 0x40 * (i % 16), 0, 32, .ro, 0, 0, 4294967295, false, none⟩

/-- R388. Budget sent. -/
def R.CAP_DIE_BUD.BUDGET (i : Nat) : Field :=
  ⟨.die, pageIf (i < 16) 0, i % 16, 0x0A1020 + 0x40 * (i % 16), 0, 12, .ro, 0, 0, 4095, false, none⟩

/-- R388. Reason code of the lowest bound; 31: none below M. -/
def R.CAP_DIE_BUD.BIND (i : Nat) : Field :=
  ⟨.die, pageIf (i < 16) 0, i % 16, 0x0A1020 + 0x40 * (i % 16), 16, 5, .ro, 31, 0, 31, false, none⟩

/-- R388. P_die of the last estimator cycle, mW. -/
def R.CAP_DIE_P.P (i : Nat) : Field :=
  ⟨.die, pageIf (i < 16) 0, i % 16, 0x0A1024 + 0x40 * (i % 16), 0, 32, .ro, 0, 0, 4294967295, false, none⟩

/-- R388. Bit n: reason n active on the die. -/
def R.CAP_DIE_THR.ACTIVE (i : Nat) : Field :=
  ⟨.die, pageIf (i < 16) 0, i % 16, 0x0A1028 + 0x40 * (i % 16), 0, 16, .ro, 0, 0, 65535, false, none⟩

/-- R388. L_THERM in force, current, sign-extended. -/
def R.CAP_DIE_LTH.I (i : Nat) : Field :=
  ⟨.die, pageIf (i < 16) 0, i % 16, 0x0A102C + 0x40 * (i % 16), 0, 32, .ro, 0, 0, 4294967295, false, none⟩

/-- R388. VCORE voltage of the entry. -/
def R.CAP_OPT.V (i : Nat) : Field :=
  ⟨.keep, pageIf (i < 256) 0, 16, 0x0A2000 + 0x4 * (i % 256), 0, 16, .ro, 5200, 0, 65535, false, none⟩

/-- R388. Frequency, MHz. -/
def R.CAP_OPT.F (i : Nat) : Field :=
  ⟨.keep, pageIf (i < 256) 0, 16, 0x0A2000 + 0x4 * (i % 256), 16, 16, .ro, 0, 0, 65535, false, none⟩

/-- R389. Partition p, p from 0 to 15; 64-bit, read under R19. -/
def R.CAP_E_PART.ENERGY (i : Nat) : Field :=
  ⟨.keep, pageIf (i < 16) 0, 16, 0x0A3000 + 0x8 * (i % 16), 0, 64, .ro, 0, 0, 18446744073709551615, false, none⟩

/-- R389. System account; 64-bit, read under R19. -/
def R.CAP_E_SYS.ENERGY : Field :=
  ⟨.keep, 0, 16, 0x0A3080, 0, 64, .ro, 0, 0, 18446744073709551615, false, none⟩

/-- R389. Queue group g, g from 0 to 255; 64-bit, read under R19. -/
def R.CAP_E_QG.ENERGY (i : Nat) : Field :=
  ⟨.keep, pageIf (i < 256) 0, 16, 0x0A3400 + 0x8 * (i % 256), 0, 64, .ro, 0, 0, 18446744073709551615, false, none⟩

/-- R420. Temperature, 0 °C to 20 °C. -/
def R.THM_CFG.COAST_MARGIN : Field :=
  ⟨.keep, 0, 16, 0x0C0000, 0, 16, .rw, 80, 0, 320, false, none⟩

/-- R420. Temperature, 0 °C to 20 °C. -/
def R.THM_CFG.DEG_MARGIN : Field :=
  ⟨.keep, 0, 16, 0x0C0000, 16, 16, .rw, 80, 0, 320, false, none⟩

/-- R420. Temperature, 3 °C to 30 °C. -/
def R.THM_XCHK.DEV : Field :=
  ⟨.keep, 0, 16, 0x0C0004, 0, 10, .rw, 160, 48, 480, false, none⟩

/-- R420. Conversions, 2 to 63. -/
def R.THM_XCHK.N : Field :=
  ⟨.keep, 0, 16, 0x0C0004, 10, 6, .rw, 8, 2, 63, false, none⟩

/-- R420. Conversions, 16 to 4,095; 0: no automatic readmission. -/
def R.THM_XCHK.RET : Field :=
  ⟨.keep, 0, 16, 0x0C0004, 16, 12, .rw, 256, 0, 4095, false, none⟩

/-- R420. Loop gain of R410, 1 to 65,535. -/
def R.THM_LOOP.KT : Field :=
  ⟨.keep, 0, 16, 0x0C0008, 0, 16, .rw, 4096, 1, 65535, false, none⟩

/-- R420. 1/16 °C, 0 to 255. -/
def R.THM_LOOP.BAND : Field :=
  ⟨.keep, 0, 16, 0x0C0008, 16, 8, .rw, 32, 0, 255, false, none⟩

/-- R420. 1/16 °C, 16 to 255. -/
def R.THM_LOOP.HARD : Field :=
  ⟨.keep, 0, 16, 0x0C0008, 24, 8, .rw, 48, 16, 255, false, none⟩

/-- R420. Set by THERM_THRESH_SET. -/
def R.THM_TH_DIE.WARN : Field :=
  ⟨.keep, 0, 16, 0x0C000C, 0, 16, .ro, 1520, 0, 65535, false, none⟩

/-- R420. Set by THERM_THRESH_SET. -/
def R.THM_TH_DIE.THR : Field :=
  ⟨.keep, 0, 16, 0x0C000C, 16, 16, .ro, 1680, 0, 65535, false, none⟩

/-- R420. Set by THERM_THRESH_SET. -/
def R.THM_TH_LAYER.WARN : Field :=
  ⟨.keep, 0, 16, 0x0C0010, 0, 16, .ro, 1360, 0, 65535, false, none⟩

/-- R420. Set by THERM_THRESH_SET. -/
def R.THM_TH_LAYER.THR : Field :=
  ⟨.keep, 0, 16, 0x0C0010, 16, 16, .ro, 1520, 0, 65535, false, none⟩

/-- R420. Set by THERM_THRESH_SET. -/
def R.THM_TH_STK.WARN : Field :=
  ⟨.keep, 0, 16, 0x0C0014, 0, 16, .ro, 1360, 0, 65535, false, none⟩

/-- R420. Set by THERM_THRESH_SET. -/
def R.THM_TH_STK.THR : Field :=
  ⟨.keep, 0, 16, 0x0C0014, 16, 16, .ro, 1520, 0, 65535, false, none⟩

/-- R420. Die shutdown threshold, 120 °C. -/
def R.THM_TH_SD.DIE : Field :=
  ⟨.fuse, 0, 16, 0x0C0018, 0, 16, .ro, 1920, 0, 65535, false, none⟩

/-- R420. Layer shutdown threshold, 110 °C. -/
def R.THM_TH_SD.LAYER : Field :=
  ⟨.fuse, 0, 16, 0x0C0018, 16, 16, .ro, 1760, 0, 65535, false, none⟩

/-- R420. 4 °C. -/
def R.THM_HYST.DIE : Field :=
  ⟨.fuse, 0, 16, 0x0C001C, 0, 8, .ro, 64, 0, 255, false, none⟩

/-- R420. 3 °C. -/
def R.THM_HYST.LAYER : Field :=
  ⟨.fuse, 0, 16, 0x0C001C, 8, 8, .ro, 48, 0, 255, false, none⟩

/-- R420. 3 °C. -/
def R.THM_HYST.STK : Field :=
  ⟨.fuse, 0, 16, 0x0C001C, 16, 8, .ro, 48, 0, 255, false, none⟩

/-- R420. Lower calibration temperature. -/
def R.THM_CAL_T.TA : Field :=
  ⟨.fuse, 0, 16, 0x0C0020, 0, 16, .ro, 400, 0, 65535, false, none⟩

/-- R420. Upper calibration temperature. -/
def R.THM_CAL_T.TB : Field :=
  ⟨.fuse, 0, 16, 0x0C0020, 16, 16, .ro, 1680, 0, 65535, false, none⟩

/-- R420. [0] WARN, [1] THROTTLE, [2] TRIP, [3] EXCLUDE, [4] READMIT, [5] DEGRADED, [6] LOST, [7] STK_STALE, [8] DISCARD. -/
def R.THM_EVENT : Field :=
  ⟨.keep, 0, 16, 0x0C0024, 0, 9, .w1c, 0, 0, 511, false, none⟩

/-- R420. 1 while THERMTRIP_N is latched low. -/
def R.THM_TRIP.ACTIVE : Field :=
  ⟨.keep, 0, 16, 0x0C0028, 0, 1, .ro, 0, 0, 1, false, none⟩

/-- R420. Die of the trip. -/
def R.THM_TRIP.DIE : Field :=
  ⟨.keep, 0, 16, 0x0C0028, 1, 6, .ro, 0, 0, 63, false, none⟩

/-- R420. 0 body, 1 to 4 layers L0 to L3. -/
def R.THM_TRIP.REGION : Field :=
  ⟨.keep, 0, 16, 0x0C0028, 7, 3, .ro, 0, 0, 7, false, none⟩

/-- R420. Tripping reading. -/
def R.THM_TRIP.T : Field :=
  ⟨.keep, 0, 16, 0x0C0028, 10, 16, .ro, 0, 0, 65535, false, none⟩

/-- R420. s, 0 to 3,600. -/
def R.THM_TRIP_CFG.HOLD_S : Field :=
  ⟨.keep, 0, 16, 0x0C002C, 0, 12, .rw, 60, 0, 3600, false, none⟩

/-- R420. CLK_TIME of the trip; 64-bit, read under R19. -/
def R.THM_TRIP_TS.TIME : Field :=
  ⟨.keep, 0, 16, 0x0C0030, 0, 64, .ro, 0, 0, 18446744073709551615, false, none⟩

/-- R420. ct of R395. -/
def R.THM_COAST_CAL.CT : Field :=
  ⟨.keep, 0, 16, 0x0C0038, 0, 16, .ro, 0, 0, 65535, false, none⟩

/-- R420. Bit d: die d DEGRADED_SENSING. -/
def R.THM_DEG.DIES : Field :=
  ⟨.die, 0, 16, 0x0C003C, 0, 16, .ro, 0, 0, 65535, false, some (.thmDegraded)⟩

/-- R420. Bit d: die d THERM_LOST. -/
def R.THM_DEG.LOST : Field :=
  ⟨.die, 0, 16, 0x0C003C, 16, 16, .ro, 0, 0, 65535, false, some (.thmLost)⟩

/-- R420. Bit n: stack Mn STALE. -/
def R.THM_STK_STALE.STACKS : Field :=
  ⟨.gov, 0, 16, 0x0C0040, 0, 16, .ro, 0, 0, 65535, false, some (.stackStale)⟩

/-- R421. 2 bits per region: body [1:0], L0 to L3 above; 0 NORMAL, 1 WARNING, 2 THROTTLE. -/
def R.THM_DIE_STAT.LEVELS (i : Nat) : Field :=
  ⟨.die, pageIf (i < 16) 0, i % 16, 0x0C1000 + 0x40 * (i % 16), 0, 10, .ro, 0, 0, 1023, false, none⟩

/-- R421. DEGRADED_SENSING. -/
def R.THM_DIE_STAT.DEGRADED (i : Nat) : Field :=
  ⟨.die, pageIf (i < 16) 0, i % 16, 0x0C1000 + 0x40 * (i % 16), 10, 1, .ro, 0, 0, 1, false, none⟩

/-- R421. THERM_LOST. -/
def R.THM_DIE_STAT.LOST (i : Nat) : Field :=
  ⟨.die, pageIf (i < 16) 0, i % 16, 0x0C1000 + 0x40 * (i % 16), 11, 1, .ro, 0, 0, 1, false, none⟩

/-- R421. Set under R406. -/
def R.THM_DIE_STAT.STALE (i : Nat) : Field :=
  ⟨.die, pageIf (i < 16) 0, i % 16, 0x0C1000 + 0x40 * (i % 16), 12, 1, .ro, 0, 0, 1, false, none⟩

/-- R421. act of R410. -/
def R.THM_DIE_STAT.LOOP (i : Nat) : Field :=
  ⟨.die, pageIf (i < 16) 0, i % 16, 0x0C1000 + 0x40 * (i % 16), 13, 1, .ro, 0, 0, 1, false, none⟩

/-- R421. Body hot value. -/
def R.THM_DIE_T.HOT (i : Nat) : Field :=
  ⟨.die, pageIf (i < 16) 0, i % 16, 0x0C1004 + 0x40 * (i % 16), 0, 16, .ro, 0, 0, 65535, false, none⟩

/-- R421. Highest layer hot value. -/
def R.THM_DIE_T.HOT_LAYER (i : Nat) : Field :=
  ⟨.die, pageIf (i < 16) 0, i % 16, 0x0C1004 + 0x40 * (i % 16), 16, 16, .ro, 0, 0, 65535, false, none⟩

/-- R421. Body mean, as R218 uses. -/
def R.THM_DIE_T2.MEAN (i : Nat) : Field :=
  ⟨.die, pageIf (i < 16) 0, i % 16, 0x0C1008 + 0x40 * (i % 16), 0, 16, .ro, 0, 0, 65535, false, none⟩

/-- R421. Layer mean, as R218 uses. -/
def R.THM_DIE_T2.MEAN_LAYER (i : Nat) : Field :=
  ⟨.die, pageIf (i < 16) 0, i % 16, 0x0C1008 + 0x40 * (i % 16), 16, 16, .ro, 0, 0, 65535, false, none⟩

/-- R421. m of R410, signed. -/
def R.THM_DIE_M.MARGIN (i : Nat) : Field :=
  ⟨.die, pageIf (i < 16) 0, i % 16, 0x0C100C + 0x40 * (i % 16), 0, 16, .ro, 0, 0, 65535, false, none⟩

/-- R421. Excluded sensors. -/
def R.THM_DIE_EX.N_EXCL (i : Nat) : Field :=
  ⟨.die, pageIf (i < 16) 0, i % 16, 0x0C1010 + 0x40 * (i % 16), 0, 7, .ro, 0, 0, 127, false, some (.dieExcluded i)⟩

/-- R421. Bit i: sensor i excluded, i from 0 to 31. -/
def R.THM_EX_MAP0.MAP (i : Nat) : Field :=
  ⟨.die, pageIf (i < 16) 0, i % 16, 0x0C1014 + 0x40 * (i % 16), 0, 32, .ro, 0, 0, 4294967295, false, some (.exMap i 0)⟩

/-- R421. Sensors 32 to 63. -/
def R.THM_EX_MAP1.MAP (i : Nat) : Field :=
  ⟨.die, pageIf (i < 16) 0, i % 16, 0x0C1018 + 0x40 * (i % 16), 0, 32, .ro, 0, 0, 4294967295, false, some (.exMap i 1)⟩

/-- R421. Sensors 64 to 95. -/
def R.THM_EX_MAP2.MAP (i : Nat) : Field :=
  ⟨.die, pageIf (i < 16) 0, i % 16, 0x0C101C + 0x40 * (i % 16), 0, 32, .ro, 0, 0, 4294967295, false, some (.exMap i 2)⟩

/-- R421. Exclusions, saturating. -/
def R.THM_DIE_CNT.EXCLUDES (i : Nat) : Field :=
  ⟨.die, pageIf (i < 16) 0, i % 16, 0x0C1020 + 0x40 * (i % 16), 0, 16, .ro, 0, 0, 65535, false, none⟩

/-- R421. Readmissions, saturating. -/
def R.THM_DIE_CNT.READMITS (i : Nat) : Field :=
  ⟨.die, pageIf (i < 16) 0, i % 16, 0x0C1020 + 0x40 * (i % 16), 16, 16, .ro, 0, 0, 65535, false, none⟩

/-- R421. Last reported temperature. -/
def R.THM_STK.T (i : Nat) : Field :=
  ⟨.gov, pageIf (i < 16) 0, 16, 0x0C0800 + 0x4 * (i % 16), 0, 16, .ro, 0, 0, 65535, false, none⟩

/-- R421. Level of R408. -/
def R.THM_STK.LEVEL (i : Nat) : Field :=
  ⟨.gov, pageIf (i < 16) 0, 16, 0x0C0800 + 0x4 * (i % 16), 16, 2, .ro, 0, 0, 3, false, none⟩

/-- R421. Set under R409. -/
def R.THM_STK.STALE (i : Nat) : Field :=
  ⟨.gov, pageIf (i < 16) 0, 16, 0x0C0800 + 0x4 * (i % 16), 18, 1, .ro, 0, 0, 1, false, none⟩

/-- R422. Published reading. -/
def R.THM_SNS.T (i : Nat) : Field :=
  ⟨.die, pageIf (i < 1536) 0, i % 1536 / 96, 0x0C4000 + 0x4 * (i % 1536), 0, 16, .ro, 0, 0, 65535, false, none⟩

/-- R422. 1 while excluded. -/
def R.THM_SNS.EXCL (i : Nat) : Field :=
  ⟨.die, pageIf (i < 1536) 0, i % 1536 / 96, 0x0C4000 + 0x4 * (i % 1536), 16, 1, .ro, 0, 0, 1, false, none⟩

/-- R422. 0 none, 1 XCHK, 2 RANGE, 3 OPERATOR. -/
def R.THM_SNS.CAUSE (i : Nat) : Field :=
  ⟨.die, pageIf (i < 1536) 0, i % 1536 / 96, 0x0C4000 + 0x4 * (i % 1536), 17, 2, .ro, 0, 0, 3, false, none⟩

/-- R422. Scaled count ns of R394. -/
def R.THM_SNS_RAW.COUNT (i : Nat) : Field :=
  ⟨.die, pageIf (i < 1536) 0, i % 1536 / 96, 0x0C6000 + 0x4 * (i % 1536), 0, 24, .ro, 0, 0, 16777215, false, none⟩

/-- R422. Eight 7-bit sensor indices within the die, from bit 0 upwards; 0x7F: unused. -/
def R.THM_SNS_DESC.NBR (i : Nat) : Field :=
  ⟨.fuse, pageIf (i < 1536) 0, 16, 0x0C8000 + 0x8 * (i % 1536), 0, 56, .ro, defaultNbr i, 0, 72057594037927935, false, none⟩

/-- R422. Neighbours, 4 to 8. -/
def R.THM_SNS_DESC.N_NBR (i : Nat) : Field :=
  ⟨.fuse, pageIf (i < 1536) 0, 16, 0x0C8000 + 0x8 * (i % 1536), 56, 4, .ro, 4, 0, 15, false, none⟩

/-- R422. Class of R392. -/
def R.THM_SNS_DESC.CLASS (i : Nat) : Field :=
  ⟨.fuse, pageIf (i < 1536) 0, 16, 0x0C8000 + 0x8 * (i % 1536), 60, 2, .ro, defaultClass i, 0, 3, false, none⟩

/-- R422. Count at TA. -/
def R.THM_SNS_CAL.CA (i : Nat) : Field :=
  ⟨.fuse, pageIf (i < 1536) 0, 16, 0x0CB000 + 0x4 * (i % 1536), 0, 16, .ro, 7030, 0, 65535, false, none⟩

/-- R422. Count at TB. -/
def R.THM_SNS_CAL.CB (i : Nat) : Field :=
  ⟨.fuse, pageIf (i < 1536) 0, 16, 0x0CB000 + 0x4 * (i % 1536), 16, 16, .ro, 10910, 0, 65535, false, none⟩

/-- R453. 1: join the ring under R435. -/
def R.RNG_CFG.EN : Field :=
  ⟨.keep, 0, 16, 0x0D0000, 0, 1, .rw, 0, 0, 1, false, none⟩

/-- R453. 0 MEMBER, 1 MASTER, 2 BACKUP; 3 invalid. -/
def R.RNG_CFG.ROLE : Field :=
  ⟨.keep, 0, 16, 0x0D0000, 1, 2, .rw, 0, 0, 2, false, none⟩

/-- R453. Member ID, 0 to 63. -/
def R.RNG_CFG.MEMBER_ID : Field :=
  ⟨.keep, 0, 16, 0x0D0000, 3, 6, .rw, 0, 0, 63, false, none⟩

/-- R453. W, 0 to CEIL. -/
def R.RNG_LIM.FLOOR : Field :=
  ⟨.keep, 0, 16, 0x0D0004, 0, 16, .rw, 0, 0, 65535, false, none⟩

/-- R453. W, FLOOR to 65,534. -/
def R.RNG_LIM.CEIL : Field :=
  ⟨.keep, 0, 16, 0x0D0004, 16, 16, .rw, 2000, 0, 65534, false, none⟩

/-- R453. W, master only. -/
def R.RNG_TOTAL.TOTAL : Field :=
  ⟨.keep, 0, 16, 0x0D0008, 0, 24, .rw, 0, 0, 16777215, false, none⟩

/-- R453. µs, 0 to 65,535. -/
def R.RNG_BAL.CRIT_US : Field :=
  ⟨.keep, 0, 16, 0x0D000C, 0, 16, .rw, 100, 0, 65535, false, none⟩

/-- R453. µs, CRIT_US + 1 to 65,535. -/
def R.RNG_BAL.DONOR_US : Field :=
  ⟨.keep, 0, 16, 0x0D000C, 16, 16, .rw, 1000, 1, 65535, false, none⟩

/-- R453. Credits per round, 1 to 255. -/
def R.RNG_BAL2.MOVE_W : Field :=
  ⟨.keep, 0, 16, 0x0D0010, 0, 8, .rw, 20, 1, 255, false, none⟩

/-- R453. ms, 1 to 1,000. -/
def R.RNG_BAL2.IDLE_MS : Field :=
  ⟨.keep, 0, 16, 0x0D0010, 8, 10, .rw, 100, 1, 1000, false, none⟩

/-- R453. 0 OFF, 1 LISTEN, 2 MEMBER, 3 BYPASS. -/
def R.RNG_STAT.STATE : Field :=
  ⟨.gov, 0, 16, 0x0D0014, 0, 2, .ro, 0, 0, 3, false, none⟩

/-- R453. 1 while this governor sends frames. -/
def R.RNG_STAT.MASTER_ACT : Field :=
  ⟨.gov, 0, 16, 0x0D0014, 2, 1, .ro, 0, 0, 1, false, none⟩

/-- R453. MASTER_ID of the last good header. -/
def R.RNG_STAT.MASTER_ID : Field :=
  ⟨.gov, 0, 16, 0x0D0014, 3, 6, .ro, 0, 0, 63, false, none⟩

/-- R453. Present slots in the last superframe. -/
def R.RNG_STAT.N_MEMBERS : Field :=
  ⟨.gov, 0, 16, 0x0D0014, 9, 7, .ro, 0, 0, 127, false, none⟩

/-- R453. Set under R436. -/
def R.RNG_STAT.ID_CONFLICT : Field :=
  ⟨.gov, 0, 16, 0x0D0014, 16, 1, .ro, 0, 0, 1, false, none⟩

/-- R453. R446. -/
def R.RNG_STAT.AGREE : Field :=
  ⟨.gov, 0, 16, 0x0D0014, 17, 1, .ro, 0, 0, 1, false, none⟩

/-- R453. R439. -/
def R.RNG_STAT.BROKEN : Field :=
  ⟨.gov, 0, 16, 0x0D0014, 18, 1, .ro, 0, 0, 1, false, none⟩

/-- R453. R449. -/
def R.RNG_STAT.NO_MASTER : Field :=
  ⟨.gov, 0, 16, 0x0D0014, 19, 1, .ro, 0, 0, 1, false, none⟩

/-- R453. [0] JOIN, [1] LEAVE, [2] MASTER_CHANGE, [3] RING_BROKEN, [4] ID_CONFLICT, [5] DIG_MISMATCH, [6] FEED_BROWN, [7] CFG_ERR, [8] ASSIGN_MISS. -/
def R.RNG_EVENT : Field :=
  ⟨.keep, 0, 16, 0x0D0018, 0, 9, .w1c, 0, 0, 511, false, none⟩

/-- R453. L_RING in force, W. -/
def R.RNG_BUDGET.INFORCE : Field :=
  ⟨.keep, 0, 16, 0x0D001C, 0, 16, .ro, 0, 0, 65535, false, none⟩

/-- R453. Deferred entry, W; 0xFFFF: none. -/
def R.RNG_BUDGET.PENDING : Field :=
  ⟨.gov, 0, 16, 0x0D001C, 16, 16, .ro, 65535, 0, 65535, false, none⟩

/-- R453. Slack last published, µs. -/
def R.RNG_STAT2.SLACK : Field :=
  ⟨.gov, 0, 16, 0x0D0020, 0, 16, .ro, 0, 0, 65535, false, none⟩

/-- R453. FEED_ID of R433. -/
def R.RNG_STAT2.FEED_ID : Field :=
  ⟨.keep, 0, 16, 0x0D0020, 16, 6, .ro, 0, 0, 63, false, none⟩

/-- R453. Bad headers, saturating. -/
def R.RNG_ERR.HDR : Field :=
  ⟨.gov, 0, 16, 0x0D0024, 0, 16, .ro, 0, 0, 65535, false, none⟩

/-- R453. Bad slots, saturating. -/
def R.RNG_ERR.SLOT : Field :=
  ⟨.gov, 0, 16, 0x0D0024, 16, 16, .ro, 0, 0, 65535, false, none⟩

/-- R453. Bit m: member m present; 64-bit, read under R19. -/
def R.RNG_PRESENT.MAP : Field :=
  ⟨.gov, 0, 16, 0x0D0028, 0, 64, .ro, 0, 0, 18446744073709551615, false, none⟩

/-- R453. Bit m: fragment differs; 64-bit, read under R19. -/
def R.RNG_DIG_MISMATCH.MAP : Field :=
  ⟨.gov, 0, 16, 0x0D0030, 0, 64, .ro, 0, 0, 18446744073709551615, false, none⟩

/-- R453. Bit m: R448; 64-bit, read under R19. -/
def R.RNG_FEED_BROWN.MAP : Field :=
  ⟨.gov, 0, 16, 0x0D0038, 0, 64, .ro, 0, 0, 18446744073709551615, false, none⟩

/-- R453. Configuration generation, low 32 bits. -/
def R.RNG_GEN.GEN : Field :=
  ⟨.keep, 0, 16, 0x0D0040, 0, 32, .ro, 0, 0, 4294967295, false, none⟩

/-- R453. Own fragment; 64-bit, read under R19. -/
def R.RNG_FRAG.FRAG : Field :=
  ⟨.keep, 0, 16, 0x0D0048, 0, 64, .ro, 0, 0, 18446744073709551615, false, some (.ringFrag)⟩

/-- R454. Budget in force, W. -/
def R.RNG_MBR_A.BUDGET (i : Nat) : Field :=
  ⟨.gov, pageIf (i < 64) 0, 16, 0x0D0100 + 0x10 * (i % 64), 0, 16, .ro, 0, 0, 65535, false, none⟩

/-- R454. Slack, µs. -/
def R.RNG_MBR_A.SLACK (i : Nat) : Field :=
  ⟨.gov, pageIf (i < 64) 0, 16, 0x0D0100 + 0x10 * (i % 64), 16, 16, .ro, 0, 0, 65535, false, none⟩

/-- R454. W. -/
def R.RNG_MBR_B.FLOOR (i : Nat) : Field :=
  ⟨.gov, pageIf (i < 64) 0, 16, 0x0D0104 + 0x10 * (i % 64), 0, 16, .ro, 0, 0, 65535, false, none⟩

/-- R454. W. -/
def R.RNG_MBR_B.CEIL (i : Nat) : Field :=
  ⟨.gov, pageIf (i < 64) 0, 16, 0x0D0104 + 0x10 * (i % 64), 16, 16, .ro, 0, 0, 65535, false, none⟩

/-- R454. FLAGS of R427. -/
def R.RNG_MBR_C.FLAGS (i : Nat) : Field :=
  ⟨.gov, pageIf (i < 64) 0, 16, 0x0D0108 + 0x10 * (i % 64), 0, 8, .ro, 0, 0, 255, false, none⟩

/-- R454. FEED. -/
def R.RNG_MBR_C.FEED_ID (i : Nat) : Field :=
  ⟨.gov, pageIf (i < 64) 0, 16, 0x0D0108 + 0x10 * (i % 64), 8, 6, .ro, 0, 0, 63, false, none⟩

/-- R454. Generation. -/
def R.RNG_MBR_D.GEN (i : Nat) : Field :=
  ⟨.gov, pageIf (i < 64) 0, 16, 0x0D010C + 0x10 * (i % 64), 0, 32, .ro, 0, 0, 4294967295, false, none⟩

/-- R454. Digest, byte 0 at the lowest offset. -/
def R.RNG_DIG_OUT.DIGEST (i : Nat) : Field :=
  ⟨.gov, pageIf (i < 10) 0, 16, 0x0D0800 + 0x40 * (i % 10), 0, 384, .ro, 0, 0, 39402006196394479212279040100143613805079739270465446667948293404245721771497210611414266254884915640806627990306815, false, none⟩

/-- R454. Generation at the copy. -/
def R.RNG_DIG_OUT.GEN (i : Nat) : Field :=
  ⟨.gov, pageIf (i < 10) 0, 16, 0x0D0830 + 0x40 * (i % 10), 0, 32, .ro, 0, 0, 4294967295, false, none⟩

/-- R489. 1: the walker runs. -/
def R.HNG_CFG.EN : Field :=
  ⟨.keep, 0, 16, 0x0E0000, 0, 1, .rw, 1, 0, 1, false, none⟩

/-- R489. Policy of R468 for kind HANG. -/
def R.HNG_CFG.AUTO_HANG : Field :=
  ⟨.keep, 0, 16, 0x0E0000, 1, 1, .rw, 1, 0, 1, false, none⟩

/-- R489. Policy of R468 for kind FAULT. -/
def R.HNG_CFG.AUTO_FAULT : Field :=
  ⟨.keep, 0, 16, 0x0E0000, 2, 1, .rw, 1, 0, 1, false, none⟩

/-- R489. 0 ALL, 1 ONE, under R463. -/
def R.HNG_CFG.HANG_SCOPE : Field :=
  ⟨.keep, 0, 16, 0x0E0000, 3, 1, .rw, 0, 0, 1, false, none⟩

/-- R489. Hang window, ms, 1 to 60,000. -/
def R.HNG_CFG.WIN_MS : Field :=
  ⟨.keep, 0, 16, 0x0E0000, 16, 16, .rw, 500, 1, 60000, false, none⟩

/-- R489. Drain timeout, 1 to 1,000. -/
def R.CTX_CFG.DRAIN_US : Field :=
  ⟨.keep, 0, 16, 0x0E0004, 0, 10, .rw, 20, 1, 1000, false, none⟩

/-- R489. Resets to escalate, 1 to 255. -/
def R.CTX_ESC.ESC_N : Field :=
  ⟨.keep, 0, 16, 0x0E0008, 0, 8, .rw, 8, 1, 255, false, none⟩

/-- R489. Escalation window, s, 1 to 3,600. -/
def R.CTX_ESC.ESC_S : Field :=
  ⟨.keep, 0, 16, 0x0E0008, 8, 12, .rw, 60, 1, 3600, false, none⟩

/-- R489. [0] HANG, [1] FAULT, [2] RESET_DONE, [3] STUCK, [4] OOS, [5] CAP_FULL, [6] SPLIT, [7] WALK_LATE, [8] TAP_LATE. -/
def R.HNG_EVENT : Field :=
  ⟨.keep, 0, 16, 0x0E000C, 0, 9, .w1c, 0, 0, 511, false, none⟩

/-- R489. 1 while a sequence runs. -/
def R.HNG_STAT.SEQ_BUSY : Field :=
  ⟨.gov, 0, 16, 0x0E0010, 0, 1, .ro, 0, 0, 1, false, none⟩

/-- R489. Pending list length, 0 to 64. -/
def R.HNG_STAT.PEND : Field :=
  ⟨.gov, 0, 16, 0x0E0010, 1, 7, .ro, 0, 0, 127, false, some (.hngPend)⟩

/-- R489. Context in sequence. -/
def R.HNG_STAT.CUR_CTX : Field :=
  ⟨.gov, 0, 16, 0x0E0010, 8, 12, .ro, 0, 0, 4095, false, none⟩

/-- R489. 1 while OUT_OF_SERVICE. -/
def R.CTX_OOS.OOS : Field :=
  ⟨.keep, 0, 16, 0x0E0014, 0, 1, .ro, 0, 0, 1, false, none⟩

/-- R489. Duration of the last walk from the snapshot, µs. -/
def R.HNG_WALK.LAST_US : Field :=
  ⟨.gov, 0, 16, 0x0E0018, 0, 16, .ro, 0, 0, 65535, false, none⟩

/-- R489. Cycles found in the last walk. -/
def R.HNG_WALK.CYCLES : Field :=
  ⟨.gov, 0, 16, 0x0E0018, 16, 16, .ro, 0, 0, 65535, false, none⟩

/-- R489. Longest walk since reset, µs. -/
def R.HNG_WALK2.MAX_US : Field :=
  ⟨.gov, 0, 16, 0x0E001C, 0, 16, .ro, 0, 0, 65535, false, none⟩

/-- R489. Eligible queues in the last walk. -/
def R.HNG_WALK2.ELIG : Field :=
  ⟨.gov, 0, 16, 0x0E001C, 16, 15, .ro, 0, 0, 32767, false, none⟩

/-- R489. Sequence number of the newest record. -/
def R.HNG_VIC_HEAD.SEQ : Field :=
  ⟨.keep, 0, 16, 0x0E0020, 0, 16, .ro, 0, 0, 65535, false, none⟩

/-- R489. Entry of the newest record. -/
def R.HNG_VIC_HEAD.IDX : Field :=
  ⟨.keep, 0, 16, 0x0E0020, 16, 6, .ro, 0, 0, 63, false, none⟩

/-- R489. Counting resets, saturating. -/
def R.CTX_CNT.RESETS : Field :=
  ⟨.keep, 0, 16, 0x0E0024, 0, 16, .ro, 0, 0, 65535, false, none⟩

/-- R489. Counting resets within ESC_S. -/
def R.CTX_CNT.IN_WIN : Field :=
  ⟨.gov, 0, 16, 0x0E0024, 16, 8, .ro, 0, 0, 255, false, some (.escInWindow)⟩

/-- R489. CLK_TIME of the last snapshot; 64-bit, read under R19. -/
def R.HNG_SNAP_TS.TIME : Field :=
  ⟨.gov, 0, 16, 0x0E0028, 0, 64, .ro, 0, 0, 18446744073709551615, false, none⟩

/-- R489. Bit s: slot s HELD. -/
def R.CTX_CAP_SLOTS.HELD : Field :=
  ⟨.keep, 0, 16, 0x0E0030, 0, 16, .ro, 0, 0, 65535, false, none⟩

/-- R489. Queue group shown in this port's HNG_QWIN. -/
def R.HNG_QCUR.GROUP (p : Nat) : Field :=
  ⟨.gov, portPage p, 16, 0x0E0034, 0, 8, .wo, 0, 0, 255, false, none⟩

/-- R490. Die. -/
def R.CTX_CAPWIN.DIE (i : Nat) : Field :=
  ⟨.keep, pageIf (i < 8) 0, 16, 0x0E0100 + 0x4 * (i % 8), 0, 6, .ro, 0, 0, 63, false, none⟩

/-- R490. 1: enabled. -/
def R.CTX_CAPWIN.EN (i : Nat) : Field :=
  ⟨.keep, pageIf (i < 8) 0, 16, 0x0E0100 + 0x4 * (i % 8), 6, 1, .ro, 0, 0, 1, false, none⟩

/-- R490. Scratchpad offset, 256-byte units. -/
def R.CTX_CAPWIN.OFS (i : Nat) : Field :=
  ⟨.keep, pageIf (i < 8) 0, 16, 0x0E0100 + 0x4 * (i % 8), 8, 12, .ro, 0, 0, 4095, false, none⟩

/-- R490. Length, 256-byte units, 1 to 256. -/
def R.CTX_CAPWIN.LEN (i : Nat) : Field :=
  ⟨.keep, pageIf (i < 8) 0, 16, 0x0E0100 + 0x4 * (i % 8), 20, 9, .ro, 0, 0, 511, false, none⟩

/-- R490. Context named. -/
def R.HNG_VICTIM.CTX (i : Nat) : Field :=
  ⟨.keep, pageIf (i < 64) 0, 16, 0x0E0200 + 0x10 * (i % 64), 0, 12, .ro, 0, 0, 4095, false, none⟩

/-- R490. 0 empty, 1 HANG, 2 FAULT, 3 COMMAND. -/
def R.HNG_VICTIM.KIND (i : Nat) : Field :=
  ⟨.keep, pageIf (i < 64) 0, 16, 0x0E0200 + 0x10 * (i % 64), 12, 3, .ro, 0, 0, 7, false, none⟩

/-- R490. Sequence number. -/
def R.HNG_VICTIM.SEQ (i : Nat) : Field :=
  ⟨.keep, pageIf (i < 64) 0, 16, 0x0E0200 + 0x10 * (i % 64), 16, 16, .ro, 0, 0, 65535, false, none⟩

/-- R490. Under R465. -/
def R.HNG_VICTIM.DETAIL (i : Nat) : Field :=
  ⟨.keep, pageIf (i < 64) 0, 16, 0x0E0204 + 0x10 * (i % 64), 0, 32, .ro, 0, 0, 4294967295, false, none⟩

/-- R490. CLK_TIME of naming; 64-bit, read under R19. -/
def R.HNG_VICTIM.TIME (i : Nat) : Field :=
  ⟨.keep, pageIf (i < 64) 0, 16, 0x0E0208 + 0x10 * (i % 64), 0, 64, .ro, 0, 0, 18446744073709551615, false, none⟩

/-- R491. Context captured. -/
def R.CTX_CAP_HDR.CTX (i : Nat) : Field :=
  ⟨.keep, pageIf (i < 16) 0, 16, 0x0E0600 + 0x20 * (i % 16), 0, 12, .ro, 0, 0, 4095, false, none⟩

/-- R491. 1 while the slot holds a capture. -/
def R.CTX_CAP_HDR.VALID (i : Nat) : Field :=
  ⟨.keep, pageIf (i < 16) 0, 16, 0x0E0600 + 0x20 * (i % 16), 12, 1, .ro, 0, 0, 1, false, none⟩

/-- R491. Set under R476. -/
def R.CTX_CAP_HDR.TRUNC (i : Nat) : Field :=
  ⟨.keep, pageIf (i < 16) 0, 16, 0x0E0600 + 0x20 * (i % 16), 13, 1, .ro, 0, 0, 1, false, none⟩

/-- R491. Partition of the context. -/
def R.CTX_CAP_HDR.PART (i : Nat) : Field :=
  ⟨.keep, pageIf (i < 16) 0, 16, 0x0E0600 + 0x20 * (i % 16), 16, 6, .ro, 0, 0, 63, false, none⟩

/-- R491. Bytes captured, 0 to 65,536. -/
def R.CTX_CAP_HDR.BYTES (i : Nat) : Field :=
  ⟨.keep, pageIf (i < 16) 0, 16, 0x0E0604 + 0x20 * (i % 16), 0, 17, .ro, 0, 0, 131071, false, none⟩

/-- R491. Windows captured. -/
def R.CTX_CAP_HDR.WIN_MASK (i : Nat) : Field :=
  ⟨.keep, pageIf (i < 16) 0, 16, 0x0E0604 + 0x20 * (i % 16), 17, 8, .ro, 0, 0, 255, false, none⟩

/-- R491. CLK_TIME at capture start; 64-bit, read under R19. -/
def R.CTX_CAP_HDR.TIME (i : Nat) : Field :=
  ⟨.keep, pageIf (i < 16) 0, 16, 0x0E0608 + 0x20 * (i % 16), 0, 64, .ro, 0, 0, 18446744073709551615, false, none⟩

/-- R491. Victim record of R477. -/
def R.CTX_CAP_HDR.SEQ (i : Nat) : Field :=
  ⟨.keep, pageIf (i < 16) 0, 16, 0x0E0610 + 0x20 * (i % 16), 0, 16, .ro, 0, 0, 65535, false, none⟩

/-- R492. Tap of the last snapshot, in the layout of R455; 64-bit, read under R19. -/
def R.HNG_QWIN.TAP (p i : Nat) : Field :=
  ⟨.acc, pageIf (i < 64) (portPage p), 16, 0x0E1000 + 0x10 * (i % 64), 0, 64, .ro, 0, 0, 18446744073709551615, false, some (.qwinTap p i)⟩

/-- R492. Age of R459. -/
def R.HNG_QWIN.AGE (p i : Nat) : Field :=
  ⟨.acc, pageIf (i < 64) (portPage p), 16, 0x0E1008 + 0x10 * (i % 64), 0, 16, .ro, 0, 0, 65535, false, some (.qwinAge p i)⟩

/-- R492. Queue ID shown. -/
def R.HNG_QWIN.QUEUE (p i : Nat) : Field :=
  ⟨.gov, pageIf (i < 64) (portPage p), 16, 0x0E100C + 0x10 * (i % 64), 0, 16, .ro, 0, 0, 65535, false, some (.qwinQueue p i)⟩

/-- R492. State, coded as in R467. -/
def R.CTX_STATE.STATE (i : Nat) : Field :=
  ⟨.acc, pageIf (i < 4096) 0, 16, 0x0E4000 + 0x4 * (i % 4096), 0, 4, .ro, 0, 0, 15, false, none⟩

/-- R492. Partition; 0x3F: none. -/
def R.CTX_STATE.PART (i : Nat) : Field :=
  ⟨.acc, pageIf (i < 4096) 0, 16, 0x0E4000 + 0x4 * (i % 4096), 4, 6, .ro, 63, 0, 63, false, none⟩

/-- R492. Queues bound in the last snapshot. -/
def R.CTX_STATE.N_Q (i : Nat) : Field :=
  ⟨.acc, pageIf (i < 4096) 0, 16, 0x0E4000 + 0x4 * (i % 4096), 10, 15, .ro, 0, 0, 32767, false, none⟩

/-- R492. Set under R458. -/
def R.CTX_STATE.SPLIT (i : Nat) : Field :=
  ⟨.acc, pageIf (i < 4096) 0, 16, 0x0E4000 + 0x4 * (i % 4096), 25, 1, .ro, 0, 0, 1, false, none⟩

/-- R543. 1 while the entropy source passes R504. -/
def R.SEC_STAT.ENT_OK : Field :=
  ⟨.keep, 0, 16, 0x100000, 0, 1, .ro, 0, 0, 1, false, none⟩

/-- R543. 1: governor debug port fused off. -/
def R.SEC_STAT.DBG_LOCK : Field :=
  ⟨.fuse, 0, 16, 0x100000, 1, 1, .ro, 0, 0, 1, false, none⟩

/-- R543. 1 while any partition is confidential. -/
def R.SEC_STAT.CONF_ANY : Field :=
  ⟨.keep, 0, 16, 0x100000, 2, 1, .ro, 0, 0, 1, false, some (.confAny)⟩

/-- R543. [0] ENT_FAIL, [1] ATTESTED, [2] ATTEST_LOST, [3] KEY_RELEASED, [4] ROTATED, [5] PREV_ERASED, [6] SCRUB_DONE, [7] SCRUB_FAIL, [8] KEYBUS_ERR. -/
def R.SEC_EVENT : Field :=
  ⟨.keep, 0, 16, 0x100004, 0, 9, .w1c, 0, 0, 511, false, none⟩

/-- R543. s, 1 to 3,600. -/
def R.SEC_SCRUB_CFG.TIMEOUT_S : Field :=
  ⟨.keep, 0, 16, 0x100008, 0, 12, .rw, 600, 1, 3600, false, none⟩

/-- R543. Model-key slots not reserved. -/
def R.SEC_KEYSTORE.MODEL_FREE : Field :=
  ⟨.keep, 0, 16, 0x10000C, 0, 7, .ro, 64, 0, 127, false, some (.modelFree)⟩

/-- R543. 4 bits per stack: serving die of Mn in [4·n + 3:4·n]. -/
def R.SEC_STK_MAP.MAP : Field :=
  ⟨.fuse, 0, 16, 0x100010, 0, 64, .ro, 0xFEDCBA9876543210, 0, 18446744073709551615, false, none⟩

/-- R543. Bit d: AGT_DBG_EN of die d. -/
def R.SEC_DBG.DBG : Field :=
  ⟨.keep, 0, 16, 0x100080, 0, 16, .ro, 0, 0, 65535, false, none⟩

/-- R543. Bit d: AGT_PROF_EN of die d. -/
def R.SEC_DBG.PROF : Field :=
  ⟨.keep, 0, 16, 0x100080, 16, 16, .ro, 0, 0, 65535, false, none⟩

/-- R543. 0 OBSERVER, 1 TENANT, 2 OPERATOR. -/
def R.SEC_PORT.AUTH (i : Nat) : Field :=
  ⟨.keep, pageIf (i < 10) 0, 16, 0x100100 + 0x4 * (i % 10), 0, 2, .ro, if i = 0 ∨ i = 8 ∨ i = 9 then 2 else 0, 0, 3, false, none⟩

/-- R543. Bound partition for TENANT. -/
def R.SEC_PORT.PART (i : Nat) : Field :=
  ⟨.keep, pageIf (i < 10) 0, 16, 0x100100 + 0x4 * (i % 10), 2, 6, .ro, 0, 0, 63, false, none⟩

/-- R544. State of R497. -/
def R.SEC_PART_CFG.STATE (i : Nat) : Field :=
  ⟨.keep, pageIf (i < 16) 0, 16, 0x101000 + 0x100 * (i % 16), 0, 3, .ro, if i = 0 then 1 else 0, 0, 7, false, none⟩

/-- R544. Confidential. -/
def R.SEC_PART_CFG.CONF (i : Nat) : Field :=
  ⟨.keep, pageIf (i < 16) 0, 16, 0x101000 + 0x100 * (i % 16), 3, 1, .ro, 0, 0, 1, false, none⟩

/-- R544. Clear weights allowed. -/
def R.SEC_PART_CFG.LEGACY_OK (i : Nat) : Field :=
  ⟨.keep, pageIf (i < 16) 0, 16, 0x101000 + 0x100 * (i % 16), 4, 1, .ro, 0, 0, 1, false, none⟩

/-- R544. Reserved slots, 0 to 16. -/
def R.SEC_PART_CFG.MODEL_KEYS (i : Nat) : Field :=
  ⟨.keep, pageIf (i < 16) 0, 16, 0x101000 + 0x100 * (i % 16), 5, 5, .ro, 0, 0, 31, false, none⟩

/-- R544. Dies owned. -/
def R.SEC_PART_RES.DIES (i : Nat) : Field :=
  ⟨.keep, pageIf (i < 16) 0, 16, 0x101004 + 0x100 * (i % 16), 0, 16, .ro, if i = 0 then 0xFFFF else 0, 0, 65535, false, none⟩

/-- R544. Stacks owned. -/
def R.SEC_PART_RES.STACKS (i : Nat) : Field :=
  ⟨.keep, pageIf (i < 16) 0, 16, 0x101004 + 0x100 * (i % 16), 16, 16, .ro, if i = 0 then 0xFFFF else 0, 0, 65535, false, none⟩

/-- R544. First queue group. -/
def R.SEC_PART_QG.FIRST (i : Nat) : Field :=
  ⟨.keep, pageIf (i < 16) 0, 16, 0x101008 + 0x100 * (i % 16), 0, 8, .ro, 0, 0, 255, false, none⟩

/-- R544. Queue groups. -/
def R.SEC_PART_QG.COUNT (i : Nat) : Field :=
  ⟨.keep, pageIf (i < 16) 0, 16, 0x101008 + 0x100 * (i % 16), 8, 9, .ro, if i = 0 then 256 else 0, 0, 511, false, none⟩

/-- R544. Link ports owned; 64-bit, read under R19. -/
def R.SEC_PART_LINK.PORTS (i : Nat) : Field :=
  ⟨.keep, pageIf (i < 16) 0, 16, 0x101010 + 0x100 * (i % 16), 0, 64, .ro, if i = 0 then 0xFFFFFFFFFFFFFFFF else 0, 0, 18446744073709551615, false, none⟩

/-- R544. Current epoch. -/
def R.SEC_PART_EPOCH.CUR (i : Nat) : Field :=
  ⟨.keep, pageIf (i < 16) 0, 16, 0x101018 + 0x100 * (i % 16), 0, 16, .ro, 0, 0, 65535, false, none⟩

/-- R544. Previous slot occupied. -/
def R.SEC_PART_EPOCH.PREV_VALID (i : Nat) : Field :=
  ⟨.keep, pageIf (i < 16) 0, 16, 0x101018 + 0x100 * (i % 16), 16, 1, .ro, 0, 0, 1, false, none⟩

/-- R544. Previous-epoch pages, saturating. -/
def R.SEC_PART_PREV.PAGES (i : Nat) : Field :=
  ⟨.gov, pageIf (i < 16) 0, 16, 0x10101C + 0x100 * (i % 16), 0, 32, .ro, 0, 0, 4294967295, false, none⟩

/-- R544. Previous-epoch reads and frames in flight, saturating. -/
def R.SEC_PART_PREV2.INFLIGHT (i : Nat) : Field :=
  ⟨.gov, pageIf (i < 16) 0, 16, 0x101020 + 0x100 * (i % 16), 0, 32, .ro, 0, 0, 4294967295, false, none⟩

/-- R544. 1 s mean input power, mW; coarsened under R526. -/
def R.SEC_PART_PWR.P (i : Nat) : Field :=
  ⟨.gov, pageIf (i < 16) 0, 16, 0x101024 + 0x100 * (i % 16), 0, 32, .ro, 0, 0, 4294967295, false, none⟩

/-- R544. Bit k: model-key slot k holds a key. -/
def R.SEC_PART_MKEY.LOADED (i : Nat) : Field :=
  ⟨.keep, pageIf (i < 16) 0, 16, 0x101028 + 0x100 * (i % 16), 0, 16, .ro, 0, 0, 65535, false, none⟩

/-- R544. Pages left in step 4, saturating. -/
def R.SEC_PART_SCRUB.REMAIN (i : Nat) : Field :=
  ⟨.gov, pageIf (i < 16) 0, 16, 0x10102C + 0x100 * (i % 16), 0, 32, .ro, 0, 0, 4294967295, false, none⟩

/-- R544. Public key X, byte 0 most significant. -/
def R.SEC_PART_PUB.X (i : Nat) : Field :=
  ⟨.keep, pageIf (i < 16) 0, 16, 0x101080 + 0x100 * (i % 16), 0, 384, .ro, 0, 0, 39402006196394479212279040100143613805079739270465446667948293404245721771497210611414266254884915640806627990306815, false, none⟩

/-- R544. Public key Y. -/
def R.SEC_PART_PUB.Y (i : Nat) : Field :=
  ⟨.keep, pageIf (i < 16) 0, 16, 0x1010B0 + 0x100 * (i % 16), 0, 384, .ro, 0, 0, 39402006196394479212279040100143613805079739270465446667948293404245721771497210611414266254884915640806627990306815, false, none⟩

/-- R589. Command queue tail under R555. -/
def R.CMD_SQ_TAIL.TAIL (p : Nat) : Field :=
  ⟨.gov, portPage p, 16, 0x120000, 0, 9, .rw, 0, 0, 511, false, none⟩

/-- R589. Next packet to fetch. -/
def R.CMD_SQ_HEAD.HEAD (p : Nat) : Field :=
  ⟨.gov, portPage p, 16, 0x120004, 0, 9, .ro, 0, 0, 511, false, none⟩

/-- R589. Next completion to write. -/
def R.CMD_CQ_TAIL.TAIL (p : Nat) : Field :=
  ⟨.gov, portPage p, 16, 0x120008, 0, 9, .ro, 0, 0, 511, false, none⟩

/-- R589. Completion queue head under R556. -/
def R.CMD_CQ_HEAD.HEAD (p : Nat) : Field :=
  ⟨.gov, portPage p, 16, 0x12000C, 0, 9, .rw, 0, 0, 511, false, none⟩

/-- R589. Negotiated version. -/
def R.CMD_VER.CUR (p : Nat) : Field :=
  ⟨.gov, portPage p, 16, 0x120010, 0, 4, .ro, 1, 0, 15, false, none⟩

/-- R589. Highest version supported. -/
def R.CMD_VER.MAX : Field :=
  ⟨.fuse, 0, 16, 0x120010, 4, 4, .ro, 2, 0, 15, false, none⟩

/-- R589. Commands of this port in flight. -/
def R.CMD_STAT.PORT_INFL (p : Nat) : Field :=
  ⟨.gov, portPage p, 16, 0x120014, 0, 9, .ro, 0, 0, 511, false, some (.portInFlight p)⟩

/-- R589. Commands in flight in the governor, 0 to 512. -/
def R.CMD_STAT.GOV_INFL : Field :=
  ⟨.gov, 0, 16, 0x120014, 9, 10, .ro, 0, 0, 1023, false, some (.govInFlight)⟩

/-- R589. 1 while commands wait under R563. -/
def R.CMD_STAT.FW_WAIT : Field :=
  ⟨.gov, 0, 16, 0x120014, 19, 1, .ro, 0, 0, 1, false, some (.fwWait)⟩

/-- R589. Enable bits of R582. -/
def R.CMD_NOTIFY_EN.EN (p : Nat) : Field :=
  ⟨.gov, portPage p, 16, 0x120018, 0, 9, .rw, 0, 0, 511, false, none⟩

/-- R589. [0] CPL, [1] MBX, [2] THERMAL, [3] VICTIM, [4] OOS, [5] CHECKPOINT, [6] FAULT, [7] VIOL, [8] BROWN. -/
def R.CMD_NOTIFY (p : Nat) : Field :=
  ⟨.gov, portPage p, 16, 0x12001C, 0, 9, .w1c, 0, 0, 511, false, none⟩

/-- R589. Number of the accessing port. -/
def R.CMD_PORT.PORT (p : Nat) : Field :=
  ⟨.fuse, portPage p, 16, 0x120020, 0, 4, .ro, 0, 0, 15, false, some (.portNumber p)⟩

/-- R589. SEC_PORT.AUTH of the accessing port. -/
def R.CMD_PORT.AUTH (p : Nat) : Field :=
  ⟨.keep, portPage p, 16, 0x120020, 4, 2, .ro, 0, 0, 3, false, some (.portAuth p)⟩

/-- R589. SEC_PORT.PART of the accessing port. -/
def R.CMD_PORT.PART (p : Nat) : Field :=
  ⟨.keep, portPage p, 16, 0x120020, 6, 6, .ro, 0, 0, 63, false, some (.portPart p)⟩

/-- R589. Governor warm resets since cold reset, wrapping; the same through every port. -/
def R.CMD_GEN.WARM : Field :=
  ⟨.keep, 0, 16, 0x120024, 0, 16, .ro, 0, 0, 65535, false, none⟩

/-- R589. Entries written in the shared log, 0 to 32; the same through every port. -/
def R.CMD_VIOL_STAT.COUNT : Field :=
  ⟨.keep, 0, 16, 0x120028, 0, 6, .ro, 0, 0, 63, false, none⟩

/-- R589. Violations not logged under R573, saturating; the same through every port. -/
def R.CMD_VIOL_STAT.LOST : Field :=
  ⟨.keep, 0, 16, 0x120028, 16, 16, .ro, 0, 0, 65535, false, none⟩

/-- R589. Completions of this port with BUSY at order 1, saturating. -/
def R.CMD_CNT.BUSY (p : Nat) : Field :=
  ⟨.gov, portPage p, 16, 0x12002C, 0, 16, .ro, 0, 0, 65535, false, none⟩

/-- R589. Completions of this port failing orders 2 to 8, saturating. -/
def R.CMD_CNT.REJ (p : Nat) : Field :=
  ⟨.gov, portPage p, 16, 0x12002C, 16, 16, .ro, 0, 0, 65535, false, none⟩

/-- R590. Payload of the next send. -/
def R.MBX_SEND.PAYLOAD (p : Nat) : Field :=
  ⟨.gov, portPage p, 16, 0x120100, 0, 32, .wo, 0, 0, 4294967295, false, none⟩

/-- R590. Destination port; the write sends. -/
def R.MBX_SEND.DST (p : Nat) : Field :=
  ⟨.gov, portPage p, 16, 0x120104, 0, 4, .wo, 0, 0, 15, false, none⟩

/-- R590. Entry of R580; 64-bit, read under R19. -/
def R.MBX_RECV.ENTRY (p : Nat) : Field :=
  ⟨.gov, portPage p, 16, 0x120108, 0, 64, .ro, 0, 0, 18446744073709551615, false, none⟩

/-- R590. Inbound entries, 0 to 16. -/
def R.MBX_STAT.IN_COUNT (p : Nat) : Field :=
  ⟨.gov, portPage p, 16, 0x120110, 0, 5, .ro, 0, 0, 31, false, some (.mbxIn p)⟩

/-- R590. Inbound queue full. -/
def R.MBX_STAT.IN_FULL (p : Nat) : Field :=
  ⟨.gov, portPage p, 16, 0x120110, 5, 1, .ro, 0, 0, 1, false, some (.mbxInFull p)⟩

/-- R590. Outbound entries, 0 to 16. -/
def R.MBX_STAT.OUT_COUNT (p : Nat) : Field :=
  ⟨.gov, portPage p, 16, 0x120110, 6, 5, .ro, 0, 0, 31, false, some (.mbxOut p)⟩

/-- R590. Outbound queue full. -/
def R.MBX_STAT.OUT_FULL (p : Nat) : Field :=
  ⟨.gov, portPage p, 16, 0x120110, 11, 1, .ro, 0, 0, 1, false, some (.mbxOutFull p)⟩

/-- R590. [0] SEND_REJ, [1] ARRIVED. -/
def R.MBX_EVENT (p : Nat) : Field :=
  ⟨.gov, portPage p, 16, 0x120114, 0, 2, .w1c, 0, 0, 3, false, none⟩

/-- R591. Owner port under R584; 0xF: none. -/
def R.LCK.OWNER (i : Nat) : Field :=
  ⟨.gov, pageIf (i < 64) 0, 16, 0x120200 + 0x4 * (i % 64), 0, 4, .ro, 15, 0, 15, false, none⟩

/-- R591. Result of this read: 0 FREE, 1 ACQUIRED, 2 HELD, 3 OWNED. -/
def R.LCK.RESULT (i : Nat) : Field :=
  ⟨.gov, pageIf (i < 64) 0, 16, 0x120200 + 0x4 * (i % 64), 4, 2, .ro, 0, 0, 3, false, none⟩

/-- R591. 1: release under R586. -/
def R.LCK.RELEASE (i : Nat) : Field :=
  ⟨.none, pageIf (i < 64) 0, 16, 0x120200 + 0x4 * (i % 64), 31, 1, .wo, 0, 0, 1, false, none⟩

/-- R591. Window offset. -/
def R.CMD_VIOL.OFS (i : Nat) : Field :=
  ⟨.keep, pageIf (i < 32) 0, 16, 0x120400 + 0x10 * (i % 32), 0, 22, .ro, 0, 0, 4194303, false, none⟩

/-- R591. Offending port. -/
def R.CMD_VIOL.PORT (i : Nat) : Field :=
  ⟨.keep, pageIf (i < 32) 0, 16, 0x120400 + 0x10 * (i % 32), 22, 4, .ro, 0, 0, 15, false, none⟩

/-- R591. 0 READ, 1 WRITE, 2 VALUE, 3 COMMAND. -/
def R.CMD_VIOL.KIND (i : Nat) : Field :=
  ⟨.keep, pageIf (i < 32) 0, 16, 0x120400 + 0x10 * (i % 32), 26, 2, .ro, 0, 0, 3, false, none⟩

/-- R591. Opcode for kind COMMAND. -/
def R.CMD_VIOL.OPCODE (i : Nat) : Field :=
  ⟨.keep, pageIf (i < 32) 0, 16, 0x120404 + 0x10 * (i % 32), 0, 16, .ro, 0, 0, 65535, false, none⟩

/-- R591. Status of R572. -/
def R.CMD_VIOL.STATUS (i : Nat) : Field :=
  ⟨.keep, pageIf (i < 32) 0, 16, 0x120404 + 0x10 * (i % 32), 16, 8, .ro, 0, 0, 255, false, none⟩

/-- R591. Repeats under R573, saturating. -/
def R.CMD_VIOL.REPEAT (i : Nat) : Field :=
  ⟨.keep, pageIf (i < 32) 0, 16, 0x120404 + 0x10 * (i % 32), 24, 8, .ro, 0, 0, 255, false, none⟩

/-- R591. CLK_TIME of the first occurrence; 64-bit, read under R19. -/
def R.CMD_VIOL.TIME (i : Nat) : Field :=
  ⟨.keep, pageIf (i < 32) 0, 16, 0x120408 + 0x10 * (i % 32), 0, 64, .ro, 0, 0, 18446744073709551615, false, none⟩

/-- R614. Records written, 0 to 16,384. -/
def R.REC_STAT.COUNT : Field :=
  ⟨.keep, 0, 16, 0x140000, 0, 15, .ro, 0, 0, 32767, false, none⟩

/-- R614. Set under R596. -/
def R.REC_STAT.FULL : Field :=
  ⟨.keep, 0, 16, 0x140000, 15, 1, .ro, 0, 0, 1, false, none⟩

/-- R614. 1 during REC_CLEAR. -/
def R.REC_STAT.CLEARING : Field :=
  ⟨.keep, 0, 16, 0x140000, 16, 1, .ro, 0, 0, 1, false, none⟩

/-- R614. Events not recorded, saturating. -/
def R.REC_LOST.COUNT : Field :=
  ⟨.keep, 0, 16, 0x140004, 0, 32, .ro, 0, 0, 4294967295, false, none⟩

/-- R614. SEQ of the next record, wrapping. -/
def R.REC_SEQ.NEXT : Field :=
  ⟨.keep, 0, 16, 0x140008, 0, 32, .ro, 0, 0, 4294967295, false, none⟩

/-- R614. [0] FULL, [1] OVERFLOW. -/
def R.REC_EVENT : Field :=
  ⟨.keep, 0, 16, 0x14000C, 0, 2, .w1c, 0, 0, 3, false, none⟩

/-- R614. First record in this port's window. -/
def R.REC_CURSOR.INDEX (p : Nat) : Field :=
  ⟨.gov, portPage p, 16, 0x140010, 0, 14, .rw, 0, 0, 16383, false, none⟩

/-- R614. Register word. -/
def R.REC_SNAP.OFS (i : Nat) : Field :=
  ⟨.keep, pageIf (i < 8) 0, 16, 0x140100 + 0x8 * (i % 8), 0, 22, .ro, 0, 0, 4194303, false, none⟩

/-- R614. 1: slot enabled. -/
def R.REC_SNAP.EN (i : Nat) : Field :=
  ⟨.keep, pageIf (i < 8) 0, 16, 0x140100 + 0x8 * (i % 8), 22, 1, .ro, 0, 0, 1, false, none⟩

/-- R614. Bit g: event group g. -/
def R.REC_SNAP.GROUPS (i : Nat) : Field :=
  ⟨.keep, pageIf (i < 8) 0, 16, 0x140104 + 0x8 * (i % 8), 1, 12, .ro, 0, 0, 4095, false, none⟩

/-- R614. Register word. -/
def R.REC_TRIG.OFS (i : Nat) : Field :=
  ⟨.keep, pageIf (i < 8) 0, 16, 0x140200 + 0x10 * (i % 8), 0, 22, .ro, 0, 0, 4194303, false, none⟩

/-- R614. 1: trigger enabled. -/
def R.REC_TRIG.EN (i : Nat) : Field :=
  ⟨.keep, pageIf (i < 8) 0, 16, 0x140200 + 0x10 * (i % 8), 22, 1, .ro, 0, 0, 1, false, none⟩

/-- R614. Operation of R599. -/
def R.REC_TRIG.OP (i : Nat) : Field :=
  ⟨.keep, pageIf (i < 8) 0, 16, 0x140200 + 0x10 * (i % 8), 23, 3, .ro, 0, 0, 7, false, none⟩

/-- R614. Mask. -/
def R.REC_TRIG.MASK (i : Nat) : Field :=
  ⟨.keep, pageIf (i < 8) 0, 16, 0x140204 + 0x10 * (i % 8), 0, 32, .ro, 0, 0, 4294967295, false, none⟩

/-- R614. Compare value. -/
def R.REC_TRIG.VALUE (i : Nat) : Field :=
  ⟨.keep, pageIf (i < 8) 0, 16, 0x140208 + 0x10 * (i % 8), 0, 32, .ro, 0, 0, 4294967295, false, none⟩

/-- R614. Comparison true at the last tick. -/
def R.REC_TRIG.TRUE (i : Nat) : Field :=
  ⟨.gov, pageIf (i < 8) 0, 16, 0x14020C + 0x10 * (i % 8), 0, 1, .ro, 0, 0, 1, false, none⟩

/-- R615. Score of the last computation. -/
def R.HLT_SCORE.SCORE : Field :=
  ⟨.keep, 0, 16, 0x141000, 0, 8, .ro, 0, 0, 255, false, none⟩

/-- R615. Computations, wrapping. -/
def R.HLT_SCORE.SEQ : Field :=
  ⟨.keep, 0, 16, 0x141000, 16, 16, .ro, 0, 0, 65535, false, none⟩

/-- R615. Advisory threshold, 1 to 255. -/
def R.HLT_CFG.TH : Field :=
  ⟨.keep, 0, 16, 0x141004, 0, 8, .ro, 160, 0, 255, false, none⟩

/-- R615. Re-arm hysteresis, 1 to TH. -/
def R.HLT_CFG.HYST : Field :=
  ⟨.keep, 0, 16, 0x141004, 8, 8, .ro, 32, 0, 255, false, none⟩

/-- R615. Advisory state of R608. -/
def R.HLT_CFG.ARMED : Field :=
  ⟨.keep, 0, 16, 0x141004, 16, 1, .ro, 1, 0, 1, false, none⟩

/-- R615. Temperature, 1 °C to 50 °C. -/
def R.HLT_THERM.M0 : Field :=
  ⟨.keep, 0, 16, 0x141008, 0, 16, .ro, 160, 0, 65535, false, none⟩

/-- R615. FEED_ID of R433. -/
def R.HLT_STAT.FEED_ID : Field :=
  ⟨.keep, 0, 16, 0x14100C, 0, 6, .ro, 0, 0, 63, false, some (.feedId)⟩

/-- R615. CLK_TIME of the last computation; 64-bit, read under R19. -/
def R.HLT_TS.TIME : Field :=
  ⟨.keep, 0, 16, 0x141010, 0, 64, .ro, 0, 0, 18446744073709551615, false, none⟩

/-- R615. Score that raised the last advisory. -/
def R.HLT_ADVICE.SCORE : Field :=
  ⟨.keep, 0, 16, 0x141018, 0, 8, .ro, 0, 0, 255, false, none⟩

/-- R615. Bit c: contributor c named. -/
def R.HLT_ADVICE.CONTRIB : Field :=
  ⟨.keep, 0, 16, 0x141018, 8, 6, .ro, 0, 0, 63, false, none⟩

/-- R615. Shared-feed brownout counted. -/
def R.HLT_ADVICE.SHARED : Field :=
  ⟨.keep, 0, 16, 0x141018, 14, 1, .ro, 0, 0, 1, false, none⟩

/-- R615. Advisories raised, wrapping. -/
def R.HLT_ADVICE.COUNT : Field :=
  ⟨.keep, 0, 16, 0x141018, 16, 16, .ro, 0, 0, 65535, false, none⟩

/-- R615. CLK_TIME of the last advisory; 64-bit, read under R19. -/
def R.HLT_ADVICE_TS.TIME : Field :=
  ⟨.keep, 0, 16, 0x141020, 0, 64, .ro, 0, 0, 18446744073709551615, false, none⟩

/-- R615. Bit m: member m counted under R609; 64-bit, read under R19. -/
def R.HLT_FEED_MAP.MAP : Field :=
  ⟨.keep, 0, 16, 0x141028, 0, 64, .ro, 0, 0, 18446744073709551615, false, none⟩

/-- R616. g of R605, 0 to 4,095. -/
def R.HLT_CONTRIB.GAIN (i : Nat) : Field :=
  ⟨.keep, pageIf (i < 6) 0, 16, 0x141100 + 0x10 * (i % 6), 0, 12, .ro, [16, 192, 640, 1280, 256, 2].getD i 0, 0, 4095, false, none⟩

/-- R616. k of R605, 1 to 15; ignored for contributor 1. -/
def R.HLT_CONTRIB.DECAY (i : Nat) : Field :=
  ⟨.keep, pageIf (i < 6) 0, 16, 0x141100 + 0x10 * (i % 6), 12, 4, .ro, [6, 0, 8, 10, 8, 6].getD i 0, 0, 15, false, none⟩

/-- R616. w of R605, 0 to 256. -/
def R.HLT_CONTRIB.WEIGHT (i : Nat) : Field :=
  ⟨.keep, pageIf (i < 6) 0, 16, 0x141100 + 0x10 * (i % 6), 16, 9, .ro, 256, 0, 511, false, none⟩

/-- R616. s[c] of the last computation. -/
def R.HLT_TERM.S (i : Nat) : Field :=
  ⟨.keep, pageIf (i < 6) 0, 16, 0x141104 + 0x10 * (i % 6), 0, 8, .ro, 0, 0, 255, false, none⟩

/-- R616. t[c] of the last computation. -/
def R.HLT_TERM.T (i : Nat) : Field :=
  ⟨.keep, pageIf (i < 6) 0, 16, 0x141104 + 0x10 * (i % 6), 8, 8, .ro, 0, 0, 255, false, none⟩

/-- R616. d[c]; 0 for contributor 1. -/
def R.HLT_D.D (i : Nat) : Field :=
  ⟨.keep, pageIf (i < 6) 0, 16, 0x141108 + 0x10 * (i % 6), 0, 32, .ro, 0, 0, 4294967295, false, none⟩

/-- R616. Event count of R604, wrapping; 0 for contributor 1. -/
def R.HLT_EVT.COUNT (i : Nat) : Field :=
  ⟨.keep, pageIf (i < 6) 0, 16, 0x14110C + 0x10 * (i % 6), 0, 32, .ro, 0, 0, 4294967295, false, none⟩

/-- R652. Stage of R618. -/
def R.BOOT_STAT.STAGE : Field :=
  ⟨.keep, 0, 16, 0x160000, 0, 4, .ro, 0, 0, 15, false, none⟩

/-- R652. 0 none, 1 FUSE, 2 FLASH, 3 CONFIG, 4 IMAGE, 5 FW_LOST, 6 VIN, 7 RAIL, 8 BROWN, 9 THERM, 10 REQUEST. -/
def R.BOOT_STAT.CAUSE : Field :=
  ⟨.keep, 0, 16, 0x160000, 4, 4, .ro, 0, 0, 15, false, none⟩

/-- R652. 0 G0, 1 G1, 2 G2. -/
def R.BOOT_STAT.GSTATE : Field :=
  ⟨.keep, 0, 16, 0x160000, 8, 2, .ro, 0, 0, 3, false, none⟩

/-- R652. 0 A, 1 B. -/
def R.BOOT_STAT.FW_SLOT : Field :=
  ⟨.gov, 0, 16, 0x160000, 10, 1, .ro, 0, 0, 1, false, none⟩

/-- R652. 0 A, 1 B. -/
def R.BOOT_STAT.CFG_SLOT : Field :=
  ⟨.gov, 0, 16, 0x160000, 11, 1, .ro, 0, 0, 1, false, none⟩

/-- R652. R642. -/
def R.BOOT_STAT.AUTOPILOT : Field :=
  ⟨.gov, 0, 16, 0x160000, 12, 1, .ro, 0, 0, 1, false, none⟩

/-- R652. R637. -/
def R.BOOT_CFG.AUTO_RESTART : Field :=
  ⟨.keep, 0, 16, 0x160004, 0, 1, .rw, 1, 0, 1, false, none⟩

/-- R652. ms, 10 to 255. -/
def R.BOOT_CFG.VIN_WAIT_MS : Field :=
  ⟨.keep, 0, 16, 0x160004, 8, 8, .rw, 100, 10, 255, false, none⟩

/-- R652. ms, 1 to 65,535. -/
def R.BOOT_CFG.RESTART_MS : Field :=
  ⟨.keep, 0, 16, 0x160004, 16, 16, .rw, 1000, 1, 65535, false, none⟩

/-- R652. µs, 10 to 10,000. -/
def R.BOOT_CFG2.PKG_RST_US : Field :=
  ⟨.keep, 0, 16, 0x160008, 0, 14, .rw, 100, 10, 10000, false, none⟩

/-- R652. Die reset mask. -/
def R.BOOT_RESET.DIE : Field :=
  ⟨.none, 0, 16, 0x16000C, 0, 16, .wo, 0, 0, 65535, false, none⟩

/-- R652. Accelerator reset. -/
def R.BOOT_RESET.ACC : Field :=
  ⟨.none, 0, 16, 0x16000C, 16, 1, .wo, 0, 0, 1, false, none⟩

/-- R652. Governor warm reset. -/
def R.BOOT_RESET.GOV : Field :=
  ⟨.none, 0, 16, 0x16000C, 17, 1, .wo, 0, 0, 1, false, none⟩

/-- R652. Requested state, under R632. -/
def R.BOOT_GSTATE.REQ : Field :=
  ⟨.keep, 0, 16, 0x160010, 0, 2, .rw, 0, 0, 3, false, none⟩

/-- R652. 1 while a change runs. -/
def R.BOOT_GSTATE.BUSY : Field :=
  ⟨.gov, 0, 16, 0x160010, 2, 1, .ro, 0, 0, 1, false, none⟩

/-- R652. VER of the running firmware. -/
def R.BOOT_FW.VER : Field :=
  ⟨.gov, 0, 16, 0x160014, 0, 32, .ro, 0, 0, 4294967295, false, none⟩

/-- R652. Firmware SVN fuse. -/
def R.BOOT_SVN.FW_FUSED : Field :=
  ⟨.fuse, 0, 16, 0x160018, 0, 8, .ro, 0, 0, 255, false, none⟩

/-- R652. Configuration SVN fuse. -/
def R.BOOT_SVN.CFG_FUSED : Field :=
  ⟨.fuse, 0, 16, 0x160018, 8, 8, .ro, 0, 0, 255, false, none⟩

/-- R652. SVN of the running firmware. -/
def R.BOOT_SVN.FW_IMG : Field :=
  ⟨.gov, 0, 16, 0x160018, 16, 8, .ro, 0, 0, 255, false, none⟩

/-- R652. SVN of the booted configuration. -/
def R.BOOT_SVN.CFG_IMG : Field :=
  ⟨.gov, 0, 16, 0x160018, 24, 8, .ro, 0, 0, 255, false, none⟩

/-- R652. Restarts, saturating. -/
def R.BOOT_CNT.FW_RESTARTS : Field :=
  ⟨.keep, 0, 16, 0x16001C, 0, 16, .ro, 0, 0, 65535, false, none⟩

/-- R652. Firmware payload digest, byte 0 lowest. -/
def R.BOOT_DIG.DIGEST : Field :=
  ⟨.gov, 0, 16, 0x160040, 0, 384, .ro, 0, 0, 39402006196394479212279040100143613805079739270465446667948293404245721771497210611414266254884915640806627990306815, false, none⟩

/-- R652. Configuration payload digest. -/
def R.BOOT_CDIG.DIGEST : Field :=
  ⟨.gov, 0, 16, 0x160070, 0, 384, .ro, 0, 0, 39402006196394479212279040100143613805079739270465446667948293404245721771497210611414266254884915640806627990306815, false, none⟩

/-- R652. SHA-384 of the firmware-signing public key, X then Y, under R625; byte 0 lowest. -/
def R.BOOT_KEY_FW.DIGEST : Field :=
  ⟨.fuse, 0, 16, 0x1600A0, 0, 384, .ro, 0, 0, 39402006196394479212279040100143613805079739270465446667948293404245721771497210611414266254884915640806627990306815, false, none⟩

/-- R652. SHA-384 of your configuration-signing public key, X then Y, under R625; byte 0 lowest. -/
def R.BOOT_KEY_CFG.DIGEST : Field :=
  ⟨.fuse, 0, 16, 0x1600D0, 0, 384, .ro, 0, 0, 39402006196394479212279040100143613805079739270465446667948293404245721771497210611414266254884915640806627990306815, false, none⟩

/-- R653. [0] RAIL_LOST, [1] HOLD, [2] SELFTEST, [3] DROOP_SITE, [4] WARM_TIMEOUT, [5] BROWN_EXPIRED, [6] THERM, the trip latched under R413 and released under R419, [7] . -/
def R.SAF_FAULT : Field :=
  ⟨.keep, 0, 16, 0x160100, 0, 16, .w1c, 0, 0, 65535, false, none⟩

/-- R653. [0] LOCKSTEP, [1] WDT, [2] SRAM_CE, [3] SRAM_UE, [4] CFG_CRC, [5] FW_RESTART, [6] GOV_WARM. -/
def R.SAF_EVENT : Field :=
  ⟨.keep, 0, 16, 0x160104, 0, 7, .w1c, 0, 0, 127, false, none⟩

/-- R653. ms, 1 to 1,000. -/
def R.SAF_WDT.TIMEOUT_MS : Field :=
  ⟨.keep, 0, 16, 0x160108, 0, 10, .rw, 10, 1, 1000, false, none⟩

/-- R653. 1: restart the watchdog. -/
def R.SAF_KICK.KICK : Field :=
  ⟨.none, 0, 16, 0x16010C, 0, 1, .wo, 0, 0, 1, false, none⟩

/-- R653. 1 to 15. -/
def R.SAF_CFG.RESTART_N : Field :=
  ⟨.keep, 0, 16, 0x160110, 0, 4, .rw, 3, 1, 15, false, none⟩

/-- R653. s, 1 to 255. -/
def R.SAF_CFG.RESTART_S : Field :=
  ⟨.keep, 0, 16, 0x160110, 8, 8, .rw, 60, 1, 255, false, none⟩

/-- R653. Corrected errors, saturating. -/
def R.SAF_CNT.SRAM_CE : Field :=
  ⟨.keep, 0, 16, 0x160114, 0, 16, .ro, 0, 0, 65535, false, none⟩

/-- R653. Mismatches, saturating. -/
def R.SAF_CNT.LOCKSTEP : Field :=
  ⟨.keep, 0, 16, 0x160114, 16, 16, .ro, 0, 0, 65535, false, none⟩

/-- R653. Offset of the first mismatched word. -/
def R.SAF_SCAN.LAST_BAD : Field :=
  ⟨.keep, 0, 16, 0x160118, 0, 22, .ro, 0, 0, 4194303, false, none⟩

/-- R684. Product code of the KZ-2. -/
def R.GOV_ID.PRODUCT : Field :=
  ⟨.fuse, 0, 16, 0x000000, 0, 16, .ro, 19250, 0, 65535, false, none⟩

/-- R684. Silicon step. -/
def R.GOV_ID.STEP : Field :=
  ⟨.fuse, 0, 16, 0x000000, 16, 4, .ro, 0, 0, 15, false, none⟩

/-- R684. Layout of this map; a KZ-1 reads 1. -/
def R.GOV_ID.MAP : Field :=
  ⟨.fuse, 0, 16, 0x000000, 20, 4, .ro, 2, 0, 15, false, none⟩

/-- R684. Present dies, 1 to 16, from D0. -/
def R.GOV_CFG.N_DIES : Field :=
  ⟨.fuse, 0, 16, 0x000004, 0, 5, .ro, 16, 0, 31, false, none⟩

/-- R684. Bonded layers per die, 0 to 4. -/
def R.GOV_CFG.N_LAYERS : Field :=
  ⟨.fuse, 0, 16, 0x000004, 5, 3, .ro, 4, 0, 7, false, none⟩

/-- R684. Stacks, 0 to 16, from M0. -/
def R.GOV_CFG.N_STACKS : Field :=
  ⟨.fuse, 0, 16, 0x000004, 8, 5, .ro, 16, 0, 31, false, none⟩

/-- R684. Link lanes, 0 to 512. -/
def R.GOV_CFG.N_LANES : Field :=
  ⟨.fuse, 0, 16, 0x000004, 13, 10, .ro, 512, 0, 1023, false, none⟩

/-- R684. Device number, unique per part; 64-bit, read under R19. -/
def R.GOV_UID.UID : Field :=
  ⟨.fuse, 0, 16, 0x000008, 0, 64, .ro, 0, 0, 18446744073709551615, false, none⟩

/-- The fields at 0x000000 on: 1 instance(s) of 0x1000 bytes. -/
def group0 : Group :=
  ⟨0x000000, 0x1000, 1, fun _p _i =>
  [R.GOV_ID.PRODUCT, R.GOV_ID.STEP, R.GOV_ID.MAP, R.GOV_CFG.N_DIES,
   R.GOV_CFG.N_LAYERS, R.GOV_CFG.N_STACKS, R.GOV_CFG.N_LANES, R.GOV_UID.UID]⟩

/-- The fields at 0x010000 on: 1 instance(s) of 0x1000 bytes. -/
def group1 : Group :=
  ⟨0x010000, 0x1000, 1, fun p _i =>
  [R.CLK_STATUS.STATE, R.CLK_STATUS.COAST, R.CLK_STATUS.REF_OK, R.CLK_STATUS.LOCK_FAIL,
   R.CLK_STATUS.SYNC_LOST, R.CLK_EVENT.REF_LOST, R.CLK_EVENT.COAST_ENTER, R.CLK_EVENT.COAST_EXIT,
   R.CLK_EVENT.LOCK_RETRY, R.CLK_EVENT.JUDGE_FAIL, R.CLK_CFG.COAST_BOOT, R.CLK_CFG.AUTO_RELOCK,
   R.CLK_CFG.GATE_DIS, R.CLK_REF_COUNT.COUNT, R.CLK_TIME.COUNT, R.CLK_COAST_CNT.COUNT,
   R.CLK_COAST_US.TIME, R.CLK_GATE_STAT.CORES p, R.CLK_GATE_STAT.SECURITY, R.CLK_GATE_STAT.COMMAND,
   R.CLK_GATE_STAT.RECORDER, R.CLK_GATE_STAT.RECOVERY, R.CLK_GATE_STAT.LOOP_TEST, R.CLK_GATE_STAT.FLASH,
   R.CLK_GATE_STAT.PMBUS]⟩

/-- The fields at 0x020000 on: 1 instance(s) of 0x1000 bytes. -/
def group2 : Group :=
  ⟨0x020000, 0x1000, 1, fun _p _i =>
  [R.PST_CTRL.SYNC_EN, R.PST_CTRL.SYNC_OUT_EN, R.PST_CTRL.SYNC_OFS, R.PST_CTRL.DEAD_TAPS,
   R.PST_CTRL.TON_MIN_NS, R.PST_CTRL.TOFF_MIN_NS, R.PST_SHARE.K_SHARE, R.PST_SHARE.TRIM_MAX,
   R.PST_VIN.VIN, R.PST_SYNC_STAT.LOCK, R.PST_SYNC_STAT.PERIOD, R.PST_EVENT,
   R.PST_FAIL.N_FAILED, R.PST_FAIL.N_HICCUP]⟩

/-- The fields at 0x020100 on: 8 instance(s) of 0x4 bytes. -/
def group3 : Group :=
  ⟨0x020100, 0x4, 8, fun _p i =>
  [R.PST_PMB_CONV.ADDR i, R.PST_PMB_CONV.EN i, R.PST_PMB_CONV.PAGE i, R.PST_PMB_CONV.VOUT_EXP i]⟩

/-- The fields at 0x020120 on: 8 instance(s) of 0x4 bytes. -/
def group4 : Group :=
  ⟨0x020120, 0x4, 8, fun _p i =>
  [R.PST_PMB_STAT.STATUS_WORD i, R.PST_PMB_STAT.NO_RESP i, R.PST_PMB_STAT.CONV_FAULT i, R.PST_PMB_STAT.NO_AUTO_CLR i]⟩

/-- The fields at 0x020140 on: 8 instance(s) of 0x10 bytes. -/
def group5 : Group :=
  ⟨0x020140, 0x10, 8, fun _p i =>
  [R.PST_PMB_DATA.VIN i, R.PST_PMB_DATA.VOUT i]⟩

/-- The fields at 0x020144 on: 8 instance(s) of 0x10 bytes. -/
def group6 : Group :=
  ⟨0x020144, 0x10, 8, fun _p i =>
  [R.PST_PMB_DATA.IIN i]⟩

/-- The fields at 0x020148 on: 8 instance(s) of 0x10 bytes. -/
def group7 : Group :=
  ⟨0x020148, 0x10, 8, fun _p i =>
  [R.PST_PMB_DATA.IOUT i]⟩

/-- The fields at 0x02014C on: 8 instance(s) of 0x10 bytes. -/
def group8 : Group :=
  ⟨0x02014C, 0x10, 8, fun _p i =>
  [R.PST_PMB_DATA.TEMP i]⟩

/-- The fields at 0x020400 on: 33 instance(s) of 0x20 bytes. -/
def group9 : Group :=
  ⟨0x020400, 0x20, 33, fun _p i =>
  [R.PST_RAIL_CFG.SHED_EN i, R.PST_RAIL_CFG.BRAKE_EN i, R.PST_RAIL_CFG.SHED_MIN i, R.PST_RAIL_CFG.OPEN_CNT i,
   R.PST_RAIL_CFG.HICCUP_N i, R.PST_RAIL_CFG.HICCUP_MAX i, R.PST_RAIL_ILIM.ILIM i, R.PST_RAIL_SHED.SHED_I i,
   R.PST_RAIL_SHED.UNSHED_I i, R.PST_RAIL_SHED.SHED_HOLD i, R.PST_RAIL_DIDT.DIDT_TH i, R.PST_RAIL_DIDT.SHED_STEP i,
   R.PST_RAIL_FAULT.OPEN_DUTY i, R.PST_RAIL_FAULT.OPEN_I i, R.PST_RAIL_FAULT.SENSE_TH i, R.PST_RAIL_BRAKE.ENTER i,
   R.PST_RAIL_BRAKE.EXIT i, R.PST_RAIL_BRAKE.MAX_NS i, R.PST_RAIL_MISC.HICCUP i, R.PST_RAIL_MISC.L_PH i,
   R.PST_RAIL_MISC.SS_SLEW i, R.PST_RAIL_STAT.N_RUN i, R.PST_RAIL_STAT.N_AVAIL i, R.PST_RAIL_STAT.N_FAIL i,
   R.PST_RAIL_STAT.BRAKING i, R.PST_RAIL_STAT.SHED_BUSY i, R.PST_RAIL_STAT.LOST i]⟩

/-- The fields at 0x021000 on: 200 instance(s) of 0x10 bytes. -/
def group10 : Group :=
  ⟨0x021000, 0x10, 200, fun _p i =>
  [R.PST_PH_STAT.STATE i, R.PST_PH_STAT.CAUSE i, R.PST_PH_STAT.HICCUP_RUN i, R.PST_PH_I.I i,
   R.PST_PH_DUTY.DUTY i, R.PST_PH_DUTY.TRIM i, R.PST_PH_CNT.LIMITED i, R.PST_PH_CNT.HICCUPS i]⟩

/-- The fields at 0x022000 on: 25 instance(s) of 0x10 bytes. -/
def group11 : Group :=
  ⟨0x022000, 0x10, 25, fun _p i =>
  [R.PST_STG_STAT.TEMP i, R.PST_STG_STAT.DRV_FLT i, R.PST_STG_STAT.OT_WARN i, R.PST_STG_STAT.VIN_UV i,
   R.PST_STG_STAT.LANE0_OK i, R.PST_STG_STAT.LANE1_OK i, R.PST_STG_STAT2.CAP i, R.PST_STG_STAT2.CRC_ERR i,
   R.PST_STG_ERR.L0 i, R.PST_STG_ERR.L1 i]⟩

/-- The fields at 0x040000 on: 1 instance(s) of 0x1000 bytes. -/
def group12 : Group :=
  ⟨0x040000, 0x1000, 1, fun _p _i =>
  [R.LPE_GLB.CMP_N, R.LPE_VIN.VIN_NOM, R.LPE_VIN.VIN_FLOOR, R.LPE_EVENT,
   R.LPE_HOLD_LO.RAILS, R.LPE_HOLD_HI.RAIL32, R.LPE_CMP_CNT.COUNT, R.LPE_INJ_CFG.MODE,
   R.LPE_INJ_CFG.POINT, R.LPE_INJ_CFG.ORDER, R.LPE_INJ_CFG.RAIL, R.LPE_INJ_CFG.CHIP,
   R.LPE_INJ_CFG.N_STEPS, R.LPE_INJ_AMP.AMP, R.LPE_INJ_AMP.SETTLE, R.LPE_INJ_MEAS.MEAS_CYC,
   R.LPE_CAP_CFG.SIG_A, R.LPE_CAP_CFG.SIG_B, R.LPE_CAP_CFG.DECIM, R.LPE_CAP_CFG.TRIG,
   R.LPE_CAP_PRE.PRE, R.LPE_CAP_STAT.STATE, R.LPE_CAP_STAT.COUNT, R.LPE_CAP_STAT.STEP,
   R.LPE_CAP_TS.TIME]⟩

/-- The fields at 0x041000 on: 33 instance(s) of 0x40 bytes. -/
def group13 : Group :=
  ⟨0x041000, 0x40, 33, fun _p i =>
  [R.LPE_KP.KP i, R.LPE_KI.KI i, R.LPE_KD.KD i, R.LPE_KB.KB i,
   R.LPE_A1.A1 i, R.LPE_A2.A2 i, R.LPE_KFF.KFF i, R.LPE_FF.LEAD_NS i,
   R.LPE_FF.FFV_EN i, R.LPE_FF.FFL_EN i, R.LPE_FF.SHARE_EN i, R.LPE_DUTY_LIM.MIN i,
   R.LPE_DUTY_LIM.MAX i, R.LPE_REF.TARGET i, R.LPE_REF.SLEW i, R.LPE_FE.LIMIT i,
   R.LPE_FE.TIME i, R.LPE_CTRL.COMMIT i, R.LPE_STAT.STATE i, R.LPE_STAT.CAUSE i,
   R.LPE_STAT.COMMIT_ERR i, R.LPE_STAT.FROZEN i, R.LPE_V.VREF i, R.LPE_V.VMEAS i,
   R.LPE_DUTY.U_SAT i, R.LPE_DUTY.SAFE i, R.LPE_INT.I i]⟩

/-- The fields at 0x060000 on: 1 instance(s) of 0x1000 bytes. -/
def group14 : Group :=
  ⟨0x060000, 0x1000, 1, fun _p _i =>
  [R.EST_CTRL.TRIM_EN, R.EST_CTRL.FF, R.EST_CTRL.LINK_TRIM_EN, R.EST_TRIM_GAIN.GAIN_MIN,
   R.EST_TRIM_GAIN.GAIN_MAX, R.EST_TRIM_OFS.OFS_MAX, R.EST_TRIM_P0G.P0, R.EST_TRIM_P0O.P0,
   R.EST_TRIM_PMAX.PMAX, R.EST_EVENT, R.EST_STAGE.OPEN, R.EST_STAGE.OWNER,
   R.EST_STAGE.LEN, R.EST_LOAD_STAT.STATUS, R.EST_LOAD_STAT.DETAIL, R.EST_ACTIVE.MASK,
   R.EST_LINK_TRIM.GAIN, R.EST_LINK_TRIM.SKIP, R.EST_LINK_OFS.OFS]⟩

/-- The fields at 0x061000 on: 16 instance(s) of 0x80 bytes. -/
def group15 : Group :=
  ⟨0x061000, 0x80, 16, fun _p i =>
  [R.EST_DIE_STAT.ACTIVE i, R.EST_DIE_STAT.SUBST i, R.EST_DIE_STAT.PREV_VALID i, R.EST_DIE_STAT.TRIM_HOLD i,
   R.EST_DIE_MODEL.ID i, R.EST_DIE_MVER.VER i, R.EST_DIE_SIZE.N_IN i, R.EST_DIE_SIZE.N_HID i,
   R.EST_DIE_SIZE.N_OUT i, R.EST_OUT.I i 0, R.EST_OUT.I i 1, R.EST_OUT.I i 2,
   R.EST_OUT.I i 3, R.EST_RAW.I i 0, R.EST_RAW.I i 1, R.EST_RAW.I i 2,
   R.EST_RAW.I i 3, R.EST_LEAK.I i 0, R.EST_LEAK.I i 1, R.EST_LEAK.I i 2,
   R.EST_LEAK.I i 3, R.EST_GAIN.GAIN i 0, R.EST_GAIN.GAIN i 1, R.EST_GAIN.GAIN i 2,
   R.EST_GAIN.GAIN i 3, R.EST_OFS.OFS i 0, R.EST_OFS.OFS i 1, R.EST_OFS.OFS i 2,
   R.EST_OFS.OFS i 3, R.EST_DIE_CNT.LATE i, R.EST_DIE_CNT.SKIP i, R.EST_DIE_TIN.TCORE i,
   R.EST_DIE_TIN.TMEM i, R.EST_DIE_TS.TIME i, R.EST_DIE_VIN.VCORE i, R.EST_DIE_VIN.VMEM i,
   R.EST_DIE_VIN2.VLINK i]⟩

/-- The fields at 0x080000 on: 1 instance(s) of 0x1000 bytes. -/
def group16 : Group :=
  ⟨0x080000, 0x1000, 1, fun _p _i =>
  [R.ITN_CTRL.USE_EN, R.ITN_CTRL.PE_EN, R.ITN_MM.MARGIN, R.ITN_MM.MM_N,
   R.ITN_MM.MM_CLR, R.ITN_MM2.RISE_FRAC, R.ITN_PE.KPE, R.ITN_PE.PE_MAX,
   R.ITN_PE.PE_SLEW, R.ITN_PE2.WIN_NS, R.ITN_DRP_CFG.TH, R.ITN_DRP_CFG.HYST,
   R.ITN_DRP_CFG.DEGLITCH, R.ITN_DRP_CFG.DEPTH, R.ITN_DRP_CFG.STRETCH_EN, R.ITN_DRP_CFG.CLR_NS,
   R.ITN_DRP_CFG2.STUCK_US, R.ITN_EVENT, R.ITN_MISMATCH.DIES, R.ITN_DROOP_ACT.DIES,
   R.ITN_COLL.DIES, R.TOK_EVENT, R.TOK_ARB_CNT.SCALED, R.TOK_ARB_CNT2.FLOOR_ONLY,
   R.TOK_RR.PTR, R.FIL_CTRL.GLIDE_EN, R.FIL_CTRL.GLIDE, R.FIL_WARM.LEVEL,
   R.FIL_WARM.TIMEOUT_S, R.FIL_WARM_TH.ENTER, R.FIL_WARM_TH.EXIT, R.FIL_WARM_STAT.STATE,
   R.FIL_WARM_STAT.TIMEOUT, R.FIL_WARM_STAT.ELAPSED_S, R.FIL_EVENT, R.FIL_SYS_E.ENERGY]⟩

/-- The fields at 0x080400 on: 16 instance(s) of 0x40 bytes. -/
def group17 : Group :=
  ⟨0x080400, 0x40, 16, fun _p i =>
  [R.ITN_SRC_CFG.SRC_EN i, R.ITN_SRC_CFG.STEP_SRC i, R.ITN_KTOK.KTOK i, R.ITN_DIE_STAT.EMPTY i,
   R.ITN_DIE_STAT.MISMATCH i, R.ITN_DIE_STAT.COLLECTIVE i, R.ITN_DIE_STAT.BARRIER i, R.ITN_DIE_STAT.CUT i,
   R.ITN_DIE_STAT.STRETCH i, R.ITN_DIE_STAT.BLIND i, R.ITN_DIE_STAT.PE i, R.ITN_DIE_STAT.STEP i,
   R.ITN_DIE_PRED.IMAX i, R.ITN_DIE_PRED2.ILEAD i, R.ITN_DIE_CNT.ACCEPTED i, R.ITN_DIE_CNT.BAD i,
   R.ITN_DIE_CNT2.OVERFLOW i, R.ITN_DIE_CNT2.SRC_OFF i, R.ITN_MM_CNT.OVER i, R.ITN_MM_CNT.UNDER i,
   R.ITN_DRP_STAT.FIRED i, R.ITN_DRP_STAT.STUCK i, R.ITN_DRP_STAT.FAILED i, R.ITN_DRP_STAT.EVENTS i,
   R.ITN_DRP_MASK.SITE_DIS i, R.ITN_DRP_LAST.TIME i, R.ITN_DRP_DUR.NS i, R.ITN_STEP.LAST i,
   R.ITN_STEP_WAIT.NS i, R.ITN_STEP_LEN.US i]⟩

/-- The fields at 0x080C00 on: 16 instance(s) of 0x40 bytes. -/
def group18 : Group :=
  ⟨0x080C00, 0x40, 16, fun _p i =>
  [R.TOK_SLEW.RISE i, R.TOK_SLEW.FALL i, R.TOK_ARB.WEIGHT i, R.TOK_DIE_LIM.MAX i,
   R.TOK_DIE_LIM.FLOOR i, R.TOK_DIE_LIM.GRADE i, R.TOK_DIE_STAT.GRANT i, R.TOK_DIE_STAT.SHARE i,
   R.TOK_DIE_STAT.SCALED i, R.TOK_DIE_STAT.ZERO i, R.TOK_DIE_STAT2.BUDGET i, R.TOK_DIE_STAT2.USED i,
   R.TOK_DIE_STAT3.RISE_EFF i, R.TOK_DIE_STAT3.FILLER i, R.TOK_DIE_CNT.SCALED i, R.FIL_DIE_STAT.EPISODE i,
   R.FIL_DIE_STAT.WARM i, R.FIL_DIE_STAT.N i, R.FIL_DIE_L0.L0 i, R.FIL_DIE_E.ENERGY i,
   R.FIL_DIE_CNT.EPISODES i]⟩

/-- The fields at 0x0A0000 on: 1 instance(s) of 0x1000 bytes. -/
def group19 : Group :=
  ⟨0x0A0000, 0x1000, 1, fun _p _i =>
  [R.CAP_MODE.MODE, R.CAP_MODE.OP_FIX, R.CAP_PKG_ILIM.IIN_LIM, R.CAP_PKG_CFG.EFF,
   R.CAP_PKG_CFG.P_FIXED, R.CAP_PKG_CAP.CAP, R.CAP_AVG_CFG.TAU_S, R.CAP_AVG_LIM.LIM,
   R.CAP_CLASS.ORDER, R.CAP_CLASS_FLOOR.COMP, R.CAP_CLASS_FLOOR.MEM, R.CAP_CLASS_FLOOR.LINK,
   R.CAP_BROWN.WARN, R.CAP_BROWN.HYST, R.CAP_BROWN.LEVEL, R.CAP_BROWN2.RESET,
   R.CAP_BROWN2.RIDE_US, R.CAP_BROWN_STAT.STATE, R.CAP_BROWN_STAT.COUNT, R.CAP_DEFER.MAX_MS,
   R.CAP_DEFER.PENDING, R.CAP_OP_CFG.UP_PCT, R.CAP_OP_CFG.DOWN_PCT, R.CAP_OP_CFG.HEADROOM,
   R.CAP_OP_CFG.BAND_PM, R.CAP_EVENT, R.CAP_FUSE.PKG_FLOOR, R.CAP_FUSE.DIE_FLOOR,
   R.CAP_FUSE.N_FREQ, R.CAP_FUSE2.FMIN, R.CAP_FUSE2.FMAX, R.CAP_PKG_P.P,
   R.CAP_PKG_PAVG.P, R.CAP_POOL.I, R.CAP_IIN_EFF.IIN, R.CAP_THR_ACT.ACTIVE,
   R.CAP_RING.BUDGET, R.CAP_LINK_LIM.LIM]⟩

/-- The fields at 0x0A0100 on: 8 instance(s) of 0x4 bytes. -/
def group20 : Group :=
  ⟨0x0A0100, 0x4, 8, fun _p i =>
  [R.CAP_HINT.OP i, R.CAP_HINT.CEIL i]⟩

/-- The fields at 0x0A0200 on: 16 instance(s) of 0x10 bytes. -/
def group21 : Group :=
  ⟨0x0A0200, 0x10, 16, fun _p i =>
  [R.CAP_THR_US.TIME i, R.CAP_THR_START.TIME i]⟩

/-- The fields at 0x0A1000 on: 16 instance(s) of 0x40 bytes. -/
def group22 : Group :=
  ⟨0x0A1000, 0x40, 16, fun _p i =>
  [R.CAP_DIE_OP.CUR i, R.CAP_DIE_OP.TGT i, R.CAP_DIE_OP.MIN i, R.CAP_DIE_OP.MAX i,
   R.CAP_DIE_OP.N_OP i, R.CAP_DIE_OP.CHG i, R.CAP_DIE_CAP.CAP i, R.CAP_DIE_FP.TARGET i,
   R.CAP_DIE_EDC.PEAK i, R.CAP_DIE_EDC.CONT i, R.CAP_DIE_EDC2.PEAK_US i, R.CAP_DIE_EDC2.STATE i,
   R.CAP_DIE_MEM.MEM_LIM i, R.CAP_DIE_LEDC.I i, R.CAP_DIE_BKT.E i, R.CAP_DIE_BUD.BUDGET i,
   R.CAP_DIE_BUD.BIND i, R.CAP_DIE_P.P i, R.CAP_DIE_THR.ACTIVE i, R.CAP_DIE_LTH.I i]⟩

/-- The fields at 0x0A2000 on: 256 instance(s) of 0x4 bytes. -/
def group23 : Group :=
  ⟨0x0A2000, 0x4, 256, fun _p i =>
  [R.CAP_OPT.V i, R.CAP_OPT.F i]⟩

/-- The fields at 0x0A3000 on: 1 instance(s) of 0x1000 bytes. -/
def group24 : Group :=
  ⟨0x0A3000, 0x1000, 1, fun _p _i =>
  [R.CAP_E_SYS.ENERGY]⟩

/-- The fields at 0x0A3000 on: 16 instance(s) of 0x8 bytes. -/
def group25 : Group :=
  ⟨0x0A3000, 0x8, 16, fun _p i =>
  [R.CAP_E_PART.ENERGY i]⟩

/-- The fields at 0x0A3400 on: 256 instance(s) of 0x8 bytes. -/
def group26 : Group :=
  ⟨0x0A3400, 0x8, 256, fun _p i =>
  [R.CAP_E_QG.ENERGY i]⟩

/-- The fields at 0x0C0000 on: 1 instance(s) of 0x1000 bytes. -/
def group27 : Group :=
  ⟨0x0C0000, 0x1000, 1, fun _p _i =>
  [R.THM_CFG.COAST_MARGIN, R.THM_CFG.DEG_MARGIN, R.THM_XCHK.DEV, R.THM_XCHK.N,
   R.THM_XCHK.RET, R.THM_LOOP.KT, R.THM_LOOP.BAND, R.THM_LOOP.HARD,
   R.THM_TH_DIE.WARN, R.THM_TH_DIE.THR, R.THM_TH_LAYER.WARN, R.THM_TH_LAYER.THR,
   R.THM_TH_STK.WARN, R.THM_TH_STK.THR, R.THM_TH_SD.DIE, R.THM_TH_SD.LAYER,
   R.THM_HYST.DIE, R.THM_HYST.LAYER, R.THM_HYST.STK, R.THM_CAL_T.TA,
   R.THM_CAL_T.TB, R.THM_EVENT, R.THM_TRIP.ACTIVE, R.THM_TRIP.DIE,
   R.THM_TRIP.REGION, R.THM_TRIP.T, R.THM_TRIP_CFG.HOLD_S, R.THM_TRIP_TS.TIME,
   R.THM_COAST_CAL.CT, R.THM_DEG.DIES, R.THM_DEG.LOST, R.THM_STK_STALE.STACKS]⟩

/-- The fields at 0x0C0800 on: 16 instance(s) of 0x4 bytes. -/
def group28 : Group :=
  ⟨0x0C0800, 0x4, 16, fun _p i =>
  [R.THM_STK.T i, R.THM_STK.LEVEL i, R.THM_STK.STALE i]⟩

/-- The fields at 0x0C1000 on: 16 instance(s) of 0x40 bytes. -/
def group29 : Group :=
  ⟨0x0C1000, 0x40, 16, fun _p i =>
  [R.THM_DIE_STAT.LEVELS i, R.THM_DIE_STAT.DEGRADED i, R.THM_DIE_STAT.LOST i, R.THM_DIE_STAT.STALE i,
   R.THM_DIE_STAT.LOOP i, R.THM_DIE_T.HOT i, R.THM_DIE_T.HOT_LAYER i, R.THM_DIE_T2.MEAN i,
   R.THM_DIE_T2.MEAN_LAYER i, R.THM_DIE_M.MARGIN i, R.THM_DIE_EX.N_EXCL i, R.THM_EX_MAP0.MAP i,
   R.THM_EX_MAP1.MAP i, R.THM_EX_MAP2.MAP i, R.THM_DIE_CNT.EXCLUDES i, R.THM_DIE_CNT.READMITS i]⟩

/-- The fields at 0x0C4000 on: 1536 instance(s) of 0x4 bytes. -/
def group30 : Group :=
  ⟨0x0C4000, 0x4, 1536, fun _p i =>
  [R.THM_SNS.T i, R.THM_SNS.EXCL i, R.THM_SNS.CAUSE i]⟩

/-- The fields at 0x0C6000 on: 1536 instance(s) of 0x4 bytes. -/
def group31 : Group :=
  ⟨0x0C6000, 0x4, 1536, fun _p i =>
  [R.THM_SNS_RAW.COUNT i]⟩

/-- The fields at 0x0C8000 on: 1536 instance(s) of 0x8 bytes. -/
def group32 : Group :=
  ⟨0x0C8000, 0x8, 1536, fun _p i =>
  [R.THM_SNS_DESC.NBR i, R.THM_SNS_DESC.N_NBR i, R.THM_SNS_DESC.CLASS i]⟩

/-- The fields at 0x0CB000 on: 1536 instance(s) of 0x4 bytes. -/
def group33 : Group :=
  ⟨0x0CB000, 0x4, 1536, fun _p i =>
  [R.THM_SNS_CAL.CA i, R.THM_SNS_CAL.CB i]⟩

/-- The fields at 0x0D0000 on: 1 instance(s) of 0x1000 bytes. -/
def group34 : Group :=
  ⟨0x0D0000, 0x1000, 1, fun _p _i =>
  [R.RNG_CFG.EN, R.RNG_CFG.ROLE, R.RNG_CFG.MEMBER_ID, R.RNG_LIM.FLOOR,
   R.RNG_LIM.CEIL, R.RNG_TOTAL.TOTAL, R.RNG_BAL.CRIT_US, R.RNG_BAL.DONOR_US,
   R.RNG_BAL2.MOVE_W, R.RNG_BAL2.IDLE_MS, R.RNG_STAT.STATE, R.RNG_STAT.MASTER_ACT,
   R.RNG_STAT.MASTER_ID, R.RNG_STAT.N_MEMBERS, R.RNG_STAT.ID_CONFLICT, R.RNG_STAT.AGREE,
   R.RNG_STAT.BROKEN, R.RNG_STAT.NO_MASTER, R.RNG_EVENT, R.RNG_BUDGET.INFORCE,
   R.RNG_BUDGET.PENDING, R.RNG_STAT2.SLACK, R.RNG_STAT2.FEED_ID, R.RNG_ERR.HDR,
   R.RNG_ERR.SLOT, R.RNG_PRESENT.MAP, R.RNG_DIG_MISMATCH.MAP, R.RNG_FEED_BROWN.MAP,
   R.RNG_GEN.GEN, R.RNG_FRAG.FRAG]⟩

/-- The fields at 0x0D0100 on: 64 instance(s) of 0x10 bytes. -/
def group35 : Group :=
  ⟨0x0D0100, 0x10, 64, fun _p i =>
  [R.RNG_MBR_A.BUDGET i, R.RNG_MBR_A.SLACK i, R.RNG_MBR_B.FLOOR i, R.RNG_MBR_B.CEIL i,
   R.RNG_MBR_C.FLAGS i, R.RNG_MBR_C.FEED_ID i, R.RNG_MBR_D.GEN i]⟩

/-- The fields at 0x0D0800 on: 10 instance(s) of 0x40 bytes. -/
def group36 : Group :=
  ⟨0x0D0800, 0x40, 10, fun _p i =>
  [R.RNG_DIG_OUT.DIGEST i, R.RNG_DIG_OUT.GEN i]⟩

/-- The fields at 0x0E0000 on: 1 instance(s) of 0x1000 bytes. -/
def group37 : Group :=
  ⟨0x0E0000, 0x1000, 1, fun p _i =>
  [R.HNG_CFG.EN, R.HNG_CFG.AUTO_HANG, R.HNG_CFG.AUTO_FAULT, R.HNG_CFG.HANG_SCOPE,
   R.HNG_CFG.WIN_MS, R.CTX_CFG.DRAIN_US, R.CTX_ESC.ESC_N, R.CTX_ESC.ESC_S,
   R.HNG_EVENT, R.HNG_STAT.SEQ_BUSY, R.HNG_STAT.PEND, R.HNG_STAT.CUR_CTX,
   R.CTX_OOS.OOS, R.HNG_WALK.LAST_US, R.HNG_WALK.CYCLES, R.HNG_WALK2.MAX_US,
   R.HNG_WALK2.ELIG, R.HNG_VIC_HEAD.SEQ, R.HNG_VIC_HEAD.IDX, R.CTX_CNT.RESETS,
   R.CTX_CNT.IN_WIN, R.HNG_SNAP_TS.TIME, R.CTX_CAP_SLOTS.HELD, R.HNG_QCUR.GROUP p]⟩

/-- The fields at 0x0E0100 on: 8 instance(s) of 0x4 bytes. -/
def group38 : Group :=
  ⟨0x0E0100, 0x4, 8, fun _p i =>
  [R.CTX_CAPWIN.DIE i, R.CTX_CAPWIN.EN i, R.CTX_CAPWIN.OFS i, R.CTX_CAPWIN.LEN i]⟩

/-- The fields at 0x0E0200 on: 64 instance(s) of 0x10 bytes. -/
def group39 : Group :=
  ⟨0x0E0200, 0x10, 64, fun _p i =>
  [R.HNG_VICTIM.CTX i, R.HNG_VICTIM.KIND i, R.HNG_VICTIM.SEQ i, R.HNG_VICTIM.DETAIL i,
   R.HNG_VICTIM.TIME i]⟩

/-- The fields at 0x0E0600 on: 16 instance(s) of 0x20 bytes. -/
def group40 : Group :=
  ⟨0x0E0600, 0x20, 16, fun _p i =>
  [R.CTX_CAP_HDR.CTX i, R.CTX_CAP_HDR.VALID i, R.CTX_CAP_HDR.TRUNC i, R.CTX_CAP_HDR.PART i,
   R.CTX_CAP_HDR.BYTES i, R.CTX_CAP_HDR.WIN_MASK i, R.CTX_CAP_HDR.TIME i, R.CTX_CAP_HDR.SEQ i]⟩

/-- The fields at 0x0E1000 on: 64 instance(s) of 0x10 bytes. -/
def group41 : Group :=
  ⟨0x0E1000, 0x10, 64, fun p i =>
  [R.HNG_QWIN.TAP p i, R.HNG_QWIN.AGE p i, R.HNG_QWIN.QUEUE p i]⟩

/-- The fields at 0x0E4000 on: 4096 instance(s) of 0x4 bytes. -/
def group42 : Group :=
  ⟨0x0E4000, 0x4, 4096, fun _p i =>
  [R.CTX_STATE.STATE i, R.CTX_STATE.PART i, R.CTX_STATE.N_Q i, R.CTX_STATE.SPLIT i]⟩

/-- The fields at 0x100000 on: 1 instance(s) of 0x1000 bytes. -/
def group43 : Group :=
  ⟨0x100000, 0x1000, 1, fun _p _i =>
  [R.SEC_STAT.ENT_OK, R.SEC_STAT.DBG_LOCK, R.SEC_STAT.CONF_ANY, R.SEC_EVENT,
   R.SEC_SCRUB_CFG.TIMEOUT_S, R.SEC_KEYSTORE.MODEL_FREE, R.SEC_STK_MAP.MAP, R.SEC_DBG.DBG,
   R.SEC_DBG.PROF]⟩

/-- The fields at 0x100100 on: 10 instance(s) of 0x4 bytes. -/
def group44 : Group :=
  ⟨0x100100, 0x4, 10, fun _p i =>
  [R.SEC_PORT.AUTH i, R.SEC_PORT.PART i]⟩

/-- The fields at 0x101000 on: 16 instance(s) of 0x100 bytes. -/
def group45 : Group :=
  ⟨0x101000, 0x100, 16, fun _p i =>
  [R.SEC_PART_CFG.STATE i, R.SEC_PART_CFG.CONF i, R.SEC_PART_CFG.LEGACY_OK i, R.SEC_PART_CFG.MODEL_KEYS i,
   R.SEC_PART_RES.DIES i, R.SEC_PART_RES.STACKS i, R.SEC_PART_QG.FIRST i, R.SEC_PART_QG.COUNT i,
   R.SEC_PART_LINK.PORTS i, R.SEC_PART_EPOCH.CUR i, R.SEC_PART_EPOCH.PREV_VALID i, R.SEC_PART_PREV.PAGES i,
   R.SEC_PART_PREV2.INFLIGHT i, R.SEC_PART_PWR.P i, R.SEC_PART_MKEY.LOADED i, R.SEC_PART_SCRUB.REMAIN i,
   R.SEC_PART_PUB.X i, R.SEC_PART_PUB.Y i]⟩

/-- The fields at 0x120000 on: 1 instance(s) of 0x1000 bytes. -/
def group46 : Group :=
  ⟨0x120000, 0x1000, 1, fun p _i =>
  [R.CMD_SQ_TAIL.TAIL p, R.CMD_SQ_HEAD.HEAD p, R.CMD_CQ_TAIL.TAIL p, R.CMD_CQ_HEAD.HEAD p,
   R.CMD_VER.CUR p, R.CMD_VER.MAX, R.CMD_STAT.PORT_INFL p, R.CMD_STAT.GOV_INFL,
   R.CMD_STAT.FW_WAIT, R.CMD_NOTIFY_EN.EN p, R.CMD_NOTIFY p, R.CMD_PORT.PORT p,
   R.CMD_PORT.AUTH p, R.CMD_PORT.PART p, R.CMD_GEN.WARM, R.CMD_VIOL_STAT.COUNT,
   R.CMD_VIOL_STAT.LOST, R.CMD_CNT.BUSY p, R.CMD_CNT.REJ p, R.MBX_SEND.PAYLOAD p,
   R.MBX_SEND.DST p, R.MBX_RECV.ENTRY p, R.MBX_STAT.IN_COUNT p, R.MBX_STAT.IN_FULL p,
   R.MBX_STAT.OUT_COUNT p, R.MBX_STAT.OUT_FULL p, R.MBX_EVENT p]⟩

/-- The fields at 0x120200 on: 64 instance(s) of 0x4 bytes. -/
def group47 : Group :=
  ⟨0x120200, 0x4, 64, fun _p i =>
  [R.LCK.OWNER i, R.LCK.RESULT i, R.LCK.RELEASE i]⟩

/-- The fields at 0x120400 on: 32 instance(s) of 0x10 bytes. -/
def group48 : Group :=
  ⟨0x120400, 0x10, 32, fun _p i =>
  [R.CMD_VIOL.OFS i, R.CMD_VIOL.PORT i, R.CMD_VIOL.KIND i, R.CMD_VIOL.OPCODE i,
   R.CMD_VIOL.STATUS i, R.CMD_VIOL.REPEAT i, R.CMD_VIOL.TIME i]⟩

/-- The fields at 0x140000 on: 1 instance(s) of 0x1000 bytes. -/
def group49 : Group :=
  ⟨0x140000, 0x1000, 1, fun p _i =>
  [R.REC_STAT.COUNT, R.REC_STAT.FULL, R.REC_STAT.CLEARING, R.REC_LOST.COUNT,
   R.REC_SEQ.NEXT, R.REC_EVENT, R.REC_CURSOR.INDEX p]⟩

/-- The fields at 0x140100 on: 8 instance(s) of 0x8 bytes. -/
def group50 : Group :=
  ⟨0x140100, 0x8, 8, fun _p i =>
  [R.REC_SNAP.OFS i, R.REC_SNAP.EN i, R.REC_SNAP.GROUPS i]⟩

/-- The fields at 0x140200 on: 8 instance(s) of 0x10 bytes. -/
def group51 : Group :=
  ⟨0x140200, 0x10, 8, fun _p i =>
  [R.REC_TRIG.OFS i, R.REC_TRIG.EN i, R.REC_TRIG.OP i, R.REC_TRIG.MASK i,
   R.REC_TRIG.VALUE i, R.REC_TRIG.TRUE i]⟩

/-- The fields at 0x141000 on: 1 instance(s) of 0x1000 bytes. -/
def group52 : Group :=
  ⟨0x141000, 0x1000, 1, fun _p _i =>
  [R.HLT_SCORE.SCORE, R.HLT_SCORE.SEQ, R.HLT_CFG.TH, R.HLT_CFG.HYST,
   R.HLT_CFG.ARMED, R.HLT_THERM.M0, R.HLT_STAT.FEED_ID, R.HLT_TS.TIME,
   R.HLT_ADVICE.SCORE, R.HLT_ADVICE.CONTRIB, R.HLT_ADVICE.SHARED, R.HLT_ADVICE.COUNT,
   R.HLT_ADVICE_TS.TIME, R.HLT_FEED_MAP.MAP]⟩

/-- The fields at 0x141100 on: 6 instance(s) of 0x10 bytes. -/
def group53 : Group :=
  ⟨0x141100, 0x10, 6, fun _p i =>
  [R.HLT_CONTRIB.GAIN i, R.HLT_CONTRIB.DECAY i, R.HLT_CONTRIB.WEIGHT i, R.HLT_TERM.S i,
   R.HLT_TERM.T i, R.HLT_D.D i, R.HLT_EVT.COUNT i]⟩

/-- The fields at 0x160000 on: 1 instance(s) of 0x1000 bytes. -/
def group54 : Group :=
  ⟨0x160000, 0x1000, 1, fun _p _i =>
  [R.BOOT_STAT.STAGE, R.BOOT_STAT.CAUSE, R.BOOT_STAT.GSTATE, R.BOOT_STAT.FW_SLOT,
   R.BOOT_STAT.CFG_SLOT, R.BOOT_STAT.AUTOPILOT, R.BOOT_CFG.AUTO_RESTART, R.BOOT_CFG.VIN_WAIT_MS,
   R.BOOT_CFG.RESTART_MS, R.BOOT_CFG2.PKG_RST_US, R.BOOT_RESET.DIE, R.BOOT_RESET.ACC,
   R.BOOT_RESET.GOV, R.BOOT_GSTATE.REQ, R.BOOT_GSTATE.BUSY, R.BOOT_FW.VER,
   R.BOOT_SVN.FW_FUSED, R.BOOT_SVN.CFG_FUSED, R.BOOT_SVN.FW_IMG, R.BOOT_SVN.CFG_IMG,
   R.BOOT_CNT.FW_RESTARTS, R.BOOT_DIG.DIGEST, R.BOOT_CDIG.DIGEST, R.BOOT_KEY_FW.DIGEST,
   R.BOOT_KEY_CFG.DIGEST, R.SAF_FAULT, R.SAF_EVENT, R.SAF_WDT.TIMEOUT_MS,
   R.SAF_KICK.KICK, R.SAF_CFG.RESTART_N, R.SAF_CFG.RESTART_S, R.SAF_CNT.SRAM_CE,
   R.SAF_CNT.LOCKSTEP, R.SAF_SCAN.LAST_BAD]⟩

/-- Every group of instances, by rising base (R685). -/
def allGroups : List Group :=
  [group0, group1, group2, group3, group4, group5, group6, group7,
   group8, group9, group10, group11, group12, group13, group14, group15,
   group16, group17, group18, group19, group20, group21, group22, group23,
   group24, group25, group26, group27, group28, group29, group30, group31,
   group32, group33, group34, group35, group36, group37, group38, group39,
   group40, group41, group42, group43, group44, group45, group46, group47,
   group48, group49, group50, group51, group52, group53, group54]

end Sys2Proof.Machine
end

