-- ==== Sys2Proof/Machine/State.lean ====
section
/-! DEFINITION. Sys2Proof/Machine/State.lean: the state of the block as plain data: the register file, the
buffers, the state behind the registers of every unit, the queue of waiting commands, and the state after
reset. Which rule names each part stands in its docstring. -/

namespace Sys2Proof.Machine

/-- The orders of the key bus with their content (R506). -/
inductive KeyOrder where
  /-- A key of an epoch and of a kind (0 memory, 1 link, 2 scrub) into the standby register. -/
  | load (epoch kind key : Nat)
  /-- Standby becomes current, current becomes previous. -/
  | commit
  /-- One slot erased: 0 current, 1 previous, 2 standby, 3 the scrub key, 16 + k model-key slot k. -/
  | erase (slot : Nat)
  /-- A model key into a slot. -/
  | model (slot key : Nat)
  /-- Whether clear weight loads are allowed. -/
  | clearOk (on : Bool)
  /-- Whether link ports are held in electrical idle. -/
  | idle (on : Bool)
  /-- Overwrite under the scrub key starts. -/
  | scrub
  /-- The counts of the epochs are asked for. -/
  | count
deriving DecidableEq, Repr

/-- An order or a value that leaves the block (R34, R655, R658), in the order given. -/
inductive Out where
  /-- A share, budget, slew pair or floor sent down to a die's agent (R307, R335). -/
  | share (die v : Nat)
  | budget (die v : Nat)
  | slews (die rise fall : Nat)
  | floorTok (die v : Nat)
  /-- A droop threshold (R284). -/
  | threshold (die v : Nat)
  /-- Tokens used of a slot, real and filler, and whether its share was late (R313, R320). -/
  | tokens (die real filler : Nat) (late : Bool)
  /-- An accepted intent packet forwarded to the core (R258). -/
  | intent (die slot word : Nat)
  /-- The hidden outputs of a die's first layer (R213). -/
  | estimate (die : Nat) (h : List Nat)
  /-- A frequency in MHz for the die clock generator (R360). -/
  | frequency (die mhz : Nat)
  /-- STRETCH_REQ with its depth, or its release (R285, R287). -/
  | stretch (die depth : Nat) (on : Bool)
  /-- A droop reported to the core (R290). -/
  | droop (die mask start stop : Nat)
  /-- One pulse of SYNC_OUT: it rises at the period start and falls after so many ROOT periods (R116). -/
  | syncOut (half : Nat)
  /-- A phase's on-time for the coming period in taps (R98 to R101). -/
  | pwm (phase taps : Nat)
  /-- A PMBus write: 7-bit address, command code, value (R147 to R157). -/
  | pmbus (addr cmd value : Nat)
  /-- A queue order to every agent: 1 fence, 2 abort, 3 clear, 4 release of a context (R470), 5 fence of every
  context (R481), 6 its lifting (R482). -/
  | queueOrder (kind ctx : Nat)
  /-- Outstanding queue taps latched by an agent (R457). -/
  | snapshot
  /-- A sensor window opened (R393). -/
  | sensorOpen
  /-- Counts of a die's sensor window (R399). -/
  | sensorCounts (die : Nat)
  /-- A key-bus order to engines of a partition, and the KEYB links that it goes out on, as a mask (R506, R677). -/
  | keyBus (links part : Nat) (order : KeyOrder)
  /-- A ring frame's header and slots as sent (R425, R426). -/
  | ringFrame (words : List Nat)
  /-- An in-band interrupt with its data byte (R553). -/
  | ibi (byte : Nat)
  /-- A CCC answer or a private read's bytes on the I3C bus (R550 to R552). -/
  | i3c (bytes : List Nat)
  /-- The notification line of a host port asserted (R582). -/
  | notify (port : Nat)
  /-- HIF_WAKE of a host port asserted (R581). -/
  | wake (port : Nat)
  /-- A die's clocks gated or released (R632). -/
  | clockGate (die : Nat) (on : Bool)
  /-- Self-refresh asked of a die (R632). -/
  | selfRefresh (die : Nat)
  /-- A boot-flash erase or program (R643, R644). -/
  | flash (op addr len : Nat)
  /-- Model tables of a bank sent down to a die's agent (R242). -/
  | model (die bank : Nat)
  /-- A frame of die d's agent link as both lanes send it, whole; what it says stands beside it (R660 to R662; log 91). -/
  | frame (die : Nat) (bytes : List Nat)
  /-- The idle frames that one end of die d's link sends before its next frame: whether the agent sends them, the SEQ of
  the first, and how many (R661, R664). -/
  | idle (up : Bool) (die seq count : Nat)
  /-- The settings sent down to a die's agent, in the order of `agentFields` (R34). -/
  | settings (die : Nat) (values : List Nat)
  /-- An agent's report on one lane that the other is lost (R664). -/
  | laneStatus (die lane : Nat)
  /-- The bytes of a capture window sent up from its die (R475). -/
  | scratchpad (die window : Nat)
  /-- An agent's acknowledgement of an order: 1 fence, 2 abort, 3 clear, 4 release (R470, R531). -/
  | acknowledge (die order : Nat)
  /-- What a die's agent granted in a slot, by cycle: DSP_GNT, and the dispatchers that stall (R302, R658). -/
  | dispatch (die : Nat) (cycles : List (Nat × Nat))
  /-- TILE_FIL of a slot, by cycle: the tile arrays that issue filler (R314, R658). -/
  | tiles (die : Nat) (cycles : List Nat)
  /-- The length of a slot of RELOCK, sent with its mark: in FCLK cycles and in ps (R77). -/
  | slotMark (cycles ps : Nat)
  /-- A control symbol K x.y of the ring output (R425). -/
  | ringSymbol (x y : Nat)
  /-- A completion of a command that firmware submitted (R557). -/
  | fwCompletion (tag status r0 r1 : Nat)
deriving DecidableEq, Repr

/-- The last answer of an access: port, data, error response (R548, R549, R678). -/
structure Resp where
  port : Nat
  data : Nat
  err : Bool
deriving DecidableEq, Repr

/-- The clock unit behind its registers: passing windows in a row (R59), LOCKING retries (R62), failing
lock-monitor windows (R66), failed RELOCK attempts (R79), REFCLK declared lost and not yet changed over
(R67), whether CLK_TIME has started (R85), the 10 ms instant of R63
passed, the length of the slot in picoseconds (R72, R77), the part of a microsecond counted (R55), whether boot
waits in JUDGE (R63, R64), the µs at which LOCKING or RELOCK began (R62, R79) and at which the GOV_PWRGOOD
conditions were met (R63), whether ROOT is still on its way back to the coast band (R79), the ROOT periods of
the running switching period and of the next, and CLK_TIME at the start of the running one (R54, R69, R101), and
the SYNC_IN periods in range and the period starts within 1 ROOT period of their place in a row (R112). -/
structure ClockH where
  run : Nat := 0
  retries : Nat := 0
  monFail : Nat := 0
  relockFails : Nat := 0
  lost : Bool := false
  started : Bool := false
  bootLate : Bool := false
  slotPs : Nat := 100000
  tickFrac : Nat := 0
  waits : Bool := false
  since : Nat := 0
  goodUs : Nat := 0
  settling : Bool := false
  period : Nat := 800
  next : Nat := 800
  startAt : Nat := 0
  syncRun : Nat := 0
  nearRun : Nat := 0
deriving DecidableEq, Repr

/-- One die's agent link: lanes out of service (R664), LINK_LOST (R39), training done (R659), the sequence numbers
last accepted and last sent downward and upward (R662), CLK_TIME at which the agent's count was 0 (R28), and the
settings that the agent holds while its link is lost, by field key (R34; none: those of the core), and what it has formed
meanwhile of the registers that it reports, by field key (R270). -/
structure LinkD where
  laneLost : Nat := 0
  lost : Bool := false
  trained : Bool := false
  downSeq : Option Nat := none
  upSeq : Option Nat := none
  downSent : Nat := 0
  upSent : Nat := 0
  base : Nat := 0
  held : List (Nat × Nat) := []
  own : List (Nat × Nat) := []
deriving DecidableEq, Repr

/-- One telemetry lane (R105, R107): good frames in a row, frame times without one, the SIDE bits of
the superframe in progress with their number (33: none in progress or spoiled), the half last received whole
that no SUPERFRAME has taken, and the frame times since then (R108). -/
structure LaneH where
  good : Nat := 0
  bad : Nat := 0
  side : Nat := 0
  pos : Nat := 33
  half : Option Nat := none
  age : Nat := 0
deriving DecidableEq, Repr

/-- One phase behind its registers: the share fraction in sixteenths (R127), the runs of limited, open and
sense cycles (R123, R141), the on-time of the next period in taps (R98, R101), whether its 1/N is withheld
(R126), whether its last sample carries the fault code (R103), its wire (0 MID, 1 LOW, 2 switching),
whether the last cycle was limited (R119), the on-time of the running period (R69), the µs at which it entered
HICCUP and at which it entered RUN (R124), the duty of the coming and of the running period (none: not switching; R160),
and what the running cycle began with, from which its coming period may be formed anew (R177): the wire of the
running period, whether BRAKING keeps the phase at zero current (R132), its limited cycles in a row and in all. -/
structure PhaseH where
  frac : Nat := 16
  limRun : Nat := 0
  openRun : Nat := 0
  senseRun : Nat := 0
  onTaps : Nat := 0
  withheld : Bool := false
  faulted : Bool := false
  wire : Nat := 0
  limited : Bool := false
  runTaps : Nat := 0
  hiccupUs : Nat := 0
  runUs : Nat := 0
  duty : Option Nat := none
  runDuty : Option Nat := none
  runWire : Nat := 0
  stays : Bool := false
  limBefore : Nat := 0
  cntBefore : Nat := 0
deriving DecidableEq, Repr

/-- The active set of a rail's commit group (R188). -/
structure Coef where
  kp : Nat
  ki : Nat
  kd : Nat
  kb : Nat
  a1 : Nat
  a2 : Nat
  kff : Nat
  lead : Nat
  ffv : Nat
  ffl : Nat
  share : Nat
  dmin : Nat
  dmax : Nat
  target : Nat
  slew : Nat
  limit : Nat
  time : Nat
deriving DecidableEq, Repr

/-- One rail's loop: the state of R168, the ramped reference in 1/256 code (R164), vin_safe (R182), the
active set and a commit that waits for the next evaluation (R189), the disagreeing
run (R177), the rail current and its last three values (R136), evaluations from the
one in which BRAKING ended, 6 from the sixth on (R133, R134), the pre-emphasis offset
(R278), a resume that waits (R186), whether the reference has still to reach its target in soft start (R131), the last ffl and predicted
current, the last injection, e, f2, dff, u_ctrl for R197; the last agreed u_ctrl (R177); CLK_TIME at which BRAKING began (R133), the µs at
which EXCURSION began (R181), since which the conditions to shed have held (R135; none: they do not hold), and
at which the last phase entered SHED. -/
structure RailH where
  i : Int := 0
  f1 : Int := 0
  f2 : Int := 0
  ePrev : Int := 0
  uUns : Int := 0
  uSat : Int := 0
  ipredPrev : Int := 0
  ref256 : Nat := 0
  vinSafe : Nat := 0
  coef : Coef
  pending : Option Coef := none
  cmpRun : Nat := 0
  irail : Int := 0
  hist : List Int := []
  brakeRest : Nat := 0
  pe : Int := 0
  resume : Bool := false
  soft : Bool := false
  sig : List Int := []
  uCtrl : Int := 0
  brakeAt : Nat := 0
  excUs : Nat := 0
  skimUs : Option Nat := none
  shedUs : Option Nat := none
deriving DecidableEq, Repr

/-- The loop test in progress (R191 to R198): the flight that waits (port and tag), the evaluations run,
the PRBS register, the chip's age and sign, the SINE phase, step, cycle counts and sums, the trigger seen,
and the running capture's ring position. -/
structure TestH where
  running : Bool := false
  stop : Bool := false
  port : Nat := 0
  tag : Nat := 0
  rail : Nat := 0
  evals : Nat := 0
  prbs : Nat := 0
  chip : Nat := 0
  sign : Int := 1
  phi : Nat := 0
  step : Nat := 0
  cycles : Nat := 0
  meas : Bool := false
  n : Nat := 0
  sums : List Int := []
  measTime : Nat := 0
  trigAt : Option Nat := none
  samples : Nat := 0
  inj : Int := 0
  droopSeen : Bool := false
deriving DecidableEq, Repr

/-- The comparator self-test of R178: the period within 256, the rotation of copy and bit, and how many
of the last 256 self-test periods passed (R650). -/
structure SelfTest where
  period : Nat := 0
  rotation : Nat := 0
  good : Nat := 0
deriving DecidableEq, Repr

/-- One intent entry (R256, R258): source, first and last slot, level, phase tag, step tag, CB, CE, BAR. -/
structure Entry where
  src : Nat
  first : Nat
  last : Nat
  level : Nat
  ptag : Nat
  step : Nat
  cb : Bool
  ce : Bool
  bar : Bool
deriving DecidableEq, Repr

/-- A profile of a die, the agent's or the core's copy (R258 to R263): entries, standing levels and phase
tags of the 8 sources, their last steps. -/
structure Prof where
  entries : List Entry := []
  standing : List Nat := List.replicate 8 0
  ptags : List Nat := List.replicate 8 0
  lastStep : List Nat := List.replicate 8 0
deriving DecidableEq, Repr

/-- A DROOP_FORCE in force (R296): the flight, its site, its duration in ns, CLK_TIME when it began, and whether
it has: not while the die's link is lost (R34). -/
structure Forced where
  port : Nat
  tag : Nat
  site : Nat
  ns : Nat
  start : Nat
  begun : Bool
deriving DecidableEq, Repr

/-- One die's intent state: the agent's and the core's profile, the collective bits (R269), the running
step's tag, its length and barrier wait in ps and whether it waits (R268), the mismatch runs (R281), the
base current of R271, the threshold in force at the agent and the one last sent (R284), the sites
detecting, those that detected during the cut, the cut's start stamp and the length of the last cut,
the DROOP_FORCE flights that wait for the cut's end with their sites, an INTENT_RESET
that waits for the slot boundary (R294), and since when each detecting site has stood above its threshold at the
core, in µs (R291). -/
structure ItnD where
  agent : Prof := {}
  core : Prof := {}
  coll : Nat := 0
  step : Nat := 0
  stepPs : Nat := 0
  waitPs : Nat := 0
  barrier : Bool := false
  badRun : Nat := 0
  goodRun : Nat := 0
  ibase : Int := 0
  threshold : Nat := 0
  thrSent : Nat := 0
  detMask : Nat := 0
  cutMask : Nat := 0
  cutStart : Nat := 0
  cutLen : Nat := 0
  forced : List Forced := []
  resetDue : Bool := false
  aboveUs : List (Nat × Nat) := []
deriving DecidableEq, Repr

/-- One die's token state. Agent: the slot number, budget, share, slews and floor in force with those
received for the next boundary (R307), slews and floor in LOCKED units, a budget with the length in ps of the slot
it was formed for (R77); the grant, the recorded grant and the last total issue (R305),
the glide episode (R317), the warm-up level and whether it rises (R322), whether the cut held in the slot, whether it held
from its start and how often one took hold in it (R303), whether a share came since the last boundary (R313), G1's fall (R632), the dispatcher at which rotation
starts (R302), the LFSRs of the tile arrays (R315). Core: the recorded grant and slot of the
latest report (R310), the last delivered share, the ask formed for the next slot and that of the slot in progress, the reason code of what sets the pool for the next slot and for the slot in progress (R374), sums of tokens used and total issue since the last
latch with their number of reports, tokens used of the last two windows, and total issue of the last with the last slot that belongs to it (R271,
R342), the 1 ms counts of R364 and R372, the filler energy in 1/5,242,880,000 µJ, of all
time below 1 µJ and of the estimator cycle (R327, R376), and CLK_TIME at the last slot boundary. -/
structure TokD where
  slot : Nat := 0
  budget : Nat := 0
  budgetNext : Option (Nat × Nat) := none
  budgetPs : Nat := 100000
  share : Nat := 0
  shareNext : Option Nat := none
  rise : Nat := 64
  fall : Nat := 64
  slewNext : Option (Nat × Nat) := none
  floorTok : Nat := 0
  floorNext : Option Nat := none
  grant : Nat := 0
  last : Nat := 0
  total : Nat := 0
  episode : Bool := false
  l0 : Nat := 0
  n : Nat := 0
  ng : Nat := 0
  warm : Nat := 0
  warmOn : Bool := false
  cutSlot : Bool := false
  cutHeld : Bool := false
  cuts : Nat := 0
  rot : Nat := 0
  lfsr : List (Nat × Nat) := []
  lateShare : Bool := false
  gated : Bool := false
  repLast : Nat := 0
  repSlot : Nat := 0
  shareSent : Nat := 0
  ask : Nat := 0
  askIn : Nat := 0
  pool : Nat × Nat := (0, 0)
  usedSum : Nat := 0
  totalSum : Nat := 0
  reports : Nat := 0
  win : Nat × Nat := (0, 0)
  pub : Nat × Nat := (0, 0)
  tot : Nat × Nat := (0, 0)
  winLast : Option Nat := none
  limSlots : Nat := 0
  slots : Nat := 0
  allFloor : Bool := true
  filAcc : Nat := 0
  filCyc : Nat := 0
  slotAt : Nat := 0
deriving DecidableEq, Repr

/-- A change that waits for the end of a collective (R368): its setting's key, die scope, acceptance in µs,
whether a die of the scope has reached a step boundary since (R369), the packet's parameters, and the flight to
complete. -/
structure Deferred where
  key : Nat
  scope : Nat
  at_ : Nat
  stepped : Bool
  opcode : Nat
  params : List Nat
  port : Nat
  tag : Nat
deriving DecidableEq, Repr

/-- A CAP_SET in force whose completion waits (R372): scope, die, low CLK_TIME at the change, intervals
judged, whether the running interval lies wholly after the change, the flight, and the status with the mean at which it completes. -/
structure CapWatch where
  scope : Nat
  die : Nat
  time : Nat
  intervals : Nat
  whole : Bool
  port : Nat
  tag : Nat
  verdict : Option (Nat × Nat)
deriving DecidableEq, Repr

/-- One die's cap state: the bucket in 1/256 A·ps (R339), power of VCORE and VMEM in the last estimator
cycle in mW and the mean VMEM current, their 1 ms sums and count, the highest out[0] of the running and of the last 1 ms and the limited slots of the last 1 ms with their count (R364),
whether a decision waits for a running change (R361), bounds of R335 in force,
whether the last decision stepped down or refused (R374), the step of a change (R360: 0 none, 1 waiting
for the reference, 2 or 3 waiting for the agent of a change up or down, 4 or 5 not begun, up or down), energy remainder in units of R376, and the energy added to
the partition in the 1 ms in µJ (R378), the sums and count of the cycle's evaluations, the voltage sums of the cycle before with their count (R218), and the 1 ms mean of P_die (R337). -/
structure CapD where
  bucket : Nat := 0
  pCore : Int := 0
  pMem : Int := 0
  iMem : Int := 0
  pSum : Int := 0
  ipk : Int := 0
  ipkMs : Int := 0
  lim : Nat := 0
  limOf : Nat := 0
  owed : Bool := false
  bounds : List Nat := []
  capped : Bool := false
  change : Nat := 0
  energyRem : Int := 0
  energyMs : Nat := 0
  vSum : List Nat := []
  iSum : List Int := []
  evals : Nat := 0
  vPrev : List Nat := []
  evPrev : Nat := 0
  pm : Int := 0
deriving DecidableEq, Repr

/-- The package's cap state: samples in a row below WARN, at or above the exit level and at or below RESET
(R353 to R357), the µs of the second sample in a row at or above the exit level (R618, R637), ride-through µs left, P_avg in mW·2^24 (R346), the 1 ms
sum and count of P_pkg, A_avg in mW, what sets P_lim (0 A_avg, 1 L_RING, 2 package cap), pool_PKG and
pool_POW, deferred changes, watched caps, CAP_UNREACHABLE per scope mask, link power
and current of the last cycle. -/
structure CapP where
  below : Nat := 0
  above : Nat := 0
  reset : Nat := 0
  aboveUs : Nat := 0
  ride : Nat := 0
  pavg : Int := 0
  pSum : Int := 0
  cycles : Nat := 0
  aAvg : Int := 2 ^ 40
  pm : Int := 0
  setter : Nat := 0
  poolPkg : Int := 0
  poolPow : Int := 2 ^ 40
  deferred : List Deferred := []
  watches : List CapWatch := []
  unreach : Nat := 0
  pLink : Int := 0
  iLink : Int := 0
  linkRem : Int := 0
deriving DecidableEq, Repr

/-- A model bank of a die: whether it holds a model, and the package's bytes (R239, R242). -/
structure Bank where
  valid : Bool
  pkg : List Nat
deriving DecidableEq, Repr

/-- One trim pair in IEEE 754 binary32 codes: gain, offset, covariance (R229), and the window's sums: raw,
rail current, estimator cycles, evaluations, whether the window is spoiled (R232), and the µs at which it began
(R227). -/
structure Pair where
  g : Nat := 0x3F800000
  o : Nat := 0
  p11 : Nat := 0
  p12 : Nat := 0
  p22 : Nat := 0
  xSum : Int := 0
  ySum : Int := 0
  cycles : Nat := 0
  evals : Nat := 0
  spoiled : Bool := true
  since : Nat := 0
deriving DecidableEq, Repr

/-- One die's estimator state: the latched counters and those before, as sparse tables (R207), whether
the next window has no valid delta (R208), the slots of the running window in ps and whether the last one was long
(R210), how many windows have ended and which one's second stage comes next, the hidden outputs formed by the agent,
those last received and whether a frame came in time (R223), the run of late windows, STALE, the banks and the active
one, whether the core has a model and the bank it computes with, the first window under the active one where the core
has still to follow (R242), the trim pairs of outputs 0 and 1, and the skips and TRIM_HOLD that the next publication
shows (R255). -/
structure EstD where
  cnt : List (Nat × Nat) := []
  prev : List (Nat × Nat) := []
  first : Bool := true
  latched : Bool := false
  winPs : Nat := 0
  long : Bool := false
  window : Nat := 0
  latchAt : Nat := 0
  due : Nat := 0
  hidden : List Nat := []
  hCore : List Nat := []
  inTime : Bool := false
  lateRun : Nat := 0
  stale : Bool := false
  banks : List Bank := [⟨false, []⟩, ⟨false, []⟩]
  active : Nat := 0
  coreOn : Bool := false
  core : Nat := 0
  turn : Option Nat := none
  pair0 : Pair := {}
  pair1 : Pair := {}
  skips : Nat := 0
  hold : Bool := false
deriving DecidableEq, Repr

/-- A model switch that waits for the next estimator-cycle boundary (R242): die mask, the flight, and
whether it is a revert. -/
structure SwitchH where
  mask : Nat
  port : Nat
  tag : Nat
  revert : Bool
deriving DecidableEq, Repr

/-- The package's estimator state: the link pair with the covariance of R216, the gain and offset that output 2 goes on
using until the core follows a switch (R242, R243), the switch in progress, the µs of the owner's last use of the staging buffer (R241), and the model-signing
keys of slots 0 to 3 as X, Y (R238). -/
structure EstP where
  link : Pair := { p11 := 0x38D1B717, p22 := 0x3F800000 }
  linkOld : Option (Nat × Int) := none
  stageUs : Nat := 0
  switch : Option SwitchH := none
  keys : List (Option (Nat × Nat)) := [none, none, none, none]
deriving DecidableEq, Repr

/-- A command in flight (R557 to R564): port, tag, opcode, entry, IRQ, ORDERED, TARGET, parameter words,
its place in the order of fetches, whether its work has begun and waits for a later event, and the
results and step of that work. -/
structure Flight where
  port : Nat
  tag : Nat
  opcode : Nat
  sqIdx : Nat
  irq : Bool
  ordered : Bool
  target : Nat
  params : List Nat
  seq : Nat
  started : Bool
  r0 : Nat
  r1 : Nat
deriving DecidableEq, Repr

/-- The host interface behind its registers: flights in fetch order, the next fetch number, the port
served last (R558), inbound and outbound mailbox queues of ports 0 to 8 (R577), the latched words of each
port, keyed by port and offset (R19, R602). -/
structure HostH where
  flights : List Flight := []
  nextSeq : Nat := 0
  lastPort : Nat := 8
  mbxIn : List (Nat × List Nat) := []
  mbxOut : List (Nat × List (Nat × Nat)) := []
  latches : List (Nat × Nat) := []
deriving DecidableEq, Repr

/-- The BMC port's I3C target (R550 to R553): dynamic address, in-band interrupts enabled, maximum write
and read lengths, the offset of the last private write, and a pending interrupt. -/
structure I3cH where
  addr : Option Nat := none
  ibiEn : Bool := true
  mwl : Nat := 260
  mrl : Nat := 256
  ofs : Nat := 0
  pendingIbi : Bool := false
deriving DecidableEq, Repr

/-- An event that waits for the recorder (R597): code, SUBJ, PART, ARG, the instant's CLK_TIME, and whether its subject
was a die of a confidential partition then (R528). -/
structure Event where
  code : Nat
  subj : Nat
  part : Nat
  arg : Nat
  time : Nat
  conf : Bool
deriving DecidableEq, Repr

/-- A record of the event recorder (R593). -/
structure Record where
  time : Nat
  last : Nat
  code : Nat
  subj : Nat
  part : Nat
  arg : Nat
  seq : Nat
  rep : Nat
  coarse : Bool
  snap : List Nat
deriving DecidableEq, Repr

/-- The recorder behind its registers: the queue, oldest first; the records, index order; the clear in
progress as port and tag with the lost count before it (R612); the last masked word of each watch trigger
(R599); the last HLT_EVT counts the score took (R605); the events of the command in progress (R597). -/
structure RecorderH where
  queue : List Event := []
  recs : List Record := []
  clear : Option (Nat × Nat) := none
  lostBefore : Nat := 0
  trigPrev : List (Nat × Nat) := []
  trigOn : Nat := 0
  hltPrev : List Nat := [0, 0, 0, 0, 0, 0]
  fresh : List Event := []
deriving DecidableEq, Repr

/-- The flash slot that FW_OPEN assigned (R643): port, kind, length. -/
structure FwSlot where
  port : Nat
  kind : Nat
  length : Nat
deriving DecidableEq, Repr

/-- Boot, resets and safety behind their registers: dies held in die reset (R629) and by a LOST rail (R638);
an accelerator reset and a governor warm reset in progress, and whether the latter's LOAD stage has ended
(R628, R631); a G-state change in progress (0 none, 1 to G0, 2 to G1, 3 to G2, 4 REQ 3; R632, R633); dies
that reported self-refresh; the firmware restart in progress with its trigger and the FW_RESTART flight
that waits for it (R639, R646); the µs of the last restarts (R641); the slot of FW_OPEN; SVN_ADV of the two
running images and the µs from which they have run in READY without a restart (R627); whether the last scan
failed (R649); the cause of a power-down that is due (0: none, R636); whether warm-up has been judged, so
that HEAT is passed over (R637); whether an FW_COMMIT has succeeded since the last LOAD (R620); the µs since the
watchdog was kicked (R639); the µs at which the stage, the stage of a governor warm reset, the accelerator reset and the
G-state change began (R618, R628, R634); the commands that a restart caught before their effect (R566); the length of the
firmware payload in SRAM (R625); the read mode that the ROM took and whether with 4-byte addresses (R621); the settings that
an upset changed, by field key, with the value that the reference of the scan holds (R649). -/
structure BootH where
  dieRst : Nat := 0
  lostHold : Nat := 0
  accRst : Bool := false
  govRst : Bool := false
  loaded : Bool := false
  change : Nat := 0
  selfRef : Nat := 0
  restart : Option Nat := none
  fwCmd : Option (Nat × Nat) := none
  restarts : List Nat := []
  slot : Option FwSlot := none
  svnFw : Bool := false
  svnCfg : Bool := false
  runUs : Nat := 0
  scanBad : Bool := false
  downCause : Nat := 0
  warmed : Bool := false
  committed : Bool := false
  wdt : Nat := 0
  stageUs : Nat := 0
  govUs : Nat := 0
  accUs : Nat := 0
  changeUs : Nat := 0
  aborts : List (Nat × Nat) := []
  fwLen : Nat := 0
  readMode : Nat := 0
  addr4 : Bool := false
  upset : List (Nat × Nat) := []
deriving DecidableEq, Repr

/-- Pins of the core and the agents that hold a level (R655, R658): PKG_RESET_N, GOV_PWRGOOD, RING_BYP_EN,
AGT_MEM_EN, CLK_GATE_REQ and STRETCH_REQ by die, HIF_WAKE by port, the FEED_ID strap; whether GOV_VDD is off (R679). -/
structure Pins where
  pkgResetN : Bool := false
  pwrgood : Bool := false
  bypEn : Bool := false
  memEn : Nat := 0
  gateReq : Nat := 0
  stretch : Nat := 0
  wake : Nat := 0
  feedId : Nat := 0
  off : Bool := false
deriving DecidableEq, Repr

/-- The runs of one sensor: conversions in a row beyond DEV (R401), within DEV / 2 (R403), and at the trip
judgement (R412). -/
structure SRun where
  dev : Nat
  ret : Nat
  trip : Nat
deriving DecidableEq, Repr

/-- The thermal unit behind its registers: a conversion open, the 20 µs period it opened in (R393; 0: none yet),
the clock state of its window (R394), whether that has closed (R399) and was spoiled by a change of clock state before (R396), the latched counts by die, the runs by
sensor, whether an RC window has ended since COAST entry and whether one has run wholly in COAST (R395), the
allowance lth by die (R410), the stacks that have reported and the µs of each one's last report (R409), the µs at
which HEATING began (R325), and the µs of the last trip (R419). -/
structure ThermH where
  isOpen : Bool := false
  period : Nat := 0
  clock : Nat := 0
  closed : Bool := false
  spoiled : Bool := false
  counts : List (Nat × List Nat) := []
  runs : List (Nat × SRun) := []
  coastWin : Bool := false
  coastCal : Bool := false
  lth : List (Nat × Int) := []
  reported : Nat := 0
  stkUs : List (Nat × Nat) := []
  warmUs : Nat := 0
  tripUs : Nat := 0
deriving DecidableEq, Repr

/-- The copies of one member's slot (R430): kinds received well in this superframe, whether present in it
and in the last, FLAGS, FEED, and the words of the four kinds. -/
structure RingCopy where
  kinds : Nat := 0
  seen : Bool := false
  flags : Nat := 0
  feed : Nat := 0
  budget : Nat := 0
  slack : Nat := 0
  stepTag : Nat := 0
  floor : Nat := 0
  ceil : Nat := 0
  frag : Nat := 0
  gen : Nat := 0
  applied : Nat := 0
deriving DecidableEq, Repr

/-- What the master knows of a member (R441): known, its reserved budget, its last assignment and that assignment's
round. -/
structure RingKnown where
  known : Bool := false
  res : Nat := 0
  assigned : Nat := 0
  round : Nat := 0
deriving DecidableEq, Repr

/-- The budget ring behind its registers (R425 to R452): the copies and knowledge by member ID; the next
FRAME to send; the ROUND and the assignments being sent; frames of its own that returned in the superframe;
good headers in a row (R435); the entry received in this superframe, the entry taken and whether FRAME 0
after it has come, the last round applied; the four WORDs latched at FRAME 0 with slack and step tag frozen
by STALE; the STALE flag; MROLE of the last good header; whether it was ever a member since cold reset;
whether it holds budgets for one superframe as a new master; whether a header of higher precedence waits
for the idle gap; whether a closing waits; whether a conflict of IDs holds it out (R436); FRAME of the last good header
and the µs since which none has come (R438, R449); frames of its own that may still be under way; LIMITED and step
data: tag of the package's last step boundary and its µs; the digest and DIG_BUSY. -/
structure RingH where
  copies : List (Nat × RingCopy) := []
  known : List (Nat × RingKnown) := []
  frame : Nat := 0
  round : Nat := 0
  assigns : List (Nat × Nat) := []
  returned : Nat := 0
  hdrRun : Nat := 0
  entry : Option (Nat × Nat) := none
  taken : Option (Nat × Nat) := none
  due : Bool := false
  applied : Nat := 0
  words : List Nat := [0, 0, 0, 0]
  frozen : List Nat := [0, 0]
  stale : Bool := false
  mrole : Nat := 0
  ever : Bool := false
  holdOne : Bool := false
  outranked : Bool := false
  closing : Bool := false
  conflict : Bool := false
  lastFrame : Nat := 99
  quietUs : Nat := 0
  away : Nat := 0
  limited : Bool := false
  lastStep : Option Nat := none
  stepUs : Nat := 0
  digest : Nat := 0
  busy : Bool := false
  roundDone : Bool := false
  balanceDue : Bool := false
deriving DecidableEq, Repr

/-- A context that waits for its reset (R469): its ID, the CTX_RESET flight that waits with it (port, tag),
and the sequence number of the victim record that started it (R477). -/
structure PendCtx where
  ctx : Nat
  waiter : Option (Nat × Nat)
  vseq : Nat
deriving DecidableEq, Repr

/-- A capture window as the capture step latches it (R475): its number, its die, and its offset and length in units of
256 bytes. -/
structure CapWin where
  win : Nat
  die : Nat
  ofs : Nat
  len : Nat
deriving DecidableEq, Repr

/-- The reset in sequence (R470, R484): the context, its waiter and record, the requests answered with
errors, the slot used (31: none), the bytes captured, the windows latched at the start of capture (R475), its
CLK_TIME, the dies reset since the sequence began and whether a window lies on one of them (R483), whether the release
order has been sent, and the CLK_TIME at which the step in progress began. -/
structure SeqH where
  ctx : Nat
  waiter : Option (Nat × Nat)
  vseq : Nat
  answered : Nat
  slot : Nat
  bytes : Nat
  wins : List CapWin
  time : Nat
  gone : Nat
  cut : Bool
  released : Bool
  since : Nat
deriving DecidableEq, Repr

/-- What a walk goes through (R461, R462): its snapshot's CLK_TIME, the eligible queues with the queue each waits
on, and the context of each of them. -/
structure WalkH where
  stamp : Nat
  edges : List (Nat × Nat)
  ctxs : List (Nat × Nat)
deriving DecidableEq, Repr

/-- The recovery unit behind its registers: taps and ages by queue (R457, R459), dies whose taps arrived for
this snapshot and dies that came late, the snapshot's CLK_TIME and its 1 ms period, counted from 1, whether a walk
is due or runs, and what it goes through where a later snapshot has come meanwhile (R462),
the pending list, the sequence, whether both wait for the end of a governor warm reset (R483), the µs of the ends of
counting resets and the ESC_S in force since the last of them (R480), the victim sequence number and
kind that named each context, by context (R463, R468), and how many queues of each group ran in the last
snapshot (R378), the contexts bound in it, and those that ended in STUCK and have not been released (R473). -/
structure RecovH where
  taps : List (Nat × Nat) := []
  ages : List (Nat × Nat) := []
  arrived : Nat := 0
  late : Nat := 0
  stamp : Nat := 0
  period : Nat := 0
  due : Bool := false
  graph : Option WalkH := none
  pend : List PendCtx := []
  cur : Option SeqH := none
  hold : Bool := false
  ends : List Nat := []
  escS : Nat := 60
  namedBy : List (Nat × Nat) := []
  namedKind : List (Nat × Nat) := []
  ran : List (Nat × Nat) := []
  bound : List Nat := []
  stuck : List Nat := []
deriving DecidableEq, Repr

/-- A scrub (R531): its step (0: waits for a context's sequence), what of the step is acknowledged (bit 0
fence, bit 1 idle; in step 2 bit 0 the drain), the PART_SCRUB flight, its start in µs, the scrub key + 1 (0: none yet),
CLK_TIME at the start of step 4. -/
structure ScrubH where
  step : Nat
  acked : Nat
  port : Nat
  tag : Nat
  start : Nat
  key : Nat
  since : Nat
deriving DecidableEq, Repr

/-- A key-bus operation that waits for acknowledgements (R519, R522, R523): 1 rotation, 2 model key,
3 erasure of the previous slot; the flight; the slot and keys in flight; CLK_TIME of its start. -/
structure KeyOp where
  kind : Nat
  port : Nat
  tag : Nat
  slot : Nat
  keyA : Nat
  keyB : Nat
  since : Nat
deriving DecidableEq, Repr

/-- A partition's part of the key store and its scrub (R505, R507, R517 to R523): the ECDH private key, the
current and previous memory and link keys and the model keys by slot, each as key + 1 with 0 for none, the operation and
scrub in progress, CLEAR_OK (R520). -/
structure PartH where
  priv : Nat := 0
  memCur : Nat := 0
  linkCur : Nat := 0
  memPrev : Nat := 0
  linkPrev : Nat := 0
  models : List (Nat × Nat) := []
  op : Option KeyOp := none
  scrub : Option ScrubH := none
  clearOk : Bool := false
deriving DecidableEq, Repr

/-- A port's SPDM connection (R511): 0 none, 1 version, 2 capabilities, 3 algorithms agreed; its target
partition; the requester's transfer size; the session: 0 none, 1 exchanged, 2 established; whether it was
asked with the summary hash over all blocks (R514); and the messages that a signature covers: those up to the
algorithms, those about certificates, those of measurements since the last signature (R508; log 16). -/
structure Spdm where
  stage : Nat := 0
  target : Nat := 0
  size : Nat := 0
  session : Nat := 0
  allBlocks : Bool := false
  vca : List Nat := []
  certs : List Nat := []
  meas : List Nat := []
deriving DecidableEq, Repr

/-- The security unit behind its registers: partitions, SPDM connections by port, DRBG requests since its
last seeding (R504), the device and alias private keys and the nonce with which
the alias certificate was signed (R508), the coarsened values shown once a second or
frozen, by field key (R526, R527, R533), the dies and stacks frozen with the partition that froze them
(p + 1), the partitions frozen, the link ports in electrical idle (R532), and the partition powers
summed in the running second in mW with their cycles. -/
structure SecH where
  parts : List (Nat × PartH) := []
  spdm : List (Nat × Spdm) := []
  requests : Nat := 0
  deviceKey : Nat := 0
  aliasKey : Nat := 0
  aliasNonce : Nat := 1
  shown : List (Nat × Nat) := []
  frozenDies : List (Nat × Nat) := []
  frozenStacks : List (Nat × Nat) := []
  frozenParts : Nat := 0
  idlePorts : Nat := 0
  pwrSum : List (Nat × Int) := []
  pwrCycles : Nat := 0
deriving DecidableEq, Repr

/-- A board converter behind its registers: the µs of the last CLEAR_FAULTS sent to it (R153). -/
structure PmbC where
  cleared : Option Nat := none
deriving DecidableEq, Repr

/-- The reasons a step can fault. -/
inductive Fault where
  /-- Raised by no meaning: the spec gives every command of this block an effect. Safe. -/
  | unreached
deriving DecidableEq, Repr

/-- The reasons a step can be refused. -/
inductive Refusal where
  /-- A command without a meaning; no arm of exec answers it. Safe. -/
  | notModelled (mnemonic : String)
deriving DecidableEq, Repr

/-- The machine: the waiting commands, first in first out; the register fields by key (Field.lean); the byte
buffers and the flash; the counter of free values; what left the block, in order; the answers of the last
access; µs ticks since power-up (R55); and the state behind the registers, one component per unit, tables
by die, rail, phase, lane (2 × stage + lane), converter or port. -/
structure State where
  pending : List Instr := []
  regs : List (Nat × Nat) := []
  mem : List Host.Cell := []
  free : Nat := 0
  out : List Out := []
  resp : List Resp := []
  us : Nat := 0
  clk : ClockH := {}
  links : List (Nat × LinkD) := []
  lanes : List (Nat × LaneH) := []
  pmb : List (Nat × PmbC) := []
  phases : List (Nat × PhaseH) := []
  rails : List (Nat × RailH) := []
  test : TestH := {}
  self : SelfTest := {}
  itn : List (Nat × ItnD) := []
  tok : List (Nat × TokD) := []
  capd : List (Nat × CapD) := []
  capp : CapP := {}
  estd : List (Nat × EstD) := []
  estp : EstP := {}
  therm : ThermH := {}
  ring : RingH := {}
  recov : RecovH := {}
  sec : SecH := {}
  host : HostH := {}
  i3c : I3cH := {}
  log : RecorderH := {}
  boot : BootH := {}
  pins : Pins := {}
deriving DecidableEq, Repr

/-- The clock unit at reset: nothing counted, slots of 100 ns. -/
def ClockH.init : ClockH := {}

/-- An agent link at reset: not trained, both lanes in service, nothing accepted. -/
def LinkD.init : LinkD := {}

/-- A telemetry lane at reset: out of lock. -/
def LaneH.init : LaneH := {}

/-- A converter at reset. -/
def PmbC.init : PmbC := {}

/-- A phase at reset: its whole share, wire at mid-level. -/
def PhaseH.init : PhaseH := {}

/-- The active set of rail r at reset: the reset values of its shadow set (R188). -/
def Coef.init (r : Nat) : Coef :=
  ⟨(R.LPE_KP.KP r).rst, (R.LPE_KI.KI r).rst, (R.LPE_KD.KD r).rst, (R.LPE_KB.KB r).rst, (R.LPE_A1.A1 r).rst,
   (R.LPE_A2.A2 r).rst, (R.LPE_KFF.KFF r).rst, (R.LPE_FF.LEAD_NS r).rst, (R.LPE_FF.FFV_EN r).rst,
   (R.LPE_FF.FFL_EN r).rst, (R.LPE_FF.SHARE_EN r).rst, (R.LPE_DUTY_LIM.MIN r).rst, (R.LPE_DUTY_LIM.MAX r).rst,
   (R.LPE_REF.TARGET r).rst, (R.LPE_REF.SLEW r).rst, (R.LPE_FE.LIMIT r).rst, (R.LPE_FE.TIME r).rst⟩

/-- Rail r's loop at reset: every variable of R168 zero. -/
def RailH.init (r : Nat) : RailH := { coef := Coef.init r }

/-- No loop test at reset. -/
def TestH.init : TestH := {}

/-- An empty profile: no entry, every source standing at level 0. -/
def Prof.init : Prof := {}

/-- A die's intent and droop state at reset. -/
def ItnD.init : ItnD := {}

/-- A die's token state at reset: nothing granted. -/
def TokD.init : TokD := {}

/-- A die's cap state at reset. -/
def CapD.init : CapD := {}

/-- The package's cap state at reset: no A_avg and no pool_POW formed yet, values above
every power and pool. -/
def CapP.init : CapP := {}

/-- A trim pair without trim: gain 1, offset 0 in binary32. -/
def Pair.init : Pair := {}

/-- A die's estimator state at reset: no model, counters zero. -/
def EstD.init : EstD := {}

/-- The package's estimator state at reset. -/
def EstP.init : EstP := {}

/-- The thermal unit at reset. -/
def ThermH.init : ThermH := {}

/-- A member's copies before anything is received. -/
def RingCopy.init : RingCopy := {}

/-- A member of which the master knows nothing. -/
def RingKnown.init : RingKnown := {}

/-- The ring at reset: out of it. -/
def RingH.init : RingH := {}

/-- The recovery unit at reset: empty taps, ages 0. -/
def RecovH.init : RecovH := {}

/-- A partition without keys. -/
def PartH.init : PartH := {}

/-- A port without an SPDM connection. -/
def Spdm.init : Spdm := {}

/-- The security unit at reset: no keys. -/
def SecH.init : SecH := {}

/-- The host interface at reset: nothing in flight. -/
def HostH.init : HostH := {}

/-- The I3C target at reset: no dynamic address, lengths at their maxima (R551). -/
def I3cH.init : I3cH := {}

/-- The recorder at reset: empty. -/
def RecorderH.init : RecorderH := {}

/-- Boot at reset: nothing in progress. -/
def BootH.init : BootH := {}

/-- The pins at reset: PKG_RESET_N, GOV_PWRGOOD and RING_BYP_EN low (R679). -/
def Pins.init : Pins := {}

/-- The machine right after reset: every register at its reset value, every unit at rest, no command. -/
def State.reset : State := {}

end Sys2Proof.Machine
end

