-- ==== Sys2Proof/Machine/Ops.lean ====
section
/-! DEFINITION. Sys2Proof/Machine/Ops.lean: the named operations that every meaning is written over: register
fields, byte memory, tables, free values, events and records, notifications, faults, violations, completions
of commands. -/

namespace Sys2Proof.Machine

/-! Register fields. -/

/-- The value of a field's cell (a field with a view is read by `readField`). -/
def get (s : State) (f : Field) : Nat := sget f.rst (fieldKey f) s.regs

/-- A field's cell as a two's complement integer (R11, R13). -/
def getI (s : State) (f : Field) : Int := toSigned f.w (get s f)

/-- Whether a field is not 0. -/
def isOn (s : State) (f : Field) : Bool := get s f ≠ 0

/-- The state with a value in a field's cell, modulo its width. Fields of class FUSE never change (R21). -/
def put (f : Field) (v : Nat) (s : State) : State :=
  if f.cls = Ret.fuse then s else { s with regs := sset f.rst (fieldKey f) (v % 2 ^ f.w) s.regs }

/-- A fuse raised in service: only R627 does it, for the SVN fuses. -/
def blow (f : Field) (v : Nat) (s : State) : State :=
  { s with regs := sset f.rst (fieldKey f) (v % 2 ^ f.w) s.regs }

/-- An integer put as a two's complement code. -/
def putI (f : Field) (x : Int) (s : State) : State := put f (ofSigned f.w x) s

/-- A truth value put as 1 or 0. -/
def putB (f : Field) (b : Bool) (s : State) : State := put f (b2n b) s

/-- Bit b of a field set: the raising of an event (R16, W1C). -/
def event (f : Field) (b : Nat) (s : State) : State := put f (setBit (get s f) b) s

/-- Bit b of a field cleared. -/
def unevent (f : Field) (b : Nat) (s : State) : State := put f (clrBit (get s f) b) s

/-- Bit b of a field made v. -/
def putBitF (f : Field) (b : Nat) (v : Bool) (s : State) : State := put f (putBit (get s f) b v) s

/-- n added to a counter that saturates. -/
def addSat (f : Field) (n : Nat) (s : State) : State := put f (min (2 ^ f.w - 1) (get s f + n)) s

/-- n added to a counter that wraps. -/
def addWrap (f : Field) (n : Nat) (s : State) : State := put f (get s f + n) s

/-- Every field of a retention class at its reset value (R635). -/
def clearClass (c : Ret) (s : State) : State :=
  { s with regs := s.regs.filter fun e => keyClass e.1 ≠ retCode c }

/-- Every class DIE field of a die at its reset value (R635). -/
def clearDieRegs (d : Nat) (s : State) : State :=
  { s with regs := s.regs.filter fun e => ¬ (keyClass e.1 = retCode Ret.die ∧ keyUnit e.1 = d) }

/-- A step made for each element of a list, in order. -/
def each {α : Type} (l : List α) (f : α → State → State) (s : State) : State := l.foldl (fun s x => f x s) s

/-- A step made only where a condition holds. -/
def when (c : Bool) (f : State → State) (s : State) : State := if c then f s else s

/-! Free values. -/

/-- The next free value (log 7). -/
def fresh (s : State) : Nat := Config.freeValue s.free

/-- The counter of free values advanced. -/
def drawn (s : State) : State := { s with free := s.free + 1 }

/-! Byte memory. Areas are numbered in steps of 2^22: 0 to 8 the command and completion entries of the
ports, at their window offsets; 16 the windows that every port shares; 32 the staging buffer; 40 the SRAM of the cores;
48 on the flash (log 12). -/

/-- What an unlisted address reads as: 0xFF in the flash, which is erased there, 0 elsewhere (log 12). -/
def memDefault (a : Nat) : BitVec 8 := if a < 48 * 2 ^ 22 then 0 else 0xFF

/-- The canonical form of byte memory. -/
def Memory.wf (m : List Host.Cell) : Bool := sparseWf memDefault m

/-- One byte of memory. -/
def readByte (s : State) (a : Nat) : Nat := (sget (memDefault a) a s.mem).toNat

/-- One byte of memory written. -/
def writeByte (a v : Nat) (s : State) : State :=
  { s with mem := sset (memDefault a) a (BitVec.ofNat 8 v) s.mem }

/-- n bytes from an address on. -/
def readBytes (s : State) (a n : Nat) : List Nat := (List.range n).map fun i => readByte s (a + i)

/-- Bytes written from an address on. -/
def writeBytes (a : Nat) : List Nat → State → State
  | [], s => s
  | b :: t, s => writeBytes (a + 1) t (writeByte a b s)

/-- A 32-bit word of memory, little-endian (R14). -/
def readWord32 (s : State) (a : Nat) : Nat := leNat (readBytes s a 4)

/-- A 32-bit word of memory written, little-endian (R14). -/
def writeWord32 (a v : Nat) (s : State) : State := writeBytes a (leBytes 4 v) s

/-- The addresses from lo to hi - 1 back at what they read unlisted. -/
def wipe (lo hi : Nat) (s : State) : State := { s with mem := s.mem.filter fun e => e.1 < lo ∨ hi ≤ e.1 }

/-- The shared area's address of a window offset. -/
def sharedArea (o : Nat) : Nat := 16 * 2 ^ 22 + o

/-- The address of an offset in a port's own queue windows. -/
def portArea (p o : Nat) : Nat := p * 2 ^ 22 + o

/-- The address of an offset in the staging buffer (R241). -/
def stageArea (o : Nat) : Nat := 32 * 2 ^ 22 + o

/-- The address of an SRAM offset (R625). -/
def sramArea (o : Nat) : Nat := 40 * 2 ^ 22 + o

/-- The address of a flash offset (R622). -/
def flashArea (o : Nat) : Nat := 48 * 2 ^ 22 + o

/-! Tables. -/

/-- Die d's agent link. -/
def linkOf (s : State) (d : Nat) : LinkD := sget LinkD.init d s.links
/-- Die d's agent link replaced. -/
def setLink (d : Nat) (v : LinkD) (s : State) : State := { s with links := sset LinkD.init d v s.links }
/-- Telemetry lane n = 2 × stage + lane. -/
def laneOf (s : State) (n : Nat) : LaneH := sget LaneH.init n s.lanes
/-- A telemetry lane replaced. -/
def setLane (n : Nat) (v : LaneH) (s : State) : State := { s with lanes := sset LaneH.init n v s.lanes }
/-- Converter c behind its registers. -/
def convOf (s : State) (c : Nat) : PmbC := sget PmbC.init c s.pmb
/-- A converter replaced. -/
def setConv (c : Nat) (v : PmbC) (s : State) : State := { s with pmb := sset PmbC.init c v s.pmb }
/-- Phase n behind its registers. -/
def phaseOf (s : State) (n : Nat) : PhaseH := sget PhaseH.init n s.phases
/-- A phase replaced. -/
def setPhase (n : Nat) (v : PhaseH) (s : State) : State := { s with phases := sset PhaseH.init n v s.phases }
/-- Rail r's loop behind its registers. -/
def railOf (s : State) (r : Nat) : RailH := sget (RailH.init r) r s.rails
/-- A rail's loop replaced. -/
def setRail (r : Nat) (v : RailH) (s : State) : State := { s with rails := sset (RailH.init r) r v s.rails }
/-- Die d's intent and droop state. -/
def itnOf (s : State) (d : Nat) : ItnD := sget ItnD.init d s.itn
/-- A die's intent and droop state replaced. -/
def setItn (d : Nat) (v : ItnD) (s : State) : State := { s with itn := sset ItnD.init d v s.itn }
/-- Die d's token state. -/
def tokOf (s : State) (d : Nat) : TokD := sget TokD.init d s.tok
/-- A die's token state replaced. -/
def setTok (d : Nat) (v : TokD) (s : State) : State := { s with tok := sset TokD.init d v s.tok }
/-- Die d's cap state. -/
def capOf (s : State) (d : Nat) : CapD := sget CapD.init d s.capd
/-- A die's cap state replaced. -/
def setCap (d : Nat) (v : CapD) (s : State) : State := { s with capd := sset CapD.init d v s.capd }
/-- Die d's estimator state. -/
def estOf (s : State) (d : Nat) : EstD := sget EstD.init d s.estd
/-- A die's estimator state replaced. -/
def setEst (d : Nat) (v : EstD) (s : State) : State := { s with estd := sset EstD.init d v s.estd }
/-- Partition p's keys and scrub. -/
def partOf (s : State) (p : Nat) : PartH := sget PartH.init p s.sec.parts
/-- A partition's keys and scrub replaced. -/
def setPart (p : Nat) (v : PartH) (s : State) : State :=
  { s with sec := { s.sec with parts := sset PartH.init p v s.sec.parts } }

/-- Boot changed. -/
def setBoot (v : BootH) (s : State) : State := { s with boot := v }

/-- The pins changed. -/
def setPins (v : Pins) (s : State) : State := { s with pins := v }

/-! Orders, time and the shape of the package. -/

/-- Something leaves the block (log 10). -/
def emit (o : Out) (s : State) : State := { s with out := s.out ++ [o] }

/-- CLK_TIME in TCLK counts (R84). -/
def now (s : State) : Nat := get s R.CLK_TIME.COUNT

/-- A length of CLK_TIME in ns, at the length of a count in force (R86). -/
def spanNs (s : State) (a b : Nat) : Nat := (b - a) * s.clk.slotPs / 10000

/-- How many dies are present (R8). -/
def nDies (s : State) : Nat := min 16 (get s R.GOV_CFG.N_DIES)

/-- The present dies. -/
def dies (s : State) : List Nat := List.range (nDies s)

/-- Whether die d is present. -/
def isPresent (s : State) (d : Nat) : Bool := d < nDies s

/-- How many layers each die carries (R8). -/
def nLayers (s : State) : Nat := min 4 (get s R.GOV_CFG.N_LAYERS)

/-- How many stacks are present (R8). -/
def nStacks (s : State) : Nat := min 16 (get s R.GOV_CFG.N_STACKS)

/-- The die that serves stack n (SEC_STK_MAP, R543). -/
def serves (s : State) (n : Nat) : Nat := bits (get s R.SEC_STK_MAP.MAP) (4 * n) 4

/-- The boot stage (R618). -/
def stage (s : State) : Nat := get s R.BOOT_STAT.STAGE

/-- Codes of R618. -/
def stREADY : Nat := 9
def stDOWN : Nat := 10
def stOFF : Nat := 11
def stFAIL : Nat := 12

/-- Die d is in an accelerator or die reset, is held by a LOST rail, or its link has not trained (R629,
R638, R659). -/
def dieInReset (s : State) (d : Nat) : Bool :=
  s.boot.accRst || bit s.boot.dieRst d || bit s.boot.lostHold d || !(linkOf s d).trained

/-- The clock state of R56: 0 JUDGE, 1 LOCKING, 2 LOCKED, 3 COAST, 4 RELOCK. -/
def clkState (s : State) : Nat := get s R.CLK_STATUS.STATE

/-- Whether a bound in ns, which doubles in COAST, has passed since CLK_TIME a (R470, R531). -/
def boundPassed (s : State) (a ns : Nat) : Bool := (if clkState s = 3 then 2 * ns else ns) ≤ spanNs s a (now s)

/-- Whether the clock unit is in COAST or RELOCK, where what is counted in slots takes twice as long. -/
def coasting (s : State) : Bool := clkState s = 3 || clkState s = 4

/-! Partitions and ports. -/

/-- The partition for which a test of its entry holds, 0x3F where none (R494). -/
def ownerBy (s : State) (t : Nat → Bool) : Nat :=
  ((List.range 16).find? fun p => get s (R.SEC_PART_CFG.STATE p) ≠ 0 && t p).getD 0x3F

/-- The partition that owns die d. -/
def ownerDie (s : State) (d : Nat) : Nat := ownerBy s fun p => bit (get s (R.SEC_PART_RES.DIES p)) d

/-- The partition that owns stack n. -/
def ownerStack (s : State) (n : Nat) : Nat := ownerBy s fun p => bit (get s (R.SEC_PART_RES.STACKS p)) n

/-- The partition that owns queue group g. -/
def ownerGroup (s : State) (g : Nat) : Nat :=
  ownerBy s fun p => get s (R.SEC_PART_QG.FIRST p) ≤ g && g < get s (R.SEC_PART_QG.FIRST p) + get s (R.SEC_PART_QG.COUNT p)

/-- The partition that owns link port k. -/
def ownerLink (s : State) (k : Nat) : Nat := ownerBy s fun p => bit (get s (R.SEC_PART_LINK.PORTS p)) k

/-- The partition of context c (CTX_STATE.PART, R458). -/
def ownerCtx (s : State) (c : Nat) : Nat := get s (R.CTX_STATE.PART c)

/-- Whether partition p is confidential. -/
def confPart (s : State) (p : Nat) : Bool := p < 16 && isOn s (R.SEC_PART_CFG.CONF p)

/-- Whether any partition is confidential (SEC_STAT.CONF_ANY). -/
def confAny (s : State) : Bool := (List.range 16).any (confPart s)

/-- Whether die d lies in a confidential partition. -/
def confDie (s : State) (d : Nat) : Bool := confPart s (ownerDie s d)

/-- A port's authority: 0 OBSERVER, 1 TENANT, 2 OPERATOR (R546). -/
def authOf (s : State) (p : Nat) : Nat := if p = 8 ∨ p = 9 then 2 else get s (R.SEC_PORT.AUTH p)

/-- A port's bound partition. -/
def boundPart (s : State) (p : Nat) : Nat := get s (R.SEC_PORT.PART p)

/-- An OPERATOR port, the firmware port or the BMC port. -/
def isOper (s : State) (p : Nat) : Bool := authOf s p = 2

/-- A TENANT port. -/
def isTenant (s : State) (p : Nat) : Bool := authOf s p = 1

/-! Events, notifications, faults (R582, R597, R598, R650). -/

/-- An event for the recorder, stamped now; none before the clock has started (R688). Events of one command
reach the queue together, when it ends (`finish`). -/
def recordAt (time code subj part arg : Nat) (s : State) : State :=
  if s.clk.started then { s with log := { s.log with fresh := s.log.fresh ++ [⟨code, subj, part, arg, time, subj ≠ 0x3F && confDie s subj⟩] } }
  else s

/-- An event of the package. -/
def record (code arg : Nat) (s : State) : State := recordAt (now s) code 0x3F 0x3F arg s

/-- An event of die d, with the partition that owns it. -/
def recordDie (code d arg : Nat) (s : State) : State := recordAt (now s) code d (ownerDie s d) arg s

/-- An event into the list of those of one command, by code and then subject (R597). -/
def insertEvent (e : Event) : List Event → List Event
  | [] => [e]
  | x :: t => if e.code < x.code ∨ (e.code = x.code ∧ e.subj < x.subj) then e :: x :: t else x :: insertEvent e t

/-- An event offered to the recorder queue of 64 entries (R597). -/
def queueEvent (e : Event) (s : State) : State :=
  if s.log.queue.length < 64 then { s with log := { s.log with queue := s.log.queue ++ [e] } }
  else s |> addSat R.REC_LOST.COUNT 1 |> event R.REC_EVENT 1

/-- The end of a command: its events enter the recorder queue in the order of R597. -/
def finish (s : State) : State :=
  each (s.log.fresh.foldl (fun l e => insertEvent e l) []) queueEvent { s with log := { s.log with fresh := [] } }

/-- The outcome of a command whose effect is the given state. -/
def done (s : State) : Host.Outcome State Fault Refusal := .next (finish s)

/-- The lowest bit of v that is 1 (0 where none is). -/
def lowestBit (v : Nat) : Nat := (bitList 32 v).headD 0

/-- A notification cause set for port p (R582, R583): the line of a host port is asserted when a first
enabled bit is set, the BMC port raises an in-band interrupt (R553). -/
def notify (b p : Nat) (s : State) : State :=
  let n := get s (R.CMD_NOTIFY p)
  let en := get s (R.CMD_NOTIFY_EN.EN p)
  if bit n b then s
  else
    let s := event (R.CMD_NOTIFY p) b s
    if bit en b then
      if p = 8 then when s.i3c.ibiEn (emit (.ibi b)) s
      else when (decide (p < 8 ∧ n &&& en = 0)) (emit (.notify p)) s
    else s

/-- A cause set for every port that a test admits. -/
def notifyAll (b : Nat) (t : Nat → Bool) (s : State) : State := each ((List.range 10).filter t) (notify b) s

/-- A bit of SAF_FAULT set: FAULT_N is asserted and every port that is not TENANT is notified (R582, R650). -/
def faultOn (b : Nat) (s : State) : State :=
  if bit (get s R.SAF_FAULT) b then s
  else s |> event R.SAF_FAULT b |> notifyAll 6 (fun p => !isTenant s p)

/-- A bit of SAF_FAULT released by the rule that names it (R650). -/
def faultOff (b : Nat) (s : State) : State := unevent R.SAF_FAULT b s

/-- n events counted by contributor c of the checkpoint-risk score (R604). -/
def countHealth (c n : Nat) (s : State) : State := addWrap (R.HLT_EVT.COUNT c) n s

/-- The configuration generation counts a change, and the digest is recomputed (R45, R445). -/
def bumpGen (s : State) : State :=
  { addWrap R.RNG_GEN.GEN 1 s with ring := { s.ring with busy := true } }

/-- The status of a violation of a kind: 2 VALUE is OUT_OF_RANGE, the others NOT_PERMITTED (R572). -/
def violStatus (kind : Nat) : Nat := if kind = 2 then 4 else 6

/-- A violation (R572 to R575): a repeat of the newest entry, the next entry with its notifications, or a
count of those lost. -/
def violation (port kind ofs opcode : Nat) (s : State) : State :=
  let n := get s R.CMD_VIOL_STAT.COUNT
  let i := n - 1
  if n ≠ 0 ∧ get s (R.CMD_VIOL.PORT i) = port ∧ get s (R.CMD_VIOL.KIND i) = kind ∧
      get s (R.CMD_VIOL.OFS i) = ofs % 2 ^ 22 ∧ get s (R.CMD_VIOL.OPCODE i) = opcode % 2 ^ 16 then
    addSat (R.CMD_VIOL.REPEAT i) 1 s
  else if n < 32 then
    s |> put (R.CMD_VIOL.OFS n) ofs |> put (R.CMD_VIOL.PORT n) port |> put (R.CMD_VIOL.KIND n) kind
      |> put (R.CMD_VIOL.OPCODE n) opcode |> put (R.CMD_VIOL.STATUS n) (violStatus kind)
      |> put (R.CMD_VIOL.REPEAT n) 0 |> put (R.CMD_VIOL.TIME n) (now s) |> put R.CMD_VIOL_STAT.COUNT (n + 1)
      |> notifyAll 7 (fun p => p = port || isOper s p)
  else addSat R.CMD_VIOL_STAT.LOST 1 s

/-! Commands in flight (R557 to R564). -/

/-- Status codes of R23. -/
def sOK : Nat := 0x00
def sBAD_OPCODE : Nat := 0x01
def sBAD_VERSION : Nat := 0x02
def sBAD_PARAM : Nat := 0x03
def sOUT_OF_RANGE : Nat := 0x04
def sNO_RESOURCE : Nat := 0x05
def sNOT_PERMITTED : Nat := 0x06
def sWRONG_STATE : Nat := 0x07
def sBUSY : Nat := 0x08
def sABORTED : Nat := 0x09
def sTIMEOUT : Nat := 0x0A
def sINTEGRITY : Nat := 0x0B
def sRESERVED : Nat := 0x0C
def sUNMET : Nat := 0x80

/-- A completion written to a port's completion queue (R556, R560), with CPL where the packet asked for it;
a command that firmware submitted has no queue (R557). -/
def writeCompletion (port tag opcode idx : Nat) (irq : Bool) (status r0 r1 : Nat) (s : State) : State :=
  if port < 9 then
    let t := get s (R.CMD_CQ_TAIL.TAIL port)
    let a := portArea port (0x340000 + 0x10 * (t % 256))
    s |> writeWord32 a (tag % 2 ^ 16 + status % 2 ^ 8 * 2 ^ 16)
      |> writeWord32 (a + 4) (opcode % 2 ^ 16 + idx % 2 ^ 8 * 2 ^ 16)
      |> writeWord32 (a + 8) (r0 % 2 ^ 32) |> writeWord32 (a + 12) (r1 % 2 ^ 32)
      |> put (R.CMD_CQ_TAIL.TAIL port) (t + 1)
      |> when irq (notify 0 port)
  else emit (.fwCompletion tag status (r0 % 2 ^ 32) (r1 % 2 ^ 32)) s

/-- The flights without that of a port and tag. -/
def dropFlight (port tag : Nat) (s : State) : State :=
  { s with host := { s.host with flights := s.host.flights.filter fun f => ¬ (f.port = port ∧ f.tag = tag) } }

/-- A command completes (R564): its flight ends and its completion is written. -/
def complete (fl : Flight) (status r0 r1 : Nat) (s : State) : State :=
  s |> dropFlight fl.port fl.tag |> writeCompletion fl.port fl.tag fl.opcode fl.sqIdx fl.irq status r0 r1

/-- The flight of a port and tag. -/
def flightOf (s : State) (port tag : Nat) : Option Flight :=
  s.host.flights.find? fun f => f.port = port && f.tag = tag

/-- The command of a port and tag completes, where it is in flight. -/
def completeAt (port tag status r0 r1 : Nat) (s : State) : State :=
  match flightOf s port tag with
  | some fl => complete fl status r0 r1 s
  | none => s

/-- The work of a command has begun and waits for a later event. -/
def markStarted (port tag : Nat) (s : State) : State :=
  { s with host := { s.host with flights := s.host.flights.map fun f =>
      if f.port = port ∧ f.tag = tag then { f with started := true } else f } }

/-- Result words kept with a flight until it completes. -/
def keepResult (port tag r0 r1 : Nat) (s : State) : State :=
  { s with host := { s.host with flights := s.host.flights.map fun f =>
      if f.port = port ∧ f.tag = tag then { f with r0 := r0, r1 := r1 } else f } }

/-- The cores run firmware: from stage FW on, not in BOOT_FAIL, and in a governor warm reset once its LOAD stage has ended,
unless it failed (R618, R620, R631). -/
def coresUp (s : State) : Bool :=
  decide (4 ≤ stage s ∧ stage s ≠ stFAIL) && !(s.boot.govRst && (!s.boot.loaded || get s R.BOOT_STAT.CAUSE = 5))

/-- Firmware is carrying out commands: no restart and no warm reset is in progress (R48, R563, R642). -/
def fwRuns (s : State) : Bool := coresUp s && !isOn s R.BOOT_STAT.AUTOPILOT && !s.boot.govRst

/-- The ROM carries out the group 0x0C commands of the BMC port: in BOOT_FAIL, and after a governor warm
reset that failed (R620, R631). -/
def romRuns (s : State) (opcode port : Nat) : Bool :=
  (stage s = 12 || (s.boot.govRst && get s R.BOOT_STAT.CAUSE = 5)) && opcode / 256 = 0x0C && port = 8

/-- An ORDERED command starts only after every earlier command of its port has completed (R559). -/
def orderedBlocked (s : State) (fl : Flight) : Bool :=
  fl.ordered && s.host.flights.any fun f => f.port = fl.port && decide (f.seq < fl.seq)

/-- The first check of a list that fails (R562). -/
def firstFail : List (Bool × Nat) → Option Nat
  | [] => none
  | (b, c) :: t => if b then some c else firstFail t

/-- Carrying out the command of an opcode that a port has in flight under a tag (log 11): its checks in the
order of R562, then its effect. Where no such command waits, firmware restarts, or an earlier command holds
an ORDERED one, nothing happens. -/
def command (opcode port tag : Nat) (s : State) (checks : Flight → List (Bool × Nat))
    (effect : Flight → State → State) : State :=
  match flightOf s port tag with
  | none => s
  | some fl =>
    if fl.opcode = opcode ∧ !fl.started ∧ (fwRuns s ∨ romRuns s opcode port) ∧ !orderedBlocked s fl then
      match firstFail (checks fl) with
      | some st => complete fl st 0 0 s
      | none => effect fl s
    else s

/-- Parameter word k of a packet, 0 beyond its length. -/
def par (fl : Flight) (k : Nat) : Nat := nth fl.params k

end Sys2Proof.Machine
end

