-- ==== Sys2Proof/Machine/Flags.lean ====
section
/-! DEFINITION. Sys2Proof/Machine/Flags.lean: the status fields that are computed when read, from state whose
home is elsewhere (`Field.view`), and the levels of the output pins that follow them. -/

namespace Sys2Proof.Machine

/-- The phases of rail r (R30). -/
def phasesOf (r : Nat) : List Nat :=
  if r < 16 then (List.range 10).map (10 * r + ·)
  else if r < 32 then (List.range 2).map (160 + 2 * (r - 16) + ·)
  else if r = 32 then (List.range 8).map (192 + ·) else []

/-- The rail of phase n (R30). -/
def railOfPhase (n : Nat) : Nat := if n < 160 then n / 10 else if n < 192 then 16 + (n - 160) / 2 else 32

/-- The die of rail r; 16 for VLINK (R29). -/
def dieOfRail (r : Nat) : Nat := if r < 32 then r % 16 else 16

/-- Whether rail r exists: VLINK always, a die's rails where the die is present (R29, R32). -/
def railFitted (s : State) (r : Nat) : Bool := r = 32 || (r < 32 && isPresent s (r % 16))

/-- Whether phase n is fitted (R32, R33). -/
def phaseFitted (s : State) (n : Nat) : Bool := n < 200 && railFitted s (railOfPhase n)

/-- The state of phase n, UNFITTED where it is (R122). -/
def phState (s : State) (n : Nat) : Nat := if phaseFitted s n then get s (R.PST_PH_STAT.STATE n) else 0

/-- SOFT, RUN, SHEDDING and SHED phases are available (R122). -/
def phAvail (c : Nat) : Bool := 2 ≤ c && c ≤ 5

/-- SOFT, RUN and SHEDDING phases switch (R122). -/
def phSwitching (c : Nat) : Bool := 2 ≤ c && c ≤ 4

/-- How many phases of rail r are in a state that a test admits. -/
def countPhases (s : State) (r : Nat) (t : Nat → Bool) : Nat := ((phasesOf r).filter fun n => t (phState s n)).length

/-- The excluded sensors of die d among those from lo to lo + n - 1. -/
def excludedIn (s : State) (d lo n : Nat) : List Nat :=
  ((List.range n).map (lo + ·)).filter fun i => isOn s (R.THM_SNS.EXCL (96 * d + i))

/-- The inbound mailbox of port p (R577). -/
def mbxInOf (s : State) (p : Nat) : List Nat := sget [] p s.host.mbxIn

/-- The outbound mailbox of port p: destinations and entries. -/
def mbxOutOf (s : State) (p : Nat) : List (Nat × Nat) := sget [] p s.host.mbxOut

/-- The queue that entry k of port p's HNG_QWIN shows (R492). -/
def shownQueue (s : State) (p k : Nat) : Nat := 64 * get s (R.HNG_QCUR.GROUP p) + k

/-- The counting resets whose ends lie within the ESC_S seconds in force (R480). -/
def inWindow (s : State) : Nat :=
  (s.recov.ends.filter fun t => s.us < t + s.recov.escS * 1000000).length

/-- Whether block k of CLK_GATE_STAT carries out an operation or an access, so that its clock runs (R83): the cores
while firmware, port 9, reads, and in stage FW, where firmware starts and applies the settings (R618, R631); a key-bus operation or a scrub; the recorder while events wait or a clear runs;
the walk or a reset sequence; a loop test. The other blocks work within one command. -/
def blockWorks (s : State) (k p : Nat) : Bool :=
  match k with
  | 0 => p = 9 || stage s = 4 || (s.boot.govRst && coresUp s)
  | 1 => (List.range 16).any fun q => (partOf s q).op.isSome || (partOf s q).scrub.isSome
  | 3 => !s.log.queue.isEmpty || s.log.clear.isSome
  | 4 => s.recov.due || s.recov.cur.isSome
  | 5 => s.test.running
  | _ => false

/-- M and F of die d at its fused grade (R299, R300). -/
def fusedMax (s : State) (d : Nat) : Nat := min 4095 (128 * get s (R.TOK_DIE_LIM.GRADE d))
def fusedFloor (s : State) (d : Nat) : Nat := cdiv (fusedMax s d) 32

/-- What a view shows. A gated block's bit is a free value, since R83 leaves it to the part (log 8). -/
def viewEval (s : State) : View → Nat
  | .clkGate k p => if isOn s R.CLK_CFG.GATE_DIS || blockWorks s k p then 1 else Config.freeValue (s.free + k) % 2
  | .failedPhases => ((List.range 200).filter fun n => phState s n = 7).length
  | .hiccupPhases => ((List.range 200).filter fun n => phState s n = 6).length
  | .railRun r => countPhases s r (· = 3)
  | .railAvail r => countPhases s r phAvail
  | .railFailed r => countPhases s r (· = 7)
  | .railShedBusy r => b2n ((phasesOf r).any fun n => phState s n = 4)
  | .holdLow => maskOf ((List.range 32).filter fun r => railFitted s r && get s (R.LPE_STAT.STATE r) = 4)
  | .holdHigh => b2n (get s (R.LPE_STAT.STATE 32) = 4)
  | .estActive => maskOf ((dies s).filter fun d => isOn s (R.EST_DIE_STAT.ACTIVE d))
  | .itnMismatch => maskOf ((dies s).filter fun d => isOn s (R.ITN_DIE_STAT.MISMATCH d))
  | .itnCut => maskOf ((dies s).filter fun d => isOn s (R.ITN_DIE_STAT.CUT d))
  | .itnColl => maskOf ((dies s).filter fun d => isOn s (R.ITN_DIE_STAT.COLLECTIVE d))
  | .deferPending => b2n (!s.capp.deferred.isEmpty)
  | .thmDegraded => maskOf ((dies s).filter fun d => isOn s (R.THM_DIE_STAT.DEGRADED d))
  | .thmLost => maskOf ((dies s).filter fun d => isOn s (R.THM_DIE_STAT.LOST d))
  | .stackStale => maskOf ((List.range (nStacks s)).filter fun n => isOn s (R.THM_STK.STALE n))
  | .dieExcluded d => (excludedIn s d 0 96).length
  | .exMap d w => maskOf ((List.range 32).filter fun i => isOn s (R.THM_SNS.EXCL (96 * d + 32 * w + i)))
  | .portInFlight p => (s.host.flights.filter fun f => f.port = p).length
  | .govInFlight => s.host.flights.length
  | .fwWait => b2n (!fwRuns s && s.host.flights.any fun f => !f.started)
  | .portNumber p => p
  | .portAuth p => get s (R.SEC_PORT.AUTH p)
  | .portPart p => get s (R.SEC_PORT.PART p)
  | .mbxIn p => (mbxInOf s p).length
  | .mbxInFull p => b2n ((mbxInOf s p).length ≥ 16)
  | .mbxOut p => (mbxOutOf s p).length
  | .mbxOutFull p => b2n ((mbxOutOf s p).length ≥ 16)
  | .hngPend => s.recov.pend.length
  | .qwinTap p i => sget 0 (shownQueue s p i) s.recov.taps
  | .qwinAge p i => sget 0 (shownQueue s p i) s.recov.ages
  | .qwinQueue p i => shownQueue s p i
  | .issueMax d => fusedMax s d
  | .issueFloor d => fusedFloor s d
  | .modelFree => 64 - ((List.range 16).map fun p => get s (R.SEC_PART_CFG.MODEL_KEYS p)).foldl (· + ·) 0
  | .confAny => b2n (confAny s)
  | .feedId => get s R.RNG_STAT2.FEED_ID
  | .escInWindow => min 255 (inWindow s)
  | .ringFrag => s.ring.digest % 2 ^ 64
  | .phState n => phState s n

/-- A field as the governor itself reads it: its view, or its cell. -/
def readField (s : State) (f : Field) : Nat :=
  match f.view with
  | some v => viewEval s v % 2 ^ f.w
  | none => get s f

/-- The level of SYNC_OUT a number of ROOT periods after the running switching period began: high for its first
half with SYNC_OUT_EN at 1, else held low (R116); in COAST the governor's own free-running phase (R71). -/
def syncOut (s : State) (roots : Nat) : Bool := isOn s R.PST_CTRL.SYNC_OUT_EN && decide (roots < s.clk.period / 2)

/-- FAULT_N is low while a bit of SAF_FAULT is 1, and in cold reset before stage FW; an unpowered governor releases it
(R650, R679). -/
def faultLow (s : State) : Bool := !s.pins.off && (get s R.SAF_FAULT ≠ 0 || stage s < 4)

/-- The level of HIF_NOTIFY[p]: high while a notification of the port stands that the port enables (R582, R583). -/
def hifNotify (s : State) (p : Nat) : Bool := decide (p < 8) && get s (R.CMD_NOTIFY p) &&& get s (R.CMD_NOTIFY_EN.EN p) ≠ 0

/-- What die d's agent has released of its die (R619, R629, R658): 2 the whole die, AGT_DIE_RST_N high; 1 in HEAT its tile
arrays and clock generator alone, so that it can issue warm-up filler; 0 nothing. -/
def dieRelease (s : State) (d : Nat) : Nat :=
  if !isPresent s d || dieInReset s d then 0 else if s.pins.pkgResetN then 2 else if stage s = 7 then 1 else 0

/-- The levels of AGT_DIE_RST_N, AGT_DBG_EN and AGT_PROF_EN of die d's agent (R529, R658). -/
def agtDieRstN (s : State) (d : Nat) : Bool := dieRelease s d = 2
def agtDbgEn (s : State) (d : Nat) : Bool := bit (get s R.SEC_DBG.DBG) d
def agtProfEn (s : State) (d : Nat) : Bool := bit (get s R.SEC_DBG.PROF) d

/-- FLASH_CLK in kHz: CCLK/12 (R621). -/
def flashKHz (s : State) : Nat := if clkState s = 3 then 25000 else 50000

/-- HIF_READY: low before stage FW, in BOOT_FAIL, and in a governor warm reset (R678, R679). -/
def hifReady (s : State) : Bool := 4 ≤ stage s && stage s < 12 && !s.boot.govRst

/-- The ROM serves group 0x0C from the BMC port: in BOOT_FAIL, and after a failed warm reset (R620, R631). -/
def romServes (s : State) : Bool := stage s = 12 || (s.boot.govRst && get s R.BOOT_STAT.CAUSE = 5)

end Sys2Proof.Machine
end

