-- ==== Sys2Proof/Machine/Frames.lean ====
section
/-! DEFINITION. Sys2Proof/Machine/Frames.lean: the frames of the agent links, what a receiver accepts, the stamps of
an agent, and the settings it holds (R28, R34, R37, R660 to R662). -/

namespace Sys2Proof.Machine

/-- TYPE codes (R661). -/
def tyIDLE : Nat := 0x00
def tyESTIMATE : Nat := 0x01
def tyINTENT : Nat := 0x02
def tyREPORT : Nat := 0x03
def tyTOKENS : Nat := 0x04
def tyBULK : Nat := 0x05
def tyGRANT : Nat := 0x11
def tyORDER : Nat := 0x12
def tySETTING : Nat := 0x13

/-- The classes of frames (R661). -/
inductive FrameClass where
  | estimate | urgent | bulk
deriving DecidableEq, Repr

/-- The class of a TYPE (R661). -/
def frameClass : Nat → FrameClass
  | 0x01 => .estimate
  | 0x02 => .urgent
  | 0x03 => .urgent
  | 0x04 => .urgent
  | 0x11 => .urgent
  | 0x12 => .urgent
  | _ => .bulk

/-- The largest LEN of a TYPE, in 8-byte units; none for a TYPE the table does not have (R661). -/
def largestLen : Nat → Option Nat
  | 0x00 => some 0
  | 0x01 => some 8
  | 0x02 => some 7
  | 0x03 => some 3
  | 0x04 => some 1
  | 0x05 => some 3
  | 0x11 => some 1
  | 0x12 => some 1
  | 0x13 => some 3
  | _ => none

/-- The header of a frame (R660). -/
def frameHead (ty len seq : Nat) : List Nat := [ty, len] ++ leBytes 2 seq

/-- A frame whole: header, payload, CRC-32 over both (R660). -/
def frameOf (ty seq : Nat) (payload : List Nat) : List Nat :=
  let b := frameHead ty (payload.length / 8) seq ++ payload
  b ++ leBytes 4 (crc32 b)

/-- LEN, SEQ and payload of received bytes (R660). -/
def frameLen (b : List Nat) : Nat := leAt b 1 1
def frameSeq (b : List Nat) : Nat := leAt b 2 2
def framePayload (b : List Nat) : List Nat := slice b 4 (8 * frameLen b)

/-- Bytes are a frame of a TYPE with a good CRC (R660, R661). -/
def frameGood (ty : Nat) (b : List Nat) : Bool :=
  let n := frameLen b
  leAt b 0 1 = ty && ((largestLen ty).any fun m => decide (n ≤ m)) && b.length = 8 + 8 * n
    && leAt b (4 + 8 * n) 4 = crc32 (b.take (4 + 8 * n))

/-- Whether a sequence number lies 1 to 32,767 ahead of the last accepted one (R662). -/
def seqAhead (last : Option Nat) (seq : Nat) : Bool :=
  match last with
  | none => true
  | some l => let k := (seq + 2 ^ 16 - l % 2 ^ 16) % 2 ^ 16; 1 ≤ k && k ≤ 32767

/-- A frame of die d's link arrives, down to the agent or up to the core: the first good copy of a new SEQ, on a
lane in service of a trained link, is accepted; every other is discarded (R37, R662, R664). Its sender has sent it: its
SEQ is the last sent where it lies ahead of that. -/
def acceptFrame (up : Bool) (ty d : Nat) (fr : Frame) (f : State → State) (s : State) : State :=
  let l := linkOf s d
  let q := frameSeq fr.bytes
  let sent (n : Nat) : Nat := if seqAhead (some n) q then q else n
  if !isPresent s d ∨ !l.trained ∨ l.lost ∨ 2 ≤ fr.lane ∨ bit l.laneLost fr.lane ∨ !frameGood ty fr.bytes then s
  else if up then
    if seqAhead l.upSeq q then f (setLink d { l with upSeq := some q, upSent := sent l.upSent } s) else s
  else if seqAhead l.downSeq q then f (setLink d { l with downSeq := some q, downSent := sent l.downSent } s)
  else s

/-- Die d's link carries frames both ways: it has trained and is not lost. -/
def linkUp (s : State) (d : Nat) : Bool := (linkOf s d).trained && !(linkOf s d).lost

/-- The SEQ that one end of die d's link sent last (R662). -/
def lastSent (up : Bool) (s : State) (d : Nat) : Nat := if up then (linkOf s d).upSent else (linkOf s d).downSent

/-- The idle frames before the next frame of one end of die d's link (R664; log 91). -/
def idleCount (up : Bool) (s : State) (d : Nat) : Nat := Config.idleFrames (b2n up) d (now s) (lastSent up s d)

/-- The SEQ of the next frame that one end of die d's link sends: idle frames are counted too (R662). -/
def nextSent (up : Bool) (s : State) (d : Nat) : Nat := (lastSent up s d + idleCount up s d + 1) % 2 ^ 16

/-- An idle frame (R661). -/
def idleFrame (seq : Nat) : List Nat := frameOf tyIDLE seq []

/-- A frame sent whole on both lanes of die d's link, behind the idle frames that came before it (R37, R662). -/
def sendFrame (up : Bool) (ty d : Nat) (payload : List Nat) (s : State) : State :=
  let l := linkOf s d
  let q := nextSent up s d
  s |> setLink d (if up then { l with upSent := q } else { l with downSent := q })
    |> emit (.idle up d ((lastSent up s d + 1) % 2 ^ 16) (idleCount up s d)) |> emit (.frame d (frameOf ty q payload))

/-- The payload of a frame that says what a list of numbers says: whole 8-byte units, at least one and at most the
largest of its TYPE (R660, R661; log 91). -/
def contentBytes (ty : Nat) (content : List Nat) : List Nat :=
  let m := (largestLen ty).getD 1
  let n := if m = 1 then 1 else 1 + Config.frameUnits ty content % m
  (List.range (8 * n)).map fun i => Config.frameByte ty content i % 256

/-- What one end of a link has to say: the TYPE and payload of its frame, and the order or report itself. -/
structure Msg where
  ty : Nat
  payload : List Nat
  out : Out

/-- A message whose payload R661 gives no layout. -/
def Msg.of (ty : Nat) (content : List Nat) (out : Out) : Msg := ⟨ty, contentBytes ty content, out⟩

/-- A message sent by one end of die d's link; none while the link is down (R34, R629). -/
def sendMsg (up : Bool) (d : Nat) (m : Msg) (s : State) : State :=
  if linkUp s d then s |> sendFrame up m.ty d m.payload |> emit m.out else s

/-- The order in which a lane sends waiting frames: by class, the highest first (R661). -/
def inClassOrder (l : List Msg) : List Msg :=
  l.filter (frameClass ·.ty = .estimate) ++ l.filter (frameClass ·.ty = .urgent) ++ l.filter (frameClass ·.ty = .bulk)

/-- Messages that wait together, sent by one end of die d's link (R661). -/
def sendMsgs (up : Bool) (d : Nat) (l : List Msg) (s : State) : State := each (inClassOrder l) (sendMsg up d) s

/-- The core sends down to die d's agent (R661). -/
def sendDown (ty d : Nat) (content : List Nat) (o : Out) (s : State) : State := sendMsg false d (.of ty content o) s

/-- Die d's agent sends up to the core (R661). -/
def sendUp (ty d : Nat) (content : List Nat) (o : Out) (s : State) : State := sendMsg true d (.of ty content o) s

/-- Die d's agent sends up, and the core accepts the frame: it carries the agent's next SEQ and a good CRC (R662). -/
def agentTells (ty d : Nat) (content : List Nat) (o : Out) (s : State) : State :=
  if linkUp s d then
    s |> sendUp ty d content o |> (fun s => setLink d { linkOf s d with upSeq := some (linkOf s d).upSent } s)
  else s

/-- A queue order to every present agent (R470, R481, R531, R661). -/
def sendOrder (kind ctx : Nat) (s : State) : State :=
  s |> emit (.queueOrder kind ctx) |> each (dies s) (fun d s =>
    if linkUp s d then sendFrame false tyORDER d (contentBytes tyORDER [kind, ctx]) s else s)

/-- Every agent acknowledges an order of a context or of a partition's scrub (R470, R531). -/
def allAcknowledge (order subject : Nat) (s : State) : State :=
  each (dies s) (fun d => agentTells tyBULK d [order, subject] (.acknowledge d order)) s

/-- An agent's stamp as the core's own count (R28). -/
def agentTime (s : State) (d stamp : Nat) : Nat := (linkOf s d).base + stamp

/-- The settings that the core sends to die d's agent (R34). -/
def agentFields (d : Nat) : List Field :=
  [R.FIL_CTRL.GLIDE_EN, R.FIL_CTRL.GLIDE, R.FIL_WARM.LEVEL, R.ITN_MM.MARGIN, R.ITN_MM.MM_N, R.ITN_MM.MM_CLR,
   R.ITN_SRC_CFG.SRC_EN d, R.ITN_SRC_CFG.STEP_SRC d, R.ITN_DRP_CFG.DEPTH, R.ITN_DRP_CFG.STRETCH_EN,
   R.ITN_DRP_MASK.SITE_DIS d] ++ (List.range 8).map R.CAP_HINT.CEIL

/-- The settings of die d as the core sends them (R34, R661). -/
def settingsMsg (s : State) (d : Nat) : Msg :=
  let v := (agentFields d).map (get s)
  .of tySETTING v (.settings d v)

/-- The settings sent to each agent that a write concerns (R34). -/
def settingsFollow (written : List Field) (s : State) : State :=
  each ((dies s).filter fun d => written.any fun f => decide (f ∈ agentFields d)) (fun d s => sendMsg false d (settingsMsg s d) s) s

/-- A setting as die d's agent has it: that of the core, or, in LINK_LOST, that of its entry (R34, R39). -/
def setting (s : State) (d : Nat) (f : Field) : Nat :=
  match (linkOf s d).held.find? fun e => e.1 = fieldKey f with
  | some e => e.2
  | none => get s f

/-! What an agent forms while its link is lost (R34, R39, R270; log 47). -/

/-- The registers that die d's agent forms and reports. -/
def agentShown (d : Nat) : List Field :=
  [R.ITN_DIE_CNT.ACCEPTED d, R.ITN_DIE_CNT.BAD d, R.ITN_DIE_CNT2.OVERFLOW d, R.ITN_DIE_CNT2.SRC_OFF d, R.ITN_MM_CNT.OVER d,
   R.ITN_MM_CNT.UNDER d, R.FIL_DIE_CNT.EPISODES d, R.ITN_DIE_STAT.CUT d, R.ITN_DIE_STAT.STRETCH d, R.ITN_DRP_STAT.FIRED d,
   R.ITN_DRP_STAT.FAILED d, R.ITN_STEP.LAST d, R.ITN_STEP_WAIT.NS d, R.ITN_STEP_LEN.US d]

/-- A field as die d's agent has it. -/
def agentGet (s : State) (d : Nat) (f : Field) : Nat :=
  if (linkOf s d).lost then
    match (linkOf s d).own.find? fun e => e.1 = fieldKey f with
    | some e => e.2
    | none => get s f
  else get s f

/-- A field that die d's agent forms: shown by the core, or kept by the agent while its link is lost. -/
def agentPut (d : Nat) (f : Field) (v : Nat) (s : State) : State :=
  let l := linkOf s d
  if l.lost then setLink d { l with own := (l.own.filter fun e => e.1 ≠ fieldKey f) ++ [(fieldKey f, v)] } s else put f v s

/-- A saturating count of die d's agent, one more. -/
def agentAdd (d : Nat) (f : Field) (s : State) : State := agentPut d f (min (2 ^ f.w - 1) (agentGet s d f + 1)) s

/-- What the core does as die d's agent reports it: nothing while the link is lost. -/
def heard (d : Nat) (f : State → State) (s : State) : State := when (!(linkOf s d).lost) f s

end Sys2Proof.Machine
end

