-- ==== Sys2Proof/Machine/Limits.lean ====
section
/-! DEFINITION. Sys2Proof/Machine/Limits.lean: token quantities in the clock state in force, the limits that
bound a die's tokens, and how the core forms and sends its budget (R74, R77, R299, R300, R333 to R351). -/

namespace Sys2Proof.Machine

/-- A per-slot token quantity in the clock state in force (R74, R77). -/
def scaleTok (s : State) (v : Nat) : Nat :=
  if clkState s = 3 then min 4095 (2 * v)
  else if clkState s = 4 then min 4095 (v * s.clk.slotPs / 100000)
  else v

/-- A floor in the clock state in force: rounded up in RELOCK (R77). -/
def scaleUp (s : State) (v : Nat) : Nat :=
  if clkState s = 4 then min 4095 (cdiv (v * s.clk.slotPs) 100000) else scaleTok s v

/-- A slew in the clock state in force: at least 1 token per slot (R77). -/
def scaleSlew (s : State) (v : Nat) : Nat := max 1 (scaleTok s v)

/-- The maximum issue M of die d in force (R299). -/
def maxIssue (s : State) (d : Nat) : Nat := scaleTok s (fusedMax s d)

/-- The issue floor F of die d in force (R300). -/
def floorIssue (s : State) (d : Nat) : Nat := scaleUp s (fusedFloor s d)

/-- KTOK of die d with a per-slot token count (R271). -/
def ktok (s : State) (d : Nat) : Nat :=
  let k := get s (R.ITN_KTOK.KTOK d)
  if coasting s then (roundDiv (k * 100000) s.clk.slotPs).toNat else k

/-- rnd of R168. -/
def rnd (x : Int) (n : Nat) : Int := if n = 0 then x else sar (x + 2 ^ (n - 1)) n

/-- How many phases rail r has (R30, R32). -/
def fitted (s : State) (r : Nat) : Nat := if railFitted s r then (phasesOf r).length else 0

/-- N_avail of R341: fitted phases but those whose 1/N is withheld (R126). -/
def navail (s : State) (r : Nat) : Nat :=
  fitted s r - ((phasesOf r).filter fun n => phaseFitted s n && (phaseOf s n).withheld).length

/-- The latest voltage of rail r in codes. -/
def vmeas (s : State) (r : Nat) : Nat := get s (R.LPE_V.VMEAS r)

/-- The latest current of rail r in 1/256 A (R117). -/
def irail (s : State) (r : Nat) : Int := (railOf s r).irail

/-- The mean VMEAS of die d's VCORE rail over the last estimator cycle, the latest where it held no evaluation. -/
def meanCore (s : State) (d : Nat) : Nat :=
  let c := capOf s d
  if c.evPrev = 0 then vmeas s d else (2 * nth c.vPrev 0 + c.evPrev) / (2 * c.evPrev)

/-- V(d) of R336. -/
def dieVolt (s : State) (d : Nat) : Nat := max (get s (R.LPE_REF.TARGET d)) (meanCore s d)

/-- Vmax of R336. -/
def vmax (s : State) : Nat := (dies s).foldl (fun a d => max a (dieVolt s d)) 1

/-- The token bound of a core-current allowance of 1/256 A (R334). A KTOK of 0 states none: a free value. -/
def boundOf (s : State) (d : Nat) (i : Int) : Nat :=
  let m := maxIssue s d
  let k := ktok s d
  if k = 0 then min m (fresh s) else min m (((i - (itnOf s d).ibase) * 256).fdiv k).toNat

/-- A limit of die d's VCORE rail in A, derated by its withheld phases, as the nearest code of 1/256 A (R12,
R126, R341). -/
def derated (s : State) (d l : Nat) : Nat :=
  let n := fitted s d
  if n = 0 then 0 else (roundDiv (l * 256 * navail s d : Nat) n).toNat

/-- L_EDC in force in 1/256 A (R340, R341). -/
def edcLimit (s : State) (d : Nat) : Nat :=
  derated s d (if isOn s (R.CAP_DIE_EDC2.STATE d) then get s (R.CAP_DIE_EDC.CONT d) else get s (R.CAP_DIE_EDC.PEAK d))

/-- B_EDC (R341). -/
def edcBound (s : State) (d : Nat) : Nat := boundOf s d (edcLimit s d)

/-- B_BROWN (R354). -/
def brownBound (s : State) (d : Nat) : Nat :=
  let st := get s R.CAP_BROWN_STAT.STATE
  if st = 0 then maxIssue s d
  else if st = 1 then max (floorIssue s d) (get s R.CAP_BROWN.LEVEL * maxIssue s d / 32)
  else floorIssue s d

/-- B_THERM (R405, R411). -/
def thermBound (s : State) (d : Nat) : Nat :=
  if isOn s (R.THM_DIE_STAT.LOST d) then 0
  else if isOn s (R.THM_DIE_STAT.LOOP d) then boundOf s d (sget 0 d s.therm.lth)
  else maxIssue s d

/-- The die cap in force in mW; 0xFFFF_FFFF is none (R348). -/
def dieCap (s : State) (d : Nat) : Nat :=
  if get s R.CAP_MODE.MODE = 2 then min (get s (R.CAP_DIE_CAP.CAP d)) (get s (R.CAP_DIE_FP.TARGET d))
  else get s (R.CAP_DIE_CAP.CAP d)

/-- The core current that a die cap leaves, to the nearest 1/256 A (R12, R348). -/
def capCurrent (s : State) (d : Nat) : Int := roundDiv (((dieCap s d : Int) - (capOf s d).pMem) * 2048) (max 1 (dieVolt s d))

/-- B_HOST (R348). -/
def hostBound (s : State) (d : Nat) : Nat :=
  if dieCap s d = 0xFFFFFFFF then maxIssue s d else boundOf s d (capCurrent s d)

/-- A die's mean total issue per slot over the last estimator cycle, as a quotient (R342). -/
def meanIssue (s : State) (d : Nat) : Nat × Nat :=
  let t := tokOf s d
  if t.tot.2 = 0 then (t.total, 1) else t.tot

/-- The mean issue times a quotient of two numbers, rounded down; the maximum where the divisor is not
positive. -/
def shareIssue (s : State) (d num : Nat) (den : Int) : Nat :=
  let (n, m) := meanIssue s d
  if den ≤ 0 then maxIssue s d else n * num / (m * den.toNat)

/-- B_MEM (R342). -/
def memBound (s : State) (d : Nat) : Nat :=
  let l := get s (R.CAP_DIE_MEM.MEM_LIM d) * 256 * navail s (16 + d)
  let i := (capOf s d).iMem
  if (l : Int) < i * 2 then shareIssue s d l (2 * i) else maxIssue s d

/-- B_LINK (R342). -/
def linkBound (s : State) (d : Nat) : Nat :=
  let l := get s R.CAP_LINK_LIM.LIM * 256 * navail s 32
  let i := s.capp.iLink
  if (l : Int) < i * 8 then shareIssue s d l (8 * i) else maxIssue s d

/-- The bounds on die d by reason code (R335, R374): EDC, THERM, HOST, BROWN, then CLASS of memory, links and
R351; the last comes from the sharing of the estimator cycle. -/
def boundsOf (s : State) (d cls : Nat) : List (Nat × Nat) :=
  [(0, edcBound s d), (2, thermBound s d), (5, hostBound s d), (6, brownBound s d), (7, memBound s d),
   (7, linkBound s d), (7, cls)]

/-- The lowest bound with its reason, the earlier reason on ties. -/
def lowest (m : Nat) (l : List (Nat × Nat)) : Nat × Nat :=
  l.foldl (fun a e => if e.2 < a.2 then e else a) (31, m)

/-- The rail of die d is LOST (R130). -/
def dieLost (s : State) (d : Nat) : Bool := isOn s (R.PST_RAIL_STAT.LOST d) || isOn s (R.PST_RAIL_STAT.LOST (16 + d))

/-- A rail of die d is in HOLD (R184). -/
def dieHold (s : State) (d : Nat) : Bool := get s (R.LPE_STAT.STATE d) = 4 || get s (R.LPE_STAT.STATE (16 + d)) = 4

/-- The class bound last formed for die d (R351). -/
def classBound (s : State) (d : Nat) : Nat := ((capOf s d).bounds[6]?).getD (maxIssue s d)

/-- The entry of a source that covers slot k. -/
def covering (p : Prof) (src k : Nat) : Option Entry :=
  p.entries.find? fun e => e.src = src && e.first ≤ k && k ≤ e.last

/-- The latest entry of a source whose last slot has passed by slot k. -/
def passedEntry (p : Prof) (src k : Nat) : Option Entry :=
  (p.entries.filter fun e => e.src = src && decide (e.last < k)).getLast?

/-- The phase tag of die d in slot k as a profile has it: with no entry over the slot, that of the last entry to
have passed, or the standing one (R262, R266). -/
def phaseTag (s : State) (d : Nat) (p : Prof) (k : Nat) : Nat :=
  let src := setting s d (R.ITN_SRC_CFG.STEP_SRC d)
  match covering p src k, passedEntry p src k with
  | some e, _ => e.ptag
  | none, some e => e.ptag
  | none, none => nth p.ptags src

/-- The step tag of die d in slot k as a profile has it (R266). -/
def stepTag (s : State) (d : Nat) (p : Prof) (k : Nat) : Nat :=
  let src := setting s d (R.ITN_SRC_CFG.STEP_SRC d)
  match covering p src k with
  | some e => e.step
  | none => nth p.lastStep src

/-- A phase tag's preferred OP on die d (R363). -/
def preferred (s : State) (d tag : Nat) : Nat :=
  min (get s (R.CAP_HINT.OP tag)) (get s (R.CAP_DIE_OP.N_OP d) - 1)

/-- A phase tag's token ceiling on die d (R363). -/
def ceiling (s : State) (d tag : Nat) : Nat := min (maxIssue s d) (scaleTok s (setting s d (R.CAP_HINT.CEIL tag)))

/-- The highest OP of a decision of die d (R364, R366). -/
def topOp (s : State) (d : Nat) : Nat :=
  min (get s (R.CAP_DIE_OP.MAX d)) (preferred s d (phaseTag s d (itnOf s d).core (tokOf s d).slot))

/-! Throttle reasons (R374, R375). -/

/-- The reasons active on die d: the bits of CAP_DIE_THR, CAP_THR_ACT over every die, and the start stamps of
those newly active. A member's reason RING counts for its slot of the superframe (R432). -/
def setReasons (d v : Nat) (s : State) : State :=
  let anyDie (s : State) : Nat := (List.range 16).foldl (fun a x => a ||| get s (R.CAP_DIE_THR.ACTIVE x)) 0
  let old := anyDie s
  let s := put (R.CAP_DIE_THR.ACTIVE d) v s
  let act := anyDie s
  s |> when (bit act 4) (fun s => { s with ring := { s.ring with limited := true } }) |> put R.CAP_THR_ACT.ACTIVE act
    |> each ((List.range 16).filter fun n => bit act n && !bit old n) (fun n => put (R.CAP_THR_START.TIME n) (now s))

/-- A fitted phase of rail r is in a state that is not available (R122). -/
def anyUnavailable (s : State) (r : Nat) : Bool :=
  (phasesOf r).any fun n => phaseFitted s n && !phAvail (phState s n)

/-- Reasons 9 to 15 of die d, which hold while their condition does (R374). -/
def heldReasons (s : State) (d : Nat) : Nat :=
  maskOf (((List.range 16).filter (9 ≤ ·)).filter fun n =>
    match n with
    | 9 => isOn s (R.ITN_DIE_STAT.CUT d)
    | 10 => isOn s (R.ITN_DIE_STAT.MISMATCH d)
    | 11 => bit s.capp.unreach d || bit s.capp.unreach 16
    | 12 => anyUnavailable s d || anyUnavailable s (16 + d)
    | 13 => get s (R.LPE_STAT.STATE d) = 4 || get s (R.LPE_STAT.STATE (16 + d)) = 4
    | 14 => (linkOf s d).lost
    | _ => (capOf s d).capped && decide (get s (R.CAP_DIE_OP.CUR d) < topOp s d))

/-- The held reasons of die d formed again. -/
def showReasons (d : Nat) (s : State) : State :=
  setReasons d (get s (R.CAP_DIE_THR.ACTIVE d) % 2 ^ 9 ||| heldReasons s d) s

/-- Die d's budget formed and sent (R34, R335): 0 with a LOST rail (R130), the floor in HOLD, in LINK_LOST and
while a configuration scan fails (R39, R184, R649). -/
def sendBudget (d cls : Nat) (s : State) : State :=
  let l := boundsOf s d cls
  let m := maxIssue s d
  let f := floorIssue s d
  let (code, b) := lowest m l
  let v := if dieLost s d then 0
    else if dieHold s d || (linkOf s d).lost || s.boot.scanBad then f
    else min m (max f b)
  s |> setCap d { capOf s d with bounds := l.map (·.2) } |> put (R.CAP_DIE_BUD.BUDGET d) v |> put (R.CAP_DIE_BUD.BIND d) code
    |> sendDown tyGRANT d [1, v] (.budget d v)

/-- The budget of die d formed again at once (R128, R130, R184, R39). -/
def refit (d : Nat) (s : State) : State :=
  if isPresent s d then s |> sendBudget d (classBound s d) |> showReasons d else s

/-- The budgets that rail r's limit bears on (R126, R128): its die's, or every die's for VLINK. -/
def refitRail (r : Nat) (s : State) : State := if r = 32 then each (dies s) refit s else refit (r % 16) s

/-- The slews and the floor of die d as they are in the clock state in force (R74, R77, R307). -/
def slewsMsg (s : State) (d : Nat) : Msg :=
  let r := scaleSlew s (get s (R.TOK_SLEW.RISE d))
  let f := scaleSlew s (get s (R.TOK_SLEW.FALL d))
  .of tyGRANT [2, r, f] (.slews d r f)
def floorMsg (s : State) (d : Nat) : Msg := .of tyGRANT [3, floorIssue s d] (.floorTok d (floorIssue s d))

/-- The slews of die d sent to its agent over a link in service, as they are in the clock state in force; the agent
has them from the next slot boundary, in LOCKED units (R34, R74, R77, R307). -/
def sendSlews (d : Nat) (s : State) : State :=
  if isPresent s d && linkUp s d then
    s |> setTok d { tokOf s d with slewNext := some (get s (R.TOK_SLEW.RISE d), get s (R.TOK_SLEW.FALL d)) }
      |> sendMsg false d (slewsMsg s d)
  else s

/-- Slews and floor of die d sent (R74, R307), with whatever waits beside them (R661). -/
def sendTokensWith (l : List Msg) (d : Nat) (s : State) : State :=
  if isPresent s d && linkUp s d then
    s |> setTok d { tokOf s d with slewNext := some (get s (R.TOK_SLEW.RISE d), get s (R.TOK_SLEW.FALL d)),
                                   floorNext := some (fusedFloor s d) }
      |> sendMsgs false d (l ++ [slewsMsg s d, floorMsg s d])
  else s

/-- Slews and floor of die d sent (R74, R307). -/
def sendTokens (d : Nat) (s : State) : State := sendTokensWith [] d s

/-- The frequency of the operating point that die d moves to (R360). -/
def targetMHz (s : State) (d : Nat) : Nat := get s (R.CAP_OPT.F (16 * d + get s (R.CAP_DIE_OP.TGT d)))
def frequencyMsg (s : State) (d : Nat) : Msg := .of tySETTING [targetMHz s d] (.frequency d (targetMHz s d))

/-- All that die d's agent holds of the core sent as its link comes up: the settings, the frequency of a change that
waits for it, the slews and the floor (R34, R40, R360). -/
def sendHeld (d : Nat) (s : State) : State :=
  sendTokensWith (settingsMsg s d :: (if (capOf s d).change = 2 ∨ (capOf s d).change = 3 then [frequencyMsg s d] else [])) d s

/-- Slews and floors sent to every agent for the clock state in force (R74, R307). -/
def resendTokens (s : State) : State := each (dies s) sendTokens s

/-! The package pool (R343 to R351). -/

/-- The converters that take part (R148). -/
def convIn (s : State) : List Nat := (List.range 8).filter fun c => isOn s (R.PST_PMB_CONV.EN c)

/-- IIN_EFF in A (R343). -/
def iinEff (s : State) : Nat :=
  let l := get s R.CAP_PKG_ILIM.IIN_LIM
  let n := (convIn s).length
  let k := ((convIn s).filter fun c => isOn s (R.PST_PMB_STAT.CONV_FAULT c)).length
  if n = 0 then l else l * (n - k) / n

/-- IIN_EFF shown again; a change is CONV_DERATE (R343). -/
def refreshIin (s : State) : State :=
  let i := iinEff s
  if get s R.CAP_IIN_EFF.IIN = i then s else s |> put R.CAP_IIN_EFF.IIN i |> event R.CAP_EVENT 6

/-- pool_PKG in 1/256 A (R344). -/
def poolPkg (s : State) : Int :=
  let rails := (dies s).map (16 + ·) ++ [32]
  let vi := rails.foldl (fun a r => a + (vmeas s r : Int) * irail s r) (0 : Int)
  ((iinEff s * get s R.PST_VIN.VIN * get s R.CAP_PKG_CFG.EFF : Nat) - 256 * vi : Int).fdiv (256 * vmax s)

/-- P_lim in mW and what sets it: 0 A_avg, 1 L_RING, 2 the package cap (R350). -/
def powerLimit (s : State) : Int × Nat :=
  let l : List (Int × Nat) := [(s.capp.aAvg, 0)]
    ++ (if get s R.CAP_RING.BUDGET = 0xFFFFFFFF then [] else [((get s R.CAP_RING.BUDGET : Int), 1)])
    ++ (if get s R.CAP_PKG_CAP.CAP = 0xFFFFFFFF then [] else [((get s R.CAP_PKG_CAP.CAP : Int), 2)])
  l.foldl (fun a e => if e.1 < a.1 then e else a) (s.capp.aAvg, 0)

/-- The ask of die d for the slot after the one in progress (R310, R313). The hint ceiling of the die's phase
tag is an argument, and so is the rise slew. -/
def askOf (s : State) (d ceil rise : Nat) : Nat :=
  let t := tokOf s d
  let m := maxIssue s d
  let b := min (get s (R.CAP_DIE_BUD.BUDGET d)) (min (edcBound s d) (brownBound s d))
  let j := t.slot + 1 - t.repSlot
  max (floorIssue s d) (min m (min b (min ceil (t.repLast + j * rise))))

/-- The demands of compute, memory and links in mW (R350). -/
def classDemand (s : State) : List Int :=
  let comp := (dies s).foldl (fun (a : Int) d =>
    a + (dieVolt s d : Int) * ((itnOf s d).ibase * 256 + (ktok s d * (tokOf s d).ask : Nat))) 0
  let mem := (dies s).foldl (fun (a : Int) d => a + (capOf s d).pMem) 0
  [divZ comp 524288, mem, s.capp.pLink]

/-- One pass of R350 over the classes in order: a want by class, what is left, what each holds. -/
def givePass (want : Nat → Int → Int) (avail : Int) (give : List Int) : List Nat → Int × List Int
  | [] => (avail, give)
  | c :: t =>
    let x := want c avail
    givePass want (avail - x) (give.set c (nthI give c + x)) t

/-- What the classes are given in mW (R350). -/
def classGive (s : State) : List Int :=
  let dem := classDemand s
  let o := get s R.CAP_CLASS.ORDER
  let order := [bits o 0 2, bits o 2 2, bits o 4 2]
  let fl : List Int := [(get s R.CAP_CLASS_FLOOR.COMP : Int) * 1000, (get s R.CAP_CLASS_FLOOR.MEM : Int) * 1000,
    (get s R.CAP_CLASS_FLOOR.LINK : Int) * 1000]
  let avail := divZ (((powerLimit s).1 - (get s R.CAP_PKG_CFG.P_FIXED : Int) * 1000) * get s R.CAP_PKG_CFG.EFF) 65536
  let (a1, g1) := givePass (fun c _ => min (nthI dem c) (nthI fl c)) avail [0, 0, 0] order
  let (a2, g2) := givePass (fun c a => min (nthI dem c - nthI g1 c) (max 0 a)) a1 g1 order
  g2.set 0 (nthI g2 0 + max 0 a2)

/-- pool_POW in 1/256 A (R351). -/
def poolPow (s : State) (give : List Int) : Int := (nthI give 0 * 2048).fdiv (vmax s)

/-- B_CLASS of die d (R351). -/
def classOf (s : State) (d : Nat) (give : List Int) : Nat :=
  let dem := classDemand s
  let one := fun c : Nat => if nthI give c < nthI dem c then shareIssue s d (nthI give c).toNat (nthI dem c) else maxIssue s d
  min (one 1) (one 2)

end Sys2Proof.Machine
end

