-- ==== Sys2Proof/Machine/Profile.lean ====
section
/-! DEFINITION. Sys2Proof/Machine/Profile.lean: the intent profile of a die read slot by slot, the current it
predicts, and the rise slew in force (R259, R263 to R277, R282, R306). -/

namespace Sys2Proof.Machine

/-- H of R259: whole slots within 4 µs. -/
def horizonLen (s : State) : Nat := if coasting s then 4000000 / s.clk.slotPs else 40

/-- The level of a source in slot k, as the profile stands in slot cur (R262, R263). -/
def levelAt (p : Prof) (src cur k : Nat) : Nat :=
  match covering p src k, passedEntry p src cur with
  | some e, _ => e.level
  | none, some e => e.level
  | none, none => nth p.standing src

/-- P(k) of die d from a profile (R263, R259). -/
def predicted (s : State) (d : Nat) (p : Prof) (k : Nat) : Nat :=
  min (maxIssue s d) (((bitList 8 (setting s d (R.ITN_SRC_CFG.SRC_EN d))).map fun i =>
    scaleTok s (16 * levelAt p i (tokOf s d).slot k)).foldl (· + ·) 0)

/-- Whether no entry covers a slot of the horizon (R264). -/
def horizonEmpty (s : State) (d : Nat) (p : Prof) : Bool :=
  let k := (tokOf s d).slot
  p.entries.all fun e => e.last < k || k + horizonLen s < e.first

/-- Whether the core treats die d's horizon as empty (R265, R629). -/
def useEmpty (s : State) (d : Nat) : Bool :=
  horizonEmpty s d (itnOf s d).core || !isOn s R.ITN_CTRL.USE_EN || (linkOf s d).lost ||
    isOn s (R.ITN_DIE_STAT.MISMATCH d) || dieInReset s d

/-- ITN_DIE_STAT.EMPTY shown again (R265). -/
def showEmpty (d : Nat) (s : State) : State := putB (R.ITN_DIE_STAT.EMPTY d) (useEmpty s d) s

/-- A current of ibase and a token count (R272, R273). -/
def tokenCurrent (s : State) (d g : Nat) : Int :=
  satI ((itnOf s d).ibase + rnd (ktok s d * g : Nat) 8) 24

/-- ia(k) of R272, k slots from the current one. -/
def announced (s : State) (d k : Nat) : Int :=
  tokenCurrent s d (predicted s d (itnOf s d).core ((tokOf s d).slot + k))

/-- The largest of a list of currents, the first one's at least; 0 of none. -/
def maxI (l : List Int) : Int :=
  match l with
  | [] => 0
  | x :: t => t.foldl max x

/-- IMAX of R275. -/
def imax (s : State) (d : Nat) : Int := maxI ((List.range (horizonLen s + 1)).map (announced s d))

/-- The fall slew that an agent holds, in the clock state in force. -/
def fallSlew (s : State) (d : Nat) : Nat := scaleSlew s (tokOf s d).fall

/-- rise_eff of R306: the smallest of the programmed rise and its reductions by R129, R282, R283 and R293, each at least 1,
in the clock state in force. -/
def riseEff (s : State) (d : Nat) : Nat :=
  let r := (tokOf s d).rise
  let n := fitted s d
  let run := countPhases s d (· = 3)
  let a := if n ≠ 0 ∧ run < n then min r (max 1 (r * run / n)) else r
  let b := if isOn s (R.ITN_DIE_STAT.MISMATCH d) ∨ agentGet s d (R.ITN_DIE_STAT.BLIND d) ≠ 0 then
      min a (max 1 (r * get s R.ITN_MM2.RISE_FRAC / 16)) else a
  scaleSlew s b

/-- The budget an agent holds: scaled to each slot of RELOCK from the slot it was formed for (R77), clamped to M
(R299). -/
def heldBudget (s : State) (d : Nat) : Nat :=
  let t := tokOf s d
  min (maxIssue s d) (if clkState s = 4 then min 4095 (t.budget * s.clk.slotPs / max 1 t.budgetPs) else t.budget)

/-- Issue of every die is asked to fall to F: on the way to G1 or G2 and to a power-down for a request, and in
them (R632, R636). -/
def fallAsked (s : State) : Bool := s.boot.change ≠ 1 && (s.boot.change ≠ 0 || get s R.BOOT_STAT.GSTATE ≠ 0)

/-- The budget that an agent applies: F without its link (R39) and while issue is asked to fall. -/
def appliedBudget (s : State) (d : Nat) : Nat :=
  if (linkOf s d).lost ∨ fallAsked s then floorIssue s d else heldBudget s d

/-- G(k) of R273, from k = 0 on; the grant of a slot in which the cut held is F (R287). -/
def shaped (s : State) (d : Nat) : Nat → Nat
  | 0 => if isOn s (R.ITN_DIE_STAT.CUT d) || (tokOf s d).cutSlot then floorIssue s d else (tokOf s d).grant
  | k + 1 =>
    let g := shaped s d k
    let lo := g - fallSlew s d
    let hi := min (appliedBudget s d) (g + riseEff s d)
    min (max (predicted s d (itnOf s d).core ((tokOf s d).slot + k + 1)) lo) hi

/-- The part of the current slot that has passed, in ps. -/
def slotElapsed (s : State) (d : Nat) : Nat := (now s - (tokOf s d).slotAt) * s.clk.slotPs / 10

/-- ipred of R274 for a lead in ns. -/
def predictedLead (s : State) (d lead : Nat) : Int :=
  let k := min (horizonLen s) ((slotElapsed s d + lead * 1000) / s.clk.slotPs)
  tokenCurrent s d (shaped s d k)

/-- The pre-emphasis target of R277 against a rail current: dx an int24, the target an int16. -/
def preEmphasis (s : State) (d : Nat) (irail : Int) : Int :=
  if !isOn s R.ITN_CTRL.PE_EN ∨ useEmpty s d then 0
  else
    let e := slotElapsed s d + get s R.ITN_PE2.WIN_NS * 1000
    let win := (List.range (horizonLen s + 1)).filter fun k => k * s.clk.slotPs < e
    match win with
    | [] => 0
    | _ =>
      let dx := wrapI 24 (max 0 (maxI (win.map (announced s d)) - irail))
      wrapI 16 (min (get s R.ITN_PE.PE_MAX : Int) (sar (dx * get s R.ITN_PE.KPE + 32768) 16))

end Sys2Proof.Machine
end

