-- ==== Sys2Proof/Machine/Operands.lean ====
section
/-! DEFINITION. Sys2Proof/Machine/Operands.lean: how the offset of an access finds its fields or its window
(R15, R681, R682, R685, R686), and what a port reads there: the rules of authority, of foreign resources
(R503, R548), and of coarsened readings (R525 to R527). -/

namespace Sys2Proof.Machine

/-- The fields of the instances that cover an offset, as port p sees them. -/
def fieldsNear (p off : Nat) : List Field :=
  allGroups.flatMap fun g =>
    if g.base ≤ off ∧ off < g.base + g.stride * g.count then g.fields p ((off - g.base) / g.stride) else []

/-- Whether a field has bits in the word at an offset. -/
def inWord (off : Nat) (f : Field) : Bool :=
  f.off ≤ off && 8 * (off - f.off) < f.lo + f.w && f.lo < 8 * (off - f.off) + 32

/-- The fields of the word at an offset: none where no register is assigned to it (R682). -/
def fieldsAt (p off : Nat) : List Field := (fieldsNear p off).filter (inWord off)

/-- The value that a write of the word at an offset carries for one of its fields. -/
def carried (off value : Nat) (f : Field) : Nat := bits value (f.lo - 8 * (off - f.off)) f.w

/-- The words of RNG_DIG_OUT and CTX_CAP_HDR that hold reserved bits alone (R454, R491, R685). -/
def reservedWord (off : Nat) : Bool :=
  decide (0x0D0800 ≤ off ∧ off < 0x0D0A80 ∧ 0x34 ≤ off % 0x40) || decide (0x0E0600 ≤ off ∧ off < 0x0E0800 ∧ 0x14 ≤ off % 0x20)

/-- Whether a register is assigned to an offset: some field's word, or a reserved word of a register. -/
def assigned (p off : Nat) : Bool := !(fieldsAt p off).isEmpty || reservedWord off

/-- A field's value placed in the word at an offset. -/
def placed (off : Nat) (f : Field) (v : Nat) : Nat := (((v % 2 ^ f.w) <<< f.lo) >>> (8 * (off - f.off))) % 2 ^ 32

/-- The low word of a 64-bit register (R19). -/
def isLow64 (p off : Nat) : Bool :=
  (fieldsAt p off).any fun f => f.off = off && decide (32 < f.lo + f.w ∧ f.lo + f.w ≤ 64)

/-- The high word of a 64-bit register (R19). -/
def isHigh64 (p off : Nat) : Bool := 4 ≤ off && isLow64 p (off - 4)

/-! Confidential readings. -/

/-- A 16-bit temperature rounded down to a multiple of 64 codes (R526). -/
def coarseTemp (v : Nat) : Nat := ofSigned 16 (toSigned 16 v - toSigned 16 v % 64)

/-- Offsets of the per-die registers that read 0 for a die of a confidential partition (R526 and the register
sections of the estimator, intent, token, cap and thermal chapters), with the die. -/
def confZeroDie (off : Nat) : Option Nat :=
  if 0x061000 ≤ off ∧ off < 0x061800 then (if 0x10 ≤ off % 0x80 then some ((off - 0x061000) / 0x80) else none)
  else if 0x080400 ≤ off ∧ off < 0x080800 then
    (if (off % 0x40) ∈ [0x0C, 0x10, 0x1C, 0x34, 0x38, 0x3C] then some ((off - 0x080400) / 0x40) else none)
  else if 0x080C00 ≤ off ∧ off < 0x081000 then
    (if 0x0C ≤ off % 0x40 then some ((off - 0x080C00) / 0x40) else none)
  else if 0x0A1000 ≤ off ∧ off < 0x0A1400 then
    (if (off % 0x40) ∈ [0x18, 0x1C, 0x20, 0x24, 0x28, 0x2C] then some ((off - 0x0A1000) / 0x40) else none)
  else if 0x0C1000 ≤ off ∧ off < 0x0C1400 then (if off % 0x40 = 0x0C then some ((off - 0x0C1000) / 0x40) else none)
  else if 0x0C6000 ≤ off ∧ off < 0x0C7800 then some ((off - 0x0C6000) / 4 / 96)
  else none

/-- A value that is frozen or updated once a second: the one last shown (R526, R527, R533). -/
def shownValue (s : State) (f : Field) : Nat := sget 0 (fieldKey f) s.sec.shown

/-- Whether the readings of die d are frozen (R533). -/
def frozenDie (s : State) (d : Nat) : Bool := sget 0 d s.sec.frozenDies ≠ 0

/-- Whether rail r is one of a confidential partition now, or VLINK while any is (R199, R527). -/
def confNow (s : State) (r : Nat) : Bool := if r = 32 then confAny s else decide (r < 32) && confDie s (r % 16)

/-- Whether rail r reads as that of a confidential partition: its die does, or did until its scrub, or it is VLINK
and some partition is confidential (R526, R527, R533). -/
def confRail (s : State) (r : Nat) : Bool :=
  if r = 32 then confAny s else decide (r < 32) && (confDie s (r % 16) || frozenDie s (r % 16))

/-- Whether the readings of rail r are frozen (R533). -/
def frozenRail (s : State) (r : Nat) : Bool := decide (r < 32) && frozenDie s (r % 16)

/-- Whether the reading of stack n is frozen (R533). -/
def frozenStack (s : State) (n : Nat) : Bool := sget 0 n s.sec.frozenStacks ≠ 0

/-- The coarsened form of a field's value v (R526, R527). -/
def coarse (s : State) (f : Field) (v : Nat) : Nat :=
  let off := f.off
  match confZeroDie off with
  | some d => if confDie s d || frozenDie s d then 0 else v
  | none =>
    if 0x080400 ≤ off ∧ off < 0x080800 ∧ off % 0x40 = 0x08 ∧ 8 ≤ f.lo then
      (if confDie s ((off - 0x080400) / 0x40) || frozenDie s ((off - 0x080400) / 0x40) then 0 else v)
    else if 0x0C4000 ≤ off ∧ off < 0x0C5800 ∧ f.lo = 0 then
      let d := (off - 0x0C4000) / 4 / 96
      if frozenDie s d then shownValue s f else if confDie s d then coarseTemp v else v
    else if 0x0C1000 ≤ off ∧ off < 0x0C1400 ∧ (off % 0x40 = 0x04 ∨ off % 0x40 = 0x08) then
      let d := (off - 0x0C1000) / 0x40
      if frozenDie s d then shownValue s f else if confDie s d then coarseTemp v else v
    else if 0x0C0800 ≤ off ∧ off < 0x0C0840 ∧ f.lo = 0 then
      let n := (off - 0x0C0800) / 4
      if frozenStack s n then shownValue s f
      else if confPart s (ownerStack s n) then coarseTemp v else v
    else if 0x041000 ≤ off ∧ off < 0x041900 then
      let r := (off - 0x041000) / 0x40
      if confRail s r ∧ (0x34 ≤ off % 0x40 ∨ (off % 0x40 = 0x30 ∧ f = R.LPE_STAT.FROZEN r)) then 0 else v
    else if 0x021000 ≤ off ∧ off < 0x021C80 then
      let n := (off - 0x021000) / 0x10
      if confRail s (railOfPhase n) then
        (if off % 0x10 = 0x04 ∨ off % 0x10 = 0x08 ∨ f = R.PST_PH_CNT.LIMITED n then 0
         else if f ≠ R.PST_PH_STAT.STATE n then v
         else if frozenRail s (railOfPhase n) then shownValue s f
         else if v ∈ [2, 4, 5] then 3 else v)
      else v
    else if 0x020400 ≤ off ∧ off < 0x020880 ∧ off % 0x20 = 0x1C then
      let r := (off - 0x020400) / 0x20
      if confRail s r then
        (if f = R.PST_RAIL_STAT.N_RUN r then (if frozenRail s r then shownValue s f else countPhases s r phAvail)
         else if f = R.PST_RAIL_STAT.BRAKING r ∨ f = R.PST_RAIL_STAT.SHED_BUSY r then 0 else v)
      else v
    else if 0x0A3000 ≤ off ∧ off < 0x0A3080 then
      let p := (off - 0x0A3000) / 8
      if confPart s p || bit s.sec.frozenParts p then shownValue s f else v
    else if 0x0A3400 ≤ off ∧ off < 0x0A3C00 then
      let g := (off - 0x0A3400) / 8
      if confPart s (ownerGroup s g) || frozenDie s (g / 16) then 0 else v
    else if 0x101000 ≤ off ∧ off < 0x102000 ∧ off % 0x100 = 0x24 then
      let p := (off - 0x101000) / 0x100
      if bit s.sec.frozenParts p then shownValue s f else if confPart s p then v - v % 8000 else v
    else if confAny s then
      (if f = R.CAP_PKG_P.P ∨ f = R.CAP_POOL.I then 0
       else if f = R.CAP_PKG_PAVG.P then v - v % 8000
       else if f = R.CAP_E_SYS.ENERGY ∨ f = R.FIL_SYS_E.ENERGY then shownValue s f
       else if 0x020140 ≤ off ∧ off < 0x0201C0 ∧ (off % 0x10 = 4 ∨ off % 0x10 = 8) then shownValue s f
       else v)
    else v

/-- A field as every reader sees it (R525). -/
def shownField (s : State) (f : Field) : Nat := coarse s f (readField s f)

/-- A word of registers as firmware reads it; fields that only trigger read 0 (R16). -/
def regWord (s : State) (p off : Nat) : Nat :=
  (fieldsAt p off).foldl (fun a f => if f.acc = Acc.wo then a else a ||| placed off f (shownField s f)) 0

/-! Windows (R686). -/

/-- The 64 bytes of a record (R593). -/
def recordBytes (r : Record) (mark : Nat) : List Nat :=
  leBytes 8 r.time ++ leBytes 8 r.last ++ leBytes 2 r.code ++ [r.subj % 64, r.part % 256] ++ leBytes 4 r.arg
    ++ leBytes 4 r.seq ++ leBytes 2 r.rep ++ [b2n r.coarse, mark] ++ (List.range 8).flatMap fun i => leBytes 4 (nth r.snap i)

/-- Whether a port may read a record (R603). -/
def mayReadRecord (s : State) (p : Nat) (r : Record) : Bool :=
  let ctxRec := r.code ∈ [0x0901, 0x0902, 0x0903, 0x0905, 0x0906]
  let stk := r.code = 0x0706 ∨ (r.code = 0x0701 ∧ r.arg % 8 = 7)
  !isTenant s p || r.part = boundPart s p || (r.part = 0x3F && !(decide (r.subj ≠ 0x3F) || ctxRec || stk))

/-- A word of the recorder window (R601, R603, R612). -/
def recorderWord (s : State) (p off : Nat) : Nat :=
  let k := (off - 0x380000) / 0x40
  let i := get s (R.REC_CURSOR.INDEX p) + k
  if isOn s R.REC_STAT.CLEARING then 0
  else match s.log.recs[i]? with
    | none => 0
    | some r =>
      if i < 16384 ∧ mayReadRecord s p r then leNat (((recordBytes r 0xA5).drop (off % 0x40)).take 4) else 0

/-- The slot of the capture buffer that an offset lies in (R476). -/
def capSlot (off : Nat) : Nat := (off - 0x200000) / 0x10000

/-- The partition of a capture slot: that of its context, none where the slot is not VALID (R491). -/
def slotPart (s : State) (n : Nat) : Nat :=
  if isOn s (R.CTX_CAP_HDR.VALID n) then get s (R.CTX_CAP_HDR.PART n) else 0x3F

/-- The partition whose resource the register at an offset belongs to; none for a register of the package
(R503, and the register sections of the recovery and security chapters). -/
def resourcePart (s : State) (p off : Nat) : Option Nat :=
  if 0x061000 ≤ off ∧ off < 0x061800 then some (ownerDie s ((off - 0x061000) / 0x80))
  else if 0x080400 ≤ off ∧ off < 0x080800 then some (ownerDie s ((off - 0x080400) / 0x40))
  else if 0x080C00 ≤ off ∧ off < 0x081000 then some (ownerDie s ((off - 0x080C00) / 0x40))
  else if 0x0A1000 ≤ off ∧ off < 0x0A1400 then some (ownerDie s ((off - 0x0A1000) / 0x40))
  else if 0x0A2000 ≤ off ∧ off < 0x0A2400 then some (ownerDie s ((off - 0x0A2000) / 0x40))
  else if 0x0C1000 ≤ off ∧ off < 0x0C1400 then some (ownerDie s ((off - 0x0C1000) / 0x40))
  else if 0x0C4000 ≤ off ∧ off < 0x0C5800 then some (ownerDie s ((off - 0x0C4000) / 4 / 96))
  else if 0x0C6000 ≤ off ∧ off < 0x0C7800 then some (ownerDie s ((off - 0x0C6000) / 4 / 96))
  else if 0x0C8000 ≤ off ∧ off < 0x0CB000 then some (ownerDie s ((off - 0x0C8000) / 8 / 96))
  else if 0x0CB000 ≤ off ∧ off < 0x0CC800 then some (ownerDie s ((off - 0x0CB000) / 4 / 96))
  else if 0x0C0800 ≤ off ∧ off < 0x0C0840 then some (ownerStack s ((off - 0x0C0800) / 4))
  else if 0x0A3000 ≤ off ∧ off < 0x0A3080 then some ((off - 0x0A3000) / 8)
  else if 0x0A3400 ≤ off ∧ off < 0x0A3C00 then some (ownerGroup s ((off - 0x0A3400) / 8))
  else if 0x0E1000 ≤ off ∧ off < 0x0E1400 then some (ownerGroup s (get s (R.HNG_QCUR.GROUP p)))
  else if 0x0E0600 ≤ off ∧ off < 0x0E0800 then some (slotPart s ((off - 0x0E0600) / 0x20))
  else if 0x0E4000 ≤ off ∧ off < 0x0E8000 then some (ownerCtx s ((off - 0x0E4000) / 4))
  else if 0x101000 ≤ off ∧ off < 0x102000 then some ((off - 0x101000) / 0x100)
  else if 0x200000 ≤ off ∧ off < 0x300000 then some (slotPart s (capSlot off))
  else none

/-- A TENANT port reads a resource that is not its own (R503). A gap of a resource's registers is none of it (R682). -/
def foreignRead (s : State) (p off : Nat) : Bool :=
  isTenant s p && (decide (0x200000 ≤ off) || assigned p off) && match resourcePart s p off with
    | some q => q ≠ boundPart s p
    | none => false

/-- Fields that read 0 to some ports without a violation: victim records of another partition (R466),
violation entries of another port (R574), HNG_QWIN of a confidential partition's queue (the recovery
registers), and SEC_SPDM_OUT of another port (R545). -/
def maskedRead (s : State) (p off : Nat) : Bool :=
  if 0x0E0200 ≤ off ∧ off < 0x0E0600 then
    isTenant s p && ownerCtx s (get s (R.HNG_VICTIM.CTX ((off - 0x0E0200) / 0x10))) ≠ boundPart s p
  else if 0x120400 ≤ off ∧ off < 0x120600 then
    !isOper s p && get s (R.CMD_VIOL.PORT ((off - 0x120400) / 0x10)) ≠ p
  else if 0x0E1000 ≤ off ∧ off < 0x0E1400 then
    off % 0x10 ≠ 0xC && confPart s (ownerGroup s (get s (R.HNG_QCUR.GROUP p)))
  else if 0x108000 ≤ off ∧ off < 0x112000 then (off - 0x108000) / 0x1000 ≠ p
  else false

/-- The word at an aligned offset as port p reads it, apart from latches and from what a read does. -/
def readWordAt (s : State) (p off : Nat) : Nat :=
  if foreignRead s p off || maskedRead s p off then 0
  else if 0x108000 ≤ off ∧ off < 0x112000 then readWord32 s (sharedArea off)
  else if off < 0x200000 then regWord s p off
  else if off < 0x300000 then
    (if isOn s (R.CTX_CAP_HDR.VALID (capSlot off)) then readWord32 s (sharedArea off) else 0)
  else if off < 0x341000 then (if p < 9 then readWord32 s (portArea p off) else 0)
  else if 0x380000 ≤ off ∧ off < 0x381000 then recorderWord s p off
  else if 0x3F0000 ≤ off ∧ off < 0x3F8000 then readWord32 s (sharedArea off)
  else 0

/-- Whether the window, or the BMC port, answers an access at all, and to which offsets (R549, R620, R678,
R679, R688). -/
def answers (s : State) (p off : Nat) : Bool :=
  if p < 8 then hifReady s
  else if p = 8 then
    if romServes s then decide (0x160000 ≤ off ∧ off < 0x200000 ∨ 0x120000 ≤ off ∧ off < 0x120010 ∨ 0x300000 ≤ off ∧ off < 0x341000)
    else decide (4 ≤ stage s) && !s.boot.govRst
  else p = 9 && s.clk.started && coresUp s

end Sys2Proof.Machine
end

