-- ==== Sys2Proof/Machine/Keys.lean ====
section
/-! DEFINITION. Sys2Proof/Machine/Keys.lean: the key store, the key bus, and the steps of a scrub (R504 to
R507, R519 to R523, R531 to R535), shared by the recovery and the security unit. -/

namespace Sys2Proof.Machine

/-- States of a partition (R497). -/
def ptFREE : Nat := 0
def ptACTIVE : Nat := 1
def ptATTESTED : Nat := 2
def ptSCRUBBING : Nat := 3
def ptFAIL : Nat := 4

/-- The orders of R506 as an acknowledgement names them. -/
def kbLOAD : Nat := 0
def kbCOMMIT : Nat := 1
def kbERASE : Nat := 2
def kbMODEL : Nat := 3
def kbCLEAR_OK : Nat := 4
def kbIDLE : Nat := 5
def kbSCRUB : Nat := 6

/-- The slots that ERASE names (R506). -/
def slotCUR : Nat := 0
def slotPREV : Nat := 1
def slotSTANDBY : Nat := 2
def slotSCRUB : Nat := 3
def slotModel (k : Nat) : Nat := 16 + k

/-- The kinds of keys that LOAD names. -/
def kkMEMORY : Nat := 0
def kkLINK : Nat := 1
def kkSCRUB : Nat := 2

/-- The KEYB links of a partition's memory engines: links 0 to 15 of its dies, 16 to 31 of its external stacks (R677). -/
def memLinks (s : State) (p : Nat) : Nat := get s (R.SEC_PART_RES.DIES p) + get s (R.SEC_PART_RES.STACKS p) * 2 ^ 16

/-- The KEYB links of a partition's link engines: links 32 to 95 (R677). -/
def portLinks (s : State) (p : Nat) : Nat := get s (R.SEC_PART_LINK.PORTS p) * 2 ^ 32

/-- The KEYB links of every engine of a partition. -/
def allLinks (s : State) (p : Nat) : Nat := memLinks s p + portLinks s p

/-- The KEYB links of the engines of die d that lie in partition p: its own, and those of the stacks that it serves. -/
def dieLinks (s : State) (d p : Nat) : Nat :=
  2 ^ d + (maskOf ((List.range (nStacks s)).filter fun n => serves s n = d && bit (get s (R.SEC_PART_RES.STACKS p)) n)) * 2 ^ 16

/-- An order goes out to engines of a partition. -/
def keySend (links p : Nat) (o : KeyOrder) (s : State) : State := emit (.keyBus links p o) s

/-- A memory key and a link key of an epoch loaded, each into the engines of its kind among those of the links. -/
def sendLoads (links p epoch mem link : Nat) (s : State) : State :=
  s |> keySend (links % 2 ^ 32) p (.load epoch kkMEMORY mem) |> keySend (bitsClear links (2 ^ 32 - 1)) p (.load epoch kkLINK link)

/-- Every key slot of a partition's engines erased, one order for each (R506, R531). -/
def eraseAll (p : Nat) (s : State) : State :=
  s |> each (List.range 16) (fun k st => keySend (memLinks s p) p (.erase (slotModel k)) st)
    |> each [slotCUR, slotPREV, slotSTANDBY] (fun k st => keySend (allLinks s p) p (.erase k) st)

/-- A partition's state. -/
def partState (s : State) (p : Nat) : Nat := get s (R.SEC_PART_CFG.STATE p)

/-- The DRBG's answer to a request of w bits: a free value (R504, R505). -/
def drbg (w : Nat) (s : State) : Nat := fresh s % 2 ^ w

/-- A request made of the DRBG. -/
def drbgUsed (s : State) : State :=
  { drawn s with sec := { s.sec with requests := s.sec.requests + 1 } }

/-- An ATTESTED partition returns to ACTIVE (R515). -/
def loseAttest (p : Nat) (s : State) : State :=
  if partState s p = ptATTESTED then s |> put (R.SEC_PART_CFG.STATE p) ptACTIVE |> event R.SEC_EVENT 2 else s

/-- The coarsened readings of a partition that R533 freezes: those of R526 that are not 0. -/
def freezeTemps (p : Nat) (s : State) : State :=
  let dieF (d : Nat) : List Field :=
    [R.THM_DIE_T.HOT d, R.THM_DIE_T.HOT_LAYER d, R.THM_DIE_T2.MEAN d, R.THM_DIE_T2.MEAN_LAYER d,
     R.PST_RAIL_STAT.N_RUN d, R.PST_RAIL_STAT.N_RUN (16 + d)]
      ++ ((List.range 96).map fun i => R.THM_SNS.T (96 * d + i)) ++ (phasesOf d ++ phasesOf (16 + d)).map R.PST_PH_STAT.STATE
  let ds := bitList 16 (get s (R.SEC_PART_RES.DIES p))
  let ns := bitList 16 (get s (R.SEC_PART_RES.STACKS p))
  let fs := ds.flatMap dieF ++ ns.map R.THM_STK.T ++ [R.CAP_E_PART.ENERGY p, R.SEC_PART_PWR.P p]
  let shown := fs.foldl (fun l f => sset 0 (fieldKey f) (shownField s f) l) s.sec.shown
  { s with sec := { s.sec with shown := shown, frozenDies := ds.foldl (fun l d => sset 0 d (p + 1) l) s.sec.frozenDies,
                               frozenStacks := ns.foldl (fun l n => sset 0 n (p + 1) l) s.sec.frozenStacks,
                               frozenParts := setBit s.sec.frozenParts p } }

/-- The contexts bound to a partition's queues (R531). -/
def partContexts (s : State) (p : Nat) : List Nat := s.recov.bound.filter fun c => ownerCtx s c = p

/-- A change of a partition's scrub. -/
def setScrub (p : Nat) (c : Option ScrubH) (s : State) : State := setPart p { partOf s p with scrub := c } s

/-- Partition p's link ports put into electrical idle, or out of it, by an IDLE order (R506, R532). -/
def idleLinks (p : Nat) (on : Bool) (s : State) : State :=
  let m := get s (R.SEC_PART_LINK.PORTS p)
  let i := if on then s.sec.idlePorts ||| m else bitsClear s.sec.idlePorts m
  { s with sec := { s.sec with idlePorts := i } } |> keySend (m * 2 ^ 32) p (.idle on)

/-- Step 1 of a scrub (R531, R532, R533): fences, IDLE 1, telemetry frozen for a confidential partition. -/
def scrubFence (p : Nat) (s : State) : State :=
  match (partOf s p).scrub with
  | none => s
  | some c =>
    s |> when (confPart s p) (freezeTemps p)
      |> setPart p { partOf s p with scrub := some { c with step := 1, acked := 0 } } |> idleLinks p true
      |> each (partContexts s p) (sendOrder 1)

/-- Step 3 of a scrub: ERASE of every slot in every engine and in the store, and of the ECDH pair. -/
def scrubErase (p : Nat) (s : State) : State :=
  match (partOf s p).scrub with
  | none => s
  | some c =>
    s |> setPart p { partOf s p with priv := 0, memCur := 0, linkCur := 0, memPrev := 0, linkPrev := 0, models := [],
                                     op := none, scrub := some { c with step := 3, acked := 0 } }
      |> put (R.SEC_PART_EPOCH.PREV_VALID p) 0 |> put (R.SEC_PART_MKEY.LOADED p) 0
      |> put (R.SEC_PART_PUB.X p) 0 |> put (R.SEC_PART_PUB.Y p) 0
      |> put (R.SEC_PART_PREV.PAGES p) 0 |> put (R.SEC_PART_PREV2.INFLIGHT p) 0
      |> eraseAll p

/-- A governor warm reset during a scrub: it resumes at step 3; one that still waits for a sequence goes on
waiting (R535; log 40). -/
def scrubAgain (p : Nat) (s : State) : State :=
  match (partOf s p).scrub with
  | none => s
  | some c => if c.step = 0 then s else scrubErase p s

/-- SCRUB goes out to engines of a partition: they write their pages from the first on, and how many are left is a free
value until the end (log 14). -/
def sendScrub (links p : Nat) (s : State) : State :=
  let n := fresh s
  drawn s |> put (R.SEC_PART_SCRUB.REMAIN p) n |> keySend links p .scrub

/-- Step 4 of a scrub: LOAD of the scrub key, then SCRUB. -/
def scrubOverwrite (p : Nat) (s : State) : State :=
  match (partOf s p).scrub with
  | none => s
  | some c =>
    let k := if c.key = 0 then drbg 512 s + 1 else c.key
    let s := if c.key = 0 then drbgUsed s else s
    s |> setScrub p (some { c with step := 4, acked := 0, key := k, since := now s })
      |> keySend (memLinks s p) p (.load (get s (R.SEC_PART_EPOCH.CUR p)) kkSCRUB (k - 1)) |> sendScrub (memLinks s p) p

/-- The pages left in step 4 only fall (R544). -/
def scrubFalls (p : Nat) (s : State) : State :=
  match (partOf s p).scrub with
  | some c => if c.step = 4 then drawn (put (R.SEC_PART_SCRUB.REMAIN p) (min (get s (R.SEC_PART_SCRUB.REMAIN p)) (fresh s)) s) else s
  | none => s

/-- The drain of a scrub has ended: the abort orders of step 2. -/
def scrubAbort (p : Nat) (c : ScrubH) (s : State) : State :=
  s |> setScrub p (some { c with step := 2, acked := 1 })
    |> each (partContexts s p) (sendOrder 2)

/-- An acknowledgement of step 1: bit 0 the fence, bit 1 IDLE, bit 2 nothing was outstanding. With both, step
2 begins, and its drain ends at once where nothing was outstanding. -/
def scrubAck (p m : Nat) (s : State) : State :=
  match (partOf s p).scrub with
  | none => s
  | some c =>
    if c.step = 1 then
      let a := c.acked ||| m
      if bit a 0 ∧ bit a 1 then
        if bit a 2 then scrubAbort p c s else setScrub p (some { c with step := 2, acked := 0, since := now s }) s
      else setScrub p (some { c with acked := a }) s
    else s

/-- A scrub that began waits for a reset sequence of a context of its partition; where none runs any more,
its step 1 begins (R531). -/
def scrubResume (p : Nat) (s : State) : State :=
  match (partOf s p).scrub with
  | none => s
  | some c =>
    let busy := match s.recov.cur with
      | some q => ownerCtx s q.ctx = p
      | none => false
    if c.step = 0 ∧ !busy then scrubFence p s else s

/-- Every scrub that waits looks again. -/
def scrubsResume (s : State) : State := each (List.range 16) scrubResume s

/-- The ms that a scrub has taken, to the nearest (R12, R537). -/
def scrubMs (c : ScrubH) (s : State) : Nat := (s.us - c.start + 500) / 1000

/-- The pages that a scrub which failed had overwritten: none before step 4, a free value in it, all of them after it
(R537; log 14). -/
def scrubPages (c : ScrubH) (s : State) : Nat :=
  if c.step < 4 then 0
  else if c.step = 4 then fresh s % 2 ^ 32
  else match flightOf s c.port c.tag with
    | some fl => fl.r0
    | none => 0

/-- SCRUB_FAIL (R534, R535): the keys stay erased, the ports idle, the resources held. -/
def scrubFailed (p : Nat) (s : State) : State :=
  match (partOf s p).scrub with
  | none => s
  | some c =>
    s |> setScrub p none |> put (R.SEC_PART_CFG.STATE p) ptFAIL |> event R.SEC_EVENT 7 |> faultOn 11
      |> record 0x0A02 p |> completeAt c.port c.tag sTIMEOUT (scrubPages c s) (scrubMs c s) |> drawn

/-- THERMTRIP_N during a scrub ends it in SCRUB_FAIL (R535). -/
def scrubsTripped (s : State) : State :=
  each ((List.range 16).filter fun p => partState s p = ptSCRUBBING) scrubFailed s

/-- A partition's registers and keys as they are when it owns nothing (R494, R497). -/
def freePart (p : Nat) (s : State) : State :=
  s |> setPart p PartH.init
    |> put (R.SEC_PART_CFG.STATE p) ptFREE |> put (R.SEC_PART_CFG.CONF p) 0 |> put (R.SEC_PART_CFG.LEGACY_OK p) 0
    |> put (R.SEC_PART_CFG.MODEL_KEYS p) 0 |> put (R.SEC_PART_RES.DIES p) 0 |> put (R.SEC_PART_RES.STACKS p) 0
    |> put (R.SEC_PART_QG.FIRST p) 0 |> put (R.SEC_PART_QG.COUNT p) 0 |> put (R.SEC_PART_LINK.PORTS p) 0
    |> put (R.SEC_PART_EPOCH.CUR p) 0 |> put (R.SEC_PART_EPOCH.PREV_VALID p) 0
    |> put (R.SEC_PART_PREV.PAGES p) 0 |> put (R.SEC_PART_PREV2.INFLIGHT p) 0 |> put (R.SEC_PART_MKEY.LOADED p) 0
    |> put (R.SEC_PART_SCRUB.REMAIN p) 0 |> put (R.SEC_PART_PUB.X p) 0 |> put (R.SEC_PART_PUB.Y p) 0

/-- A 384-bit value in a register whose byte 0, at the lowest offset, is the most significant (R544). -/
def put384 (f : Field) (v : Nat) (s : State) : State := put f (leNat (beBytes 48 v)) s

/-- A 384-bit value from such a register. -/
def get384 (s : State) (f : Field) : Nat := beNat (leBytes 48 (get s f))

/-- Keys of a new partition, made and installed (R505, R521): the ECDH pair, and those of epoch 0. -/
def installKeys (p : Nat) (s : State) : State :=
  let d := ecPrivate (drbg 512 s)
  let s := drbgUsed s
  let m := drbg 512 s
  let s := drbgUsed s
  let l := drbg 256 s
  let s := drbgUsed s
  let s := setPart p { partOf s p with priv := d, memCur := m + 1, linkCur := l + 1, memPrev := 0, linkPrev := 0, models := [], op := none } s
  let s := s |> put (R.SEC_PART_EPOCH.CUR p) 0 |> put (R.SEC_PART_EPOCH.PREV_VALID p) 0
    |> sendLoads (allLinks s p) p 0 m l |> keySend (allLinks s p) p .commit
  match ecMul d p384G with
  | some (x, y) => s |> put384 (R.SEC_PART_PUB.X p) x |> put384 (R.SEC_PART_PUB.Y p) y
  | none => s

/-- Whether step 4 of a partition's scrub runs. -/
def overwriting (s : State) (p : Nat) : Bool :=
  match (partOf s p).scrub with
  | some c => c.step = 4
  | none => false

/-- Every previous, current and model key that the store holds of a partition sent again to engines that were reset, each
pair loaded and committed in the order of their epochs (R507). -/
def reloadKeys (links p : Nat) (s : State) : State :=
  let k := partOf s p
  let e := get s (R.SEC_PART_EPOCH.CUR p)
  if k.memCur = 0 then s
  else
    s |> when (decide (k.memPrev ≠ 0)) (fun s =>
          s |> sendLoads links p ((e + 65535) % 65536) (k.memPrev - 1) (k.linkPrev - 1) |> keySend links p .commit)
      |> sendLoads links p e (k.memCur - 1) (k.linkCur - 1) |> keySend links p .commit
      |> each (k.models.filter fun m => m.2 ≠ 0) (fun m => keySend (links % 2 ^ 32) p (.model m.1 (m.2 - 1)))

/-- The engines of a partition after an accelerator reset (R507, R535): its keys, or in step 4 of its scrub the scrub key
and the overwrite, in full and with its bound anew. -/
def reloadPart (p : Nat) (s : State) : State :=
  match (partOf s p).scrub with
  | some c =>
    if c.step = 4 then
      s |> setScrub p (some { c with since := now s })
        |> keySend (memLinks s p) p (.load (get s (R.SEC_PART_EPOCH.CUR p)) kkSCRUB (c.key - 1)) |> sendScrub (memLinks s p) p
    else reloadKeys (allLinks s p) p s
  | none => reloadKeys (allLinks s p) p s

/-- The engines of die d after its reset (R507, R535, R629): the keys of the partition that owns it, or in step 4 of its
scrub the overwrite of that die's memory alone. Which die a link port lies on the spec does not say: every port of the
partition has its keys again (log 99). -/
def reloadDie (d : Nat) (s : State) : State :=
  let p := ownerDie s d
  if 16 ≤ p then s
  else if overwriting s p then sendScrub (dieLinks s d p) p s
  else reloadKeys (dieLinks s d p + portLinks s p) p s

end Sys2Proof.Machine
end

