-- ==== Sys2Proof/Machine/Recovery.lean ====
section
/-! DEFINITION. Sys2Proof/Machine/Recovery.lean: hang detection and context reset (R455 to R493). -/

namespace Sys2Proof.Machine

/-! Taps (R455). -/

/-- STATE of a tap; codes 6 and 7 are read as IDLE. -/
def tapState (w : Nat) : Nat := if bits w 0 3 < 6 then bits w 0 3 else 1
/-- CTX of a tap. -/
def tapCtx (w : Nat) : Nat := bits w 4 12
/-- WKIND of a tap; codes 5 to 7 are read as NONE. -/
def tapKind (w : Nat) : Nat := if bits w 16 3 < 5 then bits w 16 3 else 0
/-- WOBJ of a tap. -/
def tapObj (w : Nat) : Nat := bits w 20 16
/-- PROG of a tap. -/
def tapProg (w : Nat) : Nat := bits w 40 24
/-- A tap without the bits that the core ignores. -/
def tapClean (w : Nat) : Nat := clrBit (bitsClear (clrBit (w % 2 ^ 64) 3) (0xF * 2 ^ 36)) 19

/-- A queue's tap of the last snapshot. -/
def tapOf (s : State) (q : Nat) : Nat := sget 0 q s.recov.taps
/-- A queue's stall age (R459). -/
def ageOf (s : State) (q : Nat) : Nat := sget 0 q s.recov.ages
/-- A context's state (R467). -/
def ctxState (s : State) (c : Nat) : Nat := get s (R.CTX_STATE.STATE c)

/-- Codes of R467. -/
def cxNORMAL : Nat := 0
def cxNAMED : Nat := 1
def cxQUEUED : Nat := 2
def cxFENCED : Nat := 3
def cxDRAINING : Nat := 4
def cxABORTING : Nat := 5
def cxCAPTURING : Nat := 6
def cxCLEARING : Nat := 7
def cxSTUCK : Nat := 8

/-- The recovery unit changed. -/
def setRecov (v : RecovH) (s : State) : State := { s with recov := v }


/-- Whether a tap shows, against the one before, that the queue still waits on the same object (R459). -/
def stillWaits (old new : Nat) : Bool :=
  tapState old = 3 && tapState new = 3 && tapCtx old = tapCtx new && tapKind old = tapKind new
    && tapObj old = tapObj new && tapProg old = tapProg new

/-- One queue's tap received: its age, its tap, and whether it ran (R378, R459). -/
def takeTap (q w : Nat) (s : State) : State :=
  let old := tapOf s q
  let new := tapClean w
  let age := if stillWaits old new then min 65535 (ageOf s q + 1) else 0
  let g := q / 64
  let ran := if tapState new = 2 ∧ tapProg new ≠ tapProg old then sget 0 g s.recov.ran + 1 else sget 0 g s.recov.ran
  setRecov { s.recov with taps := sset 0 q new s.recov.taps, ages := sset 0 q age s.recov.ages, ran := sset 0 g ran s.recov.ran } s

/-- The queues bound to a context in the taps held (R458). -/
def queuesOf (s : State) (c : Nat) : List Nat :=
  (s.recov.taps.filter fun e => tapState e.2 ≠ 0 && tapCtx e.2 = c).map (·.1)

/-- The different elements of a list, the first of each kept. -/
def nodup : List Nat → List Nat
  | [] => []
  | x :: t => x :: (nodup t).filter (· ≠ x)

/-- What the taps of one snapshot show of a context: its queues, its partition, and whether two partitions
share it, which is an event at each snapshot that shows it; it ends once one partition holds it (R458). -/
def settleCtx (c : Nat) (s : State) : State :=
  let qs := queuesOf s c
  let ps := nodup ((qs.map fun q => ownerGroup s (q / 64)).filter (· < 16))
  let split := decide (2 ≤ ps.length)
  let s := s |> put (R.CTX_STATE.N_Q c) qs.length |> put (R.CTX_STATE.PART c) (ps.headD 0x3F)
    |> putB (R.CTX_STATE.SPLIT c) (split || (isOn s (R.CTX_STATE.SPLIT c) && decide (ps.length ≠ 1)))
  when split (fun s => s |> event R.HNG_EVENT 6 |> recordAt (now s) 0x0906 0x3F (ownerCtx s c) c) s

/-- Once the taps of every present die have come, or are late, the contexts are settled (R458). -/
def settle (s : State) : State :=
  if (dies s).all fun d => bit s.recov.arrived d || bit s.recov.late d then
    let here := nodup ((s.recov.taps.filter fun e => tapState e.2 ≠ 0).map fun e => tapCtx e.2)
    let all := here ++ s.recov.bound.filter fun c => !here.contains c
    let s := each all settleCtx s
    setRecov { s.recov with bound := here } s
  else s

/-- QUEUE_TAPS, R459: the taps of a die arrive for the snapshot in hand. -/
def effQueueTaps (die : Nat) (taps : List Nat) (s : State) : State :=
  if !bit s.recov.arrived die ∧ !bit s.recov.late die then
    let s := setRecov { s.recov with arrived := setBit s.recov.arrived die,
                                     ran := s.recov.ran.filter fun e => e.1 / 16 ≠ die } s
    settle (each (List.range 1024) (fun i s => takeTap (1024 * die + i) (nth taps i) s) s)
  else s

/-- QUEUE_TAPS, with the frame that completes the die's taps. -/
def execQueueTaps (report : Arrival) (taps : List Nat) (s : State) : Host.Outcome State Fault Refusal :=
  done (acceptFrame true tyBULK report.die report.frame (effQueueTaps report.die taps) s)

/-- TAP_LATE, R457: a die's taps have not come 50 µs after the snapshot; it keeps its taps and ages. -/
def execTapLate (die : Nat) (s : State) : Host.Outcome State Fault Refusal :=
  done (if isPresent s die ∧ !bit s.recov.arrived die ∧ !bit s.recov.late die
      ∧ 50000 ≤ spanNs s s.recov.stamp (now s) then
    settle (event R.HNG_EVENT 8 (setRecov { s.recov with late := setBit s.recov.late die } s)) else s)

/-! The walker (R460 to R463). -/

/-- Whether queue q is eligible in a walk (R460). -/
def eligible (s : State) (q : Nat) : Bool :=
  let w := tapOf s q
  let d := q / 1024
  isPresent s d && bit s.recov.arrived d && !(linkOf s d).lost && tapState w = 3 && tapKind w = 1
    && decide (tapObj w ≤ 16383) && isPresent s (tapObj w / 1024)
    && decide (get s R.HNG_CFG.WIN_MS ≤ ageOf s q) && ctxState s (tapCtx w) = cxNORMAL

/-- The eligible queues with the queue each waits on, rising. -/
def edges (s : State) : List (Nat × Nat) :=
  (s.recov.taps.filter fun e => eligible s e.1).map fun e => (e.1, tapObj e.2)

/-- What a walk goes through: the eligible queues of the last snapshot, with the context of each. -/
def walkGraph (s : State) : WalkH := ⟨s.recov.stamp, edges s, (edges s).map fun e => (e.1, tapCtx (tapOf s e.1))⟩

/-- SNAPSHOT, R457, R462: the agents latch their taps, once after each 1 ms tick. Where the walk of the snapshot
before still runs, it goes on over what it began with, and the core skips this snapshot's walk. -/
def effSnapshot (s : State) : State :=
  if s.recov.period = s.us / 1000 + 1 then s
  else
    s |> when s.recov.due (event R.HNG_EVENT 7)
      |> setRecov { s.recov with arrived := 0, late := 0, stamp := now s, period := s.us / 1000 + 1,
                                 due := s.recov.due || isOn s R.HNG_CFG.EN,
                                 graph := if s.recov.due then some (s.recov.graph.getD (walkGraph s)) else none }
      |> put R.HNG_SNAP_TS.TIME (now s) |> emit .snapshot

/-- SNAPSHOT. -/
def execSnapshot (s : State) : Host.Outcome State Fault Refusal := done (if s.clk.started then effSnapshot s else s)

/-- The queue that an eligible queue waits on; none for another queue. -/
def nextOf (es : List (Nat × Nat)) (x : Nat) : Option Nat := (es.find? fun e => e.1 = x).map (·.2)

/-- The inner loop of R461: unmarked eligible queues from x on are marked; the marks, and where it stopped. -/
def markFrom (es : List (Nat × Nat)) (walk : Nat) : Nat → Nat → List (Nat × Nat) → List (Nat × Nat) × Nat
  | 0, x, m => (m, x)
  | n + 1, x, m =>
    match nextOf es x with
    | some y => if sget 0 x m = 0 then markFrom es walk n y (sset 0 x walk m) else (m, x)
    | none => (m, x)

/-- The queues of a cycle from y on until x comes again. -/
def cycleFrom (es : List (Nat × Nat)) (x : Nat) : Nat → Nat → List Nat
  | 0, _ => []
  | n + 1, y => if y = x then [] else y :: cycleFrom es x n ((nextOf es y).getD x)

/-- A list in rising order. -/
def sortNat (l : List Nat) : List Nat :=
  let ins (l : List Nat) (x : Nat) : List Nat := l.takeWhile (· < x) ++ x :: l.dropWhile (· < x)
  l.foldl ins []

/-- The contexts that a cycle names (R463): every one bound to it, or with HANG_SCOPE ONE the one with the
fewest of its queues, the lowest on ties. -/
def cycleNames (s : State) (g : WalkH) (cy : List Nat) : List Nat :=
  let ctx (q : Nat) : Nat := sget 0 q g.ctxs
  let cs := sortNat (nodup (cy.map ctx))
  let count (c : Nat) : Nat := (cy.filter fun q => ctx q = c).length
  if isOn s R.HNG_CFG.HANG_SCOPE then
    match cs with
    | [] => []
    | c :: t => [t.foldl (fun b x => if count x < count b then x else b) c]
  else cs

/-- The eligible queues of a walk whose contexts are still in NORMAL and not among those that it has named (R460). -/
def liveEdges (s : State) (g : WalkH) (named : List Nat) : List (Nat × Nat) :=
  g.edges.filter fun e => let c := sget 0 e.1 g.ctxs; ctxState s c = cxNORMAL && !named.contains c

/-- The outer loop of R461 over the eligible queues: the cycles found, in order. Each is named as it is found, so that
no queue of a context that it names is eligible any more. -/
def walkFrom (s : State) (g : WalkH) : List (Nat × Nat) → Nat → List (Nat × Nat) → List Nat → List (List Nat)
  | [], _, _, _ => []
  | (q, _) :: t, walk, m, named =>
    let es := liveEdges s g named
    if sget 0 q m ≠ 0 ∨ (nextOf es q).isNone then walkFrom s g t walk m named
    else
      let r := markFrom es (walk + 1) (es.length + 1) q m
      if (nextOf es r.2).isSome ∧ sget 0 r.2 r.1 = walk + 1 then
        let c := r.2 :: cycleFrom es r.2 es.length ((nextOf es r.2).getD r.2)
        c :: walkFrom s g t (walk + 1) r.1 (named ++ cycleNames s g c)
      else walkFrom s g t (walk + 1) r.1 named

/-- The cycles that a walk finds (R461). -/
def cycles (s : State) (g : WalkH) : List (List Nat) := walkFrom s g g.edges 0 [] []

/-- A victim record (R465, R466), stamped with a time; the context's record is remembered (R477). -/
def victim (c kind detail time : Nat) (s : State) : State :=
  let first := get s (R.HNG_VICTIM.KIND 0) = 0
  let i := if first then 0 else (get s R.HNG_VIC_HEAD.IDX + 1) % 64
  let q := if first then 0 else (get s R.HNG_VIC_HEAD.SEQ + 1) % 2 ^ 16
  s |> put (R.HNG_VICTIM.CTX i) c |> put (R.HNG_VICTIM.KIND i) kind |> put (R.HNG_VICTIM.SEQ i) q
    |> put (R.HNG_VICTIM.DETAIL i) detail |> put (R.HNG_VICTIM.TIME i) time
    |> put R.HNG_VIC_HEAD.SEQ q |> put R.HNG_VIC_HEAD.IDX i
    |> setRecov { s.recov with namedBy := sset 0 c q s.recov.namedBy, namedKind := sset 0 c kind s.recov.namedKind }
    |> when (kind ≠ 2) (event R.HNG_EVENT 0)
    |> recordAt (now s) 0x0901 0x3F (ownerCtx s c) (c + kind * 2 ^ 12 + q * 2 ^ 16)
    |> notifyAll 3 (fun p => !isTenant s p || ownerCtx s c = boundPart s p)

/-- A cycle's contexts named: each that is still in NORMAL becomes NAMED, with a record of kind HANG. -/
def nameCycle (g : WalkH) (cy : List Nat) (s : State) : State :=
  let low := cy.foldl min (cy.headD 0)
  each (cycleNames s g cy) (fun c s =>
    if ctxState s c = cxNORMAL then
      s |> put (R.CTX_STATE.STATE c) cxNAMED
        |> victim c 1 (low + (min cy.length 32767) * 2 ^ 16) g.stamp
    else s) s

/-- WALK, R461 to R463: the walk in hand ends; it began once every present die's taps had arrived, or were late,
and its duration runs from its snapshot to the CLK_TIME at which it ended. -/
def effWalk (stop : Nat) (s : State) : State :=
  let g := s.recov.graph.getD (walkGraph s)
  if s.recov.due ∧ g.stamp ≤ stop ∧ stop ≤ now s ∧ (s.recov.graph.isSome ∨ (dies s).all fun d => bit s.recov.arrived d || bit s.recov.late d) then
    let s := setRecov { s.recov with due := false, graph := none } s
    if isOn s R.HNG_CFG.EN then
      let cs := cycles s g
      let us := min 65535 (spanNs s g.stamp stop / 1000)
      let s := s |> put R.HNG_WALK.LAST_US us |> put R.HNG_WALK.CYCLES (min 65535 cs.length)
        |> put R.HNG_WALK2.MAX_US (max (get s R.HNG_WALK2.MAX_US) us) |> put R.HNG_WALK2.ELIG (liveEdges s g []).length
      each cs (nameCycle g) s
    else s
  else s

/-- WALK. -/
def execWalk (stop : Nat) (s : State) : Host.Outcome State Fault Refusal := done (effWalk stop s)

/-- ENGINE_FAULT, R464: the event bears the agent's time, the record that of the naming (R490). -/
def effEngineFault (die ctx engine code stamp : Nat) (s : State) : State :=
  if ctx < 4096 then
    let at_ := agentTime s die stamp
    let s := s |> event R.HNG_EVENT 1 |> recordAt at_ 0x0902 die (ownerCtx s ctx) (ctx + code % 2 ^ 16 * 2 ^ 16)
    if ctxState s ctx = cxNORMAL then
      s |> put (R.CTX_STATE.STATE ctx) cxNAMED
        |> victim ctx 2 (die % 64 + engine % 256 * 2 ^ 8 + code % 2 ^ 16 * 2 ^ 16) (now s)
    else s
  else s

/-- ENGINE_FAULT. -/
def execEngineFault (report : Arrival) (ctx engine : Nat) (fault : FaultCode) (s : State) : Host.Outcome State Fault Refusal :=
  done (acceptFrame true tyREPORT report.die report.frame (effEngineFault report.die ctx engine fault.code fault.stamp) s)

/-! Starting a reset (R467 to R469). -/

/-- A context put at the end of the pending list. -/
def enqueueCtx (c : Nat) (waiter : Option (Nat × Nat)) (s : State) : State :=
  s |> setRecov { s.recov with pend := s.recov.pend ++ [⟨c, waiter, sget 0 c s.recov.namedBy⟩] }
    |> put (R.CTX_STATE.STATE c) cxQUEUED

/-- POLICY_QUEUE, R468: firmware queues a NAMED context by the policy of the kind that named it. -/
def execPolicyQueue (ctx : Nat) (s : State) : Host.Outcome State Fault Refusal :=
  let k := sget 0 ctx s.recov.namedKind
  done (if fwRuns s ∧ ctxState s ctx = cxNAMED ∧ s.recov.pend.length < 64 ∧
      ((k = 1 ∧ isOn s R.HNG_CFG.AUTO_HANG) ∨ (k = 2 ∧ isOn s R.HNG_CFG.AUTO_FAULT)) then enqueueCtx ctx none s else s)

/-- The sequence on a context starts: step 1 of R470. -/
def startSeq (c : PendCtx) (s : State) : State :=
  s |> setRecov { s.recov with cur := some ⟨c.ctx, c.waiter, c.vseq, 0, 31, 0, [], 0, 0, false, false, now s⟩ }
    |> put R.HNG_STAT.SEQ_BUSY 1 |> put R.HNG_STAT.CUR_CTX c.ctx
    |> put (R.CTX_STATE.STATE c.ctx) cxFENCED |> sendOrder 1 c.ctx

/-- SEQUENCE_START, R469: the oldest pending context, when no reset runs; none in a governor warm reset (R483). -/
def effSequenceStart (s : State) : State :=
  match s.recov.cur, s.recov.pend with
  | none, c :: t => if s.recov.hold then s else startSeq c (setRecov { s.recov with pend := t } s)
  | _, _ => s

/-- SEQUENCE_START. -/
def execSequenceStart (s : State) : Host.Outcome State Fault Refusal := done (effSequenceStart s)

/-! The sequence (R470 to R477). -/

/-- Whether every agent can acknowledge: a die in LINK_LOST cannot, unless it is in reset or one of those that were
reset meanwhile (R483). -/
def agentsAck (gone : Nat) (s : State) : Bool :=
  (dies s).all fun d => linkUp s d || dieInReset s d || bit gone d

/-- The context in sequence, where its state is the given one; none in a governor warm reset (R483). -/
def seqIn (s : State) (st : Nat) : Option SeqH := s.recov.cur.filter fun q => !s.recov.hold && ctxState s q.ctx = st

/-- The dies reset since the sequence in progress began (R483). -/
def goneDies (s : State) : Nat :=
  match s.recov.cur with
  | some q => q.gone
  | none => 0

/-- The sequence in progress changed. -/
def setSeq (q : SeqH) (s : State) : State := setRecov { s.recov with cur := some q } s

/-- The drain has ended: step 3, the abort order. -/
def abortSeq (q : SeqH) (s : State) : State :=
  s |> setSeq { q with since := now s } |> put (R.CTX_STATE.STATE q.ctx) cxABORTING |> sendOrder 2 q.ctx

/-- FENCE_ACK, R470, R471, R531: every agent acknowledges the fence of the sequence (who 16) or of a
partition's scrub; outstanding is what the context's requests then come to. -/
def effFenceAck (who outstanding : Nat) (s : State) : State :=
  if agentsAck (if who < 16 then 0 else goneDies s) s then
    if who < 16 then s |> when (partOf s who).scrub.isSome (allAcknowledge 1 who) |> scrubAck who (if outstanding = 0 then 5 else 1)
    else match seqIn s cxFENCED with
      | some q => if outstanding = 0 then s |> allAcknowledge 1 16 |> abortSeq q else s |> allAcknowledge 1 16 |> setSeq { q with since := now s } |> put (R.CTX_STATE.STATE q.ctx) cxDRAINING
      | none => s
  else s

/-- FENCE_ACK. -/
def execFenceAck (who outstanding : Nat) (s : State) : Host.Outcome State Fault Refusal :=
  done (effFenceAck who outstanding s)

/-- Whether a drain that began at CLK_TIME since is over: nothing is outstanding, or DRAIN_US has passed (R470). -/
def drained (s : State) (since outstanding : Nat) : Bool :=
  outstanding = 0 || get s R.CTX_CFG.DRAIN_US * 1000 ≤ spanNs s since (now s)

/-- DRAIN_END, R470: nothing is outstanding any more, or DRAIN_US has passed with what is left. -/
def effDrainEnd (who outstanding : Nat) (s : State) : State :=
  if who < 16 then
    match (partOf s who).scrub with
    | some c => if c.step = 2 ∧ c.acked = 0 ∧ drained s c.since outstanding then scrubAbort who c s else s
    | none => s
  else match seqIn s cxDRAINING with
    | some q => if drained s q.since outstanding then abortSeq q s else s
    | none => s

/-- DRAIN_END. -/
def execDrainEnd (who outstanding : Nat) (s : State) : Host.Outcome State Fault Refusal :=
  done (effDrainEnd who outstanding s)

/-- The enabled capture windows, as the capture step latches them (R475). -/
def capWindows (s : State) : List CapWin :=
  ((List.range 8).filter fun w => isOn s (R.CTX_CAPWIN.EN w)).map fun w =>
    ⟨w, get s (R.CTX_CAPWIN.DIE w), get s (R.CTX_CAPWIN.OFS w), get s (R.CTX_CAPWIN.LEN w)⟩

/-- The bytes that a capture of windows comes to (R475). -/
def capLength (ws : List CapWin) : Nat := (ws.map fun w => 256 * w.len).foldl (· + ·) 0

/-- The windows on a die that was reset capture nothing, which TRUNC tells (R483). -/
def dropWindows (gone : Nat → Bool) (q : SeqH) : SeqH :=
  { q with wins := q.wins.filter fun w => !gone w.die, cut := q.cut || q.wins.any fun w => gone w.die }

/-- Step 5: the clear order. -/
def clearSeq (q : SeqH) (s : State) : State :=
  s |> setSeq { q with since := now s } |> put (R.CTX_STATE.STATE q.ctx) cxCLEARING |> sendOrder 3 q.ctx

/-- Step 4: the slot and the windows of a capture, or its end at once (R475, R476, R483). -/
def captureSeq (q : SeqH) (s : State) : State :=
  let slots := (List.range 16).filter fun n => !bit (get s R.CTX_CAP_SLOTS.HELD) n
  if confPart s (ownerCtx s q.ctx) ∨ isOn s (R.CTX_STATE.SPLIT q.ctx) then clearSeq q s
  else match slots with
    | [] => s |> event R.HNG_EVENT 5 |> recordAt (now s) 0x0905 0x3F (ownerCtx s q.ctx) q.ctx |> clearSeq q
    | n :: _ =>
      let q := { q with slot := n, wins := capWindows s, time := now s, since := now s }
      s |> setSeq (dropWindows (fun d => bit q.gone d || dieInReset s d) q) |> put (R.CTX_STATE.STATE q.ctx) cxCAPTURING

/-- ABORT_ACK, R474: every agent acknowledges the abort, having answered requests with errors; the capture
step follows, and for a scrub the erasure. -/
def effAbortAck (who answered : Nat) (s : State) : State :=
  if agentsAck (if who < 16 then 0 else goneDies s) s then
    if who < 16 then
      match (partOf s who).scrub with
      | some c => if c.step = 2 ∧ c.acked = 1 then s |> allAcknowledge 2 who |> scrubErase who else s
      | none => s
    else match seqIn s cxABORTING with
      | some q => s |> allAcknowledge 2 16 |> captureSeq { q with answered := min 0xFFFFFFFF answered }
      | none => s
  else s

/-- ABORT_ACK. -/
def execAbortAck (who answered : Nat) (s : State) : Host.Outcome State Fault Refusal :=
  done (effAbortAck who answered s)

/-- The bytes of a capture into its slot, with the slot's header, and HELD (R476, R477). -/
def storeCapture (q : SeqH) (data : List Nat) (trunc : Bool) (s : State) : State :=
  let n := q.slot
  let b := data.take (capLength q.wins)
  s |> wipe (sharedArea (0x200000 + 0x10000 * n)) (sharedArea (0x200000 + 0x10000 * (n + 1)))
    |> writeBytes (sharedArea (0x200000 + 0x10000 * n)) b
    |> put (R.CTX_CAP_HDR.CTX n) q.ctx |> put (R.CTX_CAP_HDR.VALID n) 1 |> putB (R.CTX_CAP_HDR.TRUNC n) (trunc || q.cut)
    |> put (R.CTX_CAP_HDR.PART n) (ownerCtx s q.ctx) |> put (R.CTX_CAP_HDR.BYTES n) b.length
    |> put (R.CTX_CAP_HDR.WIN_MASK n) (maskOf (q.wins.map (·.win))) |> put (R.CTX_CAP_HDR.TIME n) q.time
    |> put (R.CTX_CAP_HDR.SEQ n) q.vseq |> event R.CTX_CAP_SLOTS.HELD n

/-- The capture ends: its bytes are stored and step 5 begins. -/
def effCapture (data : List Nat) (trunc : Bool) (s : State) : State :=
  match seqIn s cxCAPTURING with
  | some q => s |> each q.wins (fun w => agentTells tyBULK w.die [w.win, w.ofs, w.len] (.scratchpad w.die w.win)) |> storeCapture q data trunc |> clearSeq { q with bytes := (data.take (capLength q.wins)).length }
  | none => s

/-- CAPTURE_DONE, R476: the last byte is in the buffer; trunc tells that a window went beyond the scratchpad,
whose missing bytes come as 0. -/
def execCaptureDone (data : List Nat) (trunc : Bool) (s : State) : Host.Outcome State Fault Refusal :=
  done (effCapture data trunc s)

/-- The bound of the step in progress in ns, outside COAST; step 2 has its own end (R470). -/
def stepBound (s : State) (q : SeqH) : Nat :=
  match ctxState s q.ctx with
  | 5 => 5000
  | 6 => 10000 + capLength q.wins * 1000 / 1024
  | 7 => if q.released then 2000 else 10000
  | _ => 2000

/-- CAPTURE_OVERRUN, R476: past the step's bound the bytes copied so far stay, with TRUNC. -/
def effCaptureOverrun (data : List Nat) (s : State) : State :=
  match seqIn s cxCAPTURING with
  | some q => if boundPassed s q.since (stepBound s q) then effCapture data true s else s
  | none => s

/-- CAPTURE_OVERRUN. -/
def execCaptureOverrun (data : List Nat) (s : State) : Host.Outcome State Fault Refusal := done (effCaptureOverrun data s)

/-- CLEAR_ACK, R470: step 6, the release order. -/
def effClearAck (s : State) : State :=
  match seqIn s cxCLEARING with
  | some q => if agentsAck q.gone s ∧ !q.released then s |> allAcknowledge 3 16 |> setSeq { q with released := true, since := now s } |> sendOrder 4 q.ctx else s
  | none => s

/-- CLEAR_ACK. -/
def execClearAck (s : State) : Host.Outcome State Fault Refusal := done (effClearAck s)

/-- OUT_OF_SERVICE entered (R481). -/
def enterOOS (s : State) : State :=
  if isOn s R.CTX_OOS.OOS then s
  else s |> put R.CTX_OOS.OOS 1 |> event R.HNG_EVENT 4 |> faultOn 9 |> record 0x0904 (min 255 (inWindow s))
    |> notifyAll 4 (fun _ => true) |> sendOrder 5 0

/-- A reset that counts towards escalation has ended; CTX_ESC as it now is applies from here on (R480). -/
def countReset (s : State) : State :=
  let s := s |> addSat R.CTX_CNT.RESETS 1 |> setRecov { s.recov with ends := s.recov.ends ++ [s.us], escS := get s R.CTX_ESC.ESC_S }
  if get s R.CTX_ESC.ESC_N ≤ inWindow s then enterOOS s else s

/-- The result words of CTX_RESET (R484). -/
def seqResult (q : SeqH) : Nat := q.slot + q.bytes * 2 ^ 8

/-- The sequence is over: the sequencer is free, and a scrub that waited for it begins (R531). -/
def endSeq (s : State) : State :=
  s |> setRecov { s.recov with cur := none } |> put R.HNG_STAT.SEQ_BUSY 0 |> put R.HNG_STAT.CUR_CTX 0 |> scrubsResume

/-- The fault of a STUCK context is released when none is left (R473). -/
def stuckOff (s : State) : State := if s.recov.stuck = [] then faultOff 8 s else s

/-- RELEASE_ACK, R470, R480: the context returns to NORMAL and its command completes. -/
def effReleaseAck (s : State) : State :=
  match seqIn s cxCLEARING with
  | some q =>
    if agentsAck q.gone s ∧ q.released then
      let s := s |> allAcknowledge 4 16 |> put (R.CTX_STATE.STATE q.ctx) cxNORMAL |> event R.HNG_EVENT 2
      let s := stuckOff (setRecov { s.recov with stuck := s.recov.stuck.filter (· ≠ q.ctx) } s)
      let s := match q.waiter with
        | some (p, t) => completeAt p t sOK q.answered (seqResult q) s
        | none => s
      s |> endSeq |> countReset
    else s
  | none => s

/-- RELEASE_ACK. -/
def execReleaseAck (s : State) : Host.Outcome State Fault Refusal := done (effReleaseAck s)

/-- SEQUENCE_STUCK, R473: a fence, abort, clear or release step overran its bound. -/
def effSequenceStuck (s : State) : State :=
  match s.recov.cur with
  | some q =>
    if !s.recov.hold ∧ ctxState s q.ctx ∈ [cxFENCED, cxABORTING, cxCLEARING] ∧ boundPassed s q.since (stepBound s q) then
      let s := s |> put (R.CTX_STATE.STATE q.ctx) cxSTUCK |> event R.HNG_EVENT 3 |> faultOn 8
        |> recordAt (now s) 0x0903 0x3F (ownerCtx s q.ctx) q.ctx
      let s := setRecov { s.recov with stuck := q.ctx :: s.recov.stuck.filter (· ≠ q.ctx) } s
      let s := match q.waiter with
        | some (p, t) => completeAt p t sTIMEOUT q.answered (seqResult q) s
        | none => s
      s |> endSeq |> countReset
    else s
  | none => s

/-- SEQUENCE_STUCK. -/
def execSequenceStuck (s : State) : Host.Outcome State Fault Refusal := done (effSequenceStuck s)

/-! Commands (R484 to R488). -/

/-- CTX_RESET, R484. -/
def execCtxReset (port tag : Nat) (s : State) : Host.Outcome State Fault Refusal :=
  done <| command 0x0901 port tag s
    (fun fl =>
      let st := ctxState s (bits (par fl 0) 0 12)
      [(decide (par fl 0 / 2 ^ 12 ≠ 0), sRESERVED), (decide (2 ≤ st ∧ st ≤ 7), sWRONG_STATE),
       (decide (64 ≤ s.recov.pend.length), sBUSY)])
    (fun fl s =>
      let c := bits (par fl 0) 0 12
      let s := if ctxState s c = cxNORMAL then victim c 3 (port % 16) (now s) s else s
      s |> enqueueCtx c (some (fl.port, fl.tag)) |> markStarted fl.port fl.tag)

/-- CTX_DISMISS, R485. -/
def execCtxDismiss (port tag : Nat) (s : State) : Host.Outcome State Fault Refusal :=
  done <| command 0x0902 port tag s
    (fun fl => [(decide (par fl 0 / 2 ^ 12 ≠ 0), sRESERVED), (decide (ctxState s (bits (par fl 0) 0 12) ≠ cxNAMED), sWRONG_STATE)])
    (fun fl s =>
      let c := bits (par fl 0) 0 12
      s |> put (R.CTX_STATE.STATE c) cxNORMAL
        |> each (queuesOf s c) (fun q s => setRecov { s.recov with ages := sset 0 q 0 s.recov.ages } s)
        |> complete fl sOK 0 0)

/-- RETURN_TO_SERVICE, R482, R486. -/
def execReturnToService (port tag : Nat) (s : State) : Host.Outcome State Fault Refusal :=
  done <| command 0x0903 port tag s (fun _ => [(!isOn s R.CTX_OOS.OOS, sWRONG_STATE)])
    (fun fl s => s |> put R.CTX_OOS.OOS 0 |> setRecov { s.recov with ends := [] } |> faultOff 9
      |> sendOrder 6 0 |> complete fl sOK 0 0)

/-- CAPWIN_SET, R487. -/
def execCapwinSet (port tag : Nat) (s : State) : Host.Outcome State Fault Refusal :=
  done <| command 0x0904 port tag s
    (fun fl =>
      let m := par fl 0
      let on := (List.range 8).filter (bit m)
      let w (i : Nat) := par fl (i + 1)
      let len (i : Nat) := bits (w i) 20 9
      [(decide (m / 2 ^ 8 ≠ 0) || (List.range 8).any (fun i => if bit m i then bit (w i) 7 || decide (w i / 2 ^ 29 ≠ 0) else decide (w i ≠ 0)), sRESERVED),
       (on.any fun i => decide (bits (w i) 0 6 < 16) && !isPresent s (bits (w i) 0 6), sBAD_PARAM),
       (on.any fun i => decide (len i = 0 ∨ 256 < len i ∨ 16 ≤ bits (w i) 0 6), sOUT_OF_RANGE),
       (decide (256 < (on.map len).foldl (· + ·) 0), sNO_RESOURCE)])
    (fun fl s =>
      s |> each (List.range 8) (fun i s =>
          let w := par fl (i + 1)
          s |> put (R.CTX_CAPWIN.DIE i) (bits w 0 6) |> putB (R.CTX_CAPWIN.EN i) (bit (par fl 0) i)
            |> put (R.CTX_CAPWIN.OFS i) (bits w 8 12) |> put (R.CTX_CAPWIN.LEN i) (bits w 20 9))
        |> bumpGen |> complete fl sOK 0 0)

/-- CAPTURE_FREE, R488: the slots named are no longer HELD or VALID, and read as 0. -/
def execCaptureFree (port tag : Nat) (s : State) : Host.Outcome State Fault Refusal :=
  done <| command 0x0905 port tag s
    (fun fl =>
      let m := par fl 0
      [(decide (m / 2 ^ 16 ≠ 0), sRESERVED), (decide (m = 0), sBAD_PARAM),
       ((bitList 16 m).any fun n => !bit (get s R.CTX_CAP_SLOTS.HELD) n, sWRONG_STATE)])
    (fun fl s =>
      s |> each (bitList 16 (par fl 0)) (fun n s => s |> unevent R.CTX_CAP_SLOTS.HELD n |> put (R.CTX_CAP_HDR.VALID n) 0
          |> wipe (sharedArea (0x200000 + 0x10000 * n)) (sharedArea (0x200000 + 0x10000 * (n + 1))))
        |> complete fl sOK 0 0)

/-! Resets (R459, R473, R483). -/

/-- A die reset: ages of the die's queues 0, its windows cut out of a running capture, and a STUCK context
with a queue on the die back in NORMAL, its fence on the other dies lifted (R467, R473, R483). -/
def recovDieReset (d : Nat) (s : State) : State :=
  let back := s.recov.stuck.filter fun c => ctxState s c = cxSTUCK && (queuesOf s c).any fun q => q / 1024 = d
  s |> setRecov { s.recov with ages := s.recov.ages.filter (fun e => e.1 / 1024 ≠ d),
                               cur := s.recov.cur.map fun q => dropWindows (· = d) { q with gone := setBit q.gone d },
                               stuck := s.recov.stuck.filter fun c => !back.contains c }
    |> each back (fun c s => s |> put (R.CTX_STATE.STATE c) cxNORMAL |> sendOrder 4 c) |> when (!back.isEmpty) stuckOff

/-- An accelerator reset: the sequence and every pending entry end ABORTED, ages are 0, no context is STUCK. -/
def recovAccReset (s : State) : State :=
  let ws := (match s.recov.cur with
    | some q => q.waiter.toList
    | none => []) ++ s.recov.pend.flatMap fun c => c.waiter.toList
  s |> setRecov { s.recov with cur := none, pend := [], ages := [], taps := [], due := false, graph := none, bound := [], stuck := [], ran := [],
                               namedBy := [], namedKind := [] }
    |> put R.HNG_STAT.SEQ_BUSY 0 |> put R.HNG_STAT.CUR_CTX 0 |> faultOff 8
    |> each ws (fun w => completeAt w.1 w.2 sABORTED 0 0) |> scrubsResume

/-- A governor warm reset starts: the agents keep their fences, the sequence and the pending list wait for its end; no
command waits any more (R483, R567), and CTX_CNT.IN_WIN, of class GOV, begins at 0 again (R489; log 58). -/
def recovWarm (s : State) : State :=
  setRecov { s.recov with pend := s.recov.pend.map fun c => { c with waiter := none }, ends := [], hold := true,
                          cur := s.recov.cur.map fun q => { q with waiter := none } } s

/-- The governor warm reset is over: the sequence in progress restarts from step 1, then the pending list (R483). -/
def recovResume (s : State) : State :=
  if s.recov.hold then
    let s := setRecov { s.recov with hold := false } s
    match s.recov.cur with
    | some q => startSeq ⟨q.ctx, none, q.vseq⟩ s
    | none => s
  else s

end Sys2Proof.Machine
end

