-- ==== Sys2Proof/Machine/Ring.lean ====
section
/-! DEFINITION. Sys2Proof/Machine/Ring.lean: the budget ring between packages: frames and their copies, the
member's own words, membership and bypass, the master and its balancing rounds, the configuration digest
(R423 to R454). Applying an assignment as L_RING stands in Caps.lean, beside the other deferred changes. -/

namespace Sys2Proof.Machine

/-- The ring unit changed. -/
def setRing (v : RingH) (s : State) : State := { s with ring := v }

/-- This governor's member ID. -/
def ringId (s : State) : Nat := get s R.RNG_CFG.MEMBER_ID

/-- Codes of RNG_STAT.STATE (R453). -/
def rnOFF : Nat := 0
def rnLISTEN : Nat := 1
def rnMEMBER : Nat := 2
def rnBYPASS : Nat := 3

/-- RNG_STAT.STATE. -/
def ringState (s : State) : Nat := get s R.RNG_STAT.STATE

/-- Whether this governor sends frames as master. -/
def isMaster (s : State) : Bool := isOn s R.RNG_STAT.MASTER_ACT

/-- Member m's copies. -/
def copyOf (s : State) (m : Nat) : RingCopy := sget RingCopy.init m s.ring.copies

/-- What the master knows of member m. -/
def knownOf (s : State) (m : Nat) : RingKnown := sget RingKnown.init m s.ring.known

/-- A member's knowledge replaced. -/
def setKnown (m : Nat) (k : RingKnown) (s : State) : State :=
  setRing { s.ring with known := sset RingKnown.init m k s.ring.known } s

/-- A new MASTER_ID (R438): a change is an event. -/
def setMasterId (m : Nat) (s : State) : State :=
  if get s R.RNG_STAT.MASTER_ID = m then s
  else s |> put R.RNG_STAT.MASTER_ID m |> event R.RNG_EVENT 2 |> record 0x0803 m

/-! Membership (R434 to R437). -/

/-- With EN at 1, the clock LOCKED and no conflict, a governor in bypass listens (R435, R436), from stage FW on and not in
BOOT_FAIL (R679). -/
def ringListen (s : State) : State :=
  if isOn s R.RNG_CFG.EN ∧ clkState s = 2 ∧ !s.boot.govRst ∧ 4 ≤ stage s ∧ stage s ≠ stFAIL ∧ !s.ring.conflict ∧ (ringState s = rnOFF ∨ ringState s = rnBYPASS) then
    s |> put R.RNG_STAT.STATE rnLISTEN |> setRing { s.ring with hdrRun := 0, quietUs := s.us }
  else s

/-- The bypass closes (R434): a member leaves, a listener stops listening; an entry that waits is dropped
(R437). -/
def ringLeave (s : State) : State :=
  let out := if isOn s R.RNG_CFG.EN then rnBYPASS else rnOFF
  if ringState s = rnMEMBER then
    { s with ring := { s.ring with entry := none, taken := none, due := false, outranked := false, closing := false, away := 0 },
             pins := { s.pins with bypEn := false },
             capp := { s.capp with deferred := s.capp.deferred.filter fun x => x.key ≠ 0 } }
      |> put R.RNG_STAT.STATE out |> put R.RNG_STAT.MASTER_ACT 0 |> put R.RNG_BUDGET.PENDING 0xFFFF
      |> event R.RNG_EVENT 1 |> record 0x0802 (ringId s)
  else if ringState s = rnLISTEN then put R.RNG_STAT.STATE out s
  else s

/-- The bypass opens and the governor is a member (R435). -/
def ringEnter (s : State) : State :=
  { s with ring := { s.ring with ever := true, closing := false, outranked := false },
           pins := { s.pins with bypEn := true } }
    |> put R.RNG_STAT.STATE rnMEMBER |> event R.RNG_EVENT 0 |> record 0x0801 (ringId s)

/-- RING_JOIN, R435: after 100 good headers in a row, in the idle gap before FRAME 0. -/
def execRingJoin (s : State) : Host.Outcome State Fault Refusal :=
  done (if ringState s = rnLISTEN ∧ 100 ≤ s.ring.hdrRun ∧ s.ring.lastFrame = 99 then ringEnter s else s)

/-- BYPASS_CLOSE, R434, R436: at the idle gap after EN was written 0, or a conflict; a governor whose EN is 1 by then,
and without a conflict, listens again (R435, R436). -/
def execBypassClose (s : State) : Host.Outcome State Fault Refusal :=
  done (if s.ring.closing then s |> ringLeave |> ringListen else s)

/-- NO_MASTER, R449: no good header for 30 µs at a member that is not the master. -/
def execNoMaster (s : State) : Host.Outcome State Fault Refusal :=
  done (if ringState s = rnMEMBER ∧ !isMaster s ∧ 30 ≤ s.us - s.ring.quietUs then put R.RNG_STAT.NO_MASTER 1 s else s)

/-- The takeover time of R438 in µs: of ROLE MASTER, or of ROLE BACKUP. -/
def takeoverTime (s : State) : Nat := if get s R.RNG_CFG.ROLE = 1 then 30 else 40 + 10 * ringId s

/-- MASTER_TAKEOVER, R435, R438, R441, R450: what it knows of members stays, and MASTER_ID follows the next good header
(R453). No good header for its takeover time; or a ROLE MASTER member that receives MROLE
0, in the idle gap before FRAME 0. -/
def effMasterTakeover (s : State) : State :=
  let role := get s R.RNG_CFG.ROLE
  let quiet := decide (takeoverTime s ≤ s.us - s.ring.quietUs)
  let claims := decide (role = 1 ∧ ringState s = rnMEMBER ∧ s.ring.mrole = 0 ∧ 0 < s.ring.hdrRun ∧ s.ring.lastFrame = 99)
  if (role = 1 ∨ role = 2) ∧ (ringState s = rnLISTEN ∨ ringState s = rnMEMBER) ∧ !isMaster s ∧ (quiet || claims) then
    let s := if ringState s = rnLISTEN then ringEnter s else s
    s |> put R.RNG_STAT.MASTER_ACT 1
      |> setRing { s.ring with frame := 0, holdOne := true, assigns := [], outranked := false, returned := 0,
                               balanceDue := false, roundDone := false }
  else s

/-- MASTER_TAKEOVER. -/
def execMasterTakeover (s : State) : Host.Outcome State Fault Refusal := done (effMasterTakeover s)

/-- MASTER_YIELD, R438: a sending master that saw a header of higher precedence, or is no longer of a role
that sends, stops at the idle gap. -/
def execMasterYield (s : State) : Host.Outcome State Fault Refusal :=
  done (if isMaster s ∧ (s.ring.outranked ∨ get s R.RNG_CFG.ROLE = 0) then
    s |> put R.RNG_STAT.MASTER_ACT 0 |> setRing { s.ring with outranked := false, assigns := [], balanceDue := false }
  else s)

/-! The member's own words (R429 to R432). -/

/-- Slack and step tag (R431): no die crossed a step boundary for IDLE_MS gives 65,535 and tag 0. -/
def ownSlack (s : State) : Nat × Nat :=
  match s.ring.lastStep with
  | none => (65535, 0)
  | some t =>
    if get s R.RNG_BAL2.IDLE_MS * 1000 ≤ s.us - s.ring.stepUs then (65535, 0)
    else
      let w := ((dies s).filter fun d => get s (R.ITN_STEP.LAST d) = t).map fun d => get s (R.ITN_STEP_WAIT.NS d)
      match w with
      | [] => (65535, t)
      | x :: l => (min 65535 (l.foldl min x / 1000), t)

/-- Whether throttle reason 4, RING, is active on a die now (R374). -/
def ringLimits (s : State) : Bool := (dies s).any fun d => bit (get s (R.CAP_DIE_THR.ACTIVE d)) 4

/-- The four WORDs latched at FRAME 0 with LIMITED: the reason was active at some time of the superframe that ends
(R429, R430, R432). -/
def latchWords (s : State) : State :=
  let (sl, tag) := if s.ring.stale then (nth s.ring.frozen 0, nth s.ring.frozen 1) else ownSlack s
  let w0 := get s R.RNG_BUDGET.INFORCE + sl * 2 ^ 16 + tag % 2 ^ 16 * 2 ^ 32
  let w1 := get s R.RNG_LIM.FLOOR + get s R.RNG_LIM.CEIL * 2 ^ 16
  let w3 := get s R.RNG_GEN.GEN + s.ring.applied % 2 ^ 16 * 2 ^ 32
  s |> put R.RNG_STAT2.SLACK sl
    |> setRing { s.ring with words := [w0, w1, s.ring.digest % 2 ^ 64, w3, b2n (s.ring.limited || ringLimits s)],
                             limited := ringLimits s }

/-- STALE set at the start of an accelerator or die reset (R432): the slack and tag last carried repeat. -/
def ringStale (s : State) : State :=
  if s.ring.stale then s
  else setRing { s.ring with stale := true, frozen := [bits (nth s.ring.words 0) 16 16, bits (nth s.ring.words 0) 32 16] } s

/-- The flags of R432. -/
def ownFlags (s : State) : Nat :=
  1 + 2 * b2n (get s R.CAP_BROWN_STAT.STATE ≠ 0) + 4 * b2n s.ring.stale + 8 * b2n (get s R.RNG_BUDGET.PENDING ≠ 0xFFFF)
    + 16 * nth s.ring.words 4 + 32 * b2n s.ring.busy

/-- The member's slot for a frame (R427). -/
def ownSlot (s : State) (f : Nat) : List Nat :=
  let b := [ownFlags s, get s R.RNG_STAT2.FEED_ID] ++ leBytes 8 (nth s.ring.words (f % 4))
  b ++ leBytes 2 (crc16 b)

/-- An entry taken at the end of FRAME 99 where a good copy came, else ASSIGN_MISS (R443). -/
def takeEntry (s : State) : State :=
  match s.ring.entry with
  | some (r, w) =>
    if w = 0xFFFF then setRing { s.ring with entry := none } s
    else setRing { s.ring with entry := none, taken := some (r, w), due := false } s
  | none => event R.RNG_EVENT 8 s

/-! Frames (R425 to R430). -/

/-- The header of a frame as the master sends it (R426). -/
def headerOf (f m mrole round : Nat) (asg : List Nat) : List Nat :=
  let b := [f, 0, m % 64 + mrole % 2 * 64, 0] ++ leBytes 2 round ++ asg.flatMap (leBytes 2)
  b ++ leBytes 2 (crc16 b)

/-- The symbols K28.5, K27.7, the bytes of a frame, and K29.7 leave on RING_OUT (R425). -/
def sendRing (b : List Nat) (s : State) : State :=
  s |> emit (.ringSymbol 28 5) |> emit (.ringSymbol 27 7) |> emit (.ringFrame b) |> emit (.ringSymbol 29 7)

/-- A superframe begins (R429, R430, R443): the words latched, the copies of the last one old. -/
def beginSuper (s : State) : State :=
  s |> setRing { s.ring with due := s.ring.taken.isSome, copies := s.ring.copies.map fun e => (e.1, { e.2 with kinds := 0, seen := false }) }
    |> latchWords

/-- MASTER_FRAME_START, R425, R426, R443: every slot empty but the master's own; after the frame the idle symbol. -/
def effMasterFrameStart (s : State) : State :=
  if isMaster s then
    let f := s.ring.frame
    let s := if f = 0 then
        s |> setRing { s.ring with returned := 0, roundDone := false } |> beginSuper
      else s
    let asg := (List.range 4).map fun i => sget 0xFFFF (4 * (f % 16) + i) s.ring.assigns
    let own := ownSlot s f
    let h := headerOf f (ringId s) (b2n (get s R.RNG_CFG.ROLE = 1)) s.ring.round asg
    let s := s |> sendRing (h ++ (List.range 64).flatMap fun m => if m = ringId s then own else List.replicate 12 0) |> emit (.ringSymbol 28 5)
    let s := if ringId s / 4 = f % 16
      then setRing { s.ring with entry := some (s.ring.round, nth asg (ringId s % 4)) } s else s
    let s := setRing { s.ring with frame := (f + 1) % 100, balanceDue := s.ring.balanceDue || f = 99, away := min 2 (s.ring.away + 1) } s
    if f = 99 then takeEntry s else s
  else s

/-- MASTER_FRAME_START. -/
def execMasterFrameStart (s : State) : Host.Outcome State Fault Refusal := done (effMasterFrameStart s)

/-- FEED_BROWN of a good slot of another member (R448, R609): recorded and counted at a change of the member's bit. -/
def feedBrown (m flags feed : Nat) (s : State) : State :=
  let own := get s R.RNG_STAT2.FEED_ID
  let was := bit (get s R.RNG_FEED_BROWN.MAP) m
  if bit flags 1 then
    (if feed = own ∧ own ≠ 0 then
      s |> event R.RNG_FEED_BROWN.MAP m |> event R.RNG_EVENT 6
        |> when (!was) (fun s => s |> record 0x0806 m |> countHealth 3 1 |> event R.HLT_FEED_MAP.MAP m)
    else s)
  else unevent R.RNG_FEED_BROWN.MAP m s

/-- A good slot of a member kept as its copy of the frame's kind, and shown in its registers (R430, R454). -/
def keepCopy (m f : Nat) (b : List Nat) (s : State) : State :=
  let c := copyOf s m
  let flags := nth b 0
  let feed := nth b 1 % 64
  let w := leNat ((b.drop 2).take 8)
  let c := { c with seen := bit flags 0, flags := flags, feed := feed, kinds := setBit c.kinds (f % 4) }
  let c :=
    if f % 4 = 0 then { c with budget := bits w 0 16, slack := bits w 16 16, stepTag := bits w 32 16 }
    else if f % 4 = 1 then { c with floor := bits w 0 16, ceil := bits w 16 16 }
    else if f % 4 = 2 then { c with frag := w }
    else { c with gen := bits w 0 32, applied := bits w 32 16 }
  s |> setRing { s.ring with copies := sset RingCopy.init m c s.ring.copies }
    |> put (R.RNG_MBR_C.FLAGS m) flags |> put (R.RNG_MBR_C.FEED_ID m) feed
    |> put (R.RNG_MBR_A.BUDGET m) c.budget |> put (R.RNG_MBR_A.SLACK m) c.slack
    |> put (R.RNG_MBR_B.FLOOR m) c.floor |> put (R.RNG_MBR_B.CEIL m) c.ceil |> put (R.RNG_MBR_D.GEN m) c.gen

/-- A slot is empty when its 12 bytes are zero (R427). -/
def slotEmpty (b : List Nat) : Bool := b.all (· = 0)

/-- A slot whose SCRC is right. -/
def slotGood (b : List Nat) : Bool := leNat ((b.drop 10).take 2) = crc16 (b.take 10)

/-- The slots of a frame read: bad ones are counted, good ones kept, this member's own only where `own` says
that it wrote it (R428, R430, R448). -/
def readSlots (own : Bool) (f : Nat) (slots : List (List Nat)) (s : State) : State :=
  each (List.range 64) (fun m s =>
    let b := slots.getD m []
    if slotEmpty b then s
    else if !slotGood b then addSat R.RNG_ERR.SLOT 1 s
    else if m = ringId s then when own (keepCopy m f b) s
    else s |> keepCopy m f b |> feedBrown m (nth b 0) (nth b 1 % 64)) s

/-- ID_CONFLICT (R434, R436): FAULT_N is asserted; a member closes its bypass at the next idle gap, and a listener, whose
bypass is closed, stops listening. -/
def idConflict (s : State) : State :=
  if s.ring.conflict then s
  else
    let s := s |> put R.RNG_STAT.ID_CONFLICT 1 |> event R.RNG_EVENT 4 |> record 0x0804 (ringId s) |> faultOn 7
      |> setRing { s.ring with conflict := true, closing := decide (ringState s = rnMEMBER) }
    if ringState s = rnMEMBER then s else ringLeave s

/-- The end of a superframe (R446, R453): who was present, and whether the digests agree. A member without a good DIGEST
copy in the superframe has none to differ (log 95). -/
def superEnd (s : State) : State :=
  let others := (List.range 64).filter fun m => m ≠ ringId s ∧ (copyOf s m).seen
  let differ := others.filter fun m => bit (copyOf s m).kinds 2 && decide ((copyOf s m).frag ≠ s.ring.digest % 2 ^ 64)
  let map := setBit (maskOf others) (ringId s)
  let agree := differ.isEmpty && !s.ring.busy && !(others.any fun m => bit (copyOf s m).flags 5)
  let was := isOn s R.RNG_STAT.AGREE
  s |> put R.RNG_PRESENT.MAP map |> put R.RNG_STAT.N_MEMBERS (others.length + 1)
    |> put R.RNG_DIG_MISMATCH.MAP (maskOf differ) |> putB R.RNG_STAT.AGREE agree
    |> when (was && !agree) (fun s => s |> event R.RNG_EVENT 5 |> record 0x0805 (differ.length + differ.headD 0 * 2 ^ 8))

/-- The frames of a superframe are over at a member that forwards (R443, R446). -/
def endSuper (s : State) : State := s |> takeEntry |> superEnd

/-- A frame that begins another superframe than the one before it (last is its FRAME): an end or a start that was lost
with its frame is made good. -/
def newSuper (last f : Nat) (s : State) : State :=
  if f ≤ last then s |> when (decide (last ≠ 99)) endSuper |> beginSuper else s

/-- A good header at a member that forwards (R424, R428, R443): its copies, its slot, its entry. -/
def memberFrame (last : Nat) (h : List Nat) (slots : List (List Nat)) (s : State) : State :=
  let f := nth h 0
  let id := ringId s
  let s := s |> newSuper last f |> readSlots false f slots
  let h' := h.set 1 ((nth h 1 + 1) % 256)
  let h' := h'.take 14 ++ leBytes 2 (crc16 (h'.take 14))
  let own := ownSlot s f
  let s := sendRing (h' ++ (List.range 64).flatMap fun m => if m = id then own else slots.getD m (List.replicate 12 0)) s
  let s := if id / 4 = f % 16 then
      setRing { s.ring with entry := some (leNat ((h.drop 4).take 2), leNat ((h.drop (6 + 2 * (id % 4))).take 2)) } s
    else s
  if f = 99 then endSuper s else s

/-- A frame of its own comes back to the governor that sent it (R439): it is removed, and counted while it sends. -/
def ownFrame (f : Nat) (slots : List (List Nat)) (s : State) : State :=
  let s := s |> setRing { s.ring with away := s.ring.away - 1 } |> readSlots true f slots
  if isMaster s then
    let s := setRing { s.ring with returned := s.ring.returned + 1 } s
    if f = 99 then s |> setRing { s.ring with roundDone := true } |> superEnd else s
  else s

/-- Another master's frame at a sending master, which removes it (R438): whether its header ranks higher. -/
def rivalFrame (m : Nat) (r : Bool) (s : State) : State :=
  let mine := decide (get s R.RNG_CFG.ROLE = 1)
  if (r && !mine) || (r = mine && decide (m < ringId s)) then setRing { s.ring with outranked := true } s else s

/-- What a good header says wherever it is received (R424, R438, R449, R453). -/
def noteHeader (h : List Nat) (s : State) : State :=
  s |> setRing { s.ring with hdrRun := min 100 (s.ring.hdrRun + 1), mrole := b2n (bit (nth h 2) 6), lastFrame := nth h 0, quietUs := s.us }
    |> put R.RNG_STAT.NO_MASTER 0 |> setMasterId (nth h 2 % 64)

/-- RING_FRAME, R424, R428: a frame of 16 header bytes and 64 slots arrives. A governor in bypass listens, while the
switch carries the frame past it. A frame is the governor's own where it bears its ID as MASTER_ID and one that it
sent may still be under way (log 95). -/
def effRingFrame (header : List Nat) (slots : List (List Nat)) (s : State) : State :=
  let h := header.map (· % 256)
  let sl := slots.map fun b => b.map (· % 256)
  let st := ringState s
  let last := s.ring.lastFrame
  let m := nth h 2 % 64
  if !s.clk.started then s
  else if leNat ((h.drop 14).take 2) ≠ crc16 (h.take 14) then
    if st = rnLISTEN ∨ st = rnMEMBER then
      s |> addSat R.RNG_ERR.HDR 1 |> setRing { s.ring with hdrRun := 0 }
        |> when (decide (st = rnMEMBER) && !isMaster s) (sendRing (h ++ sl.flatten))
    else s
  else
    let s := noteHeader h s
    let own := sl.getD (ringId s) []
    let mine := decide (m = ringId s ∧ 0 < s.ring.away)
    let s := when (decide (st = rnLISTEN ∨ st = rnMEMBER) && !slotEmpty own && slotGood own && bit (nth own 0) 0 && !mine) idConflict s
    if st ≠ rnMEMBER then s
    else if mine then ownFrame (nth h 0) sl s
    else if isMaster s then rivalFrame m (bit (nth h 2) 6) s
    else memberFrame last h sl s

/-- RING_FRAME. -/
def execRingFrame (header : List Nat) (slots : List (List Nat)) (s : State) : Host.Outcome State Fault Refusal :=
  done (effRingFrame header slots s)

/-! Balancing (R440 to R443, R450). -/

/-- Whether round a is above round b; rounds of 16 bits wrap as sequence numbers do. -/
def roundAbove (a b : Nat) : Bool :=
  let d := (a + 65536 - b % 65536) % 65536
  1 ≤ d && d ≤ 32767

/-- What the master knows of a member after a superframe in which it was present (R441, R450). -/
def learn (first : Bool) (m : Nat) (s : State) : State :=
  let c := copyOf s m
  let k := knownOf s m
  let full := bit c.kinds 0 && bit c.kinds 1 && bit c.kinds 3
  if c.seen ∧ (k.known ∨ full ∨ first) then
    let res := if roundAbove k.round c.applied then max c.budget k.assigned else c.budget
    setKnown m { k with known := true, res := res } s
  else s

/-- The first of a rotation that a test admits, and the rotation after it. -/
def turn (ok : Nat → Bool) : List Nat → List Nat → Option (Nat × List Nat)
  | _, [] => none
  | passed, m :: t => if ok m then some (m, t ++ passed.reverse ++ [m]) else turn ok (m :: passed) t

/-- TOTAL lowered (R442): n times, 1 W from the present member with the largest room above its floor. -/
def takeBack (room : List (Nat × Nat) → Nat → Nat) (cand : List Nat) : Nat → List (Nat × Nat) → List (Nat × Nat)
  | 0, v => v
  | n + 1, v =>
    match cand.foldl (fun b m => match b with
        | none => some m
        | some x => if room v x < room v m then some m else some x) none with
    | some m => if 0 < room v m then takeBack room cand n (sset 0 m (sget 0 m v - 1) v) else v
    | none => v

/-- Free watts given to the receivers in rotation (R442), with the watts left and the rotation reached. -/
def giveFree (ceil : Nat → Nat) : Nat → Nat → List Nat → List (Nat × Nat) → Nat × List Nat × List (Nat × Nat)
  | 0, free, rcv, v => (free, rcv, v)
  | n + 1, free, rcv, v =>
    if free = 0 then (free, rcv, v)
    else match turn (fun m => decide (sget 0 m v < ceil m)) [] rcv with
      | some (m, rcv') => giveFree ceil n (free - 1) rcv' (sset 0 m (sget 0 m v + 1) v)
      | none => (free, rcv, v)

/-- Credits moved from donors to receivers, each in rotation (R442). -/
def moveCredits (floor ceil : Nat → Nat) : Nat → List Nat → List Nat → List (Nat × Nat) → List (Nat × Nat)
  | 0, _, _, v => v
  | n + 1, rcv, don, v =>
    match turn (fun m => decide (sget 0 m v < ceil m)) [] rcv, turn (fun m => decide (floor m < sget 0 m v)) [] don with
    | some (r, rcv'), some (d, don') =>
      let v := sset 0 d (sget 0 d v - 1) v
      moveCredits floor ceil n rcv' don' (sset 0 r (sget 0 r v + 1) v)
    | _, _ => v

/-- Members sorted by a key and then by ID. -/
def sortBy (key : Nat → Nat) (l : List Nat) : List Nat :=
  l.foldl (fun acc m => acc.takeWhile (fun x => key x < key m ∨ (key x = key m ∧ x < m)) ++ m ::
    acc.dropWhile (fun x => key x < key m ∨ (key x = key m ∧ x < m))) []

/-- The new budgets of a round (R442), by member. -/
def roundBudgets (s : State) : List (Nat × Nat) :=
  let known := (List.range 64).filter fun m => (knownOf s m).known
  let here := known.filter fun m => (copyOf s m).seen
  let cp := copyOf s
  let flag := fun b m => bit (cp m).flags b
  let res := known.foldl (fun a m => a + (knownOf s m).res) 0
  let total := get s R.RNG_TOTAL.TOTAL
  let v0 := here.foldl (fun v m => sset 0 m (cp m).budget v) []
  let floor := fun m => (cp m).floor
  let ceil := fun m => (cp m).ceil
  let v1 := takeBack (fun v m => sget 0 m v - floor m) (here.filter fun m => !flag 3 m) (res - total) v0
  let mv := get s R.RNG_BAL2.MOVE_W
  let live := here.filter fun m => !flag 2 m && !flag 3 m
  let rcv := sortBy (fun m => (cp m).slack)
    (live.filter fun m => flag 4 m && decide ((cp m).slack ≤ get s R.RNG_BAL.CRIT_US ∧ sget 0 m v1 < ceil m))
  let don := sortBy (fun m => 65535 - (cp m).slack)
    (live.filter fun m => !rcv.contains m && decide (get s R.RNG_BAL.DONOR_US ≤ (cp m).slack ∧ floor m < sget 0 m v1))
  let (_, rcv', v2) := giveFree ceil (min mv (total - res)) (total - res) rcv v1
  let v3 := moveCredits floor ceil mv rcv' don v2
  here.map fun m => (m, sget 0 m v3)

/-- One assignment of the round noted (R441). -/
def noteAssign (round : Nat) (e : Nat × Nat) (s : State) : State :=
  let k := knownOf s e.1
  setKnown e.1 { k with assigned := e.2, round := round, res := max k.res e.2 } s

/-- BALANCE_ROUND, R439 to R442, R450: at the end of FRAME 99 the master closes the superframe and computes
the next round. -/
def effBalanceRound (s : State) : State :=
  if isMaster s ∧ s.ring.balanceDue then
    let s := if s.ring.roundDone then s else superEnd s
    let broken := decide (s.ring.returned < 90)
    let hold := s.ring.holdOne
    let s := s |> setRing { s.ring with balanceDue := false, assigns := [], holdOne := false } |> putB R.RNG_STAT.BROKEN broken
      |> when broken (event R.RNG_EVENT 3)
      |> each (List.range 64) (learn hold)
    let known := (List.range 64).filter fun m => (knownOf s m).known
    let here := known.filter fun m => (copyOf s m).seen
    let high := here.foldl (fun a m => if roundAbove (copyOf s m).applied a then (copyOf s m).applied else a)
      ((here.map fun m => (copyOf s m).applied).headD 0)
    if hold then setRing { s.ring with round := high } s
    else if broken then s
    else if get s R.RNG_TOTAL.TOTAL < known.foldl (fun a m => a + (copyOf s m).floor) 0 then event R.RNG_EVENT 7 s
    else
      let r := (s.ring.round + 1) % 65536
      let a := roundBudgets s
      s |> setRing { s.ring with round := r, assigns := a } |> each a (noteAssign r)
  else s

/-- BALANCE_ROUND. -/
def execBalanceRound (s : State) : Host.Outcome State Fault Refusal := done (effBalanceRound s)

/-! The configuration digest (R445, R446, R451). -/

/-- Whether a field that no port writes is set by a command, and so belongs to the configuration (R445). -/
def setByCommand (f : Field) : Bool :=
  let o := f.off
  (0x0C0000 ≤ o && o < 0x0C0800 && [R.THM_TH_DIE.WARN, R.THM_TH_DIE.THR, R.THM_TH_LAYER.WARN, R.THM_TH_LAYER.THR,
      R.THM_TH_STK.WARN, R.THM_TH_STK.THR].contains f)
  || (0x0A0000 ≤ o && o < 0x0A0140 && ([R.CAP_MODE.MODE, R.CAP_MODE.OP_FIX, R.CAP_PKG_CAP.CAP, R.CAP_AVG_LIM.LIM,
      R.CAP_CLASS.ORDER, R.CAP_CLASS_FLOOR.COMP, R.CAP_CLASS_FLOOR.MEM, R.CAP_CLASS_FLOOR.LINK].contains f || 0x0A0100 ≤ o))
  || (0x0A2000 ≤ o && o < 0x0A2400)
  || (0x0A1000 ≤ o && o < 0x0A1400 && ((o % 0x40 = 0 && 8 ≤ f.lo && f.lo < 21) || o % 0x40 = 4 || o % 0x40 = 8))
  || (0x0E0000 ≤ o && o < 0x0E0200 && (List.range 8).any fun w =>
      f = R.CTX_CAPWIN.DIE w || f = R.CTX_CAPWIN.EN w || f = R.CTX_CAPWIN.OFS w || f = R.CTX_CAPWIN.LEN w)
  || (0x100000 ≤ o && o < 0x100200 && (f = R.SEC_DBG.DBG || f = R.SEC_DBG.PROF || 0x100100 ≤ o))
  || (0x101000 ≤ o && o < 0x102000 && ((o % 0x100 = 0 && 0 < f.lo && f ≠ R.SEC_PART_CFG.STATE ((o - 0x101000) / 0x100))
      || [R.SEC_PART_RES.DIES ((o - 0x101000) / 0x100), R.SEC_PART_RES.STACKS ((o - 0x101000) / 0x100),
          R.SEC_PART_QG.FIRST ((o - 0x101000) / 0x100), R.SEC_PART_QG.COUNT ((o - 0x101000) / 0x100),
          R.SEC_PART_LINK.PORTS ((o - 0x101000) / 0x100)].contains f))
  || (0x140100 ≤ o && o < 0x140140)
  || (0x140200 ≤ o && o < 0x140280 && f ≠ R.REC_TRIG.TRUE ((o - 0x140200) / 0x10))
  || (0x141000 ≤ o && o < 0x141100 && [R.HLT_CFG.TH, R.HLT_CFG.HYST, R.HLT_THERM.M0].contains f)
  || (0x141100 ≤ o && o < 0x141160 && (let i := (o - 0x141100) / 0x10
      [R.HLT_CONTRIB.GAIN i, R.HLT_CONTRIB.DECAY i, R.HLT_CONTRIB.WEIGHT i].contains f))

/-- Whether a field belongs to part 1 of the serialisation (R445). -/
def inDigest (f : Field) : Bool :=
  (f.acc = Acc.rw || setByCommand f) && f.cls ≠ Ret.fuse && f.cls ≠ Ret.gov && f.page = 0
    && !([R.BOOT_GSTATE.REQ, R.RNG_CFG.MEMBER_ID, R.RNG_CFG.ROLE, R.RNG_TOTAL.TOTAL].contains f)
    && !(0x020100 ≤ f.off && f.off < 0x020200 && (List.range 8).any fun c =>
      [R.PST_PMB_CONV.ADDR c, R.PST_PMB_CONV.EN c, R.PST_PMB_CONV.PAGE c, R.PST_PMB_CONV.VOUT_EXP c].contains f)

/-- Whether a field belongs to the commit group of a rail, whose register shows the shadow copy (R188). -/
def inCommitGroup (f : Field) : Bool := 0x041000 ≤ f.off && f.off < 0x041840 && f.off % 0x40 ≤ 0x28

/-- A rail's active set, or the one committed and due at its next evaluation, by the offset of the register and
the place of the field (R188, R189, R205); the VCORE target is the operating point's. -/
def activeField (s : State) (f : Field) : Nat :=
  let r := (f.off - 0x041000) / 0x40
  let c := (railOf s r).pending.getD (railOf s r).coef
  match f.off % 0x40, f.lo with
  | 0x00, _ => c.kp | 0x04, _ => c.ki | 0x08, _ => c.kd | 0x0C, _ => c.kb | 0x10, _ => c.a1 | 0x14, _ => c.a2 | 0x18, _ => c.kff
  | 0x1C, 0 => c.lead | 0x1C, 10 => c.ffv | 0x1C, 11 => c.ffl | 0x1C, _ => c.share
  | 0x20, 0 => c.dmin | 0x20, _ => c.dmax
  | 0x24, 0 => if r < 16 then get s f else c.target
  | 0x24, _ => c.slew
  | 0x28, 0 => c.limit | _, _ => c.time

/-- The value of a field in the effective configuration (R188, R445; log 26). -/
def configValue (s : State) (f : Field) : Nat := if inCommitGroup f then activeField s f else readField s f

/-- Part 1: each field's offset, lsb and value (R445). -/
def digestFields (s : State) : List Nat :=
  allGroups.flatMap fun g => (List.range g.count).flatMap fun i =>
    ((g.fields 0 i).filter inDigest).flatMap fun f =>
      leBytes 4 f.off ++ [f.lo] ++ leBytes 8 (configValue s f)

/-- Part 2 for a die: MODEL_ID, MODEL_VER and the signature of its active model, or 108 zero bytes. -/
def digestModel (s : State) (d : Nat) : List Nat :=
  let e := estOf s d
  match e.banks[e.active]? with
  | some b =>
    if b.valid then leBytes 8 (leAt b.pkg 0x14 4) ++ leBytes 4 (leAt b.pkg 0x18 4) ++ b.pkg.drop (b.pkg.length - 96)
    else List.replicate 108 0
  | none => List.replicate 108 0

/-- Part 3 for a die: its 16 operating-point entries. -/
def digestOps (s : State) (d : Nat) : List Nat :=
  (List.range 16).flatMap fun j => leBytes 2 (get s (R.CAP_OPT.V (16 * d + j))) ++ leBytes 2 (get s (R.CAP_OPT.F (16 * d + j)))

/-- The serialised configuration (R445). -/
def configBytes (s : State) : List Nat :=
  digestFields s ++ (dies s).flatMap (digestModel s) ++ (dies s).flatMap (digestOps s)

/-- The digest and the generation copied to a port's area, and GET_CONFIG_DIGEST completed (R451). -/
def copyDigest (fl : Flight) (s : State) : State :=
  let g := get s R.RNG_GEN.GEN
  s |> put (R.RNG_DIG_OUT.DIGEST fl.port) s.ring.digest |> put (R.RNG_DIG_OUT.GEN fl.port) g
    |> complete fl sOK g (s.ring.digest % 2 ^ 32)

/-- DIGEST_RECOMPUTE, R445, R451: the digest is formed again, DIG_BUSY falls, and commands that wait for it
complete. -/
def effDigestRecompute (s : State) : State :=
  if s.ring.busy then
    let s := setRing { s.ring with digest := leNat (sha384 (configBytes s)), busy := false } s
    each (s.host.flights.filter fun f => f.opcode = 0x0801 && f.started) copyDigest s
  else s

/-- DIGEST_RECOMPUTE. -/
def execDigestRecompute (s : State) : Host.Outcome State Fault Refusal := done (effDigestRecompute s)

/-- GET_CONFIG_DIGEST, R451: at once, or when DIG_BUSY falls. -/
def execGetConfigDigest (port tag : Nat) (s : State) : Host.Outcome State Fault Refusal :=
  done <| command 0x0801 port tag s (fun _ => [])
    (fun fl s => if s.ring.busy then markStarted fl.port fl.tag s else copyDigest fl s)

/-- RING_FORGET, R452. -/
def execRingForget (port tag : Nat) (s : State) : Host.Outcome State Fault Refusal :=
  done <| command 0x0802 port tag s
    (fun fl =>
      let m := par fl 0 % 64
      [(decide (par fl 0 / 2 ^ 6 ≠ 0), sRESERVED), (!isMaster s || bit (get s R.RNG_PRESENT.MAP) m, sWRONG_STATE)])
    (fun fl s => s |> setKnown (par fl 0 % 64) RingKnown.init |> complete fl sOK 0 0)

end Sys2Proof.Machine
end

