-- ==== Sys2Proof/Machine/Thermal.lean ====
section
/-! DEFINITION. Sys2Proof/Machine/Thermal.lean: temperature conversion, cross-check, levels, the thermal loop,
shutdown, and the judgement of warm-up (R321, R323, R390 to R419). -/

namespace Sys2Proof.Machine

/-- The thermal unit changed. -/
def setTherm (v : ThermH) (s : State) : State := { s with therm := v }

/-- Rail r's loop is not OFF (R180). -/
def railOn (s : State) (r : Nat) : Bool := get s (R.LPE_STAT.STATE r) ≠ 0

/-- Whether die d's readings are held: link lost, in a reset (R406, R629). -/
def dieHeld (s : State) (d : Nat) : Bool := (linkOf s d).lost || dieInReset s d

/-- How many sensors of a die are fitted (R390). -/
def nSensors (s : State) : Nat := 64 + 8 * nLayers s

/-- Whether sensor i of die d is powered: the body by VCORE, a layer by VCORE or VMEM (R415, R632). -/
def sensorLive (s : State) (d i : Nat) : Bool := railOn s d || (64 ≤ i && railOn s (16 + d))

/-- The 20 µs conversion period that runs, counted from 1 (R393). -/
def conversionPeriod (s : State) : Nat := s.us / 20 + 1

/-- CONVERSION_OPEN, R393: the agents open their windows, once in a conversion period. -/
def effConversionOpen (s : State) : State :=
  if s.clk.started ∧ s.therm.period ≠ conversionPeriod s then
    s |> setTherm { s.therm with isOpen := true, period := conversionPeriod s, clock := clkState s, closed := false, spoiled := false, counts := [] }
      |> emit .sensorOpen
  else s

/-- CONVERSION_OPEN. -/
def execConversionOpen (s : State) : Host.Outcome State Fault Refusal := done (effConversionOpen s)

/-- The counts of a die received (R393). -/
def takeCounts (die : Nat) (counts : List Nat) (s : State) : State :=
  setTherm { s.therm with counts := sset [] die (counts.map (· % 2 ^ 24)) s.therm.counts } s

/-- WINDOW_CLOSE, R393, R399: the windows close, and the 96 counts of a die go to the core, which takes them from
the frame that completes them. -/
def effWindowClose (die : Nat) (frame : Frame) (counts : List Nat) (s : State) : State :=
  if s.therm.isOpen ∧ isPresent s die then
    s |> setTherm { s.therm with closed := true }
      |> when (!dieHeld s die) (fun s => s |> emit (.sensorCounts die) |> acceptFrame true tyBULK die frame (takeCounts die counts))
  else s

/-- WINDOW_CLOSE. -/
def execWindowClose (report : Arrival) (counts : List Nat) (s : State) : Host.Outcome State Fault Refusal :=
  done (effWindowClose report.die report.frame counts s)

/-- rdiv of R394 with a divisor that may be negative. -/
def rdivI (a b : Int) : Int := if b < 0 then roundDiv (-a) b.natAbs else roundDiv a b.natAbs

/-- A count at its 10 µs equivalent, for the clock state of the window it was taken in (R394, R395). A window without REFCLK edges gives none: a free value (log 73). -/
def scaleCount (s : State) (edges n : Nat) : Nat :=
  if s.therm.clock = 4 then (if edges = 0 then fresh s % 2 ^ 24 else (roundDiv (n * 1000) edges).toNat % 2 ^ 24)
  else if s.therm.clock = 3 then (roundDiv (n * get s R.THM_COAST_CAL.CT) 8192).toNat % 2 ^ 24
  else n

/-- The reading of sensor g for a scaled count (R394). A sensor whose two fused counts are equal has no stated
reading: a free value (log 73). -/
def reading (s : State) (g ns : Nat) : Int :=
  let ca : Int := get s (R.THM_SNS_CAL.CA g)
  let cb : Int := get s (R.THM_SNS_CAL.CB g)
  let ta := getI s R.THM_CAL_T.TA
  if cb = ca then toSigned 16 (fresh s)
  else satI (ta + rdivI ((ns - ca) * (getI s R.THM_CAL_T.TB - ta)) (cb - ca)) 16

/-- A list of integers in rising order. -/
def sortInt (l : List Int) : List Int :=
  l.foldl (fun l x => l.takeWhile (· < x) ++ x :: l.dropWhile (· < x)) []

/-- The median of R400, none of an empty list. -/
def median (l : List Int) : Int :=
  let t := sortInt l
  let n := t.length
  if n % 2 = 1 then nthI t (n / 2) else sar (nthI t (n / 2 - 1) + nthI t (n / 2)) 1

/-- The neighbours of sensor i of die d (R392). -/
def neighbours (s : State) (d i : Nat) : List Nat :=
  let g := 96 * d + i
  ((List.range (get s (R.THM_SNS_DESC.N_NBR g))).map fun k => bits (get s (R.THM_SNS_DESC.NBR g)) (7 * k) 7).filter (· < nSensors s)

/-- Whether sensor i of die d is included. -/
def included (s : State) (d i : Nat) : Bool := !isOn s (R.THM_SNS.EXCL (96 * d + i))

/-- A die's conversion in hand: the scaled counts and raw readings by sensor, those live and their status before. -/
structure Conv where
  live : List Nat
  raw : List (Nat × Int)
  incl : List Nat
deriving DecidableEq, Repr

/-- The raw reading of sensor i. -/
def Conv.t (c : Conv) (i : Nat) : Int := sget 0 i c.raw

/-- The raw readings of a sensor's included neighbours. -/
def nbrReadings (s : State) (d : Nat) (c : Conv) (i : Nat) : List Int :=
  ((neighbours s d i).filter fun k => c.live.contains k && c.incl.contains k).map c.t

/-- A sensor excluded with a cause (R398, R401, R417). -/
def excludeSensor (d i cause : Nat) (s : State) : State :=
  let g := 96 * d + i
  s |> put (R.THM_SNS.EXCL g) 1 |> put (R.THM_SNS.CAUSE g) cause |> setTherm { s.therm with runs := sset ⟨0, 0, 0⟩ g ⟨0, 0, 0⟩ s.therm.runs }
    |> event R.THM_EVENT 3 |> addSat (R.THM_DIE_CNT.EXCLUDES d) 1 |> countHealth 4 1
    |> recordDie 0x0702 d (g + cause * 2 ^ 16)

/-- THERM_LOST ends when any sensor of the die is readmitted (R405). -/
def leaveLost (d : Nat) (s : State) : State :=
  if isOn s (R.THM_DIE_STAT.LOST d) then
    let s := put (R.THM_DIE_STAT.LOST d) 0 s
    when ((List.range 16).all fun x => !isOn s (R.THM_DIE_STAT.LOST x)) (faultOff 15) s
  else s

/-- A sensor readmitted (R403, R418). -/
def readmitSensor (d i : Nat) (s : State) : State :=
  let g := 96 * d + i
  s |> put (R.THM_SNS.EXCL g) 0 |> put (R.THM_SNS.CAUSE g) 0 |> setTherm { s.therm with runs := sset ⟨0, 0, 0⟩ g ⟨0, 0, 0⟩ s.therm.runs }
    |> event R.THM_EVENT 4 |> addSat (R.THM_DIE_CNT.READMITS d) 1 |> recordDie 0x0703 d g |> leaveLost d

/-- A sensor's runs (R401, R403, R412). -/
def runOf (s : State) (g : Nat) : SRun := sget ⟨0, 0, 0⟩ g s.therm.runs

/-- Cross-check of one sensor (R398, R400, R401, R403): its runs, then its exclusion or readmission. -/
def crossCheck (d : Nat) (c : Conv) (i : Nat) (s : State) : State :=
  let g := 96 * d + i
  let t := c.t i
  let dev : Int := get s R.THM_XCHK.DEV
  let ns := nbrReadings s d c i
  let judged := 2 ≤ ns.length
  let diff : Int := ((t - median ns).natAbs : Nat)
  let bad := decide (t < -960 ∨ 2800 < t)
  let r := runOf s g
  let save (v : SRun) (s : State) : State := setTherm { s.therm with runs := sset ⟨0, 0, 0⟩ g v s.therm.runs } s
  if c.incl.contains i then
    if bad then excludeSensor d i 2 s
    else if judged then
      let n := if dev < diff then r.dev + 1 else 0
      if get s R.THM_XCHK.N ≤ n then excludeSensor d i 1 s else save { r with dev := n } s
    else s
  else if judged ∧ get s R.THM_XCHK.RET ≠ 0 ∧ get s (R.THM_SNS.CAUSE g) ∈ [1, 2] then
    let n := if diff ≤ dev / 2 then r.ret + 1 else 0
    if get s R.THM_XCHK.RET ≤ n ∧ !bad then readmitSensor d i s else save { r with ret := n } s
  else s

/-- The sensors of a region: 0 the body, 1 to 4 a layer. -/
def regionSensors (r : Nat) : List Nat := if r = 0 then List.range 64 else (List.range 8).map (64 + 8 * (r - 1) + ·)

/-- The region of sensor i. -/
def regionOf (i : Nat) : Nat := if i < 64 then 0 else (i - 64) / 8 + 1

/-- The highest of a list, a fallback where it is empty. -/
def highest (l : List Int) (e : Int) : Int :=
  match l with
  | [] => e
  | x :: t => t.foldl max x

/-- The published reading of sensor i (R402), with the status after this conversion's exclusions. -/
def publishOne (d : Nat) (c : Conv) (i : Nat) (s0 s : State) : State :=
  let here := c.live.filter (included s0 d)
  let ns := ((neighbours s0 d i).filter here.contains).map c.t
  let mine := (here.filter fun k => regionOf k = regionOf i).map c.t
  let v :=
    if included s0 d i then c.t i
    else if 2 ≤ ns.length then median ns
    else highest mine (highest (here.map c.t) (getI s0 (R.THM_SNS.T (96 * d + i))))
  putI (R.THM_SNS.T (96 * d + i)) v s

/-- The published readings of a list of sensors of die d. -/
def published (s : State) (d : Nat) (l : List Nat) : List Int := l.map fun i => getI s (R.THM_SNS.T (96 * d + i))

/-- The hot value of a region of die d (R391). -/
def hotOf (s : State) (d r : Nat) : Int := highest (published s d (regionSensors r)) 0

/-- The mean of a list, rounding towards zero (R24). -/
def meanI (l : List Int) : Int := if l.isEmpty then 0 else divZ (l.foldl (· + ·) 0) l.length

/-- Hot values and means of die d (R218, R391). Without bonded layers the layer mean is that of the die. -/
def publishDie (d : Nat) (s : State) : State :=
  let n := nLayers s
  let body := published s d (List.range 64)
  let layers := published s d ((List.range (8 * n)).map (64 + ·))
  s |> putI (R.THM_DIE_T.HOT d) (hotOf s d 0)
    |> putI (R.THM_DIE_T.HOT_LAYER d) (highest layers 0)
    |> putI (R.THM_DIE_T2.MEAN d) (meanI body)
    |> putI (R.THM_DIE_T2.MEAN_LAYER d) (if n = 0 then meanI body else meanI layers)

/-- DEGRADED_SENSING and THERM_LOST of die d (R404, R405). -/
def judgeSensing (d : Nat) (s : State) : State :=
  let n := (excludedIn s d 0 (nSensors s)).length
  let deg := decide (nSensors s < 4 * n ∨ 16 < (excludedIn s d 0 64).length)
    || (List.range (nLayers s)).any fun l => 2 < (excludedIn s d (64 + 8 * l) 8).length
  let enter := deg && !isOn s (R.THM_DIE_STAT.DEGRADED d)
  let s := putB (R.THM_DIE_STAT.DEGRADED d) deg s |> when enter (fun s => s |> event R.THM_EVENT 5 |> recordDie 0x0704 d n)
  if n = nSensors s ∧ !isOn s (R.THM_DIE_STAT.LOST d) then
    s |> put (R.THM_DIE_STAT.LOST d) 1 |> event R.THM_EVENT 6 |> faultOn 15 |> recordDie 0x0705 d 0
  else s

/-- The margins that lower die d's thresholds in a conversion (R407). -/
def thermMargin (s : State) (d : Nat) (twice : Bool) : Int :=
  let m : Int := get s R.THM_CFG.COAST_MARGIN
  (if clkState s = 3 then (if twice then 2 * m else m) else 0)
    + (if isOn s (R.THM_DIE_STAT.DEGRADED d) then (get s R.THM_CFG.DEG_MARGIN : Int) else 0)

/-- The level after a conversion (R408): rises to the highest reached, falls one level below its hysteresis. -/
def nextLevel (cur : Nat) (hot warn thr hyst : Int) : Nat :=
  if thr ≤ hot then 2
  else if cur = 2 then (if hot < thr - hyst then 1 else 2)
  else if cur = 1 then (if hot < warn - hyst then 0 else 1)
  else if warn ≤ hot then 1 else 0

/-- The entry of a region into a level: event, record, notification (R408, R582). -/
def enterLevel (level subj part arg : Nat) (s : State) : State :=
  s |> event R.THM_EVENT (level - 1) |> recordAt (now s) 0x0701 subj part (arg + level * 2 ^ 16)
    |> notifyAll 2 (fun p => !isTenant s p || (decide (part < 16) && part = boundPart s p))

/-- The regions of a die: body and layers. -/
def regions (s : State) : List Nat := List.range (nLayers s + 1)

/-- The thresholds of a region kind: warning, throttle, shutdown, hysteresis. -/
def regionTh (s : State) (r : Nat) : Int × Int × Int × Int :=
  if r = 0 then (getI s R.THM_TH_DIE.WARN, getI s R.THM_TH_DIE.THR, getI s R.THM_TH_SD.DIE, get s R.THM_HYST.DIE)
  else (getI s R.THM_TH_LAYER.WARN, getI s R.THM_TH_LAYER.THR, getI s R.THM_TH_SD.LAYER, get s R.THM_HYST.LAYER)

/-- The level of one region of die d judged (R408). -/
def judgeLevel (d : Nat) (m : Int) (r : Nat) (s : State) : State :=
  let th := regionTh s r
  let old := bits (get s (R.THM_DIE_STAT.LEVELS d)) (2 * r) 2
  let new := nextLevel old (hotOf s d r) (th.1 - m) (th.2.1 - m) th.2.2.2
  let s1 := put (R.THM_DIE_STAT.LEVELS d) (get s (R.THM_DIE_STAT.LEVELS d) + new * 2 ^ (2 * r) - old * 2 ^ (2 * r)) s
  when (decide (old < new)) (enterLevel new d (ownerDie s d) r) s1

/-- The level of stack n judged against its reported temperature (R408, R409). -/
def judgeStack (n : Nat) (s : State) : State :=
  if isOn s (R.THM_STK.STALE n) ∨ !bit s.therm.reported n then s
  else
    let old := get s (R.THM_STK.LEVEL n)
    let new := nextLevel old (getI s (R.THM_STK.T n)) (getI s R.THM_TH_STK.WARN) (getI s R.THM_TH_STK.THR) (get s R.THM_HYST.STK)
    s |> put (R.THM_STK.LEVEL n) new |> when (decide (old < new)) (enterLevel new 0x3F (ownerStack s n) (7 + n * 2 ^ 8))

/-- THERMTRIP (R413, R535): latched once; every scrub fails; the power-down with cause THERM is due. -/
def trip (d r : Nat) (t : Int) (s : State) : State :=
  if isOn s R.THM_TRIP.ACTIVE then s
  else
    { s with boot := { s.boot with downCause := 9 } }
      |> put R.THM_TRIP.ACTIVE 1 |> put R.THM_TRIP.DIE d |> put R.THM_TRIP.REGION r |> putI R.THM_TRIP.T t
      |> put R.THM_TRIP_TS.TIME (now s) |> setTherm { s.therm with tripUs := s.us } |> event R.THM_EVENT 2 |> faultOn 6
      |> recordDie 0x0707 d (r + ofSigned 16 t * 2 ^ 16) |> scrubsTripped

/-- The trip judgement of one sensor (R412): its run, from that before the conversion (log 93), and the trip at the
second conversion in a row. -/
def judgeTrip (before : State) (d : Nat) (c : Conv) (m : Int) (i : Nat) (s : State) : State :=
  let g := 96 * d + i
  let sd := (regionTh s (regionOf i)).2.2.1 - m
  let ns := nbrReadings s d c i
  let hit := c.incl.contains i && decide (sd ≤ c.t i ∧ c.t i ≤ 2800)
    && (decide (ns.length < 2) || decide (sd - (get s R.THM_XCHK.DEV : Int) ≤ median ns))
  let n := (runOf before g).trip
  let s1 := setTherm { s.therm with runs := sset ⟨0, 0, 0⟩ g { runOf s g with trip := if hit then min 2 (n + 1) else 0 } s.therm.runs } s
  when (hit && decide (1 ≤ n)) (trip d (regionOf i) (c.t i)) s1

/-- The stacks that die d serves and that are judged. -/
def liveStacks (s : State) (d : Nat) : List Nat :=
  (List.range (nStacks s)).filter fun n => serves s n = d && bit s.therm.reported n && !isOn s (R.THM_STK.STALE n)

/-- The tightest margin of die d (R410). -/
def dieMargin (s : State) (d : Nat) (m : Int) : Int :=
  let rs := (regions s).map fun r => (regionTh s r).2.1 - m - hotOf s d r
  let ks := (liveStacks s d).map fun n => getI s R.THM_TH_STK.THR - getI s (R.THM_STK.T n)
  (rs ++ ks).foldl min ((regionTh s 0).2.1 - m - hotOf s d 0)

/-- The thermal loop of die d (R410, R411). -/
def thermalLoop (d : Nat) (mg : Int) (s : State) : State :=
  let m := dieMargin s d mg
  let peak : Int := get s (R.CAP_DIE_EDC.PEAK d) * 256
  let band : Int := get s R.THM_LOOP.BAND
  let act := isOn s (R.THM_DIE_STAT.LOOP d)
  let old : Int := sget 0 d s.therm.lth
  let next : Bool × Int :=
    if !act then (if m ≤ band then (true, getI s (R.EST_OUT.I d 0)) else (false, old))
    else
      let l := if m < -(get s R.THM_LOOP.HARD : Int) then divZ old 2 else old + sar (get s R.THM_LOOP.KT * m) 8
      let l := min (max l 0) peak
      (!(decide (band < m) && decide (l = peak)), l)
  s |> setTherm { s.therm with lth := sset 0 d next.2 s.therm.lth } |> putI (R.THM_DIE_M.MARGIN d) (satI m 16)
    |> putB (R.THM_DIE_STAT.LOOP d) next.1 |> putI (R.CAP_DIE_LTH.I d) (if next.1 then next.2 else 0)

/-- One die's conversion (R394 to R412). -/
def convertDie (edges : Nat) (twice : Bool) (d : Nat) (s : State) : State :=
  let counts := sget [] d s.therm.counts
  if dieHeld s d then put (R.THM_DIE_STAT.STALE d) 1 s
  else if counts = [] then s
  else
    let live := (List.range (nSensors s)).filter (sensorLive s d)
    let scaled := live.map fun i => (i, scaleCount s edges (nth counts i))
    let c : Conv := ⟨live, scaled.map fun e => (e.1, reading s (96 * d + e.1) e.2), live.filter (included s d)⟩
    let s := s |> put (R.THM_DIE_STAT.STALE d) (b2n (!railOn s d))
      |> each scaled (fun e => put (R.THM_SNS_RAW.COUNT (96 * d + e.1)) e.2)
    let before := s
    let s := each live (crossCheck d c) s
    let s := each live (fun i s1 => publishOne d c i s s1) s
    let s := s |> publishDie d |> judgeSensing d
    let m := thermMargin s d twice
    s |> each (regions s) (judgeLevel d m) |> each live (judgeTrip before d c m) |> thermalLoop d m

/-! Warm-up (R321 to R323). -/

/-- The lowest reading among the layers of the package. -/
def lowestLayer (s : State) : Int :=
  let l := (dies s).flatMap fun d => published s d ((List.range (8 * nLayers s)).map (64 + ·))
  match l with
  | [] => 0
  | x :: t => t.foldl min x

/-- Whether every layer sensor of the package was converted. -/
def layersComplete (s : State) : Bool := (dies s).all fun d => !dieHeld s d && sget [] d s.therm.counts ≠ []

/-- Warm-up judged once in stage HEAT, and its end at DONE. -/
def judgeWarm (s : State) : State :=
  if stage s = 7 ∧ nLayers s ≠ 0 ∧ layersComplete s then
    let low := lowestLayer s
    if get s R.FIL_WARM_STAT.STATE = 1 then
      if getI s R.FIL_WARM_TH.EXIT ≤ low then
        { s with boot := { s.boot with warmed := true } }
          |> put R.FIL_WARM_STAT.STATE 2 |> event R.FIL_EVENT 2 |> record 0x0507 0
      else s
    else if s.boot.warmed then s
    else if low < getI s R.FIL_WARM_TH.ENTER then
      s |> setTherm { s.therm with warmUs := s.us } |> put R.FIL_WARM_STAT.STATE 1 |> put R.FIL_WARM_STAT.ELAPSED_S 0
        |> event R.FIL_EVENT 1 |> record 0x0506 (ofSigned 32 low)
    else { s with boot := { s.boot with warmed := true } }
  else s

/-- THERMAL_CONVERSION, R394 to R396: edges is the REFCLK edge count of the window (RELOCK). Until a window of the RC
oscillator has run wholly in COAST, the margin of COAST applies twice. -/
def effThermalConversion (edges : Nat) (s : State) : State :=
  if !s.therm.isOpen then s
  else if s.therm.spoiled then s |> setTherm { s.therm with isOpen := false, counts := [] } |> event R.THM_EVENT 8
  else
    let s := s |> each (dies s) (convertDie edges (decide (s.therm.clock = 3) && !s.therm.coastCal)) |> each (List.range (nStacks s)) judgeStack
      |> judgeWarm
    drawn (setTherm { s.therm with isOpen := false, counts := [] } s)

/-- THERMAL_CONVERSION: the core's own count of REFCLK edges at the opening and at the close of its window (R395). -/
def execThermalConversion (opened closed : Nat) (s : State) : Host.Outcome State Fault Refusal :=
  done (effThermalConversion (closed - opened) s)

/-- A stack's report taken by the core, which judges its level (R35, R408, R409). -/
def takeStack (n temp errors : Nat) (s : State) : State :=
  s |> setTherm { s.therm with reported := setBit s.therm.reported n, stkUs := sset 0 n s.us s.therm.stkUs } |> put (R.THM_STK.T n) temp
    |> put (R.THM_STK.STALE n) 0 |> unevent R.THM_STK_STALE.STACKS n |> judgeStack n
    |> when (decide (errors ≠ 0)) (countHealth 5 errors)

/-- STACK_REPORT, R35, R409: the agent of the serving die forwards a stack's temperature and its correctable
errors in a frame. -/
def effStackReport (n : Nat) (frame : Frame) (temp errors : Nat) (s : State) : State :=
  if n < nStacks s then acceptFrame true tyBULK (serves s n) frame (takeStack n temp errors) s else s

/-- STACK_REPORT. -/
def execStackReport (stack : Nat) (frame : Frame) (report : StackState) (s : State) : Host.Outcome State Fault Refusal :=
  done (effStackReport stack frame report.temp report.errors s)

/-- STACK_STALE, R409, R598: no temperature of a stack for 10 ms. -/
def effStackStale (n : Nat) (s : State) : State :=
  if n < nStacks s ∧ !isOn s (R.THM_STK.STALE n) ∧ 10000 ≤ s.us - sget 0 n s.therm.stkUs then
    s |> put (R.THM_STK.STALE n) 1 |> event R.THM_STK_STALE.STACKS n |> event R.THM_EVENT 7
      |> recordAt (now s) 0x0706 0x3F (ownerStack s n) n
  else s

/-- STACK_STALE. -/
def execStackStale (stack : Nat) (s : State) : Host.Outcome State Fault Refusal := done (effStackStale stack s)

/-! Commands (R416 to R419). -/

/-- THERM_THRESH_SET, R416. Each value lies from 40 °C to its default, for stacks from 60 °C to 105 °C. -/
def execThermThreshSet (port tag : Nat) (s : State) : Host.Outcome State Fault Refusal :=
  done <| command 0x0701 port tag s
    (fun fl =>
      let k := bits (par fl 0) 0 2
      let w := toSigned 16 (par fl 1)
      let t := toSigned 16 (par fl 1 / 2 ^ 16)
      let lo : Int := if k = 2 then 960 else 640
      let hw : Int := if k = 0 then 1520 else if k = 1 then 1360 else 1680
      let ht : Int := if k = 0 then 1680 else if k = 1 then 1520 else 1680
      [(decide (par fl 0 / 2 ^ 2 ≠ 0), sRESERVED), (decide (k = 3 ∨ t ≤ w), sBAD_PARAM),
       (decide (w < lo ∨ hw < w ∨ t < lo ∨ ht < t), sOUT_OF_RANGE)])
    (fun fl s =>
      let k := par fl 0
      let w := par fl 1
      let t := par fl 1 / 2 ^ 16
      let s :=
        if k = 0 then s |> put R.THM_TH_DIE.WARN w |> put R.THM_TH_DIE.THR t
        else if k = 1 then s |> put R.THM_TH_LAYER.WARN w |> put R.THM_TH_LAYER.THR t
        else s |> put R.THM_TH_STK.WARN w |> put R.THM_TH_STK.THR t
      s |> bumpGen |> complete fl sOK 0 0)

/-- A global sensor number names a fitted sensor (R390). -/
def sensorFitted (s : State) (g : Nat) : Bool := isPresent s (g / 96) && decide (g % 96 < nSensors s)

/-- SENSOR_EXCLUDE, R417. -/
def execSensorExclude (port tag : Nat) (s : State) : Host.Outcome State Fault Refusal :=
  done <| command 0x0702 port tag s
    (fun fl =>
      let g := par fl 0
      let d := g / 96
      [(decide (g / 2 ^ 11 ≠ 0), sRESERVED), (decide (g < 1536) && !sensorFitted s g, sBAD_PARAM), (decide (1535 < g), sOUT_OF_RANGE),
       (isOn s (R.THM_SNS.EXCL g) || decide ((excludedIn s d 0 (nSensors s)).length + 1 = nSensors s), sWRONG_STATE)])
    (fun fl s => s |> excludeSensor (par fl 0 / 96) (par fl 0 % 96) 3 |> complete fl sOK 0 0)

/-- SENSOR_READMIT, R418. -/
def execSensorReadmit (port tag : Nat) (s : State) : Host.Outcome State Fault Refusal :=
  done <| command 0x0703 port tag s
    (fun fl =>
      let g := par fl 0
      [(decide (g / 2 ^ 11 ≠ 0), sRESERVED), (decide (g < 1536) && !sensorFitted s g, sBAD_PARAM), (decide (1535 < g), sOUT_OF_RANGE),
       (!isOn s (R.THM_SNS.EXCL g), sWRONG_STATE)])
    (fun fl s => s |> readmitSensor (par fl 0 / 96) (par fl 0 % 96) |> complete fl sOK 0 0)

/-- THERM_RELEASE, R419: the trip is released once HOLD_S seconds have passed since it. -/
def execThermRelease (port tag : Nat) (s : State) : Host.Outcome State Fault Refusal :=
  done <| command 0x0704 port tag s
    (fun _ => [(!isOn s R.THM_TRIP.ACTIVE || decide (s.us - s.therm.tripUs < get s R.THM_TRIP_CFG.HOLD_S * 1000000), sWRONG_STATE)])
    (fun fl s => s |> put R.THM_TRIP.ACTIVE 0 |> faultOff 6 |> complete fl sOK 0 0)

end Sys2Proof.Machine
end

