-- ==== Sys2Proof/Machine/Reset.lean ====
section
/-! DEFINITION. Sys2Proof/Machine/Reset.lean: what a reset of a die or of the accelerator clears and what its end
brings back (R629, R635, R638), shared by the rails and the boot unit. -/

namespace Sys2Proof.Machine

/-- The readings that a die in reset holds (R629). -/
def heldReadings (d : Nat) : List Field :=
  [R.THM_DIE_T.HOT d, R.THM_DIE_T.HOT_LAYER d, R.THM_DIE_T2.MEAN d, R.THM_DIE_T2.MEAN_LAYER d]
    ++ (List.range 96).map fun i => R.THM_SNS.T (96 * d + i)

/-- Every DROOP_FORCE that waits for the end of die d's cut completes (R296). -/
def endForced (d lengthNs : Nat) (s : State) : State :=
  let h := itnOf s d
  each (h.forced.filter fun f => f.begun) (fun f => completeAt f.port f.tag sOK (h.cutStart % 2 ^ 32) lengthNs)
    (setItn d { h with forced := h.forced.filter fun f => !f.begun } s)

/-- A reset of die d ends each DROOP_FORCE that its lost link held back: the cut of one that had begun ends with it, one that
had not begun is ABORTED (R23, R296; log 98). -/
def dropForced (d : Nat) (s : State) : State :=
  let s := endForced d (itnOf s d).cutLen s
  let h := itnOf s d
  each h.forced (fun f => completeAt f.port f.tag sABORTED 0 0) (setItn d { h with forced := [] } s)

/-- An INTENT_RESET has reached die d: its bit leaves the dies that each such command waits for, and a command
whose dies are all done completes (R294). -/
def resetReached (d : Nat) (s : State) : State :=
  each (s.host.flights.filter fun f => f.opcode = 0x0501 && f.started && bit f.r0 d) (fun f s =>
    if clrBit f.r0 d = 0 then completeAt f.port f.tag sOK 0 0 s else keepResult f.port f.tag (clrBit f.r0 d) 0 s) s

/-- The cut of die d ends (R287, R290, R296): the stretch request is released, and the core hears of the droop with
the agent's stamps of its start and end. -/
def endCut (d : Nat) (s : State) : State :=
  let h := itnOf s d
  let n := spanNs s h.cutStart (now s)
  let b := (linkOf s d).base
  if agentGet s d (R.ITN_DIE_STAT.CUT d) ≠ 0 then
    s |> setItn d { h with detMask := 0, cutLen := n, aboveUs := [] } |> agentPut d (R.ITN_DRP_STAT.FIRED d) 0
      |> agentPut d (R.ITN_DIE_STAT.CUT d) 0
      |> when (bit s.pins.stretch d) (fun s =>
          { s with pins := { s.pins with stretch := clrBit s.pins.stretch d } } |> agentPut d (R.ITN_DIE_STAT.STRETCH d) 0
            |> emit (.stretch d 0 false))
      |> heard d (fun s => s |> sendUp tyREPORT d [h.cutMask, h.cutStart - b, now s - b] (.droop d h.cutMask (h.cutStart - b) (now s - b)) |> endForced d n |> showReasons d)
  else s

/-- The target of die d's VCORE loop for the operating point its agent is at. -/
def retargetCore (d : Nat) (s : State) : State :=
  put (R.LPE_REF.TARGET d) (get s (R.CAP_OPT.V (16 * d + get s (R.CAP_DIE_OP.CUR d)))) s

/-- A pair at initial values, its covariance as R243 sets it; the sums of its window go on. -/
def freshPair (s : State) (g : Nat) (o : Int) (p : Pair) : Pair :=
  { p with g := fQuot g 16384, o := fQuot o 256, p11 := get s R.EST_TRIM_P0G.P0, p12 := 0, p22 := get s R.EST_TRIM_P0O.P0 }

/-- The gain and offset codes of a pair (R233). -/
def pairCodes (p : Pair) : Nat × Int := ((fScaled p.g 16384).toNat, fScaled p.o 256)

/-- The link pair changed, with its registers (R216). -/
def setLinkPair (p : Pair) (s : State) : State :=
  let (g, o) := pairCodes p
  { s with estp := { s.estp with link := p } } |> put R.EST_LINK_TRIM.GAIN g |> putI R.EST_LINK_OFS.OFS o

/-- The link pair with its class cleared or with no active model (R216): gain 1, offset 0, from now on. -/
def restLinkPair (s : State) : State :=
  setLinkPair (freshPair s 16384 0 {}) { s with estp := { s.estp with linkOld := none } }

/-- What a die reset clears of die d: its class DIE registers but the readings it holds, the agent's and the
core's state of the die, and its contexts (R629, R635). -/
def dieCleared (d : Nat) (s : State) : State :=
  let s := s |> leaveLost d |> endCut d |> dropForced d |> resetReached d
  let held := (heldReadings d).map fun f => (f, get s f)
  let t := tokOf s d
  let c := capOf s d
  let h := itnOf s d
  let dropDie {α : Type} (l : List (Nat × α)) : List (Nat × α) := l.filter fun e => e.1 / 96 ≠ d
  s |> clearDieRegs d |> each held (fun e => put e.1 e.2) |> put (R.THM_DIE_STAT.STALE d) 1
    |> setTherm { s.therm with runs := dropDie s.therm.runs, counts := s.therm.counts.filter (fun e => e.1 ≠ d),
                               lth := s.therm.lth.filter fun e => e.1 ≠ d }
    |> setTok d { TokD.init with filAcc := t.filAcc, filCyc := t.filCyc, slot := t.slot, slotAt := t.slotAt,
                                 rise := get s (R.TOK_SLEW.RISE d), fall := get s (R.TOK_SLEW.FALL d) }
    |> setItn d { ItnD.init with agent := { Prof.init with lastStep := h.agent.lastStep },
                                 core := { Prof.init with lastStep := h.core.lastStep }, step := h.step }
    |> setEst d EstD.init
    |> setCap d { CapD.init with energyRem := c.energyRem, energyMs := c.energyMs, pMem := c.pMem, iMem := c.iMem,
                                 vSum := c.vSum, iSum := c.iSum, evals := c.evals }
    |> when (bit s.pins.stretch d) (fun s =>
        { s with pins := { s.pins with stretch := clrBit s.pins.stretch d } } |> emit (.stretch d 0 false))
    |> retargetCore d |> ringStale |> recovDieReset d
    |> fun s => when ((dies s).all fun x => !isOn s (R.EST_DIE_STAT.ACTIVE x)) restLinkPair s

/-- What class ACC holds, and the contexts, cleared (R216, R635). -/
def clearAcc (s : State) : State := s |> clearClass .acc |> restLinkPair |> recovAccReset

/-- What an accelerator reset clears (R628, R635). -/
def accCleared (s : State) : State := each (dies s) dieCleared s |> clearAcc

/-- Die d's agent starts anew: its count, and the SEQ numbers of both directions (R28, R629, R662; log 91). -/
def restartLink (d : Nat) (s : State) : State :=
  setLink d { linkOf s d with lost := false, downSeq := none, upSeq := none, downSent := 0, upSent := 0, base := now s, held := [], own := [] } s

end Sys2Proof.Machine
end

