-- ==== Sys2Proof/Machine/Stages.lean ====
section
/-! DEFINITION. Sys2Proof/Machine/Stages.lean: the stage controller: phase states, failures, shedding, rails
enabled and disabled, stage telemetry, external sync (R92 to R146, R154, R155). -/

namespace Sys2Proof.Machine

/-- Codes of R122. -/
def psOFF : Nat := 1
def psSOFT : Nat := 2
def psRUN : Nat := 3
def psSHEDDING : Nat := 4
def psSHED : Nat := 5
def psHICCUP : Nat := 6
def psFAILED : Nat := 7

/-- Codes of R179. -/
def lpOFF : Nat := 0
def lpRAMP : Nat := 1
def lpTRACK : Nat := 2
def lpEXCURSION : Nat := 3
def lpHOLD : Nat := 4

/-- The state of rail r's loop. -/
def loopState (s : State) (r : Nat) : Nat := get s (R.LPE_STAT.STATE r)

/-- The last sample of phase n in 1/256 A, a fault code taken as ILIM (R103, R120). -/
def sample (s : State) (n : Nat) : Int :=
  if (phaseOf s n).faulted then (get s (R.PST_RAIL_ILIM.ILIM (railOfPhase n)) : Int) else getI s (R.PST_PH_I.I n)

/-- An event of rail r: of its die, or of the package for VLINK. -/
def recordRail (code r arg : Nat) (s : State) : State :=
  if r < 32 then recordDie code (r % 16) arg s else record code arg s

/-- A phase's state changed. -/
def setPh (n c : Nat) (s : State) : State := put (R.PST_PH_STAT.STATE n) c s

/-- Both loops of die d are OFF: its agent is unpowered, and its link trains again (R659). -/
def unpower (d : Nat) (s : State) : State :=
  if loopState s d = lpOFF ∧ loopState s (16 + d) = lpOFF then
    s |> setLink d { LinkD.init with laneLost := (linkOf s d).laneLost } |> setEst d { estOf s d with first := true }
  else s

/-- The loop test of rail r stops as the rail enters HOLD or OFF, where it has not recorded its last (R198). -/
def stopTest (r : Nat) (s : State) : State :=
  if s.test.running ∧ s.test.rail = r ∧ get s R.LPE_CAP_STAT.STATE ≠ 3 then { s with test := { s.test with stop := true } } else s

/-- A rail disabled: its loop OFF from any state, every phase but the failed ones OFF (R122, R180, R186). -/
def railOff (r : Nat) (s : State) : State :=
  s |> each ((phasesOf r).filter fun n => phaseFitted s n) (fun n s =>
      if phState s n = psFAILED then setPhase n { phaseOf s n with wire := 0, onTaps := 0, limited := false } s
      else s |> setPh n psOFF |> setPhase n PhaseH.init |> put (R.PST_PH_DUTY.TRIM n) 0)
    |> put (R.LPE_STAT.STATE r) lpOFF |> put (R.LPE_STAT.CAUSE r) 0 |> put (R.PST_RAIL_STAT.BRAKING r) 0
    |> setRail r { railOf s r with pe := 0, soft := false, resume := false, cmpRun := 0 }
    |> when (decide (r < 16)) (fun s => s |> put (R.ITN_DIE_STAT.PE r) 0
        |> endCut r)
    |> stopTest r
    |> when (decide (r < 32)) (unpower (r % 16))
    |> refitRail r

/-- The next phases that a rail may shed, in the order of R137, by place in the rail. -/
def shedOrder (r : Nat) : List Nat :=
  if r < 16 then [9, 7, 5, 3, 1, 8, 4, 6, 2].map (10 * r + ·)
  else if r < 32 then [160 + 2 * (r - 16) + 1]
  else [7, 5, 3, 1, 6, 2, 4].map (192 + ·)

/-- R638: the die of a LOST rail held in die reset, its other rail OFF, its memory disabled. -/
def holdDie (r : Nat) (s : State) : State :=
  let d := r % 16
  let other := if r < 16 then r + 16 else r - 16
  if bit s.boot.lostHold d then s
  else
    { s with boot := { s.boot with lostHold := setBit s.boot.lostHold d }, pins := { s.pins with memEn := clrBit s.pins.memEn d } }
      |> dieCleared d |> railOff other

/-- A rail without an available phase is LOST (R130); VLINK's loss takes the package down (R636). -/
def lostCheck (r : Nat) (s : State) : State :=
  if loopState s r = lpOFF ∨ isOn s (R.PST_RAIL_STAT.LOST r) ∨ countPhases s r phAvail ≠ 0 then s
  else
    s |> put (R.PST_RAIL_STAT.LOST r) 1 |> event R.PST_EVENT 8 |> faultOn 0 |> recordRail 0x0206 r r |> refitRail r
      |> (if r = 32 then fun s => { s with boot := { s.boot with downCause := if s.boot.downCause = 0 then 7 else s.boot.downCause } }
          else holdDie r)

/-- A phase's 1/N withdrawn as it leaves the available states (R126, R128). -/
def withhold (n : Nat) (s : State) : State :=
  s |> setPhase n { phaseOf s n with withheld := true } |> refitRail (railOfPhase n) |> lostCheck (railOfPhase n)

/-- A phase marked FAILED (R106, R109, R125, R145, R154). -/
def failPhase (n cause : Nat) (s : State) : State :=
  if !phaseFitted s n ∨ phState s n = psFAILED then s
  else
    let avail := phAvail (phState s n)
    s |> setPh n psFAILED |> put (R.PST_PH_STAT.CAUSE n) cause
      |> setPhase n { phaseOf s n with frac := 0, limRun := 0, openRun := 0, senseRun := 0, onTaps := 0, wire := 0 }
      |> event R.PST_EVENT 0 |> countHealth 2 1 |> recordRail 0x0204 (railOfPhase n) (n + cause * 2 ^ 16)
      |> when avail (withhold n)

/-- A phase enters SOFT with a share fraction in sixteenths; leaving MID clears its trim (R118, R127, R139). -/
def enterSoft (n frac : Nat) (s : State) : State :=
  let mid := !phSwitching (phState s n)
  s |> setPh n psSOFT |> setPhase n { phaseOf s n with frac := frac, limRun := 0, openRun := 0, senseRun := 0 }
    |> when mid (put (R.PST_PH_DUTY.TRIM n) 0)

/-- A rail enabled (R131, R180): every phase that was OFF enters SOFT, the loop enters RAMP. -/
def railEnable (r : Nat) (s : State) : State :=
  if !railFitted s r then s
  else
    let h := railOf s r
    s |> each ((phasesOf r).filter fun n => phState s n = psOFF) (fun n s =>
        s |> enterSoft n 0 |> setPhase n { phaseOf s n with frac := 0, withheld := false })
      |> put (R.LPE_STAT.STATE r) lpRAMP |> put (R.LPE_STAT.CAUSE r) 0 |> put (R.LPE_DUTY.SAFE r) 0
      |> put (R.LPE_INT.I r) 0
      |> setRail r { h with i := 0, f1 := 0, f2 := 0, ePrev := 0, uUns := 0, uSat := 0, ipredPrev := h.irail,
                            ref256 := vmeas s r * 256, vinSafe := get s R.LPE_VIN.VIN_NOM, cmpRun := 0,
                            brakeRest := 6, skimUs := none, shedUs := none, pe := 0, resume := false, soft := true }
      |> refitRail r |> lostCheck r

/-! Hiccup and ramps. -/

/-- HICCUP_ENTER, R123, R125. A HICCUP_RUN that a lowered HICCUP_MAX has left above it fails the phase too (log 89). -/
def effHiccupEnter (n : Nat) (s : State) : State :=
  let r := railOfPhase n
  if !phSwitching (phState s n) ∨ (phaseOf s n).limRun < get s (R.PST_RAIL_CFG.HICCUP_N r) then s
  else if get s (R.PST_RAIL_CFG.HICCUP_MAX r) ≤ get s (R.PST_PH_STAT.HICCUP_RUN n) then failPhase n 3 s
  else
    s |> setPh n psHICCUP |> setPhase n { phaseOf s n with frac := 0, limRun := 0, openRun := 0, senseRun := 0, onTaps := 0, wire := 0, hiccupUs := s.us }
      |> addSat (R.PST_PH_CNT.HICCUPS n) 1 |> event R.PST_EVENT 1 |> countHealth 2 1 |> recordRail 0x0205 r n |> withhold n

/-- HICCUP_ENTER. -/
def execHiccupEnter (phase : Nat) (s : State) : Host.Outcome State Fault Refusal := done (effHiccupEnter phase s)

/-- HICCUP_END, R124: the phase's HICCUP time has passed. -/
def execHiccupEnd (phase : Nat) (s : State) : Host.Outcome State Fault Refusal :=
  done (if phState s phase = psHICCUP ∧ get s (R.PST_RAIL_MISC.HICCUP (railOfPhase phase)) ≤ s.us - (phaseOf s phase).hiccupUs then s |> enterSoft phase 0 |> addSat (R.PST_PH_STAT.HICCUP_RUN phase) 1 else s)

/-- HICCUP_RUN_CLEAR, R124: 10 ms in RUN without a break. -/
def execHiccupRunClear (phase : Nat) (s : State) : Host.Outcome State Fault Refusal :=
  done (if phState s phase = psRUN ∧ 10000 ≤ s.us - (phaseOf s phase).runUs then put (R.PST_PH_STAT.HICCUP_RUN phase) 0 s else s)

/-- PHASE_RAMP_END, R126, R127: the share has gone its 16 cycles. The open and sense counts start anew (R141). -/
def effPhaseRampEnd (n : Nat) (s : State) : State :=
  let p := phaseOf s n
  let r := railOfPhase n
  if phState s n = psSOFT ∧ 16 ≤ p.frac then
    s |> setPh n psRUN |> setPhase n { p with withheld := false, openRun := 0, senseRun := 0, runUs := s.us }
      |> when p.withheld (refitRail r)
  else if phState s n = psSHEDDING ∧ p.frac = 0 then
    s |> setPh n psSHED |> setPhase n { p with onTaps := 0, wire := 0, limRun := 0, openRun := 0, senseRun := 0 }
      |> setRail r { railOf s r with shedUs := some s.us }
  else s

/-- PHASE_RAMP_END. -/
def execPhaseRampEnd (phase : Nat) (s : State) : Host.Outcome State Fault Refusal := done (effPhaseRampEnd phase s)

/-! Shedding. -/

/-- The measured di/dt of a rail in 1/128 A per µs (R136). -/
def didt (s : State) (r : Nat) : Nat := ((railOf s r).irail - nthI (railOf s r).hist 2).natAbs

/-- Whether the horizon counts as empty for a rail's die, or for every die for VLINK (R135). -/
def railHorizonEmpty (s : State) (r : Nat) : Bool :=
  if r = 32 then (dies s).all (useEmpty s) else useEmpty s (r % 16)

/-- The conditions of R135, which must hold for SHED_HOLD, with R131, R282. -/
def maySkim (s : State) (r : Nat) : Bool :=
  let run := countPhases s r (· = psRUN)
  let h := railOf s r
  isOn s (R.PST_RAIL_CFG.SHED_EN r) && loopState s r ≠ lpOFF && !h.soft && railHorizonEmpty s r &&
    decide (didt s r < 128 * get s (R.PST_RAIL_DIDT.DIDT_TH r)) &&
    decide (h.irail ≤ (get s (R.PST_RAIL_SHED.SHED_I r) * (run - 1) * 256 : Nat)) &&
    decide (get s (R.PST_RAIL_CFG.SHED_MIN r) < run) &&
    !(decide (r < 16) && isOn s (R.ITN_DIE_STAT.MISMATCH r))

/-- The conditions have held for SHED_HOLD µs, and SHED_STEP µs have passed since the last phase entered SHED
(R135). -/
def skimDue (s : State) (r : Nat) : Bool :=
  (match (railOf s r).skimUs with
    | some t => decide (get s (R.PST_RAIL_SHED.SHED_HOLD r) ≤ s.us - t)
    | none => false) &&
  match (railOf s r).shedUs with
    | some t => decide (get s (R.PST_RAIL_DIDT.SHED_STEP r) ≤ s.us - t)
    | none => true

/-- Since when the conditions of R135 hold, noted once per evaluation. -/
def noteSkim (r : Nat) (s : State) : State :=
  let h := railOf s r
  setRail r { h with skimUs := if maySkim s r then some (h.skimUs.getD s.us) else none } s

/-- The next phase that a rail sheds (R137): the first in order that is in RUN. -/
def nextShed (s : State) (r : Nat) : Option Nat := (shedOrder r).find? fun n => phState s n = psRUN

/-- A phase starts to shed (R127); its open and sense counts end (R141). -/
def startShed (n : Nat) (s : State) : State :=
  s |> setPh n psSHEDDING |> setPhase n { phaseOf s n with frac := 16, openRun := 0, senseRun := 0 }

/-- SHED_PHASE, R135, R137: the conditions have held for their times. -/
def execShedPhase (rail : Nat) (s : State) : Host.Outcome State Fault Refusal :=
  done (if railFitted s rail && maySkim s rail && skimDue s rail && countPhases s rail (· = psSHEDDING) = 0 then
    match nextShed s rail with
    | some n => startShed n s
    | none => s
  else s)

/-- BRAKING ends (R133): in an evaluation, of which k is then 1, or before the next one, k 0. -/
def endBrake (k r : Nat) (s : State) : State :=
  if isOn s (R.PST_RAIL_STAT.BRAKING r) then
    s |> put (R.PST_RAIL_STAT.BRAKING r) 0 |> setRail r { railOf s r with brakeRest := k }
  else s

/-- One phase un-shed (R133, R139). -/
def unshedPhase (k n : Nat) (s : State) : State :=
  if phState s n = psSHED then s |> endBrake k (railOfPhase n) |> enterSoft n 0
  else if phState s n = psSHEDDING then
    s |> endBrake k (railOfPhase n) |> setPh n psSOFT |> setPhase n { phaseOf s n with openRun := 0, senseRun := 0 } |> event R.PST_EVENT 3
  else s

/-- Every SHED and SHEDDING phase of a rail un-shed. -/
def unshedAll (k r : Nat) (s : State) : State := each (shedOrder r).reverse (unshedPhase k) s

/-- Phases of a rail un-shed in an evaluation, in the reverse order, until n are not in SHED (R138). -/
def unshedTo (r n : Nat) (s : State) : State :=
  each (shedOrder r).reverse (fun m s =>
    if countPhases s r (fun c => phAvail c && c ≠ psSHED) < n then unshedPhase 1 m s else s) s

/-- BRAKE_TIMEOUT, R133: MAX_NS has passed. It stands before the evaluation at which BRAKING so ends (log 89). -/
def execBrakeTimeout (rail : Nat) (s : State) : Host.Outcome State Fault Refusal :=
  done (if get s (R.PST_RAIL_BRAKE.MAX_NS rail) ≤ spanNs s (railOf s rail).brakeAt (now s) then endBrake 0 rail s else s)

/-- OPEN_PHASE, R141, R145. -/
def execOpenPhase (phase : Nat) (s : State) : Host.Outcome State Fault Refusal :=
  done (if phState s phase = psRUN ∧ get s (R.PST_RAIL_CFG.OPEN_CNT (railOfPhase phase)) ≤ (phaseOf s phase).openRun then
    failPhase phase 1 s else s)

/-- SENSE_FAILURE, R141, R145. -/
def execSenseFailure (phase : Nat) (s : State) : Host.Outcome State Fault Refusal :=
  done (if phState s phase = psRUN ∧ 16 ≤ (phaseOf s phase).senseRun then failPhase phase 2 s else s)

/-! Stage telemetry (R102 to R109). -/

/-- The lane flag of a stage. -/
def laneOk (stage lane : Nat) : Field := if lane = 0 then R.PST_STG_STAT.LANE0_OK stage else R.PST_STG_STAT.LANE1_OK stage

/-- The error count of a lane. -/
def laneErr (stage lane : Nat) : Field := if lane = 0 then R.PST_STG_ERR.L0 stage else R.PST_STG_ERR.L1 stage

/-- Whether a lane exists: of a stage with a fitted phase (R32). -/
def laneFitted (s : State) (stage lane : Nat) : Bool :=
  stage < 25 && lane < 2 && (List.range 8).any fun c => phaseFitted s (8 * stage + c)

/-- The trim window of a rail's output spoiled by a missing sample (R232). -/
def spoilRail (r : Nat) (s : State) : State :=
  if r < 16 then setEst r { estOf s r with pair0 := { (estOf s r).pair0 with spoiled := true } } s
  else if r < 32 then setEst (r - 16) { estOf s (r - 16) with pair1 := { (estOf s (r - 16)).pair1 with spoiled := true } } s
  else { s with estp := { s.estp with link := { s.estp.link with spoiled := true } } }

/-- A lane one frame time on: a half received whole waits 16 of them for the other lane's (R108; log 88). -/
def LaneH.aged (l : LaneH) : LaneH :=
  if l.half.isSome && l.age < 15 then { l with age := l.age + 1 } else { l with half := none, age := 0 }

/-- A frame time without a good frame (R105): samples reused, errors counted, lock lost at the third. -/
def badFrame (stage lane : Nat) (s : State) : State :=
  let l := (laneOf s (2 * stage + lane)).aged
  let bad := min 16 (l.bad + 1)
  s |> setLane (2 * stage + lane) { l with good := 0, bad := bad, pos := 33 }
    |> addSat (laneErr stage lane) 1 |> event R.PST_EVENT 4
    |> when (decide (3 ≤ bad)) (put (laneOk stage lane) 0)
    |> each (List.range 4) (fun c s => if phaseFitted s (8 * stage + 4 * lane + c) then spoilRail (railOfPhase (8 * stage + 4 * lane + c)) s else s)

/-- A frame's samples and SIDE bit taken, in frame lock (R102, R103, R107). Either MARK is a correct one wherever it
stands: the first frame of a superframe starts one, a later one of MARK 10 goes on with one (log 88). -/
def takeFrame (stage lane w : Nat) (s : State) : State :=
  let l := (laneOf s (2 * stage + lane)).aged
  let (side, pos) :=
    if bit w 62 then (b2n (bit w 1), 1)
    else if l.pos < 32 then (l.side + b2n (bit w 1) * 2 ^ l.pos, l.pos + 1)
    else (l.side, 33)
  let l := if pos = 32 then { l with half := some side, age := 0 } else l
  s |> setLane (2 * stage + lane) { l with good := 4, bad := 0, side := side, pos := pos }
    |> each (List.range 4) (fun c s =>
        let v := bits w (47 - 15 * c) 15
        let n := 8 * stage + 4 * lane + c
        s |> putI (R.PST_PH_I.I n) (toSigned 15 v) |> setPhase n { phaseOf s n with faulted := decide (v = 0x4000) })

/-- TLM_FRAME, R102 to R105. -/
def effTlmFrame (stage lane w : Nat) (s : State) : State :=
  let l := laneOf s (2 * stage + lane)
  if !laneFitted s stage lane ∨ !s.clk.started then s
  else if !bit w 63 ∨ popcount 64 w % 2 ≠ 0 then badFrame stage lane s
  else if isOn s (laneOk stage lane) then takeFrame stage lane w s
  else
    let good := min 4 (l.good + 1)
    s |> setLane (2 * stage + lane) { l.aged with good := good, bad := 0, pos := 33 }
      |> when (decide (good = 4)) (put (laneOk stage lane) 1)

/-- TLM_FRAME. -/
def execTlmFrame (stage lane word : Nat) (s : State) : Host.Outcome State Fault Refusal := done (effTlmFrame stage lane word s)

/-- TLM_MISSING_FRAME, R105. -/
def execTlmMissingFrame (stage lane : Nat) (s : State) : Host.Outcome State Fault Refusal :=
  done (if laneFitted s stage lane ∧ s.clk.started then badFrame stage lane s else s)

/-- TLM_LOST, R106: 16 frame times without a good frame. -/
def execTlmLost (stage lane : Nat) (s : State) : Host.Outcome State Fault Refusal :=
  done (if laneFitted s stage lane ∧ 16 ≤ (laneOf s (2 * stage + lane)).bad then each (List.range 4) (fun c => failPhase (8 * stage + 4 * lane + c) 4) s else s)

/-- The CRC-16 of R107 over SF[47:0], fed from bit 0 upwards. -/
def superCrc (sf : Nat) : Nat :=
  (List.range 48).foldl (fun c i =>
    let x := b2n (bit c 15) ^^^ b2n (bit sf i)
    let c := (c * 2) % 2 ^ 16
    if x = 1 then c ^^^ 0x1021 else c) 0xFFFF

/-- A good superframe's fields taken (R108, R109). -/
def takeSuper (g sf : Nat) (s : State) : State :=
  let ot := bits sf 24 1
  let uv := bits sf 25 1
  let change := get s (R.PST_STG_STAT.OT_WARN g) ≠ ot || get s (R.PST_STG_STAT.VIN_UV g) ≠ uv
  s |> put (R.PST_STG_STAT.TEMP g) (bits sf 0 16) |> put (R.PST_STG_STAT.DRV_FLT g) (bits sf 16 8)
    |> put (R.PST_STG_STAT.OT_WARN g) ot |> put (R.PST_STG_STAT.VIN_UV g) uv |> put (R.PST_STG_STAT2.CAP g) (bits sf 32 8)
    |> when change (record 0x0203 (g + ot * 2 ^ 8 + uv * 2 ^ 9))
    |> each (bitList 8 (bits sf 16 8)) (fun c => failPhase (8 * g + c) 5)

/-- SUPERFRAME, R107 to R109: both halves received whole in frame lock. Halves that ended in different frame times
started in different ones. -/
def effSuperframe (g : Nat) (sameStart : Bool) (s : State) : State :=
  let a := laneOf s (2 * g)
  let b := laneOf s (2 * g + 1)
  match a.half, b.half with
  | some x, some y =>
    let sf := x + y * 2 ^ 32
    s |> setLane (2 * g) { a with half := none } |> setLane (2 * g + 1) { b with half := none }
      |> (if sameStart ∧ a.age = b.age ∧ superCrc sf = bits sf 48 16 ∧ bits sf 26 6 = 0 ∧ bits sf 40 8 = 0 then takeSuper g sf
          else addSat (R.PST_STG_STAT2.CRC_ERR g) 1)
  | _, _ => s

/-- SUPERFRAME. -/
def execSuperframe (stage : Nat) (sameStart : Bool) (s : State) : Host.Outcome State Fault Refusal :=
  done (if laneFitted s stage 0 then effSuperframe stage sameStart s else s)

/-! External sync (R112 to R115). -/

/-- Acquisition of SYNC_IN runs (R112). -/
def acquiring (s : State) : Bool := clkState s = 2 && isOn s R.PST_CTRL.SYNC_EN && !isOn s R.PST_SYNC_STAT.LOCK

/-- A length modulo p, as the number of least magnitude. -/
def centred (x : Int) (p : Nat) : Int := if (p : Int) < 2 * (x % p) then x % p - p else x % p

/-- How far behind its place after SYNC_IN's edge a period starts, in ROOT periods (R112): SYNC_OFS / 256 of a period
after the edge. -/
def phaseError (s : State) (y : SyncIn) : Int :=
  centred ((y.since : Int) - roundDiv (get s R.PST_CTRL.SYNC_OFS * y.period : Nat) 256) y.period

/-- The move of the next period start towards its place, by at most 8 ROOT periods (R112). -/
def syncMove (s : State) (y : SyncIn) : Int := clampI (-8) 8 (centred (-(phaseError s y) - 800) y.period)

/-- The ROOT periods of a switching period: while locked to SYNC_IN its measured period, within 784 to 816
(R113); else 800 in LOCKED, moved while the period start goes to its place (R112), 400 in COAST, and the measured
ROOT frequency over 6 MHz in RELOCK (R54, R69, R77, R111), and so after a RELOCK that failed while ROOT goes back
(R79; log 87). -/
def switchPeriod (s : State) (y : SyncIn) : Nat :=
  if clkState s = 2 then
    if isOn s R.PST_SYNC_STAT.LOCK then clampN 784 816 y.period
    else if acquiring s && s.clk.syncRun = 64 then (800 + syncMove s y).toNat
    else 800
  else if clkState s = 3 ∧ !s.clk.settling then 400
  else (roundDiv 80000000 s.clk.slotPs).toNat

/-- What acquisition has measured, one period on (R112). -/
def syncStep (y : SyncIn) (s : State) : State :=
  let n := if acquiring s ∧ 784 ≤ y.period ∧ y.period ≤ 816 then min 64 (s.clk.syncRun + 1) else 0
  let k := if n = 64 ∧ (phaseError s y).natAbs ≤ 1 then min 16 (s.clk.nearRun + 1) else 0
  { s with clk := { s.clk with syncRun := n, nearRun := k } }

/-- SYNC_ACQUIRE, R112, R115, once the period start has kept its place for 16 periods, with the last measured
period. -/
def execSyncAcquire (period : Nat) (s : State) : Host.Outcome State Fault Refusal :=
  done (if acquiring s ∧ s.clk.syncRun = 64 ∧ s.clk.nearRun = 16 ∧ 784 ≤ period ∧ period ≤ 816 then
    s |> put R.PST_SYNC_STAT.LOCK 1 |> put R.CLK_STATUS.SYNC_LOST 0 else s)

/-- SYNC_LOSS, R114: the next period is free-running, and acquisition starts anew. -/
def execSyncLoss (s : State) : Host.Outcome State Fault Refusal :=
  done (if isOn s R.PST_SYNC_STAT.LOCK then
    { s with clk := { s.clk with next := 800, syncRun := 0, nearRun := 0 } } |> put R.PST_SYNC_STAT.LOCK 0 |> event R.PST_EVENT 5 else s)

/-! Commands. -/

/-- PHASE_RETIRE, R154. -/
def execPhaseRetire (port tag : Nat) (s : State) : Host.Outcome State Fault Refusal :=
  done <| command 0x0201 port tag s
    (fun fl =>
      let n := par fl 0
      let c := phState s n
      [(decide (n / 2 ^ 9 ≠ 0), sRESERVED), (decide (199 < n), sOUT_OF_RANGE),
       (decide (c = 0 ∨ c = psOFF ∨ c = psFAILED ∨ (phAvail c ∧ countPhases s (railOfPhase n) phAvail = 1)), sWRONG_STATE)])
    (fun fl s => s |> failPhase (par fl 0) 6 |> complete fl sOK 0 0)

/-- A LOST rail given back by PHASE_RESTORE (R155, R638): its die's rails soft-start again. -/
def regainRail (r : Nat) (s : State) : State :=
  if isOn s (R.PST_RAIL_STAT.LOST r) then
    let s := put (R.PST_RAIL_STAT.LOST r) 0 s
    let s := when ((List.range 33).all fun x => !isOn s (R.PST_RAIL_STAT.LOST x)) (faultOff 0) s
    if r < 32 ∧ !dieLost s (r % 16) then
      let d := r % 16
      s |> railOff d |> railOff (16 + d) |> railEnable d |> railEnable (16 + d)
    else s
  else s

/-- PHASE_RESTORE, R155. -/
def execPhaseRestore (port tag : Nat) (s : State) : Host.Outcome State Fault Refusal :=
  done <| command 0x0202 port tag s
    (fun fl =>
      let n := par fl 0
      [(decide (n / 2 ^ 9 ≠ 0), sRESERVED), (decide (199 < n), sOUT_OF_RANGE),
       (decide (phState s n ≠ psFAILED ∨ loopState s (railOfPhase n) = lpOFF) || !isOn s (laneOk (n / 8) (n / 4 % 2)), sWRONG_STATE)])
    (fun fl s =>
      let n := par fl 0
      s |> put (R.PST_PH_STAT.HICCUP_RUN n) 0 |> put (R.PST_PH_STAT.CAUSE n) 0 |> enterSoft n 0
        |> setPhase n { phaseOf s n with frac := 0, limRun := 0, openRun := 0, senseRun := 0, withheld := true }
        |> refitRail (railOfPhase n) |> regainRail (railOfPhase n)
        |> (fun s => setPhase n { phaseOf s n with withheld := true } s) |> complete fl sOK 0 0)

end Sys2Proof.Machine
end

