-- ==== Sys2Proof/Machine/Loop.lean ====
section
/-! DEFINITION. Sys2Proof/Machine/Loop.lean: the loop engine and the per-cycle work of the stage controller: references,
the control law, sharing and limits, supervision and HOLD, test injection and capture (R98 to R101, R117 to
R120, R132 to R143, R162 to R202). -/

namespace Sys2Proof.Machine

/-! References. -/

/-- The range of a rail's target in voltage codes (R162). -/
def railRange (r : Nat) : Nat × Nat := if r < 16 then (4800, 7600) else if r < 32 then (5600, 6800) else (5600, 6400)

/-- The target in force: the operating point's for VCORE, the committed one otherwise (R162, R205). -/
def railTarget (s : State) (r : Nat) : Nat := if r < 16 then get s (R.LPE_REF.TARGET r) else (railOf s r).coef.target

/-- One step of the ramped reference in 1/256 code (R131, R164). -/
def rampStep (s : State) (r : Nat) : Nat :=
  (if (railOf s r).soft then get s (R.PST_RAIL_MISC.SS_SLEW r) else (railOf s r).coef.slew) * 256 / 6

/-- A value moved towards a target by at most a step. -/
def towards (x target step : Nat) : Nat := if x < target then min target (x + step) else max target (x - step)

/-- A signed value moved towards a target by at most a step. -/
def towardsI (x target : Int) (step : Nat) : Int := if x < target then min target (x + step) else max target (x - step)

/-- The VIN that an evaluation of a rail uses, vin_u (R168, R172). -/
def vinUsed (s : State) (r : Nat) : Nat :=
  max (if (railOf s r).coef.ffv ≠ 0 then get s R.PST_VIN.VIN else get s R.LPE_VIN.VIN_NOM) (get s R.LPE_VIN.VIN_FLOOR)

/-- The effective reference (R165). -/
def effRef (s : State) (r : Nat) (ref inj : Int) : Int :=
  let (lo, hi) := railRange r
  let v := min ((hi : Int) + 200) (ref + (railOf s r).pe + inj)
  if loopState s r = lpRAMP then v else max (lo : Int) v

/-! The control law. -/

/-- The results of one evaluation of R168. -/
structure LawOut where
  e : Int
  i : Int
  f1 : Int
  f2 : Int
  dff : Nat
  uCtrl : Int
  uUns : Int
  uSat : Nat
deriving DecidableEq, Repr

/-- R168 with R186 for the first evaluation after a resume. -/
def controlLaw (c : Coef) (h : RailH) (vref vmeas vinU : Nat) (ffl inj : Int) (frozen slow : Bool) (safe : Nat) : LawOut :=
  let e := satI ((vref : Int) - vmeas) 18
  let p := satI (rnd (c.kp * e) 8) 40
  let d := satI (rnd (c.kd * satI (e - h.ePrev) 19) 8) 40
  let du := wrapI 25 (h.uSat - h.uUns)
  let bc := satI (rnd (c.kb * du) 8) 40
  let dff := min 65535 ((vref * 65536 + vinU / 2) / max 1 vinU)
  let (i, f1, f2) :=
    if h.resume then
      let f := satI (((safe : Int) - dff) * 65536 - ffl) 40
      (satI (f - p - d) 40, f, f)
    else
      let i := if frozen then h.i else if slow then satI (h.i + bc) 40 else satI (h.i + rnd (c.ki * e) 8 + bc) 40
      let v := satI (p + i + d) 40
      let f1 := satI (h.f1 + rnd (c.a1 * (v - h.f1)) 24) 40
      (i, f1, satI (h.f2 + rnd (c.a2 * (f1 - h.f2)) 24) 40)
  let ctrl := satI (f2 + (dff : Int) * 65536 + ffl) 40
  let uCtrl := satI (rnd ctrl 16) 25
  let uUns := satI (uCtrl + inj) 25
  ⟨e, i, f1, f2, dff, uCtrl, uUns, (clampI c.dmin c.dmax uUns).toNat⟩

/-- nsw16 of R173: 16 × the share fractions of the switching phases. -/
def nsw16 (s : State) (r : Nat) : Nat :=
  ((phasesOf r).filter fun n => phSwitching (phState s n)).foldl (fun a n => a + (phaseOf s n).frac) 0

/-- ffl and the predicted current of an evaluation (R173, R174). -/
def loadForward (s : State) (r vinU : Nat) : Int × Int :=
  let h := railOf s r
  if 16 ≤ r ∨ useEmpty s (r % 16) then (0, h.irail)
  else
    let ip := predictedLead s r h.coef.lead
    if h.coef.ffl = 0 then (0, ip)
    else
      let n := nsw16 s r
      let t : Int := h.coef.kff * satI (ip - h.ipredPrev) 24
      let t := if n = 0 then 0 else divZ (t * 16 * fitted s r) n
      (satI (rnd (divZ (t * get s R.LPE_VIN.VIN_NOM) (max 1 vinU)) 8) 40, ip)

/-- The held duty of R183. -/
def heldDuty (s : State) (r : Nat) : Nat :=
  let h := railOf s r
  clampN h.coef.dmin h.coef.dmax (roundDiv (get s (R.LPE_DUTY.SAFE r) * h.vinSafe : Nat) (max 1 (vinUsed s r))).toNat

/-- Whether every phase of a rail in soft start stays MID, the reference below the voltage (R131). -/
def softMid (s : State) (r : Nat) : Bool :=
  (railOf s r).soft && decide ((railOf s r).ref256 / 256 < vmeas s r)

/-- freeze_i of R171. -/
def freezeI (s : State) (r : Nat) : Bool :=
  isOn s (R.PST_RAIL_STAT.BRAKING r) || isOn s (R.PST_RAIL_STAT.LOST r) || softMid s r || countPhases s r phSwitching = 0

/-- freeze_ki of R171. -/
def freezeKi (s : State) (r : Nat) : Bool := (phasesOf r).any fun n => (phaseOf s n).limited

/-! Test injection (R191 to R197). -/

/-- A test runs that has neither recorded its last nor been stopped (R198, R202). -/
def testGoes (s : State) : Bool := s.test.running && !s.test.stop && get s R.LPE_CAP_STAT.STATE ≠ 3

/-- Whether the test in progress drives and records a rail, which is neither in HOLD nor OFF (R198). -/
def testOn (s : State) (r : Nat) : Bool :=
  testGoes s && s.test.rail = r && decide (loopState s r ≠ lpOFF ∧ loopState s r ≠ lpHOLD)

/-- The test changed. -/
def setTest (t : TestH) (s : State) : State := { s with test := t }

/-- The taps of the PRBS register by ORDER (R192). -/
def prbsTaps (order : Nat) : List Nat :=
  match order with
  | 7 => [7, 6]
  | 8 => [8, 6, 5, 4]
  | 9 => [9, 5]
  | 10 => [10, 7]
  | 11 => [11, 9]
  | 12 => [12, 11, 10, 4]
  | 13 => [13, 12, 11, 8]
  | 14 => [14, 13, 12, 2]
  | 15 => [15, 14]
  | _ => []

/-- One chip of the PRBS: its bit and the register after it. -/
def prbsNext (order reg : Nat) : Bool × Nat :=
  let b := ((prbsTaps order).filter fun n => bit reg (n - 1)).length % 2
  (b = 1, (2 * reg + b) % 2 ^ order)

/-- The sine of a first-quadrant angle of r / 2^30 right angles, scaled by 2^60: the Taylor series. -/
def sinQuarter (r : Nat) : Int :=
  let x : Int := (1811004864519280710 : Int) * r / 2 ^ 30
  ((List.range 14).foldl (fun (a : Int × Int) (k : Nat) =>
    (a.1 + a.2, -(a.2 * x / 2 ^ 60 * x / 2 ^ 60) / (((2 * k + 2) * (2 * k + 3) : Nat) : Int))) ((0 : Int), x)).1

/-- 32,767 × sin(2π·φ / 2^32), rounded (R193). -/
def sineOf (phi : Nat) : Int :=
  let q := phi / 2 ^ 30 % 4
  let r := phi % 2 ^ 30
  let m := sinQuarter (if q % 2 = 0 then r else 2 ^ 30 - r)
  let v := roundDiv (32767 * m) (2 ^ 60)
  if q < 2 then v else -v

/-- sn of R193, within 1 code of the rounded sine; the error is a free value (log 20). -/
def sn (phi : Nat) : Int := sineOf (phi % 2 ^ 32) + ((Config.sineError (phi % 2 ^ 32) 0 % 3 : Nat) : Int) - 1

/-- cs, the matching cosine. -/
def cs (phi : Nat) : Int := sineOf ((phi + 2 ^ 30) % 2 ^ 32) + ((Config.sineError (phi % 2 ^ 32) 1 % 3 : Nat) : Int) - 1

/-- The injection of an evaluation, formed at its start (R192, R193). -/
def nextInjection (s : State) : State :=
  let t := s.test
  let amp := get s R.LPE_INJ_AMP.AMP
  let mode := get s R.LPE_INJ_CFG.MODE
  if mode = 1 then
    if t.chip = 0 then
      let (b, reg) := prbsNext (get s R.LPE_INJ_CFG.ORDER) t.prbs
      let g : Int := if b then 1 else -1
      setTest { t with prbs := reg, sign := g, chip := get s R.LPE_INJ_CFG.CHIP - 1, inj := g * amp } s
    else setTest { t with chip := t.chip - 1, inj := t.sign * amp } s
  else if mode = 2 then setTest { t with inj := sar (amp * sn t.phi + 16384) 15 } s
  else setTest { t with inj := 0 } s

/-- The window address of the increment and record of step j (R194, R195). -/
def stepArea (j : Nat) : Nat := sharedArea (0x3F0000 + 0x30 * j)

/-- A 64-bit two's complement number written. -/
def writeI64 (a : Nat) (x : Int) (s : State) : State := writeBytes a (leBytes 8 (ofSigned 64 x)) s

/-- One evaluation of SINE mode after its signals are known (R194, R195). -/
def sineStep (a b : Int) (s : State) : State :=
  let t := s.test
  let inc := readWord32 s (stepArea t.step)
  let s := if t.meas ∧ t.n = 0 then setTest { t with measTime := now s } s else s
  let t := s.test
  let sums := if t.meas then
      [nthI t.sums 0 + a * cs t.phi, nthI t.sums 1 + a * sn t.phi, nthI t.sums 2 + b * cs t.phi, nthI t.sums 3 + b * sn t.phi]
    else t.sums
  let n := if t.meas then t.n + 1 else t.n
  let phi := t.phi + inc
  let wrapped := decide (2 ^ 32 ≤ phi)
  let cyc := if wrapped then t.cycles + 1 else t.cycles
  let t := { t with phi := phi % 2 ^ 32, sums := sums, n := n, cycles := cyc }
  if !wrapped then setTest t s
  else if !t.meas then
    if get s R.LPE_INJ_AMP.SETTLE ≤ cyc then
      setTest { t with meas := true, cycles := 0, n := 0, sums := [0, 0, 0, 0], measTime := 0 } s
    else setTest t s
  else if cyc < get s R.LPE_INJ_MEAS.MEAS_CYC then setTest t s
  else
    let at_ := stepArea t.step
    let next := t.step + 1
    s |> writeWord32 (at_ + 4) n |> writeI64 (at_ + 8) (nthI sums 0) |> writeI64 (at_ + 0x10) (nthI sums 1)
      |> writeI64 (at_ + 0x18) (nthI sums 2) |> writeI64 (at_ + 0x20) (nthI sums 3) |> writeI64 (at_ + 0x28) t.measTime
      |> setTest { t with step := next, phi := 0, cycles := 0, meas := false, n := 0, sums := [0, 0, 0, 0], measTime := 0 }
      |> put R.LPE_CAP_STAT.COUNT next
      |> (if get s R.LPE_INJ_CFG.N_STEPS ≤ next then put R.LPE_CAP_STAT.STATE 3 else put R.LPE_CAP_STAT.STEP next)

/-- The window address of capture entry m (R196). -/
def entryArea (m : Nat) : Nat := sharedArea (0x3F0000 + 8 * m)

/-- A capture entry written, both signals sign-extended to 32 bits. -/
def writeCapture (m : Nat) (a b : Int) (s : State) : State :=
  s |> writeWord32 (entryArea m) (ofSigned 32 a) |> writeWord32 (entryArea m + 4) (ofSigned 32 b)

/-- The pre-trigger ring of n entries, whose oldest lies at k, put in order from entry 0. -/
def unrollRing (n k : Nat) (s : State) : State :=
  let l := readBytes s (entryArea 0) (8 * n)
  writeBytes (entryArea 0) (l.drop (8 * k) ++ l.take (8 * k)) s

/-- Whether the trigger of R196 has come, in this evaluation or before. -/
def triggered (s : State) (entered : Bool) : Bool :=
  match get s R.LPE_CAP_CFG.TRIG with
  | 0 => true
  | 1 => entered
  | 2 => s.test.droopSeen
  | _ => decide (get s R.LPE_INJ_AMP.SETTLE ≤ s.test.evals)

/-- One evaluation of a capture outside SINE mode (R196): the trigger sample is the first recorded one at or
after the trigger that PRE entries precede (log 21). -/
def captureStep (a b : Int) (entered : Bool) (s : State) : State :=
  let t := s.test
  let trig := t.trigAt.isSome || triggered s entered
  let s := setTest { t with trigAt := if trig then some 0 else none, evals := t.evals + 1 } s
  if t.evals % max 1 (get s R.LPE_CAP_CFG.DECIM) ≠ 0 then s
  else
    let pre := get s R.LPE_CAP_PRE.PRE
    let k := t.samples
    let st := get s R.LPE_CAP_STAT.STATE
    let keep := setTest { s.test with samples := k + 1 }
    if st = 1 then
      if trig ∧ pre ≤ k then
        s |> (if pre = 0 then id else unrollRing pre (k % pre)) |> writeCapture pre a b
          |> setTest { s.test with samples := pre + 1 }
          |> put R.LPE_CAP_STAT.COUNT (pre + 1) |> put R.LPE_CAP_TS.TIME (now s)
          |> put R.LPE_CAP_STAT.STATE (if pre + 1 = 4096 then 3 else 2)
      else if pre = 0 then s
      else s |> writeCapture (k % pre) a b |> keep |> put R.LPE_CAP_STAT.COUNT (min pre (k + 1))
    else if st = 2 then
      s |> writeCapture k a b |> keep |> put R.LPE_CAP_STAT.COUNT (k + 1) |> put R.LPE_CAP_STAT.STATE (if k + 1 = 4096 then 3 else 2)
    else s

/-- The work of the test on its rail at the end of an evaluation. A rail that has become one of a confidential partition
shows 0 in every signal (R525, R526). -/
def testStep (entered : Bool) (s : State) : State :=
  let sig := if confNow s s.test.rail then [] else (railOf s s.test.rail).sig
  let a := nthI sig (get s R.LPE_CAP_CFG.SIG_A)
  let b := nthI sig (get s R.LPE_CAP_CFG.SIG_B)
  if get s R.LPE_INJ_CFG.MODE = 2 then sineStep a b s else captureStep a b entered s

/-! The stage controller's cycle. -/

/-- The rail current of R117, its history, and the sampled voltage, latched for the evaluation (R163, R166). -/
def latchRail (r v : Nat) (s : State) : State :=
  let h := railOf s r
  let i := ((phasesOf r).filter (phaseFitted s)).foldl (fun a n => a + sample s n) (0 : Int)
  s |> put (R.LPE_V.VMEAS r) v |> setRail r { h with irail := i, hist := (h.irail :: h.hist).take 3 }

/-- BRAKING entered or ended by the overshoot (R132, R133): entered at the earliest in the fourth evaluation after
the one in which it ended. -/
def brakeStep (r : Nat) (s : State) : State :=
  let excess : Int := (vmeas s r : Int) - get s (R.LPE_V.VREF r)
  let h := railOf s r
  if isOn s (R.PST_RAIL_STAT.BRAKING r) then
    if excess < (8 * get s (R.PST_RAIL_BRAKE.EXIT r) : Nat) then endBrake 1 r s else s
  else
    let rest := min 6 (h.brakeRest + 1)
    let s := setRail r { h with brakeRest := rest } s
    if isOn s (R.PST_RAIL_CFG.BRAKE_EN r) ∧ 5 ≤ rest ∧ (8 * get s (R.PST_RAIL_BRAKE.ENTER r) : Nat) < excess then
      s |> setRail r { railOf s r with brakeAt := now s } |> put (R.PST_RAIL_STAT.BRAKING r) 1 |> event R.PST_EVENT 2
    else s

/-- The share ramps of R127, one cycle on. -/
def rampShares (r : Nat) (s : State) : State :=
  each (phasesOf r) (fun n s =>
    let p := phaseOf s n
    if phState s n = psSOFT then setPhase n { p with frac := min 16 (p.frac + 1) } s
    else if phState s n = psSHEDDING then setPhase n { p with frac := p.frac - 1 } s
    else s) s

/-- Un-shedding by di/dt or by current (R138). -/
def unshedStep (r : Nat) (s : State) : State :=
  let h := railOf s r
  if 128 * get s (R.PST_RAIL_DIDT.DIDT_TH r) < didt s r then unshedAll 1 r s
  else
    let i := if r < 16 ∧ !useEmpty s r then max h.irail (imax s r) else h.irail
    let u := 256 * get s (R.PST_RAIL_SHED.UNSHED_I r)
    if ((u * countPhases s r (fun c => phAvail c && c ≠ psSHED) : Nat) : Int) < i then unshedTo r (cdiv i.toNat u) s else s

/-- The share target of a switching phase (R117, R175): the fraction of a full share is rounded towards zero
(R24; log 89). -/
def shareTarget (s : State) (r n : Nat) : Int :=
  let h := railOf s r
  let w := nsw16 s r
  let f : Int := (phaseOf s n).frac
  if w = 0 then 0
  else
    let extra := if r < 16 ∧ h.coef.share ≠ 0 ∧ !useEmpty s r then divZ ((predictedLead s r h.coef.lead - h.irail) * f) w else 0
    divZ (h.irail * f) w + extra

/-- The sharing trim one cycle on (R118). -/
def trimStep (r : Nat) (s : State) : State :=
  each ((phasesOf r).filter fun n => phSwitching (phState s n)) (fun n s =>
    let m : Int := get s R.PST_SHARE.TRIM_MAX * 64
    let x := getI s (R.PST_PH_DUTY.TRIM n) + sar (get s R.PST_SHARE.K_SHARE * (shareTarget s r n - sample s n)) 16
    putI (R.PST_PH_DUTY.TRIM n) (clampI (-m) m x) s) s

/-- The rail current from the estimator, where the sense check uses it (R143, R226). -/
def estimatedRail (s : State) (r : Nat) : Option Int :=
  let own (d o : Nat) : Option Int :=
    if isOn s (R.EST_DIE_STAT.SUBST d) || (linkOf s d).lost || !isOn s (R.EST_DIE_STAT.ACTIVE d) then none
    else some (getI s (R.EST_OUT.I d o))
  if r < 16 then own r 0
  else if r < 32 then own (r - 16) 1
  else some ((dies s).foldl (fun a d => a + getI s (R.EST_OUT.I d 2)) (0 : Int))

/-- The open-phase and sense checks of each phase in RUN, counted one cycle on (R141 to R143, R134). With no
neighbour in RUN and no estimator share there is nothing to differ from, and no sense failure counts; with share
targets that sum to 0 the neighbour test stands alone (log 89). -/
def checkStep (r : Nat) (s : State) : State :=
  let run := (phasesOf r).filter fun n => phState s n = psRUN
  let k := run.length
  let vals := run.map (sample s)
  let tot := vals.foldl (· + ·) (0 : Int)
  let est := estimatedRail s r
  let sumT := ((phasesOf r).filter fun n => phSwitching (phState s n)).foldl (fun a n => a + shareTarget s r n) (0 : Int)
  let quiet := isOn s (R.PST_RAIL_STAT.BRAKING r) || (railOf s r).brakeRest ≤ 5
  let oi : Int := get s (R.PST_RAIL_FAULT.OPEN_I r) * 64
  let th : Int := get s (R.PST_RAIL_FAULT.SENSE_TH r) * 64
  let out := (List.range k).map fun j =>
    let n := nth run j
    let x := nthI vals j
    let opn := decide (get s (R.PST_RAIL_FAULT.OPEN_DUTY r) * 256 ≤ get s (R.PST_PH_DUTY.DUTY n)) && decide (x < oi)
      && decide (1 < k) && decide (2 * oi * (k - 1 : Int) ≤ tot - x)
    let a := nthI vals ((j + k - 1) % max 1 k)
    let b := nthI vals ((j + 1) % max 1 k)
    let nbr := decide (1 < k) && decide (2 * th < ((2 * x - a - b).natAbs : Int))
    let far := match est with
      | some i => if sumT = 0 then none else some (decide (th * sumT.natAbs < ((x * sumT - i * shareTarget s r n).natAbs : Int)))
      | none => none
    let sense := match far with
      | some f => (nbr || k = 1) && f
      | none => nbr
    (n, opn, sense && !quiet)
  each out (fun (e : Nat × Bool × Bool) s =>
    let p := phaseOf s e.1
    setPhase e.1 { p with openRun := if e.2.1 then min 255 (p.openRun + 1) else 0,
                          senseRun := if e.2.2 then min 255 (p.senseRun + 1) else 0 } s) s

/-- Taps per nanosecond and period: taps in 10^6 / 6 ns of the free-running period (R53, R94). -/
def freeTaps (s : State) : Nat := 640000000 / s.clk.slotPs

/-- Nanoseconds in taps, rounded up. -/
def nsTaps (s : State) (ns : Nat) : Nat := cdiv (ns * 3840000) s.clk.slotPs

/-- The largest on-time of R119 in taps; none where the phase cannot rise. -/
def peakTaps (s : State) (r n : Nat) : Option Nat :=
  let dv : Int := (get s R.PST_VIN.VIN : Int) - vmeas s r
  if dv ≤ 0 then none
  else
    let k : Int := 3 * freeTaps s * get s (R.PST_RAIL_MISC.L_PH r)
    some ((k * ((get s (R.PST_RAIL_ILIM.ILIM r) : Int) - sample s n) + 32 * dv * (phaseOf s n).runTaps).fdiv (64 * dv)).toNat

/-- What R98 to R100, R119, R131 and R132 make of a phase's coming period: its duty, its on-time in taps, its
wire (0 MID, 1 LOW, 2 switching), and whether R119 shortened it. -/
structure Edge where
  duty : Nat
  on : Nat
  wire : Nat
  short : Bool
deriving DecidableEq, Repr

/-- The coming period of a switching phase from the rail duty (R98 to R100, R119, R131, R132). A duty outside its 16
bits is saturated (log 89). -/
def edgeOf (s : State) (r n duty period : Nat) : Edge :=
  let p := phaseOf s n
  let phd := (clampI 0 65535 ((duty : Int) + getI s (R.PST_PH_DUTY.TRIM n))).toNat
  let taps := 8 * period
  let on := (roundDiv (phd * taps : Nat) 65536).toNat
  let on := min on (taps - 2 * get s R.PST_CTRL.DEAD_TAPS - nsTaps s (get s R.PST_CTRL.TOFF_MIN_NS))
  let (on, short) := match peakTaps s r n with
    | some m => if m < on then (m, true) else (on, false)
    | none => (on, false)
  let mid := softMid s r || (isOn s (R.PST_RAIL_STAT.BRAKING r) && (decide (0 < sample s n) || p.stays))
  let low := on * s.clk.slotPs < get s R.PST_CTRL.TON_MIN_NS * 3840000
  ⟨phd, if mid ∨ low then 0 else on, if mid then 0 else if low then 1 else 2, short && !mid⟩

/-- One phase's edges of the coming period formed from a rail duty (R101), with its limited cycle counted (R119, R120,
R123, R134). A phase that leaves MID does so with trim 0 (R118). What a cycle began with stands in the phase, so
that its coming period can be formed once more, as a rail enters HOLD in it (R177, R183). -/
def formEdge (r n duty period : Nat) (s : State) : State :=
  let p := phaseOf s n
  let s := when (decide (p.runWire = 0 ∧ (edgeOf s r n duty period).wire ≠ 0)) (put (R.PST_PH_DUTY.TRIM n) 0) s
  let e := edgeOf s r n duty period
  let lim := !isOn s (R.PST_RAIL_STAT.BRAKING r) && (e.short || p.faulted)
  s |> setPhase n { p with onTaps := e.on, wire := e.wire, duty := some e.duty, limited := lim, limRun := if lim then p.limBefore + 1 else 0 }
    |> put (R.PST_PH_CNT.LIMITED n) (if lim then min 65535 (p.cntBefore + 1) else p.cntBefore)
    |> emit (.pwm n e.on)

/-- One switching phase's cycle: the coming period becomes the running one, and the next is formed (R101). -/
def phaseStep (r n duty period : Nat) (held : Bool) (s : State) : State :=
  let p := phaseOf s n
  s |> setPhase n { p with runTaps := p.onTaps, runWire := p.wire, stays := held && decide (p.wire = 0), limBefore := p.limRun,
                           cntBefore := get s (R.PST_PH_CNT.LIMITED n) }
    |> formEdge r n duty period

/-- The duty of the last period shown, one cycle on (R160): a phase that does not switch keeps its last (log 89). -/
def showDuty (n : Nat) (s : State) : State :=
  let p := phaseOf s n
  s |> when p.runDuty.isSome (put (R.PST_PH_DUTY.DUTY n) (p.runDuty.getD 0)) |> setPhase n { p with runDuty := p.duty, duty := none }

/-! One rail's evaluation. -/

/-- A threshold that changed sent to die d's agent over a link in service (R34, R284). -/
def sendThreshold (d v : Nat) (s : State) : State :=
  if (itnOf s d).thrSent = v || !linkUp s d then s
  else s |> setItn d { itnOf s d with thrSent := v } |> sendDown tyORDER d [0, v] (.threshold d v)

/-- A sensed voltage of die d that is not above its threshold and hysteresis: the time of R291 starts anew. -/
def noteAbove (d : Nat) (s : State) : State :=
  let h := itnOf s d
  if h.threshold + 8 * get s R.ITN_DRP_CFG.HYST < vmeas s d ∨ h.detMask = 0 then s
  else setItn d { h with aboveUs := (bitList 4 h.detMask).foldl (fun l i => sset 0 i s.us l) [] } s

/-- The references of an evaluation (R164, R165, R277, R278, R284). -/
def refStep (r : Nat) (s : State) : State :=
  let h := railOf s r
  let st := loopState s r
  let h := if st ≠ lpHOLD then { h with coef := h.pending.getD h.coef, pending := none } else h
  let s := setRail r h s
  let ref := towards h.ref256 (railTarget s r * 256) (rampStep s r)
  let pe := if r < 16 ∧ (st = lpTRACK ∨ st = lpEXCURSION) then towardsI h.pe (preEmphasis s r h.irail) (get s R.ITN_PE.PE_SLEW) else 0
  let s := setRail r { h with ref256 := ref, pe := pe } s
  let s := when (testOn s r) nextInjection s
  let inj := if testOn s r ∧ get s R.LPE_INJ_CFG.POINT = 0 then s.test.inj else 0
  s |> put (R.LPE_V.VREF r) (effRef s r (ref / 256 : Nat) inj).toNat
    |> when (decide (r < 16)) (fun s =>
        let v := min (ref / 256) (railTarget s r) - 8 * get s R.ITN_DRP_CFG.TH
        let v := v - v % 20
        let s := s |> putI (R.ITN_DIE_STAT.PE r) pe |> putI (R.ITN_DIE_PRED.IMAX r) (imax s r) |> showEmpty r
        s |> sendThreshold r v |> noteAbove r)

/-- Stage CORE once VLINK is in TRACK: VCORE of every present die (R618), but of one that a LOST rail holds. -/
def enableCores (s : State) : State := each ((dies s).filter fun d => !bit s.boot.lostHold d) railEnable s

/-- R177 to R182: the law's results agreed and stored, or the last agreed state kept, then the following-error
check. -/
def superviseStep (r : Nat) (o : LawOut) (ipred : Int) (vinU : Nat) (differ : Bool) (s : State) : State :=
  let h := railOf s r
  let st := loopState s r
  let s := if differ then
      s |> setRail r { h with cmpRun := min 7 (h.cmpRun + 1), resume := false } |> event R.LPE_EVENT 2 |> addSat R.LPE_CMP_CNT.COUNT 1
        |> put (R.LPE_DUTY.U_SAT r) h.uSat.toNat
    else
      s |> setRail r { h with i := o.i, f1 := o.f1, f2 := o.f2, ePrev := o.e, uUns := o.uUns, uSat := o.uSat, ipredPrev := ipred,
                              uCtrl := o.uCtrl, cmpRun := 0, resume := false }
        |> put (R.LPE_DUTY.U_SAT r) o.uSat |> putI (R.LPE_INT.I r) (sar o.i 16)
        |> when (decide (st = lpRAMP ∨ st = lpTRACK)) (fun s =>
            s |> put (R.LPE_DUTY.SAFE r) o.uSat |> setRail r { railOf s r with vinSafe := vinU })
  let h := railOf s r
  if st = lpRAMP then
    if h.ref256 = railTarget s r * 256 then
      s |> put (R.LPE_STAT.STATE r) lpTRACK
        |> when (decide (16 ≤ r ∧ r < 32)) (fun s => { s with pins := { s.pins with memEn := setBit s.pins.memEn (r - 16) } })
        |> when (decide (r = 32 ∧ stage s = 6)) enableCores
    else s
  else if st = lpTRACK ∧ h.coef.limit < o.e.natAbs then
    s |> put (R.LPE_STAT.STATE r) lpEXCURSION |> setRail r { h with excUs := s.us } |> event R.LPE_EVENT 0
  else if st = lpEXCURSION ∧ o.e.natAbs ≤ h.coef.limit then put (R.LPE_STAT.STATE r) lpTRACK s
  else s

/-- The control law of a rail in RAMP, TRACK or EXCURSION, or the held duty in HOLD (R168, R179, R183), where a
disagreement of the copies, whose state R183 does not update, is ignored (log 89). Where the copies disagree, the
signals of a test are those of the last agreed state (R177, R197). No rule predicts the current of a VMEM rail or of
VLINK: their IPRED is the rail current (log 65). -/
def lawStep (r : Nat) (differ : Bool) (s : State) : State :=
  let h := railOf s r
  let vinU := vinUsed s r
  if loopState s r = lpHOLD then
    s |> put (R.LPE_DUTY.U_SAT r) (heldDuty s r) |> when (decide (r < 16)) (putI (R.ITN_DIE_PRED2.ILEAD r) (predictedLead s r h.coef.lead)) |> putB (R.LPE_STAT.FROZEN r) (freezeI s r || freezeKi s r)
  else
    let (ffl, ip) := loadForward s r vinU
    let lead := if r < 16 then predictedLead s r h.coef.lead else ip
    let on := testOn s r
    let inj := if on ∧ get s R.LPE_INJ_CFG.POINT = 1 then s.test.inj else 0
    let fi := freezeI s r
    let fki := freezeKi s r
    let vref := get s (R.LPE_V.VREF r)
    let o := controlLaw h.coef h vref (vmeas s r) vinU ffl inj fi fki (get s (R.LPE_DUTY.SAFE r))
    let before := loopState s r
    s |> putB (R.LPE_STAT.FROZEN r) (fi || fki)
      |> when (decide (r < 16)) (putI (R.ITN_DIE_PRED2.ILEAD r) lead)
      |> superviseStep r o ip vinU differ
      |> when on (fun s =>
          let a := railOf s r
          let sig : List Int := [vmeas s r, vref, o.e, sar a.i 16, sar a.f2 16, (o.dff : Int) + sar ffl 16, a.uCtrl, a.uCtrl + inj, a.uSat,
            s.test.inj, h.irail, lead, get s R.PST_VIN.VIN]
          s |> setRail r { railOf s r with sig := sig }
            |> testStep (before ≠ lpEXCURSION && loopState s r = lpEXCURSION))

/-- The limited cycle of a phase that no longer switches is over (R171). -/
def endLimited (n : Nat) (s : State) : State :=
  if (phaseOf s n).limited then setPhase n { phaseOf s n with limited := false } s else s

/-- Soft start is over as the reference reaches its target (R131). -/
def endSoft (r : Nat) (s : State) : State :=
  let h := railOf s r
  if h.ref256 = railTarget s r * 256 then setRail r { h with soft := false } s else s

/-- One rail's evaluation in its loop slot, with the stage controller's work of that cycle (R166). None is made of a
rail that is OFF, whose U_SAT, VREF, FROZEN and I keep their last values (log 89). -/
def evalRail (period disagree r : Nat) (s : State) : State :=
  if loopState s r = lpOFF then s
  else
    let held := isOn s (R.PST_RAIL_STAT.BRAKING r)
    let s := s |> each ((phasesOf r).filter (phaseFitted s)) showDuty |> refStep r |> brakeStep r |> rampShares r |> unshedStep r |> noteSkim r |> trimStep r |> checkStep r
      |> lawStep r (bit disagree r) |> endSoft r |> each ((phasesOf r).filter fun n => !phSwitching (phState s n)) endLimited
    each ((phasesOf r).filter fun n => phSwitching (phState s n))
      (fun n s => phaseStep r n (get s (R.LPE_DUTY.U_SAT r)) period held s) s

/-! The whole evaluation. -/

/-- The VIN sample counted for the brownout rules and for the return of the input (R353, R355, R357, R618, R637). -/
def vinSample (vin : Nat) (s : State) : State :=
  let p := s.capp
  let warn := get s R.CAP_BROWN.WARN
  let up (b : Bool) (n : Nat) : Nat := if b then min 2 (n + 1) else 0
  let n := up (decide (warn + 8 * get s R.CAP_BROWN.HYST ≤ vin)) p.above
  { put R.PST_VIN.VIN vin s with capp := { p with below := up (decide (vin < warn)) p.below, above := n,
                                                  aboveUs := if n = 2 ∧ p.above < 2 then s.us else p.aboveUs,
                                                  reset := up (decide (vin ≤ get s R.CAP_BROWN2.RESET)) p.reset } }

/-- The sums of one evaluation that the estimator cycle and the trim window use (R218, R228, R232, R337). -/
def sumRails (s : State) : State :=
  let spoils (s : State) (r : Nat) : Bool := loopState s r ≠ lpTRACK || isOn s (R.PST_RAIL_STAT.BRAKING r)
  let add (q : Pair) (r : Nat) (s : State) : Pair :=
    { q with ySum := q.ySum + (railOf s r).irail, evals := q.evals + 1, spoiled := q.spoiled || spoils s r }
  let s := each (dies s) (fun d s =>
    let c := capOf s d
    let e := estOf s d
    s |> setCap d { c with vSum := [nth c.vSum 0 + vmeas s d, nth c.vSum 1 + vmeas s (16 + d)],
                           iSum := [nthI c.iSum 0 + (railOf s d).irail, nthI c.iSum 1 + (railOf s (16 + d)).irail], evals := c.evals + 1 }
      |> setEst d { e with pair0 := add e.pair0 d s, pair1 := add e.pair1 (16 + d) s }) s
  let c := capOf s 16
  { setCap 16 { c with vSum := [nth c.vSum 0 + vmeas s 32], iSum := [nthI c.iSum 0 + (railOf s 32).irail], evals := c.evals + 1 } s with
    estp := { s.estp with link := add s.estp.link 32 s } }

/-- Slot 33: the comparator self-test of R178; the bit of SELFTEST may be cleared after 256 good periods (R650). -/
def selfTest (flagged : Bool) (s : State) : State :=
  let t := s.self
  let last := t.period % 256 = 255
  let ok := flagged = last
  { s with self := ⟨(t.period + 1) % 256, if last then t.rotation + 1 else t.rotation, if ok then min 256 (t.good + 1) else 0⟩ }
    |> when (!ok) (fun s => s |> event R.LPE_EVENT 4 |> faultOn 2 |> record 0x0302 0)

/-- A die held by a LOST rail leaves die reset once both its loops are in TRACK again (R638). -/
def releaseHeld (d : Nat) (s : State) : State :=
  if bit s.boot.lostHold d ∧ !dieLost s d ∧ loopState s d = lpTRACK ∧ loopState s (16 + d) = lpTRACK then
    { s with boot := { s.boot with lostHold := clrBit s.boot.lostHold d } } |> reloadDie d
  else s

/-- A switching period starts (R101, R116, R158): the last one's length shown, the next one's set, SYNC_OUT risen. -/
def startPeriod (y : SyncIn) (s : State) : State :=
  let s := syncStep y s
  let c := s.clk
  s |> put R.PST_SYNC_STAT.PERIOD c.period
    |> (fun s => { s with clk := { c with period := c.next, next := switchPeriod s y, startAt := now s } })
    |> when (isOn s R.PST_CTRL.SYNC_OUT_EN) (emit (.syncOut (c.next / 2)))

/-- LOOP_EVALUATION, R166 to R169, R176, R178: VIN, the 33 sensed voltages, SYNC_IN as measured, the rails whose copies disagree, and what the comparator flags in slot 33; none before ROOT runs (R688). -/
def effLoopEvaluation (vin : Nat) (volts : List Nat) (sync : SyncIn) (disagree : Nat) (flagged : Bool) (s : State) : State :=
  if !s.clk.started then s
  else
    let rails := (List.range 33).filter (railFitted s)
    s |> vinSample vin |> startPeriod sync
      |> each rails (fun r => latchRail r (nth volts r))
      |> (fun s => each rails (evalRail s.clk.next disagree) s) |> sumRails |> selfTest flagged |> each (dies s) releaseHeld

/-- LOOP_EVALUATION. -/
def execLoopEvaluation (vin : Nat) (volts : List Nat) (sync : SyncIn) (disagree : Nat) (flagged : Bool) (s : State) :
    Host.Outcome State Fault Refusal :=
  done (effLoopEvaluation vin volts sync disagree flagged s)

/-! HOLD. -/

/-- HOLD entered with a cause, 1 FE or 2 CMP (R184): the coming period has the held duty (R177, R183), and a test
of the rail stops (R198). -/
def enterHold (r cause : Nat) (s : State) : State :=
  s |> put (R.LPE_STAT.STATE r) lpHOLD |> put (R.LPE_STAT.CAUSE r) cause |> event R.LPE_EVENT (if cause = 2 then 3 else 1)
    |> setRail r { railOf s r with pe := 0, cmpRun := 0 } |> when (decide (r < 16)) (put (R.ITN_DIE_STAT.PE r) 0)
    |> (fun s => put (R.LPE_DUTY.U_SAT r) (heldDuty s r) s)
    |> (fun s => each ((phasesOf r).filter fun n => phSwitching (phState s n)) (fun n => formEdge r n (heldDuty s r) s.clk.next) s) |> stopTest r
    |> faultOn 1 |> recordRail 0x0301 r (r + cause * 2 ^ 8) |> when (decide (r < 32)) (refit (r % 16))

/-- Whether the disagreements of a rail meet R177. -/
def cmpFails (s : State) (r : Nat) : Bool :=
  get s R.LPE_GLB.CMP_N ≤ (railOf s r).cmpRun && decide (loopState s r ≠ lpOFF ∧ loopState s r ≠ lpHOLD)

/-- CMP_HOLD, R177, R184. -/
def execCmpHold (rail : Nat) (s : State) : Host.Outcome State Fault Refusal :=
  done (if railFitted s rail ∧ cmpFails s rail then enterHold rail 2 s else s)

/-- FE_HOLD, R181, R184, R185, once the excursion has lasted TIME µs: where both causes meet, CAUSE is CMP. -/
def execFeHold (rail : Nat) (s : State) : Host.Outcome State Fault Refusal :=
  done (if railFitted s rail ∧ loopState s rail = lpEXCURSION ∧ (railOf s rail).coef.time ≤ s.us - (railOf s rail).excUs then enterHold rail (if cmpFails s rail then 2 else 1) s else s)

/-- LOOP_RESUME, R186, R200. -/
def execLoopResume (port tag : Nat) (s : State) : Host.Outcome State Fault Refusal :=
  done <| command 0x0301 port tag s
    (fun fl =>
      let r := par fl 0
      [(decide (r / 2 ^ 6 ≠ 0), sRESERVED), (decide (32 < r), sOUT_OF_RANGE),
       (decide (loopState s r ≠ lpHOLD) || isOn s (R.PST_RAIL_STAT.LOST r), sWRONG_STATE)])
    (fun fl s =>
      let r := par fl 0
      s |> put (R.LPE_STAT.STATE r) lpTRACK |> put (R.LPE_STAT.CAUSE r) 0
        |> setRail r { railOf s r with resume := true, cmpRun := 0 } |> complete fl sOK 0 0)

/-! The test commands. -/

/-- Whether a word of the capture window is a legal increment (R194). -/
def goodIncrement (w : Nat) : Bool := 715828 ≤ w && w ≤ 1431655765

/-- AMP above its limit, or a count of LOOP_TEST out of range (R191 to R196, R201). -/
def testRange (s : State) : Bool :=
  let mode := get s R.LPE_INJ_CFG.MODE
  let settle := get s R.LPE_INJ_AMP.SETTLE
  let steps := get s R.LPE_INJ_CFG.N_STEPS
  decide (32 < get s R.LPE_INJ_CFG.RAIL) ||
    decide ((if get s R.LPE_INJ_CFG.POINT = 0 then 160 else 2048) < get s R.LPE_INJ_AMP.AMP) ||
    decide (get s R.LPE_INJ_CFG.CHIP = 0 ∨ get s R.LPE_INJ_MEAS.MEAS_CYC = 0 ∨ steps = 0 ∨ 128 < steps ∨ get s R.LPE_CAP_CFG.DECIM = 0) ||
    (decide (mode = 2) && (decide (settle = 0 ∨ 255 < settle) ||
      (List.range steps).any fun j => !goodIncrement (readWord32 s (stepArea j))))

/-- An invalid mode, signal code, ORDER or trigger (R197, R201). -/
def testBad (s : State) : Bool :=
  let mode := get s R.LPE_INJ_CFG.MODE
  let order := get s R.LPE_INJ_CFG.ORDER
  decide (mode = 3 ∨ 12 < get s R.LPE_CAP_CFG.SIG_A ∨ 12 < get s R.LPE_CAP_CFG.SIG_B) ||
    decide (mode = 1 ∧ (order < 7 ∨ 15 < order)) || decide (get s R.LPE_CAP_CFG.TRIG = 3 ∧ mode ≠ 1)

/-- LOOP_TEST, R201: the test starts; the command waits for its end. DESIGN CHOICE (log 65): LPE_CAP_TS is 0 in a SINE
test, and otherwise that of the last trigger sample. -/
def execLoopTest (port tag : Nat) (s : State) : Host.Outcome State Fault Refusal :=
  let r := get s R.LPE_INJ_CFG.RAIL
  done <| command 0x0302 port tag s
    (fun _ => [(testBad s, sBAD_PARAM), (testRange s, sOUT_OF_RANGE), (s.test.running || decide (loopState s r ≠ lpTRACK), sWRONG_STATE)])
    (fun _ s =>
      let sine := get s R.LPE_INJ_CFG.MODE = 2
      s |> setTest { TestH.init with running := true, port := port, tag := tag, rail := r, prbs := 2 ^ get s R.LPE_INJ_CFG.ORDER - 1,
                                     sums := [0, 0, 0, 0] }
        |> put R.LPE_CAP_STAT.STATE (if sine then 2 else 1) |> put R.LPE_CAP_STAT.COUNT 0 |> put R.LPE_CAP_STAT.STEP 0
        |> put R.LPE_CAP_TS.TIME (if sine then 0 else get s R.LPE_CAP_TS.TIME) |> markStarted port tag)

/-- LOOP_TEST_STOP, R202: the test stops at the next evaluation. One that has recorded its last, or has been
stopped, runs no more. -/
def execLoopTestStop (port tag : Nat) (s : State) : Host.Outcome State Fault Refusal :=
  done <| command 0x0303 port tag s (fun _ => [(!testGoes s, sWRONG_STATE)])
    (fun fl s => s |> setTest { s.test with stop := true } |> complete fl sOK 0 0)

/-- The pre-trigger ring of a capture that stops before its trigger put in order (R196: entry 0 is the oldest). -/
def orderRing (s : State) : State :=
  let pre := get s R.LPE_CAP_PRE.PRE
  let k := s.test.samples
  if get s R.LPE_CAP_STAT.STATE = 1 ∧ pre < k ∧ pre ≠ 0 then unrollRing pre (k % pre) s else s

/-- LOOP_TEST_END, R198, R201. -/
def effLoopTestEnd (s : State) : State :=
  let t := s.test
  let whole := get s R.LPE_CAP_STAT.STATE = 3
  if t.running ∧ (whole ∨ t.stop) then
    s |> orderRing |> setTest TestH.init |> put R.LPE_CAP_STAT.STATE 3 |> event R.LPE_EVENT (if whole then 6 else 7)
      |> completeAt t.port t.tag (if whole then sOK else sABORTED) (get s R.LPE_CAP_STAT.COUNT) (get s R.LPE_CAP_TS.TIME % 2 ^ 32)
  else s

/-- LOOP_TEST_END. -/
def execLoopTestEnd (s : State) : Host.Outcome State Fault Refusal := done (effLoopTestEnd s)

/-! Configuration commit. -/

/-- The shadow set of a rail (R188). -/
def shadowSet (s : State) (r : Nat) : Coef :=
  ⟨get s (R.LPE_KP.KP r), get s (R.LPE_KI.KI r), get s (R.LPE_KD.KD r), get s (R.LPE_KB.KB r), get s (R.LPE_A1.A1 r), get s (R.LPE_A2.A2 r),
   get s (R.LPE_KFF.KFF r), get s (R.LPE_FF.LEAD_NS r), get s (R.LPE_FF.FFV_EN r), get s (R.LPE_FF.FFL_EN r), get s (R.LPE_FF.SHARE_EN r),
   get s (R.LPE_DUTY_LIM.MIN r), get s (R.LPE_DUTY_LIM.MAX r), get s (R.LPE_REF.TARGET r), get s (R.LPE_REF.SLEW r),
   get s (R.LPE_FE.LIMIT r), get s (R.LPE_FE.TIME r)⟩

/-- A target within its rail's range and on the grid of 20 codes (R162). -/
def goodTarget (r v : Nat) : Bool := (railRange r).1 ≤ v && v ≤ (railRange r).2 && v % 20 = 0

/-- The checks of R189. -/
def goodSet (r : Nat) (c : Coef) : Bool :=
  [c.kp, c.ki, c.kd, c.kb, c.kff].all (· < 2 ^ 31) && [c.a1, c.a2].all (fun a => 1 ≤ a && a ≤ 2 ^ 24) &&
    decide (c.dmin < c.dmax ∧ c.dmax ≤ 62259 ∧ 1 ≤ c.slew ∧ c.slew ≤ 255 ∧ 64 ≤ c.limit ∧ c.limit ≤ 1600 ∧ 2 ≤ c.time ∧ c.time ≤ 1000 ∧
      c.lead ≤ 1000) && (decide (r < 16) || goodTarget r c.target)

/-- COMMIT of a rail's shadow set by an authorized port (R189, R190): whether it is accepted. -/
def commitSet (r : Nat) (s : State) : State × Bool :=
  let c := shadowSet s r
  if goodSet r c then
    (s |> setRail r { railOf s r with pending := some c } |> put (R.LPE_STAT.COMMIT_ERR r) 0, true)
  else (s |> put (R.LPE_STAT.COMMIT_ERR r) 1 |> event R.LPE_EVENT 5, false)

end Sys2Proof.Machine
end

