-- ==== Sys2Proof/Machine/Power.lean ====
section
/-! DEFINITION. Sys2Proof/Machine/Power.lean: what the core forms once per estimator cycle beside the estimates: rail
powers, energy accounts, base currents, the sharing among classes, the budgets (R271, R335 to R337, R350, R351,
R376, R377). -/

namespace Sys2Proof.Machine

/-- The length of an estimator cycle in ps (R206, R376). -/
def cyclePs (s : State) : Nat := 5 * s.clk.slotPs

/-- A mean of n values under R24; the latest one where the cycle held no evaluation. -/
def meanOf (sum : Int) (n : Nat) (latest : Int) : Int := if n = 0 then latest else divZ sum n

/-- The power of a rail in mW, mean voltage times mean current over the cycle, to the nearest; negative where the
current is (R117, R337). -/
def railPower (v : Nat) (i : Int) (n : Nat) (lastV : Nat) (lastI : Int) : Int :=
  if n = 0 then roundDiv (lastV * lastI) 2048 else roundDiv (v * i) (n * n * 2048)

/-- A power as its unsigned encoding: the nearest code, which is 0 for a negative one (R11, R12; log 94). -/
def powerCode (p : Int) : Nat := min (2 ^ 32 - 1) p.toNat

/-- The powers and currents of die d over the cycle, and its sums for the millisecond (R337, R364). -/
def diePower (d : Nat) (s : State) : State :=
  let c := capOf s d
  let vm := vmeas s d
  let im := irail s d
  let p0 := railPower (nth c.vSum 0) (nthI c.iSum 0) c.evals vm im
  let p1 := railPower (nth c.vSum 1) (nthI c.iSum 1) c.evals (vmeas s (16 + d)) (irail s (16 + d))
  s |> setCap d { c with pCore := p0, pMem := p1, iMem := meanOf (nthI c.iSum 1) c.evals (irail s (16 + d)),
                         pSum := c.pSum + p0 + p1, ipk := max c.ipk (getI s (R.EST_OUT.I d 0)), vSum := [], iSum := [], evals := 0,
                         vPrev := c.vSum, evPrev := c.evals }
    |> put (R.CAP_DIE_P.P d) (powerCode (p0 + p1))

/-- The power and current of VLINK over the cycle. -/
def linkPower (s : State) : State :=
  let c := capOf s 16
  { setCap 16 { c with vSum := [], iSum := [], evals := 0, vPrev := c.vSum, evPrev := c.evals } s with
    capp := { s.capp with pLink := railPower (nth c.vSum 0) (nthI c.iSum 0) c.evals (vmeas s 32) (irail s 32),
                          iLink := meanOf (nthI c.iSum 0) c.evals (irail s 32) } }

/-- The rail power of the dies of a list in mW. -/
def diesPower (s : State) (l : List Nat) : Int := l.foldl (fun a d => a + (capOf s d).pCore + (capOf s d).pMem) 0

/-- Rail-side power as input power, without P_FIXED (R337). -/
def inputPower (s : State) (p : Int) : Int := roundDiv (p * 65536) (max 1 (get s R.CAP_PKG_CFG.EFF))

/-- P_pkg of the cycle, with the sums of the millisecond and of the partitions' second (R337, R526). -/
def packagePower (s : State) : State :=
  let p := inputPower s (diesPower s (dies s) + s.capp.pLink) + (get s R.CAP_PKG_CFG.P_FIXED * 1000 : Nat)
  let add (l : List (Nat × Int)) (q : Nat) : List (Nat × Int) :=
    sset 0 q (sget 0 q l + inputPower s (diesPower s ((dies s).filter fun d => ownerDie s d = q))) l
  { put R.CAP_PKG_P.P (powerCode p) s with
    capp := { s.capp with pSum := s.capp.pSum + p, cycles := s.capp.cycles + 1 },
    sec := { s.sec with pwrSum := ((List.range 16).filter fun q => get s (R.SEC_PART_CFG.STATE q) ≠ 0).foldl add s.sec.pwrSum,
                        pwrCycles := s.sec.pwrCycles + 1 } }

/-- Units of 1 / 16,384,000,000,000 µJ: a femtojoule has 16,384 of them and the unit of R327 3,125. -/
def energyUnit : Int := 16384000000000

/-- Whole µJ charged for die d: to its partition, or to the system account with no owner or in a scrub; a scrub that
failed is over (R376, R377, R533, R534). -/
def chargeDie (d : Nat) (uj : Nat) (s : State) : State :=
  let p := ownerDie s d
  if p < 16 ∧ get s (R.SEC_PART_CFG.STATE p) ≠ 3 then
    s |> addWrap (R.CAP_E_PART.ENERGY p) uj |> setCap d { capOf s d with energyMs := (capOf s d).energyMs + uj }
  else addWrap R.CAP_E_SYS.ENERGY uj s

/-- The energy of die d in the cycle with its share of VLINK's in fJ, less its filler (R376). -/
def energyDie (d : Nat) (share : Int) (s : State) : State :=
  let c := capOf s d
  let t := tokOf s d
  let e : Int := ((c.pCore + c.pMem) * cyclePs s + share) * 16384 - t.filCyc * 3125 + c.energyRem
  let uj := (max 0 (e / energyUnit)).toNat
  s |> setCap d { c with energyRem := e - uj * energyUnit } |> setTok d { t with filCyc := 0 } |> chargeDie d uj

/-- The energies of the cycle (R376): VLINK's divided by out[2], or equally when every one is 0. -/
def energyCycle (s : State) : State :=
  let n := (dies s).length
  let out (d : Nat) : Nat := (getI s (R.EST_OUT.I d 2)).toNat
  let w := (dies s).foldl (fun a d => a + out d) 0
  let tot := s.capp.pLink * cyclePs s + s.capp.linkRem
  let share (d : Nat) : Int := if w = 0 then tot / n else tot * out d / w
  let used := (dies s).foldl (fun (a : Int) d => a + share d) 0
  each (dies s) (fun d st => energyDie d (share d) st) { s with capp := { s.capp with linkRem := tot - used } }

/-- The base current of die d (R271). Where no slot of the window was reported, U is a free value but for a
die in reset, whose agent grants nothing (log 22). -/
def baseCurrent (d : Nat) (s : State) : State :=
  let (n, m) := (tokOf s d).pub
  let open_ := decide (m = 0) && !dieInReset s d
  let u := if open_ then fresh s % 4096 else n / max 1 m
  s |> setItn d { itnOf s d with ibase := getI s (R.EST_OUT.I d 0) - rnd (ktok s d * u : Nat) 8 } |> when open_ drawn

/-- The sharing of the cycle and every die's budget (R335, R350, R351). -/
def shareCycle (s : State) : State :=
  let g := classGive s
  let s := { s with capp := { s.capp with setter := (powerLimit s).2, poolPow := poolPow s g } }
  each (dies s) (fun d s => sendBudget d (classOf s d g) s) s

/-- All that the core forms after the estimates of a cycle are published. -/
def powerCycle (s : State) : State :=
  s |> each (dies s) diePower |> linkPower |> packagePower |> energyCycle |> each (dies s) baseCurrent |> shareCycle

end Sys2Proof.Machine
end

