-- ==== Sys2Proof/Machine/Intent.lean ====
section
/-! DEFINITION. Sys2Proof/Machine/Intent.lean: intent packets and the profile they make, mismatch entry and exit,
the droop cut, its sites and their tests (R256 to R270, R280 to R296). -/

namespace Sys2Proof.Machine

/-! Packets and entries. -/

/-- Fields of an intent packet (R256). -/
def pkDie (w : Nat) : Nat := bits w 0 6
def pkStart (w : Nat) : Nat := bits w 6 6
def pkDur (w : Nat) : Nat := bits w 20 12
def pkSrc (w : Nat) : Nat := bits w 54 3

/-- A time of 100 ns units in whole slots, rounded up (R73, R259). -/
def slotsOf (s : State) (v : Nat) : Nat := if coasting s then cdiv (v * 100000) s.clk.slotPs else v

/-- The intent source that dispatcher k of die d is assigned to, DSP_SRC[3k+2:3k] (R658; log 100). -/
def dispatcherSource (d k : Nat) : Nat := Config.dspSrc d k % 8

/-- The entry of a packet received in a slot (R258, R259). -/
def entryOf (s : State) (slot w : Nat) : Entry :=
  let first := slot + slotsOf s (pkStart w)
  ⟨pkSrc w, first, first + slotsOf s (pkDur w) - 1, bits w 12 8, bits w 32 3, bits w 35 16, bit w 51, bit w 52, bit w 53⟩

/-- The entries that remain once a source announces anew from a slot on (R260). -/
def trimmed (src first : Nat) (l : List Entry) : List Entry :=
  (l.filter fun e => e.src ≠ src || decide (e.first < first)).map fun e =>
    if e.src = src ∧ first ≤ e.last then { e with last := first - 1 } else e

/-- How many entries of a list are a source's. -/
def countOf (src : Nat) (l : List Entry) : Nat := (l.filter fun e => e.src = src).length

/-- A profile with an entry added, none where it would be the source's ninth (R260, R261). -/
def addEntry (e : Entry) (p : Prof) : Option Prof :=
  let l := trimmed e.src e.first p.entries
  if 8 ≤ countOf e.src l then none else some { p with entries := l ++ [e] }

/-- A malformed packet for die d (R257). -/
def badPacket (d w : Nat) : Bool :=
  pkDie w ≠ d || pkStart w = 0 || decide (40 < pkStart w) || pkDur w = 0 || bits w 57 7 ≠ 0

/-- An accepted packet forwarded to the core, in a frame of its own (R258, R660; log 91). -/
def forwardPacket (d slot word : Nat) (s : State) : State :=
  sendMsg true d ⟨tyINTENT, leBytes 8 word, .intent d slot word⟩ s

/-- INTENT_PACKET, R257, R258: the first condition of R257's table that holds is counted. -/
def effIntentPacket (d word : Nat) (s : State) : State :=
  let h := itnOf s d
  if !isPresent s d ∨ dieInReset s d then s
  else if badPacket d word then s |> agentAdd d (R.ITN_DIE_CNT.BAD d) |> heard d (event R.ITN_EVENT 0)
  else if !bit (setting s d (R.ITN_SRC_CFG.SRC_EN d)) (pkSrc word) then agentAdd d (R.ITN_DIE_CNT2.SRC_OFF d) s
  else
    match addEntry (entryOf s (tokOf s d).slot word) h.agent with
    | none => s |> agentAdd d (R.ITN_DIE_CNT2.OVERFLOW d) |> heard d (event R.ITN_EVENT 1)
    | some p => s |> setItn d { h with agent := p } |> agentAdd d (R.ITN_DIE_CNT.ACCEPTED d)
        |> forwardPacket d (tokOf s d).slot word

/-- INTENT_PACKET. -/
def execIntentPacket (die word : Nat) (s : State) : Host.Outcome State Fault Refusal :=
  done (effIntentPacket die (word % 2 ^ 64) s)

/-- One forwarded entry taken into the core's copy (R258). -/
def takeIntent (d slot word : Nat) (s : State) : State :=
  let h := itnOf s d
  if badPacket d word ∨ !bit (get s (R.ITN_SRC_CFG.SRC_EN d)) (pkSrc word) then s
  else
    match addEntry (entryOf s slot word) h.core with
    | none => s
    | some p => setItn d { h with core := p } s

/-- The packets of an INTENT payload (R256, R661). -/
def packetsOf (p : List Nat) : List Nat := (List.range (p.length / 8)).map fun i => leAt p (8 * i) 8

/-- INTENT_FRAME, R258: the accepted packets of one slot reach the core. -/
def execIntentFrame (die lane : Nat) (bytes : List Nat) (slot : Nat) (s : State) : Host.Outcome State Fault Refusal :=
  done (acceptFrame true tyINTENT die ⟨lane, bytes⟩
    (fun s => s |> each (packetsOf (framePayload bytes)) (takeIntent die slot) |> showEmpty die) s)

/-- A profile after the last slot of a source's entry: the entry goes, its level and phase tag stand (R262). -/
def expire (src k : Nat) (p : Prof) : Prof :=
  match passedEntry p src k with
  | none => p
  | some e => { p with entries := p.entries.filter fun x => ¬ (x.src = src ∧ x.last < k),
                       standing := upd p.standing src e.level, ptags := upd p.ptags src e.ptag }

/-- ENTRY_EXPIRE, R262, in the agent and in the core. -/
def effEntryExpire (d src : Nat) (s : State) : State :=
  let h := itnOf s d
  let k := (tokOf s d).slot
  if isPresent s d then s |> setItn d { h with agent := expire src k h.agent, core := expire src k h.core } |> showEmpty d else s

/-- ENTRY_EXPIRE. -/
def execEntryExpire (die source : Nat) (s : State) : Host.Outcome State Fault Refusal := done (effEntryExpire die source s)

/-- A source at rest: no entry, standing level and phase tag 0 (R262). -/
def dropSource (src : Nat) (p : Prof) : Prof :=
  { p with entries := p.entries.filter fun e => e.src ≠ src, standing := upd p.standing src 0, ptags := upd p.ptags src 0 }

/-- A source disabled by SRC_EN: in the agent, and in the core (R262). -/
def dropAgent (d src : Nat) (s : State) : State :=
  setItn d { itnOf s d with agent := dropSource src (itnOf s d).agent } s
def dropCore (d src : Nat) (s : State) : State :=
  setItn d { itnOf s d with core := dropSource src (itnOf s d).core } s

/-! Mismatch. -/

/-- Die d leaves MISMATCH (R282). -/
def leaveMismatch (d : Nat) (s : State) : State :=
  if isOn s (R.ITN_DIE_STAT.MISMATCH d) then
    s |> put (R.ITN_DIE_STAT.MISMATCH d) 0 |> event R.ITN_EVENT 3 |> recordDie 0x0502 d 0 |> showEmpty d |> showReasons d
  else s

/-- MISMATCH_ENTER, R281, R282. -/
def effMismatchEnter (d : Nat) (s : State) : State :=
  if isPresent s d ∧ !(linkOf s d).lost ∧ !isOn s (R.ITN_DIE_STAT.MISMATCH d) ∧ setting s d R.ITN_MM.MM_N ≤ (itnOf s d).badRun then
    s |> put (R.ITN_DIE_STAT.MISMATCH d) 1 |> event R.ITN_EVENT 2 |> recordDie 0x0501 d 0 |> showEmpty d |> showReasons d
  else s

/-- MISMATCH_ENTER. -/
def execMismatchEnter (die : Nat) (s : State) : Host.Outcome State Fault Refusal := done (effMismatchEnter die s)

/-- MISMATCH_EXIT, R281, R282. -/
def execMismatchExit (die : Nat) (s : State) : Host.Outcome State Fault Refusal :=
  done (if isPresent s die ∧ !(linkOf s die).lost ∧ setting s die R.ITN_MM.MM_CLR ≤ (itnOf s die).goodRun then leaveMismatch die s else s)

/-- What an INTENT_RESET does to die d at a slot boundary (R294). -/
def resetIntent (d : Nat) (s : State) : State :=
  let h := itnOf s d
  let clean (p : Prof) : Prof := (List.range 8).foldl (fun p src => dropSource src p) p
  s |> setItn d { h with agent := clean h.agent, core := clean h.core, coll := 0, barrier := false, waitPs := 0, badRun := 0,
                         goodRun := 0, resetDue := false }
    |> put (R.ITN_DIE_STAT.COLLECTIVE d) 0 |> put (R.ITN_DIE_STAT.BARRIER d) 0
    |> leaveMismatch d |> showEmpty d |> resetReached d

/-- INTENT_RESET, 0x0501 (R294): it completes once every die of the mask has passed a slot boundary. -/
def execIntentReset (port tag : Nat) (s : State) : Host.Outcome State Fault Refusal :=
  done (command 0x0501 port tag s
    (fun fl =>
      let m := bits (par fl 0) 0 16
      [(bits (par fl 0) 16 16 ≠ 0, sRESERVED), (m = 0 || m ≠ m % 2 ^ nDies s, sBAD_PARAM)])
    (fun fl s =>
      let m := bits (par fl 0) 0 16
      s |> keepResult port tag m 0 |> markStarted port tag
        |> each (bitList 16 m) (fun d s => setItn d { itnOf s d with resetDue := true } s)))

/-! The droop cut. -/

/-- The sites of die d that the core knows as marked STUCK or FAILED (R291, R292). -/
def markedSites (s : State) (d : Nat) : Nat := get s (R.ITN_DRP_STAT.STUCK d) ||| get s (R.ITN_DRP_STAT.FAILED d)

/-- The sites that die d's agent masks: marked, or by ITN_DRP_MASK (R291 to R293). -/
def maskedSites (s : State) (d : Nat) : Nat :=
  get s (R.ITN_DRP_STAT.STUCK d) ||| agentGet s d (R.ITN_DRP_STAT.FAILED d) ||| setting s d (R.ITN_DRP_MASK.SITE_DIS d)

/-- BLIND of die d judged again (R293), by its agent alone while its link is lost. -/
def judgeBlind (d : Nat) (s : State) : State :=
  let b := decide (maskedSites s d = 15)
  s |> heard d (when (b && !isOn s (R.ITN_DIE_STAT.BLIND d)) (fun s => s |> event R.ITN_EVENT 7 |> faultOn 3))
    |> agentPut d (R.ITN_DIE_STAT.BLIND d) (b2n b)

/-- The sites of die d are armed: its loop is neither OFF nor in RAMP (R284). -/
def sitesArmed (s : State) (d : Nat) : Bool := loopState s d ≠ lpOFF && loopState s d ≠ lpRAMP

/-- A site of die d detects (R285, R288): the cut, the clock stretch, no filler. -/
def siteDetects (d site : Nat) (s : State) : State :=
  let h := itnOf s d
  let cut := agentGet s d (R.ITN_DIE_STAT.CUT d) ≠ 0
  let det := setBit h.detMask site
  let s := s |> setItn d { h with detMask := det, cutMask := setBit (if cut then h.cutMask else 0) site,
                                  cutStart := if cut then h.cutStart else now s,
                                  aboveUs := if bit h.detMask site then h.aboveUs else sset 0 site s.us h.aboveUs }
    |> agentPut d (R.ITN_DRP_STAT.FIRED d) det
  if cut then s
  else
    let t := tokOf s d
    s |> agentPut d (R.ITN_DIE_STAT.CUT d) 1 |> setTok d { t with cutSlot := true, cuts := t.cuts + 1 } |> heard d (showReasons d)
      |> when (setting s d R.ITN_DRP_CFG.STRETCH_EN ≠ 0) (fun s =>
          { s with pins := { s.pins with stretch := setBit s.pins.stretch d } } |> agentPut d (R.ITN_DIE_STAT.STRETCH d) 1
            |> emit (.stretch d (setting s d R.ITN_DRP_CFG.DEPTH) true))

/-- DROOP_DETECT, R285: of an armed site that no mask holds. -/
def effDroopDetect (d site : Nat) (s : State) : State :=
  if isPresent s d ∧ site < 4 ∧ sitesArmed s d ∧ !bit (maskedSites s d) site then siteDetects d site s else s

/-- DROOP_DETECT. -/
def execDroopDetect (die site : Nat) (s : State) : Host.Outcome State Fault Refusal := done (effDroopDetect die site s)

/-- Sites of a mask no longer detect: the cut ends with the last of them (R287). -/
def clearSites (d m : Nat) (s : State) : State :=
  let h := itnOf s d
  let det := bitsClear h.detMask m
  if det = 0 then endCut d s else s |> setItn d { h with detMask := det } |> agentPut d (R.ITN_DRP_STAT.FIRED d) det

/-- The sites of a mask whose output can clear: not one that a DROOP_FORCE still holds (R296). -/
def freeSites (s : State) (d m : Nat) : Nat :=
  maskOf ((bitList 4 m).filter fun i => (itnOf s d).forced.all fun f => f.site ≠ i || !f.begun || decide (f.ns ≤ spanNs s f.start (now s)))

/-- DROOP_CLEAR, R287: the sites of a mask have cleared. -/
def execDroopClear (die sites : Nat) (s : State) : Host.Outcome State Fault Refusal :=
  done (if isPresent s die then clearSites die (freeSites s die sites) s else s)

/-- A droop that the core hears of (R290, R594): its mask, and its start and end as the agent stamped them. -/
def takeDroop (d mask start stop : Nat) (s : State) : State :=
  let at_ := agentTime s d start
  let s := s |> event R.ITN_EVENT 4 |> addSat (R.ITN_DRP_STAT.EVENTS d) 1 |> put (R.ITN_DRP_LAST.TIME d) at_
    |> put (R.ITN_DRP_DUR.NS d) (min (2 ^ 32 - 1) (spanNs s start stop))
    |> recordAt at_ 0x0503 d (ownerDie s d) (mask % 16) |> countHealth 0 1
  if s.test.running ∧ s.test.rail < 32 ∧ s.test.rail % 16 = d then { s with test := { s.test with droopSeen := true } } else s

/-- DROOP_REPORT, R290. -/
def execDroopReport (die : Nat) (frame : Frame) (mask : Nat) (stamps : CutStamps) (s : State) : Host.Outcome State Fault Refusal :=
  done (acceptFrame true tyREPORT die frame (takeDroop die mask stamps.start stamps.stop) s)

/-- A masked site holds no cut any more (R291, R292): without another site the cut ends. -/
def releaseSite (d site : Nat) (s : State) : State :=
  if bit (itnOf s d).detMask site then clearSites d (2 ^ site) s else s

/-- SITE_STUCK, R291: a site has detected for STUCK_US while the sensed voltage stayed above its threshold and
hysteresis. -/
def effSiteStuck (d site : Nat) (s : State) : State :=
  let h := itnOf s d
  if isPresent s d ∧ !(linkOf s d).lost ∧ bit h.detMask site ∧ h.threshold + 8 * get s R.ITN_DRP_CFG.HYST < vmeas s d
      ∧ get s R.ITN_DRP_CFG2.STUCK_US ≤ s.us - sget 0 site h.aboveUs then
    s |> event (R.ITN_DRP_STAT.STUCK d) site |> event R.ITN_EVENT 5 |> faultOn 3 |> recordDie 0x0504 d site
      |> releaseSite d site |> judgeBlind d
  else s

/-- SITE_STUCK. -/
def execSiteStuck (die site : Nat) (s : State) : Host.Outcome State Fault Refusal := done (effSiteStuck die site s)

/-- A site that fails its test is FAILED and masked (R292). -/
def failSite (d site : Nat) (s : State) : State :=
  let m := agentGet s d (R.ITN_DRP_STAT.FAILED d)
  if bit m site then s
  else s |> agentPut d (R.ITN_DRP_STAT.FAILED d) (setBit m site)
    |> heard d (fun s => s |> event R.ITN_EVENT 6 |> faultOn 3 |> recordDie 0x0505 d site)
    |> releaseSite d site |> judgeBlind d

/-- SITE_TEST, R292: the sites of a mask fail to follow the test input. -/
def execSiteTest (die failing : Nat) (s : State) : Host.Outcome State Fault Refusal :=
  done (if isPresent s die then each (bitList 4 failing) (failSite die) s else s)

/-- DROOP_SITE_RESTORE, 0x0502 (R34, R295): the sites of a mask fail the test, which the agent makes: the command waits
while the die's link is lost (log 47). -/
def execDroopSiteRestore (port tag failing : Nat) (s : State) : Host.Outcome State Fault Refusal :=
  done (command 0x0502 port tag s
    (fun fl =>
      let d := bits (par fl 0) 0 6
      let m := bits (par fl 0) 6 4
      let marked := markedSites s d
      [(bits (par fl 0) 10 22 ≠ 0, sRESERVED), (decide (d < 16) && !isPresent s d || m = 0, sBAD_PARAM),
       (decide (15 < d), sOUT_OF_RANGE), (m &&& marked ≠ m || (!(linkOf s d).lost && m &&& failing ≠ 0), sWRONG_STATE)])
    (fun fl s =>
      let d := bits (par fl 0) 0 6
      let m := bits (par fl 0) 6 4
      s |> heard d (fun s => s |> put (R.ITN_DRP_STAT.STUCK d) (bitsClear (get s (R.ITN_DRP_STAT.STUCK d)) m)
        |> put (R.ITN_DRP_STAT.FAILED d) (bitsClear (get s (R.ITN_DRP_STAT.FAILED d)) m)
        |> judgeBlind d |> complete fl sOK 0 0)))

/-- A DROOP_FORCE reaches die d's agent: its site detects (R296). -/
def beginForced (d : Nat) (f : Forced) (s : State) : State :=
  let h := itnOf s d
  s |> setItn d { h with forced := (h.forced.filter fun x => x ≠ f) ++ [{ f with start := now s, begun := true }] } |> siteDetects d f.site

/-- DROOP_FORCE, 0x0503 (R34, R296): it completes when the cut ends, and begins when the die's link carries it. -/
def execDroopForce (port tag : Nat) (s : State) : Host.Outcome State Fault Refusal :=
  done (command 0x0503 port tag s
    (fun fl =>
      let d := bits (par fl 0) 0 6
      let site := bits (par fl 0) 6 2
      let dur := bits (par fl 1) 0 16
      [(bits (par fl 0) 8 24 ≠ 0 || bits (par fl 1) 16 16 ≠ 0, sRESERVED), (decide (d < 16) && !isPresent s d, sBAD_PARAM),
       (decide (15 < d) || decide (dur < 10) || decide (10000 < dur), sOUT_OF_RANGE),
       (bit (markedSites s d ||| get s (R.ITN_DRP_MASK.SITE_DIS d)) site || loopState s d ≠ lpTRACK, sWRONG_STATE)])
    (fun fl s =>
      let d := bits (par fl 0) 0 6
      let site := bits (par fl 0) 6 2
      let f : Forced := ⟨port, tag, site, bits (par fl 1) 0 16, now s, false⟩
      s |> markStarted port tag |> setItn d { itnOf s d with forced := (itnOf s d).forced ++ [f] } |> heard d (beginForced d f)))

end Sys2Proof.Machine
end

