-- ==== Sys2Proof/Machine/Tokens.lean ====
section
/-! DEFINITION. Sys2Proof/Machine/Tokens.lean: the agent's slot, with its grant, filler and step tracking, the core's
package arbitration, the frames between them and warm-up (R268, R269, R280, R299 to R329, R339, R340, R374, R658). -/

namespace Sys2Proof.Machine

/-! The tokens of a slot, cycle by cycle (R301 to R303). -/

/-- The length of a slot in FCLK cycles, in every clock state: SLOT is ROOT / 480 and FCLK is ROOT / 4 (R27, R51, R301;
log 92). -/
def slotCycles : Nat := 120

/-- What the dispatchers of a die have come to in a slot: tokens spent, the cycle of the last cut and those spent before it,
the place at which rotation starts, the dispatchers that stall, and what was granted by cycle. -/
structure Served where
  spent : Nat
  early : Nat
  cut : Option Nat
  rot : Nat
  stall : Nat
  out : List (Nat × Nat)
deriving DecidableEq, Repr

/-- Tokens released by the end of the cycle before cycle c, with grant g and floor f; early were spent before the last cut
(R301, R303). -/
def released (g f early : Nat) (cut : Option Nat) (c : Nat) : Nat :=
  match cut with
  | some c0 => early + f * (c - c0) / slotCycles
  | none => g * c / slotCycles

/-- Dispatchers in an order served from n tokens, each what it asks of 0 to 3: what each is granted, in the layout of
DSP_GNT, and the first one served. -/
def serve (ask : Nat) : List Nat → Nat → Nat × Option Nat
  | [], _ => (0, none)
  | k :: t, n =>
    let x := min n (bits ask (2 * k) 2)
    let r := serve ask t (n - x)
    (r.1 + x * 4 ^ k, if 0 < x then some k else r.2)

/-- The dispatchers from a place on, wrapping (R302). -/
def inTurn (p : Nat) : List Nat := (List.range 32).map fun i => (p + i) % 32

/-- How many tokens a grant word holds. -/
def granted (w : Nat) : Nat := ((List.range 32).map fun k => bits w (2 * k) 2).sum

/-- The dispatchers that ask in a cycle and are granted none. -/
def refused (ask w : Nat) : Nat := maskOf ((List.range 32).filter fun k => bits ask (2 * k) 2 ≠ 0 && bits w (2 * k) 2 = 0)

/-- One cycle: a cut withdraws what is not spent; the requests are served in rotation, from one place past the first
dispatcher served in the previous cycle; those without a token stall until one is released (R301 to R303; log 92). -/
def serveCycle (g f : Nat) (cuts : List Nat) (c ask : Nat) (v : Served) : Served :=
  let hit := cuts.contains c
  let early := if hit then v.spent else v.early
  let cut := if hit then some c else v.cut
  let r := serve ask (inTurn v.rot) (released g f early cut c - v.spent)
  let more := !hit && decide (released g f early cut (c - 1) < released g f early cut c)
  ⟨v.spent + granted r.1, early, cut, (r.2.map fun k => (k + 1) % 32).getD v.rot, (if more then 0 else v.stall) ||| refused ask r.1,
   v.out ++ [(r.1, (if more then 0 else v.stall) ||| refused ask r.1)]⟩

/-- The cycles of a slot in which requests come, from cycle c on. -/
def serveSlot (g f : Nat) (cuts : List Nat) : Nat → List Nat → Served → Served
  | _, [], v => v
  | c, a :: t, v => serveSlot g f cuts (c + 1) t (serveCycle g f cuts c a v)

/-- The filler that a slot has issued, and TILE_FIL by cycle (R314, R658). -/
structure Issued where
  count : Nat
  out : List Nat
deriving DecidableEq, Repr

/-- One cycle of filler, n operations to the slot: those released evenly so far are issued on tile arrays that real issue
leaves free, the lowest first (R301, R314; log 92). -/
def fillCycle (n c free : Nat) (v : Issued) : Issued :=
  let due := n * (c + 1) / slotCycles - v.count
  let on := bitList 32 free
  if due = 0 ∨ on = [] then ⟨v.count, v.out ++ [0]⟩ else ⟨v.count + due, v.out ++ [maskOf (on.take due)]⟩

/-- The cycles of a slot in which filler can be issued, from cycle c on. -/
def fillSlot (n : Nat) : Nat → List Nat → Issued → Issued
  | _, [], v => v
  | c, a :: t, v => fillSlot n (c + 1) t (fillCycle n c a v)

/-! The filler and the record of a slot that ends. -/

/-- The LFSR of tile array a of die d: seeded at a die reset (R315). -/
def lfsrSeed (d a : Nat) : Nat := 0x80000000 ||| d <<< 8 ||| a
def lfsrOf (s : State) (d a : Nat) : Nat := sget (lfsrSeed d a) a (tokOf s d).lfsr

/-- One step of x^32 + x^22 + x^2 + x + 1 (R315; log 92). -/
def lfsrStep (x : Nat) : Nat := 2 * x % 2 ^ 32 + ([31, 21, 1, 0].filter (bit x)).length % 2

/-- An LFSR after it has supplied a number of operand bytes: 8 steps each. -/
def lfsrAfter : Nat → Nat → Nat
  | 0, x => x
  | n + 1, x => lfsrAfter n (Nat.iterate lfsrStep 8 x)

/-- The operand bytes of a slot's filler drawn from the LFSRs of the tile arrays that issued it (R314, R315, R326). -/
def feedTiles (d : Nat) (fed words : List Nat) (s : State) : State :=
  each (bitList 32 (words.foldl (· ||| ·) 0)) (fun a s =>
    let t := tokOf s d
    setTok d { t with lfsr := sset (lfsrSeed d a) a (lfsrAfter (nth fed a) (lfsrOf s d a)) t.lfsr } s) s

/-- A glide episode (R317): running, its first level, the slots into it, its length in slots. -/
structure Glide where
  on : Bool
  l0 : Nat
  n : Nat
  ng : Nat
deriving DecidableEq, Repr

/-- The episode of a die's slot: the one that runs, or one that starts now (R317). -/
def glideOf (s : State) (d : Nat) (t : TokD) (real fall : Nat) : Glide × Bool :=
  let top := min t.grant t.total
  if !t.episode ∧ setting s d R.FIL_CTRL.GLIDE_EN ≠ 0 ∧ real + fall < top then
    (⟨true, top, 0, setting s d R.FIL_CTRL.GLIDE * 1000000 / s.clk.slotPs⟩, true)
  else (⟨t.episode, t.l0, t.n, t.ng⟩, false)

/-- The glide line of a slot (R316). -/
def glideLine (g : Glide) (grant : Nat) : Nat := if g.on then min (cdiv (g.l0 * (g.ng - g.n)) g.ng) grant else 0

/-- Filler of a slot before the exceptions of R319 (R316). -/
def fillerOf (m real prev fall line : Nat) : Nat := min (m - real) (max line (prev - fall) - real)

/-- In HOLD with its issue at or below F a die issues no filler at all (R319). -/
def heldFiller (s : State) (d : Nat) (t : TokD) : Bool := dieHold s d && decide (t.total ≤ floorIssue s d)

/-- The filler of a slot as R316 to R319, R322 and R326 form it from its real issue: how much, the episode after it, and
whether one started. -/
structure FillPlan where
  fill : Nat
  glide : Glide
  began : Bool
deriving DecidableEq, Repr

/-- No filler, and no episode (R319). -/
def FillPlan.none : FillPlan := ⟨0, ⟨false, 0, 0, 0⟩, false⟩

/-- The filler of a slot with so much real issue, where no cut takes hold in it. -/
def planFill (s : State) (d real : Nat) : FillPlan :=
  let t := tokOf s d
  let m := maxIssue s d
  let off : Glide := ⟨false, 0, 0, 0⟩
  if heldFiller s d t then .none
  else if t.grant = 0 then ⟨min t.warm (m - real), off, false⟩
  else
    let fall := fallSlew s d
    let (g, began) := glideOf s d t real fall
    let f := fillerOf m real t.total fall (glideLine g t.grant)
    let ends := !g.on || (decide (1 ≤ g.n) && f = 0)
    ⟨max f (min t.warm (m - real)), if ends then off else { g with n := g.n + 1 }, began⟩

/-- What a slot of die d comes to: the tokens spent, the filler issued, the episode after it, whether one started. -/
structure SlotSum where
  served : Served
  filler : Issued
  glide : Glide
  began : Bool
deriving DecidableEq, Repr

/-- The real issue and the filler of a slot. -/
def SlotSum.real (x : SlotSum) : Nat := x.served.spent
def SlotSum.fill (x : SlotSum) : Nat := x.filler.count

/-- The tokens that the requests of a slot spend, with the cycles in which a cut took hold; none in a slot whose grant is 0
(R301 to R304, R322). -/
def servedIn (s : State) (d : Nat) (cuts asks : List Nat) : Served :=
  let t := tokOf s d
  serveSlot t.grant (if t.grant = 0 then 0 else floorIssue s d) cuts 0 (asks.take slotCycles) ⟨0, 0, none, t.rot, 0, []⟩

/-- The issue and filler of the slot that ends (R303, R314, R316 to R319, R322, R326), with the cuts that took hold in it:
filler is issued before the first of them, and none where a cut held from the start. -/
def slotSum (s : State) (d : Nat) (cuts : List Nat) (asks free : List Nat) : SlotSum :=
  let t := tokOf s d
  let cs := cuts.take t.cuts
  let v := servedIn s d cs asks
  if t.cutHeld then ⟨v, ⟨0, []⟩, FillPlan.none.glide, false⟩
  else if t.cutSlot then
    let c0 := cs.foldl min slotCycles
    let p := planFill s d (servedIn s d [] (asks.take c0)).spent
    ⟨v, fillSlot p.fill 0 (free.take c0) ⟨0, []⟩, FillPlan.none.glide, false⟩
  else
    let p := planFill s d v.spent
    ⟨v, fillSlot p.fill 0 (free.take slotCycles) ⟨0, []⟩, p.glide, p.began⟩

/-- The recorded grant of the slot that ends (R305). -/
def recordedGrant (s : State) (d : Nat) (x : SlotSum) : Nat :=
  let t := tokOf s d
  let f := floorIssue s d
  if t.grant = 0 ∨ t.cutSlot then f else max f (min t.grant (x.real + x.fill))

/-- Mismatch accounting of the slot that ends (R280, R281). -/
def judgeSlot (d : Nat) (x : SlotSum) (s : State) : State :=
  let t := tokOf s d
  let h := itnOf s d
  let en := bitList 8 (setting s d (R.ITN_SRC_CFG.SRC_EN d))
  if t.cutSlot ∨ !(en.any fun i => (covering h.agent i t.slot).isSome) then s
  else
    let ref := min (predicted s d h.agent t.slot) t.grant
    let mg := scaleTok s (setting s d R.ITN_MM.MARGIN)
    let tooHigh := decide (x.real + mg < ref)
    let under := decide (ref + mg < x.real)
    s |> setItn d { h with badRun := if tooHigh || under then h.badRun + 1 else 0, goodRun := if tooHigh || under then 0 else h.goodRun + 1 }
      |> when tooHigh (agentAdd d (R.ITN_MM_CNT.OVER d)) |> when under (agentAdd d (R.ITN_MM_CNT.UNDER d))

/-- The lowest OP that a die may take (R372). -/
def lowestOp (s : State) (d : Nat) : Nat :=
  if get s R.CAP_MODE.MODE = 1 then get s R.CAP_MODE.OP_FIX else get s (R.CAP_DIE_OP.MIN d)

/-- The limit reasons of the slot that ends (R374). -/
def limitReasons (s : State) (d : Nat) (x : SlotSum) : Nat :=
  let t := tokOf s d
  let g := t.grant
  if x.real = g ∧ g < t.askIn then
    let b := (capOf s d).bounds
    let at_ (v : Nat) : Bool := decide (v ≤ g)
    let bound (i : Nat) : Bool := match b[i]? with
      | some v => at_ v
      | none => false
    let short := decide (t.share < t.askIn)
    maskOf ((List.range 9).filter fun n =>
      match n with
      | 0 => at_ (edcBound s d)
      | 2 => bound 1
      | 5 => bound 2 || (short && t.pool.2 = 5)
      | 6 => at_ (brownBound s d)
      | 7 => bound 4 || bound 5 || bound 6
      | 8 => at_ (ceiling s d (phaseTag s d (itnOf s d).agent t.slot))
      | _ => short && t.pool.2 = n)
  else 0

/-- The slot registers of die d (R332), which a lost link leaves as they are. -/
def showSlot (d : Nat) (x : SlotSum) (rise : Nat) (s : State) : State :=
  let t := tokOf s d
  if (linkOf s d).lost then s
  else
    s |> put (R.TOK_DIE_STAT.GRANT d) (if t.cutSlot then min t.grant (floorIssue s d) else t.grant)
      |> put (R.TOK_DIE_STAT.SHARE d) (min (maxIssue s d) t.share) |> putB (R.TOK_DIE_STAT.SCALED d) (decide (t.share < t.askIn))
      |> put (R.TOK_DIE_STAT2.USED d) x.real |> put (R.TOK_DIE_STAT3.RISE_EFF d) rise |> put (R.TOK_DIE_STAT3.FILLER d) x.fill
      |> putB (R.FIL_DIE_STAT.EPISODE d) x.glide.on |> put (R.FIL_DIE_STAT.N d) (min 65535 x.glide.n)
      |> put (R.FIL_DIE_L0.L0 d) x.glide.l0

/-- The report of a slot sent to the core (R313, R320, R661). -/
def reportSlot (d real fill : Nat) (late : Bool) (s : State) : State :=
  sendUp tyTOKENS d [real, fill, b2n late] (.tokens d real fill late) s

/-- The slot of die d ends: its issue, accounting, reasons and registers, with the report that the agent sends. -/
def closeSlot (d : Nat) (x : SlotSum) (s : State) : State :=
  let t := tokOf s d
  let last := recordedGrant s d x
  let low := decide (t.share < t.askIn ∨ heldBudget s d < t.askIn)
  let fl := t.grant = floorIssue s d && get s (R.CAP_DIE_OP.CUR d) = lowestOp s d
  s |> judgeSlot d x |> heard d (setReasons d (limitReasons s d x ||| heldReasons s d)) |> showSlot d x (riseEff s d)
    |> when x.began (fun s => s |> agentAdd d (R.FIL_DIE_CNT.EPISODES d) |> heard d (event R.FIL_EVENT 0))
    |> emit (.dispatch d x.served.out) |> emit (.tiles d x.filler.out) |> reportSlot d x.real x.fill t.lateShare
    |> setTok d { t with rot := x.served.rot, last := last, total := x.real + x.fill, episode := x.glide.on, l0 := x.glide.l0, n := x.glide.n,
                         ng := x.glide.ng, slots := t.slots + 1, limSlots := t.limSlots + b2n low, allFloor := t.allFloor && fl }

/-! The next slot. -/

/-- Die d has a memory layer below FIL_WARM_TH.EXIT (R322). -/
def coldDie (s : State) (d : Nat) : Bool :=
  (published s d ((List.range (8 * nLayers s)).map (64 + ·))).any fun t => decide (t < getI s R.FIL_WARM_TH.EXIT)

/-- A grant of 0 follows the fall: toward G1 or G2 and in them (R632). -/
def gateAsked (s : State) : Bool :=
  s.boot.change ≠ 1 && (s.boot.change = 2 || s.boot.change = 3 || get s R.BOOT_STAT.GSTATE ≠ 0)

/-- A grant of 0 in the slot that begins (R304). -/
def grantZero (s : State) (d : Nat) (gated : Bool) : Bool :=
  !sitesArmed s d || dieLost s d || get s R.FIL_WARM_STAT.STATE = 1 || dieInReset s d || stage s ≠ stREADY || gated
    || isOn s R.THM_TRIP.ACTIVE

/-- The grant of the slot that begins, from the share, budget and phase tag in force (R303, R304). -/
def nextGrant (s : State) (d budget share tag last : Nat) (gated : Bool) : Nat :=
  let f := floorIssue s d
  if grantZero s d gated then 0
  else if agentGet s d (R.ITN_DIE_STAT.CUT d) ≠ 0 then f
  else max f (min (maxIssue s d) (min budget (min share (min (ceiling s d tag) (last + riseEff s d)))))

/-- Die d issues warm-up filler that rises: in HEATING, with a layer below EXIT (R322). -/
def warming (s : State) (d : Nat) : Bool := get s R.FIL_WARM_STAT.STATE = 1 && coldDie s d

/-- The warm-up level of the slot that begins, from the last one and whether that rose (R322, R323, R288, R413): 0 in a cut
and where filler stops; a rise that begins anew begins from 0. -/
def nextWarm (s : State) (d budget tag prev : Nat) (rose : Bool) : Nat :=
  if agentGet s d (R.ITN_DIE_STAT.CUT d) ≠ 0 ∨ !sitesArmed s d ∨ dieLost s d ∨ dieInReset s d ∨ isOn s R.THM_TRIP.ACTIVE
      ∨ stage s < 7 ∨ stREADY < stage s then 0
  else if warming s d then
    let level := max (floorIssue s d) (scaleTok s (setting s d R.FIL_WARM.LEVEL))
    min (maxIssue s d) (min budget (min (ceiling s d tag) (min level ((if rose then prev else 0) + riseEff s d))))
  else prev - fallSlew s d

/-- The collective bits as slot k ends and k + 1 begins (R269). -/
def nextColl (p : Prof) (coll k : Nat) : Nat :=
  let off := p.entries.foldl (fun c e => if e.ce ∧ e.last = k then clrBit c e.src else c) coll
  p.entries.foldl (fun c e => if e.cb ∧ e.first = k + 1 then setBit c e.src else c) off

/-- The last STEP of each source as slot k begins (R266). -/
def markSteps (k : Nat) (p : Prof) : Prof :=
  { p with lastStep := (List.range 8).map fun i => match covering p i k with
      | some e => e.step
      | none => nth p.lastStep i }

/-- The core hears of a step boundary of die d (R369, R431, R432). -/
def tellStep (d tag : Nat) (s : State) : State :=
  { s with
    ring := { s.ring with lastStep := some tag, stepUs := s.us, stale := false },
    capp := { s.capp with deferred := s.capp.deferred.map fun c => { c with stepped := c.stepped || bit c.scope d } } }

/-- A step of die d ends (R267, R268): its tag, wait and length recorded, the core told. -/
def stepBoundary (d : Nat) (s : State) : State :=
  let h := itnOf s d
  s |> agentPut d (R.ITN_STEP.LAST d) h.step |> agentPut d (R.ITN_STEP_WAIT.NS d) (min (2 ^ 32 - 1) (h.waitPs / 1000))
    |> agentPut d (R.ITN_STEP_LEN.US d) (min (2 ^ 32 - 1) (h.stepPs / 1000000))
    |> setItn d { h with stepPs := 0, waitPs := 0, barrier := false } |> heard d (tellStep d h.step)

/-- The registers of R266 to R269 of die d. -/
def showSteps (d : Nat) (s : State) : State :=
  let h := itnOf s d
  if (linkOf s d).lost then s
  else s |> put (R.ITN_DIE_STAT.STEP d) h.step |> putB (R.ITN_DIE_STAT.COLLECTIVE d) (h.coll ≠ 0)
    |> putB (R.ITN_DIE_STAT.BARRIER d) h.barrier

/-- Step, barrier and collective tracking as slot k of die d ends (R266 to R269). -/
def trackSteps (d : Nat) (s : State) : State :=
  let k := (tokOf s d).slot
  let h := itnOf s d
  let s := setItn d { h with stepPs := h.stepPs + s.clk.slotPs, waitPs := if h.barrier then h.waitPs + s.clk.slotPs else h.waitPs } s
  let s := when h.resetDue (heard d (resetIntent d)) s
  let h := itnOf s d
  let p := markSteps (k + 1) h.agent
  let tag := stepTag s d p (k + 1)
  let crossed := decide (tag ≠ h.step)
  let s := s |> setItn d { h with agent := p, core := markSteps (k + 1) h.core, coll := nextColl p h.coll k }
    |> when crossed (stepBoundary d)
  let h := itnOf s d
  let bar := match covering p (setting s d (R.ITN_SRC_CFG.STEP_SRC d)) (k + 1) with
    | some e => e.bar
    | none => false
  s |> setItn d { h with step := tag, barrier := h.barrier || bar } |> showSteps d

/-- The slot of die d after the one that ended (R42, R303 to R307, R313). -/
def openSlot (d : Nat) (s : State) : State :=
  let t := tokOf s d
  let k := t.slot + 1
  let budget := t.budgetNext.getD (t.budget, t.budgetPs)
  let share := t.shareNext.getD t.share
  let sl := t.slewNext.getD (t.rise, t.fall)
  let t := { t with slot := k, budget := budget.1, budgetPs := budget.2, budgetNext := none, share := share, shareNext := none, rise := sl.1, fall := sl.2,
                    slewNext := none, floorTok := t.floorNext.getD t.floorTok, floorNext := none, lateShare := t.shareNext.isNone,
                    askIn := t.ask, pool := (t.pool.1, t.pool.1), slotAt := now s }
  let s := setTok d t s
  let gated := gateAsked s && (t.gated || decide (t.total ≤ floorIssue s d))
  let b := appliedBudget s d
  let tag := phaseTag s d (itnOf s d).agent k
  let g := nextGrant s d b share tag t.last gated
  let w := nextWarm s d b tag t.warm t.warmOn
  let cut := agentGet s d (R.ITN_DIE_STAT.CUT d) ≠ 0
  s |> setTok d { t with gated := gated, grant := g, warm := w, warmOn := warming s d, cutSlot := cut, cutHeld := cut, cuts := 0 }
    |> when (!(linkOf s d).lost) (fun s =>
        s |> putB (R.TOK_DIE_STAT.ZERO d) (g = 0) |> put (R.TOK_DIE_STAT2.BUDGET d) b |> putB (R.FIL_DIE_STAT.WARM d) (w ≠ 0))
    |> showEmpty d

/-! Package states. -/

/-- The package in a G state, its change over (R632). -/
def enterG (n : Nat) (s : State) : State :=
  s |> put R.BOOT_STAT.GSTATE n |> put R.BOOT_GSTATE.BUSY 0 |> setBoot { s.boot with change := 0, selfRef := 0 } |> record 0x0108 n

/-- Die d's clocks asked to gate, or released (R632). -/
def gateClock (on : Bool) (d : Nat) (s : State) : State :=
  s |> setPins { s.pins with gateReq := putBit s.pins.gateReq d on } |> emit (.clockGate d on)

/-- A rail sheds to SHED_MIN at once (R632). -/
def shedAtOnce (r : Nat) (s : State) : State :=
  each (shedOrder r) (fun n s =>
    if phState s n = psRUN ∧ get s (R.PST_RAIL_CFG.SHED_MIN r) < countPhases s r (· = psRUN) then startShed n s else s) s

/-- The rails of the package. -/
def allRails (s : State) : List Nat := dies s ++ (dies s).map (16 + ·) ++ [32]

/-- A change of G state goes on once issue has fallen (R632, R633): into G1, or the power-down of REQ 3 is due. -/
def settleChange (s : State) : State :=
  if s.boot.change = 2 ∧ (dies s).all (fun d => (tokOf s d).grant = 0) then
    s |> enterG 1 |> each (dies s) (gateClock true) |> each (allRails s) shedAtOnce
  else if s.boot.change = 4 ∧ s.boot.downCause = 0 ∧ (dies s).all (fun d => decide ((tokOf s d).total ≤ floorIssue s d)) then
    setBoot { s.boot with downCause := 10 } s
  else s

/-- AGENT_SLOT, R301 to R304, R658: die d's slot ends, with the tokens that its dispatchers asked for and the tile arrays
that were free in each cycle, the operand bytes that its filler drew by tile array, and the cycles in which a cut took hold;
the next one begins. -/
def effAgentSlot (d : Nat) (work : SlotWork) (cuts : List Nat) (s : State) : State :=
  if isPresent s d ∧ s.clk.started then
    let x := slotSum s d cuts work.asks work.free
    s |> (fun s => setEst d { estOf s d with winPs := (estOf s d).winPs + s.clk.slotPs } s) |> feedTiles d work.fed x.filler.out
      |> closeSlot d x |> trackSteps d |> openSlot d |> settleChange
  else s

/-- AGENT_SLOT. -/
def execAgentSlot (die : Nat) (work : SlotWork) (cut : CutPoint) (s : State) : Host.Outcome State Fault Refusal :=
  done (effAgentSlot die work cut.cycles s)

/-- EPISODE_END, R317: n has reached n_g. -/
def effEpisodeEnd (d : Nat) (s : State) : State :=
  let t := tokOf s d
  if isPresent s d ∧ t.episode ∧ t.ng ≤ t.n then
    s |> setTok d { t with episode := false, l0 := 0, n := 0, ng := 0 } |> put (R.FIL_DIE_STAT.EPISODE d) 0
      |> put (R.FIL_DIE_STAT.N d) 0 |> put (R.FIL_DIE_L0.L0 d) 0
  else s

/-- EPISODE_END. -/
def execEpisodeEnd (die : Nat) (s : State) : Host.Outcome State Fault Refusal := done (effEpisodeEnd die s)

/-! Package arbitration. -/

/-- A die's part in an arbitration (R311): its number, floor, ask, KTOK, weight, and the share it holds. -/
structure Bid where
  die : Nat
  floor : Nat
  ask : Nat
  k : Nat
  w : Nat
  share : Nat
deriving DecidableEq, Repr

/-- What a bid needs above its floor. -/
def Bid.need (b : Bid) : Int := b.k * ((b.ask : Int) - b.floor)

/-- One more token for each bid of a list in order that lacks one and that the rest can pay. -/
def topUp (u : List Nat) : Int → List Bid → List Bid
  | _, [] => []
  | r, b :: t =>
    if u.contains b.die ∧ b.share < b.ask ∧ (b.k : Int) ≤ r then { b with share := b.share + 1 } :: topUp u (r - b.k) t
    else b :: topUp u r t

/-- The bids in die order from p upward and wrapping. -/
def rotated (p : Nat) (l : List Bid) : List Bid := l.filter (fun b => p ≤ b.die) ++ l.filter fun b => b.die < p

/-- The weighted loop of R311 over the dies of u, at most 16 times. -/
def shareLoop (p : Nat) : Nat → Int → List Nat → List Bid → List Bid
  | 0, _, _, l => l
  | n + 1, r, u, l =>
    if r ≤ 0 ∨ u = [] then l
    else
      let inU := fun b : Bid => u.contains b.die
      let ws : Nat := (l.filter inU).foldl (fun (a : Nat) (b : Bid) => a + b.w) 0
      let fits := fun b : Bid => inU b && decide (b.need * ws ≤ r * b.w)
      let fit := l.filter fits
      if fit.isEmpty then
        let l := l.map fun b => if inU b then { b with share := b.floor + (divZ (r * b.w) (ws * b.k)).toNat } else b
        let r := (l.filter inU).foldl (fun (a : Int) b => a - b.k * ((b.share : Int) - b.floor)) r
        topUp u r (rotated p l)
      else
        let l := l.map fun b => if fits b then { b with share := b.ask } else b
        shareLoop p n (fit.foldl (fun a b => a - b.need) r) (u.filter fun d => !(fit.any fun b => b.die = d)) l

/-- The shares of R311 from a pool in 1/256 A, and whether every die is left at its floor (R312). -/
def shares (s : State) (pool : Int) (l : List Bid) : List Bid × Bool :=
  let r := l.foldl (fun (a : Int) b => a - ((itnOf s b.die).ibase * 256 + (b.k * b.floor : Nat))) (pool * 256)
  let need := l.foldl (fun (a : Int) b => a + b.need) 0
  if need ≤ r then (l.map fun b => { b with share := b.ask }, decide (r ≤ 0))
  else (shareLoop (get s R.TOK_RR.PTR) 16 r ((l.filter fun b => b.floor < b.ask).map (·.die)) l, decide (r ≤ 0))

/-- The bid of die d: in LINK_LOST its last delivered share, not below F, is floor and ask (R313). -/
def bidOf (s : State) (d : Nat) : Bid :=
  let f := floorIssue s d
  let w := get s (R.TOK_ARB.WEIGHT d)
  if (linkOf s d).lost then
    let v := max f (min (maxIssue s d) (tokOf s d).share)
    ⟨d, v, v, ktok s d, w, v⟩
  else
    let a := askOf s d (ceiling s d (phaseTag s d (itnOf s d).core ((tokOf s d).slot + 1))) (riseEff s d)
    ⟨d, f, a, ktok s d, w, f⟩

/-- A share of die d formed and sent (R309, R312). -/
def giveShare (code : Nat) (b : Bid) (s : State) : State :=
  let t := tokOf s b.die
  let low := decide (b.share < b.ask)
  s |> setTok b.die { t with ask := b.ask, shareSent := b.share, pool := (code, t.pool.2) }
    |> when low (fun s => s |> addSat (R.TOK_DIE_CNT.SCALED b.die) 1 |> event R.TOK_EVENT 0)
    |> sendDown tyGRANT b.die [0, b.share] (.share b.die b.share)

/-- The excess bucket and the limit state of die d in a slot (R339 to R341). -/
def bucketSlot (d : Nat) (s : State) : State :=
  let c := capOf s d
  let p := get s (R.CAP_DIE_EDC.PEAK d)
  let k := get s (R.CAP_DIE_EDC.CONT d)
  let cap := (p - k) * get s (R.CAP_DIE_EDC2.PEAK_US d) * 256 * 1000000
  let i := max (getI s (R.EST_OUT.I d 0)) (irail s d)
  let e := min cap (max 0 ((c.bucket : Int) + (i - k * 256) * s.clk.slotPs)).toNat
  let cont := isOn s (R.CAP_DIE_EDC2.STATE d)
  let enter := decide ((cap - e) * 2 * get s (R.TOK_SLEW.FALL d) * get s (R.ITN_KTOK.KTOK d)
    ≤ (p - k) * (p - k) * 100000 * 65536 * 256)
  let next := if cont then decide (cap < 2 * e) else enter
  s |> setCap d { c with bucket := e } |> put (R.CAP_DIE_BKT.E d) (min (2 ^ 32 - 1) ((e + 128000000) / 256000000))
    |> putB (R.CAP_DIE_EDC2.STATE d) next
    |> fun s => putI (R.CAP_DIE_LEDC.I d) (edcLimit s d) s

/-- The reason code of what sets the pool (R374): PKG, or AVG, RING or HOST through P_lim. -/
def poolReason (s : State) : Nat :=
  if s.capp.poolPkg ≤ s.capp.poolPow then 1 else if s.capp.setter = 0 then 3 else if s.capp.setter = 1 then 4 else 5

/-- The slot after one of p ps in which ROOT moves by at most 50 MHz per µs (R77): the shortest and the longest. -/
def slotRange (p : Nat) : Nat × Nat :=
  let k := 480 * 10 ^ 12
  let d := 50 * p ^ 2
  (cdiv (k * p) (k + d), k * p / (k - d))

/-- The length of a slot in ps as its mark brings it: in RELOCK no longer than the last one and no shorter than the
rate of R77 and the LOCKED slot allow; after a failed RELOCK no shorter and no longer, until the coast band is
reached (R79); fixed in every other state. -/
def nextSlot (c : ClockH) (relock : Bool) (ps : Nat) : ClockH :=
  let (lo, hi) := slotRange c.slotPs
  if relock then { c with slotPs := clampN (max lo 100000) (max 100000 c.slotPs) ps }
  else if c.settling then
    let n := clampN (min c.slotPs 200000) (min hi 200000) ps
    { c with slotPs := n, settling := n ≠ 200000 }
  else c

/-- PACKAGE_ARBITRATION, R309 to R313: where ROOT moves, the slot's length comes with its mark, which the core sends with it
(R77, R79). -/
def effPackageArbitration (slotPs : Nat) (s : State) : State :=
  if !s.clk.started then s
  else
    let s := { s with clk := nextSlot s.clk (clkState s = 4) slotPs }
    let s := when (clkState s = 4) (emit (.slotMark slotCycles s.clk.slotPs)) s
    let s := each (dies s) bucketSlot s
    let s := { s with capp := { s.capp with poolPkg := poolPkg s } }
    let pool := min s.capp.poolPkg s.capp.poolPow
    let r := shares s pool ((dies s).map (bidOf s))
    s |> putI R.CAP_POOL.I (satI pool 32)
      |> each r.1 (giveShare (poolReason s))
      |> when (r.1.any fun b => b.share < b.ask) (addSat R.TOK_ARB_CNT.SCALED 1)
      |> when r.2 (fun s => s |> event R.TOK_EVENT 1 |> addSat R.TOK_ARB_CNT2.FLOOR_ONLY 1)
      |> addWrap R.TOK_RR.PTR 1

/-- PACKAGE_ARBITRATION. -/
def execPackageArbitration (slotPs : Nat) (s : State) : Host.Outcome State Fault Refusal := done (effPackageArbitration slotPs s)

/-! Frames. -/

/-- A slew or floor of a frame in LOCKED units (R74, R77). -/
def lockedOf (s : State) (v : Nat) : Nat := if clkState s = 3 then cdiv v 2 else v

/-- BUDGET_FRAME, R307: kind 0 a share for slot b, too late for any other than the next, 1 a budget, 2 the slews (a
rise, b fall), 3 the floor. -/
def takeBudget (d kind a b : Nat) (s : State) : State :=
  let t := tokOf s d
  match kind with
  | 0 => if b = t.slot + 1 then setTok d { t with shareNext := some (min 4095 a) } s else s
  | 1 => setTok d { t with budgetNext := some (min 4095 a, s.clk.slotPs) } s
  | 2 => setTok d { t with slewNext := some (lockedOf s (min 4095 a), lockedOf s (min 4095 b)) } s
  | 3 => setTok d { t with floorNext := some (lockedOf s (min 4095 a)) } s
  | _ => s

/-- BUDGET_FRAME. -/
def execBudgetFrame (die : Nat) (frame : Frame) (kind a b : Nat) (s : State) : Host.Outcome State Fault Refusal :=
  done (acceptFrame false tyGRANT die frame (takeBudget die kind a b) s)

/-- THRESHOLD_FRAME, R284. -/
def execThresholdFrame (die : Nat) (frame : Frame) (threshold : Nat) (s : State) : Host.Outcome State Fault Refusal :=
  done (acceptFrame false tyORDER die frame (fun s => setItn die { itnOf s die with threshold := threshold } s) s)

/-- The units of 1/5,242,880,000 µJ below 1 µJ. -/
def fillerUnit : Nat := 5242880000

/-- Filler energy of die d (R327, R328), with the package's exact sum (log 23). -/
def chargeFiller (d filler : Nat) (s : State) : State :=
  let t := tokOf s d
  let u := vmeas s d * get s (R.ITN_KTOK.KTOK d) * filler
  let before := get s R.FIL_SYS_E.ENERGY
  let s := s |> setTok d { t with filAcc := (t.filAcc + u) % fillerUnit, filCyc := t.filCyc + u }
    |> addWrap (R.FIL_DIE_E.ENERGY d) ((t.filAcc + u) / fillerUnit)
  let whole := (List.range 16).foldl (fun a x => a + get s (R.FIL_DIE_E.ENERGY x)) 0
  let frac := (List.range 16).foldl (fun a x => a + (tokOf s x).filAcc) 0
  let after := whole + frac / fillerUnit
  s |> put R.FIL_SYS_E.ENERGY after |> addWrap R.CAP_E_SYS.ENERGY (after - before)

/-- The report of the slot that ended last counted in its window (R271, R342): that of the last latch, where the slot
began before it, else the running one. -/
def countReport (t : TokD) (real filler : Nat) : TokD :=
  if t.winLast.any fun l => decide (t.slot ≤ l + 1) then
    { t with win := (t.win.1 + real, t.win.2 + 1), tot := (t.tot.1 + real + filler, t.tot.2 + 1) }
  else { t with usedSum := t.usedSum + real, totalSum := t.totalSum + real + filler, reports := t.reports + 1 }

/-- TOKENS_USED_FRAME, R310, R313, R320, R327. -/
def takeTokens (d real filler : Nat) (late : Bool) (s : State) : State :=
  let t := tokOf s d
  let f := floorIssue s d
  let g := get s (R.TOK_DIE_STAT.GRANT d)
  let last := if g = 0 then f else max f (min g (real + filler))
  s |> setTok d { countReport t real filler with repLast := last, repSlot := t.slot - 1 }
    |> chargeFiller d filler |> when late (event R.TOK_EVENT 2)

/-- TOKENS_USED_FRAME. -/
def execTokensUsedFrame (die : Nat) (frame : Frame) (real filler : Nat) (late : Bool) (s : State) : Host.Outcome State Fault Refusal :=
  done (acceptFrame true tyTOKENS die frame (takeTokens die (real % 4096) (filler % 4096) late) s)

/-! Warm-up. -/

/-- WARM_TIMEOUT, R325: HEATING has lasted TIMEOUT_S. -/
def effWarmTimeout (s : State) : State :=
  if get s R.FIL_WARM_STAT.STATE = 1 ∧ !isOn s R.FIL_WARM_STAT.TIMEOUT
      ∧ get s R.FIL_WARM.TIMEOUT_S * 1000000 ≤ s.us - s.therm.warmUs then
    s |> event R.FIL_EVENT 3 |> put R.FIL_WARM_STAT.TIMEOUT 1 |> faultOn 4 |> record 0x0508 (get s R.FIL_WARM_STAT.ELAPSED_S)
  else s

/-- WARM_TIMEOUT. -/
def execWarmTimeout (s : State) : Host.Outcome State Fault Refusal := done (effWarmTimeout s)

/-- WARMUP_END, 0x0504 (R329). -/
def execWarmupEnd (port tag : Nat) (s : State) : Host.Outcome State Fault Refusal :=
  done (command 0x0504 port tag s (fun _ => [(get s R.FIL_WARM_STAT.STATE ≠ 1, sWRONG_STATE)])
    (fun fl s =>
      { s with boot := { s.boot with warmed := true } } |> put R.FIL_WARM_STAT.STATE 3 |> event R.FIL_EVENT 2 |> record 0x0507 1
        |> complete fl sOK 0 0))

end Sys2Proof.Machine
end

