-- ==== Sys2Proof/Machine/Caps.lean ====
section
/-! DEFINITION. Sys2Proof/Machine/Caps.lean: brownout, the cooling average and the other work of the 1 ms tick,
operating points, deferral during collectives, the cap commands, and L_RING (R346, R353 to R385, R443). -/

namespace Sys2Proof.Machine

/-- The package's cap state changed. -/
def setCapp (v : CapP) (s : State) : State := { s with capp := v }

/-! Brownout. -/

/-- BROWN_ENTER, R353, R357: two samples in a row below WARN; with both at or below RESET the dip passes it over. -/
def effBrownEnter (s : State) : State :=
  if get s R.CAP_BROWN_STAT.STATE = 0 ∧ 2 ≤ s.capp.below ∧ s.capp.reset < 2 then
    s |> put R.CAP_BROWN_STAT.STATE 1 |> setCapp { s.capp with ride := get s R.CAP_BROWN2.RIDE_US }
      |> event R.CAP_EVENT 0 |> addSat R.CAP_BROWN_STAT.COUNT 1 |> record 0x0601 (get s R.PST_VIN.VIN) |> countHealth 3 1
      |> notifyAll 8 (fun _ => true)
  else s

/-- BROWN_ENTER. -/
def execBrownEnter (s : State) : Host.Outcome State Fault Refusal := done (effBrownEnter s)

/-- BROWN_EXIT, R355, R356: two samples in a row at or above WARN + HYST. -/
def effBrownExit (s : State) : State :=
  if get s R.CAP_BROWN_STAT.STATE ≠ 0 ∧ 2 ≤ s.capp.above then
    s |> put R.CAP_BROWN_STAT.STATE 0 |> setCapp { s.capp with ride := 0 } |> event R.CAP_EVENT 1
      |> record 0x0602 (get s R.PST_VIN.VIN) |> faultOff 5
  else s

/-- BROWN_EXIT. -/
def execBrownExit (s : State) : Host.Outcome State Fault Refusal := done (effBrownExit s)

/-- BROWN_EXPIRED, R356: the ride-through timer ends. -/
def effBrownExpired (s : State) : State :=
  if get s R.CAP_BROWN_STAT.STATE = 1 ∧ s.capp.ride = 0 then
    s |> put R.CAP_BROWN_STAT.STATE 2 |> setCapp { s.capp with ride := 0 } |> event R.CAP_EVENT 2 |> faultOn 5 |> record 0x0603 0
  else s

/-- BROWN_EXPIRED. -/
def execBrownExpired (s : State) : Host.Outcome State Fault Refusal := done (effBrownExpired s)

/-- BROWN_RESET, R357, R651: two samples in a row at or below RESET in stages VIN to READY: a power-down with cause
BROWN is due. -/
def effBrownReset (s : State) : State :=
  if 2 ≤ s.capp.reset ∧ 5 ≤ stage s ∧ stage s ≤ stREADY ∧ s.boot.downCause ≠ 8 then
    { s with boot := { s.boot with downCause := if s.boot.downCause = 0 then 8 else s.boot.downCause } }
      |> event R.CAP_EVENT 3 |> record 0x0604 (get s R.PST_VIN.VIN)
  else s

/-- BROWN_RESET. -/
def execBrownReset (s : State) : Host.Outcome State Fault Refusal := done (effBrownReset s)

/-! Operating points. -/

/-- A cap state's step of change. -/
def setChange (d c : Nat) (s : State) : State := setCap d { capOf s d with change := c } s

/-- The frequency of the OP being moved to, sent to the die clock generator (R360); over a lost link with its return. -/
def sendFrequency (d c : Nat) (s : State) : State :=
  s |> setChange d c |> sendMsg false d (frequencyMsg s d)

/-- A change that has not begun begins, unless the loop is in HOLD (R360, R361). -/
def beginChange (d : Nat) (s : State) : State :=
  let c := (capOf s d).change
  if loopState s d = lpHOLD then s
  else if c = 4 then
    s |> put (R.LPE_REF.TARGET d) (get s (R.CAP_OPT.V (16 * d + get s (R.CAP_DIE_OP.TGT d)))) |> setChange d 1
  else if c = 5 then sendFrequency d 3 s
  else s

/-- A change of die d to an OP is started, up or down (R360). -/
def startChange (d op : Nat) (up : Bool) (s : State) : State :=
  s |> put (R.CAP_DIE_OP.TGT d) op |> put (R.CAP_DIE_OP.CHG d) 1 |> setChange d (if up then 4 else 5) |> beginChange d

/-- OP_FREQUENCY_SEND, R360: the reference has reached the raised target, in TRACK. -/
def effOpFrequencySend (d : Nat) (s : State) : State :=
  if isPresent s d ∧ (capOf s d).change = 1 ∧ loopState s d = lpTRACK ∧ (railOf s d).ref256 = railTarget s d * 256 then
    sendFrequency d 2 s
  else s

/-- OP_FREQUENCY_SEND. -/
def execOpFrequencySend (die : Nat) (s : State) : Host.Outcome State Fault Refusal := done (effOpFrequencySend die s)

/-- ilim of R364 in 1/256 A. -/
def currentLimit (s : State) (d : Nat) : Int :=
  let edc : Int := derated s d (get s (R.CAP_DIE_EDC.CONT d))
  let a := if isOn s (R.THM_DIE_STAT.LOOP d) then min edc (sget 0 d s.therm.lth) else edc
  if dieCap s d = 0xFFFFFFFF then a else min a (capCurrent s d)

/-- Voltage and frequency of an entry. -/
def opV (s : State) (d op : Nat) : Nat := get s (R.CAP_OPT.V (16 * d + op))
def opF (s : State) (d op : Nat) : Nat := get s (R.CAP_OPT.F (16 * d + op))

/-- The OP that a decision of die d names in BOOST (R364). -/
def boostOp (s : State) (d top : Nat) : Nat :=
  let c := capOf s d
  let op := get s (R.CAP_DIE_OP.CUR d)
  let lim := c.lim * 100
  if decide (get s R.CAP_OP_CFG.DOWN_PCT * c.limOf ≤ lim) && c.limOf ≠ 0 && decide (get s (R.CAP_DIE_OP.MIN d) < op) then op - 1
  else if op < top ∧ lim ≤ get s R.CAP_OP_CFG.UP_PCT * c.limOf ∧
      c.ipkMs * (opF s d (op + 1) * opV s d (op + 1) * 256 : Nat) ≤ currentLimit s d * (opF s d op * opV s d op * get s R.CAP_OP_CFG.HEADROOM : Nat) then
    op + 1
  else op

/-- The OP that a decision of die d names in FIXED_POWER (R366). -/
def powerOp (s : State) (d top : Nat) : Nat :=
  let pm := (capOf s d).pm
  let tgt := dieCap s d
  let band := get s R.CAP_OP_CFG.BAND_PM
  let op := get s (R.CAP_DIE_OP.CUR d)
  let v := opV s d op
  let w := opV s d (op + 1)
  if tgt * (1000 + band) < pm * 1000 ∧ get s (R.CAP_DIE_OP.MIN d) < op then op - 1
  else if op < top ∧ pm * opF s d (op + 1) * w * w * 1000 < tgt * (1000 - band) * opF s d op * v * v then op + 1
  else op

/-- One decision of die d (R361 to R366): one entry at most, within MIN to MAX but in FIXED_FREQ. While a change
runs it waits; in HOLD, in a reset of the die, and in COLLECTIVE none is taken (R368). -/
def decideOp (d : Nat) (s : State) : State :=
  let mode := get s R.CAP_MODE.MODE
  let op := get s (R.CAP_DIE_OP.CUR d)
  let lo := get s (R.CAP_DIE_OP.MIN d)
  let top := max lo (topOp s d)
  if (capOf s d).change ≠ 0 then setCap d { capOf s d with owed := true } s
  else if loopState s d = lpHOLD ∨ dieInReset s d ∨ (mode ≠ 1 ∧ isOn s (R.ITN_DIE_STAT.COLLECTIVE d)) then s
  else
    let new :=
      if mode = 1 then
        let fix := min (get s R.CAP_MODE.OP_FIX) (get s (R.CAP_DIE_OP.N_OP d) - 1)
        if op < fix then op + 1 else if fix < op then op - 1 else op
      else if top < op then op - 1
      else if op < lo then op + 1
      else if mode = 2 then powerOp s d top
      else boostOp s d top
    let refused := decide (op < top ∧ new = op)
    s |> setCap d { capOf s d with capped := mode ≠ 1 && (decide (new < op) || refused) }
      |> when (new ≠ op) (startChange d new (decide (op < new)))
      |> showReasons d

/-- A decision of die d that waited for a change is taken (R361). -/
def takeOwed (d : Nat) (s : State) : State :=
  when (capOf s d).owed (fun s => s |> setCap d { capOf s d with owed := false } |> decideOp d) s

/-- OP_CHANGE, R360: the agent reports the generator at the frequency; a lower OP then lowers the target. In HOLD
the change stays at its step (R184, R361). A decision that waited is taken then (R361; log 52). -/
def effOpChange (d : Nat) (s : State) : State :=
  let c := (capOf s d).change
  if (c = 2 ∨ c = 3) ∧ loopState s d ≠ lpHOLD then
    let op := get s (R.CAP_DIE_OP.TGT d)
    s |> when (c = 3) (put (R.LPE_REF.TARGET d) (get s (R.CAP_OPT.V (16 * d + op))))
      |> setChange d 0 |> put (R.CAP_DIE_OP.CUR d) op |> put (R.CAP_DIE_OP.CHG d) 0 |> event R.CAP_EVENT 7 |> showReasons d
      |> takeOwed d
  else s

/-- OP_CHANGE. -/
def execOpChange (report : Arrival) (s : State) : Host.Outcome State Fault Refusal :=
  done (acceptFrame true tyBULK report.die report.frame (effOpChange report.die) s)

/-! The tick of 1 ms. -/

/-- The energy that die d added to its partition in the interval, divided among its queue groups (R378). -/
def divideEnergy (d : Nat) (s : State) : State :=
  let e := (capOf s d).energyMs
  let groups := (List.range 16).map (16 * d + ·)
  let n (g : Nat) : Nat := sget 0 g s.recov.ran
  let tot := groups.foldl (fun a g => a + n g) 0
  let s := setCap d { capOf s d with energyMs := 0 } s
  if tot = 0 then s
  else
    let given := groups.foldl (fun a g => a + e * n g / tot) 0
    let most := groups.foldl (fun a g => if n a < n g then g else a) (16 * d)
    s |> each groups (fun g => addWrap (R.CAP_E_QG.ENERGY g) (e * sget 0 g s.recov.ran / tot))
      |> addWrap (R.CAP_E_QG.ENERGY most) (e - given)

/-- The decision of die d at the tick (R361, R364): what the last 1 ms gave for it, then a change that HOLD stopped, or a
decision. -/
def tickOp (d : Nat) (s : State) : State :=
  let t := tokOf s d
  let c := capOf s d
  s |> setCap d { c with ipkMs := c.ipk, ipk := 0, lim := t.limSlots, limOf := t.slots, owed := false } |> beginChange d |> decideOp d

/-- The 1 ms means of P_pkg and of every P_die, to the nearest mW (R12, R337); without an estimator cycle in the interval they stay. -/
def formMeans (s : State) : State :=
  let n := s.capp.cycles
  if n = 0 then s
  else
    s |> each (dies s) (fun d s => setCap d { capOf s d with pm := roundDiv (capOf s d).pSum n, pSum := 0 } s)
      |> (fun s => setCapp { s.capp with pm := roundDiv s.capp.pSum n, pSum := 0, cycles := 0 } s)

/-- P_avg and A_avg (R346). -/
def formAverage (s : State) : State :=
  let k : Int := (1000 * get s R.CAP_AVG_CFG.TAU_S : Nat)
  let p := s.capp.pavg + divZ (s.capp.pm * 2 ^ 24 - s.capp.pavg) k
  let a := divZ (p + ((get s R.CAP_AVG_LIM.LIM : Int) * 2 ^ 24 - p) * k) (2 ^ 24)
  s |> setCapp { s.capp with pavg := p, aAvg := max a ((get s R.CAP_FUSE.PKG_FLOOR : Int) * 1000) }
    |> put R.CAP_PKG_PAVG.P (powerCode (roundDiv p (2 ^ 24)))

/-- The dies of a cap's scope: 0 the package, 1 a die. -/
def scopeDies (s : State) (scope d : Nat) : List Nat := if scope = 1 then [d] else dies s

/-- The capped power's 1 ms mean, and the cap in force (R372). -/
def cappedMean (s : State) (scope d : Nat) : Int := if scope = 1 then (capOf s d).pm else s.capp.pm
def capValue (s : State) (scope d : Nat) : Nat := if scope = 1 then get s (R.CAP_DIE_CAP.CAP d) else get s R.CAP_PKG_CAP.CAP

/-- The second rule of R372 for the interval that ends: above a cap with every die at F and its lowest OP. -/
def unmetRule (s : State) (scope d cap : Nat) : Bool :=
  decide ((cap : Int) < cappedMean s scope d) && (scopeDies s scope d).all fun x => (tokOf s x).allFloor && (tokOf s x).slots ≠ 0

/-- CAP_UNREACHABLE of one cap judged (R373): bit d for the die cap in force (R348), bit 16 for the package cap. -/
def judgeCap (scope d : Nat) (s : State) : State :=
  let b := if scope = 1 then d else 16
  let cap := if scope = 1 then dieCap s d else get s R.CAP_PKG_CAP.CAP
  if cappedMean s scope d ≤ cap then setCapp { s.capp with unreach := clrBit s.capp.unreach b } s
  else if bit s.capp.unreach b ∨ !unmetRule s scope d cap then s
  else
    s |> setCapp { s.capp with unreach := setBit s.capp.unreach b } |> event R.CAP_EVENT 4
      |> (if scope = 1 then recordDie 0x0605 d 1 else record 0x0605 0)

/-- A watched cap judged (R372): an interval that began before the change is not. -/
def judgeWatch (s : State) (w : CapWatch) : CapWatch :=
  let cap := capValue s w.scope w.die
  let mean := cappedMean s w.scope w.die
  if !w.whole then { w with whole := true }
  else if w.verdict.isSome then w
  else if mean ≤ cap then { w with intervals := w.intervals + 1, verdict := some (sOK, powerCode mean) }
  else if unmetRule s w.scope w.die cap ∨ 64 ≤ w.intervals + 1 then
    { w with intervals := w.intervals + 1, verdict := some (sUNMET, powerCode mean) }
  else { w with intervals := w.intervals + 1 }

/-- AVERAGE_UPDATE, R337, R346, R364 to R366, R372, R373, R378: the whole work of the 1 ms tick (log 24). -/
def effAverageUpdate (s : State) : State :=
  if !s.clk.started then s
  else
    let s := s |> formMeans |> formAverage
    let s := setCapp { s.capp with watches := s.capp.watches.map (judgeWatch s) } s
    s |> judgeCap 0 0 |> each (dies s) (judgeCap 1) |> each (dies s) tickOp |> each (dies s) divideEnergy
      |> (fun s => { s with recov := { s.recov with ran := [] } })
      |> each (dies s) (fun d s => s |> setTok d { tokOf s d with slots := 0, limSlots := 0, allFloor := true } |> showReasons d)

/-- AVERAGE_UPDATE. -/
def execAverageUpdate (s : State) : Host.Outcome State Fault Refusal := done (effAverageUpdate s)

/-- CAP_SET_DONE, R372: the commands whose condition the last tick met complete. -/
def execCapSetDone (s : State) : Host.Outcome State Fault Refusal :=
  done (s |> each s.capp.watches (fun w s => match w.verdict with
      | some (st, mean) => completeAt w.port w.tag st mean w.time s
      | none => s)
    |> fun t => setCapp { t.capp with watches := t.capp.watches.filter fun w => w.verdict.isNone } t)

/-! Changes and their deferral. -/

/-- A CAP_SET takes effect (R348, R372): the cap, then its watch or its completion. A watch of the same cap ends
ABORTED (log 25). -/
def applyCap (scope d v port tag : Nat) (s : State) : State :=
  let same (w : CapWatch) : Bool := w.scope = scope && (scope ≠ 1 || w.die = d)
  let time := now s % 2 ^ 32
  let s := s |> each (s.capp.watches.filter same) (fun w => completeAt w.port w.tag sABORTED 0 0)
  let s := setCapp { s.capp with watches := s.capp.watches.filter fun w => !same w } s
  if v = 0xFFFFFFFF then completeAt port tag sOK (powerCode (cappedMean s scope d)) time s
  else setCapp { s.capp with watches := s.capp.watches ++ [⟨scope, d, time, 0, false, port, tag, none⟩] } s

/-- A table installed in die d, which moves to the highest new OP at or below its frequency (R380). -/
def installTable (w : List Nat) (n d : Nat) (s : State) : State :=
  let f := opF s d (get s (R.CAP_DIE_OP.CUR d))
  let s := each (List.range 16) (fun j s => s |> put (R.CAP_OPT.V (16 * d + j)) (bits (nth w (j + 1)) 0 16)
    |> put (R.CAP_OPT.F (16 * d + j)) (bits (nth w (j + 1)) 16 16)) s
  let s := s |> put (R.CAP_DIE_OP.N_OP d) n |> put (R.CAP_DIE_OP.MIN d) (min (get s (R.CAP_DIE_OP.MIN d)) (n - 1))
    |> put (R.CAP_DIE_OP.MAX d) (min (get s (R.CAP_DIE_OP.MAX d)) (n - 1))
  let op := ((List.range n).filter fun j => opF s d j ≤ f).getLastD 0
  startChange d op (decide (get s (R.LPE_REF.TARGET d) < opV s d op)) s

/-- The effect of a change by its opcode, at the instant it takes effect; opcode 0 is an assignment as L_RING
(R443, R444). MIN and MAX keep within the table that is then installed (R362). -/
def applyChange (c : Deferred) (s : State) : State :=
  let p := c.params
  let w := nth p 0
  let finishOK (s : State) : State := completeAt c.port c.tag sOK 0 0 (bumpGen s)
  match c.opcode with
  | 0 => s |> put R.CAP_RING.BUDGET (nth p 1 * 1000) |> put R.RNG_BUDGET.INFORCE (nth p 1) |> put R.RNG_BUDGET.PENDING 0xFFFF
      |> setRing { s.ring with applied := nth p 0 }
  | 0x0601 =>
    let d := bits w 0 6
    let v := nth p 1
    let s := bumpGen s
    if bits w 6 2 = 0 then s |> put R.CAP_PKG_CAP.CAP v |> applyCap 0 0 v c.port c.tag
    else if bits w 6 2 = 1 then s |> put (R.CAP_DIE_CAP.CAP d) v |> applyCap 1 d v c.port c.tag
    else s |> put R.CAP_AVG_LIM.LIM v |> completeAt c.port c.tag sOK (powerCode (cappedMean s 0 0)) (now s % 2 ^ 32)
  | 0x0602 => s |> each (bitList 16 (bits w 0 16)) (installTable p (bits w 16 4 + 1)) |> finishOK
  | 0x0603 => s |> each (bitList 16 (bits w 0 16)) (fun d s => s |> put (R.CAP_DIE_OP.MIN d) (min (bits w 16 4) (get s (R.CAP_DIE_OP.N_OP d) - 1))
      |> put (R.CAP_DIE_OP.MAX d) (min (bits w 20 4) (get s (R.CAP_DIE_OP.N_OP d) - 1))) |> finishOK
  | 0x0604 => s |> put R.CAP_MODE.MODE (bits w 0 2) |> put R.CAP_MODE.OP_FIX (bits w 2 4) |> finishOK
  | 0x0605 => s |> put (R.CAP_HINT.OP (bits w 0 3)) (bits w 3 4) |> put (R.CAP_HINT.CEIL (bits w 0 3)) (bits w 7 12) |> finishOK
  | 0x0606 => s |> put R.CAP_CLASS.ORDER (bits w 0 6) |> put R.CAP_CLASS_FLOOR.COMP (bits (nth p 1) 0 10)
      |> put R.CAP_CLASS_FLOOR.MEM (bits (nth p 1) 10 10) |> put R.CAP_CLASS_FLOOR.LINK (bits (nth p 1) 20 10) |> finishOK
  | _ => s |> each (bitList 16 (bits w 0 16)) (fun d => put (R.CAP_DIE_FP.TARGET d) (nth p 1)) |> finishOK

/-- Whether a die of a mask is in COLLECTIVE. -/
def collective (s : State) (m : Nat) : Bool := (dies s).any fun d => bit m d && isOn s (R.ITN_DIE_STAT.COLLECTIVE d)

/-- A change accepted (R368, R371): an earlier one to the same setting that waits is replaced and its command
ends ABORTED; the change waits while a die of its scope is in COLLECTIVE. -/
def acceptChange (c : Deferred) (s : State) : State :=
  let old := s.capp.deferred.find? fun x => x.key = c.key
  let at_ := (old.map (·.at_)).getD c.at_
  let s := match old with
    | some x => when (x.opcode ≠ 0) (completeAt x.port x.tag sABORTED 0 0) s
    | none => s
  let s := setCapp { s.capp with deferred := s.capp.deferred.filter fun x => x.key ≠ c.key } s
  let s := when (c.opcode ≠ 0) (markStarted c.port c.tag) s
  if collective s c.scope then
    s |> setCapp { s.capp with deferred := s.capp.deferred ++ [{ c with at_ := at_ }] }
      |> when (c.opcode = 0) (put R.RNG_BUDGET.PENDING (nth c.params 1))
  else applyChange c s

/-- The waiting changes that a test admits take effect in the order of their acceptance. -/
def releaseChanges (t : Deferred → Bool) (s : State) : State :=
  let l := s.capp.deferred.filter t
  each l applyChange (setCapp { s.capp with deferred := s.capp.deferred.filter fun c => !t c } s)

/-- DEFERRED_APPLY, R369: no die of the scope is in COLLECTIVE, or one has reached a step boundary since. -/
def execDeferredApply (s : State) : Host.Outcome State Fault Refusal :=
  done (releaseChanges (fun c => !collective s c.scope || c.stepped) s)

/-- DEFER_MAX, R369: the change accepted first has waited MAX_MS. -/
def effDeferMax (s : State) : State :=
  match s.capp.deferred with
  | [] => s
  | x :: l =>
    let first := l.foldl (fun a c => min a c.at_) x.at_
    if first + get s R.CAP_DEFER.MAX_MS * 1000 ≤ s.us then s |> event R.CAP_EVENT 5 |> releaseChanges (fun c => c.at_ = first)
    else s

/-- DEFER_MAX. -/
def execDeferMax (s : State) : Host.Outcome State Fault Refusal := done (effDeferMax s)

/-- L_RING_APPLY, R443: the entry taken in the last superframe, at the member's tick. -/
def effLRingApply (s : State) : State :=
  match s.ring.taken with
  | some (round, w) =>
    if s.ring.due ∧ ringState s = rnMEMBER then
      s |> setRing { s.ring with taken := none, due := false }
        |> acceptChange ⟨0, 2 ^ nDies s - 1, s.us, false, 0, [round, w], 0, 0⟩
    else s
  | none => s

/-- L_RING_APPLY. -/
def execLRingApply (s : State) : Host.Outcome State Fault Refusal := done (effLRingApply s)

/-! The commands. -/

/-- A die mask that is 0 or names an absent die. -/
def badDies (s : State) (m : Nat) : Bool := m = 0 || m ≠ m % 2 ^ nDies s

/-- A change built from a command: what tells one setting from another, and the dies in its scope. -/
def changeOf (s : State) (fl : Flight) (sub scope : Nat) : Deferred :=
  ⟨fl.opcode * 2 ^ 16 + sub, scope, s.us, false, fl.opcode, fl.params, fl.port, fl.tag⟩

/-- Every present die. -/
def allDies (s : State) : Nat := 2 ^ nDies s - 1

/-- CAP_SET, 0x0601 (R379, R349). It has no die mask, so that its scope is every present die; a change of scope 2 is
never deferred (R368). -/
def execCapSet (port tag : Nat) (s : State) : Host.Outcome State Fault Refusal :=
  done (command 0x0601 port tag s
    (fun fl =>
      let d := bits (par fl 0) 0 6
      let sc := bits (par fl 0) 6 2
      let v := par fl 1
      [(bits (par fl 0) 8 24 ≠ 0, sRESERVED),
       (sc = 3 || (sc = 1 && decide (d < 16) && !isPresent s d) || (sc = 2 && v = 0xFFFFFFFF), sBAD_PARAM),
       ((sc = 1 && decide (15 < d)) || (sc = 1 && decide (v < get s R.CAP_FUSE.DIE_FLOOR * 1000))
          || (sc ≠ 1 && decide (v < get s R.CAP_FUSE.PKG_FLOOR * 1000)), sOUT_OF_RANGE)])
    (fun fl s =>
      let d := bits (par fl 0) 0 6
      let sc := bits (par fl 0) 6 2
      let scope := if sc = 2 then 0 else allDies s
      acceptChange (changeOf s fl (if sc = 1 then 2 ^ 8 + d else sc) scope) s))

/-- The entries of an OP_TABLE_SET packet in order. -/
def tableEntries (fl : Flight) (n : Nat) : List (Nat × Nat) :=
  (List.range n).map fun j => (bits (par fl (j + 1)) 0 16, bits (par fl (j + 1)) 16 16)

/-- The order rules of R359. -/
def tableOrdered : List (Nat × Nat) → Bool
  | a :: b :: t => decide (a.1 ≤ b.1 ∧ a.2 < b.2) && tableOrdered (b :: t)
  | _ => true

/-- OP_TABLE_SET, 0x0602 (R359, R380). -/
def execOpTableSet (port tag : Nat) (s : State) : Host.Outcome State Fault Refusal :=
  done (command 0x0602 port tag s
    (fun fl =>
      let m := bits (par fl 0) 0 16
      let n := bits (par fl 0) 16 4 + 1
      let e := tableEntries fl n
      [(bits (par fl 0) 20 12 ≠ 0 || (List.range 16).any (fun j => decide (n ≤ j) && par fl (j + 1) ≠ 0), sRESERVED),
       (badDies s m || fl.params.length ≠ 17 || !tableOrdered e, sBAD_PARAM),
       (e.any (fun x => decide (x.1 < 4800 ∨ 7600 < x.1 ∨ x.1 % 20 ≠ 0 ∨ x.2 < get s R.CAP_FUSE2.FMIN ∨ get s R.CAP_FUSE2.FMAX < x.2)), sOUT_OF_RANGE),
       (decide (get s R.CAP_FUSE.N_FREQ < n), sNO_RESOURCE),
       ((bitList 16 m).any (fun d => loopState s d = lpHOLD), sWRONG_STATE)])
    (fun fl s => acceptChange (changeOf s fl (bits (par fl 0) 0 16) (bits (par fl 0) 0 16)) s))

/-- OP_LIMIT, 0x0603 (R381). -/
def execOpLimit (port tag : Nat) (s : State) : Host.Outcome State Fault Refusal :=
  done (command 0x0603 port tag s
    (fun fl =>
      let m := bits (par fl 0) 0 16
      let mx := bits (par fl 0) 20 4
      [(bits (par fl 0) 24 8 ≠ 0, sRESERVED), (badDies s m || decide (mx < bits (par fl 0) 16 4), sBAD_PARAM),
       ((bitList 16 m).any (fun d => decide (get s (R.CAP_DIE_OP.N_OP d) ≤ mx)), sOUT_OF_RANGE)])
    (fun fl s => acceptChange (changeOf s fl (bits (par fl 0) 0 16) (bits (par fl 0) 0 16)) s))

/-- MODE_SET, 0x0604 (R365, R382). -/
def execModeSet (port tag : Nat) (s : State) : Host.Outcome State Fault Refusal :=
  done (command 0x0604 port tag s
    (fun fl =>
      [(bits (par fl 0) 6 26 ≠ 0, sRESERVED), (bits (par fl 0) 0 2 = 3, sBAD_PARAM),
       ((dies s).any (fun d => decide (get s (R.CAP_DIE_OP.N_OP d) ≤ bits (par fl 0) 2 4)), sOUT_OF_RANGE)])
    (fun fl s => acceptChange (changeOf s fl 0 (allDies s)) s))

/-- HINT_SET, 0x0605 (R383). -/
def execHintSet (port tag : Nat) (s : State) : Host.Outcome State Fault Refusal :=
  done (command 0x0605 port tag s
    (fun fl => [(bits (par fl 0) 19 13 ≠ 0, sRESERVED), (bits (par fl 0) 7 12 = 0, sOUT_OF_RANGE)])
    (fun fl s => acceptChange (changeOf s fl (bits (par fl 0) 0 3) (allDies s)) s))

/-- CLASS_SET, 0x0606 (R352, R384). -/
def execClassSet (port tag : Nat) (s : State) : Host.Outcome State Fault Refusal :=
  done (command 0x0606 port tag s
    (fun fl =>
      let o := par fl 0
      let f := par fl 1
      [(bits o 6 26 ≠ 0 || bits f 30 2 ≠ 0, sRESERVED),
       (sortNat [bits o 0 2, bits o 2 2, bits o 4 2] ≠ [0, 1, 2], sBAD_PARAM),
       (decide (get s R.CAP_FUSE.PKG_FLOOR < bits f 0 10 + bits f 10 10 + bits f 20 10), sOUT_OF_RANGE)])
    (fun fl s => acceptChange (changeOf s fl 0 (allDies s)) s))

/-- FP_TARGET, 0x0607 (R349, R385). -/
def execFpTarget (port tag : Nat) (s : State) : Host.Outcome State Fault Refusal :=
  done (command 0x0607 port tag s
    (fun fl =>
      [(bits (par fl 0) 16 16 ≠ 0, sRESERVED), (badDies s (bits (par fl 0) 0 16), sBAD_PARAM),
       (decide (par fl 1 < get s R.CAP_FUSE.DIE_FLOOR * 1000), sOUT_OF_RANGE)])
    (fun fl s => acceptChange (changeOf s fl (bits (par fl 0) 0 16) (bits (par fl 0) 0 16)) s))

end Sys2Proof.Machine
end

