-- ==== Sys2Proof/Machine/Clock.lean ====
section
/-! DEFINITION. Sys2Proof/Machine/Clock.lean: the clock unit: start-up judgement, lock, loss of reference, COAST
and return (R51 to R91, R688). -/

namespace Sys2Proof.Machine

/-- The clock unit changed. -/
def setClk (v : ClockH) (s : State) : State := { s with clk := v }

/-- Codes of CLK_STATUS.STATE (R56). -/
def ckJUDGE : Nat := 0
def ckLOCKING : Nat := 1
def ckLOCKED : Nat := 2
def ckCOAST : Nat := 3
def ckRELOCK : Nat := 4

/-- A new clock state (R56, R88): an open thermal window spans the change (R396), and the agents are sent
their slews and floors for it (R74, R77). -/
def goClock (c : Nat) (s : State) : State :=
  { s with therm := { s.therm with spoiled := s.therm.spoiled || (s.therm.isOpen && !s.therm.closed) } }
    |> put R.CLK_STATUS.STATE c |> putB R.CLK_STATUS.COAST (c = ckCOAST || c = ckRELOCK)
    |> when (decide (c = ckLOCKED ∨ c = ckCOAST)) resendTokens

/-- A count of which x have passed, the rest halved (R69). -/
def halveRest (x v : Nat) : Nat := min x v + (v - x) / 2

/-- The place of phase n within the switching period in 1/1,600 of it (R93). -/
def position (n : Nat) : Nat :=
  if n < 160 then 160 * (n % 10) + 10 * (n / 10)
  else if n < 192 then 80 + 800 * (n % 2) + 10 * ((n - 160) / 2)
  else 25 + 200 * (n - 192)

/-- The ROOT periods that have passed since the running switching period began: 48 for each count of CLK_TIME
(R51, R85). -/
def rootsRun (s : State) : Nat := 48 * (now s - s.clk.startAt)

/-- The changeover's part of R69: the rest of the running switching period, of every phase's running on-time
counted from its place (R94), and of every pending edge is halved; 400 ROOT periods follow. -/
def halveEdges (s : State) : State :=
  let x := rootsRun s
  each (List.range 200) (fun n s =>
    let p := phaseOf s n
    if p.onTaps = 0 ∧ p.runTaps = 0 then s
    else
      let at_ := position n * (8 * s.clk.period) / 1600
      s |> setPhase n { p with onTaps := p.onTaps / 2, runTaps := halveRest (8 * x - at_) p.runTaps }
        |> emit (.pwm n (p.onTaps / 2))) s
    |> fun s => setClk { s.clk with period := halveRest x s.clk.period, next := 400 } s

/-- COAST entered (R67 to R71, R75, R395): its flags, count and event, the bypass closed, sync ignored. ROOT
changes over at one edge, or, after a RELOCK that failed, goes back at the rate of R77 (R79). A loss during
RELOCK neither counts as a failed RELOCK nor ends the run of R79's three (log 87). -/
def enterCoast (atOnce : Bool) (s : State) : State :=
  let n := min 0xFFFF (get s R.CLK_COAST_CNT.COUNT + 1)
  s |> goClock ckCOAST
    |> setClk { s.clk with run := 0, monFail := 0, lost := false, started := true, bootLate := false, waits := false,
                           slotPs := if atOnce then 200000 else s.clk.slotPs, settling := !atOnce }
    |> put R.CLK_STATUS.SYNC_LOST 1 |> put R.CLK_EVENT.REF_LOST 1 |> put R.CLK_EVENT.COAST_ENTER 1
    |> put R.CLK_COAST_CNT.COUNT n |> put R.PST_SYNC_STAT.LOCK 0 |> put R.THM_COAST_CAL.CT 8192
    |> (fun s => { s with therm := { s.therm with coastWin := false, coastCal := false } })
    |> when atOnce halveEdges |> ringLeave |> record 0x0102 n

/-- LOCKED reached (R61, R78, R85, R115, R435). -/
def enterLocked (s : State) : State :=
  let back := clkState s = ckRELOCK
  s |> goClock ckLOCKED |> put R.CLK_STATUS.REF_OK 1
    |> setClk { s.clk with run := 0, retries := 0, monFail := 0, relockFails := 0, lost := false, started := true, bootLate := false,
                           waits := false, settling := false, slotPs := 100000 }
    |> when back (fun s => s |> put R.CLK_EVENT.COAST_EXIT 1 |> record 0x0103 0
        |> when (!isOn s R.PST_CTRL.SYNC_EN) (put R.CLK_STATUS.SYNC_LOST 0))
    |> ringListen

/-- A start-up that found no lock (R63): COAST where COAST_BOOT is 1, else boot waits in JUDGE. -/
def startFailed (s : State) : State :=
  if isOn s R.CLK_CFG.COAST_BOOT then s |> put R.CLK_STATUS.REF_OK 0 |> enterCoast true
  else setClk { s.clk with waits := true } s

/-- A window of 4,096 RC periods ends in COAST with its count of TCLK edges (R395): one that also began there gives
ct; one follows another, so that the first to end after COAST entry began before it (log 93). -/
def calibrate (edges : Nat) (s : State) : State :=
  if s.therm.coastWin then
    { s with therm := { s.therm with coastCal := true } } |> put R.THM_COAST_CAL.CT (min 0xFFFF edges)
  else { s with therm := { s.therm with coastWin := true } }

/-- JUDGE_WINDOW, R58 to R60, R64, R76, R395: a window's counts of REFCLK edges and of TCLK edges. While boot waits,
LOCKING starts with a fresh count of retries. A failing window ends REF_OK, and a count above 0xFFFF shows as
0xFFFF (log 87). -/
def effJudgeWindow (count tclk : Nat) (s : State) : State :=
  let c := clkState s
  if stage s = 0 ∨ (c ≠ ckJUDGE ∧ c ≠ ckCOAST) then s
  else
    let s := s |> put R.CLK_REF_COUNT.COUNT (min 0xFFFF count) |> when (decide (c = ckCOAST)) (calibrate tclk)
    if 15565 ≤ count ∧ count ≤ 17203 then
      let s := setClk { s.clk with run := min 3 (s.clk.run + 1) } s
      if s.clk.run < 3 then s
      else if c = ckJUDGE then s |> put R.CLK_STATUS.REF_OK 1 |> goClock ckLOCKING
        |> setClk { s.clk with run := 0, retries := if s.clk.waits then 0 else s.clk.retries, since := s.us }
      else put R.CLK_STATUS.REF_OK 1 s
    else s |> setClk { s.clk with run := 0 } |> put R.CLK_EVENT.JUDGE_FAIL 1 |> put R.CLK_STATUS.REF_OK 0

/-- JUDGE_WINDOW. -/
def execJudgeWindow (window : WindowCounts) (s : State) : Host.Outcome State Fault Refusal := done (effJudgeWindow window.ref window.tclk s)

/-- REFCLK declared lost (R66, R80): the changeover follows at the next SLOT edge. -/
def declareLost (s : State) : State :=
  s |> setClk { s.clk with lost := true, run := 0, monFail := 0 } |> put R.CLK_STATUS.REF_OK 0 |> record 0x0101 0

/-- ROOT has come to the frequency that R61 asks: in RELOCK, where it moves at the rate of R77, the slot is no longer than a
count of 1,023 allows. -/
def rootNear (s : State) : Bool := clkState s ≠ ckRELOCK || decide (s.clk.slotPs * 1023 ≤ 1024 * 100000)

/-- LOCK_MONITOR_WINDOW, R61, R66, R77, R78. -/
def effLockMonitorWindow (count : Nat) (s : State) : State :=
  let c := clkState s
  if s.clk.lost then s
  else if c = ckLOCKING ∨ c = ckRELOCK then (if 1023 ≤ count ∧ count ≤ 1025 ∧ rootNear s then enterLocked s else s)
  else if c = ckLOCKED then
    if 1019 ≤ count ∧ count ≤ 1029 then setClk { s.clk with monFail := 0 } s
    else if s.clk.monFail = 0 then setClk { s.clk with monFail := 1 } s
    else declareLost s
  else s

/-- LOCK_MONITOR_WINDOW. -/
def execLockMonitorWindow (count : Nat) (s : State) : Host.Outcome State Fault Refusal :=
  done (effLockMonitorWindow count s)

/-- LOCK_RETRY, R62 to R64, 200 µs after LOCKING began: back to JUDGE, where REF_OK falls (log 87); the third
retry of a start-up sets LOCK_FAIL. While boot waits, the PLL is reset and tries again until the third retry. -/
def effLockRetry (s : State) : State :=
  if clkState s = ckLOCKING ∧ 200 ≤ s.us - s.clk.since then
    let n := s.clk.retries + 1
    let late := s.clk.bootLate
    if s.clk.waits ∧ n < 3 then s |> put R.CLK_EVENT.LOCK_RETRY 1 |> setClk { s.clk with retries := n, since := s.us }
    else
    let s := s |> put R.CLK_EVENT.LOCK_RETRY 1 |> put R.CLK_STATUS.REF_OK 0 |> goClock ckJUDGE
      |> setClk { s.clk with run := 0, retries := if 3 ≤ n then 0 else n }
      |> when (decide (3 ≤ n)) (put R.CLK_STATUS.LOCK_FAIL 1)
    when (decide (3 ≤ n) || late) startFailed s
  else s

/-- LOCK_RETRY. -/
def execLockRetry (s : State) : Host.Outcome State Fault Refusal := done (effLockRetry s)

/-- BOOT_CLOCK_TIMEOUT, R63: 10 ms passed since the GOV_PWRGOOD conditions were met, without LOCKED; an attempt
in LOCKING runs to its end first. -/
def effBootClockTimeout (s : State) : State :=
  if stage s ≠ 0 ∧ !s.clk.started ∧ 10000 ≤ s.us - s.clk.goodUs then
    s |> setClk { s.clk with bootLate := true } |> when (decide (clkState s = ckJUDGE)) startFailed
  else s

/-- BOOT_CLOCK_TIMEOUT. -/
def execBootClockTimeout (s : State) : Host.Outcome State Fault Refusal := done (effBootClockTimeout s)

/-- REF_LOST, R66, R80: no REFCLK edge in LOCKED or RELOCK. -/
def execRefLost (s : State) : Host.Outcome State Fault Refusal :=
  done (if (clkState s = ckLOCKED ∨ clkState s = ckRELOCK) ∧ !s.clk.lost then declareLost s else s)

/-- COAST_ENTER, R67: the first SLOT edge after the loss. -/
def execCoastEnter (s : State) : Host.Outcome State Fault Refusal :=
  done (if (clkState s = ckLOCKED ∨ clkState s = ckRELOCK) ∧ s.clk.lost then enterCoast true s else s)

/-- RELOCK_START, R76, R77, R79. -/
def execRelockStart (s : State) : Host.Outcome State Fault Refusal :=
  done (if clkState s = ckCOAST ∧ isOn s R.CLK_STATUS.REF_OK ∧ isOn s R.CLK_CFG.AUTO_RELOCK then
    s |> goClock ckRELOCK |> setClk { s.clk with run := 0, since := s.us, settling := false } else s)

/-- RELOCK_TIMEOUT, R79, 500 µs after RELOCK began: COAST again, ROOT going back at the rate of R77; the third
failure in a row, and each later one, clears AUTO_RELOCK. REF_OK stays as it is (log 87). -/
def effRelockTimeout (s : State) : State :=
  if clkState s = ckRELOCK ∧ 500 ≤ s.us - s.clk.since then
    let n := min 3 (s.clk.relockFails + 1)
    s |> put R.CLK_EVENT.LOCK_RETRY 1 |> setClk { s.clk with relockFails := n } |> enterCoast false
      |> when (decide (3 ≤ n)) (put R.CLK_CFG.AUTO_RELOCK 0)
  else s

/-- RELOCK_TIMEOUT. -/
def execRelockTimeout (s : State) : Host.Outcome State Fault Refusal := done (effRelockTimeout s)

end Sys2Proof.Machine
end

