-- ==== Sys2Proof/Machine/Estimator.lean ====
section
/-! DEFINITION. Sys2Proof/Machine/Estimator.lean: the neural power estimator: counters and log8 codes, both layers,
leakage, late frames and substitution, drift trim, model packages and their commands (R206 to R255). -/

namespace Sys2Proof.Machine

/-! Packages (R234 to R239). -/

/-- N_IN, N_HID and N_OUT of a package. -/
def pkIn (l : List Nat) : Nat := leAt l 0x0C 2
def pkHid (l : List Nat) : Nat := leAt l 0x0E 1
def pkOut (l : List Nat) : Nat := leAt l 0x0F 1

/-- W of R236. -/
def rowBytes (nIn : Nat) : Nat := 64 * cdiv nIn 64

/-- The payload length of a section type (R236); none for an unknown type. -/
def sectLen (nIn nHid nOut t : Nat) : Option Nat :=
  match t with
  | 1 => some (8 * cdiv (2 * nIn) 8)
  | 2 => some (nHid * rowBytes nIn)
  | 3 => some (8 * cdiv (4 * nHid) 8)
  | 4 => some (8 * cdiv (2 * nOut * nHid) 8)
  | 5 => some (8 * nOut)
  | 6 => some 4160
  | 7 => some 32
  | _ => none

/-- The sections of a package as type, payload offset and length, from pos to the end; none where R235 or R236
does not hold. The fuel bounds their number. -/
def sectionsFrom (l : List Nat) (stop : Nat) : Nat → Nat → Nat → Option (List (Nat × Nat × Nat))
  | 0, pos, _ => if pos = stop then some [] else none
  | fuel + 1, pos, prev =>
    if pos = stop then some []
    else
      let t := leAt l pos 2
      let n := leAt l (pos + 4) 4
      match sectLen (pkIn l) (pkHid l) (pkOut l) t with
      | some m =>
        if n = m ∧ prev < t ∧ pos + 8 + n ≤ stop then
          (sectionsFrom l stop fuel (pos + 8 + n) t).map ((t, pos + 8, n) :: ·)
        else none
      | none => none

/-- The sections of a package (R235). -/
def sections (l : List Nat) : Option (List (Nat × Nat × Nat)) := sectionsFrom l (leAt l 8 4 - 96) 7 64 0

/-- The payload of a section, empty where the package has none. -/
def sect (l : List Nat) (t : Nat) : List Nat :=
  match (sections l).bind fun x => x.find? fun e => e.1 = t with
  | some (_, o, n) => slice l o n
  | none => []

/-- Zero bytes from an offset on. -/
def zeroFrom (l : List Nat) (o : Nat) : Bool := (l.drop o).all (· = 0)

/-- Check 9 of R240: zero fields and padding within sections. -/
def zeroFields (l : List Nat) : Bool :=
  let n := pkIn l
  let h := pkHid l
  let o := pkOut l
  let m := sect l 1
  let w := sect l 2
  let p := sect l 3
  let q := sect l 5
  let k := sect l 6
  let t := sect l 7
  ((sections l).getD []).all (fun e => leAt l (e.2.1 - 6) 2 = 0)
    && (List.range n).all (fun i => leAt m (2 * i) 2 < 4096) && zeroFrom m (2 * n)
    && (List.range h).all (fun j => (slice w (j * rowBytes n + n) (rowBytes n - n)).all (· = 0))
    && (List.range h).all (fun j => leAt p (4 * j) 4 < 2 ^ 21) && zeroFrom p (4 * h)
    && zeroFrom (sect l 4) (2 * o * h)
    && (List.range o).all (fun i => leAt q (8 * i + 4) 4 < 32)
    && (List.range 4).all (fun i => (slice k (1040 * i + 8) 8).all (· = 0))
    && (List.range 4).all (fun i => leAt t (8 * i + 2) 2 = 0)

/-- A 32-bit word that is a sign extension of 24 bits. -/
def signExt24 (v : Nat) : Bool := decide (satI (toSigned 32 v) 24 = toSigned 32 v)

/-- Check 10 of R240. -/
def valueRanges (s : State) (l : List Nat) : Bool :=
  let q := sect l 5
  let k := sect l 6
  let t := sect l 7
  let step (x lo : Nat) : Bool := lo ≤ x && x ≤ 4095
  (List.range (pkOut l)).all (fun i => signExt24 (leAt q (8 * i) 4))
    && (k.isEmpty || (List.range 4).all fun i =>
        step (leAt k (1040 * i + 2) 2) 16 && step (leAt k (1040 * i + 6) 2) 8 &&
          (List.range 256).all fun j => signExt24 (leAt k (1040 * i + 16 + 4 * j) 4))
    && (t.isEmpty || (List.range 4).all fun i =>
        let g := leAt t (8 * i) 2
        let o := leAt t (8 * i + 4) 4
        get s R.EST_TRIM_GAIN.GAIN_MIN ≤ g && g ≤ get s R.EST_TRIM_GAIN.GAIN_MAX && signExt24 o &&
          decide ((toSigned 32 o).natAbs ≤ get s R.EST_TRIM_OFS.OFS_MAX))

/-- The bank requirement of R239. -/
def bankBytes (l : List Nat) : Nat := 64 * cdiv (2 * pkIn l) 64 + pkHid l * rowBytes (pkIn l) + 4 * pkHid l

/-- Checks 1 to 14 of R240 on a staged package of a length for a die mask: the first that fails, with its
status and detail. -/
def loadChecks (s : State) (l : List Nat) (len mask : Nat) : Option (Nat × Nat) :=
  let total := leAt l 8 4
  let key := ((s.estp.keys[leAt l 0x1D 1]?).getD none)
  let nOut := pkOut l
  let dm := leAt l 0x12 2
  let types := ((sections l).getD []).map (·.1)
  let checks : List (Bool × Nat) := [
    (decide (leAt l 0 4 ≠ 0x4D455A4B ∨ leAt l 4 2 ≠ 2 ∨ leAt l 6 2 ≠ 64), sBAD_PARAM),
    (decide (total ≠ len), sBAD_PARAM),
    (key.isNone, sINTEGRITY),
    (match key with
      | some (x, y) => !ecdsaVerify x y (l.take (total - 96)) (beNat (slice l (total - 96) 48)) (beNat (slice l (total - 48) 48))
      | none => true, sINTEGRITY),
    (decide (leAt l 0x1E 2 ≠ 0 ∨ leAt l 0x20 32 ≠ 0), sRESERVED),
    (decide (nOut = 0), sBAD_PARAM),
    (decide (4096 < pkIn l ∨ pkHid l = 0 ∨ 64 < pkHid l ∨ 4 < nOut ∨ leAt l 0x1C 1 < 5 ∨ 7 < leAt l 0x1C 1), sOUT_OF_RANGE),
    (decide ((sections l).isNone ∨ types.length ≠ leAt l 0x1C 1 ∨ types.take 5 ≠ [1, 2, 3, 4, 5]), sBAD_PARAM),
    (!zeroFields l, sRESERVED),
    (!valueRanges s l, sOUT_OF_RANGE),
    (decide (leAt l 0x11 1 ≠ nDies s ∨ 2 ^ nDies s ≤ dm) || (bitList 16 dm).any fun d => get s (R.TOK_DIE_LIM.GRADE d) ≠ leAt l 0x10 1, sBAD_PARAM),
    (decide (mask = 0 ∨ bitsClear mask dm ≠ 0), sBAD_PARAM),
    (decide (262144 < bankBytes l), sNO_RESOURCE),
    ((bitList 16 mask).any fun d => (linkOf s d).lost, sWRONG_STATE)]
  ((checks.zipIdx 1).find? fun e => e.1.1).map fun e => (e.1.2, e.2)

/-! Both layers (R206 to R221). -/

/-- The code of a delta (R209): round(16·log2 c) is the largest n with 2^(2n - 1) ≤ c^32. -/
def log8 (c : Nat) : Nat := if c = 0 then 0 else min 255 (((c ^ 32).log2 + 1) / 2 + 1)

/-- The code of a delta in a window longer than 750 ns (R210). -/
def log8Long (c : Nat) : Nat := if c = 0 then 0 else min 255 (max 1 (((c ^ 32).log2 + 1) / 2 + 1 - 16))

/-- rnd of R211, the identity for a shift of 0. -/
def rnd0 (x : Int) (n : Nat) : Int := rnd x n

/-- A row of products summed with saturation at 32 bits. -/
def macRow (w x : List Int) : Int := (w.zip x).foldl (fun a e => satI (a + e.1 * e.2) 32) 0

/-- The hidden outputs of the first layer for the input codes (R211, R213). -/
def firstLayer (l : List Nat) (x : List Nat) : List Nat :=
  let w := sect l 2
  let p := sect l 3
  (List.range 64).map fun j =>
    if pkHid l ≤ j then 0
    else
      let row := (List.range (pkIn l)).map fun k => seAt w (j * rowBytes (pkIn l) + k) 1
      let acc := macRow row (x.map fun (v : Nat) => (v : Int))
      let a := satI (rnd0 acc (bits (leAt p (4 * j) 4) 16 5) + seAt p (4 * j) 2) 32
      (clampI 0 255 a).toNat

/-- nn of output o (R214). -/
def secondLayer (l h : List Nat) (o : Nat) : Int :=
  if pkOut l ≤ o then 0
  else
    let w := sect l 4
    let q := sect l 5
    let row := (List.range (pkHid l)).map fun j => seAt w (2 * (o * pkHid l + j)) 2
    let acc := macRow row (h.map fun (v : Nat) => (v : Int))
    satI (rnd0 acc (leAt q (8 * o + 4) 1 % 32) + toSigned 24 (leAt q (8 * o) 3)) 24

/-- The leakage of output o at a temperature and a voltage (R217, R219); 0 without the section. DESIGN CHOICE (log 98):
V0 is read as a signed word, as T0 is, and a voltage of 0x8000 or more enters vc unwrapped. -/
def leakage (l : List Nat) (o : Nat) (t v : Int) : Int :=
  let k := sect l 6
  if k.isEmpty then 0
  else
    let b := 1040 * o
    let t0 := seAt k b 2
    let ts : Int := leAt k (b + 2) 2
    let v0 := seAt k (b + 4) 2
    let vs : Int := leAt k (b + 6) 2
    let tc := min (max t t0) (t0 + 15 * ts)
    let vc := min (max v v0) (v0 + 15 * vs)
    let i := min 14 (divZ (tc - t0) ts)
    let j := min 14 (divZ (vc - v0) vs)
    let ft := divZ ((tc - t0 - i * ts) * 65536) ts
    let fv := divZ ((vc - v0 - j * vs) * 65536) vs
    let at_ (i j : Int) : Int := toSigned 24 (leAt k (b + 16 + 4 * (16 * i + j).toNat) 3)
    let top := at_ i j * (65536 - fv) + at_ i (j + 1) * fv
    let bot := at_ (i + 1) j * (65536 - fv) + at_ (i + 1) (j + 1) * fv
    satI (rnd (top * (65536 - ft) + bot * ft) 32) 24

/-- The package in a bank of die d. -/
def bankPkg (s : State) (d bank : Nat) : List Nat := ((estOf s d).banks.getD bank ⟨false, []⟩).pkg

/-- The active model of die d, as its agent has it, and the one that the core computes with (R242). -/
def model (s : State) (d : Nat) : List Nat := bankPkg s d (estOf s d).active
def coreModel (s : State) (d : Nat) : List Nat := bankPkg s d (estOf s d).core

/-- An initial gain and offset of a package (R236, R237). -/
def initTrim (l : List Nat) (o : Nat) : Nat × Int :=
  let t := sect l 7
  if t.isEmpty then (16384, 0) else (leAt t (8 * o) 2, seAt t (8 * o + 4) 4)

/-- Gain and offset in use for output o of die d (R216). -/
def trimOf (s : State) (d o : Nat) : Nat × Int :=
  let e := estOf s d
  match o with
  | 0 => pairCodes e.pair0
  | 1 => pairCodes e.pair1
  | 2 => let (g, x) := s.estp.linkOld.getD (pairCodes s.estp.link); (g, divZ x (max 1 (nDies s)))
  | _ => initTrim (coreModel s d) 3

/-! Windows. -/

/-- The sums of tokens used of die d move on by one window (R271): the slot that ends with it is the last of it. -/
def latchTokens (d : Nat) (s : State) : State :=
  let t := tokOf s d
  let last := if 2000 * spanNs s t.slotAt (now s) < s.clk.slotPs then t.slot - 1 else t.slot
  setTok d { t with pub := t.win, win := (t.usedSum, t.reports), tot := (t.totalSum, t.reports), usedSum := 0, totalSum := 0,
                    reports := 0, winLast := some last } s

/-- The window of die d ends (R207, R208, R210): its counters latched, and how long it was. -/
def latchWindow (counts : List (Nat × Nat × Nat)) (d : Nat) (s : State) : State :=
  let e := estOf s d
  let new := (counts.filter fun c => c.1 = d && c.2.1 < 4096).foldl (fun l c => sset 0 c.2.1 (c.2.2 % 2 ^ 32) l) e.cnt
  setEst d { e with cnt := new, prev := if e.first then new else e.cnt, first := false, latched := true,
                    winPs := 0, long := decide (750000 < if e.winPs = 0 then cyclePs s else e.winPs) } s

/-- Every window of die d counts, so that a frame's can be told (R223). -/
def countWindow (d : Nat) (s : State) : State :=
  let e := estOf s d
  setEst d { e with window := e.window + 1, latchAt := now s } s

/-- COUNTER_LATCH, R207, R208: the counters of every agent out of reset; a counter that is not listed has not
moved. None before the clock runs (R688). -/
def effCounterLatch (counts : List (Nat × Nat × Nat)) (s : State) : State :=
  if s.clk.started then
    each (dies s) (fun d s => s |> latchTokens d |> countWindow d |> when (!dieInReset s d) (latchWindow counts d)) s
  else s

/-- COUNTER_LATCH. -/
def execCounterLatch (counts : List (Nat × Nat × Nat)) (s : State) : Host.Outcome State Fault Refusal :=
  done (effCounterLatch counts s)

/-- The input codes of die d's window (R209 to R211). -/
def inputCodes (s : State) (d : Nat) (l : List Nat) : List Nat :=
  let e := estOf s d
  let m := sect l 1
  (List.range (pkIn l)).map fun k =>
    let c := leAt m (2 * k) 2
    let delta := (sget 0 c e.cnt + 2 ^ 32 - sget 0 c e.prev) % 2 ^ 32
    if e.long then log8Long delta else log8 delta

/-- FIRST_LAYER_DONE, R211 to R213, R220. -/
def effFirstLayerDone (d : Nat) (s : State) : State :=
  let e := estOf s d
  if isPresent s d ∧ !dieInReset s d ∧ isOn s (R.EST_DIE_STAT.ACTIVE d) ∧ e.latched then
    let h := firstLayer (model s d) (inputCodes s d (model s d))
    s |> setEst d { e with hidden := h, latched := false } |> sendMsg true d ⟨tyESTIMATE, h, .estimate d h⟩
  else s

/-- FIRST_LAYER_DONE. -/
def execFirstLayerDone (die : Nat) (s : State) : Host.Outcome State Fault Refusal := done (effFirstLayerDone die s)

/-- ESTIMATE_FRAME, R213, R223: the 64 hidden outputs of a window, in time until the second stage of that window starts,
else discarded. -/
def takeEstimate (d window : Nat) (h : List Nat) (s : State) : State :=
  let e := estOf s d
  if h.length = 64 ∧ window = e.due then setEst d { e with hCore := h, inTime := true } s else s

/-- ESTIMATE_FRAME. -/
def execEstimateFrame (die : Nat) (frame : Frame) (window : Nat) (s : State) : Host.Outcome State Fault Refusal :=
  done (acceptFrame true tyESTIMATE die frame (takeEstimate die window (framePayload frame.bytes)) s)

/-- Whether the estimate of die d is substituted (R225, R629). -/
def substituted (s : State) (d : Nat) : Bool :=
  !(estOf s d).coreOn || (estOf s d).stale || (linkOf s d).lost || dieInReset s d

/-- Die d's trim window and the link pair's hold a cycle that no update may use (R232). -/
def spoilTrim (d : Nat) (s : State) : State :=
  let e := estOf s d
  { setEst d { e with pair0 := { e.pair0 with spoiled := true }, pair1 := { e.pair1 with spoiled := true } } s with
    estp := { s.estp with link := { s.estp.link with spoiled := true } } }

/-- The lateness of die d's frame judged at the start of the second stage (R223). -/
def judgeFrame (d : Nat) (s : State) : State :=
  let e := estOf s d
  if !e.coreOn ∨ dieInReset s d then s
  else if e.inTime then setEst d { e with inTime := false, lateRun := 0, stale := false } s
  else
    let run := min 4 (e.lateRun + 1)
    s |> setEst d { e with lateRun := run, stale := e.stale || decide (run = 4) } |> spoilTrim d |> addSat (R.EST_DIE_CNT.LATE d) 1 |> event R.EST_EVENT 6

/-- The outputs of die d from its model (R214, R218). -/
def modelOutputs (d : Nat) (tc tm : Int) (vc vm vl : Nat) (s : State) : State :=
  let l := coreModel s d
  let e := estOf s d
  let raws := (List.range 4).map fun o =>
    let (t, v) := match o with
      | 1 => (tm, vm)
      | 2 => (tc, vl)
      | _ => (tc, vc)
    let k := leakage l o t v
    (satI (secondLayer l e.hCore o + k) 24, k)
  let raw (o : Nat) : Int := (raws.getD o (0, 0)).1
  s |> each (List.range 4) (fun o st =>
      let (g, x) := trimOf s d o
      let r := raw o
      st |> putI (R.EST_RAW.I d o) r |> putI (R.EST_LEAK.I d o) (raws.getD o (0, 0)).2 |> put (R.EST_GAIN.GAIN d o) g
        |> putI (R.EST_OFS.OFS d o) x |> putI (R.EST_OUT.I d o) (satI (rnd (r * g) 14 + x) 24))
    |> setEst d { e with pair0 := { e.pair0 with xSum := e.pair0.xSum + raw 0, cycles := e.pair0.cycles + 1 },
                         pair1 := { e.pair1 with xSum := e.pair1.xSum + raw 1, cycles := e.pair1.cycles + 1 } }
    |> (fun s => { s with estp := { s.estp with link := { s.estp.link with xSum := s.estp.link.xSum + raw 2 } } })

/-- The measured currents in place of die d's estimate (R225). A cycle that ended before a model became active is not
one of its trim window. -/
def measuredOutputs (d : Nat) (s : State) : State :=
  s |> putI (R.EST_OUT.I d 0) (irail s d) |> putI (R.EST_OUT.I d 1) (irail s (16 + d))
    |> putI (R.EST_OUT.I d 2) (divZ (irail s 32) (max 1 (nDies s))) |> putI (R.EST_OUT.I d 3) 0
    |> when ((estOf s d).turn.isNone) (spoilTrim d)

/-- The initial values of the core's model in the pairs and registers of die d (R243, R255). -/
def activate (d : Nat) (s : State) : State :=
  let l := coreModel s d
  let e := estOf s d
  let (g0, o0) := initTrim l 0
  let (g1, o1) := initTrim l 1
  s |> setEst d { e with pair0 := freshPair s g0 o0 e.pair0, pair1 := freshPair s g1 o1 e.pair1 }
    |> put (R.EST_DIE_MODEL.ID d) (leAt l 0x14 4) |> put (R.EST_DIE_MVER.VER d) (leAt l 0x18 4)
    |> put (R.EST_DIE_SIZE.N_IN d) (pkIn l) |> put (R.EST_DIE_SIZE.N_HID d) (pkHid l) |> put (R.EST_DIE_SIZE.N_OUT d) (pkOut l)

/-- The link pair at the initial values of the active model of die d (R243, R252). -/
def activateLink (d : Nat) (s : State) : State :=
  let (g, o) := initTrim (model s d) 2
  setLinkPair (freshPair s g o s.estp.link) s

/-- The gain and offset that output 2 goes on using until the core follows a switch (R242), or those of the link pair
from the next cycle on where none are given. -/
def setLinkOld (old : Option (Nat × Int)) (s : State) : State := { s with estp := { s.estp with linkOld := old } }

/-- The core follows a switch of die d with the first window that the agent computes under the new model, and with it
every die's output 2 uses the link pair that the switch set (R242, R243). -/
def takeTurn (d : Nat) (s : State) : State :=
  let e := estOf s d
  if e.turn.any fun w => decide (w ≤ e.due) then
    s |> setEst d { e with coreOn := true, core := e.active, turn := none } |> activate d |> setLinkOld none
  else s

/-- The window whose second stage comes after this one (R222). -/
def nextDue (d : Nat) (s : State) : State :=
  let e := estOf s d
  setEst d { e with due := min (e.window + 1) (max (e.due + 1) e.window) } s

/-- Whether the bank of die d that is not in use holds a model (R254). -/
def otherBank (s : State) (d : Nat) : Bool := ((estOf s d).banks.getD (1 - (estOf s d).active) ⟨false, []⟩).valid

/-- The link pair's window counts a cycle that a model was active in (R228). One in which a die's measured currents
stood in for its estimate beside another's model is not used (R232). -/
def countLink (s : State) : State :=
  let l := s.estp.link
  let on := (dies s).any fun d => (estOf s d).coreOn
  let all := (dies s).all fun d => (estOf s d).coreOn
  if on then { s with estp := { s.estp with link := { l with cycles := l.cycles + 1, spoiled := l.spoiled || !all } } } else s

/-- The skips and TRIM_HOLD of the last trim window shown (R232, R255). -/
def showTrim (d : Nat) (s : State) : State :=
  let e := estOf s d
  s |> addSat (R.EST_DIE_CNT.SKIP d) e.skips |> putB (R.EST_DIE_STAT.TRIM_HOLD d) e.hold |> setEst d { e with skips := 0 }

/-- One die's publication (R214 to R226, R255). The voltage means are those of the window computed (R218); DESIGN CHOICE
(log 98): its temperatures are those that the thermal unit shows as the second stage starts. -/
def publishEstimate (d : Nat) (s : State) : State :=
  let c := capOf s d
  let k := capOf s 16
  let mean (sum n latest : Nat) : Nat := if n = 0 then latest else sum / n
  let vc := mean (nth c.vPrev 0) c.evPrev (vmeas s d)
  let vm := mean (nth c.vPrev 1) c.evPrev (vmeas s (16 + d))
  let vl := mean (nth k.vPrev 0) k.evPrev (vmeas s 32)
  let tc := getI s (R.THM_DIE_T2.MEAN d)
  let tm := getI s (R.THM_DIE_T2.MEAN_LAYER d)
  let s := judgeFrame d s
  let sub := substituted s d
  s |> (if sub then measuredOutputs d else modelOutputs d tc tm vc vm vl)
    |> putB (R.EST_DIE_STAT.SUBST d) sub |> putI (R.EST_DIE_TIN.TCORE d) tc |> putI (R.EST_DIE_TIN.TMEM d) tm
    |> put (R.EST_DIE_VIN.VCORE d) vc |> put (R.EST_DIE_VIN.VMEM d) vm |> put (R.EST_DIE_VIN2.VLINK d) vl
    |> put (R.EST_DIE_TS.TIME d) (now s) |> putB (R.EST_DIE_STAT.PREV_VALID d) (otherBank s d) |> showTrim d |> nextDue d

/-- SECOND_STAGE, R214, R222 to R226: the switches that this window follows, every die published, then what the core
forms from the cycle; none before the clock runs (R688). -/
def effSecondStage (s : State) : State :=
  if !s.clk.started then s
  else s |> each (dies s) takeTurn |> each (dies s) publishEstimate |> countLink |> powerCycle

/-- SECOND_STAGE. -/
def execSecondStage (s : State) : Host.Outcome State Fault Refusal := done (effSecondStage s)

/-! Drift trim (R227 to R233). -/

/-- One update of R229 in binary32. -/
def rlsStep (p : Pair) (lam x y : Nat) : Pair :=
  let a := fAdd (fMul p.p11 x) p.p12
  let b := fAdd (fMul p.p12 x) p.p22
  let den := fAdd lam (fAdd (fMul x a) b)
  let k1 := fDiv a den
  let k2 := fDiv b den
  let e := fSub y (fAdd (fMul p.g x) p.o)
  { p with g := fAdd p.g (fMul k1 e), o := fAdd p.o (fMul k2 e), p11 := fDiv (fSub p.p11 (fMul k1 a)) lam,
           p12 := fDiv (fSub p.p12 (fMul k1 b)) lam, p22 := fDiv (fSub p.p22 (fMul k2 b)) lam }

/-- A code clamped to a range of codes, with whether the clamp acted. -/
def fClamp (lo hi c : Nat) : Nat × Bool := if fLt c lo then (lo, true) else if fLt hi c then (hi, true) else (c, false)

/-- A new window of a pair, from a µs on. -/
def newWindow (us : Nat) (p : Pair) : Pair := { p with xSum := 0, ySum := 0, cycles := 0, evals := 0, spoiled := false, since := us }

/-- The 64 µs of a pair's window have passed (R227). -/
def windowOver (s : State) (p : Pair) : Bool := 64 ≤ s.us - p.since

/-- The µs at which the window after the one that is over began. -/
def windowEnd (s : State) (p : Pair) : Nat := s.us - (s.us - p.since) % 64

/-- The update, clamps and covariance reset of one pair (R228 to R231), with the events TRIM_CLAMP and P_RESET. -/
def updatePair (s : State) (p : Pair) : Pair × Bool × Bool :=
  let x := fQuot p.xSum (256 * p.cycles)
  let y := fQuot p.ySum (256 * p.evals)
  let ff := get s R.EST_CTRL.FF
  let lam := fQuot ((2 ^ ff : Nat) - 1 : Int) (2 ^ ff)
  let q := rlsStep p lam x y
  let p0 (q : Pair) : Pair := { q with p11 := get s R.EST_TRIM_P0G.P0, p12 := 0, p22 := get s R.EST_TRIM_P0O.P0 }
  if !([q.g, q.o, q.p11, q.p12, q.p22].all fFinite) then (p0 { q with g := p.g, o := p.o }, false, true)
  else
    let om := get s R.EST_TRIM_OFS.OFS_MAX
    let (g, c1) := fClamp (fQuot (get s R.EST_TRIM_GAIN.GAIN_MIN) 16384) (fQuot (get s R.EST_TRIM_GAIN.GAIN_MAX) 16384) q.g
    let (o, c2) := fClamp (fQuot (-(om : Int)) 256) (fQuot om 256) q.o
    let q := { q with g := g, o := o }
    let big := fLt (get s R.EST_TRIM_PMAX.PMAX) (fAdd q.p11 q.p22)
    (if big then p0 q else q, c1 || c2, big)

/-- The update of one pair or its skip (R232). -/
def trimPair (s : State) (on : Bool) (p : Pair) : Option (Pair × Bool × Bool) :=
  if !on ∨ p.spoiled ∨ p.cycles = 0 ∨ p.evals = 0 then none else some (updatePair s p)

/-- Events of an update. -/
def trimEvents (clamped reset : Bool) (s : State) : State := s |> when clamped (event R.EST_EVENT 4) |> when reset (event R.EST_EVENT 5)

/-- The pairs of outputs 0 and 1 of die d at the end of its trim window; both began together. -/
def trimDie (d : Nat) (s : State) : State :=
  let e := estOf s d
  if !e.coreOn ∨ !windowOver s e.pair0 then s
  else
    let on := isOn s R.EST_CTRL.TRIM_EN
    let us := windowEnd s e.pair0
    let step (p : Pair) (set : Pair → EstD → EstD) (s : State) : State :=
      match trimPair s on p with
      | some (q, c, r) => s |> setEst d (set (newWindow us q) (estOf s d)) |> trimEvents c r
      | none => setEst d (set (newWindow us p) { estOf s d with skips := (estOf s d).skips + 1, hold := true }) s
    s |> setEst d { e with hold := false } |> step e.pair0 (fun q e => { e with pair0 := q })
      |> step e.pair1 (fun q e => { e with pair1 := q })

/-- TRIM_UPDATE, R227 to R233: every pair whose trim window has passed, the link pair while a die has an active
model. -/
def effTrimUpdate (s : State) : State :=
  let s := each (dies s) trimDie s
  let l := s.estp.link
  if ((dies s).any fun d => (estOf s d).coreOn) && windowOver s l then
    let us := windowEnd s l
    match trimPair s (isOn s R.EST_CTRL.LINK_TRIM_EN) l with
    | some (q, c, r) => s |> setLinkPair (newWindow us q) |> trimEvents c r
    | none => s |> setLinkPair (newWindow us l) |> addSat R.EST_LINK_TRIM.SKIP 1
  else s

/-- TRIM_UPDATE. -/
def execTrimUpdate (s : State) : Host.Outcome State Fault Refusal := done (effTrimUpdate s)

/-! Loading, activation, revert (R240 to R252). -/

/-- The staging buffer released (R241). -/
def releaseStage (s : State) : State := s |> put R.EST_STAGE.OPEN 0 |> put R.EST_STAGE.OWNER 0 |> put R.EST_STAGE.LEN 0

/-- Whether a port owns the staging buffer. -/
def ownsStage (s : State) (port : Nat) : Bool := isOn s R.EST_STAGE.OPEN && get s R.EST_STAGE.OWNER = port

/-- A MODEL_LOAD is in progress. -/
def loading (s : State) : Bool :=
  match s.estp.switch with
  | some w => !w.revert
  | none => false

/-- A mask that is 0 or names an absent die. -/
def badMask (s : State) (m : Nat) : Bool := m = 0 || decide (2 ^ nDies s ≤ m)

/-- The package written into the inactive bank of a die (R242), which holds no model until the switch; PREV_VALID shows
it from the next publication on (R255). -/
def writeBank (pkg : List Nat) (d : Nat) (s : State) : State :=
  let e := estOf s d
  s |> setEst d { e with banks := upd e.banks (1 - e.active) ⟨false, pkg⟩ }
    |> sendDown tySETTING d pkg (.model d (1 - e.active))

/-- A bank written whole holds a model. -/
def sealBank (d : Nat) (s : State) : State :=
  let e := estOf s d
  setEst d { e with banks := upd e.banks (1 - e.active) ⟨(bankPkg s d (1 - e.active)).length ≠ 0, bankPkg s d (1 - e.active)⟩ } s

/-- The first window that die d's agent computes after a switch now (R242): the last one that ended, unless its first
layer has run. -/
def firstWindow (s : State) (d : Nat) : Nat :=
  let e := estOf s d
  if e.latched then e.window else e.window + 1

/-- The trim window of a die's first model starts at the switch; one in progress holds an activation (R227, R232). -/
def markActivation (us : Nat) (first : Bool) (p : Pair) : Pair := if first then newWindow us p else { p with spoiled := true }

/-- Die d switches to its other bank, where that holds a model (R242, R243). -/
def switchDie (d : Nat) (s : State) : State :=
  let e := estOf s d
  if otherBank s d then
    let first := !isOn s (R.EST_DIE_STAT.ACTIVE d)
    s |> setEst d { e with active := 1 - e.active, turn := some (firstWindow s d), pair0 := markActivation s.us first e.pair0,
                           pair1 := markActivation s.us first e.pair1 }
      |> put (R.EST_DIE_STAT.ACTIVE d) 1 |> putB (R.EST_DIE_STAT.PREV_VALID d) (e.banks.getD e.active ⟨false, []⟩).valid
  else s

/-- The link pair at a switch of the dies of a list (R243): the initial values of the model that becomes active on the
lowest of them; output 2 keeps its gain and offset until the core follows (R242). -/
def switchLink (ds : List Nat) (first : Bool) (s : State) : State :=
  match ds.find? fun d => (estOf s d).turn.isSome with
  | none => s
  | some d =>
    let old := s.estp.linkOld.getD (pairCodes s.estp.link)
    { s with estp := { s.estp with link := markActivation s.us first s.estp.link } } |> activateLink d |> setLinkOld (some old)

/-- MODEL_SWITCH, R242, R243, R249, R251. A die of the mask that was reset after the checks stays without a model
(log 68). -/
def effModelSwitch (s : State) : State :=
  match s.estp.switch with
  | none => s
  | some w =>
    let ds := bitList 16 w.mask
    let first := (dies s).all fun d => !isOn s (R.EST_DIE_STAT.ACTIVE d)
    let s := s |> when (!w.revert) (each ds sealBank) |> each ds switchDie |> switchLink ds first
    { s with estp := { s.estp with switch := none } } |> event R.EST_EVENT 0 |> bumpGen
      |> when (!w.revert) (fun s => s |> put R.EST_LOAD_STAT.STATUS sOK |> put R.EST_LOAD_STAT.DETAIL 0 |> when (ownsStage s w.port) releaseStage)
      |> completeAt w.port w.tag sOK 0 (if w.revert then 0 else now s % 2 ^ 32)

/-- MODEL_SWITCH. -/
def execModelSwitch (s : State) : Host.Outcome State Fault Refusal := done (effModelSwitch s)

/-- A die of a load's mask enters LINK_LOST before the switch (R244); no check failed, so the detail code is 0 (log 98). -/
def abortLoad (d : Nat) (s : State) : State :=
  match s.estp.switch with
  | some w =>
    if !w.revert ∧ bit w.mask d then
      { s with estp := { s.estp with switch := none } } |> event R.EST_EVENT 2 |> put R.EST_LOAD_STAT.STATUS sABORTED
        |> put R.EST_LOAD_STAT.DETAIL 0 |> completeAt w.port w.tag sABORTED 0 0
    else s
  | none => s

/-- The owner uses the staging buffer: its 10 s start anew (R241). -/
def touchStage (s : State) : State := { s with estp := { s.estp with stageUs := s.us } }

/-- STAGE_TIMEOUT, R241: 10 s without a MODEL_WRITE or MODEL_LOAD of the owner. -/
def execStageTimeout (s : State) : Host.Outcome State Fault Refusal :=
  done (if isOn s R.EST_STAGE.OPEN ∧ !loading s ∧ 10000000 ≤ s.us - s.estp.stageUs then s |> releaseStage |> event R.EST_EVENT 3 else s)

/-- MODEL_OPEN, R241, R247. -/
def execModelOpen (port tag : Nat) (s : State) : Host.Outcome State Fault Refusal :=
  done <| command 0x0401 port tag s
    (fun fl =>
      let n := par fl 0
      [(decide (n < 160 ∨ 294912 < n ∨ n % 8 ≠ 0), sOUT_OF_RANGE),
       (loading s || (isOn s R.EST_STAGE.OPEN && !ownsStage s port), sBUSY)])
    (fun fl s =>
      s |> wipe (stageArea 0) (stageArea 294912) |> put R.EST_STAGE.OPEN 1 |> put R.EST_STAGE.OWNER port |> put R.EST_STAGE.LEN (par fl 0)
        |> touchStage |> complete fl sOK 0 0)

/-- Words written to byte memory from an address. -/
def writeWords (a : Nat) : List Nat → State → State
  | [], s => s
  | w :: t, s => writeWords (a + 4) t (writeWord32 a w s)

/-- MODEL_WRITE, R248, in the order of checks it states; one of the owner's that fails was issued too (R241). -/
def execModelWrite (port tag : Nat) (s : State) : Host.Outcome State Fault Refusal :=
  done <| command 0x0402 port tag s (fun _ => [])
    (fun fl s =>
      let o := par fl 0
      let n := fl.params.length - 1
      let checks := [(decide (o / 2 ^ 20 ≠ 0), sRESERVED), (decide (n = 0), sBAD_PARAM), (!ownsStage s port, sWRONG_STATE),
        (decide (o % 4 ≠ 0 ∨ get s R.EST_STAGE.LEN < o + 4 * n), sOUT_OF_RANGE)]
      let s := when (ownsStage s port) touchStage s
      match firstFail checks with
      | some st => complete fl st 0 0 s
      | none => s |> writeWords (stageArea o) fl.params.tail |> complete fl sOK 0 0)

/-- A MODEL_LOAD that fails with a status and a detail code (R249). DESIGN CHOICE (log 98): where no check of R240 failed
the code is 0. -/
def failLoad (fl : Flight) (st detail : Nat) (s : State) : State :=
  s |> put R.EST_LOAD_STAT.STATUS st |> put R.EST_LOAD_STAT.DETAIL detail |> event R.EST_EVENT 1 |> complete fl st detail 0

/-- MODEL_LOAD, R240, R242, R249: the checks, then the switch at an estimator-cycle boundary. -/
def execModelLoad (port tag : Nat) (s : State) : Host.Outcome State Fault Refusal :=
  done <| command 0x0403 port tag s (fun _ => [])
    (fun fl s =>
      let mask := par fl 0
      let len := get s R.EST_STAGE.LEN
      let pkg := readBytes s (stageArea 0) len
      let s := when (ownsStage s port) touchStage s
      if mask / 2 ^ 16 ≠ 0 then failLoad fl sRESERVED 0 s
      else if !ownsStage s port then failLoad fl sWRONG_STATE 0 s
      else if s.estp.switch.isSome then failLoad fl sBUSY 0 s
      else
        match loadChecks s pkg len mask with
        | some (st, k) => failLoad fl st k s
        | none => { s with estp := { s.estp with switch := some ⟨mask, port, tag, false⟩ } } |> each (bitList 16 mask) (writeBank pkg)
          |> markStarted port tag)

/-- MODEL_CLOSE, R250. -/
def execModelClose (port tag : Nat) (s : State) : Host.Outcome State Fault Refusal :=
  done <| command 0x0404 port tag s (fun _ => [(!ownsStage s port, sWRONG_STATE)])
    (fun fl s => s |> releaseStage |> complete fl sOK 0 0)

/-- MODEL_REVERT, R251; a bank that an abandoned load has overwritten holds no model, whether PREV_VALID shows it yet
or not. -/
def execModelRevert (port tag : Nat) (s : State) : Host.Outcome State Fault Refusal :=
  done <| command 0x0405 port tag s
    (fun fl =>
      let m := par fl 0
      [(decide (m / 2 ^ 16 ≠ 0), sRESERVED), (badMask s m, sBAD_PARAM),
       ((bitList 16 m).any fun d => !isOn s (R.EST_DIE_STAT.PREV_VALID d) || !otherBank s d || (linkOf s d).lost, sWRONG_STATE),
       (s.estp.switch.isSome, sBUSY)])
    (fun fl s => { s with estp := { s.estp with switch := some ⟨par fl 0, port, tag, true⟩ } } |> markStarted port tag)

/-- TRIM_RESET, R252. A die whose switch the core is still to follow takes the new model's values as it follows. -/
def execTrimReset (port tag : Nat) (s : State) : Host.Outcome State Fault Refusal :=
  done <| command 0x0406 port tag s
    (fun fl =>
      let m := bits (par fl 0) 0 16
      [(decide (par fl 0 / 2 ^ 20 ≠ 0), sRESERVED), (badMask s m || decide (bits (par fl 0) 16 4 = 0), sBAD_PARAM),
       ((bitList 16 m).any fun d => !isOn s (R.EST_DIE_STAT.ACTIVE d), sWRONG_STATE)])
    (fun fl s =>
      let ds := bitList 16 (bits (par fl 0) 0 16)
      let om := bits (par fl 0) 16 4
      s |> each ds (fun d s =>
          let e := estOf s d
          let (g0, o0) := initTrim (coreModel s d) 0
          let (g1, o1) := initTrim (coreModel s d) 1
          setEst d { e with pair0 := if bit om 0 then freshPair s g0 o0 e.pair0 else e.pair0,
                            pair1 := if bit om 1 then freshPair s g1 o1 e.pair1 else e.pair1 } s)
        |> when (bit om 2) (fun s => s |> activateLink (ds.headD 0) |> setLinkOld none) |> complete fl sOK 0 0)

end Sys2Proof.Machine
end

