-- ==== Sys2Proof/Machine/Links.lean ====
section
/-! DEFINITION. Sys2Proof/Machine/Links.lean: the lanes of an agent link, its loss and return, its training (R38 to
R40, R659, R664). -/

namespace Sys2Proof.Machine

/-- LANE_LOSS, R38, R664: a lane in service of a trained link is silent while the other is not, on which
the agent reports it. -/
def effLaneLoss (d lane : Nat) (s : State) : State :=
  let l := linkOf s d
  if isPresent s d ∧ l.trained ∧ !l.lost ∧ lane < 2 ∧ l.laneLost = 0 then
    s |> setLink d { l with laneLost := setBit l.laneLost lane } |> agentTells tyREPORT d [lane] (.laneStatus d lane) |> recordDie 0x0104 d lane
  else s

/-- LANE_LOSS. -/
def execLaneLoss (die lane : Nat) (s : State) : Host.Outcome State Fault Refusal := done (effLaneLoss die lane s)

/-- LANE_RETRAIN, R664: a training attempt of a lost lane. The lane stays out of service until LANE_RESTORE, and
no register shows the attempt. -/
def execLaneRetrain (_die _lane : Nat) (s : State) : Host.Outcome State Fault Refusal := done s

/-- LANE_RESTORE, R664: 64 good frames in a row on a lost lane. -/
def effLaneRestore (d lane : Nat) (s : State) : State :=
  let l := linkOf s d
  if isPresent s d ∧ lane < 2 then setLink d { l with laneLost := clrBit l.laneLost lane } s else s

/-- LANE_RESTORE. -/
def execLaneRestore (die lane : Nat) (s : State) : Host.Outcome State Fault Refusal := done (effLaneRestore die lane s)

/-- LINK_LOST, R39, R244, R406: not declared for a die in reset (R629). -/
def effLinkLost (d : Nat) (s : State) : State :=
  let l := linkOf s d
  if isPresent s d ∧ !dieInReset s d ∧ !l.lost then
    s |> setLink d { l with lost := true, held := (agentFields d).map fun f => (fieldKey f, get s f), own := [] } |> recordDie 0x0105 d 0 |> put (R.THM_DIE_STAT.STALE d) 1
      |> showEmpty d |> abortLoad d |> refit d
  else s

/-- LINK_LOST. -/
def execLinkLost (die : Nat) (s : State) : Host.Outcome State Fault Refusal := done (effLinkLost die s)

/-- The slot registers that a lost link kept from the core (R270, R332). -/
def refreshSlot (d : Nat) (s : State) : State :=
  let t := tokOf s d
  s |> putB (R.TOK_DIE_STAT.ZERO d) (t.grant = 0) |> putB (R.FIL_DIE_STAT.EPISODE d) t.episode
    |> put (R.FIL_DIE_STAT.N d) (min 65535 t.n) |> put (R.FIL_DIE_L0.L0 d) t.l0 |> putB (R.FIL_DIE_STAT.WARM d) (t.warm ≠ 0)

/-- What die d's agent formed while its link was lost, by field key, reaches the core (R40, R270; log 47): its registers, with
the events of what it counted, its failed sites and its last step boundary. -/
def takeOwn (d : Nat) (own : List (Nat × Nat)) (s : State) : State :=
  let of (f : Field) : Option Nat := (own.find? fun e => e.1 = fieldKey f).map fun e => e.2
  let failed := bitsClear ((of (R.ITN_DRP_STAT.FAILED d)).getD 0) (get s (R.ITN_DRP_STAT.FAILED d))
  s |> each (agentShown d) (fun f s => match of f with
      | some v => put f v s
      | none => s)
    |> when (of (R.ITN_DIE_CNT.BAD d)).isSome (event R.ITN_EVENT 0)
    |> when (of (R.ITN_DIE_CNT2.OVERFLOW d)).isSome (event R.ITN_EVENT 1)
    |> when (of (R.FIL_DIE_CNT.EPISODES d)).isSome (event R.FIL_EVENT 0)
    |> each (bitList 4 failed) (fun n s => s |> event R.ITN_EVENT 6 |> faultOn 3 |> recordDie 0x0505 d n)
    |> judgeBlind d
    |> (fun s => match of (R.ITN_STEP.LAST d) with
      | some v => tellStep d v s
      | none => s)

/-- The two ends of die d's link hear of each other again: what the agent formed reaches the core, and the settings written
since reach the agent, where the sources disabled and the sites masked since act (R34, R40, R262, R287). -/
def catchUp (d : Nat) (s : State) : State :=
  let off := bitList 8 (bitsClear (setting s d (R.ITN_SRC_CFG.SRC_EN d)) (get s (R.ITN_SRC_CFG.SRC_EN d)))
  let dis := bitList 4 (bitsClear (get s (R.ITN_DRP_MASK.SITE_DIS d)) (setting s d (R.ITN_DRP_MASK.SITE_DIS d)))
  s |> setLink d { linkOf s d with lost := false, held := [], own := [] } |> takeOwn d (linkOf s d).own |> each off (dropAgent d) |> each dis (releaseSite d)

/-- The DROOP_FORCE commands of die d go on as its link returns: a cut that has ended completes those that had begun, and
the others begin (R34, R296). -/
def resumeForced (d : Nat) (s : State) : State :=
  let s := when (!isOn s (R.ITN_DIE_STAT.CUT d)) (endForced d (itnOf s d).cutLen) s
  each ((itnOf s d).forced.filter fun f => !f.begun) (beginForced d) s

/-- LINK_RESTORE, R40, R270: the core takes up the agent's state again, and sends it what it holds. -/
def effLinkRestore (d : Nat) (s : State) : State :=
  if isPresent s d ∧ (linkOf s d).lost then
    s |> catchUp d |> resumeForced d |> (fun s => setItn d { itnOf s d with core := (itnOf s d).agent, thrSent := 0 } s) |> sendHeld d
      |> showSteps d |> refreshSlot d |> showEmpty d |> showReasons d |> refit d
  else s

/-- LINK_RESTORE. -/
def execLinkRestore (die : Nat) (s : State) : Host.Outcome State Fault Refusal := done (effLinkRestore die s)

/-- LINK_TRAINED, R28, R507, R629, R659: the keys are loaded before the die's treatment as in reset ends. The agent's
count starts and both ends number their frames anew (log 91). -/
def effLinkTrained (d : Nat) (s : State) : State :=
  let l := linkOf s d
  if isPresent s d ∧ !l.trained ∧ sitesArmed s d then
    s |> reloadDie d |> restartLink d |> (fun s => setLink d { linkOf s d with trained := true } s)
      |> (fun s => setItn d { itnOf s d with thrSent := 0 } s) |> sendHeld d |> showEmpty d |> refit d
  else s

/-- LINK_TRAINED. -/
def execLinkTrained (die : Nat) (s : State) : Host.Outcome State Fault Refusal := done (effLinkTrained die s)

end Sys2Proof.Machine
end

