-- ==== Sys2Proof/Machine/Pmbus.lean ====
section
/-! DEFINITION. Sys2Proof/Machine/Pmbus.lean: the board converters over PMBus: readings, alerts, fault clearing and
the two converter commands (R147 to R157). Command codes, LINEAR11, ULINEAR16 and the bits of STATUS_WORD are
those of PMBus 1.4 (log 18). -/

namespace Sys2Proof.Machine

/-- PMBus command codes of R147. -/
def pmPAGE : Nat := 0x00
def pmOPERATION : Nat := 0x01
def pmCLEAR_FAULTS : Nat := 0x03
def pmVOUT_COMMAND : Nat := 0x21

/-- A LINEAR11 word in units of 1/k (R149), rounded under R12. -/
def linear11 (w k : Nat) : Int :=
  let m := toSigned 11 w
  let e := toSigned 5 (w / 2 ^ 11)
  if 0 ≤ e then m * k * 2 ^ e.toNat else roundDiv (m * k) (2 ^ (-e).toNat)

/-- A ULINEAR16 word of converter c in voltage codes (R150). -/
def fromVout (s : State) (c w : Nat) : Nat :=
  let e := getI s (R.PST_PMB_CONV.VOUT_EXP c)
  min 0xFFFF (if 0 ≤ e then w * 8000 * 2 ^ e.toNat else (roundDiv (w * 8000 : Nat) (2 ^ (-e).toNat)).toNat)

/-- A voltage code as converter c's ULINEAR16 word (R150). A word that does not fit 16 bits goes as 0xFFFF (log 89). -/
def toVout (s : State) (c v : Nat) : Nat :=
  let e := getI s (R.PST_PMB_CONV.VOUT_EXP c)
  min 0xFFFF (if 0 ≤ e then (roundDiv v (8000 * 2 ^ e.toNat)).toNat else (roundDiv (v * 2 ^ (-e).toNat : Nat) 8000).toNat)

/-- A transaction with converter c whose three attempts fail, or that succeeds (R151). -/
def transaction (c : Nat) (good : Bool) (s : State) : State :=
  if good then put (R.PST_PMB_STAT.NO_RESP c) 0 s
  else s |> put (R.PST_PMB_STAT.NO_RESP c) 1 |> event R.PST_EVENT 7 |> record 0x0201 c

/-- A command sent to converter c at its address (R148). -/
def sendPmb (c cmd v : Nat) (s : State) : State := emit (.pmbus (get s (R.PST_PMB_CONV.ADDR c)) cmd v) s

/-- PAGE written before a round of transactions, and whether it was acknowledged (R148, R151). -/
def pageRound (c : Nat) (good : Bool) (s : State) : State :=
  let p := get s (R.PST_PMB_CONV.PAGE c)
  when (decide (p ≠ 0xFF)) (fun s => s |> sendPmb c pmPAGE p |> transaction c good) s

/-- Whether a transaction that no operand speaks of succeeds: a free value (R151; log 90). -/
def freeAck (f : Bool → State → State) (s : State) : State := f (decide (fresh s % 2 = 1)) (drawn s)

/-- OPERATION written in a power-up or a power-down (R150). No operand says whether the converter acknowledges
PAGE or OPERATION (log 90). -/
def operate (v c : Nat) (s : State) : State :=
  s |> freeAck (pageRound c) |> sendPmb c pmOPERATION v |> freeAck (transaction c)

/-- The stage controller drives PMBus: from stage FW on, and not in BOOT_FAIL (R679). -/
def pmbusOn (s : State) : Bool := decide (4 ≤ stage s ∧ stage s ≠ stFAIL)

/-- A word read, placed by its own operation; a missing word or one above 16 bits is a failed transaction. -/
def readWord (c : Nat) (w : Option Nat) (f : Nat → State → State) (s : State) : State :=
  match w with
  | some v => if v < 2 ^ 16 then s |> transaction c true |> f v else transaction c false s
  | none => transaction c false s

/-- The six readings of one converter (R149). A reading beyond its field is saturated: VIN and VOUT to 0 to 0xFFFF,
the currents to 24 bits, the temperature to 16 (log 89). -/
def pollOne (c : Nat) (r : Round) (s : State) : State :=
  let l := r.words
  s |> pageRound c r.page
    |> readWord c l[0]? (fun w => put (R.PST_PMB_DATA.VIN c) (clampI 0 0xFFFF (linear11 w 8000)).toNat)
    |> readWord c l[1]? (fun w => putI (R.PST_PMB_DATA.IIN c) (satI (linear11 w 256) 24))
    |> readWord c l[2]? (fun w s => put (R.PST_PMB_DATA.VOUT c) (fromVout s c w) s)
    |> readWord c l[3]? (fun w => putI (R.PST_PMB_DATA.IOUT c) (satI (linear11 w 256) 24))
    |> readWord c l[4]? (fun w => putI (R.PST_PMB_DATA.TEMP c) (satI (linear11 w 16) 16))
    |> readWord c l[5]? (fun w => put (R.PST_PMB_STAT.STATUS_WORD c) w)

/-- PMB_POLL, R149: each converter that takes part, its readings by converter number. -/
def execPmbPoll (readings : List Round) (s : State) : Host.Outcome State Fault Refusal :=
  done (if pmbusOn s then each (convIn s) (fun c => pollOne c (readings.getD c ⟨false, []⟩)) s else s)

/-- STATUS_WORD reports OFF, or a VOUT or IOUT fault (R152). -/
def convFaulty (w : Nat) : Bool := w &&& 0xC070 ≠ 0

/-- CLEAR_FAULTS sent, with its outcome (R151, R153). -/
def clearSent (c : Nat) (good : Bool) (s : State) : State :=
  s |> setConv c ⟨some s.us⟩ |> sendPmb c pmCLEAR_FAULTS 0 |> transaction c good

/-- CLEAR_FAULTS sent once, and no more after a repeat within 10 ms of the last automatic one (R153; log 89). -/
def autoClear (c : Nat) (good : Bool) (s : State) : State :=
  if isOn s (R.PST_PMB_STAT.NO_AUTO_CLR c) then s
  else
    match (convOf s c).cleared with
    | some t => if s.us < t + 10000 then put (R.PST_PMB_STAT.NO_AUTO_CLR c) 1 s
        else clearSent c good s
    | none => clearSent c good s

/-- STATUS_WORD of one converter read in an alert, the first word; a second one says that a CLEAR_FAULTS sent
after it was acknowledged (R151, R152). -/
def alertOne (c : Nat) (r : Round) (s : State) : State :=
  let l := r.words
  s |> pageRound c r.page |> readWord c l[0]? (fun w s =>
    s |> put (R.PST_PMB_STAT.STATUS_WORD c) w
      |> when (convFaulty w) (fun s =>
          s |> put (R.PST_PMB_STAT.CONV_FAULT c) 1 |> event R.PST_EVENT 6 |> record 0x0202 (c + w * 2 ^ 16) |> autoClear c l[1]?.isSome))

/-- PMB_ALERT, R152, R343. -/
def execPmbAlert (statuses : List Round) (s : State) : Host.Outcome State Fault Refusal :=
  done (if pmbusOn s then s |> each (convIn s) (fun c => alertOne c (statuses.getD c ⟨false, []⟩)) |> refreshIin else s)

/-- CONV_VOUT_SET, R156: an acknowledged write waits for the reading 1 ms later. -/
def execConvVoutSet (port tag : Nat) (acked : Acks) (s : State) : Host.Outcome State Fault Refusal :=
  done <| command 0x0203 port tag s
    (fun fl =>
      let v := bits (par fl 1) 0 16
      [(decide (par fl 0 / 2 ^ 3 ≠ 0 ∨ par fl 1 / 2 ^ 16 ≠ 0), sRESERVED), (decide (v < 13600 ∨ 15200 < v), sOUT_OF_RANGE),
       (!isOn s (R.PST_PMB_CONV.EN (bits (par fl 0) 0 3)), sWRONG_STATE)])
    (fun fl s =>
      let c := bits (par fl 0) 0 3
      let s := s |> pageRound c acked.page |> sendPmb c pmVOUT_COMMAND (toVout s c (bits (par fl 1) 0 16)) |> transaction c acked.data
      if acked.data then s |> keepResult port tag s.us 0 |> markStarted port tag else complete fl sTIMEOUT 0 0 s)

/-- READ_VOUT_AFTER_WRITE, R156, 1 ms after the write. Where the reading itself fails the command was written and acknowledged, and
the result word is a free value (log 19). -/
def execReadVoutAfterWrite (port tag value : Nat) (acked : Acks) (s : State) : Host.Outcome State Fault Refusal :=
  done (match flightOf s port tag with
    | some fl =>
      if fl.opcode = 0x0203 ∧ fl.started ∧ 1000 ≤ s.us - fl.r0 then
        let c := bits (par fl 0) 0 3
        let s := s |> pageRound c acked.page |> transaction c acked.data
        if acked.data then complete fl sOK (fromVout s c (value % 2 ^ 16)) 0 s else s |> complete fl sOK (fresh s) 0 |> drawn
      else s
    | none => s)

/-- CONV_CLEAR, R157. -/
def execConvClear (port tag : Nat) (acked : Acks) (s : State) : Host.Outcome State Fault Refusal :=
  done <| command 0x0204 port tag s
    (fun fl => [(decide (par fl 0 / 2 ^ 3 ≠ 0), sRESERVED), (!isOn s (R.PST_PMB_CONV.EN (bits (par fl 0) 0 3)), sWRONG_STATE)])
    (fun fl s =>
      let c := bits (par fl 0) 0 3
      let s := s |> pageRound c acked.page |> sendPmb c pmCLEAR_FAULTS 0 |> transaction c acked.data
      if acked.data then
        s |> put (R.PST_PMB_STAT.CONV_FAULT c) 0 |> put (R.PST_PMB_STAT.NO_AUTO_CLR c) 0 |> refreshIin |> complete fl sOK 0 0
      else complete fl sTIMEOUT 0 0 s)

end Sys2Proof.Machine
end

