-- ==== Sys2Proof/Machine/Security.lean ====
section
/-! DEFINITION. Sys2Proof/Machine/Security.lean: partitions, keys and attestation: the steps of R494 to R545
on the key bus, the commands of group 0x0A, and the SPDM responder (formats of DMTF DSP0274 1.2, log 16). -/

namespace Sys2Proof.Machine

/-! Entropy (R504). -/

/-- ENTROPY_FAIL, R504: a health test fails. -/
def execEntropyFail (s : State) : Host.Outcome State Fault Refusal :=
  done (s |> put R.SEC_STAT.ENT_OK 0 |> event R.SEC_EVENT 0 |> faultOn 10 |> record 0x0A01 0)

/-- DRBG_RESEED, R504: the DRBG reseeds after 65,536 requests, which then count anew. -/
def execDrbgReseed (s : State) : Host.Outcome State Fault Refusal :=
  done (if 65536 ≤ s.sec.requests then { s with sec := { s.sec with requests := s.sec.requests - 65536 } } else s)

/-- ENTROPY_SOURCE_RESTART, R504: the start-up tests pass. -/
def execEntropySourceRestart (s : State) : Host.Outcome State Fault Refusal := done (put R.SEC_STAT.ENT_OK 1 s)

/-- A fresh key cannot be made (R504). -/
def noEntropy (s : State) : Bool := !isOn s R.SEC_STAT.ENT_OK

/-! The key bus (R506, R519, R522, R523, R531). -/

/-- The key operation of a partition changed. -/
def setOp (p : Nat) (o : Option KeyOp) (s : State) : State := setPart p { partOf s p with op := o } s

/-- Whether the engines' 100 µs for a key operation have passed (R522, R540). -/
def keyLate (s : State) (o : KeyOp) : Bool := 100000 ≤ spanNs s o.since (now s)

/-- KEY_COMMIT, R522: every engine has acknowledged the LOAD of a rotation in time; one COMMIT goes out and the
epoch counts. -/
def effKeyCommit (p : Nat) (s : State) : State :=
  let k := partOf s p
  match k.op with
  | none => s
  | some o =>
    if o.kind = 1 ∧ p < 16 ∧ !keyLate s o then
      let e := (get s (R.SEC_PART_EPOCH.CUR p) + 1) % 2 ^ 16
      s |> setPart p { k with memPrev := k.memCur, linkPrev := k.linkCur, memCur := o.keyA + 1, linkCur := o.keyB + 1, op := none }
        |> keySend (allLinks s p) p .commit |> put (R.SEC_PART_EPOCH.CUR p) e |> put (R.SEC_PART_EPOCH.PREV_VALID p) 1
        |> event R.SEC_EVENT 4 |> completeAt o.port o.tag sOK e 0
    else s

/-- KEY_COMMIT. -/
def execKeyCommit (part : Nat) (s : State) : Host.Outcome State Fault Refusal := done (effKeyCommit part s)

/-- KEYBUS_TIMEOUT, R522, R540: an acknowledgement is missing after 100 µs. -/
def effKeybusTimeout (p : Nat) (s : State) : State :=
  let k := partOf s p
  match k.op with
  | none => s
  | some o =>
    if !keyLate s o then s
    else if o.kind = 1 then
      s |> setOp p none |> keySend (allLinks s p) p (.erase slotSTANDBY) |> event R.SEC_EVENT 8
        |> completeAt o.port o.tag sTIMEOUT 0 0
    else if o.kind = 2 then
      s |> setPart p { k with models := sset 0 o.slot 0 k.models, op := none }
        |> keySend (memLinks s p) p (.erase (slotModel o.slot)) |> unevent (R.SEC_PART_MKEY.LOADED p) o.slot
        |> completeAt o.port o.tag sTIMEOUT 0 0
    else s

/-- KEYBUS_TIMEOUT. -/
def execKeybusTimeout (part : Nat) (s : State) : Host.Outcome State Fault Refusal := done (effKeybusTimeout part s)

/-- PREV_EPOCH_COUNT, R523: the sums of the engines' counts; when both are 0 the previous slot is erased. -/
def effPrevEpochCount (p pages inflight : Nat) (s : State) : State :=
  let k := partOf s p
  if isOn s (R.SEC_PART_EPOCH.PREV_VALID p) ∧ k.scrub = none ∧ p < 16 then
    let s := s |> put (R.SEC_PART_PREV.PAGES p) (min 0xFFFFFFFF pages) |> put (R.SEC_PART_PREV2.INFLIGHT p) (min 0xFFFFFFFF inflight)
    if pages = 0 ∧ inflight = 0 ∧ k.op = none then
      s |> setPart p { k with memPrev := 0, linkPrev := 0, op := some ⟨3, 15, 0, 0, 0, 0, now s⟩ }
        |> keySend (allLinks s p) p (.erase slotPREV)
    else s
  else s

/-- PREV_EPOCH_COUNT. -/
def execPrevEpochCount (part pages inflight : Nat) (s : State) : Host.Outcome State Fault Refusal :=
  done (effPrevEpochCount part pages inflight s)

/-- The contexts of a partition cleared in step 5 of its scrub: their queues unbound, their state as after the
clearing of class CTX. -/
def clearContexts (p : Nat) (s : State) : State :=
  let cs := partContexts s p
  let mine (q : Nat) : Bool := ownerGroup s (q / 64) = p
  s |> setRecov { s.recov with taps := s.recov.taps.filter (fun e => !mine e.1), ages := s.recov.ages.filter (fun e => !mine e.1),
                               stuck := s.recov.stuck.filter fun c => !cs.contains c,
                               bound := s.recov.bound.filter fun c => !cs.contains c }
    |> each cs (fun c s => s |> put (R.CTX_STATE.STATE c) cxNORMAL |> put (R.CTX_STATE.N_Q c) 0
        |> put (R.CTX_STATE.PART c) 0x3F |> put (R.CTX_STATE.SPLIT c) 0)
    |> when (cs.any fun c => s.recov.stuck.contains c) stuckOff

/-- Step 6 of a scrub: the partition is FREE, which changes the configuration, and the command completes (R45, R531,
R534, R537). -/
def scrubFree (p : Nat) (c : ScrubH) (s : State) : State :=
  let r := match flightOf s c.port c.tag with
    | some fl => fl.r0
    | none => 0
  let s := s |> clearContexts p |> freePart p |> bumpGen |> event R.SEC_EVENT 6
  s |> when ((List.range 16).all fun q => partState s q ≠ ptFAIL) (faultOff 11)
    |> completeAt c.port c.tag sOK r (scrubMs c s)

/-- KEY_BUS_ACKNOWLEDGEMENT, R506: every engine of a partition has acknowledged an order. A model key is then in
its slot (R519, R540), a previous slot erased (R523), a step of a scrub ended (R531). The acknowledgement of a
LOAD is KEY_COMMIT's. -/
def effKeyBusAck (p order : Nat) (s : State) : State :=
  let k := partOf s p
  if 16 ≤ p then s
  else match k.scrub with
  | some c =>
    if order = kbIDLE then scrubAck p 2 s
    else if order = kbERASE ∧ c.step = 3 then scrubOverwrite p s
    else if order = kbERASE ∧ c.step = 5 then scrubFree p c s
    else s
  | none =>
    match k.op with
    | some o =>
      if order = kbMODEL ∧ o.kind = 2 ∧ !keyLate s o then
        s |> setPart p { k with models := sset 0 o.slot (o.keyA + 1) k.models, op := none }
          |> event (R.SEC_PART_MKEY.LOADED p) o.slot |> event R.SEC_EVENT 3 |> completeAt o.port o.tag sOK 0 0
      else if order = kbERASE ∧ o.kind = 3 then
        s |> setOp p none |> put (R.SEC_PART_EPOCH.PREV_VALID p) 0 |> event R.SEC_EVENT 5
      else s
    | none => s

/-- KEY_BUS_ACKNOWLEDGEMENT. -/
def execKeyBusAcknowledgement (part order : Nat) (s : State) : Host.Outcome State Fault Refusal :=
  done (effKeyBusAck part order s)

/-- SCRUB_OVERWRITE_DONE, R531: every page is written; the scrub key is erased (step 5). -/
def effScrubOverwriteDone (p pages : Nat) (s : State) : State :=
  match (partOf s p).scrub with
  | none => s
  | some c =>
    if c.step = 4 ∧ p < 16 then
      s |> setScrub p (some { c with step := 5, acked := 0, key := 0 }) |> put (R.SEC_PART_SCRUB.REMAIN p) 0
        |> keepResult c.port c.tag (pages % 2 ^ 32) 0 |> keySend (memLinks s p) p (.erase slotSCRUB)
    else s

/-- SCRUB_OVERWRITE_DONE. -/
def execScrubOverwriteDone (part pages : Nat) (s : State) : Host.Outcome State Fault Refusal :=
  done (effScrubOverwriteDone part pages s)

/-- SCRUB_FAIL, R534: step 4 overruns SEC_SCRUB_CFG.TIMEOUT_S, which counts of CLK_TIME double in COAST (R531). -/
def effScrubFail (p : Nat) (s : State) : State :=
  match (partOf s p).scrub with
  | some c => if c.step = 4 ∧ get s R.SEC_SCRUB_CFG.TIMEOUT_S * 100000000 ≤ now s - c.since then scrubFailed p s else s
  | none => s

/-- SCRUB_FAIL. -/
def execScrubFail (part : Nat) (s : State) : Host.Outcome State Fault Refusal := done (effScrubFail part s)

/-! Commands on partitions and ports. -/

/-- A key operation of a partition runs, so that another command on it waits for its end. -/
def keyBusy (s : State) (p : Nat) : Bool := (partOf s p).op.isSome

/-- The layout that PART_SET names (R536). -/
structure Layout where
  dies : Nat
  stackSet : Nat
  first : Nat
  count : Nat
  links : Nat
deriving DecidableEq, Repr

/-- The layout in a packet. -/
def layoutOf (fl : Flight) : Layout :=
  ⟨bits (par fl 1) 0 16, bits (par fl 1) 16 16, bits (par fl 2) 0 8, bits (par fl 2) 8 9, par fl 3 + par fl 4 * 2 ^ 32⟩

/-- Whether a resource's owner is none or p itself. -/
def freeFor (owner p : Nat) : Bool := owner = 0x3F || owner = p

/-- R495: a valid layout for partition p. A range that goes beyond the 256 groups is not its matter (R536). -/
def layoutValid (s : State) (p : Nat) (l : Layout) (conf legacy : Bool) : Bool :=
  l.dies ≠ 0 && (bitList 16 l.dies).all (fun d => isPresent s d && freeFor (ownerDie s d) p)
    && (bitList 16 l.stackSet).all (fun n => bit l.dies (serves s n) && freeFor (ownerStack s n) p)
    && (List.range l.count).all (fun i => 256 ≤ l.first + i || bit l.dies ((l.first + i) / 16) && freeFor (ownerGroup s (l.first + i)) p)
    && (bitList 64 l.links).all (fun k => freeFor (ownerLink s k) p) && !(conf && legacy)

/-- Whether some queue of partition p that the layout removes has a context bound (R536). -/
def removesBound (s : State) (p : Nat) (l : Layout) : Bool :=
  s.recov.taps.any fun e =>
    let g := e.1 / 64
    tapState e.2 ≠ 0 && ownerGroup s g = p && !(l.first ≤ g && g < l.first + l.count && bit l.dies (g / 16))

/-- Debug and profiling outputs of dies; a change ends attestations (R515). -/
def putDebug (dbg prof : Nat) (s : State) : State :=
  if get s R.SEC_DBG.DBG = dbg ∧ get s R.SEC_DBG.PROF = prof then s
  else s |> put R.SEC_DBG.DBG dbg |> put R.SEC_DBG.PROF prof |> each (List.range 16) loseAttest

/-- A partition's table entry from a layout; what was frozen of its resources is live again (R533). -/
def putLayout (p : Nat) (l : Layout) (legacy : Bool) (models : Nat) (s : State) : State :=
  s |> put (R.SEC_PART_RES.DIES p) l.dies |> put (R.SEC_PART_RES.STACKS p) l.stackSet
    |> put (R.SEC_PART_QG.FIRST p) l.first |> put (R.SEC_PART_QG.COUNT p) l.count
    |> put (R.SEC_PART_LINK.PORTS p) l.links |> putB (R.SEC_PART_CFG.LEGACY_OK p) legacy
    |> put (R.SEC_PART_CFG.MODEL_KEYS p) models
    |> (fun s => { s with sec := { s.sec with
        frozenDies := s.sec.frozenDies.filter (fun e => e.2 ≠ p + 1 && !bit l.dies e.1),
        frozenStacks := s.sec.frozenStacks.filter (fun e => e.2 ≠ p + 1 && !bit l.stackSet e.1),
        frozenParts := clrBit s.sec.frozenParts p } })
    |> setPart p { partOf s p with clearOk := legacy }
    |> (fun s => keySend (memLinks s p) p (.clearOk legacy) s) |> idleLinks p false

/-- PART_SET creates a partition from FREE (R499, R505, R520, R521, R529). -/
def createPart (p : Nat) (l : Layout) (conf legacy : Bool) (models : Nat) (s : State) : State :=
  s |> when conf (fun s => putDebug (bitsClear (get s R.SEC_DBG.DBG) l.dies) (bitsClear (get s R.SEC_DBG.PROF) l.dies) s)
    |> putLayout p l legacy models |> putB (R.SEC_PART_CFG.CONF p) conf |> installKeys p
    |> put (R.SEC_PART_CFG.STATE p) ptACTIVE

/-- Whether a layout and settings differ from the partition's table entry. -/
def newLayout (p : Nat) (l : Layout) (legacy : Bool) (models : Nat) (s : State) : Bool :=
  [get s (R.SEC_PART_RES.DIES p), get s (R.SEC_PART_RES.STACKS p), get s (R.SEC_PART_QG.FIRST p), get s (R.SEC_PART_QG.COUNT p),
    get s (R.SEC_PART_LINK.PORTS p), get s (R.SEC_PART_CFG.LEGACY_OK p), get s (R.SEC_PART_CFG.MODEL_KEYS p)]
  ≠ [l.dies, l.stackSet, l.first, l.count, l.links, b2n legacy, models]

/-- PART_SET changes the layout of an ACTIVE partition; with a change its attestation goes (R515), and the engines that
join receive its keys (R519, R521). -/
def changePart (p : Nat) (l : Layout) (legacy : Bool) (models : Nat) (s : State) : State :=
  let t := s |> when (newLayout p l legacy models s) (loseAttest p) |> putLayout p l legacy models
  let more := bitsClear (allLinks t p) (allLinks s p)
  when (decide (more ≠ 0)) (reloadKeys more p) t

/-- PART_SET with DIES 0 dissolves a partition: its keys are erased and it owns nothing (R505, R519, R536). -/
def dissolvePart (p : Nat) (s : State) : State :=
  s |> loseAttest p |> eraseAll p |> keySend (memLinks s p) p (.clearOk false) |> freePart p

/-- PART_SET, R536. -/
def execPartSet (port tag : Nat) (s : State) : Host.Outcome State Fault Refusal :=
  done <| command 0x0A01 port tag s
    (fun fl =>
      let w := par fl 0
      let p := bits w 0 4
      let l := layoutOf fl
      let st := partState s p
      let gone := l.dies = 0 ∧ st ≠ ptFREE
      let mk := bits w 6 5
      let others := ((List.range 16).filter (· ≠ p)).map fun q => get s (R.SEC_PART_CFG.MODEL_KEYS q)
      [(decide (w / 2 ^ 11 ≠ 0 ∨ par fl 2 / 2 ^ 17 ≠ 0), sRESERVED),
       (!decide gone && !layoutValid s p l (bit w 4) (bit w 5), sBAD_PARAM),
       (decide (16 < mk ∨ 256 < l.first + l.count), sOUT_OF_RANGE),
       (!decide gone && decide (64 < others.foldl (· + ·) mk), sNO_RESOURCE),
       (confPart s p || decide (st = ptSCRUBBING ∨ st = ptFAIL) || (bit w 4 && (decide (st ≠ ptFREE) || !isOn s R.SEC_STAT.DBG_LOCK))
          || (decide (st ≠ ptFREE) && removesBound s p (if gone then ⟨0, 0, 0, 0, 0⟩ else l)), sWRONG_STATE),
       (decide (st = ptFREE) && noEntropy s, sINTEGRITY)])
    (fun fl s =>
      let w := par fl 0
      let p := bits w 0 4
      let l := layoutOf fl
      if keyBusy s p then s
      else
        (if partState s p = ptFREE then createPart p l (bit w 4) (bit w 5) (bits w 6 5) s
          else if l.dies = 0 then dissolvePart p s
          else changePart p l (bit w 5) (bits w 6 5) s) |> bumpGen |> complete fl sOK 0 0)

/-- Pending resets of a partition's contexts removed, their commands ABORTED (R531). -/
def dropPending (p : Nat) (s : State) : State :=
  let mine := s.recov.pend.filter fun c => ownerCtx s c.ctx = p
  s |> setRecov { s.recov with pend := s.recov.pend.filter fun c => ownerCtx s c.ctx ≠ p }
    |> each mine (fun c s => s |> put (R.CTX_STATE.STATE c.ctx) cxNORMAL
        |> each c.waiter.toList (fun w => completeAt w.1 w.2 sABORTED 0 0))

/-- PART_SCRUB, R531, R534, R537. -/
def execPartScrub (port tag : Nat) (s : State) : Host.Outcome State Fault Refusal :=
  done <| command 0x0A02 port tag s
    (fun fl =>
      let st := partState s fl.target
      [(decide (16 ≤ fl.target), sOUT_OF_RANGE), (decide (st = ptFREE ∨ st = ptSCRUBBING), sWRONG_STATE),
       (noEntropy s, sINTEGRITY)])
    (fun fl s =>
      let p := fl.target
      if keyBusy s p then s
      else
        let again := partState s p = ptFAIL
        let s := s |> loseAttest p |> put (R.SEC_PART_CFG.STATE p) ptSCRUBBING
          |> setScrub p (some ⟨0, 0, fl.port, fl.tag, s.us, 0, 0⟩) |> markStarted fl.port fl.tag
        if again then scrubErase p s else s |> dropPending p |> scrubResume p)

/-- A port's SPDM connection changed. -/
def setSpdm (port : Nat) (c : Spdm) (s : State) : State :=
  { s with sec := { s.sec with spdm := sset Spdm.init port c s.sec.spdm } }

/-- PORT_BIND, R538; the port's SPDM connection ends (R501). -/
def execPortBind (port tag : Nat) (s : State) : Host.Outcome State Fault Refusal :=
  done <| command 0x0A03 port tag s
    (fun fl =>
      let w := par fl 0
      let h := bits w 0 4
      let lv := bits w 4 2
      let p := bits w 6 6
      [(decide (w / 2 ^ 12 ≠ 0 ∨ (p ≠ 0 ∧ lv ≠ 1)), sRESERVED),
       (decide (8 ≤ h ∨ lv = 3 ∨ (lv = 1 ∧ 16 ≤ p)), sOUT_OF_RANGE),
       (decide (lv = 1 ∧ partState s p = ptFREE) || (decide (lv ≠ 2) && (List.range 8).all fun q => q = h || authOf s q ≠ 2), sWRONG_STATE)])
    (fun fl s =>
      let w := par fl 0
      let h := bits w 0 4
      s |> put (R.SEC_PORT.AUTH h) (bits w 4 2) |> put (R.SEC_PORT.PART h) (bits w 6 6) |> setSpdm h Spdm.init
        |> bumpGen |> complete fl sOK 0 0)

/-- The bytes of a packet from parameter word k on. -/
def paramBytes (fl : Flight) (k n : Nat) : List Nat := ((fl.params.drop k).flatMap (leBytes 4)).take n

/-- The key-encryption key of a blob (R518 steps 2 and 3), from the partition's private key and the blob. -/
def kekOf (s : State) (p : Nat) (b : List Nat) : Option (List Nat) :=
  match ecMul (partOf s p).priv (beNat ((b.drop 0x10).take 48), beNat ((b.drop 0x40).take 48)) with
  | some (z, _) =>
    some ((sha384 ([0, 0, 0, 1] ++ beBytes 48 z ++ [0x4B, 0x5A, 0x32, 0x20, 0x4D, 0x4F, 0x44, 0x45, 0x4C]
      ++ (b.drop 6).take 1 ++ (b.drop 8).take 8)).take 32)
  | none => none

/-- The bytes of a partition's public key, X then Y. -/
def pubBytes (s : State) (p : Nat) : List Nat := leBytes 48 (get s (R.SEC_PART_PUB.X p)) ++ leBytes 48 (get s (R.SEC_PART_PUB.Y p))

/-- Step 1 of R518: MAGIC, FORMAT, PART, the zero byte, KID, and the ephemeral point. -/
def blobValid (s : State) (p : Nat) (b : List Nat) : Bool :=
  leNat (b.take 4) = 0x4B574B5A && leNat ((b.drop 4).take 2) = 1 && nth b 6 = p && nth b 7 = 0
    && (b.drop 8).take 8 = (sha384 (pubBytes s p)).take 8
    && onCurve (beNat ((b.drop 0x10).take 48)) (beNat ((b.drop 0x40).take 48))

/-- The model key of a blob (R518), where the KW integrity check passes. -/
def unwrapBlob (s : State) (p : Nat) (b : List Nat) : Option (List Nat) :=
  match kekOf s p b with
  | some k => kwUnwrap k ((b.drop 0x70).take 40)
  | none => none

/-- KEY_RELEASE, R540: the unwrapped key goes out by a MODEL order; the command completes when every engine has
acknowledged it. -/
def execKeyRelease (port tag : Nat) (s : State) : Host.Outcome State Fault Refusal :=
  done <| command 0x0A05 port tag s
    (fun fl =>
      let p := fl.target
      let b := paramBytes fl 1 152
      [(decide (par fl 0 / 2 ^ 4 ≠ 0), sRESERVED), (decide (p < 16) && !blobValid s p b, sBAD_PARAM),
       (decide (16 ≤ p ∨ get s (R.SEC_PART_CFG.MODEL_KEYS p) ≤ par fl 0), sOUT_OF_RANGE),
       (decide (partState s p ≠ ptATTESTED), sWRONG_STATE), ((unwrapBlob s p b).isNone, sINTEGRITY)])
    (fun fl s =>
      let p := fl.target
      match unwrapBlob s p (paramBytes fl 1 152) with
      | none => s
      | some k =>
        if keyBusy s p then s
        else s |> setOp p (some ⟨2, fl.port, fl.tag, par fl 0, beNat k, 0, now s⟩) |> keySend (memLinks s p) p (.model (par fl 0) (beNat k))
          |> markStarted fl.port fl.tag)

/-- KEY_ROTATE, R522, R524, R541: new keys are loaded into every standby register. -/
def execKeyRotate (port tag : Nat) (s : State) : Host.Outcome State Fault Refusal :=
  done <| command 0x0A06 port tag s
    (fun fl =>
      let p := fl.target
      let rotating := match (partOf s p).op with
        | some o => o.kind = 1
        | none => false
      [(decide (16 ≤ p), sOUT_OF_RANGE),
       (isOn s (R.SEC_PART_EPOCH.PREV_VALID p) || decide (partState s p ≠ ptACTIVE ∧ partState s p ≠ ptATTESTED) || rotating, sWRONG_STATE),
       (noEntropy s, sINTEGRITY)])
    (fun fl s =>
      let p := fl.target
      if keyBusy s p then s
      else
        let m := drbg 512 s
        let s := drbgUsed s
        let l := drbg 256 s
        let s := drbgUsed s
        s |> setOp p (some ⟨1, fl.port, fl.tag, 0, m, l, now s⟩)
          |> sendLoads (allLinks s p) p ((get s (R.SEC_PART_EPOCH.CUR p) + 1) % 2 ^ 16) m l |> markStarted fl.port fl.tag)

/-- DEBUG_SET, R529, R542: both bits for every die of the mask; a die that a PART_SET has made confidential since the
fetch bars it too. -/
def execDebugSet (port tag : Nat) (s : State) : Host.Outcome State Fault Refusal :=
  done <| command 0x0A07 port tag s
    (fun fl =>
      let m := bits (par fl 0) 0 16
      [((bitList 16 m).any (confDie s), sNOT_PERMITTED), (decide (par fl 0 / 2 ^ 18 ≠ 0), sRESERVED),
       (decide (m = 0) || (bitList 16 m).any (fun d => !isPresent s d), sBAD_PARAM)])
    (fun fl s =>
      let m := bits (par fl 0) 0 16
      let turned (old : Nat) (on : Bool) : Nat := if on then old ||| m else bitsClear old m
      let dbg := turned (get s R.SEC_DBG.DBG) (bit (par fl 0) 16)
      let prof := turned (get s R.SEC_DBG.PROF) (bit (par fl 0) 17)
      s |> putDebug dbg prof |> when (decide (get s R.SEC_DBG.DBG ≠ dbg ∨ get s R.SEC_DBG.PROF ≠ prof)) bumpGen |> complete fl sOK 0 0)

/-! The SPDM responder (R508 to R516). -/

/-- n bytes of free value. -/
def freeBytes (s : State) (n : Nat) : List Nat := leBytes n (fresh s)

/-- ERROR codes of DSP0274 that the responder uses. -/
def eInvalidRequest : Nat := 0x01
def eUnexpected : Nat := 0x04
def eDecrypt : Nat := 0x06
def eUnsupported : Nat := 0x07
def eTooLarge : Nat := 0x0D
def eVersion : Nat := 0x41

/-- An ERROR response. -/
def spdmError (code data : Nat) : List Nat := [0x12, 0x7F, code, data]

/-- What the device key signs in the alias certificate: bytes that bind the alias key of this boot to the firmware digest
(R508; log 15). -/
def aliasBytes (s : State) : List Nat :=
  let (x, y) := (ecMul s.sec.aliasKey p384G).getD (0, 0)
  let key := (x * 2 ^ 384 + y) * 2 ^ 384 + get s R.BOOT_DIG.DIGEST
  (List.range (Config.chainLength 1 key % 2 ^ 14)).map fun i => Config.deviceByte 2 key i % 256

/-- The certificate chain of a slot: 0 the device chain fused at manufacture, 1 that of the alias certificate, which the
device key issued at this boot (R508). -/
def chainBytes (s : State) (slot : Nat) : List Nat :=
  let b := if slot = 0 then (List.range (Config.chainLength 0 0 % 2 ^ 14)).map fun i => Config.deviceByte 1 0 i % 256
    else aliasBytes s ++ ecdsaSign s.sec.deviceKey s.sec.aliasNonce (aliasBytes s)
  leBytes 2 (b.length + 4) ++ [0, 0] ++ b

/-- The value of measurement block i for a target partition (R512). Blocks 4 and 5 hold what R512 lists in its order, each
in whole bytes, and then zeros; of the security fuses the two versions stand as they are, and the two key digests in
12 bytes of a form that the spec does not give (log 15). -/
def blockValue (s : State) (target i : Nat) : List Nat :=
  match i with
  | 1 => (List.range 48).map fun k => Config.deviceByte 0 0 k % 256
  | 2 => leBytes 48 (get s R.BOOT_DIG.DIGEST)
  | 3 => leBytes 48 (get s R.BOOT_CDIG.DIGEST)
  | 4 =>
    [get s R.GOV_CFG.N_DIES] ++ ((List.range 16).map fun d => get s (R.TOK_DIE_LIM.GRADE d)) ++ [get s R.BOOT_SVN.FW_FUSED, get s R.BOOT_SVN.CFG_FUSED]
      ++ ((List.range 12).map fun k => Config.deviceByte 3 (get s R.BOOT_KEY_FW.DIGEST * 2 ^ 384 + get s R.BOOT_KEY_CFG.DIGEST) k % 256)
      ++ [get s R.SEC_STAT.DBG_LOCK]
  | 5 =>
    let any := target < 16 && (get s R.SEC_DBG.DBG ||| get s R.SEC_DBG.PROF) &&& get s (R.SEC_PART_RES.DIES target) ≠ 0
    [get s R.SEC_STAT.DBG_LOCK] ++ leBytes 2 (get s R.SEC_DBG.DBG) ++ leBytes 2 (get s R.SEC_DBG.PROF) ++ [b2n any, 0, 0]
  | 6 => if target < 16 then (List.range 6).flatMap fun k => leBytes 4 (regWord s 9 (0x101000 + 0x100 * target + 4 * k)) else []
  | 7 => if target < 16 then pubBytes s target else []
  | _ => leBytes 48 s.ring.digest ++ leBytes 4 (get s R.RNG_GEN.GEN)

/-- A measurement block as DSP0274 lays it out: index, specification, size, type, value size, value. -/
def blockBytes (s : State) (target i : Nat) : List Nat :=
  let v := blockValue s target i
  let ty := nth [0, 0x00, 0x01, 0x03, 0x82, 0x85, 0x83, 0x83, 0x83] i
  [i, 1] ++ leBytes 2 (v.length + 3) ++ [ty] ++ leBytes 2 v.length ++ v

/-- The measurement summary hash of a type: none, over all blocks, or over a trusted base that the spec does not
name (a free value). -/
def summaryHash (s : State) (target ty : Nat) : List Nat :=
  if ty = 0 then []
  else if ty = 0xFF then sha384 ((List.range 8).flatMap fun i => blockBytes s target (i + 1))
  else freeBytes s 48

/-- An answer of the responder: its bytes, the port's connection after it, and the partition it attests. -/
structure SpdmAns where
  bytes : List Nat
  conn : Spdm
  attest : Bool
deriving DecidableEq, Repr

/-- A response that leaves the connection as it is. -/
def answer (c : Spdm) (b : List Nat) : SpdmAns := ⟨b, c, false⟩

/-- The signature with the key of a slot over the messages of a transcript, with a context and a nonce, as DSP0274 1.2
forms what is signed (R508; log 16). -/
def spdmSign (s : State) (slot nonce : Nat) (context : String) (messages : List Nat) : List Nat :=
  let text (t : String) : List Nat := t.toList.map (·.toNat)
  let heading := (List.replicate 4 (text "dmtf-spdm-v1.2.*")).flatten
  ecdsaSign (if slot = 0 then s.sec.deviceKey else s.sec.aliasKey) (ecPrivate nonce)
    (heading ++ List.replicate (36 - context.length) 0 ++ text context ++ sha384 messages)

/-- GET_VERSION: a new connection, version 1.2 (R511). -/
def spdmVersion (c : Spdm) (m : List Nat) : SpdmAns :=
  let r := [0x10, 0x04, 0, 0, 0, 1, 0x00, 0x12]
  ⟨r, { Spdm.init with stage := 1, target := c.target, vca := m ++ r }, false⟩

/-- GET_CAPABILITIES (R509). -/
def spdmCapabilities (s : State) (c : Spdm) (m : List Nat) : SpdmAns :=
  let size := leNat ((m.drop 12).take 4)
  if c.stage ≠ 1 then answer c (spdmError eUnexpected 0)
  else if m.length < 20 ∨ size < 42 then answer c (spdmError eInvalidRequest 0)
  else
    let r := [0x12, 0x61, 0, 0, 0, fresh s % 32, 0, 0] ++ leBytes 4 0x8296 ++ leBytes 4 1000 ++ leBytes 4 1000
    ⟨r, { c with stage := 2, size := size, vca := c.vca ++ m ++ r }, false⟩

/-- The algorithm structures of a NEGOTIATE_ALGORITHMS request: type and what is supported. -/
def algStructs : Nat → List Nat → List (Nat × Nat)
  | 0, _ => []
  | n + 1, m => (nth m 0, leNat ((m.drop 2).take 2)) :: algStructs n (m.drop (4 + 4 * (nth m 1 % 16)))

/-- NEGOTIATE_ALGORITHMS (R510). -/
def spdmAlgorithms (c : Spdm) (m : List Nat) : SpdmAns :=
  let n := nth m 2
  let ext := 4 * (nth m 28 + nth m 29)
  let al := algStructs n (m.drop (32 + ext))
  let offers (t b : Nat) : Bool := al.any fun a => a.1 = t && bit a.2 b
  if c.stage ≠ 2 then answer c (spdmError eUnexpected 0)
  else if m.length < 32 + ext + 4 * n then answer c (spdmError eInvalidRequest 0)
  else if bit (nth m 6) 0 ∧ bit (leNat ((m.drop 8).take 4)) 7 ∧ bit (leNat ((m.drop 12).take 4)) 1 ∧ offers 2 4 ∧ offers 3 1 then
    let sel (t : Nat) : Nat := if t = 2 then 0x10 else if t = 3 then 2 else if t = 5 then 1 else 0
    let out := al.flatMap fun a => [a.1, 0x20] ++ leBytes 2 (sel a.1)
    let r := [0x12, 0x63, n, 0] ++ leBytes 2 (36 + 4 * n) ++ [1, nth m 7 &&& 2] ++ leBytes 4 4 ++ leBytes 4 0x80 ++ leBytes 4 2
      ++ List.replicate 16 0 ++ out
    ⟨r, { c with stage := 3, vca := c.vca ++ m ++ r }, false⟩
  else answer c (spdmError eInvalidRequest 0)

/-- GET_DIGESTS (R508, R509). -/
def spdmDigests (s : State) (c : Spdm) (m : List Nat) : SpdmAns :=
  let r := [0x12, 0x01, 0, 3] ++ sha384 (chainBytes s 0) ++ sha384 (chainBytes s 1)
  answer { c with certs := c.certs ++ m ++ r, meas := [] } r

/-- GET_CERTIFICATE (R508). -/
def spdmCertificate (s : State) (c : Spdm) (m : List Nat) : SpdmAns :=
  let slot := nth m 2
  let ch := chainBytes s slot
  let o := leNat ((m.drop 4).take 2)
  let n := min (leNat ((m.drop 6).take 2)) (ch.length - o)
  if m.length < 8 ∨ 1 < slot ∨ ch.length ≤ o then answer c (spdmError eInvalidRequest 0)
  else
    let r := [0x12, 0x02, slot, 0] ++ leBytes 2 n ++ leBytes 2 (ch.length - o - n) ++ (ch.drop o).take n
    answer { c with certs := c.certs ++ m ++ r, meas := [] } r

/-- CHALLENGE (R509). -/
def spdmChallenge (s : State) (c : Spdm) (m : List Nat) : SpdmAns :=
  let slot := nth m 2
  let ty := nth m 3
  if m.length < 36 ∨ 1 < slot ∨ ty ∉ [0, 1, 0xFF] then answer c (spdmError eInvalidRequest 0)
  else
    let r := [0x12, 0x03, slot, 3] ++ sha384 (chainBytes s slot) ++ freeBytes s 32 ++ summaryHash s c.target ty ++ [0, 0]
    answer { c with certs := [], meas := [] }
      (r ++ spdmSign s slot (fresh (drawn s)) "responder-challenge_auth signing" (c.vca ++ c.certs ++ m ++ r))

/-- GET_MEASUREMENTS (R512): the count, one block or all of them, signed where asked. -/
def spdmMeasurements (s : State) (c : Spdm) (m : List Nat) : SpdmAns :=
  let sign := bit (nth m 2) 0
  let op := nth m 3
  let slot := nth m 36
  if m.length < (if sign then 37 else 4) ∨ (8 < op ∧ op ≠ 0xFF) ∨ (sign ∧ 1 < slot) then answer c (spdmError eInvalidRequest 0)
  else
    let ids := if op = 0xFF then [1, 2, 3, 4, 5, 6, 7, 8] else if op = 0 then [] else [op]
    let r := ids.flatMap (blockBytes s c.target)
    let r := [0x12, 0x60, if op = 0 then 8 else 0, if sign then slot else 0, ids.length] ++ leBytes 3 r.length ++ r
      ++ freeBytes s 32 ++ [0, 0]
    let l := c.meas ++ m ++ r
    if sign then answer { c with meas := [] } (r ++ spdmSign s slot (fresh (drawn s)) "responder-measurements signing" (c.vca ++ l))
    else answer { c with meas := l } r

/-- KEY_EXCHANGE (R511, R514): the session replaces that of the connection. -/
def spdmKeyExchange (s : State) (c : Spdm) (m : List Nat) : SpdmAns :=
  let ty := nth m 2
  let slot := nth m 3
  if m.length < 138 ∨ 1 < slot ∨ ty ∉ [0, 1, 0xFF] then answer c (spdmError eInvalidRequest 0)
  else
    let r := [0x12, 0x64, 0, 0] ++ freeBytes s 2 ++ [0, 0] ++ freeBytes (drawn s) 128 ++ summaryHash s c.target ty ++ [0, 0]
    ⟨r ++ spdmSign s slot (fresh (drawn (drawn s))) "responder-key_exchange_rsp signing" (c.vca ++ sha384 (chainBytes s slot) ++ m ++ r),
      { c with session := 1, allBlocks := ty = 0xFF, meas := [] }, false⟩

/-- FINISH (R514). Whether the requester's HMAC verifies is a free value: the session secret is one. -/
def spdmFinish (s : State) (c : Spdm) (m : List Nat) : SpdmAns :=
  if c.session ≠ 1 then answer c (spdmError eUnexpected 0)
  else if m.length < 52 then answer c (spdmError eInvalidRequest 0)
  else if fresh s % 2 = 1 then ⟨[0x12, 0x65, 0, 0] ++ freeBytes (drawn s) 48, { c with session := 2 }, c.allBlocks⟩
  else ⟨spdmError eDecrypt 0, { c with session := 0 }, false⟩

/-- The responder's answer to a message on a connection (R509 to R512). -/
def spdmAnswer (s : State) (c : Spdm) (m : List Nat) : SpdmAns :=
  let code := nth m 1
  if m.length < 4 then answer c (spdmError eInvalidRequest 0)
  else if code = 0x84 then spdmVersion c m
  else if code ∉ [0x81, 0x82, 0x83, 0xE0, 0xE1, 0xE3, 0xE4, 0xE5] then answer c (spdmError eUnsupported code)
  else if nth m 0 ≠ 0x12 then answer c (spdmError eVersion 0)
  else if code = 0xE1 then spdmCapabilities s c m
  else if code = 0xE3 then spdmAlgorithms c m
  else if c.stage ≠ 3 then answer c (spdmError eUnexpected 0)
  else if code = 0x81 then spdmDigests s c m
  else if code = 0x82 then spdmCertificate s c m
  else if code = 0x83 then spdmChallenge s c m
  else if code = 0xE0 then spdmMeasurements s c m
  else if code = 0xE4 then spdmKeyExchange s c m
  else spdmFinish s c m

/-- The SPDM output of a port holds a response and zeros beyond it (R545). -/
def putSpdmOut (port : Nat) (b : List Nat) (s : State) : State :=
  let a := sharedArea (0x108000 + 0x1000 * port)
  s |> wipe a (a + 0x1000) |> writeBytes a b

/-- The connection a message of a port goes to: a message that names another target starts a new one (R511). -/
def spdmConn (s : State) (port target : Nat) : Spdm :=
  let c := sget Spdm.init port s.sec.spdm
  if c.target = target then c else { Spdm.init with target := target }

/-- A response within the requester's DataTransferSize and the 4,096 bytes of SEC_SPDM_OUT, else ERROR
ResponseTooLarge (R509). -/
def fitResponse (c : Spdm) (a : SpdmAns) : SpdmAns :=
  let n := a.bytes.length
  if 4096 < n ∨ (2 ≤ c.stage ∧ c.size < n) then answer c (spdmError eTooLarge 0 ++ leBytes 4 n) else a

/-- SPDM_MSG, R539. Padding is what the last word of the request holds beyond it; a packet of more or fewer words than the
length asks for does not match it. -/
def execSpdmMsg (port tag : Nat) (s : State) : Host.Outcome State Fault Refusal :=
  done <| command 0x0A04 port tag s
    (fun fl =>
      let n := bits (par fl 0) 0 10
      let t := fl.target
      let pad := (((fl.params.drop 1).flatMap (leBytes 4)).take (4 * ((n + 3) / 4))).drop n
      [(decide (par fl 0 / 2 ^ 10 ≠ 0) || pad.any (· ≠ 0), sRESERVED),
       (decide (n = 0 ∨ 1000 < n ∨ fl.params.length ≠ 1 + (n + 3) / 4 ∨ (16 ≤ t ∧ t ≠ 0x3F)), sBAD_PARAM),
       (decide (t < 16 ∧ partState s t ≠ ptACTIVE ∧ partState s t ≠ ptATTESTED), sWRONG_STATE),
       (s.host.flights.any (fun f => f.port = fl.port && f.opcode = 0x0A04 && decide (f.seq < fl.seq)), sBUSY),
       (decide (nth (paramBytes fl 1 n) 1 = 0xE4) && noEntropy s, sINTEGRITY)])
    (fun fl s =>
      let c := spdmConn s fl.port fl.target
      let a := fitResponse c (spdmAnswer s c (paramBytes fl 1 (bits (par fl 0) 0 10)))
      let s := drawn (drawn (drawn s))
      let enter := a.attest && decide (fl.target < 16 ∧ partState s fl.target = ptACTIVE)
      s |> setSpdm fl.port a.conn
        |> when enter (fun s => s |> put (R.SEC_PART_CFG.STATE fl.target) ptATTESTED |> event R.SEC_EVENT 1)
        |> putSpdmOut fl.port a.bytes |> complete fl sOK a.bytes.length 0)

/-- A firmware restart, or a reset of the governor, ends every SPDM connection (R516, R628). -/
def endSpdm (s : State) : State := { s with sec := { s.sec with spdm := [] } }

end Sys2Proof.Machine
end

