-- ==== Sys2Proof/Machine/Boot.lean ====
section
/-! DEFINITION. Sys2Proof/Machine/Boot.lean: boot stages as states, resets, package states, the power-down sequence and
firmware restarts (R617 to R620, R627 to R642, R649). What the ROM and firmware do in LOAD and FW stands in
Startup.lean. -/

namespace Sys2Proof.Machine

/-! Stages. -/

/-- A stage entered, whose bound runs from now (R618), with the record of R654 for READY, DOWN, OFF and BOOT_FAIL. -/
def goStage (n : Nat) (s : State) : State :=
  s |> put R.BOOT_STAT.STAGE n |> setBoot { s.boot with stageUs := s.us }
    |> when (decide (stREADY ≤ n)) (fun s => record 0x0107 (n + get s R.BOOT_STAT.CAUSE * 2 ^ 8) s)

/-- BOOT_FAIL with a cause (R618, R620); the ring is bypassed (R679). -/
def bootFail (cause : Nat) (s : State) : State :=
  s |> ringLeave |> put R.BOOT_STAT.CAUSE cause |> goStage stFAIL |> setPins { s.pins with pwrgood := false } |> faultOn 12
    |> when (cause = 5) (record 0x0C02 cause)

/-- Stage VIN (R618): OPERATION on for each converter that takes part. -/
def goVin (s : State) : State :=
  s |> goStage 5 |> each (convIn s) (operate 0x80)

/-- Stage CORE (R618): VLINK is enabled; VCORE follows once it is in TRACK. -/
def goCore (s : State) : State := s |> goStage 6 |> railEnable 32

/-- Stage MEM (R618): VMEM of every present die. -/
def goMem (s : State) : State :=
  s |> goStage 8 |> each ((dies s).filter fun d => !bit s.boot.lostHold d) (fun d => railEnable (16 + d))

/-- Stage READY (R618, R619, R632): PKG_RESET_N is released and the package is in G0. -/
def goReady (s : State) : State :=
  s |> goStage stREADY
    |> setPins { s.pins with pkgResetN := true }
    |> when (get s R.BOOT_STAT.GSTATE ≠ 0) (record 0x0108 0)
    |> put R.BOOT_STAT.GSTATE 0 |> put R.BOOT_GSTATE.BUSY 0 |> setBoot { s.boot with change := 0, runUs := 0 }

/-- Every loop of a list is in TRACK (R618). -/
def railsUp (s : State) (l : List Nat) : Bool := l.all fun r => loopState s r = lpTRACK

/-- The dies that no LOST rail holds. -/
def liveDies (s : State) : List Nat := (dies s).filter fun d => !bit s.boot.lostHold d

/-- SUPPLY_GOOD, R617. -/
def execSupplyGood (s : State) : Host.Outcome State Fault Refusal := 
  done (if stage s = 0 then s |> setPins { s.pins with off := false } |> setClk { s.clk with goodUs := s.us } |> goStage 1 else s)

/-- P0 owns every die and stack that is present and their queue groups, and every link port (R498). -/
def ownPresent (s : State) : State :=
  s |> put (R.SEC_PART_RES.DIES 0) (2 ^ nDies s - 1) |> put (R.SEC_PART_RES.STACKS 0) (2 ^ nStacks s - 1) |> put (R.SEC_PART_QG.COUNT 0) (16 * nDies s)

/-- COLD_RESET, R433, R498, R617, R635, R679: everything at its reset value but the fuses and the flash; FEED_ID is sampled. The queue of commands,
the log of what left the block and the counter of free values are not the block's own and go on. -/
def effColdReset (feed : Nat) (off : Bool) (s : State) : State :=
  { State.reset with
    pending := s.pending, out := s.out, free := s.free, pins := { Pins.init with feedId := feed % 64, off := off },
    regs := s.regs.filter (fun e => keyClass e.1 = retCode Ret.fuse),
    mem := s.mem.filter fun e => decide (48 * 2 ^ 22 ≤ e.1) }
    |> put R.RNG_STAT2.FEED_ID (feed % 64) |> ownPresent

/-- COLD_RESET. -/
def execColdReset (cause : ColdCause) (s : State) : Host.Outcome State Fault Refusal := done (effColdReset cause.feed cause.off s)

/-! Power-down. -/

/-- Every grant 0 at once, filler stopped (R636). -/
def stopIssue (d : Nat) (s : State) : State :=
  s |> setTok d { tokOf s d with grant := 0, warm := 0, episode := false, gated := false }
    |> put (R.TOK_DIE_STAT.ZERO d) 1 |> put (R.FIL_DIE_STAT.EPISODE d) 0 |> put (R.FIL_DIE_STAT.WARM d) 0

/-- The power-down sequence with a cause (R636): the rails OFF in order, then OPERATION off for THERM and REQUEST
(R636), GOV_PWRGOOD low for REQUEST (R633). Warm-up is not judged again (R637). -/
def powerDown (cause : Nat) (s : State) : State :=
  s |> put R.BOOT_STAT.CAUSE cause |> goStage stDOWN
    |> setPins { s.pins with pkgResetN := false, memEn := 0, pwrgood := s.pins.pwrgood && cause ≠ 10 }
    |> each (dies s) stopIssue
    |> each (List.range 16) railOff |> each ((List.range 16).map (16 + ·)) railOff |> railOff 32
    |> goStage stOFF
    |> when (decide (cause = 9 ∨ cause = 10)) (fun s => each (convIn s) (operate 0) s)
    |> put R.BOOT_STAT.GSTATE 0 |> put R.BOOT_GSTATE.BUSY 0
    |> when (get s R.FIL_WARM_STAT.STATE = 1) (put R.FIL_WARM_STAT.STATE 0)
    |> (fun s => setBoot { s.boot with downCause := 0, change := 0, warmed := true, dieRst := 0, accRst := false, selfRef := 0 } s)

/-- POWER_DOWN, R636: a power-down that is due, in the stages in which a rail can be on. -/
def execPowerDown (s : State) : Host.Outcome State Fault Refusal :=
  done (if s.boot.downCause ≠ 0 ∧ 5 ≤ stage s ∧ stage s ≤ stREADY then powerDown s.boot.downCause s else s)

/-- The return from OFF through VIN (R637). -/
def leaveOff (s : State) : State :=
  s |> put R.BOOT_STAT.CAUSE 0 |> setPins { s.pins with pwrgood := true } |> setBoot { s.boot with warmed := true } |> goVin

/-- AUTO_RESTART, R637: VIN has stayed at or above WARN + HYST for RESTART_MS. -/
def execAutoRestart (s : State) : Host.Outcome State Fault Refusal :=
  done (if stage s = stOFF ∧ get s R.BOOT_STAT.CAUSE = 8 ∧ isOn s R.BOOT_CFG.AUTO_RESTART ∧ 2 ≤ s.capp.above
      ∧ get s R.BOOT_CFG.RESTART_MS * 1000 ≤ s.us - s.capp.aboveUs then leaveOff s else s)

/-! Package states. -/

/-- A change of G state begins (R632). -/
def startChangeG (c : Nat) (s : State) : State :=
  s |> put R.BOOT_GSTATE.BUSY 1 |> setBoot { s.boot with change := c, selfRef := 0, changeUs := s.us }

/-- Out of G1: clocks run again and every SHED phase is un-shed (R632). -/
def leaveG1 (s : State) : State := s |> each (dies s) (gateClock false) |> each (allRails s) (unshedAll 0)

/-- A write of REQ that R633 lets through. -/
def requestG (req : Nat) (s : State) : State :=
  let g := get s R.BOOT_STAT.GSTATE
  let st := stage s
  match req with
  | 0 =>
    if st = stOFF then
      let c := get s R.BOOT_STAT.CAUSE
      if c = 6 ∨ c = 7 ∨ c = 10 ∨ (c = 9 ∧ !isOn s R.THM_TRIP.ACTIVE) then leaveOff s else s
    else if st ≠ stREADY then s
    else if g = 1 then s |> leaveG1 |> enterG 0
    else if g = 2 then s |> each (dies s) (gateClock false) |> startChangeG 1 |> goCore
    else s
  | 1 => if g = 0 then s |> startChangeG 2 |> settleChange else s
  | 2 => if g = 2 then s else s |> startChangeG 3 |> each (dies s) (fun d => emit (.selfRefresh d))
  | _ =>
    if st = stOFF ∨ st = stFAIL then setPins { s.pins with pwrgood := false } s
    else s |> startChangeG 4 |> settleChange

/-- R633: what rejects a write of REQ. -/
def requestBad (s : State) (req : Nat) : Bool :=
  isOn s R.BOOT_GSTATE.BUSY || (decide (req = 1 ∨ req = 2) && (stage s ≠ stREADY || decide (1 < get s R.BOOT_STAT.GSTATE)))
    || (req = 2 && (isOn s R.HNG_STAT.SEQ_BUSY || (List.range 16).any fun p => partState s p = ptSCRUBBING))

/-- SELF_REFRESH_REPORT, R632, R635: once every die has reported, G2. -/
def effSelfRefreshReport (d : Nat) (s : State) : State :=
  if s.boot.change = 3 then
    let m := setBit s.boot.selfRef d
    let s := setBoot { s.boot with selfRef := m } s
    if m = 2 ^ nDies s - 1 then
      s |> setPins { s.pins with pkgResetN := false } |> each (dies s) stopIssue
        |> each (dies s) railOff |> railOff 32 |> clearAcc |> enterG 2
    else s
  else s

/-- SELF_REFRESH_REPORT. -/
def execSelfRefreshReport (report : Arrival) (s : State) : Host.Outcome State Fault Refusal :=
  done (acceptFrame true tyBULK report.die report.frame (effSelfRefreshReport report.die) s)

/-- G2_ABANDONED, R634: a die has not reported 1 ms after the request. The record names all that have not. -/
def effG2Abandoned (d : Nat) (s : State) : State :=
  if s.boot.change = 3 ∧ isPresent s d ∧ !bit s.boot.selfRef d ∧ 1000 ≤ s.us - s.boot.changeUs then
    let left := 2 ^ nDies s - 1 - s.boot.selfRef
    s |> leaveG1 |> put R.BOOT_GSTATE.REQ 0 |> enterG 0 |> record 0x010A left
  else s

/-- G2_ABANDONED. -/
def execG2Abandoned (die : Nat) (s : State) : Host.Outcome State Fault Refusal := done (effG2Abandoned die s)

/-! Resets. -/

/-- A die reset starts (R628, R629, R635); the link's sequence numbers start anew with the agent. -/
def startDieReset (m : Nat) (s : State) : State :=
  s |> setBoot { s.boot with dieRst := s.boot.dieRst ||| m } |> record 0x0109 (3 + m * 2 ^ 16)
    |> each (bitList 16 m) (fun d s => s |> dieCleared d |> restartLink d)

/-- A die leaves reset (R507, R629), or the hold of a LOST rail once both its loops are in TRACK (R638). -/
def effDieResetEnd (d : Nat) (s : State) : State :=
  let held := bit s.boot.lostHold d
  if isPresent s d ∧ (bit s.boot.dieRst d ∨ held) ∧ !(held && !(loopState s d = lpTRACK && loopState s (16 + d) = lpTRACK)) then
    s |> reloadDie d |> setBoot { s.boot with dieRst := clrBit s.boot.dieRst d, lostHold := clrBit s.boot.lostHold d }
      |> sendTokens d |> showEmpty d |> refit d
  else s

/-- DIE_RESET_END. -/
def execDieResetEnd (die : Nat) (s : State) : Host.Outcome State Fault Refusal := done (effDieResetEnd die s)

/-- An accelerator reset starts (R628). -/
def startAccReset (s : State) : State :=
  s |> setBoot { s.boot with accRst := true, accUs := s.us } |> setPins { s.pins with pkgResetN := false } |> record 0x0109 2 |> accCleared
    |> each (dies s) restartLink

/-- ACC_RESET_END, R507, R535, R628: PKG_RESET_N has been low for PKG_RST_US. -/
def effAccResetEnd (s : State) : State :=
  if s.boot.accRst ∧ get s R.BOOT_CFG2.PKG_RST_US ≤ s.us - s.boot.accUs then
    s |> each (List.range 16) reloadPart |> setBoot { s.boot with accRst := false } |> setPins { s.pins with pkgResetN := true }
      |> each (dies s) (fun d s => s |> sendTokens d |> showEmpty d |> refit d)
  else s

/-- ACC_RESET_END. -/
def execAccResetEnd (s : State) : Host.Outcome State Fault Refusal := done (effAccResetEnd s)

/-- What waits for a command no longer names its flight, which is gone, and a change or a model switch that waits goes
with it (R386, R567, R642). -/
def orphan (s : State) : State :=
  let gone := 99
  { s with
    host := { s.host with flights := [], mbxIn := [], mbxOut := [] },
    capp := { s.capp with watches := [], deferred := [] },
    test := { s.test with port := gone },
    estp := { s.estp with switch := none },
    log := { s.log with clear := s.log.clear.map fun c => (gone, c.2) },
    sec := { s.sec with spdm := [] },
    boot := { s.boot with fwCmd := none, restart := none, slot := none, aborts := [] } }
    |> each (List.range 16) (fun d s => setItn d { itnOf s d with forced := [] } s)
    |> each (List.range 16) (fun p s => setPart p { partOf s p with
        op := (partOf s p).op.map fun o => { o with port := gone }, scrub := (partOf s p).scrub.map fun c => { c with port := gone } } s)

/-- The windows of class GOV (R21, R545, R592): each port's queues and the SPDM responses. -/
def wipeWindows (s : State) : State :=
  s |> each (List.range 10) (fun p => wipe (portArea p 0x300000) (portArea p 0x341000)) |> wipe (sharedArea 0x108000) (sharedArea 0x112000)

/-- The copies of the members' slots, cleared with their registers (R454, R635). -/
def dropCopies (s : State) : State := { s with ring := { s.ring with copies := [] } }

/-- A governor warm reset starts (R628, R631, R635, R437, R567): its LOAD and FW stages run again, the stage shown
stays as it is, since compute goes on. -/
def startWarm (s : State) : State :=
  let s := s |> ringLeave
  let ring := get s R.CAP_RING.BUDGET
  let busy := get s R.BOOT_GSTATE.BUSY
  s |> orphan |> clearClass .gov |> dropCopies |> wipeWindows |> put R.CAP_RING.BUDGET ring
    |> put R.BOOT_GSTATE.BUSY busy |> put R.CAP_IIN_EFF.IIN (iinEff s)
    |> put R.BOOT_STAT.AUTOPILOT 1 |> addWrap R.CMD_GEN.WARM 1 |> event R.SAF_EVENT 6 |> record 0x0109 1
    |> when (get s R.BOOT_STAT.CAUSE = 5) (put R.BOOT_STAT.CAUSE 0) |> (fun s => { s with therm := { s.therm with reported := 0 } })
    |> (fun s => setBoot { s.boot with govRst := true, loaded := false, govUs := s.us } s) |> recovWarm
    |> each (List.range 16) scrubAgain

/-- A governor warm reset out of BOOT_FAIL (R620, R631, R437): boot goes on from LOAD, or from FUSE where the check of the
fuses had failed, which is made again (R9; log 39). -/
def leaveBootFail (s : State) : State :=
  let st := if get s R.BOOT_STAT.CAUSE = 1 then 2 else 3
  let s := s |> ringLeave |> orphan
  let ring := get s R.CAP_RING.BUDGET
  s |> clearClass .gov |> dropCopies |> wipeWindows |> put R.CAP_RING.BUDGET ring |> put R.CAP_IIN_EFF.IIN (iinEff s) |> addWrap R.CMD_GEN.WARM 1
    |> event R.SAF_EVENT 6 |> record 0x0109 1 |> put R.BOOT_STAT.CAUSE 0 |> faultOff 12 |> recovWarm |> goStage st

/-! Firmware restarts. -/

/-- The commands that firmware has begun whose effect has not come: a change that waits (R368), and a model that waits for
its switch (R242). -/
def begun (s : State) : List (Nat × Nat) :=
  ((s.capp.deferred.filter fun x => x.opcode ≠ 0).map fun x => (x.port, x.tag)) ++ s.estp.switch.toList.map fun w => (w.port, w.tag)

/-- A restart catches what firmware has begun: no setting and no model changes (R642), and each such command completes with
ABORTED after the restart (R566). -/
def catchBegun (s : State) : State :=
  { s with
    boot := { s.boot with aborts := begun s }, capp := { s.capp with deferred := s.capp.deferred.filter fun x => x.opcode = 0 },
    estp := { s.estp with switch := none } }

/-- A trigger of a firmware restart (R639 to R642): 0 lockstep, 1 watchdog, 2 SRAM, 3 firmware, 4 command, which the ROM
takes after a failed governor warm reset as well (R631, R646). Where RESTART_N restarts fall within RESTART_S seconds, a
governor warm reset takes its place. -/
def trigger (k : Nat) (s : State) : State :=
  if s.boot.restart.isSome ∨ !(coresUp s || (k = 4 && s.boot.govRst && romServes s)) then s
  else
    let near := s.boot.restarts.filter fun t => decide (s.us - t < get s R.SAF_CFG.RESTART_S * 1000000)
    if get s R.SAF_CFG.RESTART_N ≤ near.length then startWarm s
    else
      s |> put R.BOOT_STAT.AUTOPILOT 1 |> addSat R.BOOT_CNT.FW_RESTARTS 1 |> event R.SAF_EVENT 5 |> record 0x0C01 k
        |> setBoot { s.boot with restart := some k, restarts := near ++ [s.us], runUs := 0 } |> catchBegun |> endSpdm

/-- LOCKSTEP_MISMATCH, R639. -/
def execLockstepMismatch (s : State) : Host.Outcome State Fault Refusal :=
  done (s |> event R.SAF_EVENT 0 |> addSat R.SAF_CNT.LOCKSTEP 1 |> trigger 0)

/-- WATCHDOG_EXPIRE, R639: while firmware runs, TIMEOUT_MS without a kick. -/
def execWatchdogExpire (s : State) : Host.Outcome State Fault Refusal :=
  done (if fwRuns s ∧ get s R.SAF_WDT.TIMEOUT_MS * 1000 ≤ s.boot.wdt then s |> event R.SAF_EVENT 1 |> setBoot { s.boot with wdt := 0 } |> trigger 1 else s)

/-- SRAM_UE, R639. -/
def execSramUe (s : State) : Host.Outcome State Fault Refusal := done (s |> event R.SAF_EVENT 3 |> trigger 2)

/-- SRAM_CE, R639: corrected and counted. -/
def execSramCe (count : Nat) (s : State) : Host.Outcome State Fault Refusal :=
  done (if count = 0 then s else s |> event R.SAF_EVENT 2 |> addSat R.SAF_CNT.SRAM_CE count)

/-- FW_REQUEST, R639. -/
def execFwRequest (s : State) : Host.Outcome State Fault Refusal := done (trigger 3 s)

/-- The SHA-384 of the firmware region of SRAM is that of BOOT_DIG (R640). -/
def sramGood (s : State) : Bool := leNat (sha384 (readBytes s (sramArea 0) s.boot.fwLen)) = get s R.BOOT_DIG.DIGEST

/-- A restart ends with firmware at ENTRY again (R640, R642): AUTOPILOT ends, but in a governor warm reset, whose FW stage
begins anew (R631; log 39); the commands that waited for it complete (R566, R646). -/
def restartOver (s : State) : State :=
  let cmds := (s.boot.fwCmd.toList.map fun x => (x, sOK)) ++ s.boot.aborts.map fun x => (x, sABORTED)
  s |> setBoot { s.boot with restart := none, fwCmd := none, aborts := [], wdt := 0, loaded := true, govUs := s.us }
    |> (fun s => if s.boot.govRst then when (get s R.BOOT_STAT.CAUSE = 5) (put R.BOOT_STAT.CAUSE 0) s else put R.BOOT_STAT.AUTOPILOT 0 s)
    |> each cmds (fun x => completeAt x.1.1 x.1.2 x.2 0 0)

/-- FW_RESTART_DONE, R640, R642, R646, with the bytes of SRAM that changed since firmware was loaded. -/
def effFwRestartDone (upsets : List (Nat × Nat)) (s : State) : State :=
  match s.boot.restart with
  | none => s
  | some _ =>
    let s := each upsets (fun u => writeBytes (sramArea (u.1 % 2 ^ 22)) [u.2]) s
    if sramGood s then restartOver s else startWarm s

/-- FW_RESTART_DONE. -/
def execFwRestartDone (upsets : List (Nat × Nat)) (s : State) : Host.Outcome State Fault Refusal := done (effFwRestartDone upsets s)

/-- SVN_ADV, R627: kind 0 firmware, 1 configuration; the image has run for 60 s in READY. -/
def effSvnAdv (kind : Nat) (s : State) : State :=
  let fuse := if kind = 0 then R.BOOT_SVN.FW_FUSED else R.BOOT_SVN.CFG_FUSED
  let img := get s (if kind = 0 then R.BOOT_SVN.FW_IMG else R.BOOT_SVN.CFG_IMG)
  let adv := if kind = 0 then s.boot.svnFw else s.boot.svnCfg
  if kind < 2 ∧ adv ∧ get s fuse < img ∧ stage s = stREADY ∧ fwRuns s ∧ 60000000 ≤ s.boot.runUs then s |> blow fuse img |> each (List.range 16) loseAttest |> record 0x0C05 (img + kind * 2 ^ 8) else s

/-- SVN_ADV. -/
def execSvnAdv (kind : Nat) (s : State) : Host.Outcome State Fault Refusal := done (effSvnAdv kind s)

/-! The scan of the settings (R649). -/

/-- The blocks that the scan covers, by the address map of R681: their first offsets and those after them (log 98). -/
def scanBlocks : List (Nat × Nat) :=
  [(0x020000, 0x040000), (0x040000, 0x060000), (0x080000, 0x080800), (0x0A0000, 0x0C0000), (0x0C0000, 0x0D0000)]

/-- The fields of the scan: each RW field of class KEEP in those blocks, in the order of their offsets. -/
def scanFields : List Field :=
  (allGroups.filter fun g => scanBlocks.any fun b => decide (b.1 ≤ g.base ∧ g.base < b.2)).flatMap fun g =>
    (List.range g.count).flatMap fun i => (g.fields 0 i).filter fun f => f.acc = Acc.rw && f.cls = Ret.keep

/-- The CRC-32 over the fields, each as a 32-bit word (log 98). -/
def scanCrc (val : Field → Nat) : Nat := crc32 (scanFields.flatMap fun f => leBytes 4 (val f))

/-- The value of a field that the reference holds: that of the last accepted write. -/
def refValue (s : State) (f : Field) : Nat :=
  match s.boot.upset.find? fun e => e.1 = fieldKey f with
  | some e => e.2
  | none => get s f

/-- Setting bits flipped: the reference keeps what an accepted write left. -/
def flip (u : Upset) (s : State) : State :=
  each ((fieldsAt 0 u.offset).filter fun f => scanFields.contains f) (fun f s =>
    let m := carried u.offset u.mask f
    if m = 0 then s
    else s |> setBoot { s.boot with upset := if s.boot.upset.any (fun e => e.1 = fieldKey f) then s.boot.upset else s.boot.upset ++ [(fieldKey f, get s f)] }
      |> put f (get s f ^^^ m)) s

/-- Whether a scan finds a mismatch; without an upset both CRCs are of the same values. -/
def scanFails (s : State) : Bool := !s.boot.upset.isEmpty && scanCrc (get s) ≠ scanCrc (refValue s)

/-- The offset of the first mismatched word (R653). -/
def firstBad (s : State) : Nat :=
  match (scanFields.filter fun f => get s f ≠ refValue s f).map fun f => f.off with
  | [] => 0
  | a :: t => t.foldl min a

/-- CONFIG_SCAN, R649, over the settings as the upsets since the last scan left them. -/
def effConfigScan (upsets : List Upset) (s : State) : State :=
  let s := each upsets flip s
  if scanFails s then
    let bad := firstBad s
    s |> put R.SAF_SCAN.LAST_BAD bad |> event R.SAF_EVENT 4 |> faultOn 14 |> record 0x0C04 bad
      |> setBoot { s.boot with scanBad := true } |> each (dies s) refit
  else if s.boot.scanBad then s |> setBoot { s.boot with scanBad := false } |> each (dies s) refit else s

/-- CONFIG_SCAN. -/
def execConfigScan (upsets : List Upset) (s : State) : Host.Outcome State Fault Refusal := done (effConfigScan upsets s)

/-- An accepted write of fields updates the reference of the scan (R649). -/
def scanFollows (l : List Field) (s : State) : State :=
  if s.boot.upset.isEmpty then s
  else setBoot { s.boot with upset := s.boot.upset.filter fun e => !(l.any fun f => fieldKey f = e.1) } s

end Sys2Proof.Machine
end

