-- ==== Sys2Proof/Machine/Host.lean ====
section
/-! DEFINITION. Sys2Proof/Machine/Host.lean: the host ports: fetching and judging packets, queue pointers,
notifications, mailboxes, locks, violations, and the CCCs of the BMC port (R546 to R592). -/

namespace Sys2Proof.Machine

/-- The host interface changed. -/
def setHost (v : HostH) (s : State) : State := { s with host := v }

/-- The I3C target changed. -/
def setI3c (v : I3cH) (s : State) : State := { s with i3c := v }

/-- The answer of an access. -/
def respond (p data : Nat) (err : Bool) (s : State) : State := { s with resp := [⟨p, data, err⟩] }

/-- A window access of a port ends its wake signal (R581). -/
def touch (p : Nat) (s : State) : State := { s with pins := { s.pins with wake := clrBit s.pins.wake p } }

/-- An access to a window that does not answer: an error response, a read returns all ones (R549, R678). -/
def noAnswer (p : Nat) (s : State) : State := respond p 0xFFFFFFFF true s

/-! Authority. -/

/-- Whether a port may write the register at an offset: the access paragraphs of each chapter's Registers
section. An offset of a register that only RO fields fill may still be written, with no effect (R16). -/
def mayWrite (s : State) (p off : Nat) : Bool :=
  if off < 0x010000 then true
  else if off = 0x0E0034 then true
  else if off < 0x100000 then isOper s p
  else if off < 0x120000 then isOper s p && (off = 0x100004 || off = 0x100008)
  else if off < 0x140000 then true
  else if off < 0x160000 then off = 0x140010 || (off = 0x14000C && isOper s p)
  else if off < 0x200000 then (if off = 0x16010C then p = 9 else isOper s p)
  else if 0x3F0000 ≤ off ∧ off < 0x3F8000 then isOper s p
  else !(decide (off < 0x300000 ∨ (0x380000 ≤ off ∧ off < 0x381000)))

/-- Whether a register, window or queue entry is assigned to an offset (R682, R686). -/
def offAssigned (p off : Nat) : Bool :=
  if 0x108000 ≤ off ∧ off < 0x112000 then true
  else if off < 0x200000 then assigned p off
  else decide (off < 0x300000) || (decide (off < 0x341000) && decide (p < 9))
    || decide (0x380000 ≤ off ∧ off < 0x381000) || decide (0x3F0000 ≤ off ∧ off < 0x3F8000)

/-- An access that violates (R548, R549, R682): its size, its alignment, an unassigned offset written, or the
port's authority. -/
def violates (s : State) (p off : Nat) (isWrite : Bool) (bytes : Nat) : Bool :=
  bytes ≠ 4 || off % 4 ≠ 0 || (if isWrite then !offAssigned p off || !mayWrite s p off else foreignRead s p off)

/-- ACCESS_VIOLATION, R548, R549, R573: an access outside the port's authority, or of a wrong size or alignment,
returns an error response and is logged. An access that is none of these is not this event. -/
def effAccessViolation (p off : Nat) (isWrite : Bool) (bytes _value : Nat) (s : State) : State :=
  if 10 ≤ p then s
  else if !answers s p off then noAnswer p s
  else if violates s p off isWrite bytes then s |> touch p |> violation p (b2n isWrite) off 0 |> respond p 0 true
  else s

/-- ACCESS_VIOLATION. -/
def execAccessViolation (port offset : Nat) (isWrite : Bool) (bytes value : Nat) (s : State) : Host.Outcome State Fault Refusal :=
  done (effAccessViolation port offset isWrite bytes value s)

/-! Queue pointers (R554 to R557). -/

/-- A value rejected under R20: the write has no effect and is logged with kind VALUE. -/
def rejectValue (p off : Nat) (s : State) : State := s |> violation p 2 off 0 |> respond p 0 false

/-- A write to CMD_SQ_TAIL (R555). -/
def writeSqTail (p value : Nat) (s : State) : State :=
  let new := value % 512
  let head := get s (R.CMD_SQ_HEAD.HEAD p)
  let old := get s (R.CMD_SQ_TAIL.TAIL p)
  let used := (new + 512 - head) % 512
  if 9 ≤ p then s
  else if used ≤ 256 ∧ (new + 512 - old) % 512 ≤ used then s |> put (R.CMD_SQ_TAIL.TAIL p) new |> respond p 0 false
  else rejectValue p 0x120000 s

/-- A write to CMD_CQ_HEAD (R556). -/
def writeCqHead (p value : Nat) (s : State) : State :=
  let new := value % 512
  let tail := get s (R.CMD_CQ_TAIL.TAIL p)
  let old := get s (R.CMD_CQ_HEAD.HEAD p)
  if 9 ≤ p then s
  else if (tail + 512 - new) % 512 ≤ (tail + 512 - old) % 512 then s |> put (R.CMD_CQ_HEAD.HEAD p) new |> respond p 0 false
  else rejectValue p 0x12000C s

/-- A write of a word of a command entry; an entry from head to tail - 1 is not written (R555). -/
def writeEntry (p off value : Nat) (s : State) : State :=
  let i := (off - 0x300000) / 0x400
  let head := get s (R.CMD_SQ_HEAD.HEAD p)
  let used := (get s (R.CMD_SQ_TAIL.TAIL p) + 512 - head) % 512
  if (i + 256 - head % 256) % 256 < used then rejectValue p off s
  else s |> writeWord32 (portArea p off) value |> respond p 0 false

/-- A step of an access to a window that answers. -/
def access (p off : Nat) (f : State → State) (s : State) : State :=
  if 10 ≤ p then s else if answers s p off then s |> touch p |> f else noAnswer p s

/-- CMD_SQ_TAIL_WRITE, R555. -/
def execCmdSqTailWrite (port value : Nat) (s : State) : Host.Outcome State Fault Refusal :=
  done (access port 0x120000 (writeSqTail port value) s)

/-- CMD_CQ_HEAD_WRITE, R556. -/
def execCmdCqHeadWrite (port value : Nat) (s : State) : Host.Outcome State Fault Refusal :=
  done (access port 0x12000C (writeCqHead port value) s)

/-! Fetch (R557 to R564). -/

/-- A row of the opcode table (R570): opcode, whether version 1 has it, and its parameter words (none: its own
conditions judge the length). -/
structure OpRow where
  opcode : Nat
  v1 : Bool
  words : Option Nat
deriving DecidableEq, Repr

/-- Opcodes of groups 0x01 to 0x05. -/
def opRowsA : List OpRow :=
  [⟨0x0101, true, some 1⟩, ⟨0x0102, false, some 0⟩, ⟨0x0103, false, some 1⟩, ⟨0x0201, true, some 1⟩,
   ⟨0x0202, true, some 1⟩, ⟨0x0203, true, some 2⟩, ⟨0x0204, true, some 1⟩, ⟨0x0301, true, some 1⟩,
   ⟨0x0302, true, some 0⟩, ⟨0x0303, true, some 0⟩, ⟨0x0401, false, some 1⟩, ⟨0x0402, false, none⟩,
   ⟨0x0403, false, some 1⟩, ⟨0x0404, false, some 0⟩, ⟨0x0405, false, some 1⟩, ⟨0x0406, false, some 1⟩,
   ⟨0x0501, false, some 1⟩, ⟨0x0502, false, some 1⟩, ⟨0x0503, false, some 2⟩, ⟨0x0504, false, some 0⟩]

/-- Opcodes of groups 0x06 to 0x09. -/
def opRowsB : List OpRow :=
  [⟨0x0601, true, some 2⟩, ⟨0x0602, true, some 17⟩, ⟨0x0603, true, some 1⟩, ⟨0x0604, true, some 1⟩,
   ⟨0x0605, true, some 1⟩, ⟨0x0606, false, some 2⟩, ⟨0x0607, false, some 2⟩, ⟨0x0701, true, some 2⟩,
   ⟨0x0702, true, some 1⟩, ⟨0x0703, true, some 1⟩, ⟨0x0704, true, some 0⟩, ⟨0x0801, false, some 0⟩,
   ⟨0x0802, false, some 1⟩, ⟨0x0901, true, some 1⟩, ⟨0x0902, true, some 1⟩, ⟨0x0903, true, some 0⟩,
   ⟨0x0904, false, some 9⟩, ⟨0x0905, false, some 1⟩]

/-- Opcodes of groups 0x0A to 0x0C. -/
def opRowsC : List OpRow :=
  [⟨0x0A01, false, some 5⟩, ⟨0x0A02, false, some 0⟩, ⟨0x0A03, false, some 1⟩, ⟨0x0A04, false, none⟩,
   ⟨0x0A05, false, some 39⟩, ⟨0x0A06, false, some 0⟩, ⟨0x0A07, false, some 1⟩, ⟨0x0B01, true, some 4⟩,
   ⟨0x0B02, true, some 3⟩, ⟨0x0B03, true, some 0⟩, ⟨0x0B04, true, some 8⟩, ⟨0x0C01, true, some 2⟩,
   ⟨0x0C02, true, none⟩, ⟨0x0C03, true, some 0⟩, ⟨0x0C04, true, some 1⟩]

/-- The row of an opcode. -/
def opRow (op : Nat) : Option OpRow := (opRowsA ++ opRowsB ++ opRowsC).find? fun r => r.opcode = op

/-- Every die of a mask belongs to the partition that a port is bound to. -/
def ownDies (s : State) (p m : Nat) : Bool := (bitList 16 m).all fun d => ownerDie s d = boundPart s p

/-- What a TENANT port may submit (R502, and the Commands sections of the chapters). -/
def tenantMay (s : State) (fl : Flight) : Bool :=
  let p := fl.port
  let c := bits (par fl 0) 0 12
  if fl.opcode = 0x0601 then bits (par fl 0) 6 2 = 1 && ownerDie s (bits (par fl 0) 0 6) = boundPart s p
  else if fl.opcode = 0x0603 ∨ fl.opcode = 0x0607 then ownDies s p (bits (par fl 0) 0 16)
  else if fl.opcode = 0x0901 ∨ fl.opcode = 0x0902 then
    ownerCtx s c = boundPart s p && (!decide (fl.opcode = 0x0901) || !isOn s (R.CTX_STATE.SPLIT c))
  else if fl.opcode = 0x0905 then (bitList 16 (par fl 0)).all fun n => slotPart s n = boundPart s p
  else if fl.opcode ∈ [0x0A02, 0x0A04, 0x0A05, 0x0A06] then fl.target = boundPart s p
  else fl.opcode = 0x0A07 && ownDies s p (bits (par fl 0) 0 16)

/-- The NOT_PERMITTED conditions of an opcode (R562 order 5, R570): the port's authority, then the refusals of
R199, R296, R500 and R542. -/
def notPermitted (s : State) (fl : Flight) : Bool :=
  let p := fl.port
  let confDies := (bitList 16 (par fl 0)).any (confDie s)
  if fl.opcode ∈ [0x0101, 0x0801] then false
  else if authOf s p = 0 then true
  else if isTenant s p && !tenantMay s fl then true
  else if fl.opcode = 0x0302 then confNow s (get s R.LPE_INJ_CFG.RAIL)
  else if fl.opcode = 0x0503 then confDie s (bits (par fl 0) 0 6)
  else if fl.opcode = 0x0A05 then p = 8
  else fl.opcode = 0x0A07 && confDies

/-- Whether an opcode uses TARGET (R571). -/
def usesTarget (op : Nat) : Bool := op ∈ [0x0A02, 0x0A04, 0x0A05, 0x0A06]

/-- Only group 0x0C exists for the boot ROM (R620, R631). -/
def romBars (s : State) (op : Nat) : Bool := romServes s && op / 256 ≠ 0x0C

/-- The first of orders 1 to 8 of R561 that a packet meets: the order and its status. -/
def judgePacket (s : State) (w : List Nat) (fl : Flight) : Option (Nat × Nat) :=
  let w0 := nth w 0
  let w1 := nth w 1
  let ver := bits w0 16 4
  let len := bits w0 24 8
  let row := opRow fl.opcode
  let unknown : Bool := match row with
    | none => true
    | some r => !r.v1 && decide (ver = 1)
  let badLen : Bool := match row with
    | some ⟨_, _, some n⟩ => decide (len ≠ 4 + n)
    | _ => false
  if 512 ≤ s.host.flights.length then some (1, sBUSY)
  else if len < 4 then some (2, sBAD_PARAM)
  else if fl.opcode ≠ 0x0101 ∧ ver ≠ get s (R.CMD_VER.CUR fl.port) then some (3, sBAD_VERSION)
  else if unknown ∨ romBars s fl.opcode then some (4, sBAD_OPCODE)
  else if notPermitted s fl then some (5, sNOT_PERMITTED)
  else if bits w0 22 2 ≠ 0 ∨ bits w1 22 10 ≠ 0 ∨ nth w 2 ≠ 0 ∨ nth w 3 ≠ 0 ∨ (fl.target ≠ 0 ∧ !usesTarget fl.opcode) then some (6, sRESERVED)
  else if (flightOf s fl.port fl.tag).isSome then some (7, sBAD_PARAM)
  else if badLen then some (8, sBAD_PARAM)
  else none

/-- The flight of a packet. -/
def flightIn (s : State) (p idx : Nat) (w : List Nat) : Flight :=
  let w0 := nth w 0
  let w1 := nth w 1
  ⟨p, bits w1 0 16, bits w0 0 16, idx, bit w0 20, bit w0 21, bits w1 16 6, (w.drop 4).take (bits w0 24 8 - 4), s.host.nextSeq,
   false, 0, 0⟩

/-- A fetched packet judged (R561, R563): completed at once, or in flight. -/
def enrol (fl : Flight) (w : List Nat) (s : State) : State :=
  let s1 := setHost { s.host with nextSeq := s.host.nextSeq + 1, lastPort := if fl.port < 9 then fl.port else s.host.lastPort } s
  match judgePacket s w fl with
  | none => setHost { s1.host with flights := s1.host.flights ++ [fl] } s1
  | some (order, st) =>
    s1 |> addSat (if order = 1 then R.CMD_CNT.BUSY fl.port else R.CMD_CNT.REJ fl.port) 1
      |> when (decide (st = sNOT_PERMITTED)) (violation fl.port 3 (0x300000 + 0x400 * fl.sqIdx) fl.opcode)
      |> writeCompletion fl.port fl.tag fl.opcode fl.sqIdx fl.irq st 0 0

/-- Whether a port has a packet that may be fetched (R557). -/
def mayFetch (s : State) (p : Nat) : Bool :=
  let unread := (get s (R.CMD_CQ_TAIL.TAIL p) + 512 - get s (R.CMD_CQ_HEAD.HEAD p)) % 512
  get s (R.CMD_SQ_TAIL.TAIL p) ≠ get s (R.CMD_SQ_HEAD.HEAD p)
    && decide ((s.host.flights.filter fun f => f.port = p).length + unread < 256 ∧ s.host.flights.length < 512)

/-- The port whose packet is fetched next, in rotation (R558). -/
def nextPort (s : State) : Option Nat :=
  ((List.range 9).map fun i => (s.host.lastPort + 1 + i) % 9).find? (mayFetch s)

/-- COMMAND_FETCH, R557 to R561: the next packet in rotation is taken from its queue; the firmware port submits
its packet itself. -/
def effCommandFetch (p : Nat) (packet : List Nat) (s : State) : State :=
  if p = 9 then
    (if answers s 9 0 then enrol (flightIn s 9 0 (packet.map (· % 2 ^ 32))) (packet.map (· % 2 ^ 32)) s else s)
  else if nextPort s = some p ∧ (hifReady s ∨ (p = 8 ∧ romServes s)) then
    let h := get s (R.CMD_SQ_HEAD.HEAD p)
    let i := h % 256
    let w := (List.range 255).map fun k => readWord32 s (portArea p (0x300000 + 0x400 * i + 4 * k))
    s |> put (R.CMD_SQ_HEAD.HEAD p) (h + 1) |> enrol (flightIn s p i w) w
  else s

/-- COMMAND_FETCH. -/
def execCommandFetch (port : Nat) (packet : List Nat) (s : State) : Host.Outcome State Fault Refusal :=
  done (effCommandFetch port packet s)

/-! Commands (R569, R576, R588). -/

/-- NEGOTIATE, R569. -/
def execNegotiate (port tag : Nat) (s : State) : Host.Outcome State Fault Refusal :=
  done <| command 0x0101 port tag s
    (fun fl => [(decide (par fl 0 / 2 ^ 16 ≠ 0), sRESERVED), (bit (par fl 0) 0 || bits (par fl 0) 1 2 = 0, sBAD_PARAM)])
    (fun fl s =>
      let v := if bit (par fl 0) 2 then 2 else 1
      s |> put (R.CMD_VER.CUR fl.port) v |> complete fl sOK v 6)

/-- VIOL_CLEAR, R576. -/
def execViolClear (port tag : Nat) (s : State) : Host.Outcome State Fault Refusal :=
  done <| command 0x0102 port tag s (fun _ => [])
    (fun fl s =>
      s |> each (List.range 32) (fun i s => s |> put (R.CMD_VIOL.OFS i) 0 |> put (R.CMD_VIOL.PORT i) 0 |> put (R.CMD_VIOL.KIND i) 0
          |> put (R.CMD_VIOL.OPCODE i) 0 |> put (R.CMD_VIOL.STATUS i) 0 |> put (R.CMD_VIOL.REPEAT i) 0 |> put (R.CMD_VIOL.TIME i) 0)
        |> put R.CMD_VIOL_STAT.COUNT 0 |> put R.CMD_VIOL_STAT.LOST 0 |> complete fl sOK 0 0)

/-- LOCK_FORCE, R588. -/
def execLockForce (port tag : Nat) (s : State) : Host.Outcome State Fault Refusal :=
  done <| command 0x0103 port tag s
    (fun fl => [(decide (par fl 0 / 2 ^ 6 ≠ 0), sRESERVED), (decide (get s (R.LCK.OWNER (par fl 0)) = 15), sWRONG_STATE)])
    (fun fl s =>
      let n := par fl 0
      s |> record 0x0106 (n + get s (R.LCK.OWNER n) * 2 ^ 8) |> put (R.LCK.OWNER n) 15 |> complete fl sOK 0 0)

/-! Mailboxes (R577 to R581). -/

/-- A message arrives in an inbound queue and wakes its port (R581). -/
def mbxArrive (dst entry : Nat) (s : State) : State :=
  let s := setHost { s.host with mbxIn := sset [] dst (mbxInOf s dst ++ [entry]) s.host.mbxIn } s
  let told := !bit (get s (R.CMD_NOTIFY 8)) 1 && bit (get s (R.CMD_NOTIFY_EN.EN 8)) 1
  let s := s |> notify 1 dst |> event (R.MBX_EVENT dst) 1
  if dst = 8 then
    (if told then s else if s.i3c.ibiEn then emit (.ibi 1) s else setI3c { s.i3c with pendingIbi := true } s)
  else s |> emit (.wake dst) |> (fun s => { s with pins := { s.pins with wake := setBit s.pins.wake dst } })

/-- The lowest source port with an outbound message for a port. -/
def mbxSource (s : State) (dst : Nat) : Option Nat :=
  (List.range 9).find? fun p => (mbxOutOf s p).any fun m => m.1 = dst

/-- One message moved from an outbound queue to an inbound queue with space (R579). -/
def mbxMove (dst : Nat) (s : State) : State :=
  if 16 ≤ (mbxInOf s dst).length then s
  else match mbxSource s dst with
    | none => s
    | some p =>
      match (mbxOutOf s p).find? fun m => m.1 = dst with
      | none => s
      | some m => s |> setHost { s.host with mbxOut := sset [] p ((mbxOutOf s p).erase m) s.host.mbxOut } |> mbxArrive dst m.2

/-- MBX_FORWARD, R579: messages move as space frees. -/
def effMbxForward (dst : Nat) (s : State) : State := if dst < 9 then each (List.range 16) (fun _ => mbxMove dst) s else s

/-- MBX_FORWARD. -/
def execMbxForward (dst : Nat) (s : State) : Host.Outcome State Fault Refusal := done (effMbxForward dst s)

/-- Whether a send is a violation (R578). -/
def mbxBars (s : State) (p dst : Nat) : Bool :=
  decide (9 ≤ p ∨ 9 ≤ dst ∨ dst = p) || authOf s p = 0
    || (isTenant s p && (authOf s dst = 0 || (isTenant s dst && boundPart s dst ≠ boundPart s p)))

/-- A write to MBX_SEND.DST sends the message of MBX_SEND.PAYLOAD (R577, R578). -/
def mbxSendTo (p value : Nat) (s : State) : State :=
  let dst := value % 16
  if mbxBars s p dst then s |> violation p 1 0x120104 0 |> respond p 0 true
  else
    let m := get s (R.MBX_SEND.PAYLOAD p) + p * 2 ^ 32 + authOf s p * 2 ^ 36
    let s := s |> effMbxForward dst |> respond p 0 false
    if (mbxInOf s dst).length < 16 then mbxArrive dst m s
    else if (mbxOutOf s p).length < 16 then setHost { s.host with mbxOut := sset [] p (mbxOutOf s p ++ [(dst, m)]) s.host.mbxOut } s
    else event (R.MBX_EVENT p) 0 s

/-- MBX_SEND. -/
def execMbxSend (port value : Nat) (s : State) : Host.Outcome State Fault Refusal :=
  done (access port 0x120104 (mbxSendTo port value) s)

/-- A port's latched word of an offset, set by a read (R19, R602). -/
def latch (p off v : Nat) (s : State) : State :=
  setHost { s.host with latches := sset 0 (p * 2 ^ 22 + off) (v + 1) s.host.latches } s

/-- A read of MBX_RECV's low word: the oldest entry removed, its high word latched (R580). -/
def readMbx (p : Nat) (s : State) : Nat × State :=
  match mbxInOf s p with
  | m :: t => (m % 2 ^ 32, s |> setHost { s.host with mbxIn := sset [] p t s.host.mbxIn } |> latch p 0x12010C (m / 2 ^ 32 + 2 ^ 31))
  | [] => (0, latch p 0x12010C 0 s)

/-- MBX_RECV. -/
def execMbxRecv (port : Nat) (s : State) : Host.Outcome State Fault Refusal :=
  done (access port 0x120108 (fun s => respond port (readMbx port s).1 false (readMbx port s).2) s)

/-! Notifications (R582, R583). -/

/-- A write to CMD_NOTIFY_EN (R583). -/
def writeNotifyEn (p value : Nat) (s : State) : State :=
  let old := get s (R.CMD_NOTIFY_EN.EN p)
  let n := get s (R.CMD_NOTIFY p)
  let new := value % 512
  let fresh := bitsClear (new &&& n) old
  let s := s |> put (R.CMD_NOTIFY_EN.EN p) new |> respond p 0 false
  if p = 8 then when (fresh ≠ 0 && s.i3c.ibiEn) (emit (.ibi (lowestBit fresh))) s
  else when (decide (p < 8) && n &&& old = 0 && n &&& new ≠ 0) (emit (.notify p)) s

/-- NOTIFY_ENABLE_WRITE. -/
def execNotifyEnableWrite (port value : Nat) (s : State) : Host.Outcome State Fault Refusal :=
  done (access port 0x120018 (writeNotifyEn port value) s)

/-! Locks (R584 to R587). -/

/-- What a reader of a lock is answered: owner, and 0 FREE, 1 ACQUIRED, 2 HELD, 3 OWNED; an OBSERVER port is answered
FREE or HELD only (R584). -/
def lockWord (s : State) (before owner p : Nat) : Nat :=
  if owner = 15 then 15
  else if owner = p ∧ authOf s p ≠ 0 then (if before = p then p + 3 * 16 else p + 1 * 16)
  else owner + 2 * 16

/-- The owner of a lock after ports read it in one cycle (R584, R585): the lowest of them that may take it. -/
def lockTaken (s : State) (before : Nat) (ports : List Nat) : Nat :=
  if before ≠ 15 then before else ((List.range 10).find? fun p => ports.contains p && authOf s p ≠ 0).getD 15

/-- LOCK_READ, R584, R585: the ports that read one lock in one cycle. -/
def effLockRead (n : Nat) (ports : List Nat) (s : State) : State :=
  if n < 64 then
    let off := 0x120200 + 4 * n
    let live := ports.filter fun p => decide (p < 10) && answers s p off
    let before := get s (R.LCK.OWNER n)
    let owner := lockTaken s before live
    let rs := (ports.filter (· < 10)).map fun p =>
      if answers s p off then (⟨p, lockWord s before owner p, false⟩ : Resp) else ⟨p, 0xFFFFFFFF, true⟩
    { each live touch s with resp := rs } |> put (R.LCK.OWNER n) owner
  else s

/-- LOCK_READ. -/
def execLockRead (lock : Nat) (ports : List Nat) (s : State) : Host.Outcome State Fault Refusal := done (effLockRead lock ports s)

/-- A write to a lock (R586). -/
def writeLock (p n value : Nat) (s : State) : State :=
  if !bit value 31 then respond p 0 false s
  else if get s (R.LCK.OWNER n) = p then s |> put (R.LCK.OWNER n) 15 |> respond p 0 false
  else s |> violation p 1 (0x120200 + 4 * n) 0 |> respond p 0 true

/-- LOCK_RELEASE. -/
def execLockRelease (port lock value : Nat) (s : State) : Host.Outcome State Fault Refusal :=
  done (if lock < 64 then access port (0x120200 + 4 * lock) (writeLock port lock value) s else s)

/-! Reads with an effect (R19, R580, R584, R602). -/

/-- The word a read returns, and the state it leaves: a latched word, the words that a record's TIME or
LAST latches, the oldest message, the lock. -/
def readAccess (p off : Nat) (s : State) : Nat × State :=
  let key := p * 2 ^ 22 + off
  let l := sget 0 key s.host.latches
  if off = 0x120108 then readMbx p s
  else if 0x120200 ≤ off ∧ off < 0x120300 then
    let n := (off - 0x120200) / 4
    let before := get s (R.LCK.OWNER n)
    let owner := lockTaken s before [p]
    (lockWord s before owner p, put (R.LCK.OWNER n) owner s)
  else if 0x380000 ≤ off ∧ off < 0x381000 then
    if off % 0x40 = 0 then (readWordAt s p off, latch p (off + 4) (readWordAt s p (off + 4)) s)
    else if off % 0x40 = 8 then
      (readWordAt s p off, s |> latch p (off + 4) (readWordAt s p (off + 4)) |> latch p (off + 0x14) (readWordAt s p (off + 0x14)))
    else if l ≠ 0 then (l - 1, setHost { s.host with latches := sset 0 key 0 s.host.latches } s)
    else (readWordAt s p off, s)
  else if l ≠ 0 then (l - 1, setHost { s.host with latches := sset 0 key 0 s.host.latches } s)
  else if isLow64 p off then (readWordAt s p off, latch p (off + 4) (readWordAt s p (off + 4)) s)
  else (readWordAt s p off, s)

/-- One aligned 32-bit read of a port: its answer, or the violation of a foreign resource (R503, R548). -/
def effRead (p off : Nat) (s : State) : State :=
  access p off (fun s =>
    if off % 4 ≠ 0 ∨ foreignRead s p off then s |> violation p 0 off 0 |> respond p 0 true
    else respond p (readAccess p off s).1 false (readAccess p off s).2) s

/-- HIGH_WORD_LATCH, R19: a port reads the low word of a 64-bit register. -/
def execHighWordLatch (port offset : Nat) (s : State) : Host.Outcome State Fault Refusal := done (effRead port offset s)

/-- RECORD_READ_LATCH, R602: a port reads the low word of TIME or LAST of a record in its window. -/
def execRecordReadLatch (port offset : Nat) (s : State) : Host.Outcome State Fault Refusal := done (effRead port offset s)

/-! The BMC port's common command codes (R550, R551). -/

/-- The I3C target acknowledges: not before stage FW, nor in a governor warm reset (R549, R679). -/
def i3cUp (s : State) : Bool := answers s 8 0x160000

/-- The provisional ID, fused at manufacture (R550). -/
def provisionalId : List Nat := (List.range 6).map fun i => Config.deviceByte 5 0 i % 256

/-- A directed read code is answered once the target has a dynamic address. -/
def i3cGet (b : List Nat) (s : State) : State := if i3cUp s ∧ s.i3c.addr ≠ none then emit (.i3c b) s else s

/-- ENTDAA, R550, R551: a target without a dynamic address sends its ID, BCR and DCR, and takes one. -/
def execEntdaa (address : Nat) (s : State) : Host.Outcome State Fault Refusal :=
  done (if i3cUp s ∧ s.i3c.addr = none then
    s |> emit (.i3c (provisionalId ++ [0x06, 0x00])) |> setI3c { s.i3c with addr := some (address % 128) } else s)

/-- RSTDAA: the dynamic address is dropped. -/
def execRstdaa (s : State) : Host.Outcome State Fault Refusal := done (if i3cUp s then setI3c { s.i3c with addr := none } s else s)

/-- A waiting cause of an interrupt: an enabled notification, or a mailbox arrival (R553, R581). -/
def ibiWaits (s : State) : Option Nat :=
  let n := get s (R.CMD_NOTIFY 8) &&& get s (R.CMD_NOTIFY_EN.EN 8)
  if n ≠ 0 then some (lowestBit n) else if s.i3c.pendingIbi then some 1 else none

/-- ENEC: in-band interrupts enabled by event bit 0; a cause that waited raises one (R553). -/
def effEnec (events : Nat) (s : State) : State :=
  if i3cUp s ∧ bit events 0 ∧ !s.i3c.ibiEn then
    let s1 := setI3c { s.i3c with ibiEn := true, pendingIbi := false } s
    match ibiWaits s with
    | some b => emit (.ibi b) s1
    | none => s1
  else s

/-- ENEC. -/
def execEnec (events : Nat) (s : State) : Host.Outcome State Fault Refusal := done (effEnec events s)

/-- DISEC: in-band interrupts disabled by event bit 0. -/
def execDisec (events : Nat) (s : State) : Host.Outcome State Fault Refusal :=
  done (if i3cUp s ∧ bit events 0 then setI3c { s.i3c with ibiEn := false } s else s)

/-- SETMWL: the maximum write length, at most 260 (R551). -/
def execSetmwl (length : Nat) (s : State) : Host.Outcome State Fault Refusal :=
  done (if i3cUp s then setI3c { s.i3c with mwl := min 260 length } s else s)

/-- SETMRL: the maximum read length, at most 256 (R551). -/
def execSetmrl (length : Nat) (s : State) : Host.Outcome State Fault Refusal :=
  done (if i3cUp s then setI3c { s.i3c with mrl := min 256 length } s else s)

/-- GETPID. -/
def execGetpid (s : State) : Host.Outcome State Fault Refusal := done (i3cGet provisionalId s)

/-- GETBCR: 0x06 (R550). -/
def execGetbcr (s : State) : Host.Outcome State Fault Refusal := done (i3cGet [0x06] s)

/-- GETDCR: 0x00 (R550). -/
def execGetdcr (s : State) : Host.Outcome State Fault Refusal := done (i3cGet [0x00] s)

/-- GETSTATUS: the pending interrupt (format of the I3C basic profile, log 17). -/
def execGetstatus (s : State) : Host.Outcome State Fault Refusal := done (i3cGet [0, b2n (ibiWaits s).isSome] s)

/-- GETMWL. -/
def execGetmwl (s : State) : Host.Outcome State Fault Refusal := done (i3cGet (beBytes 2 s.i3c.mwl) s)

/-- GETMRL: the length and the one byte of an in-band interrupt (R553). -/
def execGetmrl (s : State) : Host.Outcome State Fault Refusal := done (i3cGet (beBytes 2 s.i3c.mrl ++ [1]) s)

/-- I3C_PRIVATE_READ, R552: words from the offset of the last private write, each read advancing it. -/
def effI3cRead : Nat → State → State
  | 0, s => s
  | n + 1, s =>
    let s := effRead 8 s.i3c.ofs s
    effI3cRead n (setI3c { s.i3c with ofs := (s.i3c.ofs + 4) % 2 ^ 22 } (emit (.i3c (s.resp.flatMap fun r => leBytes 4 r.data)) s))

/-- I3C_PRIVATE_READ. -/
def execI3cPrivateRead (words : Nat) (s : State) : Host.Outcome State Fault Refusal :=
  done (if i3cUp s ∧ s.i3c.addr ≠ none then effI3cRead (min words (s.i3c.mrl / 4)) s else s)

end Sys2Proof.Machine
end

