-- ==== Sys2Proof/Machine/Access.lean ====
section
/-! DEFINITION. Sys2Proof/Machine/Access.lean: a 32-bit write through a port's window: the judgement of each field
it carries (R16, R18, R20), the writes that act (resets, package states, commits, faults), and the private
writes of the BMC port (R552). -/

namespace Sys2Proof.Machine

/-! What R20 rejects. -/

/-- A code as the number its bounds are stated in. -/
def codeValue (f : Field) (v : Nat) : Int := if f.signed then toSigned f.w v else v

/-- The value that a write would leave in force: the written value for a field of the written word, the value
in force for any other (R20). -/
def wouldBe (s : State) (off value : Nat) (f : Field) : Int :=
  codeValue f (if inWord off f then carried off value f else get s f)

/-- How many phases a rail has: 10, 2 or 8 (R29). -/
def railPhases (r : Nat) : Nat := if r < 16 then 10 else if r < 32 then 2 else 8

/-- The relations that a register at an offset takes part in, as a + k ≤ b (R20 and the register tables of the
stage-controller, token, cap and ring chapters). -/
def relationsAt (off : Nat) : List (Field × Field × Int) :=
  if 0x020400 ≤ off ∧ off < 0x020820 then
    let r := (off - 0x020400) / 0x20
    [(R.PST_RAIL_SHED.SHED_I r, R.PST_RAIL_SHED.UNSHED_I r, 1), (R.PST_RAIL_BRAKE.EXIT r, R.PST_RAIL_BRAKE.ENTER r, 2)]
  else if off = 0x080908 then [(R.FIL_WARM_TH.ENTER, R.FIL_WARM_TH.EXIT, 16)]
  else if off = 0x0A0020 ∨ off = 0x0A0024 then [(R.CAP_BROWN2.RESET, R.CAP_BROWN.WARN, 400)]
  else if 0x0A1000 ≤ off ∧ off < 0x0A1400 then
    [(R.CAP_DIE_EDC.CONT ((off - 0x0A1000) / 0x40), R.CAP_DIE_EDC.PEAK ((off - 0x0A1000) / 0x40), 0)]
  else if off = 0x0D0004 then [(R.RNG_LIM.FLOOR, R.RNG_LIM.CEIL, 0)]
  else if off = 0x0D000C then [(R.RNG_BAL.CRIT_US, R.RNG_BAL.DONOR_US, 1)]
  else []

/-- Whether a field belongs to a relation that the write would break. -/
def breaksRelation (s : State) (off value : Nat) (f : Field) : Bool :=
  (relationsAt off).any fun (a, b, k) => (f = a || f = b) && decide (wouldBe s off value b < wouldBe s off value a + k)

/-- The lowest issue floor and the highest maximum issue of the present dies (R324). -/
def levelRange (s : State) : Nat × Nat :=
  (dies s).foldl (fun (l : Nat × Nat) d => (min l.1 (floorIssue s d), max l.2 (maxIssue s d))) (4095, 0)

/-- Whether a value breaks a bound of the field's own: the bounds of its table, or those that the fuses or the
state fix (SHED_MIN, FIL_WARM.LEVEL, THM_XCHK.RET, LPE_REF.TARGET of VCORE, the test registers during a
test under R199, AMP and POINT under R191, SETTLE and MODE under R204, BOOT_GSTATE.REQ under R633). -/
def breaksBound (s : State) (f : Field) (v : Nat) : Bool :=
  let o := f.off
  let r := (o - 0x041000) / 0x40
  decide (codeValue f v < f.min ∨ f.max < codeValue f v)
    || (decide (0x020400 ≤ o ∧ o < 0x020820) && (let q := (o - 0x020400) / 0x20
          f = R.PST_RAIL_CFG.SHED_MIN q && decide (v < 1 ∨ railPhases q < v)))
    || (f = R.FIL_WARM.LEVEL && decide (v < (levelRange s).1 ∨ (levelRange s).2 < v))
    || (f = R.THM_XCHK.RET && decide (0 < v ∧ v < 16))
    || (decide (0x041000 ≤ o ∧ o < 0x041400) && f = R.LPE_REF.TARGET r && v ≠ get s f)
    || (decide (0x040100 ≤ o ∧ o < 0x040114) && s.test.running)
    || (f = R.LPE_INJ_AMP.AMP && decide ((if get s R.LPE_INJ_CFG.POINT = 0 then 160 else 2048) < v))
    || (f = R.LPE_INJ_CFG.POINT && decide ((if v = 0 then 160 else 2048) < get s R.LPE_INJ_AMP.AMP))
    || (f = R.LPE_INJ_AMP.SETTLE && decide (get s R.LPE_INJ_CFG.MODE = 2 ∧ (v < 1 ∨ 255 < v)))
    || (f = R.LPE_INJ_CFG.MODE && decide (v = 2 ∧ (get s R.LPE_INJ_AMP.SETTLE < 1 ∨ 255 < get s R.LPE_INJ_AMP.SETTLE)))
    || (f = R.BOOT_GSTATE.REQ && requestBad s v)

/-- Whether R20 rejects a field that a write carries. -/
def rejects (s : State) (off value : Nat) (f : Field) : Bool :=
  breaksBound s f (carried off value f) || breaksRelation s off value f

/-! What follows an accepted write. -/

/-- Whether the write of a field changes the effective configuration (R45): it lies in the digest of R445, and
is not of a commit group, whose shadow copy takes effect by COMMIT alone (R188, R189; log 26). -/
def changesConfig (f : Field) : Bool := inDigest f && !inCommitGroup f

/-- A write of RNG_CFG (R434 to R436): a conflict is over; with EN at 0 a member leaves at the next idle gap,
any other state is OFF. -/
def ringConfigured (s : State) : State :=
  let s := s |> put R.RNG_STAT.ID_CONFLICT 0 |> setRing { s.ring with conflict := false }
  if isOn s R.RNG_CFG.EN then ringListen s
  else if ringState s = rnMEMBER then setRing { s.ring with closing := true } s
  else s |> ringLeave |> put R.RNG_STAT.STATE rnOFF

/-- What an accepted write starts, by the offset of its word; s0 is the state before it. -/
def afterWrite (s0 : State) (off : Nat) (s : State) : State :=
  if off = 0x020000 then
    (if isOn s R.PST_CTRL.SYNC_EN then s
     else s |> put R.PST_SYNC_STAT.LOCK 0 |> when (clkState s = 2) (put R.CLK_STATUS.SYNC_LOST 0))
  else if (0x020100 ≤ off ∧ off < 0x020120) ∨ off = 0x0A0004 then refreshIin s
  else if off = 0x080000 then each (dies s) showEmpty s
  else if 0x080400 ≤ off ∧ off < 0x080800 then
    let d := (off - 0x080400) / 0x40
    if off % 0x40 = 0 then
      s |> each (bitList 8 (bitsClear (get s0 (R.ITN_SRC_CFG.SRC_EN d)) (get s (R.ITN_SRC_CFG.SRC_EN d)))) (dropCore d) |> when (!(linkOf s d).lost) (each (bitList 8 (bitsClear (get s0 (R.ITN_SRC_CFG.SRC_EN d)) (get s (R.ITN_SRC_CFG.SRC_EN d)))) (dropAgent d))
        |> showEmpty d
    else if off % 0x40 = 0x24 then
      s |> when (!(linkOf s d).lost) (each (bitList 4 (bitsClear (get s (R.ITN_DRP_MASK.SITE_DIS d)) (get s0 (R.ITN_DRP_MASK.SITE_DIS d)))) (releaseSite d))
        |> judgeBlind d
    else s
  else if 0x080C00 ≤ off ∧ off < 0x081000 ∧ off % 0x40 = 0 then sendSlews ((off - 0x080C00) / 0x40) s
  else if off = 0x0D0000 then ringConfigured s
  else s

/-! Words that clear. -/

/-- Whether the condition of a SAF_FAULT bit that a write may clear no longer holds (R650). The other bits
are released by the rules that name them, and a write leaves them set. -/
def faultOver (s : State) (b : Nat) : Bool :=
  match b with
  | 1 => (List.range 33).all fun r => loopState s r ≠ lpHOLD
  | 2 => s.self.good = 256
  | 3 => (dies s).all fun d => get s (R.ITN_DRP_STAT.STUCK d) = 0 && get s (R.ITN_DRP_STAT.FAILED d) = 0 && !isOn s (R.ITN_DIE_STAT.BLIND d)
  | 4 => get s R.FIL_WARM_STAT.STATE ≠ 1
  | 7 => !s.ring.conflict
  | 10 => isOn s R.SEC_STAT.ENT_OK
  | 12 => stage s ≠ stFAIL
  | 13 => !isOn s R.BOOT_STAT.AUTOPILOT && get s R.BOOT_STAT.CAUSE ≠ 5
  | 14 => !s.boot.scanBad
  | _ => false

/-- The bits that a write of v clears in a W1C field (R16, R650). -/
def clears (s : State) (f : Field) (v : Nat) : Nat :=
  if f = R.SAF_FAULT then maskOf ((bitList 16 v).filter (faultOver s)) else v

/-- A W1C field written. -/
def clearField (v : Nat) (f : Field) (s : State) : State := put f (bitsClear (get s f) (clears s f v)) s

/-! Writes. -/

/-- A write of a word of registers: each RW field is rejected under R20 or set, each W1C bit written 1 is
cleared, every other bit is ignored (R16, R18). A rejection is logged once, with kind VALUE; an accepted
change of the configuration counts once (R45, R683). -/
def writeFields (p off value : Nat) (s : State) : State :=
  let fs := fieldsAt p off
  let rw := fs.filter fun f => f.acc = Acc.rw
  let good := rw.filter fun f => !rejects s off value f
  s |> each good (fun f => put f (carried off value f)) |> scanFollows good
    |> each (fs.filter fun f => f.acc = Acc.w1c) (fun f => clearField (carried off value f) f)
    |> when (good.any changesConfig) bumpGen
    |> when (!good.isEmpty) (afterWrite s off) |> settingsFollow good
    |> when (decide (good.length < rw.length)) (violation p 2 off 0)
    |> respond p 0 false

/-- A write of LPE_CTRL (R189, R190). -/
def writeCommit (p off value : Nat) (s : State) : State :=
  let r := (off - 0x041000) / 0x40
  if !bit value 0 then respond p 0 false s
  else
    let (t, ok) := commitSet r s
    if ok then t |> bumpGen |> respond p 0 false else rejectValue p off t

/-- R630: what rejects a write of BOOT_RESET. -/
def resetBad (s : State) (value : Nat) : Bool :=
  let m := bits value 0 16
  let kinds := b2n (m ≠ 0) + b2n (bit value 16) + b2n (bit value 17)
  decide (1 < kinds) || decide (2 ^ nDies s ≤ m) || stage s ≠ stREADY || (bit value 16 && s.boot.accRst)
    || (bit value 17 && s.boot.govRst) || (m ≠ 0 && (s.boot.dieRst ≠ 0 || s.boot.lostHold ≠ 0))
    || (m ≠ 0 && decide (get s R.BOOT_STAT.GSTATE = 1 ∨ get s R.BOOT_STAT.GSTATE = 2))

/-- A write of BOOT_RESET (R628, R630, R651). -/
def writeReset (p value : Nat) (s : State) : State :=
  if bits value 0 18 = 0 then respond p 0 false s
  else if resetBad s value then rejectValue p 0x16000C s
  else if bit value 17 then s |> startWarm |> respond p 0 false
  else if bit value 16 then s |> startAccReset |> respond p 0 false
  else s |> startDieReset (bits value 0 16) |> respond p 0 false

/-- A write of BOOT_GSTATE.REQ (R632, R633). -/
def writeState (p value : Nat) (s : State) : State :=
  let req := bits value 0 2
  if requestBad s req then rejectValue p 0x160010 s
  else s |> put R.BOOT_GSTATE.REQ req |> requestG req |> respond p 0 false

/-- A write of the loop-capture window: the increment words of the 128 steps, not while a test runs (R194,
R199); its other words are read only (R686). -/
def writeCaptureWord (p off value : Nat) (s : State) : State :=
  let o := off - 0x3F0000
  if s.test.running then rejectValue p off s
  else if o % 0x30 = 0 ∧ o / 0x30 < 128 then s |> writeWord32 (sharedArea off) value |> respond p 0 false
  else respond p 0 false s

/-- One aligned 32-bit write, by its offset. -/
def writeAt (p off value : Nat) (s : State) : State :=
  if off = 0x120000 then writeSqTail p value s
  else if off = 0x12000C then writeCqHead p value s
  else if off = 0x120018 then writeNotifyEn p value s
  else if off = 0x120100 then s |> put (R.MBX_SEND.PAYLOAD p) value |> respond p 0 false
  else if off = 0x120104 then mbxSendTo p value s
  else if 0x120200 ≤ off ∧ off < 0x120300 then writeLock p ((off - 0x120200) / 4) value s
  else if off = 0x0E0034 then s |> put (R.HNG_QCUR.GROUP p) (bits value 0 8) |> respond p 0 false
  else if 0x041000 ≤ off ∧ off < 0x041840 ∧ off % 0x40 = 0x2C then writeCommit p off value s
  else if 0x040114 ≤ off ∧ off < 0x040120 ∧ s.test.running then rejectValue p off s
  else if off = 0x16000C then writeReset p value s
  else if off = 0x160010 then writeState p value s
  else if off = 0x16010C then s |> when (bit value 0) (fun s => setBoot { s.boot with wdt := 0 } s) |> respond p 0 false
  else if 0x300000 ≤ off ∧ off < 0x340000 then writeEntry p off value s
  else if 0x3F0000 ≤ off ∧ off < 0x3F8000 then writeCaptureWord p off value s
  else writeFields p off value s

/-- One 32-bit write through a port's window of 4 MiB: the window may not answer (R549, R678), the port may not
write there or the offset be unassigned (R548, R682), or the write is judged. -/
def effRegisterWrite (p off value : Nat) (s : State) : State :=
  if 2 ^ 22 ≤ off then s
  else access p off (fun s =>
    if violates s p off true 4 then s |> violation p 1 off 0 |> respond p 0 true else writeAt p off (value % 2 ^ 32) s) s

/-- REGISTER_WRITE. -/
def execRegisterWrite (port offset value : Nat) (s : State) : Host.Outcome State Fault Refusal :=
  done (effRegisterWrite port offset value s)

/-- AUTO_RELOCK_WRITE, R79: a write of CLK_CFG. -/
def execAutoRelockWrite (port value : Nat) (s : State) : Host.Outcome State Fault Refusal :=
  done (effRegisterWrite port 0x010008 value s)

/-- COMMIT, R189: a write of a rail's LPE_CTRL. -/
def execCommit (port rail value : Nat) (s : State) : Host.Outcome State Fault Refusal :=
  done (if rail < 33 then effRegisterWrite port (0x04102C + 0x40 * rail) value s else s)

/-- GOV_WARM_RESET, R628: a write of BOOT_RESET. -/
def execGovWarmReset (port value : Nat) (s : State) : Host.Outcome State Fault Refusal :=
  done (effRegisterWrite port 0x16000C value s)

/-- ACCELERATOR_RESET, R628: a write of BOOT_RESET. -/
def execAcceleratorReset (port value : Nat) (s : State) : Host.Outcome State Fault Refusal :=
  done (effRegisterWrite port 0x16000C value s)

/-- DIE_RESET, R628: a write of BOOT_RESET. -/
def execDieReset (port value : Nat) (s : State) : Host.Outcome State Fault Refusal :=
  done (effRegisterWrite port 0x16000C value s)

/-- G1_ENTER, R632: a write of BOOT_GSTATE. -/
def execG1Enter (port value : Nat) (s : State) : Host.Outcome State Fault Refusal :=
  done (effRegisterWrite port 0x160010 value s)

/-- G2_ENTER, R632: a write of BOOT_GSTATE. -/
def execG2Enter (port value : Nat) (s : State) : Host.Outcome State Fault Refusal :=
  done (effRegisterWrite port 0x160010 value s)

/-- G0_RETURN, R632, R637: a write of BOOT_GSTATE. -/
def execG0Return (port value : Nat) (s : State) : Host.Outcome State Fault Refusal :=
  done (effRegisterWrite port 0x160010 value s)

/-- G3_REQUEST, R633: a write of BOOT_GSTATE. -/
def execG3Request (port value : Nat) (s : State) : Host.Outcome State Fault Refusal :=
  done (effRegisterWrite port 0x160010 value s)

/-- WATCHDOG_KICK, R639: a write of SAF_KICK. -/
def execWatchdogKick (port value : Nat) (s : State) : Host.Outcome State Fault Refusal :=
  done (effRegisterWrite port 0x16010C value s)

/-- SAF_FAULT_CLEAR, R650: a write of SAF_FAULT. -/
def execSafFaultClear (port value : Nat) (s : State) : Host.Outcome State Fault Refusal :=
  done (effRegisterWrite port 0x160100 value s)

/-! The BMC port's private writes. -/

/-- Words of a private write, from an offset upward (R552). -/
def i3cWords : List Nat → Nat → State → State
  | a :: b :: c :: d :: t, off, s => i3cWords t (off + 4) (effRegisterWrite 8 off (leNat [a, b, c, d]) s)
  | _, _, s => s

/-- I3C_PRIVATE_WRITE, R549, R552: the offset, then whole words; at most the write length in force (R551). -/
def effI3cWrite (data : List Nat) (s : State) : State :=
  if i3cUp s ∧ s.i3c.addr ≠ none ∧ data.length ≤ s.i3c.mwl then
    let o := leNat (data.take 4)
    if o % 4 ≠ 0 ∨ 2 ^ 22 ≤ o ∨ data.length < 4 ∨ data.length % 4 ≠ 0 then violation 8 2 o 0 s
    else s |> setI3c { s.i3c with ofs := o } |> i3cWords (data.drop 4) o
  else s

/-- I3C_PRIVATE_WRITE. -/
def execI3cPrivateWrite (data : List Nat) (s : State) : Host.Outcome State Fault Refusal := done (effI3cWrite data s)

end Sys2Proof.Machine
end

