-- ==== Sys2Proof/Machine/Recorder.lean ====
section
/-! DEFINITION. Sys2Proof/Machine/Recorder.lean: the event recorder and the checkpoint-risk score (R593 to
R616). -/

namespace Sys2Proof.Machine

/-- The snapshot words of a record for an event of a code: the word of each enabled slot whose group bit is
the code's high byte, in slot order (R600). -/
def snapWords (s : State) (code : Nat) : List Nat :=
  ((List.range 8).filter fun n => isOn s (R.REC_SNAP.EN n) && decide (256 ≤ code) && bit (get s (R.REC_SNAP.GROUPS n)) (code / 256 - 1)).map
    fun n => readWordAt s 9 (get s (R.REC_SNAP.OFS n))

/-- The state as the snapshots of an event read it (R528, R600): the partition that its subject lay in as confidential,
where it was so at the event, although a scrub may have freed it since. -/
def eventView (e : Event) (s : State) : State :=
  if e.conf && decide (e.part < 16) then
    s |> put (R.SEC_PART_CFG.CONF e.part) 1 |> put (R.SEC_PART_RES.DIES e.part) (setBit (get s (R.SEC_PART_RES.DIES e.part)) e.subj)
  else s

/-- The stamp of an event as recorded (R528). -/
def stampOf (e : Event) : Nat := if e.conf then e.time - e.time % 100000000 else e.time

/-- A new record at the end of the recorder (R593, R594, R596). -/
def appendRecord (e : Event) (s : State) : State :=
  let r : Record := ⟨stampOf e, stampOf e, e.code, e.subj, e.part, e.arg % 2 ^ 32, get s R.REC_SEQ.NEXT, 0,
    e.conf, snapWords (eventView e s) e.code⟩
  let s := { s with log := { s.log with recs := s.log.recs ++ [r] } }
  let s := s |> addWrap R.REC_SEQ.NEXT 1 |> put R.REC_STAT.COUNT s.log.recs.length
  if 16384 ≤ s.log.recs.length then s |> put R.REC_STAT.FULL 1 |> event R.REC_EVENT 0 else s

/-- Whether an event repeats a record (R595). -/
def repeats (e : Event) (r : Record) : Bool :=
  e.code = r.code && e.subj = r.subj && e.part = r.part && e.arg % 2 ^ 32 = r.arg

/-- An event that leaves the queue: a repeat of the newest record, a new record, or a loss (R595, R596). -/
def takeEvent (e : Event) (s : State) : State :=
  match s.log.recs.getLast? with
  | some r =>
    if repeats e r then
      { s with log := { s.log with recs := s.log.recs.dropLast ++ [{ r with last := stampOf e, rep := min 65535 (r.rep + 1) }] } }
    else if s.log.recs.length < 16384 then appendRecord e s
    else addSat R.REC_LOST.COUNT 1 s
  | none => appendRecord e s

/-- RECORD_WRITE, R594: the oldest event of the queue is written; none is while a clear runs (R612). -/
def effRecordWrite (s : State) : State :=
  if isOn s R.REC_STAT.CLEARING then s
  else match s.log.queue with
    | [] => s
    | e :: t => takeEvent e { s with log := { s.log with queue := t } }

/-- RECORD_WRITE. -/
def execRecordWrite (s : State) : Host.Outcome State Fault Refusal := done (effRecordWrite s)

/-- The comparison of watch trigger w on a masked word (R599). -/
def trigTrue (op v value : Nat) (prev : Option Nat) : Bool :=
  match op with
  | 0 => v = value
  | 1 => v ≠ value
  | 2 => decide (value < v)
  | 3 => decide (v < value)
  | _ => match prev with
    | some x => v ≠ x
    | none => false

/-- WATCH_TRIGGER, R599: on a µs tick, trigger w compares its masked word and records WATCH when the
comparison becomes true, or for CHANGE whenever the word differs from that of the previous tick. The first tick
after REC_TRIG_SET counts as false (log 96). -/
def effWatchTrigger (w : Nat) (s : State) : State :=
  if w < 8 ∧ isOn s (R.REC_TRIG.EN w) then
    let v := readWordAt s 9 (get s (R.REC_TRIG.OFS w)) &&& get s (R.REC_TRIG.MASK w)
    let op := get s (R.REC_TRIG.OP w)
    let prev := match sget 0 w s.log.trigPrev with
      | 0 => none
      | n + 1 => some n
    let t := prev.isSome && trigTrue op v (get s (R.REC_TRIG.VALUE w)) prev
    let fire := t && (decide (4 ≤ op) || !bit s.log.trigOn w)
    let s := putB (R.REC_TRIG.TRUE w) t { s with log := { s.log with
      trigPrev := sset 0 w (v + 1) s.log.trigPrev, trigOn := if t then setBit s.log.trigOn w else clrBit s.log.trigOn w } }
    when fire (record (0x0B10 + w) v) s
  else s

/-- WATCH_TRIGGER. -/
def execWatchTrigger (trigger : Nat) (s : State) : Host.Outcome State Fault Refusal := done (effWatchTrigger trigger s)

/-- One contributor's decay and sum (R605): d after a computation with n events at shift k. -/
def decayed (d k n : Nat) : Nat := min 0xFFFFFFFF (d - (d + 2 ^ k - 1) / 2 ^ k + 256 * n)

/-- Contributor c, not THERMAL, in one computation (R605). -/
def scoreCounter (c : Nat) (s : State) : State :=
  let evt := get s (R.HLT_EVT.COUNT c)
  let prev := nth s.log.hltPrev c
  let n := min 65535 ((evt + 2 ^ 32 - prev % 2 ^ 32) % 2 ^ 32)
  let d := decayed (get s (R.HLT_D.D c)) (get s (R.HLT_CONTRIB.DECAY c)) n
  let sc := min 255 (d * get s (R.HLT_CONTRIB.GAIN c) / 2 ^ 12)
  { s with log := { s.log with hltPrev := upd s.log.hltPrev c evt } }
    |> put (R.HLT_D.D c) d |> put (R.HLT_TERM.S c) sc
    |> put (R.HLT_TERM.T c) (get s (R.HLT_CONTRIB.WEIGHT c) * sc / 2 ^ 8)

/-- The tightest thermal margin of the present dies (R605). -/
def tightestMargin (s : State) : Int :=
  ((dies s).map fun d => getI s (R.THM_DIE_M.MARGIN d)).foldl min (getI s (R.THM_DIE_M.MARGIN 0))

/-- Contributor THERMAL in one computation (R605). -/
def scoreThermal (s : State) : State :=
  let m := tightestMargin s
  let m0 : Int := getI s R.HLT_THERM.M0
  let sc := if m0 ≤ m then 0 else min 255 ((m0 - m).toNat * get s (R.HLT_CONTRIB.GAIN 1) / 2 ^ 8)
  s |> put (R.HLT_TERM.S 1) sc |> put (R.HLT_TERM.T 1) (get s (R.HLT_CONTRIB.WEIGHT 1) * sc / 2 ^ 8)

/-- The advisory of a computation (R608, R609). -/
def advise (score : Nat) (s : State) : State :=
  let th := get s R.HLT_CFG.TH
  if isOn s R.HLT_CFG.ARMED ∧ th ≤ score then
    let s := s |> put R.HLT_ADVICE.SCORE score
      |> put R.HLT_ADVICE.CONTRIB (maskOf ((List.range 6).filter fun c => isOn s (R.HLT_TERM.T c)))
      |> putB R.HLT_ADVICE.SHARED (isOn s R.HLT_FEED_MAP.MAP) |> addWrap R.HLT_ADVICE.COUNT 1
      |> put R.HLT_ADVICE_TS.TIME (now s) |> put R.HLT_CFG.ARMED 0
    s |> record 0x0B01 (regWord s 9 0x141018) |> notifyAll 5 (fun _ => true)
  else if !isOn s R.HLT_CFG.ARMED ∧ score + get s R.HLT_CFG.HYST < th then put R.HLT_CFG.ARMED 1 s
  else s

/-- HEALTH_COMPUTE, R605: the score, its terms and the advisory, published together (R606). Firmware computes
it, so nothing happens while firmware restarts (R49, R607). -/
def effHealthCompute (s : State) : State :=
  if fwRuns s then
    let s := countHealth 4 ((dies s).filter fun d => isOn s (R.THM_DIE_STAT.DEGRADED d)).length s
    let s := each [0, 2, 3, 4, 5] scoreCounter s |> scoreThermal
    let score := min 255 (((List.range 6).map fun c => get s (R.HLT_TERM.T c)).foldl (· + ·) 0)
    let s := when (get s (R.HLT_D.D 3) = 0) (put R.HLT_FEED_MAP.MAP 0) s
    s |> put R.HLT_SCORE.SCORE score |> addWrap R.HLT_SCORE.SEQ 1 |> put R.HLT_TS.TIME (now s) |> advise score
  else s

/-- HEALTH_COMPUTE. -/
def execHealthCompute (s : State) : Host.Outcome State Fault Refusal := done (effHealthCompute s)

/-- CORRECTABLE_ERROR_REPORT, R604: contributor CE counts the errors that an agent forwards. -/
def execCorrectableErrorReport (report : Arrival) (count : Nat) (s : State) : Host.Outcome State Fault Refusal :=
  done (acceptFrame true tyBULK report.die report.frame (countHealth 5 count) s)

/-- An offset that REC_TRIG_SET and REC_SNAP_SET may not name: MBX_RECV, MBX_SEND, LCK, or a register with a
field of class none (the Commands section of the recorder chapter). -/
def excludedOffset (off : Nat) : Bool :=
  decide (0x120100 ≤ off ∧ off < 0x120110) || decide (0x120200 ≤ off ∧ off < 0x120300)
    || (fieldsAt 9 off).any fun f => f.cls = Ret.none

/-- An offset outside the register range or not a multiple of 4. -/
def badOffset (off : Nat) : Bool := decide (0x180000 ≤ off) || off % 4 ≠ 0

/-- REC_TRIG_SET, R610. -/
def execRecTrigSet (port tag : Nat) (s : State) : Host.Outcome State Fault Refusal :=
  done <| command 0x0B01 port tag s
    (fun fl =>
      let en := bit (par fl 0) 3
      [(decide (par fl 0 / 2 ^ 7 ≠ 0 ∨ par fl 1 / 2 ^ 22 ≠ 0), sRESERVED),
       (!en && decide (par fl 1 ≠ 0 ∨ par fl 2 ≠ 0 ∨ par fl 3 ≠ 0), sRESERVED),
       (en && excludedOffset (par fl 1), sBAD_PARAM),
       (decide (4 < bits (par fl 0) 4 3) || badOffset (par fl 1), sOUT_OF_RANGE)])
    (fun fl s =>
      let w := bits (par fl 0) 0 3
      let s := { s with log := { s.log with trigPrev := sset 0 w 0 s.log.trigPrev, trigOn := clrBit s.log.trigOn w } }
      s |> put (R.REC_TRIG.OFS w) (par fl 1) |> put (R.REC_TRIG.EN w) (bits (par fl 0) 3 1)
        |> put (R.REC_TRIG.OP w) (bits (par fl 0) 4 3) |> put (R.REC_TRIG.MASK w) (par fl 2)
        |> put (R.REC_TRIG.VALUE w) (par fl 3) |> put (R.REC_TRIG.TRUE w) 0 |> bumpGen |> complete fl sOK 0 0)

/-- REC_SNAP_SET, R611. -/
def execRecSnapSet (port tag : Nat) (s : State) : Host.Outcome State Fault Refusal :=
  done <| command 0x0B02 port tag s
    (fun fl =>
      [(decide (par fl 0 / 2 ^ 4 ≠ 0 ∨ par fl 1 / 2 ^ 22 ≠ 0 ∨ par fl 2 / 2 ^ 13 ≠ 0 ∨ par fl 2 % 2 ≠ 0), sRESERVED),
       (excludedOffset (par fl 1), sBAD_PARAM), (badOffset (par fl 1), sOUT_OF_RANGE)])
    (fun fl s =>
      let n := bits (par fl 0) 0 3
      s |> put (R.REC_SNAP.OFS n) (par fl 1) |> put (R.REC_SNAP.EN n) (bits (par fl 0) 3 1)
        |> put (R.REC_SNAP.GROUPS n) (bits (par fl 2) 1 12) |> bumpGen |> complete fl sOK 0 0)

/-- REC_CLEAR, R612: every record goes, the counts return to 0 and CLEARING is 1 until `execRecClearDone`. -/
def execRecClear (port tag : Nat) (s : State) : Host.Outcome State Fault Refusal :=
  done <| command 0x0B03 port tag s (fun _ => [(isOn s R.REC_STAT.CLEARING, sBUSY)])
    (fun fl s =>
      { s with log := { s.log with recs := [], clear := some (fl.port, fl.tag), lostBefore := get s R.REC_LOST.COUNT } }
        |> put R.REC_STAT.COUNT 0 |> put R.REC_STAT.FULL 0 |> put R.REC_LOST.COUNT 0 |> put R.REC_STAT.CLEARING 1
        |> markStarted fl.port fl.tag)

/-- REC_CLEAR_DONE, R612: REC_CLEARED is record 0, CLEARING returns to 0, and the command completes. -/
def effRecClearDone (s : State) : State :=
  if isOn s R.REC_STAT.CLEARING then
    let s1 := s |> appendRecord ⟨0x0B02, 0x3F, 0x3F, s.log.lostBefore, now s, false⟩ |> put R.REC_STAT.CLEARING 0
    let s2 := { s1 with log := { s1.log with clear := none } }
    match s.log.clear with
    | some (p, t) => completeAt p t sOK 0 0 s2
    | none => s2
  else s

/-- REC_CLEAR_DONE. -/
def execRecClearDone (s : State) : Host.Outcome State Fault Refusal := done (effRecClearDone s)

/-- HEALTH_SET, R613: settings in force from the next computation (R606). -/
def execHealthSet (port tag : Nat) (s : State) : Host.Outcome State Fault Refusal :=
  done <| command 0x0B04 port tag s
    (fun fl =>
      let th := bits (par fl 0) 0 8
      let hy := bits (par fl 0) 8 8
      let m0 := par fl 1
      let cs := (List.range 6).map fun c => par fl (2 + c)
      [(decide (par fl 0 / 2 ^ 16 ≠ 0 ∨ par fl 1 / 2 ^ 16 ≠ 0) || cs.any fun w => decide (w / 2 ^ 25 ≠ 0), sRESERVED),
       (decide (th < hy), sBAD_PARAM),
       (decide (th = 0 ∨ hy = 0 ∨ m0 < 16 ∨ 800 < m0) || cs.any (fun w => decide (256 < bits w 16 9))
          || [0, 2, 3, 4, 5].any fun c => bits (nth cs c) 12 4 = 0, sOUT_OF_RANGE)])
    (fun fl s =>
      s |> put R.HLT_CFG.TH (bits (par fl 0) 0 8) |> put R.HLT_CFG.HYST (bits (par fl 0) 8 8)
        |> put R.HLT_THERM.M0 (par fl 1)
        |> each (List.range 6) (fun c s => s |> put (R.HLT_CONTRIB.GAIN c) (bits (par fl (2 + c)) 0 12)
            |> put (R.HLT_CONTRIB.DECAY c) (bits (par fl (2 + c)) 12 4)
            |> put (R.HLT_CONTRIB.WEIGHT c) (bits (par fl (2 + c)) 16 9))
        |> bumpGen |> complete fl sOK 0 0)

end Sys2Proof.Machine
end

