-- ==== Sys2Proof/Machine/Startup.lean ====
section
/-! DEFINITION. Sys2Proof/Machine/Startup.lean: the boot flash, images and the boot-select record; what the stages of
boot do as each ends or reaches its bound; and the firmware update commands (R618 to R626, R631, R643 to R646). -/

namespace Sys2Proof.Machine

/-! Flash slots and images. Kind 0 is firmware, 1 configuration; slot 0 is A, 1 is B. -/

/-- The flash offset of a slot (R622). -/
def slotBase (kind slot : Nat) : Nat :=
  if kind = 0 then (if slot = 0 then 0x100000 else 0x300000) else (if slot = 0 then 0x500000 else 0x510000)

/-- The size of a slot of a kind (R622). -/
def slotSize (kind : Nat) : Nat := if kind = 0 then 0x200000 else 0x10000

/-- TOTAL_LEN of the image in a slot. -/
def imageLen (s : State) (kind slot : Nat) : Nat := readWord32 s (flashArea (slotBase kind slot + 8))

/-- The header of R624, TOTAL_LEN within the slot and no shorter than header and signature. -/
def headerGood (kind : Nat) (h : List Nat) : Bool :=
  let total := leAt h 0x08 4
  leAt h 0 4 = (if kind = 0 then 0x57465A4B else 0x46435A4B) && leAt h 4 2 = 1 && leAt h 6 2 = 160
    && decide (256 ≤ total ∧ total ≤ slotSize kind) && total % 8 = 0
    && leAt h 0x11 1 = 0 && decide (leAt h 0x12 2 ≤ 1) && (kind = 0 || leAt h 0x14 4 = 0) && leAt h 0x18 40 = 0

/-- The fused key digest of a kind, 48 bytes (R625). -/
def keyDigest (s : State) (kind : Nat) : List Nat :=
  leBytes 48 (get s (if kind = 0 then R.BOOT_KEY_FW.DIGEST else R.BOOT_KEY_CFG.DIGEST))

/-- The security version fused for a kind. -/
def fusedSvn (s : State) (kind : Nat) : Nat := get s (if kind = 0 then R.BOOT_SVN.FW_FUSED else R.BOOT_SVN.CFG_FUSED)

/-- The key and signature checks of R625 on an image. -/
def signatureGood (s : State) (kind : Nat) (l : List Nat) : Bool :=
  let total := l.length
  let kd := keyDigest s kind
  kd.any (· ≠ 0) && sha384 (slice l 0x40 96) = kd
    && ecdsaVerify (beNat (slice l 0x40 48)) (beNat (slice l 0x70 48)) (l.take (total - 96))
        (beNat (slice l (total - 96) 48)) (beNat (slice l (total - 48) 48))

/-- The bytes of the image in a slot, by its own TOTAL_LEN. -/
def imageOf (s : State) (kind slot : Nat) : List Nat :=
  readBytes s (flashArea (slotBase kind slot)) (min (slotSize kind) (imageLen s kind slot))

/-- What R625 finds against the image in a slot, as the checks of FW_COMMIT with their statuses (R645). -/
def imageChecks (s : State) (kind slot : Nat) : List (Bool × Nat) :=
  let h := readBytes s (flashArea (slotBase kind slot)) 160
  [(!headerGood kind h, sBAD_PARAM), (decide (leAt h 0x10 1 < fusedSvn s kind), sOUT_OF_RANGE),
   (!signatureGood s kind (imageOf s kind slot), sINTEGRITY)]

/-- Whether the image in a slot is valid (R625). -/
def imageValid (s : State) (kind slot : Nat) : Bool := (firstFail (imageChecks s kind slot)).isNone

/-- The payload of an image (R625). -/
def payloadOf (l : List Nat) : List Nat := slice l 160 (l.length - 256)

/-! The boot-select record (R622, R623). -/

/-- A boot-select record: SEQ and the preferred slots. -/
structure BootSel where
  seq : Nat
  fw : Nat
  cfg : Nat
deriving DecidableEq, Repr

/-- The record in a copy of 16 bytes, where its magic, slots, zero bytes and CRC are good. -/
def bootSelOf (b : List Nat) : Option BootSel :=
  if leAt b 0 4 = 0x4C535A4B ∧ leAt b 8 1 ≤ 1 ∧ leAt b 9 1 ≤ 1 ∧ leAt b 10 2 = 0 ∧ leAt b 12 4 = crc32 (b.take 12) then
    some ⟨leAt b 4 4, leAt b 8 1, leAt b 9 1⟩
  else none

/-- The record in force: the good copy of higher SEQ. -/
def bootSel (s : State) : Option BootSel :=
  match bootSelOf (readBytes s (flashArea 0) 16), bootSelOf (readBytes s (flashArea 0x1000) 16) with
  | some a, some b => if a.seq < b.seq then some b else some a
  | some a, none => some a
  | none, b => b

/-- The 16 bytes of a record. -/
def bootSelBytes (r : BootSel) : List Nat :=
  let b := leBytes 4 0x4C535A4B ++ leBytes 4 r.seq ++ [r.fw, r.cfg, 0, 0]
  b ++ leBytes 4 (crc32 b)

/-- A sector erased and programmed. -/
def flashWrite (o size : Nat) (b : List Nat) (s : State) : State :=
  s |> wipe (flashArea o) (flashArea (o + size)) |> writeBytes (flashArea o) b |> emit (.flash 0 o size) |> emit (.flash 1 o b.length)

/-- The slot that boots for a kind: the preferred one, then the other (R623). -/
def slotToBoot (s : State) (kind : Nat) : Option Nat :=
  let pref := match bootSel s with
    | some r => if kind = 0 then r.fw else r.cfg
    | none => 0
  [pref, 1 - pref].find? (imageValid s kind)

/-! Stages. -/

/-- The fuses describe a package within R8 (R9). -/
def fusesGood (s : State) : Bool :=
  decide (1 ≤ get s R.GOV_CFG.N_DIES ∧ get s R.GOV_CFG.N_DIES ≤ 16 ∧ get s R.GOV_CFG.N_LAYERS ≤ 4 ∧
    get s R.GOV_CFG.N_STACKS ≤ 16 ∧ get s R.GOV_CFG.N_LANES ≤ 512)

/-- The end of FUSE: the security unit derives its identity and the keys of P0 (R505, R508), and each die's
target is that of its operating point (R162). -/
def fusesLoaded (s : State) : State :=
  { s with sec := { s.sec with deviceKey := ecPrivate Config.deviceKey } } |> installKeys 0 |> each (dies s) retargetCore |> goStage 3

/-- The fastest read mode of R621 that a mask of them advertises, the modes in the order 1-1-1, 1-1-2, 1-2-2, 1-1-4 and
1-4-4, each faster than the one before (log 98). -/
def fastestMode (mask : Nat) : Nat := (List.range 5).foldl (fun a i => if bit mask i then i else a) 0

/-- The mode in which the ROM reads the flash, after it has read SFDP in mode 1-1-1 at 12.5 MHz (R621). What the flash
advertises is a free value (log 98). -/
def readMode (s : State) : State :=
  drawn (setBoot { s.boot with readMode := fastestMode (fresh s), addr4 := fresh s / 32 % 2 = 1 } s)

/-- The images of the slots taken in LOAD: digests, versions, the firmware in SRAM, and the alias key of this boot, with
attestations to another firmware lost (R508, R515, R621, R625). -/
def takeImages (fw cfg : Nat) (s : State) : State :=
  let a := imageOf s 0 fw
  let c := imageOf s 1 cfg
  let s := s |> readMode |> wipe (sramArea 0) (sramArea (2 ^ 22)) |> writeBytes (sramArea 0) (payloadOf a)
    |> put R.BOOT_STAT.FW_SLOT fw |> put R.BOOT_STAT.CFG_SLOT cfg |> put R.BOOT_FW.VER (leAt a 0x0C 4)
    |> put R.BOOT_SVN.FW_IMG (leAt a 0x10 1) |> put R.BOOT_SVN.CFG_IMG (leAt c 0x10 1)
    |> when (get s R.BOOT_DIG.DIGEST ≠ leNat (sha384 (payloadOf a))) (each (List.range 16) loseAttest)
    |> put R.BOOT_DIG.DIGEST (leNat (sha384 (payloadOf a))) |> put R.BOOT_CDIG.DIGEST (leNat (sha384 (payloadOf c)))
    |> setBoot { s.boot with svnFw := bit (leAt a 0x12 2) 0, svnCfg := bit (leAt c 0x12 2) 0, committed := false, loaded := true, runUs := 0, fwLen := (payloadOf a).length }
  let k := ecPrivate (fresh s)
  let n := ecPrivate (fresh (drawn s))
  drawn (drawn { s with sec := { s.sec with aliasKey := k, aliasNonce := n } })

/-- The settings of a configuration payload after its keys (R626): offset and value. -/
def settingsOf : List Nat → List (Nat × Nat)
  | a :: b :: c :: d :: e :: f :: g :: h :: t => (leNat [a, b, c, d], leNat [e, f, g, h]) :: settingsOf t
  | _ => []

/-- A key entry of a payload put into its slot (R626). -/
def keyEntry (b : List Nat) (keys : List (Option (Nat × Nat))) : List (Option (Nat × Nat)) :=
  upd keys (leAt b 0 1) (some (beNat (slice b 4 48), beNat (slice b 52 48)))

/-- Whether a payload has the form of R626. -/
def payloadGood (p : List Nat) : Bool :=
  let n := bits (leAt p 0 4) 0 3
  let m := bits (leAt p 0 4) 16 16
  let used := 4 + 100 * n + 8 * m
  decide (n ≤ 4) && bits (leAt p 0 4) 3 13 = 0 && p.length = 8 * cdiv used 8 && (p.drop used).all (· = 0)
    && (List.range n).all fun i => decide (leAt p (4 + 100 * i) 1 ≤ 3) && leAt p (5 + 100 * i) 3 = 0

/-- Whether R20 rejects a setting written through the firmware port: the write logs a violation of kind
VALUE. -/
def settingBad (s : State) (e : Nat × Nat) : Bool :=
  let t := effRegisterWrite 9 e.1 e.2 (put R.CMD_VIOL_STAT.COUNT 0 s)
  get t R.CMD_VIOL_STAT.COUNT ≠ 0 && get t (R.CMD_VIOL.KIND 0) = 2

/-- The settings applied in order, up to the first that is rejected: the state, and whether all were accepted
(R626). -/
def applySettings : List (Nat × Nat) → State → State × Bool
  | [], s => (s, true)
  | e :: t, s => if settingBad s e then (effRegisterWrite 9 e.1 e.2 s, false) else applySettings t (effRegisterWrite 9 e.1 e.2 s)

/-- The configuration image applied by firmware (R626). -/
def applyConfig (s : State) : State × Bool :=
  let p := payloadOf (imageOf s 1 (get s R.BOOT_STAT.CFG_SLOT))
  if payloadGood p then
    let n := bits (leAt p 0 4) 0 3
    let keys := (List.range n).foldl (fun k i => keyEntry (slice p (4 + 100 * i) 100) k) (List.replicate 4 none)
    applySettings ((settingsOf (p.drop (4 + 100 * n))).take (bits (leAt p 0 4) 16 16)) { s with estp := { s.estp with keys := keys } }
  else (s, false)

/-- Firmware is ready (R642). -/
def firmwareReady (s : State) : State := s |> put R.BOOT_STAT.AUTOPILOT 0 |> setBoot { s.boot with wdt := 0 }

/-- The bound of a stage in µs (R618). -/
def stageBound (s : State) (n : Nat) : Nat :=
  match n with
  | 2 => 200
  | 3 => 500000
  | 4 => 100000
  | 5 => get s R.BOOT_CFG.VIN_WAIT_MS * 1000
  | _ => 10000

/-- A governor warm reset whose LOAD or FW stage failed (R631): the rails stay up, the ROM serves group
0x0C, and the hardware goes on (R483, R642). -/
def warmFailed (s : State) : State := s |> put R.BOOT_STAT.CAUSE 5 |> faultOn 13 |> record 0x0C02 5 |> recovResume

/-- The end of a stage of a governor warm reset: LOAD, then FW (R628, R631). -/
def warmStageEnd (s : State) : State :=
  if get s R.BOOT_STAT.CAUSE = 5 then s
  else if !s.boot.loaded then
    (match slotToBoot s 0, slotToBoot s 1 with
     | some a, some c => s |> takeImages a c |> fun t => setBoot { t.boot with govUs := t.us } t
     | _, _ => s)
  else
    if s.boot.restart.isSome then s
    else
    let (t, ok) := applyConfig s
    if ok then t |> firmwareReady |> setBoot { (firmwareReady t).boot with govRst := false } |> recovResume |> ringListen else warmFailed t

/-- VIN has been at or above WARN + HYST for two samples in a row in stage VIN and in every sample of the 1 ms after
them (R618). -/
def vinGood (s : State) : Bool := decide (2 ≤ s.capp.above ∧ 1000 ≤ s.us - max s.capp.aboveUs s.boot.stageUs)

/-- BOOT_STAGE_END, R618: the end condition of the stage in progress holds. The conditions that the state
shows are judged; that firmware reports ready is what the command states. -/
def effBootStageEnd (s : State) : State :=
  if s.boot.govRst then warmStageEnd s
  else match stage s with
    | 1 => if clkState s = ckLOCKED ∨ clkState s = ckCOAST then goStage 2 s else s
    | 2 => if fusesGood s then fusesLoaded s else s
    | 3 =>
      match slotToBoot s 0, slotToBoot s 1 with
      | some a, some c => s |> takeImages a c |> goStage 4
      | _, _ => s
    | 4 =>
      if s.boot.restart.isSome then s
      else
      let (t, ok) := applyConfig s
      if ok then
        let t := firmwareReady t
        t |> setPins { t.pins with pwrgood := true } |> recovResume |> ringListen |> goVin
      else bootFail 3 t
    | 5 => if vinGood s then goCore s else s
    | 6 =>
      if railsUp s (32 :: liveDies s) then
        (if get s R.BOOT_STAT.GSTATE = 2 then goReady s else if s.boot.warmed then goMem s else goStage 7 s)
      else s
    | 7 => if nLayers s = 0 ∨ (s.boot.warmed ∧ get s R.FIL_WARM_STAT.STATE ≠ 1) then goMem s else s
    | 8 => if railsUp s ((liveDies s).map (16 + ·)) then goReady s else s
    | _ => s

/-- BOOT_STAGE_END. -/
def execBootStageEnd (s : State) : Host.Outcome State Fault Refusal := done (effBootStageEnd s)

/-- BOOT_STAGE_TIMEOUT, R618, R621, R631: the stage in progress reaches its bound; sfdp says whether the flash
showed a valid SFDP header: without one LOAD ends before it. -/
def effBootStageTimeout (sfdp : Bool) (s : State) : State :=
  if s.boot.govRst then
    if get s R.BOOT_STAT.CAUSE = 5 then s
    else if (!sfdp && !s.boot.loaded) || decide (stageBound s (if s.boot.loaded then 4 else 3) ≤ s.us - s.boot.govUs) then warmFailed s
    else s
  else if !(!sfdp && stage s = 3) && decide (s.us - s.boot.stageUs < stageBound s (stage s)) then s
  else match stage s with
    | 2 => bootFail 1 s
    | 3 => bootFail (if !sfdp then 2 else if (slotToBoot s 1).isNone then 3 else 4) s
    | 4 => bootFail 5 s
    | 5 => s |> put R.BOOT_STAT.CAUSE 6 |> goStage stOFF |> setBoot { s.boot with warmed := true }
    | 6 => powerDown 7 s
    | 8 => powerDown 7 s
    | _ => s

/-- BOOT_STAGE_TIMEOUT. -/
def execBootStageTimeout (sfdp : Bool) (s : State) : Host.Outcome State Fault Refusal := done (effBootStageTimeout sfdp s)

/-! Firmware update. -/

/-- The slot of a kind that is not the one booted (R643). -/
def otherSlot (s : State) (kind : Nat) : Nat := 1 - get s (if kind = 0 then R.BOOT_STAT.FW_SLOT else R.BOOT_STAT.CFG_SLOT)

/-- The slot of FW_OPEN, where it is this port's. -/
def slotHeld (s : State) (port : Nat) : Option FwSlot := s.boot.slot.filter fun x => x.port = port

/-- FW_OPEN, R643: failed says that the erase failed. -/
def execFwOpen (port tag : Nat) (failed : Bool) (s : State) : Host.Outcome State Fault Refusal :=
  done <| command 0x0C01 port tag s
    (fun fl =>
      let kind := par fl 0
      let len := par fl 1
      [(decide (kind / 2 ≠ 0), sRESERVED), (decide (len < 256 ∨ slotSize kind < len ∨ len % 8 ≠ 0), sOUT_OF_RANGE),
       (s.boot.slot.isSome, sBUSY)])
    (fun fl s =>
      let kind := par fl 0
      let o := slotBase kind (otherSlot s kind)
      let s := s |> wipe (flashArea o) (flashArea (o + slotSize kind)) |> emit (.flash 0 o (slotSize kind))
      if failed then complete fl sTIMEOUT 0 0 s
      else s |> setBoot { s.boot with slot := some ⟨port, kind, par fl 1⟩ } |> complete fl sOK 0 0)

/-- n words of free values from an address: the words of a failed program. -/
def freeWords : Nat → Nat → State → State
  | _, 0, s => s
  | a, n + 1, s => freeWords (a + 4) n (s |> writeWord32 a (fresh s) |> drawn)

/-- FW_WRITE, R644: failed says that programming failed. -/
def execFwWrite (port tag : Nat) (failed : Bool) (s : State) : Host.Outcome State Fault Refusal :=
  done <| command 0x0C02 port tag s
    (fun fl =>
      let o := par fl 0
      let n := fl.params.length - 1
      let beyond := match slotHeld s port with
        | some x => decide (x.length < o + 4 * n)
        | none => false
      [(decide (o / 2 ^ 22 ≠ 0), sRESERVED), (decide (n = 0), sBAD_PARAM), (o % 4 ≠ 0 || beyond, sOUT_OF_RANGE),
       ((slotHeld s port).isNone, sWRONG_STATE)])
    (fun fl s =>
      match slotHeld s port with
      | none => s
      | some x =>
        let a := slotBase x.kind (otherSlot s x.kind) + par fl 0
        let n := fl.params.length - 1
        let s := emit (.flash 1 a (4 * n)) s
        if failed then s |> freeWords (flashArea a) n |> (fun s => setBoot { s.boot with slot := none } s) |> complete fl sTIMEOUT 0 0
        else s |> writeWords (flashArea a) fl.params.tail |> complete fl sOK 0 0)

/-- The record that FW_COMMIT writes: SEQ + 1, the slot preferred for its kind, the other kind as before (R645). -/
def commitRecord (s : State) (kind : Nat) : BootSel :=
  let r := (bootSel s).getD ⟨0, get s R.BOOT_STAT.FW_SLOT, get s R.BOOT_STAT.CFG_SLOT⟩
  if kind = 0 then ⟨(r.seq + 1) % 2 ^ 32, otherSlot s 0, r.cfg⟩ else ⟨(r.seq + 1) % 2 ^ 32, r.fw, otherSlot s 1⟩

/-- A boot-select record whose write a loss of supply cuts: copy 1 is written first, then copy 0, and the copy in progress
is erased and holds only its first bytes (R645, R651). -/
def cutRecord (copy n : Nat) (b : List Nat) (s : State) : State :=
  if copy = 0 then s |> flashWrite 0x1000 0x1000 b |> flashWrite 0 0x1000 (b.take (min n 15))
  else flashWrite 0x1000 0x1000 (b.take (min n 15)) s

/-- FW_COMMIT, R645: with a record write that is whole, that fails, or that a loss of supply cuts, which is a cold reset
(R651). -/
def execFwCommit (port tag : Nat) (write : RecordWrite) (s : State) : Host.Outcome State Fault Refusal :=
  done <| command 0x0C03 port tag s
    (fun _ =>
      match slotHeld s port with
      | none => [(true, sWRONG_STATE)]
      | some x => imageChecks s x.kind (otherSlot s x.kind))
    (fun fl s =>
      match slotHeld s port with
      | none => s
      | some x =>
        let ver := readWord32 s (flashArea (slotBase x.kind (otherSlot s x.kind) + 0x0C))
        let b := bootSelBytes (commitRecord s x.kind)
        match write with
        | .failed => complete fl sTIMEOUT 0 0 s
        | .cut copy n => s |> cutRecord copy n b |> effColdReset s.pins.feedId true
        | .whole => s |> flashWrite 0x1000 0x1000 b |> flashWrite 0 0x1000 b |> setBoot { s.boot with slot := none, committed := true }
            |> record 0x0C03 ver |> complete fl sOK ver 0)

/-- FW_RESTART, R646: mode 0 waits for the restart; mode 1 starts a governor warm reset, which in BOOT_FAIL
goes on from LOAD once an FW_COMMIT has succeeded (R620). -/
def execFwRestart (port tag : Nat) (s : State) : Host.Outcome State Fault Refusal :=
  done <| command 0x0C04 port tag s
    (fun fl => [(decide (par fl 0 / 2 ≠ 0), sRESERVED)])
    (fun fl s =>
      if par fl 0 = 0 then
        let s := markStarted fl.port fl.tag s
        let s := setBoot { s.boot with fwCmd := some (fl.port, fl.tag) } s
        trigger 4 s
      else if stage s = stFAIL then (if s.boot.committed then leaveBootFail s else orphan s)
      else startWarm s)

end Sys2Proof.Machine
end

