-- ==== Sys2Proof/Machine/Dispatch.lean ====
section
/-! DEFINITION. Sys2Proof/Machine/Dispatch.lean: one arm per command, each one call of its meaning. -/

namespace Sys2Proof.Machine

def exec (i : Instr) (s : State) : Host.Outcome State Fault Refusal :=
  match i with
  | .judgeWindow window => Sys2Proof.Machine.execJudgeWindow window s
  | .lockMonitorWindow count => Sys2Proof.Machine.execLockMonitorWindow count s
  | .lockRetry => Sys2Proof.Machine.execLockRetry s
  | .bootClockTimeout => Sys2Proof.Machine.execBootClockTimeout s
  | .refLost => Sys2Proof.Machine.execRefLost s
  | .coastEnter => Sys2Proof.Machine.execCoastEnter s
  | .relockStart => Sys2Proof.Machine.execRelockStart s
  | .relockTimeout => Sys2Proof.Machine.execRelockTimeout s
  | .autoRelockWrite port value => Sys2Proof.Machine.execAutoRelockWrite port value s
  | .laneLoss die lane => Sys2Proof.Machine.execLaneLoss die lane s
  | .laneRetrain die lane => Sys2Proof.Machine.execLaneRetrain die lane s
  | .laneRestore die lane => Sys2Proof.Machine.execLaneRestore die lane s
  | .linkLost die => Sys2Proof.Machine.execLinkLost die s
  | .linkRestore die => Sys2Proof.Machine.execLinkRestore die s
  | .linkTrained die => Sys2Proof.Machine.execLinkTrained die s
  | .budgetFrame die frame kind a b => Sys2Proof.Machine.execBudgetFrame die frame kind a b s
  | .thresholdFrame die frame threshold => Sys2Proof.Machine.execThresholdFrame die frame threshold s
  | .tokensUsedFrame die frame real filler late => Sys2Proof.Machine.execTokensUsedFrame die frame real filler late s
  | .tlmFrame stage lane word => Sys2Proof.Machine.execTlmFrame stage lane word s
  | .tlmMissingFrame stage lane => Sys2Proof.Machine.execTlmMissingFrame stage lane s
  | .tlmLost stage lane => Sys2Proof.Machine.execTlmLost stage lane s
  | .superframe stage sameStart => Sys2Proof.Machine.execSuperframe stage sameStart s
  | .syncAcquire period => Sys2Proof.Machine.execSyncAcquire period s
  | .syncLoss => Sys2Proof.Machine.execSyncLoss s
  | .loopEvaluation vin volts sync disagree flagged => Sys2Proof.Machine.execLoopEvaluation vin volts sync disagree flagged s
  | .cmpHold rail => Sys2Proof.Machine.execCmpHold rail s
  | .feHold rail => Sys2Proof.Machine.execFeHold rail s
  | .hiccupEnter phase => Sys2Proof.Machine.execHiccupEnter phase s
  | .hiccupEnd phase => Sys2Proof.Machine.execHiccupEnd phase s
  | .hiccupRunClear phase => Sys2Proof.Machine.execHiccupRunClear phase s
  | .phaseRampEnd phase => Sys2Proof.Machine.execPhaseRampEnd phase s
  | .shedPhase rail => Sys2Proof.Machine.execShedPhase rail s
  | .brakeTimeout rail => Sys2Proof.Machine.execBrakeTimeout rail s
  | .openPhase phase => Sys2Proof.Machine.execOpenPhase phase s
  | .senseFailure phase => Sys2Proof.Machine.execSenseFailure phase s
  | .pmbPoll readings => Sys2Proof.Machine.execPmbPoll readings s
  | .pmbAlert statuses => Sys2Proof.Machine.execPmbAlert statuses s
  | .phaseRetire port tag => Sys2Proof.Machine.execPhaseRetire port tag s
  | .phaseRestore port tag => Sys2Proof.Machine.execPhaseRestore port tag s
  | .convVoutSet port tag acked => Sys2Proof.Machine.execConvVoutSet port tag acked s
  | .convClear port tag acked => Sys2Proof.Machine.execConvClear port tag acked s
  | .commit port rail value => Sys2Proof.Machine.execCommit port rail value s
  | .loopResume port tag => Sys2Proof.Machine.execLoopResume port tag s
  | .loopTest port tag => Sys2Proof.Machine.execLoopTest port tag s
  | .loopTestStop port tag => Sys2Proof.Machine.execLoopTestStop port tag s
  | .loopTestEnd => Sys2Proof.Machine.execLoopTestEnd s
  | .counterLatch counts => Sys2Proof.Machine.execCounterLatch counts s
  | .firstLayerDone die => Sys2Proof.Machine.execFirstLayerDone die s
  | .estimateFrame die frame window => Sys2Proof.Machine.execEstimateFrame die frame window s
  | .secondStage => Sys2Proof.Machine.execSecondStage s
  | .trimUpdate => Sys2Proof.Machine.execTrimUpdate s
  | .modelSwitch => Sys2Proof.Machine.execModelSwitch s
  | .stageTimeout => Sys2Proof.Machine.execStageTimeout s
  | .modelOpen port tag => Sys2Proof.Machine.execModelOpen port tag s
  | .modelWrite port tag => Sys2Proof.Machine.execModelWrite port tag s
  | .modelLoad port tag => Sys2Proof.Machine.execModelLoad port tag s
  | .modelClose port tag => Sys2Proof.Machine.execModelClose port tag s
  | .modelRevert port tag => Sys2Proof.Machine.execModelRevert port tag s
  | .trimReset port tag => Sys2Proof.Machine.execTrimReset port tag s
  | .intentPacket die word => Sys2Proof.Machine.execIntentPacket die word s
  | .intentFrame die lane bytes slot => Sys2Proof.Machine.execIntentFrame die lane bytes slot s
  | .entryExpire die source => Sys2Proof.Machine.execEntryExpire die source s
  | .mismatchEnter die => Sys2Proof.Machine.execMismatchEnter die s
  | .mismatchExit die => Sys2Proof.Machine.execMismatchExit die s
  | .droopDetect die site => Sys2Proof.Machine.execDroopDetect die site s
  | .droopClear die sites => Sys2Proof.Machine.execDroopClear die sites s
  | .droopReport die frame mask stamps => Sys2Proof.Machine.execDroopReport die frame mask stamps s
  | .siteStuck die site => Sys2Proof.Machine.execSiteStuck die site s
  | .siteTest die failing => Sys2Proof.Machine.execSiteTest die failing s
  | .intentReset port tag => Sys2Proof.Machine.execIntentReset port tag s
  | .droopSiteRestore port tag failing => Sys2Proof.Machine.execDroopSiteRestore port tag failing s
  | .droopForce port tag => Sys2Proof.Machine.execDroopForce port tag s
  | .agentSlot die work cut => Sys2Proof.Machine.execAgentSlot die work cut s
  | .episodeEnd die => Sys2Proof.Machine.execEpisodeEnd die s
  | .packageArbitration slotPs => Sys2Proof.Machine.execPackageArbitration slotPs s
  | .warmTimeout => Sys2Proof.Machine.execWarmTimeout s
  | .warmupEnd port tag => Sys2Proof.Machine.execWarmupEnd port tag s
  | .brownEnter => Sys2Proof.Machine.execBrownEnter s
  | .brownExit => Sys2Proof.Machine.execBrownExit s
  | .brownExpired => Sys2Proof.Machine.execBrownExpired s
  | .brownReset => Sys2Proof.Machine.execBrownReset s
  | .averageUpdate => Sys2Proof.Machine.execAverageUpdate s
  | .opFrequencySend die => Sys2Proof.Machine.execOpFrequencySend die s
  | .opChange report => Sys2Proof.Machine.execOpChange report s
  | .deferredApply => Sys2Proof.Machine.execDeferredApply s
  | .deferMax => Sys2Proof.Machine.execDeferMax s
  | .capSetDone => Sys2Proof.Machine.execCapSetDone s
  | .capSet port tag => Sys2Proof.Machine.execCapSet port tag s
  | .opTableSet port tag => Sys2Proof.Machine.execOpTableSet port tag s
  | .opLimit port tag => Sys2Proof.Machine.execOpLimit port tag s
  | .modeSet port tag => Sys2Proof.Machine.execModeSet port tag s
  | .hintSet port tag => Sys2Proof.Machine.execHintSet port tag s
  | .classSet port tag => Sys2Proof.Machine.execClassSet port tag s
  | .fpTarget port tag => Sys2Proof.Machine.execFpTarget port tag s
  | .conversionOpen => Sys2Proof.Machine.execConversionOpen s
  | .windowClose report counts => Sys2Proof.Machine.execWindowClose report counts s
  | .thermalConversion opened closed => Sys2Proof.Machine.execThermalConversion opened closed s
  | .stackReport stack frame report => Sys2Proof.Machine.execStackReport stack frame report s
  | .stackStale stack => Sys2Proof.Machine.execStackStale stack s
  | .thermThreshSet port tag => Sys2Proof.Machine.execThermThreshSet port tag s
  | .sensorExclude port tag => Sys2Proof.Machine.execSensorExclude port tag s
  | .sensorReadmit port tag => Sys2Proof.Machine.execSensorReadmit port tag s
  | .thermRelease port tag => Sys2Proof.Machine.execThermRelease port tag s
  | .masterFrameStart => Sys2Proof.Machine.execMasterFrameStart s
  | .ringFrame header slots => Sys2Proof.Machine.execRingFrame header slots s
  | .balanceRound => Sys2Proof.Machine.execBalanceRound s
  | .lRingApply => Sys2Proof.Machine.execLRingApply s
  | .ringJoin => Sys2Proof.Machine.execRingJoin s
  | .masterTakeover => Sys2Proof.Machine.execMasterTakeover s
  | .masterYield => Sys2Proof.Machine.execMasterYield s
  | .noMaster => Sys2Proof.Machine.execNoMaster s
  | .bypassClose => Sys2Proof.Machine.execBypassClose s
  | .digestRecompute => Sys2Proof.Machine.execDigestRecompute s
  | .getConfigDigest port tag => Sys2Proof.Machine.execGetConfigDigest port tag s
  | .ringForget port tag => Sys2Proof.Machine.execRingForget port tag s
  | .snapshot => Sys2Proof.Machine.execSnapshot s
  | .queueTaps report taps => Sys2Proof.Machine.execQueueTaps report taps s
  | .tapLate die => Sys2Proof.Machine.execTapLate die s
  | .walk stop => Sys2Proof.Machine.execWalk stop s
  | .engineFault report ctx engine fault => Sys2Proof.Machine.execEngineFault report ctx engine fault s
  | .policyQueue ctx => Sys2Proof.Machine.execPolicyQueue ctx s
  | .sequenceStart => Sys2Proof.Machine.execSequenceStart s
  | .fenceAck who outstanding => Sys2Proof.Machine.execFenceAck who outstanding s
  | .drainEnd who outstanding => Sys2Proof.Machine.execDrainEnd who outstanding s
  | .abortAck who answered => Sys2Proof.Machine.execAbortAck who answered s
  | .captureDone data trunc => Sys2Proof.Machine.execCaptureDone data trunc s
  | .captureOverrun data => Sys2Proof.Machine.execCaptureOverrun data s
  | .clearAck => Sys2Proof.Machine.execClearAck s
  | .releaseAck => Sys2Proof.Machine.execReleaseAck s
  | .sequenceStuck => Sys2Proof.Machine.execSequenceStuck s
  | .ctxReset port tag => Sys2Proof.Machine.execCtxReset port tag s
  | .ctxDismiss port tag => Sys2Proof.Machine.execCtxDismiss port tag s
  | .returnToService port tag => Sys2Proof.Machine.execReturnToService port tag s
  | .capwinSet port tag => Sys2Proof.Machine.execCapwinSet port tag s
  | .captureFree port tag => Sys2Proof.Machine.execCaptureFree port tag s
  | .entropyFail => Sys2Proof.Machine.execEntropyFail s
  | .drbgReseed => Sys2Proof.Machine.execDrbgReseed s
  | .keyCommit part => Sys2Proof.Machine.execKeyCommit part s
  | .keybusTimeout part => Sys2Proof.Machine.execKeybusTimeout part s
  | .prevEpochCount part pages inflight => Sys2Proof.Machine.execPrevEpochCount part pages inflight s
  | .scrubOverwriteDone part pages => Sys2Proof.Machine.execScrubOverwriteDone part pages s
  | .scrubFail part => Sys2Proof.Machine.execScrubFail part s
  | .partSet port tag => Sys2Proof.Machine.execPartSet port tag s
  | .partScrub port tag => Sys2Proof.Machine.execPartScrub port tag s
  | .portBind port tag => Sys2Proof.Machine.execPortBind port tag s
  | .spdmMsg port tag => Sys2Proof.Machine.execSpdmMsg port tag s
  | .keyRelease port tag => Sys2Proof.Machine.execKeyRelease port tag s
  | .keyRotate port tag => Sys2Proof.Machine.execKeyRotate port tag s
  | .debugSet port tag => Sys2Proof.Machine.execDebugSet port tag s
  | .commandFetch port packet => Sys2Proof.Machine.execCommandFetch port packet s
  | .cmdSqTailWrite port value => Sys2Proof.Machine.execCmdSqTailWrite port value s
  | .cmdCqHeadWrite port value => Sys2Proof.Machine.execCmdCqHeadWrite port value s
  | .negotiate port tag => Sys2Proof.Machine.execNegotiate port tag s
  | .violClear port tag => Sys2Proof.Machine.execViolClear port tag s
  | .lockForce port tag => Sys2Proof.Machine.execLockForce port tag s
  | .accessViolation port offset isWrite bytes value => Sys2Proof.Machine.execAccessViolation port offset isWrite bytes value s
  | .registerWrite port offset value => Sys2Proof.Machine.execRegisterWrite port offset value s
  | .highWordLatch port offset => Sys2Proof.Machine.execHighWordLatch port offset s
  | .mbxSend port value => Sys2Proof.Machine.execMbxSend port value s
  | .mbxForward dst => Sys2Proof.Machine.execMbxForward dst s
  | .mbxRecv port => Sys2Proof.Machine.execMbxRecv port s
  | .notifyEnableWrite port value => Sys2Proof.Machine.execNotifyEnableWrite port value s
  | .lockRead lock ports => Sys2Proof.Machine.execLockRead lock ports s
  | .lockRelease port lock value => Sys2Proof.Machine.execLockRelease port lock value s
  | .i3cPrivateWrite data => Sys2Proof.Machine.execI3cPrivateWrite data s
  | .i3cPrivateRead words => Sys2Proof.Machine.execI3cPrivateRead words s
  | .entdaa address => Sys2Proof.Machine.execEntdaa address s
  | .rstdaa => Sys2Proof.Machine.execRstdaa s
  | .enec events => Sys2Proof.Machine.execEnec events s
  | .disec events => Sys2Proof.Machine.execDisec events s
  | .setmwl length => Sys2Proof.Machine.execSetmwl length s
  | .setmrl length => Sys2Proof.Machine.execSetmrl length s
  | .getpid => Sys2Proof.Machine.execGetpid s
  | .getbcr => Sys2Proof.Machine.execGetbcr s
  | .getdcr => Sys2Proof.Machine.execGetdcr s
  | .getstatus => Sys2Proof.Machine.execGetstatus s
  | .getmwl => Sys2Proof.Machine.execGetmwl s
  | .getmrl => Sys2Proof.Machine.execGetmrl s
  | .recordWrite => Sys2Proof.Machine.execRecordWrite s
  | .recordReadLatch port offset => Sys2Proof.Machine.execRecordReadLatch port offset s
  | .watchTrigger trigger => Sys2Proof.Machine.execWatchTrigger trigger s
  | .healthCompute => Sys2Proof.Machine.execHealthCompute s
  | .recTrigSet port tag => Sys2Proof.Machine.execRecTrigSet port tag s
  | .recSnapSet port tag => Sys2Proof.Machine.execRecSnapSet port tag s
  | .recClear port tag => Sys2Proof.Machine.execRecClear port tag s
  | .recClearDone => Sys2Proof.Machine.execRecClearDone s
  | .healthSet port tag => Sys2Proof.Machine.execHealthSet port tag s
  | .supplyGood => Sys2Proof.Machine.execSupplyGood s
  | .coldReset cause => Sys2Proof.Machine.execColdReset cause s
  | .bootStageEnd => Sys2Proof.Machine.execBootStageEnd s
  | .bootStageTimeout sfdp => Sys2Proof.Machine.execBootStageTimeout sfdp s
  | .govWarmReset port value => Sys2Proof.Machine.execGovWarmReset port value s
  | .acceleratorReset port value => Sys2Proof.Machine.execAcceleratorReset port value s
  | .accResetEnd => Sys2Proof.Machine.execAccResetEnd s
  | .dieReset port value => Sys2Proof.Machine.execDieReset port value s
  | .dieResetEnd die => Sys2Proof.Machine.execDieResetEnd die s
  | .g1Enter port value => Sys2Proof.Machine.execG1Enter port value s
  | .g2Enter port value => Sys2Proof.Machine.execG2Enter port value s
  | .g0Return port value => Sys2Proof.Machine.execG0Return port value s
  | .g3Request port value => Sys2Proof.Machine.execG3Request port value s
  | .g2Abandoned die => Sys2Proof.Machine.execG2Abandoned die s
  | .powerDown => Sys2Proof.Machine.execPowerDown s
  | .autoRestart => Sys2Proof.Machine.execAutoRestart s
  | .lockstepMismatch => Sys2Proof.Machine.execLockstepMismatch s
  | .watchdogExpire => Sys2Proof.Machine.execWatchdogExpire s
  | .watchdogKick port value => Sys2Proof.Machine.execWatchdogKick port value s
  | .sramUe => Sys2Proof.Machine.execSramUe s
  | .sramCe count => Sys2Proof.Machine.execSramCe count s
  | .fwRequest => Sys2Proof.Machine.execFwRequest s
  | .fwRestartDone upsets => Sys2Proof.Machine.execFwRestartDone upsets s
  | .svnAdv kind => Sys2Proof.Machine.execSvnAdv kind s
  | .configScan upsets => Sys2Proof.Machine.execConfigScan upsets s
  | .safFaultClear port value => Sys2Proof.Machine.execSafFaultClear port value s
  | .fwOpen port tag failed => Sys2Proof.Machine.execFwOpen port tag failed s
  | .fwWrite port tag failed => Sys2Proof.Machine.execFwWrite port tag failed s
  | .fwCommit port tag write => Sys2Proof.Machine.execFwCommit port tag write s
  | .fwRestart port tag => Sys2Proof.Machine.execFwRestart port tag s
  | .selfRefreshReport report => Sys2Proof.Machine.execSelfRefreshReport report s
  | .keyBusAcknowledgement part order => Sys2Proof.Machine.execKeyBusAcknowledgement part order s
  | .entropySourceRestart => Sys2Proof.Machine.execEntropySourceRestart s
  | .readVoutAfterWrite port tag value acked => Sys2Proof.Machine.execReadVoutAfterWrite port tag value acked s
  | .correctableErrorReport report count => Sys2Proof.Machine.execCorrectableErrorReport report count s

end Sys2Proof.Machine
end

