-- ==== Sys2Proof/Machine/Tick.lean ====
section
/-! DEFINITION. Sys2Proof/Machine/Tick.lean: what one period of the clock does while no command waits: CLK_TIME,
the µs tick of R55 and what counts it, and the readings that change once a second (R55, R85, R87, R353,
R375, R431, R526, R527, R627, R639; log 1). -/

namespace Sys2Proof.Machine

/-- Whether this period ends a µs: 100 TCLK in LOCKED, 50 in COAST, 25 RC periods before the clock starts; in
RELOCK, where TCLK is on its way between, at a free point from 50 to 100 (R55; log 9). -/
def tickEnds (s : State) : Bool :=
  let n := s.clk.tickFrac + 1
  match clkState s with
  | 2 => 100 ≤ n
  | 3 => 50 ≤ n
  | 4 => 100 ≤ n || (50 ≤ n && fresh s % 2 = 1)
  | _ => 25 ≤ n

/-- Every 100 µs the pages and accesses still under a partition's previous epoch are asked for (R523). -/
def askCounts (s : State) : State :=
  each ((List.range 16).filter fun p => isOn s (R.SEC_PART_EPOCH.PREV_VALID p)) (fun p s => keySend (allLinks s p) p .count s) s

/-- What a µs counts: time in COAST or RELOCK, the active throttle reasons, the ride-through timer, warm-up,
the watchdog, the time in READY, the pages of a scrub, and the counts of previous epochs. -/
def microsecond (s : State) : State :=
  { s with us := s.us + 1 }
    |> when (coasting s) (addSat R.CLK_COAST_US.TIME 1)
    |> each (bitList 16 (get s R.CAP_THR_ACT.ACTIVE)) (fun n => addWrap (R.CAP_THR_US.TIME n) 1)
    |> (fun s => { s with
        capp := { s.capp with ride := s.capp.ride - 1 },
        boot := { s.boot with wdt := s.boot.wdt + 1, runUs := if stage s = stREADY then s.boot.runUs + 1 else s.boot.runUs } })
    |> when (get s R.FIL_WARM_STAT.STATE = 1) (fun s => put R.FIL_WARM_STAT.ELAPSED_S (min 65535 ((s.us - s.therm.warmUs) / 1000000)) s)
    |> each (List.range 16) scrubFalls |> when (decide ((s.us + 1) % 100 = 0)) askCounts

/-- A reading kept as readers see it until the next second (R526, R527). -/
def keepShown (f : Field) (v : Nat) (s : State) : State :=
  { s with sec := { s.sec with shown := sset 0 (fieldKey f) v s.sec.shown } }

/-- An energy in steps of 1,000,000 µJ. -/
def megaStep (v : Nat) : Nat := v - v % 1000000

/-- What a second brings: each partition's mean input power to the nearest mW (R12), and the coarsened readings. -/
def second (s : State) : State :=
  let n := s.sec.pwrCycles
  s |> each (List.range 16) (fun p s =>
      s |> put (R.SEC_PART_PWR.P p) (if n = 0 then 0 else powerCode (roundDiv (sget 0 p s.sec.pwrSum) n))
        |> when (!bit s.sec.frozenParts p) (keepShown (R.CAP_E_PART.ENERGY p) (megaStep (get s (R.CAP_E_PART.ENERGY p)))))
    |> keepShown R.CAP_E_SYS.ENERGY (megaStep (get s R.CAP_E_SYS.ENERGY))
    |> keepShown R.FIL_SYS_E.ENERGY (megaStep (get s R.FIL_SYS_E.ENERGY))
    |> each (List.range 8) (fun c s =>
      s |> keepShown (R.PST_PMB_DATA.IIN c) (get s (R.PST_PMB_DATA.IIN c)) |> keepShown (R.PST_PMB_DATA.IOUT c) (get s (R.PST_PMB_DATA.IOUT c)))
    |> (fun s => { s with sec := { s.sec with pwrSum := [], pwrCycles := 0 } })

/-- One period of the clock. The part of a µs counted goes on over a change of clock state (R55, R87; log 87). -/
def tick (s : State) : State :=
  let ends := tickEnds s
  let s := if clkState s = 4 ∧ 50 ≤ s.clk.tickFrac + 1 then drawn s else s
  let s := when s.clk.started (addWrap R.CLK_TIME.COUNT 1) s
  let s := { s with clk := { s.clk with tickFrac := if ends then 0 else s.clk.tickFrac + 1 } }
  if ends then
    let s := microsecond s
    if s.us % 1000000 = 0 then second s else s
  else s

/-- The tick as the outcome of a step on an empty queue. -/
def idle (s : State) : Host.Outcome State Fault Refusal := .next (tick s)

end Sys2Proof.Machine
end

