-- ==== Sys2Proof/Safety.lean ====
section
/-! DEFINITION. Sys2Proof/Safety.lean: the terms in which claims speak: the form that every step keeps, what one
state shares with another, a command that waits in flight and its completion. -/

namespace Sys2Proof.Machine

/-- Every table in its canonical form: the register file's keys strictly rising, byte memory and the tables by
die, rail, phase, lane, converter and partition strictly rising without an entry at its value at rest. -/
def State.wf (s : State) : Bool :=
  risesFrom 0 s.regs && Memory.wf s.mem && sparseWf (fun _ => LinkD.init) s.links && sparseWf (fun _ => LaneH.init) s.lanes
    && sparseWf (fun _ => PmbC.init) s.pmb && sparseWf (fun _ => PhaseH.init) s.phases && sparseWf RailH.init s.rails
    && sparseWf (fun _ => ItnD.init) s.itn && sparseWf (fun _ => TokD.init) s.tok && sparseWf (fun _ => CapD.init) s.capd
    && sparseWf (fun _ => EstD.init) s.estd && sparseWf (fun _ => PartH.init) s.sec.parts

/-- The fuses that R627 raises in service: the SVN of the images. -/
def isSvn (g : Field) : Bool := fieldKey g = fieldKey R.BOOT_SVN.FW_FUSED || fieldKey g = fieldKey R.BOOT_SVN.CFG_FUSED

/-- What every part of a command keeps of the state it began with: the queue, the canonical form, the fuses. -/
structure Kept (s0 s : State) : Prop where
  pending : s.pending = s0.pending
  wf : s0.wf = true → s.wf = true
  fuse : ∀ g : Field, keyClass (fieldKey g) = retCode Ret.fuse → isSvn g = false → get s g = get s0 g

/-- What every step keeps: the canonical form, and no event of a command that has ended waits outside the
recorder queue. -/
def State.Inv (s : State) : Prop := s.wf = true ∧ s.log.fresh = []

/-- A state without its queue, to compare what a command did beside it. -/
def State.bare (s : State) : State := { s with pending := [] }

/-- The recorder takes events, and its queue has room for n of one command (R597, R688). -/
structure Room (s : State) (n : Nat) : Prop where
  started : s.clk.started = true
  fresh : s.log.fresh = []
  room : s.log.queue.length + n ≤ 64

/-- An event of the package, and one of a die with the partition that owns it and whether that is confidential
(R528, R593, R597). -/
def pkgEvent (s : State) (code arg : Nat) : Event := ⟨code, 0x3F, 0x3F, arg, now s, false⟩
def dieEvent (s : State) (code d arg : Nat) : Event := ⟨code, d, ownerDie s d, arg, now s, d ≠ 0x3F && confDie s d⟩

/-- A received frame of die d's link is accepted, up to the core or down to the agent (R37, R660 to R662, R664): it
came on a lane in service of a trained link, it is a whole frame of its TYPE with a good CRC, and its SEQ is new. -/
structure Accepts (s : State) (up : Bool) (ty d : Nat) (fr : Frame) : Prop where
  present : isPresent s d = true
  trained : (linkOf s d).trained = true
  kept : (linkOf s d).lost = false
  lane : fr.lane < 2
  service : bit (linkOf s d).laneLost fr.lane = false
  good : frameGood ty fr.bytes = true
  ahead : seqAhead (if up then (linkOf s d).upSeq else (linkOf s d).downSeq) (frameSeq fr.bytes) = true

/-- A received frame is discarded: a bad CRC or another TYPE, a lane out of service, a SEQ that is not new, or a link
of no present die, not trained or lost (R37, R39, R662, R664). -/
def Dropped (s : State) (up : Bool) (ty d : Nat) (fr : Frame) : Prop :=
  frameGood ty fr.bytes = false ∨ bit (linkOf s d).laneLost fr.lane = true ∨
    seqAhead (if up then (linkOf s d).upSeq else (linkOf s d).downSeq) (frameSeq fr.bytes) = false ∨
    2 ≤ fr.lane ∨ isPresent s d = false ∨ (linkOf s d).trained = false ∨ (linkOf s d).lost = true

/-! Commands in flight. -/

/-- A command of an opcode waits in flight under a port and tag, and nothing keeps it from starting: firmware
(or the ROM) carries out commands, and no earlier command holds it (R559, R562). -/
structure Waiting (s : State) (op port tag : Nat) (fl : Flight) : Prop where
  flight : flightOf s port tag = some fl
  opcode : fl.opcode = op
  idle : fl.started = false
  runs : fwRuns s = true ∨ romRuns s op port = true
  order : orderedBlocked s fl = false

/-- The address of the next entry of a port's completion queue (R560). -/
def cqSlot (s : State) (port : Nat) : Nat := portArea port (0x340000 + 0x10 * (get s (R.CMD_CQ_TAIL.TAIL port) % 256))

/-- The command of a flight is answered (R556, R560, R564): its flight ended, its completion is the next entry of
its port's completion queue, and the tail counts it; a command that firmware submitted is answered to firmware
(R557). -/
structure Answered (s t : State) (fl : Flight) (status r0 r1 : Nat) : Prop where
  gone : flightOf t fl.port fl.tag = none
  port : fl.port < 9 →
    readWord32 t (cqSlot s fl.port) = fl.tag % 2 ^ 16 + status % 2 ^ 8 * 2 ^ 16 ∧
    readWord32 t (cqSlot s fl.port + 4) = fl.opcode % 2 ^ 16 + fl.sqIdx % 2 ^ 8 * 2 ^ 16 ∧
    readWord32 t (cqSlot s fl.port + 8) = r0 % 2 ^ 32 ∧ readWord32 t (cqSlot s fl.port + 12) = r1 % 2 ^ 32 ∧
    get t (R.CMD_CQ_TAIL.TAIL fl.port) = (get s (R.CMD_CQ_TAIL.TAIL fl.port) + 1) % 2 ^ 9
  firmware : 9 ≤ fl.port → .fwCompletion fl.tag status (r0 % 2 ^ 32) (r1 % 2 ^ 32) ∈ t.out

/-- The command of a flight is answered, and no byte of memory but its completion changed. -/
structure Completed (s t : State) (fl : Flight) (status r0 r1 : Nat) : Prop extends Answered s t fl status r0 r1 where
  memory : ∀ a, (fl.port < 9 → a < cqSlot s fl.port ∨ cqSlot s fl.port + 16 ≤ a) → readByte t a = readByte s a

/-! What a command may change. -/

/-- Whether an address lies in the completion queue of a port (R560). -/
def inQueue (a : Nat) : Bool := decide (a < 9 * 2 ^ 22 ∧ 0x340000 ≤ a % 2 ^ 22 ∧ a % 2 ^ 22 < 0x341000)

/-- From s to t no byte outside the completion queues changed but those from lo to hi - 1. -/
def StoresIn (s t : State) (lo hi : Nat) : Prop :=
  ∀ a, inQueue a = false → a < lo ∨ hi ≤ a → readByte t a = readByte s a

/-- A family of register fields: every instance of one field. -/
abbrev Fam := Nat → Nat → Field

/-- The family of a field with one instance, with an index, with two. -/
def the (f : Field) : Fam := fun _ _ => f
def every (f : Nat → Field) : Fam := fun i _ => f i
def every2 (f : Nat → Nat → Field) : Fam := f

/-- The settings of the scan by their place in its list, the LAST_BAD register beyond it (R649). -/
def scanField (i : Nat) : Field := scanFields[i]?.getD R.SAF_SCAN.LAST_BAD

/-- The parts of the state beside the register file and the queue: cq the bytes of the completion queues, mem every
other byte. -/
inductive Part where
  | mem | cq | free | out | resp | us | clk | links | lanes | pmb | phases | rails | test | self | itn | tok | capd | capp | estd
  | estp | therm | ring | recov | sec | host | i3c | log | boot | pins
deriving DecidableEq, Repr

/-- Whether two states share a part. -/
def Part.same (p : Part) (s t : State) : Prop :=
  match p with
  | .mem => ∀ a, inQueue a = false → readByte t a = readByte s a
  | .cq => ∀ a, inQueue a = true → readByte t a = readByte s a
  | .free => t.free = s.free
  | .out => t.out = s.out
  | .resp => t.resp = s.resp
  | .us => t.us = s.us
  | .clk => t.clk = s.clk
  | .links => t.links = s.links
  | .lanes => t.lanes = s.lanes
  | .pmb => t.pmb = s.pmb
  | .phases => t.phases = s.phases
  | .rails => t.rails = s.rails
  | .test => t.test = s.test
  | .self => t.self = s.self
  | .itn => t.itn = s.itn
  | .tok => t.tok = s.tok
  | .capd => t.capd = s.capd
  | .capp => t.capp = s.capp
  | .estd => t.estd = s.estd
  | .estp => t.estp = s.estp
  | .therm => t.therm = s.therm
  | .ring => t.ring = s.ring
  | .recov => t.recov = s.recov
  | .sec => t.sec = s.sec
  | .host => t.host = s.host
  | .i3c => t.i3c = s.i3c
  | .log => t.log = s.log
  | .boot => t.boot = s.boot
  | .pins => t.pins = s.pins

/-- One row of a table behind the registers. -/
inductive Cell where
  | link (d : Nat) | lane (n : Nat) | conv (c : Nat) | phase (n : Nat) | rail (r : Nat) | itn (d : Nat) | tok (d : Nat)
  | cap (d : Nat) | est (d : Nat)
deriving DecidableEq, Repr

/-- The part whose row a cell is. -/
def Cell.part : Cell → Part
  | .link _ => .links
  | .lane _ => .lanes
  | .conv _ => .pmb
  | .phase _ => .phases
  | .rail _ => .rails
  | .itn _ => .itn
  | .tok _ => .tok
  | .cap _ => .capd
  | .est _ => .estd

/-- Whether two states share a row. -/
def Cell.same (c : Cell) (s t : State) : Prop :=
  match c with
  | .link d => linkOf t d = linkOf s d
  | .lane n => laneOf t n = laneOf s n
  | .conv c => convOf t c = convOf s c
  | .phase n => phaseOf t n = phaseOf s n
  | .rail r => railOf t r = railOf s r
  | .itn d => itnOf t d = itnOf s d
  | .tok d => tokOf t d = tokOf s d
  | .cap d => capOf t d = capOf s d
  | .est d => estOf t d = estOf s d

/-- What a command may change: register families, whole retention classes (back to their reset values), rows of
tables, whole parts. -/
structure Print where
  regs : List Fam
  classes : List Ret
  cells : List Cell
  parts : List Part

/-- From s to t nothing changed but what a footprint allows: every other register field, every other row and
every other part is as before. -/
structure Within (p : Print) (s t : State) : Prop where
  regs : ∀ g : Field, (∀ φ ∈ p.regs, ∀ i j, fieldKey (φ i j) ≠ fieldKey g) →
    (∀ c ∈ p.classes, keyClass (fieldKey g) ≠ retCode c) → get t g = get s g
  cells : ∀ c : Cell, c ∉ p.cells → c.part ∉ p.parts → c.same s t
  parts : ∀ q : Part, q ∉ p.parts → (∀ c ∈ p.cells, c.part ≠ q) → q.same s t

end Sys2Proof.Machine
end

