-- ==== Sys2Proof/Certificates/Slice0/Obligations.lean ====
section
/-! DEFINITION. Sys2Proof/Certificates/Slice0/Obligations.lean: the statements for the provers: what each command does where it
completes, the rules of the spec that a statement quotes, what every step keeps, and what each command leaves as it was. -/

namespace Sys2Proof.Machine

/-- COAST entered (R70). -/
structure CoastEntered (s t : State) : Prop where
  state : clkState t = 3
  coast : get t R.CLK_STATUS.COAST = 1
  syncLost : get t R.CLK_STATUS.SYNC_LOST = 1
  refLost : get t R.CLK_EVENT.REF_LOST = 1
  entered : get t R.CLK_EVENT.COAST_ENTER = 1
  count : get t R.CLK_COAST_CNT.COUNT = min 0xFFFF (get s R.CLK_COAST_CNT.COUNT + 1)

/-- A frame time of a telemetry lane without a good frame (R105). -/
structure FrameMissed (s t : State) (g l : Nat) : Prop where
  bad : (laneOf t (2 * g + l)).bad = min 16 ((laneOf s (2 * g + l)).bad + 1)
  good : (laneOf t (2 * g + l)).good = 0
  errors : get t (laneErr g l) = min 65535 (get s (laneErr g l) + 1)
  lock : get t (laneOk g l) = if 2 ≤ (laneOf s (2 * g + l)).bad then 0 else get s (laneOk g l)
  raised : bit (get t R.PST_EVENT) 4 = true

/-- The SF of a stage (R107): both halves, the first from bit 0. -/
def superOf (s : State) (g : Nat) : Nat := (laneOf s (2 * g)).half.getD 0 + (laneOf s (2 * g + 1)).half.getD 0 * 2 ^ 32

/-- Both halves of a stage's superframe wait, received whole in frame lock (R107, R108). -/
structure Halves (s : State) (g : Nat) : Prop where
  fitted : laneFitted s g 0 = true
  first : (laneOf s (2 * g)).half.isSome = true
  second : (laneOf s (2 * g + 1)).half.isSome = true

/-- A port's aligned 32-bit write to an offset of the window is answered and is no violation (R548, R549, R682). -/
structure Writes (s : State) (p off : Nat) : Prop where
  port : p < 10
  offset : off < 2 ^ 22
  answered : answers s p off = true
  allowed : violates s p off true 4 = false

/-- HOLD entered with a cause (R184): state, cause, the held duty of R183, the fault. -/
structure HoldEntered (s t : State) (r cause : Nat) : Prop where
  state : loopState t r = lpHOLD
  why : get t (R.LPE_STAT.CAUSE r) = cause
  fault : bit (get t R.SAF_FAULT) 1 = true
  duty : get t (R.LPE_DUTY.U_SAT r) = heldDuty s r % 2 ^ 16
  raised : bit (get t R.LPE_EVENT) (if cause = 2 then 3 else 1) = true

/-- No change waits, and no die of a mask is in COLLECTIVE: a change takes effect at once (R368). -/
structure AtOnce (s : State) (m : Nat) : Prop where
  none : s.capp.deferred = []
  free : collective s m = false

/-- Warning and throttle threshold of a kind: 0 die, 1 layer, 2 stack (R416). -/
def warnOf (k : Nat) : Field := if k = 0 then R.THM_TH_DIE.WARN else if k = 1 then R.THM_TH_LAYER.WARN else R.THM_TH_STK.WARN

def throttleOf (k : Nat) : Field := if k = 0 then R.THM_TH_DIE.THR else if k = 1 then R.THM_TH_LAYER.THR else R.THM_TH_STK.THR

/-- The sequence on a context of the 4,096 is in a state of R467, and no governor warm reset holds it (R483). -/
structure SeqAt (s : State) (q : SeqH) (st : Nat) : Prop where
  current : s.recov.cur = some q
  runs : s.recov.hold = false
  ctx : q.ctx < 4096
  state : ctxState s q.ctx = st

/-- A context named or reset at its victim record (R465, R466): the next of the 64 entries holds context, kind and detail, and the head
points at it. -/
structure VictimAt (s t : State) (c kind detail : Nat) : Prop where
  head : get t R.HNG_VIC_HEAD.IDX = if get s (R.HNG_VICTIM.KIND 0) = 0 then 0 else (get s R.HNG_VIC_HEAD.IDX + 1) % 64
  ctx : get t (R.HNG_VICTIM.CTX (get t R.HNG_VIC_HEAD.IDX)) = c
  kind : get t (R.HNG_VICTIM.KIND (get t R.HNG_VIC_HEAD.IDX)) = kind
  detail : get t (R.HNG_VICTIM.DETAIL (get t R.HNG_VIC_HEAD.IDX)) = detail

/-- The key operation of a partition, by kind, flight and slot (R519, R522, R523). -/
structure KeyOpIs (s : State) (p kind : Nat) (o : KeyOp) : Prop where
  part : p < 16
  running : (partOf s p).op = some o
  kind : o.kind = kind
  slot : o.slot < 16
  quiet : (partOf s p).scrub = none

/-- The words of the entry at the head of a port's command queue (R555). -/
def headWords (s : State) (p : Nat) : List Nat :=
  (List.range 255).map fun k => readWord32 s (portArea p (0x300000 + 0x400 * (get s (R.CMD_SQ_HEAD.HEAD p) % 256) + 4 * k))

/-- The flight of that entry. -/
def headFlight (s : State) (p : Nat) : Flight := flightIn s p (get s (R.CMD_SQ_HEAD.HEAD p) % 256) (headWords s p)

/-- A stage of boot runs, no governor warm reset (R617, R618). -/
structure Booting (s : State) (n : Nat) : Prop where
  stage : stage s = n
  cold : s.boot.govRst = false

/-- A power-down (R636): OFF with its cause, every loop OFF, PKG_RESET_N low, every grant 0. -/
structure PoweredDown (t : State) (cause : Nat) : Prop where
  stage : stage t = stOFF
  cause : get t R.BOOT_STAT.CAUSE = cause
  loops : ∀ r < 33, loopState t r = lpOFF
  reset : t.pins.pkgResetN = false
  grants : ∀ d, isPresent t d = true → (tokOf t d).grant = 0

/-- A firmware restart may begin (R639 to R641): firmware runs, from stage FW on. -/
structure MayRestart (s : State) : Prop where
  idle : s.boot.restart = none
  up : coresUp s = true
  few : (s.boot.restarts.filter fun x => decide (s.us - x < get s R.SAF_CFG.RESTART_S * 1000000)).length < get s R.SAF_CFG.RESTART_N

/-- A firmware restart began with a trigger (R640, R642). -/
structure Restarting (s t : State) (k : Nat) : Prop where
  trigger : t.boot.restart = some k
  autopilot : get t R.BOOT_STAT.AUTOPILOT = 1
  count : get t R.BOOT_CNT.FW_RESTARTS = min 65535 (get s R.BOOT_CNT.FW_RESTARTS + 1)
  spdm : t.sec.spdm = []
  event : bit (get t R.SAF_EVENT) 5 = true
  record : Room s 1 → pkgEvent s 0x0C01 k ∈ t.log.queue

/-- The windows of class GOV, which a governor warm reset clears: each port's queues and the SPDM responses (R21, R545, R592). -/
def inWarm (a : Nat) : Bool :=
  decide (a < 10 * 2 ^ 22 ∧ 0x300000 ≤ a % 2 ^ 22 ∧ a % 2 ^ 22 < 0x341000) || decide (sharedArea 0x108000 ≤ a ∧ a < sharedArea 0x112000)

/-- Bytes of SRAM changed by upsets (R640). -/
def upsetSram (ups : List (Nat × Nat)) (s : State) : State := each ups (fun u => writeBytes (sramArea (u.1 % 2 ^ 22)) [u.2]) s

/-- What a command that records events may change: the registers, classes, rows and parts listed, the recorder queue, and the two registers
that count an event for which the queue has no room (R597). -/
def logged (regs : List Fam) (classes : List Ret) (cells : List Cell) (parts : List Part) : Print :=
  ⟨the R.REC_EVENT :: the R.REC_LOST.COUNT :: regs, classes, cells, .log :: parts⟩

/-- What a command that answers a command in flight may change beside: the completion queues, their tails, the notification bits, the flights
and the output (R556, R560, R564, R582). -/
def answered (regs : List Fam) (classes : List Ret) (cells : List Cell) (parts : List Part) : Print :=
  logged (every R.CMD_CQ_TAIL.TAIL :: every R.CMD_NOTIFY :: regs) classes cells (.host :: .cq :: .out :: parts)

end Sys2Proof.Machine

open Sys2Proof Sys2Proof.Machine

/-- Judgement, lock and retry of the clock unit complete: JUDGE_WINDOW (R58 to R60, R64), which shows its count (R91) and in COAST its count
of TCLK edges (R395), LOCK_MONITOR_WINDOW (R61, R66), LOCK_RETRY (R62), BOOT_CLOCK_TIMEOUT (R63). REFCLK lost and COAST (R66 to R70, R76,
R79, R80): REF_LOST, COAST_ENTER, RELOCK_START, RELOCK_TIMEOUT complete. Where REF_OK falls, the saturated count, which window calibrates,
and that the count of failed RELOCKs goes on until one succeeds, are the model's choices (logs 70, 87, 93). -/
def Obligations.ClockLocks : Prop :=
  (∀ s count tclk, stage s ≠ 0 → (clkState s = 0 ∨ clkState s = 3) → 15565 ≤ count → count ≤ 17203 → 2 ≤ s.clk.run →
    ∃ t, exec (.judgeWindow ⟨count, tclk⟩) s = .next t ∧ get t R.CLK_REF_COUNT.COUNT = count ∧ get t R.CLK_STATUS.REF_OK = 1 ∧
      clkState t = if clkState s = 0 then 1 else 3) ∧
  (∀ s count tclk, stage s ≠ 0 → (clkState s = 0 ∨ clkState s = 3) → count < 15565 ∨ 17203 < count →
    ∃ t, exec (.judgeWindow ⟨count, tclk⟩) s = .next t ∧ get t R.CLK_REF_COUNT.COUNT = min 0xFFFF count ∧
      get t R.CLK_STATUS.REF_OK = 0 ∧ get t R.CLK_EVENT.JUDGE_FAIL = 1 ∧ t.clk.run = 0 ∧ clkState t = clkState s) ∧
  (∀ s count tclk, stage s ≠ 0 → clkState s = 3 → s.therm.coastWin = true →
    ∃ t, exec (.judgeWindow ⟨count, tclk⟩) s = .next t ∧ get t R.THM_COAST_CAL.CT = min 0xFFFF tclk ∧ t.therm.coastCal = true) ∧
  (∀ s count, s.clk.lost = false → (clkState s = 1 ∨ clkState s = 4) → 1023 ≤ count → count ≤ 1025 → rootNear s = true →
    ∃ t, exec (.lockMonitorWindow count) s = .next t ∧ clkState t = 2 ∧ get t R.CLK_STATUS.REF_OK = 1 ∧
      get t R.CLK_STATUS.COAST = 0 ∧ (clkState s = 4 → get t R.CLK_EVENT.COAST_EXIT = 1)) ∧
  (∀ s count, s.clk.lost = false → clkState s = 2 → count < 1019 ∨ 1029 < count → s.clk.monFail ≠ 0 →
    ∃ t, exec (.lockMonitorWindow count) s = .next t ∧ t.clk.lost = true ∧ get t R.CLK_STATUS.REF_OK = 0 ∧
      (Room s 1 → pkgEvent s 0x0101 0 ∈ t.log.queue)) ∧
  (∀ s, clkState s = 1 → 200 ≤ s.us - s.clk.since → s.clk.waits = false → s.clk.bootLate = false → s.clk.retries < 2 →
    ∃ t, exec .lockRetry s = .next t ∧ clkState t = 0 ∧ get t R.CLK_EVENT.LOCK_RETRY = 1 ∧
      t.clk.retries = s.clk.retries + 1 ∧ get t R.CLK_STATUS.LOCK_FAIL = get s R.CLK_STATUS.LOCK_FAIL) ∧
  (∀ s, clkState s = 1 → 200 ≤ s.us - s.clk.since → s.clk.waits = false → s.clk.bootLate = true → s.clk.retries < 2 →
    ∃ t, exec .lockRetry s = .next t ∧ get t R.CLK_EVENT.LOCK_RETRY = 1 ∧ get t R.CLK_STATUS.REF_OK = 0 ∧
      get t R.CLK_STATUS.LOCK_FAIL = get s R.CLK_STATUS.LOCK_FAIL ∧ clkState t = if get s R.CLK_CFG.COAST_BOOT = 0 then 0 else 3) ∧
  (∀ s, clkState s = 1 → 200 ≤ s.us - s.clk.since → s.clk.waits = true → s.clk.retries < 2 →
    ∃ t, exec .lockRetry s = .next t ∧ clkState t = 1 ∧ get t R.CLK_EVENT.LOCK_RETRY = 1 ∧ t.clk.retries = s.clk.retries + 1) ∧
  (∀ s, clkState s = 1 → 200 ≤ s.us - s.clk.since → 2 ≤ s.clk.retries → ∃ t, exec .lockRetry s = .next t ∧ get t R.CLK_STATUS.LOCK_FAIL = 1 ∧
      clkState t = if get s R.CLK_CFG.COAST_BOOT = 0 then 0 else 3) ∧
  (∀ s, stage s ≠ 0 → s.clk.started = false → clkState s = 0 → 10000 ≤ s.us - s.clk.goodUs →
    ∃ t, exec .bootClockTimeout s = .next t ∧ clkState t = if get s R.CLK_CFG.COAST_BOOT = 0 then 0 else 3) ∧
  (∀ s, (clkState s = 2 ∨ clkState s = 4) → s.clk.lost = false → ∃ t, exec .refLost s = .next t ∧ t.clk.lost = true ∧
    get t R.CLK_STATUS.REF_OK = 0 ∧ clkState t = clkState s ∧ (Room s 1 → pkgEvent s 0x0101 0 ∈ t.log.queue)) ∧
  (∀ s, (clkState s = 2 ∨ clkState s = 4) → s.clk.lost = true → ∃ t, exec .coastEnter s = .next t ∧ CoastEntered s t ∧
    get t R.PST_SYNC_STAT.LOCK = 0 ∧ t.clk.slotPs = 200000 ∧
    (Room s 2 → pkgEvent s 0x0102 (min 0xFFFF (get s R.CLK_COAST_CNT.COUNT + 1)) ∈ t.log.queue)) ∧
  (∀ s, clkState s = 3 → get s R.CLK_STATUS.REF_OK = 1 → get s R.CLK_CFG.AUTO_RELOCK = 1 →
    ∃ t, exec .relockStart s = .next t ∧ clkState t = 4 ∧ get t R.CLK_STATUS.COAST = 1) ∧
  (∀ s, clkState s = 4 → 500 ≤ s.us - s.clk.since → ∃ t, exec .relockTimeout s = .next t ∧ CoastEntered s t ∧ get t R.CLK_EVENT.LOCK_RETRY = 1 ∧
    t.clk.slotPs = s.clk.slotPs ∧ t.clk.settling = true ∧ t.clk.relockFails = min 3 (s.clk.relockFails + 1) ∧
    get t R.CLK_CFG.AUTO_RELOCK = (if 2 ≤ s.clk.relockFails then 0 else get s R.CLK_CFG.AUTO_RELOCK) ∧
    (Room s 2 → pkgEvent s 0x0102 (min 0xFFFF (get s R.CLK_COAST_CNT.COUNT + 1)) ∈ t.log.queue))

/-- Lanes and links are lost and return (R28, R38 to R40, R270, R406, R659, R662, R664): a lane goes out of service, which the
agent reports in a frame on the other, and comes back; an attempt to retrain one changes nothing (log 61); a link in LINK_LOST holds its die
at the floor, restoring it copies the agent's profile, training starts the sequence numbers anew. What an agent keeps through LINK_LOST, when
the numbers begin anew, and that the agent's count begins there too, are the model's choices (logs 47, 76, 91). -/
def Obligations.LinksLoseAndReturn : Prop :=
  (∀ s d lane, isPresent s d = true → (linkOf s d).trained = true → (linkOf s d).lost = false → lane < 2 → (linkOf s d).laneLost = 0 →
    ∃ t, exec (.laneLoss d lane) s = .next t ∧ 
      linkOf t d = { linkOf s d with laneLost := 2 ^ lane, upSent := nextSent true s d, upSeq := some (nextSent true s d) } ∧
      (Room s 1 → dieEvent s 0x0104 d lane ∈ t.log.queue)) ∧
  (∀ s d lane, s.log.fresh = [] → exec (.laneRetrain d lane) s = .next s) ∧
  (∀ s d lane, isPresent s d = true → lane < 2 → ∃ t, exec (.laneRestore d lane) s = .next t ∧
      linkOf t d = { linkOf s d with laneLost := clrBit (linkOf s d).laneLost lane }) ∧
  (∀ s d, isPresent s d = true → dieInReset s d = false → (linkOf s d).lost = false →
    ∃ t, exec (.linkLost d) s = .next t ∧
      linkOf t d = { linkOf s d with lost := true, held := (agentFields d).map fun f => (fieldKey f, get s f), own := [] } ∧ get t (R.THM_DIE_STAT.STALE d) = 1 ∧
      get t (R.CAP_DIE_BUD.BUDGET d) = (if dieLost s d then 0 else floorIssue s d) % 2 ^ 12) ∧
  (∀ s d, isPresent s d = true → (linkOf s d).lost = true →
    ∃ t, exec (.linkRestore d) s = .next t ∧ (linkOf t d).lost = false ∧ (linkOf t d).held = [] ∧ (linkOf t d).own = [] ∧ (itnOf t d).core = (itnOf t d).agent) ∧
  (∀ s d, isPresent s d = true → (linkOf s d).trained = false → sitesArmed s d = true →
    ∃ t, exec (.linkTrained d) s = .next t ∧ (linkOf t d).trained = true ∧ (linkOf t d).lost = false ∧
      (linkOf t d).downSeq = none ∧ (linkOf t d).upSeq = none ∧ (linkOf t d).base = now s)

/-- Frames of a trained link are accepted once, by lane, TYPE, CRC and sequence number (R37, R307, R313, R660 to R662): each kind takes its
effect and the number is remembered; a share for another slot than the next comes too late, and a frame that is not accepted changes
nothing. Payloads that the spec does not lay out are operands, and numbers begin anew at training (log 91, the model's choice). -/
def Obligations.FramesByNumber : Prop :=
  (∀ s d fr a, Accepts s false tyGRANT d fr → ∃ t, exec (.budgetFrame d fr 0 a ((tokOf s d).slot + 1)) s = .next t ∧
    (tokOf t d).shareNext = some (min 4095 a) ∧ (linkOf t d).downSeq = some (frameSeq fr.bytes)) ∧
  (∀ s d fr a b, Accepts s false tyGRANT d fr → b ≠ (tokOf s d).slot + 1 → ∃ t, exec (.budgetFrame d fr 0 a b) s = .next t ∧
    tokOf t d = tokOf s d ∧ (linkOf t d).downSeq = some (frameSeq fr.bytes)) ∧
  (∀ s d fr a b, Accepts s false tyGRANT d fr → ∃ t, exec (.budgetFrame d fr 1 a b) s = .next t ∧
    (tokOf t d).budgetNext = some (min 4095 a, s.clk.slotPs) ∧ (linkOf t d).downSeq = some (frameSeq fr.bytes)) ∧
  (∀ s d fr a b, Accepts s false tyGRANT d fr → ∃ t, exec (.budgetFrame d fr 2 a b) s = .next t ∧
    (tokOf t d).slewNext = some (lockedOf s (min 4095 a), lockedOf s (min 4095 b)) ∧ (linkOf t d).downSeq = some (frameSeq fr.bytes)) ∧
  (∀ s d fr a b, Accepts s false tyGRANT d fr → ∃ t, exec (.budgetFrame d fr 3 a b) s = .next t ∧
    (tokOf t d).floorNext = some (lockedOf s (min 4095 a)) ∧ (linkOf t d).downSeq = some (frameSeq fr.bytes)) ∧
  (∀ s d fr v, Accepts s false tyORDER d fr → ∃ t, exec (.thresholdFrame d fr v) s = .next t ∧
    (itnOf t d).threshold = v ∧ (linkOf t d).downSeq = some (frameSeq fr.bytes)) ∧
  (∀ s d fr real filler late, Accepts s true tyTOKENS d fr → real < 4096 → filler < 4096 → (tokOf s d).winLast = none →
    ∃ t, exec (.tokensUsedFrame d fr real filler late) s = .next t ∧ (linkOf t d).upSeq = some (frameSeq fr.bytes) ∧
      (tokOf t d).usedSum = (tokOf s d).usedSum + real ∧ (tokOf t d).totalSum = (tokOf s d).totalSum + real + filler ∧
      (tokOf t d).reports = (tokOf s d).reports + 1 ∧
      (tokOf t d).repLast = (if get s (R.TOK_DIE_STAT.GRANT d) = 0 then floorIssue s d
        else max (floorIssue s d) (min (get s (R.TOK_DIE_STAT.GRANT d)) (real + filler)))) ∧
  (∀ s d fr real filler late k, Accepts s true tyTOKENS d fr → real < 4096 → filler < 4096 → (tokOf s d).winLast = some k →
    (tokOf s d).slot ≤ k + 1 → ∃ t, exec (.tokensUsedFrame d fr real filler late) s = .next t ∧
      (tokOf t d).win = ((tokOf s d).win.1 + real, (tokOf s d).win.2 + 1) ∧ (tokOf t d).usedSum = (tokOf s d).usedSum) ∧
  (∀ s d fr kind a b, s.log.fresh = [] → Dropped s false tyGRANT d fr → exec (.budgetFrame d fr kind a b) s = .next s) ∧
  (∀ s d fr v, s.log.fresh = [] → Dropped s false tyORDER d fr → exec (.thresholdFrame d fr v) s = .next s) ∧
  (∀ s d fr real filler late, s.log.fresh = [] → Dropped s true tyTOKENS d fr → exec (.tokensUsedFrame d fr real filler late) s = .next s)

/-- Stage telemetry: a good frame in lock gives four samples (R102, R103), a fourth good one out of lock regains it (R104), a bad or
missing one is counted (R105), two halves of one superframe give the stage's status (R107, R108). TLM_FRAME, TLM_MISSING_FRAME, SUPERFRAME
complete. Which MARK is a correct one in lock, and how long a half waits for the other, are the model's choices (log 88). -/
def Obligations.TelemetryIsTaken : Prop :=
  (∀ s g l w, laneFitted s g l = true → s.clk.started = true → bit w 63 = true → popcount 64 w % 2 = 0 → isOn s (laneOk g l) = true →
    ∃ t, exec (.tlmFrame g l w) s = .next t ∧ (laneOf t (2 * g + l)).bad = 0 ∧ (laneOf t (2 * g + l)).good = 4 ∧
      ∀ c < 4, getI t (R.PST_PH_I.I (8 * g + 4 * l + c)) = toSigned 15 (bits w (47 - 15 * c) 15) ∧
        (phaseOf t (8 * g + 4 * l + c)).faulted = decide (bits w (47 - 15 * c) 15 = 0x4000)) ∧
  (∀ s g l w, laneFitted s g l = true → s.clk.started = true → bit w 63 = true → popcount 64 w % 2 = 0 → get s (laneOk g l) = 0 →
    ∃ t, exec (.tlmFrame g l w) s = .next t ∧ (laneOf t (2 * g + l)).bad = 0 ∧
      (laneOf t (2 * g + l)).good = min 4 ((laneOf s (2 * g + l)).good + 1) ∧
      get t (laneOk g l) = if 3 ≤ (laneOf s (2 * g + l)).good then 1 else 0) ∧
  (∀ s g l w, laneFitted s g l = true → s.clk.started = true → bit w 63 = false ∨ popcount 64 w % 2 ≠ 0 →
    ∃ t, exec (.tlmFrame g l w) s = .next t ∧ FrameMissed s t g l) ∧
  (∀ s g l, laneFitted s g l = true → s.clk.started = true → ∃ t, exec (.tlmMissingFrame g l) s = .next t ∧ FrameMissed s t g l) ∧
  (∀ s g, Halves s g → (laneOf s (2 * g)).age = (laneOf s (2 * g + 1)).age → superCrc (superOf s g) = bits (superOf s g) 48 16 →
    bits (superOf s g) 26 6 = 0 → bits (superOf s g) 40 8 = 0 →
    ∃ t, exec (.superframe g true) s = .next t ∧ get t (R.PST_STG_STAT.TEMP g) = bits (superOf s g) 0 16 ∧
      get t (R.PST_STG_STAT.DRV_FLT g) = bits (superOf s g) 16 8 ∧ get t (R.PST_STG_STAT.OT_WARN g) = bits (superOf s g) 24 1 ∧
      get t (R.PST_STG_STAT.VIN_UV g) = bits (superOf s g) 25 1 ∧ get t (R.PST_STG_STAT2.CAP g) = bits (superOf s g) 32 8) ∧
  (∀ s g b, Halves s g → b = false ∨ (laneOf s (2 * g)).age ≠ (laneOf s (2 * g + 1)).age ∨
    superCrc (superOf s g) ≠ bits (superOf s g) 48 16 →
    ∃ t, exec (.superframe g b) s = .next t ∧
      get t (R.PST_STG_STAT2.CRC_ERR g) = min 65535 (get s (R.PST_STG_STAT2.CRC_ERR g) + 1))

/-- Phases that fail: lanes silent for 1 ms (R106), an open phase (R141, R145), a failed current sense (R142, R145), a hiccup beyond the
last one allowed (R125). TLM_LOST, OPEN_PHASE, SENSE_FAILURE and HICCUP_ENTER of a phase that has used up its hiccups complete. Phases
that rest and return: HICCUP_ENTER (R123), HICCUP_END (R124), HICCUP_RUN_CLEAR (R124), PHASE_RAMP_END (R126, R127), SHED_PHASE (R135,
R137), BRAKE_TIMEOUT (R133) complete. That a HICCUP_RUN above HICCUP_MAX fails its phase is the model's choice (log 89). -/
def Obligations.PhasesFail : Prop :=
  (∀ s g l c, laneFitted s g l = true → 16 ≤ (laneOf s (2 * g + l)).bad → c < 4 → phaseFitted s (8 * g + 4 * l + c) = true → phState s (8 * g + 4 * l + c) ≠ psFAILED →
    ∃ t, exec (.tlmLost g l) s = .next t ∧ phState t (8 * g + 4 * l + c) = psFAILED ∧
      get t (R.PST_PH_STAT.CAUSE (8 * g + 4 * l + c)) = 4) ∧
  (∀ s n, phState s n = psRUN → get s (R.PST_RAIL_CFG.OPEN_CNT (railOfPhase n)) ≤ (phaseOf s n).openRun →
    ∃ t, exec (.openPhase n) s = .next t ∧ phState t n = psFAILED ∧ get t (R.PST_PH_STAT.CAUSE n) = 1 ∧ bit (get t R.PST_EVENT) 0 = true) ∧
  (∀ s n, phState s n = psRUN → 16 ≤ (phaseOf s n).senseRun →
    ∃ t, exec (.senseFailure n) s = .next t ∧ phState t n = psFAILED ∧ get t (R.PST_PH_STAT.CAUSE n) = 2 ∧ bit (get t R.PST_EVENT) 0 = true) ∧
  (∀ s n, phSwitching (phState s n) = true → get s (R.PST_RAIL_CFG.HICCUP_N (railOfPhase n)) ≤ (phaseOf s n).limRun →
    get s (R.PST_RAIL_CFG.HICCUP_MAX (railOfPhase n)) ≤ get s (R.PST_PH_STAT.HICCUP_RUN n) →
    ∃ t, exec (.hiccupEnter n) s = .next t ∧ phState t n = psFAILED ∧ get t (R.PST_PH_STAT.CAUSE n) = 3) ∧
  (∀ s n, phSwitching (phState s n) = true → get s (R.PST_RAIL_CFG.HICCUP_N (railOfPhase n)) ≤ (phaseOf s n).limRun →
    get s (R.PST_PH_STAT.HICCUP_RUN n) < get s (R.PST_RAIL_CFG.HICCUP_MAX (railOfPhase n)) →
    ∃ t, exec (.hiccupEnter n) s = .next t ∧ phState t n = psHICCUP ∧ bit (get t R.PST_EVENT) 1 = true ∧
      get t (R.PST_PH_CNT.HICCUPS n) = min 65535 (get s (R.PST_PH_CNT.HICCUPS n) + 1)) ∧
  (∀ s n, phState s n = psHICCUP → get s (R.PST_RAIL_MISC.HICCUP (railOfPhase n)) ≤ s.us - (phaseOf s n).hiccupUs →
    ∃ t, exec (.hiccupEnd n) s = .next t ∧ phState t n = psSOFT ∧
      get t (R.PST_PH_STAT.HICCUP_RUN n) = min 255 (get s (R.PST_PH_STAT.HICCUP_RUN n) + 1)) ∧
  (∀ s n, phState s n = psRUN → 10000 ≤ s.us - (phaseOf s n).runUs → ∃ t, exec (.hiccupRunClear n) s = .next t ∧ get t (R.PST_PH_STAT.HICCUP_RUN n) = 0) ∧
  (∀ s n, phState s n = psSOFT → 16 ≤ (phaseOf s n).frac → ∃ t, exec (.phaseRampEnd n) s = .next t ∧ phState t n = psRUN ∧
      (phaseOf t n).frac = (phaseOf s n).frac ∧ (phaseOf t n).withheld = false ∧ (phaseOf t n).openRun = 0 ∧ (phaseOf t n).senseRun = 0) ∧
  (∀ s n, phState s n = psSHEDDING → (phaseOf s n).frac = 0 → ∃ t, exec (.phaseRampEnd n) s = .next t ∧ phState t n = psSHED ∧
      (phaseOf t n).frac = 0 ∧ (railOf t (railOfPhase n)).shedUs = some s.us) ∧
  (∀ s r n, railFitted s r = true → maySkim s r = true → skimDue s r = true → countPhases s r (· = psSHEDDING) = 0 → nextShed s r = some n →
    ∃ t, exec (.shedPhase r) s = .next t ∧ phState t n = psSHEDDING ∧ (phaseOf t n).frac = 16) ∧
  (∀ s r, isOn s (R.PST_RAIL_STAT.BRAKING r) = true → get s (R.PST_RAIL_BRAKE.MAX_NS r) ≤ spanNs s (railOf s r).brakeAt (now s) →
    ∃ t, exec (.brakeTimeout r) s = .next t ∧
      get t (R.PST_RAIL_STAT.BRAKING r) = 0)

/-- External sync (R112, R114, R115): SYNC_ACQUIRE, after 64 good periods and 16 with the period start in its place, and SYNC_LOSS complete.
The commands that retire a phase and give one back, also to a LOST rail, whose die's rails then start again (R154, R155, R638): PHASE_RETIRE
and PHASE_RESTORE complete. -/
def Obligations.SyncAndPhaseCommands : Prop :=
  (∀ s p, acquiring s = true → s.clk.syncRun = 64 → s.clk.nearRun = 16 → 784 ≤ p → p ≤ 816 →
    ∃ t, exec (.syncAcquire p) s = .next t ∧ get t R.PST_SYNC_STAT.LOCK = 1 ∧ (∀ e, switchPeriod t ⟨p, e⟩ = p) ∧
      get t R.CLK_STATUS.SYNC_LOST = 0) ∧
  (∀ s, isOn s R.PST_SYNC_STAT.LOCK = true → ∃ t, exec .syncLoss s = .next t ∧ get t R.PST_SYNC_STAT.LOCK = 0 ∧
      t.clk.next = 800 ∧ t.clk.syncRun = 0 ∧ t.clk.nearRun = 0 ∧ bit (get t R.PST_EVENT) 5 = true) ∧
  (∀ s p, s.log.fresh = [] → acquiring s = false ∨ s.clk.syncRun ≠ 64 ∨ s.clk.nearRun ≠ 16 ∨ p < 784 ∨ 816 < p →
    exec (.syncAcquire p) s = .next s) ∧
  (∀ s port tag fl n, Waiting s 0x0201 port tag fl → par fl 0 = n → n < 200 → phAvail (phState s n) = true →
    2 ≤ countPhases s (railOfPhase n) phAvail →
    ∃ t, exec (.phaseRetire port tag) s = .next t ∧ Completed s t fl sOK 0 0 ∧ phState t n = psFAILED ∧
      get t (R.PST_PH_STAT.CAUSE n) = 6) ∧
  (∀ s port tag fl n, Waiting s 0x0202 port tag fl → par fl 0 = n → n < 200 → phState s n = psFAILED →
    loopState s (railOfPhase n) ≠ lpOFF → isOn s (laneOk (n / 8) (n / 4 % 2)) = true → get s (R.PST_RAIL_STAT.LOST (railOfPhase n)) = 0 →
    ∃ t, exec (.phaseRestore port tag) s = .next t ∧ Completed s t fl sOK 0 0 ∧ phState t n = psSOFT ∧
      get t (R.PST_PH_STAT.CAUSE n) = 0 ∧ get t (R.PST_PH_STAT.HICCUP_RUN n) = 0) ∧
  (∀ s port tag fl n r, Waiting s 0x0202 port tag fl → par fl 0 = n → n < 192 → r = railOfPhase n → phState s n = psFAILED →
    loopState s r ≠ lpOFF → isOn s (laneOk (n / 8) (n / 4 % 2)) = true → isOn s (R.PST_RAIL_STAT.LOST r) = true →
    get s (R.PST_RAIL_STAT.LOST (if r < 16 then r + 16 else r - 16)) = 0 → bit s.boot.lostHold (r % 16) = true →
    (itnOf s (r % 16)).forced = [] → isPresent s (r % 16) = true →
    ∃ t, exec (.phaseRestore port tag) s = .next t ∧ Completed s t fl sOK 0 0 ∧ phState t n = psSOFT ∧ get t (R.PST_PH_STAT.CAUSE n) = 0 ∧
      get t (R.PST_RAIL_STAT.LOST r) = 0 ∧ loopState t r = lpRAMP ∧ loopState t (if r < 16 then r + 16 else r - 16) = lpRAMP) ∧
  (∀ s port tag fl n, Waiting s 0x0202 port tag fl → par fl 0 = n → 191 < n → n < 200 → phState s n = psFAILED →
    loopState s 32 ≠ lpOFF → isOn s (laneOk (n / 8) (n / 4 % 2)) = true → isOn s (R.PST_RAIL_STAT.LOST 32) = true →
    ∃ t, exec (.phaseRestore port tag) s = .next t ∧ Completed s t fl sOK 0 0 ∧ phState t n = psSOFT ∧ get t (R.PST_PH_STAT.CAUSE n) = 0 ∧
      get t (R.PST_RAIL_STAT.LOST 32) = 0) ∧
  (∀ s port tag fl n, Waiting s 0x0201 port tag fl → par fl 0 = n → 199 < n → n < 2 ^ 9 →
    ∃ t, exec (.phaseRetire port tag) s = .next t ∧ Completed s t fl sOUT_OF_RANGE 0 0) ∧
  (∀ s port tag fl n, Waiting s 0x0201 port tag fl → par fl 0 = n → n < 200 → phState s n = psFAILED →
    ∃ t, exec (.phaseRetire port tag) s = .next t ∧ Completed s t fl sWRONG_STATE 0 0)

/-- The board converters over PMBus: PMB_POLL takes the readings of every converter that takes part (R148 to R150), PMB_ALERT finds the one
that faults and clears it once (R152, R153), and a transaction that fails says so, also the PAGE write alone (R151); nothing is sent where the stage controller does not drive the
bus (R679). The converter commands (R156, R157): CONV_VOUT_SET
writes the voltage and waits, READ_VOUT_AFTER_WRITE answers it with the voltage read back, CONV_CLEAR clears the fault. A reading beyond its
field and a voltage word that does not fit saturate (log 89, the model's choice); command codes are those of PMBus 1.4 (log 18). -/
def Obligations.ConvertersServe : Prop :=
  (∀ s c l v i o io tp w, pmbusOn s = true → isOn s (R.PST_PMB_CONV.EN c) = true → c < 8 → l = [v, i, o, io, tp, w] → (∀ x ∈ l, x < 2 ^ 16) → l.length = 6 →
    ∃ t, exec (.pmbPoll ((List.range 8).map fun k => ⟨true, if k = c then l else []⟩)) s = .next t ∧
      get t (R.PST_PMB_DATA.VIN c) = (clampI 0 0xFFFF (linear11 v 8000)).toNat ∧ getI t (R.PST_PMB_DATA.IIN c) = satI (linear11 i 256) 24 ∧
      get t (R.PST_PMB_DATA.VOUT c) = fromVout s c o ∧ getI t (R.PST_PMB_DATA.IOUT c) = satI (linear11 io 256) 24 ∧
      getI t (R.PST_PMB_DATA.TEMP c) = satI (linear11 tp 16) 16 ∧ get t (R.PST_PMB_STAT.STATUS_WORD c) = w ∧
      get t (R.PST_PMB_STAT.NO_RESP c) = 0) ∧
  (∀ s c, pmbusOn s = true → isOn s (R.PST_PMB_CONV.EN c) = true → c < 8 → ∃ t, exec (.pmbPoll []) s = .next t ∧
      get t (R.PST_PMB_STAT.NO_RESP c) = 1 ∧ bit (get t R.PST_EVENT) 7 = true) ∧
  (∀ s c l, pmbusOn s = true → isOn s (R.PST_PMB_CONV.EN c) = true → c < 8 → get s (R.PST_PMB_CONV.PAGE c) ≠ 0xFF →
    ∃ t, exec (.pmbPoll ((List.range 8).map fun k => if k = c then ⟨false, l⟩ else ⟨true, l⟩)) s = .next t ∧ bit (get t R.PST_EVENT) 7 = true) ∧
  (∀ s l, s.log.fresh = [] → pmbusOn s = false → exec (.pmbPoll l) s = .next s ∧ exec (.pmbAlert l) s = .next s) ∧
  (∀ s c w, pmbusOn s = true → isOn s (R.PST_PMB_CONV.EN c) = true → c < 8 → w < 2 ^ 16 → convFaulty w = true →
    ∃ t, exec (.pmbAlert ((List.range 8).map fun k => ⟨true, if k = c then [w] else []⟩)) s = .next t ∧
      get t (R.PST_PMB_STAT.STATUS_WORD c) = w ∧ get t (R.PST_PMB_STAT.CONV_FAULT c) = 1 ∧ bit (get t R.PST_EVENT) 6 = true ∧
      (get s R.CAP_PKG_ILIM.IIN_LIM < 2 ^ 11 → get t R.CAP_IIN_EFF.IIN = iinEff t) ∧
      (isOn s (R.PST_PMB_STAT.NO_AUTO_CLR c) = false → (convOf s c).cleared = none → convOf t c = ⟨some s.us⟩ ∧ Out.pmbus (get s (R.PST_PMB_CONV.ADDR c)) pmCLEAR_FAULTS 0 ∈ t.out) ∧
      (∀ u, isOn s (R.PST_PMB_STAT.NO_AUTO_CLR c) = false → (convOf s c).cleared = some u → s.us < u + 10000 →
        get t (R.PST_PMB_STAT.NO_AUTO_CLR c) = 1)) ∧
  (∀ s port tag fl c v b, Waiting s 0x0203 port tag fl → par fl 0 = c → c < 8 → par fl 1 = v → 13600 ≤ v → v ≤ 15200 →
    isOn s (R.PST_PMB_CONV.EN c) = true →
    ∃ t, exec (.convVoutSet port tag ⟨b, true⟩) s = .next t ∧ Out.pmbus (get s (R.PST_PMB_CONV.ADDR c)) pmVOUT_COMMAND (toVout s c v) ∈ t.out ∧
      get t (R.PST_PMB_STAT.NO_RESP c) = 0 ∧ flightOf t port tag = some { fl with started := true, r0 := s.us, r1 := 0 }) ∧
  (∀ s port tag fl c v b, Waiting s 0x0203 port tag fl → par fl 0 = c → c < 8 → par fl 1 = v → 13600 ≤ v → v ≤ 15200 →
    isOn s (R.PST_PMB_CONV.EN c) = true →
    ∃ t, exec (.convVoutSet port tag ⟨b, false⟩) s = .next t ∧ Completed s t fl sTIMEOUT 0 0 ∧ get t (R.PST_PMB_STAT.NO_RESP c) = 1) ∧
  (∀ s port tag fl c w b, flightOf s port tag = some fl → fl.opcode = 0x0203 → fl.started = true → 1000 ≤ s.us - fl.r0 → par fl 0 = c →
    c < 8 → w < 2 ^ 16 →
    ∃ t, exec (.readVoutAfterWrite port tag w ⟨b, true⟩) s = .next t ∧ Completed s t fl sOK (fromVout s c w) 0 ∧
      get t (R.PST_PMB_STAT.NO_RESP c) = 0) ∧
  (∀ s port tag fl c b, Waiting s 0x0204 port tag fl → par fl 0 = c → c < 8 → isOn s (R.PST_PMB_CONV.EN c) = true →
    ∃ t, exec (.convClear port tag ⟨b, true⟩) s = .next t ∧ Completed s t fl sOK 0 0 ∧ get t (R.PST_PMB_STAT.CONV_FAULT c) = 0 ∧
      get t (R.PST_PMB_STAT.NO_AUTO_CLR c) = 0 ∧ Out.pmbus (get s (R.PST_PMB_CONV.ADDR c)) pmCLEAR_FAULTS 0 ∈ t.out) ∧
  (∀ s port tag fl c b, Waiting s 0x0204 port tag fl → par fl 0 = c → c < 8 → get s (R.PST_PMB_CONV.EN c) = 0 →
    ∃ t, exec (.convClear port tag ⟨b, true⟩) s = .next t ∧ Completed s t fl sWRONG_STATE 0 0)

/-- LOOP_EVALUATION completes: it takes VIN and the sensed voltages (R163, R166), a switching period starts with the length set before,
SYNC_OUT rises where it is enabled (R101, R116, R158), and the good periods of SYNC_IN are counted (R112); after an agreed evaluation in
RAMP or TRACK the last safe duty is the duty sent (R182), after a disagreement the last agreed duty is sent again (R177), HOLD sends the
held duty of R183; a rail that is OFF or in HOLD stays so but where VLINK starts the cores (R618). HOLD (R177, R181, R183 to R186, R198):
CMP_HOLD, FE_HOLD and LOOP_RESUME with its statuses (R200) complete, and a loop test of the rail stops. -/
def Obligations.LoopsEvaluateAndHold : Prop :=
  (∀ s vin volts m dis flag, s.clk.started = true → vin < 2 ^ 16 → (∀ v ∈ volts, v < 2 ^ 16) → volts.length = 33 →
    ∃ t, exec (.loopEvaluation vin volts m dis flag) s = .next t ∧ get t R.PST_VIN.VIN = vin ∧
      get t R.PST_SYNC_STAT.PERIOD = s.clk.period % 2 ^ 16 ∧ t.clk.period = s.clk.next ∧ t.clk.next = switchPeriod (syncStep m s) m ∧
      t.clk.syncRun = (if acquiring s = true ∧ 784 ≤ m.period ∧ m.period ≤ 816 then min 64 (s.clk.syncRun + 1) else 0) ∧
      (isOn s R.PST_CTRL.SYNC_OUT_EN = true → Out.syncOut (s.clk.next / 2) ∈ t.out) ∧
      ∀ r < 33, railFitted s r = true → vmeas t r = nth volts r) ∧
  (∀ s vin volts m dis flag r, s.clk.started = true → stage s ≠ 6 → railFitted s r = true → loopState s r = lpRAMP ∨ loopState s r = lpTRACK →
    bit dis r = false →
    ∃ t, exec (.loopEvaluation vin volts m dis flag) s = .next t ∧ get t (R.LPE_DUTY.SAFE r) = get t (R.LPE_DUTY.U_SAT r)) ∧
  (∀ s vin volts m dis flag r, s.clk.started = true → stage s ≠ 6 → railFitted s r = true →
    loopState s r = lpRAMP ∨ loopState s r = lpTRACK ∨ loopState s r = lpEXCURSION →
    bit dis r = true → ∃ t, exec (.loopEvaluation vin volts m dis flag) s = .next t ∧
      get t (R.LPE_DUTY.U_SAT r) = (railOf s r).uSat.toNat % 2 ^ 16 ∧ (railOf t r).cmpRun = min 7 ((railOf s r).cmpRun + 1) ∧
      get t (R.LPE_DUTY.SAFE r) = get s (R.LPE_DUTY.SAFE r)) ∧
  (∀ s vin volts m dis flag r, stage s ≠ 6 → loopState s r = lpOFF ∨ loopState s r = lpHOLD →
    ∃ t, exec (.loopEvaluation vin volts m dis flag) s = .next t ∧ loopState t r = loopState s r) ∧
  (∀ s r, railFitted s r = true → cmpFails s r = true → ∃ t, exec (.cmpHold r) s = .next t ∧ HoldEntered s t r 2 ∧
    (testGoes s = true → s.test.rail = r → t.test.stop = true)) ∧
  (∀ s r, railFitted s r = true → loopState s r = lpEXCURSION → (railOf s r).coef.time ≤ s.us - (railOf s r).excUs →
    ∃ t, exec (.feHold r) s = .next t ∧ HoldEntered s t r (if cmpFails s r then 2 else 1)) ∧
  (∀ s port tag fl r, Waiting s 0x0301 port tag fl → par fl 0 = r → r < 33 → loopState s r = lpHOLD → get s (R.PST_RAIL_STAT.LOST r) = 0 →
    ∃ t, exec (.loopResume port tag) s = .next t ∧ Completed s t fl sOK 0 0 ∧ loopState t r = lpTRACK ∧
      get t (R.LPE_STAT.CAUSE r) = 0 ∧ (railOf t r).resume = true) ∧
  (∀ s port tag fl r, Waiting s 0x0301 port tag fl → par fl 0 = r → r < 33 →
    loopState s r ≠ lpHOLD ∨ isOn s (R.PST_RAIL_STAT.LOST r) = true →
    ∃ t, exec (.loopResume port tag) s = .next t ∧ Completed s t fl sWRONG_STATE 0 0) ∧
  (∀ s port tag fl r, Waiting s 0x0301 port tag fl → par fl 0 = r → 32 < r → r < 2 ^ 6 →
    ∃ t, exec (.loopResume port tag) s = .next t ∧ Completed s t fl sOUT_OF_RANGE 0 0)

/-- The loop test (R198, R201, R202): LOOP_TEST starts it and waits, LOOP_TEST_STOP stops it, LOOP_TEST_END ends it and answers. COMMIT
(R189, R190): a good shadow set waits for the rail's next evaluation, and the configuration generation counts; another leaves the active
set, raises COMMIT_ERR and is a violation of kind VALUE. What LPE_CAP_TS holds without a trigger sample, and the order of a stopped
pre-trigger ring, are the model's choices (logs 21, 65). -/
def Obligations.LoopTestsAndCommits : Prop :=
  (∀ s port tag fl, Waiting s 0x0302 port tag fl → testBad s = false → testRange s = false → s.test.running = false →
    loopState s (get s R.LPE_INJ_CFG.RAIL) = lpTRACK →
    ∃ t, exec (.loopTest port tag) s = .next t ∧ t.test.running = true ∧ t.test.rail = get s R.LPE_INJ_CFG.RAIL ∧
      get t R.LPE_CAP_STAT.STATE = (if get s R.LPE_INJ_CFG.MODE = 2 then 2 else 1) ∧ get t R.LPE_CAP_STAT.COUNT = 0 ∧
      flightOf t port tag = some { fl with started := true }) ∧
  (∀ s port tag fl, Waiting s 0x0302 port tag fl → testBad s = true → ∃ t, exec (.loopTest port tag) s = .next t ∧ Completed s t fl sBAD_PARAM 0 0) ∧
  (∀ s port tag fl, Waiting s 0x0303 port tag fl → testGoes s = true →
    ∃ t, exec (.loopTestStop port tag) s = .next t ∧ Completed s t fl sOK 0 0 ∧ t.test = { s.test with stop := true }) ∧
  (∀ s fl, s.test.running = true → flightOf s s.test.port s.test.tag = some fl → get s R.LPE_CAP_STAT.STATE = 3 →
    ∃ t, exec .loopTestEnd s = .next t ∧ t.test.running = false ∧ bit (get t R.LPE_EVENT) 6 = true ∧
      Completed s t fl sOK (get s R.LPE_CAP_STAT.COUNT) (get s R.LPE_CAP_TS.TIME % 2 ^ 32)) ∧
  (∀ s fl, s.test.running = true → flightOf s s.test.port s.test.tag = some fl → get s R.LPE_CAP_STAT.STATE ≠ 3 →
    s.test.stop = true →
    ∃ t, exec .loopTestEnd s = .next t ∧ t.test.running = false ∧ bit (get t R.LPE_EVENT) 7 = true ∧ get t R.LPE_CAP_STAT.STATE = 3 ∧
      Answered s t fl sABORTED (get s R.LPE_CAP_STAT.COUNT) (get s R.LPE_CAP_TS.TIME % 2 ^ 32) ∧
      StoresIn s t (entryArea 0) (entryArea (get s R.LPE_CAP_PRE.PRE))) ∧
  (∀ s p r v, Writes s p (0x04102C + 0x40 * r) → r < 33 → bit v 0 = true → goodSet r (shadowSet s r) = true →
    ∃ t, exec (.commit p r v) s = .next t ∧ (railOf t r).pending = some (shadowSet s r) ∧ get t (R.LPE_STAT.COMMIT_ERR r) = 0 ∧
      get t R.RNG_GEN.GEN = (get s R.RNG_GEN.GEN + 1) % 2 ^ 32 ∧ t.resp = [⟨p, 0, false⟩]) ∧
  (∀ s p r v, Writes s p (0x04102C + 0x40 * r) → r < 33 → bit v 0 = true → goodSet r (shadowSet s r) = false →
    ∃ t, exec (.commit p r v) s = .next t ∧ railOf t r = railOf s r ∧ get t (R.LPE_STAT.COMMIT_ERR r) = 1 ∧
      bit (get t R.LPE_EVENT) 5 = true ∧ get t R.RNG_GEN.GEN = get s R.RNG_GEN.GEN ∧
      (get s R.CMD_VIOL_STAT.COUNT = 0 → get t R.CMD_VIOL_STAT.COUNT = 1 ∧ get t (R.CMD_VIOL.KIND 0) = 2)) ∧
  (∀ s p r, Writes s p (0x04102C + 0x40 * r) → r < 33 → ∃ t, exec (.commit p r 0) s = .next t ∧ railOf t r = railOf s r ∧
      t.resp = [⟨p, 0, false⟩])

/-- The window of the load estimator on a die: COUNTER_LATCH takes the counters (R207, R208), FIRST_LAYER_DONE forms and sends the hidden
outputs (R211 to R213, R220), ESTIMATE_FRAME brings them to the core (R213, R662), which discards those of another window (R223).
SECOND_STAGE completes: a die without a model gives measured currents (R225), one with a model and a frame in time the trimmed estimate of
R214 and R216, a late frame is counted (R223), and PREV_VALID tells of the other bank (R255). The window of a frame is an operand (log 91, the model's choice). -/
def Obligations.EstimatorPublishes : Prop :=
  (∀ s d k v, s.clk.started = true → isPresent s d = true → dieInReset s d = false → k < 4096 →
    ∃ t, exec (.counterLatch [(d, k, v)]) s = .next t ∧ sget 0 k (estOf t d).cnt = v % 2 ^ 32 ∧ (estOf t d).latched = true ∧
      (estOf t d).first = false ∧ (estOf t d).prev = (if (estOf s d).first then (estOf t d).cnt else (estOf s d).cnt) ∧
      (estOf t d).window = (estOf s d).window + 1 ∧
      (tokOf t d).pub = (tokOf s d).win ∧ (tokOf t d).win = ((tokOf s d).usedSum, (tokOf s d).reports) ∧ (tokOf t d).reports = 0) ∧
  (∀ s d, isPresent s d = true → dieInReset s d = false → isOn s (R.EST_DIE_STAT.ACTIVE d) = true → (estOf s d).latched = true →
    ∃ t, exec (.firstLayerDone d) s = .next t ∧ (estOf t d).hidden = firstLayer (model s d) (inputCodes s d (model s d)) ∧
      (estOf t d).latched = false ∧ ((linkOf s d).lost = false → Out.estimate d (estOf t d).hidden ∈ t.out ∧
        Out.frame d (frameOf tyESTIMATE (nextSent true s d) (estOf t d).hidden) ∈ t.out)) ∧
  (∀ s d fr, Accepts s true tyESTIMATE d fr → (framePayload fr.bytes).length = 64 →
    ∃ t, exec (.estimateFrame d fr (estOf s d).due) s = .next t ∧ (estOf t d).hCore = framePayload fr.bytes ∧ (estOf t d).inTime = true ∧
      (linkOf t d).upSeq = some (frameSeq fr.bytes)) ∧
  (∀ s d fr w, Accepts s true tyESTIMATE d fr → w ≠ (estOf s d).due ∨ (framePayload fr.bytes).length ≠ 64 →
    ∃ t, exec (.estimateFrame d fr w) s = .next t ∧ estOf t d = estOf s d ∧ (linkOf t d).upSeq = some (frameSeq fr.bytes)) ∧
  (∀ s d, s.clk.started = true → isPresent s d = true →
    (estOf s d).coreOn = false ∧ (estOf s d).turn = none ∨ (linkOf s d).lost = true ∨ dieInReset s d = true →
    ∃ t, exec .secondStage s = .next t ∧ get t (R.EST_DIE_STAT.SUBST d) = 1 ∧ get t (R.EST_OUT.I d 0) = ofSigned 32 (irail s d) ∧
      get t (R.EST_OUT.I d 1) = ofSigned 32 (irail s (16 + d)) ∧ get t (R.EST_OUT.I d 3) = 0 ∧
      get t (R.EST_DIE_TS.TIME d) = now s % 2 ^ 64) ∧
  (∀ s d, s.clk.started = true → isPresent s d = true → (estOf s d).coreOn = true → (estOf s d).turn = none → s.estp.linkOld = none →
    (linkOf s d).lost = false → dieInReset s d = false → (estOf s d).inTime = true →
    ∃ t, exec .secondStage s = .next t ∧ get t (R.EST_DIE_STAT.SUBST d) = 0 ∧ (estOf t d).inTime = false ∧ (estOf t d).lateRun = 0 ∧
      ∀ o < 4, getI t (R.EST_RAW.I d o) = satI (secondLayer (coreModel s d) (estOf s d).hCore o + getI t (R.EST_LEAK.I d o)) 24 ∧
        getI t (R.EST_OUT.I d o) = satI (rnd (getI t (R.EST_RAW.I d o) * (trimOf s d o).1) 14 + (trimOf s d o).2) 24) ∧
  (∀ s d, s.clk.started = true → isPresent s d = true → (estOf s d).coreOn = true → dieInReset s d = false → (estOf s d).inTime = false →
    ∃ t, exec .secondStage s = .next t ∧ get t (R.EST_DIE_CNT.LATE d) = min 65535 (get s (R.EST_DIE_CNT.LATE d) + 1) ∧
      (estOf t d).lateRun = min 4 ((estOf s d).lateRun + 1) ∧ bit (get t R.EST_EVENT) 6 = true) ∧
  (∀ s d, s.clk.started = true → isPresent s d = true → ∃ t, exec .secondStage s = .next t ∧
    get t (R.EST_DIE_STAT.PREV_VALID d) = b2n (otherBank s d))

/-- Drift trim (R227 to R232, R255): TRIM_UPDATE ends the windows of a die whose 64 µs have passed: it updates the pairs of good ones and
skips the others; SECOND_STAGE shows what it came to. TRIM_RESET (R252) puts the pairs named back to the model's initial values. -/
def Obligations.TrimUpdates : Prop :=
  (∀ s d, isPresent s d = true → (estOf s d).coreOn = true → windowOver s (estOf s d).pair0 = true → isOn s R.EST_CTRL.TRIM_EN = true →
    (estOf s d).pair0.spoiled = false → 0 < (estOf s d).pair0.cycles → 0 < (estOf s d).pair0.evals →
    (estOf s d).pair1.spoiled = false → 0 < (estOf s d).pair1.cycles → 0 < (estOf s d).pair1.evals →
    ∃ t, exec .trimUpdate s = .next t ∧
      (estOf t d).pair0 = newWindow (windowEnd s (estOf s d).pair0) (updatePair s (estOf s d).pair0).1 ∧
      (estOf t d).pair1 = newWindow (windowEnd s (estOf s d).pair0) (updatePair s (estOf s d).pair1).1 ∧ (estOf t d).hold = false ∧
      (estOf t d).skips = (estOf s d).skips) ∧
  (∀ s d, isPresent s d = true → (estOf s d).coreOn = true → windowOver s (estOf s d).pair0 = true →
    get s R.EST_CTRL.TRIM_EN = 0 ∨ (estOf s d).pair0.spoiled = true ∧ (estOf s d).pair1.spoiled = true →
    ∃ t, exec .trimUpdate s = .next t ∧ (estOf t d).pair0 = newWindow (windowEnd s (estOf s d).pair0) (estOf s d).pair0 ∧
      (estOf t d).pair1 = newWindow (windowEnd s (estOf s d).pair0) (estOf s d).pair1 ∧ (estOf t d).hold = true ∧
      (estOf t d).skips = (estOf s d).skips + 2) ∧
  (∀ s d, s.clk.started = true → isPresent s d = true → ∃ t, exec .secondStage s = .next t ∧
      get t (R.EST_DIE_STAT.TRIM_HOLD d) = b2n (estOf s d).hold ∧
      get t (R.EST_DIE_CNT.SKIP d) = min 65535 (get s (R.EST_DIE_CNT.SKIP d) + (estOf s d).skips)) ∧
  (∀ s port tag fl m om, Waiting s 0x0406 port tag fl → par fl 0 = m + om * 2 ^ 16 → 0 < m → m < 2 ^ nDies s → 0 < om → om < 16 →
    (∀ d, bit m d = true → isOn s (R.EST_DIE_STAT.ACTIVE d) = true) →
    ∃ t, exec (.trimReset port tag) s = .next t ∧ Completed s t fl sOK 0 0 ∧
      (∀ d, bit m d = true →
        (estOf t d).pair0 = (if bit om 0 then freshPair s (initTrim (coreModel s d) 0).1 (initTrim (coreModel s d) 0).2 (estOf s d).pair0
          else (estOf s d).pair0) ∧
        (estOf t d).pair1 = if bit om 1 then freshPair s (initTrim (coreModel s d) 1).1 (initTrim (coreModel s d) 1).2 (estOf s d).pair1
          else (estOf s d).pair1) ∧
      ∀ d, bit om 2 = true → bit m d = true → (∀ e < d, bit m e = false) →
        t.estp.link = freshPair s (initTrim (model s d) 2).1 (initTrim (model s d) 2).2 s.estp.link ∧ t.estp.linkOld = none)

/-- The staging buffer (R241, R247, R248, R250): MODEL_OPEN takes and clears it, MODEL_WRITE writes it, MODEL_CLOSE and STAGE_TIMEOUT
release it. A model is loaded and put back (R240, R242, R243, R249, R251): MODEL_LOAD and MODEL_REVERT wait for the switch, MODEL_SWITCH
makes it; a package that fails a check ends the load with its status and detail. A die that its mask names and that was reset meanwhile stays
without a model, and until the switch the other bank holds none (logs 66, 68, the model's choices). -/
def Obligations.ModelsStagedAndSwitched : Prop :=
  (∀ s port tag fl n, Waiting s 0x0401 port tag fl → port < 10 → par fl 0 = n → 160 ≤ n → n ≤ 294912 → n % 8 = 0 → loading s = false →
    get s R.EST_STAGE.OPEN = 0 ∨ ownsStage s port = true →
    ∃ t, exec (.modelOpen port tag) s = .next t ∧ Answered s t fl sOK 0 0 ∧ get t R.EST_STAGE.OPEN = 1 ∧ get t R.EST_STAGE.OWNER = port ∧
      get t R.EST_STAGE.LEN = n ∧ ∀ i < 294912, readByte t (stageArea i) = 0) ∧
  (∀ s port tag fl o n, Waiting s 0x0402 port tag fl → par fl 0 = o → fl.params.length = n + 1 → 0 < n → o < 2 ^ 20 → o % 4 = 0 →
    ownsStage s port = true → o + 4 * n ≤ get s R.EST_STAGE.LEN →
    ∃ t, exec (.modelWrite port tag) s = .next t ∧ Answered s t fl sOK 0 0 ∧
      ∀ k < n, readWord32 t (stageArea (o + 4 * k)) = par fl (k + 1) % 2 ^ 32) ∧
  (∀ s port tag fl, Waiting s 0x0402 port tag fl → ownsStage s port = true →
    ∃ t, exec (.modelWrite port tag) s = .next t ∧ t.estp.stageUs = s.us ∧ flightOf t port tag = none) ∧
  (∀ s port tag fl, Waiting s 0x0404 port tag fl → ownsStage s port = true →
    ∃ t, exec (.modelClose port tag) s = .next t ∧ Completed s t fl sOK 0 0 ∧ get t R.EST_STAGE.OPEN = 0) ∧
  (∀ s, isOn s R.EST_STAGE.OPEN = true → loading s = false → 10000000 ≤ s.us - s.estp.stageUs → ∃ t, exec .stageTimeout s = .next t ∧ get t R.EST_STAGE.OPEN = 0 ∧
      bit (get t R.EST_EVENT) 3 = true) ∧
  (∀ s port tag fl m, Waiting s 0x0403 port tag fl → par fl 0 = m → m < 2 ^ 16 → ownsStage s port = true → s.estp.switch = none →
    loadChecks s (readBytes s (stageArea 0) (get s R.EST_STAGE.LEN)) (get s R.EST_STAGE.LEN) m = none →
    ∃ t, exec (.modelLoad port tag) s = .next t ∧ flightOf t port tag = some { fl with started := true } ∧
      t.estp.switch = some ⟨m, port, tag, false⟩ ∧
      ∀ d < 16, bit m d = true → (estOf s d).banks.length = 2 → (estOf s d).active ≤ 1 →
        bankPkg t d (1 - (estOf s d).active) = readBytes s (stageArea 0) (get s R.EST_STAGE.LEN)) ∧
  (∀ s port tag fl m st k, Waiting s 0x0403 port tag fl → par fl 0 = m → m < 2 ^ 16 → ownsStage s port = true → s.estp.switch = none →
    loadChecks s (readBytes s (stageArea 0) (get s R.EST_STAGE.LEN)) (get s R.EST_STAGE.LEN) m = some (st, k) →
    ∃ t, exec (.modelLoad port tag) s = .next t ∧ Completed s t fl st k 0 ∧ get t R.EST_LOAD_STAT.STATUS = st ∧
      get t R.EST_LOAD_STAT.DETAIL = k ∧ bit (get t R.EST_EVENT) 1 = true ∧ t.estd = s.estd) ∧
  (∀ s port tag fl m, Waiting s 0x0405 port tag fl → par fl 0 = m → 0 < m → m < 2 ^ nDies s →
    (∀ d, bit m d = true → isOn s (R.EST_DIE_STAT.PREV_VALID d) = true ∧ otherBank s d = true ∧ (linkOf s d).lost = false) → s.estp.switch = none →
    ∃ t, exec (.modelRevert port tag) s = .next t ∧ flightOf t port tag = some { fl with started := true } ∧
      t.estp.switch = some ⟨m, port, tag, true⟩) ∧
  (∀ s w fl d, s.estp.switch = some w → flightOf s w.port w.tag = some fl → w.revert = false → d < 16 → bit w.mask d = true →
    (estOf s d).banks.length = 2 → (estOf s d).active ≤ 1 → bankPkg s d (1 - (estOf s d).active) ≠ [] →
    ∃ t, exec .modelSwitch s = .next t ∧ t.estp.switch = none ∧ model t d = bankPkg s d (1 - (estOf s d).active) ∧
      (estOf t d).active = 1 - (estOf s d).active ∧ (estOf t d).core = (estOf s d).core ∧ (estOf t d).turn = some (firstWindow s d) ∧
      get t (R.EST_DIE_STAT.ACTIVE d) = 1 ∧ Completed s t fl sOK 0 (now s % 2 ^ 32) ∧ bit (get t R.EST_EVENT) 0 = true) ∧
  (∀ s w fl d, s.estp.switch = some w → flightOf s w.port w.tag = some fl → w.revert = true → d < 16 → bit w.mask d = true →
    otherBank s d = true →
    ∃ t, exec .modelSwitch s = .next t ∧ t.estp.switch = none ∧ (estOf t d).active = 1 - (estOf s d).active ∧
      (estOf t d).core = (estOf s d).core ∧ (estOf t d).turn = some (firstWindow s d) ∧ Completed s t fl sOK 0 0) ∧
  (∀ s d w, s.clk.started = true → isPresent s d = true → (estOf s d).turn = some w → w ≤ (estOf s d).due →
    ∃ t, exec .secondStage s = .next t ∧ (estOf t d).core = (estOf s d).active ∧ (estOf t d).coreOn = true ∧
      get t (R.EST_DIE_MODEL.ID d) = leAt (model s d) 0x14 4 % 2 ^ 32)

/-- Intent packets (R257 to R260): INTENT_PACKET judges one, and an accepted one replaces what its source announced from its first slot on;
INTENT_FRAME brings it to the core. Mismatch (R281, R282) and its reset (R294): MISMATCH_ENTER, MISMATCH_EXIT, INTENT_RESET complete. The
slot of a frame is an operand, one packet a frame, and an INTENT_RESET of several dies ends with the last (logs 91, 45, the model's choices). -/
def Obligations.IntentJudged : Prop :=
  (∀ s d w p, isPresent s d = true → dieInReset s d = false → w < 2 ^ 64 → badPacket d w = false → bit (setting s d (R.ITN_SRC_CFG.SRC_EN d)) (pkSrc w) = true →
    addEntry (entryOf s (tokOf s d).slot w) (itnOf s d).agent = some p →
    ∃ t, exec (.intentPacket d w) s = .next t ∧ (itnOf t d).agent = p ∧ entryOf s (tokOf s d).slot w ∈ p.entries ∧
      (∀ e ∈ p.entries, e.src = pkSrc w → e = entryOf s (tokOf s d).slot w ∨ e.last ≤ (tokOf s d).slot + slotsOf s (pkStart w) - 1) ∧
      agentGet t d (R.ITN_DIE_CNT.ACCEPTED d) = min 65535 (agentGet s d (R.ITN_DIE_CNT.ACCEPTED d) + 1) ∧
      ((linkOf s d).lost = false → Out.intent d (tokOf s d).slot w ∈ t.out ∧
        Out.frame d (frameOf tyINTENT (nextSent true s d) (leBytes 8 w)) ∈ t.out)) ∧
  (∀ s d w, isPresent s d = true → dieInReset s d = false → w < 2 ^ 64 → badPacket d w = true →
    ∃ t, exec (.intentPacket d w) s = .next t ∧ itnOf t d = itnOf s d ∧ ((linkOf s d).lost = false → bit (get t R.ITN_EVENT) 0 = true) ∧
      agentGet t d (R.ITN_DIE_CNT.BAD d) = min 65535 (agentGet s d (R.ITN_DIE_CNT.BAD d) + 1)) ∧
  (∀ s d w, isPresent s d = true → dieInReset s d = false → w < 2 ^ 64 → badPacket d w = false → bit (setting s d (R.ITN_SRC_CFG.SRC_EN d)) (pkSrc w) = false →
    ∃ t, exec (.intentPacket d w) s = .next t ∧ itnOf t d = itnOf s d ∧
      agentGet t d (R.ITN_DIE_CNT2.SRC_OFF d) = min 65535 (agentGet s d (R.ITN_DIE_CNT2.SRC_OFF d) + 1)) ∧
  (∀ s d w, isPresent s d = true → dieInReset s d = false → w < 2 ^ 64 → badPacket d w = false → bit (setting s d (R.ITN_SRC_CFG.SRC_EN d)) (pkSrc w) = true →
    addEntry (entryOf s (tokOf s d).slot w) (itnOf s d).agent = none →
    ∃ t, exec (.intentPacket d w) s = .next t ∧ itnOf t d = itnOf s d ∧ ((linkOf s d).lost = false → bit (get t R.ITN_EVENT) 1 = true) ∧
      agentGet t d (R.ITN_DIE_CNT2.OVERFLOW d) = min 65535 (agentGet s d (R.ITN_DIE_CNT2.OVERFLOW d) + 1)) ∧
  (∀ s d fr slot w p, Accepts s true tyINTENT d fr → packetsOf (framePayload fr.bytes) = [w] → badPacket d w = false →
    bit (get s (R.ITN_SRC_CFG.SRC_EN d)) (pkSrc w) = true → addEntry (entryOf s slot w) (itnOf s d).core = some p →
    ∃ t, exec (.intentFrame d fr.lane fr.bytes slot) s = .next t ∧ (itnOf t d).core = p ∧ (linkOf t d).upSeq = some (frameSeq fr.bytes)) ∧
  (∀ s d src, isPresent s d = true → ∃ t, exec (.entryExpire d src) s = .next t ∧
      (∀ e ∈ (itnOf t d).agent.entries, e.src = src → (tokOf s d).slot ≤ e.last) ∧
      (∀ e ∈ (itnOf t d).core.entries, e.src = src → (tokOf s d).slot ≤ e.last) ∧
      ∀ e, passedEntry (itnOf s d).agent src (tokOf s d).slot = some e → src < (itnOf s d).agent.standing.length →
        nth (itnOf t d).agent.standing src = e.level) ∧
  (∀ s d, isPresent s d = true → (linkOf s d).lost = false → get s (R.ITN_DIE_STAT.MISMATCH d) = 0 → setting s d R.ITN_MM.MM_N ≤ (itnOf s d).badRun →
    ∃ t, exec (.mismatchEnter d) s = .next t ∧ get t (R.ITN_DIE_STAT.MISMATCH d) = 1 ∧ get t (R.ITN_DIE_STAT.EMPTY d) = 1 ∧
      bit (get t (R.CAP_DIE_THR.ACTIVE d)) 10 = true ∧ bit (get t R.ITN_EVENT) 2 = true ∧ (Room s 1 → dieEvent s 0x0501 d 0 ∈ t.log.queue)) ∧
  (∀ s d, isPresent s d = true → (linkOf s d).lost = false → get s (R.ITN_DIE_STAT.MISMATCH d) = 1 → setting s d R.ITN_MM.MM_CLR ≤ (itnOf s d).goodRun →
    ∃ t, exec (.mismatchExit d) s = .next t ∧ get t (R.ITN_DIE_STAT.MISMATCH d) = 0 ∧ bit (get t (R.CAP_DIE_THR.ACTIVE d)) 10 = false ∧
      bit (get t R.ITN_EVENT) 3 = true ∧ (Room s 1 → dieEvent s 0x0502 d 0 ∈ t.log.queue)) ∧
  (∀ s port tag fl m, Waiting s 0x0501 port tag fl → par fl 0 = m → 0 < m → m < 2 ^ nDies s →
    ∃ t, exec (.intentReset port tag) s = .next t ∧ flightOf t port tag = some { fl with started := true, r0 := m, r1 := 0 } ∧
      ∀ d, bit m d = true → (itnOf t d).resetDue = true)

/-- The droop cut (R285, R287, R288, R290, R296): DROOP_DETECT and DROOP_FORCE begin one, DROOP_CLEAR ends it, DROOP_REPORT tells the core.
Droop sites (R291 to R293, R295): SITE_STUCK and SITE_TEST mask a site, DROOP_SITE_RESTORE gives it back. What the agent does while its
link is lost stays with it, and a command for it waits (logs 47, 91, the model's choices). -/
def Obligations.DroopCutsAndMasks : Prop :=
  (∀ s d k, isPresent s d = true → k < 4 → sitesArmed s d = true → bit (maskedSites s d) k = false → agentGet s d (R.ITN_DIE_STAT.CUT d) = 0 →
    ∃ t, exec (.droopDetect d k) s = .next t ∧ agentGet t d (R.ITN_DIE_STAT.CUT d) = 1 ∧ bit (agentGet t d (R.ITN_DRP_STAT.FIRED d)) k = true ∧
      (tokOf t d).cutSlot = true ∧ (tokOf t d).cuts = (tokOf s d).cuts + 1 ∧ (itnOf t d).cutStart = now s ∧
      ((linkOf s d).lost = false → bit (get t (R.CAP_DIE_THR.ACTIVE d)) 9 = true) ∧
      (setting s d R.ITN_DRP_CFG.STRETCH_EN ≠ 0 → bit t.pins.stretch d = true ∧ agentGet t d (R.ITN_DIE_STAT.STRETCH d) = 1)) ∧
  (∀ s d m, isPresent s d = true → agentGet s d (R.ITN_DIE_STAT.CUT d) = 1 → bitsClear (itnOf s d).detMask (freeSites s d m) = 0 →
    ∃ t, exec (.droopClear d m) s = .next t ∧ agentGet t d (R.ITN_DIE_STAT.CUT d) = 0 ∧ agentGet t d (R.ITN_DRP_STAT.FIRED d) = 0 ∧
      (itnOf t d).detMask = 0 ∧ bit t.pins.stretch d = false ∧ (linkUp s d = true →
        Out.droop d (itnOf s d).cutMask ((itnOf s d).cutStart - (linkOf s d).base) (now s - (linkOf s d).base) ∈ t.out)) ∧
  (∀ s d m, isPresent s d = true → bitsClear (itnOf s d).detMask (freeSites s d m) ≠ 0 →
    ∃ t, exec (.droopClear d m) s = .next t ∧ agentGet t d (R.ITN_DIE_STAT.CUT d) = agentGet s d (R.ITN_DIE_STAT.CUT d) ∧
      (itnOf t d).detMask = bitsClear (itnOf s d).detMask (freeSites s d m) ∧
      agentGet t d (R.ITN_DRP_STAT.FIRED d) % 2 ^ 4 = bitsClear (itnOf s d).detMask (freeSites s d m) % 2 ^ 4) ∧
  (∀ s d fr mask start stop, Accepts s true tyREPORT d fr →
    ∃ t, exec (.droopReport d fr mask ⟨start, stop⟩) s = .next t ∧ get t (R.ITN_DRP_STAT.EVENTS d) = min 65535 (get s (R.ITN_DRP_STAT.EVENTS d) + 1) ∧
      get t (R.ITN_DRP_LAST.TIME d) = agentTime s d start % 2 ^ 64 ∧ get t (R.ITN_DRP_DUR.NS d) = min (2 ^ 32 - 1) (spanNs s start stop) ∧
      bit (get t R.ITN_EVENT) 4 = true ∧ (linkOf t d).upSeq = some (frameSeq fr.bytes) ∧
      (Room s 1 → { dieEvent s 0x0503 d (mask % 16) with time := agentTime s d start } ∈ t.log.queue)) ∧
  (∀ s port tag fl d k n, Waiting s 0x0503 port tag fl → par fl 0 = d + 64 * k → par fl 1 = n → isPresent s d = true → k < 4 → 10 ≤ n → n ≤ 10000 →
    bit (markedSites s d ||| get s (R.ITN_DRP_MASK.SITE_DIS d)) k = false → loopState s d = lpTRACK → (linkOf s d).lost = false →
    ∃ t, exec (.droopForce port tag) s = .next t ∧ flightOf t port tag = some { fl with started := true } ∧
      get t (R.ITN_DIE_STAT.CUT d) ≠ 0 ∧ (⟨port, tag, k, n, now s, true⟩ : Forced) ∈ (itnOf t d).forced) ∧
  (∀ s port tag fl d k n, Waiting s 0x0503 port tag fl → par fl 0 = d + 64 * k → par fl 1 = n → isPresent s d = true → k < 4 → 10 ≤ n → n ≤ 10000 →
    bit (markedSites s d ||| get s (R.ITN_DRP_MASK.SITE_DIS d)) k = false → loopState s d = lpTRACK → (linkOf s d).lost = true →
    ∃ t, exec (.droopForce port tag) s = .next t ∧ flightOf t port tag = some { fl with started := true } ∧
      agentGet t d (R.ITN_DIE_STAT.CUT d) = agentGet s d (R.ITN_DIE_STAT.CUT d) ∧
      (⟨port, tag, k, n, now s, false⟩ : Forced) ∈ (itnOf t d).forced) ∧
  (∀ s d k, isPresent s d = true → (linkOf s d).lost = false → k < 4 → bit (itnOf s d).detMask k = true →
    get s R.ITN_DRP_CFG2.STUCK_US ≤ s.us - sget 0 k (itnOf s d).aboveUs → (itnOf s d).threshold + 8 * get s R.ITN_DRP_CFG.HYST < vmeas s d →
    ∃ t, exec (.siteStuck d k) s = .next t ∧ bit (get t (R.ITN_DRP_STAT.STUCK d)) k = true ∧ bit (get t R.SAF_FAULT) 3 = true ∧
      get t (R.ITN_DIE_STAT.BLIND d) = b2n (decide (maskedSites t d = 15))) ∧
  (∀ s d m k, isPresent s d = true → k < 4 → bit m k = true → bit (agentGet s d (R.ITN_DRP_STAT.FAILED d)) k = false →
    ∃ t, exec (.siteTest d m) s = .next t ∧ bit (agentGet t d (R.ITN_DRP_STAT.FAILED d)) k = true ∧
      ((linkOf s d).lost = false → bit (get t R.SAF_FAULT) 3 = true)) ∧
  (∀ s port tag fl d m failing, Waiting s 0x0502 port tag fl → par fl 0 = d + 64 * m → isPresent s d = true → 0 < m → m < 16 →
    m &&& markedSites s d = m → m &&& failing = 0 → (linkOf s d).lost = false →
    ∃ t, exec (.droopSiteRestore port tag failing) s = .next t ∧ Completed s t fl sOK 0 0 ∧
      ∀ k < 4, bit m k = true → bit (get t (R.ITN_DRP_STAT.STUCK d)) k = false ∧ bit (get t (R.ITN_DRP_STAT.FAILED d)) k = false) ∧
  (∀ s port tag fl d m failing, Waiting s 0x0502 port tag fl → par fl 0 = d + 64 * m → isPresent s d = true → 0 < m → m < 16 →
    m &&& markedSites s d ≠ m ∨ m &&& failing ≠ 0 ∧ (linkOf s d).lost = false →
    ∃ t, exec (.droopSiteRestore port tag failing) s = .next t ∧ Completed s t fl sWRONG_STATE 0 0) ∧
  (∀ s port tag fl d m failing, s.log.fresh = [] → Waiting s 0x0502 port tag fl → par fl 0 = d + 64 * m → isPresent s d = true → 0 < m → m < 16 →
    m &&& markedSites s d = m → (linkOf s d).lost = true → exec (.droopSiteRestore port tag failing) s = .next s)

/-- AGENT_SLOT completes (R301 to R306, R310, R316 to R319): the dispatchers are served, the slot's issue and filler are reported and become
the recorded grant of R305, the next slot begins with the grant of R304. PACKAGE_ARBITRATION completes (R309, R311 to R313): every present
die is sent a share between its issue floor and its ask, and the pointer of R311 moves on; in RELOCK the slot mark carries the slot's
length (R77). Warm-up filler (R325, R329): WARM_TIMEOUT says
that it takes too long, WARMUP_END ends it. The order in which a cycle's dispatchers are served is that of R302 as log 92 reads it. -/
def Obligations.TokensGranted : Prop :=
  (∀ s d asks free fed cuts, isPresent s d = true → s.clk.started = true →
    ∃ t, exec (.agentSlot d ⟨asks, free, fed⟩ ⟨cuts⟩) s = .next t ∧ (tokOf t d).slot = (tokOf s d).slot + 1 ∧
      (tokOf t d).total = (slotSum s d cuts asks free).real + (slotSum s d cuts asks free).fill ∧
      (tokOf t d).last = recordedGrant s d (slotSum s d cuts asks free) ∧ (tokOf t d).rot = (slotSum s d cuts asks free).served.rot ∧
      Out.dispatch d (slotSum s d cuts asks free).served.out ∈ t.out ∧ Out.tiles d (slotSum s d cuts asks free).filler.out ∈ t.out ∧
      ((linkOf s d).lost = false → get t (R.TOK_DIE_STAT2.USED d) = (slotSum s d cuts asks free).real % 2 ^ 12) ∧
      (linkUp s d = true → Out.tokens d (slotSum s d cuts asks free).real (slotSum s d cuts asks free).fill (tokOf s d).lateShare ∈ t.out)) ∧
  (∀ s d asks free fed cuts, isPresent s d = true → s.clk.started = true → s.boot.change = 0 →
    ∃ t, exec (.agentSlot d ⟨asks, free, fed⟩ ⟨cuts⟩) s = .next t ∧ (tokOf t d).grant =
      nextGrant t d (appliedBudget t d) (tokOf t d).share (phaseTag t d (itnOf t d).agent (tokOf t d).slot) (tokOf t d).last
        (tokOf t d).gated) ∧
  (∀ s d, isPresent s d = true → (tokOf s d).episode = true → (tokOf s d).ng ≤ (tokOf s d).n →
    ∃ t, exec (.episodeEnd d) s = .next t ∧ (tokOf t d).episode = false ∧ get t (R.FIL_DIE_STAT.EPISODE d) = 0 ∧
      get t (R.FIL_DIE_STAT.N d) = 0 ∧ get t (R.FIL_DIE_L0.L0 d) = 0) ∧
  (∀ s ps, s.clk.started = true → ∃ t, exec (.packageArbitration ps) s = .next t ∧ get t R.TOK_RR.PTR = (get s R.TOK_RR.PTR + 1) % 2 ^ 4 ∧
    (clkState s = 4 → Out.slotMark slotCycles t.clk.slotPs ∈ t.out) ∧
    ∀ d, isPresent s d = true → floorIssue t d ≤ (tokOf t d).shareSent ∧ (tokOf t d).shareSent ≤ (tokOf t d).ask ∧
      (linkUp s d = true → Out.share d (tokOf t d).shareSent ∈ t.out)) ∧
  (∀ s, get s R.FIL_WARM_STAT.STATE = 1 → get s R.FIL_WARM_STAT.TIMEOUT = 0 → get s R.FIL_WARM.TIMEOUT_S * 1000000 ≤ s.us - s.therm.warmUs →
    ∃ t, exec .warmTimeout s = .next t ∧ get t R.FIL_WARM_STAT.TIMEOUT = 1 ∧ bit (get t R.FIL_EVENT) 3 = true ∧
      bit (get t R.SAF_FAULT) 4 = true ∧ (Room s 1 → pkgEvent s 0x0508 (get s R.FIL_WARM_STAT.ELAPSED_S) ∈ t.log.queue)) ∧
  (∀ s port tag fl, Waiting s 0x0504 port tag fl → get s R.FIL_WARM_STAT.STATE = 1 →
    ∃ t, exec (.warmupEnd port tag) s = .next t ∧ Completed s t fl sOK 0 0 ∧ get t R.FIL_WARM_STAT.STATE = 3 ∧ t.boot.warmed = true ∧
      bit (get t R.FIL_EVENT) 2 = true ∧ (Room s 1 → pkgEvent s 0x0507 1 ∈ t.log.queue)) ∧
  (∀ s port tag fl, Waiting s 0x0504 port tag fl → get s R.FIL_WARM_STAT.STATE ≠ 1 →
    ∃ t, exec (.warmupEnd port tag) s = .next t ∧ Completed s t fl sWRONG_STATE 0 0)

/-- The brownout rules (R353 to R357): BROWN_ENTER, BROWN_EXIT, BROWN_EXPIRED, BROWN_RESET complete. -/
def Obligations.BrownoutStates : Prop :=
  (∀ s, get s R.CAP_BROWN_STAT.STATE = 0 → 2 ≤ s.capp.below → s.capp.reset < 2 → ∃ t, exec .brownEnter s = .next t ∧ get t R.CAP_BROWN_STAT.STATE = 1 ∧
    t.capp.ride = get s R.CAP_BROWN2.RIDE_US ∧ get t R.CAP_BROWN_STAT.COUNT = min 65535 (get s R.CAP_BROWN_STAT.COUNT + 1) ∧
    bit (get t R.CAP_EVENT) 0 = true ∧ (∀ p < 10, bit (get t (R.CMD_NOTIFY p)) 8 = true) ∧
    (Room s 1 → pkgEvent s 0x0601 (get s R.PST_VIN.VIN) ∈ t.log.queue)) ∧
  (∀ s, get s R.CAP_BROWN_STAT.STATE ≠ 0 → 2 ≤ s.capp.above → ∃ t, exec .brownExit s = .next t ∧ get t R.CAP_BROWN_STAT.STATE = 0 ∧
    t.capp.ride = 0 ∧ bit (get t R.SAF_FAULT) 5 = false ∧ bit (get t R.CAP_EVENT) 1 = true) ∧
  (∀ s, get s R.CAP_BROWN_STAT.STATE = 1 → s.capp.ride = 0 → ∃ t, exec .brownExpired s = .next t ∧ get t R.CAP_BROWN_STAT.STATE = 2 ∧
    bit (get t R.SAF_FAULT) 5 = true ∧ bit (get t R.CAP_EVENT) 2 = true ∧ (Room s 1 → pkgEvent s 0x0603 0 ∈ t.log.queue)) ∧
  (∀ s, 2 ≤ s.capp.reset → 5 ≤ stage s → stage s ≤ stREADY → s.boot.downCause = 0 →
    ∃ t, exec .brownReset s = .next t ∧ t.boot.downCause = 8 ∧ bit (get t R.CAP_EVENT) 3 = true ∧
      (Room s 1 → pkgEvent s 0x0604 (get s R.PST_VIN.VIN) ∈ t.log.queue))

/-- A change of operating point (R360) and the 1 ms tick (R337, R346): OP_FREQUENCY_SEND, OP_CHANGE, AVERAGE_UPDATE complete. Deferral
(R368, R369): DEFERRED_APPLY gives a change that waited its effect once no die of its scope is in COLLECTIVE, DEFER_MAX once it has waited
too long; shown for MODE_SET. A negative power shows as 0 (log 94, the model's choice). -/
def Obligations.OperatingPointsMove : Prop :=
  (∀ s d, isPresent s d = true → (capOf s d).change = 1 → loopState s d = lpTRACK → (railOf s d).ref256 = railTarget s d * 256 →
    ∃ t, exec (.opFrequencySend d) s = .next t ∧ (capOf t d).change = 2 ∧
      (linkUp s d = true → Out.frequency d (opF s d (get s (R.CAP_DIE_OP.TGT d))) ∈ t.out)) ∧
  (∀ s d fr, Accepts s true tyBULK d fr → (capOf s d).change = 2 ∨ (capOf s d).change = 3 → (capOf s d).owed = false → loopState s d ≠ lpHOLD →
    get s (R.CAP_DIE_OP.TGT d) < 16 → ∃ t, exec (.opChange ⟨d, fr⟩) s = .next t ∧ get t (R.CAP_DIE_OP.CUR d) = get s (R.CAP_DIE_OP.TGT d) ∧ get t (R.CAP_DIE_OP.CHG d) = 0 ∧
      (capOf t d).change = 0 ∧ bit (get t R.CAP_EVENT) 7 = true ∧
      get t (R.LPE_REF.TARGET d) = (if (capOf s d).change = 3 then opV s d (get s (R.CAP_DIE_OP.TGT d)) % 2 ^ 16 else get s (R.LPE_REF.TARGET d))) ∧
  (∀ s d fr, Accepts s true tyBULK d fr → (capOf s d).change = 2 ∨ (capOf s d).change = 3 → (capOf s d).owed = true → loopState s d ≠ lpHOLD →
    get s (R.CAP_DIE_OP.TGT d) < 16 → ∃ t, exec (.opChange ⟨d, fr⟩) s = .next t ∧
      get t (R.CAP_DIE_OP.CUR d) = get s (R.CAP_DIE_OP.TGT d) ∧ (capOf t d).owed = false ∧ bit (get t R.CAP_EVENT) 7 = true) ∧
  (∀ s, s.clk.started = true → 0 < s.capp.cycles → ∃ t, exec .averageUpdate s = .next t ∧ t.capp.pm = roundDiv s.capp.pSum s.capp.cycles ∧
      t.capp.pSum = 0 ∧ t.capp.cycles = 0 ∧
      t.capp.pavg = s.capp.pavg + divZ (t.capp.pm * 2 ^ 24 - s.capp.pavg) (1000 * get s R.CAP_AVG_CFG.TAU_S : Nat) ∧
      get t R.CAP_PKG_PAVG.P = powerCode (roundDiv t.capp.pavg (2 ^ 24)) % 2 ^ 32 ∧
      ∀ d, isPresent s d = true → (tokOf t d).slots = 0 ∧ (tokOf t d).limSlots = 0 ∧ (tokOf t d).allFloor = true) ∧
  (∀ s c fl, s.capp.deferred = [c] → collective s c.scope = false → c.opcode = 0x0604 → flightOf s c.port c.tag = some fl →
    ∃ t, exec .deferredApply s = .next t ∧ t.capp.deferred = [] ∧ get t R.CAP_MODE.MODE = bits (nth c.params 0) 0 2 ∧
      get t R.CAP_MODE.OP_FIX = bits (nth c.params 0) 2 4 ∧ Completed s t fl sOK 0 0) ∧
  (∀ s c fl, s.capp.deferred = [c] → c.at_ + get s R.CAP_DEFER.MAX_MS * 1000 ≤ s.us → c.opcode = 0x0604 → flightOf s c.port c.tag = some fl →
    ∃ t, exec .deferMax s = .next t ∧ t.capp.deferred = [] ∧ get t R.CAP_MODE.MODE = bits (nth c.params 0) 0 2 ∧
      bit (get t R.CAP_EVENT) 5 = true ∧ Completed s t fl sOK 0 0) ∧
  (∀ s, s.log.fresh = [] → s.capp.deferred ≠ [] → (∀ c ∈ s.capp.deferred, collective s c.scope = true ∧ c.stepped = false) →
    exec .deferredApply s = .next s)

/-- CAP_SET (R348, R349, R372, R379): the cap is in force at once and the command waits for its condition; removing a cap completes it, and
so does a change of the average limit; CAP_SET_DONE answers a cap that was met. The commands on operating points (R359, R380, R381):
OP_TABLE_SET and OP_LIMIT complete. A negative power shows as 0 (log 94, the model's choice). -/
def Obligations.CapsAndTablesSet : Prop :=
  (∀ s port tag fl d v, Waiting s 0x0601 port tag fl → par fl 0 = d + 64 → par fl 1 = v → isPresent s d = true →
    get s R.CAP_FUSE.DIE_FLOOR * 1000 ≤ v → v < 0xFFFFFFFF → AtOnce s (allDies s) → (∀ w ∈ s.capp.watches, w.scope ≠ 1 ∨ w.die ≠ d) →
    ∃ t, exec (.capSet port tag) s = .next t ∧ get t (R.CAP_DIE_CAP.CAP d) = v ∧ get t R.RNG_GEN.GEN = (get s R.RNG_GEN.GEN + 1) % 2 ^ 32 ∧
      t.capp.watches = s.capp.watches ++ [⟨1, d, now s % 2 ^ 32, 0, false, port, tag, none⟩] ∧
      flightOf t port tag = some { fl with started := true }) ∧
  (∀ s port tag fl d, Waiting s 0x0601 port tag fl → par fl 0 = d + 64 → par fl 1 = 0xFFFFFFFF → isPresent s d = true →
    get s R.CAP_FUSE.DIE_FLOOR * 1000 ≤ 0xFFFFFFFF → AtOnce s (allDies s) → (∀ w ∈ s.capp.watches, w.scope ≠ 1 ∨ w.die ≠ d) →
    ∃ t, exec (.capSet port tag) s = .next t ∧ get t (R.CAP_DIE_CAP.CAP d) = 0xFFFFFFFF ∧ Completed s t fl sOK (powerCode (capOf s d).pm) (now s)) ∧
  (∀ s port tag fl v, Waiting s 0x0601 port tag fl → par fl 0 = 128 → par fl 1 = v → get s R.CAP_FUSE.PKG_FLOOR * 1000 ≤ v → v < 0xFFFFFFFF →
    s.capp.deferred = [] →
    ∃ t, exec (.capSet port tag) s = .next t ∧ get t R.CAP_AVG_LIM.LIM = v ∧ Completed s t fl sOK (powerCode s.capp.pm) (now s)) ∧
  (∀ s port tag fl d v, Waiting s 0x0601 port tag fl → par fl 0 = d + 64 → par fl 1 = v → isPresent s d = true →
    get s R.CAP_FUSE.DIE_FLOOR * 1000 ≤ v → v ≤ 0xFFFFFFFF → s.capp.deferred = [] → collective s (allDies s) = true →
    ∃ t, exec (.capSet port tag) s = .next t ∧ get t (R.CAP_DIE_CAP.CAP d) = get s (R.CAP_DIE_CAP.CAP d) ∧
      t.capp.deferred.map (fun x => (x.opcode, x.params, x.port, x.tag)) = [(0x0601, fl.params, port, tag)] ∧
      flightOf t port tag = some { fl with started := true }) ∧
  (∀ s w st mean fl, s.capp.watches = [w] → w.verdict = some (st, mean) → flightOf s w.port w.tag = some fl →
    ∃ t, exec .capSetDone s = .next t ∧ t.capp.watches = [] ∧ Completed s t fl st mean w.time) ∧
  (∀ s port tag fl m n d, Waiting s 0x0602 port tag fl → par fl 0 = m + (n - 1) * 2 ^ 16 → 0 < m → m < 2 ^ nDies s → 1 ≤ n → n ≤ 16 →
    fl.params.length = 17 → (∀ j, n ≤ j → par fl (j + 1) = 0) → tableOrdered (tableEntries fl n) = true →
    (∀ x ∈ tableEntries fl n, 4800 ≤ x.1 ∧ x.1 ≤ 7600 ∧ x.1 % 20 = 0 ∧ get s R.CAP_FUSE2.FMIN ≤ x.2 ∧ x.2 ≤ get s R.CAP_FUSE2.FMAX) →
    n ≤ get s R.CAP_FUSE.N_FREQ → (∀ k, bit m k = true → loopState s k ≠ lpHOLD) → AtOnce s m → bit m d = true →
    ∃ t, exec (.opTableSet port tag) s = .next t ∧ Completed s t fl sOK 0 0 ∧ get t (R.CAP_DIE_OP.N_OP d) = n ∧
      ∀ j < 16, opV t d j = bits (par fl (j + 1)) 0 16 ∧ opF t d j = bits (par fl (j + 1)) 16 16) ∧
  (∀ s port tag fl m lo hi d, Waiting s 0x0603 port tag fl → par fl 0 = m + lo * 2 ^ 16 + hi * 2 ^ 20 → 0 < m → m < 2 ^ nDies s → lo ≤ hi → hi < 16 →
    (∀ k, bit m k = true → hi < get s (R.CAP_DIE_OP.N_OP k)) → AtOnce s m → bit m d = true →
    ∃ t, exec (.opLimit port tag) s = .next t ∧ Completed s t fl sOK 0 0 ∧ get t (R.CAP_DIE_OP.MIN d) = lo ∧ get t (R.CAP_DIE_OP.MAX d) = hi) ∧
  (∀ s port tag fl m lo hi k, Waiting s 0x0603 port tag fl → par fl 0 = m + lo * 2 ^ 16 + hi * 2 ^ 20 → 0 < m → m < 2 ^ nDies s → lo ≤ hi → hi < 16 →
    bit m k = true → get s (R.CAP_DIE_OP.N_OP k) ≤ hi → ∃ t, exec (.opLimit port tag) s = .next t ∧ Completed s t fl sOUT_OF_RANGE 0 0)

/-- The commands on modes, hints, classes and power targets (R349, R352, R365, R382 to R385): MODE_SET, HINT_SET, CLASS_SET, FP_TARGET
complete. -/
def Obligations.ModesAndHintsSet : Prop :=
  (∀ s port tag fl mode op, Waiting s 0x0604 port tag fl → par fl 0 = mode + 4 * op → mode < 3 → op < 16 →
    (∀ d, isPresent s d = true → op < get s (R.CAP_DIE_OP.N_OP d)) → AtOnce s (allDies s) →
    ∃ t, exec (.modeSet port tag) s = .next t ∧ Completed s t fl sOK 0 0 ∧ get t R.CAP_MODE.MODE = mode ∧ get t R.CAP_MODE.OP_FIX = op) ∧
  (∀ s port tag fl k op ceil, Waiting s 0x0605 port tag fl → par fl 0 = k + 8 * op + 128 * ceil → k < 8 → op < 16 → 0 < ceil → ceil < 4096 →
    AtOnce s (allDies s) →
    ∃ t, exec (.hintSet port tag) s = .next t ∧ Completed s t fl sOK 0 0 ∧ get t (R.CAP_HINT.OP k) = op ∧ get t (R.CAP_HINT.CEIL k) = ceil) ∧
  (∀ s port tag fl o a b c, Waiting s 0x0606 port tag fl → par fl 0 = o → o < 64 → sortNat [bits o 0 2, bits o 2 2, bits o 4 2] = [0, 1, 2] →
    par fl 1 = a + b * 2 ^ 10 + c * 2 ^ 20 → a < 1024 → b < 1024 → c < 1024 → a + b + c ≤ get s R.CAP_FUSE.PKG_FLOOR → AtOnce s (allDies s) →
    ∃ t, exec (.classSet port tag) s = .next t ∧ Completed s t fl sOK 0 0 ∧ get t R.CAP_CLASS.ORDER = o ∧ get t R.CAP_CLASS_FLOOR.COMP = a ∧
      get t R.CAP_CLASS_FLOOR.MEM = b ∧ get t R.CAP_CLASS_FLOOR.LINK = c) ∧
  (∀ s port tag fl m v d, Waiting s 0x0607 port tag fl → par fl 0 = m → par fl 1 = v → 0 < m → m < 2 ^ nDies s → v < 2 ^ 32 →
    get s R.CAP_FUSE.DIE_FLOOR * 1000 ≤ v → AtOnce s m → bit m d = true →
    ∃ t, exec (.fpTarget port tag) s = .next t ∧ Completed s t fl sOK 0 0 ∧ get t (R.CAP_DIE_FP.TARGET d) = v)

/-- A temperature conversion (R393 to R395, R402, R406): CONVERSION_OPEN, WINDOW_CLOSE and THERMAL_CONVERSION complete; of a window that was open in LOCKED, a sensor
that is powered and stays included reads its count by the calibration of R394. Stack temperatures (R35, R409): STACK_REPORT and STACK_STALE
complete. A sensor whose two fused counts are equal has no stated reading and is left out here (log 73); payloads come as operands
(log 91). -/
def Obligations.TemperaturesAndStacks : Prop :=
  (∀ s, s.clk.started = true → s.therm.period ≠ conversionPeriod s → ∃ t, exec .conversionOpen s = .next t ∧ t.therm.isOpen = true ∧ t.therm.spoiled = false ∧ t.therm.counts = [] ∧
    t.therm.clock = clkState s ∧ Out.sensorOpen ∈ t.out) ∧
  (∀ s d fr l, s.therm.isOpen = true → Accepts s true tyBULK d fr → dieInReset s d = false →
    ∃ t, exec (.windowClose ⟨d, fr⟩ l) s = .next t ∧ t.therm.closed = true ∧ sget [] d t.therm.counts = l.map (· % 2 ^ 24) ∧ Out.sensorCounts d ∈ t.out) ∧
  (∀ s opened closed d i, s.therm.isOpen = true → s.therm.spoiled = false → s.therm.clock = 2 → isPresent s d = true → dieHeld s d = false →
    sget [] d s.therm.counts ≠ [] → i < nSensors s → sensorLive s d i = true →
    get s (R.THM_SNS_CAL.CA (96 * d + i)) ≠ get s (R.THM_SNS_CAL.CB (96 * d + i)) →
    ∃ t, exec (.thermalConversion opened closed) s = .next t ∧ t.therm.isOpen = false ∧
      get t (R.THM_SNS_RAW.COUNT (96 * d + i)) = nth (sget [] d s.therm.counts) i % 2 ^ 24 ∧
      (get t (R.THM_SNS.EXCL (96 * d + i)) = 0 →
        getI t (R.THM_SNS.T (96 * d + i)) = reading s (96 * d + i) (nth (sget [] d s.therm.counts) i))) ∧
  (∀ s opened closed d, s.therm.isOpen = true → s.therm.spoiled = false → isPresent s d = true → dieHeld s d = true →
    ∃ t, exec (.thermalConversion opened closed) s = .next t ∧ get t (R.THM_DIE_STAT.STALE d) = 1 ∧
      get t (R.THM_DIE_T.HOT d) = get s (R.THM_DIE_T.HOT d)) ∧
  (∀ s opened closed, s.therm.isOpen = true → s.therm.spoiled = true →
    ∃ t, exec (.thermalConversion opened closed) s = .next t ∧ t.therm.isOpen = false ∧ bit (get t R.THM_EVENT) 8 = true) ∧
  (∀ s n fr v e, n < nStacks s → Accepts s true tyBULK (serves s n) fr → v < 2 ^ 16 →
    ∃ t, exec (.stackReport n fr ⟨v, e⟩) s = .next t ∧ get t (R.THM_STK.T n) = v ∧ get t (R.THM_STK.STALE n) = 0 ∧
      bit (readField t R.THM_STK_STALE.STACKS) n = false) ∧
  (∀ s n, n < nStacks s → get s (R.THM_STK.STALE n) = 0 → 10000 ≤ s.us - sget 0 n s.therm.stkUs → ∃ t, exec (.stackStale n) s = .next t ∧ get t (R.THM_STK.STALE n) = 1 ∧ bit (get t R.THM_EVENT) 7 = true ∧
    (Room s 1 → { pkgEvent s 0x0706 n with part := ownerStack s n } ∈ t.log.queue))

/-- The thermal commands (R416 to R419): THERM_THRESH_SET, SENSOR_EXCLUDE, SENSOR_READMIT, THERM_RELEASE complete. -/
def Obligations.ThermalCommands : Prop :=
  (∀ s port tag fl k w v, Waiting s 0x0701 port tag fl → par fl 0 = k → k < 3 → par fl 1 = w + v * 2 ^ 16 → (if k = 2 then 960 else 640) ≤ w →
    w < v → w ≤ (if k = 0 then 1520 else if k = 1 then 1360 else 1680) → v ≤ (if k = 0 then 1680 else if k = 1 then 1520 else 1680) →
    ∃ t, exec (.thermThreshSet port tag) s = .next t ∧ Completed s t fl sOK 0 0 ∧ get t (warnOf k) = w ∧ get t (throttleOf k) = v ∧
      get t R.RNG_GEN.GEN = (get s R.RNG_GEN.GEN + 1) % 2 ^ 32) ∧
  (∀ s port tag fl g, Waiting s 0x0702 port tag fl → par fl 0 = g → sensorFitted s g = true → get s (R.THM_SNS.EXCL g) = 0 →
    (excludedIn s (g / 96) 0 (nSensors s)).length + 1 < nSensors s →
    ∃ t, exec (.sensorExclude port tag) s = .next t ∧ Completed s t fl sOK 0 0 ∧ get t (R.THM_SNS.EXCL g) = 1 ∧ get t (R.THM_SNS.CAUSE g) = 3 ∧
      get t (R.THM_DIE_CNT.EXCLUDES (g / 96)) = min 65535 (get s (R.THM_DIE_CNT.EXCLUDES (g / 96)) + 1)) ∧
  (∀ s port tag fl g, Waiting s 0x0703 port tag fl → par fl 0 = g → sensorFitted s g = true → isOn s (R.THM_SNS.EXCL g) = true →
    ∃ t, exec (.sensorReadmit port tag) s = .next t ∧ Completed s t fl sOK 0 0 ∧ get t (R.THM_SNS.EXCL g) = 0 ∧ get t (R.THM_SNS.CAUSE g) = 0 ∧
      get t (R.THM_DIE_STAT.LOST (g / 96)) = 0) ∧
  (∀ s port tag fl, Waiting s 0x0704 port tag fl → isOn s R.THM_TRIP.ACTIVE = true →
    get s R.THM_TRIP_CFG.HOLD_S * 1000000 ≤ s.us - s.therm.tripUs →
    ∃ t, exec (.thermRelease port tag) s = .next t ∧ Completed s t fl sOK 0 0 ∧ get t R.THM_TRIP.ACTIVE = 0 ∧ bit (get t R.SAF_FAULT) 6 = false) ∧
  (∀ s port tag fl, Waiting s 0x0704 port tag fl →
    get s R.THM_TRIP.ACTIVE = 0 ∨ s.us - s.therm.tripUs < get s R.THM_TRIP_CFG.HOLD_S * 1000000 →
    ∃ t, exec (.thermRelease port tag) s = .next t ∧ Completed s t fl sWRONG_STATE 0 0 ∧ get t R.THM_TRIP.ACTIVE = get s R.THM_TRIP.ACTIVE)

/-- Membership of the budget ring (R434, R435, R438, R443, R449): RING_JOIN, MASTER_TAKEOVER, MASTER_YIELD, NO_MASTER, BYPASS_CLOSE and
L_RING_APPLY complete. -/
def Obligations.RingMembership : Prop :=
  (∀ s, ringState s = rnLISTEN → 100 ≤ s.ring.hdrRun → s.ring.lastFrame = 99 → ∃ t, exec .ringJoin s = .next t ∧ ringState t = rnMEMBER ∧ t.pins.bypEn = true ∧
    bit (get t R.RNG_EVENT) 0 = true ∧ (Room s 1 → pkgEvent s 0x0801 (ringId s) ∈ t.log.queue)) ∧
  (∀ s, get s R.RNG_CFG.ROLE = 1 ∨ get s R.RNG_CFG.ROLE = 2 → ringState s = rnLISTEN ∨ ringState s = rnMEMBER → get s R.RNG_STAT.MASTER_ACT = 0 →
    takeoverTime s ≤ s.us - s.ring.quietUs → ∃ t, exec .masterTakeover s = .next t ∧ get t R.RNG_STAT.MASTER_ACT = 1 ∧ ringState t = rnMEMBER ∧ t.ring.frame = 0 ∧
      t.ring.known = s.ring.known ∧ get t R.RNG_STAT.MASTER_ID = get s R.RNG_STAT.MASTER_ID) ∧
  (∀ s, isMaster s = true → s.ring.outranked = true ∨ get s R.RNG_CFG.ROLE = 0 →
    ∃ t, exec .masterYield s = .next t ∧ get t R.RNG_STAT.MASTER_ACT = 0 ∧ t.ring.assigns = []) ∧
  (∀ s, ringState s = rnMEMBER → get s R.RNG_STAT.MASTER_ACT = 0 → 30 ≤ s.us - s.ring.quietUs → ∃ t, exec .noMaster s = .next t ∧ get t R.RNG_STAT.NO_MASTER = 1) ∧
  (∀ s, s.ring.closing = true → ringState s = rnMEMBER → get s R.RNG_CFG.EN = 0 → ∃ t, exec .bypassClose s = .next t ∧ ringState t = rnOFF ∧
      t.pins.bypEn = false ∧ t.ring.closing = false ∧ bit (get t R.RNG_EVENT) 1 = true) ∧
  (∀ s, s.ring.closing = true → ringState s = rnMEMBER → get s R.RNG_CFG.EN = 1 → s.ring.conflict = true →
    ∃ t, exec .bypassClose s = .next t ∧ ringState t = rnBYPASS ∧ t.pins.bypEn = false ∧ t.ring.closing = false) ∧
  (∀ s round w, s.ring.taken = some (round, w) → s.ring.due = true → ringState s = rnMEMBER → s.capp.deferred = [] →
    collective s (allDies s) = false → w < 2 ^ 16 →
    ∃ t, exec .lRingApply s = .next t ∧ get t R.CAP_RING.BUDGET = w * 1000 ∧ get t R.RNG_BUDGET.INFORCE = w ∧
      get t R.RNG_BUDGET.PENDING = 0xFFFF ∧ t.ring.applied = round ∧ t.ring.taken = none)

/-- Frames of the budget ring (R425, R426, R428, R436, R438): MASTER_FRAME_START and RING_FRAME complete. Balancing (R439 to R441, R450):
BALANCE_ROUND completes: a round follows a superframe of at least 90 frames that came back, none a broken one. Which frames are its own is
the model's reading (log 95). -/
def Obligations.RingFramesAndBalance : Prop :=
  (∀ s, isMaster s = true → 0 < s.ring.frame → s.ring.frame < 99 → ∃ t, exec .masterFrameStart s = .next t ∧ t.ring.frame = s.ring.frame + 1 ∧
    Out.ringFrame (headerOf s.ring.frame (ringId s) (b2n (get s R.RNG_CFG.ROLE = 1)) s.ring.round
        ((List.range 4).map fun i => sget 0xFFFF (4 * (s.ring.frame % 16) + i) s.ring.assigns)
      ++ (List.range 64).flatMap fun m => if m = ringId s then ownSlot s s.ring.frame else List.replicate 12 0) ∈ t.out) ∧
  (∀ s, isMaster s = true → s.ring.frame = 99 → ∃ t, exec .masterFrameStart s = .next t ∧ t.ring.frame = 0 ∧ t.ring.balanceDue = true) ∧
  (∀ s h sl, s.clk.started = true → ringState s = rnLISTEN ∨ ringState s = rnMEMBER → (∀ b ∈ h, b < 256) → leNat ((h.drop 14).take 2) ≠ crc16 (h.take 14) →
    ∃ t, exec (.ringFrame h sl) s = .next t ∧ get t R.RNG_ERR.HDR = min 65535 (get s R.RNG_ERR.HDR + 1) ∧ t.ring.hdrRun = 0 ∧
      get t R.RNG_STAT.MASTER_ID = get s R.RNG_STAT.MASTER_ID) ∧
  (∀ s h, s.clk.started = true → ringState s = rnLISTEN → (∀ b ∈ h, b < 256) → leNat ((h.drop 14).take 2) = crc16 (h.take 14) →
    ∃ t, exec (.ringFrame h []) s = .next t ∧ t.ring.hdrRun = min 100 (s.ring.hdrRun + 1) ∧ get t R.RNG_STAT.NO_MASTER = 0 ∧
      get t R.RNG_STAT.MASTER_ID = nth h 2 % 64 ∧ ringState t = rnLISTEN) ∧
  (∀ s h sl, s.clk.started = true → ringState s = rnLISTEN ∨ ringState s = rnMEMBER → s.ring.conflict = false →
    nth h 2 % 64 ≠ ringId s ∨ s.ring.away = 0 → (∀ b ∈ h, b < 256) → (∀ x ∈ sl, ∀ b ∈ x, b < 256) →
    leNat ((h.drop 14).take 2) = crc16 (h.take 14) → slotEmpty (sl.getD (ringId s) []) = false → slotGood (sl.getD (ringId s) []) = true →
    bit (nth (sl.getD (ringId s) []) 0) 0 = true → get s R.RNG_CFG.EN = 1 →
    ∃ t, exec (.ringFrame h sl) s = .next t ∧ get t R.RNG_STAT.ID_CONFLICT = 1 ∧ bit (get t R.SAF_FAULT) 7 = true ∧ t.ring.conflict = true ∧
      (if ringState s = rnMEMBER then ringState t = rnMEMBER ∧ t.ring.closing = true else ringState t = rnBYPASS)) ∧
  (∀ s, isMaster s = true → s.ring.balanceDue = true → s.ring.holdOne = false → 90 ≤ s.ring.returned →
    (List.range 64).foldl (fun a m => a + (copyOf s m).floor) 0 ≤ get s R.RNG_TOTAL.TOTAL →
    ∃ t, exec .balanceRound s = .next t ∧ t.ring.round = (s.ring.round + 1) % 65536 ∧ t.ring.balanceDue = false ∧
      get t R.RNG_STAT.BROKEN = 0) ∧
  (∀ s, isMaster s = true → s.ring.balanceDue = true → s.ring.holdOne = false → s.ring.returned < 90 →
    ∃ t, exec .balanceRound s = .next t ∧ t.ring.round = s.ring.round ∧ t.ring.assigns = [] ∧ t.ring.balanceDue = false ∧
      get t R.RNG_STAT.BROKEN = 1 ∧ bit (get t R.RNG_EVENT) 3 = true)

/-- The configuration digest (R445, R451) and RING_FORGET (R452): DIGEST_RECOMPUTE, GET_CONFIG_DIGEST, RING_FORGET complete. -/
def Obligations.ConfigurationDigest : Prop :=
  (∀ s, s.ring.busy = true → ∃ t, exec .digestRecompute s = .next t ∧ t.ring.digest = leNat (sha384 (configBytes s)) ∧ t.ring.busy = false) ∧
  (∀ s fl, s.ring.busy = true → s.host.flights = [fl] → fl.opcode = 0x0801 → fl.started = true →
    ∃ t, exec .digestRecompute s = .next t ∧ Completed s t fl sOK (get s R.RNG_GEN.GEN) t.ring.digest) ∧
  (∀ s port tag fl, Waiting s 0x0801 port tag fl → s.ring.busy = false →
    ∃ t, exec (.getConfigDigest port tag) s = .next t ∧ Completed s t fl sOK (get s R.RNG_GEN.GEN) s.ring.digest ∧
      get t (R.RNG_DIG_OUT.DIGEST port) = s.ring.digest % 2 ^ 384 ∧ get t (R.RNG_DIG_OUT.GEN port) = get s R.RNG_GEN.GEN % 2 ^ 32) ∧
  (∀ s port tag fl, Waiting s 0x0801 port tag fl → s.ring.busy = true →
    ∃ t, exec (.getConfigDigest port tag) s = .next t ∧ flightOf t port tag = some { fl with started := true }) ∧
  (∀ s port tag fl m, Waiting s 0x0802 port tag fl → par fl 0 = m → m < 64 → isMaster s = true → bit (get s R.RNG_PRESENT.MAP) m = false →
    ∃ t, exec (.ringForget port tag) s = .next t ∧ Completed s t fl sOK 0 0 ∧ knownOf t m = RingKnown.init) ∧
  (∀ s port tag fl m, Waiting s 0x0802 port tag fl → par fl 0 = m → m < 64 → isMaster s = false ∨ bit (get s R.RNG_PRESENT.MAP) m = true →
    ∃ t, exec (.ringForget port tag) s = .next t ∧ Completed s t fl sWRONG_STATE 0 0)

/-- Taps (R457 to R459, R462): SNAPSHOT, QUEUE_TAPS and TAP_LATE complete. Naming (R461 to R469): WALK names the contexts of every cycle
that are NORMAL, ENGINE_FAULT the context of the engine; POLICY_QUEUE queues a NAMED context by the policy; SEQUENCE_START fences the
oldest pending one. -/
def Obligations.TapsAndVictims : Prop :=
  (∀ s, s.clk.started = true → s.recov.period ≠ s.us / 1000 + 1 → ∃ t, exec .snapshot s = .next t ∧ get t R.HNG_SNAP_TS.TIME = now s % 2 ^ 64 ∧
    t.recov.arrived = 0 ∧ t.recov.late = 0 ∧ t.recov.stamp = now s ∧ t.recov.due = (s.recov.due || isOn s R.HNG_CFG.EN) ∧ Out.snapshot ∈ t.out ∧
    (s.recov.due = true → bit (get t R.HNG_EVENT) 7 = true ∧ t.recov.graph = some (s.recov.graph.getD (walkGraph s)))) ∧
  (∀ s d fr taps, Accepts s true tyBULK d fr → bit s.recov.arrived d = false → bit s.recov.late d = false →
    ∃ t, exec (.queueTaps ⟨d, fr⟩ taps) s = .next t ∧ bit t.recov.arrived d = true ∧
      (∀ i < 1024, tapOf t (1024 * d + i) = tapClean (nth taps i) ∧
        ageOf t (1024 * d + i) = (if stillWaits (tapOf s (1024 * d + i)) (tapClean (nth taps i)) then min 65535 (ageOf s (1024 * d + i) + 1) else 0)) ∧
      ((∀ e, isPresent s e = true → e = d ∨ bit s.recov.arrived e = true ∨ bit s.recov.late e = true) →
        ∀ c, queuesOf t c ≠ [] → get t (R.CTX_STATE.N_Q c) = (queuesOf t c).length % 2 ^ 15)) ∧
  (∀ s d, isPresent s d = true → bit s.recov.arrived d = false → bit s.recov.late d = false → 50000 ≤ spanNs s s.recov.stamp (now s) →
    ∃ t, exec (.tapLate d) s = .next t ∧ bit t.recov.late d = true ∧ bit (get t R.HNG_EVENT) 8 = true ∧ t.recov.taps = s.recov.taps ∧
      t.recov.ages = s.recov.ages) ∧
  (∀ s g stop, s.recov.due = true → g = s.recov.graph.getD (walkGraph s) → g.stamp ≤ stop → stop ≤ now s →
    s.recov.graph.isSome = true ∨ (∀ d, isPresent s d = true → bit s.recov.arrived d = true ∨ bit s.recov.late d = true) →
    get s R.HNG_CFG.EN = 1 → (∀ e ∈ g.ctxs, e.2 < 4096) →
    ∃ t, exec (.walk stop) s = .next t ∧ t.recov.due = false ∧ t.recov.graph = none ∧
      get t R.HNG_WALK.LAST_US = min 65535 (spanNs s g.stamp stop / 1000) ∧ get t R.HNG_WALK.CYCLES = min 65535 (cycles s g).length ∧
      ∀ cy ∈ cycles s g, ∀ c ∈ cycleNames s g cy, ctxState s c = cxNORMAL → ctxState t c = cxNAMED) ∧
  (∀ s d fr c e code stamp, Accepts s true tyREPORT d fr → c < 4096 → ctxState s c = cxNORMAL →
    ∃ t, exec (.engineFault ⟨d, fr⟩ c e ⟨code, stamp⟩) s = .next t ∧ ctxState t c = cxNAMED ∧ bit (get t R.HNG_EVENT) 1 = true ∧
      VictimAt s t c 2 (d % 64 + e % 256 * 2 ^ 8 + code % 2 ^ 16 * 2 ^ 16) ∧
      get t (R.HNG_VICTIM.TIME (get t R.HNG_VIC_HEAD.IDX)) = now s % 2 ^ 64 ∧
      (Room s 2 → { dieEvent s 0x0902 d (c + code % 2 ^ 16 * 2 ^ 16) with part := ownerCtx s c, time := agentTime s d stamp } ∈ t.log.queue)) ∧
  (∀ s c, fwRuns s = true → c < 4096 → ctxState s c = cxNAMED → s.recov.pend.length < 64 →
    (sget 0 c s.recov.namedKind = 1 ∧ get s R.HNG_CFG.AUTO_HANG = 1) ∨ (sget 0 c s.recov.namedKind = 2 ∧ get s R.HNG_CFG.AUTO_FAULT = 1) →
    ∃ t, exec (.policyQueue c) s = .next t ∧ ctxState t c = cxQUEUED ∧ t.recov.pend.map (·.ctx) = s.recov.pend.map (·.ctx) ++ [c]) ∧
  (∀ s c l, s.recov.cur = none → s.recov.hold = false → s.recov.pend = c :: l → c.ctx < 4096 →
    ∃ t, exec .sequenceStart s = .next t ∧ ctxState t c.ctx = cxFENCED ∧ get t R.HNG_STAT.SEQ_BUSY = 1 ∧ get t R.HNG_STAT.CUR_CTX = c.ctx ∧
      t.recov.pend = l ∧ Out.queueOrder 1 c.ctx ∈ t.out)

/-- The steps of the sequence (R470 to R477): FENCE_ACK, DRAIN_END, ABORT_ACK, CAPTURE_DONE, CAPTURE_OVERRUN and CLEAR_ACK complete. The
end of a reset (R470, R473, R480, R484): RELEASE_ACK returns the context to NORMAL, SEQUENCE_STUCK leaves it STUCK with the fault of R650;
each counts, and answers the command that waits. -/
def Obligations.ResetSequenceRuns : Prop :=
  (∀ s q who n, SeqAt s q cxFENCED → agentsAck q.gone s = true → 16 ≤ who → 0 < n →
    ∃ t, exec (.fenceAck who n) s = .next t ∧ ctxState t q.ctx = cxDRAINING) ∧
  (∀ s q who, SeqAt s q cxFENCED → agentsAck q.gone s = true → 16 ≤ who →
    ∃ t, exec (.fenceAck who 0) s = .next t ∧ ctxState t q.ctx = cxABORTING ∧ Out.queueOrder 2 q.ctx ∈ t.out) ∧
  (∀ s q who n, SeqAt s q cxDRAINING → 16 ≤ who → drained s q.since n = true →
    ∃ t, exec (.drainEnd who n) s = .next t ∧ ctxState t q.ctx = cxABORTING ∧ Out.queueOrder 2 q.ctx ∈ t.out) ∧
  (∀ s q who n, SeqAt s q cxABORTING → agentsAck q.gone s = true → 16 ≤ who → confPart s (ownerCtx s q.ctx) = true ∨ get s (R.CTX_STATE.SPLIT q.ctx) = 1 ∨ (∀ n < 16, bit (get s R.CTX_CAP_SLOTS.HELD) n = true) →
    ∃ t, exec (.abortAck who n) s = .next t ∧ ctxState t q.ctx = cxCLEARING ∧ Out.queueOrder 3 q.ctx ∈ t.out ∧
      t.recov.cur = some { q with answered := min 0xFFFFFFFF n, since := now s }) ∧
  (∀ s q who n, SeqAt s q cxABORTING → agentsAck q.gone s = true → 16 ≤ who → confPart s (ownerCtx s q.ctx) = false →
    get s (R.CTX_STATE.SPLIT q.ctx) = 0 → bit (get s R.CTX_CAP_SLOTS.HELD) 0 = false →
    ∃ t, exec (.abortAck who n) s = .next t ∧ ctxState t q.ctx = cxCAPTURING ∧ t.recov.cur.map (·.slot) = some 0 ∧
      t.recov.cur.map (·.wins) = some ((capWindows s).filter fun w => !(bit q.gone w.die || dieInReset s w.die))) ∧
  (∀ s q data, SeqAt s q cxCAPTURING → q.slot < 16 →
    ∃ t, exec (.captureDone data false) s = .next t ∧ ctxState t q.ctx = cxCLEARING ∧ Out.queueOrder 3 q.ctx ∈ t.out ∧
      bit (get t R.CTX_CAP_SLOTS.HELD) q.slot = true ∧ get t (R.CTX_CAP_HDR.VALID q.slot) = 1 ∧ get t (R.CTX_CAP_HDR.CTX q.slot) = q.ctx ∧
      get t (R.CTX_CAP_HDR.TRUNC q.slot) = b2n q.cut ∧ get t (R.CTX_CAP_HDR.BYTES q.slot) = (data.take (capLength q.wins)).length % 2 ^ 17 ∧
      ∀ i < (data.take (capLength q.wins)).length, readByte t (sharedArea (0x200000 + 0x10000 * q.slot) + i) = nth data i % 256) ∧
  (∀ s q data, SeqAt s q cxCAPTURING → q.slot < 16 → boundPassed s q.since (stepBound s q) = true →
    ∃ t, exec (.captureOverrun data) s = .next t ∧ ctxState t q.ctx = cxCLEARING ∧ get t (R.CTX_CAP_HDR.TRUNC q.slot) = 1 ∧
      get t (R.CTX_CAP_HDR.BYTES q.slot) = (data.take (capLength q.wins)).length % 2 ^ 17) ∧
  (∀ s q, SeqAt s q cxCLEARING → agentsAck q.gone s = true → q.released = false →
    ∃ t, exec .clearAck s = .next t ∧ ctxState t q.ctx = cxCLEARING ∧ t.recov.cur = some { q with released := true, since := now s } ∧ Out.queueOrder 4 q.ctx ∈ t.out) ∧
  (∀ s q, SeqAt s q cxCLEARING → agentsAck q.gone s = true → q.released = true →
    ∃ t, exec .releaseAck s = .next t ∧ ctxState t q.ctx = cxNORMAL ∧ t.recov.cur = none ∧ get t R.HNG_STAT.SEQ_BUSY = 0 ∧
      get t R.CTX_CNT.RESETS = min 65535 (get s R.CTX_CNT.RESETS + 1) ∧ bit (get t R.HNG_EVENT) 2 = true ∧ s.us ∈ t.recov.ends ∧
      ∀ p tag fl, q.waiter = some (p, tag) → flightOf s p tag = some fl → Completed s t fl sOK q.answered (q.slot + q.bytes * 2 ^ 8)) ∧
  (∀ s q st, SeqAt s q st → st = cxFENCED ∨ st = cxABORTING ∨ st = cxCLEARING → boundPassed s q.since (stepBound s q) = true →
    ∃ t, exec .sequenceStuck s = .next t ∧ ctxState t q.ctx = cxSTUCK ∧ t.recov.cur = none ∧ bit (get t R.SAF_FAULT) 8 = true ∧
      bit (get t R.HNG_EVENT) 3 = true ∧ get t R.CTX_CNT.RESETS = min 65535 (get s R.CTX_CNT.RESETS + 1) ∧ q.ctx ∈ t.recov.stuck ∧
      ∀ p tag fl, q.waiter = some (p, tag) → flightOf s p tag = some fl → Completed s t fl sTIMEOUT q.answered (q.slot + q.bytes * 2 ^ 8))

/-- The commands of the recovery unit (R484 to R488): CTX_RESET, CTX_DISMISS, RETURN_TO_SERVICE, CAPWIN_SET and CAPTURE_FREE complete. -/
def Obligations.RecoveryCommands : Prop :=
  (∀ s port tag fl c, Waiting s 0x0901 port tag fl → par fl 0 = c → c < 4096 → ctxState s c = cxNORMAL → s.recov.pend.length < 64 →
    ∃ t, exec (.ctxReset port tag) s = .next t ∧ ctxState t c = cxQUEUED ∧ VictimAt s t c 3 (port % 16) ∧
      t.recov.pend.map (fun x => (x.ctx, x.waiter)) = s.recov.pend.map (fun x => (x.ctx, x.waiter)) ++ [(c, some (port, tag))] ∧
      flightOf t port tag = some { fl with started := true }) ∧
  (∀ s port tag fl c, Waiting s 0x0901 port tag fl → par fl 0 = c → c < 4096 → 2 ≤ ctxState s c → ctxState s c ≤ 7 →
    ∃ t, exec (.ctxReset port tag) s = .next t ∧ Completed s t fl sWRONG_STATE 0 0 ∧ ctxState t c = ctxState s c) ∧
  (∀ s port tag fl c, Waiting s 0x0902 port tag fl → par fl 0 = c → c < 4096 → ctxState s c = cxNAMED →
    ∃ t, exec (.ctxDismiss port tag) s = .next t ∧ Completed s t fl sOK 0 0 ∧ ctxState t c = cxNORMAL ∧ ∀ q ∈ queuesOf s c, ageOf t q = 0) ∧
  (∀ s port tag fl, Waiting s 0x0903 port tag fl → get s R.CTX_OOS.OOS = 1 →
    ∃ t, exec (.returnToService port tag) s = .next t ∧ Completed s t fl sOK 0 0 ∧ get t R.CTX_OOS.OOS = 0 ∧ inWindow t = 0 ∧
      bit (get t R.SAF_FAULT) 9 = false ∧ Out.queueOrder 6 0 ∈ t.out) ∧
  (∀ s port tag fl m, Waiting s 0x0904 port tag fl → par fl 0 = m → m < 256 → (∀ i < 8, bit m i = false → par fl (i + 1) = 0) →
    (∀ i < 8, bit m i = true → ∃ d o n, par fl (i + 1) = d + o * 2 ^ 8 + n * 2 ^ 20 ∧ isPresent s d = true ∧ o < 2 ^ 12 ∧ 1 ≤ n ∧ n ≤ 256) →
    ((List.range 8).map fun i => bits (par fl (i + 1)) 20 9).foldl (· + ·) 0 ≤ 256 →
    ∃ t, exec (.capwinSet port tag) s = .next t ∧ Completed s t fl sOK 0 0 ∧ get t R.RNG_GEN.GEN = (get s R.RNG_GEN.GEN + 1) % 2 ^ 32 ∧
      ∀ i < 8, get t (R.CTX_CAPWIN.EN i) = b2n (bit m i) ∧ get t (R.CTX_CAPWIN.DIE i) = bits (par fl (i + 1)) 0 6 ∧
        get t (R.CTX_CAPWIN.OFS i) = bits (par fl (i + 1)) 8 12 ∧ get t (R.CTX_CAPWIN.LEN i) = bits (par fl (i + 1)) 20 9) ∧
  (∀ s port tag fl m, Waiting s 0x0905 port tag fl → par fl 0 = m → 0 < m → m < 2 ^ 16 →
    (∀ n < 16, bit m n = true → bit (get s R.CTX_CAP_SLOTS.HELD) n = true) →
    ∃ t, exec (.captureFree port tag) s = .next t ∧ Answered s t fl sOK 0 0 ∧
      ∀ n < 16, bit m n = true → bit (get t R.CTX_CAP_SLOTS.HELD) n = false ∧ get t (R.CTX_CAP_HDR.VALID n) = 0 ∧
        ∀ i < 0x10000, readByte t (sharedArea (0x200000 + 0x10000 * n) + i) = 0)

/-- Entropy and keys (R504, R506, R518, R519, R522, R523, R540, R541): ENTROPY_FAIL, ENTROPY_SOURCE_RESTART, DRBG_RESEED, KEY_ROTATE,
KEY_COMMIT, KEYBUS_TIMEOUT, PREV_EPOCH_COUNT, KEY_RELEASE and KEY_BUS_ACKNOWLEDGEMENT complete. -/
def Obligations.KeysAreMadeAndMoved : Prop :=
  (∀ s, ∃ t, exec .entropyFail s = .next t ∧ get t R.SEC_STAT.ENT_OK = 0 ∧ bit (get t R.SEC_EVENT) 0 = true ∧
    bit (get t R.SAF_FAULT) 10 = true ∧ (Room s 1 → pkgEvent s 0x0A01 0 ∈ t.log.queue)) ∧
  (∀ s, ∃ t, exec .entropySourceRestart s = .next t ∧ get t R.SEC_STAT.ENT_OK = 1) ∧
  (∀ s, 65536 ≤ s.sec.requests → ∃ t, exec .drbgReseed s = .next t ∧ t.sec.requests + 65536 = s.sec.requests) ∧
  (∀ s port tag fl p, Waiting s 0x0A06 port tag fl → fl.target = p → p < 16 → get s (R.SEC_PART_EPOCH.PREV_VALID p) = 0 →
    partState s p = ptACTIVE ∨ partState s p = ptATTESTED → (partOf s p).op = none → get s R.SEC_STAT.ENT_OK = 1 →
    ∃ t, exec (.keyRotate port tag) s = .next t ∧ (partOf t p).op.map (fun o => (o.kind, o.port, o.tag)) = some (1, port, tag) ∧
      (partOf t p).memCur = (partOf s p).memCur ∧ get t (R.SEC_PART_EPOCH.CUR p) = get s (R.SEC_PART_EPOCH.CUR p) ∧
      t.sec.requests = s.sec.requests + 2 ∧ flightOf t port tag = some { fl with started := true } ∧
      ∀ o, (partOf t p).op = some o → o.keyA < 2 ^ 512 ∧ o.keyB < 2 ^ 256 ∧
        Out.keyBus (allLinks s p % 2 ^ 32) p (.load ((get s (R.SEC_PART_EPOCH.CUR p) + 1) % 2 ^ 16) kkMEMORY o.keyA) ∈ t.out ∧
        Out.keyBus (bitsClear (allLinks s p) (2 ^ 32 - 1)) p (.load ((get s (R.SEC_PART_EPOCH.CUR p) + 1) % 2 ^ 16) kkLINK o.keyB) ∈ t.out) ∧
  (∀ s p o fl, KeyOpIs s p 1 o → flightOf s o.port o.tag = some fl → keyLate s o = false →
    ∃ t, exec (.keyCommit p) s = .next t ∧ get t (R.SEC_PART_EPOCH.CUR p) = (get s (R.SEC_PART_EPOCH.CUR p) + 1) % 2 ^ 16 ∧
      get t (R.SEC_PART_EPOCH.PREV_VALID p) = 1 ∧ (partOf t p).memCur = o.keyA + 1 ∧ (partOf t p).linkCur = o.keyB + 1 ∧
      (partOf t p).memPrev = (partOf s p).memCur ∧ (partOf t p).linkPrev = (partOf s p).linkCur ∧ (partOf t p).op = none ∧
      Out.keyBus (allLinks s p) p .commit ∈ t.out ∧ bit (get t R.SEC_EVENT) 4 = true ∧
      Completed s t fl sOK ((get s (R.SEC_PART_EPOCH.CUR p) + 1) % 2 ^ 16) 0) ∧
  (∀ s p o fl, KeyOpIs s p 1 o → flightOf s o.port o.tag = some fl → keyLate s o = true →
    ∃ t, exec (.keybusTimeout p) s = .next t ∧ (partOf t p).op = none ∧ (partOf t p).memCur = (partOf s p).memCur ∧
      Out.keyBus (allLinks s p) p (.erase slotSTANDBY) ∈ t.out ∧ bit (get t R.SEC_EVENT) 8 = true ∧ Completed s t fl sTIMEOUT 0 0) ∧
  (∀ s p o fl, KeyOpIs s p 2 o → flightOf s o.port o.tag = some fl → keyLate s o = true →
    ∃ t, exec (.keybusTimeout p) s = .next t ∧ (partOf t p).op = none ∧ sget 0 o.slot (partOf t p).models = 0 ∧
      bit (get t (R.SEC_PART_MKEY.LOADED p)) o.slot = false ∧ Completed s t fl sTIMEOUT 0 0) ∧
  (∀ s p pages inflight, p < 16 → get s (R.SEC_PART_EPOCH.PREV_VALID p) = 1 → (partOf s p).scrub = none →
    ∃ t, exec (.prevEpochCount p pages inflight) s = .next t ∧ get t (R.SEC_PART_PREV.PAGES p) = min 0xFFFFFFFF pages ∧
      get t (R.SEC_PART_PREV2.INFLIGHT p) = min 0xFFFFFFFF inflight ∧
      (pages = 0 → inflight = 0 → (partOf s p).op = none → (partOf t p).memPrev = 0 ∧ (partOf t p).linkPrev = 0 ∧ Out.keyBus (allLinks s p) p (.erase slotPREV) ∈ t.out)) ∧
  (∀ s port tag fl p k, Waiting s 0x0A05 port tag fl → fl.target = p → p < 16 → par fl 0 < 16 → blobValid s p (paramBytes fl 1 152) = true →
    par fl 0 < get s (R.SEC_PART_CFG.MODEL_KEYS p) → partState s p = ptATTESTED → unwrapBlob s p (paramBytes fl 1 152) = some k → (partOf s p).op = none →
    ∃ t, exec (.keyRelease port tag) s = .next t ∧ (partOf t p).op = some ⟨2, port, tag, par fl 0, beNat k, 0, now s⟩ ∧
      Out.keyBus (memLinks s p) p (.model (par fl 0) (beNat k)) ∈ t.out ∧ flightOf t port tag = some { fl with started := true }) ∧
  (∀ s p o fl, KeyOpIs s p 2 o → flightOf s o.port o.tag = some fl → keyLate s o = false →
    ∃ t, exec (.keyBusAcknowledgement p kbMODEL) s = .next t ∧ sget 0 o.slot (partOf t p).models = o.keyA + 1 ∧ (partOf t p).op = none ∧
      bit (get t (R.SEC_PART_MKEY.LOADED p)) o.slot = true ∧ bit (get t R.SEC_EVENT) 3 = true ∧ Completed s t fl sOK 0 0) ∧
  (∀ s p o, KeyOpIs s p 3 o → ∃ t, exec (.keyBusAcknowledgement p kbERASE) s = .next t ∧ get t (R.SEC_PART_EPOCH.PREV_VALID p) = 0 ∧
      (partOf t p).op = none ∧ bit (get t R.SEC_EVENT) 5 = true)

/-- Partitions made, changed and dissolved (R495, R499, R505, R515, R536): PART_SET completes. Ports bound, debug outputs and SPDM (R501,
R509, R511, R529, R538, R539, R542, R545): PORT_BIND, DEBUG_SET and SPDM_MSG complete. The layouts of SPDM messages are those of DSP0274
1.2 (log 16, taken from outside the spec). -/
def Obligations.PartitionsAndPorts : Prop :=
  (∀ s port tag fl p c lg mk, Waiting s 0x0A01 port tag fl → par fl 0 = p + 16 * c + 32 * lg + 64 * mk → p < 16 → c < 2 → lg < 2 → mk ≤ 16 →
    par fl 2 < 2 ^ 17 → (layoutOf fl).first + (layoutOf fl).count ≤ 256 → layoutValid s p (layoutOf fl) (c = 1) (lg = 1) = true →
    (((List.range 16).filter (· ≠ p)).map fun q => get s (R.SEC_PART_CFG.MODEL_KEYS q)).foldl (· + ·) mk ≤ 64 → partState s p = ptFREE →
    get s (R.SEC_PART_CFG.CONF p) = 0 → (c = 1 → get s R.SEC_STAT.DBG_LOCK = 1) → get s R.SEC_STAT.ENT_OK = 1 → (partOf s p).op = none →
    ∃ t, exec (.partSet port tag) s = .next t ∧ Completed s t fl sOK 0 0 ∧ partState t p = ptACTIVE ∧ get t (R.SEC_PART_CFG.CONF p) = c ∧
      get t (R.SEC_PART_CFG.LEGACY_OK p) = lg ∧ get t (R.SEC_PART_CFG.MODEL_KEYS p) = mk ∧ get t (R.SEC_PART_RES.DIES p) = (layoutOf fl).dies ∧
      get t (R.SEC_PART_RES.STACKS p) = (layoutOf fl).stackSet ∧ get t (R.SEC_PART_EPOCH.CUR p) = 0 ∧
      Out.keyBus (allLinks t p % 2 ^ 32) p (.load 0 kkMEMORY ((partOf t p).memCur - 1)) ∈ t.out ∧
      Out.keyBus (bitsClear (allLinks t p) (2 ^ 32 - 1)) p (.load 0 kkLINK ((partOf t p).linkCur - 1)) ∈ t.out ∧
      get t R.RNG_GEN.GEN ≠ get s R.RNG_GEN.GEN) ∧
  (∀ s port tag fl p lg mk, Waiting s 0x0A01 port tag fl → par fl 0 = p + 32 * lg + 64 * mk → p < 16 → lg < 2 → mk ≤ 16 → par fl 2 < 2 ^ 17 →
    (layoutOf fl).first + (layoutOf fl).count ≤ 256 → layoutValid s p (layoutOf fl) false (lg = 1) = true →
    (((List.range 16).filter (· ≠ p)).map fun q => get s (R.SEC_PART_CFG.MODEL_KEYS q)).foldl (· + ·) mk ≤ 64 →
    partState s p = ptACTIVE ∨ partState s p = ptATTESTED → get s (R.SEC_PART_CFG.CONF p) = 0 → removesBound s p (layoutOf fl) = false → (partOf s p).op = none →
    ∃ t, exec (.partSet port tag) s = .next t ∧ Completed s t fl sOK 0 0 ∧
      partState t p = (if newLayout p (layoutOf fl) (lg = 1) mk s then ptACTIVE else partState s p) ∧
      get t (R.SEC_PART_RES.DIES p) = (layoutOf fl).dies ∧ get t (R.SEC_PART_CFG.LEGACY_OK p) = lg ∧
      get t (R.SEC_PART_EPOCH.CUR p) = get s (R.SEC_PART_EPOCH.CUR p)) ∧
  (∀ s port tag fl p, Waiting s 0x0A01 port tag fl → par fl 0 = p → p < 16 → par fl 2 < 2 ^ 17 → (layoutOf fl).first + (layoutOf fl).count ≤ 256 →
    (layoutOf fl).dies = 0 → partState s p = ptACTIVE ∨ partState s p = ptATTESTED → get s (R.SEC_PART_CFG.CONF p) = 0 →
    removesBound s p ⟨0, 0, 0, 0, 0⟩ = false → (partOf s p).op = none →
    ∃ t, exec (.partSet port tag) s = .next t ∧ Completed s t fl sOK 0 0 ∧ partState t p = ptFREE ∧ get t (R.SEC_PART_RES.DIES p) = 0 ∧
      partOf t p = PartH.init ∧ Out.keyBus (allLinks s p) p (.erase slotCUR) ∈ t.out) ∧
  (∀ s port tag fl h lv q, Waiting s 0x0A03 port tag fl → par fl 0 = h + 16 * lv + 64 * q → h < 8 → lv < 3 → q < 16 → (lv ≠ 1 → q = 0) →
    (lv = 1 → partState s q ≠ ptFREE) → lv = 2 ∨ (∃ x, x < 8 ∧ x ≠ h ∧ authOf s x = 2) →
    ∃ t, exec (.portBind port tag) s = .next t ∧ Completed s t fl sOK 0 0 ∧ authOf t h = lv ∧ boundPart t h = q ∧
      sget Spdm.init h t.sec.spdm = Spdm.init) ∧
  (∀ s port tag fl m a b, Waiting s 0x0A07 port tag fl → par fl 0 = m + a * 2 ^ 16 + b * 2 ^ 17 → 0 < m → m < 2 ^ nDies s → a < 2 → b < 2 →
    (∀ d < 16, bit m d = true → confDie s d = false) →
    ∃ t, exec (.debugSet port tag) s = .next t ∧ Completed s t fl sOK 0 0 ∧
      ∀ d < 16, bit (get t R.SEC_DBG.DBG) d = (if bit m d then decide (a = 1) else bit (get s R.SEC_DBG.DBG) d) ∧
        bit (get t R.SEC_DBG.PROF) d = (if bit m d then decide (b = 1) else bit (get s R.SEC_DBG.PROF) d)) ∧
  (∀ s port tag fl d, Waiting s 0x0A07 port tag fl → d < 16 → bit (par fl 0) d = true → confDie s d = true →
    ∃ t, exec (.debugSet port tag) s = .next t ∧ Completed s t fl sNOT_PERMITTED 0 0 ∧ get t R.SEC_DBG.DBG = get s R.SEC_DBG.DBG) ∧
  (∀ s port tag fl n, Waiting s 0x0A04 port tag fl → par fl 0 = n → 0 < n → n ≤ 1000 → fl.params.length = 1 + (n + 3) / 4 →
    (∀ b ∈ ((fl.params.drop 1).flatMap (leBytes 4)).drop n, b = 0) → fl.target = 0x3F →
    (∀ f ∈ s.host.flights, f.port = port → f.opcode = 0x0A04 → fl.seq ≤ f.seq) → get s R.SEC_STAT.ENT_OK = 1 →
    ∃ t, exec (.spdmMsg port tag) s = .next t ∧
      Answered s t fl sOK (fitResponse (spdmConn s port 0x3F) (spdmAnswer s (spdmConn s port 0x3F) (paramBytes fl 1 n))).bytes.length 0 ∧
      sget Spdm.init port t.sec.spdm = (fitResponse (spdmConn s port 0x3F) (spdmAnswer s (spdmConn s port 0x3F) (paramBytes fl 1 n))).conn) ∧
  (∀ s port tag fl, Waiting s 0x0A04 port tag fl → port < 10 → fl.params = [4, 0x00008410] → fl.target = 0x3F → sget Spdm.init port s.sec.spdm = Spdm.init →
    (∀ f ∈ s.host.flights, f.port = port → f.opcode = 0x0A04 → fl.seq ≤ f.seq) →
    ∃ t, exec (.spdmMsg port tag) s = .next t ∧ Answered s t fl sOK 8 0 ∧ (sget Spdm.init port t.sec.spdm).stage = 1 ∧
      readBytes t (sharedArea (0x108000 + 0x1000 * port)) 8 = [0x10, 0x04, 0, 0, 0, 1, 0x00, 0x12])

/-- Scrubs (R531 to R537): PART_SCRUB begins, KEY_BUS_ACKNOWLEDGEMENT and SCRUB_OVERWRITE_DONE advance, the last acknowledgement frees and
answers, SCRUB_FAIL holds the resources. How many pages a scrub that fails in step 4 has overwritten is a free value (log 14). -/
def Obligations.PartitionsScrubbed : Prop :=
  (∀ s port tag fl p, Waiting s 0x0A02 port tag fl → fl.target = p → p < 16 → partState s p = ptACTIVE ∨ partState s p = ptATTESTED →
    get s R.SEC_STAT.ENT_OK = 1 → (partOf s p).op = none → (∀ x ∈ s.recov.pend, ownerCtx s x.ctx ≠ p) →
    ∃ t, exec (.partScrub port tag) s = .next t ∧ partState t p = ptSCRUBBING ∧ flightOf t port tag = some { fl with started := true } ∧
      (s.recov.cur = none → (partOf t p).scrub = some ⟨1, 0, port, tag, s.us, 0, 0⟩)) ∧
  (∀ s p c, p < 16 → (partOf s p).scrub = some c → c.step = 3 →
    ∃ t, exec (.keyBusAcknowledgement p kbERASE) s = .next t ∧ (partOf t p).scrub.map (·.step) = some 4 ∧ Out.keyBus (memLinks s p) p .scrub ∈ t.out) ∧
  (∀ s p c pages fl, p < 16 → (partOf s p).scrub = some c → c.step = 4 → flightOf s c.port c.tag = some fl →
    ∃ t, exec (.scrubOverwriteDone p pages) s = .next t ∧ (partOf t p).scrub = some { c with step := 5, acked := 0, key := 0 } ∧
      get t (R.SEC_PART_SCRUB.REMAIN p) = 0 ∧ Out.keyBus (memLinks s p) p (.erase slotSCRUB) ∈ t.out ∧
      flightOf t c.port c.tag = some { fl with r0 := pages % 2 ^ 32, r1 := 0 }) ∧
  (∀ s p c fl, p < 16 → (partOf s p).scrub = some c → c.step = 5 → flightOf s c.port c.tag = some fl →
    ∃ t, exec (.keyBusAcknowledgement p kbERASE) s = .next t ∧ partState t p = ptFREE ∧ partOf t p = PartH.init ∧ get t (R.SEC_PART_RES.DIES p) = 0 ∧
      bit (get t R.SEC_EVENT) 6 = true ∧ Completed s t fl sOK fl.r0 (scrubMs c s)) ∧
  (∀ s p c fl, p < 16 → (partOf s p).scrub = some c → c.step = 4 → flightOf s c.port c.tag = some fl →
    get s R.SEC_SCRUB_CFG.TIMEOUT_S * 100000000 ≤ now s - c.since → ∃ t, exec (.scrubFail p) s = .next t ∧ partState t p = ptFAIL ∧ (partOf t p).scrub = none ∧ bit (get t R.SAF_FAULT) 11 = true ∧
      bit (get t R.SEC_EVENT) 7 = true ∧ get t (R.SEC_PART_RES.DIES p) = get s (R.SEC_PART_RES.DIES p) ∧
      Completed s t fl sTIMEOUT (scrubPages c s) (scrubMs c s))

/-- Queues (R555 to R561): COMMAND_FETCH takes the next packet in rotation and puts it in flight, or answers what is against it;
CMD_SQ_TAIL_WRITE and CMD_CQ_HEAD_WRITE move a pointer where R555 and R556 allow it. -/
def Obligations.QueuesMove : Prop :=
  (∀ s p pk, p < 9 → nextPort s = some p → hifReady s = true → judgePacket s (headWords s p) (headFlight s p) = none →
    ∃ t, exec (.commandFetch p pk) s = .next t ∧ t.host.flights = s.host.flights ++ [headFlight s p] ∧
      get t (R.CMD_SQ_HEAD.HEAD p) = (get s (R.CMD_SQ_HEAD.HEAD p) + 1) % 2 ^ 9 ∧ t.host.lastPort = p ∧ t.host.nextSeq = s.host.nextSeq + 1) ∧
  (∀ s p pk o st, p < 9 → nextPort s = some p → hifReady s = true → judgePacket s (headWords s p) (headFlight s p) = some (o, st) → o ≠ 1 →
    ∃ t, exec (.commandFetch p pk) s = .next t ∧ t.host.flights = s.host.flights ∧ get t (R.CMD_CNT.REJ p) = min 65535 (get s (R.CMD_CNT.REJ p) + 1) ∧
      readWord32 t (cqSlot s p) = (headFlight s p).tag % 2 ^ 16 + st % 2 ^ 8 * 2 ^ 16 ∧
      get t (R.CMD_CQ_TAIL.TAIL p) = (get s (R.CMD_CQ_TAIL.TAIL p) + 1) % 2 ^ 9) ∧
  (∀ s w, answers s 9 0 = true → (∀ x ∈ w, x < 2 ^ 32) → judgePacket s w (flightIn s 9 0 w) = none →
    ∃ t, exec (.commandFetch 9 w) s = .next t ∧ t.host.flights = s.host.flights ++ [flightIn s 9 0 w]) ∧
  (∀ s p v, p < 9 → answers s p 0x120000 = true → v < 512 → (v + 512 - get s (R.CMD_SQ_HEAD.HEAD p)) % 512 ≤ 256 →
    (v + 512 - get s (R.CMD_SQ_TAIL.TAIL p)) % 512 ≤ (v + 512 - get s (R.CMD_SQ_HEAD.HEAD p)) % 512 →
    ∃ t, exec (.cmdSqTailWrite p v) s = .next t ∧ get t (R.CMD_SQ_TAIL.TAIL p) = v ∧ t.resp = [⟨p, 0, false⟩]) ∧
  (∀ s p v, p < 9 → answers s p 0x120000 = true → v < 512 → 256 < (v + 512 - get s (R.CMD_SQ_HEAD.HEAD p)) % 512 → get s R.CMD_VIOL_STAT.COUNT = 0 →
    ∃ t, exec (.cmdSqTailWrite p v) s = .next t ∧ get t (R.CMD_SQ_TAIL.TAIL p) = get s (R.CMD_SQ_TAIL.TAIL p) ∧ get t (R.CMD_VIOL.KIND 0) = 2) ∧
  (∀ s p v, p < 9 → answers s p 0x12000C = true → v < 512 →
    (get s (R.CMD_CQ_TAIL.TAIL p) + 512 - v) % 512 ≤ (get s (R.CMD_CQ_TAIL.TAIL p) + 512 - get s (R.CMD_CQ_HEAD.HEAD p)) % 512 →
    ∃ t, exec (.cmdCqHeadWrite p v) s = .next t ∧ get t (R.CMD_CQ_HEAD.HEAD p) = v ∧ t.resp = [⟨p, 0, false⟩])

/-- The commands of the host interface and its notifications (R569, R576, R583, R588): NEGOTIATE, VIOL_CLEAR, LOCK_FORCE and
NOTIFY_ENABLE_WRITE complete. -/
def Obligations.HostCommands : Prop :=
  (∀ s port tag fl, Waiting s 0x0101 port tag fl → par fl 0 < 2 ^ 16 → bit (par fl 0) 0 = false → bit (par fl 0) 2 = true →
    ∃ t, exec (.negotiate port tag) s = .next t ∧ Completed s t fl sOK 2 6 ∧ get t (R.CMD_VER.CUR port) = 2) ∧
  (∀ s port tag fl, Waiting s 0x0101 port tag fl → par fl 0 < 2 ^ 16 → bits (par fl 0) 0 3 = 2 →
    ∃ t, exec (.negotiate port tag) s = .next t ∧ Completed s t fl sOK 1 6 ∧ get t (R.CMD_VER.CUR port) = 1) ∧
  (∀ s port tag fl, Waiting s 0x0102 port tag fl → ∃ t, exec (.violClear port tag) s = .next t ∧ Completed s t fl sOK 0 0 ∧
      get t R.CMD_VIOL_STAT.COUNT = 0 ∧ get t R.CMD_VIOL_STAT.LOST = 0 ∧ ∀ i < 32, get t (R.CMD_VIOL.OFS i) = 0 ∧ get t (R.CMD_VIOL.KIND i) = 0 ∧
        get t (R.CMD_VIOL.REPEAT i) = 0) ∧
  (∀ s port tag fl n, Waiting s 0x0103 port tag fl → par fl 0 = n → n < 64 → get s (R.LCK.OWNER n) ≠ 15 →
    ∃ t, exec (.lockForce port tag) s = .next t ∧ Completed s t fl sOK 0 0 ∧ get t (R.LCK.OWNER n) = 15 ∧
      (Room s 1 → pkgEvent s 0x0106 (n + get s (R.LCK.OWNER n) * 2 ^ 8) ∈ t.log.queue)) ∧
  (∀ s port tag fl n, Waiting s 0x0103 port tag fl → par fl 0 = n → n < 64 → get s (R.LCK.OWNER n) = 15 →
    ∃ t, exec (.lockForce port tag) s = .next t ∧ Completed s t fl sWRONG_STATE 0 0) ∧
  (∀ s p v, p < 10 → answers s p 0x120018 = true → ∃ t, exec (.notifyEnableWrite p v) s = .next t ∧ get t (R.CMD_NOTIFY_EN.EN p) = v % 512 ∧
      t.resp = [⟨p, 0, false⟩] ∧ (p < 8 → get s (R.CMD_NOTIFY p) &&& get s (R.CMD_NOTIFY_EN.EN p) = 0 → get s (R.CMD_NOTIFY p) &&& v % 512 ≠ 0 →
        Out.notify p ∈ t.out))

/-- Accesses (R16, R19, R20, R548, R549, R572, R573, R602): ACCESS_VIOLATION, REGISTER_WRITE, AUTO_RELOCK_WRITE, HIGH_WORD_LATCH and
RECORD_READ_LATCH complete. -/
def Obligations.AccessesJudged : Prop :=
  (∀ s p off w n v, p < 10 → answers s p off = true → violates s p off w n = true → get s R.CMD_VIOL_STAT.COUNT = 0 →
    ∃ t, exec (.accessViolation p off w n v) s = .next t ∧ t.resp = [⟨p, 0, true⟩] ∧ get t R.CMD_VIOL_STAT.COUNT = 1 ∧
      get t (R.CMD_VIOL.PORT 0) = p ∧ get t (R.CMD_VIOL.KIND 0) = b2n w ∧ get t (R.CMD_VIOL.OFS 0) = off % 2 ^ 22 ∧ get t (R.CMD_VIOL.STATUS 0) = 6) ∧
  (∀ s p off w n v, p < 10 → answers s p off = false → ∃ t, exec (.accessViolation p off w n v) s = .next t ∧ t.resp = [⟨p, 0xFFFFFFFF, true⟩] ∧
      get t R.CMD_VIOL_STAT.COUNT = get s R.CMD_VIOL_STAT.COUNT) ∧
  (∀ s p off v, p < 10 → off < 2 ^ 22 → answers s p off = true → violates s p off true 4 = true → get s R.CMD_VIOL_STAT.COUNT = 0 →
    ∃ t, exec (.registerWrite p off v) s = .next t ∧ t.resp = [⟨p, 0, true⟩] ∧ get t (R.CMD_VIOL.KIND 0) = 1 ∧ get t (R.CMD_VIOL.OFS 0) = off) ∧
  (∀ s p v, Writes s p 0x160108 → 1 ≤ v % 1024 → v % 1024 ≤ 1000 → ∃ t, exec (.registerWrite p 0x160108 v) s = .next t ∧
      get t R.SAF_WDT.TIMEOUT_MS = v % 1024 ∧ t.resp = [⟨p, 0, false⟩] ∧ get t R.CMD_VIOL_STAT.COUNT = get s R.CMD_VIOL_STAT.COUNT) ∧
  (∀ s p v, Writes s p 0x160108 → v % 1024 = 0 ∨ 1000 < v % 1024 → get s R.CMD_VIOL_STAT.COUNT = 0 → ∃ t, exec (.registerWrite p 0x160108 v) s = .next t ∧
      get t R.SAF_WDT.TIMEOUT_MS = get s R.SAF_WDT.TIMEOUT_MS ∧ t.resp = [⟨p, 0, false⟩] ∧ get t R.CMD_VIOL_STAT.COUNT = 1 ∧ get t (R.CMD_VIOL.KIND 0) = 2) ∧
  (∀ s p v, Writes s p 0x0E000C → ∃ t, exec (.registerWrite p 0x0E000C v) s = .next t ∧ t.resp = [⟨p, 0, false⟩] ∧
      ∀ b < 9, bit (get t R.HNG_EVENT) b = (bit (get s R.HNG_EVENT) b && !bit v b)) ∧
  (∀ s p v, Writes s p 0x010008 → ∃ t, exec (.autoRelockWrite p v) s = .next t ∧ get t R.CLK_CFG.COAST_BOOT = bits v 0 1 ∧
      get t R.CLK_CFG.AUTO_RELOCK = bits v 1 1 ∧ get t R.CLK_CFG.GATE_DIS = bits v 2 1 ∧ t.resp = [⟨p, 0, false⟩]) ∧
  (∀ s p, p < 10 → answers s p 0x010010 = true → sget 0 (p * 2 ^ 22 + 0x010010) s.host.latches = 0 →
    ∃ t, exec (.highWordLatch p 0x010010) s = .next t ∧ t.resp = [⟨p, now s % 2 ^ 32, false⟩] ∧
      sget 0 (p * 2 ^ 22 + 0x010014) t.host.latches = now s % 2 ^ 64 / 2 ^ 32 + 1) ∧
  (∀ s p x, p < 10 → answers s p 0x010014 = true → sget 0 (p * 2 ^ 22 + 0x010014) s.host.latches = x + 1 →
    ∃ t, exec (.highWordLatch p 0x010014) s = .next t ∧ t.resp = [⟨p, x, false⟩] ∧ sget 0 (p * 2 ^ 22 + 0x010014) t.host.latches = 0) ∧
  (∀ s p k r, p < 10 → k < 64 → answers s p (0x380000 + 0x40 * k) = true → get s R.REC_STAT.CLEARING = 0 →
    get s (R.REC_CURSOR.INDEX p) + k < 16384 → s.log.recs[get s (R.REC_CURSOR.INDEX p) + k]? = some r → mayReadRecord s p r = true →
    ∃ t, exec (.recordReadLatch p (0x380000 + 0x40 * k)) s = .next t ∧ t.resp = [⟨p, r.time % 2 ^ 32, false⟩] ∧
      sget 0 (p * 2 ^ 22 + (0x380000 + 0x40 * k + 4)) t.host.latches = r.time / 2 ^ 32 % 2 ^ 32 + 1)

/-- Mailboxes (R577 to R581): MBX_SEND delivers, or queues outbound where the destination is full; MBX_FORWARD moves what waits; MBX_RECV
takes the oldest. Locks (R584 to R586): LOCK_READ takes a free lock for the lowest port that may take it and tells each reader its owner;
LOCK_RELEASE frees the owner's lock, and is a violation for another port. -/
def Obligations.MailboxesAndLocks : Prop :=
  (∀ s p v, p < 9 → answers s p 0x120104 = true → mbxBars s p (v % 16) = false → (mbxInOf s (v % 16)).length < 16 → mbxSource s (v % 16) = none →
    ∃ t, exec (.mbxSend p v) s = .next t ∧ t.resp = [⟨p, 0, false⟩] ∧
      mbxInOf t (v % 16) = mbxInOf s (v % 16) ++ [get s (R.MBX_SEND.PAYLOAD p) + p * 2 ^ 32 + authOf s p * 2 ^ 36] ∧
      bit (get t (R.MBX_EVENT (v % 16))) 1 = true ∧ bit (get t (R.CMD_NOTIFY (v % 16))) 1 = true) ∧
  (∀ s p v, p < 9 → answers s p 0x120104 = true → mbxBars s p (v % 16) = false → 16 ≤ (mbxInOf s (v % 16)).length → (mbxOutOf s p).length < 16 →
    ∃ t, exec (.mbxSend p v) s = .next t ∧ t.resp = [⟨p, 0, false⟩] ∧ mbxInOf t (v % 16) = mbxInOf s (v % 16) ∧
      mbxOutOf t p = mbxOutOf s p ++ [(v % 16, get s (R.MBX_SEND.PAYLOAD p) + p * 2 ^ 32 + authOf s p * 2 ^ 36)]) ∧
  (∀ s p v, p < 10 → answers s p 0x120104 = true → mbxBars s p (v % 16) = true → ∃ t, exec (.mbxSend p v) s = .next t ∧ t.resp = [⟨p, 0, true⟩] ∧
      t.host.mbxIn = s.host.mbxIn ∧ t.host.mbxOut = s.host.mbxOut) ∧
  (∀ s d p x, d < 9 → p < 9 → mbxInOf s d = [] → mbxOutOf s p = [(d, x)] → (∀ q < 9, q ≠ p → ∀ m ∈ mbxOutOf s q, m.1 ≠ d) →
    ∃ t, exec (.mbxForward d) s = .next t ∧ mbxInOf t d = [x] ∧ mbxOutOf t p = [] ∧ bit (get t (R.MBX_EVENT d)) 1 = true) ∧
  (∀ s p m l, p < 9 → answers s p 0x120108 = true → mbxInOf s p = m :: l →
    ∃ t, exec (.mbxRecv p) s = .next t ∧ t.resp = [⟨p, m % 2 ^ 32, false⟩] ∧ mbxInOf t p = l ∧
      sget 0 (p * 2 ^ 22 + 0x12010C) t.host.latches = m / 2 ^ 32 + 2 ^ 31 + 1) ∧
  (∀ s p, p < 9 → answers s p 0x120108 = true → mbxInOf s p = [] → ∃ t, exec (.mbxRecv p) s = .next t ∧ t.resp = [⟨p, 0, false⟩]) ∧
  (∀ s n p, n < 64 → p < 10 → answers s p (0x120200 + 4 * n) = true → authOf s p ≠ 0 → get s (R.LCK.OWNER n) = 15 →
    ∃ t, exec (.lockRead n [p]) s = .next t ∧ get t (R.LCK.OWNER n) = p ∧ t.resp = [⟨p, p + 16, false⟩]) ∧
  (∀ s n p q, n < 64 → p < q → q < 10 → answers s p (0x120200 + 4 * n) = true → answers s q (0x120200 + 4 * n) = true → authOf s p ≠ 0 →
    get s (R.LCK.OWNER n) = 15 → ∃ t, exec (.lockRead n [q, p]) s = .next t ∧ get t (R.LCK.OWNER n) = p ∧
      t.resp = [⟨q, p + 32, false⟩, ⟨p, p + 16, false⟩]) ∧
  (∀ s n p o, n < 64 → p < 10 → answers s p (0x120200 + 4 * n) = true → get s (R.LCK.OWNER n) = o → o < 10 →
    ∃ t, exec (.lockRead n [p]) s = .next t ∧ get t (R.LCK.OWNER n) = o ∧ t.resp = [⟨p, if o = p ∧ authOf s p ≠ 0 then p + 48 else o + 32, false⟩]) ∧
  (∀ s n p v, n < 64 → p < 10 → answers s p (0x120200 + 4 * n) = true → bit v 31 = true → get s (R.LCK.OWNER n) = p →
    ∃ t, exec (.lockRelease p n v) s = .next t ∧ get t (R.LCK.OWNER n) = 15 ∧ t.resp = [⟨p, 0, false⟩]) ∧
  (∀ s n p v, n < 64 → p < 10 → answers s p (0x120200 + 4 * n) = true → bit v 31 = true → get s (R.LCK.OWNER n) ≠ p → get s R.CMD_VIOL_STAT.COUNT = 0 →
    ∃ t, exec (.lockRelease p n v) s = .next t ∧ get t (R.LCK.OWNER n) = get s (R.LCK.OWNER n) ∧ t.resp = [⟨p, 0, true⟩] ∧
      get t (R.CMD_VIOL.KIND 0) = 1)

/-- The BMC port (R550 to R553): ENTDAA, RSTDAA, ENEC, DISEC, SETMWL, SETMRL, the read codes, and private writes and reads, which are
accesses of port 8, complete. What a code answers beside what R550 to R553 say, and its byte order, are taken from the I3C basic profile
(log 17). -/
def Obligations.BmcPortServes : Prop :=
  (∀ s a, i3cUp s = true → s.i3c.addr = none → ∃ t, exec (.entdaa a) s = .next t ∧ t.i3c = { s.i3c with addr := some (a % 128) } ∧
      Out.i3c (provisionalId ++ [0x06, 0x00]) ∈ t.out) ∧
  (∀ s, i3cUp s = true → ∃ t, exec .rstdaa s = .next t ∧ t.i3c = { s.i3c with addr := none }) ∧
  (∀ s e, i3cUp s = true → bit e 0 = true → s.i3c.ibiEn = false → ∃ t, exec (.enec e) s = .next t ∧ t.i3c.ibiEn = true ∧
      (∀ b, ibiWaits s = some b → Out.ibi b ∈ t.out)) ∧
  (∀ s e, i3cUp s = true → bit e 0 = true → ∃ t, exec (.disec e) s = .next t ∧ t.i3c = { s.i3c with ibiEn := false }) ∧
  (∀ s n, i3cUp s = true → ∃ t, exec (.setmwl n) s = .next t ∧ t.i3c = { s.i3c with mwl := min 260 n }) ∧
  (∀ s n, i3cUp s = true → ∃ t, exec (.setmrl n) s = .next t ∧ t.i3c = { s.i3c with mrl := min 256 n }) ∧
  (∀ s, i3cUp s = true → s.i3c.addr ≠ none →
    (∃ t, exec .getpid s = .next t ∧ t.out = s.out ++ [.i3c provisionalId]) ∧ (∃ t, exec .getbcr s = .next t ∧ t.out = s.out ++ [.i3c [0x06]]) ∧
    (∃ t, exec .getdcr s = .next t ∧ t.out = s.out ++ [.i3c [0x00]]) ∧
    (∃ t, exec .getstatus s = .next t ∧ t.out = s.out ++ [.i3c [0, b2n (ibiWaits s).isSome]]) ∧
    (∃ t, exec .getmwl s = .next t ∧ t.out = s.out ++ [.i3c (beBytes 2 s.i3c.mwl)]) ∧
    (∃ t, exec .getmrl s = .next t ∧ t.out = s.out ++ [.i3c (beBytes 2 s.i3c.mrl ++ [1])])) ∧
  (∀ s o v, i3cUp s = true → s.i3c.addr ≠ none → 8 ≤ s.i3c.mwl → o % 4 = 0 → o < 2 ^ 22 → v < 2 ^ 32 →
    ∃ t, exec (.i3cPrivateWrite (leBytes 4 o ++ leBytes 4 v)) s = .next t ∧
      exec (.registerWrite 8 o v) { s with i3c := { s.i3c with ofs := o } } = .next t) ∧
  (∀ s, i3cUp s = true → s.i3c.addr ≠ none → 4 ≤ s.i3c.mrl →
    ∃ t, exec (.i3cPrivateRead 1) s = .next t ∧ t.i3c.ofs = (s.i3c.ofs + 4) % 2 ^ 22 ∧ t.resp = (effRead 8 s.i3c.ofs s).resp ∧
      Out.i3c ((effRead 8 s.i3c.ofs s).resp.flatMap fun r => leBytes 4 r.data) ∈ t.out)

/-- The recorder (R593 to R602, R612): RECORD_WRITE writes the oldest event, or counts a repeat; WATCH_TRIGGER compares; REC_CLEAR empties
and REC_CLEAR_DONE answers, with REC_CLEARED as record 0. The first comparison after a trigger is set counts as false (log 96, the model's
reading). -/
def Obligations.EventsRecorded : Prop :=
  (∀ s e l, s.log.fresh = [] → get s R.REC_STAT.CLEARING = 0 → s.log.queue = e :: l → s.log.recs.length < 16384 → (∀ r, s.log.recs.getLast? = some r → repeats e r = false) →
    ∃ t r, exec .recordWrite s = .next t ∧ t.log.queue = l ∧ t.log.recs = s.log.recs ++ [r] ∧ r.code = e.code ∧ r.subj = e.subj ∧ r.part = e.part ∧
      r.arg = e.arg % 2 ^ 32 ∧ r.time = stampOf e ∧ r.last = r.time ∧ r.seq = get s R.REC_SEQ.NEXT ∧ r.rep = 0 ∧
      get t R.REC_SEQ.NEXT = (get s R.REC_SEQ.NEXT + 1) % 2 ^ 32 ∧ get t R.REC_STAT.COUNT = s.log.recs.length + 1) ∧
  (∀ s e l h r, s.log.fresh = [] → get s R.REC_STAT.CLEARING = 0 → s.log.queue = e :: l → s.log.recs = h ++ [r] → repeats e r = true →
    ∃ t, exec .recordWrite s = .next t ∧ t.log.queue = l ∧ t.log.recs = h ++ [{ r with last := stampOf e, rep := min 65535 (r.rep + 1) }] ∧
      get t R.REC_SEQ.NEXT = get s R.REC_SEQ.NEXT) ∧
  (∀ s e l r, s.log.fresh = [] → get s R.REC_STAT.CLEARING = 0 → s.log.queue = e :: l → 16384 ≤ s.log.recs.length → s.log.recs.getLast? = some r → repeats e r = false →
    ∃ t, exec .recordWrite s = .next t ∧ t.log.queue = l ∧ t.log.recs = s.log.recs ∧ get t R.REC_LOST.COUNT = min 0xFFFFFFFF (get s R.REC_LOST.COUNT + 1)) ∧
  (∀ s w, w < 8 → get s (R.REC_TRIG.EN w) = 1 → get s (R.REC_TRIG.OP w) = 0 → bit s.log.trigOn w = false → sget 0 w s.log.trigPrev ≠ 0 →
    readWordAt s 9 (get s (R.REC_TRIG.OFS w)) &&& get s (R.REC_TRIG.MASK w) = get s (R.REC_TRIG.VALUE w) →
    ∃ t, exec (.watchTrigger w) s = .next t ∧ get t (R.REC_TRIG.TRUE w) = 1 ∧
      (Room s 1 → pkgEvent s (0x0B10 + w) (get s (R.REC_TRIG.VALUE w)) ∈ t.log.queue)) ∧
  (∀ s w x, w < 8 → get s (R.REC_TRIG.EN w) = 1 → s.log.fresh = [] → sget 0 w s.log.trigPrev = x + 1 →
    ∃ t, exec (.watchTrigger w) s = .next t ∧
      get t (R.REC_TRIG.TRUE w) = b2n (trigTrue (get s (R.REC_TRIG.OP w)) (readWordAt s 9 (get s (R.REC_TRIG.OFS w)) &&& get s (R.REC_TRIG.MASK w))
        (get s (R.REC_TRIG.VALUE w)) (some x)) ∧
      (get s (R.REC_TRIG.OP w) < 4 → bit s.log.trigOn w = true → t.log.queue = s.log.queue)) ∧
  (∀ s w, w < 8 → get s (R.REC_TRIG.EN w) = 1 → s.log.fresh = [] → sget 0 w s.log.trigPrev = 0 →
    ∃ t, exec (.watchTrigger w) s = .next t ∧ get t (R.REC_TRIG.TRUE w) = 0 ∧ t.log.queue = s.log.queue ∧
      sget 0 w t.log.trigPrev = (readWordAt s 9 (get s (R.REC_TRIG.OFS w)) &&& get s (R.REC_TRIG.MASK w)) + 1) ∧
  (∀ s port tag fl, Waiting s 0x0B03 port tag fl → s.log.fresh = [] → get s R.REC_STAT.CLEARING = 0 →
    ∃ t, exec (.recClear port tag) s = .next t ∧ t.log.recs = [] ∧ get t R.REC_STAT.COUNT = 0 ∧ get t R.REC_STAT.FULL = 0 ∧ get t R.REC_LOST.COUNT = 0 ∧
      get t R.REC_STAT.CLEARING = 1 ∧ t.log.lostBefore = get s R.REC_LOST.COUNT ∧ flightOf t port tag = some { fl with started := true }) ∧
  (∀ s port tag fl, Waiting s 0x0B03 port tag fl → get s R.REC_STAT.CLEARING = 1 →
    ∃ t, exec (.recClear port tag) s = .next t ∧ Completed s t fl sBUSY 0 0) ∧
  (∀ s port tag fl, get s R.REC_STAT.CLEARING = 1 → s.log.clear = some (port, tag) → flightOf s port tag = some fl → s.log.recs = [] →
    ∃ t, exec .recClearDone s = .next t ∧ get t R.REC_STAT.CLEARING = 0 ∧ t.log.clear = none ∧ get t R.REC_STAT.COUNT = 1 ∧
      t.log.recs.map (fun r => (r.code, r.arg)) = [(0x0B02, s.log.lostBefore % 2 ^ 32)] ∧ Completed s t fl sOK 0 0)

/-- The settings of the recorder and the checkpoint-risk score (R604 to R613): REC_TRIG_SET, REC_SNAP_SET, HEALTH_SET, HEALTH_COMPUTE and
CORRECTABLE_ERROR_REPORT complete. -/
def Obligations.HealthScored : Prop :=
  (∀ s port tag fl w op, Waiting s 0x0B01 port tag fl → par fl 0 = w + 8 + 16 * op → w < 8 → op ≤ 4 → par fl 1 < 0x180000 → par fl 1 % 4 = 0 →
    excludedOffset (par fl 1) = false →
    ∃ t, exec (.recTrigSet port tag) s = .next t ∧ Completed s t fl sOK 0 0 ∧ get t (R.REC_TRIG.EN w) = 1 ∧ get t (R.REC_TRIG.OP w) = op ∧
      get t (R.REC_TRIG.OFS w) = par fl 1 ∧ get t (R.REC_TRIG.MASK w) = par fl 2 % 2 ^ 32 ∧ get t (R.REC_TRIG.VALUE w) = par fl 3 % 2 ^ 32 ∧
      get t (R.REC_TRIG.TRUE w) = 0 ∧ sget 0 w t.log.trigPrev = 0) ∧
  (∀ s port tag fl n e g, Waiting s 0x0B02 port tag fl → par fl 0 = n + 8 * e → n < 8 → e < 2 → par fl 1 < 0x180000 → par fl 1 % 4 = 0 →
    excludedOffset (par fl 1) = false → par fl 2 = 2 * g → g < 2 ^ 12 →
    ∃ t, exec (.recSnapSet port tag) s = .next t ∧ Completed s t fl sOK 0 0 ∧ get t (R.REC_SNAP.EN n) = e ∧ get t (R.REC_SNAP.OFS n) = par fl 1 ∧
      get t (R.REC_SNAP.GROUPS n) = g) ∧
  (∀ s port tag fl g, Waiting s 0x0B02 port tag fl → par fl 0 < 16 → par fl 1 < 2 ^ 22 → excludedOffset (par fl 1) = true → par fl 2 = 2 * g → g < 2 ^ 12 →
    ∃ t, exec (.recSnapSet port tag) s = .next t ∧ Completed s t fl sBAD_PARAM 0 0) ∧
  (∀ s port tag fl th hy, Waiting s 0x0B04 port tag fl → par fl 0 = th + 256 * hy → th < 256 → 0 < hy → hy ≤ th → 16 ≤ par fl 1 → par fl 1 ≤ 800 →
    (∀ c < 6, par fl (2 + c) < 2 ^ 25 ∧ bits (par fl (2 + c)) 16 9 ≤ 256) → (∀ c ∈ [0, 2, 3, 4, 5], bits (par fl (2 + c)) 12 4 ≠ 0) →
    ∃ t, exec (.healthSet port tag) s = .next t ∧ Completed s t fl sOK 0 0 ∧ get t R.HLT_CFG.TH = th ∧ get t R.HLT_CFG.HYST = hy ∧
      get t R.HLT_THERM.M0 = par fl 1 ∧ ∀ c < 6, get t (R.HLT_CONTRIB.GAIN c) = bits (par fl (2 + c)) 0 12 ∧
        get t (R.HLT_CONTRIB.DECAY c) = bits (par fl (2 + c)) 12 4 ∧ get t (R.HLT_CONTRIB.WEIGHT c) = bits (par fl (2 + c)) 16 9) ∧
  (∀ s, fwRuns s = true → ∃ t, exec .healthCompute s = .next t ∧
      get t R.HLT_SCORE.SCORE = min 255 (((List.range 6).map fun c => get t (R.HLT_TERM.T c)).foldl (· + ·) 0) ∧
      get t R.HLT_SCORE.SEQ = (get s R.HLT_SCORE.SEQ + 1) % 2 ^ 16 ∧ get t R.HLT_TS.TIME = now s % 2 ^ 64 ∧
      (∀ c ∈ [0, 2, 3, 5], get t (R.HLT_D.D c) = decayed (get s (R.HLT_D.D c)) (get s (R.HLT_CONTRIB.DECAY c))
          (min 65535 ((get s (R.HLT_EVT.COUNT c) + 2 ^ 32 - nth s.log.hltPrev c % 2 ^ 32) % 2 ^ 32)) ∧
        get t (R.HLT_TERM.S c) = min 255 (get t (R.HLT_D.D c) * get s (R.HLT_CONTRIB.GAIN c) / 2 ^ 12)) ∧
      (get s R.HLT_CFG.ARMED = 1 → get s R.HLT_CFG.TH ≤ get t R.HLT_SCORE.SCORE → get t R.HLT_CFG.ARMED = 0 ∧
        get t R.HLT_ADVICE.SCORE = get t R.HLT_SCORE.SCORE ∧ ∀ p < 10, bit (get t (R.CMD_NOTIFY p)) 5 = true)) ∧
  (∀ s d fr n, Accepts s true tyBULK d fr → ∃ t, exec (.correctableErrorReport ⟨d, fr⟩ n) s = .next t ∧
      get t (R.HLT_EVT.COUNT 5) = (get s (R.HLT_EVT.COUNT 5) + n) % 2 ^ 32)

/-- Boot (R617 to R619, R626, R635): SUPPLY_GOOD, COLD_RESET and BOOT_STAGE_END complete. The values to which a
cold reset takes what the spec gives no reset value, and which boot-select record is in force, are the model's choices (logs 4, 27, 37). -/
def Obligations.BootStagesEnd : Prop :=
  (∀ s, stage s = 0 → ∃ t, exec .supplyGood s = .next t ∧ stage t = 1 ∧ t.pins.off = false) ∧
  (∀ s f off, ∃ t, exec (.coldReset ⟨f, off⟩) s = .next t ∧ get t R.RNG_STAT2.FEED_ID = f % 64 ∧
    get t (R.SEC_PART_RES.DIES 0) = (2 ^ nDies s - 1) % 2 ^ 16 ∧ get t (R.SEC_PART_RES.STACKS 0) = (2 ^ nStacks s - 1) % 2 ^ 16 ∧
    get t (R.SEC_PART_QG.COUNT 0) = 16 * nDies s % 2 ^ (R.SEC_PART_QG.COUNT 0).w ∧
    (∀ g : Field, keyClass (fieldKey g) ≠ retCode .fuse →
      (∀ x ∈ [R.RNG_STAT2.FEED_ID, R.SEC_PART_RES.DIES 0, R.SEC_PART_RES.STACKS 0, R.SEC_PART_QG.COUNT 0], fieldKey g ≠ fieldKey x) → get t g = g.rst) ∧
    (∀ g : Field, keyClass (fieldKey g) = retCode .fuse → get t g = get s g) ∧ (∀ o, readByte t (flashArea o) = readByte s (flashArea o)) ∧
    t.host = HostH.init ∧ t.recov = RecovH.init ∧ t.sec = SecH.init ∧ t.pins = { Pins.init with feedId := f % 64, off := off } ∧ t.rails = [] ∧ t.itn = [] ∧ t.tok = []) ∧
  (∀ s, Booting s 1 → clkState s = 2 ∨ clkState s = 3 → ∃ t, exec .bootStageEnd s = .next t ∧ stage t = 2) ∧
  (∀ s, Booting s 2 → fusesGood s = true → ∃ t, exec .bootStageEnd s = .next t ∧ stage t = 3) ∧
  (∀ s a c, Booting s 3 → slotToBoot s 0 = some a → slotToBoot s 1 = some c → a < 2 → c < 2 →
    ∃ t, exec .bootStageEnd s = .next t ∧ stage t = 4 ∧ get t R.BOOT_STAT.FW_SLOT = a ∧ get t R.BOOT_STAT.CFG_SLOT = c ∧
      get t R.BOOT_DIG.DIGEST = leNat (sha384 (payloadOf (imageOf s 0 a))) % 2 ^ 384 ∧
      readBytes t (sramArea 0) (payloadOf (imageOf s 0 a)).length = payloadOf (imageOf s 0 a)) ∧
  (∀ s, Booting s 4 → s.boot.restart = none → (applyConfig s).2 = true → ∃ t, exec .bootStageEnd s = .next t ∧ stage t = 5 ∧ get t R.BOOT_STAT.AUTOPILOT = 0 ∧
    t.pins.pwrgood = true) ∧
  (∀ s, Booting s 4 → s.boot.restart = none → (applyConfig s).2 = false → ∃ t, exec .bootStageEnd s = .next t ∧ stage t = 12 ∧ get t R.BOOT_STAT.CAUSE = 3 ∧
    bit (get t R.SAF_FAULT) 12 = true) ∧
  (∀ s, Booting s 5 → vinGood s = true → ∃ t, exec .bootStageEnd s = .next t ∧ stage t = 6) ∧
  (∀ s, Booting s 6 → railsUp s (32 :: liveDies s) = true → get s R.BOOT_STAT.GSTATE ≠ 2 → s.boot.warmed = false →
    ∃ t, exec .bootStageEnd s = .next t ∧ stage t = 7) ∧
  (∀ s, Booting s 7 → s.boot.warmed = true → get s R.FIL_WARM_STAT.STATE ≠ 1 → ∃ t, exec .bootStageEnd s = .next t ∧ stage t = 8) ∧
  (∀ s, Booting s 8 → railsUp s ((liveDies s).map (16 + ·)) = true → ∃ t, exec .bootStageEnd s = .next t ∧ stage t = 9 ∧ t.pins.pkgResetN = true ∧
    get t R.BOOT_STAT.GSTATE = 0 ∧ get t R.BOOT_GSTATE.BUSY = 0)

/-- The bounds of the stages, power-down and the package states (R618, R621, R632 to R637): BOOT_STAGE_TIMEOUT, POWER_DOWN, AUTO_RESTART,
G1_ENTER, G2_ENTER, G0_RETURN, G3_REQUEST, SELF_REFRESH_REPORT and G2_ABANDONED complete. That G1 is left at the write, that a
power-down shows GSTATE 0 and warm-up is not judged again, and REQ 3 in OFF are the model's readings (logs 56, 57, 59). -/
def Obligations.PackageStatesChange : Prop :=
  (∀ s b, Booting s 2 → 200 ≤ s.us - s.boot.stageUs → ∃ t, exec (.bootStageTimeout b) s = .next t ∧ stage t = 12 ∧ get t R.BOOT_STAT.CAUSE = 1 ∧ bit (get t R.SAF_FAULT) 12 = true) ∧
  (∀ s b, Booting s 5 → get s R.BOOT_CFG.VIN_WAIT_MS * 1000 ≤ s.us - s.boot.stageUs → ∃ t, exec (.bootStageTimeout b) s = .next t ∧ stage t = 11 ∧ get t R.BOOT_STAT.CAUSE = 6) ∧
  (∀ s b, Booting s 6 ∨ Booting s 8 → 10000 ≤ s.us - s.boot.stageUs → ∃ t, exec (.bootStageTimeout b) s = .next t ∧ PoweredDown t 7) ∧
  (∀ s c, s.boot.downCause = c → 0 < c → c < 16 → 5 ≤ stage s → stage s ≤ 9 → ∃ t, exec .powerDown s = .next t ∧ PoweredDown t c ∧ t.boot.downCause = 0) ∧
  (∀ s, stage s = 11 → get s R.BOOT_STAT.CAUSE = 8 → get s R.BOOT_CFG.AUTO_RESTART = 1 → 2 ≤ s.capp.above →
    get s R.BOOT_CFG.RESTART_MS * 1000 ≤ s.us - s.capp.aboveUs → ∃ t, exec .autoRestart s = .next t ∧ stage t = 5 ∧ get t R.BOOT_STAT.CAUSE = 0 ∧ t.pins.pwrgood = true) ∧
  (∀ s p d, Writes s p 0x160010 → get s R.BOOT_GSTATE.BUSY = 0 → stage s = 9 → get s R.BOOT_STAT.GSTATE = 0 → isPresent s d = true →
    (tokOf s d).grant ≠ 0 → ∃ t, exec (.g1Enter p 1) s = .next t ∧ get t R.BOOT_GSTATE.REQ = 1 ∧ get t R.BOOT_GSTATE.BUSY = 1 ∧ t.boot.change = 2 ∧
      t.resp = [⟨p, 0, false⟩]) ∧
  (∀ s p, Writes s p 0x160010 → get s R.BOOT_GSTATE.BUSY = 0 → stage s = 9 → get s R.BOOT_STAT.GSTATE = 0 →
    (∀ d, isPresent s d = true → (tokOf s d).grant = 0) → ∃ t, exec (.g1Enter p 1) s = .next t ∧ get t R.BOOT_STAT.GSTATE = 1 ∧
      get t R.BOOT_GSTATE.BUSY = 0 ∧ ∀ d, isPresent s d = true → Out.clockGate d true ∈ t.out) ∧
  (∀ s p, Writes s p 0x160010 → get s R.BOOT_GSTATE.BUSY = 0 → stage s = 9 → get s R.BOOT_STAT.GSTATE < 2 → get s R.HNG_STAT.SEQ_BUSY = 0 →
    (∀ q < 16, partState s q ≠ ptSCRUBBING) → ∃ t, exec (.g2Enter p 2) s = .next t ∧ get t R.BOOT_GSTATE.BUSY = 1 ∧ t.boot.change = 3 ∧
      ∀ d, isPresent s d = true → Out.selfRefresh d ∈ t.out) ∧
  (∀ s p, Writes s p 0x160010 → get s R.BOOT_GSTATE.BUSY = 0 → stage s = 9 → get s R.BOOT_STAT.GSTATE = 1 →
    ∃ t, exec (.g0Return p 0) s = .next t ∧ get t R.BOOT_STAT.GSTATE = 0 ∧ ∀ d, isPresent s d = true → Out.clockGate d false ∈ t.out) ∧
  (∀ s p, Writes s p 0x160010 → get s R.BOOT_GSTATE.BUSY = 0 → stage s = 11 → get s R.BOOT_STAT.CAUSE = 10 →
    ∃ t, exec (.g0Return p 0) s = .next t ∧ stage t = 5 ∧ get t R.BOOT_STAT.CAUSE = 0 ∧ t.pins.pwrgood = true) ∧
  (∀ s p d, Writes s p 0x160010 → get s R.BOOT_GSTATE.BUSY = 0 → stage s = 9 → isPresent s d = true → floorIssue s d < (tokOf s d).total →
    ∃ t, exec (.g3Request p 3) s = .next t ∧ get t R.BOOT_GSTATE.REQ = 3 ∧ get t R.BOOT_GSTATE.BUSY = 1 ∧ t.boot.change = 4) ∧
  (∀ s p, Writes s p 0x160010 → get s R.BOOT_GSTATE.BUSY = 0 → stage s = 11 → ∃ t, exec (.g3Request p 3) s = .next t ∧ t.pins.pwrgood = false) ∧
  (∀ s d fr, s.boot.change = 3 → Accepts s true tyBULK d fr → setBit s.boot.selfRef d ≠ 2 ^ nDies s - 1 →
    ∃ t, exec (.selfRefreshReport ⟨d, fr⟩) s = .next t ∧ t.boot.selfRef = setBit s.boot.selfRef d ∧ t.boot.change = 3) ∧
  (∀ s d fr, s.boot.change = 3 → Accepts s true tyBULK d fr → setBit s.boot.selfRef d = 2 ^ nDies s - 1 →
    ∃ t, exec (.selfRefreshReport ⟨d, fr⟩) s = .next t ∧ get t R.BOOT_STAT.GSTATE = 2 ∧ get t R.BOOT_GSTATE.BUSY = 0 ∧ t.pins.pkgResetN = false ∧
      loopState t 32 = lpOFF ∧ loopState t d = lpOFF) ∧
  (∀ s d, s.boot.change = 3 → isPresent s d = true → bit s.boot.selfRef d = false → 1000 ≤ s.us - s.boot.changeUs → ∃ t, exec (.g2Abandoned d) s = .next t ∧ get t R.BOOT_STAT.GSTATE = 0 ∧ get t R.BOOT_GSTATE.REQ = 0 ∧
    get t R.BOOT_GSTATE.BUSY = 0 ∧ t.boot.change = 0 ∧ (Room s 2 → pkgEvent s 0x010A (2 ^ nDies s - 1 - s.boot.selfRef) ∈ t.log.queue))

/-- Resets (R484, R567, R628 to R630, R635): GOV_WARM_RESET, ACCELERATOR_RESET and DIE_RESET start theirs, ACC_RESET_END and DIE_RESET_END
end them. What a warm reset keeps beside what R635 and R437 say is the model's reading (log 58). -/
def Obligations.ResetsStartAndEnd : Prop :=
  (∀ s p, Writes s p 0x16000C → stage s = 9 → s.boot.govRst = false →
    ∃ t, exec (.govWarmReset p (2 ^ 17)) s = .next t ∧ t.boot.govRst = true ∧ get t R.BOOT_STAT.AUTOPILOT = 1 ∧ t.host.flights = [] ∧
      t.host.mbxIn = [] ∧ t.recov.hold = true ∧ t.ring.copies = [] ∧ get t R.CMD_GEN.WARM = (get s R.CMD_GEN.WARM + 1) % 2 ^ 16 ∧ bit (get t R.SAF_EVENT) 6 = true ∧
      (∀ q < 9, get t (R.CMD_SQ_TAIL.TAIL q) = 0 ∧ get t (R.CMD_SQ_HEAD.HEAD q) = 0 ∧ get t (R.CMD_VER.CUR q) = 1) ∧
      stage t = 9 ∧ get t R.CAP_RING.BUDGET = get s R.CAP_RING.BUDGET % 2 ^ (R.CAP_RING.BUDGET).w) ∧
  (∀ s p, Writes s p 0x16000C → stage s = 9 → s.boot.accRst = false →
    ∃ t, exec (.acceleratorReset p (2 ^ 16)) s = .next t ∧ t.boot.accRst = true ∧ t.pins.pkgResetN = false ∧ t.recov.cur = none ∧ t.recov.pend = [] ∧
      (∀ d, dieInReset t d = true) ∧ ∀ d, isPresent s d = true → (tokOf t d).grant = 0) ∧
  (∀ s p m d, Writes s p 0x16000C → stage s = 9 → 0 < m → m < 2 ^ nDies s → s.boot.dieRst = 0 → s.boot.lostHold = 0 → get s R.BOOT_STAT.GSTATE = 0 → bit m d = true →
    ∃ t, exec (.dieReset p m) s = .next t ∧ t.boot.dieRst = m ∧ (tokOf t d).grant = 0 ∧
      (itnOf t d).core = { Prof.init with lastStep := (itnOf s d).core.lastStep } ∧ (itnOf t d).step = (itnOf s d).step ∧
      get t (R.THM_DIE_STAT.STALE d) = 1 ∧ t.resp = [⟨p, 0, false⟩]) ∧
  (∀ s p m, Writes s p 0x16000C → 0 < m → m < 2 ^ 16 → s.boot.lostHold ≠ 0 → get s R.CMD_VIOL_STAT.COUNT = 0 →
    ∃ t, exec (.dieReset p m) s = .next t ∧ t.boot = s.boot ∧ get t (R.CMD_VIOL.KIND 0) = 2 ∧ t.resp = [⟨p, 0, false⟩]) ∧
  (∀ s p, Writes s p 0x16000C → stage s ≠ 9 → get s R.CMD_VIOL_STAT.COUNT = 0 →
    ∃ t, exec (.dieReset p 1) s = .next t ∧ t.boot = s.boot ∧ get t (R.CMD_VIOL.KIND 0) = 2 ∧ t.resp = [⟨p, 0, false⟩]) ∧
  (∀ s, s.boot.accRst = true → get s R.BOOT_CFG2.PKG_RST_US ≤ s.us - s.boot.accUs → ∃ t, exec .accResetEnd s = .next t ∧ t.boot.accRst = false ∧ t.pins.pkgResetN = true) ∧
  (∀ s d, isPresent s d = true → bit s.boot.dieRst d = true → bit s.boot.lostHold d = false →
    ∃ t, exec (.dieResetEnd d) s = .next t ∧ bit t.boot.dieRst d = false) ∧
  (∀ s d, isPresent s d = true → bit s.boot.lostHold d = true → loopState s d = lpTRACK → loopState s (16 + d) = lpTRACK →
    ∃ t, exec (.dieResetEnd d) s = .next t ∧ bit t.boot.lostHold d = false ∧ bit t.boot.dieRst d = false)

/-- Firmware restarts and safety (R627, R639 to R642, R646, R649, R650): LOCKSTEP_MISMATCH, WATCHDOG_EXPIRE, WATCHDOG_KICK, SRAM_UE,
SRAM_CE, FW_REQUEST, FW_RESTART_DONE, SVN_ADV, CONFIG_SCAN and SAF_FAULT_CLEAR complete. Which bits a write of SAF_FAULT clears, and what
the scan's CRC is formed over, are the model's readings (logs 31, 98). -/
def Obligations.FirmwareRestarts : Prop :=
  (∀ s, MayRestart s → ∃ t, exec .lockstepMismatch s = .next t ∧ Restarting s t 0 ∧ bit (get t R.SAF_EVENT) 0 = true ∧
    get t R.SAF_CNT.LOCKSTEP = min 65535 (get s R.SAF_CNT.LOCKSTEP + 1)) ∧
  (∀ s, MayRestart s → fwRuns s = true → get s R.SAF_WDT.TIMEOUT_MS * 1000 ≤ s.boot.wdt → ∃ t, exec .watchdogExpire s = .next t ∧ Restarting s t 1 ∧ bit (get t R.SAF_EVENT) 1 = true) ∧
  (∀ s v, answers s 9 0x16010C = true → bit v 0 = true → ∃ t, exec (.watchdogKick 9 v) s = .next t ∧ t.boot = { s.boot with wdt := 0 } ∧
    t.resp = [⟨9, 0, false⟩]) ∧
  (∀ s, MayRestart s → ∃ t, exec .sramUe s = .next t ∧ Restarting s t 2 ∧ bit (get t R.SAF_EVENT) 3 = true) ∧
  (∀ s n, 0 < n → ∃ t, exec (.sramCe n) s = .next t ∧ get t R.SAF_CNT.SRAM_CE = min 65535 (get s R.SAF_CNT.SRAM_CE + n) ∧ bit (get t R.SAF_EVENT) 2 = true ∧
    t.boot = s.boot) ∧
  (∀ s, MayRestart s → ∃ t, exec .fwRequest s = .next t ∧ Restarting s t 3) ∧
  (∀ s k ups, s.boot.restart = some k → s.boot.govRst = false → sramGood (upsetSram ups s) = true →
    ∃ t, exec (.fwRestartDone ups) s = .next t ∧ t.boot.restart = none ∧ get t R.BOOT_STAT.AUTOPILOT = 0) ∧
  (∀ s k p tag fl ups, s.boot.restart = some k → s.boot.fwCmd = some (p, tag) → s.boot.aborts = [] → flightOf s p tag = some fl →
    sramGood (upsetSram ups s) = true → ∃ t, exec (.fwRestartDone ups) s = .next t ∧ t.boot.restart = none ∧ Answered s t fl sOK 0 0) ∧
  (∀ s k p tag fl ups, s.boot.restart = some k → s.boot.fwCmd = none → s.boot.aborts = [(p, tag)] → flightOf s p tag = some fl →
    sramGood (upsetSram ups s) = true → ∃ t, exec (.fwRestartDone ups) s = .next t ∧ t.boot.restart = none ∧ Answered s t fl sABORTED 0 0) ∧
  (∀ s k ups, s.boot.restart = some k → sramGood (upsetSram ups s) = false →
    ∃ t, exec (.fwRestartDone ups) s = .next t ∧ t.boot.govRst = true ∧ t.host.flights = []) ∧
  (∀ s, s.boot.svnFw = true → get s R.BOOT_SVN.FW_FUSED < get s R.BOOT_SVN.FW_IMG → get s R.BOOT_SVN.FW_IMG < 256 → stage s = 9 → fwRuns s = true →
    60000000 ≤ s.boot.runUs → ∃ t, exec (.svnAdv 0) s = .next t ∧ get t R.BOOT_SVN.FW_FUSED = get s R.BOOT_SVN.FW_IMG ∧
      (Room s 1 → pkgEvent s 0x0C05 (get s R.BOOT_SVN.FW_IMG) ∈ t.log.queue)) ∧
  (∀ s ups, scanFails (each ups flip s) = true → ∃ t, exec (.configScan ups) s = .next t ∧
    get t R.SAF_SCAN.LAST_BAD = firstBad (each ups flip s) % 2 ^ 22 ∧ bit (get t R.SAF_EVENT) 4 = true ∧ bit (get t R.SAF_FAULT) 14 = true ∧ t.boot.scanBad = true) ∧
  (∀ s ups, scanFails (each ups flip s) = false → ∃ t, exec (.configScan ups) s = .next t ∧ t.boot.scanBad = false ∧
    bit (get t R.SAF_FAULT) 14 = bit (get s R.SAF_FAULT) 14) ∧
  (∀ s, s.boot.upset = [] → ∃ t, exec (.configScan []) s = .next t ∧ t.boot.scanBad = false) ∧
  (∀ s p v, Writes s p 0x160100 → ∃ t, exec (.safFaultClear p v) s = .next t ∧ t.resp = [⟨p, 0, false⟩] ∧
    ∀ b < 16, bit (get t R.SAF_FAULT) b = (bit (get s R.SAF_FAULT) b && !(bit v b && faultOver s b)))

/-- The firmware update commands (R643 to R646): FW_OPEN erases the slot not booted and assigns it, FW_WRITE programs it, FW_COMMIT judges
the image and prefers it, FW_RESTART restarts. A loss of supply that cuts the record write leaves one whole copy (R651). That the other kind's
preference is copied is the model's reading (log 43). -/
def Obligations.FirmwareUpdated : Prop :=
  (∀ s port tag fl k n, Waiting s 0x0C01 port tag fl → par fl 0 = k → k < 2 → par fl 1 = n → 256 ≤ n → n ≤ slotSize k → n % 8 = 0 → s.boot.slot = none →
    ∃ t, exec (.fwOpen port tag false) s = .next t ∧ Answered s t fl sOK 0 0 ∧ t.boot.slot = some ⟨port, k, n⟩ ∧
      ∀ i < slotSize k, readByte t (flashArea (slotBase k (otherSlot s k)) + i) = 0xFF) ∧
  (∀ s port tag fl k n, Waiting s 0x0C01 port tag fl → par fl 0 = k → k < 2 → par fl 1 = n → 256 ≤ n → n ≤ slotSize k → n % 8 = 0 → s.boot.slot = none →
    ∃ t, exec (.fwOpen port tag true) s = .next t ∧ Answered s t fl sTIMEOUT 0 0 ∧ t.boot.slot = none) ∧
  (∀ s port tag fl x o w, Waiting s 0x0C02 port tag fl → s.boot.slot = some x → x.port = port → fl.params = o :: w → w ≠ [] → o < 2 ^ 22 → o % 4 = 0 →
    o + 4 * w.length ≤ x.length →
    ∃ t, exec (.fwWrite port tag false) s = .next t ∧ Answered s t fl sOK 0 0 ∧
      ∀ i < w.length, readWord32 t (flashArea (slotBase x.kind (otherSlot s x.kind) + o) + 4 * i) = nth w i % 2 ^ 32) ∧
  (∀ s port tag fl x o w, Waiting s 0x0C02 port tag fl → s.boot.slot = some x → x.port = port → fl.params = o :: w → w ≠ [] → o < 2 ^ 22 → o % 4 = 0 →
    o + 4 * w.length ≤ x.length → ∃ t, exec (.fwWrite port tag true) s = .next t ∧ Answered s t fl sTIMEOUT 0 0 ∧ t.boot.slot = none) ∧
  (∀ s port tag fl x, Waiting s 0x0C03 port tag fl → s.boot.slot = some x → x.port = port → get s R.BOOT_STAT.FW_SLOT < 2 →
    get s R.BOOT_STAT.CFG_SLOT < 2 → firstFail (imageChecks s x.kind (otherSlot s x.kind)) = none → ∃ t, exec (.fwCommit port tag .whole) s = .next t ∧
      Answered s t fl sOK (readWord32 s (flashArea (slotBase x.kind (otherSlot s x.kind) + 0x0C))) 0 ∧ t.boot.slot = none ∧ t.boot.committed = true ∧
      readBytes t (flashArea 0) 16 = bootSelBytes (commitRecord s x.kind) ∧ readBytes t (flashArea 0x1000) 16 = bootSelBytes (commitRecord s x.kind)) ∧
  (∀ s port tag fl x, Waiting s 0x0C03 port tag fl → s.boot.slot = some x → x.port = port →
    firstFail (imageChecks s x.kind (otherSlot s x.kind)) = none →
    ∃ t, exec (.fwCommit port tag .failed) s = .next t ∧ Completed s t fl sTIMEOUT 0 0 ∧ t.boot.slot = s.boot.slot) ∧
  (∀ s port tag fl x n, Waiting s 0x0C03 port tag fl → s.boot.slot = some x → x.port = port → get s R.BOOT_STAT.FW_SLOT < 2 →
    get s R.BOOT_STAT.CFG_SLOT < 2 → firstFail (imageChecks s x.kind (otherSlot s x.kind)) = none →
    (∃ t, exec (.fwCommit port tag (.cut 1 n)) s = .next t ∧ stage t = 0 ∧ t.pins.off = true ∧
      readBytes t (flashArea 0) 16 = readBytes s (flashArea 0) 16 ∧
      readBytes t (flashArea 0x1000) 15 = (bootSelBytes (commitRecord s x.kind)).take (min n 15) ++ List.replicate (15 - n) 0xFF) ∧
    (∃ t, exec (.fwCommit port tag (.cut 0 n)) s = .next t ∧ stage t = 0 ∧ readBytes t (flashArea 0x1000) 16 = bootSelBytes (commitRecord s x.kind))) ∧
  (∀ s port tag fl x w st, Waiting s 0x0C03 port tag fl → s.boot.slot = some x → x.port = port →
    firstFail (imageChecks s x.kind (otherSlot s x.kind)) = some st →
    ∃ t, exec (.fwCommit port tag w) s = .next t ∧ Completed s t fl st 0 0 ∧ t.boot.slot = s.boot.slot) ∧
  (∀ s port tag fl, Waiting s 0x0C04 port tag fl → par fl 0 = 0 → s.boot.restart = none →
    coresUp s = true ∨ (s.boot.govRst = true ∧ romServes s = true) →
    (s.boot.restarts.filter fun x => decide (s.us - x < get s R.SAF_CFG.RESTART_S * 1000000)).length < get s R.SAF_CFG.RESTART_N →
    ∃ t, exec (.fwRestart port tag) s = .next t ∧ Restarting s t 4 ∧ t.boot.fwCmd = some (port, tag) ∧ flightOf t port tag = some { fl with started := true }) ∧
  (∀ s port tag fl, Waiting s 0x0C04 port tag fl → par fl 0 = 1 → stage s ≠ 12 →
    ∃ t, exec (.fwRestart port tag) s = .next t ∧ t.boot.govRst = true ∧ t.host.flights = [])

/-- R70: COAST is entered from LOCKED and RELOCK (COAST_ENTER), when RELOCK fails (RELOCK_TIMEOUT), and at start-up with COAST_BOOT at 1
(BOOT_CLOCK_TIMEOUT, LOCK_RETRY); each entry sets the four bits, counts, and records event 0x0102. -/
def Obligations.CoastEntrySetsItsBits : Prop :=
  (∀ s, (clkState s = 2 ∨ clkState s = 4) → s.clk.lost = true → ∃ t, exec .coastEnter s = .next t ∧ CoastEntered s t ∧
    (Room s 2 → pkgEvent s 0x0102 (min 0xFFFF (get s R.CLK_COAST_CNT.COUNT + 1)) ∈ t.log.queue)) ∧
  (∀ s, clkState s = 4 → 500 ≤ s.us - s.clk.since → ∃ t, exec .relockTimeout s = .next t ∧ CoastEntered s t ∧
    (Room s 2 → pkgEvent s 0x0102 (min 0xFFFF (get s R.CLK_COAST_CNT.COUNT + 1)) ∈ t.log.queue)) ∧
  (∀ s, stage s ≠ 0 → s.clk.started = false → clkState s = 0 → 10000 ≤ s.us - s.clk.goodUs → get s R.CLK_CFG.COAST_BOOT = 1 →
    ∃ t, exec .bootClockTimeout s = .next t ∧ CoastEntered s t ∧ (s.log.fresh = [] → s.log.queue.length + 2 ≤ 64 →
      pkgEvent s 0x0102 (min 0xFFFF (get s R.CLK_COAST_CNT.COUNT + 1)) ∈ t.log.queue)) ∧
  (∀ s, clkState s = 1 → 200 ≤ s.us - s.clk.since → 2 ≤ s.clk.retries ∨ (s.clk.bootLate = true ∧ s.clk.waits = false) →
    get s R.CLK_CFG.COAST_BOOT = 1 →
    ∃ t, exec .lockRetry s = .next t ∧ CoastEntered s t ∧ (s.log.fresh = [] → s.log.queue.length + 2 ≤ 64 →
      pkgEvent s 0x0102 (min 0xFFFF (get s R.CLK_COAST_CNT.COUNT + 1)) ∈ t.log.queue))

/-- R60: a failing window takes the run of passing windows back to none and sets JUDGE_FAIL; a passing one that does not yet make three
accepts nothing. -/
def Obligations.FailingWindowRestartsTheRun : Prop :=
  (∀ s count tclk, stage s ≠ 0 → (clkState s = 0 ∨ clkState s = 3) → count < 15565 ∨ 17203 < count →
    ∃ t, exec (.judgeWindow ⟨count, tclk⟩) s = .next t ∧ t.clk.run = 0 ∧ get t R.CLK_EVENT.JUDGE_FAIL = 1) ∧
  (∀ s count tclk, stage s ≠ 0 → (clkState s = 0 ∨ clkState s = 3) → 15565 ≤ count → count ≤ 17203 → s.clk.run < 2 →
    ∃ t, exec (.judgeWindow ⟨count, tclk⟩) s = .next t ∧ t.clk.run = s.clk.run + 1 ∧ clkState t = clkState s ∧
      get t R.CLK_STATUS.REF_OK = get s R.CLK_STATUS.REF_OK ∧ get t R.CLK_EVENT.JUDGE_FAIL = get s R.CLK_EVENT.JUDGE_FAIL)

/-- R524: KEY_ROTATE of a partition that still holds its previous epoch's keys ends with WRONG_STATE and changes no key. -/
def Obligations.RotateWaitsForThePreviousEpoch : Prop :=
  ∀ s port tag fl p, Waiting s 0x0A06 port tag fl → fl.target = p → p < 16 → get s (R.SEC_PART_EPOCH.PREV_VALID p) = 1 →
    ∃ t, exec (.keyRotate port tag) s = .next t ∧ Completed s t fl sWRONG_STATE 0 0 ∧ t.sec = s.sec ∧
      get t (R.SEC_PART_EPOCH.CUR p) = get s (R.SEC_PART_EPOCH.CUR p)

/-- R576: VIOL_CLEAR empties the violation log: every word of every entry, COUNT and LOST read 0. -/
def Obligations.ViolationLogCleared : Prop :=
  ∀ s port tag fl, Waiting s 0x0102 port tag fl →
    ∃ t, exec (.violClear port tag) s = .next t ∧ Completed s t fl sOK 0 0 ∧ get t R.CMD_VIOL_STAT.COUNT = 0 ∧ get t R.CMD_VIOL_STAT.LOST = 0 ∧
      ∀ i < 32, get t (R.CMD_VIOL.OFS i) = 0 ∧ get t (R.CMD_VIOL.PORT i) = 0 ∧ get t (R.CMD_VIOL.KIND i) = 0 ∧ get t (R.CMD_VIOL.OPCODE i) = 0 ∧
        get t (R.CMD_VIOL.STATUS i) = 0 ∧ get t (R.CMD_VIOL.REPEAT i) = 0 ∧ get t (R.CMD_VIOL.TIME i) = 0

/-- R634: a die that does not report self-refresh abandons the entry to G2: the package is in G0 with REQ 0, and the event names the dies
that have not reported. -/
def Obligations.MissingReportAbandonsG2 : Prop :=
  ∀ s d, s.boot.change = 3 → isPresent s d = true → bit s.boot.selfRef d = false → 1000 ≤ s.us - s.boot.changeUs →
    ∃ t, exec (.g2Abandoned d) s = .next t ∧ get t R.BOOT_STAT.GSTATE = 0 ∧ get t R.BOOT_GSTATE.REQ = 0 ∧
    t.boot.change = 0 ∧ (Room s 2 → pkgEvent s 0x010A (2 ^ nDies s - 1 - s.boot.selfRef) ∈ t.log.queue)

/-- R586: the owner's write of RELEASE frees the lock, so that a read that comes with it may take the lock; the same write of another port
is a violation of kind WRITE and leaves the lock as it is. -/
def Obligations.OnlyTheOwnerReleases : Prop :=
  (∀ s n p v, n < 64 → p < 10 → answers s p (0x120200 + 4 * n) = true → bit v 31 = true → get s (R.LCK.OWNER n) = p →
    ∃ t, exec (.lockRelease p n v) s = .next t ∧ get t (R.LCK.OWNER n) = 15) ∧
  (∀ s n p v, n < 64 → p < 10 → answers s p (0x120200 + 4 * n) = true → bit v 31 = true → get s (R.LCK.OWNER n) ≠ p → get s R.CMD_VIOL_STAT.COUNT = 0 →
    ∃ t, exec (.lockRelease p n v) s = .next t ∧ get t (R.LCK.OWNER n) = get s (R.LCK.OWNER n) ∧ t.resp = [⟨p, 0, true⟩] ∧
      get t R.CMD_VIOL_STAT.COUNT = 1 ∧ get t (R.CMD_VIOL.PORT 0) = p ∧ get t (R.CMD_VIOL.KIND 0) = 1 ∧ get t (R.CMD_VIOL.OFS 0) = 0x120200 + 4 * n) ∧
  (∀ s n p q v, n < 64 → p < 10 → q < 10 → answers s p (0x120200 + 4 * n) = true → answers s q (0x120200 + 4 * n) = true → authOf s q ≠ 0 →
    bit v 31 = true → get s (R.LCK.OWNER n) = p →
    ∃ t, exec (.lockRelease p n v) s = .next t ∧ ∃ u, exec (.lockRead n [q]) t = .next u ∧ get u (R.LCK.OWNER n) = q)

/-- A step runs the command at the front of the queue on the state with the queue's rest, whatever the command and the state. -/
def Obligations.StepRunsTheFrontCommand : Prop :=
  ∀ (c : Instr) (rest : List Instr) (s : State), s.pending = c :: rest → step s = exec c { s with pending := rest }

/-- On an empty queue a step is one period of the clock (log 1, the model's choice): CLK_TIME counts it once the clock runs, the µs counter
counts the periods that end a µs (in LOCKED the hundredth, in COAST the fiftieth, R55), nothing is sent, answered or recorded, and no byte of
memory and no die, rail, phase, lane or link row changes. -/
def Obligations.EmptyQueueTicks : Prop :=
  ∀ s : State, s.pending = [] → ∃ t, step s = .next t ∧ t.pending = [] ∧
    get t R.CLK_TIME.COUNT = (if s.clk.started = true then (get s R.CLK_TIME.COUNT + 1) % 2 ^ 64 else get s R.CLK_TIME.COUNT) ∧
    t.us = s.us + (if tickEnds s = true then 1 else 0) ∧
    (clkState s = 2 → (t.us = s.us + 1 ↔ 99 ≤ s.clk.tickFrac)) ∧ (clkState s = 3 → (t.us = s.us + 1 ↔ 49 ≤ s.clk.tickFrac)) ∧
    t.out = s.out ∧ t.resp = s.resp ∧ t.log = s.log ∧ t.mem = s.mem ∧ t.links = s.links ∧ t.lanes = s.lanes ∧ t.phases = s.phases ∧
    t.rails = s.rails ∧ t.itn = s.itn ∧ t.tok = s.tok ∧ t.capd = s.capd ∧ t.estd = s.estd

/-- Every command answers a next state on every state: none faults, none is refused. -/
def Obligations.EveryCommandAnswers : Prop := ∀ (c : Instr) (s : State), ∃ t, exec c s = .next t

/-- No command touches the queue, and none changes a fuse but the SVN of the two images, which R627 raises: all the other fuses of R9 read as
before. -/
def Obligations.CommandsKeepTheQueueAndTheFuses : Prop :=
  ∀ (c : Instr) (s t : State), exec c s = .next t → t.pending = s.pending ∧
    ∀ g : Field, keyClass (fieldKey g) = retCode .fuse → isSvn g = false → get t g = get s g

/-- Every step keeps the invariant: the register file, byte memory and the ten tables by die, rail, phase, lane, converter and partition stay
in their canonical form, and no event waits outside the recorder queue. -/
def Obligations.StepsKeepTheInvariant : Prop := ∀ s t : State, s.Inv → step s = .next t → t.Inv

/-- The state after reset meets the invariant that every step keeps. -/
def Obligations.ResetMeetsTheInvariant : Prop := State.reset.Inv

/-- At reset every register reads the reset value of its table, no command waits, and units hold nothing: as samples the values that chapters
2, 3, 4, 6, 8, 11, 13, 14 and 15 print. A reset value that a table does not print is the model's choice (logs 3, 4). -/
def Obligations.ResetReadsItsTables : Prop :=
  (∀ f : Field, get State.reset f = f.rst) ∧ State.reset.pending = [] ∧ State.reset.host.flights = [] ∧ State.reset.log.queue = [] ∧
    clkState State.reset = 0 ∧ stage State.reset = 0 ∧ get State.reset R.CLK_CFG.COAST_BOOT = 1 ∧ get State.reset R.CLK_CFG.AUTO_RELOCK = 1 ∧
    get State.reset R.PST_CTRL.DEAD_TAPS = 16 ∧ get State.reset R.PST_CTRL.TOFF_MIN_NS = 12 ∧ get State.reset R.LPE_VIN.VIN_FLOOR = 11200 ∧
    get State.reset R.LPE_VIN.VIN_NOM = 14400 ∧ get State.reset R.ITN_DRP_CFG.TH = 40 ∧ get State.reset R.CAP_OP_CFG.HEADROOM = 240 ∧
    get State.reset R.CTX_CFG.DRAIN_US = 20 ∧ get State.reset R.BOOT_CFG.VIN_WAIT_MS = 100 ∧ get State.reset R.HLT_CFG.TH = 160 ∧
    get State.reset R.SAF_CFG.RESTART_N = 3 ∧ get State.reset R.SAF_CFG.RESTART_S = 60 ∧
    (∀ n < 200, get State.reset (R.PST_RAIL_CFG.HICCUP_MAX (n % 33)) = 8) ∧ (∀ n < 64, get State.reset (R.LCK.OWNER n) = 15) ∧
    (∀ p < 9, get State.reset (R.CMD_VER.CUR p) = 1)

/-- Where the commands that store bytes store them: outside the bytes named, and outside the completion queues, every byte reads as before.
A governor warm reset clears the windows of class GOV (R21, R545, R592, R635) and nothing else; the end of a restart may also find SRAM bytes
upset, and stage LOAD fills SRAM (R625, R640; log 12). -/
def Obligations.StoresStayInTheirWindows : Prop :=
  (∀ port tag s t, exec (.modelOpen port tag) s = .next t → StoresIn s t (stageArea 0) (stageArea 294912)) ∧
  (∀ port tag fl s t, flightOf s port tag = some fl → exec (.modelWrite port tag) s = .next t →
    StoresIn s t (stageArea (par fl 0)) (stageArea (par fl 0) + 4 * (fl.params.length - 1))) ∧
  (∀ data trunc q s t, seqIn s cxCAPTURING = some q → capLength q.wins ≤ 0x10000 → exec (.captureDone data trunc) s = .next t →
    StoresIn s t (sharedArea (0x200000 + 0x10000 * q.slot)) (sharedArea (0x200000 + 0x10000 * (q.slot + 1)))) ∧
  (∀ data q s t, seqIn s cxCAPTURING = some q → capLength q.wins ≤ 0x10000 → exec (.captureOverrun data) s = .next t →
    StoresIn s t (sharedArea (0x200000 + 0x10000 * q.slot)) (sharedArea (0x200000 + 0x10000 * (q.slot + 1)))) ∧
  (∀ port tag fl n s t, flightOf s port tag = some fl → n < 16 → bit (par fl 0) n = false → exec (.captureFree port tag) s = .next t →
    StoresIn s t (sharedArea 0x200000) (sharedArea 0x300000) ∧
      ∀ i < 0x10000, readByte t (sharedArea (0x200000 + 0x10000 * n) + i) = readByte s (sharedArea (0x200000 + 0x10000 * n) + i)) ∧
  (∀ port tag s t, exec (.spdmMsg port tag) s = .next t →
    StoresIn s t (sharedArea (0x108000 + 0x1000 * port)) (sharedArea (0x108000 + 0x1000 * (port + 1)))) ∧
  (∀ port tag failed fl k s t, flightOf s port tag = some fl → par fl 0 = k → exec (.fwOpen port tag failed) s = .next t →
    StoresIn s t (flashArea (slotBase k (otherSlot s k))) (flashArea (slotBase k (otherSlot s k) + slotSize k))) ∧
  (∀ port tag failed fl x s t, flightOf s port tag = some fl → s.boot.slot = some x → exec (.fwWrite port tag failed) s = .next t →
    StoresIn s t (flashArea (slotBase x.kind (otherSlot s x.kind) + par fl 0))
      (flashArea (slotBase x.kind (otherSlot s x.kind) + par fl 0) + 4 * (fl.params.length - 1))) ∧
  (∀ port tag write s t, (∀ c n, write ≠ .cut c n) → exec (.fwCommit port tag write) s = .next t → StoresIn s t (flashArea 0) (flashArea 0x2000)) ∧
  (∀ port tag write s t o, 0x2000 ≤ o → exec (.fwCommit port tag write) s = .next t → readByte t (flashArea o) = readByte s (flashArea o)) ∧
  (∀ p off v s t, 0x300000 ≤ off → off < 0x340000 → exec (.registerWrite p off v) s = .next t →
    StoresIn s t (portArea p off) (portArea p off + 4)) ∧
  (∀ p off v s t, 0x3F0000 ≤ off → off < 0x3F8000 → exec (.registerWrite p off v) s = .next t →
    StoresIn s t (sharedArea off) (sharedArea off + 4)) ∧
  (∀ vin volts period disagree flagged s t, s.test.step < 128 → s.test.samples < 4096 → get s R.LPE_CAP_PRE.PRE < 4096 →
    exec (.loopEvaluation vin volts period disagree flagged) s = .next t →
    StoresIn s t (sharedArea 0x3F0000) (sharedArea 0x3F8000)) ∧
  (∀ s t, get s R.LPE_CAP_PRE.PRE < 4096 → exec .loopTestEnd s = .next t → StoresIn s t (sharedArea 0x3F0000) (sharedArea 0x3F8000)) ∧
  (∀ c s t a, c ∈ [Instr.lockstepMismatch, .watchdogExpire, .sramUe, .fwRequest] → exec c s = .next t → inWarm a = false →
    readByte t a = readByte s a) ∧
  (∀ port tag s t a, exec (.fwRestart port tag) s = .next t → inWarm a = false → readByte t a = readByte s a) ∧
  (∀ port v s t a, exec (.govWarmReset port v) s = .next t → inWarm a = false → readByte t a = readByte s a) ∧
  (∀ ups s t a, exec (.fwRestartDone ups) s = .next t → inWarm a = false → a < sramArea 0 ∨ sramArea (2 ^ 22) ≤ a → readByte t a = readByte s a) ∧
  (∀ s t, exec .bootStageEnd s = .next t → StoresIn s t (sramArea 0) (sramArea (2 ^ 22)))

/-- The frames of 58 commands of the clock unit, the links, the phases, the converters, the loops and the estimator: where a command
answers a next state, every register field, table row, part of the state and byte of memory that its line does not list is as before.
Memory outside the completion queues is unchanged where .mem is not listed; StoresStayInTheirWindows says where the others store. -/
def Obligations.FramesOfClockPowerAndEstimator : Prop :=
  (∀ window s t, exec (.judgeWindow window) s = .next t → Within (logged [the R.CLK_REF_COUNT.COUNT, the R.CLK_STATUS.REF_OK,
    the R.CLK_EVENT.JUDGE_FAIL, the R.THM_COAST_CAL.CT, the R.CLK_STATUS.STATE, the R.CLK_STATUS.COAST] [] [] [.therm, .clk, .tok, .out,
    .links]) s t) ∧
  (∀ count s t, exec (.lockMonitorWindow count) s = .next t → Within (logged [the R.CLK_STATUS.REF_OK, the R.CLK_EVENT.COAST_EXIT,
    the R.CLK_STATUS.SYNC_LOST, the R.CLK_STATUS.STATE, the R.CLK_STATUS.COAST, the R.RNG_STAT.STATE] [] [] [.therm, .tok, .out, .links,
    .clk, .ring]) s t) ∧
  (∀ s t, exec .lockRetry s = .next t → Within (logged [the R.CLK_EVENT.LOCK_RETRY, the R.CLK_STATUS.REF_OK, the R.CLK_STATUS.LOCK_FAIL,
    the R.CLK_STATUS.STATE, the R.CLK_STATUS.COAST, the R.CLK_STATUS.SYNC_LOST, the R.CLK_EVENT.REF_LOST, the R.CLK_EVENT.COAST_ENTER,
    the R.CLK_COAST_CNT.COUNT, the R.PST_SYNC_STAT.LOCK, the R.THM_COAST_CAL.CT, the R.RNG_STAT.STATE, the R.RNG_STAT.MASTER_ACT,
    the R.RNG_BUDGET.PENDING, the R.RNG_EVENT] [] [] [.clk, .therm, .tok, .out, .links, .phases, .ring, .pins, .capp]) s t) ∧
  (∀ s t, exec .bootClockTimeout s = .next t → Within (logged [the R.CLK_STATUS.REF_OK, the R.CLK_STATUS.SYNC_LOST,
    the R.CLK_EVENT.REF_LOST, the R.CLK_EVENT.COAST_ENTER, the R.CLK_COAST_CNT.COUNT, the R.PST_SYNC_STAT.LOCK, the R.THM_COAST_CAL.CT,
    the R.CLK_STATUS.STATE, the R.CLK_STATUS.COAST, the R.RNG_STAT.STATE, the R.RNG_STAT.MASTER_ACT, the R.RNG_BUDGET.PENDING,
    the R.RNG_EVENT] [] [] [.clk, .therm, .tok, .out, .links, .phases, .ring, .pins, .capp]) s t) ∧
  (∀ s t, exec .refLost s = .next t → Within (logged [the R.CLK_STATUS.REF_OK] [] [] [.clk]) s t) ∧
  (∀ s t, exec .coastEnter s = .next t → Within (logged [the R.CLK_STATUS.SYNC_LOST, the R.CLK_EVENT.REF_LOST,
    the R.CLK_EVENT.COAST_ENTER, the R.CLK_COAST_CNT.COUNT, the R.PST_SYNC_STAT.LOCK, the R.THM_COAST_CAL.CT, the R.CLK_STATUS.STATE,
    the R.CLK_STATUS.COAST, the R.RNG_STAT.STATE, the R.RNG_STAT.MASTER_ACT, the R.RNG_BUDGET.PENDING, the R.RNG_EVENT] [] [] [.therm,
    .tok, .out, .links, .clk, .phases, .ring, .pins, .capp]) s t) ∧
  (∀ s t, exec .relockStart s = .next t → Within (logged [the R.CLK_STATUS.STATE, the R.CLK_STATUS.COAST] [] [] [.therm, .tok, .out,
    .links, .clk]) s t) ∧
  (∀ s t, exec .relockTimeout s = .next t → Within (logged [the R.CLK_EVENT.LOCK_RETRY, the R.CLK_CFG.AUTO_RELOCK,
    the R.CLK_STATUS.SYNC_LOST, the R.CLK_EVENT.REF_LOST, the R.CLK_EVENT.COAST_ENTER, the R.CLK_COAST_CNT.COUNT,
    the R.PST_SYNC_STAT.LOCK, the R.THM_COAST_CAL.CT, the R.CLK_STATUS.STATE, the R.CLK_STATUS.COAST, the R.RNG_STAT.STATE,
    the R.RNG_STAT.MASTER_ACT, the R.RNG_BUDGET.PENDING, the R.RNG_EVENT] [] [] [.clk, .therm, .tok, .out, .links, .phases, .ring,
    .pins, .capp]) s t) ∧
  (∀ die lane s t, exec (.laneLoss die lane) s = .next t → Within (logged [] [] [.link die] [.out]) s t) ∧
  (∀ _die _lane s t, exec (.laneRetrain _die _lane) s = .next t → Within (logged [] [] [] []) s t) ∧
  (∀ die lane s t, exec (.laneRestore die lane) s = .next t → Within (logged [] [] [.link die] []) s t) ∧
  (∀ die s t, exec (.linkLost die) s = .next t → Within (answered [the (R.THM_DIE_STAT.STALE die), the (R.ITN_DIE_STAT.EMPTY die),
    the R.EST_EVENT, the R.EST_LOAD_STAT.STATUS, the R.EST_LOAD_STAT.DETAIL, the (R.CAP_DIE_BUD.BUDGET die), the (R.CAP_DIE_BUD.BIND
    die), the (R.CAP_DIE_THR.ACTIVE die), the R.CAP_THR_ACT.ACTIVE, every R.CAP_THR_START.TIME] [] [.link die, .cap die] [.estp, .ring])
    s t) ∧
  (∀ die s t, exec (.linkRestore die) s = .next t → Within (answered [the (R.ITN_DIE_CNT.ACCEPTED die), the (R.ITN_DIE_CNT.BAD die),
    the (R.ITN_DIE_CNT2.OVERFLOW die), the (R.ITN_DIE_CNT2.SRC_OFF die), the (R.ITN_MM_CNT.OVER die), the (R.ITN_MM_CNT.UNDER die),
    the (R.FIL_DIE_CNT.EPISODES die), the (R.ITN_DIE_STAT.CUT die), the (R.ITN_DIE_STAT.STRETCH die), the (R.ITN_DRP_STAT.FIRED die),
    the (R.ITN_DRP_STAT.FAILED die), the (R.ITN_STEP.LAST die), the (R.ITN_STEP_WAIT.NS die), the (R.ITN_STEP_LEN.US die),
    the R.ITN_EVENT, the R.FIL_EVENT, the R.SAF_FAULT, the (R.ITN_DIE_STAT.BLIND die), the (R.CAP_DIE_THR.ACTIVE die),
    the R.CAP_THR_ACT.ACTIVE, every R.CAP_THR_START.TIME, the (R.ITN_DIE_STAT.STEP die), the (R.ITN_DIE_STAT.COLLECTIVE die),
    the (R.ITN_DIE_STAT.BARRIER die), the (R.TOK_DIE_STAT.ZERO die), the (R.FIL_DIE_STAT.EPISODE die), the (R.FIL_DIE_STAT.N die),
    the (R.FIL_DIE_L0.L0 die), the (R.FIL_DIE_STAT.WARM die), the (R.ITN_DIE_STAT.EMPTY die), the (R.CAP_DIE_BUD.BUDGET die),
    the (R.CAP_DIE_BUD.BIND die)] [] [.itn die, .link die, .tok die, .cap die] [.ring, .capp, .pins]) s t) ∧
  (∀ die s t, exec (.linkTrained die) s = .next t → Within (logged [every R.SEC_PART_SCRUB.REMAIN, the (R.ITN_DIE_STAT.EMPTY die),
    the (R.CAP_DIE_BUD.BUDGET die), the (R.CAP_DIE_BUD.BIND die), the (R.CAP_DIE_THR.ACTIVE die), the R.CAP_THR_ACT.ACTIVE,
    every R.CAP_THR_START.TIME] [] [.link die, .itn die, .tok die, .cap die] [.free, .out, .ring]) s t) ∧
  (∀ die frame kind a b s t, exec (.budgetFrame die frame kind a b) s = .next t → Within (logged [] [] [.link die, .tok die] []) s t) ∧
  (∀ die frame threshold s t, exec (.thresholdFrame die frame threshold) s = .next t → Within (logged [] [] [.itn die, .link die] []) s
    t) ∧
  (∀ die frame real filler late s t, exec (.tokensUsedFrame die frame real filler late) s = .next t → Within (logged [the R.TOK_EVENT,
    the (R.FIL_DIE_E.ENERGY die), the R.FIL_SYS_E.ENERGY, the R.CAP_E_SYS.ENERGY] [] [.link die, .tok die] []) s t) ∧
  (∀ stage lane word s t, exec (.tlmFrame stage lane word) s = .next t → Within (logged [the (R.PST_STG_STAT.LANE0_OK stage),
    the (R.PST_STG_STAT.LANE1_OK stage), the (R.PST_STG_ERR.L0 stage), the (R.PST_STG_ERR.L1 stage), the R.PST_EVENT,
    every R.PST_PH_I.I] [] [] [.lanes, .estd, .estp, .phases]) s t) ∧
  (∀ stage lane s t, exec (.tlmMissingFrame stage lane) s = .next t → Within (logged [the (R.PST_STG_ERR.L0 stage),
    the (R.PST_STG_ERR.L1 stage), the R.PST_EVENT, the (R.PST_STG_STAT.LANE0_OK stage), the (R.PST_STG_STAT.LANE1_OK stage)] [] []
    [.lanes, .estd, .estp]) s t) ∧
  (∀ stage lane s t, exec (.tlmLost stage lane) s = .next t → Within (answered [every R.PST_PH_STAT.CAUSE, the R.PST_EVENT,
    every R.PST_PH_STAT.STATE, the (R.HLT_EVT.COUNT 2), every R.CAP_DIE_BUD.BUDGET, every R.CAP_DIE_BUD.BIND,
    every R.CAP_DIE_THR.ACTIVE, the R.CAP_THR_ACT.ACTIVE, every R.CAP_THR_START.TIME, every R.PST_RAIL_STAT.LOST, the R.SAF_FAULT,
    every R.THM_DIE_STAT.STALE, every R.THM_DIE_STAT.LOST, every R.ITN_DRP_STAT.FIRED, every R.ITN_DIE_STAT.CUT,
    every R.ITN_DIE_STAT.STRETCH, every R.LPE_REF.TARGET, every R.CTX_STATE.STATE, the R.EST_LINK_TRIM.GAIN, the R.EST_LINK_OFS.OFS,
    every R.PST_PH_DUTY.TRIM, every R.LPE_STAT.STATE, every R.LPE_STAT.CAUSE, every R.PST_RAIL_STAT.BRAKING, every R.ITN_DIE_STAT.PE]
    [.die] [] [.phases, .capd, .links, .ring, .boot, .pins, .tok, .itn, .estd, .therm, .recov, .estp, .rails, .test]) s t) ∧
  (∀ stage sameStart s t, exec (.superframe stage sameStart) s = .next t → Within (answered [the (R.PST_STG_STAT2.CRC_ERR stage),
    the (R.PST_STG_STAT.TEMP stage), the (R.PST_STG_STAT.DRV_FLT stage), the (R.PST_STG_STAT.OT_WARN stage), the (R.PST_STG_STAT.VIN_UV
    stage), the (R.PST_STG_STAT2.CAP stage), every R.PST_PH_STAT.CAUSE, the R.PST_EVENT, every R.PST_PH_STAT.STATE, the (R.HLT_EVT.COUNT
    2), every R.CAP_DIE_BUD.BUDGET, every R.CAP_DIE_BUD.BIND, every R.CAP_DIE_THR.ACTIVE, the R.CAP_THR_ACT.ACTIVE,
    every R.CAP_THR_START.TIME, every R.PST_RAIL_STAT.LOST, the R.SAF_FAULT, every R.THM_DIE_STAT.STALE, every R.THM_DIE_STAT.LOST,
    every R.ITN_DRP_STAT.FIRED, every R.ITN_DIE_STAT.CUT, every R.ITN_DIE_STAT.STRETCH, every R.LPE_REF.TARGET, every R.CTX_STATE.STATE,
    the R.EST_LINK_TRIM.GAIN, the R.EST_LINK_OFS.OFS, every R.PST_PH_DUTY.TRIM, every R.LPE_STAT.STATE, every R.LPE_STAT.CAUSE,
    every R.PST_RAIL_STAT.BRAKING, every R.ITN_DIE_STAT.PE] [.die] [.lane (2 * stage), .lane (2 * stage + 1)] [.phases, .capd, .links,
    .ring, .boot, .pins, .tok, .itn, .estd, .therm, .recov, .estp, .rails, .test]) s t) ∧
  (∀ period s t, exec (.syncAcquire period) s = .next t → Within (logged [the R.PST_SYNC_STAT.LOCK, the R.CLK_STATUS.SYNC_LOST] [] []
    []) s t) ∧
  (∀ s t, exec .syncLoss s = .next t → Within (logged [the R.PST_SYNC_STAT.LOCK, the R.PST_EVENT] [] [] [.clk]) s t) ∧
  (∀ vin volts sync disagree flagged s t, exec (.loopEvaluation vin volts sync disagree flagged) s = .next t → Within (answered
    [the R.PST_VIN.VIN, the R.PST_SYNC_STAT.PERIOD, every R.LPE_V.VMEAS, every R.PST_PH_DUTY.DUTY, every R.LPE_V.VREF,
    every R.ITN_DIE_STAT.PE, every R.ITN_DIE_PRED.IMAX, every R.ITN_DIE_STAT.EMPTY, every R.PST_RAIL_STAT.BRAKING, the R.PST_EVENT,
    every R.PST_PH_DUTY.TRIM, every R.PST_PH_STAT.STATE, every R.LPE_DUTY.U_SAT, every R.ITN_DIE_PRED2.ILEAD, every R.LPE_STAT.FROZEN,
    the R.LPE_EVENT, the R.LPE_CMP_CNT.COUNT, every R.LPE_INT.I, every R.LPE_DUTY.SAFE, every R.LPE_STAT.STATE, every R.LPE_STAT.CAUSE,
    every R.CAP_DIE_BUD.BUDGET, every R.CAP_DIE_BUD.BIND, every R.CAP_DIE_THR.ACTIVE, the R.CAP_THR_ACT.ACTIVE,
    every R.CAP_THR_START.TIME, every R.PST_RAIL_STAT.LOST, the R.SAF_FAULT, every R.THM_DIE_STAT.STALE, every R.THM_DIE_STAT.LOST,
    every R.ITN_DRP_STAT.FIRED, every R.ITN_DIE_STAT.CUT, every R.ITN_DIE_STAT.STRETCH, every R.LPE_REF.TARGET, every R.CTX_STATE.STATE,
    the R.EST_LINK_TRIM.GAIN, the R.EST_LINK_OFS.OFS, the R.LPE_CAP_STAT.COUNT, the R.LPE_CAP_STAT.STATE, the R.LPE_CAP_STAT.STEP,
    the R.LPE_CAP_TS.TIME, every R.PST_PH_CNT.LIMITED, every R.SEC_PART_SCRUB.REMAIN] [.die] [] [.capp, .clk, .rails, .phases, .test,
    .itn, .links, .pins, .capd, .ring, .boot, .tok, .estd, .therm, .recov, .estp, .mem, .self, .free]) s t) ∧
  (∀ rail s t, exec (.cmpHold rail) s = .next t → Within (logged [the (R.LPE_STAT.STATE rail), the (R.LPE_STAT.CAUSE rail),
    the R.LPE_EVENT, the (R.ITN_DIE_STAT.PE rail), the (R.LPE_DUTY.U_SAT rail), every R.PST_PH_DUTY.TRIM, every R.PST_PH_CNT.LIMITED,
    the R.SAF_FAULT, every R.CMD_NOTIFY, the (R.CAP_DIE_BUD.BUDGET (rail % 16)), the (R.CAP_DIE_BUD.BIND (rail % 16)),
    the (R.CAP_DIE_THR.ACTIVE (rail % 16)), the R.CAP_THR_ACT.ACTIVE, every R.CAP_THR_START.TIME] [] [.rail rail, .cap (rail % 16),
    .link (rail % 16)] [.phases, .out, .test, .ring]) s t) ∧
  (∀ rail s t, exec (.feHold rail) s = .next t → Within (logged [the (R.LPE_STAT.STATE rail), the (R.LPE_STAT.CAUSE rail),
    the R.LPE_EVENT, the (R.ITN_DIE_STAT.PE rail), the (R.LPE_DUTY.U_SAT rail), every R.PST_PH_DUTY.TRIM, every R.PST_PH_CNT.LIMITED,
    the R.SAF_FAULT, every R.CMD_NOTIFY, the (R.CAP_DIE_BUD.BUDGET (rail % 16)), the (R.CAP_DIE_BUD.BIND (rail % 16)),
    the (R.CAP_DIE_THR.ACTIVE (rail % 16)), the R.CAP_THR_ACT.ACTIVE, every R.CAP_THR_START.TIME] [] [.rail rail, .cap (rail % 16),
    .link (rail % 16)] [.phases, .out, .test, .ring]) s t) ∧
  (∀ phase s t, exec (.hiccupEnter phase) s = .next t → Within (answered [the (R.PST_PH_CNT.HICCUPS phase), the R.PST_EVENT,
    the (R.PST_PH_STAT.CAUSE phase), the (R.HLT_EVT.COUNT 2), every R.CAP_DIE_BUD.BUDGET, every R.CAP_DIE_BUD.BIND,
    every R.CAP_DIE_THR.ACTIVE, the R.CAP_THR_ACT.ACTIVE, every R.CAP_THR_START.TIME, the (R.PST_RAIL_STAT.LOST (railOfPhase phase)),
    the R.SAF_FAULT, every R.THM_DIE_STAT.STALE, every R.THM_DIE_STAT.LOST, every R.ITN_DRP_STAT.FIRED, every R.ITN_DIE_STAT.CUT,
    every R.ITN_DIE_STAT.STRETCH, every R.LPE_REF.TARGET, every R.CTX_STATE.STATE, the R.EST_LINK_TRIM.GAIN, the R.EST_LINK_OFS.OFS,
    every R.PST_PH_DUTY.TRIM, every R.LPE_STAT.STATE, every R.LPE_STAT.CAUSE, every R.PST_RAIL_STAT.BRAKING, every R.ITN_DIE_STAT.PE,
    every R.PST_PH_STAT.STATE] [.die] [] [.capd, .links, .ring, .boot, .pins, .tok, .itn, .estd, .therm, .recov, .estp, .phases, .rails,
    .test]) s t) ∧
  (∀ phase s t, exec (.hiccupEnd phase) s = .next t → Within (logged [the (R.PST_PH_STAT.HICCUP_RUN phase), the (R.PST_PH_DUTY.TRIM
    phase), the (R.PST_PH_STAT.STATE phase)] [] [.phase phase] []) s t) ∧
  (∀ phase s t, exec (.hiccupRunClear phase) s = .next t → Within (logged [the (R.PST_PH_STAT.HICCUP_RUN phase)] [] [] []) s t) ∧
  (∀ phase s t, exec (.phaseRampEnd phase) s = .next t → Within (logged [the (R.PST_PH_STAT.STATE phase), every R.CAP_DIE_BUD.BUDGET,
    every R.CAP_DIE_BUD.BIND, every R.CAP_DIE_THR.ACTIVE, the R.CAP_THR_ACT.ACTIVE, every R.CAP_THR_START.TIME] [] [.phase phase]
    [.rails, .capd, .out, .links, .ring]) s t) ∧
  (∀ rail s t, exec (.shedPhase rail) s = .next t → Within (logged [every R.PST_PH_STAT.STATE] [] [] [.phases]) s t) ∧
  (∀ rail s t, exec (.brakeTimeout rail) s = .next t → Within (logged [the (R.PST_RAIL_STAT.BRAKING rail)] [] [.rail rail] []) s t) ∧
  (∀ phase s t, exec (.openPhase phase) s = .next t → Within (answered [the (R.PST_PH_STAT.CAUSE phase), the R.PST_EVENT,
    the (R.HLT_EVT.COUNT 2), every R.CAP_DIE_BUD.BUDGET, every R.CAP_DIE_BUD.BIND, every R.CAP_DIE_THR.ACTIVE, the R.CAP_THR_ACT.ACTIVE,
    every R.CAP_THR_START.TIME, the (R.PST_RAIL_STAT.LOST (railOfPhase phase)), the R.SAF_FAULT, every R.THM_DIE_STAT.STALE,
    every R.THM_DIE_STAT.LOST, every R.ITN_DRP_STAT.FIRED, every R.ITN_DIE_STAT.CUT, every R.ITN_DIE_STAT.STRETCH,
    every R.LPE_REF.TARGET, every R.CTX_STATE.STATE, the R.EST_LINK_TRIM.GAIN, the R.EST_LINK_OFS.OFS, every R.PST_PH_DUTY.TRIM,
    every R.LPE_STAT.STATE, every R.LPE_STAT.CAUSE, every R.PST_RAIL_STAT.BRAKING, every R.ITN_DIE_STAT.PE, every R.PST_PH_STAT.STATE]
    [.die] [] [.capd, .links, .ring, .boot, .pins, .tok, .itn, .estd, .therm, .recov, .estp, .phases, .rails, .test]) s t) ∧
  (∀ phase s t, exec (.senseFailure phase) s = .next t → Within (answered [the (R.PST_PH_STAT.CAUSE phase), the R.PST_EVENT,
    the (R.HLT_EVT.COUNT 2), every R.CAP_DIE_BUD.BUDGET, every R.CAP_DIE_BUD.BIND, every R.CAP_DIE_THR.ACTIVE, the R.CAP_THR_ACT.ACTIVE,
    every R.CAP_THR_START.TIME, the (R.PST_RAIL_STAT.LOST (railOfPhase phase)), the R.SAF_FAULT, every R.THM_DIE_STAT.STALE,
    every R.THM_DIE_STAT.LOST, every R.ITN_DRP_STAT.FIRED, every R.ITN_DIE_STAT.CUT, every R.ITN_DIE_STAT.STRETCH,
    every R.LPE_REF.TARGET, every R.CTX_STATE.STATE, the R.EST_LINK_TRIM.GAIN, the R.EST_LINK_OFS.OFS, every R.PST_PH_DUTY.TRIM,
    every R.LPE_STAT.STATE, every R.LPE_STAT.CAUSE, every R.PST_RAIL_STAT.BRAKING, every R.ITN_DIE_STAT.PE, every R.PST_PH_STAT.STATE]
    [.die] [] [.capd, .links, .ring, .boot, .pins, .tok, .itn, .estd, .therm, .recov, .estp, .phases, .rails, .test]) s t) ∧
  (∀ readings s t, exec (.pmbPoll readings) s = .next t → Within (logged [every R.PST_PMB_DATA.VIN, every R.PST_PMB_DATA.IIN,
    every R.PST_PMB_DATA.VOUT, every R.PST_PMB_DATA.IOUT, every R.PST_PMB_DATA.TEMP, every R.PST_PMB_STAT.STATUS_WORD,
    every R.PST_PMB_STAT.NO_RESP, the R.PST_EVENT] [] [] [.out]) s t) ∧
  (∀ statuses s t, exec (.pmbAlert statuses) s = .next t → Within (logged [every R.PST_PMB_STAT.STATUS_WORD,
    every R.PST_PMB_STAT.CONV_FAULT, the R.PST_EVENT, every R.PST_PMB_STAT.NO_RESP, every R.PST_PMB_STAT.NO_AUTO_CLR,
    the R.CAP_IIN_EFF.IIN, the R.CAP_EVENT] [] [] [.out, .pmb]) s t) ∧
  (∀ port tag s t, exec (.phaseRetire port tag) s = .next t → Within (answered [every R.PST_PH_STAT.CAUSE, the R.PST_EVENT,
    every R.PST_PH_STAT.STATE, the (R.HLT_EVT.COUNT 2), every R.CAP_DIE_BUD.BUDGET, every R.CAP_DIE_BUD.BIND,
    every R.CAP_DIE_THR.ACTIVE, the R.CAP_THR_ACT.ACTIVE, every R.CAP_THR_START.TIME, every R.PST_RAIL_STAT.LOST, the R.SAF_FAULT,
    every R.THM_DIE_STAT.STALE, every R.THM_DIE_STAT.LOST, every R.ITN_DRP_STAT.FIRED, every R.ITN_DIE_STAT.CUT,
    every R.ITN_DIE_STAT.STRETCH, every R.LPE_REF.TARGET, every R.CTX_STATE.STATE, the R.EST_LINK_TRIM.GAIN, the R.EST_LINK_OFS.OFS,
    every R.PST_PH_DUTY.TRIM, every R.LPE_STAT.STATE, every R.LPE_STAT.CAUSE, every R.PST_RAIL_STAT.BRAKING, every R.ITN_DIE_STAT.PE]
    [.die] [] [.phases, .capd, .links, .ring, .boot, .pins, .tok, .itn, .estd, .therm, .recov, .estp, .rails, .test]) s t) ∧
  (∀ port tag s t, exec (.phaseRestore port tag) s = .next t → Within (answered [every R.PST_PH_STAT.HICCUP_RUN,
    every R.PST_PH_STAT.CAUSE, every R.PST_PH_DUTY.TRIM, every R.PST_PH_STAT.STATE, every R.CAP_DIE_BUD.BUDGET,
    every R.CAP_DIE_BUD.BIND, every R.CAP_DIE_THR.ACTIVE, the R.CAP_THR_ACT.ACTIVE, every R.CAP_THR_START.TIME,
    every R.PST_RAIL_STAT.LOST, the R.SAF_FAULT, every R.LPE_STAT.STATE, every R.LPE_STAT.CAUSE, every R.PST_RAIL_STAT.BRAKING,
    every R.ITN_DIE_STAT.PE, every R.ITN_DRP_STAT.FIRED, every R.ITN_DIE_STAT.CUT, every R.ITN_DIE_STAT.STRETCH, every R.LPE_DUTY.SAFE,
    every R.LPE_INT.I, the R.PST_EVENT, every R.THM_DIE_STAT.STALE, every R.THM_DIE_STAT.LOST, every R.LPE_REF.TARGET,
    every R.CTX_STATE.STATE, the R.EST_LINK_TRIM.GAIN, the R.EST_LINK_OFS.OFS] [.die] [] [.phases, .capd, .links, .ring, .rails, .itn,
    .pins, .test, .estd, .boot, .tok, .therm, .recov, .estp]) s t) ∧
  (∀ port tag acked s t, exec (.convVoutSet port tag acked) s = .next t → Within (answered [every R.PST_PMB_STAT.NO_RESP,
    the R.PST_EVENT] [] [] []) s t) ∧
  (∀ port tag acked s t, exec (.convClear port tag acked) s = .next t → Within (answered [every R.PST_PMB_STAT.CONV_FAULT,
    every R.PST_PMB_STAT.NO_AUTO_CLR, every R.PST_PMB_STAT.NO_RESP, the R.PST_EVENT, the R.CAP_IIN_EFF.IIN, the R.CAP_EVENT] [] [] []) s
    t) ∧
  (∀ port tag s t, exec (.loopResume port tag) s = .next t → Within (answered [every R.LPE_STAT.STATE, every R.LPE_STAT.CAUSE] [] []
    [.rails]) s t) ∧
  (∀ port tag s t, exec (.loopTest port tag) s = .next t → Within (answered [the R.LPE_CAP_STAT.STATE, the R.LPE_CAP_STAT.COUNT,
    the R.LPE_CAP_STAT.STEP, the R.LPE_CAP_TS.TIME] [] [] [.test]) s t) ∧
  (∀ port tag s t, exec (.loopTestStop port tag) s = .next t → Within (answered [] [] [] [.test]) s t) ∧
  (∀ s t, exec .loopTestEnd s = .next t → Within (answered [the R.LPE_CAP_STAT.STATE, the R.LPE_EVENT] [] [] [.mem, .test]) s t) ∧
  (∀ counts s t, exec (.counterLatch counts) s = .next t → Within (logged [] [] [] [.tok, .estd]) s t) ∧
  (∀ die s t, exec (.firstLayerDone die) s = .next t → Within (logged [] [] [.est die, .link die] [.out]) s t) ∧
  (∀ die frame window s t, exec (.estimateFrame die frame window) s = .next t → Within (logged [] [] [.link die, .est die] []) s t) ∧
  (∀ s t, exec .secondStage s = .next t → Within (logged [every R.EST_DIE_MODEL.ID, every R.EST_DIE_MVER.VER, every R.EST_DIE_SIZE.N_IN,
    every R.EST_DIE_SIZE.N_HID, every R.EST_DIE_SIZE.N_OUT, every R.EST_DIE_STAT.SUBST, every R.EST_DIE_TIN.TCORE,
    every R.EST_DIE_TIN.TMEM, every R.EST_DIE_VIN.VCORE, every R.EST_DIE_VIN.VMEM, every R.EST_DIE_VIN2.VLINK, every R.EST_DIE_TS.TIME,
    every R.EST_DIE_STAT.PREV_VALID, every R.EST_DIE_CNT.LATE, the R.EST_EVENT, every2 R.EST_RAW.I, every2 R.EST_LEAK.I, every2
    R.EST_GAIN.GAIN, every2 R.EST_OFS.OFS, every2 R.EST_OUT.I, every R.EST_DIE_CNT.SKIP, every R.EST_DIE_STAT.TRIM_HOLD,
    every R.CAP_DIE_P.P, the R.CAP_PKG_P.P, every R.CAP_E_PART.ENERGY, the R.CAP_E_SYS.ENERGY, every R.CAP_DIE_BUD.BUDGET,
    every R.CAP_DIE_BUD.BIND] [] [] [.estd, .estp, .capd, .capp, .sec, .tok, .itn, .free, .out, .links]) s t) ∧
  (∀ s t, exec .trimUpdate s = .next t → Within (logged [the R.EST_LINK_TRIM.SKIP, the R.EST_EVENT, the R.EST_LINK_TRIM.GAIN,
    the R.EST_LINK_OFS.OFS] [] [] [.estd, .estp]) s t) ∧
  (∀ s t, exec .modelSwitch s = .next t → Within (answered [the R.EST_EVENT, the R.EST_LOAD_STAT.STATUS, the R.EST_LOAD_STAT.DETAIL,
    every R.EST_DIE_STAT.ACTIVE, every R.EST_DIE_STAT.PREV_VALID, the R.EST_LINK_TRIM.GAIN, the R.EST_LINK_OFS.OFS, the R.RNG_GEN.GEN,
    the R.EST_STAGE.OPEN, the R.EST_STAGE.OWNER, the R.EST_STAGE.LEN] [] [] [.estp, .estd, .ring]) s t) ∧
  (∀ s t, exec .stageTimeout s = .next t → Within (logged [the R.EST_EVENT, the R.EST_STAGE.OPEN, the R.EST_STAGE.OWNER,
    the R.EST_STAGE.LEN] [] [] []) s t) ∧
  (∀ port tag s t, exec (.modelOpen port tag) s = .next t → Within (answered [the R.EST_STAGE.OPEN, the R.EST_STAGE.OWNER,
    the R.EST_STAGE.LEN] [] [] [.mem, .estp]) s t) ∧
  (∀ port tag s t, exec (.modelWrite port tag) s = .next t → Within (answered [] [] [] [.estp, .mem]) s t) ∧
  (∀ port tag s t, exec (.modelLoad port tag) s = .next t → Within (answered [the R.EST_LOAD_STAT.STATUS, the R.EST_LOAD_STAT.DETAIL,
    the R.EST_EVENT] [] [] [.estp, .estd, .links]) s t) ∧
  (∀ port tag s t, exec (.modelClose port tag) s = .next t → Within (answered [the R.EST_STAGE.OPEN, the R.EST_STAGE.OWNER,
    the R.EST_STAGE.LEN] [] [] []) s t) ∧
  (∀ port tag s t, exec (.modelRevert port tag) s = .next t → Within (answered [] [] [] [.estp]) s t) ∧
  (∀ port tag s t, exec (.trimReset port tag) s = .next t → Within (answered [the R.EST_LINK_TRIM.GAIN, the R.EST_LINK_OFS.OFS] [] []
    [.estd, .estp]) s t) ∧
  (∀ port tag value acked s t, exec (.readVoutAfterWrite port tag value acked) s = .next t → Within (answered
    [every R.PST_PMB_STAT.NO_RESP, the R.PST_EVENT] [] [] [.free]) s t)

/-- The frames of 56 commands of the intent and droop, the tokens, the limits, the sensors and the ring: where a command answers a next
state, every register field, table row, part of the state and byte of memory that its line does not list is as before. Memory outside the
completion queues is unchanged where .mem is not listed; StoresStayInTheirWindows says where the others store. -/
def Obligations.FramesOfIntentLimitsAndRing : Prop :=
  (∀ die word s t, exec (.intentPacket die word) s = .next t → Within (logged [the (R.ITN_DIE_CNT.BAD die), the R.ITN_EVENT,
    the (R.ITN_DIE_CNT2.SRC_OFF die), the (R.ITN_DIE_CNT2.OVERFLOW die), the (R.ITN_DIE_CNT.ACCEPTED die)] [] [.link die, .itn die]
    [.out]) s t) ∧
  (∀ die lane bytes slot s t, exec (.intentFrame die lane bytes slot) s = .next t → Within (logged [the (R.ITN_DIE_STAT.EMPTY die)] []
    [.link die, .itn die] []) s t) ∧
  (∀ die source s t, exec (.entryExpire die source) s = .next t → Within (logged [the (R.ITN_DIE_STAT.EMPTY die)] [] [.itn die] []) s t) ∧
  (∀ die s t, exec (.mismatchEnter die) s = .next t → Within (logged [the (R.ITN_DIE_STAT.MISMATCH die), the R.ITN_EVENT,
    the (R.ITN_DIE_STAT.EMPTY die), the (R.CAP_DIE_THR.ACTIVE die), the R.CAP_THR_ACT.ACTIVE, every R.CAP_THR_START.TIME] [] [] [.ring])
    s t) ∧
  (∀ die s t, exec (.mismatchExit die) s = .next t → Within (logged [the (R.ITN_DIE_STAT.MISMATCH die), the R.ITN_EVENT,
    the (R.ITN_DIE_STAT.EMPTY die), the (R.CAP_DIE_THR.ACTIVE die), the R.CAP_THR_ACT.ACTIVE, every R.CAP_THR_START.TIME] [] [] [.ring])
    s t) ∧
  (∀ die site s t, exec (.droopDetect die site) s = .next t → Within (logged [the (R.ITN_DRP_STAT.FIRED die), the (R.ITN_DIE_STAT.CUT
    die), the (R.ITN_DIE_STAT.STRETCH die), the (R.CAP_DIE_THR.ACTIVE die), the R.CAP_THR_ACT.ACTIVE, every R.CAP_THR_START.TIME] []
    [.itn die, .link die, .tok die] [.out, .pins, .ring]) s t) ∧
  (∀ die sites s t, exec (.droopClear die sites) s = .next t → Within (answered [the (R.ITN_DRP_STAT.FIRED die), the (R.ITN_DIE_STAT.CUT
    die), the (R.ITN_DIE_STAT.STRETCH die), the (R.CAP_DIE_THR.ACTIVE die), the R.CAP_THR_ACT.ACTIVE, every R.CAP_THR_START.TIME] []
    [.itn die, .link die] [.pins, .ring]) s t) ∧
  (∀ die frame mask stamps s t, exec (.droopReport die frame mask stamps) s = .next t → Within (logged [the R.ITN_EVENT,
    the (R.ITN_DRP_STAT.EVENTS die), the (R.ITN_DRP_LAST.TIME die), the (R.ITN_DRP_DUR.NS die), the (R.HLT_EVT.COUNT 0)] [] [.link die]
    [.test]) s t) ∧
  (∀ die site s t, exec (.siteStuck die site) s = .next t → Within (answered [the (R.ITN_DRP_STAT.STUCK die), the R.ITN_EVENT,
    the R.SAF_FAULT, the (R.ITN_DRP_STAT.FIRED die), the (R.ITN_DIE_STAT.CUT die), the (R.ITN_DIE_STAT.STRETCH die),
    the (R.CAP_DIE_THR.ACTIVE die), the R.CAP_THR_ACT.ACTIVE, every R.CAP_THR_START.TIME, the (R.ITN_DIE_STAT.BLIND die)] [] [.itn die,
    .link die] [.pins, .ring]) s t) ∧
  (∀ die failing s t, exec (.siteTest die failing) s = .next t → Within (answered [the (R.ITN_DRP_STAT.FAILED die), the R.ITN_EVENT,
    the R.SAF_FAULT, the (R.ITN_DRP_STAT.FIRED die), the (R.ITN_DIE_STAT.CUT die), the (R.ITN_DIE_STAT.STRETCH die),
    the (R.CAP_DIE_THR.ACTIVE die), the R.CAP_THR_ACT.ACTIVE, every R.CAP_THR_START.TIME, the (R.ITN_DIE_STAT.BLIND die)] [] [.link die,
    .itn die] [.pins, .ring]) s t) ∧
  (∀ port tag s t, exec (.intentReset port tag) s = .next t → Within (answered [] [] [] [.itn]) s t) ∧
  (∀ port tag failing s t, exec (.droopSiteRestore port tag failing) s = .next t → Within (answered [every R.ITN_DRP_STAT.STUCK,
    every R.ITN_DRP_STAT.FAILED, the R.ITN_EVENT, every R.ITN_DIE_STAT.BLIND, the R.SAF_FAULT] [] [] [.links]) s t) ∧
  (∀ port tag s t, exec (.droopForce port tag) s = .next t → Within (answered [every R.ITN_DRP_STAT.FIRED, every R.ITN_DIE_STAT.CUT,
    every R.ITN_DIE_STAT.STRETCH, every R.CAP_DIE_THR.ACTIVE, the R.CAP_THR_ACT.ACTIVE, every R.CAP_THR_START.TIME] [] [] [.itn, .links,
    .tok, .pins, .ring]) s t) ∧
  (∀ die work cut s t, exec (.agentSlot die work cut) s = .next t → Within (answered [the (R.FIL_DIE_CNT.EPISODES die), the R.FIL_EVENT,
    the (R.ITN_MM_CNT.OVER die), the (R.ITN_MM_CNT.UNDER die), the (R.CAP_DIE_THR.ACTIVE die), the R.CAP_THR_ACT.ACTIVE,
    every R.CAP_THR_START.TIME, the (R.TOK_DIE_STAT.GRANT die), the (R.TOK_DIE_STAT.SHARE die), the (R.TOK_DIE_STAT.SCALED die),
    the (R.TOK_DIE_STAT2.USED die), the (R.TOK_DIE_STAT3.RISE_EFF die), the (R.TOK_DIE_STAT3.FILLER die), the (R.FIL_DIE_STAT.EPISODE
    die), the (R.FIL_DIE_STAT.N die), the (R.FIL_DIE_L0.L0 die), the (R.ITN_DIE_STAT.COLLECTIVE die), the (R.ITN_DIE_STAT.BARRIER die),
    the (R.ITN_DIE_STAT.MISMATCH die), the R.ITN_EVENT, the (R.ITN_DIE_STAT.EMPTY die), the (R.ITN_STEP.LAST die),
    the (R.ITN_STEP_WAIT.NS die), the (R.ITN_STEP_LEN.US die), the (R.ITN_DIE_STAT.STEP die), the (R.TOK_DIE_STAT.ZERO die),
    the (R.TOK_DIE_STAT2.BUDGET die), the (R.FIL_DIE_STAT.WARM die), the R.BOOT_STAT.GSTATE, the R.BOOT_GSTATE.BUSY,
    every R.PST_PH_STAT.STATE] [] [.est die, .tok die, .link die, .itn die] [.ring, .capp, .boot, .pins, .phases]) s t) ∧
  (∀ die s t, exec (.episodeEnd die) s = .next t → Within (logged [the (R.FIL_DIE_STAT.EPISODE die), the (R.FIL_DIE_STAT.N die),
    the (R.FIL_DIE_L0.L0 die)] [] [.tok die] []) s t) ∧
  (∀ slotPs s t, exec (.packageArbitration slotPs) s = .next t → Within (logged [the R.CAP_POOL.I, the R.TOK_ARB_CNT.SCALED,
    the R.TOK_EVENT, the R.TOK_ARB_CNT2.FLOOR_ONLY, the R.TOK_RR.PTR, every R.CAP_DIE_BKT.E, every R.CAP_DIE_EDC2.STATE,
    every R.CAP_DIE_LEDC.I, every R.TOK_DIE_CNT.SCALED] [] [] [.out, .clk, .capp, .capd, .tok, .links]) s t) ∧
  (∀ s t, exec .warmTimeout s = .next t → Within (logged [the R.FIL_EVENT, the R.FIL_WARM_STAT.TIMEOUT, the R.SAF_FAULT,
    every R.CMD_NOTIFY] [] [] [.out]) s t) ∧
  (∀ port tag s t, exec (.warmupEnd port tag) s = .next t → Within (answered [the R.FIL_WARM_STAT.STATE, the R.FIL_EVENT] [] [] [.boot])
    s t) ∧
  (∀ s t, exec .brownEnter s = .next t → Within (logged [the R.CAP_BROWN_STAT.STATE, the R.CAP_EVENT, the R.CAP_BROWN_STAT.COUNT,
    the (R.HLT_EVT.COUNT 3), every R.CMD_NOTIFY] [] [] [.capp, .out]) s t) ∧
  (∀ s t, exec .brownExit s = .next t → Within (logged [the R.CAP_BROWN_STAT.STATE, the R.CAP_EVENT, the R.SAF_FAULT] [] [] [.capp]) s
    t) ∧
  (∀ s t, exec .brownExpired s = .next t → Within (logged [the R.CAP_BROWN_STAT.STATE, the R.CAP_EVENT, the R.SAF_FAULT,
    every R.CMD_NOTIFY] [] [] [.capp, .out]) s t) ∧
  (∀ s t, exec .brownReset s = .next t → Within (logged [the R.CAP_EVENT] [] [] [.boot]) s t) ∧
  (∀ s t, exec .averageUpdate s = .next t → Within (logged [the R.CAP_PKG_PAVG.P, the R.CAP_EVENT, every R.LPE_REF.TARGET,
    every R.CAP_DIE_OP.TGT, every R.CAP_DIE_OP.CHG, every R.CAP_DIE_THR.ACTIVE, the R.CAP_THR_ACT.ACTIVE, every R.CAP_THR_START.TIME,
    every R.CAP_E_QG.ENERGY] [] [] [.tok, .recov, .capd, .capp, .out, .links, .ring]) s t) ∧
  (∀ die s t, exec (.opFrequencySend die) s = .next t → Within (logged [] [] [.cap die, .link die] [.out]) s t) ∧
  (∀ die frame s t, exec (.opChange ⟨die, frame⟩) s = .next t → Within (logged [the (R.LPE_REF.TARGET die), the (R.CAP_DIE_OP.CUR die),
    the (R.CAP_DIE_OP.CHG die), the R.CAP_EVENT, the (R.CAP_DIE_THR.ACTIVE die), the R.CAP_THR_ACT.ACTIVE, every R.CAP_THR_START.TIME,
    the (R.CAP_DIE_OP.TGT die)] [] [.link die, .cap die] [.ring, .out]) s t) ∧
  (∀ s t, exec .deferredApply s = .next t → Within (answered [the R.CAP_RING.BUDGET, the R.RNG_BUDGET.INFORCE, the R.RNG_BUDGET.PENDING,
    the R.CAP_PKG_CAP.CAP, every R.CAP_DIE_CAP.CAP, the R.CAP_AVG_LIM.LIM, every R.CAP_DIE_OP.MIN, every R.CAP_DIE_OP.MAX,
    the R.CAP_MODE.MODE, the R.CAP_MODE.OP_FIX, every R.CAP_HINT.OP, every R.CAP_HINT.CEIL, the R.CAP_CLASS.ORDER,
    the R.CAP_CLASS_FLOOR.COMP, the R.CAP_CLASS_FLOOR.MEM, the R.CAP_CLASS_FLOOR.LINK, every R.CAP_DIE_FP.TARGET, the R.RNG_GEN.GEN,
    every R.CAP_OPT.V, every R.CAP_OPT.F, every R.CAP_DIE_OP.N_OP, every R.CAP_DIE_OP.TGT, every R.CAP_DIE_OP.CHG,
    every R.LPE_REF.TARGET] [] [] [.ring, .capp, .capd, .links]) s t) ∧
  (∀ s t, exec .deferMax s = .next t → Within (answered [the R.CAP_EVENT, the R.CAP_RING.BUDGET, the R.RNG_BUDGET.INFORCE,
    the R.RNG_BUDGET.PENDING, the R.CAP_PKG_CAP.CAP, every R.CAP_DIE_CAP.CAP, the R.CAP_AVG_LIM.LIM, every R.CAP_DIE_OP.MIN,
    every R.CAP_DIE_OP.MAX, the R.CAP_MODE.MODE, the R.CAP_MODE.OP_FIX, every R.CAP_HINT.OP, every R.CAP_HINT.CEIL,
    the R.CAP_CLASS.ORDER, the R.CAP_CLASS_FLOOR.COMP, the R.CAP_CLASS_FLOOR.MEM, the R.CAP_CLASS_FLOOR.LINK, every R.CAP_DIE_FP.TARGET,
    the R.RNG_GEN.GEN, every R.CAP_OPT.V, every R.CAP_OPT.F, every R.CAP_DIE_OP.N_OP, every R.CAP_DIE_OP.TGT, every R.CAP_DIE_OP.CHG,
    every R.LPE_REF.TARGET] [] [] [.ring, .capp, .capd, .links]) s t) ∧
  (∀ s t, exec .capSetDone s = .next t → Within (answered [] [] [] [.capp]) s t) ∧
  (∀ port tag s t, exec (.capSet port tag) s = .next t → Within (answered [the R.RNG_BUDGET.PENDING, the R.CAP_RING.BUDGET,
    the R.RNG_BUDGET.INFORCE, the R.CAP_PKG_CAP.CAP, every R.CAP_DIE_CAP.CAP, the R.CAP_AVG_LIM.LIM, every R.CAP_DIE_OP.MIN,
    every R.CAP_DIE_OP.MAX, the R.CAP_MODE.MODE, the R.CAP_MODE.OP_FIX, every R.CAP_HINT.OP, every R.CAP_HINT.CEIL,
    the R.CAP_CLASS.ORDER, the R.CAP_CLASS_FLOOR.COMP, the R.CAP_CLASS_FLOOR.MEM, the R.CAP_CLASS_FLOOR.LINK, every R.CAP_DIE_FP.TARGET,
    the R.RNG_GEN.GEN, every R.CAP_OPT.V, every R.CAP_OPT.F, every R.CAP_DIE_OP.N_OP, every R.CAP_DIE_OP.TGT, every R.CAP_DIE_OP.CHG,
    every R.LPE_REF.TARGET] [] [] [.capp, .ring, .capd, .links]) s t) ∧
  (∀ port tag s t, exec (.opTableSet port tag) s = .next t → Within (answered [the R.RNG_BUDGET.PENDING, the R.CAP_RING.BUDGET,
    the R.RNG_BUDGET.INFORCE, the R.CAP_PKG_CAP.CAP, every R.CAP_DIE_CAP.CAP, the R.CAP_AVG_LIM.LIM, every R.CAP_DIE_OP.MIN,
    every R.CAP_DIE_OP.MAX, the R.CAP_MODE.MODE, the R.CAP_MODE.OP_FIX, every R.CAP_HINT.OP, every R.CAP_HINT.CEIL,
    the R.CAP_CLASS.ORDER, the R.CAP_CLASS_FLOOR.COMP, the R.CAP_CLASS_FLOOR.MEM, the R.CAP_CLASS_FLOOR.LINK, every R.CAP_DIE_FP.TARGET,
    the R.RNG_GEN.GEN, every R.CAP_OPT.V, every R.CAP_OPT.F, every R.CAP_DIE_OP.N_OP, every R.CAP_DIE_OP.TGT, every R.CAP_DIE_OP.CHG,
    every R.LPE_REF.TARGET] [] [] [.capp, .ring, .capd, .links]) s t) ∧
  (∀ port tag s t, exec (.opLimit port tag) s = .next t → Within (answered [the R.RNG_BUDGET.PENDING, the R.CAP_RING.BUDGET,
    the R.RNG_BUDGET.INFORCE, the R.CAP_PKG_CAP.CAP, every R.CAP_DIE_CAP.CAP, the R.CAP_AVG_LIM.LIM, every R.CAP_DIE_OP.MIN,
    every R.CAP_DIE_OP.MAX, the R.CAP_MODE.MODE, the R.CAP_MODE.OP_FIX, every R.CAP_HINT.OP, every R.CAP_HINT.CEIL,
    the R.CAP_CLASS.ORDER, the R.CAP_CLASS_FLOOR.COMP, the R.CAP_CLASS_FLOOR.MEM, the R.CAP_CLASS_FLOOR.LINK, every R.CAP_DIE_FP.TARGET,
    the R.RNG_GEN.GEN, every R.CAP_OPT.V, every R.CAP_OPT.F, every R.CAP_DIE_OP.N_OP, every R.CAP_DIE_OP.TGT, every R.CAP_DIE_OP.CHG,
    every R.LPE_REF.TARGET] [] [] [.capp, .ring, .capd, .links]) s t) ∧
  (∀ port tag s t, exec (.modeSet port tag) s = .next t → Within (answered [the R.RNG_BUDGET.PENDING, the R.CAP_RING.BUDGET,
    the R.RNG_BUDGET.INFORCE, the R.CAP_PKG_CAP.CAP, every R.CAP_DIE_CAP.CAP, the R.CAP_AVG_LIM.LIM, every R.CAP_DIE_OP.MIN,
    every R.CAP_DIE_OP.MAX, the R.CAP_MODE.MODE, the R.CAP_MODE.OP_FIX, every R.CAP_HINT.OP, every R.CAP_HINT.CEIL,
    the R.CAP_CLASS.ORDER, the R.CAP_CLASS_FLOOR.COMP, the R.CAP_CLASS_FLOOR.MEM, the R.CAP_CLASS_FLOOR.LINK, every R.CAP_DIE_FP.TARGET,
    the R.RNG_GEN.GEN, every R.CAP_OPT.V, every R.CAP_OPT.F, every R.CAP_DIE_OP.N_OP, every R.CAP_DIE_OP.TGT, every R.CAP_DIE_OP.CHG,
    every R.LPE_REF.TARGET] [] [] [.capp, .ring, .capd, .links]) s t) ∧
  (∀ port tag s t, exec (.hintSet port tag) s = .next t → Within (answered [the R.RNG_BUDGET.PENDING, the R.CAP_RING.BUDGET,
    the R.RNG_BUDGET.INFORCE, the R.CAP_PKG_CAP.CAP, every R.CAP_DIE_CAP.CAP, the R.CAP_AVG_LIM.LIM, every R.CAP_DIE_OP.MIN,
    every R.CAP_DIE_OP.MAX, the R.CAP_MODE.MODE, the R.CAP_MODE.OP_FIX, every R.CAP_HINT.OP, every R.CAP_HINT.CEIL,
    the R.CAP_CLASS.ORDER, the R.CAP_CLASS_FLOOR.COMP, the R.CAP_CLASS_FLOOR.MEM, the R.CAP_CLASS_FLOOR.LINK, every R.CAP_DIE_FP.TARGET,
    the R.RNG_GEN.GEN, every R.CAP_OPT.V, every R.CAP_OPT.F, every R.CAP_DIE_OP.N_OP, every R.CAP_DIE_OP.TGT, every R.CAP_DIE_OP.CHG,
    every R.LPE_REF.TARGET] [] [] [.capp, .ring, .capd, .links]) s t) ∧
  (∀ port tag s t, exec (.classSet port tag) s = .next t → Within (answered [the R.RNG_BUDGET.PENDING, the R.CAP_RING.BUDGET,
    the R.RNG_BUDGET.INFORCE, the R.CAP_PKG_CAP.CAP, every R.CAP_DIE_CAP.CAP, the R.CAP_AVG_LIM.LIM, every R.CAP_DIE_OP.MIN,
    every R.CAP_DIE_OP.MAX, the R.CAP_MODE.MODE, the R.CAP_MODE.OP_FIX, every R.CAP_HINT.OP, every R.CAP_HINT.CEIL,
    the R.CAP_CLASS.ORDER, the R.CAP_CLASS_FLOOR.COMP, the R.CAP_CLASS_FLOOR.MEM, the R.CAP_CLASS_FLOOR.LINK, every R.CAP_DIE_FP.TARGET,
    the R.RNG_GEN.GEN, every R.CAP_OPT.V, every R.CAP_OPT.F, every R.CAP_DIE_OP.N_OP, every R.CAP_DIE_OP.TGT, every R.CAP_DIE_OP.CHG,
    every R.LPE_REF.TARGET] [] [] [.capp, .ring, .capd, .links]) s t) ∧
  (∀ port tag s t, exec (.fpTarget port tag) s = .next t → Within (answered [the R.RNG_BUDGET.PENDING, the R.CAP_RING.BUDGET,
    the R.RNG_BUDGET.INFORCE, the R.CAP_PKG_CAP.CAP, every R.CAP_DIE_CAP.CAP, the R.CAP_AVG_LIM.LIM, every R.CAP_DIE_OP.MIN,
    every R.CAP_DIE_OP.MAX, the R.CAP_MODE.MODE, the R.CAP_MODE.OP_FIX, every R.CAP_HINT.OP, every R.CAP_HINT.CEIL,
    the R.CAP_CLASS.ORDER, the R.CAP_CLASS_FLOOR.COMP, the R.CAP_CLASS_FLOOR.MEM, the R.CAP_CLASS_FLOOR.LINK, every R.CAP_DIE_FP.TARGET,
    the R.RNG_GEN.GEN, every R.CAP_OPT.V, every R.CAP_OPT.F, every R.CAP_DIE_OP.N_OP, every R.CAP_DIE_OP.TGT, every R.CAP_DIE_OP.CHG,
    every R.LPE_REF.TARGET] [] [] [.capp, .ring, .capd, .links]) s t) ∧
  (∀ s t, exec .conversionOpen s = .next t → Within (logged [] [] [] [.out, .therm]) s t) ∧
  (∀ die frame counts s t, exec (.windowClose ⟨die, frame⟩ counts) s = .next t → Within (logged [] [] [.link die] [.out, .therm]) s t) ∧
  (∀ opened closed s t, exec (.thermalConversion opened closed) s = .next t → Within (answered [the R.THM_EVENT,
    every R.THM_DIE_STAT.STALE, every R.THM_SNS_RAW.COUNT, every R.THM_SNS.EXCL, every R.THM_SNS.CAUSE, every R.THM_DIE_CNT.EXCLUDES,
    the (R.HLT_EVT.COUNT 4), every R.THM_DIE_CNT.READMITS, every R.THM_DIE_STAT.LOST, the R.SAF_FAULT, every R.THM_SNS.T,
    every R.THM_DIE_T.HOT, every R.THM_DIE_T.HOT_LAYER, every R.THM_DIE_T2.MEAN, every R.THM_DIE_T2.MEAN_LAYER,
    every R.THM_DIE_STAT.DEGRADED, every R.THM_DIE_STAT.LEVELS, the R.THM_TRIP.ACTIVE, the R.THM_TRIP.DIE, the R.THM_TRIP.REGION,
    the R.THM_TRIP.T, the R.THM_TRIP_TS.TIME, every R.SEC_PART_CFG.STATE, the R.SEC_EVENT, every R.THM_DIE_M.MARGIN,
    every R.THM_DIE_STAT.LOOP, every R.CAP_DIE_LTH.I, every R.THM_STK.LEVEL, the R.FIL_WARM_STAT.STATE, the R.FIL_EVENT,
    the R.FIL_WARM_STAT.ELAPSED_S] [] [] [.therm, .boot, .sec, .free]) s t) ∧
  (∀ stack frame report s t, exec (.stackReport stack frame report) s = .next t → Within (logged [the (R.THM_STK.T stack),
    the (R.THM_STK.STALE stack), the R.THM_STK_STALE.STACKS, the (R.THM_STK.LEVEL stack), the R.THM_EVENT, every R.CMD_NOTIFY,
    the (R.HLT_EVT.COUNT 5)] [] [] [.links, .therm, .out]) s t) ∧
  (∀ stack s t, exec (.stackStale stack) s = .next t → Within (logged [the (R.THM_STK.STALE stack), the R.THM_STK_STALE.STACKS,
    the R.THM_EVENT] [] [] []) s t) ∧
  (∀ port tag s t, exec (.thermThreshSet port tag) s = .next t → Within (answered [the R.THM_TH_DIE.WARN, the R.THM_TH_DIE.THR,
    the R.THM_TH_LAYER.WARN, the R.THM_TH_LAYER.THR, the R.THM_TH_STK.WARN, the R.THM_TH_STK.THR, the R.RNG_GEN.GEN] [] [] [.ring]) s t) ∧
  (∀ port tag s t, exec (.sensorExclude port tag) s = .next t → Within (answered [every R.THM_SNS.EXCL, every R.THM_SNS.CAUSE,
    the R.THM_EVENT, every R.THM_DIE_CNT.EXCLUDES, the (R.HLT_EVT.COUNT 4)] [] [] [.therm]) s t) ∧
  (∀ port tag s t, exec (.sensorReadmit port tag) s = .next t → Within (answered [every R.THM_SNS.EXCL, every R.THM_SNS.CAUSE,
    the R.THM_EVENT, every R.THM_DIE_CNT.READMITS, every R.THM_DIE_STAT.LOST, the R.SAF_FAULT] [] [] [.therm]) s t) ∧
  (∀ port tag s t, exec (.thermRelease port tag) s = .next t → Within (answered [the R.THM_TRIP.ACTIVE, the R.SAF_FAULT] [] [] []) s t) ∧
  (∀ s t, exec .masterFrameStart s = .next t → Within (logged [the R.RNG_STAT2.SLACK, the R.RNG_EVENT] [] [] [.out, .ring]) s t) ∧
  (∀ header slots s t, exec (.ringFrame header slots) s = .next t → Within (logged [the R.RNG_ERR.HDR, the R.RNG_STAT.NO_MASTER,
    the R.RNG_STAT.MASTER_ID, the R.RNG_EVENT, the R.RNG_STAT.ID_CONFLICT, the R.SAF_FAULT, every R.CMD_NOTIFY, the R.RNG_STAT.STATE,
    the R.RNG_STAT.MASTER_ACT, the R.RNG_BUDGET.PENDING, the R.RNG_ERR.SLOT, every R.RNG_MBR_C.FLAGS, every R.RNG_MBR_C.FEED_ID,
    every R.RNG_MBR_A.BUDGET, every R.RNG_MBR_A.SLACK, every R.RNG_MBR_B.FLOOR, every R.RNG_MBR_B.CEIL, every R.RNG_MBR_D.GEN,
    the R.RNG_FEED_BROWN.MAP, the R.HLT_FEED_MAP.MAP, the (R.HLT_EVT.COUNT 3), the R.RNG_PRESENT.MAP, the R.RNG_STAT.N_MEMBERS,
    the R.RNG_DIG_MISMATCH.MAP, the R.RNG_STAT.AGREE, the R.RNG_STAT2.SLACK] [] [] [.ring, .out, .pins, .capp]) s t) ∧
  (∀ s t, exec .balanceRound s = .next t → Within (logged [the R.RNG_STAT.BROKEN, the R.RNG_EVENT, the R.RNG_PRESENT.MAP,
    the R.RNG_STAT.N_MEMBERS, the R.RNG_DIG_MISMATCH.MAP, the R.RNG_STAT.AGREE] [] [] [.ring]) s t) ∧
  (∀ s t, exec .lRingApply s = .next t → Within (answered [the R.RNG_BUDGET.PENDING, the R.CAP_RING.BUDGET, the R.RNG_BUDGET.INFORCE,
    the R.CAP_PKG_CAP.CAP, every R.CAP_DIE_CAP.CAP, the R.CAP_AVG_LIM.LIM, every R.CAP_DIE_OP.MIN, every R.CAP_DIE_OP.MAX,
    the R.CAP_MODE.MODE, the R.CAP_MODE.OP_FIX, every R.CAP_HINT.OP, every R.CAP_HINT.CEIL, the R.CAP_CLASS.ORDER,
    the R.CAP_CLASS_FLOOR.COMP, the R.CAP_CLASS_FLOOR.MEM, the R.CAP_CLASS_FLOOR.LINK, every R.CAP_DIE_FP.TARGET, the R.RNG_GEN.GEN,
    every R.CAP_OPT.V, every R.CAP_OPT.F, every R.CAP_DIE_OP.N_OP, every R.CAP_DIE_OP.TGT, every R.CAP_DIE_OP.CHG,
    every R.LPE_REF.TARGET] [] [] [.ring, .capp, .capd, .links]) s t) ∧
  (∀ s t, exec .ringJoin s = .next t → Within (logged [the R.RNG_STAT.STATE, the R.RNG_EVENT] [] [] [.ring, .pins]) s t) ∧
  (∀ s t, exec .masterTakeover s = .next t → Within (logged [the R.RNG_STAT.MASTER_ACT, the R.RNG_STAT.STATE, the R.RNG_EVENT] [] []
    [.ring, .pins]) s t) ∧
  (∀ s t, exec .masterYield s = .next t → Within (logged [the R.RNG_STAT.MASTER_ACT] [] [] [.ring]) s t) ∧
  (∀ s t, exec .noMaster s = .next t → Within (logged [the R.RNG_STAT.NO_MASTER] [] [] []) s t) ∧
  (∀ s t, exec .bypassClose s = .next t → Within (logged [the R.RNG_STAT.STATE, the R.RNG_STAT.MASTER_ACT, the R.RNG_BUDGET.PENDING,
    the R.RNG_EVENT] [] [] [.ring, .pins, .capp]) s t) ∧
  (∀ s t, exec .digestRecompute s = .next t → Within (answered [every R.RNG_DIG_OUT.DIGEST, every R.RNG_DIG_OUT.GEN] [] [] [.ring]) s t) ∧
  (∀ port tag s t, exec (.getConfigDigest port tag) s = .next t → Within (answered [every R.RNG_DIG_OUT.DIGEST, every R.RNG_DIG_OUT.GEN]
    [] [] []) s t) ∧
  (∀ port tag s t, exec (.ringForget port tag) s = .next t → Within (answered [] [] [] [.ring]) s t)

/-- The frames of 93 commands of the recovery, security, the host interface, the recorder and boot: where a command answers a next state,
every register field, table row, part of the state and byte of memory that its line does not list is as before. Memory outside the
completion queues is unchanged where .mem is not listed; StoresStayInTheirWindows says where the others store. An FW_COMMIT cut by a loss of
supply is a cold reset and has no frame. -/
def Obligations.FramesOfRecoveryHostAndBoot : Prop :=
  (∀ s t, exec .snapshot s = .next t → Within (logged [the R.HNG_EVENT, the R.HNG_SNAP_TS.TIME] [] [] [.out, .recov]) s t) ∧
  (∀ die frame taps s t, exec (.queueTaps ⟨die, frame⟩ taps) s = .next t → Within (logged [every R.CTX_STATE.N_Q,
    every R.CTX_STATE.PART, every R.CTX_STATE.SPLIT, the R.HNG_EVENT] [] [.link die] [.recov]) s t) ∧
  (∀ die s t, exec (.tapLate die) s = .next t → Within (logged [the R.HNG_EVENT, every R.CTX_STATE.N_Q, every R.CTX_STATE.PART,
    every R.CTX_STATE.SPLIT] [] [] [.recov]) s t) ∧
  (∀ stop s t, exec (.walk stop) s = .next t → Within (logged [the R.HNG_WALK.LAST_US, the R.HNG_WALK.CYCLES, the R.HNG_WALK2.MAX_US,
    the R.HNG_WALK2.ELIG, every R.CTX_STATE.STATE, every R.HNG_VICTIM.CTX, every R.HNG_VICTIM.KIND, every R.HNG_VICTIM.SEQ,
    every R.HNG_VICTIM.DETAIL, every R.HNG_VICTIM.TIME, the R.HNG_VIC_HEAD.SEQ, the R.HNG_VIC_HEAD.IDX, the R.HNG_EVENT,
    every R.CMD_NOTIFY] [] [] [.recov, .out]) s t) ∧
  (∀ die frame ctx engine fault s t, exec (.engineFault ⟨die, frame⟩ ctx engine fault) s = .next t → Within (logged [the R.HNG_EVENT,
    the (R.CTX_STATE.STATE ctx), every R.HNG_VICTIM.CTX, every R.HNG_VICTIM.KIND, every R.HNG_VICTIM.SEQ, every R.HNG_VICTIM.DETAIL,
    every R.HNG_VICTIM.TIME, the R.HNG_VIC_HEAD.SEQ, the R.HNG_VIC_HEAD.IDX, every R.CMD_NOTIFY] [] [.link die] [.recov, .out]) s t) ∧
  (∀ ctx s t, exec (.policyQueue ctx) s = .next t → Within (logged [the (R.CTX_STATE.STATE ctx)] [] [] [.recov]) s t) ∧
  (∀ s t, exec .sequenceStart s = .next t → Within (logged [the R.HNG_STAT.SEQ_BUSY, the R.HNG_STAT.CUR_CTX, every R.CTX_STATE.STATE] []
    [] [.recov, .out, .links]) s t) ∧
  (∀ who outstanding s t, exec (.fenceAck who outstanding) s = .next t → Within (logged [every R.CTX_STATE.STATE] [] [] [.links, .out,
    .sec, .recov]) s t) ∧
  (∀ who outstanding s t, exec (.drainEnd who outstanding) s = .next t → Within (logged [every R.CTX_STATE.STATE] [] [] [.sec, .out,
    .links, .recov]) s t) ∧
  (∀ who answered s t, exec (.abortAck who answered) s = .next t → Within (logged [the (R.SEC_PART_EPOCH.PREV_VALID who),
    the (R.SEC_PART_MKEY.LOADED who), the (R.SEC_PART_PUB.X who), the (R.SEC_PART_PUB.Y who), the (R.SEC_PART_PREV.PAGES who),
    the (R.SEC_PART_PREV2.INFLIGHT who), the R.HNG_EVENT, every R.CTX_STATE.STATE] [] [] [.links, .out, .sec, .recov]) s t) ∧
  (∀ data trunc s t, exec (.captureDone data trunc) s = .next t → Within (logged [every R.CTX_CAP_HDR.CTX, every R.CTX_CAP_HDR.VALID,
    every R.CTX_CAP_HDR.TRUNC, every R.CTX_CAP_HDR.PART, every R.CTX_CAP_HDR.BYTES, every R.CTX_CAP_HDR.WIN_MASK,
    every R.CTX_CAP_HDR.TIME, every R.CTX_CAP_HDR.SEQ, the R.CTX_CAP_SLOTS.HELD, every R.CTX_STATE.STATE] [] [] [.links, .out, .mem,
    .cq, .recov]) s t) ∧
  (∀ data s t, exec (.captureOverrun data) s = .next t → Within (logged [every R.CTX_CAP_HDR.CTX, every R.CTX_CAP_HDR.VALID,
    every R.CTX_CAP_HDR.TRUNC, every R.CTX_CAP_HDR.PART, every R.CTX_CAP_HDR.BYTES, every R.CTX_CAP_HDR.WIN_MASK,
    every R.CTX_CAP_HDR.TIME, every R.CTX_CAP_HDR.SEQ, the R.CTX_CAP_SLOTS.HELD, every R.CTX_STATE.STATE] [] [] [.links, .out, .mem,
    .cq, .recov]) s t) ∧
  (∀ s t, exec .clearAck s = .next t → Within (logged [] [] [] [.links, .out, .recov]) s t) ∧
  (∀ s t, exec .releaseAck s = .next t → Within (answered [every R.CTX_STATE.STATE, the R.HNG_EVENT, the R.SAF_FAULT,
    the R.HNG_STAT.SEQ_BUSY, the R.HNG_STAT.CUR_CTX, the R.CTX_CNT.RESETS, the R.CTX_OOS.OOS] [] [] [.links, .recov, .sec]) s t) ∧
  (∀ s t, exec .sequenceStuck s = .next t → Within (answered [every R.CTX_STATE.STATE, the R.HNG_EVENT, the R.SAF_FAULT,
    the R.HNG_STAT.SEQ_BUSY, the R.HNG_STAT.CUR_CTX, the R.CTX_CNT.RESETS, the R.CTX_OOS.OOS] [] [] [.recov, .sec, .links]) s t) ∧
  (∀ port tag s t, exec (.ctxReset port tag) s = .next t → Within (answered [every R.HNG_VICTIM.CTX, every R.HNG_VICTIM.KIND,
    every R.HNG_VICTIM.SEQ, every R.HNG_VICTIM.DETAIL, every R.HNG_VICTIM.TIME, the R.HNG_VIC_HEAD.SEQ, the R.HNG_VIC_HEAD.IDX,
    the R.HNG_EVENT, every R.CTX_STATE.STATE] [] [] [.recov]) s t) ∧
  (∀ port tag s t, exec (.ctxDismiss port tag) s = .next t → Within (answered [every R.CTX_STATE.STATE] [] [] [.recov]) s t) ∧
  (∀ port tag s t, exec (.returnToService port tag) s = .next t → Within (answered [the R.CTX_OOS.OOS, the R.SAF_FAULT] [] [] [.recov,
    .links]) s t) ∧
  (∀ port tag s t, exec (.capwinSet port tag) s = .next t → Within (answered [every R.CTX_CAPWIN.DIE, every R.CTX_CAPWIN.EN,
    every R.CTX_CAPWIN.OFS, every R.CTX_CAPWIN.LEN, the R.RNG_GEN.GEN] [] [] [.ring]) s t) ∧
  (∀ port tag s t, exec (.captureFree port tag) s = .next t → Within (answered [the R.CTX_CAP_SLOTS.HELD, every R.CTX_CAP_HDR.VALID] []
    [] [.mem]) s t) ∧
  (∀ s t, exec .entropyFail s = .next t → Within (logged [the R.SEC_STAT.ENT_OK, the R.SEC_EVENT, the R.SAF_FAULT, every R.CMD_NOTIFY]
    [] [] [.out]) s t) ∧
  (∀ s t, exec .drbgReseed s = .next t → Within (logged [] [] [] [.sec]) s t) ∧
  (∀ part s t, exec (.keyCommit part) s = .next t → Within (answered [the (R.SEC_PART_EPOCH.CUR part), the (R.SEC_PART_EPOCH.PREV_VALID
    part), the R.SEC_EVENT] [] [] [.sec]) s t) ∧
  (∀ part s t, exec (.keybusTimeout part) s = .next t → Within (answered [the R.SEC_EVENT, the (R.SEC_PART_MKEY.LOADED part)] [] []
    [.sec]) s t) ∧
  (∀ part pages inflight s t, exec (.prevEpochCount part pages inflight) s = .next t → Within (logged [the (R.SEC_PART_PREV.PAGES part),
    the (R.SEC_PART_PREV2.INFLIGHT part)] [] [] [.sec, .out]) s t) ∧
  (∀ part pages s t, exec (.scrubOverwriteDone part pages) s = .next t → Within (logged [the (R.SEC_PART_SCRUB.REMAIN part)] [] []
    [.sec, .host, .out]) s t) ∧
  (∀ part s t, exec (.scrubFail part) s = .next t → Within (answered [the (R.SEC_PART_CFG.STATE part), the R.SEC_EVENT, the R.SAF_FAULT]
    [] [] [.sec, .free]) s t) ∧
  (∀ port tag s t, exec (.partSet port tag) s = .next t → Within (answered [every R.SEC_PART_CFG.CONF, every R.SEC_PART_CFG.STATE,
    the R.SEC_DBG.DBG, the R.SEC_DBG.PROF, the R.SEC_EVENT, every R.SEC_PART_RES.DIES, every R.SEC_PART_RES.STACKS,
    every R.SEC_PART_QG.FIRST, every R.SEC_PART_QG.COUNT, every R.SEC_PART_LINK.PORTS, every R.SEC_PART_CFG.LEGACY_OK,
    every R.SEC_PART_CFG.MODEL_KEYS, every R.SEC_PART_EPOCH.CUR, every R.SEC_PART_EPOCH.PREV_VALID, every R.SEC_PART_PUB.X,
    every R.SEC_PART_PUB.Y, every R.SEC_PART_PREV.PAGES, every R.SEC_PART_PREV2.INFLIGHT, every R.SEC_PART_MKEY.LOADED,
    every R.SEC_PART_SCRUB.REMAIN, the R.RNG_GEN.GEN] [] [] [.sec, .free, .ring]) s t) ∧
  (∀ port tag s t, exec (.partScrub port tag) s = .next t → Within (answered [every R.SEC_PART_CFG.STATE, the R.SEC_EVENT,
    every R.SEC_PART_EPOCH.PREV_VALID, every R.SEC_PART_MKEY.LOADED, every R.SEC_PART_PUB.X, every R.SEC_PART_PUB.Y,
    every R.SEC_PART_PREV.PAGES, every R.SEC_PART_PREV2.INFLIGHT, every R.CTX_STATE.STATE] [] [] [.sec, .recov, .links]) s t) ∧
  (∀ port tag s t, exec (.portBind port tag) s = .next t → Within (answered [every R.SEC_PORT.AUTH, every R.SEC_PORT.PART,
    the R.RNG_GEN.GEN] [] [] [.sec, .ring]) s t) ∧
  (∀ port tag s t, exec (.spdmMsg port tag) s = .next t → Within (answered [every R.SEC_PART_CFG.STATE, the R.SEC_EVENT] [] [] [.free,
    .sec, .mem]) s t) ∧
  (∀ port tag s t, exec (.keyRelease port tag) s = .next t → Within (answered [] [] [] [.sec]) s t) ∧
  (∀ port tag s t, exec (.keyRotate port tag) s = .next t → Within (answered [] [] [] [.sec, .free]) s t) ∧
  (∀ port tag s t, exec (.debugSet port tag) s = .next t → Within (answered [the R.SEC_DBG.DBG, the R.SEC_DBG.PROF,
    every R.SEC_PART_CFG.STATE, the R.SEC_EVENT, the R.RNG_GEN.GEN] [] [] [.ring]) s t) ∧
  (∀ port packet s t, exec (.commandFetch port packet) s = .next t → Within (answered [every R.CMD_SQ_HEAD.HEAD, every R.CMD_CNT.BUSY,
    every R.CMD_CNT.REJ, every R.CMD_VIOL.REPEAT, every R.CMD_VIOL.OFS, every R.CMD_VIOL.PORT, every R.CMD_VIOL.KIND,
    every R.CMD_VIOL.OPCODE, every R.CMD_VIOL.STATUS, every R.CMD_VIOL.TIME, the R.CMD_VIOL_STAT.COUNT, the R.CMD_VIOL_STAT.LOST] [] []
    []) s t) ∧
  (∀ port value s t, exec (.cmdSqTailWrite port value) s = .next t → Within (logged [the (R.CMD_SQ_TAIL.TAIL port),
    every R.CMD_VIOL.REPEAT, every R.CMD_VIOL.OFS, every R.CMD_VIOL.PORT, every R.CMD_VIOL.KIND, every R.CMD_VIOL.OPCODE,
    every R.CMD_VIOL.STATUS, every R.CMD_VIOL.TIME, the R.CMD_VIOL_STAT.COUNT, the R.CMD_VIOL_STAT.LOST, every R.CMD_NOTIFY] [] []
    [.pins, .resp, .out]) s t) ∧
  (∀ port value s t, exec (.cmdCqHeadWrite port value) s = .next t → Within (logged [the (R.CMD_CQ_HEAD.HEAD port),
    every R.CMD_VIOL.REPEAT, every R.CMD_VIOL.OFS, every R.CMD_VIOL.PORT, every R.CMD_VIOL.KIND, every R.CMD_VIOL.OPCODE,
    every R.CMD_VIOL.STATUS, every R.CMD_VIOL.TIME, the R.CMD_VIOL_STAT.COUNT, the R.CMD_VIOL_STAT.LOST, every R.CMD_NOTIFY] [] []
    [.pins, .resp, .out]) s t) ∧
  (∀ port tag s t, exec (.negotiate port tag) s = .next t → Within (answered [every R.CMD_VER.CUR] [] [] []) s t) ∧
  (∀ port tag s t, exec (.violClear port tag) s = .next t → Within (answered [every R.CMD_VIOL.OFS, every R.CMD_VIOL.PORT,
    every R.CMD_VIOL.KIND, every R.CMD_VIOL.OPCODE, every R.CMD_VIOL.STATUS, every R.CMD_VIOL.REPEAT, every R.CMD_VIOL.TIME,
    the R.CMD_VIOL_STAT.COUNT, the R.CMD_VIOL_STAT.LOST] [] [] []) s t) ∧
  (∀ port tag s t, exec (.lockForce port tag) s = .next t → Within (answered [every R.LCK.OWNER] [] [] []) s t) ∧
  (∀ port offset isWrite bytes value s t, exec (.accessViolation port offset isWrite bytes value) s = .next t → Within (logged
    [every R.CMD_VIOL.REPEAT, every R.CMD_VIOL.OFS, every R.CMD_VIOL.PORT, every R.CMD_VIOL.KIND, every R.CMD_VIOL.OPCODE,
    every R.CMD_VIOL.STATUS, every R.CMD_VIOL.TIME, the R.CMD_VIOL_STAT.COUNT, the R.CMD_VIOL_STAT.LOST, every R.CMD_NOTIFY] [] []
    [.resp, .pins, .out]) s t) ∧
  (∀ port offset s t, exec (.highWordLatch port offset) s = .next t → Within (logged [every R.CMD_VIOL.REPEAT, every R.CMD_VIOL.OFS,
    every R.CMD_VIOL.PORT, every R.CMD_VIOL.KIND, every R.CMD_VIOL.OPCODE, every R.CMD_VIOL.STATUS, every R.CMD_VIOL.TIME,
    the R.CMD_VIOL_STAT.COUNT, the R.CMD_VIOL_STAT.LOST, every R.CMD_NOTIFY, every R.LCK.OWNER] [] [] [.pins, .resp, .out, .host]) s t) ∧
  (∀ port value s t, exec (.mbxSend port value) s = .next t → Within (logged [every R.CMD_VIOL.REPEAT, every R.CMD_VIOL.OFS,
    every R.CMD_VIOL.PORT, every R.CMD_VIOL.KIND, every R.CMD_VIOL.OPCODE, every R.CMD_VIOL.STATUS, every R.CMD_VIOL.TIME,
    the R.CMD_VIOL_STAT.COUNT, the R.CMD_VIOL_STAT.LOST, every R.CMD_NOTIFY, every R.MBX_EVENT] [] [] [.pins, .resp, .out, .host, .i3c])
    s t) ∧
  (∀ dst s t, exec (.mbxForward dst) s = .next t → Within (logged [the (R.MBX_EVENT dst), the (R.CMD_NOTIFY dst)] [] [] [.host, .out,
    .pins, .i3c]) s t) ∧
  (∀ port s t, exec (.mbxRecv port) s = .next t → Within (logged [] [] [] [.pins, .resp, .host]) s t) ∧
  (∀ port value s t, exec (.notifyEnableWrite port value) s = .next t → Within (logged [the (R.CMD_NOTIFY_EN.EN port)] [] [] [.pins,
    .resp, .out]) s t) ∧
  (∀ lock ports s t, exec (.lockRead lock ports) s = .next t → Within (logged [the (R.LCK.OWNER lock)] [] [] [.resp, .pins]) s t) ∧
  (∀ port lock value s t, exec (.lockRelease port lock value) s = .next t → Within (logged [the (R.LCK.OWNER lock),
    every R.CMD_VIOL.REPEAT, every R.CMD_VIOL.OFS, every R.CMD_VIOL.PORT, every R.CMD_VIOL.KIND, every R.CMD_VIOL.OPCODE,
    every R.CMD_VIOL.STATUS, every R.CMD_VIOL.TIME, the R.CMD_VIOL_STAT.COUNT, the R.CMD_VIOL_STAT.LOST, every R.CMD_NOTIFY] [] []
    [.pins, .resp, .out]) s t) ∧
  (∀ words s t, exec (.i3cPrivateRead words) s = .next t → Within (logged [every R.CMD_VIOL.REPEAT, every R.CMD_VIOL.OFS,
    every R.CMD_VIOL.PORT, every R.CMD_VIOL.KIND, every R.CMD_VIOL.OPCODE, every R.CMD_VIOL.STATUS, every R.CMD_VIOL.TIME,
    the R.CMD_VIOL_STAT.COUNT, the R.CMD_VIOL_STAT.LOST, every R.CMD_NOTIFY, every R.LCK.OWNER] [] [] [.out, .pins, .resp, .host, .i3c])
    s t) ∧
  (∀ address s t, exec (.entdaa address) s = .next t → Within (logged [] [] [] [.out, .i3c]) s t) ∧
  (∀ s t, exec .rstdaa s = .next t → Within (logged [] [] [] [.i3c]) s t) ∧
  (∀ events s t, exec (.enec events) s = .next t → Within (logged [] [] [] [.out, .i3c]) s t) ∧
  (∀ events s t, exec (.disec events) s = .next t → Within (logged [] [] [] [.i3c]) s t) ∧
  (∀ length s t, exec (.setmwl length) s = .next t → Within (logged [] [] [] [.i3c]) s t) ∧
  (∀ length s t, exec (.setmrl length) s = .next t → Within (logged [] [] [] [.i3c]) s t) ∧
  (∀ s t, exec .getpid s = .next t → Within (logged [] [] [] [.out]) s t) ∧
  (∀ s t, exec .getbcr s = .next t → Within (logged [] [] [] [.out]) s t) ∧
  (∀ s t, exec .getdcr s = .next t → Within (logged [] [] [] [.out]) s t) ∧
  (∀ s t, exec .getstatus s = .next t → Within (logged [] [] [] [.out]) s t) ∧
  (∀ s t, exec .getmwl s = .next t → Within (logged [] [] [] [.out]) s t) ∧
  (∀ s t, exec .getmrl s = .next t → Within (logged [] [] [] [.out]) s t) ∧
  (∀ s t, exec .recordWrite s = .next t → Within (logged [the R.REC_SEQ.NEXT, the R.REC_STAT.COUNT, the R.REC_STAT.FULL,
    every R.SEC_PART_CFG.CONF, every R.SEC_PART_RES.DIES] [] [] []) s t) ∧
  (∀ port offset s t, exec (.recordReadLatch port offset) s = .next t → Within (logged [every R.CMD_VIOL.REPEAT, every R.CMD_VIOL.OFS,
    every R.CMD_VIOL.PORT, every R.CMD_VIOL.KIND, every R.CMD_VIOL.OPCODE, every R.CMD_VIOL.STATUS, every R.CMD_VIOL.TIME,
    the R.CMD_VIOL_STAT.COUNT, the R.CMD_VIOL_STAT.LOST, every R.CMD_NOTIFY, every R.LCK.OWNER] [] [] [.pins, .resp, .out, .host]) s t) ∧
  (∀ trigger s t, exec (.watchTrigger trigger) s = .next t → Within (logged [the (R.REC_TRIG.TRUE trigger)] [] [] []) s t) ∧
  (∀ s t, exec .healthCompute s = .next t → Within (logged [the R.HLT_FEED_MAP.MAP, the R.HLT_SCORE.SCORE, the R.HLT_SCORE.SEQ,
    the R.HLT_TS.TIME, the (R.HLT_EVT.COUNT 4), every R.HLT_D.D, every R.HLT_TERM.S, every R.HLT_TERM.T, the R.HLT_ADVICE.SCORE,
    the R.HLT_ADVICE.CONTRIB, the R.HLT_ADVICE.SHARED, the R.HLT_ADVICE.COUNT, the R.HLT_ADVICE_TS.TIME, the R.HLT_CFG.ARMED,
    every R.CMD_NOTIFY] [] [] [.out]) s t) ∧
  (∀ port tag s t, exec (.recTrigSet port tag) s = .next t → Within (answered [every R.REC_TRIG.OFS, every R.REC_TRIG.EN,
    every R.REC_TRIG.OP, every R.REC_TRIG.MASK, every R.REC_TRIG.VALUE, every R.REC_TRIG.TRUE, the R.RNG_GEN.GEN] [] [] [.ring]) s t) ∧
  (∀ port tag s t, exec (.recSnapSet port tag) s = .next t → Within (answered [every R.REC_SNAP.OFS, every R.REC_SNAP.EN,
    every R.REC_SNAP.GROUPS, the R.RNG_GEN.GEN] [] [] [.ring]) s t) ∧
  (∀ port tag s t, exec (.recClear port tag) s = .next t → Within (answered [the R.REC_STAT.COUNT, the R.REC_STAT.FULL,
    the R.REC_STAT.CLEARING] [] [] []) s t) ∧
  (∀ s t, exec .recClearDone s = .next t → Within (answered [the R.REC_STAT.CLEARING, the R.REC_SEQ.NEXT, the R.REC_STAT.COUNT,
    the R.REC_STAT.FULL, every R.SEC_PART_CFG.CONF, every R.SEC_PART_RES.DIES] [] [] []) s t) ∧
  (∀ port tag s t, exec (.healthSet port tag) s = .next t → Within (answered [the R.HLT_CFG.TH, the R.HLT_CFG.HYST, the R.HLT_THERM.M0,
    every R.HLT_CONTRIB.GAIN, every R.HLT_CONTRIB.DECAY, every R.HLT_CONTRIB.WEIGHT, the R.RNG_GEN.GEN] [] [] [.ring]) s t) ∧
  (∀ s t, exec .supplyGood s = .next t → Within (logged [the R.BOOT_STAT.STAGE] [] [] [.pins, .clk, .boot]) s t) ∧
  (∀ sfdp s t, exec (.bootStageTimeout sfdp) s = .next t → Within (answered [the R.BOOT_STAT.CAUSE, the R.SAF_FAULT,
    the R.HNG_STAT.SEQ_BUSY, the R.HNG_STAT.CUR_CTX, every R.CTX_STATE.STATE, the R.RNG_STAT.STATE, the R.RNG_STAT.MASTER_ACT,
    the R.RNG_BUDGET.PENDING, the R.RNG_EVENT, the R.BOOT_STAT.STAGE, the R.BOOT_STAT.GSTATE, the R.BOOT_GSTATE.BUSY,
    the R.FIL_WARM_STAT.STATE, every R.TOK_DIE_STAT.ZERO, every R.FIL_DIE_STAT.EPISODE, every R.FIL_DIE_STAT.WARM,
    every R.PST_PH_DUTY.TRIM, every R.LPE_STAT.STATE, every R.LPE_STAT.CAUSE, every R.PST_RAIL_STAT.BRAKING, every R.ITN_DIE_STAT.PE,
    every R.PST_PH_STAT.STATE, every R.ITN_DRP_STAT.FIRED, every R.ITN_DIE_STAT.CUT, every R.ITN_DIE_STAT.STRETCH,
    every R.CAP_DIE_THR.ACTIVE, the R.CAP_THR_ACT.ACTIVE, every R.CAP_THR_START.TIME, every R.CAP_DIE_BUD.BUDGET,
    every R.CAP_DIE_BUD.BIND, every R.PST_PMB_STAT.NO_RESP, the R.PST_EVENT] [] [] [.boot, .recov, .links, .pins, .ring, .capp, .tok,
    .phases, .rails, .itn, .test, .estd, .capd, .free]) s t) ∧
  (∀ s t, exec .accResetEnd s = .next t → Within (logged [every R.SEC_PART_SCRUB.REMAIN, every R.ITN_DIE_STAT.EMPTY,
    every R.CAP_DIE_BUD.BUDGET, every R.CAP_DIE_BUD.BIND, every R.CAP_DIE_THR.ACTIVE, the R.CAP_THR_ACT.ACTIVE,
    every R.CAP_THR_START.TIME] [] [] [.boot, .pins, .sec, .out, .free, .tok, .links, .capd, .ring]) s t) ∧
  (∀ die s t, exec (.dieResetEnd die) s = .next t → Within (logged [every R.SEC_PART_SCRUB.REMAIN, the (R.ITN_DIE_STAT.EMPTY die),
    the (R.CAP_DIE_BUD.BUDGET die), the (R.CAP_DIE_BUD.BIND die), the (R.CAP_DIE_THR.ACTIVE die), the R.CAP_THR_ACT.ACTIVE,
    every R.CAP_THR_START.TIME] [] [.tok die, .link die, .cap die] [.boot, .free, .out, .ring]) s t) ∧
  (∀ die s t, exec (.g2Abandoned die) s = .next t → Within (logged [the R.BOOT_GSTATE.REQ, the R.PST_EVENT,
    every R.PST_RAIL_STAT.BRAKING, every R.PST_PH_DUTY.TRIM, every R.PST_PH_STAT.STATE, the R.BOOT_STAT.GSTATE, the R.BOOT_GSTATE.BUSY]
    [] [] [.pins, .out, .phases, .rails, .boot]) s t) ∧
  (∀ s t, exec .powerDown s = .next t → Within (answered [the R.BOOT_STAT.CAUSE, the R.BOOT_STAT.GSTATE, the R.BOOT_GSTATE.BUSY,
    the R.FIL_WARM_STAT.STATE, the R.BOOT_STAT.STAGE, every R.TOK_DIE_STAT.ZERO, every R.FIL_DIE_STAT.EPISODE,
    every R.FIL_DIE_STAT.WARM, every R.PST_PH_DUTY.TRIM, every R.LPE_STAT.STATE, every R.LPE_STAT.CAUSE, every R.PST_RAIL_STAT.BRAKING,
    every R.ITN_DIE_STAT.PE, every R.PST_PH_STAT.STATE, every R.ITN_DRP_STAT.FIRED, every R.ITN_DIE_STAT.CUT,
    every R.ITN_DIE_STAT.STRETCH, every R.CAP_DIE_THR.ACTIVE, the R.CAP_THR_ACT.ACTIVE, every R.CAP_THR_START.TIME,
    every R.CAP_DIE_BUD.BUDGET, every R.CAP_DIE_BUD.BIND, every R.PST_PMB_STAT.NO_RESP, the R.PST_EVENT] [] [] [.pins, .boot, .tok,
    .phases, .rails, .itn, .links, .ring, .test, .estd, .capd, .free]) s t) ∧
  (∀ s t, exec .autoRestart s = .next t → Within (logged [the R.BOOT_STAT.CAUSE, the R.BOOT_STAT.STAGE, every R.PST_PMB_STAT.NO_RESP,
    the R.PST_EVENT] [] [] [.pins, .boot, .free, .out]) s t) ∧
  (∀ s t, exec .lockstepMismatch s = .next t → Within (logged [the R.SAF_EVENT, the R.SAF_CNT.LOCKSTEP, the R.BOOT_STAT.AUTOPILOT,
    the R.BOOT_CNT.FW_RESTARTS, the R.CAP_RING.BUDGET, the R.BOOT_GSTATE.BUSY, the R.CAP_IIN_EFF.IIN, the R.CMD_GEN.WARM,
    the R.BOOT_STAT.CAUSE, the R.RNG_STAT.STATE, the R.RNG_STAT.MASTER_ACT, the R.RNG_BUDGET.PENDING, the R.RNG_EVENT,
    every R.SEC_PART_EPOCH.PREV_VALID, every R.SEC_PART_MKEY.LOADED, every R.SEC_PART_PUB.X, every R.SEC_PART_PUB.Y,
    every R.SEC_PART_PREV.PAGES, every R.SEC_PART_PREV2.INFLIGHT] [.gov] [] [.boot, .therm, .ring, .pins, .capp, .itn, .sec, .host,
    .test, .estp, .mem, .cq, .recov, .out]) s t) ∧
  (∀ s t, exec .watchdogExpire s = .next t → Within (logged [the R.SAF_EVENT, the R.BOOT_STAT.AUTOPILOT, the R.BOOT_CNT.FW_RESTARTS,
    the R.CAP_RING.BUDGET, the R.BOOT_GSTATE.BUSY, the R.CAP_IIN_EFF.IIN, the R.CMD_GEN.WARM, the R.BOOT_STAT.CAUSE,
    the R.RNG_STAT.STATE, the R.RNG_STAT.MASTER_ACT, the R.RNG_BUDGET.PENDING, the R.RNG_EVENT, every R.SEC_PART_EPOCH.PREV_VALID,
    every R.SEC_PART_MKEY.LOADED, every R.SEC_PART_PUB.X, every R.SEC_PART_PUB.Y, every R.SEC_PART_PREV.PAGES,
    every R.SEC_PART_PREV2.INFLIGHT] [.gov] [] [.boot, .therm, .ring, .pins, .capp, .itn, .sec, .host, .test, .estp, .mem, .cq, .recov,
    .out]) s t) ∧
  (∀ s t, exec .sramUe s = .next t → Within (logged [the R.SAF_EVENT, the R.BOOT_STAT.AUTOPILOT, the R.BOOT_CNT.FW_RESTARTS,
    the R.CAP_RING.BUDGET, the R.BOOT_GSTATE.BUSY, the R.CAP_IIN_EFF.IIN, the R.CMD_GEN.WARM, the R.BOOT_STAT.CAUSE,
    the R.RNG_STAT.STATE, the R.RNG_STAT.MASTER_ACT, the R.RNG_BUDGET.PENDING, the R.RNG_EVENT, every R.SEC_PART_EPOCH.PREV_VALID,
    every R.SEC_PART_MKEY.LOADED, every R.SEC_PART_PUB.X, every R.SEC_PART_PUB.Y, every R.SEC_PART_PREV.PAGES,
    every R.SEC_PART_PREV2.INFLIGHT] [.gov] [] [.boot, .therm, .ring, .pins, .capp, .itn, .sec, .host, .test, .estp, .mem, .cq, .recov,
    .out]) s t) ∧
  (∀ count s t, exec (.sramCe count) s = .next t → Within (logged [the R.SAF_EVENT, the R.SAF_CNT.SRAM_CE] [] [] []) s t) ∧
  (∀ s t, exec .fwRequest s = .next t → Within (logged [the R.BOOT_STAT.AUTOPILOT, the R.BOOT_CNT.FW_RESTARTS, the R.SAF_EVENT,
    the R.CAP_RING.BUDGET, the R.BOOT_GSTATE.BUSY, the R.CAP_IIN_EFF.IIN, the R.CMD_GEN.WARM, the R.BOOT_STAT.CAUSE,
    the R.RNG_STAT.STATE, the R.RNG_STAT.MASTER_ACT, the R.RNG_BUDGET.PENDING, the R.RNG_EVENT, every R.SEC_PART_EPOCH.PREV_VALID,
    every R.SEC_PART_MKEY.LOADED, every R.SEC_PART_PUB.X, every R.SEC_PART_PUB.Y, every R.SEC_PART_PREV.PAGES,
    every R.SEC_PART_PREV2.INFLIGHT] [.gov] [] [.boot, .therm, .ring, .pins, .capp, .itn, .sec, .host, .test, .estp, .mem, .cq, .recov,
    .out]) s t) ∧
  (∀ upsets s t, exec (.fwRestartDone upsets) s = .next t → Within (answered [the R.BOOT_STAT.CAUSE, the R.BOOT_STAT.AUTOPILOT,
    the R.CAP_RING.BUDGET, the R.BOOT_GSTATE.BUSY, the R.CAP_IIN_EFF.IIN, the R.CMD_GEN.WARM, the R.SAF_EVENT, the R.RNG_STAT.STATE,
    the R.RNG_STAT.MASTER_ACT, the R.RNG_BUDGET.PENDING, the R.RNG_EVENT, every R.SEC_PART_EPOCH.PREV_VALID,
    every R.SEC_PART_MKEY.LOADED, every R.SEC_PART_PUB.X, every R.SEC_PART_PUB.Y, every R.SEC_PART_PREV.PAGES,
    every R.SEC_PART_PREV2.INFLIGHT] [.gov] [] [.mem, .boot, .therm, .ring, .pins, .capp, .itn, .sec, .test, .estp, .recov]) s t) ∧
  (∀ kind s t, exec (.svnAdv kind) s = .next t → Within (logged [the R.BOOT_SVN.FW_FUSED, the R.BOOT_SVN.CFG_FUSED,
    every R.SEC_PART_CFG.STATE, the R.SEC_EVENT] [] [] []) s t) ∧
  (∀ upsets s t, exec (.configScan upsets) s = .next t → Within (logged [the R.SAF_SCAN.LAST_BAD, the R.SAF_EVENT, every scanField,
    the R.SAF_FAULT, every R.CMD_NOTIFY, every R.CAP_DIE_BUD.BUDGET, every R.CAP_DIE_BUD.BIND, every R.CAP_DIE_THR.ACTIVE,
    the R.CAP_THR_ACT.ACTIVE, every R.CAP_THR_START.TIME] [] [] [.boot, .out, .capd, .links, .ring]) s t) ∧
  (∀ port tag failed s t, exec (.fwOpen port tag failed) s = .next t → Within (answered [] [] [] [.mem, .boot]) s t) ∧
  (∀ port tag failed s t, exec (.fwWrite port tag failed) s = .next t → Within (answered [] [] [] [.boot, .mem, .free]) s t) ∧
  (∀ port tag write s t, (∀ c n, write ≠ .cut c n) → exec (.fwCommit port tag write) s = .next t → Within (answered [] [] [] [.boot,
    .mem]) s t) ∧
  (∀ port tag s t, exec (.fwRestart port tag) s = .next t → Within (answered [the R.BOOT_STAT.AUTOPILOT, the R.BOOT_CNT.FW_RESTARTS,
    the R.SAF_EVENT, the R.CAP_RING.BUDGET, the R.BOOT_GSTATE.BUSY, the R.CAP_IIN_EFF.IIN, the R.CMD_GEN.WARM, the R.BOOT_STAT.CAUSE,
    the R.RNG_STAT.STATE, the R.RNG_STAT.MASTER_ACT, the R.RNG_BUDGET.PENDING, the R.RNG_EVENT, every R.SEC_PART_EPOCH.PREV_VALID,
    every R.SEC_PART_MKEY.LOADED, every R.SEC_PART_PUB.X, every R.SEC_PART_PUB.Y, every R.SEC_PART_PREV.PAGES,
    every R.SEC_PART_PREV2.INFLIGHT, the R.SAF_FAULT, the R.BOOT_STAT.STAGE] [.gov] [] [.boot, .therm, .ring, .pins, .capp, .itn, .sec,
    .test, .estp, .mem, .recov]) s t) ∧
  (∀ die frame s t, exec (.selfRefreshReport ⟨die, frame⟩) s = .next t → Within (answered [every R.TOK_DIE_STAT.ZERO,
    every R.FIL_DIE_STAT.EPISODE, every R.FIL_DIE_STAT.WARM, every R.PST_PH_DUTY.TRIM, every R.LPE_STAT.STATE, every R.LPE_STAT.CAUSE,
    every R.PST_RAIL_STAT.BRAKING, every R.ITN_DIE_STAT.PE, every R.PST_PH_STAT.STATE, every R.ITN_DRP_STAT.FIRED,
    every R.ITN_DIE_STAT.CUT, every R.ITN_DIE_STAT.STRETCH, every R.CAP_DIE_THR.ACTIVE, the R.CAP_THR_ACT.ACTIVE,
    every R.CAP_THR_START.TIME, every R.CAP_DIE_BUD.BUDGET, every R.CAP_DIE_BUD.BIND, the R.EST_LINK_TRIM.GAIN, the R.EST_LINK_OFS.OFS,
    the R.HNG_STAT.SEQ_BUSY, the R.HNG_STAT.CUR_CTX, the R.SAF_FAULT, the R.BOOT_STAT.GSTATE, the R.BOOT_GSTATE.BUSY] [.acc] [] [.boot,
    .pins, .tok, .phases, .rails, .itn, .links, .ring, .test, .estd, .capd, .estp, .recov, .sec]) s t) ∧
  (∀ part order s t, exec (.keyBusAcknowledgement part order) s = .next t → Within (answered [the (R.SEC_PART_MKEY.LOADED part),
    the R.SEC_EVENT, the (R.SEC_PART_EPOCH.PREV_VALID part), the (R.SEC_PART_SCRUB.REMAIN part), every R.CTX_STATE.STATE,
    every R.CTX_STATE.N_Q, every R.CTX_STATE.PART, every R.CTX_STATE.SPLIT, the R.SAF_FAULT, the (R.SEC_PART_CFG.STATE part),
    the (R.SEC_PART_CFG.CONF part), the (R.SEC_PART_CFG.LEGACY_OK part), the (R.SEC_PART_CFG.MODEL_KEYS part), the (R.SEC_PART_RES.DIES
    part), the (R.SEC_PART_RES.STACKS part), the (R.SEC_PART_QG.FIRST part), the (R.SEC_PART_QG.COUNT part), the (R.SEC_PART_LINK.PORTS
    part), the (R.SEC_PART_EPOCH.CUR part), the (R.SEC_PART_PREV.PAGES part), the (R.SEC_PART_PREV2.INFLIGHT part),
    the (R.SEC_PART_PUB.X part), the (R.SEC_PART_PUB.Y part), the R.RNG_GEN.GEN] [] [] [.sec, .links, .free, .recov, .ring]) s t) ∧
  (∀ s t, exec .entropySourceRestart s = .next t → Within (logged [the R.SEC_STAT.ENT_OK] [] [] []) s t) ∧
  (∀ die frame count s t, exec (.correctableErrorReport ⟨die, frame⟩ count) s = .next t → Within (logged [the (R.HLT_EVT.COUNT 5)] []
    [.link die] []) s t)
end

