-- ==== Sys2Proof/Laws/Sparse.lean ====
section
/-! SUPPORT. Sys2Proof/Laws/Sparse.lean: reading after writing a sparse table, and the canonical form kept. -/

namespace Sys2Proof.Machine

variable {α : Type}

theorem sget_serase_ne (d : α) {j k : Nat} (h : j ≠ k) (l : List (Nat × α)) : sget d k (serase j l) = sget d k l := by
  induction l with
  | nil => rfl
  | cons e t ih =>
    obtain ⟨a, v⟩ := e
    rw [serase] at ih ⊢
    by_cases ha : a = j
    · subst ha
      rw [List.filter_cons_of_neg (by simp), ih]
      simp [sget, h]
    · rw [List.filter_cons_of_pos (by simpa using ha)]
      simp only [sget, ih]

theorem sget_serase_self (d : α) (k : Nat) (l : List (Nat × α)) : sget d k (serase k l) = d := by
  induction l with
  | nil => rfl
  | cons e t ih =>
    obtain ⟨a, v⟩ := e
    rw [serase] at ih ⊢
    by_cases ha : a = k
    · rw [List.filter_cons_of_neg (by simpa using ha), ih]
    · rw [List.filter_cons_of_pos (by simpa using ha)]
      simp only [sget, ih, ha, if_false]

theorem sget_sins_ne (d v : α) {j k : Nat} (h : j ≠ k) (l : List (Nat × α)) : sget d k (sins j v l) = sget d k l := by
  induction l with
  | nil => simp [sins, sget, h]
  | cons e t ih =>
    obtain ⟨a, w⟩ := e
    simp only [sins]
    split
    · simp only [sget, ih]
    · simp [sget, h]

theorem sget_sins_self (d v : α) (k : Nat) (l : List (Nat × α)) (h : ∀ e ∈ l, e.1 ≠ k) : sget d k (sins k v l) = v := by
  induction l with
  | nil => simp [sins, sget]
  | cons e t ih =>
    obtain ⟨a, w⟩ := e
    simp only [sins]
    split
    · have ha : a ≠ k := h (a, w) (by simp)
      simp only [sget, ha, if_false]
      exact ih fun x hx => h x (by simp [hx])
    · simp [sget]

theorem serase_keys (k : Nat) (l : List (Nat × α)) : ∀ e ∈ serase k l, e.1 ≠ k := by
  intro e he
  simpa using (List.mem_filter.1 he).2

/-- Reading another key after a write. -/
theorem sget_sset_ne [DecidableEq α] (d d' v : α) {j k : Nat} (h : j ≠ k) (l : List (Nat × α)) :
    sget d' k (sset d j v l) = sget d' k l := by
  unfold sset
  split
  · exact sget_serase_ne d' h l
  · rw [sget_sins_ne d' v h, sget_serase_ne d' h]

/-- Reading the key that was written. -/
@[simp] theorem sget_sset_self [DecidableEq α] (d v : α) (k : Nat) (l : List (Nat × α)) : sget d k (sset d k v l) = v := by
  unfold sset
  split
  · rename_i h; rw [sget_serase_self, h]
  · exact sget_sins_self d v k _ (serase_keys k l)

theorem sget_sset [DecidableEq α] (d v : α) (j k : Nat) (l : List (Nat × α)) :
    sget d k (sset d j v l) = if j = k then v else sget d k l := by
  split
  · subst_vars; exact sget_sset_self ..
  · exact sget_sset_ne _ _ _ ‹_› _

/-! The canonical form. -/

theorem risesFrom_le {lo lo' : Nat} (h : lo' ≤ lo) {l : List (Nat × α)} (hl : risesFrom lo l = true) :
    risesFrom lo' l = true := by
  cases l with
  | nil => rfl
  | cons e t =>
    simp only [risesFrom, Bool.and_eq_true, decide_eq_true_eq] at hl ⊢
    exact ⟨by omega, hl.2⟩

theorem risesFrom_filter (p : Nat × α → Bool) {lo : Nat} {l : List (Nat × α)} (h : risesFrom lo l = true) :
    risesFrom lo (l.filter p) = true := by
  induction l generalizing lo with
  | nil => rfl
  | cons e t ih =>
    obtain ⟨a, v⟩ := e
    simp only [risesFrom, Bool.and_eq_true, decide_eq_true_eq] at h
    by_cases hp : p (a, v)
    · rw [List.filter_cons_of_pos hp]
      simp only [risesFrom, Bool.and_eq_true, decide_eq_true_eq]
      exact ⟨h.1, ih h.2⟩
    · rw [List.filter_cons_of_neg hp]
      exact risesFrom_le (by omega) (ih h.2)

theorem risesFrom_sins (v : α) {k lo : Nat} (hk : lo ≤ k) {l : List (Nat × α)} (h : risesFrom lo l = true)
    (hl : ∀ e ∈ l, e.1 ≠ k) : risesFrom lo (sins k v l) = true := by
  induction l generalizing lo with
  | nil => simp [sins, risesFrom, hk]
  | cons e t ih =>
    obtain ⟨a, w⟩ := e
    simp only [risesFrom, Bool.and_eq_true, decide_eq_true_eq] at h
    simp only [sins]
    have ha : a ≠ k := hl (a, w) (by simp)
    split
    · simp only [risesFrom, Bool.and_eq_true, decide_eq_true_eq]
      exact ⟨h.1, ih (by omega) h.2 fun x hx => hl x (by simp [hx])⟩
    · simp only [risesFrom, Bool.and_eq_true, decide_eq_true_eq]
      exact ⟨hk, by omega, h.2⟩

/-- A write keeps the keys strictly rising. -/
theorem risesFrom_sset [DecidableEq α] (d v : α) (k : Nat) {l : List (Nat × α)} (h : risesFrom 0 l = true) :
    risesFrom 0 (sset d k v l) = true := by
  unfold sset
  split
  · exact risesFrom_filter _ h
  · exact risesFrom_sins v (Nat.zero_le k) (risesFrom_filter _ h) (serase_keys k l)

theorem mem_sins (v : α) (k : Nat) (l : List (Nat × α)) {e : Nat × α} (h : e ∈ sins k v l) : e = (k, v) ∨ e ∈ l := by
  induction l with
  | nil => simpa [sins] using h
  | cons x t ih =>
    obtain ⟨a, w⟩ := x
    simp only [sins] at h
    split at h
    · rcases List.mem_cons.1 h with h | h
      · exact .inr (by simp [h])
      · rcases ih h with h | h
        · exact .inl h
        · exact .inr (by simp [h])
    · simpa using h

/-- A write keeps the canonical form. -/
theorem sparseWf_sset [DecidableEq α] (d : Nat → α) (k : Nat) (v : α) {l : List (Nat × α)} (h : sparseWf d l = true) :
    sparseWf d (sset (d k) k v l) = true := by
  simp only [sparseWf, Bool.and_eq_true, List.all_eq_true, decide_eq_true_eq] at h ⊢
  refine ⟨risesFrom_sset _ _ _ h.1, fun e he => ?_⟩
  unfold sset at he
  split at he
  · exact h.2 e (List.mem_of_mem_filter he)
  · rcases mem_sins v k _ he with rfl | he
    · assumption
    · exact h.2 e (List.mem_of_mem_filter he)

/-- Removing entries keeps the canonical form. -/
theorem sparseWf_filter [DecidableEq α] (d : Nat → α) (p : Nat × α → Bool) {l : List (Nat × α)} (h : sparseWf d l = true) :
    sparseWf d (l.filter p) = true := by
  simp only [sparseWf, Bool.and_eq_true, List.all_eq_true, decide_eq_true_eq] at h ⊢
  exact ⟨risesFrom_filter p h.1, fun e he => h.2 e (List.mem_of_mem_filter he)⟩

/-- Where no entry is removed that a key reads, the key reads as before. -/
theorem sget_filter (d : α) (k : Nat) (p : Nat × α → Bool) (l : List (Nat × α)) (h : ∀ v, p (k, v) = true) :
    sget d k (l.filter p) = sget d k l := by
  induction l with
  | nil => rfl
  | cons e t ih =>
    obtain ⟨a, v⟩ := e
    by_cases hp : p (a, v)
    · rw [List.filter_cons_of_pos hp]; simp only [sget, ih]
    · rw [List.filter_cons_of_neg hp, ih]
      have : a ≠ k := by rintro rfl; exact hp (h v)
      simp [sget, this]

end Sys2Proof.Machine
end

