-- ==== Sys2Proof/Laws/Foot.lean ====
section
/-! SUPPORT. Sys2Proof/Laws/Foot.lean: what the primitive operations may change (`Within`), and footprints that
name an index or leave it open. -/

set_option linter.unusedTactic false
set_option linter.unreachableTactic false

namespace Sys2Proof.Machine

/-- A field of a family that a footprint names. -/
def Print.has (p : Print) (f : Field) : Prop := ∃ φ ∈ p.regs, ∃ i j, φ i j = f

/-- One footprint lies in another. -/
structure Print.Sub (a b : Print) : Prop where
  regs : ∀ φ ∈ a.regs, ∀ i j, b.has (φ i j)
  classes : ∀ c ∈ a.classes, c ∈ b.classes
  cells : ∀ c ∈ a.cells, c ∈ b.cells ∨ c.part ∈ b.parts
  parts : ∀ q ∈ a.parts, q ∈ b.parts

/-- Several footprints as one. -/
def Print.join (l : List Print) : Print :=
  ⟨l.flatMap (·.regs), l.flatMap (·.classes), l.flatMap (·.cells), l.flatMap (·.parts)⟩

/-- An index that a footprint names, or leaves open. -/
def Names (o : Option Nat) (d : Nat) : Prop := o = none ∨ o = some d

theorem Names.any {d : Nat} : Names none d := .inl rfl
theorem Names.one {d : Nat} : Names (some d) d := .inr rfl
theorem Names.map {o : Option Nat} {d : Nat} (f : Nat → Nat) (h : Names o d) : Names (o.map f) (f d) := by
  rcases h with rfl | rfl
  · exact .inl rfl
  · exact .inr rfl

/-- The footprint of one register field, of a field with an index, of one with two. -/
def Print.reg (f : Field) : Print := ⟨[the f], [], [], []⟩
def Print.reg1 (f : Nat → Field) : Option Nat → Print
  | none => ⟨[every f], [], [], []⟩
  | some i => ⟨[the (f i)], [], [], []⟩
def Print.reg2 (f : Nat → Nat → Field) : Option Nat → Option Nat → Print
  | none, none => ⟨[every2 f], [], [], []⟩
  | some i, none => ⟨[every (f i)], [], [], []⟩
  | none, some j => ⟨[every fun i => f i j], [], [], []⟩
  | some i, some j => ⟨[the (f i j)], [], [], []⟩

/-- The footprint of a retention class, of a part, of a row. -/
def Print.cls (c : Ret) : Print := ⟨[], [c], [], []⟩
def Print.prt (q : Part) : Print := ⟨[], [], [], [q]⟩
def Print.row (k : Nat → Cell) : Option Nat → Print
  | none => ⟨[], [], [], [(k 0).part]⟩
  | some i => ⟨[], [], [k i], []⟩

theorem Print.sub_join {l : List Print} {p : Print} : (Print.join l).Sub p ↔ ∀ a ∈ l, a.Sub p := by
  constructor
  · exact fun h a ha => ⟨fun x hx => h.regs x (List.mem_flatMap.2 ⟨a, ha, hx⟩),
      fun x hx => h.classes x (List.mem_flatMap.2 ⟨a, ha, hx⟩), fun x hx => h.cells x (List.mem_flatMap.2 ⟨a, ha, hx⟩),
      fun x hx => h.parts x (List.mem_flatMap.2 ⟨a, ha, hx⟩)⟩
  · intro h
    constructor <;> intro x hx <;> obtain ⟨a, ha, hx⟩ := List.mem_flatMap.1 hx
    · exact (h a ha).regs x hx
    · exact (h a ha).classes x hx
    · exact (h a ha).cells x hx
    · exact (h a ha).parts x hx

theorem Print.join_nil {p : Print} : (Print.join []).Sub p ↔ True := by simp [Print.sub_join]
theorem Print.join_cons {a : Print} {l : List Print} {p : Print} : (Print.join (a :: l)).Sub p ↔ a.Sub p ∧ (Print.join l).Sub p := by
  simp [Print.sub_join]

theorem Print.has_reg {p : Print} {f : Field} (h : (Print.reg f).Sub p) : p.has f := h.regs (the f) (by simp [Print.reg]) 0 0

theorem Print.has_reg1 {p : Print} {f : Nat → Field} {o : Option Nat} {i : Nat} (ho : Names o i) (h : (Print.reg1 f o).Sub p) :
    p.has (f i) := by
  rcases ho with rfl | rfl
  · exact h.regs (every f) (by simp [Print.reg1]) i 0
  · exact h.regs (the (f i)) (by simp [Print.reg1]) 0 0

theorem Print.has_reg2 {p : Print} {f : Nat → Nat → Field} {o o' : Option Nat} {i j : Nat} (ho : Names o i) (ho' : Names o' j)
    (h : (Print.reg2 f o o').Sub p) : p.has (f i j) := by
  rcases ho with rfl | rfl <;> rcases ho' with rfl | rfl
  · exact h.regs (every2 f) (by simp [Print.reg2]) i j
  · exact h.regs (every fun i => f i j) (by simp [Print.reg2]) i 0
  · exact h.regs (every (f i)) (by simp [Print.reg2]) j 0
  · exact h.regs (the (f i j)) (by simp [Print.reg2]) 0 0

theorem Print.has_ite {p : Print} {f g : Field} {c : Prop} [Decidable c] (hf : p.has f) (hg : p.has g) :
    p.has (if c then f else g) := by
  split
  · exact hf
  · exact hg

theorem Print.has_prt {p : Print} {q : Part} (h : (Print.prt q).Sub p) : q ∈ p.parts := h.parts q (by simp [Print.prt])
theorem Print.has_cls {p : Print} {c : Ret} (h : (Print.cls c).Sub p) : c ∈ p.classes := h.classes c (by simp [Print.cls])

theorem Print.has_row {p : Print} {k : Nat → Cell} {o : Option Nat} {i : Nat} (hk : (k 0).part = (k i).part) (ho : Names o i)
    (h : (Print.row k o).Sub p) : k i ∈ p.cells ∨ (k i).part ∈ p.parts := by
  rcases ho with rfl | rfl
  · exact .inr (hk ▸ h.parts (k 0).part (by simp [Print.row]))
  · exact h.cells (k i) (by simp [Print.row])

theorem Part.same_refl (q : Part) (s : State) : q.same s s := by
  cases q <;> first | rfl | exact fun _ _ => rfl
theorem Cell.same_refl (c : Cell) (s : State) : c.same s s := by cases c <;> rfl

theorem Part.same_trans {q : Part} {a b c : State} (h : q.same a b) (k : q.same b c) : q.same a c := by
  cases q <;> first | exact Eq.trans k h | exact fun x hx => (k x hx).trans (h x hx)
theorem Cell.same_trans {q : Cell} {a b c : State} (h : q.same a b) (k : q.same b c) : q.same a c := by
  cases q <;> exact Eq.trans k h

/-- A row of a part that is as before is as before. -/
theorem Cell.same_of_part {c : Cell} {s t : State} (h : c.part.same s t) : c.same s t := by
  cases c <;> simp only [Cell.part, Part.same] at h <;>
    simp only [Cell.same, linkOf, laneOf, convOf, phaseOf, railOf, itnOf, tokOf, capOf, estOf, h]

theorem Within.refl (p : Print) (s : State) : Within p s s :=
  ⟨fun _ _ _ => rfl, fun c _ _ => c.same_refl s, fun q _ _ => q.same_refl s⟩

theorem Within.trans {p : Print} {a b c : State} (h : Within p a b) (k : Within p b c) : Within p a c :=
  ⟨fun g hg hc => (k.regs g hg hc).trans (h.regs g hg hc), fun x hx hy => Cell.same_trans (h.cells x hx hy) (k.cells x hx hy),
   fun q hq hx => Part.same_trans (h.parts q hq hx) (k.parts q hq hx)⟩

/-- A wider footprint. -/
theorem Within.mono {a b : Print} {s t : State} (h : Within a s t) (hs : a.Sub b) : Within b s t := by
  refine ⟨fun g hg hc => ?_, fun c hc hp => ?_, fun q hq hc => ?_⟩
  · refine h.regs g (fun φ m i j e => ?_) fun c m => hc c (hs.classes c m)
    obtain ⟨ψ, m', i', j', e'⟩ := hs.regs φ m i j
    exact hg ψ m' i' j' (e'.symm ▸ e)
  · exact h.cells c (fun m => (hs.cells c m).elim hc hp) fun m => hp (hs.parts _ m)
  · exact h.parts q (fun m => hq (hs.parts _ m)) fun c m e =>
      (hs.cells c m).elim (fun m' => hc c m' e) fun m' => hq (e ▸ m')

/-- A change of the register file alone. -/
theorem Within.ofRegs {p : Print} {z s t : State} (h : Within p z s)
    (hg : ∀ g : Field, (∀ φ ∈ p.regs, ∀ i j, fieldKey (φ i j) ≠ fieldKey g) →
      (∀ c ∈ p.classes, keyClass (fieldKey g) ≠ retCode c) → get t g = get s g)
    (hp : t = { s with regs := t.regs }) : Within p z t := by
  have hq : ∀ q : Part, q.same s t := by intro q; rw [hp]; cases q <;> first | rfl | exact fun _ _ => rfl
  exact h.trans ⟨hg, fun c _ _ => Cell.same_of_part (hq _), fun q _ _ => hq q⟩

/-- A change of whole parts that the footprint names. -/
theorem Within.ofParts {p : Print} {z s t : State} (h : Within p z s) (hr : t.regs = s.regs)
    (hq : ∀ q : Part, q ∉ p.parts → q.same s t) : Within p z t :=
  h.trans ⟨fun g _ _ => by simp only [get, hr], fun c _ hc => Cell.same_of_part (hq _ hc), fun q hp _ => hq q hp⟩

/-- A change of one row that the footprint names. -/
theorem Within.ofCell {p : Print} {z s t : State} {c : Cell} (h : Within p z s) (hr : t.regs = s.regs)
    (hq : ∀ q : Part, q ≠ c.part → q.same s t) (hc : ∀ x : Cell, x ≠ c → x.part = c.part → x.same s t)
    (hm : c ∈ p.cells ∨ c.part ∈ p.parts) : Within p z t := by
  refine h.trans ⟨fun g _ _ => by simp only [get, hr], fun x hx hp => ?_, fun q hp hx => ?_⟩
  · by_cases e : x.part = c.part
    · exact hc x (fun ec => hm.elim (fun m => hx (ec ▸ m)) fun m => hp (e ▸ m)) e
    · exact Cell.same_of_part (hq _ e)
  · exact hq q fun e => hm.elim (fun m => hx c m e.symm) fun m => hp (e ▸ m)

theorem Within.put {p : Print} {z s : State} {f : Field} (v : Nat) (hf : p.has f) (h : Within p z s) : Within p z (put f v s) := by
  refine h.ofRegs (fun g hg _ => ?_) ?_
  · obtain ⟨φ, m, i, j, rfl⟩ := hf
    unfold Machine.put
    split
    · rfl
    · exact sget_sset_ne _ _ _ (hg φ m i j) _
  · unfold Machine.put; split <;> rfl

theorem Within.blow {p : Print} {z s : State} {f : Field} (v : Nat) (hf : p.has f) (h : Within p z s) : Within p z (blow f v s) := by
  refine h.ofRegs (fun g hg _ => ?_) rfl
  obtain ⟨φ, m, i, j, rfl⟩ := hf
  exact sget_sset_ne _ _ _ (hg φ m i j) _

/-- A write to a field of a class that the footprint names. -/
theorem Within.putClass {p : Print} {z s : State} {f : Field} (v : Nat) {c : Ret} (hc : c ∈ p.classes)
    (hf : keyClass (fieldKey f) = retCode c) (h : Within p z s) : Within p z (Machine.put f v s) := by
  refine h.ofRegs (fun g _ hg => ?_) ?_
  · unfold Machine.put
    split
    · rfl
    · exact sget_sset_ne _ _ _ (fun e => hg c hc (by rw [← e]; exact hf)) _
  · unfold Machine.put; split <;> rfl

theorem Within.put384 {p : Print} {z s : State} {f : Field} (v : Nat) (hf : p.has f) (h : Within p z s) :
    Within p z (Machine.put384 f v s) := h.put _ hf

theorem Within.putI {p : Print} {z s : State} {f : Field} (x : Int) (hf : p.has f) (h : Within p z s) : Within p z (putI f x s) := h.put _ hf
theorem Within.putB {p : Print} {z s : State} {f : Field} (b : Bool) (hf : p.has f) (h : Within p z s) : Within p z (putB f b s) := h.put _ hf
theorem Within.event {p : Print} {z s : State} {f : Field} (b : Nat) (hf : p.has f) (h : Within p z s) : Within p z (event f b s) := h.put _ hf
theorem Within.unevent {p : Print} {z s : State} {f : Field} (b : Nat) (hf : p.has f) (h : Within p z s) : Within p z (unevent f b s) := h.put _ hf
theorem Within.putBitF {p : Print} {z s : State} {f : Field} (b : Nat) (v : Bool) (hf : p.has f) (h : Within p z s) : Within p z (putBitF f b v s) := h.put _ hf
theorem Within.addSat {p : Print} {z s : State} {f : Field} (n : Nat) (hf : p.has f) (h : Within p z s) : Within p z (addSat f n s) := h.put _ hf
theorem Within.addWrap {p : Print} {z s : State} {f : Field} (n : Nat) (hf : p.has f) (h : Within p z s) : Within p z (addWrap f n s) := h.put _ hf

theorem Within.clearClass {p : Print} {z s : State} {c : Ret} (hc : c ∈ p.classes) (h : Within p z s) : Within p z (clearClass c s) := by
  refine h.ofRegs (fun g _ hg => ?_) rfl
  exact sget_filter _ _ _ _ fun v => by simpa using hg c hc

theorem Within.clearDieRegs {p : Print} {z s : State} (d : Nat) (hc : Ret.die ∈ p.classes) (h : Within p z s) :
    Within p z (clearDieRegs d s) := by
  refine h.ofRegs (fun g _ hg => ?_) rfl
  exact sget_filter _ _ _ _ fun v => by simp [hg _ hc]

theorem Within.each {p : Print} {z s : State} {α : Type} {l : List α} {f : α → State → State}
    (hf : ∀ x t, Within p z t → Within p z (f x t)) (h : Within p z s) : Within p z (each l f s) := by
  unfold Machine.each
  induction l generalizing s with
  | nil => exact h
  | cons x l ih => exact ih (hf x s h)

theorem Within.fold {p : Print} {z s : State} {α : Type} {l : List α} {f : State → α → State}
    (hf : ∀ x t, Within p z t → Within p z (f t x)) (h : Within p z s) : Within p z (l.foldl f s) := by
  induction l generalizing s with
  | nil => exact h
  | cons x l ih => exact ih (hf x s h)

/-- A step for each element of a list, where only the list's elements need be considered. -/
theorem Within.eachMem {p : Print} {z s : State} {α : Type} {l : List α} {f : α → State → State}
    (hf : ∀ x ∈ l, ∀ t, Within p z t → Within p z (f x t)) (h : Within p z s) : Within p z (Machine.each l f s) := by
  unfold Machine.each
  induction l generalizing s with
  | nil => exact h
  | cons x l ih => exact ih (fun y hy => hf y (by simp [hy])) (hf x (by simp) s h)

/-- Values put back into fields of a class that the footprint names. -/
theorem Within.restore {p : Print} {z s : State} {c : Ret} {l : List (Field × Nat)}
    (hl : ∀ e ∈ l, keyClass (fieldKey e.1) = retCode c) (hc : c ∈ p.classes) (h : Within p z s) :
    Within p z (Machine.each l (fun e => Machine.put e.1 e.2) s) := by
  unfold Machine.each
  induction l generalizing s with
  | nil => exact h
  | cons x l ih => exact ih (fun e he => hl e (by simp [he])) (h.putClass _ hc (hl x (by simp)))

/-- The class and the die of a key. -/
theorem keyClass_fieldKey {f : Field} (h1 : f.page < 16) (h2 : f.unit < 32) (h3 : f.off < 2 ^ 22 - 64) (h4 : f.lo < 64) :
    keyClass (fieldKey f) = retCode f.cls := by
  simp only [keyClass, fieldKey]
  omega

theorem keyUnit_fieldKey {f : Field} (h2 : f.unit < 32) (h3 : f.off < 2 ^ 22 - 64) (h4 : f.lo < 64) :
    keyUnit (fieldKey f) = f.unit := by
  simp only [keyUnit, fieldKey]
  omega

theorem Within.when {p : Print} {z s : State} {c : Bool} {f : State → State} (hf : ∀ t, Within p z t → Within p z (f t))
    (h : Within p z s) : Within p z (when c f s) := by
  unfold Machine.when
  split
  · exact hf s h
  · exact h

/-- Every part but the registers and the queue at once. -/
theorem Within.upd {p : Print} {z s : State} {mem free out resp us clk links lanes pmb phases rails test self itn tok capd capp estd estp therm ring recov sec host i3c log boot pins}
    (h : Within p z s)
    (h_mem : mem = s.mem ∨ Part.mem ∈ p.parts ∧ Part.cq ∈ p.parts)
    (h_free : free = s.free ∨ Part.free ∈ p.parts)
    (h_out : out = s.out ∨ Part.out ∈ p.parts)
    (h_resp : resp = s.resp ∨ Part.resp ∈ p.parts)
    (h_us : us = s.us ∨ Part.us ∈ p.parts)
    (h_clk : clk = s.clk ∨ Part.clk ∈ p.parts)
    (h_links : links = s.links ∨ Part.links ∈ p.parts)
    (h_lanes : lanes = s.lanes ∨ Part.lanes ∈ p.parts)
    (h_pmb : pmb = s.pmb ∨ Part.pmb ∈ p.parts)
    (h_phases : phases = s.phases ∨ Part.phases ∈ p.parts)
    (h_rails : rails = s.rails ∨ Part.rails ∈ p.parts)
    (h_test : test = s.test ∨ Part.test ∈ p.parts)
    (h_self : self = s.self ∨ Part.self ∈ p.parts)
    (h_itn : itn = s.itn ∨ Part.itn ∈ p.parts)
    (h_tok : tok = s.tok ∨ Part.tok ∈ p.parts)
    (h_capd : capd = s.capd ∨ Part.capd ∈ p.parts)
    (h_capp : capp = s.capp ∨ Part.capp ∈ p.parts)
    (h_estd : estd = s.estd ∨ Part.estd ∈ p.parts)
    (h_estp : estp = s.estp ∨ Part.estp ∈ p.parts)
    (h_therm : therm = s.therm ∨ Part.therm ∈ p.parts)
    (h_ring : ring = s.ring ∨ Part.ring ∈ p.parts)
    (h_recov : recov = s.recov ∨ Part.recov ∈ p.parts)
    (h_sec : sec = s.sec ∨ Part.sec ∈ p.parts)
    (h_host : host = s.host ∨ Part.host ∈ p.parts)
    (h_i3c : i3c = s.i3c ∨ Part.i3c ∈ p.parts)
    (h_log : log = s.log ∨ Part.log ∈ p.parts)
    (h_boot : boot = s.boot ∨ Part.boot ∈ p.parts)
    (h_pins : pins = s.pins ∨ Part.pins ∈ p.parts)
    : Within p z ⟨s.pending, s.regs, mem, free, out, resp, us, clk, links, lanes, pmb, phases, rails, test, self, itn, tok, capd, capp, estd, estp, therm, ring, recov, sec, host, i3c, log, boot, pins⟩ := by
  refine h.ofParts rfl fun q hq => ?_
  cases q
  · subst_vars
    exact fun a _ => by rw [readByte, h_mem.resolve_right fun m => hq m.1]; rfl
  · subst_vars
    exact fun a _ => by rw [readByte, h_mem.resolve_right fun m => hq m.2]; rfl
  all_goals exact Or.resolve_right (by assumption) hq

theorem readByte_writeByte_ne {x a : Nat} (h : x ≠ a) (v : Nat) (s : State) : readByte (writeByte x v s) a = readByte s a := by
  simp only [readByte, writeByte]
  rw [sget_sset_ne _ _ _ h]

theorem Within.writeByte {p : Print} {z s : State} (x v : Nat) (hq : Part.mem ∈ p.parts) (hc : Part.cq ∈ p.parts) (h : Within p z s) :
    Within p z (writeByte x v s) := by
  refine h.ofParts rfl fun q hn => ?_
  cases q <;> first | rfl | exact absurd hq hn | exact absurd hc hn

/-- A byte of a completion queue written. -/
theorem Within.writeQueue {p : Print} {z s : State} {x : Nat} (v : Nat) (hx : inQueue x = true) (hc : Part.cq ∈ p.parts) (h : Within p z s) :
    Within p z (Machine.writeByte x v s) := by
  refine h.ofParts rfl fun q hn => ?_
  cases q <;> first | rfl | exact absurd hc hn |
    exact fun a ha => readByte_writeByte_ne (fun e => by rw [e, ha] at hx; exact absurd hx (by decide)) v s

theorem Within.wipe {p : Print} {z s : State} (lo hi : Nat) (hq : Part.mem ∈ p.parts) (hc : Part.cq ∈ p.parts) (h : Within p z s) :
    Within p z (wipe lo hi s) := by
  refine h.ofParts rfl fun q hn => ?_
  cases q <;> first | rfl | exact absurd hq hn | exact absurd hc hn

theorem Within.setPart {p : Print} {z s : State} (d : Nat) (v : PartH) (hq : Part.sec ∈ p.parts) (h : Within p z s) : Within p z (setPart d v s) := by
  refine h.ofParts rfl fun q hn => ?_
  cases q <;> first | rfl | exact fun _ _ => rfl | exact absurd hq hn

theorem Within.setBoot {p : Print} {z s : State} (v : BootH) (hq : Part.boot ∈ p.parts) (h : Within p z s) : Within p z (setBoot v s) := by
  refine h.ofParts rfl fun q hn => ?_
  cases q <;> first | rfl | exact fun _ _ => rfl | exact absurd hq hn

theorem Within.setPins {p : Print} {z s : State} (v : Pins) (hq : Part.pins ∈ p.parts) (h : Within p z s) : Within p z (setPins v s) := by
  refine h.ofParts rfl fun q hn => ?_
  cases q <;> first | rfl | exact fun _ _ => rfl | exact absurd hq hn

theorem Within.emit {p : Print} {z s : State} (v : Out) (hq : Part.out ∈ p.parts) (h : Within p z s) : Within p z (emit v s) := by
  refine h.ofParts rfl fun q hn => ?_
  cases q <;> first | rfl | exact fun _ _ => rfl | exact absurd hq hn

theorem Within.setLink {p : Print} {z s : State} {d : Nat} (v : LinkD) (hm : Cell.link d ∈ p.cells ∨ (Cell.link d).part ∈ p.parts)
    (h : Within p z s) : Within p z (setLink d v s) := by
  refine h.ofCell rfl (fun q hn => ?_) (fun x hn hp => ?_) hm
  · cases q <;> first | rfl | exact fun _ _ => rfl | exact absurd rfl hn
  · cases x <;> try (simp only [Cell.part, reduceCtorEq] at hp; done)
    exact sget_sset_ne _ _ _ (fun e => hn (by rw [e])) _

theorem Within.setLane {p : Print} {z s : State} {d : Nat} (v : LaneH) (hm : Cell.lane d ∈ p.cells ∨ (Cell.lane d).part ∈ p.parts)
    (h : Within p z s) : Within p z (setLane d v s) := by
  refine h.ofCell rfl (fun q hn => ?_) (fun x hn hp => ?_) hm
  · cases q <;> first | rfl | exact fun _ _ => rfl | exact absurd rfl hn
  · cases x <;> try (simp only [Cell.part, reduceCtorEq] at hp; done)
    exact sget_sset_ne _ _ _ (fun e => hn (by rw [e])) _

theorem Within.setConv {p : Print} {z s : State} {d : Nat} (v : PmbC) (hm : Cell.conv d ∈ p.cells ∨ (Cell.conv d).part ∈ p.parts)
    (h : Within p z s) : Within p z (setConv d v s) := by
  refine h.ofCell rfl (fun q hn => ?_) (fun x hn hp => ?_) hm
  · cases q <;> first | rfl | exact fun _ _ => rfl | exact absurd rfl hn
  · cases x <;> try (simp only [Cell.part, reduceCtorEq] at hp; done)
    exact sget_sset_ne _ _ _ (fun e => hn (by rw [e])) _

theorem Within.setPhase {p : Print} {z s : State} {d : Nat} (v : PhaseH) (hm : Cell.phase d ∈ p.cells ∨ (Cell.phase d).part ∈ p.parts)
    (h : Within p z s) : Within p z (setPhase d v s) := by
  refine h.ofCell rfl (fun q hn => ?_) (fun x hn hp => ?_) hm
  · cases q <;> first | rfl | exact fun _ _ => rfl | exact absurd rfl hn
  · cases x <;> try (simp only [Cell.part, reduceCtorEq] at hp; done)
    exact sget_sset_ne _ _ _ (fun e => hn (by rw [e])) _

theorem Within.setRail {p : Print} {z s : State} {d : Nat} (v : RailH) (hm : Cell.rail d ∈ p.cells ∨ (Cell.rail d).part ∈ p.parts)
    (h : Within p z s) : Within p z (setRail d v s) := by
  refine h.ofCell rfl (fun q hn => ?_) (fun x hn hp => ?_) hm
  · cases q <;> first | rfl | exact fun _ _ => rfl | exact absurd rfl hn
  · cases x <;> try (simp only [Cell.part, reduceCtorEq] at hp; done)
    exact sget_sset_ne _ _ _ (fun e => hn (by rw [e])) _

theorem Within.setItn {p : Print} {z s : State} {d : Nat} (v : ItnD) (hm : Cell.itn d ∈ p.cells ∨ (Cell.itn d).part ∈ p.parts)
    (h : Within p z s) : Within p z (setItn d v s) := by
  refine h.ofCell rfl (fun q hn => ?_) (fun x hn hp => ?_) hm
  · cases q <;> first | rfl | exact fun _ _ => rfl | exact absurd rfl hn
  · cases x <;> try (simp only [Cell.part, reduceCtorEq] at hp; done)
    exact sget_sset_ne _ _ _ (fun e => hn (by rw [e])) _

theorem Within.setTok {p : Print} {z s : State} {d : Nat} (v : TokD) (hm : Cell.tok d ∈ p.cells ∨ (Cell.tok d).part ∈ p.parts)
    (h : Within p z s) : Within p z (setTok d v s) := by
  refine h.ofCell rfl (fun q hn => ?_) (fun x hn hp => ?_) hm
  · cases q <;> first | rfl | exact fun _ _ => rfl | exact absurd rfl hn
  · cases x <;> try (simp only [Cell.part, reduceCtorEq] at hp; done)
    exact sget_sset_ne _ _ _ (fun e => hn (by rw [e])) _

theorem Within.setCap {p : Print} {z s : State} {d : Nat} (v : CapD) (hm : Cell.cap d ∈ p.cells ∨ (Cell.cap d).part ∈ p.parts)
    (h : Within p z s) : Within p z (setCap d v s) := by
  refine h.ofCell rfl (fun q hn => ?_) (fun x hn hp => ?_) hm
  · cases q <;> first | rfl | exact fun _ _ => rfl | exact absurd rfl hn
  · cases x <;> try (simp only [Cell.part, reduceCtorEq] at hp; done)
    exact sget_sset_ne _ _ _ (fun e => hn (by rw [e])) _

theorem Within.setEst {p : Print} {z s : State} {d : Nat} (v : EstD) (hm : Cell.est d ∈ p.cells ∨ (Cell.est d).part ∈ p.parts)
    (h : Within p z s) : Within p z (setEst d v s) := by
  refine h.ofCell rfl (fun q hn => ?_) (fun x hn hp => ?_) hm
  · cases q <;> first | rfl | exact fun _ _ => rfl | exact absurd rfl hn
  · cases x <;> try (simp only [Cell.part, reduceCtorEq] at hp; done)
    exact sget_sset_ne _ _ _ (fun e => hn (by rw [e])) _

theorem Within.writeBytes {p : Print} {z s : State} (x : Nat) (l : List Nat) (hq : Part.mem ∈ p.parts) (hc : Part.cq ∈ p.parts) (h : Within p z s) :
    Within p z (writeBytes x l s) := by
  induction l generalizing s x with
  | nil => exact h
  | cons b l ih => exact ih (x + 1) (h.writeByte x b hq hc)

theorem Within.writeQueues {p : Print} {z s : State} (x : Nat) (l : List Nat) (hx : ∀ i < l.length, inQueue (x + i) = true)
    (hc : Part.cq ∈ p.parts) (h : Within p z s) : Within p z (Machine.writeBytes x l s) := by
  induction l generalizing s x with
  | nil => exact h
  | cons b l ih =>
    refine ih (x + 1) (fun i hi => ?_) (h.writeQueue b (hx 0 (by simp)) hc)
    have := hx (i + 1) (by simpa using hi)
    rwa [show x + 1 + i = x + (i + 1) by omega]

/-- A word of a completion queue written. -/
theorem Within.writeQueue32 {p : Print} {z s : State} (x v : Nat) (hx : ∀ i < 4, inQueue (x + i) = true) (hc : Part.cq ∈ p.parts)
    (h : Within p z s) : Within p z (Machine.writeWord32 x v s) :=
  h.writeQueues x _ (fun i hi => hx i (by simpa [leBytes] using hi)) hc

theorem Within.writeWord32 {p : Print} {z s : State} (x v : Nat) (hq : Part.mem ∈ p.parts) (hc : Part.cq ∈ p.parts) (h : Within p z s) :
    Within p z (writeWord32 x v s) := h.writeBytes _ _ hq hc

end Sys2Proof.Machine
end

