-- ==== Sys2Proof/Laws/FootA.lean ====
section
/-! SUPPORT. Sys2Proof/Laws/FootA.lean: the footprint of each operation and each meaning of Ops.lean, Flags.lean, Frames.lean, Operands.lean, Recorder.lean, Crypto.lean, Keys.lean, Recovery.lean, Security.lean, Thermal.lean: what it may change
(`Within`), one lemma each. -/

set_option linter.unusedTactic false
set_option linter.unreachableTactic false

namespace Sys2Proof.Machine

def fp_drawn : Print := .join
  [.prt .free]

theorem foot_drawn {pr : Print} {z s : State} (hP : fp_drawn.Sub pr) (hk : Within pr z s) :
    Within pr z (drawn s) := by
  simp only [fp_drawn, Print.join_cons, Print.join_nil, and_true] at hP
  have e0 := hP
  unfold drawn
  iterate 40 (try any_goals first | with_reducible assumption | exact Print.has_prt e0 | exact Or.inr (Print.has_prt (by assumption)) | with_reducible exact Or.inl rfl | with_reducible apply Within.upd)

def fp_recordAt : Print := .join
  [.prt .log]

theorem foot_recordAt {pr : Print} {z s : State} {time : Nat} {code : Nat} {subj : Nat} {part : Nat} {arg : Nat} (hP : fp_recordAt.Sub pr) (hk : Within pr z s) :
    Within pr z (recordAt time code subj part arg s) := by
  simp only [fp_recordAt, Print.join_cons, Print.join_nil, and_true] at hP
  have e0 := hP
  unfold recordAt
  iterate 40 (try any_goals first | with_reducible assumption | exact Print.has_prt e0 | exact Or.inr (Print.has_prt (by assumption)) | with_reducible exact Or.inl rfl | split | with_reducible apply Within.upd)

def fp_record : Print := .join
  [fp_recordAt]

theorem foot_record {pr : Print} {z s : State} {code : Nat} {arg : Nat} (hP : fp_record.Sub pr) (hk : Within pr z s) :
    Within pr z (record code arg s) := by
  simp only [fp_record, Print.join_cons, Print.join_nil, and_true] at hP
  have e0 := hP
  unfold record
  iterate 40 (try any_goals first | with_reducible assumption | with_reducible refine foot_recordAt e0 ?_)

def fp_recordDie : Print := .join
  [fp_recordAt]

theorem foot_recordDie {pr : Print} {z s : State} {code : Nat} {d : Nat} {arg : Nat} (hP : fp_recordDie.Sub pr) (hk : Within pr z s) :
    Within pr z (recordDie code d arg s) := by
  simp only [fp_recordDie, Print.join_cons, Print.join_nil, and_true] at hP
  have e0 := hP
  unfold recordDie
  iterate 40 (try any_goals first | with_reducible assumption | with_reducible refine foot_recordAt e0 ?_)

def fp_queueEvent : Print := .join
  [.reg R.REC_LOST.COUNT,
   .reg R.REC_EVENT,
   .prt .log]

theorem foot_queueEvent {pr : Print} {z s : State} {e : Event} (hP : fp_queueEvent.Sub pr) (hk : Within pr z s) :
    Within pr z (queueEvent e s) := by
  simp only [fp_queueEvent, Print.join_cons, Print.join_nil, and_true] at hP
  obtain ⟨e0, e1, e2⟩ := hP
  unfold queueEvent
  iterate 40 (try any_goals first | with_reducible assumption | exact Print.has_reg e0 | exact Print.has_reg e1 | exact Print.has_prt e2 | with_reducible apply Print.has_ite | with_reducible refine Within.event _ ?_ ?_ | with_reducible refine Within.addSat _ ?_ ?_ | exact Or.inr (Print.has_prt (by assumption)) | with_reducible exact Or.inl rfl | (dsimp only) | split | with_reducible apply Within.upd)

def fp_finish : Print := .join
  [.prt .log,
   fp_queueEvent]

theorem foot_finish {p : Print} {z s : State} (hP : fp_finish.Sub p) (hk : Within p z s) : Within p z (finish s) := by
  simp only [fp_finish, Print.join_cons, Print.join_nil, and_true] at hP
  obtain ⟨e0, e1⟩ := hP
  unfold finish
  refine Within.each (fun e t h => foot_queueEvent e1 h) ?_
  apply Within.upd hk <;> first | exact Or.inl rfl | exact Or.inr (Print.has_prt e0)

def fp_notify (p : Option Nat) : Print := .join
  [.reg1 R.CMD_NOTIFY p,
   .prt .out]

theorem foot_notify {pr : Print} {z s : State} {b : Nat} {p : Nat} {o_p : Option Nat} (n_p : Names o_p p) (hP : (fp_notify o_p).Sub pr) (hk : Within pr z s) :
    Within pr z (notify b p s) := by
  simp only [fp_notify, Print.join_cons, Print.join_nil, and_true] at hP
  obtain ⟨e0, e1⟩ := hP
  unfold notify
  iterate 40 (try any_goals first | with_reducible assumption | exact Print.has_reg1 n_p e0 | exact Print.has_prt e1 | with_reducible apply Print.has_ite | with_reducible refine Within.event _ ?_ ?_ | with_reducible refine Within.emit _ ?_ ?_ | with_reducible refine Within.when ?_ ?_ | intro _ | (dsimp only) | split)

def fp_notifyAll : Print := .join
  [fp_notify none]

theorem foot_notifyAll {pr : Print} {z s : State} {b : Nat} {t : Nat → Bool} (hP : fp_notifyAll.Sub pr) (hk : Within pr z s) :
    Within pr z (notifyAll b t s) := by
  simp only [fp_notifyAll, Print.join_cons, Print.join_nil, and_true] at hP
  have e0 := hP
  unfold notifyAll
  iterate 40 (try any_goals first | with_reducible assumption | with_reducible refine foot_notify Names.any e0 ?_ | with_reducible refine Within.each ?_ ?_ | intro _ | split)

def fp_faultOn : Print := .join
  [.reg R.SAF_FAULT,
   fp_notifyAll]

theorem foot_faultOn {pr : Print} {z s : State} {b : Nat} (hP : fp_faultOn.Sub pr) (hk : Within pr z s) :
    Within pr z (faultOn b s) := by
  simp only [fp_faultOn, Print.join_cons, Print.join_nil, and_true] at hP
  obtain ⟨e0, e1⟩ := hP
  unfold faultOn
  iterate 40 (try any_goals first | with_reducible assumption | exact Print.has_reg e0 | with_reducible apply Print.has_ite | with_reducible refine Within.event _ ?_ ?_ | with_reducible refine foot_notifyAll e1 ?_ | with_reducible refine Within.each ?_ ?_ | intro _ | (dsimp only) | split)

def fp_faultOff : Print := .join
  [.reg R.SAF_FAULT]

theorem foot_faultOff {pr : Print} {z s : State} {b : Nat} (hP : fp_faultOff.Sub pr) (hk : Within pr z s) :
    Within pr z (faultOff b s) := by
  simp only [fp_faultOff, Print.join_cons, Print.join_nil, and_true] at hP
  have e0 := hP
  unfold faultOff
  iterate 40 (try any_goals first | with_reducible assumption | exact Print.has_reg e0 | with_reducible apply Print.has_ite | with_reducible refine Within.unevent _ ?_ ?_)

def fp_countHealth (c : Option Nat) : Print := .join
  [.reg1 R.HLT_EVT.COUNT c]

theorem foot_countHealth {pr : Print} {z s : State} {c : Nat} {n : Nat} {o_c : Option Nat} (n_c : Names o_c c) (hP : (fp_countHealth o_c).Sub pr) (hk : Within pr z s) :
    Within pr z (countHealth c n s) := by
  simp only [fp_countHealth, Print.join_cons, Print.join_nil, and_true] at hP
  have e0 := hP
  unfold countHealth
  iterate 40 (try any_goals first | with_reducible assumption | exact Print.has_reg1 n_c e0 | with_reducible apply Print.has_ite | with_reducible refine Within.addWrap _ ?_ ?_)

def fp_bumpGen : Print := .join
  [.reg R.RNG_GEN.GEN,
   .prt .ring]

theorem foot_bumpGen {pr : Print} {z s : State} (hP : fp_bumpGen.Sub pr) (hk : Within pr z s) :
    Within pr z (bumpGen s) := by
  simp only [fp_bumpGen, Print.join_cons, Print.join_nil, and_true] at hP
  obtain ⟨e0, e1⟩ := hP
  unfold bumpGen
  iterate 40 (try any_goals first | with_reducible assumption | exact Print.has_reg e0 | exact Print.has_prt e1 | with_reducible apply Print.has_ite | with_reducible refine Within.addWrap _ ?_ ?_ | exact Or.inr (Print.has_prt (by assumption)) | with_reducible exact Or.inl rfl | with_reducible apply Within.upd)

def fp_violation : Print := .join
  [.reg1 R.CMD_VIOL.REPEAT none,
   .reg1 R.CMD_VIOL.OFS none,
   .reg1 R.CMD_VIOL.PORT none,
   .reg1 R.CMD_VIOL.KIND none,
   .reg1 R.CMD_VIOL.OPCODE none,
   .reg1 R.CMD_VIOL.STATUS none,
   .reg1 R.CMD_VIOL.TIME none,
   .reg R.CMD_VIOL_STAT.COUNT,
   .reg R.CMD_VIOL_STAT.LOST,
   fp_notifyAll]

theorem foot_violation {pr : Print} {z s : State} {port : Nat} {kind : Nat} {ofs : Nat} {opcode : Nat} (hP : fp_violation.Sub pr) (hk : Within pr z s) :
    Within pr z (violation port kind ofs opcode s) := by
  simp only [fp_violation, Print.join_cons, Print.join_nil, and_true] at hP
  obtain ⟨e0, e1, e2, e3, e4, e5, e6, hP⟩ := hP
  obtain ⟨e7, e8, e9⟩ := hP
  unfold violation
  iterate 40 (try any_goals first | with_reducible assumption | exact Print.has_reg1 Names.any e0 | exact Print.has_reg1 Names.any e1 | exact Print.has_reg1 Names.any e2 | exact Print.has_reg1 Names.any e3 | exact Print.has_reg1 Names.any e4 | exact Print.has_reg1 Names.any e5 | exact Print.has_reg1 Names.any e6 | exact Print.has_reg e7 | exact Print.has_reg e8 | with_reducible apply Print.has_ite | with_reducible refine Within.put _ ?_ ?_ | with_reducible refine Within.addSat _ ?_ ?_ | with_reducible refine foot_notifyAll e9 ?_ | with_reducible refine Within.each ?_ ?_ | intro _ | (dsimp only) | split)

def fp_writeCompletion (port : Option Nat) : Print := .join
  [.prt .cq,
   .reg1 R.CMD_CQ_TAIL.TAIL port,
   .prt .out,
   fp_notify port]

theorem foot_writeCompletion {pr : Print} {z s : State} {port : Nat} {tag : Nat} {opcode : Nat} {idx : Nat} {irq : Bool} {status : Nat} {r0 : Nat} {r1 : Nat} {o_port : Option Nat} (n_port : Names o_port port) (hP : (fp_writeCompletion o_port).Sub pr) (hk : Within pr z s) :
    Within pr z (writeCompletion port tag opcode idx irq status r0 r1 s) := by
  simp only [fp_writeCompletion, Print.join_cons, Print.join_nil, and_true] at hP
  obtain ⟨e0, e1, e2, e3⟩ := hP
  unfold writeCompletion
  split
  · dsimp only
    refine Within.when (fun t h => foot_notify n_port e3 h) (Within.put _ (Print.has_reg1 n_port e1) ?_)
    refine Within.writeQueue32 _ _ ?_ (Print.has_prt e0) (Within.writeQueue32 _ _ ?_ (Print.has_prt e0)
      (Within.writeQueue32 _ _ ?_ (Print.has_prt e0) (Within.writeQueue32 _ _ ?_ (Print.has_prt e0) hk))) <;>
    · intro i hi
      have ht := Nat.mod_lt (get s (R.CMD_CQ_TAIL.TAIL port)) (y := 256) (by decide)
      refine decide_eq_true ?_
      simp only [portArea]
      omega
  · exact Within.emit _ (Print.has_prt e2) hk

def fp_dropFlight : Print := .join
  [.prt .host]

theorem foot_dropFlight {pr : Print} {z s : State} {port : Nat} {tag : Nat} (hP : fp_dropFlight.Sub pr) (hk : Within pr z s) :
    Within pr z (dropFlight port tag s) := by
  simp only [fp_dropFlight, Print.join_cons, Print.join_nil, and_true] at hP
  have e0 := hP
  unfold dropFlight
  iterate 40 (try any_goals first | with_reducible assumption | exact Print.has_prt e0 | exact Or.inr (Print.has_prt (by assumption)) | with_reducible exact Or.inl rfl | intro _ | (dsimp only) | with_reducible apply Within.upd)

def fp_complete : Print := .join
  [fp_dropFlight,
   fp_writeCompletion none]

theorem foot_complete {pr : Print} {z s : State} {fl : Flight} {status : Nat} {r0 : Nat} {r1 : Nat} (hP : fp_complete.Sub pr) (hk : Within pr z s) :
    Within pr z (complete fl status r0 r1 s) := by
  simp only [fp_complete, Print.join_cons, Print.join_nil, and_true] at hP
  obtain ⟨e0, e1⟩ := hP
  unfold complete
  iterate 40 (try any_goals first | with_reducible assumption | with_reducible refine foot_dropFlight e0 ?_ | with_reducible refine foot_writeCompletion Names.any e1 ?_ | (dsimp only))

def fp_completeAt : Print := .join
  [fp_complete]

theorem foot_completeAt {pr : Print} {z s : State} {port : Nat} {tag : Nat} {status : Nat} {r0 : Nat} {r1 : Nat} (hP : fp_completeAt.Sub pr) (hk : Within pr z s) :
    Within pr z (completeAt port tag status r0 r1 s) := by
  simp only [fp_completeAt, Print.join_cons, Print.join_nil, and_true] at hP
  have e0 := hP
  unfold completeAt
  iterate 40 (try any_goals first | with_reducible assumption | with_reducible refine foot_complete e0 ?_ | (dsimp only) | split)

def fp_markStarted : Print := .join
  [.prt .host]

theorem foot_markStarted {pr : Print} {z s : State} {port : Nat} {tag : Nat} (hP : fp_markStarted.Sub pr) (hk : Within pr z s) :
    Within pr z (markStarted port tag s) := by
  simp only [fp_markStarted, Print.join_cons, Print.join_nil, and_true] at hP
  have e0 := hP
  unfold markStarted
  iterate 40 (try any_goals first | with_reducible assumption | exact Print.has_prt e0 | exact Or.inr (Print.has_prt (by assumption)) | with_reducible exact Or.inl rfl | intro _ | (dsimp only) | split | with_reducible apply Within.upd)

def fp_keepResult : Print := .join
  [.prt .host]

theorem foot_keepResult {pr : Print} {z s : State} {port : Nat} {tag : Nat} {r0 : Nat} {r1 : Nat} (hP : fp_keepResult.Sub pr) (hk : Within pr z s) :
    Within pr z (keepResult port tag r0 r1 s) := by
  simp only [fp_keepResult, Print.join_cons, Print.join_nil, and_true] at hP
  have e0 := hP
  unfold keepResult
  iterate 40 (try any_goals first | with_reducible assumption | exact Print.has_prt e0 | exact Or.inr (Print.has_prt (by assumption)) | with_reducible exact Or.inl rfl | intro _ | (dsimp only) | split | with_reducible apply Within.upd)

def fp_command : Print := .join
  [fp_complete]

theorem foot_command {p : Print} {z s : State} {opcode port tag : Nat} {checks : Flight → List (Bool × Nat)}
    {effect : Flight → State → State} (hP : fp_command.Sub p) (he : ∀ fl t, Within p z t → Within p z (effect fl t))
    (hk : Within p z s) : Within p z (command opcode port tag s checks effect) := by
  simp only [fp_command, Print.join_cons, Print.join_nil, and_true] at hP
  unfold command
  repeat' first | with_reducible assumption | with_reducible refine foot_complete hP ?_ | with_reducible apply he | split

theorem Within.heard {p : Print} {z s : State} {d : Nat} {f : State → State} (hf : ∀ t, Within p z t → Within p z (f t))
    (hk : Within p z s) : Within p z (heard d f s) := Within.when hf hk

theorem Within.agentPut {p : Print} {z s : State} {d : Nat} {f : Field} {v : Nat} (hr : p.has f)
    (hl : Cell.link d ∈ p.cells ∨ (Cell.link d).part ∈ p.parts) (hk : Within p z s) : Within p z (agentPut d f v s) := by
  unfold Machine.agentPut
  dsimp only
  split
  · exact Within.setLink _ hl hk
  · exact Within.put _ hr hk

theorem Within.agentAdd {p : Print} {z s : State} {d : Nat} {f : Field} (hr : p.has f)
    (hl : Cell.link d ∈ p.cells ∨ (Cell.link d).part ∈ p.parts) (hk : Within p z s) : Within p z (agentAdd d f s) := Within.agentPut hr hl hk

def fp_acceptFrame (d : Option Nat) : Print := .join
  [.row Cell.link d]

theorem foot_acceptFrame {p : Print} {z s : State} {up : Bool} {ty d : Nat} {fr : Frame} {f : State → State} {o_d : Option Nat} (n_d : Names o_d d)
    (hP : (fp_acceptFrame o_d).Sub p) (hf : ∀ t, Within p z t → Within p z (f t)) (hk : Within p z s) :
    Within p z (acceptFrame up ty d fr f s) := by
  simp only [fp_acceptFrame, Print.join_cons, Print.join_nil, and_true] at hP
  unfold acceptFrame
  dsimp only
  repeat' first | with_reducible assumption | with_reducible apply hf | with_reducible refine Within.setLink _ (Print.has_row rfl n_d hP) ?_ | split

def fp_sendFrame (d : Option Nat) : Print := .join
  [.row Cell.link d,
   .prt .out]

theorem foot_sendFrame {pr : Print} {z s : State} {up : Bool} {ty : Nat} {d : Nat} {payload : List Nat} {o_d : Option Nat} (n_d : Names o_d d) (hP : (fp_sendFrame o_d).Sub pr) (hk : Within pr z s) :
    Within pr z (sendFrame up ty d payload s) := by
  simp only [fp_sendFrame, Print.join_cons, Print.join_nil, and_true] at hP
  obtain ⟨e0, e1⟩ := hP
  unfold sendFrame
  iterate 40 (try any_goals first | with_reducible assumption | with_reducible refine Within.setLink _ (Print.has_row rfl n_d e0) ?_ | exact Print.has_prt e1 | with_reducible refine Within.emit _ ?_ ?_ | exact Or.inr (Print.has_prt (by assumption)) | with_reducible exact Or.inl rfl | (dsimp only) | split | with_reducible apply Within.upd)

def fp_sendMsg (d : Option Nat) : Print := .join
  [.prt .out,
   fp_sendFrame d]

theorem foot_sendMsg {pr : Print} {z s : State} {up : Bool} {d : Nat} {m : Msg} {o_d : Option Nat} (n_d : Names o_d d) (hP : (fp_sendMsg o_d).Sub pr) (hk : Within pr z s) :
    Within pr z (sendMsg up d m s) := by
  simp only [fp_sendMsg, Print.join_cons, Print.join_nil, and_true] at hP
  obtain ⟨e0, e1⟩ := hP
  unfold sendMsg
  iterate 40 (try any_goals first | with_reducible assumption | exact Print.has_prt e0 | with_reducible refine Within.emit _ ?_ ?_ | with_reducible refine foot_sendFrame n_d e1 ?_ | (dsimp only) | split)

def fp_sendMsgs (d : Option Nat) : Print := .join
  [fp_sendMsg d]

theorem foot_sendMsgs {pr : Print} {z s : State} {up : Bool} {d : Nat} {l : List Msg} {o_d : Option Nat} (n_d : Names o_d d) (hP : (fp_sendMsgs o_d).Sub pr) (hk : Within pr z s) :
    Within pr z (sendMsgs up d l s) := by
  simp only [fp_sendMsgs, Print.join_cons, Print.join_nil, and_true] at hP
  have e0 := hP
  unfold sendMsgs
  iterate 40 (try any_goals first | with_reducible assumption | with_reducible refine foot_sendMsg n_d e0 ?_ | with_reducible refine Within.each ?_ ?_ | intro _)

def fp_sendDown (d : Option Nat) : Print := .join
  [fp_sendMsg d]

theorem foot_sendDown {pr : Print} {z s : State} {ty : Nat} {d : Nat} {content : List Nat} {o : Out} {o_d : Option Nat} (n_d : Names o_d d) (hP : (fp_sendDown o_d).Sub pr) (hk : Within pr z s) :
    Within pr z (sendDown ty d content o s) := by
  simp only [fp_sendDown, Print.join_cons, Print.join_nil, and_true] at hP
  have e0 := hP
  unfold sendDown
  iterate 40 (try any_goals first | with_reducible assumption | with_reducible refine foot_sendMsg n_d e0 ?_)

def fp_sendUp (d : Option Nat) : Print := .join
  [fp_sendMsg d]

theorem foot_sendUp {pr : Print} {z s : State} {ty : Nat} {d : Nat} {content : List Nat} {o : Out} {o_d : Option Nat} (n_d : Names o_d d) (hP : (fp_sendUp o_d).Sub pr) (hk : Within pr z s) :
    Within pr z (sendUp ty d content o s) := by
  simp only [fp_sendUp, Print.join_cons, Print.join_nil, and_true] at hP
  have e0 := hP
  unfold sendUp
  iterate 40 (try any_goals first | with_reducible assumption | with_reducible refine foot_sendMsg n_d e0 ?_)

def fp_agentTells (d : Option Nat) : Print := .join
  [.row Cell.link d,
   fp_sendUp d]

theorem foot_agentTells {pr : Print} {z s : State} {ty : Nat} {d : Nat} {content : List Nat} {o : Out} {o_d : Option Nat} (n_d : Names o_d d) (hP : (fp_agentTells o_d).Sub pr) (hk : Within pr z s) :
    Within pr z (agentTells ty d content o s) := by
  simp only [fp_agentTells, Print.join_cons, Print.join_nil, and_true] at hP
  obtain ⟨e0, e1⟩ := hP
  unfold agentTells
  iterate 40 (try any_goals first | with_reducible assumption | with_reducible refine Within.setLink _ (Print.has_row rfl n_d e0) ?_ | with_reducible refine foot_sendUp n_d e1 ?_ | exact Or.inr (Print.has_prt (by assumption)) | with_reducible exact Or.inl rfl | intro _ | (dsimp only) | split | with_reducible apply Within.upd)

def fp_sendOrder : Print := .join
  [.prt .out,
   fp_sendFrame none]

theorem foot_sendOrder {pr : Print} {z s : State} {kind : Nat} {ctx : Nat} (hP : fp_sendOrder.Sub pr) (hk : Within pr z s) :
    Within pr z (sendOrder kind ctx s) := by
  simp only [fp_sendOrder, Print.join_cons, Print.join_nil, and_true] at hP
  obtain ⟨e0, e1⟩ := hP
  unfold sendOrder
  iterate 40 (try any_goals first | with_reducible assumption | exact Print.has_prt e0 | with_reducible refine Within.emit _ ?_ ?_ | with_reducible refine foot_sendFrame Names.any e1 ?_ | with_reducible refine Within.each ?_ ?_ | intro _ | (dsimp only) | split)

def fp_allAcknowledge : Print := .join
  [fp_agentTells none]

theorem foot_allAcknowledge {pr : Print} {z s : State} {order : Nat} {subject : Nat} (hP : fp_allAcknowledge.Sub pr) (hk : Within pr z s) :
    Within pr z (allAcknowledge order subject s) := by
  simp only [fp_allAcknowledge, Print.join_cons, Print.join_nil, and_true] at hP
  have e0 := hP
  unfold allAcknowledge
  iterate 40 (try any_goals first | with_reducible assumption | with_reducible refine foot_agentTells Names.any e0 ?_ | with_reducible refine Within.each ?_ ?_ | intro _ | (dsimp only))

def fp_settingsFollow : Print := .join
  [fp_sendMsg none]

theorem foot_settingsFollow {pr : Print} {z s : State} {written : List Field} (hP : fp_settingsFollow.Sub pr) (hk : Within pr z s) :
    Within pr z (settingsFollow written s) := by
  simp only [fp_settingsFollow, Print.join_cons, Print.join_nil, and_true] at hP
  have e0 := hP
  unfold settingsFollow
  iterate 40 (try any_goals first | with_reducible assumption | with_reducible refine foot_sendMsg Names.any e0 ?_ | with_reducible refine Within.each ?_ ?_ | intro _ | (dsimp only))

def fp_eventView : Print := .join
  [.reg1 R.SEC_PART_CFG.CONF none,
   .reg1 R.SEC_PART_RES.DIES none]

theorem foot_eventView {pr : Print} {z s : State} {e : Event} (hP : fp_eventView.Sub pr) (hk : Within pr z s) :
    Within pr z (eventView e s) := by
  simp only [fp_eventView, Print.join_cons, Print.join_nil, and_true] at hP
  obtain ⟨e0, e1⟩ := hP
  unfold eventView
  iterate 40 (try any_goals first | with_reducible assumption | exact Print.has_reg1 Names.any e0 | exact Print.has_reg1 Names.any e1 | with_reducible apply Print.has_ite | with_reducible refine Within.put _ ?_ ?_ | (dsimp only) | split)

def fp_appendRecord : Print := .join
  [.reg R.REC_SEQ.NEXT,
   .reg R.REC_STAT.COUNT,
   .reg R.REC_STAT.FULL,
   .reg R.REC_EVENT,
   .prt .log,
   fp_eventView]

theorem foot_appendRecord {pr : Print} {z s : State} {e : Event} (hP : fp_appendRecord.Sub pr) (hk : Within pr z s) :
    Within pr z (appendRecord e s) := by
  simp only [fp_appendRecord, Print.join_cons, Print.join_nil, and_true] at hP
  obtain ⟨e0, e1, e2, e3, e4, e5⟩ := hP
  unfold appendRecord
  iterate 40 (try any_goals first | with_reducible assumption | exact Print.has_reg e0 | exact Print.has_reg e1 | exact Print.has_reg e2 | exact Print.has_reg e3 | exact Print.has_prt e4 | with_reducible apply Print.has_ite | with_reducible refine Within.put _ ?_ ?_ | with_reducible refine Within.event _ ?_ ?_ | with_reducible refine Within.addWrap _ ?_ ?_ | with_reducible refine foot_eventView e5 ?_ | exact Or.inr (Print.has_prt (by assumption)) | with_reducible exact Or.inl rfl | (dsimp only) | split | with_reducible apply Within.upd)

def fp_takeEvent : Print := .join
  [.reg R.REC_LOST.COUNT,
   .prt .log,
   fp_appendRecord]

theorem foot_takeEvent {pr : Print} {z s : State} {e : Event} (hP : fp_takeEvent.Sub pr) (hk : Within pr z s) :
    Within pr z (takeEvent e s) := by
  simp only [fp_takeEvent, Print.join_cons, Print.join_nil, and_true] at hP
  obtain ⟨e0, e1, e2⟩ := hP
  unfold takeEvent
  iterate 40 (try any_goals first | with_reducible assumption | exact Print.has_reg e0 | exact Print.has_prt e1 | with_reducible apply Print.has_ite | with_reducible refine Within.addSat _ ?_ ?_ | with_reducible refine foot_appendRecord e2 ?_ | exact Or.inr (Print.has_prt (by assumption)) | with_reducible exact Or.inl rfl | (dsimp only) | split | with_reducible apply Within.upd)

def fp_effRecordWrite : Print := .join
  [.prt .log,
   fp_takeEvent]

theorem foot_effRecordWrite {pr : Print} {z s : State} (hP : fp_effRecordWrite.Sub pr) (hk : Within pr z s) :
    Within pr z (effRecordWrite s) := by
  simp only [fp_effRecordWrite, Print.join_cons, Print.join_nil, and_true] at hP
  obtain ⟨e0, e1⟩ := hP
  unfold effRecordWrite
  iterate 40 (try any_goals first | with_reducible assumption | exact Print.has_prt e0 | with_reducible refine foot_takeEvent e1 ?_ | exact Or.inr (Print.has_prt (by assumption)) | with_reducible exact Or.inl rfl | (dsimp only) | split | with_reducible apply Within.upd)

def fp_execRecordWrite : Print := .join
  [fp_finish,
   fp_effRecordWrite]

theorem foot_execRecordWrite {pr : Print} {z s t : State} (hP : fp_execRecordWrite.Sub pr) (hk : Within pr z s)
    (h : execRecordWrite s = .next t) : Within pr z t := by
  simp only [fp_execRecordWrite, Print.join_cons, Print.join_nil, and_true] at hP
  obtain ⟨e0, e1⟩ := hP
  unfold execRecordWrite done at h
  injection h with h
  subst h
  iterate 40 (try any_goals first | with_reducible assumption | with_reducible refine foot_finish e0 ?_ | with_reducible refine foot_effRecordWrite e1 ?_)

def fp_effWatchTrigger (w : Option Nat) : Print := .join
  [.reg1 R.REC_TRIG.TRUE w,
   .prt .log,
   fp_record]

theorem foot_effWatchTrigger {pr : Print} {z s : State} {w : Nat} {o_w : Option Nat} (n_w : Names o_w w) (hP : (fp_effWatchTrigger o_w).Sub pr) (hk : Within pr z s) :
    Within pr z (effWatchTrigger w s) := by
  simp only [fp_effWatchTrigger, Print.join_cons, Print.join_nil, and_true] at hP
  obtain ⟨e0, e1, e2⟩ := hP
  unfold effWatchTrigger
  iterate 40 (try any_goals first | with_reducible assumption | exact Print.has_reg1 n_w e0 | exact Print.has_prt e1 | with_reducible apply Print.has_ite | with_reducible refine Within.putB _ ?_ ?_ | with_reducible refine foot_record e2 ?_ | with_reducible refine Within.when ?_ ?_ | exact Or.inr (Print.has_prt (by assumption)) | with_reducible exact Or.inl rfl | intro _ | (dsimp only) | split | with_reducible apply Within.upd)

def fp_execWatchTrigger (trigger : Option Nat) : Print := .join
  [fp_finish,
   fp_effWatchTrigger trigger]

theorem foot_execWatchTrigger {pr : Print} {z s t : State} {trigger : Nat} {o_trigger : Option Nat} (n_trigger : Names o_trigger trigger) (hP : (fp_execWatchTrigger o_trigger).Sub pr) (hk : Within pr z s)
    (h : execWatchTrigger trigger s = .next t) : Within pr z t := by
  simp only [fp_execWatchTrigger, Print.join_cons, Print.join_nil, and_true] at hP
  obtain ⟨e0, e1⟩ := hP
  unfold execWatchTrigger done at h
  injection h with h
  subst h
  iterate 40 (try any_goals first | with_reducible assumption | with_reducible refine foot_finish e0 ?_ | with_reducible refine foot_effWatchTrigger n_trigger e1 ?_)

def fp_scoreCounter (c : Option Nat) : Print := .join
  [.reg1 R.HLT_D.D c,
   .reg1 R.HLT_TERM.S c,
   .reg1 R.HLT_TERM.T c,
   .prt .log]

theorem foot_scoreCounter {pr : Print} {z s : State} {c : Nat} {o_c : Option Nat} (n_c : Names o_c c) (hP : (fp_scoreCounter o_c).Sub pr) (hk : Within pr z s) :
    Within pr z (scoreCounter c s) := by
  simp only [fp_scoreCounter, Print.join_cons, Print.join_nil, and_true] at hP
  obtain ⟨e0, e1, e2, e3⟩ := hP
  unfold scoreCounter
  iterate 40 (try any_goals first | with_reducible assumption | exact Print.has_reg1 n_c e0 | exact Print.has_reg1 n_c e1 | exact Print.has_reg1 n_c e2 | exact Print.has_prt e3 | with_reducible apply Print.has_ite | with_reducible refine Within.put _ ?_ ?_ | exact Or.inr (Print.has_prt (by assumption)) | with_reducible exact Or.inl rfl | (dsimp only) | with_reducible apply Within.upd)

def fp_scoreThermal : Print := .join
  [.reg1 R.HLT_TERM.S (some 1),
   .reg1 R.HLT_TERM.T (some 1)]

theorem foot_scoreThermal {pr : Print} {z s : State} (hP : fp_scoreThermal.Sub pr) (hk : Within pr z s) :
    Within pr z (scoreThermal s) := by
  simp only [fp_scoreThermal, Print.join_cons, Print.join_nil, and_true] at hP
  obtain ⟨e0, e1⟩ := hP
  unfold scoreThermal
  iterate 40 (try any_goals first | with_reducible assumption | exact Print.has_reg1 Names.one e0 | exact Print.has_reg1 Names.one e1 | with_reducible apply Print.has_ite | with_reducible refine Within.put _ ?_ ?_ | (dsimp only) | split)

def fp_advise : Print := .join
  [.reg R.HLT_ADVICE.SCORE,
   .reg R.HLT_ADVICE.CONTRIB,
   .reg R.HLT_ADVICE.SHARED,
   .reg R.HLT_ADVICE.COUNT,
   .reg R.HLT_ADVICE_TS.TIME,
   .reg R.HLT_CFG.ARMED,
   fp_record,
   fp_notifyAll]

theorem foot_advise {pr : Print} {z s : State} {score : Nat} (hP : fp_advise.Sub pr) (hk : Within pr z s) :
    Within pr z (advise score s) := by
  simp only [fp_advise, Print.join_cons, Print.join_nil, and_true] at hP
  obtain ⟨e0, e1, e2, e3, e4, e5, e6, e7⟩ := hP
  unfold advise
  iterate 40 (try any_goals first | with_reducible assumption | exact Print.has_reg e0 | exact Print.has_reg e1 | exact Print.has_reg e2 | exact Print.has_reg e3 | exact Print.has_reg e4 | exact Print.has_reg e5 | with_reducible apply Print.has_ite | with_reducible refine Within.put _ ?_ ?_ | with_reducible refine Within.putB _ ?_ ?_ | with_reducible refine Within.addWrap _ ?_ ?_ | with_reducible refine foot_record e6 ?_ | with_reducible refine foot_notifyAll e7 ?_ | with_reducible refine Within.each ?_ ?_ | intro _ | (dsimp only) | split)

def fp_effHealthCompute : Print := .join
  [.reg R.HLT_FEED_MAP.MAP,
   .reg R.HLT_SCORE.SCORE,
   .reg R.HLT_SCORE.SEQ,
   .reg R.HLT_TS.TIME,
   fp_countHealth (some 4),
   fp_scoreCounter none,
   fp_scoreThermal,
   fp_advise]

theorem foot_effHealthCompute {pr : Print} {z s : State} (hP : fp_effHealthCompute.Sub pr) (hk : Within pr z s) :
    Within pr z (effHealthCompute s) := by
  simp only [fp_effHealthCompute, Print.join_cons, Print.join_nil, and_true] at hP
  obtain ⟨e0, e1, e2, e3, e4, e5, e6, e7⟩ := hP
  unfold effHealthCompute
  iterate 40 (try any_goals first | with_reducible assumption | exact Print.has_reg e0 | exact Print.has_reg e1 | exact Print.has_reg e2 | exact Print.has_reg e3 | with_reducible apply Print.has_ite | with_reducible refine Within.put _ ?_ ?_ | with_reducible refine Within.addWrap _ ?_ ?_ | with_reducible refine foot_countHealth Names.one e4 ?_ | with_reducible refine foot_scoreCounter Names.any e5 ?_ | with_reducible refine foot_scoreThermal e6 ?_ | with_reducible refine foot_advise e7 ?_ | with_reducible refine Within.each ?_ ?_ | with_reducible refine Within.when ?_ ?_ | with_reducible refine Within.fold ?_ ?_ | intro _ | (dsimp only) | split)

def fp_execHealthCompute : Print := .join
  [fp_finish,
   fp_effHealthCompute]

theorem foot_execHealthCompute {pr : Print} {z s t : State} (hP : fp_execHealthCompute.Sub pr) (hk : Within pr z s)
    (h : execHealthCompute s = .next t) : Within pr z t := by
  simp only [fp_execHealthCompute, Print.join_cons, Print.join_nil, and_true] at hP
  obtain ⟨e0, e1⟩ := hP
  unfold execHealthCompute done at h
  injection h with h
  subst h
  iterate 40 (try any_goals first | with_reducible assumption | with_reducible refine foot_finish e0 ?_ | with_reducible refine foot_effHealthCompute e1 ?_)

def fp_execCorrectableErrorReport (die : Option Nat) : Print := .join
  [fp_finish,
   fp_acceptFrame die,
   fp_countHealth (some 5)]

theorem foot_execCorrectableErrorReport {pr : Print} {z s t : State} {die : Nat} {frame : Frame} {count : Nat} {o_die : Option Nat} (n_die : Names o_die die) (hP : (fp_execCorrectableErrorReport o_die).Sub pr) (hk : Within pr z s)
    (h : execCorrectableErrorReport ⟨die, frame⟩ count s = .next t) : Within pr z t := by
  simp only [fp_execCorrectableErrorReport, Print.join_cons, Print.join_nil, and_true] at hP
  obtain ⟨e0, e1, e2⟩ := hP
  unfold execCorrectableErrorReport done at h
  injection h with h
  subst h
  iterate 40 (try any_goals first | with_reducible assumption | with_reducible refine foot_finish e0 ?_ | with_reducible refine foot_acceptFrame n_die e1 ?_ ?_ | with_reducible refine foot_countHealth Names.one e2 ?_ | intro _)

def fp_execRecTrigSet : Print := .join
  [.reg1 R.REC_TRIG.OFS none,
   .reg1 R.REC_TRIG.EN none,
   .reg1 R.REC_TRIG.OP none,
   .reg1 R.REC_TRIG.MASK none,
   .reg1 R.REC_TRIG.VALUE none,
   .reg1 R.REC_TRIG.TRUE none,
   .prt .log,
   fp_finish,
   fp_command,
   fp_bumpGen,
   fp_complete]

theorem foot_execRecTrigSet {pr : Print} {z s t : State} {port : Nat} {tag : Nat} (hP : fp_execRecTrigSet.Sub pr) (hk : Within pr z s)
    (h : execRecTrigSet port tag s = .next t) : Within pr z t := by
  simp only [fp_execRecTrigSet, Print.join_cons, Print.join_nil, and_true] at hP
  obtain ⟨e0, e1, e2, e3, e4, e5, e6, hP⟩ := hP
  obtain ⟨e7, e8, e9, e10⟩ := hP
  unfold execRecTrigSet done at h
  injection h with h
  subst h
  iterate 40 (try any_goals first | with_reducible assumption | exact Print.has_reg1 Names.any e0 | exact Print.has_reg1 Names.any e1 | exact Print.has_reg1 Names.any e2 | exact Print.has_reg1 Names.any e3 | exact Print.has_reg1 Names.any e4 | exact Print.has_reg1 Names.any e5 | exact Print.has_prt e6 | with_reducible apply Print.has_ite | with_reducible refine Within.put _ ?_ ?_ | with_reducible refine foot_finish e7 ?_ | with_reducible refine foot_command e8 ?_ ?_ | with_reducible refine foot_bumpGen e9 ?_ | with_reducible refine foot_complete e10 ?_ | exact Or.inr (Print.has_prt (by assumption)) | with_reducible exact Or.inl rfl | intro _ | (dsimp only) | with_reducible apply Within.upd)

def fp_execRecSnapSet : Print := .join
  [.reg1 R.REC_SNAP.OFS none,
   .reg1 R.REC_SNAP.EN none,
   .reg1 R.REC_SNAP.GROUPS none,
   fp_finish,
   fp_command,
   fp_bumpGen,
   fp_complete]

theorem foot_execRecSnapSet {pr : Print} {z s t : State} {port : Nat} {tag : Nat} (hP : fp_execRecSnapSet.Sub pr) (hk : Within pr z s)
    (h : execRecSnapSet port tag s = .next t) : Within pr z t := by
  simp only [fp_execRecSnapSet, Print.join_cons, Print.join_nil, and_true] at hP
  obtain ⟨e0, e1, e2, e3, e4, e5, e6⟩ := hP
  unfold execRecSnapSet done at h
  injection h with h
  subst h
  iterate 40 (try any_goals first | with_reducible assumption | exact Print.has_reg1 Names.any e0 | exact Print.has_reg1 Names.any e1 | exact Print.has_reg1 Names.any e2 | with_reducible apply Print.has_ite | with_reducible refine Within.put _ ?_ ?_ | with_reducible refine foot_finish e3 ?_ | with_reducible refine foot_command e4 ?_ ?_ | with_reducible refine foot_bumpGen e5 ?_ | with_reducible refine foot_complete e6 ?_ | intro _ | (dsimp only))

def fp_execRecClear : Print := .join
  [.reg R.REC_STAT.COUNT,
   .reg R.REC_STAT.FULL,
   .reg R.REC_LOST.COUNT,
   .reg R.REC_STAT.CLEARING,
   .prt .log,
   fp_finish,
   fp_command,
   fp_markStarted]

theorem foot_execRecClear {pr : Print} {z s t : State} {port : Nat} {tag : Nat} (hP : fp_execRecClear.Sub pr) (hk : Within pr z s)
    (h : execRecClear port tag s = .next t) : Within pr z t := by
  simp only [fp_execRecClear, Print.join_cons, Print.join_nil, and_true] at hP
  obtain ⟨e0, e1, e2, e3, e4, e5, e6, e7⟩ := hP
  unfold execRecClear done at h
  injection h with h
  subst h
  iterate 40 (try any_goals first | with_reducible assumption | exact Print.has_reg e0 | exact Print.has_reg e1 | exact Print.has_reg e2 | exact Print.has_reg e3 | exact Print.has_prt e4 | with_reducible apply Print.has_ite | with_reducible refine Within.put _ ?_ ?_ | with_reducible refine foot_finish e5 ?_ | with_reducible refine foot_command e6 ?_ ?_ | with_reducible refine foot_markStarted e7 ?_ | exact Or.inr (Print.has_prt (by assumption)) | with_reducible exact Or.inl rfl | intro _ | (dsimp only) | with_reducible apply Within.upd)

def fp_effRecClearDone : Print := .join
  [.reg R.REC_STAT.CLEARING,
   .prt .log,
   fp_appendRecord,
   fp_completeAt]

theorem foot_effRecClearDone {pr : Print} {z s : State} (hP : fp_effRecClearDone.Sub pr) (hk : Within pr z s) :
    Within pr z (effRecClearDone s) := by
  simp only [fp_effRecClearDone, Print.join_cons, Print.join_nil, and_true] at hP
  obtain ⟨e0, e1, e2, e3⟩ := hP
  unfold effRecClearDone
  iterate 40 (try any_goals first | with_reducible assumption | exact Print.has_reg e0 | exact Print.has_prt e1 | with_reducible apply Print.has_ite | with_reducible refine Within.put _ ?_ ?_ | with_reducible refine foot_appendRecord e2 ?_ | with_reducible refine foot_completeAt e3 ?_ | exact Or.inr (Print.has_prt (by assumption)) | with_reducible exact Or.inl rfl | (dsimp only) | split | with_reducible apply Within.upd)

def fp_execRecClearDone : Print := .join
  [fp_finish,
   fp_effRecClearDone]

theorem foot_execRecClearDone {pr : Print} {z s t : State} (hP : fp_execRecClearDone.Sub pr) (hk : Within pr z s)
    (h : execRecClearDone s = .next t) : Within pr z t := by
  simp only [fp_execRecClearDone, Print.join_cons, Print.join_nil, and_true] at hP
  obtain ⟨e0, e1⟩ := hP
  unfold execRecClearDone done at h
  injection h with h
  subst h
  iterate 40 (try any_goals first | with_reducible assumption | with_reducible refine foot_finish e0 ?_ | with_reducible refine foot_effRecClearDone e1 ?_)

def fp_execHealthSet : Print := .join
  [.reg R.HLT_CFG.TH,
   .reg R.HLT_CFG.HYST,
   .reg R.HLT_THERM.M0,
   .reg1 R.HLT_CONTRIB.GAIN none,
   .reg1 R.HLT_CONTRIB.DECAY none,
   .reg1 R.HLT_CONTRIB.WEIGHT none,
   fp_finish,
   fp_command,
   fp_bumpGen,
   fp_complete]

theorem foot_execHealthSet {pr : Print} {z s t : State} {port : Nat} {tag : Nat} (hP : fp_execHealthSet.Sub pr) (hk : Within pr z s)
    (h : execHealthSet port tag s = .next t) : Within pr z t := by
  simp only [fp_execHealthSet, Print.join_cons, Print.join_nil, and_true] at hP
  obtain ⟨e0, e1, e2, e3, e4, e5, e6, hP⟩ := hP
  obtain ⟨e7, e8, e9⟩ := hP
  unfold execHealthSet done at h
  injection h with h
  subst h
  iterate 40 (try any_goals first | with_reducible assumption | exact Print.has_reg e0 | exact Print.has_reg e1 | exact Print.has_reg e2 | exact Print.has_reg1 Names.any e3 | exact Print.has_reg1 Names.any e4 | exact Print.has_reg1 Names.any e5 | with_reducible apply Print.has_ite | with_reducible refine Within.put _ ?_ ?_ | with_reducible refine foot_finish e6 ?_ | with_reducible refine foot_command e7 ?_ ?_ | with_reducible refine foot_bumpGen e8 ?_ | with_reducible refine foot_complete e9 ?_ | with_reducible refine Within.each ?_ ?_ | intro _ | (dsimp only))

def fp_keySend : Print := .join
  [.prt .out]

theorem foot_keySend {pr : Print} {z s : State} {links : Nat} {p : Nat} {o : KeyOrder} (hP : fp_keySend.Sub pr) (hk : Within pr z s) :
    Within pr z (keySend links p o s) := by
  simp only [fp_keySend, Print.join_cons, Print.join_nil, and_true] at hP
  have e0 := hP
  unfold keySend
  iterate 40 (try any_goals first | with_reducible assumption | exact Print.has_prt e0 | with_reducible refine Within.emit _ ?_ ?_)

def fp_sendLoads : Print := .join
  [fp_keySend]

theorem foot_sendLoads {pr : Print} {z s : State} {links : Nat} {p : Nat} {epoch : Nat} {mem : Nat} {link : Nat} (hP : fp_sendLoads.Sub pr) (hk : Within pr z s) :
    Within pr z (sendLoads links p epoch mem link s) := by
  simp only [fp_sendLoads, Print.join_cons, Print.join_nil, and_true] at hP
  have e0 := hP
  unfold sendLoads
  iterate 40 (try any_goals first | with_reducible assumption | with_reducible refine foot_keySend e0 ?_ | (dsimp only))

def fp_eraseAll : Print := .join
  [fp_keySend]

theorem foot_eraseAll {pr : Print} {z s : State} {p : Nat} (hP : fp_eraseAll.Sub pr) (hk : Within pr z s) :
    Within pr z (eraseAll p s) := by
  simp only [fp_eraseAll, Print.join_cons, Print.join_nil, and_true] at hP
  have e0 := hP
  unfold eraseAll
  iterate 40 (try any_goals first | with_reducible assumption | with_reducible refine foot_keySend e0 ?_ | with_reducible refine Within.each ?_ ?_ | intro _ | (dsimp only))

def fp_drbgUsed : Print := .join
  [.prt .sec,
   fp_drawn]

theorem foot_drbgUsed {pr : Print} {z s : State} (hP : fp_drbgUsed.Sub pr) (hk : Within pr z s) :
    Within pr z (drbgUsed s) := by
  simp only [fp_drbgUsed, Print.join_cons, Print.join_nil, and_true] at hP
  obtain ⟨e0, e1⟩ := hP
  unfold drbgUsed
  iterate 40 (try any_goals first | with_reducible assumption | exact Print.has_prt e0 | with_reducible refine foot_drawn e1 ?_ | exact Or.inr (Print.has_prt (by assumption)) | with_reducible exact Or.inl rfl | with_reducible apply Within.upd)

def fp_loseAttest (p : Option Nat) : Print := .join
  [.reg1 R.SEC_PART_CFG.STATE p,
   .reg R.SEC_EVENT]

theorem foot_loseAttest {pr : Print} {z s : State} {p : Nat} {o_p : Option Nat} (n_p : Names o_p p) (hP : (fp_loseAttest o_p).Sub pr) (hk : Within pr z s) :
    Within pr z (loseAttest p s) := by
  simp only [fp_loseAttest, Print.join_cons, Print.join_nil, and_true] at hP
  obtain ⟨e0, e1⟩ := hP
  unfold loseAttest
  iterate 40 (try any_goals first | with_reducible assumption | exact Print.has_reg1 n_p e0 | exact Print.has_reg e1 | with_reducible apply Print.has_ite | with_reducible refine Within.put _ ?_ ?_ | with_reducible refine Within.event _ ?_ ?_ | (dsimp only) | split)

def fp_freezeTemps : Print := .join
  [.prt .sec]

theorem foot_freezeTemps {pr : Print} {z s : State} {p : Nat} (hP : fp_freezeTemps.Sub pr) (hk : Within pr z s) :
    Within pr z (freezeTemps p s) := by
  simp only [fp_freezeTemps, Print.join_cons, Print.join_nil, and_true] at hP
  have e0 := hP
  unfold freezeTemps
  iterate 40 (try any_goals first | with_reducible assumption | exact Print.has_prt e0 | with_reducible refine Within.fold ?_ ?_ | exact Or.inr (Print.has_prt (by assumption)) | with_reducible exact Or.inl rfl | intro _ | (dsimp only) | with_reducible apply Within.upd)

def fp_setScrub : Print := .join
  [.prt .sec]

theorem foot_setScrub {pr : Print} {z s : State} {p : Nat} {c : Option ScrubH} (hP : fp_setScrub.Sub pr) (hk : Within pr z s) :
    Within pr z (setScrub p c s) := by
  simp only [fp_setScrub, Print.join_cons, Print.join_nil, and_true] at hP
  have e0 := hP
  unfold setScrub
  iterate 40 (try any_goals first | with_reducible assumption | exact Print.has_prt e0 | with_reducible refine Within.setPart _ _ ?_ ?_ | exact Or.inr (Print.has_prt (by assumption)) | with_reducible exact Or.inl rfl | with_reducible apply Within.upd)

def fp_idleLinks : Print := .join
  [.prt .sec,
   fp_keySend]

theorem foot_idleLinks {pr : Print} {z s : State} {p : Nat} {on : Bool} (hP : fp_idleLinks.Sub pr) (hk : Within pr z s) :
    Within pr z (idleLinks p on s) := by
  simp only [fp_idleLinks, Print.join_cons, Print.join_nil, and_true] at hP
  obtain ⟨e0, e1⟩ := hP
  unfold idleLinks
  iterate 40 (try any_goals first | with_reducible assumption | exact Print.has_prt e0 | with_reducible refine foot_keySend e1 ?_ | exact Or.inr (Print.has_prt (by assumption)) | with_reducible exact Or.inl rfl | (dsimp only) | split | with_reducible apply Within.upd)

def fp_scrubFence : Print := .join
  [.prt .sec,
   fp_freezeTemps,
   fp_idleLinks,
   fp_sendOrder]

theorem foot_scrubFence {pr : Print} {z s : State} {p : Nat} (hP : fp_scrubFence.Sub pr) (hk : Within pr z s) :
    Within pr z (scrubFence p s) := by
  simp only [fp_scrubFence, Print.join_cons, Print.join_nil, and_true] at hP
  obtain ⟨e0, e1, e2, e3⟩ := hP
  unfold scrubFence
  iterate 40 (try any_goals first | with_reducible assumption | exact Print.has_prt e0 | with_reducible refine Within.setPart _ _ ?_ ?_ | with_reducible refine foot_freezeTemps e1 ?_ | with_reducible refine foot_idleLinks e2 ?_ | with_reducible refine foot_sendOrder e3 ?_ | with_reducible refine Within.each ?_ ?_ | with_reducible refine Within.when ?_ ?_ | exact Or.inr (Print.has_prt (by assumption)) | with_reducible exact Or.inl rfl | intro _ | (dsimp only) | split | with_reducible apply Within.upd)

def fp_scrubErase (p : Option Nat) : Print := .join
  [.prt .sec,
   .reg1 R.SEC_PART_EPOCH.PREV_VALID p,
   .reg1 R.SEC_PART_MKEY.LOADED p,
   .reg1 R.SEC_PART_PUB.X p,
   .reg1 R.SEC_PART_PUB.Y p,
   .reg1 R.SEC_PART_PREV.PAGES p,
   .reg1 R.SEC_PART_PREV2.INFLIGHT p,
   fp_eraseAll]

theorem foot_scrubErase {pr : Print} {z s : State} {p : Nat} {o_p : Option Nat} (n_p : Names o_p p) (hP : (fp_scrubErase o_p).Sub pr) (hk : Within pr z s) :
    Within pr z (scrubErase p s) := by
  simp only [fp_scrubErase, Print.join_cons, Print.join_nil, and_true] at hP
  obtain ⟨e0, e1, e2, e3, e4, e5, e6, e7⟩ := hP
  unfold scrubErase
  iterate 40 (try any_goals first | with_reducible assumption | exact Print.has_prt e0 | exact Print.has_reg1 n_p e1 | exact Print.has_reg1 n_p e2 | exact Print.has_reg1 n_p e3 | exact Print.has_reg1 n_p e4 | exact Print.has_reg1 n_p e5 | exact Print.has_reg1 n_p e6 | with_reducible apply Print.has_ite | with_reducible refine Within.put _ ?_ ?_ | with_reducible refine Within.setPart _ _ ?_ ?_ | with_reducible refine foot_eraseAll e7 ?_ | exact Or.inr (Print.has_prt (by assumption)) | with_reducible exact Or.inl rfl | (dsimp only) | split | with_reducible apply Within.upd)

def fp_scrubAgain (p : Option Nat) : Print := .join
  [fp_scrubErase p]

theorem foot_scrubAgain {pr : Print} {z s : State} {p : Nat} {o_p : Option Nat} (n_p : Names o_p p) (hP : (fp_scrubAgain o_p).Sub pr) (hk : Within pr z s) :
    Within pr z (scrubAgain p s) := by
  simp only [fp_scrubAgain, Print.join_cons, Print.join_nil, and_true] at hP
  have e0 := hP
  unfold scrubAgain
  iterate 40 (try any_goals first | with_reducible assumption | with_reducible refine foot_scrubErase n_p e0 ?_ | (dsimp only) | split)

def fp_sendScrub (p : Option Nat) : Print := .join
  [.reg1 R.SEC_PART_SCRUB.REMAIN p,
   fp_drawn,
   fp_keySend]

theorem foot_sendScrub {pr : Print} {z s : State} {links : Nat} {p : Nat} {o_p : Option Nat} (n_p : Names o_p p) (hP : (fp_sendScrub o_p).Sub pr) (hk : Within pr z s) :
    Within pr z (sendScrub links p s) := by
  simp only [fp_sendScrub, Print.join_cons, Print.join_nil, and_true] at hP
  obtain ⟨e0, e1, e2⟩ := hP
  unfold sendScrub
  iterate 40 (try any_goals first | with_reducible assumption | exact Print.has_reg1 n_p e0 | with_reducible apply Print.has_ite | with_reducible refine Within.put _ ?_ ?_ | with_reducible refine foot_drawn e1 ?_ | with_reducible refine foot_keySend e2 ?_ | (dsimp only))

def fp_scrubOverwrite (p : Option Nat) : Print := .join
  [fp_drbgUsed,
   fp_setScrub,
   fp_keySend,
   fp_sendScrub p]

theorem foot_scrubOverwrite {pr : Print} {z s : State} {p : Nat} {o_p : Option Nat} (n_p : Names o_p p) (hP : (fp_scrubOverwrite o_p).Sub pr) (hk : Within pr z s) :
    Within pr z (scrubOverwrite p s) := by
  simp only [fp_scrubOverwrite, Print.join_cons, Print.join_nil, and_true] at hP
  obtain ⟨e0, e1, e2, e3⟩ := hP
  unfold scrubOverwrite
  iterate 40 (try any_goals first | with_reducible assumption | with_reducible refine foot_drbgUsed e0 ?_ | with_reducible refine foot_setScrub e1 ?_ | with_reducible refine foot_keySend e2 ?_ | with_reducible refine foot_sendScrub n_p e3 ?_ | exact Or.inr (Print.has_prt (by assumption)) | with_reducible exact Or.inl rfl | (dsimp only) | split | with_reducible apply Within.upd)

def fp_scrubFalls (p : Option Nat) : Print := .join
  [.reg1 R.SEC_PART_SCRUB.REMAIN p,
   fp_drawn]

theorem foot_scrubFalls {pr : Print} {z s : State} {p : Nat} {o_p : Option Nat} (n_p : Names o_p p) (hP : (fp_scrubFalls o_p).Sub pr) (hk : Within pr z s) :
    Within pr z (scrubFalls p s) := by
  simp only [fp_scrubFalls, Print.join_cons, Print.join_nil, and_true] at hP
  obtain ⟨e0, e1⟩ := hP
  unfold scrubFalls
  iterate 40 (try any_goals first | with_reducible assumption | exact Print.has_reg1 n_p e0 | with_reducible apply Print.has_ite | with_reducible refine Within.put _ ?_ ?_ | with_reducible refine foot_drawn e1 ?_ | (dsimp only) | split)

def fp_scrubAbort : Print := .join
  [fp_setScrub,
   fp_sendOrder]

theorem foot_scrubAbort {pr : Print} {z s : State} {p : Nat} {c : ScrubH} (hP : fp_scrubAbort.Sub pr) (hk : Within pr z s) :
    Within pr z (scrubAbort p c s) := by
  simp only [fp_scrubAbort, Print.join_cons, Print.join_nil, and_true] at hP
  obtain ⟨e0, e1⟩ := hP
  unfold scrubAbort
  iterate 40 (try any_goals first | with_reducible assumption | with_reducible refine foot_setScrub e0 ?_ | with_reducible refine foot_sendOrder e1 ?_ | with_reducible refine Within.each ?_ ?_ | exact Or.inr (Print.has_prt (by assumption)) | with_reducible exact Or.inl rfl | intro _ | (dsimp only) | with_reducible apply Within.upd)

def fp_scrubAck : Print := .join
  [fp_scrubAbort,
   fp_setScrub]

theorem foot_scrubAck {pr : Print} {z s : State} {p : Nat} {m : Nat} (hP : fp_scrubAck.Sub pr) (hk : Within pr z s) :
    Within pr z (scrubAck p m s) := by
  simp only [fp_scrubAck, Print.join_cons, Print.join_nil, and_true] at hP
  obtain ⟨e0, e1⟩ := hP
  unfold scrubAck
  iterate 40 (try any_goals first | with_reducible assumption | with_reducible refine foot_scrubAbort e0 ?_ | with_reducible refine foot_setScrub e1 ?_ | exact Or.inr (Print.has_prt (by assumption)) | with_reducible exact Or.inl rfl | (dsimp only) | split | with_reducible apply Within.upd)

def fp_scrubResume : Print := .join
  [fp_scrubFence]

theorem foot_scrubResume {pr : Print} {z s : State} {p : Nat} (hP : fp_scrubResume.Sub pr) (hk : Within pr z s) :
    Within pr z (scrubResume p s) := by
  simp only [fp_scrubResume, Print.join_cons, Print.join_nil, and_true] at hP
  have e0 := hP
  unfold scrubResume
  iterate 40 (try any_goals first | with_reducible assumption | with_reducible refine foot_scrubFence e0 ?_ | (dsimp only) | split)

def fp_scrubsResume : Print := .join
  [fp_scrubResume]

theorem foot_scrubsResume {pr : Print} {z s : State} (hP : fp_scrubsResume.Sub pr) (hk : Within pr z s) :
    Within pr z (scrubsResume s) := by
  simp only [fp_scrubsResume, Print.join_cons, Print.join_nil, and_true] at hP
  have e0 := hP
  unfold scrubsResume
  iterate 40 (try any_goals first | with_reducible assumption | with_reducible refine foot_scrubResume e0 ?_ | with_reducible refine Within.each ?_ ?_ | intro _)

def fp_scrubFailed (p : Option Nat) : Print := .join
  [.reg1 R.SEC_PART_CFG.STATE p,
   .reg R.SEC_EVENT,
   fp_setScrub,
   fp_faultOn,
   fp_record,
   fp_completeAt,
   fp_drawn]

theorem foot_scrubFailed {pr : Print} {z s : State} {p : Nat} {o_p : Option Nat} (n_p : Names o_p p) (hP : (fp_scrubFailed o_p).Sub pr) (hk : Within pr z s) :
    Within pr z (scrubFailed p s) := by
  simp only [fp_scrubFailed, Print.join_cons, Print.join_nil, and_true] at hP
  obtain ⟨e0, e1, e2, e3, e4, e5, e6⟩ := hP
  unfold scrubFailed
  iterate 40 (try any_goals first | with_reducible assumption | exact Print.has_reg1 n_p e0 | exact Print.has_reg e1 | with_reducible apply Print.has_ite | with_reducible refine Within.put _ ?_ ?_ | with_reducible refine Within.event _ ?_ ?_ | with_reducible refine foot_setScrub e2 ?_ | with_reducible refine foot_faultOn e3 ?_ | with_reducible refine foot_record e4 ?_ | with_reducible refine foot_completeAt e5 ?_ | with_reducible refine foot_drawn e6 ?_ | (dsimp only) | split)

def fp_scrubsTripped : Print := .join
  [fp_scrubFailed none]

theorem foot_scrubsTripped {pr : Print} {z s : State} (hP : fp_scrubsTripped.Sub pr) (hk : Within pr z s) :
    Within pr z (scrubsTripped s) := by
  simp only [fp_scrubsTripped, Print.join_cons, Print.join_nil, and_true] at hP
  have e0 := hP
  unfold scrubsTripped
  iterate 40 (try any_goals first | with_reducible assumption | with_reducible refine foot_scrubFailed Names.any e0 ?_ | with_reducible refine Within.each ?_ ?_ | intro _ | (dsimp only))

def fp_freePart (p : Option Nat) : Print := .join
  [.prt .sec,
   .reg1 R.SEC_PART_CFG.STATE p,
   .reg1 R.SEC_PART_CFG.CONF p,
   .reg1 R.SEC_PART_CFG.LEGACY_OK p,
   .reg1 R.SEC_PART_CFG.MODEL_KEYS p,
   .reg1 R.SEC_PART_RES.DIES p,
   .reg1 R.SEC_PART_RES.STACKS p,
   .reg1 R.SEC_PART_QG.FIRST p,
   (.reg1 R.SEC_PART_QG.COUNT p),
   .reg1 R.SEC_PART_LINK.PORTS p,
   .reg1 R.SEC_PART_EPOCH.CUR p,
   .reg1 R.SEC_PART_EPOCH.PREV_VALID p,
   .reg1 R.SEC_PART_PREV.PAGES p,
   .reg1 R.SEC_PART_PREV2.INFLIGHT p,
   .reg1 R.SEC_PART_MKEY.LOADED p,
   .reg1 R.SEC_PART_SCRUB.REMAIN p,
   .reg1 R.SEC_PART_PUB.X p,
   .reg1 R.SEC_PART_PUB.Y p]

theorem foot_freePart {pr : Print} {z s : State} {p : Nat} {o_p : Option Nat} (n_p : Names o_p p) (hP : (fp_freePart o_p).Sub pr) (hk : Within pr z s) :
    Within pr z (freePart p s) := by
  simp only [fp_freePart, Print.join_cons, Print.join_nil, and_true] at hP
  obtain ⟨e0, e1, e2, e3, e4, e5, e6, hP⟩ := hP
  obtain ⟨e7, e8, e9, e10, e11, e12, e13, hP⟩ := hP
  obtain ⟨e14, e15, e16, e17⟩ := hP
  unfold freePart
  iterate 40 (try any_goals first | with_reducible assumption | exact Print.has_prt e0 | exact Print.has_reg1 n_p e1 | exact Print.has_reg1 n_p e2 | exact Print.has_reg1 n_p e3 | exact Print.has_reg1 n_p e4 | (exact Print.has_reg1 n_p e5) | exact Print.has_reg1 n_p e6 | exact Print.has_reg1 n_p e7 | exact Print.has_reg1 n_p e8 | exact Print.has_reg1 n_p e9 | exact Print.has_reg1 n_p e10 | (exact Print.has_reg1 n_p e11) | exact Print.has_reg1 n_p e12 | exact Print.has_reg1 n_p e13 | exact Print.has_reg1 n_p e14 | exact Print.has_reg1 n_p e15 | exact Print.has_reg1 n_p e16 | (exact Print.has_reg1 n_p e17) | with_reducible apply Print.has_ite | with_reducible refine Within.put _ ?_ ?_ | with_reducible refine Within.setPart _ _ ?_ ?_ | (dsimp only))

def fp_installKeys (p : Option Nat) : Print := .join
  [.prt .sec,
   .reg1 R.SEC_PART_EPOCH.CUR p,
   .reg1 R.SEC_PART_EPOCH.PREV_VALID p,
   .reg1 R.SEC_PART_PUB.X p,
   .reg1 R.SEC_PART_PUB.Y p,
   fp_drbgUsed,
   fp_sendLoads,
   fp_keySend]

theorem foot_installKeys {pr : Print} {z s : State} {p : Nat} {o_p : Option Nat} (n_p : Names o_p p) (hP : (fp_installKeys o_p).Sub pr) (hk : Within pr z s) :
    Within pr z (installKeys p s) := by
  simp only [fp_installKeys, Print.join_cons, Print.join_nil, and_true] at hP
  obtain ⟨e0, e1, e2, e3, e4, e5, e6, e7⟩ := hP
  unfold installKeys
  iterate 40 (try any_goals first | with_reducible assumption | exact Print.has_prt e0 | exact Print.has_reg1 n_p e1 | exact Print.has_reg1 n_p e2 | exact Print.has_reg1 n_p e3 | exact Print.has_reg1 n_p e4 | with_reducible apply Print.has_ite | with_reducible refine Within.put384 _ ?_ ?_ | with_reducible refine Within.put _ ?_ ?_ | with_reducible refine Within.setPart _ _ ?_ ?_ | with_reducible refine foot_drbgUsed e5 ?_ | with_reducible refine foot_sendLoads e6 ?_ | with_reducible refine foot_keySend e7 ?_ | exact Or.inr (Print.has_prt (by assumption)) | with_reducible exact Or.inl rfl | (dsimp only) | split | with_reducible apply Within.upd)

def fp_reloadKeys : Print := .join
  [fp_sendLoads,
   fp_keySend]

theorem foot_reloadKeys {pr : Print} {z s : State} {links : Nat} {p : Nat} (hP : fp_reloadKeys.Sub pr) (hk : Within pr z s) :
    Within pr z (reloadKeys links p s) := by
  simp only [fp_reloadKeys, Print.join_cons, Print.join_nil, and_true] at hP
  obtain ⟨e0, e1⟩ := hP
  unfold reloadKeys
  iterate 40 (try any_goals first | with_reducible assumption | with_reducible refine foot_sendLoads e0 ?_ | with_reducible refine foot_keySend e1 ?_ | with_reducible refine Within.each ?_ ?_ | with_reducible refine Within.when ?_ ?_ | intro _ | (dsimp only) | split)

def fp_reloadPart (p : Option Nat) : Print := .join
  [fp_setScrub,
   fp_keySend,
   fp_sendScrub p,
   fp_reloadKeys]

theorem foot_reloadPart {pr : Print} {z s : State} {p : Nat} {o_p : Option Nat} (n_p : Names o_p p) (hP : (fp_reloadPart o_p).Sub pr) (hk : Within pr z s) :
    Within pr z (reloadPart p s) := by
  simp only [fp_reloadPart, Print.join_cons, Print.join_nil, and_true] at hP
  obtain ⟨e0, e1, e2, e3⟩ := hP
  unfold reloadPart
  iterate 40 (try any_goals first | with_reducible assumption | with_reducible refine foot_setScrub e0 ?_ | with_reducible refine foot_keySend e1 ?_ | with_reducible refine foot_sendScrub n_p e2 ?_ | with_reducible refine foot_reloadKeys e3 ?_ | exact Or.inr (Print.has_prt (by assumption)) | with_reducible exact Or.inl rfl | (dsimp only) | split | with_reducible apply Within.upd)

def fp_reloadDie : Print := .join
  [fp_sendScrub none,
   fp_reloadKeys]

theorem foot_reloadDie {pr : Print} {z s : State} {d : Nat} (hP : fp_reloadDie.Sub pr) (hk : Within pr z s) :
    Within pr z (reloadDie d s) := by
  simp only [fp_reloadDie, Print.join_cons, Print.join_nil, and_true] at hP
  obtain ⟨e0, e1⟩ := hP
  unfold reloadDie
  iterate 40 (try any_goals first | with_reducible assumption | with_reducible refine foot_sendScrub Names.any e0 ?_ | with_reducible refine foot_reloadKeys e1 ?_ | (dsimp only) | split)

def fp_setRecov : Print := .join
  [.prt .recov]

theorem foot_setRecov {pr : Print} {z s : State} {v : RecovH} (hP : fp_setRecov.Sub pr) (hk : Within pr z s) :
    Within pr z (setRecov v s) := by
  simp only [fp_setRecov, Print.join_cons, Print.join_nil, and_true] at hP
  have e0 := hP
  unfold setRecov
  iterate 40 (try any_goals first | with_reducible assumption | exact Print.has_prt e0 | exact Or.inr (Print.has_prt (by assumption)) | with_reducible exact Or.inl rfl | with_reducible apply Within.upd)

def fp_takeTap : Print := .join
  [fp_setRecov]

theorem foot_takeTap {pr : Print} {z s : State} {q : Nat} {w : Nat} (hP : fp_takeTap.Sub pr) (hk : Within pr z s) :
    Within pr z (takeTap q w s) := by
  simp only [fp_takeTap, Print.join_cons, Print.join_nil, and_true] at hP
  have e0 := hP
  unfold takeTap
  iterate 40 (try any_goals first | with_reducible assumption | with_reducible refine foot_setRecov e0 ?_ | exact Or.inr (Print.has_prt (by assumption)) | with_reducible exact Or.inl rfl | (dsimp only) | split | with_reducible apply Within.upd)

def fp_settleCtx (c : Option Nat) : Print := .join
  [.reg1 R.CTX_STATE.N_Q c,
   .reg1 R.CTX_STATE.PART c,
   .reg1 R.CTX_STATE.SPLIT c,
   .reg R.HNG_EVENT,
   fp_recordAt]

theorem foot_settleCtx {pr : Print} {z s : State} {c : Nat} {o_c : Option Nat} (n_c : Names o_c c) (hP : (fp_settleCtx o_c).Sub pr) (hk : Within pr z s) :
    Within pr z (settleCtx c s) := by
  simp only [fp_settleCtx, Print.join_cons, Print.join_nil, and_true] at hP
  obtain ⟨e0, e1, e2, e3, e4⟩ := hP
  unfold settleCtx
  iterate 40 (try any_goals first | with_reducible assumption | exact Print.has_reg1 n_c e0 | exact Print.has_reg1 n_c e1 | exact Print.has_reg1 n_c e2 | exact Print.has_reg e3 | with_reducible apply Print.has_ite | with_reducible refine Within.put _ ?_ ?_ | with_reducible refine Within.putB _ ?_ ?_ | with_reducible refine Within.event _ ?_ ?_ | with_reducible refine foot_recordAt e4 ?_ | with_reducible refine Within.when ?_ ?_ | intro _ | (dsimp only))

def fp_settle : Print := .join
  [fp_settleCtx none,
   fp_setRecov]

theorem foot_settle {pr : Print} {z s : State} (hP : fp_settle.Sub pr) (hk : Within pr z s) :
    Within pr z (settle s) := by
  simp only [fp_settle, Print.join_cons, Print.join_nil, and_true] at hP
  obtain ⟨e0, e1⟩ := hP
  unfold settle
  iterate 40 (try any_goals first | with_reducible assumption | with_reducible refine foot_settleCtx Names.any e0 ?_ | with_reducible refine foot_setRecov e1 ?_ | with_reducible refine Within.each ?_ ?_ | exact Or.inr (Print.has_prt (by assumption)) | with_reducible exact Or.inl rfl | intro _ | (dsimp only) | split | with_reducible apply Within.upd)

def fp_effQueueTaps : Print := .join
  [fp_setRecov,
   fp_settle,
   fp_takeTap]

theorem foot_effQueueTaps {pr : Print} {z s : State} {die : Nat} {taps : List Nat} (hP : fp_effQueueTaps.Sub pr) (hk : Within pr z s) :
    Within pr z (effQueueTaps die taps s) := by
  simp only [fp_effQueueTaps, Print.join_cons, Print.join_nil, and_true] at hP
  obtain ⟨e0, e1, e2⟩ := hP
  unfold effQueueTaps
  iterate 40 (try any_goals first | with_reducible assumption | with_reducible refine foot_setRecov e0 ?_ | with_reducible refine foot_settle e1 ?_ | with_reducible refine foot_takeTap e2 ?_ | with_reducible refine Within.each ?_ ?_ | exact Or.inr (Print.has_prt (by assumption)) | with_reducible exact Or.inl rfl | intro _ | (dsimp only) | split | with_reducible apply Within.upd)

def fp_execQueueTaps (die : Option Nat) : Print := .join
  [fp_finish,
   fp_acceptFrame die,
   fp_effQueueTaps]

theorem foot_execQueueTaps {pr : Print} {z s t : State} {die : Nat} {frame : Frame} {taps : List Nat} {o_die : Option Nat} (n_die : Names o_die die) (hP : (fp_execQueueTaps o_die).Sub pr) (hk : Within pr z s)
    (h : execQueueTaps ⟨die, frame⟩ taps s = .next t) : Within pr z t := by
  simp only [fp_execQueueTaps, Print.join_cons, Print.join_nil, and_true] at hP
  obtain ⟨e0, e1, e2⟩ := hP
  unfold execQueueTaps done at h
  injection h with h
  subst h
  iterate 40 (try any_goals first | with_reducible assumption | with_reducible refine foot_finish e0 ?_ | with_reducible refine foot_acceptFrame n_die e1 ?_ ?_ | with_reducible refine foot_effQueueTaps e2 ?_ | intro _)

def fp_execTapLate : Print := .join
  [.reg R.HNG_EVENT,
   fp_finish,
   fp_settle,
   fp_setRecov]

theorem foot_execTapLate {pr : Print} {z s t : State} {die : Nat} (hP : fp_execTapLate.Sub pr) (hk : Within pr z s)
    (h : execTapLate die s = .next t) : Within pr z t := by
  simp only [fp_execTapLate, Print.join_cons, Print.join_nil, and_true] at hP
  obtain ⟨e0, e1, e2, e3⟩ := hP
  unfold execTapLate done at h
  injection h with h
  subst h
  iterate 40 (try any_goals first | with_reducible assumption | exact Print.has_reg e0 | with_reducible apply Print.has_ite | with_reducible refine Within.event _ ?_ ?_ | with_reducible refine foot_finish e1 ?_ | with_reducible refine foot_settle e2 ?_ | with_reducible refine foot_setRecov e3 ?_ | exact Or.inr (Print.has_prt (by assumption)) | with_reducible exact Or.inl rfl | split | with_reducible apply Within.upd)

def fp_effSnapshot : Print := .join
  [.reg R.HNG_EVENT,
   .reg R.HNG_SNAP_TS.TIME,
   .prt .out,
   fp_setRecov]

theorem foot_effSnapshot {pr : Print} {z s : State} (hP : fp_effSnapshot.Sub pr) (hk : Within pr z s) :
    Within pr z (effSnapshot s) := by
  simp only [fp_effSnapshot, Print.join_cons, Print.join_nil, and_true] at hP
  obtain ⟨e0, e1, e2, e3⟩ := hP
  unfold effSnapshot
  iterate 40 (try any_goals first | with_reducible assumption | exact Print.has_reg e0 | exact Print.has_reg e1 | exact Print.has_prt e2 | with_reducible apply Print.has_ite | with_reducible refine Within.put _ ?_ ?_ | with_reducible refine Within.event _ ?_ ?_ | with_reducible refine Within.emit _ ?_ ?_ | with_reducible refine foot_setRecov e3 ?_ | with_reducible refine Within.when ?_ ?_ | exact Or.inr (Print.has_prt (by assumption)) | with_reducible exact Or.inl rfl | intro _ | (dsimp only) | split | with_reducible apply Within.upd)

def fp_execSnapshot : Print := .join
  [fp_finish,
   fp_effSnapshot]

theorem foot_execSnapshot {pr : Print} {z s t : State} (hP : fp_execSnapshot.Sub pr) (hk : Within pr z s)
    (h : execSnapshot s = .next t) : Within pr z t := by
  simp only [fp_execSnapshot, Print.join_cons, Print.join_nil, and_true] at hP
  obtain ⟨e0, e1⟩ := hP
  unfold execSnapshot done at h
  injection h with h
  subst h
  iterate 40 (try any_goals first | with_reducible assumption | with_reducible refine foot_finish e0 ?_ | with_reducible refine foot_effSnapshot e1 ?_ | split)

def fp_victim : Print := .join
  [.reg1 R.HNG_VICTIM.CTX none,
   .reg1 R.HNG_VICTIM.KIND none,
   .reg1 R.HNG_VICTIM.SEQ none,
   .reg1 R.HNG_VICTIM.DETAIL none,
   .reg1 R.HNG_VICTIM.TIME none,
   .reg R.HNG_VIC_HEAD.SEQ,
   .reg R.HNG_VIC_HEAD.IDX,
   .reg R.HNG_EVENT,
   fp_setRecov,
   fp_recordAt,
   fp_notifyAll]

theorem foot_victim {pr : Print} {z s : State} {c : Nat} {kind : Nat} {detail : Nat} {time : Nat} (hP : fp_victim.Sub pr) (hk : Within pr z s) :
    Within pr z (victim c kind detail time s) := by
  simp only [fp_victim, Print.join_cons, Print.join_nil, and_true] at hP
  obtain ⟨e0, e1, e2, e3, e4, e5, e6, hP⟩ := hP
  obtain ⟨e7, e8, e9, e10⟩ := hP
  unfold victim
  iterate 40 (try any_goals first | with_reducible assumption | exact Print.has_reg1 Names.any e0 | exact Print.has_reg1 Names.any e1 | exact Print.has_reg1 Names.any e2 | exact Print.has_reg1 Names.any e3 | exact Print.has_reg1 Names.any e4 | exact Print.has_reg e5 | exact Print.has_reg e6 | exact Print.has_reg e7 | with_reducible apply Print.has_ite | with_reducible refine Within.put _ ?_ ?_ | with_reducible refine Within.event _ ?_ ?_ | with_reducible refine foot_setRecov e8 ?_ | with_reducible refine foot_recordAt e9 ?_ | with_reducible refine foot_notifyAll e10 ?_ | with_reducible refine Within.each ?_ ?_ | with_reducible refine Within.when ?_ ?_ | exact Or.inr (Print.has_prt (by assumption)) | with_reducible exact Or.inl rfl | intro _ | (dsimp only) | split | with_reducible apply Within.upd)

def fp_nameCycle : Print := .join
  [.reg1 R.CTX_STATE.STATE none,
   fp_victim]

theorem foot_nameCycle {pr : Print} {z s : State} {g : WalkH} {cy : List Nat} (hP : fp_nameCycle.Sub pr) (hk : Within pr z s) :
    Within pr z (nameCycle g cy s) := by
  simp only [fp_nameCycle, Print.join_cons, Print.join_nil, and_true] at hP
  obtain ⟨e0, e1⟩ := hP
  unfold nameCycle
  iterate 40 (try any_goals first | with_reducible assumption | exact Print.has_reg1 Names.any e0 | with_reducible apply Print.has_ite | with_reducible refine Within.put _ ?_ ?_ | with_reducible refine foot_victim e1 ?_ | with_reducible refine Within.each ?_ ?_ | with_reducible refine Within.fold ?_ ?_ | intro _ | (dsimp only) | split)

def fp_effWalk : Print := .join
  [.reg R.HNG_WALK.LAST_US,
   .reg R.HNG_WALK.CYCLES,
   .reg R.HNG_WALK2.MAX_US,
   .reg R.HNG_WALK2.ELIG,
   fp_setRecov,
   fp_nameCycle]

theorem foot_effWalk {pr : Print} {z s : State} {stop : Nat} (hP : fp_effWalk.Sub pr) (hk : Within pr z s) :
    Within pr z (effWalk stop s) := by
  simp only [fp_effWalk, Print.join_cons, Print.join_nil, and_true] at hP
  obtain ⟨e0, e1, e2, e3, e4, e5⟩ := hP
  unfold effWalk
  iterate 40 (try any_goals first | with_reducible assumption | exact Print.has_reg e0 | exact Print.has_reg e1 | exact Print.has_reg e2 | exact Print.has_reg e3 | with_reducible apply Print.has_ite | with_reducible refine Within.put _ ?_ ?_ | with_reducible refine foot_setRecov e4 ?_ | with_reducible refine foot_nameCycle e5 ?_ | with_reducible refine Within.each ?_ ?_ | exact Or.inr (Print.has_prt (by assumption)) | with_reducible exact Or.inl rfl | intro _ | (dsimp only) | split | with_reducible apply Within.upd)

def fp_execWalk : Print := .join
  [fp_finish,
   fp_effWalk]

theorem foot_execWalk {pr : Print} {z s t : State} {stop : Nat} (hP : fp_execWalk.Sub pr) (hk : Within pr z s)
    (h : execWalk stop s = .next t) : Within pr z t := by
  simp only [fp_execWalk, Print.join_cons, Print.join_nil, and_true] at hP
  obtain ⟨e0, e1⟩ := hP
  unfold execWalk done at h
  injection h with h
  subst h
  iterate 40 (try any_goals first | with_reducible assumption | with_reducible refine foot_finish e0 ?_ | with_reducible refine foot_effWalk e1 ?_)

def fp_effEngineFault (ctx : Option Nat) : Print := .join
  [.reg R.HNG_EVENT,
   .reg1 R.CTX_STATE.STATE ctx,
   fp_recordAt,
   fp_victim]

theorem foot_effEngineFault {pr : Print} {z s : State} {die : Nat} {ctx : Nat} {engine : Nat} {code : Nat} {stamp : Nat} {o_ctx : Option Nat} (n_ctx : Names o_ctx ctx) (hP : (fp_effEngineFault o_ctx).Sub pr) (hk : Within pr z s) :
    Within pr z (effEngineFault die ctx engine code stamp s) := by
  simp only [fp_effEngineFault, Print.join_cons, Print.join_nil, and_true] at hP
  obtain ⟨e0, e1, e2, e3⟩ := hP
  unfold effEngineFault
  iterate 40 (try any_goals first | with_reducible assumption | exact Print.has_reg e0 | exact Print.has_reg1 n_ctx e1 | with_reducible apply Print.has_ite | with_reducible refine Within.put _ ?_ ?_ | with_reducible refine Within.event _ ?_ ?_ | with_reducible refine foot_recordAt e2 ?_ | with_reducible refine foot_victim e3 ?_ | (dsimp only) | split)

def fp_execEngineFault (die ctx : Option Nat) : Print := .join
  [fp_finish,
   fp_acceptFrame die,
   fp_effEngineFault ctx]

theorem foot_execEngineFault {pr : Print} {z s t : State} {die : Nat} {frame : Frame} {ctx : Nat} {engine : Nat} {fault : FaultCode} {o_die : Option Nat} (n_die : Names o_die die) {o_ctx : Option Nat} (n_ctx : Names o_ctx ctx) (hP : (fp_execEngineFault o_die o_ctx).Sub pr) (hk : Within pr z s)
    (h : execEngineFault ⟨die, frame⟩ ctx engine fault s = .next t) : Within pr z t := by
  simp only [fp_execEngineFault, Print.join_cons, Print.join_nil, and_true] at hP
  obtain ⟨e0, e1, e2⟩ := hP
  unfold execEngineFault done at h
  injection h with h
  subst h
  iterate 40 (try any_goals first | with_reducible assumption | with_reducible refine foot_finish e0 ?_ | with_reducible refine foot_acceptFrame n_die e1 ?_ ?_ | with_reducible refine foot_effEngineFault n_ctx e2 ?_ | intro _)

def fp_enqueueCtx (c : Option Nat) : Print := .join
  [.reg1 R.CTX_STATE.STATE c,
   fp_setRecov]

theorem foot_enqueueCtx {pr : Print} {z s : State} {c : Nat} {waiter : Option (Nat × Nat)} {o_c : Option Nat} (n_c : Names o_c c) (hP : (fp_enqueueCtx o_c).Sub pr) (hk : Within pr z s) :
    Within pr z (enqueueCtx c waiter s) := by
  simp only [fp_enqueueCtx, Print.join_cons, Print.join_nil, and_true] at hP
  obtain ⟨e0, e1⟩ := hP
  unfold enqueueCtx
  iterate 40 (try any_goals first | with_reducible assumption | exact Print.has_reg1 n_c e0 | with_reducible apply Print.has_ite | with_reducible refine Within.put _ ?_ ?_ | with_reducible refine foot_setRecov e1 ?_ | exact Or.inr (Print.has_prt (by assumption)) | with_reducible exact Or.inl rfl | (dsimp only) | with_reducible apply Within.upd)

def fp_execPolicyQueue (ctx : Option Nat) : Print := .join
  [fp_finish,
   fp_enqueueCtx ctx]

theorem foot_execPolicyQueue {pr : Print} {z s t : State} {ctx : Nat} {o_ctx : Option Nat} (n_ctx : Names o_ctx ctx) (hP : (fp_execPolicyQueue o_ctx).Sub pr) (hk : Within pr z s)
    (h : execPolicyQueue ctx s = .next t) : Within pr z t := by
  simp only [fp_execPolicyQueue, Print.join_cons, Print.join_nil, and_true] at hP
  obtain ⟨e0, e1⟩ := hP
  unfold execPolicyQueue done at h
  injection h with h
  subst h
  iterate 40 (try any_goals first | with_reducible assumption | with_reducible refine foot_finish e0 ?_ | with_reducible refine foot_enqueueCtx n_ctx e1 ?_ | (dsimp only) | split)

def fp_startSeq : Print := .join
  [.reg R.HNG_STAT.SEQ_BUSY,
   .reg R.HNG_STAT.CUR_CTX,
   .reg1 R.CTX_STATE.STATE none,
   fp_setRecov,
   fp_sendOrder]

theorem foot_startSeq {pr : Print} {z s : State} {c : PendCtx} (hP : fp_startSeq.Sub pr) (hk : Within pr z s) :
    Within pr z (startSeq c s) := by
  simp only [fp_startSeq, Print.join_cons, Print.join_nil, and_true] at hP
  obtain ⟨e0, e1, e2, e3, e4⟩ := hP
  unfold startSeq
  iterate 40 (try any_goals first | with_reducible assumption | exact Print.has_reg e0 | exact Print.has_reg e1 | exact Print.has_reg1 Names.any e2 | with_reducible apply Print.has_ite | with_reducible refine Within.put _ ?_ ?_ | with_reducible refine foot_setRecov e3 ?_ | with_reducible refine foot_sendOrder e4 ?_ | exact Or.inr (Print.has_prt (by assumption)) | with_reducible exact Or.inl rfl | (dsimp only) | with_reducible apply Within.upd)

def fp_effSequenceStart : Print := .join
  [fp_startSeq,
   fp_setRecov]

theorem foot_effSequenceStart {pr : Print} {z s : State} (hP : fp_effSequenceStart.Sub pr) (hk : Within pr z s) :
    Within pr z (effSequenceStart s) := by
  simp only [fp_effSequenceStart, Print.join_cons, Print.join_nil, and_true] at hP
  obtain ⟨e0, e1⟩ := hP
  unfold effSequenceStart
  iterate 40 (try any_goals first | with_reducible assumption | with_reducible refine foot_startSeq e0 ?_ | with_reducible refine foot_setRecov e1 ?_ | exact Or.inr (Print.has_prt (by assumption)) | with_reducible exact Or.inl rfl | (dsimp only) | split | with_reducible apply Within.upd)

def fp_execSequenceStart : Print := .join
  [fp_finish,
   fp_effSequenceStart]

theorem foot_execSequenceStart {pr : Print} {z s t : State} (hP : fp_execSequenceStart.Sub pr) (hk : Within pr z s)
    (h : execSequenceStart s = .next t) : Within pr z t := by
  simp only [fp_execSequenceStart, Print.join_cons, Print.join_nil, and_true] at hP
  obtain ⟨e0, e1⟩ := hP
  unfold execSequenceStart done at h
  injection h with h
  subst h
  iterate 40 (try any_goals first | with_reducible assumption | with_reducible refine foot_finish e0 ?_ | with_reducible refine foot_effSequenceStart e1 ?_)

def fp_setSeq : Print := .join
  [fp_setRecov]

theorem foot_setSeq {pr : Print} {z s : State} {q : SeqH} (hP : fp_setSeq.Sub pr) (hk : Within pr z s) :
    Within pr z (setSeq q s) := by
  simp only [fp_setSeq, Print.join_cons, Print.join_nil, and_true] at hP
  have e0 := hP
  unfold setSeq
  iterate 40 (try any_goals first | with_reducible assumption | with_reducible refine foot_setRecov e0 ?_ | exact Or.inr (Print.has_prt (by assumption)) | with_reducible exact Or.inl rfl | with_reducible apply Within.upd)

def fp_abortSeq : Print := .join
  [.reg1 R.CTX_STATE.STATE none,
   fp_setSeq,
   fp_sendOrder]

theorem foot_abortSeq {pr : Print} {z s : State} {q : SeqH} (hP : fp_abortSeq.Sub pr) (hk : Within pr z s) :
    Within pr z (abortSeq q s) := by
  simp only [fp_abortSeq, Print.join_cons, Print.join_nil, and_true] at hP
  obtain ⟨e0, e1, e2⟩ := hP
  unfold abortSeq
  iterate 40 (try any_goals first | with_reducible assumption | exact Print.has_reg1 Names.any e0 | with_reducible apply Print.has_ite | with_reducible refine Within.put _ ?_ ?_ | with_reducible refine foot_setSeq e1 ?_ | with_reducible refine foot_sendOrder e2 ?_ | exact Or.inr (Print.has_prt (by assumption)) | with_reducible exact Or.inl rfl | (dsimp only) | with_reducible apply Within.upd)

def fp_effFenceAck : Print := .join
  [.reg1 R.CTX_STATE.STATE none,
   fp_allAcknowledge,
   fp_scrubAck,
   fp_abortSeq,
   fp_setSeq]

theorem foot_effFenceAck {pr : Print} {z s : State} {who : Nat} {outstanding : Nat} (hP : fp_effFenceAck.Sub pr) (hk : Within pr z s) :
    Within pr z (effFenceAck who outstanding s) := by
  simp only [fp_effFenceAck, Print.join_cons, Print.join_nil, and_true] at hP
  obtain ⟨e0, e1, e2, e3, e4⟩ := hP
  unfold effFenceAck
  iterate 40 (try any_goals first | with_reducible assumption | exact Print.has_reg1 Names.any e0 | with_reducible apply Print.has_ite | with_reducible refine Within.put _ ?_ ?_ | with_reducible refine foot_allAcknowledge e1 ?_ | with_reducible refine foot_scrubAck e2 ?_ | with_reducible refine foot_abortSeq e3 ?_ | with_reducible refine foot_setSeq e4 ?_ | with_reducible refine Within.when ?_ ?_ | exact Or.inr (Print.has_prt (by assumption)) | with_reducible exact Or.inl rfl | intro _ | (dsimp only) | split | with_reducible apply Within.upd)

def fp_execFenceAck : Print := .join
  [fp_finish,
   fp_effFenceAck]

theorem foot_execFenceAck {pr : Print} {z s t : State} {who : Nat} {outstanding : Nat} (hP : fp_execFenceAck.Sub pr) (hk : Within pr z s)
    (h : execFenceAck who outstanding s = .next t) : Within pr z t := by
  simp only [fp_execFenceAck, Print.join_cons, Print.join_nil, and_true] at hP
  obtain ⟨e0, e1⟩ := hP
  unfold execFenceAck done at h
  injection h with h
  subst h
  iterate 40 (try any_goals first | with_reducible assumption | with_reducible refine foot_finish e0 ?_ | with_reducible refine foot_effFenceAck e1 ?_)

def fp_effDrainEnd : Print := .join
  [fp_scrubAbort,
   fp_abortSeq]

theorem foot_effDrainEnd {pr : Print} {z s : State} {who : Nat} {outstanding : Nat} (hP : fp_effDrainEnd.Sub pr) (hk : Within pr z s) :
    Within pr z (effDrainEnd who outstanding s) := by
  simp only [fp_effDrainEnd, Print.join_cons, Print.join_nil, and_true] at hP
  obtain ⟨e0, e1⟩ := hP
  unfold effDrainEnd
  iterate 40 (try any_goals first | with_reducible assumption | with_reducible refine foot_scrubAbort e0 ?_ | with_reducible refine foot_abortSeq e1 ?_ | (dsimp only) | split)

def fp_execDrainEnd : Print := .join
  [fp_finish,
   fp_effDrainEnd]

theorem foot_execDrainEnd {pr : Print} {z s t : State} {who : Nat} {outstanding : Nat} (hP : fp_execDrainEnd.Sub pr) (hk : Within pr z s)
    (h : execDrainEnd who outstanding s = .next t) : Within pr z t := by
  simp only [fp_execDrainEnd, Print.join_cons, Print.join_nil, and_true] at hP
  obtain ⟨e0, e1⟩ := hP
  unfold execDrainEnd done at h
  injection h with h
  subst h
  iterate 40 (try any_goals first | with_reducible assumption | with_reducible refine foot_finish e0 ?_ | with_reducible refine foot_effDrainEnd e1 ?_)

def fp_clearSeq : Print := .join
  [.reg1 R.CTX_STATE.STATE none,
   fp_setSeq,
   fp_sendOrder]

theorem foot_clearSeq {pr : Print} {z s : State} {q : SeqH} (hP : fp_clearSeq.Sub pr) (hk : Within pr z s) :
    Within pr z (clearSeq q s) := by
  simp only [fp_clearSeq, Print.join_cons, Print.join_nil, and_true] at hP
  obtain ⟨e0, e1, e2⟩ := hP
  unfold clearSeq
  iterate 40 (try any_goals first | with_reducible assumption | exact Print.has_reg1 Names.any e0 | with_reducible apply Print.has_ite | with_reducible refine Within.put _ ?_ ?_ | with_reducible refine foot_setSeq e1 ?_ | with_reducible refine foot_sendOrder e2 ?_ | exact Or.inr (Print.has_prt (by assumption)) | with_reducible exact Or.inl rfl | (dsimp only) | with_reducible apply Within.upd)

def fp_captureSeq : Print := .join
  [.reg R.HNG_EVENT,
   .reg1 R.CTX_STATE.STATE none,
   fp_clearSeq,
   fp_recordAt,
   fp_setSeq]

theorem foot_captureSeq {pr : Print} {z s : State} {q : SeqH} (hP : fp_captureSeq.Sub pr) (hk : Within pr z s) :
    Within pr z (captureSeq q s) := by
  simp only [fp_captureSeq, Print.join_cons, Print.join_nil, and_true] at hP
  obtain ⟨e0, e1, e2, e3, e4⟩ := hP
  unfold captureSeq
  iterate 40 (try any_goals first | with_reducible assumption | exact Print.has_reg e0 | exact Print.has_reg1 Names.any e1 | with_reducible apply Print.has_ite | with_reducible refine Within.put _ ?_ ?_ | with_reducible refine Within.event _ ?_ ?_ | with_reducible refine foot_clearSeq e2 ?_ | with_reducible refine foot_recordAt e3 ?_ | with_reducible refine foot_setSeq e4 ?_ | exact Or.inr (Print.has_prt (by assumption)) | with_reducible exact Or.inl rfl | intro _ | (dsimp only) | split | with_reducible apply Within.upd)

def fp_effAbortAck (who : Option Nat) : Print := .join
  [fp_allAcknowledge,
   fp_scrubErase who,
   fp_captureSeq]

theorem foot_effAbortAck {pr : Print} {z s : State} {who : Nat} {answered : Nat} {o_who : Option Nat} (n_who : Names o_who who) (hP : (fp_effAbortAck o_who).Sub pr) (hk : Within pr z s) :
    Within pr z (effAbortAck who answered s) := by
  simp only [fp_effAbortAck, Print.join_cons, Print.join_nil, and_true] at hP
  obtain ⟨e0, e1, e2⟩ := hP
  unfold effAbortAck
  iterate 40 (try any_goals first | with_reducible assumption | with_reducible refine foot_allAcknowledge e0 ?_ | with_reducible refine foot_scrubErase n_who e1 ?_ | with_reducible refine foot_captureSeq e2 ?_ | exact Or.inr (Print.has_prt (by assumption)) | with_reducible exact Or.inl rfl | (dsimp only) | split | with_reducible apply Within.upd)

def fp_execAbortAck (who : Option Nat) : Print := .join
  [fp_finish,
   fp_effAbortAck who]

theorem foot_execAbortAck {pr : Print} {z s t : State} {who : Nat} {answered : Nat} {o_who : Option Nat} (n_who : Names o_who who) (hP : (fp_execAbortAck o_who).Sub pr) (hk : Within pr z s)
    (h : execAbortAck who answered s = .next t) : Within pr z t := by
  simp only [fp_execAbortAck, Print.join_cons, Print.join_nil, and_true] at hP
  obtain ⟨e0, e1⟩ := hP
  unfold execAbortAck done at h
  injection h with h
  subst h
  iterate 40 (try any_goals first | with_reducible assumption | with_reducible refine foot_finish e0 ?_ | with_reducible refine foot_effAbortAck n_who e1 ?_)

def fp_storeCapture : Print := .join
  [.prt .mem,
   .prt .cq,
   .reg1 R.CTX_CAP_HDR.CTX none,
   .reg1 R.CTX_CAP_HDR.VALID none,
   .reg1 R.CTX_CAP_HDR.TRUNC none,
   .reg1 R.CTX_CAP_HDR.PART none,
   .reg1 R.CTX_CAP_HDR.BYTES none,
   .reg1 R.CTX_CAP_HDR.WIN_MASK none,
   .reg1 R.CTX_CAP_HDR.TIME none,
   .reg1 R.CTX_CAP_HDR.SEQ none,
   .reg R.CTX_CAP_SLOTS.HELD]

theorem foot_storeCapture {pr : Print} {z s : State} {q : SeqH} {data : List Nat} {trunc : Bool} (hP : fp_storeCapture.Sub pr) (hk : Within pr z s) :
    Within pr z (storeCapture q data trunc s) := by
  simp only [fp_storeCapture, Print.join_cons, Print.join_nil, and_true] at hP
  obtain ⟨e0, e1, e2, e3, e4, e5, e6, hP⟩ := hP
  obtain ⟨e7, e8, e9, e10⟩ := hP
  unfold storeCapture
  iterate 40 (try any_goals first | with_reducible assumption | exact Print.has_prt e0 | exact Print.has_prt e1 | exact Print.has_reg1 Names.any e2 | exact Print.has_reg1 Names.any e3 | exact Print.has_reg1 Names.any e4 | exact Print.has_reg1 Names.any e5 | exact Print.has_reg1 Names.any e6 | exact Print.has_reg1 Names.any e7 | exact Print.has_reg1 Names.any e8 | exact Print.has_reg1 Names.any e9 | exact Print.has_reg e10 | with_reducible apply Print.has_ite | with_reducible refine Within.put _ ?_ ?_ | with_reducible refine Within.putB _ ?_ ?_ | with_reducible refine Within.event _ ?_ ?_ | with_reducible refine Within.writeBytes _ _ ?_ ?_ ?_ | with_reducible refine Within.wipe _ _ ?_ ?_ ?_ | (dsimp only))

def fp_effCapture : Print := .join
  [fp_agentTells none,
   fp_storeCapture,
   fp_clearSeq]

theorem foot_effCapture {pr : Print} {z s : State} {data : List Nat} {trunc : Bool} (hP : fp_effCapture.Sub pr) (hk : Within pr z s) :
    Within pr z (effCapture data trunc s) := by
  simp only [fp_effCapture, Print.join_cons, Print.join_nil, and_true] at hP
  obtain ⟨e0, e1, e2⟩ := hP
  unfold effCapture
  iterate 40 (try any_goals first | with_reducible assumption | with_reducible refine foot_agentTells Names.any e0 ?_ | with_reducible refine foot_storeCapture e1 ?_ | with_reducible refine foot_clearSeq e2 ?_ | with_reducible refine Within.each ?_ ?_ | exact Or.inr (Print.has_prt (by assumption)) | with_reducible exact Or.inl rfl | intro _ | (dsimp only) | split | with_reducible apply Within.upd)

def fp_execCaptureDone : Print := .join
  [fp_finish,
   fp_effCapture]

theorem foot_execCaptureDone {pr : Print} {z s t : State} {data : List Nat} {trunc : Bool} (hP : fp_execCaptureDone.Sub pr) (hk : Within pr z s)
    (h : execCaptureDone data trunc s = .next t) : Within pr z t := by
  simp only [fp_execCaptureDone, Print.join_cons, Print.join_nil, and_true] at hP
  obtain ⟨e0, e1⟩ := hP
  unfold execCaptureDone done at h
  injection h with h
  subst h
  iterate 40 (try any_goals first | with_reducible assumption | with_reducible refine foot_finish e0 ?_ | with_reducible refine foot_effCapture e1 ?_)

def fp_effCaptureOverrun : Print := .join
  [fp_effCapture]

theorem foot_effCaptureOverrun {pr : Print} {z s : State} {data : List Nat} (hP : fp_effCaptureOverrun.Sub pr) (hk : Within pr z s) :
    Within pr z (effCaptureOverrun data s) := by
  simp only [fp_effCaptureOverrun, Print.join_cons, Print.join_nil, and_true] at hP
  have e0 := hP
  unfold effCaptureOverrun
  iterate 40 (try any_goals first | with_reducible assumption | with_reducible refine foot_effCapture e0 ?_ | (dsimp only) | split)

def fp_execCaptureOverrun : Print := .join
  [fp_finish,
   fp_effCaptureOverrun]

theorem foot_execCaptureOverrun {pr : Print} {z s t : State} {data : List Nat} (hP : fp_execCaptureOverrun.Sub pr) (hk : Within pr z s)
    (h : execCaptureOverrun data s = .next t) : Within pr z t := by
  simp only [fp_execCaptureOverrun, Print.join_cons, Print.join_nil, and_true] at hP
  obtain ⟨e0, e1⟩ := hP
  unfold execCaptureOverrun done at h
  injection h with h
  subst h
  iterate 40 (try any_goals first | with_reducible assumption | with_reducible refine foot_finish e0 ?_ | with_reducible refine foot_effCaptureOverrun e1 ?_)

def fp_effClearAck : Print := .join
  [fp_allAcknowledge,
   fp_setSeq,
   fp_sendOrder]

theorem foot_effClearAck {pr : Print} {z s : State} (hP : fp_effClearAck.Sub pr) (hk : Within pr z s) :
    Within pr z (effClearAck s) := by
  simp only [fp_effClearAck, Print.join_cons, Print.join_nil, and_true] at hP
  obtain ⟨e0, e1, e2⟩ := hP
  unfold effClearAck
  iterate 40 (try any_goals first | with_reducible assumption | with_reducible refine foot_allAcknowledge e0 ?_ | with_reducible refine foot_setSeq e1 ?_ | with_reducible refine foot_sendOrder e2 ?_ | exact Or.inr (Print.has_prt (by assumption)) | with_reducible exact Or.inl rfl | (dsimp only) | split | with_reducible apply Within.upd)

def fp_execClearAck : Print := .join
  [fp_finish,
   fp_effClearAck]

theorem foot_execClearAck {pr : Print} {z s t : State} (hP : fp_execClearAck.Sub pr) (hk : Within pr z s)
    (h : execClearAck s = .next t) : Within pr z t := by
  simp only [fp_execClearAck, Print.join_cons, Print.join_nil, and_true] at hP
  obtain ⟨e0, e1⟩ := hP
  unfold execClearAck done at h
  injection h with h
  subst h
  iterate 40 (try any_goals first | with_reducible assumption | with_reducible refine foot_finish e0 ?_ | with_reducible refine foot_effClearAck e1 ?_)

def fp_enterOOS : Print := .join
  [.reg R.CTX_OOS.OOS,
   .reg R.HNG_EVENT,
   fp_faultOn,
   fp_record,
   fp_notifyAll,
   fp_sendOrder]

theorem foot_enterOOS {pr : Print} {z s : State} (hP : fp_enterOOS.Sub pr) (hk : Within pr z s) :
    Within pr z (enterOOS s) := by
  simp only [fp_enterOOS, Print.join_cons, Print.join_nil, and_true] at hP
  obtain ⟨e0, e1, e2, e3, e4, e5⟩ := hP
  unfold enterOOS
  iterate 40 (try any_goals first | with_reducible assumption | exact Print.has_reg e0 | exact Print.has_reg e1 | with_reducible apply Print.has_ite | with_reducible refine Within.put _ ?_ ?_ | with_reducible refine Within.event _ ?_ ?_ | with_reducible refine foot_faultOn e2 ?_ | with_reducible refine foot_record e3 ?_ | with_reducible refine foot_notifyAll e4 ?_ | with_reducible refine foot_sendOrder e5 ?_ | with_reducible refine Within.each ?_ ?_ | intro _ | (dsimp only) | split)

def fp_countReset : Print := .join
  [.reg R.CTX_CNT.RESETS,
   fp_setRecov,
   fp_enterOOS]

theorem foot_countReset {pr : Print} {z s : State} (hP : fp_countReset.Sub pr) (hk : Within pr z s) :
    Within pr z (countReset s) := by
  simp only [fp_countReset, Print.join_cons, Print.join_nil, and_true] at hP
  obtain ⟨e0, e1, e2⟩ := hP
  unfold countReset
  iterate 40 (try any_goals first | with_reducible assumption | exact Print.has_reg e0 | with_reducible apply Print.has_ite | with_reducible refine Within.addSat _ ?_ ?_ | with_reducible refine foot_setRecov e1 ?_ | with_reducible refine foot_enterOOS e2 ?_ | exact Or.inr (Print.has_prt (by assumption)) | with_reducible exact Or.inl rfl | (dsimp only) | split | with_reducible apply Within.upd)

def fp_endSeq : Print := .join
  [.reg R.HNG_STAT.SEQ_BUSY,
   .reg R.HNG_STAT.CUR_CTX,
   fp_setRecov,
   fp_scrubsResume]

theorem foot_endSeq {pr : Print} {z s : State} (hP : fp_endSeq.Sub pr) (hk : Within pr z s) :
    Within pr z (endSeq s) := by
  simp only [fp_endSeq, Print.join_cons, Print.join_nil, and_true] at hP
  obtain ⟨e0, e1, e2, e3⟩ := hP
  unfold endSeq
  iterate 40 (try any_goals first | with_reducible assumption | exact Print.has_reg e0 | exact Print.has_reg e1 | with_reducible apply Print.has_ite | with_reducible refine Within.put _ ?_ ?_ | with_reducible refine foot_setRecov e2 ?_ | with_reducible refine foot_scrubsResume e3 ?_ | exact Or.inr (Print.has_prt (by assumption)) | with_reducible exact Or.inl rfl | (dsimp only) | with_reducible apply Within.upd)

def fp_stuckOff : Print := .join
  [fp_faultOff]

theorem foot_stuckOff {pr : Print} {z s : State} (hP : fp_stuckOff.Sub pr) (hk : Within pr z s) :
    Within pr z (stuckOff s) := by
  simp only [fp_stuckOff, Print.join_cons, Print.join_nil, and_true] at hP
  have e0 := hP
  unfold stuckOff
  iterate 40 (try any_goals first | with_reducible assumption | with_reducible refine foot_faultOff e0 ?_ | split)

def fp_effReleaseAck : Print := .join
  [.reg1 R.CTX_STATE.STATE none,
   .reg R.HNG_EVENT,
   fp_allAcknowledge,
   fp_stuckOff,
   fp_setRecov,
   fp_completeAt,
   fp_endSeq,
   fp_countReset]

theorem foot_effReleaseAck {pr : Print} {z s : State} (hP : fp_effReleaseAck.Sub pr) (hk : Within pr z s) :
    Within pr z (effReleaseAck s) := by
  simp only [fp_effReleaseAck, Print.join_cons, Print.join_nil, and_true] at hP
  obtain ⟨e0, e1, e2, e3, e4, e5, e6, e7⟩ := hP
  unfold effReleaseAck
  iterate 40 (try any_goals first | with_reducible assumption | exact Print.has_reg1 Names.any e0 | exact Print.has_reg e1 | with_reducible apply Print.has_ite | with_reducible refine Within.put _ ?_ ?_ | with_reducible refine Within.event _ ?_ ?_ | with_reducible refine foot_allAcknowledge e2 ?_ | with_reducible refine foot_stuckOff e3 ?_ | with_reducible refine foot_setRecov e4 ?_ | with_reducible refine foot_completeAt e5 ?_ | with_reducible refine foot_endSeq e6 ?_ | with_reducible refine foot_countReset e7 ?_ | exact Or.inr (Print.has_prt (by assumption)) | with_reducible exact Or.inl rfl | (dsimp only) | split | with_reducible apply Within.upd)

def fp_execReleaseAck : Print := .join
  [fp_finish,
   fp_effReleaseAck]

theorem foot_execReleaseAck {pr : Print} {z s t : State} (hP : fp_execReleaseAck.Sub pr) (hk : Within pr z s)
    (h : execReleaseAck s = .next t) : Within pr z t := by
  simp only [fp_execReleaseAck, Print.join_cons, Print.join_nil, and_true] at hP
  obtain ⟨e0, e1⟩ := hP
  unfold execReleaseAck done at h
  injection h with h
  subst h
  iterate 40 (try any_goals first | with_reducible assumption | with_reducible refine foot_finish e0 ?_ | with_reducible refine foot_effReleaseAck e1 ?_)

def fp_effSequenceStuck : Print := .join
  [.reg1 R.CTX_STATE.STATE none,
   .reg R.HNG_EVENT,
   fp_faultOn,
   fp_recordAt,
   fp_setRecov,
   fp_completeAt,
   fp_endSeq,
   fp_countReset]

theorem foot_effSequenceStuck {pr : Print} {z s : State} (hP : fp_effSequenceStuck.Sub pr) (hk : Within pr z s) :
    Within pr z (effSequenceStuck s) := by
  simp only [fp_effSequenceStuck, Print.join_cons, Print.join_nil, and_true] at hP
  obtain ⟨e0, e1, e2, e3, e4, e5, e6, e7⟩ := hP
  unfold effSequenceStuck
  iterate 40 (try any_goals first | with_reducible assumption | exact Print.has_reg1 Names.any e0 | exact Print.has_reg e1 | with_reducible apply Print.has_ite | with_reducible refine Within.put _ ?_ ?_ | with_reducible refine Within.event _ ?_ ?_ | with_reducible refine foot_faultOn e2 ?_ | with_reducible refine foot_recordAt e3 ?_ | with_reducible refine foot_setRecov e4 ?_ | with_reducible refine foot_completeAt e5 ?_ | with_reducible refine foot_endSeq e6 ?_ | with_reducible refine foot_countReset e7 ?_ | exact Or.inr (Print.has_prt (by assumption)) | with_reducible exact Or.inl rfl | (dsimp only) | split | with_reducible apply Within.upd)

def fp_execSequenceStuck : Print := .join
  [fp_finish,
   fp_effSequenceStuck]

theorem foot_execSequenceStuck {pr : Print} {z s t : State} (hP : fp_execSequenceStuck.Sub pr) (hk : Within pr z s)
    (h : execSequenceStuck s = .next t) : Within pr z t := by
  simp only [fp_execSequenceStuck, Print.join_cons, Print.join_nil, and_true] at hP
  obtain ⟨e0, e1⟩ := hP
  unfold execSequenceStuck done at h
  injection h with h
  subst h
  iterate 40 (try any_goals first | with_reducible assumption | with_reducible refine foot_finish e0 ?_ | with_reducible refine foot_effSequenceStuck e1 ?_)

def fp_execCtxReset : Print := .join
  [fp_finish,
   fp_command,
   fp_victim,
   fp_enqueueCtx none,
   fp_markStarted]

theorem foot_execCtxReset {pr : Print} {z s t : State} {port : Nat} {tag : Nat} (hP : fp_execCtxReset.Sub pr) (hk : Within pr z s)
    (h : execCtxReset port tag s = .next t) : Within pr z t := by
  simp only [fp_execCtxReset, Print.join_cons, Print.join_nil, and_true] at hP
  obtain ⟨e0, e1, e2, e3, e4⟩ := hP
  unfold execCtxReset done at h
  injection h with h
  subst h
  iterate 40 (try any_goals first | with_reducible assumption | with_reducible refine foot_finish e0 ?_ | with_reducible refine foot_command e1 ?_ ?_ | with_reducible refine foot_victim e2 ?_ | with_reducible refine foot_enqueueCtx Names.any e3 ?_ | with_reducible refine foot_markStarted e4 ?_ | intro _ | (dsimp only) | split)

def fp_execCtxDismiss : Print := .join
  [.reg1 R.CTX_STATE.STATE none,
   fp_finish,
   fp_command,
   fp_setRecov,
   fp_complete]

theorem foot_execCtxDismiss {pr : Print} {z s t : State} {port : Nat} {tag : Nat} (hP : fp_execCtxDismiss.Sub pr) (hk : Within pr z s)
    (h : execCtxDismiss port tag s = .next t) : Within pr z t := by
  simp only [fp_execCtxDismiss, Print.join_cons, Print.join_nil, and_true] at hP
  obtain ⟨e0, e1, e2, e3, e4⟩ := hP
  unfold execCtxDismiss done at h
  injection h with h
  subst h
  iterate 40 (try any_goals first | with_reducible assumption | exact Print.has_reg1 Names.any e0 | with_reducible apply Print.has_ite | with_reducible refine Within.put _ ?_ ?_ | with_reducible refine foot_finish e1 ?_ | with_reducible refine foot_command e2 ?_ ?_ | with_reducible refine foot_setRecov e3 ?_ | with_reducible refine foot_complete e4 ?_ | with_reducible refine Within.each ?_ ?_ | exact Or.inr (Print.has_prt (by assumption)) | with_reducible exact Or.inl rfl | intro _ | (dsimp only) | with_reducible apply Within.upd)

def fp_execReturnToService : Print := .join
  [.reg R.CTX_OOS.OOS,
   fp_finish,
   fp_command,
   fp_setRecov,
   fp_faultOff,
   fp_sendOrder,
   fp_complete]

theorem foot_execReturnToService {pr : Print} {z s t : State} {port : Nat} {tag : Nat} (hP : fp_execReturnToService.Sub pr) (hk : Within pr z s)
    (h : execReturnToService port tag s = .next t) : Within pr z t := by
  simp only [fp_execReturnToService, Print.join_cons, Print.join_nil, and_true] at hP
  obtain ⟨e0, e1, e2, e3, e4, e5, e6⟩ := hP
  unfold execReturnToService done at h
  injection h with h
  subst h
  iterate 40 (try any_goals first | with_reducible assumption | exact Print.has_reg e0 | with_reducible apply Print.has_ite | with_reducible refine Within.put _ ?_ ?_ | with_reducible refine foot_finish e1 ?_ | with_reducible refine foot_command e2 ?_ ?_ | with_reducible refine foot_setRecov e3 ?_ | with_reducible refine foot_faultOff e4 ?_ | with_reducible refine foot_sendOrder e5 ?_ | with_reducible refine foot_complete e6 ?_ | exact Or.inr (Print.has_prt (by assumption)) | with_reducible exact Or.inl rfl | intro _ | (dsimp only) | with_reducible apply Within.upd)

def fp_execCapwinSet : Print := .join
  [.reg1 R.CTX_CAPWIN.DIE none,
   .reg1 R.CTX_CAPWIN.EN none,
   .reg1 R.CTX_CAPWIN.OFS none,
   .reg1 R.CTX_CAPWIN.LEN none,
   fp_finish,
   fp_command,
   fp_bumpGen,
   fp_complete]

theorem foot_execCapwinSet {pr : Print} {z s t : State} {port : Nat} {tag : Nat} (hP : fp_execCapwinSet.Sub pr) (hk : Within pr z s)
    (h : execCapwinSet port tag s = .next t) : Within pr z t := by
  simp only [fp_execCapwinSet, Print.join_cons, Print.join_nil, and_true] at hP
  obtain ⟨e0, e1, e2, e3, e4, e5, e6, e7⟩ := hP
  unfold execCapwinSet done at h
  injection h with h
  subst h
  iterate 40 (try any_goals first | with_reducible assumption | exact Print.has_reg1 Names.any e0 | exact Print.has_reg1 Names.any e1 | exact Print.has_reg1 Names.any e2 | exact Print.has_reg1 Names.any e3 | with_reducible apply Print.has_ite | with_reducible refine Within.put _ ?_ ?_ | with_reducible refine Within.putB _ ?_ ?_ | with_reducible refine foot_finish e4 ?_ | with_reducible refine foot_command e5 ?_ ?_ | with_reducible refine foot_bumpGen e6 ?_ | with_reducible refine foot_complete e7 ?_ | with_reducible refine Within.each ?_ ?_ | with_reducible refine Within.fold ?_ ?_ | intro _ | (dsimp only) | split)

def fp_execCaptureFree : Print := .join
  [.reg R.CTX_CAP_SLOTS.HELD,
   .reg1 R.CTX_CAP_HDR.VALID none,
   .prt .mem,
   .prt .cq,
   fp_finish,
   fp_command,
   fp_complete]

theorem foot_execCaptureFree {pr : Print} {z s t : State} {port : Nat} {tag : Nat} (hP : fp_execCaptureFree.Sub pr) (hk : Within pr z s)
    (h : execCaptureFree port tag s = .next t) : Within pr z t := by
  simp only [fp_execCaptureFree, Print.join_cons, Print.join_nil, and_true] at hP
  obtain ⟨e0, e1, e2, e3, e4, e5, e6⟩ := hP
  unfold execCaptureFree done at h
  injection h with h
  subst h
  iterate 40 (try any_goals first | with_reducible assumption | exact Print.has_reg e0 | exact Print.has_reg1 Names.any e1 | exact Print.has_prt e2 | exact Print.has_prt e3 | with_reducible apply Print.has_ite | with_reducible refine Within.put _ ?_ ?_ | with_reducible refine Within.unevent _ ?_ ?_ | with_reducible refine Within.wipe _ _ ?_ ?_ ?_ | with_reducible refine foot_finish e4 ?_ | with_reducible refine foot_command e5 ?_ ?_ | with_reducible refine foot_complete e6 ?_ | with_reducible refine Within.each ?_ ?_ | intro _ | (dsimp only))

def fp_recovDieReset : Print := .join
  [.reg1 R.CTX_STATE.STATE none,
   fp_setRecov,
   fp_sendOrder,
   fp_stuckOff]

theorem foot_recovDieReset {pr : Print} {z s : State} {d : Nat} (hP : fp_recovDieReset.Sub pr) (hk : Within pr z s) :
    Within pr z (recovDieReset d s) := by
  simp only [fp_recovDieReset, Print.join_cons, Print.join_nil, and_true] at hP
  obtain ⟨e0, e1, e2, e3⟩ := hP
  unfold recovDieReset
  iterate 40 (try any_goals first | with_reducible assumption | exact Print.has_reg1 Names.any e0 | with_reducible apply Print.has_ite | with_reducible refine Within.put _ ?_ ?_ | with_reducible refine foot_setRecov e1 ?_ | with_reducible refine foot_sendOrder e2 ?_ | with_reducible refine foot_stuckOff e3 ?_ | with_reducible refine Within.each ?_ ?_ | with_reducible refine Within.when ?_ ?_ | exact Or.inr (Print.has_prt (by assumption)) | with_reducible exact Or.inl rfl | intro _ | (dsimp only) | with_reducible apply Within.upd)

def fp_recovAccReset : Print := .join
  [.reg R.HNG_STAT.SEQ_BUSY,
   .reg R.HNG_STAT.CUR_CTX,
   fp_setRecov,
   fp_faultOff,
   fp_completeAt,
   fp_scrubsResume]

theorem foot_recovAccReset {pr : Print} {z s : State} (hP : fp_recovAccReset.Sub pr) (hk : Within pr z s) :
    Within pr z (recovAccReset s) := by
  simp only [fp_recovAccReset, Print.join_cons, Print.join_nil, and_true] at hP
  obtain ⟨e0, e1, e2, e3, e4, e5⟩ := hP
  unfold recovAccReset
  iterate 40 (try any_goals first | with_reducible assumption | exact Print.has_reg e0 | exact Print.has_reg e1 | with_reducible apply Print.has_ite | with_reducible refine Within.put _ ?_ ?_ | with_reducible refine foot_setRecov e2 ?_ | with_reducible refine foot_faultOff e3 ?_ | with_reducible refine foot_completeAt e4 ?_ | with_reducible refine foot_scrubsResume e5 ?_ | with_reducible refine Within.each ?_ ?_ | exact Or.inr (Print.has_prt (by assumption)) | with_reducible exact Or.inl rfl | intro _ | (dsimp only) | split | with_reducible apply Within.upd)

def fp_recovWarm : Print := .join
  [fp_setRecov]

theorem foot_recovWarm {pr : Print} {z s : State} (hP : fp_recovWarm.Sub pr) (hk : Within pr z s) :
    Within pr z (recovWarm s) := by
  simp only [fp_recovWarm, Print.join_cons, Print.join_nil, and_true] at hP
  have e0 := hP
  unfold recovWarm
  iterate 40 (try any_goals first | with_reducible assumption | with_reducible refine foot_setRecov e0 ?_ | exact Or.inr (Print.has_prt (by assumption)) | with_reducible exact Or.inl rfl | intro _ | (dsimp only) | with_reducible apply Within.upd)

def fp_recovResume : Print := .join
  [fp_setRecov,
   fp_startSeq]

theorem foot_recovResume {pr : Print} {z s : State} (hP : fp_recovResume.Sub pr) (hk : Within pr z s) :
    Within pr z (recovResume s) := by
  simp only [fp_recovResume, Print.join_cons, Print.join_nil, and_true] at hP
  obtain ⟨e0, e1⟩ := hP
  unfold recovResume
  iterate 40 (try any_goals first | with_reducible assumption | with_reducible refine foot_setRecov e0 ?_ | with_reducible refine foot_startSeq e1 ?_ | exact Or.inr (Print.has_prt (by assumption)) | with_reducible exact Or.inl rfl | (dsimp only) | split | with_reducible apply Within.upd)

def fp_execEntropyFail : Print := .join
  [.reg R.SEC_STAT.ENT_OK,
   .reg R.SEC_EVENT,
   fp_finish,
   fp_faultOn,
   fp_record]

theorem foot_execEntropyFail {pr : Print} {z s t : State} (hP : fp_execEntropyFail.Sub pr) (hk : Within pr z s)
    (h : execEntropyFail s = .next t) : Within pr z t := by
  simp only [fp_execEntropyFail, Print.join_cons, Print.join_nil, and_true] at hP
  obtain ⟨e0, e1, e2, e3, e4⟩ := hP
  unfold execEntropyFail done at h
  injection h with h
  subst h
  iterate 40 (try any_goals first | with_reducible assumption | exact Print.has_reg e0 | exact Print.has_reg e1 | with_reducible apply Print.has_ite | with_reducible refine Within.put _ ?_ ?_ | with_reducible refine Within.event _ ?_ ?_ | with_reducible refine foot_finish e2 ?_ | with_reducible refine foot_faultOn e3 ?_ | with_reducible refine foot_record e4 ?_ | (dsimp only))

def fp_execDrbgReseed : Print := .join
  [.prt .sec,
   fp_finish]

theorem foot_execDrbgReseed {pr : Print} {z s t : State} (hP : fp_execDrbgReseed.Sub pr) (hk : Within pr z s)
    (h : execDrbgReseed s = .next t) : Within pr z t := by
  simp only [fp_execDrbgReseed, Print.join_cons, Print.join_nil, and_true] at hP
  obtain ⟨e0, e1⟩ := hP
  unfold execDrbgReseed done at h
  injection h with h
  subst h
  iterate 40 (try any_goals first | with_reducible assumption | exact Print.has_prt e0 | with_reducible refine foot_finish e1 ?_ | exact Or.inr (Print.has_prt (by assumption)) | with_reducible exact Or.inl rfl | split | with_reducible apply Within.upd)

def fp_execEntropySourceRestart : Print := .join
  [.reg R.SEC_STAT.ENT_OK,
   fp_finish]

theorem foot_execEntropySourceRestart {pr : Print} {z s t : State} (hP : fp_execEntropySourceRestart.Sub pr) (hk : Within pr z s)
    (h : execEntropySourceRestart s = .next t) : Within pr z t := by
  simp only [fp_execEntropySourceRestart, Print.join_cons, Print.join_nil, and_true] at hP
  obtain ⟨e0, e1⟩ := hP
  unfold execEntropySourceRestart done at h
  injection h with h
  subst h
  iterate 40 (try any_goals first | with_reducible assumption | exact Print.has_reg e0 | with_reducible apply Print.has_ite | with_reducible refine Within.put _ ?_ ?_ | with_reducible refine foot_finish e1 ?_)

def fp_setOp : Print := .join
  [.prt .sec]

theorem foot_setOp {pr : Print} {z s : State} {p : Nat} {o : Option KeyOp} (hP : fp_setOp.Sub pr) (hk : Within pr z s) :
    Within pr z (setOp p o s) := by
  simp only [fp_setOp, Print.join_cons, Print.join_nil, and_true] at hP
  have e0 := hP
  unfold setOp
  iterate 40 (try any_goals first | with_reducible assumption | exact Print.has_prt e0 | with_reducible refine Within.setPart _ _ ?_ ?_ | exact Or.inr (Print.has_prt (by assumption)) | with_reducible exact Or.inl rfl | with_reducible apply Within.upd)

def fp_effKeyCommit (p : Option Nat) : Print := .join
  [.prt .sec,
   .reg1 R.SEC_PART_EPOCH.CUR p,
   .reg1 R.SEC_PART_EPOCH.PREV_VALID p,
   .reg R.SEC_EVENT,
   fp_keySend,
   fp_completeAt]

theorem foot_effKeyCommit {pr : Print} {z s : State} {p : Nat} {o_p : Option Nat} (n_p : Names o_p p) (hP : (fp_effKeyCommit o_p).Sub pr) (hk : Within pr z s) :
    Within pr z (effKeyCommit p s) := by
  simp only [fp_effKeyCommit, Print.join_cons, Print.join_nil, and_true] at hP
  obtain ⟨e0, e1, e2, e3, e4, e5⟩ := hP
  unfold effKeyCommit
  iterate 40 (try any_goals first | with_reducible assumption | exact Print.has_prt e0 | exact Print.has_reg1 n_p e1 | exact Print.has_reg1 n_p e2 | exact Print.has_reg e3 | with_reducible apply Print.has_ite | with_reducible refine Within.put _ ?_ ?_ | with_reducible refine Within.event _ ?_ ?_ | with_reducible refine Within.setPart _ _ ?_ ?_ | with_reducible refine foot_keySend e4 ?_ | with_reducible refine foot_completeAt e5 ?_ | exact Or.inr (Print.has_prt (by assumption)) | with_reducible exact Or.inl rfl | (dsimp only) | split | with_reducible apply Within.upd)

def fp_execKeyCommit (part : Option Nat) : Print := .join
  [fp_finish,
   fp_effKeyCommit part]

theorem foot_execKeyCommit {pr : Print} {z s t : State} {part : Nat} {o_part : Option Nat} (n_part : Names o_part part) (hP : (fp_execKeyCommit o_part).Sub pr) (hk : Within pr z s)
    (h : execKeyCommit part s = .next t) : Within pr z t := by
  simp only [fp_execKeyCommit, Print.join_cons, Print.join_nil, and_true] at hP
  obtain ⟨e0, e1⟩ := hP
  unfold execKeyCommit done at h
  injection h with h
  subst h
  iterate 40 (try any_goals first | with_reducible assumption | with_reducible refine foot_finish e0 ?_ | with_reducible refine foot_effKeyCommit n_part e1 ?_)

def fp_effKeybusTimeout (p : Option Nat) : Print := .join
  [.reg R.SEC_EVENT,
   .prt .sec,
   .reg1 R.SEC_PART_MKEY.LOADED p,
   fp_setOp,
   fp_keySend,
   fp_completeAt]

theorem foot_effKeybusTimeout {pr : Print} {z s : State} {p : Nat} {o_p : Option Nat} (n_p : Names o_p p) (hP : (fp_effKeybusTimeout o_p).Sub pr) (hk : Within pr z s) :
    Within pr z (effKeybusTimeout p s) := by
  simp only [fp_effKeybusTimeout, Print.join_cons, Print.join_nil, and_true] at hP
  obtain ⟨e0, e1, e2, e3, e4, e5⟩ := hP
  unfold effKeybusTimeout
  iterate 40 (try any_goals first | with_reducible assumption | exact Print.has_reg e0 | exact Print.has_prt e1 | exact Print.has_reg1 n_p e2 | with_reducible apply Print.has_ite | with_reducible refine Within.event _ ?_ ?_ | with_reducible refine Within.unevent _ ?_ ?_ | with_reducible refine Within.setPart _ _ ?_ ?_ | with_reducible refine foot_setOp e3 ?_ | with_reducible refine foot_keySend e4 ?_ | with_reducible refine foot_completeAt e5 ?_ | exact Or.inr (Print.has_prt (by assumption)) | with_reducible exact Or.inl rfl | (dsimp only) | split | with_reducible apply Within.upd)

def fp_execKeybusTimeout (part : Option Nat) : Print := .join
  [fp_finish,
   fp_effKeybusTimeout part]

theorem foot_execKeybusTimeout {pr : Print} {z s t : State} {part : Nat} {o_part : Option Nat} (n_part : Names o_part part) (hP : (fp_execKeybusTimeout o_part).Sub pr) (hk : Within pr z s)
    (h : execKeybusTimeout part s = .next t) : Within pr z t := by
  simp only [fp_execKeybusTimeout, Print.join_cons, Print.join_nil, and_true] at hP
  obtain ⟨e0, e1⟩ := hP
  unfold execKeybusTimeout done at h
  injection h with h
  subst h
  iterate 40 (try any_goals first | with_reducible assumption | with_reducible refine foot_finish e0 ?_ | with_reducible refine foot_effKeybusTimeout n_part e1 ?_)

def fp_effPrevEpochCount (p : Option Nat) : Print := .join
  [.reg1 R.SEC_PART_PREV.PAGES p,
   .reg1 R.SEC_PART_PREV2.INFLIGHT p,
   .prt .sec,
   fp_keySend]

theorem foot_effPrevEpochCount {pr : Print} {z s : State} {p : Nat} {pages : Nat} {inflight : Nat} {o_p : Option Nat} (n_p : Names o_p p) (hP : (fp_effPrevEpochCount o_p).Sub pr) (hk : Within pr z s) :
    Within pr z (effPrevEpochCount p pages inflight s) := by
  simp only [fp_effPrevEpochCount, Print.join_cons, Print.join_nil, and_true] at hP
  obtain ⟨e0, e1, e2, e3⟩ := hP
  unfold effPrevEpochCount
  iterate 40 (try any_goals first | with_reducible assumption | exact Print.has_reg1 n_p e0 | exact Print.has_reg1 n_p e1 | exact Print.has_prt e2 | with_reducible apply Print.has_ite | with_reducible refine Within.put _ ?_ ?_ | with_reducible refine Within.setPart _ _ ?_ ?_ | with_reducible refine foot_keySend e3 ?_ | exact Or.inr (Print.has_prt (by assumption)) | with_reducible exact Or.inl rfl | (dsimp only) | split | with_reducible apply Within.upd)

def fp_execPrevEpochCount (part : Option Nat) : Print := .join
  [fp_finish,
   fp_effPrevEpochCount part]

theorem foot_execPrevEpochCount {pr : Print} {z s t : State} {part : Nat} {pages : Nat} {inflight : Nat} {o_part : Option Nat} (n_part : Names o_part part) (hP : (fp_execPrevEpochCount o_part).Sub pr) (hk : Within pr z s)
    (h : execPrevEpochCount part pages inflight s = .next t) : Within pr z t := by
  simp only [fp_execPrevEpochCount, Print.join_cons, Print.join_nil, and_true] at hP
  obtain ⟨e0, e1⟩ := hP
  unfold execPrevEpochCount done at h
  injection h with h
  subst h
  iterate 40 (try any_goals first | with_reducible assumption | with_reducible refine foot_finish e0 ?_ | with_reducible refine foot_effPrevEpochCount n_part e1 ?_)

def fp_clearContexts : Print := .join
  [.reg1 R.CTX_STATE.STATE none,
   .reg1 R.CTX_STATE.N_Q none,
   .reg1 R.CTX_STATE.PART none,
   .reg1 R.CTX_STATE.SPLIT none,
   fp_setRecov,
   fp_stuckOff]

theorem foot_clearContexts {pr : Print} {z s : State} {p : Nat} (hP : fp_clearContexts.Sub pr) (hk : Within pr z s) :
    Within pr z (clearContexts p s) := by
  simp only [fp_clearContexts, Print.join_cons, Print.join_nil, and_true] at hP
  obtain ⟨e0, e1, e2, e3, e4, e5⟩ := hP
  unfold clearContexts
  iterate 40 (try any_goals first | with_reducible assumption | exact Print.has_reg1 Names.any e0 | exact Print.has_reg1 Names.any e1 | exact Print.has_reg1 Names.any e2 | exact Print.has_reg1 Names.any e3 | with_reducible apply Print.has_ite | with_reducible refine Within.put _ ?_ ?_ | with_reducible refine foot_setRecov e4 ?_ | with_reducible refine foot_stuckOff e5 ?_ | with_reducible refine Within.each ?_ ?_ | with_reducible refine Within.when ?_ ?_ | exact Or.inr (Print.has_prt (by assumption)) | with_reducible exact Or.inl rfl | intro _ | (dsimp only) | with_reducible apply Within.upd)

def fp_scrubFree (p : Option Nat) : Print := .join
  [.reg R.SEC_EVENT,
   fp_clearContexts,
   fp_freePart p,
   fp_bumpGen,
   fp_faultOff,
   fp_completeAt]

theorem foot_scrubFree {pr : Print} {z s : State} {p : Nat} {c : ScrubH} {o_p : Option Nat} (n_p : Names o_p p) (hP : (fp_scrubFree o_p).Sub pr) (hk : Within pr z s) :
    Within pr z (scrubFree p c s) := by
  simp only [fp_scrubFree, Print.join_cons, Print.join_nil, and_true] at hP
  obtain ⟨e0, e1, e2, e3, e4, e5⟩ := hP
  unfold scrubFree
  iterate 40 (try any_goals first | with_reducible assumption | exact Print.has_reg e0 | with_reducible apply Print.has_ite | with_reducible refine Within.event _ ?_ ?_ | with_reducible refine foot_clearContexts e1 ?_ | with_reducible refine foot_freePart n_p e2 ?_ | with_reducible refine foot_bumpGen e3 ?_ | with_reducible refine foot_faultOff e4 ?_ | with_reducible refine foot_completeAt e5 ?_ | with_reducible refine Within.when ?_ ?_ | intro _ | (dsimp only) | split)

def fp_effKeyBusAck (p : Option Nat) : Print := .join
  [.prt .sec,
   .reg1 R.SEC_PART_MKEY.LOADED p,
   .reg R.SEC_EVENT,
   .reg1 R.SEC_PART_EPOCH.PREV_VALID p,
   fp_scrubAck,
   fp_scrubOverwrite p,
   fp_scrubFree p,
   fp_completeAt,
   fp_setOp]

theorem foot_effKeyBusAck {pr : Print} {z s : State} {p : Nat} {order : Nat} {o_p : Option Nat} (n_p : Names o_p p) (hP : (fp_effKeyBusAck o_p).Sub pr) (hk : Within pr z s) :
    Within pr z (effKeyBusAck p order s) := by
  simp only [fp_effKeyBusAck, Print.join_cons, Print.join_nil, and_true] at hP
  obtain ⟨e0, e1, e2, e3, e4, e5, e6, hP⟩ := hP
  obtain ⟨e7, e8⟩ := hP
  unfold effKeyBusAck
  iterate 40 (try any_goals first | with_reducible assumption | exact Print.has_prt e0 | exact Print.has_reg1 n_p e1 | exact Print.has_reg e2 | exact Print.has_reg1 n_p e3 | with_reducible apply Print.has_ite | with_reducible refine Within.put _ ?_ ?_ | with_reducible refine Within.event _ ?_ ?_ | with_reducible refine Within.setPart _ _ ?_ ?_ | with_reducible refine foot_scrubAck e4 ?_ | with_reducible refine foot_scrubOverwrite n_p e5 ?_ | with_reducible refine foot_scrubFree n_p e6 ?_ | with_reducible refine foot_completeAt e7 ?_ | with_reducible refine foot_setOp e8 ?_ | exact Or.inr (Print.has_prt (by assumption)) | with_reducible exact Or.inl rfl | (dsimp only) | split | with_reducible apply Within.upd)

def fp_execKeyBusAcknowledgement (part : Option Nat) : Print := .join
  [fp_finish,
   fp_effKeyBusAck part]

theorem foot_execKeyBusAcknowledgement {pr : Print} {z s t : State} {part : Nat} {order : Nat} {o_part : Option Nat} (n_part : Names o_part part) (hP : (fp_execKeyBusAcknowledgement o_part).Sub pr) (hk : Within pr z s)
    (h : execKeyBusAcknowledgement part order s = .next t) : Within pr z t := by
  simp only [fp_execKeyBusAcknowledgement, Print.join_cons, Print.join_nil, and_true] at hP
  obtain ⟨e0, e1⟩ := hP
  unfold execKeyBusAcknowledgement done at h
  injection h with h
  subst h
  iterate 40 (try any_goals first | with_reducible assumption | with_reducible refine foot_finish e0 ?_ | with_reducible refine foot_effKeyBusAck n_part e1 ?_)

def fp_effScrubOverwriteDone (p : Option Nat) : Print := .join
  [.reg1 R.SEC_PART_SCRUB.REMAIN p,
   fp_setScrub,
   fp_keepResult,
   fp_keySend]

theorem foot_effScrubOverwriteDone {pr : Print} {z s : State} {p : Nat} {pages : Nat} {o_p : Option Nat} (n_p : Names o_p p) (hP : (fp_effScrubOverwriteDone o_p).Sub pr) (hk : Within pr z s) :
    Within pr z (effScrubOverwriteDone p pages s) := by
  simp only [fp_effScrubOverwriteDone, Print.join_cons, Print.join_nil, and_true] at hP
  obtain ⟨e0, e1, e2, e3⟩ := hP
  unfold effScrubOverwriteDone
  iterate 40 (try any_goals first | with_reducible assumption | exact Print.has_reg1 n_p e0 | with_reducible apply Print.has_ite | with_reducible refine Within.put _ ?_ ?_ | with_reducible refine foot_setScrub e1 ?_ | with_reducible refine foot_keepResult e2 ?_ | with_reducible refine foot_keySend e3 ?_ | exact Or.inr (Print.has_prt (by assumption)) | with_reducible exact Or.inl rfl | (dsimp only) | split | with_reducible apply Within.upd)

def fp_execScrubOverwriteDone (part : Option Nat) : Print := .join
  [fp_finish,
   fp_effScrubOverwriteDone part]

theorem foot_execScrubOverwriteDone {pr : Print} {z s t : State} {part : Nat} {pages : Nat} {o_part : Option Nat} (n_part : Names o_part part) (hP : (fp_execScrubOverwriteDone o_part).Sub pr) (hk : Within pr z s)
    (h : execScrubOverwriteDone part pages s = .next t) : Within pr z t := by
  simp only [fp_execScrubOverwriteDone, Print.join_cons, Print.join_nil, and_true] at hP
  obtain ⟨e0, e1⟩ := hP
  unfold execScrubOverwriteDone done at h
  injection h with h
  subst h
  iterate 40 (try any_goals first | with_reducible assumption | with_reducible refine foot_finish e0 ?_ | with_reducible refine foot_effScrubOverwriteDone n_part e1 ?_)

def fp_effScrubFail (p : Option Nat) : Print := .join
  [fp_scrubFailed p]

theorem foot_effScrubFail {pr : Print} {z s : State} {p : Nat} {o_p : Option Nat} (n_p : Names o_p p) (hP : (fp_effScrubFail o_p).Sub pr) (hk : Within pr z s) :
    Within pr z (effScrubFail p s) := by
  simp only [fp_effScrubFail, Print.join_cons, Print.join_nil, and_true] at hP
  have e0 := hP
  unfold effScrubFail
  iterate 40 (try any_goals first | with_reducible assumption | with_reducible refine foot_scrubFailed n_p e0 ?_ | (dsimp only) | split)

def fp_execScrubFail (part : Option Nat) : Print := .join
  [fp_finish,
   fp_effScrubFail part]

theorem foot_execScrubFail {pr : Print} {z s t : State} {part : Nat} {o_part : Option Nat} (n_part : Names o_part part) (hP : (fp_execScrubFail o_part).Sub pr) (hk : Within pr z s)
    (h : execScrubFail part s = .next t) : Within pr z t := by
  simp only [fp_execScrubFail, Print.join_cons, Print.join_nil, and_true] at hP
  obtain ⟨e0, e1⟩ := hP
  unfold execScrubFail done at h
  injection h with h
  subst h
  iterate 40 (try any_goals first | with_reducible assumption | with_reducible refine foot_finish e0 ?_ | with_reducible refine foot_effScrubFail n_part e1 ?_)

def fp_putDebug : Print := .join
  [.reg R.SEC_DBG.DBG,
   .reg R.SEC_DBG.PROF,
   fp_loseAttest none]

theorem foot_putDebug {pr : Print} {z s : State} {dbg : Nat} {prof : Nat} (hP : fp_putDebug.Sub pr) (hk : Within pr z s) :
    Within pr z (putDebug dbg prof s) := by
  simp only [fp_putDebug, Print.join_cons, Print.join_nil, and_true] at hP
  obtain ⟨e0, e1, e2⟩ := hP
  unfold putDebug
  iterate 40 (try any_goals first | with_reducible assumption | exact Print.has_reg e0 | exact Print.has_reg e1 | with_reducible apply Print.has_ite | with_reducible refine Within.put _ ?_ ?_ | with_reducible refine foot_loseAttest Names.any e2 ?_ | with_reducible refine Within.each ?_ ?_ | intro _ | (dsimp only) | split)

def fp_putLayout (p : Option Nat) : Print := .join
  [.reg1 R.SEC_PART_RES.DIES p,
   .reg1 R.SEC_PART_RES.STACKS p,
   .reg1 R.SEC_PART_QG.FIRST p,
   .reg1 R.SEC_PART_QG.COUNT p,
   .reg1 R.SEC_PART_LINK.PORTS p,
   .reg1 R.SEC_PART_CFG.LEGACY_OK p,
   .reg1 R.SEC_PART_CFG.MODEL_KEYS p,
   .prt .sec,
   fp_keySend,
   fp_idleLinks]

theorem foot_putLayout {pr : Print} {z s : State} {p : Nat} {l : Layout} {legacy : Bool} {models : Nat} {o_p : Option Nat} (n_p : Names o_p p) (hP : (fp_putLayout o_p).Sub pr) (hk : Within pr z s) :
    Within pr z (putLayout p l legacy models s) := by
  simp only [fp_putLayout, Print.join_cons, Print.join_nil, and_true] at hP
  obtain ⟨e0, e1, e2, e3, e4, e5, e6, hP⟩ := hP
  obtain ⟨e7, e8, e9⟩ := hP
  unfold putLayout
  iterate 40 (try any_goals first | with_reducible assumption | exact Print.has_reg1 n_p e0 | exact Print.has_reg1 n_p e1 | exact Print.has_reg1 n_p e2 | exact Print.has_reg1 n_p e3 | exact Print.has_reg1 n_p e4 | exact Print.has_reg1 n_p e5 | exact Print.has_reg1 n_p e6 | exact Print.has_prt e7 | with_reducible apply Print.has_ite | with_reducible refine Within.put _ ?_ ?_ | with_reducible refine Within.putB _ ?_ ?_ | with_reducible refine Within.setPart _ _ ?_ ?_ | with_reducible refine foot_keySend e8 ?_ | with_reducible refine foot_idleLinks e9 ?_ | exact Or.inr (Print.has_prt (by assumption)) | with_reducible exact Or.inl rfl | intro _ | (dsimp only) | with_reducible apply Within.upd)

def fp_createPart (p : Option Nat) : Print := .join
  [.reg1 R.SEC_PART_CFG.CONF p,
   .reg1 R.SEC_PART_CFG.STATE p,
   fp_putDebug,
   fp_putLayout p,
   fp_installKeys p]

theorem foot_createPart {pr : Print} {z s : State} {p : Nat} {l : Layout} {conf : Bool} {legacy : Bool} {models : Nat} {o_p : Option Nat} (n_p : Names o_p p) (hP : (fp_createPart o_p).Sub pr) (hk : Within pr z s) :
    Within pr z (createPart p l conf legacy models s) := by
  simp only [fp_createPart, Print.join_cons, Print.join_nil, and_true] at hP
  obtain ⟨e0, e1, e2, e3, e4⟩ := hP
  unfold createPart
  iterate 40 (try any_goals first | with_reducible assumption | exact Print.has_reg1 n_p e0 | exact Print.has_reg1 n_p e1 | with_reducible apply Print.has_ite | with_reducible refine Within.put _ ?_ ?_ | with_reducible refine Within.putB _ ?_ ?_ | with_reducible refine foot_putDebug e2 ?_ | with_reducible refine foot_putLayout n_p e3 ?_ | with_reducible refine foot_installKeys n_p e4 ?_ | with_reducible refine Within.when ?_ ?_ | intro _ | (dsimp only))

def fp_changePart (p : Option Nat) : Print := .join
  [fp_loseAttest p,
   fp_putLayout p,
   fp_reloadKeys]

theorem foot_changePart {pr : Print} {z s : State} {p : Nat} {l : Layout} {legacy : Bool} {models : Nat} {o_p : Option Nat} (n_p : Names o_p p) (hP : (fp_changePart o_p).Sub pr) (hk : Within pr z s) :
    Within pr z (changePart p l legacy models s) := by
  simp only [fp_changePart, Print.join_cons, Print.join_nil, and_true] at hP
  obtain ⟨e0, e1, e2⟩ := hP
  unfold changePart
  iterate 40 (try any_goals first | with_reducible assumption | with_reducible refine foot_loseAttest n_p e0 ?_ | with_reducible refine foot_putLayout n_p e1 ?_ | with_reducible refine foot_reloadKeys e2 ?_ | with_reducible refine Within.when ?_ ?_ | intro _ | (dsimp only))

def fp_dissolvePart (p : Option Nat) : Print := .join
  [fp_loseAttest p,
   fp_eraseAll,
   fp_keySend,
   fp_freePart p]

theorem foot_dissolvePart {pr : Print} {z s : State} {p : Nat} {o_p : Option Nat} (n_p : Names o_p p) (hP : (fp_dissolvePart o_p).Sub pr) (hk : Within pr z s) :
    Within pr z (dissolvePart p s) := by
  simp only [fp_dissolvePart, Print.join_cons, Print.join_nil, and_true] at hP
  obtain ⟨e0, e1, e2, e3⟩ := hP
  unfold dissolvePart
  iterate 40 (try any_goals first | with_reducible assumption | with_reducible refine foot_loseAttest n_p e0 ?_ | with_reducible refine foot_eraseAll e1 ?_ | with_reducible refine foot_keySend e2 ?_ | with_reducible refine foot_freePart n_p e3 ?_ | (dsimp only))

def fp_execPartSet : Print := .join
  [fp_finish,
   fp_command,
   fp_createPart none,
   fp_dissolvePart none,
   fp_changePart none,
   fp_bumpGen,
   fp_complete]

theorem foot_execPartSet {pr : Print} {z s t : State} {port : Nat} {tag : Nat} (hP : fp_execPartSet.Sub pr) (hk : Within pr z s)
    (h : execPartSet port tag s = .next t) : Within pr z t := by
  simp only [fp_execPartSet, Print.join_cons, Print.join_nil, and_true] at hP
  obtain ⟨e0, e1, e2, e3, e4, e5, e6⟩ := hP
  unfold execPartSet done at h
  injection h with h
  subst h
  iterate 40 (try any_goals first | with_reducible assumption | with_reducible refine foot_finish e0 ?_ | with_reducible refine foot_command e1 ?_ ?_ | with_reducible refine foot_createPart Names.any e2 ?_ | with_reducible refine foot_dissolvePart Names.any e3 ?_ | with_reducible refine foot_changePart Names.any e4 ?_ | with_reducible refine foot_bumpGen e5 ?_ | with_reducible refine foot_complete e6 ?_ | with_reducible refine Within.fold ?_ ?_ | intro _ | (dsimp only) | split)

def fp_dropPending : Print := .join
  [.reg1 R.CTX_STATE.STATE none,
   fp_setRecov,
   fp_completeAt]

theorem foot_dropPending {pr : Print} {z s : State} {p : Nat} (hP : fp_dropPending.Sub pr) (hk : Within pr z s) :
    Within pr z (dropPending p s) := by
  simp only [fp_dropPending, Print.join_cons, Print.join_nil, and_true] at hP
  obtain ⟨e0, e1, e2⟩ := hP
  unfold dropPending
  iterate 40 (try any_goals first | with_reducible assumption | exact Print.has_reg1 Names.any e0 | with_reducible apply Print.has_ite | with_reducible refine Within.put _ ?_ ?_ | with_reducible refine foot_setRecov e1 ?_ | with_reducible refine foot_completeAt e2 ?_ | with_reducible refine Within.each ?_ ?_ | exact Or.inr (Print.has_prt (by assumption)) | with_reducible exact Or.inl rfl | intro _ | (dsimp only) | with_reducible apply Within.upd)

def fp_execPartScrub : Print := .join
  [.reg1 R.SEC_PART_CFG.STATE none,
   fp_finish,
   fp_command,
   fp_loseAttest none,
   fp_setScrub,
   fp_markStarted,
   fp_scrubErase none,
   fp_dropPending,
   fp_scrubResume]

theorem foot_execPartScrub {pr : Print} {z s t : State} {port : Nat} {tag : Nat} (hP : fp_execPartScrub.Sub pr) (hk : Within pr z s)
    (h : execPartScrub port tag s = .next t) : Within pr z t := by
  simp only [fp_execPartScrub, Print.join_cons, Print.join_nil, and_true] at hP
  obtain ⟨e0, e1, e2, e3, e4, e5, e6, hP⟩ := hP
  obtain ⟨e7, e8⟩ := hP
  unfold execPartScrub done at h
  injection h with h
  subst h
  iterate 40 (try any_goals first | with_reducible assumption | exact Print.has_reg1 Names.any e0 | with_reducible apply Print.has_ite | with_reducible refine Within.put _ ?_ ?_ | with_reducible refine foot_finish e1 ?_ | with_reducible refine foot_command e2 ?_ ?_ | with_reducible refine foot_loseAttest Names.any e3 ?_ | with_reducible refine foot_setScrub e4 ?_ | with_reducible refine foot_markStarted e5 ?_ | with_reducible refine foot_scrubErase Names.any e6 ?_ | with_reducible refine foot_dropPending e7 ?_ | with_reducible refine foot_scrubResume e8 ?_ | intro _ | (dsimp only) | split)

def fp_setSpdm : Print := .join
  [.prt .sec]

theorem foot_setSpdm {pr : Print} {z s : State} {port : Nat} {c : Spdm} (hP : fp_setSpdm.Sub pr) (hk : Within pr z s) :
    Within pr z (setSpdm port c s) := by
  simp only [fp_setSpdm, Print.join_cons, Print.join_nil, and_true] at hP
  have e0 := hP
  unfold setSpdm
  iterate 40 (try any_goals first | with_reducible assumption | exact Print.has_prt e0 | exact Or.inr (Print.has_prt (by assumption)) | with_reducible exact Or.inl rfl | with_reducible apply Within.upd)

def fp_execPortBind : Print := .join
  [.reg1 R.SEC_PORT.AUTH none,
   .reg1 R.SEC_PORT.PART none,
   fp_finish,
   fp_command,
   fp_setSpdm,
   fp_bumpGen,
   fp_complete]

theorem foot_execPortBind {pr : Print} {z s t : State} {port : Nat} {tag : Nat} (hP : fp_execPortBind.Sub pr) (hk : Within pr z s)
    (h : execPortBind port tag s = .next t) : Within pr z t := by
  simp only [fp_execPortBind, Print.join_cons, Print.join_nil, and_true] at hP
  obtain ⟨e0, e1, e2, e3, e4, e5, e6⟩ := hP
  unfold execPortBind done at h
  injection h with h
  subst h
  iterate 40 (try any_goals first | with_reducible assumption | exact Print.has_reg1 Names.any e0 | exact Print.has_reg1 Names.any e1 | with_reducible apply Print.has_ite | with_reducible refine Within.put _ ?_ ?_ | with_reducible refine foot_finish e2 ?_ | with_reducible refine foot_command e3 ?_ ?_ | with_reducible refine foot_setSpdm e4 ?_ | with_reducible refine foot_bumpGen e5 ?_ | with_reducible refine foot_complete e6 ?_ | intro _ | (dsimp only))

def fp_execKeyRelease : Print := .join
  [fp_finish,
   fp_command,
   fp_setOp,
   fp_keySend,
   fp_markStarted]

theorem foot_execKeyRelease {pr : Print} {z s t : State} {port : Nat} {tag : Nat} (hP : fp_execKeyRelease.Sub pr) (hk : Within pr z s)
    (h : execKeyRelease port tag s = .next t) : Within pr z t := by
  simp only [fp_execKeyRelease, Print.join_cons, Print.join_nil, and_true] at hP
  obtain ⟨e0, e1, e2, e3, e4⟩ := hP
  unfold execKeyRelease done at h
  injection h with h
  subst h
  iterate 40 (try any_goals first | with_reducible assumption | with_reducible refine foot_finish e0 ?_ | with_reducible refine foot_command e1 ?_ ?_ | with_reducible refine foot_setOp e2 ?_ | with_reducible refine foot_keySend e3 ?_ | with_reducible refine foot_markStarted e4 ?_ | intro _ | (dsimp only) | split)

def fp_execKeyRotate : Print := .join
  [fp_finish,
   fp_command,
   fp_drbgUsed,
   fp_setOp,
   fp_sendLoads,
   fp_markStarted]

theorem foot_execKeyRotate {pr : Print} {z s t : State} {port : Nat} {tag : Nat} (hP : fp_execKeyRotate.Sub pr) (hk : Within pr z s)
    (h : execKeyRotate port tag s = .next t) : Within pr z t := by
  simp only [fp_execKeyRotate, Print.join_cons, Print.join_nil, and_true] at hP
  obtain ⟨e0, e1, e2, e3, e4, e5⟩ := hP
  unfold execKeyRotate done at h
  injection h with h
  subst h
  iterate 40 (try any_goals first | with_reducible assumption | with_reducible refine foot_finish e0 ?_ | with_reducible refine foot_command e1 ?_ ?_ | with_reducible refine foot_drbgUsed e2 ?_ | with_reducible refine foot_setOp e3 ?_ | with_reducible refine foot_sendLoads e4 ?_ | with_reducible refine foot_markStarted e5 ?_ | intro _ | (dsimp only) | split)

def fp_execDebugSet : Print := .join
  [fp_finish,
   fp_command,
   fp_putDebug,
   fp_bumpGen,
   fp_complete]

theorem foot_execDebugSet {pr : Print} {z s t : State} {port : Nat} {tag : Nat} (hP : fp_execDebugSet.Sub pr) (hk : Within pr z s)
    (h : execDebugSet port tag s = .next t) : Within pr z t := by
  simp only [fp_execDebugSet, Print.join_cons, Print.join_nil, and_true] at hP
  obtain ⟨e0, e1, e2, e3, e4⟩ := hP
  unfold execDebugSet done at h
  injection h with h
  subst h
  iterate 40 (try any_goals first | with_reducible assumption | with_reducible refine foot_finish e0 ?_ | with_reducible refine foot_command e1 ?_ ?_ | with_reducible refine foot_putDebug e2 ?_ | with_reducible refine foot_bumpGen e3 ?_ | with_reducible refine foot_complete e4 ?_ | with_reducible refine Within.when ?_ ?_ | intro _ | (dsimp only) | split)

def fp_putSpdmOut : Print := .join
  [.prt .mem,
   .prt .cq]

theorem foot_putSpdmOut {pr : Print} {z s : State} {port : Nat} {b : List Nat} (hP : fp_putSpdmOut.Sub pr) (hk : Within pr z s) :
    Within pr z (putSpdmOut port b s) := by
  simp only [fp_putSpdmOut, Print.join_cons, Print.join_nil, and_true] at hP
  obtain ⟨e0, e1⟩ := hP
  unfold putSpdmOut
  iterate 40 (try any_goals first | with_reducible assumption | exact Print.has_prt e0 | exact Print.has_prt e1 | with_reducible refine Within.writeBytes _ _ ?_ ?_ ?_ | with_reducible refine Within.wipe _ _ ?_ ?_ ?_ | (dsimp only))

def fp_execSpdmMsg : Print := .join
  [.reg1 R.SEC_PART_CFG.STATE none,
   .reg R.SEC_EVENT,
   fp_finish,
   fp_command,
   fp_drawn,
   fp_setSpdm,
   fp_putSpdmOut,
   fp_complete]

theorem foot_execSpdmMsg {pr : Print} {z s t : State} {port : Nat} {tag : Nat} (hP : fp_execSpdmMsg.Sub pr) (hk : Within pr z s)
    (h : execSpdmMsg port tag s = .next t) : Within pr z t := by
  simp only [fp_execSpdmMsg, Print.join_cons, Print.join_nil, and_true] at hP
  obtain ⟨e0, e1, e2, e3, e4, e5, e6, e7⟩ := hP
  unfold execSpdmMsg done at h
  injection h with h
  subst h
  iterate 40 (try any_goals first | with_reducible assumption | exact Print.has_reg1 Names.any e0 | exact Print.has_reg e1 | with_reducible apply Print.has_ite | with_reducible refine Within.put _ ?_ ?_ | with_reducible refine Within.event _ ?_ ?_ | with_reducible refine foot_finish e2 ?_ | with_reducible refine foot_command e3 ?_ ?_ | with_reducible refine foot_drawn e4 ?_ | with_reducible refine foot_setSpdm e5 ?_ | with_reducible refine foot_putSpdmOut e6 ?_ | with_reducible refine foot_complete e7 ?_ | with_reducible refine Within.when ?_ ?_ | intro _ | (dsimp only))

def fp_endSpdm : Print := .join
  [.prt .sec]

theorem foot_endSpdm {pr : Print} {z s : State} (hP : fp_endSpdm.Sub pr) (hk : Within pr z s) :
    Within pr z (endSpdm s) := by
  simp only [fp_endSpdm, Print.join_cons, Print.join_nil, and_true] at hP
  have e0 := hP
  unfold endSpdm
  iterate 40 (try any_goals first | with_reducible assumption | exact Print.has_prt e0 | exact Or.inr (Print.has_prt (by assumption)) | with_reducible exact Or.inl rfl | with_reducible apply Within.upd)

def fp_setTherm : Print := .join
  [.prt .therm]

theorem foot_setTherm {pr : Print} {z s : State} {v : ThermH} (hP : fp_setTherm.Sub pr) (hk : Within pr z s) :
    Within pr z (setTherm v s) := by
  simp only [fp_setTherm, Print.join_cons, Print.join_nil, and_true] at hP
  have e0 := hP
  unfold setTherm
  iterate 40 (try any_goals first | with_reducible assumption | exact Print.has_prt e0 | exact Or.inr (Print.has_prt (by assumption)) | with_reducible exact Or.inl rfl | with_reducible apply Within.upd)

def fp_effConversionOpen : Print := .join
  [.prt .out,
   fp_setTherm]

theorem foot_effConversionOpen {pr : Print} {z s : State} (hP : fp_effConversionOpen.Sub pr) (hk : Within pr z s) :
    Within pr z (effConversionOpen s) := by
  simp only [fp_effConversionOpen, Print.join_cons, Print.join_nil, and_true] at hP
  obtain ⟨e0, e1⟩ := hP
  unfold effConversionOpen
  iterate 40 (try any_goals first | with_reducible assumption | exact Print.has_prt e0 | with_reducible refine Within.emit _ ?_ ?_ | with_reducible refine foot_setTherm e1 ?_ | exact Or.inr (Print.has_prt (by assumption)) | with_reducible exact Or.inl rfl | (dsimp only) | split | with_reducible apply Within.upd)

def fp_execConversionOpen : Print := .join
  [fp_finish,
   fp_effConversionOpen]

theorem foot_execConversionOpen {pr : Print} {z s t : State} (hP : fp_execConversionOpen.Sub pr) (hk : Within pr z s)
    (h : execConversionOpen s = .next t) : Within pr z t := by
  simp only [fp_execConversionOpen, Print.join_cons, Print.join_nil, and_true] at hP
  obtain ⟨e0, e1⟩ := hP
  unfold execConversionOpen done at h
  injection h with h
  subst h
  iterate 40 (try any_goals first | with_reducible assumption | with_reducible refine foot_finish e0 ?_ | with_reducible refine foot_effConversionOpen e1 ?_)

def fp_takeCounts : Print := .join
  [fp_setTherm]

theorem foot_takeCounts {pr : Print} {z s : State} {die : Nat} {counts : List Nat} (hP : fp_takeCounts.Sub pr) (hk : Within pr z s) :
    Within pr z (takeCounts die counts s) := by
  simp only [fp_takeCounts, Print.join_cons, Print.join_nil, and_true] at hP
  have e0 := hP
  unfold takeCounts
  iterate 40 (try any_goals first | with_reducible assumption | with_reducible refine foot_setTherm e0 ?_ | exact Or.inr (Print.has_prt (by assumption)) | with_reducible exact Or.inl rfl | with_reducible apply Within.upd)

def fp_effWindowClose (die : Option Nat) : Print := .join
  [.prt .out,
   fp_setTherm,
   fp_acceptFrame die,
   fp_takeCounts]

theorem foot_effWindowClose {pr : Print} {z s : State} {die : Nat} {frame : Frame} {counts : List Nat} {o_die : Option Nat} (n_die : Names o_die die) (hP : (fp_effWindowClose o_die).Sub pr) (hk : Within pr z s) :
    Within pr z (effWindowClose die frame counts s) := by
  simp only [fp_effWindowClose, Print.join_cons, Print.join_nil, and_true] at hP
  obtain ⟨e0, e1, e2, e3⟩ := hP
  unfold effWindowClose
  iterate 40 (try any_goals first | with_reducible assumption | exact Print.has_prt e0 | with_reducible refine Within.emit _ ?_ ?_ | with_reducible refine foot_setTherm e1 ?_ | with_reducible refine foot_acceptFrame n_die e2 ?_ ?_ | with_reducible refine foot_takeCounts e3 ?_ | with_reducible refine Within.when ?_ ?_ | exact Or.inr (Print.has_prt (by assumption)) | with_reducible exact Or.inl rfl | intro _ | (dsimp only) | split | with_reducible apply Within.upd)

def fp_execWindowClose (die : Option Nat) : Print := .join
  [fp_finish,
   fp_effWindowClose die]

theorem foot_execWindowClose {pr : Print} {z s t : State} {die : Nat} {frame : Frame} {counts : List Nat} {o_die : Option Nat} (n_die : Names o_die die) (hP : (fp_execWindowClose o_die).Sub pr) (hk : Within pr z s)
    (h : execWindowClose ⟨die, frame⟩ counts s = .next t) : Within pr z t := by
  simp only [fp_execWindowClose, Print.join_cons, Print.join_nil, and_true] at hP
  obtain ⟨e0, e1⟩ := hP
  unfold execWindowClose done at h
  injection h with h
  subst h
  iterate 40 (try any_goals first | with_reducible assumption | with_reducible refine foot_finish e0 ?_ | with_reducible refine foot_effWindowClose n_die e1 ?_)

def fp_excludeSensor (d : Option Nat) : Print := .join
  [.reg1 R.THM_SNS.EXCL none,
   .reg1 R.THM_SNS.CAUSE none,
   .reg R.THM_EVENT,
   .reg1 R.THM_DIE_CNT.EXCLUDES d,
   fp_setTherm,
   fp_countHealth (some 4),
   fp_recordDie]

theorem foot_excludeSensor {pr : Print} {z s : State} {d : Nat} {i : Nat} {cause : Nat} {o_d : Option Nat} (n_d : Names o_d d) (hP : (fp_excludeSensor o_d).Sub pr) (hk : Within pr z s) :
    Within pr z (excludeSensor d i cause s) := by
  simp only [fp_excludeSensor, Print.join_cons, Print.join_nil, and_true] at hP
  obtain ⟨e0, e1, e2, e3, e4, e5, e6⟩ := hP
  unfold excludeSensor
  iterate 40 (try any_goals first | with_reducible assumption | exact Print.has_reg1 Names.any e0 | exact Print.has_reg1 Names.any e1 | exact Print.has_reg e2 | exact Print.has_reg1 n_d e3 | with_reducible apply Print.has_ite | with_reducible refine Within.put _ ?_ ?_ | with_reducible refine Within.event _ ?_ ?_ | with_reducible refine Within.addSat _ ?_ ?_ | with_reducible refine foot_setTherm e4 ?_ | with_reducible refine foot_countHealth Names.one e5 ?_ | with_reducible refine foot_recordDie e6 ?_ | exact Or.inr (Print.has_prt (by assumption)) | with_reducible exact Or.inl rfl | (dsimp only) | with_reducible apply Within.upd)

def fp_leaveLost (d : Option Nat) : Print := .join
  [.reg1 R.THM_DIE_STAT.LOST d,
   fp_faultOff]

theorem foot_leaveLost {pr : Print} {z s : State} {d : Nat} {o_d : Option Nat} (n_d : Names o_d d) (hP : (fp_leaveLost o_d).Sub pr) (hk : Within pr z s) :
    Within pr z (leaveLost d s) := by
  simp only [fp_leaveLost, Print.join_cons, Print.join_nil, and_true] at hP
  obtain ⟨e0, e1⟩ := hP
  unfold leaveLost
  iterate 40 (try any_goals first | with_reducible assumption | exact Print.has_reg1 n_d e0 | with_reducible apply Print.has_ite | with_reducible refine Within.put _ ?_ ?_ | with_reducible refine foot_faultOff e1 ?_ | with_reducible refine Within.when ?_ ?_ | intro _ | (dsimp only) | split)

def fp_readmitSensor (d : Option Nat) : Print := .join
  [.reg1 R.THM_SNS.EXCL none,
   .reg1 R.THM_SNS.CAUSE none,
   .reg R.THM_EVENT,
   .reg1 R.THM_DIE_CNT.READMITS d,
   fp_setTherm,
   fp_recordDie,
   fp_leaveLost d]

theorem foot_readmitSensor {pr : Print} {z s : State} {d : Nat} {i : Nat} {o_d : Option Nat} (n_d : Names o_d d) (hP : (fp_readmitSensor o_d).Sub pr) (hk : Within pr z s) :
    Within pr z (readmitSensor d i s) := by
  simp only [fp_readmitSensor, Print.join_cons, Print.join_nil, and_true] at hP
  obtain ⟨e0, e1, e2, e3, e4, e5, e6⟩ := hP
  unfold readmitSensor
  iterate 40 (try any_goals first | with_reducible assumption | exact Print.has_reg1 Names.any e0 | exact Print.has_reg1 Names.any e1 | exact Print.has_reg e2 | exact Print.has_reg1 n_d e3 | with_reducible apply Print.has_ite | with_reducible refine Within.put _ ?_ ?_ | with_reducible refine Within.event _ ?_ ?_ | with_reducible refine Within.addSat _ ?_ ?_ | with_reducible refine foot_setTherm e4 ?_ | with_reducible refine foot_recordDie e5 ?_ | with_reducible refine foot_leaveLost n_d e6 ?_ | exact Or.inr (Print.has_prt (by assumption)) | with_reducible exact Or.inl rfl | (dsimp only) | with_reducible apply Within.upd)

def fp_crossCheck (d : Option Nat) : Print := .join
  [fp_setTherm,
   fp_excludeSensor d,
   fp_readmitSensor d]

theorem foot_crossCheck {pr : Print} {z s : State} {d : Nat} {c : Conv} {i : Nat} {o_d : Option Nat} (n_d : Names o_d d) (hP : (fp_crossCheck o_d).Sub pr) (hk : Within pr z s) :
    Within pr z (crossCheck d c i s) := by
  simp only [fp_crossCheck, Print.join_cons, Print.join_nil, and_true] at hP
  obtain ⟨e0, e1, e2⟩ := hP
  unfold crossCheck
  iterate 40 (try any_goals first | with_reducible assumption | with_reducible refine foot_setTherm e0 ?_ | with_reducible refine foot_excludeSensor n_d e1 ?_ | with_reducible refine foot_readmitSensor n_d e2 ?_ | exact Or.inr (Print.has_prt (by assumption)) | with_reducible exact Or.inl rfl | (dsimp only) | split | with_reducible apply Within.upd)

def fp_publishOne : Print := .join
  [.reg1 R.THM_SNS.T none]

theorem foot_publishOne {pr : Print} {z s : State} {d : Nat} {c : Conv} {i : Nat} {s0 : State} (hP : fp_publishOne.Sub pr) (hk : Within pr z s) :
    Within pr z (publishOne d c i s0 s) := by
  simp only [fp_publishOne, Print.join_cons, Print.join_nil, and_true] at hP
  have e0 := hP
  unfold publishOne
  iterate 40 (try any_goals first | with_reducible assumption | exact Print.has_reg1 Names.any e0 | with_reducible apply Print.has_ite | with_reducible refine Within.putI _ ?_ ?_ | intro _ | (dsimp only) | split)

def fp_publishDie (d : Option Nat) : Print := .join
  [.reg1 R.THM_DIE_T.HOT d,
   .reg1 R.THM_DIE_T.HOT_LAYER d,
   .reg1 R.THM_DIE_T2.MEAN d,
   .reg1 R.THM_DIE_T2.MEAN_LAYER d]

theorem foot_publishDie {pr : Print} {z s : State} {d : Nat} {o_d : Option Nat} (n_d : Names o_d d) (hP : (fp_publishDie o_d).Sub pr) (hk : Within pr z s) :
    Within pr z (publishDie d s) := by
  simp only [fp_publishDie, Print.join_cons, Print.join_nil, and_true] at hP
  obtain ⟨e0, e1, e2, e3⟩ := hP
  unfold publishDie
  iterate 40 (try any_goals first | with_reducible assumption | exact Print.has_reg1 n_d e0 | exact Print.has_reg1 n_d e1 | exact Print.has_reg1 n_d e2 | exact Print.has_reg1 n_d e3 | with_reducible apply Print.has_ite | with_reducible refine Within.putI _ ?_ ?_ | (dsimp only) | split)

def fp_judgeSensing (d : Option Nat) : Print := .join
  [.reg1 R.THM_DIE_STAT.DEGRADED d,
   .reg R.THM_EVENT,
   .reg1 R.THM_DIE_STAT.LOST d,
   fp_recordDie,
   fp_faultOn]

theorem foot_judgeSensing {pr : Print} {z s : State} {d : Nat} {o_d : Option Nat} (n_d : Names o_d d) (hP : (fp_judgeSensing o_d).Sub pr) (hk : Within pr z s) :
    Within pr z (judgeSensing d s) := by
  simp only [fp_judgeSensing, Print.join_cons, Print.join_nil, and_true] at hP
  obtain ⟨e0, e1, e2, e3, e4⟩ := hP
  unfold judgeSensing
  iterate 40 (try any_goals first | with_reducible assumption | exact Print.has_reg1 n_d e0 | exact Print.has_reg e1 | exact Print.has_reg1 n_d e2 | with_reducible apply Print.has_ite | with_reducible refine Within.put _ ?_ ?_ | with_reducible refine Within.putB _ ?_ ?_ | with_reducible refine Within.event _ ?_ ?_ | with_reducible refine foot_recordDie e3 ?_ | with_reducible refine foot_faultOn e4 ?_ | with_reducible refine Within.when ?_ ?_ | intro _ | (dsimp only) | split)

def fp_enterLevel : Print := .join
  [.reg R.THM_EVENT,
   fp_recordAt,
   fp_notifyAll]

theorem foot_enterLevel {pr : Print} {z s : State} {level : Nat} {subj : Nat} {part : Nat} {arg : Nat} (hP : fp_enterLevel.Sub pr) (hk : Within pr z s) :
    Within pr z (enterLevel level subj part arg s) := by
  simp only [fp_enterLevel, Print.join_cons, Print.join_nil, and_true] at hP
  obtain ⟨e0, e1, e2⟩ := hP
  unfold enterLevel
  iterate 40 (try any_goals first | with_reducible assumption | exact Print.has_reg e0 | with_reducible apply Print.has_ite | with_reducible refine Within.event _ ?_ ?_ | with_reducible refine foot_recordAt e1 ?_ | with_reducible refine foot_notifyAll e2 ?_ | with_reducible refine Within.each ?_ ?_ | intro _ | (dsimp only) | split)

def fp_judgeLevel (d : Option Nat) : Print := .join
  [.reg1 R.THM_DIE_STAT.LEVELS d,
   fp_enterLevel]

theorem foot_judgeLevel {pr : Print} {z s : State} {d : Nat} {m : Int} {r : Nat} {o_d : Option Nat} (n_d : Names o_d d) (hP : (fp_judgeLevel o_d).Sub pr) (hk : Within pr z s) :
    Within pr z (judgeLevel d m r s) := by
  simp only [fp_judgeLevel, Print.join_cons, Print.join_nil, and_true] at hP
  obtain ⟨e0, e1⟩ := hP
  unfold judgeLevel
  iterate 40 (try any_goals first | with_reducible assumption | exact Print.has_reg1 n_d e0 | with_reducible apply Print.has_ite | with_reducible refine Within.put _ ?_ ?_ | with_reducible refine foot_enterLevel e1 ?_ | with_reducible refine Within.when ?_ ?_ | intro _ | (dsimp only))

def fp_judgeStack (n : Option Nat) : Print := .join
  [.reg1 R.THM_STK.LEVEL n,
   fp_enterLevel]

theorem foot_judgeStack {pr : Print} {z s : State} {n : Nat} {o_n : Option Nat} (n_n : Names o_n n) (hP : (fp_judgeStack o_n).Sub pr) (hk : Within pr z s) :
    Within pr z (judgeStack n s) := by
  simp only [fp_judgeStack, Print.join_cons, Print.join_nil, and_true] at hP
  obtain ⟨e0, e1⟩ := hP
  unfold judgeStack
  iterate 40 (try any_goals first | with_reducible assumption | exact Print.has_reg1 n_n e0 | with_reducible apply Print.has_ite | with_reducible refine Within.put _ ?_ ?_ | with_reducible refine foot_enterLevel e1 ?_ | with_reducible refine Within.when ?_ ?_ | intro _ | (dsimp only) | split)

def fp_trip : Print := .join
  [.reg R.THM_TRIP.ACTIVE,
   .reg R.THM_TRIP.DIE,
   .reg R.THM_TRIP.REGION,
   .reg R.THM_TRIP.T,
   .reg R.THM_TRIP_TS.TIME,
   .reg R.THM_EVENT,
   .prt .boot,
   fp_setTherm,
   fp_faultOn,
   fp_recordDie,
   fp_scrubsTripped]

theorem foot_trip {pr : Print} {z s : State} {d : Nat} {r : Nat} {t : Int} (hP : fp_trip.Sub pr) (hk : Within pr z s) :
    Within pr z (trip d r t s) := by
  simp only [fp_trip, Print.join_cons, Print.join_nil, and_true] at hP
  obtain ⟨e0, e1, e2, e3, e4, e5, e6, hP⟩ := hP
  obtain ⟨e7, e8, e9, e10⟩ := hP
  unfold trip
  iterate 40 (try any_goals first | with_reducible assumption | exact Print.has_reg e0 | exact Print.has_reg e1 | exact Print.has_reg e2 | exact Print.has_reg e3 | exact Print.has_reg e4 | exact Print.has_reg e5 | exact Print.has_prt e6 | with_reducible apply Print.has_ite | with_reducible refine Within.put _ ?_ ?_ | with_reducible refine Within.putI _ ?_ ?_ | with_reducible refine Within.event _ ?_ ?_ | with_reducible refine foot_setTherm e7 ?_ | with_reducible refine foot_faultOn e8 ?_ | with_reducible refine foot_recordDie e9 ?_ | with_reducible refine foot_scrubsTripped e10 ?_ | exact Or.inr (Print.has_prt (by assumption)) | with_reducible exact Or.inl rfl | (dsimp only) | split | with_reducible apply Within.upd)

def fp_judgeTrip : Print := .join
  [fp_setTherm,
   fp_trip]

theorem foot_judgeTrip {pr : Print} {z s : State} {before : State} {d : Nat} {c : Conv} {m : Int} {i : Nat} (hP : fp_judgeTrip.Sub pr) (hk : Within pr z s) :
    Within pr z (judgeTrip before d c m i s) := by
  simp only [fp_judgeTrip, Print.join_cons, Print.join_nil, and_true] at hP
  obtain ⟨e0, e1⟩ := hP
  unfold judgeTrip
  iterate 40 (try any_goals first | with_reducible assumption | with_reducible refine foot_setTherm e0 ?_ | with_reducible refine foot_trip e1 ?_ | with_reducible refine Within.when ?_ ?_ | exact Or.inr (Print.has_prt (by assumption)) | with_reducible exact Or.inl rfl | intro _ | (dsimp only) | split | with_reducible apply Within.upd)

def fp_thermalLoop (d : Option Nat) : Print := .join
  [.reg1 R.THM_DIE_M.MARGIN d,
   .reg1 R.THM_DIE_STAT.LOOP d,
   .reg1 R.CAP_DIE_LTH.I d,
   fp_setTherm]

theorem foot_thermalLoop {pr : Print} {z s : State} {d : Nat} {mg : Int} {o_d : Option Nat} (n_d : Names o_d d) (hP : (fp_thermalLoop o_d).Sub pr) (hk : Within pr z s) :
    Within pr z (thermalLoop d mg s) := by
  simp only [fp_thermalLoop, Print.join_cons, Print.join_nil, and_true] at hP
  obtain ⟨e0, e1, e2, e3⟩ := hP
  unfold thermalLoop
  iterate 40 (try any_goals first | with_reducible assumption | exact Print.has_reg1 n_d e0 | exact Print.has_reg1 n_d e1 | exact Print.has_reg1 n_d e2 | with_reducible apply Print.has_ite | with_reducible refine Within.putI _ ?_ ?_ | with_reducible refine Within.putB _ ?_ ?_ | with_reducible refine foot_setTherm e3 ?_ | exact Or.inr (Print.has_prt (by assumption)) | with_reducible exact Or.inl rfl | (dsimp only) | split | with_reducible apply Within.upd)

def fp_convertDie (d : Option Nat) : Print := .join
  [.reg1 R.THM_DIE_STAT.STALE d,
   .reg1 R.THM_SNS_RAW.COUNT none,
   fp_crossCheck d,
   fp_publishOne,
   fp_publishDie d,
   fp_judgeSensing d,
   fp_judgeLevel d,
   fp_judgeTrip,
   fp_thermalLoop d]

theorem foot_convertDie {pr : Print} {z s : State} {edges : Nat} {twice : Bool} {d : Nat} {o_d : Option Nat} (n_d : Names o_d d) (hP : (fp_convertDie o_d).Sub pr) (hk : Within pr z s) :
    Within pr z (convertDie edges twice d s) := by
  simp only [fp_convertDie, Print.join_cons, Print.join_nil, and_true] at hP
  obtain ⟨e0, e1, e2, e3, e4, e5, e6, hP⟩ := hP
  obtain ⟨e7, e8⟩ := hP
  unfold convertDie
  iterate 40 (try any_goals first | with_reducible assumption | exact Print.has_reg1 n_d e0 | exact Print.has_reg1 Names.any e1 | with_reducible apply Print.has_ite | with_reducible refine Within.put _ ?_ ?_ | with_reducible refine foot_crossCheck n_d e2 ?_ | with_reducible refine foot_publishOne e3 ?_ | with_reducible refine foot_publishDie n_d e4 ?_ | with_reducible refine foot_judgeSensing n_d e5 ?_ | with_reducible refine foot_judgeLevel n_d e6 ?_ | with_reducible refine foot_judgeTrip e7 ?_ | with_reducible refine foot_thermalLoop n_d e8 ?_ | with_reducible refine Within.each ?_ ?_ | intro _ | (dsimp only) | split)

def fp_judgeWarm : Print := .join
  [.reg R.FIL_WARM_STAT.STATE,
   .reg R.FIL_EVENT,
   .reg R.FIL_WARM_STAT.ELAPSED_S,
   .prt .boot,
   fp_record,
   fp_setTherm]

theorem foot_judgeWarm {pr : Print} {z s : State} (hP : fp_judgeWarm.Sub pr) (hk : Within pr z s) :
    Within pr z (judgeWarm s) := by
  simp only [fp_judgeWarm, Print.join_cons, Print.join_nil, and_true] at hP
  obtain ⟨e0, e1, e2, e3, e4, e5⟩ := hP
  unfold judgeWarm
  iterate 40 (try any_goals first | with_reducible assumption | exact Print.has_reg e0 | exact Print.has_reg e1 | exact Print.has_reg e2 | exact Print.has_prt e3 | with_reducible apply Print.has_ite | with_reducible refine Within.put _ ?_ ?_ | with_reducible refine Within.event _ ?_ ?_ | with_reducible refine foot_record e4 ?_ | with_reducible refine foot_setTherm e5 ?_ | exact Or.inr (Print.has_prt (by assumption)) | with_reducible exact Or.inl rfl | (dsimp only) | split | with_reducible apply Within.upd)

def fp_effThermalConversion : Print := .join
  [.reg R.THM_EVENT,
   fp_setTherm,
   fp_convertDie none,
   fp_judgeStack none,
   fp_judgeWarm,
   fp_drawn]

theorem foot_effThermalConversion {pr : Print} {z s : State} {edges : Nat} (hP : fp_effThermalConversion.Sub pr) (hk : Within pr z s) :
    Within pr z (effThermalConversion edges s) := by
  simp only [fp_effThermalConversion, Print.join_cons, Print.join_nil, and_true] at hP
  obtain ⟨e0, e1, e2, e3, e4, e5⟩ := hP
  unfold effThermalConversion
  iterate 40 (try any_goals first | with_reducible assumption | exact Print.has_reg e0 | with_reducible apply Print.has_ite | with_reducible refine Within.event _ ?_ ?_ | with_reducible refine foot_setTherm e1 ?_ | with_reducible refine foot_convertDie Names.any e2 ?_ | with_reducible refine foot_judgeStack Names.any e3 ?_ | with_reducible refine foot_judgeWarm e4 ?_ | with_reducible refine foot_drawn e5 ?_ | with_reducible refine Within.each ?_ ?_ | exact Or.inr (Print.has_prt (by assumption)) | with_reducible exact Or.inl rfl | intro _ | (dsimp only) | split | with_reducible apply Within.upd)

def fp_execThermalConversion : Print := .join
  [fp_finish,
   fp_effThermalConversion]

theorem foot_execThermalConversion {pr : Print} {z s t : State} {opened : Nat} {closed : Nat} (hP : fp_execThermalConversion.Sub pr) (hk : Within pr z s)
    (h : execThermalConversion opened closed s = .next t) : Within pr z t := by
  simp only [fp_execThermalConversion, Print.join_cons, Print.join_nil, and_true] at hP
  obtain ⟨e0, e1⟩ := hP
  unfold execThermalConversion done at h
  injection h with h
  subst h
  iterate 40 (try any_goals first | with_reducible assumption | with_reducible refine foot_finish e0 ?_ | with_reducible refine foot_effThermalConversion e1 ?_)

def fp_takeStack (n : Option Nat) : Print := .join
  [.reg1 R.THM_STK.T n,
   .reg1 R.THM_STK.STALE n,
   .reg R.THM_STK_STALE.STACKS,
   fp_setTherm,
   fp_judgeStack n,
   fp_countHealth (some 5)]

theorem foot_takeStack {pr : Print} {z s : State} {n : Nat} {temp : Nat} {errors : Nat} {o_n : Option Nat} (n_n : Names o_n n) (hP : (fp_takeStack o_n).Sub pr) (hk : Within pr z s) :
    Within pr z (takeStack n temp errors s) := by
  simp only [fp_takeStack, Print.join_cons, Print.join_nil, and_true] at hP
  obtain ⟨e0, e1, e2, e3, e4, e5⟩ := hP
  unfold takeStack
  iterate 40 (try any_goals first | with_reducible assumption | exact Print.has_reg1 n_n e0 | exact Print.has_reg1 n_n e1 | exact Print.has_reg e2 | with_reducible apply Print.has_ite | with_reducible refine Within.put _ ?_ ?_ | with_reducible refine Within.unevent _ ?_ ?_ | with_reducible refine foot_setTherm e3 ?_ | with_reducible refine foot_judgeStack n_n e4 ?_ | with_reducible refine foot_countHealth Names.one e5 ?_ | with_reducible refine Within.when ?_ ?_ | exact Or.inr (Print.has_prt (by assumption)) | with_reducible exact Or.inl rfl | intro _ | (dsimp only) | with_reducible apply Within.upd)

def fp_effStackReport (n : Option Nat) : Print := .join
  [fp_acceptFrame none,
   fp_takeStack n]

theorem foot_effStackReport {pr : Print} {z s : State} {n : Nat} {frame : Frame} {temp : Nat} {errors : Nat} {o_n : Option Nat} (n_n : Names o_n n) (hP : (fp_effStackReport o_n).Sub pr) (hk : Within pr z s) :
    Within pr z (effStackReport n frame temp errors s) := by
  simp only [fp_effStackReport, Print.join_cons, Print.join_nil, and_true] at hP
  obtain ⟨e0, e1⟩ := hP
  unfold effStackReport
  iterate 40 (try any_goals first | with_reducible assumption | with_reducible refine foot_acceptFrame Names.any e0 ?_ ?_ | with_reducible refine foot_takeStack n_n e1 ?_ | intro _ | split)

def fp_execStackReport (stack : Option Nat) : Print := .join
  [fp_finish,
   fp_effStackReport stack]

theorem foot_execStackReport {pr : Print} {z s t : State} {stack : Nat} {frame : Frame} {report : StackState} {o_stack : Option Nat} (n_stack : Names o_stack stack) (hP : (fp_execStackReport o_stack).Sub pr) (hk : Within pr z s)
    (h : execStackReport stack frame report s = .next t) : Within pr z t := by
  simp only [fp_execStackReport, Print.join_cons, Print.join_nil, and_true] at hP
  obtain ⟨e0, e1⟩ := hP
  unfold execStackReport done at h
  injection h with h
  subst h
  iterate 40 (try any_goals first | with_reducible assumption | with_reducible refine foot_finish e0 ?_ | with_reducible refine foot_effStackReport n_stack e1 ?_)

def fp_effStackStale (n : Option Nat) : Print := .join
  [.reg1 R.THM_STK.STALE n,
   .reg R.THM_STK_STALE.STACKS,
   .reg R.THM_EVENT,
   fp_recordAt]

theorem foot_effStackStale {pr : Print} {z s : State} {n : Nat} {o_n : Option Nat} (n_n : Names o_n n) (hP : (fp_effStackStale o_n).Sub pr) (hk : Within pr z s) :
    Within pr z (effStackStale n s) := by
  simp only [fp_effStackStale, Print.join_cons, Print.join_nil, and_true] at hP
  obtain ⟨e0, e1, e2, e3⟩ := hP
  unfold effStackStale
  iterate 40 (try any_goals first | with_reducible assumption | exact Print.has_reg1 n_n e0 | exact Print.has_reg e1 | exact Print.has_reg e2 | with_reducible apply Print.has_ite | with_reducible refine Within.put _ ?_ ?_ | with_reducible refine Within.event _ ?_ ?_ | with_reducible refine foot_recordAt e3 ?_ | (dsimp only) | split)

def fp_execStackStale (stack : Option Nat) : Print := .join
  [fp_finish,
   fp_effStackStale stack]

theorem foot_execStackStale {pr : Print} {z s t : State} {stack : Nat} {o_stack : Option Nat} (n_stack : Names o_stack stack) (hP : (fp_execStackStale o_stack).Sub pr) (hk : Within pr z s)
    (h : execStackStale stack s = .next t) : Within pr z t := by
  simp only [fp_execStackStale, Print.join_cons, Print.join_nil, and_true] at hP
  obtain ⟨e0, e1⟩ := hP
  unfold execStackStale done at h
  injection h with h
  subst h
  iterate 40 (try any_goals first | with_reducible assumption | with_reducible refine foot_finish e0 ?_ | with_reducible refine foot_effStackStale n_stack e1 ?_)

def fp_execThermThreshSet : Print := .join
  [.reg R.THM_TH_DIE.WARN,
   .reg R.THM_TH_DIE.THR,
   .reg R.THM_TH_LAYER.WARN,
   .reg R.THM_TH_LAYER.THR,
   .reg R.THM_TH_STK.WARN,
   .reg R.THM_TH_STK.THR,
   fp_finish,
   fp_command,
   fp_bumpGen,
   fp_complete]

theorem foot_execThermThreshSet {pr : Print} {z s t : State} {port : Nat} {tag : Nat} (hP : fp_execThermThreshSet.Sub pr) (hk : Within pr z s)
    (h : execThermThreshSet port tag s = .next t) : Within pr z t := by
  simp only [fp_execThermThreshSet, Print.join_cons, Print.join_nil, and_true] at hP
  obtain ⟨e0, e1, e2, e3, e4, e5, e6, hP⟩ := hP
  obtain ⟨e7, e8, e9⟩ := hP
  unfold execThermThreshSet done at h
  injection h with h
  subst h
  iterate 40 (try any_goals first | with_reducible assumption | exact Print.has_reg e0 | exact Print.has_reg e1 | exact Print.has_reg e2 | exact Print.has_reg e3 | exact Print.has_reg e4 | exact Print.has_reg e5 | with_reducible apply Print.has_ite | with_reducible refine Within.put _ ?_ ?_ | with_reducible refine foot_finish e6 ?_ | with_reducible refine foot_command e7 ?_ ?_ | with_reducible refine foot_bumpGen e8 ?_ | with_reducible refine foot_complete e9 ?_ | intro _ | (dsimp only) | split)

def fp_execSensorExclude : Print := .join
  [fp_finish,
   fp_command,
   fp_excludeSensor none,
   fp_complete]

theorem foot_execSensorExclude {pr : Print} {z s t : State} {port : Nat} {tag : Nat} (hP : fp_execSensorExclude.Sub pr) (hk : Within pr z s)
    (h : execSensorExclude port tag s = .next t) : Within pr z t := by
  simp only [fp_execSensorExclude, Print.join_cons, Print.join_nil, and_true] at hP
  obtain ⟨e0, e1, e2, e3⟩ := hP
  unfold execSensorExclude done at h
  injection h with h
  subst h
  iterate 40 (try any_goals first | with_reducible assumption | with_reducible refine foot_finish e0 ?_ | with_reducible refine foot_command e1 ?_ ?_ | with_reducible refine foot_excludeSensor Names.any e2 ?_ | with_reducible refine foot_complete e3 ?_ | intro _ | (dsimp only))

def fp_execSensorReadmit : Print := .join
  [fp_finish,
   fp_command,
   fp_readmitSensor none,
   fp_complete]

theorem foot_execSensorReadmit {pr : Print} {z s t : State} {port : Nat} {tag : Nat} (hP : fp_execSensorReadmit.Sub pr) (hk : Within pr z s)
    (h : execSensorReadmit port tag s = .next t) : Within pr z t := by
  simp only [fp_execSensorReadmit, Print.join_cons, Print.join_nil, and_true] at hP
  obtain ⟨e0, e1, e2, e3⟩ := hP
  unfold execSensorReadmit done at h
  injection h with h
  subst h
  iterate 40 (try any_goals first | with_reducible assumption | with_reducible refine foot_finish e0 ?_ | with_reducible refine foot_command e1 ?_ ?_ | with_reducible refine foot_readmitSensor Names.any e2 ?_ | with_reducible refine foot_complete e3 ?_ | intro _ | (dsimp only))

def fp_execThermRelease : Print := .join
  [.reg R.THM_TRIP.ACTIVE,
   fp_finish,
   fp_command,
   fp_faultOff,
   fp_complete]

theorem foot_execThermRelease {pr : Print} {z s t : State} {port : Nat} {tag : Nat} (hP : fp_execThermRelease.Sub pr) (hk : Within pr z s)
    (h : execThermRelease port tag s = .next t) : Within pr z t := by
  simp only [fp_execThermRelease, Print.join_cons, Print.join_nil, and_true] at hP
  obtain ⟨e0, e1, e2, e3, e4⟩ := hP
  unfold execThermRelease done at h
  injection h with h
  subst h
  iterate 40 (try any_goals first | with_reducible assumption | exact Print.has_reg e0 | with_reducible apply Print.has_ite | with_reducible refine Within.put _ ?_ ?_ | with_reducible refine foot_finish e1 ?_ | with_reducible refine foot_command e2 ?_ ?_ | with_reducible refine foot_faultOff e3 ?_ | with_reducible refine foot_complete e4 ?_ | intro _ | (dsimp only))

end Sys2Proof.Machine
end

