-- ==== Sys2Proof/Laws/State.lean ====
section
/-! SUPPORT. Sys2Proof/Laws/State.lean: what each update leaves of the state, one lemma per part that it does not
change. -/

namespace Sys2Proof.Machine

@[simp] theorem put_pending (f : Field) (v : Nat) (s : State) : (put f v s).pending = s.pending := by unfold put; split <;> rfl
@[simp] theorem put_mem (f : Field) (v : Nat) (s : State) : (put f v s).mem = s.mem := by unfold put; split <;> rfl
@[simp] theorem put_free (f : Field) (v : Nat) (s : State) : (put f v s).free = s.free := by unfold put; split <;> rfl
@[simp] theorem put_out (f : Field) (v : Nat) (s : State) : (put f v s).out = s.out := by unfold put; split <;> rfl
@[simp] theorem put_resp (f : Field) (v : Nat) (s : State) : (put f v s).resp = s.resp := by unfold put; split <;> rfl
@[simp] theorem put_us (f : Field) (v : Nat) (s : State) : (put f v s).us = s.us := by unfold put; split <;> rfl
@[simp] theorem put_clk (f : Field) (v : Nat) (s : State) : (put f v s).clk = s.clk := by unfold put; split <;> rfl
@[simp] theorem put_links (f : Field) (v : Nat) (s : State) : (put f v s).links = s.links := by unfold put; split <;> rfl
@[simp] theorem put_lanes (f : Field) (v : Nat) (s : State) : (put f v s).lanes = s.lanes := by unfold put; split <;> rfl
@[simp] theorem put_pmb (f : Field) (v : Nat) (s : State) : (put f v s).pmb = s.pmb := by unfold put; split <;> rfl
@[simp] theorem put_phases (f : Field) (v : Nat) (s : State) : (put f v s).phases = s.phases := by unfold put; split <;> rfl
@[simp] theorem put_rails (f : Field) (v : Nat) (s : State) : (put f v s).rails = s.rails := by unfold put; split <;> rfl
@[simp] theorem put_test (f : Field) (v : Nat) (s : State) : (put f v s).test = s.test := by unfold put; split <;> rfl
@[simp] theorem put_self (f : Field) (v : Nat) (s : State) : (put f v s).self = s.self := by unfold put; split <;> rfl
@[simp] theorem put_itn (f : Field) (v : Nat) (s : State) : (put f v s).itn = s.itn := by unfold put; split <;> rfl
@[simp] theorem put_tok (f : Field) (v : Nat) (s : State) : (put f v s).tok = s.tok := by unfold put; split <;> rfl
@[simp] theorem put_capd (f : Field) (v : Nat) (s : State) : (put f v s).capd = s.capd := by unfold put; split <;> rfl
@[simp] theorem put_capp (f : Field) (v : Nat) (s : State) : (put f v s).capp = s.capp := by unfold put; split <;> rfl
@[simp] theorem put_estd (f : Field) (v : Nat) (s : State) : (put f v s).estd = s.estd := by unfold put; split <;> rfl
@[simp] theorem put_estp (f : Field) (v : Nat) (s : State) : (put f v s).estp = s.estp := by unfold put; split <;> rfl
@[simp] theorem put_therm (f : Field) (v : Nat) (s : State) : (put f v s).therm = s.therm := by unfold put; split <;> rfl
@[simp] theorem put_ring (f : Field) (v : Nat) (s : State) : (put f v s).ring = s.ring := by unfold put; split <;> rfl
@[simp] theorem put_recov (f : Field) (v : Nat) (s : State) : (put f v s).recov = s.recov := by unfold put; split <;> rfl
@[simp] theorem put_sec (f : Field) (v : Nat) (s : State) : (put f v s).sec = s.sec := by unfold put; split <;> rfl
@[simp] theorem put_host (f : Field) (v : Nat) (s : State) : (put f v s).host = s.host := by unfold put; split <;> rfl
@[simp] theorem put_i3c (f : Field) (v : Nat) (s : State) : (put f v s).i3c = s.i3c := by unfold put; split <;> rfl
@[simp] theorem put_log (f : Field) (v : Nat) (s : State) : (put f v s).log = s.log := by unfold put; split <;> rfl
@[simp] theorem put_boot (f : Field) (v : Nat) (s : State) : (put f v s).boot = s.boot := by unfold put; split <;> rfl
@[simp] theorem put_pins (f : Field) (v : Nat) (s : State) : (put f v s).pins = s.pins := by unfold put; split <;> rfl

@[simp] theorem blow_pending (f : Field) (v : Nat) (s : State) : (blow f v s).pending = s.pending := rfl
@[simp] theorem blow_mem (f : Field) (v : Nat) (s : State) : (blow f v s).mem = s.mem := rfl
@[simp] theorem blow_free (f : Field) (v : Nat) (s : State) : (blow f v s).free = s.free := rfl
@[simp] theorem blow_out (f : Field) (v : Nat) (s : State) : (blow f v s).out = s.out := rfl
@[simp] theorem blow_resp (f : Field) (v : Nat) (s : State) : (blow f v s).resp = s.resp := rfl
@[simp] theorem blow_us (f : Field) (v : Nat) (s : State) : (blow f v s).us = s.us := rfl
@[simp] theorem blow_clk (f : Field) (v : Nat) (s : State) : (blow f v s).clk = s.clk := rfl
@[simp] theorem blow_links (f : Field) (v : Nat) (s : State) : (blow f v s).links = s.links := rfl
@[simp] theorem blow_lanes (f : Field) (v : Nat) (s : State) : (blow f v s).lanes = s.lanes := rfl
@[simp] theorem blow_pmb (f : Field) (v : Nat) (s : State) : (blow f v s).pmb = s.pmb := rfl
@[simp] theorem blow_phases (f : Field) (v : Nat) (s : State) : (blow f v s).phases = s.phases := rfl
@[simp] theorem blow_rails (f : Field) (v : Nat) (s : State) : (blow f v s).rails = s.rails := rfl
@[simp] theorem blow_test (f : Field) (v : Nat) (s : State) : (blow f v s).test = s.test := rfl
@[simp] theorem blow_self (f : Field) (v : Nat) (s : State) : (blow f v s).self = s.self := rfl
@[simp] theorem blow_itn (f : Field) (v : Nat) (s : State) : (blow f v s).itn = s.itn := rfl
@[simp] theorem blow_tok (f : Field) (v : Nat) (s : State) : (blow f v s).tok = s.tok := rfl
@[simp] theorem blow_capd (f : Field) (v : Nat) (s : State) : (blow f v s).capd = s.capd := rfl
@[simp] theorem blow_capp (f : Field) (v : Nat) (s : State) : (blow f v s).capp = s.capp := rfl
@[simp] theorem blow_estd (f : Field) (v : Nat) (s : State) : (blow f v s).estd = s.estd := rfl
@[simp] theorem blow_estp (f : Field) (v : Nat) (s : State) : (blow f v s).estp = s.estp := rfl
@[simp] theorem blow_therm (f : Field) (v : Nat) (s : State) : (blow f v s).therm = s.therm := rfl
@[simp] theorem blow_ring (f : Field) (v : Nat) (s : State) : (blow f v s).ring = s.ring := rfl
@[simp] theorem blow_recov (f : Field) (v : Nat) (s : State) : (blow f v s).recov = s.recov := rfl
@[simp] theorem blow_sec (f : Field) (v : Nat) (s : State) : (blow f v s).sec = s.sec := rfl
@[simp] theorem blow_host (f : Field) (v : Nat) (s : State) : (blow f v s).host = s.host := rfl
@[simp] theorem blow_i3c (f : Field) (v : Nat) (s : State) : (blow f v s).i3c = s.i3c := rfl
@[simp] theorem blow_log (f : Field) (v : Nat) (s : State) : (blow f v s).log = s.log := rfl
@[simp] theorem blow_boot (f : Field) (v : Nat) (s : State) : (blow f v s).boot = s.boot := rfl
@[simp] theorem blow_pins (f : Field) (v : Nat) (s : State) : (blow f v s).pins = s.pins := rfl

@[simp] theorem writeByte_pending (a v : Nat) (s : State) : (writeByte a v s).pending = s.pending := rfl
@[simp] theorem writeByte_regs (a v : Nat) (s : State) : (writeByte a v s).regs = s.regs := rfl
@[simp] theorem writeByte_free (a v : Nat) (s : State) : (writeByte a v s).free = s.free := rfl
@[simp] theorem writeByte_out (a v : Nat) (s : State) : (writeByte a v s).out = s.out := rfl
@[simp] theorem writeByte_resp (a v : Nat) (s : State) : (writeByte a v s).resp = s.resp := rfl
@[simp] theorem writeByte_us (a v : Nat) (s : State) : (writeByte a v s).us = s.us := rfl
@[simp] theorem writeByte_clk (a v : Nat) (s : State) : (writeByte a v s).clk = s.clk := rfl
@[simp] theorem writeByte_links (a v : Nat) (s : State) : (writeByte a v s).links = s.links := rfl
@[simp] theorem writeByte_lanes (a v : Nat) (s : State) : (writeByte a v s).lanes = s.lanes := rfl
@[simp] theorem writeByte_pmb (a v : Nat) (s : State) : (writeByte a v s).pmb = s.pmb := rfl
@[simp] theorem writeByte_phases (a v : Nat) (s : State) : (writeByte a v s).phases = s.phases := rfl
@[simp] theorem writeByte_rails (a v : Nat) (s : State) : (writeByte a v s).rails = s.rails := rfl
@[simp] theorem writeByte_test (a v : Nat) (s : State) : (writeByte a v s).test = s.test := rfl
@[simp] theorem writeByte_self (a v : Nat) (s : State) : (writeByte a v s).self = s.self := rfl
@[simp] theorem writeByte_itn (a v : Nat) (s : State) : (writeByte a v s).itn = s.itn := rfl
@[simp] theorem writeByte_tok (a v : Nat) (s : State) : (writeByte a v s).tok = s.tok := rfl
@[simp] theorem writeByte_capd (a v : Nat) (s : State) : (writeByte a v s).capd = s.capd := rfl
@[simp] theorem writeByte_capp (a v : Nat) (s : State) : (writeByte a v s).capp = s.capp := rfl
@[simp] theorem writeByte_estd (a v : Nat) (s : State) : (writeByte a v s).estd = s.estd := rfl
@[simp] theorem writeByte_estp (a v : Nat) (s : State) : (writeByte a v s).estp = s.estp := rfl
@[simp] theorem writeByte_therm (a v : Nat) (s : State) : (writeByte a v s).therm = s.therm := rfl
@[simp] theorem writeByte_ring (a v : Nat) (s : State) : (writeByte a v s).ring = s.ring := rfl
@[simp] theorem writeByte_recov (a v : Nat) (s : State) : (writeByte a v s).recov = s.recov := rfl
@[simp] theorem writeByte_sec (a v : Nat) (s : State) : (writeByte a v s).sec = s.sec := rfl
@[simp] theorem writeByte_host (a v : Nat) (s : State) : (writeByte a v s).host = s.host := rfl
@[simp] theorem writeByte_i3c (a v : Nat) (s : State) : (writeByte a v s).i3c = s.i3c := rfl
@[simp] theorem writeByte_log (a v : Nat) (s : State) : (writeByte a v s).log = s.log := rfl
@[simp] theorem writeByte_boot (a v : Nat) (s : State) : (writeByte a v s).boot = s.boot := rfl
@[simp] theorem writeByte_pins (a v : Nat) (s : State) : (writeByte a v s).pins = s.pins := rfl

@[simp] theorem wipe_pending (lo hi : Nat) (s : State) : (wipe lo hi s).pending = s.pending := rfl
@[simp] theorem wipe_regs (lo hi : Nat) (s : State) : (wipe lo hi s).regs = s.regs := rfl
@[simp] theorem wipe_free (lo hi : Nat) (s : State) : (wipe lo hi s).free = s.free := rfl
@[simp] theorem wipe_out (lo hi : Nat) (s : State) : (wipe lo hi s).out = s.out := rfl
@[simp] theorem wipe_resp (lo hi : Nat) (s : State) : (wipe lo hi s).resp = s.resp := rfl
@[simp] theorem wipe_us (lo hi : Nat) (s : State) : (wipe lo hi s).us = s.us := rfl
@[simp] theorem wipe_clk (lo hi : Nat) (s : State) : (wipe lo hi s).clk = s.clk := rfl
@[simp] theorem wipe_links (lo hi : Nat) (s : State) : (wipe lo hi s).links = s.links := rfl
@[simp] theorem wipe_lanes (lo hi : Nat) (s : State) : (wipe lo hi s).lanes = s.lanes := rfl
@[simp] theorem wipe_pmb (lo hi : Nat) (s : State) : (wipe lo hi s).pmb = s.pmb := rfl
@[simp] theorem wipe_phases (lo hi : Nat) (s : State) : (wipe lo hi s).phases = s.phases := rfl
@[simp] theorem wipe_rails (lo hi : Nat) (s : State) : (wipe lo hi s).rails = s.rails := rfl
@[simp] theorem wipe_test (lo hi : Nat) (s : State) : (wipe lo hi s).test = s.test := rfl
@[simp] theorem wipe_self (lo hi : Nat) (s : State) : (wipe lo hi s).self = s.self := rfl
@[simp] theorem wipe_itn (lo hi : Nat) (s : State) : (wipe lo hi s).itn = s.itn := rfl
@[simp] theorem wipe_tok (lo hi : Nat) (s : State) : (wipe lo hi s).tok = s.tok := rfl
@[simp] theorem wipe_capd (lo hi : Nat) (s : State) : (wipe lo hi s).capd = s.capd := rfl
@[simp] theorem wipe_capp (lo hi : Nat) (s : State) : (wipe lo hi s).capp = s.capp := rfl
@[simp] theorem wipe_estd (lo hi : Nat) (s : State) : (wipe lo hi s).estd = s.estd := rfl
@[simp] theorem wipe_estp (lo hi : Nat) (s : State) : (wipe lo hi s).estp = s.estp := rfl
@[simp] theorem wipe_therm (lo hi : Nat) (s : State) : (wipe lo hi s).therm = s.therm := rfl
@[simp] theorem wipe_ring (lo hi : Nat) (s : State) : (wipe lo hi s).ring = s.ring := rfl
@[simp] theorem wipe_recov (lo hi : Nat) (s : State) : (wipe lo hi s).recov = s.recov := rfl
@[simp] theorem wipe_sec (lo hi : Nat) (s : State) : (wipe lo hi s).sec = s.sec := rfl
@[simp] theorem wipe_host (lo hi : Nat) (s : State) : (wipe lo hi s).host = s.host := rfl
@[simp] theorem wipe_i3c (lo hi : Nat) (s : State) : (wipe lo hi s).i3c = s.i3c := rfl
@[simp] theorem wipe_log (lo hi : Nat) (s : State) : (wipe lo hi s).log = s.log := rfl
@[simp] theorem wipe_boot (lo hi : Nat) (s : State) : (wipe lo hi s).boot = s.boot := rfl
@[simp] theorem wipe_pins (lo hi : Nat) (s : State) : (wipe lo hi s).pins = s.pins := rfl

@[simp] theorem clearClass_pending (c : Ret) (s : State) : (clearClass c s).pending = s.pending := rfl
@[simp] theorem clearClass_mem (c : Ret) (s : State) : (clearClass c s).mem = s.mem := rfl
@[simp] theorem clearClass_free (c : Ret) (s : State) : (clearClass c s).free = s.free := rfl
@[simp] theorem clearClass_out (c : Ret) (s : State) : (clearClass c s).out = s.out := rfl
@[simp] theorem clearClass_resp (c : Ret) (s : State) : (clearClass c s).resp = s.resp := rfl
@[simp] theorem clearClass_us (c : Ret) (s : State) : (clearClass c s).us = s.us := rfl
@[simp] theorem clearClass_clk (c : Ret) (s : State) : (clearClass c s).clk = s.clk := rfl
@[simp] theorem clearClass_links (c : Ret) (s : State) : (clearClass c s).links = s.links := rfl
@[simp] theorem clearClass_lanes (c : Ret) (s : State) : (clearClass c s).lanes = s.lanes := rfl
@[simp] theorem clearClass_pmb (c : Ret) (s : State) : (clearClass c s).pmb = s.pmb := rfl
@[simp] theorem clearClass_phases (c : Ret) (s : State) : (clearClass c s).phases = s.phases := rfl
@[simp] theorem clearClass_rails (c : Ret) (s : State) : (clearClass c s).rails = s.rails := rfl
@[simp] theorem clearClass_test (c : Ret) (s : State) : (clearClass c s).test = s.test := rfl
@[simp] theorem clearClass_self (c : Ret) (s : State) : (clearClass c s).self = s.self := rfl
@[simp] theorem clearClass_itn (c : Ret) (s : State) : (clearClass c s).itn = s.itn := rfl
@[simp] theorem clearClass_tok (c : Ret) (s : State) : (clearClass c s).tok = s.tok := rfl
@[simp] theorem clearClass_capd (c : Ret) (s : State) : (clearClass c s).capd = s.capd := rfl
@[simp] theorem clearClass_capp (c : Ret) (s : State) : (clearClass c s).capp = s.capp := rfl
@[simp] theorem clearClass_estd (c : Ret) (s : State) : (clearClass c s).estd = s.estd := rfl
@[simp] theorem clearClass_estp (c : Ret) (s : State) : (clearClass c s).estp = s.estp := rfl
@[simp] theorem clearClass_therm (c : Ret) (s : State) : (clearClass c s).therm = s.therm := rfl
@[simp] theorem clearClass_ring (c : Ret) (s : State) : (clearClass c s).ring = s.ring := rfl
@[simp] theorem clearClass_recov (c : Ret) (s : State) : (clearClass c s).recov = s.recov := rfl
@[simp] theorem clearClass_sec (c : Ret) (s : State) : (clearClass c s).sec = s.sec := rfl
@[simp] theorem clearClass_host (c : Ret) (s : State) : (clearClass c s).host = s.host := rfl
@[simp] theorem clearClass_i3c (c : Ret) (s : State) : (clearClass c s).i3c = s.i3c := rfl
@[simp] theorem clearClass_log (c : Ret) (s : State) : (clearClass c s).log = s.log := rfl
@[simp] theorem clearClass_boot (c : Ret) (s : State) : (clearClass c s).boot = s.boot := rfl
@[simp] theorem clearClass_pins (c : Ret) (s : State) : (clearClass c s).pins = s.pins := rfl

@[simp] theorem clearDieRegs_pending (d : Nat) (s : State) : (clearDieRegs d s).pending = s.pending := rfl
@[simp] theorem clearDieRegs_mem (d : Nat) (s : State) : (clearDieRegs d s).mem = s.mem := rfl
@[simp] theorem clearDieRegs_free (d : Nat) (s : State) : (clearDieRegs d s).free = s.free := rfl
@[simp] theorem clearDieRegs_out (d : Nat) (s : State) : (clearDieRegs d s).out = s.out := rfl
@[simp] theorem clearDieRegs_resp (d : Nat) (s : State) : (clearDieRegs d s).resp = s.resp := rfl
@[simp] theorem clearDieRegs_us (d : Nat) (s : State) : (clearDieRegs d s).us = s.us := rfl
@[simp] theorem clearDieRegs_clk (d : Nat) (s : State) : (clearDieRegs d s).clk = s.clk := rfl
@[simp] theorem clearDieRegs_links (d : Nat) (s : State) : (clearDieRegs d s).links = s.links := rfl
@[simp] theorem clearDieRegs_lanes (d : Nat) (s : State) : (clearDieRegs d s).lanes = s.lanes := rfl
@[simp] theorem clearDieRegs_pmb (d : Nat) (s : State) : (clearDieRegs d s).pmb = s.pmb := rfl
@[simp] theorem clearDieRegs_phases (d : Nat) (s : State) : (clearDieRegs d s).phases = s.phases := rfl
@[simp] theorem clearDieRegs_rails (d : Nat) (s : State) : (clearDieRegs d s).rails = s.rails := rfl
@[simp] theorem clearDieRegs_test (d : Nat) (s : State) : (clearDieRegs d s).test = s.test := rfl
@[simp] theorem clearDieRegs_self (d : Nat) (s : State) : (clearDieRegs d s).self = s.self := rfl
@[simp] theorem clearDieRegs_itn (d : Nat) (s : State) : (clearDieRegs d s).itn = s.itn := rfl
@[simp] theorem clearDieRegs_tok (d : Nat) (s : State) : (clearDieRegs d s).tok = s.tok := rfl
@[simp] theorem clearDieRegs_capd (d : Nat) (s : State) : (clearDieRegs d s).capd = s.capd := rfl
@[simp] theorem clearDieRegs_capp (d : Nat) (s : State) : (clearDieRegs d s).capp = s.capp := rfl
@[simp] theorem clearDieRegs_estd (d : Nat) (s : State) : (clearDieRegs d s).estd = s.estd := rfl
@[simp] theorem clearDieRegs_estp (d : Nat) (s : State) : (clearDieRegs d s).estp = s.estp := rfl
@[simp] theorem clearDieRegs_therm (d : Nat) (s : State) : (clearDieRegs d s).therm = s.therm := rfl
@[simp] theorem clearDieRegs_ring (d : Nat) (s : State) : (clearDieRegs d s).ring = s.ring := rfl
@[simp] theorem clearDieRegs_recov (d : Nat) (s : State) : (clearDieRegs d s).recov = s.recov := rfl
@[simp] theorem clearDieRegs_sec (d : Nat) (s : State) : (clearDieRegs d s).sec = s.sec := rfl
@[simp] theorem clearDieRegs_host (d : Nat) (s : State) : (clearDieRegs d s).host = s.host := rfl
@[simp] theorem clearDieRegs_i3c (d : Nat) (s : State) : (clearDieRegs d s).i3c = s.i3c := rfl
@[simp] theorem clearDieRegs_log (d : Nat) (s : State) : (clearDieRegs d s).log = s.log := rfl
@[simp] theorem clearDieRegs_boot (d : Nat) (s : State) : (clearDieRegs d s).boot = s.boot := rfl
@[simp] theorem clearDieRegs_pins (d : Nat) (s : State) : (clearDieRegs d s).pins = s.pins := rfl

@[simp] theorem drawn_pending (s : State) : (drawn s).pending = s.pending := rfl
@[simp] theorem drawn_regs (s : State) : (drawn s).regs = s.regs := rfl
@[simp] theorem drawn_mem (s : State) : (drawn s).mem = s.mem := rfl
@[simp] theorem drawn_out (s : State) : (drawn s).out = s.out := rfl
@[simp] theorem drawn_resp (s : State) : (drawn s).resp = s.resp := rfl
@[simp] theorem drawn_us (s : State) : (drawn s).us = s.us := rfl
@[simp] theorem drawn_clk (s : State) : (drawn s).clk = s.clk := rfl
@[simp] theorem drawn_links (s : State) : (drawn s).links = s.links := rfl
@[simp] theorem drawn_lanes (s : State) : (drawn s).lanes = s.lanes := rfl
@[simp] theorem drawn_pmb (s : State) : (drawn s).pmb = s.pmb := rfl
@[simp] theorem drawn_phases (s : State) : (drawn s).phases = s.phases := rfl
@[simp] theorem drawn_rails (s : State) : (drawn s).rails = s.rails := rfl
@[simp] theorem drawn_test (s : State) : (drawn s).test = s.test := rfl
@[simp] theorem drawn_self (s : State) : (drawn s).self = s.self := rfl
@[simp] theorem drawn_itn (s : State) : (drawn s).itn = s.itn := rfl
@[simp] theorem drawn_tok (s : State) : (drawn s).tok = s.tok := rfl
@[simp] theorem drawn_capd (s : State) : (drawn s).capd = s.capd := rfl
@[simp] theorem drawn_capp (s : State) : (drawn s).capp = s.capp := rfl
@[simp] theorem drawn_estd (s : State) : (drawn s).estd = s.estd := rfl
@[simp] theorem drawn_estp (s : State) : (drawn s).estp = s.estp := rfl
@[simp] theorem drawn_therm (s : State) : (drawn s).therm = s.therm := rfl
@[simp] theorem drawn_ring (s : State) : (drawn s).ring = s.ring := rfl
@[simp] theorem drawn_recov (s : State) : (drawn s).recov = s.recov := rfl
@[simp] theorem drawn_sec (s : State) : (drawn s).sec = s.sec := rfl
@[simp] theorem drawn_host (s : State) : (drawn s).host = s.host := rfl
@[simp] theorem drawn_i3c (s : State) : (drawn s).i3c = s.i3c := rfl
@[simp] theorem drawn_log (s : State) : (drawn s).log = s.log := rfl
@[simp] theorem drawn_boot (s : State) : (drawn s).boot = s.boot := rfl
@[simp] theorem drawn_pins (s : State) : (drawn s).pins = s.pins := rfl

@[simp] theorem emit_pending (o : Out) (s : State) : (emit o s).pending = s.pending := rfl
@[simp] theorem emit_regs (o : Out) (s : State) : (emit o s).regs = s.regs := rfl
@[simp] theorem emit_mem (o : Out) (s : State) : (emit o s).mem = s.mem := rfl
@[simp] theorem emit_free (o : Out) (s : State) : (emit o s).free = s.free := rfl
@[simp] theorem emit_resp (o : Out) (s : State) : (emit o s).resp = s.resp := rfl
@[simp] theorem emit_us (o : Out) (s : State) : (emit o s).us = s.us := rfl
@[simp] theorem emit_clk (o : Out) (s : State) : (emit o s).clk = s.clk := rfl
@[simp] theorem emit_links (o : Out) (s : State) : (emit o s).links = s.links := rfl
@[simp] theorem emit_lanes (o : Out) (s : State) : (emit o s).lanes = s.lanes := rfl
@[simp] theorem emit_pmb (o : Out) (s : State) : (emit o s).pmb = s.pmb := rfl
@[simp] theorem emit_phases (o : Out) (s : State) : (emit o s).phases = s.phases := rfl
@[simp] theorem emit_rails (o : Out) (s : State) : (emit o s).rails = s.rails := rfl
@[simp] theorem emit_test (o : Out) (s : State) : (emit o s).test = s.test := rfl
@[simp] theorem emit_self (o : Out) (s : State) : (emit o s).self = s.self := rfl
@[simp] theorem emit_itn (o : Out) (s : State) : (emit o s).itn = s.itn := rfl
@[simp] theorem emit_tok (o : Out) (s : State) : (emit o s).tok = s.tok := rfl
@[simp] theorem emit_capd (o : Out) (s : State) : (emit o s).capd = s.capd := rfl
@[simp] theorem emit_capp (o : Out) (s : State) : (emit o s).capp = s.capp := rfl
@[simp] theorem emit_estd (o : Out) (s : State) : (emit o s).estd = s.estd := rfl
@[simp] theorem emit_estp (o : Out) (s : State) : (emit o s).estp = s.estp := rfl
@[simp] theorem emit_therm (o : Out) (s : State) : (emit o s).therm = s.therm := rfl
@[simp] theorem emit_ring (o : Out) (s : State) : (emit o s).ring = s.ring := rfl
@[simp] theorem emit_recov (o : Out) (s : State) : (emit o s).recov = s.recov := rfl
@[simp] theorem emit_sec (o : Out) (s : State) : (emit o s).sec = s.sec := rfl
@[simp] theorem emit_host (o : Out) (s : State) : (emit o s).host = s.host := rfl
@[simp] theorem emit_i3c (o : Out) (s : State) : (emit o s).i3c = s.i3c := rfl
@[simp] theorem emit_log (o : Out) (s : State) : (emit o s).log = s.log := rfl
@[simp] theorem emit_boot (o : Out) (s : State) : (emit o s).boot = s.boot := rfl
@[simp] theorem emit_pins (o : Out) (s : State) : (emit o s).pins = s.pins := rfl

@[simp] theorem setLink_pending (d : Nat) (v : LinkD) (s : State) : (setLink d v s).pending = s.pending := rfl
@[simp] theorem setLink_regs (d : Nat) (v : LinkD) (s : State) : (setLink d v s).regs = s.regs := rfl
@[simp] theorem setLink_mem (d : Nat) (v : LinkD) (s : State) : (setLink d v s).mem = s.mem := rfl
@[simp] theorem setLink_free (d : Nat) (v : LinkD) (s : State) : (setLink d v s).free = s.free := rfl
@[simp] theorem setLink_out (d : Nat) (v : LinkD) (s : State) : (setLink d v s).out = s.out := rfl
@[simp] theorem setLink_resp (d : Nat) (v : LinkD) (s : State) : (setLink d v s).resp = s.resp := rfl
@[simp] theorem setLink_us (d : Nat) (v : LinkD) (s : State) : (setLink d v s).us = s.us := rfl
@[simp] theorem setLink_clk (d : Nat) (v : LinkD) (s : State) : (setLink d v s).clk = s.clk := rfl
@[simp] theorem setLink_lanes (d : Nat) (v : LinkD) (s : State) : (setLink d v s).lanes = s.lanes := rfl
@[simp] theorem setLink_pmb (d : Nat) (v : LinkD) (s : State) : (setLink d v s).pmb = s.pmb := rfl
@[simp] theorem setLink_phases (d : Nat) (v : LinkD) (s : State) : (setLink d v s).phases = s.phases := rfl
@[simp] theorem setLink_rails (d : Nat) (v : LinkD) (s : State) : (setLink d v s).rails = s.rails := rfl
@[simp] theorem setLink_test (d : Nat) (v : LinkD) (s : State) : (setLink d v s).test = s.test := rfl
@[simp] theorem setLink_self (d : Nat) (v : LinkD) (s : State) : (setLink d v s).self = s.self := rfl
@[simp] theorem setLink_itn (d : Nat) (v : LinkD) (s : State) : (setLink d v s).itn = s.itn := rfl
@[simp] theorem setLink_tok (d : Nat) (v : LinkD) (s : State) : (setLink d v s).tok = s.tok := rfl
@[simp] theorem setLink_capd (d : Nat) (v : LinkD) (s : State) : (setLink d v s).capd = s.capd := rfl
@[simp] theorem setLink_capp (d : Nat) (v : LinkD) (s : State) : (setLink d v s).capp = s.capp := rfl
@[simp] theorem setLink_estd (d : Nat) (v : LinkD) (s : State) : (setLink d v s).estd = s.estd := rfl
@[simp] theorem setLink_estp (d : Nat) (v : LinkD) (s : State) : (setLink d v s).estp = s.estp := rfl
@[simp] theorem setLink_therm (d : Nat) (v : LinkD) (s : State) : (setLink d v s).therm = s.therm := rfl
@[simp] theorem setLink_ring (d : Nat) (v : LinkD) (s : State) : (setLink d v s).ring = s.ring := rfl
@[simp] theorem setLink_recov (d : Nat) (v : LinkD) (s : State) : (setLink d v s).recov = s.recov := rfl
@[simp] theorem setLink_sec (d : Nat) (v : LinkD) (s : State) : (setLink d v s).sec = s.sec := rfl
@[simp] theorem setLink_host (d : Nat) (v : LinkD) (s : State) : (setLink d v s).host = s.host := rfl
@[simp] theorem setLink_i3c (d : Nat) (v : LinkD) (s : State) : (setLink d v s).i3c = s.i3c := rfl
@[simp] theorem setLink_log (d : Nat) (v : LinkD) (s : State) : (setLink d v s).log = s.log := rfl
@[simp] theorem setLink_boot (d : Nat) (v : LinkD) (s : State) : (setLink d v s).boot = s.boot := rfl
@[simp] theorem setLink_pins (d : Nat) (v : LinkD) (s : State) : (setLink d v s).pins = s.pins := rfl

@[simp] theorem setLane_pending (d : Nat) (v : LaneH) (s : State) : (setLane d v s).pending = s.pending := rfl
@[simp] theorem setLane_regs (d : Nat) (v : LaneH) (s : State) : (setLane d v s).regs = s.regs := rfl
@[simp] theorem setLane_mem (d : Nat) (v : LaneH) (s : State) : (setLane d v s).mem = s.mem := rfl
@[simp] theorem setLane_free (d : Nat) (v : LaneH) (s : State) : (setLane d v s).free = s.free := rfl
@[simp] theorem setLane_out (d : Nat) (v : LaneH) (s : State) : (setLane d v s).out = s.out := rfl
@[simp] theorem setLane_resp (d : Nat) (v : LaneH) (s : State) : (setLane d v s).resp = s.resp := rfl
@[simp] theorem setLane_us (d : Nat) (v : LaneH) (s : State) : (setLane d v s).us = s.us := rfl
@[simp] theorem setLane_clk (d : Nat) (v : LaneH) (s : State) : (setLane d v s).clk = s.clk := rfl
@[simp] theorem setLane_links (d : Nat) (v : LaneH) (s : State) : (setLane d v s).links = s.links := rfl
@[simp] theorem setLane_pmb (d : Nat) (v : LaneH) (s : State) : (setLane d v s).pmb = s.pmb := rfl
@[simp] theorem setLane_phases (d : Nat) (v : LaneH) (s : State) : (setLane d v s).phases = s.phases := rfl
@[simp] theorem setLane_rails (d : Nat) (v : LaneH) (s : State) : (setLane d v s).rails = s.rails := rfl
@[simp] theorem setLane_test (d : Nat) (v : LaneH) (s : State) : (setLane d v s).test = s.test := rfl
@[simp] theorem setLane_self (d : Nat) (v : LaneH) (s : State) : (setLane d v s).self = s.self := rfl
@[simp] theorem setLane_itn (d : Nat) (v : LaneH) (s : State) : (setLane d v s).itn = s.itn := rfl
@[simp] theorem setLane_tok (d : Nat) (v : LaneH) (s : State) : (setLane d v s).tok = s.tok := rfl
@[simp] theorem setLane_capd (d : Nat) (v : LaneH) (s : State) : (setLane d v s).capd = s.capd := rfl
@[simp] theorem setLane_capp (d : Nat) (v : LaneH) (s : State) : (setLane d v s).capp = s.capp := rfl
@[simp] theorem setLane_estd (d : Nat) (v : LaneH) (s : State) : (setLane d v s).estd = s.estd := rfl
@[simp] theorem setLane_estp (d : Nat) (v : LaneH) (s : State) : (setLane d v s).estp = s.estp := rfl
@[simp] theorem setLane_therm (d : Nat) (v : LaneH) (s : State) : (setLane d v s).therm = s.therm := rfl
@[simp] theorem setLane_ring (d : Nat) (v : LaneH) (s : State) : (setLane d v s).ring = s.ring := rfl
@[simp] theorem setLane_recov (d : Nat) (v : LaneH) (s : State) : (setLane d v s).recov = s.recov := rfl
@[simp] theorem setLane_sec (d : Nat) (v : LaneH) (s : State) : (setLane d v s).sec = s.sec := rfl
@[simp] theorem setLane_host (d : Nat) (v : LaneH) (s : State) : (setLane d v s).host = s.host := rfl
@[simp] theorem setLane_i3c (d : Nat) (v : LaneH) (s : State) : (setLane d v s).i3c = s.i3c := rfl
@[simp] theorem setLane_log (d : Nat) (v : LaneH) (s : State) : (setLane d v s).log = s.log := rfl
@[simp] theorem setLane_boot (d : Nat) (v : LaneH) (s : State) : (setLane d v s).boot = s.boot := rfl
@[simp] theorem setLane_pins (d : Nat) (v : LaneH) (s : State) : (setLane d v s).pins = s.pins := rfl

@[simp] theorem setConv_pending (d : Nat) (v : PmbC) (s : State) : (setConv d v s).pending = s.pending := rfl
@[simp] theorem setConv_regs (d : Nat) (v : PmbC) (s : State) : (setConv d v s).regs = s.regs := rfl
@[simp] theorem setConv_mem (d : Nat) (v : PmbC) (s : State) : (setConv d v s).mem = s.mem := rfl
@[simp] theorem setConv_free (d : Nat) (v : PmbC) (s : State) : (setConv d v s).free = s.free := rfl
@[simp] theorem setConv_out (d : Nat) (v : PmbC) (s : State) : (setConv d v s).out = s.out := rfl
@[simp] theorem setConv_resp (d : Nat) (v : PmbC) (s : State) : (setConv d v s).resp = s.resp := rfl
@[simp] theorem setConv_us (d : Nat) (v : PmbC) (s : State) : (setConv d v s).us = s.us := rfl
@[simp] theorem setConv_clk (d : Nat) (v : PmbC) (s : State) : (setConv d v s).clk = s.clk := rfl
@[simp] theorem setConv_links (d : Nat) (v : PmbC) (s : State) : (setConv d v s).links = s.links := rfl
@[simp] theorem setConv_lanes (d : Nat) (v : PmbC) (s : State) : (setConv d v s).lanes = s.lanes := rfl
@[simp] theorem setConv_phases (d : Nat) (v : PmbC) (s : State) : (setConv d v s).phases = s.phases := rfl
@[simp] theorem setConv_rails (d : Nat) (v : PmbC) (s : State) : (setConv d v s).rails = s.rails := rfl
@[simp] theorem setConv_test (d : Nat) (v : PmbC) (s : State) : (setConv d v s).test = s.test := rfl
@[simp] theorem setConv_self (d : Nat) (v : PmbC) (s : State) : (setConv d v s).self = s.self := rfl
@[simp] theorem setConv_itn (d : Nat) (v : PmbC) (s : State) : (setConv d v s).itn = s.itn := rfl
@[simp] theorem setConv_tok (d : Nat) (v : PmbC) (s : State) : (setConv d v s).tok = s.tok := rfl
@[simp] theorem setConv_capd (d : Nat) (v : PmbC) (s : State) : (setConv d v s).capd = s.capd := rfl
@[simp] theorem setConv_capp (d : Nat) (v : PmbC) (s : State) : (setConv d v s).capp = s.capp := rfl
@[simp] theorem setConv_estd (d : Nat) (v : PmbC) (s : State) : (setConv d v s).estd = s.estd := rfl
@[simp] theorem setConv_estp (d : Nat) (v : PmbC) (s : State) : (setConv d v s).estp = s.estp := rfl
@[simp] theorem setConv_therm (d : Nat) (v : PmbC) (s : State) : (setConv d v s).therm = s.therm := rfl
@[simp] theorem setConv_ring (d : Nat) (v : PmbC) (s : State) : (setConv d v s).ring = s.ring := rfl
@[simp] theorem setConv_recov (d : Nat) (v : PmbC) (s : State) : (setConv d v s).recov = s.recov := rfl
@[simp] theorem setConv_sec (d : Nat) (v : PmbC) (s : State) : (setConv d v s).sec = s.sec := rfl
@[simp] theorem setConv_host (d : Nat) (v : PmbC) (s : State) : (setConv d v s).host = s.host := rfl
@[simp] theorem setConv_i3c (d : Nat) (v : PmbC) (s : State) : (setConv d v s).i3c = s.i3c := rfl
@[simp] theorem setConv_log (d : Nat) (v : PmbC) (s : State) : (setConv d v s).log = s.log := rfl
@[simp] theorem setConv_boot (d : Nat) (v : PmbC) (s : State) : (setConv d v s).boot = s.boot := rfl
@[simp] theorem setConv_pins (d : Nat) (v : PmbC) (s : State) : (setConv d v s).pins = s.pins := rfl

@[simp] theorem setPhase_pending (d : Nat) (v : PhaseH) (s : State) : (setPhase d v s).pending = s.pending := rfl
@[simp] theorem setPhase_regs (d : Nat) (v : PhaseH) (s : State) : (setPhase d v s).regs = s.regs := rfl
@[simp] theorem setPhase_mem (d : Nat) (v : PhaseH) (s : State) : (setPhase d v s).mem = s.mem := rfl
@[simp] theorem setPhase_free (d : Nat) (v : PhaseH) (s : State) : (setPhase d v s).free = s.free := rfl
@[simp] theorem setPhase_out (d : Nat) (v : PhaseH) (s : State) : (setPhase d v s).out = s.out := rfl
@[simp] theorem setPhase_resp (d : Nat) (v : PhaseH) (s : State) : (setPhase d v s).resp = s.resp := rfl
@[simp] theorem setPhase_us (d : Nat) (v : PhaseH) (s : State) : (setPhase d v s).us = s.us := rfl
@[simp] theorem setPhase_clk (d : Nat) (v : PhaseH) (s : State) : (setPhase d v s).clk = s.clk := rfl
@[simp] theorem setPhase_links (d : Nat) (v : PhaseH) (s : State) : (setPhase d v s).links = s.links := rfl
@[simp] theorem setPhase_lanes (d : Nat) (v : PhaseH) (s : State) : (setPhase d v s).lanes = s.lanes := rfl
@[simp] theorem setPhase_pmb (d : Nat) (v : PhaseH) (s : State) : (setPhase d v s).pmb = s.pmb := rfl
@[simp] theorem setPhase_rails (d : Nat) (v : PhaseH) (s : State) : (setPhase d v s).rails = s.rails := rfl
@[simp] theorem setPhase_test (d : Nat) (v : PhaseH) (s : State) : (setPhase d v s).test = s.test := rfl
@[simp] theorem setPhase_self (d : Nat) (v : PhaseH) (s : State) : (setPhase d v s).self = s.self := rfl
@[simp] theorem setPhase_itn (d : Nat) (v : PhaseH) (s : State) : (setPhase d v s).itn = s.itn := rfl
@[simp] theorem setPhase_tok (d : Nat) (v : PhaseH) (s : State) : (setPhase d v s).tok = s.tok := rfl
@[simp] theorem setPhase_capd (d : Nat) (v : PhaseH) (s : State) : (setPhase d v s).capd = s.capd := rfl
@[simp] theorem setPhase_capp (d : Nat) (v : PhaseH) (s : State) : (setPhase d v s).capp = s.capp := rfl
@[simp] theorem setPhase_estd (d : Nat) (v : PhaseH) (s : State) : (setPhase d v s).estd = s.estd := rfl
@[simp] theorem setPhase_estp (d : Nat) (v : PhaseH) (s : State) : (setPhase d v s).estp = s.estp := rfl
@[simp] theorem setPhase_therm (d : Nat) (v : PhaseH) (s : State) : (setPhase d v s).therm = s.therm := rfl
@[simp] theorem setPhase_ring (d : Nat) (v : PhaseH) (s : State) : (setPhase d v s).ring = s.ring := rfl
@[simp] theorem setPhase_recov (d : Nat) (v : PhaseH) (s : State) : (setPhase d v s).recov = s.recov := rfl
@[simp] theorem setPhase_sec (d : Nat) (v : PhaseH) (s : State) : (setPhase d v s).sec = s.sec := rfl
@[simp] theorem setPhase_host (d : Nat) (v : PhaseH) (s : State) : (setPhase d v s).host = s.host := rfl
@[simp] theorem setPhase_i3c (d : Nat) (v : PhaseH) (s : State) : (setPhase d v s).i3c = s.i3c := rfl
@[simp] theorem setPhase_log (d : Nat) (v : PhaseH) (s : State) : (setPhase d v s).log = s.log := rfl
@[simp] theorem setPhase_boot (d : Nat) (v : PhaseH) (s : State) : (setPhase d v s).boot = s.boot := rfl
@[simp] theorem setPhase_pins (d : Nat) (v : PhaseH) (s : State) : (setPhase d v s).pins = s.pins := rfl

@[simp] theorem setRail_pending (d : Nat) (v : RailH) (s : State) : (setRail d v s).pending = s.pending := rfl
@[simp] theorem setRail_regs (d : Nat) (v : RailH) (s : State) : (setRail d v s).regs = s.regs := rfl
@[simp] theorem setRail_mem (d : Nat) (v : RailH) (s : State) : (setRail d v s).mem = s.mem := rfl
@[simp] theorem setRail_free (d : Nat) (v : RailH) (s : State) : (setRail d v s).free = s.free := rfl
@[simp] theorem setRail_out (d : Nat) (v : RailH) (s : State) : (setRail d v s).out = s.out := rfl
@[simp] theorem setRail_resp (d : Nat) (v : RailH) (s : State) : (setRail d v s).resp = s.resp := rfl
@[simp] theorem setRail_us (d : Nat) (v : RailH) (s : State) : (setRail d v s).us = s.us := rfl
@[simp] theorem setRail_clk (d : Nat) (v : RailH) (s : State) : (setRail d v s).clk = s.clk := rfl
@[simp] theorem setRail_links (d : Nat) (v : RailH) (s : State) : (setRail d v s).links = s.links := rfl
@[simp] theorem setRail_lanes (d : Nat) (v : RailH) (s : State) : (setRail d v s).lanes = s.lanes := rfl
@[simp] theorem setRail_pmb (d : Nat) (v : RailH) (s : State) : (setRail d v s).pmb = s.pmb := rfl
@[simp] theorem setRail_phases (d : Nat) (v : RailH) (s : State) : (setRail d v s).phases = s.phases := rfl
@[simp] theorem setRail_test (d : Nat) (v : RailH) (s : State) : (setRail d v s).test = s.test := rfl
@[simp] theorem setRail_self (d : Nat) (v : RailH) (s : State) : (setRail d v s).self = s.self := rfl
@[simp] theorem setRail_itn (d : Nat) (v : RailH) (s : State) : (setRail d v s).itn = s.itn := rfl
@[simp] theorem setRail_tok (d : Nat) (v : RailH) (s : State) : (setRail d v s).tok = s.tok := rfl
@[simp] theorem setRail_capd (d : Nat) (v : RailH) (s : State) : (setRail d v s).capd = s.capd := rfl
@[simp] theorem setRail_capp (d : Nat) (v : RailH) (s : State) : (setRail d v s).capp = s.capp := rfl
@[simp] theorem setRail_estd (d : Nat) (v : RailH) (s : State) : (setRail d v s).estd = s.estd := rfl
@[simp] theorem setRail_estp (d : Nat) (v : RailH) (s : State) : (setRail d v s).estp = s.estp := rfl
@[simp] theorem setRail_therm (d : Nat) (v : RailH) (s : State) : (setRail d v s).therm = s.therm := rfl
@[simp] theorem setRail_ring (d : Nat) (v : RailH) (s : State) : (setRail d v s).ring = s.ring := rfl
@[simp] theorem setRail_recov (d : Nat) (v : RailH) (s : State) : (setRail d v s).recov = s.recov := rfl
@[simp] theorem setRail_sec (d : Nat) (v : RailH) (s : State) : (setRail d v s).sec = s.sec := rfl
@[simp] theorem setRail_host (d : Nat) (v : RailH) (s : State) : (setRail d v s).host = s.host := rfl
@[simp] theorem setRail_i3c (d : Nat) (v : RailH) (s : State) : (setRail d v s).i3c = s.i3c := rfl
@[simp] theorem setRail_log (d : Nat) (v : RailH) (s : State) : (setRail d v s).log = s.log := rfl
@[simp] theorem setRail_boot (d : Nat) (v : RailH) (s : State) : (setRail d v s).boot = s.boot := rfl
@[simp] theorem setRail_pins (d : Nat) (v : RailH) (s : State) : (setRail d v s).pins = s.pins := rfl

@[simp] theorem setItn_pending (d : Nat) (v : ItnD) (s : State) : (setItn d v s).pending = s.pending := rfl
@[simp] theorem setItn_regs (d : Nat) (v : ItnD) (s : State) : (setItn d v s).regs = s.regs := rfl
@[simp] theorem setItn_mem (d : Nat) (v : ItnD) (s : State) : (setItn d v s).mem = s.mem := rfl
@[simp] theorem setItn_free (d : Nat) (v : ItnD) (s : State) : (setItn d v s).free = s.free := rfl
@[simp] theorem setItn_out (d : Nat) (v : ItnD) (s : State) : (setItn d v s).out = s.out := rfl
@[simp] theorem setItn_resp (d : Nat) (v : ItnD) (s : State) : (setItn d v s).resp = s.resp := rfl
@[simp] theorem setItn_us (d : Nat) (v : ItnD) (s : State) : (setItn d v s).us = s.us := rfl
@[simp] theorem setItn_clk (d : Nat) (v : ItnD) (s : State) : (setItn d v s).clk = s.clk := rfl
@[simp] theorem setItn_links (d : Nat) (v : ItnD) (s : State) : (setItn d v s).links = s.links := rfl
@[simp] theorem setItn_lanes (d : Nat) (v : ItnD) (s : State) : (setItn d v s).lanes = s.lanes := rfl
@[simp] theorem setItn_pmb (d : Nat) (v : ItnD) (s : State) : (setItn d v s).pmb = s.pmb := rfl
@[simp] theorem setItn_phases (d : Nat) (v : ItnD) (s : State) : (setItn d v s).phases = s.phases := rfl
@[simp] theorem setItn_rails (d : Nat) (v : ItnD) (s : State) : (setItn d v s).rails = s.rails := rfl
@[simp] theorem setItn_test (d : Nat) (v : ItnD) (s : State) : (setItn d v s).test = s.test := rfl
@[simp] theorem setItn_self (d : Nat) (v : ItnD) (s : State) : (setItn d v s).self = s.self := rfl
@[simp] theorem setItn_tok (d : Nat) (v : ItnD) (s : State) : (setItn d v s).tok = s.tok := rfl
@[simp] theorem setItn_capd (d : Nat) (v : ItnD) (s : State) : (setItn d v s).capd = s.capd := rfl
@[simp] theorem setItn_capp (d : Nat) (v : ItnD) (s : State) : (setItn d v s).capp = s.capp := rfl
@[simp] theorem setItn_estd (d : Nat) (v : ItnD) (s : State) : (setItn d v s).estd = s.estd := rfl
@[simp] theorem setItn_estp (d : Nat) (v : ItnD) (s : State) : (setItn d v s).estp = s.estp := rfl
@[simp] theorem setItn_therm (d : Nat) (v : ItnD) (s : State) : (setItn d v s).therm = s.therm := rfl
@[simp] theorem setItn_ring (d : Nat) (v : ItnD) (s : State) : (setItn d v s).ring = s.ring := rfl
@[simp] theorem setItn_recov (d : Nat) (v : ItnD) (s : State) : (setItn d v s).recov = s.recov := rfl
@[simp] theorem setItn_sec (d : Nat) (v : ItnD) (s : State) : (setItn d v s).sec = s.sec := rfl
@[simp] theorem setItn_host (d : Nat) (v : ItnD) (s : State) : (setItn d v s).host = s.host := rfl
@[simp] theorem setItn_i3c (d : Nat) (v : ItnD) (s : State) : (setItn d v s).i3c = s.i3c := rfl
@[simp] theorem setItn_log (d : Nat) (v : ItnD) (s : State) : (setItn d v s).log = s.log := rfl
@[simp] theorem setItn_boot (d : Nat) (v : ItnD) (s : State) : (setItn d v s).boot = s.boot := rfl
@[simp] theorem setItn_pins (d : Nat) (v : ItnD) (s : State) : (setItn d v s).pins = s.pins := rfl

@[simp] theorem setTok_pending (d : Nat) (v : TokD) (s : State) : (setTok d v s).pending = s.pending := rfl
@[simp] theorem setTok_regs (d : Nat) (v : TokD) (s : State) : (setTok d v s).regs = s.regs := rfl
@[simp] theorem setTok_mem (d : Nat) (v : TokD) (s : State) : (setTok d v s).mem = s.mem := rfl
@[simp] theorem setTok_free (d : Nat) (v : TokD) (s : State) : (setTok d v s).free = s.free := rfl
@[simp] theorem setTok_out (d : Nat) (v : TokD) (s : State) : (setTok d v s).out = s.out := rfl
@[simp] theorem setTok_resp (d : Nat) (v : TokD) (s : State) : (setTok d v s).resp = s.resp := rfl
@[simp] theorem setTok_us (d : Nat) (v : TokD) (s : State) : (setTok d v s).us = s.us := rfl
@[simp] theorem setTok_clk (d : Nat) (v : TokD) (s : State) : (setTok d v s).clk = s.clk := rfl
@[simp] theorem setTok_links (d : Nat) (v : TokD) (s : State) : (setTok d v s).links = s.links := rfl
@[simp] theorem setTok_lanes (d : Nat) (v : TokD) (s : State) : (setTok d v s).lanes = s.lanes := rfl
@[simp] theorem setTok_pmb (d : Nat) (v : TokD) (s : State) : (setTok d v s).pmb = s.pmb := rfl
@[simp] theorem setTok_phases (d : Nat) (v : TokD) (s : State) : (setTok d v s).phases = s.phases := rfl
@[simp] theorem setTok_rails (d : Nat) (v : TokD) (s : State) : (setTok d v s).rails = s.rails := rfl
@[simp] theorem setTok_test (d : Nat) (v : TokD) (s : State) : (setTok d v s).test = s.test := rfl
@[simp] theorem setTok_self (d : Nat) (v : TokD) (s : State) : (setTok d v s).self = s.self := rfl
@[simp] theorem setTok_itn (d : Nat) (v : TokD) (s : State) : (setTok d v s).itn = s.itn := rfl
@[simp] theorem setTok_capd (d : Nat) (v : TokD) (s : State) : (setTok d v s).capd = s.capd := rfl
@[simp] theorem setTok_capp (d : Nat) (v : TokD) (s : State) : (setTok d v s).capp = s.capp := rfl
@[simp] theorem setTok_estd (d : Nat) (v : TokD) (s : State) : (setTok d v s).estd = s.estd := rfl
@[simp] theorem setTok_estp (d : Nat) (v : TokD) (s : State) : (setTok d v s).estp = s.estp := rfl
@[simp] theorem setTok_therm (d : Nat) (v : TokD) (s : State) : (setTok d v s).therm = s.therm := rfl
@[simp] theorem setTok_ring (d : Nat) (v : TokD) (s : State) : (setTok d v s).ring = s.ring := rfl
@[simp] theorem setTok_recov (d : Nat) (v : TokD) (s : State) : (setTok d v s).recov = s.recov := rfl
@[simp] theorem setTok_sec (d : Nat) (v : TokD) (s : State) : (setTok d v s).sec = s.sec := rfl
@[simp] theorem setTok_host (d : Nat) (v : TokD) (s : State) : (setTok d v s).host = s.host := rfl
@[simp] theorem setTok_i3c (d : Nat) (v : TokD) (s : State) : (setTok d v s).i3c = s.i3c := rfl
@[simp] theorem setTok_log (d : Nat) (v : TokD) (s : State) : (setTok d v s).log = s.log := rfl
@[simp] theorem setTok_boot (d : Nat) (v : TokD) (s : State) : (setTok d v s).boot = s.boot := rfl
@[simp] theorem setTok_pins (d : Nat) (v : TokD) (s : State) : (setTok d v s).pins = s.pins := rfl

@[simp] theorem setCap_pending (d : Nat) (v : CapD) (s : State) : (setCap d v s).pending = s.pending := rfl
@[simp] theorem setCap_regs (d : Nat) (v : CapD) (s : State) : (setCap d v s).regs = s.regs := rfl
@[simp] theorem setCap_mem (d : Nat) (v : CapD) (s : State) : (setCap d v s).mem = s.mem := rfl
@[simp] theorem setCap_free (d : Nat) (v : CapD) (s : State) : (setCap d v s).free = s.free := rfl
@[simp] theorem setCap_out (d : Nat) (v : CapD) (s : State) : (setCap d v s).out = s.out := rfl
@[simp] theorem setCap_resp (d : Nat) (v : CapD) (s : State) : (setCap d v s).resp = s.resp := rfl
@[simp] theorem setCap_us (d : Nat) (v : CapD) (s : State) : (setCap d v s).us = s.us := rfl
@[simp] theorem setCap_clk (d : Nat) (v : CapD) (s : State) : (setCap d v s).clk = s.clk := rfl
@[simp] theorem setCap_links (d : Nat) (v : CapD) (s : State) : (setCap d v s).links = s.links := rfl
@[simp] theorem setCap_lanes (d : Nat) (v : CapD) (s : State) : (setCap d v s).lanes = s.lanes := rfl
@[simp] theorem setCap_pmb (d : Nat) (v : CapD) (s : State) : (setCap d v s).pmb = s.pmb := rfl
@[simp] theorem setCap_phases (d : Nat) (v : CapD) (s : State) : (setCap d v s).phases = s.phases := rfl
@[simp] theorem setCap_rails (d : Nat) (v : CapD) (s : State) : (setCap d v s).rails = s.rails := rfl
@[simp] theorem setCap_test (d : Nat) (v : CapD) (s : State) : (setCap d v s).test = s.test := rfl
@[simp] theorem setCap_self (d : Nat) (v : CapD) (s : State) : (setCap d v s).self = s.self := rfl
@[simp] theorem setCap_itn (d : Nat) (v : CapD) (s : State) : (setCap d v s).itn = s.itn := rfl
@[simp] theorem setCap_tok (d : Nat) (v : CapD) (s : State) : (setCap d v s).tok = s.tok := rfl
@[simp] theorem setCap_capp (d : Nat) (v : CapD) (s : State) : (setCap d v s).capp = s.capp := rfl
@[simp] theorem setCap_estd (d : Nat) (v : CapD) (s : State) : (setCap d v s).estd = s.estd := rfl
@[simp] theorem setCap_estp (d : Nat) (v : CapD) (s : State) : (setCap d v s).estp = s.estp := rfl
@[simp] theorem setCap_therm (d : Nat) (v : CapD) (s : State) : (setCap d v s).therm = s.therm := rfl
@[simp] theorem setCap_ring (d : Nat) (v : CapD) (s : State) : (setCap d v s).ring = s.ring := rfl
@[simp] theorem setCap_recov (d : Nat) (v : CapD) (s : State) : (setCap d v s).recov = s.recov := rfl
@[simp] theorem setCap_sec (d : Nat) (v : CapD) (s : State) : (setCap d v s).sec = s.sec := rfl
@[simp] theorem setCap_host (d : Nat) (v : CapD) (s : State) : (setCap d v s).host = s.host := rfl
@[simp] theorem setCap_i3c (d : Nat) (v : CapD) (s : State) : (setCap d v s).i3c = s.i3c := rfl
@[simp] theorem setCap_log (d : Nat) (v : CapD) (s : State) : (setCap d v s).log = s.log := rfl
@[simp] theorem setCap_boot (d : Nat) (v : CapD) (s : State) : (setCap d v s).boot = s.boot := rfl
@[simp] theorem setCap_pins (d : Nat) (v : CapD) (s : State) : (setCap d v s).pins = s.pins := rfl

@[simp] theorem setEst_pending (d : Nat) (v : EstD) (s : State) : (setEst d v s).pending = s.pending := rfl
@[simp] theorem setEst_regs (d : Nat) (v : EstD) (s : State) : (setEst d v s).regs = s.regs := rfl
@[simp] theorem setEst_mem (d : Nat) (v : EstD) (s : State) : (setEst d v s).mem = s.mem := rfl
@[simp] theorem setEst_free (d : Nat) (v : EstD) (s : State) : (setEst d v s).free = s.free := rfl
@[simp] theorem setEst_out (d : Nat) (v : EstD) (s : State) : (setEst d v s).out = s.out := rfl
@[simp] theorem setEst_resp (d : Nat) (v : EstD) (s : State) : (setEst d v s).resp = s.resp := rfl
@[simp] theorem setEst_us (d : Nat) (v : EstD) (s : State) : (setEst d v s).us = s.us := rfl
@[simp] theorem setEst_clk (d : Nat) (v : EstD) (s : State) : (setEst d v s).clk = s.clk := rfl
@[simp] theorem setEst_links (d : Nat) (v : EstD) (s : State) : (setEst d v s).links = s.links := rfl
@[simp] theorem setEst_lanes (d : Nat) (v : EstD) (s : State) : (setEst d v s).lanes = s.lanes := rfl
@[simp] theorem setEst_pmb (d : Nat) (v : EstD) (s : State) : (setEst d v s).pmb = s.pmb := rfl
@[simp] theorem setEst_phases (d : Nat) (v : EstD) (s : State) : (setEst d v s).phases = s.phases := rfl
@[simp] theorem setEst_rails (d : Nat) (v : EstD) (s : State) : (setEst d v s).rails = s.rails := rfl
@[simp] theorem setEst_test (d : Nat) (v : EstD) (s : State) : (setEst d v s).test = s.test := rfl
@[simp] theorem setEst_self (d : Nat) (v : EstD) (s : State) : (setEst d v s).self = s.self := rfl
@[simp] theorem setEst_itn (d : Nat) (v : EstD) (s : State) : (setEst d v s).itn = s.itn := rfl
@[simp] theorem setEst_tok (d : Nat) (v : EstD) (s : State) : (setEst d v s).tok = s.tok := rfl
@[simp] theorem setEst_capd (d : Nat) (v : EstD) (s : State) : (setEst d v s).capd = s.capd := rfl
@[simp] theorem setEst_capp (d : Nat) (v : EstD) (s : State) : (setEst d v s).capp = s.capp := rfl
@[simp] theorem setEst_estp (d : Nat) (v : EstD) (s : State) : (setEst d v s).estp = s.estp := rfl
@[simp] theorem setEst_therm (d : Nat) (v : EstD) (s : State) : (setEst d v s).therm = s.therm := rfl
@[simp] theorem setEst_ring (d : Nat) (v : EstD) (s : State) : (setEst d v s).ring = s.ring := rfl
@[simp] theorem setEst_recov (d : Nat) (v : EstD) (s : State) : (setEst d v s).recov = s.recov := rfl
@[simp] theorem setEst_sec (d : Nat) (v : EstD) (s : State) : (setEst d v s).sec = s.sec := rfl
@[simp] theorem setEst_host (d : Nat) (v : EstD) (s : State) : (setEst d v s).host = s.host := rfl
@[simp] theorem setEst_i3c (d : Nat) (v : EstD) (s : State) : (setEst d v s).i3c = s.i3c := rfl
@[simp] theorem setEst_log (d : Nat) (v : EstD) (s : State) : (setEst d v s).log = s.log := rfl
@[simp] theorem setEst_boot (d : Nat) (v : EstD) (s : State) : (setEst d v s).boot = s.boot := rfl
@[simp] theorem setEst_pins (d : Nat) (v : EstD) (s : State) : (setEst d v s).pins = s.pins := rfl

@[simp] theorem setPart_pending (d : Nat) (v : PartH) (s : State) : (setPart d v s).pending = s.pending := rfl
@[simp] theorem setPart_regs (d : Nat) (v : PartH) (s : State) : (setPart d v s).regs = s.regs := rfl
@[simp] theorem setPart_mem (d : Nat) (v : PartH) (s : State) : (setPart d v s).mem = s.mem := rfl
@[simp] theorem setPart_free (d : Nat) (v : PartH) (s : State) : (setPart d v s).free = s.free := rfl
@[simp] theorem setPart_out (d : Nat) (v : PartH) (s : State) : (setPart d v s).out = s.out := rfl
@[simp] theorem setPart_resp (d : Nat) (v : PartH) (s : State) : (setPart d v s).resp = s.resp := rfl
@[simp] theorem setPart_us (d : Nat) (v : PartH) (s : State) : (setPart d v s).us = s.us := rfl
@[simp] theorem setPart_clk (d : Nat) (v : PartH) (s : State) : (setPart d v s).clk = s.clk := rfl
@[simp] theorem setPart_links (d : Nat) (v : PartH) (s : State) : (setPart d v s).links = s.links := rfl
@[simp] theorem setPart_lanes (d : Nat) (v : PartH) (s : State) : (setPart d v s).lanes = s.lanes := rfl
@[simp] theorem setPart_pmb (d : Nat) (v : PartH) (s : State) : (setPart d v s).pmb = s.pmb := rfl
@[simp] theorem setPart_phases (d : Nat) (v : PartH) (s : State) : (setPart d v s).phases = s.phases := rfl
@[simp] theorem setPart_rails (d : Nat) (v : PartH) (s : State) : (setPart d v s).rails = s.rails := rfl
@[simp] theorem setPart_test (d : Nat) (v : PartH) (s : State) : (setPart d v s).test = s.test := rfl
@[simp] theorem setPart_self (d : Nat) (v : PartH) (s : State) : (setPart d v s).self = s.self := rfl
@[simp] theorem setPart_itn (d : Nat) (v : PartH) (s : State) : (setPart d v s).itn = s.itn := rfl
@[simp] theorem setPart_tok (d : Nat) (v : PartH) (s : State) : (setPart d v s).tok = s.tok := rfl
@[simp] theorem setPart_capd (d : Nat) (v : PartH) (s : State) : (setPart d v s).capd = s.capd := rfl
@[simp] theorem setPart_capp (d : Nat) (v : PartH) (s : State) : (setPart d v s).capp = s.capp := rfl
@[simp] theorem setPart_estd (d : Nat) (v : PartH) (s : State) : (setPart d v s).estd = s.estd := rfl
@[simp] theorem setPart_estp (d : Nat) (v : PartH) (s : State) : (setPart d v s).estp = s.estp := rfl
@[simp] theorem setPart_therm (d : Nat) (v : PartH) (s : State) : (setPart d v s).therm = s.therm := rfl
@[simp] theorem setPart_ring (d : Nat) (v : PartH) (s : State) : (setPart d v s).ring = s.ring := rfl
@[simp] theorem setPart_recov (d : Nat) (v : PartH) (s : State) : (setPart d v s).recov = s.recov := rfl
@[simp] theorem setPart_host (d : Nat) (v : PartH) (s : State) : (setPart d v s).host = s.host := rfl
@[simp] theorem setPart_i3c (d : Nat) (v : PartH) (s : State) : (setPart d v s).i3c = s.i3c := rfl
@[simp] theorem setPart_log (d : Nat) (v : PartH) (s : State) : (setPart d v s).log = s.log := rfl
@[simp] theorem setPart_boot (d : Nat) (v : PartH) (s : State) : (setPart d v s).boot = s.boot := rfl
@[simp] theorem setPart_pins (d : Nat) (v : PartH) (s : State) : (setPart d v s).pins = s.pins := rfl

@[simp] theorem setBoot_pending (v : BootH) (s : State) : (setBoot v s).pending = s.pending := rfl
@[simp] theorem setBoot_regs (v : BootH) (s : State) : (setBoot v s).regs = s.regs := rfl
@[simp] theorem setBoot_mem (v : BootH) (s : State) : (setBoot v s).mem = s.mem := rfl
@[simp] theorem setBoot_free (v : BootH) (s : State) : (setBoot v s).free = s.free := rfl
@[simp] theorem setBoot_out (v : BootH) (s : State) : (setBoot v s).out = s.out := rfl
@[simp] theorem setBoot_resp (v : BootH) (s : State) : (setBoot v s).resp = s.resp := rfl
@[simp] theorem setBoot_us (v : BootH) (s : State) : (setBoot v s).us = s.us := rfl
@[simp] theorem setBoot_clk (v : BootH) (s : State) : (setBoot v s).clk = s.clk := rfl
@[simp] theorem setBoot_links (v : BootH) (s : State) : (setBoot v s).links = s.links := rfl
@[simp] theorem setBoot_lanes (v : BootH) (s : State) : (setBoot v s).lanes = s.lanes := rfl
@[simp] theorem setBoot_pmb (v : BootH) (s : State) : (setBoot v s).pmb = s.pmb := rfl
@[simp] theorem setBoot_phases (v : BootH) (s : State) : (setBoot v s).phases = s.phases := rfl
@[simp] theorem setBoot_rails (v : BootH) (s : State) : (setBoot v s).rails = s.rails := rfl
@[simp] theorem setBoot_test (v : BootH) (s : State) : (setBoot v s).test = s.test := rfl
@[simp] theorem setBoot_self (v : BootH) (s : State) : (setBoot v s).self = s.self := rfl
@[simp] theorem setBoot_itn (v : BootH) (s : State) : (setBoot v s).itn = s.itn := rfl
@[simp] theorem setBoot_tok (v : BootH) (s : State) : (setBoot v s).tok = s.tok := rfl
@[simp] theorem setBoot_capd (v : BootH) (s : State) : (setBoot v s).capd = s.capd := rfl
@[simp] theorem setBoot_capp (v : BootH) (s : State) : (setBoot v s).capp = s.capp := rfl
@[simp] theorem setBoot_estd (v : BootH) (s : State) : (setBoot v s).estd = s.estd := rfl
@[simp] theorem setBoot_estp (v : BootH) (s : State) : (setBoot v s).estp = s.estp := rfl
@[simp] theorem setBoot_therm (v : BootH) (s : State) : (setBoot v s).therm = s.therm := rfl
@[simp] theorem setBoot_ring (v : BootH) (s : State) : (setBoot v s).ring = s.ring := rfl
@[simp] theorem setBoot_recov (v : BootH) (s : State) : (setBoot v s).recov = s.recov := rfl
@[simp] theorem setBoot_sec (v : BootH) (s : State) : (setBoot v s).sec = s.sec := rfl
@[simp] theorem setBoot_host (v : BootH) (s : State) : (setBoot v s).host = s.host := rfl
@[simp] theorem setBoot_i3c (v : BootH) (s : State) : (setBoot v s).i3c = s.i3c := rfl
@[simp] theorem setBoot_log (v : BootH) (s : State) : (setBoot v s).log = s.log := rfl
@[simp] theorem setBoot_pins (v : BootH) (s : State) : (setBoot v s).pins = s.pins := rfl

@[simp] theorem setPins_pending (v : Pins) (s : State) : (setPins v s).pending = s.pending := rfl
@[simp] theorem setPins_regs (v : Pins) (s : State) : (setPins v s).regs = s.regs := rfl
@[simp] theorem setPins_mem (v : Pins) (s : State) : (setPins v s).mem = s.mem := rfl
@[simp] theorem setPins_free (v : Pins) (s : State) : (setPins v s).free = s.free := rfl
@[simp] theorem setPins_out (v : Pins) (s : State) : (setPins v s).out = s.out := rfl
@[simp] theorem setPins_resp (v : Pins) (s : State) : (setPins v s).resp = s.resp := rfl
@[simp] theorem setPins_us (v : Pins) (s : State) : (setPins v s).us = s.us := rfl
@[simp] theorem setPins_clk (v : Pins) (s : State) : (setPins v s).clk = s.clk := rfl
@[simp] theorem setPins_links (v : Pins) (s : State) : (setPins v s).links = s.links := rfl
@[simp] theorem setPins_lanes (v : Pins) (s : State) : (setPins v s).lanes = s.lanes := rfl
@[simp] theorem setPins_pmb (v : Pins) (s : State) : (setPins v s).pmb = s.pmb := rfl
@[simp] theorem setPins_phases (v : Pins) (s : State) : (setPins v s).phases = s.phases := rfl
@[simp] theorem setPins_rails (v : Pins) (s : State) : (setPins v s).rails = s.rails := rfl
@[simp] theorem setPins_test (v : Pins) (s : State) : (setPins v s).test = s.test := rfl
@[simp] theorem setPins_self (v : Pins) (s : State) : (setPins v s).self = s.self := rfl
@[simp] theorem setPins_itn (v : Pins) (s : State) : (setPins v s).itn = s.itn := rfl
@[simp] theorem setPins_tok (v : Pins) (s : State) : (setPins v s).tok = s.tok := rfl
@[simp] theorem setPins_capd (v : Pins) (s : State) : (setPins v s).capd = s.capd := rfl
@[simp] theorem setPins_capp (v : Pins) (s : State) : (setPins v s).capp = s.capp := rfl
@[simp] theorem setPins_estd (v : Pins) (s : State) : (setPins v s).estd = s.estd := rfl
@[simp] theorem setPins_estp (v : Pins) (s : State) : (setPins v s).estp = s.estp := rfl
@[simp] theorem setPins_therm (v : Pins) (s : State) : (setPins v s).therm = s.therm := rfl
@[simp] theorem setPins_ring (v : Pins) (s : State) : (setPins v s).ring = s.ring := rfl
@[simp] theorem setPins_recov (v : Pins) (s : State) : (setPins v s).recov = s.recov := rfl
@[simp] theorem setPins_sec (v : Pins) (s : State) : (setPins v s).sec = s.sec := rfl
@[simp] theorem setPins_host (v : Pins) (s : State) : (setPins v s).host = s.host := rfl
@[simp] theorem setPins_i3c (v : Pins) (s : State) : (setPins v s).i3c = s.i3c := rfl
@[simp] theorem setPins_log (v : Pins) (s : State) : (setPins v s).log = s.log := rfl
@[simp] theorem setPins_boot (v : Pins) (s : State) : (setPins v s).boot = s.boot := rfl

@[simp] theorem recordAt_pending (time code subj part arg : Nat) (s : State) : (recordAt time code subj part arg s).pending = s.pending := by unfold recordAt; split <;> rfl
@[simp] theorem recordAt_regs (time code subj part arg : Nat) (s : State) : (recordAt time code subj part arg s).regs = s.regs := by unfold recordAt; split <;> rfl
@[simp] theorem recordAt_mem (time code subj part arg : Nat) (s : State) : (recordAt time code subj part arg s).mem = s.mem := by unfold recordAt; split <;> rfl
@[simp] theorem recordAt_free (time code subj part arg : Nat) (s : State) : (recordAt time code subj part arg s).free = s.free := by unfold recordAt; split <;> rfl
@[simp] theorem recordAt_out (time code subj part arg : Nat) (s : State) : (recordAt time code subj part arg s).out = s.out := by unfold recordAt; split <;> rfl
@[simp] theorem recordAt_resp (time code subj part arg : Nat) (s : State) : (recordAt time code subj part arg s).resp = s.resp := by unfold recordAt; split <;> rfl
@[simp] theorem recordAt_us (time code subj part arg : Nat) (s : State) : (recordAt time code subj part arg s).us = s.us := by unfold recordAt; split <;> rfl
@[simp] theorem recordAt_clk (time code subj part arg : Nat) (s : State) : (recordAt time code subj part arg s).clk = s.clk := by unfold recordAt; split <;> rfl
@[simp] theorem recordAt_links (time code subj part arg : Nat) (s : State) : (recordAt time code subj part arg s).links = s.links := by unfold recordAt; split <;> rfl
@[simp] theorem recordAt_lanes (time code subj part arg : Nat) (s : State) : (recordAt time code subj part arg s).lanes = s.lanes := by unfold recordAt; split <;> rfl
@[simp] theorem recordAt_pmb (time code subj part arg : Nat) (s : State) : (recordAt time code subj part arg s).pmb = s.pmb := by unfold recordAt; split <;> rfl
@[simp] theorem recordAt_phases (time code subj part arg : Nat) (s : State) : (recordAt time code subj part arg s).phases = s.phases := by unfold recordAt; split <;> rfl
@[simp] theorem recordAt_rails (time code subj part arg : Nat) (s : State) : (recordAt time code subj part arg s).rails = s.rails := by unfold recordAt; split <;> rfl
@[simp] theorem recordAt_test (time code subj part arg : Nat) (s : State) : (recordAt time code subj part arg s).test = s.test := by unfold recordAt; split <;> rfl
@[simp] theorem recordAt_self (time code subj part arg : Nat) (s : State) : (recordAt time code subj part arg s).self = s.self := by unfold recordAt; split <;> rfl
@[simp] theorem recordAt_itn (time code subj part arg : Nat) (s : State) : (recordAt time code subj part arg s).itn = s.itn := by unfold recordAt; split <;> rfl
@[simp] theorem recordAt_tok (time code subj part arg : Nat) (s : State) : (recordAt time code subj part arg s).tok = s.tok := by unfold recordAt; split <;> rfl
@[simp] theorem recordAt_capd (time code subj part arg : Nat) (s : State) : (recordAt time code subj part arg s).capd = s.capd := by unfold recordAt; split <;> rfl
@[simp] theorem recordAt_capp (time code subj part arg : Nat) (s : State) : (recordAt time code subj part arg s).capp = s.capp := by unfold recordAt; split <;> rfl
@[simp] theorem recordAt_estd (time code subj part arg : Nat) (s : State) : (recordAt time code subj part arg s).estd = s.estd := by unfold recordAt; split <;> rfl
@[simp] theorem recordAt_estp (time code subj part arg : Nat) (s : State) : (recordAt time code subj part arg s).estp = s.estp := by unfold recordAt; split <;> rfl
@[simp] theorem recordAt_therm (time code subj part arg : Nat) (s : State) : (recordAt time code subj part arg s).therm = s.therm := by unfold recordAt; split <;> rfl
@[simp] theorem recordAt_ring (time code subj part arg : Nat) (s : State) : (recordAt time code subj part arg s).ring = s.ring := by unfold recordAt; split <;> rfl
@[simp] theorem recordAt_recov (time code subj part arg : Nat) (s : State) : (recordAt time code subj part arg s).recov = s.recov := by unfold recordAt; split <;> rfl
@[simp] theorem recordAt_sec (time code subj part arg : Nat) (s : State) : (recordAt time code subj part arg s).sec = s.sec := by unfold recordAt; split <;> rfl
@[simp] theorem recordAt_host (time code subj part arg : Nat) (s : State) : (recordAt time code subj part arg s).host = s.host := by unfold recordAt; split <;> rfl
@[simp] theorem recordAt_i3c (time code subj part arg : Nat) (s : State) : (recordAt time code subj part arg s).i3c = s.i3c := by unfold recordAt; split <;> rfl
@[simp] theorem recordAt_boot (time code subj part arg : Nat) (s : State) : (recordAt time code subj part arg s).boot = s.boot := by unfold recordAt; split <;> rfl
@[simp] theorem recordAt_pins (time code subj part arg : Nat) (s : State) : (recordAt time code subj part arg s).pins = s.pins := by unfold recordAt; split <;> rfl

@[simp] theorem record_pending (code arg : Nat) (s : State) : (record code arg s).pending = s.pending := recordAt_pending ..
@[simp] theorem record_regs (code arg : Nat) (s : State) : (record code arg s).regs = s.regs := recordAt_regs ..
@[simp] theorem record_mem (code arg : Nat) (s : State) : (record code arg s).mem = s.mem := recordAt_mem ..
@[simp] theorem record_free (code arg : Nat) (s : State) : (record code arg s).free = s.free := recordAt_free ..
@[simp] theorem record_out (code arg : Nat) (s : State) : (record code arg s).out = s.out := recordAt_out ..
@[simp] theorem record_resp (code arg : Nat) (s : State) : (record code arg s).resp = s.resp := recordAt_resp ..
@[simp] theorem record_us (code arg : Nat) (s : State) : (record code arg s).us = s.us := recordAt_us ..
@[simp] theorem record_clk (code arg : Nat) (s : State) : (record code arg s).clk = s.clk := recordAt_clk ..
@[simp] theorem record_links (code arg : Nat) (s : State) : (record code arg s).links = s.links := recordAt_links ..
@[simp] theorem record_lanes (code arg : Nat) (s : State) : (record code arg s).lanes = s.lanes := recordAt_lanes ..
@[simp] theorem record_pmb (code arg : Nat) (s : State) : (record code arg s).pmb = s.pmb := recordAt_pmb ..
@[simp] theorem record_phases (code arg : Nat) (s : State) : (record code arg s).phases = s.phases := recordAt_phases ..
@[simp] theorem record_rails (code arg : Nat) (s : State) : (record code arg s).rails = s.rails := recordAt_rails ..
@[simp] theorem record_test (code arg : Nat) (s : State) : (record code arg s).test = s.test := recordAt_test ..
@[simp] theorem record_self (code arg : Nat) (s : State) : (record code arg s).self = s.self := recordAt_self ..
@[simp] theorem record_itn (code arg : Nat) (s : State) : (record code arg s).itn = s.itn := recordAt_itn ..
@[simp] theorem record_tok (code arg : Nat) (s : State) : (record code arg s).tok = s.tok := recordAt_tok ..
@[simp] theorem record_capd (code arg : Nat) (s : State) : (record code arg s).capd = s.capd := recordAt_capd ..
@[simp] theorem record_capp (code arg : Nat) (s : State) : (record code arg s).capp = s.capp := recordAt_capp ..
@[simp] theorem record_estd (code arg : Nat) (s : State) : (record code arg s).estd = s.estd := recordAt_estd ..
@[simp] theorem record_estp (code arg : Nat) (s : State) : (record code arg s).estp = s.estp := recordAt_estp ..
@[simp] theorem record_therm (code arg : Nat) (s : State) : (record code arg s).therm = s.therm := recordAt_therm ..
@[simp] theorem record_ring (code arg : Nat) (s : State) : (record code arg s).ring = s.ring := recordAt_ring ..
@[simp] theorem record_recov (code arg : Nat) (s : State) : (record code arg s).recov = s.recov := recordAt_recov ..
@[simp] theorem record_sec (code arg : Nat) (s : State) : (record code arg s).sec = s.sec := recordAt_sec ..
@[simp] theorem record_host (code arg : Nat) (s : State) : (record code arg s).host = s.host := recordAt_host ..
@[simp] theorem record_i3c (code arg : Nat) (s : State) : (record code arg s).i3c = s.i3c := recordAt_i3c ..
@[simp] theorem record_boot (code arg : Nat) (s : State) : (record code arg s).boot = s.boot := recordAt_boot ..
@[simp] theorem record_pins (code arg : Nat) (s : State) : (record code arg s).pins = s.pins := recordAt_pins ..

@[simp] theorem recordDie_pending (code d arg : Nat) (s : State) : (recordDie code d arg s).pending = s.pending := recordAt_pending ..
@[simp] theorem recordDie_regs (code d arg : Nat) (s : State) : (recordDie code d arg s).regs = s.regs := recordAt_regs ..
@[simp] theorem recordDie_mem (code d arg : Nat) (s : State) : (recordDie code d arg s).mem = s.mem := recordAt_mem ..
@[simp] theorem recordDie_free (code d arg : Nat) (s : State) : (recordDie code d arg s).free = s.free := recordAt_free ..
@[simp] theorem recordDie_out (code d arg : Nat) (s : State) : (recordDie code d arg s).out = s.out := recordAt_out ..
@[simp] theorem recordDie_resp (code d arg : Nat) (s : State) : (recordDie code d arg s).resp = s.resp := recordAt_resp ..
@[simp] theorem recordDie_us (code d arg : Nat) (s : State) : (recordDie code d arg s).us = s.us := recordAt_us ..
@[simp] theorem recordDie_clk (code d arg : Nat) (s : State) : (recordDie code d arg s).clk = s.clk := recordAt_clk ..
@[simp] theorem recordDie_links (code d arg : Nat) (s : State) : (recordDie code d arg s).links = s.links := recordAt_links ..
@[simp] theorem recordDie_lanes (code d arg : Nat) (s : State) : (recordDie code d arg s).lanes = s.lanes := recordAt_lanes ..
@[simp] theorem recordDie_pmb (code d arg : Nat) (s : State) : (recordDie code d arg s).pmb = s.pmb := recordAt_pmb ..
@[simp] theorem recordDie_phases (code d arg : Nat) (s : State) : (recordDie code d arg s).phases = s.phases := recordAt_phases ..
@[simp] theorem recordDie_rails (code d arg : Nat) (s : State) : (recordDie code d arg s).rails = s.rails := recordAt_rails ..
@[simp] theorem recordDie_test (code d arg : Nat) (s : State) : (recordDie code d arg s).test = s.test := recordAt_test ..
@[simp] theorem recordDie_self (code d arg : Nat) (s : State) : (recordDie code d arg s).self = s.self := recordAt_self ..
@[simp] theorem recordDie_itn (code d arg : Nat) (s : State) : (recordDie code d arg s).itn = s.itn := recordAt_itn ..
@[simp] theorem recordDie_tok (code d arg : Nat) (s : State) : (recordDie code d arg s).tok = s.tok := recordAt_tok ..
@[simp] theorem recordDie_capd (code d arg : Nat) (s : State) : (recordDie code d arg s).capd = s.capd := recordAt_capd ..
@[simp] theorem recordDie_capp (code d arg : Nat) (s : State) : (recordDie code d arg s).capp = s.capp := recordAt_capp ..
@[simp] theorem recordDie_estd (code d arg : Nat) (s : State) : (recordDie code d arg s).estd = s.estd := recordAt_estd ..
@[simp] theorem recordDie_estp (code d arg : Nat) (s : State) : (recordDie code d arg s).estp = s.estp := recordAt_estp ..
@[simp] theorem recordDie_therm (code d arg : Nat) (s : State) : (recordDie code d arg s).therm = s.therm := recordAt_therm ..
@[simp] theorem recordDie_ring (code d arg : Nat) (s : State) : (recordDie code d arg s).ring = s.ring := recordAt_ring ..
@[simp] theorem recordDie_recov (code d arg : Nat) (s : State) : (recordDie code d arg s).recov = s.recov := recordAt_recov ..
@[simp] theorem recordDie_sec (code d arg : Nat) (s : State) : (recordDie code d arg s).sec = s.sec := recordAt_sec ..
@[simp] theorem recordDie_host (code d arg : Nat) (s : State) : (recordDie code d arg s).host = s.host := recordAt_host ..
@[simp] theorem recordDie_i3c (code d arg : Nat) (s : State) : (recordDie code d arg s).i3c = s.i3c := recordAt_i3c ..
@[simp] theorem recordDie_boot (code d arg : Nat) (s : State) : (recordDie code d arg s).boot = s.boot := recordAt_boot ..
@[simp] theorem recordDie_pins (code d arg : Nat) (s : State) : (recordDie code d arg s).pins = s.pins := recordAt_pins ..

@[simp] theorem queueEvent_pending (e : Event) (s : State) : (queueEvent e s).pending = s.pending := by unfold queueEvent event addSat; split <;> simp
@[simp] theorem queueEvent_mem (e : Event) (s : State) : (queueEvent e s).mem = s.mem := by unfold queueEvent event addSat; split <;> simp
@[simp] theorem queueEvent_free (e : Event) (s : State) : (queueEvent e s).free = s.free := by unfold queueEvent event addSat; split <;> simp
@[simp] theorem queueEvent_out (e : Event) (s : State) : (queueEvent e s).out = s.out := by unfold queueEvent event addSat; split <;> simp
@[simp] theorem queueEvent_resp (e : Event) (s : State) : (queueEvent e s).resp = s.resp := by unfold queueEvent event addSat; split <;> simp
@[simp] theorem queueEvent_us (e : Event) (s : State) : (queueEvent e s).us = s.us := by unfold queueEvent event addSat; split <;> simp
@[simp] theorem queueEvent_clk (e : Event) (s : State) : (queueEvent e s).clk = s.clk := by unfold queueEvent event addSat; split <;> simp
@[simp] theorem queueEvent_links (e : Event) (s : State) : (queueEvent e s).links = s.links := by unfold queueEvent event addSat; split <;> simp
@[simp] theorem queueEvent_lanes (e : Event) (s : State) : (queueEvent e s).lanes = s.lanes := by unfold queueEvent event addSat; split <;> simp
@[simp] theorem queueEvent_pmb (e : Event) (s : State) : (queueEvent e s).pmb = s.pmb := by unfold queueEvent event addSat; split <;> simp
@[simp] theorem queueEvent_phases (e : Event) (s : State) : (queueEvent e s).phases = s.phases := by unfold queueEvent event addSat; split <;> simp
@[simp] theorem queueEvent_rails (e : Event) (s : State) : (queueEvent e s).rails = s.rails := by unfold queueEvent event addSat; split <;> simp
@[simp] theorem queueEvent_test (e : Event) (s : State) : (queueEvent e s).test = s.test := by unfold queueEvent event addSat; split <;> simp
@[simp] theorem queueEvent_self (e : Event) (s : State) : (queueEvent e s).self = s.self := by unfold queueEvent event addSat; split <;> simp
@[simp] theorem queueEvent_itn (e : Event) (s : State) : (queueEvent e s).itn = s.itn := by unfold queueEvent event addSat; split <;> simp
@[simp] theorem queueEvent_tok (e : Event) (s : State) : (queueEvent e s).tok = s.tok := by unfold queueEvent event addSat; split <;> simp
@[simp] theorem queueEvent_capd (e : Event) (s : State) : (queueEvent e s).capd = s.capd := by unfold queueEvent event addSat; split <;> simp
@[simp] theorem queueEvent_capp (e : Event) (s : State) : (queueEvent e s).capp = s.capp := by unfold queueEvent event addSat; split <;> simp
@[simp] theorem queueEvent_estd (e : Event) (s : State) : (queueEvent e s).estd = s.estd := by unfold queueEvent event addSat; split <;> simp
@[simp] theorem queueEvent_estp (e : Event) (s : State) : (queueEvent e s).estp = s.estp := by unfold queueEvent event addSat; split <;> simp
@[simp] theorem queueEvent_therm (e : Event) (s : State) : (queueEvent e s).therm = s.therm := by unfold queueEvent event addSat; split <;> simp
@[simp] theorem queueEvent_ring (e : Event) (s : State) : (queueEvent e s).ring = s.ring := by unfold queueEvent event addSat; split <;> simp
@[simp] theorem queueEvent_recov (e : Event) (s : State) : (queueEvent e s).recov = s.recov := by unfold queueEvent event addSat; split <;> simp
@[simp] theorem queueEvent_sec (e : Event) (s : State) : (queueEvent e s).sec = s.sec := by unfold queueEvent event addSat; split <;> simp
@[simp] theorem queueEvent_host (e : Event) (s : State) : (queueEvent e s).host = s.host := by unfold queueEvent event addSat; split <;> simp
@[simp] theorem queueEvent_i3c (e : Event) (s : State) : (queueEvent e s).i3c = s.i3c := by unfold queueEvent event addSat; split <;> simp
@[simp] theorem queueEvent_boot (e : Event) (s : State) : (queueEvent e s).boot = s.boot := by unfold queueEvent event addSat; split <;> simp
@[simp] theorem queueEvent_pins (e : Event) (s : State) : (queueEvent e s).pins = s.pins := by unfold queueEvent event addSat; split <;> simp

@[simp] theorem notify_pending (b p : Nat) (s : State) : (notify b p s).pending = s.pending := by unfold notify event when; dsimp only; repeat' first | split | simp
@[simp] theorem notify_mem (b p : Nat) (s : State) : (notify b p s).mem = s.mem := by unfold notify event when; dsimp only; repeat' first | split | simp
@[simp] theorem notify_free (b p : Nat) (s : State) : (notify b p s).free = s.free := by unfold notify event when; dsimp only; repeat' first | split | simp
@[simp] theorem notify_resp (b p : Nat) (s : State) : (notify b p s).resp = s.resp := by unfold notify event when; dsimp only; repeat' first | split | simp
@[simp] theorem notify_us (b p : Nat) (s : State) : (notify b p s).us = s.us := by unfold notify event when; dsimp only; repeat' first | split | simp
@[simp] theorem notify_clk (b p : Nat) (s : State) : (notify b p s).clk = s.clk := by unfold notify event when; dsimp only; repeat' first | split | simp
@[simp] theorem notify_links (b p : Nat) (s : State) : (notify b p s).links = s.links := by unfold notify event when; dsimp only; repeat' first | split | simp
@[simp] theorem notify_lanes (b p : Nat) (s : State) : (notify b p s).lanes = s.lanes := by unfold notify event when; dsimp only; repeat' first | split | simp
@[simp] theorem notify_pmb (b p : Nat) (s : State) : (notify b p s).pmb = s.pmb := by unfold notify event when; dsimp only; repeat' first | split | simp
@[simp] theorem notify_phases (b p : Nat) (s : State) : (notify b p s).phases = s.phases := by unfold notify event when; dsimp only; repeat' first | split | simp
@[simp] theorem notify_rails (b p : Nat) (s : State) : (notify b p s).rails = s.rails := by unfold notify event when; dsimp only; repeat' first | split | simp
@[simp] theorem notify_test (b p : Nat) (s : State) : (notify b p s).test = s.test := by unfold notify event when; dsimp only; repeat' first | split | simp
@[simp] theorem notify_self (b p : Nat) (s : State) : (notify b p s).self = s.self := by unfold notify event when; dsimp only; repeat' first | split | simp
@[simp] theorem notify_itn (b p : Nat) (s : State) : (notify b p s).itn = s.itn := by unfold notify event when; dsimp only; repeat' first | split | simp
@[simp] theorem notify_tok (b p : Nat) (s : State) : (notify b p s).tok = s.tok := by unfold notify event when; dsimp only; repeat' first | split | simp
@[simp] theorem notify_capd (b p : Nat) (s : State) : (notify b p s).capd = s.capd := by unfold notify event when; dsimp only; repeat' first | split | simp
@[simp] theorem notify_capp (b p : Nat) (s : State) : (notify b p s).capp = s.capp := by unfold notify event when; dsimp only; repeat' first | split | simp
@[simp] theorem notify_estd (b p : Nat) (s : State) : (notify b p s).estd = s.estd := by unfold notify event when; dsimp only; repeat' first | split | simp
@[simp] theorem notify_estp (b p : Nat) (s : State) : (notify b p s).estp = s.estp := by unfold notify event when; dsimp only; repeat' first | split | simp
@[simp] theorem notify_therm (b p : Nat) (s : State) : (notify b p s).therm = s.therm := by unfold notify event when; dsimp only; repeat' first | split | simp
@[simp] theorem notify_ring (b p : Nat) (s : State) : (notify b p s).ring = s.ring := by unfold notify event when; dsimp only; repeat' first | split | simp
@[simp] theorem notify_recov (b p : Nat) (s : State) : (notify b p s).recov = s.recov := by unfold notify event when; dsimp only; repeat' first | split | simp
@[simp] theorem notify_sec (b p : Nat) (s : State) : (notify b p s).sec = s.sec := by unfold notify event when; dsimp only; repeat' first | split | simp
@[simp] theorem notify_host (b p : Nat) (s : State) : (notify b p s).host = s.host := by unfold notify event when; dsimp only; repeat' first | split | simp
@[simp] theorem notify_i3c (b p : Nat) (s : State) : (notify b p s).i3c = s.i3c := by unfold notify event when; dsimp only; repeat' first | split | simp
@[simp] theorem notify_log (b p : Nat) (s : State) : (notify b p s).log = s.log := by unfold notify event when; dsimp only; repeat' first | split | simp
@[simp] theorem notify_boot (b p : Nat) (s : State) : (notify b p s).boot = s.boot := by unfold notify event when; dsimp only; repeat' first | split | simp
@[simp] theorem notify_pins (b p : Nat) (s : State) : (notify b p s).pins = s.pins := by unfold notify event when; dsimp only; repeat' first | split | simp

@[simp] theorem faultOff_pending (b : Nat) (s : State) : (faultOff b s).pending = s.pending := put_pending ..
@[simp] theorem faultOff_mem (b : Nat) (s : State) : (faultOff b s).mem = s.mem := put_mem ..
@[simp] theorem faultOff_free (b : Nat) (s : State) : (faultOff b s).free = s.free := put_free ..
@[simp] theorem faultOff_out (b : Nat) (s : State) : (faultOff b s).out = s.out := put_out ..
@[simp] theorem faultOff_resp (b : Nat) (s : State) : (faultOff b s).resp = s.resp := put_resp ..
@[simp] theorem faultOff_us (b : Nat) (s : State) : (faultOff b s).us = s.us := put_us ..
@[simp] theorem faultOff_clk (b : Nat) (s : State) : (faultOff b s).clk = s.clk := put_clk ..
@[simp] theorem faultOff_links (b : Nat) (s : State) : (faultOff b s).links = s.links := put_links ..
@[simp] theorem faultOff_lanes (b : Nat) (s : State) : (faultOff b s).lanes = s.lanes := put_lanes ..
@[simp] theorem faultOff_pmb (b : Nat) (s : State) : (faultOff b s).pmb = s.pmb := put_pmb ..
@[simp] theorem faultOff_phases (b : Nat) (s : State) : (faultOff b s).phases = s.phases := put_phases ..
@[simp] theorem faultOff_rails (b : Nat) (s : State) : (faultOff b s).rails = s.rails := put_rails ..
@[simp] theorem faultOff_test (b : Nat) (s : State) : (faultOff b s).test = s.test := put_test ..
@[simp] theorem faultOff_self (b : Nat) (s : State) : (faultOff b s).self = s.self := put_self ..
@[simp] theorem faultOff_itn (b : Nat) (s : State) : (faultOff b s).itn = s.itn := put_itn ..
@[simp] theorem faultOff_tok (b : Nat) (s : State) : (faultOff b s).tok = s.tok := put_tok ..
@[simp] theorem faultOff_capd (b : Nat) (s : State) : (faultOff b s).capd = s.capd := put_capd ..
@[simp] theorem faultOff_capp (b : Nat) (s : State) : (faultOff b s).capp = s.capp := put_capp ..
@[simp] theorem faultOff_estd (b : Nat) (s : State) : (faultOff b s).estd = s.estd := put_estd ..
@[simp] theorem faultOff_estp (b : Nat) (s : State) : (faultOff b s).estp = s.estp := put_estp ..
@[simp] theorem faultOff_therm (b : Nat) (s : State) : (faultOff b s).therm = s.therm := put_therm ..
@[simp] theorem faultOff_ring (b : Nat) (s : State) : (faultOff b s).ring = s.ring := put_ring ..
@[simp] theorem faultOff_recov (b : Nat) (s : State) : (faultOff b s).recov = s.recov := put_recov ..
@[simp] theorem faultOff_sec (b : Nat) (s : State) : (faultOff b s).sec = s.sec := put_sec ..
@[simp] theorem faultOff_host (b : Nat) (s : State) : (faultOff b s).host = s.host := put_host ..
@[simp] theorem faultOff_i3c (b : Nat) (s : State) : (faultOff b s).i3c = s.i3c := put_i3c ..
@[simp] theorem faultOff_log (b : Nat) (s : State) : (faultOff b s).log = s.log := put_log ..
@[simp] theorem faultOff_boot (b : Nat) (s : State) : (faultOff b s).boot = s.boot := put_boot ..
@[simp] theorem faultOff_pins (b : Nat) (s : State) : (faultOff b s).pins = s.pins := put_pins ..

@[simp] theorem countHealth_pending (c n : Nat) (s : State) : (countHealth c n s).pending = s.pending := put_pending ..
@[simp] theorem countHealth_mem (c n : Nat) (s : State) : (countHealth c n s).mem = s.mem := put_mem ..
@[simp] theorem countHealth_free (c n : Nat) (s : State) : (countHealth c n s).free = s.free := put_free ..
@[simp] theorem countHealth_out (c n : Nat) (s : State) : (countHealth c n s).out = s.out := put_out ..
@[simp] theorem countHealth_resp (c n : Nat) (s : State) : (countHealth c n s).resp = s.resp := put_resp ..
@[simp] theorem countHealth_us (c n : Nat) (s : State) : (countHealth c n s).us = s.us := put_us ..
@[simp] theorem countHealth_clk (c n : Nat) (s : State) : (countHealth c n s).clk = s.clk := put_clk ..
@[simp] theorem countHealth_links (c n : Nat) (s : State) : (countHealth c n s).links = s.links := put_links ..
@[simp] theorem countHealth_lanes (c n : Nat) (s : State) : (countHealth c n s).lanes = s.lanes := put_lanes ..
@[simp] theorem countHealth_pmb (c n : Nat) (s : State) : (countHealth c n s).pmb = s.pmb := put_pmb ..
@[simp] theorem countHealth_phases (c n : Nat) (s : State) : (countHealth c n s).phases = s.phases := put_phases ..
@[simp] theorem countHealth_rails (c n : Nat) (s : State) : (countHealth c n s).rails = s.rails := put_rails ..
@[simp] theorem countHealth_test (c n : Nat) (s : State) : (countHealth c n s).test = s.test := put_test ..
@[simp] theorem countHealth_self (c n : Nat) (s : State) : (countHealth c n s).self = s.self := put_self ..
@[simp] theorem countHealth_itn (c n : Nat) (s : State) : (countHealth c n s).itn = s.itn := put_itn ..
@[simp] theorem countHealth_tok (c n : Nat) (s : State) : (countHealth c n s).tok = s.tok := put_tok ..
@[simp] theorem countHealth_capd (c n : Nat) (s : State) : (countHealth c n s).capd = s.capd := put_capd ..
@[simp] theorem countHealth_capp (c n : Nat) (s : State) : (countHealth c n s).capp = s.capp := put_capp ..
@[simp] theorem countHealth_estd (c n : Nat) (s : State) : (countHealth c n s).estd = s.estd := put_estd ..
@[simp] theorem countHealth_estp (c n : Nat) (s : State) : (countHealth c n s).estp = s.estp := put_estp ..
@[simp] theorem countHealth_therm (c n : Nat) (s : State) : (countHealth c n s).therm = s.therm := put_therm ..
@[simp] theorem countHealth_ring (c n : Nat) (s : State) : (countHealth c n s).ring = s.ring := put_ring ..
@[simp] theorem countHealth_recov (c n : Nat) (s : State) : (countHealth c n s).recov = s.recov := put_recov ..
@[simp] theorem countHealth_sec (c n : Nat) (s : State) : (countHealth c n s).sec = s.sec := put_sec ..
@[simp] theorem countHealth_host (c n : Nat) (s : State) : (countHealth c n s).host = s.host := put_host ..
@[simp] theorem countHealth_i3c (c n : Nat) (s : State) : (countHealth c n s).i3c = s.i3c := put_i3c ..
@[simp] theorem countHealth_log (c n : Nat) (s : State) : (countHealth c n s).log = s.log := put_log ..
@[simp] theorem countHealth_boot (c n : Nat) (s : State) : (countHealth c n s).boot = s.boot := put_boot ..
@[simp] theorem countHealth_pins (c n : Nat) (s : State) : (countHealth c n s).pins = s.pins := put_pins ..

@[simp] theorem bumpGen_pending (s : State) : (bumpGen s).pending = s.pending := by unfold bumpGen addWrap; simp
@[simp] theorem bumpGen_mem (s : State) : (bumpGen s).mem = s.mem := by unfold bumpGen addWrap; simp
@[simp] theorem bumpGen_free (s : State) : (bumpGen s).free = s.free := by unfold bumpGen addWrap; simp
@[simp] theorem bumpGen_out (s : State) : (bumpGen s).out = s.out := by unfold bumpGen addWrap; simp
@[simp] theorem bumpGen_resp (s : State) : (bumpGen s).resp = s.resp := by unfold bumpGen addWrap; simp
@[simp] theorem bumpGen_us (s : State) : (bumpGen s).us = s.us := by unfold bumpGen addWrap; simp
@[simp] theorem bumpGen_clk (s : State) : (bumpGen s).clk = s.clk := by unfold bumpGen addWrap; simp
@[simp] theorem bumpGen_links (s : State) : (bumpGen s).links = s.links := by unfold bumpGen addWrap; simp
@[simp] theorem bumpGen_lanes (s : State) : (bumpGen s).lanes = s.lanes := by unfold bumpGen addWrap; simp
@[simp] theorem bumpGen_pmb (s : State) : (bumpGen s).pmb = s.pmb := by unfold bumpGen addWrap; simp
@[simp] theorem bumpGen_phases (s : State) : (bumpGen s).phases = s.phases := by unfold bumpGen addWrap; simp
@[simp] theorem bumpGen_rails (s : State) : (bumpGen s).rails = s.rails := by unfold bumpGen addWrap; simp
@[simp] theorem bumpGen_test (s : State) : (bumpGen s).test = s.test := by unfold bumpGen addWrap; simp
@[simp] theorem bumpGen_self (s : State) : (bumpGen s).self = s.self := by unfold bumpGen addWrap; simp
@[simp] theorem bumpGen_itn (s : State) : (bumpGen s).itn = s.itn := by unfold bumpGen addWrap; simp
@[simp] theorem bumpGen_tok (s : State) : (bumpGen s).tok = s.tok := by unfold bumpGen addWrap; simp
@[simp] theorem bumpGen_capd (s : State) : (bumpGen s).capd = s.capd := by unfold bumpGen addWrap; simp
@[simp] theorem bumpGen_capp (s : State) : (bumpGen s).capp = s.capp := by unfold bumpGen addWrap; simp
@[simp] theorem bumpGen_estd (s : State) : (bumpGen s).estd = s.estd := by unfold bumpGen addWrap; simp
@[simp] theorem bumpGen_estp (s : State) : (bumpGen s).estp = s.estp := by unfold bumpGen addWrap; simp
@[simp] theorem bumpGen_therm (s : State) : (bumpGen s).therm = s.therm := by unfold bumpGen addWrap; simp
@[simp] theorem bumpGen_recov (s : State) : (bumpGen s).recov = s.recov := by unfold bumpGen addWrap; simp
@[simp] theorem bumpGen_sec (s : State) : (bumpGen s).sec = s.sec := by unfold bumpGen addWrap; simp
@[simp] theorem bumpGen_host (s : State) : (bumpGen s).host = s.host := by unfold bumpGen addWrap; simp
@[simp] theorem bumpGen_i3c (s : State) : (bumpGen s).i3c = s.i3c := by unfold bumpGen addWrap; simp
@[simp] theorem bumpGen_log (s : State) : (bumpGen s).log = s.log := by unfold bumpGen addWrap; simp
@[simp] theorem bumpGen_boot (s : State) : (bumpGen s).boot = s.boot := by unfold bumpGen addWrap; simp
@[simp] theorem bumpGen_pins (s : State) : (bumpGen s).pins = s.pins := by unfold bumpGen addWrap; simp

@[simp] theorem dropFlight_pending (port tag : Nat) (s : State) : (dropFlight port tag s).pending = s.pending := rfl
@[simp] theorem dropFlight_regs (port tag : Nat) (s : State) : (dropFlight port tag s).regs = s.regs := rfl
@[simp] theorem dropFlight_mem (port tag : Nat) (s : State) : (dropFlight port tag s).mem = s.mem := rfl
@[simp] theorem dropFlight_free (port tag : Nat) (s : State) : (dropFlight port tag s).free = s.free := rfl
@[simp] theorem dropFlight_out (port tag : Nat) (s : State) : (dropFlight port tag s).out = s.out := rfl
@[simp] theorem dropFlight_resp (port tag : Nat) (s : State) : (dropFlight port tag s).resp = s.resp := rfl
@[simp] theorem dropFlight_us (port tag : Nat) (s : State) : (dropFlight port tag s).us = s.us := rfl
@[simp] theorem dropFlight_clk (port tag : Nat) (s : State) : (dropFlight port tag s).clk = s.clk := rfl
@[simp] theorem dropFlight_links (port tag : Nat) (s : State) : (dropFlight port tag s).links = s.links := rfl
@[simp] theorem dropFlight_lanes (port tag : Nat) (s : State) : (dropFlight port tag s).lanes = s.lanes := rfl
@[simp] theorem dropFlight_pmb (port tag : Nat) (s : State) : (dropFlight port tag s).pmb = s.pmb := rfl
@[simp] theorem dropFlight_phases (port tag : Nat) (s : State) : (dropFlight port tag s).phases = s.phases := rfl
@[simp] theorem dropFlight_rails (port tag : Nat) (s : State) : (dropFlight port tag s).rails = s.rails := rfl
@[simp] theorem dropFlight_test (port tag : Nat) (s : State) : (dropFlight port tag s).test = s.test := rfl
@[simp] theorem dropFlight_self (port tag : Nat) (s : State) : (dropFlight port tag s).self = s.self := rfl
@[simp] theorem dropFlight_itn (port tag : Nat) (s : State) : (dropFlight port tag s).itn = s.itn := rfl
@[simp] theorem dropFlight_tok (port tag : Nat) (s : State) : (dropFlight port tag s).tok = s.tok := rfl
@[simp] theorem dropFlight_capd (port tag : Nat) (s : State) : (dropFlight port tag s).capd = s.capd := rfl
@[simp] theorem dropFlight_capp (port tag : Nat) (s : State) : (dropFlight port tag s).capp = s.capp := rfl
@[simp] theorem dropFlight_estd (port tag : Nat) (s : State) : (dropFlight port tag s).estd = s.estd := rfl
@[simp] theorem dropFlight_estp (port tag : Nat) (s : State) : (dropFlight port tag s).estp = s.estp := rfl
@[simp] theorem dropFlight_therm (port tag : Nat) (s : State) : (dropFlight port tag s).therm = s.therm := rfl
@[simp] theorem dropFlight_ring (port tag : Nat) (s : State) : (dropFlight port tag s).ring = s.ring := rfl
@[simp] theorem dropFlight_recov (port tag : Nat) (s : State) : (dropFlight port tag s).recov = s.recov := rfl
@[simp] theorem dropFlight_sec (port tag : Nat) (s : State) : (dropFlight port tag s).sec = s.sec := rfl
@[simp] theorem dropFlight_i3c (port tag : Nat) (s : State) : (dropFlight port tag s).i3c = s.i3c := rfl
@[simp] theorem dropFlight_log (port tag : Nat) (s : State) : (dropFlight port tag s).log = s.log := rfl
@[simp] theorem dropFlight_boot (port tag : Nat) (s : State) : (dropFlight port tag s).boot = s.boot := rfl
@[simp] theorem dropFlight_pins (port tag : Nat) (s : State) : (dropFlight port tag s).pins = s.pins := rfl

@[simp] theorem markStarted_pending (port tag : Nat) (s : State) : (markStarted port tag s).pending = s.pending := rfl
@[simp] theorem markStarted_regs (port tag : Nat) (s : State) : (markStarted port tag s).regs = s.regs := rfl
@[simp] theorem markStarted_mem (port tag : Nat) (s : State) : (markStarted port tag s).mem = s.mem := rfl
@[simp] theorem markStarted_free (port tag : Nat) (s : State) : (markStarted port tag s).free = s.free := rfl
@[simp] theorem markStarted_out (port tag : Nat) (s : State) : (markStarted port tag s).out = s.out := rfl
@[simp] theorem markStarted_resp (port tag : Nat) (s : State) : (markStarted port tag s).resp = s.resp := rfl
@[simp] theorem markStarted_us (port tag : Nat) (s : State) : (markStarted port tag s).us = s.us := rfl
@[simp] theorem markStarted_clk (port tag : Nat) (s : State) : (markStarted port tag s).clk = s.clk := rfl
@[simp] theorem markStarted_links (port tag : Nat) (s : State) : (markStarted port tag s).links = s.links := rfl
@[simp] theorem markStarted_lanes (port tag : Nat) (s : State) : (markStarted port tag s).lanes = s.lanes := rfl
@[simp] theorem markStarted_pmb (port tag : Nat) (s : State) : (markStarted port tag s).pmb = s.pmb := rfl
@[simp] theorem markStarted_phases (port tag : Nat) (s : State) : (markStarted port tag s).phases = s.phases := rfl
@[simp] theorem markStarted_rails (port tag : Nat) (s : State) : (markStarted port tag s).rails = s.rails := rfl
@[simp] theorem markStarted_test (port tag : Nat) (s : State) : (markStarted port tag s).test = s.test := rfl
@[simp] theorem markStarted_self (port tag : Nat) (s : State) : (markStarted port tag s).self = s.self := rfl
@[simp] theorem markStarted_itn (port tag : Nat) (s : State) : (markStarted port tag s).itn = s.itn := rfl
@[simp] theorem markStarted_tok (port tag : Nat) (s : State) : (markStarted port tag s).tok = s.tok := rfl
@[simp] theorem markStarted_capd (port tag : Nat) (s : State) : (markStarted port tag s).capd = s.capd := rfl
@[simp] theorem markStarted_capp (port tag : Nat) (s : State) : (markStarted port tag s).capp = s.capp := rfl
@[simp] theorem markStarted_estd (port tag : Nat) (s : State) : (markStarted port tag s).estd = s.estd := rfl
@[simp] theorem markStarted_estp (port tag : Nat) (s : State) : (markStarted port tag s).estp = s.estp := rfl
@[simp] theorem markStarted_therm (port tag : Nat) (s : State) : (markStarted port tag s).therm = s.therm := rfl
@[simp] theorem markStarted_ring (port tag : Nat) (s : State) : (markStarted port tag s).ring = s.ring := rfl
@[simp] theorem markStarted_recov (port tag : Nat) (s : State) : (markStarted port tag s).recov = s.recov := rfl
@[simp] theorem markStarted_sec (port tag : Nat) (s : State) : (markStarted port tag s).sec = s.sec := rfl
@[simp] theorem markStarted_i3c (port tag : Nat) (s : State) : (markStarted port tag s).i3c = s.i3c := rfl
@[simp] theorem markStarted_log (port tag : Nat) (s : State) : (markStarted port tag s).log = s.log := rfl
@[simp] theorem markStarted_boot (port tag : Nat) (s : State) : (markStarted port tag s).boot = s.boot := rfl
@[simp] theorem markStarted_pins (port tag : Nat) (s : State) : (markStarted port tag s).pins = s.pins := rfl

@[simp] theorem keepResult_pending (port tag r0 r1 : Nat) (s : State) : (keepResult port tag r0 r1 s).pending = s.pending := rfl
@[simp] theorem keepResult_regs (port tag r0 r1 : Nat) (s : State) : (keepResult port tag r0 r1 s).regs = s.regs := rfl
@[simp] theorem keepResult_mem (port tag r0 r1 : Nat) (s : State) : (keepResult port tag r0 r1 s).mem = s.mem := rfl
@[simp] theorem keepResult_free (port tag r0 r1 : Nat) (s : State) : (keepResult port tag r0 r1 s).free = s.free := rfl
@[simp] theorem keepResult_out (port tag r0 r1 : Nat) (s : State) : (keepResult port tag r0 r1 s).out = s.out := rfl
@[simp] theorem keepResult_resp (port tag r0 r1 : Nat) (s : State) : (keepResult port tag r0 r1 s).resp = s.resp := rfl
@[simp] theorem keepResult_us (port tag r0 r1 : Nat) (s : State) : (keepResult port tag r0 r1 s).us = s.us := rfl
@[simp] theorem keepResult_clk (port tag r0 r1 : Nat) (s : State) : (keepResult port tag r0 r1 s).clk = s.clk := rfl
@[simp] theorem keepResult_links (port tag r0 r1 : Nat) (s : State) : (keepResult port tag r0 r1 s).links = s.links := rfl
@[simp] theorem keepResult_lanes (port tag r0 r1 : Nat) (s : State) : (keepResult port tag r0 r1 s).lanes = s.lanes := rfl
@[simp] theorem keepResult_pmb (port tag r0 r1 : Nat) (s : State) : (keepResult port tag r0 r1 s).pmb = s.pmb := rfl
@[simp] theorem keepResult_phases (port tag r0 r1 : Nat) (s : State) : (keepResult port tag r0 r1 s).phases = s.phases := rfl
@[simp] theorem keepResult_rails (port tag r0 r1 : Nat) (s : State) : (keepResult port tag r0 r1 s).rails = s.rails := rfl
@[simp] theorem keepResult_test (port tag r0 r1 : Nat) (s : State) : (keepResult port tag r0 r1 s).test = s.test := rfl
@[simp] theorem keepResult_self (port tag r0 r1 : Nat) (s : State) : (keepResult port tag r0 r1 s).self = s.self := rfl
@[simp] theorem keepResult_itn (port tag r0 r1 : Nat) (s : State) : (keepResult port tag r0 r1 s).itn = s.itn := rfl
@[simp] theorem keepResult_tok (port tag r0 r1 : Nat) (s : State) : (keepResult port tag r0 r1 s).tok = s.tok := rfl
@[simp] theorem keepResult_capd (port tag r0 r1 : Nat) (s : State) : (keepResult port tag r0 r1 s).capd = s.capd := rfl
@[simp] theorem keepResult_capp (port tag r0 r1 : Nat) (s : State) : (keepResult port tag r0 r1 s).capp = s.capp := rfl
@[simp] theorem keepResult_estd (port tag r0 r1 : Nat) (s : State) : (keepResult port tag r0 r1 s).estd = s.estd := rfl
@[simp] theorem keepResult_estp (port tag r0 r1 : Nat) (s : State) : (keepResult port tag r0 r1 s).estp = s.estp := rfl
@[simp] theorem keepResult_therm (port tag r0 r1 : Nat) (s : State) : (keepResult port tag r0 r1 s).therm = s.therm := rfl
@[simp] theorem keepResult_ring (port tag r0 r1 : Nat) (s : State) : (keepResult port tag r0 r1 s).ring = s.ring := rfl
@[simp] theorem keepResult_recov (port tag r0 r1 : Nat) (s : State) : (keepResult port tag r0 r1 s).recov = s.recov := rfl
@[simp] theorem keepResult_sec (port tag r0 r1 : Nat) (s : State) : (keepResult port tag r0 r1 s).sec = s.sec := rfl
@[simp] theorem keepResult_i3c (port tag r0 r1 : Nat) (s : State) : (keepResult port tag r0 r1 s).i3c = s.i3c := rfl
@[simp] theorem keepResult_log (port tag r0 r1 : Nat) (s : State) : (keepResult port tag r0 r1 s).log = s.log := rfl
@[simp] theorem keepResult_boot (port tag r0 r1 : Nat) (s : State) : (keepResult port tag r0 r1 s).boot = s.boot := rfl
@[simp] theorem keepResult_pins (port tag r0 r1 : Nat) (s : State) : (keepResult port tag r0 r1 s).pins = s.pins := rfl

end Sys2Proof.Machine
end

