-- ==== Sys2Proof/Laws/Ops.lean ====
section
/-! SUPPORT. Sys2Proof/Laws/Ops.lean: reading after writing, for register fields, rows of tables and bytes of
memory, and what the end of a command does to the recorder queue. -/

set_option linter.unusedTactic false
set_option linter.unreachableTactic false

namespace Sys2Proof.Machine

/-! Register fields. -/

/-- Fields at different places of the window have different cells. -/
theorem key_ne {f g : Field} (h : (f.off * 32 + f.lo) % 2 ^ 27 ≠ (g.off * 32 + g.lo) % 2 ^ 27) : fieldKey f ≠ fieldKey g := by
  simp only [fieldKey]
  omega

/-- A field reads what was put into it, modulo its width. -/
theorem get_put_self {f : Field} (h : f.cls ≠ Ret.fuse) (v : Nat) (s : State) : get (put f v s) f = v % 2 ^ f.w := by
  simp only [get, put, h, if_false, sget_sset_self]

theorem get_put_ne {f g : Field} (h : fieldKey f ≠ fieldKey g) (v : Nat) (s : State) : get (put f v s) g = get s g := by
  unfold put
  split
  · rfl
  · exact sget_sset_ne _ _ _ h _

/-- A field that a footprint does not reach. -/
def Print.Free (p : Print) (g : Field) : Prop :=
  (∀ φ ∈ p.regs, ∀ i j, fieldKey (φ i j) ≠ fieldKey g) ∧ ∀ c ∈ p.classes, keyClass (fieldKey g) ≠ retCode c

theorem Within.get {p : Print} {s t : State} {g : Field} (h : Within p s t) (hg : p.Free g) : get t g = get s g := h.regs g hg.1 hg.2

theorem Print.Sub.refl (p : Print) : p.Sub p :=
  ⟨fun φ h i j => ⟨φ, h, i, j, rfl⟩, fun _ h => h, fun _ h => .inl h, fun _ h => h⟩

theorem Print.free_nil {g : Field} : (Print.join []).Free g ↔ True := by simp [Print.Free, Print.join]
theorem Print.free_cons {a : Print} {l : List Print} {g : Field} : (Print.join (a :: l)).Free g ↔ a.Free g ∧ (Print.join l).Free g := by
  simp only [Print.Free, Print.join, List.flatMap_cons, List.mem_append]
  constructor
  · exact fun h => ⟨⟨fun φ m => h.1 φ (.inl m), fun c m => h.2 c (.inl m)⟩, fun φ m => h.1 φ (.inr m), fun c m => h.2 c (.inr m)⟩
  · exact fun h => ⟨fun φ m => m.elim (h.1.1 φ) (h.2.1 φ), fun c m => m.elim (h.1.2 c) (h.2.2 c)⟩
theorem Print.free_reg {f g : Field} : (Print.reg f).Free g ↔ fieldKey f ≠ fieldKey g := by
  simp [Print.Free, Print.reg, the]
theorem Print.free_reg1 {f : Nat → Field} {o : Option Nat} {g : Field} :
    (Print.reg1 f o).Free g ↔ ∀ i, Names o i → fieldKey (f i) ≠ fieldKey g := by
  cases o <;> simp [Print.Free, Print.reg1, the, every, Names]
theorem Print.free_reg2 {f : Nat → Nat → Field} {o o' : Option Nat} {g : Field} :
    (Print.reg2 f o o').Free g ↔ ∀ i j, Names o i → Names o' j → fieldKey (f i j) ≠ fieldKey g := by
  cases o <;> cases o' <;> simp [Print.Free, Print.reg2, the, every, every2, Names]
  exact ⟨fun h i j e => e ▸ h j, fun h i => h _ i rfl⟩
theorem Print.free_prt {q : Part} {g : Field} : (Print.prt q).Free g ↔ True := by simp [Print.Free, Print.prt]
theorem Print.free_row {k : Nat → Cell} {o : Option Nat} {g : Field} : (Print.row k o).Free g ↔ True := by
  cases o <;> simp [Print.Free, Print.row]
theorem Print.free_cls {c : Ret} {g : Field} : (Print.cls c).Free g ↔ keyClass (fieldKey g) ≠ retCode c := by
  simp [Print.Free, Print.cls]

/-- The register file decides what fields hold. -/
theorem get_of_regs {s t : State} (h : t.regs = s.regs) (f : Field) : get t f = get s f := by simp only [get, h]

@[simp] theorem get_mk (s : State) (f : Field) (p mem free out resp us clk links lanes pmb phases rails test self itn tok capd
    capp estd estp therm ring recov sec host i3c log boot pins) :
    get ⟨p, s.regs, mem, free, out, resp, us, clk, links, lanes, pmb, phases, rails, test, self, itn, tok, capd, capp, estd,
      estp, therm, ring, recov, sec, host, i3c, log, boot, pins⟩ f = get s f := rfl

@[simp] theorem get_writeByte (a v : Nat) (s : State) (f : Field) : get (writeByte a v s) f = get s f := rfl
@[simp] theorem get_wipe (lo hi : Nat) (s : State) (f : Field) : get (wipe lo hi s) f = get s f := rfl
@[simp] theorem get_drawn (s : State) (f : Field) : get (drawn s) f = get s f := rfl
@[simp] theorem get_emit (o : Out) (s : State) (f : Field) : get (emit o s) f = get s f := rfl
@[simp] theorem get_setLink (d : Nat) (v : LinkD) (s : State) (f : Field) : get (setLink d v s) f = get s f := rfl
@[simp] theorem get_setLane (d : Nat) (v : LaneH) (s : State) (f : Field) : get (setLane d v s) f = get s f := rfl
@[simp] theorem get_setConv (d : Nat) (v : PmbC) (s : State) (f : Field) : get (setConv d v s) f = get s f := rfl
@[simp] theorem get_setPhase (d : Nat) (v : PhaseH) (s : State) (f : Field) : get (setPhase d v s) f = get s f := rfl
@[simp] theorem get_setRail (d : Nat) (v : RailH) (s : State) (f : Field) : get (setRail d v s) f = get s f := rfl
@[simp] theorem get_setItn (d : Nat) (v : ItnD) (s : State) (f : Field) : get (setItn d v s) f = get s f := rfl
@[simp] theorem get_setTok (d : Nat) (v : TokD) (s : State) (f : Field) : get (setTok d v s) f = get s f := rfl
@[simp] theorem get_setCap (d : Nat) (v : CapD) (s : State) (f : Field) : get (setCap d v s) f = get s f := rfl
@[simp] theorem get_setEst (d : Nat) (v : EstD) (s : State) (f : Field) : get (setEst d v s) f = get s f := rfl
@[simp] theorem get_setPart (d : Nat) (v : PartH) (s : State) (f : Field) : get (setPart d v s) f = get s f := rfl
@[simp] theorem get_setBoot (v : BootH) (s : State) (f : Field) : get (setBoot v s) f = get s f := rfl
@[simp] theorem get_setPins (v : Pins) (s : State) (f : Field) : get (setPins v s) f = get s f := rfl
@[simp] theorem get_recordAt (time code subj part arg : Nat) (s : State) (f : Field) : get (recordAt time code subj part arg s) f = get s f := by
  unfold recordAt; split <;> rfl
@[simp] theorem get_record (code arg : Nat) (s : State) (f : Field) : get (record code arg s) f = get s f := get_recordAt ..
@[simp] theorem get_recordDie (code d arg : Nat) (s : State) (f : Field) : get (recordDie code d arg s) f = get s f := get_recordAt ..
@[simp] theorem get_dropFlight (port tag : Nat) (s : State) (f : Field) : get (dropFlight port tag s) f = get s f := rfl
@[simp] theorem get_markStarted (port tag : Nat) (s : State) (f : Field) : get (markStarted port tag s) f = get s f := rfl
@[simp] theorem get_keepResult (port tag r0 r1 : Nat) (s : State) (f : Field) : get (keepResult port tag r0 r1 s) f = get s f := rfl

@[simp] theorem get_writeBytes (l : List Nat) (a : Nat) (s : State) (f : Field) : get (writeBytes a l s) f = get s f := by
  induction l generalizing a s with
  | nil => rfl
  | cons b l ih => exact ih (a + 1) (writeByte a b s)
@[simp] theorem get_writeWord32 (a v : Nat) (s : State) (f : Field) : get (writeWord32 a v s) f = get s f := get_writeBytes ..

@[simp] theorem when_true (f : State → State) (s : State) : when true f s = f s := rfl
@[simp] theorem when_false (f : State → State) (s : State) : when false f s = s := rfl
@[simp] theorem each_nil {α : Type} (f : α → State → State) (s : State) : each [] f s = s := rfl
@[simp] theorem each_cons {α : Type} (x : α) (l : List α) (f : α → State → State) (s : State) : each (x :: l) f s = each l f (f x s) := rfl

/-! Rows of tables. -/

@[simp] theorem linkOf_setLink (d : Nat) (v : LinkD) (s : State) : linkOf (setLink d v s) d = v := sget_sset_self ..
@[simp] theorem laneOf_setLane (d : Nat) (v : LaneH) (s : State) : laneOf (setLane d v s) d = v := sget_sset_self ..
@[simp] theorem convOf_setConv (d : Nat) (v : PmbC) (s : State) : convOf (setConv d v s) d = v := sget_sset_self ..
@[simp] theorem phaseOf_setPhase (d : Nat) (v : PhaseH) (s : State) : phaseOf (setPhase d v s) d = v := sget_sset_self ..
@[simp] theorem railOf_setRail (d : Nat) (v : RailH) (s : State) : railOf (setRail d v s) d = v := sget_sset_self ..
@[simp] theorem itnOf_setItn (d : Nat) (v : ItnD) (s : State) : itnOf (setItn d v s) d = v := sget_sset_self ..
@[simp] theorem tokOf_setTok (d : Nat) (v : TokD) (s : State) : tokOf (setTok d v s) d = v := sget_sset_self ..
@[simp] theorem capOf_setCap (d : Nat) (v : CapD) (s : State) : capOf (setCap d v s) d = v := sget_sset_self ..
@[simp] theorem estOf_setEst (d : Nat) (v : EstD) (s : State) : estOf (setEst d v s) d = v := sget_sset_self ..
@[simp] theorem partOf_setPart (d : Nat) (v : PartH) (s : State) : partOf (setPart d v s) d = v := sget_sset_self ..

theorem linkOf_of {s t : State} (h : t.links = s.links) (d : Nat) : linkOf t d = linkOf s d := by simp only [linkOf, h]
theorem laneOf_of {s t : State} (h : t.lanes = s.lanes) (d : Nat) : laneOf t d = laneOf s d := by simp only [laneOf, h]
theorem convOf_of {s t : State} (h : t.pmb = s.pmb) (d : Nat) : convOf t d = convOf s d := by simp only [convOf, h]
theorem phaseOf_of {s t : State} (h : t.phases = s.phases) (d : Nat) : phaseOf t d = phaseOf s d := by simp only [phaseOf, h]
theorem railOf_of {s t : State} (h : t.rails = s.rails) (d : Nat) : railOf t d = railOf s d := by simp only [railOf, h]
theorem itnOf_of {s t : State} (h : t.itn = s.itn) (d : Nat) : itnOf t d = itnOf s d := by simp only [itnOf, h]
theorem tokOf_of {s t : State} (h : t.tok = s.tok) (d : Nat) : tokOf t d = tokOf s d := by simp only [tokOf, h]
theorem capOf_of {s t : State} (h : t.capd = s.capd) (d : Nat) : capOf t d = capOf s d := by simp only [capOf, h]
theorem estOf_of {s t : State} (h : t.estd = s.estd) (d : Nat) : estOf t d = estOf s d := by simp only [estOf, h]
theorem partOf_of {s t : State} (h : t.sec = s.sec) (d : Nat) : partOf t d = partOf s d := by simp only [partOf, h]

/-! Bytes of memory. -/

/-- A byte reads what was written to it. -/
theorem readByte_writeByte_self (a v : Nat) (s : State) : readByte (writeByte a v s) a = v % 256 := by
  simp only [readByte, writeByte, sget_sset_self, BitVec.toNat_ofNat, Nat.reducePow]

/-- Writing bytes leaves every other byte. -/
theorem readByte_writeBytes_ne (l : List Nat) {a b : Nat} (h : b < a ∨ a + l.length ≤ b) (s : State) :
    readByte (writeBytes a l s) b = readByte s b := by
  induction l generalizing a s with
  | nil => rfl
  | cons x l ih =>
    simp only [List.length_cons] at h
    simp only [writeBytes]
    rw [ih (by omega), readByte_writeByte_ne (by omega)]

/-- Bytes read what was written to them. -/
theorem readByte_writeBytes_self (l : List Nat) (a i : Nat) (h : i < l.length) (s : State) :
    readByte (writeBytes a l s) (a + i) = l[i] % 256 := by
  induction l generalizing a i s with
  | nil => simp at h
  | cons x l ih =>
    cases i with
    | zero =>
      simp only [writeBytes, Nat.add_zero, List.getElem_cons_zero]
      rw [readByte_writeBytes_ne l (by omega), readByte_writeByte_self]
    | succ i =>
      simp only [writeBytes, List.getElem_cons_succ]
      rw [show a + (i + 1) = a + 1 + i by omega]
      exact ih (a + 1) i (by simpa using h) _

theorem leBytes_four (v : Nat) : leBytes 4 v = [v % 256, (v >>> 8) % 256, (v >>> 16) % 256, (v >>> 24) % 256] := by
  simp [leBytes, List.range_succ]

/-- A word reads what was written to it. -/
theorem readWord32_writeWord32_self (a v : Nat) (s : State) : readWord32 (writeWord32 a v s) a = v % 2 ^ 32 := by
  have hb : ∀ i, i < 4 → readByte (writeWord32 a v s) (a + i) = (v >>> (8 * i)) % 256 := by
    intro i hi
    have h := readByte_writeBytes_self (leBytes 4 v) a i (by simpa [leBytes] using hi) s
    rw [writeWord32, h]
    simp [leBytes]
  have hr : List.range 4 = [0, 1, 2, 3] := rfl
  simp only [readWord32, readBytes, hr, List.map_cons, List.map_nil, leNat]
  rw [hb 0 (by omega), hb 1 (by omega), hb 2 (by omega), hb 3 (by omega)]
  simp only [Nat.shiftRight_eq_div_pow]
  omega

theorem readWord32_writeWord32_ne {a b : Nat} (h : b + 4 ≤ a ∨ a + 4 ≤ b) (v : Nat) (s : State) :
    readWord32 (writeWord32 a v s) b = readWord32 s b := by
  have hb : ∀ i, i < 4 → readByte (writeWord32 a v s) (b + i) = readByte s (b + i) := fun i hi =>
    readByte_writeBytes_ne _ (by simp only [leBytes_four, List.length_cons, List.length_nil]; omega) s
  have hr : List.range 4 = [0, 1, 2, 3] := rfl
  simp only [readWord32, readBytes, hr, List.map_cons, List.map_nil]
  rw [hb 0 (by omega), hb 1 (by omega), hb 2 (by omega), hb 3 (by omega)]

theorem readByte_writeWord32_ne {a b : Nat} (h : b < a ∨ a + 4 ≤ b) (v : Nat) (s : State) :
    readByte (writeWord32 a v s) b = readByte s b :=
  readByte_writeBytes_ne _ (by simp only [leBytes_four, List.length_cons, List.length_nil]; omega) s

theorem readByte_of {s t : State} (h : t.mem = s.mem) (a : Nat) : readByte t a = readByte s a := by simp only [readByte, h]
theorem readWord32_of {s t : State} (h : t.mem = s.mem) (a : Nat) : readWord32 t a = readWord32 s a := by
  simp only [readWord32, readBytes, readByte, h]

/-- Every write keeps the canonical form of memory. -/
theorem Memory.wf_writeByte {s : State} (h : Memory.wf s.mem = true) (a v : Nat) : Memory.wf (writeByte a v s).mem = true :=
  sparseWf_sset memDefault _ _ h
theorem Memory.wf_writeBytes {s : State} (h : Memory.wf s.mem = true) (a : Nat) (l : List Nat) :
    Memory.wf (writeBytes a l s).mem = true := by
  induction l generalizing a s with
  | nil => exact h
  | cons b l ih => exact ih (Memory.wf_writeByte h a b) (a + 1)
theorem Memory.wf_wipe {s : State} (h : Memory.wf s.mem = true) (lo hi : Nat) : Memory.wf (wipe lo hi s).mem = true :=
  sparseWf_filter memDefault _ h

/-! The end of a command. -/

theorem mem_insertEvent (e x : Event) (l : List Event) : x ∈ insertEvent e l ↔ x = e ∨ x ∈ l := by
  induction l with
  | nil => simp [insertEvent]
  | cons y l ih =>
    simp only [insertEvent]
    split
    · simp
    · simp only [List.mem_cons, ih]
      tauto

theorem length_insertEvent (e : Event) (l : List Event) : (insertEvent e l).length = l.length + 1 := by
  induction l with
  | nil => rfl
  | cons y l ih =>
    simp only [insertEvent]
    split <;> simp [ih]

theorem mem_sortEvents (l acc : List Event) (x : Event) : x ∈ l.foldl (fun l e => insertEvent e l) acc ↔ x ∈ l ∨ x ∈ acc := by
  induction l generalizing acc with
  | nil => simp
  | cons y l ih =>
    simp only [List.foldl_cons, ih, mem_insertEvent, List.mem_cons]
    tauto

theorem length_sortEvents (l acc : List Event) : (l.foldl (fun l e => insertEvent e l) acc).length = l.length + acc.length := by
  induction l generalizing acc with
  | nil => simp
  | cons y l ih =>
    simp only [List.foldl_cons, ih, length_insertEvent, List.length_cons]
    omega

theorem each_queueEvent (l : List Event) (s : State) (h : s.log.queue.length + l.length ≤ 64) :
    each l queueEvent s = { s with log := { s.log with queue := s.log.queue ++ l } } := by
  induction l generalizing s with
  | nil => simp [each]
  | cons e l ih =>
    simp only [List.length_cons] at h
    simp only [each_cons]
    have hq : queueEvent e s = { s with log := { s.log with queue := s.log.queue ++ [e] } } := by
      unfold queueEvent
      rw [if_pos (by omega)]
    rw [hq, ih]
    · simp
    · simp; omega

/-- Where the recorder queue has room, a command's events enter it and nothing else changes. -/
theorem finish_eq {s : State} (h : s.log.queue.length + s.log.fresh.length ≤ 64) :
    finish s = { s with log := { s.log with
      queue := s.log.queue ++ s.log.fresh.foldl (fun l e => insertEvent e l) [], fresh := [] } } := by
  unfold finish
  rw [each_queueEvent]
  simpa [length_sortEvents] using h

/-- An event of a command reaches the recorder queue where it has room. -/
theorem mem_finish_queue {s : State} {e : Event} (h : s.log.queue.length + s.log.fresh.length ≤ 64) (he : e ∈ s.log.fresh) :
    e ∈ (finish s).log.queue := by
  rw [finish_eq h]
  simp [mem_sortEvents, he]

theorem Within.finish (s : State) : Within ⟨[the R.REC_LOST.COUNT, the R.REC_EVENT], [], [], [.log]⟩ s (finish s) := by
  unfold Machine.finish
  refine Within.each (fun e t h => ?_) (Within.ofParts (Within.refl _ _) rfl fun q hq => ?_)
  · unfold queueEvent
    split
    · refine h.ofParts rfl fun q hq => ?_
      cases q <;> first | rfl | exact fun _ _ => rfl | exact absurd (List.mem_singleton.2 rfl) hq
    · refine Within.event _ ⟨_, .tail _ (.head _), 0, 0, rfl⟩ (Within.addSat _ ⟨_, .head _, 0, 0, rfl⟩ h)
  · cases q <;> first | rfl | exact fun _ _ => rfl | exact absurd (List.mem_singleton.2 rfl) hq

/-- The end of a command changes REC_LOST and REC_EVENT alone of the registers. -/
theorem get_finish {s : State} {g : Field} (h1 : fieldKey R.REC_LOST.COUNT ≠ fieldKey g) (h2 : fieldKey R.REC_EVENT ≠ fieldKey g) :
    get (finish s) g = get s g := by
  refine (Within.finish s).get ⟨fun φ m i j => ?_, by simp⟩
  simp only [List.mem_cons, List.not_mem_nil, or_false] at m
  rcases m with rfl | rfl
  · exact h1
  · exact h2

end Sys2Proof.Machine
end

