-- ==== Sys2Proof/Laws/Complete.lean ====
section
/-! SUPPORT. Sys2Proof/Laws/Complete.lean: a command in flight that may start runs its effect, and one that completes is
answered in its port's completion queue. -/

set_option linter.unusedTactic false
set_option linter.unreachableTactic false

namespace Sys2Proof.Machine

/-- The end of a command as its outcome. -/
theorem done_iff {X : State} {P : State → Prop} : (∃ t, done X = .next t ∧ P t) ↔ P (finish X) := by simp [done]

/-- No event of the command: its end changes nothing. -/
theorem finish_same {s : State} (h : s.log.fresh = []) : finish s = s := by
  simp only [finish, h, List.foldl_nil, each_nil]
  cases s; cases ‹RecorderH›; cases h; rfl

/-- A command in flight that may start, with no check against it, has its effect. -/
theorem command_of {s : State} {op port tag : Nat} {fl : Flight} {checks : Flight → List (Bool × Nat)} {effect : Flight → State → State}
    (h : Waiting s op port tag fl) (hc : firstFail (checks fl) = none) : command op port tag s checks effect = effect fl s := by
  have hr := h.runs
  simp only [command, h.flight, h.opcode, h.idle, h.order, hr, hc, Bool.not_false, and_self, if_true]

theorem flightOf_port {s : State} {port tag : Nat} {fl : Flight} (h : flightOf s port tag = some fl) : fl.port = port ∧ fl.tag = tag := by
  have := List.find?_some h
  simpa using this

theorem flightOf_of {s t : State} (h : t.host = s.host) (p g : Nat) : flightOf t p g = flightOf s p g := by simp only [flightOf, h]

theorem flightOf_dropFlight (p g : Nat) (s : State) : flightOf (dropFlight p g s) p g = none := by
  simp only [flightOf, dropFlight, List.find?_eq_none, List.mem_filter]
  rintro x ⟨-, hx⟩
  simp at hx ⊢
  intro h1 h2
  rcases hx with hx | hx
  · exact hx h1
  · exact hx h2

theorem mem_finish (s : State) : (finish s).mem = s.mem := by
  have h : ∀ (l : List Event) (s : State), (each l queueEvent s).mem = s.mem := by
    intro l
    induction l with
    | nil => exact fun _ => rfl
    | cons e l ih =>
      intro s
      rw [each_cons, ih]
      unfold queueEvent
      split
      · rfl
      · simp only [addSat, event, put_mem]
  exact h _ _
theorem host_finish (s : State) : (finish s).host = s.host := (Within.finish s).parts .host (by decide) (by decide)
theorem out_finish (s : State) : (finish s).out = s.out := (Within.finish s).parts .out (by decide) (by decide)
/-- What a notification changes. -/
theorem Within.notify (b p : Nat) (s : State) : Within ⟨[the (R.CMD_NOTIFY p)], [], [], [.out]⟩ s (notify b p s) := by
  refine foot_notify (o_p := some p) Names.one ?_ (.refl _ _)
  simp only [fp_notify, Print.join_cons, Print.join_nil, and_true]
  exact ⟨⟨fun φ m i j => ⟨φ, m, i, j, rfl⟩, nofun, nofun, nofun⟩, ⟨nofun, nofun, nofun, fun q m => m⟩⟩

theorem mem_when_notify (c : Bool) (b p : Nat) (s : State) : (when c (notify b p) s).mem = s.mem := by
  cases c <;> simp
theorem get_when_notify (c : Bool) (b p q : Nat) (s : State) : get (when c (notify b p) s) (R.CMD_CQ_TAIL.TAIL q) = get s (R.CMD_CQ_TAIL.TAIL q) := by
  cases c
  · rfl
  · refine (Within.notify b p s).get ⟨fun φ m i j => ?_, by simp⟩
    simp only [List.mem_singleton] at m
    subst m
    exact key_ne (by simp only [the, R.CMD_NOTIFY, R.CMD_CQ_TAIL.TAIL, portPage]; omega)
theorem host_when_notify (c : Bool) (b p : Nat) (s : State) : (when c (notify b p) s).host = s.host := by
  cases c <;> simp

theorem host_writeBytes (l : List Nat) (s : State) (a : Nat) : (writeBytes a l s).host = s.host := by
  induction l generalizing a s with
  | nil => rfl
  | cons b l ih => exact ih ..
theorem host_writeWord32 (s : State) (a v : Nat) : (writeWord32 a v s).host = s.host := host_writeBytes ..
theorem writeBytes_mem_of (l : List Nat) {s t : State} (h : s.mem = t.mem) (a : Nat) : (writeBytes a l s).mem = (writeBytes a l t).mem := by
  induction l generalizing a s t with
  | nil => exact h
  | cons b l ih => exact ih (by simp only [writeByte, h]) _
theorem writeWord32_mem_of {s t : State} (h : s.mem = t.mem) (a v : Nat) : (writeWord32 a v s).mem = (writeWord32 a v t).mem := writeBytes_mem_of _ h a

theorem tail_put (p v : Nat) (c : Bool) (s : State) : get (finish (when c (notify 0 p) (put (R.CMD_CQ_TAIL.TAIL p) v s))) (R.CMD_CQ_TAIL.TAIL p) = v % 2 ^ 9 := by
  rw [get_finish (key_ne (by simp only [R.REC_LOST.COUNT, R.CMD_CQ_TAIL.TAIL]; omega)) (key_ne (by simp only [R.REC_EVENT, R.CMD_CQ_TAIL.TAIL]; omega)),
    get_when_notify, get_put_self (by nofun)]
  rfl
theorem tail_complete (fl : Flight) (st r0 r1 : Nat) (X : State) (hp : fl.port < 9) :
    get (finish (complete fl st r0 r1 X)) (R.CMD_CQ_TAIL.TAIL fl.port) = (get X (R.CMD_CQ_TAIL.TAIL fl.port) + 1) % 2 ^ 9 := by
  unfold complete writeCompletion
  simp only [hp, if_true]
  rw [tail_put, get_dropFlight]

theorem completed_of {s X : State} (fl : Flight) (st r0 r1 : Nat) (hm : X.mem = s.mem)
    (ht : ∀ p, get X (R.CMD_CQ_TAIL.TAIL p) = get s (R.CMD_CQ_TAIL.TAIL p)) :
    Completed s (finish (complete fl st r0 r1 X)) fl st r0 r1 := by
  by_cases hp : fl.port < 9
  · have hslot : portArea fl.port (0x340000 + 0x10 * (get (dropFlight fl.port fl.tag X) (R.CMD_CQ_TAIL.TAIL fl.port) % 256)) = cqSlot s fl.port := by
      unfold cqSlot
      rw [get_dropFlight, ht]
    have hmem : ∃ Y, Y = (X |> writeWord32 (cqSlot s fl.port) (fl.tag % 2 ^ 16 + st % 2 ^ 8 * 2 ^ 16)
      |> writeWord32 (cqSlot s fl.port + 4) (fl.opcode % 2 ^ 16 + fl.sqIdx % 2 ^ 8 * 2 ^ 16)
      |> writeWord32 (cqSlot s fl.port + 8) (r0 % 2 ^ 32) |> writeWord32 (cqSlot s fl.port + 12) (r1 % 2 ^ 32)) ∧ (finish (complete fl st r0 r1 X)).mem = Y.mem := by
      refine ⟨_, rfl, ?_⟩
      have hd : (dropFlight fl.port fl.tag X).mem = X.mem := rfl
      rw [mem_finish]
      unfold complete writeCompletion
      simp only [hp, if_true, hslot, mem_when_notify, put_mem]
      exact writeWord32_mem_of (writeWord32_mem_of (writeWord32_mem_of (writeWord32_mem_of hd _ _) _ _) _ _) _ _
    obtain ⟨Y, hY, hmem⟩ := hmem
    refine ⟨⟨?_, ?_, ?_⟩, ?_⟩
    · rw [flightOf_of (host_finish _)]
      unfold complete writeCompletion
      simp only [hp, if_true]
      rw [flightOf_of (s := dropFlight fl.port fl.tag X), flightOf_dropFlight]
      rw [host_when_notify, put_host]
      simp only [host_writeWord32]
    · intro _
      have h1 : fl.tag % 2 ^ 16 + st % 2 ^ 8 * 2 ^ 16 < 2 ^ 32 := by omega
      have h2 : fl.opcode % 2 ^ 16 + fl.sqIdx % 2 ^ 8 * 2 ^ 16 < 2 ^ 32 := by omega
      refine ⟨?_, ?_, ?_, ?_, ?_⟩
      · rw [readWord32_of hmem]
        rw [hY]
        rw [readWord32_writeWord32_ne (by omega), readWord32_writeWord32_ne (by omega), readWord32_writeWord32_ne (by omega), readWord32_writeWord32_self, Nat.mod_eq_of_lt h1]
      · rw [readWord32_of hmem]
        rw [hY]
        rw [readWord32_writeWord32_ne (by omega), readWord32_writeWord32_ne (by omega), readWord32_writeWord32_self, Nat.mod_eq_of_lt h2]
      · rw [readWord32_of hmem]
        rw [hY]
        rw [readWord32_writeWord32_ne (by omega), readWord32_writeWord32_self, Nat.mod_mod]
      · rw [readWord32_of hmem]
        rw [hY]
        rw [readWord32_writeWord32_self, Nat.mod_mod]
      · rw [tail_complete fl st r0 r1 X hp, ht]
    · omega
    · intro a ha
      have ha := ha hp
      rw [readByte_of hmem, hY, readByte_writeWord32_ne (by omega), readByte_writeWord32_ne (by omega), readByte_writeWord32_ne (by omega), readByte_writeWord32_ne (by omega), readByte_of hm]
  · have he : finish (complete fl st r0 r1 X) = finish (emit (.fwCompletion fl.tag st (r0 % 2 ^ 32) (r1 % 2 ^ 32)) (dropFlight fl.port fl.tag X)) := by
      simp only [complete, writeCompletion, hp, if_false]
    refine ⟨⟨?_, ?_, ?_⟩, ?_⟩
    · rw [he, flightOf_of (host_finish _), flightOf_of (s := dropFlight fl.port fl.tag X) (t := emit _ _) rfl, flightOf_dropFlight]
    · omega
    · intro _
      rw [he, out_finish]
      simp [emit]
    · intro a _
      rw [he, readByte_of (mem_finish _), readByte_of (s := s)]
      exact hm
end Sys2Proof.Machine
end

