-- ==== Sys2Proof/Laws/FootB.lean ====
section
/-! SUPPORT. Sys2Proof/Laws/FootB.lean: the footprint of each operation and each meaning of Host.lean, Ring.lean, Limits.lean, Clock.lean, Profile.lean, Reset.lean, Stages.lean, Pmbus.lean, Loop.lean, Power.lean, Float.lean, Estimator.lean: what it may change
(`Within`), one lemma each. -/

set_option linter.unusedTactic false
set_option linter.unreachableTactic false

namespace Sys2Proof.Machine

def fp_setHost : Print := .join
  [.prt .host]

theorem foot_setHost {pr : Print} {z s : State} {v : HostH} (hP : fp_setHost.Sub pr) (hk : Within pr z s) :
    Within pr z (setHost v s) := by
  simp only [fp_setHost, Print.join_cons, Print.join_nil, and_true] at hP
  have e0 := hP
  unfold setHost
  iterate 40 (try any_goals first | with_reducible assumption | exact Print.has_prt e0 | exact Or.inr (Print.has_prt (by assumption)) | with_reducible exact Or.inl rfl | with_reducible apply Within.upd)

def fp_setI3c : Print := .join
  [.prt .i3c]

theorem foot_setI3c {pr : Print} {z s : State} {v : I3cH} (hP : fp_setI3c.Sub pr) (hk : Within pr z s) :
    Within pr z (setI3c v s) := by
  simp only [fp_setI3c, Print.join_cons, Print.join_nil, and_true] at hP
  have e0 := hP
  unfold setI3c
  iterate 40 (try any_goals first | with_reducible assumption | exact Print.has_prt e0 | exact Or.inr (Print.has_prt (by assumption)) | with_reducible exact Or.inl rfl | with_reducible apply Within.upd)

def fp_respond : Print := .join
  [.prt .resp]

theorem foot_respond {pr : Print} {z s : State} {p : Nat} {data : Nat} {err : Bool} (hP : fp_respond.Sub pr) (hk : Within pr z s) :
    Within pr z (respond p data err s) := by
  simp only [fp_respond, Print.join_cons, Print.join_nil, and_true] at hP
  have e0 := hP
  unfold respond
  iterate 40 (try any_goals first | with_reducible assumption | exact Print.has_prt e0 | exact Or.inr (Print.has_prt (by assumption)) | with_reducible exact Or.inl rfl | with_reducible apply Within.upd)

def fp_touch : Print := .join
  [.prt .pins]

theorem foot_touch {pr : Print} {z s : State} {p : Nat} (hP : fp_touch.Sub pr) (hk : Within pr z s) :
    Within pr z (touch p s) := by
  simp only [fp_touch, Print.join_cons, Print.join_nil, and_true] at hP
  have e0 := hP
  unfold touch
  iterate 40 (try any_goals first | with_reducible assumption | exact Print.has_prt e0 | exact Or.inr (Print.has_prt (by assumption)) | with_reducible exact Or.inl rfl | with_reducible apply Within.upd)

def fp_noAnswer : Print := .join
  [fp_respond]

theorem foot_noAnswer {pr : Print} {z s : State} {p : Nat} (hP : fp_noAnswer.Sub pr) (hk : Within pr z s) :
    Within pr z (noAnswer p s) := by
  simp only [fp_noAnswer, Print.join_cons, Print.join_nil, and_true] at hP
  have e0 := hP
  unfold noAnswer
  iterate 40 (try any_goals first | with_reducible assumption | with_reducible refine foot_respond e0 ?_)

def fp_effAccessViolation : Print := .join
  [fp_noAnswer,
   fp_touch,
   fp_violation,
   fp_respond]

theorem foot_effAccessViolation {pr : Print} {z s : State} {p : Nat} {off : Nat} {isWrite : Bool} {bytes : Nat} {x_value : Nat} (hP : fp_effAccessViolation.Sub pr) (hk : Within pr z s) :
    Within pr z (effAccessViolation p off isWrite bytes x_value s) := by
  simp only [fp_effAccessViolation, Print.join_cons, Print.join_nil, and_true] at hP
  obtain ⟨e0, e1, e2, e3⟩ := hP
  unfold effAccessViolation
  iterate 40 (try any_goals first | with_reducible assumption | with_reducible refine foot_noAnswer e0 ?_ | with_reducible refine foot_touch e1 ?_ | with_reducible refine foot_violation e2 ?_ | with_reducible refine foot_respond e3 ?_ | (dsimp only) | split)

def fp_execAccessViolation : Print := .join
  [fp_finish,
   fp_effAccessViolation]

theorem foot_execAccessViolation {pr : Print} {z s t : State} {port : Nat} {offset : Nat} {isWrite : Bool} {bytes : Nat} {value : Nat} (hP : fp_execAccessViolation.Sub pr) (hk : Within pr z s)
    (h : execAccessViolation port offset isWrite bytes value s = .next t) : Within pr z t := by
  simp only [fp_execAccessViolation, Print.join_cons, Print.join_nil, and_true] at hP
  obtain ⟨e0, e1⟩ := hP
  unfold execAccessViolation done at h
  injection h with h
  subst h
  iterate 40 (try any_goals first | with_reducible assumption | with_reducible refine foot_finish e0 ?_ | with_reducible refine foot_effAccessViolation e1 ?_)

def fp_rejectValue : Print := .join
  [fp_violation,
   fp_respond]

theorem foot_rejectValue {pr : Print} {z s : State} {p : Nat} {off : Nat} (hP : fp_rejectValue.Sub pr) (hk : Within pr z s) :
    Within pr z (rejectValue p off s) := by
  simp only [fp_rejectValue, Print.join_cons, Print.join_nil, and_true] at hP
  obtain ⟨e0, e1⟩ := hP
  unfold rejectValue
  iterate 40 (try any_goals first | with_reducible assumption | with_reducible refine foot_violation e0 ?_ | with_reducible refine foot_respond e1 ?_ | (dsimp only))

def fp_writeSqTail (p : Option Nat) : Print := .join
  [.reg1 R.CMD_SQ_TAIL.TAIL p,
   fp_respond,
   fp_rejectValue]

theorem foot_writeSqTail {pr : Print} {z s : State} {p : Nat} {value : Nat} {o_p : Option Nat} (n_p : Names o_p p) (hP : (fp_writeSqTail o_p).Sub pr) (hk : Within pr z s) :
    Within pr z (writeSqTail p value s) := by
  simp only [fp_writeSqTail, Print.join_cons, Print.join_nil, and_true] at hP
  obtain ⟨e0, e1, e2⟩ := hP
  unfold writeSqTail
  iterate 40 (try any_goals first | with_reducible assumption | exact Print.has_reg1 n_p e0 | with_reducible apply Print.has_ite | with_reducible refine Within.put _ ?_ ?_ | with_reducible refine foot_respond e1 ?_ | with_reducible refine foot_rejectValue e2 ?_ | (dsimp only) | split)

def fp_writeCqHead (p : Option Nat) : Print := .join
  [.reg1 R.CMD_CQ_HEAD.HEAD p,
   fp_respond,
   fp_rejectValue]

theorem foot_writeCqHead {pr : Print} {z s : State} {p : Nat} {value : Nat} {o_p : Option Nat} (n_p : Names o_p p) (hP : (fp_writeCqHead o_p).Sub pr) (hk : Within pr z s) :
    Within pr z (writeCqHead p value s) := by
  simp only [fp_writeCqHead, Print.join_cons, Print.join_nil, and_true] at hP
  obtain ⟨e0, e1, e2⟩ := hP
  unfold writeCqHead
  iterate 40 (try any_goals first | with_reducible assumption | exact Print.has_reg1 n_p e0 | with_reducible apply Print.has_ite | with_reducible refine Within.put _ ?_ ?_ | with_reducible refine foot_respond e1 ?_ | with_reducible refine foot_rejectValue e2 ?_ | (dsimp only) | split)

def fp_writeEntry : Print := .join
  [.prt .mem,
   .prt .cq,
   fp_rejectValue,
   fp_respond]

theorem foot_writeEntry {pr : Print} {z s : State} {p : Nat} {off : Nat} {value : Nat} (hP : fp_writeEntry.Sub pr) (hk : Within pr z s) :
    Within pr z (writeEntry p off value s) := by
  simp only [fp_writeEntry, Print.join_cons, Print.join_nil, and_true] at hP
  obtain ⟨e0, e1, e2, e3⟩ := hP
  unfold writeEntry
  iterate 40 (try any_goals first | with_reducible assumption | exact Print.has_prt e0 | exact Print.has_prt e1 | with_reducible refine Within.writeWord32 _ _ ?_ ?_ ?_ | with_reducible refine foot_rejectValue e2 ?_ | with_reducible refine foot_respond e3 ?_ | (dsimp only) | split)

def fp_access : Print := .join
  [fp_touch,
   fp_noAnswer]

theorem foot_access {q : Print} {z s : State} {p off : Nat} {f : State → State}
    (hP : fp_access.Sub q) (hf : ∀ t, Within q z t → Within q z (f t)) (hk : Within q z s) : Within q z (access p off f s) := by
  simp only [fp_access, Print.join_cons, Print.join_nil, and_true] at hP
  obtain ⟨e0, e1⟩ := hP
  unfold access
  repeat' first | with_reducible assumption | with_reducible apply hf | with_reducible refine foot_touch e0 ?_ | with_reducible refine foot_noAnswer e1 ?_ | split

def fp_execCmdSqTailWrite (port : Option Nat) : Print := .join
  [fp_finish,
   fp_access,
   fp_writeSqTail port]

theorem foot_execCmdSqTailWrite {pr : Print} {z s t : State} {port : Nat} {value : Nat} {o_port : Option Nat} (n_port : Names o_port port) (hP : (fp_execCmdSqTailWrite o_port).Sub pr) (hk : Within pr z s)
    (h : execCmdSqTailWrite port value s = .next t) : Within pr z t := by
  simp only [fp_execCmdSqTailWrite, Print.join_cons, Print.join_nil, and_true] at hP
  obtain ⟨e0, e1, e2⟩ := hP
  unfold execCmdSqTailWrite done at h
  injection h with h
  subst h
  iterate 40 (try any_goals first | with_reducible assumption | with_reducible refine foot_finish e0 ?_ | with_reducible refine foot_access e1 ?_ ?_ | with_reducible refine foot_writeSqTail n_port e2 ?_ | intro _)

def fp_execCmdCqHeadWrite (port : Option Nat) : Print := .join
  [fp_finish,
   fp_access,
   fp_writeCqHead port]

theorem foot_execCmdCqHeadWrite {pr : Print} {z s t : State} {port : Nat} {value : Nat} {o_port : Option Nat} (n_port : Names o_port port) (hP : (fp_execCmdCqHeadWrite o_port).Sub pr) (hk : Within pr z s)
    (h : execCmdCqHeadWrite port value s = .next t) : Within pr z t := by
  simp only [fp_execCmdCqHeadWrite, Print.join_cons, Print.join_nil, and_true] at hP
  obtain ⟨e0, e1, e2⟩ := hP
  unfold execCmdCqHeadWrite done at h
  injection h with h
  subst h
  iterate 40 (try any_goals first | with_reducible assumption | with_reducible refine foot_finish e0 ?_ | with_reducible refine foot_access e1 ?_ ?_ | with_reducible refine foot_writeCqHead n_port e2 ?_ | intro _)

def fp_enrol : Print := .join
  [.reg1 R.CMD_CNT.BUSY none,
   .reg1 R.CMD_CNT.REJ none,
   fp_setHost,
   fp_violation,
   fp_writeCompletion none]

theorem foot_enrol {pr : Print} {z s : State} {fl : Flight} {w : List Nat} (hP : fp_enrol.Sub pr) (hk : Within pr z s) :
    Within pr z (enrol fl w s) := by
  simp only [fp_enrol, Print.join_cons, Print.join_nil, and_true] at hP
  obtain ⟨e0, e1, e2, e3, e4⟩ := hP
  unfold enrol
  iterate 40 (try any_goals first | with_reducible assumption | exact Print.has_reg1 Names.any e0 | exact Print.has_reg1 Names.any e1 | with_reducible apply Print.has_ite | with_reducible refine Within.addSat _ ?_ ?_ | with_reducible refine foot_setHost e2 ?_ | with_reducible refine foot_violation e3 ?_ | with_reducible refine foot_writeCompletion Names.any e4 ?_ | with_reducible refine Within.when ?_ ?_ | exact Or.inr (Print.has_prt (by assumption)) | with_reducible exact Or.inl rfl | intro _ | (dsimp only) | split | with_reducible apply Within.upd)

def fp_effCommandFetch : Print := .join
  [.reg1 R.CMD_SQ_HEAD.HEAD none,
   fp_enrol]

theorem foot_effCommandFetch {pr : Print} {z s : State} {p : Nat} {packet : List Nat} (hP : fp_effCommandFetch.Sub pr) (hk : Within pr z s) :
    Within pr z (effCommandFetch p packet s) := by
  simp only [fp_effCommandFetch, Print.join_cons, Print.join_nil, and_true] at hP
  obtain ⟨e0, e1⟩ := hP
  unfold effCommandFetch
  iterate 40 (try any_goals first | with_reducible assumption | exact Print.has_reg1 Names.any e0 | with_reducible apply Print.has_ite | with_reducible refine Within.put _ ?_ ?_ | with_reducible refine foot_enrol e1 ?_ | intro _ | (dsimp only) | split)

def fp_execCommandFetch : Print := .join
  [fp_finish,
   fp_effCommandFetch]

theorem foot_execCommandFetch {pr : Print} {z s t : State} {port : Nat} {packet : List Nat} (hP : fp_execCommandFetch.Sub pr) (hk : Within pr z s)
    (h : execCommandFetch port packet s = .next t) : Within pr z t := by
  simp only [fp_execCommandFetch, Print.join_cons, Print.join_nil, and_true] at hP
  obtain ⟨e0, e1⟩ := hP
  unfold execCommandFetch done at h
  injection h with h
  subst h
  iterate 40 (try any_goals first | with_reducible assumption | with_reducible refine foot_finish e0 ?_ | with_reducible refine foot_effCommandFetch e1 ?_)

def fp_execNegotiate : Print := .join
  [.reg1 R.CMD_VER.CUR none,
   fp_finish,
   fp_command,
   fp_complete]

theorem foot_execNegotiate {pr : Print} {z s t : State} {port : Nat} {tag : Nat} (hP : fp_execNegotiate.Sub pr) (hk : Within pr z s)
    (h : execNegotiate port tag s = .next t) : Within pr z t := by
  simp only [fp_execNegotiate, Print.join_cons, Print.join_nil, and_true] at hP
  obtain ⟨e0, e1, e2, e3⟩ := hP
  unfold execNegotiate done at h
  injection h with h
  subst h
  iterate 40 (try any_goals first | with_reducible assumption | exact Print.has_reg1 Names.any e0 | with_reducible apply Print.has_ite | with_reducible refine Within.put _ ?_ ?_ | with_reducible refine foot_finish e1 ?_ | with_reducible refine foot_command e2 ?_ ?_ | with_reducible refine foot_complete e3 ?_ | intro _ | (dsimp only) | split)

def fp_execViolClear : Print := .join
  [.reg1 R.CMD_VIOL.OFS none,
   .reg1 R.CMD_VIOL.PORT none,
   .reg1 R.CMD_VIOL.KIND none,
   .reg1 R.CMD_VIOL.OPCODE none,
   .reg1 R.CMD_VIOL.STATUS none,
   .reg1 R.CMD_VIOL.REPEAT none,
   .reg1 R.CMD_VIOL.TIME none,
   .reg R.CMD_VIOL_STAT.COUNT,
   .reg R.CMD_VIOL_STAT.LOST,
   fp_finish,
   fp_command,
   fp_complete]

theorem foot_execViolClear {pr : Print} {z s t : State} {port : Nat} {tag : Nat} (hP : fp_execViolClear.Sub pr) (hk : Within pr z s)
    (h : execViolClear port tag s = .next t) : Within pr z t := by
  simp only [fp_execViolClear, Print.join_cons, Print.join_nil, and_true] at hP
  obtain ⟨e0, e1, e2, e3, e4, e5, e6, hP⟩ := hP
  obtain ⟨e7, e8, e9, e10, e11⟩ := hP
  unfold execViolClear done at h
  injection h with h
  subst h
  iterate 40 (try any_goals first | with_reducible assumption | exact Print.has_reg1 Names.any e0 | exact Print.has_reg1 Names.any e1 | exact Print.has_reg1 Names.any e2 | exact Print.has_reg1 Names.any e3 | exact Print.has_reg1 Names.any e4 | exact Print.has_reg1 Names.any e5 | exact Print.has_reg1 Names.any e6 | exact Print.has_reg e7 | exact Print.has_reg e8 | with_reducible apply Print.has_ite | with_reducible refine Within.put _ ?_ ?_ | with_reducible refine foot_finish e9 ?_ | with_reducible refine foot_command e10 ?_ ?_ | with_reducible refine foot_complete e11 ?_ | with_reducible refine Within.each ?_ ?_ | intro _ | (dsimp only))

def fp_execLockForce : Print := .join
  [.reg1 R.LCK.OWNER none,
   fp_finish,
   fp_command,
   fp_record,
   fp_complete]

theorem foot_execLockForce {pr : Print} {z s t : State} {port : Nat} {tag : Nat} (hP : fp_execLockForce.Sub pr) (hk : Within pr z s)
    (h : execLockForce port tag s = .next t) : Within pr z t := by
  simp only [fp_execLockForce, Print.join_cons, Print.join_nil, and_true] at hP
  obtain ⟨e0, e1, e2, e3, e4⟩ := hP
  unfold execLockForce done at h
  injection h with h
  subst h
  iterate 40 (try any_goals first | with_reducible assumption | exact Print.has_reg1 Names.any e0 | with_reducible apply Print.has_ite | with_reducible refine Within.put _ ?_ ?_ | with_reducible refine foot_finish e1 ?_ | with_reducible refine foot_command e2 ?_ ?_ | with_reducible refine foot_record e3 ?_ | with_reducible refine foot_complete e4 ?_ | intro _ | (dsimp only))

def fp_mbxArrive (dst : Option Nat) : Print := .join
  [.reg1 R.MBX_EVENT dst,
   .prt .out,
   .prt .pins,
   fp_setHost,
   fp_notify dst,
   fp_setI3c]

theorem foot_mbxArrive {pr : Print} {z s : State} {dst : Nat} {entry : Nat} {o_dst : Option Nat} (n_dst : Names o_dst dst) (hP : (fp_mbxArrive o_dst).Sub pr) (hk : Within pr z s) :
    Within pr z (mbxArrive dst entry s) := by
  simp only [fp_mbxArrive, Print.join_cons, Print.join_nil, and_true] at hP
  obtain ⟨e0, e1, e2, e3, e4, e5⟩ := hP
  unfold mbxArrive
  iterate 40 (try any_goals first | with_reducible assumption | exact Print.has_reg1 n_dst e0 | exact Print.has_prt e1 | exact Print.has_prt e2 | with_reducible apply Print.has_ite | with_reducible refine Within.event _ ?_ ?_ | with_reducible refine Within.emit _ ?_ ?_ | with_reducible refine foot_setHost e3 ?_ | with_reducible refine foot_notify n_dst e4 ?_ | with_reducible refine foot_setI3c e5 ?_ | exact Or.inr (Print.has_prt (by assumption)) | with_reducible exact Or.inl rfl | intro _ | (dsimp only) | split | with_reducible apply Within.upd)

def fp_mbxMove (dst : Option Nat) : Print := .join
  [fp_setHost,
   fp_mbxArrive dst]

theorem foot_mbxMove {pr : Print} {z s : State} {dst : Nat} {o_dst : Option Nat} (n_dst : Names o_dst dst) (hP : (fp_mbxMove o_dst).Sub pr) (hk : Within pr z s) :
    Within pr z (mbxMove dst s) := by
  simp only [fp_mbxMove, Print.join_cons, Print.join_nil, and_true] at hP
  obtain ⟨e0, e1⟩ := hP
  unfold mbxMove
  iterate 40 (try any_goals first | with_reducible assumption | with_reducible refine foot_setHost e0 ?_ | with_reducible refine foot_mbxArrive n_dst e1 ?_ | exact Or.inr (Print.has_prt (by assumption)) | with_reducible exact Or.inl rfl | intro _ | (dsimp only) | split | with_reducible apply Within.upd)

def fp_effMbxForward (dst : Option Nat) : Print := .join
  [fp_mbxMove dst]

theorem foot_effMbxForward {pr : Print} {z s : State} {dst : Nat} {o_dst : Option Nat} (n_dst : Names o_dst dst) (hP : (fp_effMbxForward o_dst).Sub pr) (hk : Within pr z s) :
    Within pr z (effMbxForward dst s) := by
  simp only [fp_effMbxForward, Print.join_cons, Print.join_nil, and_true] at hP
  have e0 := hP
  unfold effMbxForward
  iterate 40 (try any_goals first | with_reducible assumption | with_reducible refine foot_mbxMove n_dst e0 ?_ | with_reducible refine Within.each ?_ ?_ | intro _ | (dsimp only) | split)

def fp_execMbxForward (dst : Option Nat) : Print := .join
  [fp_finish,
   fp_effMbxForward dst]

theorem foot_execMbxForward {pr : Print} {z s t : State} {dst : Nat} {o_dst : Option Nat} (n_dst : Names o_dst dst) (hP : (fp_execMbxForward o_dst).Sub pr) (hk : Within pr z s)
    (h : execMbxForward dst s = .next t) : Within pr z t := by
  simp only [fp_execMbxForward, Print.join_cons, Print.join_nil, and_true] at hP
  obtain ⟨e0, e1⟩ := hP
  unfold execMbxForward done at h
  injection h with h
  subst h
  iterate 40 (try any_goals first | with_reducible assumption | with_reducible refine foot_finish e0 ?_ | with_reducible refine foot_effMbxForward n_dst e1 ?_)

def fp_mbxSendTo (p : Option Nat) : Print := .join
  [.reg1 R.MBX_EVENT p,
   fp_violation,
   fp_respond,
   fp_effMbxForward none,
   fp_mbxArrive none,
   fp_setHost]

theorem foot_mbxSendTo {pr : Print} {z s : State} {p : Nat} {value : Nat} {o_p : Option Nat} (n_p : Names o_p p) (hP : (fp_mbxSendTo o_p).Sub pr) (hk : Within pr z s) :
    Within pr z (mbxSendTo p value s) := by
  simp only [fp_mbxSendTo, Print.join_cons, Print.join_nil, and_true] at hP
  obtain ⟨e0, e1, e2, e3, e4, e5⟩ := hP
  unfold mbxSendTo
  iterate 40 (try any_goals first | with_reducible assumption | exact Print.has_reg1 n_p e0 | with_reducible apply Print.has_ite | with_reducible refine Within.event _ ?_ ?_ | with_reducible refine foot_violation e1 ?_ | with_reducible refine foot_respond e2 ?_ | with_reducible refine foot_effMbxForward Names.any e3 ?_ | with_reducible refine foot_mbxArrive Names.any e4 ?_ | with_reducible refine foot_setHost e5 ?_ | exact Or.inr (Print.has_prt (by assumption)) | with_reducible exact Or.inl rfl | (dsimp only) | split | with_reducible apply Within.upd)

def fp_execMbxSend (port : Option Nat) : Print := .join
  [fp_finish,
   fp_access,
   fp_mbxSendTo port]

theorem foot_execMbxSend {pr : Print} {z s t : State} {port : Nat} {value : Nat} {o_port : Option Nat} (n_port : Names o_port port) (hP : (fp_execMbxSend o_port).Sub pr) (hk : Within pr z s)
    (h : execMbxSend port value s = .next t) : Within pr z t := by
  simp only [fp_execMbxSend, Print.join_cons, Print.join_nil, and_true] at hP
  obtain ⟨e0, e1, e2⟩ := hP
  unfold execMbxSend done at h
  injection h with h
  subst h
  iterate 40 (try any_goals first | with_reducible assumption | with_reducible refine foot_finish e0 ?_ | with_reducible refine foot_access e1 ?_ ?_ | with_reducible refine foot_mbxSendTo n_port e2 ?_ | intro _)

def fp_latch : Print := .join
  [fp_setHost]

theorem foot_latch {pr : Print} {z s : State} {p : Nat} {off : Nat} {v : Nat} (hP : fp_latch.Sub pr) (hk : Within pr z s) :
    Within pr z (latch p off v s) := by
  simp only [fp_latch, Print.join_cons, Print.join_nil, and_true] at hP
  have e0 := hP
  unfold latch
  iterate 40 (try any_goals first | with_reducible assumption | with_reducible refine foot_setHost e0 ?_ | exact Or.inr (Print.has_prt (by assumption)) | with_reducible exact Or.inl rfl | with_reducible apply Within.upd)

def fp_readMbx : Print := .join
  [fp_setHost,
   fp_latch]

theorem foot_readMbx {q : Print} {z s : State} {p : Nat} (hP : fp_readMbx.Sub q) (hk : Within q z s) : Within q z (readMbx p s).2 := by
  simp only [fp_readMbx, Print.join_cons, Print.join_nil, and_true] at hP
  obtain ⟨e0, e1⟩ := hP
  unfold readMbx
  split
  · first | exact foot_latch e0 (foot_setHost e1 hk) | exact foot_latch e1 (foot_setHost e0 hk)
  · first | exact foot_latch e0 hk | exact foot_latch e1 hk

def fp_execMbxRecv : Print := .join
  [fp_finish,
   fp_access,
   fp_respond,
   fp_readMbx]

theorem foot_execMbxRecv {pr : Print} {z s t : State} {port : Nat} (hP : fp_execMbxRecv.Sub pr) (hk : Within pr z s)
    (h : execMbxRecv port s = .next t) : Within pr z t := by
  simp only [fp_execMbxRecv, Print.join_cons, Print.join_nil, and_true] at hP
  obtain ⟨e0, e1, e2, e3⟩ := hP
  unfold execMbxRecv done at h
  injection h with h
  subst h
  iterate 40 (try any_goals first | with_reducible assumption | with_reducible refine foot_finish e0 ?_ | with_reducible refine foot_access e1 ?_ ?_ | with_reducible refine foot_respond e2 ?_ | with_reducible refine foot_readMbx e3 ?_ | intro _ | (dsimp only))

def fp_writeNotifyEn (p : Option Nat) : Print := .join
  [.reg1 R.CMD_NOTIFY_EN.EN p,
   .prt .out,
   fp_respond]

theorem foot_writeNotifyEn {pr : Print} {z s : State} {p : Nat} {value : Nat} {o_p : Option Nat} (n_p : Names o_p p) (hP : (fp_writeNotifyEn o_p).Sub pr) (hk : Within pr z s) :
    Within pr z (writeNotifyEn p value s) := by
  simp only [fp_writeNotifyEn, Print.join_cons, Print.join_nil, and_true] at hP
  obtain ⟨e0, e1, e2⟩ := hP
  unfold writeNotifyEn
  iterate 40 (try any_goals first | with_reducible assumption | exact Print.has_reg1 n_p e0 | exact Print.has_prt e1 | with_reducible apply Print.has_ite | with_reducible refine Within.put _ ?_ ?_ | with_reducible refine Within.emit _ ?_ ?_ | with_reducible refine foot_respond e2 ?_ | with_reducible refine Within.when ?_ ?_ | intro _ | (dsimp only) | split)

def fp_execNotifyEnableWrite (port : Option Nat) : Print := .join
  [fp_finish,
   fp_access,
   fp_writeNotifyEn port]

theorem foot_execNotifyEnableWrite {pr : Print} {z s t : State} {port : Nat} {value : Nat} {o_port : Option Nat} (n_port : Names o_port port) (hP : (fp_execNotifyEnableWrite o_port).Sub pr) (hk : Within pr z s)
    (h : execNotifyEnableWrite port value s = .next t) : Within pr z t := by
  simp only [fp_execNotifyEnableWrite, Print.join_cons, Print.join_nil, and_true] at hP
  obtain ⟨e0, e1, e2⟩ := hP
  unfold execNotifyEnableWrite done at h
  injection h with h
  subst h
  iterate 40 (try any_goals first | with_reducible assumption | with_reducible refine foot_finish e0 ?_ | with_reducible refine foot_access e1 ?_ ?_ | with_reducible refine foot_writeNotifyEn n_port e2 ?_ | intro _ | split)

def fp_effLockRead (n : Option Nat) : Print := .join
  [.reg1 R.LCK.OWNER n,
   .prt .resp,
   fp_touch]

theorem foot_effLockRead {pr : Print} {z s : State} {n : Nat} {ports : List Nat} {o_n : Option Nat} (n_n : Names o_n n) (hP : (fp_effLockRead o_n).Sub pr) (hk : Within pr z s) :
    Within pr z (effLockRead n ports s) := by
  simp only [fp_effLockRead, Print.join_cons, Print.join_nil, and_true] at hP
  obtain ⟨e0, e1, e2⟩ := hP
  unfold effLockRead
  iterate 40 (try any_goals first | with_reducible assumption | exact Print.has_reg1 n_n e0 | exact Print.has_prt e1 | with_reducible apply Print.has_ite | with_reducible refine Within.put _ ?_ ?_ | with_reducible refine foot_touch e2 ?_ | with_reducible refine Within.each ?_ ?_ | exact Or.inr (Print.has_prt (by assumption)) | with_reducible exact Or.inl rfl | intro _ | (dsimp only) | split | with_reducible apply Within.upd)

def fp_execLockRead (lock : Option Nat) : Print := .join
  [fp_finish,
   fp_effLockRead lock]

theorem foot_execLockRead {pr : Print} {z s t : State} {lock : Nat} {ports : List Nat} {o_lock : Option Nat} (n_lock : Names o_lock lock) (hP : (fp_execLockRead o_lock).Sub pr) (hk : Within pr z s)
    (h : execLockRead lock ports s = .next t) : Within pr z t := by
  simp only [fp_execLockRead, Print.join_cons, Print.join_nil, and_true] at hP
  obtain ⟨e0, e1⟩ := hP
  unfold execLockRead done at h
  injection h with h
  subst h
  iterate 40 (try any_goals first | with_reducible assumption | with_reducible refine foot_finish e0 ?_ | with_reducible refine foot_effLockRead n_lock e1 ?_)

def fp_writeLock (n : Option Nat) : Print := .join
  [.reg1 R.LCK.OWNER n,
   fp_respond,
   fp_violation]

theorem foot_writeLock {pr : Print} {z s : State} {p : Nat} {n : Nat} {value : Nat} {o_n : Option Nat} (n_n : Names o_n n) (hP : (fp_writeLock o_n).Sub pr) (hk : Within pr z s) :
    Within pr z (writeLock p n value s) := by
  simp only [fp_writeLock, Print.join_cons, Print.join_nil, and_true] at hP
  obtain ⟨e0, e1, e2⟩ := hP
  unfold writeLock
  iterate 40 (try any_goals first | with_reducible assumption | exact Print.has_reg1 n_n e0 | with_reducible apply Print.has_ite | with_reducible refine Within.put _ ?_ ?_ | with_reducible refine foot_respond e1 ?_ | with_reducible refine foot_violation e2 ?_ | (dsimp only) | split)

def fp_execLockRelease (lock : Option Nat) : Print := .join
  [fp_finish,
   fp_access,
   fp_writeLock lock]

theorem foot_execLockRelease {pr : Print} {z s t : State} {port : Nat} {lock : Nat} {value : Nat} {o_lock : Option Nat} (n_lock : Names o_lock lock) (hP : (fp_execLockRelease o_lock).Sub pr) (hk : Within pr z s)
    (h : execLockRelease port lock value s = .next t) : Within pr z t := by
  simp only [fp_execLockRelease, Print.join_cons, Print.join_nil, and_true] at hP
  obtain ⟨e0, e1, e2⟩ := hP
  unfold execLockRelease done at h
  injection h with h
  subst h
  iterate 40 (try any_goals first | with_reducible assumption | with_reducible refine foot_finish e0 ?_ | with_reducible refine foot_access e1 ?_ ?_ | with_reducible refine foot_writeLock n_lock e2 ?_ | intro _ | split)

def fp_readAccess : Print := .join
  [.reg1 R.LCK.OWNER none,
   fp_readMbx,
   fp_latch,
   fp_setHost]

theorem foot_readAccess {q : Print} {z s : State} {p off : Nat} (hP : fp_readAccess.Sub q) (hk : Within q z s) :
    Within q z (readAccess p off s).2 := by
  simp only [fp_readAccess, Print.join_cons, Print.join_nil, and_true] at hP
  obtain ⟨e0, e1, e2, e3⟩ := hP
  unfold readAccess
  dsimp only
  repeat' first | with_reducible assumption | with_reducible refine foot_readMbx (by assumption) ?_ | with_reducible refine Within.put _ ?_ ?_ | exact Print.has_reg1 Names.any e0 | with_reducible refine foot_latch (by assumption) ?_ | with_reducible refine foot_setHost (by assumption) ?_ | split | fail_if_no_progress dsimp only

def fp_effRead : Print := .join
  [fp_access,
   fp_violation,
   fp_respond,
   fp_readAccess]

theorem foot_effRead {pr : Print} {z s : State} {p : Nat} {off : Nat} (hP : fp_effRead.Sub pr) (hk : Within pr z s) :
    Within pr z (effRead p off s) := by
  simp only [fp_effRead, Print.join_cons, Print.join_nil, and_true] at hP
  obtain ⟨e0, e1, e2, e3⟩ := hP
  unfold effRead
  iterate 40 (try any_goals first | with_reducible assumption | with_reducible refine foot_access e0 ?_ ?_ | with_reducible refine foot_violation e1 ?_ | with_reducible refine foot_respond e2 ?_ | with_reducible refine foot_readAccess e3 ?_ | intro _ | (dsimp only) | split)

def fp_execHighWordLatch : Print := .join
  [fp_finish,
   fp_effRead]

theorem foot_execHighWordLatch {pr : Print} {z s t : State} {port : Nat} {offset : Nat} (hP : fp_execHighWordLatch.Sub pr) (hk : Within pr z s)
    (h : execHighWordLatch port offset s = .next t) : Within pr z t := by
  simp only [fp_execHighWordLatch, Print.join_cons, Print.join_nil, and_true] at hP
  obtain ⟨e0, e1⟩ := hP
  unfold execHighWordLatch done at h
  injection h with h
  subst h
  iterate 40 (try any_goals first | with_reducible assumption | with_reducible refine foot_finish e0 ?_ | with_reducible refine foot_effRead e1 ?_)

def fp_execRecordReadLatch : Print := .join
  [fp_finish,
   fp_effRead]

theorem foot_execRecordReadLatch {pr : Print} {z s t : State} {port : Nat} {offset : Nat} (hP : fp_execRecordReadLatch.Sub pr) (hk : Within pr z s)
    (h : execRecordReadLatch port offset s = .next t) : Within pr z t := by
  simp only [fp_execRecordReadLatch, Print.join_cons, Print.join_nil, and_true] at hP
  obtain ⟨e0, e1⟩ := hP
  unfold execRecordReadLatch done at h
  injection h with h
  subst h
  iterate 40 (try any_goals first | with_reducible assumption | with_reducible refine foot_finish e0 ?_ | with_reducible refine foot_effRead e1 ?_)

def fp_i3cGet : Print := .join
  [.prt .out]

theorem foot_i3cGet {pr : Print} {z s : State} {b : List Nat} (hP : fp_i3cGet.Sub pr) (hk : Within pr z s) :
    Within pr z (i3cGet b s) := by
  simp only [fp_i3cGet, Print.join_cons, Print.join_nil, and_true] at hP
  have e0 := hP
  unfold i3cGet
  iterate 40 (try any_goals first | with_reducible assumption | exact Print.has_prt e0 | with_reducible refine Within.emit _ ?_ ?_ | split)

def fp_execEntdaa : Print := .join
  [.prt .out,
   fp_finish,
   fp_setI3c]

theorem foot_execEntdaa {pr : Print} {z s t : State} {address : Nat} (hP : fp_execEntdaa.Sub pr) (hk : Within pr z s)
    (h : execEntdaa address s = .next t) : Within pr z t := by
  simp only [fp_execEntdaa, Print.join_cons, Print.join_nil, and_true] at hP
  obtain ⟨e0, e1, e2⟩ := hP
  unfold execEntdaa done at h
  injection h with h
  subst h
  iterate 40 (try any_goals first | with_reducible assumption | exact Print.has_prt e0 | with_reducible refine Within.emit _ ?_ ?_ | with_reducible refine foot_finish e1 ?_ | with_reducible refine foot_setI3c e2 ?_ | exact Or.inr (Print.has_prt (by assumption)) | with_reducible exact Or.inl rfl | (dsimp only) | split | with_reducible apply Within.upd)

def fp_execRstdaa : Print := .join
  [fp_finish,
   fp_setI3c]

theorem foot_execRstdaa {pr : Print} {z s t : State} (hP : fp_execRstdaa.Sub pr) (hk : Within pr z s)
    (h : execRstdaa s = .next t) : Within pr z t := by
  simp only [fp_execRstdaa, Print.join_cons, Print.join_nil, and_true] at hP
  obtain ⟨e0, e1⟩ := hP
  unfold execRstdaa done at h
  injection h with h
  subst h
  iterate 40 (try any_goals first | with_reducible assumption | with_reducible refine foot_finish e0 ?_ | with_reducible refine foot_setI3c e1 ?_ | exact Or.inr (Print.has_prt (by assumption)) | with_reducible exact Or.inl rfl | split | with_reducible apply Within.upd)

def fp_effEnec : Print := .join
  [.prt .out,
   fp_setI3c]

theorem foot_effEnec {pr : Print} {z s : State} {events : Nat} (hP : fp_effEnec.Sub pr) (hk : Within pr z s) :
    Within pr z (effEnec events s) := by
  simp only [fp_effEnec, Print.join_cons, Print.join_nil, and_true] at hP
  obtain ⟨e0, e1⟩ := hP
  unfold effEnec
  iterate 40 (try any_goals first | with_reducible assumption | exact Print.has_prt e0 | with_reducible refine Within.emit _ ?_ ?_ | with_reducible refine foot_setI3c e1 ?_ | exact Or.inr (Print.has_prt (by assumption)) | with_reducible exact Or.inl rfl | (dsimp only) | split | with_reducible apply Within.upd)

def fp_execEnec : Print := .join
  [fp_finish,
   fp_effEnec]

theorem foot_execEnec {pr : Print} {z s t : State} {events : Nat} (hP : fp_execEnec.Sub pr) (hk : Within pr z s)
    (h : execEnec events s = .next t) : Within pr z t := by
  simp only [fp_execEnec, Print.join_cons, Print.join_nil, and_true] at hP
  obtain ⟨e0, e1⟩ := hP
  unfold execEnec done at h
  injection h with h
  subst h
  iterate 40 (try any_goals first | with_reducible assumption | with_reducible refine foot_finish e0 ?_ | with_reducible refine foot_effEnec e1 ?_)

def fp_execDisec : Print := .join
  [fp_finish,
   fp_setI3c]

theorem foot_execDisec {pr : Print} {z s t : State} {events : Nat} (hP : fp_execDisec.Sub pr) (hk : Within pr z s)
    (h : execDisec events s = .next t) : Within pr z t := by
  simp only [fp_execDisec, Print.join_cons, Print.join_nil, and_true] at hP
  obtain ⟨e0, e1⟩ := hP
  unfold execDisec done at h
  injection h with h
  subst h
  iterate 40 (try any_goals first | with_reducible assumption | with_reducible refine foot_finish e0 ?_ | with_reducible refine foot_setI3c e1 ?_ | exact Or.inr (Print.has_prt (by assumption)) | with_reducible exact Or.inl rfl | split | with_reducible apply Within.upd)

def fp_execSetmwl : Print := .join
  [fp_finish,
   fp_setI3c]

theorem foot_execSetmwl {pr : Print} {z s t : State} {length : Nat} (hP : fp_execSetmwl.Sub pr) (hk : Within pr z s)
    (h : execSetmwl length s = .next t) : Within pr z t := by
  simp only [fp_execSetmwl, Print.join_cons, Print.join_nil, and_true] at hP
  obtain ⟨e0, e1⟩ := hP
  unfold execSetmwl done at h
  injection h with h
  subst h
  iterate 40 (try any_goals first | with_reducible assumption | with_reducible refine foot_finish e0 ?_ | with_reducible refine foot_setI3c e1 ?_ | exact Or.inr (Print.has_prt (by assumption)) | with_reducible exact Or.inl rfl | split | with_reducible apply Within.upd)

def fp_execSetmrl : Print := .join
  [fp_finish,
   fp_setI3c]

theorem foot_execSetmrl {pr : Print} {z s t : State} {length : Nat} (hP : fp_execSetmrl.Sub pr) (hk : Within pr z s)
    (h : execSetmrl length s = .next t) : Within pr z t := by
  simp only [fp_execSetmrl, Print.join_cons, Print.join_nil, and_true] at hP
  obtain ⟨e0, e1⟩ := hP
  unfold execSetmrl done at h
  injection h with h
  subst h
  iterate 40 (try any_goals first | with_reducible assumption | with_reducible refine foot_finish e0 ?_ | with_reducible refine foot_setI3c e1 ?_ | exact Or.inr (Print.has_prt (by assumption)) | with_reducible exact Or.inl rfl | split | with_reducible apply Within.upd)

def fp_execGetpid : Print := .join
  [fp_finish,
   fp_i3cGet]

theorem foot_execGetpid {pr : Print} {z s t : State} (hP : fp_execGetpid.Sub pr) (hk : Within pr z s)
    (h : execGetpid s = .next t) : Within pr z t := by
  simp only [fp_execGetpid, Print.join_cons, Print.join_nil, and_true] at hP
  obtain ⟨e0, e1⟩ := hP
  unfold execGetpid done at h
  injection h with h
  subst h
  iterate 40 (try any_goals first | with_reducible assumption | with_reducible refine foot_finish e0 ?_ | with_reducible refine foot_i3cGet e1 ?_)

def fp_execGetbcr : Print := .join
  [fp_finish,
   fp_i3cGet]

theorem foot_execGetbcr {pr : Print} {z s t : State} (hP : fp_execGetbcr.Sub pr) (hk : Within pr z s)
    (h : execGetbcr s = .next t) : Within pr z t := by
  simp only [fp_execGetbcr, Print.join_cons, Print.join_nil, and_true] at hP
  obtain ⟨e0, e1⟩ := hP
  unfold execGetbcr done at h
  injection h with h
  subst h
  iterate 40 (try any_goals first | with_reducible assumption | with_reducible refine foot_finish e0 ?_ | with_reducible refine foot_i3cGet e1 ?_)

def fp_execGetdcr : Print := .join
  [fp_finish,
   fp_i3cGet]

theorem foot_execGetdcr {pr : Print} {z s t : State} (hP : fp_execGetdcr.Sub pr) (hk : Within pr z s)
    (h : execGetdcr s = .next t) : Within pr z t := by
  simp only [fp_execGetdcr, Print.join_cons, Print.join_nil, and_true] at hP
  obtain ⟨e0, e1⟩ := hP
  unfold execGetdcr done at h
  injection h with h
  subst h
  iterate 40 (try any_goals first | with_reducible assumption | with_reducible refine foot_finish e0 ?_ | with_reducible refine foot_i3cGet e1 ?_)

def fp_execGetstatus : Print := .join
  [fp_finish,
   fp_i3cGet]

theorem foot_execGetstatus {pr : Print} {z s t : State} (hP : fp_execGetstatus.Sub pr) (hk : Within pr z s)
    (h : execGetstatus s = .next t) : Within pr z t := by
  simp only [fp_execGetstatus, Print.join_cons, Print.join_nil, and_true] at hP
  obtain ⟨e0, e1⟩ := hP
  unfold execGetstatus done at h
  injection h with h
  subst h
  iterate 40 (try any_goals first | with_reducible assumption | with_reducible refine foot_finish e0 ?_ | with_reducible refine foot_i3cGet e1 ?_)

def fp_execGetmwl : Print := .join
  [fp_finish,
   fp_i3cGet]

theorem foot_execGetmwl {pr : Print} {z s t : State} (hP : fp_execGetmwl.Sub pr) (hk : Within pr z s)
    (h : execGetmwl s = .next t) : Within pr z t := by
  simp only [fp_execGetmwl, Print.join_cons, Print.join_nil, and_true] at hP
  obtain ⟨e0, e1⟩ := hP
  unfold execGetmwl done at h
  injection h with h
  subst h
  iterate 40 (try any_goals first | with_reducible assumption | with_reducible refine foot_finish e0 ?_ | with_reducible refine foot_i3cGet e1 ?_)

def fp_execGetmrl : Print := .join
  [fp_finish,
   fp_i3cGet]

theorem foot_execGetmrl {pr : Print} {z s t : State} (hP : fp_execGetmrl.Sub pr) (hk : Within pr z s)
    (h : execGetmrl s = .next t) : Within pr z t := by
  simp only [fp_execGetmrl, Print.join_cons, Print.join_nil, and_true] at hP
  obtain ⟨e0, e1⟩ := hP
  unfold execGetmrl done at h
  injection h with h
  subst h
  iterate 40 (try any_goals first | with_reducible assumption | with_reducible refine foot_finish e0 ?_ | with_reducible refine foot_i3cGet e1 ?_)

def fp_effI3cRead : Print := .join
  [.prt .out,
   fp_effRead,
   fp_setI3c]

theorem foot_effI3cRead {p : Print} {z s : State} {n : Nat} (hP : fp_effI3cRead.Sub p) (hk : Within p z s) : Within p z (effI3cRead n s) := by
  induction n generalizing s with
  | zero => exact hk
  | succ n ih =>
    have hP' := hP
    simp only [fp_effI3cRead, Print.join_cons, Print.join_nil, and_true] at hP'
    obtain ⟨e0, e1, e2⟩ := hP'
    refine ih ?_
    repeat' first | with_reducible assumption | with_reducible refine foot_setI3c (by assumption) ?_ | with_reducible refine Within.emit _ (Print.has_prt (by assumption)) ?_ | with_reducible refine foot_effRead Names.one (by assumption) ?_ | with_reducible refine foot_effRead (by assumption) ?_

def fp_execI3cPrivateRead : Print := .join
  [fp_finish,
   fp_effI3cRead]

theorem foot_execI3cPrivateRead {pr : Print} {z s t : State} {words : Nat} (hP : fp_execI3cPrivateRead.Sub pr) (hk : Within pr z s)
    (h : execI3cPrivateRead words s = .next t) : Within pr z t := by
  simp only [fp_execI3cPrivateRead, Print.join_cons, Print.join_nil, and_true] at hP
  obtain ⟨e0, e1⟩ := hP
  unfold execI3cPrivateRead done at h
  injection h with h
  subst h
  iterate 40 (try any_goals first | with_reducible assumption | with_reducible refine foot_finish e0 ?_ | with_reducible refine foot_effI3cRead e1 ?_ | split)

def fp_setRing : Print := .join
  [.prt .ring]

theorem foot_setRing {pr : Print} {z s : State} {v : RingH} (hP : fp_setRing.Sub pr) (hk : Within pr z s) :
    Within pr z (setRing v s) := by
  simp only [fp_setRing, Print.join_cons, Print.join_nil, and_true] at hP
  have e0 := hP
  unfold setRing
  iterate 40 (try any_goals first | with_reducible assumption | exact Print.has_prt e0 | exact Or.inr (Print.has_prt (by assumption)) | with_reducible exact Or.inl rfl | with_reducible apply Within.upd)

def fp_setKnown : Print := .join
  [fp_setRing]

theorem foot_setKnown {pr : Print} {z s : State} {m : Nat} {k : RingKnown} (hP : fp_setKnown.Sub pr) (hk : Within pr z s) :
    Within pr z (setKnown m k s) := by
  simp only [fp_setKnown, Print.join_cons, Print.join_nil, and_true] at hP
  have e0 := hP
  unfold setKnown
  iterate 40 (try any_goals first | with_reducible assumption | with_reducible refine foot_setRing e0 ?_ | exact Or.inr (Print.has_prt (by assumption)) | with_reducible exact Or.inl rfl | with_reducible apply Within.upd)

def fp_setMasterId : Print := .join
  [.reg R.RNG_STAT.MASTER_ID,
   .reg R.RNG_EVENT,
   fp_record]

theorem foot_setMasterId {pr : Print} {z s : State} {m : Nat} (hP : fp_setMasterId.Sub pr) (hk : Within pr z s) :
    Within pr z (setMasterId m s) := by
  simp only [fp_setMasterId, Print.join_cons, Print.join_nil, and_true] at hP
  obtain ⟨e0, e1, e2⟩ := hP
  unfold setMasterId
  iterate 40 (try any_goals first | with_reducible assumption | exact Print.has_reg e0 | exact Print.has_reg e1 | with_reducible apply Print.has_ite | with_reducible refine Within.put _ ?_ ?_ | with_reducible refine Within.event _ ?_ ?_ | with_reducible refine foot_record e2 ?_ | (dsimp only) | split)

def fp_ringListen : Print := .join
  [.reg R.RNG_STAT.STATE,
   fp_setRing]

theorem foot_ringListen {pr : Print} {z s : State} (hP : fp_ringListen.Sub pr) (hk : Within pr z s) :
    Within pr z (ringListen s) := by
  simp only [fp_ringListen, Print.join_cons, Print.join_nil, and_true] at hP
  obtain ⟨e0, e1⟩ := hP
  unfold ringListen
  iterate 40 (try any_goals first | with_reducible assumption | exact Print.has_reg e0 | with_reducible apply Print.has_ite | with_reducible refine Within.put _ ?_ ?_ | with_reducible refine foot_setRing e1 ?_ | exact Or.inr (Print.has_prt (by assumption)) | with_reducible exact Or.inl rfl | (dsimp only) | split | with_reducible apply Within.upd)

def fp_ringLeave : Print := .join
  [.reg R.RNG_STAT.STATE,
   .reg R.RNG_STAT.MASTER_ACT,
   .reg R.RNG_BUDGET.PENDING,
   .reg R.RNG_EVENT,
   .prt .ring,
   .prt .pins,
   .prt .capp,
   fp_record]

theorem foot_ringLeave {pr : Print} {z s : State} (hP : fp_ringLeave.Sub pr) (hk : Within pr z s) :
    Within pr z (ringLeave s) := by
  simp only [fp_ringLeave, Print.join_cons, Print.join_nil, and_true] at hP
  obtain ⟨e0, e1, e2, e3, e4, e5, e6, e7⟩ := hP
  unfold ringLeave
  iterate 40 (try any_goals first | with_reducible assumption | exact Print.has_reg e0 | exact Print.has_reg e1 | exact Print.has_reg e2 | exact Print.has_reg e3 | exact Print.has_prt e4 | exact Print.has_prt e5 | exact Print.has_prt e6 | with_reducible apply Print.has_ite | with_reducible refine Within.put _ ?_ ?_ | with_reducible refine Within.event _ ?_ ?_ | with_reducible refine foot_record e7 ?_ | exact Or.inr (Print.has_prt (by assumption)) | with_reducible exact Or.inl rfl | intro _ | (dsimp only) | split | with_reducible apply Within.upd)

def fp_ringEnter : Print := .join
  [.reg R.RNG_STAT.STATE,
   .reg R.RNG_EVENT,
   .prt .ring,
   .prt .pins,
   fp_record]

theorem foot_ringEnter {pr : Print} {z s : State} (hP : fp_ringEnter.Sub pr) (hk : Within pr z s) :
    Within pr z (ringEnter s) := by
  simp only [fp_ringEnter, Print.join_cons, Print.join_nil, and_true] at hP
  obtain ⟨e0, e1, e2, e3, e4⟩ := hP
  unfold ringEnter
  iterate 40 (try any_goals first | with_reducible assumption | exact Print.has_reg e0 | exact Print.has_reg e1 | exact Print.has_prt e2 | exact Print.has_prt e3 | with_reducible apply Print.has_ite | with_reducible refine Within.put _ ?_ ?_ | with_reducible refine Within.event _ ?_ ?_ | with_reducible refine foot_record e4 ?_ | exact Or.inr (Print.has_prt (by assumption)) | with_reducible exact Or.inl rfl | (dsimp only) | with_reducible apply Within.upd)

def fp_execRingJoin : Print := .join
  [fp_finish,
   fp_ringEnter]

theorem foot_execRingJoin {pr : Print} {z s t : State} (hP : fp_execRingJoin.Sub pr) (hk : Within pr z s)
    (h : execRingJoin s = .next t) : Within pr z t := by
  simp only [fp_execRingJoin, Print.join_cons, Print.join_nil, and_true] at hP
  obtain ⟨e0, e1⟩ := hP
  unfold execRingJoin done at h
  injection h with h
  subst h
  iterate 40 (try any_goals first | with_reducible assumption | with_reducible refine foot_finish e0 ?_ | with_reducible refine foot_ringEnter e1 ?_ | split)

def fp_execBypassClose : Print := .join
  [fp_finish,
   fp_ringLeave,
   fp_ringListen]

theorem foot_execBypassClose {pr : Print} {z s t : State} (hP : fp_execBypassClose.Sub pr) (hk : Within pr z s)
    (h : execBypassClose s = .next t) : Within pr z t := by
  simp only [fp_execBypassClose, Print.join_cons, Print.join_nil, and_true] at hP
  obtain ⟨e0, e1, e2⟩ := hP
  unfold execBypassClose done at h
  injection h with h
  subst h
  iterate 40 (try any_goals first | with_reducible assumption | with_reducible refine foot_finish e0 ?_ | with_reducible refine foot_ringLeave e1 ?_ | with_reducible refine foot_ringListen e2 ?_ | (dsimp only) | split)

def fp_execNoMaster : Print := .join
  [.reg R.RNG_STAT.NO_MASTER,
   fp_finish]

theorem foot_execNoMaster {pr : Print} {z s t : State} (hP : fp_execNoMaster.Sub pr) (hk : Within pr z s)
    (h : execNoMaster s = .next t) : Within pr z t := by
  simp only [fp_execNoMaster, Print.join_cons, Print.join_nil, and_true] at hP
  obtain ⟨e0, e1⟩ := hP
  unfold execNoMaster done at h
  injection h with h
  subst h
  iterate 40 (try any_goals first | with_reducible assumption | exact Print.has_reg e0 | with_reducible apply Print.has_ite | with_reducible refine Within.put _ ?_ ?_ | with_reducible refine foot_finish e1 ?_ | split)

def fp_effMasterTakeover : Print := .join
  [.reg R.RNG_STAT.MASTER_ACT,
   fp_ringEnter,
   fp_setRing]

theorem foot_effMasterTakeover {pr : Print} {z s : State} (hP : fp_effMasterTakeover.Sub pr) (hk : Within pr z s) :
    Within pr z (effMasterTakeover s) := by
  simp only [fp_effMasterTakeover, Print.join_cons, Print.join_nil, and_true] at hP
  obtain ⟨e0, e1, e2⟩ := hP
  unfold effMasterTakeover
  iterate 40 (try any_goals first | with_reducible assumption | exact Print.has_reg e0 | with_reducible apply Print.has_ite | with_reducible refine Within.put _ ?_ ?_ | with_reducible refine foot_ringEnter e1 ?_ | with_reducible refine foot_setRing e2 ?_ | exact Or.inr (Print.has_prt (by assumption)) | with_reducible exact Or.inl rfl | (dsimp only) | split | with_reducible apply Within.upd)

def fp_execMasterTakeover : Print := .join
  [fp_finish,
   fp_effMasterTakeover]

theorem foot_execMasterTakeover {pr : Print} {z s t : State} (hP : fp_execMasterTakeover.Sub pr) (hk : Within pr z s)
    (h : execMasterTakeover s = .next t) : Within pr z t := by
  simp only [fp_execMasterTakeover, Print.join_cons, Print.join_nil, and_true] at hP
  obtain ⟨e0, e1⟩ := hP
  unfold execMasterTakeover done at h
  injection h with h
  subst h
  iterate 40 (try any_goals first | with_reducible assumption | with_reducible refine foot_finish e0 ?_ | with_reducible refine foot_effMasterTakeover e1 ?_)

def fp_execMasterYield : Print := .join
  [.reg R.RNG_STAT.MASTER_ACT,
   fp_finish,
   fp_setRing]

theorem foot_execMasterYield {pr : Print} {z s t : State} (hP : fp_execMasterYield.Sub pr) (hk : Within pr z s)
    (h : execMasterYield s = .next t) : Within pr z t := by
  simp only [fp_execMasterYield, Print.join_cons, Print.join_nil, and_true] at hP
  obtain ⟨e0, e1, e2⟩ := hP
  unfold execMasterYield done at h
  injection h with h
  subst h
  iterate 40 (try any_goals first | with_reducible assumption | exact Print.has_reg e0 | with_reducible apply Print.has_ite | with_reducible refine Within.put _ ?_ ?_ | with_reducible refine foot_finish e1 ?_ | with_reducible refine foot_setRing e2 ?_ | exact Or.inr (Print.has_prt (by assumption)) | with_reducible exact Or.inl rfl | (dsimp only) | split | with_reducible apply Within.upd)

def fp_latchWords : Print := .join
  [.reg R.RNG_STAT2.SLACK,
   fp_setRing]

theorem foot_latchWords {pr : Print} {z s : State} (hP : fp_latchWords.Sub pr) (hk : Within pr z s) :
    Within pr z (latchWords s) := by
  simp only [fp_latchWords, Print.join_cons, Print.join_nil, and_true] at hP
  obtain ⟨e0, e1⟩ := hP
  unfold latchWords
  iterate 40 (try any_goals first | with_reducible assumption | exact Print.has_reg e0 | with_reducible apply Print.has_ite | with_reducible refine Within.put _ ?_ ?_ | with_reducible refine foot_setRing e1 ?_ | exact Or.inr (Print.has_prt (by assumption)) | with_reducible exact Or.inl rfl | (dsimp only) | split | with_reducible apply Within.upd)

def fp_ringStale : Print := .join
  [fp_setRing]

theorem foot_ringStale {pr : Print} {z s : State} (hP : fp_ringStale.Sub pr) (hk : Within pr z s) :
    Within pr z (ringStale s) := by
  simp only [fp_ringStale, Print.join_cons, Print.join_nil, and_true] at hP
  have e0 := hP
  unfold ringStale
  iterate 40 (try any_goals first | with_reducible assumption | with_reducible refine foot_setRing e0 ?_ | exact Or.inr (Print.has_prt (by assumption)) | with_reducible exact Or.inl rfl | split | with_reducible apply Within.upd)

def fp_takeEntry : Print := .join
  [.reg R.RNG_EVENT,
   fp_setRing]

theorem foot_takeEntry {pr : Print} {z s : State} (hP : fp_takeEntry.Sub pr) (hk : Within pr z s) :
    Within pr z (takeEntry s) := by
  simp only [fp_takeEntry, Print.join_cons, Print.join_nil, and_true] at hP
  obtain ⟨e0, e1⟩ := hP
  unfold takeEntry
  iterate 40 (try any_goals first | with_reducible assumption | exact Print.has_reg e0 | with_reducible apply Print.has_ite | with_reducible refine Within.event _ ?_ ?_ | with_reducible refine foot_setRing e1 ?_ | exact Or.inr (Print.has_prt (by assumption)) | with_reducible exact Or.inl rfl | (dsimp only) | split | with_reducible apply Within.upd)

def fp_sendRing : Print := .join
  [.prt .out]

theorem foot_sendRing {pr : Print} {z s : State} {b : List Nat} (hP : fp_sendRing.Sub pr) (hk : Within pr z s) :
    Within pr z (sendRing b s) := by
  simp only [fp_sendRing, Print.join_cons, Print.join_nil, and_true] at hP
  have e0 := hP
  unfold sendRing
  iterate 40 (try any_goals first | with_reducible assumption | exact Print.has_prt e0 | with_reducible refine Within.emit _ ?_ ?_ | (dsimp only))

def fp_beginSuper : Print := .join
  [fp_setRing,
   fp_latchWords]

theorem foot_beginSuper {pr : Print} {z s : State} (hP : fp_beginSuper.Sub pr) (hk : Within pr z s) :
    Within pr z (beginSuper s) := by
  simp only [fp_beginSuper, Print.join_cons, Print.join_nil, and_true] at hP
  obtain ⟨e0, e1⟩ := hP
  unfold beginSuper
  iterate 40 (try any_goals first | with_reducible assumption | with_reducible refine foot_setRing e0 ?_ | with_reducible refine foot_latchWords e1 ?_ | exact Or.inr (Print.has_prt (by assumption)) | with_reducible exact Or.inl rfl | intro _ | (dsimp only) | with_reducible apply Within.upd)

def fp_effMasterFrameStart : Print := .join
  [.prt .out,
   fp_setRing,
   fp_beginSuper,
   fp_sendRing,
   fp_takeEntry]

theorem foot_effMasterFrameStart {pr : Print} {z s : State} (hP : fp_effMasterFrameStart.Sub pr) (hk : Within pr z s) :
    Within pr z (effMasterFrameStart s) := by
  simp only [fp_effMasterFrameStart, Print.join_cons, Print.join_nil, and_true] at hP
  obtain ⟨e0, e1, e2, e3, e4⟩ := hP
  unfold effMasterFrameStart
  iterate 40 (try any_goals first | with_reducible assumption | exact Print.has_prt e0 | with_reducible refine Within.emit _ ?_ ?_ | with_reducible refine foot_setRing e1 ?_ | with_reducible refine foot_beginSuper e2 ?_ | with_reducible refine foot_sendRing e3 ?_ | with_reducible refine foot_takeEntry e4 ?_ | exact Or.inr (Print.has_prt (by assumption)) | with_reducible exact Or.inl rfl | intro _ | (dsimp only) | split | with_reducible apply Within.upd)

def fp_execMasterFrameStart : Print := .join
  [fp_finish,
   fp_effMasterFrameStart]

theorem foot_execMasterFrameStart {pr : Print} {z s t : State} (hP : fp_execMasterFrameStart.Sub pr) (hk : Within pr z s)
    (h : execMasterFrameStart s = .next t) : Within pr z t := by
  simp only [fp_execMasterFrameStart, Print.join_cons, Print.join_nil, and_true] at hP
  obtain ⟨e0, e1⟩ := hP
  unfold execMasterFrameStart done at h
  injection h with h
  subst h
  iterate 40 (try any_goals first | with_reducible assumption | with_reducible refine foot_finish e0 ?_ | with_reducible refine foot_effMasterFrameStart e1 ?_)

def fp_feedBrown : Print := .join
  [.reg R.RNG_FEED_BROWN.MAP,
   .reg R.RNG_EVENT,
   .reg R.HLT_FEED_MAP.MAP,
   fp_record,
   fp_countHealth (some 3)]

theorem foot_feedBrown {pr : Print} {z s : State} {m : Nat} {flags : Nat} {feed : Nat} (hP : fp_feedBrown.Sub pr) (hk : Within pr z s) :
    Within pr z (feedBrown m flags feed s) := by
  simp only [fp_feedBrown, Print.join_cons, Print.join_nil, and_true] at hP
  obtain ⟨e0, e1, e2, e3, e4⟩ := hP
  unfold feedBrown
  iterate 40 (try any_goals first | with_reducible assumption | exact Print.has_reg e0 | exact Print.has_reg e1 | exact Print.has_reg e2 | with_reducible apply Print.has_ite | with_reducible refine Within.event _ ?_ ?_ | with_reducible refine Within.unevent _ ?_ ?_ | with_reducible refine foot_record e3 ?_ | with_reducible refine foot_countHealth Names.one e4 ?_ | with_reducible refine Within.when ?_ ?_ | intro _ | (dsimp only) | split)

def fp_keepCopy (m : Option Nat) : Print := .join
  [.reg1 R.RNG_MBR_C.FLAGS m,
   .reg1 R.RNG_MBR_C.FEED_ID m,
   .reg1 R.RNG_MBR_A.BUDGET m,
   .reg1 R.RNG_MBR_A.SLACK m,
   .reg1 R.RNG_MBR_B.FLOOR m,
   .reg1 R.RNG_MBR_B.CEIL m,
   .reg1 R.RNG_MBR_D.GEN m,
   fp_setRing]

theorem foot_keepCopy {pr : Print} {z s : State} {m : Nat} {f : Nat} {b : List Nat} {o_m : Option Nat} (n_m : Names o_m m) (hP : (fp_keepCopy o_m).Sub pr) (hk : Within pr z s) :
    Within pr z (keepCopy m f b s) := by
  simp only [fp_keepCopy, Print.join_cons, Print.join_nil, and_true] at hP
  obtain ⟨e0, e1, e2, e3, e4, e5, e6, e7⟩ := hP
  unfold keepCopy
  iterate 40 (try any_goals first | with_reducible assumption | exact Print.has_reg1 n_m e0 | exact Print.has_reg1 n_m e1 | exact Print.has_reg1 n_m e2 | exact Print.has_reg1 n_m e3 | exact Print.has_reg1 n_m e4 | exact Print.has_reg1 n_m e5 | exact Print.has_reg1 n_m e6 | with_reducible apply Print.has_ite | with_reducible refine Within.put _ ?_ ?_ | with_reducible refine foot_setRing e7 ?_ | exact Or.inr (Print.has_prt (by assumption)) | with_reducible exact Or.inl rfl | (dsimp only) | split | with_reducible apply Within.upd)

def fp_readSlots : Print := .join
  [.reg R.RNG_ERR.SLOT,
   fp_keepCopy none,
   fp_feedBrown]

theorem foot_readSlots {pr : Print} {z s : State} {own : Bool} {f : Nat} {slots : List (List Nat)} (hP : fp_readSlots.Sub pr) (hk : Within pr z s) :
    Within pr z (readSlots own f slots s) := by
  simp only [fp_readSlots, Print.join_cons, Print.join_nil, and_true] at hP
  obtain ⟨e0, e1, e2⟩ := hP
  unfold readSlots
  iterate 40 (try any_goals first | with_reducible assumption | exact Print.has_reg e0 | with_reducible apply Print.has_ite | with_reducible refine Within.addSat _ ?_ ?_ | with_reducible refine foot_keepCopy Names.any e1 ?_ | with_reducible refine foot_feedBrown e2 ?_ | with_reducible refine Within.each ?_ ?_ | with_reducible refine Within.when ?_ ?_ | intro _ | (dsimp only) | split)

def fp_idConflict : Print := .join
  [.reg R.RNG_STAT.ID_CONFLICT,
   .reg R.RNG_EVENT,
   fp_record,
   fp_faultOn,
   fp_setRing,
   fp_ringLeave]

theorem foot_idConflict {pr : Print} {z s : State} (hP : fp_idConflict.Sub pr) (hk : Within pr z s) :
    Within pr z (idConflict s) := by
  simp only [fp_idConflict, Print.join_cons, Print.join_nil, and_true] at hP
  obtain ⟨e0, e1, e2, e3, e4, e5⟩ := hP
  unfold idConflict
  iterate 40 (try any_goals first | with_reducible assumption | exact Print.has_reg e0 | exact Print.has_reg e1 | with_reducible apply Print.has_ite | with_reducible refine Within.put _ ?_ ?_ | with_reducible refine Within.event _ ?_ ?_ | with_reducible refine foot_record e2 ?_ | with_reducible refine foot_faultOn e3 ?_ | with_reducible refine foot_setRing e4 ?_ | with_reducible refine foot_ringLeave e5 ?_ | exact Or.inr (Print.has_prt (by assumption)) | with_reducible exact Or.inl rfl | (dsimp only) | split | with_reducible apply Within.upd)

def fp_superEnd : Print := .join
  [.reg R.RNG_PRESENT.MAP,
   .reg R.RNG_STAT.N_MEMBERS,
   .reg R.RNG_DIG_MISMATCH.MAP,
   .reg R.RNG_STAT.AGREE,
   .reg R.RNG_EVENT,
   fp_record]

theorem foot_superEnd {pr : Print} {z s : State} (hP : fp_superEnd.Sub pr) (hk : Within pr z s) :
    Within pr z (superEnd s) := by
  simp only [fp_superEnd, Print.join_cons, Print.join_nil, and_true] at hP
  obtain ⟨e0, e1, e2, e3, e4, e5⟩ := hP
  unfold superEnd
  iterate 40 (try any_goals first | with_reducible assumption | exact Print.has_reg e0 | exact Print.has_reg e1 | exact Print.has_reg e2 | exact Print.has_reg e3 | exact Print.has_reg e4 | with_reducible apply Print.has_ite | with_reducible refine Within.put _ ?_ ?_ | with_reducible refine Within.putB _ ?_ ?_ | with_reducible refine Within.event _ ?_ ?_ | with_reducible refine foot_record e5 ?_ | with_reducible refine Within.when ?_ ?_ | intro _ | (dsimp only) | split)

def fp_endSuper : Print := .join
  [fp_takeEntry,
   fp_superEnd]

theorem foot_endSuper {pr : Print} {z s : State} (hP : fp_endSuper.Sub pr) (hk : Within pr z s) :
    Within pr z (endSuper s) := by
  simp only [fp_endSuper, Print.join_cons, Print.join_nil, and_true] at hP
  obtain ⟨e0, e1⟩ := hP
  unfold endSuper
  iterate 40 (try any_goals first | with_reducible assumption | with_reducible refine foot_takeEntry e0 ?_ | with_reducible refine foot_superEnd e1 ?_ | (dsimp only))

def fp_newSuper : Print := .join
  [fp_endSuper,
   fp_beginSuper]

theorem foot_newSuper {pr : Print} {z s : State} {last : Nat} {f : Nat} (hP : fp_newSuper.Sub pr) (hk : Within pr z s) :
    Within pr z (newSuper last f s) := by
  simp only [fp_newSuper, Print.join_cons, Print.join_nil, and_true] at hP
  obtain ⟨e0, e1⟩ := hP
  unfold newSuper
  iterate 40 (try any_goals first | with_reducible assumption | with_reducible refine foot_endSuper e0 ?_ | with_reducible refine foot_beginSuper e1 ?_ | with_reducible refine Within.when ?_ ?_ | intro _ | (dsimp only) | split)

def fp_memberFrame : Print := .join
  [fp_newSuper,
   fp_readSlots,
   fp_sendRing,
   fp_setRing,
   fp_endSuper]

theorem foot_memberFrame {pr : Print} {z s : State} {last : Nat} {h : List Nat} {slots : List (List Nat)} (hP : fp_memberFrame.Sub pr) (hk : Within pr z s) :
    Within pr z (memberFrame last h slots s) := by
  simp only [fp_memberFrame, Print.join_cons, Print.join_nil, and_true] at hP
  obtain ⟨e0, e1, e2, e3, e4⟩ := hP
  unfold memberFrame
  iterate 40 (try any_goals first | with_reducible assumption | with_reducible refine foot_newSuper e0 ?_ | with_reducible refine foot_readSlots e1 ?_ | with_reducible refine foot_sendRing e2 ?_ | with_reducible refine foot_setRing e3 ?_ | with_reducible refine foot_endSuper e4 ?_ | exact Or.inr (Print.has_prt (by assumption)) | with_reducible exact Or.inl rfl | intro _ | (dsimp only) | split | with_reducible apply Within.upd)

def fp_ownFrame : Print := .join
  [fp_setRing,
   fp_readSlots,
   fp_superEnd]

theorem foot_ownFrame {pr : Print} {z s : State} {f : Nat} {slots : List (List Nat)} (hP : fp_ownFrame.Sub pr) (hk : Within pr z s) :
    Within pr z (ownFrame f slots s) := by
  simp only [fp_ownFrame, Print.join_cons, Print.join_nil, and_true] at hP
  obtain ⟨e0, e1, e2⟩ := hP
  unfold ownFrame
  iterate 40 (try any_goals first | with_reducible assumption | with_reducible refine foot_setRing e0 ?_ | with_reducible refine foot_readSlots e1 ?_ | with_reducible refine foot_superEnd e2 ?_ | exact Or.inr (Print.has_prt (by assumption)) | with_reducible exact Or.inl rfl | (dsimp only) | split | with_reducible apply Within.upd)

def fp_rivalFrame : Print := .join
  [fp_setRing]

theorem foot_rivalFrame {pr : Print} {z s : State} {m : Nat} {r : Bool} (hP : fp_rivalFrame.Sub pr) (hk : Within pr z s) :
    Within pr z (rivalFrame m r s) := by
  simp only [fp_rivalFrame, Print.join_cons, Print.join_nil, and_true] at hP
  have e0 := hP
  unfold rivalFrame
  iterate 40 (try any_goals first | with_reducible assumption | with_reducible refine foot_setRing e0 ?_ | exact Or.inr (Print.has_prt (by assumption)) | with_reducible exact Or.inl rfl | (dsimp only) | split | with_reducible apply Within.upd)

def fp_noteHeader : Print := .join
  [.reg R.RNG_STAT.NO_MASTER,
   fp_setRing,
   fp_setMasterId]

theorem foot_noteHeader {pr : Print} {z s : State} {h : List Nat} (hP : fp_noteHeader.Sub pr) (hk : Within pr z s) :
    Within pr z (noteHeader h s) := by
  simp only [fp_noteHeader, Print.join_cons, Print.join_nil, and_true] at hP
  obtain ⟨e0, e1, e2⟩ := hP
  unfold noteHeader
  iterate 40 (try any_goals first | with_reducible assumption | exact Print.has_reg e0 | with_reducible apply Print.has_ite | with_reducible refine Within.put _ ?_ ?_ | with_reducible refine foot_setRing e1 ?_ | with_reducible refine foot_setMasterId e2 ?_ | exact Or.inr (Print.has_prt (by assumption)) | with_reducible exact Or.inl rfl | (dsimp only) | with_reducible apply Within.upd)

def fp_effRingFrame : Print := .join
  [.reg R.RNG_ERR.HDR,
   fp_setRing,
   fp_sendRing,
   fp_noteHeader,
   fp_idConflict,
   fp_ownFrame,
   fp_rivalFrame,
   fp_memberFrame]

theorem foot_effRingFrame {pr : Print} {z s : State} {header : List Nat} {slots : List (List Nat)} (hP : fp_effRingFrame.Sub pr) (hk : Within pr z s) :
    Within pr z (effRingFrame header slots s) := by
  simp only [fp_effRingFrame, Print.join_cons, Print.join_nil, and_true] at hP
  obtain ⟨e0, e1, e2, e3, e4, e5, e6, e7⟩ := hP
  unfold effRingFrame
  iterate 40 (try any_goals first | with_reducible assumption | exact Print.has_reg e0 | with_reducible apply Print.has_ite | with_reducible refine Within.addSat _ ?_ ?_ | with_reducible refine foot_setRing e1 ?_ | with_reducible refine foot_sendRing e2 ?_ | with_reducible refine foot_noteHeader e3 ?_ | with_reducible refine foot_idConflict e4 ?_ | with_reducible refine foot_ownFrame e5 ?_ | with_reducible refine foot_rivalFrame e6 ?_ | with_reducible refine foot_memberFrame e7 ?_ | with_reducible refine Within.when ?_ ?_ | exact Or.inr (Print.has_prt (by assumption)) | with_reducible exact Or.inl rfl | intro _ | (dsimp only) | split | with_reducible apply Within.upd)

def fp_execRingFrame : Print := .join
  [fp_finish,
   fp_effRingFrame]

theorem foot_execRingFrame {pr : Print} {z s t : State} {header : List Nat} {slots : List (List Nat)} (hP : fp_execRingFrame.Sub pr) (hk : Within pr z s)
    (h : execRingFrame header slots s = .next t) : Within pr z t := by
  simp only [fp_execRingFrame, Print.join_cons, Print.join_nil, and_true] at hP
  obtain ⟨e0, e1⟩ := hP
  unfold execRingFrame done at h
  injection h with h
  subst h
  iterate 40 (try any_goals first | with_reducible assumption | with_reducible refine foot_finish e0 ?_ | with_reducible refine foot_effRingFrame e1 ?_)

def fp_learn : Print := .join
  [fp_setKnown]

theorem foot_learn {pr : Print} {z s : State} {first : Bool} {m : Nat} (hP : fp_learn.Sub pr) (hk : Within pr z s) :
    Within pr z (learn first m s) := by
  simp only [fp_learn, Print.join_cons, Print.join_nil, and_true] at hP
  have e0 := hP
  unfold learn
  iterate 40 (try any_goals first | with_reducible assumption | with_reducible refine foot_setKnown e0 ?_ | exact Or.inr (Print.has_prt (by assumption)) | with_reducible exact Or.inl rfl | (dsimp only) | split | with_reducible apply Within.upd)

def fp_noteAssign : Print := .join
  [fp_setKnown]

theorem foot_noteAssign {pr : Print} {z s : State} {round : Nat} {e : Nat × Nat} (hP : fp_noteAssign.Sub pr) (hk : Within pr z s) :
    Within pr z (noteAssign round e s) := by
  simp only [fp_noteAssign, Print.join_cons, Print.join_nil, and_true] at hP
  have e0 := hP
  unfold noteAssign
  iterate 40 (try any_goals first | with_reducible assumption | with_reducible refine foot_setKnown e0 ?_ | exact Or.inr (Print.has_prt (by assumption)) | with_reducible exact Or.inl rfl | (dsimp only) | with_reducible apply Within.upd)

def fp_effBalanceRound : Print := .join
  [.reg R.RNG_STAT.BROKEN,
   .reg R.RNG_EVENT,
   fp_superEnd,
   fp_setRing,
   fp_learn,
   fp_noteAssign]

theorem foot_effBalanceRound {pr : Print} {z s : State} (hP : fp_effBalanceRound.Sub pr) (hk : Within pr z s) :
    Within pr z (effBalanceRound s) := by
  simp only [fp_effBalanceRound, Print.join_cons, Print.join_nil, and_true] at hP
  obtain ⟨e0, e1, e2, e3, e4, e5⟩ := hP
  unfold effBalanceRound
  iterate 40 (try any_goals first | with_reducible assumption | exact Print.has_reg e0 | exact Print.has_reg e1 | with_reducible apply Print.has_ite | with_reducible refine Within.putB _ ?_ ?_ | with_reducible refine Within.event _ ?_ ?_ | with_reducible refine foot_superEnd e2 ?_ | with_reducible refine foot_setRing e3 ?_ | with_reducible refine foot_learn e4 ?_ | with_reducible refine foot_noteAssign e5 ?_ | with_reducible refine Within.each ?_ ?_ | with_reducible refine Within.when ?_ ?_ | with_reducible refine Within.fold ?_ ?_ | exact Or.inr (Print.has_prt (by assumption)) | with_reducible exact Or.inl rfl | intro _ | (dsimp only) | split | with_reducible apply Within.upd)

def fp_execBalanceRound : Print := .join
  [fp_finish,
   fp_effBalanceRound]

theorem foot_execBalanceRound {pr : Print} {z s t : State} (hP : fp_execBalanceRound.Sub pr) (hk : Within pr z s)
    (h : execBalanceRound s = .next t) : Within pr z t := by
  simp only [fp_execBalanceRound, Print.join_cons, Print.join_nil, and_true] at hP
  obtain ⟨e0, e1⟩ := hP
  unfold execBalanceRound done at h
  injection h with h
  subst h
  iterate 40 (try any_goals first | with_reducible assumption | with_reducible refine foot_finish e0 ?_ | with_reducible refine foot_effBalanceRound e1 ?_)

def fp_copyDigest : Print := .join
  [.reg1 R.RNG_DIG_OUT.DIGEST none,
   .reg1 R.RNG_DIG_OUT.GEN none,
   fp_complete]

theorem foot_copyDigest {pr : Print} {z s : State} {fl : Flight} (hP : fp_copyDigest.Sub pr) (hk : Within pr z s) :
    Within pr z (copyDigest fl s) := by
  simp only [fp_copyDigest, Print.join_cons, Print.join_nil, and_true] at hP
  obtain ⟨e0, e1, e2⟩ := hP
  unfold copyDigest
  iterate 40 (try any_goals first | with_reducible assumption | exact Print.has_reg1 Names.any e0 | exact Print.has_reg1 Names.any e1 | with_reducible apply Print.has_ite | with_reducible refine Within.put _ ?_ ?_ | with_reducible refine foot_complete e2 ?_ | (dsimp only))

def fp_effDigestRecompute : Print := .join
  [fp_setRing,
   fp_copyDigest]

theorem foot_effDigestRecompute {pr : Print} {z s : State} (hP : fp_effDigestRecompute.Sub pr) (hk : Within pr z s) :
    Within pr z (effDigestRecompute s) := by
  simp only [fp_effDigestRecompute, Print.join_cons, Print.join_nil, and_true] at hP
  obtain ⟨e0, e1⟩ := hP
  unfold effDigestRecompute
  iterate 40 (try any_goals first | with_reducible assumption | with_reducible refine foot_setRing e0 ?_ | with_reducible refine foot_copyDigest e1 ?_ | with_reducible refine Within.each ?_ ?_ | exact Or.inr (Print.has_prt (by assumption)) | with_reducible exact Or.inl rfl | intro _ | (dsimp only) | split | with_reducible apply Within.upd)

def fp_execDigestRecompute : Print := .join
  [fp_finish,
   fp_effDigestRecompute]

theorem foot_execDigestRecompute {pr : Print} {z s t : State} (hP : fp_execDigestRecompute.Sub pr) (hk : Within pr z s)
    (h : execDigestRecompute s = .next t) : Within pr z t := by
  simp only [fp_execDigestRecompute, Print.join_cons, Print.join_nil, and_true] at hP
  obtain ⟨e0, e1⟩ := hP
  unfold execDigestRecompute done at h
  injection h with h
  subst h
  iterate 40 (try any_goals first | with_reducible assumption | with_reducible refine foot_finish e0 ?_ | with_reducible refine foot_effDigestRecompute e1 ?_)

def fp_execGetConfigDigest : Print := .join
  [fp_finish,
   fp_command,
   fp_markStarted,
   fp_copyDigest]

theorem foot_execGetConfigDigest {pr : Print} {z s t : State} {port : Nat} {tag : Nat} (hP : fp_execGetConfigDigest.Sub pr) (hk : Within pr z s)
    (h : execGetConfigDigest port tag s = .next t) : Within pr z t := by
  simp only [fp_execGetConfigDigest, Print.join_cons, Print.join_nil, and_true] at hP
  obtain ⟨e0, e1, e2, e3⟩ := hP
  unfold execGetConfigDigest done at h
  injection h with h
  subst h
  iterate 40 (try any_goals first | with_reducible assumption | with_reducible refine foot_finish e0 ?_ | with_reducible refine foot_command e1 ?_ ?_ | with_reducible refine foot_markStarted e2 ?_ | with_reducible refine foot_copyDigest e3 ?_ | intro _ | (dsimp only) | split)

def fp_execRingForget : Print := .join
  [fp_finish,
   fp_command,
   fp_setKnown,
   fp_complete]

theorem foot_execRingForget {pr : Print} {z s t : State} {port : Nat} {tag : Nat} (hP : fp_execRingForget.Sub pr) (hk : Within pr z s)
    (h : execRingForget port tag s = .next t) : Within pr z t := by
  simp only [fp_execRingForget, Print.join_cons, Print.join_nil, and_true] at hP
  obtain ⟨e0, e1, e2, e3⟩ := hP
  unfold execRingForget done at h
  injection h with h
  subst h
  iterate 40 (try any_goals first | with_reducible assumption | with_reducible refine foot_finish e0 ?_ | with_reducible refine foot_command e1 ?_ ?_ | with_reducible refine foot_setKnown e2 ?_ | with_reducible refine foot_complete e3 ?_ | intro _ | (dsimp only))

def fp_setReasons (d : Option Nat) : Print := .join
  [.reg1 R.CAP_DIE_THR.ACTIVE d,
   .reg R.CAP_THR_ACT.ACTIVE,
   .reg1 R.CAP_THR_START.TIME none,
   .prt .ring]

theorem foot_setReasons {pr : Print} {z s : State} {d : Nat} {v : Nat} {o_d : Option Nat} (n_d : Names o_d d) (hP : (fp_setReasons o_d).Sub pr) (hk : Within pr z s) :
    Within pr z (setReasons d v s) := by
  simp only [fp_setReasons, Print.join_cons, Print.join_nil, and_true] at hP
  obtain ⟨e0, e1, e2, e3⟩ := hP
  unfold setReasons
  iterate 40 (try any_goals first | with_reducible assumption | exact Print.has_reg1 n_d e0 | exact Print.has_reg e1 | exact Print.has_reg1 Names.any e2 | exact Print.has_prt e3 | with_reducible apply Print.has_ite | with_reducible refine Within.put _ ?_ ?_ | with_reducible refine Within.each ?_ ?_ | with_reducible refine Within.when ?_ ?_ | with_reducible refine Within.fold ?_ ?_ | exact Or.inr (Print.has_prt (by assumption)) | with_reducible exact Or.inl rfl | intro _ | (dsimp only) | with_reducible apply Within.upd)

def fp_showReasons (d : Option Nat) : Print := .join
  [fp_setReasons d]

theorem foot_showReasons {pr : Print} {z s : State} {d : Nat} {o_d : Option Nat} (n_d : Names o_d d) (hP : (fp_showReasons o_d).Sub pr) (hk : Within pr z s) :
    Within pr z (showReasons d s) := by
  simp only [fp_showReasons, Print.join_cons, Print.join_nil, and_true] at hP
  have e0 := hP
  unfold showReasons
  iterate 40 (try any_goals first | with_reducible assumption | with_reducible refine foot_setReasons n_d e0 ?_)

def fp_sendBudget (d : Option Nat) : Print := .join
  [.row Cell.cap d,
   .reg1 R.CAP_DIE_BUD.BUDGET d,
   .reg1 R.CAP_DIE_BUD.BIND d,
   fp_sendDown d]

theorem foot_sendBudget {pr : Print} {z s : State} {d : Nat} {cls : Nat} {o_d : Option Nat} (n_d : Names o_d d) (hP : (fp_sendBudget o_d).Sub pr) (hk : Within pr z s) :
    Within pr z (sendBudget d cls s) := by
  simp only [fp_sendBudget, Print.join_cons, Print.join_nil, and_true] at hP
  obtain ⟨e0, e1, e2, e3⟩ := hP
  unfold sendBudget
  iterate 40 (try any_goals first | with_reducible assumption | with_reducible refine Within.setCap _ (Print.has_row rfl n_d e0) ?_ | exact Print.has_reg1 n_d e1 | exact Print.has_reg1 n_d e2 | with_reducible apply Print.has_ite | with_reducible refine Within.put _ ?_ ?_ | with_reducible refine foot_sendDown n_d e3 ?_ | exact Or.inr (Print.has_prt (by assumption)) | with_reducible exact Or.inl rfl | (dsimp only) | split | with_reducible apply Within.upd)

def fp_refit (d : Option Nat) : Print := .join
  [fp_sendBudget d,
   fp_showReasons d]

theorem foot_refit {pr : Print} {z s : State} {d : Nat} {o_d : Option Nat} (n_d : Names o_d d) (hP : (fp_refit o_d).Sub pr) (hk : Within pr z s) :
    Within pr z (refit d s) := by
  simp only [fp_refit, Print.join_cons, Print.join_nil, and_true] at hP
  obtain ⟨e0, e1⟩ := hP
  unfold refit
  iterate 40 (try any_goals first | with_reducible assumption | with_reducible refine foot_sendBudget n_d e0 ?_ | with_reducible refine foot_showReasons n_d e1 ?_ | (dsimp only) | split)

def fp_refitRail (r : Option Nat) : Print := .join
  [fp_refit none,
   fp_refit (r.map fun r => r % 16)]

theorem foot_refitRail {pr : Print} {z s : State} {r : Nat} {o_r : Option Nat} (n_r : Names o_r r) (hP : (fp_refitRail o_r).Sub pr) (hk : Within pr z s) :
    Within pr z (refitRail r s) := by
  simp only [fp_refitRail, Print.join_cons, Print.join_nil, and_true] at hP
  obtain ⟨e0, e1⟩ := hP
  unfold refitRail
  iterate 40 (try any_goals first | with_reducible assumption | with_reducible refine foot_refit Names.any e0 ?_ | with_reducible refine foot_refit (Names.map (fun r => r % 16) n_r) e1 ?_ | with_reducible refine Within.each ?_ ?_ | intro _ | split)

def fp_sendSlews (d : Option Nat) : Print := .join
  [.row Cell.tok d,
   fp_sendMsg d]

theorem foot_sendSlews {pr : Print} {z s : State} {d : Nat} {o_d : Option Nat} (n_d : Names o_d d) (hP : (fp_sendSlews o_d).Sub pr) (hk : Within pr z s) :
    Within pr z (sendSlews d s) := by
  simp only [fp_sendSlews, Print.join_cons, Print.join_nil, and_true] at hP
  obtain ⟨e0, e1⟩ := hP
  unfold sendSlews
  iterate 40 (try any_goals first | with_reducible assumption | with_reducible refine Within.setTok _ (Print.has_row rfl n_d e0) ?_ | with_reducible refine foot_sendMsg n_d e1 ?_ | exact Or.inr (Print.has_prt (by assumption)) | with_reducible exact Or.inl rfl | (dsimp only) | split | with_reducible apply Within.upd)

def fp_sendTokensWith (d : Option Nat) : Print := .join
  [.row Cell.tok d,
   fp_sendMsgs d]

theorem foot_sendTokensWith {pr : Print} {z s : State} {l : List Msg} {d : Nat} {o_d : Option Nat} (n_d : Names o_d d) (hP : (fp_sendTokensWith o_d).Sub pr) (hk : Within pr z s) :
    Within pr z (sendTokensWith l d s) := by
  simp only [fp_sendTokensWith, Print.join_cons, Print.join_nil, and_true] at hP
  obtain ⟨e0, e1⟩ := hP
  unfold sendTokensWith
  iterate 40 (try any_goals first | with_reducible assumption | with_reducible refine Within.setTok _ (Print.has_row rfl n_d e0) ?_ | with_reducible refine foot_sendMsgs n_d e1 ?_ | exact Or.inr (Print.has_prt (by assumption)) | with_reducible exact Or.inl rfl | (dsimp only) | split | with_reducible apply Within.upd)

def fp_sendTokens (d : Option Nat) : Print := .join
  [fp_sendTokensWith d]

theorem foot_sendTokens {pr : Print} {z s : State} {d : Nat} {o_d : Option Nat} (n_d : Names o_d d) (hP : (fp_sendTokens o_d).Sub pr) (hk : Within pr z s) :
    Within pr z (sendTokens d s) := by
  simp only [fp_sendTokens, Print.join_cons, Print.join_nil, and_true] at hP
  have e0 := hP
  unfold sendTokens
  iterate 40 (try any_goals first | with_reducible assumption | with_reducible refine foot_sendTokensWith n_d e0 ?_)

def fp_sendHeld (d : Option Nat) : Print := .join
  [fp_sendTokensWith d]

theorem foot_sendHeld {pr : Print} {z s : State} {d : Nat} {o_d : Option Nat} (n_d : Names o_d d) (hP : (fp_sendHeld o_d).Sub pr) (hk : Within pr z s) :
    Within pr z (sendHeld d s) := by
  simp only [fp_sendHeld, Print.join_cons, Print.join_nil, and_true] at hP
  have e0 := hP
  unfold sendHeld
  iterate 40 (try any_goals first | with_reducible assumption | with_reducible refine foot_sendTokensWith n_d e0 ?_ | split)

def fp_resendTokens : Print := .join
  [fp_sendTokens none]

theorem foot_resendTokens {pr : Print} {z s : State} (hP : fp_resendTokens.Sub pr) (hk : Within pr z s) :
    Within pr z (resendTokens s) := by
  simp only [fp_resendTokens, Print.join_cons, Print.join_nil, and_true] at hP
  have e0 := hP
  unfold resendTokens
  iterate 40 (try any_goals first | with_reducible assumption | with_reducible refine foot_sendTokens Names.any e0 ?_ | with_reducible refine Within.each ?_ ?_ | intro _)

def fp_refreshIin : Print := .join
  [.reg R.CAP_IIN_EFF.IIN,
   .reg R.CAP_EVENT]

theorem foot_refreshIin {pr : Print} {z s : State} (hP : fp_refreshIin.Sub pr) (hk : Within pr z s) :
    Within pr z (refreshIin s) := by
  simp only [fp_refreshIin, Print.join_cons, Print.join_nil, and_true] at hP
  obtain ⟨e0, e1⟩ := hP
  unfold refreshIin
  iterate 40 (try any_goals first | with_reducible assumption | exact Print.has_reg e0 | exact Print.has_reg e1 | with_reducible apply Print.has_ite | with_reducible refine Within.put _ ?_ ?_ | with_reducible refine Within.event _ ?_ ?_ | (dsimp only) | split)

def fp_setClk : Print := .join
  [.prt .clk]

theorem foot_setClk {pr : Print} {z s : State} {v : ClockH} (hP : fp_setClk.Sub pr) (hk : Within pr z s) :
    Within pr z (setClk v s) := by
  simp only [fp_setClk, Print.join_cons, Print.join_nil, and_true] at hP
  have e0 := hP
  unfold setClk
  iterate 40 (try any_goals first | with_reducible assumption | exact Print.has_prt e0 | exact Or.inr (Print.has_prt (by assumption)) | with_reducible exact Or.inl rfl | with_reducible apply Within.upd)

def fp_goClock : Print := .join
  [.reg R.CLK_STATUS.STATE,
   .reg R.CLK_STATUS.COAST,
   .prt .therm,
   fp_resendTokens]

theorem foot_goClock {pr : Print} {z s : State} {c : Nat} (hP : fp_goClock.Sub pr) (hk : Within pr z s) :
    Within pr z (goClock c s) := by
  simp only [fp_goClock, Print.join_cons, Print.join_nil, and_true] at hP
  obtain ⟨e0, e1, e2, e3⟩ := hP
  unfold goClock
  iterate 40 (try any_goals first | with_reducible assumption | exact Print.has_reg e0 | exact Print.has_reg e1 | exact Print.has_prt e2 | with_reducible apply Print.has_ite | with_reducible refine Within.put _ ?_ ?_ | with_reducible refine Within.putB _ ?_ ?_ | with_reducible refine foot_resendTokens e3 ?_ | with_reducible refine Within.when ?_ ?_ | exact Or.inr (Print.has_prt (by assumption)) | with_reducible exact Or.inl rfl | intro _ | (dsimp only) | with_reducible apply Within.upd)

def fp_halveEdges : Print := .join
  [.row Cell.phase none,
   .prt .out,
   fp_setClk]

theorem foot_halveEdges {pr : Print} {z s : State} (hP : fp_halveEdges.Sub pr) (hk : Within pr z s) :
    Within pr z (halveEdges s) := by
  simp only [fp_halveEdges, Print.join_cons, Print.join_nil, and_true] at hP
  obtain ⟨e0, e1, e2⟩ := hP
  unfold halveEdges
  iterate 40 (try any_goals first | with_reducible assumption | with_reducible refine Within.setPhase _ (Print.has_row rfl Names.any e0) ?_ | exact Print.has_prt e1 | with_reducible refine Within.emit _ ?_ ?_ | with_reducible refine foot_setClk e2 ?_ | with_reducible refine Within.each ?_ ?_ | exact Or.inr (Print.has_prt (by assumption)) | with_reducible exact Or.inl rfl | intro _ | (dsimp only) | split | with_reducible apply Within.upd)

def fp_enterCoast : Print := .join
  [.reg R.CLK_STATUS.SYNC_LOST,
   .reg R.CLK_EVENT.REF_LOST,
   .reg R.CLK_EVENT.COAST_ENTER,
   .reg R.CLK_COAST_CNT.COUNT,
   .reg R.PST_SYNC_STAT.LOCK,
   .reg R.THM_COAST_CAL.CT,
   .prt .therm,
   fp_goClock,
   fp_setClk,
   fp_halveEdges,
   fp_ringLeave,
   fp_record]

theorem foot_enterCoast {pr : Print} {z s : State} {atOnce : Bool} (hP : fp_enterCoast.Sub pr) (hk : Within pr z s) :
    Within pr z (enterCoast atOnce s) := by
  simp only [fp_enterCoast, Print.join_cons, Print.join_nil, and_true] at hP
  obtain ⟨e0, e1, e2, e3, e4, e5, e6, hP⟩ := hP
  obtain ⟨e7, e8, e9, e10, e11⟩ := hP
  unfold enterCoast
  iterate 40 (try any_goals first | with_reducible assumption | exact Print.has_reg e0 | exact Print.has_reg e1 | exact Print.has_reg e2 | exact Print.has_reg e3 | exact Print.has_reg e4 | exact Print.has_reg e5 | exact Print.has_prt e6 | with_reducible apply Print.has_ite | with_reducible refine Within.put _ ?_ ?_ | with_reducible refine foot_goClock e7 ?_ | with_reducible refine foot_setClk e8 ?_ | with_reducible refine foot_halveEdges e9 ?_ | with_reducible refine foot_ringLeave e10 ?_ | with_reducible refine foot_record e11 ?_ | with_reducible refine Within.when ?_ ?_ | exact Or.inr (Print.has_prt (by assumption)) | with_reducible exact Or.inl rfl | intro _ | (dsimp only) | split | with_reducible apply Within.upd)

def fp_enterLocked : Print := .join
  [.reg R.CLK_STATUS.REF_OK,
   .reg R.CLK_EVENT.COAST_EXIT,
   .reg R.CLK_STATUS.SYNC_LOST,
   fp_goClock,
   fp_setClk,
   fp_record,
   fp_ringListen]

theorem foot_enterLocked {pr : Print} {z s : State} (hP : fp_enterLocked.Sub pr) (hk : Within pr z s) :
    Within pr z (enterLocked s) := by
  simp only [fp_enterLocked, Print.join_cons, Print.join_nil, and_true] at hP
  obtain ⟨e0, e1, e2, e3, e4, e5, e6⟩ := hP
  unfold enterLocked
  iterate 40 (try any_goals first | with_reducible assumption | exact Print.has_reg e0 | exact Print.has_reg e1 | exact Print.has_reg e2 | with_reducible apply Print.has_ite | with_reducible refine Within.put _ ?_ ?_ | with_reducible refine foot_goClock e3 ?_ | with_reducible refine foot_setClk e4 ?_ | with_reducible refine foot_record e5 ?_ | with_reducible refine foot_ringListen e6 ?_ | with_reducible refine Within.when ?_ ?_ | exact Or.inr (Print.has_prt (by assumption)) | with_reducible exact Or.inl rfl | intro _ | (dsimp only) | with_reducible apply Within.upd)

def fp_startFailed : Print := .join
  [.reg R.CLK_STATUS.REF_OK,
   fp_enterCoast,
   fp_setClk]

theorem foot_startFailed {pr : Print} {z s : State} (hP : fp_startFailed.Sub pr) (hk : Within pr z s) :
    Within pr z (startFailed s) := by
  simp only [fp_startFailed, Print.join_cons, Print.join_nil, and_true] at hP
  obtain ⟨e0, e1, e2⟩ := hP
  unfold startFailed
  iterate 40 (try any_goals first | with_reducible assumption | exact Print.has_reg e0 | with_reducible apply Print.has_ite | with_reducible refine Within.put _ ?_ ?_ | with_reducible refine foot_enterCoast e1 ?_ | with_reducible refine foot_setClk e2 ?_ | exact Or.inr (Print.has_prt (by assumption)) | with_reducible exact Or.inl rfl | (dsimp only) | split | with_reducible apply Within.upd)

def fp_calibrate : Print := .join
  [.reg R.THM_COAST_CAL.CT,
   .prt .therm]

theorem foot_calibrate {pr : Print} {z s : State} {edges : Nat} (hP : fp_calibrate.Sub pr) (hk : Within pr z s) :
    Within pr z (calibrate edges s) := by
  simp only [fp_calibrate, Print.join_cons, Print.join_nil, and_true] at hP
  obtain ⟨e0, e1⟩ := hP
  unfold calibrate
  iterate 40 (try any_goals first | with_reducible assumption | exact Print.has_reg e0 | exact Print.has_prt e1 | with_reducible apply Print.has_ite | with_reducible refine Within.put _ ?_ ?_ | exact Or.inr (Print.has_prt (by assumption)) | with_reducible exact Or.inl rfl | (dsimp only) | split | with_reducible apply Within.upd)

def fp_effJudgeWindow : Print := .join
  [.reg R.CLK_REF_COUNT.COUNT,
   .reg R.CLK_STATUS.REF_OK,
   .reg R.CLK_EVENT.JUDGE_FAIL,
   fp_calibrate,
   fp_setClk,
   fp_goClock]

theorem foot_effJudgeWindow {pr : Print} {z s : State} {count : Nat} {tclk : Nat} (hP : fp_effJudgeWindow.Sub pr) (hk : Within pr z s) :
    Within pr z (effJudgeWindow count tclk s) := by
  simp only [fp_effJudgeWindow, Print.join_cons, Print.join_nil, and_true] at hP
  obtain ⟨e0, e1, e2, e3, e4, e5⟩ := hP
  unfold effJudgeWindow
  iterate 40 (try any_goals first | with_reducible assumption | exact Print.has_reg e0 | exact Print.has_reg e1 | exact Print.has_reg e2 | with_reducible apply Print.has_ite | with_reducible refine Within.put _ ?_ ?_ | with_reducible refine foot_calibrate e3 ?_ | with_reducible refine foot_setClk e4 ?_ | with_reducible refine foot_goClock e5 ?_ | with_reducible refine Within.when ?_ ?_ | exact Or.inr (Print.has_prt (by assumption)) | with_reducible exact Or.inl rfl | intro _ | (dsimp only) | split | with_reducible apply Within.upd)

def fp_execJudgeWindow : Print := .join
  [fp_finish,
   fp_effJudgeWindow]

theorem foot_execJudgeWindow {pr : Print} {z s t : State} {window : WindowCounts} (hP : fp_execJudgeWindow.Sub pr) (hk : Within pr z s)
    (h : execJudgeWindow window s = .next t) : Within pr z t := by
  simp only [fp_execJudgeWindow, Print.join_cons, Print.join_nil, and_true] at hP
  obtain ⟨e0, e1⟩ := hP
  unfold execJudgeWindow done at h
  injection h with h
  subst h
  iterate 40 (try any_goals first | with_reducible assumption | with_reducible refine foot_finish e0 ?_ | with_reducible refine foot_effJudgeWindow e1 ?_)

def fp_declareLost : Print := .join
  [.reg R.CLK_STATUS.REF_OK,
   fp_setClk,
   fp_record]

theorem foot_declareLost {pr : Print} {z s : State} (hP : fp_declareLost.Sub pr) (hk : Within pr z s) :
    Within pr z (declareLost s) := by
  simp only [fp_declareLost, Print.join_cons, Print.join_nil, and_true] at hP
  obtain ⟨e0, e1, e2⟩ := hP
  unfold declareLost
  iterate 40 (try any_goals first | with_reducible assumption | exact Print.has_reg e0 | with_reducible apply Print.has_ite | with_reducible refine Within.put _ ?_ ?_ | with_reducible refine foot_setClk e1 ?_ | with_reducible refine foot_record e2 ?_ | exact Or.inr (Print.has_prt (by assumption)) | with_reducible exact Or.inl rfl | (dsimp only) | with_reducible apply Within.upd)

def fp_effLockMonitorWindow : Print := .join
  [fp_enterLocked,
   fp_setClk,
   fp_declareLost]

theorem foot_effLockMonitorWindow {pr : Print} {z s : State} {count : Nat} (hP : fp_effLockMonitorWindow.Sub pr) (hk : Within pr z s) :
    Within pr z (effLockMonitorWindow count s) := by
  simp only [fp_effLockMonitorWindow, Print.join_cons, Print.join_nil, and_true] at hP
  obtain ⟨e0, e1, e2⟩ := hP
  unfold effLockMonitorWindow
  iterate 40 (try any_goals first | with_reducible assumption | with_reducible refine foot_enterLocked e0 ?_ | with_reducible refine foot_setClk e1 ?_ | with_reducible refine foot_declareLost e2 ?_ | exact Or.inr (Print.has_prt (by assumption)) | with_reducible exact Or.inl rfl | (dsimp only) | split | with_reducible apply Within.upd)

def fp_execLockMonitorWindow : Print := .join
  [fp_finish,
   fp_effLockMonitorWindow]

theorem foot_execLockMonitorWindow {pr : Print} {z s t : State} {count : Nat} (hP : fp_execLockMonitorWindow.Sub pr) (hk : Within pr z s)
    (h : execLockMonitorWindow count s = .next t) : Within pr z t := by
  simp only [fp_execLockMonitorWindow, Print.join_cons, Print.join_nil, and_true] at hP
  obtain ⟨e0, e1⟩ := hP
  unfold execLockMonitorWindow done at h
  injection h with h
  subst h
  iterate 40 (try any_goals first | with_reducible assumption | with_reducible refine foot_finish e0 ?_ | with_reducible refine foot_effLockMonitorWindow e1 ?_)

def fp_effLockRetry : Print := .join
  [.reg R.CLK_EVENT.LOCK_RETRY,
   .reg R.CLK_STATUS.REF_OK,
   .reg R.CLK_STATUS.LOCK_FAIL,
   fp_setClk,
   fp_goClock,
   fp_startFailed]

theorem foot_effLockRetry {pr : Print} {z s : State} (hP : fp_effLockRetry.Sub pr) (hk : Within pr z s) :
    Within pr z (effLockRetry s) := by
  simp only [fp_effLockRetry, Print.join_cons, Print.join_nil, and_true] at hP
  obtain ⟨e0, e1, e2, e3, e4, e5⟩ := hP
  unfold effLockRetry
  iterate 40 (try any_goals first | with_reducible assumption | exact Print.has_reg e0 | exact Print.has_reg e1 | exact Print.has_reg e2 | with_reducible apply Print.has_ite | with_reducible refine Within.put _ ?_ ?_ | with_reducible refine foot_setClk e3 ?_ | with_reducible refine foot_goClock e4 ?_ | with_reducible refine foot_startFailed e5 ?_ | with_reducible refine Within.when ?_ ?_ | exact Or.inr (Print.has_prt (by assumption)) | with_reducible exact Or.inl rfl | intro _ | (dsimp only) | split | with_reducible apply Within.upd)

def fp_execLockRetry : Print := .join
  [fp_finish,
   fp_effLockRetry]

theorem foot_execLockRetry {pr : Print} {z s t : State} (hP : fp_execLockRetry.Sub pr) (hk : Within pr z s)
    (h : execLockRetry s = .next t) : Within pr z t := by
  simp only [fp_execLockRetry, Print.join_cons, Print.join_nil, and_true] at hP
  obtain ⟨e0, e1⟩ := hP
  unfold execLockRetry done at h
  injection h with h
  subst h
  iterate 40 (try any_goals first | with_reducible assumption | with_reducible refine foot_finish e0 ?_ | with_reducible refine foot_effLockRetry e1 ?_)

def fp_effBootClockTimeout : Print := .join
  [fp_setClk,
   fp_startFailed]

theorem foot_effBootClockTimeout {pr : Print} {z s : State} (hP : fp_effBootClockTimeout.Sub pr) (hk : Within pr z s) :
    Within pr z (effBootClockTimeout s) := by
  simp only [fp_effBootClockTimeout, Print.join_cons, Print.join_nil, and_true] at hP
  obtain ⟨e0, e1⟩ := hP
  unfold effBootClockTimeout
  iterate 40 (try any_goals first | with_reducible assumption | with_reducible refine foot_setClk e0 ?_ | with_reducible refine foot_startFailed e1 ?_ | with_reducible refine Within.when ?_ ?_ | exact Or.inr (Print.has_prt (by assumption)) | with_reducible exact Or.inl rfl | intro _ | (dsimp only) | split | with_reducible apply Within.upd)

def fp_execBootClockTimeout : Print := .join
  [fp_finish,
   fp_effBootClockTimeout]

theorem foot_execBootClockTimeout {pr : Print} {z s t : State} (hP : fp_execBootClockTimeout.Sub pr) (hk : Within pr z s)
    (h : execBootClockTimeout s = .next t) : Within pr z t := by
  simp only [fp_execBootClockTimeout, Print.join_cons, Print.join_nil, and_true] at hP
  obtain ⟨e0, e1⟩ := hP
  unfold execBootClockTimeout done at h
  injection h with h
  subst h
  iterate 40 (try any_goals first | with_reducible assumption | with_reducible refine foot_finish e0 ?_ | with_reducible refine foot_effBootClockTimeout e1 ?_)

def fp_execRefLost : Print := .join
  [fp_finish,
   fp_declareLost]

theorem foot_execRefLost {pr : Print} {z s t : State} (hP : fp_execRefLost.Sub pr) (hk : Within pr z s)
    (h : execRefLost s = .next t) : Within pr z t := by
  simp only [fp_execRefLost, Print.join_cons, Print.join_nil, and_true] at hP
  obtain ⟨e0, e1⟩ := hP
  unfold execRefLost done at h
  injection h with h
  subst h
  iterate 40 (try any_goals first | with_reducible assumption | with_reducible refine foot_finish e0 ?_ | with_reducible refine foot_declareLost e1 ?_ | split)

def fp_execCoastEnter : Print := .join
  [fp_finish,
   fp_enterCoast]

theorem foot_execCoastEnter {pr : Print} {z s t : State} (hP : fp_execCoastEnter.Sub pr) (hk : Within pr z s)
    (h : execCoastEnter s = .next t) : Within pr z t := by
  simp only [fp_execCoastEnter, Print.join_cons, Print.join_nil, and_true] at hP
  obtain ⟨e0, e1⟩ := hP
  unfold execCoastEnter done at h
  injection h with h
  subst h
  iterate 40 (try any_goals first | with_reducible assumption | with_reducible refine foot_finish e0 ?_ | with_reducible refine foot_enterCoast e1 ?_ | split)

def fp_execRelockStart : Print := .join
  [fp_finish,
   fp_goClock,
   fp_setClk]

theorem foot_execRelockStart {pr : Print} {z s t : State} (hP : fp_execRelockStart.Sub pr) (hk : Within pr z s)
    (h : execRelockStart s = .next t) : Within pr z t := by
  simp only [fp_execRelockStart, Print.join_cons, Print.join_nil, and_true] at hP
  obtain ⟨e0, e1, e2⟩ := hP
  unfold execRelockStart done at h
  injection h with h
  subst h
  iterate 40 (try any_goals first | with_reducible assumption | with_reducible refine foot_finish e0 ?_ | with_reducible refine foot_goClock e1 ?_ | with_reducible refine foot_setClk e2 ?_ | exact Or.inr (Print.has_prt (by assumption)) | with_reducible exact Or.inl rfl | (dsimp only) | split | with_reducible apply Within.upd)

def fp_effRelockTimeout : Print := .join
  [.reg R.CLK_EVENT.LOCK_RETRY,
   .reg R.CLK_CFG.AUTO_RELOCK,
   fp_setClk,
   fp_enterCoast]

theorem foot_effRelockTimeout {pr : Print} {z s : State} (hP : fp_effRelockTimeout.Sub pr) (hk : Within pr z s) :
    Within pr z (effRelockTimeout s) := by
  simp only [fp_effRelockTimeout, Print.join_cons, Print.join_nil, and_true] at hP
  obtain ⟨e0, e1, e2, e3⟩ := hP
  unfold effRelockTimeout
  iterate 40 (try any_goals first | with_reducible assumption | exact Print.has_reg e0 | exact Print.has_reg e1 | with_reducible apply Print.has_ite | with_reducible refine Within.put _ ?_ ?_ | with_reducible refine foot_setClk e2 ?_ | with_reducible refine foot_enterCoast e3 ?_ | with_reducible refine Within.when ?_ ?_ | exact Or.inr (Print.has_prt (by assumption)) | with_reducible exact Or.inl rfl | intro _ | (dsimp only) | split | with_reducible apply Within.upd)

def fp_execRelockTimeout : Print := .join
  [fp_finish,
   fp_effRelockTimeout]

theorem foot_execRelockTimeout {pr : Print} {z s t : State} (hP : fp_execRelockTimeout.Sub pr) (hk : Within pr z s)
    (h : execRelockTimeout s = .next t) : Within pr z t := by
  simp only [fp_execRelockTimeout, Print.join_cons, Print.join_nil, and_true] at hP
  obtain ⟨e0, e1⟩ := hP
  unfold execRelockTimeout done at h
  injection h with h
  subst h
  iterate 40 (try any_goals first | with_reducible assumption | with_reducible refine foot_finish e0 ?_ | with_reducible refine foot_effRelockTimeout e1 ?_)

def fp_showEmpty (d : Option Nat) : Print := .join
  [.reg1 R.ITN_DIE_STAT.EMPTY d]

theorem foot_showEmpty {pr : Print} {z s : State} {d : Nat} {o_d : Option Nat} (n_d : Names o_d d) (hP : (fp_showEmpty o_d).Sub pr) (hk : Within pr z s) :
    Within pr z (showEmpty d s) := by
  simp only [fp_showEmpty, Print.join_cons, Print.join_nil, and_true] at hP
  have e0 := hP
  unfold showEmpty
  iterate 40 (try any_goals first | with_reducible assumption | exact Print.has_reg1 n_d e0 | with_reducible apply Print.has_ite | with_reducible refine Within.putB _ ?_ ?_)

def fp_endForced (d : Option Nat) : Print := .join
  [.row Cell.itn d,
   fp_completeAt]

theorem foot_endForced {pr : Print} {z s : State} {d : Nat} {lengthNs : Nat} {o_d : Option Nat} (n_d : Names o_d d) (hP : (fp_endForced o_d).Sub pr) (hk : Within pr z s) :
    Within pr z (endForced d lengthNs s) := by
  simp only [fp_endForced, Print.join_cons, Print.join_nil, and_true] at hP
  obtain ⟨e0, e1⟩ := hP
  unfold endForced
  iterate 40 (try any_goals first | with_reducible assumption | with_reducible refine Within.setItn _ (Print.has_row rfl n_d e0) ?_ | with_reducible refine foot_completeAt e1 ?_ | with_reducible refine Within.each ?_ ?_ | exact Or.inr (Print.has_prt (by assumption)) | with_reducible exact Or.inl rfl | intro _ | (dsimp only) | with_reducible apply Within.upd)

def fp_dropForced (d : Option Nat) : Print := .join
  [.row Cell.itn d,
   fp_endForced d,
   fp_completeAt]

theorem foot_dropForced {pr : Print} {z s : State} {d : Nat} {o_d : Option Nat} (n_d : Names o_d d) (hP : (fp_dropForced o_d).Sub pr) (hk : Within pr z s) :
    Within pr z (dropForced d s) := by
  simp only [fp_dropForced, Print.join_cons, Print.join_nil, and_true] at hP
  obtain ⟨e0, e1, e2⟩ := hP
  unfold dropForced
  iterate 40 (try any_goals first | with_reducible assumption | with_reducible refine Within.setItn _ (Print.has_row rfl n_d e0) ?_ | with_reducible refine foot_endForced n_d e1 ?_ | with_reducible refine foot_completeAt e2 ?_ | with_reducible refine Within.each ?_ ?_ | exact Or.inr (Print.has_prt (by assumption)) | with_reducible exact Or.inl rfl | intro _ | (dsimp only) | with_reducible apply Within.upd)

def fp_resetReached : Print := .join
  [fp_completeAt,
   fp_keepResult]

theorem foot_resetReached {pr : Print} {z s : State} {d : Nat} (hP : fp_resetReached.Sub pr) (hk : Within pr z s) :
    Within pr z (resetReached d s) := by
  simp only [fp_resetReached, Print.join_cons, Print.join_nil, and_true] at hP
  obtain ⟨e0, e1⟩ := hP
  unfold resetReached
  iterate 40 (try any_goals first | with_reducible assumption | with_reducible refine foot_completeAt e0 ?_ | with_reducible refine foot_keepResult e1 ?_ | with_reducible refine Within.each ?_ ?_ | intro _ | (dsimp only) | split)

def fp_endCut (d : Option Nat) : Print := .join
  [.row Cell.itn d,
   .row Cell.link d,
   .reg1 R.ITN_DRP_STAT.FIRED d,
   .reg1 R.ITN_DIE_STAT.CUT d,
   .reg1 R.ITN_DIE_STAT.STRETCH d,
   .prt .out,
   .prt .pins,
   fp_sendUp d,
   fp_endForced d,
   fp_showReasons d]

theorem foot_endCut {pr : Print} {z s : State} {d : Nat} {o_d : Option Nat} (n_d : Names o_d d) (hP : (fp_endCut o_d).Sub pr) (hk : Within pr z s) :
    Within pr z (endCut d s) := by
  simp only [fp_endCut, Print.join_cons, Print.join_nil, and_true] at hP
  obtain ⟨e0, e1, e2, e3, e4, e5, e6, hP⟩ := hP
  obtain ⟨e7, e8, e9⟩ := hP
  unfold endCut
  iterate 40 (try any_goals first | with_reducible assumption | with_reducible refine Within.setItn _ (Print.has_row rfl n_d e0) ?_ | with_reducible refine Within.setLink _ (Print.has_row rfl n_d e1) ?_ | exact Print.has_reg1 n_d e2 | exact Print.has_reg1 n_d e3 | exact Print.has_reg1 n_d e4 | exact Print.has_prt e5 | exact Print.has_prt e6 | with_reducible apply Print.has_ite | with_reducible refine Within.agentPut ?_ ?_ ?_ | exact Print.has_row rfl n_d e1 | with_reducible refine Within.heard ?_ ?_ | with_reducible refine Within.emit _ ?_ ?_ | with_reducible refine foot_sendUp n_d e7 ?_ | with_reducible refine foot_endForced n_d e8 ?_ | with_reducible refine foot_showReasons n_d e9 ?_ | with_reducible refine Within.when ?_ ?_ | exact Or.inr (Print.has_prt (by assumption)) | with_reducible exact Or.inl rfl | intro _ | (dsimp only) | split | with_reducible apply Within.upd)

def fp_retargetCore (d : Option Nat) : Print := .join
  [.reg1 R.LPE_REF.TARGET d]

theorem foot_retargetCore {pr : Print} {z s : State} {d : Nat} {o_d : Option Nat} (n_d : Names o_d d) (hP : (fp_retargetCore o_d).Sub pr) (hk : Within pr z s) :
    Within pr z (retargetCore d s) := by
  simp only [fp_retargetCore, Print.join_cons, Print.join_nil, and_true] at hP
  have e0 := hP
  unfold retargetCore
  iterate 40 (try any_goals first | with_reducible assumption | exact Print.has_reg1 n_d e0 | with_reducible apply Print.has_ite | with_reducible refine Within.put _ ?_ ?_)

def fp_setLinkPair : Print := .join
  [.reg R.EST_LINK_TRIM.GAIN,
   .reg R.EST_LINK_OFS.OFS,
   .prt .estp]

theorem foot_setLinkPair {pr : Print} {z s : State} {p : Pair} (hP : fp_setLinkPair.Sub pr) (hk : Within pr z s) :
    Within pr z (setLinkPair p s) := by
  simp only [fp_setLinkPair, Print.join_cons, Print.join_nil, and_true] at hP
  obtain ⟨e0, e1, e2⟩ := hP
  unfold setLinkPair
  iterate 40 (try any_goals first | with_reducible assumption | exact Print.has_reg e0 | exact Print.has_reg e1 | exact Print.has_prt e2 | with_reducible apply Print.has_ite | with_reducible refine Within.put _ ?_ ?_ | with_reducible refine Within.putI _ ?_ ?_ | exact Or.inr (Print.has_prt (by assumption)) | with_reducible exact Or.inl rfl | (dsimp only) | with_reducible apply Within.upd)

def fp_restLinkPair : Print := .join
  [.prt .estp,
   fp_setLinkPair]

theorem foot_restLinkPair {pr : Print} {z s : State} (hP : fp_restLinkPair.Sub pr) (hk : Within pr z s) :
    Within pr z (restLinkPair s) := by
  simp only [fp_restLinkPair, Print.join_cons, Print.join_nil, and_true] at hP
  obtain ⟨e0, e1⟩ := hP
  unfold restLinkPair
  iterate 40 (try any_goals first | with_reducible assumption | exact Print.has_prt e0 | with_reducible refine foot_setLinkPair e1 ?_ | exact Or.inr (Print.has_prt (by assumption)) | with_reducible exact Or.inl rfl | with_reducible apply Within.upd)

theorem pageIf_lt (c : Prop) [Decidable c] {p : Nat} (h : p < 16) : pageIf c p < 16 := by
  unfold pageIf
  split <;> omega

/-- The readings held through a reset of a die lie in class DIE. -/
theorem held_class (d : Nat) (s : State) :
    ∀ e ∈ (heldReadings d).map (fun f => (f, get s f)), keyClass (fieldKey e.1) = retCode Ret.die := by
  intro e he
  obtain ⟨f, hf, rfl⟩ := List.mem_map.1 he
  have hk : f.cls = Ret.die ∧ f.page < 16 ∧ f.unit < 32 ∧ f.off < 2 ^ 22 - 64 ∧ f.lo < 64 := by
    simp only [heldReadings, List.mem_append, List.mem_cons, List.not_mem_nil, or_false, List.mem_map] at hf
    rcases hf with (rfl | rfl | rfl | rfl) | ⟨i, -, rfl⟩ <;>
      refine ⟨rfl, pageIf_lt _ (by decide), ?_⟩ <;>
      simp only [R.THM_DIE_T.HOT, R.THM_DIE_T.HOT_LAYER, R.THM_DIE_T2.MEAN, R.THM_DIE_T2.MEAN_LAYER, R.THM_SNS.T] <;> omega
  rw [keyClass_fieldKey hk.2.1 hk.2.2.1 hk.2.2.2.1 hk.2.2.2.2, hk.1]

def fp_dieCleared (d : Option Nat) : Print := .join
  [.cls .die,
   .reg1 R.THM_DIE_STAT.STALE d,
   .row Cell.tok d,
   .row Cell.itn d,
   .row Cell.est d,
   .row Cell.cap d,
   .prt .out,
   .prt .pins,
   fp_leaveLost d,
   fp_endCut d,
   fp_dropForced d,
   fp_resetReached,
   fp_setTherm,
   fp_retargetCore d,
   fp_ringStale,
   fp_recovDieReset,
   fp_restLinkPair]

theorem foot_dieCleared {pr : Print} {z s : State} {d : Nat} {o_d : Option Nat} (n_d : Names o_d d) (hP : (fp_dieCleared o_d).Sub pr) (hk : Within pr z s) :
    Within pr z (dieCleared d s) := by
  simp only [fp_dieCleared, Print.join_cons, Print.join_nil, and_true] at hP
  obtain ⟨e0, e1, e2, e3, e4, e5, e6, hP⟩ := hP
  obtain ⟨e7, e8, e9, e10, e11, e12, e13, hP⟩ := hP
  obtain ⟨e14, e15, e16⟩ := hP
  unfold dieCleared
  iterate 40 (try any_goals first | with_reducible assumption | with_reducible refine Within.restore (c := .die) (held_class _ _) (Print.has_cls e0) ?_ | exact Print.has_cls e0 | exact Print.has_reg1 n_d e1 | with_reducible refine Within.setTok _ (Print.has_row rfl n_d e2) ?_ | with_reducible refine Within.setItn _ (Print.has_row rfl n_d e3) ?_ | with_reducible refine Within.setEst _ (Print.has_row rfl n_d e4) ?_ | with_reducible refine Within.setCap _ (Print.has_row rfl n_d e5) ?_ | exact Print.has_prt e6 | exact Print.has_prt e7 | with_reducible apply Print.has_ite | with_reducible refine Within.put _ ?_ ?_ | with_reducible refine Within.emit _ ?_ ?_ | with_reducible refine Within.clearDieRegs _ ?_ ?_ | with_reducible refine foot_leaveLost n_d e8 ?_ | with_reducible refine foot_endCut n_d e9 ?_ | with_reducible refine foot_dropForced n_d e10 ?_ | with_reducible refine foot_resetReached e11 ?_ | with_reducible refine foot_setTherm e12 ?_ | with_reducible refine foot_retargetCore n_d e13 ?_ | with_reducible refine foot_ringStale e14 ?_ | with_reducible refine foot_recovDieReset e15 ?_ | with_reducible refine foot_restLinkPair e16 ?_ | with_reducible refine Within.each ?_ ?_ | with_reducible refine Within.when ?_ ?_ | exact Or.inr (Print.has_prt (by assumption)) | with_reducible exact Or.inl rfl | intro _ | (dsimp only) | with_reducible apply Within.upd)

def fp_clearAcc : Print := .join
  [.cls .acc,
   fp_restLinkPair,
   fp_recovAccReset]

theorem foot_clearAcc {pr : Print} {z s : State} (hP : fp_clearAcc.Sub pr) (hk : Within pr z s) :
    Within pr z (clearAcc s) := by
  simp only [fp_clearAcc, Print.join_cons, Print.join_nil, and_true] at hP
  obtain ⟨e0, e1, e2⟩ := hP
  unfold clearAcc
  iterate 40 (try any_goals first | with_reducible assumption | exact Print.has_cls e0 | with_reducible refine Within.clearClass ?_ ?_ | with_reducible refine foot_restLinkPair e1 ?_ | with_reducible refine foot_recovAccReset e2 ?_ | (dsimp only))

def fp_accCleared : Print := .join
  [fp_dieCleared none,
   fp_clearAcc]

theorem foot_accCleared {pr : Print} {z s : State} (hP : fp_accCleared.Sub pr) (hk : Within pr z s) :
    Within pr z (accCleared s) := by
  simp only [fp_accCleared, Print.join_cons, Print.join_nil, and_true] at hP
  obtain ⟨e0, e1⟩ := hP
  unfold accCleared
  iterate 40 (try any_goals first | with_reducible assumption | with_reducible refine foot_dieCleared Names.any e0 ?_ | with_reducible refine foot_clearAcc e1 ?_ | with_reducible refine Within.each ?_ ?_ | intro _ | (dsimp only))

def fp_restartLink (d : Option Nat) : Print := .join
  [.row Cell.link d]

theorem foot_restartLink {pr : Print} {z s : State} {d : Nat} {o_d : Option Nat} (n_d : Names o_d d) (hP : (fp_restartLink o_d).Sub pr) (hk : Within pr z s) :
    Within pr z (restartLink d s) := by
  simp only [fp_restartLink, Print.join_cons, Print.join_nil, and_true] at hP
  have e0 := hP
  unfold restartLink
  iterate 40 (try any_goals first | with_reducible assumption | with_reducible refine Within.setLink _ (Print.has_row rfl n_d e0) ?_ | exact Or.inr (Print.has_prt (by assumption)) | with_reducible exact Or.inl rfl | with_reducible apply Within.upd)

def fp_recordRail : Print := .join
  [fp_recordDie,
   fp_record]

theorem foot_recordRail {pr : Print} {z s : State} {code : Nat} {r : Nat} {arg : Nat} (hP : fp_recordRail.Sub pr) (hk : Within pr z s) :
    Within pr z (recordRail code r arg s) := by
  simp only [fp_recordRail, Print.join_cons, Print.join_nil, and_true] at hP
  obtain ⟨e0, e1⟩ := hP
  unfold recordRail
  iterate 40 (try any_goals first | with_reducible assumption | with_reducible refine foot_recordDie e0 ?_ | with_reducible refine foot_record e1 ?_ | split)

def fp_setPh (n : Option Nat) : Print := .join
  [.reg1 R.PST_PH_STAT.STATE n]

theorem foot_setPh {pr : Print} {z s : State} {n : Nat} {c : Nat} {o_n : Option Nat} (n_n : Names o_n n) (hP : (fp_setPh o_n).Sub pr) (hk : Within pr z s) :
    Within pr z (setPh n c s) := by
  simp only [fp_setPh, Print.join_cons, Print.join_nil, and_true] at hP
  have e0 := hP
  unfold setPh
  iterate 40 (try any_goals first | with_reducible assumption | exact Print.has_reg1 n_n e0 | with_reducible apply Print.has_ite | with_reducible refine Within.put _ ?_ ?_)

def fp_unpower (d : Option Nat) : Print := .join
  [.row Cell.link d,
   .row Cell.est d]

theorem foot_unpower {pr : Print} {z s : State} {d : Nat} {o_d : Option Nat} (n_d : Names o_d d) (hP : (fp_unpower o_d).Sub pr) (hk : Within pr z s) :
    Within pr z (unpower d s) := by
  simp only [fp_unpower, Print.join_cons, Print.join_nil, and_true] at hP
  obtain ⟨e0, e1⟩ := hP
  unfold unpower
  iterate 40 (try any_goals first | with_reducible assumption | with_reducible refine Within.setLink _ (Print.has_row rfl n_d e0) ?_ | with_reducible refine Within.setEst _ (Print.has_row rfl n_d e1) ?_ | exact Or.inr (Print.has_prt (by assumption)) | with_reducible exact Or.inl rfl | (dsimp only) | split | with_reducible apply Within.upd)

def fp_stopTest : Print := .join
  [.prt .test]

theorem foot_stopTest {pr : Print} {z s : State} {r : Nat} (hP : fp_stopTest.Sub pr) (hk : Within pr z s) :
    Within pr z (stopTest r s) := by
  simp only [fp_stopTest, Print.join_cons, Print.join_nil, and_true] at hP
  have e0 := hP
  unfold stopTest
  iterate 40 (try any_goals first | with_reducible assumption | exact Print.has_prt e0 | exact Or.inr (Print.has_prt (by assumption)) | with_reducible exact Or.inl rfl | split | with_reducible apply Within.upd)

def fp_railOff (r : Option Nat) : Print := .join
  [.row Cell.phase none,
   .reg1 R.PST_PH_DUTY.TRIM none,
   .reg1 R.LPE_STAT.STATE r,
   .reg1 R.LPE_STAT.CAUSE r,
   .reg1 R.PST_RAIL_STAT.BRAKING r,
   .row Cell.rail r,
   .reg1 R.ITN_DIE_STAT.PE r,
   fp_setPh none,
   fp_endCut r,
   fp_stopTest,
   fp_unpower (r.map fun r => r % 16),
   fp_refitRail r]

theorem foot_railOff {pr : Print} {z s : State} {r : Nat} {o_r : Option Nat} (n_r : Names o_r r) (hP : (fp_railOff o_r).Sub pr) (hk : Within pr z s) :
    Within pr z (railOff r s) := by
  simp only [fp_railOff, Print.join_cons, Print.join_nil, and_true] at hP
  obtain ⟨e0, e1, e2, e3, e4, e5, e6, hP⟩ := hP
  obtain ⟨e7, e8, e9, e10, e11⟩ := hP
  unfold railOff
  iterate 40 (try any_goals first | with_reducible assumption | with_reducible refine Within.setPhase _ (Print.has_row rfl Names.any e0) ?_ | exact Print.has_reg1 Names.any e1 | exact Print.has_reg1 n_r e2 | exact Print.has_reg1 n_r e3 | exact Print.has_reg1 n_r e4 | with_reducible refine Within.setRail _ (Print.has_row rfl n_r e5) ?_ | exact Print.has_reg1 n_r e6 | with_reducible apply Print.has_ite | with_reducible refine Within.put _ ?_ ?_ | with_reducible refine foot_setPh Names.any e7 ?_ | with_reducible refine foot_endCut n_r e8 ?_ | with_reducible refine foot_stopTest e9 ?_ | with_reducible refine foot_unpower (Names.map (fun r => r % 16) n_r) e10 ?_ | with_reducible refine foot_refitRail n_r e11 ?_ | with_reducible refine Within.each ?_ ?_ | with_reducible refine Within.when ?_ ?_ | exact Or.inr (Print.has_prt (by assumption)) | with_reducible exact Or.inl rfl | intro _ | (dsimp only) | split | with_reducible apply Within.upd)

def fp_holdDie : Print := .join
  [.prt .boot,
   .prt .pins,
   fp_dieCleared none,
   fp_railOff none]

theorem foot_holdDie {pr : Print} {z s : State} {r : Nat} (hP : fp_holdDie.Sub pr) (hk : Within pr z s) :
    Within pr z (holdDie r s) := by
  simp only [fp_holdDie, Print.join_cons, Print.join_nil, and_true] at hP
  obtain ⟨e0, e1, e2, e3⟩ := hP
  unfold holdDie
  iterate 40 (try any_goals first | with_reducible assumption | exact Print.has_prt e0 | exact Print.has_prt e1 | with_reducible refine foot_dieCleared Names.any e2 ?_ | with_reducible refine foot_railOff Names.any e3 ?_ | exact Or.inr (Print.has_prt (by assumption)) | with_reducible exact Or.inl rfl | (dsimp only) | split | with_reducible apply Within.upd)

def fp_lostCheck (r : Option Nat) : Print := .join
  [.reg1 R.PST_RAIL_STAT.LOST r,
   .reg R.PST_EVENT,
   .prt .boot,
   fp_faultOn,
   fp_recordRail,
   fp_refitRail r,
   fp_holdDie]

theorem foot_lostCheck {pr : Print} {z s : State} {r : Nat} {o_r : Option Nat} (n_r : Names o_r r) (hP : (fp_lostCheck o_r).Sub pr) (hk : Within pr z s) :
    Within pr z (lostCheck r s) := by
  simp only [fp_lostCheck, Print.join_cons, Print.join_nil, and_true] at hP
  obtain ⟨e0, e1, e2, e3, e4, e5, e6⟩ := hP
  unfold lostCheck
  iterate 40 (try any_goals first | with_reducible assumption | exact Print.has_reg1 n_r e0 | exact Print.has_reg e1 | exact Print.has_prt e2 | with_reducible apply Print.has_ite | with_reducible refine Within.put _ ?_ ?_ | with_reducible refine Within.event _ ?_ ?_ | with_reducible refine foot_faultOn e3 ?_ | with_reducible refine foot_recordRail e4 ?_ | with_reducible refine foot_refitRail n_r e5 ?_ | with_reducible refine foot_holdDie e6 ?_ | exact Or.inr (Print.has_prt (by assumption)) | with_reducible exact Or.inl rfl | intro _ | (dsimp only) | split | with_reducible apply Within.upd)

def fp_withhold (n : Option Nat) : Print := .join
  [.row Cell.phase n,
   fp_refitRail (n.map fun n => railOfPhase n),
   fp_lostCheck (n.map fun n => railOfPhase n)]

theorem foot_withhold {pr : Print} {z s : State} {n : Nat} {o_n : Option Nat} (n_n : Names o_n n) (hP : (fp_withhold o_n).Sub pr) (hk : Within pr z s) :
    Within pr z (withhold n s) := by
  simp only [fp_withhold, Print.join_cons, Print.join_nil, and_true] at hP
  obtain ⟨e0, e1, e2⟩ := hP
  unfold withhold
  iterate 40 (try any_goals first | with_reducible assumption | with_reducible refine Within.setPhase _ (Print.has_row rfl n_n e0) ?_ | with_reducible refine foot_refitRail (Names.map (fun n => railOfPhase n) n_n) e1 ?_ | with_reducible refine foot_lostCheck (Names.map (fun n => railOfPhase n) n_n) e2 ?_ | exact Or.inr (Print.has_prt (by assumption)) | with_reducible exact Or.inl rfl | (dsimp only) | with_reducible apply Within.upd)

def fp_failPhase (n : Option Nat) : Print := .join
  [.reg1 R.PST_PH_STAT.CAUSE n,
   .row Cell.phase n,
   .reg R.PST_EVENT,
   fp_setPh n,
   fp_countHealth (some 2),
   fp_recordRail,
   fp_withhold n]

theorem foot_failPhase {pr : Print} {z s : State} {n : Nat} {cause : Nat} {o_n : Option Nat} (n_n : Names o_n n) (hP : (fp_failPhase o_n).Sub pr) (hk : Within pr z s) :
    Within pr z (failPhase n cause s) := by
  simp only [fp_failPhase, Print.join_cons, Print.join_nil, and_true] at hP
  obtain ⟨e0, e1, e2, e3, e4, e5, e6⟩ := hP
  unfold failPhase
  iterate 40 (try any_goals first | with_reducible assumption | exact Print.has_reg1 n_n e0 | with_reducible refine Within.setPhase _ (Print.has_row rfl n_n e1) ?_ | exact Print.has_reg e2 | with_reducible apply Print.has_ite | with_reducible refine Within.put _ ?_ ?_ | with_reducible refine Within.event _ ?_ ?_ | with_reducible refine foot_setPh n_n e3 ?_ | with_reducible refine foot_countHealth Names.one e4 ?_ | with_reducible refine foot_recordRail e5 ?_ | with_reducible refine foot_withhold n_n e6 ?_ | with_reducible refine Within.when ?_ ?_ | exact Or.inr (Print.has_prt (by assumption)) | with_reducible exact Or.inl rfl | intro _ | (dsimp only) | split | with_reducible apply Within.upd)

def fp_enterSoft (n : Option Nat) : Print := .join
  [.row Cell.phase n,
   .reg1 R.PST_PH_DUTY.TRIM n,
   fp_setPh n]

theorem foot_enterSoft {pr : Print} {z s : State} {n : Nat} {frac : Nat} {o_n : Option Nat} (n_n : Names o_n n) (hP : (fp_enterSoft o_n).Sub pr) (hk : Within pr z s) :
    Within pr z (enterSoft n frac s) := by
  simp only [fp_enterSoft, Print.join_cons, Print.join_nil, and_true] at hP
  obtain ⟨e0, e1, e2⟩ := hP
  unfold enterSoft
  iterate 40 (try any_goals first | with_reducible assumption | with_reducible refine Within.setPhase _ (Print.has_row rfl n_n e0) ?_ | exact Print.has_reg1 n_n e1 | with_reducible apply Print.has_ite | with_reducible refine Within.put _ ?_ ?_ | with_reducible refine foot_setPh n_n e2 ?_ | with_reducible refine Within.when ?_ ?_ | exact Or.inr (Print.has_prt (by assumption)) | with_reducible exact Or.inl rfl | intro _ | (dsimp only) | with_reducible apply Within.upd)

def fp_railEnable (r : Option Nat) : Print := .join
  [.row Cell.phase none,
   .reg1 R.LPE_STAT.STATE r,
   .reg1 R.LPE_STAT.CAUSE r,
   .reg1 R.LPE_DUTY.SAFE r,
   .reg1 R.LPE_INT.I r,
   .row Cell.rail r,
   fp_enterSoft none,
   fp_refitRail r,
   fp_lostCheck r]

theorem foot_railEnable {pr : Print} {z s : State} {r : Nat} {o_r : Option Nat} (n_r : Names o_r r) (hP : (fp_railEnable o_r).Sub pr) (hk : Within pr z s) :
    Within pr z (railEnable r s) := by
  simp only [fp_railEnable, Print.join_cons, Print.join_nil, and_true] at hP
  obtain ⟨e0, e1, e2, e3, e4, e5, e6, hP⟩ := hP
  obtain ⟨e7, e8⟩ := hP
  unfold railEnable
  iterate 40 (try any_goals first | with_reducible assumption | with_reducible refine Within.setPhase _ (Print.has_row rfl Names.any e0) ?_ | exact Print.has_reg1 n_r e1 | exact Print.has_reg1 n_r e2 | exact Print.has_reg1 n_r e3 | exact Print.has_reg1 n_r e4 | with_reducible refine Within.setRail _ (Print.has_row rfl n_r e5) ?_ | with_reducible apply Print.has_ite | with_reducible refine Within.put _ ?_ ?_ | with_reducible refine foot_enterSoft Names.any e6 ?_ | with_reducible refine foot_refitRail n_r e7 ?_ | with_reducible refine foot_lostCheck n_r e8 ?_ | with_reducible refine Within.each ?_ ?_ | exact Or.inr (Print.has_prt (by assumption)) | with_reducible exact Or.inl rfl | intro _ | (dsimp only) | split | with_reducible apply Within.upd)

def fp_effHiccupEnter (n : Option Nat) : Print := .join
  [.row Cell.phase n,
   .reg1 R.PST_PH_CNT.HICCUPS n,
   .reg R.PST_EVENT,
   fp_failPhase n,
   fp_setPh n,
   fp_countHealth (some 2),
   fp_recordRail,
   fp_withhold n]

theorem foot_effHiccupEnter {pr : Print} {z s : State} {n : Nat} {o_n : Option Nat} (n_n : Names o_n n) (hP : (fp_effHiccupEnter o_n).Sub pr) (hk : Within pr z s) :
    Within pr z (effHiccupEnter n s) := by
  simp only [fp_effHiccupEnter, Print.join_cons, Print.join_nil, and_true] at hP
  obtain ⟨e0, e1, e2, e3, e4, e5, e6, e7⟩ := hP
  unfold effHiccupEnter
  iterate 40 (try any_goals first | with_reducible assumption | with_reducible refine Within.setPhase _ (Print.has_row rfl n_n e0) ?_ | exact Print.has_reg1 n_n e1 | exact Print.has_reg e2 | with_reducible apply Print.has_ite | with_reducible refine Within.event _ ?_ ?_ | with_reducible refine Within.addSat _ ?_ ?_ | with_reducible refine foot_failPhase n_n e3 ?_ | with_reducible refine foot_setPh n_n e4 ?_ | with_reducible refine foot_countHealth Names.one e5 ?_ | with_reducible refine foot_recordRail e6 ?_ | with_reducible refine foot_withhold n_n e7 ?_ | exact Or.inr (Print.has_prt (by assumption)) | with_reducible exact Or.inl rfl | (dsimp only) | split | with_reducible apply Within.upd)

def fp_execHiccupEnter (phase : Option Nat) : Print := .join
  [fp_finish,
   fp_effHiccupEnter phase]

theorem foot_execHiccupEnter {pr : Print} {z s t : State} {phase : Nat} {o_phase : Option Nat} (n_phase : Names o_phase phase) (hP : (fp_execHiccupEnter o_phase).Sub pr) (hk : Within pr z s)
    (h : execHiccupEnter phase s = .next t) : Within pr z t := by
  simp only [fp_execHiccupEnter, Print.join_cons, Print.join_nil, and_true] at hP
  obtain ⟨e0, e1⟩ := hP
  unfold execHiccupEnter done at h
  injection h with h
  subst h
  iterate 40 (try any_goals first | with_reducible assumption | with_reducible refine foot_finish e0 ?_ | with_reducible refine foot_effHiccupEnter n_phase e1 ?_)

def fp_execHiccupEnd (phase : Option Nat) : Print := .join
  [.reg1 R.PST_PH_STAT.HICCUP_RUN phase,
   fp_finish,
   fp_enterSoft phase]

theorem foot_execHiccupEnd {pr : Print} {z s t : State} {phase : Nat} {o_phase : Option Nat} (n_phase : Names o_phase phase) (hP : (fp_execHiccupEnd o_phase).Sub pr) (hk : Within pr z s)
    (h : execHiccupEnd phase s = .next t) : Within pr z t := by
  simp only [fp_execHiccupEnd, Print.join_cons, Print.join_nil, and_true] at hP
  obtain ⟨e0, e1, e2⟩ := hP
  unfold execHiccupEnd done at h
  injection h with h
  subst h
  iterate 40 (try any_goals first | with_reducible assumption | exact Print.has_reg1 n_phase e0 | with_reducible apply Print.has_ite | with_reducible refine Within.addSat _ ?_ ?_ | with_reducible refine foot_finish e1 ?_ | with_reducible refine foot_enterSoft n_phase e2 ?_ | (dsimp only) | split)

def fp_execHiccupRunClear (phase : Option Nat) : Print := .join
  [.reg1 R.PST_PH_STAT.HICCUP_RUN phase,
   fp_finish]

theorem foot_execHiccupRunClear {pr : Print} {z s t : State} {phase : Nat} {o_phase : Option Nat} (n_phase : Names o_phase phase) (hP : (fp_execHiccupRunClear o_phase).Sub pr) (hk : Within pr z s)
    (h : execHiccupRunClear phase s = .next t) : Within pr z t := by
  simp only [fp_execHiccupRunClear, Print.join_cons, Print.join_nil, and_true] at hP
  obtain ⟨e0, e1⟩ := hP
  unfold execHiccupRunClear done at h
  injection h with h
  subst h
  iterate 40 (try any_goals first | with_reducible assumption | exact Print.has_reg1 n_phase e0 | with_reducible apply Print.has_ite | with_reducible refine Within.put _ ?_ ?_ | with_reducible refine foot_finish e1 ?_ | split)

def fp_effPhaseRampEnd (n : Option Nat) : Print := .join
  [.row Cell.phase n,
   .row Cell.rail none,
   fp_setPh n,
   fp_refitRail none]

theorem foot_effPhaseRampEnd {pr : Print} {z s : State} {n : Nat} {o_n : Option Nat} (n_n : Names o_n n) (hP : (fp_effPhaseRampEnd o_n).Sub pr) (hk : Within pr z s) :
    Within pr z (effPhaseRampEnd n s) := by
  simp only [fp_effPhaseRampEnd, Print.join_cons, Print.join_nil, and_true] at hP
  obtain ⟨e0, e1, e2, e3⟩ := hP
  unfold effPhaseRampEnd
  iterate 40 (try any_goals first | with_reducible assumption | with_reducible refine Within.setPhase _ (Print.has_row rfl n_n e0) ?_ | with_reducible refine Within.setRail _ (Print.has_row rfl Names.any e1) ?_ | with_reducible refine foot_setPh n_n e2 ?_ | with_reducible refine foot_refitRail Names.any e3 ?_ | with_reducible refine Within.when ?_ ?_ | exact Or.inr (Print.has_prt (by assumption)) | with_reducible exact Or.inl rfl | intro _ | (dsimp only) | split | with_reducible apply Within.upd)

def fp_execPhaseRampEnd (phase : Option Nat) : Print := .join
  [fp_finish,
   fp_effPhaseRampEnd phase]

theorem foot_execPhaseRampEnd {pr : Print} {z s t : State} {phase : Nat} {o_phase : Option Nat} (n_phase : Names o_phase phase) (hP : (fp_execPhaseRampEnd o_phase).Sub pr) (hk : Within pr z s)
    (h : execPhaseRampEnd phase s = .next t) : Within pr z t := by
  simp only [fp_execPhaseRampEnd, Print.join_cons, Print.join_nil, and_true] at hP
  obtain ⟨e0, e1⟩ := hP
  unfold execPhaseRampEnd done at h
  injection h with h
  subst h
  iterate 40 (try any_goals first | with_reducible assumption | with_reducible refine foot_finish e0 ?_ | with_reducible refine foot_effPhaseRampEnd n_phase e1 ?_)

def fp_noteSkim (r : Option Nat) : Print := .join
  [.row Cell.rail r]

theorem foot_noteSkim {pr : Print} {z s : State} {r : Nat} {o_r : Option Nat} (n_r : Names o_r r) (hP : (fp_noteSkim o_r).Sub pr) (hk : Within pr z s) :
    Within pr z (noteSkim r s) := by
  simp only [fp_noteSkim, Print.join_cons, Print.join_nil, and_true] at hP
  have e0 := hP
  unfold noteSkim
  iterate 40 (try any_goals first | with_reducible assumption | with_reducible refine Within.setRail _ (Print.has_row rfl n_r e0) ?_ | exact Or.inr (Print.has_prt (by assumption)) | with_reducible exact Or.inl rfl | (dsimp only) | split | with_reducible apply Within.upd)

def fp_startShed (n : Option Nat) : Print := .join
  [.row Cell.phase n,
   fp_setPh n]

theorem foot_startShed {pr : Print} {z s : State} {n : Nat} {o_n : Option Nat} (n_n : Names o_n n) (hP : (fp_startShed o_n).Sub pr) (hk : Within pr z s) :
    Within pr z (startShed n s) := by
  simp only [fp_startShed, Print.join_cons, Print.join_nil, and_true] at hP
  obtain ⟨e0, e1⟩ := hP
  unfold startShed
  iterate 40 (try any_goals first | with_reducible assumption | with_reducible refine Within.setPhase _ (Print.has_row rfl n_n e0) ?_ | with_reducible refine foot_setPh n_n e1 ?_ | exact Or.inr (Print.has_prt (by assumption)) | with_reducible exact Or.inl rfl | (dsimp only) | with_reducible apply Within.upd)

def fp_execShedPhase : Print := .join
  [fp_finish,
   fp_startShed none]

theorem foot_execShedPhase {pr : Print} {z s t : State} {rail : Nat} (hP : fp_execShedPhase.Sub pr) (hk : Within pr z s)
    (h : execShedPhase rail s = .next t) : Within pr z t := by
  simp only [fp_execShedPhase, Print.join_cons, Print.join_nil, and_true] at hP
  obtain ⟨e0, e1⟩ := hP
  unfold execShedPhase done at h
  injection h with h
  subst h
  iterate 40 (try any_goals first | with_reducible assumption | with_reducible refine foot_finish e0 ?_ | with_reducible refine foot_startShed Names.any e1 ?_ | (dsimp only) | split)

def fp_endBrake (r : Option Nat) : Print := .join
  [.reg1 R.PST_RAIL_STAT.BRAKING r,
   .row Cell.rail r]

theorem foot_endBrake {pr : Print} {z s : State} {k : Nat} {r : Nat} {o_r : Option Nat} (n_r : Names o_r r) (hP : (fp_endBrake o_r).Sub pr) (hk : Within pr z s) :
    Within pr z (endBrake k r s) := by
  simp only [fp_endBrake, Print.join_cons, Print.join_nil, and_true] at hP
  obtain ⟨e0, e1⟩ := hP
  unfold endBrake
  iterate 40 (try any_goals first | with_reducible assumption | exact Print.has_reg1 n_r e0 | with_reducible refine Within.setRail _ (Print.has_row rfl n_r e1) ?_ | with_reducible apply Print.has_ite | with_reducible refine Within.put _ ?_ ?_ | exact Or.inr (Print.has_prt (by assumption)) | with_reducible exact Or.inl rfl | (dsimp only) | split | with_reducible apply Within.upd)

def fp_unshedPhase (n : Option Nat) : Print := .join
  [.row Cell.phase n,
   .reg R.PST_EVENT,
   fp_endBrake (n.map fun n => railOfPhase n),
   fp_enterSoft n,
   fp_setPh n]

theorem foot_unshedPhase {pr : Print} {z s : State} {k : Nat} {n : Nat} {o_n : Option Nat} (n_n : Names o_n n) (hP : (fp_unshedPhase o_n).Sub pr) (hk : Within pr z s) :
    Within pr z (unshedPhase k n s) := by
  simp only [fp_unshedPhase, Print.join_cons, Print.join_nil, and_true] at hP
  obtain ⟨e0, e1, e2, e3, e4⟩ := hP
  unfold unshedPhase
  iterate 40 (try any_goals first | with_reducible assumption | with_reducible refine Within.setPhase _ (Print.has_row rfl n_n e0) ?_ | exact Print.has_reg e1 | with_reducible apply Print.has_ite | with_reducible refine Within.event _ ?_ ?_ | with_reducible refine foot_endBrake (Names.map (fun n => railOfPhase n) n_n) e2 ?_ | with_reducible refine foot_enterSoft n_n e3 ?_ | with_reducible refine foot_setPh n_n e4 ?_ | exact Or.inr (Print.has_prt (by assumption)) | with_reducible exact Or.inl rfl | (dsimp only) | split | with_reducible apply Within.upd)

def fp_unshedAll : Print := .join
  [fp_unshedPhase none]

theorem foot_unshedAll {pr : Print} {z s : State} {k : Nat} {r : Nat} (hP : fp_unshedAll.Sub pr) (hk : Within pr z s) :
    Within pr z (unshedAll k r s) := by
  simp only [fp_unshedAll, Print.join_cons, Print.join_nil, and_true] at hP
  have e0 := hP
  unfold unshedAll
  iterate 40 (try any_goals first | with_reducible assumption | with_reducible refine foot_unshedPhase Names.any e0 ?_ | with_reducible refine Within.each ?_ ?_ | intro _)

def fp_unshedTo : Print := .join
  [fp_unshedPhase none]

theorem foot_unshedTo {pr : Print} {z s : State} {r : Nat} {n : Nat} (hP : fp_unshedTo.Sub pr) (hk : Within pr z s) :
    Within pr z (unshedTo r n s) := by
  simp only [fp_unshedTo, Print.join_cons, Print.join_nil, and_true] at hP
  have e0 := hP
  unfold unshedTo
  iterate 40 (try any_goals first | with_reducible assumption | with_reducible refine foot_unshedPhase Names.any e0 ?_ | with_reducible refine Within.each ?_ ?_ | intro _ | (dsimp only) | split)

def fp_execBrakeTimeout (rail : Option Nat) : Print := .join
  [fp_finish,
   fp_endBrake rail]

theorem foot_execBrakeTimeout {pr : Print} {z s t : State} {rail : Nat} {o_rail : Option Nat} (n_rail : Names o_rail rail) (hP : (fp_execBrakeTimeout o_rail).Sub pr) (hk : Within pr z s)
    (h : execBrakeTimeout rail s = .next t) : Within pr z t := by
  simp only [fp_execBrakeTimeout, Print.join_cons, Print.join_nil, and_true] at hP
  obtain ⟨e0, e1⟩ := hP
  unfold execBrakeTimeout done at h
  injection h with h
  subst h
  iterate 40 (try any_goals first | with_reducible assumption | with_reducible refine foot_finish e0 ?_ | with_reducible refine foot_endBrake n_rail e1 ?_ | split)

def fp_execOpenPhase (phase : Option Nat) : Print := .join
  [fp_finish,
   fp_failPhase phase]

theorem foot_execOpenPhase {pr : Print} {z s t : State} {phase : Nat} {o_phase : Option Nat} (n_phase : Names o_phase phase) (hP : (fp_execOpenPhase o_phase).Sub pr) (hk : Within pr z s)
    (h : execOpenPhase phase s = .next t) : Within pr z t := by
  simp only [fp_execOpenPhase, Print.join_cons, Print.join_nil, and_true] at hP
  obtain ⟨e0, e1⟩ := hP
  unfold execOpenPhase done at h
  injection h with h
  subst h
  iterate 40 (try any_goals first | with_reducible assumption | with_reducible refine foot_finish e0 ?_ | with_reducible refine foot_failPhase n_phase e1 ?_ | split)

def fp_execSenseFailure (phase : Option Nat) : Print := .join
  [fp_finish,
   fp_failPhase phase]

theorem foot_execSenseFailure {pr : Print} {z s t : State} {phase : Nat} {o_phase : Option Nat} (n_phase : Names o_phase phase) (hP : (fp_execSenseFailure o_phase).Sub pr) (hk : Within pr z s)
    (h : execSenseFailure phase s = .next t) : Within pr z t := by
  simp only [fp_execSenseFailure, Print.join_cons, Print.join_nil, and_true] at hP
  obtain ⟨e0, e1⟩ := hP
  unfold execSenseFailure done at h
  injection h with h
  subst h
  iterate 40 (try any_goals first | with_reducible assumption | with_reducible refine foot_finish e0 ?_ | with_reducible refine foot_failPhase n_phase e1 ?_ | split)

def fp_spoilRail (r : Option Nat) : Print := .join
  [.row Cell.est r,
   .row Cell.est (r.map fun r => r - 16),
   .prt .estp]

theorem foot_spoilRail {pr : Print} {z s : State} {r : Nat} {o_r : Option Nat} (n_r : Names o_r r) (hP : (fp_spoilRail o_r).Sub pr) (hk : Within pr z s) :
    Within pr z (spoilRail r s) := by
  simp only [fp_spoilRail, Print.join_cons, Print.join_nil, and_true] at hP
  obtain ⟨e0, e1, e2⟩ := hP
  unfold spoilRail
  iterate 40 (try any_goals first | with_reducible assumption | with_reducible refine Within.setEst _ (Print.has_row rfl n_r e0) ?_ | with_reducible refine Within.setEst _ (Print.has_row rfl (Names.map (fun r => r - 16) n_r) e1) ?_ | exact Print.has_prt e2 | exact Or.inr (Print.has_prt (by assumption)) | with_reducible exact Or.inl rfl | split | with_reducible apply Within.upd)

def fp_badFrame (stage : Option Nat) : Print := .join
  [.row Cell.lane none,
   .reg1 R.PST_STG_ERR.L0 stage,
   .reg1 R.PST_STG_ERR.L1 stage,
   .reg R.PST_EVENT,
   .reg1 R.PST_STG_STAT.LANE0_OK stage,
   .reg1 R.PST_STG_STAT.LANE1_OK stage,
   fp_spoilRail none]

theorem foot_badFrame {pr : Print} {z s : State} {stage : Nat} {lane : Nat} {o_stage : Option Nat} (n_stage : Names o_stage stage) (hP : (fp_badFrame o_stage).Sub pr) (hk : Within pr z s) :
    Within pr z (badFrame stage lane s) := by
  simp only [fp_badFrame, Print.join_cons, Print.join_nil, and_true] at hP
  obtain ⟨e0, e1, e2, e3, e4, e5, e6⟩ := hP
  unfold badFrame
  iterate 40 (try any_goals first | with_reducible assumption | with_reducible refine Within.setLane _ (Print.has_row rfl Names.any e0) ?_ | exact Print.has_reg1 n_stage e1 | exact Print.has_reg1 n_stage e2 | exact Print.has_reg e3 | exact Print.has_reg1 n_stage e4 | exact Print.has_reg1 n_stage e5 | with_reducible apply Print.has_ite | with_reducible refine Within.put _ ?_ ?_ | with_reducible refine Within.event _ ?_ ?_ | with_reducible refine Within.addSat _ ?_ ?_ | with_reducible refine foot_spoilRail Names.any e6 ?_ | with_reducible refine Within.each ?_ ?_ | with_reducible refine Within.when ?_ ?_ | exact Or.inr (Print.has_prt (by assumption)) | with_reducible exact Or.inl rfl | intro _ | (dsimp only) | split | with_reducible apply Within.upd | unfold laneOk | unfold laneErr)

def fp_takeFrame : Print := .join
  [.row Cell.lane none,
   .reg1 R.PST_PH_I.I none,
   .row Cell.phase none]

theorem foot_takeFrame {pr : Print} {z s : State} {stage : Nat} {lane : Nat} {w : Nat} (hP : fp_takeFrame.Sub pr) (hk : Within pr z s) :
    Within pr z (takeFrame stage lane w s) := by
  simp only [fp_takeFrame, Print.join_cons, Print.join_nil, and_true] at hP
  obtain ⟨e0, e1, e2⟩ := hP
  unfold takeFrame
  iterate 40 (try any_goals first | with_reducible assumption | with_reducible refine Within.setLane _ (Print.has_row rfl Names.any e0) ?_ | exact Print.has_reg1 Names.any e1 | with_reducible refine Within.setPhase _ (Print.has_row rfl Names.any e2) ?_ | with_reducible apply Print.has_ite | with_reducible refine Within.putI _ ?_ ?_ | with_reducible refine Within.each ?_ ?_ | exact Or.inr (Print.has_prt (by assumption)) | with_reducible exact Or.inl rfl | intro _ | (dsimp only) | split | with_reducible apply Within.upd)

def fp_effTlmFrame (stage : Option Nat) : Print := .join
  [.row Cell.lane none,
   .reg1 R.PST_STG_STAT.LANE0_OK stage,
   .reg1 R.PST_STG_STAT.LANE1_OK stage,
   fp_badFrame stage,
   fp_takeFrame]

theorem foot_effTlmFrame {pr : Print} {z s : State} {stage : Nat} {lane : Nat} {w : Nat} {o_stage : Option Nat} (n_stage : Names o_stage stage) (hP : (fp_effTlmFrame o_stage).Sub pr) (hk : Within pr z s) :
    Within pr z (effTlmFrame stage lane w s) := by
  simp only [fp_effTlmFrame, Print.join_cons, Print.join_nil, and_true] at hP
  obtain ⟨e0, e1, e2, e3, e4⟩ := hP
  unfold effTlmFrame
  iterate 40 (try any_goals first | with_reducible assumption | with_reducible refine Within.setLane _ (Print.has_row rfl Names.any e0) ?_ | exact Print.has_reg1 n_stage e1 | exact Print.has_reg1 n_stage e2 | with_reducible apply Print.has_ite | with_reducible refine Within.put _ ?_ ?_ | with_reducible refine foot_badFrame n_stage e3 ?_ | with_reducible refine foot_takeFrame e4 ?_ | with_reducible refine Within.when ?_ ?_ | exact Or.inr (Print.has_prt (by assumption)) | with_reducible exact Or.inl rfl | intro _ | (dsimp only) | split | with_reducible apply Within.upd | unfold laneOk)

def fp_execTlmFrame (stage : Option Nat) : Print := .join
  [fp_finish,
   fp_effTlmFrame stage]

theorem foot_execTlmFrame {pr : Print} {z s t : State} {stage : Nat} {lane : Nat} {word : Nat} {o_stage : Option Nat} (n_stage : Names o_stage stage) (hP : (fp_execTlmFrame o_stage).Sub pr) (hk : Within pr z s)
    (h : execTlmFrame stage lane word s = .next t) : Within pr z t := by
  simp only [fp_execTlmFrame, Print.join_cons, Print.join_nil, and_true] at hP
  obtain ⟨e0, e1⟩ := hP
  unfold execTlmFrame done at h
  injection h with h
  subst h
  iterate 40 (try any_goals first | with_reducible assumption | with_reducible refine foot_finish e0 ?_ | with_reducible refine foot_effTlmFrame n_stage e1 ?_)

def fp_execTlmMissingFrame (stage : Option Nat) : Print := .join
  [fp_finish,
   fp_badFrame stage]

theorem foot_execTlmMissingFrame {pr : Print} {z s t : State} {stage : Nat} {lane : Nat} {o_stage : Option Nat} (n_stage : Names o_stage stage) (hP : (fp_execTlmMissingFrame o_stage).Sub pr) (hk : Within pr z s)
    (h : execTlmMissingFrame stage lane s = .next t) : Within pr z t := by
  simp only [fp_execTlmMissingFrame, Print.join_cons, Print.join_nil, and_true] at hP
  obtain ⟨e0, e1⟩ := hP
  unfold execTlmMissingFrame done at h
  injection h with h
  subst h
  iterate 40 (try any_goals first | with_reducible assumption | with_reducible refine foot_finish e0 ?_ | with_reducible refine foot_badFrame n_stage e1 ?_ | split)

def fp_execTlmLost : Print := .join
  [fp_finish,
   fp_failPhase none]

theorem foot_execTlmLost {pr : Print} {z s t : State} {stage : Nat} {lane : Nat} (hP : fp_execTlmLost.Sub pr) (hk : Within pr z s)
    (h : execTlmLost stage lane s = .next t) : Within pr z t := by
  simp only [fp_execTlmLost, Print.join_cons, Print.join_nil, and_true] at hP
  obtain ⟨e0, e1⟩ := hP
  unfold execTlmLost done at h
  injection h with h
  subst h
  iterate 40 (try any_goals first | with_reducible assumption | with_reducible refine foot_finish e0 ?_ | with_reducible refine foot_failPhase Names.any e1 ?_ | with_reducible refine Within.each ?_ ?_ | intro _ | (dsimp only) | split)

def fp_takeSuper (g : Option Nat) : Print := .join
  [.reg1 R.PST_STG_STAT.TEMP g,
   .reg1 R.PST_STG_STAT.DRV_FLT g,
   .reg1 R.PST_STG_STAT.OT_WARN g,
   .reg1 R.PST_STG_STAT.VIN_UV g,
   .reg1 R.PST_STG_STAT2.CAP g,
   fp_record,
   fp_failPhase none]

theorem foot_takeSuper {pr : Print} {z s : State} {g : Nat} {sf : Nat} {o_g : Option Nat} (n_g : Names o_g g) (hP : (fp_takeSuper o_g).Sub pr) (hk : Within pr z s) :
    Within pr z (takeSuper g sf s) := by
  simp only [fp_takeSuper, Print.join_cons, Print.join_nil, and_true] at hP
  obtain ⟨e0, e1, e2, e3, e4, e5, e6⟩ := hP
  unfold takeSuper
  iterate 40 (try any_goals first | with_reducible assumption | exact Print.has_reg1 n_g e0 | exact Print.has_reg1 n_g e1 | exact Print.has_reg1 n_g e2 | exact Print.has_reg1 n_g e3 | exact Print.has_reg1 n_g e4 | with_reducible apply Print.has_ite | with_reducible refine Within.put _ ?_ ?_ | with_reducible refine foot_record e5 ?_ | with_reducible refine foot_failPhase Names.any e6 ?_ | with_reducible refine Within.each ?_ ?_ | with_reducible refine Within.when ?_ ?_ | intro _ | (dsimp only))

def fp_effSuperframe (g : Option Nat) : Print := .join
  [.row Cell.lane (g.map fun g => 2 * g),
   .row Cell.lane (g.map fun g => 2 * g + 1),
   .reg1 R.PST_STG_STAT2.CRC_ERR g,
   fp_takeSuper g]

theorem foot_effSuperframe {pr : Print} {z s : State} {g : Nat} {sameStart : Bool} {o_g : Option Nat} (n_g : Names o_g g) (hP : (fp_effSuperframe o_g).Sub pr) (hk : Within pr z s) :
    Within pr z (effSuperframe g sameStart s) := by
  simp only [fp_effSuperframe, Print.join_cons, Print.join_nil, and_true] at hP
  obtain ⟨e0, e1, e2, e3⟩ := hP
  unfold effSuperframe
  iterate 40 (try any_goals first | with_reducible assumption | with_reducible refine Within.setLane _ (Print.has_row rfl (Names.map (fun g => 2 * g) n_g) e0) ?_ | with_reducible refine Within.setLane _ (Print.has_row rfl (Names.map (fun g => 2 * g + 1) n_g) e1) ?_ | exact Print.has_reg1 n_g e2 | with_reducible apply Print.has_ite | with_reducible refine Within.addSat _ ?_ ?_ | with_reducible refine foot_takeSuper n_g e3 ?_ | exact Or.inr (Print.has_prt (by assumption)) | with_reducible exact Or.inl rfl | (dsimp only) | split | with_reducible apply Within.upd)

def fp_execSuperframe (stage : Option Nat) : Print := .join
  [fp_finish,
   fp_effSuperframe stage]

theorem foot_execSuperframe {pr : Print} {z s t : State} {stage : Nat} {sameStart : Bool} {o_stage : Option Nat} (n_stage : Names o_stage stage) (hP : (fp_execSuperframe o_stage).Sub pr) (hk : Within pr z s)
    (h : execSuperframe stage sameStart s = .next t) : Within pr z t := by
  simp only [fp_execSuperframe, Print.join_cons, Print.join_nil, and_true] at hP
  obtain ⟨e0, e1⟩ := hP
  unfold execSuperframe done at h
  injection h with h
  subst h
  iterate 40 (try any_goals first | with_reducible assumption | with_reducible refine foot_finish e0 ?_ | with_reducible refine foot_effSuperframe n_stage e1 ?_ | split)

def fp_syncStep : Print := .join
  [.prt .clk]

theorem foot_syncStep {pr : Print} {z s : State} {y : SyncIn} (hP : fp_syncStep.Sub pr) (hk : Within pr z s) :
    Within pr z (syncStep y s) := by
  simp only [fp_syncStep, Print.join_cons, Print.join_nil, and_true] at hP
  have e0 := hP
  unfold syncStep
  iterate 40 (try any_goals first | with_reducible assumption | exact Print.has_prt e0 | exact Or.inr (Print.has_prt (by assumption)) | with_reducible exact Or.inl rfl | (dsimp only) | split | with_reducible apply Within.upd)

def fp_execSyncAcquire : Print := .join
  [.reg R.PST_SYNC_STAT.LOCK,
   .reg R.CLK_STATUS.SYNC_LOST,
   fp_finish]

theorem foot_execSyncAcquire {pr : Print} {z s t : State} {period : Nat} (hP : fp_execSyncAcquire.Sub pr) (hk : Within pr z s)
    (h : execSyncAcquire period s = .next t) : Within pr z t := by
  simp only [fp_execSyncAcquire, Print.join_cons, Print.join_nil, and_true] at hP
  obtain ⟨e0, e1, e2⟩ := hP
  unfold execSyncAcquire done at h
  injection h with h
  subst h
  iterate 40 (try any_goals first | with_reducible assumption | exact Print.has_reg e0 | exact Print.has_reg e1 | with_reducible apply Print.has_ite | with_reducible refine Within.put _ ?_ ?_ | with_reducible refine foot_finish e2 ?_ | (dsimp only) | split)

def fp_execSyncLoss : Print := .join
  [.reg R.PST_SYNC_STAT.LOCK,
   .reg R.PST_EVENT,
   .prt .clk,
   fp_finish]

theorem foot_execSyncLoss {pr : Print} {z s t : State} (hP : fp_execSyncLoss.Sub pr) (hk : Within pr z s)
    (h : execSyncLoss s = .next t) : Within pr z t := by
  simp only [fp_execSyncLoss, Print.join_cons, Print.join_nil, and_true] at hP
  obtain ⟨e0, e1, e2, e3⟩ := hP
  unfold execSyncLoss done at h
  injection h with h
  subst h
  iterate 40 (try any_goals first | with_reducible assumption | exact Print.has_reg e0 | exact Print.has_reg e1 | exact Print.has_prt e2 | with_reducible apply Print.has_ite | with_reducible refine Within.put _ ?_ ?_ | with_reducible refine Within.event _ ?_ ?_ | with_reducible refine foot_finish e3 ?_ | exact Or.inr (Print.has_prt (by assumption)) | with_reducible exact Or.inl rfl | (dsimp only) | split | with_reducible apply Within.upd)

def fp_execPhaseRetire : Print := .join
  [fp_finish,
   fp_command,
   fp_failPhase none,
   fp_complete]

theorem foot_execPhaseRetire {pr : Print} {z s t : State} {port : Nat} {tag : Nat} (hP : fp_execPhaseRetire.Sub pr) (hk : Within pr z s)
    (h : execPhaseRetire port tag s = .next t) : Within pr z t := by
  simp only [fp_execPhaseRetire, Print.join_cons, Print.join_nil, and_true] at hP
  obtain ⟨e0, e1, e2, e3⟩ := hP
  unfold execPhaseRetire done at h
  injection h with h
  subst h
  iterate 40 (try any_goals first | with_reducible assumption | with_reducible refine foot_finish e0 ?_ | with_reducible refine foot_command e1 ?_ ?_ | with_reducible refine foot_failPhase Names.any e2 ?_ | with_reducible refine foot_complete e3 ?_ | intro _ | (dsimp only))

def fp_regainRail (r : Option Nat) : Print := .join
  [.reg1 R.PST_RAIL_STAT.LOST r,
   fp_faultOff,
   fp_railOff none,
   fp_railEnable none]

theorem foot_regainRail {pr : Print} {z s : State} {r : Nat} {o_r : Option Nat} (n_r : Names o_r r) (hP : (fp_regainRail o_r).Sub pr) (hk : Within pr z s) :
    Within pr z (regainRail r s) := by
  simp only [fp_regainRail, Print.join_cons, Print.join_nil, and_true] at hP
  obtain ⟨e0, e1, e2, e3⟩ := hP
  unfold regainRail
  iterate 40 (try any_goals first | with_reducible assumption | exact Print.has_reg1 n_r e0 | with_reducible apply Print.has_ite | with_reducible refine Within.put _ ?_ ?_ | with_reducible refine foot_faultOff e1 ?_ | with_reducible refine foot_railOff Names.any e2 ?_ | with_reducible refine foot_railEnable Names.any e3 ?_ | with_reducible refine Within.when ?_ ?_ | intro _ | (dsimp only) | split)

def fp_execPhaseRestore : Print := .join
  [.reg1 R.PST_PH_STAT.HICCUP_RUN none,
   .reg1 R.PST_PH_STAT.CAUSE none,
   .row Cell.phase none,
   fp_finish,
   fp_command,
   fp_enterSoft none,
   fp_refitRail none,
   fp_regainRail none,
   fp_complete]

theorem foot_execPhaseRestore {pr : Print} {z s t : State} {port : Nat} {tag : Nat} (hP : fp_execPhaseRestore.Sub pr) (hk : Within pr z s)
    (h : execPhaseRestore port tag s = .next t) : Within pr z t := by
  simp only [fp_execPhaseRestore, Print.join_cons, Print.join_nil, and_true] at hP
  obtain ⟨e0, e1, e2, e3, e4, e5, e6, hP⟩ := hP
  obtain ⟨e7, e8⟩ := hP
  unfold execPhaseRestore done at h
  injection h with h
  subst h
  iterate 40 (try any_goals first | with_reducible assumption | exact Print.has_reg1 Names.any e0 | exact Print.has_reg1 Names.any e1 | with_reducible refine Within.setPhase _ (Print.has_row rfl Names.any e2) ?_ | with_reducible apply Print.has_ite | with_reducible refine Within.put _ ?_ ?_ | with_reducible refine foot_finish e3 ?_ | with_reducible refine foot_command e4 ?_ ?_ | with_reducible refine foot_enterSoft Names.any e5 ?_ | with_reducible refine foot_refitRail Names.any e6 ?_ | with_reducible refine foot_regainRail Names.any e7 ?_ | with_reducible refine foot_complete e8 ?_ | exact Or.inr (Print.has_prt (by assumption)) | with_reducible exact Or.inl rfl | intro _ | (dsimp only) | with_reducible apply Within.upd | unfold laneOk)

theorem Within.freeAck {p : Print} {z s : State} {f : Bool → State → State} (hp : Part.free ∈ p.parts)
    (hf : ∀ b t, Within p z t → Within p z (f b t)) (hk : Within p z s) : Within p z (freeAck f s) := by
  refine hf _ _ ?_
  unfold drawn
  apply Within.upd hk <;> first | exact Or.inl rfl | exact Or.inr hp

def fp_transaction (c : Option Nat) : Print := .join
  [.reg1 R.PST_PMB_STAT.NO_RESP c,
   .reg R.PST_EVENT,
   fp_record]

theorem foot_transaction {pr : Print} {z s : State} {c : Nat} {good : Bool} {o_c : Option Nat} (n_c : Names o_c c) (hP : (fp_transaction o_c).Sub pr) (hk : Within pr z s) :
    Within pr z (transaction c good s) := by
  simp only [fp_transaction, Print.join_cons, Print.join_nil, and_true] at hP
  obtain ⟨e0, e1, e2⟩ := hP
  unfold transaction
  iterate 40 (try any_goals first | with_reducible assumption | exact Print.has_reg1 n_c e0 | exact Print.has_reg e1 | with_reducible apply Print.has_ite | with_reducible refine Within.put _ ?_ ?_ | with_reducible refine Within.event _ ?_ ?_ | with_reducible refine foot_record e2 ?_ | (dsimp only) | split)

def fp_sendPmb : Print := .join
  [.prt .out]

theorem foot_sendPmb {pr : Print} {z s : State} {c : Nat} {cmd : Nat} {v : Nat} (hP : fp_sendPmb.Sub pr) (hk : Within pr z s) :
    Within pr z (sendPmb c cmd v s) := by
  simp only [fp_sendPmb, Print.join_cons, Print.join_nil, and_true] at hP
  have e0 := hP
  unfold sendPmb
  iterate 40 (try any_goals first | with_reducible assumption | exact Print.has_prt e0 | with_reducible refine Within.emit _ ?_ ?_)

def fp_pageRound (c : Option Nat) : Print := .join
  [fp_sendPmb,
   fp_transaction c]

theorem foot_pageRound {pr : Print} {z s : State} {c : Nat} {good : Bool} {o_c : Option Nat} (n_c : Names o_c c) (hP : (fp_pageRound o_c).Sub pr) (hk : Within pr z s) :
    Within pr z (pageRound c good s) := by
  simp only [fp_pageRound, Print.join_cons, Print.join_nil, and_true] at hP
  obtain ⟨e0, e1⟩ := hP
  unfold pageRound
  iterate 40 (try any_goals first | with_reducible assumption | with_reducible refine foot_sendPmb e0 ?_ | with_reducible refine foot_transaction n_c e1 ?_ | with_reducible refine Within.when ?_ ?_ | intro _ | (dsimp only))

def fp_operate (c : Option Nat) : Print := .join
  [.prt .free,
   fp_pageRound c,
   fp_sendPmb,
   fp_transaction c]

theorem foot_operate {pr : Print} {z s : State} {v : Nat} {c : Nat} {o_c : Option Nat} (n_c : Names o_c c) (hP : (fp_operate o_c).Sub pr) (hk : Within pr z s) :
    Within pr z (operate v c s) := by
  simp only [fp_operate, Print.join_cons, Print.join_nil, and_true] at hP
  obtain ⟨e0, e1, e2, e3⟩ := hP
  unfold operate
  iterate 40 (try any_goals first | with_reducible assumption | exact Print.has_prt e0 | with_reducible refine Within.freeAck ?_ ?_ ?_ | with_reducible refine foot_pageRound n_c e1 ?_ | with_reducible refine foot_sendPmb e2 ?_ | with_reducible refine foot_transaction n_c e3 ?_ | intro _ | (dsimp only))

def fp_readWord (c : Option Nat) : Print := .join
  [fp_transaction c]

theorem foot_readWord {p : Print} {z s : State} {c : Nat} {w : Option Nat} {f : Nat → State → State} {o_c : Option Nat} (n_c : Names o_c c)
    (hP : (fp_readWord o_c).Sub p) (hf : ∀ v t, Within p z t → Within p z (f v t)) (hk : Within p z s) :
    Within p z (readWord c w f s) := by
  simp only [fp_readWord, Print.join_cons, Print.join_nil, and_true] at hP
  unfold readWord
  repeat' first | with_reducible assumption | with_reducible apply hf | with_reducible refine foot_transaction n_c hP ?_ | with_reducible refine foot_transaction n_c hP.1 ?_ | (dsimp only) | split

def fp_pollOne (c : Option Nat) : Print := .join
  [.reg1 R.PST_PMB_DATA.VIN c,
   .reg1 R.PST_PMB_DATA.IIN c,
   .reg1 R.PST_PMB_DATA.VOUT c,
   .reg1 R.PST_PMB_DATA.IOUT c,
   .reg1 R.PST_PMB_DATA.TEMP c,
   .reg1 R.PST_PMB_STAT.STATUS_WORD c,
   fp_pageRound c,
   fp_readWord c]

theorem foot_pollOne {pr : Print} {z s : State} {c : Nat} {r : Round} {o_c : Option Nat} (n_c : Names o_c c) (hP : (fp_pollOne o_c).Sub pr) (hk : Within pr z s) :
    Within pr z (pollOne c r s) := by
  simp only [fp_pollOne, Print.join_cons, Print.join_nil, and_true] at hP
  obtain ⟨e0, e1, e2, e3, e4, e5, e6, e7⟩ := hP
  unfold pollOne
  iterate 40 (try any_goals first | with_reducible assumption | exact Print.has_reg1 n_c e0 | exact Print.has_reg1 n_c e1 | exact Print.has_reg1 n_c e2 | exact Print.has_reg1 n_c e3 | exact Print.has_reg1 n_c e4 | exact Print.has_reg1 n_c e5 | with_reducible apply Print.has_ite | with_reducible refine Within.put _ ?_ ?_ | with_reducible refine Within.putI _ ?_ ?_ | with_reducible refine foot_pageRound n_c e6 ?_ | with_reducible refine foot_readWord n_c e7 ?_ ?_ | intro _ | (dsimp only))

def fp_execPmbPoll : Print := .join
  [fp_finish,
   fp_pollOne none]

theorem foot_execPmbPoll {pr : Print} {z s t : State} {readings : List Round} (hP : fp_execPmbPoll.Sub pr) (hk : Within pr z s)
    (h : execPmbPoll readings s = .next t) : Within pr z t := by
  simp only [fp_execPmbPoll, Print.join_cons, Print.join_nil, and_true] at hP
  obtain ⟨e0, e1⟩ := hP
  unfold execPmbPoll done at h
  injection h with h
  subst h
  iterate 40 (try any_goals first | with_reducible assumption | with_reducible refine foot_finish e0 ?_ | with_reducible refine foot_pollOne Names.any e1 ?_ | with_reducible refine Within.each ?_ ?_ | intro _ | (dsimp only) | split)

def fp_clearSent (c : Option Nat) : Print := .join
  [.row Cell.conv c,
   fp_sendPmb,
   fp_transaction c]

theorem foot_clearSent {pr : Print} {z s : State} {c : Nat} {good : Bool} {o_c : Option Nat} (n_c : Names o_c c) (hP : (fp_clearSent o_c).Sub pr) (hk : Within pr z s) :
    Within pr z (clearSent c good s) := by
  simp only [fp_clearSent, Print.join_cons, Print.join_nil, and_true] at hP
  obtain ⟨e0, e1, e2⟩ := hP
  unfold clearSent
  iterate 40 (try any_goals first | with_reducible assumption | with_reducible refine Within.setConv _ (Print.has_row rfl n_c e0) ?_ | with_reducible refine foot_sendPmb e1 ?_ | with_reducible refine foot_transaction n_c e2 ?_ | (dsimp only))

def fp_autoClear (c : Option Nat) : Print := .join
  [.reg1 R.PST_PMB_STAT.NO_AUTO_CLR c,
   fp_clearSent c]

theorem foot_autoClear {pr : Print} {z s : State} {c : Nat} {good : Bool} {o_c : Option Nat} (n_c : Names o_c c) (hP : (fp_autoClear o_c).Sub pr) (hk : Within pr z s) :
    Within pr z (autoClear c good s) := by
  simp only [fp_autoClear, Print.join_cons, Print.join_nil, and_true] at hP
  obtain ⟨e0, e1⟩ := hP
  unfold autoClear
  iterate 40 (try any_goals first | with_reducible assumption | exact Print.has_reg1 n_c e0 | with_reducible apply Print.has_ite | with_reducible refine Within.put _ ?_ ?_ | with_reducible refine foot_clearSent n_c e1 ?_ | (dsimp only) | split)

def fp_alertOne (c : Option Nat) : Print := .join
  [.reg1 R.PST_PMB_STAT.STATUS_WORD c,
   .reg1 R.PST_PMB_STAT.CONV_FAULT c,
   .reg R.PST_EVENT,
   fp_pageRound c,
   fp_readWord c,
   fp_record,
   fp_autoClear c]

theorem foot_alertOne {pr : Print} {z s : State} {c : Nat} {r : Round} {o_c : Option Nat} (n_c : Names o_c c) (hP : (fp_alertOne o_c).Sub pr) (hk : Within pr z s) :
    Within pr z (alertOne c r s) := by
  simp only [fp_alertOne, Print.join_cons, Print.join_nil, and_true] at hP
  obtain ⟨e0, e1, e2, e3, e4, e5, e6⟩ := hP
  unfold alertOne
  iterate 40 (try any_goals first | with_reducible assumption | exact Print.has_reg1 n_c e0 | exact Print.has_reg1 n_c e1 | exact Print.has_reg e2 | with_reducible apply Print.has_ite | with_reducible refine Within.put _ ?_ ?_ | with_reducible refine Within.event _ ?_ ?_ | with_reducible refine foot_pageRound n_c e3 ?_ | with_reducible refine foot_readWord n_c e4 ?_ ?_ | with_reducible refine foot_record e5 ?_ | with_reducible refine foot_autoClear n_c e6 ?_ | with_reducible refine Within.when ?_ ?_ | intro _ | (dsimp only))

def fp_execPmbAlert : Print := .join
  [fp_finish,
   fp_alertOne none,
   fp_refreshIin]

theorem foot_execPmbAlert {pr : Print} {z s t : State} {statuses : List Round} (hP : fp_execPmbAlert.Sub pr) (hk : Within pr z s)
    (h : execPmbAlert statuses s = .next t) : Within pr z t := by
  simp only [fp_execPmbAlert, Print.join_cons, Print.join_nil, and_true] at hP
  obtain ⟨e0, e1, e2⟩ := hP
  unfold execPmbAlert done at h
  injection h with h
  subst h
  iterate 40 (try any_goals first | with_reducible assumption | with_reducible refine foot_finish e0 ?_ | with_reducible refine foot_alertOne Names.any e1 ?_ | with_reducible refine foot_refreshIin e2 ?_ | with_reducible refine Within.each ?_ ?_ | intro _ | (dsimp only) | split)

def fp_execConvVoutSet : Print := .join
  [fp_finish,
   fp_command,
   fp_pageRound none,
   fp_sendPmb,
   fp_transaction none,
   fp_keepResult,
   fp_markStarted,
   fp_complete]

theorem foot_execConvVoutSet {pr : Print} {z s t : State} {port : Nat} {tag : Nat} {acked : Acks} (hP : fp_execConvVoutSet.Sub pr) (hk : Within pr z s)
    (h : execConvVoutSet port tag acked s = .next t) : Within pr z t := by
  simp only [fp_execConvVoutSet, Print.join_cons, Print.join_nil, and_true] at hP
  obtain ⟨e0, e1, e2, e3, e4, e5, e6, e7⟩ := hP
  unfold execConvVoutSet done at h
  injection h with h
  subst h
  iterate 40 (try any_goals first | with_reducible assumption | with_reducible refine foot_finish e0 ?_ | with_reducible refine foot_command e1 ?_ ?_ | with_reducible refine foot_pageRound Names.any e2 ?_ | with_reducible refine foot_sendPmb e3 ?_ | with_reducible refine foot_transaction Names.any e4 ?_ | with_reducible refine foot_keepResult e5 ?_ | with_reducible refine foot_markStarted e6 ?_ | with_reducible refine foot_complete e7 ?_ | intro _ | (dsimp only) | split)

def fp_execReadVoutAfterWrite : Print := .join
  [fp_finish,
   fp_pageRound none,
   fp_transaction none,
   fp_complete,
   fp_drawn]

theorem foot_execReadVoutAfterWrite {pr : Print} {z s t : State} {port : Nat} {tag : Nat} {value : Nat} {acked : Acks} (hP : fp_execReadVoutAfterWrite.Sub pr) (hk : Within pr z s)
    (h : execReadVoutAfterWrite port tag value acked s = .next t) : Within pr z t := by
  simp only [fp_execReadVoutAfterWrite, Print.join_cons, Print.join_nil, and_true] at hP
  obtain ⟨e0, e1, e2, e3, e4⟩ := hP
  unfold execReadVoutAfterWrite done at h
  injection h with h
  subst h
  iterate 40 (try any_goals first | with_reducible assumption | with_reducible refine foot_finish e0 ?_ | with_reducible refine foot_pageRound Names.any e1 ?_ | with_reducible refine foot_transaction Names.any e2 ?_ | with_reducible refine foot_complete e3 ?_ | with_reducible refine foot_drawn e4 ?_ | (dsimp only) | split)

def fp_execConvClear : Print := .join
  [.reg1 R.PST_PMB_STAT.CONV_FAULT none,
   .reg1 R.PST_PMB_STAT.NO_AUTO_CLR none,
   fp_finish,
   fp_command,
   fp_pageRound none,
   fp_sendPmb,
   fp_transaction none,
   fp_refreshIin,
   fp_complete]

theorem foot_execConvClear {pr : Print} {z s t : State} {port : Nat} {tag : Nat} {acked : Acks} (hP : fp_execConvClear.Sub pr) (hk : Within pr z s)
    (h : execConvClear port tag acked s = .next t) : Within pr z t := by
  simp only [fp_execConvClear, Print.join_cons, Print.join_nil, and_true] at hP
  obtain ⟨e0, e1, e2, e3, e4, e5, e6, hP⟩ := hP
  obtain ⟨e7, e8⟩ := hP
  unfold execConvClear done at h
  injection h with h
  subst h
  iterate 40 (try any_goals first | with_reducible assumption | exact Print.has_reg1 Names.any e0 | exact Print.has_reg1 Names.any e1 | with_reducible apply Print.has_ite | with_reducible refine Within.put _ ?_ ?_ | with_reducible refine foot_finish e2 ?_ | with_reducible refine foot_command e3 ?_ ?_ | with_reducible refine foot_pageRound Names.any e4 ?_ | with_reducible refine foot_sendPmb e5 ?_ | with_reducible refine foot_transaction Names.any e6 ?_ | with_reducible refine foot_refreshIin e7 ?_ | with_reducible refine foot_complete e8 ?_ | intro _ | (dsimp only) | split)

def fp_setTest : Print := .join
  [.prt .test]

theorem foot_setTest {pr : Print} {z s : State} {t : TestH} (hP : fp_setTest.Sub pr) (hk : Within pr z s) :
    Within pr z (setTest t s) := by
  simp only [fp_setTest, Print.join_cons, Print.join_nil, and_true] at hP
  have e0 := hP
  unfold setTest
  iterate 40 (try any_goals first | with_reducible assumption | exact Print.has_prt e0 | exact Or.inr (Print.has_prt (by assumption)) | with_reducible exact Or.inl rfl | with_reducible apply Within.upd)

def fp_nextInjection : Print := .join
  [fp_setTest]

theorem foot_nextInjection {pr : Print} {z s : State} (hP : fp_nextInjection.Sub pr) (hk : Within pr z s) :
    Within pr z (nextInjection s) := by
  simp only [fp_nextInjection, Print.join_cons, Print.join_nil, and_true] at hP
  have e0 := hP
  unfold nextInjection
  iterate 40 (try any_goals first | with_reducible assumption | with_reducible refine foot_setTest e0 ?_ | exact Or.inr (Print.has_prt (by assumption)) | with_reducible exact Or.inl rfl | (dsimp only) | split | with_reducible apply Within.upd)

def fp_writeI64 : Print := .join
  [.prt .mem,
   .prt .cq]

theorem foot_writeI64 {pr : Print} {z s : State} {a : Nat} {x : Int} (hP : fp_writeI64.Sub pr) (hk : Within pr z s) :
    Within pr z (writeI64 a x s) := by
  simp only [fp_writeI64, Print.join_cons, Print.join_nil, and_true] at hP
  obtain ⟨e0, e1⟩ := hP
  unfold writeI64
  iterate 40 (try any_goals first | with_reducible assumption | exact Print.has_prt e0 | exact Print.has_prt e1 | with_reducible refine Within.writeBytes _ _ ?_ ?_ ?_)

def fp_sineStep : Print := .join
  [.prt .mem,
   .prt .cq,
   .reg R.LPE_CAP_STAT.COUNT,
   .reg R.LPE_CAP_STAT.STATE,
   .reg R.LPE_CAP_STAT.STEP,
   fp_setTest,
   fp_writeI64]

theorem foot_sineStep {pr : Print} {z s : State} {a : Int} {b : Int} (hP : fp_sineStep.Sub pr) (hk : Within pr z s) :
    Within pr z (sineStep a b s) := by
  simp only [fp_sineStep, Print.join_cons, Print.join_nil, and_true] at hP
  obtain ⟨e0, e1, e2, e3, e4, e5, e6⟩ := hP
  unfold sineStep
  iterate 40 (try any_goals first | with_reducible assumption | exact Print.has_prt e0 | exact Print.has_prt e1 | exact Print.has_reg e2 | exact Print.has_reg e3 | exact Print.has_reg e4 | with_reducible apply Print.has_ite | with_reducible refine Within.put _ ?_ ?_ | with_reducible refine Within.writeWord32 _ _ ?_ ?_ ?_ | with_reducible refine foot_setTest e5 ?_ | with_reducible refine foot_writeI64 e6 ?_ | exact Or.inr (Print.has_prt (by assumption)) | with_reducible exact Or.inl rfl | (dsimp only) | split | with_reducible apply Within.upd)

def fp_writeCapture : Print := .join
  [.prt .mem,
   .prt .cq]

theorem foot_writeCapture {pr : Print} {z s : State} {m : Nat} {a : Int} {b : Int} (hP : fp_writeCapture.Sub pr) (hk : Within pr z s) :
    Within pr z (writeCapture m a b s) := by
  simp only [fp_writeCapture, Print.join_cons, Print.join_nil, and_true] at hP
  obtain ⟨e0, e1⟩ := hP
  unfold writeCapture
  iterate 40 (try any_goals first | with_reducible assumption | exact Print.has_prt e0 | exact Print.has_prt e1 | with_reducible refine Within.writeWord32 _ _ ?_ ?_ ?_ | (dsimp only))

def fp_unrollRing : Print := .join
  [.prt .mem,
   .prt .cq]

theorem foot_unrollRing {pr : Print} {z s : State} {n : Nat} {k : Nat} (hP : fp_unrollRing.Sub pr) (hk : Within pr z s) :
    Within pr z (unrollRing n k s) := by
  simp only [fp_unrollRing, Print.join_cons, Print.join_nil, and_true] at hP
  obtain ⟨e0, e1⟩ := hP
  unfold unrollRing
  iterate 40 (try any_goals first | with_reducible assumption | exact Print.has_prt e0 | exact Print.has_prt e1 | with_reducible refine Within.writeBytes _ _ ?_ ?_ ?_ | (dsimp only))

def fp_captureStep : Print := .join
  [.reg R.LPE_CAP_STAT.COUNT,
   .reg R.LPE_CAP_TS.TIME,
   .reg R.LPE_CAP_STAT.STATE,
   fp_setTest,
   fp_unrollRing,
   fp_writeCapture]

theorem foot_captureStep {p : Print} {z s : State} {a b : Int} {entered : Bool} (hP : fp_captureStep.Sub p) (hk : Within p z s) :
    Within p z (captureStep a b entered s) := by
  simp only [fp_captureStep, Print.join_cons, Print.join_nil, and_true] at hP
  obtain ⟨e0, e1, e2, e3, e4, e5⟩ := hP
  have hi : ∀ t, Within p z t → Within p z (id t) := fun _ h => h
  unfold captureStep
  dsimp only
  repeat' first | with_reducible assumption | with_reducible refine Within.put _ (Print.has_reg (by assumption)) ?_ | with_reducible refine foot_setTest (by assumption) ?_ | with_reducible refine foot_writeCapture (by assumption) ?_ | with_reducible refine foot_unrollRing (by assumption) ?_ | with_reducible apply hi | split

def fp_testStep : Print := .join
  [fp_sineStep,
   fp_captureStep]

theorem foot_testStep {pr : Print} {z s : State} {entered : Bool} (hP : fp_testStep.Sub pr) (hk : Within pr z s) :
    Within pr z (testStep entered s) := by
  simp only [fp_testStep, Print.join_cons, Print.join_nil, and_true] at hP
  obtain ⟨e0, e1⟩ := hP
  unfold testStep
  iterate 40 (try any_goals first | with_reducible assumption | with_reducible refine foot_sineStep e0 ?_ | with_reducible refine foot_captureStep e1 ?_ | (dsimp only) | split)

def fp_latchRail (r : Option Nat) : Print := .join
  [.reg1 R.LPE_V.VMEAS r,
   .row Cell.rail r]

theorem foot_latchRail {pr : Print} {z s : State} {r : Nat} {v : Nat} {o_r : Option Nat} (n_r : Names o_r r) (hP : (fp_latchRail o_r).Sub pr) (hk : Within pr z s) :
    Within pr z (latchRail r v s) := by
  simp only [fp_latchRail, Print.join_cons, Print.join_nil, and_true] at hP
  obtain ⟨e0, e1⟩ := hP
  unfold latchRail
  iterate 40 (try any_goals first | with_reducible assumption | exact Print.has_reg1 n_r e0 | with_reducible refine Within.setRail _ (Print.has_row rfl n_r e1) ?_ | with_reducible apply Print.has_ite | with_reducible refine Within.put _ ?_ ?_ | with_reducible refine Within.fold ?_ ?_ | exact Or.inr (Print.has_prt (by assumption)) | with_reducible exact Or.inl rfl | intro _ | (dsimp only) | with_reducible apply Within.upd)

def fp_brakeStep (r : Option Nat) : Print := .join
  [.row Cell.rail r,
   .reg1 R.PST_RAIL_STAT.BRAKING r,
   .reg R.PST_EVENT,
   fp_endBrake r]

theorem foot_brakeStep {pr : Print} {z s : State} {r : Nat} {o_r : Option Nat} (n_r : Names o_r r) (hP : (fp_brakeStep o_r).Sub pr) (hk : Within pr z s) :
    Within pr z (brakeStep r s) := by
  simp only [fp_brakeStep, Print.join_cons, Print.join_nil, and_true] at hP
  obtain ⟨e0, e1, e2, e3⟩ := hP
  unfold brakeStep
  iterate 40 (try any_goals first | with_reducible assumption | with_reducible refine Within.setRail _ (Print.has_row rfl n_r e0) ?_ | exact Print.has_reg1 n_r e1 | exact Print.has_reg e2 | with_reducible apply Print.has_ite | with_reducible refine Within.put _ ?_ ?_ | with_reducible refine Within.event _ ?_ ?_ | with_reducible refine foot_endBrake n_r e3 ?_ | exact Or.inr (Print.has_prt (by assumption)) | with_reducible exact Or.inl rfl | (dsimp only) | split | with_reducible apply Within.upd)

def fp_rampShares : Print := .join
  [.row Cell.phase none]

theorem foot_rampShares {pr : Print} {z s : State} {r : Nat} (hP : fp_rampShares.Sub pr) (hk : Within pr z s) :
    Within pr z (rampShares r s) := by
  simp only [fp_rampShares, Print.join_cons, Print.join_nil, and_true] at hP
  have e0 := hP
  unfold rampShares
  iterate 40 (try any_goals first | with_reducible assumption | with_reducible refine Within.setPhase _ (Print.has_row rfl Names.any e0) ?_ | with_reducible refine Within.each ?_ ?_ | exact Or.inr (Print.has_prt (by assumption)) | with_reducible exact Or.inl rfl | intro _ | (dsimp only) | split | with_reducible apply Within.upd)

def fp_unshedStep : Print := .join
  [fp_unshedAll,
   fp_unshedTo]

theorem foot_unshedStep {pr : Print} {z s : State} {r : Nat} (hP : fp_unshedStep.Sub pr) (hk : Within pr z s) :
    Within pr z (unshedStep r s) := by
  simp only [fp_unshedStep, Print.join_cons, Print.join_nil, and_true] at hP
  obtain ⟨e0, e1⟩ := hP
  unfold unshedStep
  iterate 40 (try any_goals first | with_reducible assumption | with_reducible refine foot_unshedAll e0 ?_ | with_reducible refine foot_unshedTo e1 ?_ | intro _ | (dsimp only) | split)

def fp_trimStep : Print := .join
  [.reg1 R.PST_PH_DUTY.TRIM none]

theorem foot_trimStep {pr : Print} {z s : State} {r : Nat} (hP : fp_trimStep.Sub pr) (hk : Within pr z s) :
    Within pr z (trimStep r s) := by
  simp only [fp_trimStep, Print.join_cons, Print.join_nil, and_true] at hP
  have e0 := hP
  unfold trimStep
  iterate 40 (try any_goals first | with_reducible assumption | exact Print.has_reg1 Names.any e0 | with_reducible apply Print.has_ite | with_reducible refine Within.putI _ ?_ ?_ | with_reducible refine Within.each ?_ ?_ | intro _ | (dsimp only))

def fp_checkStep : Print := .join
  [.row Cell.phase none]

theorem foot_checkStep {pr : Print} {z s : State} {r : Nat} (hP : fp_checkStep.Sub pr) (hk : Within pr z s) :
    Within pr z (checkStep r s) := by
  simp only [fp_checkStep, Print.join_cons, Print.join_nil, and_true] at hP
  have e0 := hP
  unfold checkStep
  iterate 40 (try any_goals first | with_reducible assumption | with_reducible refine Within.setPhase _ (Print.has_row rfl Names.any e0) ?_ | with_reducible refine Within.each ?_ ?_ | with_reducible refine Within.fold ?_ ?_ | exact Or.inr (Print.has_prt (by assumption)) | with_reducible exact Or.inl rfl | intro _ | (dsimp only) | split | with_reducible apply Within.upd)

def fp_formEdge (n : Option Nat) : Print := .join
  [.reg1 R.PST_PH_DUTY.TRIM n,
   .row Cell.phase n,
   .reg1 R.PST_PH_CNT.LIMITED n,
   .prt .out]

theorem foot_formEdge {pr : Print} {z s : State} {r : Nat} {n : Nat} {duty : Nat} {period : Nat} {o_n : Option Nat} (n_n : Names o_n n) (hP : (fp_formEdge o_n).Sub pr) (hk : Within pr z s) :
    Within pr z (formEdge r n duty period s) := by
  simp only [fp_formEdge, Print.join_cons, Print.join_nil, and_true] at hP
  obtain ⟨e0, e1, e2, e3⟩ := hP
  unfold formEdge
  iterate 40 (try any_goals first | with_reducible assumption | exact Print.has_reg1 n_n e0 | with_reducible refine Within.setPhase _ (Print.has_row rfl n_n e1) ?_ | exact Print.has_reg1 n_n e2 | exact Print.has_prt e3 | with_reducible apply Print.has_ite | with_reducible refine Within.put _ ?_ ?_ | with_reducible refine Within.emit _ ?_ ?_ | with_reducible refine Within.when ?_ ?_ | exact Or.inr (Print.has_prt (by assumption)) | with_reducible exact Or.inl rfl | intro _ | (dsimp only) | split | with_reducible apply Within.upd)

def fp_phaseStep (n : Option Nat) : Print := .join
  [.row Cell.phase n,
   fp_formEdge n]

theorem foot_phaseStep {pr : Print} {z s : State} {r : Nat} {n : Nat} {duty : Nat} {period : Nat} {held : Bool} {o_n : Option Nat} (n_n : Names o_n n) (hP : (fp_phaseStep o_n).Sub pr) (hk : Within pr z s) :
    Within pr z (phaseStep r n duty period held s) := by
  simp only [fp_phaseStep, Print.join_cons, Print.join_nil, and_true] at hP
  obtain ⟨e0, e1⟩ := hP
  unfold phaseStep
  iterate 40 (try any_goals first | with_reducible assumption | with_reducible refine Within.setPhase _ (Print.has_row rfl n_n e0) ?_ | with_reducible refine foot_formEdge n_n e1 ?_ | exact Or.inr (Print.has_prt (by assumption)) | with_reducible exact Or.inl rfl | (dsimp only) | with_reducible apply Within.upd)

def fp_showDuty (n : Option Nat) : Print := .join
  [.reg1 R.PST_PH_DUTY.DUTY n,
   .row Cell.phase n]

theorem foot_showDuty {pr : Print} {z s : State} {n : Nat} {o_n : Option Nat} (n_n : Names o_n n) (hP : (fp_showDuty o_n).Sub pr) (hk : Within pr z s) :
    Within pr z (showDuty n s) := by
  simp only [fp_showDuty, Print.join_cons, Print.join_nil, and_true] at hP
  obtain ⟨e0, e1⟩ := hP
  unfold showDuty
  iterate 40 (try any_goals first | with_reducible assumption | exact Print.has_reg1 n_n e0 | with_reducible refine Within.setPhase _ (Print.has_row rfl n_n e1) ?_ | with_reducible apply Print.has_ite | with_reducible refine Within.put _ ?_ ?_ | with_reducible refine Within.when ?_ ?_ | exact Or.inr (Print.has_prt (by assumption)) | with_reducible exact Or.inl rfl | intro _ | (dsimp only) | with_reducible apply Within.upd)

def fp_sendThreshold (d : Option Nat) : Print := .join
  [.row Cell.itn d,
   fp_sendDown d]

theorem foot_sendThreshold {pr : Print} {z s : State} {d : Nat} {v : Nat} {o_d : Option Nat} (n_d : Names o_d d) (hP : (fp_sendThreshold o_d).Sub pr) (hk : Within pr z s) :
    Within pr z (sendThreshold d v s) := by
  simp only [fp_sendThreshold, Print.join_cons, Print.join_nil, and_true] at hP
  obtain ⟨e0, e1⟩ := hP
  unfold sendThreshold
  iterate 40 (try any_goals first | with_reducible assumption | with_reducible refine Within.setItn _ (Print.has_row rfl n_d e0) ?_ | with_reducible refine foot_sendDown n_d e1 ?_ | exact Or.inr (Print.has_prt (by assumption)) | with_reducible exact Or.inl rfl | (dsimp only) | split | with_reducible apply Within.upd)

def fp_noteAbove (d : Option Nat) : Print := .join
  [.row Cell.itn d]

theorem foot_noteAbove {pr : Print} {z s : State} {d : Nat} {o_d : Option Nat} (n_d : Names o_d d) (hP : (fp_noteAbove o_d).Sub pr) (hk : Within pr z s) :
    Within pr z (noteAbove d s) := by
  simp only [fp_noteAbove, Print.join_cons, Print.join_nil, and_true] at hP
  have e0 := hP
  unfold noteAbove
  iterate 40 (try any_goals first | with_reducible assumption | with_reducible refine Within.setItn _ (Print.has_row rfl n_d e0) ?_ | with_reducible refine Within.fold ?_ ?_ | exact Or.inr (Print.has_prt (by assumption)) | with_reducible exact Or.inl rfl | intro _ | (dsimp only) | split | with_reducible apply Within.upd)

def fp_refStep (r : Option Nat) : Print := .join
  [.row Cell.rail r,
   .reg1 R.LPE_V.VREF r,
   .reg1 R.ITN_DIE_STAT.PE r,
   .reg1 R.ITN_DIE_PRED.IMAX r,
   fp_nextInjection,
   fp_showEmpty r,
   fp_sendThreshold r,
   fp_noteAbove r]

theorem foot_refStep {pr : Print} {z s : State} {r : Nat} {o_r : Option Nat} (n_r : Names o_r r) (hP : (fp_refStep o_r).Sub pr) (hk : Within pr z s) :
    Within pr z (refStep r s) := by
  simp only [fp_refStep, Print.join_cons, Print.join_nil, and_true] at hP
  obtain ⟨e0, e1, e2, e3, e4, e5, e6, e7⟩ := hP
  unfold refStep
  iterate 40 (try any_goals first | with_reducible assumption | with_reducible refine Within.setRail _ (Print.has_row rfl n_r e0) ?_ | exact Print.has_reg1 n_r e1 | exact Print.has_reg1 n_r e2 | exact Print.has_reg1 n_r e3 | with_reducible apply Print.has_ite | with_reducible refine Within.put _ ?_ ?_ | with_reducible refine Within.putI _ ?_ ?_ | with_reducible refine foot_nextInjection e4 ?_ | with_reducible refine foot_showEmpty n_r e5 ?_ | with_reducible refine foot_sendThreshold n_r e6 ?_ | with_reducible refine foot_noteAbove n_r e7 ?_ | with_reducible refine Within.when ?_ ?_ | exact Or.inr (Print.has_prt (by assumption)) | with_reducible exact Or.inl rfl | intro _ | (dsimp only) | split | with_reducible apply Within.upd)

def fp_enableCores : Print := .join
  [fp_railEnable none]

theorem foot_enableCores {pr : Print} {z s : State} (hP : fp_enableCores.Sub pr) (hk : Within pr z s) :
    Within pr z (enableCores s) := by
  simp only [fp_enableCores, Print.join_cons, Print.join_nil, and_true] at hP
  have e0 := hP
  unfold enableCores
  iterate 40 (try any_goals first | with_reducible assumption | with_reducible refine foot_railEnable Names.any e0 ?_ | with_reducible refine Within.each ?_ ?_ | intro _ | (dsimp only))

def fp_superviseStep (r : Option Nat) : Print := .join
  [.row Cell.rail r,
   .reg R.LPE_EVENT,
   .reg R.LPE_CMP_CNT.COUNT,
   .reg1 R.LPE_DUTY.U_SAT r,
   .reg1 R.LPE_INT.I r,
   .reg1 R.LPE_DUTY.SAFE r,
   .reg1 R.LPE_STAT.STATE r,
   .prt .pins,
   fp_enableCores]

theorem foot_superviseStep {pr : Print} {z s : State} {r : Nat} {o : LawOut} {ipred : Int} {vinU : Nat} {differ : Bool} {o_r : Option Nat} (n_r : Names o_r r) (hP : (fp_superviseStep o_r).Sub pr) (hk : Within pr z s) :
    Within pr z (superviseStep r o ipred vinU differ s) := by
  simp only [fp_superviseStep, Print.join_cons, Print.join_nil, and_true] at hP
  obtain ⟨e0, e1, e2, e3, e4, e5, e6, hP⟩ := hP
  obtain ⟨e7, e8⟩ := hP
  unfold superviseStep
  iterate 40 (try any_goals first | with_reducible assumption | with_reducible refine Within.setRail _ (Print.has_row rfl n_r e0) ?_ | exact Print.has_reg e1 | exact Print.has_reg e2 | exact Print.has_reg1 n_r e3 | exact Print.has_reg1 n_r e4 | exact Print.has_reg1 n_r e5 | exact Print.has_reg1 n_r e6 | exact Print.has_prt e7 | with_reducible apply Print.has_ite | with_reducible refine Within.put _ ?_ ?_ | with_reducible refine Within.putI _ ?_ ?_ | with_reducible refine Within.event _ ?_ ?_ | with_reducible refine Within.addSat _ ?_ ?_ | with_reducible refine foot_enableCores e8 ?_ | with_reducible refine Within.when ?_ ?_ | exact Or.inr (Print.has_prt (by assumption)) | with_reducible exact Or.inl rfl | intro _ | (dsimp only) | split | with_reducible apply Within.upd)

def fp_lawStep (r : Option Nat) : Print := .join
  [.reg1 R.LPE_DUTY.U_SAT r,
   .reg1 R.ITN_DIE_PRED2.ILEAD r,
   .reg1 R.LPE_STAT.FROZEN r,
   .row Cell.rail r,
   fp_superviseStep r,
   fp_testStep]

theorem foot_lawStep {pr : Print} {z s : State} {r : Nat} {differ : Bool} {o_r : Option Nat} (n_r : Names o_r r) (hP : (fp_lawStep o_r).Sub pr) (hk : Within pr z s) :
    Within pr z (lawStep r differ s) := by
  simp only [fp_lawStep, Print.join_cons, Print.join_nil, and_true] at hP
  obtain ⟨e0, e1, e2, e3, e4, e5⟩ := hP
  unfold lawStep
  iterate 40 (try any_goals first | with_reducible assumption | exact Print.has_reg1 n_r e0 | exact Print.has_reg1 n_r e1 | exact Print.has_reg1 n_r e2 | with_reducible refine Within.setRail _ (Print.has_row rfl n_r e3) ?_ | with_reducible apply Print.has_ite | with_reducible refine Within.put _ ?_ ?_ | with_reducible refine Within.putI _ ?_ ?_ | with_reducible refine Within.putB _ ?_ ?_ | with_reducible refine foot_superviseStep n_r e4 ?_ | with_reducible refine foot_testStep e5 ?_ | with_reducible refine Within.when ?_ ?_ | exact Or.inr (Print.has_prt (by assumption)) | with_reducible exact Or.inl rfl | intro _ | (dsimp only) | split | with_reducible apply Within.upd)

def fp_endLimited (n : Option Nat) : Print := .join
  [.row Cell.phase n]

theorem foot_endLimited {pr : Print} {z s : State} {n : Nat} {o_n : Option Nat} (n_n : Names o_n n) (hP : (fp_endLimited o_n).Sub pr) (hk : Within pr z s) :
    Within pr z (endLimited n s) := by
  simp only [fp_endLimited, Print.join_cons, Print.join_nil, and_true] at hP
  have e0 := hP
  unfold endLimited
  iterate 40 (try any_goals first | with_reducible assumption | with_reducible refine Within.setPhase _ (Print.has_row rfl n_n e0) ?_ | exact Or.inr (Print.has_prt (by assumption)) | with_reducible exact Or.inl rfl | split | with_reducible apply Within.upd)

def fp_endSoft (r : Option Nat) : Print := .join
  [.row Cell.rail r]

theorem foot_endSoft {pr : Print} {z s : State} {r : Nat} {o_r : Option Nat} (n_r : Names o_r r) (hP : (fp_endSoft o_r).Sub pr) (hk : Within pr z s) :
    Within pr z (endSoft r s) := by
  simp only [fp_endSoft, Print.join_cons, Print.join_nil, and_true] at hP
  have e0 := hP
  unfold endSoft
  iterate 40 (try any_goals first | with_reducible assumption | with_reducible refine Within.setRail _ (Print.has_row rfl n_r e0) ?_ | exact Or.inr (Print.has_prt (by assumption)) | with_reducible exact Or.inl rfl | (dsimp only) | split | with_reducible apply Within.upd)

def fp_evalRail (r : Option Nat) : Print := .join
  [fp_showDuty none,
   fp_refStep r,
   fp_brakeStep r,
   fp_rampShares,
   fp_unshedStep,
   fp_noteSkim r,
   fp_trimStep,
   fp_checkStep,
   fp_lawStep r,
   fp_endSoft r,
   fp_endLimited none,
   fp_phaseStep none]

theorem foot_evalRail {pr : Print} {z s : State} {period : Nat} {disagree : Nat} {r : Nat} {o_r : Option Nat} (n_r : Names o_r r) (hP : (fp_evalRail o_r).Sub pr) (hk : Within pr z s) :
    Within pr z (evalRail period disagree r s) := by
  simp only [fp_evalRail, Print.join_cons, Print.join_nil, and_true] at hP
  obtain ⟨e0, e1, e2, e3, e4, e5, e6, hP⟩ := hP
  obtain ⟨e7, e8, e9, e10, e11⟩ := hP
  unfold evalRail
  iterate 40 (try any_goals first | with_reducible assumption | with_reducible refine foot_showDuty Names.any e0 ?_ | with_reducible refine foot_refStep n_r e1 ?_ | with_reducible refine foot_brakeStep n_r e2 ?_ | with_reducible refine foot_rampShares e3 ?_ | with_reducible refine foot_unshedStep e4 ?_ | with_reducible refine foot_noteSkim n_r e5 ?_ | with_reducible refine foot_trimStep e6 ?_ | with_reducible refine foot_checkStep e7 ?_ | with_reducible refine foot_lawStep n_r e8 ?_ | with_reducible refine foot_endSoft n_r e9 ?_ | with_reducible refine foot_endLimited Names.any e10 ?_ | with_reducible refine foot_phaseStep Names.any e11 ?_ | with_reducible refine Within.each ?_ ?_ | intro _ | (dsimp only) | split)

def fp_vinSample : Print := .join
  [.reg R.PST_VIN.VIN,
   .prt .capp]

theorem foot_vinSample {pr : Print} {z s : State} {vin : Nat} (hP : fp_vinSample.Sub pr) (hk : Within pr z s) :
    Within pr z (vinSample vin s) := by
  simp only [fp_vinSample, Print.join_cons, Print.join_nil, and_true] at hP
  obtain ⟨e0, e1⟩ := hP
  unfold vinSample
  iterate 40 (try any_goals first | with_reducible assumption | exact Print.has_reg e0 | exact Print.has_prt e1 | with_reducible apply Print.has_ite | with_reducible refine Within.put _ ?_ ?_ | exact Or.inr (Print.has_prt (by assumption)) | with_reducible exact Or.inl rfl | (dsimp only) | split | with_reducible apply Within.upd)

def fp_sumRails : Print := .join
  [.row Cell.cap none,
   .row Cell.est none,
   .row Cell.cap (some 16),
   .prt .estp]

theorem foot_sumRails {pr : Print} {z s : State} (hP : fp_sumRails.Sub pr) (hk : Within pr z s) :
    Within pr z (sumRails s) := by
  simp only [fp_sumRails, Print.join_cons, Print.join_nil, and_true] at hP
  obtain ⟨e0, e1, e2, e3⟩ := hP
  unfold sumRails
  iterate 40 (try any_goals first | with_reducible assumption | with_reducible refine Within.setCap _ (Print.has_row rfl Names.any e0) ?_ | with_reducible refine Within.setEst _ (Print.has_row rfl Names.any e1) ?_ | with_reducible refine Within.setCap _ (Print.has_row rfl Names.one e2) ?_ | exact Print.has_prt e3 | with_reducible refine Within.each ?_ ?_ | exact Or.inr (Print.has_prt (by assumption)) | with_reducible exact Or.inl rfl | intro _ | (dsimp only) | with_reducible apply Within.upd)

def fp_selfTest : Print := .join
  [.reg R.LPE_EVENT,
   .prt .self,
   fp_faultOn,
   fp_record]

theorem foot_selfTest {pr : Print} {z s : State} {flagged : Bool} (hP : fp_selfTest.Sub pr) (hk : Within pr z s) :
    Within pr z (selfTest flagged s) := by
  simp only [fp_selfTest, Print.join_cons, Print.join_nil, and_true] at hP
  obtain ⟨e0, e1, e2, e3⟩ := hP
  unfold selfTest
  iterate 40 (try any_goals first | with_reducible assumption | exact Print.has_reg e0 | exact Print.has_prt e1 | with_reducible apply Print.has_ite | with_reducible refine Within.event _ ?_ ?_ | with_reducible refine foot_faultOn e2 ?_ | with_reducible refine foot_record e3 ?_ | with_reducible refine Within.when ?_ ?_ | exact Or.inr (Print.has_prt (by assumption)) | with_reducible exact Or.inl rfl | intro _ | (dsimp only) | split | with_reducible apply Within.upd)

def fp_releaseHeld : Print := .join
  [.prt .boot,
   fp_reloadDie]

theorem foot_releaseHeld {pr : Print} {z s : State} {d : Nat} (hP : fp_releaseHeld.Sub pr) (hk : Within pr z s) :
    Within pr z (releaseHeld d s) := by
  simp only [fp_releaseHeld, Print.join_cons, Print.join_nil, and_true] at hP
  obtain ⟨e0, e1⟩ := hP
  unfold releaseHeld
  iterate 40 (try any_goals first | with_reducible assumption | exact Print.has_prt e0 | with_reducible refine foot_reloadDie e1 ?_ | exact Or.inr (Print.has_prt (by assumption)) | with_reducible exact Or.inl rfl | (dsimp only) | split | with_reducible apply Within.upd)

def fp_startPeriod : Print := .join
  [.reg R.PST_SYNC_STAT.PERIOD,
   .prt .out,
   .prt .clk,
   fp_syncStep]

theorem foot_startPeriod {pr : Print} {z s : State} {y : SyncIn} (hP : fp_startPeriod.Sub pr) (hk : Within pr z s) :
    Within pr z (startPeriod y s) := by
  simp only [fp_startPeriod, Print.join_cons, Print.join_nil, and_true] at hP
  obtain ⟨e0, e1, e2, e3⟩ := hP
  unfold startPeriod
  iterate 40 (try any_goals first | with_reducible assumption | exact Print.has_reg e0 | exact Print.has_prt e1 | exact Print.has_prt e2 | with_reducible apply Print.has_ite | with_reducible refine Within.put _ ?_ ?_ | with_reducible refine Within.emit _ ?_ ?_ | with_reducible refine foot_syncStep e3 ?_ | with_reducible refine Within.when ?_ ?_ | exact Or.inr (Print.has_prt (by assumption)) | with_reducible exact Or.inl rfl | intro _ | (dsimp only) | with_reducible apply Within.upd)

def fp_effLoopEvaluation : Print := .join
  [fp_vinSample,
   fp_startPeriod,
   fp_latchRail none,
   fp_evalRail none,
   fp_sumRails,
   fp_selfTest,
   fp_releaseHeld]

theorem foot_effLoopEvaluation {pr : Print} {z s : State} {vin : Nat} {volts : List Nat} {sync : SyncIn} {disagree : Nat} {flagged : Bool} (hP : fp_effLoopEvaluation.Sub pr) (hk : Within pr z s) :
    Within pr z (effLoopEvaluation vin volts sync disagree flagged s) := by
  simp only [fp_effLoopEvaluation, Print.join_cons, Print.join_nil, and_true] at hP
  obtain ⟨e0, e1, e2, e3, e4, e5, e6⟩ := hP
  unfold effLoopEvaluation
  iterate 40 (try any_goals first | with_reducible assumption | with_reducible refine foot_vinSample e0 ?_ | with_reducible refine foot_startPeriod e1 ?_ | with_reducible refine foot_latchRail Names.any e2 ?_ | with_reducible refine foot_evalRail Names.any e3 ?_ | with_reducible refine foot_sumRails e4 ?_ | with_reducible refine foot_selfTest e5 ?_ | with_reducible refine foot_releaseHeld e6 ?_ | with_reducible refine Within.each ?_ ?_ | intro _ | (dsimp only) | split)

def fp_execLoopEvaluation : Print := .join
  [fp_finish,
   fp_effLoopEvaluation]

theorem foot_execLoopEvaluation {pr : Print} {z s t : State} {vin : Nat} {volts : List Nat} {sync : SyncIn} {disagree : Nat} {flagged : Bool} (hP : fp_execLoopEvaluation.Sub pr) (hk : Within pr z s)
    (h : execLoopEvaluation vin volts sync disagree flagged s = .next t) : Within pr z t := by
  simp only [fp_execLoopEvaluation, Print.join_cons, Print.join_nil, and_true] at hP
  obtain ⟨e0, e1⟩ := hP
  unfold execLoopEvaluation done at h
  injection h with h
  subst h
  iterate 40 (try any_goals first | with_reducible assumption | with_reducible refine foot_finish e0 ?_ | with_reducible refine foot_effLoopEvaluation e1 ?_)

def fp_enterHold (r : Option Nat) : Print := .join
  [.reg1 R.LPE_STAT.STATE r,
   .reg1 R.LPE_STAT.CAUSE r,
   .reg R.LPE_EVENT,
   .row Cell.rail r,
   .reg1 R.ITN_DIE_STAT.PE r,
   .reg1 R.LPE_DUTY.U_SAT r,
   fp_formEdge none,
   fp_stopTest,
   fp_faultOn,
   fp_recordRail,
   fp_refit (r.map fun r => r % 16)]

theorem foot_enterHold {pr : Print} {z s : State} {r : Nat} {cause : Nat} {o_r : Option Nat} (n_r : Names o_r r) (hP : (fp_enterHold o_r).Sub pr) (hk : Within pr z s) :
    Within pr z (enterHold r cause s) := by
  simp only [fp_enterHold, Print.join_cons, Print.join_nil, and_true] at hP
  obtain ⟨e0, e1, e2, e3, e4, e5, e6, hP⟩ := hP
  obtain ⟨e7, e8, e9, e10⟩ := hP
  unfold enterHold
  iterate 40 (try any_goals first | with_reducible assumption | exact Print.has_reg1 n_r e0 | exact Print.has_reg1 n_r e1 | exact Print.has_reg e2 | with_reducible refine Within.setRail _ (Print.has_row rfl n_r e3) ?_ | exact Print.has_reg1 n_r e4 | exact Print.has_reg1 n_r e5 | with_reducible apply Print.has_ite | with_reducible refine Within.put _ ?_ ?_ | with_reducible refine Within.event _ ?_ ?_ | with_reducible refine foot_formEdge Names.any e6 ?_ | with_reducible refine foot_stopTest e7 ?_ | with_reducible refine foot_faultOn e8 ?_ | with_reducible refine foot_recordRail e9 ?_ | with_reducible refine foot_refit (Names.map (fun r => r % 16) n_r) e10 ?_ | with_reducible refine Within.each ?_ ?_ | with_reducible refine Within.when ?_ ?_ | exact Or.inr (Print.has_prt (by assumption)) | with_reducible exact Or.inl rfl | intro _ | (dsimp only) | split | with_reducible apply Within.upd)

def fp_execCmpHold (rail : Option Nat) : Print := .join
  [fp_finish,
   fp_enterHold rail]

theorem foot_execCmpHold {pr : Print} {z s t : State} {rail : Nat} {o_rail : Option Nat} (n_rail : Names o_rail rail) (hP : (fp_execCmpHold o_rail).Sub pr) (hk : Within pr z s)
    (h : execCmpHold rail s = .next t) : Within pr z t := by
  simp only [fp_execCmpHold, Print.join_cons, Print.join_nil, and_true] at hP
  obtain ⟨e0, e1⟩ := hP
  unfold execCmpHold done at h
  injection h with h
  subst h
  iterate 40 (try any_goals first | with_reducible assumption | with_reducible refine foot_finish e0 ?_ | with_reducible refine foot_enterHold n_rail e1 ?_ | split)

def fp_execFeHold (rail : Option Nat) : Print := .join
  [fp_finish,
   fp_enterHold rail]

theorem foot_execFeHold {pr : Print} {z s t : State} {rail : Nat} {o_rail : Option Nat} (n_rail : Names o_rail rail) (hP : (fp_execFeHold o_rail).Sub pr) (hk : Within pr z s)
    (h : execFeHold rail s = .next t) : Within pr z t := by
  simp only [fp_execFeHold, Print.join_cons, Print.join_nil, and_true] at hP
  obtain ⟨e0, e1⟩ := hP
  unfold execFeHold done at h
  injection h with h
  subst h
  iterate 40 (try any_goals first | with_reducible assumption | with_reducible refine foot_finish e0 ?_ | with_reducible refine foot_enterHold n_rail e1 ?_ | split)

def fp_execLoopResume : Print := .join
  [.reg1 R.LPE_STAT.STATE none,
   .reg1 R.LPE_STAT.CAUSE none,
   .row Cell.rail none,
   fp_finish,
   fp_command,
   fp_complete]

theorem foot_execLoopResume {pr : Print} {z s t : State} {port : Nat} {tag : Nat} (hP : fp_execLoopResume.Sub pr) (hk : Within pr z s)
    (h : execLoopResume port tag s = .next t) : Within pr z t := by
  simp only [fp_execLoopResume, Print.join_cons, Print.join_nil, and_true] at hP
  obtain ⟨e0, e1, e2, e3, e4, e5⟩ := hP
  unfold execLoopResume done at h
  injection h with h
  subst h
  iterate 40 (try any_goals first | with_reducible assumption | exact Print.has_reg1 Names.any e0 | exact Print.has_reg1 Names.any e1 | with_reducible refine Within.setRail _ (Print.has_row rfl Names.any e2) ?_ | with_reducible apply Print.has_ite | with_reducible refine Within.put _ ?_ ?_ | with_reducible refine foot_finish e3 ?_ | with_reducible refine foot_command e4 ?_ ?_ | with_reducible refine foot_complete e5 ?_ | exact Or.inr (Print.has_prt (by assumption)) | with_reducible exact Or.inl rfl | intro _ | (dsimp only) | with_reducible apply Within.upd)

def fp_execLoopTest : Print := .join
  [.reg R.LPE_CAP_STAT.STATE,
   .reg R.LPE_CAP_STAT.COUNT,
   .reg R.LPE_CAP_STAT.STEP,
   .reg R.LPE_CAP_TS.TIME,
   fp_finish,
   fp_command,
   fp_setTest,
   fp_markStarted]

theorem foot_execLoopTest {pr : Print} {z s t : State} {port : Nat} {tag : Nat} (hP : fp_execLoopTest.Sub pr) (hk : Within pr z s)
    (h : execLoopTest port tag s = .next t) : Within pr z t := by
  simp only [fp_execLoopTest, Print.join_cons, Print.join_nil, and_true] at hP
  obtain ⟨e0, e1, e2, e3, e4, e5, e6, e7⟩ := hP
  unfold execLoopTest done at h
  injection h with h
  subst h
  iterate 40 (try any_goals first | with_reducible assumption | exact Print.has_reg e0 | exact Print.has_reg e1 | exact Print.has_reg e2 | exact Print.has_reg e3 | with_reducible apply Print.has_ite | with_reducible refine Within.put _ ?_ ?_ | with_reducible refine foot_finish e4 ?_ | with_reducible refine foot_command e5 ?_ ?_ | with_reducible refine foot_setTest e6 ?_ | with_reducible refine foot_markStarted e7 ?_ | exact Or.inr (Print.has_prt (by assumption)) | with_reducible exact Or.inl rfl | intro _ | (dsimp only) | split | with_reducible apply Within.upd)

def fp_execLoopTestStop : Print := .join
  [fp_finish,
   fp_command,
   fp_setTest,
   fp_complete]

theorem foot_execLoopTestStop {pr : Print} {z s t : State} {port : Nat} {tag : Nat} (hP : fp_execLoopTestStop.Sub pr) (hk : Within pr z s)
    (h : execLoopTestStop port tag s = .next t) : Within pr z t := by
  simp only [fp_execLoopTestStop, Print.join_cons, Print.join_nil, and_true] at hP
  obtain ⟨e0, e1, e2, e3⟩ := hP
  unfold execLoopTestStop done at h
  injection h with h
  subst h
  iterate 40 (try any_goals first | with_reducible assumption | with_reducible refine foot_finish e0 ?_ | with_reducible refine foot_command e1 ?_ ?_ | with_reducible refine foot_setTest e2 ?_ | with_reducible refine foot_complete e3 ?_ | exact Or.inr (Print.has_prt (by assumption)) | with_reducible exact Or.inl rfl | intro _ | (dsimp only) | with_reducible apply Within.upd)

def fp_orderRing : Print := .join
  [fp_unrollRing]

theorem foot_orderRing {pr : Print} {z s : State} (hP : fp_orderRing.Sub pr) (hk : Within pr z s) :
    Within pr z (orderRing s) := by
  simp only [fp_orderRing, Print.join_cons, Print.join_nil, and_true] at hP
  have e0 := hP
  unfold orderRing
  iterate 40 (try any_goals first | with_reducible assumption | with_reducible refine foot_unrollRing e0 ?_ | (dsimp only) | split)

def fp_effLoopTestEnd : Print := .join
  [.reg R.LPE_CAP_STAT.STATE,
   .reg R.LPE_EVENT,
   fp_orderRing,
   fp_setTest,
   fp_completeAt]

theorem foot_effLoopTestEnd {pr : Print} {z s : State} (hP : fp_effLoopTestEnd.Sub pr) (hk : Within pr z s) :
    Within pr z (effLoopTestEnd s) := by
  simp only [fp_effLoopTestEnd, Print.join_cons, Print.join_nil, and_true] at hP
  obtain ⟨e0, e1, e2, e3, e4⟩ := hP
  unfold effLoopTestEnd
  iterate 40 (try any_goals first | with_reducible assumption | exact Print.has_reg e0 | exact Print.has_reg e1 | with_reducible apply Print.has_ite | with_reducible refine Within.put _ ?_ ?_ | with_reducible refine Within.event _ ?_ ?_ | with_reducible refine foot_orderRing e2 ?_ | with_reducible refine foot_setTest e3 ?_ | with_reducible refine foot_completeAt e4 ?_ | (dsimp only) | split)

def fp_execLoopTestEnd : Print := .join
  [fp_finish,
   fp_effLoopTestEnd]

theorem foot_execLoopTestEnd {pr : Print} {z s t : State} (hP : fp_execLoopTestEnd.Sub pr) (hk : Within pr z s)
    (h : execLoopTestEnd s = .next t) : Within pr z t := by
  simp only [fp_execLoopTestEnd, Print.join_cons, Print.join_nil, and_true] at hP
  obtain ⟨e0, e1⟩ := hP
  unfold execLoopTestEnd done at h
  injection h with h
  subst h
  iterate 40 (try any_goals first | with_reducible assumption | with_reducible refine foot_finish e0 ?_ | with_reducible refine foot_effLoopTestEnd e1 ?_)

def fp_diePower (d : Option Nat) : Print := .join
  [.row Cell.cap d,
   .reg1 R.CAP_DIE_P.P d]

theorem foot_diePower {pr : Print} {z s : State} {d : Nat} {o_d : Option Nat} (n_d : Names o_d d) (hP : (fp_diePower o_d).Sub pr) (hk : Within pr z s) :
    Within pr z (diePower d s) := by
  simp only [fp_diePower, Print.join_cons, Print.join_nil, and_true] at hP
  obtain ⟨e0, e1⟩ := hP
  unfold diePower
  iterate 40 (try any_goals first | with_reducible assumption | with_reducible refine Within.setCap _ (Print.has_row rfl n_d e0) ?_ | exact Print.has_reg1 n_d e1 | with_reducible apply Print.has_ite | with_reducible refine Within.put _ ?_ ?_ | exact Or.inr (Print.has_prt (by assumption)) | with_reducible exact Or.inl rfl | (dsimp only) | with_reducible apply Within.upd)

def fp_linkPower : Print := .join
  [.row Cell.cap (some 16),
   .prt .capp]

theorem foot_linkPower {pr : Print} {z s : State} (hP : fp_linkPower.Sub pr) (hk : Within pr z s) :
    Within pr z (linkPower s) := by
  simp only [fp_linkPower, Print.join_cons, Print.join_nil, and_true] at hP
  obtain ⟨e0, e1⟩ := hP
  unfold linkPower
  iterate 40 (try any_goals first | with_reducible assumption | with_reducible refine Within.setCap _ (Print.has_row rfl Names.one e0) ?_ | exact Print.has_prt e1 | exact Or.inr (Print.has_prt (by assumption)) | with_reducible exact Or.inl rfl | (dsimp only) | with_reducible apply Within.upd)

def fp_packagePower : Print := .join
  [.reg R.CAP_PKG_P.P,
   .prt .capp,
   .prt .sec]

theorem foot_packagePower {pr : Print} {z s : State} (hP : fp_packagePower.Sub pr) (hk : Within pr z s) :
    Within pr z (packagePower s) := by
  simp only [fp_packagePower, Print.join_cons, Print.join_nil, and_true] at hP
  obtain ⟨e0, e1, e2⟩ := hP
  unfold packagePower
  iterate 40 (try any_goals first | with_reducible assumption | exact Print.has_reg e0 | exact Print.has_prt e1 | exact Print.has_prt e2 | with_reducible apply Print.has_ite | with_reducible refine Within.put _ ?_ ?_ | with_reducible refine Within.fold ?_ ?_ | exact Or.inr (Print.has_prt (by assumption)) | with_reducible exact Or.inl rfl | intro _ | (dsimp only) | with_reducible apply Within.upd)

def fp_chargeDie (d : Option Nat) : Print := .join
  [.reg1 R.CAP_E_PART.ENERGY none,
   .row Cell.cap d,
   .reg R.CAP_E_SYS.ENERGY]

theorem foot_chargeDie {pr : Print} {z s : State} {d : Nat} {uj : Nat} {o_d : Option Nat} (n_d : Names o_d d) (hP : (fp_chargeDie o_d).Sub pr) (hk : Within pr z s) :
    Within pr z (chargeDie d uj s) := by
  simp only [fp_chargeDie, Print.join_cons, Print.join_nil, and_true] at hP
  obtain ⟨e0, e1, e2⟩ := hP
  unfold chargeDie
  iterate 40 (try any_goals first | with_reducible assumption | exact Print.has_reg1 Names.any e0 | with_reducible refine Within.setCap _ (Print.has_row rfl n_d e1) ?_ | exact Print.has_reg e2 | with_reducible apply Print.has_ite | with_reducible refine Within.addWrap _ ?_ ?_ | exact Or.inr (Print.has_prt (by assumption)) | with_reducible exact Or.inl rfl | (dsimp only) | split | with_reducible apply Within.upd)

def fp_energyDie (d : Option Nat) : Print := .join
  [.row Cell.cap d,
   .row Cell.tok d,
   fp_chargeDie d]

theorem foot_energyDie {pr : Print} {z s : State} {d : Nat} {share : Int} {o_d : Option Nat} (n_d : Names o_d d) (hP : (fp_energyDie o_d).Sub pr) (hk : Within pr z s) :
    Within pr z (energyDie d share s) := by
  simp only [fp_energyDie, Print.join_cons, Print.join_nil, and_true] at hP
  obtain ⟨e0, e1, e2⟩ := hP
  unfold energyDie
  iterate 40 (try any_goals first | with_reducible assumption | with_reducible refine Within.setCap _ (Print.has_row rfl n_d e0) ?_ | with_reducible refine Within.setTok _ (Print.has_row rfl n_d e1) ?_ | with_reducible refine foot_chargeDie n_d e2 ?_ | exact Or.inr (Print.has_prt (by assumption)) | with_reducible exact Or.inl rfl | (dsimp only) | with_reducible apply Within.upd)

def fp_energyCycle : Print := .join
  [.prt .capp,
   fp_energyDie none]

theorem foot_energyCycle {pr : Print} {z s : State} (hP : fp_energyCycle.Sub pr) (hk : Within pr z s) :
    Within pr z (energyCycle s) := by
  simp only [fp_energyCycle, Print.join_cons, Print.join_nil, and_true] at hP
  obtain ⟨e0, e1⟩ := hP
  unfold energyCycle
  iterate 40 (try any_goals first | with_reducible assumption | exact Print.has_prt e0 | with_reducible refine foot_energyDie Names.any e1 ?_ | with_reducible refine Within.each ?_ ?_ | with_reducible refine Within.fold ?_ ?_ | exact Or.inr (Print.has_prt (by assumption)) | with_reducible exact Or.inl rfl | intro _ | (dsimp only) | split | with_reducible apply Within.upd)

def fp_baseCurrent (d : Option Nat) : Print := .join
  [.row Cell.itn d,
   fp_drawn]

theorem foot_baseCurrent {pr : Print} {z s : State} {d : Nat} {o_d : Option Nat} (n_d : Names o_d d) (hP : (fp_baseCurrent o_d).Sub pr) (hk : Within pr z s) :
    Within pr z (baseCurrent d s) := by
  simp only [fp_baseCurrent, Print.join_cons, Print.join_nil, and_true] at hP
  obtain ⟨e0, e1⟩ := hP
  unfold baseCurrent
  iterate 40 (try any_goals first | with_reducible assumption | with_reducible refine Within.setItn _ (Print.has_row rfl n_d e0) ?_ | with_reducible refine foot_drawn e1 ?_ | with_reducible refine Within.when ?_ ?_ | exact Or.inr (Print.has_prt (by assumption)) | with_reducible exact Or.inl rfl | intro _ | (dsimp only) | split | with_reducible apply Within.upd)

def fp_shareCycle : Print := .join
  [.prt .capp,
   fp_sendBudget none]

theorem foot_shareCycle {pr : Print} {z s : State} (hP : fp_shareCycle.Sub pr) (hk : Within pr z s) :
    Within pr z (shareCycle s) := by
  simp only [fp_shareCycle, Print.join_cons, Print.join_nil, and_true] at hP
  obtain ⟨e0, e1⟩ := hP
  unfold shareCycle
  iterate 40 (try any_goals first | with_reducible assumption | exact Print.has_prt e0 | with_reducible refine foot_sendBudget Names.any e1 ?_ | with_reducible refine Within.each ?_ ?_ | exact Or.inr (Print.has_prt (by assumption)) | with_reducible exact Or.inl rfl | intro _ | (dsimp only) | with_reducible apply Within.upd)

def fp_powerCycle : Print := .join
  [fp_diePower none,
   fp_linkPower,
   fp_packagePower,
   fp_energyCycle,
   fp_baseCurrent none,
   fp_shareCycle]

theorem foot_powerCycle {pr : Print} {z s : State} (hP : fp_powerCycle.Sub pr) (hk : Within pr z s) :
    Within pr z (powerCycle s) := by
  simp only [fp_powerCycle, Print.join_cons, Print.join_nil, and_true] at hP
  obtain ⟨e0, e1, e2, e3, e4, e5⟩ := hP
  unfold powerCycle
  iterate 40 (try any_goals first | with_reducible assumption | with_reducible refine foot_diePower Names.any e0 ?_ | with_reducible refine foot_linkPower e1 ?_ | with_reducible refine foot_packagePower e2 ?_ | with_reducible refine foot_energyCycle e3 ?_ | with_reducible refine foot_baseCurrent Names.any e4 ?_ | with_reducible refine foot_shareCycle e5 ?_ | with_reducible refine Within.each ?_ ?_ | intro _ | (dsimp only))

def fp_latchTokens (d : Option Nat) : Print := .join
  [.row Cell.tok d]

theorem foot_latchTokens {pr : Print} {z s : State} {d : Nat} {o_d : Option Nat} (n_d : Names o_d d) (hP : (fp_latchTokens o_d).Sub pr) (hk : Within pr z s) :
    Within pr z (latchTokens d s) := by
  simp only [fp_latchTokens, Print.join_cons, Print.join_nil, and_true] at hP
  have e0 := hP
  unfold latchTokens
  iterate 40 (try any_goals first | with_reducible assumption | with_reducible refine Within.setTok _ (Print.has_row rfl n_d e0) ?_ | exact Or.inr (Print.has_prt (by assumption)) | with_reducible exact Or.inl rfl | (dsimp only) | split | with_reducible apply Within.upd)

def fp_latchWindow (d : Option Nat) : Print := .join
  [.row Cell.est d]

theorem foot_latchWindow {pr : Print} {z s : State} {counts : List (Nat × Nat × Nat)} {d : Nat} {o_d : Option Nat} (n_d : Names o_d d) (hP : (fp_latchWindow o_d).Sub pr) (hk : Within pr z s) :
    Within pr z (latchWindow counts d s) := by
  simp only [fp_latchWindow, Print.join_cons, Print.join_nil, and_true] at hP
  have e0 := hP
  unfold latchWindow
  iterate 40 (try any_goals first | with_reducible assumption | with_reducible refine Within.setEst _ (Print.has_row rfl n_d e0) ?_ | with_reducible refine Within.fold ?_ ?_ | exact Or.inr (Print.has_prt (by assumption)) | with_reducible exact Or.inl rfl | intro _ | (dsimp only) | split | with_reducible apply Within.upd)

def fp_countWindow (d : Option Nat) : Print := .join
  [.row Cell.est d]

theorem foot_countWindow {pr : Print} {z s : State} {d : Nat} {o_d : Option Nat} (n_d : Names o_d d) (hP : (fp_countWindow o_d).Sub pr) (hk : Within pr z s) :
    Within pr z (countWindow d s) := by
  simp only [fp_countWindow, Print.join_cons, Print.join_nil, and_true] at hP
  have e0 := hP
  unfold countWindow
  iterate 40 (try any_goals first | with_reducible assumption | with_reducible refine Within.setEst _ (Print.has_row rfl n_d e0) ?_ | exact Or.inr (Print.has_prt (by assumption)) | with_reducible exact Or.inl rfl | (dsimp only) | with_reducible apply Within.upd)

def fp_effCounterLatch : Print := .join
  [fp_latchTokens none,
   fp_countWindow none,
   fp_latchWindow none]

theorem foot_effCounterLatch {pr : Print} {z s : State} {counts : List (Nat × Nat × Nat)} (hP : fp_effCounterLatch.Sub pr) (hk : Within pr z s) :
    Within pr z (effCounterLatch counts s) := by
  simp only [fp_effCounterLatch, Print.join_cons, Print.join_nil, and_true] at hP
  obtain ⟨e0, e1, e2⟩ := hP
  unfold effCounterLatch
  iterate 40 (try any_goals first | with_reducible assumption | with_reducible refine foot_latchTokens Names.any e0 ?_ | with_reducible refine foot_countWindow Names.any e1 ?_ | with_reducible refine foot_latchWindow Names.any e2 ?_ | with_reducible refine Within.each ?_ ?_ | with_reducible refine Within.when ?_ ?_ | intro _ | (dsimp only) | split)

def fp_execCounterLatch : Print := .join
  [fp_finish,
   fp_effCounterLatch]

theorem foot_execCounterLatch {pr : Print} {z s t : State} {counts : List (Nat × Nat × Nat)} (hP : fp_execCounterLatch.Sub pr) (hk : Within pr z s)
    (h : execCounterLatch counts s = .next t) : Within pr z t := by
  simp only [fp_execCounterLatch, Print.join_cons, Print.join_nil, and_true] at hP
  obtain ⟨e0, e1⟩ := hP
  unfold execCounterLatch done at h
  injection h with h
  subst h
  iterate 40 (try any_goals first | with_reducible assumption | with_reducible refine foot_finish e0 ?_ | with_reducible refine foot_effCounterLatch e1 ?_)

def fp_effFirstLayerDone (d : Option Nat) : Print := .join
  [.row Cell.est d,
   fp_sendMsg d]

theorem foot_effFirstLayerDone {pr : Print} {z s : State} {d : Nat} {o_d : Option Nat} (n_d : Names o_d d) (hP : (fp_effFirstLayerDone o_d).Sub pr) (hk : Within pr z s) :
    Within pr z (effFirstLayerDone d s) := by
  simp only [fp_effFirstLayerDone, Print.join_cons, Print.join_nil, and_true] at hP
  obtain ⟨e0, e1⟩ := hP
  unfold effFirstLayerDone
  iterate 40 (try any_goals first | with_reducible assumption | with_reducible refine Within.setEst _ (Print.has_row rfl n_d e0) ?_ | with_reducible refine foot_sendMsg n_d e1 ?_ | exact Or.inr (Print.has_prt (by assumption)) | with_reducible exact Or.inl rfl | (dsimp only) | split | with_reducible apply Within.upd)

def fp_execFirstLayerDone (die : Option Nat) : Print := .join
  [fp_finish,
   fp_effFirstLayerDone die]

theorem foot_execFirstLayerDone {pr : Print} {z s t : State} {die : Nat} {o_die : Option Nat} (n_die : Names o_die die) (hP : (fp_execFirstLayerDone o_die).Sub pr) (hk : Within pr z s)
    (h : execFirstLayerDone die s = .next t) : Within pr z t := by
  simp only [fp_execFirstLayerDone, Print.join_cons, Print.join_nil, and_true] at hP
  obtain ⟨e0, e1⟩ := hP
  unfold execFirstLayerDone done at h
  injection h with h
  subst h
  iterate 40 (try any_goals first | with_reducible assumption | with_reducible refine foot_finish e0 ?_ | with_reducible refine foot_effFirstLayerDone n_die e1 ?_)

def fp_takeEstimate (d : Option Nat) : Print := .join
  [.row Cell.est d]

theorem foot_takeEstimate {pr : Print} {z s : State} {d : Nat} {window : Nat} {h : List Nat} {o_d : Option Nat} (n_d : Names o_d d) (hP : (fp_takeEstimate o_d).Sub pr) (hk : Within pr z s) :
    Within pr z (takeEstimate d window h s) := by
  simp only [fp_takeEstimate, Print.join_cons, Print.join_nil, and_true] at hP
  have e0 := hP
  unfold takeEstimate
  iterate 40 (try any_goals first | with_reducible assumption | with_reducible refine Within.setEst _ (Print.has_row rfl n_d e0) ?_ | exact Or.inr (Print.has_prt (by assumption)) | with_reducible exact Or.inl rfl | (dsimp only) | split | with_reducible apply Within.upd)

def fp_execEstimateFrame (die : Option Nat) : Print := .join
  [fp_finish,
   fp_acceptFrame die,
   fp_takeEstimate die]

theorem foot_execEstimateFrame {pr : Print} {z s t : State} {die : Nat} {frame : Frame} {window : Nat} {o_die : Option Nat} (n_die : Names o_die die) (hP : (fp_execEstimateFrame o_die).Sub pr) (hk : Within pr z s)
    (h : execEstimateFrame die frame window s = .next t) : Within pr z t := by
  simp only [fp_execEstimateFrame, Print.join_cons, Print.join_nil, and_true] at hP
  obtain ⟨e0, e1, e2⟩ := hP
  unfold execEstimateFrame done at h
  injection h with h
  subst h
  iterate 40 (try any_goals first | with_reducible assumption | with_reducible refine foot_finish e0 ?_ | with_reducible refine foot_acceptFrame n_die e1 ?_ ?_ | with_reducible refine foot_takeEstimate n_die e2 ?_ | intro _)

def fp_spoilTrim (d : Option Nat) : Print := .join
  [.row Cell.est d,
   .prt .estp]

theorem foot_spoilTrim {pr : Print} {z s : State} {d : Nat} {o_d : Option Nat} (n_d : Names o_d d) (hP : (fp_spoilTrim o_d).Sub pr) (hk : Within pr z s) :
    Within pr z (spoilTrim d s) := by
  simp only [fp_spoilTrim, Print.join_cons, Print.join_nil, and_true] at hP
  obtain ⟨e0, e1⟩ := hP
  unfold spoilTrim
  iterate 40 (try any_goals first | with_reducible assumption | with_reducible refine Within.setEst _ (Print.has_row rfl n_d e0) ?_ | exact Print.has_prt e1 | exact Or.inr (Print.has_prt (by assumption)) | with_reducible exact Or.inl rfl | (dsimp only) | with_reducible apply Within.upd)

def fp_judgeFrame (d : Option Nat) : Print := .join
  [.row Cell.est d,
   .reg1 R.EST_DIE_CNT.LATE d,
   .reg R.EST_EVENT,
   fp_spoilTrim d]

theorem foot_judgeFrame {pr : Print} {z s : State} {d : Nat} {o_d : Option Nat} (n_d : Names o_d d) (hP : (fp_judgeFrame o_d).Sub pr) (hk : Within pr z s) :
    Within pr z (judgeFrame d s) := by
  simp only [fp_judgeFrame, Print.join_cons, Print.join_nil, and_true] at hP
  obtain ⟨e0, e1, e2, e3⟩ := hP
  unfold judgeFrame
  iterate 40 (try any_goals first | with_reducible assumption | with_reducible refine Within.setEst _ (Print.has_row rfl n_d e0) ?_ | exact Print.has_reg1 n_d e1 | exact Print.has_reg e2 | with_reducible apply Print.has_ite | with_reducible refine Within.event _ ?_ ?_ | with_reducible refine Within.addSat _ ?_ ?_ | with_reducible refine foot_spoilTrim n_d e3 ?_ | exact Or.inr (Print.has_prt (by assumption)) | with_reducible exact Or.inl rfl | (dsimp only) | split | with_reducible apply Within.upd)

def fp_modelOutputs (d : Option Nat) : Print := .join
  [.reg2 R.EST_RAW.I d none,
   .reg2 R.EST_LEAK.I d none,
   .reg2 R.EST_GAIN.GAIN d none,
   .reg2 R.EST_OFS.OFS d none,
   .reg2 R.EST_OUT.I d none,
   .row Cell.est d,
   .prt .estp]

theorem foot_modelOutputs {pr : Print} {z s : State} {d : Nat} {tc : Int} {tm : Int} {vc : Nat} {vm : Nat} {vl : Nat} {o_d : Option Nat} (n_d : Names o_d d) (hP : (fp_modelOutputs o_d).Sub pr) (hk : Within pr z s) :
    Within pr z (modelOutputs d tc tm vc vm vl s) := by
  simp only [fp_modelOutputs, Print.join_cons, Print.join_nil, and_true] at hP
  obtain ⟨e0, e1, e2, e3, e4, e5, e6⟩ := hP
  unfold modelOutputs
  iterate 40 (try any_goals first | with_reducible assumption | exact Print.has_reg2 n_d Names.any e0 | exact Print.has_reg2 n_d Names.any e1 | exact Print.has_reg2 n_d Names.any e2 | exact Print.has_reg2 n_d Names.any e3 | exact Print.has_reg2 n_d Names.any e4 | with_reducible refine Within.setEst _ (Print.has_row rfl n_d e5) ?_ | exact Print.has_prt e6 | with_reducible apply Print.has_ite | with_reducible refine Within.put _ ?_ ?_ | with_reducible refine Within.putI _ ?_ ?_ | with_reducible refine Within.each ?_ ?_ | exact Or.inr (Print.has_prt (by assumption)) | with_reducible exact Or.inl rfl | intro _ | (dsimp only) | split | with_reducible apply Within.upd)

def fp_measuredOutputs (d : Option Nat) : Print := .join
  [.reg2 R.EST_OUT.I d (some 0),
   .reg2 R.EST_OUT.I d (some 1),
   .reg2 R.EST_OUT.I d (some 2),
   .reg2 R.EST_OUT.I d (some 3),
   fp_spoilTrim d]

theorem foot_measuredOutputs {pr : Print} {z s : State} {d : Nat} {o_d : Option Nat} (n_d : Names o_d d) (hP : (fp_measuredOutputs o_d).Sub pr) (hk : Within pr z s) :
    Within pr z (measuredOutputs d s) := by
  simp only [fp_measuredOutputs, Print.join_cons, Print.join_nil, and_true] at hP
  obtain ⟨e0, e1, e2, e3, e4⟩ := hP
  unfold measuredOutputs
  iterate 40 (try any_goals first | with_reducible assumption | exact Print.has_reg2 n_d Names.one e0 | exact Print.has_reg2 n_d Names.one e1 | exact Print.has_reg2 n_d Names.one e2 | exact Print.has_reg2 n_d Names.one e3 | with_reducible apply Print.has_ite | with_reducible refine Within.putI _ ?_ ?_ | with_reducible refine foot_spoilTrim n_d e4 ?_ | with_reducible refine Within.when ?_ ?_ | intro _ | (dsimp only))

def fp_activate (d : Option Nat) : Print := .join
  [.row Cell.est d,
   .reg1 R.EST_DIE_MODEL.ID d,
   .reg1 R.EST_DIE_MVER.VER d,
   .reg1 R.EST_DIE_SIZE.N_IN d,
   .reg1 R.EST_DIE_SIZE.N_HID d,
   .reg1 R.EST_DIE_SIZE.N_OUT d]

theorem foot_activate {pr : Print} {z s : State} {d : Nat} {o_d : Option Nat} (n_d : Names o_d d) (hP : (fp_activate o_d).Sub pr) (hk : Within pr z s) :
    Within pr z (activate d s) := by
  simp only [fp_activate, Print.join_cons, Print.join_nil, and_true] at hP
  obtain ⟨e0, e1, e2, e3, e4, e5⟩ := hP
  unfold activate
  iterate 40 (try any_goals first | with_reducible assumption | with_reducible refine Within.setEst _ (Print.has_row rfl n_d e0) ?_ | exact Print.has_reg1 n_d e1 | exact Print.has_reg1 n_d e2 | exact Print.has_reg1 n_d e3 | exact Print.has_reg1 n_d e4 | exact Print.has_reg1 n_d e5 | with_reducible apply Print.has_ite | with_reducible refine Within.put _ ?_ ?_ | exact Or.inr (Print.has_prt (by assumption)) | with_reducible exact Or.inl rfl | (dsimp only) | with_reducible apply Within.upd)

def fp_activateLink : Print := .join
  [fp_setLinkPair]

theorem foot_activateLink {pr : Print} {z s : State} {d : Nat} (hP : fp_activateLink.Sub pr) (hk : Within pr z s) :
    Within pr z (activateLink d s) := by
  simp only [fp_activateLink, Print.join_cons, Print.join_nil, and_true] at hP
  have e0 := hP
  unfold activateLink
  iterate 40 (try any_goals first | with_reducible assumption | with_reducible refine foot_setLinkPair e0 ?_ | (dsimp only))

def fp_setLinkOld : Print := .join
  [.prt .estp]

theorem foot_setLinkOld {pr : Print} {z s : State} {old : Option (Nat × Int)} (hP : fp_setLinkOld.Sub pr) (hk : Within pr z s) :
    Within pr z (setLinkOld old s) := by
  simp only [fp_setLinkOld, Print.join_cons, Print.join_nil, and_true] at hP
  have e0 := hP
  unfold setLinkOld
  iterate 40 (try any_goals first | with_reducible assumption | exact Print.has_prt e0 | exact Or.inr (Print.has_prt (by assumption)) | with_reducible exact Or.inl rfl | with_reducible apply Within.upd)

def fp_takeTurn (d : Option Nat) : Print := .join
  [.row Cell.est d,
   fp_activate d,
   fp_setLinkOld]

theorem foot_takeTurn {pr : Print} {z s : State} {d : Nat} {o_d : Option Nat} (n_d : Names o_d d) (hP : (fp_takeTurn o_d).Sub pr) (hk : Within pr z s) :
    Within pr z (takeTurn d s) := by
  simp only [fp_takeTurn, Print.join_cons, Print.join_nil, and_true] at hP
  obtain ⟨e0, e1, e2⟩ := hP
  unfold takeTurn
  iterate 40 (try any_goals first | with_reducible assumption | with_reducible refine Within.setEst _ (Print.has_row rfl n_d e0) ?_ | with_reducible refine foot_activate n_d e1 ?_ | with_reducible refine foot_setLinkOld e2 ?_ | exact Or.inr (Print.has_prt (by assumption)) | with_reducible exact Or.inl rfl | intro _ | (dsimp only) | split | with_reducible apply Within.upd)

def fp_nextDue (d : Option Nat) : Print := .join
  [.row Cell.est d]

theorem foot_nextDue {pr : Print} {z s : State} {d : Nat} {o_d : Option Nat} (n_d : Names o_d d) (hP : (fp_nextDue o_d).Sub pr) (hk : Within pr z s) :
    Within pr z (nextDue d s) := by
  simp only [fp_nextDue, Print.join_cons, Print.join_nil, and_true] at hP
  have e0 := hP
  unfold nextDue
  iterate 40 (try any_goals first | with_reducible assumption | with_reducible refine Within.setEst _ (Print.has_row rfl n_d e0) ?_ | exact Or.inr (Print.has_prt (by assumption)) | with_reducible exact Or.inl rfl | (dsimp only) | with_reducible apply Within.upd)

def fp_countLink : Print := .join
  [.prt .estp]

theorem foot_countLink {pr : Print} {z s : State} (hP : fp_countLink.Sub pr) (hk : Within pr z s) :
    Within pr z (countLink s) := by
  simp only [fp_countLink, Print.join_cons, Print.join_nil, and_true] at hP
  have e0 := hP
  unfold countLink
  iterate 40 (try any_goals first | with_reducible assumption | exact Print.has_prt e0 | exact Or.inr (Print.has_prt (by assumption)) | with_reducible exact Or.inl rfl | intro _ | (dsimp only) | split | with_reducible apply Within.upd)

def fp_showTrim (d : Option Nat) : Print := .join
  [.reg1 R.EST_DIE_CNT.SKIP d,
   .reg1 R.EST_DIE_STAT.TRIM_HOLD d,
   .row Cell.est d]

theorem foot_showTrim {pr : Print} {z s : State} {d : Nat} {o_d : Option Nat} (n_d : Names o_d d) (hP : (fp_showTrim o_d).Sub pr) (hk : Within pr z s) :
    Within pr z (showTrim d s) := by
  simp only [fp_showTrim, Print.join_cons, Print.join_nil, and_true] at hP
  obtain ⟨e0, e1, e2⟩ := hP
  unfold showTrim
  iterate 40 (try any_goals first | with_reducible assumption | exact Print.has_reg1 n_d e0 | exact Print.has_reg1 n_d e1 | with_reducible refine Within.setEst _ (Print.has_row rfl n_d e2) ?_ | with_reducible apply Print.has_ite | with_reducible refine Within.putB _ ?_ ?_ | with_reducible refine Within.addSat _ ?_ ?_ | exact Or.inr (Print.has_prt (by assumption)) | with_reducible exact Or.inl rfl | (dsimp only) | with_reducible apply Within.upd)

def fp_publishEstimate (d : Option Nat) : Print := .join
  [.reg1 R.EST_DIE_STAT.SUBST d,
   .reg1 R.EST_DIE_TIN.TCORE d,
   .reg1 R.EST_DIE_TIN.TMEM d,
   .reg1 R.EST_DIE_VIN.VCORE d,
   .reg1 R.EST_DIE_VIN.VMEM d,
   .reg1 R.EST_DIE_VIN2.VLINK d,
   .reg1 R.EST_DIE_TS.TIME d,
   .reg1 R.EST_DIE_STAT.PREV_VALID d,
   fp_judgeFrame d,
   fp_measuredOutputs d,
   fp_modelOutputs d,
   fp_showTrim d,
   fp_nextDue d]

theorem foot_publishEstimate {pr : Print} {z s : State} {d : Nat} {o_d : Option Nat} (n_d : Names o_d d) (hP : (fp_publishEstimate o_d).Sub pr) (hk : Within pr z s) :
    Within pr z (publishEstimate d s) := by
  simp only [fp_publishEstimate, Print.join_cons, Print.join_nil, and_true] at hP
  obtain ⟨e0, e1, e2, e3, e4, e5, e6, hP⟩ := hP
  obtain ⟨e7, e8, e9, e10, e11, e12⟩ := hP
  unfold publishEstimate
  iterate 40 (try any_goals first | with_reducible assumption | exact Print.has_reg1 n_d e0 | exact Print.has_reg1 n_d e1 | exact Print.has_reg1 n_d e2 | exact Print.has_reg1 n_d e3 | exact Print.has_reg1 n_d e4 | exact Print.has_reg1 n_d e5 | exact Print.has_reg1 n_d e6 | exact Print.has_reg1 n_d e7 | with_reducible apply Print.has_ite | with_reducible refine Within.put _ ?_ ?_ | with_reducible refine Within.putI _ ?_ ?_ | with_reducible refine Within.putB _ ?_ ?_ | with_reducible refine foot_judgeFrame n_d e8 ?_ | with_reducible refine foot_measuredOutputs n_d e9 ?_ | with_reducible refine foot_modelOutputs n_d e10 ?_ | with_reducible refine foot_showTrim n_d e11 ?_ | with_reducible refine foot_nextDue n_d e12 ?_ | (dsimp only) | split)

def fp_effSecondStage : Print := .join
  [fp_takeTurn none,
   fp_publishEstimate none,
   fp_countLink,
   fp_powerCycle]

theorem foot_effSecondStage {pr : Print} {z s : State} (hP : fp_effSecondStage.Sub pr) (hk : Within pr z s) :
    Within pr z (effSecondStage s) := by
  simp only [fp_effSecondStage, Print.join_cons, Print.join_nil, and_true] at hP
  obtain ⟨e0, e1, e2, e3⟩ := hP
  unfold effSecondStage
  iterate 40 (try any_goals first | with_reducible assumption | with_reducible refine foot_takeTurn Names.any e0 ?_ | with_reducible refine foot_publishEstimate Names.any e1 ?_ | with_reducible refine foot_countLink e2 ?_ | with_reducible refine foot_powerCycle e3 ?_ | with_reducible refine Within.each ?_ ?_ | intro _ | (dsimp only) | split)

def fp_execSecondStage : Print := .join
  [fp_finish,
   fp_effSecondStage]

theorem foot_execSecondStage {pr : Print} {z s t : State} (hP : fp_execSecondStage.Sub pr) (hk : Within pr z s)
    (h : execSecondStage s = .next t) : Within pr z t := by
  simp only [fp_execSecondStage, Print.join_cons, Print.join_nil, and_true] at hP
  obtain ⟨e0, e1⟩ := hP
  unfold execSecondStage done at h
  injection h with h
  subst h
  iterate 40 (try any_goals first | with_reducible assumption | with_reducible refine foot_finish e0 ?_ | with_reducible refine foot_effSecondStage e1 ?_)

def fp_trimEvents : Print := .join
  [.reg R.EST_EVENT]

theorem foot_trimEvents {pr : Print} {z s : State} {clamped : Bool} {reset : Bool} (hP : fp_trimEvents.Sub pr) (hk : Within pr z s) :
    Within pr z (trimEvents clamped reset s) := by
  simp only [fp_trimEvents, Print.join_cons, Print.join_nil, and_true] at hP
  have e0 := hP
  unfold trimEvents
  iterate 40 (try any_goals first | with_reducible assumption | exact Print.has_reg e0 | with_reducible apply Print.has_ite | with_reducible refine Within.event _ ?_ ?_ | with_reducible refine Within.when ?_ ?_ | intro _ | (dsimp only))

def fp_trimDie (d : Option Nat) : Print := .join
  [.row Cell.est d,
   fp_trimEvents]

theorem foot_trimDie {pr : Print} {z s : State} {d : Nat} {o_d : Option Nat} (n_d : Names o_d d) (hP : (fp_trimDie o_d).Sub pr) (hk : Within pr z s) :
    Within pr z (trimDie d s) := by
  simp only [fp_trimDie, Print.join_cons, Print.join_nil, and_true] at hP
  obtain ⟨e0, e1⟩ := hP
  unfold trimDie
  iterate 40 (try any_goals first | with_reducible assumption | with_reducible refine Within.setEst _ (Print.has_row rfl n_d e0) ?_ | with_reducible refine foot_trimEvents e1 ?_ | exact Or.inr (Print.has_prt (by assumption)) | with_reducible exact Or.inl rfl | intro _ | (dsimp only) | split | with_reducible apply Within.upd)

def fp_effTrimUpdate : Print := .join
  [.reg R.EST_LINK_TRIM.SKIP,
   fp_trimDie none,
   fp_setLinkPair,
   fp_trimEvents]

theorem foot_effTrimUpdate {pr : Print} {z s : State} (hP : fp_effTrimUpdate.Sub pr) (hk : Within pr z s) :
    Within pr z (effTrimUpdate s) := by
  simp only [fp_effTrimUpdate, Print.join_cons, Print.join_nil, and_true] at hP
  obtain ⟨e0, e1, e2, e3⟩ := hP
  unfold effTrimUpdate
  iterate 40 (try any_goals first | with_reducible assumption | exact Print.has_reg e0 | with_reducible apply Print.has_ite | with_reducible refine Within.addSat _ ?_ ?_ | with_reducible refine foot_trimDie Names.any e1 ?_ | with_reducible refine foot_setLinkPair e2 ?_ | with_reducible refine foot_trimEvents e3 ?_ | with_reducible refine Within.each ?_ ?_ | intro _ | (dsimp only) | split)

def fp_execTrimUpdate : Print := .join
  [fp_finish,
   fp_effTrimUpdate]

theorem foot_execTrimUpdate {pr : Print} {z s t : State} (hP : fp_execTrimUpdate.Sub pr) (hk : Within pr z s)
    (h : execTrimUpdate s = .next t) : Within pr z t := by
  simp only [fp_execTrimUpdate, Print.join_cons, Print.join_nil, and_true] at hP
  obtain ⟨e0, e1⟩ := hP
  unfold execTrimUpdate done at h
  injection h with h
  subst h
  iterate 40 (try any_goals first | with_reducible assumption | with_reducible refine foot_finish e0 ?_ | with_reducible refine foot_effTrimUpdate e1 ?_)

def fp_releaseStage : Print := .join
  [.reg R.EST_STAGE.OPEN,
   .reg R.EST_STAGE.OWNER,
   .reg R.EST_STAGE.LEN]

theorem foot_releaseStage {pr : Print} {z s : State} (hP : fp_releaseStage.Sub pr) (hk : Within pr z s) :
    Within pr z (releaseStage s) := by
  simp only [fp_releaseStage, Print.join_cons, Print.join_nil, and_true] at hP
  obtain ⟨e0, e1, e2⟩ := hP
  unfold releaseStage
  iterate 40 (try any_goals first | with_reducible assumption | exact Print.has_reg e0 | exact Print.has_reg e1 | exact Print.has_reg e2 | with_reducible apply Print.has_ite | with_reducible refine Within.put _ ?_ ?_ | (dsimp only))

def fp_writeBank (d : Option Nat) : Print := .join
  [.row Cell.est d,
   fp_sendDown d]

theorem foot_writeBank {pr : Print} {z s : State} {pkg : List Nat} {d : Nat} {o_d : Option Nat} (n_d : Names o_d d) (hP : (fp_writeBank o_d).Sub pr) (hk : Within pr z s) :
    Within pr z (writeBank pkg d s) := by
  simp only [fp_writeBank, Print.join_cons, Print.join_nil, and_true] at hP
  obtain ⟨e0, e1⟩ := hP
  unfold writeBank
  iterate 40 (try any_goals first | with_reducible assumption | with_reducible refine Within.setEst _ (Print.has_row rfl n_d e0) ?_ | with_reducible refine foot_sendDown n_d e1 ?_ | exact Or.inr (Print.has_prt (by assumption)) | with_reducible exact Or.inl rfl | (dsimp only) | with_reducible apply Within.upd)

def fp_sealBank (d : Option Nat) : Print := .join
  [.row Cell.est d]

theorem foot_sealBank {pr : Print} {z s : State} {d : Nat} {o_d : Option Nat} (n_d : Names o_d d) (hP : (fp_sealBank o_d).Sub pr) (hk : Within pr z s) :
    Within pr z (sealBank d s) := by
  simp only [fp_sealBank, Print.join_cons, Print.join_nil, and_true] at hP
  have e0 := hP
  unfold sealBank
  iterate 40 (try any_goals first | with_reducible assumption | with_reducible refine Within.setEst _ (Print.has_row rfl n_d e0) ?_ | exact Or.inr (Print.has_prt (by assumption)) | with_reducible exact Or.inl rfl | (dsimp only) | with_reducible apply Within.upd)

def fp_switchDie (d : Option Nat) : Print := .join
  [.row Cell.est d,
   .reg1 R.EST_DIE_STAT.ACTIVE d,
   .reg1 R.EST_DIE_STAT.PREV_VALID d]

theorem foot_switchDie {pr : Print} {z s : State} {d : Nat} {o_d : Option Nat} (n_d : Names o_d d) (hP : (fp_switchDie o_d).Sub pr) (hk : Within pr z s) :
    Within pr z (switchDie d s) := by
  simp only [fp_switchDie, Print.join_cons, Print.join_nil, and_true] at hP
  obtain ⟨e0, e1, e2⟩ := hP
  unfold switchDie
  iterate 40 (try any_goals first | with_reducible assumption | with_reducible refine Within.setEst _ (Print.has_row rfl n_d e0) ?_ | exact Print.has_reg1 n_d e1 | exact Print.has_reg1 n_d e2 | with_reducible apply Print.has_ite | with_reducible refine Within.put _ ?_ ?_ | with_reducible refine Within.putB _ ?_ ?_ | exact Or.inr (Print.has_prt (by assumption)) | with_reducible exact Or.inl rfl | (dsimp only) | split | with_reducible apply Within.upd)

def fp_switchLink : Print := .join
  [.prt .estp,
   fp_activateLink,
   fp_setLinkOld]

theorem foot_switchLink {pr : Print} {z s : State} {ds : List Nat} {first : Bool} (hP : fp_switchLink.Sub pr) (hk : Within pr z s) :
    Within pr z (switchLink ds first s) := by
  simp only [fp_switchLink, Print.join_cons, Print.join_nil, and_true] at hP
  obtain ⟨e0, e1, e2⟩ := hP
  unfold switchLink
  iterate 40 (try any_goals first | with_reducible assumption | exact Print.has_prt e0 | with_reducible refine foot_activateLink e1 ?_ | with_reducible refine foot_setLinkOld e2 ?_ | exact Or.inr (Print.has_prt (by assumption)) | with_reducible exact Or.inl rfl | intro _ | (dsimp only) | split | with_reducible apply Within.upd)

def fp_effModelSwitch : Print := .join
  [.reg R.EST_EVENT,
   .reg R.EST_LOAD_STAT.STATUS,
   .reg R.EST_LOAD_STAT.DETAIL,
   .prt .estp,
   fp_sealBank none,
   fp_switchDie none,
   fp_switchLink,
   fp_bumpGen,
   fp_releaseStage,
   fp_completeAt]

theorem foot_effModelSwitch {pr : Print} {z s : State} (hP : fp_effModelSwitch.Sub pr) (hk : Within pr z s) :
    Within pr z (effModelSwitch s) := by
  simp only [fp_effModelSwitch, Print.join_cons, Print.join_nil, and_true] at hP
  obtain ⟨e0, e1, e2, e3, e4, e5, e6, hP⟩ := hP
  obtain ⟨e7, e8, e9⟩ := hP
  unfold effModelSwitch
  iterate 40 (try any_goals first | with_reducible assumption | exact Print.has_reg e0 | exact Print.has_reg e1 | exact Print.has_reg e2 | exact Print.has_prt e3 | with_reducible apply Print.has_ite | with_reducible refine Within.put _ ?_ ?_ | with_reducible refine Within.event _ ?_ ?_ | with_reducible refine foot_sealBank Names.any e4 ?_ | with_reducible refine foot_switchDie Names.any e5 ?_ | with_reducible refine foot_switchLink e6 ?_ | with_reducible refine foot_bumpGen e7 ?_ | with_reducible refine foot_releaseStage e8 ?_ | with_reducible refine foot_completeAt e9 ?_ | with_reducible refine Within.each ?_ ?_ | with_reducible refine Within.when ?_ ?_ | exact Or.inr (Print.has_prt (by assumption)) | with_reducible exact Or.inl rfl | intro _ | (dsimp only) | split | with_reducible apply Within.upd)

def fp_execModelSwitch : Print := .join
  [fp_finish,
   fp_effModelSwitch]

theorem foot_execModelSwitch {pr : Print} {z s t : State} (hP : fp_execModelSwitch.Sub pr) (hk : Within pr z s)
    (h : execModelSwitch s = .next t) : Within pr z t := by
  simp only [fp_execModelSwitch, Print.join_cons, Print.join_nil, and_true] at hP
  obtain ⟨e0, e1⟩ := hP
  unfold execModelSwitch done at h
  injection h with h
  subst h
  iterate 40 (try any_goals first | with_reducible assumption | with_reducible refine foot_finish e0 ?_ | with_reducible refine foot_effModelSwitch e1 ?_)

def fp_abortLoad : Print := .join
  [.reg R.EST_EVENT,
   .reg R.EST_LOAD_STAT.STATUS,
   .reg R.EST_LOAD_STAT.DETAIL,
   .prt .estp,
   fp_completeAt]

theorem foot_abortLoad {pr : Print} {z s : State} {d : Nat} (hP : fp_abortLoad.Sub pr) (hk : Within pr z s) :
    Within pr z (abortLoad d s) := by
  simp only [fp_abortLoad, Print.join_cons, Print.join_nil, and_true] at hP
  obtain ⟨e0, e1, e2, e3, e4⟩ := hP
  unfold abortLoad
  iterate 40 (try any_goals first | with_reducible assumption | exact Print.has_reg e0 | exact Print.has_reg e1 | exact Print.has_reg e2 | exact Print.has_prt e3 | with_reducible apply Print.has_ite | with_reducible refine Within.put _ ?_ ?_ | with_reducible refine Within.event _ ?_ ?_ | with_reducible refine foot_completeAt e4 ?_ | exact Or.inr (Print.has_prt (by assumption)) | with_reducible exact Or.inl rfl | (dsimp only) | split | with_reducible apply Within.upd)

def fp_touchStage : Print := .join
  [.prt .estp]

theorem foot_touchStage {pr : Print} {z s : State} (hP : fp_touchStage.Sub pr) (hk : Within pr z s) :
    Within pr z (touchStage s) := by
  simp only [fp_touchStage, Print.join_cons, Print.join_nil, and_true] at hP
  have e0 := hP
  unfold touchStage
  iterate 40 (try any_goals first | with_reducible assumption | exact Print.has_prt e0 | exact Or.inr (Print.has_prt (by assumption)) | with_reducible exact Or.inl rfl | with_reducible apply Within.upd)

def fp_execStageTimeout : Print := .join
  [.reg R.EST_EVENT,
   fp_finish,
   fp_releaseStage]

theorem foot_execStageTimeout {pr : Print} {z s t : State} (hP : fp_execStageTimeout.Sub pr) (hk : Within pr z s)
    (h : execStageTimeout s = .next t) : Within pr z t := by
  simp only [fp_execStageTimeout, Print.join_cons, Print.join_nil, and_true] at hP
  obtain ⟨e0, e1, e2⟩ := hP
  unfold execStageTimeout done at h
  injection h with h
  subst h
  iterate 40 (try any_goals first | with_reducible assumption | exact Print.has_reg e0 | with_reducible apply Print.has_ite | with_reducible refine Within.event _ ?_ ?_ | with_reducible refine foot_finish e1 ?_ | with_reducible refine foot_releaseStage e2 ?_ | (dsimp only) | split)

def fp_execModelOpen : Print := .join
  [.prt .mem,
   .prt .cq,
   .reg R.EST_STAGE.OPEN,
   .reg R.EST_STAGE.OWNER,
   .reg R.EST_STAGE.LEN,
   fp_finish,
   fp_command,
   fp_touchStage,
   fp_complete]

theorem foot_execModelOpen {pr : Print} {z s t : State} {port : Nat} {tag : Nat} (hP : fp_execModelOpen.Sub pr) (hk : Within pr z s)
    (h : execModelOpen port tag s = .next t) : Within pr z t := by
  simp only [fp_execModelOpen, Print.join_cons, Print.join_nil, and_true] at hP
  obtain ⟨e0, e1, e2, e3, e4, e5, e6, hP⟩ := hP
  obtain ⟨e7, e8⟩ := hP
  unfold execModelOpen done at h
  injection h with h
  subst h
  iterate 40 (try any_goals first | with_reducible assumption | exact Print.has_prt e0 | exact Print.has_prt e1 | exact Print.has_reg e2 | exact Print.has_reg e3 | exact Print.has_reg e4 | with_reducible apply Print.has_ite | with_reducible refine Within.put _ ?_ ?_ | with_reducible refine Within.wipe _ _ ?_ ?_ ?_ | with_reducible refine foot_finish e5 ?_ | with_reducible refine foot_command e6 ?_ ?_ | with_reducible refine foot_touchStage e7 ?_ | with_reducible refine foot_complete e8 ?_ | intro _ | (dsimp only))

def fp_writeWords : Print := .join
  [.prt .mem,
   .prt .cq]

theorem foot_writeWords {p : Print} {z s : State} {a : Nat} {l : List Nat} (hP : fp_writeWords.Sub p) (hk : Within p z s) :
    Within p z (writeWords a l s) := by
  induction l generalizing s a with
  | nil => exact hk
  | cons w t ih =>
    have e := hP
    simp only [fp_writeWords, Print.join_cons, Print.join_nil, and_true] at e
    exact ih (Within.writeWord32 _ _ (Print.has_prt e.1) (Print.has_prt e.2) hk)

def fp_execModelWrite : Print := .join
  [fp_finish,
   fp_command,
   fp_touchStage,
   fp_complete,
   fp_writeWords]

theorem foot_execModelWrite {pr : Print} {z s t : State} {port : Nat} {tag : Nat} (hP : fp_execModelWrite.Sub pr) (hk : Within pr z s)
    (h : execModelWrite port tag s = .next t) : Within pr z t := by
  simp only [fp_execModelWrite, Print.join_cons, Print.join_nil, and_true] at hP
  obtain ⟨e0, e1, e2, e3, e4⟩ := hP
  unfold execModelWrite done at h
  injection h with h
  subst h
  iterate 40 (try any_goals first | with_reducible assumption | with_reducible refine foot_finish e0 ?_ | with_reducible refine foot_command e1 ?_ ?_ | with_reducible refine foot_touchStage e2 ?_ | with_reducible refine foot_complete e3 ?_ | with_reducible refine foot_writeWords e4 ?_ | with_reducible refine Within.when ?_ ?_ | intro _ | (dsimp only) | split)

def fp_failLoad : Print := .join
  [.reg R.EST_LOAD_STAT.STATUS,
   .reg R.EST_LOAD_STAT.DETAIL,
   .reg R.EST_EVENT,
   fp_complete]

theorem foot_failLoad {pr : Print} {z s : State} {fl : Flight} {st : Nat} {detail : Nat} (hP : fp_failLoad.Sub pr) (hk : Within pr z s) :
    Within pr z (failLoad fl st detail s) := by
  simp only [fp_failLoad, Print.join_cons, Print.join_nil, and_true] at hP
  obtain ⟨e0, e1, e2, e3⟩ := hP
  unfold failLoad
  iterate 40 (try any_goals first | with_reducible assumption | exact Print.has_reg e0 | exact Print.has_reg e1 | exact Print.has_reg e2 | with_reducible apply Print.has_ite | with_reducible refine Within.put _ ?_ ?_ | with_reducible refine Within.event _ ?_ ?_ | with_reducible refine foot_complete e3 ?_ | (dsimp only))

def fp_execModelLoad : Print := .join
  [.prt .estp,
   fp_finish,
   fp_command,
   fp_touchStage,
   fp_failLoad,
   fp_writeBank none,
   fp_markStarted]

theorem foot_execModelLoad {pr : Print} {z s t : State} {port : Nat} {tag : Nat} (hP : fp_execModelLoad.Sub pr) (hk : Within pr z s)
    (h : execModelLoad port tag s = .next t) : Within pr z t := by
  simp only [fp_execModelLoad, Print.join_cons, Print.join_nil, and_true] at hP
  obtain ⟨e0, e1, e2, e3, e4, e5, e6⟩ := hP
  unfold execModelLoad done at h
  injection h with h
  subst h
  iterate 40 (try any_goals first | with_reducible assumption | exact Print.has_prt e0 | with_reducible refine foot_finish e1 ?_ | with_reducible refine foot_command e2 ?_ ?_ | with_reducible refine foot_touchStage e3 ?_ | with_reducible refine foot_failLoad e4 ?_ | with_reducible refine foot_writeBank Names.any e5 ?_ | with_reducible refine foot_markStarted e6 ?_ | with_reducible refine Within.each ?_ ?_ | with_reducible refine Within.when ?_ ?_ | exact Or.inr (Print.has_prt (by assumption)) | with_reducible exact Or.inl rfl | intro _ | (dsimp only) | split | with_reducible apply Within.upd)

def fp_execModelClose : Print := .join
  [fp_finish,
   fp_command,
   fp_releaseStage,
   fp_complete]

theorem foot_execModelClose {pr : Print} {z s t : State} {port : Nat} {tag : Nat} (hP : fp_execModelClose.Sub pr) (hk : Within pr z s)
    (h : execModelClose port tag s = .next t) : Within pr z t := by
  simp only [fp_execModelClose, Print.join_cons, Print.join_nil, and_true] at hP
  obtain ⟨e0, e1, e2, e3⟩ := hP
  unfold execModelClose done at h
  injection h with h
  subst h
  iterate 40 (try any_goals first | with_reducible assumption | with_reducible refine foot_finish e0 ?_ | with_reducible refine foot_command e1 ?_ ?_ | with_reducible refine foot_releaseStage e2 ?_ | with_reducible refine foot_complete e3 ?_ | intro _ | (dsimp only))

def fp_execModelRevert : Print := .join
  [.prt .estp,
   fp_finish,
   fp_command,
   fp_markStarted]

theorem foot_execModelRevert {pr : Print} {z s t : State} {port : Nat} {tag : Nat} (hP : fp_execModelRevert.Sub pr) (hk : Within pr z s)
    (h : execModelRevert port tag s = .next t) : Within pr z t := by
  simp only [fp_execModelRevert, Print.join_cons, Print.join_nil, and_true] at hP
  obtain ⟨e0, e1, e2, e3⟩ := hP
  unfold execModelRevert done at h
  injection h with h
  subst h
  iterate 40 (try any_goals first | with_reducible assumption | exact Print.has_prt e0 | with_reducible refine foot_finish e1 ?_ | with_reducible refine foot_command e2 ?_ ?_ | with_reducible refine foot_markStarted e3 ?_ | exact Or.inr (Print.has_prt (by assumption)) | with_reducible exact Or.inl rfl | intro _ | (dsimp only) | with_reducible apply Within.upd)

def fp_execTrimReset : Print := .join
  [.row Cell.est none,
   fp_finish,
   fp_command,
   fp_activateLink,
   fp_setLinkOld,
   fp_complete]

theorem foot_execTrimReset {pr : Print} {z s t : State} {port : Nat} {tag : Nat} (hP : fp_execTrimReset.Sub pr) (hk : Within pr z s)
    (h : execTrimReset port tag s = .next t) : Within pr z t := by
  simp only [fp_execTrimReset, Print.join_cons, Print.join_nil, and_true] at hP
  obtain ⟨e0, e1, e2, e3, e4, e5⟩ := hP
  unfold execTrimReset done at h
  injection h with h
  subst h
  iterate 40 (try any_goals first | with_reducible assumption | with_reducible refine Within.setEst _ (Print.has_row rfl Names.any e0) ?_ | with_reducible refine foot_finish e1 ?_ | with_reducible refine foot_command e2 ?_ ?_ | with_reducible refine foot_activateLink e3 ?_ | with_reducible refine foot_setLinkOld e4 ?_ | with_reducible refine foot_complete e5 ?_ | with_reducible refine Within.each ?_ ?_ | with_reducible refine Within.when ?_ ?_ | exact Or.inr (Print.has_prt (by assumption)) | with_reducible exact Or.inl rfl | intro _ | (dsimp only) | split | with_reducible apply Within.upd)

end Sys2Proof.Machine
end

