-- ==== Sys2Proof/Laws/FootC.lean ====
section
/-! SUPPORT. Sys2Proof/Laws/FootC.lean: the footprint of each operation and each meaning of Intent.lean, Tokens.lean, Caps.lean, Links.lean, Boot.lean, Access.lean, Startup.lean, Tick.lean: what it may change
(`Within`), one lemma each. -/

set_option linter.unusedTactic false
set_option linter.unreachableTactic false

namespace Sys2Proof.Machine

def fp_forwardPacket (d : Option Nat) : Print := .join
  [fp_sendMsg d]

theorem foot_forwardPacket {pr : Print} {z s : State} {d : Nat} {slot : Nat} {word : Nat} {o_d : Option Nat} (n_d : Names o_d d) (hP : (fp_forwardPacket o_d).Sub pr) (hk : Within pr z s) :
    Within pr z (forwardPacket d slot word s) := by
  simp only [fp_forwardPacket, Print.join_cons, Print.join_nil, and_true] at hP
  have e0 := hP
  unfold forwardPacket
  iterate 40 (try any_goals first | with_reducible assumption | with_reducible refine foot_sendMsg n_d e0 ?_)

def fp_effIntentPacket (d : Option Nat) : Print := .join
  [.row Cell.link d,
   .reg1 R.ITN_DIE_CNT.BAD d,
   .reg R.ITN_EVENT,
   .reg1 R.ITN_DIE_CNT2.SRC_OFF d,
   .reg1 R.ITN_DIE_CNT2.OVERFLOW d,
   .row Cell.itn d,
   .reg1 R.ITN_DIE_CNT.ACCEPTED d,
   fp_forwardPacket d]

theorem foot_effIntentPacket {pr : Print} {z s : State} {d : Nat} {word : Nat} {o_d : Option Nat} (n_d : Names o_d d) (hP : (fp_effIntentPacket o_d).Sub pr) (hk : Within pr z s) :
    Within pr z (effIntentPacket d word s) := by
  simp only [fp_effIntentPacket, Print.join_cons, Print.join_nil, and_true] at hP
  obtain ⟨e0, e1, e2, e3, e4, e5, e6, e7⟩ := hP
  unfold effIntentPacket
  iterate 40 (try any_goals first | with_reducible assumption | with_reducible refine Within.setLink _ (Print.has_row rfl n_d e0) ?_ | exact Print.has_reg1 n_d e1 | exact Print.has_reg e2 | exact Print.has_reg1 n_d e3 | exact Print.has_reg1 n_d e4 | with_reducible refine Within.setItn _ (Print.has_row rfl n_d e5) ?_ | exact Print.has_reg1 n_d e6 | with_reducible apply Print.has_ite | with_reducible refine Within.event _ ?_ ?_ | with_reducible refine Within.agentAdd ?_ ?_ ?_ | exact Print.has_row rfl n_d e0 | with_reducible refine Within.heard ?_ ?_ | with_reducible refine foot_forwardPacket n_d e7 ?_ | exact Or.inr (Print.has_prt (by assumption)) | with_reducible exact Or.inl rfl | intro _ | (dsimp only) | split | with_reducible apply Within.upd)

def fp_execIntentPacket (die : Option Nat) : Print := .join
  [fp_finish,
   fp_effIntentPacket die]

theorem foot_execIntentPacket {pr : Print} {z s t : State} {die : Nat} {word : Nat} {o_die : Option Nat} (n_die : Names o_die die) (hP : (fp_execIntentPacket o_die).Sub pr) (hk : Within pr z s)
    (h : execIntentPacket die word s = .next t) : Within pr z t := by
  simp only [fp_execIntentPacket, Print.join_cons, Print.join_nil, and_true] at hP
  obtain ⟨e0, e1⟩ := hP
  unfold execIntentPacket done at h
  injection h with h
  subst h
  iterate 40 (try any_goals first | with_reducible assumption | with_reducible refine foot_finish e0 ?_ | with_reducible refine foot_effIntentPacket n_die e1 ?_)

def fp_takeIntent (d : Option Nat) : Print := .join
  [.row Cell.itn d]

theorem foot_takeIntent {pr : Print} {z s : State} {d : Nat} {slot : Nat} {word : Nat} {o_d : Option Nat} (n_d : Names o_d d) (hP : (fp_takeIntent o_d).Sub pr) (hk : Within pr z s) :
    Within pr z (takeIntent d slot word s) := by
  simp only [fp_takeIntent, Print.join_cons, Print.join_nil, and_true] at hP
  have e0 := hP
  unfold takeIntent
  iterate 40 (try any_goals first | with_reducible assumption | with_reducible refine Within.setItn _ (Print.has_row rfl n_d e0) ?_ | exact Or.inr (Print.has_prt (by assumption)) | with_reducible exact Or.inl rfl | (dsimp only) | split | with_reducible apply Within.upd)

def fp_execIntentFrame (die : Option Nat) : Print := .join
  [fp_finish,
   fp_acceptFrame die,
   fp_takeIntent die,
   fp_showEmpty die]

theorem foot_execIntentFrame {pr : Print} {z s t : State} {die : Nat} {lane : Nat} {bytes : List Nat} {slot : Nat} {o_die : Option Nat} (n_die : Names o_die die) (hP : (fp_execIntentFrame o_die).Sub pr) (hk : Within pr z s)
    (h : execIntentFrame die lane bytes slot s = .next t) : Within pr z t := by
  simp only [fp_execIntentFrame, Print.join_cons, Print.join_nil, and_true] at hP
  obtain ⟨e0, e1, e2, e3⟩ := hP
  unfold execIntentFrame done at h
  injection h with h
  subst h
  iterate 40 (try any_goals first | with_reducible assumption | with_reducible refine foot_finish e0 ?_ | with_reducible refine foot_acceptFrame n_die e1 ?_ ?_ | with_reducible refine foot_takeIntent n_die e2 ?_ | with_reducible refine foot_showEmpty n_die e3 ?_ | with_reducible refine Within.each ?_ ?_ | intro _ | (dsimp only))

def fp_effEntryExpire (d : Option Nat) : Print := .join
  [.row Cell.itn d,
   fp_showEmpty d]

theorem foot_effEntryExpire {pr : Print} {z s : State} {d : Nat} {src : Nat} {o_d : Option Nat} (n_d : Names o_d d) (hP : (fp_effEntryExpire o_d).Sub pr) (hk : Within pr z s) :
    Within pr z (effEntryExpire d src s) := by
  simp only [fp_effEntryExpire, Print.join_cons, Print.join_nil, and_true] at hP
  obtain ⟨e0, e1⟩ := hP
  unfold effEntryExpire
  iterate 40 (try any_goals first | with_reducible assumption | with_reducible refine Within.setItn _ (Print.has_row rfl n_d e0) ?_ | with_reducible refine foot_showEmpty n_d e1 ?_ | exact Or.inr (Print.has_prt (by assumption)) | with_reducible exact Or.inl rfl | (dsimp only) | split | with_reducible apply Within.upd)

def fp_execEntryExpire (die : Option Nat) : Print := .join
  [fp_finish,
   fp_effEntryExpire die]

theorem foot_execEntryExpire {pr : Print} {z s t : State} {die : Nat} {source : Nat} {o_die : Option Nat} (n_die : Names o_die die) (hP : (fp_execEntryExpire o_die).Sub pr) (hk : Within pr z s)
    (h : execEntryExpire die source s = .next t) : Within pr z t := by
  simp only [fp_execEntryExpire, Print.join_cons, Print.join_nil, and_true] at hP
  obtain ⟨e0, e1⟩ := hP
  unfold execEntryExpire done at h
  injection h with h
  subst h
  iterate 40 (try any_goals first | with_reducible assumption | with_reducible refine foot_finish e0 ?_ | with_reducible refine foot_effEntryExpire n_die e1 ?_)

def fp_dropAgent (d : Option Nat) : Print := .join
  [.row Cell.itn d]

theorem foot_dropAgent {pr : Print} {z s : State} {d : Nat} {src : Nat} {o_d : Option Nat} (n_d : Names o_d d) (hP : (fp_dropAgent o_d).Sub pr) (hk : Within pr z s) :
    Within pr z (dropAgent d src s) := by
  simp only [fp_dropAgent, Print.join_cons, Print.join_nil, and_true] at hP
  have e0 := hP
  unfold dropAgent
  iterate 40 (try any_goals first | with_reducible assumption | with_reducible refine Within.setItn _ (Print.has_row rfl n_d e0) ?_ | exact Or.inr (Print.has_prt (by assumption)) | with_reducible exact Or.inl rfl | with_reducible apply Within.upd)

def fp_dropCore (d : Option Nat) : Print := .join
  [.row Cell.itn d]

theorem foot_dropCore {pr : Print} {z s : State} {d : Nat} {src : Nat} {o_d : Option Nat} (n_d : Names o_d d) (hP : (fp_dropCore o_d).Sub pr) (hk : Within pr z s) :
    Within pr z (dropCore d src s) := by
  simp only [fp_dropCore, Print.join_cons, Print.join_nil, and_true] at hP
  have e0 := hP
  unfold dropCore
  iterate 40 (try any_goals first | with_reducible assumption | with_reducible refine Within.setItn _ (Print.has_row rfl n_d e0) ?_ | exact Or.inr (Print.has_prt (by assumption)) | with_reducible exact Or.inl rfl | with_reducible apply Within.upd)

def fp_leaveMismatch (d : Option Nat) : Print := .join
  [.reg1 R.ITN_DIE_STAT.MISMATCH d,
   .reg R.ITN_EVENT,
   fp_recordDie,
   fp_showEmpty d,
   fp_showReasons d]

theorem foot_leaveMismatch {pr : Print} {z s : State} {d : Nat} {o_d : Option Nat} (n_d : Names o_d d) (hP : (fp_leaveMismatch o_d).Sub pr) (hk : Within pr z s) :
    Within pr z (leaveMismatch d s) := by
  simp only [fp_leaveMismatch, Print.join_cons, Print.join_nil, and_true] at hP
  obtain ⟨e0, e1, e2, e3, e4⟩ := hP
  unfold leaveMismatch
  iterate 40 (try any_goals first | with_reducible assumption | exact Print.has_reg1 n_d e0 | exact Print.has_reg e1 | with_reducible apply Print.has_ite | with_reducible refine Within.put _ ?_ ?_ | with_reducible refine Within.event _ ?_ ?_ | with_reducible refine foot_recordDie e2 ?_ | with_reducible refine foot_showEmpty n_d e3 ?_ | with_reducible refine foot_showReasons n_d e4 ?_ | (dsimp only) | split)

def fp_effMismatchEnter (d : Option Nat) : Print := .join
  [.reg1 R.ITN_DIE_STAT.MISMATCH d,
   .reg R.ITN_EVENT,
   fp_recordDie,
   fp_showEmpty d,
   fp_showReasons d]

theorem foot_effMismatchEnter {pr : Print} {z s : State} {d : Nat} {o_d : Option Nat} (n_d : Names o_d d) (hP : (fp_effMismatchEnter o_d).Sub pr) (hk : Within pr z s) :
    Within pr z (effMismatchEnter d s) := by
  simp only [fp_effMismatchEnter, Print.join_cons, Print.join_nil, and_true] at hP
  obtain ⟨e0, e1, e2, e3, e4⟩ := hP
  unfold effMismatchEnter
  iterate 40 (try any_goals first | with_reducible assumption | exact Print.has_reg1 n_d e0 | exact Print.has_reg e1 | with_reducible apply Print.has_ite | with_reducible refine Within.put _ ?_ ?_ | with_reducible refine Within.event _ ?_ ?_ | with_reducible refine foot_recordDie e2 ?_ | with_reducible refine foot_showEmpty n_d e3 ?_ | with_reducible refine foot_showReasons n_d e4 ?_ | (dsimp only) | split)

def fp_execMismatchEnter (die : Option Nat) : Print := .join
  [fp_finish,
   fp_effMismatchEnter die]

theorem foot_execMismatchEnter {pr : Print} {z s t : State} {die : Nat} {o_die : Option Nat} (n_die : Names o_die die) (hP : (fp_execMismatchEnter o_die).Sub pr) (hk : Within pr z s)
    (h : execMismatchEnter die s = .next t) : Within pr z t := by
  simp only [fp_execMismatchEnter, Print.join_cons, Print.join_nil, and_true] at hP
  obtain ⟨e0, e1⟩ := hP
  unfold execMismatchEnter done at h
  injection h with h
  subst h
  iterate 40 (try any_goals first | with_reducible assumption | with_reducible refine foot_finish e0 ?_ | with_reducible refine foot_effMismatchEnter n_die e1 ?_ | (dsimp only) | split)

def fp_execMismatchExit (die : Option Nat) : Print := .join
  [fp_finish,
   fp_leaveMismatch die]

theorem foot_execMismatchExit {pr : Print} {z s t : State} {die : Nat} {o_die : Option Nat} (n_die : Names o_die die) (hP : (fp_execMismatchExit o_die).Sub pr) (hk : Within pr z s)
    (h : execMismatchExit die s = .next t) : Within pr z t := by
  simp only [fp_execMismatchExit, Print.join_cons, Print.join_nil, and_true] at hP
  obtain ⟨e0, e1⟩ := hP
  unfold execMismatchExit done at h
  injection h with h
  subst h
  iterate 40 (try any_goals first | with_reducible assumption | with_reducible refine foot_finish e0 ?_ | with_reducible refine foot_leaveMismatch n_die e1 ?_ | (dsimp only) | split)

def fp_resetIntent (d : Option Nat) : Print := .join
  [.row Cell.itn d,
   .reg1 R.ITN_DIE_STAT.COLLECTIVE d,
   .reg1 R.ITN_DIE_STAT.BARRIER d,
   fp_leaveMismatch d,
   fp_showEmpty d,
   fp_resetReached]

theorem foot_resetIntent {pr : Print} {z s : State} {d : Nat} {o_d : Option Nat} (n_d : Names o_d d) (hP : (fp_resetIntent o_d).Sub pr) (hk : Within pr z s) :
    Within pr z (resetIntent d s) := by
  simp only [fp_resetIntent, Print.join_cons, Print.join_nil, and_true] at hP
  obtain ⟨e0, e1, e2, e3, e4, e5⟩ := hP
  unfold resetIntent
  iterate 40 (try any_goals first | with_reducible assumption | with_reducible refine Within.setItn _ (Print.has_row rfl n_d e0) ?_ | exact Print.has_reg1 n_d e1 | exact Print.has_reg1 n_d e2 | with_reducible apply Print.has_ite | with_reducible refine Within.put _ ?_ ?_ | with_reducible refine foot_leaveMismatch n_d e3 ?_ | with_reducible refine foot_showEmpty n_d e4 ?_ | with_reducible refine foot_resetReached e5 ?_ | with_reducible refine Within.fold ?_ ?_ | exact Or.inr (Print.has_prt (by assumption)) | with_reducible exact Or.inl rfl | intro _ | (dsimp only) | split | with_reducible apply Within.upd)

def fp_execIntentReset : Print := .join
  [.row Cell.itn none,
   fp_finish,
   fp_command,
   fp_keepResult,
   fp_markStarted]

theorem foot_execIntentReset {pr : Print} {z s t : State} {port : Nat} {tag : Nat} (hP : fp_execIntentReset.Sub pr) (hk : Within pr z s)
    (h : execIntentReset port tag s = .next t) : Within pr z t := by
  simp only [fp_execIntentReset, Print.join_cons, Print.join_nil, and_true] at hP
  obtain ⟨e0, e1, e2, e3, e4⟩ := hP
  unfold execIntentReset done at h
  injection h with h
  subst h
  iterate 40 (try any_goals first | with_reducible assumption | with_reducible refine Within.setItn _ (Print.has_row rfl Names.any e0) ?_ | with_reducible refine foot_finish e1 ?_ | with_reducible refine foot_command e2 ?_ ?_ | with_reducible refine foot_keepResult e3 ?_ | with_reducible refine foot_markStarted e4 ?_ | with_reducible refine Within.each ?_ ?_ | exact Or.inr (Print.has_prt (by assumption)) | with_reducible exact Or.inl rfl | intro _ | (dsimp only) | with_reducible apply Within.upd)

def fp_judgeBlind (d : Option Nat) : Print := .join
  [.reg R.ITN_EVENT,
   .row Cell.link d,
   .reg1 R.ITN_DIE_STAT.BLIND d,
   fp_faultOn]

theorem foot_judgeBlind {pr : Print} {z s : State} {d : Nat} {o_d : Option Nat} (n_d : Names o_d d) (hP : (fp_judgeBlind o_d).Sub pr) (hk : Within pr z s) :
    Within pr z (judgeBlind d s) := by
  simp only [fp_judgeBlind, Print.join_cons, Print.join_nil, and_true] at hP
  obtain ⟨e0, e1, e2, e3⟩ := hP
  unfold judgeBlind
  iterate 40 (try any_goals first | with_reducible assumption | exact Print.has_reg e0 | with_reducible refine Within.setLink _ (Print.has_row rfl n_d e1) ?_ | exact Print.has_reg1 n_d e2 | with_reducible apply Print.has_ite | with_reducible refine Within.event _ ?_ ?_ | with_reducible refine Within.agentPut ?_ ?_ ?_ | exact Print.has_row rfl n_d e1 | with_reducible refine Within.heard ?_ ?_ | with_reducible refine foot_faultOn e3 ?_ | with_reducible refine Within.when ?_ ?_ | intro _ | (dsimp only))

def fp_siteDetects (d : Option Nat) : Print := .join
  [.row Cell.itn d,
   .row Cell.link d,
   .reg1 R.ITN_DRP_STAT.FIRED d,
   .reg1 R.ITN_DIE_STAT.CUT d,
   .row Cell.tok d,
   .reg1 R.ITN_DIE_STAT.STRETCH d,
   .prt .out,
   .prt .pins,
   fp_showReasons d]

theorem foot_siteDetects {pr : Print} {z s : State} {d : Nat} {site : Nat} {o_d : Option Nat} (n_d : Names o_d d) (hP : (fp_siteDetects o_d).Sub pr) (hk : Within pr z s) :
    Within pr z (siteDetects d site s) := by
  simp only [fp_siteDetects, Print.join_cons, Print.join_nil, and_true] at hP
  obtain ⟨e0, e1, e2, e3, e4, e5, e6, hP⟩ := hP
  obtain ⟨e7, e8⟩ := hP
  unfold siteDetects
  iterate 40 (try any_goals first | with_reducible assumption | with_reducible refine Within.setItn _ (Print.has_row rfl n_d e0) ?_ | with_reducible refine Within.setLink _ (Print.has_row rfl n_d e1) ?_ | exact Print.has_reg1 n_d e2 | exact Print.has_reg1 n_d e3 | with_reducible refine Within.setTok _ (Print.has_row rfl n_d e4) ?_ | exact Print.has_reg1 n_d e5 | exact Print.has_prt e6 | exact Print.has_prt e7 | with_reducible apply Print.has_ite | with_reducible refine Within.agentPut ?_ ?_ ?_ | exact Print.has_row rfl n_d e1 | with_reducible refine Within.heard ?_ ?_ | with_reducible refine Within.emit _ ?_ ?_ | with_reducible refine foot_showReasons n_d e8 ?_ | with_reducible refine Within.when ?_ ?_ | exact Or.inr (Print.has_prt (by assumption)) | with_reducible exact Or.inl rfl | intro _ | (dsimp only) | split | with_reducible apply Within.upd)

def fp_effDroopDetect (d : Option Nat) : Print := .join
  [fp_siteDetects d]

theorem foot_effDroopDetect {pr : Print} {z s : State} {d : Nat} {site : Nat} {o_d : Option Nat} (n_d : Names o_d d) (hP : (fp_effDroopDetect o_d).Sub pr) (hk : Within pr z s) :
    Within pr z (effDroopDetect d site s) := by
  simp only [fp_effDroopDetect, Print.join_cons, Print.join_nil, and_true] at hP
  have e0 := hP
  unfold effDroopDetect
  iterate 40 (try any_goals first | with_reducible assumption | with_reducible refine foot_siteDetects n_d e0 ?_ | split)

def fp_execDroopDetect (die : Option Nat) : Print := .join
  [fp_finish,
   fp_effDroopDetect die]

theorem foot_execDroopDetect {pr : Print} {z s t : State} {die : Nat} {site : Nat} {o_die : Option Nat} (n_die : Names o_die die) (hP : (fp_execDroopDetect o_die).Sub pr) (hk : Within pr z s)
    (h : execDroopDetect die site s = .next t) : Within pr z t := by
  simp only [fp_execDroopDetect, Print.join_cons, Print.join_nil, and_true] at hP
  obtain ⟨e0, e1⟩ := hP
  unfold execDroopDetect done at h
  injection h with h
  subst h
  iterate 40 (try any_goals first | with_reducible assumption | with_reducible refine foot_finish e0 ?_ | with_reducible refine foot_effDroopDetect n_die e1 ?_)

def fp_clearSites (d : Option Nat) : Print := .join
  [.row Cell.itn d,
   .row Cell.link d,
   .reg1 R.ITN_DRP_STAT.FIRED d,
   fp_endCut d]

theorem foot_clearSites {pr : Print} {z s : State} {d : Nat} {m : Nat} {o_d : Option Nat} (n_d : Names o_d d) (hP : (fp_clearSites o_d).Sub pr) (hk : Within pr z s) :
    Within pr z (clearSites d m s) := by
  simp only [fp_clearSites, Print.join_cons, Print.join_nil, and_true] at hP
  obtain ⟨e0, e1, e2, e3⟩ := hP
  unfold clearSites
  iterate 40 (try any_goals first | with_reducible assumption | with_reducible refine Within.setItn _ (Print.has_row rfl n_d e0) ?_ | with_reducible refine Within.setLink _ (Print.has_row rfl n_d e1) ?_ | exact Print.has_reg1 n_d e2 | with_reducible apply Print.has_ite | with_reducible refine Within.agentPut ?_ ?_ ?_ | exact Print.has_row rfl n_d e1 | with_reducible refine foot_endCut n_d e3 ?_ | exact Or.inr (Print.has_prt (by assumption)) | with_reducible exact Or.inl rfl | (dsimp only) | split | with_reducible apply Within.upd)

def fp_execDroopClear (die : Option Nat) : Print := .join
  [fp_finish,
   fp_clearSites die]

theorem foot_execDroopClear {pr : Print} {z s t : State} {die : Nat} {sites : Nat} {o_die : Option Nat} (n_die : Names o_die die) (hP : (fp_execDroopClear o_die).Sub pr) (hk : Within pr z s)
    (h : execDroopClear die sites s = .next t) : Within pr z t := by
  simp only [fp_execDroopClear, Print.join_cons, Print.join_nil, and_true] at hP
  obtain ⟨e0, e1⟩ := hP
  unfold execDroopClear done at h
  injection h with h
  subst h
  iterate 40 (try any_goals first | with_reducible assumption | with_reducible refine foot_finish e0 ?_ | with_reducible refine foot_clearSites n_die e1 ?_ | split)

def fp_takeDroop (d : Option Nat) : Print := .join
  [.reg R.ITN_EVENT,
   .reg1 R.ITN_DRP_STAT.EVENTS d,
   .reg1 R.ITN_DRP_LAST.TIME d,
   .reg1 R.ITN_DRP_DUR.NS d,
   .prt .test,
   fp_recordAt,
   fp_countHealth (some 0)]

theorem foot_takeDroop {pr : Print} {z s : State} {d : Nat} {mask : Nat} {start : Nat} {stop : Nat} {o_d : Option Nat} (n_d : Names o_d d) (hP : (fp_takeDroop o_d).Sub pr) (hk : Within pr z s) :
    Within pr z (takeDroop d mask start stop s) := by
  simp only [fp_takeDroop, Print.join_cons, Print.join_nil, and_true] at hP
  obtain ⟨e0, e1, e2, e3, e4, e5, e6⟩ := hP
  unfold takeDroop
  iterate 40 (try any_goals first | with_reducible assumption | exact Print.has_reg e0 | exact Print.has_reg1 n_d e1 | exact Print.has_reg1 n_d e2 | exact Print.has_reg1 n_d e3 | exact Print.has_prt e4 | with_reducible apply Print.has_ite | with_reducible refine Within.put _ ?_ ?_ | with_reducible refine Within.event _ ?_ ?_ | with_reducible refine Within.addSat _ ?_ ?_ | with_reducible refine foot_recordAt e5 ?_ | with_reducible refine foot_countHealth Names.one e6 ?_ | exact Or.inr (Print.has_prt (by assumption)) | with_reducible exact Or.inl rfl | (dsimp only) | split | with_reducible apply Within.upd)

def fp_execDroopReport (die : Option Nat) : Print := .join
  [fp_finish,
   fp_acceptFrame die,
   fp_takeDroop die]

theorem foot_execDroopReport {pr : Print} {z s t : State} {die : Nat} {frame : Frame} {mask : Nat} {stamps : CutStamps} {o_die : Option Nat} (n_die : Names o_die die) (hP : (fp_execDroopReport o_die).Sub pr) (hk : Within pr z s)
    (h : execDroopReport die frame mask stamps s = .next t) : Within pr z t := by
  simp only [fp_execDroopReport, Print.join_cons, Print.join_nil, and_true] at hP
  obtain ⟨e0, e1, e2⟩ := hP
  unfold execDroopReport done at h
  injection h with h
  subst h
  iterate 40 (try any_goals first | with_reducible assumption | with_reducible refine foot_finish e0 ?_ | with_reducible refine foot_acceptFrame n_die e1 ?_ ?_ | with_reducible refine foot_takeDroop n_die e2 ?_ | intro _)

def fp_releaseSite (d : Option Nat) : Print := .join
  [fp_clearSites d]

theorem foot_releaseSite {pr : Print} {z s : State} {d : Nat} {site : Nat} {o_d : Option Nat} (n_d : Names o_d d) (hP : (fp_releaseSite o_d).Sub pr) (hk : Within pr z s) :
    Within pr z (releaseSite d site s) := by
  simp only [fp_releaseSite, Print.join_cons, Print.join_nil, and_true] at hP
  have e0 := hP
  unfold releaseSite
  iterate 40 (try any_goals first | with_reducible assumption | with_reducible refine foot_clearSites n_d e0 ?_ | split)

def fp_effSiteStuck (d : Option Nat) : Print := .join
  [.reg1 R.ITN_DRP_STAT.STUCK d,
   .reg R.ITN_EVENT,
   fp_faultOn,
   fp_recordDie,
   fp_releaseSite d,
   fp_judgeBlind d]

theorem foot_effSiteStuck {pr : Print} {z s : State} {d : Nat} {site : Nat} {o_d : Option Nat} (n_d : Names o_d d) (hP : (fp_effSiteStuck o_d).Sub pr) (hk : Within pr z s) :
    Within pr z (effSiteStuck d site s) := by
  simp only [fp_effSiteStuck, Print.join_cons, Print.join_nil, and_true] at hP
  obtain ⟨e0, e1, e2, e3, e4, e5⟩ := hP
  unfold effSiteStuck
  iterate 40 (try any_goals first | with_reducible assumption | exact Print.has_reg1 n_d e0 | exact Print.has_reg e1 | with_reducible apply Print.has_ite | with_reducible refine Within.event _ ?_ ?_ | with_reducible refine foot_faultOn e2 ?_ | with_reducible refine foot_recordDie e3 ?_ | with_reducible refine foot_releaseSite n_d e4 ?_ | with_reducible refine foot_judgeBlind n_d e5 ?_ | (dsimp only) | split)

def fp_execSiteStuck (die : Option Nat) : Print := .join
  [fp_finish,
   fp_effSiteStuck die]

theorem foot_execSiteStuck {pr : Print} {z s t : State} {die : Nat} {site : Nat} {o_die : Option Nat} (n_die : Names o_die die) (hP : (fp_execSiteStuck o_die).Sub pr) (hk : Within pr z s)
    (h : execSiteStuck die site s = .next t) : Within pr z t := by
  simp only [fp_execSiteStuck, Print.join_cons, Print.join_nil, and_true] at hP
  obtain ⟨e0, e1⟩ := hP
  unfold execSiteStuck done at h
  injection h with h
  subst h
  iterate 40 (try any_goals first | with_reducible assumption | with_reducible refine foot_finish e0 ?_ | with_reducible refine foot_effSiteStuck n_die e1 ?_)

def fp_failSite (d : Option Nat) : Print := .join
  [.row Cell.link d,
   .reg1 R.ITN_DRP_STAT.FAILED d,
   .reg R.ITN_EVENT,
   fp_faultOn,
   fp_recordDie,
   fp_releaseSite d,
   fp_judgeBlind d]

theorem foot_failSite {pr : Print} {z s : State} {d : Nat} {site : Nat} {o_d : Option Nat} (n_d : Names o_d d) (hP : (fp_failSite o_d).Sub pr) (hk : Within pr z s) :
    Within pr z (failSite d site s) := by
  simp only [fp_failSite, Print.join_cons, Print.join_nil, and_true] at hP
  obtain ⟨e0, e1, e2, e3, e4, e5, e6⟩ := hP
  unfold failSite
  iterate 40 (try any_goals first | with_reducible assumption | with_reducible refine Within.setLink _ (Print.has_row rfl n_d e0) ?_ | exact Print.has_reg1 n_d e1 | exact Print.has_reg e2 | with_reducible apply Print.has_ite | with_reducible refine Within.event _ ?_ ?_ | with_reducible refine Within.agentPut ?_ ?_ ?_ | exact Print.has_row rfl n_d e0 | with_reducible refine Within.heard ?_ ?_ | with_reducible refine foot_faultOn e3 ?_ | with_reducible refine foot_recordDie e4 ?_ | with_reducible refine foot_releaseSite n_d e5 ?_ | with_reducible refine foot_judgeBlind n_d e6 ?_ | intro _ | (dsimp only) | split)

def fp_execSiteTest (die : Option Nat) : Print := .join
  [fp_finish,
   fp_failSite die]

theorem foot_execSiteTest {pr : Print} {z s t : State} {die : Nat} {failing : Nat} {o_die : Option Nat} (n_die : Names o_die die) (hP : (fp_execSiteTest o_die).Sub pr) (hk : Within pr z s)
    (h : execSiteTest die failing s = .next t) : Within pr z t := by
  simp only [fp_execSiteTest, Print.join_cons, Print.join_nil, and_true] at hP
  obtain ⟨e0, e1⟩ := hP
  unfold execSiteTest done at h
  injection h with h
  subst h
  iterate 40 (try any_goals first | with_reducible assumption | with_reducible refine foot_finish e0 ?_ | with_reducible refine foot_failSite n_die e1 ?_ | with_reducible refine Within.each ?_ ?_ | intro _ | split)

def fp_execDroopSiteRestore : Print := .join
  [.reg1 R.ITN_DRP_STAT.STUCK none,
   .reg1 R.ITN_DRP_STAT.FAILED none,
   fp_finish,
   fp_command,
   fp_judgeBlind none,
   fp_complete]

theorem foot_execDroopSiteRestore {pr : Print} {z s t : State} {port : Nat} {tag : Nat} {failing : Nat} (hP : fp_execDroopSiteRestore.Sub pr) (hk : Within pr z s)
    (h : execDroopSiteRestore port tag failing s = .next t) : Within pr z t := by
  simp only [fp_execDroopSiteRestore, Print.join_cons, Print.join_nil, and_true] at hP
  obtain ⟨e0, e1, e2, e3, e4, e5⟩ := hP
  unfold execDroopSiteRestore done at h
  injection h with h
  subst h
  iterate 40 (try any_goals first | with_reducible assumption | exact Print.has_reg1 Names.any e0 | exact Print.has_reg1 Names.any e1 | with_reducible apply Print.has_ite | with_reducible refine Within.put _ ?_ ?_ | with_reducible refine Within.heard ?_ ?_ | with_reducible refine foot_finish e2 ?_ | with_reducible refine foot_command e3 ?_ ?_ | with_reducible refine foot_judgeBlind Names.any e4 ?_ | with_reducible refine foot_complete e5 ?_ | intro _ | (dsimp only))

def fp_beginForced (d : Option Nat) : Print := .join
  [.row Cell.itn d,
   fp_siteDetects d]

theorem foot_beginForced {pr : Print} {z s : State} {d : Nat} {f : Forced} {o_d : Option Nat} (n_d : Names o_d d) (hP : (fp_beginForced o_d).Sub pr) (hk : Within pr z s) :
    Within pr z (beginForced d f s) := by
  simp only [fp_beginForced, Print.join_cons, Print.join_nil, and_true] at hP
  obtain ⟨e0, e1⟩ := hP
  unfold beginForced
  iterate 40 (try any_goals first | with_reducible assumption | with_reducible refine Within.setItn _ (Print.has_row rfl n_d e0) ?_ | with_reducible refine foot_siteDetects n_d e1 ?_ | exact Or.inr (Print.has_prt (by assumption)) | with_reducible exact Or.inl rfl | intro _ | (dsimp only) | with_reducible apply Within.upd)

def fp_execDroopForce : Print := .join
  [.row Cell.itn none,
   fp_finish,
   fp_command,
   fp_markStarted,
   fp_beginForced none]

theorem foot_execDroopForce {pr : Print} {z s t : State} {port : Nat} {tag : Nat} (hP : fp_execDroopForce.Sub pr) (hk : Within pr z s)
    (h : execDroopForce port tag s = .next t) : Within pr z t := by
  simp only [fp_execDroopForce, Print.join_cons, Print.join_nil, and_true] at hP
  obtain ⟨e0, e1, e2, e3, e4⟩ := hP
  unfold execDroopForce done at h
  injection h with h
  subst h
  iterate 40 (try any_goals first | with_reducible assumption | with_reducible refine Within.setItn _ (Print.has_row rfl Names.any e0) ?_ | with_reducible refine Within.heard ?_ ?_ | with_reducible refine foot_finish e1 ?_ | with_reducible refine foot_command e2 ?_ ?_ | with_reducible refine foot_markStarted e3 ?_ | with_reducible refine foot_beginForced Names.any e4 ?_ | exact Or.inr (Print.has_prt (by assumption)) | with_reducible exact Or.inl rfl | intro _ | (dsimp only) | with_reducible apply Within.upd)

def fp_feedTiles (d : Option Nat) : Print := .join
  [.row Cell.tok d]

theorem foot_feedTiles {pr : Print} {z s : State} {d : Nat} {fed : List Nat} {words : List Nat} {o_d : Option Nat} (n_d : Names o_d d) (hP : (fp_feedTiles o_d).Sub pr) (hk : Within pr z s) :
    Within pr z (feedTiles d fed words s) := by
  simp only [fp_feedTiles, Print.join_cons, Print.join_nil, and_true] at hP
  have e0 := hP
  unfold feedTiles
  iterate 40 (try any_goals first | with_reducible assumption | with_reducible refine Within.setTok _ (Print.has_row rfl n_d e0) ?_ | with_reducible refine Within.each ?_ ?_ | with_reducible refine Within.fold ?_ ?_ | exact Or.inr (Print.has_prt (by assumption)) | with_reducible exact Or.inl rfl | intro _ | (dsimp only) | with_reducible apply Within.upd)

def fp_judgeSlot (d : Option Nat) : Print := .join
  [.row Cell.itn d,
   .row Cell.link d,
   .reg1 R.ITN_MM_CNT.OVER d,
   .reg1 R.ITN_MM_CNT.UNDER d]

theorem foot_judgeSlot {pr : Print} {z s : State} {d : Nat} {x : SlotSum} {o_d : Option Nat} (n_d : Names o_d d) (hP : (fp_judgeSlot o_d).Sub pr) (hk : Within pr z s) :
    Within pr z (judgeSlot d x s) := by
  simp only [fp_judgeSlot, Print.join_cons, Print.join_nil, and_true] at hP
  obtain ⟨e0, e1, e2, e3⟩ := hP
  unfold judgeSlot
  iterate 40 (try any_goals first | with_reducible assumption | with_reducible refine Within.setItn _ (Print.has_row rfl n_d e0) ?_ | with_reducible refine Within.setLink _ (Print.has_row rfl n_d e1) ?_ | exact Print.has_reg1 n_d e2 | exact Print.has_reg1 n_d e3 | with_reducible apply Print.has_ite | with_reducible refine Within.agentAdd ?_ ?_ ?_ | exact Print.has_row rfl n_d e1 | with_reducible refine Within.when ?_ ?_ | exact Or.inr (Print.has_prt (by assumption)) | with_reducible exact Or.inl rfl | intro _ | (dsimp only) | split | with_reducible apply Within.upd)

def fp_showSlot (d : Option Nat) : Print := .join
  [.reg1 R.TOK_DIE_STAT.GRANT d,
   .reg1 R.TOK_DIE_STAT.SHARE d,
   .reg1 R.TOK_DIE_STAT.SCALED d,
   .reg1 R.TOK_DIE_STAT2.USED d,
   .reg1 R.TOK_DIE_STAT3.RISE_EFF d,
   .reg1 R.TOK_DIE_STAT3.FILLER d,
   .reg1 R.FIL_DIE_STAT.EPISODE d,
   .reg1 R.FIL_DIE_STAT.N d,
   .reg1 R.FIL_DIE_L0.L0 d]

theorem foot_showSlot {pr : Print} {z s : State} {d : Nat} {x : SlotSum} {rise : Nat} {o_d : Option Nat} (n_d : Names o_d d) (hP : (fp_showSlot o_d).Sub pr) (hk : Within pr z s) :
    Within pr z (showSlot d x rise s) := by
  simp only [fp_showSlot, Print.join_cons, Print.join_nil, and_true] at hP
  obtain ⟨e0, e1, e2, e3, e4, e5, e6, hP⟩ := hP
  obtain ⟨e7, e8⟩ := hP
  unfold showSlot
  iterate 40 (try any_goals first | with_reducible assumption | exact Print.has_reg1 n_d e0 | exact Print.has_reg1 n_d e1 | exact Print.has_reg1 n_d e2 | exact Print.has_reg1 n_d e3 | exact Print.has_reg1 n_d e4 | exact Print.has_reg1 n_d e5 | exact Print.has_reg1 n_d e6 | exact Print.has_reg1 n_d e7 | exact Print.has_reg1 n_d e8 | with_reducible apply Print.has_ite | with_reducible refine Within.put _ ?_ ?_ | with_reducible refine Within.putB _ ?_ ?_ | (dsimp only) | split)

def fp_reportSlot (d : Option Nat) : Print := .join
  [fp_sendUp d]

theorem foot_reportSlot {pr : Print} {z s : State} {d : Nat} {real : Nat} {fill : Nat} {late : Bool} {o_d : Option Nat} (n_d : Names o_d d) (hP : (fp_reportSlot o_d).Sub pr) (hk : Within pr z s) :
    Within pr z (reportSlot d real fill late s) := by
  simp only [fp_reportSlot, Print.join_cons, Print.join_nil, and_true] at hP
  have e0 := hP
  unfold reportSlot
  iterate 40 (try any_goals first | with_reducible assumption | with_reducible refine foot_sendUp n_d e0 ?_)

def fp_closeSlot (d : Option Nat) : Print := .join
  [.row Cell.link d,
   .reg1 R.FIL_DIE_CNT.EPISODES d,
   .reg R.FIL_EVENT,
   .prt .out,
   .row Cell.tok d,
   fp_judgeSlot d,
   fp_setReasons d,
   fp_showSlot d,
   fp_reportSlot d]

theorem foot_closeSlot {pr : Print} {z s : State} {d : Nat} {x : SlotSum} {o_d : Option Nat} (n_d : Names o_d d) (hP : (fp_closeSlot o_d).Sub pr) (hk : Within pr z s) :
    Within pr z (closeSlot d x s) := by
  simp only [fp_closeSlot, Print.join_cons, Print.join_nil, and_true] at hP
  obtain ⟨e0, e1, e2, e3, e4, e5, e6, hP⟩ := hP
  obtain ⟨e7, e8⟩ := hP
  unfold closeSlot
  iterate 40 (try any_goals first | with_reducible assumption | with_reducible refine Within.setLink _ (Print.has_row rfl n_d e0) ?_ | exact Print.has_reg1 n_d e1 | exact Print.has_reg e2 | exact Print.has_prt e3 | with_reducible refine Within.setTok _ (Print.has_row rfl n_d e4) ?_ | with_reducible apply Print.has_ite | with_reducible refine Within.event _ ?_ ?_ | with_reducible refine Within.agentAdd ?_ ?_ ?_ | exact Print.has_row rfl n_d e0 | with_reducible refine Within.heard ?_ ?_ | with_reducible refine Within.emit _ ?_ ?_ | with_reducible refine foot_judgeSlot n_d e5 ?_ | with_reducible refine foot_setReasons n_d e6 ?_ | with_reducible refine foot_showSlot n_d e7 ?_ | with_reducible refine foot_reportSlot n_d e8 ?_ | with_reducible refine Within.when ?_ ?_ | exact Or.inr (Print.has_prt (by assumption)) | with_reducible exact Or.inl rfl | intro _ | (dsimp only) | with_reducible apply Within.upd)

def fp_tellStep : Print := .join
  [.prt .ring,
   .prt .capp]

theorem foot_tellStep {pr : Print} {z s : State} {d : Nat} {tag : Nat} (hP : fp_tellStep.Sub pr) (hk : Within pr z s) :
    Within pr z (tellStep d tag s) := by
  simp only [fp_tellStep, Print.join_cons, Print.join_nil, and_true] at hP
  obtain ⟨e0, e1⟩ := hP
  unfold tellStep
  iterate 40 (try any_goals first | with_reducible assumption | exact Print.has_prt e0 | exact Print.has_prt e1 | exact Or.inr (Print.has_prt (by assumption)) | with_reducible exact Or.inl rfl | intro _ | (dsimp only) | with_reducible apply Within.upd)

def fp_stepBoundary (d : Option Nat) : Print := .join
  [.row Cell.link d,
   .reg1 R.ITN_STEP.LAST d,
   .reg1 R.ITN_STEP_WAIT.NS d,
   .reg1 R.ITN_STEP_LEN.US d,
   .row Cell.itn d,
   fp_tellStep]

theorem foot_stepBoundary {pr : Print} {z s : State} {d : Nat} {o_d : Option Nat} (n_d : Names o_d d) (hP : (fp_stepBoundary o_d).Sub pr) (hk : Within pr z s) :
    Within pr z (stepBoundary d s) := by
  simp only [fp_stepBoundary, Print.join_cons, Print.join_nil, and_true] at hP
  obtain ⟨e0, e1, e2, e3, e4, e5⟩ := hP
  unfold stepBoundary
  iterate 40 (try any_goals first | with_reducible assumption | with_reducible refine Within.setLink _ (Print.has_row rfl n_d e0) ?_ | exact Print.has_reg1 n_d e1 | exact Print.has_reg1 n_d e2 | exact Print.has_reg1 n_d e3 | with_reducible refine Within.setItn _ (Print.has_row rfl n_d e4) ?_ | with_reducible apply Print.has_ite | with_reducible refine Within.agentPut ?_ ?_ ?_ | exact Print.has_row rfl n_d e0 | with_reducible refine Within.heard ?_ ?_ | with_reducible refine foot_tellStep e5 ?_ | exact Or.inr (Print.has_prt (by assumption)) | with_reducible exact Or.inl rfl | intro _ | (dsimp only) | with_reducible apply Within.upd)

def fp_showSteps (d : Option Nat) : Print := .join
  [.reg1 R.ITN_DIE_STAT.STEP d,
   .reg1 R.ITN_DIE_STAT.COLLECTIVE d,
   .reg1 R.ITN_DIE_STAT.BARRIER d]

theorem foot_showSteps {pr : Print} {z s : State} {d : Nat} {o_d : Option Nat} (n_d : Names o_d d) (hP : (fp_showSteps o_d).Sub pr) (hk : Within pr z s) :
    Within pr z (showSteps d s) := by
  simp only [fp_showSteps, Print.join_cons, Print.join_nil, and_true] at hP
  obtain ⟨e0, e1, e2⟩ := hP
  unfold showSteps
  iterate 40 (try any_goals first | with_reducible assumption | exact Print.has_reg1 n_d e0 | exact Print.has_reg1 n_d e1 | exact Print.has_reg1 n_d e2 | with_reducible apply Print.has_ite | with_reducible refine Within.put _ ?_ ?_ | with_reducible refine Within.putB _ ?_ ?_ | (dsimp only) | split)

def fp_trackSteps (d : Option Nat) : Print := .join
  [.row Cell.itn d,
   fp_resetIntent d,
   fp_stepBoundary d,
   fp_showSteps d]

theorem foot_trackSteps {pr : Print} {z s : State} {d : Nat} {o_d : Option Nat} (n_d : Names o_d d) (hP : (fp_trackSteps o_d).Sub pr) (hk : Within pr z s) :
    Within pr z (trackSteps d s) := by
  simp only [fp_trackSteps, Print.join_cons, Print.join_nil, and_true] at hP
  obtain ⟨e0, e1, e2, e3⟩ := hP
  unfold trackSteps
  iterate 40 (try any_goals first | with_reducible assumption | with_reducible refine Within.setItn _ (Print.has_row rfl n_d e0) ?_ | with_reducible refine Within.heard ?_ ?_ | with_reducible refine foot_resetIntent n_d e1 ?_ | with_reducible refine foot_stepBoundary n_d e2 ?_ | with_reducible refine foot_showSteps n_d e3 ?_ | with_reducible refine Within.when ?_ ?_ | exact Or.inr (Print.has_prt (by assumption)) | with_reducible exact Or.inl rfl | intro _ | (dsimp only) | split | with_reducible apply Within.upd)

def fp_openSlot (d : Option Nat) : Print := .join
  [.row Cell.tok d,
   .reg1 R.TOK_DIE_STAT.ZERO d,
   .reg1 R.TOK_DIE_STAT2.BUDGET d,
   .reg1 R.FIL_DIE_STAT.WARM d,
   fp_showEmpty d]

theorem foot_openSlot {pr : Print} {z s : State} {d : Nat} {o_d : Option Nat} (n_d : Names o_d d) (hP : (fp_openSlot o_d).Sub pr) (hk : Within pr z s) :
    Within pr z (openSlot d s) := by
  simp only [fp_openSlot, Print.join_cons, Print.join_nil, and_true] at hP
  obtain ⟨e0, e1, e2, e3, e4⟩ := hP
  unfold openSlot
  iterate 40 (try any_goals first | with_reducible assumption | with_reducible refine Within.setTok _ (Print.has_row rfl n_d e0) ?_ | exact Print.has_reg1 n_d e1 | exact Print.has_reg1 n_d e2 | exact Print.has_reg1 n_d e3 | with_reducible apply Print.has_ite | with_reducible refine Within.put _ ?_ ?_ | with_reducible refine Within.putB _ ?_ ?_ | with_reducible refine foot_showEmpty n_d e4 ?_ | with_reducible refine Within.when ?_ ?_ | exact Or.inr (Print.has_prt (by assumption)) | with_reducible exact Or.inl rfl | intro _ | (dsimp only) | with_reducible apply Within.upd)

def fp_enterG : Print := .join
  [.reg R.BOOT_STAT.GSTATE,
   .reg R.BOOT_GSTATE.BUSY,
   .prt .boot,
   fp_record]

theorem foot_enterG {pr : Print} {z s : State} {n : Nat} (hP : fp_enterG.Sub pr) (hk : Within pr z s) :
    Within pr z (enterG n s) := by
  simp only [fp_enterG, Print.join_cons, Print.join_nil, and_true] at hP
  obtain ⟨e0, e1, e2, e3⟩ := hP
  unfold enterG
  iterate 40 (try any_goals first | with_reducible assumption | exact Print.has_reg e0 | exact Print.has_reg e1 | exact Print.has_prt e2 | with_reducible apply Print.has_ite | with_reducible refine Within.put _ ?_ ?_ | with_reducible refine Within.setBoot _ ?_ ?_ | with_reducible refine foot_record e3 ?_ | exact Or.inr (Print.has_prt (by assumption)) | with_reducible exact Or.inl rfl | (dsimp only) | with_reducible apply Within.upd)

def fp_gateClock : Print := .join
  [.prt .pins,
   .prt .out]

theorem foot_gateClock {pr : Print} {z s : State} {on : Bool} {d : Nat} (hP : fp_gateClock.Sub pr) (hk : Within pr z s) :
    Within pr z (gateClock on d s) := by
  simp only [fp_gateClock, Print.join_cons, Print.join_nil, and_true] at hP
  obtain ⟨e0, e1⟩ := hP
  unfold gateClock
  iterate 40 (try any_goals first | with_reducible assumption | exact Print.has_prt e0 | exact Print.has_prt e1 | with_reducible refine Within.setPins _ ?_ ?_ | with_reducible refine Within.emit _ ?_ ?_ | exact Or.inr (Print.has_prt (by assumption)) | with_reducible exact Or.inl rfl | (dsimp only) | with_reducible apply Within.upd)

def fp_shedAtOnce : Print := .join
  [fp_startShed none]

theorem foot_shedAtOnce {pr : Print} {z s : State} {r : Nat} (hP : fp_shedAtOnce.Sub pr) (hk : Within pr z s) :
    Within pr z (shedAtOnce r s) := by
  simp only [fp_shedAtOnce, Print.join_cons, Print.join_nil, and_true] at hP
  have e0 := hP
  unfold shedAtOnce
  iterate 40 (try any_goals first | with_reducible assumption | with_reducible refine foot_startShed Names.any e0 ?_ | with_reducible refine Within.each ?_ ?_ | intro _ | (dsimp only) | split)

def fp_settleChange : Print := .join
  [.prt .boot,
   fp_enterG,
   fp_gateClock,
   fp_shedAtOnce]

theorem foot_settleChange {pr : Print} {z s : State} (hP : fp_settleChange.Sub pr) (hk : Within pr z s) :
    Within pr z (settleChange s) := by
  simp only [fp_settleChange, Print.join_cons, Print.join_nil, and_true] at hP
  obtain ⟨e0, e1, e2, e3⟩ := hP
  unfold settleChange
  iterate 40 (try any_goals first | with_reducible assumption | exact Print.has_prt e0 | with_reducible refine Within.setBoot _ ?_ ?_ | with_reducible refine foot_enterG e1 ?_ | with_reducible refine foot_gateClock e2 ?_ | with_reducible refine foot_shedAtOnce e3 ?_ | with_reducible refine Within.each ?_ ?_ | exact Or.inr (Print.has_prt (by assumption)) | with_reducible exact Or.inl rfl | intro _ | (dsimp only) | split | with_reducible apply Within.upd)

def fp_effAgentSlot (d : Option Nat) : Print := .join
  [.row Cell.est d,
   fp_feedTiles d,
   fp_closeSlot d,
   fp_trackSteps d,
   fp_openSlot d,
   fp_settleChange]

theorem foot_effAgentSlot {pr : Print} {z s : State} {d : Nat} {work : SlotWork} {cuts : List Nat} {o_d : Option Nat} (n_d : Names o_d d) (hP : (fp_effAgentSlot o_d).Sub pr) (hk : Within pr z s) :
    Within pr z (effAgentSlot d work cuts s) := by
  simp only [fp_effAgentSlot, Print.join_cons, Print.join_nil, and_true] at hP
  obtain ⟨e0, e1, e2, e3, e4, e5⟩ := hP
  unfold effAgentSlot
  iterate 40 (try any_goals first | with_reducible assumption | with_reducible refine Within.setEst _ (Print.has_row rfl n_d e0) ?_ | with_reducible refine foot_feedTiles n_d e1 ?_ | with_reducible refine foot_closeSlot n_d e2 ?_ | with_reducible refine foot_trackSteps n_d e3 ?_ | with_reducible refine foot_openSlot n_d e4 ?_ | with_reducible refine foot_settleChange e5 ?_ | exact Or.inr (Print.has_prt (by assumption)) | with_reducible exact Or.inl rfl | intro _ | (dsimp only) | split | with_reducible apply Within.upd)

def fp_execAgentSlot (die : Option Nat) : Print := .join
  [fp_finish,
   fp_effAgentSlot die]

theorem foot_execAgentSlot {pr : Print} {z s t : State} {die : Nat} {work : SlotWork} {cut : CutPoint} {o_die : Option Nat} (n_die : Names o_die die) (hP : (fp_execAgentSlot o_die).Sub pr) (hk : Within pr z s)
    (h : execAgentSlot die work cut s = .next t) : Within pr z t := by
  simp only [fp_execAgentSlot, Print.join_cons, Print.join_nil, and_true] at hP
  obtain ⟨e0, e1⟩ := hP
  unfold execAgentSlot done at h
  injection h with h
  subst h
  iterate 40 (try any_goals first | with_reducible assumption | with_reducible refine foot_finish e0 ?_ | with_reducible refine foot_effAgentSlot n_die e1 ?_)

def fp_effEpisodeEnd (d : Option Nat) : Print := .join
  [.row Cell.tok d,
   .reg1 R.FIL_DIE_STAT.EPISODE d,
   .reg1 R.FIL_DIE_STAT.N d,
   .reg1 R.FIL_DIE_L0.L0 d]

theorem foot_effEpisodeEnd {pr : Print} {z s : State} {d : Nat} {o_d : Option Nat} (n_d : Names o_d d) (hP : (fp_effEpisodeEnd o_d).Sub pr) (hk : Within pr z s) :
    Within pr z (effEpisodeEnd d s) := by
  simp only [fp_effEpisodeEnd, Print.join_cons, Print.join_nil, and_true] at hP
  obtain ⟨e0, e1, e2, e3⟩ := hP
  unfold effEpisodeEnd
  iterate 40 (try any_goals first | with_reducible assumption | with_reducible refine Within.setTok _ (Print.has_row rfl n_d e0) ?_ | exact Print.has_reg1 n_d e1 | exact Print.has_reg1 n_d e2 | exact Print.has_reg1 n_d e3 | with_reducible apply Print.has_ite | with_reducible refine Within.put _ ?_ ?_ | exact Or.inr (Print.has_prt (by assumption)) | with_reducible exact Or.inl rfl | (dsimp only) | split | with_reducible apply Within.upd)

def fp_execEpisodeEnd (die : Option Nat) : Print := .join
  [fp_finish,
   fp_effEpisodeEnd die]

theorem foot_execEpisodeEnd {pr : Print} {z s t : State} {die : Nat} {o_die : Option Nat} (n_die : Names o_die die) (hP : (fp_execEpisodeEnd o_die).Sub pr) (hk : Within pr z s)
    (h : execEpisodeEnd die s = .next t) : Within pr z t := by
  simp only [fp_execEpisodeEnd, Print.join_cons, Print.join_nil, and_true] at hP
  obtain ⟨e0, e1⟩ := hP
  unfold execEpisodeEnd done at h
  injection h with h
  subst h
  iterate 40 (try any_goals first | with_reducible assumption | with_reducible refine foot_finish e0 ?_ | with_reducible refine foot_effEpisodeEnd n_die e1 ?_)

def fp_giveShare : Print := .join
  [.row Cell.tok none,
   .reg1 R.TOK_DIE_CNT.SCALED none,
   .reg R.TOK_EVENT,
   fp_sendDown none]

theorem foot_giveShare {pr : Print} {z s : State} {code : Nat} {b : Bid} (hP : fp_giveShare.Sub pr) (hk : Within pr z s) :
    Within pr z (giveShare code b s) := by
  simp only [fp_giveShare, Print.join_cons, Print.join_nil, and_true] at hP
  obtain ⟨e0, e1, e2, e3⟩ := hP
  unfold giveShare
  iterate 40 (try any_goals first | with_reducible assumption | with_reducible refine Within.setTok _ (Print.has_row rfl Names.any e0) ?_ | exact Print.has_reg1 Names.any e1 | exact Print.has_reg e2 | with_reducible apply Print.has_ite | with_reducible refine Within.event _ ?_ ?_ | with_reducible refine Within.addSat _ ?_ ?_ | with_reducible refine foot_sendDown Names.any e3 ?_ | with_reducible refine Within.when ?_ ?_ | exact Or.inr (Print.has_prt (by assumption)) | with_reducible exact Or.inl rfl | intro _ | (dsimp only) | with_reducible apply Within.upd)

def fp_bucketSlot (d : Option Nat) : Print := .join
  [.row Cell.cap d,
   .reg1 R.CAP_DIE_BKT.E d,
   .reg1 R.CAP_DIE_EDC2.STATE d,
   .reg1 R.CAP_DIE_LEDC.I d]

theorem foot_bucketSlot {pr : Print} {z s : State} {d : Nat} {o_d : Option Nat} (n_d : Names o_d d) (hP : (fp_bucketSlot o_d).Sub pr) (hk : Within pr z s) :
    Within pr z (bucketSlot d s) := by
  simp only [fp_bucketSlot, Print.join_cons, Print.join_nil, and_true] at hP
  obtain ⟨e0, e1, e2, e3⟩ := hP
  unfold bucketSlot
  iterate 40 (try any_goals first | with_reducible assumption | with_reducible refine Within.setCap _ (Print.has_row rfl n_d e0) ?_ | exact Print.has_reg1 n_d e1 | exact Print.has_reg1 n_d e2 | exact Print.has_reg1 n_d e3 | with_reducible apply Print.has_ite | with_reducible refine Within.put _ ?_ ?_ | with_reducible refine Within.putI _ ?_ ?_ | with_reducible refine Within.putB _ ?_ ?_ | exact Or.inr (Print.has_prt (by assumption)) | with_reducible exact Or.inl rfl | intro _ | (dsimp only) | split | with_reducible apply Within.upd)

def fp_effPackageArbitration : Print := .join
  [.prt .out,
   .reg R.CAP_POOL.I,
   .reg R.TOK_ARB_CNT.SCALED,
   .reg R.TOK_EVENT,
   .reg R.TOK_ARB_CNT2.FLOOR_ONLY,
   .reg R.TOK_RR.PTR,
   .prt .clk,
   .prt .capp,
   fp_bucketSlot none,
   fp_giveShare]

theorem foot_effPackageArbitration {pr : Print} {z s : State} {slotPs : Nat} (hP : fp_effPackageArbitration.Sub pr) (hk : Within pr z s) :
    Within pr z (effPackageArbitration slotPs s) := by
  simp only [fp_effPackageArbitration, Print.join_cons, Print.join_nil, and_true] at hP
  obtain ⟨e0, e1, e2, e3, e4, e5, e6, hP⟩ := hP
  obtain ⟨e7, e8, e9⟩ := hP
  unfold effPackageArbitration
  iterate 40 (try any_goals first | with_reducible assumption | exact Print.has_prt e0 | exact Print.has_reg e1 | exact Print.has_reg e2 | exact Print.has_reg e3 | exact Print.has_reg e4 | exact Print.has_reg e5 | exact Print.has_prt e6 | exact Print.has_prt e7 | with_reducible apply Print.has_ite | with_reducible refine Within.putI _ ?_ ?_ | with_reducible refine Within.event _ ?_ ?_ | with_reducible refine Within.addSat _ ?_ ?_ | with_reducible refine Within.addWrap _ ?_ ?_ | with_reducible refine Within.emit _ ?_ ?_ | with_reducible refine foot_bucketSlot Names.any e8 ?_ | with_reducible refine foot_giveShare e9 ?_ | with_reducible refine Within.each ?_ ?_ | with_reducible refine Within.when ?_ ?_ | exact Or.inr (Print.has_prt (by assumption)) | with_reducible exact Or.inl rfl | intro _ | (dsimp only) | split | with_reducible apply Within.upd)

def fp_execPackageArbitration : Print := .join
  [fp_finish,
   fp_effPackageArbitration]

theorem foot_execPackageArbitration {pr : Print} {z s t : State} {slotPs : Nat} (hP : fp_execPackageArbitration.Sub pr) (hk : Within pr z s)
    (h : execPackageArbitration slotPs s = .next t) : Within pr z t := by
  simp only [fp_execPackageArbitration, Print.join_cons, Print.join_nil, and_true] at hP
  obtain ⟨e0, e1⟩ := hP
  unfold execPackageArbitration done at h
  injection h with h
  subst h
  iterate 40 (try any_goals first | with_reducible assumption | with_reducible refine foot_finish e0 ?_ | with_reducible refine foot_effPackageArbitration e1 ?_)

def fp_takeBudget (d : Option Nat) : Print := .join
  [.row Cell.tok d]

theorem foot_takeBudget {pr : Print} {z s : State} {d : Nat} {kind : Nat} {a : Nat} {b : Nat} {o_d : Option Nat} (n_d : Names o_d d) (hP : (fp_takeBudget o_d).Sub pr) (hk : Within pr z s) :
    Within pr z (takeBudget d kind a b s) := by
  simp only [fp_takeBudget, Print.join_cons, Print.join_nil, and_true] at hP
  have e0 := hP
  unfold takeBudget
  iterate 40 (try any_goals first | with_reducible assumption | with_reducible refine Within.setTok _ (Print.has_row rfl n_d e0) ?_ | exact Or.inr (Print.has_prt (by assumption)) | with_reducible exact Or.inl rfl | (dsimp only) | split | with_reducible apply Within.upd)

def fp_execBudgetFrame (die : Option Nat) : Print := .join
  [fp_finish,
   fp_acceptFrame die,
   fp_takeBudget die]

theorem foot_execBudgetFrame {pr : Print} {z s t : State} {die : Nat} {frame : Frame} {kind : Nat} {a : Nat} {b : Nat} {o_die : Option Nat} (n_die : Names o_die die) (hP : (fp_execBudgetFrame o_die).Sub pr) (hk : Within pr z s)
    (h : execBudgetFrame die frame kind a b s = .next t) : Within pr z t := by
  simp only [fp_execBudgetFrame, Print.join_cons, Print.join_nil, and_true] at hP
  obtain ⟨e0, e1, e2⟩ := hP
  unfold execBudgetFrame done at h
  injection h with h
  subst h
  iterate 40 (try any_goals first | with_reducible assumption | with_reducible refine foot_finish e0 ?_ | with_reducible refine foot_acceptFrame n_die e1 ?_ ?_ | with_reducible refine foot_takeBudget n_die e2 ?_ | intro _)

def fp_execThresholdFrame (die : Option Nat) : Print := .join
  [.row Cell.itn die,
   fp_finish,
   fp_acceptFrame die]

theorem foot_execThresholdFrame {pr : Print} {z s t : State} {die : Nat} {frame : Frame} {threshold : Nat} {o_die : Option Nat} (n_die : Names o_die die) (hP : (fp_execThresholdFrame o_die).Sub pr) (hk : Within pr z s)
    (h : execThresholdFrame die frame threshold s = .next t) : Within pr z t := by
  simp only [fp_execThresholdFrame, Print.join_cons, Print.join_nil, and_true] at hP
  obtain ⟨e0, e1, e2⟩ := hP
  unfold execThresholdFrame done at h
  injection h with h
  subst h
  iterate 40 (try any_goals first | with_reducible assumption | with_reducible refine Within.setItn _ (Print.has_row rfl n_die e0) ?_ | with_reducible refine foot_finish e1 ?_ | with_reducible refine foot_acceptFrame n_die e2 ?_ ?_ | exact Or.inr (Print.has_prt (by assumption)) | with_reducible exact Or.inl rfl | intro _ | (dsimp only) | with_reducible apply Within.upd)

def fp_chargeFiller (d : Option Nat) : Print := .join
  [.row Cell.tok d,
   .reg1 R.FIL_DIE_E.ENERGY d,
   .reg R.FIL_SYS_E.ENERGY,
   .reg R.CAP_E_SYS.ENERGY]

theorem foot_chargeFiller {pr : Print} {z s : State} {d : Nat} {filler : Nat} {o_d : Option Nat} (n_d : Names o_d d) (hP : (fp_chargeFiller o_d).Sub pr) (hk : Within pr z s) :
    Within pr z (chargeFiller d filler s) := by
  simp only [fp_chargeFiller, Print.join_cons, Print.join_nil, and_true] at hP
  obtain ⟨e0, e1, e2, e3⟩ := hP
  unfold chargeFiller
  iterate 40 (try any_goals first | with_reducible assumption | with_reducible refine Within.setTok _ (Print.has_row rfl n_d e0) ?_ | exact Print.has_reg1 n_d e1 | exact Print.has_reg e2 | exact Print.has_reg e3 | with_reducible apply Print.has_ite | with_reducible refine Within.put _ ?_ ?_ | with_reducible refine Within.addWrap _ ?_ ?_ | with_reducible refine Within.fold ?_ ?_ | exact Or.inr (Print.has_prt (by assumption)) | with_reducible exact Or.inl rfl | intro _ | (dsimp only) | with_reducible apply Within.upd)

def fp_takeTokens (d : Option Nat) : Print := .join
  [.row Cell.tok d,
   .reg R.TOK_EVENT,
   fp_chargeFiller d]

theorem foot_takeTokens {pr : Print} {z s : State} {d : Nat} {real : Nat} {filler : Nat} {late : Bool} {o_d : Option Nat} (n_d : Names o_d d) (hP : (fp_takeTokens o_d).Sub pr) (hk : Within pr z s) :
    Within pr z (takeTokens d real filler late s) := by
  simp only [fp_takeTokens, Print.join_cons, Print.join_nil, and_true] at hP
  obtain ⟨e0, e1, e2⟩ := hP
  unfold takeTokens
  iterate 40 (try any_goals first | with_reducible assumption | with_reducible refine Within.setTok _ (Print.has_row rfl n_d e0) ?_ | exact Print.has_reg e1 | with_reducible apply Print.has_ite | with_reducible refine Within.event _ ?_ ?_ | with_reducible refine foot_chargeFiller n_d e2 ?_ | with_reducible refine Within.when ?_ ?_ | exact Or.inr (Print.has_prt (by assumption)) | with_reducible exact Or.inl rfl | intro _ | (dsimp only) | split | with_reducible apply Within.upd)

def fp_execTokensUsedFrame (die : Option Nat) : Print := .join
  [fp_finish,
   fp_acceptFrame die,
   fp_takeTokens die]

theorem foot_execTokensUsedFrame {pr : Print} {z s t : State} {die : Nat} {frame : Frame} {real : Nat} {filler : Nat} {late : Bool} {o_die : Option Nat} (n_die : Names o_die die) (hP : (fp_execTokensUsedFrame o_die).Sub pr) (hk : Within pr z s)
    (h : execTokensUsedFrame die frame real filler late s = .next t) : Within pr z t := by
  simp only [fp_execTokensUsedFrame, Print.join_cons, Print.join_nil, and_true] at hP
  obtain ⟨e0, e1, e2⟩ := hP
  unfold execTokensUsedFrame done at h
  injection h with h
  subst h
  iterate 40 (try any_goals first | with_reducible assumption | with_reducible refine foot_finish e0 ?_ | with_reducible refine foot_acceptFrame n_die e1 ?_ ?_ | with_reducible refine foot_takeTokens n_die e2 ?_ | intro _)

def fp_effWarmTimeout : Print := .join
  [.reg R.FIL_EVENT,
   .reg R.FIL_WARM_STAT.TIMEOUT,
   fp_faultOn,
   fp_record]

theorem foot_effWarmTimeout {pr : Print} {z s : State} (hP : fp_effWarmTimeout.Sub pr) (hk : Within pr z s) :
    Within pr z (effWarmTimeout s) := by
  simp only [fp_effWarmTimeout, Print.join_cons, Print.join_nil, and_true] at hP
  obtain ⟨e0, e1, e2, e3⟩ := hP
  unfold effWarmTimeout
  iterate 40 (try any_goals first | with_reducible assumption | exact Print.has_reg e0 | exact Print.has_reg e1 | with_reducible apply Print.has_ite | with_reducible refine Within.put _ ?_ ?_ | with_reducible refine Within.event _ ?_ ?_ | with_reducible refine foot_faultOn e2 ?_ | with_reducible refine foot_record e3 ?_ | (dsimp only) | split)

def fp_execWarmTimeout : Print := .join
  [fp_finish,
   fp_effWarmTimeout]

theorem foot_execWarmTimeout {pr : Print} {z s t : State} (hP : fp_execWarmTimeout.Sub pr) (hk : Within pr z s)
    (h : execWarmTimeout s = .next t) : Within pr z t := by
  simp only [fp_execWarmTimeout, Print.join_cons, Print.join_nil, and_true] at hP
  obtain ⟨e0, e1⟩ := hP
  unfold execWarmTimeout done at h
  injection h with h
  subst h
  iterate 40 (try any_goals first | with_reducible assumption | with_reducible refine foot_finish e0 ?_ | with_reducible refine foot_effWarmTimeout e1 ?_)

def fp_execWarmupEnd : Print := .join
  [.reg R.FIL_WARM_STAT.STATE,
   .reg R.FIL_EVENT,
   .prt .boot,
   fp_finish,
   fp_command,
   fp_record,
   fp_complete]

theorem foot_execWarmupEnd {pr : Print} {z s t : State} {port : Nat} {tag : Nat} (hP : fp_execWarmupEnd.Sub pr) (hk : Within pr z s)
    (h : execWarmupEnd port tag s = .next t) : Within pr z t := by
  simp only [fp_execWarmupEnd, Print.join_cons, Print.join_nil, and_true] at hP
  obtain ⟨e0, e1, e2, e3, e4, e5, e6⟩ := hP
  unfold execWarmupEnd done at h
  injection h with h
  subst h
  iterate 40 (try any_goals first | with_reducible assumption | exact Print.has_reg e0 | exact Print.has_reg e1 | exact Print.has_prt e2 | with_reducible apply Print.has_ite | with_reducible refine Within.put _ ?_ ?_ | with_reducible refine Within.event _ ?_ ?_ | with_reducible refine foot_finish e3 ?_ | with_reducible refine foot_command e4 ?_ ?_ | with_reducible refine foot_record e5 ?_ | with_reducible refine foot_complete e6 ?_ | exact Or.inr (Print.has_prt (by assumption)) | with_reducible exact Or.inl rfl | intro _ | (dsimp only) | with_reducible apply Within.upd)

def fp_setCapp : Print := .join
  [.prt .capp]

theorem foot_setCapp {pr : Print} {z s : State} {v : CapP} (hP : fp_setCapp.Sub pr) (hk : Within pr z s) :
    Within pr z (setCapp v s) := by
  simp only [fp_setCapp, Print.join_cons, Print.join_nil, and_true] at hP
  have e0 := hP
  unfold setCapp
  iterate 40 (try any_goals first | with_reducible assumption | exact Print.has_prt e0 | exact Or.inr (Print.has_prt (by assumption)) | with_reducible exact Or.inl rfl | with_reducible apply Within.upd)

def fp_effBrownEnter : Print := .join
  [.reg R.CAP_BROWN_STAT.STATE,
   .reg R.CAP_EVENT,
   .reg R.CAP_BROWN_STAT.COUNT,
   fp_setCapp,
   fp_record,
   fp_countHealth (some 3),
   fp_notifyAll]

theorem foot_effBrownEnter {pr : Print} {z s : State} (hP : fp_effBrownEnter.Sub pr) (hk : Within pr z s) :
    Within pr z (effBrownEnter s) := by
  simp only [fp_effBrownEnter, Print.join_cons, Print.join_nil, and_true] at hP
  obtain ⟨e0, e1, e2, e3, e4, e5, e6⟩ := hP
  unfold effBrownEnter
  iterate 40 (try any_goals first | with_reducible assumption | exact Print.has_reg e0 | exact Print.has_reg e1 | exact Print.has_reg e2 | with_reducible apply Print.has_ite | with_reducible refine Within.put _ ?_ ?_ | with_reducible refine Within.event _ ?_ ?_ | with_reducible refine Within.addSat _ ?_ ?_ | with_reducible refine foot_setCapp e3 ?_ | with_reducible refine foot_record e4 ?_ | with_reducible refine foot_countHealth Names.one e5 ?_ | with_reducible refine foot_notifyAll e6 ?_ | with_reducible refine Within.each ?_ ?_ | exact Or.inr (Print.has_prt (by assumption)) | with_reducible exact Or.inl rfl | intro _ | (dsimp only) | split | with_reducible apply Within.upd)

def fp_execBrownEnter : Print := .join
  [fp_finish,
   fp_effBrownEnter]

theorem foot_execBrownEnter {pr : Print} {z s t : State} (hP : fp_execBrownEnter.Sub pr) (hk : Within pr z s)
    (h : execBrownEnter s = .next t) : Within pr z t := by
  simp only [fp_execBrownEnter, Print.join_cons, Print.join_nil, and_true] at hP
  obtain ⟨e0, e1⟩ := hP
  unfold execBrownEnter done at h
  injection h with h
  subst h
  iterate 40 (try any_goals first | with_reducible assumption | with_reducible refine foot_finish e0 ?_ | with_reducible refine foot_effBrownEnter e1 ?_)

def fp_effBrownExit : Print := .join
  [.reg R.CAP_BROWN_STAT.STATE,
   .reg R.CAP_EVENT,
   fp_setCapp,
   fp_record,
   fp_faultOff]

theorem foot_effBrownExit {pr : Print} {z s : State} (hP : fp_effBrownExit.Sub pr) (hk : Within pr z s) :
    Within pr z (effBrownExit s) := by
  simp only [fp_effBrownExit, Print.join_cons, Print.join_nil, and_true] at hP
  obtain ⟨e0, e1, e2, e3, e4⟩ := hP
  unfold effBrownExit
  iterate 40 (try any_goals first | with_reducible assumption | exact Print.has_reg e0 | exact Print.has_reg e1 | with_reducible apply Print.has_ite | with_reducible refine Within.put _ ?_ ?_ | with_reducible refine Within.event _ ?_ ?_ | with_reducible refine foot_setCapp e2 ?_ | with_reducible refine foot_record e3 ?_ | with_reducible refine foot_faultOff e4 ?_ | exact Or.inr (Print.has_prt (by assumption)) | with_reducible exact Or.inl rfl | (dsimp only) | split | with_reducible apply Within.upd)

def fp_execBrownExit : Print := .join
  [fp_finish,
   fp_effBrownExit]

theorem foot_execBrownExit {pr : Print} {z s t : State} (hP : fp_execBrownExit.Sub pr) (hk : Within pr z s)
    (h : execBrownExit s = .next t) : Within pr z t := by
  simp only [fp_execBrownExit, Print.join_cons, Print.join_nil, and_true] at hP
  obtain ⟨e0, e1⟩ := hP
  unfold execBrownExit done at h
  injection h with h
  subst h
  iterate 40 (try any_goals first | with_reducible assumption | with_reducible refine foot_finish e0 ?_ | with_reducible refine foot_effBrownExit e1 ?_)

def fp_effBrownExpired : Print := .join
  [.reg R.CAP_BROWN_STAT.STATE,
   .reg R.CAP_EVENT,
   fp_setCapp,
   fp_faultOn,
   fp_record]

theorem foot_effBrownExpired {pr : Print} {z s : State} (hP : fp_effBrownExpired.Sub pr) (hk : Within pr z s) :
    Within pr z (effBrownExpired s) := by
  simp only [fp_effBrownExpired, Print.join_cons, Print.join_nil, and_true] at hP
  obtain ⟨e0, e1, e2, e3, e4⟩ := hP
  unfold effBrownExpired
  iterate 40 (try any_goals first | with_reducible assumption | exact Print.has_reg e0 | exact Print.has_reg e1 | with_reducible apply Print.has_ite | with_reducible refine Within.put _ ?_ ?_ | with_reducible refine Within.event _ ?_ ?_ | with_reducible refine foot_setCapp e2 ?_ | with_reducible refine foot_faultOn e3 ?_ | with_reducible refine foot_record e4 ?_ | exact Or.inr (Print.has_prt (by assumption)) | with_reducible exact Or.inl rfl | (dsimp only) | split | with_reducible apply Within.upd)

def fp_execBrownExpired : Print := .join
  [fp_finish,
   fp_effBrownExpired]

theorem foot_execBrownExpired {pr : Print} {z s t : State} (hP : fp_execBrownExpired.Sub pr) (hk : Within pr z s)
    (h : execBrownExpired s = .next t) : Within pr z t := by
  simp only [fp_execBrownExpired, Print.join_cons, Print.join_nil, and_true] at hP
  obtain ⟨e0, e1⟩ := hP
  unfold execBrownExpired done at h
  injection h with h
  subst h
  iterate 40 (try any_goals first | with_reducible assumption | with_reducible refine foot_finish e0 ?_ | with_reducible refine foot_effBrownExpired e1 ?_)

def fp_effBrownReset : Print := .join
  [.reg R.CAP_EVENT,
   .prt .boot,
   fp_record]

theorem foot_effBrownReset {pr : Print} {z s : State} (hP : fp_effBrownReset.Sub pr) (hk : Within pr z s) :
    Within pr z (effBrownReset s) := by
  simp only [fp_effBrownReset, Print.join_cons, Print.join_nil, and_true] at hP
  obtain ⟨e0, e1, e2⟩ := hP
  unfold effBrownReset
  iterate 40 (try any_goals first | with_reducible assumption | exact Print.has_reg e0 | exact Print.has_prt e1 | with_reducible apply Print.has_ite | with_reducible refine Within.event _ ?_ ?_ | with_reducible refine foot_record e2 ?_ | exact Or.inr (Print.has_prt (by assumption)) | with_reducible exact Or.inl rfl | (dsimp only) | split | with_reducible apply Within.upd)

def fp_execBrownReset : Print := .join
  [fp_finish,
   fp_effBrownReset]

theorem foot_execBrownReset {pr : Print} {z s t : State} (hP : fp_execBrownReset.Sub pr) (hk : Within pr z s)
    (h : execBrownReset s = .next t) : Within pr z t := by
  simp only [fp_execBrownReset, Print.join_cons, Print.join_nil, and_true] at hP
  obtain ⟨e0, e1⟩ := hP
  unfold execBrownReset done at h
  injection h with h
  subst h
  iterate 40 (try any_goals first | with_reducible assumption | with_reducible refine foot_finish e0 ?_ | with_reducible refine foot_effBrownReset e1 ?_)

def fp_setChange (d : Option Nat) : Print := .join
  [.row Cell.cap d]

theorem foot_setChange {pr : Print} {z s : State} {d : Nat} {c : Nat} {o_d : Option Nat} (n_d : Names o_d d) (hP : (fp_setChange o_d).Sub pr) (hk : Within pr z s) :
    Within pr z (setChange d c s) := by
  simp only [fp_setChange, Print.join_cons, Print.join_nil, and_true] at hP
  have e0 := hP
  unfold setChange
  iterate 40 (try any_goals first | with_reducible assumption | with_reducible refine Within.setCap _ (Print.has_row rfl n_d e0) ?_ | exact Or.inr (Print.has_prt (by assumption)) | with_reducible exact Or.inl rfl | with_reducible apply Within.upd)

def fp_sendFrequency (d : Option Nat) : Print := .join
  [fp_setChange d,
   fp_sendMsg d]

theorem foot_sendFrequency {pr : Print} {z s : State} {d : Nat} {c : Nat} {o_d : Option Nat} (n_d : Names o_d d) (hP : (fp_sendFrequency o_d).Sub pr) (hk : Within pr z s) :
    Within pr z (sendFrequency d c s) := by
  simp only [fp_sendFrequency, Print.join_cons, Print.join_nil, and_true] at hP
  obtain ⟨e0, e1⟩ := hP
  unfold sendFrequency
  iterate 40 (try any_goals first | with_reducible assumption | with_reducible refine foot_setChange n_d e0 ?_ | with_reducible refine foot_sendMsg n_d e1 ?_ | (dsimp only))

def fp_beginChange (d : Option Nat) : Print := .join
  [.reg1 R.LPE_REF.TARGET d,
   fp_setChange d,
   fp_sendFrequency d]

theorem foot_beginChange {pr : Print} {z s : State} {d : Nat} {o_d : Option Nat} (n_d : Names o_d d) (hP : (fp_beginChange o_d).Sub pr) (hk : Within pr z s) :
    Within pr z (beginChange d s) := by
  simp only [fp_beginChange, Print.join_cons, Print.join_nil, and_true] at hP
  obtain ⟨e0, e1, e2⟩ := hP
  unfold beginChange
  iterate 40 (try any_goals first | with_reducible assumption | exact Print.has_reg1 n_d e0 | with_reducible apply Print.has_ite | with_reducible refine Within.put _ ?_ ?_ | with_reducible refine foot_setChange n_d e1 ?_ | with_reducible refine foot_sendFrequency n_d e2 ?_ | (dsimp only) | split)

def fp_startChange (d : Option Nat) : Print := .join
  [.reg1 R.CAP_DIE_OP.TGT d,
   .reg1 R.CAP_DIE_OP.CHG d,
   fp_setChange d,
   fp_beginChange d]

theorem foot_startChange {pr : Print} {z s : State} {d : Nat} {op : Nat} {up : Bool} {o_d : Option Nat} (n_d : Names o_d d) (hP : (fp_startChange o_d).Sub pr) (hk : Within pr z s) :
    Within pr z (startChange d op up s) := by
  simp only [fp_startChange, Print.join_cons, Print.join_nil, and_true] at hP
  obtain ⟨e0, e1, e2, e3⟩ := hP
  unfold startChange
  iterate 40 (try any_goals first | with_reducible assumption | exact Print.has_reg1 n_d e0 | exact Print.has_reg1 n_d e1 | with_reducible apply Print.has_ite | with_reducible refine Within.put _ ?_ ?_ | with_reducible refine foot_setChange n_d e2 ?_ | with_reducible refine foot_beginChange n_d e3 ?_ | (dsimp only) | split)

def fp_effOpFrequencySend (d : Option Nat) : Print := .join
  [fp_sendFrequency d]

theorem foot_effOpFrequencySend {pr : Print} {z s : State} {d : Nat} {o_d : Option Nat} (n_d : Names o_d d) (hP : (fp_effOpFrequencySend o_d).Sub pr) (hk : Within pr z s) :
    Within pr z (effOpFrequencySend d s) := by
  simp only [fp_effOpFrequencySend, Print.join_cons, Print.join_nil, and_true] at hP
  have e0 := hP
  unfold effOpFrequencySend
  iterate 40 (try any_goals first | with_reducible assumption | with_reducible refine foot_sendFrequency n_d e0 ?_ | split)

def fp_execOpFrequencySend (die : Option Nat) : Print := .join
  [fp_finish,
   fp_effOpFrequencySend die]

theorem foot_execOpFrequencySend {pr : Print} {z s t : State} {die : Nat} {o_die : Option Nat} (n_die : Names o_die die) (hP : (fp_execOpFrequencySend o_die).Sub pr) (hk : Within pr z s)
    (h : execOpFrequencySend die s = .next t) : Within pr z t := by
  simp only [fp_execOpFrequencySend, Print.join_cons, Print.join_nil, and_true] at hP
  obtain ⟨e0, e1⟩ := hP
  unfold execOpFrequencySend done at h
  injection h with h
  subst h
  iterate 40 (try any_goals first | with_reducible assumption | with_reducible refine foot_finish e0 ?_ | with_reducible refine foot_effOpFrequencySend n_die e1 ?_)

def fp_decideOp (d : Option Nat) : Print := .join
  [.row Cell.cap d,
   fp_startChange d,
   fp_showReasons d]

theorem foot_decideOp {pr : Print} {z s : State} {d : Nat} {o_d : Option Nat} (n_d : Names o_d d) (hP : (fp_decideOp o_d).Sub pr) (hk : Within pr z s) :
    Within pr z (decideOp d s) := by
  simp only [fp_decideOp, Print.join_cons, Print.join_nil, and_true] at hP
  obtain ⟨e0, e1, e2⟩ := hP
  unfold decideOp
  iterate 40 (try any_goals first | with_reducible assumption | with_reducible refine Within.setCap _ (Print.has_row rfl n_d e0) ?_ | with_reducible refine foot_startChange n_d e1 ?_ | with_reducible refine foot_showReasons n_d e2 ?_ | with_reducible refine Within.when ?_ ?_ | exact Or.inr (Print.has_prt (by assumption)) | with_reducible exact Or.inl rfl | intro _ | (dsimp only) | split | with_reducible apply Within.upd)

def fp_takeOwed (d : Option Nat) : Print := .join
  [.row Cell.cap d,
   fp_decideOp d]

theorem foot_takeOwed {pr : Print} {z s : State} {d : Nat} {o_d : Option Nat} (n_d : Names o_d d) (hP : (fp_takeOwed o_d).Sub pr) (hk : Within pr z s) :
    Within pr z (takeOwed d s) := by
  simp only [fp_takeOwed, Print.join_cons, Print.join_nil, and_true] at hP
  obtain ⟨e0, e1⟩ := hP
  unfold takeOwed
  iterate 40 (try any_goals first | with_reducible assumption | with_reducible refine Within.setCap _ (Print.has_row rfl n_d e0) ?_ | with_reducible refine foot_decideOp n_d e1 ?_ | with_reducible refine Within.when ?_ ?_ | exact Or.inr (Print.has_prt (by assumption)) | with_reducible exact Or.inl rfl | intro _ | (dsimp only) | with_reducible apply Within.upd)

def fp_effOpChange (d : Option Nat) : Print := .join
  [.reg1 R.LPE_REF.TARGET d,
   .reg1 R.CAP_DIE_OP.CUR d,
   .reg1 R.CAP_DIE_OP.CHG d,
   .reg R.CAP_EVENT,
   fp_setChange d,
   fp_showReasons d,
   fp_takeOwed d]

theorem foot_effOpChange {pr : Print} {z s : State} {d : Nat} {o_d : Option Nat} (n_d : Names o_d d) (hP : (fp_effOpChange o_d).Sub pr) (hk : Within pr z s) :
    Within pr z (effOpChange d s) := by
  simp only [fp_effOpChange, Print.join_cons, Print.join_nil, and_true] at hP
  obtain ⟨e0, e1, e2, e3, e4, e5, e6⟩ := hP
  unfold effOpChange
  iterate 40 (try any_goals first | with_reducible assumption | exact Print.has_reg1 n_d e0 | exact Print.has_reg1 n_d e1 | exact Print.has_reg1 n_d e2 | exact Print.has_reg e3 | with_reducible apply Print.has_ite | with_reducible refine Within.put _ ?_ ?_ | with_reducible refine Within.event _ ?_ ?_ | with_reducible refine foot_setChange n_d e4 ?_ | with_reducible refine foot_showReasons n_d e5 ?_ | with_reducible refine foot_takeOwed n_d e6 ?_ | with_reducible refine Within.when ?_ ?_ | intro _ | (dsimp only) | split)

def fp_execOpChange (die : Option Nat) : Print := .join
  [fp_finish,
   fp_acceptFrame die,
   fp_effOpChange die]

theorem foot_execOpChange {pr : Print} {z s t : State} {die : Nat} {frame : Frame} {o_die : Option Nat} (n_die : Names o_die die) (hP : (fp_execOpChange o_die).Sub pr) (hk : Within pr z s)
    (h : execOpChange ⟨die, frame⟩ s = .next t) : Within pr z t := by
  simp only [fp_execOpChange, Print.join_cons, Print.join_nil, and_true] at hP
  obtain ⟨e0, e1, e2⟩ := hP
  unfold execOpChange done at h
  injection h with h
  subst h
  iterate 40 (try any_goals first | with_reducible assumption | with_reducible refine foot_finish e0 ?_ | with_reducible refine foot_acceptFrame n_die e1 ?_ ?_ | with_reducible refine foot_effOpChange n_die e2 ?_ | intro _)

def fp_divideEnergy (d : Option Nat) : Print := .join
  [.row Cell.cap d,
   .reg1 R.CAP_E_QG.ENERGY none]

theorem foot_divideEnergy {pr : Print} {z s : State} {d : Nat} {o_d : Option Nat} (n_d : Names o_d d) (hP : (fp_divideEnergy o_d).Sub pr) (hk : Within pr z s) :
    Within pr z (divideEnergy d s) := by
  simp only [fp_divideEnergy, Print.join_cons, Print.join_nil, and_true] at hP
  obtain ⟨e0, e1⟩ := hP
  unfold divideEnergy
  iterate 40 (try any_goals first | with_reducible assumption | with_reducible refine Within.setCap _ (Print.has_row rfl n_d e0) ?_ | exact Print.has_reg1 Names.any e1 | with_reducible apply Print.has_ite | with_reducible refine Within.addWrap _ ?_ ?_ | with_reducible refine Within.each ?_ ?_ | with_reducible refine Within.fold ?_ ?_ | exact Or.inr (Print.has_prt (by assumption)) | with_reducible exact Or.inl rfl | intro _ | (dsimp only) | split | with_reducible apply Within.upd)

def fp_tickOp (d : Option Nat) : Print := .join
  [.row Cell.cap d,
   fp_beginChange d,
   fp_decideOp d]

theorem foot_tickOp {pr : Print} {z s : State} {d : Nat} {o_d : Option Nat} (n_d : Names o_d d) (hP : (fp_tickOp o_d).Sub pr) (hk : Within pr z s) :
    Within pr z (tickOp d s) := by
  simp only [fp_tickOp, Print.join_cons, Print.join_nil, and_true] at hP
  obtain ⟨e0, e1, e2⟩ := hP
  unfold tickOp
  iterate 40 (try any_goals first | with_reducible assumption | with_reducible refine Within.setCap _ (Print.has_row rfl n_d e0) ?_ | with_reducible refine foot_beginChange n_d e1 ?_ | with_reducible refine foot_decideOp n_d e2 ?_ | exact Or.inr (Print.has_prt (by assumption)) | with_reducible exact Or.inl rfl | (dsimp only) | with_reducible apply Within.upd)

def fp_formMeans : Print := .join
  [.row Cell.cap none,
   fp_setCapp]

theorem foot_formMeans {pr : Print} {z s : State} (hP : fp_formMeans.Sub pr) (hk : Within pr z s) :
    Within pr z (formMeans s) := by
  simp only [fp_formMeans, Print.join_cons, Print.join_nil, and_true] at hP
  obtain ⟨e0, e1⟩ := hP
  unfold formMeans
  iterate 40 (try any_goals first | with_reducible assumption | with_reducible refine Within.setCap _ (Print.has_row rfl Names.any e0) ?_ | with_reducible refine foot_setCapp e1 ?_ | with_reducible refine Within.each ?_ ?_ | exact Or.inr (Print.has_prt (by assumption)) | with_reducible exact Or.inl rfl | intro _ | (dsimp only) | split | with_reducible apply Within.upd)

def fp_formAverage : Print := .join
  [.reg R.CAP_PKG_PAVG.P,
   fp_setCapp]

theorem foot_formAverage {pr : Print} {z s : State} (hP : fp_formAverage.Sub pr) (hk : Within pr z s) :
    Within pr z (formAverage s) := by
  simp only [fp_formAverage, Print.join_cons, Print.join_nil, and_true] at hP
  obtain ⟨e0, e1⟩ := hP
  unfold formAverage
  iterate 40 (try any_goals first | with_reducible assumption | exact Print.has_reg e0 | with_reducible apply Print.has_ite | with_reducible refine Within.put _ ?_ ?_ | with_reducible refine foot_setCapp e1 ?_ | exact Or.inr (Print.has_prt (by assumption)) | with_reducible exact Or.inl rfl | (dsimp only) | with_reducible apply Within.upd)

def fp_judgeCap : Print := .join
  [.reg R.CAP_EVENT,
   fp_setCapp,
   fp_recordDie,
   fp_record]

theorem foot_judgeCap {pr : Print} {z s : State} {scope : Nat} {d : Nat} (hP : fp_judgeCap.Sub pr) (hk : Within pr z s) :
    Within pr z (judgeCap scope d s) := by
  simp only [fp_judgeCap, Print.join_cons, Print.join_nil, and_true] at hP
  obtain ⟨e0, e1, e2, e3⟩ := hP
  unfold judgeCap
  iterate 40 (try any_goals first | with_reducible assumption | exact Print.has_reg e0 | with_reducible apply Print.has_ite | with_reducible refine Within.event _ ?_ ?_ | with_reducible refine foot_setCapp e1 ?_ | with_reducible refine foot_recordDie e2 ?_ | with_reducible refine foot_record e3 ?_ | exact Or.inr (Print.has_prt (by assumption)) | with_reducible exact Or.inl rfl | (dsimp only) | split | with_reducible apply Within.upd)

def fp_effAverageUpdate : Print := .join
  [.row Cell.tok none,
   .prt .recov,
   fp_formMeans,
   fp_formAverage,
   fp_setCapp,
   fp_judgeCap,
   fp_tickOp none,
   fp_divideEnergy none,
   fp_showReasons none]

theorem foot_effAverageUpdate {pr : Print} {z s : State} (hP : fp_effAverageUpdate.Sub pr) (hk : Within pr z s) :
    Within pr z (effAverageUpdate s) := by
  simp only [fp_effAverageUpdate, Print.join_cons, Print.join_nil, and_true] at hP
  obtain ⟨e0, e1, e2, e3, e4, e5, e6, hP⟩ := hP
  obtain ⟨e7, e8⟩ := hP
  unfold effAverageUpdate
  iterate 40 (try any_goals first | with_reducible assumption | with_reducible refine Within.setTok _ (Print.has_row rfl Names.any e0) ?_ | exact Print.has_prt e1 | with_reducible refine foot_formMeans e2 ?_ | with_reducible refine foot_formAverage e3 ?_ | with_reducible refine foot_setCapp e4 ?_ | with_reducible refine foot_judgeCap e5 ?_ | with_reducible refine foot_tickOp Names.any e6 ?_ | with_reducible refine foot_divideEnergy Names.any e7 ?_ | with_reducible refine foot_showReasons Names.any e8 ?_ | with_reducible refine Within.each ?_ ?_ | exact Or.inr (Print.has_prt (by assumption)) | with_reducible exact Or.inl rfl | intro _ | (dsimp only) | split | with_reducible apply Within.upd)

def fp_execAverageUpdate : Print := .join
  [fp_finish,
   fp_effAverageUpdate]

theorem foot_execAverageUpdate {pr : Print} {z s t : State} (hP : fp_execAverageUpdate.Sub pr) (hk : Within pr z s)
    (h : execAverageUpdate s = .next t) : Within pr z t := by
  simp only [fp_execAverageUpdate, Print.join_cons, Print.join_nil, and_true] at hP
  obtain ⟨e0, e1⟩ := hP
  unfold execAverageUpdate done at h
  injection h with h
  subst h
  iterate 40 (try any_goals first | with_reducible assumption | with_reducible refine foot_finish e0 ?_ | with_reducible refine foot_effAverageUpdate e1 ?_)

def fp_execCapSetDone : Print := .join
  [fp_finish,
   fp_completeAt,
   fp_setCapp]

theorem foot_execCapSetDone {pr : Print} {z s t : State} (hP : fp_execCapSetDone.Sub pr) (hk : Within pr z s)
    (h : execCapSetDone s = .next t) : Within pr z t := by
  simp only [fp_execCapSetDone, Print.join_cons, Print.join_nil, and_true] at hP
  obtain ⟨e0, e1, e2⟩ := hP
  unfold execCapSetDone done at h
  injection h with h
  subst h
  iterate 40 (try any_goals first | with_reducible assumption | with_reducible refine foot_finish e0 ?_ | with_reducible refine foot_completeAt e1 ?_ | with_reducible refine foot_setCapp e2 ?_ | with_reducible refine Within.each ?_ ?_ | exact Or.inr (Print.has_prt (by assumption)) | with_reducible exact Or.inl rfl | intro _ | (dsimp only) | split | with_reducible apply Within.upd)

def fp_applyCap : Print := .join
  [fp_completeAt,
   fp_setCapp]

theorem foot_applyCap {pr : Print} {z s : State} {scope : Nat} {d : Nat} {v : Nat} {port : Nat} {tag : Nat} (hP : fp_applyCap.Sub pr) (hk : Within pr z s) :
    Within pr z (applyCap scope d v port tag s) := by
  simp only [fp_applyCap, Print.join_cons, Print.join_nil, and_true] at hP
  obtain ⟨e0, e1⟩ := hP
  unfold applyCap
  iterate 40 (try any_goals first | with_reducible assumption | with_reducible refine foot_completeAt e0 ?_ | with_reducible refine foot_setCapp e1 ?_ | with_reducible refine Within.each ?_ ?_ | exact Or.inr (Print.has_prt (by assumption)) | with_reducible exact Or.inl rfl | intro _ | (dsimp only) | split | with_reducible apply Within.upd)

def fp_installTable (d : Option Nat) : Print := .join
  [.reg1 R.CAP_OPT.V none,
   .reg1 R.CAP_OPT.F none,
   .reg1 R.CAP_DIE_OP.N_OP d,
   .reg1 R.CAP_DIE_OP.MIN d,
   .reg1 R.CAP_DIE_OP.MAX d,
   fp_startChange d]

theorem foot_installTable {pr : Print} {z s : State} {w : List Nat} {n : Nat} {d : Nat} {o_d : Option Nat} (n_d : Names o_d d) (hP : (fp_installTable o_d).Sub pr) (hk : Within pr z s) :
    Within pr z (installTable w n d s) := by
  simp only [fp_installTable, Print.join_cons, Print.join_nil, and_true] at hP
  obtain ⟨e0, e1, e2, e3, e4, e5⟩ := hP
  unfold installTable
  iterate 40 (try any_goals first | with_reducible assumption | exact Print.has_reg1 Names.any e0 | exact Print.has_reg1 Names.any e1 | exact Print.has_reg1 n_d e2 | exact Print.has_reg1 n_d e3 | exact Print.has_reg1 n_d e4 | with_reducible apply Print.has_ite | with_reducible refine Within.put _ ?_ ?_ | with_reducible refine foot_startChange n_d e5 ?_ | with_reducible refine Within.each ?_ ?_ | intro _ | (dsimp only))

def fp_applyChange : Print := .join
  [.reg R.CAP_RING.BUDGET,
   .reg R.RNG_BUDGET.INFORCE,
   .reg R.RNG_BUDGET.PENDING,
   .reg R.CAP_PKG_CAP.CAP,
   .reg1 R.CAP_DIE_CAP.CAP none,
   .reg R.CAP_AVG_LIM.LIM,
   .reg1 R.CAP_DIE_OP.MIN none,
   .reg1 R.CAP_DIE_OP.MAX none,
   .reg R.CAP_MODE.MODE,
   .reg R.CAP_MODE.OP_FIX,
   .reg1 R.CAP_HINT.OP none,
   .reg1 R.CAP_HINT.CEIL none,
   .reg R.CAP_CLASS.ORDER,
   .reg R.CAP_CLASS_FLOOR.COMP,
   .reg R.CAP_CLASS_FLOOR.MEM,
   .reg R.CAP_CLASS_FLOOR.LINK,
   .reg1 R.CAP_DIE_FP.TARGET none,
   fp_completeAt,
   fp_bumpGen,
   fp_setRing,
   fp_applyCap,
   fp_installTable none]

theorem foot_applyChange {pr : Print} {z s : State} {c : Deferred} (hP : fp_applyChange.Sub pr) (hk : Within pr z s) :
    Within pr z (applyChange c s) := by
  simp only [fp_applyChange, Print.join_cons, Print.join_nil, and_true] at hP
  obtain ⟨e0, e1, e2, e3, e4, e5, e6, hP⟩ := hP
  obtain ⟨e7, e8, e9, e10, e11, e12, e13, hP⟩ := hP
  obtain ⟨e14, e15, e16, e17, e18, e19, e20, e21⟩ := hP
  unfold applyChange
  iterate 40 (try any_goals first | with_reducible assumption | exact Print.has_reg e0 | exact Print.has_reg e1 | exact Print.has_reg e2 | exact Print.has_reg e3 | exact Print.has_reg1 Names.any e4 | exact Print.has_reg e5 | exact Print.has_reg1 Names.any e6 | exact Print.has_reg1 Names.any e7 | exact Print.has_reg e8 | exact Print.has_reg e9 | exact Print.has_reg1 Names.any e10 | exact Print.has_reg1 Names.any e11 | exact Print.has_reg e12 | exact Print.has_reg e13 | exact Print.has_reg e14 | exact Print.has_reg e15 | exact Print.has_reg1 Names.any e16 | with_reducible apply Print.has_ite | with_reducible refine Within.put _ ?_ ?_ | with_reducible refine foot_completeAt e17 ?_ | with_reducible refine foot_bumpGen e18 ?_ | with_reducible refine foot_setRing e19 ?_ | with_reducible refine foot_applyCap e20 ?_ | with_reducible refine foot_installTable Names.any e21 ?_ | with_reducible refine Within.each ?_ ?_ | exact Or.inr (Print.has_prt (by assumption)) | with_reducible exact Or.inl rfl | intro _ | (dsimp only) | split | with_reducible apply Within.upd)

def fp_acceptChange : Print := .join
  [.reg R.RNG_BUDGET.PENDING,
   fp_completeAt,
   fp_setCapp,
   fp_markStarted,
   fp_applyChange]

theorem foot_acceptChange {pr : Print} {z s : State} {c : Deferred} (hP : fp_acceptChange.Sub pr) (hk : Within pr z s) :
    Within pr z (acceptChange c s) := by
  simp only [fp_acceptChange, Print.join_cons, Print.join_nil, and_true] at hP
  obtain ⟨e0, e1, e2, e3, e4⟩ := hP
  unfold acceptChange
  iterate 40 (try any_goals first | with_reducible assumption | exact Print.has_reg e0 | with_reducible apply Print.has_ite | with_reducible refine Within.put _ ?_ ?_ | with_reducible refine foot_completeAt e1 ?_ | with_reducible refine foot_setCapp e2 ?_ | with_reducible refine foot_markStarted e3 ?_ | with_reducible refine foot_applyChange e4 ?_ | with_reducible refine Within.when ?_ ?_ | exact Or.inr (Print.has_prt (by assumption)) | with_reducible exact Or.inl rfl | intro _ | (dsimp only) | split | with_reducible apply Within.upd)

def fp_releaseChanges : Print := .join
  [fp_applyChange,
   fp_setCapp]

theorem foot_releaseChanges {pr : Print} {z s : State} {t : Deferred → Bool} (hP : fp_releaseChanges.Sub pr) (hk : Within pr z s) :
    Within pr z (releaseChanges t s) := by
  simp only [fp_releaseChanges, Print.join_cons, Print.join_nil, and_true] at hP
  obtain ⟨e0, e1⟩ := hP
  unfold releaseChanges
  iterate 40 (try any_goals first | with_reducible assumption | with_reducible refine foot_applyChange e0 ?_ | with_reducible refine foot_setCapp e1 ?_ | with_reducible refine Within.each ?_ ?_ | exact Or.inr (Print.has_prt (by assumption)) | with_reducible exact Or.inl rfl | intro _ | (dsimp only) | with_reducible apply Within.upd)

def fp_execDeferredApply : Print := .join
  [fp_finish,
   fp_releaseChanges]

theorem foot_execDeferredApply {pr : Print} {z s t : State} (hP : fp_execDeferredApply.Sub pr) (hk : Within pr z s)
    (h : execDeferredApply s = .next t) : Within pr z t := by
  simp only [fp_execDeferredApply, Print.join_cons, Print.join_nil, and_true] at hP
  obtain ⟨e0, e1⟩ := hP
  unfold execDeferredApply done at h
  injection h with h
  subst h
  iterate 40 (try any_goals first | with_reducible assumption | with_reducible refine foot_finish e0 ?_ | with_reducible refine foot_releaseChanges e1 ?_ | intro _ | (dsimp only))

def fp_effDeferMax : Print := .join
  [.reg R.CAP_EVENT,
   fp_releaseChanges]

theorem foot_effDeferMax {pr : Print} {z s : State} (hP : fp_effDeferMax.Sub pr) (hk : Within pr z s) :
    Within pr z (effDeferMax s) := by
  simp only [fp_effDeferMax, Print.join_cons, Print.join_nil, and_true] at hP
  obtain ⟨e0, e1⟩ := hP
  unfold effDeferMax
  iterate 40 (try any_goals first | with_reducible assumption | exact Print.has_reg e0 | with_reducible apply Print.has_ite | with_reducible refine Within.event _ ?_ ?_ | with_reducible refine foot_releaseChanges e1 ?_ | with_reducible refine Within.fold ?_ ?_ | intro _ | (dsimp only) | split)

def fp_execDeferMax : Print := .join
  [fp_finish,
   fp_effDeferMax]

theorem foot_execDeferMax {pr : Print} {z s t : State} (hP : fp_execDeferMax.Sub pr) (hk : Within pr z s)
    (h : execDeferMax s = .next t) : Within pr z t := by
  simp only [fp_execDeferMax, Print.join_cons, Print.join_nil, and_true] at hP
  obtain ⟨e0, e1⟩ := hP
  unfold execDeferMax done at h
  injection h with h
  subst h
  iterate 40 (try any_goals first | with_reducible assumption | with_reducible refine foot_finish e0 ?_ | with_reducible refine foot_effDeferMax e1 ?_)

def fp_effLRingApply : Print := .join
  [fp_setRing,
   fp_acceptChange]

theorem foot_effLRingApply {pr : Print} {z s : State} (hP : fp_effLRingApply.Sub pr) (hk : Within pr z s) :
    Within pr z (effLRingApply s) := by
  simp only [fp_effLRingApply, Print.join_cons, Print.join_nil, and_true] at hP
  obtain ⟨e0, e1⟩ := hP
  unfold effLRingApply
  iterate 40 (try any_goals first | with_reducible assumption | with_reducible refine foot_setRing e0 ?_ | with_reducible refine foot_acceptChange e1 ?_ | exact Or.inr (Print.has_prt (by assumption)) | with_reducible exact Or.inl rfl | (dsimp only) | split | with_reducible apply Within.upd)

def fp_execLRingApply : Print := .join
  [fp_finish,
   fp_effLRingApply]

theorem foot_execLRingApply {pr : Print} {z s t : State} (hP : fp_execLRingApply.Sub pr) (hk : Within pr z s)
    (h : execLRingApply s = .next t) : Within pr z t := by
  simp only [fp_execLRingApply, Print.join_cons, Print.join_nil, and_true] at hP
  obtain ⟨e0, e1⟩ := hP
  unfold execLRingApply done at h
  injection h with h
  subst h
  iterate 40 (try any_goals first | with_reducible assumption | with_reducible refine foot_finish e0 ?_ | with_reducible refine foot_effLRingApply e1 ?_)

def fp_execCapSet : Print := .join
  [fp_finish,
   fp_command,
   fp_acceptChange]

theorem foot_execCapSet {pr : Print} {z s t : State} {port : Nat} {tag : Nat} (hP : fp_execCapSet.Sub pr) (hk : Within pr z s)
    (h : execCapSet port tag s = .next t) : Within pr z t := by
  simp only [fp_execCapSet, Print.join_cons, Print.join_nil, and_true] at hP
  obtain ⟨e0, e1, e2⟩ := hP
  unfold execCapSet done at h
  injection h with h
  subst h
  iterate 40 (try any_goals first | with_reducible assumption | with_reducible refine foot_finish e0 ?_ | with_reducible refine foot_command e1 ?_ ?_ | with_reducible refine foot_acceptChange e2 ?_ | intro _ | (dsimp only) | split)

def fp_execOpTableSet : Print := .join
  [fp_finish,
   fp_command,
   fp_acceptChange]

theorem foot_execOpTableSet {pr : Print} {z s t : State} {port : Nat} {tag : Nat} (hP : fp_execOpTableSet.Sub pr) (hk : Within pr z s)
    (h : execOpTableSet port tag s = .next t) : Within pr z t := by
  simp only [fp_execOpTableSet, Print.join_cons, Print.join_nil, and_true] at hP
  obtain ⟨e0, e1, e2⟩ := hP
  unfold execOpTableSet done at h
  injection h with h
  subst h
  iterate 40 (try any_goals first | with_reducible assumption | with_reducible refine foot_finish e0 ?_ | with_reducible refine foot_command e1 ?_ ?_ | with_reducible refine foot_acceptChange e2 ?_ | intro _ | (dsimp only))

def fp_execOpLimit : Print := .join
  [fp_finish,
   fp_command,
   fp_acceptChange]

theorem foot_execOpLimit {pr : Print} {z s t : State} {port : Nat} {tag : Nat} (hP : fp_execOpLimit.Sub pr) (hk : Within pr z s)
    (h : execOpLimit port tag s = .next t) : Within pr z t := by
  simp only [fp_execOpLimit, Print.join_cons, Print.join_nil, and_true] at hP
  obtain ⟨e0, e1, e2⟩ := hP
  unfold execOpLimit done at h
  injection h with h
  subst h
  iterate 40 (try any_goals first | with_reducible assumption | with_reducible refine foot_finish e0 ?_ | with_reducible refine foot_command e1 ?_ ?_ | with_reducible refine foot_acceptChange e2 ?_ | intro _ | (dsimp only))

def fp_execModeSet : Print := .join
  [fp_finish,
   fp_command,
   fp_acceptChange]

theorem foot_execModeSet {pr : Print} {z s t : State} {port : Nat} {tag : Nat} (hP : fp_execModeSet.Sub pr) (hk : Within pr z s)
    (h : execModeSet port tag s = .next t) : Within pr z t := by
  simp only [fp_execModeSet, Print.join_cons, Print.join_nil, and_true] at hP
  obtain ⟨e0, e1, e2⟩ := hP
  unfold execModeSet done at h
  injection h with h
  subst h
  iterate 40 (try any_goals first | with_reducible assumption | with_reducible refine foot_finish e0 ?_ | with_reducible refine foot_command e1 ?_ ?_ | with_reducible refine foot_acceptChange e2 ?_ | intro _ | (dsimp only))

def fp_execHintSet : Print := .join
  [fp_finish,
   fp_command,
   fp_acceptChange]

theorem foot_execHintSet {pr : Print} {z s t : State} {port : Nat} {tag : Nat} (hP : fp_execHintSet.Sub pr) (hk : Within pr z s)
    (h : execHintSet port tag s = .next t) : Within pr z t := by
  simp only [fp_execHintSet, Print.join_cons, Print.join_nil, and_true] at hP
  obtain ⟨e0, e1, e2⟩ := hP
  unfold execHintSet done at h
  injection h with h
  subst h
  iterate 40 (try any_goals first | with_reducible assumption | with_reducible refine foot_finish e0 ?_ | with_reducible refine foot_command e1 ?_ ?_ | with_reducible refine foot_acceptChange e2 ?_ | intro _ | (dsimp only))

def fp_execClassSet : Print := .join
  [fp_finish,
   fp_command,
   fp_acceptChange]

theorem foot_execClassSet {pr : Print} {z s t : State} {port : Nat} {tag : Nat} (hP : fp_execClassSet.Sub pr) (hk : Within pr z s)
    (h : execClassSet port tag s = .next t) : Within pr z t := by
  simp only [fp_execClassSet, Print.join_cons, Print.join_nil, and_true] at hP
  obtain ⟨e0, e1, e2⟩ := hP
  unfold execClassSet done at h
  injection h with h
  subst h
  iterate 40 (try any_goals first | with_reducible assumption | with_reducible refine foot_finish e0 ?_ | with_reducible refine foot_command e1 ?_ ?_ | with_reducible refine foot_acceptChange e2 ?_ | intro _ | (dsimp only))

def fp_execFpTarget : Print := .join
  [fp_finish,
   fp_command,
   fp_acceptChange]

theorem foot_execFpTarget {pr : Print} {z s t : State} {port : Nat} {tag : Nat} (hP : fp_execFpTarget.Sub pr) (hk : Within pr z s)
    (h : execFpTarget port tag s = .next t) : Within pr z t := by
  simp only [fp_execFpTarget, Print.join_cons, Print.join_nil, and_true] at hP
  obtain ⟨e0, e1, e2⟩ := hP
  unfold execFpTarget done at h
  injection h with h
  subst h
  iterate 40 (try any_goals first | with_reducible assumption | with_reducible refine foot_finish e0 ?_ | with_reducible refine foot_command e1 ?_ ?_ | with_reducible refine foot_acceptChange e2 ?_ | intro _ | (dsimp only))

def fp_effLaneLoss (d : Option Nat) : Print := .join
  [.row Cell.link d,
   fp_agentTells d,
   fp_recordDie]

theorem foot_effLaneLoss {pr : Print} {z s : State} {d : Nat} {lane : Nat} {o_d : Option Nat} (n_d : Names o_d d) (hP : (fp_effLaneLoss o_d).Sub pr) (hk : Within pr z s) :
    Within pr z (effLaneLoss d lane s) := by
  simp only [fp_effLaneLoss, Print.join_cons, Print.join_nil, and_true] at hP
  obtain ⟨e0, e1, e2⟩ := hP
  unfold effLaneLoss
  iterate 40 (try any_goals first | with_reducible assumption | with_reducible refine Within.setLink _ (Print.has_row rfl n_d e0) ?_ | with_reducible refine foot_agentTells n_d e1 ?_ | with_reducible refine foot_recordDie e2 ?_ | exact Or.inr (Print.has_prt (by assumption)) | with_reducible exact Or.inl rfl | (dsimp only) | split | with_reducible apply Within.upd)

def fp_execLaneLoss (die : Option Nat) : Print := .join
  [fp_finish,
   fp_effLaneLoss die]

theorem foot_execLaneLoss {pr : Print} {z s t : State} {die : Nat} {lane : Nat} {o_die : Option Nat} (n_die : Names o_die die) (hP : (fp_execLaneLoss o_die).Sub pr) (hk : Within pr z s)
    (h : execLaneLoss die lane s = .next t) : Within pr z t := by
  simp only [fp_execLaneLoss, Print.join_cons, Print.join_nil, and_true] at hP
  obtain ⟨e0, e1⟩ := hP
  unfold execLaneLoss done at h
  injection h with h
  subst h
  iterate 40 (try any_goals first | with_reducible assumption | with_reducible refine foot_finish e0 ?_ | with_reducible refine foot_effLaneLoss n_die e1 ?_)

def fp_execLaneRetrain : Print := .join
  [fp_finish]

theorem foot_execLaneRetrain {pr : Print} {z s t : State} {x_die : Nat} {x_lane : Nat} (hP : fp_execLaneRetrain.Sub pr) (hk : Within pr z s)
    (h : execLaneRetrain x_die x_lane s = .next t) : Within pr z t := by
  simp only [fp_execLaneRetrain, Print.join_cons, Print.join_nil, and_true] at hP
  have e0 := hP
  unfold execLaneRetrain done at h
  injection h with h
  subst h
  iterate 40 (try any_goals first | with_reducible assumption | with_reducible refine foot_finish e0 ?_)

def fp_effLaneRestore (d : Option Nat) : Print := .join
  [.row Cell.link d]

theorem foot_effLaneRestore {pr : Print} {z s : State} {d : Nat} {lane : Nat} {o_d : Option Nat} (n_d : Names o_d d) (hP : (fp_effLaneRestore o_d).Sub pr) (hk : Within pr z s) :
    Within pr z (effLaneRestore d lane s) := by
  simp only [fp_effLaneRestore, Print.join_cons, Print.join_nil, and_true] at hP
  have e0 := hP
  unfold effLaneRestore
  iterate 40 (try any_goals first | with_reducible assumption | with_reducible refine Within.setLink _ (Print.has_row rfl n_d e0) ?_ | exact Or.inr (Print.has_prt (by assumption)) | with_reducible exact Or.inl rfl | (dsimp only) | split | with_reducible apply Within.upd)

def fp_execLaneRestore (die : Option Nat) : Print := .join
  [fp_finish,
   fp_effLaneRestore die]

theorem foot_execLaneRestore {pr : Print} {z s t : State} {die : Nat} {lane : Nat} {o_die : Option Nat} (n_die : Names o_die die) (hP : (fp_execLaneRestore o_die).Sub pr) (hk : Within pr z s)
    (h : execLaneRestore die lane s = .next t) : Within pr z t := by
  simp only [fp_execLaneRestore, Print.join_cons, Print.join_nil, and_true] at hP
  obtain ⟨e0, e1⟩ := hP
  unfold execLaneRestore done at h
  injection h with h
  subst h
  iterate 40 (try any_goals first | with_reducible assumption | with_reducible refine foot_finish e0 ?_ | with_reducible refine foot_effLaneRestore n_die e1 ?_)

def fp_effLinkLost (d : Option Nat) : Print := .join
  [.row Cell.link d,
   .reg1 R.THM_DIE_STAT.STALE d,
   fp_recordDie,
   fp_showEmpty d,
   fp_abortLoad,
   fp_refit d]

theorem foot_effLinkLost {pr : Print} {z s : State} {d : Nat} {o_d : Option Nat} (n_d : Names o_d d) (hP : (fp_effLinkLost o_d).Sub pr) (hk : Within pr z s) :
    Within pr z (effLinkLost d s) := by
  simp only [fp_effLinkLost, Print.join_cons, Print.join_nil, and_true] at hP
  obtain ⟨e0, e1, e2, e3, e4, e5⟩ := hP
  unfold effLinkLost
  iterate 40 (try any_goals first | with_reducible assumption | with_reducible refine Within.setLink _ (Print.has_row rfl n_d e0) ?_ | exact Print.has_reg1 n_d e1 | with_reducible apply Print.has_ite | with_reducible refine Within.put _ ?_ ?_ | with_reducible refine foot_recordDie e2 ?_ | with_reducible refine foot_showEmpty n_d e3 ?_ | with_reducible refine foot_abortLoad e4 ?_ | with_reducible refine foot_refit n_d e5 ?_ | exact Or.inr (Print.has_prt (by assumption)) | with_reducible exact Or.inl rfl | intro _ | (dsimp only) | split | with_reducible apply Within.upd)

def fp_execLinkLost (die : Option Nat) : Print := .join
  [fp_finish,
   fp_effLinkLost die]

theorem foot_execLinkLost {pr : Print} {z s t : State} {die : Nat} {o_die : Option Nat} (n_die : Names o_die die) (hP : (fp_execLinkLost o_die).Sub pr) (hk : Within pr z s)
    (h : execLinkLost die s = .next t) : Within pr z t := by
  simp only [fp_execLinkLost, Print.join_cons, Print.join_nil, and_true] at hP
  obtain ⟨e0, e1⟩ := hP
  unfold execLinkLost done at h
  injection h with h
  subst h
  iterate 40 (try any_goals first | with_reducible assumption | with_reducible refine foot_finish e0 ?_ | with_reducible refine foot_effLinkLost n_die e1 ?_)

def fp_refreshSlot (d : Option Nat) : Print := .join
  [.reg1 R.TOK_DIE_STAT.ZERO d,
   .reg1 R.FIL_DIE_STAT.EPISODE d,
   .reg1 R.FIL_DIE_STAT.N d,
   .reg1 R.FIL_DIE_L0.L0 d,
   .reg1 R.FIL_DIE_STAT.WARM d]

theorem foot_refreshSlot {pr : Print} {z s : State} {d : Nat} {o_d : Option Nat} (n_d : Names o_d d) (hP : (fp_refreshSlot o_d).Sub pr) (hk : Within pr z s) :
    Within pr z (refreshSlot d s) := by
  simp only [fp_refreshSlot, Print.join_cons, Print.join_nil, and_true] at hP
  obtain ⟨e0, e1, e2, e3, e4⟩ := hP
  unfold refreshSlot
  iterate 40 (try any_goals first | with_reducible assumption | exact Print.has_reg1 n_d e0 | exact Print.has_reg1 n_d e1 | exact Print.has_reg1 n_d e2 | exact Print.has_reg1 n_d e3 | exact Print.has_reg1 n_d e4 | with_reducible apply Print.has_ite | with_reducible refine Within.put _ ?_ ?_ | with_reducible refine Within.putB _ ?_ ?_ | (dsimp only))

def fp_takeOwn (d : Option Nat) : Print := .join
  [.reg1 R.ITN_DIE_CNT.ACCEPTED d,
   .reg1 R.ITN_DIE_CNT.BAD d,
   .reg1 R.ITN_DIE_CNT2.OVERFLOW d,
   .reg1 R.ITN_DIE_CNT2.SRC_OFF d,
   (.reg1 R.ITN_MM_CNT.OVER d),
   .reg1 R.ITN_MM_CNT.UNDER d,
   .reg1 R.FIL_DIE_CNT.EPISODES d,
   .reg1 R.ITN_DIE_STAT.CUT d,
   .reg1 R.ITN_DIE_STAT.STRETCH d,
   .reg1 R.ITN_DRP_STAT.FIRED d,
   .reg1 R.ITN_DRP_STAT.FAILED d,
   .reg1 R.ITN_STEP.LAST d,
   .reg1 R.ITN_STEP_WAIT.NS d,
   .reg1 R.ITN_STEP_LEN.US d,
   .reg R.ITN_EVENT,
   .reg R.FIL_EVENT,
   fp_faultOn,
   fp_recordDie,
   fp_judgeBlind d,
   fp_tellStep]

theorem foot_takeOwn {pr : Print} {z s : State} {d : Nat} {own : List (Nat × Nat)} {o_d : Option Nat} (n_d : Names o_d d)
    (hP : (fp_takeOwn o_d).Sub pr) (hk : Within pr z s) : Within pr z (takeOwn d own s) := by
  simp only [fp_takeOwn, Print.join_cons, Print.join_nil, and_true] at hP
  obtain ⟨e0, e1, e2, e3, e4, e5, e6, hP⟩ := hP
  obtain ⟨e7, e8, e9, e10, e11, e12, e13, hP⟩ := hP
  obtain ⟨e14, e15, e16, e17, e18, e19⟩ := hP
  have hh : ∀ f ∈ agentShown d, pr.has f := by
    simp only [agentShown, List.forall_mem_cons, List.not_mem_nil, false_implies, implies_true, and_true]
    repeat' apply And.intro
    all_goals exact Print.has_reg1 n_d (by assumption)
  unfold takeOwn
  dsimp only
  have step : ∀ (o : Option Nat) (t : State), Within pr z t →
      Within pr z (match o with | some v => tellStep d v t | none => t) := by
    intro o t ht
    cases o
    · exact ht
    · exact foot_tellStep (by assumption) ht
  refine step _ _ (foot_judgeBlind n_d (by assumption) (Within.each (fun n t ht => foot_recordDie (by assumption)
    (foot_faultOn (by assumption) (Within.event _ (Print.has_reg (by assumption)) ht))) ?_))
  refine Within.when (fun t ht => Within.event _ (Print.has_reg (by assumption)) ht) (Within.when (fun t ht =>
    Within.event _ (Print.has_reg (by assumption)) ht) (Within.when (fun t ht =>
    Within.event _ (Print.has_reg (by assumption)) ht) (Within.eachMem (fun f hf t ht => ?_) hk)))
  split
  · exact Within.put _ (hh f hf) ht
  · exact ht

def fp_catchUp (d : Option Nat) : Print := .join
  [.row Cell.link d,
   fp_takeOwn d,
   fp_dropAgent d,
   fp_releaseSite d]

theorem foot_catchUp {pr : Print} {z s : State} {d : Nat} {o_d : Option Nat} (n_d : Names o_d d) (hP : (fp_catchUp o_d).Sub pr) (hk : Within pr z s) :
    Within pr z (catchUp d s) := by
  simp only [fp_catchUp, Print.join_cons, Print.join_nil, and_true] at hP
  obtain ⟨e0, e1, e2, e3⟩ := hP
  unfold catchUp
  iterate 40 (try any_goals first | with_reducible assumption | with_reducible refine Within.setLink _ (Print.has_row rfl n_d e0) ?_ | with_reducible refine foot_takeOwn n_d e1 ?_ | with_reducible refine foot_dropAgent n_d e2 ?_ | with_reducible refine foot_releaseSite n_d e3 ?_ | with_reducible refine Within.each ?_ ?_ | exact Or.inr (Print.has_prt (by assumption)) | with_reducible exact Or.inl rfl | intro _ | (dsimp only) | with_reducible apply Within.upd)

def fp_resumeForced (d : Option Nat) : Print := .join
  [fp_endForced d,
   fp_beginForced d]

theorem foot_resumeForced {pr : Print} {z s : State} {d : Nat} {o_d : Option Nat} (n_d : Names o_d d) (hP : (fp_resumeForced o_d).Sub pr) (hk : Within pr z s) :
    Within pr z (resumeForced d s) := by
  simp only [fp_resumeForced, Print.join_cons, Print.join_nil, and_true] at hP
  obtain ⟨e0, e1⟩ := hP
  unfold resumeForced
  iterate 40 (try any_goals first | with_reducible assumption | with_reducible refine foot_endForced n_d e0 ?_ | with_reducible refine foot_beginForced n_d e1 ?_ | with_reducible refine Within.each ?_ ?_ | with_reducible refine Within.when ?_ ?_ | intro _ | (dsimp only))

def fp_effLinkRestore (d : Option Nat) : Print := .join
  [.row Cell.itn d,
   fp_catchUp d,
   fp_resumeForced d,
   fp_sendHeld d,
   fp_showSteps d,
   fp_refreshSlot d,
   fp_showEmpty d,
   fp_showReasons d,
   fp_refit d]

theorem foot_effLinkRestore {pr : Print} {z s : State} {d : Nat} {o_d : Option Nat} (n_d : Names o_d d) (hP : (fp_effLinkRestore o_d).Sub pr) (hk : Within pr z s) :
    Within pr z (effLinkRestore d s) := by
  simp only [fp_effLinkRestore, Print.join_cons, Print.join_nil, and_true] at hP
  obtain ⟨e0, e1, e2, e3, e4, e5, e6, hP⟩ := hP
  obtain ⟨e7, e8⟩ := hP
  unfold effLinkRestore
  iterate 40 (try any_goals first | with_reducible assumption | with_reducible refine Within.setItn _ (Print.has_row rfl n_d e0) ?_ | with_reducible refine foot_catchUp n_d e1 ?_ | with_reducible refine foot_resumeForced n_d e2 ?_ | with_reducible refine foot_sendHeld n_d e3 ?_ | with_reducible refine foot_showSteps n_d e4 ?_ | (with_reducible refine foot_refreshSlot n_d e5 ?_) | with_reducible refine foot_showEmpty n_d e6 ?_ | with_reducible refine foot_showReasons n_d e7 ?_ | with_reducible refine foot_refit n_d e8 ?_ | exact Or.inr (Print.has_prt (by assumption)) | with_reducible exact Or.inl rfl | intro _ | (dsimp only) | split | with_reducible apply Within.upd)

def fp_execLinkRestore (die : Option Nat) : Print := .join
  [fp_finish,
   fp_effLinkRestore die]

theorem foot_execLinkRestore {pr : Print} {z s t : State} {die : Nat} {o_die : Option Nat} (n_die : Names o_die die) (hP : (fp_execLinkRestore o_die).Sub pr) (hk : Within pr z s)
    (h : execLinkRestore die s = .next t) : Within pr z t := by
  simp only [fp_execLinkRestore, Print.join_cons, Print.join_nil, and_true] at hP
  obtain ⟨e0, e1⟩ := hP
  unfold execLinkRestore done at h
  injection h with h
  subst h
  iterate 40 (try any_goals first | with_reducible assumption | with_reducible refine foot_finish e0 ?_ | with_reducible refine foot_effLinkRestore n_die e1 ?_)

def fp_effLinkTrained (d : Option Nat) : Print := .join
  [.row Cell.link d,
   .row Cell.itn d,
   fp_reloadDie,
   fp_restartLink d,
   fp_sendHeld d,
   fp_showEmpty d,
   fp_refit d]

theorem foot_effLinkTrained {pr : Print} {z s : State} {d : Nat} {o_d : Option Nat} (n_d : Names o_d d) (hP : (fp_effLinkTrained o_d).Sub pr) (hk : Within pr z s) :
    Within pr z (effLinkTrained d s) := by
  simp only [fp_effLinkTrained, Print.join_cons, Print.join_nil, and_true] at hP
  obtain ⟨e0, e1, e2, e3, e4, e5, e6⟩ := hP
  unfold effLinkTrained
  iterate 40 (try any_goals first | with_reducible assumption | with_reducible refine Within.setLink _ (Print.has_row rfl n_d e0) ?_ | with_reducible refine Within.setItn _ (Print.has_row rfl n_d e1) ?_ | with_reducible refine foot_reloadDie e2 ?_ | with_reducible refine foot_restartLink n_d e3 ?_ | with_reducible refine foot_sendHeld n_d e4 ?_ | with_reducible refine foot_showEmpty n_d e5 ?_ | with_reducible refine foot_refit n_d e6 ?_ | exact Or.inr (Print.has_prt (by assumption)) | with_reducible exact Or.inl rfl | intro _ | (dsimp only) | split | with_reducible apply Within.upd)

def fp_execLinkTrained (die : Option Nat) : Print := .join
  [fp_finish,
   fp_effLinkTrained die]

theorem foot_execLinkTrained {pr : Print} {z s t : State} {die : Nat} {o_die : Option Nat} (n_die : Names o_die die) (hP : (fp_execLinkTrained o_die).Sub pr) (hk : Within pr z s)
    (h : execLinkTrained die s = .next t) : Within pr z t := by
  simp only [fp_execLinkTrained, Print.join_cons, Print.join_nil, and_true] at hP
  obtain ⟨e0, e1⟩ := hP
  unfold execLinkTrained done at h
  injection h with h
  subst h
  iterate 40 (try any_goals first | with_reducible assumption | with_reducible refine foot_finish e0 ?_ | with_reducible refine foot_effLinkTrained n_die e1 ?_)

def fp_goStage : Print := .join
  [.reg R.BOOT_STAT.STAGE,
   .prt .boot,
   fp_record]

theorem foot_goStage {pr : Print} {z s : State} {n : Nat} (hP : fp_goStage.Sub pr) (hk : Within pr z s) :
    Within pr z (goStage n s) := by
  simp only [fp_goStage, Print.join_cons, Print.join_nil, and_true] at hP
  obtain ⟨e0, e1, e2⟩ := hP
  unfold goStage
  iterate 40 (try any_goals first | with_reducible assumption | exact Print.has_reg e0 | exact Print.has_prt e1 | with_reducible apply Print.has_ite | with_reducible refine Within.put _ ?_ ?_ | with_reducible refine Within.setBoot _ ?_ ?_ | with_reducible refine foot_record e2 ?_ | with_reducible refine Within.when ?_ ?_ | exact Or.inr (Print.has_prt (by assumption)) | with_reducible exact Or.inl rfl | intro _ | (dsimp only) | with_reducible apply Within.upd)

def fp_bootFail : Print := .join
  [.reg R.BOOT_STAT.CAUSE,
   .prt .pins,
   fp_ringLeave,
   fp_goStage,
   fp_faultOn,
   fp_record]

theorem foot_bootFail {pr : Print} {z s : State} {cause : Nat} (hP : fp_bootFail.Sub pr) (hk : Within pr z s) :
    Within pr z (bootFail cause s) := by
  simp only [fp_bootFail, Print.join_cons, Print.join_nil, and_true] at hP
  obtain ⟨e0, e1, e2, e3, e4, e5⟩ := hP
  unfold bootFail
  iterate 40 (try any_goals first | with_reducible assumption | exact Print.has_reg e0 | exact Print.has_prt e1 | with_reducible apply Print.has_ite | with_reducible refine Within.put _ ?_ ?_ | with_reducible refine Within.setPins _ ?_ ?_ | with_reducible refine foot_ringLeave e2 ?_ | with_reducible refine foot_goStage e3 ?_ | with_reducible refine foot_faultOn e4 ?_ | with_reducible refine foot_record e5 ?_ | with_reducible refine Within.when ?_ ?_ | exact Or.inr (Print.has_prt (by assumption)) | with_reducible exact Or.inl rfl | intro _ | (dsimp only) | with_reducible apply Within.upd)

def fp_goVin : Print := .join
  [fp_goStage,
   fp_operate none]

theorem foot_goVin {pr : Print} {z s : State} (hP : fp_goVin.Sub pr) (hk : Within pr z s) :
    Within pr z (goVin s) := by
  simp only [fp_goVin, Print.join_cons, Print.join_nil, and_true] at hP
  obtain ⟨e0, e1⟩ := hP
  unfold goVin
  iterate 40 (try any_goals first | with_reducible assumption | with_reducible refine foot_goStage e0 ?_ | with_reducible refine foot_operate Names.any e1 ?_ | with_reducible refine Within.each ?_ ?_ | intro _ | (dsimp only))

def fp_goCore : Print := .join
  [fp_goStage,
   fp_railEnable (some 32)]

theorem foot_goCore {pr : Print} {z s : State} (hP : fp_goCore.Sub pr) (hk : Within pr z s) :
    Within pr z (goCore s) := by
  simp only [fp_goCore, Print.join_cons, Print.join_nil, and_true] at hP
  obtain ⟨e0, e1⟩ := hP
  unfold goCore
  iterate 40 (try any_goals first | with_reducible assumption | with_reducible refine foot_goStage e0 ?_ | with_reducible refine foot_railEnable Names.one e1 ?_ | (dsimp only))

def fp_goMem : Print := .join
  [fp_goStage,
   fp_railEnable none]

theorem foot_goMem {pr : Print} {z s : State} (hP : fp_goMem.Sub pr) (hk : Within pr z s) :
    Within pr z (goMem s) := by
  simp only [fp_goMem, Print.join_cons, Print.join_nil, and_true] at hP
  obtain ⟨e0, e1⟩ := hP
  unfold goMem
  iterate 40 (try any_goals first | with_reducible assumption | with_reducible refine foot_goStage e0 ?_ | with_reducible refine foot_railEnable Names.any e1 ?_ | with_reducible refine Within.each ?_ ?_ | intro _ | (dsimp only))

def fp_goReady : Print := .join
  [.prt .pins,
   .reg R.BOOT_STAT.GSTATE,
   .reg R.BOOT_GSTATE.BUSY,
   .prt .boot,
   fp_goStage,
   fp_record]

theorem foot_goReady {pr : Print} {z s : State} (hP : fp_goReady.Sub pr) (hk : Within pr z s) :
    Within pr z (goReady s) := by
  simp only [fp_goReady, Print.join_cons, Print.join_nil, and_true] at hP
  obtain ⟨e0, e1, e2, e3, e4, e5⟩ := hP
  unfold goReady
  iterate 40 (try any_goals first | with_reducible assumption | exact Print.has_prt e0 | exact Print.has_reg e1 | exact Print.has_reg e2 | exact Print.has_prt e3 | with_reducible apply Print.has_ite | with_reducible refine Within.put _ ?_ ?_ | with_reducible refine Within.setBoot _ ?_ ?_ | with_reducible refine Within.setPins _ ?_ ?_ | with_reducible refine foot_goStage e4 ?_ | with_reducible refine foot_record e5 ?_ | with_reducible refine Within.when ?_ ?_ | exact Or.inr (Print.has_prt (by assumption)) | with_reducible exact Or.inl rfl | intro _ | (dsimp only) | with_reducible apply Within.upd)

def fp_execSupplyGood : Print := .join
  [.prt .pins,
   fp_finish,
   fp_setClk,
   fp_goStage]

theorem foot_execSupplyGood {pr : Print} {z s t : State} (hP : fp_execSupplyGood.Sub pr) (hk : Within pr z s)
    (h : execSupplyGood s = .next t) : Within pr z t := by
  simp only [fp_execSupplyGood, Print.join_cons, Print.join_nil, and_true] at hP
  obtain ⟨e0, e1, e2, e3⟩ := hP
  unfold execSupplyGood done at h
  injection h with h
  subst h
  iterate 40 (try any_goals first | with_reducible assumption | exact Print.has_prt e0 | with_reducible refine Within.setPins _ ?_ ?_ | with_reducible refine foot_finish e1 ?_ | with_reducible refine foot_setClk e2 ?_ | with_reducible refine foot_goStage e3 ?_ | exact Or.inr (Print.has_prt (by assumption)) | with_reducible exact Or.inl rfl | (dsimp only) | split | with_reducible apply Within.upd)

def fp_ownPresent : Print := .join
  [.reg1 R.SEC_PART_RES.DIES (some 0),
   .reg1 R.SEC_PART_RES.STACKS (some 0),
   .reg1 R.SEC_PART_QG.COUNT (some 0)]

theorem foot_ownPresent {pr : Print} {z s : State} (hP : fp_ownPresent.Sub pr) (hk : Within pr z s) :
    Within pr z (ownPresent s) := by
  simp only [fp_ownPresent, Print.join_cons, Print.join_nil, and_true] at hP
  obtain ⟨e0, e1, e2⟩ := hP
  unfold ownPresent
  iterate 40 (try any_goals first | with_reducible assumption | exact Print.has_reg1 Names.one e0 | exact Print.has_reg1 Names.one e1 | exact Print.has_reg1 Names.one e2 | with_reducible apply Print.has_ite | with_reducible refine Within.put _ ?_ ?_ | (dsimp only))

def fp_stopIssue (d : Option Nat) : Print := .join
  [.row Cell.tok d,
   .reg1 R.TOK_DIE_STAT.ZERO d,
   .reg1 R.FIL_DIE_STAT.EPISODE d,
   .reg1 R.FIL_DIE_STAT.WARM d]

theorem foot_stopIssue {pr : Print} {z s : State} {d : Nat} {o_d : Option Nat} (n_d : Names o_d d) (hP : (fp_stopIssue o_d).Sub pr) (hk : Within pr z s) :
    Within pr z (stopIssue d s) := by
  simp only [fp_stopIssue, Print.join_cons, Print.join_nil, and_true] at hP
  obtain ⟨e0, e1, e2, e3⟩ := hP
  unfold stopIssue
  iterate 40 (try any_goals first | with_reducible assumption | with_reducible refine Within.setTok _ (Print.has_row rfl n_d e0) ?_ | exact Print.has_reg1 n_d e1 | exact Print.has_reg1 n_d e2 | exact Print.has_reg1 n_d e3 | with_reducible apply Print.has_ite | with_reducible refine Within.put _ ?_ ?_ | exact Or.inr (Print.has_prt (by assumption)) | with_reducible exact Or.inl rfl | (dsimp only) | with_reducible apply Within.upd)

def fp_powerDown : Print := .join
  [.reg R.BOOT_STAT.CAUSE,
   .prt .pins,
   .reg R.BOOT_STAT.GSTATE,
   .reg R.BOOT_GSTATE.BUSY,
   .reg R.FIL_WARM_STAT.STATE,
   .prt .boot,
   fp_goStage,
   fp_stopIssue none,
   fp_railOff none,
   fp_railOff (some 32),
   fp_operate none]

theorem foot_powerDown {pr : Print} {z s : State} {cause : Nat} (hP : fp_powerDown.Sub pr) (hk : Within pr z s) :
    Within pr z (powerDown cause s) := by
  simp only [fp_powerDown, Print.join_cons, Print.join_nil, and_true] at hP
  obtain ⟨e0, e1, e2, e3, e4, e5, e6, hP⟩ := hP
  obtain ⟨e7, e8, e9, e10⟩ := hP
  unfold powerDown
  iterate 40 (try any_goals first | with_reducible assumption | exact Print.has_reg e0 | exact Print.has_prt e1 | exact Print.has_reg e2 | exact Print.has_reg e3 | exact Print.has_reg e4 | exact Print.has_prt e5 | with_reducible apply Print.has_ite | with_reducible refine Within.put _ ?_ ?_ | with_reducible refine Within.setBoot _ ?_ ?_ | with_reducible refine Within.setPins _ ?_ ?_ | with_reducible refine foot_goStage e6 ?_ | with_reducible refine foot_stopIssue Names.any e7 ?_ | with_reducible refine foot_railOff Names.any e8 ?_ | with_reducible refine foot_railOff Names.one e9 ?_ | with_reducible refine foot_operate Names.any e10 ?_ | with_reducible refine Within.each ?_ ?_ | with_reducible refine Within.when ?_ ?_ | exact Or.inr (Print.has_prt (by assumption)) | with_reducible exact Or.inl rfl | intro _ | (dsimp only) | with_reducible apply Within.upd)

def fp_execPowerDown : Print := .join
  [fp_finish,
   fp_powerDown]

theorem foot_execPowerDown {pr : Print} {z s t : State} (hP : fp_execPowerDown.Sub pr) (hk : Within pr z s)
    (h : execPowerDown s = .next t) : Within pr z t := by
  simp only [fp_execPowerDown, Print.join_cons, Print.join_nil, and_true] at hP
  obtain ⟨e0, e1⟩ := hP
  unfold execPowerDown done at h
  injection h with h
  subst h
  iterate 40 (try any_goals first | with_reducible assumption | with_reducible refine foot_finish e0 ?_ | with_reducible refine foot_powerDown e1 ?_ | split)

def fp_leaveOff : Print := .join
  [.reg R.BOOT_STAT.CAUSE,
   .prt .pins,
   .prt .boot,
   fp_goVin]

theorem foot_leaveOff {pr : Print} {z s : State} (hP : fp_leaveOff.Sub pr) (hk : Within pr z s) :
    Within pr z (leaveOff s) := by
  simp only [fp_leaveOff, Print.join_cons, Print.join_nil, and_true] at hP
  obtain ⟨e0, e1, e2, e3⟩ := hP
  unfold leaveOff
  iterate 40 (try any_goals first | with_reducible assumption | exact Print.has_reg e0 | exact Print.has_prt e1 | exact Print.has_prt e2 | with_reducible apply Print.has_ite | with_reducible refine Within.put _ ?_ ?_ | with_reducible refine Within.setBoot _ ?_ ?_ | with_reducible refine Within.setPins _ ?_ ?_ | with_reducible refine foot_goVin e3 ?_ | exact Or.inr (Print.has_prt (by assumption)) | with_reducible exact Or.inl rfl | (dsimp only) | with_reducible apply Within.upd)

def fp_execAutoRestart : Print := .join
  [fp_finish,
   fp_leaveOff]

theorem foot_execAutoRestart {pr : Print} {z s t : State} (hP : fp_execAutoRestart.Sub pr) (hk : Within pr z s)
    (h : execAutoRestart s = .next t) : Within pr z t := by
  simp only [fp_execAutoRestart, Print.join_cons, Print.join_nil, and_true] at hP
  obtain ⟨e0, e1⟩ := hP
  unfold execAutoRestart done at h
  injection h with h
  subst h
  iterate 40 (try any_goals first | with_reducible assumption | with_reducible refine foot_finish e0 ?_ | with_reducible refine foot_leaveOff e1 ?_ | split)

def fp_startChangeG : Print := .join
  [.reg R.BOOT_GSTATE.BUSY,
   .prt .boot]

theorem foot_startChangeG {pr : Print} {z s : State} {c : Nat} (hP : fp_startChangeG.Sub pr) (hk : Within pr z s) :
    Within pr z (startChangeG c s) := by
  simp only [fp_startChangeG, Print.join_cons, Print.join_nil, and_true] at hP
  obtain ⟨e0, e1⟩ := hP
  unfold startChangeG
  iterate 40 (try any_goals first | with_reducible assumption | exact Print.has_reg e0 | exact Print.has_prt e1 | with_reducible apply Print.has_ite | with_reducible refine Within.put _ ?_ ?_ | with_reducible refine Within.setBoot _ ?_ ?_ | exact Or.inr (Print.has_prt (by assumption)) | with_reducible exact Or.inl rfl | (dsimp only) | with_reducible apply Within.upd)

def fp_leaveG1 : Print := .join
  [fp_gateClock,
   fp_unshedAll]

theorem foot_leaveG1 {pr : Print} {z s : State} (hP : fp_leaveG1.Sub pr) (hk : Within pr z s) :
    Within pr z (leaveG1 s) := by
  simp only [fp_leaveG1, Print.join_cons, Print.join_nil, and_true] at hP
  obtain ⟨e0, e1⟩ := hP
  unfold leaveG1
  iterate 40 (try any_goals first | with_reducible assumption | with_reducible refine foot_gateClock e0 ?_ | with_reducible refine foot_unshedAll e1 ?_ | with_reducible refine Within.each ?_ ?_ | intro _ | (dsimp only))

def fp_requestG : Print := .join
  [.prt .out,
   .prt .pins,
   fp_leaveOff,
   fp_leaveG1,
   fp_enterG,
   fp_gateClock,
   fp_startChangeG,
   fp_goCore,
   fp_settleChange]

theorem foot_requestG {pr : Print} {z s : State} {req : Nat} (hP : fp_requestG.Sub pr) (hk : Within pr z s) :
    Within pr z (requestG req s) := by
  simp only [fp_requestG, Print.join_cons, Print.join_nil, and_true] at hP
  obtain ⟨e0, e1, e2, e3, e4, e5, e6, hP⟩ := hP
  obtain ⟨e7, e8⟩ := hP
  unfold requestG
  iterate 40 (try any_goals first | with_reducible assumption | exact Print.has_prt e0 | exact Print.has_prt e1 | with_reducible refine Within.setPins _ ?_ ?_ | with_reducible refine Within.emit _ ?_ ?_ | with_reducible refine foot_leaveOff e2 ?_ | with_reducible refine foot_leaveG1 e3 ?_ | with_reducible refine foot_enterG e4 ?_ | with_reducible refine foot_gateClock e5 ?_ | with_reducible refine foot_startChangeG e6 ?_ | with_reducible refine foot_goCore e7 ?_ | with_reducible refine foot_settleChange e8 ?_ | with_reducible refine Within.each ?_ ?_ | exact Or.inr (Print.has_prt (by assumption)) | with_reducible exact Or.inl rfl | intro _ | (dsimp only) | split | with_reducible apply Within.upd)

def fp_effSelfRefreshReport : Print := .join
  [.prt .boot,
   .prt .pins,
   fp_stopIssue none,
   fp_railOff none,
   fp_railOff (some 32),
   fp_clearAcc,
   fp_enterG]

theorem foot_effSelfRefreshReport {pr : Print} {z s : State} {d : Nat} (hP : fp_effSelfRefreshReport.Sub pr) (hk : Within pr z s) :
    Within pr z (effSelfRefreshReport d s) := by
  simp only [fp_effSelfRefreshReport, Print.join_cons, Print.join_nil, and_true] at hP
  obtain ⟨e0, e1, e2, e3, e4, e5, e6⟩ := hP
  unfold effSelfRefreshReport
  iterate 40 (try any_goals first | with_reducible assumption | exact Print.has_prt e0 | exact Print.has_prt e1 | with_reducible refine Within.setBoot _ ?_ ?_ | with_reducible refine Within.setPins _ ?_ ?_ | with_reducible refine foot_stopIssue Names.any e2 ?_ | with_reducible refine foot_railOff Names.any e3 ?_ | with_reducible refine foot_railOff Names.one e4 ?_ | with_reducible refine foot_clearAcc e5 ?_ | with_reducible refine foot_enterG e6 ?_ | with_reducible refine Within.each ?_ ?_ | exact Or.inr (Print.has_prt (by assumption)) | with_reducible exact Or.inl rfl | intro _ | (dsimp only) | split | with_reducible apply Within.upd)

def fp_execSelfRefreshReport (die : Option Nat) : Print := .join
  [fp_finish,
   fp_acceptFrame die,
   fp_effSelfRefreshReport]

theorem foot_execSelfRefreshReport {pr : Print} {z s t : State} {die : Nat} {frame : Frame} {o_die : Option Nat} (n_die : Names o_die die) (hP : (fp_execSelfRefreshReport o_die).Sub pr) (hk : Within pr z s)
    (h : execSelfRefreshReport ⟨die, frame⟩ s = .next t) : Within pr z t := by
  simp only [fp_execSelfRefreshReport, Print.join_cons, Print.join_nil, and_true] at hP
  obtain ⟨e0, e1, e2⟩ := hP
  unfold execSelfRefreshReport done at h
  injection h with h
  subst h
  iterate 40 (try any_goals first | with_reducible assumption | with_reducible refine foot_finish e0 ?_ | with_reducible refine foot_acceptFrame n_die e1 ?_ ?_ | with_reducible refine foot_effSelfRefreshReport e2 ?_ | intro _)

def fp_effG2Abandoned : Print := .join
  [.reg R.BOOT_GSTATE.REQ,
   fp_leaveG1,
   fp_enterG,
   fp_record]

theorem foot_effG2Abandoned {pr : Print} {z s : State} {d : Nat} (hP : fp_effG2Abandoned.Sub pr) (hk : Within pr z s) :
    Within pr z (effG2Abandoned d s) := by
  simp only [fp_effG2Abandoned, Print.join_cons, Print.join_nil, and_true] at hP
  obtain ⟨e0, e1, e2, e3⟩ := hP
  unfold effG2Abandoned
  iterate 40 (try any_goals first | with_reducible assumption | exact Print.has_reg e0 | with_reducible apply Print.has_ite | with_reducible refine Within.put _ ?_ ?_ | with_reducible refine foot_leaveG1 e1 ?_ | with_reducible refine foot_enterG e2 ?_ | with_reducible refine foot_record e3 ?_ | (dsimp only) | split)

def fp_execG2Abandoned : Print := .join
  [fp_finish,
   fp_effG2Abandoned]

theorem foot_execG2Abandoned {pr : Print} {z s t : State} {die : Nat} (hP : fp_execG2Abandoned.Sub pr) (hk : Within pr z s)
    (h : execG2Abandoned die s = .next t) : Within pr z t := by
  simp only [fp_execG2Abandoned, Print.join_cons, Print.join_nil, and_true] at hP
  obtain ⟨e0, e1⟩ := hP
  unfold execG2Abandoned done at h
  injection h with h
  subst h
  iterate 40 (try any_goals first | with_reducible assumption | with_reducible refine foot_finish e0 ?_ | with_reducible refine foot_effG2Abandoned e1 ?_)

def fp_startDieReset : Print := .join
  [.prt .boot,
   fp_record,
   fp_dieCleared none,
   fp_restartLink none]

theorem foot_startDieReset {pr : Print} {z s : State} {m : Nat} (hP : fp_startDieReset.Sub pr) (hk : Within pr z s) :
    Within pr z (startDieReset m s) := by
  simp only [fp_startDieReset, Print.join_cons, Print.join_nil, and_true] at hP
  obtain ⟨e0, e1, e2, e3⟩ := hP
  unfold startDieReset
  iterate 40 (try any_goals first | with_reducible assumption | exact Print.has_prt e0 | with_reducible refine Within.setBoot _ ?_ ?_ | with_reducible refine foot_record e1 ?_ | with_reducible refine foot_dieCleared Names.any e2 ?_ | with_reducible refine foot_restartLink Names.any e3 ?_ | with_reducible refine Within.each ?_ ?_ | exact Or.inr (Print.has_prt (by assumption)) | with_reducible exact Or.inl rfl | intro _ | (dsimp only) | with_reducible apply Within.upd)

def fp_effDieResetEnd (d : Option Nat) : Print := .join
  [.prt .boot,
   fp_reloadDie,
   fp_sendTokens d,
   fp_showEmpty d,
   fp_refit d]

theorem foot_effDieResetEnd {pr : Print} {z s : State} {d : Nat} {o_d : Option Nat} (n_d : Names o_d d) (hP : (fp_effDieResetEnd o_d).Sub pr) (hk : Within pr z s) :
    Within pr z (effDieResetEnd d s) := by
  simp only [fp_effDieResetEnd, Print.join_cons, Print.join_nil, and_true] at hP
  obtain ⟨e0, e1, e2, e3, e4⟩ := hP
  unfold effDieResetEnd
  iterate 40 (try any_goals first | with_reducible assumption | exact Print.has_prt e0 | with_reducible refine Within.setBoot _ ?_ ?_ | with_reducible refine foot_reloadDie e1 ?_ | with_reducible refine foot_sendTokens n_d e2 ?_ | with_reducible refine foot_showEmpty n_d e3 ?_ | with_reducible refine foot_refit n_d e4 ?_ | exact Or.inr (Print.has_prt (by assumption)) | with_reducible exact Or.inl rfl | (dsimp only) | split | with_reducible apply Within.upd)

def fp_execDieResetEnd (die : Option Nat) : Print := .join
  [fp_finish,
   fp_effDieResetEnd die]

theorem foot_execDieResetEnd {pr : Print} {z s t : State} {die : Nat} {o_die : Option Nat} (n_die : Names o_die die) (hP : (fp_execDieResetEnd o_die).Sub pr) (hk : Within pr z s)
    (h : execDieResetEnd die s = .next t) : Within pr z t := by
  simp only [fp_execDieResetEnd, Print.join_cons, Print.join_nil, and_true] at hP
  obtain ⟨e0, e1⟩ := hP
  unfold execDieResetEnd done at h
  injection h with h
  subst h
  iterate 40 (try any_goals first | with_reducible assumption | with_reducible refine foot_finish e0 ?_ | with_reducible refine foot_effDieResetEnd n_die e1 ?_)

def fp_startAccReset : Print := .join
  [.prt .boot,
   .prt .pins,
   fp_record,
   fp_accCleared,
   fp_restartLink none]

theorem foot_startAccReset {pr : Print} {z s : State} (hP : fp_startAccReset.Sub pr) (hk : Within pr z s) :
    Within pr z (startAccReset s) := by
  simp only [fp_startAccReset, Print.join_cons, Print.join_nil, and_true] at hP
  obtain ⟨e0, e1, e2, e3, e4⟩ := hP
  unfold startAccReset
  iterate 40 (try any_goals first | with_reducible assumption | exact Print.has_prt e0 | exact Print.has_prt e1 | with_reducible refine Within.setBoot _ ?_ ?_ | with_reducible refine Within.setPins _ ?_ ?_ | with_reducible refine foot_record e2 ?_ | with_reducible refine foot_accCleared e3 ?_ | with_reducible refine foot_restartLink Names.any e4 ?_ | with_reducible refine Within.each ?_ ?_ | exact Or.inr (Print.has_prt (by assumption)) | with_reducible exact Or.inl rfl | intro _ | (dsimp only) | with_reducible apply Within.upd)

def fp_effAccResetEnd : Print := .join
  [.prt .boot,
   .prt .pins,
   fp_reloadPart none,
   fp_sendTokens none,
   fp_showEmpty none,
   fp_refit none]

theorem foot_effAccResetEnd {pr : Print} {z s : State} (hP : fp_effAccResetEnd.Sub pr) (hk : Within pr z s) :
    Within pr z (effAccResetEnd s) := by
  simp only [fp_effAccResetEnd, Print.join_cons, Print.join_nil, and_true] at hP
  obtain ⟨e0, e1, e2, e3, e4, e5⟩ := hP
  unfold effAccResetEnd
  iterate 40 (try any_goals first | with_reducible assumption | exact Print.has_prt e0 | exact Print.has_prt e1 | with_reducible refine Within.setBoot _ ?_ ?_ | with_reducible refine Within.setPins _ ?_ ?_ | with_reducible refine foot_reloadPart Names.any e2 ?_ | with_reducible refine foot_sendTokens Names.any e3 ?_ | with_reducible refine foot_showEmpty Names.any e4 ?_ | with_reducible refine foot_refit Names.any e5 ?_ | with_reducible refine Within.each ?_ ?_ | exact Or.inr (Print.has_prt (by assumption)) | with_reducible exact Or.inl rfl | intro _ | (dsimp only) | split | with_reducible apply Within.upd)

def fp_execAccResetEnd : Print := .join
  [fp_finish,
   fp_effAccResetEnd]

theorem foot_execAccResetEnd {pr : Print} {z s t : State} (hP : fp_execAccResetEnd.Sub pr) (hk : Within pr z s)
    (h : execAccResetEnd s = .next t) : Within pr z t := by
  simp only [fp_execAccResetEnd, Print.join_cons, Print.join_nil, and_true] at hP
  obtain ⟨e0, e1⟩ := hP
  unfold execAccResetEnd done at h
  injection h with h
  subst h
  iterate 40 (try any_goals first | with_reducible assumption | with_reducible refine foot_finish e0 ?_ | with_reducible refine foot_effAccResetEnd e1 ?_)

def fp_orphan : Print := .join
  [.row Cell.itn none,
   .prt .sec,
   .prt .host,
   .prt .capp,
   .prt .test,
   .prt .estp,
   .prt .log,
   .prt .boot]

theorem foot_orphan {pr : Print} {z s : State} (hP : fp_orphan.Sub pr) (hk : Within pr z s) :
    Within pr z (orphan s) := by
  simp only [fp_orphan, Print.join_cons, Print.join_nil, and_true] at hP
  obtain ⟨e0, e1, e2, e3, e4, e5, e6, e7⟩ := hP
  unfold orphan
  iterate 40 (try any_goals first | with_reducible assumption | with_reducible refine Within.setItn _ (Print.has_row rfl Names.any e0) ?_ | exact Print.has_prt e1 | exact Print.has_prt e2 | exact Print.has_prt e3 | exact Print.has_prt e4 | exact Print.has_prt e5 | exact Print.has_prt e6 | exact Print.has_prt e7 | with_reducible refine Within.setPart _ _ ?_ ?_ | with_reducible refine Within.each ?_ ?_ | exact Or.inr (Print.has_prt (by assumption)) | with_reducible exact Or.inl rfl | intro _ | (dsimp only) | with_reducible apply Within.upd)

def fp_wipeWindows : Print := .join
  [.prt .mem,
   .prt .cq]

theorem foot_wipeWindows {pr : Print} {z s : State} (hP : fp_wipeWindows.Sub pr) (hk : Within pr z s) :
    Within pr z (wipeWindows s) := by
  simp only [fp_wipeWindows, Print.join_cons, Print.join_nil, and_true] at hP
  obtain ⟨e0, e1⟩ := hP
  unfold wipeWindows
  iterate 40 (try any_goals first | with_reducible assumption | exact Print.has_prt e0 | exact Print.has_prt e1 | with_reducible refine Within.wipe _ _ ?_ ?_ ?_ | with_reducible refine Within.each ?_ ?_ | intro _ | (dsimp only))

def fp_dropCopies : Print := .join
  [.prt .ring]

theorem foot_dropCopies {pr : Print} {z s : State} (hP : fp_dropCopies.Sub pr) (hk : Within pr z s) :
    Within pr z (dropCopies s) := by
  simp only [fp_dropCopies, Print.join_cons, Print.join_nil, and_true] at hP
  have e0 := hP
  unfold dropCopies
  iterate 40 (try any_goals first | with_reducible assumption | exact Print.has_prt e0 | exact Or.inr (Print.has_prt (by assumption)) | with_reducible exact Or.inl rfl | with_reducible apply Within.upd)

def fp_startWarm : Print := .join
  [.cls .gov,
   .reg R.CAP_RING.BUDGET,
   .reg R.BOOT_GSTATE.BUSY,
   .reg R.CAP_IIN_EFF.IIN,
   .reg R.BOOT_STAT.AUTOPILOT,
   .reg R.CMD_GEN.WARM,
   .reg R.SAF_EVENT,
   .reg R.BOOT_STAT.CAUSE,
   .prt .boot,
   .prt .therm,
   fp_ringLeave,
   fp_orphan,
   fp_dropCopies,
   fp_wipeWindows,
   fp_record,
   fp_recovWarm,
   fp_scrubAgain none]

theorem foot_startWarm {pr : Print} {z s : State} (hP : fp_startWarm.Sub pr) (hk : Within pr z s) :
    Within pr z (startWarm s) := by
  simp only [fp_startWarm, Print.join_cons, Print.join_nil, and_true] at hP
  obtain ⟨e0, e1, e2, e3, e4, e5, e6, hP⟩ := hP
  obtain ⟨e7, e8, e9, e10, e11, e12, e13, hP⟩ := hP
  obtain ⟨e14, e15, e16⟩ := hP
  unfold startWarm
  iterate 40 (try any_goals first | with_reducible assumption | exact Print.has_cls e0 | exact Print.has_reg e1 | exact Print.has_reg e2 | exact Print.has_reg e3 | exact Print.has_reg e4 | exact Print.has_reg e5 | exact Print.has_reg e6 | exact Print.has_reg e7 | exact Print.has_prt e8 | exact Print.has_prt e9 | with_reducible apply Print.has_ite | with_reducible refine Within.put _ ?_ ?_ | with_reducible refine Within.event _ ?_ ?_ | with_reducible refine Within.addWrap _ ?_ ?_ | with_reducible refine Within.setBoot _ ?_ ?_ | with_reducible refine Within.clearClass ?_ ?_ | with_reducible refine foot_ringLeave e10 ?_ | with_reducible refine foot_orphan e11 ?_ | with_reducible refine foot_dropCopies e12 ?_ | with_reducible refine foot_wipeWindows e13 ?_ | with_reducible refine foot_record e14 ?_ | with_reducible refine foot_recovWarm e15 ?_ | with_reducible refine foot_scrubAgain Names.any e16 ?_ | with_reducible refine Within.each ?_ ?_ | with_reducible refine Within.when ?_ ?_ | exact Or.inr (Print.has_prt (by assumption)) | with_reducible exact Or.inl rfl | intro _ | (dsimp only) | with_reducible apply Within.upd)

def fp_leaveBootFail : Print := .join
  [.cls .gov,
   .reg R.CAP_RING.BUDGET,
   .reg R.CAP_IIN_EFF.IIN,
   .reg R.CMD_GEN.WARM,
   .reg R.SAF_EVENT,
   .reg R.BOOT_STAT.CAUSE,
   fp_ringLeave,
   fp_orphan,
   fp_dropCopies,
   fp_wipeWindows,
   fp_record,
   fp_faultOff,
   fp_recovWarm,
   fp_goStage]

theorem foot_leaveBootFail {pr : Print} {z s : State} (hP : fp_leaveBootFail.Sub pr) (hk : Within pr z s) :
    Within pr z (leaveBootFail s) := by
  simp only [fp_leaveBootFail, Print.join_cons, Print.join_nil, and_true] at hP
  obtain ⟨e0, e1, e2, e3, e4, e5, e6, hP⟩ := hP
  obtain ⟨e7, e8, e9, e10, e11, e12, e13⟩ := hP
  unfold leaveBootFail
  iterate 40 (try any_goals first | with_reducible assumption | exact Print.has_cls e0 | exact Print.has_reg e1 | exact Print.has_reg e2 | exact Print.has_reg e3 | exact Print.has_reg e4 | (exact Print.has_reg e5) | with_reducible apply Print.has_ite | with_reducible refine Within.put _ ?_ ?_ | with_reducible refine Within.event _ ?_ ?_ | with_reducible refine Within.addWrap _ ?_ ?_ | with_reducible refine Within.clearClass ?_ ?_ | (with_reducible refine foot_ringLeave e6 ?_) | with_reducible refine foot_orphan e7 ?_ | with_reducible refine foot_dropCopies e8 ?_ | with_reducible refine foot_wipeWindows e9 ?_ | with_reducible refine foot_record e10 ?_ | with_reducible refine foot_faultOff e11 ?_ | (with_reducible refine foot_recovWarm e12 ?_) | with_reducible refine foot_goStage e13 ?_ | (dsimp only) | split)

def fp_catchBegun : Print := .join
  [.prt .boot,
   .prt .capp,
   .prt .estp]

theorem foot_catchBegun {pr : Print} {z s : State} (hP : fp_catchBegun.Sub pr) (hk : Within pr z s) :
    Within pr z (catchBegun s) := by
  simp only [fp_catchBegun, Print.join_cons, Print.join_nil, and_true] at hP
  obtain ⟨e0, e1, e2⟩ := hP
  unfold catchBegun
  iterate 40 (try any_goals first | with_reducible assumption | exact Print.has_prt e0 | exact Print.has_prt e1 | exact Print.has_prt e2 | exact Or.inr (Print.has_prt (by assumption)) | with_reducible exact Or.inl rfl | intro _ | (dsimp only) | with_reducible apply Within.upd)

def fp_trigger : Print := .join
  [.reg R.BOOT_STAT.AUTOPILOT,
   .reg R.BOOT_CNT.FW_RESTARTS,
   .reg R.SAF_EVENT,
   .prt .boot,
   fp_startWarm,
   fp_record,
   fp_catchBegun,
   fp_endSpdm]

theorem foot_trigger {pr : Print} {z s : State} {k : Nat} (hP : fp_trigger.Sub pr) (hk : Within pr z s) :
    Within pr z (trigger k s) := by
  simp only [fp_trigger, Print.join_cons, Print.join_nil, and_true] at hP
  obtain ⟨e0, e1, e2, e3, e4, e5, e6, e7⟩ := hP
  unfold trigger
  iterate 40 (try any_goals first | with_reducible assumption | exact Print.has_reg e0 | exact Print.has_reg e1 | exact Print.has_reg e2 | exact Print.has_prt e3 | with_reducible apply Print.has_ite | with_reducible refine Within.put _ ?_ ?_ | with_reducible refine Within.event _ ?_ ?_ | with_reducible refine Within.addSat _ ?_ ?_ | with_reducible refine Within.setBoot _ ?_ ?_ | with_reducible refine foot_startWarm e4 ?_ | with_reducible refine foot_record e5 ?_ | with_reducible refine foot_catchBegun e6 ?_ | with_reducible refine foot_endSpdm e7 ?_ | exact Or.inr (Print.has_prt (by assumption)) | with_reducible exact Or.inl rfl | intro _ | (dsimp only) | split | with_reducible apply Within.upd)

def fp_execLockstepMismatch : Print := .join
  [.reg R.SAF_EVENT,
   .reg R.SAF_CNT.LOCKSTEP,
   fp_finish,
   fp_trigger]

theorem foot_execLockstepMismatch {pr : Print} {z s t : State} (hP : fp_execLockstepMismatch.Sub pr) (hk : Within pr z s)
    (h : execLockstepMismatch s = .next t) : Within pr z t := by
  simp only [fp_execLockstepMismatch, Print.join_cons, Print.join_nil, and_true] at hP
  obtain ⟨e0, e1, e2, e3⟩ := hP
  unfold execLockstepMismatch done at h
  injection h with h
  subst h
  iterate 40 (try any_goals first | with_reducible assumption | exact Print.has_reg e0 | exact Print.has_reg e1 | with_reducible apply Print.has_ite | with_reducible refine Within.event _ ?_ ?_ | with_reducible refine Within.addSat _ ?_ ?_ | with_reducible refine foot_finish e2 ?_ | with_reducible refine foot_trigger e3 ?_ | (dsimp only))

def fp_execWatchdogExpire : Print := .join
  [.reg R.SAF_EVENT,
   .prt .boot,
   fp_finish,
   fp_trigger]

theorem foot_execWatchdogExpire {pr : Print} {z s t : State} (hP : fp_execWatchdogExpire.Sub pr) (hk : Within pr z s)
    (h : execWatchdogExpire s = .next t) : Within pr z t := by
  simp only [fp_execWatchdogExpire, Print.join_cons, Print.join_nil, and_true] at hP
  obtain ⟨e0, e1, e2, e3⟩ := hP
  unfold execWatchdogExpire done at h
  injection h with h
  subst h
  iterate 40 (try any_goals first | with_reducible assumption | exact Print.has_reg e0 | exact Print.has_prt e1 | with_reducible apply Print.has_ite | with_reducible refine Within.event _ ?_ ?_ | with_reducible refine Within.setBoot _ ?_ ?_ | with_reducible refine foot_finish e2 ?_ | with_reducible refine foot_trigger e3 ?_ | exact Or.inr (Print.has_prt (by assumption)) | with_reducible exact Or.inl rfl | (dsimp only) | split | with_reducible apply Within.upd)

def fp_execSramUe : Print := .join
  [.reg R.SAF_EVENT,
   fp_finish,
   fp_trigger]

theorem foot_execSramUe {pr : Print} {z s t : State} (hP : fp_execSramUe.Sub pr) (hk : Within pr z s)
    (h : execSramUe s = .next t) : Within pr z t := by
  simp only [fp_execSramUe, Print.join_cons, Print.join_nil, and_true] at hP
  obtain ⟨e0, e1, e2⟩ := hP
  unfold execSramUe done at h
  injection h with h
  subst h
  iterate 40 (try any_goals first | with_reducible assumption | exact Print.has_reg e0 | with_reducible apply Print.has_ite | with_reducible refine Within.event _ ?_ ?_ | with_reducible refine foot_finish e1 ?_ | with_reducible refine foot_trigger e2 ?_ | (dsimp only))

def fp_execSramCe : Print := .join
  [.reg R.SAF_EVENT,
   .reg R.SAF_CNT.SRAM_CE,
   fp_finish]

theorem foot_execSramCe {pr : Print} {z s t : State} {count : Nat} (hP : fp_execSramCe.Sub pr) (hk : Within pr z s)
    (h : execSramCe count s = .next t) : Within pr z t := by
  simp only [fp_execSramCe, Print.join_cons, Print.join_nil, and_true] at hP
  obtain ⟨e0, e1, e2⟩ := hP
  unfold execSramCe done at h
  injection h with h
  subst h
  iterate 40 (try any_goals first | with_reducible assumption | exact Print.has_reg e0 | exact Print.has_reg e1 | with_reducible apply Print.has_ite | with_reducible refine Within.event _ ?_ ?_ | with_reducible refine Within.addSat _ ?_ ?_ | with_reducible refine foot_finish e2 ?_ | (dsimp only) | split)

def fp_execFwRequest : Print := .join
  [fp_finish,
   fp_trigger]

theorem foot_execFwRequest {pr : Print} {z s t : State} (hP : fp_execFwRequest.Sub pr) (hk : Within pr z s)
    (h : execFwRequest s = .next t) : Within pr z t := by
  simp only [fp_execFwRequest, Print.join_cons, Print.join_nil, and_true] at hP
  obtain ⟨e0, e1⟩ := hP
  unfold execFwRequest done at h
  injection h with h
  subst h
  iterate 40 (try any_goals first | with_reducible assumption | with_reducible refine foot_finish e0 ?_ | with_reducible refine foot_trigger e1 ?_)

def fp_restartOver : Print := .join
  [.prt .boot,
   .reg R.BOOT_STAT.CAUSE,
   .reg R.BOOT_STAT.AUTOPILOT,
   fp_completeAt]

theorem foot_restartOver {pr : Print} {z s : State} (hP : fp_restartOver.Sub pr) (hk : Within pr z s) :
    Within pr z (restartOver s) := by
  simp only [fp_restartOver, Print.join_cons, Print.join_nil, and_true] at hP
  obtain ⟨e0, e1, e2, e3⟩ := hP
  unfold restartOver
  iterate 40 (try any_goals first | with_reducible assumption | exact Print.has_prt e0 | exact Print.has_reg e1 | exact Print.has_reg e2 | with_reducible apply Print.has_ite | with_reducible refine Within.put _ ?_ ?_ | with_reducible refine Within.setBoot _ ?_ ?_ | with_reducible refine foot_completeAt e3 ?_ | with_reducible refine Within.each ?_ ?_ | with_reducible refine Within.when ?_ ?_ | exact Or.inr (Print.has_prt (by assumption)) | with_reducible exact Or.inl rfl | intro _ | (dsimp only) | split | with_reducible apply Within.upd)

def fp_effFwRestartDone : Print := .join
  [.prt .mem,
   .prt .cq,
   fp_restartOver,
   fp_startWarm]

theorem foot_effFwRestartDone {pr : Print} {z s : State} {upsets : List (Nat × Nat)} (hP : fp_effFwRestartDone.Sub pr) (hk : Within pr z s) :
    Within pr z (effFwRestartDone upsets s) := by
  simp only [fp_effFwRestartDone, Print.join_cons, Print.join_nil, and_true] at hP
  obtain ⟨e0, e1, e2, e3⟩ := hP
  unfold effFwRestartDone
  iterate 40 (try any_goals first | with_reducible assumption | exact Print.has_prt e0 | exact Print.has_prt e1 | with_reducible refine Within.writeBytes _ _ ?_ ?_ ?_ | with_reducible refine foot_restartOver e2 ?_ | with_reducible refine foot_startWarm e3 ?_ | with_reducible refine Within.each ?_ ?_ | intro _ | (dsimp only) | split)

def fp_execFwRestartDone : Print := .join
  [fp_finish,
   fp_effFwRestartDone]

theorem foot_execFwRestartDone {pr : Print} {z s t : State} {upsets : List (Nat × Nat)} (hP : fp_execFwRestartDone.Sub pr) (hk : Within pr z s)
    (h : execFwRestartDone upsets s = .next t) : Within pr z t := by
  simp only [fp_execFwRestartDone, Print.join_cons, Print.join_nil, and_true] at hP
  obtain ⟨e0, e1⟩ := hP
  unfold execFwRestartDone done at h
  injection h with h
  subst h
  iterate 40 (try any_goals first | with_reducible assumption | with_reducible refine foot_finish e0 ?_ | with_reducible refine foot_effFwRestartDone e1 ?_)

def fp_effSvnAdv : Print := .join
  [.reg R.BOOT_SVN.FW_FUSED,
   .reg R.BOOT_SVN.CFG_FUSED,
   fp_loseAttest none,
   fp_record]

theorem foot_effSvnAdv {pr : Print} {z s : State} {kind : Nat} (hP : fp_effSvnAdv.Sub pr) (hk : Within pr z s) :
    Within pr z (effSvnAdv kind s) := by
  simp only [fp_effSvnAdv, Print.join_cons, Print.join_nil, and_true] at hP
  obtain ⟨e0, e1, e2, e3⟩ := hP
  unfold effSvnAdv
  iterate 40 (try any_goals first | with_reducible assumption | exact Print.has_reg e0 | exact Print.has_reg e1 | with_reducible apply Print.has_ite | with_reducible refine Within.blow _ ?_ ?_ | with_reducible refine foot_loseAttest Names.any e2 ?_ | with_reducible refine foot_record e3 ?_ | with_reducible refine Within.each ?_ ?_ | intro _ | (dsimp only) | split)

def fp_execSvnAdv : Print := .join
  [fp_finish,
   fp_effSvnAdv]

theorem foot_execSvnAdv {pr : Print} {z s t : State} {kind : Nat} (hP : fp_execSvnAdv.Sub pr) (hk : Within pr z s)
    (h : execSvnAdv kind s = .next t) : Within pr z t := by
  simp only [fp_execSvnAdv, Print.join_cons, Print.join_nil, and_true] at hP
  obtain ⟨e0, e1⟩ := hP
  unfold execSvnAdv done at h
  injection h with h
  subst h
  iterate 40 (try any_goals first | with_reducible assumption | with_reducible refine foot_finish e0 ?_ | with_reducible refine foot_effSvnAdv e1 ?_)

def fp_flip : Print := .join
  [.prt .boot,
   .reg1 scanField none]

theorem foot_flip {pr : Print} {z s : State} {u : Upset} (hP : fp_flip.Sub pr) (hk : Within pr z s) :
    Within pr z (flip u s) := by
  simp only [fp_flip, Print.join_cons, Print.join_nil, and_true] at hP
  obtain ⟨e0, e1⟩ := hP
  unfold flip
  refine Within.eachMem (fun f hf t ht => ?_) hk
  have hs : f ∈ scanFields := by simpa using (List.mem_filter.1 hf).2
  obtain ⟨i, hi⟩ := List.getElem?_of_mem hs
  have hh : pr.has (scanField i) := Print.has_reg1 Names.any (by assumption)
  rw [show scanField i = f by simp [scanField, hi]] at hh
  dsimp only
  split
  · exact ht
  · exact Within.put _ hh (Within.setBoot _ (Print.has_prt (by assumption)) ht)

def fp_effConfigScan : Print := .join
  [.reg R.SAF_SCAN.LAST_BAD,
   .reg R.SAF_EVENT,
   .prt .boot,
   fp_flip,
   fp_faultOn,
   fp_record,
   fp_refit none]

theorem foot_effConfigScan {pr : Print} {z s : State} {upsets : List Upset} (hP : fp_effConfigScan.Sub pr) (hk : Within pr z s) :
    Within pr z (effConfigScan upsets s) := by
  simp only [fp_effConfigScan, Print.join_cons, Print.join_nil, and_true] at hP
  obtain ⟨e0, e1, e2, e3, e4, e5, e6⟩ := hP
  unfold effConfigScan
  iterate 40 (try any_goals first | with_reducible assumption | exact Print.has_reg e0 | exact Print.has_reg e1 | exact Print.has_prt e2 | with_reducible apply Print.has_ite | with_reducible refine Within.put _ ?_ ?_ | with_reducible refine Within.event _ ?_ ?_ | with_reducible refine Within.setBoot _ ?_ ?_ | with_reducible refine foot_flip e3 ?_ | with_reducible refine foot_faultOn e4 ?_ | with_reducible refine foot_record e5 ?_ | with_reducible refine foot_refit Names.any e6 ?_ | with_reducible refine Within.each ?_ ?_ | exact Or.inr (Print.has_prt (by assumption)) | with_reducible exact Or.inl rfl | intro _ | (dsimp only) | split | with_reducible apply Within.upd)

def fp_execConfigScan : Print := .join
  [fp_finish,
   fp_effConfigScan]

theorem foot_execConfigScan {pr : Print} {z s t : State} {upsets : List Upset} (hP : fp_execConfigScan.Sub pr) (hk : Within pr z s)
    (h : execConfigScan upsets s = .next t) : Within pr z t := by
  simp only [fp_execConfigScan, Print.join_cons, Print.join_nil, and_true] at hP
  obtain ⟨e0, e1⟩ := hP
  unfold execConfigScan done at h
  injection h with h
  subst h
  iterate 40 (try any_goals first | with_reducible assumption | with_reducible refine foot_finish e0 ?_ | with_reducible refine foot_effConfigScan e1 ?_)

def fp_scanFollows : Print := .join
  [.prt .boot]

theorem foot_scanFollows {pr : Print} {z s : State} {l : List Field} (hP : fp_scanFollows.Sub pr) (hk : Within pr z s) :
    Within pr z (scanFollows l s) := by
  simp only [fp_scanFollows, Print.join_cons, Print.join_nil, and_true] at hP
  have e0 := hP
  unfold scanFollows
  iterate 40 (try any_goals first | with_reducible assumption | exact Print.has_prt e0 | with_reducible refine Within.setBoot _ ?_ ?_ | exact Or.inr (Print.has_prt (by assumption)) | with_reducible exact Or.inl rfl | intro _ | (dsimp only) | split | with_reducible apply Within.upd)

def fp_ringConfigured : Print := .join
  [.reg R.RNG_STAT.ID_CONFLICT,
   .reg R.RNG_STAT.STATE,
   fp_setRing,
   fp_ringListen,
   fp_ringLeave]

theorem foot_ringConfigured {pr : Print} {z s : State} (hP : fp_ringConfigured.Sub pr) (hk : Within pr z s) :
    Within pr z (ringConfigured s) := by
  simp only [fp_ringConfigured, Print.join_cons, Print.join_nil, and_true] at hP
  obtain ⟨e0, e1, e2, e3, e4⟩ := hP
  unfold ringConfigured
  iterate 40 (try any_goals first | with_reducible assumption | exact Print.has_reg e0 | exact Print.has_reg e1 | with_reducible apply Print.has_ite | with_reducible refine Within.put _ ?_ ?_ | with_reducible refine foot_setRing e2 ?_ | with_reducible refine foot_ringListen e3 ?_ | with_reducible refine foot_ringLeave e4 ?_ | exact Or.inr (Print.has_prt (by assumption)) | with_reducible exact Or.inl rfl | (dsimp only) | split | with_reducible apply Within.upd)

def fp_afterWrite (off : Option Nat) : Print := .join
  [.reg R.PST_SYNC_STAT.LOCK,
   .reg R.CLK_STATUS.SYNC_LOST,
   fp_refreshIin,
   fp_showEmpty none,
   fp_dropCore none,
   fp_dropAgent none,
   fp_releaseSite none,
   fp_judgeBlind none,
   fp_sendSlews (off.map fun off => (off - 0x080C00) / 0x40),
   fp_ringConfigured]

theorem foot_afterWrite {pr : Print} {z s : State} {s0 : State} {off : Nat} {o_off : Option Nat} (n_off : Names o_off off) (hP : (fp_afterWrite o_off).Sub pr) (hk : Within pr z s) :
    Within pr z (afterWrite s0 off s) := by
  simp only [fp_afterWrite, Print.join_cons, Print.join_nil, and_true] at hP
  obtain ⟨e0, e1, e2, e3, e4, e5, e6, hP⟩ := hP
  obtain ⟨e7, e8, e9⟩ := hP
  unfold afterWrite
  iterate 40 (try any_goals first | with_reducible assumption | exact Print.has_reg e0 | exact Print.has_reg e1 | with_reducible apply Print.has_ite | with_reducible refine Within.put _ ?_ ?_ | with_reducible refine foot_refreshIin e2 ?_ | with_reducible refine foot_showEmpty Names.any e3 ?_ | with_reducible refine foot_dropCore Names.any e4 ?_ | with_reducible refine foot_dropAgent Names.any e5 ?_ | with_reducible refine foot_releaseSite Names.any e6 ?_ | with_reducible refine foot_judgeBlind Names.any e7 ?_ | with_reducible refine foot_sendSlews (Names.map (fun off => (off - 0x080C00) / 0x40) n_off) e8 ?_ | with_reducible refine foot_ringConfigured e9 ?_ | with_reducible refine Within.each ?_ ?_ | with_reducible refine Within.when ?_ ?_ | intro _ | (dsimp only) | split)

def fp_writeReset : Print := .join
  [fp_respond,
   fp_rejectValue,
   fp_startWarm,
   fp_startAccReset,
   fp_startDieReset]

theorem foot_writeReset {pr : Print} {z s : State} {p : Nat} {value : Nat} (hP : fp_writeReset.Sub pr) (hk : Within pr z s) :
    Within pr z (writeReset p value s) := by
  simp only [fp_writeReset, Print.join_cons, Print.join_nil, and_true] at hP
  obtain ⟨e0, e1, e2, e3, e4⟩ := hP
  unfold writeReset
  iterate 40 (try any_goals first | with_reducible assumption | with_reducible refine foot_respond e0 ?_ | with_reducible refine foot_rejectValue e1 ?_ | with_reducible refine foot_startWarm e2 ?_ | with_reducible refine foot_startAccReset e3 ?_ | with_reducible refine foot_startDieReset e4 ?_ | (dsimp only) | split)

def fp_writeState : Print := .join
  [.reg R.BOOT_GSTATE.REQ,
   fp_rejectValue,
   fp_requestG,
   fp_respond]

theorem foot_writeState {pr : Print} {z s : State} {p : Nat} {value : Nat} (hP : fp_writeState.Sub pr) (hk : Within pr z s) :
    Within pr z (writeState p value s) := by
  simp only [fp_writeState, Print.join_cons, Print.join_nil, and_true] at hP
  obtain ⟨e0, e1, e2, e3⟩ := hP
  unfold writeState
  iterate 40 (try any_goals first | with_reducible assumption | exact Print.has_reg e0 | with_reducible apply Print.has_ite | with_reducible refine Within.put _ ?_ ?_ | with_reducible refine foot_rejectValue e1 ?_ | with_reducible refine foot_requestG e2 ?_ | with_reducible refine foot_respond e3 ?_ | (dsimp only) | split)

def fp_writeCaptureWord : Print := .join
  [.prt .mem,
   .prt .cq,
   fp_rejectValue,
   fp_respond]

theorem foot_writeCaptureWord {pr : Print} {z s : State} {p : Nat} {off : Nat} {value : Nat} (hP : fp_writeCaptureWord.Sub pr) (hk : Within pr z s) :
    Within pr z (writeCaptureWord p off value s) := by
  simp only [fp_writeCaptureWord, Print.join_cons, Print.join_nil, and_true] at hP
  obtain ⟨e0, e1, e2, e3⟩ := hP
  unfold writeCaptureWord
  iterate 40 (try any_goals first | with_reducible assumption | exact Print.has_prt e0 | exact Print.has_prt e1 | with_reducible refine Within.writeWord32 _ _ ?_ ?_ ?_ | with_reducible refine foot_rejectValue e2 ?_ | with_reducible refine foot_respond e3 ?_ | (dsimp only) | split)

def fp_flashWrite : Print := .join
  [.prt .mem,
   .prt .cq,
   .prt .out]

theorem foot_flashWrite {pr : Print} {z s : State} {o : Nat} {size : Nat} {b : List Nat} (hP : fp_flashWrite.Sub pr) (hk : Within pr z s) :
    Within pr z (flashWrite o size b s) := by
  simp only [fp_flashWrite, Print.join_cons, Print.join_nil, and_true] at hP
  obtain ⟨e0, e1, e2⟩ := hP
  unfold flashWrite
  iterate 40 (try any_goals first | with_reducible assumption | exact Print.has_prt e0 | exact Print.has_prt e1 | exact Print.has_prt e2 | with_reducible refine Within.writeBytes _ _ ?_ ?_ ?_ | with_reducible refine Within.wipe _ _ ?_ ?_ ?_ | with_reducible refine Within.emit _ ?_ ?_ | (dsimp only))

def fp_fusesLoaded : Print := .join
  [.prt .sec,
   fp_installKeys (some 0),
   fp_retargetCore none,
   fp_goStage]

theorem foot_fusesLoaded {pr : Print} {z s : State} (hP : fp_fusesLoaded.Sub pr) (hk : Within pr z s) :
    Within pr z (fusesLoaded s) := by
  simp only [fp_fusesLoaded, Print.join_cons, Print.join_nil, and_true] at hP
  obtain ⟨e0, e1, e2, e3⟩ := hP
  unfold fusesLoaded
  iterate 40 (try any_goals first | with_reducible assumption | exact Print.has_prt e0 | with_reducible refine foot_installKeys Names.one e1 ?_ | with_reducible refine foot_retargetCore Names.any e2 ?_ | with_reducible refine foot_goStage e3 ?_ | with_reducible refine Within.each ?_ ?_ | exact Or.inr (Print.has_prt (by assumption)) | with_reducible exact Or.inl rfl | intro _ | (dsimp only) | with_reducible apply Within.upd)

def fp_readMode : Print := .join
  [.prt .boot,
   fp_drawn]

theorem foot_readMode {pr : Print} {z s : State} (hP : fp_readMode.Sub pr) (hk : Within pr z s) :
    Within pr z (readMode s) := by
  simp only [fp_readMode, Print.join_cons, Print.join_nil, and_true] at hP
  obtain ⟨e0, e1⟩ := hP
  unfold readMode
  iterate 40 (try any_goals first | with_reducible assumption | exact Print.has_prt e0 | with_reducible refine Within.setBoot _ ?_ ?_ | with_reducible refine foot_drawn e1 ?_ | exact Or.inr (Print.has_prt (by assumption)) | with_reducible exact Or.inl rfl | with_reducible apply Within.upd)

def fp_takeImages : Print := .join
  [.prt .mem,
   .prt .cq,
   .reg R.BOOT_STAT.FW_SLOT,
   .reg R.BOOT_STAT.CFG_SLOT,
   .reg R.BOOT_FW.VER,
   .reg R.BOOT_SVN.FW_IMG,
   .reg R.BOOT_SVN.CFG_IMG,
   .reg R.BOOT_DIG.DIGEST,
   .reg R.BOOT_CDIG.DIGEST,
   .prt .boot,
   .prt .sec,
   fp_readMode,
   fp_loseAttest none,
   fp_drawn]

theorem foot_takeImages {pr : Print} {z s : State} {fw : Nat} {cfg : Nat} (hP : fp_takeImages.Sub pr) (hk : Within pr z s) :
    Within pr z (takeImages fw cfg s) := by
  simp only [fp_takeImages, Print.join_cons, Print.join_nil, and_true] at hP
  obtain ⟨e0, e1, e2, e3, e4, e5, e6, hP⟩ := hP
  obtain ⟨e7, e8, e9, e10, e11, e12, e13⟩ := hP
  unfold takeImages
  iterate 40 (try any_goals first | with_reducible assumption | exact Print.has_prt e0 | exact Print.has_prt e1 | exact Print.has_reg e2 | exact Print.has_reg e3 | exact Print.has_reg e4 | exact Print.has_reg e5 | exact Print.has_reg e6 | exact Print.has_reg e7 | exact Print.has_reg e8 | exact Print.has_prt e9 | exact Print.has_prt e10 | with_reducible apply Print.has_ite | with_reducible refine Within.put _ ?_ ?_ | with_reducible refine Within.writeBytes _ _ ?_ ?_ ?_ | with_reducible refine Within.wipe _ _ ?_ ?_ ?_ | with_reducible refine Within.setBoot _ ?_ ?_ | with_reducible refine foot_readMode e11 ?_ | with_reducible refine foot_loseAttest Names.any e12 ?_ | with_reducible refine foot_drawn e13 ?_ | with_reducible refine Within.each ?_ ?_ | with_reducible refine Within.when ?_ ?_ | exact Or.inr (Print.has_prt (by assumption)) | with_reducible exact Or.inl rfl | intro _ | (dsimp only) | with_reducible apply Within.upd)

def fp_firmwareReady : Print := .join
  [.reg R.BOOT_STAT.AUTOPILOT,
   .prt .boot]

theorem foot_firmwareReady {pr : Print} {z s : State} (hP : fp_firmwareReady.Sub pr) (hk : Within pr z s) :
    Within pr z (firmwareReady s) := by
  simp only [fp_firmwareReady, Print.join_cons, Print.join_nil, and_true] at hP
  obtain ⟨e0, e1⟩ := hP
  unfold firmwareReady
  iterate 40 (try any_goals first | with_reducible assumption | exact Print.has_reg e0 | exact Print.has_prt e1 | with_reducible apply Print.has_ite | with_reducible refine Within.put _ ?_ ?_ | with_reducible refine Within.setBoot _ ?_ ?_ | exact Or.inr (Print.has_prt (by assumption)) | with_reducible exact Or.inl rfl | (dsimp only) | with_reducible apply Within.upd)

def fp_warmFailed : Print := .join
  [.reg R.BOOT_STAT.CAUSE,
   fp_faultOn,
   fp_record,
   fp_recovResume]

theorem foot_warmFailed {pr : Print} {z s : State} (hP : fp_warmFailed.Sub pr) (hk : Within pr z s) :
    Within pr z (warmFailed s) := by
  simp only [fp_warmFailed, Print.join_cons, Print.join_nil, and_true] at hP
  obtain ⟨e0, e1, e2, e3⟩ := hP
  unfold warmFailed
  iterate 40 (try any_goals first | with_reducible assumption | exact Print.has_reg e0 | with_reducible apply Print.has_ite | with_reducible refine Within.put _ ?_ ?_ | with_reducible refine foot_faultOn e1 ?_ | with_reducible refine foot_record e2 ?_ | with_reducible refine foot_recovResume e3 ?_ | (dsimp only))

def fp_effBootStageTimeout : Print := .join
  [.reg R.BOOT_STAT.CAUSE,
   .prt .boot,
   fp_warmFailed,
   fp_bootFail,
   fp_goStage,
   fp_powerDown]

theorem foot_effBootStageTimeout {pr : Print} {z s : State} {sfdp : Bool} (hP : fp_effBootStageTimeout.Sub pr) (hk : Within pr z s) :
    Within pr z (effBootStageTimeout sfdp s) := by
  simp only [fp_effBootStageTimeout, Print.join_cons, Print.join_nil, and_true] at hP
  obtain ⟨e0, e1, e2, e3, e4, e5⟩ := hP
  unfold effBootStageTimeout
  iterate 40 (try any_goals first | with_reducible assumption | exact Print.has_reg e0 | exact Print.has_prt e1 | with_reducible apply Print.has_ite | with_reducible refine Within.put _ ?_ ?_ | with_reducible refine Within.setBoot _ ?_ ?_ | with_reducible refine foot_warmFailed e2 ?_ | with_reducible refine foot_bootFail e3 ?_ | with_reducible refine foot_goStage e4 ?_ | with_reducible refine foot_powerDown e5 ?_ | exact Or.inr (Print.has_prt (by assumption)) | with_reducible exact Or.inl rfl | (dsimp only) | split | with_reducible apply Within.upd)

def fp_execBootStageTimeout : Print := .join
  [fp_finish,
   fp_effBootStageTimeout]

theorem foot_execBootStageTimeout {pr : Print} {z s t : State} {sfdp : Bool} (hP : fp_execBootStageTimeout.Sub pr) (hk : Within pr z s)
    (h : execBootStageTimeout sfdp s = .next t) : Within pr z t := by
  simp only [fp_execBootStageTimeout, Print.join_cons, Print.join_nil, and_true] at hP
  obtain ⟨e0, e1⟩ := hP
  unfold execBootStageTimeout done at h
  injection h with h
  subst h
  iterate 40 (try any_goals first | with_reducible assumption | with_reducible refine foot_finish e0 ?_ | with_reducible refine foot_effBootStageTimeout e1 ?_)

def fp_execFwOpen : Print := .join
  [.prt .mem,
   .prt .cq,
   .prt .out,
   .prt .boot,
   fp_finish,
   fp_command,
   fp_complete]

theorem foot_execFwOpen {pr : Print} {z s t : State} {port : Nat} {tag : Nat} {failed : Bool} (hP : fp_execFwOpen.Sub pr) (hk : Within pr z s)
    (h : execFwOpen port tag failed s = .next t) : Within pr z t := by
  simp only [fp_execFwOpen, Print.join_cons, Print.join_nil, and_true] at hP
  obtain ⟨e0, e1, e2, e3, e4, e5, e6⟩ := hP
  unfold execFwOpen done at h
  injection h with h
  subst h
  iterate 40 (try any_goals first | with_reducible assumption | exact Print.has_prt e0 | exact Print.has_prt e1 | exact Print.has_prt e2 | exact Print.has_prt e3 | with_reducible refine Within.wipe _ _ ?_ ?_ ?_ | with_reducible refine Within.setBoot _ ?_ ?_ | with_reducible refine Within.emit _ ?_ ?_ | with_reducible refine foot_finish e4 ?_ | with_reducible refine foot_command e5 ?_ ?_ | with_reducible refine foot_complete e6 ?_ | exact Or.inr (Print.has_prt (by assumption)) | with_reducible exact Or.inl rfl | intro _ | (dsimp only) | split | with_reducible apply Within.upd)

def fp_freeWords : Print := .join
  [.prt .mem,
   .prt .cq,
   fp_drawn]

theorem foot_freeWords {p : Print} {z s : State} {a n : Nat} (hP : fp_freeWords.Sub p) (hk : Within p z s) : Within p z (freeWords a n s) := by
  have hP' := hP
  simp only [fp_freeWords, Print.join_cons, Print.join_nil, and_true] at hP'
  obtain ⟨e0, e1, e2⟩ := hP'
  induction n generalizing s a with
  | zero => unfold freeWords; exact hk
  | succ n ih => unfold freeWords; exact ih (foot_drawn e2 (Within.writeWord32 _ _ (Print.has_prt e0) (Print.has_prt e1) hk))

def fp_execFwWrite : Print := .join
  [.prt .out,
   .prt .boot,
   fp_finish,
   fp_command,
   fp_freeWords,
   fp_complete,
   fp_writeWords]

theorem foot_execFwWrite {pr : Print} {z s t : State} {port : Nat} {tag : Nat} {failed : Bool} (hP : fp_execFwWrite.Sub pr) (hk : Within pr z s)
    (h : execFwWrite port tag failed s = .next t) : Within pr z t := by
  simp only [fp_execFwWrite, Print.join_cons, Print.join_nil, and_true] at hP
  obtain ⟨e0, e1, e2, e3, e4, e5, e6⟩ := hP
  unfold execFwWrite done at h
  injection h with h
  subst h
  iterate 40 (try any_goals first | with_reducible assumption | exact Print.has_prt e0 | exact Print.has_prt e1 | with_reducible refine Within.setBoot _ ?_ ?_ | with_reducible refine Within.emit _ ?_ ?_ | with_reducible refine foot_finish e2 ?_ | with_reducible refine foot_command e3 ?_ ?_ | with_reducible refine foot_freeWords e4 ?_ | with_reducible refine foot_complete e5 ?_ | with_reducible refine foot_writeWords e6 ?_ | exact Or.inr (Print.has_prt (by assumption)) | with_reducible exact Or.inl rfl | intro _ | (dsimp only) | split | with_reducible apply Within.upd)

def fp_cutRecord : Print := .join
  [fp_flashWrite]

theorem foot_cutRecord {pr : Print} {z s : State} {copy : Nat} {n : Nat} {b : List Nat} (hP : fp_cutRecord.Sub pr) (hk : Within pr z s) :
    Within pr z (cutRecord copy n b s) := by
  simp only [fp_cutRecord, Print.join_cons, Print.join_nil, and_true] at hP
  have e0 := hP
  unfold cutRecord
  iterate 40 (try any_goals first | with_reducible assumption | with_reducible refine foot_flashWrite e0 ?_ | (dsimp only) | split)

def fp_execFwRestart : Print := .join
  [.prt .boot,
   fp_finish,
   fp_command,
   fp_markStarted,
   fp_trigger,
   fp_leaveBootFail,
   fp_orphan,
   fp_startWarm]

theorem foot_execFwRestart {pr : Print} {z s t : State} {port : Nat} {tag : Nat} (hP : fp_execFwRestart.Sub pr) (hk : Within pr z s)
    (h : execFwRestart port tag s = .next t) : Within pr z t := by
  simp only [fp_execFwRestart, Print.join_cons, Print.join_nil, and_true] at hP
  obtain ⟨e0, e1, e2, e3, e4, e5, e6, e7⟩ := hP
  unfold execFwRestart done at h
  injection h with h
  subst h
  iterate 40 (try any_goals first | with_reducible assumption | exact Print.has_prt e0 | with_reducible refine Within.setBoot _ ?_ ?_ | with_reducible refine foot_finish e1 ?_ | with_reducible refine foot_command e2 ?_ ?_ | with_reducible refine foot_markStarted e3 ?_ | with_reducible refine foot_trigger e4 ?_ | with_reducible refine foot_leaveBootFail e5 ?_ | with_reducible refine foot_orphan e6 ?_ | with_reducible refine foot_startWarm e7 ?_ | exact Or.inr (Print.has_prt (by assumption)) | with_reducible exact Or.inl rfl | intro _ | (dsimp only) | split | with_reducible apply Within.upd)

def fp_askCounts : Print := .join
  [fp_keySend]

theorem foot_askCounts {pr : Print} {z s : State} (hP : fp_askCounts.Sub pr) (hk : Within pr z s) :
    Within pr z (askCounts s) := by
  simp only [fp_askCounts, Print.join_cons, Print.join_nil, and_true] at hP
  have e0 := hP
  unfold askCounts
  iterate 40 (try any_goals first | with_reducible assumption | with_reducible refine foot_keySend e0 ?_ | with_reducible refine Within.each ?_ ?_ | intro _ | (dsimp only))

def fp_microsecond : Print := .join
  [.reg R.CLK_COAST_US.TIME,
   .reg1 R.CAP_THR_US.TIME none,
   .reg R.FIL_WARM_STAT.ELAPSED_S,
   .prt .us,
   .prt .capp,
   .prt .boot,
   fp_scrubFalls none,
   fp_askCounts]

theorem foot_microsecond {pr : Print} {z s : State} (hP : fp_microsecond.Sub pr) (hk : Within pr z s) :
    Within pr z (microsecond s) := by
  simp only [fp_microsecond, Print.join_cons, Print.join_nil, and_true] at hP
  obtain ⟨e0, e1, e2, e3, e4, e5, e6, e7⟩ := hP
  unfold microsecond
  iterate 40 (try any_goals first | with_reducible assumption | exact Print.has_reg e0 | exact Print.has_reg1 Names.any e1 | exact Print.has_reg e2 | exact Print.has_prt e3 | exact Print.has_prt e4 | exact Print.has_prt e5 | with_reducible apply Print.has_ite | with_reducible refine Within.put _ ?_ ?_ | with_reducible refine Within.addSat _ ?_ ?_ | with_reducible refine Within.addWrap _ ?_ ?_ | with_reducible refine foot_scrubFalls Names.any e6 ?_ | with_reducible refine foot_askCounts e7 ?_ | with_reducible refine Within.each ?_ ?_ | with_reducible refine Within.when ?_ ?_ | exact Or.inr (Print.has_prt (by assumption)) | with_reducible exact Or.inl rfl | intro _ | (dsimp only) | split | with_reducible apply Within.upd)

def fp_keepShown : Print := .join
  [.prt .sec]

theorem foot_keepShown {pr : Print} {z s : State} {f : Field} {v : Nat} (hP : fp_keepShown.Sub pr) (hk : Within pr z s) :
    Within pr z (keepShown f v s) := by
  simp only [fp_keepShown, Print.join_cons, Print.join_nil, and_true] at hP
  have e0 := hP
  unfold keepShown
  iterate 40 (try any_goals first | with_reducible assumption | exact Print.has_prt e0 | exact Or.inr (Print.has_prt (by assumption)) | with_reducible exact Or.inl rfl | with_reducible apply Within.upd)

def fp_second : Print := .join
  [.reg1 R.SEC_PART_PWR.P none,
   .prt .sec,
   fp_keepShown]

theorem foot_second {pr : Print} {z s : State} (hP : fp_second.Sub pr) (hk : Within pr z s) :
    Within pr z (second s) := by
  simp only [fp_second, Print.join_cons, Print.join_nil, and_true] at hP
  obtain ⟨e0, e1, e2⟩ := hP
  unfold second
  iterate 40 (try any_goals first | with_reducible assumption | exact Print.has_reg1 Names.any e0 | exact Print.has_prt e1 | with_reducible apply Print.has_ite | with_reducible refine Within.put _ ?_ ?_ | with_reducible refine foot_keepShown e2 ?_ | with_reducible refine Within.each ?_ ?_ | with_reducible refine Within.when ?_ ?_ | exact Or.inr (Print.has_prt (by assumption)) | with_reducible exact Or.inl rfl | intro _ | (dsimp only) | split | with_reducible apply Within.upd)

def fp_tick : Print := .join
  [.reg R.CLK_TIME.COUNT,
   .prt .clk,
   fp_drawn,
   fp_microsecond,
   fp_second]

theorem foot_tick {pr : Print} {z s : State} (hP : fp_tick.Sub pr) (hk : Within pr z s) :
    Within pr z (tick s) := by
  simp only [fp_tick, Print.join_cons, Print.join_nil, and_true] at hP
  obtain ⟨e0, e1, e2, e3, e4⟩ := hP
  unfold tick
  iterate 40 (try any_goals first | with_reducible assumption | exact Print.has_reg e0 | exact Print.has_prt e1 | with_reducible apply Print.has_ite | with_reducible refine Within.addWrap _ ?_ ?_ | with_reducible refine foot_drawn e2 ?_ | with_reducible refine foot_microsecond e3 ?_ | with_reducible refine foot_second e4 ?_ | with_reducible refine Within.when ?_ ?_ | exact Or.inr (Print.has_prt (by assumption)) | with_reducible exact Or.inl rfl | intro _ | (dsimp only) | split | with_reducible apply Within.upd)

end Sys2Proof.Machine
end

