-- ==== Sys2Proof/Laws/Kept.lean ====
section
/-! SUPPORT. Sys2Proof/Laws/Kept.lean: the primitive operations keep the queue, the canonical form and the fuses
(`Kept`). -/

set_option linter.unusedTactic false
set_option linter.unreachableTactic false

namespace Sys2Proof.Machine

/-- The parts of State.wf by name. -/
theorem State.wf_iff (s : State) : s.wf = true ↔ risesFrom 0 s.regs = true ∧ sparseWf memDefault s.mem = true ∧
    sparseWf (fun _ => LinkD.init) s.links = true ∧ sparseWf (fun _ => LaneH.init) s.lanes = true ∧
    sparseWf (fun _ => PmbC.init) s.pmb = true ∧ sparseWf (fun _ => PhaseH.init) s.phases = true ∧
    sparseWf RailH.init s.rails = true ∧ sparseWf (fun _ => ItnD.init) s.itn = true ∧
    sparseWf (fun _ => TokD.init) s.tok = true ∧ sparseWf (fun _ => CapD.init) s.capd = true ∧
    sparseWf (fun _ => EstD.init) s.estd = true ∧ sparseWf (fun _ => PartH.init) s.sec.parts = true := by
  simp only [State.wf, Memory.wf, Bool.and_eq_true, and_assoc]

theorem Kept.refl (s : State) : Kept s s := ⟨rfl, id, fun _ _ _ => rfl⟩

theorem Kept.trans {a b c : State} (h : Kept a b) (k : Kept b c) : Kept a c :=
  ⟨k.pending.trans h.pending, fun w => k.wf (h.wf w), fun g hg hs => (k.fuse g hg hs).trans (h.fuse g hg hs)⟩

/-- The key of a field that is no fuse lies above the fuses. -/
theorem keyClass_ne_fuse {f : Field} (h : f.cls ≠ Ret.fuse) : keyClass (fieldKey f) ≠ retCode Ret.fuse := by
  have : 1 ≤ retCode f.cls := by cases hc : f.cls <;> simp_all [retCode]
  have h0 : retCode Ret.fuse = 0 := rfl
  rw [h0]
  simp only [keyClass, fieldKey]
  omega

/-- A state whose tables but one agree with those of another. -/
theorem Kept.of_eq {a s t : State} (h : Kept a s) (hp : t.pending = s.pending) (hw : s.wf = true → t.wf = true)
    (hr : t.regs = s.regs) : Kept a t :=
  h.trans ⟨hp, hw, fun g _ _ => by simp only [get, hr]⟩

theorem Kept.put {a s : State} (f : Field) (v : Nat) (h : Kept a s) : Kept a (put f v s) := by
  refine h.trans ?_
  unfold Machine.put
  split
  · exact .refl s
  · rename_i hc
    refine ⟨rfl, fun w => ?_, fun g hg _ => ?_⟩
    · rw [State.wf_iff] at w ⊢
      exact ⟨risesFrom_sset _ _ _ w.1, w.2⟩
    · simp only [get]
      refine sget_sset_ne _ _ _ (fun e => keyClass_ne_fuse hc ?_) _
      rw [e, hg]

theorem Kept.blow {a s : State} (f : Field) (v : Nat) (hf : isSvn f = true) (h : Kept a s) : Kept a (blow f v s) := by
  refine h.trans ⟨rfl, fun w => ?_, fun g _ hs => ?_⟩
  · rw [State.wf_iff] at w ⊢
    exact ⟨risesFrom_sset _ _ _ w.1, w.2⟩
  · simp only [get, Machine.blow]
    refine sget_sset_ne _ _ _ (fun e => ?_) _
    simp only [isSvn, e] at hf hs
    simp_all

theorem Kept.putI {a s : State} (f : Field) (x : Int) (h : Kept a s) : Kept a (putI f x s) := h.put ..
theorem Kept.putB {a s : State} (f : Field) (b : Bool) (h : Kept a s) : Kept a (putB f b s) := h.put ..
theorem Kept.event {a s : State} (f : Field) (b : Nat) (h : Kept a s) : Kept a (event f b s) := h.put ..
theorem Kept.unevent {a s : State} (f : Field) (b : Nat) (h : Kept a s) : Kept a (unevent f b s) := h.put ..
theorem Kept.putBitF {a s : State} (f : Field) (b : Nat) (v : Bool) (h : Kept a s) : Kept a (putBitF f b v s) := h.put ..
theorem Kept.addSat {a s : State} (f : Field) (n : Nat) (h : Kept a s) : Kept a (addSat f n s) := h.put ..
theorem Kept.addWrap {a s : State} (f : Field) (n : Nat) (h : Kept a s) : Kept a (addWrap f n s) := h.put ..

/-- Entries of the register file removed, none of them a fuse. -/
theorem Kept.filter {a s : State} (p : Nat × Nat → Bool) (hp : ∀ k v, keyClass k = 0 → p (k, v) = true) (h : Kept a s) :
    Kept a { s with regs := s.regs.filter p } := by
  refine h.trans ⟨rfl, fun w => ?_, fun g hg _ => ?_⟩
  · rw [State.wf_iff] at w ⊢
    exact ⟨risesFrom_filter _ w.1, w.2⟩
  · exact sget_filter _ _ _ _ fun v => hp _ v hg

theorem Kept.clearClass {a s : State} (c : Ret) (hc : c ≠ Ret.fuse) (h : Kept a s) : Kept a (clearClass c s) := by
  refine Kept.filter _ (fun k v hk => ?_) h
  cases c <;> simp_all [retCode]

theorem Kept.clearDieRegs {a s : State} (d : Nat) (h : Kept a s) : Kept a (clearDieRegs d s) := by
  refine Kept.filter _ (fun k v hk => ?_) h
  simp [hk, retCode]

theorem Kept.each {a s : State} {α : Type} {l : List α} {f : α → State → State}
    (hf : ∀ x t, Kept a t → Kept a (f x t)) (h : Kept a s) : Kept a (each l f s) := by
  unfold Machine.each
  induction l generalizing s with
  | nil => exact h
  | cons x l ih => exact ih (hf x s h)

/-- A step for each element of a list folded over the state. -/
theorem Kept.fold {a s : State} {α : Type} {l : List α} {f : State → α → State}
    (hf : ∀ x t, Kept a t → Kept a (f t x)) (h : Kept a s) : Kept a (l.foldl f s) := by
  induction l generalizing s with
  | nil => exact h
  | cons x l ih => exact ih (hf x s h)

theorem Kept.when {a s : State} {c : Bool} {f : State → State} (hf : ∀ t, Kept a t → Kept a (f t)) (h : Kept a s) :
    Kept a (when c f s) := by
  unfold Machine.when
  split
  · exact hf s h
  · exact h

/-- Every part of the state changed but the queue and the tables that the canonical form names. -/
theorem Kept.upd {a s : State} (h : Kept a s) {free out resp us clk test self capp estp therm ring recov sec host i3c log boot pins}
    (hsec : sec.parts = s.sec.parts) :
    Kept a ⟨s.pending, s.regs, s.mem, free, out, resp, us, clk, s.links, s.lanes, s.pmb, s.phases, s.rails, test, self, s.itn,
      s.tok, s.capd, capp, s.estd, estp, therm, ring, recov, sec, host, i3c, log, boot, pins⟩ := by
  refine h.of_eq rfl (fun w => ?_) rfl
  rw [State.wf_iff] at w ⊢
  simpa only [hsec] using w

theorem Kept.writeByte {a s : State} (x v : Nat) (h : Kept a s) : Kept a (writeByte x v s) := by
  refine h.of_eq rfl (fun w => ?_) rfl
  rw [State.wf_iff] at w ⊢
  exact ⟨w.1, sparseWf_sset memDefault _ _ w.2.1, w.2.2⟩

theorem Kept.writeBytes {a s : State} (x : Nat) (l : List Nat) (h : Kept a s) : Kept a (writeBytes x l s) := by
  induction l generalizing s x with
  | nil => exact h
  | cons b l ih => exact ih (x + 1) (h.writeByte x b)

theorem Kept.writeWord32 {a s : State} (x v : Nat) (h : Kept a s) : Kept a (writeWord32 x v s) := h.writeBytes ..

theorem Kept.wipe {a s : State} (lo hi : Nat) (h : Kept a s) : Kept a (wipe lo hi s) := by
  refine h.of_eq rfl (fun w => ?_) rfl
  rw [State.wf_iff] at w ⊢
  exact ⟨w.1, sparseWf_filter memDefault _ w.2.1, w.2.2⟩

theorem Kept.setLink {a s : State} (d : Nat) (v : LinkD) (h : Kept a s) : Kept a (setLink d v s) :=
  h.of_eq rfl (fun w => by simp_all only [State.wf_iff, Machine.setLink, sparseWf_sset, and_self]) rfl

theorem Kept.setLane {a s : State} (d : Nat) (v : LaneH) (h : Kept a s) : Kept a (setLane d v s) :=
  h.of_eq rfl (fun w => by simp_all only [State.wf_iff, Machine.setLane, sparseWf_sset, and_self]) rfl

theorem Kept.setConv {a s : State} (d : Nat) (v : PmbC) (h : Kept a s) : Kept a (setConv d v s) :=
  h.of_eq rfl (fun w => by simp_all only [State.wf_iff, Machine.setConv, sparseWf_sset, and_self]) rfl

theorem Kept.setPhase {a s : State} (d : Nat) (v : PhaseH) (h : Kept a s) : Kept a (setPhase d v s) :=
  h.of_eq rfl (fun w => by simp_all only [State.wf_iff, Machine.setPhase, sparseWf_sset, and_self]) rfl

theorem Kept.setRail {a s : State} (d : Nat) (v : RailH) (h : Kept a s) : Kept a (setRail d v s) :=
  h.of_eq rfl (fun w => by simp_all only [State.wf_iff, Machine.setRail, sparseWf_sset, and_self]) rfl

theorem Kept.setItn {a s : State} (d : Nat) (v : ItnD) (h : Kept a s) : Kept a (setItn d v s) :=
  h.of_eq rfl (fun w => by simp_all only [State.wf_iff, Machine.setItn, sparseWf_sset, and_self]) rfl

theorem Kept.setTok {a s : State} (d : Nat) (v : TokD) (h : Kept a s) : Kept a (setTok d v s) :=
  h.of_eq rfl (fun w => by simp_all only [State.wf_iff, Machine.setTok, sparseWf_sset, and_self]) rfl

theorem Kept.setCap {a s : State} (d : Nat) (v : CapD) (h : Kept a s) : Kept a (setCap d v s) :=
  h.of_eq rfl (fun w => by simp_all only [State.wf_iff, Machine.setCap, sparseWf_sset, and_self]) rfl

theorem Kept.setEst {a s : State} (d : Nat) (v : EstD) (h : Kept a s) : Kept a (setEst d v s) :=
  h.of_eq rfl (fun w => by simp_all only [State.wf_iff, Machine.setEst, sparseWf_sset, and_self]) rfl

theorem Kept.setPart {a s : State} (d : Nat) (v : PartH) (h : Kept a s) : Kept a (setPart d v s) :=
  h.of_eq rfl (fun w => by simp_all only [State.wf_iff, Machine.setPart, sparseWf_sset, and_self]) rfl

end Sys2Proof.Machine
end

