-- ==== Sys2Proof/Laws/KeptA.lean ====
section
/-! SUPPORT. Sys2Proof/Laws/KeptA.lean: what each operation and each meaning of Ops.lean, Flags.lean, Frames.lean, Operands.lean, Recorder.lean, Crypto.lean, Keys.lean, Recovery.lean, Security.lean, Thermal.lean keeps (`Kept`), one lemma each. -/

set_option linter.unusedTactic false
set_option linter.unreachableTactic false

namespace Sys2Proof.Machine

theorem kept_drawn {z s : State} (hk : Kept z s) : Kept z (drawn s) := by
  unfold drawn
  iterate 30 (try any_goals first | with_reducible assumption | with_reducible apply Kept.each | with_reducible apply Kept.when | with_reducible apply Kept.fold | exact Eq.refl _ | decide | intro _ | (dsimp only) | split | fail_if_no_progress with_reducible apply Kept.upd)

theorem kept_setBoot {z s : State} (v : BootH) (hk : Kept z s) : Kept z (setBoot v s) := by
  unfold setBoot
  iterate 30 (try any_goals first | with_reducible assumption | with_reducible apply Kept.each | with_reducible apply Kept.when | with_reducible apply Kept.fold | exact Eq.refl _ | decide | intro _ | (dsimp only) | split | fail_if_no_progress with_reducible apply Kept.upd)

theorem kept_setPins {z s : State} (v : Pins) (hk : Kept z s) : Kept z (setPins v s) := by
  unfold setPins
  iterate 30 (try any_goals first | with_reducible assumption | with_reducible apply Kept.each | with_reducible apply Kept.when | with_reducible apply Kept.fold | exact Eq.refl _ | decide | intro _ | (dsimp only) | split | fail_if_no_progress with_reducible apply Kept.upd)

theorem kept_emit {z s : State} (o : Out) (hk : Kept z s) : Kept z (emit o s) := by
  unfold emit
  iterate 30 (try any_goals first | with_reducible assumption | with_reducible apply Kept.each | with_reducible apply Kept.when | with_reducible apply Kept.fold | exact Eq.refl _ | decide | intro _ | (dsimp only) | split | fail_if_no_progress with_reducible apply Kept.upd)

theorem kept_recordAt {z s : State} (time code subj part arg : Nat) (hk : Kept z s) : Kept z (recordAt time code subj part arg s) := by
  unfold recordAt
  iterate 30 (try any_goals first | with_reducible assumption | with_reducible apply Kept.each | with_reducible apply Kept.when | with_reducible apply Kept.fold | exact Eq.refl _ | decide | intro _ | (dsimp only) | split | fail_if_no_progress with_reducible apply Kept.upd)

theorem kept_record {z s : State} (code arg : Nat) (hk : Kept z s) : Kept z (record code arg s) := by
  unfold record
  iterate 30 (try any_goals first | with_reducible assumption | with_reducible apply kept_recordAt | with_reducible apply Kept.each | with_reducible apply Kept.when | with_reducible apply Kept.fold | exact Eq.refl _ | decide | intro _ | (dsimp only) | split | fail_if_no_progress with_reducible apply Kept.upd)

theorem kept_recordDie {z s : State} (code d arg : Nat) (hk : Kept z s) : Kept z (recordDie code d arg s) := by
  unfold recordDie
  iterate 30 (try any_goals first | with_reducible assumption | with_reducible apply kept_recordAt | with_reducible apply Kept.each | with_reducible apply Kept.when | with_reducible apply Kept.fold | exact Eq.refl _ | decide | intro _ | (dsimp only) | split | fail_if_no_progress with_reducible apply Kept.upd)

theorem kept_queueEvent {z s : State} (e : Event) (hk : Kept z s) : Kept z (queueEvent e s) := by
  unfold queueEvent
  iterate 30 (try any_goals first | with_reducible assumption | with_reducible apply Kept.addSat | with_reducible apply Kept.event | with_reducible apply Kept.each | with_reducible apply Kept.when | with_reducible apply Kept.fold | exact Eq.refl _ | decide | intro _ | (dsimp only) | split | fail_if_no_progress with_reducible apply Kept.upd)

theorem kept_finish {z s : State} (hk : Kept z s) : Kept z (finish s) := by
  unfold finish
  repeat' first | with_reducible assumption | with_reducible apply kept_queueEvent | with_reducible apply Kept.each | fail_if_no_progress with_reducible apply Kept.upd | rfl | intro _

theorem queueEvent_fresh (e : Event) (s : State) : (queueEvent e s).log.fresh = s.log.fresh := by
  unfold queueEvent event addSat put
  repeat' first | rfl | split

theorem finish_fresh (s : State) : (finish s).log.fresh = [] := by
  unfold finish each
  generalize s.log.fresh.foldl (fun l e => insertEvent e l) [] = l
  have : ∀ (t : State), t.log.fresh = [] → (l.foldl (fun s x => queueEvent x s) t).log.fresh = [] := by
    induction l with
    | nil => exact fun _ h => h
    | cons e l ih => exact fun t h => ih _ ((queueEvent_fresh e t).trans h)
  exact this _ rfl

/-- What a meaning ends in: the next state, which keeps all that Kept names, no event left behind. -/
def Ends (s : State) (o : Host.Outcome State Fault Refusal) : Prop :=
  ∃ t, o = .next t ∧ Kept s t ∧ t.log.fresh = []

theorem ends_done {s t : State} (h : Kept s t) : Ends s (done t) :=
  ⟨finish t, rfl, kept_finish h, finish_fresh t⟩

theorem kept_notify {z s : State} (b p : Nat) (hk : Kept z s) : Kept z (notify b p s) := by
  unfold notify
  iterate 30 (try any_goals first | with_reducible assumption | with_reducible apply kept_emit | with_reducible apply Kept.event | with_reducible apply Kept.each | with_reducible apply Kept.when | with_reducible apply Kept.fold | exact Eq.refl _ | decide | intro _ | (dsimp only) | split | fail_if_no_progress with_reducible apply Kept.upd)

theorem kept_notifyAll {z s : State} (b : Nat) (t : Nat → Bool) (hk : Kept z s) : Kept z (notifyAll b t s) := by
  unfold notifyAll
  iterate 30 (try any_goals first | with_reducible assumption | with_reducible apply kept_notify | with_reducible apply Kept.each | with_reducible apply Kept.when | with_reducible apply Kept.fold | exact Eq.refl _ | decide | intro _ | (dsimp only) | split | fail_if_no_progress with_reducible apply Kept.upd)

theorem kept_faultOn {z s : State} (b : Nat) (hk : Kept z s) : Kept z (faultOn b s) := by
  unfold faultOn
  iterate 30 (try any_goals first | with_reducible assumption | with_reducible apply Kept.event | with_reducible apply kept_notifyAll | with_reducible apply Kept.each | with_reducible apply Kept.when | with_reducible apply Kept.fold | exact Eq.refl _ | decide | intro _ | (dsimp only) | split | fail_if_no_progress with_reducible apply Kept.upd)

theorem kept_faultOff {z s : State} (b : Nat) (hk : Kept z s) : Kept z (faultOff b s) := by
  unfold faultOff
  iterate 30 (try any_goals first | with_reducible assumption | with_reducible apply Kept.unevent | with_reducible apply Kept.each | with_reducible apply Kept.when | with_reducible apply Kept.fold | exact Eq.refl _ | decide | intro _ | (dsimp only) | split | fail_if_no_progress with_reducible apply Kept.upd)

theorem kept_countHealth {z s : State} (c n : Nat) (hk : Kept z s) : Kept z (countHealth c n s) := by
  unfold countHealth
  iterate 30 (try any_goals first | with_reducible assumption | with_reducible apply Kept.addWrap | with_reducible apply Kept.each | with_reducible apply Kept.when | with_reducible apply Kept.fold | exact Eq.refl _ | decide | intro _ | (dsimp only) | split | fail_if_no_progress with_reducible apply Kept.upd)

theorem kept_bumpGen {z s : State} (hk : Kept z s) : Kept z (bumpGen s) := by
  unfold bumpGen
  iterate 30 (try any_goals first | with_reducible assumption | with_reducible apply Kept.addWrap | with_reducible apply Kept.each | with_reducible apply Kept.when | with_reducible apply Kept.fold | exact Eq.refl _ | decide | intro _ | (dsimp only) | split | fail_if_no_progress with_reducible apply Kept.upd)

theorem kept_violation {z s : State} (port kind ofs opcode : Nat) (hk : Kept z s) : Kept z (violation port kind ofs opcode s) := by
  unfold violation
  iterate 30 (try any_goals first | with_reducible assumption | with_reducible apply Kept.addSat | with_reducible apply kept_notifyAll | with_reducible apply Kept.put | with_reducible apply Kept.each | with_reducible apply Kept.when | with_reducible apply Kept.fold | exact Eq.refl _ | decide | intro _ | (dsimp only) | split | fail_if_no_progress with_reducible apply Kept.upd)

theorem kept_writeCompletion {z s : State} (port tag opcode idx : Nat) (irq : Bool) (status r0 r1 : Nat) (hk : Kept z s) : Kept z (writeCompletion port tag opcode idx irq status r0 r1 s) := by
  unfold writeCompletion
  iterate 30 (try any_goals first | with_reducible assumption | with_reducible apply kept_emit | with_reducible apply kept_notify | with_reducible apply Kept.put | with_reducible apply Kept.writeWord32 | with_reducible apply Kept.each | with_reducible apply Kept.when | with_reducible apply Kept.fold | exact Eq.refl _ | decide | intro _ | (dsimp only) | split | fail_if_no_progress with_reducible apply Kept.upd)

theorem kept_dropFlight {z s : State} (port tag : Nat) (hk : Kept z s) : Kept z (dropFlight port tag s) := by
  unfold dropFlight
  iterate 30 (try any_goals first | with_reducible assumption | with_reducible apply Kept.each | with_reducible apply Kept.when | with_reducible apply Kept.fold | exact Eq.refl _ | decide | intro _ | (dsimp only) | split | fail_if_no_progress with_reducible apply Kept.upd)

theorem kept_complete {z s : State} (fl : Flight) (status r0 r1 : Nat) (hk : Kept z s) : Kept z (complete fl status r0 r1 s) := by
  unfold complete
  iterate 30 (try any_goals first | with_reducible assumption | with_reducible apply kept_dropFlight | with_reducible apply kept_writeCompletion | with_reducible apply Kept.each | with_reducible apply Kept.when | with_reducible apply Kept.fold | exact Eq.refl _ | decide | intro _ | (dsimp only) | split | fail_if_no_progress with_reducible apply Kept.upd)

theorem kept_completeAt {z s : State} (port tag status r0 r1 : Nat) (hk : Kept z s) : Kept z (completeAt port tag status r0 r1 s) := by
  unfold completeAt
  iterate 30 (try any_goals first | with_reducible assumption | with_reducible apply kept_complete | with_reducible apply Kept.each | with_reducible apply Kept.when | with_reducible apply Kept.fold | exact Eq.refl _ | decide | intro _ | (dsimp only) | split | fail_if_no_progress with_reducible apply Kept.upd)

theorem kept_markStarted {z s : State} (port tag : Nat) (hk : Kept z s) : Kept z (markStarted port tag s) := by
  unfold markStarted
  iterate 30 (try any_goals first | with_reducible assumption | with_reducible apply Kept.each | with_reducible apply Kept.when | with_reducible apply Kept.fold | exact Eq.refl _ | decide | intro _ | (dsimp only) | split | fail_if_no_progress with_reducible apply Kept.upd)

theorem kept_keepResult {z s : State} (port tag r0 r1 : Nat) (hk : Kept z s) : Kept z (keepResult port tag r0 r1 s) := by
  unfold keepResult
  iterate 30 (try any_goals first | with_reducible assumption | with_reducible apply Kept.each | with_reducible apply Kept.when | with_reducible apply Kept.fold | exact Eq.refl _ | decide | intro _ | (dsimp only) | split | fail_if_no_progress with_reducible apply Kept.upd)

theorem kept_command {z s : State} {opcode port tag : Nat} {checks : Flight → List (Bool × Nat)}
    {effect : Flight → State → State} (he : ∀ fl t, Kept z t → Kept z (effect fl t)) (hk : Kept z s) :
    Kept z (command opcode port tag s checks effect) := by
  unfold command
  repeat' first | with_reducible assumption | with_reducible apply kept_complete | with_reducible apply he | split

theorem kept_acceptFrame {z s : State} {up : Bool} {ty d : Nat} {fr : Frame} {f : State → State}
    (hf : ∀ t, Kept z t → Kept z (f t)) (hk : Kept z s) : Kept z (acceptFrame up ty d fr f s) := by
  unfold acceptFrame
  dsimp only
  repeat' first | with_reducible assumption | with_reducible apply hf | with_reducible apply Kept.setLink | split

theorem kept_sendFrame {z s : State} (up : Bool) (ty d : Nat) (payload : List Nat) (hk : Kept z s) : Kept z (sendFrame up ty d payload s) := by
  unfold sendFrame
  iterate 30 (try any_goals first | with_reducible assumption | with_reducible apply kept_emit | with_reducible apply Kept.setLink | with_reducible apply Kept.each | with_reducible apply Kept.when | with_reducible apply Kept.fold | exact Eq.refl _ | decide | intro _ | (dsimp only) | split | fail_if_no_progress with_reducible apply Kept.upd)

theorem kept_sendMsg {z s : State} (up : Bool) (d : Nat) (m : Msg) (hk : Kept z s) : Kept z (sendMsg up d m s) := by
  unfold sendMsg
  iterate 30 (try any_goals first | with_reducible assumption | with_reducible apply kept_emit | with_reducible apply kept_sendFrame | with_reducible apply Kept.each | with_reducible apply Kept.when | with_reducible apply Kept.fold | exact Eq.refl _ | decide | intro _ | (dsimp only) | split | fail_if_no_progress with_reducible apply Kept.upd)

theorem kept_sendMsgs {z s : State} (up : Bool) (d : Nat) (l : List Msg) (hk : Kept z s) : Kept z (sendMsgs up d l s) := by
  unfold sendMsgs
  iterate 30 (try any_goals first | with_reducible assumption | with_reducible apply kept_sendMsg | with_reducible apply Kept.each | with_reducible apply Kept.when | with_reducible apply Kept.fold | exact Eq.refl _ | decide | intro _ | (dsimp only) | split | fail_if_no_progress with_reducible apply Kept.upd)

theorem kept_sendDown {z s : State} (ty d : Nat) (content : List Nat) (o : Out) (hk : Kept z s) : Kept z (sendDown ty d content o s) := by
  unfold sendDown
  iterate 30 (try any_goals first | with_reducible assumption | with_reducible apply kept_sendMsg | with_reducible apply Kept.each | with_reducible apply Kept.when | with_reducible apply Kept.fold | exact Eq.refl _ | decide | intro _ | (dsimp only) | split | fail_if_no_progress with_reducible apply Kept.upd)

theorem kept_sendUp {z s : State} (ty d : Nat) (content : List Nat) (o : Out) (hk : Kept z s) : Kept z (sendUp ty d content o s) := by
  unfold sendUp
  iterate 30 (try any_goals first | with_reducible assumption | with_reducible apply kept_sendMsg | with_reducible apply Kept.each | with_reducible apply Kept.when | with_reducible apply Kept.fold | exact Eq.refl _ | decide | intro _ | (dsimp only) | split | fail_if_no_progress with_reducible apply Kept.upd)

theorem kept_agentTells {z s : State} (ty d : Nat) (content : List Nat) (o : Out) (hk : Kept z s) : Kept z (agentTells ty d content o s) := by
  unfold agentTells
  iterate 30 (try any_goals first | with_reducible assumption | with_reducible apply kept_sendUp | with_reducible apply Kept.setLink | with_reducible apply Kept.each | with_reducible apply Kept.when | with_reducible apply Kept.fold | exact Eq.refl _ | decide | intro _ | (dsimp only) | split | fail_if_no_progress with_reducible apply Kept.upd)

theorem kept_sendOrder {z s : State} (kind ctx : Nat) (hk : Kept z s) : Kept z (sendOrder kind ctx s) := by
  unfold sendOrder
  iterate 30 (try any_goals first | with_reducible assumption | with_reducible apply kept_emit | with_reducible apply kept_sendFrame | with_reducible apply Kept.each | with_reducible apply Kept.when | with_reducible apply Kept.fold | exact Eq.refl _ | decide | intro _ | (dsimp only) | split | fail_if_no_progress with_reducible apply Kept.upd)

theorem kept_allAcknowledge {z s : State} (order subject : Nat) (hk : Kept z s) : Kept z (allAcknowledge order subject s) := by
  unfold allAcknowledge
  iterate 30 (try any_goals first | with_reducible assumption | with_reducible apply kept_agentTells | with_reducible apply Kept.each | with_reducible apply Kept.when | with_reducible apply Kept.fold | exact Eq.refl _ | decide | intro _ | (dsimp only) | split | fail_if_no_progress with_reducible apply Kept.upd)

theorem kept_settingsFollow {z s : State} (written : List Field) (hk : Kept z s) : Kept z (settingsFollow written s) := by
  unfold settingsFollow
  iterate 30 (try any_goals first | with_reducible assumption | with_reducible apply kept_sendMsg | with_reducible apply Kept.each | with_reducible apply Kept.when | with_reducible apply Kept.fold | exact Eq.refl _ | decide | intro _ | (dsimp only) | split | fail_if_no_progress with_reducible apply Kept.upd)

theorem kept_agentPut {z s : State} (d : Nat) (f : Field) (v : Nat) (hk : Kept z s) : Kept z (agentPut d f v s) := by
  unfold agentPut
  iterate 30 (try any_goals first | with_reducible assumption | with_reducible apply Kept.put | with_reducible apply Kept.setLink | with_reducible apply Kept.each | with_reducible apply Kept.when | with_reducible apply Kept.fold | exact Eq.refl _ | decide | intro _ | (dsimp only) | split | fail_if_no_progress with_reducible apply Kept.upd)

theorem kept_agentAdd {z s : State} (d : Nat) (f : Field) (hk : Kept z s) : Kept z (agentAdd d f s) := by
  unfold agentAdd
  iterate 30 (try any_goals first | with_reducible assumption | with_reducible apply kept_agentPut | with_reducible apply Kept.each | with_reducible apply Kept.when | with_reducible apply Kept.fold | exact Eq.refl _ | decide | intro _ | (dsimp only) | split | fail_if_no_progress with_reducible apply Kept.upd)

theorem kept_ite {z a b : State} {c : Prop} [Decidable c] (ha : c → Kept z a) (hb : ¬ c → Kept z b) :
    Kept z (if c then a else b) := by
  by_cases h : c
  · rw [if_pos h]; exact ha h
  · rw [if_neg h]; exact hb h

theorem kept_heard {z s : State} {d : Nat} {f : State → State} (hf : ∀ t, Kept z t → Kept z (f t)) (hk : Kept z s) :
    Kept z (heard d f s) := Kept.when hf hk

theorem kept_eventView {z s : State} (e : Event) (hk : Kept z s) : Kept z (eventView e s) := by
  unfold eventView
  iterate 30 (try any_goals first | with_reducible assumption | with_reducible apply Kept.put | with_reducible apply Kept.each | with_reducible apply Kept.when | with_reducible apply Kept.fold | exact Eq.refl _ | decide | intro _ | (dsimp only) | split | fail_if_no_progress with_reducible apply Kept.upd)

theorem kept_appendRecord {z s : State} (e : Event) (hk : Kept z s) : Kept z (appendRecord e s) := by
  unfold appendRecord
  iterate 30 (try any_goals first | with_reducible assumption | with_reducible apply Kept.addWrap | with_reducible apply Kept.event | with_reducible apply kept_eventView | with_reducible apply Kept.put | with_reducible apply Kept.each | with_reducible apply Kept.when | with_reducible apply Kept.fold | exact Eq.refl _ | decide | intro _ | (dsimp only) | split | fail_if_no_progress with_reducible apply Kept.upd)

theorem kept_takeEvent {z s : State} (e : Event) (hk : Kept z s) : Kept z (takeEvent e s) := by
  unfold takeEvent
  iterate 30 (try any_goals first | with_reducible assumption | with_reducible apply Kept.addSat | with_reducible apply kept_appendRecord | with_reducible apply Kept.each | with_reducible apply Kept.when | with_reducible apply Kept.fold | exact Eq.refl _ | decide | intro _ | (dsimp only) | split | fail_if_no_progress with_reducible apply Kept.upd)

theorem kept_effRecordWrite {z s : State} (hk : Kept z s) : Kept z (effRecordWrite s) := by
  unfold effRecordWrite
  iterate 30 (try any_goals first | with_reducible assumption | with_reducible apply kept_takeEvent | with_reducible apply Kept.each | with_reducible apply Kept.when | with_reducible apply Kept.fold | exact Eq.refl _ | decide | intro _ | (dsimp only) | split | fail_if_no_progress with_reducible apply Kept.upd)

theorem kept_execRecordWrite (s : State) : Ends s (execRecordWrite s) := by
  unfold execRecordWrite
  refine ends_done ?_
  have hk := Kept.refl s
  iterate 30 (try any_goals first | with_reducible assumption | with_reducible apply kept_done | with_reducible apply kept_effRecordWrite | with_reducible apply Kept.each | with_reducible apply Kept.when | with_reducible apply Kept.fold | exact Eq.refl _ | decide | intro _ | (dsimp only) | split | fail_if_no_progress with_reducible apply Kept.upd)

theorem kept_effWatchTrigger {z s : State} (w : Nat) (hk : Kept z s) : Kept z (effWatchTrigger w s) := by
  unfold effWatchTrigger
  iterate 30 (try any_goals first | with_reducible assumption | with_reducible apply Kept.putB | with_reducible apply kept_record | with_reducible apply Kept.each | with_reducible apply Kept.when | with_reducible apply Kept.fold | exact Eq.refl _ | decide | intro _ | (dsimp only) | split | fail_if_no_progress with_reducible apply Kept.upd)

theorem kept_execWatchTrigger (trigger : Nat) (s : State) : Ends s (execWatchTrigger trigger s) := by
  unfold execWatchTrigger
  refine ends_done ?_
  have hk := Kept.refl s
  iterate 30 (try any_goals first | with_reducible assumption | with_reducible apply kept_done | with_reducible apply kept_effWatchTrigger | with_reducible apply Kept.each | with_reducible apply Kept.when | with_reducible apply Kept.fold | exact Eq.refl _ | decide | intro _ | (dsimp only) | split | fail_if_no_progress with_reducible apply Kept.upd)

theorem kept_scoreCounter {z s : State} (c : Nat) (hk : Kept z s) : Kept z (scoreCounter c s) := by
  unfold scoreCounter
  iterate 30 (try any_goals first | with_reducible assumption | with_reducible apply Kept.put | with_reducible apply Kept.each | with_reducible apply Kept.when | with_reducible apply Kept.fold | exact Eq.refl _ | decide | intro _ | (dsimp only) | split | fail_if_no_progress with_reducible apply Kept.upd)

theorem kept_scoreThermal {z s : State} (hk : Kept z s) : Kept z (scoreThermal s) := by
  unfold scoreThermal
  iterate 30 (try any_goals first | with_reducible assumption | with_reducible apply Kept.put | with_reducible apply Kept.each | with_reducible apply Kept.when | with_reducible apply Kept.fold | exact Eq.refl _ | decide | intro _ | (dsimp only) | split | fail_if_no_progress with_reducible apply Kept.upd)

theorem kept_advise {z s : State} (score : Nat) (hk : Kept z s) : Kept z (advise score s) := by
  unfold advise
  iterate 30 (try any_goals first | with_reducible assumption | with_reducible apply Kept.addWrap | with_reducible apply kept_notifyAll | with_reducible apply Kept.put | with_reducible apply Kept.putB | with_reducible apply kept_record | with_reducible apply Kept.each | with_reducible apply Kept.when | with_reducible apply Kept.fold | exact Eq.refl _ | decide | intro _ | (dsimp only) | split | fail_if_no_progress with_reducible apply Kept.upd)

theorem kept_effHealthCompute {z s : State} (hk : Kept z s) : Kept z (effHealthCompute s) := by
  unfold effHealthCompute
  iterate 30 (try any_goals first | with_reducible assumption | with_reducible apply Kept.addWrap | with_reducible apply kept_advise | with_reducible apply kept_countHealth | with_reducible apply Kept.put | with_reducible apply kept_scoreCounter | with_reducible apply kept_scoreThermal | with_reducible apply Kept.each | with_reducible apply Kept.when | with_reducible apply Kept.fold | exact Eq.refl _ | decide | intro _ | (dsimp only) | split | fail_if_no_progress with_reducible apply Kept.upd)

theorem kept_execHealthCompute (s : State) : Ends s (execHealthCompute s) := by
  unfold execHealthCompute
  refine ends_done ?_
  have hk := Kept.refl s
  iterate 30 (try any_goals first | with_reducible assumption | with_reducible apply kept_done | with_reducible apply kept_effHealthCompute | with_reducible apply Kept.each | with_reducible apply Kept.when | with_reducible apply Kept.fold | exact Eq.refl _ | decide | intro _ | (dsimp only) | split | fail_if_no_progress with_reducible apply Kept.upd)

theorem kept_execCorrectableErrorReport (report : Arrival) (count : Nat) (s : State) : Ends s (execCorrectableErrorReport report count s) := by
  unfold execCorrectableErrorReport
  refine ends_done ?_
  have hk := Kept.refl s
  iterate 30 (try any_goals first | with_reducible assumption | with_reducible apply kept_acceptFrame | with_reducible apply kept_countHealth | with_reducible apply kept_done | with_reducible apply Kept.each | with_reducible apply Kept.when | with_reducible apply Kept.fold | exact Eq.refl _ | decide | intro _ | (dsimp only) | split | fail_if_no_progress with_reducible apply Kept.upd)

theorem kept_execRecTrigSet (port tag : Nat) (s : State) : Ends s (execRecTrigSet port tag s) := by
  unfold execRecTrigSet
  refine ends_done ?_
  have hk := Kept.refl s
  iterate 30 (try any_goals first | with_reducible assumption | with_reducible apply kept_bumpGen | with_reducible apply kept_command | with_reducible apply kept_complete | with_reducible apply kept_done | with_reducible apply Kept.put | with_reducible apply Kept.each | with_reducible apply Kept.when | with_reducible apply Kept.fold | exact Eq.refl _ | decide | intro _ | (dsimp only) | split | fail_if_no_progress with_reducible apply Kept.upd)

theorem kept_execRecSnapSet (port tag : Nat) (s : State) : Ends s (execRecSnapSet port tag s) := by
  unfold execRecSnapSet
  refine ends_done ?_
  have hk := Kept.refl s
  iterate 30 (try any_goals first | with_reducible assumption | with_reducible apply kept_bumpGen | with_reducible apply kept_command | with_reducible apply kept_complete | with_reducible apply kept_done | with_reducible apply Kept.put | with_reducible apply Kept.each | with_reducible apply Kept.when | with_reducible apply Kept.fold | exact Eq.refl _ | decide | intro _ | (dsimp only) | split | fail_if_no_progress with_reducible apply Kept.upd)

theorem kept_execRecClear (port tag : Nat) (s : State) : Ends s (execRecClear port tag s) := by
  unfold execRecClear
  refine ends_done ?_
  have hk := Kept.refl s
  iterate 30 (try any_goals first | with_reducible assumption | with_reducible apply kept_command | with_reducible apply kept_done | with_reducible apply kept_markStarted | with_reducible apply Kept.put | with_reducible apply Kept.each | with_reducible apply Kept.when | with_reducible apply Kept.fold | exact Eq.refl _ | decide | intro _ | (dsimp only) | split | fail_if_no_progress with_reducible apply Kept.upd)

theorem kept_effRecClearDone {z s : State} (hk : Kept z s) : Kept z (effRecClearDone s) := by
  unfold effRecClearDone
  iterate 30 (try any_goals first | with_reducible assumption | with_reducible apply kept_appendRecord | with_reducible apply kept_completeAt | with_reducible apply Kept.put | with_reducible apply Kept.each | with_reducible apply Kept.when | with_reducible apply Kept.fold | exact Eq.refl _ | decide | intro _ | (dsimp only) | split | fail_if_no_progress with_reducible apply Kept.upd)

theorem kept_execRecClearDone (s : State) : Ends s (execRecClearDone s) := by
  unfold execRecClearDone
  refine ends_done ?_
  have hk := Kept.refl s
  iterate 30 (try any_goals first | with_reducible assumption | with_reducible apply kept_done | with_reducible apply kept_effRecClearDone | with_reducible apply Kept.each | with_reducible apply Kept.when | with_reducible apply Kept.fold | exact Eq.refl _ | decide | intro _ | (dsimp only) | split | fail_if_no_progress with_reducible apply Kept.upd)

theorem kept_execHealthSet (port tag : Nat) (s : State) : Ends s (execHealthSet port tag s) := by
  unfold execHealthSet
  refine ends_done ?_
  have hk := Kept.refl s
  iterate 30 (try any_goals first | with_reducible assumption | with_reducible apply kept_bumpGen | with_reducible apply kept_command | with_reducible apply kept_complete | with_reducible apply kept_done | with_reducible apply Kept.put | with_reducible apply Kept.each | with_reducible apply Kept.when | with_reducible apply Kept.fold | exact Eq.refl _ | decide | intro _ | (dsimp only) | split | fail_if_no_progress with_reducible apply Kept.upd)

theorem kept_keySend {z s : State} (links p : Nat) (o : KeyOrder) (hk : Kept z s) : Kept z (keySend links p o s) := by
  unfold keySend
  iterate 30 (try any_goals first | with_reducible assumption | with_reducible apply kept_emit | with_reducible apply Kept.each | with_reducible apply Kept.when | with_reducible apply Kept.fold | exact Eq.refl _ | decide | intro _ | (dsimp only) | split | fail_if_no_progress with_reducible apply Kept.upd)

theorem kept_sendLoads {z s : State} (links p epoch mem link : Nat) (hk : Kept z s) : Kept z (sendLoads links p epoch mem link s) := by
  unfold sendLoads
  iterate 30 (try any_goals first | with_reducible assumption | with_reducible apply kept_keySend | with_reducible apply Kept.each | with_reducible apply Kept.when | with_reducible apply Kept.fold | exact Eq.refl _ | decide | intro _ | (dsimp only) | split | fail_if_no_progress with_reducible apply Kept.upd)

theorem kept_eraseAll {z s : State} (p : Nat) (hk : Kept z s) : Kept z (eraseAll p s) := by
  unfold eraseAll
  iterate 30 (try any_goals first | with_reducible assumption | with_reducible apply kept_keySend | with_reducible apply Kept.each | with_reducible apply Kept.when | with_reducible apply Kept.fold | exact Eq.refl _ | decide | intro _ | (dsimp only) | split | fail_if_no_progress with_reducible apply Kept.upd)

theorem kept_drbgUsed {z s : State} (hk : Kept z s) : Kept z (drbgUsed s) := by
  unfold drbgUsed
  iterate 30 (try any_goals first | with_reducible assumption | with_reducible apply kept_drawn | with_reducible apply Kept.each | with_reducible apply Kept.when | with_reducible apply Kept.fold | exact Eq.refl _ | decide | intro _ | (dsimp only) | split | fail_if_no_progress with_reducible apply Kept.upd)

theorem kept_loseAttest {z s : State} (p : Nat) (hk : Kept z s) : Kept z (loseAttest p s) := by
  unfold loseAttest
  iterate 30 (try any_goals first | with_reducible assumption | with_reducible apply Kept.event | with_reducible apply Kept.put | with_reducible apply Kept.each | with_reducible apply Kept.when | with_reducible apply Kept.fold | exact Eq.refl _ | decide | intro _ | (dsimp only) | split | fail_if_no_progress with_reducible apply Kept.upd)

theorem kept_freezeTemps {z s : State} (p : Nat) (hk : Kept z s) : Kept z (freezeTemps p s) := by
  unfold freezeTemps
  iterate 30 (try any_goals first | with_reducible assumption | with_reducible apply Kept.each | with_reducible apply Kept.when | with_reducible apply Kept.fold | exact Eq.refl _ | decide | intro _ | (dsimp only) | split | fail_if_no_progress with_reducible apply Kept.upd)

theorem kept_setScrub {z s : State} (p : Nat) (c : Option ScrubH) (hk : Kept z s) : Kept z (setScrub p c s) := by
  unfold setScrub
  iterate 30 (try any_goals first | with_reducible assumption | with_reducible apply Kept.setPart | with_reducible apply Kept.each | with_reducible apply Kept.when | with_reducible apply Kept.fold | exact Eq.refl _ | decide | intro _ | (dsimp only) | split | fail_if_no_progress with_reducible apply Kept.upd)

theorem kept_idleLinks {z s : State} (p : Nat) (on : Bool) (hk : Kept z s) : Kept z (idleLinks p on s) := by
  unfold idleLinks
  iterate 30 (try any_goals first | with_reducible assumption | with_reducible apply kept_keySend | with_reducible apply Kept.each | with_reducible apply Kept.when | with_reducible apply Kept.fold | exact Eq.refl _ | decide | intro _ | (dsimp only) | split | fail_if_no_progress with_reducible apply Kept.upd)

theorem kept_scrubFence {z s : State} (p : Nat) (hk : Kept z s) : Kept z (scrubFence p s) := by
  unfold scrubFence
  iterate 30 (try any_goals first | with_reducible assumption | with_reducible apply kept_freezeTemps | with_reducible apply kept_idleLinks | with_reducible apply kept_sendOrder | with_reducible apply Kept.setPart | with_reducible apply Kept.each | with_reducible apply Kept.when | with_reducible apply Kept.fold | exact Eq.refl _ | decide | intro _ | (dsimp only) | split | fail_if_no_progress with_reducible apply Kept.upd)

theorem kept_scrubErase {z s : State} (p : Nat) (hk : Kept z s) : Kept z (scrubErase p s) := by
  unfold scrubErase
  iterate 30 (try any_goals first | with_reducible assumption | with_reducible apply kept_eraseAll | with_reducible apply Kept.put | with_reducible apply Kept.setPart | with_reducible apply Kept.each | with_reducible apply Kept.when | with_reducible apply Kept.fold | exact Eq.refl _ | decide | intro _ | (dsimp only) | split | fail_if_no_progress with_reducible apply Kept.upd)

theorem kept_scrubAgain {z s : State} (p : Nat) (hk : Kept z s) : Kept z (scrubAgain p s) := by
  unfold scrubAgain
  iterate 30 (try any_goals first | with_reducible assumption | with_reducible apply kept_scrubErase | with_reducible apply Kept.each | with_reducible apply Kept.when | with_reducible apply Kept.fold | exact Eq.refl _ | decide | intro _ | (dsimp only) | split | fail_if_no_progress with_reducible apply Kept.upd)

theorem kept_sendScrub {z s : State} (links p : Nat) (hk : Kept z s) : Kept z (sendScrub links p s) := by
  unfold sendScrub
  iterate 30 (try any_goals first | with_reducible assumption | with_reducible apply kept_drawn | with_reducible apply kept_keySend | with_reducible apply Kept.put | with_reducible apply Kept.each | with_reducible apply Kept.when | with_reducible apply Kept.fold | exact Eq.refl _ | decide | intro _ | (dsimp only) | split | fail_if_no_progress with_reducible apply Kept.upd)

theorem kept_scrubOverwrite {z s : State} (p : Nat) (hk : Kept z s) : Kept z (scrubOverwrite p s) := by
  unfold scrubOverwrite
  iterate 30 (try any_goals first | with_reducible assumption | with_reducible apply kept_drbgUsed | with_reducible apply kept_keySend | with_reducible apply kept_sendScrub | with_reducible apply kept_setScrub | with_reducible apply Kept.each | with_reducible apply Kept.when | with_reducible apply Kept.fold | exact Eq.refl _ | decide | intro _ | (dsimp only) | split | fail_if_no_progress with_reducible apply Kept.upd)

theorem kept_scrubFalls {z s : State} (p : Nat) (hk : Kept z s) : Kept z (scrubFalls p s) := by
  unfold scrubFalls
  iterate 30 (try any_goals first | with_reducible assumption | with_reducible apply kept_drawn | with_reducible apply Kept.put | with_reducible apply Kept.each | with_reducible apply Kept.when | with_reducible apply Kept.fold | exact Eq.refl _ | decide | intro _ | (dsimp only) | split | fail_if_no_progress with_reducible apply Kept.upd)

theorem kept_scrubAbort {z s : State} (p : Nat) (c : ScrubH) (hk : Kept z s) : Kept z (scrubAbort p c s) := by
  unfold scrubAbort
  iterate 30 (try any_goals first | with_reducible assumption | with_reducible apply kept_sendOrder | with_reducible apply kept_setScrub | with_reducible apply Kept.each | with_reducible apply Kept.when | with_reducible apply Kept.fold | exact Eq.refl _ | decide | intro _ | (dsimp only) | split | fail_if_no_progress with_reducible apply Kept.upd)

theorem kept_scrubAck {z s : State} (p m : Nat) (hk : Kept z s) : Kept z (scrubAck p m s) := by
  unfold scrubAck
  iterate 30 (try any_goals first | with_reducible assumption | with_reducible apply kept_scrubAbort | with_reducible apply kept_setScrub | with_reducible apply Kept.each | with_reducible apply Kept.when | with_reducible apply Kept.fold | exact Eq.refl _ | decide | intro _ | (dsimp only) | split | fail_if_no_progress with_reducible apply Kept.upd)

theorem kept_scrubResume {z s : State} (p : Nat) (hk : Kept z s) : Kept z (scrubResume p s) := by
  unfold scrubResume
  iterate 30 (try any_goals first | with_reducible assumption | with_reducible apply kept_scrubFence | with_reducible apply Kept.each | with_reducible apply Kept.when | with_reducible apply Kept.fold | exact Eq.refl _ | decide | intro _ | (dsimp only) | split | fail_if_no_progress with_reducible apply Kept.upd)

theorem kept_scrubsResume {z s : State} (hk : Kept z s) : Kept z (scrubsResume s) := by
  unfold scrubsResume
  iterate 30 (try any_goals first | with_reducible assumption | with_reducible apply kept_scrubResume | with_reducible apply Kept.each | with_reducible apply Kept.when | with_reducible apply Kept.fold | exact Eq.refl _ | decide | intro _ | (dsimp only) | split | fail_if_no_progress with_reducible apply Kept.upd)

theorem kept_scrubFailed {z s : State} (p : Nat) (hk : Kept z s) : Kept z (scrubFailed p s) := by
  unfold scrubFailed
  iterate 30 (try any_goals first | with_reducible assumption | with_reducible apply kept_completeAt | with_reducible apply kept_drawn | with_reducible apply Kept.event | with_reducible apply kept_faultOn | with_reducible apply Kept.put | with_reducible apply kept_record | with_reducible apply kept_setScrub | with_reducible apply Kept.each | with_reducible apply Kept.when | with_reducible apply Kept.fold | exact Eq.refl _ | decide | intro _ | (dsimp only) | split | fail_if_no_progress with_reducible apply Kept.upd)

theorem kept_scrubsTripped {z s : State} (hk : Kept z s) : Kept z (scrubsTripped s) := by
  unfold scrubsTripped
  iterate 30 (try any_goals first | with_reducible assumption | with_reducible apply kept_scrubFailed | with_reducible apply Kept.each | with_reducible apply Kept.when | with_reducible apply Kept.fold | exact Eq.refl _ | decide | intro _ | (dsimp only) | split | fail_if_no_progress with_reducible apply Kept.upd)

theorem kept_freePart {z s : State} (p : Nat) (hk : Kept z s) : Kept z (freePart p s) := by
  unfold freePart
  iterate 30 (try any_goals first | with_reducible assumption | with_reducible apply Kept.put | with_reducible apply Kept.setPart | with_reducible apply Kept.each | with_reducible apply Kept.when | with_reducible apply Kept.fold | exact Eq.refl _ | decide | intro _ | (dsimp only) | split | fail_if_no_progress with_reducible apply Kept.upd)

theorem kept_put384 {z s : State} (f : Field) (v : Nat) (hk : Kept z s) : Kept z (put384 f v s) := by
  unfold put384
  iterate 30 (try any_goals first | with_reducible assumption | with_reducible apply Kept.put | with_reducible apply Kept.each | with_reducible apply Kept.when | with_reducible apply Kept.fold | exact Eq.refl _ | decide | intro _ | (dsimp only) | split | fail_if_no_progress with_reducible apply Kept.upd)

theorem kept_installKeys {z s : State} (p : Nat) (hk : Kept z s) : Kept z (installKeys p s) := by
  unfold installKeys
  iterate 30 (try any_goals first | with_reducible assumption | with_reducible apply kept_drbgUsed | with_reducible apply kept_keySend | with_reducible apply Kept.put | with_reducible apply kept_put384 | with_reducible apply kept_sendLoads | with_reducible apply Kept.setPart | with_reducible apply Kept.each | with_reducible apply Kept.when | with_reducible apply Kept.fold | exact Eq.refl _ | decide | intro _ | (dsimp only) | split | fail_if_no_progress with_reducible apply Kept.upd)

theorem kept_reloadKeys {z s : State} (links p : Nat) (hk : Kept z s) : Kept z (reloadKeys links p s) := by
  unfold reloadKeys
  iterate 30 (try any_goals first | with_reducible assumption | with_reducible apply kept_keySend | with_reducible apply kept_sendLoads | with_reducible apply Kept.each | with_reducible apply Kept.when | with_reducible apply Kept.fold | exact Eq.refl _ | decide | intro _ | (dsimp only) | split | fail_if_no_progress with_reducible apply Kept.upd)

theorem kept_reloadPart {z s : State} (p : Nat) (hk : Kept z s) : Kept z (reloadPart p s) := by
  unfold reloadPart
  iterate 30 (try any_goals first | with_reducible assumption | with_reducible apply kept_keySend | with_reducible apply kept_reloadKeys | with_reducible apply kept_sendScrub | with_reducible apply kept_setScrub | with_reducible apply Kept.each | with_reducible apply Kept.when | with_reducible apply Kept.fold | exact Eq.refl _ | decide | intro _ | (dsimp only) | split | fail_if_no_progress with_reducible apply Kept.upd)

theorem kept_reloadDie {z s : State} (d : Nat) (hk : Kept z s) : Kept z (reloadDie d s) := by
  unfold reloadDie
  iterate 30 (try any_goals first | with_reducible assumption | with_reducible apply kept_reloadKeys | with_reducible apply kept_sendScrub | with_reducible apply Kept.each | with_reducible apply Kept.when | with_reducible apply Kept.fold | exact Eq.refl _ | decide | intro _ | (dsimp only) | split | fail_if_no_progress with_reducible apply Kept.upd)

theorem kept_setRecov {z s : State} (v : RecovH) (hk : Kept z s) : Kept z (setRecov v s) := by
  unfold setRecov
  iterate 30 (try any_goals first | with_reducible assumption | with_reducible apply Kept.each | with_reducible apply Kept.when | with_reducible apply Kept.fold | exact Eq.refl _ | decide | intro _ | (dsimp only) | split | fail_if_no_progress with_reducible apply Kept.upd)

theorem kept_takeTap {z s : State} (q w : Nat) (hk : Kept z s) : Kept z (takeTap q w s) := by
  unfold takeTap
  iterate 30 (try any_goals first | with_reducible assumption | with_reducible apply kept_setRecov | with_reducible apply Kept.each | with_reducible apply Kept.when | with_reducible apply Kept.fold | exact Eq.refl _ | decide | intro _ | (dsimp only) | split | fail_if_no_progress with_reducible apply Kept.upd)

theorem kept_settleCtx {z s : State} (c : Nat) (hk : Kept z s) : Kept z (settleCtx c s) := by
  unfold settleCtx
  iterate 30 (try any_goals first | with_reducible assumption | with_reducible apply Kept.event | with_reducible apply Kept.put | with_reducible apply Kept.putB | with_reducible apply kept_recordAt | with_reducible apply Kept.each | with_reducible apply Kept.when | with_reducible apply Kept.fold | exact Eq.refl _ | decide | intro _ | (dsimp only) | split | fail_if_no_progress with_reducible apply Kept.upd)

theorem kept_settle {z s : State} (hk : Kept z s) : Kept z (settle s) := by
  unfold settle
  iterate 30 (try any_goals first | with_reducible assumption | with_reducible apply kept_setRecov | with_reducible apply kept_settleCtx | with_reducible apply Kept.each | with_reducible apply Kept.when | with_reducible apply Kept.fold | exact Eq.refl _ | decide | intro _ | (dsimp only) | split | fail_if_no_progress with_reducible apply Kept.upd)

theorem kept_effQueueTaps {z s : State} (die : Nat) (taps : List Nat) (hk : Kept z s) : Kept z (effQueueTaps die taps s) := by
  unfold effQueueTaps
  iterate 30 (try any_goals first | with_reducible assumption | with_reducible apply kept_setRecov | with_reducible apply kept_settle | with_reducible apply kept_takeTap | with_reducible apply Kept.each | with_reducible apply Kept.when | with_reducible apply Kept.fold | exact Eq.refl _ | decide | intro _ | (dsimp only) | split | fail_if_no_progress with_reducible apply Kept.upd)

theorem kept_execQueueTaps (report : Arrival) (taps : List Nat) (s : State) : Ends s (execQueueTaps report taps s) := by
  unfold execQueueTaps
  refine ends_done ?_
  have hk := Kept.refl s
  iterate 30 (try any_goals first | with_reducible assumption | with_reducible apply kept_acceptFrame | with_reducible apply kept_done | with_reducible apply kept_effQueueTaps | with_reducible apply Kept.each | with_reducible apply Kept.when | with_reducible apply Kept.fold | exact Eq.refl _ | decide | intro _ | (dsimp only) | split | fail_if_no_progress with_reducible apply Kept.upd)

theorem kept_execTapLate (die : Nat) (s : State) : Ends s (execTapLate die s) := by
  unfold execTapLate
  refine ends_done ?_
  have hk := Kept.refl s
  iterate 30 (try any_goals first | with_reducible assumption | with_reducible apply kept_done | with_reducible apply Kept.event | with_reducible apply kept_setRecov | with_reducible apply kept_settle | with_reducible apply Kept.each | with_reducible apply Kept.when | with_reducible apply Kept.fold | exact Eq.refl _ | decide | intro _ | (dsimp only) | split | fail_if_no_progress with_reducible apply Kept.upd)

theorem kept_effSnapshot {z s : State} (hk : Kept z s) : Kept z (effSnapshot s) := by
  unfold effSnapshot
  iterate 30 (try any_goals first | with_reducible assumption | with_reducible apply kept_emit | with_reducible apply Kept.event | with_reducible apply Kept.put | with_reducible apply kept_setRecov | with_reducible apply Kept.each | with_reducible apply Kept.when | with_reducible apply Kept.fold | exact Eq.refl _ | decide | intro _ | (dsimp only) | split | fail_if_no_progress with_reducible apply Kept.upd)

theorem kept_execSnapshot (s : State) : Ends s (execSnapshot s) := by
  unfold execSnapshot
  refine ends_done ?_
  have hk := Kept.refl s
  iterate 30 (try any_goals first | with_reducible assumption | with_reducible apply kept_done | with_reducible apply kept_effSnapshot | with_reducible apply Kept.each | with_reducible apply Kept.when | with_reducible apply Kept.fold | exact Eq.refl _ | decide | intro _ | (dsimp only) | split | fail_if_no_progress with_reducible apply Kept.upd)

theorem kept_victim {z s : State} (c kind detail time : Nat) (hk : Kept z s) : Kept z (victim c kind detail time s) := by
  unfold victim
  iterate 30 (try any_goals first | with_reducible assumption | with_reducible apply Kept.event | with_reducible apply kept_notifyAll | with_reducible apply Kept.put | with_reducible apply kept_recordAt | with_reducible apply kept_setRecov | with_reducible apply Kept.each | with_reducible apply Kept.when | with_reducible apply Kept.fold | exact Eq.refl _ | decide | intro _ | (dsimp only) | split | fail_if_no_progress with_reducible apply Kept.upd)

theorem kept_nameCycle {z s : State} (g : WalkH) (cy : List Nat) (hk : Kept z s) : Kept z (nameCycle g cy s) := by
  unfold nameCycle
  iterate 30 (try any_goals first | with_reducible assumption | with_reducible apply Kept.put | with_reducible apply kept_victim | with_reducible apply Kept.each | with_reducible apply Kept.when | with_reducible apply Kept.fold | exact Eq.refl _ | decide | intro _ | (dsimp only) | split | fail_if_no_progress with_reducible apply Kept.upd)

theorem kept_effWalk {z s : State} (stop : Nat) (hk : Kept z s) : Kept z (effWalk stop s) := by
  unfold effWalk
  iterate 30 (try any_goals first | with_reducible assumption | with_reducible apply kept_nameCycle | with_reducible apply Kept.put | with_reducible apply kept_setRecov | with_reducible apply Kept.each | with_reducible apply Kept.when | with_reducible apply Kept.fold | exact Eq.refl _ | decide | intro _ | (dsimp only) | split | fail_if_no_progress with_reducible apply Kept.upd)

theorem kept_execWalk (stop : Nat) (s : State) : Ends s (execWalk stop s) := by
  unfold execWalk
  refine ends_done ?_
  have hk := Kept.refl s
  iterate 30 (try any_goals first | with_reducible assumption | with_reducible apply kept_done | with_reducible apply kept_effWalk | with_reducible apply Kept.each | with_reducible apply Kept.when | with_reducible apply Kept.fold | exact Eq.refl _ | decide | intro _ | (dsimp only) | split | fail_if_no_progress with_reducible apply Kept.upd)

theorem kept_effEngineFault {z s : State} (die ctx engine code stamp : Nat) (hk : Kept z s) : Kept z (effEngineFault die ctx engine code stamp s) := by
  unfold effEngineFault
  iterate 30 (try any_goals first | with_reducible assumption | with_reducible apply Kept.event | with_reducible apply Kept.put | with_reducible apply kept_recordAt | with_reducible apply kept_victim | with_reducible apply Kept.each | with_reducible apply Kept.when | with_reducible apply Kept.fold | exact Eq.refl _ | decide | intro _ | (dsimp only) | split | fail_if_no_progress with_reducible apply Kept.upd)

theorem kept_execEngineFault (report : Arrival) (ctx engine : Nat) (fault : FaultCode) (s : State) : Ends s (execEngineFault report ctx engine fault s) := by
  unfold execEngineFault
  refine ends_done ?_
  have hk := Kept.refl s
  iterate 30 (try any_goals first | with_reducible assumption | with_reducible apply kept_acceptFrame | with_reducible apply kept_done | with_reducible apply kept_effEngineFault | with_reducible apply Kept.each | with_reducible apply Kept.when | with_reducible apply Kept.fold | exact Eq.refl _ | decide | intro _ | (dsimp only) | split | fail_if_no_progress with_reducible apply Kept.upd)

theorem kept_enqueueCtx {z s : State} (c : Nat) (waiter : Option (Nat × Nat)) (hk : Kept z s) : Kept z (enqueueCtx c waiter s) := by
  unfold enqueueCtx
  iterate 30 (try any_goals first | with_reducible assumption | with_reducible apply Kept.put | with_reducible apply kept_setRecov | with_reducible apply Kept.each | with_reducible apply Kept.when | with_reducible apply Kept.fold | exact Eq.refl _ | decide | intro _ | (dsimp only) | split | fail_if_no_progress with_reducible apply Kept.upd)

theorem kept_execPolicyQueue (ctx : Nat) (s : State) : Ends s (execPolicyQueue ctx s) := by
  unfold execPolicyQueue
  refine ends_done ?_
  have hk := Kept.refl s
  iterate 30 (try any_goals first | with_reducible assumption | with_reducible apply kept_done | with_reducible apply kept_enqueueCtx | with_reducible apply Kept.each | with_reducible apply Kept.when | with_reducible apply Kept.fold | exact Eq.refl _ | decide | intro _ | (dsimp only) | split | fail_if_no_progress with_reducible apply Kept.upd)

theorem kept_startSeq {z s : State} (c : PendCtx) (hk : Kept z s) : Kept z (startSeq c s) := by
  unfold startSeq
  iterate 30 (try any_goals first | with_reducible assumption | with_reducible apply Kept.put | with_reducible apply kept_sendOrder | with_reducible apply kept_setRecov | with_reducible apply Kept.each | with_reducible apply Kept.when | with_reducible apply Kept.fold | exact Eq.refl _ | decide | intro _ | (dsimp only) | split | fail_if_no_progress with_reducible apply Kept.upd)

theorem kept_effSequenceStart {z s : State} (hk : Kept z s) : Kept z (effSequenceStart s) := by
  unfold effSequenceStart
  iterate 30 (try any_goals first | with_reducible assumption | with_reducible apply kept_setRecov | with_reducible apply kept_startSeq | with_reducible apply Kept.each | with_reducible apply Kept.when | with_reducible apply Kept.fold | exact Eq.refl _ | decide | intro _ | (dsimp only) | split | fail_if_no_progress with_reducible apply Kept.upd)

theorem kept_execSequenceStart (s : State) : Ends s (execSequenceStart s) := by
  unfold execSequenceStart
  refine ends_done ?_
  have hk := Kept.refl s
  iterate 30 (try any_goals first | with_reducible assumption | with_reducible apply kept_done | with_reducible apply kept_effSequenceStart | with_reducible apply Kept.each | with_reducible apply Kept.when | with_reducible apply Kept.fold | exact Eq.refl _ | decide | intro _ | (dsimp only) | split | fail_if_no_progress with_reducible apply Kept.upd)

theorem kept_setSeq {z s : State} (q : SeqH) (hk : Kept z s) : Kept z (setSeq q s) := by
  unfold setSeq
  iterate 30 (try any_goals first | with_reducible assumption | with_reducible apply kept_setRecov | with_reducible apply Kept.each | with_reducible apply Kept.when | with_reducible apply Kept.fold | exact Eq.refl _ | decide | intro _ | (dsimp only) | split | fail_if_no_progress with_reducible apply Kept.upd)

theorem kept_abortSeq {z s : State} (q : SeqH) (hk : Kept z s) : Kept z (abortSeq q s) := by
  unfold abortSeq
  iterate 30 (try any_goals first | with_reducible assumption | with_reducible apply Kept.put | with_reducible apply kept_sendOrder | with_reducible apply kept_setSeq | with_reducible apply Kept.each | with_reducible apply Kept.when | with_reducible apply Kept.fold | exact Eq.refl _ | decide | intro _ | (dsimp only) | split | fail_if_no_progress with_reducible apply Kept.upd)

theorem kept_effFenceAck {z s : State} (who outstanding : Nat) (hk : Kept z s) : Kept z (effFenceAck who outstanding s) := by
  unfold effFenceAck
  iterate 30 (try any_goals first | with_reducible assumption | with_reducible apply kept_abortSeq | with_reducible apply kept_allAcknowledge | with_reducible apply Kept.put | with_reducible apply kept_scrubAck | with_reducible apply kept_setSeq | with_reducible apply Kept.each | with_reducible apply Kept.when | with_reducible apply Kept.fold | exact Eq.refl _ | decide | intro _ | (dsimp only) | split | fail_if_no_progress with_reducible apply Kept.upd)

theorem kept_execFenceAck (who outstanding : Nat) (s : State) : Ends s (execFenceAck who outstanding s) := by
  unfold execFenceAck
  refine ends_done ?_
  have hk := Kept.refl s
  iterate 30 (try any_goals first | with_reducible assumption | with_reducible apply kept_done | with_reducible apply kept_effFenceAck | with_reducible apply Kept.each | with_reducible apply Kept.when | with_reducible apply Kept.fold | exact Eq.refl _ | decide | intro _ | (dsimp only) | split | fail_if_no_progress with_reducible apply Kept.upd)

theorem kept_effDrainEnd {z s : State} (who outstanding : Nat) (hk : Kept z s) : Kept z (effDrainEnd who outstanding s) := by
  unfold effDrainEnd
  iterate 30 (try any_goals first | with_reducible assumption | with_reducible apply kept_abortSeq | with_reducible apply kept_scrubAbort | with_reducible apply Kept.each | with_reducible apply Kept.when | with_reducible apply Kept.fold | exact Eq.refl _ | decide | intro _ | (dsimp only) | split | fail_if_no_progress with_reducible apply Kept.upd)

theorem kept_execDrainEnd (who outstanding : Nat) (s : State) : Ends s (execDrainEnd who outstanding s) := by
  unfold execDrainEnd
  refine ends_done ?_
  have hk := Kept.refl s
  iterate 30 (try any_goals first | with_reducible assumption | with_reducible apply kept_done | with_reducible apply kept_effDrainEnd | with_reducible apply Kept.each | with_reducible apply Kept.when | with_reducible apply Kept.fold | exact Eq.refl _ | decide | intro _ | (dsimp only) | split | fail_if_no_progress with_reducible apply Kept.upd)

theorem kept_clearSeq {z s : State} (q : SeqH) (hk : Kept z s) : Kept z (clearSeq q s) := by
  unfold clearSeq
  iterate 30 (try any_goals first | with_reducible assumption | with_reducible apply Kept.put | with_reducible apply kept_sendOrder | with_reducible apply kept_setSeq | with_reducible apply Kept.each | with_reducible apply Kept.when | with_reducible apply Kept.fold | exact Eq.refl _ | decide | intro _ | (dsimp only) | split | fail_if_no_progress with_reducible apply Kept.upd)

theorem kept_captureSeq {z s : State} (q : SeqH) (hk : Kept z s) : Kept z (captureSeq q s) := by
  unfold captureSeq
  iterate 30 (try any_goals first | with_reducible assumption | with_reducible apply kept_clearSeq | with_reducible apply Kept.event | with_reducible apply Kept.put | with_reducible apply kept_recordAt | with_reducible apply kept_setSeq | with_reducible apply Kept.each | with_reducible apply Kept.when | with_reducible apply Kept.fold | exact Eq.refl _ | decide | intro _ | (dsimp only) | split | fail_if_no_progress with_reducible apply Kept.upd)

theorem kept_effAbortAck {z s : State} (who answered : Nat) (hk : Kept z s) : Kept z (effAbortAck who answered s) := by
  unfold effAbortAck
  iterate 30 (try any_goals first | with_reducible assumption | with_reducible apply kept_allAcknowledge | with_reducible apply kept_captureSeq | with_reducible apply kept_scrubErase | with_reducible apply Kept.each | with_reducible apply Kept.when | with_reducible apply Kept.fold | exact Eq.refl _ | decide | intro _ | (dsimp only) | split | fail_if_no_progress with_reducible apply Kept.upd)

theorem kept_execAbortAck (who answered : Nat) (s : State) : Ends s (execAbortAck who answered s) := by
  unfold execAbortAck
  refine ends_done ?_
  have hk := Kept.refl s
  iterate 30 (try any_goals first | with_reducible assumption | with_reducible apply kept_done | with_reducible apply kept_effAbortAck | with_reducible apply Kept.each | with_reducible apply Kept.when | with_reducible apply Kept.fold | exact Eq.refl _ | decide | intro _ | (dsimp only) | split | fail_if_no_progress with_reducible apply Kept.upd)

theorem kept_storeCapture {z s : State} (q : SeqH) (data : List Nat) (trunc : Bool) (hk : Kept z s) : Kept z (storeCapture q data trunc s) := by
  unfold storeCapture
  iterate 30 (try any_goals first | with_reducible assumption | with_reducible apply Kept.event | with_reducible apply Kept.put | with_reducible apply Kept.putB | with_reducible apply Kept.wipe | with_reducible apply Kept.writeBytes | with_reducible apply Kept.each | with_reducible apply Kept.when | with_reducible apply Kept.fold | exact Eq.refl _ | decide | intro _ | (dsimp only) | split | fail_if_no_progress with_reducible apply Kept.upd)

theorem kept_effCapture {z s : State} (data : List Nat) (trunc : Bool) (hk : Kept z s) : Kept z (effCapture data trunc s) := by
  unfold effCapture
  iterate 30 (try any_goals first | with_reducible assumption | with_reducible apply kept_agentTells | with_reducible apply kept_clearSeq | with_reducible apply kept_storeCapture | with_reducible apply Kept.each | with_reducible apply Kept.when | with_reducible apply Kept.fold | exact Eq.refl _ | decide | intro _ | (dsimp only) | split | fail_if_no_progress with_reducible apply Kept.upd)

theorem kept_execCaptureDone (data : List Nat) (trunc : Bool) (s : State) : Ends s (execCaptureDone data trunc s) := by
  unfold execCaptureDone
  refine ends_done ?_
  have hk := Kept.refl s
  iterate 30 (try any_goals first | with_reducible assumption | with_reducible apply kept_done | with_reducible apply kept_effCapture | with_reducible apply Kept.each | with_reducible apply Kept.when | with_reducible apply Kept.fold | exact Eq.refl _ | decide | intro _ | (dsimp only) | split | fail_if_no_progress with_reducible apply Kept.upd)

theorem kept_effCaptureOverrun {z s : State} (data : List Nat) (hk : Kept z s) : Kept z (effCaptureOverrun data s) := by
  unfold effCaptureOverrun
  iterate 30 (try any_goals first | with_reducible assumption | with_reducible apply kept_effCapture | with_reducible apply Kept.each | with_reducible apply Kept.when | with_reducible apply Kept.fold | exact Eq.refl _ | decide | intro _ | (dsimp only) | split | fail_if_no_progress with_reducible apply Kept.upd)

theorem kept_execCaptureOverrun (data : List Nat) (s : State) : Ends s (execCaptureOverrun data s) := by
  unfold execCaptureOverrun
  refine ends_done ?_
  have hk := Kept.refl s
  iterate 30 (try any_goals first | with_reducible assumption | with_reducible apply kept_done | with_reducible apply kept_effCaptureOverrun | with_reducible apply Kept.each | with_reducible apply Kept.when | with_reducible apply Kept.fold | exact Eq.refl _ | decide | intro _ | (dsimp only) | split | fail_if_no_progress with_reducible apply Kept.upd)

theorem kept_effClearAck {z s : State} (hk : Kept z s) : Kept z (effClearAck s) := by
  unfold effClearAck
  iterate 30 (try any_goals first | with_reducible assumption | with_reducible apply kept_allAcknowledge | with_reducible apply kept_sendOrder | with_reducible apply kept_setSeq | with_reducible apply Kept.each | with_reducible apply Kept.when | with_reducible apply Kept.fold | exact Eq.refl _ | decide | intro _ | (dsimp only) | split | fail_if_no_progress with_reducible apply Kept.upd)

theorem kept_execClearAck (s : State) : Ends s (execClearAck s) := by
  unfold execClearAck
  refine ends_done ?_
  have hk := Kept.refl s
  iterate 30 (try any_goals first | with_reducible assumption | with_reducible apply kept_done | with_reducible apply kept_effClearAck | with_reducible apply Kept.each | with_reducible apply Kept.when | with_reducible apply Kept.fold | exact Eq.refl _ | decide | intro _ | (dsimp only) | split | fail_if_no_progress with_reducible apply Kept.upd)

theorem kept_enterOOS {z s : State} (hk : Kept z s) : Kept z (enterOOS s) := by
  unfold enterOOS
  iterate 30 (try any_goals first | with_reducible assumption | with_reducible apply Kept.event | with_reducible apply kept_faultOn | with_reducible apply kept_notifyAll | with_reducible apply Kept.put | with_reducible apply kept_record | with_reducible apply kept_sendOrder | with_reducible apply Kept.each | with_reducible apply Kept.when | with_reducible apply Kept.fold | exact Eq.refl _ | decide | intro _ | (dsimp only) | split | fail_if_no_progress with_reducible apply Kept.upd)

theorem kept_countReset {z s : State} (hk : Kept z s) : Kept z (countReset s) := by
  unfold countReset
  iterate 30 (try any_goals first | with_reducible assumption | with_reducible apply Kept.addSat | with_reducible apply kept_enterOOS | with_reducible apply kept_setRecov | with_reducible apply Kept.each | with_reducible apply Kept.when | with_reducible apply Kept.fold | exact Eq.refl _ | decide | intro _ | (dsimp only) | split | fail_if_no_progress with_reducible apply Kept.upd)

theorem kept_endSeq {z s : State} (hk : Kept z s) : Kept z (endSeq s) := by
  unfold endSeq
  iterate 30 (try any_goals first | with_reducible assumption | with_reducible apply Kept.put | with_reducible apply kept_scrubsResume | with_reducible apply kept_setRecov | with_reducible apply Kept.each | with_reducible apply Kept.when | with_reducible apply Kept.fold | exact Eq.refl _ | decide | intro _ | (dsimp only) | split | fail_if_no_progress with_reducible apply Kept.upd)

theorem kept_stuckOff {z s : State} (hk : Kept z s) : Kept z (stuckOff s) := by
  unfold stuckOff
  iterate 30 (try any_goals first | with_reducible assumption | with_reducible apply kept_faultOff | with_reducible apply Kept.each | with_reducible apply Kept.when | with_reducible apply Kept.fold | exact Eq.refl _ | decide | intro _ | (dsimp only) | split | fail_if_no_progress with_reducible apply Kept.upd)

theorem kept_effReleaseAck {z s : State} (hk : Kept z s) : Kept z (effReleaseAck s) := by
  unfold effReleaseAck
  iterate 30 (try any_goals first | with_reducible assumption | with_reducible apply kept_allAcknowledge | with_reducible apply kept_completeAt | with_reducible apply kept_countReset | with_reducible apply kept_endSeq | with_reducible apply Kept.event | with_reducible apply Kept.put | with_reducible apply kept_setRecov | with_reducible apply kept_stuckOff | with_reducible apply Kept.each | with_reducible apply Kept.when | with_reducible apply Kept.fold | exact Eq.refl _ | decide | intro _ | (dsimp only) | split | fail_if_no_progress with_reducible apply Kept.upd)

theorem kept_execReleaseAck (s : State) : Ends s (execReleaseAck s) := by
  unfold execReleaseAck
  refine ends_done ?_
  have hk := Kept.refl s
  iterate 30 (try any_goals first | with_reducible assumption | with_reducible apply kept_done | with_reducible apply kept_effReleaseAck | with_reducible apply Kept.each | with_reducible apply Kept.when | with_reducible apply Kept.fold | exact Eq.refl _ | decide | intro _ | (dsimp only) | split | fail_if_no_progress with_reducible apply Kept.upd)

theorem kept_effSequenceStuck {z s : State} (hk : Kept z s) : Kept z (effSequenceStuck s) := by
  unfold effSequenceStuck
  iterate 30 (try any_goals first | with_reducible assumption | with_reducible apply kept_completeAt | with_reducible apply kept_countReset | with_reducible apply kept_endSeq | with_reducible apply Kept.event | with_reducible apply kept_faultOn | with_reducible apply Kept.put | with_reducible apply kept_recordAt | with_reducible apply kept_setRecov | with_reducible apply Kept.each | with_reducible apply Kept.when | with_reducible apply Kept.fold | exact Eq.refl _ | decide | intro _ | (dsimp only) | split | fail_if_no_progress with_reducible apply Kept.upd)

theorem kept_execSequenceStuck (s : State) : Ends s (execSequenceStuck s) := by
  unfold execSequenceStuck
  refine ends_done ?_
  have hk := Kept.refl s
  iterate 30 (try any_goals first | with_reducible assumption | with_reducible apply kept_done | with_reducible apply kept_effSequenceStuck | with_reducible apply Kept.each | with_reducible apply Kept.when | with_reducible apply Kept.fold | exact Eq.refl _ | decide | intro _ | (dsimp only) | split | fail_if_no_progress with_reducible apply Kept.upd)

theorem kept_execCtxReset (port tag : Nat) (s : State) : Ends s (execCtxReset port tag s) := by
  unfold execCtxReset
  refine ends_done ?_
  have hk := Kept.refl s
  iterate 30 (try any_goals first | with_reducible assumption | with_reducible apply kept_command | with_reducible apply kept_done | with_reducible apply kept_enqueueCtx | with_reducible apply kept_markStarted | with_reducible apply kept_victim | with_reducible apply Kept.each | with_reducible apply Kept.when | with_reducible apply Kept.fold | exact Eq.refl _ | decide | intro _ | (dsimp only) | split | fail_if_no_progress with_reducible apply Kept.upd)

theorem kept_execCtxDismiss (port tag : Nat) (s : State) : Ends s (execCtxDismiss port tag s) := by
  unfold execCtxDismiss
  refine ends_done ?_
  have hk := Kept.refl s
  iterate 30 (try any_goals first | with_reducible assumption | with_reducible apply kept_command | with_reducible apply kept_complete | with_reducible apply kept_done | with_reducible apply Kept.put | with_reducible apply kept_setRecov | with_reducible apply Kept.each | with_reducible apply Kept.when | with_reducible apply Kept.fold | exact Eq.refl _ | decide | intro _ | (dsimp only) | split | fail_if_no_progress with_reducible apply Kept.upd)

theorem kept_execReturnToService (port tag : Nat) (s : State) : Ends s (execReturnToService port tag s) := by
  unfold execReturnToService
  refine ends_done ?_
  have hk := Kept.refl s
  iterate 30 (try any_goals first | with_reducible assumption | with_reducible apply kept_command | with_reducible apply kept_complete | with_reducible apply kept_done | with_reducible apply kept_faultOff | with_reducible apply Kept.put | with_reducible apply kept_sendOrder | with_reducible apply kept_setRecov | with_reducible apply Kept.each | with_reducible apply Kept.when | with_reducible apply Kept.fold | exact Eq.refl _ | decide | intro _ | (dsimp only) | split | fail_if_no_progress with_reducible apply Kept.upd)

theorem kept_execCapwinSet (port tag : Nat) (s : State) : Ends s (execCapwinSet port tag s) := by
  unfold execCapwinSet
  refine ends_done ?_
  have hk := Kept.refl s
  iterate 30 (try any_goals first | with_reducible assumption | with_reducible apply kept_bumpGen | with_reducible apply kept_command | with_reducible apply kept_complete | with_reducible apply kept_done | with_reducible apply Kept.put | with_reducible apply Kept.putB | with_reducible apply Kept.each | with_reducible apply Kept.when | with_reducible apply Kept.fold | exact Eq.refl _ | decide | intro _ | (dsimp only) | split | fail_if_no_progress with_reducible apply Kept.upd)

theorem kept_execCaptureFree (port tag : Nat) (s : State) : Ends s (execCaptureFree port tag s) := by
  unfold execCaptureFree
  refine ends_done ?_
  have hk := Kept.refl s
  iterate 30 (try any_goals first | with_reducible assumption | with_reducible apply kept_command | with_reducible apply kept_complete | with_reducible apply kept_done | with_reducible apply Kept.put | with_reducible apply Kept.unevent | with_reducible apply Kept.wipe | with_reducible apply Kept.each | with_reducible apply Kept.when | with_reducible apply Kept.fold | exact Eq.refl _ | decide | intro _ | (dsimp only) | split | fail_if_no_progress with_reducible apply Kept.upd)

theorem kept_recovDieReset {z s : State} (d : Nat) (hk : Kept z s) : Kept z (recovDieReset d s) := by
  unfold recovDieReset
  iterate 30 (try any_goals first | with_reducible assumption | with_reducible apply Kept.put | with_reducible apply kept_sendOrder | with_reducible apply kept_setRecov | with_reducible apply kept_stuckOff | with_reducible apply Kept.each | with_reducible apply Kept.when | with_reducible apply Kept.fold | exact Eq.refl _ | decide | intro _ | (dsimp only) | split | fail_if_no_progress with_reducible apply Kept.upd)

theorem kept_recovAccReset {z s : State} (hk : Kept z s) : Kept z (recovAccReset s) := by
  unfold recovAccReset
  iterate 30 (try any_goals first | with_reducible assumption | with_reducible apply kept_completeAt | with_reducible apply kept_faultOff | with_reducible apply Kept.put | with_reducible apply kept_scrubsResume | with_reducible apply kept_setRecov | with_reducible apply Kept.each | with_reducible apply Kept.when | with_reducible apply Kept.fold | exact Eq.refl _ | decide | intro _ | (dsimp only) | split | fail_if_no_progress with_reducible apply Kept.upd)

theorem kept_recovWarm {z s : State} (hk : Kept z s) : Kept z (recovWarm s) := by
  unfold recovWarm
  iterate 30 (try any_goals first | with_reducible assumption | with_reducible apply kept_setRecov | with_reducible apply Kept.each | with_reducible apply Kept.when | with_reducible apply Kept.fold | exact Eq.refl _ | decide | intro _ | (dsimp only) | split | fail_if_no_progress with_reducible apply Kept.upd)

theorem kept_recovResume {z s : State} (hk : Kept z s) : Kept z (recovResume s) := by
  unfold recovResume
  iterate 30 (try any_goals first | with_reducible assumption | with_reducible apply kept_setRecov | with_reducible apply kept_startSeq | with_reducible apply Kept.each | with_reducible apply Kept.when | with_reducible apply Kept.fold | exact Eq.refl _ | decide | intro _ | (dsimp only) | split | fail_if_no_progress with_reducible apply Kept.upd)

theorem kept_execEntropyFail (s : State) : Ends s (execEntropyFail s) := by
  unfold execEntropyFail
  refine ends_done ?_
  have hk := Kept.refl s
  iterate 30 (try any_goals first | with_reducible assumption | with_reducible apply kept_done | with_reducible apply Kept.event | with_reducible apply kept_faultOn | with_reducible apply Kept.put | with_reducible apply kept_record | with_reducible apply Kept.each | with_reducible apply Kept.when | with_reducible apply Kept.fold | exact Eq.refl _ | decide | intro _ | (dsimp only) | split | fail_if_no_progress with_reducible apply Kept.upd)

theorem kept_execDrbgReseed (s : State) : Ends s (execDrbgReseed s) := by
  unfold execDrbgReseed
  refine ends_done ?_
  have hk := Kept.refl s
  iterate 30 (try any_goals first | with_reducible assumption | with_reducible apply kept_done | with_reducible apply Kept.each | with_reducible apply Kept.when | with_reducible apply Kept.fold | exact Eq.refl _ | decide | intro _ | (dsimp only) | split | fail_if_no_progress with_reducible apply Kept.upd)

theorem kept_execEntropySourceRestart (s : State) : Ends s (execEntropySourceRestart s) := by
  unfold execEntropySourceRestart
  refine ends_done ?_
  have hk := Kept.refl s
  iterate 30 (try any_goals first | with_reducible assumption | with_reducible apply kept_done | with_reducible apply Kept.put | with_reducible apply Kept.each | with_reducible apply Kept.when | with_reducible apply Kept.fold | exact Eq.refl _ | decide | intro _ | (dsimp only) | split | fail_if_no_progress with_reducible apply Kept.upd)

theorem kept_setOp {z s : State} (p : Nat) (o : Option KeyOp) (hk : Kept z s) : Kept z (setOp p o s) := by
  unfold setOp
  iterate 30 (try any_goals first | with_reducible assumption | with_reducible apply Kept.setPart | with_reducible apply Kept.each | with_reducible apply Kept.when | with_reducible apply Kept.fold | exact Eq.refl _ | decide | intro _ | (dsimp only) | split | fail_if_no_progress with_reducible apply Kept.upd)

theorem kept_effKeyCommit {z s : State} (p : Nat) (hk : Kept z s) : Kept z (effKeyCommit p s) := by
  unfold effKeyCommit
  iterate 30 (try any_goals first | with_reducible assumption | with_reducible apply kept_completeAt | with_reducible apply Kept.event | with_reducible apply kept_keySend | with_reducible apply Kept.put | with_reducible apply Kept.setPart | with_reducible apply Kept.each | with_reducible apply Kept.when | with_reducible apply Kept.fold | exact Eq.refl _ | decide | intro _ | (dsimp only) | split | fail_if_no_progress with_reducible apply Kept.upd)

theorem kept_execKeyCommit (part : Nat) (s : State) : Ends s (execKeyCommit part s) := by
  unfold execKeyCommit
  refine ends_done ?_
  have hk := Kept.refl s
  iterate 30 (try any_goals first | with_reducible assumption | with_reducible apply kept_done | with_reducible apply kept_effKeyCommit | with_reducible apply Kept.each | with_reducible apply Kept.when | with_reducible apply Kept.fold | exact Eq.refl _ | decide | intro _ | (dsimp only) | split | fail_if_no_progress with_reducible apply Kept.upd)

theorem kept_effKeybusTimeout {z s : State} (p : Nat) (hk : Kept z s) : Kept z (effKeybusTimeout p s) := by
  unfold effKeybusTimeout
  iterate 30 (try any_goals first | with_reducible assumption | with_reducible apply kept_completeAt | with_reducible apply Kept.event | with_reducible apply kept_keySend | with_reducible apply kept_setOp | with_reducible apply Kept.setPart | with_reducible apply Kept.unevent | with_reducible apply Kept.each | with_reducible apply Kept.when | with_reducible apply Kept.fold | exact Eq.refl _ | decide | intro _ | (dsimp only) | split | fail_if_no_progress with_reducible apply Kept.upd)

theorem kept_execKeybusTimeout (part : Nat) (s : State) : Ends s (execKeybusTimeout part s) := by
  unfold execKeybusTimeout
  refine ends_done ?_
  have hk := Kept.refl s
  iterate 30 (try any_goals first | with_reducible assumption | with_reducible apply kept_done | with_reducible apply kept_effKeybusTimeout | with_reducible apply Kept.each | with_reducible apply Kept.when | with_reducible apply Kept.fold | exact Eq.refl _ | decide | intro _ | (dsimp only) | split | fail_if_no_progress with_reducible apply Kept.upd)

theorem kept_effPrevEpochCount {z s : State} (p pages inflight : Nat) (hk : Kept z s) : Kept z (effPrevEpochCount p pages inflight s) := by
  unfold effPrevEpochCount
  iterate 30 (try any_goals first | with_reducible assumption | with_reducible apply kept_keySend | with_reducible apply Kept.put | with_reducible apply Kept.setPart | with_reducible apply Kept.each | with_reducible apply Kept.when | with_reducible apply Kept.fold | exact Eq.refl _ | decide | intro _ | (dsimp only) | split | fail_if_no_progress with_reducible apply Kept.upd)

theorem kept_execPrevEpochCount (part pages inflight : Nat) (s : State) : Ends s (execPrevEpochCount part pages inflight s) := by
  unfold execPrevEpochCount
  refine ends_done ?_
  have hk := Kept.refl s
  iterate 30 (try any_goals first | with_reducible assumption | with_reducible apply kept_done | with_reducible apply kept_effPrevEpochCount | with_reducible apply Kept.each | with_reducible apply Kept.when | with_reducible apply Kept.fold | exact Eq.refl _ | decide | intro _ | (dsimp only) | split | fail_if_no_progress with_reducible apply Kept.upd)

theorem kept_clearContexts {z s : State} (p : Nat) (hk : Kept z s) : Kept z (clearContexts p s) := by
  unfold clearContexts
  iterate 30 (try any_goals first | with_reducible assumption | with_reducible apply Kept.put | with_reducible apply kept_setRecov | with_reducible apply kept_stuckOff | with_reducible apply Kept.each | with_reducible apply Kept.when | with_reducible apply Kept.fold | exact Eq.refl _ | decide | intro _ | (dsimp only) | split | fail_if_no_progress with_reducible apply Kept.upd)

theorem kept_scrubFree {z s : State} (p : Nat) (c : ScrubH) (hk : Kept z s) : Kept z (scrubFree p c s) := by
  unfold scrubFree
  iterate 30 (try any_goals first | with_reducible assumption | with_reducible apply kept_bumpGen | with_reducible apply kept_clearContexts | with_reducible apply kept_completeAt | with_reducible apply Kept.event | with_reducible apply kept_faultOff | with_reducible apply kept_freePart | with_reducible apply Kept.each | with_reducible apply Kept.when | with_reducible apply Kept.fold | exact Eq.refl _ | decide | intro _ | (dsimp only) | split | fail_if_no_progress with_reducible apply Kept.upd)

theorem kept_effKeyBusAck {z s : State} (p order : Nat) (hk : Kept z s) : Kept z (effKeyBusAck p order s) := by
  unfold effKeyBusAck
  iterate 30 (try any_goals first | with_reducible assumption | with_reducible apply kept_completeAt | with_reducible apply Kept.event | with_reducible apply Kept.put | with_reducible apply kept_scrubAck | with_reducible apply kept_scrubFree | with_reducible apply kept_scrubOverwrite | with_reducible apply kept_setOp | with_reducible apply Kept.setPart | with_reducible apply Kept.each | with_reducible apply Kept.when | with_reducible apply Kept.fold | exact Eq.refl _ | decide | intro _ | (dsimp only) | split | fail_if_no_progress with_reducible apply Kept.upd)

theorem kept_execKeyBusAcknowledgement (part order : Nat) (s : State) : Ends s (execKeyBusAcknowledgement part order s) := by
  unfold execKeyBusAcknowledgement
  refine ends_done ?_
  have hk := Kept.refl s
  iterate 30 (try any_goals first | with_reducible assumption | with_reducible apply kept_done | with_reducible apply kept_effKeyBusAck | with_reducible apply Kept.each | with_reducible apply Kept.when | with_reducible apply Kept.fold | exact Eq.refl _ | decide | intro _ | (dsimp only) | split | fail_if_no_progress with_reducible apply Kept.upd)

theorem kept_effScrubOverwriteDone {z s : State} (p pages : Nat) (hk : Kept z s) : Kept z (effScrubOverwriteDone p pages s) := by
  unfold effScrubOverwriteDone
  iterate 30 (try any_goals first | with_reducible assumption | with_reducible apply kept_keepResult | with_reducible apply kept_keySend | with_reducible apply Kept.put | with_reducible apply kept_setScrub | with_reducible apply Kept.each | with_reducible apply Kept.when | with_reducible apply Kept.fold | exact Eq.refl _ | decide | intro _ | (dsimp only) | split | fail_if_no_progress with_reducible apply Kept.upd)

theorem kept_execScrubOverwriteDone (part pages : Nat) (s : State) : Ends s (execScrubOverwriteDone part pages s) := by
  unfold execScrubOverwriteDone
  refine ends_done ?_
  have hk := Kept.refl s
  iterate 30 (try any_goals first | with_reducible assumption | with_reducible apply kept_done | with_reducible apply kept_effScrubOverwriteDone | with_reducible apply Kept.each | with_reducible apply Kept.when | with_reducible apply Kept.fold | exact Eq.refl _ | decide | intro _ | (dsimp only) | split | fail_if_no_progress with_reducible apply Kept.upd)

theorem kept_effScrubFail {z s : State} (p : Nat) (hk : Kept z s) : Kept z (effScrubFail p s) := by
  unfold effScrubFail
  iterate 30 (try any_goals first | with_reducible assumption | with_reducible apply kept_scrubFailed | with_reducible apply Kept.each | with_reducible apply Kept.when | with_reducible apply Kept.fold | exact Eq.refl _ | decide | intro _ | (dsimp only) | split | fail_if_no_progress with_reducible apply Kept.upd)

theorem kept_execScrubFail (part : Nat) (s : State) : Ends s (execScrubFail part s) := by
  unfold execScrubFail
  refine ends_done ?_
  have hk := Kept.refl s
  iterate 30 (try any_goals first | with_reducible assumption | with_reducible apply kept_done | with_reducible apply kept_effScrubFail | with_reducible apply Kept.each | with_reducible apply Kept.when | with_reducible apply Kept.fold | exact Eq.refl _ | decide | intro _ | (dsimp only) | split | fail_if_no_progress with_reducible apply Kept.upd)

theorem kept_putDebug {z s : State} (dbg prof : Nat) (hk : Kept z s) : Kept z (putDebug dbg prof s) := by
  unfold putDebug
  iterate 30 (try any_goals first | with_reducible assumption | with_reducible apply kept_loseAttest | with_reducible apply Kept.put | with_reducible apply Kept.each | with_reducible apply Kept.when | with_reducible apply Kept.fold | exact Eq.refl _ | decide | intro _ | (dsimp only) | split | fail_if_no_progress with_reducible apply Kept.upd)

theorem kept_putLayout {z s : State} (p : Nat) (l : Layout) (legacy : Bool) (models : Nat) (hk : Kept z s) : Kept z (putLayout p l legacy models s) := by
  unfold putLayout
  iterate 30 (try any_goals first | with_reducible assumption | with_reducible apply kept_idleLinks | with_reducible apply kept_keySend | with_reducible apply Kept.put | with_reducible apply Kept.putB | with_reducible apply Kept.setPart | with_reducible apply Kept.each | with_reducible apply Kept.when | with_reducible apply Kept.fold | exact Eq.refl _ | decide | intro _ | (dsimp only) | split | fail_if_no_progress with_reducible apply Kept.upd)

theorem kept_createPart {z s : State} (p : Nat) (l : Layout) (conf legacy : Bool) (models : Nat) (hk : Kept z s) : Kept z (createPart p l conf legacy models s) := by
  unfold createPart
  iterate 30 (try any_goals first | with_reducible assumption | with_reducible apply kept_installKeys | with_reducible apply Kept.put | with_reducible apply Kept.putB | with_reducible apply kept_putDebug | with_reducible apply kept_putLayout | with_reducible apply Kept.each | with_reducible apply Kept.when | with_reducible apply Kept.fold | exact Eq.refl _ | decide | intro _ | (dsimp only) | split | fail_if_no_progress with_reducible apply Kept.upd)

theorem kept_changePart {z s : State} (p : Nat) (l : Layout) (legacy : Bool) (models : Nat) (hk : Kept z s) : Kept z (changePart p l legacy models s) := by
  unfold changePart
  iterate 30 (try any_goals first | with_reducible assumption | with_reducible apply kept_loseAttest | with_reducible apply kept_putLayout | with_reducible apply kept_reloadKeys | with_reducible apply Kept.each | with_reducible apply Kept.when | with_reducible apply Kept.fold | exact Eq.refl _ | decide | intro _ | (dsimp only) | split | fail_if_no_progress with_reducible apply Kept.upd)

theorem kept_dissolvePart {z s : State} (p : Nat) (hk : Kept z s) : Kept z (dissolvePart p s) := by
  unfold dissolvePart
  iterate 30 (try any_goals first | with_reducible assumption | with_reducible apply kept_eraseAll | with_reducible apply kept_freePart | with_reducible apply kept_keySend | with_reducible apply kept_loseAttest | with_reducible apply Kept.each | with_reducible apply Kept.when | with_reducible apply Kept.fold | exact Eq.refl _ | decide | intro _ | (dsimp only) | split | fail_if_no_progress with_reducible apply Kept.upd)

theorem kept_execPartSet (port tag : Nat) (s : State) : Ends s (execPartSet port tag s) := by
  unfold execPartSet
  refine ends_done ?_
  have hk := Kept.refl s
  iterate 30 (try any_goals first | with_reducible assumption | with_reducible apply kept_bumpGen | with_reducible apply kept_changePart | with_reducible apply kept_command | with_reducible apply kept_complete | with_reducible apply kept_createPart | with_reducible apply kept_dissolvePart | with_reducible apply kept_done | with_reducible apply Kept.each | with_reducible apply Kept.when | with_reducible apply Kept.fold | exact Eq.refl _ | decide | intro _ | (dsimp only) | split | fail_if_no_progress with_reducible apply Kept.upd)

theorem kept_dropPending {z s : State} (p : Nat) (hk : Kept z s) : Kept z (dropPending p s) := by
  unfold dropPending
  iterate 30 (try any_goals first | with_reducible assumption | with_reducible apply kept_completeAt | with_reducible apply Kept.put | with_reducible apply kept_setRecov | with_reducible apply Kept.each | with_reducible apply Kept.when | with_reducible apply Kept.fold | exact Eq.refl _ | decide | intro _ | (dsimp only) | split | fail_if_no_progress with_reducible apply Kept.upd)

theorem kept_execPartScrub (port tag : Nat) (s : State) : Ends s (execPartScrub port tag s) := by
  unfold execPartScrub
  refine ends_done ?_
  have hk := Kept.refl s
  iterate 30 (try any_goals first | with_reducible assumption | with_reducible apply kept_command | with_reducible apply kept_done | with_reducible apply kept_dropPending | with_reducible apply kept_loseAttest | with_reducible apply kept_markStarted | with_reducible apply Kept.put | with_reducible apply kept_scrubErase | with_reducible apply kept_scrubResume | with_reducible apply kept_setScrub | with_reducible apply Kept.each | with_reducible apply Kept.when | with_reducible apply Kept.fold | exact Eq.refl _ | decide | intro _ | (dsimp only) | split | fail_if_no_progress with_reducible apply Kept.upd)

theorem kept_setSpdm {z s : State} (port : Nat) (c : Spdm) (hk : Kept z s) : Kept z (setSpdm port c s) := by
  unfold setSpdm
  iterate 30 (try any_goals first | with_reducible assumption | with_reducible apply Kept.each | with_reducible apply Kept.when | with_reducible apply Kept.fold | exact Eq.refl _ | decide | intro _ | (dsimp only) | split | fail_if_no_progress with_reducible apply Kept.upd)

theorem kept_execPortBind (port tag : Nat) (s : State) : Ends s (execPortBind port tag s) := by
  unfold execPortBind
  refine ends_done ?_
  have hk := Kept.refl s
  iterate 30 (try any_goals first | with_reducible assumption | with_reducible apply kept_bumpGen | with_reducible apply kept_command | with_reducible apply kept_complete | with_reducible apply kept_done | with_reducible apply Kept.put | with_reducible apply kept_setSpdm | with_reducible apply Kept.each | with_reducible apply Kept.when | with_reducible apply Kept.fold | exact Eq.refl _ | decide | intro _ | (dsimp only) | split | fail_if_no_progress with_reducible apply Kept.upd)

theorem kept_execKeyRelease (port tag : Nat) (s : State) : Ends s (execKeyRelease port tag s) := by
  unfold execKeyRelease
  refine ends_done ?_
  have hk := Kept.refl s
  iterate 30 (try any_goals first | with_reducible assumption | with_reducible apply kept_command | with_reducible apply kept_done | with_reducible apply kept_keySend | with_reducible apply kept_markStarted | with_reducible apply kept_setOp | with_reducible apply Kept.each | with_reducible apply Kept.when | with_reducible apply Kept.fold | exact Eq.refl _ | decide | intro _ | (dsimp only) | split | fail_if_no_progress with_reducible apply Kept.upd)

theorem kept_execKeyRotate (port tag : Nat) (s : State) : Ends s (execKeyRotate port tag s) := by
  unfold execKeyRotate
  refine ends_done ?_
  have hk := Kept.refl s
  iterate 30 (try any_goals first | with_reducible assumption | with_reducible apply kept_command | with_reducible apply kept_done | with_reducible apply kept_drbgUsed | with_reducible apply kept_markStarted | with_reducible apply kept_sendLoads | with_reducible apply kept_setOp | with_reducible apply Kept.each | with_reducible apply Kept.when | with_reducible apply Kept.fold | exact Eq.refl _ | decide | intro _ | (dsimp only) | split | fail_if_no_progress with_reducible apply Kept.upd)

theorem kept_execDebugSet (port tag : Nat) (s : State) : Ends s (execDebugSet port tag s) := by
  unfold execDebugSet
  refine ends_done ?_
  have hk := Kept.refl s
  iterate 30 (try any_goals first | with_reducible assumption | with_reducible apply kept_bumpGen | with_reducible apply kept_command | with_reducible apply kept_complete | with_reducible apply kept_done | with_reducible apply kept_putDebug | with_reducible apply Kept.each | with_reducible apply Kept.when | with_reducible apply Kept.fold | exact Eq.refl _ | decide | intro _ | (dsimp only) | split | fail_if_no_progress with_reducible apply Kept.upd)

theorem kept_putSpdmOut {z s : State} (port : Nat) (b : List Nat) (hk : Kept z s) : Kept z (putSpdmOut port b s) := by
  unfold putSpdmOut
  iterate 30 (try any_goals first | with_reducible assumption | with_reducible apply Kept.wipe | with_reducible apply Kept.writeBytes | with_reducible apply Kept.each | with_reducible apply Kept.when | with_reducible apply Kept.fold | exact Eq.refl _ | decide | intro _ | (dsimp only) | split | fail_if_no_progress with_reducible apply Kept.upd)

theorem kept_execSpdmMsg (port tag : Nat) (s : State) : Ends s (execSpdmMsg port tag s) := by
  unfold execSpdmMsg
  refine ends_done ?_
  have hk := Kept.refl s
  iterate 30 (try any_goals first | with_reducible assumption | with_reducible apply kept_command | with_reducible apply kept_complete | with_reducible apply kept_done | with_reducible apply kept_drawn | with_reducible apply Kept.event | with_reducible apply Kept.put | with_reducible apply kept_putSpdmOut | with_reducible apply kept_setSpdm | with_reducible apply Kept.each | with_reducible apply Kept.when | with_reducible apply Kept.fold | exact Eq.refl _ | decide | intro _ | (dsimp only) | split | fail_if_no_progress with_reducible apply Kept.upd)

theorem kept_endSpdm {z s : State} (hk : Kept z s) : Kept z (endSpdm s) := by
  unfold endSpdm
  iterate 30 (try any_goals first | with_reducible assumption | with_reducible apply Kept.each | with_reducible apply Kept.when | with_reducible apply Kept.fold | exact Eq.refl _ | decide | intro _ | (dsimp only) | split | fail_if_no_progress with_reducible apply Kept.upd)

theorem kept_setTherm {z s : State} (v : ThermH) (hk : Kept z s) : Kept z (setTherm v s) := by
  unfold setTherm
  iterate 30 (try any_goals first | with_reducible assumption | with_reducible apply Kept.each | with_reducible apply Kept.when | with_reducible apply Kept.fold | exact Eq.refl _ | decide | intro _ | (dsimp only) | split | fail_if_no_progress with_reducible apply Kept.upd)

theorem kept_effConversionOpen {z s : State} (hk : Kept z s) : Kept z (effConversionOpen s) := by
  unfold effConversionOpen
  iterate 30 (try any_goals first | with_reducible assumption | with_reducible apply kept_emit | with_reducible apply kept_setTherm | with_reducible apply Kept.each | with_reducible apply Kept.when | with_reducible apply Kept.fold | exact Eq.refl _ | decide | intro _ | (dsimp only) | split | fail_if_no_progress with_reducible apply Kept.upd)

theorem kept_execConversionOpen (s : State) : Ends s (execConversionOpen s) := by
  unfold execConversionOpen
  refine ends_done ?_
  have hk := Kept.refl s
  iterate 30 (try any_goals first | with_reducible assumption | with_reducible apply kept_done | with_reducible apply kept_effConversionOpen | with_reducible apply Kept.each | with_reducible apply Kept.when | with_reducible apply Kept.fold | exact Eq.refl _ | decide | intro _ | (dsimp only) | split | fail_if_no_progress with_reducible apply Kept.upd)

theorem kept_takeCounts {z s : State} (die : Nat) (counts : List Nat) (hk : Kept z s) : Kept z (takeCounts die counts s) := by
  unfold takeCounts
  iterate 30 (try any_goals first | with_reducible assumption | with_reducible apply kept_setTherm | with_reducible apply Kept.each | with_reducible apply Kept.when | with_reducible apply Kept.fold | exact Eq.refl _ | decide | intro _ | (dsimp only) | split | fail_if_no_progress with_reducible apply Kept.upd)

theorem kept_effWindowClose {z s : State} (die : Nat) (frame : Frame) (counts : List Nat) (hk : Kept z s) : Kept z (effWindowClose die frame counts s) := by
  unfold effWindowClose
  iterate 30 (try any_goals first | with_reducible assumption | with_reducible apply kept_acceptFrame | with_reducible apply kept_emit | with_reducible apply kept_setTherm | with_reducible apply kept_takeCounts | with_reducible apply Kept.each | with_reducible apply Kept.when | with_reducible apply Kept.fold | exact Eq.refl _ | decide | intro _ | (dsimp only) | split | fail_if_no_progress with_reducible apply Kept.upd)

theorem kept_execWindowClose (report : Arrival) (counts : List Nat) (s : State) : Ends s (execWindowClose report counts s) := by
  unfold execWindowClose
  refine ends_done ?_
  have hk := Kept.refl s
  iterate 30 (try any_goals first | with_reducible assumption | with_reducible apply kept_done | with_reducible apply kept_effWindowClose | with_reducible apply Kept.each | with_reducible apply Kept.when | with_reducible apply Kept.fold | exact Eq.refl _ | decide | intro _ | (dsimp only) | split | fail_if_no_progress with_reducible apply Kept.upd)

theorem kept_excludeSensor {z s : State} (d i cause : Nat) (hk : Kept z s) : Kept z (excludeSensor d i cause s) := by
  unfold excludeSensor
  iterate 30 (try any_goals first | with_reducible assumption | with_reducible apply Kept.addSat | with_reducible apply kept_countHealth | with_reducible apply Kept.event | with_reducible apply Kept.put | with_reducible apply kept_recordDie | with_reducible apply kept_setTherm | with_reducible apply Kept.each | with_reducible apply Kept.when | with_reducible apply Kept.fold | exact Eq.refl _ | decide | intro _ | (dsimp only) | split | fail_if_no_progress with_reducible apply Kept.upd)

theorem kept_leaveLost {z s : State} (d : Nat) (hk : Kept z s) : Kept z (leaveLost d s) := by
  unfold leaveLost
  iterate 30 (try any_goals first | with_reducible assumption | with_reducible apply kept_faultOff | with_reducible apply Kept.put | with_reducible apply Kept.each | with_reducible apply Kept.when | with_reducible apply Kept.fold | exact Eq.refl _ | decide | intro _ | (dsimp only) | split | fail_if_no_progress with_reducible apply Kept.upd)

theorem kept_readmitSensor {z s : State} (d i : Nat) (hk : Kept z s) : Kept z (readmitSensor d i s) := by
  unfold readmitSensor
  iterate 30 (try any_goals first | with_reducible assumption | with_reducible apply Kept.addSat | with_reducible apply Kept.event | with_reducible apply kept_leaveLost | with_reducible apply Kept.put | with_reducible apply kept_recordDie | with_reducible apply kept_setTherm | with_reducible apply Kept.each | with_reducible apply Kept.when | with_reducible apply Kept.fold | exact Eq.refl _ | decide | intro _ | (dsimp only) | split | fail_if_no_progress with_reducible apply Kept.upd)

theorem kept_crossCheck {z s : State} (d : Nat) (c : Conv) (i : Nat) (hk : Kept z s) : Kept z (crossCheck d c i s) := by
  unfold crossCheck
  iterate 30 (try any_goals first | with_reducible assumption | with_reducible apply kept_excludeSensor | with_reducible apply kept_readmitSensor | with_reducible apply kept_setTherm | with_reducible apply Kept.each | with_reducible apply Kept.when | with_reducible apply Kept.fold | exact Eq.refl _ | decide | intro _ | (dsimp only) | split | fail_if_no_progress with_reducible apply Kept.upd)

theorem kept_publishOne {z s : State} (d : Nat) (c : Conv) (i : Nat) (s0 : State) (hk : Kept z s) : Kept z (publishOne d c i s0 s) := by
  unfold publishOne
  iterate 30 (try any_goals first | with_reducible assumption | with_reducible apply Kept.putI | with_reducible apply Kept.each | with_reducible apply Kept.when | with_reducible apply Kept.fold | exact Eq.refl _ | decide | intro _ | (dsimp only) | split | fail_if_no_progress with_reducible apply Kept.upd)

theorem kept_publishDie {z s : State} (d : Nat) (hk : Kept z s) : Kept z (publishDie d s) := by
  unfold publishDie
  iterate 30 (try any_goals first | with_reducible assumption | with_reducible apply Kept.putI | with_reducible apply Kept.each | with_reducible apply Kept.when | with_reducible apply Kept.fold | exact Eq.refl _ | decide | intro _ | (dsimp only) | split | fail_if_no_progress with_reducible apply Kept.upd)

theorem kept_judgeSensing {z s : State} (d : Nat) (hk : Kept z s) : Kept z (judgeSensing d s) := by
  unfold judgeSensing
  iterate 30 (try any_goals first | with_reducible assumption | with_reducible apply Kept.event | with_reducible apply kept_faultOn | with_reducible apply Kept.put | with_reducible apply Kept.putB | with_reducible apply kept_recordDie | with_reducible apply Kept.each | with_reducible apply Kept.when | with_reducible apply Kept.fold | exact Eq.refl _ | decide | intro _ | (dsimp only) | split | fail_if_no_progress with_reducible apply Kept.upd)

theorem kept_enterLevel {z s : State} (level subj part arg : Nat) (hk : Kept z s) : Kept z (enterLevel level subj part arg s) := by
  unfold enterLevel
  iterate 30 (try any_goals first | with_reducible assumption | with_reducible apply Kept.event | with_reducible apply kept_notifyAll | with_reducible apply kept_recordAt | with_reducible apply Kept.each | with_reducible apply Kept.when | with_reducible apply Kept.fold | exact Eq.refl _ | decide | intro _ | (dsimp only) | split | fail_if_no_progress with_reducible apply Kept.upd)

theorem kept_judgeLevel {z s : State} (d : Nat) (m : Int) (r : Nat) (hk : Kept z s) : Kept z (judgeLevel d m r s) := by
  unfold judgeLevel
  iterate 30 (try any_goals first | with_reducible assumption | with_reducible apply kept_enterLevel | with_reducible apply Kept.put | with_reducible apply Kept.each | with_reducible apply Kept.when | with_reducible apply Kept.fold | exact Eq.refl _ | decide | intro _ | (dsimp only) | split | fail_if_no_progress with_reducible apply Kept.upd)

theorem kept_judgeStack {z s : State} (n : Nat) (hk : Kept z s) : Kept z (judgeStack n s) := by
  unfold judgeStack
  iterate 30 (try any_goals first | with_reducible assumption | with_reducible apply kept_enterLevel | with_reducible apply Kept.put | with_reducible apply Kept.each | with_reducible apply Kept.when | with_reducible apply Kept.fold | exact Eq.refl _ | decide | intro _ | (dsimp only) | split | fail_if_no_progress with_reducible apply Kept.upd)

theorem kept_trip {z s : State} (d r : Nat) (t : Int) (hk : Kept z s) : Kept z (trip d r t s) := by
  unfold trip
  iterate 30 (try any_goals first | with_reducible assumption | with_reducible apply Kept.event | with_reducible apply kept_faultOn | with_reducible apply Kept.put | with_reducible apply Kept.putI | with_reducible apply kept_recordDie | with_reducible apply kept_scrubsTripped | with_reducible apply kept_setTherm | with_reducible apply Kept.each | with_reducible apply Kept.when | with_reducible apply Kept.fold | exact Eq.refl _ | decide | intro _ | (dsimp only) | split | fail_if_no_progress with_reducible apply Kept.upd)

theorem kept_judgeTrip {z s : State} (before : State) (d : Nat) (c : Conv) (m : Int) (i : Nat) (hk : Kept z s) : Kept z (judgeTrip before d c m i s) := by
  unfold judgeTrip
  iterate 30 (try any_goals first | with_reducible assumption | with_reducible apply kept_setTherm | with_reducible apply kept_trip | with_reducible apply Kept.each | with_reducible apply Kept.when | with_reducible apply Kept.fold | exact Eq.refl _ | decide | intro _ | (dsimp only) | split | fail_if_no_progress with_reducible apply Kept.upd)

theorem kept_thermalLoop {z s : State} (d : Nat) (mg : Int) (hk : Kept z s) : Kept z (thermalLoop d mg s) := by
  unfold thermalLoop
  iterate 30 (try any_goals first | with_reducible assumption | with_reducible apply Kept.putB | with_reducible apply Kept.putI | with_reducible apply kept_setTherm | with_reducible apply Kept.each | with_reducible apply Kept.when | with_reducible apply Kept.fold | exact Eq.refl _ | decide | intro _ | (dsimp only) | split | fail_if_no_progress with_reducible apply Kept.upd)

theorem kept_convertDie {z s : State} (edges : Nat) (twice : Bool) (d : Nat) (hk : Kept z s) : Kept z (convertDie edges twice d s) := by
  unfold convertDie
  iterate 30 (try any_goals first | with_reducible assumption | with_reducible apply kept_crossCheck | with_reducible apply kept_judgeLevel | with_reducible apply kept_judgeSensing | with_reducible apply kept_judgeTrip | with_reducible apply kept_publishDie | with_reducible apply kept_publishOne | with_reducible apply Kept.put | with_reducible apply kept_thermalLoop | with_reducible apply Kept.each | with_reducible apply Kept.when | with_reducible apply Kept.fold | exact Eq.refl _ | decide | intro _ | (dsimp only) | split | fail_if_no_progress with_reducible apply Kept.upd)

theorem kept_judgeWarm {z s : State} (hk : Kept z s) : Kept z (judgeWarm s) := by
  unfold judgeWarm
  iterate 30 (try any_goals first | with_reducible assumption | with_reducible apply Kept.event | with_reducible apply Kept.put | with_reducible apply kept_record | with_reducible apply kept_setTherm | with_reducible apply Kept.each | with_reducible apply Kept.when | with_reducible apply Kept.fold | exact Eq.refl _ | decide | intro _ | (dsimp only) | split | fail_if_no_progress with_reducible apply Kept.upd)

theorem kept_effThermalConversion {z s : State} (edges : Nat) (hk : Kept z s) : Kept z (effThermalConversion edges s) := by
  unfold effThermalConversion
  iterate 30 (try any_goals first | with_reducible assumption | with_reducible apply kept_convertDie | with_reducible apply kept_drawn | with_reducible apply Kept.event | with_reducible apply kept_judgeStack | with_reducible apply kept_judgeWarm | with_reducible apply kept_setTherm | with_reducible apply Kept.each | with_reducible apply Kept.when | with_reducible apply Kept.fold | exact Eq.refl _ | decide | intro _ | (dsimp only) | split | fail_if_no_progress with_reducible apply Kept.upd)

theorem kept_execThermalConversion (opened closed : Nat) (s : State) : Ends s (execThermalConversion opened closed s) := by
  unfold execThermalConversion
  refine ends_done ?_
  have hk := Kept.refl s
  iterate 30 (try any_goals first | with_reducible assumption | with_reducible apply kept_done | with_reducible apply kept_effThermalConversion | with_reducible apply Kept.each | with_reducible apply Kept.when | with_reducible apply Kept.fold | exact Eq.refl _ | decide | intro _ | (dsimp only) | split | fail_if_no_progress with_reducible apply Kept.upd)

theorem kept_takeStack {z s : State} (n temp errors : Nat) (hk : Kept z s) : Kept z (takeStack n temp errors s) := by
  unfold takeStack
  iterate 30 (try any_goals first | with_reducible assumption | with_reducible apply kept_countHealth | with_reducible apply kept_judgeStack | with_reducible apply Kept.put | with_reducible apply kept_setTherm | with_reducible apply Kept.unevent | with_reducible apply Kept.each | with_reducible apply Kept.when | with_reducible apply Kept.fold | exact Eq.refl _ | decide | intro _ | (dsimp only) | split | fail_if_no_progress with_reducible apply Kept.upd)

theorem kept_effStackReport {z s : State} (n : Nat) (frame : Frame) (temp errors : Nat) (hk : Kept z s) : Kept z (effStackReport n frame temp errors s) := by
  unfold effStackReport
  iterate 30 (try any_goals first | with_reducible assumption | with_reducible apply kept_acceptFrame | with_reducible apply kept_takeStack | with_reducible apply Kept.each | with_reducible apply Kept.when | with_reducible apply Kept.fold | exact Eq.refl _ | decide | intro _ | (dsimp only) | split | fail_if_no_progress with_reducible apply Kept.upd)

theorem kept_execStackReport (stack : Nat) (frame : Frame) (report : StackState) (s : State) : Ends s (execStackReport stack frame report s) := by
  unfold execStackReport
  refine ends_done ?_
  have hk := Kept.refl s
  iterate 30 (try any_goals first | with_reducible assumption | with_reducible apply kept_done | with_reducible apply kept_effStackReport | with_reducible apply Kept.each | with_reducible apply Kept.when | with_reducible apply Kept.fold | exact Eq.refl _ | decide | intro _ | (dsimp only) | split | fail_if_no_progress with_reducible apply Kept.upd)

theorem kept_effStackStale {z s : State} (n : Nat) (hk : Kept z s) : Kept z (effStackStale n s) := by
  unfold effStackStale
  iterate 30 (try any_goals first | with_reducible assumption | with_reducible apply Kept.event | with_reducible apply Kept.put | with_reducible apply kept_recordAt | with_reducible apply Kept.each | with_reducible apply Kept.when | with_reducible apply Kept.fold | exact Eq.refl _ | decide | intro _ | (dsimp only) | split | fail_if_no_progress with_reducible apply Kept.upd)

theorem kept_execStackStale (stack : Nat) (s : State) : Ends s (execStackStale stack s) := by
  unfold execStackStale
  refine ends_done ?_
  have hk := Kept.refl s
  iterate 30 (try any_goals first | with_reducible assumption | with_reducible apply kept_done | with_reducible apply kept_effStackStale | with_reducible apply Kept.each | with_reducible apply Kept.when | with_reducible apply Kept.fold | exact Eq.refl _ | decide | intro _ | (dsimp only) | split | fail_if_no_progress with_reducible apply Kept.upd)

theorem kept_execThermThreshSet (port tag : Nat) (s : State) : Ends s (execThermThreshSet port tag s) := by
  unfold execThermThreshSet
  refine ends_done ?_
  have hk := Kept.refl s
  iterate 30 (try any_goals first | with_reducible assumption | with_reducible apply kept_bumpGen | with_reducible apply kept_command | with_reducible apply kept_complete | with_reducible apply kept_done | with_reducible apply Kept.put | with_reducible apply Kept.each | with_reducible apply Kept.when | with_reducible apply Kept.fold | exact Eq.refl _ | decide | intro _ | (dsimp only) | split | fail_if_no_progress with_reducible apply Kept.upd)

theorem kept_execSensorExclude (port tag : Nat) (s : State) : Ends s (execSensorExclude port tag s) := by
  unfold execSensorExclude
  refine ends_done ?_
  have hk := Kept.refl s
  iterate 30 (try any_goals first | with_reducible assumption | with_reducible apply kept_command | with_reducible apply kept_complete | with_reducible apply kept_done | with_reducible apply kept_excludeSensor | with_reducible apply Kept.each | with_reducible apply Kept.when | with_reducible apply Kept.fold | exact Eq.refl _ | decide | intro _ | (dsimp only) | split | fail_if_no_progress with_reducible apply Kept.upd)

theorem kept_execSensorReadmit (port tag : Nat) (s : State) : Ends s (execSensorReadmit port tag s) := by
  unfold execSensorReadmit
  refine ends_done ?_
  have hk := Kept.refl s
  iterate 30 (try any_goals first | with_reducible assumption | with_reducible apply kept_command | with_reducible apply kept_complete | with_reducible apply kept_done | with_reducible apply kept_readmitSensor | with_reducible apply Kept.each | with_reducible apply Kept.when | with_reducible apply Kept.fold | exact Eq.refl _ | decide | intro _ | (dsimp only) | split | fail_if_no_progress with_reducible apply Kept.upd)

theorem kept_execThermRelease (port tag : Nat) (s : State) : Ends s (execThermRelease port tag s) := by
  unfold execThermRelease
  refine ends_done ?_
  have hk := Kept.refl s
  iterate 30 (try any_goals first | with_reducible assumption | with_reducible apply kept_command | with_reducible apply kept_complete | with_reducible apply kept_done | with_reducible apply kept_faultOff | with_reducible apply Kept.put | with_reducible apply Kept.each | with_reducible apply Kept.when | with_reducible apply Kept.fold | exact Eq.refl _ | decide | intro _ | (dsimp only) | split | fail_if_no_progress with_reducible apply Kept.upd)

end Sys2Proof.Machine
end

