-- ==== Sys2Proof/Laws/KeptB.lean ====
section
/-! SUPPORT. Sys2Proof/Laws/KeptB.lean: what each operation and each meaning of Host.lean, Ring.lean, Limits.lean, Clock.lean, Profile.lean, Reset.lean, Stages.lean, Pmbus.lean, Loop.lean, Power.lean, Float.lean, Estimator.lean keeps (`Kept`), one lemma each. -/

set_option linter.unusedTactic false
set_option linter.unreachableTactic false

namespace Sys2Proof.Machine

theorem kept_setHost {z s : State} (v : HostH) (hk : Kept z s) : Kept z (setHost v s) := by
  unfold setHost
  iterate 30 (try any_goals first | with_reducible assumption | with_reducible apply Kept.each | with_reducible apply Kept.when | with_reducible apply Kept.fold | exact Eq.refl _ | decide | intro _ | (dsimp only) | split | fail_if_no_progress with_reducible apply Kept.upd)

theorem kept_setI3c {z s : State} (v : I3cH) (hk : Kept z s) : Kept z (setI3c v s) := by
  unfold setI3c
  iterate 30 (try any_goals first | with_reducible assumption | with_reducible apply Kept.each | with_reducible apply Kept.when | with_reducible apply Kept.fold | exact Eq.refl _ | decide | intro _ | (dsimp only) | split | fail_if_no_progress with_reducible apply Kept.upd)

theorem kept_respond {z s : State} (p data : Nat) (err : Bool) (hk : Kept z s) : Kept z (respond p data err s) := by
  unfold respond
  iterate 30 (try any_goals first | with_reducible assumption | with_reducible apply Kept.each | with_reducible apply Kept.when | with_reducible apply Kept.fold | exact Eq.refl _ | decide | intro _ | (dsimp only) | split | fail_if_no_progress with_reducible apply Kept.upd)

theorem kept_touch {z s : State} (p : Nat) (hk : Kept z s) : Kept z (touch p s) := by
  unfold touch
  iterate 30 (try any_goals first | with_reducible assumption | with_reducible apply Kept.each | with_reducible apply Kept.when | with_reducible apply Kept.fold | exact Eq.refl _ | decide | intro _ | (dsimp only) | split | fail_if_no_progress with_reducible apply Kept.upd)

theorem kept_noAnswer {z s : State} (p : Nat) (hk : Kept z s) : Kept z (noAnswer p s) := by
  unfold noAnswer
  iterate 30 (try any_goals first | with_reducible assumption | with_reducible apply kept_respond | with_reducible apply Kept.each | with_reducible apply Kept.when | with_reducible apply Kept.fold | exact Eq.refl _ | decide | intro _ | (dsimp only) | split | fail_if_no_progress with_reducible apply Kept.upd)

theorem kept_effAccessViolation {z s : State} (p off : Nat) (isWrite : Bool) (bytes x_value : Nat) (hk : Kept z s) : Kept z (effAccessViolation p off isWrite bytes x_value s) := by
  unfold effAccessViolation
  iterate 30 (try any_goals first | with_reducible assumption | with_reducible apply kept_noAnswer | with_reducible apply kept_respond | with_reducible apply kept_touch | with_reducible apply kept_violation | with_reducible apply Kept.each | with_reducible apply Kept.when | with_reducible apply Kept.fold | exact Eq.refl _ | decide | intro _ | (dsimp only) | split | fail_if_no_progress with_reducible apply Kept.upd)

theorem kept_execAccessViolation (port offset : Nat) (isWrite : Bool) (bytes value : Nat) (s : State) : Ends s (execAccessViolation port offset isWrite bytes value s) := by
  unfold execAccessViolation
  refine ends_done ?_
  have hk := Kept.refl s
  iterate 30 (try any_goals first | with_reducible assumption | with_reducible apply kept_done | with_reducible apply kept_effAccessViolation | with_reducible apply Kept.each | with_reducible apply Kept.when | with_reducible apply Kept.fold | exact Eq.refl _ | decide | intro _ | (dsimp only) | split | fail_if_no_progress with_reducible apply Kept.upd)

theorem kept_rejectValue {z s : State} (p off : Nat) (hk : Kept z s) : Kept z (rejectValue p off s) := by
  unfold rejectValue
  iterate 30 (try any_goals first | with_reducible assumption | with_reducible apply kept_respond | with_reducible apply kept_violation | with_reducible apply Kept.each | with_reducible apply Kept.when | with_reducible apply Kept.fold | exact Eq.refl _ | decide | intro _ | (dsimp only) | split | fail_if_no_progress with_reducible apply Kept.upd)

theorem kept_writeSqTail {z s : State} (p value : Nat) (hk : Kept z s) : Kept z (writeSqTail p value s) := by
  unfold writeSqTail
  iterate 30 (try any_goals first | with_reducible assumption | with_reducible apply Kept.put | with_reducible apply kept_rejectValue | with_reducible apply kept_respond | with_reducible apply Kept.each | with_reducible apply Kept.when | with_reducible apply Kept.fold | exact Eq.refl _ | decide | intro _ | (dsimp only) | split | fail_if_no_progress with_reducible apply Kept.upd)

theorem kept_writeCqHead {z s : State} (p value : Nat) (hk : Kept z s) : Kept z (writeCqHead p value s) := by
  unfold writeCqHead
  iterate 30 (try any_goals first | with_reducible assumption | with_reducible apply Kept.put | with_reducible apply kept_rejectValue | with_reducible apply kept_respond | with_reducible apply Kept.each | with_reducible apply Kept.when | with_reducible apply Kept.fold | exact Eq.refl _ | decide | intro _ | (dsimp only) | split | fail_if_no_progress with_reducible apply Kept.upd)

theorem kept_writeEntry {z s : State} (p off value : Nat) (hk : Kept z s) : Kept z (writeEntry p off value s) := by
  unfold writeEntry
  iterate 30 (try any_goals first | with_reducible assumption | with_reducible apply kept_rejectValue | with_reducible apply kept_respond | with_reducible apply Kept.writeWord32 | with_reducible apply Kept.each | with_reducible apply Kept.when | with_reducible apply Kept.fold | exact Eq.refl _ | decide | intro _ | (dsimp only) | split | fail_if_no_progress with_reducible apply Kept.upd)

theorem kept_access {z s : State} {p off : Nat} {f : State → State} (hf : ∀ t, Kept z t → Kept z (f t)) (hk : Kept z s) :
    Kept z (access p off f s) := by
  unfold access
  repeat' first | with_reducible assumption | with_reducible apply hf | with_reducible apply kept_touch | with_reducible apply kept_noAnswer | split

theorem kept_execCmdSqTailWrite (port value : Nat) (s : State) : Ends s (execCmdSqTailWrite port value s) := by
  unfold execCmdSqTailWrite
  refine ends_done ?_
  have hk := Kept.refl s
  iterate 30 (try any_goals first | with_reducible assumption | with_reducible apply kept_access | with_reducible apply kept_done | with_reducible apply kept_writeSqTail | with_reducible apply Kept.each | with_reducible apply Kept.when | with_reducible apply Kept.fold | exact Eq.refl _ | decide | intro _ | (dsimp only) | split | fail_if_no_progress with_reducible apply Kept.upd)

theorem kept_execCmdCqHeadWrite (port value : Nat) (s : State) : Ends s (execCmdCqHeadWrite port value s) := by
  unfold execCmdCqHeadWrite
  refine ends_done ?_
  have hk := Kept.refl s
  iterate 30 (try any_goals first | with_reducible assumption | with_reducible apply kept_access | with_reducible apply kept_done | with_reducible apply kept_writeCqHead | with_reducible apply Kept.each | with_reducible apply Kept.when | with_reducible apply Kept.fold | exact Eq.refl _ | decide | intro _ | (dsimp only) | split | fail_if_no_progress with_reducible apply Kept.upd)

theorem kept_enrol {z s : State} (fl : Flight) (w : List Nat) (hk : Kept z s) : Kept z (enrol fl w s) := by
  unfold enrol
  iterate 30 (try any_goals first | with_reducible assumption | with_reducible apply Kept.addSat | with_reducible apply kept_setHost | with_reducible apply kept_violation | with_reducible apply kept_writeCompletion | with_reducible apply Kept.each | with_reducible apply Kept.when | with_reducible apply Kept.fold | exact Eq.refl _ | decide | intro _ | (dsimp only) | split | fail_if_no_progress with_reducible apply Kept.upd)

theorem kept_effCommandFetch {z s : State} (p : Nat) (packet : List Nat) (hk : Kept z s) : Kept z (effCommandFetch p packet s) := by
  unfold effCommandFetch
  iterate 30 (try any_goals first | with_reducible assumption | with_reducible apply kept_enrol | with_reducible apply Kept.put | with_reducible apply Kept.each | with_reducible apply Kept.when | with_reducible apply Kept.fold | exact Eq.refl _ | decide | intro _ | (dsimp only) | split | fail_if_no_progress with_reducible apply Kept.upd)

theorem kept_execCommandFetch (port : Nat) (packet : List Nat) (s : State) : Ends s (execCommandFetch port packet s) := by
  unfold execCommandFetch
  refine ends_done ?_
  have hk := Kept.refl s
  iterate 30 (try any_goals first | with_reducible assumption | with_reducible apply kept_done | with_reducible apply kept_effCommandFetch | with_reducible apply Kept.each | with_reducible apply Kept.when | with_reducible apply Kept.fold | exact Eq.refl _ | decide | intro _ | (dsimp only) | split | fail_if_no_progress with_reducible apply Kept.upd)

theorem kept_execNegotiate (port tag : Nat) (s : State) : Ends s (execNegotiate port tag s) := by
  unfold execNegotiate
  refine ends_done ?_
  have hk := Kept.refl s
  iterate 30 (try any_goals first | with_reducible assumption | with_reducible apply kept_command | with_reducible apply kept_complete | with_reducible apply kept_done | with_reducible apply Kept.put | with_reducible apply Kept.each | with_reducible apply Kept.when | with_reducible apply Kept.fold | exact Eq.refl _ | decide | intro _ | (dsimp only) | split | fail_if_no_progress with_reducible apply Kept.upd)

theorem kept_execViolClear (port tag : Nat) (s : State) : Ends s (execViolClear port tag s) := by
  unfold execViolClear
  refine ends_done ?_
  have hk := Kept.refl s
  iterate 30 (try any_goals first | with_reducible assumption | with_reducible apply kept_command | with_reducible apply kept_complete | with_reducible apply kept_done | with_reducible apply Kept.put | with_reducible apply Kept.each | with_reducible apply Kept.when | with_reducible apply Kept.fold | exact Eq.refl _ | decide | intro _ | (dsimp only) | split | fail_if_no_progress with_reducible apply Kept.upd)

theorem kept_execLockForce (port tag : Nat) (s : State) : Ends s (execLockForce port tag s) := by
  unfold execLockForce
  refine ends_done ?_
  have hk := Kept.refl s
  iterate 30 (try any_goals first | with_reducible assumption | with_reducible apply kept_command | with_reducible apply kept_complete | with_reducible apply kept_done | with_reducible apply Kept.put | with_reducible apply kept_record | with_reducible apply Kept.each | with_reducible apply Kept.when | with_reducible apply Kept.fold | exact Eq.refl _ | decide | intro _ | (dsimp only) | split | fail_if_no_progress with_reducible apply Kept.upd)

theorem kept_mbxArrive {z s : State} (dst entry : Nat) (hk : Kept z s) : Kept z (mbxArrive dst entry s) := by
  unfold mbxArrive
  iterate 30 (try any_goals first | with_reducible assumption | with_reducible apply kept_emit | with_reducible apply Kept.event | with_reducible apply kept_notify | with_reducible apply kept_setHost | with_reducible apply kept_setI3c | with_reducible apply Kept.each | with_reducible apply Kept.when | with_reducible apply Kept.fold | exact Eq.refl _ | decide | intro _ | (dsimp only) | split | fail_if_no_progress with_reducible apply Kept.upd)

theorem kept_mbxMove {z s : State} (dst : Nat) (hk : Kept z s) : Kept z (mbxMove dst s) := by
  unfold mbxMove
  iterate 30 (try any_goals first | with_reducible assumption | with_reducible apply kept_mbxArrive | with_reducible apply kept_setHost | with_reducible apply Kept.each | with_reducible apply Kept.when | with_reducible apply Kept.fold | exact Eq.refl _ | decide | intro _ | (dsimp only) | split | fail_if_no_progress with_reducible apply Kept.upd)

theorem kept_effMbxForward {z s : State} (dst : Nat) (hk : Kept z s) : Kept z (effMbxForward dst s) := by
  unfold effMbxForward
  iterate 30 (try any_goals first | with_reducible assumption | with_reducible apply kept_mbxMove | with_reducible apply Kept.each | with_reducible apply Kept.when | with_reducible apply Kept.fold | exact Eq.refl _ | decide | intro _ | (dsimp only) | split | fail_if_no_progress with_reducible apply Kept.upd)

theorem kept_execMbxForward (dst : Nat) (s : State) : Ends s (execMbxForward dst s) := by
  unfold execMbxForward
  refine ends_done ?_
  have hk := Kept.refl s
  iterate 30 (try any_goals first | with_reducible assumption | with_reducible apply kept_done | with_reducible apply kept_effMbxForward | with_reducible apply Kept.each | with_reducible apply Kept.when | with_reducible apply Kept.fold | exact Eq.refl _ | decide | intro _ | (dsimp only) | split | fail_if_no_progress with_reducible apply Kept.upd)

theorem kept_mbxSendTo {z s : State} (p value : Nat) (hk : Kept z s) : Kept z (mbxSendTo p value s) := by
  unfold mbxSendTo
  iterate 30 (try any_goals first | with_reducible assumption | with_reducible apply kept_effMbxForward | with_reducible apply Kept.event | with_reducible apply kept_mbxArrive | with_reducible apply kept_respond | with_reducible apply kept_setHost | with_reducible apply kept_violation | with_reducible apply Kept.each | with_reducible apply Kept.when | with_reducible apply Kept.fold | exact Eq.refl _ | decide | intro _ | (dsimp only) | split | fail_if_no_progress with_reducible apply Kept.upd)

theorem kept_execMbxSend (port value : Nat) (s : State) : Ends s (execMbxSend port value s) := by
  unfold execMbxSend
  refine ends_done ?_
  have hk := Kept.refl s
  iterate 30 (try any_goals first | with_reducible assumption | with_reducible apply kept_access | with_reducible apply kept_done | with_reducible apply kept_mbxSendTo | with_reducible apply Kept.each | with_reducible apply Kept.when | with_reducible apply Kept.fold | exact Eq.refl _ | decide | intro _ | (dsimp only) | split | fail_if_no_progress with_reducible apply Kept.upd)

theorem kept_latch {z s : State} (p off v : Nat) (hk : Kept z s) : Kept z (latch p off v s) := by
  unfold latch
  iterate 30 (try any_goals first | with_reducible assumption | with_reducible apply kept_setHost | with_reducible apply Kept.each | with_reducible apply Kept.when | with_reducible apply Kept.fold | exact Eq.refl _ | decide | intro _ | (dsimp only) | split | fail_if_no_progress with_reducible apply Kept.upd)

theorem kept_readMbx {z s : State} (p : Nat) (hk : Kept z s) : Kept z (readMbx p s).2 := by
  unfold readMbx
  split
  · exact kept_latch _ _ _ (kept_setHost _ hk)
  · exact kept_latch _ _ _ hk

theorem kept_execMbxRecv (port : Nat) (s : State) : Ends s (execMbxRecv port s) := by
  unfold execMbxRecv
  refine ends_done ?_
  have hk := Kept.refl s
  iterate 30 (try any_goals first | with_reducible assumption | with_reducible apply kept_access | with_reducible apply kept_done | with_reducible apply kept_readMbx | with_reducible apply kept_respond | with_reducible apply Kept.each | with_reducible apply Kept.when | with_reducible apply Kept.fold | exact Eq.refl _ | decide | intro _ | (dsimp only) | split | fail_if_no_progress with_reducible apply Kept.upd)

theorem kept_writeNotifyEn {z s : State} (p value : Nat) (hk : Kept z s) : Kept z (writeNotifyEn p value s) := by
  unfold writeNotifyEn
  iterate 30 (try any_goals first | with_reducible assumption | with_reducible apply kept_emit | with_reducible apply kept_notify | with_reducible apply Kept.put | with_reducible apply kept_respond | with_reducible apply Kept.each | with_reducible apply Kept.when | with_reducible apply Kept.fold | exact Eq.refl _ | decide | intro _ | (dsimp only) | split | fail_if_no_progress with_reducible apply Kept.upd)

theorem kept_execNotifyEnableWrite (port value : Nat) (s : State) : Ends s (execNotifyEnableWrite port value s) := by
  unfold execNotifyEnableWrite
  refine ends_done ?_
  have hk := Kept.refl s
  iterate 30 (try any_goals first | with_reducible assumption | with_reducible apply kept_access | with_reducible apply kept_done | with_reducible apply kept_writeNotifyEn | with_reducible apply Kept.each | with_reducible apply Kept.when | with_reducible apply Kept.fold | exact Eq.refl _ | decide | intro _ | (dsimp only) | split | fail_if_no_progress with_reducible apply Kept.upd)

theorem kept_effLockRead {z s : State} (n : Nat) (ports : List Nat) (hk : Kept z s) : Kept z (effLockRead n ports s) := by
  unfold effLockRead
  iterate 30 (try any_goals first | with_reducible assumption | with_reducible apply Kept.put | with_reducible apply kept_touch | with_reducible apply Kept.each | with_reducible apply Kept.when | with_reducible apply Kept.fold | exact Eq.refl _ | decide | intro _ | (dsimp only) | split | fail_if_no_progress with_reducible apply Kept.upd)

theorem kept_execLockRead (lock : Nat) (ports : List Nat) (s : State) : Ends s (execLockRead lock ports s) := by
  unfold execLockRead
  refine ends_done ?_
  have hk := Kept.refl s
  iterate 30 (try any_goals first | with_reducible assumption | with_reducible apply kept_done | with_reducible apply kept_effLockRead | with_reducible apply Kept.each | with_reducible apply Kept.when | with_reducible apply Kept.fold | exact Eq.refl _ | decide | intro _ | (dsimp only) | split | fail_if_no_progress with_reducible apply Kept.upd)

theorem kept_writeLock {z s : State} (p n value : Nat) (hk : Kept z s) : Kept z (writeLock p n value s) := by
  unfold writeLock
  iterate 30 (try any_goals first | with_reducible assumption | with_reducible apply Kept.put | with_reducible apply kept_respond | with_reducible apply kept_violation | with_reducible apply Kept.each | with_reducible apply Kept.when | with_reducible apply Kept.fold | exact Eq.refl _ | decide | intro _ | (dsimp only) | split | fail_if_no_progress with_reducible apply Kept.upd)

theorem kept_execLockRelease (port lock value : Nat) (s : State) : Ends s (execLockRelease port lock value s) := by
  unfold execLockRelease
  refine ends_done ?_
  have hk := Kept.refl s
  iterate 30 (try any_goals first | with_reducible assumption | with_reducible apply kept_access | with_reducible apply kept_done | with_reducible apply kept_writeLock | with_reducible apply Kept.each | with_reducible apply Kept.when | with_reducible apply Kept.fold | exact Eq.refl _ | decide | intro _ | (dsimp only) | split | fail_if_no_progress with_reducible apply Kept.upd)

theorem kept_readAccess {z s : State} (p off : Nat) (hk : Kept z s) : Kept z (readAccess p off s).2 := by
  unfold readAccess
  dsimp only
  repeat' first | with_reducible assumption | with_reducible apply kept_readMbx | with_reducible apply Kept.put | with_reducible apply kept_latch | with_reducible apply kept_setHost | split | fail_if_no_progress dsimp only

theorem kept_effRead {z s : State} (p off : Nat) (hk : Kept z s) : Kept z (effRead p off s) := by
  unfold effRead
  iterate 30 (try any_goals first | with_reducible assumption | with_reducible apply kept_access | with_reducible apply kept_readAccess | with_reducible apply kept_respond | with_reducible apply kept_violation | with_reducible apply Kept.each | with_reducible apply Kept.when | with_reducible apply Kept.fold | exact Eq.refl _ | decide | intro _ | (dsimp only) | split | fail_if_no_progress with_reducible apply Kept.upd)

theorem kept_execHighWordLatch (port offset : Nat) (s : State) : Ends s (execHighWordLatch port offset s) := by
  unfold execHighWordLatch
  refine ends_done ?_
  have hk := Kept.refl s
  iterate 30 (try any_goals first | with_reducible assumption | with_reducible apply kept_done | with_reducible apply kept_effRead | with_reducible apply Kept.each | with_reducible apply Kept.when | with_reducible apply Kept.fold | exact Eq.refl _ | decide | intro _ | (dsimp only) | split | fail_if_no_progress with_reducible apply Kept.upd)

theorem kept_execRecordReadLatch (port offset : Nat) (s : State) : Ends s (execRecordReadLatch port offset s) := by
  unfold execRecordReadLatch
  refine ends_done ?_
  have hk := Kept.refl s
  iterate 30 (try any_goals first | with_reducible assumption | with_reducible apply kept_done | with_reducible apply kept_effRead | with_reducible apply Kept.each | with_reducible apply Kept.when | with_reducible apply Kept.fold | exact Eq.refl _ | decide | intro _ | (dsimp only) | split | fail_if_no_progress with_reducible apply Kept.upd)

theorem kept_i3cGet {z s : State} (b : List Nat) (hk : Kept z s) : Kept z (i3cGet b s) := by
  unfold i3cGet
  iterate 30 (try any_goals first | with_reducible assumption | with_reducible apply kept_emit | with_reducible apply Kept.each | with_reducible apply Kept.when | with_reducible apply Kept.fold | exact Eq.refl _ | decide | intro _ | (dsimp only) | split | fail_if_no_progress with_reducible apply Kept.upd)

theorem kept_execEntdaa (address : Nat) (s : State) : Ends s (execEntdaa address s) := by
  unfold execEntdaa
  refine ends_done ?_
  have hk := Kept.refl s
  iterate 30 (try any_goals first | with_reducible assumption | with_reducible apply kept_done | with_reducible apply kept_emit | with_reducible apply kept_setI3c | with_reducible apply Kept.each | with_reducible apply Kept.when | with_reducible apply Kept.fold | exact Eq.refl _ | decide | intro _ | (dsimp only) | split | fail_if_no_progress with_reducible apply Kept.upd)

theorem kept_execRstdaa (s : State) : Ends s (execRstdaa s) := by
  unfold execRstdaa
  refine ends_done ?_
  have hk := Kept.refl s
  iterate 30 (try any_goals first | with_reducible assumption | with_reducible apply kept_done | with_reducible apply kept_setI3c | with_reducible apply Kept.each | with_reducible apply Kept.when | with_reducible apply Kept.fold | exact Eq.refl _ | decide | intro _ | (dsimp only) | split | fail_if_no_progress with_reducible apply Kept.upd)

theorem kept_effEnec {z s : State} (events : Nat) (hk : Kept z s) : Kept z (effEnec events s) := by
  unfold effEnec
  iterate 30 (try any_goals first | with_reducible assumption | with_reducible apply kept_emit | with_reducible apply kept_setI3c | with_reducible apply Kept.each | with_reducible apply Kept.when | with_reducible apply Kept.fold | exact Eq.refl _ | decide | intro _ | (dsimp only) | split | fail_if_no_progress with_reducible apply Kept.upd)

theorem kept_execEnec (events : Nat) (s : State) : Ends s (execEnec events s) := by
  unfold execEnec
  refine ends_done ?_
  have hk := Kept.refl s
  iterate 30 (try any_goals first | with_reducible assumption | with_reducible apply kept_done | with_reducible apply kept_effEnec | with_reducible apply Kept.each | with_reducible apply Kept.when | with_reducible apply Kept.fold | exact Eq.refl _ | decide | intro _ | (dsimp only) | split | fail_if_no_progress with_reducible apply Kept.upd)

theorem kept_execDisec (events : Nat) (s : State) : Ends s (execDisec events s) := by
  unfold execDisec
  refine ends_done ?_
  have hk := Kept.refl s
  iterate 30 (try any_goals first | with_reducible assumption | with_reducible apply kept_done | with_reducible apply kept_setI3c | with_reducible apply Kept.each | with_reducible apply Kept.when | with_reducible apply Kept.fold | exact Eq.refl _ | decide | intro _ | (dsimp only) | split | fail_if_no_progress with_reducible apply Kept.upd)

theorem kept_execSetmwl (length : Nat) (s : State) : Ends s (execSetmwl length s) := by
  unfold execSetmwl
  refine ends_done ?_
  have hk := Kept.refl s
  iterate 30 (try any_goals first | with_reducible assumption | with_reducible apply kept_done | with_reducible apply kept_setI3c | with_reducible apply Kept.each | with_reducible apply Kept.when | with_reducible apply Kept.fold | exact Eq.refl _ | decide | intro _ | (dsimp only) | split | fail_if_no_progress with_reducible apply Kept.upd)

theorem kept_execSetmrl (length : Nat) (s : State) : Ends s (execSetmrl length s) := by
  unfold execSetmrl
  refine ends_done ?_
  have hk := Kept.refl s
  iterate 30 (try any_goals first | with_reducible assumption | with_reducible apply kept_done | with_reducible apply kept_setI3c | with_reducible apply Kept.each | with_reducible apply Kept.when | with_reducible apply Kept.fold | exact Eq.refl _ | decide | intro _ | (dsimp only) | split | fail_if_no_progress with_reducible apply Kept.upd)

theorem kept_execGetpid (s : State) : Ends s (execGetpid s) := by
  unfold execGetpid
  refine ends_done ?_
  have hk := Kept.refl s
  iterate 30 (try any_goals first | with_reducible assumption | with_reducible apply kept_done | with_reducible apply kept_i3cGet | with_reducible apply Kept.each | with_reducible apply Kept.when | with_reducible apply Kept.fold | exact Eq.refl _ | decide | intro _ | (dsimp only) | split | fail_if_no_progress with_reducible apply Kept.upd)

theorem kept_execGetbcr (s : State) : Ends s (execGetbcr s) := by
  unfold execGetbcr
  refine ends_done ?_
  have hk := Kept.refl s
  iterate 30 (try any_goals first | with_reducible assumption | with_reducible apply kept_done | with_reducible apply kept_i3cGet | with_reducible apply Kept.each | with_reducible apply Kept.when | with_reducible apply Kept.fold | exact Eq.refl _ | decide | intro _ | (dsimp only) | split | fail_if_no_progress with_reducible apply Kept.upd)

theorem kept_execGetdcr (s : State) : Ends s (execGetdcr s) := by
  unfold execGetdcr
  refine ends_done ?_
  have hk := Kept.refl s
  iterate 30 (try any_goals first | with_reducible assumption | with_reducible apply kept_done | with_reducible apply kept_i3cGet | with_reducible apply Kept.each | with_reducible apply Kept.when | with_reducible apply Kept.fold | exact Eq.refl _ | decide | intro _ | (dsimp only) | split | fail_if_no_progress with_reducible apply Kept.upd)

theorem kept_execGetstatus (s : State) : Ends s (execGetstatus s) := by
  unfold execGetstatus
  refine ends_done ?_
  have hk := Kept.refl s
  iterate 30 (try any_goals first | with_reducible assumption | with_reducible apply kept_done | with_reducible apply kept_i3cGet | with_reducible apply Kept.each | with_reducible apply Kept.when | with_reducible apply Kept.fold | exact Eq.refl _ | decide | intro _ | (dsimp only) | split | fail_if_no_progress with_reducible apply Kept.upd)

theorem kept_execGetmwl (s : State) : Ends s (execGetmwl s) := by
  unfold execGetmwl
  refine ends_done ?_
  have hk := Kept.refl s
  iterate 30 (try any_goals first | with_reducible assumption | with_reducible apply kept_done | with_reducible apply kept_i3cGet | with_reducible apply Kept.each | with_reducible apply Kept.when | with_reducible apply Kept.fold | exact Eq.refl _ | decide | intro _ | (dsimp only) | split | fail_if_no_progress with_reducible apply Kept.upd)

theorem kept_execGetmrl (s : State) : Ends s (execGetmrl s) := by
  unfold execGetmrl
  refine ends_done ?_
  have hk := Kept.refl s
  iterate 30 (try any_goals first | with_reducible assumption | with_reducible apply kept_done | with_reducible apply kept_i3cGet | with_reducible apply Kept.each | with_reducible apply Kept.when | with_reducible apply Kept.fold | exact Eq.refl _ | decide | intro _ | (dsimp only) | split | fail_if_no_progress with_reducible apply Kept.upd)

theorem kept_effI3cRead {z s : State} (n : Nat) (hk : Kept z s) : Kept z (effI3cRead n s) := by
  induction n generalizing s with
  | zero => exact hk
  | succ n ih => exact ih (kept_setI3c _ (kept_emit _ (kept_effRead _ _ hk)))

theorem kept_execI3cPrivateRead (words : Nat) (s : State) : Ends s (execI3cPrivateRead words s) := by
  unfold execI3cPrivateRead
  refine ends_done ?_
  have hk := Kept.refl s
  iterate 30 (try any_goals first | with_reducible assumption | with_reducible apply kept_done | with_reducible apply kept_effI3cRead | with_reducible apply Kept.each | with_reducible apply Kept.when | with_reducible apply Kept.fold | exact Eq.refl _ | decide | intro _ | (dsimp only) | split | fail_if_no_progress with_reducible apply Kept.upd)

theorem kept_setRing {z s : State} (v : RingH) (hk : Kept z s) : Kept z (setRing v s) := by
  unfold setRing
  iterate 30 (try any_goals first | with_reducible assumption | with_reducible apply Kept.each | with_reducible apply Kept.when | with_reducible apply Kept.fold | exact Eq.refl _ | decide | intro _ | (dsimp only) | split | fail_if_no_progress with_reducible apply Kept.upd)

theorem kept_setKnown {z s : State} (m : Nat) (k : RingKnown) (hk : Kept z s) : Kept z (setKnown m k s) := by
  unfold setKnown
  iterate 30 (try any_goals first | with_reducible assumption | with_reducible apply kept_setRing | with_reducible apply Kept.each | with_reducible apply Kept.when | with_reducible apply Kept.fold | exact Eq.refl _ | decide | intro _ | (dsimp only) | split | fail_if_no_progress with_reducible apply Kept.upd)

theorem kept_setMasterId {z s : State} (m : Nat) (hk : Kept z s) : Kept z (setMasterId m s) := by
  unfold setMasterId
  iterate 30 (try any_goals first | with_reducible assumption | with_reducible apply Kept.event | with_reducible apply Kept.put | with_reducible apply kept_record | with_reducible apply Kept.each | with_reducible apply Kept.when | with_reducible apply Kept.fold | exact Eq.refl _ | decide | intro _ | (dsimp only) | split | fail_if_no_progress with_reducible apply Kept.upd)

theorem kept_ringListen {z s : State} (hk : Kept z s) : Kept z (ringListen s) := by
  unfold ringListen
  iterate 30 (try any_goals first | with_reducible assumption | with_reducible apply Kept.put | with_reducible apply kept_setRing | with_reducible apply Kept.each | with_reducible apply Kept.when | with_reducible apply Kept.fold | exact Eq.refl _ | decide | intro _ | (dsimp only) | split | fail_if_no_progress with_reducible apply Kept.upd)

theorem kept_ringLeave {z s : State} (hk : Kept z s) : Kept z (ringLeave s) := by
  unfold ringLeave
  iterate 30 (try any_goals first | with_reducible assumption | with_reducible apply Kept.event | with_reducible apply Kept.put | with_reducible apply kept_record | with_reducible apply Kept.each | with_reducible apply Kept.when | with_reducible apply Kept.fold | exact Eq.refl _ | decide | intro _ | (dsimp only) | split | fail_if_no_progress with_reducible apply Kept.upd)

theorem kept_ringEnter {z s : State} (hk : Kept z s) : Kept z (ringEnter s) := by
  unfold ringEnter
  iterate 30 (try any_goals first | with_reducible assumption | with_reducible apply Kept.event | with_reducible apply Kept.put | with_reducible apply kept_record | with_reducible apply Kept.each | with_reducible apply Kept.when | with_reducible apply Kept.fold | exact Eq.refl _ | decide | intro _ | (dsimp only) | split | fail_if_no_progress with_reducible apply Kept.upd)

theorem kept_execRingJoin (s : State) : Ends s (execRingJoin s) := by
  unfold execRingJoin
  refine ends_done ?_
  have hk := Kept.refl s
  iterate 30 (try any_goals first | with_reducible assumption | with_reducible apply kept_done | with_reducible apply kept_ringEnter | with_reducible apply Kept.each | with_reducible apply Kept.when | with_reducible apply Kept.fold | exact Eq.refl _ | decide | intro _ | (dsimp only) | split | fail_if_no_progress with_reducible apply Kept.upd)

theorem kept_execBypassClose (s : State) : Ends s (execBypassClose s) := by
  unfold execBypassClose
  refine ends_done ?_
  have hk := Kept.refl s
  iterate 30 (try any_goals first | with_reducible assumption | with_reducible apply kept_done | with_reducible apply kept_ringLeave | with_reducible apply kept_ringListen | with_reducible apply Kept.each | with_reducible apply Kept.when | with_reducible apply Kept.fold | exact Eq.refl _ | decide | intro _ | (dsimp only) | split | fail_if_no_progress with_reducible apply Kept.upd)

theorem kept_execNoMaster (s : State) : Ends s (execNoMaster s) := by
  unfold execNoMaster
  refine ends_done ?_
  have hk := Kept.refl s
  iterate 30 (try any_goals first | with_reducible assumption | with_reducible apply kept_done | with_reducible apply Kept.put | with_reducible apply Kept.each | with_reducible apply Kept.when | with_reducible apply Kept.fold | exact Eq.refl _ | decide | intro _ | (dsimp only) | split | fail_if_no_progress with_reducible apply Kept.upd)

theorem kept_effMasterTakeover {z s : State} (hk : Kept z s) : Kept z (effMasterTakeover s) := by
  unfold effMasterTakeover
  iterate 30 (try any_goals first | with_reducible assumption | with_reducible apply Kept.put | with_reducible apply kept_ringEnter | with_reducible apply kept_setRing | with_reducible apply Kept.each | with_reducible apply Kept.when | with_reducible apply Kept.fold | exact Eq.refl _ | decide | intro _ | (dsimp only) | split | fail_if_no_progress with_reducible apply Kept.upd)

theorem kept_execMasterTakeover (s : State) : Ends s (execMasterTakeover s) := by
  unfold execMasterTakeover
  refine ends_done ?_
  have hk := Kept.refl s
  iterate 30 (try any_goals first | with_reducible assumption | with_reducible apply kept_done | with_reducible apply kept_effMasterTakeover | with_reducible apply Kept.each | with_reducible apply Kept.when | with_reducible apply Kept.fold | exact Eq.refl _ | decide | intro _ | (dsimp only) | split | fail_if_no_progress with_reducible apply Kept.upd)

theorem kept_execMasterYield (s : State) : Ends s (execMasterYield s) := by
  unfold execMasterYield
  refine ends_done ?_
  have hk := Kept.refl s
  iterate 30 (try any_goals first | with_reducible assumption | with_reducible apply kept_done | with_reducible apply Kept.put | with_reducible apply kept_setRing | with_reducible apply Kept.each | with_reducible apply Kept.when | with_reducible apply Kept.fold | exact Eq.refl _ | decide | intro _ | (dsimp only) | split | fail_if_no_progress with_reducible apply Kept.upd)

theorem kept_latchWords {z s : State} (hk : Kept z s) : Kept z (latchWords s) := by
  unfold latchWords
  iterate 30 (try any_goals first | with_reducible assumption | with_reducible apply Kept.put | with_reducible apply kept_setRing | with_reducible apply Kept.each | with_reducible apply Kept.when | with_reducible apply Kept.fold | exact Eq.refl _ | decide | intro _ | (dsimp only) | split | fail_if_no_progress with_reducible apply Kept.upd)

theorem kept_ringStale {z s : State} (hk : Kept z s) : Kept z (ringStale s) := by
  unfold ringStale
  iterate 30 (try any_goals first | with_reducible assumption | with_reducible apply kept_setRing | with_reducible apply Kept.each | with_reducible apply Kept.when | with_reducible apply Kept.fold | exact Eq.refl _ | decide | intro _ | (dsimp only) | split | fail_if_no_progress with_reducible apply Kept.upd)

theorem kept_takeEntry {z s : State} (hk : Kept z s) : Kept z (takeEntry s) := by
  unfold takeEntry
  iterate 30 (try any_goals first | with_reducible assumption | with_reducible apply Kept.event | with_reducible apply kept_setRing | with_reducible apply Kept.each | with_reducible apply Kept.when | with_reducible apply Kept.fold | exact Eq.refl _ | decide | intro _ | (dsimp only) | split | fail_if_no_progress with_reducible apply Kept.upd)

theorem kept_sendRing {z s : State} (b : List Nat) (hk : Kept z s) : Kept z (sendRing b s) := by
  unfold sendRing
  iterate 30 (try any_goals first | with_reducible assumption | with_reducible apply kept_emit | with_reducible apply Kept.each | with_reducible apply Kept.when | with_reducible apply Kept.fold | exact Eq.refl _ | decide | intro _ | (dsimp only) | split | fail_if_no_progress with_reducible apply Kept.upd)

theorem kept_beginSuper {z s : State} (hk : Kept z s) : Kept z (beginSuper s) := by
  unfold beginSuper
  iterate 30 (try any_goals first | with_reducible assumption | with_reducible apply kept_latchWords | with_reducible apply kept_setRing | with_reducible apply Kept.each | with_reducible apply Kept.when | with_reducible apply Kept.fold | exact Eq.refl _ | decide | intro _ | (dsimp only) | split | fail_if_no_progress with_reducible apply Kept.upd)

theorem kept_effMasterFrameStart {z s : State} (hk : Kept z s) : Kept z (effMasterFrameStart s) := by
  unfold effMasterFrameStart
  iterate 30 (try any_goals first | with_reducible assumption | with_reducible apply kept_beginSuper | with_reducible apply kept_emit | with_reducible apply kept_sendRing | with_reducible apply kept_setRing | with_reducible apply kept_takeEntry | with_reducible apply Kept.each | with_reducible apply Kept.when | with_reducible apply Kept.fold | exact Eq.refl _ | decide | intro _ | (dsimp only) | split | fail_if_no_progress with_reducible apply Kept.upd)

theorem kept_execMasterFrameStart (s : State) : Ends s (execMasterFrameStart s) := by
  unfold execMasterFrameStart
  refine ends_done ?_
  have hk := Kept.refl s
  iterate 30 (try any_goals first | with_reducible assumption | with_reducible apply kept_done | with_reducible apply kept_effMasterFrameStart | with_reducible apply Kept.each | with_reducible apply Kept.when | with_reducible apply Kept.fold | exact Eq.refl _ | decide | intro _ | (dsimp only) | split | fail_if_no_progress with_reducible apply Kept.upd)

theorem kept_feedBrown {z s : State} (m flags feed : Nat) (hk : Kept z s) : Kept z (feedBrown m flags feed s) := by
  unfold feedBrown
  iterate 30 (try any_goals first | with_reducible assumption | with_reducible apply kept_countHealth | with_reducible apply Kept.event | with_reducible apply kept_record | with_reducible apply Kept.unevent | with_reducible apply Kept.each | with_reducible apply Kept.when | with_reducible apply Kept.fold | exact Eq.refl _ | decide | intro _ | (dsimp only) | split | fail_if_no_progress with_reducible apply Kept.upd)

theorem kept_keepCopy {z s : State} (m f : Nat) (b : List Nat) (hk : Kept z s) : Kept z (keepCopy m f b s) := by
  unfold keepCopy
  iterate 30 (try any_goals first | with_reducible assumption | with_reducible apply Kept.put | with_reducible apply kept_setRing | with_reducible apply Kept.each | with_reducible apply Kept.when | with_reducible apply Kept.fold | exact Eq.refl _ | decide | intro _ | (dsimp only) | split | fail_if_no_progress with_reducible apply Kept.upd)

theorem kept_readSlots {z s : State} (own : Bool) (f : Nat) (slots : List (List Nat)) (hk : Kept z s) : Kept z (readSlots own f slots s) := by
  unfold readSlots
  iterate 30 (try any_goals first | with_reducible assumption | with_reducible apply Kept.addSat | with_reducible apply kept_feedBrown | with_reducible apply kept_keepCopy | with_reducible apply Kept.each | with_reducible apply Kept.when | with_reducible apply Kept.fold | exact Eq.refl _ | decide | intro _ | (dsimp only) | split | fail_if_no_progress with_reducible apply Kept.upd)

theorem kept_idConflict {z s : State} (hk : Kept z s) : Kept z (idConflict s) := by
  unfold idConflict
  iterate 30 (try any_goals first | with_reducible assumption | with_reducible apply Kept.event | with_reducible apply kept_faultOn | with_reducible apply Kept.put | with_reducible apply kept_record | with_reducible apply kept_ringLeave | with_reducible apply kept_setRing | with_reducible apply Kept.each | with_reducible apply Kept.when | with_reducible apply Kept.fold | exact Eq.refl _ | decide | intro _ | (dsimp only) | split | fail_if_no_progress with_reducible apply Kept.upd)

theorem kept_superEnd {z s : State} (hk : Kept z s) : Kept z (superEnd s) := by
  unfold superEnd
  iterate 30 (try any_goals first | with_reducible assumption | with_reducible apply Kept.event | with_reducible apply Kept.put | with_reducible apply Kept.putB | with_reducible apply kept_record | with_reducible apply Kept.each | with_reducible apply Kept.when | with_reducible apply Kept.fold | exact Eq.refl _ | decide | intro _ | (dsimp only) | split | fail_if_no_progress with_reducible apply Kept.upd)

theorem kept_endSuper {z s : State} (hk : Kept z s) : Kept z (endSuper s) := by
  unfold endSuper
  iterate 30 (try any_goals first | with_reducible assumption | with_reducible apply kept_superEnd | with_reducible apply kept_takeEntry | with_reducible apply Kept.each | with_reducible apply Kept.when | with_reducible apply Kept.fold | exact Eq.refl _ | decide | intro _ | (dsimp only) | split | fail_if_no_progress with_reducible apply Kept.upd)

theorem kept_newSuper {z s : State} (last f : Nat) (hk : Kept z s) : Kept z (newSuper last f s) := by
  unfold newSuper
  iterate 30 (try any_goals first | with_reducible assumption | with_reducible apply kept_beginSuper | with_reducible apply kept_endSuper | with_reducible apply Kept.each | with_reducible apply Kept.when | with_reducible apply Kept.fold | exact Eq.refl _ | decide | intro _ | (dsimp only) | split | fail_if_no_progress with_reducible apply Kept.upd)

theorem kept_memberFrame {z s : State} (last : Nat) (h : List Nat) (slots : List (List Nat)) (hk : Kept z s) : Kept z (memberFrame last h slots s) := by
  unfold memberFrame
  iterate 30 (try any_goals first | with_reducible assumption | with_reducible apply kept_endSuper | with_reducible apply kept_newSuper | with_reducible apply kept_readSlots | with_reducible apply kept_sendRing | with_reducible apply kept_setRing | with_reducible apply Kept.each | with_reducible apply Kept.when | with_reducible apply Kept.fold | exact Eq.refl _ | decide | intro _ | (dsimp only) | split | fail_if_no_progress with_reducible apply Kept.upd)

theorem kept_ownFrame {z s : State} (f : Nat) (slots : List (List Nat)) (hk : Kept z s) : Kept z (ownFrame f slots s) := by
  unfold ownFrame
  iterate 30 (try any_goals first | with_reducible assumption | with_reducible apply kept_readSlots | with_reducible apply kept_setRing | with_reducible apply kept_superEnd | with_reducible apply Kept.each | with_reducible apply Kept.when | with_reducible apply Kept.fold | exact Eq.refl _ | decide | intro _ | (dsimp only) | split | fail_if_no_progress with_reducible apply Kept.upd)

theorem kept_rivalFrame {z s : State} (m : Nat) (r : Bool) (hk : Kept z s) : Kept z (rivalFrame m r s) := by
  unfold rivalFrame
  iterate 30 (try any_goals first | with_reducible assumption | with_reducible apply kept_setRing | with_reducible apply Kept.each | with_reducible apply Kept.when | with_reducible apply Kept.fold | exact Eq.refl _ | decide | intro _ | (dsimp only) | split | fail_if_no_progress with_reducible apply Kept.upd)

theorem kept_noteHeader {z s : State} (h : List Nat) (hk : Kept z s) : Kept z (noteHeader h s) := by
  unfold noteHeader
  iterate 30 (try any_goals first | with_reducible assumption | with_reducible apply Kept.put | with_reducible apply kept_setMasterId | with_reducible apply kept_setRing | with_reducible apply Kept.each | with_reducible apply Kept.when | with_reducible apply Kept.fold | exact Eq.refl _ | decide | intro _ | (dsimp only) | split | fail_if_no_progress with_reducible apply Kept.upd)

theorem kept_effRingFrame {z s : State} (header : List Nat) (slots : List (List Nat)) (hk : Kept z s) : Kept z (effRingFrame header slots s) := by
  unfold effRingFrame
  iterate 30 (try any_goals first | with_reducible assumption | with_reducible apply Kept.addSat | with_reducible apply kept_idConflict | with_reducible apply kept_memberFrame | with_reducible apply kept_noteHeader | with_reducible apply kept_ownFrame | with_reducible apply kept_rivalFrame | with_reducible apply kept_sendRing | with_reducible apply kept_setRing | with_reducible apply Kept.each | with_reducible apply Kept.when | with_reducible apply Kept.fold | exact Eq.refl _ | decide | intro _ | (dsimp only) | split | fail_if_no_progress with_reducible apply Kept.upd)

theorem kept_execRingFrame (header : List Nat) (slots : List (List Nat)) (s : State) : Ends s (execRingFrame header slots s) := by
  unfold execRingFrame
  refine ends_done ?_
  have hk := Kept.refl s
  iterate 30 (try any_goals first | with_reducible assumption | with_reducible apply kept_done | with_reducible apply kept_effRingFrame | with_reducible apply Kept.each | with_reducible apply Kept.when | with_reducible apply Kept.fold | exact Eq.refl _ | decide | intro _ | (dsimp only) | split | fail_if_no_progress with_reducible apply Kept.upd)

theorem kept_learn {z s : State} (first : Bool) (m : Nat) (hk : Kept z s) : Kept z (learn first m s) := by
  unfold learn
  iterate 30 (try any_goals first | with_reducible assumption | with_reducible apply kept_setKnown | with_reducible apply Kept.each | with_reducible apply Kept.when | with_reducible apply Kept.fold | exact Eq.refl _ | decide | intro _ | (dsimp only) | split | fail_if_no_progress with_reducible apply Kept.upd)

theorem kept_noteAssign {z s : State} (round : Nat) (e : Nat × Nat) (hk : Kept z s) : Kept z (noteAssign round e s) := by
  unfold noteAssign
  iterate 30 (try any_goals first | with_reducible assumption | with_reducible apply kept_setKnown | with_reducible apply Kept.each | with_reducible apply Kept.when | with_reducible apply Kept.fold | exact Eq.refl _ | decide | intro _ | (dsimp only) | split | fail_if_no_progress with_reducible apply Kept.upd)

theorem kept_effBalanceRound {z s : State} (hk : Kept z s) : Kept z (effBalanceRound s) := by
  unfold effBalanceRound
  iterate 30 (try any_goals first | with_reducible assumption | with_reducible apply Kept.event | with_reducible apply kept_learn | with_reducible apply kept_noteAssign | with_reducible apply Kept.putB | with_reducible apply kept_setRing | with_reducible apply kept_superEnd | with_reducible apply Kept.each | with_reducible apply Kept.when | with_reducible apply Kept.fold | exact Eq.refl _ | decide | intro _ | (dsimp only) | split | fail_if_no_progress with_reducible apply Kept.upd)

theorem kept_execBalanceRound (s : State) : Ends s (execBalanceRound s) := by
  unfold execBalanceRound
  refine ends_done ?_
  have hk := Kept.refl s
  iterate 30 (try any_goals first | with_reducible assumption | with_reducible apply kept_done | with_reducible apply kept_effBalanceRound | with_reducible apply Kept.each | with_reducible apply Kept.when | with_reducible apply Kept.fold | exact Eq.refl _ | decide | intro _ | (dsimp only) | split | fail_if_no_progress with_reducible apply Kept.upd)

theorem kept_copyDigest {z s : State} (fl : Flight) (hk : Kept z s) : Kept z (copyDigest fl s) := by
  unfold copyDigest
  iterate 30 (try any_goals first | with_reducible assumption | with_reducible apply kept_complete | with_reducible apply Kept.put | with_reducible apply Kept.each | with_reducible apply Kept.when | with_reducible apply Kept.fold | exact Eq.refl _ | decide | intro _ | (dsimp only) | split | fail_if_no_progress with_reducible apply Kept.upd)

theorem kept_effDigestRecompute {z s : State} (hk : Kept z s) : Kept z (effDigestRecompute s) := by
  unfold effDigestRecompute
  iterate 30 (try any_goals first | with_reducible assumption | with_reducible apply kept_copyDigest | with_reducible apply kept_setRing | with_reducible apply Kept.each | with_reducible apply Kept.when | with_reducible apply Kept.fold | exact Eq.refl _ | decide | intro _ | (dsimp only) | split | fail_if_no_progress with_reducible apply Kept.upd)

theorem kept_execDigestRecompute (s : State) : Ends s (execDigestRecompute s) := by
  unfold execDigestRecompute
  refine ends_done ?_
  have hk := Kept.refl s
  iterate 30 (try any_goals first | with_reducible assumption | with_reducible apply kept_done | with_reducible apply kept_effDigestRecompute | with_reducible apply Kept.each | with_reducible apply Kept.when | with_reducible apply Kept.fold | exact Eq.refl _ | decide | intro _ | (dsimp only) | split | fail_if_no_progress with_reducible apply Kept.upd)

theorem kept_execGetConfigDigest (port tag : Nat) (s : State) : Ends s (execGetConfigDigest port tag s) := by
  unfold execGetConfigDigest
  refine ends_done ?_
  have hk := Kept.refl s
  iterate 30 (try any_goals first | with_reducible assumption | with_reducible apply kept_command | with_reducible apply kept_copyDigest | with_reducible apply kept_done | with_reducible apply kept_markStarted | with_reducible apply Kept.each | with_reducible apply Kept.when | with_reducible apply Kept.fold | exact Eq.refl _ | decide | intro _ | (dsimp only) | split | fail_if_no_progress with_reducible apply Kept.upd)

theorem kept_execRingForget (port tag : Nat) (s : State) : Ends s (execRingForget port tag s) := by
  unfold execRingForget
  refine ends_done ?_
  have hk := Kept.refl s
  iterate 30 (try any_goals first | with_reducible assumption | with_reducible apply kept_command | with_reducible apply kept_complete | with_reducible apply kept_done | with_reducible apply kept_setKnown | with_reducible apply Kept.each | with_reducible apply Kept.when | with_reducible apply Kept.fold | exact Eq.refl _ | decide | intro _ | (dsimp only) | split | fail_if_no_progress with_reducible apply Kept.upd)

theorem kept_setReasons {z s : State} (d v : Nat) (hk : Kept z s) : Kept z (setReasons d v s) := by
  unfold setReasons
  iterate 30 (try any_goals first | with_reducible assumption | with_reducible apply Kept.put | with_reducible apply Kept.each | with_reducible apply Kept.when | with_reducible apply Kept.fold | exact Eq.refl _ | decide | intro _ | (dsimp only) | split | fail_if_no_progress with_reducible apply Kept.upd)

theorem kept_showReasons {z s : State} (d : Nat) (hk : Kept z s) : Kept z (showReasons d s) := by
  unfold showReasons
  iterate 30 (try any_goals first | with_reducible assumption | with_reducible apply kept_setReasons | with_reducible apply Kept.each | with_reducible apply Kept.when | with_reducible apply Kept.fold | exact Eq.refl _ | decide | intro _ | (dsimp only) | split | fail_if_no_progress with_reducible apply Kept.upd)

theorem kept_sendBudget {z s : State} (d cls : Nat) (hk : Kept z s) : Kept z (sendBudget d cls s) := by
  unfold sendBudget
  iterate 30 (try any_goals first | with_reducible assumption | with_reducible apply Kept.put | with_reducible apply kept_sendDown | with_reducible apply Kept.setCap | with_reducible apply Kept.each | with_reducible apply Kept.when | with_reducible apply Kept.fold | exact Eq.refl _ | decide | intro _ | (dsimp only) | split | fail_if_no_progress with_reducible apply Kept.upd)

theorem kept_refit {z s : State} (d : Nat) (hk : Kept z s) : Kept z (refit d s) := by
  unfold refit
  iterate 30 (try any_goals first | with_reducible assumption | with_reducible apply kept_sendBudget | with_reducible apply kept_showReasons | with_reducible apply Kept.each | with_reducible apply Kept.when | with_reducible apply Kept.fold | exact Eq.refl _ | decide | intro _ | (dsimp only) | split | fail_if_no_progress with_reducible apply Kept.upd)

theorem kept_refitRail {z s : State} (r : Nat) (hk : Kept z s) : Kept z (refitRail r s) := by
  unfold refitRail
  iterate 30 (try any_goals first | with_reducible assumption | with_reducible apply kept_refit | with_reducible apply Kept.each | with_reducible apply Kept.when | with_reducible apply Kept.fold | exact Eq.refl _ | decide | intro _ | (dsimp only) | split | fail_if_no_progress with_reducible apply Kept.upd)

theorem kept_sendSlews {z s : State} (d : Nat) (hk : Kept z s) : Kept z (sendSlews d s) := by
  unfold sendSlews
  iterate 30 (try any_goals first | with_reducible assumption | with_reducible apply kept_sendMsg | with_reducible apply Kept.setTok | with_reducible apply Kept.each | with_reducible apply Kept.when | with_reducible apply Kept.fold | exact Eq.refl _ | decide | intro _ | (dsimp only) | split | fail_if_no_progress with_reducible apply Kept.upd)

theorem kept_sendTokensWith {z s : State} (l : List Msg) (d : Nat) (hk : Kept z s) : Kept z (sendTokensWith l d s) := by
  unfold sendTokensWith
  iterate 30 (try any_goals first | with_reducible assumption | with_reducible apply kept_sendMsgs | with_reducible apply Kept.setTok | with_reducible apply Kept.each | with_reducible apply Kept.when | with_reducible apply Kept.fold | exact Eq.refl _ | decide | intro _ | (dsimp only) | split | fail_if_no_progress with_reducible apply Kept.upd)

theorem kept_sendTokens {z s : State} (d : Nat) (hk : Kept z s) : Kept z (sendTokens d s) := by
  unfold sendTokens
  iterate 30 (try any_goals first | with_reducible assumption | with_reducible apply kept_sendTokensWith | with_reducible apply Kept.each | with_reducible apply Kept.when | with_reducible apply Kept.fold | exact Eq.refl _ | decide | intro _ | (dsimp only) | split | fail_if_no_progress with_reducible apply Kept.upd)

theorem kept_sendHeld {z s : State} (d : Nat) (hk : Kept z s) : Kept z (sendHeld d s) := by
  unfold sendHeld
  iterate 30 (try any_goals first | with_reducible assumption | with_reducible apply kept_sendTokensWith | with_reducible apply Kept.each | with_reducible apply Kept.when | with_reducible apply Kept.fold | exact Eq.refl _ | decide | intro _ | (dsimp only) | split | fail_if_no_progress with_reducible apply Kept.upd)

theorem kept_resendTokens {z s : State} (hk : Kept z s) : Kept z (resendTokens s) := by
  unfold resendTokens
  iterate 30 (try any_goals first | with_reducible assumption | with_reducible apply kept_sendTokens | with_reducible apply Kept.each | with_reducible apply Kept.when | with_reducible apply Kept.fold | exact Eq.refl _ | decide | intro _ | (dsimp only) | split | fail_if_no_progress with_reducible apply Kept.upd)

theorem kept_refreshIin {z s : State} (hk : Kept z s) : Kept z (refreshIin s) := by
  unfold refreshIin
  iterate 30 (try any_goals first | with_reducible assumption | with_reducible apply Kept.event | with_reducible apply Kept.put | with_reducible apply Kept.each | with_reducible apply Kept.when | with_reducible apply Kept.fold | exact Eq.refl _ | decide | intro _ | (dsimp only) | split | fail_if_no_progress with_reducible apply Kept.upd)

theorem kept_setClk {z s : State} (v : ClockH) (hk : Kept z s) : Kept z (setClk v s) := by
  unfold setClk
  iterate 30 (try any_goals first | with_reducible assumption | with_reducible apply Kept.each | with_reducible apply Kept.when | with_reducible apply Kept.fold | exact Eq.refl _ | decide | intro _ | (dsimp only) | split | fail_if_no_progress with_reducible apply Kept.upd)

theorem kept_goClock {z s : State} (c : Nat) (hk : Kept z s) : Kept z (goClock c s) := by
  unfold goClock
  iterate 30 (try any_goals first | with_reducible assumption | with_reducible apply Kept.put | with_reducible apply Kept.putB | with_reducible apply kept_resendTokens | with_reducible apply Kept.each | with_reducible apply Kept.when | with_reducible apply Kept.fold | exact Eq.refl _ | decide | intro _ | (dsimp only) | split | fail_if_no_progress with_reducible apply Kept.upd)

theorem kept_halveEdges {z s : State} (hk : Kept z s) : Kept z (halveEdges s) := by
  unfold halveEdges
  iterate 30 (try any_goals first | with_reducible assumption | with_reducible apply kept_emit | with_reducible apply kept_setClk | with_reducible apply Kept.setPhase | with_reducible apply Kept.each | with_reducible apply Kept.when | with_reducible apply Kept.fold | exact Eq.refl _ | decide | intro _ | (dsimp only) | split | fail_if_no_progress with_reducible apply Kept.upd)

theorem kept_enterCoast {z s : State} (atOnce : Bool) (hk : Kept z s) : Kept z (enterCoast atOnce s) := by
  unfold enterCoast
  iterate 30 (try any_goals first | with_reducible assumption | with_reducible apply kept_goClock | with_reducible apply kept_halveEdges | with_reducible apply Kept.put | with_reducible apply kept_record | with_reducible apply kept_ringLeave | with_reducible apply kept_setClk | with_reducible apply Kept.each | with_reducible apply Kept.when | with_reducible apply Kept.fold | exact Eq.refl _ | decide | intro _ | (dsimp only) | split | fail_if_no_progress with_reducible apply Kept.upd)

theorem kept_enterLocked {z s : State} (hk : Kept z s) : Kept z (enterLocked s) := by
  unfold enterLocked
  iterate 30 (try any_goals first | with_reducible assumption | with_reducible apply kept_goClock | with_reducible apply Kept.put | with_reducible apply kept_record | with_reducible apply kept_ringListen | with_reducible apply kept_setClk | with_reducible apply Kept.each | with_reducible apply Kept.when | with_reducible apply Kept.fold | exact Eq.refl _ | decide | intro _ | (dsimp only) | split | fail_if_no_progress with_reducible apply Kept.upd)

theorem kept_startFailed {z s : State} (hk : Kept z s) : Kept z (startFailed s) := by
  unfold startFailed
  iterate 30 (try any_goals first | with_reducible assumption | with_reducible apply kept_enterCoast | with_reducible apply Kept.put | with_reducible apply kept_setClk | with_reducible apply Kept.each | with_reducible apply Kept.when | with_reducible apply Kept.fold | exact Eq.refl _ | decide | intro _ | (dsimp only) | split | fail_if_no_progress with_reducible apply Kept.upd)

theorem kept_calibrate {z s : State} (edges : Nat) (hk : Kept z s) : Kept z (calibrate edges s) := by
  unfold calibrate
  iterate 30 (try any_goals first | with_reducible assumption | with_reducible apply Kept.put | with_reducible apply Kept.each | with_reducible apply Kept.when | with_reducible apply Kept.fold | exact Eq.refl _ | decide | intro _ | (dsimp only) | split | fail_if_no_progress with_reducible apply Kept.upd)

theorem kept_effJudgeWindow {z s : State} (count tclk : Nat) (hk : Kept z s) : Kept z (effJudgeWindow count tclk s) := by
  unfold effJudgeWindow
  iterate 30 (try any_goals first | with_reducible assumption | with_reducible apply kept_calibrate | with_reducible apply kept_goClock | with_reducible apply Kept.put | with_reducible apply kept_setClk | with_reducible apply Kept.each | with_reducible apply Kept.when | with_reducible apply Kept.fold | exact Eq.refl _ | decide | intro _ | (dsimp only) | split | fail_if_no_progress with_reducible apply Kept.upd)

theorem kept_execJudgeWindow (window : WindowCounts) (s : State) : Ends s (execJudgeWindow window s) := by
  unfold execJudgeWindow
  refine ends_done ?_
  have hk := Kept.refl s
  iterate 30 (try any_goals first | with_reducible assumption | with_reducible apply kept_done | with_reducible apply kept_effJudgeWindow | with_reducible apply Kept.each | with_reducible apply Kept.when | with_reducible apply Kept.fold | exact Eq.refl _ | decide | intro _ | (dsimp only) | split | fail_if_no_progress with_reducible apply Kept.upd)

theorem kept_declareLost {z s : State} (hk : Kept z s) : Kept z (declareLost s) := by
  unfold declareLost
  iterate 30 (try any_goals first | with_reducible assumption | with_reducible apply Kept.put | with_reducible apply kept_record | with_reducible apply kept_setClk | with_reducible apply Kept.each | with_reducible apply Kept.when | with_reducible apply Kept.fold | exact Eq.refl _ | decide | intro _ | (dsimp only) | split | fail_if_no_progress with_reducible apply Kept.upd)

theorem kept_effLockMonitorWindow {z s : State} (count : Nat) (hk : Kept z s) : Kept z (effLockMonitorWindow count s) := by
  unfold effLockMonitorWindow
  iterate 30 (try any_goals first | with_reducible assumption | with_reducible apply kept_declareLost | with_reducible apply kept_enterLocked | with_reducible apply kept_setClk | with_reducible apply Kept.each | with_reducible apply Kept.when | with_reducible apply Kept.fold | exact Eq.refl _ | decide | intro _ | (dsimp only) | split | fail_if_no_progress with_reducible apply Kept.upd)

theorem kept_execLockMonitorWindow (count : Nat) (s : State) : Ends s (execLockMonitorWindow count s) := by
  unfold execLockMonitorWindow
  refine ends_done ?_
  have hk := Kept.refl s
  iterate 30 (try any_goals first | with_reducible assumption | with_reducible apply kept_done | with_reducible apply kept_effLockMonitorWindow | with_reducible apply Kept.each | with_reducible apply Kept.when | with_reducible apply Kept.fold | exact Eq.refl _ | decide | intro _ | (dsimp only) | split | fail_if_no_progress with_reducible apply Kept.upd)

theorem kept_effLockRetry {z s : State} (hk : Kept z s) : Kept z (effLockRetry s) := by
  unfold effLockRetry
  iterate 30 (try any_goals first | with_reducible assumption | with_reducible apply kept_goClock | with_reducible apply Kept.put | with_reducible apply kept_setClk | with_reducible apply kept_startFailed | with_reducible apply Kept.each | with_reducible apply Kept.when | with_reducible apply Kept.fold | exact Eq.refl _ | decide | intro _ | (dsimp only) | split | fail_if_no_progress with_reducible apply Kept.upd)

theorem kept_execLockRetry (s : State) : Ends s (execLockRetry s) := by
  unfold execLockRetry
  refine ends_done ?_
  have hk := Kept.refl s
  iterate 30 (try any_goals first | with_reducible assumption | with_reducible apply kept_done | with_reducible apply kept_effLockRetry | with_reducible apply Kept.each | with_reducible apply Kept.when | with_reducible apply Kept.fold | exact Eq.refl _ | decide | intro _ | (dsimp only) | split | fail_if_no_progress with_reducible apply Kept.upd)

theorem kept_effBootClockTimeout {z s : State} (hk : Kept z s) : Kept z (effBootClockTimeout s) := by
  unfold effBootClockTimeout
  iterate 30 (try any_goals first | with_reducible assumption | with_reducible apply kept_setClk | with_reducible apply kept_startFailed | with_reducible apply Kept.each | with_reducible apply Kept.when | with_reducible apply Kept.fold | exact Eq.refl _ | decide | intro _ | (dsimp only) | split | fail_if_no_progress with_reducible apply Kept.upd)

theorem kept_execBootClockTimeout (s : State) : Ends s (execBootClockTimeout s) := by
  unfold execBootClockTimeout
  refine ends_done ?_
  have hk := Kept.refl s
  iterate 30 (try any_goals first | with_reducible assumption | with_reducible apply kept_done | with_reducible apply kept_effBootClockTimeout | with_reducible apply Kept.each | with_reducible apply Kept.when | with_reducible apply Kept.fold | exact Eq.refl _ | decide | intro _ | (dsimp only) | split | fail_if_no_progress with_reducible apply Kept.upd)

theorem kept_execRefLost (s : State) : Ends s (execRefLost s) := by
  unfold execRefLost
  refine ends_done ?_
  have hk := Kept.refl s
  iterate 30 (try any_goals first | with_reducible assumption | with_reducible apply kept_declareLost | with_reducible apply kept_done | with_reducible apply Kept.each | with_reducible apply Kept.when | with_reducible apply Kept.fold | exact Eq.refl _ | decide | intro _ | (dsimp only) | split | fail_if_no_progress with_reducible apply Kept.upd)

theorem kept_execCoastEnter (s : State) : Ends s (execCoastEnter s) := by
  unfold execCoastEnter
  refine ends_done ?_
  have hk := Kept.refl s
  iterate 30 (try any_goals first | with_reducible assumption | with_reducible apply kept_done | with_reducible apply kept_enterCoast | with_reducible apply Kept.each | with_reducible apply Kept.when | with_reducible apply Kept.fold | exact Eq.refl _ | decide | intro _ | (dsimp only) | split | fail_if_no_progress with_reducible apply Kept.upd)

theorem kept_execRelockStart (s : State) : Ends s (execRelockStart s) := by
  unfold execRelockStart
  refine ends_done ?_
  have hk := Kept.refl s
  iterate 30 (try any_goals first | with_reducible assumption | with_reducible apply kept_done | with_reducible apply kept_goClock | with_reducible apply kept_setClk | with_reducible apply Kept.each | with_reducible apply Kept.when | with_reducible apply Kept.fold | exact Eq.refl _ | decide | intro _ | (dsimp only) | split | fail_if_no_progress with_reducible apply Kept.upd)

theorem kept_effRelockTimeout {z s : State} (hk : Kept z s) : Kept z (effRelockTimeout s) := by
  unfold effRelockTimeout
  iterate 30 (try any_goals first | with_reducible assumption | with_reducible apply kept_enterCoast | with_reducible apply Kept.put | with_reducible apply kept_setClk | with_reducible apply Kept.each | with_reducible apply Kept.when | with_reducible apply Kept.fold | exact Eq.refl _ | decide | intro _ | (dsimp only) | split | fail_if_no_progress with_reducible apply Kept.upd)

theorem kept_execRelockTimeout (s : State) : Ends s (execRelockTimeout s) := by
  unfold execRelockTimeout
  refine ends_done ?_
  have hk := Kept.refl s
  iterate 30 (try any_goals first | with_reducible assumption | with_reducible apply kept_done | with_reducible apply kept_effRelockTimeout | with_reducible apply Kept.each | with_reducible apply Kept.when | with_reducible apply Kept.fold | exact Eq.refl _ | decide | intro _ | (dsimp only) | split | fail_if_no_progress with_reducible apply Kept.upd)

theorem kept_showEmpty {z s : State} (d : Nat) (hk : Kept z s) : Kept z (showEmpty d s) := by
  unfold showEmpty
  iterate 30 (try any_goals first | with_reducible assumption | with_reducible apply Kept.putB | with_reducible apply Kept.each | with_reducible apply Kept.when | with_reducible apply Kept.fold | exact Eq.refl _ | decide | intro _ | (dsimp only) | split | fail_if_no_progress with_reducible apply Kept.upd)

theorem kept_endForced {z s : State} (d lengthNs : Nat) (hk : Kept z s) : Kept z (endForced d lengthNs s) := by
  unfold endForced
  iterate 30 (try any_goals first | with_reducible assumption | with_reducible apply kept_completeAt | with_reducible apply Kept.setItn | with_reducible apply Kept.each | with_reducible apply Kept.when | with_reducible apply Kept.fold | exact Eq.refl _ | decide | intro _ | (dsimp only) | split | fail_if_no_progress with_reducible apply Kept.upd)

theorem kept_dropForced {z s : State} (d : Nat) (hk : Kept z s) : Kept z (dropForced d s) := by
  unfold dropForced
  iterate 30 (try any_goals first | with_reducible assumption | with_reducible apply kept_completeAt | with_reducible apply kept_endForced | with_reducible apply Kept.setItn | with_reducible apply Kept.each | with_reducible apply Kept.when | with_reducible apply Kept.fold | exact Eq.refl _ | decide | intro _ | (dsimp only) | split | fail_if_no_progress with_reducible apply Kept.upd)

theorem kept_resetReached {z s : State} (d : Nat) (hk : Kept z s) : Kept z (resetReached d s) := by
  unfold resetReached
  iterate 30 (try any_goals first | with_reducible assumption | with_reducible apply kept_completeAt | with_reducible apply kept_keepResult | with_reducible apply Kept.each | with_reducible apply Kept.when | with_reducible apply Kept.fold | exact Eq.refl _ | decide | intro _ | (dsimp only) | split | fail_if_no_progress with_reducible apply Kept.upd)

theorem kept_endCut {z s : State} (d : Nat) (hk : Kept z s) : Kept z (endCut d s) := by
  unfold endCut
  iterate 30 (try any_goals first | with_reducible assumption | with_reducible apply kept_agentPut | with_reducible apply kept_emit | with_reducible apply kept_endForced | with_reducible apply kept_heard | with_reducible apply kept_sendUp | with_reducible apply Kept.setItn | with_reducible apply kept_showReasons | with_reducible apply Kept.each | with_reducible apply Kept.when | with_reducible apply Kept.fold | exact Eq.refl _ | decide | intro _ | (dsimp only) | split | fail_if_no_progress with_reducible apply Kept.upd)

theorem kept_retargetCore {z s : State} (d : Nat) (hk : Kept z s) : Kept z (retargetCore d s) := by
  unfold retargetCore
  iterate 30 (try any_goals first | with_reducible assumption | with_reducible apply Kept.put | with_reducible apply Kept.each | with_reducible apply Kept.when | with_reducible apply Kept.fold | exact Eq.refl _ | decide | intro _ | (dsimp only) | split | fail_if_no_progress with_reducible apply Kept.upd)

theorem kept_setLinkPair {z s : State} (p : Pair) (hk : Kept z s) : Kept z (setLinkPair p s) := by
  unfold setLinkPair
  iterate 30 (try any_goals first | with_reducible assumption | with_reducible apply Kept.put | with_reducible apply Kept.putI | with_reducible apply Kept.each | with_reducible apply Kept.when | with_reducible apply Kept.fold | exact Eq.refl _ | decide | intro _ | (dsimp only) | split | fail_if_no_progress with_reducible apply Kept.upd)

theorem kept_restLinkPair {z s : State} (hk : Kept z s) : Kept z (restLinkPair s) := by
  unfold restLinkPair
  iterate 30 (try any_goals first | with_reducible assumption | with_reducible apply kept_setLinkPair | with_reducible apply Kept.each | with_reducible apply Kept.when | with_reducible apply Kept.fold | exact Eq.refl _ | decide | intro _ | (dsimp only) | split | fail_if_no_progress with_reducible apply Kept.upd)

theorem kept_dieCleared {z s : State} (d : Nat) (hk : Kept z s) : Kept z (dieCleared d s) := by
  unfold dieCleared
  iterate 30 (try any_goals first | with_reducible assumption | with_reducible apply Kept.clearDieRegs | with_reducible apply kept_dropForced | with_reducible apply kept_emit | with_reducible apply kept_endCut | with_reducible apply kept_leaveLost | (with_reducible apply Kept.put) | with_reducible apply kept_recovDieReset | with_reducible apply kept_resetReached | with_reducible apply kept_restLinkPair | with_reducible apply kept_retargetCore | with_reducible apply kept_ringStale | (with_reducible apply Kept.setCap) | with_reducible apply Kept.setEst | with_reducible apply Kept.setItn | with_reducible apply kept_setTherm | with_reducible apply Kept.setTok | with_reducible apply Kept.each | (with_reducible apply Kept.when) | with_reducible apply Kept.fold | exact Eq.refl _ | decide | intro _ | (dsimp only) | split | fail_if_no_progress with_reducible apply Kept.upd)

theorem kept_clearAcc {z s : State} (hk : Kept z s) : Kept z (clearAcc s) := by
  unfold clearAcc
  iterate 30 (try any_goals first | with_reducible assumption | with_reducible apply Kept.clearClass | with_reducible apply kept_recovAccReset | with_reducible apply kept_restLinkPair | with_reducible apply Kept.each | with_reducible apply Kept.when | with_reducible apply Kept.fold | exact Eq.refl _ | decide | intro _ | (dsimp only) | split | fail_if_no_progress with_reducible apply Kept.upd)

theorem kept_accCleared {z s : State} (hk : Kept z s) : Kept z (accCleared s) := by
  unfold accCleared
  iterate 30 (try any_goals first | with_reducible assumption | with_reducible apply kept_clearAcc | with_reducible apply kept_dieCleared | with_reducible apply Kept.each | with_reducible apply Kept.when | with_reducible apply Kept.fold | exact Eq.refl _ | decide | intro _ | (dsimp only) | split | fail_if_no_progress with_reducible apply Kept.upd)

theorem kept_restartLink {z s : State} (d : Nat) (hk : Kept z s) : Kept z (restartLink d s) := by
  unfold restartLink
  iterate 30 (try any_goals first | with_reducible assumption | with_reducible apply Kept.setLink | with_reducible apply Kept.each | with_reducible apply Kept.when | with_reducible apply Kept.fold | exact Eq.refl _ | decide | intro _ | (dsimp only) | split | fail_if_no_progress with_reducible apply Kept.upd)

theorem kept_recordRail {z s : State} (code r arg : Nat) (hk : Kept z s) : Kept z (recordRail code r arg s) := by
  unfold recordRail
  iterate 30 (try any_goals first | with_reducible assumption | with_reducible apply kept_record | with_reducible apply kept_recordDie | with_reducible apply Kept.each | with_reducible apply Kept.when | with_reducible apply Kept.fold | exact Eq.refl _ | decide | intro _ | (dsimp only) | split | fail_if_no_progress with_reducible apply Kept.upd)

theorem kept_setPh {z s : State} (n c : Nat) (hk : Kept z s) : Kept z (setPh n c s) := by
  unfold setPh
  iterate 30 (try any_goals first | with_reducible assumption | with_reducible apply Kept.put | with_reducible apply Kept.each | with_reducible apply Kept.when | with_reducible apply Kept.fold | exact Eq.refl _ | decide | intro _ | (dsimp only) | split | fail_if_no_progress with_reducible apply Kept.upd)

theorem kept_unpower {z s : State} (d : Nat) (hk : Kept z s) : Kept z (unpower d s) := by
  unfold unpower
  iterate 30 (try any_goals first | with_reducible assumption | with_reducible apply Kept.setEst | with_reducible apply Kept.setLink | with_reducible apply Kept.each | with_reducible apply Kept.when | with_reducible apply Kept.fold | exact Eq.refl _ | decide | intro _ | (dsimp only) | split | fail_if_no_progress with_reducible apply Kept.upd)

theorem kept_stopTest {z s : State} (r : Nat) (hk : Kept z s) : Kept z (stopTest r s) := by
  unfold stopTest
  iterate 30 (try any_goals first | with_reducible assumption | with_reducible apply Kept.each | with_reducible apply Kept.when | with_reducible apply Kept.fold | exact Eq.refl _ | decide | intro _ | (dsimp only) | split | fail_if_no_progress with_reducible apply Kept.upd)

theorem kept_railOff {z s : State} (r : Nat) (hk : Kept z s) : Kept z (railOff r s) := by
  unfold railOff
  iterate 30 (try any_goals first | with_reducible assumption | with_reducible apply kept_endCut | with_reducible apply Kept.put | with_reducible apply kept_refitRail | with_reducible apply kept_setPh | with_reducible apply Kept.setPhase | with_reducible apply Kept.setRail | with_reducible apply kept_stopTest | with_reducible apply kept_unpower | with_reducible apply Kept.each | with_reducible apply Kept.when | with_reducible apply Kept.fold | exact Eq.refl _ | decide | intro _ | (dsimp only) | split | fail_if_no_progress with_reducible apply Kept.upd)

theorem kept_holdDie {z s : State} (r : Nat) (hk : Kept z s) : Kept z (holdDie r s) := by
  unfold holdDie
  iterate 30 (try any_goals first | with_reducible assumption | with_reducible apply kept_dieCleared | with_reducible apply kept_railOff | with_reducible apply Kept.each | with_reducible apply Kept.when | with_reducible apply Kept.fold | exact Eq.refl _ | decide | intro _ | (dsimp only) | split | fail_if_no_progress with_reducible apply Kept.upd)

theorem kept_lostCheck {z s : State} (r : Nat) (hk : Kept z s) : Kept z (lostCheck r s) := by
  unfold lostCheck
  iterate 30 (try any_goals first | with_reducible assumption | with_reducible apply Kept.event | with_reducible apply kept_faultOn | with_reducible apply kept_holdDie | with_reducible apply Kept.put | with_reducible apply kept_recordRail | with_reducible apply kept_refitRail | with_reducible apply Kept.each | with_reducible apply Kept.when | with_reducible apply Kept.fold | exact Eq.refl _ | decide | intro _ | (dsimp only) | split | fail_if_no_progress with_reducible apply Kept.upd)

theorem kept_withhold {z s : State} (n : Nat) (hk : Kept z s) : Kept z (withhold n s) := by
  unfold withhold
  iterate 30 (try any_goals first | with_reducible assumption | with_reducible apply kept_lostCheck | with_reducible apply kept_refitRail | with_reducible apply Kept.setPhase | with_reducible apply Kept.each | with_reducible apply Kept.when | with_reducible apply Kept.fold | exact Eq.refl _ | decide | intro _ | (dsimp only) | split | fail_if_no_progress with_reducible apply Kept.upd)

theorem kept_failPhase {z s : State} (n cause : Nat) (hk : Kept z s) : Kept z (failPhase n cause s) := by
  unfold failPhase
  iterate 30 (try any_goals first | with_reducible assumption | with_reducible apply kept_countHealth | with_reducible apply Kept.event | with_reducible apply Kept.put | with_reducible apply kept_recordRail | with_reducible apply kept_setPh | with_reducible apply Kept.setPhase | with_reducible apply kept_withhold | with_reducible apply Kept.each | with_reducible apply Kept.when | with_reducible apply Kept.fold | exact Eq.refl _ | decide | intro _ | (dsimp only) | split | fail_if_no_progress with_reducible apply Kept.upd)

theorem kept_enterSoft {z s : State} (n frac : Nat) (hk : Kept z s) : Kept z (enterSoft n frac s) := by
  unfold enterSoft
  iterate 30 (try any_goals first | with_reducible assumption | with_reducible apply Kept.put | with_reducible apply kept_setPh | with_reducible apply Kept.setPhase | with_reducible apply Kept.each | with_reducible apply Kept.when | with_reducible apply Kept.fold | exact Eq.refl _ | decide | intro _ | (dsimp only) | split | fail_if_no_progress with_reducible apply Kept.upd)

theorem kept_railEnable {z s : State} (r : Nat) (hk : Kept z s) : Kept z (railEnable r s) := by
  unfold railEnable
  iterate 30 (try any_goals first | with_reducible assumption | with_reducible apply kept_enterSoft | with_reducible apply kept_lostCheck | with_reducible apply Kept.put | with_reducible apply kept_refitRail | with_reducible apply Kept.setPhase | with_reducible apply Kept.setRail | with_reducible apply Kept.each | with_reducible apply Kept.when | with_reducible apply Kept.fold | exact Eq.refl _ | decide | intro _ | (dsimp only) | split | fail_if_no_progress with_reducible apply Kept.upd)

theorem kept_effHiccupEnter {z s : State} (n : Nat) (hk : Kept z s) : Kept z (effHiccupEnter n s) := by
  unfold effHiccupEnter
  iterate 30 (try any_goals first | with_reducible assumption | with_reducible apply Kept.addSat | with_reducible apply kept_countHealth | with_reducible apply Kept.event | with_reducible apply kept_failPhase | with_reducible apply kept_recordRail | with_reducible apply kept_setPh | with_reducible apply Kept.setPhase | with_reducible apply kept_withhold | with_reducible apply Kept.each | with_reducible apply Kept.when | with_reducible apply Kept.fold | exact Eq.refl _ | decide | intro _ | (dsimp only) | split | fail_if_no_progress with_reducible apply Kept.upd)

theorem kept_execHiccupEnter (phase : Nat) (s : State) : Ends s (execHiccupEnter phase s) := by
  unfold execHiccupEnter
  refine ends_done ?_
  have hk := Kept.refl s
  iterate 30 (try any_goals first | with_reducible assumption | with_reducible apply kept_done | with_reducible apply kept_effHiccupEnter | with_reducible apply Kept.each | with_reducible apply Kept.when | with_reducible apply Kept.fold | exact Eq.refl _ | decide | intro _ | (dsimp only) | split | fail_if_no_progress with_reducible apply Kept.upd)

theorem kept_execHiccupEnd (phase : Nat) (s : State) : Ends s (execHiccupEnd phase s) := by
  unfold execHiccupEnd
  refine ends_done ?_
  have hk := Kept.refl s
  iterate 30 (try any_goals first | with_reducible assumption | with_reducible apply Kept.addSat | with_reducible apply kept_done | with_reducible apply kept_enterSoft | with_reducible apply Kept.each | with_reducible apply Kept.when | with_reducible apply Kept.fold | exact Eq.refl _ | decide | intro _ | (dsimp only) | split | fail_if_no_progress with_reducible apply Kept.upd)

theorem kept_execHiccupRunClear (phase : Nat) (s : State) : Ends s (execHiccupRunClear phase s) := by
  unfold execHiccupRunClear
  refine ends_done ?_
  have hk := Kept.refl s
  iterate 30 (try any_goals first | with_reducible assumption | with_reducible apply kept_done | with_reducible apply Kept.put | with_reducible apply Kept.each | with_reducible apply Kept.when | with_reducible apply Kept.fold | exact Eq.refl _ | decide | intro _ | (dsimp only) | split | fail_if_no_progress with_reducible apply Kept.upd)

theorem kept_effPhaseRampEnd {z s : State} (n : Nat) (hk : Kept z s) : Kept z (effPhaseRampEnd n s) := by
  unfold effPhaseRampEnd
  iterate 30 (try any_goals first | with_reducible assumption | with_reducible apply kept_refitRail | with_reducible apply kept_setPh | with_reducible apply Kept.setPhase | with_reducible apply Kept.setRail | with_reducible apply Kept.each | with_reducible apply Kept.when | with_reducible apply Kept.fold | exact Eq.refl _ | decide | intro _ | (dsimp only) | split | fail_if_no_progress with_reducible apply Kept.upd)

theorem kept_execPhaseRampEnd (phase : Nat) (s : State) : Ends s (execPhaseRampEnd phase s) := by
  unfold execPhaseRampEnd
  refine ends_done ?_
  have hk := Kept.refl s
  iterate 30 (try any_goals first | with_reducible assumption | with_reducible apply kept_done | with_reducible apply kept_effPhaseRampEnd | with_reducible apply Kept.each | with_reducible apply Kept.when | with_reducible apply Kept.fold | exact Eq.refl _ | decide | intro _ | (dsimp only) | split | fail_if_no_progress with_reducible apply Kept.upd)

theorem kept_noteSkim {z s : State} (r : Nat) (hk : Kept z s) : Kept z (noteSkim r s) := by
  unfold noteSkim
  iterate 30 (try any_goals first | with_reducible assumption | with_reducible apply Kept.setRail | with_reducible apply Kept.each | with_reducible apply Kept.when | with_reducible apply Kept.fold | exact Eq.refl _ | decide | intro _ | (dsimp only) | split | fail_if_no_progress with_reducible apply Kept.upd)

theorem kept_startShed {z s : State} (n : Nat) (hk : Kept z s) : Kept z (startShed n s) := by
  unfold startShed
  iterate 30 (try any_goals first | with_reducible assumption | with_reducible apply kept_setPh | with_reducible apply Kept.setPhase | with_reducible apply Kept.each | with_reducible apply Kept.when | with_reducible apply Kept.fold | exact Eq.refl _ | decide | intro _ | (dsimp only) | split | fail_if_no_progress with_reducible apply Kept.upd)

theorem kept_execShedPhase (rail : Nat) (s : State) : Ends s (execShedPhase rail s) := by
  unfold execShedPhase
  refine ends_done ?_
  have hk := Kept.refl s
  iterate 30 (try any_goals first | with_reducible assumption | with_reducible apply kept_done | with_reducible apply kept_startShed | with_reducible apply Kept.each | with_reducible apply Kept.when | with_reducible apply Kept.fold | exact Eq.refl _ | decide | intro _ | (dsimp only) | split | fail_if_no_progress with_reducible apply Kept.upd)

theorem kept_endBrake {z s : State} (k r : Nat) (hk : Kept z s) : Kept z (endBrake k r s) := by
  unfold endBrake
  iterate 30 (try any_goals first | with_reducible assumption | with_reducible apply Kept.put | with_reducible apply Kept.setRail | with_reducible apply Kept.each | with_reducible apply Kept.when | with_reducible apply Kept.fold | exact Eq.refl _ | decide | intro _ | (dsimp only) | split | fail_if_no_progress with_reducible apply Kept.upd)

theorem kept_unshedPhase {z s : State} (k n : Nat) (hk : Kept z s) : Kept z (unshedPhase k n s) := by
  unfold unshedPhase
  iterate 30 (try any_goals first | with_reducible assumption | with_reducible apply kept_endBrake | with_reducible apply kept_enterSoft | with_reducible apply Kept.event | with_reducible apply kept_setPh | with_reducible apply Kept.setPhase | with_reducible apply Kept.each | with_reducible apply Kept.when | with_reducible apply Kept.fold | exact Eq.refl _ | decide | intro _ | (dsimp only) | split | fail_if_no_progress with_reducible apply Kept.upd)

theorem kept_unshedAll {z s : State} (k r : Nat) (hk : Kept z s) : Kept z (unshedAll k r s) := by
  unfold unshedAll
  iterate 30 (try any_goals first | with_reducible assumption | with_reducible apply kept_unshedPhase | with_reducible apply Kept.each | with_reducible apply Kept.when | with_reducible apply Kept.fold | exact Eq.refl _ | decide | intro _ | (dsimp only) | split | fail_if_no_progress with_reducible apply Kept.upd)

theorem kept_unshedTo {z s : State} (r n : Nat) (hk : Kept z s) : Kept z (unshedTo r n s) := by
  unfold unshedTo
  iterate 30 (try any_goals first | with_reducible assumption | with_reducible apply kept_unshedPhase | with_reducible apply Kept.each | with_reducible apply Kept.when | with_reducible apply Kept.fold | exact Eq.refl _ | decide | intro _ | (dsimp only) | split | fail_if_no_progress with_reducible apply Kept.upd)

theorem kept_execBrakeTimeout (rail : Nat) (s : State) : Ends s (execBrakeTimeout rail s) := by
  unfold execBrakeTimeout
  refine ends_done ?_
  have hk := Kept.refl s
  iterate 30 (try any_goals first | with_reducible assumption | with_reducible apply kept_done | with_reducible apply kept_endBrake | with_reducible apply Kept.each | with_reducible apply Kept.when | with_reducible apply Kept.fold | exact Eq.refl _ | decide | intro _ | (dsimp only) | split | fail_if_no_progress with_reducible apply Kept.upd)

theorem kept_execOpenPhase (phase : Nat) (s : State) : Ends s (execOpenPhase phase s) := by
  unfold execOpenPhase
  refine ends_done ?_
  have hk := Kept.refl s
  iterate 30 (try any_goals first | with_reducible assumption | with_reducible apply kept_done | with_reducible apply kept_failPhase | with_reducible apply Kept.each | with_reducible apply Kept.when | with_reducible apply Kept.fold | exact Eq.refl _ | decide | intro _ | (dsimp only) | split | fail_if_no_progress with_reducible apply Kept.upd)

theorem kept_execSenseFailure (phase : Nat) (s : State) : Ends s (execSenseFailure phase s) := by
  unfold execSenseFailure
  refine ends_done ?_
  have hk := Kept.refl s
  iterate 30 (try any_goals first | with_reducible assumption | with_reducible apply kept_done | with_reducible apply kept_failPhase | with_reducible apply Kept.each | with_reducible apply Kept.when | with_reducible apply Kept.fold | exact Eq.refl _ | decide | intro _ | (dsimp only) | split | fail_if_no_progress with_reducible apply Kept.upd)

theorem kept_spoilRail {z s : State} (r : Nat) (hk : Kept z s) : Kept z (spoilRail r s) := by
  unfold spoilRail
  iterate 30 (try any_goals first | with_reducible assumption | with_reducible apply Kept.setEst | with_reducible apply Kept.each | with_reducible apply Kept.when | with_reducible apply Kept.fold | exact Eq.refl _ | decide | intro _ | (dsimp only) | split | fail_if_no_progress with_reducible apply Kept.upd)

theorem kept_badFrame {z s : State} (stage lane : Nat) (hk : Kept z s) : Kept z (badFrame stage lane s) := by
  unfold badFrame
  iterate 30 (try any_goals first | with_reducible assumption | with_reducible apply Kept.addSat | with_reducible apply Kept.event | with_reducible apply Kept.put | with_reducible apply Kept.setLane | with_reducible apply kept_spoilRail | with_reducible apply Kept.each | with_reducible apply Kept.when | with_reducible apply Kept.fold | exact Eq.refl _ | decide | intro _ | (dsimp only) | split | fail_if_no_progress with_reducible apply Kept.upd)

theorem kept_takeFrame {z s : State} (stage lane w : Nat) (hk : Kept z s) : Kept z (takeFrame stage lane w s) := by
  unfold takeFrame
  iterate 30 (try any_goals first | with_reducible assumption | with_reducible apply Kept.putI | with_reducible apply Kept.setLane | with_reducible apply Kept.setPhase | with_reducible apply Kept.each | with_reducible apply Kept.when | with_reducible apply Kept.fold | exact Eq.refl _ | decide | intro _ | (dsimp only) | split | fail_if_no_progress with_reducible apply Kept.upd)

theorem kept_effTlmFrame {z s : State} (stage lane w : Nat) (hk : Kept z s) : Kept z (effTlmFrame stage lane w s) := by
  unfold effTlmFrame
  iterate 30 (try any_goals first | with_reducible assumption | with_reducible apply kept_badFrame | with_reducible apply Kept.put | with_reducible apply Kept.setLane | with_reducible apply kept_takeFrame | with_reducible apply Kept.each | with_reducible apply Kept.when | with_reducible apply Kept.fold | exact Eq.refl _ | decide | intro _ | (dsimp only) | split | fail_if_no_progress with_reducible apply Kept.upd)

theorem kept_execTlmFrame (stage lane word : Nat) (s : State) : Ends s (execTlmFrame stage lane word s) := by
  unfold execTlmFrame
  refine ends_done ?_
  have hk := Kept.refl s
  iterate 30 (try any_goals first | with_reducible assumption | with_reducible apply kept_done | with_reducible apply kept_effTlmFrame | with_reducible apply Kept.each | with_reducible apply Kept.when | with_reducible apply Kept.fold | exact Eq.refl _ | decide | intro _ | (dsimp only) | split | fail_if_no_progress with_reducible apply Kept.upd)

theorem kept_execTlmMissingFrame (stage lane : Nat) (s : State) : Ends s (execTlmMissingFrame stage lane s) := by
  unfold execTlmMissingFrame
  refine ends_done ?_
  have hk := Kept.refl s
  iterate 30 (try any_goals first | with_reducible assumption | with_reducible apply kept_badFrame | with_reducible apply kept_done | with_reducible apply Kept.each | with_reducible apply Kept.when | with_reducible apply Kept.fold | exact Eq.refl _ | decide | intro _ | (dsimp only) | split | fail_if_no_progress with_reducible apply Kept.upd)

theorem kept_execTlmLost (stage lane : Nat) (s : State) : Ends s (execTlmLost stage lane s) := by
  unfold execTlmLost
  refine ends_done ?_
  have hk := Kept.refl s
  iterate 30 (try any_goals first | with_reducible assumption | with_reducible apply kept_done | with_reducible apply kept_failPhase | with_reducible apply Kept.each | with_reducible apply Kept.when | with_reducible apply Kept.fold | exact Eq.refl _ | decide | intro _ | (dsimp only) | split | fail_if_no_progress with_reducible apply Kept.upd)

theorem kept_takeSuper {z s : State} (g sf : Nat) (hk : Kept z s) : Kept z (takeSuper g sf s) := by
  unfold takeSuper
  iterate 30 (try any_goals first | with_reducible assumption | with_reducible apply kept_failPhase | with_reducible apply Kept.put | with_reducible apply kept_record | with_reducible apply Kept.each | with_reducible apply Kept.when | with_reducible apply Kept.fold | exact Eq.refl _ | decide | intro _ | (dsimp only) | split | fail_if_no_progress with_reducible apply Kept.upd)

theorem kept_effSuperframe {z s : State} (g : Nat) (sameStart : Bool) (hk : Kept z s) : Kept z (effSuperframe g sameStart s) := by
  unfold effSuperframe
  iterate 30 (try any_goals first | with_reducible assumption | with_reducible apply Kept.addSat | with_reducible apply Kept.setLane | with_reducible apply kept_takeSuper | with_reducible apply Kept.each | with_reducible apply Kept.when | with_reducible apply Kept.fold | exact Eq.refl _ | decide | intro _ | (dsimp only) | split | fail_if_no_progress with_reducible apply Kept.upd)

theorem kept_execSuperframe (stage : Nat) (sameStart : Bool) (s : State) : Ends s (execSuperframe stage sameStart s) := by
  unfold execSuperframe
  refine ends_done ?_
  have hk := Kept.refl s
  iterate 30 (try any_goals first | with_reducible assumption | with_reducible apply kept_done | with_reducible apply kept_effSuperframe | with_reducible apply Kept.each | with_reducible apply Kept.when | with_reducible apply Kept.fold | exact Eq.refl _ | decide | intro _ | (dsimp only) | split | fail_if_no_progress with_reducible apply Kept.upd)

theorem kept_syncStep {z s : State} (y : SyncIn) (hk : Kept z s) : Kept z (syncStep y s) := by
  unfold syncStep
  iterate 30 (try any_goals first | with_reducible assumption | with_reducible apply Kept.each | with_reducible apply Kept.when | with_reducible apply Kept.fold | exact Eq.refl _ | decide | intro _ | (dsimp only) | split | fail_if_no_progress with_reducible apply Kept.upd)

theorem kept_execSyncAcquire (period : Nat) (s : State) : Ends s (execSyncAcquire period s) := by
  unfold execSyncAcquire
  refine ends_done ?_
  have hk := Kept.refl s
  iterate 30 (try any_goals first | with_reducible assumption | with_reducible apply kept_done | with_reducible apply Kept.put | with_reducible apply Kept.each | with_reducible apply Kept.when | with_reducible apply Kept.fold | exact Eq.refl _ | decide | intro _ | (dsimp only) | split | fail_if_no_progress with_reducible apply Kept.upd)

theorem kept_execSyncLoss (s : State) : Ends s (execSyncLoss s) := by
  unfold execSyncLoss
  refine ends_done ?_
  have hk := Kept.refl s
  iterate 30 (try any_goals first | with_reducible assumption | with_reducible apply kept_done | with_reducible apply Kept.event | with_reducible apply Kept.put | with_reducible apply Kept.each | with_reducible apply Kept.when | with_reducible apply Kept.fold | exact Eq.refl _ | decide | intro _ | (dsimp only) | split | fail_if_no_progress with_reducible apply Kept.upd)

theorem kept_execPhaseRetire (port tag : Nat) (s : State) : Ends s (execPhaseRetire port tag s) := by
  unfold execPhaseRetire
  refine ends_done ?_
  have hk := Kept.refl s
  iterate 30 (try any_goals first | with_reducible assumption | with_reducible apply kept_command | with_reducible apply kept_complete | with_reducible apply kept_done | with_reducible apply kept_failPhase | with_reducible apply Kept.each | with_reducible apply Kept.when | with_reducible apply Kept.fold | exact Eq.refl _ | decide | intro _ | (dsimp only) | split | fail_if_no_progress with_reducible apply Kept.upd)

theorem kept_regainRail {z s : State} (r : Nat) (hk : Kept z s) : Kept z (regainRail r s) := by
  unfold regainRail
  iterate 30 (try any_goals first | with_reducible assumption | with_reducible apply kept_faultOff | with_reducible apply Kept.put | with_reducible apply kept_railEnable | with_reducible apply kept_railOff | with_reducible apply Kept.each | with_reducible apply Kept.when | with_reducible apply Kept.fold | exact Eq.refl _ | decide | intro _ | (dsimp only) | split | fail_if_no_progress with_reducible apply Kept.upd)

theorem kept_execPhaseRestore (port tag : Nat) (s : State) : Ends s (execPhaseRestore port tag s) := by
  unfold execPhaseRestore
  refine ends_done ?_
  have hk := Kept.refl s
  iterate 30 (try any_goals first | with_reducible assumption | with_reducible apply kept_command | with_reducible apply kept_complete | with_reducible apply kept_done | with_reducible apply kept_enterSoft | with_reducible apply Kept.put | with_reducible apply kept_refitRail | with_reducible apply kept_regainRail | with_reducible apply Kept.setPhase | with_reducible apply Kept.each | with_reducible apply Kept.when | with_reducible apply Kept.fold | exact Eq.refl _ | decide | intro _ | (dsimp only) | split | fail_if_no_progress with_reducible apply Kept.upd)

theorem kept_transaction {z s : State} (c : Nat) (good : Bool) (hk : Kept z s) : Kept z (transaction c good s) := by
  unfold transaction
  iterate 30 (try any_goals first | with_reducible assumption | with_reducible apply Kept.event | with_reducible apply Kept.put | with_reducible apply kept_record | with_reducible apply Kept.each | with_reducible apply Kept.when | with_reducible apply Kept.fold | exact Eq.refl _ | decide | intro _ | (dsimp only) | split | fail_if_no_progress with_reducible apply Kept.upd)

theorem kept_sendPmb {z s : State} (c cmd v : Nat) (hk : Kept z s) : Kept z (sendPmb c cmd v s) := by
  unfold sendPmb
  iterate 30 (try any_goals first | with_reducible assumption | with_reducible apply kept_emit | with_reducible apply Kept.each | with_reducible apply Kept.when | with_reducible apply Kept.fold | exact Eq.refl _ | decide | intro _ | (dsimp only) | split | fail_if_no_progress with_reducible apply Kept.upd)

theorem kept_pageRound {z s : State} (c : Nat) (good : Bool) (hk : Kept z s) : Kept z (pageRound c good s) := by
  unfold pageRound
  iterate 30 (try any_goals first | with_reducible assumption | with_reducible apply kept_sendPmb | with_reducible apply kept_transaction | with_reducible apply Kept.each | with_reducible apply Kept.when | with_reducible apply Kept.fold | exact Eq.refl _ | decide | intro _ | (dsimp only) | split | fail_if_no_progress with_reducible apply Kept.upd)

theorem kept_freeAck {z s : State} {f : Bool → State → State} (hf : ∀ b t, Kept z t → Kept z (f b t)) (hk : Kept z s) :
    Kept z (freeAck f s) := hf _ _ (kept_drawn hk)

theorem kept_operate {z s : State} (v c : Nat) (hk : Kept z s) : Kept z (operate v c s) := by
  unfold operate
  iterate 30 (try any_goals first | with_reducible assumption | with_reducible apply kept_freeAck | with_reducible apply kept_pageRound | with_reducible apply kept_sendPmb | with_reducible apply kept_transaction | with_reducible apply Kept.each | with_reducible apply Kept.when | with_reducible apply Kept.fold | exact Eq.refl _ | decide | intro _ | (dsimp only) | split | fail_if_no_progress with_reducible apply Kept.upd)

theorem kept_readWord {z s : State} {c : Nat} {w : Option Nat} {f : Nat → State → State}
    (hf : ∀ v t, Kept z t → Kept z (f v t)) (hk : Kept z s) : Kept z (readWord c w f s) := by
  unfold readWord
  repeat' first | with_reducible assumption | with_reducible apply hf | with_reducible apply kept_transaction | (dsimp only) | split

theorem kept_pollOne {z s : State} (c : Nat) (r : Round) (hk : Kept z s) : Kept z (pollOne c r s) := by
  unfold pollOne
  iterate 30 (try any_goals first | with_reducible assumption | with_reducible apply kept_pageRound | with_reducible apply Kept.put | with_reducible apply Kept.putI | with_reducible apply kept_readWord | with_reducible apply Kept.each | with_reducible apply Kept.when | with_reducible apply Kept.fold | exact Eq.refl _ | decide | intro _ | (dsimp only) | split | fail_if_no_progress with_reducible apply Kept.upd)

theorem kept_execPmbPoll (readings : List Round) (s : State) : Ends s (execPmbPoll readings s) := by
  unfold execPmbPoll
  refine ends_done ?_
  have hk := Kept.refl s
  iterate 30 (try any_goals first | with_reducible assumption | with_reducible apply kept_done | with_reducible apply kept_pollOne | with_reducible apply Kept.each | with_reducible apply Kept.when | with_reducible apply Kept.fold | exact Eq.refl _ | decide | intro _ | (dsimp only) | split | fail_if_no_progress with_reducible apply Kept.upd)

theorem kept_clearSent {z s : State} (c : Nat) (good : Bool) (hk : Kept z s) : Kept z (clearSent c good s) := by
  unfold clearSent
  iterate 30 (try any_goals first | with_reducible assumption | with_reducible apply kept_sendPmb | with_reducible apply Kept.setConv | with_reducible apply kept_transaction | with_reducible apply Kept.each | with_reducible apply Kept.when | with_reducible apply Kept.fold | exact Eq.refl _ | decide | intro _ | (dsimp only) | split | fail_if_no_progress with_reducible apply Kept.upd)

theorem kept_autoClear {z s : State} (c : Nat) (good : Bool) (hk : Kept z s) : Kept z (autoClear c good s) := by
  unfold autoClear
  iterate 30 (try any_goals first | with_reducible assumption | with_reducible apply kept_clearSent | with_reducible apply Kept.put | with_reducible apply Kept.each | with_reducible apply Kept.when | with_reducible apply Kept.fold | exact Eq.refl _ | decide | intro _ | (dsimp only) | split | fail_if_no_progress with_reducible apply Kept.upd)

theorem kept_alertOne {z s : State} (c : Nat) (r : Round) (hk : Kept z s) : Kept z (alertOne c r s) := by
  unfold alertOne
  iterate 30 (try any_goals first | with_reducible assumption | with_reducible apply kept_autoClear | with_reducible apply Kept.event | with_reducible apply kept_pageRound | with_reducible apply Kept.put | with_reducible apply kept_readWord | with_reducible apply kept_record | with_reducible apply Kept.each | with_reducible apply Kept.when | with_reducible apply Kept.fold | exact Eq.refl _ | decide | intro _ | (dsimp only) | split | fail_if_no_progress with_reducible apply Kept.upd)

theorem kept_execPmbAlert (statuses : List Round) (s : State) : Ends s (execPmbAlert statuses s) := by
  unfold execPmbAlert
  refine ends_done ?_
  have hk := Kept.refl s
  iterate 30 (try any_goals first | with_reducible assumption | with_reducible apply kept_alertOne | with_reducible apply kept_done | with_reducible apply kept_refreshIin | with_reducible apply Kept.each | with_reducible apply Kept.when | with_reducible apply Kept.fold | exact Eq.refl _ | decide | intro _ | (dsimp only) | split | fail_if_no_progress with_reducible apply Kept.upd)

theorem kept_execConvVoutSet (port tag : Nat) (acked : Acks) (s : State) : Ends s (execConvVoutSet port tag acked s) := by
  unfold execConvVoutSet
  refine ends_done ?_
  have hk := Kept.refl s
  iterate 30 (try any_goals first | with_reducible assumption | with_reducible apply kept_command | with_reducible apply kept_complete | with_reducible apply kept_done | with_reducible apply kept_keepResult | with_reducible apply kept_markStarted | with_reducible apply kept_pageRound | with_reducible apply kept_sendPmb | with_reducible apply kept_transaction | with_reducible apply Kept.each | with_reducible apply Kept.when | with_reducible apply Kept.fold | exact Eq.refl _ | decide | intro _ | (dsimp only) | split | fail_if_no_progress with_reducible apply Kept.upd)

theorem kept_execReadVoutAfterWrite (port tag value : Nat) (acked : Acks) (s : State) : Ends s (execReadVoutAfterWrite port tag value acked s) := by
  unfold execReadVoutAfterWrite
  refine ends_done ?_
  have hk := Kept.refl s
  iterate 30 (try any_goals first | with_reducible assumption | with_reducible apply kept_complete | with_reducible apply kept_done | with_reducible apply kept_drawn | with_reducible apply kept_pageRound | with_reducible apply kept_transaction | with_reducible apply Kept.each | with_reducible apply Kept.when | with_reducible apply Kept.fold | exact Eq.refl _ | decide | intro _ | (dsimp only) | split | fail_if_no_progress with_reducible apply Kept.upd)

theorem kept_execConvClear (port tag : Nat) (acked : Acks) (s : State) : Ends s (execConvClear port tag acked s) := by
  unfold execConvClear
  refine ends_done ?_
  have hk := Kept.refl s
  iterate 30 (try any_goals first | with_reducible assumption | with_reducible apply kept_command | with_reducible apply kept_complete | with_reducible apply kept_done | with_reducible apply kept_pageRound | with_reducible apply Kept.put | with_reducible apply kept_refreshIin | with_reducible apply kept_sendPmb | with_reducible apply kept_transaction | with_reducible apply Kept.each | with_reducible apply Kept.when | with_reducible apply Kept.fold | exact Eq.refl _ | decide | intro _ | (dsimp only) | split | fail_if_no_progress with_reducible apply Kept.upd)

theorem kept_setTest {z s : State} (t : TestH) (hk : Kept z s) : Kept z (setTest t s) := by
  unfold setTest
  iterate 30 (try any_goals first | with_reducible assumption | with_reducible apply Kept.each | with_reducible apply Kept.when | with_reducible apply Kept.fold | exact Eq.refl _ | decide | intro _ | (dsimp only) | split | fail_if_no_progress with_reducible apply Kept.upd)

theorem kept_nextInjection {z s : State} (hk : Kept z s) : Kept z (nextInjection s) := by
  unfold nextInjection
  iterate 30 (try any_goals first | with_reducible assumption | with_reducible apply kept_setTest | with_reducible apply Kept.each | with_reducible apply Kept.when | with_reducible apply Kept.fold | exact Eq.refl _ | decide | intro _ | (dsimp only) | split | fail_if_no_progress with_reducible apply Kept.upd)

theorem kept_writeI64 {z s : State} (a : Nat) (x : Int) (hk : Kept z s) : Kept z (writeI64 a x s) := by
  unfold writeI64
  iterate 30 (try any_goals first | with_reducible assumption | with_reducible apply Kept.writeBytes | with_reducible apply Kept.each | with_reducible apply Kept.when | with_reducible apply Kept.fold | exact Eq.refl _ | decide | intro _ | (dsimp only) | split | fail_if_no_progress with_reducible apply Kept.upd)

theorem kept_sineStep {z s : State} (a b : Int) (hk : Kept z s) : Kept z (sineStep a b s) := by
  unfold sineStep
  iterate 30 (try any_goals first | with_reducible assumption | with_reducible apply Kept.put | with_reducible apply kept_setTest | with_reducible apply kept_writeI64 | with_reducible apply Kept.writeWord32 | with_reducible apply Kept.each | with_reducible apply Kept.when | with_reducible apply Kept.fold | exact Eq.refl _ | decide | intro _ | (dsimp only) | split | fail_if_no_progress with_reducible apply Kept.upd)

theorem kept_writeCapture {z s : State} (m : Nat) (a b : Int) (hk : Kept z s) : Kept z (writeCapture m a b s) := by
  unfold writeCapture
  iterate 30 (try any_goals first | with_reducible assumption | with_reducible apply Kept.writeWord32 | with_reducible apply Kept.each | with_reducible apply Kept.when | with_reducible apply Kept.fold | exact Eq.refl _ | decide | intro _ | (dsimp only) | split | fail_if_no_progress with_reducible apply Kept.upd)

theorem kept_unrollRing {z s : State} (n k : Nat) (hk : Kept z s) : Kept z (unrollRing n k s) := by
  unfold unrollRing
  iterate 30 (try any_goals first | with_reducible assumption | with_reducible apply Kept.writeBytes | with_reducible apply Kept.each | with_reducible apply Kept.when | with_reducible apply Kept.fold | exact Eq.refl _ | decide | intro _ | (dsimp only) | split | fail_if_no_progress with_reducible apply Kept.upd)

theorem kept_captureStep {z s : State} (a b : Int) (entered : Bool) (hk : Kept z s) : Kept z (captureStep a b entered s) := by
  have hi : ∀ t, Kept z t → Kept z (id t) := fun _ h => h
  unfold captureStep
  dsimp only
  repeat' first | with_reducible assumption | with_reducible apply Kept.put | with_reducible apply kept_setTest | with_reducible apply kept_writeCapture | with_reducible apply kept_unrollRing | with_reducible apply hi | split

theorem kept_testStep {z s : State} (entered : Bool) (hk : Kept z s) : Kept z (testStep entered s) := by
  unfold testStep
  iterate 30 (try any_goals first | with_reducible assumption | with_reducible apply kept_captureStep | with_reducible apply kept_sineStep | with_reducible apply Kept.each | with_reducible apply Kept.when | with_reducible apply Kept.fold | exact Eq.refl _ | decide | intro _ | (dsimp only) | split | fail_if_no_progress with_reducible apply Kept.upd)

theorem kept_latchRail {z s : State} (r v : Nat) (hk : Kept z s) : Kept z (latchRail r v s) := by
  unfold latchRail
  iterate 30 (try any_goals first | with_reducible assumption | with_reducible apply Kept.put | with_reducible apply Kept.setRail | with_reducible apply Kept.each | with_reducible apply Kept.when | with_reducible apply Kept.fold | exact Eq.refl _ | decide | intro _ | (dsimp only) | split | fail_if_no_progress with_reducible apply Kept.upd)

theorem kept_brakeStep {z s : State} (r : Nat) (hk : Kept z s) : Kept z (brakeStep r s) := by
  unfold brakeStep
  iterate 30 (try any_goals first | with_reducible assumption | with_reducible apply kept_endBrake | with_reducible apply Kept.event | with_reducible apply Kept.put | with_reducible apply Kept.setRail | with_reducible apply Kept.each | with_reducible apply Kept.when | with_reducible apply Kept.fold | exact Eq.refl _ | decide | intro _ | (dsimp only) | split | fail_if_no_progress with_reducible apply Kept.upd)

theorem kept_rampShares {z s : State} (r : Nat) (hk : Kept z s) : Kept z (rampShares r s) := by
  unfold rampShares
  iterate 30 (try any_goals first | with_reducible assumption | with_reducible apply Kept.setPhase | with_reducible apply Kept.each | with_reducible apply Kept.when | with_reducible apply Kept.fold | exact Eq.refl _ | decide | intro _ | (dsimp only) | split | fail_if_no_progress with_reducible apply Kept.upd)

theorem kept_unshedStep {z s : State} (r : Nat) (hk : Kept z s) : Kept z (unshedStep r s) := by
  unfold unshedStep
  iterate 30 (try any_goals first | with_reducible assumption | with_reducible apply kept_unshedAll | with_reducible apply kept_unshedTo | with_reducible apply Kept.each | with_reducible apply Kept.when | with_reducible apply Kept.fold | exact Eq.refl _ | decide | intro _ | (dsimp only) | split | fail_if_no_progress with_reducible apply Kept.upd)

theorem kept_trimStep {z s : State} (r : Nat) (hk : Kept z s) : Kept z (trimStep r s) := by
  unfold trimStep
  iterate 30 (try any_goals first | with_reducible assumption | with_reducible apply Kept.putI | with_reducible apply Kept.each | with_reducible apply Kept.when | with_reducible apply Kept.fold | exact Eq.refl _ | decide | intro _ | (dsimp only) | split | fail_if_no_progress with_reducible apply Kept.upd)

theorem kept_checkStep {z s : State} (r : Nat) (hk : Kept z s) : Kept z (checkStep r s) := by
  unfold checkStep
  iterate 30 (try any_goals first | with_reducible assumption | with_reducible apply Kept.setPhase | with_reducible apply Kept.each | with_reducible apply Kept.when | with_reducible apply Kept.fold | exact Eq.refl _ | decide | intro _ | (dsimp only) | split | fail_if_no_progress with_reducible apply Kept.upd)

theorem kept_formEdge {z s : State} (r n duty period : Nat) (hk : Kept z s) : Kept z (formEdge r n duty period s) := by
  unfold formEdge
  iterate 30 (try any_goals first | with_reducible assumption | with_reducible apply kept_emit | with_reducible apply Kept.put | with_reducible apply Kept.setPhase | with_reducible apply Kept.each | with_reducible apply Kept.when | with_reducible apply Kept.fold | exact Eq.refl _ | decide | intro _ | (dsimp only) | split | fail_if_no_progress with_reducible apply Kept.upd)

theorem kept_phaseStep {z s : State} (r n duty period : Nat) (held : Bool) (hk : Kept z s) : Kept z (phaseStep r n duty period held s) := by
  unfold phaseStep
  iterate 30 (try any_goals first | with_reducible assumption | with_reducible apply kept_formEdge | with_reducible apply Kept.setPhase | with_reducible apply Kept.each | with_reducible apply Kept.when | with_reducible apply Kept.fold | exact Eq.refl _ | decide | intro _ | (dsimp only) | split | fail_if_no_progress with_reducible apply Kept.upd)

theorem kept_showDuty {z s : State} (n : Nat) (hk : Kept z s) : Kept z (showDuty n s) := by
  unfold showDuty
  iterate 30 (try any_goals first | with_reducible assumption | with_reducible apply Kept.put | with_reducible apply Kept.setPhase | with_reducible apply Kept.each | with_reducible apply Kept.when | with_reducible apply Kept.fold | exact Eq.refl _ | decide | intro _ | (dsimp only) | split | fail_if_no_progress with_reducible apply Kept.upd)

theorem kept_sendThreshold {z s : State} (d v : Nat) (hk : Kept z s) : Kept z (sendThreshold d v s) := by
  unfold sendThreshold
  iterate 30 (try any_goals first | with_reducible assumption | with_reducible apply kept_sendDown | with_reducible apply Kept.setItn | with_reducible apply Kept.each | with_reducible apply Kept.when | with_reducible apply Kept.fold | exact Eq.refl _ | decide | intro _ | (dsimp only) | split | fail_if_no_progress with_reducible apply Kept.upd)

theorem kept_noteAbove {z s : State} (d : Nat) (hk : Kept z s) : Kept z (noteAbove d s) := by
  unfold noteAbove
  iterate 30 (try any_goals first | with_reducible assumption | with_reducible apply Kept.setItn | with_reducible apply Kept.each | with_reducible apply Kept.when | with_reducible apply Kept.fold | exact Eq.refl _ | decide | intro _ | (dsimp only) | split | fail_if_no_progress with_reducible apply Kept.upd)

theorem kept_refStep {z s : State} (r : Nat) (hk : Kept z s) : Kept z (refStep r s) := by
  unfold refStep
  iterate 30 (try any_goals first | with_reducible assumption | with_reducible apply kept_nextInjection | with_reducible apply kept_noteAbove | with_reducible apply Kept.put | with_reducible apply Kept.putI | with_reducible apply kept_sendThreshold | with_reducible apply Kept.setRail | with_reducible apply kept_showEmpty | with_reducible apply Kept.each | with_reducible apply Kept.when | with_reducible apply Kept.fold | exact Eq.refl _ | decide | intro _ | (dsimp only) | split | fail_if_no_progress with_reducible apply Kept.upd)

theorem kept_enableCores {z s : State} (hk : Kept z s) : Kept z (enableCores s) := by
  unfold enableCores
  iterate 30 (try any_goals first | with_reducible assumption | with_reducible apply kept_railEnable | with_reducible apply Kept.each | with_reducible apply Kept.when | with_reducible apply Kept.fold | exact Eq.refl _ | decide | intro _ | (dsimp only) | split | fail_if_no_progress with_reducible apply Kept.upd)

theorem kept_superviseStep {z s : State} (r : Nat) (o : LawOut) (ipred : Int) (vinU : Nat) (differ : Bool) (hk : Kept z s) : Kept z (superviseStep r o ipred vinU differ s) := by
  unfold superviseStep
  iterate 30 (try any_goals first | with_reducible assumption | with_reducible apply Kept.addSat | with_reducible apply kept_enableCores | with_reducible apply Kept.event | with_reducible apply Kept.put | with_reducible apply Kept.putI | with_reducible apply Kept.setRail | with_reducible apply Kept.each | with_reducible apply Kept.when | with_reducible apply Kept.fold | exact Eq.refl _ | decide | intro _ | (dsimp only) | split | fail_if_no_progress with_reducible apply Kept.upd)

theorem kept_lawStep {z s : State} (r : Nat) (differ : Bool) (hk : Kept z s) : Kept z (lawStep r differ s) := by
  unfold lawStep
  iterate 30 (try any_goals first | with_reducible assumption | with_reducible apply Kept.put | with_reducible apply Kept.putB | with_reducible apply Kept.putI | with_reducible apply Kept.setRail | with_reducible apply kept_superviseStep | with_reducible apply kept_testStep | with_reducible apply Kept.each | with_reducible apply Kept.when | with_reducible apply Kept.fold | exact Eq.refl _ | decide | intro _ | (dsimp only) | split | fail_if_no_progress with_reducible apply Kept.upd)

theorem kept_endLimited {z s : State} (n : Nat) (hk : Kept z s) : Kept z (endLimited n s) := by
  unfold endLimited
  iterate 30 (try any_goals first | with_reducible assumption | with_reducible apply Kept.setPhase | with_reducible apply Kept.each | with_reducible apply Kept.when | with_reducible apply Kept.fold | exact Eq.refl _ | decide | intro _ | (dsimp only) | split | fail_if_no_progress with_reducible apply Kept.upd)

theorem kept_endSoft {z s : State} (r : Nat) (hk : Kept z s) : Kept z (endSoft r s) := by
  unfold endSoft
  iterate 30 (try any_goals first | with_reducible assumption | with_reducible apply Kept.setRail | with_reducible apply Kept.each | with_reducible apply Kept.when | with_reducible apply Kept.fold | exact Eq.refl _ | decide | intro _ | (dsimp only) | split | fail_if_no_progress with_reducible apply Kept.upd)

theorem kept_evalRail {z s : State} (period disagree r : Nat) (hk : Kept z s) : Kept z (evalRail period disagree r s) := by
  unfold evalRail
  iterate 30 (try any_goals first | with_reducible assumption | with_reducible apply kept_brakeStep | with_reducible apply kept_checkStep | with_reducible apply kept_endLimited | with_reducible apply kept_endSoft | with_reducible apply kept_lawStep | (with_reducible apply kept_noteSkim) | with_reducible apply kept_phaseStep | with_reducible apply kept_rampShares | with_reducible apply kept_refStep | with_reducible apply kept_showDuty | with_reducible apply kept_trimStep | (with_reducible apply kept_unshedStep) | with_reducible apply Kept.each | with_reducible apply Kept.when | with_reducible apply Kept.fold | exact Eq.refl _ | decide | intro _ | (dsimp only) | split | fail_if_no_progress with_reducible apply Kept.upd)

theorem kept_vinSample {z s : State} (vin : Nat) (hk : Kept z s) : Kept z (vinSample vin s) := by
  unfold vinSample
  iterate 30 (try any_goals first | with_reducible assumption | with_reducible apply Kept.put | with_reducible apply Kept.each | with_reducible apply Kept.when | with_reducible apply Kept.fold | exact Eq.refl _ | decide | intro _ | (dsimp only) | split | fail_if_no_progress with_reducible apply Kept.upd)

theorem kept_sumRails {z s : State} (hk : Kept z s) : Kept z (sumRails s) := by
  unfold sumRails
  iterate 30 (try any_goals first | with_reducible assumption | with_reducible apply Kept.setCap | with_reducible apply Kept.setEst | with_reducible apply Kept.each | with_reducible apply Kept.when | with_reducible apply Kept.fold | exact Eq.refl _ | decide | intro _ | (dsimp only) | split | fail_if_no_progress with_reducible apply Kept.upd)

theorem kept_selfTest {z s : State} (flagged : Bool) (hk : Kept z s) : Kept z (selfTest flagged s) := by
  unfold selfTest
  iterate 30 (try any_goals first | with_reducible assumption | with_reducible apply Kept.event | with_reducible apply kept_faultOn | with_reducible apply kept_record | with_reducible apply Kept.each | with_reducible apply Kept.when | with_reducible apply Kept.fold | exact Eq.refl _ | decide | intro _ | (dsimp only) | split | fail_if_no_progress with_reducible apply Kept.upd)

theorem kept_releaseHeld {z s : State} (d : Nat) (hk : Kept z s) : Kept z (releaseHeld d s) := by
  unfold releaseHeld
  iterate 30 (try any_goals first | with_reducible assumption | with_reducible apply kept_reloadDie | with_reducible apply Kept.each | with_reducible apply Kept.when | with_reducible apply Kept.fold | exact Eq.refl _ | decide | intro _ | (dsimp only) | split | fail_if_no_progress with_reducible apply Kept.upd)

theorem kept_startPeriod {z s : State} (y : SyncIn) (hk : Kept z s) : Kept z (startPeriod y s) := by
  unfold startPeriod
  iterate 30 (try any_goals first | with_reducible assumption | with_reducible apply kept_emit | with_reducible apply Kept.put | with_reducible apply kept_syncStep | with_reducible apply Kept.each | with_reducible apply Kept.when | with_reducible apply Kept.fold | exact Eq.refl _ | decide | intro _ | (dsimp only) | split | fail_if_no_progress with_reducible apply Kept.upd)

theorem kept_effLoopEvaluation {z s : State} (vin : Nat) (volts : List Nat) (sync : SyncIn) (disagree : Nat) (flagged : Bool) (hk : Kept z s) : Kept z (effLoopEvaluation vin volts sync disagree flagged s) := by
  unfold effLoopEvaluation
  iterate 30 (try any_goals first | with_reducible assumption | with_reducible apply kept_evalRail | with_reducible apply kept_latchRail | with_reducible apply kept_releaseHeld | with_reducible apply kept_selfTest | with_reducible apply kept_startPeriod | with_reducible apply kept_sumRails | with_reducible apply kept_vinSample | with_reducible apply Kept.each | with_reducible apply Kept.when | with_reducible apply Kept.fold | exact Eq.refl _ | decide | intro _ | (dsimp only) | split | fail_if_no_progress with_reducible apply Kept.upd)

theorem kept_execLoopEvaluation (vin : Nat) (volts : List Nat) (sync : SyncIn) (disagree : Nat) (flagged : Bool) (s : State) : Ends s (execLoopEvaluation vin volts sync disagree flagged s) := by
  unfold execLoopEvaluation
  refine ends_done ?_
  have hk := Kept.refl s
  iterate 30 (try any_goals first | with_reducible assumption | with_reducible apply kept_done | with_reducible apply kept_effLoopEvaluation | with_reducible apply Kept.each | with_reducible apply Kept.when | with_reducible apply Kept.fold | exact Eq.refl _ | decide | intro _ | (dsimp only) | split | fail_if_no_progress with_reducible apply Kept.upd)

theorem kept_enterHold {z s : State} (r cause : Nat) (hk : Kept z s) : Kept z (enterHold r cause s) := by
  unfold enterHold
  iterate 30 (try any_goals first | with_reducible assumption | with_reducible apply Kept.event | with_reducible apply kept_faultOn | with_reducible apply kept_formEdge | with_reducible apply Kept.put | with_reducible apply kept_recordRail | with_reducible apply kept_refit | with_reducible apply Kept.setRail | with_reducible apply kept_stopTest | with_reducible apply Kept.each | with_reducible apply Kept.when | with_reducible apply Kept.fold | exact Eq.refl _ | decide | intro _ | (dsimp only) | split | fail_if_no_progress with_reducible apply Kept.upd)

theorem kept_execCmpHold (rail : Nat) (s : State) : Ends s (execCmpHold rail s) := by
  unfold execCmpHold
  refine ends_done ?_
  have hk := Kept.refl s
  iterate 30 (try any_goals first | with_reducible assumption | with_reducible apply kept_done | with_reducible apply kept_enterHold | with_reducible apply Kept.each | with_reducible apply Kept.when | with_reducible apply Kept.fold | exact Eq.refl _ | decide | intro _ | (dsimp only) | split | fail_if_no_progress with_reducible apply Kept.upd)

theorem kept_execFeHold (rail : Nat) (s : State) : Ends s (execFeHold rail s) := by
  unfold execFeHold
  refine ends_done ?_
  have hk := Kept.refl s
  iterate 30 (try any_goals first | with_reducible assumption | with_reducible apply kept_done | with_reducible apply kept_enterHold | with_reducible apply Kept.each | with_reducible apply Kept.when | with_reducible apply Kept.fold | exact Eq.refl _ | decide | intro _ | (dsimp only) | split | fail_if_no_progress with_reducible apply Kept.upd)

theorem kept_execLoopResume (port tag : Nat) (s : State) : Ends s (execLoopResume port tag s) := by
  unfold execLoopResume
  refine ends_done ?_
  have hk := Kept.refl s
  iterate 30 (try any_goals first | with_reducible assumption | with_reducible apply kept_command | with_reducible apply kept_complete | with_reducible apply kept_done | with_reducible apply Kept.put | with_reducible apply Kept.setRail | with_reducible apply Kept.each | with_reducible apply Kept.when | with_reducible apply Kept.fold | exact Eq.refl _ | decide | intro _ | (dsimp only) | split | fail_if_no_progress with_reducible apply Kept.upd)

theorem kept_execLoopTest (port tag : Nat) (s : State) : Ends s (execLoopTest port tag s) := by
  unfold execLoopTest
  refine ends_done ?_
  have hk := Kept.refl s
  iterate 30 (try any_goals first | with_reducible assumption | with_reducible apply kept_command | with_reducible apply kept_done | with_reducible apply kept_markStarted | with_reducible apply Kept.put | with_reducible apply kept_setTest | with_reducible apply Kept.each | with_reducible apply Kept.when | with_reducible apply Kept.fold | exact Eq.refl _ | decide | intro _ | (dsimp only) | split | fail_if_no_progress with_reducible apply Kept.upd)

theorem kept_execLoopTestStop (port tag : Nat) (s : State) : Ends s (execLoopTestStop port tag s) := by
  unfold execLoopTestStop
  refine ends_done ?_
  have hk := Kept.refl s
  iterate 30 (try any_goals first | with_reducible assumption | with_reducible apply kept_command | with_reducible apply kept_complete | with_reducible apply kept_done | with_reducible apply kept_setTest | with_reducible apply Kept.each | with_reducible apply Kept.when | with_reducible apply Kept.fold | exact Eq.refl _ | decide | intro _ | (dsimp only) | split | fail_if_no_progress with_reducible apply Kept.upd)

theorem kept_orderRing {z s : State} (hk : Kept z s) : Kept z (orderRing s) := by
  unfold orderRing
  iterate 30 (try any_goals first | with_reducible assumption | with_reducible apply kept_unrollRing | with_reducible apply Kept.each | with_reducible apply Kept.when | with_reducible apply Kept.fold | exact Eq.refl _ | decide | intro _ | (dsimp only) | split | fail_if_no_progress with_reducible apply Kept.upd)

theorem kept_effLoopTestEnd {z s : State} (hk : Kept z s) : Kept z (effLoopTestEnd s) := by
  unfold effLoopTestEnd
  iterate 30 (try any_goals first | with_reducible assumption | with_reducible apply kept_completeAt | with_reducible apply Kept.event | with_reducible apply kept_orderRing | with_reducible apply Kept.put | with_reducible apply kept_setTest | with_reducible apply Kept.each | with_reducible apply Kept.when | with_reducible apply Kept.fold | exact Eq.refl _ | decide | intro _ | (dsimp only) | split | fail_if_no_progress with_reducible apply Kept.upd)

theorem kept_execLoopTestEnd (s : State) : Ends s (execLoopTestEnd s) := by
  unfold execLoopTestEnd
  refine ends_done ?_
  have hk := Kept.refl s
  iterate 30 (try any_goals first | with_reducible assumption | with_reducible apply kept_done | with_reducible apply kept_effLoopTestEnd | with_reducible apply Kept.each | with_reducible apply Kept.when | with_reducible apply Kept.fold | exact Eq.refl _ | decide | intro _ | (dsimp only) | split | fail_if_no_progress with_reducible apply Kept.upd)

theorem kept_commitSet {z s : State} (r : Nat) (hk : Kept z s) : Kept z (commitSet r s).1 := by
  unfold commitSet
  dsimp only
  split
  · dsimp only
    exact Kept.put _ _ (Kept.setRail _ _ hk)
  · dsimp only
    exact Kept.event _ _ (Kept.put _ _ hk)

theorem kept_diePower {z s : State} (d : Nat) (hk : Kept z s) : Kept z (diePower d s) := by
  unfold diePower
  iterate 30 (try any_goals first | with_reducible assumption | with_reducible apply Kept.put | with_reducible apply Kept.setCap | with_reducible apply Kept.each | with_reducible apply Kept.when | with_reducible apply Kept.fold | exact Eq.refl _ | decide | intro _ | (dsimp only) | split | fail_if_no_progress with_reducible apply Kept.upd)

theorem kept_linkPower {z s : State} (hk : Kept z s) : Kept z (linkPower s) := by
  unfold linkPower
  iterate 30 (try any_goals first | with_reducible assumption | with_reducible apply Kept.setCap | with_reducible apply Kept.each | with_reducible apply Kept.when | with_reducible apply Kept.fold | exact Eq.refl _ | decide | intro _ | (dsimp only) | split | fail_if_no_progress with_reducible apply Kept.upd)

theorem kept_packagePower {z s : State} (hk : Kept z s) : Kept z (packagePower s) := by
  unfold packagePower
  iterate 30 (try any_goals first | with_reducible assumption | with_reducible apply Kept.put | with_reducible apply Kept.each | with_reducible apply Kept.when | with_reducible apply Kept.fold | exact Eq.refl _ | decide | intro _ | (dsimp only) | split | fail_if_no_progress with_reducible apply Kept.upd)

theorem kept_chargeDie {z s : State} (d : Nat) (uj : Nat) (hk : Kept z s) : Kept z (chargeDie d uj s) := by
  unfold chargeDie
  iterate 30 (try any_goals first | with_reducible assumption | with_reducible apply Kept.addWrap | with_reducible apply Kept.setCap | with_reducible apply Kept.each | with_reducible apply Kept.when | with_reducible apply Kept.fold | exact Eq.refl _ | decide | intro _ | (dsimp only) | split | fail_if_no_progress with_reducible apply Kept.upd)

theorem kept_energyDie {z s : State} (d : Nat) (share : Int) (hk : Kept z s) : Kept z (energyDie d share s) := by
  unfold energyDie
  iterate 30 (try any_goals first | with_reducible assumption | with_reducible apply kept_chargeDie | with_reducible apply Kept.setCap | with_reducible apply Kept.setTok | with_reducible apply Kept.each | with_reducible apply Kept.when | with_reducible apply Kept.fold | exact Eq.refl _ | decide | intro _ | (dsimp only) | split | fail_if_no_progress with_reducible apply Kept.upd)

theorem kept_energyCycle {z s : State} (hk : Kept z s) : Kept z (energyCycle s) := by
  unfold energyCycle
  iterate 30 (try any_goals first | with_reducible assumption | with_reducible apply kept_energyDie | with_reducible apply Kept.each | with_reducible apply Kept.when | with_reducible apply Kept.fold | exact Eq.refl _ | decide | intro _ | (dsimp only) | split | fail_if_no_progress with_reducible apply Kept.upd)

theorem kept_baseCurrent {z s : State} (d : Nat) (hk : Kept z s) : Kept z (baseCurrent d s) := by
  unfold baseCurrent
  iterate 30 (try any_goals first | with_reducible assumption | with_reducible apply kept_drawn | with_reducible apply Kept.setItn | with_reducible apply Kept.each | with_reducible apply Kept.when | with_reducible apply Kept.fold | exact Eq.refl _ | decide | intro _ | (dsimp only) | split | fail_if_no_progress with_reducible apply Kept.upd)

theorem kept_shareCycle {z s : State} (hk : Kept z s) : Kept z (shareCycle s) := by
  unfold shareCycle
  iterate 30 (try any_goals first | with_reducible assumption | with_reducible apply kept_sendBudget | with_reducible apply Kept.each | with_reducible apply Kept.when | with_reducible apply Kept.fold | exact Eq.refl _ | decide | intro _ | (dsimp only) | split | fail_if_no_progress with_reducible apply Kept.upd)

theorem kept_powerCycle {z s : State} (hk : Kept z s) : Kept z (powerCycle s) := by
  unfold powerCycle
  iterate 30 (try any_goals first | with_reducible assumption | with_reducible apply kept_baseCurrent | with_reducible apply kept_diePower | with_reducible apply kept_energyCycle | with_reducible apply kept_linkPower | with_reducible apply kept_packagePower | with_reducible apply kept_shareCycle | with_reducible apply Kept.each | with_reducible apply Kept.when | with_reducible apply Kept.fold | exact Eq.refl _ | decide | intro _ | (dsimp only) | split | fail_if_no_progress with_reducible apply Kept.upd)

theorem kept_latchTokens {z s : State} (d : Nat) (hk : Kept z s) : Kept z (latchTokens d s) := by
  unfold latchTokens
  iterate 30 (try any_goals first | with_reducible assumption | with_reducible apply Kept.setTok | with_reducible apply Kept.each | with_reducible apply Kept.when | with_reducible apply Kept.fold | exact Eq.refl _ | decide | intro _ | (dsimp only) | split | fail_if_no_progress with_reducible apply Kept.upd)

theorem kept_latchWindow {z s : State} (counts : List (Nat × Nat × Nat)) (d : Nat) (hk : Kept z s) : Kept z (latchWindow counts d s) := by
  unfold latchWindow
  iterate 30 (try any_goals first | with_reducible assumption | with_reducible apply Kept.setEst | with_reducible apply Kept.each | with_reducible apply Kept.when | with_reducible apply Kept.fold | exact Eq.refl _ | decide | intro _ | (dsimp only) | split | fail_if_no_progress with_reducible apply Kept.upd)

theorem kept_countWindow {z s : State} (d : Nat) (hk : Kept z s) : Kept z (countWindow d s) := by
  unfold countWindow
  iterate 30 (try any_goals first | with_reducible assumption | with_reducible apply Kept.setEst | with_reducible apply Kept.each | with_reducible apply Kept.when | with_reducible apply Kept.fold | exact Eq.refl _ | decide | intro _ | (dsimp only) | split | fail_if_no_progress with_reducible apply Kept.upd)

theorem kept_effCounterLatch {z s : State} (counts : List (Nat × Nat × Nat)) (hk : Kept z s) : Kept z (effCounterLatch counts s) := by
  unfold effCounterLatch
  iterate 30 (try any_goals first | with_reducible assumption | with_reducible apply kept_countWindow | with_reducible apply kept_latchTokens | with_reducible apply kept_latchWindow | with_reducible apply Kept.each | with_reducible apply Kept.when | with_reducible apply Kept.fold | exact Eq.refl _ | decide | intro _ | (dsimp only) | split | fail_if_no_progress with_reducible apply Kept.upd)

theorem kept_execCounterLatch (counts : List (Nat × Nat × Nat)) (s : State) : Ends s (execCounterLatch counts s) := by
  unfold execCounterLatch
  refine ends_done ?_
  have hk := Kept.refl s
  iterate 30 (try any_goals first | with_reducible assumption | with_reducible apply kept_done | with_reducible apply kept_effCounterLatch | with_reducible apply Kept.each | with_reducible apply Kept.when | with_reducible apply Kept.fold | exact Eq.refl _ | decide | intro _ | (dsimp only) | split | fail_if_no_progress with_reducible apply Kept.upd)

theorem kept_effFirstLayerDone {z s : State} (d : Nat) (hk : Kept z s) : Kept z (effFirstLayerDone d s) := by
  unfold effFirstLayerDone
  iterate 30 (try any_goals first | with_reducible assumption | with_reducible apply kept_sendMsg | with_reducible apply Kept.setEst | with_reducible apply Kept.each | with_reducible apply Kept.when | with_reducible apply Kept.fold | exact Eq.refl _ | decide | intro _ | (dsimp only) | split | fail_if_no_progress with_reducible apply Kept.upd)

theorem kept_execFirstLayerDone (die : Nat) (s : State) : Ends s (execFirstLayerDone die s) := by
  unfold execFirstLayerDone
  refine ends_done ?_
  have hk := Kept.refl s
  iterate 30 (try any_goals first | with_reducible assumption | with_reducible apply kept_done | with_reducible apply kept_effFirstLayerDone | with_reducible apply Kept.each | with_reducible apply Kept.when | with_reducible apply Kept.fold | exact Eq.refl _ | decide | intro _ | (dsimp only) | split | fail_if_no_progress with_reducible apply Kept.upd)

theorem kept_takeEstimate {z s : State} (d window : Nat) (h : List Nat) (hk : Kept z s) : Kept z (takeEstimate d window h s) := by
  unfold takeEstimate
  iterate 30 (try any_goals first | with_reducible assumption | with_reducible apply Kept.setEst | with_reducible apply Kept.each | with_reducible apply Kept.when | with_reducible apply Kept.fold | exact Eq.refl _ | decide | intro _ | (dsimp only) | split | fail_if_no_progress with_reducible apply Kept.upd)

theorem kept_execEstimateFrame (die : Nat) (frame : Frame) (window : Nat) (s : State) : Ends s (execEstimateFrame die frame window s) := by
  unfold execEstimateFrame
  refine ends_done ?_
  have hk := Kept.refl s
  iterate 30 (try any_goals first | with_reducible assumption | with_reducible apply kept_acceptFrame | with_reducible apply kept_done | with_reducible apply kept_takeEstimate | with_reducible apply Kept.each | with_reducible apply Kept.when | with_reducible apply Kept.fold | exact Eq.refl _ | decide | intro _ | (dsimp only) | split | fail_if_no_progress with_reducible apply Kept.upd)

theorem kept_spoilTrim {z s : State} (d : Nat) (hk : Kept z s) : Kept z (spoilTrim d s) := by
  unfold spoilTrim
  iterate 30 (try any_goals first | with_reducible assumption | with_reducible apply Kept.setEst | with_reducible apply Kept.each | with_reducible apply Kept.when | with_reducible apply Kept.fold | exact Eq.refl _ | decide | intro _ | (dsimp only) | split | fail_if_no_progress with_reducible apply Kept.upd)

theorem kept_judgeFrame {z s : State} (d : Nat) (hk : Kept z s) : Kept z (judgeFrame d s) := by
  unfold judgeFrame
  iterate 30 (try any_goals first | with_reducible assumption | with_reducible apply Kept.addSat | with_reducible apply Kept.event | with_reducible apply Kept.setEst | with_reducible apply kept_spoilTrim | with_reducible apply Kept.each | with_reducible apply Kept.when | with_reducible apply Kept.fold | exact Eq.refl _ | decide | intro _ | (dsimp only) | split | fail_if_no_progress with_reducible apply Kept.upd)

theorem kept_modelOutputs {z s : State} (d : Nat) (tc tm : Int) (vc vm vl : Nat) (hk : Kept z s) : Kept z (modelOutputs d tc tm vc vm vl s) := by
  unfold modelOutputs
  iterate 30 (try any_goals first | with_reducible assumption | with_reducible apply Kept.put | with_reducible apply Kept.putI | with_reducible apply Kept.setEst | with_reducible apply Kept.each | with_reducible apply Kept.when | with_reducible apply Kept.fold | exact Eq.refl _ | decide | intro _ | (dsimp only) | split | fail_if_no_progress with_reducible apply Kept.upd)

theorem kept_measuredOutputs {z s : State} (d : Nat) (hk : Kept z s) : Kept z (measuredOutputs d s) := by
  unfold measuredOutputs
  iterate 30 (try any_goals first | with_reducible assumption | with_reducible apply Kept.putI | with_reducible apply kept_spoilTrim | with_reducible apply Kept.each | with_reducible apply Kept.when | with_reducible apply Kept.fold | exact Eq.refl _ | decide | intro _ | (dsimp only) | split | fail_if_no_progress with_reducible apply Kept.upd)

theorem kept_activate {z s : State} (d : Nat) (hk : Kept z s) : Kept z (activate d s) := by
  unfold activate
  iterate 30 (try any_goals first | with_reducible assumption | with_reducible apply Kept.put | with_reducible apply Kept.setEst | with_reducible apply Kept.each | with_reducible apply Kept.when | with_reducible apply Kept.fold | exact Eq.refl _ | decide | intro _ | (dsimp only) | split | fail_if_no_progress with_reducible apply Kept.upd)

theorem kept_activateLink {z s : State} (d : Nat) (hk : Kept z s) : Kept z (activateLink d s) := by
  unfold activateLink
  iterate 30 (try any_goals first | with_reducible assumption | with_reducible apply kept_setLinkPair | with_reducible apply Kept.each | with_reducible apply Kept.when | with_reducible apply Kept.fold | exact Eq.refl _ | decide | intro _ | (dsimp only) | split | fail_if_no_progress with_reducible apply Kept.upd)

theorem kept_setLinkOld {z s : State} (old : Option (Nat × Int)) (hk : Kept z s) : Kept z (setLinkOld old s) := by
  unfold setLinkOld
  iterate 30 (try any_goals first | with_reducible assumption | with_reducible apply Kept.each | with_reducible apply Kept.when | with_reducible apply Kept.fold | exact Eq.refl _ | decide | intro _ | (dsimp only) | split | fail_if_no_progress with_reducible apply Kept.upd)

theorem kept_takeTurn {z s : State} (d : Nat) (hk : Kept z s) : Kept z (takeTurn d s) := by
  unfold takeTurn
  iterate 30 (try any_goals first | with_reducible assumption | with_reducible apply kept_activate | with_reducible apply Kept.setEst | with_reducible apply kept_setLinkOld | with_reducible apply Kept.each | with_reducible apply Kept.when | with_reducible apply Kept.fold | exact Eq.refl _ | decide | intro _ | (dsimp only) | split | fail_if_no_progress with_reducible apply Kept.upd)

theorem kept_nextDue {z s : State} (d : Nat) (hk : Kept z s) : Kept z (nextDue d s) := by
  unfold nextDue
  iterate 30 (try any_goals first | with_reducible assumption | with_reducible apply Kept.setEst | with_reducible apply Kept.each | with_reducible apply Kept.when | with_reducible apply Kept.fold | exact Eq.refl _ | decide | intro _ | (dsimp only) | split | fail_if_no_progress with_reducible apply Kept.upd)

theorem kept_countLink {z s : State} (hk : Kept z s) : Kept z (countLink s) := by
  unfold countLink
  iterate 30 (try any_goals first | with_reducible assumption | with_reducible apply Kept.each | with_reducible apply Kept.when | with_reducible apply Kept.fold | exact Eq.refl _ | decide | intro _ | (dsimp only) | split | fail_if_no_progress with_reducible apply Kept.upd)

theorem kept_showTrim {z s : State} (d : Nat) (hk : Kept z s) : Kept z (showTrim d s) := by
  unfold showTrim
  iterate 30 (try any_goals first | with_reducible assumption | with_reducible apply Kept.addSat | with_reducible apply Kept.putB | with_reducible apply Kept.setEst | with_reducible apply Kept.each | with_reducible apply Kept.when | with_reducible apply Kept.fold | exact Eq.refl _ | decide | intro _ | (dsimp only) | split | fail_if_no_progress with_reducible apply Kept.upd)

theorem kept_publishEstimate {z s : State} (d : Nat) (hk : Kept z s) : Kept z (publishEstimate d s) := by
  unfold publishEstimate
  iterate 30 (try any_goals first | with_reducible assumption | with_reducible apply kept_judgeFrame | with_reducible apply kept_measuredOutputs | with_reducible apply kept_modelOutputs | with_reducible apply kept_nextDue | with_reducible apply Kept.put | with_reducible apply Kept.putB | with_reducible apply Kept.putI | with_reducible apply kept_showTrim | with_reducible apply Kept.each | with_reducible apply Kept.when | with_reducible apply Kept.fold | exact Eq.refl _ | decide | intro _ | (dsimp only) | split | fail_if_no_progress with_reducible apply Kept.upd)

theorem kept_effSecondStage {z s : State} (hk : Kept z s) : Kept z (effSecondStage s) := by
  unfold effSecondStage
  iterate 30 (try any_goals first | with_reducible assumption | with_reducible apply kept_countLink | with_reducible apply kept_powerCycle | with_reducible apply kept_publishEstimate | with_reducible apply kept_takeTurn | with_reducible apply Kept.each | with_reducible apply Kept.when | with_reducible apply Kept.fold | exact Eq.refl _ | decide | intro _ | (dsimp only) | split | fail_if_no_progress with_reducible apply Kept.upd)

theorem kept_execSecondStage (s : State) : Ends s (execSecondStage s) := by
  unfold execSecondStage
  refine ends_done ?_
  have hk := Kept.refl s
  iterate 30 (try any_goals first | with_reducible assumption | with_reducible apply kept_done | with_reducible apply kept_effSecondStage | with_reducible apply Kept.each | with_reducible apply Kept.when | with_reducible apply Kept.fold | exact Eq.refl _ | decide | intro _ | (dsimp only) | split | fail_if_no_progress with_reducible apply Kept.upd)

theorem kept_trimEvents {z s : State} (clamped reset : Bool) (hk : Kept z s) : Kept z (trimEvents clamped reset s) := by
  unfold trimEvents
  iterate 30 (try any_goals first | with_reducible assumption | with_reducible apply Kept.event | with_reducible apply Kept.each | with_reducible apply Kept.when | with_reducible apply Kept.fold | exact Eq.refl _ | decide | intro _ | (dsimp only) | split | fail_if_no_progress with_reducible apply Kept.upd)

theorem kept_trimDie {z s : State} (d : Nat) (hk : Kept z s) : Kept z (trimDie d s) := by
  unfold trimDie
  iterate 30 (try any_goals first | with_reducible assumption | with_reducible apply Kept.setEst | with_reducible apply kept_trimEvents | with_reducible apply Kept.each | with_reducible apply Kept.when | with_reducible apply Kept.fold | exact Eq.refl _ | decide | intro _ | (dsimp only) | split | fail_if_no_progress with_reducible apply Kept.upd)

theorem kept_effTrimUpdate {z s : State} (hk : Kept z s) : Kept z (effTrimUpdate s) := by
  unfold effTrimUpdate
  iterate 30 (try any_goals first | with_reducible assumption | with_reducible apply Kept.addSat | with_reducible apply kept_setLinkPair | with_reducible apply kept_trimDie | with_reducible apply kept_trimEvents | with_reducible apply Kept.each | with_reducible apply Kept.when | with_reducible apply Kept.fold | exact Eq.refl _ | decide | intro _ | (dsimp only) | split | fail_if_no_progress with_reducible apply Kept.upd)

theorem kept_execTrimUpdate (s : State) : Ends s (execTrimUpdate s) := by
  unfold execTrimUpdate
  refine ends_done ?_
  have hk := Kept.refl s
  iterate 30 (try any_goals first | with_reducible assumption | with_reducible apply kept_done | with_reducible apply kept_effTrimUpdate | with_reducible apply Kept.each | with_reducible apply Kept.when | with_reducible apply Kept.fold | exact Eq.refl _ | decide | intro _ | (dsimp only) | split | fail_if_no_progress with_reducible apply Kept.upd)

theorem kept_releaseStage {z s : State} (hk : Kept z s) : Kept z (releaseStage s) := by
  unfold releaseStage
  iterate 30 (try any_goals first | with_reducible assumption | with_reducible apply Kept.put | with_reducible apply Kept.each | with_reducible apply Kept.when | with_reducible apply Kept.fold | exact Eq.refl _ | decide | intro _ | (dsimp only) | split | fail_if_no_progress with_reducible apply Kept.upd)

theorem kept_writeBank {z s : State} (pkg : List Nat) (d : Nat) (hk : Kept z s) : Kept z (writeBank pkg d s) := by
  unfold writeBank
  iterate 30 (try any_goals first | with_reducible assumption | with_reducible apply kept_sendDown | with_reducible apply Kept.setEst | with_reducible apply Kept.each | with_reducible apply Kept.when | with_reducible apply Kept.fold | exact Eq.refl _ | decide | intro _ | (dsimp only) | split | fail_if_no_progress with_reducible apply Kept.upd)

theorem kept_sealBank {z s : State} (d : Nat) (hk : Kept z s) : Kept z (sealBank d s) := by
  unfold sealBank
  iterate 30 (try any_goals first | with_reducible assumption | with_reducible apply Kept.setEst | with_reducible apply Kept.each | with_reducible apply Kept.when | with_reducible apply Kept.fold | exact Eq.refl _ | decide | intro _ | (dsimp only) | split | fail_if_no_progress with_reducible apply Kept.upd)

theorem kept_switchDie {z s : State} (d : Nat) (hk : Kept z s) : Kept z (switchDie d s) := by
  unfold switchDie
  iterate 30 (try any_goals first | with_reducible assumption | with_reducible apply Kept.put | with_reducible apply Kept.putB | with_reducible apply Kept.setEst | with_reducible apply Kept.each | with_reducible apply Kept.when | with_reducible apply Kept.fold | exact Eq.refl _ | decide | intro _ | (dsimp only) | split | fail_if_no_progress with_reducible apply Kept.upd)

theorem kept_switchLink {z s : State} (ds : List Nat) (first : Bool) (hk : Kept z s) : Kept z (switchLink ds first s) := by
  unfold switchLink
  iterate 30 (try any_goals first | with_reducible assumption | with_reducible apply kept_activateLink | with_reducible apply kept_setLinkOld | with_reducible apply Kept.each | with_reducible apply Kept.when | with_reducible apply Kept.fold | exact Eq.refl _ | decide | intro _ | (dsimp only) | split | fail_if_no_progress with_reducible apply Kept.upd)

theorem kept_effModelSwitch {z s : State} (hk : Kept z s) : Kept z (effModelSwitch s) := by
  unfold effModelSwitch
  iterate 30 (try any_goals first | with_reducible assumption | with_reducible apply kept_bumpGen | with_reducible apply kept_completeAt | with_reducible apply Kept.event | with_reducible apply Kept.put | with_reducible apply kept_releaseStage | with_reducible apply kept_sealBank | with_reducible apply kept_switchDie | with_reducible apply kept_switchLink | with_reducible apply Kept.each | with_reducible apply Kept.when | with_reducible apply Kept.fold | exact Eq.refl _ | decide | intro _ | (dsimp only) | split | fail_if_no_progress with_reducible apply Kept.upd)

theorem kept_execModelSwitch (s : State) : Ends s (execModelSwitch s) := by
  unfold execModelSwitch
  refine ends_done ?_
  have hk := Kept.refl s
  iterate 30 (try any_goals first | with_reducible assumption | with_reducible apply kept_done | with_reducible apply kept_effModelSwitch | with_reducible apply Kept.each | with_reducible apply Kept.when | with_reducible apply Kept.fold | exact Eq.refl _ | decide | intro _ | (dsimp only) | split | fail_if_no_progress with_reducible apply Kept.upd)

theorem kept_abortLoad {z s : State} (d : Nat) (hk : Kept z s) : Kept z (abortLoad d s) := by
  unfold abortLoad
  iterate 30 (try any_goals first | with_reducible assumption | with_reducible apply kept_completeAt | with_reducible apply Kept.event | with_reducible apply Kept.put | with_reducible apply Kept.each | with_reducible apply Kept.when | with_reducible apply Kept.fold | exact Eq.refl _ | decide | intro _ | (dsimp only) | split | fail_if_no_progress with_reducible apply Kept.upd)

theorem kept_touchStage {z s : State} (hk : Kept z s) : Kept z (touchStage s) := by
  unfold touchStage
  iterate 30 (try any_goals first | with_reducible assumption | with_reducible apply Kept.each | with_reducible apply Kept.when | with_reducible apply Kept.fold | exact Eq.refl _ | decide | intro _ | (dsimp only) | split | fail_if_no_progress with_reducible apply Kept.upd)

theorem kept_execStageTimeout (s : State) : Ends s (execStageTimeout s) := by
  unfold execStageTimeout
  refine ends_done ?_
  have hk := Kept.refl s
  iterate 30 (try any_goals first | with_reducible assumption | with_reducible apply kept_done | with_reducible apply Kept.event | with_reducible apply kept_releaseStage | with_reducible apply Kept.each | with_reducible apply Kept.when | with_reducible apply Kept.fold | exact Eq.refl _ | decide | intro _ | (dsimp only) | split | fail_if_no_progress with_reducible apply Kept.upd)

theorem kept_execModelOpen (port tag : Nat) (s : State) : Ends s (execModelOpen port tag s) := by
  unfold execModelOpen
  refine ends_done ?_
  have hk := Kept.refl s
  iterate 30 (try any_goals first | with_reducible assumption | with_reducible apply kept_command | with_reducible apply kept_complete | with_reducible apply kept_done | with_reducible apply Kept.put | with_reducible apply kept_touchStage | with_reducible apply Kept.wipe | with_reducible apply Kept.each | with_reducible apply Kept.when | with_reducible apply Kept.fold | exact Eq.refl _ | decide | intro _ | (dsimp only) | split | fail_if_no_progress with_reducible apply Kept.upd)

theorem kept_writeWords {z s : State} (a : Nat) (l : List Nat) (hk : Kept z s) : Kept z (writeWords a l s) := by
  induction l generalizing s a with
  | nil => exact hk
  | cons b l ih => exact ih (a + 4) (hk.writeWord32 a b)

theorem kept_execModelWrite (port tag : Nat) (s : State) : Ends s (execModelWrite port tag s) := by
  unfold execModelWrite
  refine ends_done ?_
  have hk := Kept.refl s
  iterate 30 (try any_goals first | with_reducible assumption | with_reducible apply kept_command | with_reducible apply kept_complete | with_reducible apply kept_done | with_reducible apply kept_touchStage | with_reducible apply kept_writeWords | with_reducible apply Kept.each | with_reducible apply Kept.when | with_reducible apply Kept.fold | exact Eq.refl _ | decide | intro _ | (dsimp only) | split | fail_if_no_progress with_reducible apply Kept.upd)

theorem kept_failLoad {z s : State} (fl : Flight) (st detail : Nat) (hk : Kept z s) : Kept z (failLoad fl st detail s) := by
  unfold failLoad
  iterate 30 (try any_goals first | with_reducible assumption | with_reducible apply kept_complete | with_reducible apply Kept.event | with_reducible apply Kept.put | with_reducible apply Kept.each | with_reducible apply Kept.when | with_reducible apply Kept.fold | exact Eq.refl _ | decide | intro _ | (dsimp only) | split | fail_if_no_progress with_reducible apply Kept.upd)

theorem kept_execModelLoad (port tag : Nat) (s : State) : Ends s (execModelLoad port tag s) := by
  unfold execModelLoad
  refine ends_done ?_
  have hk := Kept.refl s
  iterate 30 (try any_goals first | with_reducible assumption | with_reducible apply kept_command | with_reducible apply kept_done | with_reducible apply kept_failLoad | with_reducible apply kept_markStarted | with_reducible apply kept_touchStage | with_reducible apply kept_writeBank | with_reducible apply Kept.each | with_reducible apply Kept.when | with_reducible apply Kept.fold | exact Eq.refl _ | decide | intro _ | (dsimp only) | split | fail_if_no_progress with_reducible apply Kept.upd)

theorem kept_execModelClose (port tag : Nat) (s : State) : Ends s (execModelClose port tag s) := by
  unfold execModelClose
  refine ends_done ?_
  have hk := Kept.refl s
  iterate 30 (try any_goals first | with_reducible assumption | with_reducible apply kept_command | with_reducible apply kept_complete | with_reducible apply kept_done | with_reducible apply kept_releaseStage | with_reducible apply Kept.each | with_reducible apply Kept.when | with_reducible apply Kept.fold | exact Eq.refl _ | decide | intro _ | (dsimp only) | split | fail_if_no_progress with_reducible apply Kept.upd)

theorem kept_execModelRevert (port tag : Nat) (s : State) : Ends s (execModelRevert port tag s) := by
  unfold execModelRevert
  refine ends_done ?_
  have hk := Kept.refl s
  iterate 30 (try any_goals first | with_reducible assumption | with_reducible apply kept_command | with_reducible apply kept_done | with_reducible apply kept_markStarted | with_reducible apply Kept.each | with_reducible apply Kept.when | with_reducible apply Kept.fold | exact Eq.refl _ | decide | intro _ | (dsimp only) | split | fail_if_no_progress with_reducible apply Kept.upd)

theorem kept_execTrimReset (port tag : Nat) (s : State) : Ends s (execTrimReset port tag s) := by
  unfold execTrimReset
  refine ends_done ?_
  have hk := Kept.refl s
  iterate 30 (try any_goals first | with_reducible assumption | with_reducible apply kept_activateLink | with_reducible apply kept_command | with_reducible apply kept_complete | with_reducible apply kept_done | with_reducible apply Kept.setEst | with_reducible apply kept_setLinkOld | with_reducible apply Kept.each | with_reducible apply Kept.when | with_reducible apply Kept.fold | exact Eq.refl _ | decide | intro _ | (dsimp only) | split | fail_if_no_progress with_reducible apply Kept.upd)

end Sys2Proof.Machine
end

