-- ==== Sys2Proof/Laws/KeptC.lean ====
section
/-! SUPPORT. Sys2Proof/Laws/KeptC.lean: what each operation and each meaning of Intent.lean, Tokens.lean, Caps.lean, Links.lean, Boot.lean, Access.lean, Startup.lean, Tick.lean keeps (`Kept`), one lemma each. -/

set_option linter.unusedTactic false
set_option linter.unreachableTactic false

namespace Sys2Proof.Machine

theorem kept_forwardPacket {z s : State} (d slot word : Nat) (hk : Kept z s) : Kept z (forwardPacket d slot word s) := by
  unfold forwardPacket
  iterate 30 (try any_goals first | with_reducible assumption | with_reducible apply kept_sendMsg | with_reducible apply Kept.each | with_reducible apply Kept.when | with_reducible apply Kept.fold | exact Eq.refl _ | decide | intro _ | (dsimp only) | split | fail_if_no_progress with_reducible apply Kept.upd)

theorem kept_effIntentPacket {z s : State} (d word : Nat) (hk : Kept z s) : Kept z (effIntentPacket d word s) := by
  unfold effIntentPacket
  iterate 30 (try any_goals first | with_reducible assumption | with_reducible apply kept_agentAdd | with_reducible apply Kept.event | with_reducible apply kept_forwardPacket | with_reducible apply kept_heard | with_reducible apply Kept.setItn | with_reducible apply Kept.each | with_reducible apply Kept.when | with_reducible apply Kept.fold | exact Eq.refl _ | decide | intro _ | (dsimp only) | split | fail_if_no_progress with_reducible apply Kept.upd)

theorem kept_execIntentPacket (die word : Nat) (s : State) : Ends s (execIntentPacket die word s) := by
  unfold execIntentPacket
  refine ends_done ?_
  have hk := Kept.refl s
  iterate 30 (try any_goals first | with_reducible assumption | with_reducible apply kept_done | with_reducible apply kept_effIntentPacket | with_reducible apply Kept.each | with_reducible apply Kept.when | with_reducible apply Kept.fold | exact Eq.refl _ | decide | intro _ | (dsimp only) | split | fail_if_no_progress with_reducible apply Kept.upd)

theorem kept_takeIntent {z s : State} (d slot word : Nat) (hk : Kept z s) : Kept z (takeIntent d slot word s) := by
  unfold takeIntent
  iterate 30 (try any_goals first | with_reducible assumption | with_reducible apply Kept.setItn | with_reducible apply Kept.each | with_reducible apply Kept.when | with_reducible apply Kept.fold | exact Eq.refl _ | decide | intro _ | (dsimp only) | split | fail_if_no_progress with_reducible apply Kept.upd)

theorem kept_execIntentFrame (die lane : Nat) (bytes : List Nat) (slot : Nat) (s : State) : Ends s (execIntentFrame die lane bytes slot s) := by
  unfold execIntentFrame
  refine ends_done ?_
  have hk := Kept.refl s
  iterate 30 (try any_goals first | with_reducible assumption | with_reducible apply kept_acceptFrame | with_reducible apply kept_done | with_reducible apply kept_showEmpty | with_reducible apply kept_takeIntent | with_reducible apply Kept.each | with_reducible apply Kept.when | with_reducible apply Kept.fold | exact Eq.refl _ | decide | intro _ | (dsimp only) | split | fail_if_no_progress with_reducible apply Kept.upd)

theorem kept_effEntryExpire {z s : State} (d src : Nat) (hk : Kept z s) : Kept z (effEntryExpire d src s) := by
  unfold effEntryExpire
  iterate 30 (try any_goals first | with_reducible assumption | with_reducible apply Kept.setItn | with_reducible apply kept_showEmpty | with_reducible apply Kept.each | with_reducible apply Kept.when | with_reducible apply Kept.fold | exact Eq.refl _ | decide | intro _ | (dsimp only) | split | fail_if_no_progress with_reducible apply Kept.upd)

theorem kept_execEntryExpire (die source : Nat) (s : State) : Ends s (execEntryExpire die source s) := by
  unfold execEntryExpire
  refine ends_done ?_
  have hk := Kept.refl s
  iterate 30 (try any_goals first | with_reducible assumption | with_reducible apply kept_done | with_reducible apply kept_effEntryExpire | with_reducible apply Kept.each | with_reducible apply Kept.when | with_reducible apply Kept.fold | exact Eq.refl _ | decide | intro _ | (dsimp only) | split | fail_if_no_progress with_reducible apply Kept.upd)

theorem kept_dropAgent {z s : State} (d src : Nat) (hk : Kept z s) : Kept z (dropAgent d src s) := by
  unfold dropAgent
  iterate 30 (try any_goals first | with_reducible assumption | with_reducible apply Kept.setItn | with_reducible apply Kept.each | with_reducible apply Kept.when | with_reducible apply Kept.fold | exact Eq.refl _ | decide | intro _ | (dsimp only) | split | fail_if_no_progress with_reducible apply Kept.upd)

theorem kept_dropCore {z s : State} (d src : Nat) (hk : Kept z s) : Kept z (dropCore d src s) := by
  unfold dropCore
  iterate 30 (try any_goals first | with_reducible assumption | with_reducible apply Kept.setItn | with_reducible apply Kept.each | with_reducible apply Kept.when | with_reducible apply Kept.fold | exact Eq.refl _ | decide | intro _ | (dsimp only) | split | fail_if_no_progress with_reducible apply Kept.upd)

theorem kept_leaveMismatch {z s : State} (d : Nat) (hk : Kept z s) : Kept z (leaveMismatch d s) := by
  unfold leaveMismatch
  iterate 30 (try any_goals first | with_reducible assumption | with_reducible apply Kept.event | with_reducible apply Kept.put | with_reducible apply kept_recordDie | with_reducible apply kept_showEmpty | with_reducible apply kept_showReasons | with_reducible apply Kept.each | with_reducible apply Kept.when | with_reducible apply Kept.fold | exact Eq.refl _ | decide | intro _ | (dsimp only) | split | fail_if_no_progress with_reducible apply Kept.upd)

theorem kept_effMismatchEnter {z s : State} (d : Nat) (hk : Kept z s) : Kept z (effMismatchEnter d s) := by
  unfold effMismatchEnter
  iterate 30 (try any_goals first | with_reducible assumption | with_reducible apply Kept.event | with_reducible apply Kept.put | with_reducible apply kept_recordDie | with_reducible apply kept_showEmpty | with_reducible apply kept_showReasons | with_reducible apply Kept.each | with_reducible apply Kept.when | with_reducible apply Kept.fold | exact Eq.refl _ | decide | intro _ | (dsimp only) | split | fail_if_no_progress with_reducible apply Kept.upd)

theorem kept_execMismatchEnter (die : Nat) (s : State) : Ends s (execMismatchEnter die s) := by
  unfold execMismatchEnter
  refine ends_done ?_
  have hk := Kept.refl s
  iterate 30 (try any_goals first | with_reducible assumption | with_reducible apply kept_done | with_reducible apply kept_effMismatchEnter | with_reducible apply Kept.each | with_reducible apply Kept.when | with_reducible apply Kept.fold | exact Eq.refl _ | decide | intro _ | (dsimp only) | split | fail_if_no_progress with_reducible apply Kept.upd)

theorem kept_execMismatchExit (die : Nat) (s : State) : Ends s (execMismatchExit die s) := by
  unfold execMismatchExit
  refine ends_done ?_
  have hk := Kept.refl s
  iterate 30 (try any_goals first | with_reducible assumption | with_reducible apply kept_done | with_reducible apply kept_leaveMismatch | with_reducible apply Kept.each | with_reducible apply Kept.when | with_reducible apply Kept.fold | exact Eq.refl _ | decide | intro _ | (dsimp only) | split | fail_if_no_progress with_reducible apply Kept.upd)

theorem kept_resetIntent {z s : State} (d : Nat) (hk : Kept z s) : Kept z (resetIntent d s) := by
  unfold resetIntent
  iterate 30 (try any_goals first | with_reducible assumption | with_reducible apply kept_leaveMismatch | with_reducible apply Kept.put | with_reducible apply kept_resetReached | with_reducible apply Kept.setItn | with_reducible apply kept_showEmpty | with_reducible apply Kept.each | with_reducible apply Kept.when | with_reducible apply Kept.fold | exact Eq.refl _ | decide | intro _ | (dsimp only) | split | fail_if_no_progress with_reducible apply Kept.upd)

theorem kept_execIntentReset (port tag : Nat) (s : State) : Ends s (execIntentReset port tag s) := by
  unfold execIntentReset
  refine ends_done ?_
  have hk := Kept.refl s
  iterate 30 (try any_goals first | with_reducible assumption | with_reducible apply kept_command | with_reducible apply kept_done | with_reducible apply kept_keepResult | with_reducible apply kept_markStarted | with_reducible apply Kept.setItn | with_reducible apply Kept.each | with_reducible apply Kept.when | with_reducible apply Kept.fold | exact Eq.refl _ | decide | intro _ | (dsimp only) | split | fail_if_no_progress with_reducible apply Kept.upd)

theorem kept_judgeBlind {z s : State} (d : Nat) (hk : Kept z s) : Kept z (judgeBlind d s) := by
  unfold judgeBlind
  iterate 30 (try any_goals first | with_reducible assumption | with_reducible apply kept_agentPut | with_reducible apply Kept.event | with_reducible apply kept_faultOn | with_reducible apply kept_heard | with_reducible apply Kept.each | with_reducible apply Kept.when | with_reducible apply Kept.fold | exact Eq.refl _ | decide | intro _ | (dsimp only) | split | fail_if_no_progress with_reducible apply Kept.upd)

theorem kept_siteDetects {z s : State} (d site : Nat) (hk : Kept z s) : Kept z (siteDetects d site s) := by
  unfold siteDetects
  iterate 30 (try any_goals first | with_reducible assumption | with_reducible apply kept_agentPut | with_reducible apply kept_emit | with_reducible apply kept_heard | with_reducible apply Kept.setItn | with_reducible apply Kept.setTok | with_reducible apply kept_showReasons | with_reducible apply Kept.each | with_reducible apply Kept.when | with_reducible apply Kept.fold | exact Eq.refl _ | decide | intro _ | (dsimp only) | split | fail_if_no_progress with_reducible apply Kept.upd)

theorem kept_effDroopDetect {z s : State} (d site : Nat) (hk : Kept z s) : Kept z (effDroopDetect d site s) := by
  unfold effDroopDetect
  iterate 30 (try any_goals first | with_reducible assumption | with_reducible apply kept_siteDetects | with_reducible apply Kept.each | with_reducible apply Kept.when | with_reducible apply Kept.fold | exact Eq.refl _ | decide | intro _ | (dsimp only) | split | fail_if_no_progress with_reducible apply Kept.upd)

theorem kept_execDroopDetect (die site : Nat) (s : State) : Ends s (execDroopDetect die site s) := by
  unfold execDroopDetect
  refine ends_done ?_
  have hk := Kept.refl s
  iterate 30 (try any_goals first | with_reducible assumption | with_reducible apply kept_done | with_reducible apply kept_effDroopDetect | with_reducible apply Kept.each | with_reducible apply Kept.when | with_reducible apply Kept.fold | exact Eq.refl _ | decide | intro _ | (dsimp only) | split | fail_if_no_progress with_reducible apply Kept.upd)

theorem kept_clearSites {z s : State} (d m : Nat) (hk : Kept z s) : Kept z (clearSites d m s) := by
  unfold clearSites
  iterate 30 (try any_goals first | with_reducible assumption | with_reducible apply kept_agentPut | with_reducible apply kept_endCut | with_reducible apply Kept.setItn | with_reducible apply Kept.each | with_reducible apply Kept.when | with_reducible apply Kept.fold | exact Eq.refl _ | decide | intro _ | (dsimp only) | split | fail_if_no_progress with_reducible apply Kept.upd)

theorem kept_execDroopClear (die sites : Nat) (s : State) : Ends s (execDroopClear die sites s) := by
  unfold execDroopClear
  refine ends_done ?_
  have hk := Kept.refl s
  iterate 30 (try any_goals first | with_reducible assumption | with_reducible apply kept_clearSites | with_reducible apply kept_done | with_reducible apply Kept.each | with_reducible apply Kept.when | with_reducible apply Kept.fold | exact Eq.refl _ | decide | intro _ | (dsimp only) | split | fail_if_no_progress with_reducible apply Kept.upd)

theorem kept_takeDroop {z s : State} (d mask start stop : Nat) (hk : Kept z s) : Kept z (takeDroop d mask start stop s) := by
  unfold takeDroop
  iterate 30 (try any_goals first | with_reducible assumption | with_reducible apply Kept.addSat | with_reducible apply kept_countHealth | with_reducible apply Kept.event | with_reducible apply Kept.put | with_reducible apply kept_recordAt | with_reducible apply Kept.each | with_reducible apply Kept.when | with_reducible apply Kept.fold | exact Eq.refl _ | decide | intro _ | (dsimp only) | split | fail_if_no_progress with_reducible apply Kept.upd)

theorem kept_execDroopReport (die : Nat) (frame : Frame) (mask : Nat) (stamps : CutStamps) (s : State) : Ends s (execDroopReport die frame mask stamps s) := by
  unfold execDroopReport
  refine ends_done ?_
  have hk := Kept.refl s
  iterate 30 (try any_goals first | with_reducible assumption | with_reducible apply kept_acceptFrame | with_reducible apply kept_done | with_reducible apply kept_takeDroop | with_reducible apply Kept.each | with_reducible apply Kept.when | with_reducible apply Kept.fold | exact Eq.refl _ | decide | intro _ | (dsimp only) | split | fail_if_no_progress with_reducible apply Kept.upd)

theorem kept_releaseSite {z s : State} (d site : Nat) (hk : Kept z s) : Kept z (releaseSite d site s) := by
  unfold releaseSite
  iterate 30 (try any_goals first | with_reducible assumption | with_reducible apply kept_clearSites | with_reducible apply Kept.each | with_reducible apply Kept.when | with_reducible apply Kept.fold | exact Eq.refl _ | decide | intro _ | (dsimp only) | split | fail_if_no_progress with_reducible apply Kept.upd)

theorem kept_effSiteStuck {z s : State} (d site : Nat) (hk : Kept z s) : Kept z (effSiteStuck d site s) := by
  unfold effSiteStuck
  iterate 30 (try any_goals first | with_reducible assumption | with_reducible apply Kept.event | with_reducible apply kept_faultOn | with_reducible apply kept_judgeBlind | with_reducible apply kept_recordDie | with_reducible apply kept_releaseSite | with_reducible apply Kept.each | with_reducible apply Kept.when | with_reducible apply Kept.fold | exact Eq.refl _ | decide | intro _ | (dsimp only) | split | fail_if_no_progress with_reducible apply Kept.upd)

theorem kept_execSiteStuck (die site : Nat) (s : State) : Ends s (execSiteStuck die site s) := by
  unfold execSiteStuck
  refine ends_done ?_
  have hk := Kept.refl s
  iterate 30 (try any_goals first | with_reducible assumption | with_reducible apply kept_done | with_reducible apply kept_effSiteStuck | with_reducible apply Kept.each | with_reducible apply Kept.when | with_reducible apply Kept.fold | exact Eq.refl _ | decide | intro _ | (dsimp only) | split | fail_if_no_progress with_reducible apply Kept.upd)

theorem kept_failSite {z s : State} (d site : Nat) (hk : Kept z s) : Kept z (failSite d site s) := by
  unfold failSite
  iterate 30 (try any_goals first | with_reducible assumption | with_reducible apply kept_agentPut | with_reducible apply Kept.event | with_reducible apply kept_faultOn | with_reducible apply kept_heard | with_reducible apply kept_judgeBlind | with_reducible apply kept_recordDie | with_reducible apply kept_releaseSite | with_reducible apply Kept.each | with_reducible apply Kept.when | with_reducible apply Kept.fold | exact Eq.refl _ | decide | intro _ | (dsimp only) | split | fail_if_no_progress with_reducible apply Kept.upd)

theorem kept_execSiteTest (die failing : Nat) (s : State) : Ends s (execSiteTest die failing s) := by
  unfold execSiteTest
  refine ends_done ?_
  have hk := Kept.refl s
  iterate 30 (try any_goals first | with_reducible assumption | with_reducible apply kept_done | with_reducible apply kept_failSite | with_reducible apply Kept.each | with_reducible apply Kept.when | with_reducible apply Kept.fold | exact Eq.refl _ | decide | intro _ | (dsimp only) | split | fail_if_no_progress with_reducible apply Kept.upd)

theorem kept_execDroopSiteRestore (port tag failing : Nat) (s : State) : Ends s (execDroopSiteRestore port tag failing s) := by
  unfold execDroopSiteRestore
  refine ends_done ?_
  have hk := Kept.refl s
  iterate 30 (try any_goals first | with_reducible assumption | with_reducible apply kept_command | with_reducible apply kept_complete | with_reducible apply kept_done | with_reducible apply kept_heard | with_reducible apply kept_judgeBlind | with_reducible apply Kept.put | with_reducible apply Kept.each | with_reducible apply Kept.when | with_reducible apply Kept.fold | exact Eq.refl _ | decide | intro _ | (dsimp only) | split | fail_if_no_progress with_reducible apply Kept.upd)

theorem kept_beginForced {z s : State} (d : Nat) (f : Forced) (hk : Kept z s) : Kept z (beginForced d f s) := by
  unfold beginForced
  iterate 30 (try any_goals first | with_reducible assumption | with_reducible apply Kept.setItn | with_reducible apply kept_siteDetects | with_reducible apply Kept.each | with_reducible apply Kept.when | with_reducible apply Kept.fold | exact Eq.refl _ | decide | intro _ | (dsimp only) | split | fail_if_no_progress with_reducible apply Kept.upd)

theorem kept_execDroopForce (port tag : Nat) (s : State) : Ends s (execDroopForce port tag s) := by
  unfold execDroopForce
  refine ends_done ?_
  have hk := Kept.refl s
  iterate 30 (try any_goals first | with_reducible assumption | with_reducible apply kept_beginForced | with_reducible apply kept_command | with_reducible apply kept_done | with_reducible apply kept_heard | with_reducible apply kept_markStarted | with_reducible apply Kept.setItn | with_reducible apply Kept.each | with_reducible apply Kept.when | with_reducible apply Kept.fold | exact Eq.refl _ | decide | intro _ | (dsimp only) | split | fail_if_no_progress with_reducible apply Kept.upd)

theorem kept_feedTiles {z s : State} (d : Nat) (fed words : List Nat) (hk : Kept z s) : Kept z (feedTiles d fed words s) := by
  unfold feedTiles
  iterate 30 (try any_goals first | with_reducible assumption | with_reducible apply Kept.setTok | with_reducible apply Kept.each | with_reducible apply Kept.when | with_reducible apply Kept.fold | exact Eq.refl _ | decide | intro _ | (dsimp only) | split | fail_if_no_progress with_reducible apply Kept.upd)

theorem kept_judgeSlot {z s : State} (d : Nat) (x : SlotSum) (hk : Kept z s) : Kept z (judgeSlot d x s) := by
  unfold judgeSlot
  iterate 30 (try any_goals first | with_reducible assumption | with_reducible apply kept_agentAdd | with_reducible apply Kept.setItn | with_reducible apply Kept.each | with_reducible apply Kept.when | with_reducible apply Kept.fold | exact Eq.refl _ | decide | intro _ | (dsimp only) | split | fail_if_no_progress with_reducible apply Kept.upd)

theorem kept_showSlot {z s : State} (d : Nat) (x : SlotSum) (rise : Nat) (hk : Kept z s) : Kept z (showSlot d x rise s) := by
  unfold showSlot
  iterate 30 (try any_goals first | with_reducible assumption | with_reducible apply Kept.put | with_reducible apply Kept.putB | with_reducible apply Kept.each | with_reducible apply Kept.when | with_reducible apply Kept.fold | exact Eq.refl _ | decide | intro _ | (dsimp only) | split | fail_if_no_progress with_reducible apply Kept.upd)

theorem kept_reportSlot {z s : State} (d real fill : Nat) (late : Bool) (hk : Kept z s) : Kept z (reportSlot d real fill late s) := by
  unfold reportSlot
  iterate 30 (try any_goals first | with_reducible assumption | with_reducible apply kept_sendUp | with_reducible apply Kept.each | with_reducible apply Kept.when | with_reducible apply Kept.fold | exact Eq.refl _ | decide | intro _ | (dsimp only) | split | fail_if_no_progress with_reducible apply Kept.upd)

theorem kept_closeSlot {z s : State} (d : Nat) (x : SlotSum) (hk : Kept z s) : Kept z (closeSlot d x s) := by
  unfold closeSlot
  iterate 30 (try any_goals first | with_reducible assumption | with_reducible apply kept_agentAdd | with_reducible apply kept_emit | with_reducible apply Kept.event | with_reducible apply kept_heard | with_reducible apply kept_judgeSlot | with_reducible apply kept_reportSlot | with_reducible apply kept_setReasons | with_reducible apply Kept.setTok | with_reducible apply kept_showSlot | with_reducible apply Kept.each | with_reducible apply Kept.when | with_reducible apply Kept.fold | exact Eq.refl _ | decide | intro _ | (dsimp only) | split | fail_if_no_progress with_reducible apply Kept.upd)

theorem kept_tellStep {z s : State} (d tag : Nat) (hk : Kept z s) : Kept z (tellStep d tag s) := by
  unfold tellStep
  iterate 30 (try any_goals first | with_reducible assumption | with_reducible apply Kept.each | with_reducible apply Kept.when | with_reducible apply Kept.fold | exact Eq.refl _ | decide | intro _ | (dsimp only) | split | fail_if_no_progress with_reducible apply Kept.upd)

theorem kept_stepBoundary {z s : State} (d : Nat) (hk : Kept z s) : Kept z (stepBoundary d s) := by
  unfold stepBoundary
  iterate 30 (try any_goals first | with_reducible assumption | with_reducible apply kept_agentPut | with_reducible apply kept_heard | with_reducible apply Kept.setItn | with_reducible apply kept_tellStep | with_reducible apply Kept.each | with_reducible apply Kept.when | with_reducible apply Kept.fold | exact Eq.refl _ | decide | intro _ | (dsimp only) | split | fail_if_no_progress with_reducible apply Kept.upd)

theorem kept_showSteps {z s : State} (d : Nat) (hk : Kept z s) : Kept z (showSteps d s) := by
  unfold showSteps
  iterate 30 (try any_goals first | with_reducible assumption | with_reducible apply Kept.put | with_reducible apply Kept.putB | with_reducible apply Kept.each | with_reducible apply Kept.when | with_reducible apply Kept.fold | exact Eq.refl _ | decide | intro _ | (dsimp only) | split | fail_if_no_progress with_reducible apply Kept.upd)

theorem kept_trackSteps {z s : State} (d : Nat) (hk : Kept z s) : Kept z (trackSteps d s) := by
  unfold trackSteps
  iterate 30 (try any_goals first | with_reducible assumption | with_reducible apply kept_heard | with_reducible apply kept_resetIntent | with_reducible apply Kept.setItn | with_reducible apply kept_showSteps | with_reducible apply kept_stepBoundary | with_reducible apply Kept.each | with_reducible apply Kept.when | with_reducible apply Kept.fold | exact Eq.refl _ | decide | intro _ | (dsimp only) | split | fail_if_no_progress with_reducible apply Kept.upd)

theorem kept_openSlot {z s : State} (d : Nat) (hk : Kept z s) : Kept z (openSlot d s) := by
  unfold openSlot
  iterate 30 (try any_goals first | with_reducible assumption | with_reducible apply Kept.put | with_reducible apply Kept.putB | with_reducible apply Kept.setTok | with_reducible apply kept_showEmpty | with_reducible apply Kept.each | with_reducible apply Kept.when | with_reducible apply Kept.fold | exact Eq.refl _ | decide | intro _ | (dsimp only) | split | fail_if_no_progress with_reducible apply Kept.upd)

theorem kept_enterG {z s : State} (n : Nat) (hk : Kept z s) : Kept z (enterG n s) := by
  unfold enterG
  iterate 30 (try any_goals first | with_reducible assumption | with_reducible apply Kept.put | with_reducible apply kept_record | with_reducible apply kept_setBoot | with_reducible apply Kept.each | with_reducible apply Kept.when | with_reducible apply Kept.fold | exact Eq.refl _ | decide | intro _ | (dsimp only) | split | fail_if_no_progress with_reducible apply Kept.upd)

theorem kept_gateClock {z s : State} (on : Bool) (d : Nat) (hk : Kept z s) : Kept z (gateClock on d s) := by
  unfold gateClock
  iterate 30 (try any_goals first | with_reducible assumption | with_reducible apply kept_emit | with_reducible apply kept_setPins | with_reducible apply Kept.each | with_reducible apply Kept.when | with_reducible apply Kept.fold | exact Eq.refl _ | decide | intro _ | (dsimp only) | split | fail_if_no_progress with_reducible apply Kept.upd)

theorem kept_shedAtOnce {z s : State} (r : Nat) (hk : Kept z s) : Kept z (shedAtOnce r s) := by
  unfold shedAtOnce
  iterate 30 (try any_goals first | with_reducible assumption | with_reducible apply kept_startShed | with_reducible apply Kept.each | with_reducible apply Kept.when | with_reducible apply Kept.fold | exact Eq.refl _ | decide | intro _ | (dsimp only) | split | fail_if_no_progress with_reducible apply Kept.upd)

theorem kept_settleChange {z s : State} (hk : Kept z s) : Kept z (settleChange s) := by
  unfold settleChange
  iterate 30 (try any_goals first | with_reducible assumption | with_reducible apply kept_enterG | with_reducible apply kept_gateClock | with_reducible apply kept_setBoot | with_reducible apply kept_shedAtOnce | with_reducible apply Kept.each | with_reducible apply Kept.when | with_reducible apply Kept.fold | exact Eq.refl _ | decide | intro _ | (dsimp only) | split | fail_if_no_progress with_reducible apply Kept.upd)

theorem kept_effAgentSlot {z s : State} (d : Nat) (work : SlotWork) (cuts : List Nat) (hk : Kept z s) : Kept z (effAgentSlot d work cuts s) := by
  unfold effAgentSlot
  iterate 30 (try any_goals first | with_reducible assumption | with_reducible apply kept_closeSlot | with_reducible apply kept_feedTiles | with_reducible apply kept_openSlot | with_reducible apply Kept.setEst | with_reducible apply kept_settleChange | with_reducible apply kept_trackSteps | with_reducible apply Kept.each | with_reducible apply Kept.when | with_reducible apply Kept.fold | exact Eq.refl _ | decide | intro _ | (dsimp only) | split | fail_if_no_progress with_reducible apply Kept.upd)

theorem kept_execAgentSlot (die : Nat) (work : SlotWork) (cut : CutPoint) (s : State) : Ends s (execAgentSlot die work cut s) := by
  unfold execAgentSlot
  refine ends_done ?_
  have hk := Kept.refl s
  iterate 30 (try any_goals first | with_reducible assumption | with_reducible apply kept_done | with_reducible apply kept_effAgentSlot | with_reducible apply Kept.each | with_reducible apply Kept.when | with_reducible apply Kept.fold | exact Eq.refl _ | decide | intro _ | (dsimp only) | split | fail_if_no_progress with_reducible apply Kept.upd)

theorem kept_effEpisodeEnd {z s : State} (d : Nat) (hk : Kept z s) : Kept z (effEpisodeEnd d s) := by
  unfold effEpisodeEnd
  iterate 30 (try any_goals first | with_reducible assumption | with_reducible apply Kept.put | with_reducible apply Kept.setTok | with_reducible apply Kept.each | with_reducible apply Kept.when | with_reducible apply Kept.fold | exact Eq.refl _ | decide | intro _ | (dsimp only) | split | fail_if_no_progress with_reducible apply Kept.upd)

theorem kept_execEpisodeEnd (die : Nat) (s : State) : Ends s (execEpisodeEnd die s) := by
  unfold execEpisodeEnd
  refine ends_done ?_
  have hk := Kept.refl s
  iterate 30 (try any_goals first | with_reducible assumption | with_reducible apply kept_done | with_reducible apply kept_effEpisodeEnd | with_reducible apply Kept.each | with_reducible apply Kept.when | with_reducible apply Kept.fold | exact Eq.refl _ | decide | intro _ | (dsimp only) | split | fail_if_no_progress with_reducible apply Kept.upd)

theorem kept_giveShare {z s : State} (code : Nat) (b : Bid) (hk : Kept z s) : Kept z (giveShare code b s) := by
  unfold giveShare
  iterate 30 (try any_goals first | with_reducible assumption | with_reducible apply Kept.addSat | with_reducible apply Kept.event | with_reducible apply kept_sendDown | with_reducible apply Kept.setTok | with_reducible apply Kept.each | with_reducible apply Kept.when | with_reducible apply Kept.fold | exact Eq.refl _ | decide | intro _ | (dsimp only) | split | fail_if_no_progress with_reducible apply Kept.upd)

theorem kept_bucketSlot {z s : State} (d : Nat) (hk : Kept z s) : Kept z (bucketSlot d s) := by
  unfold bucketSlot
  iterate 30 (try any_goals first | with_reducible assumption | with_reducible apply Kept.put | with_reducible apply Kept.putB | with_reducible apply Kept.putI | with_reducible apply Kept.setCap | with_reducible apply Kept.each | with_reducible apply Kept.when | with_reducible apply Kept.fold | exact Eq.refl _ | decide | intro _ | (dsimp only) | split | fail_if_no_progress with_reducible apply Kept.upd)

theorem kept_effPackageArbitration {z s : State} (slotPs : Nat) (hk : Kept z s) : Kept z (effPackageArbitration slotPs s) := by
  unfold effPackageArbitration
  iterate 30 (try any_goals first | with_reducible assumption | with_reducible apply Kept.addSat | with_reducible apply Kept.addWrap | with_reducible apply kept_bucketSlot | with_reducible apply kept_emit | with_reducible apply Kept.event | with_reducible apply kept_giveShare | with_reducible apply Kept.putI | with_reducible apply Kept.each | with_reducible apply Kept.when | with_reducible apply Kept.fold | exact Eq.refl _ | decide | intro _ | (dsimp only) | split | fail_if_no_progress with_reducible apply Kept.upd)

theorem kept_execPackageArbitration (slotPs : Nat) (s : State) : Ends s (execPackageArbitration slotPs s) := by
  unfold execPackageArbitration
  refine ends_done ?_
  have hk := Kept.refl s
  iterate 30 (try any_goals first | with_reducible assumption | with_reducible apply kept_done | with_reducible apply kept_effPackageArbitration | with_reducible apply Kept.each | with_reducible apply Kept.when | with_reducible apply Kept.fold | exact Eq.refl _ | decide | intro _ | (dsimp only) | split | fail_if_no_progress with_reducible apply Kept.upd)

theorem kept_takeBudget {z s : State} (d kind a b : Nat) (hk : Kept z s) : Kept z (takeBudget d kind a b s) := by
  unfold takeBudget
  iterate 30 (try any_goals first | with_reducible assumption | with_reducible apply Kept.setTok | with_reducible apply Kept.each | with_reducible apply Kept.when | with_reducible apply Kept.fold | exact Eq.refl _ | decide | intro _ | (dsimp only) | split | fail_if_no_progress with_reducible apply Kept.upd)

theorem kept_execBudgetFrame (die : Nat) (frame : Frame) (kind a b : Nat) (s : State) : Ends s (execBudgetFrame die frame kind a b s) := by
  unfold execBudgetFrame
  refine ends_done ?_
  have hk := Kept.refl s
  iterate 30 (try any_goals first | with_reducible assumption | with_reducible apply kept_acceptFrame | with_reducible apply kept_done | with_reducible apply kept_takeBudget | with_reducible apply Kept.each | with_reducible apply Kept.when | with_reducible apply Kept.fold | exact Eq.refl _ | decide | intro _ | (dsimp only) | split | fail_if_no_progress with_reducible apply Kept.upd)

theorem kept_execThresholdFrame (die : Nat) (frame : Frame) (threshold : Nat) (s : State) : Ends s (execThresholdFrame die frame threshold s) := by
  unfold execThresholdFrame
  refine ends_done ?_
  have hk := Kept.refl s
  iterate 30 (try any_goals first | with_reducible assumption | with_reducible apply kept_acceptFrame | with_reducible apply kept_done | with_reducible apply Kept.setItn | with_reducible apply Kept.each | with_reducible apply Kept.when | with_reducible apply Kept.fold | exact Eq.refl _ | decide | intro _ | (dsimp only) | split | fail_if_no_progress with_reducible apply Kept.upd)

theorem kept_chargeFiller {z s : State} (d filler : Nat) (hk : Kept z s) : Kept z (chargeFiller d filler s) := by
  unfold chargeFiller
  iterate 30 (try any_goals first | with_reducible assumption | with_reducible apply Kept.addWrap | with_reducible apply Kept.put | with_reducible apply Kept.setTok | with_reducible apply Kept.each | with_reducible apply Kept.when | with_reducible apply Kept.fold | exact Eq.refl _ | decide | intro _ | (dsimp only) | split | fail_if_no_progress with_reducible apply Kept.upd)

theorem kept_takeTokens {z s : State} (d real filler : Nat) (late : Bool) (hk : Kept z s) : Kept z (takeTokens d real filler late s) := by
  unfold takeTokens
  iterate 30 (try any_goals first | with_reducible assumption | with_reducible apply kept_chargeFiller | with_reducible apply Kept.event | with_reducible apply Kept.setTok | with_reducible apply Kept.each | with_reducible apply Kept.when | with_reducible apply Kept.fold | exact Eq.refl _ | decide | intro _ | (dsimp only) | split | fail_if_no_progress with_reducible apply Kept.upd)

theorem kept_execTokensUsedFrame (die : Nat) (frame : Frame) (real filler : Nat) (late : Bool) (s : State) : Ends s (execTokensUsedFrame die frame real filler late s) := by
  unfold execTokensUsedFrame
  refine ends_done ?_
  have hk := Kept.refl s
  iterate 30 (try any_goals first | with_reducible assumption | with_reducible apply kept_acceptFrame | with_reducible apply kept_done | with_reducible apply kept_takeTokens | with_reducible apply Kept.each | with_reducible apply Kept.when | with_reducible apply Kept.fold | exact Eq.refl _ | decide | intro _ | (dsimp only) | split | fail_if_no_progress with_reducible apply Kept.upd)

theorem kept_effWarmTimeout {z s : State} (hk : Kept z s) : Kept z (effWarmTimeout s) := by
  unfold effWarmTimeout
  iterate 30 (try any_goals first | with_reducible assumption | with_reducible apply Kept.event | with_reducible apply kept_faultOn | with_reducible apply Kept.put | with_reducible apply kept_record | with_reducible apply Kept.each | with_reducible apply Kept.when | with_reducible apply Kept.fold | exact Eq.refl _ | decide | intro _ | (dsimp only) | split | fail_if_no_progress with_reducible apply Kept.upd)

theorem kept_execWarmTimeout (s : State) : Ends s (execWarmTimeout s) := by
  unfold execWarmTimeout
  refine ends_done ?_
  have hk := Kept.refl s
  iterate 30 (try any_goals first | with_reducible assumption | with_reducible apply kept_done | with_reducible apply kept_effWarmTimeout | with_reducible apply Kept.each | with_reducible apply Kept.when | with_reducible apply Kept.fold | exact Eq.refl _ | decide | intro _ | (dsimp only) | split | fail_if_no_progress with_reducible apply Kept.upd)

theorem kept_execWarmupEnd (port tag : Nat) (s : State) : Ends s (execWarmupEnd port tag s) := by
  unfold execWarmupEnd
  refine ends_done ?_
  have hk := Kept.refl s
  iterate 30 (try any_goals first | with_reducible assumption | with_reducible apply kept_command | with_reducible apply kept_complete | with_reducible apply kept_done | with_reducible apply Kept.event | with_reducible apply Kept.put | with_reducible apply kept_record | with_reducible apply Kept.each | with_reducible apply Kept.when | with_reducible apply Kept.fold | exact Eq.refl _ | decide | intro _ | (dsimp only) | split | fail_if_no_progress with_reducible apply Kept.upd)

theorem kept_setCapp {z s : State} (v : CapP) (hk : Kept z s) : Kept z (setCapp v s) := by
  unfold setCapp
  iterate 30 (try any_goals first | with_reducible assumption | with_reducible apply Kept.each | with_reducible apply Kept.when | with_reducible apply Kept.fold | exact Eq.refl _ | decide | intro _ | (dsimp only) | split | fail_if_no_progress with_reducible apply Kept.upd)

theorem kept_effBrownEnter {z s : State} (hk : Kept z s) : Kept z (effBrownEnter s) := by
  unfold effBrownEnter
  iterate 30 (try any_goals first | with_reducible assumption | with_reducible apply Kept.addSat | with_reducible apply kept_countHealth | with_reducible apply Kept.event | with_reducible apply kept_notifyAll | with_reducible apply Kept.put | with_reducible apply kept_record | with_reducible apply kept_setCapp | with_reducible apply Kept.each | with_reducible apply Kept.when | with_reducible apply Kept.fold | exact Eq.refl _ | decide | intro _ | (dsimp only) | split | fail_if_no_progress with_reducible apply Kept.upd)

theorem kept_execBrownEnter (s : State) : Ends s (execBrownEnter s) := by
  unfold execBrownEnter
  refine ends_done ?_
  have hk := Kept.refl s
  iterate 30 (try any_goals first | with_reducible assumption | with_reducible apply kept_done | with_reducible apply kept_effBrownEnter | with_reducible apply Kept.each | with_reducible apply Kept.when | with_reducible apply Kept.fold | exact Eq.refl _ | decide | intro _ | (dsimp only) | split | fail_if_no_progress with_reducible apply Kept.upd)

theorem kept_effBrownExit {z s : State} (hk : Kept z s) : Kept z (effBrownExit s) := by
  unfold effBrownExit
  iterate 30 (try any_goals first | with_reducible assumption | with_reducible apply Kept.event | with_reducible apply kept_faultOff | with_reducible apply Kept.put | with_reducible apply kept_record | with_reducible apply kept_setCapp | with_reducible apply Kept.each | with_reducible apply Kept.when | with_reducible apply Kept.fold | exact Eq.refl _ | decide | intro _ | (dsimp only) | split | fail_if_no_progress with_reducible apply Kept.upd)

theorem kept_execBrownExit (s : State) : Ends s (execBrownExit s) := by
  unfold execBrownExit
  refine ends_done ?_
  have hk := Kept.refl s
  iterate 30 (try any_goals first | with_reducible assumption | with_reducible apply kept_done | with_reducible apply kept_effBrownExit | with_reducible apply Kept.each | with_reducible apply Kept.when | with_reducible apply Kept.fold | exact Eq.refl _ | decide | intro _ | (dsimp only) | split | fail_if_no_progress with_reducible apply Kept.upd)

theorem kept_effBrownExpired {z s : State} (hk : Kept z s) : Kept z (effBrownExpired s) := by
  unfold effBrownExpired
  iterate 30 (try any_goals first | with_reducible assumption | with_reducible apply Kept.event | with_reducible apply kept_faultOn | with_reducible apply Kept.put | with_reducible apply kept_record | with_reducible apply kept_setCapp | with_reducible apply Kept.each | with_reducible apply Kept.when | with_reducible apply Kept.fold | exact Eq.refl _ | decide | intro _ | (dsimp only) | split | fail_if_no_progress with_reducible apply Kept.upd)

theorem kept_execBrownExpired (s : State) : Ends s (execBrownExpired s) := by
  unfold execBrownExpired
  refine ends_done ?_
  have hk := Kept.refl s
  iterate 30 (try any_goals first | with_reducible assumption | with_reducible apply kept_done | with_reducible apply kept_effBrownExpired | with_reducible apply Kept.each | with_reducible apply Kept.when | with_reducible apply Kept.fold | exact Eq.refl _ | decide | intro _ | (dsimp only) | split | fail_if_no_progress with_reducible apply Kept.upd)

theorem kept_effBrownReset {z s : State} (hk : Kept z s) : Kept z (effBrownReset s) := by
  unfold effBrownReset
  iterate 30 (try any_goals first | with_reducible assumption | with_reducible apply Kept.event | with_reducible apply kept_record | with_reducible apply Kept.each | with_reducible apply Kept.when | with_reducible apply Kept.fold | exact Eq.refl _ | decide | intro _ | (dsimp only) | split | fail_if_no_progress with_reducible apply Kept.upd)

theorem kept_execBrownReset (s : State) : Ends s (execBrownReset s) := by
  unfold execBrownReset
  refine ends_done ?_
  have hk := Kept.refl s
  iterate 30 (try any_goals first | with_reducible assumption | with_reducible apply kept_done | with_reducible apply kept_effBrownReset | with_reducible apply Kept.each | with_reducible apply Kept.when | with_reducible apply Kept.fold | exact Eq.refl _ | decide | intro _ | (dsimp only) | split | fail_if_no_progress with_reducible apply Kept.upd)

theorem kept_setChange {z s : State} (d c : Nat) (hk : Kept z s) : Kept z (setChange d c s) := by
  unfold setChange
  iterate 30 (try any_goals first | with_reducible assumption | with_reducible apply Kept.setCap | with_reducible apply Kept.each | with_reducible apply Kept.when | with_reducible apply Kept.fold | exact Eq.refl _ | decide | intro _ | (dsimp only) | split | fail_if_no_progress with_reducible apply Kept.upd)

theorem kept_sendFrequency {z s : State} (d c : Nat) (hk : Kept z s) : Kept z (sendFrequency d c s) := by
  unfold sendFrequency
  iterate 30 (try any_goals first | with_reducible assumption | with_reducible apply kept_sendMsg | with_reducible apply kept_setChange | with_reducible apply Kept.each | with_reducible apply Kept.when | with_reducible apply Kept.fold | exact Eq.refl _ | decide | intro _ | (dsimp only) | split | fail_if_no_progress with_reducible apply Kept.upd)

theorem kept_beginChange {z s : State} (d : Nat) (hk : Kept z s) : Kept z (beginChange d s) := by
  unfold beginChange
  iterate 30 (try any_goals first | with_reducible assumption | with_reducible apply Kept.put | with_reducible apply kept_sendFrequency | with_reducible apply kept_setChange | with_reducible apply Kept.each | with_reducible apply Kept.when | with_reducible apply Kept.fold | exact Eq.refl _ | decide | intro _ | (dsimp only) | split | fail_if_no_progress with_reducible apply Kept.upd)

theorem kept_startChange {z s : State} (d op : Nat) (up : Bool) (hk : Kept z s) : Kept z (startChange d op up s) := by
  unfold startChange
  iterate 30 (try any_goals first | with_reducible assumption | with_reducible apply kept_beginChange | with_reducible apply Kept.put | with_reducible apply kept_setChange | with_reducible apply Kept.each | with_reducible apply Kept.when | with_reducible apply Kept.fold | exact Eq.refl _ | decide | intro _ | (dsimp only) | split | fail_if_no_progress with_reducible apply Kept.upd)

theorem kept_effOpFrequencySend {z s : State} (d : Nat) (hk : Kept z s) : Kept z (effOpFrequencySend d s) := by
  unfold effOpFrequencySend
  iterate 30 (try any_goals first | with_reducible assumption | with_reducible apply kept_sendFrequency | with_reducible apply Kept.each | with_reducible apply Kept.when | with_reducible apply Kept.fold | exact Eq.refl _ | decide | intro _ | (dsimp only) | split | fail_if_no_progress with_reducible apply Kept.upd)

theorem kept_execOpFrequencySend (die : Nat) (s : State) : Ends s (execOpFrequencySend die s) := by
  unfold execOpFrequencySend
  refine ends_done ?_
  have hk := Kept.refl s
  iterate 30 (try any_goals first | with_reducible assumption | with_reducible apply kept_done | with_reducible apply kept_effOpFrequencySend | with_reducible apply Kept.each | with_reducible apply Kept.when | with_reducible apply Kept.fold | exact Eq.refl _ | decide | intro _ | (dsimp only) | split | fail_if_no_progress with_reducible apply Kept.upd)

theorem kept_decideOp {z s : State} (d : Nat) (hk : Kept z s) : Kept z (decideOp d s) := by
  unfold decideOp
  iterate 30 (try any_goals first | with_reducible assumption | with_reducible apply Kept.setCap | with_reducible apply kept_showReasons | with_reducible apply kept_startChange | with_reducible apply Kept.each | with_reducible apply Kept.when | with_reducible apply Kept.fold | exact Eq.refl _ | decide | intro _ | (dsimp only) | split | fail_if_no_progress with_reducible apply Kept.upd)

theorem kept_takeOwed {z s : State} (d : Nat) (hk : Kept z s) : Kept z (takeOwed d s) := by
  unfold takeOwed
  iterate 30 (try any_goals first | with_reducible assumption | with_reducible apply kept_decideOp | with_reducible apply Kept.setCap | with_reducible apply Kept.each | with_reducible apply Kept.when | with_reducible apply Kept.fold | exact Eq.refl _ | decide | intro _ | (dsimp only) | split | fail_if_no_progress with_reducible apply Kept.upd)

theorem kept_effOpChange {z s : State} (d : Nat) (hk : Kept z s) : Kept z (effOpChange d s) := by
  unfold effOpChange
  iterate 30 (try any_goals first | with_reducible assumption | with_reducible apply Kept.event | with_reducible apply Kept.put | with_reducible apply kept_setChange | with_reducible apply kept_showReasons | with_reducible apply kept_takeOwed | with_reducible apply Kept.each | with_reducible apply Kept.when | with_reducible apply Kept.fold | exact Eq.refl _ | decide | intro _ | (dsimp only) | split | fail_if_no_progress with_reducible apply Kept.upd)

theorem kept_execOpChange (report : Arrival) (s : State) : Ends s (execOpChange report s) := by
  unfold execOpChange
  refine ends_done ?_
  have hk := Kept.refl s
  iterate 30 (try any_goals first | with_reducible assumption | with_reducible apply kept_acceptFrame | with_reducible apply kept_done | with_reducible apply kept_effOpChange | with_reducible apply Kept.each | with_reducible apply Kept.when | with_reducible apply Kept.fold | exact Eq.refl _ | decide | intro _ | (dsimp only) | split | fail_if_no_progress with_reducible apply Kept.upd)

theorem kept_divideEnergy {z s : State} (d : Nat) (hk : Kept z s) : Kept z (divideEnergy d s) := by
  unfold divideEnergy
  iterate 30 (try any_goals first | with_reducible assumption | with_reducible apply Kept.addWrap | with_reducible apply Kept.setCap | with_reducible apply Kept.each | with_reducible apply Kept.when | with_reducible apply Kept.fold | exact Eq.refl _ | decide | intro _ | (dsimp only) | split | fail_if_no_progress with_reducible apply Kept.upd)

theorem kept_tickOp {z s : State} (d : Nat) (hk : Kept z s) : Kept z (tickOp d s) := by
  unfold tickOp
  iterate 30 (try any_goals first | with_reducible assumption | with_reducible apply kept_beginChange | with_reducible apply kept_decideOp | with_reducible apply Kept.setCap | with_reducible apply Kept.each | with_reducible apply Kept.when | with_reducible apply Kept.fold | exact Eq.refl _ | decide | intro _ | (dsimp only) | split | fail_if_no_progress with_reducible apply Kept.upd)

theorem kept_formMeans {z s : State} (hk : Kept z s) : Kept z (formMeans s) := by
  unfold formMeans
  iterate 30 (try any_goals first | with_reducible assumption | with_reducible apply Kept.setCap | with_reducible apply kept_setCapp | with_reducible apply Kept.each | with_reducible apply Kept.when | with_reducible apply Kept.fold | exact Eq.refl _ | decide | intro _ | (dsimp only) | split | fail_if_no_progress with_reducible apply Kept.upd)

theorem kept_formAverage {z s : State} (hk : Kept z s) : Kept z (formAverage s) := by
  unfold formAverage
  iterate 30 (try any_goals first | with_reducible assumption | with_reducible apply Kept.put | with_reducible apply kept_setCapp | with_reducible apply Kept.each | with_reducible apply Kept.when | with_reducible apply Kept.fold | exact Eq.refl _ | decide | intro _ | (dsimp only) | split | fail_if_no_progress with_reducible apply Kept.upd)

theorem kept_judgeCap {z s : State} (scope d : Nat) (hk : Kept z s) : Kept z (judgeCap scope d s) := by
  unfold judgeCap
  iterate 30 (try any_goals first | with_reducible assumption | with_reducible apply Kept.event | with_reducible apply kept_record | with_reducible apply kept_recordDie | with_reducible apply kept_setCapp | with_reducible apply Kept.each | with_reducible apply Kept.when | with_reducible apply Kept.fold | exact Eq.refl _ | decide | intro _ | (dsimp only) | split | fail_if_no_progress with_reducible apply Kept.upd)

theorem kept_effAverageUpdate {z s : State} (hk : Kept z s) : Kept z (effAverageUpdate s) := by
  unfold effAverageUpdate
  iterate 30 (try any_goals first | with_reducible assumption | with_reducible apply kept_divideEnergy | with_reducible apply kept_formAverage | with_reducible apply kept_formMeans | with_reducible apply kept_judgeCap | with_reducible apply kept_setCapp | with_reducible apply Kept.setTok | with_reducible apply kept_showReasons | with_reducible apply kept_tickOp | with_reducible apply Kept.each | with_reducible apply Kept.when | with_reducible apply Kept.fold | exact Eq.refl _ | decide | intro _ | (dsimp only) | split | fail_if_no_progress with_reducible apply Kept.upd)

theorem kept_execAverageUpdate (s : State) : Ends s (execAverageUpdate s) := by
  unfold execAverageUpdate
  refine ends_done ?_
  have hk := Kept.refl s
  iterate 30 (try any_goals first | with_reducible assumption | with_reducible apply kept_done | with_reducible apply kept_effAverageUpdate | with_reducible apply Kept.each | with_reducible apply Kept.when | with_reducible apply Kept.fold | exact Eq.refl _ | decide | intro _ | (dsimp only) | split | fail_if_no_progress with_reducible apply Kept.upd)

theorem kept_execCapSetDone (s : State) : Ends s (execCapSetDone s) := by
  unfold execCapSetDone
  refine ends_done ?_
  have hk := Kept.refl s
  iterate 30 (try any_goals first | with_reducible assumption | with_reducible apply kept_completeAt | with_reducible apply kept_done | with_reducible apply kept_setCapp | with_reducible apply Kept.each | with_reducible apply Kept.when | with_reducible apply Kept.fold | exact Eq.refl _ | decide | intro _ | (dsimp only) | split | fail_if_no_progress with_reducible apply Kept.upd)

theorem kept_applyCap {z s : State} (scope d v port tag : Nat) (hk : Kept z s) : Kept z (applyCap scope d v port tag s) := by
  unfold applyCap
  iterate 30 (try any_goals first | with_reducible assumption | with_reducible apply kept_completeAt | with_reducible apply kept_setCapp | with_reducible apply Kept.each | with_reducible apply Kept.when | with_reducible apply Kept.fold | exact Eq.refl _ | decide | intro _ | (dsimp only) | split | fail_if_no_progress with_reducible apply Kept.upd)

theorem kept_installTable {z s : State} (w : List Nat) (n d : Nat) (hk : Kept z s) : Kept z (installTable w n d s) := by
  unfold installTable
  iterate 30 (try any_goals first | with_reducible assumption | with_reducible apply Kept.put | with_reducible apply kept_startChange | with_reducible apply Kept.each | with_reducible apply Kept.when | with_reducible apply Kept.fold | exact Eq.refl _ | decide | intro _ | (dsimp only) | split | fail_if_no_progress with_reducible apply Kept.upd)

theorem kept_applyChange {z s : State} (c : Deferred) (hk : Kept z s) : Kept z (applyChange c s) := by
  unfold applyChange
  iterate 30 (try any_goals first | with_reducible assumption | with_reducible apply kept_applyCap | with_reducible apply kept_bumpGen | with_reducible apply kept_completeAt | with_reducible apply kept_installTable | with_reducible apply Kept.put | with_reducible apply kept_setRing | with_reducible apply Kept.each | with_reducible apply Kept.when | with_reducible apply Kept.fold | exact Eq.refl _ | decide | intro _ | (dsimp only) | split | fail_if_no_progress with_reducible apply Kept.upd)

theorem kept_acceptChange {z s : State} (c : Deferred) (hk : Kept z s) : Kept z (acceptChange c s) := by
  unfold acceptChange
  iterate 30 (try any_goals first | with_reducible assumption | with_reducible apply kept_applyChange | with_reducible apply kept_completeAt | with_reducible apply kept_markStarted | with_reducible apply Kept.put | with_reducible apply kept_setCapp | with_reducible apply Kept.each | with_reducible apply Kept.when | with_reducible apply Kept.fold | exact Eq.refl _ | decide | intro _ | (dsimp only) | split | fail_if_no_progress with_reducible apply Kept.upd)

theorem kept_releaseChanges {z s : State} (t : Deferred → Bool) (hk : Kept z s) : Kept z (releaseChanges t s) := by
  unfold releaseChanges
  iterate 30 (try any_goals first | with_reducible assumption | with_reducible apply kept_applyChange | with_reducible apply kept_setCapp | with_reducible apply Kept.each | with_reducible apply Kept.when | with_reducible apply Kept.fold | exact Eq.refl _ | decide | intro _ | (dsimp only) | split | fail_if_no_progress with_reducible apply Kept.upd)

theorem kept_execDeferredApply (s : State) : Ends s (execDeferredApply s) := by
  unfold execDeferredApply
  refine ends_done ?_
  have hk := Kept.refl s
  iterate 30 (try any_goals first | with_reducible assumption | with_reducible apply kept_done | with_reducible apply kept_releaseChanges | with_reducible apply Kept.each | with_reducible apply Kept.when | with_reducible apply Kept.fold | exact Eq.refl _ | decide | intro _ | (dsimp only) | split | fail_if_no_progress with_reducible apply Kept.upd)

theorem kept_effDeferMax {z s : State} (hk : Kept z s) : Kept z (effDeferMax s) := by
  unfold effDeferMax
  iterate 30 (try any_goals first | with_reducible assumption | with_reducible apply Kept.event | with_reducible apply kept_releaseChanges | with_reducible apply Kept.each | with_reducible apply Kept.when | with_reducible apply Kept.fold | exact Eq.refl _ | decide | intro _ | (dsimp only) | split | fail_if_no_progress with_reducible apply Kept.upd)

theorem kept_execDeferMax (s : State) : Ends s (execDeferMax s) := by
  unfold execDeferMax
  refine ends_done ?_
  have hk := Kept.refl s
  iterate 30 (try any_goals first | with_reducible assumption | with_reducible apply kept_done | with_reducible apply kept_effDeferMax | with_reducible apply Kept.each | with_reducible apply Kept.when | with_reducible apply Kept.fold | exact Eq.refl _ | decide | intro _ | (dsimp only) | split | fail_if_no_progress with_reducible apply Kept.upd)

theorem kept_effLRingApply {z s : State} (hk : Kept z s) : Kept z (effLRingApply s) := by
  unfold effLRingApply
  iterate 30 (try any_goals first | with_reducible assumption | with_reducible apply kept_acceptChange | with_reducible apply kept_setRing | with_reducible apply Kept.each | with_reducible apply Kept.when | with_reducible apply Kept.fold | exact Eq.refl _ | decide | intro _ | (dsimp only) | split | fail_if_no_progress with_reducible apply Kept.upd)

theorem kept_execLRingApply (s : State) : Ends s (execLRingApply s) := by
  unfold execLRingApply
  refine ends_done ?_
  have hk := Kept.refl s
  iterate 30 (try any_goals first | with_reducible assumption | with_reducible apply kept_done | with_reducible apply kept_effLRingApply | with_reducible apply Kept.each | with_reducible apply Kept.when | with_reducible apply Kept.fold | exact Eq.refl _ | decide | intro _ | (dsimp only) | split | fail_if_no_progress with_reducible apply Kept.upd)

theorem kept_execCapSet (port tag : Nat) (s : State) : Ends s (execCapSet port tag s) := by
  unfold execCapSet
  refine ends_done ?_
  have hk := Kept.refl s
  iterate 30 (try any_goals first | with_reducible assumption | with_reducible apply kept_acceptChange | with_reducible apply kept_command | with_reducible apply kept_done | with_reducible apply Kept.each | with_reducible apply Kept.when | with_reducible apply Kept.fold | exact Eq.refl _ | decide | intro _ | (dsimp only) | split | fail_if_no_progress with_reducible apply Kept.upd)

theorem kept_execOpTableSet (port tag : Nat) (s : State) : Ends s (execOpTableSet port tag s) := by
  unfold execOpTableSet
  refine ends_done ?_
  have hk := Kept.refl s
  iterate 30 (try any_goals first | with_reducible assumption | with_reducible apply kept_acceptChange | with_reducible apply kept_command | with_reducible apply kept_done | with_reducible apply Kept.each | with_reducible apply Kept.when | with_reducible apply Kept.fold | exact Eq.refl _ | decide | intro _ | (dsimp only) | split | fail_if_no_progress with_reducible apply Kept.upd)

theorem kept_execOpLimit (port tag : Nat) (s : State) : Ends s (execOpLimit port tag s) := by
  unfold execOpLimit
  refine ends_done ?_
  have hk := Kept.refl s
  iterate 30 (try any_goals first | with_reducible assumption | with_reducible apply kept_acceptChange | with_reducible apply kept_command | with_reducible apply kept_done | with_reducible apply Kept.each | with_reducible apply Kept.when | with_reducible apply Kept.fold | exact Eq.refl _ | decide | intro _ | (dsimp only) | split | fail_if_no_progress with_reducible apply Kept.upd)

theorem kept_execModeSet (port tag : Nat) (s : State) : Ends s (execModeSet port tag s) := by
  unfold execModeSet
  refine ends_done ?_
  have hk := Kept.refl s
  iterate 30 (try any_goals first | with_reducible assumption | with_reducible apply kept_acceptChange | with_reducible apply kept_command | with_reducible apply kept_done | with_reducible apply Kept.each | with_reducible apply Kept.when | with_reducible apply Kept.fold | exact Eq.refl _ | decide | intro _ | (dsimp only) | split | fail_if_no_progress with_reducible apply Kept.upd)

theorem kept_execHintSet (port tag : Nat) (s : State) : Ends s (execHintSet port tag s) := by
  unfold execHintSet
  refine ends_done ?_
  have hk := Kept.refl s
  iterate 30 (try any_goals first | with_reducible assumption | with_reducible apply kept_acceptChange | with_reducible apply kept_command | with_reducible apply kept_done | with_reducible apply Kept.each | with_reducible apply Kept.when | with_reducible apply Kept.fold | exact Eq.refl _ | decide | intro _ | (dsimp only) | split | fail_if_no_progress with_reducible apply Kept.upd)

theorem kept_execClassSet (port tag : Nat) (s : State) : Ends s (execClassSet port tag s) := by
  unfold execClassSet
  refine ends_done ?_
  have hk := Kept.refl s
  iterate 30 (try any_goals first | with_reducible assumption | with_reducible apply kept_acceptChange | with_reducible apply kept_command | with_reducible apply kept_done | with_reducible apply Kept.each | with_reducible apply Kept.when | with_reducible apply Kept.fold | exact Eq.refl _ | decide | intro _ | (dsimp only) | split | fail_if_no_progress with_reducible apply Kept.upd)

theorem kept_execFpTarget (port tag : Nat) (s : State) : Ends s (execFpTarget port tag s) := by
  unfold execFpTarget
  refine ends_done ?_
  have hk := Kept.refl s
  iterate 30 (try any_goals first | with_reducible assumption | with_reducible apply kept_acceptChange | with_reducible apply kept_command | with_reducible apply kept_done | with_reducible apply Kept.each | with_reducible apply Kept.when | with_reducible apply Kept.fold | exact Eq.refl _ | decide | intro _ | (dsimp only) | split | fail_if_no_progress with_reducible apply Kept.upd)

theorem kept_effLaneLoss {z s : State} (d lane : Nat) (hk : Kept z s) : Kept z (effLaneLoss d lane s) := by
  unfold effLaneLoss
  iterate 30 (try any_goals first | with_reducible assumption | with_reducible apply kept_agentTells | with_reducible apply kept_recordDie | with_reducible apply Kept.setLink | with_reducible apply Kept.each | with_reducible apply Kept.when | with_reducible apply Kept.fold | exact Eq.refl _ | decide | intro _ | (dsimp only) | split | fail_if_no_progress with_reducible apply Kept.upd)

theorem kept_execLaneLoss (die lane : Nat) (s : State) : Ends s (execLaneLoss die lane s) := by
  unfold execLaneLoss
  refine ends_done ?_
  have hk := Kept.refl s
  iterate 30 (try any_goals first | with_reducible assumption | with_reducible apply kept_done | with_reducible apply kept_effLaneLoss | with_reducible apply Kept.each | with_reducible apply Kept.when | with_reducible apply Kept.fold | exact Eq.refl _ | decide | intro _ | (dsimp only) | split | fail_if_no_progress with_reducible apply Kept.upd)

theorem kept_execLaneRetrain (x_die x_lane : Nat) (s : State) : Ends s (execLaneRetrain x_die x_lane s) := by
  unfold execLaneRetrain
  refine ends_done ?_
  have hk := Kept.refl s
  iterate 30 (try any_goals first | with_reducible assumption | with_reducible apply kept_done | with_reducible apply Kept.each | with_reducible apply Kept.when | with_reducible apply Kept.fold | exact Eq.refl _ | decide | intro _ | (dsimp only) | split | fail_if_no_progress with_reducible apply Kept.upd)

theorem kept_effLaneRestore {z s : State} (d lane : Nat) (hk : Kept z s) : Kept z (effLaneRestore d lane s) := by
  unfold effLaneRestore
  iterate 30 (try any_goals first | with_reducible assumption | with_reducible apply Kept.setLink | with_reducible apply Kept.each | with_reducible apply Kept.when | with_reducible apply Kept.fold | exact Eq.refl _ | decide | intro _ | (dsimp only) | split | fail_if_no_progress with_reducible apply Kept.upd)

theorem kept_execLaneRestore (die lane : Nat) (s : State) : Ends s (execLaneRestore die lane s) := by
  unfold execLaneRestore
  refine ends_done ?_
  have hk := Kept.refl s
  iterate 30 (try any_goals first | with_reducible assumption | with_reducible apply kept_done | with_reducible apply kept_effLaneRestore | with_reducible apply Kept.each | with_reducible apply Kept.when | with_reducible apply Kept.fold | exact Eq.refl _ | decide | intro _ | (dsimp only) | split | fail_if_no_progress with_reducible apply Kept.upd)

theorem kept_effLinkLost {z s : State} (d : Nat) (hk : Kept z s) : Kept z (effLinkLost d s) := by
  unfold effLinkLost
  iterate 30 (try any_goals first | with_reducible assumption | with_reducible apply kept_abortLoad | with_reducible apply Kept.put | with_reducible apply kept_recordDie | with_reducible apply kept_refit | with_reducible apply Kept.setLink | with_reducible apply kept_showEmpty | with_reducible apply Kept.each | with_reducible apply Kept.when | with_reducible apply Kept.fold | exact Eq.refl _ | decide | intro _ | (dsimp only) | split | fail_if_no_progress with_reducible apply Kept.upd)

theorem kept_execLinkLost (die : Nat) (s : State) : Ends s (execLinkLost die s) := by
  unfold execLinkLost
  refine ends_done ?_
  have hk := Kept.refl s
  iterate 30 (try any_goals first | with_reducible assumption | with_reducible apply kept_done | with_reducible apply kept_effLinkLost | with_reducible apply Kept.each | with_reducible apply Kept.when | with_reducible apply Kept.fold | exact Eq.refl _ | decide | intro _ | (dsimp only) | split | fail_if_no_progress with_reducible apply Kept.upd)

theorem kept_refreshSlot {z s : State} (d : Nat) (hk : Kept z s) : Kept z (refreshSlot d s) := by
  unfold refreshSlot
  iterate 30 (try any_goals first | with_reducible assumption | with_reducible apply Kept.put | with_reducible apply Kept.putB | with_reducible apply Kept.each | with_reducible apply Kept.when | with_reducible apply Kept.fold | exact Eq.refl _ | decide | intro _ | (dsimp only) | split | fail_if_no_progress with_reducible apply Kept.upd)

theorem kept_takeOwn {z s : State} (d : Nat) (own : List (Nat × Nat)) (hk : Kept z s) : Kept z (takeOwn d own s) := by
  unfold takeOwn
  iterate 30 (try any_goals first | with_reducible assumption | with_reducible apply Kept.event | with_reducible apply kept_faultOn | with_reducible apply kept_judgeBlind | with_reducible apply Kept.put | with_reducible apply kept_recordDie | with_reducible apply kept_tellStep | with_reducible apply Kept.each | with_reducible apply Kept.when | with_reducible apply Kept.fold | exact Eq.refl _ | decide | intro _ | (dsimp only) | split | fail_if_no_progress with_reducible apply Kept.upd)

theorem kept_catchUp {z s : State} (d : Nat) (hk : Kept z s) : Kept z (catchUp d s) := by
  unfold catchUp
  iterate 30 (try any_goals first | with_reducible assumption | with_reducible apply kept_dropAgent | with_reducible apply kept_releaseSite | with_reducible apply Kept.setLink | with_reducible apply kept_takeOwn | with_reducible apply Kept.each | with_reducible apply Kept.when | with_reducible apply Kept.fold | exact Eq.refl _ | decide | intro _ | (dsimp only) | split | fail_if_no_progress with_reducible apply Kept.upd)

theorem kept_resumeForced {z s : State} (d : Nat) (hk : Kept z s) : Kept z (resumeForced d s) := by
  unfold resumeForced
  iterate 30 (try any_goals first | with_reducible assumption | with_reducible apply kept_beginForced | with_reducible apply kept_endForced | with_reducible apply Kept.each | with_reducible apply Kept.when | with_reducible apply Kept.fold | exact Eq.refl _ | decide | intro _ | (dsimp only) | split | fail_if_no_progress with_reducible apply Kept.upd)

theorem kept_effLinkRestore {z s : State} (d : Nat) (hk : Kept z s) : Kept z (effLinkRestore d s) := by
  unfold effLinkRestore
  iterate 30 (try any_goals first | with_reducible assumption | with_reducible apply kept_catchUp | with_reducible apply kept_refit | with_reducible apply kept_refreshSlot | with_reducible apply kept_resumeForced | with_reducible apply kept_sendHeld | with_reducible apply Kept.setItn | with_reducible apply kept_showEmpty | with_reducible apply kept_showReasons | with_reducible apply kept_showSteps | with_reducible apply Kept.each | with_reducible apply Kept.when | with_reducible apply Kept.fold | exact Eq.refl _ | decide | intro _ | (dsimp only) | split | fail_if_no_progress with_reducible apply Kept.upd)

theorem kept_execLinkRestore (die : Nat) (s : State) : Ends s (execLinkRestore die s) := by
  unfold execLinkRestore
  refine ends_done ?_
  have hk := Kept.refl s
  iterate 30 (try any_goals first | with_reducible assumption | with_reducible apply kept_done | with_reducible apply kept_effLinkRestore | with_reducible apply Kept.each | with_reducible apply Kept.when | with_reducible apply Kept.fold | exact Eq.refl _ | decide | intro _ | (dsimp only) | split | fail_if_no_progress with_reducible apply Kept.upd)

theorem kept_effLinkTrained {z s : State} (d : Nat) (hk : Kept z s) : Kept z (effLinkTrained d s) := by
  unfold effLinkTrained
  iterate 30 (try any_goals first | with_reducible assumption | with_reducible apply kept_refit | with_reducible apply kept_reloadDie | with_reducible apply kept_restartLink | with_reducible apply kept_sendHeld | with_reducible apply Kept.setItn | with_reducible apply Kept.setLink | with_reducible apply kept_showEmpty | with_reducible apply Kept.each | with_reducible apply Kept.when | with_reducible apply Kept.fold | exact Eq.refl _ | decide | intro _ | (dsimp only) | split | fail_if_no_progress with_reducible apply Kept.upd)

theorem kept_execLinkTrained (die : Nat) (s : State) : Ends s (execLinkTrained die s) := by
  unfold execLinkTrained
  refine ends_done ?_
  have hk := Kept.refl s
  iterate 30 (try any_goals first | with_reducible assumption | with_reducible apply kept_done | with_reducible apply kept_effLinkTrained | with_reducible apply Kept.each | with_reducible apply Kept.when | with_reducible apply Kept.fold | exact Eq.refl _ | decide | intro _ | (dsimp only) | split | fail_if_no_progress with_reducible apply Kept.upd)

theorem kept_goStage {z s : State} (n : Nat) (hk : Kept z s) : Kept z (goStage n s) := by
  unfold goStage
  iterate 30 (try any_goals first | with_reducible assumption | with_reducible apply Kept.put | with_reducible apply kept_record | with_reducible apply kept_setBoot | with_reducible apply Kept.each | with_reducible apply Kept.when | with_reducible apply Kept.fold | exact Eq.refl _ | decide | intro _ | (dsimp only) | split | fail_if_no_progress with_reducible apply Kept.upd)

theorem kept_bootFail {z s : State} (cause : Nat) (hk : Kept z s) : Kept z (bootFail cause s) := by
  unfold bootFail
  iterate 30 (try any_goals first | with_reducible assumption | with_reducible apply kept_faultOn | with_reducible apply kept_goStage | with_reducible apply Kept.put | with_reducible apply kept_record | with_reducible apply kept_ringLeave | with_reducible apply kept_setPins | with_reducible apply Kept.each | with_reducible apply Kept.when | with_reducible apply Kept.fold | exact Eq.refl _ | decide | intro _ | (dsimp only) | split | fail_if_no_progress with_reducible apply Kept.upd)

theorem kept_goVin {z s : State} (hk : Kept z s) : Kept z (goVin s) := by
  unfold goVin
  iterate 30 (try any_goals first | with_reducible assumption | with_reducible apply kept_goStage | with_reducible apply kept_operate | with_reducible apply Kept.each | with_reducible apply Kept.when | with_reducible apply Kept.fold | exact Eq.refl _ | decide | intro _ | (dsimp only) | split | fail_if_no_progress with_reducible apply Kept.upd)

theorem kept_goCore {z s : State} (hk : Kept z s) : Kept z (goCore s) := by
  unfold goCore
  iterate 30 (try any_goals first | with_reducible assumption | with_reducible apply kept_goStage | with_reducible apply kept_railEnable | with_reducible apply Kept.each | with_reducible apply Kept.when | with_reducible apply Kept.fold | exact Eq.refl _ | decide | intro _ | (dsimp only) | split | fail_if_no_progress with_reducible apply Kept.upd)

theorem kept_goMem {z s : State} (hk : Kept z s) : Kept z (goMem s) := by
  unfold goMem
  iterate 30 (try any_goals first | with_reducible assumption | with_reducible apply kept_goStage | with_reducible apply kept_railEnable | with_reducible apply Kept.each | with_reducible apply Kept.when | with_reducible apply Kept.fold | exact Eq.refl _ | decide | intro _ | (dsimp only) | split | fail_if_no_progress with_reducible apply Kept.upd)

theorem kept_goReady {z s : State} (hk : Kept z s) : Kept z (goReady s) := by
  unfold goReady
  iterate 30 (try any_goals first | with_reducible assumption | with_reducible apply kept_goStage | with_reducible apply Kept.put | with_reducible apply kept_record | with_reducible apply kept_setBoot | with_reducible apply kept_setPins | with_reducible apply Kept.each | with_reducible apply Kept.when | with_reducible apply Kept.fold | exact Eq.refl _ | decide | intro _ | (dsimp only) | split | fail_if_no_progress with_reducible apply Kept.upd)

theorem kept_execSupplyGood (s : State) : Ends s (execSupplyGood s) := by
  unfold execSupplyGood
  refine ends_done ?_
  have hk := Kept.refl s
  iterate 30 (try any_goals first | with_reducible assumption | with_reducible apply kept_done | with_reducible apply kept_goStage | with_reducible apply kept_setClk | with_reducible apply kept_setPins | with_reducible apply Kept.each | with_reducible apply Kept.when | with_reducible apply Kept.fold | exact Eq.refl _ | decide | intro _ | (dsimp only) | split | fail_if_no_progress with_reducible apply Kept.upd)

theorem kept_ownPresent {z s : State} (hk : Kept z s) : Kept z (ownPresent s) := by
  unfold ownPresent
  iterate 30 (try any_goals first | with_reducible assumption | with_reducible apply Kept.put | with_reducible apply Kept.each | with_reducible apply Kept.when | with_reducible apply Kept.fold | exact Eq.refl _ | decide | intro _ | (dsimp only) | split | fail_if_no_progress with_reducible apply Kept.upd)

theorem kept_effColdReset {z s : State} (feed : Nat) (off : Bool) (hk : Kept z s) : Kept z (effColdReset feed off s) := by
  refine kept_ownPresent (Kept.put _ _ (hk.trans ⟨rfl, fun w => ?_, fun g hg _ => ?_⟩))
  · rw [State.wf_iff] at w ⊢
    exact ⟨risesFrom_filter _ w.1, sparseWf_filter memDefault _ w.2.1, rfl, rfl, rfl, rfl, rfl, rfl, rfl, rfl, rfl, rfl⟩
  · exact sget_filter _ _ _ _ fun _ => by simpa using hg

theorem kept_execColdReset (cause : ColdCause) (s : State) : Ends s (execColdReset cause s) := by
  unfold execColdReset
  refine ends_done ?_
  have hk := Kept.refl s
  iterate 30 (try any_goals first | with_reducible assumption | with_reducible apply kept_done | with_reducible apply kept_effColdReset | with_reducible apply Kept.each | with_reducible apply Kept.when | with_reducible apply Kept.fold | exact Eq.refl _ | decide | intro _ | (dsimp only) | split | fail_if_no_progress with_reducible apply Kept.upd)

theorem kept_stopIssue {z s : State} (d : Nat) (hk : Kept z s) : Kept z (stopIssue d s) := by
  unfold stopIssue
  iterate 30 (try any_goals first | with_reducible assumption | with_reducible apply Kept.put | with_reducible apply Kept.setTok | with_reducible apply Kept.each | with_reducible apply Kept.when | with_reducible apply Kept.fold | exact Eq.refl _ | decide | intro _ | (dsimp only) | split | fail_if_no_progress with_reducible apply Kept.upd)

theorem kept_powerDown {z s : State} (cause : Nat) (hk : Kept z s) : Kept z (powerDown cause s) := by
  unfold powerDown
  iterate 30 (try any_goals first | with_reducible assumption | with_reducible apply kept_goStage | with_reducible apply kept_operate | with_reducible apply Kept.put | with_reducible apply kept_railOff | with_reducible apply kept_setBoot | with_reducible apply kept_setPins | with_reducible apply kept_stopIssue | with_reducible apply Kept.each | with_reducible apply Kept.when | with_reducible apply Kept.fold | exact Eq.refl _ | decide | intro _ | (dsimp only) | split | fail_if_no_progress with_reducible apply Kept.upd)

theorem kept_execPowerDown (s : State) : Ends s (execPowerDown s) := by
  unfold execPowerDown
  refine ends_done ?_
  have hk := Kept.refl s
  iterate 30 (try any_goals first | with_reducible assumption | with_reducible apply kept_done | with_reducible apply kept_powerDown | with_reducible apply Kept.each | with_reducible apply Kept.when | with_reducible apply Kept.fold | exact Eq.refl _ | decide | intro _ | (dsimp only) | split | fail_if_no_progress with_reducible apply Kept.upd)

theorem kept_leaveOff {z s : State} (hk : Kept z s) : Kept z (leaveOff s) := by
  unfold leaveOff
  iterate 30 (try any_goals first | with_reducible assumption | with_reducible apply kept_goVin | with_reducible apply Kept.put | with_reducible apply kept_setBoot | with_reducible apply kept_setPins | with_reducible apply Kept.each | with_reducible apply Kept.when | with_reducible apply Kept.fold | exact Eq.refl _ | decide | intro _ | (dsimp only) | split | fail_if_no_progress with_reducible apply Kept.upd)

theorem kept_execAutoRestart (s : State) : Ends s (execAutoRestart s) := by
  unfold execAutoRestart
  refine ends_done ?_
  have hk := Kept.refl s
  iterate 30 (try any_goals first | with_reducible assumption | with_reducible apply kept_done | with_reducible apply kept_leaveOff | with_reducible apply Kept.each | with_reducible apply Kept.when | with_reducible apply Kept.fold | exact Eq.refl _ | decide | intro _ | (dsimp only) | split | fail_if_no_progress with_reducible apply Kept.upd)

theorem kept_startChangeG {z s : State} (c : Nat) (hk : Kept z s) : Kept z (startChangeG c s) := by
  unfold startChangeG
  iterate 30 (try any_goals first | with_reducible assumption | with_reducible apply Kept.put | with_reducible apply kept_setBoot | with_reducible apply Kept.each | with_reducible apply Kept.when | with_reducible apply Kept.fold | exact Eq.refl _ | decide | intro _ | (dsimp only) | split | fail_if_no_progress with_reducible apply Kept.upd)

theorem kept_leaveG1 {z s : State} (hk : Kept z s) : Kept z (leaveG1 s) := by
  unfold leaveG1
  iterate 30 (try any_goals first | with_reducible assumption | with_reducible apply kept_gateClock | with_reducible apply kept_unshedAll | with_reducible apply Kept.each | with_reducible apply Kept.when | with_reducible apply Kept.fold | exact Eq.refl _ | decide | intro _ | (dsimp only) | split | fail_if_no_progress with_reducible apply Kept.upd)

theorem kept_requestG {z s : State} (req : Nat) (hk : Kept z s) : Kept z (requestG req s) := by
  unfold requestG
  iterate 30 (try any_goals first | with_reducible assumption | with_reducible apply kept_emit | with_reducible apply kept_enterG | with_reducible apply kept_gateClock | with_reducible apply kept_goCore | with_reducible apply kept_leaveG1 | with_reducible apply kept_leaveOff | with_reducible apply kept_setPins | with_reducible apply kept_settleChange | with_reducible apply kept_startChangeG | with_reducible apply Kept.each | with_reducible apply Kept.when | with_reducible apply Kept.fold | exact Eq.refl _ | decide | intro _ | (dsimp only) | split | fail_if_no_progress with_reducible apply Kept.upd)

theorem kept_effSelfRefreshReport {z s : State} (d : Nat) (hk : Kept z s) : Kept z (effSelfRefreshReport d s) := by
  unfold effSelfRefreshReport
  iterate 30 (try any_goals first | with_reducible assumption | with_reducible apply kept_clearAcc | with_reducible apply kept_enterG | with_reducible apply kept_railOff | with_reducible apply kept_setBoot | with_reducible apply kept_setPins | with_reducible apply kept_stopIssue | with_reducible apply Kept.each | with_reducible apply Kept.when | with_reducible apply Kept.fold | exact Eq.refl _ | decide | intro _ | (dsimp only) | split | fail_if_no_progress with_reducible apply Kept.upd)

theorem kept_execSelfRefreshReport (report : Arrival) (s : State) : Ends s (execSelfRefreshReport report s) := by
  unfold execSelfRefreshReport
  refine ends_done ?_
  have hk := Kept.refl s
  iterate 30 (try any_goals first | with_reducible assumption | with_reducible apply kept_acceptFrame | with_reducible apply kept_done | with_reducible apply kept_effSelfRefreshReport | with_reducible apply Kept.each | with_reducible apply Kept.when | with_reducible apply Kept.fold | exact Eq.refl _ | decide | intro _ | (dsimp only) | split | fail_if_no_progress with_reducible apply Kept.upd)

theorem kept_effG2Abandoned {z s : State} (d : Nat) (hk : Kept z s) : Kept z (effG2Abandoned d s) := by
  unfold effG2Abandoned
  iterate 30 (try any_goals first | with_reducible assumption | with_reducible apply kept_enterG | with_reducible apply kept_leaveG1 | with_reducible apply Kept.put | with_reducible apply kept_record | with_reducible apply Kept.each | with_reducible apply Kept.when | with_reducible apply Kept.fold | exact Eq.refl _ | decide | intro _ | (dsimp only) | split | fail_if_no_progress with_reducible apply Kept.upd)

theorem kept_execG2Abandoned (die : Nat) (s : State) : Ends s (execG2Abandoned die s) := by
  unfold execG2Abandoned
  refine ends_done ?_
  have hk := Kept.refl s
  iterate 30 (try any_goals first | with_reducible assumption | with_reducible apply kept_done | with_reducible apply kept_effG2Abandoned | with_reducible apply Kept.each | with_reducible apply Kept.when | with_reducible apply Kept.fold | exact Eq.refl _ | decide | intro _ | (dsimp only) | split | fail_if_no_progress with_reducible apply Kept.upd)

theorem kept_startDieReset {z s : State} (m : Nat) (hk : Kept z s) : Kept z (startDieReset m s) := by
  unfold startDieReset
  iterate 30 (try any_goals first | with_reducible assumption | with_reducible apply kept_dieCleared | with_reducible apply kept_record | with_reducible apply kept_restartLink | with_reducible apply kept_setBoot | with_reducible apply Kept.each | with_reducible apply Kept.when | with_reducible apply Kept.fold | exact Eq.refl _ | decide | intro _ | (dsimp only) | split | fail_if_no_progress with_reducible apply Kept.upd)

theorem kept_effDieResetEnd {z s : State} (d : Nat) (hk : Kept z s) : Kept z (effDieResetEnd d s) := by
  unfold effDieResetEnd
  iterate 30 (try any_goals first | with_reducible assumption | with_reducible apply kept_refit | with_reducible apply kept_reloadDie | with_reducible apply kept_sendTokens | with_reducible apply kept_setBoot | with_reducible apply kept_showEmpty | with_reducible apply Kept.each | with_reducible apply Kept.when | with_reducible apply Kept.fold | exact Eq.refl _ | decide | intro _ | (dsimp only) | split | fail_if_no_progress with_reducible apply Kept.upd)

theorem kept_execDieResetEnd (die : Nat) (s : State) : Ends s (execDieResetEnd die s) := by
  unfold execDieResetEnd
  refine ends_done ?_
  have hk := Kept.refl s
  iterate 30 (try any_goals first | with_reducible assumption | with_reducible apply kept_done | with_reducible apply kept_effDieResetEnd | with_reducible apply Kept.each | with_reducible apply Kept.when | with_reducible apply Kept.fold | exact Eq.refl _ | decide | intro _ | (dsimp only) | split | fail_if_no_progress with_reducible apply Kept.upd)

theorem kept_startAccReset {z s : State} (hk : Kept z s) : Kept z (startAccReset s) := by
  unfold startAccReset
  iterate 30 (try any_goals first | with_reducible assumption | with_reducible apply kept_accCleared | with_reducible apply kept_record | with_reducible apply kept_restartLink | with_reducible apply kept_setBoot | with_reducible apply kept_setPins | with_reducible apply Kept.each | with_reducible apply Kept.when | with_reducible apply Kept.fold | exact Eq.refl _ | decide | intro _ | (dsimp only) | split | fail_if_no_progress with_reducible apply Kept.upd)

theorem kept_effAccResetEnd {z s : State} (hk : Kept z s) : Kept z (effAccResetEnd s) := by
  unfold effAccResetEnd
  iterate 30 (try any_goals first | with_reducible assumption | with_reducible apply kept_refit | with_reducible apply kept_reloadPart | with_reducible apply kept_sendTokens | with_reducible apply kept_setBoot | with_reducible apply kept_setPins | with_reducible apply kept_showEmpty | with_reducible apply Kept.each | with_reducible apply Kept.when | with_reducible apply Kept.fold | exact Eq.refl _ | decide | intro _ | (dsimp only) | split | fail_if_no_progress with_reducible apply Kept.upd)

theorem kept_execAccResetEnd (s : State) : Ends s (execAccResetEnd s) := by
  unfold execAccResetEnd
  refine ends_done ?_
  have hk := Kept.refl s
  iterate 30 (try any_goals first | with_reducible assumption | with_reducible apply kept_done | with_reducible apply kept_effAccResetEnd | with_reducible apply Kept.each | with_reducible apply Kept.when | with_reducible apply Kept.fold | exact Eq.refl _ | decide | intro _ | (dsimp only) | split | fail_if_no_progress with_reducible apply Kept.upd)

theorem kept_orphan {z s : State} (hk : Kept z s) : Kept z (orphan s) := by
  unfold orphan
  iterate 30 (try any_goals first | with_reducible assumption | with_reducible apply Kept.setItn | with_reducible apply Kept.setPart | with_reducible apply Kept.each | with_reducible apply Kept.when | with_reducible apply Kept.fold | exact Eq.refl _ | decide | intro _ | (dsimp only) | split | fail_if_no_progress with_reducible apply Kept.upd)

theorem kept_wipeWindows {z s : State} (hk : Kept z s) : Kept z (wipeWindows s) := by
  unfold wipeWindows
  iterate 30 (try any_goals first | with_reducible assumption | with_reducible apply Kept.wipe | with_reducible apply Kept.each | with_reducible apply Kept.when | with_reducible apply Kept.fold | exact Eq.refl _ | decide | intro _ | (dsimp only) | split | fail_if_no_progress with_reducible apply Kept.upd)

theorem kept_dropCopies {z s : State} (hk : Kept z s) : Kept z (dropCopies s) := by
  unfold dropCopies
  iterate 30 (try any_goals first | with_reducible assumption | with_reducible apply Kept.each | with_reducible apply Kept.when | with_reducible apply Kept.fold | exact Eq.refl _ | decide | intro _ | (dsimp only) | split | fail_if_no_progress with_reducible apply Kept.upd)

theorem kept_startWarm {z s : State} (hk : Kept z s) : Kept z (startWarm s) := by
  unfold startWarm
  iterate 30 (try any_goals first | with_reducible assumption | with_reducible apply Kept.addWrap | with_reducible apply Kept.clearClass | with_reducible apply kept_dropCopies | with_reducible apply Kept.event | with_reducible apply kept_orphan | (with_reducible apply Kept.put) | with_reducible apply kept_record | with_reducible apply kept_recovWarm | with_reducible apply kept_ringLeave | with_reducible apply kept_scrubAgain | with_reducible apply kept_setBoot | (with_reducible apply kept_wipeWindows) | with_reducible apply Kept.each | with_reducible apply Kept.when | with_reducible apply Kept.fold | exact Eq.refl _ | decide | intro _ | (dsimp only) | split | fail_if_no_progress with_reducible apply Kept.upd)

theorem kept_leaveBootFail {z s : State} (hk : Kept z s) : Kept z (leaveBootFail s) := by
  unfold leaveBootFail
  iterate 30 (try any_goals first | with_reducible assumption | with_reducible apply Kept.addWrap | with_reducible apply Kept.clearClass | with_reducible apply kept_dropCopies | with_reducible apply Kept.event | with_reducible apply kept_faultOff | (with_reducible apply kept_goStage) | with_reducible apply kept_orphan | with_reducible apply Kept.put | with_reducible apply kept_record | with_reducible apply kept_recovWarm | with_reducible apply kept_ringLeave | (with_reducible apply kept_wipeWindows) | with_reducible apply Kept.each | with_reducible apply Kept.when | with_reducible apply Kept.fold | exact Eq.refl _ | decide | intro _ | (dsimp only) | split | fail_if_no_progress with_reducible apply Kept.upd)

theorem kept_catchBegun {z s : State} (hk : Kept z s) : Kept z (catchBegun s) := by
  unfold catchBegun
  iterate 30 (try any_goals first | with_reducible assumption | with_reducible apply Kept.each | with_reducible apply Kept.when | with_reducible apply Kept.fold | exact Eq.refl _ | decide | intro _ | (dsimp only) | split | fail_if_no_progress with_reducible apply Kept.upd)

theorem kept_trigger {z s : State} (k : Nat) (hk : Kept z s) : Kept z (trigger k s) := by
  unfold trigger
  iterate 30 (try any_goals first | with_reducible assumption | with_reducible apply Kept.addSat | with_reducible apply kept_catchBegun | with_reducible apply kept_endSpdm | with_reducible apply Kept.event | with_reducible apply Kept.put | with_reducible apply kept_record | with_reducible apply kept_setBoot | with_reducible apply kept_startWarm | with_reducible apply Kept.each | with_reducible apply Kept.when | with_reducible apply Kept.fold | exact Eq.refl _ | decide | intro _ | (dsimp only) | split | fail_if_no_progress with_reducible apply Kept.upd)

theorem kept_execLockstepMismatch (s : State) : Ends s (execLockstepMismatch s) := by
  unfold execLockstepMismatch
  refine ends_done ?_
  have hk := Kept.refl s
  iterate 30 (try any_goals first | with_reducible assumption | with_reducible apply Kept.addSat | with_reducible apply kept_done | with_reducible apply Kept.event | with_reducible apply kept_trigger | with_reducible apply Kept.each | with_reducible apply Kept.when | with_reducible apply Kept.fold | exact Eq.refl _ | decide | intro _ | (dsimp only) | split | fail_if_no_progress with_reducible apply Kept.upd)

theorem kept_execWatchdogExpire (s : State) : Ends s (execWatchdogExpire s) := by
  unfold execWatchdogExpire
  refine ends_done ?_
  have hk := Kept.refl s
  iterate 30 (try any_goals first | with_reducible assumption | with_reducible apply kept_done | with_reducible apply Kept.event | with_reducible apply kept_setBoot | with_reducible apply kept_trigger | with_reducible apply Kept.each | with_reducible apply Kept.when | with_reducible apply Kept.fold | exact Eq.refl _ | decide | intro _ | (dsimp only) | split | fail_if_no_progress with_reducible apply Kept.upd)

theorem kept_execSramUe (s : State) : Ends s (execSramUe s) := by
  unfold execSramUe
  refine ends_done ?_
  have hk := Kept.refl s
  iterate 30 (try any_goals first | with_reducible assumption | with_reducible apply kept_done | with_reducible apply Kept.event | with_reducible apply kept_trigger | with_reducible apply Kept.each | with_reducible apply Kept.when | with_reducible apply Kept.fold | exact Eq.refl _ | decide | intro _ | (dsimp only) | split | fail_if_no_progress with_reducible apply Kept.upd)

theorem kept_execSramCe (count : Nat) (s : State) : Ends s (execSramCe count s) := by
  unfold execSramCe
  refine ends_done ?_
  have hk := Kept.refl s
  iterate 30 (try any_goals first | with_reducible assumption | with_reducible apply Kept.addSat | with_reducible apply kept_done | with_reducible apply Kept.event | with_reducible apply Kept.each | with_reducible apply Kept.when | with_reducible apply Kept.fold | exact Eq.refl _ | decide | intro _ | (dsimp only) | split | fail_if_no_progress with_reducible apply Kept.upd)

theorem kept_execFwRequest (s : State) : Ends s (execFwRequest s) := by
  unfold execFwRequest
  refine ends_done ?_
  have hk := Kept.refl s
  iterate 30 (try any_goals first | with_reducible assumption | with_reducible apply kept_done | with_reducible apply kept_trigger | with_reducible apply Kept.each | with_reducible apply Kept.when | with_reducible apply Kept.fold | exact Eq.refl _ | decide | intro _ | (dsimp only) | split | fail_if_no_progress with_reducible apply Kept.upd)

theorem kept_restartOver {z s : State} (hk : Kept z s) : Kept z (restartOver s) := by
  unfold restartOver
  iterate 30 (try any_goals first | with_reducible assumption | with_reducible apply kept_completeAt | with_reducible apply Kept.put | with_reducible apply kept_setBoot | with_reducible apply Kept.each | with_reducible apply Kept.when | with_reducible apply Kept.fold | exact Eq.refl _ | decide | intro _ | (dsimp only) | split | fail_if_no_progress with_reducible apply Kept.upd)

theorem kept_effFwRestartDone {z s : State} (upsets : List (Nat × Nat)) (hk : Kept z s) : Kept z (effFwRestartDone upsets s) := by
  unfold effFwRestartDone
  iterate 30 (try any_goals first | with_reducible assumption | with_reducible apply kept_restartOver | with_reducible apply kept_startWarm | with_reducible apply Kept.writeBytes | with_reducible apply Kept.each | with_reducible apply Kept.when | with_reducible apply Kept.fold | exact Eq.refl _ | decide | intro _ | (dsimp only) | split | fail_if_no_progress with_reducible apply Kept.upd)

theorem kept_execFwRestartDone (upsets : List (Nat × Nat)) (s : State) : Ends s (execFwRestartDone upsets s) := by
  unfold execFwRestartDone
  refine ends_done ?_
  have hk := Kept.refl s
  iterate 30 (try any_goals first | with_reducible assumption | with_reducible apply kept_done | with_reducible apply kept_effFwRestartDone | with_reducible apply Kept.each | with_reducible apply Kept.when | with_reducible apply Kept.fold | exact Eq.refl _ | decide | intro _ | (dsimp only) | split | fail_if_no_progress with_reducible apply Kept.upd)

theorem kept_advance {z s : State} (f : Field) (v a : Nat) (hf : isSvn f = true) (hk : Kept z s) :
    Kept z (s |> blow f v |> each (List.range 16) loseAttest |> record 0x0C05 a) :=
  kept_record _ _ (Kept.each (fun _ _ h => kept_loseAttest _ h) (Kept.blow f v hf hk))

theorem kept_effSvnAdv {z s : State} (kind : Nat) (hk : Kept z s) : Kept z (effSvnAdv kind s) := by
  unfold effSvnAdv
  refine kept_ite (fun _ => kept_advance _ _ _ ?_ hk) (fun _ => hk)
  split <;> decide

theorem kept_execSvnAdv (kind : Nat) (s : State) : Ends s (execSvnAdv kind s) := by
  unfold execSvnAdv
  refine ends_done ?_
  have hk := Kept.refl s
  iterate 30 (try any_goals first | with_reducible assumption | with_reducible apply kept_done | with_reducible apply kept_effSvnAdv | with_reducible apply Kept.each | with_reducible apply Kept.when | with_reducible apply Kept.fold | exact Eq.refl _ | decide | intro _ | (dsimp only) | split | fail_if_no_progress with_reducible apply Kept.upd)

theorem kept_flip {z s : State} (u : Upset) (hk : Kept z s) : Kept z (flip u s) := by
  unfold flip
  iterate 30 (try any_goals first | with_reducible assumption | with_reducible apply Kept.put | with_reducible apply kept_setBoot | with_reducible apply Kept.each | with_reducible apply Kept.when | with_reducible apply Kept.fold | exact Eq.refl _ | decide | intro _ | (dsimp only) | split | fail_if_no_progress with_reducible apply Kept.upd)

theorem kept_effConfigScan {z s : State} (upsets : List Upset) (hk : Kept z s) : Kept z (effConfigScan upsets s) := by
  unfold effConfigScan
  iterate 30 (try any_goals first | with_reducible assumption | with_reducible apply Kept.event | with_reducible apply kept_faultOn | with_reducible apply kept_flip | with_reducible apply Kept.put | with_reducible apply kept_record | with_reducible apply kept_refit | with_reducible apply kept_setBoot | with_reducible apply Kept.each | with_reducible apply Kept.when | with_reducible apply Kept.fold | exact Eq.refl _ | decide | intro _ | (dsimp only) | split | fail_if_no_progress with_reducible apply Kept.upd)

theorem kept_execConfigScan (upsets : List Upset) (s : State) : Ends s (execConfigScan upsets s) := by
  unfold execConfigScan
  refine ends_done ?_
  have hk := Kept.refl s
  iterate 30 (try any_goals first | with_reducible assumption | with_reducible apply kept_done | with_reducible apply kept_effConfigScan | with_reducible apply Kept.each | with_reducible apply Kept.when | with_reducible apply Kept.fold | exact Eq.refl _ | decide | intro _ | (dsimp only) | split | fail_if_no_progress with_reducible apply Kept.upd)

theorem kept_scanFollows {z s : State} (l : List Field) (hk : Kept z s) : Kept z (scanFollows l s) := by
  unfold scanFollows
  iterate 30 (try any_goals first | with_reducible assumption | with_reducible apply kept_setBoot | with_reducible apply Kept.each | with_reducible apply Kept.when | with_reducible apply Kept.fold | exact Eq.refl _ | decide | intro _ | (dsimp only) | split | fail_if_no_progress with_reducible apply Kept.upd)

theorem kept_ringConfigured {z s : State} (hk : Kept z s) : Kept z (ringConfigured s) := by
  unfold ringConfigured
  iterate 30 (try any_goals first | with_reducible assumption | with_reducible apply Kept.put | with_reducible apply kept_ringLeave | with_reducible apply kept_ringListen | with_reducible apply kept_setRing | with_reducible apply Kept.each | with_reducible apply Kept.when | with_reducible apply Kept.fold | exact Eq.refl _ | decide | intro _ | (dsimp only) | split | fail_if_no_progress with_reducible apply Kept.upd)

theorem kept_afterWrite {z s : State} (s0 : State) (off : Nat) (hk : Kept z s) : Kept z (afterWrite s0 off s) := by
  unfold afterWrite
  iterate 30 (try any_goals first | with_reducible assumption | with_reducible apply kept_dropAgent | with_reducible apply kept_dropCore | with_reducible apply kept_judgeBlind | with_reducible apply Kept.put | with_reducible apply kept_refreshIin | with_reducible apply kept_releaseSite | with_reducible apply kept_ringConfigured | with_reducible apply kept_sendSlews | with_reducible apply kept_showEmpty | with_reducible apply Kept.each | with_reducible apply Kept.when | with_reducible apply Kept.fold | exact Eq.refl _ | decide | intro _ | (dsimp only) | split | fail_if_no_progress with_reducible apply Kept.upd)

theorem kept_clearField {z s : State} (v : Nat) (f : Field) (hk : Kept z s) : Kept z (clearField v f s) := by
  unfold clearField
  iterate 30 (try any_goals first | with_reducible assumption | with_reducible apply Kept.put | with_reducible apply Kept.each | with_reducible apply Kept.when | with_reducible apply Kept.fold | exact Eq.refl _ | decide | intro _ | (dsimp only) | split | fail_if_no_progress with_reducible apply Kept.upd)

theorem kept_writeFields {z s : State} (p off value : Nat) (hk : Kept z s) : Kept z (writeFields p off value s) := by
  unfold writeFields
  iterate 30 (try any_goals first | with_reducible assumption | with_reducible apply kept_afterWrite | with_reducible apply kept_bumpGen | with_reducible apply kept_clearField | with_reducible apply Kept.put | with_reducible apply kept_respond | with_reducible apply kept_scanFollows | with_reducible apply kept_settingsFollow | with_reducible apply kept_violation | with_reducible apply Kept.each | with_reducible apply Kept.when | with_reducible apply Kept.fold | exact Eq.refl _ | decide | intro _ | (dsimp only) | split | fail_if_no_progress with_reducible apply Kept.upd)

theorem kept_writeCommit {z s : State} (p off value : Nat) (hk : Kept z s) : Kept z (writeCommit p off value s) := by
  unfold writeCommit
  iterate 30 (try any_goals first | with_reducible assumption | with_reducible apply kept_bumpGen | with_reducible apply kept_commitSet | with_reducible apply kept_rejectValue | with_reducible apply kept_respond | with_reducible apply Kept.each | with_reducible apply Kept.when | with_reducible apply Kept.fold | exact Eq.refl _ | decide | intro _ | (dsimp only) | split | fail_if_no_progress with_reducible apply Kept.upd)

theorem kept_writeReset {z s : State} (p value : Nat) (hk : Kept z s) : Kept z (writeReset p value s) := by
  unfold writeReset
  iterate 30 (try any_goals first | with_reducible assumption | with_reducible apply kept_rejectValue | with_reducible apply kept_respond | with_reducible apply kept_startAccReset | with_reducible apply kept_startDieReset | with_reducible apply kept_startWarm | with_reducible apply Kept.each | with_reducible apply Kept.when | with_reducible apply Kept.fold | exact Eq.refl _ | decide | intro _ | (dsimp only) | split | fail_if_no_progress with_reducible apply Kept.upd)

theorem kept_writeState {z s : State} (p value : Nat) (hk : Kept z s) : Kept z (writeState p value s) := by
  unfold writeState
  iterate 30 (try any_goals first | with_reducible assumption | with_reducible apply Kept.put | with_reducible apply kept_rejectValue | with_reducible apply kept_requestG | with_reducible apply kept_respond | with_reducible apply Kept.each | with_reducible apply Kept.when | with_reducible apply Kept.fold | exact Eq.refl _ | decide | intro _ | (dsimp only) | split | fail_if_no_progress with_reducible apply Kept.upd)

theorem kept_writeCaptureWord {z s : State} (p off value : Nat) (hk : Kept z s) : Kept z (writeCaptureWord p off value s) := by
  unfold writeCaptureWord
  iterate 30 (try any_goals first | with_reducible assumption | with_reducible apply kept_rejectValue | with_reducible apply kept_respond | with_reducible apply Kept.writeWord32 | with_reducible apply Kept.each | with_reducible apply Kept.when | with_reducible apply Kept.fold | exact Eq.refl _ | decide | intro _ | (dsimp only) | split | fail_if_no_progress with_reducible apply Kept.upd)

theorem kept_writeAt {z s : State} (p off value : Nat) (hk : Kept z s) : Kept z (writeAt p off value s) := by
  have hb : ∀ t : State, Kept z t → Kept z (setBoot { t.boot with wdt := 0 } t) := fun t h => kept_setBoot _ h
  unfold writeAt
  refine kept_ite (fun _ => kept_writeSqTail _ _ hk) (fun _ => ?_)
  refine kept_ite (fun _ => kept_writeCqHead _ _ hk) (fun _ => ?_)
  refine kept_ite (fun _ => kept_writeNotifyEn _ _ hk) (fun _ => ?_)
  refine kept_ite (fun _ => kept_respond _ _ _ (Kept.put _ _ hk)) (fun _ => ?_)
  refine kept_ite (fun _ => kept_mbxSendTo _ _ hk) (fun _ => ?_)
  refine kept_ite (fun _ => kept_writeLock _ _ _ hk) (fun _ => ?_)
  refine kept_ite (fun _ => kept_respond _ _ _ (Kept.put _ _ hk)) (fun _ => ?_)
  refine kept_ite (fun _ => kept_writeCommit _ _ _ hk) (fun _ => ?_)
  refine kept_ite (fun _ => kept_rejectValue _ _ hk) (fun _ => ?_)
  refine kept_ite (fun _ => kept_writeReset _ _ hk) (fun _ => ?_)
  refine kept_ite (fun _ => kept_writeState _ _ hk) (fun _ => ?_)
  refine kept_ite (fun _ => kept_respond _ _ _ (Kept.when hb hk)) (fun _ => ?_)
  refine kept_ite (fun _ => kept_writeEntry _ _ _ hk) (fun _ => ?_)
  refine kept_ite (fun _ => kept_writeCaptureWord _ _ _ hk) (fun _ => ?_)
  exact kept_writeFields _ _ _ hk

theorem kept_effRegisterWrite {z s : State} (p off value : Nat) (hk : Kept z s) : Kept z (effRegisterWrite p off value s) := by
  unfold effRegisterWrite
  iterate 30 (try any_goals first | with_reducible assumption | with_reducible apply kept_access | with_reducible apply kept_respond | with_reducible apply kept_violation | with_reducible apply kept_writeAt | with_reducible apply Kept.each | with_reducible apply Kept.when | with_reducible apply Kept.fold | exact Eq.refl _ | decide | intro _ | (dsimp only) | split | fail_if_no_progress with_reducible apply Kept.upd)

theorem kept_execRegisterWrite (port offset value : Nat) (s : State) : Ends s (execRegisterWrite port offset value s) := by
  unfold execRegisterWrite
  refine ends_done ?_
  have hk := Kept.refl s
  iterate 30 (try any_goals first | with_reducible assumption | with_reducible apply kept_done | with_reducible apply kept_effRegisterWrite | with_reducible apply Kept.each | with_reducible apply Kept.when | with_reducible apply Kept.fold | exact Eq.refl _ | decide | intro _ | (dsimp only) | split | fail_if_no_progress with_reducible apply Kept.upd)

theorem kept_execAutoRelockWrite (port value : Nat) (s : State) : Ends s (execAutoRelockWrite port value s) := by
  unfold execAutoRelockWrite
  refine ends_done ?_
  have hk := Kept.refl s
  iterate 30 (try any_goals first | with_reducible assumption | with_reducible apply kept_done | with_reducible apply kept_effRegisterWrite | with_reducible apply Kept.each | with_reducible apply Kept.when | with_reducible apply Kept.fold | exact Eq.refl _ | decide | intro _ | (dsimp only) | split | fail_if_no_progress with_reducible apply Kept.upd)

theorem kept_execCommit (port rail value : Nat) (s : State) : Ends s (execCommit port rail value s) := by
  unfold execCommit
  refine ends_done ?_
  have hk := Kept.refl s
  iterate 30 (try any_goals first | with_reducible assumption | with_reducible apply kept_done | with_reducible apply kept_effRegisterWrite | with_reducible apply Kept.each | with_reducible apply Kept.when | with_reducible apply Kept.fold | exact Eq.refl _ | decide | intro _ | (dsimp only) | split | fail_if_no_progress with_reducible apply Kept.upd)

theorem kept_execGovWarmReset (port value : Nat) (s : State) : Ends s (execGovWarmReset port value s) := by
  unfold execGovWarmReset
  refine ends_done ?_
  have hk := Kept.refl s
  iterate 30 (try any_goals first | with_reducible assumption | with_reducible apply kept_done | with_reducible apply kept_effRegisterWrite | with_reducible apply Kept.each | with_reducible apply Kept.when | with_reducible apply Kept.fold | exact Eq.refl _ | decide | intro _ | (dsimp only) | split | fail_if_no_progress with_reducible apply Kept.upd)

theorem kept_execAcceleratorReset (port value : Nat) (s : State) : Ends s (execAcceleratorReset port value s) := by
  unfold execAcceleratorReset
  refine ends_done ?_
  have hk := Kept.refl s
  iterate 30 (try any_goals first | with_reducible assumption | with_reducible apply kept_done | with_reducible apply kept_effRegisterWrite | with_reducible apply Kept.each | with_reducible apply Kept.when | with_reducible apply Kept.fold | exact Eq.refl _ | decide | intro _ | (dsimp only) | split | fail_if_no_progress with_reducible apply Kept.upd)

theorem kept_execDieReset (port value : Nat) (s : State) : Ends s (execDieReset port value s) := by
  unfold execDieReset
  refine ends_done ?_
  have hk := Kept.refl s
  iterate 30 (try any_goals first | with_reducible assumption | with_reducible apply kept_done | with_reducible apply kept_effRegisterWrite | with_reducible apply Kept.each | with_reducible apply Kept.when | with_reducible apply Kept.fold | exact Eq.refl _ | decide | intro _ | (dsimp only) | split | fail_if_no_progress with_reducible apply Kept.upd)

theorem kept_execG1Enter (port value : Nat) (s : State) : Ends s (execG1Enter port value s) := by
  unfold execG1Enter
  refine ends_done ?_
  have hk := Kept.refl s
  iterate 30 (try any_goals first | with_reducible assumption | with_reducible apply kept_done | with_reducible apply kept_effRegisterWrite | with_reducible apply Kept.each | with_reducible apply Kept.when | with_reducible apply Kept.fold | exact Eq.refl _ | decide | intro _ | (dsimp only) | split | fail_if_no_progress with_reducible apply Kept.upd)

theorem kept_execG2Enter (port value : Nat) (s : State) : Ends s (execG2Enter port value s) := by
  unfold execG2Enter
  refine ends_done ?_
  have hk := Kept.refl s
  iterate 30 (try any_goals first | with_reducible assumption | with_reducible apply kept_done | with_reducible apply kept_effRegisterWrite | with_reducible apply Kept.each | with_reducible apply Kept.when | with_reducible apply Kept.fold | exact Eq.refl _ | decide | intro _ | (dsimp only) | split | fail_if_no_progress with_reducible apply Kept.upd)

theorem kept_execG0Return (port value : Nat) (s : State) : Ends s (execG0Return port value s) := by
  unfold execG0Return
  refine ends_done ?_
  have hk := Kept.refl s
  iterate 30 (try any_goals first | with_reducible assumption | with_reducible apply kept_done | with_reducible apply kept_effRegisterWrite | with_reducible apply Kept.each | with_reducible apply Kept.when | with_reducible apply Kept.fold | exact Eq.refl _ | decide | intro _ | (dsimp only) | split | fail_if_no_progress with_reducible apply Kept.upd)

theorem kept_execG3Request (port value : Nat) (s : State) : Ends s (execG3Request port value s) := by
  unfold execG3Request
  refine ends_done ?_
  have hk := Kept.refl s
  iterate 30 (try any_goals first | with_reducible assumption | with_reducible apply kept_done | with_reducible apply kept_effRegisterWrite | with_reducible apply Kept.each | with_reducible apply Kept.when | with_reducible apply Kept.fold | exact Eq.refl _ | decide | intro _ | (dsimp only) | split | fail_if_no_progress with_reducible apply Kept.upd)

theorem kept_execWatchdogKick (port value : Nat) (s : State) : Ends s (execWatchdogKick port value s) := by
  unfold execWatchdogKick
  refine ends_done ?_
  have hk := Kept.refl s
  iterate 30 (try any_goals first | with_reducible assumption | with_reducible apply kept_done | with_reducible apply kept_effRegisterWrite | with_reducible apply Kept.each | with_reducible apply Kept.when | with_reducible apply Kept.fold | exact Eq.refl _ | decide | intro _ | (dsimp only) | split | fail_if_no_progress with_reducible apply Kept.upd)

theorem kept_execSafFaultClear (port value : Nat) (s : State) : Ends s (execSafFaultClear port value s) := by
  unfold execSafFaultClear
  refine ends_done ?_
  have hk := Kept.refl s
  iterate 30 (try any_goals first | with_reducible assumption | with_reducible apply kept_done | with_reducible apply kept_effRegisterWrite | with_reducible apply Kept.each | with_reducible apply Kept.when | with_reducible apply Kept.fold | exact Eq.refl _ | decide | intro _ | (dsimp only) | split | fail_if_no_progress with_reducible apply Kept.upd)

theorem kept_i3cWords {z s : State} (l : List Nat) (off : Nat) (hk : Kept z s) : Kept z (i3cWords l off s) := by
  fun_induction i3cWords l off s with
  | case1 _ _ _ _ _ _ _ ih => exact ih (kept_effRegisterWrite _ _ _ hk)
  | case2 => exact hk

theorem kept_effI3cWrite {z s : State} (data : List Nat) (hk : Kept z s) : Kept z (effI3cWrite data s) := by
  unfold effI3cWrite
  iterate 30 (try any_goals first | with_reducible assumption | with_reducible apply kept_i3cWords | with_reducible apply kept_setI3c | with_reducible apply kept_violation | with_reducible apply Kept.each | with_reducible apply Kept.when | with_reducible apply Kept.fold | exact Eq.refl _ | decide | intro _ | (dsimp only) | split | fail_if_no_progress with_reducible apply Kept.upd)

theorem kept_execI3cPrivateWrite (data : List Nat) (s : State) : Ends s (execI3cPrivateWrite data s) := by
  unfold execI3cPrivateWrite
  refine ends_done ?_
  have hk := Kept.refl s
  iterate 30 (try any_goals first | with_reducible assumption | with_reducible apply kept_done | with_reducible apply kept_effI3cWrite | with_reducible apply Kept.each | with_reducible apply Kept.when | with_reducible apply Kept.fold | exact Eq.refl _ | decide | intro _ | (dsimp only) | split | fail_if_no_progress with_reducible apply Kept.upd)

theorem kept_flashWrite {z s : State} (o size : Nat) (b : List Nat) (hk : Kept z s) : Kept z (flashWrite o size b s) := by
  unfold flashWrite
  iterate 30 (try any_goals first | with_reducible assumption | with_reducible apply kept_emit | with_reducible apply Kept.wipe | with_reducible apply Kept.writeBytes | with_reducible apply Kept.each | with_reducible apply Kept.when | with_reducible apply Kept.fold | exact Eq.refl _ | decide | intro _ | (dsimp only) | split | fail_if_no_progress with_reducible apply Kept.upd)

theorem kept_fusesLoaded {z s : State} (hk : Kept z s) : Kept z (fusesLoaded s) := by
  unfold fusesLoaded
  iterate 30 (try any_goals first | with_reducible assumption | with_reducible apply kept_goStage | with_reducible apply kept_installKeys | with_reducible apply kept_retargetCore | with_reducible apply Kept.each | with_reducible apply Kept.when | with_reducible apply Kept.fold | exact Eq.refl _ | decide | intro _ | (dsimp only) | split | fail_if_no_progress with_reducible apply Kept.upd)

theorem kept_readMode {z s : State} (hk : Kept z s) : Kept z (readMode s) := by
  unfold readMode
  iterate 30 (try any_goals first | with_reducible assumption | with_reducible apply kept_drawn | with_reducible apply kept_setBoot | with_reducible apply Kept.each | with_reducible apply Kept.when | with_reducible apply Kept.fold | exact Eq.refl _ | decide | intro _ | (dsimp only) | split | fail_if_no_progress with_reducible apply Kept.upd)

theorem kept_takeImages {z s : State} (fw cfg : Nat) (hk : Kept z s) : Kept z (takeImages fw cfg s) := by
  unfold takeImages
  iterate 30 (try any_goals first | with_reducible assumption | with_reducible apply kept_drawn | with_reducible apply kept_loseAttest | with_reducible apply Kept.put | with_reducible apply kept_readMode | with_reducible apply kept_setBoot | with_reducible apply Kept.wipe | with_reducible apply Kept.writeBytes | with_reducible apply Kept.each | with_reducible apply Kept.when | with_reducible apply Kept.fold | exact Eq.refl _ | decide | intro _ | (dsimp only) | split | fail_if_no_progress with_reducible apply Kept.upd)

theorem kept_applySettings {z s : State} (l : List (Nat × Nat)) (hk : Kept z s) : Kept z (applySettings l s).1 := by
  fun_induction applySettings l s with
  | case1 => exact hk
  | case2 => exact kept_effRegisterWrite _ _ _ hk
  | case3 _ _ _ _ ih => exact ih (kept_effRegisterWrite _ _ _ hk)

theorem kept_applyConfig {z s : State} (hk : Kept z s) : Kept z (applyConfig s).1 := by
  unfold applyConfig
  dsimp only
  split
  · refine kept_applySettings _ ?_
    apply Kept.upd hk; rfl
  · exact hk

theorem kept_firmwareReady {z s : State} (hk : Kept z s) : Kept z (firmwareReady s) := by
  unfold firmwareReady
  iterate 30 (try any_goals first | with_reducible assumption | with_reducible apply Kept.put | with_reducible apply kept_setBoot | with_reducible apply Kept.each | with_reducible apply Kept.when | with_reducible apply Kept.fold | exact Eq.refl _ | decide | intro _ | (dsimp only) | split | fail_if_no_progress with_reducible apply Kept.upd)

theorem kept_warmFailed {z s : State} (hk : Kept z s) : Kept z (warmFailed s) := by
  unfold warmFailed
  iterate 30 (try any_goals first | with_reducible assumption | with_reducible apply kept_faultOn | with_reducible apply Kept.put | with_reducible apply kept_record | with_reducible apply kept_recovResume | with_reducible apply Kept.each | with_reducible apply Kept.when | with_reducible apply Kept.fold | exact Eq.refl _ | decide | intro _ | (dsimp only) | split | fail_if_no_progress with_reducible apply Kept.upd)

theorem kept_warmStageEnd {z s : State} (hk : Kept z s) : Kept z (warmStageEnd s) := by
  unfold warmStageEnd
  iterate 30 (try any_goals first | with_reducible assumption | with_reducible apply kept_applyConfig | with_reducible apply kept_firmwareReady | with_reducible apply kept_recovResume | with_reducible apply kept_ringListen | with_reducible apply kept_setBoot | with_reducible apply kept_takeImages | with_reducible apply kept_warmFailed | with_reducible apply Kept.each | with_reducible apply Kept.when | with_reducible apply Kept.fold | exact Eq.refl _ | decide | intro _ | (dsimp only) | split | fail_if_no_progress with_reducible apply Kept.upd)

theorem kept_effBootStageEnd {z s : State} (hk : Kept z s) : Kept z (effBootStageEnd s) := by
  unfold effBootStageEnd
  iterate 30 (try any_goals first | with_reducible assumption | with_reducible apply kept_applyConfig | with_reducible apply kept_bootFail | with_reducible apply kept_firmwareReady | with_reducible apply kept_fusesLoaded | with_reducible apply kept_goCore | (with_reducible apply kept_goMem) | with_reducible apply kept_goReady | with_reducible apply kept_goStage | with_reducible apply kept_goVin | with_reducible apply kept_recovResume | with_reducible apply kept_ringListen | (with_reducible apply kept_setPins) | with_reducible apply kept_takeImages | with_reducible apply kept_warmStageEnd | with_reducible apply Kept.each | with_reducible apply Kept.when | with_reducible apply Kept.fold | (exact Eq.refl _) | decide | intro _ | (dsimp only) | split | fail_if_no_progress with_reducible apply Kept.upd)

theorem kept_execBootStageEnd (s : State) : Ends s (execBootStageEnd s) := by
  unfold execBootStageEnd
  refine ends_done ?_
  have hk := Kept.refl s
  iterate 30 (try any_goals first | with_reducible assumption | with_reducible apply kept_done | with_reducible apply kept_effBootStageEnd | with_reducible apply Kept.each | with_reducible apply Kept.when | with_reducible apply Kept.fold | exact Eq.refl _ | decide | intro _ | (dsimp only) | split | fail_if_no_progress with_reducible apply Kept.upd)

theorem kept_effBootStageTimeout {z s : State} (sfdp : Bool) (hk : Kept z s) : Kept z (effBootStageTimeout sfdp s) := by
  unfold effBootStageTimeout
  iterate 30 (try any_goals first | with_reducible assumption | with_reducible apply kept_bootFail | with_reducible apply kept_goStage | with_reducible apply kept_powerDown | with_reducible apply Kept.put | with_reducible apply kept_setBoot | with_reducible apply kept_warmFailed | with_reducible apply Kept.each | with_reducible apply Kept.when | with_reducible apply Kept.fold | exact Eq.refl _ | decide | intro _ | (dsimp only) | split | fail_if_no_progress with_reducible apply Kept.upd)

theorem kept_execBootStageTimeout (sfdp : Bool) (s : State) : Ends s (execBootStageTimeout sfdp s) := by
  unfold execBootStageTimeout
  refine ends_done ?_
  have hk := Kept.refl s
  iterate 30 (try any_goals first | with_reducible assumption | with_reducible apply kept_done | with_reducible apply kept_effBootStageTimeout | with_reducible apply Kept.each | with_reducible apply Kept.when | with_reducible apply Kept.fold | exact Eq.refl _ | decide | intro _ | (dsimp only) | split | fail_if_no_progress with_reducible apply Kept.upd)

theorem kept_execFwOpen (port tag : Nat) (failed : Bool) (s : State) : Ends s (execFwOpen port tag failed s) := by
  unfold execFwOpen
  refine ends_done ?_
  have hk := Kept.refl s
  iterate 30 (try any_goals first | with_reducible assumption | with_reducible apply kept_command | with_reducible apply kept_complete | with_reducible apply kept_done | with_reducible apply kept_emit | with_reducible apply kept_setBoot | with_reducible apply Kept.wipe | with_reducible apply Kept.each | with_reducible apply Kept.when | with_reducible apply Kept.fold | exact Eq.refl _ | decide | intro _ | (dsimp only) | split | fail_if_no_progress with_reducible apply Kept.upd)

theorem kept_freeWords {z s : State} (a n : Nat) (hk : Kept z s) : Kept z (freeWords a n s) := by
  induction n generalizing s a with
  | zero => unfold freeWords; exact hk
  | succ n ih => unfold freeWords; exact ih _ (kept_drawn (hk.writeWord32 _ _))

theorem kept_execFwWrite (port tag : Nat) (failed : Bool) (s : State) : Ends s (execFwWrite port tag failed s) := by
  unfold execFwWrite
  refine ends_done ?_
  have hk := Kept.refl s
  iterate 30 (try any_goals first | with_reducible assumption | with_reducible apply kept_command | with_reducible apply kept_complete | with_reducible apply kept_done | with_reducible apply kept_emit | with_reducible apply kept_freeWords | with_reducible apply kept_setBoot | with_reducible apply kept_writeWords | with_reducible apply Kept.each | with_reducible apply Kept.when | with_reducible apply Kept.fold | exact Eq.refl _ | decide | intro _ | (dsimp only) | split | fail_if_no_progress with_reducible apply Kept.upd)

theorem kept_cutRecord {z s : State} (copy n : Nat) (b : List Nat) (hk : Kept z s) : Kept z (cutRecord copy n b s) := by
  unfold cutRecord
  iterate 30 (try any_goals first | with_reducible assumption | with_reducible apply kept_flashWrite | with_reducible apply Kept.each | with_reducible apply Kept.when | with_reducible apply Kept.fold | exact Eq.refl _ | decide | intro _ | (dsimp only) | split | fail_if_no_progress with_reducible apply Kept.upd)

theorem kept_execFwCommit (port tag : Nat) (write : RecordWrite) (s : State) : Ends s (execFwCommit port tag write s) := by
  unfold execFwCommit
  refine ends_done ?_
  have hk := Kept.refl s
  iterate 30 (try any_goals first | with_reducible assumption | with_reducible apply kept_command | with_reducible apply kept_complete | with_reducible apply kept_cutRecord | with_reducible apply kept_done | with_reducible apply kept_effColdReset | with_reducible apply kept_flashWrite | with_reducible apply kept_record | with_reducible apply kept_setBoot | with_reducible apply Kept.each | with_reducible apply Kept.when | with_reducible apply Kept.fold | exact Eq.refl _ | decide | intro _ | (dsimp only) | split | fail_if_no_progress with_reducible apply Kept.upd)

theorem kept_execFwRestart (port tag : Nat) (s : State) : Ends s (execFwRestart port tag s) := by
  unfold execFwRestart
  refine ends_done ?_
  have hk := Kept.refl s
  iterate 30 (try any_goals first | with_reducible assumption | with_reducible apply kept_command | with_reducible apply kept_done | with_reducible apply kept_leaveBootFail | with_reducible apply kept_markStarted | with_reducible apply kept_orphan | with_reducible apply kept_setBoot | with_reducible apply kept_startWarm | with_reducible apply kept_trigger | with_reducible apply Kept.each | with_reducible apply Kept.when | with_reducible apply Kept.fold | exact Eq.refl _ | decide | intro _ | (dsimp only) | split | fail_if_no_progress with_reducible apply Kept.upd)

theorem kept_askCounts {z s : State} (hk : Kept z s) : Kept z (askCounts s) := by
  unfold askCounts
  iterate 30 (try any_goals first | with_reducible assumption | with_reducible apply kept_keySend | with_reducible apply Kept.each | with_reducible apply Kept.when | with_reducible apply Kept.fold | exact Eq.refl _ | decide | intro _ | (dsimp only) | split | fail_if_no_progress with_reducible apply Kept.upd)

theorem kept_microsecond {z s : State} (hk : Kept z s) : Kept z (microsecond s) := by
  unfold microsecond
  iterate 30 (try any_goals first | with_reducible assumption | with_reducible apply Kept.addSat | with_reducible apply Kept.addWrap | with_reducible apply kept_askCounts | with_reducible apply Kept.put | with_reducible apply kept_scrubFalls | with_reducible apply Kept.each | with_reducible apply Kept.when | with_reducible apply Kept.fold | exact Eq.refl _ | decide | intro _ | (dsimp only) | split | fail_if_no_progress with_reducible apply Kept.upd)

theorem kept_keepShown {z s : State} (f : Field) (v : Nat) (hk : Kept z s) : Kept z (keepShown f v s) := by
  unfold keepShown
  iterate 30 (try any_goals first | with_reducible assumption | with_reducible apply Kept.each | with_reducible apply Kept.when | with_reducible apply Kept.fold | exact Eq.refl _ | decide | intro _ | (dsimp only) | split | fail_if_no_progress with_reducible apply Kept.upd)

theorem kept_second {z s : State} (hk : Kept z s) : Kept z (second s) := by
  unfold second
  iterate 30 (try any_goals first | with_reducible assumption | with_reducible apply kept_keepShown | with_reducible apply Kept.put | with_reducible apply Kept.each | with_reducible apply Kept.when | with_reducible apply Kept.fold | exact Eq.refl _ | decide | intro _ | (dsimp only) | split | fail_if_no_progress with_reducible apply Kept.upd)

theorem kept_tick {z s : State} (hk : Kept z s) : Kept z (tick s) := by
  unfold tick
  iterate 30 (try any_goals first | with_reducible assumption | with_reducible apply Kept.addWrap | with_reducible apply kept_drawn | with_reducible apply kept_microsecond | with_reducible apply kept_second | with_reducible apply Kept.each | with_reducible apply Kept.when | with_reducible apply Kept.fold | exact Eq.refl _ | decide | intro _ | (dsimp only) | split | fail_if_no_progress with_reducible apply Kept.upd)

end Sys2Proof.Machine
end

