-- ==== Sys2Proof/Laws/Scan.lean ====
section
/-! SUPPORT. Sys2Proof/Laws/Scan.lean: CRC-32 tells blocks apart that differ early and go on alike, and what that says of the
scan of the settings (R649). -/

namespace Sys2Proof.Machine

/-- A bit of CRC-32 takes different remainders to different ones. -/
theorem crcBit_inj {a b : Nat} (ha : a < 2 ^ 32) (hb : b < 2 ^ 32)
    (h : (if a % 2 = 1 then a / 2 ^^^ 0xEDB88320 else a / 2) = if b % 2 = 1 then b / 2 ^^^ 0xEDB88320 else b / 2) : a = b := by
  have top : ∀ x, x < 2 ^ 32 → ∀ y, y < 2 ^ 32 → x / 2 ^^^ 0xEDB88320 ≠ y / 2 := fun x hx y hy e => by
    have ht := congrArg (Nat.testBit · 31) e
    simp only [Nat.testBit_xor] at ht
    rw [Nat.testBit_lt_two_pow (by omega : x / 2 < 2 ^ 31), Nat.testBit_lt_two_pow (by omega : y / 2 < 2 ^ 31)] at ht
    exact absurd ht (by decide)
  by_cases h1 : a % 2 = 1 <;> by_cases h2 : b % 2 = 1 <;> simp only [h1, h2, if_true, if_false] at h
  · have := Nat.xor_left_inj.1 h; omega
  · exact absurd h (top a ha b hb)
  · exact absurd h.symm (top b hb a ha)
  · omega

/-- A bit of CRC-32 stays within 32 bits. -/
theorem crcBit_lt {a : Nat} (ha : a < 2 ^ 32) : (if a % 2 = 1 then a / 2 ^^^ 0xEDB88320 else a / 2) < 2 ^ 32 := by
  split
  · exact Nat.xor_lt_two_pow (by omega) (by decide)
  · omega

/-- What holds of both of two folds' starts, and is kept by a step, holds of both ends. -/
theorem foldl_pair {α β : Type} {P : β → β → Prop} {f : β → α → β} (hf : ∀ a b x, P a b → P (f a x) (f b x)) :
    ∀ (l : List α) {a b : β}, P a b → P (l.foldl f a) (l.foldl f b)
  | [], _, _, h => h
  | x :: l, _, _, h => foldl_pair hf l (hf _ _ x h)

/-- CRC-32 tells two blocks apart that begin with different remainders and go on alike. -/
theorem crc32_ne {p q m : List Nat} (h : crc32 p ≠ crc32 q) (hp : crc32 p < 2 ^ 32) (hq : crc32 q < 2 ^ 32) :
    crc32 (p ++ m) ≠ crc32 (q ++ m) := by
  have back : ∀ x : Nat, (x ^^^ 0xFFFFFFFF) ^^^ 0xFFFFFFFF = x := fun x => by rw [Nat.xor_assoc, Nat.xor_self, Nat.xor_zero]
  unfold crc32 at *
  rw [List.foldl_append, List.foldl_append]
  intro e
  have e := Nat.xor_left_inj.1 e
  revert e
  refine (foldl_pair (P := fun a b => a < 2 ^ 32 ∧ b < 2 ^ 32 ∧ a ≠ b) ?_ m ⟨?_, ?_, fun e => h (by rw [e])⟩).2.2
  · intro a b x ⟨ha, hb, hn⟩
    refine foldl_pair (P := fun a b => a < 2 ^ 32 ∧ b < 2 ^ 32 ∧ a ≠ b)
      (fun a b _ ⟨ha, hb, hn⟩ => ⟨crcBit_lt ha, crcBit_lt hb, fun e => hn (crcBit_inj ha hb e)⟩) _ ⟨?_, ?_, fun e => hn (Nat.xor_left_inj.1 e)⟩
    · exact Nat.xor_lt_two_pow ha (by omega)
    · exact Nat.xor_lt_two_pow hb (by omega)
  · rw [← back (p.foldl _ _)]; exact Nat.xor_lt_two_pow hp (by decide)
  · rw [← back (q.foldl _ _)]; exact Nat.xor_lt_two_pow hq (by decide)

/-- The first setting of the scan, and that no other has its key. -/
theorem scan_first : ∃ l, scanFields = R.PST_CTRL.SYNC_EN :: l ∧ (l.all fun f => fieldKey f != fieldKey R.PST_CTRL.SYNC_EN) = true :=
  ⟨scanFields.tail, List.eq_cons_of_mem_head? (by
    show scanFields.head? = some R.PST_CTRL.SYNC_EN
    decide +kernel), by decide +kernel⟩

/-- An upset whose CRC differs fails the scan. -/
theorem scan_fails {s : State} (hu : s.boot.upset.isEmpty = false) (hc : scanCrc (get s) ≠ scanCrc (refValue s)) : scanFails s = true := by
  unfold scanFails
  rw [hu, decide_eq_true hc]
  rfl

/-- Scans of values that agree but in the first setting have different CRCs, where that setting's words have. -/
theorem scan_ne {v w : Field → Nat} (h : ∀ f, fieldKey f ≠ fieldKey R.PST_CTRL.SYNC_EN → v f = w f)
    (hv : v R.PST_CTRL.SYNC_EN = 0) (hw : w R.PST_CTRL.SYNC_EN = 1) : scanCrc v ≠ scanCrc w := by
  obtain ⟨l, hs, hk⟩ := scan_first
  have hr : l.flatMap (fun f => leBytes 4 (v f)) = l.flatMap fun f => leBytes 4 (w f) :=
    List.flatMap_congr fun f hf => by rw [h f (by simpa using List.all_eq_true.1 hk f hf)]
  unfold scanCrc
  rw [hs, List.flatMap_cons, List.flatMap_cons, hr, hv, hw]
  exact crc32_ne (by decide +kernel) (by decide +kernel) (by decide +kernel)

/-- A setting that was not upset is its own reference. -/
theorem ref_other {s : State} {f : Field} {k v : Nat} (hu : s.boot.upset = [(k, v)]) (h : fieldKey f ≠ k) : get s f = refValue s f := by
  simp [refValue, hu, Ne.symm h]

end Sys2Proof.Machine
end

