-- ==== Sys2Proof/WellFormed.lean ====
section
/-! DEFINITION. Sys2Proof/WellFormed.lean: which commands are well formed, that is, name a port, die, rail,
phase, lane and the like that the numbering of the spec has (R29 to R31, R390, R494, R546) and carry values
of their widths. Every meaning is total: an ill-formed command has no effect of its own. -/

namespace Sys2Proof

/-- A frame names one of the two lanes and is bytes, no longer than the longest frame (R660). -/
def Frame.wf (f : Frame) : Bool := decide (f.lane < 2) && decide (f.bytes.length ≤ 72) && f.bytes.all fun b => decide (b < 256)

/-- A frame from one of the 16 dies. -/
def Arrival.wf (a : Arrival) : Bool := decide (a.die < 16) && a.frame.wf

/-- Every operand lies in the range its numbering has. -/
def Instr.wf : Instr → Bool
  | .judgeWindow _ => true
  | .lockMonitorWindow _ => true
  | .lockRetry => true
  | .bootClockTimeout => true
  | .refLost => true
  | .coastEnter => true
  | .relockStart => true
  | .relockTimeout => true
  | .autoRelockWrite port value => decide (port < 10) && decide (value < 2 ^ 32)
  | .laneLoss die lane => decide (die < 16) && decide (lane < 2)
  | .laneRetrain die lane => decide (die < 16) && decide (lane < 2)
  | .laneRestore die lane => decide (die < 16) && decide (lane < 2)
  | .linkLost die => decide (die < 16)
  | .linkRestore die => decide (die < 16)
  | .linkTrained die => decide (die < 16)
  | .budgetFrame die frame kind _ _ => decide (die < 16) && frame.wf && decide (kind < 4)
  | .thresholdFrame die frame _ => decide (die < 16) && frame.wf
  | .tokensUsedFrame die frame _ _ _ => decide (die < 16) && frame.wf
  | .tlmFrame stage lane word => decide (stage < 25) && decide (lane < 2) && decide (word < 2 ^ 64)
  | .tlmMissingFrame stage lane => decide (stage < 25) && decide (lane < 2)
  | .tlmLost stage lane => decide (stage < 25) && decide (lane < 2)
  | .superframe stage _ => decide (stage < 25)
  | .syncAcquire _ => true
  | .syncLoss => true
  | .loopEvaluation _ _ _ _ _ => true
  | .cmpHold rail => decide (rail < 33)
  | .feHold rail => decide (rail < 33)
  | .hiccupEnter phase => decide (phase < 200)
  | .hiccupEnd phase => decide (phase < 200)
  | .hiccupRunClear phase => decide (phase < 200)
  | .phaseRampEnd phase => decide (phase < 200)
  | .shedPhase rail => decide (rail < 33)
  | .brakeTimeout rail => decide (rail < 33)
  | .openPhase phase => decide (phase < 200)
  | .senseFailure phase => decide (phase < 200)
  | .pmbPoll _ => true
  | .pmbAlert _ => true
  | .phaseRetire port tag => decide (port < 10) && decide (tag < 2 ^ 16)
  | .phaseRestore port tag => decide (port < 10) && decide (tag < 2 ^ 16)
  | .convVoutSet port tag _ => decide (port < 10) && decide (tag < 2 ^ 16)
  | .convClear port tag _ => decide (port < 10) && decide (tag < 2 ^ 16)
  | .commit port rail value => decide (port < 10) && decide (rail < 33) && decide (value < 2 ^ 32)
  | .loopResume port tag => decide (port < 10) && decide (tag < 2 ^ 16)
  | .loopTest port tag => decide (port < 10) && decide (tag < 2 ^ 16)
  | .loopTestStop port tag => decide (port < 10) && decide (tag < 2 ^ 16)
  | .loopTestEnd => true
  | .counterLatch _ => true
  | .firstLayerDone die => decide (die < 16)
  | .estimateFrame die frame _ => decide (die < 16) && frame.wf
  | .secondStage => true
  | .trimUpdate => true
  | .modelSwitch => true
  | .stageTimeout => true
  | .modelOpen port tag => decide (port < 10) && decide (tag < 2 ^ 16)
  | .modelWrite port tag => decide (port < 10) && decide (tag < 2 ^ 16)
  | .modelLoad port tag => decide (port < 10) && decide (tag < 2 ^ 16)
  | .modelClose port tag => decide (port < 10) && decide (tag < 2 ^ 16)
  | .modelRevert port tag => decide (port < 10) && decide (tag < 2 ^ 16)
  | .trimReset port tag => decide (port < 10) && decide (tag < 2 ^ 16)
  | .intentPacket die word => decide (die < 16) && decide (word < 2 ^ 64)
  | .intentFrame die lane bytes _ => decide (die < 16) && Frame.wf ⟨lane, bytes⟩
  | .entryExpire die source => decide (die < 16) && decide (source < 8)
  | .mismatchEnter die => decide (die < 16)
  | .mismatchExit die => decide (die < 16)
  | .droopDetect die site => decide (die < 16) && decide (site < 4)
  | .droopClear die sites => decide (die < 16) && decide (sites < 16)
  | .droopReport die frame mask _ => decide (die < 16) && frame.wf && decide (mask < 16)
  | .siteStuck die site => decide (die < 16) && decide (site < 4)
  | .siteTest die failing => decide (die < 16) && decide (failing < 16)
  | .intentReset port tag => decide (port < 10) && decide (tag < 2 ^ 16)
  | .droopSiteRestore port tag failing => decide (port < 10) && decide (tag < 2 ^ 16) && decide (failing < 16)
  | .droopForce port tag => decide (port < 10) && decide (tag < 2 ^ 16)
  | .agentSlot die work cut =>
    decide (die < 16) && decide (work.asks.length ≤ 120) && decide (work.free.length ≤ 120) && decide (work.fed.length ≤ 32) && cut.cycles.all (· < 120)
  | .episodeEnd die => decide (die < 16)
  | .packageArbitration _ => true
  | .warmTimeout => true
  | .warmupEnd port tag => decide (port < 10) && decide (tag < 2 ^ 16)
  | .brownEnter => true
  | .brownExit => true
  | .brownExpired => true
  | .brownReset => true
  | .averageUpdate => true
  | .opFrequencySend die => decide (die < 16)
  | .opChange report => report.wf
  | .deferredApply => true
  | .deferMax => true
  | .capSetDone => true
  | .capSet port tag => decide (port < 10) && decide (tag < 2 ^ 16)
  | .opTableSet port tag => decide (port < 10) && decide (tag < 2 ^ 16)
  | .opLimit port tag => decide (port < 10) && decide (tag < 2 ^ 16)
  | .modeSet port tag => decide (port < 10) && decide (tag < 2 ^ 16)
  | .hintSet port tag => decide (port < 10) && decide (tag < 2 ^ 16)
  | .classSet port tag => decide (port < 10) && decide (tag < 2 ^ 16)
  | .fpTarget port tag => decide (port < 10) && decide (tag < 2 ^ 16)
  | .conversionOpen => true
  | .windowClose report _ => report.wf
  | .thermalConversion opened closed => decide (opened ≤ closed)
  | .stackReport stack frame _ => decide (stack < 16) && frame.wf
  | .stackStale stack => decide (stack < 16)
  | .thermThreshSet port tag => decide (port < 10) && decide (tag < 2 ^ 16)
  | .sensorExclude port tag => decide (port < 10) && decide (tag < 2 ^ 16)
  | .sensorReadmit port tag => decide (port < 10) && decide (tag < 2 ^ 16)
  | .thermRelease port tag => decide (port < 10) && decide (tag < 2 ^ 16)
  | .masterFrameStart => true
  | .ringFrame _ _ => true
  | .balanceRound => true
  | .lRingApply => true
  | .ringJoin => true
  | .masterTakeover => true
  | .masterYield => true
  | .noMaster => true
  | .bypassClose => true
  | .digestRecompute => true
  | .getConfigDigest port tag => decide (port < 10) && decide (tag < 2 ^ 16)
  | .ringForget port tag => decide (port < 10) && decide (tag < 2 ^ 16)
  | .snapshot => true
  | .queueTaps report _ => report.wf
  | .tapLate die => decide (die < 16)
  | .walk _ => true
  | .engineFault report ctx engine fault =>
    report.wf && decide (ctx < 4096) && decide (engine < 256) && decide (fault.code < 2 ^ 16)
  | .policyQueue ctx => decide (ctx < 4096)
  | .sequenceStart => true
  | .fenceAck who _ => decide (who < 17)
  | .drainEnd who _ => decide (who < 17)
  | .abortAck who _ => decide (who < 17)
  | .captureDone _ _ => true
  | .captureOverrun _ => true
  | .clearAck => true
  | .releaseAck => true
  | .sequenceStuck => true
  | .ctxReset port tag => decide (port < 10) && decide (tag < 2 ^ 16)
  | .ctxDismiss port tag => decide (port < 10) && decide (tag < 2 ^ 16)
  | .returnToService port tag => decide (port < 10) && decide (tag < 2 ^ 16)
  | .capwinSet port tag => decide (port < 10) && decide (tag < 2 ^ 16)
  | .captureFree port tag => decide (port < 10) && decide (tag < 2 ^ 16)
  | .entropyFail => true
  | .drbgReseed => true
  | .keyCommit part => decide (part < 16)
  | .keybusTimeout part => decide (part < 16)
  | .prevEpochCount part _ _ => decide (part < 16)
  | .scrubOverwriteDone part _ => decide (part < 16)
  | .scrubFail part => decide (part < 16)
  | .partSet port tag => decide (port < 10) && decide (tag < 2 ^ 16)
  | .partScrub port tag => decide (port < 10) && decide (tag < 2 ^ 16)
  | .portBind port tag => decide (port < 10) && decide (tag < 2 ^ 16)
  | .spdmMsg port tag => decide (port < 10) && decide (tag < 2 ^ 16)
  | .keyRelease port tag => decide (port < 10) && decide (tag < 2 ^ 16)
  | .keyRotate port tag => decide (port < 10) && decide (tag < 2 ^ 16)
  | .debugSet port tag => decide (port < 10) && decide (tag < 2 ^ 16)
  | .commandFetch port _ => decide (port < 10)
  | .cmdSqTailWrite port value => decide (port < 10) && decide (value < 2 ^ 32)
  | .cmdCqHeadWrite port value => decide (port < 10) && decide (value < 2 ^ 32)
  | .negotiate port tag => decide (port < 10) && decide (tag < 2 ^ 16)
  | .violClear port tag => decide (port < 10) && decide (tag < 2 ^ 16)
  | .lockForce port tag => decide (port < 10) && decide (tag < 2 ^ 16)
  | .accessViolation port offset _ _ value => decide (port < 10) && decide (offset < 2 ^ 22) && decide (value < 2 ^ 32)
  | .registerWrite port offset value => decide (port < 10) && decide (offset < 2 ^ 22) && decide (value < 2 ^ 32)
  | .highWordLatch port offset => decide (port < 10) && decide (offset < 2 ^ 22)
  | .mbxSend port value => decide (port < 10) && decide (value < 2 ^ 32)
  | .mbxForward dst => decide (dst < 9)
  | .mbxRecv port => decide (port < 10)
  | .notifyEnableWrite port value => decide (port < 10) && decide (value < 2 ^ 32)
  | .lockRead lock _ => decide (lock < 64)
  | .lockRelease port lock value => decide (port < 10) && decide (lock < 64) && decide (value < 2 ^ 32)
  | .i3cPrivateWrite _ => true
  | .i3cPrivateRead _ => true
  | .entdaa address => decide (address < 128)
  | .rstdaa => true
  | .enec events => decide (events < 256)
  | .disec events => decide (events < 256)
  | .setmwl _ => true
  | .setmrl _ => true
  | .getpid => true
  | .getbcr => true
  | .getdcr => true
  | .getstatus => true
  | .getmwl => true
  | .getmrl => true
  | .recordWrite => true
  | .recordReadLatch port offset => decide (port < 10) && decide (offset < 2 ^ 22)
  | .watchTrigger trigger => decide (trigger < 8)
  | .healthCompute => true
  | .recTrigSet port tag => decide (port < 10) && decide (tag < 2 ^ 16)
  | .recSnapSet port tag => decide (port < 10) && decide (tag < 2 ^ 16)
  | .recClear port tag => decide (port < 10) && decide (tag < 2 ^ 16)
  | .recClearDone => true
  | .healthSet port tag => decide (port < 10) && decide (tag < 2 ^ 16)
  | .supplyGood => true
  | .coldReset cause => decide (cause.feed < 64)
  | .bootStageEnd => true
  | .bootStageTimeout _ => true
  | .govWarmReset port value => decide (port < 10) && decide (value < 2 ^ 32)
  | .acceleratorReset port value => decide (port < 10) && decide (value < 2 ^ 32)
  | .accResetEnd => true
  | .dieReset port value => decide (port < 10) && decide (value < 2 ^ 32)
  | .dieResetEnd die => decide (die < 16)
  | .g1Enter port value => decide (port < 10) && decide (value < 2 ^ 32)
  | .g2Enter port value => decide (port < 10) && decide (value < 2 ^ 32)
  | .g0Return port value => decide (port < 10) && decide (value < 2 ^ 32)
  | .g3Request port value => decide (port < 10) && decide (value < 2 ^ 32)
  | .g2Abandoned die => decide (die < 16)
  | .powerDown => true
  | .autoRestart => true
  | .lockstepMismatch => true
  | .watchdogExpire => true
  | .watchdogKick port value => decide (port < 10) && decide (value < 2 ^ 32)
  | .sramUe => true
  | .sramCe _ => true
  | .fwRequest => true
  | .fwRestartDone upsets => upsets.all fun u => decide (u.1 < 2 ^ 22) && decide (u.2 < 256)
  | .svnAdv kind => decide (kind < 2)
  | .configScan upsets => upsets.all fun u => decide (u.offset < 2 ^ 22) && decide (u.mask < 2 ^ 32)
  | .safFaultClear port value => decide (port < 10) && decide (value < 2 ^ 32)
  | .fwOpen port tag _ => decide (port < 10) && decide (tag < 2 ^ 16)
  | .fwWrite port tag _ => decide (port < 10) && decide (tag < 2 ^ 16)
  | .fwCommit port tag write => decide (port < 10) && decide (tag < 2 ^ 16) && (match write with
    | .cut copy bytes => decide (copy < 2) && decide (bytes < 16)
    | .whole => true
    | .failed => true)
  | .fwRestart port tag => decide (port < 10) && decide (tag < 2 ^ 16)
  | .selfRefreshReport report => report.wf
  | .keyBusAcknowledgement part order => decide (part < 16) && decide (order < 8)
  | .entropySourceRestart => true
  | .readVoutAfterWrite port tag value _ => decide (port < 10) && decide (tag < 2 ^ 16) && decide (value < 2 ^ 32)
  | .correctableErrorReport report _ => report.wf

end Sys2Proof
end

