-- ==== Sys2Proof/Tests/Slice0.lean ====
section
/-! SUPPORT. Sys2Proof/Tests/Slice0.lean: an ill-formed command for each check, the worked examples of the spec, and for each
clause of a statement with hypotheses a state and operands that meet them all. -/

open Sys2Proof Sys2Proof.Machine

set_option Elab.async false

namespace Sys2Proof.Tests

/-! The checks of Instr.wf. -/

/-- Each of these commands breaks one check of Instr.wf, and is refused. -/
theorem test_ill_formed_0 : ([
    .autoRelockWrite 10 0, .autoRelockWrite 0 (2 ^ 32), .laneLoss 16 0, .laneLoss 0 2, .laneRetrain 16 0, .laneRetrain 0 2,
    .laneRestore 16 0, .laneRestore 0 2, .linkLost 16, .linkRestore 16, .linkTrained 16, .budgetFrame 16 ⟨0, []⟩ 0 0 0,
    .budgetFrame 0 ⟨0, []⟩ 4 0 0, .budgetFrame 0 ⟨2, []⟩ 0 0 0, .thresholdFrame 16 ⟨0, []⟩ 0, .thresholdFrame 0 ⟨2, []⟩ 0,
    .tokensUsedFrame 16 ⟨0, []⟩ 0 0 false, .tokensUsedFrame 0 ⟨2, []⟩ 0 0 false, .tlmFrame 25 0 0, .tlmFrame 0 2 0,
    .tlmFrame 0 0 (2 ^ 64), .tlmMissingFrame 25 0, .tlmMissingFrame 0 2, .tlmLost 25 0, .tlmLost 0 2, .superframe 25 false, .cmpHold 33,
    .feHold 33, .hiccupEnter 200, .hiccupEnd 200, .hiccupRunClear 200, .phaseRampEnd 200, .shedPhase 33, .brakeTimeout 33,
    .openPhase 200, .senseFailure 200, .phaseRetire 10 0, .phaseRetire 0 (2 ^ 16), .phaseRestore 10 0, .phaseRestore 0 (2 ^ 16),
    .convVoutSet 10 0 ⟨false, false⟩, .convVoutSet 0 (2 ^ 16) ⟨false, false⟩, .convClear 10 0 ⟨false, false⟩,
    .convClear 0 (2 ^ 16) ⟨false, false⟩, .commit 10 0 0] : List Instr).all (fun c => !c.wf) = true := by decide +kernel

/-- The same operands at their last value pass. -/
theorem test_well_formed_0 : ([
    .autoRelockWrite (10 - 1) 0, .autoRelockWrite 0 (2 ^ 32 - 1), .laneLoss (16 - 1) 0, .laneLoss 0 (2 - 1), .laneRetrain (16 - 1) 0,
    .laneRetrain 0 (2 - 1), .laneRestore (16 - 1) 0, .laneRestore 0 (2 - 1), .linkLost (16 - 1), .linkRestore (16 - 1),
    .linkTrained (16 - 1), .budgetFrame (16 - 1) ⟨0, []⟩ 0 0 0, .budgetFrame 0 ⟨0, []⟩ (4 - 1) 0 0, .budgetFrame 0 ⟨1, []⟩ 0 0 0,
    .thresholdFrame (16 - 1) ⟨0, []⟩ 0, .thresholdFrame 0 ⟨1, []⟩ 0, .tokensUsedFrame (16 - 1) ⟨0, []⟩ 0 0 false,
    .tokensUsedFrame 0 ⟨1, []⟩ 0 0 false, .tlmFrame (25 - 1) 0 0, .tlmFrame 0 (2 - 1) 0, .tlmFrame 0 0 (2 ^ 64 - 1),
    .tlmMissingFrame (25 - 1) 0, .tlmMissingFrame 0 (2 - 1), .tlmLost (25 - 1) 0, .tlmLost 0 (2 - 1), .superframe (25 - 1) false,
    .cmpHold (33 - 1), .feHold (33 - 1), .hiccupEnter (200 - 1), .hiccupEnd (200 - 1), .hiccupRunClear (200 - 1),
    .phaseRampEnd (200 - 1), .shedPhase (33 - 1), .brakeTimeout (33 - 1), .openPhase (200 - 1), .senseFailure (200 - 1),
    .phaseRetire (10 - 1) 0, .phaseRetire 0 (2 ^ 16 - 1), .phaseRestore (10 - 1) 0, .phaseRestore 0 (2 ^ 16 - 1),
    .convVoutSet (10 - 1) 0 ⟨false, false⟩, .convVoutSet 0 (2 ^ 16 - 1) ⟨false, false⟩, .convClear (10 - 1) 0 ⟨false, false⟩,
    .convClear 0 (2 ^ 16 - 1) ⟨false, false⟩, .commit (10 - 1) 0 0] : List Instr).all (fun c => c.wf) = true := by decide +kernel

/-- Each of these commands breaks one check of Instr.wf, and is refused. -/
theorem test_ill_formed_1 : ([
    .commit 0 33 0, .commit 0 0 (2 ^ 32), .loopResume 10 0, .loopResume 0 (2 ^ 16), .loopTest 10 0, .loopTest 0 (2 ^ 16),
    .loopTestStop 10 0, .loopTestStop 0 (2 ^ 16), .firstLayerDone 16, .estimateFrame 16 ⟨0, []⟩ 0, .estimateFrame 0 ⟨2, []⟩ 0,
    .modelOpen 10 0, .modelOpen 0 (2 ^ 16), .modelWrite 10 0, .modelWrite 0 (2 ^ 16), .modelLoad 10 0, .modelLoad 0 (2 ^ 16),
    .modelClose 10 0, .modelClose 0 (2 ^ 16), .modelRevert 10 0, .modelRevert 0 (2 ^ 16), .trimReset 10 0, .trimReset 0 (2 ^ 16),
    .intentPacket 16 0, .intentPacket 0 (2 ^ 64), .intentFrame 0 2 [] 0, .intentFrame 0 0 [256] 0, .intentFrame 16 0 [] 0,
    .entryExpire 16 0, .entryExpire 0 8, .mismatchEnter 16, .mismatchExit 16, .droopDetect 16 0, .droopDetect 0 4, .droopClear 16 0,
    .droopClear 0 16, .droopReport 16 ⟨0, []⟩ 0 ⟨0, 0⟩, .droopReport 0 ⟨0, []⟩ 16 ⟨0, 0⟩, .droopReport 0 ⟨2, []⟩ 0 ⟨0, 0⟩,
    .siteStuck 16 0, .siteStuck 0 4, .siteTest 16 0, .siteTest 0 16, .intentReset 10 0, .intentReset 0 (2 ^ 16)] : List Instr).all (fun c => !c.wf) = true := by decide +kernel

/-- The same operands at their last value pass. -/
theorem test_well_formed_1 : ([
    .commit 0 (33 - 1) 0, .commit 0 0 (2 ^ 32 - 1), .loopResume (10 - 1) 0, .loopResume 0 (2 ^ 16 - 1), .loopTest (10 - 1) 0,
    .loopTest 0 (2 ^ 16 - 1), .loopTestStop (10 - 1) 0, .loopTestStop 0 (2 ^ 16 - 1), .firstLayerDone (16 - 1),
    .estimateFrame (16 - 1) ⟨0, []⟩ 0, .estimateFrame 0 ⟨1, []⟩ 0, .modelOpen (10 - 1) 0, .modelOpen 0 (2 ^ 16 - 1),
    .modelWrite (10 - 1) 0, .modelWrite 0 (2 ^ 16 - 1), .modelLoad (10 - 1) 0, .modelLoad 0 (2 ^ 16 - 1), .modelClose (10 - 1) 0,
    .modelClose 0 (2 ^ 16 - 1), .modelRevert (10 - 1) 0, .modelRevert 0 (2 ^ 16 - 1), .trimReset (10 - 1) 0, .trimReset 0 (2 ^ 16 - 1),
    .intentPacket (16 - 1) 0, .intentPacket 0 (2 ^ 64 - 1), .intentFrame 0 1 [] 0, .intentFrame 0 0 [255] 0,
    .intentFrame (16 - 1) 0 [] 0, .entryExpire (16 - 1) 0, .entryExpire 0 (8 - 1), .mismatchEnter (16 - 1), .mismatchExit (16 - 1),
    .droopDetect (16 - 1) 0, .droopDetect 0 (4 - 1), .droopClear (16 - 1) 0, .droopClear 0 (16 - 1),
    .droopReport (16 - 1) ⟨0, []⟩ 0 ⟨0, 0⟩, .droopReport 0 ⟨0, []⟩ (16 - 1) ⟨0, 0⟩, .droopReport 0 ⟨1, []⟩ 0 ⟨0, 0⟩,
    .siteStuck (16 - 1) 0, .siteStuck 0 (4 - 1), .siteTest (16 - 1) 0, .siteTest 0 (16 - 1), .intentReset (10 - 1) 0,
    .intentReset 0 (2 ^ 16 - 1)] : List Instr).all (fun c => c.wf) = true := by decide +kernel

/-- Each of these commands breaks one check of Instr.wf, and is refused. -/
theorem test_ill_formed_2 : ([
    .droopSiteRestore 10 0 0, .droopSiteRestore 0 (2 ^ 16) 0, .droopSiteRestore 0 0 16, .droopForce 10 0, .droopForce 0 (2 ^ 16),
    .agentSlot 0 ⟨(List.replicate (120 + 1) 0), [], []⟩ ⟨[]⟩, .agentSlot 0 ⟨[], (List.replicate (120 + 1) 0), []⟩ ⟨[]⟩,
    .agentSlot 0 ⟨[], [], (List.replicate (32 + 1) 0)⟩ ⟨[]⟩, .agentSlot 16 ⟨[], [], []⟩ ⟨[]⟩, .episodeEnd 16, .warmupEnd 10 0,
    .warmupEnd 0 (2 ^ 16), .opFrequencySend 16, .opChange ⟨16, ⟨0, []⟩⟩, .opChange ⟨0, ⟨2, []⟩⟩, .capSet 10 0, .capSet 0 (2 ^ 16),
    .opTableSet 10 0, .opTableSet 0 (2 ^ 16), .opLimit 10 0, .opLimit 0 (2 ^ 16), .modeSet 10 0, .modeSet 0 (2 ^ 16), .hintSet 10 0,
    .hintSet 0 (2 ^ 16), .classSet 10 0, .classSet 0 (2 ^ 16), .fpTarget 10 0, .fpTarget 0 (2 ^ 16), .windowClose ⟨16, ⟨0, []⟩⟩ [],
    .windowClose ⟨0, ⟨2, []⟩⟩ [], .thermalConversion 1 0, .stackReport 16 ⟨0, []⟩ ⟨0, 0⟩, .stackReport 0 ⟨2, []⟩ ⟨0, 0⟩, .stackStale 16,
    .thermThreshSet 10 0, .thermThreshSet 0 (2 ^ 16), .sensorExclude 10 0, .sensorExclude 0 (2 ^ 16), .sensorReadmit 10 0,
    .sensorReadmit 0 (2 ^ 16), .thermRelease 10 0, .thermRelease 0 (2 ^ 16), .getConfigDigest 10 0, .getConfigDigest 0 (2 ^ 16)] : List Instr).all (fun c => !c.wf) = true := by decide +kernel

/-- The same operands at their last value pass. -/
theorem test_well_formed_2 : ([
    .droopSiteRestore (10 - 1) 0 0, .droopSiteRestore 0 (2 ^ 16 - 1) 0, .droopSiteRestore 0 0 (16 - 1), .droopForce (10 - 1) 0,
    .droopForce 0 (2 ^ 16 - 1), .agentSlot 0 ⟨(List.replicate 120 0), [], []⟩ ⟨[]⟩, .agentSlot 0 ⟨[], (List.replicate 120 0), []⟩ ⟨[]⟩,
    .agentSlot 0 ⟨[], [], (List.replicate 32 0)⟩ ⟨[]⟩, .agentSlot (16 - 1) ⟨[], [], []⟩ ⟨[]⟩, .episodeEnd (16 - 1),
    .warmupEnd (10 - 1) 0, .warmupEnd 0 (2 ^ 16 - 1), .opFrequencySend (16 - 1), .opChange ⟨16 - 1, ⟨0, []⟩⟩, .opChange ⟨0, ⟨1, []⟩⟩,
    .capSet (10 - 1) 0, .capSet 0 (2 ^ 16 - 1), .opTableSet (10 - 1) 0, .opTableSet 0 (2 ^ 16 - 1), .opLimit (10 - 1) 0,
    .opLimit 0 (2 ^ 16 - 1), .modeSet (10 - 1) 0, .modeSet 0 (2 ^ 16 - 1), .hintSet (10 - 1) 0, .hintSet 0 (2 ^ 16 - 1),
    .classSet (10 - 1) 0, .classSet 0 (2 ^ 16 - 1), .fpTarget (10 - 1) 0, .fpTarget 0 (2 ^ 16 - 1), .windowClose ⟨16 - 1, ⟨0, []⟩⟩ [],
    .windowClose ⟨0, ⟨1, []⟩⟩ [], .thermalConversion 0 0, .stackReport (16 - 1) ⟨0, []⟩ ⟨0, 0⟩, .stackReport 0 ⟨1, []⟩ ⟨0, 0⟩,
    .stackStale (16 - 1), .thermThreshSet (10 - 1) 0, .thermThreshSet 0 (2 ^ 16 - 1), .sensorExclude (10 - 1) 0,
    .sensorExclude 0 (2 ^ 16 - 1), .sensorReadmit (10 - 1) 0, .sensorReadmit 0 (2 ^ 16 - 1), .thermRelease (10 - 1) 0,
    .thermRelease 0 (2 ^ 16 - 1), .getConfigDigest (10 - 1) 0, .getConfigDigest 0 (2 ^ 16 - 1)] : List Instr).all (fun c => c.wf) = true := by decide +kernel

/-- Each of these commands breaks one check of Instr.wf, and is refused. -/
theorem test_ill_formed_3 : ([
    .ringForget 10 0, .ringForget 0 (2 ^ 16), .queueTaps ⟨16, ⟨0, []⟩⟩ [], .queueTaps ⟨0, ⟨2, []⟩⟩ [], .tapLate 16,
    .engineFault ⟨0, ⟨0, []⟩⟩ 0 0 ⟨(2 ^ 16), 0⟩, .engineFault ⟨0, ⟨0, []⟩⟩ 4096 0 ⟨0, 0⟩, .engineFault ⟨0, ⟨0, []⟩⟩ 0 256 ⟨0, 0⟩,
    .engineFault ⟨16, ⟨0, []⟩⟩ 0 0 ⟨0, 0⟩, .engineFault ⟨0, ⟨2, []⟩⟩ 0 0 ⟨0, 0⟩, .policyQueue 4096, .fenceAck 17 0, .drainEnd 17 0,
    .abortAck 17 0, .ctxReset 10 0, .ctxReset 0 (2 ^ 16), .ctxDismiss 10 0, .ctxDismiss 0 (2 ^ 16), .returnToService 10 0,
    .returnToService 0 (2 ^ 16), .capwinSet 10 0, .capwinSet 0 (2 ^ 16), .captureFree 10 0, .captureFree 0 (2 ^ 16), .keyCommit 16,
    .keybusTimeout 16, .prevEpochCount 16 0 0, .scrubOverwriteDone 16 0, .scrubFail 16, .partSet 10 0, .partSet 0 (2 ^ 16),
    .partScrub 10 0, .partScrub 0 (2 ^ 16), .portBind 10 0, .portBind 0 (2 ^ 16), .spdmMsg 10 0, .spdmMsg 0 (2 ^ 16), .keyRelease 10 0,
    .keyRelease 0 (2 ^ 16), .keyRotate 10 0, .keyRotate 0 (2 ^ 16), .debugSet 10 0, .debugSet 0 (2 ^ 16), .commandFetch 10 [],
    .cmdSqTailWrite 10 0] : List Instr).all (fun c => !c.wf) = true := by decide +kernel

/-- The same operands at their last value pass. -/
theorem test_well_formed_3 : ([
    .ringForget (10 - 1) 0, .ringForget 0 (2 ^ 16 - 1), .queueTaps ⟨16 - 1, ⟨0, []⟩⟩ [], .queueTaps ⟨0, ⟨1, []⟩⟩ [], .tapLate (16 - 1),
    .engineFault ⟨0, ⟨0, []⟩⟩ 0 0 ⟨(2 ^ 16 - 1), 0⟩, .engineFault ⟨0, ⟨0, []⟩⟩ (4096 - 1) 0 ⟨0, 0⟩,
    .engineFault ⟨0, ⟨0, []⟩⟩ 0 (256 - 1) ⟨0, 0⟩, .engineFault ⟨16 - 1, ⟨0, []⟩⟩ 0 0 ⟨0, 0⟩, .engineFault ⟨0, ⟨1, []⟩⟩ 0 0 ⟨0, 0⟩,
    .policyQueue (4096 - 1), .fenceAck (17 - 1) 0, .drainEnd (17 - 1) 0, .abortAck (17 - 1) 0, .ctxReset (10 - 1) 0,
    .ctxReset 0 (2 ^ 16 - 1), .ctxDismiss (10 - 1) 0, .ctxDismiss 0 (2 ^ 16 - 1), .returnToService (10 - 1) 0,
    .returnToService 0 (2 ^ 16 - 1), .capwinSet (10 - 1) 0, .capwinSet 0 (2 ^ 16 - 1), .captureFree (10 - 1) 0,
    .captureFree 0 (2 ^ 16 - 1), .keyCommit (16 - 1), .keybusTimeout (16 - 1), .prevEpochCount (16 - 1) 0 0,
    .scrubOverwriteDone (16 - 1) 0, .scrubFail (16 - 1), .partSet (10 - 1) 0, .partSet 0 (2 ^ 16 - 1), .partScrub (10 - 1) 0,
    .partScrub 0 (2 ^ 16 - 1), .portBind (10 - 1) 0, .portBind 0 (2 ^ 16 - 1), .spdmMsg (10 - 1) 0, .spdmMsg 0 (2 ^ 16 - 1),
    .keyRelease (10 - 1) 0, .keyRelease 0 (2 ^ 16 - 1), .keyRotate (10 - 1) 0, .keyRotate 0 (2 ^ 16 - 1), .debugSet (10 - 1) 0,
    .debugSet 0 (2 ^ 16 - 1), .commandFetch (10 - 1) [], .cmdSqTailWrite (10 - 1) 0] : List Instr).all (fun c => c.wf) = true := by decide +kernel

/-- Each of these commands breaks one check of Instr.wf, and is refused. -/
theorem test_ill_formed_4 : ([
    .cmdSqTailWrite 0 (2 ^ 32), .cmdCqHeadWrite 10 0, .cmdCqHeadWrite 0 (2 ^ 32), .negotiate 10 0, .negotiate 0 (2 ^ 16),
    .violClear 10 0, .violClear 0 (2 ^ 16), .lockForce 10 0, .lockForce 0 (2 ^ 16), .accessViolation 10 0 false 0 0,
    .accessViolation 0 (2 ^ 22) false 0 0, .accessViolation 0 0 false 0 (2 ^ 32), .registerWrite 10 0 0, .registerWrite 0 (2 ^ 22) 0,
    .registerWrite 0 0 (2 ^ 32), .highWordLatch 10 0, .highWordLatch 0 (2 ^ 22), .mbxSend 10 0, .mbxSend 0 (2 ^ 32), .mbxForward 9,
    .mbxRecv 10, .notifyEnableWrite 10 0, .notifyEnableWrite 0 (2 ^ 32), .lockRead 64 [], .lockRelease 10 0 0, .lockRelease 0 64 0,
    .lockRelease 0 0 (2 ^ 32), .entdaa 128, .enec 256, .disec 256, .recordReadLatch 10 0, .recordReadLatch 0 (2 ^ 22), .watchTrigger 8,
    .recTrigSet 10 0, .recTrigSet 0 (2 ^ 16), .recSnapSet 10 0, .recSnapSet 0 (2 ^ 16), .recClear 10 0, .recClear 0 (2 ^ 16),
    .healthSet 10 0, .healthSet 0 (2 ^ 16), .coldReset ⟨64, false⟩, .govWarmReset 10 0, .govWarmReset 0 (2 ^ 32), .acceleratorReset 10 0] : List Instr).all (fun c => !c.wf) = true := by decide +kernel

/-- The same operands at their last value pass. -/
theorem test_well_formed_4 : ([
    .cmdSqTailWrite 0 (2 ^ 32 - 1), .cmdCqHeadWrite (10 - 1) 0, .cmdCqHeadWrite 0 (2 ^ 32 - 1), .negotiate (10 - 1) 0,
    .negotiate 0 (2 ^ 16 - 1), .violClear (10 - 1) 0, .violClear 0 (2 ^ 16 - 1), .lockForce (10 - 1) 0, .lockForce 0 (2 ^ 16 - 1),
    .accessViolation (10 - 1) 0 false 0 0, .accessViolation 0 (2 ^ 22 - 1) false 0 0, .accessViolation 0 0 false 0 (2 ^ 32 - 1),
    .registerWrite (10 - 1) 0 0, .registerWrite 0 (2 ^ 22 - 1) 0, .registerWrite 0 0 (2 ^ 32 - 1), .highWordLatch (10 - 1) 0,
    .highWordLatch 0 (2 ^ 22 - 1), .mbxSend (10 - 1) 0, .mbxSend 0 (2 ^ 32 - 1), .mbxForward (9 - 1), .mbxRecv (10 - 1),
    .notifyEnableWrite (10 - 1) 0, .notifyEnableWrite 0 (2 ^ 32 - 1), .lockRead (64 - 1) [], .lockRelease (10 - 1) 0 0,
    .lockRelease 0 (64 - 1) 0, .lockRelease 0 0 (2 ^ 32 - 1), .entdaa (128 - 1), .enec (256 - 1), .disec (256 - 1),
    .recordReadLatch (10 - 1) 0, .recordReadLatch 0 (2 ^ 22 - 1), .watchTrigger (8 - 1), .recTrigSet (10 - 1) 0,
    .recTrigSet 0 (2 ^ 16 - 1), .recSnapSet (10 - 1) 0, .recSnapSet 0 (2 ^ 16 - 1), .recClear (10 - 1) 0, .recClear 0 (2 ^ 16 - 1),
    .healthSet (10 - 1) 0, .healthSet 0 (2 ^ 16 - 1), .coldReset ⟨(64 - 1), false⟩, .govWarmReset (10 - 1) 0,
    .govWarmReset 0 (2 ^ 32 - 1), .acceleratorReset (10 - 1) 0] : List Instr).all (fun c => c.wf) = true := by decide +kernel

/-- Each of these commands breaks one check of Instr.wf, and is refused. -/
theorem test_ill_formed_5 : ([
    .acceleratorReset 0 (2 ^ 32), .dieReset 10 0, .dieReset 0 (2 ^ 32), .dieResetEnd 16, .g1Enter 10 0, .g1Enter 0 (2 ^ 32),
    .g2Enter 10 0, .g2Enter 0 (2 ^ 32), .g0Return 10 0, .g0Return 0 (2 ^ 32), .g3Request 10 0, .g3Request 0 (2 ^ 32), .g2Abandoned 16,
    .watchdogKick 10 0, .watchdogKick 0 (2 ^ 32), .svnAdv 2, .safFaultClear 10 0, .safFaultClear 0 (2 ^ 32), .fwOpen 10 0 false,
    .fwOpen 0 (2 ^ 16) false, .fwWrite 10 0 false, .fwWrite 0 (2 ^ 16) false, .fwCommit 10 0 .whole, .fwCommit 0 (2 ^ 16) .whole,
    .fwRestart 10 0, .fwRestart 0 (2 ^ 16), .selfRefreshReport ⟨16, ⟨0, []⟩⟩, .selfRefreshReport ⟨0, ⟨2, []⟩⟩,
    .keyBusAcknowledgement 16 0, .keyBusAcknowledgement 0 8, .readVoutAfterWrite 10 0 0 ⟨false, false⟩,
    .readVoutAfterWrite 0 (2 ^ 16) 0 ⟨false, false⟩, .readVoutAfterWrite 0 0 (2 ^ 32) ⟨false, false⟩,
    .correctableErrorReport ⟨16, ⟨0, []⟩⟩ 0, .correctableErrorReport ⟨0, ⟨2, []⟩⟩ 0, .agentSlot 0 ⟨[], [], []⟩ ⟨[0, 120]⟩,
    .fwRestartDone [(2 ^ 22, 0)], .fwRestartDone [(0, 256)], .configScan [⟨2 ^ 22, 0⟩], .configScan [⟨0, 2 ^ 32⟩],
    .fwCommit 0 0 (.cut 2 0), .fwCommit 0 0 (.cut 0 16), .opChange ⟨0, ⟨0, List.replicate 73 0⟩⟩, .opChange ⟨0, ⟨0, [256]⟩⟩] : List Instr).all (fun c => !c.wf) = true := by decide +kernel

/-- The same operands at their last value pass. -/
theorem test_well_formed_5 : ([
    .acceleratorReset 0 (2 ^ 32 - 1), .dieReset (10 - 1) 0, .dieReset 0 (2 ^ 32 - 1), .dieResetEnd (16 - 1), .g1Enter (10 - 1) 0,
    .g1Enter 0 (2 ^ 32 - 1), .g2Enter (10 - 1) 0, .g2Enter 0 (2 ^ 32 - 1), .g0Return (10 - 1) 0, .g0Return 0 (2 ^ 32 - 1),
    .g3Request (10 - 1) 0, .g3Request 0 (2 ^ 32 - 1), .g2Abandoned (16 - 1), .watchdogKick (10 - 1) 0, .watchdogKick 0 (2 ^ 32 - 1),
    .svnAdv (2 - 1), .safFaultClear (10 - 1) 0, .safFaultClear 0 (2 ^ 32 - 1), .fwOpen (10 - 1) 0 false, .fwOpen 0 (2 ^ 16 - 1) false,
    .fwWrite (10 - 1) 0 false, .fwWrite 0 (2 ^ 16 - 1) false, .fwCommit (10 - 1) 0 .whole, .fwCommit 0 (2 ^ 16 - 1) .whole,
    .fwRestart (10 - 1) 0, .fwRestart 0 (2 ^ 16 - 1), .selfRefreshReport ⟨16 - 1, ⟨0, []⟩⟩, .selfRefreshReport ⟨0, ⟨1, []⟩⟩,
    .keyBusAcknowledgement (16 - 1) 0, .keyBusAcknowledgement 0 (8 - 1), .readVoutAfterWrite (10 - 1) 0 0 ⟨false, false⟩,
    .readVoutAfterWrite 0 (2 ^ 16 - 1) 0 ⟨false, false⟩, .readVoutAfterWrite 0 0 (2 ^ 32 - 1) ⟨false, false⟩,
    .correctableErrorReport ⟨16 - 1, ⟨0, []⟩⟩ 0, .correctableErrorReport ⟨0, ⟨1, []⟩⟩ 0, .agentSlot 0 ⟨[], [], []⟩ ⟨[0, 119]⟩,
    .fwRestartDone [(2 ^ 22 - 1, 0)], .fwRestartDone [(0, 255)], .configScan [⟨2 ^ 22 - 1, 0⟩], .configScan [⟨0, 2 ^ 32 - 1⟩],
    .fwCommit 0 0 (.cut 1 0), .fwCommit 0 0 (.cut 0 15), .opChange ⟨0, ⟨0, List.replicate 72 255⟩⟩, .opChange ⟨0, ⟨0, [255]⟩⟩] : List Instr).all (fun c => c.wf) = true := by decide +kernel

/-! States. -/

/-- A package of two dies in READY, LOCKED, its links trained, its loops in TRACK. -/
def ready : State :=
  let s := State.reset |> blow R.GOV_CFG.N_DIES 2 |> blow R.GOV_CFG.N_LAYERS 1 |> blow R.GOV_CFG.N_STACKS 2
    |> put R.CLK_STATUS.STATE 2 |> put R.BOOT_STAT.STAGE 9 |> put R.BOOT_STAT.AUTOPILOT 0
  let s := { s with clk := { s.clk with started := true } }
  s |> each [0, 1] (fun d s => setLink d { linkOf s d with trained := true } s)
    |> each [0, 1, 16, 17, 32] (fun r s => put (R.LPE_STAT.STATE r) 2 s)

/-- One command in flight under a port and tag, and nothing else, while firmware runs. -/
def flying (port tag op : Nat) (params : List Nat) (s : State) : State :=
  put R.BOOT_STAT.AUTOPILOT 0 { s with boot := { s.boot with govRst := false }, host := { s.host with
    flights := [⟨port, tag, op, 3, s.us % 2 = 1, s.us % 3 = 1, 0x3F, params, 0, false, 0, 0⟩] } }

/-- Time gone by in µs. -/
def late (n : Nat) (s : State) : State := { s with us := s.us + n }

/-- Die d's link trained, lane 0 in service, the last numbers accepted 65,535. -/
def up1 (d : Nat) (s : State) : State :=
  setLink d { linkOf s d with trained := true, lost := false, laneLost := 2, upSeq := some 65535, downSeq := some 65535 } s

/-- A good frame on lane 0: TYPE, SEQ, units of payload. -/
def fra (ty seq n : Nat) : Frame := ⟨0, frameOf ty seq (List.replicate (8 * n) 5)⟩

def dfl : Flight := ⟨0, 0, 0, 0, false, false, 0, [], 0, false, 0, 0⟩

/-- A superframe with its check bits (R107). -/
def superFull (v : Nat) : Nat := v + superCrc v * 2 ^ 48

/-- The shadow set of a rail at its reset values. -/
def shadowRst (r : Nat) (s : State) : State :=
  s |> each [R.LPE_KP.KP r, R.LPE_KI.KI r, R.LPE_KD.KD r, R.LPE_KB.KB r, R.LPE_A1.A1 r, R.LPE_A2.A2 r, R.LPE_KFF.KFF r, R.LPE_FF.LEAD_NS r,
    R.LPE_FF.FFV_EN r, R.LPE_FF.FFL_EN r, R.LPE_FF.SHARE_EN r, R.LPE_DUTY_LIM.MIN r, R.LPE_DUTY_LIM.MAX r, R.LPE_REF.TARGET r,
    R.LPE_REF.SLEW r, R.LPE_FE.LIMIT r, R.LPE_FE.TIME r] fun f s => put f f.rst s

/-- Port 9 writes: the clock started, no violation logged. -/
def fwPort (s : State) : State := { s with clk := { s.clk with started := true } } |> put R.CMD_VIOL_STAT.COUNT 0

/-- A signed model package of four inputs, three hidden neurons and two outputs, by 32-bit words, and its key. -/
def modelWords : List Nat :=
    [1296390731, 4194306, 224, 16842752, 4294905888, 77, 0, 5, 0, 0, 0, 0, 0, 0, 0, 0, 1, 0, 2, 0, 3, 8, 262139, 0, 4, 8, 65236, 0, 5,
    8, 4294901760, 4, 244099776, 482316726, 913508138, 2761736910, 4241713642, 917678810, 852073305, 2292472963, 2895101972, 1722324286,
    2852435761, 1580585977, 244099776, 482316726, 913508138, 2761736910, 4241713642, 917678810, 852073305, 2292472963, 2895101972,
    1722324286, 2852435761, 1580585977]
def modelKey : Nat × Nat :=
  (9047636649787540711657043544481181134151064474476562794826987535930993444594722082189062407876788889712094909857556,
   31093839291443116538519282723616785490346401757388538783483874152402705790304600353131021003029615842510279152586675)

/-- The package in the staging buffer, its key in slot 0, sixteen dies of its grade. -/
def withModel (s : State) : State :=
  let l := modelWords.flatMap (leBytes 4)
  { s with mem := (((List.range l.length).zip l).filter fun e => e.2 ≠ 0).map (fun e => (stageArea e.1, BitVec.ofNat 8 e.2)),
           estp := { s.estp with keys := [some modelKey, none, none, none] } }
    |> blow R.GOV_CFG.N_DIES 16 |> each (List.range 16) fun d s => setLink d { linkOf s d with lost := false } (blow (R.TOK_DIE_LIM.GRADE d) 32 s)

/-- An intent packet (R257): die, START, duration, source. -/
def pkt (die start dur src : Nat) : Nat := die + start * 2 ^ 6 + dur * 2 ^ 20 + src * 2 ^ 54

/-- No die in COLLECTIVE; every die with n operating points; every sensor of die 1 included. -/
def noColl (s : State) : State := each (List.range 16) (fun d s => put (R.ITN_DIE_STAT.COLLECTIVE d) 0 s) s
def allOp (n : Nat) (s : State) : State := each (List.range 16) (fun d s => put (R.CAP_DIE_OP.N_OP d) n s) s
def noExcl (s : State) : State := each (List.range 96) (fun i s => put (R.THM_SNS.EXCL (96 + i)) 0 s) s

/-- Ring bytes with their check bytes (R425). -/
def crcd (b : List Nat) : List Nat := b ++ leBytes 2 (crc16 b)

/-- A context in sequence in a state of R467, with slot 2 and 512 bytes to capture. -/
def seqOn (c st : Nat) (s : State) : State :=
  put (R.CTX_STATE.STATE c) st { s with recov := { s.recov with hold := false, cur := some ⟨c, none, 3, 4, 2, 0, [⟨0, 0, 0, 2⟩], 77, 0, false, false, 5⟩ } }
def sq (s : State) : SeqH := (s.recov.cur).getD ⟨0, none, 0, 0, 0, 0, [], 0, 0, false, false, 0⟩
def linksUp (s : State) : State := each (List.range 16) (fun d s => setLink d { linkOf s d with lost := false } s) s
def noWin (s : State) : State := each (List.range 8) (fun i s => put (R.CTX_CAPWIN.EN i) 0 s) s

/-- A key blob for partition 2 whose private key is 1 and whose public key registers are 0 (R518): the ephemeral
point is the generator, the wrapped key the bytes 1 to 32. -/
def keyBlob : List Nat :=
  [1264012122, 131073, 3988225013, 1252968066, 583698346, 923110334, 516403598, 1957503219, 1648041326, 2560337803, 3762419545, 942298242, 
   1576141397, 1814648255, 945706042, 3070916210, 1256068918, 1865164438, 3214450269, 702321298, 3172857080, 2081724968, 322034409, 
   3233345717, 3467730954, 2642509341, 2082292602, 1594813072, 2607091698, 1838553054, 36746670, 1814170511, 205105710, 2346056173, 
   1515737171, 1037909128, 377441412, 1850559894]

/-- A partition table whose partition p is free and whose others hold nothing. -/
def noParts (s : State) : State :=
  each (List.range 16) (fun p s => s |> put (R.SEC_PART_CFG.STATE p) 0 |> put (R.SEC_PART_CFG.MODEL_KEYS p) 0 |> put (R.SEC_PART_CFG.CONF p) 0
    |> put (R.SEC_PART_RES.DIES p) 0 |> put (R.SEC_PART_RES.STACKS p) 0 |> put (R.SEC_PART_QG.COUNT p) 0 |> put (R.SEC_PART_LINK.PORTS p) 0)
    { s with recov := { s.recov with taps := [] } }

/-- The flights with a target, and with parameters filled with zero words. -/
def aim (t : Nat) (s : State) : State := { s with host := { s.host with flights := s.host.flights.map fun f => { f with target := t } } }
def padTo (n : Nat) (s : State) : State :=
  { s with host := { s.host with flights := s.host.flights.map fun f => { f with params := f.params ++ List.replicate (n - f.params.length) 0 } } }

/-- A packet at the head of an operator port's queue, the port next in rotation, and room for its completion. -/
def submitted (p : Nat) (w : List Nat) (s : State) : State :=
  let s := { s with host := { HostH.init with lastPort := (p + 8) % 9 }, boot := { s.boot with govRst := false }, mem := [],
                    clk := { s.clk with started := true } }
    |> put R.BOOT_STAT.STAGE 9 |> put (R.CMD_SQ_HEAD.HEAD p) 256 |> put (R.CMD_SQ_TAIL.TAIL p) 257 |> put (R.CMD_CQ_HEAD.HEAD p) 0
    |> put (R.CMD_CQ_TAIL.TAIL p) 0 |> put (R.CMD_VER.CUR p) 2 |> put (R.SEC_PORT.AUTH p) 2
  each ((List.range w.length).zip w) (fun e s => writeWord32 (portArea p (0x300000 + 4 * e.1)) e.2 s) s
/-- An operator port that is answered, and no violation logged. -/
def hostPort (p auth : Nat) (s : State) : State :=
  { s with boot := { s.boot with govRst := false }, clk := { s.clk with started := true } }
    |> put R.BOOT_STAT.STAGE 9 |> put R.CMD_VIOL_STAT.COUNT 0 |> put (R.SEC_PORT.AUTH p) auth |> put (R.SEC_PORT.PART p) 0
def boxes (i : List (Nat × List Nat)) (o : List (Nat × List (Nat × Nat))) (s : State) : State :=
  { s with host := { s.host with mbxIn := i, mbxOut := o } }

/-- Signed images (R624 to R626) by 32-bit words: a firmware image, a configuration image of one model key and two
settings, one whose setting R20 rejects; the fused digests of their keys; a boot-select record of SEQ 5 that prefers
firmware slot B and configuration slot A. -/
def fwImage : List Nat :=
    [1464228427, 10485761, 264, 66051, 65539] ++ List.replicate 11 0 ++ [3689015674, 1283022865, 133153136, 521790747, 254043756,
    3908765766, 919424676, 3109940675, 3841065077, 3024047832, 1878872152, 724566851, 1143057624, 604887116, 64501781, 228211019,
    3946198766, 2483794012, 2774651033, 336583537, 2045593531, 3980933445, 3433493347, 1340602043, 1836214630, 1701994871, 3464411306,
    1512616832, 3892784340, 3170995662, 2777300860, 1851289027, 3754717196, 1476792660, 2333339214, 3613805613, 940465127, 1687142868,
    1653509087, 485219386, 127731854, 3377011838, 1539699529, 4129036476, 214634279, 647850556, 1581809917, 3869679635, 2318812403,
    82050977]
def cfgImage : List Nat :=
    [1178819147, 10485761, 376, 68, 2] ++ List.replicate 11 0 ++ [833207034, 1854228200, 3939839125, 3707573448, 1202700424, 3628252087, 1708344131,
    1575256321, 1697745755, 905879427, 2073330917, 3650565534, 3201781902, 388251275, 3816972642, 3116082468, 935439621, 328777842, 2091774500,
    2618548233, 1007917634, 2923215659, 2987194737, 1905844309, 131073, 2, 1627394403, 424762081, 1032646412, 98037905, 1560388584, 957201043, 854957218,
    1510469490, 2714130594, 1115639672, 2027780083, 936297562, 87143793, 2079516325, 1881372545, 3106363697, 3151484155, 2862477512, 1637100105,
    2808866692, 3474116037, 2819479368, 2715285102, 4259892685, 131328, 1376192, 851972, 98304000, 2604869535, 3991305079, 933299340, 2621626952,
    1707475413, 3080904600, 1154259676, 119194474, 2848755334, 4017647802, 2700659340, 3228183101, 1330618319, 979681339, 3659682529, 1391530747,
    3375047725, 3970306639, 1047067276, 1674652449, 3838867548, 599558359, 2166086442, 1156989656]
def badCfgImage : List Nat :=
    [1178819147, 10485761, 272, 68, 2] ++ List.replicate 11 0 ++ [833207034, 1854228200, 3939839125, 3707573448, 1202700424, 3628252087, 1708344131,
    1575256321, 1697745755, 905879427, 2073330917, 3650565534, 3201781902, 388251275, 3816972642, 3116082468, 935439621, 328777842, 2091774500,
    2618548233, 1007917634, 2923215659, 2987194737, 1905844309, 65536, 655396, 65535, 0, 2604869535, 3991305079, 933299340, 2621626952, 1707475413,
    3080904600, 1154259676, 119194474, 2848755334, 4017647802, 2700659340, 3228183101, 3859430681, 663535735, 334946304, 1598487173, 318533322,
    3090456784, 1514121016, 1993364779, 576368963, 789806529, 579157283, 2597329398]
def fwDigest : Nat := 17239814038089709204170576350929066091190127328457671259144057862788894153705412805231664045423914317656329882384457
def cfgDigest : Nat := 29305609948503892918838241163138425032543714375236467812219237118548884271913562743727879464524356922171203176318942
def selRecord : List Nat := [1280531019, 5, 1, 988607592]

/-- Words as the cells of the flash from an offset on. -/
def flashCells (o : Nat) (w : List Nat) : List Host.Cell :=
  let l := w.flatMap (leBytes 4)
  (((List.range l.length).zip l).filter fun e => e.2 ≠ 0xFF).map fun e => (flashArea (o + e.1), BitVec.ofNat 8 e.2)

/-- The firmware image in slot B, a configuration image in slot A, the record's second copy. -/
def withImages (cfg : List Nat) (s : State) : State :=
  { s with mem := flashCells 0x1000 selRecord ++ flashCells 0x300000 fwImage ++ flashCells 0x500000 cfg }
    |> blow R.BOOT_KEY_FW.DIGEST fwDigest |> blow R.BOOT_KEY_CFG.DIGEST cfgDigest |> blow R.BOOT_SVN.FW_FUSED 0 |> blow R.BOOT_SVN.CFG_FUSED 0

/-- Every loop in a state; a firmware restart may begin. -/
def loopsAll (c : Nat) (s : State) : State := each (List.range 33) (fun r s => put (R.LPE_STAT.STATE r) c s) s
def mayRst (s : State) : State :=
  { s with boot := { s.boot with restart := none, govRst := false, restarts := [] } } |> put R.BOOT_STAT.STAGE 9 |> put R.SAF_CFG.RESTART_N 3
    |> put R.SAF_CFG.RESTART_S 60

/-- An empty firmware payload in the SRAM, and its digest. -/
def sramOk (s : State) : State := put R.BOOT_DIG.DIGEST (leNat (sha384 [])) { s with boot := { s.boot with fwLen := 0 } }
/-- Every partition but one empty. -/
def noPartsBut (n : Nat) (s : State) : State := each ((List.range 16).filter (· ≠ n)) (fun p s => s |> put (R.SEC_PART_CFG.CONF p) 0 |> put (R.SEC_PART_RES.DIES p) 0) s

/-- What holds of the bits below b holds of every bit of a mask below 2 ^ b. -/
theorem onBits {m : Nat} (b : Nat) (hm : m < 2 ^ b) {P : Nat → Prop} (h : ∀ d < b, bit m d = true → P d) : ∀ d, bit m d = true → P d := by
  intro d hd
  refine h d ?_ hd
  by_contra hc
  have h0 : m >>> d = 0 := by
    rw [Nat.shiftRight_eq_div_pow]
    exact Nat.div_eq_of_lt (lt_of_lt_of_le hm (Nat.pow_le_pow_right (by omega) (Nat.le_of_not_lt hc)))
  simp [bit, h0] at hd

/-- What holds of every present die below 32 holds of every present die. -/
theorem onDies {s : State} {P : Nat → Prop} (h : nDies s ≤ 32 ∧ ∀ d < 32, isPresent s d = true → P d) : ∀ d, isPresent s d = true → P d :=
  fun d hd => h.2 d (lt_of_lt_of_le (by simpa [isPresent] using hd) h.1) hd

/-- Parameter words past the last read 0. -/
theorem parEnd {fl : Flight} {n : Nat} (h : (fl.params.drop (n + 1)).all (· = 0) = true) : ∀ j, n ≤ j → par fl (j + 1) = 0 := by
  intro j hj
  by_cases hl : j + 1 < fl.params.length
  · have hm : fl.params[j + 1] ∈ fl.params.drop (n + 1) := List.mem_drop_iff_getElem.2 ⟨j - n, by omega, by congr 1; omega⟩
    simpa [par, nth, hl] using List.all_eq_true.1 h _ hm
  · simp only [par, nth, List.getD_eq_default _ _ (Nat.le_of_not_lt hl)]

/-! The worked examples of the spec. -/

/-- The five values of chapter 0's example (R11, R12). -/
theorem test_encodings : ofSigned 24 (-3200) = 0xFFF380 ∧ ofSigned 16 (-640) = 0xFD80 ∧ roundDiv (750 * 65536) 1800 = 0x6AAB := by decide +kernel

/-- Chapter 1's edge package of 8 dies fits 104 phases, 80 of VCORE (R30). -/
theorem test_edge_package : ((List.range 200).filter (phaseFitted (blow R.GOV_CFG.N_DIES 8 State.reset))).length = 104 ∧
    ((List.range 160).filter (phaseFitted (blow R.GOV_CFG.N_DIES 8 State.reset))).length = 80 := by decide +kernel

/-- Chapter 4's evaluation of VCORE with the default coefficients: i, f1, f2, dff, u_ctrl and u_sat (R168, R169). -/
theorem test_control_law :
    let o := controlLaw (shadowSet State.reset 2)
      { RailH.init 2 with i := 1000 * 65536, f1 := 1100 * 65536, f2 := 1100 * 65536, ePrev := 12 } 6400 6380 14400 0 0 false false 0
    o.e = 20 ∧ o.i = 65617920 ∧ o.f1 = 72261632 ∧ o.f2 = 72261632 ∧ o.dff = 29127 ∧ o.uCtrl = 30230 ∧ o.uSat = 30230 := by decide +kernel

/-- Chapter 7's package of 4 dies: the shares of D0 to D3 (R311). -/
theorem test_shares :
    let s := each [0, 1, 2, 3] (fun d s => setItn d { itnOf s d with ibase := 30 * 256 } s) ready
    (shares s (1200 * 256) [⟨0, 128, 4095, 6554, 32, 128⟩, ⟨1, 128, 4095, 6554, 16, 128⟩, ⟨2, 128, 1000, 6554, 16, 128⟩,
      ⟨3, 128, 2000, 6554, 16, 128⟩]).1.map (·.share) = [4095, 3704, 1000, 2000] := by decide +kernel

/-- Chapter 9's sensor 21 of D3: 1,330 codes in LOCKED, and the same after COAST's scaling (R394, R395). -/
theorem test_sensor :
    let s := ready |> blow (R.THM_SNS_CAL.CA 309) 7030 |> blow (R.THM_SNS_CAL.CB 309) 10910 |> blow R.THM_CAL_T.TA 400 |> blow R.THM_CAL_T.TB 1680
    reading s 309 9850 = 1330 ∧ scaleCount { (put R.THM_COAST_CAL.CT 8356 s) with therm := { s.therm with clock := 3 } } 0 9657 = 9850 := by decide +kernel

/-- Chapter 17's offsets: THM_SNS of global sensor 309 and FIL_DIE_E of D5. -/
theorem test_offsets : (R.THM_SNS.T 309).off = 0x0C44D4 ∧ (R.FIL_DIE_E.ENERGY 5).off = 0x080D68 := by decide +kernel

/-- Chapter 1's slot 42 of the droop: after a cut at the floor of 128 the grant rises by 64 (R304). -/
theorem test_grant_rises :
    let s := ready |> blow (R.TOK_DIE_LIM.GRADE 0) 32 |> setTok 0 { tokOf ready 0 with rise := 64 }
      |> put (R.CAP_HINT.CEIL 0) 4095 |> setItn 0 { itnOf ready 0 with detMask := 0 }
      |> each (List.range 200) fun n s => put (R.PST_PH_STAT.STATE n) psRUN s
    (nextGrant s 0 3600 4095 0 128 false, nextGrant (put (R.ITN_DIE_STAT.CUT 0) 1 s) 0 3600 4095 0 3200 false) = (192, 128) := by decide +kernel

/-- Chapter 13's host H2: the write of 0x1F3 exposes three packets (R555). -/
theorem test_tail_write :
    let s := hostPort 2 1 ready |> put (R.CMD_SQ_HEAD.HEAD 2) 0x1F0 |> put (R.CMD_SQ_TAIL.TAIL 2) 0x1F0
    (match exec (.cmdSqTailWrite 2 0x1F3) s with
      | .next t => get t (R.CMD_SQ_TAIL.TAIL 2) == 0x1F3 && t.resp == [⟨2, 0, false⟩]
      | _ => false) = true := by decide +kernel

/-- Chapter 14's score of 136: s[0] = 64 and s[1] = 72, with the weights at their defaults (R604, R605). -/
theorem test_health_terms :
    let s := ready |> put (R.HLT_D.D 0) 16384
    16384 * get s (R.HLT_CONTRIB.GAIN 0) / 2 ^ 12 = 64 ∧ (getI s R.HLT_THERM.M0 - 64).toNat * get s (R.HLT_CONTRIB.GAIN 1) / 2 ^ 8 = 72 := by
  decide +kernel

/-! Hypotheses that can be met: met_<Statement>_<clause>. -/

/-! ClockLocks. -/

def w_ClockLocks_1 : State :=
  let s := ready
  let s := blow (R.BOOT_STAT.STAGE) (9) s
  let s := blow (R.CLK_STATUS.STATE) (0) s
  let s := { s with clk := { s.clk with run := 2 } }
  s
theorem met_ClockLocks_1 : ∃ s : State, ∃ (count : Nat), stage s ≠ 0 ∧ ((clkState s = 0 ∨ clkState s = 3)) ∧ 15565 ≤ count ∧ count ≤ 17203
    ∧ 2 ≤ s.clk.run :=
  ⟨w_ClockLocks_1, 15565, by decide +kernel⟩

def w_ClockLocks_2 : State :=
  let s := ready
  let s := blow (R.BOOT_STAT.STAGE) (9) s
  let s := blow (R.CLK_STATUS.STATE) (0) s
  s
theorem met_ClockLocks_2 : ∃ s : State, ∃ (count : Nat), stage s ≠ 0 ∧ ((clkState s = 0 ∨ clkState s = 3)) ∧ (count < 15565 ∨ 17203 <
    count) :=
  ⟨w_ClockLocks_2, 15564, by decide +kernel⟩

def w_ClockLocks_3 : State :=
  let s := ready
  let s := blow (R.BOOT_STAT.STAGE) (9) s
  let s := blow (R.CLK_STATUS.STATE) (3) s
  let s := { s with therm := { s.therm with coastWin := true } }
  s
theorem met_ClockLocks_3 : ∃ s : State, stage s ≠ 0 ∧ clkState s = 3 ∧ s.therm.coastWin = true :=
  ⟨w_ClockLocks_3, by decide +kernel⟩

def w_ClockLocks_4 : State :=
  let s := ready
  let s := { s with clk := { s.clk with lost := false } }
  let s := blow (R.CLK_STATUS.STATE) (4) s
  let s := { s with clk := { s.clk with slotPs := 100000 } }
  s
theorem met_ClockLocks_4 : ∃ s : State, ∃ (count : Nat), s.clk.lost = false ∧ ((clkState s = 1 ∨ clkState s = 4)) ∧ 1023 ≤ count ∧ count ≤
    1025 ∧ rootNear s = true :=
  ⟨w_ClockLocks_4, 1023, by decide +kernel⟩

def w_ClockLocks_5 : State :=
  let s := ready
  let s := { s with clk := { s.clk with lost := false } }
  let s := blow (R.CLK_STATUS.STATE) (2) s
  let s := { s with clk := { s.clk with monFail := 1 } }
  s
theorem met_ClockLocks_5 : ∃ s : State, ∃ (count : Nat), s.clk.lost = false ∧ clkState s = 2 ∧ (count < 1019 ∨ 1029 < count) ∧
    s.clk.monFail ≠ 0 :=
  ⟨w_ClockLocks_5, 1018, by decide +kernel⟩

def w_ClockLocks_6 : State :=
  let s := ready
  let s := late 200 s
  let s := { s with clk := { s.clk with since := (s.us - 200) } }
  let s := blow (R.CLK_STATUS.STATE) (1) s
  let s := { s with clk := { s.clk with waits := false } }
  let s := { s with clk := { s.clk with bootLate := false } }
  let s := { s with clk := { s.clk with retries := 1 } }
  s
theorem met_ClockLocks_6 : ∃ s : State, clkState s = 1 ∧ 200 ≤ s.us - s.clk.since ∧ s.clk.waits = false ∧ s.clk.bootLate = false ∧
    s.clk.retries < 2 :=
  ⟨w_ClockLocks_6, by decide +kernel⟩

def w_ClockLocks_7 : State :=
  let s := ready
  let s := late 200 s
  let s := { s with clk := { s.clk with since := (s.us - 200) } }
  let s := blow (R.CLK_STATUS.STATE) (1) s
  let s := { s with clk := { s.clk with waits := false } }
  let s := { s with clk := { s.clk with bootLate := true } }
  let s := { s with clk := { s.clk with retries := 1 } }
  let s := blow (R.CLK_CFG.COAST_BOOT) (0) s
  s
theorem met_ClockLocks_7 : ∃ s : State, clkState s = 1 ∧ 200 ≤ s.us - s.clk.since ∧ s.clk.waits = false ∧ s.clk.bootLate = true ∧
    s.clk.retries < 2 :=
  ⟨w_ClockLocks_7, by decide +kernel⟩

def w_ClockLocks_8 : State :=
  let s := ready
  let s := late 200 s
  let s := { s with clk := { s.clk with since := (s.us - 200) } }
  let s := blow (R.CLK_STATUS.STATE) (1) s
  let s := { s with clk := { s.clk with waits := true } }
  let s := { s with clk := { s.clk with retries := 1 } }
  s
theorem met_ClockLocks_8 : ∃ s : State, clkState s = 1 ∧ 200 ≤ s.us - s.clk.since ∧ s.clk.waits = true ∧ s.clk.retries < 2 :=
  ⟨w_ClockLocks_8, by decide +kernel⟩

def w_ClockLocks_9 : State :=
  let s := ready
  let s := late 200 s
  let s := { s with clk := { s.clk with since := (s.us - 200) } }
  let s := blow (R.CLK_STATUS.STATE) (1) s
  let s := { s with clk := { s.clk with retries := 2 } }
  s
theorem met_ClockLocks_9 : ∃ s : State, clkState s = 1 ∧ 200 ≤ s.us - s.clk.since ∧ 2 ≤ s.clk.retries :=
  ⟨w_ClockLocks_9, by decide +kernel⟩

def w_ClockLocks_10 : State :=
  let s := ready
  let s := late 10000 s
  let s := { s with clk := { s.clk with goodUs := (s.us - 10000) } }
  let s := blow (R.BOOT_STAT.STAGE) (1) s
  let s := { s with clk := { s.clk with started := false } }
  let s := blow (R.CLK_STATUS.STATE) (0) s
  s
theorem met_ClockLocks_10 : ∃ s : State, stage s ≠ 0 ∧ s.clk.started = false ∧ clkState s = 0 ∧ 10000 ≤ s.us - s.clk.goodUs :=
  ⟨w_ClockLocks_10, by decide +kernel⟩

def w_ClockLocks_11 : State :=
  let s := ready
  let s := blow (R.CLK_STATUS.STATE) (2) s
  let s := { s with clk := { s.clk with lost := false } }
  s
theorem met_ClockLocks_11 : ∃ s : State, ((clkState s = 2 ∨ clkState s = 4)) ∧ s.clk.lost = false :=
  ⟨w_ClockLocks_11, by decide +kernel⟩

def w_ClockLocks_12 : State :=
  let s := ready
  let s := blow (R.CLK_STATUS.STATE) (2) s
  let s := { s with clk := { s.clk with lost := true } }
  s
theorem met_ClockLocks_12 : ∃ s : State, ((clkState s = 2 ∨ clkState s = 4)) ∧ s.clk.lost = true :=
  ⟨w_ClockLocks_12, by decide +kernel⟩

def w_ClockLocks_13 : State :=
  let s := ready
  let s := blow (R.CLK_STATUS.STATE) (3) s
  let s := blow (R.CLK_STATUS.REF_OK) (1) s
  let s := blow (R.CLK_CFG.AUTO_RELOCK) (1) s
  s
theorem met_ClockLocks_13 : ∃ s : State, clkState s = 3 ∧ get s R.CLK_STATUS.REF_OK = 1 ∧ get s R.CLK_CFG.AUTO_RELOCK = 1 :=
  ⟨w_ClockLocks_13, by decide +kernel⟩

def w_ClockLocks_14 : State :=
  let s := ready
  let s := late 500 s
  let s := { s with clk := { s.clk with since := (s.us - 500) } }
  let s := blow (R.CLK_STATUS.STATE) (4) s
  let s := { s with clk := { s.clk with relockFails := 2 } }
  s
theorem met_ClockLocks_14 : ∃ s : State, clkState s = 4 ∧ 500 ≤ s.us - s.clk.since :=
  ⟨w_ClockLocks_14, by decide +kernel⟩

/-! LinksLoseAndReturn. -/

def w_LinksLoseAndReturn_1 : State :=
  let s := ready
  let s := setLink (0) { linkOf s (0) with trained := true } s
  let s := setLink (0) { linkOf s (0) with lost := false } s
  let s := setLink (0) { linkOf s (0) with laneLost := 0 } s
  s
theorem met_LinksLoseAndReturn_1 : ∃ s : State, ∃ (d : Nat) (lane : Nat), isPresent s d = true ∧ (linkOf s d).trained = true ∧ (linkOf s
    d).lost = false ∧ lane < 2 ∧ (linkOf s d).laneLost = 0 :=
  ⟨w_LinksLoseAndReturn_1, 0, 1, by decide +kernel⟩

def w_LinksLoseAndReturn_2 : State := ready
theorem met_LinksLoseAndReturn_2 : ∃ s : State, s.log.fresh = [] :=
  ⟨w_LinksLoseAndReturn_2, by decide +kernel⟩

def w_LinksLoseAndReturn_3 : State :=
  let s := ready
  let s := setLink (1) { linkOf s (1) with laneLost := 3 } s
  s
theorem met_LinksLoseAndReturn_3 : ∃ s : State, ∃ (d : Nat) (lane : Nat), isPresent s d = true ∧ lane < 2 :=
  ⟨w_LinksLoseAndReturn_3, 1, 1, by decide +kernel⟩

def w_LinksLoseAndReturn_4 : State :=
  let s := ready
  let s := { s with boot := { s.boot with accRst := false } }
  let s := { s with boot := { s.boot with dieRst := 0 } }
  let s := { s with boot := { s.boot with lostHold := 0 } }
  let s := setLink (1) { linkOf s (1) with trained := true } s
  let s := setLink (1) { linkOf s (1) with lost := false } s
  s
theorem met_LinksLoseAndReturn_4 : ∃ s : State, ∃ (d : Nat), isPresent s d = true ∧ dieInReset s d = false ∧ (linkOf s d).lost = false :=
  ⟨w_LinksLoseAndReturn_4, 1, by decide +kernel⟩

def w_LinksLoseAndReturn_5 : State :=
  let s := ready
  let s := setLink (1) { linkOf s (1) with lost := true } s
  s
theorem met_LinksLoseAndReturn_5 : ∃ s : State, ∃ (d : Nat), isPresent s d = true ∧ (linkOf s d).lost = true :=
  ⟨w_LinksLoseAndReturn_5, 1, by decide +kernel⟩

def w_LinksLoseAndReturn_6 : State :=
  let s := ready
  let s := setLink (1) { linkOf s (1) with trained := false } s
  let s := blow (R.LPE_STAT.STATE 1) (2) s
  s
theorem met_LinksLoseAndReturn_6 : ∃ s : State, ∃ (d : Nat), isPresent s d = true ∧ (linkOf s d).trained = false ∧ sitesArmed s d = true :=
  ⟨w_LinksLoseAndReturn_6, 1, by decide +kernel⟩

/-! FramesByNumber. -/

def w_FramesByNumber_1 : State :=
  let s := ready
  let s := up1 1 s
  s
theorem met_FramesByNumber_1 : ∃ s : State, ∃ (d : Nat) (fr : _), Accepts s false tyGRANT d fr :=
  ⟨w_FramesByNumber_1, 1, (fra tyGRANT 0 1), ⟨by decide +kernel, by decide +kernel, by decide +kernel, by decide +kernel, by
    decide +kernel, by decide +kernel, by decide +kernel⟩⟩

def w_FramesByNumber_2 : State :=
  let s := ready
  let s := up1 1 s
  s
theorem met_FramesByNumber_2 : ∃ s : State, ∃ (d : Nat) (fr : _) (b : _), Accepts s false tyGRANT d fr ∧ b ≠ (tokOf s d).slot + 1 :=
  ⟨w_FramesByNumber_2, 1, (fra tyGRANT 0 1), ((tokOf w_FramesByNumber_2 1).slot + 2), ⟨by decide +kernel, by decide +kernel, by
    decide +kernel, by decide +kernel, by decide +kernel, by decide +kernel, by decide +kernel⟩, by decide +kernel⟩

def w_FramesByNumber_3 : State :=
  let s := ready
  let s := up1 1 s
  let s := setLink (1) { linkOf s (1) with downSeq := none } s
  s
theorem met_FramesByNumber_3 : ∃ s : State, ∃ (d : Nat) (fr : _), Accepts s false tyGRANT d fr :=
  ⟨w_FramesByNumber_3, 1, (fra tyGRANT 7 1), ⟨by decide +kernel, by decide +kernel, by decide +kernel, by decide +kernel, by
    decide +kernel, by decide +kernel, by decide +kernel⟩⟩

def w_FramesByNumber_4 : State :=
  let s := ready
  let s := up1 1 s
  s
theorem met_FramesByNumber_4 : ∃ s : State, ∃ (d : Nat) (fr : _), Accepts s false tyGRANT d fr :=
  ⟨w_FramesByNumber_4, 1, (fra tyGRANT 8 1), ⟨by decide +kernel, by decide +kernel, by decide +kernel, by decide +kernel, by
    decide +kernel, by decide +kernel, by decide +kernel⟩⟩

def w_FramesByNumber_5 : State :=
  let s := ready
  let s := up1 1 s
  s
theorem met_FramesByNumber_5 : ∃ s : State, ∃ (d : Nat) (fr : _), Accepts s false tyGRANT d fr :=
  ⟨w_FramesByNumber_5, 1, (fra tyGRANT 8 0), ⟨by decide +kernel, by decide +kernel, by decide +kernel, by decide +kernel, by
    decide +kernel, by decide +kernel, by decide +kernel⟩⟩

def w_FramesByNumber_6 : State :=
  let s := ready
  let s := up1 1 s
  s
theorem met_FramesByNumber_6 : ∃ s : State, ∃ (d : Nat) (fr : _), Accepts s false tyORDER d fr :=
  ⟨w_FramesByNumber_6, 1, (fra tyORDER 8 1), ⟨by decide +kernel, by decide +kernel, by decide +kernel, by decide +kernel, by
    decide +kernel, by decide +kernel, by decide +kernel⟩⟩

def w_FramesByNumber_7 : State :=
  let s := ready
  let s := up1 1 s
  let s := setTok (1) { tokOf s (1) with winLast := none } s
  s
theorem met_FramesByNumber_7 : ∃ s : State, ∃ (d : Nat) (fr : _) (real : Nat) (filler : Nat), Accepts s true tyTOKENS d fr ∧ real < 4096 ∧
    filler < 4096 ∧ (tokOf s d).winLast = none :=
  ⟨w_FramesByNumber_7, 1, (fra tyTOKENS 8 1), 4095, 1, ⟨by decide +kernel, by decide +kernel, by decide +kernel, by decide +kernel, by
    decide +kernel, by decide +kernel, by decide +kernel⟩, by decide +kernel⟩

def w_FramesByNumber_8 : State :=
  let s := ready
  let s := up1 1 s
  let s := setTok (1) { tokOf s (1) with winLast := (some (tokOf s 1).slot) } s
  s
theorem met_FramesByNumber_8 : ∃ s : State, ∃ (d : Nat) (fr : _) (real : Nat) (filler : Nat) (k : _), Accepts s true tyTOKENS d fr ∧ real
    < 4096 ∧ filler < 4096 ∧ (tokOf s d).winLast = some k ∧ (tokOf s d).slot ≤ k + 1 :=
  ⟨w_FramesByNumber_8, 1, (fra tyTOKENS 8 1), 4095, 1, ((tokOf w_FramesByNumber_8 1).slot), ⟨by decide +kernel, by decide +kernel, by
    decide +kernel, by decide +kernel, by decide +kernel, by decide +kernel, by decide +kernel⟩, by decide +kernel⟩

def w_FramesByNumber_9 : State :=
  let s := ready
  let s := { s with log := { s.log with fresh := [] } }
  let s := up1 1 s
  s
theorem met_FramesByNumber_9 : ∃ s : State, ∃ (d : Nat) (fr : _), s.log.fresh = [] ∧ Dropped s false tyGRANT d fr :=
  ⟨w_FramesByNumber_9, 1, (⟨0, [17, 1, 0, 0]⟩), by decide +kernel, .inl (by decide +kernel)⟩

def w_FramesByNumber_10 : State :=
  let s := ready
  let s := { s with log := { s.log with fresh := [] } }
  let s := up1 1 s
  let s := setLink (1) { linkOf s (1) with downSeq := (some 7) } s
  s
theorem met_FramesByNumber_10 : ∃ s : State, ∃ (d : Nat) (fr : _), s.log.fresh = [] ∧ Dropped s false tyORDER d fr :=
  ⟨w_FramesByNumber_10, 1, (fra tyORDER 7 1), by decide +kernel, .inr (.inr (.inl (by decide +kernel)))⟩

def w_FramesByNumber_11 : State :=
  let s := ready
  let s := { s with log := { s.log with fresh := [] } }
  let s := up1 1 s
  let s := setLink (1) { linkOf s (1) with upSeq := (some 7) } s
  s
theorem met_FramesByNumber_11 : ∃ s : State, ∃ (d : Nat) (fr : _), s.log.fresh = [] ∧ Dropped s true tyTOKENS d fr :=
  ⟨w_FramesByNumber_11, 1, (fra tyTOKENS 7 1), by decide +kernel, .inr (.inr (.inl (by decide +kernel)))⟩

/-! TelemetryIsTaken. -/

def w_TelemetryIsTaken_1 : State :=
  let s := ready
  let s := { s with clk := { s.clk with started := true } }
  let s := blow (R.PST_STG_STAT.LANE1_OK 24) (1) s
  s
theorem met_TelemetryIsTaken_1 : ∃ s : State, ∃ (g : Nat) (l : Nat) (w : _), laneFitted s g l = true ∧ s.clk.started = true ∧ bit w 63 =
    true ∧ popcount 64 w % 2 = 0 ∧ isOn s (laneOk g l) = true :=
  ⟨w_TelemetryIsTaken_1, 24, 1, (2^63+0x10000), by decide +kernel⟩

def w_TelemetryIsTaken_2 : State :=
  let s := ready
  let s := { s with clk := { s.clk with started := true } }
  let s := blow (R.PST_STG_STAT.LANE0_OK 0) (0) s
  let s := setLane (0) { laneOf s (0) with good := 3 } s
  s
theorem met_TelemetryIsTaken_2 : ∃ s : State, ∃ (g : Nat) (l : Nat) (w : _), laneFitted s g l = true ∧ s.clk.started = true ∧ bit w 63 =
    true ∧ popcount 64 w % 2 = 0 ∧ get s (laneOk g l) = 0 :=
  ⟨w_TelemetryIsTaken_2, 0, 0, (2^63+2^47), by decide +kernel⟩

def w_TelemetryIsTaken_3 : State :=
  let s := ready
  let s := { s with clk := { s.clk with started := true } }
  let s := setLane (0) { laneOf s (0) with bad := 2 } s
  s
theorem met_TelemetryIsTaken_3 : ∃ s : State, ∃ (g : Nat) (l : Nat) (w : _), laneFitted s g l = true ∧ s.clk.started = true ∧ (bit w 63 =
    false ∨ popcount 64 w % 2 ≠ 0) :=
  ⟨w_TelemetryIsTaken_3, 0, 0, (2^63), by decide +kernel⟩

def w_TelemetryIsTaken_4 : State :=
  let s := ready
  let s := { s with clk := { s.clk with started := true } }
  let s := setLane (49) { laneOf s (49) with bad := 1 } s
  s
theorem met_TelemetryIsTaken_4 : ∃ s : State, ∃ (g : Nat) (l : Nat), laneFitted s g l = true ∧ s.clk.started = true :=
  ⟨w_TelemetryIsTaken_4, 24, 1, by decide +kernel⟩

def w_TelemetryIsTaken_5 : State :=
  let s := ready
  let s := { s with clk := { s.clk with started := true } }
  let s := setLane (48) { laneOf s (48) with pos := 32 } s
  let s := setLane (49) { laneOf s (49) with pos := 32 } s
  let s := setLane (48) { laneOf s (48) with half := (some (superFull 0x1203010250 % 2^32)) } s
  let s := setLane (49) { laneOf s (49) with half := (some (superFull 0x1203010250 / 2^32)) } s
  let s := setLane (48) { laneOf s (48) with age := 2 } s
  let s := setLane (49) { laneOf s (49) with age := 2 } s
  s
theorem met_TelemetryIsTaken_5 : ∃ s : State, ∃ (g : Nat), Halves s g ∧ (laneOf s (2 * g)).age = (laneOf s (2 * g + 1)).age ∧ superCrc
    (superOf s g) = bits (superOf s g) 48 16 ∧ bits (superOf s g) 26 6 = 0 ∧ bits (superOf s g) 40 8 = 0 :=
  ⟨w_TelemetryIsTaken_5, 24, ⟨by decide +kernel, by decide +kernel, by decide +kernel⟩, by decide +kernel⟩

def w_TelemetryIsTaken_6 : State :=
  let s := ready
  let s := { s with clk := { s.clk with started := true } }
  let s := setLane (48) { laneOf s (48) with pos := 32 } s
  let s := setLane (49) { laneOf s (49) with pos := 32 } s
  let s := setLane (48) { laneOf s (48) with half := (some (superFull 0x1203010250 % 2^32)) } s
  let s := setLane (49) { laneOf s (49) with half := (some (superFull 0x1203010250 / 2^32)) } s
  let s := setLane (48) { laneOf s (48) with age := 2 } s
  let s := setLane (49) { laneOf s (49) with age := 2 } s
  s
theorem met_TelemetryIsTaken_6 : ∃ s : State, ∃ (g : Nat) (b : _), Halves s g ∧ (b = false ∨ (laneOf s (2 * g)).age ≠ (laneOf s (2 * g +
    1)).age ∨ superCrc (superOf s g) ≠ bits (superOf s g) 48 16) :=
  ⟨w_TelemetryIsTaken_6, 24, false, ⟨by decide +kernel, by decide +kernel, by decide +kernel⟩, by decide +kernel⟩

/-! PhasesFail. -/

def w_PhasesFail_1 : State :=
  let s := ready
  let s := blow (R.PST_PH_STAT.STATE 3) (3) s
  let s := setLane (0) { laneOf s (0) with bad := 16 } s
  s
theorem met_PhasesFail_1 : ∃ s : State, ∃ (g : Nat) (l : Nat) (c : Nat), laneFitted s g l = true ∧ 16 ≤ (laneOf s (2 * g + l)).bad ∧ c < 4
    ∧ phaseFitted s (8 * g + 4 * l + c) = true ∧ phState s (8 * g + 4 * l + c) ≠ psFAILED :=
  ⟨w_PhasesFail_1, 0, 0, 3, by decide +kernel⟩

def w_PhasesFail_2 : State :=
  let s := ready
  let s := blow (R.PST_PH_STAT.STATE 9) (3) s
  let s := blow (R.PST_RAIL_CFG.OPEN_CNT 0) (16) s
  let s := setPhase (9) { phaseOf s (9) with openRun := 16 } s
  s
theorem met_PhasesFail_2 : ∃ s : State, ∃ (n : Nat), phState s n = psRUN ∧ get s (R.PST_RAIL_CFG.OPEN_CNT (railOfPhase n)) ≤ (phaseOf s
    n).openRun :=
  ⟨w_PhasesFail_2, 9, by decide +kernel⟩

def w_PhasesFail_3 : State :=
  let s := ready
  let s := blow (R.PST_PH_STAT.STATE 9) (3) s
  let s := setPhase (9) { phaseOf s (9) with senseRun := 16 } s
  s
theorem met_PhasesFail_3 : ∃ s : State, ∃ (n : Nat), phState s n = psRUN ∧ 16 ≤ (phaseOf s n).senseRun :=
  ⟨w_PhasesFail_3, 9, by decide +kernel⟩

def w_PhasesFail_4 : State :=
  let s := ready
  let s := blow (R.PST_PH_STAT.STATE 9) (4) s
  let s := blow (R.PST_RAIL_CFG.HICCUP_N 0) (8) s
  let s := setPhase (9) { phaseOf s (9) with limRun := 8 } s
  let s := blow (R.PST_RAIL_CFG.HICCUP_MAX 0) (8) s
  let s := blow (R.PST_PH_STAT.HICCUP_RUN 9) (8) s
  s
theorem met_PhasesFail_4 : ∃ s : State, ∃ (n : Nat), phSwitching (phState s n) = true ∧ get s (R.PST_RAIL_CFG.HICCUP_N (railOfPhase n)) ≤
    (phaseOf s n).limRun ∧ get s (R.PST_RAIL_CFG.HICCUP_MAX (railOfPhase n)) ≤ get s (R.PST_PH_STAT.HICCUP_RUN n) :=
  ⟨w_PhasesFail_4, 9, by decide +kernel⟩

def w_PhasesFail_5 : State :=
  let s := ready
  let s := blow (R.PST_PH_STAT.STATE 9) (2) s
  let s := blow (R.PST_RAIL_CFG.HICCUP_N 0) (8) s
  let s := setPhase (9) { phaseOf s (9) with limRun := 8 } s
  let s := blow (R.PST_RAIL_CFG.HICCUP_MAX 0) (8) s
  let s := blow (R.PST_PH_STAT.HICCUP_RUN 9) (7) s
  s
theorem met_PhasesFail_5 : ∃ s : State, ∃ (n : Nat), phSwitching (phState s n) = true ∧ get s (R.PST_RAIL_CFG.HICCUP_N (railOfPhase n)) ≤
    (phaseOf s n).limRun ∧ get s (R.PST_PH_STAT.HICCUP_RUN n) < get s (R.PST_RAIL_CFG.HICCUP_MAX (railOfPhase n)) :=
  ⟨w_PhasesFail_5, 9, by decide +kernel⟩

def w_PhasesFail_6 : State :=
  let s := ready
  let s := late 1000000000 s
  let s := setPhase (9) { phaseOf s (9) with hiccupUs := 0 } s
  let s := blow (R.PST_PH_STAT.STATE 9) (6) s
  s
theorem met_PhasesFail_6 : ∃ s : State, ∃ (n : Nat), phState s n = psHICCUP ∧ get s (R.PST_RAIL_MISC.HICCUP (railOfPhase n)) ≤ s.us -
    (phaseOf s n).hiccupUs :=
  ⟨w_PhasesFail_6, 9, by decide +kernel⟩

def w_PhasesFail_7 : State :=
  let s := ready
  let s := late 10000 s
  let s := setPhase (9) { phaseOf s (9) with runUs := (s.us - 10000) } s
  let s := blow (R.PST_PH_STAT.STATE 9) (3) s
  let s := blow (R.PST_PH_STAT.HICCUP_RUN 9) (4) s
  s
theorem met_PhasesFail_7 : ∃ s : State, ∃ (n : Nat), phState s n = psRUN ∧ 10000 ≤ s.us - (phaseOf s n).runUs :=
  ⟨w_PhasesFail_7, 9, by decide +kernel⟩

def w_PhasesFail_8 : State :=
  let s := ready
  let s := blow (R.PST_PH_STAT.STATE 9) (2) s
  let s := setPhase (9) { phaseOf s (9) with withheld := true } s
  let s := setPhase (9) { phaseOf s (9) with frac := 16 } s
  s
theorem met_PhasesFail_8 : ∃ s : State, ∃ (n : Nat), phState s n = psSOFT ∧ 16 ≤ (phaseOf s n).frac :=
  ⟨w_PhasesFail_8, 9, by decide +kernel⟩

def w_PhasesFail_9 : State :=
  let s := ready
  let s := blow (R.PST_PH_STAT.STATE 9) (4) s
  let s := setPhase (9) { phaseOf s (9) with frac := 0 } s
  s
theorem met_PhasesFail_9 : ∃ s : State, ∃ (n : Nat), phState s n = psSHEDDING ∧ (phaseOf s n).frac = 0 :=
  ⟨w_PhasesFail_9, 9, by decide +kernel⟩

def w_PhasesFail_10 : State :=
  let s := ready
  let s := blow (R.PST_RAIL_CFG.SHED_EN 0) (1) s
  let s := blow (R.LPE_STAT.STATE 0) (2) s
  let s := late 1000000000 s
  let s := setRail (0) ({ RailH.init 0 with skimUs := some (s.us - get s (R.PST_RAIL_SHED.SHED_HOLD 0)) }) s
  let s := setItn (0) (ItnD.init) s
  let s := blow (R.PST_RAIL_DIDT.DIDT_TH 0) (10) s
  let s := blow (R.PST_RAIL_SHED.SHED_I 0) (10) s
  let s := blow (R.PST_RAIL_CFG.SHED_MIN 0) (2) s
  let s := blow (R.ITN_DIE_STAT.MISMATCH 0) (0) s
  let s := each (List.range 10) (fun n => setPh n 3) s
  s
theorem met_PhasesFail_10 : ∃ s : State, ∃ (r : Nat) (n : _), railFitted s r = true ∧ maySkim s r = true ∧ skimDue s r = true ∧
    countPhases s r (· = psSHEDDING) = 0 ∧ nextShed s r = some n :=
  ⟨w_PhasesFail_10, 0, ((nextShed w_PhasesFail_10 0).getD 0), by decide +kernel⟩

def w_PhasesFail_11 : State :=
  let s := ready
  let s := blow (R.PST_RAIL_STAT.BRAKING 16) (1) s
  let s := blow (R.CLK_TIME.COUNT) (1000000000) s
  let s := setRail (16) { railOf s (16) with brakeAt := 0 } s
  s
theorem met_PhasesFail_11 : ∃ s : State, ∃ (r : Nat), isOn s (R.PST_RAIL_STAT.BRAKING r) = true ∧ get s (R.PST_RAIL_BRAKE.MAX_NS r) ≤
    spanNs s (railOf s r).brakeAt (now s) :=
  ⟨w_PhasesFail_11, 16, by decide +kernel⟩

/-! SyncAndPhaseCommands. -/

def w_SyncAndPhaseCommands_1 : State :=
  let s := ready
  let s := blow (R.CLK_STATUS.STATE) (2) s
  let s := blow (R.PST_CTRL.SYNC_EN) (1) s
  let s := blow (R.PST_SYNC_STAT.LOCK) (0) s
  let s := { s with clk := { s.clk with syncRun := 64 } }
  let s := { s with clk := { s.clk with nearRun := 16 } }
  s
theorem met_SyncAndPhaseCommands_1 : ∃ s : State, ∃ (p : Nat), acquiring s = true ∧ s.clk.syncRun = 64 ∧ s.clk.nearRun = 16 ∧ 784 ≤ p ∧ p
    ≤ 816 :=
  ⟨w_SyncAndPhaseCommands_1, 784, by decide +kernel⟩

def w_SyncAndPhaseCommands_2 : State :=
  let s := ready
  let s := blow (R.PST_SYNC_STAT.LOCK) (1) s
  s
theorem met_SyncAndPhaseCommands_2 : ∃ s : State, isOn s R.PST_SYNC_STAT.LOCK = true :=
  ⟨w_SyncAndPhaseCommands_2, by decide +kernel⟩

def w_SyncAndPhaseCommands_3 : State :=
  let s := ready
  let s := { s with log := { s.log with fresh := [] } }
  let s := blow (R.CLK_STATUS.STATE) (3) s
  s
theorem met_SyncAndPhaseCommands_3 : ∃ s : State, ∃ (p : Nat), s.log.fresh = [] ∧ (acquiring s = false ∨ s.clk.syncRun ≠ 64 ∨
    s.clk.nearRun ≠ 16 ∨ p < 784 ∨ 816 < p) :=
  ⟨w_SyncAndPhaseCommands_3, 800, by decide +kernel⟩

def w_SyncAndPhaseCommands_4 : State :=
  let s := ready
  let s := flying 0 7 0x0201 [3] s
  let s := blow (R.PST_PH_STAT.STATE 3) (3) s
  let s := blow (R.PST_PH_STAT.STATE 4) (5) s
  s
theorem met_SyncAndPhaseCommands_4 : ∃ s : State, ∃ (port : Nat) (tag : Nat) (fl : Flight) (n : Nat), Waiting s 0x0201 port tag fl ∧ par
    fl 0 = n ∧ n < 200 ∧ phAvail (phState s n) = true ∧ 2 ≤ countPhases s (railOfPhase n) phAvail :=
  ⟨w_SyncAndPhaseCommands_4, 0, 7, ((flightOf w_SyncAndPhaseCommands_4 0 7).getD dfl), 3, ⟨by decide +kernel, by decide +kernel, by
    decide +kernel, by decide +kernel, by decide +kernel⟩, by decide +kernel⟩

def w_SyncAndPhaseCommands_5 : State :=
  let s := ready
  let s := flying 0 7 0x0202 [3] s
  let s := blow (R.PST_PH_STAT.STATE 3) (7) s
  let s := blow (R.LPE_STAT.STATE 0) (2) s
  let s := blow (R.PST_STG_STAT.LANE0_OK 0) (1) s
  let s := blow (R.PST_RAIL_STAT.LOST 0) (0) s
  s
theorem met_SyncAndPhaseCommands_5 : ∃ s : State, ∃ (port : Nat) (tag : Nat) (fl : Flight) (n : Nat), Waiting s 0x0202 port tag fl ∧ par
    fl 0 = n ∧ n < 200 ∧ phState s n = psFAILED ∧ loopState s (railOfPhase n) ≠ lpOFF ∧ isOn s (laneOk (n / 8) (n / 4 % 2)) = true ∧ get s
    (R.PST_RAIL_STAT.LOST (railOfPhase n)) = 0 :=
  ⟨w_SyncAndPhaseCommands_5, 0, 7, ((flightOf w_SyncAndPhaseCommands_5 0 7).getD dfl), 3, ⟨by decide +kernel, by decide +kernel, by
    decide +kernel, by decide +kernel, by decide +kernel⟩, by decide +kernel⟩

def w_SyncAndPhaseCommands_6 : State :=
  let s := ready
  let s := flying 0 7 0x0202 [10] s
  let s := blow (R.PST_PH_STAT.STATE 10) (7) s
  let s := blow (R.LPE_STAT.STATE 1) (4) s
  let s := blow (R.PST_STG_STAT.LANE0_OK 1) (1) s
  let s := blow (R.PST_RAIL_STAT.LOST 1) (1) s
  let s := blow (R.PST_RAIL_STAT.LOST 17) (0) s
  let s := { s with boot := { s.boot with lostHold := 2 } }
  let s := setItn (1) { itnOf s (1) with forced := [] } s
  s
theorem met_SyncAndPhaseCommands_6 : ∃ s : State, ∃ (port : Nat) (tag : Nat) (fl : Flight) (n : Nat) (r : _), Waiting s 0x0202 port tag fl
    ∧ par fl 0 = n ∧ n < 192 ∧ r = railOfPhase n ∧ phState s n = psFAILED ∧ loopState s r ≠ lpOFF ∧ isOn s (laneOk (n / 8) (n / 4 % 2)) =
    true ∧ isOn s (R.PST_RAIL_STAT.LOST r) = true ∧ get s (R.PST_RAIL_STAT.LOST (if r < 16 then r + 16 else r - 16)) = 0 ∧ bit
    s.boot.lostHold (r % 16) = true ∧ (itnOf s (r % 16)).forced = [] ∧ isPresent s (r % 16) = true :=
  ⟨w_SyncAndPhaseCommands_6, 0, 7, ((flightOf w_SyncAndPhaseCommands_6 0 7).getD dfl), 10, (railOfPhase 10), ⟨by decide +kernel, by
    decide +kernel, by decide +kernel, by decide +kernel, by decide +kernel⟩, by decide +kernel⟩

def w_SyncAndPhaseCommands_7 : State :=
  let s := ready
  let s := flying 0 7 0x0202 [199] s
  let s := blow (R.PST_PH_STAT.STATE 199) (7) s
  let s := blow (R.LPE_STAT.STATE 32) (4) s
  let s := blow (R.PST_STG_STAT.LANE1_OK 24) (1) s
  let s := blow (R.PST_RAIL_STAT.LOST 32) (1) s
  s
theorem met_SyncAndPhaseCommands_7 : ∃ s : State, ∃ (port : Nat) (tag : Nat) (fl : Flight) (n : Nat), Waiting s 0x0202 port tag fl ∧ par
    fl 0 = n ∧ 191 < n ∧ n < 200 ∧ phState s n = psFAILED ∧ loopState s 32 ≠ lpOFF ∧ isOn s (laneOk (n / 8) (n / 4 % 2)) = true ∧ isOn s
    (R.PST_RAIL_STAT.LOST 32) = true :=
  ⟨w_SyncAndPhaseCommands_7, 0, 7, ((flightOf w_SyncAndPhaseCommands_7 0 7).getD dfl), 199, ⟨by decide +kernel, by decide +kernel, by
    decide +kernel, by decide +kernel, by decide +kernel⟩, by decide +kernel⟩

def w_SyncAndPhaseCommands_8 : State :=
  let s := ready
  let s := flying 0 7 0x0201 [200] s
  s
theorem met_SyncAndPhaseCommands_8 : ∃ s : State, ∃ (port : Nat) (tag : Nat) (fl : Flight) (n : Nat), Waiting s 0x0201 port tag fl ∧ par
    fl 0 = n ∧ 199 < n ∧ n < 2 ^ 9 :=
  ⟨w_SyncAndPhaseCommands_8, 0, 7, ((flightOf w_SyncAndPhaseCommands_8 0 7).getD dfl), 200, ⟨by decide +kernel, by decide +kernel, by
    decide +kernel, by decide +kernel, by decide +kernel⟩, by decide +kernel⟩

def w_SyncAndPhaseCommands_9 : State :=
  let s := ready
  let s := flying 0 7 0x0201 [3] s
  let s := blow (R.PST_PH_STAT.STATE 3) (7) s
  s
theorem met_SyncAndPhaseCommands_9 : ∃ s : State, ∃ (port : Nat) (tag : Nat) (fl : Flight) (n : Nat), Waiting s 0x0201 port tag fl ∧ par
    fl 0 = n ∧ n < 200 ∧ phState s n = psFAILED :=
  ⟨w_SyncAndPhaseCommands_9, 0, 7, ((flightOf w_SyncAndPhaseCommands_9 0 7).getD dfl), 3, ⟨by decide +kernel, by decide +kernel, by
    decide +kernel, by decide +kernel, by decide +kernel⟩, by decide +kernel⟩

/-! ConvertersServe. -/

def w_ConvertersServe_1 : State :=
  let s := ready
  let s := blow (R.PST_PMB_CONV.EN 3) (1) s
  let s := blow (R.BOOT_STAT.STAGE) (9) s
  s
theorem met_ConvertersServe_1 : ∃ s : State, ∃ (c : Nat) (l : _) (v : Nat) (i : Nat) (o : Nat) (io : Nat) (tp : Nat) (w : Nat), pmbusOn s
    = true ∧ isOn s (R.PST_PMB_CONV.EN c) = true ∧ c < 8 ∧ l = [v, i, o, io, tp, w] ∧ (∀ x ∈ l, x < 2 ^ 16) ∧ l.length = 6 :=
  ⟨w_ConvertersServe_1, 3, ([0xE390,0x0800,0x3000,0xFFFF,0x7FFF,0xFFFF]), 0xE390, 0x0800, 0x3000, 0xFFFF, 0x7FFF, 0xFFFF, by decide +kernel⟩

def w_ConvertersServe_2 : State :=
  let s := ready
  let s := blow (R.PST_PMB_CONV.EN 7) (1) s
  let s := blow (R.BOOT_STAT.STAGE) (9) s
  s
theorem met_ConvertersServe_2 : ∃ s : State, ∃ (c : Nat), pmbusOn s = true ∧ isOn s (R.PST_PMB_CONV.EN c) = true ∧ c < 8 :=
  ⟨w_ConvertersServe_2, 7, by decide +kernel⟩

def w_ConvertersServe_3 : State :=
  let s := ready
  let s := blow (R.BOOT_STAT.STAGE) (4) s
  let s := blow (R.PST_PMB_CONV.EN 7) (1) s
  let s := blow (R.PST_PMB_CONV.PAGE 7) (1) s
  s
theorem met_ConvertersServe_3 : ∃ s : State, ∃ (c : Nat), pmbusOn s = true ∧ isOn s (R.PST_PMB_CONV.EN c) = true ∧ c < 8 ∧ get s
    (R.PST_PMB_CONV.PAGE c) ≠ 0xFF :=
  ⟨w_ConvertersServe_3, 7, by decide +kernel⟩

def w_ConvertersServe_4 : State :=
  let s := ready
  let s := { s with log := { s.log with fresh := [] } }
  let s := blow (R.BOOT_STAT.STAGE) (12) s
  s
theorem met_ConvertersServe_4 : ∃ s : State, s.log.fresh = [] ∧ pmbusOn s = false :=
  ⟨w_ConvertersServe_4, by decide +kernel⟩

def w_ConvertersServe_5 : State :=
  let s := ready
  let s := blow (R.PST_PMB_CONV.EN 7) (1) s
  let s := blow (R.CAP_PKG_ILIM.IIN_LIM) (2000) s
  let s := blow (R.PST_PMB_STAT.NO_AUTO_CLR 7) (0) s
  let s := setConv (7) (PmbC.init) s
  let s := blow (R.BOOT_STAT.STAGE) (9) s
  s
theorem met_ConvertersServe_5 : ∃ s : State, ∃ (c : Nat) (w : Nat), pmbusOn s = true ∧ isOn s (R.PST_PMB_CONV.EN c) = true ∧ c < 8 ∧ w < 2
    ^ 16 ∧ convFaulty w = true :=
  ⟨w_ConvertersServe_5, 7, 0x4000, by decide +kernel⟩

def w_ConvertersServe_6 : State :=
  let s := ready
  let s := flying 0 7 0x0203 [7, 13600] s
  let s := blow (R.PST_PMB_CONV.EN 7) (1) s
  s
theorem met_ConvertersServe_6 : ∃ s : State, ∃ (port : Nat) (tag : Nat) (fl : Flight) (c : Nat) (v : Nat), Waiting s 0x0203 port tag fl ∧
    par fl 0 = c ∧ c < 8 ∧ par fl 1 = v ∧ 13600 ≤ v ∧ v ≤ 15200 ∧ isOn s (R.PST_PMB_CONV.EN c) = true :=
  ⟨w_ConvertersServe_6, 0, 7, ((flightOf w_ConvertersServe_6 0 7).getD dfl), 7, 13600, ⟨by decide +kernel, by decide +kernel, by
    decide +kernel, by decide +kernel, by decide +kernel⟩, by decide +kernel⟩

def w_ConvertersServe_7 : State :=
  let s := ready
  let s := flying 0 7 0x0203 [7, 15200] s
  let s := blow (R.PST_PMB_CONV.EN 7) (1) s
  s
theorem met_ConvertersServe_7 : ∃ s : State, ∃ (port : Nat) (tag : Nat) (fl : Flight) (c : Nat) (v : Nat), Waiting s 0x0203 port tag fl ∧
    par fl 0 = c ∧ c < 8 ∧ par fl 1 = v ∧ 13600 ≤ v ∧ v ≤ 15200 ∧ isOn s (R.PST_PMB_CONV.EN c) = true :=
  ⟨w_ConvertersServe_7, 0, 7, ((flightOf w_ConvertersServe_7 0 7).getD dfl), 7, 15200, ⟨by decide +kernel, by decide +kernel, by
    decide +kernel, by decide +kernel, by decide +kernel⟩, by decide +kernel⟩

def w_ConvertersServe_8 : State :=
  let s := ready
  let s := late 1000 s
  let s := flying 0 7 0x0203 [7, 15200] s
  let s := markStarted 0 7 s
  s
theorem met_ConvertersServe_8 : ∃ s : State, ∃ (port : Nat) (tag : Nat) (fl : Flight) (c : Nat) (w : Nat), flightOf s port tag = some fl ∧
    fl.opcode = 0x0203 ∧ fl.started = true ∧ 1000 ≤ s.us - fl.r0 ∧ par fl 0 = c ∧ c < 8 ∧ w < 2 ^ 16 :=
  ⟨w_ConvertersServe_8, 0, 7, ((flightOf w_ConvertersServe_8 0 7).getD dfl), 7, 0x3000, by decide +kernel⟩

def w_ConvertersServe_9 : State :=
  let s := ready
  let s := flying 0 7 0x0204 [7] s
  let s := blow (R.PST_PMB_CONV.EN 7) (1) s
  s
theorem met_ConvertersServe_9 : ∃ s : State, ∃ (port : Nat) (tag : Nat) (fl : Flight) (c : Nat), Waiting s 0x0204 port tag fl ∧ par fl 0 =
    c ∧ c < 8 ∧ isOn s (R.PST_PMB_CONV.EN c) = true :=
  ⟨w_ConvertersServe_9, 0, 7, ((flightOf w_ConvertersServe_9 0 7).getD dfl), 7, ⟨by decide +kernel, by decide +kernel, by
    decide +kernel, by decide +kernel, by decide +kernel⟩, by decide +kernel⟩

def w_ConvertersServe_10 : State :=
  let s := ready
  let s := flying 0 7 0x0204 [7] s
  let s := blow (R.PST_PMB_CONV.EN 7) (0) s
  s
theorem met_ConvertersServe_10 : ∃ s : State, ∃ (port : Nat) (tag : Nat) (fl : Flight) (c : Nat), Waiting s 0x0204 port tag fl ∧ par fl 0
    = c ∧ c < 8 ∧ get s (R.PST_PMB_CONV.EN c) = 0 :=
  ⟨w_ConvertersServe_10, 0, 7, ((flightOf w_ConvertersServe_10 0 7).getD dfl), 7, ⟨by decide +kernel, by decide +kernel, by
    decide +kernel, by decide +kernel, by decide +kernel⟩, by decide +kernel⟩

/-! LoopsEvaluateAndHold. -/

def w_LoopsEvaluateAndHold_1 : State :=
  let s := ready
  let s := { s with clk := { s.clk with started := true } }
  s
theorem met_LoopsEvaluateAndHold_1 : ∃ s : State, ∃ (vin : _) (volts : List Nat), s.clk.started = true ∧ vin < 2 ^ 16 ∧ (∀ v ∈ volts, v <
    2 ^ 16) ∧ volts.length = 33 :=
  ⟨w_LoopsEvaluateAndHold_1, (w_LoopsEvaluateAndHold_1.us%65536), ((List.range 33).map (fun i => (w_LoopsEvaluateAndHold_1.us * (i+3)) %
    65536)), by decide +kernel⟩

def w_LoopsEvaluateAndHold_2 : State :=
  let s := ready
  let s := { s with clk := { s.clk with started := true } }
  let s := blow (R.LPE_STAT.STATE 0) (2) s
  let s := blow (R.BOOT_STAT.STAGE) (9) s
  s
theorem met_LoopsEvaluateAndHold_2 : ∃ s : State, ∃ (dis : Nat) (r : Nat), s.clk.started = true ∧ stage s ≠ 6 ∧ railFitted s r = true ∧
    (loopState s r = lpRAMP ∨ loopState s r = lpTRACK) ∧ bit dis r = false :=
  ⟨w_LoopsEvaluateAndHold_2, 0, 0, by decide +kernel⟩

def w_LoopsEvaluateAndHold_3 : State :=
  let s := ready
  let s := { s with clk := { s.clk with started := true } }
  let s := blow (R.LPE_STAT.STATE 0) (3) s
  let s := blow (R.BOOT_STAT.STAGE) (9) s
  let s := setRail (0) { railOf s (0) with cmpRun := 7 } s
  s
theorem met_LoopsEvaluateAndHold_3 : ∃ s : State, ∃ (dis : Nat) (r : Nat), s.clk.started = true ∧ stage s ≠ 6 ∧ railFitted s r = true ∧
    (loopState s r = lpRAMP ∨ loopState s r = lpTRACK ∨ loopState s r = lpEXCURSION) ∧ bit dis r = true :=
  ⟨w_LoopsEvaluateAndHold_3, 1, 0, by decide +kernel⟩

def w_LoopsEvaluateAndHold_4 : State :=
  let s := ready
  let s := { s with clk := { s.clk with started := true } }
  let s := blow (R.LPE_STAT.STATE 16) (0) s
  let s := blow (R.BOOT_STAT.STAGE) (9) s
  s
theorem met_LoopsEvaluateAndHold_4 : ∃ s : State, ∃ (r : Nat), stage s ≠ 6 ∧ (loopState s r = lpOFF ∨ loopState s r = lpHOLD) :=
  ⟨w_LoopsEvaluateAndHold_4, 16, by decide +kernel⟩

def w_LoopsEvaluateAndHold_5 : State :=
  let s := ready
  let s := blow (R.LPE_STAT.STATE 0) (2) s
  let s := blow (R.LPE_GLB.CMP_N) (4) s
  let s := setRail (0) { railOf s (0) with cmpRun := 4 } s
  s
theorem met_LoopsEvaluateAndHold_5 : ∃ s : State, ∃ (r : Nat), railFitted s r = true ∧ cmpFails s r = true :=
  ⟨w_LoopsEvaluateAndHold_5, 0, by decide +kernel⟩

def w_LoopsEvaluateAndHold_6 : State :=
  let s := ready
  let s := late 100000 s
  let s := setRail (0) { railOf s (0) with excUs := 0 } s
  let s := blow (R.LPE_STAT.STATE 0) (3) s
  s
theorem met_LoopsEvaluateAndHold_6 : ∃ s : State, ∃ (r : Nat), railFitted s r = true ∧ loopState s r = lpEXCURSION ∧ (railOf s
    r).coef.time ≤ s.us - (railOf s r).excUs :=
  ⟨w_LoopsEvaluateAndHold_6, 0, by decide +kernel⟩

def w_LoopsEvaluateAndHold_7 : State :=
  let s := ready
  let s := flying 0 7 0x0301 [16] s
  let s := blow (R.LPE_STAT.STATE 16) (4) s
  let s := blow (R.PST_RAIL_STAT.LOST 16) (0) s
  s
theorem met_LoopsEvaluateAndHold_7 : ∃ s : State, ∃ (port : Nat) (tag : Nat) (fl : Flight) (r : Nat), Waiting s 0x0301 port tag fl ∧ par
    fl 0 = r ∧ r < 33 ∧ loopState s r = lpHOLD ∧ get s (R.PST_RAIL_STAT.LOST r) = 0 :=
  ⟨w_LoopsEvaluateAndHold_7, 0, 7, ((flightOf w_LoopsEvaluateAndHold_7 0 7).getD dfl), 16, ⟨by decide +kernel, by decide +kernel, by
    decide +kernel, by decide +kernel, by decide +kernel⟩, by decide +kernel⟩

def w_LoopsEvaluateAndHold_8 : State :=
  let s := ready
  let s := flying 0 7 0x0301 [32] s
  let s := blow (R.LPE_STAT.STATE 32) (2) s
  s
theorem met_LoopsEvaluateAndHold_8 : ∃ s : State, ∃ (port : Nat) (tag : Nat) (fl : Flight) (r : Nat), Waiting s 0x0301 port tag fl ∧ par
    fl 0 = r ∧ r < 33 ∧ (loopState s r ≠ lpHOLD ∨ isOn s (R.PST_RAIL_STAT.LOST r) = true) :=
  ⟨w_LoopsEvaluateAndHold_8, 0, 7, ((flightOf w_LoopsEvaluateAndHold_8 0 7).getD dfl), 32, ⟨by decide +kernel, by decide +kernel, by
    decide +kernel, by decide +kernel, by decide +kernel⟩, by decide +kernel⟩

def w_LoopsEvaluateAndHold_9 : State :=
  let s := ready
  let s := flying 0 7 0x0301 [33] s
  s
theorem met_LoopsEvaluateAndHold_9 : ∃ s : State, ∃ (port : Nat) (tag : Nat) (fl : Flight) (r : Nat), Waiting s 0x0301 port tag fl ∧ par
    fl 0 = r ∧ 32 < r ∧ r < 2 ^ 6 :=
  ⟨w_LoopsEvaluateAndHold_9, 0, 7, ((flightOf w_LoopsEvaluateAndHold_9 0 7).getD dfl), 33, ⟨by decide +kernel, by decide +kernel, by
    decide +kernel, by decide +kernel, by decide +kernel⟩, by decide +kernel⟩

/-! LoopTestsAndCommits. -/

def w_LoopTestsAndCommits_1 : State :=
  let s := ready
  let s := flying 0 7 0x0302 [] s
  let s := { s with test := TestH.init }
  let s := blow (R.LPE_INJ_CFG.MODE) (1) s
  let s := blow (R.LPE_INJ_CFG.ORDER) (7) s
  let s := blow (R.LPE_INJ_CFG.CHIP) (1) s
  let s := blow (R.LPE_INJ_CFG.POINT) (0) s
  let s := blow (R.LPE_INJ_AMP.AMP) (160) s
  let s := blow (R.LPE_INJ_CFG.RAIL) (0) s
  let s := blow (R.LPE_CAP_CFG.DECIM) (1) s
  let s := blow (R.LPE_CAP_CFG.SIG_A) (12) s
  let s := blow (R.LPE_CAP_CFG.SIG_B) (0) s
  let s := blow (R.LPE_CAP_CFG.TRIG) (3) s
  let s := blow (R.LPE_STAT.STATE 0) (2) s
  s
theorem met_LoopTestsAndCommits_1 : ∃ s : State, ∃ (port : Nat) (tag : Nat) (fl : Flight), Waiting s 0x0302 port tag fl ∧ testBad s =
    false ∧ testRange s = false ∧ s.test.running = false ∧ loopState s (get s R.LPE_INJ_CFG.RAIL) = lpTRACK :=
  ⟨w_LoopTestsAndCommits_1, 0, 7, ((flightOf w_LoopTestsAndCommits_1 0 7).getD dfl), ⟨by decide +kernel, by decide +kernel, by
    decide +kernel, by decide +kernel, by decide +kernel⟩, by decide +kernel⟩

def w_LoopTestsAndCommits_2 : State :=
  let s := ready
  let s := flying 0 7 0x0302 [] s
  let s := blow (R.LPE_INJ_CFG.MODE) (3) s
  s
theorem met_LoopTestsAndCommits_2 : ∃ s : State, ∃ (port : Nat) (tag : Nat) (fl : Flight), Waiting s 0x0302 port tag fl ∧ testBad s = true
    :=
  ⟨w_LoopTestsAndCommits_2, 0, 7, ((flightOf w_LoopTestsAndCommits_2 0 7).getD dfl), ⟨by decide +kernel, by decide +kernel, by
    decide +kernel, by decide +kernel, by decide +kernel⟩, by decide +kernel⟩

def w_LoopTestsAndCommits_3 : State :=
  let s := ready
  let s := flying 0 7 0x0303 [] s
  let s := { s with test := { s.test with running := true } }
  let s := { s with test := { s.test with stop := false } }
  let s := blow (R.LPE_CAP_STAT.STATE) (2) s
  s
theorem met_LoopTestsAndCommits_3 : ∃ s : State, ∃ (port : Nat) (tag : Nat) (fl : Flight), Waiting s 0x0303 port tag fl ∧ testGoes s =
    true :=
  ⟨w_LoopTestsAndCommits_3, 0, 7, ((flightOf w_LoopTestsAndCommits_3 0 7).getD dfl), ⟨by decide +kernel, by decide +kernel, by
    decide +kernel, by decide +kernel, by decide +kernel⟩, by decide +kernel⟩

def w_LoopTestsAndCommits_4 : State :=
  let s := ready
  let s := flying 1 9 0x0302 [] s
  let s := markStarted 1 9 s
  let s := { s with test := { s.test with running := true } }
  let s := { s with test := { s.test with port := 1 } }
  let s := { s with test := { s.test with tag := 9 } }
  let s := blow (R.LPE_CAP_STAT.STATE) (3) s
  s
theorem met_LoopTestsAndCommits_4 : ∃ s : State, ∃ (fl : Flight), s.test.running = true ∧ flightOf s s.test.port s.test.tag = some fl ∧
    get s R.LPE_CAP_STAT.STATE = 3 :=
  ⟨w_LoopTestsAndCommits_4, ((flightOf w_LoopTestsAndCommits_4 1 9).getD dfl), by decide +kernel⟩

def w_LoopTestsAndCommits_5 : State :=
  let s := ready
  let s := flying 1 9 0x0302 [] s
  let s := markStarted 1 9 s
  let s := { s with test := { s.test with running := true } }
  let s := { s with test := { s.test with port := 1 } }
  let s := { s with test := { s.test with tag := 9 } }
  let s := { s with test := { s.test with rail := 0 } }
  let s := { s with test := { s.test with stop := true } }
  let s := blow (R.LPE_CAP_STAT.STATE) (2) s
  let s := blow (R.LPE_STAT.STATE 0) (4) s
  s
theorem met_LoopTestsAndCommits_5 : ∃ s : State, ∃ (fl : Flight), s.test.running = true ∧ flightOf s s.test.port s.test.tag = some fl ∧
    get s R.LPE_CAP_STAT.STATE ≠ 3 ∧ s.test.stop = true :=
  ⟨w_LoopTestsAndCommits_5, ((flightOf w_LoopTestsAndCommits_5 1 9).getD dfl), by decide +kernel⟩

def w_LoopTestsAndCommits_6 : State :=
  let s := ready
  let s := fwPort s
  let s := shadowRst 0 s
  s
theorem met_LoopTestsAndCommits_6 : ∃ s : State, ∃ (p : Nat) (r : Nat) (v : Nat), Writes s p (0x04102C + 0x40 * r) ∧ r < 33 ∧ bit v 0 =
    true ∧ goodSet r (shadowSet s r) = true :=
  ⟨w_LoopTestsAndCommits_6, 9, 0, 1, ⟨by decide +kernel, by decide +kernel, by decide +kernel, by decide +kernel⟩, by decide +kernel⟩

def w_LoopTestsAndCommits_7 : State :=
  let s := ready
  let s := fwPort s
  let s := shadowRst 16 s
  let s := blow (R.LPE_DUTY_LIM.MAX 16) (62260) s
  s
theorem met_LoopTestsAndCommits_7 : ∃ s : State, ∃ (p : Nat) (r : Nat) (v : Nat), Writes s p (0x04102C + 0x40 * r) ∧ r < 33 ∧ bit v 0 =
    true ∧ goodSet r (shadowSet s r) = false :=
  ⟨w_LoopTestsAndCommits_7, 9, 16, 1, ⟨by decide +kernel, by decide +kernel, by decide +kernel, by decide +kernel⟩, by decide +kernel⟩

def w_LoopTestsAndCommits_8 : State :=
  let s := ready
  let s := fwPort s
  s
theorem met_LoopTestsAndCommits_8 : ∃ s : State, ∃ (p : Nat) (r : Nat), Writes s p (0x04102C + 0x40 * r) ∧ r < 33 :=
  ⟨w_LoopTestsAndCommits_8, 9, 2, ⟨by decide +kernel, by decide +kernel, by decide +kernel, by decide +kernel⟩, by decide +kernel⟩

/-! EstimatorPublishes. -/

def w_EstimatorPublishes_1 : State :=
  let s := ready
  let s := { s with clk := { s.clk with started := true } }
  let s := { s with boot := { s.boot with accRst := false } }
  let s := { s with boot := { s.boot with dieRst := 0 } }
  let s := { s with boot := { s.boot with lostHold := 0 } }
  let s := setLink (1) { linkOf s (1) with trained := true } s
  let s := setEst (1) { estOf s (1) with first := false } s
  s
theorem met_EstimatorPublishes_1 : ∃ s : State, ∃ (d : Nat) (k : Nat), s.clk.started = true ∧ isPresent s d = true ∧ dieInReset s d =
    false ∧ k < 4096 :=
  ⟨w_EstimatorPublishes_1, 1, 4095, by decide +kernel⟩

def w_EstimatorPublishes_2 : State :=
  let s := ready
  let s := { s with boot := { s.boot with accRst := false } }
  let s := { s with boot := { s.boot with dieRst := 0 } }
  let s := { s with boot := { s.boot with lostHold := 0 } }
  let s := setLink (1) { linkOf s (1) with trained := true } s
  let s := blow (R.EST_DIE_STAT.ACTIVE 1) (1) s
  let s := setEst (1) { estOf s (1) with latched := true } s
  s
theorem met_EstimatorPublishes_2 : ∃ s : State, ∃ (d : Nat), isPresent s d = true ∧ dieInReset s d = false ∧ isOn s (R.EST_DIE_STAT.ACTIVE
    d) = true ∧ (estOf s d).latched = true :=
  ⟨w_EstimatorPublishes_2, 1, by decide +kernel⟩

def w_EstimatorPublishes_3 : State :=
  let s := ready
  let s := up1 1 s
  let s := setEst (1) { estOf s (1) with due := 4 } s
  s
theorem met_EstimatorPublishes_3 : ∃ s : State, ∃ (d : Nat) (fr : _), Accepts s true tyESTIMATE d fr ∧ (framePayload fr.bytes).length = 64
    :=
  ⟨w_EstimatorPublishes_3, 1, (fra tyESTIMATE 0 8), ⟨by decide +kernel, by decide +kernel, by decide +kernel, by decide +kernel, by
    decide +kernel, by decide +kernel, by decide +kernel⟩, by decide +kernel⟩

def w_EstimatorPublishes_4 : State :=
  let s := ready
  let s := up1 1 s
  let s := setEst (1) { estOf s (1) with latched := true } s
  let s := setEst (1) { estOf s (1) with due := 4 } s
  s
theorem met_EstimatorPublishes_4 : ∃ s : State, ∃ (d : Nat) (fr : _) (w : Nat), Accepts s true tyESTIMATE d fr ∧ (w ≠ (estOf s d).due ∨
    (framePayload fr.bytes).length ≠ 64) :=
  ⟨w_EstimatorPublishes_4, 1, (fra tyESTIMATE 0 8), 3, ⟨by decide +kernel, by decide +kernel, by decide +kernel, by decide +kernel, by
    decide +kernel, by decide +kernel, by decide +kernel⟩, by decide +kernel⟩

def w_EstimatorPublishes_5 : State :=
  let s := ready
  let s := { s with clk := { s.clk with started := true } }
  let s := setEst (1) { estOf s (1) with coreOn := false } s
  let s := setEst (1) { estOf s (1) with turn := none } s
  s
theorem met_EstimatorPublishes_5 : ∃ s : State, ∃ (d : Nat), s.clk.started = true ∧ isPresent s d = true ∧ ((estOf s d).coreOn = false ∧
    (estOf s d).turn = none ∨ (linkOf s d).lost = true ∨ dieInReset s d = true) :=
  ⟨w_EstimatorPublishes_5, 1, by decide +kernel⟩

def w_EstimatorPublishes_6 : State :=
  let s := ready
  let s := { s with clk := { s.clk with started := true } }
  let s := { s with boot := { s.boot with dieRst := 0 } }
  let s := { s with boot := { s.boot with lostHold := 0 } }
  let s := { s with boot := { s.boot with accRst := false } }
  let s := setLink (0) { linkOf s (0) with trained := true } s
  let s := setLink (0) { linkOf s (0) with lost := false } s
  let s := setEst (0) { estOf s (0) with coreOn := true } s
  let s := setEst (0) { estOf s (0) with turn := none } s
  let s := { s with estp := { s.estp with linkOld := none } }
  let s := setEst (0) { estOf s (0) with inTime := true } s
  let s := setEst (0) { estOf s (0) with banks := [⟨true, modelWords.flatMap (leBytes 4)⟩, ⟨false, []⟩] } s
  let s := setEst (0) { estOf s (0) with core := 0 } s
  let s := setEst (0) { estOf s (0) with hCore := (List.replicate 64 9) } s
  s
theorem met_EstimatorPublishes_6 : ∃ s : State, ∃ (d : Nat), s.clk.started = true ∧ isPresent s d = true ∧ (estOf s d).coreOn = true ∧
    (estOf s d).turn = none ∧ s.estp.linkOld = none ∧ (linkOf s d).lost = false ∧ dieInReset s d = false ∧ (estOf s d).inTime = true :=
  ⟨w_EstimatorPublishes_6, 0, by decide +kernel⟩

def w_EstimatorPublishes_7 : State :=
  let s := ready
  let s := { s with clk := { s.clk with started := true } }
  let s := { s with boot := { s.boot with dieRst := 0 } }
  let s := { s with boot := { s.boot with lostHold := 0 } }
  let s := { s with boot := { s.boot with accRst := false } }
  let s := setLink (0) { linkOf s (0) with trained := true } s
  let s := setLink (0) { linkOf s (0) with lost := false } s
  let s := setEst (0) { estOf s (0) with coreOn := true } s
  let s := setEst (0) { estOf s (0) with turn := none } s
  let s := { s with estp := { s.estp with linkOld := none } }
  let s := setEst (0) { estOf s (0) with inTime := false } s
  s
theorem met_EstimatorPublishes_7 : ∃ s : State, ∃ (d : Nat), s.clk.started = true ∧ isPresent s d = true ∧ (estOf s d).coreOn = true ∧
    dieInReset s d = false ∧ (estOf s d).inTime = false :=
  ⟨w_EstimatorPublishes_7, 0, by decide +kernel⟩

def w_EstimatorPublishes_8 : State :=
  let s := ready
  let s := { s with clk := { s.clk with started := true } }
  let s := setEst (1) { estOf s (1) with banks := [⟨true, [1]⟩, ⟨false, []⟩] } s
  let s := setEst (1) { estOf s (1) with active := 1 } s
  s
theorem met_EstimatorPublishes_8 : ∃ s : State, ∃ (d : Nat), s.clk.started = true ∧ isPresent s d = true :=
  ⟨w_EstimatorPublishes_8, 1, by decide +kernel⟩

/-! TrimUpdates. -/

def w_TrimUpdates_1 : State :=
  let s := ready
  let s := setEst (0) { estOf s (0) with coreOn := true } s
  let s := blow (R.EST_CTRL.TRIM_EN) (1) s
  let s := late 64 s
  let s := setEst (0) { estOf s (0) with pair0 := ⟨0x3F800000, 0, 0x3F800000, 0, 0x3F800000, 100000, 120000, 10, 12, false, s.us - 64⟩ } s
  let s := setEst (0) { estOf s (0) with pair1 := ⟨0x3F800000, 0, 0x3F800000, 0, 0x3F800000, -5, 120000, 1, 1, false, s.us - 64⟩ } s
  s
theorem met_TrimUpdates_1 : ∃ s : State, ∃ (d : Nat), isPresent s d = true ∧ (estOf s d).coreOn = true ∧ windowOver s (estOf s d).pair0 =
    true ∧ isOn s R.EST_CTRL.TRIM_EN = true ∧ (estOf s d).pair0.spoiled = false ∧ 0 < (estOf s d).pair0.cycles ∧ 0 < (estOf s
    d).pair0.evals ∧ (estOf s d).pair1.spoiled = false ∧ 0 < (estOf s d).pair1.cycles ∧ 0 < (estOf s d).pair1.evals :=
  ⟨w_TrimUpdates_1, 0, by decide +kernel⟩

def w_TrimUpdates_2 : State :=
  let s := ready
  let s := setEst (1) { estOf s (1) with coreOn := true } s
  let s := blow (R.EST_CTRL.TRIM_EN) (0) s
  let s := late 64 s
  let s := setEst (1) { estOf s (1) with pair0 := { (estOf s 1).pair0 with since := s.us - 64 } } s
  s
theorem met_TrimUpdates_2 : ∃ s : State, ∃ (d : Nat), isPresent s d = true ∧ (estOf s d).coreOn = true ∧ windowOver s (estOf s d).pair0 =
    true ∧ (get s R.EST_CTRL.TRIM_EN = 0 ∨ (estOf s d).pair0.spoiled = true ∧ (estOf s d).pair1.spoiled = true) :=
  ⟨w_TrimUpdates_2, 1, by decide +kernel⟩

def w_TrimUpdates_3 : State :=
  let s := ready
  let s := { s with clk := { s.clk with started := true } }
  let s := setEst (1) { estOf s (1) with hold := true } s
  let s := setEst (1) { estOf s (1) with skips := 70000 } s
  s
theorem met_TrimUpdates_3 : ∃ s : State, ∃ (d : Nat), s.clk.started = true ∧ isPresent s d = true :=
  ⟨w_TrimUpdates_3, 1, by decide +kernel⟩

def w_TrimUpdates_4 : State :=
  let s := ready
  let s := flying 0 7 0x0406 [2 + 1 * 2^16] s
  let s := blow (R.EST_DIE_STAT.ACTIVE 1) (1) s
  s
theorem met_TrimUpdates_4 : ∃ s : State, ∃ (port : Nat) (tag : Nat) (fl : Flight) (m : Nat) (om : Nat), Waiting s 0x0406 port tag fl ∧ par
    fl 0 = m + om * 2 ^ 16 ∧ 0 < m ∧ m < 2 ^ nDies s ∧ 0 < om ∧ om < 16 ∧ (∀ d, bit m d = true → isOn s (R.EST_DIE_STAT.ACTIVE d) = true)
    :=
  ⟨w_TrimUpdates_4, 0, 7, ((flightOf w_TrimUpdates_4 0 7).getD dfl), 2, 1, ⟨by decide +kernel, by decide +kernel, by decide +kernel, by
    decide +kernel, by decide +kernel⟩, by decide +kernel, by decide +kernel, by decide +kernel, by decide +kernel, by decide +kernel,
    onBits 16 (by decide) (by decide +kernel)⟩

/-! ModelsStagedAndSwitched. -/

def w_ModelsStagedAndSwitched_1 : State :=
  let s := ready
  let s := flying 9 7 0x0401 [160] s
  let s := blow (R.EST_STAGE.OPEN) (0) s
  let s := { s with estp := { s.estp with switch := none } }
  let s := writeByte (stageArea 5) 9 s
  s
theorem met_ModelsStagedAndSwitched_1 : ∃ s : State, ∃ (port : Nat) (tag : Nat) (fl : Flight) (n : Nat), Waiting s 0x0401 port tag fl ∧
    port < 10 ∧ par fl 0 = n ∧ 160 ≤ n ∧ n ≤ 294912 ∧ n % 8 = 0 ∧ loading s = false ∧ (get s R.EST_STAGE.OPEN = 0 ∨ ownsStage s port =
    true) :=
  ⟨w_ModelsStagedAndSwitched_1, 9, 7, ((flightOf w_ModelsStagedAndSwitched_1 9 7).getD dfl), 160, ⟨by decide +kernel, by decide +kernel,
    by decide +kernel, by decide +kernel, by decide +kernel⟩, by decide +kernel⟩

def w_ModelsStagedAndSwitched_2 : State :=
  let s := ready
  let s := flying 0 7 0x0402 [8, 0x01020304, 0x1FFFFFFFF] s
  let s := blow (R.EST_STAGE.OPEN) (1) s
  let s := blow (R.EST_STAGE.OWNER) (0) s
  let s := blow (R.EST_STAGE.LEN) (16) s
  s
theorem met_ModelsStagedAndSwitched_2 : ∃ s : State, ∃ (port : Nat) (tag : Nat) (fl : Flight) (o : Nat) (n : Nat), Waiting s 0x0402 port
    tag fl ∧ par fl 0 = o ∧ fl.params.length = n + 1 ∧ 0 < n ∧ o < 2 ^ 20 ∧ o % 4 = 0 ∧ ownsStage s port = true ∧ o + 4 * n ≤ get s
    R.EST_STAGE.LEN :=
  ⟨w_ModelsStagedAndSwitched_2, 0, 7, ((flightOf w_ModelsStagedAndSwitched_2 0 7).getD dfl), 8, 2, ⟨by decide +kernel, by
    decide +kernel, by decide +kernel, by decide +kernel, by decide +kernel⟩, by decide +kernel⟩

def w_ModelsStagedAndSwitched_3 : State :=
  let s := ready
  let s := flying 0 7 0x0402 [9, 5] s
  let s := blow (R.EST_STAGE.OPEN) (1) s
  let s := blow (R.EST_STAGE.OWNER) (0) s
  let s := blow (R.EST_STAGE.LEN) (4) s
  s
theorem met_ModelsStagedAndSwitched_3 : ∃ s : State, ∃ (port : Nat) (tag : Nat) (fl : Flight), Waiting s 0x0402 port tag fl ∧ ownsStage s
    port = true :=
  ⟨w_ModelsStagedAndSwitched_3, 0, 7, ((flightOf w_ModelsStagedAndSwitched_3 0 7).getD dfl), ⟨by decide +kernel, by decide +kernel, by
    decide +kernel, by decide +kernel, by decide +kernel⟩, by decide +kernel⟩

def w_ModelsStagedAndSwitched_4 : State :=
  let s := ready
  let s := flying 0 7 0x0404 [] s
  let s := blow (R.EST_STAGE.OPEN) (1) s
  let s := blow (R.EST_STAGE.OWNER) (0) s
  s
theorem met_ModelsStagedAndSwitched_4 : ∃ s : State, ∃ (port : Nat) (tag : Nat) (fl : Flight), Waiting s 0x0404 port tag fl ∧ ownsStage s
    port = true :=
  ⟨w_ModelsStagedAndSwitched_4, 0, 7, ((flightOf w_ModelsStagedAndSwitched_4 0 7).getD dfl), ⟨by decide +kernel, by decide +kernel, by
    decide +kernel, by decide +kernel, by decide +kernel⟩, by decide +kernel⟩

def w_ModelsStagedAndSwitched_5 : State :=
  let s := ready
  let s := late 10000000 s
  let s := { s with estp := { s.estp with stageUs := (s.us - 10000000) } }
  let s := { s with estp := { s.estp with switch := none } }
  let s := blow (R.EST_STAGE.OPEN) (1) s
  s
theorem met_ModelsStagedAndSwitched_5 : ∃ s : State, isOn s R.EST_STAGE.OPEN = true ∧ loading s = false ∧ 10000000 ≤ s.us - s.estp.stageUs
    :=
  ⟨w_ModelsStagedAndSwitched_5, by decide +kernel⟩

def w_ModelsStagedAndSwitched_6 : State :=
  let s := ready
  let s := flying 0 7 0x0403 [1] s
  let s := blow (R.EST_STAGE.OPEN) (1) s
  let s := blow (R.EST_STAGE.OWNER) (0) s
  let s := blow (R.EST_STAGE.LEN) (224) s
  let s := { s with estp := { s.estp with switch := none } }
  let s := withModel s
  s
theorem met_ModelsStagedAndSwitched_6 : ∃ s : State, ∃ (port : Nat) (tag : Nat) (fl : Flight) (m : Nat), Waiting s 0x0403 port tag fl ∧
    par fl 0 = m ∧ m < 2 ^ 16 ∧ ownsStage s port = true ∧ s.estp.switch = none ∧ loadChecks s (readBytes s (stageArea 0) (get s
    R.EST_STAGE.LEN)) (get s R.EST_STAGE.LEN) m = none :=
  ⟨w_ModelsStagedAndSwitched_6, 0, 7, ((flightOf w_ModelsStagedAndSwitched_6 0 7).getD dfl), 1, ⟨by decide +kernel, by decide +kernel,
    by decide +kernel, by decide +kernel, by decide +kernel⟩, by decide +kernel⟩

def w_ModelsStagedAndSwitched_7 : State :=
  let s := ready
  let s := flying 0 7 0x0403 [1] s
  let s := blow (R.EST_STAGE.OPEN) (1) s
  let s := blow (R.EST_STAGE.OWNER) (0) s
  let s := blow (R.EST_STAGE.LEN) (160) s
  let s := { s with estp := { s.estp with switch := none } }
  s
theorem met_ModelsStagedAndSwitched_7 : ∃ s : State, ∃ (port : Nat) (tag : Nat) (fl : Flight) (m : Nat) (st : Nat) (k : Nat), Waiting s
    0x0403 port tag fl ∧ par fl 0 = m ∧ m < 2 ^ 16 ∧ ownsStage s port = true ∧ s.estp.switch = none ∧ loadChecks s (readBytes s (stageArea
    0) (get s R.EST_STAGE.LEN)) (get s R.EST_STAGE.LEN) m = some (st, k) :=
  ⟨w_ModelsStagedAndSwitched_7, 0, 7, ((flightOf w_ModelsStagedAndSwitched_7 0 7).getD dfl), 1, 3, 1, ⟨by decide +kernel, by
    decide +kernel, by decide +kernel, by decide +kernel, by decide +kernel⟩, by decide +kernel⟩

def w_ModelsStagedAndSwitched_8 : State :=
  let s := ready
  let s := flying 0 7 0x0405 [2] s
  let s := blow (R.EST_DIE_STAT.PREV_VALID 1) (1) s
  let s := setLink (1) { linkOf s (1) with lost := false } s
  let s := { s with estp := { s.estp with switch := none } }
  let s := setEst (1) { estOf s (1) with banks := [⟨true,[7]⟩,⟨true,[1,2,3]⟩] } s
  s
theorem met_ModelsStagedAndSwitched_8 : ∃ s : State, ∃ (port : Nat) (tag : Nat) (fl : Flight) (m : Nat), Waiting s 0x0405 port tag fl ∧
    par fl 0 = m ∧ 0 < m ∧ m < 2 ^ nDies s ∧ (∀ d, bit m d = true → isOn s (R.EST_DIE_STAT.PREV_VALID d) = true ∧ otherBank s d = true ∧
    (linkOf s d).lost = false) ∧ s.estp.switch = none :=
  ⟨w_ModelsStagedAndSwitched_8, 0, 7, ((flightOf w_ModelsStagedAndSwitched_8 0 7).getD dfl), 2, ⟨by decide +kernel, by decide +kernel,
    by decide +kernel, by decide +kernel, by decide +kernel⟩, by decide +kernel, by decide +kernel, by decide +kernel, onBits 16 (by
    decide) (by decide +kernel), by decide +kernel⟩

def w_ModelsStagedAndSwitched_9 : State :=
  let s := ready
  let s := flying 1 9 0x0403 [2] s
  let s := markStarted 1 9 s
  let s := { s with estp := { s.estp with switch := some ⟨2, 1, 9, false⟩ } }
  let s := setEst (1) { estOf s (1) with banks := [⟨true,[7]⟩,⟨false,[1,2,3]⟩] } s
  let s := setEst (1) { estOf s (1) with active := 0 } s
  s
theorem met_ModelsStagedAndSwitched_9 : ∃ s : State, ∃ (w : _) (fl : Flight) (d : Nat), s.estp.switch = some w ∧ flightOf s w.port w.tag =
    some fl ∧ w.revert = false ∧ d < 16 ∧ bit w.mask d = true ∧ (estOf s d).banks.length = 2 ∧ (estOf s d).active ≤ 1 ∧ bankPkg s d (1 -
    (estOf s d).active) ≠ [] :=
  ⟨w_ModelsStagedAndSwitched_9, ((w_ModelsStagedAndSwitched_9.estp.switch).getD ⟨0,0,0,false⟩), ((flightOf w_ModelsStagedAndSwitched_9 1
    9).getD dfl), 1, by decide +kernel⟩

def w_ModelsStagedAndSwitched_10 : State :=
  let s := ready
  let s := flying 1 9 0x0405 [2] s
  let s := markStarted 1 9 s
  let s := { s with estp := { s.estp with switch := some ⟨2, 1, 9, true⟩ } }
  let s := setEst (1) { estOf s (1) with banks := [⟨true,[7]⟩,⟨true,[1,2,3]⟩] } s
  let s := setEst (1) { estOf s (1) with active := 0 } s
  s
theorem met_ModelsStagedAndSwitched_10 : ∃ s : State, ∃ (w : _) (fl : Flight) (d : Nat), s.estp.switch = some w ∧ flightOf s w.port w.tag
    = some fl ∧ w.revert = true ∧ d < 16 ∧ bit w.mask d = true ∧ otherBank s d = true :=
  ⟨w_ModelsStagedAndSwitched_10, ((w_ModelsStagedAndSwitched_10.estp.switch).getD ⟨0,0,0,true⟩), ((flightOf w_ModelsStagedAndSwitched_10
    1 9).getD dfl), 1, by decide +kernel⟩

def w_ModelsStagedAndSwitched_11 : State :=
  let s := ready
  let s := { s with clk := { s.clk with started := true } }
  let s := setEst (1) { estOf s (1) with turn := (some 3) } s
  let s := setEst (1) { estOf s (1) with due := 4 } s
  let s := setEst (1) { estOf s (1) with active := 0 } s
  let s := setEst (1) { estOf s (1) with banks := [⟨true, modelWords.flatMap (leBytes 4)⟩, ⟨false, []⟩] } s
  s
theorem met_ModelsStagedAndSwitched_11 : ∃ s : State, ∃ (d : Nat) (w : Nat), s.clk.started = true ∧ isPresent s d = true ∧ (estOf s
    d).turn = some w ∧ w ≤ (estOf s d).due :=
  ⟨w_ModelsStagedAndSwitched_11, 1, 3, by decide +kernel⟩

/-! IntentJudged. -/

def w_IntentJudged_1 : State :=
  let s := ready
  let s := { s with boot := { s.boot with accRst := false } }
  let s := { s with boot := { s.boot with dieRst := 0 } }
  let s := { s with boot := { s.boot with lostHold := 0 } }
  let s := setLink (1) { linkOf s (1) with trained := true } s
  let s := blow (R.ITN_SRC_CFG.SRC_EN 1) (0xFF) s
  let s := setItn (1) (ItnD.init) s
  s
theorem met_IntentJudged_1 : ∃ s : State, ∃ (d : Nat) (w : _) (p : _), isPresent s d = true ∧ dieInReset s d = false ∧ w < 2 ^ 64 ∧
    badPacket d w = false ∧ bit (setting s d (R.ITN_SRC_CFG.SRC_EN d)) (pkSrc w) = true ∧ addEntry (entryOf s (tokOf s d).slot w) (itnOf s
    d).agent = some p :=
  ⟨w_IntentJudged_1, 1, (pkt 1 40 5 7), ((addEntry (entryOf w_IntentJudged_1 (tokOf w_IntentJudged_1 1).slot (pkt 1 40 5 7)) (itnOf
    w_IntentJudged_1 1).agent).getD Prof.init), by decide +kernel⟩

def w_IntentJudged_2 : State :=
  let s := ready
  let s := { s with boot := { s.boot with accRst := false } }
  let s := { s with boot := { s.boot with dieRst := 0 } }
  let s := { s with boot := { s.boot with lostHold := 0 } }
  let s := setLink (1) { linkOf s (1) with trained := true } s
  s
theorem met_IntentJudged_2 : ∃ s : State, ∃ (d : Nat) (w : _), isPresent s d = true ∧ dieInReset s d = false ∧ w < 2 ^ 64 ∧ badPacket d w
    = true :=
  ⟨w_IntentJudged_2, 1, (pkt 1 0 5 7), by decide +kernel⟩

def w_IntentJudged_3 : State :=
  let s := ready
  let s := { s with boot := { s.boot with accRst := false } }
  let s := { s with boot := { s.boot with dieRst := 0 } }
  let s := { s with boot := { s.boot with lostHold := 0 } }
  let s := setLink (1) { linkOf s (1) with trained := true } s
  let s := blow (R.ITN_SRC_CFG.SRC_EN 1) (0x7F) s
  s
theorem met_IntentJudged_3 : ∃ s : State, ∃ (d : Nat) (w : _), isPresent s d = true ∧ dieInReset s d = false ∧ w < 2 ^ 64 ∧ badPacket d w
    = false ∧ bit (setting s d (R.ITN_SRC_CFG.SRC_EN d)) (pkSrc w) = false :=
  ⟨w_IntentJudged_3, 1, (pkt 1 40 5 7), by decide +kernel⟩

def w_IntentJudged_4 : State :=
  let s := ready
  let s := { s with boot := { s.boot with accRst := false } }
  let s := { s with boot := { s.boot with dieRst := 0 } }
  let s := { s with boot := { s.boot with lostHold := 0 } }
  let s := setLink (1) { linkOf s (1) with trained := true } s
  let s := blow (R.ITN_SRC_CFG.SRC_EN 1) (0x80) s
  let s := setTok (1) { tokOf s (1) with slot := 10 } s
  let s := setItn (1) { itnOf s (1) with agent := ⟨(List.range 8).map (fun i => ⟨7, i, i, 1, 1, 0, false, false, false⟩), List.replicate
      8 0, List.replicate 8 0, List.replicate 8 0⟩ } s
  s
theorem met_IntentJudged_4 : ∃ s : State, ∃ (d : Nat) (w : _), isPresent s d = true ∧ dieInReset s d = false ∧ w < 2 ^ 64 ∧ badPacket d w
    = false ∧ bit (setting s d (R.ITN_SRC_CFG.SRC_EN d)) (pkSrc w) = true ∧ addEntry (entryOf s (tokOf s d).slot w) (itnOf s d).agent =
    none :=
  ⟨w_IntentJudged_4, 1, (pkt 1 40 5 7), by decide +kernel⟩

def w_IntentJudged_5 : State :=
  let s := ready
  let s := up1 1 s
  let s := blow (R.ITN_SRC_CFG.SRC_EN 1) (0x80) s
  let s := setItn (1) (ItnD.init) s
  s
theorem met_IntentJudged_5 : ∃ s : State, ∃ (d : Nat) (fr : _) (slot : Nat) (w : _) (p : _), Accepts s true tyINTENT d fr ∧ packetsOf
    (framePayload fr.bytes) = [w] ∧ badPacket d w = false ∧ bit (get s (R.ITN_SRC_CFG.SRC_EN d)) (pkSrc w) = true ∧ addEntry (entryOf s
    slot w) (itnOf s d).core = some p :=
  ⟨w_IntentJudged_5, 1, (⟨0, frameOf tyINTENT 4 (leBytes 8 (pkt 1 40 5 7))⟩), 77, (pkt 1 40 5 7), ((addEntry (entryOf w_IntentJudged_5
    77 (pkt 1 40 5 7)) (itnOf w_IntentJudged_5 1).core).getD Prof.init), ⟨by decide +kernel, by decide +kernel, by decide +kernel, by
    decide +kernel, by decide +kernel, by decide +kernel, by decide +kernel⟩, by decide +kernel⟩

def w_IntentJudged_6 : State :=
  let s := ready
  let s := setTok (1) { tokOf s (1) with slot := 10 } s
  let s := setItn (1) { itnOf s (1) with agent := ⟨[⟨7, 2, 9, 55, 1, 0, false, false, false⟩, ⟨7, 10, 12, 56, 1, 0, false, false,
      false⟩], List.replicate 8 0, List.replicate 8 0, List.replicate 8 0⟩ } s
  s
theorem met_IntentJudged_6 : ∃ s : State, ∃ (d : Nat), isPresent s d = true :=
  ⟨w_IntentJudged_6, 1, by decide +kernel⟩

def w_IntentJudged_7 : State :=
  let s := ready
  let s := blow (R.ITN_DIE_STAT.MISMATCH 1) (0) s
  let s := blow (R.ITN_MM.MM_N) (3) s
  let s := setItn (1) { itnOf s (1) with badRun := 3 } s
  let s := setLink (1) { linkOf s (1) with lost := false } s
  s
theorem met_IntentJudged_7 : ∃ s : State, ∃ (d : Nat), isPresent s d = true ∧ (linkOf s d).lost = false ∧ get s (R.ITN_DIE_STAT.MISMATCH
    d) = 0 ∧ setting s d R.ITN_MM.MM_N ≤ (itnOf s d).badRun :=
  ⟨w_IntentJudged_7, 1, by decide +kernel⟩

def w_IntentJudged_8 : State :=
  let s := ready
  let s := blow (R.ITN_DIE_STAT.MISMATCH 1) (1) s
  let s := blow (R.ITN_MM.MM_CLR) (3) s
  let s := setItn (1) { itnOf s (1) with goodRun := 3 } s
  let s := setLink (1) { linkOf s (1) with lost := false } s
  s
theorem met_IntentJudged_8 : ∃ s : State, ∃ (d : Nat), isPresent s d = true ∧ (linkOf s d).lost = false ∧ get s (R.ITN_DIE_STAT.MISMATCH
    d) = 1 ∧ setting s d R.ITN_MM.MM_CLR ≤ (itnOf s d).goodRun :=
  ⟨w_IntentJudged_8, 1, by decide +kernel⟩

def w_IntentJudged_9 : State :=
  let s := ready
  let s := flying 0 7 0x0501 [3] s
  s
theorem met_IntentJudged_9 : ∃ s : State, ∃ (port : Nat) (tag : Nat) (fl : Flight) (m : Nat), Waiting s 0x0501 port tag fl ∧ par fl 0 = m
    ∧ 0 < m ∧ m < 2 ^ nDies s :=
  ⟨w_IntentJudged_9, 0, 7, ((flightOf w_IntentJudged_9 0 7).getD dfl), 3, ⟨by decide +kernel, by decide +kernel, by decide +kernel, by
    decide +kernel, by decide +kernel⟩, by decide +kernel⟩

/-! DroopCutsAndMasks. -/

def w_DroopCutsAndMasks_1 : State :=
  let s := ready
  let s := blow (R.LPE_STAT.STATE 1) (2) s
  let s := blow (R.ITN_DRP_STAT.STUCK 1) (1) s
  let s := blow (R.ITN_DRP_STAT.FAILED 1) (2) s
  let s := blow (R.ITN_DRP_MASK.SITE_DIS 1) (4) s
  let s := blow (R.ITN_DIE_STAT.CUT 1) (0) s
  let s := blow (R.ITN_DRP_CFG.STRETCH_EN) (1) s
  let s := setLink (1) { linkOf s (1) with held := [] } s
  let s := setLink (1) { linkOf s (1) with own := [] } s
  let s := setLink (1) { linkOf s (1) with lost := false } s
  s
theorem met_DroopCutsAndMasks_1 : ∃ s : State, ∃ (d : Nat) (k : Nat), isPresent s d = true ∧ k < 4 ∧ sitesArmed s d = true ∧ bit
    (maskedSites s d) k = false ∧ agentGet s d (R.ITN_DIE_STAT.CUT d) = 0 :=
  ⟨w_DroopCutsAndMasks_1, 1, 3, by decide +kernel⟩

def w_DroopCutsAndMasks_2 : State :=
  let s := ready
  let s := blow (R.ITN_DIE_STAT.CUT 1) (1) s
  let s := setItn (1) { itnOf s (1) with detMask := 3 } s
  let s := setItn (1) { itnOf s (1) with forced := [] } s
  let s := setLink (1) { linkOf s (1) with own := [] } s
  s
theorem met_DroopCutsAndMasks_2 : ∃ s : State, ∃ (d : Nat) (m : Nat), isPresent s d = true ∧ agentGet s d (R.ITN_DIE_STAT.CUT d) = 1 ∧
    bitsClear (itnOf s d).detMask (freeSites s d m) = 0 :=
  ⟨w_DroopCutsAndMasks_2, 1, 7, by decide +kernel⟩

def w_DroopCutsAndMasks_3 : State :=
  let s := ready
  let s := blow (R.ITN_DIE_STAT.CUT 1) (1) s
  let s := setItn (1) { itnOf s (1) with detMask := 7 } s
  let s := setItn (1) { itnOf s (1) with forced := [] } s
  let s := setLink (1) { linkOf s (1) with own := [] } s
  s
theorem met_DroopCutsAndMasks_3 : ∃ s : State, ∃ (d : Nat) (m : Nat), isPresent s d = true ∧ bitsClear (itnOf s d).detMask (freeSites s d
    m) ≠ 0 :=
  ⟨w_DroopCutsAndMasks_3, 1, 3, by decide +kernel⟩

def w_DroopCutsAndMasks_4 : State :=
  let s := ready
  let s := up1 1 s
  s
theorem met_DroopCutsAndMasks_4 : ∃ s : State, ∃ (d : Nat) (fr : _), Accepts s true tyREPORT d fr :=
  ⟨w_DroopCutsAndMasks_4, 1, (fra tyREPORT 0 3), ⟨by decide +kernel, by decide +kernel, by decide +kernel, by decide +kernel, by
    decide +kernel, by decide +kernel, by decide +kernel⟩⟩

def w_DroopCutsAndMasks_5 : State :=
  let s := ready
  let s := flying 0 7 0x0503 [1 + 64 * 3, 10] s
  let s := blow (R.LPE_STAT.STATE 1) (2) s
  let s := blow (R.ITN_DRP_STAT.STUCK 1) (0) s
  let s := blow (R.ITN_DRP_STAT.FAILED 1) (0) s
  let s := blow (R.ITN_DRP_MASK.SITE_DIS 1) (0) s
  let s := blow (R.ITN_DIE_STAT.CUT 1) (0) s
  let s := setLink (1) { linkOf s (1) with lost := false } s
  s
theorem met_DroopCutsAndMasks_5 : ∃ s : State, ∃ (port : Nat) (tag : Nat) (fl : Flight) (d : Nat) (k : Nat) (n : Nat), Waiting s 0x0503
    port tag fl ∧ par fl 0 = d + 64 * k ∧ par fl 1 = n ∧ isPresent s d = true ∧ k < 4 ∧ 10 ≤ n ∧ n ≤ 10000 ∧ bit (markedSites s d ||| get
    s (R.ITN_DRP_MASK.SITE_DIS d)) k = false ∧ loopState s d = lpTRACK ∧ (linkOf s d).lost = false :=
  ⟨w_DroopCutsAndMasks_5, 0, 7, ((flightOf w_DroopCutsAndMasks_5 0 7).getD dfl), 1, 3, 10, ⟨by decide +kernel, by decide +kernel, by
    decide +kernel, by decide +kernel, by decide +kernel⟩, by decide +kernel⟩

def w_DroopCutsAndMasks_6 : State :=
  let s := ready
  let s := flying 0 7 0x0503 [1 + 64 * 3, 10] s
  let s := blow (R.LPE_STAT.STATE 1) (2) s
  let s := blow (R.ITN_DRP_STAT.STUCK 1) (0) s
  let s := blow (R.ITN_DRP_STAT.FAILED 1) (0) s
  let s := blow (R.ITN_DRP_MASK.SITE_DIS 1) (0) s
  let s := setLink (1) { linkOf s (1) with lost := true } s
  s
theorem met_DroopCutsAndMasks_6 : ∃ s : State, ∃ (port : Nat) (tag : Nat) (fl : Flight) (d : Nat) (k : Nat) (n : Nat), Waiting s 0x0503
    port tag fl ∧ par fl 0 = d + 64 * k ∧ par fl 1 = n ∧ isPresent s d = true ∧ k < 4 ∧ 10 ≤ n ∧ n ≤ 10000 ∧ bit (markedSites s d ||| get
    s (R.ITN_DRP_MASK.SITE_DIS d)) k = false ∧ loopState s d = lpTRACK ∧ (linkOf s d).lost = true :=
  ⟨w_DroopCutsAndMasks_6, 0, 7, ((flightOf w_DroopCutsAndMasks_6 0 7).getD dfl), 1, 3, 10, ⟨by decide +kernel, by decide +kernel, by
    decide +kernel, by decide +kernel, by decide +kernel⟩, by decide +kernel⟩

def w_DroopCutsAndMasks_7 : State :=
  let s := ready
  let s := setItn (1) { itnOf s (1) with detMask := 8 } s
  let s := setItn (1) { itnOf s (1) with threshold := 100 } s
  let s := blow (R.ITN_DRP_CFG.HYST) (5) s
  let s := blow (R.LPE_V.VMEAS 1) (141) s
  let s := setLink (1) { linkOf s (1) with lost := false } s
  let s := late 100000000 s
  s
theorem met_DroopCutsAndMasks_7 : ∃ s : State, ∃ (d : Nat) (k : Nat), isPresent s d = true ∧ (linkOf s d).lost = false ∧ k < 4 ∧ bit
    (itnOf s d).detMask k = true ∧ get s R.ITN_DRP_CFG2.STUCK_US ≤ s.us - sget 0 k (itnOf s d).aboveUs ∧ (itnOf s d).threshold + 8 * get s
    R.ITN_DRP_CFG.HYST < vmeas s d :=
  ⟨w_DroopCutsAndMasks_7, 1, 3, by decide +kernel⟩

def w_DroopCutsAndMasks_8 : State :=
  let s := ready
  let s := blow (R.ITN_DRP_STAT.FAILED 1) (0) s
  let s := setLink (1) { linkOf s (1) with own := [] } s
  s
theorem met_DroopCutsAndMasks_8 : ∃ s : State, ∃ (d : Nat) (m : Nat) (k : Nat), isPresent s d = true ∧ k < 4 ∧ bit m k = true ∧ bit
    (agentGet s d (R.ITN_DRP_STAT.FAILED d)) k = false :=
  ⟨w_DroopCutsAndMasks_8, 1, 8, 3, by decide +kernel⟩

def w_DroopCutsAndMasks_9 : State :=
  let s := ready
  let s := flying 0 7 0x0502 [1 + 64 * 15] s
  let s := blow (R.ITN_DRP_STAT.FAILED 1) (8) s
  let s := blow (R.ITN_DRP_STAT.STUCK 1) (15) s
  let s := setLink (1) { linkOf s (1) with lost := false } s
  s
theorem met_DroopCutsAndMasks_9 : ∃ s : State, ∃ (port : Nat) (tag : Nat) (fl : Flight) (d : Nat) (m : Nat) (failing : Nat), Waiting s
    0x0502 port tag fl ∧ par fl 0 = d + 64 * m ∧ isPresent s d = true ∧ 0 < m ∧ m < 16 ∧ m &&& markedSites s d = m ∧ m &&& failing = 0 ∧
    (linkOf s d).lost = false :=
  ⟨w_DroopCutsAndMasks_9, 0, 7, ((flightOf w_DroopCutsAndMasks_9 0 7).getD dfl), 1, 15, 0, ⟨by decide +kernel, by decide +kernel, by
    decide +kernel, by decide +kernel, by decide +kernel⟩, by decide +kernel⟩

def w_DroopCutsAndMasks_10 : State :=
  let s := ready
  let s := flying 0 7 0x0502 [1 + 64 * 15] s
  let s := blow (R.ITN_DRP_STAT.FAILED 1) (8) s
  let s := blow (R.ITN_DRP_STAT.STUCK 1) (15) s
  let s := setLink (1) { linkOf s (1) with lost := false } s
  s
theorem met_DroopCutsAndMasks_10 : ∃ s : State, ∃ (port : Nat) (tag : Nat) (fl : Flight) (d : Nat) (m : Nat) (failing : Nat), Waiting s
    0x0502 port tag fl ∧ par fl 0 = d + 64 * m ∧ isPresent s d = true ∧ 0 < m ∧ m < 16 ∧ (m &&& markedSites s d ≠ m ∨ m &&& failing ≠ 0 ∧
    (linkOf s d).lost = false) :=
  ⟨w_DroopCutsAndMasks_10, 0, 7, ((flightOf w_DroopCutsAndMasks_10 0 7).getD dfl), 1, 15, 8, ⟨by decide +kernel, by decide +kernel, by
    decide +kernel, by decide +kernel, by decide +kernel⟩, by decide +kernel⟩

def w_DroopCutsAndMasks_11 : State :=
  let s := ready
  let s := { s with log := { s.log with fresh := [] } }
  let s := flying 0 7 0x0502 [1 + 64 * 15] s
  let s := blow (R.ITN_DRP_STAT.FAILED 1) (8) s
  let s := blow (R.ITN_DRP_STAT.STUCK 1) (15) s
  let s := setLink (1) { linkOf s (1) with lost := true } s
  s
theorem met_DroopCutsAndMasks_11 : ∃ s : State, ∃ (port : Nat) (tag : Nat) (fl : Flight) (d : Nat) (m : Nat), s.log.fresh = [] ∧ Waiting s
    0x0502 port tag fl ∧ par fl 0 = d + 64 * m ∧ isPresent s d = true ∧ 0 < m ∧ m < 16 ∧ m &&& markedSites s d = m ∧ (linkOf s d).lost =
    true :=
  ⟨w_DroopCutsAndMasks_11, 0, 7, ((flightOf w_DroopCutsAndMasks_11 0 7).getD dfl), 1, 15, by decide +kernel, ⟨by decide +kernel, by
    decide +kernel, by decide +kernel, by decide +kernel, by decide +kernel⟩, by decide +kernel⟩

/-! TokensGranted. -/

def w_TokensGranted_1 : State :=
  let s := ready
  let s := { s with clk := { s.clk with started := true } }
  s
theorem met_TokensGranted_1 : ∃ s : State, ∃ (d : Nat), isPresent s d = true ∧ s.clk.started = true :=
  ⟨w_TokensGranted_1, 1, by decide +kernel⟩

def w_TokensGranted_2 : State :=
  let s := ready
  let s := { s with clk := { s.clk with started := true } }
  let s := { s with boot := { s.boot with change := 0 } }
  s
theorem met_TokensGranted_2 : ∃ s : State, ∃ (d : Nat), isPresent s d = true ∧ s.clk.started = true ∧ s.boot.change = 0 :=
  ⟨w_TokensGranted_2, 1, by decide +kernel⟩

def w_TokensGranted_3 : State :=
  let s := ready
  let s := setTok (1) { tokOf s (1) with episode := true } s
  let s := setTok (1) { tokOf s (1) with n := 10 } s
  let s := setTok (1) { tokOf s (1) with ng := 10 } s
  s
theorem met_TokensGranted_3 : ∃ s : State, ∃ (d : Nat), isPresent s d = true ∧ (tokOf s d).episode = true ∧ (tokOf s d).ng ≤ (tokOf s d).n
    :=
  ⟨w_TokensGranted_3, 1, by decide +kernel⟩

def w_TokensGranted_4 : State :=
  let s := ready
  let s := { s with clk := { s.clk with started := true } }
  s
theorem met_TokensGranted_4 : ∃ s : State, s.clk.started = true :=
  ⟨w_TokensGranted_4, by decide +kernel⟩

def w_TokensGranted_5 : State :=
  let s := ready
  let s := late 10000000000 s
  let s := { s with therm := { s.therm with warmUs := 0 } }
  let s := blow (R.FIL_WARM_STAT.STATE) (1) s
  let s := blow (R.FIL_WARM_STAT.TIMEOUT) (0) s
  s
theorem met_TokensGranted_5 : ∃ s : State, get s R.FIL_WARM_STAT.STATE = 1 ∧ get s R.FIL_WARM_STAT.TIMEOUT = 0 ∧ get s
    R.FIL_WARM.TIMEOUT_S * 1000000 ≤ s.us - s.therm.warmUs :=
  ⟨w_TokensGranted_5, by decide +kernel⟩

def w_TokensGranted_6 : State :=
  let s := ready
  let s := flying 0 7 0x0504 [] s
  let s := blow (R.FIL_WARM_STAT.STATE) (1) s
  s
theorem met_TokensGranted_6 : ∃ s : State, ∃ (port : Nat) (tag : Nat) (fl : Flight), Waiting s 0x0504 port tag fl ∧ get s
    R.FIL_WARM_STAT.STATE = 1 :=
  ⟨w_TokensGranted_6, 0, 7, ((flightOf w_TokensGranted_6 0 7).getD dfl), ⟨by decide +kernel, by decide +kernel, by decide +kernel, by
    decide +kernel, by decide +kernel⟩, by decide +kernel⟩

def w_TokensGranted_7 : State :=
  let s := ready
  let s := flying 0 7 0x0504 [] s
  let s := blow (R.FIL_WARM_STAT.STATE) (2) s
  s
theorem met_TokensGranted_7 : ∃ s : State, ∃ (port : Nat) (tag : Nat) (fl : Flight), Waiting s 0x0504 port tag fl ∧ get s
    R.FIL_WARM_STAT.STATE ≠ 1 :=
  ⟨w_TokensGranted_7, 0, 7, ((flightOf w_TokensGranted_7 0 7).getD dfl), ⟨by decide +kernel, by decide +kernel, by decide +kernel, by
    decide +kernel, by decide +kernel⟩, by decide +kernel⟩

/-! BrownoutStates. -/

def w_BrownoutStates_1 : State :=
  let s := ready
  let s := blow (R.CAP_BROWN_STAT.STATE) (0) s
  let s := { s with capp := { s.capp with below := 2 } }
  let s := { s with capp := { s.capp with reset := 1 } }
  s
theorem met_BrownoutStates_1 : ∃ s : State, get s R.CAP_BROWN_STAT.STATE = 0 ∧ 2 ≤ s.capp.below ∧ s.capp.reset < 2 :=
  ⟨w_BrownoutStates_1, by decide +kernel⟩

def w_BrownoutStates_2 : State :=
  let s := ready
  let s := blow (R.CAP_BROWN_STAT.STATE) (2) s
  let s := { s with capp := { s.capp with above := 2 } }
  s
theorem met_BrownoutStates_2 : ∃ s : State, get s R.CAP_BROWN_STAT.STATE ≠ 0 ∧ 2 ≤ s.capp.above :=
  ⟨w_BrownoutStates_2, by decide +kernel⟩

def w_BrownoutStates_3 : State :=
  let s := ready
  let s := blow (R.CAP_BROWN_STAT.STATE) (1) s
  let s := { s with capp := { s.capp with ride := 0 } }
  s
theorem met_BrownoutStates_3 : ∃ s : State, get s R.CAP_BROWN_STAT.STATE = 1 ∧ s.capp.ride = 0 :=
  ⟨w_BrownoutStates_3, by decide +kernel⟩

def w_BrownoutStates_4 : State :=
  let s := ready
  let s := blow (R.BOOT_STAT.STAGE) (5) s
  let s := { s with capp := { s.capp with reset := 2 } }
  let s := { s with boot := { s.boot with downCause := 0 } }
  s
theorem met_BrownoutStates_4 : ∃ s : State, 2 ≤ s.capp.reset ∧ 5 ≤ stage s ∧ stage s ≤ stREADY ∧ s.boot.downCause = 0 :=
  ⟨w_BrownoutStates_4, by decide +kernel⟩

/-! OperatingPointsMove. -/

def w_OperatingPointsMove_1 : State :=
  let s := ready
  let s := setCap (1) { capOf s (1) with change := 1 } s
  let s := blow (R.LPE_STAT.STATE 1) (2) s
  let s := blow (R.LPE_REF.TARGET 1) (5200) s
  let s := setRail (1) { railOf s (1) with ref256 := (5200*256) } s
  s
theorem met_OperatingPointsMove_1 : ∃ s : State, ∃ (d : Nat), isPresent s d = true ∧ (capOf s d).change = 1 ∧ loopState s d = lpTRACK ∧
    (railOf s d).ref256 = railTarget s d * 256 :=
  ⟨w_OperatingPointsMove_1, 1, by decide +kernel⟩

def w_OperatingPointsMove_2 : State :=
  let s := ready
  let s := up1 1 s
  let s := setCap (1) { capOf s (1) with change := 3 } s
  let s := setCap (1) { capOf s (1) with owed := false } s
  let s := blow (R.LPE_STAT.STATE 1) (2) s
  let s := blow (R.CAP_DIE_OP.TGT 1) (15) s
  s
theorem met_OperatingPointsMove_2 : ∃ s : State, ∃ (d : Nat) (fr : _), Accepts s true tyBULK d fr ∧ ((capOf s d).change = 2 ∨ (capOf s
    d).change = 3) ∧ (capOf s d).owed = false ∧ loopState s d ≠ lpHOLD ∧ get s (R.CAP_DIE_OP.TGT d) < 16 :=
  ⟨w_OperatingPointsMove_2, 1, (fra tyBULK 3 3), ⟨by decide +kernel, by decide +kernel, by decide +kernel, by decide +kernel, by
    decide +kernel, by decide +kernel, by decide +kernel⟩, by decide +kernel⟩

def w_OperatingPointsMove_3 : State :=
  let s := ready
  let s := up1 1 s
  let s := setCap (1) { capOf s (1) with change := 3 } s
  let s := setCap (1) { capOf s (1) with owed := true } s
  let s := blow (R.LPE_STAT.STATE 1) (2) s
  let s := blow (R.CAP_DIE_OP.TGT 1) (15) s
  s
theorem met_OperatingPointsMove_3 : ∃ s : State, ∃ (d : Nat) (fr : _), Accepts s true tyBULK d fr ∧ ((capOf s d).change = 2 ∨ (capOf s
    d).change = 3) ∧ (capOf s d).owed = true ∧ loopState s d ≠ lpHOLD ∧ get s (R.CAP_DIE_OP.TGT d) < 16 :=
  ⟨w_OperatingPointsMove_3, 1, (fra tyBULK 3 3), ⟨by decide +kernel, by decide +kernel, by decide +kernel, by decide +kernel, by
    decide +kernel, by decide +kernel, by decide +kernel⟩, by decide +kernel⟩

def w_OperatingPointsMove_4 : State :=
  let s := ready
  let s := { s with clk := { s.clk with started := true } }
  let s := { s with capp := { s.capp with cycles := 1000 } }
  s
theorem met_OperatingPointsMove_4 : ∃ s : State, s.clk.started = true ∧ 0 < s.capp.cycles :=
  ⟨w_OperatingPointsMove_4, by decide +kernel⟩

def w_OperatingPointsMove_5 : State :=
  let s := ready
  let s := flying 1 9 0x0604 [0x3D] s
  let s := markStarted 1 9 s
  let s := { s with capp := { s.capp with deferred := [⟨5, 0, 1, false, 0x0604, [0x3D], 1, 9⟩] } }
  s
theorem met_OperatingPointsMove_5 : ∃ s : State, ∃ (c : _) (fl : Flight), s.capp.deferred = [c] ∧ collective s c.scope = false ∧ c.opcode
    = 0x0604 ∧ flightOf s c.port c.tag = some fl :=
  ⟨w_OperatingPointsMove_5, (⟨5, 0, 1, false, 0x0604, [0x3D], 1, 9⟩), ((flightOf w_OperatingPointsMove_5 1 9).getD dfl), by decide +kernel⟩

def w_OperatingPointsMove_6 : State :=
  let s := ready
  let s := late 100000000000 s
  let s := flying 1 9 0x0604 [0x3D] s
  let s := markStarted 1 9 s
  let s := { s with capp := { s.capp with deferred := [⟨5, 3, 1, false, 0x0604, [0x3D], 1, 9⟩] } }
  let s := blow (R.ITN_DIE_STAT.COLLECTIVE 0) (1) s
  s
theorem met_OperatingPointsMove_6 : ∃ s : State, ∃ (c : _) (fl : Flight), s.capp.deferred = [c] ∧ c.at_ + get s R.CAP_DEFER.MAX_MS * 1000
    ≤ s.us ∧ c.opcode = 0x0604 ∧ flightOf s c.port c.tag = some fl :=
  ⟨w_OperatingPointsMove_6, (⟨5, 3, 1, false, 0x0604, [0x3D], 1, 9⟩), ((flightOf w_OperatingPointsMove_6 1 9).getD dfl), by decide +kernel⟩

def w_OperatingPointsMove_7 : State :=
  let s := ready
  let s := { s with log := { s.log with fresh := [] } }
  let s := { s with capp := { s.capp with deferred := [⟨5, 3, 1, false, 0x0604, [0x3D], 1, 9⟩] } }
  let s := blow (R.ITN_DIE_STAT.COLLECTIVE 0) (1) s
  s
theorem met_OperatingPointsMove_7 : ∃ s : State, s.log.fresh = [] ∧ s.capp.deferred ≠ [] ∧ (∀ c ∈ s.capp.deferred, collective s c.scope =
    true ∧ c.stepped = false) :=
  ⟨w_OperatingPointsMove_7, by decide +kernel⟩

/-! CapsAndTablesSet. -/

def w_CapsAndTablesSet_1 : State :=
  let s := ready
  let s := flying 0 7 0x0601 [65, 300000] s
  let s := blow (R.CAP_FUSE.DIE_FLOOR) (300) s
  let s := noColl s
  let s := { s with capp := { s.capp with deferred := [] } }
  let s := { s with capp := { s.capp with watches := [⟨2, 0, 1, 2, true, 3, 4, none⟩] } }
  s
theorem met_CapsAndTablesSet_1 : ∃ s : State, ∃ (port : Nat) (tag : Nat) (fl : Flight) (d : Nat) (v : Nat), Waiting s 0x0601 port tag fl ∧
    par fl 0 = d + 64 ∧ par fl 1 = v ∧ isPresent s d = true ∧ get s R.CAP_FUSE.DIE_FLOOR * 1000 ≤ v ∧ v < 0xFFFFFFFF ∧ AtOnce s (allDies
    s) ∧ (∀ w ∈ s.capp.watches, w.scope ≠ 1 ∨ w.die ≠ d) :=
  ⟨w_CapsAndTablesSet_1, 0, 7, ((flightOf w_CapsAndTablesSet_1 0 7).getD dfl), 1, 300000, ⟨by decide +kernel, by decide +kernel, by
    decide +kernel, by decide +kernel, by decide +kernel⟩, by decide +kernel, by decide +kernel, by decide +kernel, by decide +kernel,
    by decide +kernel, ⟨by decide +kernel, by decide +kernel⟩, by decide +kernel⟩

def w_CapsAndTablesSet_2 : State :=
  let s := ready
  let s := flying 0 7 0x0601 [65, 0xFFFFFFFF] s
  let s := blow (R.CAP_FUSE.DIE_FLOOR) (300) s
  let s := noColl s
  let s := { s with capp := { s.capp with deferred := [] } }
  let s := { s with capp := { s.capp with watches := [] } }
  s
theorem met_CapsAndTablesSet_2 : ∃ s : State, ∃ (port : Nat) (tag : Nat) (fl : Flight) (d : Nat), Waiting s 0x0601 port tag fl ∧ par fl 0
    = d + 64 ∧ par fl 1 = 0xFFFFFFFF ∧ isPresent s d = true ∧ get s R.CAP_FUSE.DIE_FLOOR * 1000 ≤ 0xFFFFFFFF ∧ AtOnce s (allDies s) ∧ (∀ w
    ∈ s.capp.watches, w.scope ≠ 1 ∨ w.die ≠ d) :=
  ⟨w_CapsAndTablesSet_2, 0, 7, ((flightOf w_CapsAndTablesSet_2 0 7).getD dfl), 1, ⟨by decide +kernel, by decide +kernel, by
    decide +kernel, by decide +kernel, by decide +kernel⟩, by decide +kernel, by decide +kernel, by decide +kernel, by decide +kernel,
    ⟨by decide +kernel, by decide +kernel⟩, by decide +kernel⟩

def w_CapsAndTablesSet_3 : State :=
  let s := ready
  let s := flying 0 7 0x0601 [128, 900000] s
  let s := blow (R.CAP_FUSE.PKG_FLOOR) (900) s
  let s := { s with capp := { s.capp with deferred := [] } }
  s
theorem met_CapsAndTablesSet_3 : ∃ s : State, ∃ (port : Nat) (tag : Nat) (fl : Flight) (v : Nat), Waiting s 0x0601 port tag fl ∧ par fl 0
    = 128 ∧ par fl 1 = v ∧ get s R.CAP_FUSE.PKG_FLOOR * 1000 ≤ v ∧ v < 0xFFFFFFFF ∧ s.capp.deferred = [] :=
  ⟨w_CapsAndTablesSet_3, 0, 7, ((flightOf w_CapsAndTablesSet_3 0 7).getD dfl), 900000, ⟨by decide +kernel, by decide +kernel, by
    decide +kernel, by decide +kernel, by decide +kernel⟩, by decide +kernel⟩

def w_CapsAndTablesSet_4 : State :=
  let s := ready
  let s := flying 0 7 0x0601 [65, 0xFFFFFFFF] s
  let s := blow (R.CAP_FUSE.DIE_FLOOR) (300) s
  let s := blow (R.ITN_DIE_STAT.COLLECTIVE 1) (1) s
  let s := { s with capp := { s.capp with deferred := [] } }
  s
theorem met_CapsAndTablesSet_4 : ∃ s : State, ∃ (port : Nat) (tag : Nat) (fl : Flight) (d : Nat) (v : Nat), Waiting s 0x0601 port tag fl ∧
    par fl 0 = d + 64 ∧ par fl 1 = v ∧ isPresent s d = true ∧ get s R.CAP_FUSE.DIE_FLOOR * 1000 ≤ v ∧ v ≤ 0xFFFFFFFF ∧ s.capp.deferred =
    [] ∧ collective s (allDies s) = true :=
  ⟨w_CapsAndTablesSet_4, 0, 7, ((flightOf w_CapsAndTablesSet_4 0 7).getD dfl), 1, 0xFFFFFFFF, ⟨by decide +kernel, by decide +kernel, by
    decide +kernel, by decide +kernel, by decide +kernel⟩, by decide +kernel⟩

def w_CapsAndTablesSet_5 : State :=
  let s := ready
  let s := flying 1 9 0x0601 [65, 5] s
  let s := markStarted 1 9 s
  let s := { s with capp := { s.capp with watches := [⟨1, 1, 77, 3, true, 1, 9, some (0, 12345)⟩] } }
  s
theorem met_CapsAndTablesSet_5 : ∃ s : State, ∃ (w : _) (st : Nat) (mean : Nat) (fl : Flight), s.capp.watches = [w] ∧ w.verdict = some
    (st, mean) ∧ flightOf s w.port w.tag = some fl :=
  ⟨w_CapsAndTablesSet_5, (⟨1, 1, 77, 3, true, 1, 9, some (0, 12345)⟩), 0, 12345, ((flightOf w_CapsAndTablesSet_5 1 9).getD dfl), by
    decide +kernel⟩

def w_CapsAndTablesSet_6 : State :=
  let s := ready
  let s := flying 0 7 0x0602 ([2 + 1 * 2 ^ 16, 4800 + 800 * 2 ^ 16, 7600 + 1500 * 2 ^ 16] ++ List.replicate 14 0) s
  let s := blow (R.CAP_FUSE2.FMIN) (800) s
  let s := blow (R.CAP_FUSE2.FMAX) (1500) s
  let s := blow (R.CAP_FUSE.N_FREQ) (2) s
  let s := blow (R.LPE_STAT.STATE 1) (2) s
  let s := { s with capp := { s.capp with deferred := [] } }
  let s := blow (R.ITN_DIE_STAT.COLLECTIVE 1) (0) s
  s
theorem met_CapsAndTablesSet_6 : ∃ s : State, ∃ (port : Nat) (tag : Nat) (fl : Flight) (m : Nat) (n : Nat) (d : Nat), Waiting s 0x0602
    port tag fl ∧ par fl 0 = m + (n - 1) * 2 ^ 16 ∧ 0 < m ∧ m < 2 ^ nDies s ∧ 1 ≤ n ∧ n ≤ 16 ∧ fl.params.length = 17 ∧ (∀ j, n ≤ j → par
    fl (j + 1) = 0) ∧ tableOrdered (tableEntries fl n) = true ∧ (∀ x ∈ tableEntries fl n, 4800 ≤ x.1 ∧ x.1 ≤ 7600 ∧ x.1 % 20 = 0 ∧ get s
    R.CAP_FUSE2.FMIN ≤ x.2 ∧ x.2 ≤ get s R.CAP_FUSE2.FMAX) ∧ n ≤ get s R.CAP_FUSE.N_FREQ ∧ (∀ k, bit m k = true → loopState s k ≠ lpHOLD)
    ∧ AtOnce s m ∧ bit m d = true :=
  ⟨w_CapsAndTablesSet_6, 0, 7, ((flightOf w_CapsAndTablesSet_6 0 7).getD dfl), 2, 2, 1, ⟨by decide +kernel, by decide +kernel, by
    decide +kernel, by decide +kernel, by decide +kernel⟩, by decide +kernel, by decide +kernel, by decide +kernel, by decide +kernel,
    by decide +kernel, by decide +kernel, parEnd (n := 2) (by decide +kernel), by decide +kernel, by decide +kernel, by decide +kernel,
    onBits 16 (by decide) (by decide +kernel), ⟨by decide +kernel, by decide +kernel⟩, by decide +kernel⟩

def w_CapsAndTablesSet_7 : State :=
  let s := ready
  let s := flying 0 7 0x0603 [3 + 15 * 2 ^ 16 + 15 * 2 ^ 20] s
  let s := blow (R.CAP_DIE_OP.N_OP 0) (16) s
  let s := blow (R.CAP_DIE_OP.N_OP 1) (16) s
  let s := { s with capp := { s.capp with deferred := [] } }
  let s := blow (R.ITN_DIE_STAT.COLLECTIVE 1) (0) s
  let s := blow (R.ITN_DIE_STAT.COLLECTIVE 0) (0) s
  s
theorem met_CapsAndTablesSet_7 : ∃ s : State, ∃ (port : Nat) (tag : Nat) (fl : Flight) (m : Nat) (lo : Nat) (hi : Nat) (d : Nat), Waiting
    s 0x0603 port tag fl ∧ par fl 0 = m + lo * 2 ^ 16 + hi * 2 ^ 20 ∧ 0 < m ∧ m < 2 ^ nDies s ∧ lo ≤ hi ∧ hi < 16 ∧ (∀ k, bit m k = true →
    hi < get s (R.CAP_DIE_OP.N_OP k)) ∧ AtOnce s m ∧ bit m d = true :=
  ⟨w_CapsAndTablesSet_7, 0, 7, ((flightOf w_CapsAndTablesSet_7 0 7).getD dfl), 3, 15, 15, 1, ⟨by decide +kernel, by decide +kernel, by
    decide +kernel, by decide +kernel, by decide +kernel⟩, by decide +kernel, by decide +kernel, by decide +kernel, by decide +kernel,
    by decide +kernel, onBits 16 (by decide) (by decide +kernel), ⟨by decide +kernel, by decide +kernel⟩, by decide +kernel⟩

def w_CapsAndTablesSet_8 : State :=
  let s := ready
  let s := flying 0 7 0x0603 [3 + 2 * 2 ^ 16 + 4 * 2 ^ 20] s
  let s := blow (R.CAP_DIE_OP.N_OP 1) (4) s
  s
theorem met_CapsAndTablesSet_8 : ∃ s : State, ∃ (port : Nat) (tag : Nat) (fl : Flight) (m : Nat) (lo : Nat) (hi : Nat) (k : Nat), Waiting
    s 0x0603 port tag fl ∧ par fl 0 = m + lo * 2 ^ 16 + hi * 2 ^ 20 ∧ 0 < m ∧ m < 2 ^ nDies s ∧ lo ≤ hi ∧ hi < 16 ∧ bit m k = true ∧ get s
    (R.CAP_DIE_OP.N_OP k) ≤ hi :=
  ⟨w_CapsAndTablesSet_8, 0, 7, ((flightOf w_CapsAndTablesSet_8 0 7).getD dfl), 3, 2, 4, 1, ⟨by decide +kernel, by decide +kernel, by
    decide +kernel, by decide +kernel, by decide +kernel⟩, by decide +kernel⟩

/-! ModesAndHintsSet. -/

def w_ModesAndHintsSet_1 : State :=
  let s := ready
  let s := flying 0 7 0x0604 [2 + 4 * 15] s
  let s := allOp 16 s
  let s := { s with capp := { s.capp with deferred := [] } }
  let s := noColl s
  s
theorem met_ModesAndHintsSet_1 : ∃ s : State, ∃ (port : Nat) (tag : Nat) (fl : Flight) (mode : Nat) (op : Nat), Waiting s 0x0604 port tag
    fl ∧ par fl 0 = mode + 4 * op ∧ mode < 3 ∧ op < 16 ∧ (∀ d, isPresent s d = true → op < get s (R.CAP_DIE_OP.N_OP d)) ∧ AtOnce s
    (allDies s) :=
  ⟨w_ModesAndHintsSet_1, 0, 7, ((flightOf w_ModesAndHintsSet_1 0 7).getD dfl), 2, 15, ⟨by decide +kernel, by decide +kernel, by
    decide +kernel, by decide +kernel, by decide +kernel⟩, by decide +kernel, by decide +kernel, by decide +kernel, onDies (by
    decide +kernel), ⟨by decide +kernel, by decide +kernel⟩⟩

def w_ModesAndHintsSet_2 : State :=
  let s := ready
  let s := flying 0 7 0x0605 [7 + 8 * 15 + 128 * 4095] s
  let s := { s with capp := { s.capp with deferred := [] } }
  let s := noColl s
  s
theorem met_ModesAndHintsSet_2 : ∃ s : State, ∃ (port : Nat) (tag : Nat) (fl : Flight) (k : Nat) (op : Nat) (ceil : Nat), Waiting s 0x0605
    port tag fl ∧ par fl 0 = k + 8 * op + 128 * ceil ∧ k < 8 ∧ op < 16 ∧ 0 < ceil ∧ ceil < 4096 ∧ AtOnce s (allDies s) :=
  ⟨w_ModesAndHintsSet_2, 0, 7, ((flightOf w_ModesAndHintsSet_2 0 7).getD dfl), 7, 15, 4095, ⟨by decide +kernel, by decide +kernel, by
    decide +kernel, by decide +kernel, by decide +kernel⟩, by decide +kernel, by decide +kernel, by decide +kernel, by decide +kernel,
    by decide +kernel, ⟨by decide +kernel, by decide +kernel⟩⟩

def w_ModesAndHintsSet_3 : State :=
  let s := ready
  let s := flying 0 7 0x0606 [0x12, 100 + 200 * 2 ^ 10 + 300 * 2 ^ 20] s
  let s := blow (R.CAP_FUSE.PKG_FLOOR) (600) s
  let s := { s with capp := { s.capp with deferred := [] } }
  let s := noColl s
  s
theorem met_ModesAndHintsSet_3 : ∃ s : State, ∃ (port : Nat) (tag : Nat) (fl : Flight) (o : Nat) (a : Nat) (b : Nat) (c : Nat), Waiting s
    0x0606 port tag fl ∧ par fl 0 = o ∧ o < 64 ∧ sortNat [bits o 0 2, bits o 2 2, bits o 4 2] = [0, 1, 2] ∧ par fl 1 = a + b * 2 ^ 10 + c
    * 2 ^ 20 ∧ a < 1024 ∧ b < 1024 ∧ c < 1024 ∧ a + b + c ≤ get s R.CAP_FUSE.PKG_FLOOR ∧ AtOnce s (allDies s) :=
  ⟨w_ModesAndHintsSet_3, 0, 7, ((flightOf w_ModesAndHintsSet_3 0 7).getD dfl), 0x12, 100, 200, 300, ⟨by decide +kernel, by
    decide +kernel, by decide +kernel, by decide +kernel, by decide +kernel⟩, by decide +kernel, by decide +kernel, by decide +kernel,
    by decide +kernel, by decide +kernel, by decide +kernel, by decide +kernel, by decide +kernel, ⟨by decide +kernel, by
    decide +kernel⟩⟩

def w_ModesAndHintsSet_4 : State :=
  let s := ready
  let s := flying 0 7 0x0607 [2, 300000] s
  let s := blow (R.CAP_FUSE.DIE_FLOOR) (300) s
  let s := { s with capp := { s.capp with deferred := [] } }
  let s := noColl s
  s
theorem met_ModesAndHintsSet_4 : ∃ s : State, ∃ (port : Nat) (tag : Nat) (fl : Flight) (m : Nat) (v : Nat) (d : Nat), Waiting s 0x0607
    port tag fl ∧ par fl 0 = m ∧ par fl 1 = v ∧ 0 < m ∧ m < 2 ^ nDies s ∧ v < 2 ^ 32 ∧ get s R.CAP_FUSE.DIE_FLOOR * 1000 ≤ v ∧ AtOnce s m
    ∧ bit m d = true :=
  ⟨w_ModesAndHintsSet_4, 0, 7, ((flightOf w_ModesAndHintsSet_4 0 7).getD dfl), 2, 300000, 1, ⟨by decide +kernel, by decide +kernel, by
    decide +kernel, by decide +kernel, by decide +kernel⟩, by decide +kernel, by decide +kernel, by decide +kernel, by decide +kernel,
    by decide +kernel, by decide +kernel, ⟨by decide +kernel, by decide +kernel⟩, by decide +kernel⟩

/-! TemperaturesAndStacks. -/

def w_TemperaturesAndStacks_1 : State :=
  let s := ready
  let s := { s with therm := { s.therm with period := 0 } }
  let s := { s with clk := { s.clk with started := true } }
  s
theorem met_TemperaturesAndStacks_1 : ∃ s : State, s.clk.started = true ∧ s.therm.period ≠ conversionPeriod s :=
  ⟨w_TemperaturesAndStacks_1, by decide +kernel⟩

def w_TemperaturesAndStacks_2 : State :=
  let s := ready
  let s := up1 1 s
  let s := { s with therm := { s.therm with isOpen := true } }
  let s := { s with boot := { s.boot with accRst := false } }
  let s := { s with boot := { s.boot with dieRst := 0 } }
  let s := { s with boot := { s.boot with lostHold := 0 } }
  s
theorem met_TemperaturesAndStacks_2 : ∃ s : State, ∃ (d : Nat) (fr : _), s.therm.isOpen = true ∧ Accepts s true tyBULK d fr ∧ dieInReset s
    d = false :=
  ⟨w_TemperaturesAndStacks_2, 1, (fra tyBULK 3 3), by decide +kernel, ⟨by decide +kernel, by decide +kernel, by decide +kernel, by
    decide +kernel, by decide +kernel, by decide +kernel, by decide +kernel⟩, by decide +kernel⟩

def w_TemperaturesAndStacks_3 : State :=
  let s := ready
  let s := blow (R.CLK_STATUS.STATE) (2) s
  let s := { s with therm := { s.therm with isOpen := true } }
  let s := { s with therm := { s.therm with spoiled := false } }
  let s := { s with boot := { s.boot with accRst := false } }
  let s := { s with boot := { s.boot with dieRst := 0 } }
  let s := { s with boot := { s.boot with lostHold := 0 } }
  let s := setLink (1) { linkOf s (1) with trained := true } s
  let s := setLink (1) { linkOf s (1) with lost := false } s
  let s := { s with therm := { s.therm with counts := [(1, (List.range 96).map (fun i => 300000 + 100 * i + s.us % 7000))] } }
  let s := blow (R.LPE_STAT.STATE 1) (2) s
  let s := blow (R.THM_SNS_CAL.CA 99) (200000) s
  let s := blow (R.THM_SNS_CAL.CB 99) (400000) s
  let s := blow (R.THM_SNS.EXCL 99) (0) s
  let s := { s with therm := { s.therm with runs := [] } }
  let s := { s with therm := { s.therm with clock := 2 } }
  s
theorem met_TemperaturesAndStacks_3 : ∃ s : State, ∃ (d : Nat) (i : Nat), s.therm.isOpen = true ∧ s.therm.spoiled = false ∧ s.therm.clock
    = 2 ∧ isPresent s d = true ∧ dieHeld s d = false ∧ sget [] d s.therm.counts ≠ [] ∧ i < nSensors s ∧ sensorLive s d i = true ∧ get s
    (R.THM_SNS_CAL.CA (96 * d + i)) ≠ get s (R.THM_SNS_CAL.CB (96 * d + i)) :=
  ⟨w_TemperaturesAndStacks_3, 1, 3, by decide +kernel⟩

def w_TemperaturesAndStacks_4 : State :=
  let s := ready
  let s := { s with therm := { s.therm with isOpen := true } }
  let s := { s with therm := { s.therm with spoiled := false } }
  let s := setLink (1) { linkOf s (1) with lost := true } s
  s
theorem met_TemperaturesAndStacks_4 : ∃ s : State, ∃ (d : Nat), s.therm.isOpen = true ∧ s.therm.spoiled = false ∧ isPresent s d = true ∧
    dieHeld s d = true :=
  ⟨w_TemperaturesAndStacks_4, 1, by decide +kernel⟩

def w_TemperaturesAndStacks_5 : State :=
  let s := ready
  let s := { s with therm := { s.therm with isOpen := true } }
  let s := { s with therm := { s.therm with spoiled := true } }
  s
theorem met_TemperaturesAndStacks_5 : ∃ s : State, s.therm.isOpen = true ∧ s.therm.spoiled = true :=
  ⟨w_TemperaturesAndStacks_5, by decide +kernel⟩

def w_TemperaturesAndStacks_6 : State :=
  let s := ready
  let s := blow (R.GOV_CFG.N_STACKS) (16) s
  let s := up1 0 s
  let s := blow (R.SEC_STK_MAP.MAP) (0) s
  s
theorem met_TemperaturesAndStacks_6 : ∃ s : State, ∃ (n : Nat) (fr : _) (v : Nat), n < nStacks s ∧ Accepts s true tyBULK (serves s n) fr ∧
    v < 2 ^ 16 :=
  ⟨w_TemperaturesAndStacks_6, 15, (fra tyBULK 3 3), 1000, by decide +kernel, ⟨by decide +kernel, by decide +kernel, by decide +kernel,
    by decide +kernel, by decide +kernel, by decide +kernel, by decide +kernel⟩, by decide +kernel⟩

def w_TemperaturesAndStacks_7 : State :=
  let s := ready
  let s := late 1000000 s
  let s := { s with therm := { s.therm with stkUs := [(15, s.us - 10000)] } }
  let s := blow (R.GOV_CFG.N_STACKS) (16) s
  let s := blow (R.THM_STK.STALE 15) (0) s
  s
theorem met_TemperaturesAndStacks_7 : ∃ s : State, ∃ (n : Nat), n < nStacks s ∧ get s (R.THM_STK.STALE n) = 0 ∧ 10000 ≤ s.us - sget 0 n
    s.therm.stkUs :=
  ⟨w_TemperaturesAndStacks_7, 15, by decide +kernel⟩

/-! ThermalCommands. -/

def w_ThermalCommands_1 : State :=
  let s := ready
  let s := flying 0 7 0x0701 [0, 1520 + 1680 * 2 ^ 16] s
  s
theorem met_ThermalCommands_1 : ∃ s : State, ∃ (port : Nat) (tag : Nat) (fl : Flight) (k : Nat) (w : Nat) (v : Nat), Waiting s 0x0701 port
    tag fl ∧ par fl 0 = k ∧ k < 3 ∧ par fl 1 = w + v * 2 ^ 16 ∧ (if k = 2 then 960 else 640) ≤ w ∧ w < v ∧ w ≤ (if k = 0 then 1520 else if
    k = 1 then 1360 else 1680) ∧ v ≤ (if k = 0 then 1680 else if k = 1 then 1520 else 1680) :=
  ⟨w_ThermalCommands_1, 0, 7, ((flightOf w_ThermalCommands_1 0 7).getD dfl), 0, 1520, 1680, ⟨by decide +kernel, by decide +kernel, by
    decide +kernel, by decide +kernel, by decide +kernel⟩, by decide +kernel⟩

def w_ThermalCommands_2 : State :=
  let s := ready
  let s := flying 0 7 0x0702 [159] s
  let s := noExcl s
  s
theorem met_ThermalCommands_2 : ∃ s : State, ∃ (port : Nat) (tag : Nat) (fl : Flight) (g : Nat), Waiting s 0x0702 port tag fl ∧ par fl 0 =
    g ∧ sensorFitted s g = true ∧ get s (R.THM_SNS.EXCL g) = 0 ∧ (excludedIn s (g / 96) 0 (nSensors s)).length + 1 < nSensors s :=
  ⟨w_ThermalCommands_2, 0, 7, ((flightOf w_ThermalCommands_2 0 7).getD dfl), 159, ⟨by decide +kernel, by decide +kernel, by
    decide +kernel, by decide +kernel, by decide +kernel⟩, by decide +kernel⟩

def w_ThermalCommands_3 : State :=
  let s := ready
  let s := flying 0 7 0x0703 [159] s
  let s := blow (R.THM_SNS.EXCL 159) (1) s
  s
theorem met_ThermalCommands_3 : ∃ s : State, ∃ (port : Nat) (tag : Nat) (fl : Flight) (g : Nat), Waiting s 0x0703 port tag fl ∧ par fl 0 =
    g ∧ sensorFitted s g = true ∧ isOn s (R.THM_SNS.EXCL g) = true :=
  ⟨w_ThermalCommands_3, 0, 7, ((flightOf w_ThermalCommands_3 0 7).getD dfl), 159, ⟨by decide +kernel, by decide +kernel, by
    decide +kernel, by decide +kernel, by decide +kernel⟩, by decide +kernel⟩

def w_ThermalCommands_4 : State :=
  let s := ready
  let s := late 10000000000 s
  let s := { s with therm := { s.therm with tripUs := (s.us - 2000000) } }
  let s := flying 0 7 0x0704 [] s
  let s := blow (R.THM_TRIP.ACTIVE) (1) s
  let s := blow (R.THM_TRIP_CFG.HOLD_S) (2) s
  s
theorem met_ThermalCommands_4 : ∃ s : State, ∃ (port : Nat) (tag : Nat) (fl : Flight), Waiting s 0x0704 port tag fl ∧ isOn s
    R.THM_TRIP.ACTIVE = true ∧ get s R.THM_TRIP_CFG.HOLD_S * 1000000 ≤ s.us - s.therm.tripUs :=
  ⟨w_ThermalCommands_4, 0, 7, ((flightOf w_ThermalCommands_4 0 7).getD dfl), ⟨by decide +kernel, by decide +kernel, by decide +kernel,
    by decide +kernel, by decide +kernel⟩, by decide +kernel⟩

def w_ThermalCommands_5 : State :=
  let s := ready
  let s := late 10000000000 s
  let s := { s with therm := { s.therm with tripUs := (s.us - 1999999) } }
  let s := flying 0 7 0x0704 [] s
  let s := blow (R.THM_TRIP_CFG.HOLD_S) (2) s
  s
theorem met_ThermalCommands_5 : ∃ s : State, ∃ (port : Nat) (tag : Nat) (fl : Flight), Waiting s 0x0704 port tag fl ∧ (get s
    R.THM_TRIP.ACTIVE = 0 ∨ s.us - s.therm.tripUs < get s R.THM_TRIP_CFG.HOLD_S * 1000000) :=
  ⟨w_ThermalCommands_5, 0, 7, ((flightOf w_ThermalCommands_5 0 7).getD dfl), ⟨by decide +kernel, by decide +kernel, by decide +kernel,
    by decide +kernel, by decide +kernel⟩, by decide +kernel⟩

/-! RingMembership. -/

def w_RingMembership_1 : State :=
  let s := ready
  let s := blow (R.RNG_STAT.STATE) (1) s
  let s := { s with ring := { s.ring with hdrRun := 100 } }
  let s := { s with ring := { s.ring with lastFrame := 99 } }
  s
theorem met_RingMembership_1 : ∃ s : State, ringState s = rnLISTEN ∧ 100 ≤ s.ring.hdrRun ∧ s.ring.lastFrame = 99 :=
  ⟨w_RingMembership_1, by decide +kernel⟩

def w_RingMembership_2 : State :=
  let s := ready
  let s := late 1000000 s
  let s := { s with ring := { s.ring with quietUs := (s.us - 670) } }
  let s := blow (R.RNG_CFG.ROLE) (1) s
  let s := blow (R.RNG_STAT.STATE) (1) s
  let s := blow (R.RNG_STAT.MASTER_ACT) (0) s
  let s := blow (R.RNG_CFG.MEMBER_ID) (63) s
  s
theorem met_RingMembership_2 : ∃ s : State, (get s R.RNG_CFG.ROLE = 1 ∨ get s R.RNG_CFG.ROLE = 2) ∧ (ringState s = rnLISTEN ∨ ringState s
    = rnMEMBER) ∧ get s R.RNG_STAT.MASTER_ACT = 0 ∧ takeoverTime s ≤ s.us - s.ring.quietUs :=
  ⟨w_RingMembership_2, by decide +kernel⟩

def w_RingMembership_3 : State :=
  let s := ready
  let s := blow (R.RNG_STAT.MASTER_ACT) (1) s
  let s := { s with ring := { s.ring with outranked := true } }
  s
theorem met_RingMembership_3 : ∃ s : State, isMaster s = true ∧ (s.ring.outranked = true ∨ get s R.RNG_CFG.ROLE = 0) :=
  ⟨w_RingMembership_3, by decide +kernel⟩

def w_RingMembership_4 : State :=
  let s := ready
  let s := late 30 s
  let s := { s with ring := { s.ring with quietUs := (s.us - 30) } }
  let s := blow (R.RNG_STAT.STATE) (2) s
  let s := blow (R.RNG_STAT.MASTER_ACT) (0) s
  s
theorem met_RingMembership_4 : ∃ s : State, ringState s = rnMEMBER ∧ get s R.RNG_STAT.MASTER_ACT = 0 ∧ 30 ≤ s.us - s.ring.quietUs :=
  ⟨w_RingMembership_4, by decide +kernel⟩

def w_RingMembership_5 : State :=
  let s := ready
  let s := { s with ring := { s.ring with closing := true } }
  let s := blow (R.RNG_STAT.STATE) (2) s
  let s := blow (R.RNG_CFG.EN) (0) s
  s
theorem met_RingMembership_5 : ∃ s : State, s.ring.closing = true ∧ ringState s = rnMEMBER ∧ get s R.RNG_CFG.EN = 0 :=
  ⟨w_RingMembership_5, by decide +kernel⟩

def w_RingMembership_6 : State :=
  let s := ready
  let s := { s with ring := { s.ring with closing := true } }
  let s := blow (R.RNG_STAT.STATE) (2) s
  let s := blow (R.RNG_CFG.EN) (1) s
  let s := { s with ring := { s.ring with conflict := true } }
  s
theorem met_RingMembership_6 : ∃ s : State, s.ring.closing = true ∧ ringState s = rnMEMBER ∧ get s R.RNG_CFG.EN = 1 ∧ s.ring.conflict =
    true :=
  ⟨w_RingMembership_6, by decide +kernel⟩

def w_RingMembership_7 : State :=
  let s := ready
  let s := { s with ring := { s.ring with taken := some (5, 65535) } }
  let s := { s with ring := { s.ring with due := true } }
  let s := blow (R.RNG_STAT.STATE) (2) s
  let s := { s with capp := { s.capp with deferred := [] } }
  let s := noColl s
  s
theorem met_RingMembership_7 : ∃ s : State, ∃ (round : Nat) (w : Nat), s.ring.taken = some (round, w) ∧ s.ring.due = true ∧ ringState s =
    rnMEMBER ∧ s.capp.deferred = [] ∧ collective s (allDies s) = false ∧ w < 2 ^ 16 :=
  ⟨w_RingMembership_7, 5, 65535, by decide +kernel⟩

/-! RingFramesAndBalance. -/

def w_RingFramesAndBalance_1 : State :=
  let s := ready
  let s := blow (R.RNG_STAT.MASTER_ACT) (1) s
  let s := { s with ring := { s.ring with frame := 98 } }
  s
theorem met_RingFramesAndBalance_1 : ∃ s : State, isMaster s = true ∧ 0 < s.ring.frame ∧ s.ring.frame < 99 :=
  ⟨w_RingFramesAndBalance_1, by decide +kernel⟩

def w_RingFramesAndBalance_2 : State :=
  let s := ready
  let s := blow (R.RNG_STAT.MASTER_ACT) (1) s
  let s := { s with ring := { s.ring with frame := 99 } }
  s
theorem met_RingFramesAndBalance_2 : ∃ s : State, isMaster s = true ∧ s.ring.frame = 99 :=
  ⟨w_RingFramesAndBalance_2, by decide +kernel⟩

def w_RingFramesAndBalance_3 : State :=
  let s := ready
  let s := { s with clk := { s.clk with started := true } }
  let s := blow (R.RNG_STAT.STATE) (1) s
  s
theorem met_RingFramesAndBalance_3 : ∃ s : State, ∃ (h : List Nat), s.clk.started = true ∧ (ringState s = rnLISTEN ∨ ringState s =
    rnMEMBER) ∧ (∀ b ∈ h, b < 256) ∧ leNat ((h.drop 14).take 2) ≠ crc16 (h.take 14) :=
  ⟨w_RingFramesAndBalance_3, (List.replicate 16 1), by decide +kernel⟩

def w_RingFramesAndBalance_4 : State :=
  let s := ready
  let s := { s with clk := { s.clk with started := true } }
  let s := blow (R.RNG_STAT.STATE) (1) s
  let s := { s with ring := { s.ring with hdrRun := 99 } }
  s
theorem met_RingFramesAndBalance_4 : ∃ s : State, ∃ (h : List Nat), s.clk.started = true ∧ ringState s = rnLISTEN ∧ (∀ b ∈ h, b < 256) ∧
    leNat ((h.drop 14).take 2) = crc16 (h.take 14) :=
  ⟨w_RingFramesAndBalance_4, (crcd [1, 2, 63, 4, 5, 6, 7, 8, 9, 10, 11, 12, 13, 14]), by decide +kernel⟩

def w_RingFramesAndBalance_5 : State :=
  let s := ready
  let s := { s with clk := { s.clk with started := true } }
  let s := blow (R.RNG_STAT.STATE) (2) s
  let s := blow (R.RNG_STAT.MASTER_ACT) (0) s
  let s := blow (R.RNG_CFG.EN) (1) s
  let s := blow (R.RNG_CFG.MEMBER_ID) (2) s
  let s := { s with ring := { s.ring with conflict := false } }
  let s := { s with ring := { s.ring with away := 0 } }
  s
theorem met_RingFramesAndBalance_5 : ∃ s : State, ∃ (h : List Nat) (sl : List (List Nat)), s.clk.started = true ∧ (ringState s = rnLISTEN
    ∨ ringState s = rnMEMBER) ∧ s.ring.conflict = false ∧ (nth h 2 % 64 ≠ ringId s ∨ s.ring.away = 0) ∧ (∀ b ∈ h, b < 256) ∧ (∀ x ∈ sl, ∀
    b ∈ x, b < 256) ∧ leNat ((h.drop 14).take 2) = crc16 (h.take 14) ∧ slotEmpty (sl.getD (ringId s) []) = false ∧ slotGood (sl.getD
    (ringId s) []) = true ∧ bit (nth (sl.getD (ringId s) []) 0) 0 = true ∧ get s R.RNG_CFG.EN = 1 :=
  ⟨w_RingFramesAndBalance_5, (crcd [1, 2, 63, 4, 5, 6, 7, 8, 9, 10, 11, 12, 13, 14]), ([[], [], crcd [1, 2, 3, 4, 5, 6, 7, 8, 9, 10]]),
    by decide +kernel⟩

def w_RingFramesAndBalance_6 : State :=
  let s := ready
  let s := blow (R.RNG_STAT.MASTER_ACT) (1) s
  let s := { s with ring := { s.ring with balanceDue := true } }
  let s := { s with ring := { s.ring with holdOne := false } }
  let s := { s with ring := { s.ring with returned := 90 } }
  let s := blow (R.RNG_TOTAL.TOTAL) (1000) s
  s
theorem met_RingFramesAndBalance_6 : ∃ s : State, isMaster s = true ∧ s.ring.balanceDue = true ∧ s.ring.holdOne = false ∧ 90 ≤
    s.ring.returned ∧ (List.range 64).foldl (fun a m => a + (copyOf s m).floor) 0 ≤ get s R.RNG_TOTAL.TOTAL :=
  ⟨w_RingFramesAndBalance_6, by decide +kernel⟩

def w_RingFramesAndBalance_7 : State :=
  let s := ready
  let s := blow (R.RNG_STAT.MASTER_ACT) (1) s
  let s := { s with ring := { s.ring with balanceDue := true } }
  let s := { s with ring := { s.ring with holdOne := false } }
  let s := { s with ring := { s.ring with returned := 89 } }
  s
theorem met_RingFramesAndBalance_7 : ∃ s : State, isMaster s = true ∧ s.ring.balanceDue = true ∧ s.ring.holdOne = false ∧ s.ring.returned
    < 90 :=
  ⟨w_RingFramesAndBalance_7, by decide +kernel⟩

/-! ConfigurationDigest. -/

def w_ConfigurationDigest_1 : State :=
  let s := ready
  let s := { s with ring := { s.ring with busy := true } }
  s
theorem met_ConfigurationDigest_1 : ∃ s : State, s.ring.busy = true :=
  ⟨w_ConfigurationDigest_1, by decide +kernel⟩

def w_ConfigurationDigest_2 : State :=
  let s := ready
  let s := flying 1 9 0x0801 [] s
  let s := markStarted 1 9 s
  let s := { s with ring := { s.ring with busy := true } }
  s
theorem met_ConfigurationDigest_2 : ∃ s : State, ∃ (fl : Flight), s.ring.busy = true ∧ s.host.flights = [fl] ∧ fl.opcode = 0x0801 ∧
    fl.started = true :=
  ⟨w_ConfigurationDigest_2, ((flightOf w_ConfigurationDigest_2 1 9).getD dfl), by decide +kernel⟩

def w_ConfigurationDigest_3 : State :=
  let s := ready
  let s := flying 0 7 0x0801 [] s
  let s := { s with ring := { s.ring with busy := false } }
  s
theorem met_ConfigurationDigest_3 : ∃ s : State, ∃ (port : Nat) (tag : Nat) (fl : Flight), Waiting s 0x0801 port tag fl ∧ s.ring.busy =
    false :=
  ⟨w_ConfigurationDigest_3, 0, 7, ((flightOf w_ConfigurationDigest_3 0 7).getD dfl), ⟨by decide +kernel, by decide +kernel, by
    decide +kernel, by decide +kernel, by decide +kernel⟩, by decide +kernel⟩

def w_ConfigurationDigest_4 : State :=
  let s := ready
  let s := flying 0 7 0x0801 [] s
  let s := { s with ring := { s.ring with busy := true } }
  s
theorem met_ConfigurationDigest_4 : ∃ s : State, ∃ (port : Nat) (tag : Nat) (fl : Flight), Waiting s 0x0801 port tag fl ∧ s.ring.busy =
    true :=
  ⟨w_ConfigurationDigest_4, 0, 7, ((flightOf w_ConfigurationDigest_4 0 7).getD dfl), ⟨by decide +kernel, by decide +kernel, by
    decide +kernel, by decide +kernel, by decide +kernel⟩, by decide +kernel⟩

def w_ConfigurationDigest_5 : State :=
  let s := ready
  let s := flying 0 7 0x0802 [63] s
  let s := blow (R.RNG_STAT.MASTER_ACT) (1) s
  let s := blow (R.RNG_PRESENT.MAP) (0) s
  let s := { s with ring := { s.ring with known := [(63, ⟨true, 5, 6, 7⟩)] } }
  s
theorem met_ConfigurationDigest_5 : ∃ s : State, ∃ (port : Nat) (tag : Nat) (fl : Flight) (m : Nat), Waiting s 0x0802 port tag fl ∧ par fl
    0 = m ∧ m < 64 ∧ isMaster s = true ∧ bit (get s R.RNG_PRESENT.MAP) m = false :=
  ⟨w_ConfigurationDigest_5, 0, 7, ((flightOf w_ConfigurationDigest_5 0 7).getD dfl), 63, ⟨by decide +kernel, by decide +kernel, by
    decide +kernel, by decide +kernel, by decide +kernel⟩, by decide +kernel⟩

def w_ConfigurationDigest_6 : State :=
  let s := ready
  let s := flying 0 7 0x0802 [63] s
  let s := blow (R.RNG_STAT.MASTER_ACT) (1) s
  let s := blow (R.RNG_PRESENT.MAP) ((2^63)) s
  s
theorem met_ConfigurationDigest_6 : ∃ s : State, ∃ (port : Nat) (tag : Nat) (fl : Flight) (m : Nat), Waiting s 0x0802 port tag fl ∧ par fl
    0 = m ∧ m < 64 ∧ (isMaster s = false ∨ bit (get s R.RNG_PRESENT.MAP) m = true) :=
  ⟨w_ConfigurationDigest_6, 0, 7, ((flightOf w_ConfigurationDigest_6 0 7).getD dfl), 63, ⟨by decide +kernel, by decide +kernel, by
    decide +kernel, by decide +kernel, by decide +kernel⟩, by decide +kernel⟩

/-! TapsAndVictims. -/

def w_TapsAndVictims_1 : State :=
  let s := ready
  let s := { s with clk := { s.clk with started := true } }
  let s := { s with recov := { s.recov with period := 0 } }
  s
theorem met_TapsAndVictims_1 : ∃ s : State, s.clk.started = true ∧ s.recov.period ≠ s.us / 1000 + 1 :=
  ⟨w_TapsAndVictims_1, by decide +kernel⟩

def w_TapsAndVictims_2 : State :=
  let s := ready
  let s := up1 1 s
  let s := { s with recov := { s.recov with arrived := 1 } }
  let s := { s with recov := { s.recov with late := 0 } }
  s
theorem met_TapsAndVictims_2 : ∃ s : State, ∃ (d : Nat) (fr : _), Accepts s true tyBULK d fr ∧ bit s.recov.arrived d = false ∧ bit
    s.recov.late d = false :=
  ⟨w_TapsAndVictims_2, 1, (fra tyBULK 3 3), ⟨by decide +kernel, by decide +kernel, by decide +kernel, by decide +kernel, by
    decide +kernel, by decide +kernel, by decide +kernel⟩, by decide +kernel⟩

def w_TapsAndVictims_3 : State :=
  let s := ready
  let s := blow (R.CLK_TIME.COUNT) (1000000) s
  let s := { s with recov := { s.recov with stamp := 0 } }
  let s := { s with recov := { s.recov with arrived := 1 } }
  let s := { s with recov := { s.recov with late := 0 } }
  s
theorem met_TapsAndVictims_3 : ∃ s : State, ∃ (d : Nat), isPresent s d = true ∧ bit s.recov.arrived d = false ∧ bit s.recov.late d = false
    ∧ 50000 ≤ spanNs s s.recov.stamp (now s) :=
  ⟨w_TapsAndVictims_3, 1, by decide +kernel⟩

def w_TapsAndVictims_4 : State :=
  let s := ready
  let s := { s with recov := { s.recov with due := true } }
  let s := { s with recov := { s.recov with graph := none } }
  let s := { s with recov := { s.recov with arrived := 0x5555 } }
  let s := { s with recov := { s.recov with late := 0xAAAA } }
  let s := blow (R.HNG_CFG.EN) (1) s
  let s := blow (R.CLK_TIME.COUNT) (1000000) s
  let s := { s with recov := { s.recov with stamp := 0 } }
  s
theorem met_TapsAndVictims_4 : ∃ s : State, ∃ (g : _) (stop : _), s.recov.due = true ∧ g = s.recov.graph.getD (walkGraph s) ∧ g.stamp ≤
    stop ∧ stop ≤ now s ∧ (s.recov.graph.isSome = true ∨ (∀ d, isPresent s d = true → bit s.recov.arrived d = true ∨ bit s.recov.late d =
    true)) ∧ get s R.HNG_CFG.EN = 1 ∧ (∀ e ∈ g.ctxs, e.2 < 4096) :=
  ⟨w_TapsAndVictims_4, (w_TapsAndVictims_4.recov.graph.getD (walkGraph w_TapsAndVictims_4)), (now w_TapsAndVictims_4), by
    decide +kernel, by decide +kernel, by decide +kernel, by decide +kernel, .inr (onDies (by decide +kernel)), by decide +kernel⟩

def w_TapsAndVictims_5 : State :=
  let s := ready
  let s := up1 1 s
  let s := blow (R.CTX_STATE.STATE 4095) (0) s
  s
theorem met_TapsAndVictims_5 : ∃ s : State, ∃ (d : Nat) (fr : _) (c : Nat), Accepts s true tyREPORT d fr ∧ c < 4096 ∧ ctxState s c =
    cxNORMAL :=
  ⟨w_TapsAndVictims_5, 1, (fra tyREPORT 3 3), 4095, ⟨by decide +kernel, by decide +kernel, by decide +kernel, by decide +kernel, by
    decide +kernel, by decide +kernel, by decide +kernel⟩, by decide +kernel⟩

def w_TapsAndVictims_6 : State :=
  let s := ready
  let s := blow (R.BOOT_STAT.AUTOPILOT) (0) s
  let s := { s with boot := { s.boot with govRst := false } }
  let s := blow (R.CTX_STATE.STATE 7) (1) s
  let s := { s with recov := { s.recov with pend := [] } }
  let s := { s with recov := { s.recov with namedKind := [(7, 1)] } }
  let s := blow (R.HNG_CFG.AUTO_HANG) (1) s
  s
theorem met_TapsAndVictims_6 : ∃ s : State, ∃ (c : Nat), fwRuns s = true ∧ c < 4096 ∧ ctxState s c = cxNAMED ∧ s.recov.pend.length < 64 ∧
    ((sget 0 c s.recov.namedKind = 1 ∧ get s R.HNG_CFG.AUTO_HANG = 1) ∨ (sget 0 c s.recov.namedKind = 2 ∧ get s R.HNG_CFG.AUTO_FAULT = 1))
    :=
  ⟨w_TapsAndVictims_6, 7, by decide +kernel⟩

def w_TapsAndVictims_7 : State :=
  let s := ready
  let s := { s with recov := { s.recov with cur := none } }
  let s := { s with recov := { s.recov with pend := [⟨4095, none, 4⟩, ⟨3, none, 5⟩] } }
  let s := blow (R.CTX_STATE.STATE 4095) (2) s
  let s := { s with recov := { s.recov with hold := false } }
  s
theorem met_TapsAndVictims_7 : ∃ s : State, ∃ (c : _) (l : _), s.recov.cur = none ∧ s.recov.hold = false ∧ s.recov.pend = c :: l ∧ c.ctx <
    4096 :=
  ⟨w_TapsAndVictims_7, (⟨4095, none, 4⟩), [⟨3, none, 5⟩], by decide +kernel⟩

/-! ResetSequenceRuns. -/

def w_ResetSequenceRuns_1 : State :=
  let s := ready
  let s := seqOn 5 3 s
  let s := linksUp s
  s
theorem met_ResetSequenceRuns_1 : ∃ s : State, ∃ (q : _) (who : Nat) (n : Nat), SeqAt s q cxFENCED ∧ agentsAck q.gone s = true ∧ 16 ≤ who
    ∧ 0 < n :=
  ⟨w_ResetSequenceRuns_1, (sq w_ResetSequenceRuns_1), 16, 3, ⟨by decide +kernel, by decide +kernel, by decide +kernel, by
    decide +kernel⟩, by decide +kernel⟩

def w_ResetSequenceRuns_2 : State :=
  let s := ready
  let s := seqOn 5 3 s
  let s := linksUp s
  s
theorem met_ResetSequenceRuns_2 : ∃ s : State, ∃ (q : _) (who : Nat), SeqAt s q cxFENCED ∧ agentsAck q.gone s = true ∧ 16 ≤ who :=
  ⟨w_ResetSequenceRuns_2, (sq w_ResetSequenceRuns_2), 16, ⟨by decide +kernel, by decide +kernel, by decide +kernel, by decide +kernel⟩,
    by decide +kernel⟩

def w_ResetSequenceRuns_3 : State :=
  let s := ready
  let s := seqOn 5 4 s
  s
theorem met_ResetSequenceRuns_3 : ∃ s : State, ∃ (q : _) (who : Nat) (n : Nat), SeqAt s q cxDRAINING ∧ 16 ≤ who ∧ drained s q.since n =
    true :=
  ⟨w_ResetSequenceRuns_3, (sq w_ResetSequenceRuns_3), 16, 0, ⟨by decide +kernel, by decide +kernel, by decide +kernel, by
    decide +kernel⟩, by decide +kernel⟩

def w_ResetSequenceRuns_4 : State :=
  let s := ready
  let s := blow (R.CTX_CAP_SLOTS.HELD) (0xFFFF) s
  let s := seqOn 5 5 s
  let s := linksUp s
  let s := noWin s
  s
theorem met_ResetSequenceRuns_4 : ∃ s : State, ∃ (q : _) (who : Nat) (n : Nat), SeqAt s q cxABORTING ∧ agentsAck q.gone s = true ∧ 16 ≤
    who ∧ (confPart s (ownerCtx s q.ctx) = true ∨ get s (R.CTX_STATE.SPLIT q.ctx) = 1 ∨ (∀ n < 16, bit (get s R.CTX_CAP_SLOTS.HELD) n =
    true)) :=
  ⟨w_ResetSequenceRuns_4, (sq w_ResetSequenceRuns_4), 16, 5000000000, ⟨by decide +kernel, by decide +kernel, by decide +kernel, by
    decide +kernel⟩, by decide +kernel⟩

def w_ResetSequenceRuns_5 : State :=
  let s := ready
  let s := seqOn 5 5 s
  let s := linksUp s
  let s := blow (R.CTX_CAPWIN.EN 7) (1) s
  let s := blow (R.CTX_STATE.PART 5) (63) s
  let s := blow (R.CTX_STATE.SPLIT 5) (0) s
  let s := blow (R.CTX_CAP_SLOTS.HELD) (0xFFFE) s
  s
theorem met_ResetSequenceRuns_5 : ∃ s : State, ∃ (q : _) (who : Nat), SeqAt s q cxABORTING ∧ agentsAck q.gone s = true ∧ 16 ≤ who ∧
    confPart s (ownerCtx s q.ctx) = false ∧ get s (R.CTX_STATE.SPLIT q.ctx) = 0 ∧ bit (get s R.CTX_CAP_SLOTS.HELD) 0 = false :=
  ⟨w_ResetSequenceRuns_5, (sq w_ResetSequenceRuns_5), 17, ⟨by decide +kernel, by decide +kernel, by decide +kernel, by decide +kernel⟩,
    by decide +kernel⟩

def w_ResetSequenceRuns_6 : State :=
  let s := ready
  let s := seqOn 4095 6 s
  s
theorem met_ResetSequenceRuns_6 : ∃ s : State, ∃ (q : _), SeqAt s q cxCAPTURING ∧ q.slot < 16 :=
  ⟨w_ResetSequenceRuns_6, (sq w_ResetSequenceRuns_6), ⟨by decide +kernel, by decide +kernel, by decide +kernel, by decide +kernel⟩, by
    decide +kernel⟩

def w_ResetSequenceRuns_7 : State :=
  let s := ready
  let s := blow (R.CLK_TIME.COUNT) (100000000) s
  let s := seqOn 4095 6 s
  s
theorem met_ResetSequenceRuns_7 : ∃ s : State, ∃ (q : _), SeqAt s q cxCAPTURING ∧ q.slot < 16 ∧ boundPassed s q.since (stepBound s q) =
    true :=
  ⟨w_ResetSequenceRuns_7, (sq w_ResetSequenceRuns_7), ⟨by decide +kernel, by decide +kernel, by decide +kernel, by decide +kernel⟩, by
    decide +kernel⟩

def w_ResetSequenceRuns_8 : State :=
  let s := ready
  let s := seqOn 4095 7 s
  let s := linksUp s
  s
theorem met_ResetSequenceRuns_8 : ∃ s : State, ∃ (q : _), SeqAt s q cxCLEARING ∧ agentsAck q.gone s = true ∧ q.released = false :=
  ⟨w_ResetSequenceRuns_8, (sq w_ResetSequenceRuns_8), ⟨by decide +kernel, by decide +kernel, by decide +kernel, by decide +kernel⟩, by
    decide +kernel⟩

def w_ResetSequenceRuns_9 : State :=
  let s := ready
  let s := seqOn 4095 7 s
  let s := { s with recov := { s.recov with cur := some ⟨4095, none, 3, 4, 2, 512, [], 77, 0, false, true, 5⟩ } }
  let s := linksUp s
  s
theorem met_ResetSequenceRuns_9 : ∃ s : State, ∃ (q : _), SeqAt s q cxCLEARING ∧ agentsAck q.gone s = true ∧ q.released = true :=
  ⟨w_ResetSequenceRuns_9, (sq w_ResetSequenceRuns_9), ⟨by decide +kernel, by decide +kernel, by decide +kernel, by decide +kernel⟩, by
    decide +kernel⟩

def w_ResetSequenceRuns_10 : State :=
  let s := ready
  let s := blow (R.CLK_TIME.COUNT) (100000000) s
  let s := seqOn 4095 3 s
  s
theorem met_ResetSequenceRuns_10 : ∃ s : State, ∃ (q : _) (st : Nat), SeqAt s q st ∧ (st = cxFENCED ∨ st = cxABORTING ∨ st = cxCLEARING) ∧
    boundPassed s q.since (stepBound s q) = true :=
  ⟨w_ResetSequenceRuns_10, (sq w_ResetSequenceRuns_10), 3, ⟨by decide +kernel, by decide +kernel, by decide +kernel, by decide +kernel⟩,
    by decide +kernel⟩

/-! RecoveryCommands. -/

def w_RecoveryCommands_1 : State :=
  let s := ready
  let s := flying 0 7 0x0901 [4095] s
  let s := blow (R.CTX_STATE.STATE 4095) (0) s
  let s := { s with recov := { s.recov with pend := [⟨9, none, 4⟩] } }
  s
theorem met_RecoveryCommands_1 : ∃ s : State, ∃ (port : Nat) (tag : Nat) (fl : Flight) (c : Nat), Waiting s 0x0901 port tag fl ∧ par fl 0
    = c ∧ c < 4096 ∧ ctxState s c = cxNORMAL ∧ s.recov.pend.length < 64 :=
  ⟨w_RecoveryCommands_1, 0, 7, ((flightOf w_RecoveryCommands_1 0 7).getD dfl), 4095, ⟨by decide +kernel, by decide +kernel, by
    decide +kernel, by decide +kernel, by decide +kernel⟩, by decide +kernel⟩

def w_RecoveryCommands_2 : State :=
  let s := ready
  let s := flying 0 7 0x0901 [4095] s
  let s := blow (R.CTX_STATE.STATE 4095) (2) s
  s
theorem met_RecoveryCommands_2 : ∃ s : State, ∃ (port : Nat) (tag : Nat) (fl : Flight) (c : Nat), Waiting s 0x0901 port tag fl ∧ par fl 0
    = c ∧ c < 4096 ∧ 2 ≤ ctxState s c ∧ ctxState s c ≤ 7 :=
  ⟨w_RecoveryCommands_2, 0, 7, ((flightOf w_RecoveryCommands_2 0 7).getD dfl), 4095, ⟨by decide +kernel, by decide +kernel, by
    decide +kernel, by decide +kernel, by decide +kernel⟩, by decide +kernel⟩

def w_RecoveryCommands_3 : State :=
  let s := ready
  let s := flying 0 7 0x0902 [18] s
  let s := blow (R.CTX_STATE.STATE 18) (1) s
  let s := { s with recov := { s.recov with taps := [(1, 0x123), (1025, 0x123)] } }
  s
theorem met_RecoveryCommands_3 : ∃ s : State, ∃ (port : Nat) (tag : Nat) (fl : Flight) (c : Nat), Waiting s 0x0902 port tag fl ∧ par fl 0
    = c ∧ c < 4096 ∧ ctxState s c = cxNAMED :=
  ⟨w_RecoveryCommands_3, 0, 7, ((flightOf w_RecoveryCommands_3 0 7).getD dfl), 18, ⟨by decide +kernel, by decide +kernel, by
    decide +kernel, by decide +kernel, by decide +kernel⟩, by decide +kernel⟩

def w_RecoveryCommands_4 : State :=
  let s := ready
  let s := flying 0 7 0x0903 [] s
  let s := blow (R.CTX_OOS.OOS) (1) s
  s
theorem met_RecoveryCommands_4 : ∃ s : State, ∃ (port : Nat) (tag : Nat) (fl : Flight), Waiting s 0x0903 port tag fl ∧ get s R.CTX_OOS.OOS
    = 1 :=
  ⟨w_RecoveryCommands_4, 0, 7, ((flightOf w_RecoveryCommands_4 0 7).getD dfl), ⟨by decide +kernel, by decide +kernel, by decide +kernel,
    by decide +kernel, by decide +kernel⟩, by decide +kernel⟩

def w_RecoveryCommands_5 : State :=
  let s := ready
  let s := flying 0 7 0x0904 [0x81, 1 + 0 * 2 ^ 8 + 1 * 2 ^ 20, 0, 0, 0, 0, 0, 0, 0 + 0xFFF * 2 ^ 8 + 255 * 2 ^ 20] s
  s
theorem met_RecoveryCommands_5 : ∃ s : State, ∃ (port : Nat) (tag : Nat) (fl : Flight) (m : Nat), Waiting s 0x0904 port tag fl ∧ par fl 0
    = m ∧ m < 256 ∧ (∀ i < 8, bit m i = false → par fl (i + 1) = 0) ∧ (∀ i < 8, bit m i = true → ∃ d o n, par fl (i + 1) = d + o * 2 ^ 8 +
    n * 2 ^ 20 ∧ isPresent s d = true ∧ o < 2 ^ 12 ∧ 1 ≤ n ∧ n ≤ 256) ∧ ((List.range 8).map fun i => bits (par fl (i + 1)) 20 9).foldl (·
    + ·) 0 ≤ 256 :=
  ⟨w_RecoveryCommands_5, 0, 7, ((flightOf w_RecoveryCommands_5 0 7).getD dfl), 0x81, ⟨by decide +kernel, by decide +kernel, by
    decide +kernel, by decide +kernel, by decide +kernel⟩, by decide +kernel, by decide +kernel, by decide +kernel, by
    have h : ∀ i < 8, bit 129 i = true → i = 0 ∨ i = 7 := by decide
    intro i hi hb
    rcases h i hi hb with rfl | rfl
    · exact ⟨1, 0, 1, by decide +kernel, by decide +kernel, by decide, by decide, by decide⟩
    · exact ⟨0, 4095, 255, by decide +kernel, by decide +kernel, by decide, by decide, by decide⟩, by decide +kernel⟩

def w_RecoveryCommands_6 : State :=
  let s := ready
  let s := flying 0 7 0x0905 [0x8001] s
  let s := blow (R.CTX_CAP_SLOTS.HELD) (0x8003) s
  let s := writeByte (sharedArea 0x200005) 7 s
  let s := writeByte (sharedArea 0x2F0000) 7 s
  s
theorem met_RecoveryCommands_6 : ∃ s : State, ∃ (port : Nat) (tag : Nat) (fl : Flight) (m : Nat), Waiting s 0x0905 port tag fl ∧ par fl 0
    = m ∧ 0 < m ∧ m < 2 ^ 16 ∧ (∀ n < 16, bit m n = true → bit (get s R.CTX_CAP_SLOTS.HELD) n = true) :=
  ⟨w_RecoveryCommands_6, 0, 7, ((flightOf w_RecoveryCommands_6 0 7).getD dfl), 0x8001, ⟨by decide +kernel, by decide +kernel, by
    decide +kernel, by decide +kernel, by decide +kernel⟩, by decide +kernel⟩

/-! KeysAreMadeAndMoved. -/

def w_KeysAreMadeAndMoved_3 : State :=
  let s := ready
  let s := { s with sec := { s.sec with requests := 65536 } }
  s
theorem met_KeysAreMadeAndMoved_3 : ∃ s : State, 65536 ≤ s.sec.requests :=
  ⟨w_KeysAreMadeAndMoved_3, by decide +kernel⟩

def w_KeysAreMadeAndMoved_4 : State :=
  let s := ready
  let s := flying 0 7 0x0A06 [] s
  let s := aim 15 s
  let s := blow (R.SEC_PART_EPOCH.PREV_VALID 15) (0) s
  let s := blow (R.SEC_PART_CFG.STATE 15) (2) s
  let s := setPart (15) { partOf s (15) with op := none } s
  let s := blow (R.SEC_STAT.ENT_OK) (1) s
  s
theorem met_KeysAreMadeAndMoved_4 : ∃ s : State, ∃ (port : Nat) (tag : Nat) (fl : Flight) (p : Nat), Waiting s 0x0A06 port tag fl ∧
    fl.target = p ∧ p < 16 ∧ get s (R.SEC_PART_EPOCH.PREV_VALID p) = 0 ∧ (partState s p = ptACTIVE ∨ partState s p = ptATTESTED) ∧ (partOf
    s p).op = none ∧ get s R.SEC_STAT.ENT_OK = 1 :=
  ⟨w_KeysAreMadeAndMoved_4, 0, 7, ((flightOf w_KeysAreMadeAndMoved_4 0 7).getD dfl), 15, ⟨by decide +kernel, by decide +kernel, by
    decide +kernel, by decide +kernel, by decide +kernel⟩, by decide +kernel⟩

def w_KeysAreMadeAndMoved_5 : State :=
  let s := ready
  let s := blow (R.CLK_TIME.COUNT) (100) s
  let s := flying 1 9 0x0A06 [] s
  let s := markStarted 1 9 s
  let s := setPart (15) (⟨5, 6, 7, 8, 9, [], some ⟨1, 1, 9, 0, 100, 200, 5⟩, none, false⟩) s
  s
theorem met_KeysAreMadeAndMoved_5 : ∃ s : State, ∃ (p : Nat) (o : _) (fl : Flight), KeyOpIs s p 1 o ∧ flightOf s o.port o.tag = some fl ∧
    keyLate s o = false :=
  ⟨w_KeysAreMadeAndMoved_5, 15, (⟨1, 1, 9, 0, 100, 200, 5⟩), ((flightOf w_KeysAreMadeAndMoved_5 1 9).getD dfl), ⟨by decide +kernel, by
    decide +kernel, by decide +kernel, by decide +kernel, by decide +kernel⟩, by decide +kernel⟩

def w_KeysAreMadeAndMoved_6 : State :=
  let s := ready
  let s := blow (R.CLK_TIME.COUNT) (100000000) s
  let s := flying 1 9 0x0A06 [] s
  let s := markStarted 1 9 s
  let s := setPart (15) (⟨5, 6, 7, 8, 9, [], some ⟨1, 1, 9, 0, 100, 200, 5⟩, none, false⟩) s
  s
theorem met_KeysAreMadeAndMoved_6 : ∃ s : State, ∃ (p : Nat) (o : _) (fl : Flight), KeyOpIs s p 1 o ∧ flightOf s o.port o.tag = some fl ∧
    keyLate s o = true :=
  ⟨w_KeysAreMadeAndMoved_6, 15, (⟨1, 1, 9, 0, 100, 200, 5⟩), ((flightOf w_KeysAreMadeAndMoved_6 1 9).getD dfl), ⟨by decide +kernel, by
    decide +kernel, by decide +kernel, by decide +kernel, by decide +kernel⟩, by decide +kernel⟩

def w_KeysAreMadeAndMoved_7 : State :=
  let s := ready
  let s := blow (R.CLK_TIME.COUNT) (100000000) s
  let s := flying 1 9 0x0A05 [] s
  let s := markStarted 1 9 s
  let s := setPart (15) (⟨5, 6, 7, 8, 9, [], some ⟨2, 1, 9, 15, 100, 0, 5⟩, none, false⟩) s
  s
theorem met_KeysAreMadeAndMoved_7 : ∃ s : State, ∃ (p : Nat) (o : _) (fl : Flight), KeyOpIs s p 2 o ∧ flightOf s o.port o.tag = some fl ∧
    keyLate s o = true :=
  ⟨w_KeysAreMadeAndMoved_7, 15, (⟨2, 1, 9, 15, 100, 0, 5⟩), ((flightOf w_KeysAreMadeAndMoved_7 1 9).getD dfl), ⟨by decide +kernel, by
    decide +kernel, by decide +kernel, by decide +kernel, by decide +kernel⟩, by decide +kernel⟩

def w_KeysAreMadeAndMoved_8 : State :=
  let s := ready
  let s := blow (R.SEC_PART_EPOCH.PREV_VALID 3) (1) s
  let s := setPart (3) (⟨5, 6, 7, 8, 9, [], none, none, false⟩) s
  s
theorem met_KeysAreMadeAndMoved_8 : ∃ s : State, ∃ (p : Nat), p < 16 ∧ get s (R.SEC_PART_EPOCH.PREV_VALID p) = 1 ∧ (partOf s p).scrub =
    none :=
  ⟨w_KeysAreMadeAndMoved_8, 3, by decide +kernel⟩

def w_KeysAreMadeAndMoved_9 : State :=
  let s := ready
  let s := flying 0 7 0x0A05 ([15] ++ keyBlob) s
  let s := aim 2 s
  let s := blow (R.SEC_PART_PUB.X 2) (0) s
  let s := blow (R.SEC_PART_PUB.Y 2) (0) s
  let s := setPart (2) (⟨1, 6, 7, 8, 9, [], none, none, false⟩) s
  let s := blow (R.SEC_PART_CFG.MODEL_KEYS 2) (16) s
  let s := blow (R.SEC_PART_CFG.STATE 2) (2) s
  s
theorem met_KeysAreMadeAndMoved_9 : ∃ s : State, ∃ (port : Nat) (tag : Nat) (fl : Flight) (p : Nat) (k : _), Waiting s 0x0A05 port tag fl
    ∧ fl.target = p ∧ p < 16 ∧ par fl 0 < 16 ∧ blobValid s p (paramBytes fl 1 152) = true ∧ par fl 0 < get s (R.SEC_PART_CFG.MODEL_KEYS p)
    ∧ partState s p = ptATTESTED ∧ unwrapBlob s p (paramBytes fl 1 152) = some k ∧ (partOf s p).op = none :=
  ⟨w_KeysAreMadeAndMoved_9, 0, 7, ((flightOf w_KeysAreMadeAndMoved_9 0 7).getD dfl), 2, ((List.range 32).map (· + 1)), ⟨by
    decide +kernel, by decide +kernel, by decide +kernel, by decide +kernel, by decide +kernel⟩, by decide +kernel⟩

def w_KeysAreMadeAndMoved_10 : State :=
  let s := ready
  let s := blow (R.CLK_TIME.COUNT) (100) s
  let s := flying 1 9 0x0A05 [] s
  let s := markStarted 1 9 s
  let s := setPart (15) (⟨5, 6, 7, 8, 9, [], some ⟨2, 1, 9, 15, 100, 0, 5⟩, none, false⟩) s
  s
theorem met_KeysAreMadeAndMoved_10 : ∃ s : State, ∃ (p : Nat) (o : _) (fl : Flight), KeyOpIs s p 2 o ∧ flightOf s o.port o.tag = some fl ∧
    keyLate s o = false :=
  ⟨w_KeysAreMadeAndMoved_10, 15, (⟨2, 1, 9, 15, 100, 0, 5⟩), ((flightOf w_KeysAreMadeAndMoved_10 1 9).getD dfl), ⟨by decide +kernel, by
    decide +kernel, by decide +kernel, by decide +kernel, by decide +kernel⟩, by decide +kernel⟩

def w_KeysAreMadeAndMoved_11 : State :=
  let s := ready
  let s := setPart (15) (⟨5, 6, 7, 0, 0, [], some ⟨3, 0, 0, 0, 0, 0, 0⟩, none, false⟩) s
  s
theorem met_KeysAreMadeAndMoved_11 : ∃ s : State, ∃ (p : Nat) (o : _), KeyOpIs s p 3 o :=
  ⟨w_KeysAreMadeAndMoved_11, 15, (⟨3, 0, 0, 0, 0, 0, 0⟩), ⟨by decide +kernel, by decide +kernel, by decide +kernel, by decide +kernel,
    by decide +kernel⟩⟩

/-! PartitionsAndPorts. -/

def w_PartitionsAndPorts_1 : State :=
  let s := ready
  let s := flying 0 7 0x0A01 [15 + 16 + 64 * 16, 2, 240 * 0 + 0, 0, 0] s
  let s := noParts s
  let s := setPart (15) (PartH.init) s
  let s := blow (R.SEC_STAT.DBG_LOCK) (1) s
  let s := blow (R.SEC_STAT.ENT_OK) (1) s
  s
theorem met_PartitionsAndPorts_1 : ∃ s : State, ∃ (port : Nat) (tag : Nat) (fl : Flight) (p : Nat) (c : Nat) (lg : Nat) (mk : Nat),
    Waiting s 0x0A01 port tag fl ∧ par fl 0 = p + 16 * c + 32 * lg + 64 * mk ∧ p < 16 ∧ c < 2 ∧ lg < 2 ∧ mk ≤ 16 ∧ par fl 2 < 2 ^ 17 ∧
    (layoutOf fl).first + (layoutOf fl).count ≤ 256 ∧ layoutValid s p (layoutOf fl) (c = 1) (lg = 1) = true ∧ (((List.range 16).filter (·
    ≠ p)).map fun q => get s (R.SEC_PART_CFG.MODEL_KEYS q)).foldl (· + ·) mk ≤ 64 ∧ partState s p = ptFREE ∧ get s (R.SEC_PART_CFG.CONF p)
    = 0 ∧ ((c = 1 → get s R.SEC_STAT.DBG_LOCK = 1)) ∧ get s R.SEC_STAT.ENT_OK = 1 ∧ (partOf s p).op = none :=
  ⟨w_PartitionsAndPorts_1, 0, 7, ((flightOf w_PartitionsAndPorts_1 0 7).getD dfl), 15, 1, 0, 16, ⟨by decide +kernel, by decide +kernel,
    by decide +kernel, by decide +kernel, by decide +kernel⟩, by decide +kernel⟩

def w_PartitionsAndPorts_2 : State :=
  let s := ready
  let s := flying 0 7 0x0A01 [3 + 64 * 2, 3, 0, 0, 0] s
  let s := noParts s
  let s := setPart (3) (PartH.init) s
  let s := blow (R.SEC_PART_CFG.STATE 3) (1) s
  let s := blow (R.SEC_PART_RES.DIES 3) (1) s
  s
theorem met_PartitionsAndPorts_2 : ∃ s : State, ∃ (port : Nat) (tag : Nat) (fl : Flight) (p : Nat) (lg : Nat) (mk : Nat), Waiting s 0x0A01
    port tag fl ∧ par fl 0 = p + 32 * lg + 64 * mk ∧ p < 16 ∧ lg < 2 ∧ mk ≤ 16 ∧ par fl 2 < 2 ^ 17 ∧ (layoutOf fl).first + (layoutOf
    fl).count ≤ 256 ∧ layoutValid s p (layoutOf fl) false (lg = 1) = true ∧ (((List.range 16).filter (· ≠ p)).map fun q => get s
    (R.SEC_PART_CFG.MODEL_KEYS q)).foldl (· + ·) mk ≤ 64 ∧ (partState s p = ptACTIVE ∨ partState s p = ptATTESTED) ∧ get s
    (R.SEC_PART_CFG.CONF p) = 0 ∧ removesBound s p (layoutOf fl) = false ∧ (partOf s p).op = none :=
  ⟨w_PartitionsAndPorts_2, 0, 7, ((flightOf w_PartitionsAndPorts_2 0 7).getD dfl), 3, 0, 2, ⟨by decide +kernel, by decide +kernel, by
    decide +kernel, by decide +kernel, by decide +kernel⟩, by decide +kernel⟩

def w_PartitionsAndPorts_3 : State :=
  let s := ready
  let s := flying 0 7 0x0A01 [3, 0, 0, 0, 0] s
  let s := noParts s
  let s := setPart (3) (⟨5, 6, 7, 8, 9, [], none, none, false⟩) s
  let s := blow (R.SEC_PART_CFG.STATE 3) (2) s
  let s := blow (R.SEC_PART_RES.DIES 3) (1) s
  s
theorem met_PartitionsAndPorts_3 : ∃ s : State, ∃ (port : Nat) (tag : Nat) (fl : Flight) (p : Nat), Waiting s 0x0A01 port tag fl ∧ par fl
    0 = p ∧ p < 16 ∧ par fl 2 < 2 ^ 17 ∧ (layoutOf fl).first + (layoutOf fl).count ≤ 256 ∧ (layoutOf fl).dies = 0 ∧ (partState s p =
    ptACTIVE ∨ partState s p = ptATTESTED) ∧ get s (R.SEC_PART_CFG.CONF p) = 0 ∧ removesBound s p ⟨0, 0, 0, 0, 0⟩ = false ∧ (partOf s
    p).op = none :=
  ⟨w_PartitionsAndPorts_3, 0, 7, ((flightOf w_PartitionsAndPorts_3 0 7).getD dfl), 3, ⟨by decide +kernel, by decide +kernel, by
    decide +kernel, by decide +kernel, by decide +kernel⟩, by decide +kernel⟩

def w_PartitionsAndPorts_4 : State :=
  let s := ready
  let s := flying 0 7 0x0A03 [7 + 16 * 1 + 64 * 15] s
  let s := blow (R.SEC_PART_CFG.STATE 15) (1) s
  let s := blow (R.SEC_PORT.AUTH 3) (2) s
  s
theorem met_PartitionsAndPorts_4 : ∃ s : State, ∃ (port : Nat) (tag : Nat) (fl : Flight) (h : Nat) (lv : Nat) (q : Nat), Waiting s 0x0A03
    port tag fl ∧ par fl 0 = h + 16 * lv + 64 * q ∧ h < 8 ∧ lv < 3 ∧ q < 16 ∧ ((lv ≠ 1 → q = 0)) ∧ ((lv = 1 → partState s q ≠ ptFREE)) ∧
    (lv = 2 ∨ (∃ x, x < 8 ∧ x ≠ h ∧ authOf s x = 2)) :=
  ⟨w_PartitionsAndPorts_4, 0, 7, ((flightOf w_PartitionsAndPorts_4 0 7).getD dfl), 7, 1, 15, ⟨by decide +kernel, by decide +kernel, by
    decide +kernel, by decide +kernel, by decide +kernel⟩, by decide +kernel⟩

def w_PartitionsAndPorts_5 : State :=
  let s := ready
  let s := flying 0 7 0x0A07 [3 + 2 ^ 16] s
  let s := noParts s
  s
theorem met_PartitionsAndPorts_5 : ∃ s : State, ∃ (port : Nat) (tag : Nat) (fl : Flight) (m : Nat) (a : Nat) (b : Nat), Waiting s 0x0A07
    port tag fl ∧ par fl 0 = m + a * 2 ^ 16 + b * 2 ^ 17 ∧ 0 < m ∧ m < 2 ^ nDies s ∧ a < 2 ∧ b < 2 ∧ (∀ d < 16, bit m d = true → confDie s
    d = false) :=
  ⟨w_PartitionsAndPorts_5, 0, 7, ((flightOf w_PartitionsAndPorts_5 0 7).getD dfl), 3, 1, 0, ⟨by decide +kernel, by decide +kernel, by
    decide +kernel, by decide +kernel, by decide +kernel⟩, by decide +kernel⟩

def w_PartitionsAndPorts_6 : State :=
  let s := ready
  let s := flying 0 7 0x0A07 [2 + 2 ^ 16] s
  let s := blow (R.SEC_PART_CFG.CONF 3) (1) s
  let s := blow (R.SEC_PART_CFG.STATE 3) (1) s
  let s := blow (R.SEC_PART_RES.DIES 3) (2) s
  let s := noPartsBut 3 s
  s
theorem met_PartitionsAndPorts_6 : ∃ s : State, ∃ (port : Nat) (tag : Nat) (fl : Flight) (d : Nat), Waiting s 0x0A07 port tag fl ∧ d < 16
    ∧ bit (par fl 0) d = true ∧ confDie s d = true :=
  ⟨w_PartitionsAndPorts_6, 0, 7, ((flightOf w_PartitionsAndPorts_6 0 7).getD dfl), 1, ⟨by decide +kernel, by decide +kernel, by
    decide +kernel, by decide +kernel, by decide +kernel⟩, by decide +kernel⟩

def w_PartitionsAndPorts_7 : State :=
  let s := ready
  let s := flying 0 7 0x0A04 [1000, 0x8410] s
  let s := padTo 251 s
  let s := blow (R.SEC_STAT.ENT_OK) (1) s
  s
theorem met_PartitionsAndPorts_7 : ∃ s : State, ∃ (port : Nat) (tag : Nat) (fl : Flight) (n : Nat), Waiting s 0x0A04 port tag fl ∧ par fl
    0 = n ∧ 0 < n ∧ n ≤ 1000 ∧ fl.params.length = 1 + (n + 3) / 4 ∧ (∀ b ∈ ((fl.params.drop 1).flatMap (leBytes 4)).drop n, b = 0) ∧
    fl.target = 0x3F ∧ (∀ f ∈ s.host.flights, f.port = port → f.opcode = 0x0A04 → fl.seq ≤ f.seq) ∧ get s R.SEC_STAT.ENT_OK = 1 :=
  ⟨w_PartitionsAndPorts_7, 0, 7, ((flightOf w_PartitionsAndPorts_7 0 7).getD dfl), 1000, ⟨by decide +kernel, by decide +kernel, by
    decide +kernel, by decide +kernel, by decide +kernel⟩, by decide +kernel⟩

def w_PartitionsAndPorts_8 : State :=
  let s := ready
  let s := flying 9 7 0x0A04 [4, 0x8410] s
  let s := { s with sec := { s.sec with spdm := [] } }
  s
theorem met_PartitionsAndPorts_8 : ∃ s : State, ∃ (port : Nat) (tag : Nat) (fl : Flight), Waiting s 0x0A04 port tag fl ∧ port < 10 ∧
    fl.params = [4, 0x00008410] ∧ fl.target = 0x3F ∧ sget Spdm.init port s.sec.spdm = Spdm.init ∧ (∀ f ∈ s.host.flights, f.port = port →
    f.opcode = 0x0A04 → fl.seq ≤ f.seq) :=
  ⟨w_PartitionsAndPorts_8, 9, 7, ((flightOf w_PartitionsAndPorts_8 9 7).getD dfl), ⟨by decide +kernel, by decide +kernel, by
    decide +kernel, by decide +kernel, by decide +kernel⟩, by decide +kernel⟩

/-! PartitionsScrubbed. -/

def w_PartitionsScrubbed_1 : State :=
  let s := ready
  let s := flying 0 7 0x0A02 [] s
  let s := aim 15 s
  let s := blow (R.SEC_PART_CFG.STATE 15) (2) s
  let s := setPart (15) (⟨5, 6, 7, 8, 9, [], none, none, false⟩) s
  let s := blow (R.SEC_STAT.ENT_OK) (1) s
  let s := { s with recov := { s.recov with pend := [⟨7, none, 3⟩] } }
  let s := blow (R.CTX_STATE.PART 7) (3) s
  s
theorem met_PartitionsScrubbed_1 : ∃ s : State, ∃ (port : Nat) (tag : Nat) (fl : Flight) (p : Nat), Waiting s 0x0A02 port tag fl ∧
    fl.target = p ∧ p < 16 ∧ (partState s p = ptACTIVE ∨ partState s p = ptATTESTED) ∧ get s R.SEC_STAT.ENT_OK = 1 ∧ (partOf s p).op =
    none ∧ (∀ x ∈ s.recov.pend, ownerCtx s x.ctx ≠ p) :=
  ⟨w_PartitionsScrubbed_1, 0, 7, ((flightOf w_PartitionsScrubbed_1 0 7).getD dfl), 15, ⟨by decide +kernel, by decide +kernel, by
    decide +kernel, by decide +kernel, by decide +kernel⟩, by decide +kernel⟩

def w_PartitionsScrubbed_2 : State :=
  let s := ready
  let s := setPart (15) (⟨5, 6, 7, 8, 9, [], none, some ⟨3, 0, 1, 9, 5, 0, 5⟩, false⟩) s
  s
theorem met_PartitionsScrubbed_2 : ∃ s : State, ∃ (p : Nat) (c : _), p < 16 ∧ (partOf s p).scrub = some c ∧ c.step = 3 :=
  ⟨w_PartitionsScrubbed_2, 15, (⟨3, 0, 1, 9, 5, 0, 5⟩), by decide +kernel⟩

def w_PartitionsScrubbed_3 : State :=
  let s := ready
  let s := flying 1 9 0x0A02 [] s
  let s := markStarted 1 9 s
  let s := setPart (15) (⟨5, 6, 7, 8, 9, [], none, some ⟨4, 0, 1, 9, 5, 3, 5⟩, false⟩) s
  s
theorem met_PartitionsScrubbed_3 : ∃ s : State, ∃ (p : Nat) (c : _) (fl : Flight), p < 16 ∧ (partOf s p).scrub = some c ∧ c.step = 4 ∧
    flightOf s c.port c.tag = some fl :=
  ⟨w_PartitionsScrubbed_3, 15, (⟨4, 0, 1, 9, 5, 3, 5⟩), ((flightOf w_PartitionsScrubbed_3 1 9).getD dfl), by decide +kernel⟩

def w_PartitionsScrubbed_4 : State :=
  let s := ready
  let s := flying 1 9 0x0A02 [] s
  let s := markStarted 1 9 s
  let s := setPart (15) (⟨5, 6, 7, 8, 9, [], none, some ⟨5, 0, 1, 9, 5, 3, 5⟩, false⟩) s
  s
theorem met_PartitionsScrubbed_4 : ∃ s : State, ∃ (p : Nat) (c : _) (fl : Flight), p < 16 ∧ (partOf s p).scrub = some c ∧ c.step = 5 ∧
    flightOf s c.port c.tag = some fl :=
  ⟨w_PartitionsScrubbed_4, 15, (⟨5, 0, 1, 9, 5, 3, 5⟩), ((flightOf w_PartitionsScrubbed_4 1 9).getD dfl), by decide +kernel⟩

def w_PartitionsScrubbed_5 : State :=
  let s := ready
  let s := blow (R.CLK_TIME.COUNT) (10000000000000) s
  let s := blow (R.SEC_SCRUB_CFG.TIMEOUT_S) (60) s
  let s := flying 1 9 0x0A02 [] s
  let s := markStarted 1 9 s
  let s := setPart (15) (⟨5, 6, 7, 8, 9, [], none, some ⟨4, 0, 1, 9, 5, 3, 5⟩, false⟩) s
  s
theorem met_PartitionsScrubbed_5 : ∃ s : State, ∃ (p : Nat) (c : _) (fl : Flight), p < 16 ∧ (partOf s p).scrub = some c ∧ c.step = 4 ∧
    flightOf s c.port c.tag = some fl ∧ get s R.SEC_SCRUB_CFG.TIMEOUT_S * 100000000 ≤ now s - c.since :=
  ⟨w_PartitionsScrubbed_5, 15, (⟨4, 0, 1, 9, 5, 3, 5⟩), ((flightOf w_PartitionsScrubbed_5 1 9).getD dfl), by decide +kernel⟩

/-! QueuesMove. -/

def w_QueuesMove_1 : State :=
  let s := ready
  let s := submitted 8 [0x05020201, 0x00000009, 0, 0, 3] s
  s
theorem met_QueuesMove_1 : ∃ s : State, ∃ (p : Nat), p < 9 ∧ nextPort s = some p ∧ hifReady s = true ∧ judgePacket s (headWords s p)
    (headFlight s p) = none :=
  ⟨w_QueuesMove_1, 8, by decide +kernel⟩

def w_QueuesMove_2 : State :=
  let s := ready
  let s := submitted 8 [0x05020201, 0x00000009, 0, 1, 3] s
  s
theorem met_QueuesMove_2 : ∃ s : State, ∃ (p : Nat) (o : Nat) (st : Nat), p < 9 ∧ nextPort s = some p ∧ hifReady s = true ∧ judgePacket s
    (headWords s p) (headFlight s p) = some (o, st) ∧ o ≠ 1 :=
  ⟨w_QueuesMove_2, 8, 6, 0x0C, by decide +kernel⟩

def w_QueuesMove_3 : State :=
  let s := ready
  let s := fwPort s
  let s := hostPort 9 2 s
  let s := { s with host := HostH.init }
  let s := blow (R.CMD_VER.CUR 9) (2) s
  s
theorem met_QueuesMove_3 : ∃ s : State, ∃ (w : _), answers s 9 0 = true ∧ (∀ x ∈ w, x < 2 ^ 32) ∧ judgePacket s w (flightIn s 9 0 w) =
    none :=
  ⟨w_QueuesMove_3, ([0x05020201, 0x00000009, 0, 0, 3]), by decide +kernel⟩

def w_QueuesMove_4 : State :=
  let s := ready
  let s := hostPort 8 2 s
  let s := blow (R.CMD_SQ_HEAD.HEAD 8) (400) s
  let s := blow (R.CMD_SQ_TAIL.TAIL 8) (500) s
  s
theorem met_QueuesMove_4 : ∃ s : State, ∃ (p : Nat) (v : Nat), p < 9 ∧ answers s p 0x120000 = true ∧ v < 512 ∧ (v + 512 - get s
    (R.CMD_SQ_HEAD.HEAD p)) % 512 ≤ 256 ∧ (v + 512 - get s (R.CMD_SQ_TAIL.TAIL p)) % 512 ≤ (v + 512 - get s (R.CMD_SQ_HEAD.HEAD p)) % 512
    :=
  ⟨w_QueuesMove_4, 8, 144, by decide +kernel⟩

def w_QueuesMove_5 : State :=
  let s := ready
  let s := hostPort 8 2 s
  let s := blow (R.CMD_SQ_HEAD.HEAD 8) (400) s
  s
theorem met_QueuesMove_5 : ∃ s : State, ∃ (p : Nat) (v : Nat), p < 9 ∧ answers s p 0x120000 = true ∧ v < 512 ∧ 256 < (v + 512 - get s
    (R.CMD_SQ_HEAD.HEAD p)) % 512 ∧ get s R.CMD_VIOL_STAT.COUNT = 0 :=
  ⟨w_QueuesMove_5, 8, 145, by decide +kernel⟩

def w_QueuesMove_6 : State :=
  let s := ready
  let s := hostPort 8 2 s
  let s := blow (R.CMD_CQ_HEAD.HEAD 8) (500) s
  let s := blow (R.CMD_CQ_TAIL.TAIL 8) (10) s
  s
theorem met_QueuesMove_6 : ∃ s : State, ∃ (p : Nat) (v : Nat), p < 9 ∧ answers s p 0x12000C = true ∧ v < 512 ∧ (get s (R.CMD_CQ_TAIL.TAIL
    p) + 512 - v) % 512 ≤ (get s (R.CMD_CQ_TAIL.TAIL p) + 512 - get s (R.CMD_CQ_HEAD.HEAD p)) % 512 :=
  ⟨w_QueuesMove_6, 8, 10, by decide +kernel⟩

/-! HostCommands. -/

def w_HostCommands_1 : State :=
  let s := ready
  let s := flying 8 7 0x0101 [0xFFF4] s
  s
theorem met_HostCommands_1 : ∃ s : State, ∃ (port : Nat) (tag : Nat) (fl : Flight), Waiting s 0x0101 port tag fl ∧ par fl 0 < 2 ^ 16 ∧ bit
    (par fl 0) 0 = false ∧ bit (par fl 0) 2 = true :=
  ⟨w_HostCommands_1, 8, 7, ((flightOf w_HostCommands_1 8 7).getD dfl), ⟨by decide +kernel, by decide +kernel, by decide +kernel, by
    decide +kernel, by decide +kernel⟩, by decide +kernel⟩

def w_HostCommands_2 : State :=
  let s := ready
  let s := flying 8 7 0x0101 [0xFFFA] s
  s
theorem met_HostCommands_2 : ∃ s : State, ∃ (port : Nat) (tag : Nat) (fl : Flight), Waiting s 0x0101 port tag fl ∧ par fl 0 < 2 ^ 16 ∧
    bits (par fl 0) 0 3 = 2 :=
  ⟨w_HostCommands_2, 8, 7, ((flightOf w_HostCommands_2 8 7).getD dfl), ⟨by decide +kernel, by decide +kernel, by decide +kernel, by
    decide +kernel, by decide +kernel⟩, by decide +kernel⟩

def w_HostCommands_3 : State :=
  let s := ready
  let s := flying 8 7 0x0102 [] s
  s
theorem met_HostCommands_3 : ∃ s : State, ∃ (port : Nat) (tag : Nat) (fl : Flight), Waiting s 0x0102 port tag fl :=
  ⟨w_HostCommands_3, 8, 7, ((flightOf w_HostCommands_3 8 7).getD dfl), ⟨by decide +kernel, by decide +kernel, by decide +kernel, by
    decide +kernel, by decide +kernel⟩⟩

def w_HostCommands_4 : State :=
  let s := ready
  let s := flying 8 7 0x0103 [63] s
  let s := blow (R.LCK.OWNER 63) (9) s
  s
theorem met_HostCommands_4 : ∃ s : State, ∃ (port : Nat) (tag : Nat) (fl : Flight) (n : Nat), Waiting s 0x0103 port tag fl ∧ par fl 0 = n
    ∧ n < 64 ∧ get s (R.LCK.OWNER n) ≠ 15 :=
  ⟨w_HostCommands_4, 8, 7, ((flightOf w_HostCommands_4 8 7).getD dfl), 63, ⟨by decide +kernel, by decide +kernel, by decide +kernel, by
    decide +kernel, by decide +kernel⟩, by decide +kernel⟩

def w_HostCommands_5 : State :=
  let s := ready
  let s := flying 8 7 0x0103 [0] s
  let s := blow (R.LCK.OWNER 0) (15) s
  s
theorem met_HostCommands_5 : ∃ s : State, ∃ (port : Nat) (tag : Nat) (fl : Flight) (n : Nat), Waiting s 0x0103 port tag fl ∧ par fl 0 = n
    ∧ n < 64 ∧ get s (R.LCK.OWNER n) = 15 :=
  ⟨w_HostCommands_5, 8, 7, ((flightOf w_HostCommands_5 8 7).getD dfl), 0, ⟨by decide +kernel, by decide +kernel, by decide +kernel, by
    decide +kernel, by decide +kernel⟩, by decide +kernel⟩

def w_HostCommands_6 : State :=
  let s := ready
  let s := hostPort 7 0 s
  let s := blow (R.CMD_NOTIFY 7) (4) s
  let s := blow (R.CMD_NOTIFY_EN.EN 7) (3) s
  s
theorem met_HostCommands_6 : ∃ s : State, ∃ (p : Nat), p < 10 ∧ answers s p 0x120018 = true :=
  ⟨w_HostCommands_6, 7, by decide +kernel⟩

/-! AccessesJudged. -/

def w_AccessesJudged_1 : State :=
  let s := ready
  let s := hostPort 8 2 s
  s
theorem met_AccessesJudged_1 : ∃ s : State, ∃ (p : Nat) (off : Nat) (w : _) (n : Nat), p < 10 ∧ answers s p off = true ∧ violates s p off
    w n = true ∧ get s R.CMD_VIOL_STAT.COUNT = 0 :=
  ⟨w_AccessesJudged_1, 8, 0x010010, false, 8, by decide +kernel⟩

def w_AccessesJudged_2 : State :=
  let s := ready
  let s := blow (R.BOOT_STAT.STAGE) (3) s
  s
theorem met_AccessesJudged_2 : ∃ s : State, ∃ (p : Nat) (off : Nat), p < 10 ∧ answers s p off = false :=
  ⟨w_AccessesJudged_2, 0, 0x160100, by decide +kernel⟩

def w_AccessesJudged_3 : State :=
  let s := ready
  let s := hostPort 0 1 s
  s
theorem met_AccessesJudged_3 : ∃ s : State, ∃ (p : Nat) (off : Nat), p < 10 ∧ off < 2 ^ 22 ∧ answers s p off = true ∧ violates s p off
    true 4 = true ∧ get s R.CMD_VIOL_STAT.COUNT = 0 :=
  ⟨w_AccessesJudged_3, 0, 0x160108, by decide +kernel⟩

def w_AccessesJudged_4 : State :=
  let s := ready
  let s := hostPort 0 2 s
  s
theorem met_AccessesJudged_4 : ∃ s : State, ∃ (p : Nat) (v : Nat), Writes s p 0x160108 ∧ 1 ≤ v % 1024 ∧ v % 1024 ≤ 1000 :=
  ⟨w_AccessesJudged_4, 0, 1, ⟨by decide +kernel, by decide +kernel, by decide +kernel, by decide +kernel⟩, by decide +kernel⟩

def w_AccessesJudged_5 : State :=
  let s := ready
  let s := hostPort 9 2 s
  s
theorem met_AccessesJudged_5 : ∃ s : State, ∃ (p : Nat) (v : Nat), Writes s p 0x160108 ∧ (v % 1024 = 0 ∨ 1000 < v % 1024) ∧ get s
    R.CMD_VIOL_STAT.COUNT = 0 :=
  ⟨w_AccessesJudged_5, 9, 0, ⟨by decide +kernel, by decide +kernel, by decide +kernel, by decide +kernel⟩, by decide +kernel⟩

def w_AccessesJudged_6 : State :=
  let s := ready
  let s := hostPort 0 2 s
  let s := blow (R.HNG_EVENT) (0x1FF) s
  s
theorem met_AccessesJudged_6 : ∃ s : State, ∃ (p : Nat), Writes s p 0x0E000C :=
  ⟨w_AccessesJudged_6, 0, ⟨by decide +kernel, by decide +kernel, by decide +kernel, by decide +kernel⟩⟩

def w_AccessesJudged_7 : State :=
  let s := ready
  let s := hostPort 0 2 s
  s
theorem met_AccessesJudged_7 : ∃ s : State, ∃ (p : Nat), Writes s p 0x010008 :=
  ⟨w_AccessesJudged_7, 0, ⟨by decide +kernel, by decide +kernel, by decide +kernel, by decide +kernel⟩⟩

def w_AccessesJudged_8 : State :=
  let s := ready
  let s := hostPort 0 0 s
  let s := { s with host := { s.host with latches := [] } }
  s
theorem met_AccessesJudged_8 : ∃ s : State, ∃ (p : Nat), p < 10 ∧ answers s p 0x010010 = true ∧ sget 0 (p * 2 ^ 22 + 0x010010)
    s.host.latches = 0 :=
  ⟨w_AccessesJudged_8, 0, by decide +kernel⟩

def w_AccessesJudged_9 : State :=
  let s := ready
  let s := hostPort 0 0 s
  let s := { s with host := { s.host with latches := [(0x010014, 6)] } }
  s
theorem met_AccessesJudged_9 : ∃ s : State, ∃ (p : Nat) (x : Nat), p < 10 ∧ answers s p 0x010014 = true ∧ sget 0 (p * 2 ^ 22 + 0x010014)
    s.host.latches = x + 1 :=
  ⟨w_AccessesJudged_9, 0, 5, by decide +kernel⟩

def w_AccessesJudged_10 : State :=
  let s := ready
  let s := hostPort 0 2 s
  let s := blow (R.REC_STAT.CLEARING) (0) s
  let s := blow (R.REC_CURSOR.INDEX 0) (0) s
  let s := { s with log := { s.log with recs := [⟨2^63 + 5, 7, 8, 9, 0x3F, 10, 11, 0, false, []⟩] } }
  s
theorem met_AccessesJudged_10 : ∃ s : State, ∃ (p : Nat) (k : Nat) (r : _), p < 10 ∧ k < 64 ∧ answers s p (0x380000 + 0x40 * k) = true ∧
    get s R.REC_STAT.CLEARING = 0 ∧ get s (R.REC_CURSOR.INDEX p) + k < 16384 ∧ s.log.recs[get s (R.REC_CURSOR.INDEX p) + k]? = some r ∧
    mayReadRecord s p r = true :=
  ⟨w_AccessesJudged_10, 0, 0, (⟨2^63 + 5, 7, 8, 9, 0x3F, 10, 11, 0, false, []⟩), by decide +kernel⟩

/-! MailboxesAndLocks. -/

def w_MailboxesAndLocks_1 : State :=
  let s := ready
  let s := hostPort 0 2 s
  let s := boxes [(8, [1])] [] s
  let s := blow (R.MBX_SEND.PAYLOAD 0) (0xABCD) s
  s
theorem met_MailboxesAndLocks_1 : ∃ s : State, ∃ (p : Nat) (v : Nat), p < 9 ∧ answers s p 0x120104 = true ∧ mbxBars s p (v % 16) = false ∧
    (mbxInOf s (v % 16)).length < 16 ∧ mbxSource s (v % 16) = none :=
  ⟨w_MailboxesAndLocks_1, 0, 8, by decide +kernel⟩

def w_MailboxesAndLocks_2 : State :=
  let s := ready
  let s := hostPort 0 2 s
  let s := boxes [(8, List.replicate 16 1)] [(0, List.replicate 15 (8, 2))] s
  let s := blow (R.MBX_SEND.PAYLOAD 0) (0xABCD) s
  s
theorem met_MailboxesAndLocks_2 : ∃ s : State, ∃ (p : Nat) (v : Nat), p < 9 ∧ answers s p 0x120104 = true ∧ mbxBars s p (v % 16) = false ∧
    16 ≤ (mbxInOf s (v % 16)).length ∧ (mbxOutOf s p).length < 16 :=
  ⟨w_MailboxesAndLocks_2, 0, 8, by decide +kernel⟩

def w_MailboxesAndLocks_3 : State :=
  let s := ready
  let s := hostPort 0 2 s
  s
theorem met_MailboxesAndLocks_3 : ∃ s : State, ∃ (p : Nat) (v : Nat), p < 10 ∧ answers s p 0x120104 = true ∧ mbxBars s p (v % 16) = true :=
  ⟨w_MailboxesAndLocks_3, 0, 0, by decide +kernel⟩

def w_MailboxesAndLocks_4 : State :=
  let s := ready
  let s := boxes [] [(3, [(0, 77)])] s
  s
theorem met_MailboxesAndLocks_4 : ∃ s : State, ∃ (d : Nat) (p : Nat) (x : Nat), d < 9 ∧ p < 9 ∧ mbxInOf s d = [] ∧ mbxOutOf s p = [(d, x)]
    ∧ (∀ q < 9, q ≠ p → ∀ m ∈ mbxOutOf s q, m.1 ≠ d) :=
  ⟨w_MailboxesAndLocks_4, 0, 3, 77, by decide +kernel⟩

def w_MailboxesAndLocks_5 : State :=
  let s := ready
  let s := hostPort 0 0 s
  let s := boxes [(0, [2 ^ 36 + 5, 6])] [] s
  s
theorem met_MailboxesAndLocks_5 : ∃ s : State, ∃ (p : Nat) (m : _) (l : _), p < 9 ∧ answers s p 0x120108 = true ∧ mbxInOf s p = m :: l :=
  ⟨w_MailboxesAndLocks_5, 0, (2 ^ 36 + 5), [6], by decide +kernel⟩

def w_MailboxesAndLocks_6 : State :=
  let s := ready
  let s := hostPort 8 0 s
  let s := boxes [] [] s
  s
theorem met_MailboxesAndLocks_6 : ∃ s : State, ∃ (p : Nat), p < 9 ∧ answers s p 0x120108 = true ∧ mbxInOf s p = [] :=
  ⟨w_MailboxesAndLocks_6, 8, by decide +kernel⟩

def w_MailboxesAndLocks_7 : State :=
  let s := ready
  let s := hostPort 0 1 s
  let s := blow (R.LCK.OWNER 63) (15) s
  s
theorem met_MailboxesAndLocks_7 : ∃ s : State, ∃ (n : Nat) (p : Nat), n < 64 ∧ p < 10 ∧ answers s p (0x120200 + 4 * n) = true ∧ authOf s p
    ≠ 0 ∧ get s (R.LCK.OWNER n) = 15 :=
  ⟨w_MailboxesAndLocks_7, 63, 0, by decide +kernel⟩

def w_MailboxesAndLocks_8 : State :=
  let s := ready
  let s := hostPort 0 1 s
  let s := blow (R.LCK.OWNER 63) (15) s
  s
theorem met_MailboxesAndLocks_8 : ∃ s : State, ∃ (n : Nat) (p : Nat) (q : Nat), n < 64 ∧ p < q ∧ q < 10 ∧ answers s p (0x120200 + 4 * n) =
    true ∧ answers s q (0x120200 + 4 * n) = true ∧ authOf s p ≠ 0 ∧ get s (R.LCK.OWNER n) = 15 :=
  ⟨w_MailboxesAndLocks_8, 63, 0, 9, by decide +kernel⟩

def w_MailboxesAndLocks_9 : State :=
  let s := ready
  let s := hostPort 0 0 s
  let s := blow (R.LCK.OWNER 0) (9) s
  s
theorem met_MailboxesAndLocks_9 : ∃ s : State, ∃ (n : Nat) (p : Nat) (o : Nat), n < 64 ∧ p < 10 ∧ answers s p (0x120200 + 4 * n) = true ∧
    get s (R.LCK.OWNER n) = o ∧ o < 10 :=
  ⟨w_MailboxesAndLocks_9, 0, 0, 9, by decide +kernel⟩

def w_MailboxesAndLocks_10 : State :=
  let s := ready
  let s := hostPort 0 0 s
  let s := blow (R.LCK.OWNER 63) (0) s
  s
theorem met_MailboxesAndLocks_10 : ∃ s : State, ∃ (n : Nat) (p : Nat) (v : Nat), n < 64 ∧ p < 10 ∧ answers s p (0x120200 + 4 * n) = true ∧
    bit v 31 = true ∧ get s (R.LCK.OWNER n) = p :=
  ⟨w_MailboxesAndLocks_10, 63, 0, 0x80000000, by decide +kernel⟩

def w_MailboxesAndLocks_11 : State :=
  let s := ready
  let s := hostPort 0 2 s
  let s := blow (R.LCK.OWNER 63) (15) s
  s
theorem met_MailboxesAndLocks_11 : ∃ s : State, ∃ (n : Nat) (p : Nat) (v : Nat), n < 64 ∧ p < 10 ∧ answers s p (0x120200 + 4 * n) = true ∧
    bit v 31 = true ∧ get s (R.LCK.OWNER n) ≠ p ∧ get s R.CMD_VIOL_STAT.COUNT = 0 :=
  ⟨w_MailboxesAndLocks_11, 63, 0, 0x80000000, by decide +kernel⟩

/-! BmcPortServes. -/

def w_BmcPortServes_1 : State :=
  let s := ready
  let s := hostPort 8 2 s
  let s := { s with i3c := { s.i3c with addr := none } }
  s
theorem met_BmcPortServes_1 : ∃ s : State, i3cUp s = true ∧ s.i3c.addr = none :=
  ⟨w_BmcPortServes_1, by decide +kernel⟩

def w_BmcPortServes_2 : State :=
  let s := ready
  let s := hostPort 8 2 s
  s
theorem met_BmcPortServes_2 : ∃ s : State, i3cUp s = true :=
  ⟨w_BmcPortServes_2, by decide +kernel⟩

def w_BmcPortServes_3 : State :=
  let s := ready
  let s := hostPort 8 2 s
  let s := { s with i3c := { s.i3c with ibiEn := false } }
  let s := blow (R.CMD_NOTIFY 8) (6) s
  let s := blow (R.CMD_NOTIFY_EN.EN 8) (4) s
  s
theorem met_BmcPortServes_3 : ∃ s : State, ∃ (e : Nat), i3cUp s = true ∧ bit e 0 = true ∧ s.i3c.ibiEn = false :=
  ⟨w_BmcPortServes_3, 1, by decide +kernel⟩

def w_BmcPortServes_4 : State :=
  let s := ready
  let s := hostPort 8 2 s
  s
theorem met_BmcPortServes_4 : ∃ s : State, ∃ (e : Nat), i3cUp s = true ∧ bit e 0 = true :=
  ⟨w_BmcPortServes_4, 1, by decide +kernel⟩

def w_BmcPortServes_5 : State :=
  let s := ready
  let s := hostPort 8 2 s
  s
theorem met_BmcPortServes_5 : ∃ s : State, i3cUp s = true :=
  ⟨w_BmcPortServes_5, by decide +kernel⟩

def w_BmcPortServes_6 : State :=
  let s := ready
  let s := hostPort 8 2 s
  s
theorem met_BmcPortServes_6 : ∃ s : State, i3cUp s = true :=
  ⟨w_BmcPortServes_6, by decide +kernel⟩

def w_BmcPortServes_7 : State :=
  let s := ready
  let s := hostPort 8 2 s
  let s := { s with i3c := { s.i3c with addr := some 9 } }
  s
theorem met_BmcPortServes_7 : ∃ s : State, i3cUp s = true ∧ s.i3c.addr ≠ none :=
  ⟨w_BmcPortServes_7, by decide +kernel⟩

def w_BmcPortServes_8 : State :=
  let s := ready
  let s := hostPort 8 2 s
  let s := { s with i3c := { s.i3c with addr := some 9 } }
  let s := { s with i3c := { s.i3c with mwl := 8 } }
  s
theorem met_BmcPortServes_8 : ∃ s : State, ∃ (o : Nat) (v : Nat), i3cUp s = true ∧ s.i3c.addr ≠ none ∧ 8 ≤ s.i3c.mwl ∧ o % 4 = 0 ∧ o < 2 ^
    22 ∧ v < 2 ^ 32 :=
  ⟨w_BmcPortServes_8, 0x160108, 500, by decide +kernel⟩

def w_BmcPortServes_9 : State :=
  let s := ready
  let s := hostPort 8 2 s
  let s := { s with i3c := { s.i3c with addr := some 9 } }
  let s := { s with i3c := { s.i3c with mrl := 4 } }
  let s := { s with i3c := { s.i3c with ofs := 0x160108 } }
  s
theorem met_BmcPortServes_9 : ∃ s : State, i3cUp s = true ∧ s.i3c.addr ≠ none ∧ 4 ≤ s.i3c.mrl :=
  ⟨w_BmcPortServes_9, by decide +kernel⟩

/-! EventsRecorded. -/

def w_EventsRecorded_1 : State :=
  let s := ready
  let s := { s with log := { s.log with fresh := [] } }
  let s := blow (R.REC_STAT.CLEARING) (0) s
  let s := { s with log := { s.log with queue := [⟨0x501, 1, 63, 2^32 + 5, 77, false⟩, ⟨1, 2, 3, 4, 5, true⟩] } }
  let s := { s with log := { s.log with recs := [⟨5, 7, 0x501, 1, 63, 6, 11, 0, false, []⟩] } }
  s
theorem met_EventsRecorded_1 : ∃ s : State, ∃ (e : _) (l : _), s.log.fresh = [] ∧ get s R.REC_STAT.CLEARING = 0 ∧ s.log.queue = e :: l ∧
    s.log.recs.length < 16384 ∧ (∀ r, s.log.recs.getLast? = some r → repeats e r = false) :=
  ⟨w_EventsRecorded_1, (⟨0x501, 1, 63, 2^32 + 5, 77, false⟩), [⟨1, 2, 3, 4, 5, true⟩], by decide +kernel⟩

def w_EventsRecorded_2 : State :=
  let s := ready
  let s := { s with log := { s.log with fresh := [] } }
  let s := blow (R.REC_STAT.CLEARING) (0) s
  let s := { s with log := { s.log with queue := [⟨0x501, 1, 63, 2^32 + 5, 77, false⟩] } }
  let s := { s with log := { s.log with recs := [⟨5, 7, 0x501, 1, 63, 5, 11, 65535, false, []⟩] } }
  s
theorem met_EventsRecorded_2 : ∃ s : State, ∃ (e : _) (l : List Event) (h : List Record) (r : _), s.log.fresh = [] ∧ get s
    R.REC_STAT.CLEARING = 0 ∧ s.log.queue = e :: l ∧ s.log.recs = h ++ [r] ∧ repeats e r = true :=
  ⟨w_EventsRecorded_2, (⟨0x501, 1, 63, 2^32 + 5, 77, false⟩), [], [], (⟨5, 7, 0x501, 1, 63, 5, 11, 65535, false, []⟩), by decide +kernel⟩

def w_EventsRecorded_3 : State :=
  let s := ready
  let s := { s with log := { s.log with fresh := [] } }
  let s := blow (R.REC_STAT.CLEARING) (0) s
  let s := { s with log := { s.log with queue := [⟨0x502, 1, 63, 5, 77, true⟩] } }
  let s := { s with log := { s.log with recs := (List.replicate 16384 ⟨5, 7, 0x501, 1, 63, 5, 11, 65535, false, []⟩) } }
  s
theorem met_EventsRecorded_3 : ∃ s : State, ∃ (e : _) (l : _) (r : _), s.log.fresh = [] ∧ get s R.REC_STAT.CLEARING = 0 ∧ s.log.queue = e
    :: l ∧ 16384 ≤ s.log.recs.length ∧ s.log.recs.getLast? = some r ∧ repeats e r = false :=
  ⟨w_EventsRecorded_3, (⟨0x502, 1, 63, 5, 77, true⟩), [], (⟨5, 7, 0x501, 1, 63, 5, 11, 65535, false, []⟩), by decide +kernel⟩

def w_EventsRecorded_4 : State :=
  let s := ready
  let s := blow (R.REC_TRIG.EN 7) (1) s
  let s := blow (R.REC_TRIG.OP 7) (0) s
  let s := blow (R.REC_TRIG.TRUE 7) (0) s
  let s := blow (R.REC_TRIG.OFS 7) (0x160108) s
  let s := blow (R.REC_TRIG.MASK 7) (0x3FF) s
  let s := blow (R.SAF_WDT.TIMEOUT_MS) (99) s
  let s := blow (R.REC_TRIG.VALUE 7) (99) s
  let s := { s with log := { s.log with trigOn := 0 } }
  let s := { s with log := { s.log with trigPrev := [(7, 1)] } }
  s
theorem met_EventsRecorded_4 : ∃ s : State, ∃ (w : Nat), w < 8 ∧ get s (R.REC_TRIG.EN w) = 1 ∧ get s (R.REC_TRIG.OP w) = 0 ∧ bit
    s.log.trigOn w = false ∧ sget 0 w s.log.trigPrev ≠ 0 ∧ readWordAt s 9 (get s (R.REC_TRIG.OFS w)) &&& get s (R.REC_TRIG.MASK w) = get s
    (R.REC_TRIG.VALUE w) :=
  ⟨w_EventsRecorded_4, 7, by decide +kernel⟩

def w_EventsRecorded_5 : State :=
  let s := ready
  let s := blow (R.REC_TRIG.EN 7) (1) s
  let s := { s with log := { s.log with fresh := [] } }
  let s := blow (R.REC_TRIG.OP 7) (4) s
  let s := blow (R.REC_TRIG.OFS 7) (0x160108) s
  let s := blow (R.REC_TRIG.MASK 7) (0x3FF) s
  let s := blow (R.REC_TRIG.VALUE 7) (99) s
  let s := { s with log := { s.log with trigPrev := [(7, 100)] } }
  s
theorem met_EventsRecorded_5 : ∃ s : State, ∃ (w : Nat) (x : Nat), w < 8 ∧ get s (R.REC_TRIG.EN w) = 1 ∧ s.log.fresh = [] ∧ sget 0 w
    s.log.trigPrev = x + 1 :=
  ⟨w_EventsRecorded_5, 7, 99, by decide +kernel⟩

def w_EventsRecorded_6 : State :=
  let s := ready
  let s := blow (R.REC_TRIG.EN 7) (1) s
  let s := { s with log := { s.log with fresh := [] } }
  let s := blow (R.REC_TRIG.OP 7) (4) s
  let s := blow (R.REC_TRIG.OFS 7) (0x160108) s
  let s := blow (R.REC_TRIG.MASK 7) (0x3FF) s
  let s := { s with log := { s.log with trigPrev := [] } }
  s
theorem met_EventsRecorded_6 : ∃ s : State, ∃ (w : Nat), w < 8 ∧ get s (R.REC_TRIG.EN w) = 1 ∧ s.log.fresh = [] ∧ sget 0 w s.log.trigPrev
    = 0 :=
  ⟨w_EventsRecorded_6, 7, by decide +kernel⟩

def w_EventsRecorded_7 : State :=
  let s := ready
  let s := flying 0 7 0x0B03 [] s
  let s := { s with log := { s.log with fresh := [] } }
  let s := blow (R.REC_STAT.CLEARING) (0) s
  s
theorem met_EventsRecorded_7 : ∃ s : State, ∃ (port : Nat) (tag : Nat) (fl : Flight), Waiting s 0x0B03 port tag fl ∧ s.log.fresh = [] ∧
    get s R.REC_STAT.CLEARING = 0 :=
  ⟨w_EventsRecorded_7, 0, 7, ((flightOf w_EventsRecorded_7 0 7).getD dfl), ⟨by decide +kernel, by decide +kernel, by decide +kernel, by
    decide +kernel, by decide +kernel⟩, by decide +kernel⟩

def w_EventsRecorded_8 : State :=
  let s := ready
  let s := flying 0 7 0x0B03 [] s
  let s := blow (R.REC_STAT.CLEARING) (1) s
  s
theorem met_EventsRecorded_8 : ∃ s : State, ∃ (port : Nat) (tag : Nat) (fl : Flight), Waiting s 0x0B03 port tag fl ∧ get s
    R.REC_STAT.CLEARING = 1 :=
  ⟨w_EventsRecorded_8, 0, 7, ((flightOf w_EventsRecorded_8 0 7).getD dfl), ⟨by decide +kernel, by decide +kernel, by decide +kernel, by
    decide +kernel, by decide +kernel⟩, by decide +kernel⟩

def w_EventsRecorded_9 : State :=
  let s := ready
  let s := flying 1 9 0x0B03 [] s
  let s := markStarted 1 9 s
  let s := blow (R.REC_STAT.CLEARING) (1) s
  let s := { s with log := { s.log with clear := some (1, 9) } }
  let s := { s with log := { s.log with recs := [] } }
  s
theorem met_EventsRecorded_9 : ∃ s : State, ∃ (port : Nat) (tag : Nat) (fl : Flight), get s R.REC_STAT.CLEARING = 1 ∧ s.log.clear = some
    (port, tag) ∧ flightOf s port tag = some fl ∧ s.log.recs = [] :=
  ⟨w_EventsRecorded_9, 1, 9, ((flightOf w_EventsRecorded_9 1 9).getD dfl), by decide +kernel⟩

/-! HealthScored. -/

def w_HealthScored_1 : State :=
  let s := ready
  let s := flying 0 7 0x0B01 [7 + 8 + 16 * 4, 0x17FFFC, 2 ^ 33 + 1, 5] s
  s
theorem met_HealthScored_1 : ∃ s : State, ∃ (port : Nat) (tag : Nat) (fl : Flight) (w : Nat) (op : Nat), Waiting s 0x0B01 port tag fl ∧
    par fl 0 = w + 8 + 16 * op ∧ w < 8 ∧ op ≤ 4 ∧ par fl 1 < 0x180000 ∧ par fl 1 % 4 = 0 ∧ excludedOffset (par fl 1) = false :=
  ⟨w_HealthScored_1, 0, 7, ((flightOf w_HealthScored_1 0 7).getD dfl), 7, 4, ⟨by decide +kernel, by decide +kernel, by decide +kernel,
    by decide +kernel, by decide +kernel⟩, by decide +kernel⟩

def w_HealthScored_2 : State :=
  let s := ready
  let s := flying 0 7 0x0B02 [7 + 8, 0x160108, 2 * 4095] s
  s
theorem met_HealthScored_2 : ∃ s : State, ∃ (port : Nat) (tag : Nat) (fl : Flight) (n : Nat) (e : Nat) (g : Nat), Waiting s 0x0B02 port
    tag fl ∧ par fl 0 = n + 8 * e ∧ n < 8 ∧ e < 2 ∧ par fl 1 < 0x180000 ∧ par fl 1 % 4 = 0 ∧ excludedOffset (par fl 1) = false ∧ par fl 2
    = 2 * g ∧ g < 2 ^ 12 :=
  ⟨w_HealthScored_2, 0, 7, ((flightOf w_HealthScored_2 0 7).getD dfl), 7, 1, 4095, ⟨by decide +kernel, by decide +kernel, by
    decide +kernel, by decide +kernel, by decide +kernel⟩, by decide +kernel⟩

def w_HealthScored_3 : State :=
  let s := ready
  let s := flying 0 7 0x0B02 [7, 0x120100, 2 * 4095] s
  s
theorem met_HealthScored_3 : ∃ s : State, ∃ (port : Nat) (tag : Nat) (fl : Flight) (g : Nat), Waiting s 0x0B02 port tag fl ∧ par fl 0 < 16
    ∧ par fl 1 < 2 ^ 22 ∧ excludedOffset (par fl 1) = true ∧ par fl 2 = 2 * g ∧ g < 2 ^ 12 :=
  ⟨w_HealthScored_3, 0, 7, ((flightOf w_HealthScored_3 0 7).getD dfl), 4095, ⟨by decide +kernel, by decide +kernel, by decide +kernel,
    by decide +kernel, by decide +kernel⟩, by decide +kernel⟩

def w_HealthScored_4 : State :=
  let s := ready
  let s := flying 0 7 0x0B04 ([255 + 256 * 255, 16] ++ List.replicate 6 (4095 + 15 * 2 ^ 12 + 256 * 2 ^ 16)) s
  s
theorem met_HealthScored_4 : ∃ s : State, ∃ (port : Nat) (tag : Nat) (fl : Flight) (th : Nat) (hy : Nat), Waiting s 0x0B04 port tag fl ∧
    par fl 0 = th + 256 * hy ∧ th < 256 ∧ 0 < hy ∧ hy ≤ th ∧ 16 ≤ par fl 1 ∧ par fl 1 ≤ 800 ∧ (∀ c < 6, par fl (2 + c) < 2 ^ 25 ∧ bits
    (par fl (2 + c)) 16 9 ≤ 256) ∧ (∀ c ∈ [0, 2, 3, 4, 5], bits (par fl (2 + c)) 12 4 ≠ 0) :=
  ⟨w_HealthScored_4, 0, 7, ((flightOf w_HealthScored_4 0 7).getD dfl), 255, 255, ⟨by decide +kernel, by decide +kernel, by
    decide +kernel, by decide +kernel, by decide +kernel⟩, by decide +kernel⟩

def w_HealthScored_5 : State :=
  let s := ready
  let s := blow (R.BOOT_STAT.AUTOPILOT) (0) s
  let s := { s with boot := { s.boot with govRst := false } }
  let s := { s with log := { s.log with hltPrev := [0, 0, 0, 0, 0, 0] } }
  s
theorem met_HealthScored_5 : ∃ s : State, fwRuns s = true :=
  ⟨w_HealthScored_5, by decide +kernel⟩

def w_HealthScored_6 : State :=
  let s := ready
  let s := up1 1 s
  s
theorem met_HealthScored_6 : ∃ s : State, ∃ (d : Nat) (fr : _), Accepts s true tyBULK d fr :=
  ⟨w_HealthScored_6, 1, (fra tyBULK 3 3), ⟨by decide +kernel, by decide +kernel, by decide +kernel, by decide +kernel, by
    decide +kernel, by decide +kernel, by decide +kernel⟩⟩

/-! BootStagesEnd. -/

def w_BootStagesEnd_1 : State :=
  let s := ready
  let s := blow (R.BOOT_STAT.STAGE) (0) s
  s
theorem met_BootStagesEnd_1 : ∃ s : State, stage s = 0 :=
  ⟨w_BootStagesEnd_1, by decide +kernel⟩

def w_BootStagesEnd_3 : State :=
  let s := ready
  let s := blow (R.BOOT_STAT.STAGE) (1) s
  let s := { s with boot := { s.boot with govRst := false } }
  let s := blow (R.CLK_STATUS.STATE) (2) s
  s
theorem met_BootStagesEnd_3 : ∃ s : State, Booting s 1 ∧ (clkState s = 2 ∨ clkState s = 3) :=
  ⟨w_BootStagesEnd_3, ⟨by decide +kernel, by decide +kernel⟩, by decide +kernel⟩

def w_BootStagesEnd_4 : State :=
  let s := ready
  let s := blow (R.BOOT_STAT.STAGE) (2) s
  let s := { s with boot := { s.boot with govRst := false } }
  let s := blow (R.GOV_CFG.N_DIES) (16) s
  let s := blow (R.GOV_CFG.N_LAYERS) (4) s
  let s := blow (R.GOV_CFG.N_STACKS) (16) s
  let s := blow (R.GOV_CFG.N_LANES) (512) s
  s
theorem met_BootStagesEnd_4 : ∃ s : State, Booting s 2 ∧ fusesGood s = true :=
  ⟨w_BootStagesEnd_4, ⟨by decide +kernel, by decide +kernel⟩, by decide +kernel⟩

def w_BootStagesEnd_5 : State :=
  let s := ready
  let s := blow (R.BOOT_STAT.STAGE) (3) s
  let s := { s with boot := { s.boot with govRst := false } }
  let s := withImages badCfgImage s
  s
theorem met_BootStagesEnd_5 : ∃ s : State, ∃ (a : Nat) (c : Nat), Booting s 3 ∧ slotToBoot s 0 = some a ∧ slotToBoot s 1 = some c ∧ a < 2
    ∧ c < 2 :=
  ⟨w_BootStagesEnd_5, 1, 0, ⟨by decide +kernel, by decide +kernel⟩, by decide +kernel, by decide +kernel, by decide +kernel, by
    decide +kernel⟩

def w_BootStagesEnd_6 : State :=
  let s := ready
  let s := blow (R.BOOT_STAT.STAGE) (4) s
  let s := { s with boot := { s.boot with govRst := false } }
  let s := withImages cfgImage s
  let s := blow (R.BOOT_STAT.CFG_SLOT) (0) s
  let s := { s with boot := { s.boot with restart := none } }
  s
theorem met_BootStagesEnd_6 : ∃ s : State, Booting s 4 ∧ s.boot.restart = none ∧ (applyConfig s).2 = true :=
  ⟨w_BootStagesEnd_6, ⟨by decide +kernel, by decide +kernel⟩, by decide +kernel⟩

def w_BootStagesEnd_7 : State :=
  let s := ready
  let s := blow (R.BOOT_STAT.STAGE) (4) s
  let s := { s with boot := { s.boot with govRst := false } }
  let s := withImages badCfgImage s
  let s := blow (R.BOOT_STAT.CFG_SLOT) (0) s
  let s := { s with boot := { s.boot with restart := none } }
  s
theorem met_BootStagesEnd_7 : ∃ s : State, Booting s 4 ∧ s.boot.restart = none ∧ (applyConfig s).2 = false :=
  ⟨w_BootStagesEnd_7, ⟨by decide +kernel, by decide +kernel⟩, by decide +kernel⟩

def w_BootStagesEnd_8 : State :=
  let s := ready
  let s := blow (R.BOOT_STAT.STAGE) (5) s
  let s := { s with boot := { s.boot with govRst := false } }
  let s := { s with capp := { s.capp with above := 2 } }
  let s := late 2000 s
  let s := { s with boot := { s.boot with stageUs := (s.us - 1000) } }
  let s := { s with capp := { s.capp with aboveUs := (s.us - 1500) } }
  s
theorem met_BootStagesEnd_8 : ∃ s : State, Booting s 5 ∧ vinGood s = true :=
  ⟨w_BootStagesEnd_8, ⟨by decide +kernel, by decide +kernel⟩, by decide +kernel⟩

def w_BootStagesEnd_9 : State :=
  let s := ready
  let s := blow (R.BOOT_STAT.STAGE) (6) s
  let s := { s with boot := { s.boot with govRst := false } }
  let s := { s with boot := { s.boot with warmed := false } }
  let s := { s with boot := { s.boot with lostHold := 0 } }
  let s := blow (R.BOOT_STAT.GSTATE) (0) s
  let s := loopsAll 2 s
  s
theorem met_BootStagesEnd_9 : ∃ s : State, Booting s 6 ∧ railsUp s (32 :: liveDies s) = true ∧ get s R.BOOT_STAT.GSTATE ≠ 2 ∧
    s.boot.warmed = false :=
  ⟨w_BootStagesEnd_9, ⟨by decide +kernel, by decide +kernel⟩, by decide +kernel⟩

def w_BootStagesEnd_10 : State :=
  let s := ready
  let s := blow (R.BOOT_STAT.STAGE) (7) s
  let s := { s with boot := { s.boot with govRst := false } }
  let s := { s with boot := { s.boot with warmed := true } }
  let s := blow (R.FIL_WARM_STAT.STATE) (3) s
  s
theorem met_BootStagesEnd_10 : ∃ s : State, Booting s 7 ∧ s.boot.warmed = true ∧ get s R.FIL_WARM_STAT.STATE ≠ 1 :=
  ⟨w_BootStagesEnd_10, ⟨by decide +kernel, by decide +kernel⟩, by decide +kernel⟩

def w_BootStagesEnd_11 : State :=
  let s := ready
  let s := blow (R.BOOT_STAT.STAGE) (8) s
  let s := { s with boot := { s.boot with govRst := false } }
  let s := { s with boot := { s.boot with lostHold := 1 } }
  let s := loopsAll 2 s
  s
theorem met_BootStagesEnd_11 : ∃ s : State, Booting s 8 ∧ railsUp s ((liveDies s).map (16 + ·)) = true :=
  ⟨w_BootStagesEnd_11, ⟨by decide +kernel, by decide +kernel⟩, by decide +kernel⟩

/-! PackageStatesChange. -/

def w_PackageStatesChange_1 : State :=
  let s := ready
  let s := late 200 s
  let s := { s with boot := { s.boot with stageUs := (s.us - 200) } }
  let s := blow (R.BOOT_STAT.STAGE) (2) s
  let s := { s with boot := { s.boot with govRst := false } }
  s
theorem met_PackageStatesChange_1 : ∃ s : State, Booting s 2 ∧ 200 ≤ s.us - s.boot.stageUs :=
  ⟨w_PackageStatesChange_1, ⟨by decide +kernel, by decide +kernel⟩, by decide +kernel⟩

def w_PackageStatesChange_2 : State :=
  let s := ready
  let s := late 2000000000 s
  let s := { s with boot := { s.boot with stageUs := 0 } }
  let s := blow (R.BOOT_STAT.STAGE) (5) s
  let s := { s with boot := { s.boot with govRst := false } }
  s
theorem met_PackageStatesChange_2 : ∃ s : State, Booting s 5 ∧ get s R.BOOT_CFG.VIN_WAIT_MS * 1000 ≤ s.us - s.boot.stageUs :=
  ⟨w_PackageStatesChange_2, ⟨by decide +kernel, by decide +kernel⟩, by decide +kernel⟩

def w_PackageStatesChange_3 : State :=
  let s := ready
  let s := late 10000 s
  let s := { s with boot := { s.boot with stageUs := (s.us - 10000) } }
  let s := blow (R.BOOT_STAT.STAGE) (6) s
  let s := { s with boot := { s.boot with govRst := false } }
  s
theorem met_PackageStatesChange_3 : ∃ s : State, (Booting s 6 ∨ Booting s 8) ∧ 10000 ≤ s.us - s.boot.stageUs :=
  ⟨w_PackageStatesChange_3, .inl ⟨by decide +kernel, by decide +kernel⟩, by decide +kernel⟩

def w_PackageStatesChange_4 : State :=
  let s := ready
  let s := blow (R.BOOT_STAT.STAGE) (5) s
  let s := { s with boot := { s.boot with downCause := 15 } }
  s
theorem met_PackageStatesChange_4 : ∃ s : State, ∃ (c : Nat), s.boot.downCause = c ∧ 0 < c ∧ c < 16 ∧ 5 ≤ stage s ∧ stage s ≤ 9 :=
  ⟨w_PackageStatesChange_4, 15, by decide +kernel⟩

def w_PackageStatesChange_5 : State :=
  let s := ready
  let s := late 10000000000 s
  let s := { s with capp := { s.capp with above := 2 } }
  let s := { s with capp := { s.capp with aboveUs := 0 } }
  let s := blow (R.BOOT_STAT.STAGE) (11) s
  let s := blow (R.BOOT_STAT.CAUSE) (8) s
  let s := blow (R.BOOT_CFG.AUTO_RESTART) (1) s
  s
theorem met_PackageStatesChange_5 : ∃ s : State, stage s = 11 ∧ get s R.BOOT_STAT.CAUSE = 8 ∧ get s R.BOOT_CFG.AUTO_RESTART = 1 ∧ 2 ≤
    s.capp.above ∧ get s R.BOOT_CFG.RESTART_MS * 1000 ≤ s.us - s.capp.aboveUs :=
  ⟨w_PackageStatesChange_5, by decide +kernel⟩

def w_PackageStatesChange_6 : State :=
  let s := ready
  let s := fwPort s
  let s := blow (R.BOOT_GSTATE.BUSY) (0) s
  let s := blow (R.BOOT_STAT.STAGE) (9) s
  let s := blow (R.BOOT_STAT.GSTATE) (0) s
  let s := setTok (1) { tokOf s (1) with grant := 5 } s
  s
theorem met_PackageStatesChange_6 : ∃ s : State, ∃ (p : Nat) (d : Nat), Writes s p 0x160010 ∧ get s R.BOOT_GSTATE.BUSY = 0 ∧ stage s = 9 ∧
    get s R.BOOT_STAT.GSTATE = 0 ∧ isPresent s d = true ∧ (tokOf s d).grant ≠ 0 :=
  ⟨w_PackageStatesChange_6, 9, 1, ⟨by decide +kernel, by decide +kernel, by decide +kernel, by decide +kernel⟩, by decide +kernel⟩

def w_PackageStatesChange_7 : State :=
  let s := ready
  let s := fwPort s
  let s := blow (R.BOOT_GSTATE.BUSY) (0) s
  let s := blow (R.BOOT_STAT.STAGE) (9) s
  let s := blow (R.BOOT_STAT.GSTATE) (0) s
  let s := { s with tok := [] }
  s
theorem met_PackageStatesChange_7 : ∃ s : State, ∃ (p : Nat), Writes s p 0x160010 ∧ get s R.BOOT_GSTATE.BUSY = 0 ∧ stage s = 9 ∧ get s
    R.BOOT_STAT.GSTATE = 0 ∧ (∀ d, isPresent s d = true → (tokOf s d).grant = 0) :=
  ⟨w_PackageStatesChange_7, 9, ⟨by decide +kernel, by decide +kernel, by decide +kernel, by decide +kernel⟩, by decide +kernel, by
    decide +kernel, by decide +kernel, onDies (by decide +kernel)⟩

def w_PackageStatesChange_8 : State :=
  let s := ready
  let s := fwPort s
  let s := blow (R.BOOT_GSTATE.BUSY) (0) s
  let s := blow (R.BOOT_STAT.STAGE) (9) s
  let s := blow (R.BOOT_STAT.GSTATE) (1) s
  let s := blow (R.HNG_STAT.SEQ_BUSY) (0) s
  let s := noParts s
  s
theorem met_PackageStatesChange_8 : ∃ s : State, ∃ (p : Nat), Writes s p 0x160010 ∧ get s R.BOOT_GSTATE.BUSY = 0 ∧ stage s = 9 ∧ get s
    R.BOOT_STAT.GSTATE < 2 ∧ get s R.HNG_STAT.SEQ_BUSY = 0 ∧ (∀ q < 16, partState s q ≠ ptSCRUBBING) :=
  ⟨w_PackageStatesChange_8, 9, ⟨by decide +kernel, by decide +kernel, by decide +kernel, by decide +kernel⟩, by decide +kernel⟩

def w_PackageStatesChange_9 : State :=
  let s := ready
  let s := fwPort s
  let s := blow (R.BOOT_GSTATE.BUSY) (0) s
  let s := blow (R.BOOT_STAT.STAGE) (9) s
  let s := blow (R.BOOT_STAT.GSTATE) (1) s
  s
theorem met_PackageStatesChange_9 : ∃ s : State, ∃ (p : Nat), Writes s p 0x160010 ∧ get s R.BOOT_GSTATE.BUSY = 0 ∧ stage s = 9 ∧ get s
    R.BOOT_STAT.GSTATE = 1 :=
  ⟨w_PackageStatesChange_9, 9, ⟨by decide +kernel, by decide +kernel, by decide +kernel, by decide +kernel⟩, by decide +kernel⟩

def w_PackageStatesChange_10 : State :=
  let s := ready
  let s := fwPort s
  let s := blow (R.BOOT_GSTATE.BUSY) (0) s
  let s := blow (R.BOOT_STAT.STAGE) (11) s
  let s := blow (R.BOOT_STAT.CAUSE) (10) s
  s
theorem met_PackageStatesChange_10 : ∃ s : State, ∃ (p : Nat), Writes s p 0x160010 ∧ get s R.BOOT_GSTATE.BUSY = 0 ∧ stage s = 11 ∧ get s
    R.BOOT_STAT.CAUSE = 10 :=
  ⟨w_PackageStatesChange_10, 9, ⟨by decide +kernel, by decide +kernel, by decide +kernel, by decide +kernel⟩, by decide +kernel⟩

def w_PackageStatesChange_11 : State :=
  let s := ready
  let s := fwPort s
  let s := blow (R.BOOT_GSTATE.BUSY) (0) s
  let s := blow (R.BOOT_STAT.STAGE) (9) s
  let s := setTok (1) { tokOf s (1) with total := 5000 } s
  let s := blow (R.TOK_DIE_LIM.FLOOR 1) (128) s
  s
theorem met_PackageStatesChange_11 : ∃ s : State, ∃ (p : Nat) (d : Nat), Writes s p 0x160010 ∧ get s R.BOOT_GSTATE.BUSY = 0 ∧ stage s = 9
    ∧ isPresent s d = true ∧ floorIssue s d < (tokOf s d).total :=
  ⟨w_PackageStatesChange_11, 9, 1, ⟨by decide +kernel, by decide +kernel, by decide +kernel, by decide +kernel⟩, by decide +kernel⟩

def w_PackageStatesChange_12 : State :=
  let s := ready
  let s := fwPort s
  let s := blow (R.BOOT_GSTATE.BUSY) (0) s
  let s := blow (R.BOOT_STAT.STAGE) (11) s
  s
theorem met_PackageStatesChange_12 : ∃ s : State, ∃ (p : Nat), Writes s p 0x160010 ∧ get s R.BOOT_GSTATE.BUSY = 0 ∧ stage s = 11 :=
  ⟨w_PackageStatesChange_12, 9, ⟨by decide +kernel, by decide +kernel, by decide +kernel, by decide +kernel⟩, by decide +kernel⟩

def w_PackageStatesChange_13 : State :=
  let s := ready
  let s := up1 1 s
  let s := { s with boot := { s.boot with change := 3 } }
  let s := { s with boot := { s.boot with selfRef := 0 } }
  let s := blow (R.GOV_CFG.N_DIES) (2) s
  s
theorem met_PackageStatesChange_13 : ∃ s : State, ∃ (d : Nat) (fr : _), s.boot.change = 3 ∧ Accepts s true tyBULK d fr ∧ setBit
    s.boot.selfRef d ≠ 2 ^ nDies s - 1 :=
  ⟨w_PackageStatesChange_13, 1, (fra tyBULK 3 3), by decide +kernel, ⟨by decide +kernel, by decide +kernel, by decide +kernel, by
    decide +kernel, by decide +kernel, by decide +kernel, by decide +kernel⟩, by decide +kernel⟩

def w_PackageStatesChange_14 : State :=
  let s := ready
  let s := up1 1 s
  let s := { s with boot := { s.boot with change := 3 } }
  let s := { s with boot := { s.boot with selfRef := 1 } }
  let s := blow (R.GOV_CFG.N_DIES) (2) s
  s
theorem met_PackageStatesChange_14 : ∃ s : State, ∃ (d : Nat) (fr : _), s.boot.change = 3 ∧ Accepts s true tyBULK d fr ∧ setBit
    s.boot.selfRef d = 2 ^ nDies s - 1 :=
  ⟨w_PackageStatesChange_14, 1, (fra tyBULK 3 3), by decide +kernel, ⟨by decide +kernel, by decide +kernel, by decide +kernel, by
    decide +kernel, by decide +kernel, by decide +kernel, by decide +kernel⟩, by decide +kernel⟩

def w_PackageStatesChange_15 : State :=
  let s := ready
  let s := late 1000 s
  let s := { s with boot := { s.boot with changeUs := (s.us - 1000) } }
  let s := { s with boot := { s.boot with change := 3 } }
  let s := { s with boot := { s.boot with selfRef := 1 } }
  let s := blow (R.GOV_CFG.N_DIES) (2) s
  s
theorem met_PackageStatesChange_15 : ∃ s : State, ∃ (d : Nat), s.boot.change = 3 ∧ isPresent s d = true ∧ bit s.boot.selfRef d = false ∧
    1000 ≤ s.us - s.boot.changeUs :=
  ⟨w_PackageStatesChange_15, 1, by decide +kernel⟩

/-! ResetsStartAndEnd. -/

def w_ResetsStartAndEnd_1 : State :=
  let s := ready
  let s := fwPort s
  let s := blow (R.BOOT_STAT.STAGE) (9) s
  let s := { s with boot := { s.boot with govRst := false } }
  s
theorem met_ResetsStartAndEnd_1 : ∃ s : State, ∃ (p : Nat), Writes s p 0x16000C ∧ stage s = 9 ∧ s.boot.govRst = false :=
  ⟨w_ResetsStartAndEnd_1, 9, ⟨by decide +kernel, by decide +kernel, by decide +kernel, by decide +kernel⟩, by decide +kernel⟩

def w_ResetsStartAndEnd_2 : State :=
  let s := ready
  let s := fwPort s
  let s := blow (R.BOOT_STAT.STAGE) (9) s
  let s := { s with boot := { s.boot with accRst := false } }
  s
theorem met_ResetsStartAndEnd_2 : ∃ s : State, ∃ (p : Nat), Writes s p 0x16000C ∧ stage s = 9 ∧ s.boot.accRst = false :=
  ⟨w_ResetsStartAndEnd_2, 9, ⟨by decide +kernel, by decide +kernel, by decide +kernel, by decide +kernel⟩, by decide +kernel⟩

def w_ResetsStartAndEnd_3 : State :=
  let s := ready
  let s := fwPort s
  let s := blow (R.BOOT_STAT.STAGE) (9) s
  let s := { s with boot := { s.boot with dieRst := 0 } }
  let s := blow (R.BOOT_STAT.GSTATE) (0) s
  let s := { s with boot := { s.boot with lostHold := 0 } }
  s
theorem met_ResetsStartAndEnd_3 : ∃ s : State, ∃ (p : Nat) (m : Nat) (d : Nat), Writes s p 0x16000C ∧ stage s = 9 ∧ 0 < m ∧ m < 2 ^ nDies
    s ∧ s.boot.dieRst = 0 ∧ s.boot.lostHold = 0 ∧ get s R.BOOT_STAT.GSTATE = 0 ∧ bit m d = true :=
  ⟨w_ResetsStartAndEnd_3, 9, 2, 1, ⟨by decide +kernel, by decide +kernel, by decide +kernel, by decide +kernel⟩, by decide +kernel⟩

def w_ResetsStartAndEnd_4 : State :=
  let s := ready
  let s := fwPort s
  let s := blow (R.BOOT_STAT.STAGE) (9) s
  let s := { s with boot := { s.boot with lostHold := 1 } }
  s
theorem met_ResetsStartAndEnd_4 : ∃ s : State, ∃ (p : Nat) (m : Nat), Writes s p 0x16000C ∧ 0 < m ∧ m < 2 ^ 16 ∧ s.boot.lostHold ≠ 0 ∧ get
    s R.CMD_VIOL_STAT.COUNT = 0 :=
  ⟨w_ResetsStartAndEnd_4, 9, 1, ⟨by decide +kernel, by decide +kernel, by decide +kernel, by decide +kernel⟩, by decide +kernel⟩

def w_ResetsStartAndEnd_5 : State :=
  let s := ready
  let s := fwPort s
  let s := blow (R.BOOT_STAT.STAGE) (8) s
  s
theorem met_ResetsStartAndEnd_5 : ∃ s : State, ∃ (p : Nat), Writes s p 0x16000C ∧ stage s ≠ 9 ∧ get s R.CMD_VIOL_STAT.COUNT = 0 :=
  ⟨w_ResetsStartAndEnd_5, 9, ⟨by decide +kernel, by decide +kernel, by decide +kernel, by decide +kernel⟩, by decide +kernel⟩

def w_ResetsStartAndEnd_6 : State :=
  let s := ready
  let s := late 100000000 s
  let s := { s with boot := { s.boot with accUs := 0 } }
  let s := { s with boot := { s.boot with accRst := true } }
  s
theorem met_ResetsStartAndEnd_6 : ∃ s : State, s.boot.accRst = true ∧ get s R.BOOT_CFG2.PKG_RST_US ≤ s.us - s.boot.accUs :=
  ⟨w_ResetsStartAndEnd_6, by decide +kernel⟩

def w_ResetsStartAndEnd_7 : State :=
  let s := ready
  let s := { s with boot := { s.boot with dieRst := 3 } }
  let s := { s with boot := { s.boot with lostHold := 0 } }
  s
theorem met_ResetsStartAndEnd_7 : ∃ s : State, ∃ (d : Nat), isPresent s d = true ∧ bit s.boot.dieRst d = true ∧ bit s.boot.lostHold d =
    false :=
  ⟨w_ResetsStartAndEnd_7, 1, by decide +kernel⟩

def w_ResetsStartAndEnd_8 : State :=
  let s := ready
  let s := { s with boot := { s.boot with dieRst := 3 } }
  let s := { s with boot := { s.boot with lostHold := 2 } }
  let s := blow (R.LPE_STAT.STATE 1) (2) s
  let s := blow (R.LPE_STAT.STATE 17) (2) s
  s
theorem met_ResetsStartAndEnd_8 : ∃ s : State, ∃ (d : Nat), isPresent s d = true ∧ bit s.boot.lostHold d = true ∧ loopState s d = lpTRACK
    ∧ loopState s (16 + d) = lpTRACK :=
  ⟨w_ResetsStartAndEnd_8, 1, by decide +kernel⟩

/-! FirmwareRestarts. -/

def w_FirmwareRestarts_1 : State :=
  let s := ready
  let s := mayRst s
  s
theorem met_FirmwareRestarts_1 : ∃ s : State, MayRestart s :=
  ⟨w_FirmwareRestarts_1, ⟨by decide +kernel, by decide +kernel, by decide +kernel⟩⟩

def w_FirmwareRestarts_2 : State :=
  let s := ready
  let s := { s with boot := { s.boot with wdt := 10000000 } }
  let s := mayRst s
  let s := blow (R.BOOT_STAT.AUTOPILOT) (0) s
  s
theorem met_FirmwareRestarts_2 : ∃ s : State, MayRestart s ∧ fwRuns s = true ∧ get s R.SAF_WDT.TIMEOUT_MS * 1000 ≤ s.boot.wdt :=
  ⟨w_FirmwareRestarts_2, ⟨by decide +kernel, by decide +kernel, by decide +kernel⟩, by decide +kernel⟩

def w_FirmwareRestarts_3 : State :=
  let s := ready
  let s := fwPort s
  s
theorem met_FirmwareRestarts_3 : ∃ s : State, ∃ (v : Nat), answers s 9 0x16010C = true ∧ bit v 0 = true :=
  ⟨w_FirmwareRestarts_3, 1, by decide +kernel⟩

def w_FirmwareRestarts_4 : State :=
  let s := ready
  let s := mayRst s
  s
theorem met_FirmwareRestarts_4 : ∃ s : State, MayRestart s :=
  ⟨w_FirmwareRestarts_4, ⟨by decide +kernel, by decide +kernel, by decide +kernel⟩⟩

def w_FirmwareRestarts_5 : State := ready
theorem met_FirmwareRestarts_5 : ∃ (n : Nat), 0 < n :=
  ⟨70000, by decide +kernel⟩

def w_FirmwareRestarts_6 : State :=
  let s := ready
  let s := mayRst s
  let s := { s with boot := { s.boot with restarts := [s.us, s.us] } }
  let s := { s with us := (s.us + 5) }
  let s := blow (R.SAF_CFG.RESTART_N) (3) s
  s
theorem met_FirmwareRestarts_6 : ∃ s : State, MayRestart s :=
  ⟨w_FirmwareRestarts_6, ⟨by decide +kernel, by decide +kernel, by decide +kernel⟩⟩

def w_FirmwareRestarts_7 : State :=
  let s := ready
  let s := { s with boot := { s.boot with restart := some 2 } }
  let s := { s with boot := { s.boot with fwCmd := none } }
  let s := { s with boot := { s.boot with govRst := false } }
  let s := sramOk s
  let s := { s with boot := { s.boot with aborts := [] } }
  s
theorem met_FirmwareRestarts_7 : ∃ s : State, ∃ (k : Nat) (ups : _), s.boot.restart = some k ∧ s.boot.govRst = false ∧ sramGood (upsetSram
    ups s) = true :=
  ⟨w_FirmwareRestarts_7, 2, [], by decide +kernel⟩

def w_FirmwareRestarts_8 : State :=
  let s := ready
  let s := flying 1 9 0x0C04 [0] s
  let s := markStarted 1 9 s
  let s := { s with boot := { s.boot with restart := some 4 } }
  let s := { s with boot := { s.boot with fwCmd := some (1, 9) } }
  let s := { s with boot := { s.boot with aborts := [] } }
  let s := sramOk s
  s
theorem met_FirmwareRestarts_8 : ∃ s : State, ∃ (k : Nat) (p : Nat) (tag : Nat) (fl : Flight) (ups : _), s.boot.restart = some k ∧
    s.boot.fwCmd = some (p, tag) ∧ s.boot.aborts = [] ∧ flightOf s p tag = some fl ∧ sramGood (upsetSram ups s) = true :=
  ⟨w_FirmwareRestarts_8, 4, 1, 9, ((flightOf w_FirmwareRestarts_8 1 9).getD dfl), ([(2 ^ 22 - 1, 5)]), by decide +kernel⟩

def w_FirmwareRestarts_9 : State :=
  let s := ready
  let s := flying 1 9 0x0605 [5] s
  let s := markStarted 1 9 s
  let s := { s with boot := { s.boot with restart := some 4 } }
  let s := { s with boot := { s.boot with fwCmd := none } }
  let s := { s with boot := { s.boot with aborts := [(1, 9)] } }
  let s := sramOk s
  s
theorem met_FirmwareRestarts_9 : ∃ s : State, ∃ (k : Nat) (p : Nat) (tag : Nat) (fl : Flight) (ups : _), s.boot.restart = some k ∧
    s.boot.fwCmd = none ∧ s.boot.aborts = [(p, tag)] ∧ flightOf s p tag = some fl ∧ sramGood (upsetSram ups s) = true :=
  ⟨w_FirmwareRestarts_9, 4, 1, 9, ((flightOf w_FirmwareRestarts_9 1 9).getD dfl), [], by decide +kernel⟩

def w_FirmwareRestarts_10 : State :=
  let s := ready
  let s := { s with boot := { s.boot with restart := some 2 } }
  let s := { s with boot := { s.boot with fwLen := 1 } }
  let s := blow (R.BOOT_DIG.DIGEST) (5) s
  s
theorem met_FirmwareRestarts_10 : ∃ s : State, ∃ (k : Nat) (ups : _), s.boot.restart = some k ∧ sramGood (upsetSram ups s) = false :=
  ⟨w_FirmwareRestarts_10, 2, ([(0, 9)]), by decide +kernel⟩

def w_FirmwareRestarts_11 : State :=
  let s := ready
  let s := { s with boot := { s.boot with svnFw := true } }
  let s := blow (R.BOOT_SVN.FW_FUSED) (254) s
  let s := blow (R.BOOT_SVN.FW_IMG) (255) s
  let s := blow (R.BOOT_STAT.STAGE) (9) s
  let s := blow (R.BOOT_STAT.AUTOPILOT) (0) s
  let s := { s with boot := { s.boot with govRst := false } }
  let s := { s with boot := { s.boot with runUs := 60000000 } }
  s
theorem met_FirmwareRestarts_11 : ∃ s : State, s.boot.svnFw = true ∧ get s R.BOOT_SVN.FW_FUSED < get s R.BOOT_SVN.FW_IMG ∧ get s
    R.BOOT_SVN.FW_IMG < 256 ∧ stage s = 9 ∧ fwRuns s = true ∧ 60000000 ≤ s.boot.runUs :=
  ⟨w_FirmwareRestarts_11, by decide +kernel⟩

/-- A state whose first setting alone has been upset. -/
def w_FirmwareRestarts_12 : State := { State.reset with boot := { BootH.init with upset := [(fieldKey R.PST_CTRL.SYNC_EN, 1)] } }

theorem upset_fails : scanFails w_FirmwareRestarts_12 = true :=
  scan_fails rfl (scan_ne (fun _ h => ref_other rfl h) (by decide +kernel) (by decide +kernel))

/-- A scan that finds no new upset. -/
theorem no_flips (s : State) (h : scanFails s = true) : scanFails (each ([] : List Upset) flip s) = true := h

theorem met_FirmwareRestarts_12 : ∃ s : State, ∃ (ups : List Upset), scanFails (each ups flip s) = true :=
  ⟨w_FirmwareRestarts_12, [], no_flips _ upset_fails⟩

def w_FirmwareRestarts_13 : State :=
  let s := ready
  let s := { s with boot := { s.boot with upset := [] } }
  let s := { s with boot := { s.boot with scanBad := true } }
  s
theorem met_FirmwareRestarts_13 : ∃ s : State, ∃ (ups : _), scanFails (each ups flip s) = false :=
  ⟨w_FirmwareRestarts_13, [], by decide +kernel⟩

def w_FirmwareRestarts_14 : State :=
  let s := ready
  let s := { s with boot := { s.boot with scanBad := true } }
  let s := { s with boot := { s.boot with upset := [] } }
  s
theorem met_FirmwareRestarts_14 : ∃ s : State, s.boot.upset = [] :=
  ⟨w_FirmwareRestarts_14, by decide +kernel⟩

def w_FirmwareRestarts_15 : State :=
  let s := ready
  let s := fwPort s
  let s := blow (R.SAF_FAULT) (0xFFFF) s
  let s := { s with boot := { s.boot with scanBad := false } }
  let s := blow (R.SEC_STAT.ENT_OK) (1) s
  s
theorem met_FirmwareRestarts_15 : ∃ s : State, ∃ (p : Nat), Writes s p 0x160100 :=
  ⟨w_FirmwareRestarts_15, 9, ⟨by decide +kernel, by decide +kernel, by decide +kernel, by decide +kernel⟩⟩

/-! FirmwareUpdated. -/

def w_FirmwareUpdated_1 : State :=
  let s := ready
  let s := flying 1 9 0x0C01 [1, 0x10000] s
  let s := { s with boot := { s.boot with slot := none } }
  let s := blow (R.BOOT_STAT.CFG_SLOT) (1) s
  let s := writeByte (flashArea 0x500003) 3 s
  s
theorem met_FirmwareUpdated_1 : ∃ s : State, ∃ (port : Nat) (tag : Nat) (fl : Flight) (k : Nat) (n : Nat), Waiting s 0x0C01 port tag fl ∧
    par fl 0 = k ∧ k < 2 ∧ par fl 1 = n ∧ 256 ≤ n ∧ n ≤ slotSize k ∧ n % 8 = 0 ∧ s.boot.slot = none :=
  ⟨w_FirmwareUpdated_1, 1, 9, ((flightOf w_FirmwareUpdated_1 1 9).getD dfl), 1, 0x10000, ⟨by decide +kernel, by decide +kernel, by
    decide +kernel, by decide +kernel, by decide +kernel⟩, by decide +kernel⟩

def w_FirmwareUpdated_2 : State :=
  let s := ready
  let s := flying 1 9 0x0C01 [0, 0x200000] s
  let s := { s with boot := { s.boot with slot := none } }
  s
theorem met_FirmwareUpdated_2 : ∃ s : State, ∃ (port : Nat) (tag : Nat) (fl : Flight) (k : Nat) (n : Nat), Waiting s 0x0C01 port tag fl ∧
    par fl 0 = k ∧ k < 2 ∧ par fl 1 = n ∧ 256 ≤ n ∧ n ≤ slotSize k ∧ n % 8 = 0 ∧ s.boot.slot = none :=
  ⟨w_FirmwareUpdated_2, 1, 9, ((flightOf w_FirmwareUpdated_2 1 9).getD dfl), 0, 0x200000, ⟨by decide +kernel, by decide +kernel, by
    decide +kernel, by decide +kernel, by decide +kernel⟩, by decide +kernel⟩

def w_FirmwareUpdated_3 : State :=
  let s := ready
  let s := flying 1 9 0x0C02 [8, 77, 0x1FFFFFFFF] s
  let s := { s with boot := { s.boot with slot := some ⟨1, 0, 16⟩ } }
  let s := blow (R.BOOT_STAT.FW_SLOT) (1) s
  s
theorem met_FirmwareUpdated_3 : ∃ s : State, ∃ (port : Nat) (tag : Nat) (fl : Flight) (x : _) (o : Nat) (w : _), Waiting s 0x0C02 port tag
    fl ∧ s.boot.slot = some x ∧ x.port = port ∧ fl.params = o :: w ∧ w ≠ [] ∧ o < 2 ^ 22 ∧ o % 4 = 0 ∧ o + 4 * w.length ≤ x.length :=
  ⟨w_FirmwareUpdated_3, 1, 9, ((flightOf w_FirmwareUpdated_3 1 9).getD dfl), (⟨1, 0, 16⟩), 8, ([77, 0x1FFFFFFFF]), ⟨by decide +kernel,
    by decide +kernel, by decide +kernel, by decide +kernel, by decide +kernel⟩, by decide +kernel⟩

def w_FirmwareUpdated_4 : State :=
  let s := ready
  let s := flying 1 9 0x0C02 [8, 77, 0x1FFFFFFFF] s
  let s := { s with boot := { s.boot with slot := some ⟨1, 0, 16⟩ } }
  let s := blow (R.BOOT_STAT.FW_SLOT) (1) s
  s
theorem met_FirmwareUpdated_4 : ∃ s : State, ∃ (port : Nat) (tag : Nat) (fl : Flight) (x : _) (o : Nat) (w : _), Waiting s 0x0C02 port tag
    fl ∧ s.boot.slot = some x ∧ x.port = port ∧ fl.params = o :: w ∧ w ≠ [] ∧ o < 2 ^ 22 ∧ o % 4 = 0 ∧ o + 4 * w.length ≤ x.length :=
  ⟨w_FirmwareUpdated_4, 1, 9, ((flightOf w_FirmwareUpdated_4 1 9).getD dfl), (⟨1, 0, 16⟩), 8, ([77, 0x1FFFFFFFF]), ⟨by decide +kernel,
    by decide +kernel, by decide +kernel, by decide +kernel, by decide +kernel⟩, by decide +kernel⟩

def w_FirmwareUpdated_5 : State :=
  let s := ready
  let s := flying 1 9 0x0C03 [] s
  let s := { s with boot := { s.boot with slot := some ⟨1, 0, 0x1000⟩ } }
  let s := withImages cfgImage s
  let s := blow (R.BOOT_STAT.FW_SLOT) (0) s
  let s := blow (R.BOOT_STAT.CFG_SLOT) (0) s
  s
theorem met_FirmwareUpdated_5 : ∃ s : State, ∃ (port : Nat) (tag : Nat) (fl : Flight) (x : _), Waiting s 0x0C03 port tag fl ∧ s.boot.slot
    = some x ∧ x.port = port ∧ get s R.BOOT_STAT.FW_SLOT < 2 ∧ get s R.BOOT_STAT.CFG_SLOT < 2 ∧ firstFail (imageChecks s x.kind (otherSlot
    s x.kind)) = none :=
  ⟨w_FirmwareUpdated_5, 1, 9, ((flightOf w_FirmwareUpdated_5 1 9).getD dfl), (⟨1, 0, 0x1000⟩), ⟨by decide +kernel, by decide +kernel, by
    decide +kernel, by decide +kernel, by decide +kernel⟩, by decide +kernel⟩

def w_FirmwareUpdated_6 : State :=
  let s := ready
  let s := flying 1 9 0x0C03 [] s
  let s := { s with boot := { s.boot with slot := some ⟨1, 0, 0x1000⟩ } }
  let s := withImages cfgImage s
  let s := blow (R.BOOT_STAT.FW_SLOT) (0) s
  let s := blow (R.BOOT_STAT.CFG_SLOT) (0) s
  s
theorem met_FirmwareUpdated_6 : ∃ s : State, ∃ (port : Nat) (tag : Nat) (fl : Flight) (x : _), Waiting s 0x0C03 port tag fl ∧ s.boot.slot
    = some x ∧ x.port = port ∧ firstFail (imageChecks s x.kind (otherSlot s x.kind)) = none :=
  ⟨w_FirmwareUpdated_6, 1, 9, ((flightOf w_FirmwareUpdated_6 1 9).getD dfl), (⟨1, 0, 0x1000⟩), ⟨by decide +kernel, by decide +kernel, by
    decide +kernel, by decide +kernel, by decide +kernel⟩, by decide +kernel⟩

def w_FirmwareUpdated_7 : State :=
  let s := ready
  let s := flying 1 9 0x0C03 [] s
  let s := { s with boot := { s.boot with slot := some ⟨1, 0, 0x1000⟩ } }
  let s := withImages cfgImage s
  let s := blow (R.BOOT_STAT.FW_SLOT) (0) s
  let s := blow (R.BOOT_STAT.CFG_SLOT) (0) s
  s
theorem met_FirmwareUpdated_7 : ∃ s : State, ∃ (port : Nat) (tag : Nat) (fl : Flight) (x : _), Waiting s 0x0C03 port tag fl ∧ s.boot.slot
    = some x ∧ x.port = port ∧ get s R.BOOT_STAT.FW_SLOT < 2 ∧ get s R.BOOT_STAT.CFG_SLOT < 2 ∧ firstFail (imageChecks s x.kind (otherSlot
    s x.kind)) = none :=
  ⟨w_FirmwareUpdated_7, 1, 9, ((flightOf w_FirmwareUpdated_7 1 9).getD dfl), (⟨1, 0, 0x1000⟩), ⟨by decide +kernel, by decide +kernel, by
    decide +kernel, by decide +kernel, by decide +kernel⟩, by decide +kernel⟩

def w_FirmwareUpdated_8 : State :=
  let s := ready
  let s := flying 1 9 0x0C03 [] s
  let s := { s with boot := { s.boot with slot := some ⟨1, 1, 0x1000⟩ } }
  let s := { s with mem := [] }
  let s := blow (R.BOOT_STAT.CFG_SLOT) (0) s
  s
theorem met_FirmwareUpdated_8 : ∃ s : State, ∃ (port : Nat) (tag : Nat) (fl : Flight) (x : _) (st : Nat), Waiting s 0x0C03 port tag fl ∧
    s.boot.slot = some x ∧ x.port = port ∧ firstFail (imageChecks s x.kind (otherSlot s x.kind)) = some st :=
  ⟨w_FirmwareUpdated_8, 1, 9, ((flightOf w_FirmwareUpdated_8 1 9).getD dfl), (⟨1, 1, 0x1000⟩), 3, ⟨by decide +kernel, by decide +kernel,
    by decide +kernel, by decide +kernel, by decide +kernel⟩, by decide +kernel⟩

def w_FirmwareUpdated_9 : State :=
  let s := ready
  let s := flying 1 9 0x0C04 [0] s
  let s := mayRst s
  let s := blow (R.BOOT_STAT.AUTOPILOT) (0) s
  s
theorem met_FirmwareUpdated_9 : ∃ s : State, ∃ (port : Nat) (tag : Nat) (fl : Flight), Waiting s 0x0C04 port tag fl ∧ par fl 0 = 0 ∧
    s.boot.restart = none ∧ (coresUp s = true ∨ (s.boot.govRst = true ∧ romServes s = true)) ∧ (s.boot.restarts.filter fun x => decide
    (s.us - x < get s R.SAF_CFG.RESTART_S * 1000000)).length < get s R.SAF_CFG.RESTART_N :=
  ⟨w_FirmwareUpdated_9, 1, 9, ((flightOf w_FirmwareUpdated_9 1 9).getD dfl), ⟨by decide +kernel, by decide +kernel, by decide +kernel,
    by decide +kernel, by decide +kernel⟩, by decide +kernel⟩

def w_FirmwareUpdated_10 : State :=
  let s := ready
  let s := flying 1 9 0x0C04 [1] s
  let s := blow (R.BOOT_STAT.STAGE) (9) s
  s
theorem met_FirmwareUpdated_10 : ∃ s : State, ∃ (port : Nat) (tag : Nat) (fl : Flight), Waiting s 0x0C04 port tag fl ∧ par fl 0 = 1 ∧
    stage s ≠ 12 :=
  ⟨w_FirmwareUpdated_10, 1, 9, ((flightOf w_FirmwareUpdated_10 1 9).getD dfl), ⟨by decide +kernel, by decide +kernel, by decide +kernel,
    by decide +kernel, by decide +kernel⟩, by decide +kernel⟩

/-! CoastEntrySetsItsBits. -/

def w_CoastEntrySetsItsBits_1 : State :=
  let s := ready
  let s := blow (R.CLK_STATUS.STATE) (2) s
  let s := { s with clk := { s.clk with lost := true } }
  s
theorem met_CoastEntrySetsItsBits_1 : ∃ s : State, ((clkState s = 2 ∨ clkState s = 4)) ∧ s.clk.lost = true :=
  ⟨w_CoastEntrySetsItsBits_1, by decide +kernel⟩

def w_CoastEntrySetsItsBits_2 : State :=
  let s := ready
  let s := late 500 s
  let s := { s with clk := { s.clk with since := (s.us - 500) } }
  let s := blow (R.CLK_STATUS.STATE) (4) s
  s
theorem met_CoastEntrySetsItsBits_2 : ∃ s : State, clkState s = 4 ∧ 500 ≤ s.us - s.clk.since :=
  ⟨w_CoastEntrySetsItsBits_2, by decide +kernel⟩

def w_CoastEntrySetsItsBits_3 : State :=
  let s := ready
  let s := late 10000 s
  let s := { s with clk := { s.clk with goodUs := (s.us - 10000) } }
  let s := blow (R.BOOT_STAT.STAGE) (1) s
  let s := { s with clk := { s.clk with started := false } }
  let s := blow (R.CLK_STATUS.STATE) (0) s
  let s := blow (R.CLK_CFG.COAST_BOOT) (1) s
  s
theorem met_CoastEntrySetsItsBits_3 : ∃ s : State, stage s ≠ 0 ∧ s.clk.started = false ∧ clkState s = 0 ∧ 10000 ≤ s.us - s.clk.goodUs ∧
    get s R.CLK_CFG.COAST_BOOT = 1 :=
  ⟨w_CoastEntrySetsItsBits_3, by decide +kernel⟩

def w_CoastEntrySetsItsBits_4 : State :=
  let s := ready
  let s := late 200 s
  let s := { s with clk := { s.clk with since := (s.us - 200) } }
  let s := blow (R.CLK_STATUS.STATE) (1) s
  let s := { s with clk := { s.clk with retries := 2 } }
  let s := blow (R.CLK_CFG.COAST_BOOT) (1) s
  s
theorem met_CoastEntrySetsItsBits_4 : ∃ s : State, clkState s = 1 ∧ 200 ≤ s.us - s.clk.since ∧ (2 ≤ s.clk.retries ∨ (s.clk.bootLate = true
    ∧ s.clk.waits = false)) ∧ get s R.CLK_CFG.COAST_BOOT = 1 :=
  ⟨w_CoastEntrySetsItsBits_4, by decide +kernel⟩

/-! FailingWindowRestartsTheRun. -/

def w_FailingWindowRestartsTheRun_1 : State :=
  let s := ready
  let s := blow (R.BOOT_STAT.STAGE) (9) s
  let s := blow (R.CLK_STATUS.STATE) (0) s
  let s := { s with clk := { s.clk with run := 2 } }
  s
theorem met_FailingWindowRestartsTheRun_1 : ∃ s : State, ∃ (count : Nat), stage s ≠ 0 ∧ ((clkState s = 0 ∨ clkState s = 3)) ∧ (count <
    15565 ∨ 17203 < count) :=
  ⟨w_FailingWindowRestartsTheRun_1, 15564, by decide +kernel⟩

def w_FailingWindowRestartsTheRun_2 : State :=
  let s := ready
  let s := blow (R.BOOT_STAT.STAGE) (9) s
  let s := blow (R.CLK_STATUS.STATE) (0) s
  let s := { s with clk := { s.clk with run := 1 } }
  s
theorem met_FailingWindowRestartsTheRun_2 : ∃ s : State, ∃ (count : Nat), stage s ≠ 0 ∧ ((clkState s = 0 ∨ clkState s = 3)) ∧ 15565 ≤
    count ∧ count ≤ 17203 ∧ s.clk.run < 2 :=
  ⟨w_FailingWindowRestartsTheRun_2, 15565, by decide +kernel⟩

/-! RotateWaitsForThePreviousEpoch. -/

def w_RotateWaitsForThePreviousEpoch_1 : State :=
  let s := ready
  let s := flying 0 7 0x0A06 [] s
  let s := aim 15 s
  let s := blow (R.SEC_PART_EPOCH.PREV_VALID 15) (1) s
  let s := blow (R.SEC_PART_CFG.STATE 15) (2) s
  s
theorem met_RotateWaitsForThePreviousEpoch_1 : ∃ s : State, ∃ (port : Nat) (tag : Nat) (fl : Flight) (p : Nat), Waiting s 0x0A06 port tag
    fl ∧ fl.target = p ∧ p < 16 ∧ get s (R.SEC_PART_EPOCH.PREV_VALID p) = 1 :=
  ⟨w_RotateWaitsForThePreviousEpoch_1, 0, 7, ((flightOf w_RotateWaitsForThePreviousEpoch_1 0 7).getD dfl), 15, ⟨by decide +kernel, by
    decide +kernel, by decide +kernel, by decide +kernel, by decide +kernel⟩, by decide +kernel⟩

/-! ViolationLogCleared. -/

def w_ViolationLogCleared_1 : State :=
  let s := ready
  let s := flying 8 7 0x0102 [] s
  s
theorem met_ViolationLogCleared_1 : ∃ s : State, ∃ (port : Nat) (tag : Nat) (fl : Flight), Waiting s 0x0102 port tag fl :=
  ⟨w_ViolationLogCleared_1, 8, 7, ((flightOf w_ViolationLogCleared_1 8 7).getD dfl), ⟨by decide +kernel, by decide +kernel, by
    decide +kernel, by decide +kernel, by decide +kernel⟩⟩

/-! MissingReportAbandonsG2. -/

def w_MissingReportAbandonsG2_1 : State :=
  let s := ready
  let s := late 1000 s
  let s := { s with boot := { s.boot with changeUs := (s.us - 1000) } }
  let s := { s with boot := { s.boot with change := 3 } }
  let s := { s with boot := { s.boot with selfRef := 1 } }
  let s := blow (R.GOV_CFG.N_DIES) (2) s
  s
theorem met_MissingReportAbandonsG2_1 : ∃ s : State, ∃ (d : Nat), s.boot.change = 3 ∧ isPresent s d = true ∧ bit s.boot.selfRef d = false
    ∧ 1000 ≤ s.us - s.boot.changeUs :=
  ⟨w_MissingReportAbandonsG2_1, 1, by decide +kernel⟩

/-! OnlyTheOwnerReleases. -/

def w_OnlyTheOwnerReleases_1 : State :=
  let s := ready
  let s := hostPort 0 0 s
  let s := blow (R.LCK.OWNER 63) (0) s
  s
theorem met_OnlyTheOwnerReleases_1 : ∃ s : State, ∃ (n : Nat) (p : Nat) (v : Nat), n < 64 ∧ p < 10 ∧ answers s p (0x120200 + 4 * n) = true
    ∧ bit v 31 = true ∧ get s (R.LCK.OWNER n) = p :=
  ⟨w_OnlyTheOwnerReleases_1, 63, 0, 0x80000000, by decide +kernel⟩

def w_OnlyTheOwnerReleases_2 : State :=
  let s := ready
  let s := hostPort 0 2 s
  let s := blow (R.LCK.OWNER 63) (15) s
  s
theorem met_OnlyTheOwnerReleases_2 : ∃ s : State, ∃ (n : Nat) (p : Nat) (v : Nat), n < 64 ∧ p < 10 ∧ answers s p (0x120200 + 4 * n) = true
    ∧ bit v 31 = true ∧ get s (R.LCK.OWNER n) ≠ p ∧ get s R.CMD_VIOL_STAT.COUNT = 0 :=
  ⟨w_OnlyTheOwnerReleases_2, 63, 0, 0x80000000, by decide +kernel⟩

def w_OnlyTheOwnerReleases_3 : State :=
  let s := ready
  let s := hostPort 0 0 s
  let s := hostPort 1 2 s
  let s := blow (R.LCK.OWNER 63) (0) s
  s
theorem met_OnlyTheOwnerReleases_3 : ∃ s : State, ∃ (n : Nat) (p : Nat) (q : Nat) (v : Nat), n < 64 ∧ p < 10 ∧ q < 10 ∧ answers s p
    (0x120200 + 4 * n) = true ∧ answers s q (0x120200 + 4 * n) = true ∧ authOf s q ≠ 0 ∧ bit v 31 = true ∧ get s (R.LCK.OWNER n) = p :=
  ⟨w_OnlyTheOwnerReleases_3, 63, 0, 1, 0x80000000, by decide +kernel⟩

/-! The statements over all commands, and the frames. -/

/-- A command in front of a queue. -/
theorem met_StepRunsTheFrontCommand : ∃ c rest, ∃ s : State, s.pending = c :: rest := ⟨.refLost, [.syncLoss], { ready with pending :=
    [.refLost, .syncLoss] }, rfl⟩

theorem met_EmptyQueueTicks : ∃ s : State, s.pending = [] := ⟨ready, by decide +kernel⟩

theorem met_CommandsKeepTheQueueAndTheFuses : ∃ c, ∃ s t : State, exec c s = .next t := ⟨.refLost, ready, _, rfl⟩

theorem met_StepsKeepTheInvariant : ∃ s t : State, s.Inv ∧ step s = .next t :=
  ⟨{ ready with pending := [.refLost] }, _, ⟨by decide +kernel, by decide +kernel⟩, rfl⟩

theorem met_StoresStayInTheirWindows_2 : ∃ fl, ∃ s t : State, flightOf s 0 7 = some fl ∧ exec (.modelWrite 0 7) s = .next t :=
  ⟨_, flying 0 7 0x0402 [0, 1] ready, _, rfl, rfl⟩

theorem met_StoresStayInTheirWindows_3 : ∃ q, ∃ s t : State, seqIn s cxCAPTURING = some q ∧ capLength q.wins ≤ 0x10000 ∧
    exec (.captureDone [1, 2] false) s = .next t := ⟨sq (seqOn 4095 cxCAPTURING ready), seqOn 4095 cxCAPTURING ready, _, by decide +kernel, by decide +kernel, rfl⟩

theorem met_StoresStayInTheirWindows_5 : ∃ fl, ∃ s t : State, flightOf s 0 7 = some fl ∧ bit (par fl 0) 15 = false ∧
    exec (.captureFree 0 7) s = .next t := ⟨_, flying 0 7 0x0905 [1] ready, _, rfl, by decide +kernel, rfl⟩

theorem met_StoresStayInTheirWindows_8 : ∃ fl x, ∃ s t : State, flightOf s 0 7 = some fl ∧ s.boot.slot = some x ∧
    exec (.fwWrite 0 7 false) s = .next t :=
  ⟨_, ⟨0, 0, 0x1000⟩, setBoot { ready.boot with slot := some ⟨0, 0, 0x1000⟩ } (flying 0 7 0x0C02 [0, 1] ready), _, rfl, rfl, rfl⟩

theorem met_StoresStayInTheirWindows_9 : ∃ s t : State, (∀ c n, RecordWrite.whole ≠ .cut c n) ∧ exec (.fwCommit 0 7 .whole) s = .next t :=
  ⟨ready, _, nofun, rfl⟩

theorem met_StoresStayInTheirWindows_13 : ∃ s t : State, s.test.step < 128 ∧ s.test.samples < 4096 ∧ get s R.LPE_CAP_PRE.PRE < 4096 ∧
    exec (.loopEvaluation 14400 [] ⟨800, 0⟩ 0 false) s = .next t := ⟨ready, _, by decide +kernel, by decide +kernel, by decide +kernel, rfl⟩

theorem met_StoresStayInTheirWindows_14 : ∃ s t : State, get s R.LPE_CAP_PRE.PRE < 4096 ∧ exec .loopTestEnd s = .next t :=
  ⟨ready, _, by decide +kernel, rfl⟩

theorem met_StoresStayInTheirWindows_15 : ∃ s t : State, Instr.sramUe ∈ [Instr.lockstepMismatch, .watchdogExpire, .sramUe, .fwRequest] ∧
    exec .sramUe s = .next t ∧ inWarm 0x120000 = false := ⟨ready, _, by decide, rfl, by decide⟩

theorem met_StoresStayInTheirWindows_18 : ∃ s t : State, exec (.fwRestartDone [(0, 1)]) s = .next t ∧ inWarm (flashArea 0) = false ∧
    (flashArea 0 < sramArea 0 ∨ sramArea (2 ^ 22) ≤ flashArea 0) := ⟨ready, _, rfl, by decide, by decide⟩

theorem met_FramesOfClockPowerAndEstimator : ∃ s t : State, exec .refLost s = .next t := ⟨ready, _, rfl⟩

theorem met_FramesOfIntentLimitsAndRing : ∃ s t : State, exec (.opChange ⟨1, ⟨0, []⟩⟩) s = .next t := ⟨ready, _, rfl⟩

theorem met_FramesOfRecoveryHostAndBoot : ∃ s t : State, exec (.lockRelease 0 63 (2 ^ 31)) s = .next t := ⟨ready, _, rfl⟩

end Sys2Proof.Tests
end

/-! The scope statements: what every command keeps, and what reset reads. -/

namespace Sys2Proof.Machine

/-- Every command answers a next state, which keeps what Kept names and leaves no event behind: the dispatch carries the
law of each meaning over to its command. -/
theorem ends_exec (c : Instr) (s : State) : Ends s (exec c s) :=
  match c with
  | .judgeWindow _ => kept_execJudgeWindow ..
  | .lockMonitorWindow _ => kept_execLockMonitorWindow ..
  | .lockRetry => kept_execLockRetry ..
  | .bootClockTimeout => kept_execBootClockTimeout ..
  | .refLost => kept_execRefLost ..
  | .coastEnter => kept_execCoastEnter ..
  | .relockStart => kept_execRelockStart ..
  | .relockTimeout => kept_execRelockTimeout ..
  | .autoRelockWrite _ _ => kept_execAutoRelockWrite ..
  | .laneLoss _ _ => kept_execLaneLoss ..
  | .laneRetrain die lane => kept_execLaneRetrain die lane s
  | .laneRestore _ _ => kept_execLaneRestore ..
  | .linkLost _ => kept_execLinkLost ..
  | .linkRestore _ => kept_execLinkRestore ..
  | .linkTrained _ => kept_execLinkTrained ..
  | .budgetFrame _ _ _ _ _ => kept_execBudgetFrame ..
  | .thresholdFrame _ _ _ => kept_execThresholdFrame ..
  | .tokensUsedFrame _ _ _ _ _ => kept_execTokensUsedFrame ..
  | .tlmFrame _ _ _ => kept_execTlmFrame ..
  | .tlmMissingFrame _ _ => kept_execTlmMissingFrame ..
  | .tlmLost _ _ => kept_execTlmLost ..
  | .superframe _ _ => kept_execSuperframe ..
  | .syncAcquire _ => kept_execSyncAcquire ..
  | .syncLoss => kept_execSyncLoss ..
  | .loopEvaluation _ _ _ _ _ => kept_execLoopEvaluation ..
  | .cmpHold _ => kept_execCmpHold ..
  | .feHold _ => kept_execFeHold ..
  | .hiccupEnter _ => kept_execHiccupEnter ..
  | .hiccupEnd _ => kept_execHiccupEnd ..
  | .hiccupRunClear _ => kept_execHiccupRunClear ..
  | .phaseRampEnd _ => kept_execPhaseRampEnd ..
  | .shedPhase _ => kept_execShedPhase ..
  | .brakeTimeout _ => kept_execBrakeTimeout ..
  | .openPhase _ => kept_execOpenPhase ..
  | .senseFailure _ => kept_execSenseFailure ..
  | .pmbPoll _ => kept_execPmbPoll ..
  | .pmbAlert _ => kept_execPmbAlert ..
  | .phaseRetire _ _ => kept_execPhaseRetire ..
  | .phaseRestore _ _ => kept_execPhaseRestore ..
  | .convVoutSet _ _ _ => kept_execConvVoutSet ..
  | .convClear _ _ _ => kept_execConvClear ..
  | .commit _ _ _ => kept_execCommit ..
  | .loopResume _ _ => kept_execLoopResume ..
  | .loopTest _ _ => kept_execLoopTest ..
  | .loopTestStop _ _ => kept_execLoopTestStop ..
  | .loopTestEnd => kept_execLoopTestEnd ..
  | .counterLatch _ => kept_execCounterLatch ..
  | .firstLayerDone _ => kept_execFirstLayerDone ..
  | .estimateFrame _ _ _ => kept_execEstimateFrame ..
  | .secondStage => kept_execSecondStage ..
  | .trimUpdate => kept_execTrimUpdate ..
  | .modelSwitch => kept_execModelSwitch ..
  | .stageTimeout => kept_execStageTimeout ..
  | .modelOpen _ _ => kept_execModelOpen ..
  | .modelWrite _ _ => kept_execModelWrite ..
  | .modelLoad _ _ => kept_execModelLoad ..
  | .modelClose _ _ => kept_execModelClose ..
  | .modelRevert _ _ => kept_execModelRevert ..
  | .trimReset _ _ => kept_execTrimReset ..
  | .intentPacket _ _ => kept_execIntentPacket ..
  | .intentFrame _ _ _ _ => kept_execIntentFrame ..
  | .entryExpire _ _ => kept_execEntryExpire ..
  | .mismatchEnter _ => kept_execMismatchEnter ..
  | .mismatchExit _ => kept_execMismatchExit ..
  | .droopDetect _ _ => kept_execDroopDetect ..
  | .droopClear _ _ => kept_execDroopClear ..
  | .droopReport _ _ _ _ => kept_execDroopReport ..
  | .siteStuck _ _ => kept_execSiteStuck ..
  | .siteTest _ _ => kept_execSiteTest ..
  | .intentReset _ _ => kept_execIntentReset ..
  | .droopSiteRestore _ _ _ => kept_execDroopSiteRestore ..
  | .droopForce _ _ => kept_execDroopForce ..
  | .agentSlot _ _ _ => kept_execAgentSlot ..
  | .episodeEnd _ => kept_execEpisodeEnd ..
  | .packageArbitration _ => kept_execPackageArbitration ..
  | .warmTimeout => kept_execWarmTimeout ..
  | .warmupEnd _ _ => kept_execWarmupEnd ..
  | .brownEnter => kept_execBrownEnter ..
  | .brownExit => kept_execBrownExit ..
  | .brownExpired => kept_execBrownExpired ..
  | .brownReset => kept_execBrownReset ..
  | .averageUpdate => kept_execAverageUpdate ..
  | .opFrequencySend _ => kept_execOpFrequencySend ..
  | .opChange _ => kept_execOpChange ..
  | .deferredApply => kept_execDeferredApply ..
  | .deferMax => kept_execDeferMax ..
  | .capSetDone => kept_execCapSetDone ..
  | .capSet _ _ => kept_execCapSet ..
  | .opTableSet _ _ => kept_execOpTableSet ..
  | .opLimit _ _ => kept_execOpLimit ..
  | .modeSet _ _ => kept_execModeSet ..
  | .hintSet _ _ => kept_execHintSet ..
  | .classSet _ _ => kept_execClassSet ..
  | .fpTarget _ _ => kept_execFpTarget ..
  | .conversionOpen => kept_execConversionOpen ..
  | .windowClose _ _ => kept_execWindowClose ..
  | .thermalConversion _ _ => kept_execThermalConversion ..
  | .stackReport _ _ _ => kept_execStackReport ..
  | .stackStale _ => kept_execStackStale ..
  | .thermThreshSet _ _ => kept_execThermThreshSet ..
  | .sensorExclude _ _ => kept_execSensorExclude ..
  | .sensorReadmit _ _ => kept_execSensorReadmit ..
  | .thermRelease _ _ => kept_execThermRelease ..
  | .masterFrameStart => kept_execMasterFrameStart ..
  | .ringFrame _ _ => kept_execRingFrame ..
  | .balanceRound => kept_execBalanceRound ..
  | .lRingApply => kept_execLRingApply ..
  | .ringJoin => kept_execRingJoin ..
  | .masterTakeover => kept_execMasterTakeover ..
  | .masterYield => kept_execMasterYield ..
  | .noMaster => kept_execNoMaster ..
  | .bypassClose => kept_execBypassClose ..
  | .digestRecompute => kept_execDigestRecompute ..
  | .getConfigDigest _ _ => kept_execGetConfigDigest ..
  | .ringForget _ _ => kept_execRingForget ..
  | .snapshot => kept_execSnapshot ..
  | .queueTaps _ _ => kept_execQueueTaps ..
  | .tapLate _ => kept_execTapLate ..
  | .walk _ => kept_execWalk ..
  | .engineFault _ _ _ _ => kept_execEngineFault ..
  | .policyQueue _ => kept_execPolicyQueue ..
  | .sequenceStart => kept_execSequenceStart ..
  | .fenceAck _ _ => kept_execFenceAck ..
  | .drainEnd _ _ => kept_execDrainEnd ..
  | .abortAck _ _ => kept_execAbortAck ..
  | .captureDone _ _ => kept_execCaptureDone ..
  | .captureOverrun _ => kept_execCaptureOverrun ..
  | .clearAck => kept_execClearAck ..
  | .releaseAck => kept_execReleaseAck ..
  | .sequenceStuck => kept_execSequenceStuck ..
  | .ctxReset _ _ => kept_execCtxReset ..
  | .ctxDismiss _ _ => kept_execCtxDismiss ..
  | .returnToService _ _ => kept_execReturnToService ..
  | .capwinSet _ _ => kept_execCapwinSet ..
  | .captureFree _ _ => kept_execCaptureFree ..
  | .entropyFail => kept_execEntropyFail ..
  | .drbgReseed => kept_execDrbgReseed ..
  | .keyCommit _ => kept_execKeyCommit ..
  | .keybusTimeout _ => kept_execKeybusTimeout ..
  | .prevEpochCount _ _ _ => kept_execPrevEpochCount ..
  | .scrubOverwriteDone _ _ => kept_execScrubOverwriteDone ..
  | .scrubFail _ => kept_execScrubFail ..
  | .partSet _ _ => kept_execPartSet ..
  | .partScrub _ _ => kept_execPartScrub ..
  | .portBind _ _ => kept_execPortBind ..
  | .spdmMsg _ _ => kept_execSpdmMsg ..
  | .keyRelease _ _ => kept_execKeyRelease ..
  | .keyRotate _ _ => kept_execKeyRotate ..
  | .debugSet _ _ => kept_execDebugSet ..
  | .commandFetch _ _ => kept_execCommandFetch ..
  | .cmdSqTailWrite _ _ => kept_execCmdSqTailWrite ..
  | .cmdCqHeadWrite _ _ => kept_execCmdCqHeadWrite ..
  | .negotiate _ _ => kept_execNegotiate ..
  | .violClear _ _ => kept_execViolClear ..
  | .lockForce _ _ => kept_execLockForce ..
  | .accessViolation _ _ _ _ _ => kept_execAccessViolation ..
  | .registerWrite _ _ _ => kept_execRegisterWrite ..
  | .highWordLatch _ _ => kept_execHighWordLatch ..
  | .mbxSend _ _ => kept_execMbxSend ..
  | .mbxForward _ => kept_execMbxForward ..
  | .mbxRecv _ => kept_execMbxRecv ..
  | .notifyEnableWrite _ _ => kept_execNotifyEnableWrite ..
  | .lockRead _ _ => kept_execLockRead ..
  | .lockRelease _ _ _ => kept_execLockRelease ..
  | .i3cPrivateWrite _ => kept_execI3cPrivateWrite ..
  | .i3cPrivateRead _ => kept_execI3cPrivateRead ..
  | .entdaa _ => kept_execEntdaa ..
  | .rstdaa => kept_execRstdaa ..
  | .enec _ => kept_execEnec ..
  | .disec _ => kept_execDisec ..
  | .setmwl _ => kept_execSetmwl ..
  | .setmrl _ => kept_execSetmrl ..
  | .getpid => kept_execGetpid ..
  | .getbcr => kept_execGetbcr ..
  | .getdcr => kept_execGetdcr ..
  | .getstatus => kept_execGetstatus ..
  | .getmwl => kept_execGetmwl ..
  | .getmrl => kept_execGetmrl ..
  | .recordWrite => kept_execRecordWrite ..
  | .recordReadLatch _ _ => kept_execRecordReadLatch ..
  | .watchTrigger _ => kept_execWatchTrigger ..
  | .healthCompute => kept_execHealthCompute ..
  | .recTrigSet _ _ => kept_execRecTrigSet ..
  | .recSnapSet _ _ => kept_execRecSnapSet ..
  | .recClear _ _ => kept_execRecClear ..
  | .recClearDone => kept_execRecClearDone ..
  | .healthSet _ _ => kept_execHealthSet ..
  | .supplyGood => kept_execSupplyGood ..
  | .coldReset _ => kept_execColdReset ..
  | .bootStageEnd => kept_execBootStageEnd ..
  | .bootStageTimeout _ => kept_execBootStageTimeout ..
  | .govWarmReset _ _ => kept_execGovWarmReset ..
  | .acceleratorReset _ _ => kept_execAcceleratorReset ..
  | .accResetEnd => kept_execAccResetEnd ..
  | .dieReset _ _ => kept_execDieReset ..
  | .dieResetEnd _ => kept_execDieResetEnd ..
  | .g1Enter _ _ => kept_execG1Enter ..
  | .g2Enter _ _ => kept_execG2Enter ..
  | .g0Return _ _ => kept_execG0Return ..
  | .g3Request _ _ => kept_execG3Request ..
  | .g2Abandoned _ => kept_execG2Abandoned ..
  | .powerDown => kept_execPowerDown ..
  | .autoRestart => kept_execAutoRestart ..
  | .lockstepMismatch => kept_execLockstepMismatch ..
  | .watchdogExpire => kept_execWatchdogExpire ..
  | .watchdogKick _ _ => kept_execWatchdogKick ..
  | .sramUe => kept_execSramUe ..
  | .sramCe _ => kept_execSramCe ..
  | .fwRequest => kept_execFwRequest ..
  | .fwRestartDone _ => kept_execFwRestartDone ..
  | .svnAdv _ => kept_execSvnAdv ..
  | .configScan _ => kept_execConfigScan ..
  | .safFaultClear _ _ => kept_execSafFaultClear ..
  | .fwOpen _ _ _ => kept_execFwOpen ..
  | .fwWrite _ _ _ => kept_execFwWrite ..
  | .fwCommit _ _ _ => kept_execFwCommit ..
  | .fwRestart _ _ => kept_execFwRestart ..
  | .selfRefreshReport _ => kept_execSelfRefreshReport ..
  | .keyBusAcknowledgement _ _ => kept_execKeyBusAcknowledgement ..
  | .entropySourceRestart => kept_execEntropySourceRestart ..
  | .readVoutAfterWrite _ _ _ _ => kept_execReadVoutAfterWrite ..
  | .correctableErrorReport _ _ => kept_execCorrectableErrorReport ..

/-- Settles O52: the state that a command answers is the one its meaning ends in. -/
theorem commandsKeepTheQueueAndTheFuses : Obligations.CommandsKeepTheQueueAndTheFuses := by
  intro c s t ht
  obtain ⟨u, hu, hk, -⟩ := ends_exec c s
  obtain rfl : u = t := Host.Outcome.next.inj (hu.symm.trans ht)
  exact ⟨hk.pending, hk.fuse⟩

/-- The register file of reset lists no field: each reads the reset value of its table (R15). -/
theorem get_reset (f : Field) : get State.reset f = f.rst := rfl

/-- Settles O55: each sample is the reset value of its field, and a unit's state at reset is that of its default. -/
theorem resetReadsItsTables : Obligations.ResetReadsItsTables := by
  refine ⟨get_reset, rfl, rfl, rfl, ?_⟩
  simp only [clkState, stage, get_reset]
  refine ⟨rfl, rfl, rfl, rfl, rfl, rfl, rfl, rfl, rfl, rfl, rfl, rfl, rfl, rfl, rfl, ?_, ?_, ?_⟩
  all_goals exact fun _ _ => rfl

end Sys2Proof.Machine

/-! Bits of a word. -/

namespace Sys2Proof.Machine

theorem bit_zero (v : Nat) : bit v 0 = decide (v % 2 = 1) := rfl

theorem bit_succ (v i : Nat) : bit v (i + 1) = bit (v / 2) i := by
  simp only [bit, Nat.shiftRight_eq_div_pow, Nat.pow_succ', Nat.div_div_eq_div_mul]

theorem bit_eq_testBit (v i : Nat) : bit v i = v.testBit i := by
  rw [Nat.testBit_eq_decide_div_mod_eq, bit, Nat.shiftRight_eq_div_pow]

theorem bit_mod_two_pow {n i : Nat} (h : i < n) (v : Nat) : bit (v % 2 ^ n) i = bit v i := by
  rw [bit_eq_testBit, bit_eq_testBit, Nat.testBit_mod_two_pow, decide_eq_true h, Bool.true_and]

theorem bitsClear_div_two (v m : Nat) : bitsClear v m / 2 = bitsClear (v / 2) (m / 2) := by
  have hlow : (v &&& m) % 2 = 1 → v % 2 = 1 := fun h => (Nat.and_mod_two_eq_one.1 h).1
  simp only [bitsClear, ← Nat.and_div_two]
  omega

/-- A bit stays where it is 1 and the mask does not name it. -/
theorem bit_bitsClear (v m i : Nat) : bit (bitsClear v m) i = (bit v i && !bit m i) := by
  induction i generalizing v m with
  | zero =>
    have hlow := Nat.and_mod_two_eq_one (a := v) (b := m)
    have hle : v &&& m ≤ v := Nat.and_le_left
    simp only [bit_zero, bitsClear, ← decide_not, ← Bool.decide_and, decide_eq_decide]
    omega
  | succ i ih => rw [bit_succ, bit_succ, bit_succ, bitsClear_div_two, ih]

/-- A field of the low 32 bits is carried whole by a 32-bit word. -/
theorem bits_mod_word {lo w : Nat} (h : lo + w ≤ 32) (v : Nat) : bits (v % 2 ^ 32) lo w = bits v lo w := by
  refine Nat.eq_of_testBit_eq fun i => ?_
  simp only [bits, Nat.testBit_mod_two_pow, Nat.testBit_shiftRight]
  by_cases hi : i < w
  · simp [show lo + i < 32 by omega]
  · simp [hi]

end Sys2Proof.Machine

/-! What a violation writes and what an access leaves (R548, R572, R573). -/

namespace Sys2Proof.Machine

@[simp] theorem get_respond (p d : Nat) (e : Bool) (s : State) (g : Field) : get (respond p d e s) g = get s g := rfl
@[simp] theorem get_touch (p : Nat) (s : State) (g : Field) : get (touch p s) g = get s g := rfl
@[simp] theorem violates_touch (q : Nat) (s : State) (p off : Nat) (w : Bool) (n : Nat) : violates (touch q s) p off w n = violates s p off w n := rfl
@[simp] theorem foreignRead_touch (q : Nat) (s : State) (p off : Nat) : foreignRead (touch q s) p off = foreignRead s p off := rfl
@[simp] theorem resp_finish (s : State) : (finish s).resp = s.resp := (Within.finish s).parts .resp (by decide) (by decide)

/-- Notifications change no register but CMD_NOTIFY (R582). -/
theorem get_notifyAll {g : Field} (h : ∀ p, fieldKey (R.CMD_NOTIFY p) ≠ fieldKey g) (b : Nat) (t : Nat → Bool) (s : State) :
    get (notifyAll b t s) g = get s g := by
  refine (foot_notifyAll (Print.Sub.refl _) (Within.refl _ s)).get ?_
  simpa only [fp_notifyAll, fp_notify, Print.free_cons, Print.free_nil, Print.free_reg1, Print.free_prt, and_true] using fun p _ => h p

/-- A violation changes no register beyond the violation log. -/
theorem get_violation {g : Field} (h : 0x120600 * 32 ≤ g.off * 32 + g.lo) (hw : g.off * 32 + g.lo < 2 ^ 27) (p k o c : Nat) (s : State) :
    get (violation p k o c s) g = get s g := by
  refine (foot_violation (Print.Sub.refl _) (Within.refl _ s)).get ?_
  simp only [fp_violation, fp_notifyAll, fp_notify, Print.free_cons, Print.free_nil, Print.free_reg, Print.free_reg1, Print.free_prt,
    and_true]
  refine ⟨?_, ?_, ?_, ?_, ?_, ?_, ?_, ?_, ?_, ?_⟩ <;> intros <;> refine key_ne ?_ <;>
    simp only [R.CMD_VIOL.REPEAT, R.CMD_VIOL.OFS, R.CMD_VIOL.PORT, R.CMD_VIOL.KIND, R.CMD_VIOL.OPCODE, R.CMD_VIOL.STATUS,
      R.CMD_VIOL.TIME, R.CMD_VIOL_STAT.COUNT, R.CMD_VIOL_STAT.LOST, R.CMD_NOTIFY] <;> omega

/-- The violation log holds one entry: of a port, a kind, an offset (R573). -/
structure LoggedFirst (t : State) (p k o : Nat) : Prop where
  count : get t R.CMD_VIOL_STAT.COUNT = 1
  port : get t (R.CMD_VIOL.PORT 0) = p % 2 ^ 4
  kind : get t (R.CMD_VIOL.KIND 0) = k % 2 ^ 2
  ofs : get t (R.CMD_VIOL.OFS 0) = o % 2 ^ 22
  status : get t (R.CMD_VIOL.STATUS 0) = violStatus k % 2 ^ 8

/-- A violation that finds the log empty is its first entry. -/
theorem violation_loggedFirst {s : State} (h : get s R.CMD_VIOL_STAT.COUNT = 0) (p k o c : Nat) :
    LoggedFirst (violation p k o c s) p k o := by
  unfold violation
  simp only [h, ne_eq, not_true_eq_false, false_and, if_false, show 0 < 32 by decide, if_true]
  constructor
  all_goals
    rw [get_notifyAll fun q => key_ne (by simp only [R.CMD_NOTIFY]; decide)]
    simp (disch := decide) only [get_put_ne, get_put_self]
    rfl

/-- The log is as before at the end of the command that answers. -/
theorem LoggedFirst.finish_respond {t : State} {p k o : Nat} (h : LoggedFirst t p k o) (q d : Nat) (e : Bool) :
    LoggedFirst (finish (respond q d e t)) p k o := by
  constructor
  all_goals rw [get_finish (by decide) (by decide), get_respond]
  exacts [h.count, h.port, h.kind, h.ofs, h.status]

end Sys2Proof.Machine

/-! Writes of a word of registers (R16, R20). -/

namespace Sys2Proof.Machine

@[simp] theorem get_scanFollows (l : List Field) (s : State) (g : Field) : get (scanFollows l s) g = get s g := by
  unfold scanFollows
  split <;> rfl

/-- An agent that is sent settings changes no register. -/
@[simp] theorem get_settingsFollow (l : List Field) (s : State) (g : Field) : get (settingsFollow l s) g = get s g := by
  refine (foot_settingsFollow (Print.Sub.refl _) (Within.refl _ s)).get ?_
  simp only [fp_settingsFollow, fp_sendMsg, fp_sendFrame, Print.free_cons, Print.free_nil, Print.free_prt, Print.free_row, and_true]

theorem get_when {c : Bool} {f : State → State} {s : State} {g : Field} (h : get (f s) g = get s g) : get (when c f s) g = get s g := by
  cases c
  · rfl
  · exact h

theorem get_bumpGen {g : Field} (h : fieldKey R.RNG_GEN.GEN ≠ fieldKey g) (s : State) : get (bumpGen s) g = get s g :=
  get_put_ne h _ s

/-- The RW fields among some, and those that a written 1 clears. -/
def rwOf (l : List Field) : List Field := l.filter fun f => f.acc = Acc.rw
def w1cOf (l : List Field) : List Field := l.filter fun f => f.acc = Acc.w1c

/-- What a write leaves in a register where no field is rejected and nothing follows from its offset: each RW field is set, each
W1C field cleared, and of the rest only the configuration generation counts. -/
theorem get_writeFields {p off v : Nat} {s : State} {g : Field} (hok : ∀ f ∈ rwOf (fieldsAt p off), rejects s off v f = false)
    (hafter : ∀ s0 t, afterWrite s0 off t = t) (hg : fieldKey R.RNG_GEN.GEN ≠ fieldKey g) :
    get (writeFields p off v s) g = get (each (w1cOf (fieldsAt p off)) (fun f => clearField (carried off v f) f)
      (scanFollows (rwOf (fieldsAt p off)) (each (rwOf (fieldsAt p off)) (fun f => put f (carried off v f)) s))) g := by
  have hgood : (rwOf (fieldsAt p off)).filter (fun f => !rejects s off v f) = rwOf (fieldsAt p off) :=
    List.filter_eq_self.2 fun f hf => by rw [hok f hf, Bool.not_false]
  simp only [rwOf] at hgood
  simp only [writeFields, hgood, rwOf, w1cOf, lt_irrefl, decide_false, when_false, get_respond, get_settingsFollow]
  rw [get_when (hafter s _ ▸ rfl), get_when (get_bumpGen hg _)]

/-- A write whose only field is rejected is a violation of kind VALUE and has no other effect (R20). -/
theorem writeFields_rejected {p off v : Nat} {s : State} {f : Field} (hf : fieldsAt p off = [f]) (hrw : f.acc = Acc.rw)
    (hbad : rejects s off v f = true) : writeFields p off v s = respond p 0 false (violation p 2 off 0 s) := by
  have hscan : scanFollows [] s = s := by simp [scanFollows, setBoot]
  have hsend : settingsFollow [] s = s := by simp [settingsFollow]
  simp [writeFields, hf, hrw, hbad, hscan, hsend]

/-- An aligned word that a port may write is judged by its offset (R548, R682). -/
theorem effRegisterWrite_of_writes {s : State} {p off : Nat} (h : Writes s p off) (v : Nat) :
    effRegisterWrite p off v s = writeAt p off (v % 2 ^ 32) (touch p s) := by
  obtain ⟨hp, hoff, hans, hok⟩ := h
  simp only [effRegisterWrite, access, if_neg (Nat.not_le.2 hoff), if_neg (Nat.not_le.2 hp), hans, if_true, violates_touch, hok,
    Bool.false_eq_true, if_false]

/-- A word that a port may not write is a violation of kind 1 (R548, R572). -/
theorem effRegisterWrite_of_violates {s : State} {p off : Nat} (hp : p < 10) (hoff : off < 2 ^ 22) (hans : answers s p off = true)
    (hbad : violates s p off true 4 = true) (v : Nat) :
    effRegisterWrite p off v s = respond p 0 true (violation p 1 off 0 (touch p s)) := by
  simp only [effRegisterWrite, access, if_neg (Nat.not_le.2 hoff), if_neg (Nat.not_le.2 hp), hans, if_true, violates_touch, hbad]

/-! The words of SAF_WDT, HNG_EVENT and CLK_CFG. -/

theorem fieldsAt_SAF_WDT (p : Nat) : fieldsAt p 0x160108 = [R.SAF_WDT.TIMEOUT_MS] := by rfl
theorem fieldsAt_HNG_EVENT (p : Nat) : fieldsAt p 0x0E000C = [R.HNG_EVENT] := by rfl
theorem fieldsAt_CLK_CFG (p : Nat) : fieldsAt p 0x010008 = [R.CLK_CFG.COAST_BOOT, R.CLK_CFG.AUTO_RELOCK, R.CLK_CFG.GATE_DIS] := by rfl

theorem writeAt_SAF_WDT (p v : Nat) (s : State) : writeAt p 0x160108 v s = writeFields p 0x160108 v s := by simp [writeAt]
theorem writeAt_HNG_EVENT (p v : Nat) (s : State) : writeAt p 0x0E000C v s = writeFields p 0x0E000C v s := by simp [writeAt]
theorem writeAt_CLK_CFG (p v : Nat) (s : State) : writeAt p 0x010008 v s = writeFields p 0x010008 v s := by simp [writeAt]

theorem afterWrite_SAF_WDT (s0 t : State) : afterWrite s0 0x160108 t = t := by simp [afterWrite]
theorem afterWrite_HNG_EVENT (s0 t : State) : afterWrite s0 0x0E000C t = t := by simp [afterWrite]
theorem afterWrite_CLK_CFG (s0 t : State) : afterWrite s0 0x010008 t = t := by simp [afterWrite]

/-- The words of SAF_WDT and CLK_CFG stand in no relation, and nothing but their tables bounds their fields. -/
theorem rejects_eq_bounds {off : Nat} (hoff : off = 0x160108 ∨ off = 0x010008) {f : Field} (hf : f.off = off) (hs : f.signed = false)
    (s : State) (v : Nat) : rejects s off v f = decide ((carried off v f : Int) < f.min ∨ f.max < carried off v f) := by
  have hrel : relationsAt off = [] := by rcases hoff with rfl | rfl <;> rfl
  have hne : ∀ g : Field, g.off ≠ 0x160108 ∧ g.off ≠ 0x010008 → f ≠ g := by
    rintro g ⟨h1, h2⟩ rfl
    exact hoff.elim (hf ▸ h1) (hf ▸ h2)
  have h1 := hne R.FIL_WARM.LEVEL (by decide)
  have h2 := hne R.THM_XCHK.RET (by decide)
  have h3 := hne R.LPE_INJ_AMP.AMP (by decide)
  have h4 := hne R.LPE_INJ_CFG.POINT (by decide)
  have h5 := hne R.LPE_INJ_AMP.SETTLE (by decide)
  have h6 := hne R.LPE_INJ_CFG.MODE (by decide)
  have h7 := hne R.BOOT_GSTATE.REQ (by decide)
  simp only [rejects, breaksRelation, hrel, List.any_nil, Bool.or_false, breaksBound, codeValue, hs, hf, h1, h2, h3, h4, h5, h6, h7]
  rcases hoff with rfl | rfl <;> simp

/-- SAF_WDT.TIMEOUT_MS takes 1 to 1000 (R20, R639). -/
theorem rejects_SAF_WDT (s : State) (v : Nat) :
    rejects s 0x160108 v R.SAF_WDT.TIMEOUT_MS = decide (v % 1024 = 0 ∨ 1000 < v % 1024) := by
  rw [rejects_eq_bounds (.inl rfl) rfl rfl, decide_eq_decide]
  have hv : carried 0x160108 v R.SAF_WDT.TIMEOUT_MS = v % 1024 := by simp [carried, bits, R.SAF_WDT.TIMEOUT_MS]
  rw [hv]
  simp only [R.SAF_WDT.TIMEOUT_MS]
  omega

/-- The bits of CLK_CFG take both values. -/
theorem rejects_CLK_CFG (s : State) (v : Nat) {f : Field} (hf : f ∈ fieldsAt 0 0x010008) : rejects s 0x010008 v f = false := by
  rw [fieldsAt_CLK_CFG] at hf
  simp only [List.mem_cons, List.not_mem_nil, or_false] at hf
  rcases hf with rfl | rfl | rfl
  all_goals
    rw [rejects_eq_bounds (.inr rfl) rfl rfl, decide_eq_false_iff_not]
    simp only [carried, bits, R.CLK_CFG.COAST_BOOT, R.CLK_CFG.AUTO_RELOCK, R.CLK_CFG.GATE_DIS]
    omega

end Sys2Proof.Machine

/-! Reads that latch (R19, R602). -/

namespace Sys2Proof.Machine

/-- A latched word reads the word latched, and one more in its cell (R19). -/
theorem sget_latch_self (p off v : Nat) (s : State) : sget 0 (p * 2 ^ 22 + off) (latch p off v s).host.latches = v + 1 := by
  simp only [latch, setHost, sget_sset_self]

/-- A port that reads what is no partition's resource reads nothing foreign (R503). -/
theorem foreignRead_of_package {s : State} {p off : Nat} (h : resourcePart s p off = none) : foreignRead s p off = false := by
  simp only [foreignRead, h, Bool.and_false]

/-- Registers below those of the estimator, and the windows above the capture buffer, belong to the package. -/
theorem foreignRead_low (s : State) (p : Nat) {off : Nat} (h : off < 0x061000) : foreignRead s p off = false := by
  refine foreignRead_of_package ?_
  simp only [resourcePart]
  repeat rw [if_neg (by omega)]

theorem foreignRead_window (s : State) (p : Nat) {off : Nat} (h : 0x300000 ≤ off) : foreignRead s p off = false := by
  refine foreignRead_of_package ?_
  simp only [resourcePart]
  repeat rw [if_neg (by omega)]

theorem maskedRead_low (s : State) (p : Nat) {off : Nat} (h : off < 0x061000) : maskedRead s p off = false := by
  simp only [maskedRead]
  repeat rw [if_neg (by omega)]

theorem maskedRead_window (s : State) (p : Nat) {off : Nat} (h : 0x300000 ≤ off) : maskedRead s p off = false := by
  simp only [maskedRead]
  repeat rw [if_neg (by omega)]

/-- An aligned read of what is no foreign resource is answered with its word (R503, R548). -/
theorem effRead_of_answers {s : State} {p off : Nat} (hp : p < 10) (hans : answers s p off = true) (ha : off % 4 = 0)
    (hf : foreignRead s p off = false) :
    effRead p off s = respond p (readAccess p off (touch p s)).1 false (readAccess p off (touch p s)).2 := by
  simp only [effRead, access, if_neg (Nat.not_le.2 hp), hans, if_true, foreignRead_touch, hf, ha, ne_eq, not_true_eq_false,
    Bool.false_eq_true, or_self, if_false]

/-! CLK_TIME. -/

theorem fieldsAt_CLK_TIME_low (p : Nat) : fieldsAt p 0x010010 = [R.CLK_TIME.COUNT] := by rfl
theorem fieldsAt_CLK_TIME_high (p : Nat) : fieldsAt p 0x010014 = [R.CLK_TIME.COUNT] := by rfl

/-- CLK_TIME is shown as it is to every port (R525). -/
theorem shownField_CLK_TIME (s : State) : shownField s R.CLK_TIME.COUNT = now s := by
  have hplain : ∀ v, coarse s R.CLK_TIME.COUNT v = v := by
    intro v
    have hoff : R.CLK_TIME.COUNT.off = 0x010010 := rfl
    have hconf : confZeroDie 0x010010 = none := by decide
    have hne : R.CLK_TIME.COUNT ≠ R.CAP_PKG_P.P ∧ R.CLK_TIME.COUNT ≠ R.CAP_POOL.I ∧ R.CLK_TIME.COUNT ≠ R.CAP_PKG_PAVG.P ∧
      R.CLK_TIME.COUNT ≠ R.CAP_E_SYS.ENERGY ∧ R.CLK_TIME.COUNT ≠ R.FIL_SYS_E.ENERGY := by decide
    simp only [coarse, hoff, hconf]
    simp [hne]
  exact hplain _

theorem readWordAt_CLK_TIME_low (s : State) (p : Nat) : readWordAt s p 0x010010 = now s % 2 ^ 32 := by
  have hlow : 0x010010 < 0x061000 := by decide
  simp only [readWordAt, foreignRead_low s p hlow, maskedRead_low s p hlow, regWord, fieldsAt_CLK_TIME_low,
    List.foldl_cons, List.foldl_nil, shownField_CLK_TIME]
  simp [placed, R.CLK_TIME.COUNT]

theorem readWordAt_CLK_TIME_high (s : State) (p : Nat) : readWordAt s p 0x010014 = now s % 2 ^ 64 / 2 ^ 32 := by
  have hlow : 0x010014 < 0x061000 := by decide
  simp only [readWordAt, foreignRead_low s p hlow, maskedRead_low s p hlow, regWord, fieldsAt_CLK_TIME_high,
    List.foldl_cons, List.foldl_nil, shownField_CLK_TIME]
  simp [placed, R.CLK_TIME.COUNT, Nat.shiftRight_eq_div_pow]
  omega

/-- The low word of CLK_TIME, not latched itself, latches the high word (R19). -/
theorem readAccess_CLK_TIME_low {s : State} {p : Nat} (h : sget 0 (p * 2 ^ 22 + 0x010010) s.host.latches = 0) :
    readAccess p 0x010010 s = (now s % 2 ^ 32, latch p 0x010014 (now s % 2 ^ 64 / 2 ^ 32) s) := by
  have hlow : isLow64 p 0x010010 = true := by simp only [isLow64, fieldsAt_CLK_TIME_low]; decide
  simp only [readAccess, h]
  rw [if_neg (by decide), if_neg (by decide), if_neg (by decide), if_neg (by decide), if_pos hlow, readWordAt_CLK_TIME_low,
    readWordAt_CLK_TIME_high]

/-- A latched word is read from its latch, which is then empty (R19). -/
theorem readAccess_CLK_TIME_high {s : State} {p x : Nat} (h : sget 0 (p * 2 ^ 22 + 0x010014) s.host.latches = x + 1) :
    readAccess p 0x010014 s = (x, setHost { s.host with latches := sset 0 (p * 2 ^ 22 + 0x010014) 0 s.host.latches } s) := by
  simp only [readAccess, h]
  rw [if_neg (by decide), if_neg (by decide), if_neg (by decide), if_pos (Nat.succ_ne_zero x), Nat.add_sub_cancel]

/-! The recorder window. -/

theorem leNat_leBytes_four (v : Nat) : leNat (leBytes 4 v) = v % 2 ^ 32 := by
  simp only [leBytes_four, leNat, Nat.shiftRight_eq_div_pow]
  omega

theorem leBytes_eight (v : Nat) : leBytes 8 v = leBytes 4 v ++ leBytes 4 (v / 2 ^ 32) := by
  simp [leBytes, List.range_succ, Nat.shiftRight_eq_div_pow, Nat.div_div_eq_div_mul]

/-- The first two words of a record's bytes are its TIME (R593). -/
theorem recordBytes_time_low (r : Record) (m : Nat) : leNat ((recordBytes r m).take 4) = r.time % 2 ^ 32 := by
  rw [← leNat_leBytes_four, recordBytes, leBytes_eight, leBytes_four r.time]
  rfl

theorem recordBytes_time_high (r : Record) (m : Nat) : leNat (((recordBytes r m).drop 4).take 4) = r.time / 2 ^ 32 % 2 ^ 32 := by
  rw [← leNat_leBytes_four, recordBytes, leBytes_eight, leBytes_four r.time, leBytes_four (r.time / 2 ^ 32)]
  rfl

/-- A word of a record in a port's window, as a port that may read the record sees it (R601, R603). -/
theorem readWordAt_record {s : State} {p k o : Nat} {r : Record} (hk : k < 64) (ho : o < 0x40) (hc : get s R.REC_STAT.CLEARING = 0)
    (hi : get s (R.REC_CURSOR.INDEX p) + k < 16384) (hr : s.log.recs[get s (R.REC_CURSOR.INDEX p) + k]? = some r)
    (hm : mayReadRecord s p r = true) :
    readWordAt s p (0x380000 + 0x40 * k + o) = leNat (((recordBytes r 0xA5).drop o).take 4) := by
  have hplace : (0x380000 + 0x40 * k + o - 0x380000) / 0x40 = k ∧ (0x380000 + 0x40 * k + o) % 0x40 = o := by omega
  have hwindow : 0x300000 ≤ 0x380000 + 0x40 * k + o := by omega
  have hword : readWordAt s p (0x380000 + 0x40 * k + o) = recorderWord s p (0x380000 + 0x40 * k + o) := by
    simp only [readWordAt, foreignRead_window s p hwindow, maskedRead_window s p hwindow, Bool.or_self, Bool.false_eq_true, if_false]
    rw [if_neg (by omega), if_neg (by omega), if_neg (by omega), if_neg (by omega), if_pos (by omega)]
  rw [hword]
  simp only [recorderWord, hplace, isOn, hc, hr, hm, hi]
  simp

/-- A read of the low word of a record's TIME latches its high word (R602). -/
theorem readAccess_record {s : State} {p k : Nat} {r : Record} (hk : k < 64) (hc : get s R.REC_STAT.CLEARING = 0)
    (hi : get s (R.REC_CURSOR.INDEX p) + k < 16384) (hr : s.log.recs[get s (R.REC_CURSOR.INDEX p) + k]? = some r)
    (hm : mayReadRecord s p r = true) :
    readAccess p (0x380000 + 0x40 * k) s =
      (r.time % 2 ^ 32, latch p (0x380000 + 0x40 * k + 4) (r.time / 2 ^ 32 % 2 ^ 32) s) := by
  have hlow := readWordAt_record hk (show 0 < 0x40 by decide) hc hi hr hm
  have hhigh := readWordAt_record hk (show 4 < 0x40 by decide) hc hi hr hm
  rw [List.drop_zero, recordBytes_time_low, Nat.add_zero] at hlow
  rw [recordBytes_time_high] at hhigh
  simp only [readAccess, hlow, hhigh]
  rw [if_neg (by omega), if_neg (by omega), if_pos (by omega), if_pos (by omega)]

end Sys2Proof.Machine

/-! The clauses of O33: each command, carried to the end of its meaning. -/

namespace Sys2Proof.Machine

/-- ACCESS_VIOLATION, R548, R573: the access is answered with an error and logged. -/
theorem accessViolation_logged {s : State} {p off n : Nat} {w : Bool} (v : Nat) (hp : p < 10) (hans : answers s p off = true)
    (hbad : violates s p off w n = true) (hlog : get s R.CMD_VIOL_STAT.COUNT = 0) :
    ∃ t, exec (.accessViolation p off w n v) s = .next t ∧ t.resp = [⟨p, 0, true⟩] ∧ get t R.CMD_VIOL_STAT.COUNT = 1 ∧
      get t (R.CMD_VIOL.PORT 0) = p ∧ get t (R.CMD_VIOL.KIND 0) = b2n w ∧ get t (R.CMD_VIOL.OFS 0) = off % 2 ^ 22 ∧
      get t (R.CMD_VIOL.STATUS 0) = 6 := by
  have heff : effAccessViolation p off w n v s = respond p 0 true (violation p (b2n w) off 0 (touch p s)) := by
    simp [effAccessViolation, Nat.not_le.2 hp, hans, hbad]
  have hfirst := violation_loggedFirst (s := touch p s) hlog p (b2n w) off 0
  obtain ⟨hcount, hport, hkind, hofs, hstatus⟩ := hfirst.finish_respond p 0 true
  refine ⟨_, rfl, ?_⟩
  rw [heff, resp_finish]
  refine ⟨rfl, hcount, hport.trans (Nat.mod_eq_of_lt (by omega)), hkind.trans ?_, hofs, hstatus.trans ?_⟩
  · cases w <;> rfl
  · cases w <;> rfl

/-- ACCESS_VIOLATION, R549: a window that does not answer returns all ones, and nothing is logged. -/
theorem accessViolation_unanswered {s : State} {p off : Nat} (w : Bool) (n v : Nat) (hp : p < 10) (hans : answers s p off = false) :
    ∃ t, exec (.accessViolation p off w n v) s = .next t ∧ t.resp = [⟨p, 0xFFFFFFFF, true⟩] ∧
      get t R.CMD_VIOL_STAT.COUNT = get s R.CMD_VIOL_STAT.COUNT := by
  have heff : effAccessViolation p off w n v s = noAnswer p s := by simp [effAccessViolation, Nat.not_le.2 hp, hans]
  refine ⟨_, rfl, ?_⟩
  rw [heff, resp_finish, get_finish (by decide) (by decide)]
  exact ⟨rfl, rfl⟩

/-- REGISTER_WRITE, R548, R572: a write outside the port's authority. -/
theorem registerWrite_logged {s : State} {p off : Nat} (v : Nat) (hp : p < 10) (hoff : off < 2 ^ 22) (hans : answers s p off = true)
    (hbad : violates s p off true 4 = true) (hlog : get s R.CMD_VIOL_STAT.COUNT = 0) :
    ∃ t, exec (.registerWrite p off v) s = .next t ∧ t.resp = [⟨p, 0, true⟩] ∧ get t (R.CMD_VIOL.KIND 0) = 1 ∧
      get t (R.CMD_VIOL.OFS 0) = off := by
  have hfirst := (violation_loggedFirst (s := touch p s) hlog p 1 off 0).finish_respond p 0 true
  refine ⟨_, rfl, ?_⟩
  rw [effRegisterWrite_of_violates hp hoff hans hbad, resp_finish]
  exact ⟨rfl, hfirst.kind, hfirst.ofs.trans (Nat.mod_eq_of_lt hoff)⟩

/-- REGISTER_WRITE, R16: an RW field takes a value within its bounds. -/
theorem registerWrite_SAF_WDT_taken {s : State} {p v : Nat} (hw : Writes s p 0x160108) (hlo : 1 ≤ v % 1024) (hhi : v % 1024 ≤ 1000) :
    ∃ t, exec (.registerWrite p 0x160108 v) s = .next t ∧ get t R.SAF_WDT.TIMEOUT_MS = v % 1024 ∧ t.resp = [⟨p, 0, false⟩] ∧
      get t R.CMD_VIOL_STAT.COUNT = get s R.CMD_VIOL_STAT.COUNT := by
  have hrw : rwOf (fieldsAt p 0x160108) = [R.SAF_WDT.TIMEOUT_MS] := by rw [fieldsAt_SAF_WDT]; decide
  have hw1c : w1cOf (fieldsAt p 0x160108) = [] := by rw [fieldsAt_SAF_WDT]; decide
  have hok : ∀ f ∈ rwOf (fieldsAt p 0x160108), rejects (touch p s) 0x160108 (v % 2 ^ 32) f = false := by
    rw [hrw, List.forall_mem_singleton, rejects_SAF_WDT, decide_eq_false_iff_not]
    omega
  refine ⟨_, rfl, ?_⟩
  rw [effRegisterWrite_of_writes hw, writeAt_SAF_WDT, resp_finish, get_finish (by decide) (by decide), get_finish (by decide) (by decide),
    get_writeFields hok afterWrite_SAF_WDT (by decide), get_writeFields hok afterWrite_SAF_WDT (by decide)]
  simp only [hrw, hw1c, each_cons, each_nil, get_scanFollows]
  refine ⟨?_, rfl, get_put_ne (by decide) _ _⟩
  rw [get_put_self (by decide), carried, bits_mod_word (by decide)]
  simp [bits, R.SAF_WDT.TIMEOUT_MS]

/-- REGISTER_WRITE, R20: a value outside the bounds of an RW field leaves it, and is logged with kind VALUE. -/
theorem registerWrite_SAF_WDT_rejected {s : State} {p v : Nat} (hw : Writes s p 0x160108) (hbad : v % 1024 = 0 ∨ 1000 < v % 1024)
    (hlog : get s R.CMD_VIOL_STAT.COUNT = 0) :
    ∃ t, exec (.registerWrite p 0x160108 v) s = .next t ∧ get t R.SAF_WDT.TIMEOUT_MS = get s R.SAF_WDT.TIMEOUT_MS ∧
      t.resp = [⟨p, 0, false⟩] ∧ get t R.CMD_VIOL_STAT.COUNT = 1 ∧ get t (R.CMD_VIOL.KIND 0) = 2 := by
  have hrej : rejects (touch p s) 0x160108 (v % 2 ^ 32) R.SAF_WDT.TIMEOUT_MS = true := by
    rw [rejects_SAF_WDT, decide_eq_true_eq]
    omega
  have hfirst := (violation_loggedFirst (s := touch p s) hlog p 2 0x160108 0).finish_respond p 0 false
  refine ⟨_, rfl, ?_⟩
  rw [effRegisterWrite_of_writes hw, writeAt_SAF_WDT, writeFields_rejected (fieldsAt_SAF_WDT p) rfl hrej, resp_finish]
  refine ⟨?_, rfl, hfirst.count, hfirst.kind⟩
  rw [get_finish (by decide) (by decide), get_respond, get_violation (by decide) (by decide), get_touch]

/-- REGISTER_WRITE, R16: a written 1 clears a W1C bit, a written 0 leaves it. -/
theorem registerWrite_HNG_EVENT {s : State} {p : Nat} (v : Nat) (hw : Writes s p 0x0E000C) :
    ∃ t, exec (.registerWrite p 0x0E000C v) s = .next t ∧ t.resp = [⟨p, 0, false⟩] ∧
      ∀ b < 9, bit (get t R.HNG_EVENT) b = (bit (get s R.HNG_EVENT) b && !bit v b) := by
  have hrw : rwOf (fieldsAt p 0x0E000C) = [] := by rw [fieldsAt_HNG_EVENT]; decide
  have hw1c : w1cOf (fieldsAt p 0x0E000C) = [R.HNG_EVENT] := by rw [fieldsAt_HNG_EVENT]; decide
  have hok : ∀ f ∈ rwOf (fieldsAt p 0x0E000C), rejects (touch p s) 0x0E000C (v % 2 ^ 32) f = false := by
    rw [hrw]
    exact List.forall_mem_nil _
  have hcarried : carried 0x0E000C (v % 2 ^ 32) R.HNG_EVENT = v % 2 ^ 9 := bits_mod_word (lo := 0) (by decide) v
  refine ⟨_, rfl, ?_⟩
  rw [effRegisterWrite_of_writes hw, writeAt_HNG_EVENT, resp_finish, get_finish (by decide) (by decide),
    get_writeFields hok afterWrite_HNG_EVENT (by decide)]
  simp only [hrw, hw1c, each_cons, each_nil, hcarried]
  have hne : R.HNG_EVENT ≠ R.SAF_FAULT := by decide
  simp only [clearField, clears, hne, if_false, get_scanFollows]
  rw [get_put_self (by decide), get_touch]
  refine ⟨rfl, fun b hb => ?_⟩
  have h9 : b < R.HNG_EVENT.w := hb
  rw [bit_mod_two_pow h9, bit_bitsClear, bit_mod_two_pow hb]

/-- AUTO_RELOCK_WRITE, R79: a write of CLK_CFG sets its three bits. -/
theorem autoRelockWrite_CLK_CFG {s : State} {p : Nat} (v : Nat) (hw : Writes s p 0x010008) :
    ∃ t, exec (.autoRelockWrite p v) s = .next t ∧ get t R.CLK_CFG.COAST_BOOT = bits v 0 1 ∧ get t R.CLK_CFG.AUTO_RELOCK = bits v 1 1 ∧
      get t R.CLK_CFG.GATE_DIS = bits v 2 1 ∧ t.resp = [⟨p, 0, false⟩] := by
  have hrw : rwOf (fieldsAt p 0x010008) = [R.CLK_CFG.COAST_BOOT, R.CLK_CFG.AUTO_RELOCK, R.CLK_CFG.GATE_DIS] := by
    rw [fieldsAt_CLK_CFG]; decide
  have hw1c : w1cOf (fieldsAt p 0x010008) = [] := by rw [fieldsAt_CLK_CFG]; decide
  have hok : ∀ f ∈ rwOf (fieldsAt p 0x010008), rejects (touch p s) 0x010008 (v % 2 ^ 32) f = false := by
    rw [hrw]
    exact fun f hf => rejects_CLK_CFG _ _ (fieldsAt_CLK_CFG 0 ▸ hf)
  have hread : ∀ g, fieldKey R.RNG_GEN.GEN ≠ fieldKey g → fieldKey R.REC_LOST.COUNT ≠ fieldKey g → fieldKey R.REC_EVENT ≠ fieldKey g →
      get (finish (writeFields p 0x010008 (v % 2 ^ 32) (touch p s))) g =
        get (each (rwOf (fieldsAt p 0x010008)) (fun f => put f (carried 0x010008 (v % 2 ^ 32) f)) (touch p s)) g := by
    intro g hgen hlost hevent
    rw [get_finish hlost hevent, get_writeFields hok afterWrite_CLK_CFG hgen, hw1c, each_nil, get_scanFollows]
  have hbit : ∀ lo < 3, bits (v % 2 ^ 32) lo 1 % 2 ^ 1 = bits v lo 1 := fun lo hlo => by
    rw [bits_mod_word (by omega), bits, Nat.mod_mod]
  refine ⟨_, rfl, ?_⟩
  rw [effRegisterWrite_of_writes hw, writeAt_CLK_CFG, resp_finish, hread _ (by decide) (by decide) (by decide),
    hread _ (by decide) (by decide) (by decide), hread _ (by decide) (by decide) (by decide), hrw]
  simp (disch := decide) only [each_cons, each_nil, get_put_ne, get_put_self]
  exact ⟨hbit 0 (by decide), hbit 1 (by decide), hbit 2 (by decide), rfl⟩

/-- HIGH_WORD_LATCH, R19: the low word of CLK_TIME, with the high word latched. -/
theorem highWordLatch_low {s : State} {p : Nat} (hp : p < 10) (hans : answers s p 0x010010 = true)
    (hfree : sget 0 (p * 2 ^ 22 + 0x010010) s.host.latches = 0) :
    ∃ t, exec (.highWordLatch p 0x010010) s = .next t ∧ t.resp = [⟨p, now s % 2 ^ 32, false⟩] ∧
      sget 0 (p * 2 ^ 22 + 0x010014) t.host.latches = now s % 2 ^ 64 / 2 ^ 32 + 1 := by
  refine ⟨_, rfl, ?_⟩
  rw [effRead_of_answers hp hans rfl (foreignRead_low s p (by decide)), readAccess_CLK_TIME_low (s := touch p s) hfree, resp_finish,
    host_finish]
  exact ⟨rfl, sget_latch_self p 0x010014 _ (touch p s)⟩

/-- HIGH_WORD_LATCH, R19: the high word as it was latched, and once only. -/
theorem highWordLatch_high {s : State} {p x : Nat} (hp : p < 10) (hans : answers s p 0x010014 = true)
    (hlatched : sget 0 (p * 2 ^ 22 + 0x010014) s.host.latches = x + 1) :
    ∃ t, exec (.highWordLatch p 0x010014) s = .next t ∧ t.resp = [⟨p, x, false⟩] ∧
      sget 0 (p * 2 ^ 22 + 0x010014) t.host.latches = 0 := by
  refine ⟨_, rfl, ?_⟩
  rw [effRead_of_answers hp hans rfl (foreignRead_low s p (by decide)), readAccess_CLK_TIME_high (s := touch p s) hlatched, resp_finish,
    host_finish]
  exact ⟨rfl, by simp only [respond, setHost, sget_sset_self]⟩

/-- RECORD_READ_LATCH, R602: the low word of a record's TIME, with the high word latched. -/
theorem recordReadLatch_time {s : State} {p k : Nat} {r : Record} (hp : p < 10) (hk : k < 64)
    (hans : answers s p (0x380000 + 0x40 * k) = true) (hc : get s R.REC_STAT.CLEARING = 0)
    (hi : get s (R.REC_CURSOR.INDEX p) + k < 16384) (hr : s.log.recs[get s (R.REC_CURSOR.INDEX p) + k]? = some r)
    (hm : mayReadRecord s p r = true) :
    ∃ t, exec (.recordReadLatch p (0x380000 + 0x40 * k)) s = .next t ∧ t.resp = [⟨p, r.time % 2 ^ 32, false⟩] ∧
      sget 0 (p * 2 ^ 22 + (0x380000 + 0x40 * k + 4)) t.host.latches = r.time / 2 ^ 32 % 2 ^ 32 + 1 := by
  refine ⟨_, rfl, ?_⟩
  rw [effRead_of_answers hp hans (by omega) (foreignRead_window s p (by omega)), readAccess_record (s := touch p s) hk hc hi hr hm,
    resp_finish, host_finish]
  exact ⟨rfl, sget_latch_self p (0x380000 + 0x40 * k + 4) _ (touch p s)⟩

/-- Settles O33, a lemma for each clause. -/
theorem accessesJudged : Obligations.AccessesJudged :=
  ⟨fun _ _ _ _ _ v hp hans hbad hlog => accessViolation_logged v hp hans hbad hlog,
    fun _ _ _ w n v hp hans => accessViolation_unanswered w n v hp hans,
    fun _ _ _ v hp hoff hans hbad hlog => registerWrite_logged v hp hoff hans hbad hlog,
    fun _ _ _ hw hlo hhi => registerWrite_SAF_WDT_taken hw hlo hhi,
    fun _ _ _ hw hbad hlog => registerWrite_SAF_WDT_rejected hw hbad hlog,
    fun _ _ v hw => registerWrite_HNG_EVENT v hw,
    fun _ _ v hw => autoRelockWrite_CLK_CFG v hw,
    fun _ _ hp hans hfree => highWordLatch_low hp hans hfree,
    fun _ _ _ hp hans hlatched => highWordLatch_high hp hans hlatched,
    fun _ _ _ _ hp hk hans hc hi hr hm => recordReadLatch_time hp hk hans hc hi hr hm⟩

end Sys2Proof.Machine

/-! Frames of the agent links: what is accepted, and what each kind does (R37, R660 to R662). -/

namespace Sys2Proof.Machine

/-- A link whose receiver has accepted the number q: it is remembered, and was sent (R662). -/
def acceptedLink (up : Bool) (l : LinkD) (q : Nat) : LinkD :=
  if up then { l with upSeq := some q, upSent := if seqAhead (some l.upSent) q then q else l.upSent }
  else { l with downSeq := some q, downSent := if seqAhead (some l.downSent) q then q else l.downSent }

@[simp] theorem acceptedLink_upSeq (l : LinkD) (q : Nat) : (acceptedLink true l q).upSeq = some q := rfl
@[simp] theorem acceptedLink_downSeq (l : LinkD) (q : Nat) : (acceptedLink false l q).downSeq = some q := rfl

/-- An accepted frame has its effect once its number is remembered. -/
theorem acceptFrame_of_accepts {s : State} {up : Bool} {ty d : Nat} {fr : Frame} (h : Accepts s up ty d fr) (f : State → State) :
    acceptFrame up ty d fr f s = f (setLink d (acceptedLink up (linkOf s d) (frameSeq fr.bytes)) s) := by
  obtain ⟨hpresent, htrained, hlost, hlane, hservice, hgood, hahead⟩ := h
  cases up
  all_goals
    simp only [Bool.false_eq_true, if_false, if_true] at hahead
    simp [acceptFrame, acceptedLink, hpresent, htrained, hlost, Nat.not_le.2 hlane, hservice, hgood, hahead]

/-- A discarded frame has no effect (R37, R39, R662, R664). -/
theorem acceptFrame_of_dropped {s : State} {up : Bool} {ty d : Nat} {fr : Frame} (h : Dropped s up ty d fr) (f : State → State) :
    acceptFrame up ty d fr f s = s := by
  rcases h with hgood | hservice | hahead | hlane | hpresent | htrained | hlost
  case inr.inr.inl => cases up <;> simp_all [acceptFrame]
  all_goals simp [acceptFrame, *]

/-- The end of a command leaves every table as it is. -/
theorem linkOf_finish (s : State) (d : Nat) : linkOf (finish s) d = linkOf s d :=
  linkOf_of ((Within.finish s).parts .links (by decide) (by decide)) d
theorem tokOf_finish (s : State) (d : Nat) : tokOf (finish s) d = tokOf s d :=
  tokOf_of ((Within.finish s).parts .tok (by decide) (by decide)) d
theorem itnOf_finish (s : State) (d : Nat) : itnOf (finish s) d = itnOf s d :=
  itnOf_of ((Within.finish s).parts .itn (by decide) (by decide)) d

@[simp] theorem tokOf_setLink (d e : Nat) (v : LinkD) (s : State) : tokOf (setLink d v s) e = tokOf s e := rfl
@[simp] theorem linkOf_setTok (d e : Nat) (v : TokD) (s : State) : linkOf (setTok d v s) e = linkOf s e := rfl
@[simp] theorem linkOf_setItn (d e : Nat) (v : ItnD) (s : State) : linkOf (setItn d v s) e = linkOf s e := rfl
@[simp] theorem lockedOf_setLink (d v : Nat) (l : LinkD) (s : State) : lockedOf (setLink d l s) v = lockedOf s v := rfl
@[simp] theorem floorIssue_setLink (d e : Nat) (l : LinkD) (s : State) : floorIssue (setLink d l s) e = floorIssue s e := rfl

/-- The end of a command whose frame was discarded. -/
theorem done_acceptFrame_of_dropped {s : State} {up : Bool} {ty d : Nat} {fr : Frame} (hfresh : s.log.fresh = [])
    (h : Dropped s up ty d fr) (f : State → State) : done (acceptFrame up ty d fr f s) = .next s := by
  rw [acceptFrame_of_dropped h, done, finish_same hfresh]

/-! Budgets and thresholds, down to the agent. -/

/-- A budget frame changes no link. -/
theorem linkOf_takeBudget (d kind a b e : Nat) (s : State) : linkOf (takeBudget d kind a b s) e = linkOf s e :=
  linkOf_of ((foot_takeBudget Names.any (Print.Sub.refl _) (Within.refl _ s)).parts .links (by decide) (by decide)) e

/-- An accepted BUDGET_FRAME: its number is remembered, and its kind decides what the tokens take (R307). -/
theorem budgetFrame_accepted {s : State} {d : Nat} {fr : Frame} (h : Accepts s false tyGRANT d fr) (kind a b : Nat) {t : TokD}
    (ht : tokOf (takeBudget d kind a b (setLink d (acceptedLink false (linkOf s d) (frameSeq fr.bytes)) s)) d = t) :
    ∃ u, exec (.budgetFrame d fr kind a b) s = .next u ∧ tokOf u d = t ∧ (linkOf u d).downSeq = some (frameSeq fr.bytes) := by
  refine ⟨_, rfl, ?_⟩
  rw [acceptFrame_of_accepts h, tokOf_finish, linkOf_finish, linkOf_takeBudget, linkOf_setLink]
  exact ⟨ht, acceptedLink_downSeq _ _⟩

theorem budgetFrame_share {s : State} {d : Nat} {fr : Frame} (h : Accepts s false tyGRANT d fr) (a : Nat) :
    ∃ t, exec (.budgetFrame d fr 0 a ((tokOf s d).slot + 1)) s = .next t ∧ (tokOf t d).shareNext = some (min 4095 a) ∧
      (linkOf t d).downSeq = some (frameSeq fr.bytes) := by
  obtain ⟨t, hexec, htok, hseq⟩ := budgetFrame_accepted h 0 a ((tokOf s d).slot + 1) rfl
  exact ⟨t, hexec, by simp [htok, takeBudget], hseq⟩

/-- A share for another slot than the next comes too late. -/
theorem budgetFrame_share_late {s : State} {d : Nat} {fr : Frame} (h : Accepts s false tyGRANT d fr) (a : Nat) {b : Nat}
    (hb : b ≠ (tokOf s d).slot + 1) :
    ∃ t, exec (.budgetFrame d fr 0 a b) s = .next t ∧ tokOf t d = tokOf s d ∧ (linkOf t d).downSeq = some (frameSeq fr.bytes) :=
  budgetFrame_accepted h 0 a b (by simp [takeBudget, hb])

theorem budgetFrame_budget {s : State} {d : Nat} {fr : Frame} (h : Accepts s false tyGRANT d fr) (a b : Nat) :
    ∃ t, exec (.budgetFrame d fr 1 a b) s = .next t ∧ (tokOf t d).budgetNext = some (min 4095 a, s.clk.slotPs) ∧
      (linkOf t d).downSeq = some (frameSeq fr.bytes) := by
  obtain ⟨t, hexec, htok, hseq⟩ := budgetFrame_accepted h 1 a b rfl
  exact ⟨t, hexec, by simp [htok, takeBudget], hseq⟩

theorem budgetFrame_slews {s : State} {d : Nat} {fr : Frame} (h : Accepts s false tyGRANT d fr) (a b : Nat) :
    ∃ t, exec (.budgetFrame d fr 2 a b) s = .next t ∧
      (tokOf t d).slewNext = some (lockedOf s (min 4095 a), lockedOf s (min 4095 b)) ∧ (linkOf t d).downSeq = some (frameSeq fr.bytes) := by
  obtain ⟨t, hexec, htok, hseq⟩ := budgetFrame_accepted h 2 a b rfl
  exact ⟨t, hexec, by simp [htok, takeBudget], hseq⟩

theorem budgetFrame_floor {s : State} {d : Nat} {fr : Frame} (h : Accepts s false tyGRANT d fr) (a b : Nat) :
    ∃ t, exec (.budgetFrame d fr 3 a b) s = .next t ∧ (tokOf t d).floorNext = some (lockedOf s (min 4095 a)) ∧
      (linkOf t d).downSeq = some (frameSeq fr.bytes) := by
  obtain ⟨t, hexec, htok, hseq⟩ := budgetFrame_accepted h 3 a b rfl
  exact ⟨t, hexec, by simp [htok, takeBudget], hseq⟩

theorem thresholdFrame_accepted {s : State} {d : Nat} {fr : Frame} (h : Accepts s false tyORDER d fr) (v : Nat) :
    ∃ t, exec (.thresholdFrame d fr v) s = .next t ∧ (itnOf t d).threshold = v ∧ (linkOf t d).downSeq = some (frameSeq fr.bytes) := by
  refine ⟨_, rfl, ?_⟩
  rw [acceptFrame_of_accepts h, itnOf_finish, linkOf_finish, itnOf_setItn, linkOf_setItn, linkOf_setLink]
  exact ⟨rfl, acceptedLink_downSeq _ _⟩

/-! Reports of tokens used, up to the core. -/

/-- The sums of filler energy of a die's tokens, with that of more filler booked (R327, R328). -/
def withFiller (t : TokD) (energy : Nat) : TokD :=
  { t with filAcc := (t.filAcc + energy) % fillerUnit, filCyc := t.filCyc + energy }

theorem tokOf_chargeFiller (d filler : Nat) (s : State) :
    tokOf (chargeFiller d filler s) d = withFiller (tokOf s d) (vmeas s d * get s (R.ITN_KTOK.KTOK d) * filler) := by
  simp only [chargeFiller, addWrap, tokOf, put_tok]
  exact tokOf_setTok d _ s

/-- The issue of a reported slot as the core takes it for the asks (R310). -/
def reportedIssue (s : State) (d n : Nat) : Nat :=
  if get s (R.TOK_DIE_STAT.GRANT d) = 0 then floorIssue s d else max (floorIssue s d) (min (get s (R.TOK_DIE_STAT.GRANT d)) n)

/-- A die's tokens after a report: counted in its window, with the issue and the slot of the report. -/
def reportedTokens (s : State) (d real filler : Nat) : TokD :=
  { countReport (tokOf s d) real filler with repLast := reportedIssue s d (real + filler), repSlot := (tokOf s d).slot - 1 }

theorem takeTokens_eq (d real filler : Nat) (late : Bool) (s : State) :
    takeTokens d real filler late s = when late (event R.TOK_EVENT 2) (chargeFiller d filler (setTok d (reportedTokens s d real filler) s)) := rfl

theorem tok_when_event (c : Bool) (f : Field) (b : Nat) (s : State) : (when c (event f b) s).tok = s.tok := by
  cases c
  · rfl
  · exact put_tok ..

theorem tokOf_takeTokens (d real filler : Nat) (late : Bool) (s : State) :
    ∃ energy, tokOf (takeTokens d real filler late s) d = withFiller (reportedTokens s d real filler) energy := by
  rw [takeTokens_eq, tokOf_of (tok_when_event ..), tokOf_chargeFiller, tokOf_setTok]
  exact ⟨_, rfl⟩

theorem linkOf_takeTokens (d real filler : Nat) (late : Bool) (e : Nat) (s : State) :
    linkOf (takeTokens d real filler late s) e = linkOf s e :=
  linkOf_of ((foot_takeTokens Names.any (Print.Sub.refl _) (Within.refl _ s)).parts .links (by decide) (by decide)) e

/-- An accepted TOKENS_USED_FRAME: its number is remembered, and its report is counted. -/
theorem tokensUsedFrame_accepted {s : State} {d : Nat} {fr : Frame} {real filler : Nat} (late : Bool) (h : Accepts s true tyTOKENS d fr)
    (hreal : real < 4096) (hfiller : filler < 4096) :
    ∃ t energy, exec (.tokensUsedFrame d fr real filler late) s = .next t ∧ (linkOf t d).upSeq = some (frameSeq fr.bytes) ∧
      tokOf t d = withFiller (reportedTokens s d real filler) energy := by
  obtain ⟨energy, htok⟩ := tokOf_takeTokens d real filler late (setLink d (acceptedLink true (linkOf s d) (frameSeq fr.bytes)) s)
  refine ⟨_, energy, rfl, ?_⟩
  rw [acceptFrame_of_accepts h, Nat.mod_eq_of_lt hreal, Nat.mod_eq_of_lt hfiller, linkOf_finish, linkOf_takeTokens, linkOf_setLink,
    tokOf_finish]
  exact ⟨acceptedLink_upSeq _ _, htok⟩

/-- A report without a latched window goes to the running one (R271, R342). -/
theorem countReport_running {t : TokD} (h : t.winLast = none) (real filler : Nat) :
    countReport t real filler =
      { t with usedSum := t.usedSum + real, totalSum := t.totalSum + real + filler, reports := t.reports + 1 } := by
  simp [countReport, h]

/-- A report of a slot of the latched window goes to that window (R271, R342). -/
theorem countReport_latched {t : TokD} {k : Nat} (h : t.winLast = some k) (hslot : t.slot ≤ k + 1) (real filler : Nat) :
    countReport t real filler = { t with win := (t.win.1 + real, t.win.2 + 1), tot := (t.tot.1 + real + filler, t.tot.2 + 1) } := by
  simp [countReport, h, hslot]

/-- Settles O3: an accepted frame has its effect and its number is remembered, a discarded one changes nothing. -/
theorem framesByNumber : Obligations.FramesByNumber := by
  refine ⟨fun _ _ _ a h => budgetFrame_share h a, fun _ _ _ a _ h hb => budgetFrame_share_late h a hb,
    fun _ _ _ a b h => budgetFrame_budget h a b, fun _ _ _ a b h => budgetFrame_slews h a b,
    fun _ _ _ a b h => budgetFrame_floor h a b, fun _ _ _ v h => thresholdFrame_accepted h v, ?running, ?latched,
    fun _ _ _ _ _ _ hfresh h => done_acceptFrame_of_dropped hfresh h _, fun _ _ _ _ hfresh h => done_acceptFrame_of_dropped hfresh h _,
    fun _ _ _ _ _ _ hfresh h => done_acceptFrame_of_dropped hfresh h _⟩
  case running =>
    intro s d fr real filler late h hreal hfiller hwin
    obtain ⟨t, energy, hexec, hseq, htok⟩ := tokensUsedFrame_accepted late h hreal hfiller
    exact ⟨t, hexec, hseq, by simp [htok, withFiller, reportedTokens, reportedIssue, countReport_running hwin]⟩
  case latched =>
    intro s d fr real filler late k h hreal hfiller hwin hslot
    obtain ⟨t, energy, hexec, -, htok⟩ := tokensUsedFrame_accepted late h hreal hfiller
    exact ⟨t, hexec, by simp [htok, withFiller, reportedTokens, countReport_latched hwin hslot]⟩

end Sys2Proof.Machine

/-! Events of a command, as the recorder queue has them (R597). -/

namespace Sys2Proof.Machine

theorem dieEvent_of {s u : State} (h : ∀ g, get u g = get s g) (code d arg : Nat) : dieEvent u code d arg = dieEvent s code d arg := by
  simp only [dieEvent, ownerDie, ownerBy, now, confDie, confPart, isOn, h]

/-- An event that is recorded where the recorder takes events and has room is in its queue at the end of the command. -/
theorem mem_queue_of_recordAt {s u : State} (hroom : Room s 1) (hlog : u.log = s.log) (hclk : u.clk = s.clk) (time code subj part arg : Nat) :
    ⟨code, subj, part, arg, time, subj ≠ 0x3F && confDie u subj⟩ ∈ (finish (recordAt time code subj part arg u)).log.queue := by
  obtain ⟨hstarted, hfresh, hlen⟩ := hroom
  have hrec : (recordAt time code subj part arg u).log =
      { s.log with fresh := [⟨code, subj, part, arg, time, subj ≠ 0x3F && confDie u subj⟩] } := by
    simp only [recordAt, hclk, hstarted, if_true, hlog, hfresh, List.nil_append]
  refine mem_finish_queue ?_ ?_
  · rw [hrec]
    exact hlen
  · rw [hrec]
    exact List.mem_singleton.2 rfl

theorem mem_queue_of_recordDie {s u : State} (hroom : Room s 1) (hlog : u.log = s.log) (hclk : u.clk = s.clk)
    (hget : ∀ g, get u g = get s g) (code d arg : Nat) : dieEvent s code d arg ∈ (finish (recordDie code d arg u)).log.queue := by
  rw [← dieEvent_of hget]
  exact mem_queue_of_recordAt hroom hlog hclk (now u) code d (ownerDie u d) arg

end Sys2Proof.Machine

/-! Lanes (R38, R664). -/

namespace Sys2Proof.Machine

/-- An agent that speaks changes no register. -/
theorem get_agentTells (ty d : Nat) (content : List Nat) (o : Out) (s : State) (g : Field) : get (agentTells ty d content o s) g = get s g := by
  refine (foot_agentTells Names.any (Print.Sub.refl _) (Within.refl _ s)).get ?_
  simp only [fp_agentTells, fp_sendUp, fp_sendMsg, fp_sendFrame, Print.free_cons, Print.free_nil, Print.free_prt, Print.free_row, and_true]

/-- Over a link in service the agent's next number is sent, and the core remembers it (R662). -/
theorem linkOf_agentTells {s : State} {d : Nat} (h : linkUp s d = true) (ty : Nat) (content : List Nat) (o : Out) :
    linkOf (agentTells ty d content o s) d = { linkOf s d with upSent := nextSent true s d, upSeq := some (nextSent true s d) } := by
  have hsent : linkOf (sendUp ty d content o s) d = { linkOf s d with upSent := nextSent true s d } := by
    simp only [sendUp, sendMsg, h, if_true, sendFrame]
    exact linkOf_setLink ..
  simp only [agentTells, h, if_true, linkOf_setLink, hsent]

theorem nextSent_setLink {s : State} {d : Nat} {v : LinkD} (h : v.upSent = (linkOf s d).upSent) :
    nextSent true (setLink d v s) d = nextSent true s d := by
  simp [nextSent, idleCount, lastSent, now, h]

/-- LANE_LOSS of a link whose lanes are both in service. -/
theorem laneLoss_reported {s : State} {d lane : Nat} (hd : isPresent s d = true) (htrained : (linkOf s d).trained = true)
    (hlost : (linkOf s d).lost = false) (hlane : lane < 2) (hboth : (linkOf s d).laneLost = 0) :
    ∃ t, exec (.laneLoss d lane) s = .next t ∧
      linkOf t d = { linkOf s d with laneLost := 2 ^ lane, upSent := nextSent true s d, upSeq := some (nextSent true s d) } ∧
      (Room s 1 → dieEvent s 0x0104 d lane ∈ t.log.queue) := by
  let u := setLink d { linkOf s d with laneLost := 2 ^ lane } s
  have heff : effLaneLoss d lane s = recordDie 0x0104 d lane (agentTells tyREPORT d [lane] (.laneStatus d lane) u) := by
    simp [effLaneLoss, hd, htrained, hlost, hlane, hboth, setBit, u]
  have hup : linkUp u d = true := by simp [linkUp, u, htrained, hlost]
  have hparts := (foot_agentTells (ty := tyREPORT) (content := [lane]) (o := .laneStatus d lane) (d := d) Names.any (Print.Sub.refl _)
    (Within.refl _ u)).parts
  refine ⟨_, rfl, ?_, fun hroom => ?_⟩
  · have hnext : nextSent true u d = nextSent true s d := nextSent_setLink rfl
    rw [heff, linkOf_finish, linkOf_of (recordDie_links ..), linkOf_agentTells hup, hnext, linkOf_setLink]
  · rw [heff]
    exact mem_queue_of_recordDie hroom (hparts .log (by decide) (by decide)) (hparts .clk (by decide) (by decide))
      (get_agentTells _ _ _ _ u) _ _ _

theorem laneRestore_clears {s : State} {d lane : Nat} (hd : isPresent s d = true) (hlane : lane < 2) :
    ∃ t, exec (.laneRestore d lane) s = .next t ∧ linkOf t d = { linkOf s d with laneLost := clrBit (linkOf s d).laneLost lane } := by
  refine ⟨_, rfl, ?_⟩
  rw [linkOf_finish, effLaneRestore, if_pos ⟨hd, hlane⟩, linkOf_setLink]

end Sys2Proof.Machine

/-! A link in service, of which what the two ends send one another changes the counts of sent frames alone. -/

namespace Sys2Proof.Machine

/-- From s to t die d's link, where s has it in service, changes in its counts of sent frames alone. -/
def LinkStays (d : Nat) (s t : State) : Prop :=
  (linkOf s d).lost = false → ∃ up down, linkOf t d = { linkOf s d with upSent := up, downSent := down }

namespace LinkStays

variable {d : Nat} {z s t : State}

theorem refl (d : Nat) (s : State) : LinkStays d s s := fun _ => ⟨_, _, rfl⟩

theorem trans (h : LinkStays d z s) (k : LinkStays d s t) : LinkStays d z t := by
  intro hz
  obtain ⟨u, v, hs⟩ := h hz
  obtain ⟨u', v', ht⟩ := k (by rw [hs]; exact hz)
  exact ⟨u', v', by rw [ht, hs]⟩

theorem links (h : LinkStays d z s) (hl : t.links = s.links) : LinkStays d z t := fun hz => by
  rw [linkOf_of hl]
  exact h hz

theorem within {p : Print} (h : LinkStays d z s) (hw : Within p s t) (hp : Part.links ∉ p.parts ∧ ∀ c ∈ p.cells, c.part ≠ .links) :
    LinkStays d z t := h.links (hw.parts .links hp.1 hp.2)

theorem put (h : LinkStays d z s) (f : Field) (v : Nat) : LinkStays d z (put f v s) := h.links (put_links ..)

theorem setItn (h : LinkStays d z s) (e : Nat) (v : ItnD) : LinkStays d z (setItn e v s) := h.links rfl
theorem setTok (h : LinkStays d z s) (e : Nat) (v : TokD) : LinkStays d z (setTok e v s) := h.links rfl
theorem setPins (h : LinkStays d z s) (v : Pins) : LinkStays d z (setPins v s) := h.links rfl
theorem emit (h : LinkStays d z s) (o : Out) : LinkStays d z (emit o s) := h.links rfl

theorem each {α : Type} {l : List α} {f : α → State → State} (hf : ∀ x s, LinkStays d z s → LinkStays d z (f x s))
    (h : LinkStays d z s) : LinkStays d z (each l f s) := by
  induction l generalizing s with
  | nil => exact h
  | cons x l ih => exact ih (hf x s h)

theorem when {c : Bool} {f : State → State} (hf : ∀ s, LinkStays d z s → LinkStays d z (f s)) (h : LinkStays d z s) :
    LinkStays d z (when c f s) := by
  cases c
  · exact h
  · exact hf s h

/-- Whatever either end sends. -/
theorem sendMsg (h : LinkStays d z s) (up : Bool) (m : Msg) : LinkStays d z (sendMsg up d m s) := by
  refine h.trans fun _ => ?_
  unfold Machine.sendMsg
  split
  · cases up
    · exact ⟨(linkOf s d).upSent, nextSent false s d, linkOf_setLink ..⟩
    · exact ⟨nextSent true s d, (linkOf s d).downSent, linkOf_setLink ..⟩
  · exact ⟨_, _, rfl⟩

theorem sendMsgs (h : LinkStays d z s) (up : Bool) (l : List Msg) : LinkStays d z (sendMsgs up d l s) :=
  h.each fun m _ k => k.sendMsg up m

/-- What an agent forms reaches the core while its link is in service. -/
theorem agentPut (h : LinkStays d z s) (f : Field) (v : Nat) : LinkStays d z (agentPut d f v s) := by
  refine h.trans fun hs => ?_
  have hput : Machine.agentPut d f v s = Machine.put f v s := by simp [Machine.agentPut, hs]
  exact hput ▸ (refl d s).put f v hs

theorem showReasons (h : LinkStays d z s) : LinkStays d z (showReasons d s) :=
  h.within (foot_showReasons Names.any (Print.Sub.refl _) (Within.refl _ s)) (by decide)

theorem endForced (h : LinkStays d z s) (n : Nat) : LinkStays d z (endForced d n s) :=
  h.within (foot_endForced Names.any (Print.Sub.refl _) (Within.refl _ s)) (by decide)

theorem showEmpty (h : LinkStays d z s) : LinkStays d z (showEmpty d s) :=
  h.within (foot_showEmpty Names.any (Print.Sub.refl _) (Within.refl _ s)) (by decide)

/-- The end of a cut (R287). -/
theorem endCut (h : LinkStays d z s) : LinkStays d z (endCut d s) := by
  unfold Machine.endCut
  dsimp only
  split
  · refine when (fun u k => ((k.sendMsg true _).endForced _).showReasons) (when (fun u k => ?_)
      (((h.setItn _ _).agentPut _ _).agentPut _ _))
    exact ((k.setPins _).agentPut _ _).emit _
  · exact h

/-- A site that is released (R287, R291). -/
theorem releaseSite (h : LinkStays d z s) (site : Nat) : LinkStays d z (releaseSite d site s) := by
  unfold Machine.releaseSite clearSites
  dsimp only
  split
  · split
    · exact h.endCut
    · exact (h.setItn _ _).agentPut _ _
  · exact h

/-- A site that detects (R285). -/
theorem siteDetects (h : LinkStays d z s) (site : Nat) : LinkStays d z (siteDetects d site s) := by
  unfold Machine.siteDetects
  dsimp only
  have hfired : ∀ (v : ItnD) (m : Nat), LinkStays d z (Machine.agentPut d (R.ITN_DRP_STAT.FIRED d) m (Machine.setItn d v s)) :=
    fun v m => (h.setItn d v).agentPut _ _
  split
  · exact hfired _ _
  · refine when (fun u k => ?_) (when (fun u k => k.showReasons) (((hfired _ _).agentPut _ _).setTok d _))
    exact ((k.setPins _).agentPut _ _).emit _

/-- BLIND judged again (R293). -/
theorem judgeBlind (h : LinkStays d z s) : LinkStays d z (judgeBlind d s) := by
  unfold Machine.judgeBlind
  refine agentPut (when (fun u k => when (fun v j => ?_) k) h) _ _
  exact (j.put R.ITN_EVENT _).within (foot_faultOn (Print.Sub.refl _) (Within.refl _ _)) (by decide)

/-- What the agent formed, taken over by the core (R40). -/
theorem takeOwn (h : LinkStays d z s) (own : List (Nat × Nat)) : LinkStays d z (takeOwn d own s) := by
  have htell : ∀ (o : Option Nat) (u : State), LinkStays d z u → LinkStays d z (match o with | some v => tellStep d v u | none => u) := by
    intro o u k
    cases o
    · exact k
    · exact k.links rfl
  unfold Machine.takeOwn
  dsimp only
  refine htell _ _ (judgeBlind (each (fun n u k => ?_) (when (fun u k => k.put _ _) (when (fun u k => k.put _ _)
    (when (fun u k => k.put _ _) (each (fun f u k => ?_) h))))))
  · exact (((k.put R.ITN_EVENT _).within (foot_faultOn (b := 3) (Print.Sub.refl _) (Within.refl _ _)) (by decide)).links (recordDie_links ..))
  · split
    · exact k.put _ _
    · exact k

/-- The DROOP_FORCE commands of a die go on (R296). -/
theorem resumeForced (h : LinkStays d z s) : LinkStays d z (resumeForced d s) := by
  unfold Machine.resumeForced
  refine each (fun f u k => ?_) (when (fun u k => k.endForced _) h)
  exact (k.setItn d _).siteDetects f.site

/-- All that the agent holds of the core is sent (R34). -/
theorem sendHeld (h : LinkStays d z s) : LinkStays d z (sendHeld d s) := by
  unfold Machine.sendHeld sendTokensWith
  split
  · exact (h.setTok d _).sendMsgs _ _
  · exact h

theorem showSteps (h : LinkStays d z s) : LinkStays d z (showSteps d s) :=
  h.within (foot_showSteps Names.any (Print.Sub.refl _) (Within.refl _ s)) (by decide)

theorem refreshSlot (h : LinkStays d z s) : LinkStays d z (refreshSlot d s) :=
  h.within (foot_refreshSlot Names.any (Print.Sub.refl _) (Within.refl _ s)) (by decide)

/-- The budget is formed and sent (R335). -/
theorem refit (h : LinkStays d z s) : LinkStays d z (refit d s) := by
  unfold Machine.refit sendBudget
  dsimp only
  split
  · exact LinkStays.showReasons (LinkStays.sendMsg ((LinkStays.links h (t := setCap d _ s) rfl).put _ _ |>.put _ _) false _)
  · exact h

/-- Of a link that stays in service, field by field. -/
theorem link (h : LinkStays d z t) (hz : (linkOf z d).lost = false) :
    (linkOf t d).lost = false ∧ (linkOf t d).held = (linkOf z d).held ∧ (linkOf t d).own = (linkOf z d).own ∧
      (linkOf t d).trained = (linkOf z d).trained ∧ (linkOf t d).downSeq = (linkOf z d).downSeq ∧
      (linkOf t d).upSeq = (linkOf z d).upSeq ∧ (linkOf t d).base = (linkOf z d).base := by
  obtain ⟨up, down, ht⟩ := h hz
  rw [ht]
  exact ⟨hz, rfl, rfl, rfl, rfl, rfl, rfl⟩

end LinkStays

/-! A link is lost (R39, R244, R406). -/

/-- Nothing is sent while a link is down (R34). -/
theorem sendMsg_of_lost {s : State} {d : Nat} (h : (linkOf s d).lost = true) (up : Bool) (m : Msg) : sendMsg up d m s = s := by
  simp [sendMsg, linkUp, h]

theorem linkOf_refit_of_lost {s : State} {d : Nat} (h : (linkOf s d).lost = true) : linkOf (refit d s) d = linkOf s d := by
  have hreasons : ∀ u, (showReasons d u).links = u.links := fun u =>
    (foot_showReasons Names.any (Print.Sub.refl _) (Within.refl _ u)).parts .links (by decide) (by decide)
  unfold refit
  split
  · rw [linkOf_of (hreasons _)]
    simp only [sendBudget, sendDown]
    rw [sendMsg_of_lost (by rw [linkOf_of (put_links ..), linkOf_of (put_links ..)]; exact h), linkOf_of (put_links ..),
      linkOf_of (put_links ..)]
    rfl
  · rfl

/-- The loss of a link, but for the budget that its die is left. -/
def lostLink (d : Nat) (s : State) : State :=
  s |> setLink d { linkOf s d with lost := true, held := (agentFields d).map fun f => (fieldKey f, get s f), own := [] }
    |> recordDie 0x0105 d 0 |> put (R.THM_DIE_STAT.STALE d) 1 |> showEmpty d |> abortLoad d

theorem effLinkLost_eq {s : State} {d : Nat} (hd : isPresent s d = true) (hreset : dieInReset s d = false)
    (hlost : (linkOf s d).lost = false) : effLinkLost d s = refit d (lostLink d s) := by
  simp [effLinkLost, lostLink, hd, hreset, hlost]

theorem links_abortLoad (d : Nat) (s : State) : (abortLoad d s).links = s.links :=
  (foot_abortLoad (Print.Sub.refl _) (Within.refl _ s)).parts .links (by decide) (by decide)

theorem linkOf_lostLink (s : State) (d : Nat) : linkOf (lostLink d s) d =
    { linkOf s d with lost := true, held := (agentFields d).map fun f => (fieldKey f, get s f), own := [] } := by
  unfold lostLink showEmpty putB
  rw [linkOf_of (links_abortLoad ..), linkOf_of (put_links ..), linkOf_of (put_links ..), linkOf_of (recordDie_links ..), linkOf_setLink]

/-- An aborted load reaches no register below the estimator's, and none from there to those of the ports. -/
theorem free_abortLoad {g : Field} (h : g.off * 32 + g.lo < 0x060000 * 32 ∨
    0x061000 * 32 ≤ g.off * 32 + g.lo ∧ g.off * 32 + g.lo < 0x120000 * 32) : fp_abortLoad.Free g := by
  simp only [fp_abortLoad, fp_completeAt, fp_complete, fp_dropFlight, fp_writeCompletion, fp_notify, Print.free_cons, Print.free_nil,
    Print.free_reg, Print.free_reg1, Print.free_prt, and_true, true_and]
  refine ⟨?_, ?_, ?_, ?_, ?_⟩ <;> intros <;> refine key_ne ?_ <;>
    simp only [R.EST_EVENT, R.EST_LOAD_STAT.STATUS, R.EST_LOAD_STAT.DETAIL, R.CMD_CQ_TAIL.TAIL, R.CMD_NOTIFY] <;> omega

/-- Losing a link leaves the registers that a budget is formed of. -/
theorem get_lostLink {g : Field} {d : Nat} (hstale : fieldKey (R.THM_DIE_STAT.STALE d) ≠ fieldKey g)
    (hempty : fieldKey (R.ITN_DIE_STAT.EMPTY d) ≠ fieldKey g) (habort : fp_abortLoad.Free g) (s : State) :
    get (lostLink d s) g = get s g := by
  unfold lostLink showEmpty putB
  rw [(foot_abortLoad (Print.Sub.refl _) (Within.refl _ _)).get habort, get_put_ne hempty, get_put_ne hstale, get_recordDie, get_setLink]

theorem get_lostLink_STALE (d : Nat) (s : State) : get (lostLink d s) (R.THM_DIE_STAT.STALE d) = 1 := by
  have hfree : fp_abortLoad.Free (R.THM_DIE_STAT.STALE d) := free_abortLoad (by simp only [R.THM_DIE_STAT.STALE]; omega)
  have hempty : fieldKey (R.ITN_DIE_STAT.EMPTY d) ≠ fieldKey (R.THM_DIE_STAT.STALE d) :=
    key_ne (by simp only [R.ITN_DIE_STAT.EMPTY, R.THM_DIE_STAT.STALE]; omega)
  unfold lostLink showEmpty putB
  rw [(foot_abortLoad (Print.Sub.refl _) (Within.refl _ _)).get hfree, get_put_ne hempty, get_put_self (by nofun)]
  rfl

theorem isPresent_lostLink (d e : Nat) (s : State) : isPresent (lostLink d s) e = isPresent s e := by
  have hdies : get (lostLink d s) R.GOV_CFG.N_DIES = get s R.GOV_CFG.N_DIES := by
    refine get_lostLink (key_ne ?_) (key_ne ?_) (free_abortLoad ?_) s
    all_goals simp only [R.GOV_CFG.N_DIES, R.THM_DIE_STAT.STALE, R.ITN_DIE_STAT.EMPTY]; omega
  unfold isPresent nDies
  rw [hdies]

theorem dieLost_lostLink (d : Nat) (s : State) : dieLost (lostLink d s) d = dieLost s d := by
  have hrail : ∀ r, get (lostLink d s) (R.PST_RAIL_STAT.LOST r) = get s (R.PST_RAIL_STAT.LOST r) := by
    intro r
    refine get_lostLink (key_ne ?_) (key_ne ?_) (free_abortLoad ?_) s
    all_goals simp only [R.PST_RAIL_STAT.LOST, R.THM_DIE_STAT.STALE, R.ITN_DIE_STAT.EMPTY]; omega
  simp only [dieLost, isOn, hrail]

theorem clk_lostLink (d : Nat) (s : State) : (lostLink d s).clk = s.clk := by
  have habort : ∀ u, (abortLoad d u).clk = u.clk := fun u =>
    (foot_abortLoad (Print.Sub.refl _) (Within.refl _ u)).parts .clk (by decide) (by decide)
  simp only [lostLink, showEmpty, putB, habort, put_clk, recordDie_clk, setLink_clk]

theorem floorIssue_lostLink (d : Nat) (s : State) : floorIssue (lostLink d s) d = floorIssue s d := by
  have hgrade : get (lostLink d s) (R.TOK_DIE_LIM.GRADE d) = get s (R.TOK_DIE_LIM.GRADE d) := by
    refine get_lostLink (key_ne ?_) (key_ne ?_) (free_abortLoad ?_) s
    all_goals simp only [R.TOK_DIE_LIM.GRADE, R.THM_DIE_STAT.STALE, R.ITN_DIE_STAT.EMPTY]; omega
  have hstate : get (lostLink d s) R.CLK_STATUS.STATE = get s R.CLK_STATUS.STATE := by
    refine get_lostLink (key_ne ?_) (key_ne ?_) (free_abortLoad ?_) s
    all_goals simp only [R.CLK_STATUS.STATE, R.THM_DIE_STAT.STALE, R.ITN_DIE_STAT.EMPTY]; omega
  unfold floorIssue scaleUp scaleTok clkState fusedFloor fusedMax
  rw [hgrade, hstate, clk_lostLink]

/-- What a budget and the reasons of a die reach among its registers. -/
theorem free_refit {d : Nat} {g : Field}
    (h : g.off * 32 + g.lo < 0x0A0000 * 32 ∨ 0x0B0000 * 32 ≤ g.off * 32 + g.lo ∧ g.off * 32 + g.lo < 2 ^ 27) :
    (fp_refit (some d)).Free g := by
  simp only [fp_refit, fp_sendBudget, fp_sendDown, fp_sendMsg, fp_sendFrame, fp_showReasons, fp_setReasons, Print.free_cons,
    Print.free_nil, Print.free_reg, Print.free_reg1, Print.free_prt, Print.free_row, and_true, true_and]
  refine ⟨⟨?_, ?_⟩, ?_, ?_, ?_⟩ <;> intros <;> refine key_ne ?_ <;>
    simp only [R.CAP_DIE_BUD.BUDGET, R.CAP_DIE_BUD.BIND, R.CAP_DIE_THR.ACTIVE, R.CAP_THR_ACT.ACTIVE, R.CAP_THR_START.TIME] <;> omega

/-- The reasons shown anew leave the budget. -/
theorem get_showReasons_BUDGET (d : Nat) (s : State) : get (showReasons d s) (R.CAP_DIE_BUD.BUDGET d) = get s (R.CAP_DIE_BUD.BUDGET d) := by
  refine (foot_showReasons (Names.one (d := d)) (Print.Sub.refl _) (Within.refl _ s)).get ?_
  simp only [fp_showReasons, fp_setReasons, Print.free_cons, Print.free_nil, Print.free_reg, Print.free_reg1, Print.free_prt, and_true]
  refine ⟨?_, ?_, ?_⟩ <;> intros <;> refine key_ne ?_ <;>
    simp only [R.CAP_DIE_BUD.BUDGET, R.CAP_DIE_THR.ACTIVE, R.CAP_THR_ACT.ACTIVE, R.CAP_THR_START.TIME] <;> omega

/-- The budget of a die whose link is lost: the floor, 0 with a LOST rail (R39, R130). -/
theorem get_refit_BUDGET_of_lost {s : State} {d : Nat} (hd : isPresent s d = true) (h : (linkOf s d).lost = true) :
    get (refit d s) (R.CAP_DIE_BUD.BUDGET d) = (if dieLost s d then 0 else floorIssue s d) % 2 ^ 12 := by
  have hbind : fieldKey (R.CAP_DIE_BUD.BIND d) ≠ fieldKey (R.CAP_DIE_BUD.BUDGET d) :=
    key_ne (by simp only [R.CAP_DIE_BUD.BUDGET, R.CAP_DIE_BUD.BIND]; omega)
  simp only [refit, hd, if_true, get_showReasons_BUDGET, sendBudget, sendDown]
  rw [sendMsg_of_lost (by rw [linkOf_of (put_links ..), linkOf_of (put_links ..)]; exact h), get_put_ne hbind, get_put_self (by nofun)]
  simp only [h, Bool.or_true, Bool.true_or, if_true]
  rfl

/-- LINK_LOST: the agent keeps its settings, its die's readings are stale, its budget is the floor. -/
theorem linkLost_holdsFloor {s : State} {d : Nat} (hd : isPresent s d = true) (hreset : dieInReset s d = false)
    (hlost : (linkOf s d).lost = false) :
    ∃ t, exec (.linkLost d) s = .next t ∧
      linkOf t d = { linkOf s d with lost := true, held := (agentFields d).map fun f => (fieldKey f, get s f), own := [] } ∧
      get t (R.THM_DIE_STAT.STALE d) = 1 ∧ get t (R.CAP_DIE_BUD.BUDGET d) = (if dieLost s d then 0 else floorIssue s d) % 2 ^ 12 := by
  have hlink := linkOf_lostLink s d
  have hlost' : (linkOf (lostLink d s) d).lost = true := by rw [hlink]
  have hd' : isPresent (lostLink d s) d = true := (isPresent_lostLink d d s).trans hd
  refine ⟨_, rfl, ?_, ?_, ?_⟩
  · rw [linkOf_finish, effLinkLost_eq hd hreset hlost, linkOf_refit_of_lost hlost', hlink]
  · rw [get_finish (key_ne (by simp only [R.REC_LOST.COUNT, R.THM_DIE_STAT.STALE]; omega))
      (key_ne (by simp only [R.REC_EVENT, R.THM_DIE_STAT.STALE]; omega)), effLinkLost_eq hd hreset hlost,
      (foot_refit (Names.one (d := d)) (Print.Sub.refl _) (Within.refl _ _)).get
        (free_refit (by simp only [R.THM_DIE_STAT.STALE]; omega)), get_lostLink_STALE]
  · rw [get_finish (key_ne (by simp only [R.REC_LOST.COUNT, R.CAP_DIE_BUD.BUDGET]; omega))
      (key_ne (by simp only [R.REC_EVENT, R.CAP_DIE_BUD.BUDGET]; omega)), effLinkLost_eq hd hreset hlost,
      get_refit_BUDGET_of_lost hd' hlost', dieLost_lostLink, floorIssue_lostLink]

/-! A link returns (R40, R270), and one trains (R28, R659). -/

/-- The link as it returns, before the two ends catch up. -/
def returned (d : Nat) (s : State) : State := setLink d { linkOf s d with lost := false, held := [], own := [] } s

theorem linkStays_catchUp (d : Nat) (s : State) : LinkStays d (returned d s) (catchUp d s) := by
  unfold catchUp
  exact LinkStays.each (fun site u k => k.releaseSite site) (LinkStays.each (fun src u k => k.setItn d _)
    ((LinkStays.refl d (returned d s)).takeOwn _))

theorem itn_refit (d : Nat) (s : State) : (refit d s).itn = s.itn :=
  (foot_refit Names.any (Print.Sub.refl _) (Within.refl _ s)).parts .itn (by decide) (by decide)
theorem itn_showReasons (d : Nat) (s : State) : (showReasons d s).itn = s.itn :=
  (foot_showReasons Names.any (Print.Sub.refl _) (Within.refl _ s)).parts .itn (by decide) (by decide)
theorem itn_showEmpty (d : Nat) (s : State) : (showEmpty d s).itn = s.itn := put_itn ..
theorem itn_refreshSlot (d : Nat) (s : State) : (refreshSlot d s).itn = s.itn :=
  (foot_refreshSlot Names.any (Print.Sub.refl _) (Within.refl _ s)).parts .itn (by decide) (by decide)
theorem itn_showSteps (d : Nat) (s : State) : (showSteps d s).itn = s.itn :=
  (foot_showSteps Names.any (Print.Sub.refl _) (Within.refl _ s)).parts .itn (by decide) (by decide)
theorem itn_sendHeld (d : Nat) (s : State) : (sendHeld d s).itn = s.itn :=
  (foot_sendHeld Names.any (Print.Sub.refl _) (Within.refl _ s)).parts .itn (by decide) (by decide)

/-- LINK_RESTORE: the link is in service, nothing is kept back, and the core has the agent's profile. -/
theorem linkRestore_copiesProfile {s : State} {d : Nat} (hd : isPresent s d = true) (hlost : (linkOf s d).lost = true) :
    ∃ t, exec (.linkRestore d) s = .next t ∧ (linkOf t d).lost = false ∧ (linkOf t d).held = [] ∧ (linkOf t d).own = [] ∧
      (itnOf t d).core = (itnOf t d).agent := by
  let u := resumeForced d (catchUp d s)
  let v := setItn d { itnOf u d with core := (itnOf u d).agent, thrSent := 0 } u
  have heff : effLinkRestore d s =
      refit d (showReasons d (showEmpty d (refreshSlot d (showSteps d (sendHeld d v))))) := by
    simp [effLinkRestore, hd, hlost, u, v]
  have hstays : LinkStays d (returned d s) (effLinkRestore d s) := by
    rw [heff]
    exact ((linkStays_catchUp d s).resumeForced.setItn d _).sendHeld.showSteps.refreshSlot.showEmpty.showReasons.refit
  have hreturned : linkOf (returned d s) d = { linkOf s d with lost := false, held := [], own := [] } := linkOf_setLink ..
  have hitn : itnOf (effLinkRestore d s) d = { itnOf u d with core := (itnOf u d).agent, thrSent := 0 } := by
    rw [heff, itnOf_of (itn_refit ..), itnOf_of (itn_showReasons ..), itnOf_of (itn_showEmpty ..), itnOf_of (itn_refreshSlot ..),
      itnOf_of (itn_showSteps ..), itnOf_of (itn_sendHeld ..)]
    exact itnOf_setItn ..
  obtain ⟨hup, hheld, hown, -⟩ := hstays.link (by rw [hreturned])
  refine ⟨_, rfl, ?_⟩
  rw [linkOf_finish, itnOf_finish, hup, hheld, hown, hreturned, hitn]
  exact ⟨rfl, rfl, rfl, rfl⟩

/-- The keys sent again to a die's engines change no link and not the time. -/
theorem linkOf_reloadDie (d e : Nat) (s : State) : linkOf (reloadDie d s) e = linkOf s e :=
  linkOf_of ((foot_reloadDie (Print.Sub.refl _) (Within.refl _ s)).parts .links (by decide) (by decide)) e

theorem now_reloadDie (d : Nat) (s : State) : now (reloadDie d s) = now s := by
  refine (foot_reloadDie (Print.Sub.refl _) (Within.refl _ s)).get ?_
  simp only [fp_reloadDie, fp_sendScrub, fp_reloadKeys, fp_sendLoads, fp_keySend, fp_drawn, Print.free_cons, Print.free_nil,
    Print.free_reg1, Print.free_prt, and_true]
  exact fun p _ => key_ne (by simp only [R.SEC_PART_SCRUB.REMAIN, R.CLK_TIME.COUNT]; omega)

/-- LINK_TRAINED: the link is in service, and both ends number their frames from now on. -/
theorem linkTrained_startsNumbers {s : State} {d : Nat} (hd : isPresent s d = true) (htrained : (linkOf s d).trained = false)
    (harmed : sitesArmed s d = true) :
    ∃ t, exec (.linkTrained d) s = .next t ∧ (linkOf t d).trained = true ∧ (linkOf t d).lost = false ∧
      (linkOf t d).downSeq = none ∧ (linkOf t d).upSeq = none ∧ (linkOf t d).base = now s := by
  let r := restartLink d (reloadDie d s)
  let z := setLink d { linkOf r d with trained := true } r
  have heff : effLinkTrained d s = refit d (showEmpty d (sendHeld d (setItn d { itnOf z d with thrSent := 0 } z))) := by
    simp [effLinkTrained, hd, htrained, harmed, r, z]
  have hstays : LinkStays d z (effLinkTrained d s) := by
    rw [heff]
    exact ((LinkStays.refl d z).setItn d _).sendHeld.showEmpty.refit
  have hz : linkOf z d = { linkOf s d with
      lost := false, downSeq := none, upSeq := none, downSent := 0, upSent := 0, base := now s, held := [], own := [], trained := true } := by
    simp [z, r, restartLink, linkOf_reloadDie, now_reloadDie]
  obtain ⟨hup, -, -, htrain, hdown, hupSeq, hbase⟩ := hstays.link (by rw [hz])
  refine ⟨_, rfl, ?_⟩
  rw [linkOf_finish, hup, htrain, hdown, hupSeq, hbase, hz]
  exact ⟨rfl, rfl, rfl, rfl, rfl⟩

/-- Settles O2, a lemma for each clause; an attempt to retrain a lane is over as it began. -/
theorem linksLoseAndReturn : Obligations.LinksLoseAndReturn :=
  ⟨fun _ _ _ hd htrained hlost hlane hboth => laneLoss_reported hd htrained hlost hlane hboth,
    fun _ _ _ hfresh => congrArg Host.Outcome.next (finish_same hfresh),
    fun _ _ _ hd hlane => laneRestore_clears hd hlane,
    fun _ _ hd hreset hlost => linkLost_holdsFloor hd hreset hlost,
    fun _ _ hd hlost => linkRestore_copiesProfile hd hlost,
    fun _ _ hd htrained harmed => linkTrained_startsNumbers hd htrained harmed⟩

end Sys2Proof.Machine

/-! Bits of a mask, and codes of integers. -/

namespace Sys2Proof.Machine

theorem bit_setBit (v i j : Nat) : bit (setBit v i) j = (bit v j || decide (i = j)) := by
  simp only [bit_eq_testBit, setBit, Nat.testBit_or, Nat.testBit_two_pow]

/-- A mask has the bits of the indices that it is made of. -/
theorem bit_maskOf (l : List Nat) (i : Nat) : bit (maskOf l) i = decide (i ∈ l) := by
  have hfold : ∀ v, bit (l.foldl setBit v) i = (bit v i || decide (i ∈ l)) := by
    induction l with
    | nil => simp
    | cons x l ih =>
      intro v
      simp only [List.foldl_cons, ih, bit_setBit, List.mem_cons, Bool.decide_or, Bool.or_assoc, eq_comm]
  rw [maskOf, hfold, bit_eq_testBit, Nat.zero_testBit, Bool.false_or]

/-- An integer within the range of a code is what its code stands for (R11, R13). -/
theorem toSigned_ofSigned_sixteen {x : Int} (hlo : -2 ^ 15 ≤ x) (hhi : x < 2 ^ 15) : toSigned 16 (ofSigned 16 x) = x := by
  simp only [toSigned, ofSigned, Nat.reducePow, Int.reducePow, Nat.reduceSub] at *
  split_ifs <;> omega

theorem toSigned_ofSigned_satI (x : Int) : toSigned 16 (ofSigned 16 (satI x 16)) = satI x 16 :=
  toSigned_ofSigned_sixteen (by simp only [satI]; omega) (by simp only [satI]; omega)

theorem toSigned_mod (w v : Nat) : toSigned w (v % 2 ^ w) = toSigned w v := by simp only [toSigned, Nat.mod_mod]

theorem getI_putI_satI {f : Field} (hf : f.cls ≠ Ret.fuse) (hw : f.w = 16) (x : Int) (s : State) :
    getI (putI f (satI x 16) s) f = satI x 16 := by
  rw [getI, putI, get_put_self hf, hw, toSigned_mod, toSigned_ofSigned_satI]

end Sys2Proof.Machine

/-! The opening, the closing and the spoiling of a window; the reports of stacks (R393, R409). -/

namespace Sys2Proof.Machine

@[simp] theorem get_setTherm (v : ThermH) (s : State) (g : Field) : get (setTherm v s) g = get s g := rfl
theorem therm_finish (s : State) : (finish s).therm = s.therm := (Within.finish s).parts .therm (by decide) (by decide)

/-- CONVERSION_OPEN: the windows of a new conversion period open without counts. -/
theorem conversionOpen_opens {s : State} (hstarted : s.clk.started = true) (hperiod : s.therm.period ≠ conversionPeriod s) :
    ∃ t, exec .conversionOpen s = .next t ∧ t.therm.isOpen = true ∧ t.therm.spoiled = false ∧ t.therm.counts = [] ∧
      t.therm.clock = clkState s ∧ Out.sensorOpen ∈ t.out := by
  refine ⟨_, rfl, ?_⟩
  rw [therm_finish, out_finish, effConversionOpen, if_pos ⟨hstarted, hperiod⟩]
  exact ⟨rfl, rfl, rfl, rfl, List.mem_append_right _ (List.mem_singleton.2 rfl)⟩

/-- WINDOW_CLOSE: the core takes the counts of a die whose frame it accepts. -/
theorem windowClose_takesCounts {s : State} {d : Nat} {fr : Frame} (l : List Nat) (hopen : s.therm.isOpen = true)
    (h : Accepts s true tyBULK d fr) (hreset : dieInReset s d = false) :
    ∃ t, exec (.windowClose ⟨d, fr⟩ l) s = .next t ∧ t.therm.closed = true ∧ sget [] d t.therm.counts = l.map (· % 2 ^ 24) ∧
      Out.sensorCounts d ∈ t.out := by
  let u := emit (.sensorCounts d) (setTherm { s.therm with closed := true } s)
  have hu : Accepts u true tyBULK d fr := ⟨h.present, h.trained, h.kept, h.lane, h.service, h.good, h.ahead⟩
  have hheld : dieHeld s d = false := Bool.or_eq_false_iff.2 ⟨h.kept, hreset⟩
  have heff : effWindowClose d fr l s = acceptFrame true tyBULK d fr (takeCounts d l) u := by
    simp [effWindowClose, hopen, h.present, hheld, u]
  refine ⟨_, rfl, ?_⟩
  rw [therm_finish, out_finish, heff, acceptFrame_of_accepts hu]
  exact ⟨rfl, sget_sset_self .., List.mem_append_right _ (List.mem_singleton.2 rfl)⟩

/-- THERMAL_CONVERSION of a spoiled window: it is over, and discarded (R395). -/
theorem thermalConversion_discarded {s : State} (opened closed : Nat) (hopen : s.therm.isOpen = true) (hspoiled : s.therm.spoiled = true) :
    ∃ t, exec (.thermalConversion opened closed) s = .next t ∧ t.therm.isOpen = false ∧ bit (get t R.THM_EVENT) 8 = true := by
  have heff : effThermalConversion (closed - opened) s =
      event R.THM_EVENT 8 (setTherm { s.therm with isOpen := false, counts := [] } s) := by
    simp [effThermalConversion, hopen, hspoiled]
  refine ⟨_, rfl, ?_⟩
  rw [therm_finish, get_finish (by decide) (by decide), heff, event, put_therm, get_put_self (by decide), bit_mod_two_pow (by decide),
    bit_setBit]
  exact ⟨rfl, by simp⟩

/-! The reports of stacks (R35, R409). -/

/-- Judging a stack's level leaves its temperature and its being stale. -/
theorem get_judgeStack {n : Nat} {g : Field} (h : g = R.THM_STK.T n ∨ g = R.THM_STK.STALE n) (s : State) :
    get (judgeStack n s) g = get s g := by
  refine (foot_judgeStack (Names.one (d := n)) (Print.Sub.refl _) (Within.refl _ s)).get ?_
  simp only [fp_judgeStack, fp_enterLevel, fp_recordAt, fp_notifyAll, fp_notify, Print.free_cons, Print.free_nil, Print.free_reg,
    Print.free_reg1, Print.free_prt, and_true, true_and]
  rcases h with rfl | rfl <;> refine ⟨?_, ?_, ?_⟩ <;> intros <;> refine key_ne ?_ <;>
    simp only [R.THM_STK.T, R.THM_STK.STALE, R.THM_STK.LEVEL, R.THM_EVENT, R.CMD_NOTIFY] <;> omega

/-- Nor does the count of correctable errors that a report brings (R604). -/
theorem get_whenCount {n : Nat} {g : Field} (h : g = R.THM_STK.T n ∨ g = R.THM_STK.STALE n) (c : Bool) (k m : Nat) (s : State) :
    get (when c (countHealth k m) s) g = get s g := by
  refine get_when (get_put_ne (key_ne ?_) _ s)
  rcases h with rfl | rfl <;> simp only [R.THM_STK.T, R.THM_STK.STALE, R.HLT_EVT.COUNT] <;> omega

theorem stack_key_ne (n : Nat) : fieldKey R.THM_STK_STALE.STACKS ≠ fieldKey (R.THM_STK.T n) ∧
    fieldKey R.THM_STK_STALE.STACKS ≠ fieldKey (R.THM_STK.STALE n) ∧ fieldKey (R.THM_STK.STALE n) ≠ fieldKey (R.THM_STK.T n) := by
  refine ⟨?_, ?_, ?_⟩ <;> refine key_ne ?_ <;> simp only [R.THM_STK_STALE.STACKS, R.THM_STK.T, R.THM_STK.STALE] <;> omega

/-- A report taken: its temperature stands, and the stack is not stale. -/
theorem takeStack_shown (n v e : Nat) (s : State) :
    get (takeStack n v e s) (R.THM_STK.T n) = v % 2 ^ 16 ∧ get (takeStack n v e s) (R.THM_STK.STALE n) = 0 := by
  obtain ⟨hT, hS, hST⟩ := stack_key_ne n
  unfold takeStack unevent
  rw [get_whenCount (.inl rfl), get_whenCount (.inr rfl), get_judgeStack (.inl rfl), get_judgeStack (.inr rfl), get_put_ne hT, get_put_ne hS,
    get_put_ne hST, get_put_self (by nofun), get_put_self (by nofun)]
  exact ⟨rfl, rfl⟩

/-- STACK_REPORT: the temperature stands, and the stack is stale no more. -/
theorem stackReport_taken {s : State} {n : Nat} {fr : Frame} {v : Nat} (e : Nat) (hn : n < nStacks s)
    (h : Accepts s true tyBULK (serves s n) fr) (hv : v < 2 ^ 16) :
    ∃ t, exec (.stackReport n fr ⟨v, e⟩) s = .next t ∧ get t (R.THM_STK.T n) = v ∧ get t (R.THM_STK.STALE n) = 0 ∧
      bit (readField t R.THM_STK_STALE.STACKS) n = false := by
  have hn16 : n < 16 := lt_of_lt_of_le hn (min_le_left _ _)
  have heff : effStackReport n fr v e s =
      takeStack n v e (setLink (serves s n) (acceptedLink true (linkOf s (serves s n)) (frameSeq fr.bytes)) s) := by
    rw [effStackReport, if_pos hn, acceptFrame_of_accepts h]
  obtain ⟨hT, hS⟩ := takeStack_shown n v e (setLink (serves s n) (acceptedLink true (linkOf s (serves s n)) (frameSeq fr.bytes)) s)
  rw [← heff, ← get_finish (key_ne (by simp only [R.REC_LOST.COUNT, R.THM_STK.T]; omega))
    (key_ne (by simp only [R.REC_EVENT, R.THM_STK.T]; omega)), Nat.mod_eq_of_lt hv] at hT
  rw [← heff, ← get_finish (key_ne (by simp only [R.REC_LOST.COUNT, R.THM_STK.STALE]; omega))
    (key_ne (by simp only [R.REC_EVENT, R.THM_STK.STALE]; omega))] at hS
  refine ⟨_, rfl, hT, hS, ?_⟩
  have hview : ∀ t, readField t R.THM_STK_STALE.STACKS =
    maskOf ((List.range (nStacks t)).filter fun k => isOn t (R.THM_STK.STALE k)) % 2 ^ 16 := fun _ => rfl
  rw [hview, bit_mod_two_pow hn16, bit_maskOf, decide_eq_false_iff_not, List.mem_filter]
  simp [isOn, hS]

/-- STACK_STALE: the stack is stale, with its event. -/
theorem stackStale_recorded {s : State} {n : Nat} (hn : n < nStacks s) (hfresh : get s (R.THM_STK.STALE n) = 0)
    (hus : 10000 ≤ s.us - sget 0 n s.therm.stkUs) :
    ∃ t, exec (.stackStale n) s = .next t ∧ get t (R.THM_STK.STALE n) = 1 ∧ bit (get t R.THM_EVENT) 7 = true ∧
      (Room s 1 → { pkgEvent s 0x0706 n with part := ownerStack s n } ∈ t.log.queue) := by
  let u := s |> put (R.THM_STK.STALE n) 1 |> event R.THM_STK_STALE.STACKS n |> event R.THM_EVENT 7
  have heff : effStackStale n s = recordAt (now s) 0x0706 0x3F (ownerStack s n) n u := by
    simp [effStackStale, hn, isOn, hfresh, hus, u]
  refine ⟨_, rfl, ?_, ?_, fun hroom => ?_⟩
  · have hevent : fieldKey R.THM_EVENT ≠ fieldKey (R.THM_STK.STALE n) := key_ne (by simp only [R.THM_EVENT, R.THM_STK.STALE]; omega)
    rw [get_finish (key_ne (by simp only [R.REC_LOST.COUNT, R.THM_STK.STALE]; omega))
      (key_ne (by simp only [R.REC_EVENT, R.THM_STK.STALE]; omega)), heff, get_recordAt]
    simp only [u, event]
    rw [get_put_ne hevent, get_put_ne (stack_key_ne n).2.1, get_put_self (by nofun)]
    rfl
  · rw [get_finish (by decide) (by decide), heff, get_recordAt]
    simp only [u, event]
    rw [get_put_self (by decide), bit_mod_two_pow (by decide), bit_setBit]
    simp
  · rw [heff]
    have hlog : u.log = s.log := by simp only [u, event, put_log]
    have hclk : u.clk = s.clk := by simp only [u, event, put_clk]
    exact mem_queue_of_recordAt hroom hlog hclk (now s) 0x0706 0x3F (ownerStack s n) n

end Sys2Proof.Machine

/-! What decides the conversion of each die stays while others are converted (R393, R406). -/

namespace Sys2Proof.Machine

/-- From s to t the window, its counts and what holds the dies' readings are as before. -/
structure SameWindow (s t : State) : Prop where
  clock : t.therm.clock = s.therm.clock
  counts : t.therm.counts = s.therm.counts
  links : t.links = s.links
  accRst : t.boot.accRst = s.boot.accRst
  dieRst : t.boot.dieRst = s.boot.dieRst
  lostHold : t.boot.lostHold = s.boot.lostHold

namespace SameWindow

variable {s t u : State}

theorem refl (s : State) : SameWindow s s := ⟨rfl, rfl, rfl, rfl, rfl, rfl⟩

theorem trans (h : SameWindow s t) (k : SameWindow t u) : SameWindow s u :=
  ⟨k.clock.trans h.clock, k.counts.trans h.counts, k.links.trans h.links, k.accRst.trans h.accRst, k.dieRst.trans h.dieRst,
    k.lostHold.trans h.lostHold⟩

theorem of_parts (ht : t.therm = s.therm) (hl : t.links = s.links) (hb : t.boot = s.boot) : SameWindow s t :=
  ⟨by rw [ht], by rw [ht], hl, by rw [hb], by rw [hb], by rw [hb]⟩

theorem of_within {p : Print} (h : Within p s t) (hp : ∀ q ∈ [Part.therm, .links, .boot], q ∉ p.parts ∧ ∀ c ∈ p.cells, c.part ≠ q) :
    SameWindow s t :=
  of_parts (h.parts .therm (hp _ (by decide)).1 (hp _ (by decide)).2) (h.parts .links (hp _ (by decide)).1 (hp _ (by decide)).2)
    (h.parts .boot (hp _ (by decide)).1 (hp _ (by decide)).2)

theorem put (h : SameWindow s t) (f : Field) (v : Nat) : SameWindow s (put f v t) :=
  h.trans (of_parts (put_therm ..) (put_links ..) (put_boot ..))

theorem event (h : SameWindow s t) (f : Field) (b : Nat) : SameWindow s (event f b t) := h.put f (setBit (get t f) b)
theorem addSat (h : SameWindow s t) (f : Field) (n : Nat) : SameWindow s (addSat f n t) := h.put f (min (2 ^ f.w - 1) (get t f + n))
theorem putI (h : SameWindow s t) (f : Field) (x : Int) : SameWindow s (putI f x t) := h.put f (ofSigned f.w x)
theorem putB (h : SameWindow s t) (f : Field) (b : Bool) : SameWindow s (putB f b t) := h.put f (b2n b)
theorem countHealth (h : SameWindow s t) (c n : Nat) : SameWindow s (countHealth c n t) :=
  h.put (R.HLT_EVT.COUNT c) (get t (R.HLT_EVT.COUNT c) + n)

/-- The runs of the sensors, the limits of the thermal loops and the times of the unit are no part of a window. -/
theorem setTherm (h : SameWindow s t) {v : ThermH} (hclock : v.clock = s.therm.clock) (hcounts : v.counts = s.therm.counts) :
    SameWindow s (setTherm v t) :=
  ⟨hclock, hcounts, h.links, h.accRst, h.dieRst, h.lostHold⟩

theorem recordDie (h : SameWindow s t) (code d arg : Nat) : SameWindow s (recordDie code d arg t) :=
  h.trans (of_parts (recordDie_therm ..) (recordDie_links ..) (recordDie_boot ..))

theorem faultOn (h : SameWindow s t) (b : Nat) : SameWindow s (faultOn b t) :=
  h.trans (of_within (foot_faultOn (Print.Sub.refl _) (Within.refl _ t)) (by decide))

theorem each {α : Type} {l : List α} {f : α → State → State} (hf : ∀ x s, SameWindow s (f x s)) (h : SameWindow s t) :
    SameWindow s (each l f t) := by
  induction l generalizing t with
  | nil => exact h
  | cons x l ih => exact ih (h.trans (hf x t))

theorem excludeSensor (d i k : Nat) (s : State) : SameWindow s (excludeSensor d i k s) := by
  unfold Machine.excludeSensor
  refine recordDie (countHealth (addSat (event (setTherm (put (put (refl s) _ _) _ _) ?_ ?_) _ _) _ _) _ _) _ _ _ <;> rfl

theorem readmitSensor (d i : Nat) (s : State) : SameWindow s (readmitSensor d i s) := by
  unfold Machine.readmitSensor
  refine trans ?_ (of_within (foot_leaveLost Names.any (Print.Sub.refl _) (Within.refl _ _)) (by decide))
  refine recordDie (addSat (event (setTherm (put (put (refl s) _ _) _ _) ?_ ?_) _ _) _ _) _ _ _ <;> rfl

end SameWindow

/-- Cross-check of a sensor: it is excluded, readmitted, or only its runs change (R398, R400, R401, R403). -/
theorem crossCheck_cases (d : Nat) (c : Conv) (i : Nat) (s : State) :
    (∃ k, crossCheck d c i s = excludeSensor d i k s) ∨ crossCheck d c i s = readmitSensor d i s ∨
      ∃ runs, crossCheck d c i s = setTherm { s.therm with runs := runs } s := by
  unfold crossCheck
  dsimp only
  split_ifs
  exacts [.inl ⟨2, rfl⟩, .inl ⟨1, rfl⟩, .inr (.inr ⟨_, rfl⟩), .inl ⟨1, rfl⟩, .inr (.inr ⟨_, rfl⟩), .inr (.inr ⟨s.therm.runs, rfl⟩),
    .inr (.inl rfl), .inr (.inr ⟨_, rfl⟩), .inr (.inl rfl), .inr (.inr ⟨_, rfl⟩), .inr (.inr ⟨s.therm.runs, rfl⟩)]

/-- The crosscheck, the publication and the judging of a die's sensors keep the window. -/
theorem sameWindow_crossCheck (d : Nat) (c : Conv) (i : Nat) (s : State) : SameWindow s (crossCheck d c i s) := by
  obtain ⟨k, h⟩ | h | ⟨runs, h⟩ := crossCheck_cases d c i s
  · exact h ▸ .excludeSensor d i k s
  · exact h ▸ .readmitSensor d i s
  · exact h ▸ ⟨rfl, rfl, rfl, rfl, rfl, rfl⟩

theorem sameWindow_trip (d r : Nat) (x : Int) (s : State) : SameWindow s (trip d r x s) := by
  unfold trip
  split
  · exact .refl s
  · have hdue : SameWindow s { s with boot := { s.boot with downCause := 9 } } := ⟨rfl, rfl, rfl, rfl, rfl, rfl⟩
    refine .trans ?_ (.of_within (foot_scrubsTripped (Print.Sub.refl _) (Within.refl _ _)) (by decide))
    refine .recordDie (.faultOn (.event (.setTherm (.put (.putI (.put (.put (.put hdue _ _) _ _) _ _) _ _) _ _) ?_ ?_) _ _) _) _ _ _ <;> rfl

theorem sameWindow_judgeTrip (before : State) (d : Nat) (c : Conv) (m : Int) (i : Nat) (s : State) :
    SameWindow s (judgeTrip before d c m i s) := by
  have hruns : ∀ runs, SameWindow s (setTherm { s.therm with runs := runs } s) := fun _ => ⟨rfl, rfl, rfl, rfl, rfl, rfl⟩
  unfold judgeTrip when
  dsimp only
  split
  · exact (hruns _).trans (sameWindow_trip ..)
  · exact hruns _

theorem sameWindow_thermalLoop (d : Nat) (m : Int) (s : State) : SameWindow s (thermalLoop d m s) := by
  unfold thermalLoop
  refine .putI (.putB (.putI (.setTherm (.refl s) ?_ ?_) _ _) _ _) _ _ <;> rfl

/-- The conversion of a die keeps the window for the others. -/
theorem sameWindow_convertDie (edges : Nat) (twice : Bool) (d : Nat) (s : State) : SameWindow s (convertDie edges twice d s) := by
  unfold convertDie
  dsimp only
  split
  · exact (SameWindow.refl s).put _ _
  · split
    · exact .refl s
    · have hlevel : ∀ m r u, SameWindow u (judgeLevel d m r u) := fun m r u =>
        .of_within (foot_judgeLevel Names.any (Print.Sub.refl _) (Within.refl _ u)) (by decide)
      have hsensing : ∀ u, SameWindow u (judgeSensing d u) := fun u =>
        .of_within (foot_judgeSensing Names.any (Print.Sub.refl _) (Within.refl _ u)) (by decide)
      have hdie : ∀ u, SameWindow u (publishDie d u) := fun u =>
        .of_within (foot_publishDie Names.any (Print.Sub.refl _) (Within.refl _ u)) (by decide)
      refine .trans (.each (sameWindow_judgeTrip _ d _ _) (.each (hlevel _) (.trans (.trans (.each ?_ (.each (sameWindow_crossCheck d _)
        (.each ?_ ((SameWindow.refl s).put _ _)))) (hdie _)) (hsensing _)))) (sameWindow_thermalLoop ..)
      · exact fun i u => (SameWindow.refl u).putI _ _
      · exact fun e u => (SameWindow.refl u).put _ _

end Sys2Proof.Machine

/-! The registers that the conversion of a die reaches: the package's, and of the dies' and the sensors' its own (R420 to R422). -/

namespace Sys2Proof.Machine

/-- A register of each of die d's sensors, in a footprint. -/
def ownSensor (f : Nat → Field) (d : Nat) : Print := .reg1 (fun i => f (96 * d + i % 96)) none

theorem has_ownSensor {p : Print} {f : Nat → Field} {d i : Nat} (hi : i < 96) (h : (ownSensor f d).Sub p) : p.has (f (96 * d + i)) := by
  have hf : p.has (f (96 * d + i % 96)) := Print.has_reg1 (f := fun i => f (96 * d + i % 96)) Names.any h
  rwa [Nat.mod_eq_of_lt hi] at hf

/-- The cross-check of die d's sensors. -/
def fp_checked (d : Nat) : Print := .join
  [ownSensor R.THM_SNS.EXCL d, ownSensor R.THM_SNS.CAUSE d, .reg R.THM_EVENT, .reg1 R.THM_DIE_CNT.EXCLUDES (some d),
   .reg1 R.THM_DIE_CNT.READMITS (some d), fp_setTherm, fp_countHealth (some 4), fp_recordDie, fp_leaveLost (some d)]

/-- What is judged of a die once its readings are published. -/
def fp_judged (d : Nat) : Print := .join
  [fp_publishDie (some d), fp_judgeSensing (some d), fp_judgeLevel (some d), fp_judgeTrip, fp_thermalLoop (some d)]

/-- The conversion of die d. -/
def fp_converted (d : Nat) : Print := .join
  [.reg1 R.THM_DIE_STAT.STALE (some d), ownSensor R.THM_SNS_RAW.COUNT d, fp_checked d, ownSensor R.THM_SNS.T d, fp_judged d]

section

variable {p : Print} {z s : State} {d : Nat}

theorem within_excludeSensor {i : Nat} (hi : i < 96) (k : Nat) (hp : (fp_checked d).Sub p) (h : Within p z s) :
    Within p z (excludeSensor d i k s) := by
  simp only [fp_checked, Print.join_cons] at hp
  obtain ⟨hexcl, hcause, hevent, hcnt, -, htherm, hhealth, hrec, -⟩ := hp
  unfold excludeSensor
  exact foot_recordDie hrec (foot_countHealth Names.one hhealth (Within.addSat _ (Print.has_reg1 Names.one hcnt) (Within.event _
    (Print.has_reg hevent) (foot_setTherm htherm (Within.put _ (has_ownSensor hi hcause) (Within.put _ (has_ownSensor hi hexcl) h))))))

theorem within_readmitSensor {i : Nat} (hi : i < 96) (hp : (fp_checked d).Sub p) (h : Within p z s) :
    Within p z (readmitSensor d i s) := by
  simp only [fp_checked, Print.join_cons] at hp
  obtain ⟨hexcl, hcause, hevent, -, hcnt, htherm, -, hrec, hleave, -⟩ := hp
  unfold readmitSensor
  exact foot_leaveLost Names.one hleave (foot_recordDie hrec (Within.addSat _ (Print.has_reg1 Names.one hcnt) (Within.event _
    (Print.has_reg hevent) (foot_setTherm htherm (Within.put _ (has_ownSensor hi hcause) (Within.put _ (has_ownSensor hi hexcl) h))))))

theorem within_crossCheck {i : Nat} (c : Conv) (hi : i < 96) (hp : (fp_checked d).Sub p) (h : Within p z s) :
    Within p z (crossCheck d c i s) := by
  obtain ⟨k, hk⟩ | hk | ⟨runs, hk⟩ := crossCheck_cases d c i s
  · exact hk ▸ within_excludeSensor hi k hp h
  · exact hk ▸ within_readmitSensor hi hp h
  · simp only [fp_checked, Print.join_cons] at hp
    obtain ⟨-, -, -, -, -, htherm, -⟩ := hp
    exact hk ▸ foot_setTherm htherm h

end

/-! The stages of a die's conversion. -/

/-- The sensors of die d that are powered. -/
def liveSensors (s : State) (d : Nat) : List Nat := (List.range (nSensors s)).filter (sensorLive s d)

/-- A sensor's count at its 10 µs equivalent (R394, R395). -/
def scaledCount (edges : Nat) (s : State) (d i : Nat) : Nat := scaleCount s edges (nth (sget [] d s.therm.counts) i)

/-- The conversion in hand of die d. -/
def convInHand (edges : Nat) (s : State) (d : Nat) : Conv :=
  ⟨liveSensors s d, (liveSensors s d).map fun i => (i, reading s (96 * d + i) (scaledCount edges s d i)),
    (liveSensors s d).filter (included s d)⟩

/-- The scaled counts of die d shown. -/
def countsShown (edges d : Nat) (s : State) : State :=
  each (liveSensors s d) (fun i => put (R.THM_SNS_RAW.COUNT (96 * d + i)) (scaledCount edges s d i))
    (put (R.THM_DIE_STAT.STALE d) (b2n (!railOn s d)) s)

/-- Its sensors cross-checked. -/
def sensorsChecked (edges d : Nat) (s : State) : State :=
  each (liveSensors s d) (crossCheck d (convInHand edges s d)) (countsShown edges d s)

/-- Its readings published. -/
def readingsShown (edges d : Nat) (s : State) : State :=
  each (liveSensors s d) (fun i => publishOne d (convInHand edges s d) i (sensorsChecked edges d s)) (sensorsChecked edges d s)

/-- What is judged of a die whose readings are published. -/
def judgeDie (before : State) (d : Nat) (c : Conv) (twice : Bool) (s : State) : State :=
  let m := thermMargin s d twice
  s |> each (regions s) (judgeLevel d m) |> each c.live (judgeTrip before d c m) |> thermalLoop d m

theorem convertDie_of_held {s : State} {d : Nat} (h : dieHeld s d = true) (edges : Nat) (twice : Bool) :
    convertDie edges twice d s = put (R.THM_DIE_STAT.STALE d) 1 s := by
  simp [convertDie, h]

theorem convertDie_of_noCounts {s : State} {d : Nat} (h : dieHeld s d = false) (hc : sget [] d s.therm.counts = []) (edges : Nat)
    (twice : Bool) : convertDie edges twice d s = s := by
  simp [convertDie, h, hc]

theorem convertDie_of_counts {s : State} {d : Nat} (h : dieHeld s d = false) (hc : sget [] d s.therm.counts ≠ []) (edges : Nat)
    (twice : Bool) : convertDie edges twice d s = judgeDie (countsShown edges d s) d (convInHand edges s d) twice
      (judgeSensing d (publishDie d (readingsShown edges d s))) := by
  simp only [convertDie, h, hc, if_false, Bool.false_eq_true, judgeDie, readingsShown, sensorsChecked, countsShown, convInHand,
    scaledCount, liveSensors, each, List.foldl_map, List.map_map]
  rfl

theorem lt_of_mem_liveSensors {s : State} {d i : Nat} (h : i ∈ liveSensors s d) : i < 96 := by
  have hi : i < nSensors s := List.mem_range.1 (List.mem_filter.1 h).1
  simp only [nSensors, nLayers] at hi
  omega

section

variable {p : Print} {z : State} {d : Nat}

theorem within_judgeDie {s before : State} {c : Conv} {twice : Bool} (hp : (fp_judged d).Sub p) (h : Within p z s) :
    Within p z (judgeDie before d c twice (judgeSensing d (publishDie d s))) := by
  simp only [fp_judged, Print.join_cons] at hp
  obtain ⟨hpub, hsense, hlevel, htrip, hloop, -⟩ := hp
  exact foot_thermalLoop Names.one hloop (Within.each (fun i t ht => foot_judgeTrip htrip ht) (Within.each
    (fun r t ht => foot_judgeLevel Names.one hlevel ht) (foot_judgeSensing Names.one hsense (foot_publishDie Names.one hpub h))))

theorem within_sensorsChecked (edges : Nat) (s : State) (hp : (fp_checked d).Sub p) (h : Within p z (countsShown edges d s)) :
    Within p z (sensorsChecked edges d s) :=
  Within.eachMem (fun _ hi _ ht => within_crossCheck _ (lt_of_mem_liveSensors hi) hp ht) h

theorem within_readingsShown (edges : Nat) (s : State) (hp : (ownSensor R.THM_SNS.T d).Sub p)
    (h : Within p z (sensorsChecked edges d s)) : Within p z (readingsShown edges d s) :=
  Within.eachMem (fun _ hi _ ht => Within.putI _ (has_ownSensor (lt_of_mem_liveSensors hi) hp) ht) h

/-- The conversion of a die stays within its registers. -/
theorem within_convertDie (edges : Nat) (twice : Bool) (d : Nat) (s : State) :
    Within (fp_converted d) s (convertDie edges twice d s) := by
  have hp := Print.Sub.refl (fp_converted d)
  simp only [fp_converted, Print.join_cons] at hp
  obtain ⟨hstale, hraw, hcheck, hshow, hjudge, -⟩ := hp
  by_cases h : dieHeld s d = true
  · rw [convertDie_of_held h]
    exact Within.put _ (Print.has_reg1 Names.one hstale) (Within.refl _ s)
  · by_cases hc : sget [] d s.therm.counts = []
    · rw [convertDie_of_noCounts (Bool.not_eq_true _ ▸ h) hc]
      exact Within.refl _ s
    · rw [convertDie_of_counts (Bool.not_eq_true _ ▸ h) hc]
      exact within_judgeDie hjudge (within_readingsShown edges s hshow (within_sensorsChecked edges s hcheck (Within.eachMem
        (fun i hi t ht => Within.put _ (has_ownSensor (lt_of_mem_liveSensors hi) hraw) ht)
        (Within.put _ (Print.has_reg1 Names.one hstale) (Within.refl _ s)))))

end

end Sys2Proof.Machine

/-! What a conversion leaves of other dies' registers. -/

namespace Sys2Proof.Machine

theorem free_reg1_some {f : Nat → Field} {e : Nat} {g : Field} : (Print.reg1 f (some e)).Free g ↔ fieldKey (f e) ≠ fieldKey g := by
  simp [Print.free_reg1, Names]

theorem free_reg1_none {f : Nat → Field} {g : Field} : (Print.reg1 f none).Free g ↔ ∀ i, fieldKey (f i) ≠ fieldKey g := by
  simp [Print.free_reg1, Names]

/-- Fields at different places of the window have different cells. -/
theorem key_ne_of_lt {f g : Field} (hf : f.off * 32 + f.lo < 2 ^ 27) (hg : g.off * 32 + g.lo < 2 ^ 27)
    (h : f.off * 32 + f.lo ≠ g.off * 32 + g.lo) : fieldKey f ≠ fieldKey g :=
  key_ne (by rwa [Nat.mod_eq_of_lt hf, Nat.mod_eq_of_lt hg])

/-- A register of the thermal unit's window of die d (R421), of the window of its sensors, of that of their counts (R422). -/
def InDie (d : Nat) (g : Field) : Prop := 0x0C1000 * 32 + 0x800 * d ≤ g.off * 32 + g.lo ∧ g.off * 32 + g.lo < 0x0C1000 * 32 + 0x800 * (d + 1)
def InSensors (d : Nat) (g : Field) : Prop :=
  0x0C4000 * 32 + 12288 * d ≤ g.off * 32 + g.lo ∧ g.off * 32 + g.lo < 0x0C4000 * 32 + 12288 * (d + 1)
def InCounts (d : Nat) (g : Field) : Prop :=
  0x0C6000 * 32 + 12288 * d ≤ g.off * 32 + g.lo ∧ g.off * 32 + g.lo < 0x0C6000 * 32 + 12288 * (d + 1)

/-- A register below those of the fill unit. -/
def Below (g : Field) : Prop := g.off * 32 + g.lo < 0x080000 * 32

/-- The judging of a die reaches no sensor's register, and none of another die. -/
theorem free_judged {d e : Nat} {g : Field} (hd : d < 16) (he : e < 16)
    (h : Below g ∨ InSensors d g ∨ InCounts d g ∨ e ≠ d ∧ InDie d g) : (fp_judged e).Free g := by
  simp only [Below, InDie, InSensors, InCounts] at h
  have hg : g.off * 32 + g.lo < 2 ^ 27 := by omega
  simp only [fp_judged, fp_publishDie, fp_judgeSensing, fp_recordDie, fp_faultOn, fp_notifyAll, fp_notify, fp_judgeLevel, fp_enterLevel,
    fp_recordAt, fp_judgeTrip, fp_setTherm, fp_trip, fp_scrubsTripped, fp_scrubFailed, fp_setScrub, fp_record, fp_completeAt, fp_complete,
    fp_dropFlight, fp_writeCompletion, fp_drawn, fp_thermalLoop, Print.free_cons, Print.free_nil, Print.free_reg, free_reg1_some,
    free_reg1_none, Print.free_prt, and_true, true_and]
  repeat' apply And.intro
  all_goals
    intros
    refine key_ne_of_lt ?_ hg ?_ <;> simp only [R.THM_DIE_T.HOT, R.THM_DIE_T.HOT_LAYER, R.THM_DIE_T2.MEAN, R.THM_DIE_T2.MEAN_LAYER,
      R.THM_DIE_STAT.DEGRADED, R.THM_EVENT, R.THM_DIE_STAT.LOST, R.SAF_FAULT, R.CMD_NOTIFY,
      R.THM_DIE_STAT.LEVELS, R.THM_TRIP.ACTIVE, R.THM_TRIP.DIE, R.THM_TRIP.REGION,
      R.THM_TRIP.T, R.THM_TRIP_TS.TIME, R.SEC_PART_CFG.STATE, R.SEC_EVENT, R.CMD_CQ_TAIL.TAIL, R.THM_DIE_M.MARGIN, R.THM_DIE_STAT.LOOP,
      R.CAP_DIE_LTH.I] <;> omega

/-- The cross-check of a die's sensors reaches no count, and no register of another die. -/
theorem free_checked {d e : Nat} {g : Field} (hd : d < 16) (he : e < 16)
    (h : Below g ∨ InCounts d g ∨ e ≠ d ∧ (InSensors d g ∨ InDie d g)) : (fp_checked e).Free g := by
  simp only [Below, InDie, InSensors, InCounts] at h
  have hg : g.off * 32 + g.lo < 2 ^ 27 := by omega
  simp only [fp_checked, ownSensor, fp_setTherm, fp_countHealth, fp_recordDie, fp_recordAt, fp_leaveLost, fp_faultOff, Print.free_cons,
    Print.free_nil, Print.free_reg, free_reg1_some, free_reg1_none, Print.free_prt, and_true, true_and]
  repeat' apply And.intro
  all_goals
    intros
    refine key_ne_of_lt ?_ hg ?_ <;> simp only [R.THM_SNS.EXCL, R.THM_SNS.CAUSE, R.THM_EVENT, R.THM_DIE_CNT.EXCLUDES, R.THM_DIE_CNT.READMITS,
      R.HLT_EVT.COUNT, R.THM_DIE_STAT.LOST, R.SAF_FAULT] <;> omega

/-- The conversion of a die reaches no register of another die, and none below the fill unit's. -/
theorem free_converted {d e : Nat} {g : Field} (hd : d < 16) (he : e < 16)
    (h : Below g ∨ e ≠ d ∧ (InSensors d g ∨ InCounts d g ∨ InDie d g)) : (fp_converted e).Free g := by
  have hjudged : (fp_judged e).Free g := free_judged hd he (by tauto)
  have hchecked : (fp_checked e).Free g := free_checked hd he (by tauto)
  simp only [Below, InDie, InSensors, InCounts] at h
  have hg : g.off * 32 + g.lo < 2 ^ 27 := by omega
  simp only [fp_converted, Print.free_cons, Print.free_nil, free_reg1_some, ownSensor, free_reg1_none, hjudged, hchecked, and_true, true_and]
  refine ⟨?_, fun i => ?_, fun i => ?_⟩
  all_goals
    refine key_ne_of_lt ?_ hg ?_ <;> simp only [R.THM_DIE_STAT.STALE, R.THM_SNS_RAW.COUNT, R.THM_SNS.T] <;> omega

/-- The package's part of a conversion reaches no die's register. -/
theorem free_judgeStack {d : Nat} {g : Field} (hd : d < 16) (h : InSensors d g ∨ InCounts d g ∨ InDie d g) : (fp_judgeStack none).Free g := by
  simp only [InDie, InSensors, InCounts] at h
  have hg : g.off * 32 + g.lo < 2 ^ 27 := by omega
  simp only [fp_judgeStack, fp_enterLevel, fp_recordAt, fp_notifyAll, fp_notify, Print.free_cons, Print.free_nil, Print.free_reg,
    free_reg1_none, Print.free_prt, and_true, true_and]
  refine ⟨fun _ => ?_, ?_, fun _ => ?_⟩
  all_goals refine key_ne_of_lt ?_ hg ?_ <;> simp only [R.THM_STK.LEVEL, R.THM_EVENT, R.CMD_NOTIFY] <;> omega

theorem free_judgeWarm {d : Nat} {g : Field} (hd : d < 16) (h : InSensors d g ∨ InCounts d g ∨ InDie d g) : fp_judgeWarm.Free g := by
  simp only [InDie, InSensors, InCounts] at h
  have hg : g.off * 32 + g.lo < 2 ^ 27 := by omega
  simp only [fp_judgeWarm, fp_record, fp_recordAt, fp_setTherm, Print.free_cons, Print.free_nil, Print.free_reg, Print.free_prt, and_true]
  refine ⟨?_, ?_, ?_⟩
  all_goals refine key_ne_of_lt ?_ hg ?_ <;>
    simp only [R.FIL_WARM_STAT.STATE, R.FIL_EVENT, R.FIL_WARM_STAT.ELAPSED_S] <;> omega

end Sys2Proof.Machine

/-! A conversion, die by die. -/

namespace Sys2Proof.Machine

/-- From s to t what decides the conversion of die d, and what it shows, is as before. -/
structure Undisturbed (d : Nat) (s t : State) : Prop where
  window : SameWindow s t
  rails : ∀ r, get t (R.LPE_STAT.STATE r) = get s (R.LPE_STAT.STATE r)
  kept : Kept s t
  shown : ∀ g, InSensors d g ∨ InCounts d g ∨ InDie d g → get t g = get s g

namespace Undisturbed

variable {d : Nat} {s t u : State}

theorem refl (d : Nat) (s : State) : Undisturbed d s s := ⟨.refl s, fun _ => rfl, .refl s, fun _ _ => rfl⟩

theorem trans (h : Undisturbed d s t) (k : Undisturbed d t u) : Undisturbed d s u :=
  ⟨h.window.trans k.window, fun r => (k.rails r).trans (h.rails r), h.kept.trans k.kept, fun g hg => (k.shown g hg).trans (h.shown g hg)⟩

/-- The conversion of another die. -/
theorem convertDie {e : Nat} (hd : d < 16) (he : e < 16) (hne : e ≠ d) (edges : Nat) (twice : Bool) (s : State) :
    Undisturbed d s (convertDie edges twice e s) := by
  have hwithin := within_convertDie edges twice e s
  have hlow : ∀ r, Below (R.LPE_STAT.STATE r) := fun r => by simp only [Below, R.LPE_STAT.STATE]; omega
  exact ⟨sameWindow_convertDie edges twice e s, fun r => hwithin.get (free_converted hd he (.inl (hlow r))),
    kept_convertDie edges twice e (.refl s), fun g hg => hwithin.get (free_converted hd he (.inr ⟨hne, hg⟩))⟩

theorem eachDie {l : List Nat} (hd : d < 16) (hl : ∀ e ∈ l, e < 16 ∧ e ≠ d) (edges : Nat) (twice : Bool) (s : State) :
    Undisturbed d s (each l (Machine.convertDie edges twice) s) := by
  induction l generalizing s with
  | nil => exact refl d s
  | cons e l ih =>
    obtain ⟨⟨he, hne⟩, hl⟩ := List.forall_mem_cons.1 hl
    exact (convertDie hd he hne edges twice s).trans (ih hl _)

theorem dieHeld (h : Undisturbed d s t) (e : Nat) : dieHeld t e = dieHeld s e := by
  obtain ⟨⟨-, -, hlinks, hacc, hdie, hlost⟩, -, -, -⟩ := h
  simp only [Machine.dieHeld, dieInReset, linkOf_of hlinks, hacc, hdie, hlost]

/-- The fuses below those of boot read as before (R21). -/
theorem fuse (h : Undisturbed d s t) {g : Field} (hclass : keyClass (fieldKey g) = retCode Ret.fuse)
    (hoff : g.off * 32 + g.lo < 0x160000 * 32) : get t g = get s g := by
  have hfw : fieldKey g ≠ fieldKey R.BOOT_SVN.FW_FUSED := key_ne_of_lt (by omega) (by decide) (by simp only [R.BOOT_SVN.FW_FUSED]; omega)
  have hcfg : fieldKey g ≠ fieldKey R.BOOT_SVN.CFG_FUSED := key_ne_of_lt (by omega) (by decide) (by simp only [R.BOOT_SVN.CFG_FUSED]; omega)
  exact h.kept.fuse g hclass (Bool.or_eq_false_iff.2 ⟨decide_eq_false hfw, decide_eq_false hcfg⟩)

theorem sensorLive (h : Undisturbed d s t) (e i : Nat) : sensorLive t e i = sensorLive s e i := by
  simp only [Machine.sensorLive, railOn, h.rails]

theorem nSensors (h : Undisturbed d s t) : nSensors t = nSensors s := by
  unfold Machine.nSensors nLayers
  rw [h.fuse (g := R.GOV_CFG.N_LAYERS) (by decide) (by decide)]

/-- A sensor's calibration is fused (R394). -/
theorem calibration (h : Undisturbed d s t) (g : Nat) : get t (R.THM_SNS_CAL.CA g) = get s (R.THM_SNS_CAL.CA g) ∧
    get t (R.THM_SNS_CAL.CB g) = get s (R.THM_SNS_CAL.CB g) := by
  have hpage : pageIf (g < 1536) 0 < 16 := by rw [pageIf]; split <;> omega
  refine ⟨h.fuse (keyClass_fieldKey hpage ?_ ?_ ?_) ?_, h.fuse (keyClass_fieldKey hpage ?_ ?_ ?_) ?_⟩
  all_goals simp only [R.THM_SNS_CAL.CA, R.THM_SNS_CAL.CB]; omega

/-- So a reading by calibration is as before. -/
theorem reading (h : Undisturbed d s t) {g : Nat} (hne : get s (R.THM_SNS_CAL.CA g) ≠ get s (R.THM_SNS_CAL.CB g)) (n : Nat) :
    reading t g n = reading s g n := by
  obtain ⟨hca, hcb⟩ := h.calibration g
  have hta : get t R.THM_CAL_T.TA = get s R.THM_CAL_T.TA := h.fuse (by decide) (by decide)
  have htb : get t R.THM_CAL_T.TB = get s R.THM_CAL_T.TB := h.fuse (by decide) (by decide)
  have hdiff : ((get s (R.THM_SNS_CAL.CB g) : Nat) : Int) ≠ (get s (R.THM_SNS_CAL.CA g) : Nat) := fun e => hne (Int.ofNat_inj.1 e).symm
  simp only [Machine.reading, getI, hca, hcb, hta, htb, if_neg hdiff]

end Undisturbed

/-- A reading by calibration is within 16 bits (R394). -/
theorem reading_eq_satI {s : State} {g : Nat} (hne : get s (R.THM_SNS_CAL.CA g) ≠ get s (R.THM_SNS_CAL.CB g)) (n : Nat) :
    ∃ x, reading s g n = satI x 16 := by
  have hdiff : ((get s (R.THM_SNS_CAL.CB g) : Nat) : Int) ≠ (get s (R.THM_SNS_CAL.CA g) : Nat) := fun e => hne (Int.ofNat_inj.1 e).symm
  exact ⟨_, if_neg hdiff⟩

/-- What a step for each element of a list leaves, where only the step of one element changes it. -/
theorem each_of_mem {α : Type} {l : List Nat} {f : Nat → State → State} {φ : State → α} {i : Nat} {v : α} (hself : ∀ s, φ (f i s) = v)
    (hother : ∀ j ∈ l, j ≠ i → ∀ s, φ (f j s) = φ s) {s : State} (hi : φ s = v ∨ i ∈ l) : φ (each l f s) = v := by
  induction l generalizing s with
  | nil => exact hi.resolve_right List.not_mem_nil
  | cons j l ih =>
    obtain ⟨hj, hl⟩ := List.forall_mem_cons.1 hother
    refine ih hl ?_
    by_cases hji : j = i
    · exact .inl (hji ▸ hself s)
    · exact hi.imp (hj hji s).trans fun h => (List.mem_cons.1 h).resolve_left (Ne.symm hji)

theorem sget_map_of_mem {α : Type} {l : List Nat} {i : Nat} (hi : i ∈ l) (f : Nat → α) (e : α) : sget e i (l.map fun j => (j, f j)) = f i := by
  induction l with
  | nil => exact absurd hi List.not_mem_nil
  | cons j l ih =>
    by_cases hj : j = i
    · subst hj
      simp [sget]
    · simp only [List.map_cons, sget, hj, if_false]
      exact ih ((List.mem_cons.1 hi).resolve_left (Ne.symm hj))

/-! What the conversion of a die shows of a sensor. -/

section

variable {u : State} {d i : Nat} {edges : Nat} {twice : Bool}

theorem inDie_STALE (hd : d < 16) : InDie d (R.THM_DIE_STAT.STALE d) := by simp only [InDie, R.THM_DIE_STAT.STALE]; omega
theorem inDie_HOT (hd : d < 16) : InDie d (R.THM_DIE_T.HOT d) := by simp only [InDie, R.THM_DIE_T.HOT]; omega
theorem inCounts_COUNT (hd : d < 16) (hi : i < 96) : InCounts d (R.THM_SNS_RAW.COUNT (96 * d + i)) := by
  simp only [InCounts, R.THM_SNS_RAW.COUNT]; omega
theorem inSensors_EXCL (hd : d < 16) (hi : i < 96) : InSensors d (R.THM_SNS.EXCL (96 * d + i)) := by
  simp only [InSensors, R.THM_SNS.EXCL]; omega
theorem inSensors_T (hd : d < 16) (hi : i < 96) : InSensors d (R.THM_SNS.T (96 * d + i)) := by
  simp only [InSensors, R.THM_SNS.T]; omega

/-- The registers of two sensors lie apart. -/
theorem sensor_key_ne {f : Nat → Field} (hf : ∀ k, (f k).lo = (f 0).lo ∧ (f k).off = (f 0).off + 4 * (k % 1536)) (hlo : (f 0).lo < 32)
    (hoff : (f 0).off < 0x100000) (hi : i < 96) {j : Nat} (hj : j < 96) (hne : j ≠ i) :
    fieldKey (f (96 * d + j)) ≠ fieldKey (f (96 * d + i)) := by
  have hfi := hf (96 * d + i)
  have hfj := hf (96 * d + j)
  exact key_ne_of_lt (by omega) (by omega) (by omega)

theorem get_countsShown (hi : i ∈ liveSensors u d) :
    get (countsShown edges d u) (R.THM_SNS_RAW.COUNT (96 * d + i)) = scaledCount edges u d i % 2 ^ 24 := by
  have hi96 := lt_of_mem_liveSensors hi
  refine each_of_mem (φ := fun s => get s (R.THM_SNS_RAW.COUNT (96 * d + i))) (fun s => get_put_self (by nofun) _ s)
    (fun j hj hne s => get_put_ne ?_ _ s) (.inr hi)
  exact sensor_key_ne (fun _ => ⟨rfl, rfl⟩) (by decide) (by decide) hi96 (lt_of_mem_liveSensors hj) hne

/-- What comes after the counts are shown leaves them. -/
theorem get_convertDie_COUNT (hd : d < 16) (hi : i ∈ liveSensors u d) (hheld : dieHeld u d = false) (hc : sget [] d u.therm.counts ≠ []) :
    get (convertDie edges twice d u) (R.THM_SNS_RAW.COUNT (96 * d + i)) = scaledCount edges u d i % 2 ^ 24 := by
  have hcounts := inCounts_COUNT hd (lt_of_mem_liveSensors hi)
  have hT : (ownSensor R.THM_SNS.T d).Free (R.THM_SNS_RAW.COUNT (96 * d + i)) := by
    rw [ownSensor, free_reg1_none]
    exact fun j => key_ne_of_lt (by simp only [R.THM_SNS.T]; omega) (by simp only [R.THM_SNS_RAW.COUNT]; omega)
      (by simp only [R.THM_SNS.T, R.THM_SNS_RAW.COUNT]; omega)
  rw [convertDie_of_counts hheld hc, (within_judgeDie (Print.Sub.refl _) (Within.refl _ _)).get (free_judged hd hd (.inr (.inr (.inl hcounts)))),
    (within_readingsShown edges u (Print.Sub.refl _) (Within.refl _ _)).get hT,
    (within_sensorsChecked edges u (Print.Sub.refl _) (Within.refl _ _)).get (free_checked hd hd (.inr (.inl hcounts))), get_countsShown hi]

/-- Publication and judging leave whether a sensor is excluded. -/
theorem get_convertDie_EXCL (hd : d < 16) (hi : i < 96) (hheld : dieHeld u d = false) (hc : sget [] d u.therm.counts ≠ []) :
    get (convertDie edges twice d u) (R.THM_SNS.EXCL (96 * d + i)) = get (sensorsChecked edges d u) (R.THM_SNS.EXCL (96 * d + i)) := by
  have hT : (ownSensor R.THM_SNS.T d).Free (R.THM_SNS.EXCL (96 * d + i)) := by
    rw [ownSensor, free_reg1_none]
    exact fun j => key_ne (by simp only [R.THM_SNS.T, R.THM_SNS.EXCL]; omega)
  rw [convertDie_of_counts hheld hc,
    (within_judgeDie (Print.Sub.refl _) (Within.refl _ _)).get (free_judged hd hd (.inr (.inl (inSensors_EXCL hd hi)))),
    (within_readingsShown edges u (Print.Sub.refl _) (Within.refl _ _)).get hT]

/-- An included sensor shows its own reading (R402). -/
theorem publishOne_included {s0 : State} {c : Conv} (h : included s0 d i = true) (s : State) :
    publishOne d c i s0 s = putI (R.THM_SNS.T (96 * d + i)) (c.t i) s := by
  simp only [publishOne, h, if_true]

/-- A sensor that stays included shows its reading, which what is judged then leaves. -/
theorem getI_convertDie_T (hd : d < 16) (hi : i ∈ liveSensors u d) (hheld : dieHeld u d = false) (hc : sget [] d u.therm.counts ≠ [])
    (hcal : get u (R.THM_SNS_CAL.CA (96 * d + i)) ≠ get u (R.THM_SNS_CAL.CB (96 * d + i)))
    (hexcl : get (convertDie edges twice d u) (R.THM_SNS.EXCL (96 * d + i)) = 0) :
    getI (convertDie edges twice d u) (R.THM_SNS.T (96 * d + i)) = reading u (96 * d + i) (scaledCount edges u d i) := by
  have hi96 := lt_of_mem_liveSensors hi
  have hincl : included (sensorsChecked edges d u) d i = true := by
    rw [get_convertDie_EXCL hd hi96 hheld hc] at hexcl
    simp [included, isOn, hexcl]
  have hraw : (convInHand edges u d).t i = reading u (96 * d + i) (scaledCount edges u d i) := sget_map_of_mem hi _ _
  obtain ⟨x, hx⟩ := reading_eq_satI hcal (scaledCount edges u d i)
  have hshown : getI (readingsShown edges d u) (R.THM_SNS.T (96 * d + i)) = reading u (96 * d + i) (scaledCount edges u d i) := by
    refine each_of_mem (φ := fun s => getI s (R.THM_SNS.T (96 * d + i))) (fun s => ?_) (fun j hj hne s => ?_) (.inr hi)
    · rw [publishOne_included hincl, hraw, hx]
      exact getI_putI_satI (by nofun) rfl x s
    · exact congrArg (toSigned _) (get_put_ne (sensor_key_ne (fun _ => ⟨rfl, rfl⟩) (by decide) (by decide) hi96
        (lt_of_mem_liveSensors hj) hne) _ s)
  rw [getI, convertDie_of_counts hheld hc,
    (within_judgeDie (Print.Sub.refl _) (Within.refl _ _)).get (free_judged hd hd (.inr (.inl (inSensors_T hd hi96))))]
  exact hshown

end

/-! A whole conversion, seen from one die. -/

/-- Whether the margin of COAST applies twice (R407). -/
def marginTwice (s : State) : Bool := decide (s.therm.clock = 3) && !s.therm.coastCal

/-- Every die converted, then the stacks and warm-up judged. -/
def diesConverted (edges : Nat) (s : State) : State := each (dies s) (convertDie edges (marginTwice s)) s
def packageJudged (edges : Nat) (s : State) : State :=
  s |> diesConverted edges |> each (List.range (nStacks s)) judgeStack |> judgeWarm

theorem effThermalConversion_of_open {s : State} (hopen : s.therm.isOpen = true) (hspoiled : s.therm.spoiled = false) (edges : Nat) :
    effThermalConversion edges s =
      drawn (setTherm { (packageJudged edges s).therm with isOpen := false, counts := [] } (packageJudged edges s)) := by
  simp [effThermalConversion, hopen, hspoiled, packageJudged, diesConverted, marginTwice]

/-- What follows the conversion of the dies leaves their registers. -/
theorem get_thermalConversion {s : State} {d : Nat} {g : Field} (edges : Nat) (hd : d < 16) (hopen : s.therm.isOpen = true)
    (hspoiled : s.therm.spoiled = false) (hg : InSensors d g ∨ InCounts d g ∨ InDie d g) :
    get (finish (effThermalConversion edges s)) g = get (diesConverted edges s) g := by
  have hstacks : Within (fp_judgeStack none) (diesConverted edges s) (each (List.range (nStacks s)) judgeStack (diesConverted edges s)) :=
    Within.each (fun n t ht => foot_judgeStack Names.any (Print.Sub.refl _) ht) (Within.refl _ _)
  have hfinish : ∀ f : Field, f.off * 32 + f.lo < 2 ^ 27 → 0x0D0000 * 32 ≤ f.off * 32 + f.lo → fieldKey f ≠ fieldKey g := by
    intro f hf hlo
    simp only [InDie, InSensors, InCounts] at hg
    exact key_ne_of_lt hf (by omega) (by omega)
  rw [get_finish (hfinish _ (by decide) (by decide)) (hfinish _ (by decide) (by decide)), effThermalConversion_of_open hopen hspoiled, get_drawn,
    get_setTherm, packageJudged, (foot_judgeWarm (Print.Sub.refl _) (Within.refl _ _)).get (free_judgeWarm hd hg),
    hstacks.get (free_judgeStack hd hg)]

/-- What a conversion of the dies shows of one is what the conversion of that die shows. -/
theorem get_diesConverted {s : State} {d : Nat} (edges : Nat) (hd : isPresent s d = true) :
    ∃ u, Undisturbed d s u ∧ ∀ g, InSensors d g ∨ InCounts d g ∨ InDie d g →
      get (diesConverted edges s) g = get (convertDie edges (marginTwice s) d u) g := by
  have hdlt : d < nDies s := of_decide_eq_true hd
  obtain ⟨l, r, hsplit⟩ := List.append_of_mem (List.mem_range.2 hdlt)
  have hlt : ∀ e ∈ l ++ d :: r, e < 16 := fun e he => lt_of_lt_of_le (List.mem_range.1 (hsplit ▸ he)) (min_le_left _ _)
  have hnodup : (l ++ d :: r).Nodup := hsplit ▸ List.nodup_range
  rw [List.nodup_append, List.nodup_cons] at hnodup
  obtain ⟨-, ⟨hr, -⟩, hl⟩ := hnodup
  have hbefore : ∀ e ∈ l, e < 16 ∧ e ≠ d := fun e he => ⟨hlt e (by simp [he]), hl e he d (by simp)⟩
  have hafter : ∀ e ∈ r, e < 16 ∧ e ≠ d := fun e he => ⟨hlt e (by simp [he]), fun h => hr (h ▸ he)⟩
  refine ⟨_, .eachDie (hlt d (by simp)) hbefore edges (marginTwice s) s, fun g hg => ?_⟩
  refine Eq.trans ?_ ((Undisturbed.eachDie (hlt d (by simp)) hafter edges (marginTwice s) _).shown g hg)
  simp only [diesConverted, dies, hsplit, each, List.foldl_append, List.foldl_cons]

/-- THERMAL_CONVERSION: a sensor of a window in LOCKED shows its count, and where it stays included its reading. -/
theorem thermalConversion_reads {s : State} {d i : Nat} (opened closed : Nat) (hopen : s.therm.isOpen = true)
    (hspoiled : s.therm.spoiled = false) (hclock : s.therm.clock = 2) (hd : isPresent s d = true) (hheld : dieHeld s d = false)
    (hcounts : sget [] d s.therm.counts ≠ []) (hi : i < nSensors s) (hlive : sensorLive s d i = true)
    (hcal : get s (R.THM_SNS_CAL.CA (96 * d + i)) ≠ get s (R.THM_SNS_CAL.CB (96 * d + i))) :
    ∃ t, exec (.thermalConversion opened closed) s = .next t ∧ t.therm.isOpen = false ∧
      get t (R.THM_SNS_RAW.COUNT (96 * d + i)) = nth (sget [] d s.therm.counts) i % 2 ^ 24 ∧
      (get t (R.THM_SNS.EXCL (96 * d + i)) = 0 →
        getI t (R.THM_SNS.T (96 * d + i)) = reading s (96 * d + i) (nth (sget [] d s.therm.counts) i)) := by
  have hd16 : d < 16 := lt_of_lt_of_le (of_decide_eq_true hd) (min_le_left _ _)
  have hi96 : i < 96 := by simp only [nSensors, nLayers] at hi; omega
  obtain ⟨u, hu, hshown⟩ := get_diesConverted (closed - opened) hd
  have hlive' : i ∈ liveSensors u d :=
    List.mem_filter.2 ⟨List.mem_range.2 (hu.nSensors ▸ hi), (hu.sensorLive d i).trans hlive⟩
  have hheld' : dieHeld u d = false := (hu.dieHeld d).trans hheld
  have hcounts' : sget [] d u.therm.counts ≠ [] := hu.window.counts ▸ hcounts
  have hscaled : scaledCount (closed - opened) u d i = nth (sget [] d s.therm.counts) i := by
    simp [scaledCount, scaleCount, hu.window.clock, hclock, hu.window.counts]
  have hcal' : get u (R.THM_SNS_CAL.CA (96 * d + i)) ≠ get u (R.THM_SNS_CAL.CB (96 * d + i)) := by
    obtain ⟨hca, hcb⟩ := hu.calibration (96 * d + i)
    rwa [hca, hcb]
  have hget : ∀ g, InSensors d g ∨ InCounts d g ∨ InDie d g → get (finish (effThermalConversion (closed - opened) s)) g =
      get (convertDie (closed - opened) (marginTwice s) d u) g := fun g hg =>
    (get_thermalConversion _ hd16 hopen hspoiled hg).trans (hshown g hg)
  refine ⟨_, rfl, ?_, ?_, fun hexcl => ?_⟩
  · rw [therm_finish, effThermalConversion_of_open hopen hspoiled]
    rfl
  · rw [hget _ (.inr (.inl (inCounts_COUNT hd16 hi96))), get_convertDie_COUNT hd16 hlive' hheld' hcounts', hscaled]
  · rw [hget _ (.inl (inSensors_EXCL hd16 hi96))] at hexcl
    rw [getI, hget _ (.inl (inSensors_T hd16 hi96)), ← hscaled, ← hu.reading hcal]
    exact getI_convertDie_T hd16 hlive' hheld' hcounts' hcal' hexcl

/-- THERMAL_CONVERSION of a die whose readings are held (R406, R629). -/
theorem thermalConversion_holds {s : State} {d : Nat} (opened closed : Nat) (hopen : s.therm.isOpen = true)
    (hspoiled : s.therm.spoiled = false) (hd : isPresent s d = true) (hheld : dieHeld s d = true) :
    ∃ t, exec (.thermalConversion opened closed) s = .next t ∧ get t (R.THM_DIE_STAT.STALE d) = 1 ∧
      get t (R.THM_DIE_T.HOT d) = get s (R.THM_DIE_T.HOT d) := by
  have hd16 : d < 16 := lt_of_lt_of_le (of_decide_eq_true hd) (min_le_left _ _)
  obtain ⟨u, hu, hshown⟩ := get_diesConverted (closed - opened) hd
  have hstale : fieldKey (R.THM_DIE_STAT.STALE d) ≠ fieldKey (R.THM_DIE_T.HOT d) :=
    key_ne (by simp only [R.THM_DIE_STAT.STALE, R.THM_DIE_T.HOT]; omega)
  have hHOT := inDie_HOT hd16
  have hSTALE := inDie_STALE hd16
  refine ⟨_, rfl, ?_, ?_⟩
  · rw [get_thermalConversion _ hd16 hopen hspoiled (.inr (.inr hSTALE)), hshown _ (.inr (.inr hSTALE)),
      convertDie_of_held ((hu.dieHeld d).trans hheld), get_put_self (by nofun)]
    rfl
  · rw [get_thermalConversion _ hd16 hopen hspoiled (.inr (.inr hHOT)), hshown _ (.inr (.inr hHOT)),
      convertDie_of_held ((hu.dieHeld d).trans hheld), get_put_ne hstale, hu.shown _ (.inr (.inr hHOT))]

/-- Settles O20, a lemma for each clause. -/
theorem temperaturesAndStacks : Obligations.TemperaturesAndStacks :=
  ⟨fun _ hstarted hperiod => conversionOpen_opens hstarted hperiod,
    fun _ _ _ l hopen h hreset => windowClose_takesCounts l hopen h hreset,
    fun _ opened closed _ _ hopen hspoiled hclock hd hheld hcounts hi hlive hcal =>
      thermalConversion_reads opened closed hopen hspoiled hclock hd hheld hcounts hi hlive hcal,
    fun _ opened closed _ hopen hspoiled hd hheld => thermalConversion_holds opened closed hopen hspoiled hd hheld,
    fun _ opened closed hopen hspoiled => thermalConversion_discarded opened closed hopen hspoiled,
    fun _ _ _ _ e hn h hv => stackReport_taken e hn h hv,
    fun _ _ hn hfresh hus => stackStale_recorded hn hfresh hus⟩

end Sys2Proof.Machine

/-! What the operations of the clock unit change, and what they leave (R56 to R80). -/

namespace Sys2Proof.Machine

@[simp] theorem get_setClk (v : ClockH) (s : State) (g : Field) : get (setClk v s) g = get s g := rfl
@[simp] theorem clk_setClk (v : ClockH) (s : State) : (setClk v s).clk = v := rfl
@[simp] theorem log_setClk (v : ClockH) (s : State) : (setClk v s).log = s.log := rfl
@[simp] theorem us_setClk (v : ClockH) (s : State) : (setClk v s).us = s.us := rfl
@[simp] theorem therm_setClk (v : ClockH) (s : State) : (setClk v s).therm = s.therm := rfl
@[simp] theorem clk_finish (s : State) : (finish s).clk = s.clk := (Within.finish s).parts .clk (by decide) (by decide)

/-- What every step for an element of a list leaves, the steps for the list leave. -/
theorem each_keeps {α β : Type} {f : α → State → State} {φ : State → β} (h : ∀ x s, φ (f x s) = φ s) (l : List α) (s : State) :
    φ (each l f s) = φ s := by
  induction l generalizing s with
  | nil => rfl
  | cons x l ih => exact (ih (f x s)).trans (h x s)

/-- An event of the package recorded while the clock runs is in the recorder queue at the end of a command that leaves it room (R597). -/
theorem mem_queue_of_record {u t : State} {code arg : Nat} (ht : t.log = (record code arg u).log) (hs : u.clk.started = true)
    (hroom : u.log.queue.length + (u.log.fresh.length + 1) ≤ 64) : pkgEvent u code arg ∈ (finish t).log.queue := by
  have hlog : t.log = { u.log with fresh := u.log.fresh ++ [pkgEvent u code arg] } := by
    rw [ht, record, recordAt, if_pos hs]
    rfl
  refine mem_finish_queue ?_ ?_
  · rw [hlog]
    simpa using hroom
  · rw [hlog]
    exact List.mem_append_right _ (List.mem_singleton.2 rfl)

theorem pkgEvent_of_now {s u : State} (h : now u = now s) (code arg : Nat) : pkgEvent u code arg = pkgEvent s code arg := by
  simp only [pkgEvent, h]

/-! A new clock state. -/

/-- Slews and floors sent anew change no register, no event and nothing of the clock unit. -/
@[simp] theorem get_whenResend (c : Bool) (s : State) (g : Field) : get (when c resendTokens s) g = get s g := by
  refine get_when ((foot_resendTokens (Print.Sub.refl _) (Within.refl _ s)).get ?_)
  simp only [fp_resendTokens, fp_sendTokens, fp_sendTokensWith, fp_sendMsgs, fp_sendMsg, fp_sendFrame, Print.free_cons, Print.free_nil,
    Print.free_prt, Print.free_row, and_true]

theorem within_whenResend (c : Bool) (s : State) : Within fp_resendTokens s (when c resendTokens s) :=
  Within.when (fun _ h => foot_resendTokens (Print.Sub.refl _) h) (Within.refl _ s)

/-- What a new clock state writes to the registers (R56, R88). -/
theorem get_goClock_eq (c : Nat) (s : State) (g : Field) :
    get (goClock c s) g = get (putB R.CLK_STATUS.COAST (c = ckCOAST || c = ckRELOCK) (put R.CLK_STATUS.STATE c s)) g := by
  unfold goClock
  rw [get_whenResend, putB, putB]
  exact get_of_regs rfl g

theorem get_goClock {g : Field} (hs : fieldKey R.CLK_STATUS.STATE ≠ fieldKey g) (hc : fieldKey R.CLK_STATUS.COAST ≠ fieldKey g) (c : Nat)
    (s : State) : get (goClock c s) g = get s g := by
  rw [get_goClock_eq, putB, get_put_ne hc, get_put_ne hs]

theorem clkState_goClock {c : Nat} (hc : c < 8) (s : State) : clkState (goClock c s) = c := by
  rw [clkState, get_goClock_eq, putB, get_put_ne (by decide), get_put_self (by decide)]
  exact Nat.mod_eq_of_lt hc

theorem get_goClock_COAST (c : Nat) (s : State) : get (goClock c s) R.CLK_STATUS.COAST = b2n (c = ckCOAST || c = ckRELOCK) := by
  rw [get_goClock_eq, putB, get_put_self (by decide)]
  cases (decide (c = ckCOAST) || decide (c = ckRELOCK)) <;> rfl

@[simp] theorem clk_goClock (c : Nat) (s : State) : (goClock c s).clk = s.clk :=
  (foot_goClock (Print.Sub.refl _) (Within.refl _ s)).parts .clk (by decide) (by decide)
@[simp] theorem log_goClock (c : Nat) (s : State) : (goClock c s).log = s.log :=
  (foot_goClock (Print.Sub.refl _) (Within.refl _ s)).parts .log (by decide) (by decide)
@[simp] theorem us_goClock (c : Nat) (s : State) : (goClock c s).us = s.us :=
  (foot_goClock (Print.Sub.refl _) (Within.refl _ s)).parts .us (by decide) (by decide)

/-! COAST entered: the edges halved, the bypass closed (R69, R434). -/

theorem within_halveEdges (s : State) : Within fp_halveEdges s (halveEdges s) := foot_halveEdges (Print.Sub.refl _) (Within.refl _ s)

@[simp] theorem get_whenHalve (c : Bool) (s : State) (g : Field) : get (when c halveEdges s) g = get s g := by
  refine get_when ((within_halveEdges s).get ?_)
  simp only [fp_halveEdges, fp_setClk, Print.free_cons, Print.free_nil, Print.free_prt, Print.free_row, and_true]

@[simp] theorem log_whenHalve (c : Bool) (s : State) : (when c halveEdges s).log = s.log := by
  cases c
  · rfl
  · exact (within_halveEdges s).parts .log (by decide) (by decide)

/-- Of the clock unit, the edges halved change the switching period alone. -/
theorem clk_whenHalve (c : Bool) (s : State) : ∃ period next, (when c halveEdges s).clk = { s.clk with period := period, next := next } := by
  cases c
  · exact ⟨_, _, rfl⟩
  · have hphases : ∀ (f : Nat → State → State), (∀ n u, (f n u).clk = u.clk) → (each (List.range 200) f s).clk = s.clk :=
      fun f hf => each_keeps hf _ s
    refine ⟨halveRest (rootsRun s) s.clk.period, 400, ?_⟩
    simp only [when_true, halveEdges, clk_setClk]
    rw [hphases]
    intro n u
    split <;> rfl

/-- The registers of a closed bypass. -/
def ringFields : List Field := [R.RNG_STAT.STATE, R.RNG_STAT.MASTER_ACT, R.RNG_BUDGET.PENDING, R.RNG_EVENT]

theorem get_ringLeave {g : Field} (h : ∀ f ∈ ringFields, fieldKey f ≠ fieldKey g) (s : State) : get (ringLeave s) g = get s g := by
  refine (foot_ringLeave (Print.Sub.refl _) (Within.refl _ s)).get ?_
  simp only [ringFields, List.forall_mem_cons] at h
  obtain ⟨hstate, hact, hpending, hevent, -⟩ := h
  simp only [fp_ringLeave, fp_record, fp_recordAt, Print.free_cons, Print.free_nil, Print.free_reg, Print.free_prt, and_true]
  exact ⟨hstate, hact, hpending, hevent⟩

@[simp] theorem clk_ringLeave (s : State) : (ringLeave s).clk = s.clk :=
  (foot_ringLeave (Print.Sub.refl _) (Within.refl _ s)).parts .clk (by decide) (by decide)

/-- A bypass that closes records one event at most (R434). -/
theorem log_ringLeave (s : State) : ∃ l, (ringLeave s).log = { s.log with fresh := s.log.fresh ++ l } ∧ l.length ≤ 1 := by
  have hrecord : ∀ (u : State) (code arg : Nat), u.log = s.log →
      ∃ l, (record code arg u).log = { s.log with fresh := s.log.fresh ++ l } ∧ l.length ≤ 1 := by
    intro u code arg hu
    unfold record recordAt
    split
    · exact ⟨_, by rw [← hu], le_refl 1⟩
    · exact ⟨[], by simp [hu], Nat.zero_le 1⟩
  unfold ringLeave
  dsimp only
  split_ifs
  · exact hrecord _ _ _ (by simp [event])
  · exact hrecord _ _ _ (by simp [event])
  · exact ⟨[], by simp, Nat.zero_le 1⟩
  · exact ⟨[], by simp, Nat.zero_le 1⟩
  · exact ⟨[], by simp, Nat.zero_le 1⟩

/-- The clock unit as COAST is entered (R67 to R71, R79). -/
def coastClock (atOnce : Bool) (c : ClockH) : ClockH :=
  { c with run := 0, monFail := 0, lost := false, started := true, bootLate := false, waits := false,
           slotPs := if atOnce then 200000 else c.slotPs, settling := !atOnce }

/-- The registers that COAST's entry sets beside the clock state (R70, R71, R75, R395). -/
def coastShown (n : Nat) (s : State) : State :=
  s |> put R.CLK_STATUS.SYNC_LOST 1 |> put R.CLK_EVENT.REF_LOST 1 |> put R.CLK_EVENT.COAST_ENTER 1
    |> put R.CLK_COAST_CNT.COUNT n |> put R.PST_SYNC_STAT.LOCK 0 |> put R.THM_COAST_CAL.CT 8192

/-- No window of COAST has calibrated yet (R395). -/
def uncalibrated (s : State) : State := setTherm { s.therm with coastWin := false, coastCal := false } s

theorem get_uncalibrated (s : State) (g : Field) : get (uncalibrated s) g = get s g := rfl
theorem clk_uncalibrated (s : State) : (uncalibrated s).clk = s.clk := rfl
theorem log_uncalibrated (s : State) : (uncalibrated s).log = s.log := rfl
theorem clk_coastShown (n : Nat) (s : State) : (coastShown n s).clk = s.clk := by simp only [coastShown, put_clk]
theorem log_coastShown (n : Nat) (s : State) : (coastShown n s).log = s.log := by simp only [coastShown, put_log]

/-- COAST entered, but for the bypass. -/
def coastFlags (atOnce : Bool) (n : Nat) (s : State) : State :=
  goClock ckCOAST s |> setClk (coastClock atOnce s.clk) |> coastShown n |> uncalibrated |> when atOnce halveEdges

/-- How often COAST has been entered, with the entry under way (R70). -/
def coastCount (s : State) : Nat := min 0xFFFF (get s R.CLK_COAST_CNT.COUNT + 1)

theorem enterCoast_eq (atOnce : Bool) (s : State) :
    enterCoast atOnce s = record 0x0102 (coastCount s) (ringLeave (coastFlags atOnce (coastCount s) s)) := rfl

/-- Of the registers that a closing bypass leaves, COAST's entry sets the clock state and those of `coastShown`. -/
theorem get_enterCoast_eq {g : Field} (h : ∀ f ∈ ringFields, fieldKey f ≠ fieldKey g) (atOnce : Bool) (s : State) :
    get (enterCoast atOnce s) g = get (coastShown (coastCount s) (setClk (coastClock atOnce s.clk) (goClock ckCOAST s))) g := by
  rw [enterCoast_eq, get_record, get_ringLeave h, coastFlags, get_whenHalve, get_uncalibrated]

/-- The registers that COAST's entry writes. -/
def coastFields : List Field :=
  [R.CLK_STATUS.STATE, R.CLK_STATUS.COAST, R.CLK_STATUS.SYNC_LOST, R.CLK_EVENT.REF_LOST, R.CLK_EVENT.COAST_ENTER, R.CLK_COAST_CNT.COUNT,
   R.PST_SYNC_STAT.LOCK, R.THM_COAST_CAL.CT]

theorem get_enterCoast {g : Field} (h : ∀ f ∈ ringFields ++ coastFields, fieldKey f ≠ fieldKey g) (atOnce : Bool) (s : State) :
    get (enterCoast atOnce s) g = get s g := by
  have hring : ∀ f ∈ ringFields, fieldKey f ≠ fieldKey g := fun f hf => h f (List.mem_append_left _ hf)
  have hcoast : ∀ f ∈ coastFields, fieldKey f ≠ fieldKey g := fun f hf => h f (List.mem_append_right _ hf)
  simp only [coastFields, List.forall_mem_cons] at hcoast
  obtain ⟨hstate, hcst, hsync, hlost, henter, hcount, hlock, hct, -⟩ := hcoast
  rw [get_enterCoast_eq hring, coastShown, get_put_ne hct, get_put_ne hlock, get_put_ne hcount, get_put_ne henter, get_put_ne hlost,
    get_put_ne hsync, get_setClk, get_goClock hstate hcst]

/-- COAST's entry sets its four bits and counts (R70). -/
theorem coastEntered_enterCoast (atOnce : Bool) (s : State) : CoastEntered s (enterCoast atOnce s) := by
  have hcount : coastCount s % 2 ^ 16 = min 0xFFFF (get s R.CLK_COAST_CNT.COUNT + 1) :=
    Nat.mod_eq_of_lt (lt_of_le_of_lt (min_le_left _ _) (by decide))
  have hstate : get (goClock ckCOAST s) R.CLK_STATUS.STATE = 3 := clkState_goClock (by decide) s
  have hcoast : get (goClock ckCOAST s) R.CLK_STATUS.COAST = 1 := get_goClock_COAST ckCOAST s
  refine ⟨(get_enterCoast_eq (by decide) atOnce s).trans ?_, (get_enterCoast_eq (by decide) atOnce s).trans ?_,
    (get_enterCoast_eq (by decide) atOnce s).trans ?_, (get_enterCoast_eq (by decide) atOnce s).trans ?_,
    (get_enterCoast_eq (by decide) atOnce s).trans ?_, (get_enterCoast_eq (by decide) atOnce s).trans ?_⟩
  all_goals simp (disch := decide) only [coastShown, get_put_ne, get_put_self, get_setClk]
  exacts [hstate, hcoast, rfl, rfl, rfl, hcount]

/-- COAST's entry ignores sync (R71, R115). -/
theorem get_enterCoast_SYNC_LOCK (atOnce : Bool) (s : State) : get (enterCoast atOnce s) R.PST_SYNC_STAT.LOCK = 0 := by
  rw [get_enterCoast_eq (by decide)]
  simp (disch := decide) only [coastShown, get_put_ne, get_put_self]
  rfl

/-- The clock unit in COAST (R67 to R71, R79). -/
theorem clk_enterCoast (atOnce : Bool) (s : State) :
    ∃ period next, (enterCoast atOnce s).clk = { coastClock atOnce s.clk with period := period, next := next } := by
  obtain ⟨period, next, hclk⟩ :=
    clk_whenHalve atOnce (uncalibrated (coastShown (coastCount s) (setClk (coastClock atOnce s.clk) (goClock ckCOAST s))))
  have hflags : (coastFlags atOnce (coastCount s) s).clk = { coastClock atOnce s.clk with period := period, next := next } := by
    rwa [clk_uncalibrated, clk_coastShown, clk_setClk] at hclk
  refine ⟨period, next, ?_⟩
  rw [enterCoast_eq, record_clk, clk_ringLeave, hflags]

/-- COAST's entry is recorded, where the recorder queue has room for it and for the leaving of the ring (R70, R434). -/
theorem mem_queue_of_enterCoast {s u t : State} {atOnce : Bool} (ht : t.log = (enterCoast atOnce u).log) (hnow : now u = now s)
    (hcount : get u R.CLK_COAST_CNT.COUNT = get s R.CLK_COAST_CNT.COUNT) (hlog : u.log = s.log) (hfresh : s.log.fresh = [])
    (hroom : s.log.queue.length + 2 ≤ 64) : pkgEvent s 0x0102 (min 0xFFFF (get s R.CLK_COAST_CNT.COUNT + 1)) ∈ (finish t).log.queue := by
  have hflags : (coastFlags atOnce (coastCount u) u).log = s.log := by
    rw [coastFlags, log_whenHalve, log_uncalibrated, log_coastShown, log_setClk, log_goClock, hlog]
  obtain ⟨period, next, hclk⟩ := clk_enterCoast atOnce u
  obtain ⟨l, hl, hlen⟩ := log_ringLeave (coastFlags atOnce (coastCount u) u)
  have hnow' : now (ringLeave (coastFlags atOnce (coastCount u) u)) = now s := by
    have h : now (enterCoast atOnce u) = now u := get_enterCoast (by decide) atOnce u
    rw [enterCoast_eq] at h
    rw [← hnow, ← h, now, now, get_record]
  rw [enterCoast_eq] at ht hclk
  rw [← hcount, ← pkgEvent_of_now hnow']
  refine mem_queue_of_record ht ?_ ?_
  · rw [record_clk] at hclk
    rw [hclk]
    rfl
  · rw [hl, hflags, hfresh]
    simp only [List.nil_append]
    omega

end Sys2Proof.Machine

/-! JUDGE_WINDOW (R58 to R60, R64, R91, R395). -/

namespace Sys2Proof.Machine

/-- What a judged window shows: its count, and in COAST that of its TCLK edges (R91, R395). -/
def windowShown (count tclk : Nat) (s : State) : State :=
  s |> put R.CLK_REF_COUNT.COUNT (min 0xFFFF count) |> when (decide (clkState s = ckCOAST)) (calibrate tclk)

/-- The windows that the clock unit judges: in JUDGE and COAST, once it is powered (R58). -/
structure Judging (s : State) : Prop where
  on : stage s ≠ 0
  state : clkState s = 0 ∨ clkState s = 3

theorem Judging.judges {s : State} (h : Judging s) : ¬ (stage s = 0 ∨ (clkState s ≠ ckJUDGE ∧ clkState s ≠ ckCOAST)) := by
  rintro (hoff | ⟨hjudge, hcoast⟩)
  · exact h.on hoff
  · exact h.state.elim hjudge hcoast

/-- A count of a passing window (R59). -/
def Passing (count : Nat) : Prop := 15565 ≤ count ∧ count ≤ 17203

theorem not_passing {count : Nat} (h : count < 15565 ∨ 17203 < count) : ¬ Passing count := by
  unfold Passing
  omega

theorem within_whenCalibrate (c : Bool) (tclk : Nat) (s : State) : Within fp_calibrate s (when c (calibrate tclk) s) :=
  Within.when (fun _ h => foot_calibrate (Print.Sub.refl _) h) (Within.refl _ s)

theorem get_windowShown {g : Field} (hcount : fieldKey R.CLK_REF_COUNT.COUNT ≠ fieldKey g) (hct : fieldKey R.THM_COAST_CAL.CT ≠ fieldKey g)
    (count tclk : Nat) (s : State) : get (windowShown count tclk s) g = get s g := by
  refine ((within_whenCalibrate _ tclk _).get ?_).trans (get_put_ne hcount _ s)
  simpa only [fp_calibrate, Print.free_cons, Print.free_nil, Print.free_reg, Print.free_prt, and_true] using hct

theorem clk_windowShown (count tclk : Nat) (s : State) : (windowShown count tclk s).clk = s.clk :=
  ((within_whenCalibrate _ tclk _).parts .clk (by decide) (by decide)).trans (put_clk ..)

theorem get_windowShown_COUNT (count tclk : Nat) (s : State) :
    get (windowShown count tclk s) R.CLK_REF_COUNT.COUNT = min 0xFFFF count := by
  have hfree : fp_calibrate.Free R.CLK_REF_COUNT.COUNT := by
    simp only [fp_calibrate, Print.free_cons, Print.free_nil, Print.free_reg, Print.free_prt, and_true]
    decide
  refine ((within_whenCalibrate _ tclk _).get hfree).trans ?_
  rw [get_put_self (by decide)]
  exact Nat.mod_eq_of_lt (lt_of_le_of_lt (min_le_left _ _) (by decide))

/-- A window that began in COAST calibrates (R395). -/
theorem windowShown_calibrates {s : State} (hstate : clkState s = 3) (hwin : s.therm.coastWin = true) (count tclk : Nat) :
    get (windowShown count tclk s) R.THM_COAST_CAL.CT = min 0xFFFF tclk ∧ (windowShown count tclk s).therm.coastCal = true := by
  have hct : min 0xFFFF tclk % 2 ^ 16 = min 0xFFFF tclk := Nat.mod_eq_of_lt (lt_of_le_of_lt (min_le_left _ _) (by decide))
  have hcal : decide (clkState s = ckCOAST) = true := decide_eq_true hstate
  simp only [windowShown, hcal, when_true, calibrate, put_therm, hwin, if_true, and_true]
  exact (get_put_self (by decide) _ _).trans hct

section

variable {s : State} {count : Nat}

/-- A failing window (R60). -/
theorem effJudgeWindow_of_failing (h : Judging s) (hcount : ¬ Passing count) (tclk : Nat) : effJudgeWindow count tclk s =
    (setClk { (windowShown count tclk s).clk with run := 0 } (windowShown count tclk s) |> put R.CLK_EVENT.JUDGE_FAIL 1
      |> put R.CLK_STATUS.REF_OK 0) := by
  exact (if_neg h.judges).trans (if_neg hcount)

/-- The passing windows of a run are counted (R60). -/
def windowCounted (count tclk : Nat) (s : State) : State :=
  setClk { (windowShown count tclk s).clk with run := min 3 ((windowShown count tclk s).clk.run + 1) } (windowShown count tclk s)

theorem run_windowCounted (count tclk : Nat) (s : State) : (windowCounted count tclk s).clk.run = min 3 (s.clk.run + 1) := by
  rw [windowCounted, clk_setClk, clk_windowShown]

/-- A passing window, by the run that it makes (R60, R64, R76). -/
theorem effJudgeWindow_of_passing (h : Judging s) (hcount : Passing count) (tclk : Nat) : effJudgeWindow count tclk s =
    if (windowCounted count tclk s).clk.run < 3 then windowCounted count tclk s
    else if clkState s = ckJUDGE then
      windowCounted count tclk s |> put R.CLK_STATUS.REF_OK 1 |> goClock ckLOCKING
        |> setClk { (windowCounted count tclk s).clk with
            run := 0, retries := if (windowCounted count tclk s).clk.waits then 0 else (windowCounted count tclk s).clk.retries,
            since := (windowCounted count tclk s).us }
    else put R.CLK_STATUS.REF_OK 1 (windowCounted count tclk s) := by
  exact (if_neg h.judges).trans (if_pos hcount)

/-- A counted window shows its counts, and no more. -/
theorem get_windowCounted {g : Field} (hcount : fieldKey R.CLK_REF_COUNT.COUNT ≠ fieldKey g) (hct : fieldKey R.THM_COAST_CAL.CT ≠ fieldKey g)
    (count tclk : Nat) (s : State) : get (windowCounted count tclk s) g = get s g := get_windowShown hcount hct count tclk s

/-- A window that does not yet make three (R60). -/
theorem effJudgeWindow_of_short (h : Judging s) (hcount : Passing count) (hrun : s.clk.run < 2) (tclk : Nat) :
    effJudgeWindow count tclk s = windowCounted count tclk s := by
  rw [effJudgeWindow_of_passing h hcount, if_pos (by rw [run_windowCounted]; omega)]

/-- What three passing windows in a row accept shows REF_OK, and in JUDGE begins LOCKING (R60, R64, R76). -/
theorem effJudgeWindow_of_third (h : Judging s) (hcount : Passing count) (hrun : 2 ≤ s.clk.run) (tclk : Nat) :
    (∀ g, fieldKey R.CLK_STATUS.STATE ≠ fieldKey g → fieldKey R.CLK_STATUS.COAST ≠ fieldKey g →
      get (effJudgeWindow count tclk s) g = get (put R.CLK_STATUS.REF_OK 1 (windowCounted count tclk s)) g) ∧
    clkState (effJudgeWindow count tclk s) = if clkState s = 0 then 1 else 3 := by
  rw [effJudgeWindow_of_passing h hcount, if_neg (by rw [run_windowCounted]; omega)]
  by_cases hjudge : clkState s = 0
  · rw [if_pos (show clkState s = ckJUDGE from hjudge), if_pos hjudge]
    exact ⟨fun g hs hc => (get_setClk ..).trans (get_goClock hs hc _ _), clkState_goClock (by decide) _⟩
  · rw [if_neg (show ¬ clkState s = ckJUDGE from hjudge), if_neg hjudge]
    refine ⟨fun g _ _ => rfl, ?_⟩
    rw [clkState, get_put_ne (by decide), get_windowCounted (by decide) (by decide)]
    exact h.state.resolve_left hjudge

/-- JUDGE_WINDOW that makes three: the reference is accepted. -/
theorem judgeWindow_accepts (h : Judging s) (hcount : Passing count) (hrun : 2 ≤ s.clk.run) (tclk : Nat) :
    ∃ t, exec (.judgeWindow ⟨count, tclk⟩) s = .next t ∧ get t R.CLK_REF_COUNT.COUNT = count ∧ get t R.CLK_STATUS.REF_OK = 1 ∧
      clkState t = if clkState s = 0 then 1 else 3 := by
  obtain ⟨hget, hstate⟩ := effJudgeWindow_of_third h hcount hrun tclk
  refine ⟨_, rfl, ?_, ?_, ?_⟩
  · rw [get_finish (by decide) (by decide), hget _ (by decide) (by decide), get_put_ne (by decide), windowCounted, get_setClk,
      get_windowShown_COUNT]
    exact min_eq_right (le_trans hcount.2 (by decide))
  · rw [get_finish (by decide) (by decide), hget _ (by decide) (by decide), get_put_self (by decide)]
    rfl
  · rw [clkState, get_finish (by decide) (by decide)]
    exact hstate

/-- JUDGE_WINDOW that passes without making three: it is counted, and nothing is accepted. -/
theorem judgeWindow_counts (h : Judging s) (hcount : Passing count) (hrun : s.clk.run < 2) (tclk : Nat) :
    ∃ t, exec (.judgeWindow ⟨count, tclk⟩) s = .next t ∧ t.clk.run = s.clk.run + 1 ∧ clkState t = clkState s ∧
      get t R.CLK_STATUS.REF_OK = get s R.CLK_STATUS.REF_OK ∧ get t R.CLK_EVENT.JUDGE_FAIL = get s R.CLK_EVENT.JUDGE_FAIL := by
  have hget : ∀ g, fieldKey R.REC_LOST.COUNT ≠ fieldKey g → fieldKey R.REC_EVENT ≠ fieldKey g →
      fieldKey R.CLK_REF_COUNT.COUNT ≠ fieldKey g → fieldKey R.THM_COAST_CAL.CT ≠ fieldKey g →
      get (finish (effJudgeWindow count tclk s)) g = get s g := fun g hlost hrec hshown hct => by
    rw [get_finish hlost hrec, effJudgeWindow_of_short h hcount hrun, get_windowCounted hshown hct]
  refine ⟨_, rfl, ?_, hget _ (by decide) (by decide) (by decide) (by decide), hget _ (by decide) (by decide) (by decide) (by decide),
    hget _ (by decide) (by decide) (by decide) (by decide)⟩
  rw [clk_finish, effJudgeWindow_of_short h hcount hrun, run_windowCounted]
  omega

/-- JUDGE_WINDOW that fails: the run begins anew, and the reference is not good. -/
theorem judgeWindow_fails (h : Judging s) (hcount : ¬ Passing count) (tclk : Nat) :
    ∃ t, exec (.judgeWindow ⟨count, tclk⟩) s = .next t ∧ get t R.CLK_REF_COUNT.COUNT = min 0xFFFF count ∧ get t R.CLK_STATUS.REF_OK = 0 ∧
      get t R.CLK_EVENT.JUDGE_FAIL = 1 ∧ t.clk.run = 0 ∧ clkState t = clkState s := by
  refine ⟨_, rfl, ?_⟩
  rw [clkState, clk_finish, effJudgeWindow_of_failing h hcount]
  simp (disch := decide) only [get_finish, get_put_ne, get_put_self, get_setClk, get_windowShown_COUNT, get_windowShown, put_clk, clk_setClk,
    true_and]
  exact ⟨rfl, rfl, rfl⟩

/-- JUDGE_WINDOW in COAST, of a window that began there: it calibrates (R395). -/
theorem judgeWindow_calibrates (h : stage s ≠ 0) (hstate : clkState s = 3) (hwin : s.therm.coastWin = true) (count tclk : Nat) :
    ∃ t, exec (.judgeWindow ⟨count, tclk⟩) s = .next t ∧ get t R.THM_COAST_CAL.CT = min 0xFFFF tclk ∧ t.therm.coastCal = true := by
  have hjudging : Judging s := ⟨h, .inr hstate⟩
  have hcoast : ¬ clkState s = ckJUDGE := fun e => absurd (hstate.symm.trans e) (by decide)
  have hshown := windowShown_calibrates hstate hwin count tclk
  refine ⟨_, rfl, ?_⟩
  rw [get_finish (by decide) (by decide), therm_finish]
  by_cases hcount : Passing count
  · rw [effJudgeWindow_of_passing hjudging hcount, if_neg hcoast]
    split
    · exact hshown
    · rw [get_put_ne (by decide), put_therm]
      exact hshown
  · rw [effJudgeWindow_of_failing hjudging hcount, get_put_ne (by decide), get_put_ne (by decide), put_therm, put_therm]
    exact hshown

end

end Sys2Proof.Machine

/-! LOCK_MONITOR_WINDOW and REF_LOST: LOCKED reached, REFCLK lost (R61, R66, R78, R80). -/

namespace Sys2Proof.Machine

theorem get_ringListen {g : Field} (h : fieldKey R.RNG_STAT.STATE ≠ fieldKey g) (s : State) : get (ringListen s) g = get s g := by
  refine (foot_ringListen (Print.Sub.refl _) (Within.refl _ s)).get ?_
  simpa only [fp_ringListen, fp_setRing, Print.free_cons, Print.free_nil, Print.free_reg, Print.free_prt, and_true] using h

/-- What the return from COAST adds to LOCKED (R78, R115). -/
def coastLeft (s : State) : State :=
  s |> put R.CLK_EVENT.COAST_EXIT 1 |> record 0x0103 0 |> when (!isOn s R.PST_CTRL.SYNC_EN) (put R.CLK_STATUS.SYNC_LOST 0)

theorem get_coastLeft {g : Field} (h : fieldKey R.CLK_STATUS.SYNC_LOST ≠ fieldKey g) (s : State) :
    get (coastLeft s) g = get (put R.CLK_EVENT.COAST_EXIT 1 s) g := by
  rw [coastLeft, get_when (get_put_ne h _ _), get_record]

/-- The registers of LOCKED, but for those of the return from COAST. -/
theorem get_enterLocked {g : Field} (hring : fieldKey R.RNG_STAT.STATE ≠ fieldKey g) (hexit : fieldKey R.CLK_EVENT.COAST_EXIT ≠ fieldKey g)
    (hsync : fieldKey R.CLK_STATUS.SYNC_LOST ≠ fieldKey g) (s : State) :
    get (enterLocked s) g = get (put R.CLK_STATUS.REF_OK 1 (goClock ckLOCKED s)) g := by
  have hleft : ∀ c u, get (when c coastLeft u) g = get u g := fun c u =>
    get_when ((get_coastLeft hsync u).trans (get_put_ne hexit _ u))
  exact (get_ringListen hring _).trans (hleft _ _)

theorem get_enterLocked_COAST_EXIT {s : State} (h : clkState s = 4) : get (enterLocked s) R.CLK_EVENT.COAST_EXIT = 1 := by
  have hback : decide (clkState s = ckRELOCK) = true := decide_eq_true h
  have hexit : ∀ c u, c = true → get (when c coastLeft u) R.CLK_EVENT.COAST_EXIT = 1 := by
    rintro c u rfl
    rw [when_true, get_coastLeft (by decide), get_put_self (by decide)]
    rfl
  exact (get_ringListen (by decide) _).trans (hexit _ _ hback)

/-- LOCK_MONITOR_WINDOW in LOCKING or RELOCK, at the frequency that R61 asks: LOCKED. -/
theorem lockMonitorWindow_locks {s : State} {count : Nat} (hlost : s.clk.lost = false) (hstate : clkState s = 1 ∨ clkState s = 4)
    (hlo : 1023 ≤ count) (hhi : count ≤ 1025) (hnear : rootNear s = true) :
    ∃ t, exec (.lockMonitorWindow count) s = .next t ∧ clkState t = 2 ∧ get t R.CLK_STATUS.REF_OK = 1 ∧ get t R.CLK_STATUS.COAST = 0 ∧
      (clkState s = 4 → get t R.CLK_EVENT.COAST_EXIT = 1) := by
  have heff : effLockMonitorWindow count s = enterLocked s := by
    have hlocks : clkState s = ckLOCKING ∨ clkState s = ckRELOCK := hstate
    simp [effLockMonitorWindow, hlost, hlocks, hlo, hhi, hnear]
  have hlocked : get (goClock ckLOCKED s) R.CLK_STATUS.STATE = 2 := clkState_goClock (by decide) s
  have hcoast : get (goClock ckLOCKED s) R.CLK_STATUS.COAST = 0 := get_goClock_COAST ckLOCKED s
  refine ⟨_, rfl, ?_⟩
  rw [heff, clkState]
  simp (disch := decide) only [get_finish, get_enterLocked, get_put_ne, get_put_self]
  exact ⟨hlocked, rfl, hcoast, get_enterLocked_COAST_EXIT⟩

/-- REFCLK declared lost: REF_OK falls, the state stays, the loss is recorded (R66, R80). -/
theorem declareLost_declares (s : State) : (finish (declareLost s)).clk.lost = true ∧ get (finish (declareLost s)) R.CLK_STATUS.REF_OK = 0 ∧
    clkState (finish (declareLost s)) = clkState s ∧ (Room s 1 → pkgEvent s 0x0101 0 ∈ (finish (declareLost s)).log.queue) := by
  let u := setClk { s.clk with lost := true, run := 0, monFail := 0 } s |> put R.CLK_STATUS.REF_OK 0
  have heff : declareLost s = record 0x0101 0 u := rfl
  have hclk : u.clk = { s.clk with lost := true, run := 0, monFail := 0 } := put_clk ..
  have hlog : u.log = s.log := put_log ..
  refine ⟨?_, ?_, ?_, fun hroom => ?_⟩
  · rw [clk_finish, heff, record_clk, hclk]
  · rw [get_finish (by decide) (by decide), heff, get_record, get_put_self (by decide)]
    rfl
  · rw [clkState, get_finish (by decide) (by decide), heff, get_record, get_put_ne (by decide)]
    rfl
  · obtain ⟨hstarted, hfresh, hlen⟩ := hroom
    have hnow : now u = now s := get_put_ne (by decide) ..
    rw [← pkgEvent_of_now hnow, heff]
    refine mem_queue_of_record rfl ?_ ?_
    · rw [hclk]
      exact hstarted
    · rwa [hlog, hfresh]

/-- LOCK_MONITOR_WINDOW in LOCKED, failing as the one before it: REFCLK is lost. -/
theorem lockMonitorWindow_loses {s : State} {count : Nat} (hlost : s.clk.lost = false) (hstate : clkState s = 2)
    (hcount : count < 1019 ∨ 1029 < count) (hfail : s.clk.monFail ≠ 0) :
    ∃ t, exec (.lockMonitorWindow count) s = .next t ∧ t.clk.lost = true ∧ get t R.CLK_STATUS.REF_OK = 0 ∧
      (Room s 1 → pkgEvent s 0x0101 0 ∈ t.log.queue) := by
  have heff : effLockMonitorWindow count s = declareLost s := by
    have hbad : ¬ (1019 ≤ count ∧ count ≤ 1029) := by omega
    simp [effLockMonitorWindow, hlost, hstate, ckLOCKING, ckRELOCK, ckLOCKED, hbad, hfail]
  obtain ⟨hl, href, -, hrec⟩ := declareLost_declares s
  refine ⟨_, rfl, ?_⟩
  rw [heff]
  exact ⟨hl, href, hrec⟩

theorem refLost_declares {s : State} (hstate : clkState s = 2 ∨ clkState s = 4) (hlost : s.clk.lost = false) :
    ∃ t, exec .refLost s = .next t ∧ t.clk.lost = true ∧ get t R.CLK_STATUS.REF_OK = 0 ∧ clkState t = clkState s ∧
      (Room s 1 → pkgEvent s 0x0101 0 ∈ t.log.queue) := by
  have hruns : (clkState s = ckLOCKED ∨ clkState s = ckRELOCK) ∧ (!s.clk.lost) = true := ⟨hstate, by rw [hlost]; rfl⟩
  exact ⟨_, congrArg done (if_pos hruns), declareLost_declares s⟩

end Sys2Proof.Machine

/-! COAST_ENTER, RELOCK_START and RELOCK_TIMEOUT (R67 to R71, R76 to R79). -/

namespace Sys2Proof.Machine

theorem CoastEntered.finish {s t : State} (h : CoastEntered s t) : CoastEntered s (finish t) := by
  obtain ⟨hstate, hcoast, hsync, hlost, henter, hcount⟩ := h
  have hget : ∀ g, fieldKey R.REC_LOST.COUNT ≠ fieldKey g → fieldKey R.REC_EVENT ≠ fieldKey g → get (Machine.finish t) g = get t g :=
    fun g h1 h2 => get_finish h1 h2
  exact ⟨(hget _ (by decide) (by decide)).trans hstate, (hget _ (by decide) (by decide)).trans hcoast,
    (hget _ (by decide) (by decide)).trans hsync, (hget _ (by decide) (by decide)).trans hlost,
    (hget _ (by decide) (by decide)).trans henter, (hget _ (by decide) (by decide)).trans hcount⟩

/-- COAST's entry counts on from a state of the same count. -/
theorem CoastEntered.of_count {s u t : State} (h : CoastEntered u t) (hcount : get u R.CLK_COAST_CNT.COUNT = get s R.CLK_COAST_CNT.COUNT) :
    CoastEntered s t :=
  ⟨h.state, h.coast, h.syncLost, h.refLost, h.entered, hcount ▸ h.count⟩

/-- A field that is none of COAST's entry, written after it. -/
theorem CoastEntered.put {s t : State} {f : Field} (h : CoastEntered s t) (hf : ∀ g ∈ coastFields, fieldKey f ≠ fieldKey g) (v : Nat) :
    CoastEntered s (put f v t) := by
  simp only [coastFields, List.forall_mem_cons] at hf
  obtain ⟨hstate, hcst, hsync, hlost, henter, hcount, -⟩ := hf
  obtain ⟨istate, icoast, isync, ilost, ienter, icount⟩ := h
  exact ⟨(get_put_ne hstate v t).trans istate, (get_put_ne hcst v t).trans icoast, (get_put_ne hsync v t).trans isync,
    (get_put_ne hlost v t).trans ilost, (get_put_ne henter v t).trans ienter, (get_put_ne hcount v t).trans icount⟩

/-- COAST_ENTER: the first SLOT edge after the loss. -/
theorem coastEnter_enters {s : State} (hstate : clkState s = 2 ∨ clkState s = 4) (hlost : s.clk.lost = true) :
    ∃ t, exec .coastEnter s = .next t ∧ CoastEntered s t ∧ get t R.PST_SYNC_STAT.LOCK = 0 ∧ t.clk.slotPs = 200000 ∧
      (Room s 2 → pkgEvent s 0x0102 (min 0xFFFF (get s R.CLK_COAST_CNT.COUNT + 1)) ∈ t.log.queue) := by
  have hruns : (clkState s = ckLOCKED ∨ clkState s = ckRELOCK) ∧ s.clk.lost = true := ⟨hstate, hlost⟩
  obtain ⟨period, next, hclk⟩ := clk_enterCoast true s
  refine ⟨_, congrArg done (if_pos hruns), (coastEntered_enterCoast true s).finish, ?_, ?_, fun hroom => ?_⟩
  · rw [get_finish (by decide) (by decide), get_enterCoast_SYNC_LOCK]
  · rw [clk_finish, hclk]
    rfl
  · exact mem_queue_of_enterCoast rfl rfl rfl rfl hroom.fresh hroom.room

theorem relockStart_starts {s : State} (hstate : clkState s = 3) (href : get s R.CLK_STATUS.REF_OK = 1)
    (hauto : get s R.CLK_CFG.AUTO_RELOCK = 1) :
    ∃ t, exec .relockStart s = .next t ∧ clkState t = 4 ∧ get t R.CLK_STATUS.COAST = 1 := by
  have hruns : clkState s = ckCOAST ∧ isOn s R.CLK_STATUS.REF_OK = true ∧ isOn s R.CLK_CFG.AUTO_RELOCK = true :=
    ⟨hstate, by simp [isOn, href], by simp [isOn, hauto]⟩
  have hrelock : clkState (goClock ckRELOCK s) = 4 := clkState_goClock (by decide) s
  have hcoast : get (goClock ckRELOCK s) R.CLK_STATUS.COAST = 1 := get_goClock_COAST ckRELOCK s
  refine ⟨_, congrArg done (if_pos hruns), ?_, ?_⟩
  · rw [clkState, get_finish (by decide) (by decide)]
    exact hrelock
  · rw [get_finish (by decide) (by decide)]
    exact hcoast

/-- A RELOCK that has failed, counted (R79). -/
def relockFailed (s : State) : State :=
  s |> put R.CLK_EVENT.LOCK_RETRY 1 |> setClk { s.clk with relockFails := min 3 (s.clk.relockFails + 1) }

theorem get_relockFailed {g : Field} (h : fieldKey R.CLK_EVENT.LOCK_RETRY ≠ fieldKey g) (s : State) : get (relockFailed s) g = get s g := by
  rw [relockFailed, get_setClk, get_put_ne h]

/-- The state that a failed RELOCK ends in, but for AUTO_RELOCK (R79). -/
def coastAgain (s : State) : State := enterCoast false (relockFailed s)

/-- The third failure in a row, and each later one (R79). -/
def thirdFailure (s : State) : Bool := decide (3 ≤ min 3 (s.clk.relockFails + 1))

theorem effRelockTimeout_eq {s : State} (hstate : clkState s = 4) (hus : 500 ≤ s.us - s.clk.since) :
    effRelockTimeout s = when (thirdFailure s) (put R.CLK_CFG.AUTO_RELOCK 0) (coastAgain s) := if_pos ⟨hstate, hus⟩

theorem coastEntered_coastAgain (s : State) : CoastEntered s (coastAgain s) :=
  (coastEntered_enterCoast false _).of_count (get_relockFailed (by decide) s)

theorem get_coastAgain {g : Field} (h : ∀ f ∈ ringFields ++ coastFields, fieldKey f ≠ fieldKey g) (s : State) :
    get (coastAgain s) g = get (relockFailed s) g := get_enterCoast h false _

theorem clk_coastAgain (s : State) : (coastAgain s).clk.slotPs = s.clk.slotPs ∧ (coastAgain s).clk.settling = true ∧
    (coastAgain s).clk.relockFails = min 3 (s.clk.relockFails + 1) := by
  obtain ⟨period, next, hclk⟩ := clk_enterCoast false (relockFailed s)
  rw [coastAgain, hclk]
  exact ⟨rfl, rfl, rfl⟩

/-- RELOCK_TIMEOUT: COAST again, and from the third failure in a row on no RELOCK begins by itself. -/
theorem relockTimeout_enters {s : State} (hstate : clkState s = 4) (hus : 500 ≤ s.us - s.clk.since) :
    ∃ t, exec .relockTimeout s = .next t ∧ CoastEntered s t ∧ get t R.CLK_EVENT.LOCK_RETRY = 1 ∧ t.clk.slotPs = s.clk.slotPs ∧
      t.clk.settling = true ∧ t.clk.relockFails = min 3 (s.clk.relockFails + 1) ∧
      get t R.CLK_CFG.AUTO_RELOCK = (if 2 ≤ s.clk.relockFails then 0 else get s R.CLK_CFG.AUTO_RELOCK) ∧
      (Room s 2 → pkgEvent s 0x0102 (min 0xFFFF (get s R.CLK_COAST_CNT.COUNT + 1)) ∈ t.log.queue) := by
  have hkept : ∀ c, (when c (put R.CLK_CFG.AUTO_RELOCK 0) (coastAgain s)).clk = (coastAgain s).clk ∧
      (when c (put R.CLK_CFG.AUTO_RELOCK 0) (coastAgain s)).log = (coastAgain s).log ∧
      CoastEntered s (when c (put R.CLK_CFG.AUTO_RELOCK 0) (coastAgain s)) := by
    rintro (_ | _)
    · exact ⟨rfl, rfl, coastEntered_coastAgain s⟩
    · simp only [when_true, put_clk, put_log, true_and]
      exact (coastEntered_coastAgain s).put (by decide) 0
  obtain ⟨hclk, hlog, hentered⟩ := hkept (thirdFailure s)
  obtain ⟨hslot, hsettling, hfails⟩ := clk_coastAgain s
  have hretry : get (relockFailed s) R.CLK_EVENT.LOCK_RETRY = 1 := by
    rw [relockFailed, get_setClk, get_put_self (by decide)]
    rfl
  refine ⟨_, rfl, ?_⟩
  rw [effRelockTimeout_eq hstate hus]
  refine ⟨hentered.finish, ?_, ?_, ?_, ?_, ?_, fun hroom => ?_⟩
  · have hother : get (put R.CLK_CFG.AUTO_RELOCK 0 (coastAgain s)) R.CLK_EVENT.LOCK_RETRY = get (coastAgain s) R.CLK_EVENT.LOCK_RETRY :=
      get_put_ne (by decide) 0 (coastAgain s)
    rw [get_finish (by decide) (by decide), get_when hother, get_coastAgain (by decide), hretry]
  · rw [clk_finish, hclk, hslot]
  · rw [clk_finish, hclk, hsettling]
  · rw [clk_finish, hclk, hfails]
  · rw [get_finish (by decide) (by decide), thirdFailure]
    by_cases hthird : 2 ≤ s.clk.relockFails
    · rw [decide_eq_true (by omega), when_true, if_pos hthird, get_put_self (by decide)]
      rfl
    · rw [decide_eq_false (by omega), when_false, if_neg hthird, get_coastAgain (by decide), get_relockFailed (by decide)]
  · exact mem_queue_of_enterCoast (u := relockFailed s) hlog (get_relockFailed (by decide) s) (get_relockFailed (by decide) s) (put_log ..)
      hroom.fresh hroom.room

end Sys2Proof.Machine

/-! LOCK_RETRY and BOOT_CLOCK_TIMEOUT: a start-up that finds no lock (R62 to R64). -/

namespace Sys2Proof.Machine

/-- COAST where COAST_BOOT is 1. -/
theorem startFailed_of_boot {s : State} (h : get s R.CLK_CFG.COAST_BOOT ≠ 0) :
    startFailed s = enterCoast true (put R.CLK_STATUS.REF_OK 0 s) := if_pos (decide_eq_true h)

/-- Else boot waits in JUDGE. -/
theorem startFailed_of_wait {s : State} (h : get s R.CLK_CFG.COAST_BOOT = 0) : startFailed s = setClk { s.clk with waits := true } s :=
  if_neg (by simp [isOn, h])

theorem clkState_startFailed {s : State} (h : clkState s = 0) :
    clkState (startFailed s) = if get s R.CLK_CFG.COAST_BOOT = 0 then 0 else 3 := by
  by_cases hboot : get s R.CLK_CFG.COAST_BOOT = 0
  · rw [startFailed_of_wait hboot, if_pos hboot]
    exact h
  · rw [startFailed_of_boot hboot, if_neg hboot]
    exact (coastEntered_enterCoast true _).state

theorem get_startFailed {s : State} {g : Field} (h : ∀ f ∈ ringFields ++ coastFields, fieldKey f ≠ fieldKey g) :
    get (startFailed s) g = get s g ∨ get (startFailed s) g = get (put R.CLK_STATUS.REF_OK 0 s) g := by
  by_cases hboot : get s R.CLK_CFG.COAST_BOOT = 0
  · rw [startFailed_of_wait hboot]
    exact .inl rfl
  · rw [startFailed_of_boot hboot]
    exact .inr (get_enterCoast h true _)

theorem get_startFailed_ne {s : State} {g : Field} (h : ∀ f ∈ ringFields ++ coastFields, fieldKey f ≠ fieldKey g)
    (href : fieldKey R.CLK_STATUS.REF_OK ≠ fieldKey g) : get (startFailed s) g = get s g :=
  (get_startFailed h).elim id fun hput => hput.trans (get_put_ne href 0 s)

theorem get_startFailed_REF_OK {s : State} (h : get s R.CLK_STATUS.REF_OK = 0) : get (startFailed s) R.CLK_STATUS.REF_OK = 0 :=
  (get_startFailed (by decide)).elim (·.trans h) fun hput => hput.trans (get_put_self (by decide) 0 s)

/-- A start-up that fails with COAST_BOOT at 1 enters COAST (R63, R70). -/
theorem startFailed_enters {s u : State} (hboot : get u R.CLK_CFG.COAST_BOOT = 1) (hnow : now u = now s) (hlog : u.log = s.log)
    (hcount : get u R.CLK_COAST_CNT.COUNT = get s R.CLK_COAST_CNT.COUNT) :
    CoastEntered s (finish (startFailed u)) ∧ (s.log.fresh = [] → s.log.queue.length + 2 ≤ 64 →
      pkgEvent s 0x0102 (min 0xFFFF (get s R.CLK_COAST_CNT.COUNT + 1)) ∈ (finish (startFailed u)).log.queue) := by
  have hput : ∀ g, fieldKey R.CLK_STATUS.REF_OK ≠ fieldKey g → get (put R.CLK_STATUS.REF_OK 0 u) g = get u g :=
    fun g hg => get_put_ne hg 0 u
  have hcount' : get (put R.CLK_STATUS.REF_OK 0 u) R.CLK_COAST_CNT.COUNT = get s R.CLK_COAST_CNT.COUNT := (hput _ (by decide)).trans hcount
  rw [startFailed_of_boot (by rw [hboot]; exact Nat.one_ne_zero)]
  exact ⟨((coastEntered_enterCoast true _).of_count hcount').finish, fun hfresh hroom =>
    mem_queue_of_enterCoast rfl ((hput _ (by decide)).trans hnow) hcount' ((put_log ..).trans hlog) hfresh hroom⟩

/-- The state of a LOCK_RETRY that goes back to JUDGE, the retries counted in n (R62). -/
def retried (n : Nat) (s : State) : State :=
  s |> put R.CLK_EVENT.LOCK_RETRY 1 |> put R.CLK_STATUS.REF_OK 0 |> goClock ckJUDGE
    |> setClk { s.clk with run := 0, retries := if 3 ≤ n then 0 else n } |> when (decide (3 ≤ n)) (put R.CLK_STATUS.LOCK_FAIL 1)

theorem effLockRetry_of_judge {s : State} (hstate : clkState s = 1) (hus : 200 ≤ s.us - s.clk.since)
    (h : s.clk.waits = false ∨ 2 ≤ s.clk.retries) : effLockRetry s =
      when (decide (3 ≤ s.clk.retries + 1) || s.clk.bootLate) startFailed (retried (s.clk.retries + 1) s) := by
  have hback : ¬ (s.clk.waits = true ∧ s.clk.retries + 1 < 3) := by
    rintro ⟨hwaits, hfew⟩
    rcases h with h | h
    · exact absurd (h.symm.trans hwaits) (by decide)
    · omega
  exact (if_pos ⟨hstate, hus⟩).trans (if_neg hback)

theorem effLockRetry_of_waits {s : State} (hstate : clkState s = 1) (hus : 200 ≤ s.us - s.clk.since) (hwaits : s.clk.waits = true)
    (hfew : s.clk.retries < 2) : effLockRetry s =
      setClk { s.clk with retries := s.clk.retries + 1, since := s.us } (put R.CLK_EVENT.LOCK_RETRY 1 s) := by
  have hagain : s.clk.waits = true ∧ s.clk.retries + 1 < 3 := ⟨hwaits, by omega⟩
  rw [effLockRetry, if_pos ⟨hstate, hus⟩]
  simp only [hagain, and_self, if_true]

section

variable {s : State} {n : Nat}

/-- A retry writes four registers, the last only where it is the third (R62). -/
theorem get_retried {g : Field} (hfail : fieldKey R.CLK_STATUS.LOCK_FAIL ≠ fieldKey g) (hstate : fieldKey R.CLK_STATUS.STATE ≠ fieldKey g)
    (hcoast : fieldKey R.CLK_STATUS.COAST ≠ fieldKey g) :
    get (retried n s) g = get (s |> put R.CLK_EVENT.LOCK_RETRY 1 |> put R.CLK_STATUS.REF_OK 0) g := by
  rw [retried, get_when (get_put_ne hfail _ _), get_setClk, get_goClock hstate hcoast]

theorem clkState_retried : clkState (retried n s) = 0 := by
  have hjudge : clkState (goClock ckJUDGE (s |> put R.CLK_EVENT.LOCK_RETRY 1 |> put R.CLK_STATUS.REF_OK 0)) = 0 :=
    clkState_goClock (by decide) _
  rw [clkState, retried, get_when (get_put_ne (by decide) _ _), get_setClk]
  exact hjudge

theorem get_retried_LOCK_RETRY : get (retried n s) R.CLK_EVENT.LOCK_RETRY = 1 := by
  rw [get_retried (by decide) (by decide) (by decide), get_put_ne (by decide), get_put_self (by decide)]
  rfl

theorem get_retried_REF_OK : get (retried n s) R.CLK_STATUS.REF_OK = 0 := by
  rw [get_retried (by decide) (by decide) (by decide), get_put_self (by decide)]
  rfl

theorem get_retried_LOCK_FAIL :
    get (retried n s) R.CLK_STATUS.LOCK_FAIL = if 3 ≤ n then 1 else get s R.CLK_STATUS.LOCK_FAIL := by
  rw [retried]
  by_cases hthird : 3 ≤ n
  · rw [decide_eq_true hthird, when_true, get_put_self (by decide)]
    exact (if_pos hthird).symm
  · rw [decide_eq_false hthird, when_false, get_setClk, get_goClock (by decide) (by decide), get_put_ne (by decide), get_put_ne (by decide)]
    exact (if_neg hthird).symm

/-- What a retry leaves. -/
theorem get_retried_other {g : Field} (h : ∀ f ∈ [R.CLK_STATUS.LOCK_FAIL, R.CLK_STATUS.STATE, R.CLK_STATUS.COAST, R.CLK_STATUS.REF_OK,
    R.CLK_EVENT.LOCK_RETRY], fieldKey f ≠ fieldKey g) : get (retried n s) g = get s g := by
  simp only [List.forall_mem_cons] at h
  obtain ⟨hfail, hstate, hcoast, href, hretry, -⟩ := h
  rw [get_retried hfail hstate hcoast, get_put_ne href, get_put_ne hretry]

theorem log_retried : (retried n s).log = s.log := by
  have hfail : ∀ c u, (when c (put R.CLK_STATUS.LOCK_FAIL 1) u).log = u.log := by
    rintro (_ | _) u
    · rfl
    · rw [when_true, put_log]
  rw [retried, hfail, log_setClk, log_goClock, put_log, put_log]

/-- LOCK_RETRY that boot does not wait for: JUDGE again, and no LOCK_FAIL. -/
theorem lockRetry_judges (hstate : clkState s = 1) (hus : 200 ≤ s.us - s.clk.since) (hwaits : s.clk.waits = false)
    (hlate : s.clk.bootLate = false) (hfew : s.clk.retries < 2) :
    ∃ t, exec .lockRetry s = .next t ∧ clkState t = 0 ∧ get t R.CLK_EVENT.LOCK_RETRY = 1 ∧ t.clk.retries = s.clk.retries + 1 ∧
      get t R.CLK_STATUS.LOCK_FAIL = get s R.CLK_STATUS.LOCK_FAIL := by
  have hnot : ¬ 3 ≤ s.clk.retries + 1 := by omega
  have heff : effLockRetry s = retried (s.clk.retries + 1) s := by
    rw [effLockRetry_of_judge hstate hus (.inl hwaits), hlate, decide_eq_false hnot]
    rfl
  refine ⟨_, rfl, ?_⟩
  rw [heff, clkState, get_finish (by decide) (by decide), get_finish (by decide) (by decide), get_finish (by decide) (by decide), clk_finish,
    get_retried_LOCK_FAIL, if_neg hnot, get_retried_LOCK_RETRY]
  refine ⟨clkState_retried, rfl, ?_, rfl⟩
  rw [retried, decide_eq_false hnot, when_false, clk_setClk, if_neg hnot]

/-- LOCK_RETRY after boot's 10 ms: the start-up has failed, without LOCK_FAIL. -/
theorem lockRetry_late (hstate : clkState s = 1) (hus : 200 ≤ s.us - s.clk.since) (hwaits : s.clk.waits = false)
    (hlate : s.clk.bootLate = true) (hfew : s.clk.retries < 2) :
    ∃ t, exec .lockRetry s = .next t ∧ get t R.CLK_EVENT.LOCK_RETRY = 1 ∧ get t R.CLK_STATUS.REF_OK = 0 ∧
      get t R.CLK_STATUS.LOCK_FAIL = get s R.CLK_STATUS.LOCK_FAIL ∧ clkState t = if get s R.CLK_CFG.COAST_BOOT = 0 then 0 else 3 := by
  have heff : effLockRetry s = startFailed (retried (s.clk.retries + 1) s) := by
    rw [effLockRetry_of_judge hstate hus (.inl hwaits), hlate, Bool.or_true, when_true]
  have hboot : get (retried (s.clk.retries + 1) s) R.CLK_CFG.COAST_BOOT = get s R.CLK_CFG.COAST_BOOT := get_retried_other (by decide)
  refine ⟨_, rfl, ?_⟩
  rw [heff, clkState, get_finish (by decide) (by decide), get_finish (by decide) (by decide), get_finish (by decide) (by decide),
    get_finish (by decide) (by decide), get_startFailed_ne (by decide) (by decide), get_startFailed_REF_OK get_retried_REF_OK,
    get_startFailed_ne (by decide) (by decide), get_retried_LOCK_RETRY, get_retried_LOCK_FAIL, if_neg (by omega), ← hboot]
  exact ⟨rfl, rfl, rfl, clkState_startFailed clkState_retried⟩

/-- LOCK_RETRY while boot waits: LOCKING goes on. -/
theorem lockRetry_waits (hstate : clkState s = 1) (hus : 200 ≤ s.us - s.clk.since) (hwaits : s.clk.waits = true)
    (hfew : s.clk.retries < 2) :
    ∃ t, exec .lockRetry s = .next t ∧ clkState t = 1 ∧ get t R.CLK_EVENT.LOCK_RETRY = 1 ∧ t.clk.retries = s.clk.retries + 1 := by
  refine ⟨_, rfl, ?_⟩
  rw [effLockRetry_of_waits hstate hus hwaits hfew, clkState, get_finish (by decide) (by decide), get_finish (by decide) (by decide),
    clk_finish, get_setClk, get_setClk, get_put_ne (by decide), get_put_self (by decide)]
  exact ⟨hstate, rfl, rfl⟩

/-- LOCK_RETRY, the third: LOCK_FAIL, and the start-up has failed. -/
theorem lockRetry_third (hstate : clkState s = 1) (hus : 200 ≤ s.us - s.clk.since) (hthird : 2 ≤ s.clk.retries) :
    ∃ t, exec .lockRetry s = .next t ∧ get t R.CLK_STATUS.LOCK_FAIL = 1 ∧ clkState t = if get s R.CLK_CFG.COAST_BOOT = 0 then 0 else 3 := by
  have hthree : 3 ≤ s.clk.retries + 1 := by omega
  have heff : effLockRetry s = startFailed (retried (s.clk.retries + 1) s) := by
    rw [effLockRetry_of_judge hstate hus (.inr hthird), decide_eq_true hthree, Bool.true_or, when_true]
  have hboot : get (retried (s.clk.retries + 1) s) R.CLK_CFG.COAST_BOOT = get s R.CLK_CFG.COAST_BOOT := get_retried_other (by decide)
  refine ⟨_, rfl, ?_⟩
  rw [heff, clkState, get_finish (by decide) (by decide), get_finish (by decide) (by decide), get_startFailed_ne (by decide) (by decide),
    get_retried_LOCK_FAIL, if_pos hthree, ← hboot]
  exact ⟨rfl, clkState_startFailed clkState_retried⟩

/-- LOCK_RETRY that ends a start-up with COAST_BOOT at 1: COAST. -/
theorem lockRetry_enters (hstate : clkState s = 1) (hus : 200 ≤ s.us - s.clk.since)
    (h : 2 ≤ s.clk.retries ∨ (s.clk.bootLate = true ∧ s.clk.waits = false)) (hboot : get s R.CLK_CFG.COAST_BOOT = 1) :
    ∃ t, exec .lockRetry s = .next t ∧ CoastEntered s t ∧ (s.log.fresh = [] → s.log.queue.length + 2 ≤ 64 →
      pkgEvent s 0x0102 (min 0xFFFF (get s R.CLK_COAST_CNT.COUNT + 1)) ∈ t.log.queue) := by
  have hends : (decide (3 ≤ s.clk.retries + 1) || s.clk.bootLate) = true := by
    rcases h with hthird | ⟨hlate, -⟩
    · rw [decide_eq_true (by omega), Bool.true_or]
    · rw [hlate, Bool.or_true]
  have heff : effLockRetry s = startFailed (retried (s.clk.retries + 1) s) := by
    rw [effLockRetry_of_judge hstate hus (h.symm.imp_left And.right), hends, when_true]
  refine ⟨_, congrArg done heff, startFailed_enters ?_ ?_ log_retried ?_⟩
  · exact (get_retried_other (by decide)).trans hboot
  · exact get_retried_other (by decide)
  · exact get_retried_other (by decide)

theorem effBootClockTimeout_eq (hon : stage s ≠ 0) (hstarted : s.clk.started = false) (hstate : clkState s = 0)
    (hus : 10000 ≤ s.us - s.clk.goodUs) : effBootClockTimeout s = startFailed (setClk { s.clk with bootLate := true } s) := by
  have hruns : stage s ≠ 0 ∧ (!s.clk.started) = true ∧ 10000 ≤ s.us - s.clk.goodUs := ⟨hon, by rw [hstarted]; rfl, hus⟩
  refine (if_pos hruns).trans ?_
  rw [decide_eq_true (show clkState s = ckJUDGE from hstate), when_true]

/-- BOOT_CLOCK_TIMEOUT in JUDGE: the start-up has failed. -/
theorem bootClockTimeout_fails (hon : stage s ≠ 0) (hstarted : s.clk.started = false) (hstate : clkState s = 0)
    (hus : 10000 ≤ s.us - s.clk.goodUs) :
    ∃ t, exec .bootClockTimeout s = .next t ∧ clkState t = if get s R.CLK_CFG.COAST_BOOT = 0 then 0 else 3 := by
  refine ⟨_, congrArg done (effBootClockTimeout_eq hon hstarted hstate hus), ?_⟩
  rw [clkState, get_finish (by decide) (by decide)]
  exact clkState_startFailed (s := setClk { s.clk with bootLate := true } s) hstate

theorem bootClockTimeout_enters (hon : stage s ≠ 0) (hstarted : s.clk.started = false) (hstate : clkState s = 0)
    (hus : 10000 ≤ s.us - s.clk.goodUs) (hboot : get s R.CLK_CFG.COAST_BOOT = 1) :
    ∃ t, exec .bootClockTimeout s = .next t ∧ CoastEntered s t ∧ (s.log.fresh = [] → s.log.queue.length + 2 ≤ 64 →
      pkgEvent s 0x0102 (min 0xFFFF (get s R.CLK_COAST_CNT.COUNT + 1)) ∈ t.log.queue) :=
  ⟨_, congrArg done (effBootClockTimeout_eq hon hstarted hstate hus),
    startFailed_enters (u := setClk { s.clk with bootLate := true } s) hboot rfl rfl rfl⟩

end

/-- Settles O1, a lemma for each clause. -/
theorem clockLocks : Obligations.ClockLocks :=
  ⟨fun _ _ tclk hon hstate hlo hhi hrun => judgeWindow_accepts ⟨hon, hstate⟩ ⟨hlo, hhi⟩ hrun tclk,
    fun _ _ tclk hon hstate hcount => judgeWindow_fails ⟨hon, hstate⟩ (not_passing hcount) tclk,
    fun _ count tclk hon hstate hwin => judgeWindow_calibrates hon hstate hwin count tclk,
    fun _ _ hlost hstate hlo hhi hnear => lockMonitorWindow_locks hlost hstate hlo hhi hnear,
    fun _ _ hlost hstate hcount hfail => lockMonitorWindow_loses hlost hstate hcount hfail,
    fun _ hstate hus hwaits hlate hfew => lockRetry_judges hstate hus hwaits hlate hfew,
    fun _ hstate hus hwaits hlate hfew => lockRetry_late hstate hus hwaits hlate hfew,
    fun _ hstate hus hwaits hfew => lockRetry_waits hstate hus hwaits hfew,
    fun _ hstate hus hthird => lockRetry_third hstate hus hthird,
    fun _ hon hstarted hstate hus => bootClockTimeout_fails hon hstarted hstate hus,
    fun _ hstate hlost => refLost_declares hstate hlost,
    fun _ hstate hlost => coastEnter_enters hstate hlost,
    fun _ hstate href hauto => relockStart_starts hstate href hauto,
    fun _ hstate hus => relockTimeout_enters hstate hus⟩

/-- Settles O43: every way into COAST ends in `enterCoast`. -/
theorem coastEntrySetsItsBits : Obligations.CoastEntrySetsItsBits := by
  refine ⟨fun s hstate hlost => ?_, fun s hstate hus => ?_,
    fun _ hon hstarted hstate hus hboot => bootClockTimeout_enters hon hstarted hstate hus hboot,
    fun _ hstate hus h hboot => lockRetry_enters hstate hus h hboot⟩
  · obtain ⟨t, hexec, hentered, -, -, hrecord⟩ := coastEnter_enters hstate hlost
    exact ⟨t, hexec, hentered, hrecord⟩
  · obtain ⟨t, hexec, hentered, -, -, -, -, -, hrecord⟩ := relockTimeout_enters hstate hus
    exact ⟨t, hexec, hentered, hrecord⟩

/-- Settles O44, by the two kinds of window. -/
theorem failingWindowRestartsTheRun : Obligations.FailingWindowRestartsTheRun := by
  refine ⟨fun s count tclk hon hstate hcount => ?_,
    fun _ _ tclk hon hstate hlo hhi hrun => judgeWindow_counts ⟨hon, hstate⟩ ⟨hlo, hhi⟩ hrun tclk⟩
  obtain ⟨t, hexec, -, -, hfail, hrun, -⟩ := judgeWindow_fails ⟨hon, hstate⟩ (not_passing hcount) tclk
  exact ⟨t, hexec, hrun, hfail⟩

end Sys2Proof.Machine

/-! The ends of an episode and of warm-up (R317, R325, R329). -/

namespace Sys2Proof.Machine

/-- A raised event reads 1. -/
theorem bit_event_self {f : Field} {b : Nat} (hf : f.cls ≠ Ret.fuse) (hb : b < f.w) (s : State) : bit (get (event f b s) f) b = true := by
  rw [event, get_put_self hf, bit_mod_two_pow hb, bit_setBit, decide_eq_true rfl, Bool.or_true]

section

variable {b : Nat} {g : Field}

theorem get_faultOn (hfault : fieldKey R.SAF_FAULT ≠ fieldKey g) (hnotify : ∀ p, fieldKey (R.CMD_NOTIFY p) ≠ fieldKey g) (s : State) :
    get (faultOn b s) g = get s g := by
  unfold faultOn
  split
  · rfl
  · rw [get_notifyAll hnotify, event, get_put_ne hfault]

/-- A fault stands once it is set (R650). -/
theorem bit_faultOn_self (hb : b < R.SAF_FAULT.w) (s : State) : bit (get (faultOn b s) R.SAF_FAULT) b = true := by
  unfold faultOn
  split
  · assumption
  · rw [get_notifyAll fun p => key_ne (by simp only [R.CMD_NOTIFY, R.SAF_FAULT]; omega)]
    exact bit_event_self (by decide) hb s

theorem log_faultOn (s : State) : (faultOn b s).log = s.log :=
  (foot_faultOn (Print.Sub.refl _) (Within.refl _ s)).parts .log (by decide) (by decide)

theorem clk_faultOn (s : State) : (faultOn b s).clk = s.clk :=
  (foot_faultOn (Print.Sub.refl _) (Within.refl _ s)).parts .clk (by decide) (by decide)

end

/-- A waiting command that a check refuses completes with the status of that check (R562). -/
theorem command_of_fail {s : State} {op port tag st : Nat} {fl : Flight} {checks : Flight → List (Bool × Nat)}
    {effect : Flight → State → State} (h : Waiting s op port tag fl) (hc : firstFail (checks fl) = some st) :
    command op port tag s checks effect = complete fl st 0 0 s := by
  have hr := h.runs
  simp only [command, h.flight, h.opcode, h.idle, h.order, hr, hc, Bool.not_false, and_self, if_true]

/-- EPISODE_END: the agent glides no more, and its registers say so (R317). -/
theorem episodeEnd_ends {s : State} {d : Nat} (hd : isPresent s d = true) (hon : (tokOf s d).episode = true) (hn : (tokOf s d).ng ≤ (tokOf s d).n) :
    ∃ t, exec (.episodeEnd d) s = .next t ∧ (tokOf t d).episode = false ∧ get t (R.FIL_DIE_STAT.EPISODE d) = 0 ∧
      get t (R.FIL_DIE_STAT.N d) = 0 ∧ get t (R.FIL_DIE_L0.L0 d) = 0 := by
  have heff : effEpisodeEnd d s = (s |> setTok d { tokOf s d with episode := false, l0 := 0, n := 0, ng := 0 }
      |> put (R.FIL_DIE_STAT.EPISODE d) 0 |> put (R.FIL_DIE_STAT.N d) 0 |> put (R.FIL_DIE_L0.L0 d) 0) := if_pos ⟨hd, hon, hn⟩
  have hend : ∀ {g : Field} (u : State), 0x080000 * 32 ≤ g.off * 32 + g.lo → g.off * 32 + g.lo < 0x090000 * 32 →
      get (finish u) g = get u g := fun u hlo hhi =>
    get_finish (key_ne (by simp only [R.REC_LOST.COUNT]; omega)) (key_ne (by simp only [R.REC_EVENT]; omega))
  have hepisode : fieldKey (R.FIL_DIE_STAT.N d) ≠ fieldKey (R.FIL_DIE_STAT.EPISODE d) :=
    key_ne (by simp only [R.FIL_DIE_STAT.N, R.FIL_DIE_STAT.EPISODE]; omega)
  have hl0 : fieldKey (R.FIL_DIE_L0.L0 d) ≠ fieldKey (R.FIL_DIE_STAT.EPISODE d) ∧
      fieldKey (R.FIL_DIE_L0.L0 d) ≠ fieldKey (R.FIL_DIE_STAT.N d) :=
    ⟨key_ne (by simp only [R.FIL_DIE_L0.L0, R.FIL_DIE_STAT.EPISODE]; omega), key_ne (by simp only [R.FIL_DIE_L0.L0, R.FIL_DIE_STAT.N]; omega)⟩
  refine ⟨_, rfl, ?_⟩
  rw [tokOf_finish, hend _ (by simp only [R.FIL_DIE_STAT.EPISODE]; omega) (by simp only [R.FIL_DIE_STAT.EPISODE]; omega),
    hend _ (by simp only [R.FIL_DIE_STAT.N]; omega) (by simp only [R.FIL_DIE_STAT.N]; omega),
    hend _ (by simp only [R.FIL_DIE_L0.L0]; omega) (by simp only [R.FIL_DIE_L0.L0]; omega), heff]
  refine ⟨?_, ?_, ?_, ?_⟩
  · rw [tokOf_of (put_tok ..), tokOf_of (put_tok ..), tokOf_of (put_tok ..), tokOf_setTok]
  · rw [get_put_ne hl0.1, get_put_ne hepisode, get_put_self (by nofun)]
    rfl
  · rw [get_put_ne hl0.2, get_put_self (by nofun)]
    rfl
  · rw [get_put_self (by nofun)]
    rfl

/-- WARM_TIMEOUT: HEATING that has lasted TIMEOUT_S is a fault (R325). -/
theorem warmTimeout_faults {s : State} (hheat : get s R.FIL_WARM_STAT.STATE = 1) (hfirst : get s R.FIL_WARM_STAT.TIMEOUT = 0)
    (hlong : get s R.FIL_WARM.TIMEOUT_S * 1000000 ≤ s.us - s.therm.warmUs) :
    ∃ t, exec .warmTimeout s = .next t ∧ get t R.FIL_WARM_STAT.TIMEOUT = 1 ∧ bit (get t R.FIL_EVENT) 3 = true ∧
      bit (get t R.SAF_FAULT) 4 = true ∧ (Room s 1 → pkgEvent s 0x0508 (get s R.FIL_WARM_STAT.ELAPSED_S) ∈ t.log.queue) := by
  let u : State := s |> event R.FIL_EVENT 3 |> put R.FIL_WARM_STAT.TIMEOUT 1
  have heff : effWarmTimeout s = record 0x0508 (get s R.FIL_WARM_STAT.ELAPSED_S) (faultOn 4 u) :=
    if_pos ⟨hheat, by simp [isOn, hfirst], hlong⟩
  have hnotify : ∀ {g : Field}, g.off * 32 + g.lo < 0x120000 * 32 → ∀ p, fieldKey (R.CMD_NOTIFY p) ≠ fieldKey g := fun hg p =>
    key_ne (by simp only [R.CMD_NOTIFY]; omega)
  refine ⟨_, rfl, ?_, ?_, ?_, ?_⟩
  · rw [get_finish (by decide) (by decide), heff, get_record, get_faultOn (by decide) (hnotify (by decide)), get_put_self (by decide)]
    rfl
  · rw [get_finish (by decide) (by decide), heff, get_record, get_faultOn (by decide) (hnotify (by decide)), get_put_ne (by decide)]
    exact bit_event_self (by decide) (by decide) s
  · rw [get_finish (by decide) (by decide), heff, get_record]
    exact bit_faultOn_self (by decide) u
  · rintro ⟨hstarted, hfresh, hlen⟩
    have hlog : (faultOn 4 u).log = s.log := by rw [log_faultOn, put_log, event, put_log]
    have hclk : (faultOn 4 u).clk = s.clk := by rw [clk_faultOn, put_clk, event, put_clk]
    have hnow : now (faultOn 4 u) = now s := by
      rw [now, get_faultOn (by decide) (hnotify (by decide)), get_put_ne (by decide), event, get_put_ne (by decide), now]
    rw [← pkgEvent_of_now hnow, heff]
    refine mem_queue_of_record rfl (hclk ▸ hstarted) ?_
    rw [hlog, hfresh]
    exact hlen

section

variable {s : State} {port tag : Nat} {fl : Flight}

/-- The package as WARMUP_END leaves it, but for its completion (R329). -/
def warmed (s : State) : State :=
  { s with boot := { s.boot with warmed := true } } |> put R.FIL_WARM_STAT.STATE 3 |> event R.FIL_EVENT 2 |> record 0x0507 1

/-- A completion reaches no register below those of the ports. -/
theorem get_complete {g : Field} (h : g.off * 32 + g.lo < 0x120000 * 32) (status r0 r1 : Nat) (s : State) :
    get (complete fl status r0 r1 s) g = get s g := by
  refine (foot_complete (Print.Sub.refl _) (Within.refl _ s)).get ?_
  simp only [fp_complete, fp_dropFlight, fp_writeCompletion, fp_notify, Print.free_cons, Print.free_nil, Print.free_reg1, Print.free_prt,
    and_true, true_and]
  refine ⟨?_, ?_⟩ <;> intros <;> refine key_ne ?_ <;> simp only [R.CMD_CQ_TAIL.TAIL, R.CMD_NOTIFY] <;> omega

theorem log_complete (status r0 r1 : Nat) (s : State) : (complete fl status r0 r1 s).log = s.log :=
  (foot_complete (Print.Sub.refl _) (Within.refl _ s)).parts .log (by decide) (by decide)

theorem boot_complete (status r0 r1 : Nat) (s : State) : (complete fl status r0 r1 s).boot = s.boot :=
  (foot_complete (Print.Sub.refl _) (Within.refl _ s)).parts .boot (by decide) (by decide)

theorem execWarmupEnd_of_heating (hw : Waiting s 0x0504 port tag fl) (hheat : get s R.FIL_WARM_STAT.STATE = 1) :
    exec (.warmupEnd port tag) s = .next (finish (complete fl sOK 0 0 (warmed s))) :=
  congrArg done (command_of hw (by simp [firstFail, hheat]))

/-- WARMUP_END while HEATING (R329). -/
theorem warmupEnd_ends (hw : Waiting s 0x0504 port tag fl) (hheat : get s R.FIL_WARM_STAT.STATE = 1) :
    ∃ t, exec (.warmupEnd port tag) s = .next t ∧ Completed s t fl sOK 0 0 ∧ get t R.FIL_WARM_STAT.STATE = 3 ∧ t.boot.warmed = true ∧
      bit (get t R.FIL_EVENT) 2 = true ∧ (Room s 1 → pkgEvent s 0x0507 1 ∈ t.log.queue) := by
  let u : State := { s with boot := { s.boot with warmed := true } } |> put R.FIL_WARM_STAT.STATE 3 |> event R.FIL_EVENT 2
  have hother : ∀ {g : Field}, fieldKey R.FIL_WARM_STAT.STATE ≠ fieldKey g → fieldKey R.FIL_EVENT ≠ fieldKey g → get u g = get s g :=
    fun hstate hevent => (get_put_ne hevent _ _).trans (get_put_ne hstate _ _)
  refine ⟨_, execWarmupEnd_of_heating hw hheat, completed_of _ _ _ _ ?_ fun p => ?_, ?_, ?_, ?_, ?_⟩
  · simp only [warmed, record_mem, event, put_mem]
  · rw [warmed, get_record]
    exact hother (key_ne (by simp only [R.FIL_WARM_STAT.STATE, R.CMD_CQ_TAIL.TAIL, portPage]; omega))
      (key_ne (by simp only [R.FIL_EVENT, R.CMD_CQ_TAIL.TAIL, portPage]; omega))
  · rw [get_finish (by decide) (by decide), get_complete (by decide), warmed, get_record, event, get_put_ne (by decide), get_put_self (by decide)]
    rfl
  · rw [(Within.finish _).parts .boot (by decide) (by decide), boot_complete]
    simp only [warmed, record_boot, event, put_boot]
  · rw [get_finish (by decide) (by decide), get_complete (by decide), warmed, get_record]
    exact bit_event_self (by decide) (by decide) _
  · rintro ⟨hstarted, hfresh, hlen⟩
    have hlog : u.log = s.log := (put_log ..).trans (put_log ..)
    have hclk : u.clk = s.clk := (put_clk ..).trans (put_clk ..)
    rw [← pkgEvent_of_now (u := u) (hother (by decide) (by decide))]
    refine mem_queue_of_record (log_complete ..) (hclk ▸ hstarted) ?_
    rw [hlog, hfresh]
    exact hlen

/-- WARMUP_END in any other state (R329). -/
theorem warmupEnd_refused (hw : Waiting s 0x0504 port tag fl) (hheat : get s R.FIL_WARM_STAT.STATE ≠ 1) :
    ∃ t, exec (.warmupEnd port tag) s = .next t ∧ Completed s t fl sWRONG_STATE 0 0 :=
  ⟨_, congrArg done (command_of_fail hw (by simp [firstFail, hheat])), completed_of _ _ _ _ rfl fun _ => rfl⟩

end

end Sys2Proof.Machine

/-! The shares of an arbitration (R311 to R313). -/

namespace Sys2Proof.Machine

/-! A share lies between what its die may not go below and what it asks. -/

/-- A bid that leaves its die at least what it may not go below, and gives it no more than it asks. -/
structure Bid.Fair (low : Nat → Nat) (b : Bid) : Prop where
  low : low b.die ≤ b.floor
  floor : b.floor ≤ b.share
  ask : b.share ≤ b.ask

section

variable {low : Nat → Nat} {l : List Bid}

theorem Bid.Fair.withShare {b : Bid} (h : b.Fair low) {n : Nat} (hlo : b.floor ≤ n) (hhi : n ≤ b.ask) : Bid.Fair low { b with share := n } :=
  ⟨h.low, hlo, hhi⟩

theorem Bid.Fair.giveAsk {b : Bid} (h : b.Fair low) : Bid.Fair low { b with share := b.ask } :=
  h.withShare (h.floor.trans h.ask) le_rfl

/-- The weighted part of a bid that does not fit is less than it needs (R311). -/
theorem weighted_le_ask {b : Bid} {r : Int} {ws : Nat} (hr : 0 ≤ r) (hb : b.floor ≤ b.ask) (hfit : ¬ b.need * ws ≤ r * b.w) :
    b.floor + (divZ (r * b.w) (ws * b.k)).toNat ≤ b.ask := by
  have hlt : r * b.w < ((b.ask : Int) - b.floor) * (ws * b.k) :=
    calc r * b.w < b.need * ws := not_le.1 hfit
      _ = ((b.ask : Int) - b.floor) * (ws * b.k) := by rw [Bid.need]; ring
  have hpart : divZ (r * b.w) (ws * b.k) ≤ (b.ask : Int) - b.floor := by
    rw [divZ, Int.tdiv_eq_ediv_of_nonneg (by positivity)]
    rcases (show (0 : Int) ≤ ws * b.k by positivity).eq_or_lt with hzero | hpos
    · rw [← hzero, Int.ediv_zero]
      omega
    · exact Int.ediv_le_of_le_mul hpos hlt.le
  omega

theorem fair_topUp (hl : ∀ b ∈ l, b.Fair low) (u : List Nat) (r : Int) : ∀ b ∈ topUp u r l, b.Fair low := by
  induction l generalizing r with
  | nil => exact nofun
  | cons b l ih =>
    obtain ⟨hb, hl⟩ := List.forall_mem_cons.1 hl
    unfold topUp
    split
    case isTrue hmore => exact List.forall_mem_cons.2 ⟨hb.withShare (hb.floor.trans (Nat.le_succ _)) hmore.2.1, ih hl _⟩
    case isFalse => exact List.forall_mem_cons.2 ⟨hb, ih hl _⟩

theorem mem_rotated {b : Bid} {p : Nat} : b ∈ rotated p l ↔ b ∈ l := by
  simp only [rotated, List.mem_append, List.mem_filter, decide_eq_true_eq, ← and_or_left]
  exact and_iff_left (le_or_gt p b.die)

/-- One part of the bids served again, the others left. -/
theorem fair_mapIf (hl : ∀ b ∈ l, b.Fair low) {c : Bid → Bool} {n : Bid → Nat}
    (hn : ∀ b ∈ l, c b = true → b.floor ≤ n b ∧ n b ≤ b.ask) :
    ∀ b ∈ l.map fun b => if c b then { b with share := n b } else b, b.Fair low := by
  refine List.forall_mem_map.2 fun b hb => ?_
  split
  case isTrue hc => exact (hl b hb).withShare (hn b hb hc).1 (hn b hb hc).2
  case isFalse => exact hl b hb

theorem fair_shareLoop (hl : ∀ b ∈ l, b.Fair low) (p n : Nat) (r : Int) (u : List Nat) : ∀ b ∈ shareLoop p n r u l, b.Fair low := by
  induction n generalizing r u l with
  | zero => exact hl
  | succ n ih =>
    unfold shareLoop
    split
    case isTrue => exact hl
    case isFalse hgo =>
      dsimp only
      split
      case isTrue hnone =>
        refine fair_topUp (fun b hb => fair_mapIf hl (fun b hb hu => ?_) b (mem_rotated.1 hb)) _ _
        refine ⟨Nat.le_add_right _ _, weighted_le_ask (not_le.1 fun hr => hgo (.inl hr)).le ((hl b hb).floor.trans (hl b hb).ask) fun hfit => ?_⟩
        have hin := List.filter_eq_nil_iff.1 (List.isEmpty_iff.1 hnone) b hb
        exact hin (by rw [hu, decide_eq_true hfit]; rfl)
      case isFalse => exact ih (fair_mapIf hl fun b hb _ => ⟨(hl b hb).floor.trans (hl b hb).ask, le_rfl⟩) _ _

theorem fair_shares (hl : ∀ b ∈ l, b.Fair low) (s : State) (pool : Int) : ∀ b ∈ (shares s pool l).1, b.Fair low := by
  unfold shares
  dsimp only
  split
  · exact List.forall_mem_map.2 fun b hb => (hl b hb).giveAsk
  · exact fair_shareLoop hl _ _ _ _

/-! Every die that bids is given a share. -/

theorem dies_topUp (u : List Nat) (r : Int) : (topUp u r l).map (·.die) = l.map (·.die) := by
  induction l generalizing r with
  | nil => rfl
  | cons b l ih =>
    unfold topUp
    split
    · exact congrArg (b.die :: ·) (ih _)
    · exact congrArg (b.die :: ·) (ih _)

theorem dies_mapIf (c : Bid → Bool) (n : Bid → Nat) :
    (l.map fun b => if c b then { b with share := n b } else b).map (·.die) = l.map (·.die) := by
  rw [List.map_map]
  refine List.map_congr_left fun b _ => ?_
  simp only [Function.comp]
  split
  · rfl
  · rfl

theorem mem_dies_shareLoop {d : Nat} (h : d ∈ l.map (·.die)) (p n : Nat) (r : Int) (u : List Nat) :
    d ∈ (shareLoop p n r u l).map (·.die) := by
  induction n generalizing r u l with
  | zero => exact h
  | succ n ih =>
    unfold shareLoop
    split
    · exact h
    · dsimp only
      split
      · rw [dies_topUp]
        rw [← dies_mapIf] at h
        obtain ⟨b, hb, hd⟩ := List.mem_map.1 h
        exact List.mem_map.2 ⟨b, mem_rotated.2 hb, hd⟩
      · exact ih (by rwa [dies_mapIf]) _ _

theorem mem_dies_shares {d : Nat} (h : d ∈ l.map (·.die)) (s : State) (pool : Int) : d ∈ (shares s pool l).1.map (·.die) := by
  unfold shares
  dsimp only
  split
  · rwa [List.map_map]
  · exact mem_dies_shareLoop h _ _ _ _

end

theorem die_bidOf (s : State) (d : Nat) : (bidOf s d).die = d := by
  unfold bidOf
  dsimp only
  split
  · rfl
  · rfl

/-- A die bids with at least its issue floor (R312, R313). -/
theorem fair_bidOf (s : State) (d : Nat) : (bidOf s d).Fair (floorIssue s) := by
  unfold bidOf
  dsimp only
  split
  · exact ⟨le_max_left _ _, le_rfl, le_rfl⟩
  · exact ⟨le_rfl, le_rfl, le_max_left _ _⟩

end Sys2Proof.Machine

/-! What an end of a link sends (R34, R37), and PACKAGE_ARBITRATION (R309 to R313). -/

namespace Sys2Proof.Machine

/-! What every command keeps of the shape of the package (R8, R21). -/

section

variable {s t : State}

/-- The fuses below those of boot read as before. -/
theorem get_fuse_of_kept (h : Kept s t) {g : Field} (hclass : keyClass (fieldKey g) = retCode Ret.fuse)
    (hoff : g.off * 32 + g.lo < 0x160000 * 32) : get t g = get s g := by
  have hfw : fieldKey g ≠ fieldKey R.BOOT_SVN.FW_FUSED := key_ne_of_lt (by omega) (by decide) (by simp only [R.BOOT_SVN.FW_FUSED]; omega)
  have hcfg : fieldKey g ≠ fieldKey R.BOOT_SVN.CFG_FUSED := key_ne_of_lt (by omega) (by decide) (by simp only [R.BOOT_SVN.CFG_FUSED]; omega)
  exact h.fuse g hclass (Bool.or_eq_false_iff.2 ⟨decide_eq_false hfw, decide_eq_false hcfg⟩)

theorem get_GRADE_of_kept (h : Kept s t) (d : Nat) : get t (R.TOK_DIE_LIM.GRADE d) = get s (R.TOK_DIE_LIM.GRADE d) := by
  have hpage : pageIf (d < 16) 0 < 16 := by rw [pageIf]; split <;> omega
  refine get_fuse_of_kept h (keyClass_fieldKey hpage ?_ ?_ ?_) ?_
  all_goals simp only [R.TOK_DIE_LIM.GRADE]; omega

theorem isPresent_of_kept (h : Kept s t) (d : Nat) : isPresent t d = isPresent s d := by
  rw [isPresent, nDies, get_fuse_of_kept h (by decide) (by decide), isPresent, nDies]

/-- A token count is scaled by the clock state and the slot (R74, R77). -/
theorem scaleTok_of (hstate : clkState t = clkState s) (hclk : t.clk = s.clk) : scaleTok t = scaleTok s := by
  funext v
  rw [scaleTok, hstate, hclk, scaleTok]

theorem floorIssue_of_kept (h : Kept s t) (hstate : clkState t = clkState s) (hclk : t.clk = s.clk) : floorIssue t = floorIssue s := by
  funext d
  rw [floorIssue, scaleUp, scaleTok_of hstate hclk, hstate, hclk, fusedFloor, fusedMax, get_GRADE_of_kept h]
  rfl

theorem maxIssue_of_kept (h : Kept s t) (hstate : clkState t = clkState s) (hclk : t.clk = s.clk) : maxIssue t = maxIssue s := by
  funext d
  rw [maxIssue, scaleTok_of hstate hclk, fusedMax, get_GRADE_of_kept h]
  rfl

end

/-! Messages. -/

section

variable {up : Bool} {d : Nat} {m : Msg} {s : State}

theorem out_subset_emit (o : Out) (s : State) : s.out ⊆ (emit o s).out := List.subset_append_left _ _

theorem mem_out_emit (o : Out) (s : State) : o ∈ (emit o s).out := List.mem_append_right _ (List.mem_singleton.2 rfl)

theorem out_subset_sendMsg : s.out ⊆ (sendMsg up d m s).out := by
  unfold sendMsg sendFrame
  split
  · refine List.Subset.trans ?_ (out_subset_emit ..)
    refine List.Subset.trans ?_ (out_subset_emit ..)
    exact out_subset_emit _ (setLink d _ s)
  · exact List.Subset.refl _

/-- Over a link in service a message leaves the block. -/
theorem mem_out_sendMsg (h : linkUp s d = true) : m.out ∈ (sendMsg up d m s).out := by
  rw [sendMsg, if_pos h]
  exact mem_out_emit ..

theorem tok_sendMsg : (sendMsg up d m s).tok = s.tok :=
  (foot_sendMsg Names.any (Print.Sub.refl _) (Within.refl _ s)).parts .tok (by decide) (by decide)

/-- A message takes no link out of service and none into it. -/
theorem linkUp_sendMsg (e : Nat) : linkUp (sendMsg up d m s) e = linkUp s e := by
  have hlink : ∀ v : LinkD, v.trained = (linkOf s d).trained → v.lost = (linkOf s d).lost → ∀ u : State, u.links = (setLink d v s).links →
      linkUp u e = linkUp s e := by
    intro v htrained hlost u hu
    rw [linkUp, linkOf_of hu]
    by_cases he : e = d
    · subst he
      rw [linkOf_setLink, htrained, hlost, linkUp]
    · rw [show linkOf (setLink d v s) e = linkOf s e from sget_sset_ne _ _ _ (Ne.symm he) _, linkUp]
  unfold sendMsg sendFrame
  split
  · cases up
    · exact hlink { linkOf s d with downSent := nextSent false s d } rfl rfl _ rfl
    · exact hlink { linkOf s d with upSent := nextSent true s d } rfl rfl _ rfl
  · rfl

end

/-! Shares given. -/

/-- From z to t die d was given a share between what it may not go below and its ask, which was sent where its link is in service. -/
structure ShareGiven (low : Nat → Nat) (z t : State) (d : Nat) : Prop where
  low : low d ≤ (tokOf t d).shareSent
  ask : (tokOf t d).shareSent ≤ (tokOf t d).ask
  sent : linkUp z d = true → Out.share d (tokOf t d).shareSent ∈ t.out

theorem ShareGiven.of_same {low : Nat → Nat} {z t t' : State} {d : Nat} (h : ShareGiven low z t d) (htok : tokOf t' d = tokOf t d)
    (hout : t.out ⊆ t'.out) : ShareGiven low z t' d :=
  ⟨htok ▸ h.low, htok ▸ h.ask, fun hup => htok ▸ hout (h.sent hup)⟩

section

variable {code : Nat} {b : Bid} {s : State}

/-- What a share leaves before it is sent. -/
def shareHeld (code : Nat) (b : Bid) (s : State) : State :=
  s |> setTok b.die { tokOf s b.die with ask := b.ask, shareSent := b.share, pool := (code, (tokOf s b.die).pool.2) }
    |> when (decide (b.share < b.ask)) (fun s => s |> addSat (R.TOK_DIE_CNT.SCALED b.die) 1 |> event R.TOK_EVENT 0)

theorem within_shareHeld : Within ⟨[every R.TOK_DIE_CNT.SCALED, the R.TOK_EVENT], [], [.tok b.die], []⟩ s (shareHeld code b s) :=
  .when (fun _ h => (h.addSat 1 ⟨_, .head _, b.die, 0, rfl⟩).event 0 ⟨_, .tail _ (.head _), 0, 0, rfl⟩)
    ((Within.refl _ s).setTok _ (.inl (.head _)))

theorem giveShare_eq : giveShare code b s = sendMsg false b.die (.of tyGRANT [0, b.share] (.share b.die b.share)) (shareHeld code b s) := rfl

theorem tokOf_shareHeld : tokOf (shareHeld code b s) b.die =
    { tokOf s b.die with ask := b.ask, shareSent := b.share, pool := (code, (tokOf s b.die).pool.2) } := by
  have hcount : ∀ (c : Bool) (u : State),
      (when c (fun s => s |> addSat (R.TOK_DIE_CNT.SCALED b.die) 1 |> event R.TOK_EVENT 0) u).tok = u.tok := by
    rintro (_ | _) u
    · rfl
    · rw [when_true, event, put_tok, addSat, put_tok]
  rw [shareHeld, tokOf_of (hcount ..), tokOf_setTok]

theorem linkUp_giveShare (e : Nat) : linkUp (giveShare code b s) e = linkUp s e := by
  rw [giveShare_eq, linkUp_sendMsg, linkUp, linkOf_of (within_shareHeld.parts .links (by simp) (by simp [Cell.part])), linkUp]

theorem out_subset_giveShare : s.out ⊆ (giveShare code b s).out := by
  rw [giveShare_eq, ← within_shareHeld.parts .out (by simp) (by simp [Cell.part])]
  exact out_subset_sendMsg

theorem tokOf_giveShare_ne {d : Nat} (h : d ≠ b.die) : tokOf (giveShare code b s) d = tokOf s d := by
  rw [giveShare_eq, tokOf_of tok_sendMsg]
  exact within_shareHeld.cells (.tok d) (by simp [h]) (by simp)

/-- A fair bid is given its share. -/
theorem shareGiven_giveShare {low : Nat → Nat} {z : State} (hb : b.Fair low) (hup : ∀ d, linkUp s d = linkUp z d) :
    ShareGiven low z (giveShare code b s) b.die := by
  have htok : tokOf (giveShare code b s) b.die =
      { tokOf s b.die with ask := b.ask, shareSent := b.share, pool := (code, (tokOf s b.die).pool.2) } := by
    rw [giveShare_eq, tokOf_of tok_sendMsg, tokOf_shareHeld]
  refine ⟨?_, ?_, fun hz => ?_⟩
  · rw [htok]
    exact hb.low.trans hb.floor
  · rw [htok]
    exact hb.ask
  · have hheld : linkUp (shareHeld code b s) b.die = true := by
      rw [← linkUp_sendMsg, ← giveShare_eq, linkUp_giveShare, hup, hz]
    rw [htok, giveShare_eq]
    exact mem_out_sendMsg hheld

/-- Every die among fair bids is given its share. -/
theorem shareGiven_each {low : Nat → Nat} {z : State} {d : Nat} {l : List Bid} (hl : ∀ b ∈ l, b.Fair low)
    (hup : ∀ e, linkUp s e = linkUp z e) (hd : ShareGiven low z s d ∨ d ∈ l.map (·.die)) :
    ShareGiven low z (each l (giveShare code) s) d := by
  induction l generalizing s with
  | nil => exact hd.resolve_right List.not_mem_nil
  | cons b l ih =>
    obtain ⟨hb, hl⟩ := List.forall_mem_cons.1 hl
    refine ih hl (fun e => (linkUp_giveShare e).trans (hup e)) ?_
    by_cases hdie : d = b.die
    · exact .inl (hdie ▸ shareGiven_giveShare hb hup)
    · exact hd.imp (fun hgiven => hgiven.of_same (tokOf_giveShare_ne hdie) out_subset_giveShare)
        fun hmem => (List.mem_cons.1 hmem).resolve_left hdie

end

theorem out_subset_eachGiveShare (code : Nat) (l : List Bid) (s : State) : s.out ⊆ (each l (giveShare code) s).out := by
  induction l generalizing s with
  | nil => exact List.Subset.refl _
  | cons b l ih => exact List.Subset.trans out_subset_giveShare (ih _)

/-! The arbitration. -/

/-- The slot mark of an arbitration, with the slot that it begins (R77). -/
def slotMarked (ps : Nat) (s : State) : State :=
  when (clkState s = 4) (emit (.slotMark slotCycles (nextSlot s.clk (clkState s = 4) ps).slotPs))
    { s with clk := nextSlot s.clk (clkState s = 4) ps }

/-- The buckets of the slot filled (R339). -/
def bucketsFilled (ps : Nat) (s : State) : State := each (dies (slotMarked ps s)) bucketSlot (slotMarked ps s)

/-- The state of which the dies bid: the bounds of the slot formed (R309). -/
def poolFormed (ps : Nat) (s : State) : State :=
  { bucketsFilled ps s with capp := { (bucketsFilled ps s).capp with poolPkg := poolPkg (bucketsFilled ps s) } }

/-- The shares of an arbitration (R311). -/
def sharesOf (u : State) : List Bid × Bool := shares u (min u.capp.poolPkg u.capp.poolPow) ((dies u).map (bidOf u))

/-- The counts of an arbitration (R311, R312). -/
def countShares (r : List Bid × Bool) (s : State) : State :=
  s |> when (r.1.any fun b => b.share < b.ask) (addSat R.TOK_ARB_CNT.SCALED 1)
    |> when r.2 (fun s => s |> event R.TOK_EVENT 1 |> addSat R.TOK_ARB_CNT2.FLOOR_ONLY 1)

section

variable {ps : Nat} {s : State}

/-- The state that an arbitration leaves, but for the pointer of R311. -/
def arbitrated (ps : Nat) (s : State) : State :=
  countShares (sharesOf (poolFormed ps s)) (each (sharesOf (poolFormed ps s)).1 (giveShare (poolReason (poolFormed ps s)))
    (putI R.CAP_POOL.I (satI (min (poolFormed ps s).capp.poolPkg (poolFormed ps s).capp.poolPow) 32) (poolFormed ps s)))

theorem effPackageArbitration_eq (h : s.clk.started = true) : effPackageArbitration ps s = addWrap R.TOK_RR.PTR 1 (arbitrated ps s) :=
  if_neg (by simp [h])

theorem within_bucketsFilled : Within (fp_bucketSlot none) (slotMarked ps s) (bucketsFilled ps s) :=
  .each (fun _ _ h => foot_bucketSlot Names.any (Print.Sub.refl _) h) (Within.refl _ _)

theorem within_giveShares (code : Nat) (l : List Bid) (u : State) : Within fp_giveShare u (each l (giveShare code) u) :=
  .each (fun _ _ h => foot_giveShare (Print.Sub.refl _) h) (Within.refl _ u)

theorem within_countShares (r : List Bid × Bool) (u : State) :
    Within ⟨[the R.TOK_ARB_CNT.SCALED, the R.TOK_EVENT, the R.TOK_ARB_CNT2.FLOOR_ONLY], [], [], []⟩ u (countShares r u) := by
  refine .when (fun v h => ?_) (.when (fun v h => ?_) (.refl _ u))
  · exact (h.event _ ⟨the R.TOK_EVENT, by simp, 0, 0, rfl⟩).addSat _ ⟨the R.TOK_ARB_CNT2.FLOOR_ONLY, by simp, 0, 0, rfl⟩
  · exact h.addSat _ ⟨the R.TOK_ARB_CNT.SCALED, by simp, 0, 0, rfl⟩

/-! What the bids are made of. -/

theorem clk_poolFormed : (poolFormed ps s).clk = nextSlot s.clk (clkState s = 4) ps := by
  have hmark : (slotMarked ps s).clk = nextSlot s.clk (clkState s = 4) ps := by
    unfold slotMarked when
    split
    · rfl
    · rfl
  have hbuckets : (bucketsFilled ps s).clk = (slotMarked ps s).clk := within_bucketsFilled.parts .clk (by decide) (by decide)
  rw [poolFormed, hbuckets, hmark]

/-- The buckets are among the registers of the dies' caps (R339 to R341). -/
theorem get_poolFormed {g : Field} (h : g.off * 32 + g.lo < 0x0A1000 * 32) : get (poolFormed ps s) g = get s g := by
  have hbucket : (fp_bucketSlot none).Free g := by
    simp only [fp_bucketSlot, Print.free_cons, Print.free_nil, free_reg1_none, Print.free_row, and_true, true_and]
    refine ⟨fun i => key_ne ?_, fun i => key_ne ?_, fun i => key_ne ?_⟩ <;>
      simp only [R.CAP_DIE_BKT.E, R.CAP_DIE_EDC2.STATE, R.CAP_DIE_LEDC.I] <;> omega
  have hmark : get (slotMarked ps s) g = get s g := by
    unfold slotMarked
    rw [get_when (get_emit ..)]
    rfl
  rw [poolFormed, get_mk, within_bucketsFilled.get hbucket, hmark]

theorem linkUp_poolFormed (d : Nat) : linkUp (poolFormed ps s) d = linkUp s d := by
  have hmark : (slotMarked ps s).links = s.links := by
    unfold slotMarked when
    split
    · rfl
    · rfl
  have hbuckets : (bucketsFilled ps s).links = (slotMarked ps s).links := within_bucketsFilled.parts .links (by decide) (by decide)
  have hlinks : (poolFormed ps s).links = s.links := by rw [poolFormed, hbuckets, hmark]
  rw [linkUp, linkOf_of hlinks, linkUp]

/-- In RELOCK the slot mark carries the slot's length (R77). -/
theorem slotMark_poolFormed (h : clkState s = 4) : Out.slotMark slotCycles (poolFormed ps s).clk.slotPs ∈ (poolFormed ps s).out := by
  have hbuckets : (bucketsFilled ps s).out = (slotMarked ps s).out := within_bucketsFilled.parts .out (by decide) (by decide)
  have hout : (poolFormed ps s).out = (slotMarked ps s).out := by rw [poolFormed, hbuckets]
  rw [clk_poolFormed, hout, slotMarked, when, if_pos (decide_eq_true h)]
  exact mem_out_emit ..

/-- Every present die has a fair bid. -/
theorem fair_sharesOf (u : State) : ∀ b ∈ (sharesOf u).1, b.Fair (floorIssue u) :=
  fair_shares (List.forall_mem_map.2 fun d _ => fair_bidOf u d) _ _

theorem mem_dies_sharesOf {u : State} {d : Nat} (h : isPresent u d = true) : d ∈ (sharesOf u).1.map (·.die) := by
  refine mem_dies_shares (List.mem_map.2 ⟨bidOf u d, List.mem_map.2 ⟨d, ?_, rfl⟩, die_bidOf u d⟩) _ _
  exact List.mem_range.2 (of_decide_eq_true h)

theorem kept_poolFormed : Kept s (poolFormed ps s) :=
  .upd (.each (fun _ _ h => kept_bucketSlot _ h) (.when (fun _ h => kept_emit _ h) (.upd (.refl s) rfl))) rfl

/-! What an arbitration leaves. -/

theorem get_arbitrated {g : Field} (hcap : g.off * 32 + g.lo < 0x0A1000 * 32) (hdie : ∀ i, fieldKey (R.TOK_DIE_CNT.SCALED i) ≠ fieldKey g)
    (hpkg : ∀ f ∈ [R.CAP_POOL.I, R.TOK_ARB_CNT.SCALED, R.TOK_EVENT, R.TOK_ARB_CNT2.FLOOR_ONLY], fieldKey f ≠ fieldKey g) :
    get (arbitrated ps s) g = get s g := by
  simp only [List.forall_mem_cons] at hpkg
  obtain ⟨hpool, hscaled, hevent, hfloor, -⟩ := hpkg
  have hcount : Print.Free ⟨[the R.TOK_ARB_CNT.SCALED, the R.TOK_EVENT, the R.TOK_ARB_CNT2.FLOOR_ONLY], [], [], []⟩ g := by
    simp [Print.Free, the, hscaled, hevent, hfloor]
  have hshare : fp_giveShare.Free g := by
    simpa only [fp_giveShare, fp_sendDown, fp_sendMsg, fp_sendFrame, Print.free_cons, Print.free_nil, Print.free_reg, free_reg1_none,
      Print.free_prt, Print.free_row, and_true, true_and] using ⟨hdie, hevent⟩
  rw [arbitrated, (within_countShares _ _).get hcount, (within_giveShares _ _ _).get hshare, putI, get_put_ne hpool, get_poolFormed hcap]

theorem kept_countShares {z u : State} (h : Kept z u) (r : List Bid × Bool) : Kept z (countShares r u) :=
  .when (fun _ h => (h.event _ _).addSat _ _) (.when (fun _ h => h.addSat _ _) h)

theorem kept_arbitrated : Kept (poolFormed ps s) (arbitrated ps s) :=
  kept_countShares (.each (fun _ _ h => kept_giveShare _ _ h) ((Kept.refl _).putI _ _)) _

theorem clk_arbitrated : (arbitrated ps s).clk = (poolFormed ps s).clk := by
  rw [arbitrated, (within_countShares _ _).parts .clk (by decide) (by decide), (within_giveShares _ _ _).parts .clk (by decide) (by decide),
    putI, put_clk]

theorem out_subset_arbitrated : (poolFormed ps s).out ⊆ (arbitrated ps s).out := by
  rw [arbitrated, (within_countShares _ _).parts .out (by decide) (by decide)]
  refine List.Subset.trans ?_ (out_subset_eachGiveShare ..)
  rw [putI, put_out]
  exact List.Subset.refl _

/-- Every present die is given a share (R311 to R313). -/
theorem shareGiven_arbitrated {d : Nat} (hd : isPresent (poolFormed ps s) d = true) :
    ShareGiven (floorIssue (poolFormed ps s)) s (arbitrated ps s) d := by
  have hgiven : ∀ code u, (∀ e, linkUp u e = linkUp s e) →
      ShareGiven (floorIssue (poolFormed ps s)) s
        (countShares (sharesOf (poolFormed ps s)) (each (sharesOf (poolFormed ps s)).1 (giveShare code) u)) d := by
    intro code u hup
    have hcount := within_countShares (sharesOf (poolFormed ps s)) (each (sharesOf (poolFormed ps s)).1 (giveShare code) u)
    refine (shareGiven_each (fair_sharesOf _) hup (.inr (mem_dies_sharesOf hd))).of_same
      (tokOf_of (hcount.parts .tok (by decide) (by decide)) d) ?_
    rw [hcount.parts .out (by decide) (by decide)]
    exact List.Subset.refl _
  refine hgiven _ _ fun e => ?_
  rw [putI, linkUp, linkOf_of (put_links ..), ← linkUp, linkUp_poolFormed]

end

/-- PACKAGE_ARBITRATION: the pointer moves on, the mark carries the slot in RELOCK, every present die is sent a share (R77, R311 to R313). -/
theorem packageArbitration_shares (s : State) (ps : Nat) (h : s.clk.started = true) :
    ∃ t, exec (.packageArbitration ps) s = .next t ∧ get t R.TOK_RR.PTR = (get s R.TOK_RR.PTR + 1) % 2 ^ 4 ∧
      (clkState s = 4 → Out.slotMark slotCycles t.clk.slotPs ∈ t.out) ∧
      ∀ d, isPresent s d = true → floorIssue t d ≤ (tokOf t d).shareSent ∧ (tokOf t d).shareSent ≤ (tokOf t d).ask ∧
        (linkUp s d = true → Out.share d (tokOf t d).shareSent ∈ t.out) := by
  have hclk : (finish (addWrap R.TOK_RR.PTR 1 (arbitrated ps s))).clk = (poolFormed ps s).clk := by
    rw [clk_finish, addWrap, put_clk, clk_arbitrated]
  have hout : (finish (addWrap R.TOK_RR.PTR 1 (arbitrated ps s))).out = (arbitrated ps s).out := by
    rw [out_finish, addWrap, put_out]
  have htok : ∀ d, tokOf (finish (addWrap R.TOK_RR.PTR 1 (arbitrated ps s))) d = tokOf (arbitrated ps s) d := fun d => by
    rw [tokOf_finish, addWrap, tokOf_of (put_tok ..)]
  refine ⟨_, congrArg done (effPackageArbitration_eq h), ?_, fun hrelock => ?_, fun d hd => ?_⟩
  · rw [get_finish (by decide) (by decide), addWrap, get_put_self (by decide),
      get_arbitrated (by decide) (fun i => key_ne (by simp only [R.TOK_DIE_CNT.SCALED, R.TOK_RR.PTR]; omega)) (by decide)]
    rfl
  · rw [hclk, hout]
    exact out_subset_arbitrated (slotMark_poolFormed hrelock)
  · have hgiven := shareGiven_arbitrated (ps := ps) ((isPresent_of_kept kept_poolFormed d).trans hd)
    have hfloor : floorIssue (finish (addWrap R.TOK_RR.PTR 1 (arbitrated ps s))) d = floorIssue (poolFormed ps s) d := by
      refine congrFun (floorIssue_of_kept (kept_finish (kept_arbitrated.addWrap _ _)) ?_ hclk) d
      rw [clkState, get_finish (by decide) (by decide), addWrap, get_put_ne (by decide), clkState, get_poolFormed (by decide),
        get_arbitrated (by decide) (fun i => key_ne (by simp only [R.TOK_DIE_CNT.SCALED, R.CLK_STATUS.STATE]; omega)) (by decide)]
    rw [hfloor, htok, hout]
    exact ⟨hgiven.low, hgiven.ask, hgiven.sent⟩

end Sys2Proof.Machine

/-! What leaves the block only grows; the slot that ends (R301 to R306, R310, R316 to R319). -/

namespace Sys2Proof.Machine

/-! What has left the block stays in the record of a command's effect. -/

section

variable {s : State}

theorem out_subset_when {c : Bool} {f : State → State} (h : ∀ s : State, s.out ⊆ (f s).out) : s.out ⊆ (when c f s).out := by
  cases c
  · exact List.Subset.refl _
  · exact h s

theorem out_subset_each {α : Type} {l : List α} {f : α → State → State} (h : ∀ x (s : State), s.out ⊆ (f x s).out) :
    s.out ⊆ (each l f s).out := by
  induction l generalizing s with
  | nil => exact List.Subset.refl _
  | cons x l ih => exact List.Subset.trans (h x s) ih

theorem out_subset_of_eq {t : State} (h : t.out = s.out) : s.out ⊆ t.out := h ▸ List.Subset.refl _

theorem out_subset_notify (b p : Nat) : s.out ⊆ (notify b p s).out := by
  have hevent : s.out ⊆ (event (R.CMD_NOTIFY p) b s).out := out_subset_of_eq (put_out ..)
  unfold notify
  dsimp only
  split
  · exact List.Subset.refl _
  · split
    · split
      · exact List.Subset.trans hevent (out_subset_when fun u => out_subset_emit _ u)
      · exact List.Subset.trans hevent (out_subset_when fun u => out_subset_emit _ u)
    · exact hevent

theorem out_writeBytes (l : List Nat) (a : Nat) (s : State) : (writeBytes a l s).out = s.out := by
  induction l generalizing a s with
  | nil => rfl
  | cons b l ih => exact ih (a + 1) (writeByte a b s)

theorem out_subset_complete (fl : Flight) (status r0 r1 : Nat) : s.out ⊆ (complete fl status r0 r1 s).out := by
  unfold complete writeCompletion
  dsimp only
  split
  · refine List.Subset.trans (out_subset_of_eq ?_) (out_subset_when fun u => out_subset_notify 0 fl.port)
    simp only [put_out, writeWord32, out_writeBytes, dropFlight_out]
  · exact out_subset_emit _ (dropFlight fl.port fl.tag s)

theorem out_subset_completeAt (port tag status r0 r1 : Nat) : s.out ⊆ (completeAt port tag status r0 r1 s).out := by
  unfold completeAt
  split
  · exact out_subset_complete ..
  · exact List.Subset.refl _

theorem out_subset_resetReached (d : Nat) : s.out ⊆ (resetReached d s).out := by
  refine out_subset_each fun f u => ?_
  split
  · exact out_subset_completeAt ..
  · exact out_subset_of_eq rfl

theorem out_subset_resetIntent (d : Nat) : s.out ⊆ (resetIntent d s).out := by
  have hleave : ∀ u, (leaveMismatch d u).out = u.out := fun u =>
    (foot_leaveMismatch Names.any (Print.Sub.refl _) (Within.refl _ u)).parts .out (by decide) (by decide)
  unfold resetIntent
  refine List.Subset.trans (out_subset_of_eq ?_) (out_subset_resetReached d)
  rw [showEmpty, putB, put_out, hleave, put_out, put_out]
  rfl

theorem out_subset_trackSteps (d : Nat) : s.out ⊆ (trackSteps d s).out := by
  have hshow : ∀ u, (showSteps d u).out = u.out := fun u =>
    (foot_showSteps Names.any (Print.Sub.refl _) (Within.refl _ u)).parts .out (by decide) (by decide)
  have hstep : ∀ u, (stepBoundary d u).out = u.out := fun u =>
    (foot_stepBoundary Names.any (Print.Sub.refl _) (Within.refl _ u)).parts .out (by decide) (by decide)
  have hreset : ∀ c (u : State), u.out ⊆ (when c (heard d (resetIntent d)) u).out := fun c u =>
    out_subset_when fun v => out_subset_when fun w => out_subset_resetIntent d
  unfold trackSteps
  dsimp only
  rw [hshow, setItn_out]
  refine List.Subset.trans ?_ (out_subset_when fun u => out_subset_of_eq (hstep u))
  exact hreset _ (setItn d _ s)

theorem out_subset_settleChange : s.out ⊆ (settleChange s).out := by
  have henter : (enterG 1 s).out = s.out := by
    simp only [enterG, record_out, setBoot_out, put_out]
  have hshed : ∀ r u, (shedAtOnce r u).out = u.out := fun r u =>
    (foot_shedAtOnce (Print.Sub.refl _) (Within.refl _ u)).parts .out (by decide) (by decide)
  unfold settleChange
  split
  · refine List.Subset.trans (out_subset_of_eq henter) (List.Subset.trans ?_ (out_subset_each fun r u => out_subset_of_eq (hshed r u)))
    exact out_subset_each fun d u => out_subset_emit _ (setPins _ u)
  · split
    · exact out_subset_of_eq rfl
    · exact List.Subset.refl _

end

/-! The slot that ends. -/

section

variable {d : Nat} {x : SlotSum} {s : State} {g : Field}

/-- What an agent forms is one register, or none while its link is lost. -/
theorem get_agentPut {f : Field} (h : fieldKey f ≠ fieldKey g) (v : Nat) (s : State) : get (agentPut d f v s) g = get s g := by
  unfold agentPut
  dsimp only
  split
  · rfl
  · exact get_put_ne h v s

theorem get_sendMsg (up : Bool) (m : Msg) (s : State) : get (sendMsg up d m s) g = get s g := by
  refine (foot_sendMsg Names.any (Print.Sub.refl _) (Within.refl _ s)).get ?_
  simp only [fp_sendMsg, fp_sendFrame, Print.free_cons, Print.free_nil, Print.free_prt, Print.free_row, and_true]

/-- The account and the registers of the slot that ends, before its report. -/
def slotBooked (d : Nat) (x : SlotSum) (s : State) : State :=
  s |> judgeSlot d x |> heard d (setReasons d (limitReasons s d x ||| heldReasons s d)) |> showSlot d x (riseEff s d)
    |> when x.began (fun s => s |> agentAdd d (R.FIL_DIE_CNT.EPISODES d) |> heard d (event R.FIL_EVENT 0))

/-- The token state of a die whose slot has ended. -/
def closedTok (s : State) (d : Nat) (x : SlotSum) : TokD :=
  { tokOf s d with
    rot := x.served.rot, last := recordedGrant s d x, total := x.real + x.fill, episode := x.glide.on, l0 := x.glide.l0, n := x.glide.n,
    ng := x.glide.ng, slots := (tokOf s d).slots + 1,
    limSlots := (tokOf s d).limSlots + b2n (decide ((tokOf s d).share < (tokOf s d).askIn ∨ heldBudget s d < (tokOf s d).askIn)),
    allFloor := (tokOf s d).allFloor && ((tokOf s d).grant = floorIssue s d && get s (R.CAP_DIE_OP.CUR d) = lowestOp s d) }

theorem closeSlot_eq : closeSlot d x s = (slotBooked d x s |> emit (.dispatch d x.served.out) |> emit (.tiles d x.filler.out)
    |> reportSlot d x.real x.fill (tokOf s d).lateShare |> setTok d (closedTok s d x)) := rfl

theorem linkStays_judgeSlot : LinkStays d s (judgeSlot d x s) := by
  unfold judgeSlot
  dsimp only
  split
  · exact .refl d s
  · exact .when (fun _ h => h.agentPut _ _) (.when (fun _ h => h.agentPut _ _) ((LinkStays.refl d s).setItn d _))

/-- The slot registers are shown of a die whose link is in service. -/
theorem linkStays_heardReasons (v : Nat) : LinkStays d s (heard d (setReasons d v) (judgeSlot d x s)) :=
  .when (fun u h => h.within (foot_setReasons Names.any (Print.Sub.refl _) (Within.refl _ u)) (by decide)) linkStays_judgeSlot

theorem linkStays_slotBooked : LinkStays d s (slotBooked d x s) := by
  refine .when (fun u h => .when (fun v k => k.put _ _) (h.agentPut _ _)) ?_
  exact (linkStays_heardReasons _).within (foot_showSlot Names.any (Print.Sub.refl _) (Within.refl _ _)) (by decide)

theorem linkUp_slotBooked (h : linkUp s d = true) : linkUp (slotBooked d x s) d = true := by
  obtain ⟨htrained, hserved⟩ := Bool.and_eq_true_iff.1 h
  obtain ⟨hlost, -, -, htrained', -⟩ := linkStays_slotBooked (x := x).link (by simpa using hserved)
  rw [linkUp, htrained', htrained, hlost]
  rfl

theorem get_showSlot_USED {rise : Nat} {u : State} (h : (linkOf u d).lost = false) :
    get (showSlot d x rise u) (R.TOK_DIE_STAT2.USED d) = x.real % 2 ^ 12 := by
  have hkey : ∀ f ∈ [R.FIL_DIE_L0.L0 d, R.FIL_DIE_STAT.N d, R.FIL_DIE_STAT.EPISODE d, R.TOK_DIE_STAT3.FILLER d, R.TOK_DIE_STAT3.RISE_EFF d],
      fieldKey f ≠ fieldKey (R.TOK_DIE_STAT2.USED d) := by
    simp only [List.forall_mem_cons]
    refine ⟨key_ne ?_, key_ne ?_, key_ne ?_, key_ne ?_, key_ne ?_, nofun⟩ <;>
      simp only [R.FIL_DIE_L0.L0, R.FIL_DIE_STAT.N, R.FIL_DIE_STAT.EPISODE, R.TOK_DIE_STAT3.FILLER, R.TOK_DIE_STAT3.RISE_EFF,
        R.TOK_DIE_STAT2.USED] <;> omega
  simp only [List.forall_mem_cons] at hkey
  obtain ⟨hl0, hn, hepisode, hfiller, hrise, -⟩ := hkey
  unfold showSlot putB
  simp only [h, Bool.false_eq_true, if_false]
  rw [get_put_ne hl0, get_put_ne hn, get_put_ne hepisode, get_put_ne hfiller, get_put_ne hrise, get_put_self (by nofun)]
  rfl

theorem get_slotBooked_USED (h : (linkOf s d).lost = false) : get (slotBooked d x s) (R.TOK_DIE_STAT2.USED d) = x.real % 2 ^ 12 := by
  have hepisodes : fieldKey (R.FIL_DIE_CNT.EPISODES d) ≠ fieldKey (R.TOK_DIE_STAT2.USED d) :=
    key_ne (by simp only [R.FIL_DIE_CNT.EPISODES, R.TOK_DIE_STAT2.USED]; omega)
  have hevent : fieldKey R.FIL_EVENT ≠ fieldKey (R.TOK_DIE_STAT2.USED d) := key_ne (by simp only [R.FIL_EVENT, R.TOK_DIE_STAT2.USED]; omega)
  have hbegan : ∀ u, get (heard d (event R.FIL_EVENT 0) (agentAdd d (R.FIL_DIE_CNT.EPISODES d) u)) (R.TOK_DIE_STAT2.USED d) =
      get u (R.TOK_DIE_STAT2.USED d) := fun u => (get_when (get_put_ne hevent _ _)).trans (get_agentPut hepisodes _ _)
  rw [slotBooked, get_when (hbegan _)]
  exact get_showSlot_USED ((linkStays_heardReasons _).link h).1

/-- The slot that ends, as its registers, its token state and the agent's report have it. -/
theorem closeSlot_reports : tokOf (closeSlot d x s) d = closedTok s d x ∧ Out.dispatch d x.served.out ∈ (closeSlot d x s).out ∧
    Out.tiles d x.filler.out ∈ (closeSlot d x s).out ∧
    ((linkOf s d).lost = false → get (closeSlot d x s) (R.TOK_DIE_STAT2.USED d) = x.real % 2 ^ 12) ∧
    (linkUp s d = true → Out.tokens d x.real x.fill (tokOf s d).lateShare ∈ (closeSlot d x s).out) := by
  rw [closeSlot_eq]
  refine ⟨tokOf_setTok .., ?_, ?_, fun hlost => ?_, fun hup => ?_⟩
  · exact out_subset_sendMsg (out_subset_emit _ _ (mem_out_emit ..))
  · exact out_subset_sendMsg (mem_out_emit ..)
  · rw [get_setTok, reportSlot, sendUp, get_sendMsg, get_emit, get_emit, get_slotBooked_USED hlost]
  · exact mem_out_sendMsg (d := d) (m := .of tyTOKENS [x.real, x.fill, b2n (tokOf s d).lateShare] _) (linkUp_slotBooked hup)

end

end Sys2Proof.Machine

/-! The slot that begins (R303, R304), and the statement on slots and arbitration. -/

namespace Sys2Proof.Machine

/-! The slot that begins, as the state before its grant and what is written of it. -/

section

variable {d : Nat} {s u t : State} {g : Field}

/-- The token state of a die as its slot turns: what arrived for the new slot is in force (R303, R307). -/
def turnedTok (s : State) (d : Nat) : TokD :=
  let t := tokOf s d
  let budget := t.budgetNext.getD (t.budget, t.budgetPs)
  let sl := t.slewNext.getD (t.rise, t.fall)
  { t with slot := t.slot + 1, budget := budget.1, budgetPs := budget.2, budgetNext := none, share := t.shareNext.getD t.share,
           shareNext := none, rise := sl.1, fall := sl.2, slewNext := none, floorTok := t.floorNext.getD t.floorTok, floorNext := none,
           lateShare := t.shareNext.isNone, askIn := t.ask, pool := (t.pool.1, t.pool.1), slotAt := now s }

/-- The state of which the grant of the new slot is formed. -/
def slotTurned (d : Nat) (s : State) : State := setTok d (turnedTok s d) s

/-- A fall to F that is asked for is complete (R632). -/
def slotGated (u : State) (d : Nat) (k : TokD) : Bool := gateAsked u && (k.gated || decide (k.total ≤ floorIssue u d))

/-- The grant of the new slot (R304). -/
def slotGrant (u : State) (d : Nat) (k : TokD) : Nat :=
  nextGrant u d (appliedBudget u d) k.share (phaseTag u d (itnOf u d).agent k.slot) k.last (slotGated u d k)

/-- The warm-up level of the new slot (R322). -/
def slotWarm (u : State) (d : Nat) (k : TokD) : Nat :=
  nextWarm u d (appliedBudget u d) (phaseTag u d (itnOf u d).agent k.slot) k.warm k.warmOn

/-- The token state of a die whose slot has begun. -/
def openedTok (u : State) (d : Nat) (k : TokD) : TokD :=
  let cut := agentGet u d (R.ITN_DIE_STAT.CUT d) ≠ 0
  { k with gated := slotGated u d k, grant := slotGrant u d k, warm := slotWarm u d k, warmOn := warming u d, cutSlot := cut, cutHeld := cut,
           cuts := 0 }

/-- The registers of a slot that begins. -/
def slotShown (d : Nat) (zero : Bool) (budget : Nat) (warm : Bool) (s : State) : State :=
  s |> when (!(linkOf s d).lost) (fun s =>
      s |> putB (R.TOK_DIE_STAT.ZERO d) zero |> put (R.TOK_DIE_STAT2.BUDGET d) budget |> putB (R.FIL_DIE_STAT.WARM d) warm)
    |> showEmpty d

theorem openSlot_eq : openSlot d s = slotShown d (slotGrant (slotTurned d s) d (turnedTok s d) = 0) (appliedBudget (slotTurned d s) d)
    (slotWarm (slotTurned d s) d (turnedTok s d) ≠ 0) (setTok d (openedTok (slotTurned d s) d (turnedTok s d)) (slotTurned d s)) := rfl

/-- The registers of a slot that begins, and those of the recorder. -/
def openFields (d : Nat) : List Field :=
  [R.TOK_DIE_STAT.ZERO d, R.TOK_DIE_STAT2.BUDGET d, R.FIL_DIE_STAT.WARM d, R.ITN_DIE_STAT.EMPTY d, R.REC_LOST.COUNT, R.REC_EVENT]

/-- What is written of a slot that begins once its grant is formed, to the end of its command. -/
def openPrint (d : Nat) : Print := ⟨(openFields d).map the, [], [.tok d], [.log]⟩

theorem within_slotShown (zero : Bool) (budget : Nat) (warm : Bool) (h : Within (openPrint d) u s) :
    Within (openPrint d) u (slotShown d zero budget warm s) := by
  have hhas : ∀ f ∈ openFields d, (openPrint d).has f := fun f hf => ⟨the f, List.mem_map.2 ⟨f, hf, rfl⟩, 0, 0, rfl⟩
  refine .putB _ (hhas (R.ITN_DIE_STAT.EMPTY d) (by simp [openFields])) (.when (fun v k => ?_) h)
  exact ((k.putB _ (hhas (R.TOK_DIE_STAT.ZERO d) (by simp [openFields]))).put _ (hhas (R.TOK_DIE_STAT2.BUDGET d) (by simp [openFields]))).putB _
    (hhas (R.FIL_DIE_STAT.WARM d) (by simp [openFields]))

theorem within_openSlot : Within (openPrint d) (slotTurned d s) (openSlot d s) := by
  rw [openSlot_eq]
  exact within_slotShown _ _ _ ((Within.refl _ _).setTok _ (.inl (.head _)))

theorem kept_slotShown (zero : Bool) (budget : Nat) (warm : Bool) (h : Kept u s) : Kept u (slotShown d zero budget warm s) :=
  kept_showEmpty _ (.when (fun _ k => ((k.putB _ _).put _ _).putB _ _) h)

theorem kept_openSlot_of_turned : Kept (slotTurned d s) (openSlot d s) := by
  rw [openSlot_eq]
  exact kept_slotShown _ _ _ ((Kept.refl _).setTok _ _)

theorem tokOf_openSlot : tokOf (openSlot d s) d = openedTok (slotTurned d s) d (turnedTok s d) := by
  have hshown : ∀ zero budget warm (u : State), (slotShown d zero budget warm u).tok = u.tok := by
    intro zero budget warm u
    have hwhen : ∀ c (v : State), (when c (fun s =>
        s |> putB (R.TOK_DIE_STAT.ZERO d) zero |> put (R.TOK_DIE_STAT2.BUDGET d) budget |> putB (R.FIL_DIE_STAT.WARM d) warm) v).tok = v.tok := by
      rintro (_ | _) v
      · rfl
      · rw [when_true, putB, put_tok, put_tok, putB, put_tok]
    rw [slotShown, showEmpty, putB, put_tok, hwhen]
  rw [openSlot_eq, tokOf_of (hshown ..), tokOf_setTok]

theorem within_finishOpen (h : Within (openPrint d) u s) : Within (openPrint d) u (finish s) :=
  h.trans ((Within.finish s).mono ⟨fun φ hφ i j => ⟨φ, List.mem_append_right ((openFields d).take 4 |>.map the) hφ, i, j, rfl⟩,
    nofun, nofun, fun _ hq => hq⟩)

/-- A register that an opening slot does not write. -/
theorem get_of_open (h : Within (openPrint d) u t)
    (hg : ∀ f ∈ openFields d, (f.off * 32 + f.lo) % 2 ^ 27 ≠ (g.off * 32 + g.lo) % 2 ^ 27) : get t g = get u g :=
  h.get ⟨List.forall_mem_map.2 fun f hf _ _ => key_ne (hg f hf), nofun⟩

end

/-! What the grant of a slot is formed of does not change as the slot begins. -/

section

variable {d : Nat} {u t : State}

/-- From u to t a slot of die d began, its budget and slews those already in force in u. -/
structure SlotOpens (d : Nat) (u t : State) : Prop where
  within : Within (openPrint d) u t
  kept : Kept u t
  rise : (tokOf t d).rise = (tokOf u d).rise
  budget : (tokOf t d).budget = (tokOf u d).budget ∧ (tokOf t d).budgetPs = (tokOf u d).budgetPs

namespace SlotOpens

variable (h : SlotOpens d u t)

include h

theorem clk : t.clk = u.clk := h.within.parts .clk (by simp [openPrint]) (by simp [openPrint, Cell.part])
theorem boot : t.boot = u.boot := h.within.parts .boot (by simp [openPrint]) (by simp [openPrint, Cell.part])
theorem links (e : Nat) : linkOf t e = linkOf u e :=
  linkOf_of (h.within.parts .links (by simp [openPrint]) (by simp [openPrint, Cell.part])) e
theorem itn (e : Nat) : itnOf t e = itnOf u e :=
  itnOf_of (h.within.parts .itn (by simp [openPrint]) (by simp [openPrint, Cell.part])) e

/-- Outside the windows of the dies' intent, tokens and filler nothing is written. -/
theorem get_far {g : Field} (hlo : g.off * 32 + g.lo < 0x080400 * 32 ∨ 0x081000 * 32 ≤ g.off * 32 + g.lo ∧ g.off * 32 + g.lo < 0x130000 * 32 ∨
    0x160000 * 32 ≤ g.off * 32 + g.lo) (hhi : g.off * 32 + g.lo < 2 ^ 27) : get t g = get u g := by
  refine get_of_open h.within ?_
  simp only [openFields, List.forall_mem_cons]
  refine ⟨?_, ?_, ?_, ?_, ?_, ?_, nofun⟩ <;>
    simp only [R.TOK_DIE_STAT.ZERO, R.TOK_DIE_STAT2.BUDGET, R.FIL_DIE_STAT.WARM, R.ITN_DIE_STAT.EMPTY, R.REC_LOST.COUNT, R.REC_EVENT] <;> omega

theorem clkState : clkState t = clkState u := h.get_far (by decide) (by decide)

theorem floorIssue : floorIssue t = floorIssue u := floorIssue_of_kept h.kept h.clkState h.clk
theorem maxIssue : maxIssue t = maxIssue u := maxIssue_of_kept h.kept h.clkState h.clk
theorem scaleTok : scaleTok t = scaleTok u := scaleTok_of h.clkState h.clk

theorem setting {g : Field} (hg : get t g = get u g) : setting t d g = setting u d g := by
  unfold Machine.setting
  rw [h.links, hg]

theorem agentGet {g : Field} (hg : get t g = get u g) : agentGet t d g = agentGet u d g := by
  unfold Machine.agentGet
  rw [h.links, hg]

/-- Of a die's intent registers EMPTY alone is written. -/
theorem get_intent {g : Field} (hoff : g.off = 0x080400 + 0x40 * (d % 16) ∨ g.off = 0x080408 + 0x40 * (d % 16)) (hlo : g.lo ≠ 0)
    (hw : g.lo < 32) : get t g = get u g := by
  refine get_of_open h.within ?_
  simp only [openFields, List.forall_mem_cons]
  refine ⟨?_, ?_, ?_, ?_, ?_, ?_, nofun⟩ <;>
    simp only [R.TOK_DIE_STAT.ZERO, R.TOK_DIE_STAT2.BUDGET, R.FIL_DIE_STAT.WARM, R.ITN_DIE_STAT.EMPTY, R.REC_LOST.COUNT, R.REC_EVENT] <;> omega

theorem warmState : get t R.FIL_WARM_STAT.STATE = get u R.FIL_WARM_STAT.STATE := by
  refine get_of_open h.within ?_
  simp only [openFields, List.forall_mem_cons]
  refine ⟨?_, ?_, ?_, ?_, by decide, by decide, nofun⟩ <;>
    simp only [R.FIL_WARM_STAT.STATE, R.TOK_DIE_STAT.ZERO, R.TOK_DIE_STAT2.BUDGET, R.FIL_DIE_STAT.WARM, R.ITN_DIE_STAT.EMPTY] <;> omega

theorem phState : phState t = phState u := by
  funext n
  unfold Machine.phState phaseFitted railFitted
  rw [isPresent_of_kept h.kept, h.get_far (g := R.PST_PH_STAT.STATE n) (by simp only [R.PST_PH_STAT.STATE]; omega)
    (by simp only [R.PST_PH_STAT.STATE]; omega)]

theorem fitted : fitted t = fitted u := by
  funext r
  unfold Machine.fitted railFitted
  rw [isPresent_of_kept h.kept]

theorem cut : Machine.agentGet t d (R.ITN_DIE_STAT.CUT d) = Machine.agentGet u d (R.ITN_DIE_STAT.CUT d) :=
  h.agentGet (h.get_intent (.inr rfl) (by simp only [R.ITN_DIE_STAT.CUT]; omega) (by simp only [R.ITN_DIE_STAT.CUT]; omega))

theorem riseEff : riseEff t d = riseEff u d := by
  have hblind : Machine.agentGet t d (R.ITN_DIE_STAT.BLIND d) = Machine.agentGet u d (R.ITN_DIE_STAT.BLIND d) :=
    h.agentGet (h.get_intent (.inr rfl) (by simp only [R.ITN_DIE_STAT.BLIND]; omega) (by simp only [R.ITN_DIE_STAT.BLIND]; omega))
  have hmismatch : get t (R.ITN_DIE_STAT.MISMATCH d) = get u (R.ITN_DIE_STAT.MISMATCH d) :=
    h.get_intent (.inr rfl) (by simp only [R.ITN_DIE_STAT.MISMATCH]; omega) (by simp only [R.ITN_DIE_STAT.MISMATCH]; omega)
  have hfrac : get t R.ITN_MM2.RISE_FRAC = get u R.ITN_MM2.RISE_FRAC := h.get_far (by decide) (by decide)
  unfold Machine.riseEff scaleSlew countPhases isOn
  rw [h.rise, h.fitted, h.phState, hblind, hmismatch, hfrac, h.scaleTok]

theorem ceiling (tag : Nat) : ceiling t d tag = ceiling u d tag := by
  have hceil : get t (R.CAP_HINT.CEIL tag) = get u (R.CAP_HINT.CEIL tag) :=
    h.get_far (by simp only [R.CAP_HINT.CEIL]; omega) (by simp only [R.CAP_HINT.CEIL]; omega)
  unfold Machine.ceiling
  rw [h.maxIssue, h.scaleTok, h.setting hceil]

theorem phaseTag (p : Prof) (k : Nat) : phaseTag t d p k = phaseTag u d p k := by
  unfold Machine.phaseTag
  rw [h.setting (h.get_intent (.inl rfl) (by simp only [R.ITN_SRC_CFG.STEP_SRC]; omega) (by simp only [R.ITN_SRC_CFG.STEP_SRC]; omega))]

theorem appliedBudget : appliedBudget t d = appliedBudget u d := by
  obtain ⟨hbudget, hps⟩ := h.budget
  have hg : get t R.BOOT_STAT.GSTATE = get u R.BOOT_STAT.GSTATE := h.get_far (by decide) (by decide)
  unfold Machine.appliedBudget heldBudget fallAsked
  dsimp only
  rw [h.links, h.boot, hg, h.floorIssue, h.maxIssue, h.clkState, h.clk, hbudget, hps]

theorem grantZero (gated : Bool) : grantZero t d gated = grantZero u d gated := by
  have hrail : ∀ r, get t (R.PST_RAIL_STAT.LOST r) = get u (R.PST_RAIL_STAT.LOST r) := fun r =>
    h.get_far (by simp only [R.PST_RAIL_STAT.LOST]; omega) (by simp only [R.PST_RAIL_STAT.LOST]; omega)
  have hloop : get t (R.LPE_STAT.STATE d) = get u (R.LPE_STAT.STATE d) :=
    h.get_far (by simp only [R.LPE_STAT.STATE]; omega) (by simp only [R.LPE_STAT.STATE]; omega)
  have hstage : get t R.BOOT_STAT.STAGE = get u R.BOOT_STAT.STAGE := h.get_far (by decide) (by decide)
  have htrip : get t R.THM_TRIP.ACTIVE = get u R.THM_TRIP.ACTIVE := h.get_far (by decide) (by decide)
  unfold Machine.grantZero sitesArmed loopState dieLost isOn dieInReset stage
  rw [hloop, hrail, hrail, h.warmState, h.boot, h.links, hstage, htrip]

theorem nextGrant (budget share tag last : Nat) (gated : Bool) :
    nextGrant t d budget share tag last gated = nextGrant u d budget share tag last gated := by
  unfold Machine.nextGrant
  rw [h.grantZero, h.cut, h.floorIssue, h.maxIssue, h.ceiling, h.riseEff]

end SlotOpens

end

theorem slotOpens_openSlot (d : Nat) (s : State) : SlotOpens d (slotTurned d s) (finish (openSlot d s)) where
  within := within_finishOpen within_openSlot
  kept := kept_finish kept_openSlot_of_turned
  rise := by
    rw [tokOf_finish, tokOf_openSlot, slotTurned, tokOf_setTok]
    rfl
  budget := by
    rw [tokOf_finish, tokOf_openSlot, slotTurned, tokOf_setTok]
    exact ⟨rfl, rfl⟩

/-- The slot that begins has the grant of R304, of the state that its command leaves. -/
theorem grant_openSlot (d : Nat) (s : State) :
    (tokOf (finish (openSlot d s)) d).grant = nextGrant (finish (openSlot d s)) d (appliedBudget (finish (openSlot d s)) d)
      (tokOf (finish (openSlot d s)) d).share
      (phaseTag (finish (openSlot d s)) d (itnOf (finish (openSlot d s)) d).agent (tokOf (finish (openSlot d s)) d).slot)
      (tokOf (finish (openSlot d s)) d).last (tokOf (finish (openSlot d s)) d).gated := by
  have h := slotOpens_openSlot d s
  rw [h.nextGrant, h.appliedBudget, h.phaseTag, h.itn, tokOf_finish, tokOf_openSlot]
  rfl

end Sys2Proof.Machine

/-! AGENT_SLOT from the slot that ends to the one that begins, and the statement on slots and arbitration. -/

namespace Sys2Proof.Machine

section

variable {d : Nat} {s : State}

/-! The filler drawn: the tile arrays' LFSRs alone move (R315). -/

theorem tokOf_feedTiles (fed words : List Nat) : ∃ lfsr, tokOf (feedTiles d fed words s) d = { tokOf s d with lfsr := lfsr } := by
  unfold feedTiles
  induction bitList 32 (words.foldl (· ||| ·) 0) generalizing s with
  | nil => exact ⟨_, rfl⟩
  | cons a l ih =>
    obtain ⟨lfsr, h⟩ := ih (s := setTok d { tokOf s d with
      lfsr := sset (lfsrSeed d a) a (lfsrAfter (nth fed a) (lfsrOf s d a)) (tokOf s d).lfsr } s)
    rw [tokOf_setTok] at h
    exact ⟨lfsr, h⟩

/-- The state in which the slot of die d ends: its time in the window counted, its filler drawn. -/
def slotFed (d : Nat) (fed words : List Nat) (s : State) : State :=
  feedTiles d fed words (setEst d { estOf s d with winPs := (estOf s d).winPs + s.clk.slotPs } s)

theorem within_slotFed (fed words : List Nat) : Within ⟨[], [], [.est d, .tok d], []⟩ s (slotFed d fed words s) := by
  refine foot_feedTiles Names.one ?_ ((Within.refl _ s).setEst _ (.inl (.head _)))
  simp only [fp_feedTiles, Print.join_cons, Print.join_nil, and_true]
  exact ⟨nofun, nofun, fun c hc => .inl (List.mem_cons_of_mem _ hc), nofun⟩

theorem get_slotFed (fed words : List Nat) (g : Field) : get (slotFed d fed words s) g = get s g :=
  (within_slotFed fed words).get ⟨nofun, nofun⟩

theorem kept_slotFed (fed words : List Nat) : Kept s (slotFed d fed words s) := kept_feedTiles _ _ _ ((Kept.refl s).setEst _ _)

theorem clk_slotFed (fed words : List Nat) : (slotFed d fed words s).clk = s.clk :=
  (within_slotFed fed words).parts .clk (by simp) (by simp [Cell.part])

theorem linkOf_slotFed (fed words : List Nat) (e : Nat) : linkOf (slotFed d fed words s) e = linkOf s e :=
  linkOf_of ((within_slotFed fed words).parts .links (by simp) (by simp [Cell.part])) e

theorem tokOf_slotFed (fed words : List Nat) : ∃ lfsr, tokOf (slotFed d fed words s) d = { tokOf s d with lfsr := lfsr } :=
  tokOf_feedTiles fed words

/-- The recorded grant does not depend on the filler drawn (R305). -/
theorem recordedGrant_slotFed (fed words : List Nat) (x : SlotSum) : recordedGrant (slotFed d fed words s) d x = recordedGrant s d x := by
  obtain ⟨lfsr, htok⟩ := tokOf_slotFed (d := d) (s := s) fed words
  have hfloor : floorIssue (slotFed d fed words s) = floorIssue s :=
    floorIssue_of_kept (kept_slotFed _ _) (get_slotFed ..) (clk_slotFed ..)
  rw [recordedGrant, htok, hfloor, recordedGrant]

/-! The slot as a whole. -/

/-- The state in which the slot of die d has ended, its steps tracked. -/
def slotClosed (d : Nat) (fed cuts asks free : List Nat) (s : State) : State :=
  trackSteps d (closeSlot d (slotSum s d cuts asks free) (slotFed d fed (slotSum s d cuts asks free).filler.out s))

variable {asks free fed cuts : List Nat}

theorem effAgentSlot_eq (hd : isPresent s d = true) (h : s.clk.started = true) :
    effAgentSlot d ⟨asks, free, fed⟩ cuts s = settleChange (openSlot d (slotClosed d fed cuts asks free s)) := if_pos ⟨hd, h⟩

theorem tok_trackSteps (u : State) : (trackSteps d u).tok = u.tok :=
  (foot_trackSteps Names.any (Print.Sub.refl _) (Within.refl _ u)).parts .tok (by decide) (by decide)

theorem tokOf_slotClosed : tokOf (slotClosed d fed cuts asks free s) d =
    closedTok (slotFed d fed (slotSum s d cuts asks free).filler.out s) d (slotSum s d cuts asks free) := by
  rw [slotClosed, tokOf_of (tok_trackSteps _)]
  exact closeSlot_reports.1

/-! The use of the slot that ended, among what comes after it. -/

theorem free_trackSteps_USED : (fp_trackSteps (some d)).Free (R.TOK_DIE_STAT2.USED d) := by
  have hkey : ∀ f : Field, f.off * 32 + f.lo < 0x080C00 * 32 ∨ 0x081000 * 32 ≤ f.off * 32 + f.lo → f.off * 32 + f.lo < 2 ^ 27 →
      fieldKey f ≠ fieldKey (R.TOK_DIE_STAT2.USED d) := fun f hf hw => key_ne (by simp only [R.TOK_DIE_STAT2.USED]; omega)
  simp only [fp_trackSteps, fp_resetIntent, fp_leaveMismatch, fp_recordDie, fp_recordAt, fp_showEmpty, fp_showReasons, fp_setReasons,
    fp_resetReached, fp_completeAt, fp_complete, fp_dropFlight, fp_writeCompletion, fp_notify, fp_keepResult, fp_stepBoundary, fp_tellStep,
    fp_showSteps, Print.free_cons, Print.free_nil, Print.free_reg, free_reg1_none, free_reg1_some, Print.free_prt, Print.free_row, and_true,
    true_and, and_assoc]
  refine ⟨?_, ?_, ?_, ?_, ?_, ?_, ?_, ?_, ?_, ?_, ?_, ?_, ?_, ?_, ?_, ?_, ?_⟩ <;> intros <;> refine hkey _ ?_ ?_ <;>
    simp only [R.ITN_DIE_STAT.COLLECTIVE, R.ITN_DIE_STAT.BARRIER, R.ITN_DIE_STAT.MISMATCH, R.ITN_EVENT, R.ITN_DIE_STAT.EMPTY,
      R.CAP_DIE_THR.ACTIVE, R.CAP_THR_ACT.ACTIVE, R.CAP_THR_START.TIME, R.CMD_CQ_TAIL.TAIL, R.CMD_NOTIFY, R.ITN_STEP.LAST, R.ITN_STEP_WAIT.NS,
      R.ITN_STEP_LEN.US, R.ITN_DIE_STAT.STEP] <;> omega

theorem free_openSlot_USED : (fp_openSlot (some d)).Free (R.TOK_DIE_STAT2.USED d) := by
  simp only [fp_openSlot, fp_showEmpty, Print.free_cons, Print.free_nil, free_reg1_some, Print.free_row, and_true, true_and]
  refine ⟨key_ne ?_, key_ne ?_, key_ne ?_, key_ne ?_⟩ <;>
    simp only [R.TOK_DIE_STAT.ZERO, R.TOK_DIE_STAT2.BUDGET, R.FIL_DIE_STAT.WARM, R.ITN_DIE_STAT.EMPTY, R.TOK_DIE_STAT2.USED] <;> omega

theorem free_settleChange_USED : fp_settleChange.Free (R.TOK_DIE_STAT2.USED d) := by
  simp only [fp_settleChange, fp_enterG, fp_record, fp_recordAt, fp_gateClock, fp_shedAtOnce, fp_startShed, fp_setPh, Print.free_cons,
    Print.free_nil, Print.free_reg, free_reg1_none, Print.free_prt, Print.free_row, and_true, true_and]
  refine ⟨⟨key_ne ?_, key_ne ?_⟩, fun n => key_ne ?_⟩ <;>
    simp only [R.BOOT_STAT.GSTATE, R.BOOT_GSTATE.BUSY, R.PST_PH_STAT.STATE, R.TOK_DIE_STAT2.USED] <;> omega

theorem get_USED_of_closed (u : State) :
    get (finish (settleChange (openSlot d (trackSteps d u)))) (R.TOK_DIE_STAT2.USED d) = get u (R.TOK_DIE_STAT2.USED d) := by
  rw [get_finish (key_ne (by simp only [R.REC_LOST.COUNT, R.TOK_DIE_STAT2.USED]; omega))
      (key_ne (by simp only [R.REC_EVENT, R.TOK_DIE_STAT2.USED]; omega)),
    (foot_settleChange (Print.Sub.refl _) (Within.refl _ _)).get free_settleChange_USED,
    (foot_openSlot Names.one (Print.Sub.refl _) (Within.refl _ _)).get free_openSlot_USED,
    (foot_trackSteps Names.one (Print.Sub.refl _) (Within.refl _ _)).get free_trackSteps_USED]

/-! The slot that has begun. -/

theorem tokOf_settled (u : State) : tokOf (finish (settleChange (openSlot d u))) d = openedTok (slotTurned d u) d (turnedTok u d) := by
  have hsettle : ∀ v, (settleChange v).tok = v.tok := fun v =>
    (foot_settleChange (Print.Sub.refl _) (Within.refl _ v)).parts .tok (by decide) (by decide)
  rw [tokOf_finish, tokOf_of (hsettle _), tokOf_openSlot]

/-- The slot that begins is the next one, with the totals of the one that ended. -/
theorem settled_keeps (u : State) : (tokOf (finish (settleChange (openSlot d u))) d).slot = (tokOf u d).slot + 1 ∧
    (tokOf (finish (settleChange (openSlot d u))) d).total = (tokOf u d).total ∧
    (tokOf (finish (settleChange (openSlot d u))) d).last = (tokOf u d).last ∧
    (tokOf (finish (settleChange (openSlot d u))) d).rot = (tokOf u d).rot := by
  rw [tokOf_settled]
  exact ⟨rfl, rfl, rfl, rfl⟩

theorem out_subset_settled (u : State) : u.out ⊆ (finish (settleChange (openSlot d (trackSteps d u)))).out := by
  have hopen : ∀ v, (openSlot d v).out = v.out := fun v =>
    (foot_openSlot Names.any (Print.Sub.refl _) (Within.refl _ v)).parts .out (by decide) (by decide)
  rw [out_finish]
  refine List.Subset.trans ?_ out_subset_settleChange
  rw [hopen]
  exact out_subset_trackSteps d

/-- AGENT_SLOT: what the slot that ended issued is reported and recorded (R301 to R305, R310, R313). -/
theorem agentSlot_reports (hd : isPresent s d = true) (h : s.clk.started = true) :
    ∃ t, exec (.agentSlot d ⟨asks, free, fed⟩ ⟨cuts⟩) s = .next t ∧ (tokOf t d).slot = (tokOf s d).slot + 1 ∧
      (tokOf t d).total = (slotSum s d cuts asks free).real + (slotSum s d cuts asks free).fill ∧
      (tokOf t d).last = recordedGrant s d (slotSum s d cuts asks free) ∧ (tokOf t d).rot = (slotSum s d cuts asks free).served.rot ∧
      Out.dispatch d (slotSum s d cuts asks free).served.out ∈ t.out ∧ Out.tiles d (slotSum s d cuts asks free).filler.out ∈ t.out ∧
      ((linkOf s d).lost = false → get t (R.TOK_DIE_STAT2.USED d) = (slotSum s d cuts asks free).real % 2 ^ 12) ∧
      (linkUp s d = true → Out.tokens d (slotSum s d cuts asks free).real (slotSum s d cuts asks free).fill (tokOf s d).lateShare ∈ t.out) := by
  obtain ⟨lfsr, hfed⟩ := tokOf_slotFed (d := d) (s := s) fed (slotSum s d cuts asks free).filler.out
  obtain ⟨-, hdispatch, htiles, hused, htokens⟩ :=
    closeSlot_reports (d := d) (x := slotSum s d cuts asks free) (s := slotFed d fed (slotSum s d cuts asks free).filler.out s)
  obtain ⟨hslot, htotal, hlast, hrot⟩ := settled_keeps (d := d) (slotClosed d fed cuts asks free s)
  rw [tokOf_slotClosed] at hslot htotal hlast hrot
  have hnext : (closedTok (slotFed d fed (slotSum s d cuts asks free).filler.out s) d (slotSum s d cuts asks free)).slot = (tokOf s d).slot := by
    rw [closedTok, hfed]
  refine ⟨_, congrArg done (effAgentSlot_eq hd h), hslot.trans (congrArg (· + 1) hnext), htotal,
    hlast.trans (recordedGrant_slotFed ..), hrot, ?_, ?_, fun hlost => ?_, fun hup => ?_⟩
  · exact out_subset_settled _ hdispatch
  · exact out_subset_settled _ htiles
  · rw [slotClosed, get_USED_of_closed]
    exact hused (by rwa [linkOf_slotFed])
  · rw [hfed] at htokens
    refine out_subset_settled _ (htokens ?_)
    rwa [linkUp, linkOf_slotFed]

/-- With no change of G state in progress none is settled (R632). -/
theorem settleChange_of_none {u : State} (h : u.boot.change = 0) : settleChange u = u := by
  simp [settleChange, h]

theorem boot_slotOpened : (openSlot d (slotClosed d fed cuts asks free s)).boot = s.boot := by
  have hopen : ∀ u, (openSlot d u).boot = u.boot := fun u =>
    (foot_openSlot Names.any (Print.Sub.refl _) (Within.refl _ u)).parts .boot (by decide) (by decide)
  have htrack : ∀ u, (trackSteps d u).boot = u.boot := fun u =>
    (foot_trackSteps Names.any (Print.Sub.refl _) (Within.refl _ u)).parts .boot (by decide) (by decide)
  have hclose : ∀ x u, (closeSlot d x u).boot = u.boot := fun x u =>
    (foot_closeSlot Names.any (Print.Sub.refl _) (Within.refl _ u)).parts .boot (by decide) (by decide)
  rw [hopen, slotClosed, htrack, hclose]
  exact (within_slotFed _ _).parts .boot (by simp) (by simp [Cell.part])

/-- AGENT_SLOT: the slot that begins has its grant (R304). -/
theorem agentSlot_grants (hd : isPresent s d = true) (h : s.clk.started = true) (hchange : s.boot.change = 0) :
    ∃ t, exec (.agentSlot d ⟨asks, free, fed⟩ ⟨cuts⟩) s = .next t ∧ (tokOf t d).grant =
      nextGrant t d (appliedBudget t d) (tokOf t d).share (phaseTag t d (itnOf t d).agent (tokOf t d).slot) (tokOf t d).last
        (tokOf t d).gated := by
  have heff : effAgentSlot d ⟨asks, free, fed⟩ cuts s = openSlot d (slotClosed d fed cuts asks free s) := by
    rw [effAgentSlot_eq hd h, settleChange_of_none (by rw [boot_slotOpened, hchange])]
  exact ⟨_, congrArg done heff, grant_openSlot d _⟩

end

/-- Settles O15: each command carried from its effect to what it reports; every share is between the issue floor and the ask
because the weighted part of a bid that does not fit is less than what it needs. -/
theorem tokensGranted : Obligations.TokensGranted :=
  ⟨fun _ _ _ _ _ _ hd h => agentSlot_reports hd h, fun _ _ _ _ _ _ hd h hchange => agentSlot_grants hd h hchange,
    fun _ _ hd hon hn => episodeEnd_ends hd hon hn, fun s ps h => packageArbitration_shares s ps h,
    fun _ hheat hfirst hlong => warmTimeout_faults hheat hfirst hlong, fun _ _ _ _ hw hheat => warmupEnd_ends hw hheat,
    fun _ _ _ _ hw hheat => warmupEnd_refused hw hheat⟩

end Sys2Proof.Machine

/-! With no command waiting a step may still ask for the counts of a previous epoch (R523). -/

namespace Sys2Proof.Machine

/-- No command waits, a µs ends with this period, and with it a hundred of them; partition 0 has a previous epoch. -/
def askingCounts : State :=
  put (R.SEC_PART_EPOCH.PREV_VALID 0) 1 { State.reset with us := 99, clk := { State.reset.clk with tickFrac := 24 } }

theorem out_tick_askingCounts : (tick askingCounts).out = [.keyBus (allLinks askingCounts 0) 0 .count] := by
  rfl

/-- Refutes O50: every 100 µs the key engines are asked for the pages and accesses under a previous epoch (R523), and a step on an
empty queue that ends such a µs sends that order. -/
theorem not_emptyQueueTicks : ¬ Obligations.EmptyQueueTicks := by
  intro h
  obtain ⟨t, hstep, -, -, -, -, -, hout, -⟩ := h askingCounts (put_pending ..)
  obtain rfl : tick askingCounts = t := Host.Outcome.next.inj hstep
  rw [out_tick_askingCounts] at hout
  exact List.cons_ne_nil _ _ (hout.trans (put_out ..))

end Sys2Proof.Machine

/-! Registers below those of the estimator, which the operations that the rails share leave as they are (R126, R130, R184, R638). -/

namespace Sys2Proof.Machine

/-- A register of the package, the clock unit, the stage controller or the loop engine, which no reset of a die clears. -/
structure Low (g : Field) : Prop where
  place : g.off * 32 + g.lo < 0x060000 * 32
  cls : keyClass (fieldKey g) ≠ retCode Ret.die

theorem low_of {g : Field} (hcls : g.cls ≠ Ret.die) (hpage : g.page < 16) (hunit : g.unit < 32) (hlo : g.lo < 64)
    (hplace : g.off * 32 + g.lo < 0x060000 * 32) : Low g := by
  refine ⟨hplace, ?_⟩
  rw [keyClass_fieldKey hpage hunit (by omega) hlo]
  intro h
  exact hcls (by cases hc : g.cls <;> simp_all [retCode])

/-- One of the registers of a family that no reset but a warm one of the package reaches. -/
theorem low_paged {c : Prop} [Decidable c] {off lo w rst : Nat} {acc : Acc} {min max : Int} {signed : Bool} {view : Option View}
    (hlo : lo < 64) (hplace : off * 32 + lo < 0x060000 * 32) : Low ⟨.keep, pageIf c 0, 16, off, lo, w, acc, rst, min, max, signed, view⟩ :=
  low_of nofun (pageIf_lt _ (by decide)) (show 16 < 32 by decide) hlo hplace

/-- A register at or above the estimator's is no low one. -/
theorem Low.ne {f g : Field} (h : Low g) (hf : 0x060000 * 32 ≤ f.off * 32 + f.lo ∧ f.off * 32 + f.lo < 2 ^ 27) : fieldKey f ≠ fieldKey g :=
  key_ne_of_lt hf.2 (by have := h.place; omega) (by have := h.place; omega)

section

variable {g : Field} {o : Option Nat} {s : State}

theorem free_refitRail (h : Low g) : (fp_refitRail o).Free g := by
  simp only [fp_refitRail, fp_refit, fp_sendBudget, fp_sendDown, fp_sendMsg, fp_sendFrame, fp_showReasons, fp_setReasons, Print.free_cons,
    Print.free_nil, Print.free_reg, Print.free_reg1, Print.free_prt, Print.free_row, and_true, true_and]
  repeat' apply And.intro
  all_goals
    intros
    refine h.ne ?_
    simp only [R.CAP_DIE_BUD.BUDGET, R.CAP_DIE_BUD.BIND, R.CAP_DIE_THR.ACTIVE, R.CAP_THR_ACT.ACTIVE, R.CAP_THR_START.TIME]
    omega

theorem free_faultOn (h : Low g) : fp_faultOn.Free g := by
  simp only [fp_faultOn, fp_notifyAll, fp_notify, Print.free_cons, Print.free_nil, Print.free_reg, Print.free_reg1, Print.free_prt, and_true]
  exact ⟨h.ne (by decide), fun _ _ => h.ne (by simp only [R.CMD_NOTIFY]; omega)⟩

theorem get_finish_low (h : Low g) : get (finish s) g = get s g :=
  get_finish (h.ne (by decide)) (h.ne (by decide))

end

/-! Steps made for each element of a list. -/

/-- A step for each element of a list without repetition: what the step for x makes of the state that the steps before it keep holds in
the end, where the steps after it keep it. -/
theorem each_hits {α : Type} {I P : State → Prop} {f : α → State → State} {l : List α} {x : α} (hx : x ∈ l) (hl : l.Nodup)
    (hbefore : ∀ y ∈ l, y ≠ x → ∀ u, I u → I (f y u)) (hself : ∀ u, I u → P (f x u)) (hafter : ∀ y ∈ l, y ≠ x → ∀ u, P u → P (f y u))
    {s : State} (hs : I s) : P (each l f s) := by
  have hkeep : ∀ l' : List α, (∀ y ∈ l', y ∈ l ∧ y ≠ x) → ∀ u, P u → P (each l' f u) := by
    intro l' hl'
    induction l' with
    | nil => exact fun _ hu => hu
    | cons y l' ih =>
      obtain ⟨⟨hy, hne⟩, hl'⟩ := List.forall_mem_cons.1 hl'
      exact fun u hu => ih hl' _ (hafter y hy hne u hu)
  induction l generalizing s with
  | nil => exact absurd hx List.not_mem_nil
  | cons y l ih =>
    obtain ⟨hy, hl⟩ := List.nodup_cons.1 hl
    by_cases hne : y = x
    · subst hne
      exact hkeep l (fun z hz => ⟨List.mem_cons_of_mem _ hz, fun e => hy (e ▸ hz)⟩) _ (hself s hs)
    · refine ih ((List.mem_cons.1 hx).resolve_left (Ne.symm hne)) hl (fun z hz => hbefore z (List.mem_cons_of_mem _ hz))
        (fun z hz => hafter z (List.mem_cons_of_mem _ hz)) (hbefore y List.mem_cons_self hne s hs) ?_
      exact fun l' hl' => hkeep l' fun z hz => ⟨List.mem_cons_of_mem _ (hl' z hz).1, (hl' z hz).2⟩

/-- What every step keeps, the steps for a list keep. -/
theorem each_induct {α : Type} {P : State → Prop} {f : α → State → State} {l : List α} (h : ∀ x ∈ l, ∀ u, P u → P (f x u)) {s : State}
    (hs : P s) : P (each l f s) := by
  induction l generalizing s with
  | nil => exact hs
  | cons x l ih => exact ih (fun y hy => h y (List.mem_cons_of_mem _ hy)) (h x List.mem_cons_self s hs)

/-! Counts and events of a register (R16). -/

theorem get_addSat_self {f : Field} (hf : f.cls ≠ Ret.fuse) (n : Nat) (s : State) :
    get (addSat f n s) f = min (2 ^ f.w - 1) (get s f + n) := by
  rw [addSat, get_put_self hf]
  have := Nat.two_pow_pos f.w
  exact Nat.mod_eq_of_lt (by omega)

theorem get_event_ne {f g : Field} (h : fieldKey f ≠ fieldKey g) (b : Nat) (s : State) : get (event f b s) g = get s g := get_put_ne h _ s

/-- A raised event stays raised as another is raised. -/
theorem bit_event_of_bit {f : Field} {i : Nat} (hf : f.cls ≠ Ret.fuse) (hi : i < f.w) (b : Nat) {s : State} (h : bit (get s f) i = true) :
    bit (get (event f b s) f) i = true := by
  rw [event, get_put_self hf, bit_mod_two_pow hi, bit_setBit, h, Bool.true_or]

/-! Integers and their codes (R11, R13). -/

/-- An integer within the range of a code is what its code stands for (R11, R13). -/
theorem toSigned_ofSigned {k : Nat} {x : Int} (hlo : -2 ^ k ≤ x) (hhi : x < 2 ^ k) : toSigned (k + 1) (ofSigned (k + 1) x) = x := by
  have hpow : ((2 ^ k : Nat) : Int) = 2 ^ k := by norm_cast
  simp only [toSigned, ofSigned, Nat.add_sub_cancel, Nat.pow_succ, Int.pow_succ, ← hpow] at *
  generalize 2 ^ k = m at *
  have hm : 0 ≤ x % (↑m * 2) := Int.emod_nonneg x (by omega)
  have hlt : x % (↑m * 2) < m * 2 := Int.emod_lt_of_pos x (by omega)
  have hnat : ((x % (↑m * 2)).toNat % (m * 2)) = (x % (↑m * 2)).toNat := Nat.mod_eq_of_lt (by omega)
  rw [hnat]
  by_cases hx : 0 ≤ x
  · have := Int.emod_eq_of_lt hx (show x < (m:Int) * 2 by omega)
    split_ifs <;> omega
  · have : x % (↑m * 2) = x + ↑m * 2 := by
      rw [← Int.add_emod_right, Int.emod_eq_of_lt (by omega) (by omega)]
    split_ifs <;> omega

theorem toSigned_range (k v : Nat) : -2 ^ k ≤ toSigned (k + 1) v ∧ toSigned (k + 1) v < 2 ^ k := by
  have hpow : ((2 ^ k : Nat) : Int) = 2 ^ k := by norm_cast
  have hlt := Nat.mod_lt v (Nat.two_pow_pos (k + 1))
  simp only [toSigned, Nat.add_sub_cancel, Nat.pow_succ, Int.pow_succ, ← hpow] at *
  split_ifs <;> omega

theorem satI_range (k : Nat) (x : Int) : -2 ^ k ≤ satI x (k + 1) ∧ satI x (k + 1) < 2 ^ k := by
  have hpow : (0 : Int) < 2 ^ k := by positivity
  simp only [satI, Nat.add_sub_cancel]
  omega

/-- An integer that a field of k + 1 bits holds reads as it was put. -/
theorem getI_putI_self {f : Field} {k : Nat} (hf : f.cls ≠ Ret.fuse) (hw : f.w = k + 1) {x : Int} (hlo : -2 ^ k ≤ x) (hhi : x < 2 ^ k)
    (s : State) : getI (putI f x s) f = x := by
  rw [getI, putI, get_put_self hf, hw, toSigned_mod, toSigned_ofSigned hlo hhi]

end Sys2Proof.Machine

/-! Telemetry of the stages: frames that are missed and frames that are taken (R102 to R105). -/

namespace Sys2Proof.Machine

theorem lanes_finish (s : State) : (finish s).lanes = s.lanes := (Within.finish s).parts .lanes (by decide) (by decide)
theorem phases_finish (s : State) : (finish s).phases = s.phases := (Within.finish s).parts .phases (by decide) (by decide)

@[simp] theorem bad_aged (l : LaneH) : l.aged.bad = l.bad := by
  unfold LaneH.aged
  split <;> rfl

@[simp] theorem get_spoilRail (r : Nat) (s : State) (g : Field) : get (spoilRail r s) g = get s g := by
  unfold spoilRail
  split_ifs <;> rfl

@[simp] theorem lanes_spoilRail (r : Nat) (s : State) : (spoilRail r s).lanes = s.lanes := by
  unfold spoilRail
  split_ifs <;> rfl

theorem laneFitted_lt {s : State} {g l : Nat} (h : laneFitted s g l = true) : g < 25 ∧ l < 2 := by
  simp only [laneFitted, Bool.and_eq_true, decide_eq_true_eq] at h
  exact h.1

section

variable {s : State} {g l : Nat}

theorem low_laneOk : Low (laneOk g l) := by
  unfold laneOk
  split
  · exact low_paged (by decide) (by omega)
  · exact low_paged (by decide) (by omega)

theorem low_laneErr : Low (laneErr g l) := by
  unfold laneErr
  split
  · exact low_paged (by decide) (by omega)
  · exact low_paged (by decide) (by omega)

/-- The flag and the error count of a lane, and the events, lie apart. -/
theorem laneOk_ne_laneErr : fieldKey (laneOk g l) ≠ fieldKey (laneErr g l) := by
  unfold laneOk laneErr
  split
  · exact key_ne (by simp only [R.PST_STG_STAT.LANE0_OK, R.PST_STG_ERR.L0]; omega)
  · exact key_ne (by simp only [R.PST_STG_STAT.LANE1_OK, R.PST_STG_ERR.L1]; omega)
theorem event_ne_laneOk : fieldKey R.PST_EVENT ≠ fieldKey (laneOk g l) := by
  unfold laneOk
  split
  · exact key_ne (by simp only [R.PST_EVENT, R.PST_STG_STAT.LANE0_OK]; omega)
  · exact key_ne (by simp only [R.PST_EVENT, R.PST_STG_STAT.LANE1_OK]; omega)
theorem event_ne_laneErr : fieldKey R.PST_EVENT ≠ fieldKey (laneErr g l) := by
  unfold laneErr
  split
  · exact key_ne (by simp only [R.PST_EVENT, R.PST_STG_ERR.L0]; omega)
  · exact key_ne (by simp only [R.PST_EVENT, R.PST_STG_ERR.L1]; omega)

theorem get_put_laneOk (b : Bool) (s : State) : get (putB (laneOk g l) b s) (laneOk g l) = b2n b := by
  unfold laneOk
  split
  all_goals
    rw [putB, get_put_self (by nofun)]
    cases b <;> rfl

theorem get_addSat_laneErr (s : State) : get (addSat (laneErr g l) 1 s) (laneErr g l) = min 65535 (get s (laneErr g l) + 1) := by
  unfold laneErr
  split
  all_goals exact get_addSat_self (by nofun) 1 s

/-- The lane of a frame time without a good frame (R105). -/
def missedLane (l : LaneH) : LaneH := { l.aged with good := 0, bad := min 16 (l.bad + 1), pos := 33 }

/-- What a frame time without a good frame shows. -/
def missShown (g l : Nat) (s : State) : State :=
  s |> setLane (2 * g + l) (missedLane (laneOf s (2 * g + l))) |> addSat (laneErr g l) 1 |> event R.PST_EVENT 4
    |> when (decide (3 ≤ min 16 ((laneOf s (2 * g + l)).bad + 1))) (put (laneOk g l) 0)

theorem badFrame_eq : badFrame g l s = each (List.range 4) (fun c s => if phaseFitted s (8 * g + 4 * l + c) then
    spoilRail (railOfPhase (8 * g + 4 * l + c)) s else s) (missShown g l s) := by
  simp only [badFrame, missShown, missedLane, bad_aged]

theorem get_badFrame (f : Field) : get (badFrame g l s) f = get (missShown g l s) f := by
  rw [badFrame_eq]
  exact each_keeps (φ := fun u => get u f) (fun c u => by split <;> simp) _ _

theorem laneOf_badFrame : laneOf (badFrame g l s) (2 * g + l) = missedLane (laneOf s (2 * g + l)) := by
  have hshown : (missShown g l s).lanes = (setLane (2 * g + l) (missedLane (laneOf s (2 * g + l))) s).lanes := by
    unfold missShown when
    split <;> simp [event, addSat]
  rw [badFrame_eq, laneOf_of (each_keeps (φ := State.lanes) (fun c u => by split <;> simp) _ _), laneOf_of hshown, laneOf_setLane]

/-- A frame time without a good frame (R105). -/
theorem frameMissed_badFrame : FrameMissed s (finish (badFrame g l s)) g l := by
  have hlane : laneOf (finish (badFrame g l s)) (2 * g + l) = missedLane (laneOf s (2 * g + l)) :=
    (laneOf_of (lanes_finish _) _).trans laneOf_badFrame
  refine ⟨by rw [hlane]; rfl, by rw [hlane]; rfl, ?errors, ?lock, ?raised⟩
  case errors =>
    rw [get_finish_low low_laneErr, get_badFrame, missShown, get_when (get_put_ne laneOk_ne_laneErr _ _), get_event_ne event_ne_laneErr,
      get_addSat_laneErr, get_setLane]
  case lock =>
    have hbefore : get (event R.PST_EVENT 4 (addSat (laneErr g l) 1 (setLane (2 * g + l) (missedLane (laneOf s (2 * g + l))) s))) (laneOk g l)
        = get s (laneOk g l) := by
      rw [get_event_ne event_ne_laneOk, addSat, get_put_ne laneOk_ne_laneErr.symm, get_setLane]
    rw [get_finish_low low_laneOk, get_badFrame, missShown]
    by_cases hbad : 2 ≤ (laneOf s (2 * g + l)).bad
    · rw [if_pos hbad, decide_eq_true (by omega), when_true]
      exact get_put_laneOk false _
    · rw [if_neg hbad, decide_eq_false (by omega), when_false, hbefore]
  case raised =>
    rw [get_finish (by decide) (by decide), get_badFrame, missShown, get_when (get_put_ne event_ne_laneOk.symm _ _)]
    exact bit_event_self (by decide) (by decide) _

end

/-! A frame that is taken (R102, R103), and one that counts towards frame lock (R104). -/

section

variable {s : State} {g l w : Nat}

/-- A sample taken (R103). -/
def takeSample (g l w c : Nat) (s : State) : State :=
  s |> putI (R.PST_PH_I.I (8 * g + 4 * l + c)) (toSigned 15 (bits w (47 - 15 * c) 15))
    |> setPhase (8 * g + 4 * l + c) { phaseOf s (8 * g + 4 * l + c) with faulted := decide (bits w (47 - 15 * c) 15 = 0x4000) }

/-- The sample of phase c of a lane is that of a frame (R103). -/
def SampleIs (g l w c : Nat) (s : State) : Prop :=
  getI s (R.PST_PH_I.I (8 * g + 4 * l + c)) = toSigned 15 (bits w (47 - 15 * c) 15) ∧
    (phaseOf s (8 * g + 4 * l + c)).faulted = decide (bits w (47 - 15 * c) 15 = 0x4000)

theorem takeFrame_eq : ∃ v : LaneH, v.good = 4 ∧ v.bad = 0 ∧
    takeFrame g l w s = each (List.range 4) (takeSample g l w) (setLane (2 * g + l) v s) := by
  unfold takeFrame
  split
  · exact ⟨_, rfl, rfl, rfl⟩
  · dsimp only
    split
    · exact ⟨_, rfl, rfl, rfl⟩
    · exact ⟨_, rfl, rfl, rfl⟩

/-- A sample shown reads as it was taken. -/
theorem getI_takeSample (c : Nat) : getI (takeSample g l w c s) (R.PST_PH_I.I (8 * g + 4 * l + c)) = toSigned 15 (bits w (47 - 15 * c) 15) := by
  have hrange : -2 ^ 14 ≤ toSigned 15 (bits w (47 - 15 * c) 15) ∧ toSigned 15 (bits w (47 - 15 * c) 15) < 2 ^ 14 := toSigned_range 14 _
  exact getI_putI_self (k := 31) (by nofun) rfl (by omega) (by omega) s

end

section

variable {s : State} {g l w : Nat}

/-- A good frame of a lane out of frame lock (R104). -/
def lockFrame (g l : Nat) (s : State) : State :=
  s |> setLane (2 * g + l) { (laneOf s (2 * g + l)).aged with good := min 4 ((laneOf s (2 * g + l)).good + 1), bad := 0, pos := 33 }
    |> when (decide (min 4 ((laneOf s (2 * g + l)).good + 1) = 4)) (put (laneOk g l) 1)

theorem effTlmFrame_of_bad (hfit : laneFitted s g l = true) (hclk : s.clk.started = true) (hbad : bit w 63 = false ∨ popcount 64 w % 2 ≠ 0) :
    effTlmFrame g l w s = badFrame g l s := by
  have h : (!bit w 63) = true ∨ popcount 64 w % 2 ≠ 0 := hbad.imp_left (by simp)
  unfold effTlmFrame
  rw [if_neg (by simp [hfit, hclk]), if_pos h]

theorem effTlmFrame_of_locked (hfit : laneFitted s g l = true) (hclk : s.clk.started = true) (hmark : bit w 63 = true)
    (hpar : popcount 64 w % 2 = 0) (hok : isOn s (laneOk g l) = true) : effTlmFrame g l w s = takeFrame g l w s := by
  simp [effTlmFrame, hfit, hclk, hmark, hpar, hok]

theorem effTlmFrame_of_unlocked (hfit : laneFitted s g l = true) (hclk : s.clk.started = true) (hmark : bit w 63 = true)
    (hpar : popcount 64 w % 2 = 0) (hok : get s (laneOk g l) = 0) : effTlmFrame g l w s = lockFrame g l s := by
  simp [effTlmFrame, lockFrame, hfit, hclk, hmark, hpar, hok, isOn]

/-- TLM_FRAME with a good frame in frame lock. -/
theorem tlmFrame_samples (hfit : laneFitted s g l = true) (hclk : s.clk.started = true) (hmark : bit w 63 = true)
    (hpar : popcount 64 w % 2 = 0) (hok : isOn s (laneOk g l) = true) :
    ∃ t, exec (.tlmFrame g l w) s = .next t ∧ (laneOf t (2 * g + l)).bad = 0 ∧ (laneOf t (2 * g + l)).good = 4 ∧
      ∀ c < 4, getI t (R.PST_PH_I.I (8 * g + 4 * l + c)) = toSigned 15 (bits w (47 - 15 * c) 15) ∧
        (phaseOf t (8 * g + 4 * l + c)).faulted = decide (bits w (47 - 15 * c) 15 = 0x4000) := by
  obtain ⟨hg, hl⟩ := laneFitted_lt hfit
  obtain ⟨v, hgood, hbad, htake⟩ := takeFrame_eq (s := s) (g := g) (l := l) (w := w)
  have hlane : laneOf (finish (effTlmFrame g l w s)) (2 * g + l) = v := by
    rw [effTlmFrame_of_locked hfit hclk hmark hpar hok, htake, laneOf_of (lanes_finish _),
      laneOf_of (each_keeps (φ := State.lanes) (fun c u => by simp [takeSample, putI]) _ _), laneOf_setLane]
  refine ⟨_, rfl, hlane ▸ hbad, hlane ▸ hgood, fun c hc => ?_⟩
  have hlow : Low (R.PST_PH_I.I (8 * g + 4 * l + c)) := low_paged (by decide) (by omega)
  rw [getI, get_finish_low hlow, ← getI, phaseOf_of (phases_finish _),
    effTlmFrame_of_locked hfit hclk hmark hpar hok, htake]
  refine each_hits (I := fun _ => True) (P := SampleIs g l w c) (List.mem_range.2 hc) List.nodup_range (fun _ _ _ _ _ => trivial) (fun u _ => ?_)
    (fun y hy hne u hu => ?_) trivial
  · exact ⟨getI_takeSample c, by rw [takeSample, phaseOf_setPhase]⟩
  · have hapart : fieldKey (R.PST_PH_I.I (8 * g + 4 * l + y)) ≠ fieldKey (R.PST_PH_I.I (8 * g + 4 * l + c)) :=
      key_ne (by have := List.mem_range.1 hy; simp only [R.PST_PH_I.I]; omega)
    have hphase : phaseOf (takeSample g l w y u) (8 * g + 4 * l + c) = phaseOf u (8 * g + 4 * l + c) :=
      (sget_sset_ne _ _ _ (by omega) _).trans (phaseOf_of (put_phases ..) _)
    rw [SampleIs, getI, takeSample, get_setPhase, putI, get_put_ne hapart, ← getI]
    exact ⟨hu.1, hphase ▸ hu.2⟩

/-- TLM_FRAME with a good frame out of frame lock. -/
theorem tlmFrame_locks (hfit : laneFitted s g l = true) (hclk : s.clk.started = true) (hmark : bit w 63 = true)
    (hpar : popcount 64 w % 2 = 0) (hok : get s (laneOk g l) = 0) :
    ∃ t, exec (.tlmFrame g l w) s = .next t ∧ (laneOf t (2 * g + l)).bad = 0 ∧
      (laneOf t (2 * g + l)).good = min 4 ((laneOf s (2 * g + l)).good + 1) ∧
      get t (laneOk g l) = if 3 ≤ (laneOf s (2 * g + l)).good then 1 else 0 := by
  have hlane : laneOf (finish (effTlmFrame g l w s)) (2 * g + l) =
      { (laneOf s (2 * g + l)).aged with good := min 4 ((laneOf s (2 * g + l)).good + 1), bad := 0, pos := 33 } := by
    rw [effTlmFrame_of_unlocked hfit hclk hmark hpar hok, laneOf_of (lanes_finish _), lockFrame]
    unfold when
    split
    · rw [laneOf_of (put_lanes ..), laneOf_setLane]
    · rw [laneOf_setLane]
  refine ⟨_, rfl, by rw [hlane], by rw [hlane], ?_⟩
  rw [get_finish_low low_laneOk, effTlmFrame_of_unlocked hfit hclk hmark hpar hok, lockFrame]
  by_cases hgood : 3 ≤ (laneOf s (2 * g + l)).good
  · rw [if_pos hgood, decide_eq_true (by omega), when_true]
    exact get_put_laneOk true _
  · rw [if_neg hgood, decide_eq_false (by omega), when_false, get_setLane, hok]

end

end Sys2Proof.Machine

/-! What rails that are switched, lost or enabled leave of the low registers (R126, R128, R130, R131, R186, R638). -/

namespace Sys2Proof.Machine

/-- A low register that no rail writes as it is switched off, lost or enabled. -/
structure Steady (g : Field) : Prop extends Low g where
  state : ∀ n, fieldKey (R.PST_PH_STAT.STATE n) ≠ fieldKey g
  trim : ∀ n, fieldKey (R.PST_PH_DUTY.TRIM n) ≠ fieldKey g
  loop : ∀ r, fieldKey (R.LPE_STAT.STATE r) ≠ fieldKey g
  cause : ∀ r, fieldKey (R.LPE_STAT.CAUSE r) ≠ fieldKey g
  braking : ∀ r, fieldKey (R.PST_RAIL_STAT.BRAKING r) ≠ fieldKey g
  lost : ∀ r, fieldKey (R.PST_RAIL_STAT.LOST r) ≠ fieldKey g
  target : ∀ r, fieldKey (R.LPE_REF.TARGET r) ≠ fieldKey g
  safe : ∀ r, fieldKey (R.LPE_DUTY.SAFE r) ≠ fieldKey g
  int : ∀ r, fieldKey (R.LPE_INT.I r) ≠ fieldKey g

/-- Outside the windows of the rails, the phases and the loops every low register is steady. -/
theorem steady_of_place {g : Field} (h : Low g) (hp : g.off * 32 + g.lo < 0x020400 * 32 ∨
    0x022000 * 32 ≤ g.off * 32 + g.lo ∧ g.off * 32 + g.lo < 0x041000 * 32) : Steady g := by
  refine ⟨h, fun n => key_ne ?_, fun n => key_ne ?_, fun r => key_ne ?_, fun r => key_ne ?_, fun r => key_ne ?_, fun r => key_ne ?_,
    fun r => key_ne ?_, fun r => key_ne ?_, fun r => key_ne ?_⟩ <;>
    simp only [R.PST_PH_STAT.STATE, R.PST_PH_DUTY.TRIM, R.LPE_STAT.STATE, R.LPE_STAT.CAUSE, R.PST_RAIL_STAT.BRAKING, R.PST_RAIL_STAT.LOST,
      R.LPE_REF.TARGET, R.LPE_DUTY.SAFE, R.LPE_INT.I] <;> omega

section

variable {g : Field} {o : Option Nat} {s : State}

theorem free_completeAt (h : Low g) : fp_completeAt.Free g := by
  simp only [fp_completeAt, fp_complete, fp_dropFlight, fp_writeCompletion, fp_notify, Print.free_cons, Print.free_nil, Print.free_reg1,
    Print.free_prt, and_true, true_and]
  exact ⟨fun _ _ => h.ne (by simp only [R.CMD_CQ_TAIL.TAIL]; omega), fun _ _ => h.ne (by simp only [R.CMD_NOTIFY]; omega)⟩

theorem free_showReasons (h : Low g) : (fp_showReasons o).Free g := by
  simp only [fp_showReasons, fp_setReasons, Print.free_cons, Print.free_nil, Print.free_reg, Print.free_reg1, Print.free_prt, and_true]
  exact ⟨fun _ _ => h.ne (by simp only [R.CAP_DIE_THR.ACTIVE]; omega), h.ne (by decide),
    fun _ _ => h.ne (by simp only [R.CAP_THR_START.TIME]; omega)⟩

theorem free_endCut (h : Low g) : (fp_endCut o).Free g := by
  simp only [fp_endCut, fp_sendUp, fp_sendMsg, fp_sendFrame, fp_endForced, Print.free_cons, Print.free_nil, Print.free_reg1,
    Print.free_prt, Print.free_row, and_true, true_and, free_completeAt h, free_showReasons h]
  exact ⟨fun _ _ => h.ne (by simp only [R.ITN_DRP_STAT.FIRED]; omega), fun _ _ => h.ne (by simp only [R.ITN_DIE_STAT.CUT]; omega),
    fun _ _ => h.ne (by simp only [R.ITN_DIE_STAT.STRETCH]; omega)⟩

/-- The reset of a die reaches no low register but the target of its core. -/
theorem free_dieCleared (h : Low g) (ht : ∀ r, fieldKey (R.LPE_REF.TARGET r) ≠ fieldKey g) : (fp_dieCleared o).Free g := by
  have hfault : fieldKey R.SAF_FAULT ≠ fieldKey g := h.ne (by decide)
  simp only [fp_dieCleared, fp_leaveLost, fp_faultOff, fp_dropForced, fp_endForced, fp_resetReached, fp_keepResult, fp_setTherm,
    fp_retargetCore, fp_ringStale, fp_setRing, fp_recovDieReset, fp_setRecov, fp_sendOrder, fp_sendFrame, fp_stuckOff, fp_restLinkPair,
    fp_setLinkPair, Print.free_cons, Print.free_nil, Print.free_reg, Print.free_reg1, Print.free_cls, Print.free_prt, Print.free_row,
    and_true, true_and, free_endCut h, free_completeAt h]
  exact ⟨h.cls, fun _ _ => h.ne (by simp only [R.THM_DIE_STAT.STALE]; omega),
    ⟨fun _ _ => h.ne (by simp only [R.THM_DIE_STAT.LOST]; omega), hfault⟩, fun _ _ => ht _,
    ⟨fun _ _ => h.ne (by simp only [R.CTX_STATE.STATE]; omega), hfault⟩, h.ne (by decide), h.ne (by decide)⟩

theorem free_railOff (h : Steady g) : (fp_railOff o).Free g := by
  have hlow := h.toLow
  simp only [fp_railOff, fp_setPh, fp_stopTest, fp_unpower, Print.free_cons, Print.free_nil, Print.free_reg1, Print.free_prt,
    Print.free_row, and_true, true_and, free_endCut hlow, free_refitRail hlow]
  exact ⟨fun _ _ => h.trim _, fun _ _ => h.loop _, fun _ _ => h.cause _, fun _ _ => h.braking _,
    fun _ _ => hlow.ne (by simp only [R.ITN_DIE_STAT.PE]; omega), fun _ _ => h.state _⟩

theorem free_holdDie (h : Steady g) : fp_holdDie.Free g := by
  simp only [fp_holdDie, Print.free_cons, Print.free_nil, Print.free_prt, and_true, free_dieCleared h.toLow h.target, free_railOff h]

theorem free_recordRail : fp_recordRail.Free g := by
  simp only [fp_recordRail, fp_recordDie, fp_record, fp_recordAt, Print.free_cons, Print.free_nil, Print.free_prt, and_true]

theorem free_lostCheck (h : Steady g) (he : fieldKey R.PST_EVENT ≠ fieldKey g) : (fp_lostCheck o).Free g := by
  simp only [fp_lostCheck, Print.free_cons, Print.free_nil, Print.free_reg, Print.free_reg1, Print.free_prt, and_true,
    free_faultOn h.toLow, free_refitRail h.toLow, free_holdDie h, free_recordRail]
  exact ⟨fun _ _ => h.lost _, he⟩

theorem free_withhold (h : Steady g) (he : fieldKey R.PST_EVENT ≠ fieldKey g) : (fp_withhold o).Free g := by
  simp only [fp_withhold, Print.free_cons, Print.free_nil, Print.free_row, and_true, free_refitRail h.toLow, free_lostCheck h he]

theorem free_countHealth (h : Low g) : (fp_countHealth o).Free g := by
  simp only [fp_countHealth, Print.free_cons, Print.free_nil, Print.free_reg1, and_true]
  exact fun _ _ => h.ne (by simp only [R.HLT_EVT.COUNT]; omega)

theorem free_failPhase (h : Steady g) (hcause : ∀ n, fieldKey (R.PST_PH_STAT.CAUSE n) ≠ fieldKey g)
    (he : fieldKey R.PST_EVENT ≠ fieldKey g) : (fp_failPhase o).Free g := by
  simp only [fp_failPhase, fp_setPh, Print.free_cons, Print.free_nil, Print.free_reg, Print.free_reg1, Print.free_row, and_true, true_and,
    free_countHealth h.toLow, free_recordRail, free_withhold h he]
  exact ⟨fun _ _ => hcause _, he, fun _ _ => h.state _⟩

theorem free_railEnable (h : Steady g) (he : fieldKey R.PST_EVENT ≠ fieldKey g) : (fp_railEnable o).Free g := by
  simp only [fp_railEnable, fp_enterSoft, fp_setPh, Print.free_cons, Print.free_nil, Print.free_reg1, Print.free_row, and_true, true_and,
    free_refitRail h.toLow, free_lostCheck h he]
  exact ⟨fun _ _ => h.loop _, fun _ _ => h.cause _, fun _ _ => h.safe _, fun _ _ => h.int _, fun _ _ => h.trim _, fun _ _ => h.state _⟩

end

end Sys2Proof.Machine

/-! Superframes of the stages, and the statement on telemetry (R107, R108). -/

namespace Sys2Proof.Machine

/-- A register of the stages. -/
structure StageField (g : Field) : Prop extends Low g where
  within : 0x022000 * 32 ≤ g.off * 32 + g.lo ∧ g.off * 32 + g.lo < 0x022400 * 32

/-- One register of the stages. -/
theorem stageField {c : Prop} [Decidable c] {off lo w rst : Nat} {acc : Acc} {min max : Int} {signed : Bool} {view : Option View}
    (hlo : lo < 32) (hoff : 0x022000 ≤ off ∧ off < 0x022400) :
    StageField ⟨.keep, pageIf c 0, 16, off, lo, w, acc, rst, min, max, signed, view⟩ :=
  ⟨low_paged (by omega) (by omega), by dsimp only; omega⟩

section

variable {s : State} {g : Nat} {f : Field}

/-- A failing phase reaches no register of a stage. -/
theorem get_failPhase_of_stage (h : StageField f) (n cause : Nat) (s : State) : get (failPhase n cause s) f = get s f := by
  have hplace := h.within
  refine (foot_failPhase Names.any (Print.Sub.refl _) (Within.refl _ s)).get
    (free_failPhase (steady_of_place h.toLow (.inr (by omega))) (fun n => key_ne ?_) (key_ne ?_))
  · simp only [R.PST_PH_STAT.CAUSE]; omega
  · simp only [R.PST_EVENT]; omega

/-- A stage's halves, taken from its lanes. -/
def halvesTaken (g : Nat) (s : State) : State :=
  s |> setLane (2 * g) { laneOf s (2 * g) with half := none } |> setLane (2 * g + 1) { laneOf s (2 * g + 1) with half := none }

/-- A stage's status as a superframe has it (R108). -/
def statusShown (g sf : Nat) (s : State) : State :=
  s |> put (R.PST_STG_STAT.TEMP g) (bits sf 0 16) |> put (R.PST_STG_STAT.DRV_FLT g) (bits sf 16 8)
    |> put (R.PST_STG_STAT.OT_WARN g) (bits sf 24 1) |> put (R.PST_STG_STAT.VIN_UV g) (bits sf 25 1)
    |> put (R.PST_STG_STAT2.CAP g) (bits sf 32 8)

/-- Two halves start and end together and form a superframe that is whole (R107, R108). -/
def Matches (s : State) (g : Nat) (b : Bool) : Prop :=
  b = true ∧ (laneOf s (2 * g)).age = (laneOf s (2 * g + 1)).age ∧ superCrc (superOf s g) = bits (superOf s g) 48 16 ∧
    bits (superOf s g) 26 6 = 0 ∧ bits (superOf s g) 40 8 = 0

theorem effSuperframe_of_halves (h : Halves s g) (b : Bool) :
    (Matches s g b → effSuperframe g b s = takeSuper g (superOf s g) (halvesTaken g s)) ∧
      (¬ Matches s g b → effSuperframe g b s = addSat (R.PST_STG_STAT2.CRC_ERR g) 1 (halvesTaken g s)) := by
  obtain ⟨x, hx⟩ := Option.isSome_iff_exists.1 h.first
  obtain ⟨y, hy⟩ := Option.isSome_iff_exists.1 h.second
  have hsf : superOf s g = x + y * 2 ^ 32 := by simp only [superOf, hx, hy, Option.getD_some]
  unfold Matches effSuperframe
  rw [hsf]
  simp only [hx, hy]
  refine ⟨fun hm => ?_, fun hm => ?_⟩
  · rw [if_pos hm]
    rfl
  · rw [if_neg hm]
    rfl

/-- A good superframe shows a stage's status, and no more of the stage's registers changes. -/
theorem get_takeSuper (h : StageField f) (sf : Nat) : get (takeSuper g sf s) f = get (statusShown g sf s) f := by
  unfold takeSuper
  rw [each_keeps (φ := fun u => get u f) fun c u => get_failPhase_of_stage h _ _ u]
  exact get_when (get_record ..)

theorem bits_lt (v lo w : Nat) : bits v lo w < 2 ^ w := Nat.mod_lt _ (Nat.two_pow_pos w)

/-- SUPERFRAME of two halves of one superframe. -/
theorem superframe_shows (h : Halves s g) (hage : (laneOf s (2 * g)).age = (laneOf s (2 * g + 1)).age)
    (hcrc : superCrc (superOf s g) = bits (superOf s g) 48 16) (hlow : bits (superOf s g) 26 6 = 0) (hhigh : bits (superOf s g) 40 8 = 0) :
    ∃ t, exec (.superframe g true) s = .next t ∧ get t (R.PST_STG_STAT.TEMP g) = bits (superOf s g) 0 16 ∧
      get t (R.PST_STG_STAT.DRV_FLT g) = bits (superOf s g) 16 8 ∧ get t (R.PST_STG_STAT.OT_WARN g) = bits (superOf s g) 24 1 ∧
      get t (R.PST_STG_STAT.VIN_UV g) = bits (superOf s g) 25 1 ∧ get t (R.PST_STG_STAT2.CAP g) = bits (superOf s g) 32 8 := by
  have hmatch : Matches s g true := ⟨rfl, hage, hcrc, hlow, hhigh⟩
  have hget : ∀ f (v : Nat × Nat), StageField f → f.w = v.1 → get (statusShown g (superOf s g) (halvesTaken g s)) f = bits (superOf s g) v.2 v.1 % 2 ^ f.w →
      get (finish (effSuperframe g true s)) f = bits (superOf s g) v.2 v.1 := fun f v hf hw h' => by
    rw [get_finish_low hf.toLow, (effSuperframe_of_halves h true).1 hmatch, get_takeSuper hf, h', hw]
    exact Nat.mod_eq_of_lt (bits_lt ..)
  refine ⟨_, congrArg done (if_pos h.fitted), hget _ (16, 0) (stageField (by decide) (by omega)) rfl ?_,
    hget _ (8, 16) (stageField (by decide) (by omega)) rfl ?_, hget _ (1, 24) (stageField (by decide) (by omega)) rfl ?_,
    hget _ (1, 25) (stageField (by decide) (by omega)) rfl ?_, hget _ (8, 32) (stageField (by decide) (by omega)) rfl ?_⟩
  all_goals
    simp (disch := (refine key_ne ?_; simp only [R.PST_STG_STAT.TEMP, R.PST_STG_STAT.DRV_FLT, R.PST_STG_STAT.OT_WARN,
      R.PST_STG_STAT.VIN_UV, R.PST_STG_STAT2.CAP]; omega)) only [statusShown, get_put_ne]
    exact get_put_self (by nofun) _ _

/-- SUPERFRAME of halves that do not match. -/
theorem superframe_counts {b : Bool} (h : Halves s g) (hbad : b = false ∨ (laneOf s (2 * g)).age ≠ (laneOf s (2 * g + 1)).age ∨
    superCrc (superOf s g) ≠ bits (superOf s g) 48 16) :
    ∃ t, exec (.superframe g b) s = .next t ∧ get t (R.PST_STG_STAT2.CRC_ERR g) = min 65535 (get s (R.PST_STG_STAT2.CRC_ERR g) + 1) := by
  have hlow : Low (R.PST_STG_STAT2.CRC_ERR g) := low_paged (by decide) (by omega)
  have hno : ¬ Matches s g b := fun hm =>
    hbad.elim (fun hb => absurd (hm.1.symm.trans hb) (by decide)) fun hbad => hbad.elim (fun hage => hage hm.2.1) fun hcrc => hcrc hm.2.2.1
  refine ⟨_, congrArg done (if_pos h.fitted), ?_⟩
  rw [get_finish_low hlow, (effSuperframe_of_halves h b).2 hno, get_addSat_self (by nofun)]
  rfl

end

/-- Settles O4, a lemma for each clause. -/
theorem telemetryIsTaken : Obligations.TelemetryIsTaken :=
  ⟨fun _ _ _ _ hfit hclk hmark hpar hok => tlmFrame_samples hfit hclk hmark hpar hok,
    fun _ _ _ _ hfit hclk hmark hpar hok => tlmFrame_locks hfit hclk hmark hpar hok,
    fun _ _ _ _ hfit hclk hbad => ⟨_, rfl, (effTlmFrame_of_bad hfit hclk hbad).symm ▸ frameMissed_badFrame⟩,
    fun _ _ _ hfit hclk => ⟨_, congrArg done (if_pos ⟨hfit, hclk⟩), frameMissed_badFrame⟩,
    fun _ _ h hage hcrc hlow hhigh => superframe_shows h hage hcrc hlow hhigh,
    fun _ _ _ h hbad => superframe_counts h hbad⟩

end Sys2Proof.Machine

/-! Phases that fail and phases that leave the available states: what becomes of them, and what of the others (R106, R122, R125, R145). -/

namespace Sys2Proof.Machine

/-- The phases of a rail are those that name it (R30). -/
theorem mem_phasesOf {n r : Nat} : n ∈ phasesOf r ↔ n < 200 ∧ railOfPhase n = r := by
  have hshift : ∀ base k : Nat, n ∈ (List.range k).map (base + ·) ↔ base ≤ n ∧ n < base + k := fun base k => by
    simp only [List.mem_map, List.mem_range]
    exact ⟨fun ⟨i, hi, e⟩ => by omega, fun h => ⟨n - base, by omega, by omega⟩⟩
  unfold phasesOf railOfPhase
  split_ifs <;> simp only [hshift, List.not_mem_nil, false_iff] <;> omega

/-- The other rail of a rail's die (R638). -/
def otherRail (r : Nat) : Nat := if r < 16 then r + 16 else r - 16

theorem phaseFitted_of_phState {s : State} {n c : Nat} (h : phState s n = c) (hc : c ≠ 0) : phaseFitted s n = true := by
  unfold phState at h
  by_contra hfit
  rw [if_neg hfit] at h
  exact hc h.symm

theorem phaseFitted_lt {s : State} {n : Nat} (h : phaseFitted s n = true) : n < 200 := by
  simp only [phaseFitted, Bool.and_eq_true, decide_eq_true_eq] at h
  exact h.1

/-- The states of the phases of a package of another state with the same dies. -/
theorem phaseFitted_of {s t : State} (h : get t R.GOV_CFG.N_DIES = get s R.GOV_CFG.N_DIES) (n : Nat) : phaseFitted t n = phaseFitted s n := by
  unfold phaseFitted railFitted isPresent nDies
  rw [h]

theorem phState_of {s t : State} {n : Nat} (hdies : get t R.GOV_CFG.N_DIES = get s R.GOV_CFG.N_DIES)
    (hstate : get t (R.PST_PH_STAT.STATE n) = get s (R.PST_PH_STAT.STATE n)) : phState t n = phState s n := by
  simp only [phState, phaseFitted_of hdies, hstate]

/-- A phase's state shown. -/
theorem phState_setPh {s : State} {n c : Nat} (hfit : phaseFitted s n = true) (hc : c < 8) : phState (setPh n c s) n = c := by
  have hdies : get (setPh n c s) R.GOV_CFG.N_DIES = get s R.GOV_CFG.N_DIES :=
    get_put_ne (key_ne (by simp only [R.PST_PH_STAT.STATE, R.GOV_CFG.N_DIES]; omega)) _ _
  rw [phState, phaseFitted_of hdies, hfit, if_pos rfl, setPh, get_put_self (by nofun)]
  exact Nat.mod_eq_of_lt hc

/-- The registers that show a phase. -/
def phaseFields (n : Nat) : List Field :=
  [R.GOV_CFG.N_DIES, R.PST_PH_STAT.STATE n, R.PST_PH_STAT.CAUSE n, R.PST_PH_CNT.HICCUPS n, R.PST_EVENT]

theorem low_of_mem_phaseFields {n : Nat} {g : Field} (h : g ∈ phaseFields n) : Low g := by
  simp only [phaseFields, List.mem_cons, List.not_mem_nil, or_false] at h
  rcases h with rfl | rfl | rfl | rfl | rfl
  · exact low_of nofun (by decide) (by decide) (by decide) (by decide)
  · exact low_paged (by decide) (by omega)
  · exact low_paged (by decide) (by omega)
  · exact low_paged (by decide) (by omega)
  · exact low_of nofun (by decide) (by decide) (by decide) (by decide)

/-- From s to t phase n is as before, and no event of the stage controller is cleared. -/
structure PhaseStays (n : Nat) (s t : State) : Prop where
  fitted : phaseFitted t n = phaseFitted s n
  state : phState t n = phState s n
  cause : get t (R.PST_PH_STAT.CAUSE n) = get s (R.PST_PH_STAT.CAUSE n)
  hiccups : get t (R.PST_PH_CNT.HICCUPS n) = get s (R.PST_PH_CNT.HICCUPS n)
  events : ∀ b < 9, bit (get s R.PST_EVENT) b = true → bit (get t R.PST_EVENT) b = true

namespace PhaseStays

variable {n : Nat} {s t u : State}

theorem refl (n : Nat) (s : State) : PhaseStays n s s := ⟨rfl, rfl, rfl, rfl, fun _ _ h => h⟩

theorem trans (h : PhaseStays n s t) (k : PhaseStays n t u) : PhaseStays n s u :=
  ⟨k.fitted.trans h.fitted, k.state.trans h.state, k.cause.trans h.cause, k.hiccups.trans h.hiccups,
    fun b hb hs => k.events b hb (h.events b hb hs)⟩

theorem of_get (h : ∀ g ∈ phaseFields n, get t g = get s g) : PhaseStays n s t := by
  simp only [phaseFields, List.forall_mem_cons] at h
  obtain ⟨hdies, hstate, hcause, hhiccups, hevents, -⟩ := h
  exact ⟨phaseFitted_of hdies n, phState_of hdies hstate, hcause, hhiccups, fun b _ hb => hevents ▸ hb⟩

theorem get (h : PhaseStays n s t) {k : State} (hk : ∀ g ∈ phaseFields n, Machine.get k g = Machine.get t g) : PhaseStays n s k :=
  h.trans (of_get hk)

/-- A footprint that no low register is part of. -/
theorem within (h : PhaseStays n s t) {p : Print} {k : State} (hk : Within p t k) (hp : ∀ g, Low g → p.Free g) : PhaseStays n s k :=
  h.get fun _ hg => hk.get (hp _ (low_of_mem_phaseFields hg))

theorem put (h : PhaseStays n s t) {f : Field} (hf : ∀ g ∈ phaseFields n, fieldKey f ≠ fieldKey g) (v : Nat) :
    PhaseStays n s (put f v t) :=
  h.get fun g hg => get_put_ne (hf g hg) v t

theorem event (h : PhaseStays n s t) (b : Nat) : PhaseStays n s (event R.PST_EVENT b t) := by
  have hdies := get_event_ne (f := R.PST_EVENT) (g := R.GOV_CFG.N_DIES) (by decide) b t
  refine h.trans ⟨phaseFitted_of hdies n, phState_of hdies (get_event_ne (key_ne ?_) b t), get_event_ne (key_ne ?_) b t,
    get_event_ne (key_ne ?_) b t, fun i hi hs => bit_event_of_bit (by decide) hi b hs⟩ <;>
    simp only [R.PST_EVENT, R.PST_PH_STAT.STATE, R.PST_PH_STAT.CAUSE, R.PST_PH_CNT.HICCUPS] <;> omega

theorem when (h : PhaseStays n s t) {f : State → State} (hf : ∀ u, PhaseStays n s u → PhaseStays n s (f u)) (c : Bool) :
    PhaseStays n s (when c f t) := by
  cases c
  · exact h
  · exact hf t h

theorem finish (s : State) : PhaseStays n s (finish s) := of_get fun _ hg => get_finish_low (low_of_mem_phaseFields hg)

theorem refitRail (h : PhaseStays n s t) (r : Nat) : PhaseStays n s (refitRail r t) :=
  h.within (foot_refitRail (o_r := none) Names.any (Print.Sub.refl _) (Within.refl _ t)) fun _ hg => free_refitRail hg

theorem faultOn (h : PhaseStays n s t) (b : Nat) : PhaseStays n s (faultOn b t) :=
  h.within (foot_faultOn (Print.Sub.refl _) (Within.refl _ t)) fun _ hg => free_faultOn hg

theorem recordRail (h : PhaseStays n s t) (code r arg : Nat) : PhaseStays n s (recordRail code r arg t) :=
  h.within (foot_recordRail (Print.Sub.refl _) (Within.refl _ t)) fun _ _ => free_recordRail

theorem countHealth (h : PhaseStays n s t) (c k : Nat) : PhaseStays n s (countHealth c k t) :=
  h.within (foot_countHealth (o_c := none) Names.any (Print.Sub.refl _) (Within.refl _ t)) fun _ hg => free_countHealth hg

end PhaseStays

end Sys2Proof.Machine

/-! Rails that are switched off and rails that are lost, and a phase of neither (R130, R186, R638). -/

namespace Sys2Proof.Machine

/-- A phase of a rail that is switched off: OFF, but for one that has failed (R122, R186). -/
def phaseOff (n : Nat) (s : State) : State :=
  if phState s n = psFAILED then setPhase n { phaseOf s n with wire := 0, onTaps := 0, limited := false } s
  else s |> setPh n psOFF |> setPhase n PhaseH.init |> put (R.PST_PH_DUTY.TRIM n) 0

/-- The phases of a rail that is switched off. -/
def phasesOff (r : Nat) (s : State) : State := each ((phasesOf r).filter fun n => phaseFitted s n) phaseOff s

section

variable {s t : State} {g : Field} {n r : Nat}

theorem get_unpower (d : Nat) (s : State) : get (unpower d s) g = get s g := by
  unfold unpower
  split <;> rfl

theorem get_stopTest (r : Nat) (s : State) : get (stopTest r s) g = get s g := by
  unfold stopTest
  split <;> rfl

/-- What a rail that is switched off writes after its phases: the state and the cause of its loop, and BRAKING. -/
def loopOff (r : Nat) (s : State) : State :=
  s |> put (R.LPE_STAT.STATE r) lpOFF |> put (R.LPE_STAT.CAUSE r) 0 |> put (R.PST_RAIL_STAT.BRAKING r) 0

/-- Of the low registers a rail that is switched off writes its phases' and those of its loop. -/
theorem get_railOff_low (h : Low g) : get (railOff r s) g = get (loopOff r (phasesOff r s)) g := by
  have hcut : ∀ u, get (endCut r (put (R.ITN_DIE_STAT.PE r) 0 u)) g = get u g := fun u =>
    ((foot_endCut (o_d := none) Names.any (Print.Sub.refl _) (Within.refl _ _)).get (free_endCut h)).trans
      (get_put_ne (h.ne (by simp only [R.ITN_DIE_STAT.PE]; omega)) _ _)
  have hrefit : ∀ u, get (refitRail r u) g = get u g := fun u =>
    (foot_refitRail (o_r := none) Names.any (Print.Sub.refl _) (Within.refl _ u)).get (free_refitRail h)
  unfold railOff
  rw [hrefit, get_when (get_unpower ..), get_stopTest, get_when (hcut _), get_setRail]
  rfl

theorem get_railOff (h : Low g) (hloop : fieldKey (R.LPE_STAT.STATE r) ≠ fieldKey g) (hcause : fieldKey (R.LPE_STAT.CAUSE r) ≠ fieldKey g)
    (hbraking : fieldKey (R.PST_RAIL_STAT.BRAKING r) ≠ fieldKey g) : get (railOff r s) g = get (phasesOff r s) g := by
  rw [get_railOff_low h, loopOff, get_put_ne hbraking, get_put_ne hcause, get_put_ne hloop]

/-- No register that shows a phase lies in a window of the rails or of the loops. -/
theorem place_of_mem_phaseFields (hg : g ∈ phaseFields n) :
    g.off * 32 + g.lo < 0x020400 * 32 ∨ 0x021000 * 32 ≤ g.off * 32 + g.lo ∧ g.off * 32 + g.lo < 0x022000 * 32 := by
  simp only [phaseFields, List.mem_cons, List.not_mem_nil, or_false] at hg
  rcases hg with rfl | rfl | rfl | rfl | rfl <;>
    simp only [R.PST_PH_STAT.STATE, R.PST_PH_STAT.CAUSE, R.PST_PH_CNT.HICCUPS, R.PST_EVENT, R.GOV_CFG.N_DIES] <;> omega

theorem get_phaseOff (hstate : fieldKey (R.PST_PH_STAT.STATE n) ≠ fieldKey g) (htrim : fieldKey (R.PST_PH_DUTY.TRIM n) ≠ fieldKey g)
    (s : State) : get (phaseOff n s) g = get s g := by
  unfold phaseOff
  split
  · rfl
  · rw [get_put_ne htrim, get_setPhase, setPh, get_put_ne hstate]

theorem apart_of_mem_phaseFields (hn : n < 200) (hg : g ∈ phaseFields n) {m : Nat} (hm : m < 200) (hne : m ≠ n) :
    fieldKey (R.PST_PH_STAT.STATE m) ≠ fieldKey g ∧ fieldKey (R.PST_PH_STAT.CAUSE m) ≠ fieldKey g ∧ fieldKey (R.PST_PH_DUTY.TRIM m) ≠ fieldKey g := by
  simp only [phaseFields, List.mem_cons, List.not_mem_nil, or_false] at hg
  rcases hg with rfl | rfl | rfl | rfl | rfl <;> refine ⟨key_ne ?_, key_ne ?_, key_ne ?_⟩ <;>
    simp only [R.PST_PH_STAT.STATE, R.PST_PH_STAT.CAUSE, R.PST_PH_DUTY.TRIM, R.PST_PH_CNT.HICCUPS, R.PST_EVENT, R.GOV_CFG.N_DIES] <;> omega

/-- A phase that is switched off leaves another as it is, and one that has failed. -/
theorem phaseStays_phaseOff (hn : n < 200) {m : Nat} (hm : m < 200) (h : m ≠ n ∨ phState s n = psFAILED) : PhaseStays n s (phaseOff m s) := by
  by_cases hmn : m = n
  · have hfail := h.resolve_left (not_not_intro hmn)
    rw [phaseOff, if_pos (hmn ▸ hfail)]
    exact .of_get fun g _ => rfl
  · exact .of_get fun g hg => get_phaseOff (apart_of_mem_phaseFields hn hg hm hmn).1 (apart_of_mem_phaseFields hn hg hm hmn).2.2 s

theorem phaseStays_phasesOff (hn : n < 200) (h : railOfPhase n ≠ r ∨ phState s n = psFAILED) : PhaseStays n s (phasesOff r s) := by
  refine each_induct (P := PhaseStays n s) (fun m hm u hu => hu.trans ?_) (.refl n s)
  obtain ⟨hm200, hmr⟩ := mem_phasesOf.1 (List.mem_filter.1 hm).1
  exact phaseStays_phaseOff hn hm200 (h.imp (fun hr e => hr (e ▸ hmr)) fun hf => hu.state.trans hf)

/-- A rail that is switched off leaves a phase of another, and one that has failed. -/
theorem phaseStays_railOff (hn : n < 200) (h : railOfPhase n ≠ r ∨ phState s n = psFAILED) : PhaseStays n s (railOff r s) := by
  refine (phaseStays_phasesOff hn h).get fun g hg => ?_
  have hplace := place_of_mem_phaseFields hg
  refine get_railOff (low_of_mem_phaseFields hg) (key_ne ?_) (key_ne ?_) (key_ne ?_) <;>
    simp only [R.LPE_STAT.STATE, R.LPE_STAT.CAUSE, R.PST_RAIL_STAT.BRAKING] <;> omega

theorem phaseStays_dieCleared (d : Nat) : PhaseStays n s (dieCleared d s) := by
  refine .of_get fun g hg => (foot_dieCleared (o_d := none) Names.any (Print.Sub.refl _) (Within.refl _ s)).get
    (free_dieCleared (low_of_mem_phaseFields hg) fun i => key_ne ?_)
  have hplace := place_of_mem_phaseFields hg
  simp only [R.LPE_REF.TARGET]
  omega

/-- Whether the loss of rail r leaves phase n: it is none of the other rail of that die, or it has failed (R638). -/
def Spares (s : State) (r n : Nat) : Prop := railOfPhase n ≠ otherRail r ∨ phState s n = psFAILED

theorem spares_own (s : State) (n : Nat) : Spares s (railOfPhase n) n := by
  refine .inl ?_
  unfold otherRail railOfPhase
  split_ifs <;> omega

theorem phaseStays_holdDie (hn : n < 200) (h : Spares s r n) : PhaseStays n s (holdDie r s) := by
  unfold holdDie
  dsimp only
  split
  · exact .refl n s
  · have hregs : PhaseStays n s { s with
        boot := { s.boot with lostHold := setBit s.boot.lostHold (r % 16) }, pins := { s.pins with memEn := clrBit s.pins.memEn (r % 16) } } :=
      .of_get fun g _ => get_of_regs rfl g
    have hcleared := hregs.trans (phaseStays_dieCleared (r % 16))
    exact hcleared.trans (phaseStays_railOff hn (h.imp_right hcleared.state.trans))

theorem phaseStays_lostCheck (hn : n < 200) (h : Spares s r n) : PhaseStays n s (lostCheck r s) := by
  have hlost : ∀ g ∈ phaseFields n, fieldKey (R.PST_RAIL_STAT.LOST r) ≠ fieldKey g := by
    intro g hg
    have hplace := place_of_mem_phaseFields hg
    refine key_ne ?_
    simp only [R.PST_RAIL_STAT.LOST]
    omega
  unfold lostCheck
  split
  · exact .refl n s
  · have hmarked := (((((PhaseStays.refl n s).put hlost 1).event 8).faultOn 0).recordRail 0x0206 r r).refitRail r
    dsimp only
    split
    · exact hmarked.get fun _ _ => rfl
    · exact hmarked.trans (phaseStays_holdDie hn (h.imp_right fun hf => hmarked.state.trans hf))

theorem phaseStays_withhold (hn : n < 200) {m : Nat} (h : Spares s (railOfPhase m) n) : PhaseStays n s (withhold m s) := by
  unfold withhold
  have hmarked : PhaseStays n s (refitRail (railOfPhase m) (setPhase m { phaseOf s m with withheld := true } s)) :=
    (PhaseStays.of_get fun _ _ => get_setPhase ..).refitRail _
  exact hmarked.trans (phaseStays_lostCheck hn (h.imp_right fun hf => hmarked.state.trans hf))

end

end Sys2Proof.Machine

/-! Phases that fail, that rest and that return (R106, R123 to R127, R133, R135, R137, R141, R142, R145). -/

namespace Sys2Proof.Machine

/-- A phase marked FAILED, with its event and its record, before its share is withdrawn (R145). -/
def markFailed (n cause : Nat) (s : State) : State :=
  s |> setPh n psFAILED |> put (R.PST_PH_STAT.CAUSE n) cause
    |> setPhase n { phaseOf s n with frac := 0, limRun := 0, openRun := 0, senseRun := 0, onTaps := 0, wire := 0 }
    |> event R.PST_EVENT 0 |> countHealth 2 1 |> recordRail 0x0204 (railOfPhase n) (n + cause * 2 ^ 16)

/-- Phase n has failed for a cause, and the stage controller says so. -/
structure Failed (n cause : Nat) (s : State) : Prop where
  state : phState s n = psFAILED
  cause : get s (R.PST_PH_STAT.CAUSE n) = cause
  event : bit (get s R.PST_EVENT) 0 = true

section

variable {s t : State} {m n cause : Nat}

theorem Failed.of_stays (h : Failed n cause s) (k : PhaseStays n s t) : Failed n cause t :=
  ⟨k.state.trans h.state, k.cause.trans h.cause, k.events 0 (by decide) h.event⟩

theorem failPhase_of (hfit : phaseFitted s n = true) (hs : phState s n ≠ psFAILED) (cause : Nat) :
    failPhase n cause s = when (phAvail (phState s n)) (withhold n) (markFailed n cause s) := by
  rw [failPhase, if_neg (by simp [hfit, hs])]
  rfl

theorem failPhase_same (h : phaseFitted s n = false ∨ phState s n = psFAILED) (cause : Nat) : failPhase n cause s = s := by
  rw [failPhase, if_pos (by simpa using h)]

theorem failed_event (hs : phState s n = psFAILED) (hc : get s (R.PST_PH_STAT.CAUSE n) = cause) (h : PhaseH) :
    Failed n cause (event R.PST_EVENT 0 (setPhase n h s)) := by
  have hevent := (PhaseStays.of_get (n := n) fun _ _ => get_setPhase n h s _).event 0
  exact ⟨hevent.state.trans hs, hevent.cause.trans hc, bit_event_self (by nofun) (by decide) _⟩

theorem failed_markFailed (hfit : phaseFitted s n = true) (hc : cause < 8) : Failed n cause (markFailed n cause s) := by
  have hcause : fieldKey (R.PST_PH_STAT.CAUSE n) ≠ fieldKey (R.PST_PH_STAT.STATE n) :=
    key_ne (by simp only [R.PST_PH_STAT.CAUSE, R.PST_PH_STAT.STATE]; omega)
  have hdies : fieldKey (R.PST_PH_STAT.CAUSE n) ≠ fieldKey R.GOV_CFG.N_DIES :=
    key_ne (by simp only [R.PST_PH_STAT.CAUSE, R.GOV_CFG.N_DIES]; omega)
  unfold markFailed
  refine (failed_event ?_ ?_ _).of_stays (((PhaseStays.refl n _).countHealth 2 1).recordRail _ _ _)
  · exact (phState_of (get_put_ne hdies ..) (get_put_ne hcause ..)).trans (phState_setPh hfit (by decide))
  · exact (get_put_self (by nofun) ..).trans (Nat.mod_eq_of_lt hc)

theorem failed_failPhase (hn : n < 200) (hfit : phaseFitted s n = true) (hs : phState s n ≠ psFAILED) (hc : cause < 8) :
    Failed n cause (failPhase n cause s) := by
  rw [failPhase_of hfit hs]
  have hmarked := failed_markFailed (s := s) hfit hc
  exact hmarked.of_stays ((PhaseStays.refl n _).when (fun u hu => hu.trans (phaseStays_withhold hn (spares_own u n))) _)

/-- A phase that fails leaves another as it is, unless the loss of its rail switches that one off (R638). -/
theorem phaseStays_failPhase (hn : n < 200) (hne : m ≠ n) (h : Spares s (railOfPhase m) n) (cause : Nat) :
    PhaseStays n s (failPhase m cause s) := by
  by_cases hgoes : phaseFitted s m = true ∧ phState s m ≠ psFAILED
  · obtain ⟨hfit, hs⟩ := hgoes
    rw [failPhase_of hfit hs]
    have hapart := fun g hg => apart_of_mem_phaseFields (g := g) hn hg (phaseFitted_lt hfit) hne
    have hput := (PhaseStays.refl n s).put (fun g hg => (hapart g hg).1) psFAILED |>.put (fun g hg => (hapart g hg).2.1) cause
    have hmarked : PhaseStays n s (markFailed m cause s) :=
      (((hput.get fun _ _ => get_setPhase ..).event 0).countHealth 2 1).recordRail _ _ _
    exact hmarked.when (fun u hu => hu.trans (phaseStays_withhold hn (h.imp_right hu.state.trans))) _
  · rw [failPhase_same (by simpa [or_iff_not_imp_left] using hgoes)]
    exact .refl n s

end

end Sys2Proof.Machine

/-! The commands of the stage controller that fail a phase, let it rest and bring it back. -/

namespace Sys2Proof.Machine

section

variable {s : State} {n r k : Nat}

theorem phState_setPhase (m n : Nat) (h : PhaseH) (s : State) : phState (setPhase m h s) n = phState s n :=
  phState_of (get_setPhase ..) (get_setPhase ..)

theorem phState_finish (s : State) (n : Nat) : phState (finish s) n = phState s n := (PhaseStays.finish s).state

theorem rails_finish (s : State) : (finish s).rails = s.rails := (Within.finish s).parts .rails (by decide) (by decide)

theorem phaseOf_finish (s : State) (n : Nat) : phaseOf (finish s) n = phaseOf s n := phaseOf_of (phases_finish s) n

theorem phState_put {f : Field} (hf : ∀ g ∈ phaseFields n, fieldKey f ≠ fieldKey g) (v : Nat) (s : State) : phState (put f v s) n = phState s n :=
  ((PhaseStays.refl n s).put hf v).state

/-- Of the registers, entering SOFT writes the phase's state and its trim (R118, R127). -/
theorem get_enterSoft {g : Field} (hstate : fieldKey (R.PST_PH_STAT.STATE n) ≠ fieldKey g) (htrim : fieldKey (R.PST_PH_DUTY.TRIM n) ≠ fieldKey g) :
    get (enterSoft n k s) g = get s g :=
  (get_when (get_put_ne htrim ..)).trans ((get_setPhase ..).trans (get_put_ne hstate ..))

theorem trim_apart (n m : Nat) : ∀ g ∈ phaseFields n, fieldKey (R.PST_PH_DUTY.TRIM m) ≠ fieldKey g := by
  intro g hg
  simp only [phaseFields, List.mem_cons, List.not_mem_nil, or_false] at hg
  rcases hg with rfl | rfl | rfl | rfl | rfl <;> refine key_ne ?_ <;>
    simp only [R.PST_PH_STAT.STATE, R.PST_PH_STAT.CAUSE, R.PST_PH_DUTY.TRIM, R.PST_PH_CNT.HICCUPS, R.PST_EVENT, R.GOV_CFG.N_DIES] <;> omega

theorem hiccupRun_apart (n m : Nat) : ∀ g ∈ phaseFields n, fieldKey (R.PST_PH_STAT.HICCUP_RUN m) ≠ fieldKey g := by
  intro g hg
  simp only [phaseFields, List.mem_cons, List.not_mem_nil, or_false] at hg
  rcases hg with rfl | rfl | rfl | rfl | rfl <;> refine key_ne ?_ <;>
    simp only [R.PST_PH_STAT.STATE, R.PST_PH_STAT.CAUSE, R.PST_PH_STAT.HICCUP_RUN, R.PST_PH_CNT.HICCUPS, R.PST_EVENT, R.GOV_CFG.N_DIES] <;> omega

theorem phState_enterSoft (hfit : phaseFitted s n = true) : phState (enterSoft n k s) n = psSOFT := by
  unfold enterSoft
  exact ((PhaseStays.refl n _).when (fun u hu => hu.put (trim_apart n n) 0) _).state.trans
    ((phState_setPhase ..).trans (phState_setPh hfit (by decide)))

theorem hiccupRun_finish (s : State) (n : Nat) : get (finish s) (R.PST_PH_STAT.HICCUP_RUN n) = get s (R.PST_PH_STAT.HICCUP_RUN n) :=
  have hlow : Low (R.PST_PH_STAT.HICCUP_RUN n) := low_paged (by decide) (by omega)
  get_finish_low hlow

/-- TLM_LOST of a fitted phase of the lane. -/
theorem tlmLost_fails {g l c : Nat} (hlane : laneFitted s g l = true) (hbad : 16 ≤ (laneOf s (2 * g + l)).bad) (hc : c < 4)
    (hfit : phaseFitted s (8 * g + 4 * l + c) = true) (hs : phState s (8 * g + 4 * l + c) ≠ psFAILED) :
    ∃ t, exec (.tlmLost g l) s = .next t ∧ phState t (8 * g + 4 * l + c) = psFAILED ∧ get t (R.PST_PH_STAT.CAUSE (8 * g + 4 * l + c)) = 4 := by
  have hn := phaseFitted_lt hfit
  have hspares : ∀ (u : State) (x : Nat), x < 4 → Spares u (railOfPhase (8 * g + 4 * l + x)) (8 * g + 4 * l + c) := fun u x hx =>
    .inl (by unfold otherRail railOfPhase; split_ifs <;> omega)
  have hothers : ∀ x ∈ List.range 4, x ≠ c → ∀ u, PhaseStays (8 * g + 4 * l + c) u (failPhase (8 * g + 4 * l + x) 4 u) := fun x hx hne u =>
    phaseStays_failPhase hn (by omega) (hspares u x (List.mem_range.1 hx)) 4
  have hfailed : Failed _ 4 _ := each_hits (I := fun u => phaseFitted u (8 * g + 4 * l + c) = true ∧ phState u (8 * g + 4 * l + c) ≠ psFAILED)
    (List.mem_range.2 hc) List.nodup_range (fun x hx hne u hu => ⟨(hothers x hx hne u).fitted.trans hu.1, (hothers x hx hne u).state ▸ hu.2⟩)
    (fun u hu => failed_failPhase hn hu.1 hu.2 (by decide)) (fun x hx hne u hu => hu.of_stays (hothers x hx hne u)) ⟨hfit, hs⟩
  have hends := hfailed.of_stays (.finish _)
  exact ⟨_, congrArg done (if_pos ⟨hlane, hbad⟩), hends.state, hends.cause⟩

/-- A phase in RUN that fails. -/
theorem run_fails (hs : phState s n = psRUN) {cause : Nat} (hc : cause < 8) : Failed n cause (finish (failPhase n cause s)) :=
  have hfit := phaseFitted_of_phState hs (by decide)
  (failed_failPhase (phaseFitted_lt hfit) hfit (by rw [hs]; decide) hc).of_stays (.finish _)

/-- A phase that switches is fitted, and has not failed (R122). -/
theorem switching_goes (h : phSwitching (phState s n) = true) : phaseFitted s n = true ∧ phState s n ≠ psFAILED := by
  have hrange : 2 ≤ phState s n ∧ phState s n ≤ 4 := by simpa [phSwitching] using h
  exact ⟨phaseFitted_of_phState rfl (by omega), by unfold psFAILED; omega⟩

/-- HICCUP_ENTER of a phase that has used up its hiccups (R125). -/
theorem hiccupEnter_fails (hsw : phSwitching (phState s n) = true) (hlim : get s (R.PST_RAIL_CFG.HICCUP_N (railOfPhase n)) ≤ (phaseOf s n).limRun)
    (hmax : get s (R.PST_RAIL_CFG.HICCUP_MAX (railOfPhase n)) ≤ get s (R.PST_PH_STAT.HICCUP_RUN n)) :
    ∃ t, exec (.hiccupEnter n) s = .next t ∧ phState t n = psFAILED ∧ get t (R.PST_PH_STAT.CAUSE n) = 3 := by
  obtain ⟨hfit, hs⟩ := switching_goes hsw
  have hends := (failed_failPhase (phaseFitted_lt hfit) hfit hs (cause := 3) (by decide)).of_stays (.finish _)
  have heff : effHiccupEnter n s = failPhase n 3 s := by
    rw [effHiccupEnter, if_neg (by simp [hsw, hlim]), if_pos hmax]
  exact ⟨_, congrArg done heff, hends.state, hends.cause⟩

/-- A phase put to rest and counted (R123). -/
def rested (n : Nat) (s : State) : State :=
  s |> setPh n psHICCUP
    |> setPhase n { phaseOf s n with frac := 0, limRun := 0, openRun := 0, senseRun := 0, onTaps := 0, wire := 0, hiccupUs := s.us }
    |> addSat (R.PST_PH_CNT.HICCUPS n) 1

theorem rested_shows (hfit : phaseFitted s n = true) : phState (rested n s) n = psHICCUP ∧
    get (rested n s) (R.PST_PH_CNT.HICCUPS n) = min 65535 (get s (R.PST_PH_CNT.HICCUPS n) + 1) := by
  have hstate : fieldKey (R.PST_PH_CNT.HICCUPS n) ≠ fieldKey (R.PST_PH_STAT.STATE n) :=
    key_ne (by simp only [R.PST_PH_CNT.HICCUPS, R.PST_PH_STAT.STATE]; omega)
  have hdies : fieldKey (R.PST_PH_CNT.HICCUPS n) ≠ fieldKey R.GOV_CFG.N_DIES :=
    key_ne (by simp only [R.PST_PH_CNT.HICCUPS, R.GOV_CFG.N_DIES]; omega)
  constructor
  · exact (phState_of (get_put_ne hdies ..) (get_put_ne hstate ..)).trans ((phState_setPhase ..).trans (phState_setPh hfit (by decide)))
  · rw [rested, get_addSat_self (by nofun), get_setPhase, setPh, get_put_ne hstate.symm]
    rfl

/-- HICCUP_ENTER of a phase that rests (R123). -/
theorem hiccupEnter_rests (hsw : phSwitching (phState s n) = true) (hlim : get s (R.PST_RAIL_CFG.HICCUP_N (railOfPhase n)) ≤ (phaseOf s n).limRun)
    (hmax : get s (R.PST_PH_STAT.HICCUP_RUN n) < get s (R.PST_RAIL_CFG.HICCUP_MAX (railOfPhase n))) :
    ∃ t, exec (.hiccupEnter n) s = .next t ∧ phState t n = psHICCUP ∧ bit (get t R.PST_EVENT) 1 = true ∧
      get t (R.PST_PH_CNT.HICCUPS n) = min 65535 (get s (R.PST_PH_CNT.HICCUPS n) + 1) := by
  obtain ⟨hfit, -⟩ := switching_goes hsw
  obtain ⟨hstate, hcount⟩ := rested_shows hfit
  have heff : effHiccupEnter n s =
      withhold n (recordRail 0x0205 (railOfPhase n) n (countHealth 2 1 (event R.PST_EVENT 1 (rested n s)))) := by
    rw [effHiccupEnter, if_neg (by simp [hsw, hlim]), if_neg (Nat.not_le.2 hmax)]
    rfl
  have hrecord := ((PhaseStays.refl n (event R.PST_EVENT 1 (rested n s))).countHealth 2 1).recordRail 0x0205 (railOfPhase n) n
  have hends := (hrecord.trans (phaseStays_withhold (phaseFitted_lt hfit) (spares_own _ n))).trans (.finish _)
  have hevent := (PhaseStays.refl n (rested n s)).event 1
  exact ⟨_, congrArg done heff, hends.state.trans (hevent.state.trans hstate),
    hends.events 1 (by decide) (bit_event_self (by nofun) (by decide) _), hends.hiccups.trans (hevent.hiccups.trans hcount)⟩

/-- HICCUP_END (R124). -/
theorem hiccupEnd_returns (hs : phState s n = psHICCUP)
    (hover : get s (R.PST_RAIL_MISC.HICCUP (railOfPhase n)) ≤ s.us - (phaseOf s n).hiccupUs) :
    ∃ t, exec (.hiccupEnd n) s = .next t ∧ phState t n = psSOFT ∧
      get t (R.PST_PH_STAT.HICCUP_RUN n) = min 255 (get s (R.PST_PH_STAT.HICCUP_RUN n) + 1) := by
  refine ⟨_, congrArg done (if_pos ⟨hs, hover⟩), ?_, ?_⟩
  · rw [phState_finish, addSat, phState_put (hiccupRun_apart n n), phState_enterSoft (phaseFitted_of_phState hs (by decide))]
  · rw [hiccupRun_finish, get_addSat_self (by nofun), get_enterSoft (key_ne ?_) (key_ne ?_)]
    · rfl
    · simp only [R.PST_PH_STAT.STATE, R.PST_PH_STAT.HICCUP_RUN]; omega
    · simp only [R.PST_PH_DUTY.TRIM, R.PST_PH_STAT.HICCUP_RUN]; omega

/-- PHASE_RAMP_END of a phase in SOFT (R126). -/
theorem phaseRampEnd_runs (hs : phState s n = psSOFT) (hfrac : 16 ≤ (phaseOf s n).frac) :
    ∃ t, exec (.phaseRampEnd n) s = .next t ∧ phState t n = psRUN ∧
      (phaseOf t n).frac = (phaseOf s n).frac ∧ (phaseOf t n).withheld = false ∧ (phaseOf t n).openRun = 0 ∧ (phaseOf t n).senseRun = 0 := by
  have hrefit : ∀ (c : Bool) u, phState (when c (refitRail (railOfPhase n)) u) n = phState u n ∧
      phaseOf (when c (refitRail (railOfPhase n)) u) n = phaseOf u n := by
    rintro ⟨⟩ u
    · exact ⟨rfl, rfl⟩
    · exact ⟨((PhaseStays.refl n u).refitRail _).state, phaseOf_of ((foot_refitRail (o_r := none) Names.any (Print.Sub.refl _)
        (Within.refl _ u)).parts .phases (by decide) (by decide)) n⟩
  refine ⟨_, congrArg done (if_pos ⟨hs, hfrac⟩), ?_⟩
  rw [phState_finish, phaseOf_finish, (hrefit _ _).1, (hrefit _ _).2, phState_setPhase, phaseOf_setPhase,
    phState_setPh (phaseFitted_of_phState hs (by decide)) (by decide)]
  exact ⟨rfl, rfl, rfl, rfl, rfl⟩

/-- PHASE_RAMP_END of a phase in SHEDDING (R127). -/
theorem phaseRampEnd_sheds (hs : phState s n = psSHEDDING) (hfrac : (phaseOf s n).frac = 0) :
    ∃ t, exec (.phaseRampEnd n) s = .next t ∧ phState t n = psSHED ∧
      (phaseOf t n).frac = 0 ∧ (railOf t (railOfPhase n)).shedUs = some s.us := by
  have hsoft : ¬ (phState s n = psSOFT ∧ 16 ≤ (phaseOf s n).frac) := fun h => by omega
  refine ⟨_, congrArg done ((if_neg hsoft).trans (if_pos ⟨hs, hfrac⟩)), ?_⟩
  have hrail : ∀ (m : Nat) (h : RailH) (u : State), phState (setRail m h u) n = phState u n := fun m h u => phState_of (get_setRail ..) (get_setRail ..)
  rw [phState_finish, phaseOf_finish, railOf_of (rails_finish _), hrail, phState_setPhase, railOf_setRail,
    phState_setPh (phaseFitted_of_phState hs (by decide)) (by decide)]
  exact ⟨rfl, (congrArg PhaseH.frac (phaseOf_setPhase ..)).trans hfrac, rfl⟩

/-- SHED_PHASE (R135, R137). -/
theorem shedPhase_sheds (hfit : railFitted s r = true) (hmay : maySkim s r = true) (hdue : skimDue s r = true)
    (hnone : countPhases s r (· = psSHEDDING) = 0) (hnext : nextShed s r = some n) :
    ∃ t, exec (.shedPhase r) s = .next t ∧ phState t n = psSHEDDING ∧ (phaseOf t n).frac = 16 := by
  have hrun : phState s n = psRUN := by simpa using List.find?_some hnext
  have heff : execShedPhase r s = done (startShed n s) := by
    rw [execShedPhase, if_pos (by simp [hfit, hmay, hdue, hnone]), hnext]
  refine ⟨_, heff, ?_⟩
  rw [phState_finish, phaseOf_finish, startShed, phState_setPhase, phaseOf_setPhase,
    phState_setPh (phaseFitted_of_phState hrun (by decide)) (by decide)]
  exact ⟨rfl, rfl⟩

/-- BRAKE_TIMEOUT (R133). -/
theorem brakeTimeout_ends (hon : isOn s (R.PST_RAIL_STAT.BRAKING r) = true)
    (hover : get s (R.PST_RAIL_BRAKE.MAX_NS r) ≤ spanNs s (railOf s r).brakeAt (now s)) :
    ∃ t, exec (.brakeTimeout r) s = .next t ∧ get t (R.PST_RAIL_STAT.BRAKING r) = 0 := by
  have hlow : Low (R.PST_RAIL_STAT.BRAKING r) := low_paged (by decide) (by omega)
  refine ⟨_, congrArg done ((if_pos hover).trans (if_pos hon)), ?_⟩
  rw [get_finish_low hlow, get_setRail, get_put_self (by nofun)]
  rfl

end

/-- Settles O5, a lemma for each clause. -/
theorem phasesFail : Obligations.PhasesFail := by
  refine ⟨fun _ _ _ _ => tlmLost_fails, fun s n hs hopen => ?_, fun s n hs hsense => ?_, fun _ _ => hiccupEnter_fails, fun _ _ => hiccupEnter_rests,
    fun _ _ => hiccupEnd_returns, fun s n hs hlong => ?_, fun _ _ => phaseRampEnd_runs, fun _ _ => phaseRampEnd_sheds,
    fun _ _ _ => shedPhase_sheds, fun _ _ => brakeTimeout_ends⟩
  · obtain ⟨hstate, hcause, hevent⟩ := run_fails hs (cause := 1) (by decide)
    exact ⟨_, congrArg done (if_pos ⟨hs, hopen⟩), hstate, hcause, hevent⟩
  · obtain ⟨hstate, hcause, hevent⟩ := run_fails hs (cause := 2) (by decide)
    exact ⟨_, congrArg done (if_pos ⟨hs, hsense⟩), hstate, hcause, hevent⟩
  · refine ⟨_, congrArg done (if_pos ⟨hs, hlong⟩), ?_⟩
    rw [hiccupRun_finish, get_put_self (by nofun)]
    rfl

end Sys2Proof.Machine

/-! Operations of the rails that answer no command: memory and the tails of the completion queues stay (R560). -/

namespace Sys2Proof.Machine

/-- From s to t no byte of memory and no tail of a completion queue changed. -/
structure Unanswered (s t : State) : Prop where
  bytes : ∀ a, readByte t a = readByte s a
  tails : ∀ p, get t (R.CMD_CQ_TAIL.TAIL p) = get s (R.CMD_CQ_TAIL.TAIL p)

namespace Unanswered

variable {s t u : State}

theorem refl (s : State) : Unanswered s s := ⟨fun _ => rfl, fun _ => rfl⟩

theorem trans (h : Unanswered s t) (k : Unanswered t u) : Unanswered s u :=
  ⟨fun a => (k.bytes a).trans (h.bytes a), fun p => (k.tails p).trans (h.tails p)⟩

theorem of_eq (hr : t.regs = s.regs) (hm : t.mem = s.mem) : Unanswered s t :=
  ⟨readByte_of hm, fun _ => get_of_regs hr _⟩

theorem put {f : Field} (hf : f.off * 32 + f.lo < 0x120000 * 32) (v : Nat) (s : State) : Unanswered s (put f v s) :=
  ⟨readByte_of (put_mem ..), fun p => get_put_ne (key_ne_of_lt (by omega) (by simp only [R.CMD_CQ_TAIL.TAIL]; omega)
    (by simp only [R.CMD_CQ_TAIL.TAIL]; omega)) v s⟩

theorem when {f : State → State} (hf : Unanswered s (f s)) (c : Bool) : Unanswered s (when c f s) := by
  cases c
  · exact refl s
  · exact hf

theorem each {α : Type} {f : α → State → State} {l : List α} (hf : ∀ x ∈ l, ∀ u, Unanswered u (f x u)) (s : State) :
    Unanswered s (each l f s) :=
  each_induct (P := Unanswered s) (fun x hx u hu => hu.trans (hf x hx u)) (refl s)

/-- A footprint without memory, completion queues and their tails. -/
theorem within {p : Print} (hk : Within p s t) (hmem : Part.mem ∉ p.parts) (hcq : Part.cq ∉ p.parts)
    (htail : ∀ q, p.Free (R.CMD_CQ_TAIL.TAIL q)) : Unanswered s t := by
  refine ⟨fun a => ?_, fun q => hk.get (htail q)⟩
  cases hq : inQueue a
  · exact hk.parts .mem hmem (fun c _ => by cases c <;> nofun) a hq
  · exact hk.parts .cq hcq (fun c _ => by cases c <;> nofun) a hq

/-- A command answered after such operations. -/
theorem completed (h : Unanswered s t) (fl : Flight) (st r0 r1 : Nat) : Completed s (finish (complete fl st r0 r1 t)) fl st r0 r1 := by
  obtain ⟨⟨hgone, hport, hfirmware⟩, hmemory⟩ := completed_of (s := t) (X := t) fl st r0 r1 rfl fun _ => rfl
  have hslot : cqSlot t fl.port = cqSlot s fl.port := by rw [cqSlot, cqSlot, h.tails]
  rw [hslot, h.tails] at hport
  rw [hslot] at hmemory
  exact ⟨⟨hgone, hport, hfirmware⟩, fun a ha => (hmemory a ha).trans (h.bytes a)⟩

theorem setPhase (n : Nat) (v : PhaseH) (s : State) : Unanswered s (setPhase n v s) := of_eq rfl rfl

theorem setRail (r : Nat) (v : RailH) (s : State) : Unanswered s (setRail r v s) := of_eq rfl rfl

theorem setPh (n c : Nat) (s : State) : Unanswered s (setPh n c s) := put (by simp only [R.PST_PH_STAT.STATE]; omega) ..

theorem enterSoft (n k : Nat) (s : State) : Unanswered s (enterSoft n k s) := by
  have htrim : (R.PST_PH_DUTY.TRIM n).off * 32 + (R.PST_PH_DUTY.TRIM n).lo < 0x120000 * 32 := by simp only [R.PST_PH_DUTY.TRIM]; omega
  unfold Machine.enterSoft
  exact (setPh n psSOFT s).trans ((setPhase ..).trans (when (put htrim 0 _) _))

theorem refitRail (r : Nat) (s : State) : Unanswered s (refitRail r s) := by
  refine within (foot_refitRail (o_r := none) Names.any (Print.Sub.refl _) (Within.refl _ s)) (by decide) (by decide) fun q => ?_
  simp only [fp_refitRail, fp_refit, fp_sendBudget, fp_sendDown, fp_sendMsg, fp_sendFrame, fp_showReasons, fp_setReasons, Print.free_cons,
    Print.free_nil, Print.free_reg, Print.free_reg1, Print.free_prt, Print.free_row, and_true, true_and]
  repeat' apply And.intro
  all_goals
    intros
    refine key_ne ?_
    simp only [R.CAP_DIE_BUD.BUDGET, R.CAP_DIE_BUD.BIND, R.CAP_DIE_THR.ACTIVE, R.CAP_THR_ACT.ACTIVE, R.CAP_THR_START.TIME, R.CMD_CQ_TAIL.TAIL]
    omega

theorem showReasons (d : Nat) (s : State) : Unanswered s (showReasons d s) := by
  refine within (foot_showReasons (o_d := none) Names.any (Print.Sub.refl _) (Within.refl _ s)) (by decide) (by decide) fun q => ?_
  simp only [fp_showReasons, fp_setReasons, Print.free_cons, Print.free_nil, Print.free_reg, Print.free_reg1, Print.free_prt, and_true]
  repeat' apply And.intro
  all_goals
    intros
    refine key_ne ?_
    simp only [R.CAP_DIE_THR.ACTIVE, R.CAP_THR_ACT.ACTIVE, R.CAP_THR_START.TIME, R.CMD_CQ_TAIL.TAIL]
    omega

theorem faultOn (b : Nat) (s : State) : Unanswered s (faultOn b s) := by
  refine within (foot_faultOn (Print.Sub.refl _) (Within.refl _ s)) (by decide) (by decide) fun q => ?_
  simp only [fp_faultOn, fp_notifyAll, fp_notify, Print.free_cons, Print.free_nil, Print.free_reg, Print.free_reg1, Print.free_prt, and_true]
  refine ⟨key_ne ?_, fun _ _ => key_ne ?_⟩ <;> simp only [R.SAF_FAULT, R.CMD_NOTIFY, R.CMD_CQ_TAIL.TAIL] <;> omega

theorem faultOff (b : Nat) (s : State) : Unanswered s (faultOff b s) := by
  refine within (foot_faultOff (Print.Sub.refl _) (Within.refl _ s)) (by decide) (by decide) fun q => ?_
  simp only [fp_faultOff, Print.free_cons, Print.free_nil, Print.free_reg, and_true]
  exact key_ne (by simp only [R.SAF_FAULT, R.CMD_CQ_TAIL.TAIL]; omega)

theorem recordRail (code r arg : Nat) (s : State) : Unanswered s (recordRail code r arg s) :=
  within (foot_recordRail (Print.Sub.refl _) (Within.refl _ s)) (by decide) (by decide) fun _ => free_recordRail

theorem countHealth (c n : Nat) (s : State) : Unanswered s (countHealth c n s) := by
  refine ⟨readByte_of (countHealth_mem ..), fun p => get_put_ne (key_ne ?_) _ s⟩
  simp only [R.HLT_EVT.COUNT, R.CMD_CQ_TAIL.TAIL]
  omega

theorem agentPut (d : Nat) {f : Field} (hf : f.off * 32 + f.lo < 0x120000 * 32) (v : Nat) (s : State) : Unanswered s (agentPut d f v s) := by
  unfold Machine.agentPut
  dsimp only
  split
  · exact of_eq rfl rfl
  · exact put hf v s

theorem sendUp (ty d : Nat) (content : List Nat) (o : Out) (s : State) : Unanswered s (sendUp ty d content o s) := by
  refine within (foot_sendUp (o_d := none) Names.any (Print.Sub.refl _) (Within.refl _ s)) (by decide) (by decide) fun q => ?_
  simp only [fp_sendUp, fp_sendMsg, fp_sendFrame, Print.free_cons, Print.free_nil, Print.free_prt, Print.free_row, and_true]

/-- The end of the DROOP_FORCEs of a die that has none (R296). -/
theorem endForced {d : Nat} (hforced : (itnOf s d).forced = []) (lengthNs : Nat) : Unanswered s (endForced d lengthNs s) := by
  unfold Machine.endForced
  dsimp only
  rw [hforced]
  exact of_eq rfl rfl

end Unanswered

/-- From s to t no command was answered, and no DROOP_FORCE waits for die d. -/
structure Unforced (d : Nat) (s t : State) : Prop extends Unanswered s t where
  forced : (itnOf t d).forced = []

section

variable {d : Nat} {s t u : State}

theorem Unforced.step (h : Unforced d s t) (k : Unanswered t u) (hitn : u.itn = t.itn) : Unforced d s u :=
  ⟨h.toUnanswered.trans k, (congrArg ItnD.forced (itnOf_of hitn d)).trans h.forced⟩

theorem Unforced.agentPut (h : Unforced d s t) {f : Field} (hf : f.off * 32 + f.lo < 0x120000 * 32) (v : Nat) :
    Unforced d s (agentPut d f v t) := by
  refine h.step (.agentPut d hf v t) ?_
  unfold Machine.agentPut
  dsimp only
  split
  · rfl
  · exact put_itn ..

theorem Unforced.when (h : Unforced d s t) {f : State → State} (hf : ∀ u, Unforced d s u → Unforced d s (f u)) (c : Bool) :
    Unforced d s (when c f t) := by
  cases c
  · exact h
  · exact hf t h

theorem Unforced.heard (h : Unforced d s t) {f : State → State} (hf : ∀ u, Unforced d s u → Unanswered s (f u)) :
    Unanswered s (heard d f t) := by
  unfold Machine.heard
  cases !(linkOf t d).lost
  · exact h.toUnanswered
  · exact hf t h

/-- A die whose stretch request is released (R296). -/
theorem Unforced.release (h : Unforced d s t) (p : Pins) :
    Unforced d s (emit (.stretch d 0 false) (Machine.agentPut d (R.ITN_DIE_STAT.STRETCH d) 0 { t with pins := p })) := by
  have hpins : Unforced d s { t with pins := p } := h.step (.of_eq rfl rfl) rfl
  exact (hpins.agentPut (by simp only [R.ITN_DIE_STAT.STRETCH]; omega) 0).step (.of_eq rfl rfl) rfl

/-- What a die reports of its cut (R296). -/
theorem Unforced.report (h : Unforced d s t) (content : List Nat) (o : Out) (n : Nat) :
    Unanswered s (showReasons d (endForced d n (sendUp tyREPORT d content o t))) := by
  have hsent := h.step (.sendUp tyREPORT d content o t)
    ((foot_sendUp (o_d := none) Names.any (Print.Sub.refl _) (Within.refl _ t)).parts .itn (by decide) (by decide))
  exact hsent.toUnanswered.trans ((Unanswered.endForced hsent.forced n).trans (.showReasons d _))

/-- The end of a cut of a die for which no DROOP_FORCE waits (R290, R296). -/
theorem unanswered_endCut (hforced : (itnOf s d).forced = []) : Unanswered s (endCut d s) := by
  have hset : ∀ v : ItnD, v.forced = [] → Unforced d s (setItn d v s) := fun v hv =>
    ⟨.of_eq rfl rfl, (congrArg ItnD.forced (itnOf_setItn ..)).trans hv⟩
  have hfired : (R.ITN_DRP_STAT.FIRED d).off * 32 + (R.ITN_DRP_STAT.FIRED d).lo < 0x120000 * 32 := by simp only [R.ITN_DRP_STAT.FIRED]; omega
  have hcut : (R.ITN_DIE_STAT.CUT d).off * 32 + (R.ITN_DIE_STAT.CUT d).lo < 0x120000 * 32 := by simp only [R.ITN_DIE_STAT.CUT]; omega
  unfold endCut
  dsimp only
  split
  · refine Unforced.heard (Unforced.when (((hset _ ?_).agentPut hfired 0).agentPut hcut 0) ?_ _) ?_
    · exact hforced
    · exact fun u hu => hu.release _
    · exact fun u hu => hu.report ..
  · exact .refl s

end

end Sys2Proof.Machine

/-! The rails of a die that a LOST rail holds in reset: they are switched off and started anew (R131, R155, R186, R638). -/

namespace Sys2Proof.Machine

/-- A low register of no loop of rail x, nor of the states and trims of its phases, nor of its BRAKING. -/
structure Beside (x : Nat) (g : Field) : Prop extends Low g where
  state : ∀ m < 200, railOfPhase m = x → fieldKey (R.PST_PH_STAT.STATE m) ≠ fieldKey g
  trim : ∀ m < 200, railOfPhase m = x → fieldKey (R.PST_PH_DUTY.TRIM m) ≠ fieldKey g
  loop : fieldKey (R.LPE_STAT.STATE x) ≠ fieldKey g
  cause : fieldKey (R.LPE_STAT.CAUSE x) ≠ fieldKey g
  safe : fieldKey (R.LPE_DUTY.SAFE x) ≠ fieldKey g
  int : fieldKey (R.LPE_INT.I x) ≠ fieldKey g
  braking : fieldKey (R.PST_RAIL_STAT.BRAKING x) ≠ fieldKey g

/-- Such a register that is not the rail's LOST, nor the events of the stage controller. -/
structure Aside (x : Nat) (g : Field) : Prop extends Beside x g where
  lost : fieldKey (R.PST_RAIL_STAT.LOST x) ≠ fieldKey g
  event : fieldKey R.PST_EVENT ≠ fieldKey g

theorem beside_phaseCause (x n : Nat) : Beside x (R.PST_PH_STAT.CAUSE n) := by
  refine ⟨low_paged (by decide) (by omega), fun m _ _ => key_ne ?_, fun m _ _ => key_ne ?_, key_ne ?_, key_ne ?_, key_ne ?_, key_ne ?_, key_ne ?_⟩ <;>
    simp only [R.PST_PH_STAT.STATE, R.PST_PH_STAT.CAUSE, R.PST_PH_DUTY.TRIM, R.LPE_STAT.STATE, R.LPE_STAT.CAUSE, R.LPE_DUTY.SAFE, R.LPE_INT.I,
      R.PST_RAIL_STAT.BRAKING] <;> omega

theorem beside_lost (x r : Nat) : Beside x (R.PST_RAIL_STAT.LOST r) := by
  refine ⟨low_paged (by decide) (by omega), fun m _ _ => key_ne ?_, fun m _ _ => key_ne ?_, key_ne ?_, key_ne ?_, key_ne ?_, key_ne ?_, key_ne ?_⟩ <;>
    simp only [R.PST_PH_STAT.STATE, R.PST_RAIL_STAT.LOST, R.PST_PH_DUTY.TRIM, R.LPE_STAT.STATE, R.LPE_STAT.CAUSE, R.LPE_DUTY.SAFE, R.LPE_INT.I,
      R.PST_RAIL_STAT.BRAKING] <;> omega

theorem aside_phaseCause (x n : Nat) : Aside x (R.PST_PH_STAT.CAUSE n) := by
  refine ⟨beside_phaseCause x n, key_ne ?_, key_ne ?_⟩ <;> simp only [R.PST_PH_STAT.CAUSE, R.PST_RAIL_STAT.LOST, R.PST_EVENT] <;> omega

theorem aside_lost {x r : Nat} (hx : x < 33) (hr : r < 33) (hne : x ≠ r) : Aside x (R.PST_RAIL_STAT.LOST r) := by
  refine ⟨beside_lost x r, key_ne ?_, key_ne ?_⟩ <;> simp only [R.PST_RAIL_STAT.LOST, R.PST_EVENT] <;> omega

theorem aside_phaseState {x n : Nat} (hn : n < 200) (hne : railOfPhase n ≠ x) : Aside x (R.PST_PH_STAT.STATE n) := by
  have hapart : ∀ m < 200, railOfPhase m = x → m ≠ n := fun m _ hm e => hne (e ▸ hm)
  refine ⟨⟨low_paged (by decide) (by omega), fun m hm hx => key_ne ?_, fun m _ _ => key_ne ?_, key_ne ?_, key_ne ?_, key_ne ?_, key_ne ?_, key_ne ?_⟩,
    key_ne ?_, key_ne ?_⟩
  · have := hapart m hm hx
    simp only [R.PST_PH_STAT.STATE]
    omega
  all_goals
    simp only [R.PST_PH_STAT.STATE, R.PST_RAIL_STAT.LOST, R.PST_PH_DUTY.TRIM, R.LPE_STAT.STATE, R.LPE_STAT.CAUSE, R.LPE_DUTY.SAFE, R.LPE_INT.I,
      R.PST_RAIL_STAT.BRAKING, R.PST_EVENT]
    omega

theorem aside_loop {x r : Nat} (hx : x < 33) (hr : r < 33) (hne : x ≠ r) : Aside x (R.LPE_STAT.STATE r) := by
  refine ⟨⟨low_paged (by decide) (by omega), fun m _ _ => key_ne ?_, fun m _ _ => key_ne ?_, key_ne ?_, key_ne ?_, key_ne ?_, key_ne ?_, key_ne ?_⟩,
    key_ne ?_, key_ne ?_⟩ <;>
    simp only [R.PST_PH_STAT.STATE, R.PST_RAIL_STAT.LOST, R.PST_PH_DUTY.TRIM, R.LPE_STAT.STATE, R.LPE_STAT.CAUSE, R.LPE_DUTY.SAFE, R.LPE_INT.I,
      R.PST_RAIL_STAT.BRAKING, R.PST_EVENT] <;> omega

theorem aside_dies (x : Nat) : Aside x R.GOV_CFG.N_DIES := by
  refine ⟨⟨low_of nofun (by decide) (by decide) (by decide) (by decide), fun m _ _ => key_ne ?_, fun m _ _ => key_ne ?_, key_ne ?_, key_ne ?_,
    key_ne ?_, key_ne ?_, key_ne ?_⟩, key_ne ?_, key_ne ?_⟩ <;>
    simp only [R.PST_PH_STAT.STATE, R.PST_RAIL_STAT.LOST, R.PST_PH_DUTY.TRIM, R.LPE_STAT.STATE, R.LPE_STAT.CAUSE, R.LPE_DUTY.SAFE, R.LPE_INT.I,
      R.PST_RAIL_STAT.BRAKING, R.PST_EVENT, R.GOV_CFG.N_DIES] <;> omega

/-- A rail that is LOST, with its event, its fault and its record (R130). -/
def markLost (r : Nat) (s : State) : State :=
  s |> put (R.PST_RAIL_STAT.LOST r) 1 |> event R.PST_EVENT 8 |> faultOn 0 |> recordRail 0x0206 r r |> refitRail r

/-- The phases of a rail that is enabled: those that were OFF enter SOFT (R131). -/
def softened (n : Nat) (s : State) : State := s |> enterSoft n 0 |> setPhase n { phaseOf s n with frac := 0, withheld := false }

/-- The phases of a rail that is enabled. -/
def phasesSoft (r : Nat) (s : State) : State := each ((phasesOf r).filter fun n => phState s n = psOFF) softened s

/-- What a rail that is enabled writes of its loop (R180). -/
def loopRamps (r : Nat) (s : State) : State :=
  s |> put (R.LPE_STAT.STATE r) lpRAMP |> put (R.LPE_STAT.CAUSE r) 0 |> put (R.LPE_DUTY.SAFE r) 0 |> put (R.LPE_INT.I r) 0

/-- The loop of a rail that is enabled (R131, R180). -/
def startedRail (s : State) (r : Nat) : RailH :=
  { railOf s r with
    i := 0, f1 := 0, f2 := 0, ePrev := 0, uUns := 0, uSat := 0, ipredPrev := (railOf s r).irail, ref256 := vmeas s r * 256,
    vinSafe := get s R.LPE_VIN.VIN_NOM, cmpRun := 0, brakeRest := 6, skimUs := none, shedUs := none, pe := 0, resume := false, soft := true }

/-- A rail that is enabled, before the look at its phases. -/
def railStarts (r : Nat) (s : State) : State := s |> phasesSoft r |> loopRamps r |> setRail r (startedRail s r) |> refitRail r

section

variable {s t : State} {r x n m : Nat} {g : Field}

theorem railEnable_of (hfit : railFitted s r = true) : railEnable r s = lostCheck r (railStarts r s) := by
  rw [railEnable, if_neg (by simp [hfit])]
  rfl

theorem lostCheck_same (h : countPhases s r phAvail ≠ 0) : lostCheck r s = s := if_pos (.inr (.inr h))

theorem countPhases_ne_zero (hn : n < 200) (hr : railOfPhase n = r) {p : Nat → Bool} (hp : p (phState s n) = true) : countPhases s r p ≠ 0 := by
  have hmem : n ∈ (phasesOf r).filter fun n => p (phState s n) := List.mem_filter.2 ⟨mem_phasesOf.2 ⟨hn, hr⟩, hp⟩
  exact List.length_pos_iff_exists_mem.2 ⟨n, hmem⟩ |>.ne'

theorem boot_markLost : (markLost r s).boot = s.boot := by
  have hrefit : ∀ u, (refitRail r u).boot = u.boot := fun u =>
    (foot_refitRail (o_r := none) Names.any (Print.Sub.refl _) (Within.refl _ u)).parts .boot (by decide) (by decide)
  have hrecord : ∀ u, (recordRail 0x0206 r r u).boot = u.boot := fun u =>
    (foot_recordRail (Print.Sub.refl _) (Within.refl _ u)).parts .boot (by decide) (by decide)
  have hfault : ∀ u, (faultOn 0 u).boot = u.boot := fun u =>
    (foot_faultOn (Print.Sub.refl _) (Within.refl _ u)).parts .boot (by decide) (by decide)
  rw [markLost, hrefit, hrecord, hfault, event, put_boot, put_boot]

/-- The loss of a rail whose die is held already holds no other (R638). -/
theorem lostCheck_held (hr : r < 32) (hheld : bit s.boot.lostHold (r % 16) = true) : lostCheck r s = s ∨ lostCheck r s = markLost r s := by
  unfold lostCheck
  split
  · exact .inl rfl
  · refine .inr ?_
    rw [if_neg (by omega)]
    exact if_pos (boot_markLost (r := r) (s := s) ▸ hheld)

theorem get_refitRail (h : Low g) (r : Nat) (s : State) : get (refitRail r s) g = get s g :=
  (foot_refitRail (o_r := none) Names.any (Print.Sub.refl _) (Within.refl _ s)).get (free_refitRail h)

theorem get_markLost (h : Low g) (hlost : fieldKey (R.PST_RAIL_STAT.LOST r) ≠ fieldKey g) (hevent : fieldKey R.PST_EVENT ≠ fieldKey g) :
    get (markLost r s) g = get s g := by
  rw [markLost, get_refitRail h, (foot_recordRail (Print.Sub.refl _) (Within.refl _ _)).get free_recordRail,
    (foot_faultOn (Print.Sub.refl _) (Within.refl _ _)).get (free_faultOn h), get_event_ne hevent, get_put_ne hlost]

theorem get_softened (hstate : fieldKey (R.PST_PH_STAT.STATE n) ≠ fieldKey g) (htrim : fieldKey (R.PST_PH_DUTY.TRIM n) ≠ fieldKey g)
    (s : State) : get (softened n s) g = get s g :=
  (get_setPhase ..).trans (get_enterSoft hstate htrim)

theorem get_each_phasesOf {l : List Nat} (hl : l ⊆ phasesOf r) {f : Nat → State → State}
    (hf : ∀ m < 200, railOfPhase m = r → ∀ u, get (f m u) g = get u g) : get (each l f s) g = get s g :=
  each_induct (P := fun u => get u g = get s g)
    (fun m hm u hu => (hf m (mem_phasesOf.1 (hl hm)).1 (mem_phasesOf.1 (hl hm)).2 u).trans hu) rfl

theorem get_railStarts_low (h : Low g) : get (railStarts r s) g = get (loopRamps r (phasesSoft r s)) g := by
  rw [railStarts, get_refitRail h, get_setRail]

theorem get_loopRamps (hloop : fieldKey (R.LPE_STAT.STATE r) ≠ fieldKey g) (hcause : fieldKey (R.LPE_STAT.CAUSE r) ≠ fieldKey g)
    (hsafe : fieldKey (R.LPE_DUTY.SAFE r) ≠ fieldKey g) (hint : fieldKey (R.LPE_INT.I r) ≠ fieldKey g) :
    get (loopRamps r s) g = get s g := by
  rw [loopRamps, get_put_ne hint, get_put_ne hsafe, get_put_ne hcause, get_put_ne hloop]

theorem loopState_loopRamps : loopState (loopRamps r s) r = lpRAMP := by
  rw [loopState, loopRamps, get_put_ne (key_ne ?_), get_put_ne (key_ne ?_), get_put_ne (key_ne ?_), get_put_self (by nofun)]
  · rfl
  all_goals simp only [R.LPE_STAT.STATE, R.LPE_STAT.CAUSE, R.LPE_DUTY.SAFE, R.LPE_INT.I]; omega

theorem boot_railStarts : (railStarts r s).boot = s.boot := by
  have hrefit : ∀ u, (refitRail r u).boot = u.boot := fun u =>
    (foot_refitRail (o_r := none) Names.any (Print.Sub.refl _) (Within.refl _ u)).parts .boot (by decide) (by decide)
  have hsoft : ∀ n u, (softened n u).boot = u.boot := fun n u =>
    (foot_enterSoft (o_n := none) Names.any (Print.Sub.refl _) (Within.refl _ u)).parts .boot (by decide) (by decide)
  rw [railStarts, hrefit, setRail_boot, loopRamps, put_boot, put_boot, put_boot, put_boot, phasesSoft, each_keeps (φ := State.boot) hsoft]

/-- A rail that is enabled, of a held die. -/
theorem railEnable_held (hr : r < 32) (hfit : railFitted s r = true) (hheld : bit s.boot.lostHold (r % 16) = true) :
    railEnable r s = railStarts r s ∨ railEnable r s = markLost r (railStarts r s) := by
  rw [railEnable_of hfit]
  exact lostCheck_held hr ((congrArg (fun b : BootH => bit b.lostHold (r % 16)) boot_railStarts).trans hheld)

theorem boot_railEnable (hr : r < 32) (hfit : railFitted s r = true) (hheld : bit s.boot.lostHold (r % 16) = true) :
    (railEnable r s).boot = s.boot := by
  rcases railEnable_held hr hfit hheld with h | h <;> rw [h]
  · exact boot_railStarts
  · exact boot_markLost.trans boot_railStarts

theorem get_railStarts (h : Beside r g) : get (railStarts r s) g = get s g := by
  rw [get_railStarts_low h.toLow, get_loopRamps h.loop h.cause h.safe h.int, phasesSoft,
    get_each_phasesOf (List.filter_subset_self _) fun m hm hr => get_softened (h.state m hm hr) (h.trim m hm hr)]

theorem get_railEnable (h : Aside r g) (hr : r < 32) (hfit : railFitted s r = true) (hheld : bit s.boot.lostHold (r % 16) = true) :
    get (railEnable r s) g = get s g := by
  rcases railEnable_held hr hfit hheld with he | he <;> rw [he]
  · exact get_railStarts h.toBeside
  · exact (get_markLost h.toLow h.lost h.event).trans (get_railStarts h.toBeside)

theorem get_railOff_beside (h : Beside r g) : get (railOff r s) g = get s g := by
  rw [get_railOff h.toLow h.loop h.cause h.braking, phasesOff,
    get_each_phasesOf (List.filter_subset_self _) fun m hm hr => get_phaseOff (h.state m hm hr) (h.trim m hm hr)]

theorem loopState_railEnable (hr : r < 32) (hfit : railFitted s r = true) (hheld : bit s.boot.lostHold (r % 16) = true) :
    loopState (railEnable r s) r = lpRAMP := by
  have hlow : Low (R.LPE_STAT.STATE r) := low_paged (by decide) (by omega)
  have hstarts : loopState (railStarts r s) r = lpRAMP := (get_railStarts_low hlow).trans loopState_loopRamps
  rcases railEnable_held hr hfit hheld with he | he <;> rw [he]
  · exact hstarts
  · refine (get_markLost hlow (key_ne ?_) (key_ne ?_)).trans hstarts <;>
      simp only [R.LPE_STAT.STATE, R.PST_RAIL_STAT.LOST, R.PST_EVENT] <;> omega

theorem unanswered_markLost : Unanswered s (markLost r s) :=
  (Unanswered.put (by simp only [R.PST_RAIL_STAT.LOST]; omega) 1 s).trans ((Unanswered.put (by decide) _ _).trans
    ((Unanswered.faultOn 0 _).trans ((Unanswered.recordRail ..).trans (.refitRail ..))))

theorem unanswered_softened (n : Nat) (s : State) : Unanswered s (softened n s) :=
  (Unanswered.enterSoft n 0 s).trans (.setPhase ..)

theorem unanswered_loopRamps : Unanswered s (loopRamps r s) := by
  refine (Unanswered.put ?_ lpRAMP s).trans ((Unanswered.put ?_ 0 _).trans ((Unanswered.put ?_ 0 _).trans (.put ?_ 0 _)))
  all_goals simp only [R.LPE_STAT.STATE, R.LPE_STAT.CAUSE, R.LPE_DUTY.SAFE, R.LPE_INT.I]; omega

theorem unanswered_railEnable (hr : r < 32) (hfit : railFitted s r = true) (hheld : bit s.boot.lostHold (r % 16) = true) :
    Unanswered s (railEnable r s) := by
  have hstarts : Unanswered s (railStarts r s) := by
    unfold railStarts phasesSoft
    exact (Unanswered.each (fun n _ u => unanswered_softened n u) s).trans
      (unanswered_loopRamps.trans ((Unanswered.setRail ..).trans (.refitRail r _)))
  rcases railEnable_held hr hfit hheld with he | he <;> rw [he]
  · exact hstarts
  · exact hstarts.trans unanswered_markLost

theorem unanswered_phaseOff (n : Nat) (s : State) : Unanswered s (phaseOff n s) := by
  have htrim : (R.PST_PH_DUTY.TRIM n).off * 32 + (R.PST_PH_DUTY.TRIM n).lo < 0x120000 * 32 := by simp only [R.PST_PH_DUTY.TRIM]; omega
  unfold phaseOff
  split
  · exact .setPhase ..
  · exact (Unanswered.setPh n psOFF s).trans ((Unanswered.setPhase ..).trans (.put htrim 0 _))

theorem unanswered_loopOff : Unanswered s (loopOff r s) := by
  refine (Unanswered.put ?_ lpOFF s).trans ((Unanswered.put ?_ 0 _).trans (.put ?_ 0 _))
  all_goals simp only [R.LPE_STAT.STATE, R.LPE_STAT.CAUSE, R.PST_RAIL_STAT.BRAKING]; omega

theorem unanswered_stopTest (r : Nat) (s : State) : Unanswered s (stopTest r s) := by
  unfold stopTest
  split
  · exact .of_eq rfl rfl
  · exact .refl s

theorem unanswered_unpower (d : Nat) (s : State) : Unanswered s (unpower d s) := by
  unfold unpower
  split
  · exact .of_eq rfl rfl
  · exact .refl s

theorem itn_phasesOff : (phasesOff r s).itn = s.itn := by
  refine each_keeps (φ := State.itn) (fun n u => ?_) _ s
  unfold phaseOff
  split
  · rfl
  · rw [put_itn, setPhase_itn, setPh, put_itn]

/-- The die of a VCORE that is switched off: its die's cut ends (R186, R290). -/
def cutOff (r : Nat) (s : State) : State := s |> put (R.ITN_DIE_STAT.PE r) 0 |> endCut r

theorem railOff_eq (r : Nat) (s : State) : ∃ v, railOff r s = (s |> phasesOff r |> loopOff r |> setRail r v
    |> when (decide (r < 16)) (cutOff r) |> stopTest r |> when (decide (r < 32)) (unpower (r % 16)) |> refitRail r) :=
  ⟨_, rfl⟩

theorem unanswered_cutOff (hforced : r < 16 → (itnOf s r).forced = []) : Unanswered s (when (decide (r < 16)) (cutOff r) s) := by
  have hpe : (R.ITN_DIE_STAT.PE r).off * 32 + (R.ITN_DIE_STAT.PE r).lo < 0x120000 * 32 := by simp only [R.ITN_DIE_STAT.PE]; omega
  by_cases hr : r < 16
  · rw [decide_eq_true hr, when_true]
    refine (Unanswered.put hpe 0 s).trans (unanswered_endCut ?_)
    rw [itnOf_of (put_itn ..)]
    exact hforced hr
  · rw [decide_eq_false hr, when_false]
    exact .refl s

/-- A rail that is switched off, of a die for which no DROOP_FORCE waits (R186, R296). -/
theorem unanswered_railOff (hforced : r < 16 → (itnOf s r).forced = []) : Unanswered s (railOff r s) := by
  obtain ⟨v, hv⟩ := railOff_eq r s
  have hloop : Unanswered s (setRail r v (loopOff r (phasesOff r s))) :=
    (Unanswered.each (fun n _ u => unanswered_phaseOff n u) s).trans (unanswered_loopOff.trans (.setRail ..))
  have hitn : (setRail r v (loopOff r (phasesOff r s))).itn = s.itn := by
    rw [setRail_itn, loopOff, put_itn, put_itn, put_itn, itn_phasesOff]
  rw [hv]
  exact (hloop.trans (unanswered_cutOff fun hr => (congrArg ItnD.forced (itnOf_of hitn r)).trans (hforced hr))).trans
    ((unanswered_stopTest r _).trans ((Unanswered.when (unanswered_unpower ..) _).trans (.refitRail r _)))

theorem boot_railOff : (railOff r s).boot = s.boot :=
  (foot_railOff (o_r := none) Names.any (Print.Sub.refl _) (Within.refl _ s)).parts .boot (by decide) (by decide)

theorem nodup_phasesOf (r : Nat) : (phasesOf r).Nodup := by
  unfold phasesOf
  split_ifs
  · exact List.nodup_range.map (add_right_injective _)
  · exact List.nodup_range.map (add_right_injective _)
  · exact List.nodup_range.map (add_right_injective _)
  · exact List.nodup_nil

theorem phState_phaseOff_self (hfit : phaseFitted s n = true) (hs : phState s n ≠ psFAILED) : phState (phaseOff n s) n = psOFF := by
  rw [phaseOff, if_neg hs, phState_put (trim_apart n n), phState_setPhase, phState_setPh hfit (by decide)]

theorem phState_softened_self (hfit : phaseFitted s n = true) : phState (softened n s) n = psSOFT := by
  rw [softened, phState_setPhase, phState_enterSoft hfit]

/-- A phase that softens leaves another as it is. -/
theorem phaseStays_softened (hn : n < 200) (hm : m < 200) (hne : m ≠ n) : PhaseStays n s (softened m s) :=
  .of_get fun _ hg => get_softened (apart_of_mem_phaseFields hn hg hm hne).1 (apart_of_mem_phaseFields hn hg hm hne).2.2 s

/-- A phase of a rail that is switched off is OFF, unless it has failed (R186). -/
theorem phState_railOff_own (hfit : phaseFitted s n = true) (hs : phState s n ≠ psFAILED) :
    phState (railOff (railOfPhase n) s) n = psOFF := by
  have hn := phaseFitted_lt hfit
  have hstate : Low (R.PST_PH_STAT.STATE n) := low_paged (by decide) (by omega)
  have hdies := aside_dies (railOfPhase n)
  have hrest : phState (railOff (railOfPhase n) s) n = phState (phasesOff (railOfPhase n) s) n := by
    refine phState_of (get_railOff hdies.toLow hdies.loop hdies.cause hdies.braking) (get_railOff hstate (key_ne ?_) (key_ne ?_) (key_ne ?_)) <;>
      simp only [R.LPE_STAT.STATE, R.LPE_STAT.CAUSE, R.PST_RAIL_STAT.BRAKING, R.PST_PH_STAT.STATE] <;> omega
  have hlt : ∀ m ∈ (phasesOf (railOfPhase n)).filter fun n => phaseFitted s n, m < 200 := fun m hm =>
    (mem_phasesOf.1 (List.mem_filter.1 hm).1).1
  have hothers : ∀ m ∈ (phasesOf (railOfPhase n)).filter fun n => phaseFitted s n, m ≠ n → ∀ u, PhaseStays n u (phaseOff m u) :=
    fun m hm hne u => phaseStays_phaseOff hn (hlt m hm) (.inl hne)
  rw [hrest]
  exact each_hits (I := fun u => phaseFitted u n = true ∧ phState u n ≠ psFAILED) (P := fun u => phState u n = psOFF)
    (List.mem_filter.2 ⟨mem_phasesOf.2 ⟨hn, rfl⟩, hfit⟩) ((nodup_phasesOf _).filter _)
    (fun m hm hne u hu => ⟨(hothers m hm hne u).fitted.trans hu.1, (hothers m hm hne u).state ▸ hu.2⟩)
    (fun u hu => phState_phaseOff_self hu.1 hu.2) (fun m hm hne u hu => (hothers m hm hne u).state.trans hu) ⟨hfit, hs⟩

/-- A phase of a rail that is enabled is in SOFT where it was OFF (R131). -/
theorem phState_railStarts_own (hfit : phaseFitted s n = true) (hs : phState s n = psOFF) :
    phState (railStarts (railOfPhase n) s) n = psSOFT := by
  have hn := phaseFitted_lt hfit
  have hstate : Low (R.PST_PH_STAT.STATE n) := low_paged (by decide) (by omega)
  have hdies := aside_dies (railOfPhase n)
  have hrest : phState (railStarts (railOfPhase n) s) n = phState (phasesSoft (railOfPhase n) s) n := by
    refine phState_of ((get_railStarts_low hdies.toLow).trans (get_loopRamps hdies.loop hdies.cause hdies.safe hdies.int))
      ((get_railStarts_low hstate).trans (get_loopRamps (key_ne ?_) (key_ne ?_) (key_ne ?_) (key_ne ?_))) <;>
      simp only [R.LPE_STAT.STATE, R.LPE_STAT.CAUSE, R.LPE_DUTY.SAFE, R.LPE_INT.I, R.PST_PH_STAT.STATE] <;> omega
  have hlt : ∀ m ∈ (phasesOf (railOfPhase n)).filter fun n => phState s n = psOFF, m < 200 := fun m hm =>
    (mem_phasesOf.1 (List.mem_filter.1 hm).1).1
  rw [hrest]
  exact each_hits (I := fun u => phaseFitted u n = true) (P := fun u => phState u n = psSOFT)
    (List.mem_filter.2 ⟨mem_phasesOf.2 ⟨hn, rfl⟩, decide_eq_true hs⟩) ((nodup_phasesOf _).filter _)
    (fun m hm hne u hu => (phaseStays_softened hn (hlt m hm) hne).fitted.trans hu) (fun u hu => phState_softened_self hu)
    (fun m hm hne u hu => (phaseStays_softened hn (hlt m hm) hne).state.trans hu) hfit

/-- A rail with an OFF phase, enabled: a phase is available, so that it is not lost. -/
theorem railEnable_own (hfit : phaseFitted s n = true) (hs : phState s n = psOFF) :
    railEnable (railOfPhase n) s = railStarts (railOfPhase n) s := by
  have hrail : railFitted s (railOfPhase n) = true := by
    simp only [phaseFitted, Bool.and_eq_true] at hfit
    exact hfit.2
  rw [railEnable_of hrail]
  exact lostCheck_same (countPhases_ne_zero (phaseFitted_lt hfit) rfl (phState_railStarts_own hfit hs ▸ rfl))

end

end Sys2Proof.Machine

/-! PHASE_RETIRE and PHASE_RESTORE (R154, R155, R638), and the external sync (R112, R114, R115). -/

namespace Sys2Proof.Machine

section

variable {s t : State} {fl : Flight} {n r port tag : Nat}

theorem PhaseStays.complete (h : PhaseStays n s t) (fl : Flight) (st r0 r1 : Nat) : PhaseStays n s (complete fl st r0 r1 t) :=
  h.get fun _ hg => get_complete (by have := (low_of_mem_phaseFields hg).place; omega) st r0 r1 t

theorem get_answered {g : Field} (h : Low g) (fl : Flight) (st r0 r1 : Nat) (s : State) : get (finish (complete fl st r0 r1 s)) g = get s g :=
  (get_finish_low h).trans (get_complete (by have := h.place; omega) st r0 r1 s)

/-- Of two available phases of a rail one is not phase n. -/
theorem exists_other_available (h : 2 ≤ countPhases s r phAvail) (n : Nat) : ∃ m < 200, railOfPhase m = r ∧ m ≠ n ∧ phAvail (phState s m) = true := by
  by_contra hnone
  have hsub : ((phasesOf r).filter fun n => phAvail (phState s n)) ⊆ [n] := fun m hm => by
    obtain ⟨hmem, havail⟩ := List.mem_filter.1 hm
    obtain ⟨hlt, hrail⟩ := mem_phasesOf.1 hmem
    by_contra hne
    exact hnone ⟨m, hlt, hrail, fun e => hne (by simp [e]), havail⟩
  have hle := (((nodup_phasesOf r).filter _).subperm hsub).length_le
  unfold countPhases at h
  simp only [List.length_singleton] at hle
  omega

theorem unanswered_markFailed (n cause : Nat) (s : State) : Unanswered s (markFailed n cause s) := by
  have hcause : (R.PST_PH_STAT.CAUSE n).off * 32 + (R.PST_PH_STAT.CAUSE n).lo < 0x120000 * 32 := by simp only [R.PST_PH_STAT.CAUSE]; omega
  exact (Unanswered.setPh n psFAILED s).trans ((Unanswered.put hcause cause _).trans ((Unanswered.setPhase ..).trans
    ((Unanswered.put (by decide) _ _).trans ((Unanswered.countHealth ..).trans (.recordRail ..)))))

/-- A phase that fails leaves another as it is before its share is withdrawn. -/
theorem phaseStays_markFailed {m : Nat} (hn : n < 200) (hm : m < 200) (hne : m ≠ n) (cause : Nat) : PhaseStays n s (markFailed m cause s) := by
  have hapart := fun g hg => apart_of_mem_phaseFields (g := g) hn hg hm hne
  have hput := (PhaseStays.refl n s).put (fun g hg => (hapart g hg).1) psFAILED |>.put (fun g hg => (hapart g hg).2.1) cause
  exact (((hput.get fun _ _ => get_setPhase ..).event 0).countHealth 2 1).recordRail _ _ _

/-- A phase that fails while another of its rail is available: the rail is not lost. -/
theorem unanswered_failPhase (hn : n < 200) (hcount : 2 ≤ countPhases s (railOfPhase n) phAvail) (cause : Nat) :
    Unanswered s (failPhase n cause s) := by
  by_cases hgoes : phaseFitted s n = true ∧ phState s n ≠ psFAILED
  · obtain ⟨m, hm, hrail, hne, havail⟩ := exists_other_available hcount n
    have hmarked : Unanswered s (markFailed n cause s) := unanswered_markFailed ..
    rw [failPhase_of hgoes.1 hgoes.2]
    refine hmarked.trans (.when ?_ _)
    have hset : Unanswered (markFailed n cause s) (refitRail (railOfPhase n) (setPhase n { phaseOf (markFailed n cause s) n with withheld := true }
        (markFailed n cause s))) := (Unanswered.setPhase ..).trans (.refitRail ..)
    have hstays : PhaseStays m s (refitRail (railOfPhase n) (setPhase n { phaseOf (markFailed n cause s) n with withheld := true }
        (markFailed n cause s))) :=
      (((phaseStays_markFailed hm hn hne.symm cause)).get fun _ _ => get_setPhase ..).refitRail _
    unfold withhold
    rw [lostCheck_same]
    · exact hset
    · exact countPhases_ne_zero hm hrail (hstays.state ▸ havail)
  · rw [failPhase_same (by simpa [or_iff_not_imp_left] using hgoes)]
    exact .refl s

/-- The checks of a command that names a phase that exists (R154, R155). -/
theorem firstFail_phase (hn : n < 200) (b : Bool) :
    firstFail [(decide (n / 2 ^ 9 ≠ 0), sRESERVED), (decide (199 < n), sOUT_OF_RANGE), (b, sWRONG_STATE)] = if b then some sWRONG_STATE else none := by
  have hsize : ¬ n / 2 ^ 9 ≠ 0 := by omega
  have hrange : ¬ 199 < n := by omega
  simp only [firstFail, decide_eq_false hsize, decide_eq_false hrange, Bool.false_eq_true, if_false]

/-- PHASE_RETIRE (R154). -/
theorem phaseRetire_fails (hw : Waiting s 0x0201 port tag fl) (hpar : par fl 0 = n) (hn : n < 200) (havail : phAvail (phState s n) = true)
    (hcount : 2 ≤ countPhases s (railOfPhase n) phAvail) :
    ∃ t, exec (.phaseRetire port tag) s = .next t ∧ Completed s t fl sOK 0 0 ∧ phState t n = psFAILED ∧ get t (R.PST_PH_STAT.CAUSE n) = 6 := by
  have hrange : 2 ≤ phState s n ∧ phState s n ≤ 5 := by simpa [phAvail] using havail
  have hfit : phaseFitted s n = true := phaseFitted_of_phState rfl (by omega)
  have hfailed := (failed_failPhase hn hfit (by unfold psFAILED; omega) (cause := 6) (by decide)).of_stays
    (((PhaseStays.refl n _).complete fl sOK 0 0).trans (.finish _))
  have hnone : ¬ (phState s n = 0 ∨ phState s n = psOFF ∨ phState s n = psFAILED ∨
      phAvail (phState s n) = true ∧ countPhases s (railOfPhase n) phAvail = 1) := by
    unfold psOFF psFAILED
    omega
  refine ⟨_, congrArg done ((command_of hw ?_).trans (by rw [hpar])), (unanswered_failPhase hn hcount 6).completed fl sOK 0 0, hfailed.state,
    hfailed.cause⟩
  rw [hpar, firstFail_phase hn, decide_eq_false hnone]
  rfl

/-- PHASE_RETIRE of a phase that does not exist. -/
theorem phaseRetire_range (hw : Waiting s 0x0201 port tag fl) (hpar : par fl 0 = n) (hlo : 199 < n) (hhi : n < 2 ^ 9) :
    ∃ t, exec (.phaseRetire port tag) s = .next t ∧ Completed s t fl sOUT_OF_RANGE 0 0 := by
  have hsize : ¬ 512 ≤ n := by omega
  refine ⟨_, congrArg done (command_of_fail hw (st := sOUT_OF_RANGE) ?_), (Unanswered.refl s).completed fl _ 0 0⟩
  simp [firstFail, hpar, hsize, hlo]

/-- PHASE_RETIRE of a phase that has failed. -/
theorem phaseRetire_state (hw : Waiting s 0x0201 port tag fl) (hpar : par fl 0 = n) (hn : n < 200) (hs : phState s n = psFAILED) :
    ∃ t, exec (.phaseRetire port tag) s = .next t ∧ Completed s t fl sWRONG_STATE 0 0 := by
  refine ⟨_, congrArg done (command_of_fail hw (st := sWRONG_STATE) ?_), (Unanswered.refl s).completed fl _ 0 0⟩
  rw [hpar, firstFail_phase hn, if_pos (by simp [hs])]

end

/-- A phase given back: in SOFT, its cause and its hiccups cleared (R155). -/
def restored (n : Nat) (s : State) : State :=
  s |> put (R.PST_PH_STAT.HICCUP_RUN n) 0 |> put (R.PST_PH_STAT.CAUSE n) 0 |> enterSoft n 0
    |> setPhase n { phaseOf s n with frac := 0, limRun := 0, openRun := 0, senseRun := 0, withheld := true } |> refitRail (railOfPhase n)

/-- Its share still withdrawn (R126). -/
def shareKept (n : Nat) (s : State) : State := setPhase n { phaseOf s n with withheld := true } s

/-- A rail that is LOST no more, and FAULT_N where none is (R155). -/
def lostCleared (r : Nat) (s : State) : State :=
  when ((List.range 33).all fun x => !isOn (put (R.PST_RAIL_STAT.LOST r) 0 s) (R.PST_RAIL_STAT.LOST x)) (faultOff 0) (put (R.PST_RAIL_STAT.LOST r) 0 s)

section

variable {s t u : State} {fl : Flight} {n r x port tag : Nat} {g : Field}

/-- PHASE_RESTORE of a failed phase of a rail that is not OFF, its lane in lock. -/
theorem phaseRestore_runs (hw : Waiting s 0x0202 port tag fl) (hpar : par fl 0 = n) (hn : n < 200) (hs : phState s n = psFAILED)
    (hloop : loopState s (railOfPhase n) ≠ lpOFF) (hlane : isOn s (laneOk (n / 8) (n / 4 % 2)) = true) :
    exec (.phaseRestore port tag) s = .next (finish (complete fl sOK 0 0 (shareKept n (regainRail (railOfPhase n) (restored n s))))) := by
  refine congrArg done ((command_of hw ?_).trans (by rw [hpar]; rfl))
  rw [hpar, firstFail_phase hn, if_neg (by simp [hs, hloop, hlane])]

theorem get_restored (h : Low g) (hrun : fieldKey (R.PST_PH_STAT.HICCUP_RUN n) ≠ fieldKey g) (hcause : fieldKey (R.PST_PH_STAT.CAUSE n) ≠ fieldKey g)
    (hstate : fieldKey (R.PST_PH_STAT.STATE n) ≠ fieldKey g) (htrim : fieldKey (R.PST_PH_DUTY.TRIM n) ≠ fieldKey g) :
    get (restored n s) g = get s g := by
  rw [restored, get_refitRail h, get_setPhase, get_enterSoft hstate htrim, get_put_ne hcause, get_put_ne hrun]

theorem get_restored_of_place (h : Low g) (hp : g.off * 32 + g.lo < 0x021000 * 32 ∨ 0x022000 * 32 ≤ g.off * 32 + g.lo ∧
    g.off * 32 + g.lo < 2 ^ 27) : get (restored n s) g = get s g := by
  refine get_restored h (key_ne ?_) (key_ne ?_) (key_ne ?_) (key_ne ?_) <;>
    simp only [R.PST_PH_STAT.HICCUP_RUN, R.PST_PH_STAT.CAUSE, R.PST_PH_STAT.STATE, R.PST_PH_DUTY.TRIM] <;> omega

theorem dies_restored : get (restored n s) R.GOV_CFG.N_DIES = get s R.GOV_CFG.N_DIES :=
  get_restored_of_place (aside_dies 0).toLow (.inl (by decide))

theorem lost_restored (r : Nat) : get (restored n s) (R.PST_RAIL_STAT.LOST r) = get s (R.PST_RAIL_STAT.LOST r) :=
  get_restored_of_place (beside_lost r r).toLow (.inl (by simp only [R.PST_RAIL_STAT.LOST]; omega))

/-- What a phase given back shows. -/
theorem restored_shows (hfit : phaseFitted s n = true) : phState (restored n s) n = psSOFT ∧ get (restored n s) (R.PST_PH_STAT.CAUSE n) = 0 ∧
    get (restored n s) (R.PST_PH_STAT.HICCUP_RUN n) = 0 := by
  have hcause : Low (R.PST_PH_STAT.CAUSE n) := (beside_phaseCause 0 n).toLow
  have hrun : Low (R.PST_PH_STAT.HICCUP_RUN n) := low_paged (by decide) (by omega)
  have hfit' : phaseFitted (put (R.PST_PH_STAT.CAUSE n) 0 (put (R.PST_PH_STAT.HICCUP_RUN n) 0 s)) n = true := by
    rw [phaseFitted_of, hfit]
    rw [get_put_ne (key_ne ?_), get_put_ne (key_ne ?_)] <;> simp only [R.PST_PH_STAT.CAUSE, R.PST_PH_STAT.HICCUP_RUN, R.GOV_CFG.N_DIES] <;> omega
  unfold restored
  refine ⟨?_, ?_, ?_⟩
  · rw [((PhaseStays.refl n _).refitRail _).state, phState_setPhase, phState_enterSoft hfit']
  · rw [get_refitRail hcause, get_setPhase, get_enterSoft (key_ne ?_) (key_ne ?_), get_put_self (by nofun)]
    · rfl
    all_goals simp only [R.PST_PH_STAT.STATE, R.PST_PH_STAT.CAUSE, R.PST_PH_DUTY.TRIM]; omega
  · rw [get_refitRail hrun, get_setPhase, get_enterSoft (key_ne ?_) (key_ne ?_), get_put_ne (key_ne ?_), get_put_self (by nofun)]
    · rfl
    all_goals simp only [R.PST_PH_STAT.STATE, R.PST_PH_STAT.CAUSE, R.PST_PH_STAT.HICCUP_RUN, R.PST_PH_DUTY.TRIM]; omega

theorem unanswered_restored : Unanswered s (restored n s) := by
  have hcause : (R.PST_PH_STAT.CAUSE n).off * 32 + (R.PST_PH_STAT.CAUSE n).lo < 0x120000 * 32 := by simp only [R.PST_PH_STAT.CAUSE]; omega
  have hrun : (R.PST_PH_STAT.HICCUP_RUN n).off * 32 + (R.PST_PH_STAT.HICCUP_RUN n).lo < 0x120000 * 32 := by simp only [R.PST_PH_STAT.HICCUP_RUN]; omega
  exact (Unanswered.put hrun 0 s).trans ((Unanswered.put hcause 0 _).trans ((Unanswered.enterSoft n 0 _).trans
    ((Unanswered.setPhase ..).trans (.refitRail ..))))

theorem boot_restored : (restored n s).boot = s.boot := by
  have hrefit : ∀ u, (refitRail (railOfPhase n) u).boot = u.boot := fun u =>
    (foot_refitRail (o_r := none) Names.any (Print.Sub.refl _) (Within.refl _ u)).parts .boot (by decide) (by decide)
  have hsoft : ∀ u, (enterSoft n 0 u).boot = u.boot := fun u =>
    (foot_enterSoft (o_n := none) Names.any (Print.Sub.refl _) (Within.refl _ u)).parts .boot (by decide) (by decide)
  rw [restored, hrefit, setPhase_boot, hsoft, put_boot, put_boot]

theorem itn_restored : (restored n s).itn = s.itn := by
  have hrefit : ∀ u, (refitRail (railOfPhase n) u).itn = u.itn := fun u =>
    (foot_refitRail (o_r := none) Names.any (Print.Sub.refl _) (Within.refl _ u)).parts .itn (by decide) (by decide)
  have hsoft : ∀ u, (enterSoft n 0 u).itn = u.itn := fun u =>
    (foot_enterSoft (o_n := none) Names.any (Print.Sub.refl _) (Within.refl _ u)).parts .itn (by decide) (by decide)
  rw [restored, hrefit, setPhase_itn, hsoft, put_itn, put_itn]

end

end Sys2Proof.Machine

/-! PHASE_RESTORE to a rail that is LOST: the die's rails start again (R155, R638). -/

namespace Sys2Proof.Machine

/-- From s, where a LOST rail's die is held, to u phase n comes back: no command is answered, the hold stays, and n's rail is LOST no more. -/
structure Regaining (n : Nat) (s u : State) : Prop where
  quiet : Unanswered s u
  boot : u.boot = s.boot
  dies : get u R.GOV_CFG.N_DIES = get s R.GOV_CFG.N_DIES
  lost : get u (R.PST_RAIL_STAT.LOST (railOfPhase n)) = 0
  cause : get u (R.PST_PH_STAT.CAUSE n) = 0

section

variable {s t u : State} {fl : Flight} {n r x port tag : Nat} {g : Field}

theorem railFitted_of (h : get t R.GOV_CFG.N_DIES = get s R.GOV_CFG.N_DIES) (r : Nat) : railFitted t r = railFitted s r := by
  unfold railFitted isPresent nDies
  rw [h]

theorem railFitted_phase (h : phaseFitted s n = true) : railFitted s (railOfPhase n) = true := by
  simp only [phaseFitted, Bool.and_eq_true] at h
  exact h.2

theorem Regaining.railOff (h : Regaining n s u) (hforced : x < 16 → (itnOf u x).forced = []) : Regaining n s (railOff x u) :=
  ⟨h.quiet.trans (unanswered_railOff hforced), boot_railOff.trans h.boot, (get_railOff_beside (aside_dies x).toBeside).trans h.dies,
    (get_railOff_beside (beside_lost x _)).trans h.lost, (get_railOff_beside (beside_phaseCause x n)).trans h.cause⟩

theorem Regaining.railEnable_other (h : Regaining n s u) (hx : x < 32) (hne : x ≠ railOfPhase n) (hr : railOfPhase n < 33)
    (hfit : railFitted s x = true) (hheld : bit s.boot.lostHold (x % 16) = true) : Regaining n s (railEnable x u) := by
  have hfit' := (railFitted_of h.dies x).trans hfit
  have hheld' : bit u.boot.lostHold (x % 16) = true := h.boot ▸ hheld
  exact ⟨h.quiet.trans (unanswered_railEnable hx hfit' hheld'), (boot_railEnable hx hfit' hheld').trans h.boot,
    (get_railEnable (aside_dies x) hx hfit' hheld').trans h.dies, (get_railEnable (aside_lost (by omega) hr hne) hx hfit' hheld').trans h.lost,
    (get_railEnable (aside_phaseCause x n) hx hfit' hheld').trans h.cause⟩

theorem Regaining.railEnable_own (h : Regaining n s u) (hr : railOfPhase n < 32) (hfit : phaseFitted s n = true)
    (hheld : bit s.boot.lostHold (railOfPhase n % 16) = true) (hoff : phState u n = psOFF) : Regaining n s (railEnable (railOfPhase n) u) := by
  have hfit' := (phaseFitted_of h.dies n).trans hfit
  have hheld' : bit u.boot.lostHold (railOfPhase n % 16) = true := h.boot ▸ hheld
  refine ⟨h.quiet.trans (unanswered_railEnable hr (railFitted_phase hfit') hheld'),
    (boot_railEnable hr (railFitted_phase hfit') hheld').trans h.boot, ?_, ?_, ?_⟩ <;> rw [Machine.railEnable_own hfit' hoff]
  · exact (get_railStarts (aside_dies _).toBeside).trans h.dies
  · exact (get_railStarts (beside_lost ..)).trans h.lost
  · exact (get_railStarts (beside_phaseCause ..)).trans h.cause

theorem phState_railEnable_own (hfit : phaseFitted u n = true) (hoff : phState u n = psOFF) :
    phState (railEnable (railOfPhase n) u) n = psSOFT := by
  rw [railEnable_own hfit hoff, phState_railStarts_own hfit hoff]

theorem phState_railEnable_other (hn : n < 200) (hx : x < 32) (hne : railOfPhase n ≠ x) (hfit : railFitted u x = true)
    (hheld : bit u.boot.lostHold (x % 16) = true) : phState (railEnable x u) n = phState u n :=
  phState_of (get_railEnable (aside_dies x) hx hfit hheld) (get_railEnable (aside_phaseState hn hne) hx hfit hheld)

theorem phState_railOff_other (hn : n < 200) (hne : railOfPhase n ≠ x) : phState (railOff x u) n = phState u n :=
  (phaseStays_railOff hn (.inl hne)).state

theorem loopState_railEnable_other (hx : x < 32) (hr : r < 33) (hne : x ≠ r) (hfit : railFitted u x = true)
    (hheld : bit u.boot.lostHold (x % 16) = true) : loopState (railEnable x u) r = loopState u r :=
  get_railEnable (aside_loop (by omega) hr hne) hx hfit hheld

theorem get_lostCleared (h : Low g) (hlost : fieldKey (R.PST_RAIL_STAT.LOST r) ≠ fieldKey g) : get (lostCleared r s) g = get s g := by
  have hfault : fieldKey R.SAF_FAULT ≠ fieldKey g := h.ne (by decide)
  exact (get_when (get_put_ne hfault ..)).trans (get_put_ne hlost ..)

theorem lost_lostCleared : get (lostCleared r s) (R.PST_RAIL_STAT.LOST r) = 0 := by
  have hfault : fieldKey R.SAF_FAULT ≠ fieldKey (R.PST_RAIL_STAT.LOST r) := (beside_lost r r).toLow.ne (by decide)
  exact (get_when (get_put_ne hfault ..)).trans (get_put_self (by nofun) ..)

theorem unanswered_lostCleared : Unanswered s (lostCleared r s) :=
  have hlost : (R.PST_RAIL_STAT.LOST r).off * 32 + (R.PST_RAIL_STAT.LOST r).lo < 0x120000 * 32 := by simp only [R.PST_RAIL_STAT.LOST]; omega
  (Unanswered.put hlost 0 s).trans (.when (.faultOff 0 _) _)

theorem phState_lostCleared : phState (lostCleared r s) n = phState s n := by
  have hdies := (aside_dies r)
  have hstate : Low (R.PST_PH_STAT.STATE n) := low_paged (by decide) (by omega)
  refine phState_of (get_lostCleared hdies.toLow hdies.lost) (get_lostCleared hstate (key_ne ?_))
  simp only [R.PST_RAIL_STAT.LOST, R.PST_PH_STAT.STATE]
  omega

theorem boot_lostCleared : (lostCleared r s).boot = s.boot := by
  unfold lostCleared
  cases (List.range 33).all fun x => !isOn (put (R.PST_RAIL_STAT.LOST r) 0 s) (R.PST_RAIL_STAT.LOST x)
  · rw [when_false, put_boot]
  · rw [when_true, faultOff_boot, put_boot]

theorem itn_lostCleared : (lostCleared r s).itn = s.itn := by
  unfold lostCleared
  cases (List.range 33).all fun x => !isOn (put (R.PST_RAIL_STAT.LOST r) 0 s) (R.PST_RAIL_STAT.LOST x)
  · rw [when_false, put_itn]
  · rw [when_true, faultOff_itn, put_itn]

/-- A rail that is regained: the die's rails start again where neither is LOST any more (R155). -/
theorem regainRail_of (h : isOn s (R.PST_RAIL_STAT.LOST r) = true) : regainRail r s =
    if r < 32 ∧ (!dieLost (lostCleared r s) (r % 16)) = true then
      lostCleared r s |> railOff (r % 16) |> railOff (16 + r % 16) |> railEnable (r % 16) |> railEnable (16 + r % 16)
    else lostCleared r s := if_pos h

/-- The rails of die d, switched off and started again (R155). -/
def railsAgain (d : Nat) (s : State) : State := s |> railOff d |> railOff (16 + d) |> railEnable d |> railEnable (16 + d)

/-- The rails of a held die start again, seen from a phase of one that has come back to SOFT. -/
theorem railsAgain_soft {d : Nat} (h : Regaining n s u) (hd : d < 16) (hr : railOfPhase n = d ∨ railOfPhase n = 16 + d)
    (hfit : phaseFitted s n = true) (hs : phState u n = psSOFT) (hforced : (itnOf u d).forced = [])
    (hheld : bit s.boot.lostHold d = true) (hpresent : isPresent s d = true) :
    Regaining n s (railsAgain d u) ∧ phState (railsAgain d u) n = psSOFT ∧ loopState (railsAgain d u) d = lpRAMP ∧
      loopState (railsAgain d u) (16 + d) = lpRAMP := by
  have hn := phaseFitted_lt hfit
  have hmod : (16 + d) % 16 = d ∧ d % 16 = d := by omega
  have hheldD : bit s.boot.lostHold (d % 16) = true := by rwa [hmod.2]
  have hheldM : bit s.boot.lostHold ((16 + d) % 16) = true := by rwa [hmod.1]
  have hfitD : railFitted s d = true := by simp [railFitted, hmod.2, hpresent]; omega
  have hfitM : railFitted s (16 + d) = true := by simp [railFitted, hmod.2, hpresent]; omega
  have hnotfailed : phState u n ≠ psFAILED := by rw [hs]; decide
  have h1 := h.railOff (x := d) fun _ => hforced
  have h2 := h1.railOff (x := 16 + d) fun hlt => by omega
  have hfits : ∀ {v}, Regaining n s v → phaseFitted v n = true := fun hv => (phaseFitted_of hv.dies n).trans hfit
  have hrails : ∀ {v} x, Regaining n s v → railFitted s x = true → railFitted v x = true := fun x hv hx => (railFitted_of hv.dies x).trans hx
  have hholds : ∀ {v} x, Regaining n s v → bit s.boot.lostHold x = true → bit v.boot.lostHold x = true := fun x hv hx => hv.boot ▸ hx
  rcases hr with hr | hr
  · have hoff1 : phState (railOff d u) n = psOFF := hr ▸ phState_railOff_own (hfits h) hnotfailed
    have hoff2 : phState (railOff (16 + d) (railOff d u)) n = psOFF := (phState_railOff_other hn (by omega)).trans hoff1
    have h3 : Regaining n s (railEnable d (railOff (16 + d) (railOff d u))) := by
      have := h2.railEnable_own (by omega) hfit (by rw [hr]; exact hheldD) hoff2
      rwa [hr] at this
    have hsoft3 : phState (railEnable d (railOff (16 + d) (railOff d u))) n = psSOFT := by
      have := phState_railEnable_own (hfits h2) hoff2
      rwa [hr] at this
    have h4 := h3.railEnable_other (x := 16 + d) (by omega) (by omega) (by omega) hfitM hheldM
    refine ⟨h4, (phState_railEnable_other hn (by omega) (by omega) (hrails _ h3 hfitM) (hholds _ h3 hheldM)).trans hsoft3, ?_,
      loopState_railEnable (by omega) (hrails _ h3 hfitM) (hholds _ h3 hheldM)⟩
    exact (loopState_railEnable_other (by omega) (by omega) (by omega) (hrails _ h3 hfitM) (hholds _ h3 hheldM)).trans
      (loopState_railEnable (by omega) (hrails _ h2 hfitD) (hholds _ h2 hheldD))
  · have hsoft1 : phState (railOff d u) n = psSOFT := (phState_railOff_other hn (by omega)).trans hs
    have hoff2 : phState (railOff (16 + d) (railOff d u)) n = psOFF :=
      hr ▸ phState_railOff_own (hfits h1) (by rw [hsoft1]; decide)
    have h3 := h2.railEnable_other (x := d) (by omega) (by omega) (by omega) hfitD hheldD
    have hoff3 : phState (railEnable d (railOff (16 + d) (railOff d u))) n = psOFF :=
      (phState_railEnable_other hn (by omega) (by omega) (hrails _ h2 hfitD) (hholds _ h2 hheldD)).trans hoff2
    have h4 : Regaining n s (railsAgain d u) := by
      have := h3.railEnable_own (by omega) hfit (by rw [hr]; exact hheldM) hoff3
      rwa [hr] at this
    have hsoft4 : phState (railsAgain d u) n = psSOFT := by
      have := phState_railEnable_own (hfits h3) hoff3
      rwa [hr] at this
    exact ⟨h4, hsoft4, (loopState_railEnable_other (by omega) (by omega) (by omega) (hrails _ h3 hfitM) (hholds _ h3 hheldM)).trans
      (loopState_railEnable (by omega) (hrails _ h2 hfitD) (hholds _ h2 hheldD)),
      loopState_railEnable (by omega) (hrails _ h3 hfitM) (hholds _ h3 hheldM)⟩

end

end Sys2Proof.Machine

/-! The outcomes of PHASE_RESTORE, SYNC_ACQUIRE and SYNC_LOSS (R112, R114, R115, R155). -/

namespace Sys2Proof.Machine

section

variable {s t u : State} {fl : Flight} {n r p port tag : Nat} {g : Field}

/-- PHASE_RESTORE answers once the phase is in SOFT. -/
theorem restore_answers (h : Unanswered s u) (hs : phState u n = psSOFT) (hc : get u (R.PST_PH_STAT.CAUSE n) = 0) (fl : Flight) :
    Completed s (finish (complete fl sOK 0 0 (shareKept n u))) fl sOK 0 0 ∧
      phState (finish (complete fl sOK 0 0 (shareKept n u))) n = psSOFT ∧
      get (finish (complete fl sOK 0 0 (shareKept n u))) (R.PST_PH_STAT.CAUSE n) = 0 := by
  have hkept : PhaseStays n u (shareKept n u) := .of_get fun _ _ => get_setPhase ..
  have hends := (hkept.complete fl sOK 0 0).trans (.finish _)
  exact ⟨(h.trans (.setPhase ..)).completed fl sOK 0 0, hends.state.trans hs, hends.cause.trans hc⟩

theorem get_restore_answered (h : Low g) (fl : Flight) (u : State) : get (finish (complete fl sOK 0 0 (shareKept n u))) g = get u g :=
  (get_answered h ..).trans (get_setPhase ..)

theorem regainRail_same (h : get s (R.PST_RAIL_STAT.LOST r) = 0) : regainRail r s = s := if_neg (by simp [isOn, h])

/-- PHASE_RESTORE to a rail that is not LOST. -/
theorem phaseRestore_soft (hw : Waiting s 0x0202 port tag fl) (hpar : par fl 0 = n) (hn : n < 200) (hs : phState s n = psFAILED)
    (hloop : loopState s (railOfPhase n) ≠ lpOFF) (hlane : isOn s (laneOk (n / 8) (n / 4 % 2)) = true)
    (hlost : get s (R.PST_RAIL_STAT.LOST (railOfPhase n)) = 0) :
    ∃ t, exec (.phaseRestore port tag) s = .next t ∧ Completed s t fl sOK 0 0 ∧ phState t n = psSOFT ∧
      get t (R.PST_PH_STAT.CAUSE n) = 0 ∧ get t (R.PST_PH_STAT.HICCUP_RUN n) = 0 := by
  obtain ⟨hsoft, hcause, hrun⟩ := restored_shows (phaseFitted_of_phState hs (by decide))
  have hlow : Low (R.PST_PH_STAT.HICCUP_RUN n) := low_paged (by decide) (by omega)
  obtain ⟨hcomp, hstate, hcause'⟩ := restore_answers unanswered_restored hsoft hcause fl
  refine ⟨_, phaseRestore_runs hw hpar hn hs hloop hlane, ?_⟩
  rw [regainRail_same ((lost_restored _).trans hlost)]
  exact ⟨hcomp, hstate, hcause', (get_restore_answered hlow fl _).trans hrun⟩

theorem lostCleared_cause : get (lostCleared r s) (R.PST_PH_STAT.CAUSE n) = get s (R.PST_PH_STAT.CAUSE n) :=
  get_lostCleared (beside_phaseCause r n).toLow (aside_phaseCause r n).lost

theorem isOn_restored (h : isOn s (R.PST_RAIL_STAT.LOST r) = true) : isOn (restored n s) (R.PST_RAIL_STAT.LOST r) = true := by
  unfold isOn at *
  rwa [lost_restored]

/-- PHASE_RESTORE to VLINK (R155). -/
theorem phaseRestore_vlink (hw : Waiting s 0x0202 port tag fl) (hpar : par fl 0 = n) (hlo : 191 < n) (hhi : n < 200) (hs : phState s n = psFAILED)
    (hloop : loopState s 32 ≠ lpOFF) (hlane : isOn s (laneOk (n / 8) (n / 4 % 2)) = true) (hlost : isOn s (R.PST_RAIL_STAT.LOST 32) = true) :
    ∃ t, exec (.phaseRestore port tag) s = .next t ∧ Completed s t fl sOK 0 0 ∧ phState t n = psSOFT ∧
      get t (R.PST_PH_STAT.CAUSE n) = 0 ∧ get t (R.PST_RAIL_STAT.LOST 32) = 0 := by
  have hrail : railOfPhase n = 32 := by unfold railOfPhase; split_ifs <;> omega
  obtain ⟨hsoft, hcause, -⟩ := restored_shows (phaseFitted_of_phState hs (by decide))
  obtain ⟨hcomp, hstate, hcause'⟩ := restore_answers (unanswered_restored.trans (unanswered_lostCleared (r := 32)))
    (phState_lostCleared.trans hsoft) (lostCleared_cause.trans hcause) fl
  refine ⟨_, phaseRestore_runs hw hpar hhi hs (by rwa [hrail]) hlane, ?_⟩
  rw [hrail, regainRail_of (isOn_restored hlost), if_neg (by omega)]
  exact ⟨hcomp, hstate, hcause', (get_restore_answered (beside_lost 32 32).toLow fl _).trans lost_lostCleared⟩

/-- PHASE_RESTORE to a LOST rail of a held die, whose other rail is not LOST (R155, R638). -/
theorem phaseRestore_restarts (hw : Waiting s 0x0202 port tag fl) (hpar : par fl 0 = n) (hn : n < 192) (hr : r = railOfPhase n)
    (hs : phState s n = psFAILED) (hloop : loopState s r ≠ lpOFF) (hlane : isOn s (laneOk (n / 8) (n / 4 % 2)) = true)
    (hlost : isOn s (R.PST_RAIL_STAT.LOST r) = true) (hother : get s (R.PST_RAIL_STAT.LOST (otherRail r)) = 0)
    (hheld : bit s.boot.lostHold (r % 16) = true) (hforced : (itnOf s (r % 16)).forced = []) (hpresent : isPresent s (r % 16) = true) :
    ∃ t, exec (.phaseRestore port tag) s = .next t ∧ Completed s t fl sOK 0 0 ∧ phState t n = psSOFT ∧ get t (R.PST_PH_STAT.CAUSE n) = 0 ∧
      get t (R.PST_RAIL_STAT.LOST r) = 0 ∧ loopState t r = lpRAMP ∧ loopState t (otherRail r) = lpRAMP := by
  have hfit := phaseFitted_of_phState hs (by decide)
  have hlt : r < 32 := by rw [hr]; unfold railOfPhase; split_ifs <;> omega
  obtain ⟨hsoft, hcause, -⟩ := restored_shows hfit
  have hcleared : Regaining n s (lostCleared r (restored n s)) :=
    ⟨unanswered_restored.trans unanswered_lostCleared, boot_lostCleared.trans boot_restored,
      (get_lostCleared (aside_dies r).toLow (aside_dies r).lost).trans dies_restored, hr ▸ lost_lostCleared, lostCleared_cause.trans hcause⟩
  have hagain := railsAgain_soft (d := r % 16) hcleared (by omega) (by omega) hfit (phState_lostCleared.trans hsoft)
    ((congrArg ItnD.forced (itnOf_of (itn_lostCleared.trans itn_restored) _)).trans hforced) hheld hpresent
  obtain ⟨hregained, hsoft', hloopD, hloopM⟩ := hagain
  have hnotlost : (!dieLost (lostCleared r (restored n s)) (r % 16)) = true := by
    have hzero : ∀ x < 33, x = r ∨ x = otherRail r → get (lostCleared r (restored n s)) (R.PST_RAIL_STAT.LOST x) = 0 := by
      intro x hx33 hx
      by_cases hxr : x = r
      · rw [hxr, lost_lostCleared]
      · rw [get_lostCleared (beside_lost r x).toLow (aside_lost (by omega) hx33 (Ne.symm hxr)).lost, lost_restored, hx.resolve_left hxr, hother]
    have hboth : ∀ x, x = r % 16 ∨ x = 16 + r % 16 → x < 33 ∧ (x = r ∨ x = otherRail r) := fun x hx => by
      unfold otherRail
      split_ifs <;> omega
    simp [dieLost, isOn, hzero _ (hboth _ (.inl rfl)).1 (hboth _ (.inl rfl)).2, hzero _ (hboth _ (.inr rfl)).1 (hboth _ (.inr rfl)).2]
  have hregain : regainRail (railOfPhase n) (restored n s) = railsAgain (r % 16) (lostCleared r (restored n s)) := by
    rw [← hr, regainRail_of (isOn_restored hlost), if_pos ⟨hlt, hnotlost⟩]
    rfl
  obtain ⟨hcomp, hstate, hcause'⟩ := restore_answers hregained.quiet hsoft' hregained.cause fl
  have hlow : ∀ x, Low (R.LPE_STAT.STATE x) := fun x => low_paged (by decide) (by omega)
  have hloops : ∀ x, x = r % 16 ∨ x = 16 + r % 16 → loopState (railsAgain (r % 16) (lostCleared r (restored n s))) x = lpRAMP := by
    rintro x (rfl | rfl)
    · exact hloopD
    · exact hloopM
  refine ⟨_, phaseRestore_runs hw hpar (by omega) hs (hr ▸ hloop) hlane, ?_⟩
  rw [hregain]
  refine ⟨hcomp, hstate, hcause', (get_restore_answered (beside_lost r r).toLow fl _).trans (hr ▸ hregained.lost),
    (get_restore_answered (hlow r) fl _).trans (hloops r (by omega)), (get_restore_answered (hlow _) fl _).trans (hloops _ ?_)⟩
  unfold otherRail
  split_ifs <;> omega

end

section

variable {s : State} {p : Nat}

/-- SYNC_ACQUIRE of a period within reach (R112, R113, R115). -/
theorem syncAcquire_locks (hacq : acquiring s = true) (hrun : s.clk.syncRun = 64) (hnear : s.clk.nearRun = 16) (hlo : 784 ≤ p) (hhi : p ≤ 816) :
    ∃ t, exec (.syncAcquire p) s = .next t ∧ get t R.PST_SYNC_STAT.LOCK = 1 ∧ (∀ e, switchPeriod t ⟨p, e⟩ = p) ∧
      get t R.CLK_STATUS.SYNC_LOST = 0 := by
  let t := finish (put R.CLK_STATUS.SYNC_LOST 0 (put R.PST_SYNC_STAT.LOCK 1 s))
  have hget : ∀ g, Low g → get t g = get (put R.CLK_STATUS.SYNC_LOST 0 (put R.PST_SYNC_STAT.LOCK 1 s)) g := fun g h => get_finish_low h
  have hlow : Low R.PST_SYNC_STAT.LOCK ∧ Low R.CLK_STATUS.SYNC_LOST ∧ Low R.CLK_STATUS.STATE :=
    ⟨low_of nofun (by decide) (by decide) (by decide) (by decide), low_of nofun (by decide) (by decide) (by decide) (by decide),
      low_of nofun (by decide) (by decide) (by decide) (by decide)⟩
  have hlock : get t R.PST_SYNC_STAT.LOCK = 1 := by
    rw [hget _ hlow.1, get_put_ne (by decide), get_put_self (by nofun)]
    rfl
  have hstate : clkState t = 2 := by
    have hclk : clkState s = 2 := by
      simp only [acquiring, Bool.and_eq_true, decide_eq_true_eq] at hacq
      exact hacq.1.1
    rw [clkState, hget _ hlow.2.2, get_put_ne (by decide), get_put_ne (by decide)]
    exact hclk
  refine ⟨t, congrArg done (if_pos ⟨hacq, hrun, hnear, hlo, hhi⟩), hlock, fun e => ?_, ?_⟩
  · have hon : isOn t R.PST_SYNC_STAT.LOCK = true := by simp [isOn, hlock]
    rw [switchPeriod, if_pos hstate, if_pos hon]
    simp only [clampN]
    omega
  · exact (hget _ hlow.2.1).trans (get_put_self (by nofun) ..)

/-- SYNC_ACQUIRE where it does not apply. -/
theorem syncAcquire_same (hfresh : s.log.fresh = [])
    (hno : acquiring s = false ∨ s.clk.syncRun ≠ 64 ∨ s.clk.nearRun ≠ 16 ∨ p < 784 ∨ 816 < p) : exec (.syncAcquire p) s = .next s := by
  have hnot : ¬ (acquiring s = true ∧ s.clk.syncRun = 64 ∧ s.clk.nearRun = 16 ∧ 784 ≤ p ∧ p ≤ 816) := by
    rintro ⟨hacq, hrun, hnear, hlo, hhi⟩
    rw [hacq] at hno
    simp at hno
    omega
  exact (congrArg done (if_neg hnot)).trans (congrArg _ (finish_same hfresh))

/-- SYNC_LOSS (R114). -/
theorem syncLoss_frees (hlock : isOn s R.PST_SYNC_STAT.LOCK = true) :
    ∃ t, exec .syncLoss s = .next t ∧ get t R.PST_SYNC_STAT.LOCK = 0 ∧ t.clk.next = 800 ∧ t.clk.syncRun = 0 ∧ t.clk.nearRun = 0 ∧
      bit (get t R.PST_EVENT) 5 = true := by
  have hlow : Low R.PST_SYNC_STAT.LOCK ∧ Low R.PST_EVENT :=
    ⟨low_of nofun (by decide) (by decide) (by decide) (by decide), low_of nofun (by decide) (by decide) (by decide) (by decide)⟩
  refine ⟨_, congrArg done (if_pos hlock), ?_⟩
  rw [get_finish_low hlow.1, get_finish_low hlow.2, clk_finish, get_event_ne (by decide), get_put_self (by nofun), event, put_clk, put_clk]
  exact ⟨rfl, rfl, rfl, rfl, bit_event_self (by nofun) (by decide) _⟩

end

/-- Settles O6, a lemma for each clause. -/
theorem syncAndPhaseCommands : Obligations.SyncAndPhaseCommands :=
  ⟨fun _ _ => syncAcquire_locks, fun _ => syncLoss_frees, fun _ _ => syncAcquire_same, fun _ _ _ _ _ => phaseRetire_fails,
    fun _ _ _ _ _ => phaseRestore_soft, fun _ _ _ _ _ _ => phaseRestore_restarts, fun _ _ _ _ _ => phaseRestore_vlink,
    fun _ _ _ _ _ => phaseRetire_range, fun _ _ _ _ _ => phaseRetire_state⟩

end Sys2Proof.Machine

/-! The board converters over PMBus: what the transactions with one converter leave of another (R148 to R153). -/

namespace Sys2Proof.Machine

/-- A register of converter c (R148, R149, R152). -/
structure OfConv (c : Nat) (g : Field) : Prop extends Low g where
  window : (0x020100 + 4 * c) * 32 ≤ g.off * 32 + g.lo ∧ g.off * 32 + g.lo < (0x020104 + 4 * c) * 32 ∨
    (0x020120 + 4 * c) * 32 ≤ g.off * 32 + g.lo ∧ g.off * 32 + g.lo < (0x020124 + 4 * c) * 32 ∨
    (0x020140 + 0x10 * c) * 32 ≤ g.off * 32 + g.lo ∧ g.off * 32 + g.lo < (0x020150 + 0x10 * c) * 32

/-- The registers of a converter that transactions write (R149, R151 to R153). -/
def convWritten (c : Nat) : List Field :=
  [R.PST_PMB_STAT.NO_RESP c, R.PST_PMB_DATA.VIN c, R.PST_PMB_DATA.IIN c, R.PST_PMB_DATA.VOUT c, R.PST_PMB_DATA.IOUT c, R.PST_PMB_DATA.TEMP c,
    R.PST_PMB_STAT.STATUS_WORD c, R.PST_PMB_STAT.CONV_FAULT c, R.PST_PMB_STAT.NO_AUTO_CLR c]

/-- The registers of a converter that say how it is reached (R148, R150). -/
def convSettings (c : Nat) : List Field :=
  [R.PST_PMB_CONV.ADDR c, R.PST_PMB_CONV.EN c, R.PST_PMB_CONV.PAGE c, R.PST_PMB_CONV.VOUT_EXP c]

section

variable {s t u : State} {c e : Nat} {g f : Field}

theorem ofConv_written (hc : c < 8) (h : g ∈ convWritten c) : OfConv c g := by
  simp only [convWritten, List.mem_cons, List.not_mem_nil, or_false] at h
  rcases h with rfl | rfl | rfl | rfl | rfl | rfl | rfl | rfl | rfl <;>
    refine ⟨low_paged (by decide) (by omega), ?_⟩ <;>
    simp only [R.PST_PMB_STAT.NO_RESP, R.PST_PMB_STAT.STATUS_WORD, R.PST_PMB_STAT.CONV_FAULT, R.PST_PMB_STAT.NO_AUTO_CLR, R.PST_PMB_DATA.VIN,
      R.PST_PMB_DATA.IIN, R.PST_PMB_DATA.VOUT, R.PST_PMB_DATA.IOUT, R.PST_PMB_DATA.TEMP] <;> omega

theorem ofConv_setting (hc : c < 8) (h : g ∈ convSettings c) : OfConv c g := by
  simp only [convSettings, List.mem_cons, List.not_mem_nil, or_false] at h
  rcases h with rfl | rfl | rfl | rfl <;>
    refine ⟨low_paged (by decide) (by omega), ?_⟩ <;>
    simp only [R.PST_PMB_CONV.ADDR, R.PST_PMB_CONV.EN, R.PST_PMB_CONV.PAGE, R.PST_PMB_CONV.VOUT_EXP] <;> omega

theorem OfConv.ne (hf : OfConv e f) (hg : OfConv c g) (he : e < 8) (hc : c < 8) (hne : e ≠ c) : fieldKey f ≠ fieldKey g := by
  have hfp := hf.window
  have hgp := hg.window
  exact key_ne_of_lt (by omega) (by omega) (by omega)

theorem OfConv.event_ne (h : OfConv c g) (hc : c < 8) : fieldKey R.PST_EVENT ≠ fieldKey g := by
  have hgp := h.window
  exact key_ne_of_lt (by decide) (by omega) (by simp only [R.PST_EVENT]; omega)

/-- From s to t no event of the stage controller is cleared, and nothing that was sent is taken back. -/
structure Grows (s t : State) : Prop where
  events : ∀ b < 9, bit (get s R.PST_EVENT) b = true → bit (get t R.PST_EVENT) b = true
  out : s.out ⊆ t.out

namespace Grows

theorem refl (s : State) : Grows s s := ⟨fun _ _ h => h, List.Subset.refl _⟩

theorem trans (h : Grows s t) (k : Grows t u) : Grows s u :=
  ⟨fun b hb hs => k.events b hb (h.events b hb hs), List.Subset.trans h.out k.out⟩

theorem of_eq (he : get t R.PST_EVENT = get s R.PST_EVENT) (ho : t.out = s.out) : Grows s t :=
  ⟨fun _ _ h => he ▸ h, ho ▸ List.Subset.refl _⟩

theorem put (hf : fieldKey f ≠ fieldKey R.PST_EVENT) (v : Nat) (s : State) : Grows s (put f v s) := of_eq (get_put_ne hf v s) (put_out ..)

theorem ofConv (hf : OfConv e f) (he : e < 8) (v : Nat) (s : State) : Grows s (Machine.put f v s) := put (hf.event_ne he).symm v s

theorem event (b : Nat) (s : State) : Grows s (event R.PST_EVENT b s) :=
  ⟨fun _ hb h => bit_event_of_bit (by decide) hb b h, out_subset_of_eq (put_out ..)⟩

theorem emit (o : Out) (s : State) : Grows s (emit o s) := ⟨fun _ _ h => h, out_subset_emit o s⟩

theorem record (code arg : Nat) (s : State) : Grows s (record code arg s) := of_eq (get_record ..) (record_out ..)

theorem when {h : State → State} (hh : ∀ u, Grows u (h u)) (b : Bool) (s : State) : Grows s (when b h s) := by
  cases b
  · exact refl s
  · exact hh s

theorem each {α : Type} {h : α → State → State} {l : List α} (hh : ∀ x ∈ l, ∀ u, Grows u (h x u)) (s : State) : Grows s (each l h s) :=
  each_induct (P := Grows s) (fun x hx u hu => hu.trans (hh x hx u)) (refl s)

theorem sendPmb (c cmd v : Nat) (s : State) : Grows s (sendPmb c cmd v s) := emit ..

theorem transaction (hc : c < 8) (good : Bool) (s : State) : Grows s (transaction c good s) := by
  have hresp := ofConv_written hc (g := R.PST_PMB_STAT.NO_RESP c) (by simp [convWritten])
  unfold Machine.transaction
  split
  · exact ofConv hresp hc 0 s
  · exact (ofConv hresp hc 1 s).trans ((event 7 _).trans (record ..))

theorem pageRound (hc : c < 8) (good : Bool) (s : State) : Grows s (pageRound c good s) := by
  unfold Machine.pageRound
  exact when (fun u => (sendPmb ..).trans (transaction hc good _)) _ s

theorem readWord (hc : c < 8) {w : Option Nat} {h : Nat → State → State} (hh : ∀ v u, Grows u (h v u)) (s : State) :
    Grows s (readWord c w h s) := by
  unfold Machine.readWord
  split
  · split
    · exact (transaction hc true s).trans (hh ..)
    · exact transaction hc false s
  · exact transaction hc false s

/-- What follows the PAGE write of a poll. -/
theorem readings (hc : c < 8) (r : Round) (s : State) : Grows (Machine.pageRound c r.page s) (pollOne c r s) := by
  have hput : ∀ g ∈ convWritten c, ∀ v u, Grows u (Machine.put g v u) := fun g hg v u => ofConv (ofConv_written hc hg) hc v u
  unfold Machine.pollOne
  refine (readWord hc ?_ _).trans ((readWord hc ?_ _).trans ((readWord hc ?_ _).trans ((readWord hc ?_ _).trans
    ((readWord hc ?_ _).trans (readWord hc ?_ _))))) <;> exact fun v u => hput _ (by simp [convWritten]) _ u

theorem pollOne (hc : c < 8) (r : Round) (s : State) : Grows s (pollOne c r s) := (pageRound hc _ s).trans (readings hc r s)

theorem clearSent (hc : c < 8) (good : Bool) (s : State) : Grows s (clearSent c good s) := by
  unfold Machine.clearSent
  exact Grows.trans (t := setConv c ⟨some s.us⟩ s) (of_eq rfl rfl) ((sendPmb ..).trans (transaction hc good _))

theorem autoClear (hc : c < 8) (good : Bool) (s : State) : Grows s (autoClear c good s) := by
  have hclr := ofConv_written hc (g := R.PST_PMB_STAT.NO_AUTO_CLR c) (by simp [convWritten])
  unfold Machine.autoClear
  split
  · exact refl s
  · split
    · split
      · exact ofConv hclr hc 1 s
      · exact clearSent hc good s
    · exact clearSent hc good s

theorem alertOne (hc : c < 8) (r : Round) (s : State) : Grows s (alertOne c r s) := by
  have hput : ∀ g ∈ convWritten c, ∀ v u, Grows u (Machine.put g v u) := fun g hg v u => ofConv (ofConv_written hc hg) hc v u
  unfold Machine.alertOne
  refine (pageRound hc _ s).trans (readWord hc (fun v u => (hput _ (by simp [convWritten]) v u).trans (when (fun x => ?_) _ _)) _)
  exact (hput _ (by simp [convWritten]) 1 x).trans ((event 6 _).trans ((record ..).trans (autoClear hc _ _)))

theorem finish (s : State) : Grows s (finish s) :=
  of_eq (get_finish_low (low_of nofun (by decide) (by decide) (by decide) (by decide))) (out_finish s)

end Grows

/-- From s to t converter c is as before. -/
structure ConvStays (c : Nat) (s t : State) : Prop extends Grows s t where
  regs : ∀ g, OfConv c g → get t g = get s g
  conv : convOf t c = convOf s c
  us : t.us = s.us
  limit : get t R.CAP_PKG_ILIM.IIN_LIM = get s R.CAP_PKG_ILIM.IIN_LIM

theorem ConvStays.refl (c : Nat) (s : State) : ConvStays c s s := ⟨.refl s, fun _ _ => rfl, rfl, rfl, rfl⟩

theorem ConvStays.trans (h : ConvStays c s t) (k : ConvStays c t u) : ConvStays c s u :=
  ⟨h.toGrows.trans k.toGrows, fun g hg => (k.regs g hg).trans (h.regs g hg), k.conv.trans h.conv, k.us.trans h.us, k.limit.trans h.limit⟩

/-- What keeps a register from the transactions with converter e. -/
structure OffConv (e : Nat) (g : Field) : Prop where
  written : ∀ f ∈ convWritten e, fieldKey f ≠ fieldKey g
  event : fieldKey R.PST_EVENT ≠ fieldKey g

theorem free_pollOne (h : OffConv e g) : (fp_pollOne (some e)).Free g := by
  have hw := h.written
  simp only [convWritten, List.forall_mem_cons] at hw
  obtain ⟨hresp, hvin, hiin, hvout, hiout, htemp, hword, -⟩ := hw
  simp only [fp_pollOne, fp_pageRound, fp_sendPmb, fp_transaction, fp_record, fp_recordAt, fp_readWord, Print.free_cons, Print.free_nil,
    Print.free_reg, free_reg1_some, Print.free_prt, and_true, true_and]
  exact ⟨hvin, hiin, hvout, hiout, htemp, hword, ⟨hresp, h.event⟩, hresp, h.event⟩

theorem free_autoClear (h : OffConv e g) : (fp_autoClear (some e)).Free g := by
  have hw := h.written
  simp only [convWritten, List.forall_mem_cons] at hw
  obtain ⟨hresp, -, -, -, -, -, -, -, hclr, -⟩ := hw
  simp only [fp_autoClear, fp_clearSent, fp_sendPmb, fp_transaction, fp_record, fp_recordAt, Print.free_cons, Print.free_nil,
    Print.free_reg, free_reg1_some, Print.free_prt, Print.free_row, and_true, true_and]
  exact ⟨hclr, hresp, h.event⟩

theorem free_alertOne (h : OffConv e g) : (fp_alertOne (some e)).Free g := by
  have hw := h.written
  simp only [convWritten, List.forall_mem_cons] at hw
  obtain ⟨hresp, -, -, -, -, -, hword, hfault, -⟩ := hw
  simp only [fp_alertOne, fp_pageRound, fp_sendPmb, fp_transaction, fp_record, fp_recordAt, fp_readWord, Print.free_cons, Print.free_nil,
    Print.free_reg, free_reg1_some, Print.free_prt, and_true, true_and, free_autoClear h]
  exact ⟨hword, hfault, h.event, ⟨hresp, h.event⟩, hresp, h.event⟩

theorem offConv_of (he : e < 8) (hc : c < 8) (hne : e ≠ c) (hg : OfConv c g) : OffConv e g :=
  ⟨fun _ hf => (ofConv_written he hf).ne hg he hc hne, hg.event_ne hc⟩

theorem offConv_limit (he : e < 8) : OffConv e R.CAP_PKG_ILIM.IIN_LIM := by
  refine ⟨fun f hf => ?_, by decide⟩
  have hplace := (ofConv_written he hf).window
  exact key_ne_of_lt (by omega) (by decide) (by simp only [R.CAP_PKG_ILIM.IIN_LIM]; omega)

/-- The readings of one converter leave another. -/
theorem convStays_pollOne (he : e < 8) (hc : c < 8) (hne : e ≠ c) (r : Round) (s : State) : ConvStays c s (pollOne e r s) := by
  have hfoot := foot_pollOne (r := r) (Names.one (d := e)) (Print.Sub.refl _) (Within.refl _ s)
  have hparts := foot_pollOne (c := e) (r := r) (o_c := none) Names.any (Print.Sub.refl _) (Within.refl _ s)
  exact ⟨.pollOne he r s, fun g hg => hfoot.get (free_pollOne (offConv_of he hc hne hg)), convOf_of (hparts.parts .pmb (by decide) (by decide)) c,
    hparts.parts .us (by decide) (by decide), hfoot.get (free_pollOne (offConv_limit he))⟩

/-- The alert of one converter leaves another. -/
theorem convStays_alertOne (he : e < 8) (hc : c < 8) (hne : e ≠ c) (r : Round) (s : State) : ConvStays c s (alertOne e r s) := by
  have hfoot := foot_alertOne (r := r) (Names.one (d := e)) (Print.Sub.refl _) (Within.refl _ s)
  have hparts := foot_alertOne (c := e) (r := r) (o_c := none) Names.any (Print.Sub.refl _) (Within.refl _ s)
  have hcells : (fp_alertOne (some e)).cells = [.conv e] := rfl
  have hnot : Cell.conv c ∉ (fp_alertOne (some e)).cells := by
    rw [hcells]
    simp [Ne.symm hne]
  exact ⟨.alertOne he r s, fun g hg => hfoot.get (free_alertOne (offConv_of he hc hne hg)), hfoot.cells (.conv c) hnot nofun,
    hparts.parts .us (by decide) (by decide), hfoot.get (free_alertOne (offConv_limit he))⟩

end

end Sys2Proof.Machine

/-! PMB_POLL and PMB_ALERT (R148 to R153). -/

namespace Sys2Proof.Machine

section

variable {s t u : State} {c v w : Nat} {g : Field}

theorem readWord_of (hv : v < 2 ^ 16) (f : Nat → State → State) (s : State) :
    readWord c (some v) f s = f v (put (R.PST_PMB_STAT.NO_RESP c) 0 s) := by
  simp only [readWord, hv, if_true]
  rfl

theorem get_pageRound_true (h : fieldKey (R.PST_PMB_STAT.NO_RESP c) ≠ fieldKey g) (s : State) : get (pageRound c true s) g = get s g :=
  get_when (get_put_ne h ..)

theorem fromVout_of (h : get t (R.PST_PMB_CONV.VOUT_EXP c) = get s (R.PST_PMB_CONV.VOUT_EXP c)) (w : Nat) : fromVout t c w = fromVout s c w := by
  have hexp : getI t (R.PST_PMB_CONV.VOUT_EXP c) = getI s (R.PST_PMB_CONV.VOUT_EXP c) := congrArg _ h
  unfold fromVout
  rw [hexp]

theorem fromVout_lt (s : State) (c w : Nat) : fromVout s c w < 2 ^ 16 := by
  unfold fromVout
  exact Nat.lt_of_le_of_lt (Nat.min_le_left ..) (by decide)

/-- What converter c shows after six readings (R149), the voltage by its exponent in s. -/
structure Polled (s : State) (c v i o io tp w : Nat) (t : State) : Prop where
  vin : get t (R.PST_PMB_DATA.VIN c) = (clampI 0 0xFFFF (linear11 v 8000)).toNat
  iin : getI t (R.PST_PMB_DATA.IIN c) = satI (linear11 i 256) 24
  vout : get t (R.PST_PMB_DATA.VOUT c) = fromVout s c o
  iout : getI t (R.PST_PMB_DATA.IOUT c) = satI (linear11 io 256) 24
  temp : getI t (R.PST_PMB_DATA.TEMP c) = satI (linear11 tp 16) 16
  word : get t (R.PST_PMB_STAT.STATUS_WORD c) = w
  resp : get t (R.PST_PMB_STAT.NO_RESP c) = 0

theorem Polled.of_regs {i o io tp : Nat} (h : Polled s c v i o io tp w t) (hc : c < 8) (k : ∀ g, OfConv c g → get u g = get t g) :
    Polled s c v i o io tp w u := by
  have hkeep : ∀ g ∈ convWritten c, get u g = get t g := fun g hg => k g (ofConv_written hc hg)
  simp only [convWritten, List.forall_mem_cons] at hkeep
  obtain ⟨hresp, hvin, hiin, hvout, hiout, htemp, hword, -⟩ := hkeep
  exact ⟨hvin.trans h.vin, (congrArg _ hiin).trans h.iin, hvout.trans h.vout, (congrArg _ hiout).trans h.iout, (congrArg _ htemp).trans h.temp,
    hword.trans h.word, hresp.trans h.resp⟩

/-- A reading placed after a transaction that succeeds (R149, R151). -/
def readingPut (c : Nat) (f : Field) (v : Nat) (s : State) : State := s |> put (R.PST_PMB_STAT.NO_RESP c) 0 |> put f v

theorem get_readingPut {f : Field} (hresp : fieldKey (R.PST_PMB_STAT.NO_RESP c) ≠ fieldKey g) (hf : fieldKey f ≠ fieldKey g) (v : Nat) (s : State) :
    get (readingPut c f v s) g = get s g :=
  (get_put_ne hf ..).trans (get_put_ne hresp ..)

theorem get_readingPut_self {f : Field} (hf : f.cls ≠ Ret.fuse) (v : Nat) (s : State) : get (readingPut c f v s) f = v % 2 ^ f.w :=
  get_put_self hf ..

/-- What six readings of a converter write. -/
def readingsPut (c vin iin vout iout temp w : Nat) (s : State) : State :=
  s |> readingPut c (R.PST_PMB_DATA.VIN c) vin |> readingPut c (R.PST_PMB_DATA.IIN c) iin |> readingPut c (R.PST_PMB_DATA.VOUT c) vout
    |> readingPut c (R.PST_PMB_DATA.IOUT c) iout |> readingPut c (R.PST_PMB_DATA.TEMP c) temp
    |> readingPut c (R.PST_PMB_STAT.STATUS_WORD c) w

/-- No two registers of a converter that transactions write share a cell. -/
theorem pairwise_convWritten : ∀ c < 8, (convWritten c).Pairwise fun f g => fieldKey f ≠ fieldKey g ∧ fieldKey g ≠ fieldKey f := by decide

theorem get_readingsPut (hc : c < 8) (vin iin vout iout temp w : Nat) (s : State) :
    get (readingsPut c vin iin vout iout temp w s) (R.PST_PMB_DATA.VIN c) = vin % 2 ^ 16 ∧
    get (readingsPut c vin iin vout iout temp w s) (R.PST_PMB_DATA.IIN c) = iin % 2 ^ 32 ∧
    get (readingsPut c vin iin vout iout temp w s) (R.PST_PMB_DATA.VOUT c) = vout % 2 ^ 16 ∧
    get (readingsPut c vin iin vout iout temp w s) (R.PST_PMB_DATA.IOUT c) = iout % 2 ^ 32 ∧
    get (readingsPut c vin iin vout iout temp w s) (R.PST_PMB_DATA.TEMP c) = temp % 2 ^ 16 ∧
    get (readingsPut c vin iin vout iout temp w s) (R.PST_PMB_STAT.STATUS_WORD c) = w % 2 ^ 16 ∧
    get (readingsPut c vin iin vout iout temp w s) (R.PST_PMB_STAT.NO_RESP c) = 0 := by
  have hpair := pairwise_convWritten c hc
  simp only [convWritten, List.pairwise_cons, List.forall_mem_cons] at hpair
  obtain ⟨⟨hrv, hri, hro, hrj, hrt, hrw, -⟩, ⟨hvi, hvo, hvj, hvt, hvw, -⟩, ⟨hio, hij, hit, hiw, -⟩, ⟨hoj, hot, how, -⟩, ⟨hjt, hjw, -⟩,
    ⟨htw, -⟩, -⟩ := hpair
  unfold readingsPut
  refine ⟨?_, ?_, ?_, ?_, ?_, get_readingPut_self (by nofun) .., ?_⟩
  · rw [get_readingPut hrv.1 hvw.2, get_readingPut hrv.1 hvt.2, get_readingPut hrv.1 hvj.2, get_readingPut hrv.1 hvo.2,
      get_readingPut hrv.1 hvi.2]
    exact get_readingPut_self (by nofun) ..
  · rw [get_readingPut hri.1 hiw.2, get_readingPut hri.1 hit.2, get_readingPut hri.1 hij.2, get_readingPut hri.1 hio.2]
    exact get_readingPut_self (by nofun) ..
  · rw [get_readingPut hro.1 how.2, get_readingPut hro.1 hot.2, get_readingPut hro.1 hoj.2]
    exact get_readingPut_self (by nofun) ..
  · rw [get_readingPut hrj.1 hjw.2, get_readingPut hrj.1 hjt.2]
    exact get_readingPut_self (by nofun) ..
  · rw [get_readingPut hrt.1 htw.2]
    exact get_readingPut_self (by nofun) ..
  · exact (get_put_ne hrw.2 ..).trans (get_put_self (by nofun) ..)

/-- The six readings of a converter that answers (R149). -/
theorem polled_pollOne {i o io tp : Nat} (hc : c < 8) (hv : v < 2 ^ 16) (hi : i < 2 ^ 16) (ho : o < 2 ^ 16) (hio : io < 2 ^ 16) (htp : tp < 2 ^ 16)
    (hw : w < 2 ^ 16) (s : State) : Polled s c v i o io tp w (pollOne c ⟨true, [v, i, o, io, tp, w]⟩ s) := by
  have hexp : ∀ a b, fromVout (put (R.PST_PMB_STAT.NO_RESP c) 0 (putI (R.PST_PMB_DATA.IIN c) b (put (R.PST_PMB_STAT.NO_RESP c) 0
      (put (R.PST_PMB_DATA.VIN c) a (put (R.PST_PMB_STAT.NO_RESP c) 0 (pageRound c true s)))))) c o = fromVout s c o := fun a b => by
    refine fromVout_of ?_ o
    rw [putI, get_put_ne (key_ne ?_), get_put_ne (key_ne ?_), get_put_ne (key_ne ?_), get_put_ne (key_ne ?_), get_put_ne (key_ne ?_),
      get_pageRound_true (key_ne ?_)] <;>
      simp only [R.PST_PMB_STAT.NO_RESP, R.PST_PMB_DATA.IIN, R.PST_PMB_DATA.VIN, R.PST_PMB_CONV.VOUT_EXP] <;> omega
  have hone : pollOne c ⟨true, [v, i, o, io, tp, w]⟩ s = readingsPut c (clampI 0 0xFFFF (linear11 v 8000)).toNat
      (ofSigned 32 (satI (linear11 i 256) 24)) (fromVout s c o) (ofSigned 32 (satI (linear11 io 256) 24))
      (ofSigned 16 (satI (linear11 tp 16) 16)) w (pageRound c true s) := by
    simp only [pollOne, List.getElem?_cons_zero, List.getElem?_cons_succ, readWord_of hv, readWord_of hi, readWord_of ho, readWord_of hio,
      readWord_of htp, readWord_of hw, hexp]
    rfl
  have hclamp : (clampI 0 0xFFFF (linear11 v 8000)).toNat < 2 ^ 16 := by
    unfold clampI
    omega
  have hcurrent : ∀ x, toSigned 32 (ofSigned 32 (satI x 24) % 2 ^ 32) = satI x 24 := fun x => by
    have hrange : -2 ^ 23 ≤ satI x 24 ∧ satI x 24 < 2 ^ 23 := satI_range 23 x
    rw [toSigned_mod, toSigned_ofSigned] <;> omega
  have htemp : ∀ x, toSigned 16 (ofSigned 16 (satI x 16) % 2 ^ 16) = satI x 16 := fun x => by
    rw [toSigned_mod, toSigned_ofSigned (satI_range 15 x).1 (satI_range 15 x).2]
  obtain ⟨gvin, giin, gvout, giout, gtemp, gword, gresp⟩ := get_readingsPut hc (clampI 0 0xFFFF (linear11 v 8000)).toNat
    (ofSigned 32 (satI (linear11 i 256) 24)) (fromVout s c o) (ofSigned 32 (satI (linear11 io 256) 24))
    (ofSigned 16 (satI (linear11 tp 16) 16)) w (pageRound c true s)
  rw [hone]
  exact ⟨gvin.trans (Nat.mod_eq_of_lt hclamp), (congrArg (toSigned 32) giin).trans (hcurrent _),
    gvout.trans (Nat.mod_eq_of_lt (fromVout_lt ..)), (congrArg (toSigned 32) giout).trans (hcurrent _),
    (congrArg (toSigned 16) gtemp).trans (htemp _), gword.trans (Nat.mod_eq_of_lt hw), gresp⟩

theorem Polled.of_exp {i o io tp : Nat} (h : Polled u c v i o io tp w t) (he : get u (R.PST_PMB_CONV.VOUT_EXP c) = get s (R.PST_PMB_CONV.VOUT_EXP c)) :
    Polled s c v i o io tp w t :=
  ⟨h.vin, h.iin, h.vout.trans (fromVout_of he o), h.iout, h.temp, h.word, h.resp⟩

theorem mem_convIn (hon : isOn s (R.PST_PMB_CONV.EN c) = true) (hc : c < 8) : c ∈ convIn s :=
  List.mem_filter.2 ⟨List.mem_range.2 hc, hon⟩

theorem lt_of_mem_convIn (h : c ∈ convIn s) : c < 8 := List.mem_range.1 (List.mem_filter.1 h).1

theorem nodup_convIn (s : State) : (convIn s).Nodup := List.nodup_range.filter _

/-- A transaction that fails (R151). -/
theorem transaction_fails (hc : c < 8) (s : State) :
    get (transaction c false s) (R.PST_PMB_STAT.NO_RESP c) = 1 ∧ bit (get (transaction c false s) R.PST_EVENT) 7 = true := by
  have hresp := ofConv_written hc (g := R.PST_PMB_STAT.NO_RESP c) (by simp [convWritten])
  have hfails : transaction c false s = record 0x0201 c (event R.PST_EVENT 7 (put (R.PST_PMB_STAT.NO_RESP c) 1 s)) :=
    if_neg (by decide)
  rw [hfails, get_record, get_record, get_event_ne (hresp.event_ne hc), get_put_self (by nofun)]
  exact ⟨rfl, bit_event_self (by nofun) (by decide) _⟩

/-- The round that a list by converter number holds for converter c. -/
theorem getD_rounds (f : Nat → Round) (hc : c < 8) (r : Round) : ((List.range 8).map f).getD c r = f c := by
  simp [List.getD, hc]

/-- A poll of the converters: what the poll of converter c makes of a state in which c is as it was, holds in the end. -/
theorem pollAll_hits {P : State → Prop} {r : Nat → Round} (hon : isOn s (R.PST_PMB_CONV.EN c) = true) (hc : c < 8)
    (hself : ∀ u, ConvStays c s u → P (pollOne c (r c) u)) (hkeep : ∀ u t, ConvStays c u t → P u → P t) :
    P (each (convIn s) (fun e => pollOne e (r e)) s) :=
  each_hits (I := ConvStays c s) (f := fun e => pollOne e (r e)) (mem_convIn hon hc) (nodup_convIn s)
    (fun _ he hne u hu => hu.trans (convStays_pollOne (lt_of_mem_convIn he) hc hne _ u)) hself
    (fun _ he hne u hu => hkeep u _ (convStays_pollOne (lt_of_mem_convIn he) hc hne _ u) hu) (.refl c s)

theorem execPmbPoll_of (hon : pmbusOn s = true) (l : List Round) :
    exec (.pmbPoll l) s = .next (finish (each (convIn s) (fun e => pollOne e (l.getD e ⟨false, []⟩)) s)) :=
  congrArg done (if_pos hon)

theorem OfConv.finish (h : OfConv c g) (s : State) : get (finish s) g = get s g := get_finish_low h.toLow

/-- PMB_POLL of a converter that answers (R149). -/
theorem pmbPoll_reads {l : List Nat} {i o io tp : Nat} (hbus : pmbusOn s = true) (hon : isOn s (R.PST_PMB_CONV.EN c) = true) (hc : c < 8)
    (hl : l = [v, i, o, io, tp, w]) (hlt : ∀ x ∈ l, x < 2 ^ 16) :
    ∃ t, exec (.pmbPoll ((List.range 8).map fun k => ⟨true, if k = c then l else []⟩)) s = .next t ∧ Polled s c v i o io tp w t := by
  rw [hl] at hlt
  simp only [List.forall_mem_cons] at hlt
  obtain ⟨hv, hi, ho, hio, htp, hw, -⟩ := hlt
  have hexp := ofConv_setting hc (g := R.PST_PMB_CONV.VOUT_EXP c) (by simp [convSettings])
  have hall : Polled s c v i o io tp w _ :=
    pollAll_hits (r := fun e => ((List.range 8).map fun k => (⟨true, if k = c then l else []⟩ : Round)).getD e ⟨false, []⟩) hon hc
      (fun u hu => by
        rw [getD_rounds _ hc, if_pos rfl, hl]
        exact (polled_pollOne hc hv hi ho hio htp hw u).of_exp (hu.regs _ hexp))
      fun u t hut hu => hu.of_regs hc hut.regs
  exact ⟨_, execPmbPoll_of hbus _, hall.of_regs hc fun g hg => hg.finish _⟩

/-- PMB_POLL of a converter that does not answer (R151). -/
theorem pmbPoll_silent (hbus : pmbusOn s = true) (hon : isOn s (R.PST_PMB_CONV.EN c) = true) (hc : c < 8) :
    ∃ t, exec (.pmbPoll []) s = .next t ∧ get t (R.PST_PMB_STAT.NO_RESP c) = 1 ∧ bit (get t R.PST_EVENT) 7 = true := by
  have hresp := ofConv_written hc (g := R.PST_PMB_STAT.NO_RESP c) (by simp [convWritten])
  have hall := pollAll_hits (P := fun u => get u (R.PST_PMB_STAT.NO_RESP c) = 1 ∧ bit (get u R.PST_EVENT) 7 = true)
    (r := fun e => ([] : List Round).getD e ⟨false, []⟩) hon hc (fun u _ => transaction_fails hc _)
    fun u t hut hu => ⟨(hut.regs _ hresp).trans hu.1, hut.events 7 (by decide) hu.2⟩
  exact ⟨_, execPmbPoll_of hbus _, (hresp.finish _).trans hall.1, (Grows.finish _).events 7 (by decide) hall.2⟩

/-- PMB_POLL of a converter whose PAGE write fails (R151). -/
theorem pmbPoll_page {l : List Nat} (hbus : pmbusOn s = true) (hon : isOn s (R.PST_PMB_CONV.EN c) = true) (hc : c < 8)
    (hpage : get s (R.PST_PMB_CONV.PAGE c) ≠ 0xFF) :
    ∃ t, exec (.pmbPoll ((List.range 8).map fun k => if k = c then ⟨false, l⟩ else ⟨true, l⟩)) s = .next t ∧ bit (get t R.PST_EVENT) 7 = true := by
  have hset := ofConv_setting hc (g := R.PST_PMB_CONV.PAGE c) (by simp [convSettings])
  have hall : bit (get _ R.PST_EVENT) 7 = true := pollAll_hits (P := fun u => bit (get u R.PST_EVENT) 7 = true)
    (r := fun e => ((List.range 8).map fun k => if k = c then (⟨false, l⟩ : Round) else ⟨true, l⟩).getD e ⟨false, []⟩) hon hc
    (fun u hu => by
      rw [getD_rounds _ hc, if_pos rfl]
      refine (Grows.readings hc _ u).events 7 (by decide) ?_
      have hwritten : decide (get u (R.PST_PMB_CONV.PAGE c) ≠ 0xFF) = true := decide_eq_true (by rwa [hu.regs _ hset])
      unfold pageRound
      dsimp only
      rw [hwritten, when_true]
      exact (transaction_fails hc _).2)
    fun u t hut hu => hut.events 7 (by decide) hu
  exact ⟨_, execPmbPoll_of hbus _, (Grows.finish _).events 7 (by decide) hall⟩

/-- Where the stage controller does not drive PMBus nothing happens (R679). -/
theorem pmbus_off (hfresh : s.log.fresh = []) (hoff : pmbusOn s = false) (l : List Round) :
    exec (.pmbPoll l) s = .next s ∧ exec (.pmbAlert l) s = .next s := by
  have hnot : ¬ pmbusOn s = true := by simp [hoff]
  exact ⟨(congrArg done (if_neg hnot)).trans (congrArg _ (finish_same hfresh)), (congrArg done (if_neg hnot)).trans (congrArg _ (finish_same hfresh))⟩

end

end Sys2Proof.Machine

/-! PMB_ALERT, and the input current limit of the converters that work (R152, R153, R343). -/

namespace Sys2Proof.Machine

section

variable {s t u : State} {c w : Nat} {g : Field}

/-- How a converter is reached, no transaction writes. -/
theorem apart_convSettings : ∀ c < 8, ∀ f ∈ convSettings c, ∀ g ∈ convWritten c, fieldKey g ≠ fieldKey f := by decide

/-- A converter that faults, before it is cleared (R152). -/
def faultShown (c w : Nat) (s : State) : State :=
  s |> pageRound c true |> put (R.PST_PMB_STAT.NO_RESP c) 0 |> put (R.PST_PMB_STAT.STATUS_WORD c) w |> put (R.PST_PMB_STAT.CONV_FAULT c) 1
    |> event R.PST_EVENT 6 |> record 0x0202 (c + w * 2 ^ 16)

theorem alertOne_of (hw : w < 2 ^ 16) (hfault : convFaulty w = true) (s : State) :
    alertOne c ⟨true, [w]⟩ s = autoClear c false (faultShown c w s) := by
  simp only [alertOne, List.getElem?_cons_zero, List.getElem?_cons_succ, List.getElem?_nil, readWord_of hw, hfault, when_true, faultShown]
  rfl

theorem get_faultShown (h : ∀ f ∈ [R.PST_PMB_STAT.NO_RESP c, R.PST_PMB_STAT.STATUS_WORD c, R.PST_PMB_STAT.CONV_FAULT c, R.PST_EVENT],
    fieldKey f ≠ fieldKey g) (s : State) : get (faultShown c w s) g = get s g := by
  simp only [List.forall_mem_cons] at h
  obtain ⟨hresp, hword, hfault, hevent, -⟩ := h
  rw [faultShown, get_record, get_event_ne hevent, get_put_ne hfault, get_put_ne hword, get_put_ne hresp, get_pageRound_true hresp]

theorem us_faultShown : (faultShown c w s).us = s.us := by
  have hpage := (foot_pageRound (c := c) (good := true) (o_c := none) Names.any (Print.Sub.refl _) (Within.refl _ s)).parts .us (by decide) (by decide)
  rw [faultShown, record_us, event, put_us, put_us, put_us, put_us]
  exact hpage

theorem convOf_faultShown : convOf (faultShown c w s) c = convOf s c := by
  have hpage := (foot_pageRound (c := c) (good := true) (o_c := none) Names.any (Print.Sub.refl _) (Within.refl _ s)).parts .pmb (by decide) (by decide)
  refine convOf_of ?_ c
  rw [faultShown, record_pmb, event, put_pmb, put_pmb, put_pmb, put_pmb]
  exact hpage

/-- What a faulty converter shows (R152). -/
theorem faultShown_shows (hc : c < 8) (hw : w < 2 ^ 16) : get (faultShown c w s) (R.PST_PMB_STAT.STATUS_WORD c) = w ∧
    get (faultShown c w s) (R.PST_PMB_STAT.CONV_FAULT c) = 1 ∧ bit (get (faultShown c w s) R.PST_EVENT) 6 = true := by
  have hpair := pairwise_convWritten c hc
  simp only [convWritten, List.pairwise_cons, List.forall_mem_cons] at hpair
  obtain ⟨-, -, -, -, -, -, ⟨hfault, -⟩, -⟩ := hpair
  have hevent : ∀ g ∈ convWritten c, fieldKey R.PST_EVENT ≠ fieldKey g := fun g hg => (ofConv_written hc hg).event_ne hc
  refine ⟨?_, ?_, ?_⟩
  · rw [faultShown, get_record, get_event_ne (hevent _ (by simp [convWritten])), get_put_ne hfault.2, get_put_self (by nofun)]
    exact Nat.mod_eq_of_lt hw
  · rw [faultShown, get_record, get_event_ne (hevent _ (by simp [convWritten])), get_put_self (by nofun)]
    rfl
  · rw [faultShown, get_record]
    exact bit_event_self (by nofun) (by decide) _

/-- A faulty converter that is cleared automatically keeps what it shows. -/
theorem get_autoClear_own (h : fieldKey (R.PST_PMB_STAT.NO_RESP c) ≠ fieldKey g ∧ fieldKey (R.PST_PMB_STAT.NO_AUTO_CLR c) ≠ fieldKey g)
    (hevent : fieldKey R.PST_EVENT ≠ fieldKey g) (s : State) : get (autoClear c false s) g = get s g := by
  refine (foot_autoClear (Names.one (d := c)) (Print.Sub.refl _) (Within.refl _ s)).get ?_
  simp only [fp_autoClear, fp_clearSent, fp_sendPmb, fp_transaction, fp_record, fp_recordAt, Print.free_cons, Print.free_nil,
    Print.free_reg, free_reg1_some, Print.free_prt, Print.free_row, and_true, true_and]
  exact ⟨h.2, h.1, hevent⟩

/-- CLEAR_FAULTS sent (R153). -/
theorem clearSent_sends (c : Nat) (good : Bool) (s : State) : convOf (clearSent c good s) c = ⟨some s.us⟩ ∧
    Out.pmbus (get s (R.PST_PMB_CONV.ADDR c)) pmCLEAR_FAULTS 0 ∈ (clearSent c good s).out := by
  have hfoot : ∀ u, Within (fp_transaction none) u (transaction c good u) := fun u => foot_transaction Names.any (Print.Sub.refl _) (Within.refl _ u)
  unfold clearSent
  constructor
  · rw [convOf_of ((hfoot _).parts .pmb (by decide) (by decide))]
    exact (convOf_of (emit_pmb ..) c).trans (convOf_setConv ..)
  · rw [(hfoot _).parts .out (by decide) (by decide)]
    exact mem_out_emit ..

/-- What an alert of converter c that reports a fault makes of a state in which it was as in s (R152, R153). -/
structure Alerted (s : State) (c w : Nat) (t : State) : Prop where
  word : get t (R.PST_PMB_STAT.STATUS_WORD c) = w
  fault : get t (R.PST_PMB_STAT.CONV_FAULT c) = 1
  event : bit (get t R.PST_EVENT) 6 = true
  clears : isOn s (R.PST_PMB_STAT.NO_AUTO_CLR c) = false → (convOf s c).cleared = none →
    convOf t c = ⟨some s.us⟩ ∧ Out.pmbus (get s (R.PST_PMB_CONV.ADDR c)) pmCLEAR_FAULTS 0 ∈ t.out
  stops : ∀ u, isOn s (R.PST_PMB_STAT.NO_AUTO_CLR c) = false → (convOf s c).cleared = some u → s.us < u + 10000 →
    get t (R.PST_PMB_STAT.NO_AUTO_CLR c) = 1

theorem Alerted.of_stays (h : Alerted s c w t) (hc : c < 8) (k : ConvStays c t u) : Alerted s c w u := by
  have hkeep : ∀ g ∈ convWritten c, get u g = get t g := fun g hg => k.regs g (ofConv_written hc hg)
  simp only [convWritten, List.forall_mem_cons] at hkeep
  obtain ⟨-, -, -, -, -, -, hword, hfault, hclr, -⟩ := hkeep
  exact ⟨hword.trans h.word, hfault.trans h.fault, k.events 6 (by decide) h.event,
    fun hoff hnone => ⟨k.conv.trans (h.clears hoff hnone).1, k.out (h.clears hoff hnone).2⟩,
    fun v hoff hsome hlt => hclr.trans (h.stops v hoff hsome hlt)⟩

/-- The automatic clear reads of its state what the converter has there. -/
theorem alerted_alertOne (hc : c < 8) (hw : w < 2 ^ 16) (hfault : convFaulty w = true) (h : ConvStays c s u) :
    Alerted s c w (alertOne c ⟨true, [w]⟩ u) := by
  have hpair := pairwise_convWritten c hc
  simp only [convWritten, List.pairwise_cons, List.forall_mem_cons] at hpair
  obtain ⟨⟨-, -, -, -, -, hresp_word, hresp_fault, hresp_clr, -⟩, -, -, -, -, -, ⟨hword_fault, hword_clr, -⟩, ⟨hfault_clr, -⟩, -⟩ := hpair
  have hevent : ∀ g ∈ convWritten c, fieldKey R.PST_EVENT ≠ fieldKey g := fun g hg => (ofConv_written hc hg).event_ne hc
  obtain ⟨gword, gfault, gevent⟩ := faultShown_shows (s := u) hc hw
  have hclr : isOn (faultShown c w u) (R.PST_PMB_STAT.NO_AUTO_CLR c) = isOn s (R.PST_PMB_STAT.NO_AUTO_CLR c) := by
    unfold isOn
    rw [get_faultShown (by simpa using ⟨hresp_clr.1, hword_clr.1, hfault_clr.1, hevent _ (by simp [convWritten])⟩),
      h.regs _ (ofConv_written hc (by simp [convWritten]))]
  have haddr : get (faultShown c w u) (R.PST_PMB_CONV.ADDR c) = get s (R.PST_PMB_CONV.ADDR c) := by
    have hset := ofConv_setting hc (g := R.PST_PMB_CONV.ADDR c) (by simp [convSettings])
    have hapart := apart_convSettings c hc (R.PST_PMB_CONV.ADDR c) (by simp [convSettings])
    simp only [convWritten, List.forall_mem_cons] at hapart
    obtain ⟨hresp, -, -, -, -, -, hword, hflt, -⟩ := hapart
    rw [get_faultShown (by simpa using ⟨hresp, hword, hflt, hset.event_ne hc⟩), h.regs _ hset]
  have hconv : convOf (faultShown c w u) c = convOf s c := convOf_faultShown.trans h.conv
  have hus : (faultShown c w u).us = s.us := us_faultShown.trans h.us
  rw [alertOne_of hw hfault]
  refine ⟨?_, ?_, (Grows.autoClear hc _ _).events 6 (by decide) gevent, fun hoff hnone => ?_, fun v hoff hsome hlt => ?_⟩
  · rw [get_autoClear_own ⟨hresp_word.1, hword_clr.2⟩ (hevent _ (by simp [convWritten])), gword]
  · rw [get_autoClear_own ⟨hresp_fault.1, hfault_clr.2⟩ (hevent _ (by simp [convWritten])), gfault]
  · have hgoes : autoClear c false (faultShown c w u) = clearSent c false (faultShown c w u) := by
      rw [autoClear, hclr, hoff, if_neg (by decide), hconv, hnone]
    rw [hgoes, ← hus, ← haddr]
    exact clearSent_sends ..
  · have hgoes : autoClear c false (faultShown c w u) = put (R.PST_PMB_STAT.NO_AUTO_CLR c) 1 (faultShown c w u) := by
      rw [autoClear, hclr, hoff, if_neg (by decide), hconv, hsome]
      exact if_pos (hus ▸ hlt)
    rw [hgoes, get_put_self (by nofun)]
    rfl

/-- An alert of the converters: converter c, which reports a fault, in the end. -/
theorem alertAll_hits {r : Nat → Round} (hon : isOn s (R.PST_PMB_CONV.EN c) = true) (hc : c < 8) (hw : w < 2 ^ 16)
    (hfault : convFaulty w = true) (hr : r c = ⟨true, [w]⟩) : Alerted s c w (each (convIn s) (fun e => alertOne e (r e)) s) :=
  each_hits (I := ConvStays c s) (f := fun e => alertOne e (r e)) (mem_convIn hon hc) (nodup_convIn s)
    (fun _ he hne u hu => hu.trans (convStays_alertOne (lt_of_mem_convIn he) hc hne _ u))
    (fun _ hu => hr ▸ alerted_alertOne hc hw hfault hu)
    (fun _ he hne u hu => hu.of_stays hc (convStays_alertOne (lt_of_mem_convIn he) hc hne _ u)) (.refl c s)

theorem limit_alertAll (r : Nat → Round) (s : State) :
    get (each (convIn s) (fun e => alertOne e (r e)) s) R.CAP_PKG_ILIM.IIN_LIM = get s R.CAP_PKG_ILIM.IIN_LIM :=
  each_induct (P := fun u => get u R.CAP_PKG_ILIM.IIN_LIM = get s R.CAP_PKG_ILIM.IIN_LIM) (fun e he u hu =>
    ((foot_alertOne (Names.one (d := e)) (Print.Sub.refl _) (Within.refl _ u)).get
      (free_alertOne (offConv_limit (lt_of_mem_convIn he)))).trans hu) rfl

/-- IIN_EFF is formed from the limit and from which converters take part and which fault (R343). -/
theorem iinEff_of (hlimit : get t R.CAP_PKG_ILIM.IIN_LIM = get s R.CAP_PKG_ILIM.IIN_LIM)
    (hconv : ∀ e < 8, ∀ g, OfConv e g → get t g = get s g) : iinEff t = iinEff s := by
  have hon : ∀ e < 8, isOn t (R.PST_PMB_CONV.EN e) = isOn s (R.PST_PMB_CONV.EN e) ∧
      isOn t (R.PST_PMB_STAT.CONV_FAULT e) = isOn s (R.PST_PMB_STAT.CONV_FAULT e) := fun e he => by
    unfold isOn
    rw [hconv e he _ (ofConv_setting he (by simp [convSettings])), hconv e he _ (ofConv_written he (by simp [convWritten]))]
    exact ⟨rfl, rfl⟩
  have hin : convIn t = convIn s := List.filter_congr fun e he => (hon e (List.mem_range.1 he)).1
  have hfaulty : ((convIn s).filter fun e => isOn t (R.PST_PMB_STAT.CONV_FAULT e)) = (convIn s).filter fun e => isOn s (R.PST_PMB_STAT.CONV_FAULT e) :=
    List.filter_congr fun e he => (hon e (lt_of_mem_convIn he)).2
  simp only [iinEff, hlimit, hin, hfaulty]

theorem iinEff_le (s : State) : iinEff s ≤ get s R.CAP_PKG_ILIM.IIN_LIM := by
  unfold iinEff
  dsimp only
  split
  · exact Nat.le_refl _
  · exact Nat.div_le_of_le_mul (by rw [Nat.mul_comm (convIn s).length]; exact Nat.mul_le_mul_left _ (Nat.sub_le ..))

theorem get_refreshIin (h : g.off * 32 + g.lo < 0x0A0034 * 32) (s : State) : get (refreshIin s) g = get s g := by
  unfold refreshIin
  dsimp only
  split
  · rfl
  · rw [get_event_ne (key_ne_of_lt (by decide) (by omega) ?_), get_put_ne (key_ne_of_lt (by decide) (by omega) ?_)] <;>
      simp only [R.CAP_EVENT, R.CAP_IIN_EFF.IIN] <;> omega

theorem iinEff_refreshIin (s : State) : iinEff (refreshIin s) = iinEff s :=
  iinEff_of (get_refreshIin (by decide) s) fun e he g hg => get_refreshIin (by have := hg.window; omega) s

theorem refreshIin_shows (h : get s R.CAP_PKG_ILIM.IIN_LIM < 2 ^ 11) : get (refreshIin s) R.CAP_IIN_EFF.IIN = iinEff s := by
  unfold refreshIin
  dsimp only
  split
  · assumption
  · rw [get_event_ne (by decide), get_put_self (by nofun)]
    exact Nat.mod_eq_of_lt (Nat.lt_of_le_of_lt (iinEff_le s) h)

theorem grows_refreshIin (s : State) : Grows s (refreshIin s) :=
  have hfoot := foot_refreshIin (Print.Sub.refl _) (Within.refl _ s)
  .of_eq (get_refreshIin (by decide) s) (hfoot.parts .out (by decide) (by decide))

theorem convStays_refreshIin (hc : c < 8) (s : State) : ConvStays c s (refreshIin s) :=
  have hfoot := foot_refreshIin (Print.Sub.refl _) (Within.refl _ s)
  ⟨grows_refreshIin s, fun g hg => get_refreshIin (by have := hg.window; omega) s, convOf_of (hfoot.parts .pmb (by decide) (by decide)) c,
    hfoot.parts .us (by decide) (by decide), get_refreshIin (by decide) s⟩

theorem convStays_finish (c : Nat) (s : State) : ConvStays c s (finish s) :=
  ⟨.finish s, fun _ hg => hg.finish s, convOf_of ((Within.finish s).parts .pmb (by decide) (by decide)) c,
    (Within.finish s).parts .us (by decide) (by decide), get_finish (by decide) (by decide)⟩

/-- PMB_ALERT of a converter that reports a fault (R152, R153, R343). -/
theorem pmbAlert_faults (hbus : pmbusOn s = true) (hon : isOn s (R.PST_PMB_CONV.EN c) = true) (hc : c < 8) (hw : w < 2 ^ 16)
    (hfault : convFaulty w = true) :
    ∃ t, exec (.pmbAlert ((List.range 8).map fun k => ⟨true, if k = c then [w] else []⟩)) s = .next t ∧ Alerted s c w t ∧
      (get s R.CAP_PKG_ILIM.IIN_LIM < 2 ^ 11 → get t R.CAP_IIN_EFF.IIN = iinEff t) := by
  let r : Nat → Round := fun e => ((List.range 8).map fun k => (⟨true, if k = c then [w] else []⟩ : Round)).getD e ⟨false, []⟩
  have hall : Alerted s c w (each (convIn s) (fun e => alertOne e (r e)) s) :=
    alertAll_hits hon hc hw hfault ((getD_rounds _ hc _).trans (by rw [if_pos rfl]))
  refine ⟨finish (refreshIin (each (convIn s) (fun e => alertOne e (r e)) s)), congrArg done (if_pos hbus),
    (hall.of_stays hc (convStays_refreshIin hc _)).of_stays hc (convStays_finish c _), fun hlimit => ?_⟩
  have heff : ∀ u, iinEff (finish u) = iinEff u := fun u =>
    iinEff_of (get_finish (by decide) (by decide)) fun e _ g hg => hg.finish u
  rw [heff, iinEff_refreshIin, get_finish (by decide) (by decide)]
  exact refreshIin_shows ((limit_alertAll r s).symm ▸ hlimit)

end

end Sys2Proof.Machine

/-! The commands to a board converter (R156, R157), and the obligation about the converters. -/

namespace Sys2Proof.Machine

section

variable {s t u : State} {fl : Flight} {c v w port tag : Nat} {g : Field} {b : Bool}

/-- A flight that is changed in place, its port and its tag kept. -/
theorem flightOf_map (f : Flight → Flight) (hf : ∀ x, (f x).port = x.port ∧ (f x).tag = x.tag) (h : flightOf s port tag = some fl)
    (ht : t.host.flights = s.host.flights.map f) : flightOf t port tag = some (f fl) := by
  have hsame : ((fun x : Flight => decide (x.port = port) && decide (x.tag = tag)) ∘ f) = fun x => decide (x.port = port) && decide (x.tag = tag) := by
    funext x
    simp only [Function.comp, (hf x).1, (hf x).2]
  rw [flightOf] at h
  rw [flightOf, ht, List.find?_map, hsame, h]
  rfl

theorem flightOf_keepResult (h : flightOf s port tag = some fl) (r0 r1 : Nat) :
    flightOf (keepResult port tag r0 r1 s) port tag = some { fl with r0 := r0, r1 := r1 } := by
  have hmap := flightOf_map (t := keepResult port tag r0 r1 s) (fun x => if x.port = port ∧ x.tag = tag then { x with r0 := r0, r1 := r1 } else x)
    (fun x => by split <;> exact ⟨rfl, rfl⟩) h rfl
  rw [hmap, if_pos (flightOf_port h)]

theorem flightOf_markStarted (h : flightOf s port tag = some fl) :
    flightOf (markStarted port tag s) port tag = some { fl with started := true } := by
  have hmap := flightOf_map (t := markStarted port tag s) (fun x => if x.port = port ∧ x.tag = tag then { x with started := true } else x)
    (fun x => by split <;> exact ⟨rfl, rfl⟩) h rfl
  rw [hmap, if_pos (flightOf_port h)]

theorem bits_of_lt {x k : Nat} (h : x < 2 ^ k) : bits x 0 k = x := Nat.mod_eq_of_lt h

theorem unanswered_sendPmb (c cmd v : Nat) (s : State) : Unanswered s (sendPmb c cmd v s) := .of_eq rfl rfl

theorem unanswered_transaction (c : Nat) (good : Bool) (s : State) : Unanswered s (transaction c good s) := by
  have hresp : (R.PST_PMB_STAT.NO_RESP c).off * 32 + (R.PST_PMB_STAT.NO_RESP c).lo < 0x120000 * 32 := by simp only [R.PST_PMB_STAT.NO_RESP]; omega
  unfold transaction
  split
  · exact .put hresp 0 s
  · exact (Unanswered.put hresp 1 s).trans ((Unanswered.put (by decide) _ _).trans ⟨readByte_of (record_mem ..), fun _ => get_record ..⟩)

theorem unanswered_pageRound (c : Nat) (good : Bool) (s : State) : Unanswered s (pageRound c good s) := by
  unfold pageRound
  exact .when ((unanswered_sendPmb ..).trans (unanswered_transaction ..)) _

theorem unanswered_refreshIin (s : State) : Unanswered s (refreshIin s) := by
  refine .within (foot_refreshIin (Print.Sub.refl _) (Within.refl _ s)) (by decide) (by decide) fun q => ?_
  simp only [fp_refreshIin, Print.free_cons, Print.free_nil, Print.free_reg, and_true]
  refine ⟨key_ne ?_, key_ne ?_⟩ <;> simp only [R.CAP_IIN_EFF.IIN, R.CAP_EVENT, R.CMD_CQ_TAIL.TAIL] <;> omega

theorem get_transaction (hresp : fieldKey (R.PST_PMB_STAT.NO_RESP c) ≠ fieldKey g) (hevent : fieldKey R.PST_EVENT ≠ fieldKey g) (good : Bool)
    (s : State) : get (transaction c good s) g = get s g := by
  unfold transaction
  split
  · exact get_put_ne hresp ..
  · rw [get_record, get_event_ne hevent, get_put_ne hresp]

theorem get_pageRound (hresp : fieldKey (R.PST_PMB_STAT.NO_RESP c) ≠ fieldKey g) (hevent : fieldKey R.PST_EVENT ≠ fieldKey g) (good : Bool)
    (s : State) : get (pageRound c good s) g = get s g :=
  get_when (get_transaction hresp hevent ..)

/-- A round of transactions with converter c leaves how it is reached. -/
theorem get_pageRound_setting (hc : c < 8) (hg : g ∈ convSettings c) (good : Bool) (s : State) : get (pageRound c good s) g = get s g :=
  get_pageRound (apart_convSettings c hc g hg _ (by simp [convWritten])) ((ofConv_setting hc hg).event_ne hc) good s

/-- A command to a converter, after its PAGE (R148, R151). -/
def commanded (c cmd v : Nat) (page good : Bool) (s : State) : State := s |> pageRound c page |> sendPmb c cmd v |> transaction c good

theorem unanswered_commanded (c cmd v : Nat) (page good : Bool) (s : State) : Unanswered s (commanded c cmd v page good s) :=
  (unanswered_pageRound ..).trans ((unanswered_sendPmb ..).trans (unanswered_transaction ..))

theorem sent_commanded (hc : c < 8) (cmd v : Nat) (page good : Bool) (s : State) :
    Out.pmbus (get s (R.PST_PMB_CONV.ADDR c)) cmd v ∈ (commanded c cmd v page good s).out := by
  rw [← get_pageRound_setting hc (g := R.PST_PMB_CONV.ADDR c) (by simp [convSettings]) page]
  exact (Grows.transaction hc good _).out (mem_out_emit ..)

theorem resp_commanded_true (c cmd v : Nat) (page : Bool) (s : State) : get (commanded c cmd v page true s) (R.PST_PMB_STAT.NO_RESP c) = 0 :=
  get_put_self (by nofun) ..

theorem host_commanded (c cmd v : Nat) (page good : Bool) (s : State) : (commanded c cmd v page good s).host = s.host := by
  have hpage := (foot_pageRound (c := c) (good := page) (o_c := none) Names.any (Print.Sub.refl _) (Within.refl _ s)).parts .host (by decide) (by decide)
  have hgood : ∀ u, (transaction c good u).host = u.host := fun u =>
    (foot_transaction (o_c := none) Names.any (Print.Sub.refl _) (Within.refl _ u)).parts .host (by decide) (by decide)
  rw [commanded, hgood]
  exact hpage

theorem us_commanded (c cmd v : Nat) (page good : Bool) (s : State) : (commanded c cmd v page good s).us = s.us := by
  have hpage := (foot_pageRound (c := c) (good := page) (o_c := none) Names.any (Print.Sub.refl _) (Within.refl _ s)).parts .us (by decide) (by decide)
  have hgood : ∀ u, (transaction c good u).us = u.us := fun u =>
    (foot_transaction (o_c := none) Names.any (Print.Sub.refl _) (Within.refl _ u)).parts .us (by decide) (by decide)
  rw [commanded, hgood]
  exact hpage

/-- CONV_VOUT_SET of a voltage within bounds, to a converter that takes part, as it is written (R156). -/
theorem convVoutSet_runs (hw : Waiting s 0x0203 port tag fl) (hc : par fl 0 = c) (hlt : c < 8) (hv : par fl 1 = v) (hlo : 13600 ≤ v) (hhi : v ≤ 15200)
    (hon : isOn s (R.PST_PMB_CONV.EN c) = true) (a : Acks) : exec (.convVoutSet port tag a) s = .next (finish (
      if a.data then commanded c pmVOUT_COMMAND (toVout s c v) a.page a.data s
          |> keepResult port tag (commanded c pmVOUT_COMMAND (toVout s c v) a.page a.data s).us 0 |> markStarted port tag
        else complete fl sTIMEOUT 0 0 (commanded c pmVOUT_COMMAND (toVout s c v) a.page a.data s))) := by
  have hbits : bits (par fl 0) 0 3 = c := hc ▸ bits_of_lt (hc.symm ▸ hlt)
  have hbits' : bits (par fl 1) 0 16 = v := hv ▸ bits_of_lt (hv.symm ▸ by omega)
  have hcheck : ¬ (par fl 0 / 2 ^ 3 ≠ 0 ∨ par fl 1 / 2 ^ 16 ≠ 0) := by omega
  have hrange : ¬ (v < 13600 ∨ 15200 < v) := by omega
  refine congrArg done ((command_of hw ?_).trans ?_)
  · simp only [firstFail, hbits, hbits', hon, decide_eq_false hcheck, decide_eq_false hrange, Bool.not_true, Bool.false_eq_true, if_false]
  · simp only [hbits, hbits']
    rfl

theorem out_answered_start (port tag r0 r1 : Nat) (s : State) : (finish (markStarted port tag (keepResult port tag r0 r1 s))).out = s.out :=
  out_finish _

/-- CONV_VOUT_SET whose write is acknowledged (R156). -/
theorem convVoutSet_waits (hw : Waiting s 0x0203 port tag fl) (hc : par fl 0 = c) (hlt : c < 8) (hv : par fl 1 = v) (hlo : 13600 ≤ v) (hhi : v ≤ 15200)
    (hon : isOn s (R.PST_PMB_CONV.EN c) = true) :
    ∃ t, exec (.convVoutSet port tag ⟨b, true⟩) s = .next t ∧ Out.pmbus (get s (R.PST_PMB_CONV.ADDR c)) pmVOUT_COMMAND (toVout s c v) ∈ t.out ∧
      get t (R.PST_PMB_STAT.NO_RESP c) = 0 ∧ flightOf t port tag = some { fl with started := true, r0 := s.us, r1 := 0 } := by
  have hresp := ofConv_written hlt (g := R.PST_PMB_STAT.NO_RESP c) (by simp [convWritten])
  have hflight : flightOf (commanded c pmVOUT_COMMAND (toVout s c v) b true s) port tag = some fl :=
    (flightOf_of (host_commanded ..) port tag).trans hw.flight
  refine ⟨_, convVoutSet_runs hw hc hlt hv hlo hhi hon ⟨b, true⟩, ?_⟩
  rw [if_pos rfl, us_commanded]
  refine ⟨?_, (hresp.finish _).trans (resp_commanded_true ..), ?_⟩
  · rw [out_answered_start]
    exact sent_commanded hlt ..
  · rw [flightOf_of (host_finish _), flightOf_markStarted (flightOf_keepResult hflight s.us 0)]

/-- CONV_VOUT_SET whose write fails (R151, R156). -/
theorem convVoutSet_fails (hw : Waiting s 0x0203 port tag fl) (hc : par fl 0 = c) (hlt : c < 8) (hv : par fl 1 = v) (hlo : 13600 ≤ v) (hhi : v ≤ 15200)
    (hon : isOn s (R.PST_PMB_CONV.EN c) = true) :
    ∃ t, exec (.convVoutSet port tag ⟨b, false⟩) s = .next t ∧ Completed s t fl sTIMEOUT 0 0 ∧ get t (R.PST_PMB_STAT.NO_RESP c) = 1 := by
  have hresp := ofConv_written hlt (g := R.PST_PMB_STAT.NO_RESP c) (by simp [convWritten])
  refine ⟨_, convVoutSet_runs hw hc hlt hv hlo hhi hon ⟨b, false⟩, ?_⟩
  rw [if_neg Bool.false_ne_true]
  exact ⟨(unanswered_commanded ..).completed fl sTIMEOUT 0 0, (get_answered hresp.toLow ..).trans (transaction_fails hlt _).1⟩

/-- READ_VOUT_AFTER_WRITE (R156). -/
theorem readVout_answers (hf : flightOf s port tag = some fl) (hop : fl.opcode = 0x0203) (hstart : fl.started = true) (hage : 1000 ≤ s.us - fl.r0)
    (hc : par fl 0 = c) (hlt : c < 8) (hw : w < 2 ^ 16) :
    ∃ t, exec (.readVoutAfterWrite port tag w ⟨b, true⟩) s = .next t ∧ Completed s t fl sOK (fromVout s c w) 0 ∧
      get t (R.PST_PMB_STAT.NO_RESP c) = 0 := by
  have hbits : bits (par fl 0) 0 3 = c := hc ▸ bits_of_lt (hc.symm ▸ hlt)
  have hresp := ofConv_written hlt (g := R.PST_PMB_STAT.NO_RESP c) (by simp [convWritten])
  have hset := ofConv_setting hlt (g := R.PST_PMB_CONV.VOUT_EXP c) (by simp [convSettings])
  have hvout : fromVout (transaction c true (pageRound c b s)) c w = fromVout s c w := by
    refine fromVout_of ?_ w
    rw [get_transaction (apart_convSettings c hlt _ (by simp [convSettings]) _ (by simp [convWritten])) (hset.event_ne hlt),
      get_pageRound_setting hlt (by simp [convSettings])]
  have heff : execReadVoutAfterWrite port tag w ⟨b, true⟩ s =
      done (complete fl sOK (fromVout s c w) 0 (transaction c true (pageRound c b s))) := by
    simp only [execReadVoutAfterWrite, hf, hop, hstart, hage, hbits, Nat.mod_eq_of_lt hw, and_self, if_true, hvout]
  refine ⟨_, heff, ((unanswered_pageRound ..).trans (unanswered_transaction ..)).completed fl sOK _ 0, ?_⟩
  exact (get_answered hresp.toLow ..).trans (get_put_self (by nofun) ..)

/-- CONV_CLEAR of a converter that takes part and answers (R157). -/
theorem convClear_clears (hw : Waiting s 0x0204 port tag fl) (hc : par fl 0 = c) (hlt : c < 8) (hon : isOn s (R.PST_PMB_CONV.EN c) = true) :
    ∃ t, exec (.convClear port tag ⟨b, true⟩) s = .next t ∧ Completed s t fl sOK 0 0 ∧ get t (R.PST_PMB_STAT.CONV_FAULT c) = 0 ∧
      get t (R.PST_PMB_STAT.NO_AUTO_CLR c) = 0 ∧ Out.pmbus (get s (R.PST_PMB_CONV.ADDR c)) pmCLEAR_FAULTS 0 ∈ t.out := by
  let u := commanded c pmCLEAR_FAULTS 0 b true s
  let x := put (R.PST_PMB_STAT.NO_AUTO_CLR c) 0 (put (R.PST_PMB_STAT.CONV_FAULT c) 0 u)
  have hbits : bits (par fl 0) 0 3 = c := hc ▸ bits_of_lt (hc.symm ▸ hlt)
  have hcheck : ¬ par fl 0 / 2 ^ 3 ≠ 0 := by omega
  have hruns : exec (.convClear port tag ⟨b, true⟩) s = .next (finish (complete fl sOK 0 0 (refreshIin x))) := by
    refine congrArg done ((command_of hw ?_).trans ?_)
    · simp only [firstFail, hbits, hon, decide_eq_false hcheck, Bool.not_true, Bool.false_eq_true, if_false]
    · simp only [hbits, if_true]
      rfl
  have hfault := ofConv_written hlt (g := R.PST_PMB_STAT.CONV_FAULT c) (by simp [convWritten])
  have hclr := ofConv_written hlt (g := R.PST_PMB_STAT.NO_AUTO_CLR c) (by simp [convWritten])
  have hapart : fieldKey (R.PST_PMB_STAT.NO_AUTO_CLR c) ≠ fieldKey (R.PST_PMB_STAT.CONV_FAULT c) :=
    key_ne (by simp only [R.PST_PMB_STAT.NO_AUTO_CLR, R.PST_PMB_STAT.CONV_FAULT]; omega)
  have hquiet : Unanswered s (refreshIin x) := (unanswered_commanded ..).trans
    ((Unanswered.put (by have := hfault.place; omega) 0 u).trans ((Unanswered.put (by have := hclr.place; omega) 0 _).trans (unanswered_refreshIin _)))
  have hshown : ∀ g, OfConv c g → get (finish (complete fl sOK 0 0 (refreshIin x))) g = get x g := fun g hg =>
    (get_answered hg.toLow ..).trans (get_refreshIin (by have := hg.window; omega) x)
  have hout : u.out ⊆ (finish (complete fl sOK 0 0 (refreshIin x))).out := by
    have hx : x.out = u.out := (put_out ..).trans (put_out ..)
    rw [out_finish]
    exact List.Subset.trans (hx ▸ (grows_refreshIin x).out) (out_subset_complete fl sOK 0 0)
  refine ⟨_, hruns, hquiet.completed fl sOK 0 0, (hshown _ hfault).trans ?_, (hshown _ hclr).trans (get_put_self (by nofun) ..),
    hout (sent_commanded hlt ..)⟩
  exact (get_put_ne hapart ..).trans (get_put_self (by nofun) ..)

/-- CONV_CLEAR of a converter that takes no part (R157). -/
theorem convClear_state (hw : Waiting s 0x0204 port tag fl) (hc : par fl 0 = c) (hlt : c < 8) (hoff : get s (R.PST_PMB_CONV.EN c) = 0) :
    ∃ t, exec (.convClear port tag ⟨b, true⟩) s = .next t ∧ Completed s t fl sWRONG_STATE 0 0 := by
  have hbits : bits (par fl 0) 0 3 = c := hc ▸ bits_of_lt (hc.symm ▸ hlt)
  have hcheck : ¬ par fl 0 / 2 ^ 3 ≠ 0 := by omega
  refine ⟨_, congrArg done (command_of_fail hw (st := sWRONG_STATE) ?_), (Unanswered.refl s).completed fl _ 0 0⟩
  simp only [firstFail, hbits, isOn, hoff, decide_eq_false hcheck]
  rfl

end

/-- Settles O7, a lemma for each clause. -/
theorem convertersServe : Obligations.ConvertersServe := by
  refine ⟨fun s c l v i o io tp w hbus hon hc hl hlt _ => ?_, fun _ _ => pmbPoll_silent, fun _ _ _ => pmbPoll_page,
    fun _ l hfresh hoff => pmbus_off hfresh hoff l, fun s c w hbus hon hc hw hfault => ?_, fun _ _ _ _ _ _ _ => convVoutSet_waits,
    fun _ _ _ _ _ _ _ => convVoutSet_fails, fun _ _ _ _ _ _ _ => readVout_answers, fun _ _ _ _ _ _ => convClear_clears,
    fun _ _ _ _ _ _ => convClear_state⟩
  · obtain ⟨t, ht, h⟩ := pmbPoll_reads hbus hon hc hl hlt
    exact ⟨t, ht, h.vin, h.iin, h.vout, h.iout, h.temp, h.word, h.resp⟩
  · obtain ⟨t, ht, h, hlimit⟩ := pmbAlert_faults hbus hon hc hw hfault
    exact ⟨t, ht, h.word, h.fault, h.event, hlimit, h.clears, h.stops⟩

end Sys2Proof.Machine

/-! HOLD: CMP_HOLD, FE_HOLD and LOOP_RESUME (R177, R181, R183 to R186, R198, R200). -/

namespace Sys2Proof.Machine

section

variable {s t u : State} {fl : Flight} {r n cause port tag : Nat} {g : Field}

/-- A low register outside the window of the phases (R122). -/
structure OffPhases (g : Field) : Prop extends Low g where
  outside : g.off * 32 + g.lo < 0x021000 * 32 ∨ 0x022000 * 32 ≤ g.off * 32 + g.lo

theorem offPhases_ne {f : Field} (h : OffPhases g) (hf : 0x021000 * 32 ≤ f.off * 32 + f.lo ∧ f.off * 32 + f.lo < 0x022000 * 32) :
    fieldKey f ≠ fieldKey g := by
  have hlow := h.place
  have hout := h.outside
  exact key_ne_of_lt (by omega) (by omega) (by omega)

theorem get_formEdge (h : OffPhases g) (r n duty period : Nat) (s : State) : get (formEdge r n duty period s) g = get s g := by
  have hlimited : fieldKey (R.PST_PH_CNT.LIMITED n) ≠ fieldKey g := offPhases_ne h (by simp only [R.PST_PH_CNT.LIMITED]; omega)
  have htrim : fieldKey (R.PST_PH_DUTY.TRIM n) ≠ fieldKey g := offPhases_ne h (by simp only [R.PST_PH_DUTY.TRIM]; omega)
  unfold formEdge
  dsimp only
  rw [get_emit, get_put_ne hlimited, get_setPhase, get_when (get_put_ne htrim ..)]

/-- A rail that enters HOLD, up to the duty it holds (R184). -/
def holdMarked (r cause : Nat) (s : State) : State :=
  s |> put (R.LPE_STAT.STATE r) lpHOLD |> put (R.LPE_STAT.CAUSE r) cause |> event R.LPE_EVENT (if cause = 2 then 3 else 1)
    |> setRail r { railOf s r with pe := 0, cmpRun := 0 } |> when (decide (r < 16)) (put (R.ITN_DIE_STAT.PE r) 0)

/-- The coming period of a rail in HOLD (R177, R183). -/
def heldEdges (r : Nat) (s : State) : State :=
  each ((phasesOf r).filter fun n => phSwitching (phState s n)) (fun n => formEdge r n (heldDuty s r) s.clk.next) s

/-- A rail in HOLD, up to the fault. -/
def holdDriven (r cause : Nat) (s : State) : State :=
  let u := holdMarked r cause s
  put (R.LPE_DUTY.U_SAT r) (heldDuty u r) u |> heldEdges r |> stopTest r

theorem enterHold_eq (r cause : Nat) (s : State) : enterHold r cause s =
    when (decide (r < 32)) (refit (r % 16)) (recordRail 0x0301 r (r + cause * 2 ^ 8) (faultOn 1 (holdDriven r cause s))) := rfl

theorem get_heldEdges (h : OffPhases g) (r : Nat) (s : State) : get (heldEdges r s) g = get s g :=
  each_keeps (φ := fun u => get u g) (fun n u => get_formEdge h r n _ _ u) _ s

/-- After its phases a rail in HOLD writes no low register but the duty it holds. -/
theorem get_enterHold (h : OffPhases g) : get (enterHold r cause s) g =
    get (put (R.LPE_DUTY.U_SAT r) (heldDuty (holdMarked r cause s) r) (holdMarked r cause s)) g := by
  have hrefit : ∀ u, get (refit (r % 16) u) g = get u g := fun u =>
    (foot_refit (Names.one (d := r % 16)) (Print.Sub.refl _) (Within.refl _ u)).get (free_refit (.inl (by have := h.place; omega)))
  rw [enterHold_eq, get_when (hrefit _), (foot_recordRail (Print.Sub.refl _) (Within.refl _ _)).get free_recordRail,
    (foot_faultOn (Print.Sub.refl _) (Within.refl _ _)).get (free_faultOn h.toLow), holdDriven, get_stopTest, get_heldEdges h]

theorem get_holdMarked (h : Low g) (hstate : fieldKey (R.LPE_STAT.STATE r) ≠ fieldKey g) (hcause : fieldKey (R.LPE_STAT.CAUSE r) ≠ fieldKey g)
    (hevent : fieldKey R.LPE_EVENT ≠ fieldKey g) : get (holdMarked r cause s) g = get s g := by
  have hpe : fieldKey (R.ITN_DIE_STAT.PE r) ≠ fieldKey g := h.ne (by simp only [R.ITN_DIE_STAT.PE]; omega)
  rw [holdMarked, get_when (get_put_ne hpe ..), get_setRail, get_event_ne hevent, get_put_ne hcause, get_put_ne hstate]

theorem railOf_holdMarked : railOf (holdMarked r cause s) r = { railOf s r with pe := 0, cmpRun := 0 } := by
  have hpe : ∀ (c : Bool) u, railOf (when c (put (R.ITN_DIE_STAT.PE r) 0) u) r = railOf u r := by
    rintro ⟨⟩ u
    · rfl
    · rw [when_true, railOf_of (put_rails ..)]
  rw [holdMarked, hpe, railOf_setRail]

/-- The held duty is formed from what entering HOLD leaves as it is (R183). -/
theorem heldDuty_holdMarked : heldDuty (holdMarked r cause s) r = heldDuty s r := by
  have hget : ∀ g, Low g → (g.off * 32 + g.lo < 0x040008 * 32 ∨ g = R.LPE_DUTY.SAFE r) → get (holdMarked r cause s) g = get s g := by
    rintro g h hp
    refine get_holdMarked h (key_ne ?_) (key_ne ?_) (key_ne ?_) <;> rcases hp with hp | rfl <;>
      simp only [R.LPE_STAT.STATE, R.LPE_STAT.CAUSE, R.LPE_EVENT, R.LPE_DUTY.SAFE] <;> omega
  have hsafe := hget (R.LPE_DUTY.SAFE r) (low_paged (by decide) (by omega)) (.inr rfl)
  have hvin := hget R.PST_VIN.VIN (low_of nofun (by decide) (by decide) (by decide) (by decide)) (.inl (by decide))
  have hnom := hget R.LPE_VIN.VIN_NOM (low_of nofun (by decide) (by decide) (by decide) (by decide)) (.inl (by decide))
  have hfloor := hget R.LPE_VIN.VIN_FLOOR (low_of nofun (by decide) (by decide) (by decide) (by decide)) (.inl (by decide))
  have hcoef : (railOf (holdMarked r cause s) r).coef = (railOf s r).coef := by rw [railOf_holdMarked]
  have hsafeV : (railOf (holdMarked r cause s) r).vinSafe = (railOf s r).vinSafe := by rw [railOf_holdMarked]
  unfold heldDuty vinUsed
  dsimp only
  rw [hsafe, hvin, hnom, hfloor, hcoef, hsafeV]

theorem offPhases_loop {f : Field} (hlow : Low f) (hp : 0x040000 * 32 ≤ f.off * 32 + f.lo) : OffPhases f := ⟨hlow, .inr (by omega)⟩

/-- A rail enters HOLD (R184). -/
theorem holdEntered (hcause : cause = 1 ∨ cause = 2) : HoldEntered s (finish (enterHold r cause s)) r cause := by
  have hstate : Low (R.LPE_STAT.STATE r) := low_paged (by decide) (by omega)
  have hwhy : Low (R.LPE_STAT.CAUSE r) := low_paged (by decide) (by omega)
  have hduty : Low (R.LPE_DUTY.U_SAT r) := low_paged (by decide) (by omega)
  have hevent : Low R.LPE_EVENT := low_of nofun (by decide) (by decide) (by decide) (by decide)
  have hpe : ∀ {g : Field}, Low g → ∀ u, get (when (decide (r < 16)) (put (R.ITN_DIE_STAT.PE r) 0) u) g = get u g := fun h u =>
    get_when (get_put_ne (h.ne (by simp only [R.ITN_DIE_STAT.PE]; omega)) ..)
  refine ⟨?_, ?_, ?_, ?_, ?_⟩
  · rw [loopState, get_finish_low hstate, get_enterHold (offPhases_loop hstate (by simp only [R.LPE_STAT.STATE]; omega)), get_put_ne (key_ne ?_),
      holdMarked, hpe hstate, get_setRail, get_event_ne (key_ne ?_), get_put_ne (key_ne ?_), get_put_self (by nofun)]
    · rfl
    all_goals simp only [R.LPE_STAT.STATE, R.LPE_STAT.CAUSE, R.LPE_DUTY.U_SAT, R.LPE_EVENT]; omega
  · rw [get_finish_low hwhy, get_enterHold (offPhases_loop hwhy (by simp only [R.LPE_STAT.CAUSE]; omega)), get_put_ne (key_ne ?_),
      holdMarked, hpe hwhy, get_setRail, get_event_ne (key_ne ?_), get_put_self (by nofun)]
    · rcases hcause with rfl | rfl <;> rfl
    all_goals simp only [R.LPE_STAT.CAUSE, R.LPE_DUTY.U_SAT, R.LPE_EVENT]; omega
  · have hrefit : ∀ u, get (refit (r % 16) u) R.SAF_FAULT = get u R.SAF_FAULT := fun u =>
      (foot_refit (Names.one (d := r % 16)) (Print.Sub.refl _) (Within.refl _ u)).get (free_refit (.inr (by decide)))
    rw [get_finish (by decide) (by decide), enterHold_eq, get_when (hrefit _),
      (foot_recordRail (Print.Sub.refl _) (Within.refl _ _)).get free_recordRail]
    exact bit_faultOn_self (by decide) _
  · rw [get_finish_low hduty, get_enterHold (offPhases_loop hduty (by simp only [R.LPE_DUTY.U_SAT]; omega)), get_put_self (by nofun),
      heldDuty_holdMarked]
    rfl
  · rw [get_finish_low hevent, get_enterHold (offPhases_loop hevent (by decide)), get_put_ne (key_ne ?_), holdMarked, hpe hevent, get_setRail]
    · exact bit_event_self (by nofun) (by split <;> decide) _
    · simp only [R.LPE_DUTY.U_SAT, R.LPE_EVENT]; omega

theorem test_heldEdges : (heldEdges r s).test = s.test := by
  refine each_keeps (φ := State.test) (fun n u => ?_) _ s
  exact (foot_formEdge (o_n := none) Names.any (Print.Sub.refl _) (Within.refl _ u)).parts .test (by decide) (by decide)

theorem test_holdMarked : (holdMarked r cause s).test = s.test := by
  have hpe : ∀ (c : Bool) u, (when c (put (R.ITN_DIE_STAT.PE r) 0) u).test = u.test := by
    rintro ⟨⟩ u
    · rfl
    · rw [when_true, put_test]
  rw [holdMarked, hpe, setRail_test, event, put_test, put_test, put_test]

/-- A loop test of a rail that enters HOLD stops (R198). -/
theorem stop_enterHold (hgoes : testGoes s = true) (hrail : s.test.rail = r) : (finish (enterHold r cause s)).test.stop = true := by
  have hafter : (finish (enterHold r cause s)).test = (holdDriven r cause s).test := by
    have hrefit : ∀ (c : Bool) u, (when c (refit (r % 16)) u).test = u.test := by
      rintro ⟨⟩ u
      · rfl
      · exact (foot_refit (o_d := none) (d := r % 16) Names.any (Print.Sub.refl _) (Within.refl _ u)).parts .test (by decide) (by decide)
    rw [(Within.finish _).parts .test (by decide) (by decide), enterHold_eq, hrefit,
      (foot_recordRail (Print.Sub.refl _) (Within.refl _ _)).parts .test (by decide) (by decide),
      (foot_faultOn (Print.Sub.refl _) (Within.refl _ _)).parts .test (by decide) (by decide)]
  let u := heldEdges r (put (R.LPE_DUTY.U_SAT r) (heldDuty (holdMarked r cause s) r) (holdMarked r cause s))
  have htest : u.test = s.test := test_heldEdges.trans ((put_test ..).trans test_holdMarked)
  have hlow : Low R.LPE_CAP_STAT.STATE := low_of nofun (by decide) (by decide) (by decide) (by decide)
  have hcap : get u R.LPE_CAP_STAT.STATE = get s R.LPE_CAP_STAT.STATE := by
    refine (get_heldEdges (offPhases_loop hlow (by decide)) r _).trans ((get_put_ne (key_ne ?_) ..).trans
      (get_holdMarked hlow (key_ne ?_) (key_ne ?_) (key_ne ?_))) <;>
      simp only [R.LPE_DUTY.U_SAT, R.LPE_STAT.STATE, R.LPE_STAT.CAUSE, R.LPE_EVENT, R.LPE_CAP_STAT.STATE] <;> omega
  simp only [testGoes, Bool.and_eq_true, decide_eq_true_eq] at hgoes
  obtain ⟨⟨hrun, -⟩, hopen⟩ := hgoes
  have hstops : holdDriven r cause s = { u with test := { u.test with stop := true } } :=
    if_pos ⟨htest ▸ hrun, htest ▸ hrail, hcap ▸ hopen⟩
  rw [hafter, hstops]

/-- CMP_HOLD (R177, R184). -/
theorem cmpHold_holds (hfit : railFitted s r = true) (hcmp : cmpFails s r = true) :
    ∃ t, exec (.cmpHold r) s = .next t ∧ HoldEntered s t r 2 ∧ (testGoes s = true → s.test.rail = r → t.test.stop = true) :=
  ⟨_, congrArg done (if_pos ⟨hfit, hcmp⟩), holdEntered (.inr rfl), stop_enterHold⟩

/-- FE_HOLD (R181, R184, R185). -/
theorem feHold_holds (hfit : railFitted s r = true) (hloop : loopState s r = lpEXCURSION) (htime : (railOf s r).coef.time ≤ s.us - (railOf s r).excUs) :
    ∃ t, exec (.feHold r) s = .next t ∧ HoldEntered s t r (if cmpFails s r then 2 else 1) :=
  ⟨_, congrArg done (if_pos ⟨hfit, hloop, htime⟩), holdEntered (by split <;> simp)⟩

/-- LOOP_RESUME of a rail in HOLD (R186). -/
theorem loopResume_tracks (hw : Waiting s 0x0301 port tag fl) (hpar : par fl 0 = r) (hr : r < 33) (hloop : loopState s r = lpHOLD)
    (hlost : get s (R.PST_RAIL_STAT.LOST r) = 0) :
    ∃ t, exec (.loopResume port tag) s = .next t ∧ Completed s t fl sOK 0 0 ∧ loopState t r = lpTRACK ∧
      get t (R.LPE_STAT.CAUSE r) = 0 ∧ (railOf t r).resume = true := by
  have hstate : Low (R.LPE_STAT.STATE r) := low_paged (by decide) (by omega)
  have hwhy : Low (R.LPE_STAT.CAUSE r) := low_paged (by decide) (by omega)
  have hsize : ¬ r / 2 ^ 6 ≠ 0 := by omega
  have hrange : ¬ 32 < r := by omega
  let u := setRail r { railOf s r with resume := true, cmpRun := 0 } (put (R.LPE_STAT.CAUSE r) 0 (put (R.LPE_STAT.STATE r) lpTRACK s))
  have hruns : exec (.loopResume port tag) s = .next (finish (complete fl sOK 0 0 u)) := by
    refine congrArg done ((command_of hw ?_).trans (by rw [hpar]))
    rw [hpar]
    simp only [firstFail, decide_eq_false hsize, decide_eq_false hrange, Bool.false_eq_true, if_false]
    exact if_neg (by simp [hloop, isOn, hlost])
  have hquiet : Unanswered s u := (Unanswered.put (by have := hstate.place; omega) lpTRACK s).trans
    ((Unanswered.put (by have := hwhy.place; omega) 0 _).trans (.setRail ..))
  have hapart : fieldKey (R.LPE_STAT.CAUSE r) ≠ fieldKey (R.LPE_STAT.STATE r) :=
    key_ne (by simp only [R.LPE_STAT.CAUSE, R.LPE_STAT.STATE]; omega)
  have hrail : railOf (finish (complete fl sOK 0 0 u)) r = railOf u r :=
    railOf_of ((rails_finish _).trans ((foot_complete (Print.Sub.refl _) (Within.refl _ u)).parts .rails (by decide) (by decide))) r
  refine ⟨_, hruns, hquiet.completed fl sOK 0 0, ?_, ?_, ?_⟩
  · exact (get_answered hstate ..).trans ((get_setRail ..).trans ((get_put_ne hapart ..).trans (get_put_self (by nofun) ..)))
  · exact (get_answered hwhy ..).trans ((get_setRail ..).trans (get_put_self (by nofun) ..))
  · rw [hrail, railOf_setRail]

/-- LOOP_RESUME of a rail that is not in HOLD, or is LOST (R200). -/
theorem loopResume_state (hw : Waiting s 0x0301 port tag fl) (hpar : par fl 0 = r) (hr : r < 33)
    (hno : loopState s r ≠ lpHOLD ∨ isOn s (R.PST_RAIL_STAT.LOST r) = true) :
    ∃ t, exec (.loopResume port tag) s = .next t ∧ Completed s t fl sWRONG_STATE 0 0 := by
  have hsize : ¬ r / 2 ^ 6 ≠ 0 := by omega
  have hrange : ¬ 32 < r := by omega
  refine ⟨_, congrArg done (command_of_fail hw (st := sWRONG_STATE) ?_), (Unanswered.refl s).completed fl _ 0 0⟩
  rw [hpar]
  simp only [firstFail, decide_eq_false hsize, decide_eq_false hrange, Bool.false_eq_true, if_false]
  exact if_pos (by simpa using hno)

/-- LOOP_RESUME of a rail that does not exist (R200). -/
theorem loopResume_range (hw : Waiting s 0x0301 port tag fl) (hpar : par fl 0 = r) (hlo : 32 < r) (hhi : r < 2 ^ 6) :
    ∃ t, exec (.loopResume port tag) s = .next t ∧ Completed s t fl sOUT_OF_RANGE 0 0 := by
  have hsize : ¬ r / 2 ^ 6 ≠ 0 := by omega
  refine ⟨_, congrArg done (command_of_fail hw (st := sOUT_OF_RANGE) ?_), (Unanswered.refl s).completed fl _ 0 0⟩
  rw [hpar]
  simp only [firstFail, decide_eq_false hsize, decide_eq_true hlo, Bool.false_eq_true, if_false, if_true]

end

end Sys2Proof.Machine

/-! What the cycle of the stage controller leaves of the loops of the rails (R101, R117 to R143, R163 to R166). -/

namespace Sys2Proof.Machine

/-- From s to t neither the registers of a set nor the last agreed duty and the disagreements of rail r changed. -/
structure LoopStays (P : Field → Prop) (r : Nat) (s t : State) : Prop where
  regs : ∀ g, P g → get t g = get s g
  uSat : (railOf t r).uSat = (railOf s r).uSat
  cmpRun : (railOf t r).cmpRun = (railOf s r).cmpRun

theorem railOf_setRail_ne {k r : Nat} (h : k ≠ r) (v : RailH) (s : State) : railOf (setRail k v s) r = railOf s r := sget_sset_ne _ _ _ h _

namespace LoopStays

variable {P Q : Field → Prop} {r : Nat} {s t u : State}

theorem refl (s : State) : LoopStays P r s s := ⟨fun _ _ => rfl, rfl, rfl⟩

theorem trans (h : LoopStays P r s t) (k : LoopStays P r t u) : LoopStays P r s u :=
  ⟨fun g hg => (k.regs g hg).trans (h.regs g hg), k.uSat.trans h.uSat, k.cmpRun.trans h.cmpRun⟩

theorem mono (h : LoopStays P r s t) (hPQ : ∀ g, Q g → P g) : LoopStays Q r s t := ⟨fun g hg => h.regs g (hPQ g hg), h.uSat, h.cmpRun⟩

theorem of_rails (hregs : ∀ g, P g → get t g = get s g) (hrails : t.rails = s.rails) : LoopStays P r s t := by
  have hr := railOf_of hrails r
  exact ⟨hregs, congrArg RailH.uSat hr, congrArg RailH.cmpRun hr⟩

theorem put {f : Field} (hf : ∀ g, P g → fieldKey f ≠ fieldKey g) (v : Nat) (s : State) : LoopStays P r s (put f v s) :=
  of_rails (fun g hg => get_put_ne (hf g hg) v s) (put_rails ..)

theorem event {f : Field} (hf : ∀ g, P g → fieldKey f ≠ fieldKey g) (b : Nat) (s : State) : LoopStays P r s (event f b s) := put hf _ s

theorem setRail {k : Nat} {h : RailH} {s : State} (hu : h.uSat = (railOf s k).uSat) (hc : h.cmpRun = (railOf s k).cmpRun) :
    LoopStays P r s (setRail k h s) := by
  by_cases hk : k = r
  · subst hk
    exact ⟨fun g _ => get_setRail .., by rw [railOf_setRail, hu], by rw [railOf_setRail, hc]⟩
  · have hr := railOf_setRail_ne hk h s
    exact ⟨fun g _ => get_setRail .., congrArg RailH.uSat hr, congrArg RailH.cmpRun hr⟩

theorem when {f : State → State} (hf : LoopStays P r s (f s)) (c : Bool) : LoopStays P r s (when c f s) := by
  cases c
  · exact refl s
  · exact hf

theorem each {α : Type} {f : α → State → State} {l : List α} (hf : ∀ x ∈ l, ∀ u, LoopStays P r u (f x u)) (s : State) :
    LoopStays P r s (each l f s) :=
  each_induct (P := LoopStays P r s) (fun x hx u hu => hu.trans (hf x hx u)) (refl s)

/-- A footprint without the rails and the registers of the set. -/
theorem within {p : Print} (hk : Within p s t) (hfree : ∀ g, P g → p.Free g) (hpart : Part.rails ∉ p.parts)
    (hcell : ∀ c ∈ p.cells, c.part ≠ .rails) : LoopStays P r s t :=
  of_rails (fun g hg => hk.get (hfree g hg)) (hk.parts .rails hpart hcell)

end LoopStays

/-- A register that the cycle of the stage controller leaves as it is, the control law apart. -/
structure Kin (g : Field) : Prop where
  place : g.off * 32 + g.lo < 0x020010 * 32 ∨ 0x022000 * 32 ≤ g.off * 32 + g.lo ∧ g.off * 32 + g.lo < 0x080000 * 32 ∨
    0x081000 * 32 ≤ g.off * 32 + g.lo ∧ g.off * 32 + g.lo < 2 ^ 27
  vref : ∀ k, fieldKey (R.LPE_V.VREF k) ≠ fieldKey g

/-- The registers of the phases and those of the die's interface that the cycle writes. -/
theorem Kin.ne {f g : Field} (h : Kin g) (hf : 0x020010 * 32 ≤ f.off * 32 + f.lo ∧ f.off * 32 + f.lo < 0x022000 * 32 ∨
    0x080000 * 32 ≤ f.off * 32 + f.lo ∧ f.off * 32 + f.lo < 0x081000 * 32) : fieldKey f ≠ fieldKey g := by
  have hp := h.place
  exact key_ne_of_lt (by omega) (by omega) (by omega)

section

variable {r : Nat} {s : State}

theorem kin_phaseReg {f : Nat → Field} (hf : ∀ n, 0x021000 * 32 ≤ (f n).off * 32 + (f n).lo ∧ (f n).off * 32 + (f n).lo < 0x022000 * 32) :
    ∀ g, Kin g → ∀ n, fieldKey (f n) ≠ fieldKey g := fun _ hg n => hg.ne (by have := hf n; omega)

theorem kin_duty : ∀ g, Kin g → ∀ n, fieldKey (R.PST_PH_DUTY.DUTY n) ≠ fieldKey g :=
  kin_phaseReg fun n => by simp only [R.PST_PH_DUTY.DUTY]; omega

theorem kin_trim : ∀ g, Kin g → ∀ n, fieldKey (R.PST_PH_DUTY.TRIM n) ≠ fieldKey g :=
  kin_phaseReg fun n => by simp only [R.PST_PH_DUTY.TRIM]; omega

theorem kin_limited : ∀ g, Kin g → ∀ n, fieldKey (R.PST_PH_CNT.LIMITED n) ≠ fieldKey g :=
  kin_phaseReg fun n => by simp only [R.PST_PH_CNT.LIMITED]; omega

theorem kin_state : ∀ g, Kin g → ∀ n, fieldKey (R.PST_PH_STAT.STATE n) ≠ fieldKey g :=
  kin_phaseReg fun n => by simp only [R.PST_PH_STAT.STATE]; omega

theorem kin_event : ∀ g, Kin g → fieldKey R.PST_EVENT ≠ fieldKey g := fun _ hg => hg.ne (by decide)

theorem kin_braking (k : Nat) : ∀ g, Kin g → fieldKey (R.PST_RAIL_STAT.BRAKING k) ≠ fieldKey g :=
  fun _ hg => hg.ne (by simp only [R.PST_RAIL_STAT.BRAKING]; omega)

theorem loopStays_setPhase (n : Nat) (v : PhaseH) (s : State) : LoopStays Kin r s (setPhase n v s) := .of_rails (fun _ _ => get_setPhase ..) rfl

theorem loopStays_showDuty (n : Nat) (s : State) : LoopStays Kin r s (showDuty n s) := by
  unfold showDuty
  dsimp only
  exact (LoopStays.when (.put (fun g hg => kin_duty g hg n) _ s) _).trans (loopStays_setPhase ..)

theorem loopStays_nextInjection (s : State) : LoopStays Kin r s (nextInjection s) := by
  refine .within (foot_nextInjection (Print.Sub.refl _) (Within.refl _ s)) (fun g _ => ?_) (by decide) (by decide)
  simp only [fp_nextInjection, fp_setTest, Print.free_cons, Print.free_nil, Print.free_prt, and_true]

theorem loopStays_sendThreshold (d v : Nat) (s : State) : LoopStays Kin r s (sendThreshold d v s) := by
  refine .within (foot_sendThreshold (o_d := none) Names.any (Print.Sub.refl _) (Within.refl _ s)) (fun g _ => ?_) (by decide) ?_
  · simp only [fp_sendThreshold, fp_sendDown, fp_sendMsg, fp_sendFrame, Print.free_cons, Print.free_nil, Print.free_prt, Print.free_row, and_true]
  · nofun

theorem loopStays_noteAbove (d : Nat) (s : State) : LoopStays Kin r s (noteAbove d s) := by
  unfold noteAbove
  dsimp only
  split
  · exact .refl s
  · exact .of_rails (fun g _ => get_setItn ..) rfl

theorem loopStays_refStep (k : Nat) (s : State) : LoopStays Kin r s (refStep k s) := by
  have hpe : ∀ g, Kin g → fieldKey (R.ITN_DIE_STAT.PE k) ≠ fieldKey g := fun _ hg => hg.ne (by simp only [R.ITN_DIE_STAT.PE]; omega)
  have himax : ∀ g, Kin g → fieldKey (R.ITN_DIE_PRED.IMAX k) ≠ fieldKey g := fun _ hg => hg.ne (by simp only [R.ITN_DIE_PRED.IMAX]; omega)
  have hempty : ∀ g, Kin g → fieldKey (R.ITN_DIE_STAT.EMPTY k) ≠ fieldKey g := fun _ hg => hg.ne (by simp only [R.ITN_DIE_STAT.EMPTY]; omega)
  have hvref : ∀ g, Kin g → fieldKey (R.LPE_V.VREF k) ≠ fieldKey g := fun _ hg => hg.vref k
  unfold refStep
  dsimp only
  refine (LoopStays.setRail ?_ ?_).trans ((LoopStays.setRail ?_ ?_).trans ((LoopStays.when (loopStays_nextInjection _) _).trans
    ((LoopStays.put hvref _ _).trans (LoopStays.when ((LoopStays.put hpe _ _).trans ((LoopStays.put himax _ _).trans
      ((LoopStays.put hempty _ _).trans ((loopStays_sendThreshold ..).trans (loopStays_noteAbove ..))))) _))))
  · split <;> rfl
  · split <;> rfl
  · rw [railOf_setRail]
  · rw [railOf_setRail]

theorem loopStays_endBrake (k q : Nat) (s : State) : LoopStays Kin r s (endBrake k q s) := by
  unfold endBrake
  split
  · refine (LoopStays.put (kin_braking q) _ _).trans (.setRail ?_ ?_) <;> rw [railOf_of (put_rails ..)]
  · exact .refl s

theorem loopStays_brakeStep (k : Nat) (s : State) : LoopStays Kin r s (brakeStep k s) := by
  unfold brakeStep
  dsimp only
  split
  · split
    · exact loopStays_endBrake ..
    · exact .refl s
  · have hrest : LoopStays Kin r s (setRail k { railOf s k with brakeRest := min 6 ((railOf s k).brakeRest + 1) } s) := .setRail rfl rfl
    generalize setRail k { railOf s k with brakeRest := min 6 ((railOf s k).brakeRest + 1) } s = u at hrest ⊢
    split
    · refine (hrest.trans (LoopStays.setRail ?_ ?_)).trans ((LoopStays.put (kin_braking k) 1 _).trans (.event kin_event 2 _)) <;> rfl
    · exact hrest

theorem loopStays_rampShares (k : Nat) (s : State) : LoopStays Kin r s (rampShares k s) := by
  unfold rampShares
  refine .each (fun n _ u => ?_) s
  dsimp only
  split
  · exact loopStays_setPhase ..
  · split
    · exact loopStays_setPhase ..
    · exact .refl u

theorem loopStays_setPh (n c : Nat) (s : State) : LoopStays Kin r s (setPh n c s) := .put (fun g hg => kin_state g hg n) c s

theorem loopStays_enterSoft (n k : Nat) (s : State) : LoopStays Kin r s (enterSoft n k s) := by
  unfold enterSoft
  exact (loopStays_setPh ..).trans ((loopStays_setPhase ..).trans (LoopStays.when (.put (fun g hg => kin_trim g hg n) 0 _) _))

theorem loopStays_unshedPhase (k n : Nat) (s : State) : LoopStays Kin r s (unshedPhase k n s) := by
  unfold unshedPhase
  split
  · exact (loopStays_endBrake ..).trans (loopStays_enterSoft ..)
  · split
    · exact (loopStays_endBrake ..).trans ((loopStays_setPh ..).trans ((loopStays_setPhase ..).trans (.event kin_event _ _)))
    · exact .refl s

theorem loopStays_unshedTo (k n : Nat) (s : State) : LoopStays Kin r s (unshedTo k n s) := by
  unfold unshedTo
  refine .each (fun m _ u => ?_) s
  split
  · exact loopStays_unshedPhase ..
  · exact .refl u

theorem loopStays_unshedStep (k : Nat) (s : State) : LoopStays Kin r s (unshedStep k s) := by
  have hto : ∀ (c : Prop) [Decidable c] n, LoopStays Kin r s (if c then unshedTo k n s else s) := by
    intro c _ n
    split
    · exact loopStays_unshedTo ..
    · exact .refl s
  unfold unshedStep unshedAll
  split
  · exact .each (fun n _ u => loopStays_unshedPhase ..) s
  · exact hto _ _

theorem loopStays_noteSkim (k : Nat) (s : State) : LoopStays Kin r s (noteSkim k s) := .setRail rfl rfl

theorem loopStays_trimStep (k : Nat) (s : State) : LoopStays Kin r s (trimStep k s) :=
  .each (fun n _ u => .put (fun g hg => kin_trim g hg n) _ u) s

theorem loopStays_checkStep (k : Nat) (s : State) : LoopStays Kin r s (checkStep k s) := by
  unfold checkStep
  exact .each (fun _ _ _ => loopStays_setPhase ..) s

theorem loopStays_endSoft (k : Nat) (s : State) : LoopStays Kin r s (endSoft k s) := by
  unfold endSoft
  dsimp only
  split
  · exact .setRail rfl rfl
  · exact .refl s

theorem loopStays_endLimited (n : Nat) (s : State) : LoopStays Kin r s (endLimited n s) := by
  unfold endLimited
  split
  · exact loopStays_setPhase ..
  · exact .refl s

theorem loopStays_phaseStep (k n duty period : Nat) (held : Bool) (s : State) : LoopStays Kin r s (phaseStep k n duty period held s) := by
  unfold phaseStep formEdge
  dsimp only
  refine (loopStays_setPhase ..).trans ((LoopStays.when (.put (fun g hg => kin_trim g hg n) _ _) _).trans ((loopStays_setPhase ..).trans
    ((LoopStays.put (fun g hg => kin_limited g hg n) _ _).trans (.of_rails (fun g _ => get_emit ..) rfl))))

/-- The work of a rail's cycle up to its control law (R166). -/
def beforeLaw (r : Nat) (s : State) : State :=
  s |> each ((phasesOf r).filter (phaseFitted s)) showDuty |> refStep r |> brakeStep r |> rampShares r |> unshedStep r |> noteSkim r |> trimStep r |> checkStep r

/-- The work of a rail's cycle after its control law: its phases' coming periods (R101, R166). -/
def afterLaw (period : Nat) (held : Bool) (resting : List Nat) (r : Nat) (s : State) : State :=
  let s := s |> endSoft r |> each resting endLimited
  each ((phasesOf r).filter fun n => phSwitching (phState s n)) (fun n s => phaseStep r n (get s (R.LPE_DUTY.U_SAT r)) period held s) s

theorem evalRail_off {period dis : Nat} (h : loopState s r = lpOFF) : evalRail period dis r s = s := if_pos h

theorem loopStays_beforeLaw (k : Nat) (s : State) : LoopStays Kin r s (beforeLaw k s) :=
  (LoopStays.each (fun n _ u => loopStays_showDuty n u) s).trans ((loopStays_refStep ..).trans ((loopStays_brakeStep ..).trans
    ((loopStays_rampShares ..).trans ((loopStays_unshedStep ..).trans ((loopStays_noteSkim ..).trans ((loopStays_trimStep ..).trans
      (loopStays_checkStep ..)))))))

theorem loopStays_afterLaw (period : Nat) (held : Bool) (l : List Nat) (k : Nat) (s : State) : LoopStays Kin r s (afterLaw period held l k s) := by
  unfold afterLaw
  exact (loopStays_endSoft ..).trans ((LoopStays.each (fun n _ u => loopStays_endLimited n u) _).trans
    (.each (fun n _ u => loopStays_phaseStep ..) _))

end

end Sys2Proof.Machine

/-! The control law of a rail beside those of the others (R168 to R182). -/

namespace Sys2Proof.Machine

/-- A register in the window of rail k's loop. -/
structure InLoop (k : Nat) (g : Field) : Prop where
  cls : g.cls = .keep
  page : g.page = pageIf (k < 33) 0
  unit : g.unit = 16
  off : 0x041000 + 0x40 * (k % 33) ≤ g.off ∧ g.off < 0x041040 + 0x40 * (k % 33)
  lo : g.lo < 32

/-- The registers of two rails' loops differ. -/
theorem InLoop.ne {j k : Nat} {f g : Field} (hf : InLoop j f) (hg : InLoop k g) (hj : j < 33) (hne : j ≠ k) : fieldKey f ≠ fieldKey g := by
  obtain ⟨hfc, hfp, hfu, hfo, hfl⟩ := hf
  obtain ⟨hgc, hgp, hgu, hgo, hgl⟩ := hg
  simp only [fieldKey, hfc, hgc, hfu, hgu, hfp, hgp, pageIf, if_pos hj]
  by_cases hk : k < 33
  · simp only [if_pos hk]
    omega
  · simp only [if_neg hk]
    omega

/-- What an evaluation reads and leaves of rail r: the state and the duties of its loop, and the boot stage. -/
def Held (r : Nat) (g : Field) : Prop := g = R.LPE_STAT.STATE r ∨ g = R.LPE_DUTY.SAFE r ∨ g = R.LPE_DUTY.U_SAT r ∨ g = R.BOOT_STAT.STAGE

section

variable {r k : Nat} {g : Field} {s t u : State}

theorem inLoop_state (k : Nat) : InLoop k (R.LPE_STAT.STATE k) := ⟨rfl, rfl, rfl, by simp only [R.LPE_STAT.STATE]; omega, (by decide : 0 < 32)⟩
theorem inLoop_frozen (k : Nat) : InLoop k (R.LPE_STAT.FROZEN k) := ⟨rfl, rfl, rfl, by simp only [R.LPE_STAT.FROZEN]; omega, (by decide : 6 < 32)⟩
theorem inLoop_duty (k : Nat) : InLoop k (R.LPE_DUTY.U_SAT k) := ⟨rfl, rfl, rfl, by simp only [R.LPE_DUTY.U_SAT]; omega, (by decide : 0 < 32)⟩
theorem inLoop_safe (k : Nat) : InLoop k (R.LPE_DUTY.SAFE k) := ⟨rfl, rfl, rfl, by simp only [R.LPE_DUTY.SAFE]; omega, (by decide : 16 < 32)⟩
theorem inLoop_int (k : Nat) : InLoop k (R.LPE_INT.I k) := ⟨rfl, rfl, rfl, by simp only [R.LPE_INT.I]; omega, (by decide : 0 < 32)⟩

theorem held_cases (h : Held r g) : InLoop r g ∨ g = R.BOOT_STAT.STAGE := by
  rcases h with rfl | rfl | rfl | rfl
  · exact .inl (inLoop_state r)
  · exact .inl (inLoop_safe r)
  · exact .inl (inLoop_duty r)
  · exact .inr rfl

/-- Where the registers held stand. -/
theorem Held.place (h : Held r g) : 0x041000 * 32 ≤ g.off * 32 + g.lo ∧ g.off * 32 + g.lo < 0x042000 * 32 ∨
    g.off * 32 + g.lo = 0x160000 * 32 := by
  rcases held_cases h with h | rfl
  · have hoff := h.off
    have hlo := h.lo
    omega
  · exact .inr rfl

theorem Held.ne {f : Field} (h : Held r g) (hf : f.off * 32 + f.lo < 0x041000 * 32 ∨
    0x042000 * 32 ≤ f.off * 32 + f.lo ∧ f.off * 32 + f.lo < 2 ^ 27 ∧ f.off * 32 + f.lo ≠ 0x160000 * 32) : fieldKey f ≠ fieldKey g := by
  have hp := h.place
  exact key_ne_of_lt (by omega) (by omega) (by omega)

/-- The registers of another rail's loop. -/
theorem Held.ne_other {f : Field} (hf : InLoop k f) (hk : k < 33) (hne : k ≠ r) : ∀ g, Held r g → fieldKey f ≠ fieldKey g := by
  intro g h
  rcases held_cases h with h | rfl
  · exact hf.ne h hk hne
  · have hoff := hf.off
    have hlo := hf.lo
    exact key_ne_of_lt (by omega) (by decide) (by simp only [R.BOOT_STAT.STAGE]; omega)

theorem Held.kin (h : Held r g) : Kin g := by
  refine ⟨by have := h.place; omega, fun k => key_ne ?_⟩
  rcases h with rfl | rfl | rfl | rfl <;> simp only [R.LPE_V.VREF, R.LPE_STAT.STATE, R.LPE_DUTY.SAFE, R.LPE_DUTY.U_SAT, R.BOOT_STAT.STAGE] <;> omega

/-- The duties of a rail's loop and the boot stage. -/
def HeldDuty (r : Nat) (g : Field) : Prop := g = R.LPE_DUTY.SAFE r ∨ g = R.LPE_DUTY.U_SAT r ∨ g = R.BOOT_STAT.STAGE

theorem HeldDuty.held (h : HeldDuty r g) : Held r g := .inr h

/-- The state of a rail's loop and the boot stage. -/
def HeldState (r : Nat) (g : Field) : Prop := g = R.LPE_STAT.STATE r ∨ g = R.BOOT_STAT.STAGE

theorem HeldState.held (h : HeldState r g) : Held r g := h.imp_right fun h => .inr (.inr h)

theorem held_stage (r : Nat) : Held r R.BOOT_STAT.STAGE := .inr (.inr (.inr rfl))

theorem LoopStays.stage (h : LoopStays (Held r) r s t) : stage t = stage s := h.regs _ (held_stage r)

theorem held_lead (k : Nat) : ∀ g, Held r g → fieldKey (R.ITN_DIE_PRED2.ILEAD k) ≠ fieldKey g :=
  fun _ h => h.ne (by simp only [R.ITN_DIE_PRED2.ILEAD]; omega)

theorem held_event : ∀ g, Held r g → fieldKey R.LPE_EVENT ≠ fieldKey g := fun _ h => h.ne (by decide)

theorem held_count : ∀ g, Held r g → fieldKey R.LPE_CMP_CNT.COUNT ≠ fieldKey g := fun _ h => h.ne (by decide)

/-- No loop moves as a test takes its sample (R193 to R197). -/
theorem loopStays_testStep (entered : Bool) (s : State) : LoopStays (Held r) r s (testStep entered s) := by
  refine .within (foot_testStep (Print.Sub.refl _) (Within.refl _ s)) (fun g h => ?_) (by decide) (by decide)
  simp only [fp_testStep, fp_sineStep, fp_setTest, fp_writeI64, fp_captureStep, fp_unrollRing, fp_writeCapture, Print.free_cons, Print.free_nil,
    Print.free_reg, Print.free_prt, and_true, true_and]
  exact ⟨⟨h.ne (by decide), h.ne (by decide), h.ne (by decide)⟩, h.ne (by decide), h.ne (by decide), h.ne (by decide)⟩

/-- The law of a rail in HOLD (R183). -/
def heldLaw (r : Nat) (s : State) : State :=
  s |> put (R.LPE_DUTY.U_SAT r) (heldDuty s r)
    |> when (decide (r < 16)) (putI (R.ITN_DIE_PRED2.ILEAD r) (predictedLead s r (railOf s r).coef.lead))
    |> putB (R.LPE_STAT.FROZEN r) (freezeI s r || freezeKi s r)

/-- What the law shows before its results are agreed (R168, R174). -/
def lawShown (r : Nat) (frozen : Bool) (lead : Int) (s : State) : State :=
  s |> putB (R.LPE_STAT.FROZEN r) frozen |> when (decide (r < 16)) (putI (R.ITN_DIE_PRED2.ILEAD r) lead)

/-- The signals of a test taken from the law's results (R197). -/
def lawTested (r : Nat) (sig : State → List Int) (entered : State → Bool) (s : State) : State :=
  s |> setRail r { railOf s r with sig := sig s } |> testStep (entered s)

/-- The last agreed state kept (R177). -/
def lawDiffered (r : Nat) (s : State) : State :=
  let h := railOf s r
  s |> setRail r { h with cmpRun := min 7 (h.cmpRun + 1), resume := false } |> event R.LPE_EVENT 2 |> addSat R.LPE_CMP_CNT.COUNT 1
    |> put (R.LPE_DUTY.U_SAT r) h.uSat.toNat

/-- The last safe duty and the VIN it was formed for (R182). -/
def safeKept (r duty vinU : Nat) (s : State) : State := s |> put (R.LPE_DUTY.SAFE r) duty |> setRail r { railOf s r with vinSafe := vinU }

/-- The law's results agreed and stored (R177 to R182). -/
def lawAgreed (r : Nat) (o : LawOut) (ipred : Int) (vinU : Nat) (s : State) : State :=
  s |> setRail r { railOf s r with i := o.i, f1 := o.f1, f2 := o.f2, ePrev := o.e, uUns := o.uUns, uSat := o.uSat, ipredPrev := ipred,
                                   uCtrl := o.uCtrl, cmpRun := 0, resume := false }
    |> put (R.LPE_DUTY.U_SAT r) o.uSat |> putI (R.LPE_INT.I r) (sar o.i 16)
    |> when (decide (loopState s r = lpRAMP ∨ loopState s r = lpTRACK)) (safeKept r o.uSat vinU)

/-- What the copies' agreement makes of the law (R177). -/
def lawTaken (r : Nat) (o : LawOut) (ipred : Int) (vinU : Nat) (differ : Bool) (s : State) : State :=
  if differ then lawDiffered r s else lawAgreed r o ipred vinU s

/-- The following-error check and the end of a ramp, from the state in which the loop was (R180, R181). -/
def loopMoved (r st : Nat) (e : Int) (s : State) : State :=
  let h := railOf s r
  if st = lpRAMP then
    if h.ref256 = railTarget s r * 256 then
      s |> put (R.LPE_STAT.STATE r) lpTRACK
        |> when (decide (16 ≤ r ∧ r < 32)) (fun s => { s with pins := { s.pins with memEn := setBit s.pins.memEn (r - 16) } })
        |> when (decide (r = 32 ∧ stage s = 6)) enableCores
    else s
  else if st = lpTRACK ∧ h.coef.limit < e.natAbs then
    s |> put (R.LPE_STAT.STATE r) lpEXCURSION |> setRail r { h with excUs := s.us } |> event R.LPE_EVENT 0
  else if st = lpEXCURSION ∧ e.natAbs ≤ h.coef.limit then put (R.LPE_STAT.STATE r) lpTRACK s
  else s

theorem superviseStep_eq (r : Nat) (o : LawOut) (ipred : Int) (vinU : Nat) (differ : Bool) (s : State) :
    superviseStep r o ipred vinU differ s = loopMoved r (loopState s r) o.e (lawTaken r o ipred vinU differ s) := rfl

theorem lawStep_hold (h : loopState s r = lpHOLD) (differ : Bool) : lawStep r differ s = heldLaw r s := if_pos h

theorem lawStep_law (h : loopState s r ≠ lpHOLD) (differ : Bool) : ∃ frozen lead o ipred vinU on sig entered,
    lawStep r differ s = when on (lawTested r sig entered) (superviseStep r o ipred vinU differ (lawShown r frozen lead s)) :=
  ⟨_, _, _, _, _, _, _, _, if_neg h⟩

end

end Sys2Proof.Machine

/-! An evaluation of a rail: what it makes of its own loop and leaves of the others' (R166, R177 to R183). -/

namespace Sys2Proof.Machine

section

variable {r k : Nat} {g : Field} {s t u : State}

/-! The law of another rail. -/

theorem loopStays_heldLaw (hk : k < 33) (hne : k ≠ r) (s : State) : LoopStays (Held r) r s (heldLaw k s) :=
  (LoopStays.put (Held.ne_other (inLoop_duty k) hk hne) _ _).trans ((LoopStays.when (.put (held_lead k) _ _) _).trans
    (.put (Held.ne_other (inLoop_frozen k) hk hne) _ _))

theorem loopStays_lawShown (hk : k < 33) (hne : k ≠ r) (frozen : Bool) (lead : Int) (s : State) :
    LoopStays (Held r) r s (lawShown k frozen lead s) :=
  (LoopStays.put (Held.ne_other (inLoop_frozen k) hk hne) _ _).trans (.when (.put (held_lead k) _ _) _)

theorem loopStays_setOther (hne : k ≠ r) (v : RailH) (s : State) : LoopStays (Held r) r s (setRail k v s) := by
  have hr := railOf_setRail_ne hne v s
  exact ⟨fun g _ => get_setRail .., congrArg RailH.uSat hr, congrArg RailH.cmpRun hr⟩

theorem loopStays_lawTaken (hk : k < 33) (hne : k ≠ r) (o : LawOut) (ipred : Int) (vinU : Nat) (differ : Bool) (s : State) :
    LoopStays (Held r) r s (lawTaken k o ipred vinU differ s) := by
  have hduty : ∀ v u, LoopStays (Held r) r u (put (R.LPE_DUTY.U_SAT k) v u) := .put (Held.ne_other (inLoop_duty k) hk hne)
  have hsafe : ∀ v u, LoopStays (Held r) r u (put (R.LPE_DUTY.SAFE k) v u) := .put (Held.ne_other (inLoop_safe k) hk hne)
  have hint : ∀ v u, LoopStays (Held r) r u (putI (R.LPE_INT.I k) v u) := fun v => .put (Held.ne_other (inLoop_int k) hk hne) _
  cases differ
  · rw [lawTaken, if_neg (by decide), lawAgreed]
    exact (loopStays_setOther hne _ _).trans ((hduty _ _).trans ((hint _ _).trans
      (LoopStays.when ((hsafe _ _).trans (loopStays_setOther hne _ _)) _)))
  · rw [lawTaken, if_pos rfl, lawDiffered]
    exact (loopStays_setOther hne _ _).trans ((LoopStays.event held_event 2 _).trans ((LoopStays.put held_count _ _).trans (hduty _ _)))

theorem loopStays_pins {P : Field → Prop} (p : Pins) (s : State) : LoopStays P r s { s with pins := p } := .of_rails (fun _ _ => rfl) rfl

theorem loopStays_sig {P : Field → Prop} (l : List Int) (s : State) : LoopStays P r s (setRail k { railOf s k with sig := l } s) := .setRail rfl rfl

/-- A loop that changes its state touches its own state alone, unless VLINK starts the cores (R180, R181). -/
theorem loopStays_loopMoved_of {P : Field → Prop} (hstage : stage s ≠ 6) (hstate : ∀ g, P g → fieldKey (R.LPE_STAT.STATE k) ≠ fieldKey g)
    (hevent : ∀ g, P g → fieldKey R.LPE_EVENT ≠ fieldKey g) (st : Nat) (e : Int) : LoopStays P r s (loopMoved k st e s) := by
  have hcores : decide (k = 32 ∧ stage s = 6) = false := decide_eq_false fun h => hstage h.2
  have hput : ∀ v, LoopStays P r s (put (R.LPE_STAT.STATE k) v s) := fun v => .put hstate v s
  have hmark : LoopStays P r (put (R.LPE_STAT.STATE k) lpEXCURSION s)
      (setRail k { railOf s k with excUs := s.us } (put (R.LPE_STAT.STATE k) lpEXCURSION s)) := by
    refine .setRail ?_ ?_ <;> rw [railOf_of (put_rails ..)]
  unfold loopMoved
  rw [hcores, when_false]
  dsimp only
  split
  · split
    · exact (hput _).trans (LoopStays.when (loopStays_pins _ _) _)
    · exact .refl s
  · split
    · exact (hput _).trans (hmark.trans (.event hevent 0 _))
    · split
      · exact hput _
      · exact .refl s

theorem loopStays_loopMoved (hk : k < 33) (hne : k ≠ r) (hstage : stage s ≠ 6) (st : Nat) (e : Int) :
    LoopStays (Held r) r s (loopMoved k st e s) :=
  loopStays_loopMoved_of hstage (Held.ne_other (inLoop_state k) hk hne) held_event st e

theorem loopStays_lawTested (sig : State → List Int) (entered : State → Bool) (s : State) :
    LoopStays (Held r) r s (lawTested k sig entered s) := by
  unfold lawTested
  exact (loopStays_sig (sig s) s).trans (loopStays_testStep (entered s) _)

theorem loopStays_lawStep (hk : k < 33) (hne : k ≠ r) (hstage : stage s ≠ 6) (differ : Bool) :
    LoopStays (Held r) r s (lawStep k differ s) := by
  by_cases hold : loopState s k = lpHOLD
  · rw [lawStep_hold hold]
    exact loopStays_heldLaw hk hne s
  · obtain ⟨frozen, lead, o, ipred, vinU, on, sig, entered, heq⟩ := lawStep_law hold differ
    rw [heq, superviseStep_eq]
    have htaken : LoopStays (Held r) r s (lawTaken k o ipred vinU differ (lawShown k frozen lead s)) :=
      (loopStays_lawShown hk hne ..).trans (loopStays_lawTaken hk hne ..)
    have hstage' := htaken.stage ▸ hstage
    exact htaken.trans ((loopStays_loopMoved hk hne hstage' _ _).trans (LoopStays.when (loopStays_lawTested ..) _))

/-! The law of the rail itself. -/

theorem duty_ne_state : ∀ g, HeldDuty r g → fieldKey (R.LPE_STAT.STATE r) ≠ fieldKey g := by
  rintro g (rfl | rfl | rfl) <;> refine key_ne ?_ <;> simp only [R.LPE_STAT.STATE, R.LPE_DUTY.SAFE, R.LPE_DUTY.U_SAT, R.BOOT_STAT.STAGE] <;> omega

theorem held_ne_frozen : ∀ g, Held r g → fieldKey (R.LPE_STAT.FROZEN r) ≠ fieldKey g := by
  rintro g (rfl | rfl | rfl | rfl) <;> refine key_ne ?_ <;>
    simp only [R.LPE_STAT.FROZEN, R.LPE_STAT.STATE, R.LPE_DUTY.SAFE, R.LPE_DUTY.U_SAT, R.BOOT_STAT.STAGE] <;> omega

theorem loopStays_lawShown_self (frozen : Bool) (lead : Int) (s : State) : LoopStays (Held r) r s (lawShown r frozen lead s) :=
  (LoopStays.put held_ne_frozen _ _).trans (.when (.put (held_lead r) _ _) _)

theorem get_safeKept_ne (h : fieldKey (R.LPE_DUTY.SAFE r) ≠ fieldKey g) (duty vinU : Nat) (s : State) :
    get (safeKept r duty vinU s) g = get s g := (get_setRail ..).trans (get_put_ne h ..)

theorem get_safeKept (duty vinU : Nat) (s : State) : get (safeKept r duty vinU s) (R.LPE_DUTY.SAFE r) = duty % 2 ^ 16 :=
  (get_setRail ..).trans (get_put_self (by nofun) ..)

theorem stage_lawTaken (o : LawOut) (ipred : Int) (vinU : Nat) (differ : Bool) (s : State) :
    stage (lawTaken r o ipred vinU differ s) = stage s := by
  have hduty : fieldKey (R.LPE_DUTY.U_SAT r) ≠ fieldKey R.BOOT_STAT.STAGE := key_ne (by simp only [R.LPE_DUTY.U_SAT, R.BOOT_STAT.STAGE]; omega)
  have hsafe : fieldKey (R.LPE_DUTY.SAFE r) ≠ fieldKey R.BOOT_STAT.STAGE := key_ne (by simp only [R.LPE_DUTY.SAFE, R.BOOT_STAT.STAGE]; omega)
  have hint : fieldKey (R.LPE_INT.I r) ≠ fieldKey R.BOOT_STAT.STAGE := key_ne (by simp only [R.LPE_INT.I, R.BOOT_STAT.STAGE]; omega)
  cases differ
  · rw [lawTaken, if_neg (by decide), lawAgreed, stage, get_when (get_safeKept_ne hsafe ..), putI, get_put_ne hint, get_put_ne hduty, get_setRail, stage]
  · rw [lawTaken, if_pos rfl, lawDiffered, stage, get_put_ne hduty, addSat, get_put_ne (held_count _ (held_stage r)),
      get_event_ne (held_event _ (held_stage r)), get_setRail, stage]

/-- After an agreed evaluation in RAMP or TRACK the last safe duty is the duty sent (R182). -/
theorem safe_lawAgreed (h : loopState s r = lpRAMP ∨ loopState s r = lpTRACK) (o : LawOut) (ipred : Int) (vinU : Nat) :
    get (lawAgreed r o ipred vinU s) (R.LPE_DUTY.SAFE r) = get (lawAgreed r o ipred vinU s) (R.LPE_DUTY.U_SAT r) := by
  have hsafe : fieldKey (R.LPE_DUTY.SAFE r) ≠ fieldKey (R.LPE_DUTY.U_SAT r) := key_ne (by simp only [R.LPE_DUTY.SAFE, R.LPE_DUTY.U_SAT]; omega)
  have hint : fieldKey (R.LPE_INT.I r) ≠ fieldKey (R.LPE_DUTY.U_SAT r) := key_ne (by simp only [R.LPE_INT.I, R.LPE_DUTY.U_SAT]; omega)
  rw [lawAgreed, decide_eq_true h, when_true, get_safeKept, get_safeKept_ne hsafe, putI, get_put_ne hint, get_put_self (by nofun)]
  rfl

/-- After a disagreement the last agreed duty is sent again, and one more in a row counts (R177). -/
theorem lawDiffered_holds (s : State) : get (lawDiffered r s) (R.LPE_DUTY.U_SAT r) = (railOf s r).uSat.toNat % 2 ^ 16 ∧
    (railOf (lawDiffered r s) r).cmpRun = min 7 ((railOf s r).cmpRun + 1) ∧
    get (lawDiffered r s) (R.LPE_DUTY.SAFE r) = get s (R.LPE_DUTY.SAFE r) := by
  have hduty : fieldKey (R.LPE_DUTY.U_SAT r) ≠ fieldKey (R.LPE_DUTY.SAFE r) := key_ne (by simp only [R.LPE_DUTY.SAFE, R.LPE_DUTY.U_SAT]; omega)
  have hheld : Held r (R.LPE_DUTY.SAFE r) := .inr (.inl rfl)
  refine ⟨get_put_self (by nofun) .., ?_, ?_⟩
  · rw [lawDiffered, railOf_of (put_rails ..), addSat, railOf_of (put_rails ..), event, railOf_of (put_rails ..), railOf_setRail]
  · rw [lawDiffered, get_put_ne hduty, addSat, get_put_ne (held_count _ hheld), get_event_ne (held_event _ hheld), get_setRail]

/-- What the law's results leave in the end stands as they were agreed. -/
theorem lawStep_taken (hold : loopState s r ≠ lpHOLD) (hstage : stage s ≠ 6) (differ : Bool) : ∃ o ipred vinU u, LoopStays (Held r) r s u ∧
    LoopStays (HeldDuty r) r (lawTaken r o ipred vinU differ u) (lawStep r differ s) := by
  obtain ⟨frozen, lead, o, ipred, vinU, on, sig, entered, heq⟩ := lawStep_law hold differ
  have hshown : LoopStays (Held r) r s (lawShown r frozen lead s) := loopStays_lawShown_self ..
  have hstage' : stage (lawTaken r o ipred vinU differ (lawShown r frozen lead s)) ≠ 6 := by rwa [stage_lawTaken, hshown.stage]
  refine ⟨o, ipred, vinU, _, hshown, ?_⟩
  rw [heq, superviseStep_eq]
  exact (loopStays_loopMoved_of hstage' duty_ne_state (fun g h => held_event g h.held) _ _).trans
    (LoopStays.when ((loopStays_lawTested ..).mono fun _ h => h.held) _)

/-- A rail in HOLD stays so (R183). -/
theorem loopStays_lawStep_hold (hold : loopState s r = lpHOLD) (differ : Bool) : LoopStays (HeldState r) r s (lawStep r differ s) := by
  have hduty : ∀ g, HeldState r g → fieldKey (R.LPE_DUTY.U_SAT r) ≠ fieldKey g := by
    rintro g (rfl | rfl) <;> refine key_ne ?_ <;> simp only [R.LPE_DUTY.U_SAT, R.LPE_STAT.STATE, R.BOOT_STAT.STAGE] <;> omega
  rw [lawStep_hold hold, heldLaw]
  exact (LoopStays.put hduty _ _).trans ((LoopStays.when (.put (fun g h => held_lead r g h.held) _ _) _).trans
    (.put (fun g h => held_ne_frozen g h.held) _ _))

end

end Sys2Proof.Machine

/-! LOOP_EVALUATION as the loops of the rails see it (R166, R177, R182, R183). -/

namespace Sys2Proof.Machine

section

variable {r k vin period dis : Nat} {volts : List Nat} {m : SyncIn} {flag : Bool} {g : Field} {s t u : State}

theorem evalRail_on (h : loopState s r ≠ lpOFF) (period dis : Nat) : evalRail period dis r s =
    afterLaw period (isOn s (R.PST_RAIL_STAT.BRAKING r)) ((phasesOf r).filter fun n => !phSwitching (phState s n)) r (lawStep r (bit dis r) (beforeLaw r s)) := by
  simp only [evalRail, if_neg h, afterLaw, beforeLaw]

/-- Unless VLINK starts the cores, an evaluation of another rail leaves the loop as it is (R166). -/
theorem loopStays_evalRail (hk : k < 33) (hne : k ≠ r) (hstage : stage s ≠ 6) : LoopStays (Held r) r s (evalRail period dis k s) := by
  by_cases hoff : loopState s k = lpOFF
  · rw [evalRail_off hoff]
    exact .refl s
  · rw [evalRail_on hoff]
    have hbefore : LoopStays (Held r) r s (beforeLaw k s) := (loopStays_beforeLaw k s).mono fun _ h => h.kin
    exact hbefore.trans ((loopStays_lawStep hk hne (hbefore.stage ▸ hstage) _).trans
      ((loopStays_afterLaw ..).mono fun _ h => h.kin))

/-- What an evaluation of the rail itself makes of its loop is what its law's results come to. -/
theorem evalRail_taken (hon : loopState s r ≠ lpOFF) (hold : loopState s r ≠ lpHOLD) (hstage : stage s ≠ 6) :
    ∃ o ipred vinU u, LoopStays (Held r) r s u ∧
      LoopStays (HeldDuty r) r (lawTaken r o ipred vinU (bit dis r) u) (evalRail period dis r s) := by
  rw [evalRail_on hon]
  have hbefore : LoopStays (Held r) r s (beforeLaw r s) := (loopStays_beforeLaw r s).mono fun _ h => h.kin
  have hstate : loopState (beforeLaw r s) r = loopState s r := hbefore.regs _ (.inl rfl)
  obtain ⟨o, ipred, vinU, u, hu, htaken⟩ := lawStep_taken (hstate ▸ hold) (hbefore.stage ▸ hstage) (bit dis r)
  exact ⟨o, ipred, vinU, u, hbefore.trans hu, htaken.trans ((loopStays_afterLaw ..).mono fun _ h => h.held.kin)⟩

/-- A rail that is OFF or in HOLD stays so in its evaluation. -/
theorem loopStays_evalRail_rest (h : loopState s r = lpOFF ∨ loopState s r = lpHOLD) :
    LoopStays (HeldState r) r s (evalRail period dis r s) := by
  by_cases hoff : loopState s r = lpOFF
  · rw [evalRail_off hoff]
    exact .refl s
  · have hkin : ∀ g, HeldState r g → Kin g := fun _ h => h.held.kin
    have hbefore : LoopStays (HeldState r) r s (beforeLaw r s) := (loopStays_beforeLaw r s).mono hkin
    have hhold : loopState (beforeLaw r s) r = lpHOLD := (hbefore.regs _ (.inl rfl)).trans (h.resolve_left hoff)
    rw [evalRail_on hoff]
    exact hbefore.trans ((loopStays_lawStep_hold hhold _).trans ((loopStays_afterLaw ..).mono hkin))

/-- A switching period's length shown and the next one's set (R101, R158). -/
def periodStarted (m : SyncIn) (s : State) : State :=
  let u := put R.PST_SYNC_STAT.PERIOD s.clk.period s
  { u with clk := { s.clk with period := s.clk.next, next := switchPeriod u m, startAt := now u } }

theorem startPeriod_eq (m : SyncIn) (s : State) : startPeriod m s =
    when (isOn s R.PST_CTRL.SYNC_OUT_EN) (emit (.syncOut (s.clk.next / 2)))
      (periodStarted m (syncStep m s)) := rfl

/-- The samples of an evaluation taken, and the switching period started (R163, R166). -/
def sampled (vin : Nat) (volts : List Nat) (m : SyncIn) (s : State) : State :=
  s |> vinSample vin |> startPeriod m |> each ((List.range 33).filter (railFitted s)) (fun r => latchRail r (nth volts r))

/-- The rails evaluated (R166). -/
def evaluated (dis : Nat) (rails : List Nat) (s : State) : State := each rails (evalRail s.clk.next dis) s

/-- What follows the evaluation of the rails: the sums, the comparator's own test, the dies held (R178, R218, R638). -/
def summed (flag : Bool) (ds : List Nat) (s : State) : State := s |> sumRails |> selfTest flag |> each ds releaseHeld

theorem effLoopEvaluation_eq (h : s.clk.started = true) : effLoopEvaluation vin volts m dis flag s =
    summed flag (dies s) (evaluated dis ((List.range 33).filter (railFitted s)) (sampled vin volts m s)) :=
  if_neg (by rw [h]; decide)

theorem loopStays_sampled (s : State) : LoopStays (Held r) r s (sampled vin volts m s) := by
  have hvin : ∀ g, Held r g → fieldKey R.PST_VIN.VIN ≠ fieldKey g := fun _ h => h.ne (by decide)
  have hperiod : ∀ g, Held r g → fieldKey R.PST_SYNC_STAT.PERIOD ≠ fieldKey g := fun _ h => h.ne (by decide)
  have hmeas : ∀ k g, Held r g → fieldKey (R.LPE_V.VMEAS k) ≠ fieldKey g := by
    rintro k g (rfl | rfl | rfl | rfl) <;> refine key_ne ?_ <;>
      simp only [R.LPE_V.VMEAS, R.LPE_STAT.STATE, R.LPE_DUTY.SAFE, R.LPE_DUTY.U_SAT, R.BOOT_STAT.STAGE] <;> omega
  have hsample : LoopStays (Held r) r s (vinSample vin s) := (LoopStays.put hvin vin s).trans (.of_rails (fun _ _ => rfl) rfl)
  have hsync : ∀ u, LoopStays (Held r) r u (syncStep m u) := fun u => .of_rails (fun _ _ => rfl) rfl
  have hclk : ∀ c (u : State), LoopStays (Held r) r u { u with clk := c } := fun _ _ => .of_rails (fun _ _ => rfl) rfl
  have hout : ∀ o u, LoopStays (Held r) r u (emit o u) := fun _ _ => .of_rails (fun _ _ => get_emit ..) rfl
  have hstart : ∀ u, LoopStays (Held r) r u (startPeriod m u) := by
    intro u
    rw [startPeriod_eq]
    exact (hsync u).trans (((LoopStays.put hperiod _ _).trans (hclk ..)).trans (LoopStays.when (hout ..) _))
  have hlatch : ∀ k v u, LoopStays (Held r) r u (latchRail k v u) := fun k v u =>
    (LoopStays.put (hmeas k) v u).trans (by refine .setRail ?_ ?_ <;> rw [railOf_of (put_rails ..)])
  exact hsample.trans ((hstart _).trans (.each (fun k _ u => hlatch ..) _))

theorem loopStays_summed (ds : List Nat) (s : State) : LoopStays (Held r) r s (summed flag ds s) := by
  have hsum : LoopStays (Held r) r s (sumRails s) := by
    refine .within (foot_sumRails (Print.Sub.refl _) (Within.refl _ s)) (fun g _ => ?_) (by decide) (by decide)
    simp only [fp_sumRails, Print.free_cons, Print.free_nil, Print.free_prt, Print.free_row, and_true]
  have htest : ∀ u, LoopStays (Held r) r u (selfTest flag u) := by
    refine fun u => .within (foot_selfTest (Print.Sub.refl _) (Within.refl _ u)) (fun g h => ?_) (by decide) (by decide)
    simp only [fp_selfTest, fp_faultOn, fp_notifyAll, fp_notify, fp_record, fp_recordAt, Print.free_cons, Print.free_nil, Print.free_reg,
      Print.free_reg1, Print.free_prt, and_true, true_and]
    exact ⟨held_event g h, h.ne (by decide), fun _ _ => h.ne (by simp only [R.CMD_NOTIFY]; omega)⟩
  have hrelease : ∀ d u, LoopStays (Held r) r u (releaseHeld d u) := by
    refine fun d u => .within (foot_releaseHeld (Print.Sub.refl _) (Within.refl _ u)) (fun g h => ?_) (by decide) (by decide)
    simp only [fp_releaseHeld, fp_reloadDie, fp_sendScrub, fp_drawn, fp_keySend, fp_reloadKeys, fp_sendLoads, Print.free_cons, Print.free_nil,
      Print.free_reg1, Print.free_prt, and_true, true_and]
    exact fun _ _ => h.ne (by simp only [R.SEC_PART_SCRUB.REMAIN]; omega)
  exact hsum.trans ((htest _).trans (.each (fun d _ u => hrelease d u) _))

theorem loopStays_finish (s : State) : LoopStays (Held r) r s (finish s) :=
  .of_rails (fun g h => get_finish (h.ne (by decide)) (h.ne (by decide))) ((Within.finish s).parts .rails (by decide) (by decide))

theorem nodup_fitted (s : State) : ((List.range 33).filter (railFitted s)).Nodup := List.nodup_range.filter _

theorem mem_fitted (h : railFitted s r = true) : r ∈ (List.range 33).filter (railFitted s) := by
  refine List.mem_filter.2 ⟨List.mem_range.2 ?_, h⟩
  simp only [railFitted, Bool.or_eq_true, Bool.and_eq_true, decide_eq_true_eq] at h
  omega

theorem lt_of_mem_fitted (h : k ∈ (List.range 33).filter (railFitted s)) : k < 33 := List.mem_range.1 (List.mem_filter.1 h).1

/-- What the law's results of a rail that is neither OFF nor in HOLD come to stands at the end of the evaluation. -/
theorem loopEvaluation_taken (hstart : s.clk.started = true) (hstage : stage s ≠ 6) (hfit : railFitted s r = true)
    (hon : loopState s r ≠ lpOFF) (hold : loopState s r ≠ lpHOLD) :
    ∃ o ipred vinU u, LoopStays (Held r) r s u ∧
      LoopStays (HeldDuty r) r (lawTaken r o ipred vinU (bit dis r) u) (finish (effLoopEvaluation vin volts m dis flag s)) := by
  have hothers : ∀ k ∈ (List.range 33).filter (railFitted s), k ≠ r → ∀ p u, stage u ≠ 6 →
      LoopStays (Held r) r u (evalRail p dis k u) := fun k hk hne p u hu => loopStays_evalRail (lt_of_mem_fitted hk) hne hu
  have hsampled : LoopStays (Held r) r s (sampled vin volts m s) := loopStays_sampled s
  have hrails : ∃ o ipred vinU u, LoopStays (Held r) r s u ∧ LoopStays (HeldDuty r) r (lawTaken r o ipred vinU (bit dis r) u)
      (evaluated dis ((List.range 33).filter (railFitted s)) (sampled vin volts m s)) := by
    unfold evaluated
    refine each_hits (I := LoopStays (Held r) r s) (P := fun t => ∃ o ipred vinU u, LoopStays (Held r) r s u ∧
      LoopStays (HeldDuty r) r (lawTaken r o ipred vinU (bit dis r) u) t) (mem_fitted hfit) (nodup_fitted s) ?_ ?_ ?_ hsampled
    · exact fun k hk hne u hu => hu.trans (hothers k hk hne _ u (hu.stage ▸ hstage))
    · intro u hu
      have hstate : loopState u r = loopState s r := hu.regs _ (.inl rfl)
      obtain ⟨o, ipred, vinU, w, hw, htaken⟩ := evalRail_taken (hstate ▸ hon) (hstate ▸ hold) (hu.stage ▸ hstage)
      exact ⟨o, ipred, vinU, w, hu.trans hw, htaken⟩
    · rintro k hk hne t ⟨o, ipred, vinU, w, hw, htaken⟩
      have heq : stage t = stage s := (htaken.regs _ (.inr (.inr rfl))).trans ((stage_lawTaken ..).trans hw.stage)
      have hstage' : stage t ≠ 6 := fun h => hstage (heq.symm.trans h)
      exact ⟨o, ipred, vinU, w, hw, htaken.trans ((hothers k hk hne _ t hstage').mono fun _ h => h.held)⟩
  obtain ⟨o, ipred, vinU, u, hu, htaken⟩ := hrails
  rw [effLoopEvaluation_eq hstart]
  exact ⟨o, ipred, vinU, u, hu, htaken.trans (((loopStays_summed ..).trans (loopStays_finish _)).mono fun _ h => h.held)⟩

/-- After an agreed evaluation in RAMP or TRACK the last safe duty is the duty sent (R182). -/
theorem loopEvaluation_agrees (hstart : s.clk.started = true) (hstage : stage s ≠ 6) (hfit : railFitted s r = true)
    (hloop : loopState s r = lpRAMP ∨ loopState s r = lpTRACK) (hdis : bit dis r = false) :
    ∃ t, exec (.loopEvaluation vin volts m dis flag) s = .next t ∧ get t (R.LPE_DUTY.SAFE r) = get t (R.LPE_DUTY.U_SAT r) := by
  obtain ⟨o, ipred, vinU, u, hu, htaken⟩ := loopEvaluation_taken (vin := vin) (volts := volts) (m := m) (dis := dis) (flag := flag) hstart
    hstage hfit (by rcases hloop with h | h <;> rw [h] <;> decide) (by rcases hloop with h | h <;> rw [h] <;> decide)
  refine ⟨_, rfl, ?_⟩
  rw [htaken.regs _ (.inl rfl), htaken.regs _ (.inr (.inl rfl)), lawTaken, hdis, if_neg (by decide)]
  refine safe_lawAgreed ?_ o ipred vinU
  rwa [show loopState u r = loopState s r from hu.regs _ (.inl rfl)]

/-- After a disagreement the last agreed duty is sent again, and it counts (R177). -/
theorem loopEvaluation_differs (hstart : s.clk.started = true) (hstage : stage s ≠ 6) (hfit : railFitted s r = true)
    (hloop : loopState s r = lpRAMP ∨ loopState s r = lpTRACK ∨ loopState s r = lpEXCURSION) (hdis : bit dis r = true) :
    ∃ t, exec (.loopEvaluation vin volts m dis flag) s = .next t ∧
      get t (R.LPE_DUTY.U_SAT r) = (railOf s r).uSat.toNat % 2 ^ 16 ∧ (railOf t r).cmpRun = min 7 ((railOf s r).cmpRun + 1) ∧
      get t (R.LPE_DUTY.SAFE r) = get s (R.LPE_DUTY.SAFE r) := by
  obtain ⟨o, ipred, vinU, u, hu, htaken⟩ := loopEvaluation_taken (vin := vin) (volts := volts) (m := m) (dis := dis) (flag := flag) hstart
    hstage hfit (by rcases hloop with h | h | h <;> rw [h] <;> decide) (by rcases hloop with h | h | h <;> rw [h] <;> decide)
  obtain ⟨hduty, hrun, hsafe⟩ := lawDiffered_holds (r := r) u
  rw [lawTaken, hdis, if_pos rfl] at htaken
  refine ⟨_, rfl, ?_, ?_, ?_⟩
  · rw [htaken.regs _ (.inr (.inl rfl)), hduty, hu.uSat]
  · rw [htaken.cmpRun, hrun, hu.cmpRun]
  · rw [htaken.regs _ (.inl rfl), hsafe, hu.regs _ (.inr (.inl rfl))]

/-- A rail that is OFF or in HOLD stays so, unless VLINK starts the cores (R183, R618). -/
theorem loopEvaluation_rests (hstage : stage s ≠ 6) (hloop : loopState s r = lpOFF ∨ loopState s r = lpHOLD) :
    ∃ t, exec (.loopEvaluation vin volts m dis flag) s = .next t ∧ loopState t r = loopState s r := by
  have hend : ∀ u, loopState (finish u) r = loopState u r := fun u => (loopStays_finish (r := r) u).regs _ (.inl rfl)
  refine ⟨_, rfl, ?_⟩
  rw [hend]
  by_cases hstart : s.clk.started = true
  · have hsampled : LoopStays (Held r) r s (sampled vin volts m s) := loopStays_sampled s
    have hrails : ∀ l : List Nat, (∀ k ∈ l, k < 33) → stage (evaluated dis l (sampled vin volts m s)) ≠ 6 ∧
        loopState (evaluated dis l (sampled vin volts m s)) r = loopState s r := by
      intro l hl
      refine each_induct (P := fun u => stage u ≠ 6 ∧ loopState u r = loopState s r) ?_ ⟨hsampled.stage ▸ hstage, hsampled.regs _ (.inl rfl)⟩
      rintro k hk u ⟨hstage', hstate⟩
      by_cases hne : k = r
      · subst hne
        have hself : LoopStays (HeldState k) k u (evalRail (sampled vin volts m s).clk.next dis k u) :=
          loopStays_evalRail_rest (hstate ▸ hloop)
        exact ⟨fun h => hstage' ((hself.regs _ (.inr rfl)).symm.trans h), (hself.regs _ (.inl rfl)).trans hstate⟩
      · have hother : LoopStays (Held r) r u (evalRail (sampled vin volts m s).clk.next dis k u) := loopStays_evalRail (hl k hk) hne hstage'
        exact ⟨hother.stage ▸ hstage', (hother.regs _ (.inl rfl)).trans hstate⟩
    have hlast := (hrails ((List.range 33).filter (railFitted s)) fun k hk => lt_of_mem_fitted hk).2
    rw [effLoopEvaluation_eq hstart]
    exact ((loopStays_summed (r := r) _ _).regs _ (.inl rfl)).trans hlast
  · rw [effLoopEvaluation, if_pos (by simpa using hstart)]

end

end Sys2Proof.Machine

/-! LOOP_EVALUATION as it takes its samples and starts a switching period (R101, R112, R158, R163, R166). -/

namespace Sys2Proof.Machine

section

variable {r k vin period dis : Nat} {volts : List Nat} {m : SyncIn} {flag : Bool} {g : Field} {s t u : State} {o : Option Nat}

/-! What an evaluation measures stands to its end. -/

/-- What an evaluation measures of VIN, the switching period and the voltages of the rails. -/
def Measured (g : Field) : Prop := g = R.PST_VIN.VIN ∨ g = R.PST_SYNC_STAT.PERIOD ∨ ∃ r, g = R.LPE_V.VMEAS r

theorem Measured.low (h : Measured g) : Low g := by
  rcases h with rfl | rfl | ⟨r, rfl⟩
  · exact low_of nofun (by decide) (by decide) (by decide) (by decide)
  · exact low_of nofun (by decide) (by decide) (by decide) (by decide)
  · exact low_paged (by decide) (by omega)

theorem Measured.kin (h : Measured g) : Kin g := by
  rcases h with rfl | rfl | ⟨r, rfl⟩
  · exact ⟨.inl (by decide), fun k => key_ne (by simp only [R.LPE_V.VREF, R.PST_VIN.VIN]; omega)⟩
  · exact ⟨.inl (by decide), fun k => key_ne (by simp only [R.LPE_V.VREF, R.PST_SYNC_STAT.PERIOD]; omega)⟩
  · exact ⟨.inr (.inl (by simp only [R.LPE_V.VMEAS]; omega)), fun k => key_ne (by simp only [R.LPE_V.VREF, R.LPE_V.VMEAS]; omega)⟩

/-- A register of a loop's window that is no sensed voltage. -/
theorem Measured.ne_loop {f : Field} (h : Measured g) (hf : InLoop k f)
    (hplace : f.off * 32 + f.lo ≠ (0x041034 + 0x40 * (k % 33)) * 32 + 16) : fieldKey f ≠ fieldKey g := by
  have hoff := hf.off
  have hlo := hf.lo
  rcases h with rfl | rfl | ⟨r, rfl⟩
  · exact key_ne_of_lt (by omega) (by decide) (by simp only [R.PST_VIN.VIN]; omega)
  · exact key_ne_of_lt (by omega) (by decide) (by simp only [R.PST_SYNC_STAT.PERIOD]; omega)
  · exact key_ne_of_lt (by omega) (by simp only [R.LPE_V.VMEAS]; omega) (by simp only [R.LPE_V.VMEAS]; omega)

theorem Measured.ne_state (h : Measured g) (k : Nat) : fieldKey (R.LPE_STAT.STATE k) ≠ fieldKey g :=
  h.ne_loop (inLoop_state k) (by simp only [R.LPE_STAT.STATE]; omega)

theorem Measured.ne_safe (h : Measured g) (k : Nat) : fieldKey (R.LPE_DUTY.SAFE k) ≠ fieldKey g :=
  h.ne_loop (inLoop_safe k) (by simp only [R.LPE_DUTY.SAFE]; omega)

theorem Measured.ne_int (h : Measured g) (k : Nat) : fieldKey (R.LPE_INT.I k) ≠ fieldKey g :=
  h.ne_loop (inLoop_int k) (by simp only [R.LPE_INT.I]; omega)

theorem Measured.steady (h : Measured g) : Steady g := by
  have hstage : ∀ {f : Field}, 0x020010 * 32 ≤ f.off * 32 + f.lo ∧ f.off * 32 + f.lo < 0x022000 * 32 → fieldKey f ≠ fieldKey g :=
    fun hf => h.kin.ne (.inl hf)
  refine ⟨h.low, fun n => hstage ?_, fun n => hstage ?_, h.ne_state, fun k => ?_, fun k => hstage ?_, fun k => hstage ?_, fun k => ?_,
    h.ne_safe, h.ne_int⟩
  · simp only [R.PST_PH_STAT.STATE]; omega
  · simp only [R.PST_PH_DUTY.TRIM]; omega
  · exact h.ne_loop (k := k) ⟨rfl, rfl, rfl, by simp only [R.LPE_STAT.CAUSE]; omega, (by decide : 3 < 32)⟩
      (by simp only [R.LPE_STAT.CAUSE]; omega)
  · simp only [R.PST_RAIL_STAT.BRAKING]; omega
  · simp only [R.PST_RAIL_STAT.LOST]; omega
  · exact h.ne_loop (k := k) ⟨rfl, rfl, rfl, by simp only [R.LPE_REF.TARGET]; omega, (by decide : 0 < 32)⟩
      (by simp only [R.LPE_REF.TARGET]; omega)

/-- A register of the loop engine outside the rails' windows. -/
theorem Measured.ne_engine {f : Field} (h : Measured g) (hf : 0x040000 * 32 ≤ f.off * 32 + f.lo ∧ f.off * 32 + f.lo < 0x041000 * 32) :
    fieldKey f ≠ fieldKey g := by
  rcases h with rfl | rfl | ⟨r, rfl⟩
  · exact key_ne_of_lt (by omega) (by decide) (by simp only [R.PST_VIN.VIN]; omega)
  · exact key_ne_of_lt (by omega) (by decide) (by simp only [R.PST_SYNC_STAT.PERIOD]; omega)
  · exact key_ne_of_lt (by omega) (by simp only [R.LPE_V.VMEAS]; omega) (by simp only [R.LPE_V.VMEAS]; omega)

theorem free_testStep (h : Measured g) : fp_testStep.Free g := by
  simp only [fp_testStep, fp_sineStep, fp_setTest, fp_writeI64, fp_captureStep, fp_unrollRing, fp_writeCapture, Print.free_cons, Print.free_nil,
    Print.free_reg, Print.free_prt, and_true, true_and]
  exact ⟨⟨h.ne_engine (by decide), h.ne_engine (by decide), h.ne_engine (by decide)⟩, h.ne_engine (by decide), h.ne_engine (by decide),
    h.ne_engine (by decide)⟩

theorem free_lawStep (h : Measured g) : (fp_lawStep o).Free g := by
  simp only [fp_lawStep, fp_superviseStep, fp_enableCores, Print.free_cons, Print.free_nil, Print.free_reg, Print.free_reg1, Print.free_prt,
    Print.free_row, and_true, true_and, free_testStep h, free_railEnable h.steady (h.kin.ne (f := R.PST_EVENT) (by decide))]
  have hduty : ∀ k, fieldKey (R.LPE_DUTY.U_SAT k) ≠ fieldKey g := fun k => h.ne_loop (inLoop_duty k) (by simp only [R.LPE_DUTY.U_SAT]; omega)
  have hfrozen : ∀ k, fieldKey (R.LPE_STAT.FROZEN k) ≠ fieldKey g := fun k =>
    h.ne_loop (inLoop_frozen k) (by simp only [R.LPE_STAT.FROZEN]; omega)
  have hlead : ∀ k, fieldKey (R.ITN_DIE_PRED2.ILEAD k) ≠ fieldKey g := fun k => h.kin.ne (by simp only [R.ITN_DIE_PRED2.ILEAD]; omega)
  exact ⟨fun k _ => hduty k, fun k _ => hlead k, fun k _ => hfrozen k, h.ne_engine (by decide), h.ne_engine (by decide), fun k _ => hduty k,
    fun k _ => h.ne_int k, fun k _ => h.ne_safe k, fun k _ => h.ne_state k⟩

theorem get_evalRail (h : Measured g) : get (evalRail period dis k s) g = get s g := by
  by_cases hoff : loopState s k = lpOFF
  · rw [evalRail_off hoff]
  · have hlaw : ∀ d u, get (lawStep k d u) g = get u g := fun d u =>
      (foot_lawStep (o_r := none) Names.any (Print.Sub.refl _) (Within.refl _ u)).get (free_lawStep h)
    rw [evalRail_on hoff, (loopStays_afterLaw (r := k) ..).regs g h.kin, hlaw, (loopStays_beforeLaw (r := k) ..).regs g h.kin]

theorem get_summed (h : Measured g) (ds : List Nat) (s : State) : get (summed flag ds s) g = get s g := by
  have hlow := h.low
  have hsum : get (sumRails s) g = get s g := by
    refine (foot_sumRails (Print.Sub.refl _) (Within.refl _ s)).get ?_
    simp only [fp_sumRails, Print.free_cons, Print.free_nil, Print.free_prt, Print.free_row, and_true]
  have htest : ∀ u, get (selfTest flag u) g = get u g := by
    refine fun u => (foot_selfTest (Print.Sub.refl _) (Within.refl _ u)).get ?_
    simp only [fp_selfTest, fp_record, fp_recordAt, Print.free_cons, Print.free_nil, Print.free_reg, Print.free_prt, and_true,
      free_faultOn hlow]
    exact h.ne_engine (by decide)
  have hrelease : ∀ d u, get (releaseHeld d u) g = get u g := by
    refine fun d u => (foot_releaseHeld (Print.Sub.refl _) (Within.refl _ u)).get ?_
    simp only [fp_releaseHeld, fp_reloadDie, fp_sendScrub, fp_drawn, fp_keySend, fp_reloadKeys, fp_sendLoads, Print.free_cons, Print.free_nil,
      Print.free_reg1, Print.free_prt, and_true, true_and]
    exact fun _ _ => hlow.ne (by simp only [R.SEC_PART_SCRUB.REMAIN]; omega)
  rw [summed, each_keeps (φ := fun u => get u g) hrelease, htest, hsum]

/-- What was measured as the samples were taken stands at the end. -/
theorem get_loopEvaluation (hstart : s.clk.started = true) (h : Measured g) :
    get (finish (effLoopEvaluation vin volts m dis flag s)) g = get (sampled vin volts m s) g := by
  rw [get_finish_low h.low, effLoopEvaluation_eq hstart, get_summed h, evaluated, each_keeps (φ := fun u => get u g) fun _ _ => get_evalRail h]

/-! The samples. -/

theorem get_vinSample_ne (h : fieldKey R.PST_VIN.VIN ≠ fieldKey g) (s : State) : get (vinSample vin s) g = get s g :=
  (get_of_regs rfl g).trans (get_put_ne h vin s)

theorem get_vinSample_vin (hvin : vin < 2 ^ 16) (s : State) : get (vinSample vin s) R.PST_VIN.VIN = vin :=
  (get_of_regs rfl _).trans ((get_put_self (by decide) vin s).trans (Nat.mod_eq_of_lt hvin))

theorem get_startPeriod_ne (h : fieldKey R.PST_SYNC_STAT.PERIOD ≠ fieldKey g) (s : State) : get (startPeriod m s) g = get s g := by
  rw [startPeriod_eq, get_when (get_emit ..)]
  exact (get_of_regs rfl g).trans ((get_put_ne h ..).trans (get_of_regs rfl g))

theorem get_startPeriod_period (s : State) : get (startPeriod m s) R.PST_SYNC_STAT.PERIOD = s.clk.period % 2 ^ 16 := by
  rw [startPeriod_eq, get_when (get_emit ..)]
  exact (get_of_regs rfl _).trans (get_put_self (by decide) ..)

theorem get_latchRail_ne (h : fieldKey (R.LPE_V.VMEAS k) ≠ fieldKey g) (v : Nat) (s : State) : get (latchRail k v s) g = get s g :=
  (get_setRail ..).trans (get_put_ne h v s)

theorem vmeas_latchRail {v : Nat} (hv : v < 2 ^ 16) (s : State) : vmeas (latchRail r v s) r = v :=
  (get_setRail ..).trans ((get_put_self (by nofun) v s).trans (Nat.mod_eq_of_lt hv))

theorem nth_lt {l : List Nat} {n i : Nat} (hn : 0 < n) (h : ∀ v ∈ l, v < n) : nth l i < n := by
  rw [nth, List.getD_eq_getElem?_getD]
  cases hi : l[i]? with
  | none => exact hn
  | some v => exact h v (List.mem_of_getElem? hi)

theorem get_sampled_ne (hv : ∀ k, fieldKey (R.LPE_V.VMEAS k) ≠ fieldKey g) (s : State) :
    get (sampled vin volts m s) g = get (startPeriod m (vinSample vin s)) g :=
  each_keeps (φ := fun u => get u g) (fun k u => get_latchRail_ne (hv k) _ u) _ _

theorem vin_sampled (hvin : vin < 2 ^ 16) (s : State) : get (sampled vin volts m s) R.PST_VIN.VIN = vin := by
  rw [get_sampled_ne (fun k => key_ne (by simp only [R.LPE_V.VMEAS, R.PST_VIN.VIN]; omega)), get_startPeriod_ne (key_ne (by decide)),
    get_vinSample_vin hvin]

theorem period_sampled (s : State) : get (sampled vin volts m s) R.PST_SYNC_STAT.PERIOD = s.clk.period % 2 ^ 16 := by
  have hclk : (vinSample vin s).clk = s.clk := put_clk ..
  rw [get_sampled_ne (fun k => key_ne (by simp only [R.LPE_V.VMEAS, R.PST_SYNC_STAT.PERIOD]; omega)), get_startPeriod_period, hclk]

theorem vmeas_sampled (hvolts : ∀ v ∈ volts, v < 2 ^ 16) (hfit : railFitted s r = true) : vmeas (sampled vin volts m s) r = nth volts r := by
  have hothers : ∀ k ∈ (List.range 33).filter (railFitted s), k ≠ r → ∀ v u, vmeas (latchRail k v u) r = vmeas u r := by
    intro k hk hne v u
    refine get_latchRail_ne ?_ v u
    exact InLoop.ne (j := k) (k := r) ⟨rfl, rfl, rfl, by simp only [R.LPE_V.VMEAS]; omega, (by decide : 16 < 32)⟩
      ⟨rfl, rfl, rfl, by simp only [R.LPE_V.VMEAS]; omega, (by decide : 16 < 32)⟩ (lt_of_mem_fitted hk) hne
  unfold sampled
  exact each_hits (I := fun _ => True) (P := fun u => vmeas u r = nth volts r) (mem_fitted hfit) (nodup_fitted s) (fun _ _ _ _ _ => trivial)
    (fun u _ => vmeas_latchRail (nth_lt (by decide) hvolts) u) (fun k hk hne u hu => (hothers k hk hne _ u).trans hu) trivial

/-! The switching period. -/

/-- From s to t nothing changed that sets the length of a switching period (R111 to R113). -/
structure SyncAs (s t : State) : Prop where
  state : clkState t = clkState s
  enabled : get t R.PST_CTRL.SYNC_EN = get s R.PST_CTRL.SYNC_EN
  offset : get t R.PST_CTRL.SYNC_OFS = get s R.PST_CTRL.SYNC_OFS
  lock : get t R.PST_SYNC_STAT.LOCK = get s R.PST_SYNC_STAT.LOCK
  clk : t.clk = s.clk

theorem acquiring_of (h : SyncAs s t) : acquiring t = acquiring s := by
  rw [acquiring, acquiring, isOn, isOn, isOn, isOn, h.state, h.enabled, h.lock]

theorem phaseError_of (h : SyncAs s t) (m : SyncIn) : phaseError t m = phaseError s m := by
  rw [phaseError, phaseError, h.offset]

theorem switchPeriod_of (h : SyncAs s t) (m : SyncIn) : switchPeriod t m = switchPeriod s m := by
  rw [switchPeriod, switchPeriod, h.state, isOn, isOn, h.lock, acquiring_of h, h.clk, syncMove, syncMove, phaseError_of h]

theorem syncAs_syncStep (h : SyncAs s t) (m : SyncIn) : SyncAs (syncStep m s) (syncStep m t) := by
  refine ⟨h.state, h.enabled, h.offset, h.lock, ?_⟩
  unfold syncStep
  dsimp only
  rw [acquiring_of h, phaseError_of h, h.clk]

theorem syncAs_vinSample (s : State) : SyncAs s (vinSample vin s) :=
  ⟨get_vinSample_ne (key_ne (by decide)) s, get_vinSample_ne (key_ne (by decide)) s, get_vinSample_ne (key_ne (by decide)) s,
    get_vinSample_ne (key_ne (by decide)) s, put_clk ..⟩

theorem syncAs_period (n : Nat) (s : State) : SyncAs s (put R.PST_SYNC_STAT.PERIOD n s) :=
  ⟨get_put_ne (key_ne (by decide)) .., get_put_ne (key_ne (by decide)) .., get_put_ne (key_ne (by decide)) ..,
    get_put_ne (key_ne (by decide)) .., put_clk ..⟩

theorem clk_startPeriod (s : State) : (startPeriod m s).clk = (periodStarted m (syncStep m s)).clk := by
  rw [startPeriod_eq]
  cases isOn s R.PST_CTRL.SYNC_OUT_EN
  · rw [when_false]
  · rw [when_true]; rfl

theorem clk_sampled (s : State) : (sampled vin volts m s).clk = (periodStarted m (syncStep m (vinSample vin s))).clk := by
  have hlatch : ∀ k u, (latchRail k (nth volts k) u).clk = u.clk := fun k u => put_clk ..
  rw [sampled, each_keeps (φ := State.clk) hlatch, clk_startPeriod]

theorem clk_evalRail (k : Nat) (s : State) : (evalRail period dis k s).clk = s.clk :=
  (foot_evalRail (o_r := none) Names.any (Print.Sub.refl _) (Within.refl _ s)).parts .clk (by decide) (by decide)

theorem clk_summed (ds : List Nat) (s : State) : (summed flag ds s).clk = s.clk := by
  have hrelease : ∀ d u, (releaseHeld d u).clk = u.clk := fun d u =>
    (foot_releaseHeld (Print.Sub.refl _) (Within.refl _ u)).parts .clk (by decide) (by decide)
  rw [summed, each_keeps (φ := State.clk) hrelease,
    (foot_selfTest (Print.Sub.refl _) (Within.refl _ _)).parts .clk (by decide) (by decide),
    (foot_sumRails (Print.Sub.refl _) (Within.refl _ _)).parts .clk (by decide) (by decide)]

/-- A switching period starts with the length set before, and the good periods of SYNC_IN are counted (R101, R112, R158). -/
theorem clk_loopEvaluation (hstart : s.clk.started = true) : let t := finish (effLoopEvaluation vin volts m dis flag s)
    t.clk.period = s.clk.next ∧ t.clk.next = switchPeriod (syncStep m s) m ∧
    t.clk.syncRun = (if acquiring s = true ∧ 784 ≤ m.period ∧ m.period ≤ 816 then min 64 (s.clk.syncRun + 1) else 0) := by
  have hclk : (finish (effLoopEvaluation vin volts m dis flag s)).clk = (periodStarted m (syncStep m (vinSample vin s))).clk := by
    rw [(Within.finish _).parts .clk (by decide) (by decide), effLoopEvaluation_eq hstart, clk_summed, evaluated,
      each_keeps (φ := State.clk) clk_evalRail, clk_sampled]
  have hsync : SyncAs (syncStep m s) (syncStep m (vinSample vin s)) := syncAs_syncStep (syncAs_vinSample s) m
  have hvin : (vinSample vin s).clk = s.clk := put_clk ..
  refine ⟨?_, ?_, ?_⟩
  · rw [hclk]
    exact show (vinSample vin s).clk.next = s.clk.next from congrArg ClockH.next hvin
  · rw [hclk]
    exact (switchPeriod_of (syncAs_period _ _) m).trans (switchPeriod_of hsync m)
  · rw [hclk]
    exact congrArg ClockH.syncRun hsync.clk

end

end Sys2Proof.Machine

/-! What has left the block stays in the record as rails are enabled, switched off and lost (R123 to R131, R180, R638). -/

namespace Sys2Proof.Machine

/-- From s to t nothing that was sent is taken back. -/
structure OutGrows (s t : State) : Prop where
  out : s.out ⊆ t.out

namespace OutGrows

variable {s t u : State}

theorem refl (s : State) : OutGrows s s := ⟨List.Subset.refl _⟩

theorem trans (h : OutGrows s t) (k : OutGrows t u) : OutGrows s u := ⟨List.Subset.trans h.out k.out⟩

theorem of_eq (h : t.out = s.out) : OutGrows s t := ⟨out_subset_of_eq h⟩

theorem within {p : Print} (hk : Within p s t) (hpart : Part.out ∉ p.parts) (hcell : ∀ c ∈ p.cells, c.part ≠ .out) : OutGrows s t :=
  of_eq (hk.parts .out hpart hcell)

theorem put (f : Field) (v : Nat) (s : State) : OutGrows s (put f v s) := of_eq (put_out ..)

theorem event (f : Field) (b : Nat) (s : State) : OutGrows s (event f b s) := of_eq (put_out ..)

theorem emit (o : Out) (s : State) : OutGrows s (emit o s) := ⟨out_subset_emit o s⟩

theorem when {f : State → State} (hf : ∀ u, OutGrows u (f u)) (c : Bool) (s : State) : OutGrows s (when c f s) := by
  cases c
  · exact refl s
  · exact hf s

theorem each {α : Type} {f : α → State → State} {l : List α} (hf : ∀ x u, OutGrows u (f x u)) (s : State) : OutGrows s (each l f s) :=
  each_induct (P := OutGrows s) (fun x _ u hu => hu.trans (hf x u)) (refl s)

theorem ite {c : Prop} [Decidable c] {t u : State} (ht : OutGrows s t) (hu : OutGrows s u) : OutGrows s (if c then t else u) := by
  split
  · exact ht
  · exact hu

theorem setPhase (n : Nat) (v : PhaseH) (s : State) : OutGrows s (setPhase n v s) := of_eq rfl
theorem setRail (n : Nat) (v : RailH) (s : State) : OutGrows s (setRail n v s) := of_eq rfl
theorem setLink (d : Nat) (v : LinkD) (s : State) : OutGrows s (setLink d v s) := of_eq rfl
theorem setItn (d : Nat) (v : ItnD) (s : State) : OutGrows s (setItn d v s) := of_eq rfl
theorem setTok (d : Nat) (v : TokD) (s : State) : OutGrows s (setTok d v s) := of_eq rfl
theorem setEst (d : Nat) (v : EstD) (s : State) : OutGrows s (setEst d v s) := of_eq rfl
theorem setCap (d : Nat) (v : CapD) (s : State) : OutGrows s (setCap d v s) := of_eq rfl
theorem pins (p : Pins) (s : State) : OutGrows s { s with pins := p } := of_eq rfl
theorem boot (b : BootH) (s : State) : OutGrows s { s with boot := b } := of_eq rfl
theorem bootPins (b : BootH) (p : Pins) (s : State) : OutGrows s { s with boot := b, pins := p } := of_eq rfl
theorem setRecov (v : RecovH) (s : State) : OutGrows s (setRecov v s) := of_eq rfl

/-! Messages, faults and budgets. -/

theorem sendMsg (up : Bool) (d : Nat) (m : Msg) (s : State) : OutGrows s (sendMsg up d m s) := ⟨out_subset_sendMsg⟩

theorem sendFrame (up : Bool) (ty d : Nat) (l : List Nat) (s : State) : OutGrows s (sendFrame up ty d l s) := by
  unfold Machine.sendFrame
  exact (setLink ..).trans ((emit ..).trans (emit ..))

theorem faultOn (b : Nat) (s : State) : OutGrows s (faultOn b s) := by
  unfold Machine.faultOn notifyAll
  exact ite (refl s) ((event ..).trans (each (fun p u => ⟨out_subset_notify 6 p⟩) _))

theorem showReasons (d : Nat) (s : State) : OutGrows s (showReasons d s) :=
  within (foot_showReasons (o_d := none) Names.any (Print.Sub.refl _) (Within.refl _ s)) (by decide) (by decide)

theorem refit (d : Nat) (s : State) : OutGrows s (refit d s) := by
  unfold Machine.refit
  refine ite (trans ?_ (showReasons d _)) (refl s)
  unfold sendBudget sendDown
  exact (setCap ..).trans ((put ..).trans ((put ..).trans (sendMsg ..)))

theorem refitRail (r : Nat) (s : State) : OutGrows s (refitRail r s) := by
  unfold Machine.refitRail
  exact ite (each refit s) (refit ..)

theorem recordRail (code r arg : Nat) (s : State) : OutGrows s (recordRail code r arg s) :=
  within (foot_recordRail (Print.Sub.refl _) (Within.refl _ s)) (by decide) (by decide)

theorem sendOrder (kind ctx : Nat) (s : State) : OutGrows s (sendOrder kind ctx s) := by
  unfold Machine.sendOrder
  exact (emit ..).trans (each (fun d u => ite (sendFrame ..) (refl u)) _)

/-! The reset of a die. -/

theorem completeAt (port tag st r0 r1 : Nat) (s : State) : OutGrows s (completeAt port tag st r0 r1 s) := ⟨out_subset_completeAt ..⟩

theorem agentPut (d : Nat) (f : Field) (v : Nat) (s : State) : OutGrows s (agentPut d f v s) := by
  unfold Machine.agentPut
  exact ite (setLink ..) (put ..)

theorem endForced (d n : Nat) (s : State) : OutGrows s (endForced d n s) := by
  unfold Machine.endForced
  exact (setItn ..).trans (each (fun f u => completeAt ..) _)

theorem dropForced (d : Nat) (s : State) : OutGrows s (dropForced d s) := by
  unfold Machine.dropForced
  exact (endForced ..).trans ((setItn ..).trans (each (fun f u => completeAt ..) _))

theorem endCut (d : Nat) (s : State) : OutGrows s (endCut d s) := by
  unfold Machine.endCut heard
  dsimp only
  refine ite ?_ (refl s)
  refine trans ((setItn ..).trans ((agentPut ..).trans (agentPut ..))) (trans (when ?_ _ _) (when ?_ _ _))
  · exact fun u => (pins _ u).trans ((agentPut ..).trans (emit ..))
  · exact fun u => (sendMsg ..).trans ((endForced ..).trans (showReasons ..))

theorem recovDieReset (d : Nat) (s : State) : OutGrows s (recovDieReset d s) := by
  have hstuck : ∀ u, OutGrows u (stuckOff u) := fun u =>
    within (foot_stuckOff (Print.Sub.refl _) (Within.refl _ u)) (by decide) (by decide)
  unfold Machine.recovDieReset
  dsimp only
  exact (setRecov ..).trans ((each (fun c u => (put ..).trans (sendOrder ..)) _).trans (when hstuck _ _))

theorem dieCleared (d : Nat) (s : State) : OutGrows s (dieCleared d s) := by
  have hleave : ∀ u, OutGrows u (leaveLost d u) := fun u =>
    within (foot_leaveLost (o_d := none) Names.any (Print.Sub.refl _) (Within.refl _ u)) (by decide) (by decide)
  have hstretch : ∀ p u, OutGrows u (Machine.emit (.stretch d 0 false) { u with pins := p }) := fun p u => (pins p u).trans (emit ..)
  have hpair : ∀ u, OutGrows u (restLinkPair u) := fun u =>
    within (foot_restLinkPair (Print.Sub.refl _) (Within.refl _ u)) (by decide) (by decide)
  have hring : ∀ u, OutGrows u (ringStale u) := fun u =>
    within (foot_ringStale (Print.Sub.refl _) (Within.refl _ u)) (by decide) (by decide)
  have htherm : ∀ v u, OutGrows u (setTherm v u) := fun v u => of_eq rfl
  have hclear : ∀ u, OutGrows u (clearDieRegs d u) := fun u => of_eq rfl
  unfold Machine.dieCleared
  dsimp only
  refine trans ((hleave s).trans ((endCut d _).trans ((dropForced d _).trans ⟨out_subset_resetReached d⟩))) ?_
  generalize resetReached d (Machine.dropForced d (Machine.endCut d (leaveLost d s))) = w
  refine trans ?_ (when hpair _ _)
  exact (hclear _).trans ((each (fun e u => put ..) _).trans ((put ..).trans ((htherm ..).trans ((setTok ..).trans ((setItn ..).trans
    ((setEst ..).trans ((setCap ..).trans ((when (hstretch _) _ _).trans ((put ..).trans ((hring _).trans (recovDieReset ..)))))))))))

/-! Rails switched off, lost and enabled. -/

theorem stopTest (r : Nat) (s : State) : OutGrows s (stopTest r s) := by
  unfold Machine.stopTest
  exact ite (of_eq rfl) (refl s)

theorem railOff (r : Nat) (s : State) : OutGrows s (railOff r s) := by
  have hphase : ∀ n u, OutGrows u (if phState u n = psFAILED then Machine.setPhase n { phaseOf u n with wire := 0, onTaps := 0, limited := false } u
      else u |> setPh n psOFF |> Machine.setPhase n PhaseH.init |> Machine.put (R.PST_PH_DUTY.TRIM n) 0) :=
    fun n u => ite (setPhase ..) ((put ..).trans ((setPhase ..).trans (put ..)))
  have hcut : ∀ u, OutGrows u (Machine.endCut r (Machine.put (R.ITN_DIE_STAT.PE r) 0 u)) := fun u => (put ..).trans (endCut ..)
  have hpower : ∀ u, OutGrows u (unpower (r % 16) u) := fun u => by
    unfold unpower
    exact ite ((setLink ..).trans (setEst ..)) (refl u)
  unfold Machine.railOff
  exact (each hphase _).trans ((put ..).trans ((put ..).trans ((put ..).trans ((setRail ..).trans ((when hcut _ _).trans
    ((stopTest ..).trans ((when hpower _ _).trans (refitRail ..))))))))

theorem holdDie (r : Nat) (s : State) : OutGrows s (holdDie r s) := by
  unfold Machine.holdDie
  exact ite (refl s) ((bootPins _ _ s).trans ((dieCleared ..).trans (railOff ..)))

theorem lostCheck (r : Nat) (s : State) : OutGrows s (lostCheck r s) := by
  have hmark : ∀ b c arg u, OutGrows u (Machine.refitRail r (Machine.recordRail c r arg (Machine.faultOn b (Machine.event R.PST_EVENT 8
      (Machine.put (R.PST_RAIL_STAT.LOST r) 1 u))))) :=
    fun b c arg u => (put ..).trans ((event ..).trans ((faultOn ..).trans ((recordRail ..).trans (refitRail ..))))
  unfold Machine.lostCheck
  refine ite (refl s) (trans (hmark 0 0x0206 r s) ?_)
  split
  · exact boot ..
  · exact holdDie ..

theorem railEnable (r : Nat) (s : State) : OutGrows s (railEnable r s) := by
  have hsoft : ∀ n u, OutGrows u (enterSoft n 0 u) := fun n u => by
    unfold enterSoft
    exact (put ..).trans ((setPhase ..).trans (when (fun _ => put ..) _ _))
  unfold Machine.railEnable
  refine ite (refl s) ?_
  exact (each (fun n u => (hsoft n u).trans (setPhase ..)) _).trans ((put ..).trans ((put ..).trans ((put ..).trans ((put ..).trans
    ((setRail ..).trans ((refitRail ..).trans (lostCheck ..)))))))

end OutGrows

end Sys2Proof.Machine

/-! O8: LOOP_EVALUATION sends SYNC_OUT with the rest (R101, R116), and the obligation's clauses put together. -/

namespace Sys2Proof.Machine

section

variable {r k vin period dis : Nat} {volts : List Nat} {m : SyncIn} {flag : Bool} {s t u : State}

namespace OutGrows

theorem lawTaken (k : Nat) (o : LawOut) (ipred : Int) (vinU : Nat) (differ : Bool) (s : State) :
    OutGrows s (lawTaken k o ipred vinU differ s) := by
  unfold Machine.lawTaken lawDiffered lawAgreed
  dsimp only
  refine ite ((setRail ..).trans ((event ..).trans ((put ..).trans (put ..)))) ?_
  exact (setRail ..).trans ((put ..).trans ((put ..).trans (when (fun u => (put ..).trans (setRail ..)) _ _)))

theorem enableCores (s : State) : OutGrows s (enableCores s) := each railEnable s

theorem loopMoved (k st : Nat) (e : Int) (s : State) : OutGrows s (loopMoved k st e s) := by
  unfold Machine.loopMoved
  dsimp only
  refine ite (ite ?_ (refl s)) (ite ?_ (ite (put ..) (refl s)))
  · exact (put ..).trans ((when (fun u => pins _ u) _ _).trans (when enableCores _ _))
  · exact (put ..).trans ((setRail ..).trans (event ..))

theorem lawStep (k : Nat) (differ : Bool) (s : State) : OutGrows s (lawStep k differ s) := by
  by_cases hold : loopState s k = lpHOLD
  · rw [lawStep_hold hold]
    unfold heldLaw
    exact (put ..).trans ((when (fun u => put ..) _ _).trans (put ..))
  · obtain ⟨frozen, lead, o, ipred, vinU, on, sig, entered, heq⟩ := lawStep_law hold differ
    have hshown : OutGrows s (lawShown k frozen lead s) := (put ..).trans (when (fun u => put ..) _ _)
    have htested : ∀ u, OutGrows u (lawTested k sig entered u) := fun u =>
      (setRail ..).trans (within (foot_testStep (Print.Sub.refl _) (Within.refl _ _)) (by decide) (by decide))
    rw [heq, superviseStep_eq]
    exact hshown.trans ((lawTaken ..).trans ((loopMoved ..).trans (when htested _ _)))

theorem refStep (k : Nat) (s : State) : OutGrows s (refStep k s) := by
  have hthreshold : ∀ d v u, OutGrows u (sendThreshold d v u) := by
    intro d v u
    unfold sendThreshold
    exact ite (refl u) ((setItn ..).trans (sendMsg ..))
  have habove : ∀ d u, OutGrows u (noteAbove d u) := fun d u =>
    within (foot_noteAbove (o_d := none) Names.any (Print.Sub.refl _) (Within.refl _ u)) (by decide) (by decide)
  have hinjection : ∀ u, OutGrows u (nextInjection u) := fun u =>
    within (foot_nextInjection (Print.Sub.refl _) (Within.refl _ u)) (by decide) (by decide)
  unfold Machine.refStep
  dsimp only
  refine (setRail ..).trans ((setRail ..).trans ((when hinjection _ _).trans ((put ..).trans (when ?_ _ _))))
  exact fun u => (put ..).trans ((put ..).trans ((put ..).trans ((hthreshold ..).trans (habove ..))))

theorem beforeLaw (k : Nat) (s : State) : OutGrows s (beforeLaw k s) := by
  have hshow : ∀ n u, OutGrows u (showDuty n u) := fun n u =>
    within (foot_showDuty (o_n := none) Names.any (Print.Sub.refl _) (Within.refl _ u)) (by decide) (by decide)
  have hbrake : ∀ u, OutGrows u (brakeStep k u) := fun u =>
    within (foot_brakeStep (o_r := none) Names.any (Print.Sub.refl _) (Within.refl _ u)) (by decide) (by decide)
  have hramp : ∀ u, OutGrows u (rampShares k u) := fun u =>
    within (foot_rampShares (Print.Sub.refl _) (Within.refl _ u)) (by decide) (by decide)
  have hunshed : ∀ u, OutGrows u (unshedStep k u) := fun u =>
    within (foot_unshedStep (Print.Sub.refl _) (Within.refl _ u)) (by decide) (by decide)
  have htrim : ∀ u, OutGrows u (trimStep k u) := fun u =>
    within (foot_trimStep (Print.Sub.refl _) (Within.refl _ u)) (by decide) (by decide)
  have hcheck : ∀ u, OutGrows u (checkStep k u) := fun u =>
    within (foot_checkStep (Print.Sub.refl _) (Within.refl _ u)) (by decide) (by decide)
  exact (each hshow s).trans ((refStep ..).trans ((hbrake _).trans ((hramp _).trans ((hunshed _).trans ((setRail ..).trans
    ((htrim _).trans (hcheck _)))))))

theorem afterLaw (period : Nat) (held : Bool) (l : List Nat) (k : Nat) (s : State) : OutGrows s (afterLaw period held l k s) := by
  have hsoft : ∀ u, OutGrows u (endSoft k u) := fun u => ite (setRail ..) (refl u)
  have hlimited : ∀ n u, OutGrows u (endLimited n u) := fun n u => ite (setPhase ..) (refl u)
  have hphase : ∀ n duty u, OutGrows u (phaseStep k n duty period held u) := by
    intro n duty u
    unfold phaseStep formEdge
    dsimp only
    exact (setPhase ..).trans ((when (put _ _) _ _).trans ((setPhase ..).trans ((put ..).trans (emit ..))))
  exact (hsoft s).trans ((each hlimited _).trans (each (fun n u => hphase ..) _))

theorem evalRail (k : Nat) (s : State) : OutGrows s (evalRail period dis k s) := by
  by_cases hoff : loopState s k = lpOFF
  · rw [evalRail_off hoff]
    exact refl s
  · rw [evalRail_on hoff]
    exact (beforeLaw ..).trans ((lawStep ..).trans (afterLaw ..))

theorem reloadDie (d : Nat) (s : State) : OutGrows s (reloadDie d s) := by
  have hloads : ∀ l p e a b u, OutGrows u (sendLoads l p e a b u) := fun l p e a b u => (emit ..).trans (emit ..)
  have hscrub : ∀ l p u, OutGrows u (sendScrub l p u) := fun l p u =>
    trans (t := drawn u) (of_eq rfl) ((put ..).trans (emit ..))
  have hkeys : ∀ l p u, OutGrows u (reloadKeys l p u) := by
    intro l p u
    unfold reloadKeys
    dsimp only
    refine ite (refl u) ?_
    exact (when (fun w => (hloads ..).trans (emit ..)) _ _).trans ((hloads ..).trans ((emit ..).trans (each (fun e w => emit ..) _)))
  unfold Machine.reloadDie
  exact ite (refl s) (ite (hscrub ..) (hkeys ..))

theorem self (v : SelfTest) (s : State) : OutGrows s { s with self := v } := of_eq rfl

theorem summed (ds : List Nat) (s : State) : OutGrows s (summed flag ds s) := by
  have hsum : OutGrows s (sumRails s) := within (foot_sumRails (Print.Sub.refl _) (Within.refl _ s)) (by decide) (by decide)
  have hself : ∀ u, OutGrows u (selfTest flag u) := by
    intro u
    have hreport : ∀ w, OutGrows w (Machine.record 0x0302 0 (Machine.faultOn 2 (Machine.event R.LPE_EVENT 4 w))) := fun w =>
      (event ..).trans ((faultOn ..).trans (of_eq (record_out ..)))
    unfold selfTest
    exact (self _ u).trans (when hreport _ _)
  have hrelease : ∀ d u, OutGrows u (releaseHeld d u) := by
    intro d u
    unfold releaseHeld
    exact ite ((boot _ u).trans (reloadDie ..)) (refl u)
  exact hsum.trans ((hself _).trans (each hrelease _))

end OutGrows

/-- SYNC_OUT rises at the start of a switching period where it is enabled (R116). -/
theorem syncOut_loopEvaluation (hstart : s.clk.started = true) (hon : isOn s R.PST_CTRL.SYNC_OUT_EN = true) :
    Out.syncOut (s.clk.next / 2) ∈ (finish (effLoopEvaluation vin volts m dis flag s)).out := by
  have hvin : isOn (vinSample vin s) R.PST_CTRL.SYNC_OUT_EN = true := by rwa [isOn, get_vinSample_ne (key_ne (by decide)), ← isOn]
  have hclk : (vinSample vin s).clk = s.clk := put_clk ..
  have hsent : Out.syncOut (s.clk.next / 2) ∈ (startPeriod m (vinSample vin s)).out := by
    rw [startPeriod_eq, hvin, when_true, hclk]
    exact mem_out_emit ..
  have hlatch : OutGrows (startPeriod m (vinSample vin s)) (sampled vin volts m s) :=
    .each (fun k u => (OutGrows.put ..).trans (.setRail ..)) _
  have hrails : ∀ l u, OutGrows u (evaluated dis l u) := fun l u => .each OutGrows.evalRail u
  rw [out_finish, effLoopEvaluation_eq hstart]
  exact (hlatch.trans ((hrails ..).trans (.summed ..))).out hsent

/-- An evaluation takes its samples and starts a switching period (R101, R112, R116, R158, R163, R166). -/
theorem loopEvaluation_samples (hstart : s.clk.started = true) (hvin : vin < 2 ^ 16) (hvolts : ∀ v ∈ volts, v < 2 ^ 16) :
    ∃ t, exec (.loopEvaluation vin volts m dis flag) s = .next t ∧ get t R.PST_VIN.VIN = vin ∧
      get t R.PST_SYNC_STAT.PERIOD = s.clk.period % 2 ^ 16 ∧ t.clk.period = s.clk.next ∧ t.clk.next = switchPeriod (syncStep m s) m ∧
      t.clk.syncRun = (if acquiring s = true ∧ 784 ≤ m.period ∧ m.period ≤ 816 then min 64 (s.clk.syncRun + 1) else 0) ∧
      (isOn s R.PST_CTRL.SYNC_OUT_EN = true → Out.syncOut (s.clk.next / 2) ∈ t.out) ∧
      ∀ r < 33, railFitted s r = true → vmeas t r = nth volts r := by
  obtain ⟨hperiod, hnext, hrun⟩ := clk_loopEvaluation (vin := vin) (volts := volts) (m := m) (dis := dis) (flag := flag) hstart
  refine ⟨_, rfl, ?_, ?_, hperiod, hnext, hrun, syncOut_loopEvaluation hstart, fun r _ hfit => ?_⟩
  · rw [get_loopEvaluation hstart (.inl rfl), vin_sampled hvin]
  · rw [get_loopEvaluation hstart (.inr (.inl rfl)), period_sampled]
  · exact (get_loopEvaluation hstart (.inr (.inr ⟨r, rfl⟩))).trans (vmeas_sampled hvolts hfit)

end

/-- Settles O8, from what every part of an evaluation leaves of the loops, the measured registers and what was sent, and from
the lemmas about HOLD. -/
theorem loopsEvaluateAndHold : Obligations.LoopsEvaluateAndHold :=
  ⟨fun _ _ _ _ _ _ hstart hvin hvolts _ => loopEvaluation_samples hstart hvin hvolts,
    fun _ _ _ _ _ _ _ hstart hstage hfit hloop hdis => loopEvaluation_agrees hstart hstage hfit hloop hdis,
    fun _ _ _ _ _ _ _ hstart hstage hfit hloop hdis => loopEvaluation_differs hstart hstage hfit hloop hdis,
    fun _ _ _ _ _ _ _ hstage hloop => loopEvaluation_rests hstage hloop,
    fun _ _ hfit hcmp => cmpHold_holds hfit hcmp,
    fun _ _ hfit hloop htime => feHold_holds hfit hloop htime,
    fun _ _ _ _ _ hw hpar hr hloop hlost => loopResume_tracks hw hpar hr hloop hlost,
    fun _ _ _ _ _ hw hpar hr hstate => loopResume_state hw hpar hr hstate,
    fun _ _ _ _ _ hw hpar hr hhi => loopResume_range hw hpar hr hhi⟩

end Sys2Proof.Machine

/-! The loop test: LOOP_TEST, LOOP_TEST_STOP and LOOP_TEST_END (R196, R198, R201, R202). -/

namespace Sys2Proof.Machine

section

variable {s t u : State} {fl : Flight} {port tag st r0 r1 : Nat}

/-- LOOP_TEST that is legal, on a rail in TRACK, starts its test and waits (R201). -/
theorem loopTest_starts (hw : Waiting s 0x0302 port tag fl) (hgood : testBad s = false) (hrange : testRange s = false)
    (hidle : s.test.running = false) (hloop : loopState s (get s R.LPE_INJ_CFG.RAIL) = lpTRACK) :
    ∃ t, exec (.loopTest port tag) s = .next t ∧ t.test.running = true ∧ t.test.rail = get s R.LPE_INJ_CFG.RAIL ∧
      get t R.LPE_CAP_STAT.STATE = (if get s R.LPE_INJ_CFG.MODE = 2 then 2 else 1) ∧ get t R.LPE_CAP_STAT.COUNT = 0 ∧
      flightOf t port tag = some { fl with started := true } := by
  have hcheck : firstFail [(testBad s, sBAD_PARAM), (testRange s, sOUT_OF_RANGE),
      (s.test.running || decide (loopState s (get s R.LPE_INJ_CFG.RAIL) ≠ lpTRACK), sWRONG_STATE)] = none := by
    simp [firstFail, hgood, hrange, hidle, hloop]
  refine ⟨_, congrArg done (command_of hw hcheck), ?_⟩
  have htest : ∀ u, (finish u).test = u.test := fun u => (Within.finish u).parts .test (by decide) (by decide)
  rw [htest, get_finish (by decide) (by decide), get_finish (by decide) (by decide), flightOf_of (host_finish _)]
  simp (disch := decide) only [get_markStarted, get_put_ne, get_put_self, markStarted_test, put_test]
  refine ⟨rfl, rfl, ?_, rfl, flightOf_markStarted ((flightOf_of ?_ port tag).trans hw.flight)⟩
  · split <;> rfl
  · simp only [put_host, setTest]

/-- LOOP_TEST with an invalid mode, signal, ORDER or trigger (R197, R201). -/
theorem loopTest_bad (hw : Waiting s 0x0302 port tag fl) (hbad : testBad s = true) :
    ∃ t, exec (.loopTest port tag) s = .next t ∧ Completed s t fl sBAD_PARAM 0 0 :=
  ⟨_, congrArg done (command_of_fail hw (by simp only [firstFail, hbad, if_true])), (Unanswered.refl s).completed fl _ 0 0⟩

/-- LOOP_TEST_STOP of a test that goes on (R202). -/
theorem loopTestStop_stops (hw : Waiting s 0x0303 port tag fl) (hgoes : testGoes s = true) :
    ∃ t, exec (.loopTestStop port tag) s = .next t ∧ Completed s t fl sOK 0 0 ∧ t.test = { s.test with stop := true } := by
  have hcheck : firstFail [(!testGoes s, sWRONG_STATE)] = none := by simp only [firstFail, hgoes, Bool.not_true, Bool.false_eq_true, if_false]
  have hquiet : Unanswered s (setTest { s.test with stop := true } s) := .of_eq rfl rfl
  refine ⟨_, congrArg done (command_of hw hcheck), hquiet.completed fl sOK 0 0, ?_⟩
  rw [(Within.finish _).parts .test (by decide) (by decide), (foot_complete (Print.Sub.refl _) (Within.refl _ _)).parts .test (by decide) (by decide)]
  rfl

/-- The command of a flight completes with it. -/
theorem completeAt_of_flight (h : flightOf s port tag = some fl) : completeAt port tag st r0 r1 s = complete fl st r0 r1 s := by
  simp only [completeAt, h]

/-- The completion of a flight lies in the completion queue of its port (R560). -/
theorem outside_cqSlot {a : Nat} (hport : port < 9) (ha : inQueue a = false) : a < cqSlot s port ∨ cqSlot s port + 16 ≤ a := by
  simp only [inQueue, decide_eq_false_iff_not] at ha
  simp only [cqSlot, portArea]
  omega

/-- A completion stores nothing outside the completion queues (R560). -/
theorem Completed.readByte (h : Completed s t fl st r0 r1) {a : Nat} (ha : inQueue a = false) : readByte t a = readByte s a :=
  h.memory a fun hport => outside_cqSlot hport ha

/-- What a command does before its answer leaves the answer where it is, but for the tails of the completion queues (R556, R560). -/
theorem Answered.after (h : Answered u t fl st r0 r1) (htails : ∀ p, get u (R.CMD_CQ_TAIL.TAIL p) = get s (R.CMD_CQ_TAIL.TAIL p)) :
    Answered s t fl st r0 r1 := by
  obtain ⟨hgone, hport, hfirmware⟩ := h
  rw [show cqSlot u fl.port = cqSlot s fl.port by rw [cqSlot, cqSlot, htails], htails] at hport
  exact ⟨hgone, hport, hfirmware⟩

/-- Unrolling a ring of n entries stores in the n entries (R196). -/
theorem readByte_unrollRing {a n : Nat} (ha : a < entryArea 0 ∨ entryArea n ≤ a) (k : Nat) (s : State) :
    readByte (unrollRing n k s) a = readByte s a := by
  refine readByte_writeBytes_ne _ ?_ s
  simp only [entryArea, sharedArea, readBytes, List.length_append, List.length_drop, List.length_take, List.length_map, List.length_range] at ha ⊢
  omega

theorem readByte_orderRing {a : Nat} (ha : a < entryArea 0 ∨ entryArea (get s R.LPE_CAP_PRE.PRE) ≤ a) : readByte (orderRing s) a = readByte s a := by
  unfold orderRing
  dsimp only
  split
  · exact readByte_unrollRing ha _ s
  · rfl

theorem get_orderRing (g : Field) : get (orderRing s) g = get s g := by
  unfold orderRing unrollRing
  dsimp only
  split
  · exact get_writeBytes ..
  · rfl

theorem host_orderRing : (orderRing s).host = s.host := by
  unfold orderRing unrollRing
  dsimp only
  split
  · exact host_writeBytes ..
  · rfl

/-- The capture of the test is over, and the event tells whether it was whole (R198). -/
def testOver (e : Nat) (s : State) : State := s |> setTest TestH.init |> put R.LPE_CAP_STAT.STATE 3 |> event R.LPE_EVENT e

theorem unanswered_testOver (e : Nat) (s : State) : Unanswered s (testOver e s) :=
  (Unanswered.of_eq (s := s) (t := setTest TestH.init s) rfl rfl).trans ((Unanswered.put (f := R.LPE_CAP_STAT.STATE) (by decide) 3 _).trans
    (.put (f := R.LPE_EVENT) (by decide) _ _))

theorem host_testOver (e : Nat) (s : State) : (testOver e s).host = s.host := (put_host ..).trans (put_host ..)

/-- The test is over once its command is answered. -/
theorem answered_testOver {e : Nat} (he : e < 8) :
    (finish (complete fl st r0 r1 (testOver e s))).test.running = false ∧
      bit (get (finish (complete fl st r0 r1 (testOver e s))) R.LPE_EVENT) e = true ∧
      get (finish (complete fl st r0 r1 (testOver e s))) R.LPE_CAP_STAT.STATE = 3 := by
  have hevent : Low R.LPE_EVENT := low_of nofun (by decide) (by decide) (by decide) (by decide)
  have hstate : Low R.LPE_CAP_STAT.STATE := low_of nofun (by decide) (by decide) (by decide) (by decide)
  refine ⟨?_, ?_, ?_⟩
  · rw [(Within.finish _).parts .test (by decide) (by decide),
      (foot_complete (Print.Sub.refl _) (Within.refl _ _)).parts .test (by decide) (by decide), testOver, event, put_test, put_test]
    rfl
  · rw [get_answered hevent]
    exact bit_event_self (by nofun) he _
  · rw [get_answered hstate, testOver, get_event_ne (by decide), get_put_self (by nofun)]
    rfl

/-- LOOP_TEST_END of a capture that is whole (R198, R201). -/
theorem loopTestEnd_whole (hrun : s.test.running = true) (hfl : flightOf s s.test.port s.test.tag = some fl)
    (hwhole : get s R.LPE_CAP_STAT.STATE = 3) :
    ∃ t, exec .loopTestEnd s = .next t ∧ t.test.running = false ∧ bit (get t R.LPE_EVENT) 6 = true ∧
      Completed s t fl sOK (get s R.LPE_CAP_STAT.COUNT) (get s R.LPE_CAP_TS.TIME % 2 ^ 32) := by
  have horder : orderRing s = s := if_neg (by omega)
  have hend : effLoopTestEnd s = complete fl sOK (get s R.LPE_CAP_STAT.COUNT) (get s R.LPE_CAP_TS.TIME % 2 ^ 32) (testOver 6 s) := by
    rw [← completeAt_of_flight ((flightOf_of (host_testOver 6 s) _ _).trans hfl)]
    simp only [effLoopTestEnd, hrun, hwhole, true_or, and_self, if_true, horder, testOver]
  obtain ⟨hover, hevent, -⟩ := answered_testOver (s := s) (fl := fl) (e := 6) (by decide)
  exact ⟨_, congrArg done hend, hover, hevent, (unanswered_testOver 6 s).completed ..⟩

/-- LOOP_TEST_END of a test that was stopped, whose ring is put in order (R196, R198, R201). -/
theorem loopTestEnd_stopped (hrun : s.test.running = true) (hfl : flightOf s s.test.port s.test.tag = some fl)
    (hpart : get s R.LPE_CAP_STAT.STATE ≠ 3) (hstop : s.test.stop = true) :
    ∃ t, exec .loopTestEnd s = .next t ∧ t.test.running = false ∧ bit (get t R.LPE_EVENT) 7 = true ∧ get t R.LPE_CAP_STAT.STATE = 3 ∧
      Answered s t fl sABORTED (get s R.LPE_CAP_STAT.COUNT) (get s R.LPE_CAP_TS.TIME % 2 ^ 32) ∧
      StoresIn s t (entryArea 0) (entryArea (get s R.LPE_CAP_PRE.PRE)) := by
  have hflight : flightOf (testOver 7 (orderRing s)) s.test.port s.test.tag = some fl :=
    (flightOf_of ((host_testOver 7 _).trans host_orderRing) _ _).trans hfl
  have hend : effLoopTestEnd s =
      complete fl sABORTED (get s R.LPE_CAP_STAT.COUNT) (get s R.LPE_CAP_TS.TIME % 2 ^ 32) (testOver 7 (orderRing s)) := by
    rw [← completeAt_of_flight hflight]
    simp only [effLoopTestEnd, hrun, hpart, hstop, or_true, and_self, if_true, if_false, testOver]
  obtain ⟨hover, hevent, hstate⟩ := answered_testOver (s := orderRing s) (fl := fl) (e := 7) (by decide)
  have hanswer := (unanswered_testOver 7 (orderRing s)).completed fl sABORTED (get s R.LPE_CAP_STAT.COUNT) (get s R.LPE_CAP_TS.TIME % 2 ^ 32)
  exact ⟨_, congrArg done hend, hover, hevent, hstate, hanswer.toAnswered.after fun p => get_orderRing _,
    fun a hq ha => (hanswer.readByte hq).trans (readByte_orderRing ha)⟩

end

end Sys2Proof.Machine

/-! COMMIT: the shadow set of a rail taken, or left with COMMIT_ERR (R188 to R190). -/

namespace Sys2Proof.Machine

section

variable {s : State} {p r v : Nat} {g : Field}

/-- A violation writes no register below those of the host interface (R572). -/
theorem get_violation_below (h : g.off * 32 + g.lo < 0x120000 * 32) (k o c : Nat) (s : State) : get (violation p k o c s) g = get s g := by
  refine (foot_violation (Print.Sub.refl _) (Within.refl _ s)).get ?_
  simp only [fp_violation, fp_notifyAll, fp_notify, Print.free_cons, Print.free_nil, Print.free_reg, Print.free_reg1, Print.free_prt,
    and_true]
  refine ⟨?_, ?_, ?_, ?_, ?_, ?_, ?_, ?_, ?_, ?_⟩ <;> intros <;> refine key_ne ?_ <;>
    simp only [R.CMD_VIOL.REPEAT, R.CMD_VIOL.OFS, R.CMD_VIOL.PORT, R.CMD_VIOL.KIND, R.CMD_VIOL.OPCODE, R.CMD_VIOL.STATUS,
      R.CMD_VIOL.TIME, R.CMD_VIOL_STAT.COUNT, R.CMD_VIOL_STAT.LOST, R.CMD_NOTIFY] <;> omega

/-- The configuration generation counts a change (R45). -/
theorem get_bumpGen_self (s : State) : get (bumpGen s) R.RNG_GEN.GEN = (get s R.RNG_GEN.GEN + 1) % 2 ^ 32 :=
  get_put_self (f := R.RNG_GEN.GEN) nofun (get s R.RNG_GEN.GEN + 1) s

/-- A write of a rail's LPE_CTRL is judged as a COMMIT (R189). -/
theorem commit_runs (hw : Writes s p (0x04102C + 0x40 * r)) (hr : r < 33) (v : Nat) :
    exec (.commit p r v) s = .next (finish (writeCommit p (0x04102C + 0x40 * r) (v % 2 ^ 32) (touch p s))) := by
  have hat : writeAt p (0x04102C + 0x40 * r) (v % 2 ^ 32) (touch p s) = writeCommit p (0x04102C + 0x40 * r) (v % 2 ^ 32) (touch p s) := by
    unfold writeAt
    repeat rw [if_neg (by omega)]
    rw [if_pos (by omega)]
  exact congrArg done ((if_pos hr).trans ((effRegisterWrite_of_writes hw v).trans hat))

/-- A COMMIT takes the shadow set of its rail, by its place in the window (R188, R189). -/
theorem writeCommit_eq (hv : bit v 0 = true) (s : State) : writeCommit p (0x04102C + 0x40 * r) (v % 2 ^ 32) s =
    if (commitSet r s).2 then respond p 0 false (bumpGen (commitSet r s).1) else rejectValue p (0x04102C + 0x40 * r) (commitSet r s).1 := by
  have hrail : (0x04102C + 0x40 * r - 0x041000) / 0x40 = r := by omega
  have hbit : bit (v % 2 ^ 32) 0 = true := (bit_mod_two_pow (by decide) v).trans hv
  simp only [writeCommit, hrail, hbit, Bool.not_true, Bool.false_eq_true, if_false]

/-- The rails, at the end of a command that answers an access. -/
theorem railOf_finish_respond (p d : Nat) (e : Bool) (s : State) (r : Nat) : railOf (finish (respond p d e s)) r = railOf s r :=
  railOf_of (rails_finish _) r

/-- COMMIT of a good shadow set (R189, R190). -/
theorem commit_taken (hw : Writes s p (0x04102C + 0x40 * r)) (hr : r < 33) (hv : bit v 0 = true) (hgood : goodSet r (shadowSet s r) = true) :
    ∃ t, exec (.commit p r v) s = .next t ∧ (railOf t r).pending = some (shadowSet s r) ∧ get t (R.LPE_STAT.COMMIT_ERR r) = 0 ∧
      get t R.RNG_GEN.GEN = (get s R.RNG_GEN.GEN + 1) % 2 ^ 32 ∧ t.resp = [⟨p, 0, false⟩] := by
  have hset : commitSet r (touch p s) =
      (put (R.LPE_STAT.COMMIT_ERR r) 0 (setRail r { railOf s r with pending := some (shadowSet s r) } (touch p s)), true) := if_pos hgood
  have herr : Low (R.LPE_STAT.COMMIT_ERR r) := low_paged (by decide) (by omega)
  refine ⟨_, commit_runs hw hr v, ?_⟩
  rw [writeCommit_eq hv, hset, if_pos rfl]
  refine ⟨?_, ?_, ?_, resp_finish _⟩
  · rw [railOf_finish_respond, railOf_of (bumpGen_rails _), railOf_of (put_rails ..), railOf_setRail]
  · rw [get_finish_low herr, get_respond, get_bumpGen (herr.ne (by decide)), get_put_self (by nofun)]
    rfl
  · have hgen : fieldKey (R.LPE_STAT.COMMIT_ERR r) ≠ fieldKey R.RNG_GEN.GEN := Ne.symm (herr.ne (by decide))
    rw [get_finish (by decide) (by decide), get_respond, get_bumpGen_self, get_put_ne hgen, get_setRail, get_touch]

/-- COMMIT of a shadow set that is not good (R20, R189, R572). -/
theorem commit_rejected (hw : Writes s p (0x04102C + 0x40 * r)) (hr : r < 33) (hv : bit v 0 = true) (hbad : goodSet r (shadowSet s r) = false) :
    ∃ t, exec (.commit p r v) s = .next t ∧ railOf t r = railOf s r ∧ get t (R.LPE_STAT.COMMIT_ERR r) = 1 ∧
      bit (get t R.LPE_EVENT) 5 = true ∧ get t R.RNG_GEN.GEN = get s R.RNG_GEN.GEN ∧
      (get s R.CMD_VIOL_STAT.COUNT = 0 → get t R.CMD_VIOL_STAT.COUNT = 1 ∧ get t (R.CMD_VIOL.KIND 0) = 2) := by
  let u := event R.LPE_EVENT 5 (put (R.LPE_STAT.COMMIT_ERR r) 1 (touch p s))
  have hset : commitSet r (touch p s) = (u, false) := if_neg (by rw [show shadowSet (touch p s) r = shadowSet s r from rfl, hbad]; nofun)
  have herr : Low (R.LPE_STAT.COMMIT_ERR r) := low_paged (by decide) (by omega)
  have hevent : fieldKey R.LPE_EVENT ≠ fieldKey (R.LPE_STAT.COMMIT_ERR r) :=
    key_ne (by simp only [R.LPE_EVENT, R.LPE_STAT.COMMIT_ERR]; omega)
  have hshown : ∀ {g : Field}, g.off * 32 + g.lo < 0x120000 * 32 → get (finish (rejectValue p (0x04102C + 0x40 * r) u)) g = get u g := fun hg => by
    rw [get_finish (key_ne (by simp only [R.REC_LOST.COUNT]; omega)) (key_ne (by simp only [R.REC_EVENT]; omega)), rejectValue, get_respond,
      get_violation_below hg]
  refine ⟨_, commit_runs hw hr v, ?_⟩
  rw [writeCommit_eq hv, hset, if_neg Bool.false_ne_true]
  refine ⟨?_, ?_, ?_, ?_, fun hlog => ?_⟩
  · rw [rejectValue, railOf_finish_respond, railOf_of ((foot_violation (Print.Sub.refl _) (Within.refl _ u)).parts .rails (by decide) (by decide))]
    exact railOf_of ((put_rails ..).trans (put_rails ..)) r
  · rw [hshown (by have := herr.place; omega), get_event_ne hevent, get_put_self (by nofun)]
    rfl
  · rw [hshown (by decide)]
    exact bit_event_self (by nofun) (by decide) _
  · rw [hshown (by decide), get_event_ne (by decide), get_put_ne (Ne.symm (herr.ne (by decide))), get_touch]
  · have hempty : get u R.CMD_VIOL_STAT.COUNT = 0 := by
      rw [get_event_ne (by decide), get_put_ne (Ne.symm (herr.ne (by decide))), get_touch, hlog]
    have hfirst := (violation_loggedFirst hempty p 2 (0x04102C + 0x40 * r) 0).finish_respond p 0 false
    exact ⟨hfirst.count, hfirst.kind⟩

/-- A write of LPE_CTRL without COMMIT (R189). -/
theorem commit_idle (hw : Writes s p (0x04102C + 0x40 * r)) (hr : r < 33) :
    ∃ t, exec (.commit p r 0) s = .next t ∧ railOf t r = railOf s r ∧ t.resp = [⟨p, 0, false⟩] :=
  ⟨_, commit_runs hw hr 0, railOf_finish_respond p 0 false (touch p s) r, resp_finish _⟩

end

/-- Settles O9, a lemma for each clause. -/
theorem loopTestsAndCommits : Obligations.LoopTestsAndCommits :=
  ⟨fun _ _ _ _ hw hgood hrange hidle hloop => loopTest_starts hw hgood hrange hidle hloop,
    fun _ _ _ _ hw hbad => loopTest_bad hw hbad,
    fun _ _ _ _ hw hgoes => loopTestStop_stops hw hgoes,
    fun _ _ hrun hfl hwhole => loopTestEnd_whole hrun hfl hwhole,
    fun _ _ hrun hfl hpart hstop => loopTestEnd_stopped hrun hfl hpart hstop,
    fun _ _ _ _ hw hr hv hgood => commit_taken hw hr hv hgood,
    fun _ _ _ _ hw hr hv hbad => commit_rejected hw hr hv hbad,
    fun _ _ _ hw hr => commit_idle hw hr⟩

end Sys2Proof.Machine

/-! O56: a setting of the configuration image is a write of the firmware port, which may store in the loop-capture window (R194, R199, R626). -/

namespace Sys2Proof.Machine

/-- After a configuration image whose settings were accepted, the end of stage FW stores nothing but completions (R618, R626). -/
theorem readByte_bootStageEnd_configured {s : State} (h : Booting s 4) (hidle : s.boot.restart = none) (hok : (applyConfig s).2 = true)
    {a : Nat} (ha : inQueue a = false) : readByte (finish (effBootStageEnd s)) a = readByte (applyConfig s).1 a := by
  have hend : effBootStageEnd s = goVin (ringListen (recovResume
      (setPins { (firmwareReady (applyConfig s).1).pins with pwrgood := true } (firmwareReady (applyConfig s).1)))) := by
    simp only [effBootStageEnd, h.cold, h.stage, hidle, hok, Option.isSome_none, Bool.false_eq_true, if_false, if_true]
  have hready : ∀ u, Part.mem.same u (firmwareReady u) := fun u =>
    (foot_firmwareReady (Print.Sub.refl _) (Within.refl _ u)).parts .mem (by decide) (by decide)
  have hpins : ∀ v u, Part.mem.same u (setPins v u) := fun _ _ _ _ => rfl
  have hresume : ∀ u, Part.mem.same u (recovResume u) := fun u =>
    (foot_recovResume (Print.Sub.refl _) (Within.refl _ u)).parts .mem (by decide) (by decide)
  have hlisten : ∀ u, Part.mem.same u (ringListen u) := fun u =>
    (foot_ringListen (Print.Sub.refl _) (Within.refl _ u)).parts .mem (by decide) (by decide)
  have hvin : ∀ u, Part.mem.same u (goVin u) := fun u =>
    (foot_goVin (Print.Sub.refl _) (Within.refl _ u)).parts .mem (by decide) (by decide)
  rw [hend, readByte_of (mem_finish _), hvin _ a ha, hlisten _ a ha, hresume _ a ha, hpins _ _ a ha, hready _ a ha]

/-- A package in stage FW whose configuration slot A holds one setting, the word 1 for the first increment of the capture window: TOTAL_LEN
of the image, then the payload with N_SET 1, the offset, the value and its padding (R194, R624, R626). -/
def settingOfIncrement : State :=
  { State.reset with clk := { State.reset.clk with started := true } } |> put R.BOOT_STAT.STAGE 4 |> put R.BOOT_STAT.CFG_SLOT 0
    |> writeWord32 (flashArea (slotBase 1 0 + 0x08)) 272 |> writeWords (flashArea (slotBase 1 0 + 160)) [0x10000, 0x3F0000, 1, 0]

/-- Firmware accepts that setting and stores its value in the capture window, where 0 stood. -/
theorem applyConfig_settingOfIncrement : (applyConfig settingOfIncrement).2 = true ∧
    readByte settingOfIncrement (sharedArea 0x3F0000) = 0 ∧ readByte (applyConfig settingOfIncrement).1 (sharedArea 0x3F0000) = 1 := by
  decide +kernel

/-- Refutes O56 in its last clause: the end of stage FW applies the settings of the configuration image as writes of the firmware port,
and one of them may be an increment word of the loop-capture window, which is no byte of SRAM. -/
theorem not_storesStayInTheirWindows : ¬ Obligations.StoresStayInTheirWindows := by
  unfold Obligations.StoresStayInTheirWindows
  rintro ⟨-, -, -, -, -, -, -, -, -, -, -, -, -, -, -, -, -, -, hboot⟩
  obtain ⟨hok, hbefore, hafter⟩ := applyConfig_settingOfIncrement
  have hstage : Booting settingOfIncrement 4 := ⟨by decide +kernel, rfl⟩
  have hstays := hboot settingOfIncrement _ rfl (sharedArea 0x3F0000) (by decide) (.inl (by decide))
  rw [readByte_bootStageEnd_configured hstage rfl hok (by decide), hbefore, hafter] at hstays
  exact absurd hstays (by decide)

end Sys2Proof.Machine

/-! What a step of the estimator for one die leaves of the others (R206 to R255). -/

namespace Sys2Proof.Machine

/-- A step for each element of a list without repetition is, between what the steps for the others change, the step for one of them. -/
theorem each_own {α : Type} {R : State → State → Prop} (hrefl : ∀ s, R s s) (htrans : ∀ s t u, R s t → R t u → R s u)
    {f : α → State → State} {l : List α} {x : α} (hx : x ∈ l) (hl : l.Nodup) (hother : ∀ y ∈ l, y ≠ x → ∀ u, R u (f y u)) (s : State) :
    ∃ u, R s u ∧ R (f x u) (each l f s) :=
  each_hits (I := R s) (P := fun w => ∃ u, R s u ∧ R (f x u) w) hx hl (fun y hy hne u h => htrans _ _ _ h (hother y hy hne u))
    (fun u h => ⟨u, h, hrefl _⟩) (fun y hy hne w ⟨u, h, k⟩ => ⟨u, h, htrans _ _ _ k (hother y hy hne w)⟩) (hrefl s)

theorem mem_dies {s : State} {d : Nat} (h : isPresent s d = true) : d ∈ dies s := List.mem_range.2 (of_decide_eq_true h)

theorem lt_of_mem_dies {s : State} {d : Nat} (h : d ∈ dies s) : d < 16 := lt_of_lt_of_le (List.mem_range.1 h) (Nat.min_le_left _ _)

theorem lt_of_present {s : State} {d : Nat} (h : isPresent s d = true) : d < 16 := lt_of_mem_dies (mem_dies h)

theorem nodup_dies (s : State) : (dies s).Nodup := List.nodup_range

theorem mem_bitList {n v i : Nat} : i ∈ bitList n v ↔ i < n ∧ bit v i = true := by simp [bitList]

theorem nodup_bitList (n v : Nat) : (bitList n v).Nodup := List.nodup_range.filter _

/-- A register of the estimator's window of die d (R254). -/
def InEst (d : Nat) (g : Field) : Prop := 0x061000 * 32 + 4096 * d ≤ g.off * 32 + g.lo ∧ g.off * 32 + g.lo < 0x061000 * 32 + 4096 * (d + 1)

/-- A register that no step of the estimator for another die than d reaches: a setting, one of die d's, or one of another unit. -/
def SparedBy (d : Nat) (g : Field) : Prop :=
  InEst d g ∨ g.off * 32 + g.lo < 0x060018 * 32 ∨ 0x062000 * 32 ≤ g.off * 32 + g.lo ∧ g.off * 32 + g.lo < 2 ^ 27

section

variable {d e : Nat} {f g : Field}

theorem SparedBy.ne (h : SparedBy d g) (hd : d < 16) (he : e < 16) (hne : e ≠ d) (hf : InEst e f) : fieldKey f ≠ fieldKey g := by
  simp only [SparedBy, InEst] at h hf
  exact key_ne_of_lt (by omega) (by omega) (by omega)

theorem SparedBy.event_ne (h : SparedBy d g) (hd : d < 16) : fieldKey R.EST_EVENT ≠ fieldKey g := by
  simp only [SparedBy, InEst] at h
  exact key_ne_of_lt (by decide) (by omega) (by simp only [R.EST_EVENT]; omega)

theorem free_reg2_own {f : Nat → Nat → Field} : (Print.reg2 f (some e) none).Free g ↔ ∀ k, fieldKey (f e k) ≠ fieldKey g :=
  Print.free_reg2.trans ⟨fun h k => h e k Names.one Names.any, fun h _ k hi _ => Option.some.inj (hi.resolve_left nofun) ▸ h k⟩

theorem free_reg2_one {f : Nat → Nat → Field} {k : Nat} : (Print.reg2 f (some e) (some k)).Free g ↔ fieldKey (f e k) ≠ fieldKey g := by
  simp [Print.free_reg2, Names]

theorem free_activate (h : SparedBy d g) (hd : d < 16) (he : e < 16) (hne : e ≠ d) : (fp_activate (some e)).Free g := by
  simp only [fp_activate, Print.free_cons, Print.free_nil, free_reg1_some, Print.free_row, and_true, true_and]
  repeat' apply And.intro
  all_goals
    refine h.ne hd he hne ?_
    simp only [InEst, R.EST_DIE_MODEL.ID, R.EST_DIE_MVER.VER, R.EST_DIE_SIZE.N_IN, R.EST_DIE_SIZE.N_HID, R.EST_DIE_SIZE.N_OUT]
    omega

theorem free_publishEstimate (h : SparedBy d g) (hd : d < 16) (he : e < 16) (hne : e ≠ d) : (fp_publishEstimate (some e)).Free g := by
  have hevent : fieldKey R.EST_EVENT ≠ fieldKey g := h.event_ne hd
  simp only [fp_publishEstimate, fp_judgeFrame, fp_measuredOutputs, fp_modelOutputs, fp_showTrim, fp_nextDue, fp_spoilTrim,
    Print.free_cons, Print.free_nil, Print.free_reg, free_reg1_some, free_reg2_own, free_reg2_one, Print.free_prt, Print.free_row, hevent,
    ne_eq, not_false_eq_true, and_true, true_and]
  repeat' apply And.intro
  all_goals
    intros
    refine h.ne hd he hne ?_
    simp only [InEst, R.EST_DIE_STAT.SUBST, R.EST_DIE_TIN.TCORE, R.EST_DIE_TIN.TMEM, R.EST_DIE_VIN.VCORE, R.EST_DIE_VIN.VMEM,
      R.EST_DIE_VIN2.VLINK, R.EST_DIE_TS.TIME, R.EST_DIE_STAT.PREV_VALID, R.EST_DIE_CNT.LATE, R.EST_OUT.I, R.EST_RAW.I, R.EST_LEAK.I,
      R.EST_GAIN.GAIN, R.EST_OFS.OFS, R.EST_DIE_CNT.SKIP, R.EST_DIE_STAT.TRIM_HOLD]
    omega

theorem free_switchDie (h : SparedBy d g) (hd : d < 16) (he : e < 16) (hne : e ≠ d) : (fp_switchDie (some e)).Free g := by
  simp only [fp_switchDie, Print.free_cons, Print.free_nil, free_reg1_some, Print.free_row, and_true, true_and]
  refine ⟨h.ne hd he hne ?_, h.ne hd he hne ?_⟩ <;> simp only [InEst, R.EST_DIE_STAT.ACTIVE, R.EST_DIE_STAT.PREV_VALID] <;> omega

end

/-- From s to t what die d's estimate is formed of, and what it shows, is as before. -/
structure DieStays (d : Nat) (s t : State) : Prop where
  est : estOf t d = estOf s d
  tok : tokOf t d = tokOf s d
  link : linkOf t d = linkOf s d
  boot : t.boot = s.boot
  rails : t.rails = s.rails
  us : t.us = s.us
  clk : t.clk = s.clk
  regs : ∀ g, SparedBy d g → get t g = get s g

namespace DieStays

variable {d e : Nat} {s t u : State}

theorem refl (d : Nat) (s : State) : DieStays d s s := ⟨rfl, rfl, rfl, rfl, rfl, rfl, rfl, fun _ _ => rfl⟩

theorem trans (h : DieStays d s t) (k : DieStays d t u) : DieStays d s u :=
  ⟨k.est.trans h.est, k.tok.trans h.tok, k.link.trans h.link, k.boot.trans h.boot, k.rails.trans h.rails, k.us.trans h.us,
    k.clk.trans h.clk, fun g hg => (k.regs g hg).trans (h.regs g hg)⟩

/-- A footprint without die d's rows, and with none of its registers. -/
theorem within {p : Print} (h : Within p s t)
    (hcells : ∀ c ∈ p.cells, c ≠ .est d ∧ c ≠ .tok d ∧ c ≠ .link d ∧ ∀ q ∈ [Part.boot, .rails, .us, .clk], c.part ≠ q)
    (hparts : ∀ q ∈ [Part.estd, .tok, .links, .boot, .rails, .us, .clk], q ∉ p.parts) (hregs : ∀ g, SparedBy d g → p.Free g) :
    DieStays d s t := by
  have hrow : ∀ c ∈ [Cell.est d, .tok d, .link d], c ∉ p.cells := fun c hc m => by
    obtain ⟨hest, htok, hlink, -⟩ := hcells c m
    simp [hest, htok, hlink] at hc
  have hpart : ∀ q ∈ [Part.boot, .rails, .us, .clk], q ∉ p.parts → q.same s t := fun q hq hp => h.parts q hp fun c hc => by
    obtain ⟨-, -, -, hunit⟩ := hcells c hc
    exact hunit q hq
  exact ⟨h.cells (.est d) (hrow _ (by simp)) (hparts .estd (by decide)), h.cells (.tok d) (hrow _ (by simp)) (hparts .tok (by decide)),
    h.cells (.link d) (hrow _ (by simp)) (hparts .links (by decide)), hpart .boot (by decide) (hparts _ (by decide)),
    hpart .rails (by decide) (hparts _ (by decide)), hpart .us (by decide) (hparts _ (by decide)),
    hpart .clk (by decide) (hparts _ (by decide)), fun g hg => h.get (hregs g hg)⟩

theorem nDies (h : DieStays d s t) : nDies t = nDies s := by
  rw [Machine.nDies, Machine.nDies, h.regs R.GOV_CFG.N_DIES (.inr (.inl (by decide)))]

theorem dieInReset (h : DieStays d s t) : dieInReset t d = dieInReset s d := by
  rw [Machine.dieInReset, Machine.dieInReset, h.boot, h.link]

theorem now (h : DieStays d s t) : now t = now s := h.regs R.CLK_TIME.COUNT (.inr (.inl (by decide)))

theorem irail (h : DieStays d s t) (r : Nat) : irail t r = irail s r := by rw [Machine.irail, Machine.irail, railOf_of h.rails]

/-! The steps of the estimator for another die. -/

theorem takeTurn (hd : d < 16) (he : e < 16) (hne : e ≠ d) (s : State) : DieStays d s (takeTurn e s) := by
  refine within (foot_takeTurn (Names.one (d := e)) (Print.Sub.refl _) (Within.refl _ s)) ?_ ?_ fun g hg => ?_
  · simp [fp_takeTurn, fp_activate, fp_setLinkOld, Print.join, Print.row, Print.reg1, Print.prt, Cell.part, hne]
  · simp [fp_takeTurn, fp_activate, fp_setLinkOld, Print.join, Print.row, Print.reg1, Print.prt]
  · simp only [fp_takeTurn, fp_setLinkOld, Print.free_cons, Print.free_nil, Print.free_prt, Print.free_row, and_true, true_and]
    exact free_activate hg hd he hne

theorem publishEstimate (hd : d < 16) (he : e < 16) (hne : e ≠ d) (s : State) : DieStays d s (publishEstimate e s) := by
  refine within (foot_publishEstimate (Names.one (d := e)) (Print.Sub.refl _) (Within.refl _ s)) ?_ ?_ fun g hg => free_publishEstimate hg hd he hne
  · simp [fp_publishEstimate, fp_judgeFrame, fp_measuredOutputs, fp_modelOutputs, fp_showTrim, fp_nextDue, fp_spoilTrim, Print.join, Print.row,
      Print.reg, Print.reg1, Print.reg2, Print.prt, Cell.part, hne]
  · simp [fp_publishEstimate, fp_judgeFrame, fp_measuredOutputs, fp_modelOutputs, fp_showTrim, fp_nextDue, fp_spoilTrim, Print.join, Print.row,
      Print.reg, Print.reg1, Print.reg2, Print.prt]

theorem switchDie (hd : d < 16) (he : e < 16) (hne : e ≠ d) (s : State) : DieStays d s (switchDie e s) := by
  refine within (foot_switchDie (Names.one (d := e)) (Print.Sub.refl _) (Within.refl _ s)) ?_ ?_ fun g hg => free_switchDie hg hd he hne
  · simp [fp_switchDie, Print.join, Print.row, Print.reg1, Cell.part, hne]
  · simp [fp_switchDie, Print.join, Print.row, Print.reg1]

theorem setEst (hne : e ≠ d) (v : EstD) (s : State) : DieStays d s (setEst e v s) :=
  ⟨sget_sset_ne _ _ _ hne _, rfl, rfl, rfl, rfl, rfl, rfl, fun _ _ => rfl⟩

theorem setTok (hne : e ≠ d) (v : TokD) (s : State) : DieStays d s (setTok e v s) :=
  ⟨rfl, sget_sset_ne _ _ _ hne _, rfl, rfl, rfl, rfl, rfl, fun _ _ => rfl⟩

theorem when {f : State → State} (hf : ∀ u, DieStays d u (f u)) (c : Bool) (s : State) : DieStays d s (when c f s) := by
  cases c
  · exact refl d s
  · exact hf s

theorem trimDie (hd : d < 16) (hne : e ≠ d) (s : State) : DieStays d s (trimDie e s) := by
  refine within (foot_trimDie (Names.one (d := e)) (Print.Sub.refl _) (Within.refl _ s)) ?_ ?_ fun g hg => ?_
  · simp [fp_trimDie, fp_trimEvents, Print.join, Print.row, Print.reg, Cell.part, hne]
  · simp [fp_trimDie, fp_trimEvents, Print.join, Print.row, Print.reg]
  · simp only [fp_trimDie, fp_trimEvents, Print.free_cons, Print.free_nil, Print.free_reg, Print.free_row, and_true, true_and]
    exact hg.event_ne hd

/-- A step of the estimator for every die of a list is, between what the others' steps change, the step for one of them. -/
theorem each (f : Nat → State → State) {l : List Nat} (hmem : d ∈ l) (hl : l.Nodup) (hother : ∀ e ∈ l, e ≠ d → ∀ u, DieStays d u (f e u))
    (s : State) : ∃ u, DieStays d s u ∧ DieStays d (f d u) (Machine.each l f s) :=
  each_own (refl d) (fun _ _ _ => trans) hmem hl hother s

end DieStays

end Sys2Proof.Machine

/-! COUNTER_LATCH, FIRST_LAYER_DONE and ESTIMATE_FRAME: the window ends, its hidden outputs go up and arrive (R207 to R213, R220, R223, R662). -/

namespace Sys2Proof.Machine

section

variable {s t : State} {d e : Nat}

theorem estOf_finish (s : State) (d : Nat) : estOf (finish s) d = estOf s d :=
  estOf_of ((Within.finish s).parts .estd (by decide) (by decide)) d

/-- What the end of a window makes of one die (R207, R208, R210, R271). -/
def windowLatched (counts : List (Nat × Nat × Nat)) (d : Nat) (s : State) : State :=
  s |> latchTokens d |> countWindow d |> when (!dieInReset s d) (latchWindow counts d)

theorem effCounterLatch_eq (h : s.clk.started = true) (counts : List (Nat × Nat × Nat)) :
    effCounterLatch counts s = each (dies s) (windowLatched counts) s := if_pos h

theorem DieStays.windowLatched (hne : e ≠ d) (counts : List (Nat × Nat × Nat)) (s : State) : DieStays d s (windowLatched counts e s) :=
  (DieStays.setTok hne _ s).trans ((DieStays.setEst hne _ _).trans (.when (fun u => .setEst hne _ u) _ _))

/-- The counters of a die out of reset at the end of its window: the one that moved is taken, the others did not move (R207, R208). -/
theorem estOf_windowLatched (hreset : dieInReset s d = false) {k : Nat} (hk : k < 4096) (v : Nat) : ∃ at_ ps long,
    estOf (windowLatched [(d, k, v)] d s) d = { estOf s d with
      cnt := sset 0 k (v % 2 ^ 32) (estOf s d).cnt, first := false, latched := true, window := (estOf s d).window + 1, latchAt := at_,
      prev := if (estOf s d).first then sset 0 k (v % 2 ^ 32) (estOf s d).cnt else (estOf s d).cnt, winPs := ps, long := long } := by
  have hcounts : [(d, k, v)].filter (fun c => c.1 = d && c.2.1 < 4096) = [(d, k, v)] := by simp [hk]
  refine ⟨now (latchTokens d s), 0,
    decide (750000 < if (estOf s d).winPs = 0 then cyclePs (countWindow d (latchTokens d s)) else (estOf s d).winPs), ?_⟩
  simp only [windowLatched, hreset, Bool.not_false, when_true, latchWindow, hcounts, List.foldl_cons, List.foldl_nil, countWindow, estOf_setEst]
  rfl

/-- The sums of tokens of its last window, which are published with the next estimate (R271). -/
theorem tokOf_windowLatched (counts : List (Nat × Nat × Nat)) : ∃ tot last, tokOf (windowLatched counts d s) d = { tokOf s d with
    pub := (tokOf s d).win, win := ((tokOf s d).usedSum, (tokOf s d).reports), tot := tot, usedSum := 0, totalSum := 0, reports := 0,
    winLast := last } := by
  have htok : tokOf (windowLatched counts d s) d = tokOf (latchTokens d s) d := by
    unfold windowLatched
    cases dieInReset s d <;> rfl
  rw [htok, latchTokens, tokOf_setTok]
  exact ⟨_, _, rfl⟩

/-- COUNTER_LATCH takes the counters of a die and the tokens of its window (R207, R208, R271). -/
theorem counterLatch_latches (hstart : s.clk.started = true) (hd : isPresent s d = true) (hreset : dieInReset s d = false) {k : Nat}
    (hk : k < 4096) (v : Nat) :
    ∃ t, exec (.counterLatch [(d, k, v)]) s = .next t ∧ sget 0 k (estOf t d).cnt = v % 2 ^ 32 ∧ (estOf t d).latched = true ∧
      (estOf t d).first = false ∧ (estOf t d).prev = (if (estOf s d).first then (estOf t d).cnt else (estOf s d).cnt) ∧
      (estOf t d).window = (estOf s d).window + 1 ∧
      (tokOf t d).pub = (tokOf s d).win ∧ (tokOf t d).win = ((tokOf s d).usedSum, (tokOf s d).reports) ∧ (tokOf t d).reports = 0 := by
  obtain ⟨u, hbefore, hafter⟩ := DieStays.each (windowLatched [(d, k, v)]) (mem_dies hd) (nodup_dies s)
    (fun e _ hne u => .windowLatched hne _ u) s
  obtain ⟨at_, ps, long, hest⟩ := estOf_windowLatched (hbefore.dieInReset.trans hreset) hk v
  obtain ⟨tot, last, htok⟩ := tokOf_windowLatched (s := u) (d := d) [(d, k, v)]
  rw [← hafter.est, hbefore.est] at hest
  rw [← hafter.tok, hbefore.tok] at htok
  refine ⟨_, congrArg done (effCounterLatch_eq hstart _), ?_⟩
  rw [estOf_finish, tokOf_finish, hest, htok]
  exact ⟨sget_sset_self .., rfl, rfl, rfl, rfl, rfl, rfl, rfl⟩

/-- FIRST_LAYER_DONE forms the hidden outputs and sends them up (R211 to R213, R220). -/
theorem firstLayerDone_sends (hd : isPresent s d = true) (hreset : dieInReset s d = false)
    (hactive : isOn s (R.EST_DIE_STAT.ACTIVE d) = true) (hlatched : (estOf s d).latched = true) :
    ∃ t, exec (.firstLayerDone d) s = .next t ∧ (estOf t d).hidden = firstLayer (model s d) (inputCodes s d (model s d)) ∧
      (estOf t d).latched = false ∧ ((linkOf s d).lost = false → Out.estimate d (estOf t d).hidden ∈ t.out ∧
        Out.frame d (frameOf tyESTIMATE (nextSent true s d) (estOf t d).hidden) ∈ t.out) := by
  let h := firstLayer (model s d) (inputCodes s d (model s d))
  let u := setEst d { estOf s d with hidden := h, latched := false } s
  have heff : effFirstLayerDone d s = sendMsg true d ⟨tyESTIMATE, h, .estimate d h⟩ u := by
    simp [effFirstLayerDone, hd, hreset, hactive, hlatched, u, h]
  have hest : estOf (finish (effFirstLayerDone d s)) d = { estOf s d with hidden := h, latched := false } := by
    have hsent := foot_sendMsg (up := true) (d := d) (m := ⟨tyESTIMATE, h, .estimate d h⟩) Names.any (Print.Sub.refl _) (Within.refl _ u)
    rw [estOf_finish, heff, estOf_of (hsent.parts .estd (by decide) (by decide)), estOf_setEst]
  refine ⟨_, rfl, ?_⟩
  rw [hest, out_finish, heff]
  refine ⟨rfl, rfl, fun hlost => ?_⟩
  have htrained : (linkOf s d).trained = true := by
    simp only [dieInReset, Bool.or_eq_false_iff, Bool.not_eq_false'] at hreset
    exact hreset.2
  have hup : linkUp u d = true := by
    rw [linkUp, linkOf_of (setEst_links ..), htrained, hlost]
    rfl
  refine ⟨mem_out_sendMsg hup, ?_⟩
  rw [sendMsg, if_pos hup]
  exact out_subset_emit _ _ (mem_out_emit ..)

/-- ESTIMATE_FRAME: an accepted frame reaches the core, and its number is remembered (R37, R213, R662). -/
theorem estimateFrame_accepted {fr : Frame} (h : Accepts s true tyESTIMATE d fr) (w : Nat) :
    ∃ t, exec (.estimateFrame d fr w) s = .next t ∧ (linkOf t d).upSeq = some (frameSeq fr.bytes) ∧
      estOf t d = if (framePayload fr.bytes).length = 64 ∧ w = (estOf s d).due
        then { estOf s d with hCore := framePayload fr.bytes, inTime := true } else estOf s d := by
  have hest : ∀ v, estOf (setLink d v s) d = estOf s d := fun _ => rfl
  refine ⟨_, rfl, ?_⟩
  rw [linkOf_finish, estOf_finish, acceptFrame_of_accepts h, takeEstimate, hest]
  by_cases hnow : (framePayload fr.bytes).length = 64 ∧ w = (estOf s d).due
  · simp only [hnow, and_self, if_true, estOf_setEst, and_true]
    exact congrArg LinkD.upSeq (linkOf_setLink ..)
  · simp only [hnow, if_false, hest, and_true]
    exact congrArg LinkD.upSeq (linkOf_setLink ..)

end

end Sys2Proof.Machine

/-! SECOND_STAGE: what follows the publications, and what a publication shows after its outputs (R222 to R226, R255). -/

namespace Sys2Proof.Machine

/-! Registers that are written one after the other. -/

/-- Values put into fields, in order. -/
def putAll (l : List (Field × Nat)) (s : State) : State := each l (fun e => put e.1 e.2) s

theorem get_putAll_ne {l : List (Field × Nat)} {g : Field} (h : ∀ f ∈ l.map Prod.fst, fieldKey f ≠ fieldKey g) (s : State) :
    get (putAll l s) g = get s g :=
  each_induct (P := fun u => get u g = get s g) (fun _ he u hu => (get_put_ne (h _ (List.mem_map_of_mem he)) _ u).trans hu) rfl

/-- Fields of different places read as they were put. -/
theorem get_putAll {l : List (Field × Nat)} (hl : (l.map Prod.fst).Pairwise fun f g => fieldKey g ≠ fieldKey f) {e : Field × Nat} (he : e ∈ l)
    (hf : e.1.cls ≠ Ret.fuse) (s : State) : get (putAll l s) e.1 = e.2 % 2 ^ e.1.w := by
  induction l generalizing s with
  | nil => exact absurd he List.not_mem_nil
  | cons x l ih =>
    obtain ⟨hx, hl⟩ := List.pairwise_cons.1 hl
    rcases List.mem_cons.1 he with rfl | he
    · exact (get_putAll_ne hx _).trans (get_put_self hf _ s)
    · exact ih hl he _

theorem estd_putAll (l : List (Field × Nat)) (s : State) : (putAll l s).estd = s.estd :=
  each_keeps (f := fun e : Field × Nat => put e.1 e.2) (φ := State.estd) (fun e u => put_estd e.1 e.2 u) l s

theorem estp_putAll (l : List (Field × Nat)) (s : State) : (putAll l s).estp = s.estp :=
  each_keeps (f := fun e : Field × Nat => put e.1 e.2) (φ := State.estp) (fun e u => put_estp e.1 e.2 u) l s

section

variable {s t u : State} {d e : Nat} {g : Field}

/-- The core's work on the cycle reaches no register of the estimator (R271, R335 to R337, R350, R351, R376). -/
theorem free_powerCycle (hlo : 0x060000 * 32 ≤ g.off * 32 + g.lo) (hhi : g.off * 32 + g.lo < 0x062000 * 32) : fp_powerCycle.Free g := by
  simp only [fp_powerCycle, fp_diePower, fp_linkPower, fp_packagePower, fp_energyCycle, fp_energyDie, fp_chargeDie, fp_baseCurrent, fp_drawn,
    fp_shareCycle, fp_sendBudget, fp_sendDown, fp_sendMsg, fp_sendFrame, Print.free_cons, Print.free_nil,
    Print.free_reg, free_reg1_none, Print.free_prt, Print.free_row, and_true, true_and]
  repeat' apply And.intro
  all_goals
    intros
    refine key_ne_of_lt ?_ (by omega) ?_ <;>
      simp only [R.CAP_DIE_P.P, R.CAP_PKG_P.P, R.CAP_E_PART.ENERGY, R.CAP_E_SYS.ENERGY, R.CAP_DIE_BUD.BUDGET, R.CAP_DIE_BUD.BIND] <;> omega

/-- What comes after the publications of a cycle. -/
def cycleEnded (s : State) : State := s |> countLink |> powerCycle |> finish

theorem get_cycleEnded (hlo : 0x060000 * 32 ≤ g.off * 32 + g.lo) (hhi : g.off * 32 + g.lo < 0x062000 * 32) (s : State) :
    get (cycleEnded s) g = get s g := by
  have hcount : get (countLink s) g = get s g := by
    unfold countLink
    dsimp only
    split <;> rfl
  rw [cycleEnded, get_finish (key_ne_of_lt (by decide) (by omega) (by simp only [R.REC_LOST.COUNT]; omega))
    (key_ne_of_lt (by decide) (by omega) (by simp only [R.REC_EVENT]; omega)),
    (foot_powerCycle (Print.Sub.refl _) (Within.refl _ (countLink s))).get (free_powerCycle hlo hhi), hcount]

theorem estOf_cycleEnded (s : State) (d : Nat) : estOf (cycleEnded s) d = estOf s d := by
  have hcount : (countLink s).estd = s.estd := by
    unfold countLink
    dsimp only
    split <;> rfl
  rw [cycleEnded, estOf_finish, estOf_of ((foot_powerCycle (Print.Sub.refl _) (Within.refl _ _)).parts .estd (by decide) (by decide)),
    estOf_of hcount]

/-- SECOND_STAGE once the clock runs: the dies' turns are taken, then the dies published. -/
theorem secondStage_eq (h : s.clk.started = true) :
    exec .secondStage s = .next (cycleEnded (each (dies s) publishEstimate (each (dies s) takeTurn s))) := by
  have heff : effSecondStage s = powerCycle (countLink (each (dies s) publishEstimate (each (dies s) takeTurn s))) := by
    simp [effSecondStage, h]
  exact congrArg done heff

/-! A publication in its parts. -/

/-- The inputs of the estimate, whether it was substituted, when it was and whether the other bank holds a model, as the publication that
judged the frame in z shows them (R254, R255). -/
def shownInputs (d : Nat) (z : State) (tc tm : Int) (vc vm vl : Nat) : List (Field × Nat) :=
  [(R.EST_DIE_STAT.SUBST d, b2n (substituted z d)), (R.EST_DIE_TIN.TCORE d, ofSigned 16 tc), (R.EST_DIE_TIN.TMEM d, ofSigned 16 tm),
   (R.EST_DIE_VIN.VCORE d, vc), (R.EST_DIE_VIN.VMEM d, vm), (R.EST_DIE_VIN2.VLINK d, vl), (R.EST_DIE_TS.TIME d, now z),
   (R.EST_DIE_STAT.PREV_VALID d, b2n (otherBank z d))]

/-- The registers of die d that show them, and those that show its trim. -/
def inputFields (d : Nat) : List Field :=
  [R.EST_DIE_STAT.SUBST d, R.EST_DIE_TIN.TCORE d, R.EST_DIE_TIN.TMEM d, R.EST_DIE_VIN.VCORE d, R.EST_DIE_VIN.VMEM d, R.EST_DIE_VIN2.VLINK d,
   R.EST_DIE_TS.TIME d, R.EST_DIE_STAT.PREV_VALID d]
def trimFields (d : Nat) : List Field := [R.EST_DIE_CNT.SKIP d, R.EST_DIE_STAT.TRIM_HOLD d]

theorem pairwise_inputFields : ∀ d < 16, (inputFields d).Pairwise fun f g => fieldKey g ≠ fieldKey f := by decide

theorem apart_trimFields : ∀ d < 16, ∀ f ∈ inputFields d, ∀ g ∈ trimFields d, fieldKey f ≠ fieldKey g ∧ fieldKey g ≠ fieldKey f := by decide

/-- The part of a publication that comes after the outputs. -/
def estimateShown (d : Nat) (l : List (Field × Nat)) (s : State) : State := s |> putAll l |> showTrim d |> nextDue d

/-- The outputs, substituted or not (R214, R225). -/
def outputsFormed (d : Nat) (tc tm : Int) (vc vm vl : Nat) (s : State) : State :=
  (if substituted s d then measuredOutputs d else modelOutputs d tc tm vc vm vl) s

theorem publishEstimate_eq (d : Nat) (s : State) : ∃ tc tm vc vm vl, publishEstimate d s =
    estimateShown d (shownInputs d (judgeFrame d s) tc tm vc vm vl) (outputsFormed d tc tm vc vm vl (judgeFrame d s)) := by
  unfold publishEstimate estimateShown outputsFormed shownInputs putAll putB putI
  exact ⟨_, _, _, _, _, rfl⟩

section

variable {z : State} {tc tm : Int} {vc vm vl : Nat} {l : List (Field × Nat)}

theorem get_nextDue (d : Nat) (s : State) (g : Field) : get (nextDue d s) g = get s g := get_setEst ..

theorem get_showTrim_ne (h : ∀ f ∈ trimFields d, fieldKey f ≠ fieldKey g) : get (showTrim d s) g = get s g := by
  unfold showTrim putB addSat
  rw [get_setEst, get_put_ne (h _ (.tail _ (.head _))), get_put_ne (h _ (.head _))]

theorem get_estimateShown_ne (hl : l.map Prod.fst = inputFields d) (h : ∀ f ∈ inputFields d ++ trimFields d, fieldKey f ≠ fieldKey g) :
    get (estimateShown d l s) g = get s g := by
  rw [estimateShown, get_nextDue, get_showTrim_ne fun f hf => h f (List.mem_append_right _ hf),
    get_putAll_ne fun f hf => h f (List.mem_append_left _ (hl ▸ hf))]

theorem estOf_estimateShown : ∃ due, estOf (estimateShown d l s) d = { estOf s d with skips := 0, due := due } := by
  have hall : estOf (putAll l s) d = estOf s d := estOf_of (estd_putAll l s) d
  refine ⟨min ((estOf s d).window + 1) (max ((estOf s d).due + 1) (estOf s d).window), ?_⟩
  unfold estimateShown showTrim nextDue putB addSat
  simp only [estOf_setEst, hall]

/-- What is shown of the inputs reads as it was put. -/
theorem get_estimateShown_input (hd : d < 16) (hl : l.map Prod.fst = inputFields d) {e : Field × Nat} (he : e ∈ l) (hf : e.1.cls ≠ Ret.fuse) :
    get (estimateShown d l s) e.1 = e.2 % 2 ^ e.1.w := by
  rw [estimateShown, get_nextDue, get_showTrim_ne fun g hg => (apart_trimFields d hd _ (hl ▸ List.mem_map_of_mem he) g hg).2,
    get_putAll (hl ▸ pairwise_inputFields d hd) he hf]

/-- What is shown of the trim of the last window (R232, R255). -/
theorem get_estimateShown_trim (hd : d < 16) (hl : l.map Prod.fst = inputFields d) :
    get (estimateShown d l s) (R.EST_DIE_STAT.TRIM_HOLD d) = b2n (estOf s d).hold ∧
      get (estimateShown d l s) (R.EST_DIE_CNT.SKIP d) = min 65535 (get s (R.EST_DIE_CNT.SKIP d) + (estOf s d).skips) := by
  have hbit : ∀ b, b2n b % 2 ^ 1 = b2n b := by decide
  have hall : estOf (putAll l s) d = estOf s d := estOf_of (estd_putAll l s) d
  have hskip : get (putAll l s) (R.EST_DIE_CNT.SKIP d) = get s (R.EST_DIE_CNT.SKIP d) :=
    get_putAll_ne (fun f hf => (apart_trimFields d hd f (hl ▸ hf) _ (.head _)).1) s
  have hne : fieldKey (R.EST_DIE_STAT.TRIM_HOLD d) ≠ fieldKey (R.EST_DIE_CNT.SKIP d) :=
    key_ne (by simp only [R.EST_DIE_STAT.TRIM_HOLD, R.EST_DIE_CNT.SKIP]; omega)
  rw [estimateShown, get_nextDue, get_nextDue, showTrim, putB, get_setEst, get_setEst, get_put_self (by nofun), get_put_ne hne,
    get_addSat_self (by nofun), hall, hskip]
  exact ⟨hbit _, rfl⟩

end

end

end Sys2Proof.Machine

/-! A publication in its parts: the frame judged, the outputs formed (R214, R218, R223, R225). -/

namespace Sys2Proof.Machine

section

variable {s t u : State} {d : Nat} {g : Field}

/-! The frame of the window (R223). -/

theorem judgeFrame_idle (h : (estOf s d).coreOn = false ∨ dieInReset s d = true) : judgeFrame d s = s :=
  if_pos (h.imp_left fun hoff => by simp [hoff])

theorem judgeFrame_inTime (hon : (estOf s d).coreOn = true) (hreset : dieInReset s d = false) (htime : (estOf s d).inTime = true) :
    judgeFrame d s = setEst d { estOf s d with inTime := false, lateRun := 0, stale := false } s := by
  simp [judgeFrame, hon, hreset, htime]

theorem judgeFrame_late (hon : (estOf s d).coreOn = true) (hreset : dieInReset s d = false) (htime : (estOf s d).inTime = false) :
    judgeFrame d s = (s |> setEst d { estOf s d with lateRun := min 4 ((estOf s d).lateRun + 1),
                                                     stale := (estOf s d).stale || decide (min 4 ((estOf s d).lateRun + 1) = 4) }
      |> spoilTrim d |> addSat (R.EST_DIE_CNT.LATE d) 1 |> event R.EST_EVENT 6) := by
  simp [judgeFrame, hon, hreset, htime]

theorem judgeFrame_cases (d : Nat) (s : State) : judgeFrame d s = s ∨
    judgeFrame d s = setEst d { estOf s d with inTime := false, lateRun := 0, stale := false } s ∨
    ∃ run stale, judgeFrame d s = (s |> setEst d { estOf s d with lateRun := run, stale := stale } |> spoilTrim d |>
      addSat (R.EST_DIE_CNT.LATE d) 1 |> event R.EST_EVENT 6) := by
  by_cases hidle : (estOf s d).coreOn = false ∨ dieInReset s d = true
  · exact .inl (judgeFrame_idle hidle)
  · obtain ⟨hon, hreset⟩ := not_or.1 hidle
    rw [Bool.not_eq_false] at hon
    rw [Bool.not_eq_true] at hreset
    cases htime : (estOf s d).inTime
    · exact .inr (.inr ⟨_, _, judgeFrame_late hon hreset htime⟩)
    · exact .inr (.inl (judgeFrame_inTime hon hreset htime))

theorem estOf_spoilTrim : ∃ p q, estOf (spoilTrim d s) d = { estOf s d with pair0 := p, pair1 := q } :=
  ⟨_, _, estOf_setEst d _ s⟩

theorem lateRun_spoilTrim : (estOf (spoilTrim d s) d).lateRun = (estOf s d).lateRun := by
  obtain ⟨p, q, h⟩ := estOf_spoilTrim (d := d) (s := s)
  rw [h]

theorem get_spoilTrim : get (spoilTrim d s) g = get s g := rfl

theorem estOf_lateCounted (d : Nat) (s : State) :
    estOf (event R.EST_EVENT 6 (addSat (R.EST_DIE_CNT.LATE d) 1 s)) d = estOf s d :=
  (estOf_of (put_estd ..) d).trans (estOf_of (put_estd ..) d)

/-- The judging of a frame changes the standing of the die's frames, and spoils its trim window. -/
theorem estOf_judgeFrame : ∃ time run stale p q, estOf (judgeFrame d s) d =
    { estOf s d with inTime := time, lateRun := run, stale := stale, pair0 := p, pair1 := q } := by
  obtain h | h | ⟨run, stale, h⟩ := judgeFrame_cases d s <;> rw [h]
  · exact ⟨_, _, _, _, _, rfl⟩
  · exact ⟨_, _, _, _, _, estOf_setEst ..⟩
  · obtain ⟨p, q, hest⟩ := estOf_spoilTrim (d := d) (s := setEst d { estOf s d with lateRun := run, stale := stale } s)
    rw [estOf_lateCounted, hest, estOf_setEst]
    exact ⟨_, _, _, _, _, rfl⟩

theorem get_judgeFrame (hlate : fieldKey (R.EST_DIE_CNT.LATE d) ≠ fieldKey g) (hevent : fieldKey R.EST_EVENT ≠ fieldKey g) :
    get (judgeFrame d s) g = get s g := by
  obtain h | h | ⟨run, stale, h⟩ := judgeFrame_cases d s <;> rw [h]
  · exact get_setEst ..
  · rw [get_event_ne hevent, addSat, get_put_ne hlate, get_spoilTrim, get_setEst]

/-- It leaves everything beside the die's registers and rows. -/
theorem judgeFrame_keeps (d : Nat) (s : State) : (judgeFrame d s).links = s.links ∧ (judgeFrame d s).boot = s.boot ∧
    (judgeFrame d s).rails = s.rails := by
  have h := foot_judgeFrame (Names.any (d := d)) (Print.Sub.refl _) (Within.refl _ s)
  exact ⟨h.parts .links (by decide) (by decide), h.parts .boot (by decide) (by decide), h.parts .rails (by decide) (by decide)⟩

/-! The outputs (R214, R218, R225). -/

/-- The registers of die d that show output k. -/
def outputFields (d k : Nat) : List Field :=
  [R.EST_RAW.I d k, R.EST_LEAK.I d k, R.EST_GAIN.GAIN d k, R.EST_OFS.OFS d k, R.EST_OUT.I d k]

theorem pairwise_outputFields : ∀ d < 16, ∀ k < 4, (outputFields d k).Pairwise fun f g => fieldKey g ≠ fieldKey f := by decide +kernel

/-- The place of a register that shows an output. -/
theorem place_outputFields (hd : d < 16) {k : Nat} (hk : k < 4) {f : Field} (hf : f ∈ outputFields d k) :
    f.lo = 0 ∧ 0x061010 + 0x80 * d ≤ f.off ∧ f.off < 0x061060 + 0x80 * d ∧ f.off % 16 = 4 * k := by
  simp only [outputFields, List.mem_cons, List.not_mem_nil, or_false] at hf
  rcases hf with rfl | rfl | rfl | rfl | rfl <;> refine ⟨rfl, ?_, ?_, ?_⟩ <;>
    simp only [R.EST_RAW.I, R.EST_LEAK.I, R.EST_GAIN.GAIN, R.EST_OFS.OFS, R.EST_OUT.I] <;> omega

/-- Another output is shown elsewhere. -/
theorem outputFields_ne (hd : d < 16) {j k : Nat} (hj : j < 4) (hk : k < 4) (hne : j ≠ k) {f g : Field} (hf : f ∈ outputFields d j)
    (hg : g ∈ outputFields d k) : fieldKey f ≠ fieldKey g := by
  have hf := place_outputFields hd hj hf
  have hg := place_outputFields hd hk hg
  exact key_ne_of_lt (by omega) (by omega) (by omega)

/-- The inputs, the trim and the judged frame are shown beside the outputs. -/
theorem shown_ne_output (hd : d < 16) {k : Nat} (hk : k < 4) {f g : Field}
    (hf : f ∈ R.EST_EVENT :: R.EST_DIE_CNT.LATE d :: (inputFields d ++ trimFields d))
    (hg : g ∈ outputFields d k) : fieldKey f ≠ fieldKey g ∧ fieldKey g ≠ fieldKey f := by
  have hg := place_outputFields hd hk hg
  have hplace : ∀ d < 16, ∀ f ∈ R.EST_EVENT :: R.EST_DIE_CNT.LATE d :: (inputFields d ++ trimFields d),
      f.lo < 32 ∧ (f.off < 0x061010 + 0x80 * d ∨ 0x061060 + 0x80 * d ≤ f.off ∧ f.off < 2 ^ 22) := by decide +kernel
  have hf := hplace d hd f hf
  exact ⟨key_ne_of_lt (by omega) (by omega) (by omega), key_ne_of_lt (by omega) (by omega) (by omega)⟩

/-- A raw output and its leakage (R214, R217). -/
def rawOutput (s : State) (d : Nat) (tc tm : Int) (vc vm vl : Nat) (o : Nat) : Int × Int :=
  let (t, v) := match o with
    | 1 => (tm, vm)
    | 2 => (tc, vl)
    | _ => (tc, vc)
  let k := leakage (coreModel s d) o t v
  (satI (secondLayer (coreModel s d) (estOf s d).hCore o + k) 24, k)

/-- An output as it is shown, with the gain and the offset in use (R216). -/
def outputShown (d o : Nat) (x : Int × Int) (c : Nat × Int) (s : State) : State :=
  s |> putI (R.EST_RAW.I d o) x.1 |> putI (R.EST_LEAK.I d o) x.2 |> put (R.EST_GAIN.GAIN d o) c.1 |> putI (R.EST_OFS.OFS d o) c.2
    |> putI (R.EST_OUT.I d o) (satI (rnd (x.1 * c.1) 14 + c.2) 24)

/-- The raw outputs of a cycle counted in the link pair's window (R228). -/
def linkCounted (z : Int) (s : State) : State := { s with estp := { s.estp with link := { s.estp.link with xSum := s.estp.link.xSum + z } } }

/-- The raw outputs of a cycle counted in die d's trim window (R228). -/
def dieCounted (x y : Int) (e : EstD) : EstD :=
  { e with pair0 := { e.pair0 with xSum := e.pair0.xSum + x, cycles := e.pair0.cycles + 1 },
           pair1 := { e.pair1 with xSum := e.pair1.xSum + y, cycles := e.pair1.cycles + 1 } }

/-- The four raw outputs of a cycle with their leakages (R214). -/
def rawOutputs (s : State) (d : Nat) (tc tm : Int) (vc vm vl : Nat) : List (Int × Int) := (List.range 4).map (rawOutput s d tc tm vc vm vl)

theorem modelOutputs_eq (tc tm : Int) (vc vm vl : Nat) : ∃ x y z, modelOutputs d tc tm vc vm vl s =
    linkCounted z (setEst d (dieCounted x y (estOf s d))
      (each (List.range 4) (fun o => outputShown d o ((rawOutputs s d tc tm vc vm vl).getD o (0, 0)) (trimOf s d o)) s)) := by
  let raws := rawOutputs s d tc tm vc vm vl
  refine ⟨(raws.getD 0 (0, 0)).1, (raws.getD 1 (0, 0)).1, (raws.getD 2 (0, 0)).1, ?_⟩
  unfold modelOutputs
  refine congrArg (fun u => linkCounted _ (setEst d (dieCounted _ _ (estOf s d)) u)) ?_
  refine congrArg (fun f => each (List.range 4) f s) (funext fun o => funext fun st => ?_)
  generalize trimOf s d o = c
  obtain ⟨g, y⟩ := c
  unfold outputShown rawOutputs rawOutput
  rfl

end

end Sys2Proof.Machine

/-! What the outputs of a cycle read, and what is shown beside them (R214, R216, R225, R255). -/

namespace Sys2Proof.Machine

section

variable {s t u : State} {d k : Nat} {g : Field} {tc tm : Int} {vc vm vl : Nat}

theorem getI_putAll {l : List (Field × Nat)} (hl : (l.map Prod.fst).Pairwise fun f g => fieldKey g ≠ fieldKey f) {f : Field} {x : Int}
    (he : (f, ofSigned f.w x) ∈ l) (hf : f.cls ≠ Ret.fuse) {k : Nat} (hw : f.w = k + 1) (hx : -2 ^ k ≤ x ∧ x < 2 ^ k) (s : State) :
    getI (putAll l s) f = x := by
  rw [getI, get_putAll hl he hf, toSigned_mod, hw, toSigned_ofSigned hx.1 hx.2]

theorem satI_range_32 (x : Int) : -2 ^ 31 ≤ satI x 24 ∧ satI x 24 < 2 ^ 31 := by
  obtain ⟨hlo, hhi⟩ := satI_range 23 x
  exact ⟨le_trans (by decide) hlo, hhi.trans (by decide)⟩

theorem leakage_range_32 (l : List Nat) (o : Nat) (t v : Int) : -2 ^ 31 ≤ leakage l o t v ∧ leakage l o t v < 2 ^ 31 := by
  unfold leakage
  dsimp only
  split
  · decide
  · exact satI_range_32 _

/-- What is shown of output k with a raw value, a leakage, a gain and an offset (R216). -/
def shownOutput (d k : Nat) (x : Int × Int) (c : Nat × Int) : List (Field × Nat) :=
  [(R.EST_RAW.I d k, ofSigned 32 x.1), (R.EST_LEAK.I d k, ofSigned 32 x.2), (R.EST_GAIN.GAIN d k, c.1),
   (R.EST_OFS.OFS d k, ofSigned 32 c.2), (R.EST_OUT.I d k, ofSigned 32 (satI (rnd (x.1 * c.1) 14 + c.2) 24))]

theorem fields_shownOutput (d k : Nat) (x : Int × Int) (c : Nat × Int) : (shownOutput d k x c).map Prod.fst = outputFields d k := rfl

theorem outputShown_eq_putAll (d k : Nat) (x : Int × Int) (c : Nat × Int) (s : State) :
    outputShown d k x c s = putAll (shownOutput d k x c) s := by
  unfold outputShown shownOutput putAll putI
  rfl

/-- Output k of die d is shown with a raw value and a leakage of s's model (R214) and with s's trim (R216). -/
def ModelShown (s t : State) (d k : Nat) : Prop :=
  getI t (R.EST_RAW.I d k) = satI (secondLayer (coreModel s d) (estOf s d).hCore k + getI t (R.EST_LEAK.I d k)) 24 ∧
    getI t (R.EST_OUT.I d k) = satI (rnd (getI t (R.EST_RAW.I d k) * (trimOf s d k).1) 14 + (trimOf s d k).2) 24

theorem ModelShown.of_gets (h : ModelShown s t d k) (hget : ∀ f ∈ outputFields d k, get u f = get t f) : ModelShown s u d k := by
  have hraw : getI u (R.EST_RAW.I d k) = getI t (R.EST_RAW.I d k) := congrArg (toSigned 32) (hget _ (.head _))
  have hleak : getI u (R.EST_LEAK.I d k) = getI t (R.EST_LEAK.I d k) := congrArg (toSigned 32) (hget _ (.tail _ (.head _)))
  have hout : getI u (R.EST_OUT.I d k) = getI t (R.EST_OUT.I d k) :=
    congrArg (toSigned 32) (hget _ (.tail _ (.tail _ (.tail _ (.tail _ (.head _))))))
  rw [ModelShown, hraw, hleak, hout]
  exact h

theorem modelShown_outputShown (hd : d < 16) (hk : k < 4) :
    ModelShown s (outputShown d k (rawOutput s d tc tm vc vm vl k) (trimOf s d k) u) d k := by
  obtain ⟨x, hx, hraw, hrange⟩ : ∃ x : Int × Int, rawOutput s d tc tm vc vm vl k = x ∧
      x.1 = satI (secondLayer (coreModel s d) (estOf s d).hCore k + x.2) 24 ∧ -2 ^ 31 ≤ x.2 ∧ x.2 < 2 ^ 31 :=
    ⟨_, rfl, rfl, leakage_range_32 ..⟩
  have hraw_range : -2 ^ 31 ≤ x.1 ∧ x.1 < 2 ^ 31 := hraw ▸ satI_range_32 _
  have hapart : ((shownOutput d k x (trimOf s d k)).map Prod.fst).Pairwise fun f g => fieldKey g ≠ fieldKey f :=
    fields_shownOutput d k x _ ▸ pairwise_outputFields d hd k hk
  have hout := satI_range_32 (rnd (x.1 * (trimOf s d k).1) 14 + (trimOf s d k).2)
  rw [hx, outputShown_eq_putAll, ModelShown, getI_putAll hapart (.head _) (by nofun) rfl hraw_range,
    getI_putAll hapart (.tail _ (.head _)) (by nofun) rfl hrange,
    getI_putAll hapart (.tail _ (.tail _ (.tail _ (.tail _ (.head _))))) (by nofun) rfl hout]
  exact ⟨hraw, rfl⟩

theorem get_outputShown_ne {x : Int × Int} {c : Nat × Int} (h : ∀ f ∈ outputFields d k, fieldKey f ≠ fieldKey g) :
    get (outputShown d k x c s) g = get s g := by
  rw [outputShown_eq_putAll, get_putAll_ne (fields_shownOutput d k x c ▸ h)]

theorem estOf_linkCounted (z : Int) (s : State) (d : Nat) : estOf (linkCounted z s) d = estOf s d := rfl

theorem get_linkCounted (z : Int) (s : State) (g : Field) : get (linkCounted z s) g = get s g := rfl

/-- Every output that a model forms is shown (R214, R216). -/
theorem modelShown_modelOutputs (hd : d < 16) (hk : k < 4) : ModelShown s (modelOutputs d tc tm vc vm vl s) d k := by
  obtain ⟨x, y, z, h⟩ := modelOutputs_eq (s := s) (d := d) tc tm vc vm vl
  have hraw : (rawOutputs s d tc tm vc vm vl).getD k (0, 0) = rawOutput s d tc tm vc vm vl k := by
    simp [rawOutputs, List.getD_eq_getElem?_getD, List.getElem?_map, List.getElem?_range hk]
  have hshown : ModelShown s (each (List.range 4)
      (fun o => outputShown d o ((rawOutputs s d tc tm vc vm vl).getD o (0, 0)) (trimOf s d o)) s) d k :=
    each_hits (I := fun _ => True) (P := fun w => ModelShown s w d k) (List.mem_range.2 hk) List.nodup_range (fun _ _ _ _ _ => trivial)
      (fun u _ => by rw [hraw]; exact modelShown_outputShown hd hk)
      (fun j hj hne u hu => ModelShown.of_gets hu fun f hf =>
        get_outputShown_ne fun e he => outputFields_ne hd (List.mem_range.1 hj) hk hne he hf) trivial
  rw [h]
  exact hshown.of_gets fun f _ => by rw [get_linkCounted, get_setEst]

/-- The measured currents of a die as they are shown (R225). -/
def shownMeasured (s : State) (d : Nat) : List (Field × Nat) :=
  [(R.EST_OUT.I d 0, ofSigned 32 (irail s d)), (R.EST_OUT.I d 1, ofSigned 32 (irail s (16 + d))),
   (R.EST_OUT.I d 2, ofSigned 32 (divZ (irail s 32) (max 1 (nDies s)))), (R.EST_OUT.I d 3, ofSigned 32 0)]

theorem measuredOutputs_eq (d : Nat) (s : State) :
    measuredOutputs d s = when ((estOf (putAll (shownMeasured s d) s) d).turn.isNone) (spoilTrim d) (putAll (shownMeasured s d) s) := by
  unfold measuredOutputs shownMeasured putAll putI
  rfl

end

end Sys2Proof.Machine

/-! A die's publication: its outputs, its inputs, the die itself (R214 to R226, R255). -/

namespace Sys2Proof.Machine

section

variable {s t u v : State} {d e k : Nat} {g : Field} {tc tm : Int} {vc vm vl : Nat} {l : List (Field × Nat)}

/-! The outputs of a cycle, substituted or not. -/

theorem estOf_outputsFormed : ∃ p q, estOf (outputsFormed d tc tm vc vm vl s) d = { estOf s d with pair0 := p, pair1 := q } := by
  unfold outputsFormed
  split
  · have hput : estOf (putAll (shownMeasured s d) s) d = estOf s d := estOf_of (estd_putAll ..) d
    rw [measuredOutputs_eq]
    cases (estOf (putAll (shownMeasured s d) s) d).turn.isNone
    · exact ⟨_, _, hput⟩
    · obtain ⟨p, q, hest⟩ := estOf_spoilTrim (d := d) (s := putAll (shownMeasured s d) s)
      exact ⟨p, q, hest.trans (by rw [hput])⟩
  · obtain ⟨x, y, z, h⟩ := modelOutputs_eq (s := s) (d := d) tc tm vc vm vl
    rw [h, estOf_linkCounted, estOf_setEst]
    exact ⟨_, _, rfl⟩

theorem get_measuredOutputs (d : Nat) (s : State) (g : Field) : get (measuredOutputs d s) g = get (putAll (shownMeasured s d) s) g := by
  rw [measuredOutputs_eq]
  cases (estOf (putAll (shownMeasured s d) s) d).turn.isNone
  · rfl
  · exact get_spoilTrim

theorem get_outputsFormed_ne (h : ∀ k < 4, ∀ f ∈ outputFields d k, fieldKey f ≠ fieldKey g) :
    get (outputsFormed d tc tm vc vm vl s) g = get s g := by
  unfold outputsFormed
  split
  · have hout : ∀ k < 4, fieldKey (R.EST_OUT.I d k) ≠ fieldKey g := fun k hk => h k hk _ (by simp [outputFields])
    rw [get_measuredOutputs, get_putAll_ne]
    simp [shownMeasured, hout]
  · obtain ⟨x, y, z, hmodel⟩ := modelOutputs_eq (s := s) (d := d) tc tm vc vm vl
    rw [hmodel, get_linkCounted, get_setEst]
    exact each_induct (P := fun w => get w g = get s g) (fun o ho w hw => (get_outputShown_ne (h o (List.mem_range.1 ho))).trans hw) rfl

/-- The measured currents read as they are (R225). -/
theorem get_measuredOutputs_out (hd : d < 16) : get (measuredOutputs d s) (R.EST_OUT.I d 0) = ofSigned 32 (irail s d) ∧
    get (measuredOutputs d s) (R.EST_OUT.I d 1) = ofSigned 32 (irail s (16 + d)) ∧ get (measuredOutputs d s) (R.EST_OUT.I d 3) = 0 := by
  have hcode : ∀ x, ofSigned 32 x % 2 ^ 32 = ofSigned 32 x := fun x => by unfold ofSigned; omega
  have hapart : ((shownMeasured s d).map Prod.fst).Pairwise fun f g => fieldKey g ≠ fieldKey f := by
    have h : ∀ d < 16, ([R.EST_OUT.I d 0, R.EST_OUT.I d 1, R.EST_OUT.I d 2, R.EST_OUT.I d 3]).Pairwise fun f g => fieldKey g ≠ fieldKey f := by
      decide +kernel
    exact h d hd
  simp only [get_measuredOutputs]
  exact ⟨(get_putAll hapart (.head _) (by nofun) s).trans (hcode _), (get_putAll hapart (.tail _ (.head _)) (by nofun) s).trans (hcode _),
    get_putAll hapart (.tail _ (.tail _ (.tail _ (.head _)))) (by nofun) s⟩

/-! A publication. -/

/-- Whether a die's estimate is substituted, read in the state in which it is formed. -/
theorem publishEstimate_shows (hd : d < 16) (s : State) :
    get (publishEstimate d s) (R.EST_DIE_STAT.SUBST d) = b2n (substituted (judgeFrame d s) d) ∧
    get (publishEstimate d s) (R.EST_DIE_TS.TIME d) = now s % 2 ^ 64 ∧
    get (publishEstimate d s) (R.EST_DIE_STAT.PREV_VALID d) = b2n (otherBank s d) := by
  have hbit : ∀ b, b2n b % 2 ^ 1 = b2n b := by decide
  have hnow : now (judgeFrame d s) = now s :=
    get_judgeFrame (key_ne_of_lt (by simp only [R.EST_DIE_CNT.LATE]; omega) (by decide)
      (by simp only [R.EST_DIE_CNT.LATE, R.CLK_TIME.COUNT]; omega)) (by decide)
  have hother : otherBank (judgeFrame d s) d = otherBank s d := by
    obtain ⟨time, run, stale, p, q, h⟩ := estOf_judgeFrame (s := s) (d := d)
    rw [otherBank, h, otherBank]
  obtain ⟨tc, tm, vc, vm, vl, h⟩ := publishEstimate_eq d s
  have hl : (shownInputs d (judgeFrame d s) tc tm vc vm vl).map Prod.fst = inputFields d := rfl
  rw [h, ← hother, ← hnow]
  exact ⟨(get_estimateShown_input hd hl (.head _) (by nofun)).trans (hbit _),
    get_estimateShown_input hd hl (.tail _ (.tail _ (.tail _ (.tail _ (.tail _ (.tail _ (.head _))))))) (by nofun),
    (get_estimateShown_input hd hl (.tail _ (.tail _ (.tail _ (.tail _ (.tail _ (.tail _ (.tail _ (.head _)))))))) (by nofun)).trans (hbit _)⟩

theorem estOf_publishEstimate : ∃ p q due, estOf (publishEstimate d s) d =
    { estOf (judgeFrame d s) d with pair0 := p, pair1 := q, skips := 0, due := due } := by
  obtain ⟨tc, tm, vc, vm, vl, h⟩ := publishEstimate_eq d s
  obtain ⟨p, q, hformed⟩ := estOf_outputsFormed (s := judgeFrame d s) (d := d) (tc := tc) (tm := tm) (vc := vc) (vm := vm) (vl := vl)
  obtain ⟨due, hshown⟩ := estOf_estimateShown (d := d) (l := shownInputs d (judgeFrame d s) tc tm vc vm vl)
    (s := outputsFormed d tc tm vc vm vl (judgeFrame d s))
  exact ⟨p, q, due, by rw [h, hshown, hformed]⟩

end

end Sys2Proof.Machine

/-! What a publication shows of outputs, trim and lateness (R214, R223, R225, R232, R255). -/

namespace Sys2Proof.Machine

section

variable {s t u v : State} {d e k : Nat} {g : Field}

/-- A register that shows neither inputs nor trim nor outputs is after a publication as the judging of the frame left it. -/
theorem get_publishEstimate_judged (hg : ∀ f ∈ inputFields d ++ trimFields d, fieldKey f ≠ fieldKey g)
    (hout : ∀ k < 4, ∀ f ∈ outputFields d k, fieldKey f ≠ fieldKey g) : get (publishEstimate d s) g = get (judgeFrame d s) g := by
  obtain ⟨tc, tm, vc, vm, vl, h⟩ := publishEstimate_eq d s
  rw [h, get_estimateShown_ne rfl hg, get_outputsFormed_ne hout]

theorem apart_lateFields : ∀ d < 16, ∀ g ∈ [R.EST_EVENT, R.EST_DIE_CNT.LATE d], ∀ f ∈ inputFields d ++ trimFields d, fieldKey f ≠ fieldKey g := by
  decide

theorem get_publishEstimate_late (hd : d < 16) (hg : g ∈ [R.EST_EVENT, R.EST_DIE_CNT.LATE d]) :
    get (publishEstimate d s) g = get (judgeFrame d s) g := by
  refine get_publishEstimate_judged (apart_lateFields d hd g hg) fun k hk f hf => ?_
  have hmem : g ∈ R.EST_EVENT :: R.EST_DIE_CNT.LATE d :: (inputFields d ++ trimFields d) := List.mem_append_left _ hg
  exact (shown_ne_output hd hk hmem hf).2

theorem publishEstimate_shows_trim (hd : d < 16) (s : State) :
    get (publishEstimate d s) (R.EST_DIE_STAT.TRIM_HOLD d) = b2n (estOf s d).hold ∧
      get (publishEstimate d s) (R.EST_DIE_CNT.SKIP d) = min 65535 (get s (R.EST_DIE_CNT.SKIP d) + (estOf s d).skips) := by
  obtain ⟨tc, tm, vc, vm, vl, h⟩ := publishEstimate_eq d s
  obtain ⟨p, q, hformed⟩ := estOf_outputsFormed (s := judgeFrame d s) (d := d) (tc := tc) (tm := tm) (vc := vc) (vm := vm) (vl := vl)
  obtain ⟨time, run, stale, p', q', hjudged⟩ := estOf_judgeFrame (s := s) (d := d)
  have hmem : R.EST_DIE_CNT.SKIP d ∈ R.EST_EVENT :: R.EST_DIE_CNT.LATE d :: (inputFields d ++ trimFields d) := by
    simp [trimFields]
  have hout : ∀ k < 4, ∀ f ∈ outputFields d k, fieldKey f ≠ fieldKey (R.EST_DIE_CNT.SKIP d) := fun k hk f hf =>
    (shown_ne_output hd hk hmem hf).2
  have hjudge : get (judgeFrame d s) (R.EST_DIE_CNT.SKIP d) = get s (R.EST_DIE_CNT.SKIP d) :=
    get_judgeFrame (key_ne (by simp only [R.EST_DIE_CNT.LATE, R.EST_DIE_CNT.SKIP]; omega))
      (key_ne_of_lt (by decide) (by simp only [R.EST_DIE_CNT.SKIP]; omega) (by simp only [R.EST_EVENT, R.EST_DIE_CNT.SKIP]; omega))
  have hshown := get_estimateShown_trim (l := shownInputs d (judgeFrame d s) tc tm vc vm vl) hd rfl
    (s := outputsFormed d tc tm vc vm vl (judgeFrame d s))
  rw [hformed, hjudged, get_outputsFormed_ne hout, hjudge] at hshown
  rw [h]
  exact hshown

/-- The outputs of a publication are those that the cycle formed. -/
theorem get_publishEstimate_output (hd : d < 16) (s : State) : ∃ tc tm vc vm vl, ∀ k < 4, ∀ g ∈ outputFields d k,
    get (publishEstimate d s) g = get (outputsFormed d tc tm vc vm vl (judgeFrame d s)) g := by
  obtain ⟨tc, tm, vc, vm, vl, h⟩ := publishEstimate_eq d s
  refine ⟨tc, tm, vc, vm, vl, fun k hk g hg => ?_⟩
  have hne : ∀ f ∈ inputFields d ++ trimFields d, fieldKey f ≠ fieldKey g := fun f hf => (shown_ne_output hd hk (.tail _ (.tail _ hf)) hg).1
  rw [h, get_estimateShown_ne rfl hne]

/-- A substituted estimate shows the measured currents (R225). -/
theorem publishEstimate_measured (hd : d < 16) (h : substituted (judgeFrame d s) d = true) :
    get (publishEstimate d s) (R.EST_OUT.I d 0) = ofSigned 32 (irail s d) ∧
    get (publishEstimate d s) (R.EST_OUT.I d 1) = ofSigned 32 (irail s (16 + d)) ∧ get (publishEstimate d s) (R.EST_OUT.I d 3) = 0 := by
  obtain ⟨tc, tm, vc, vm, vl, hout⟩ := get_publishEstimate_output hd s
  have hrail : ∀ r, irail (judgeFrame d s) r = irail s r := fun r => by
    rw [Machine.irail, Machine.irail, railOf_of (judgeFrame_keeps d s).2.2]
  have hmem : ∀ k, R.EST_OUT.I d k ∈ outputFields d k := fun k => by simp [outputFields]
  have hmeasured := get_measuredOutputs_out hd (s := judgeFrame d s)
  rw [hrail, hrail] at hmeasured
  rw [hout 0 (by decide) _ (hmem 0), hout 1 (by decide) _ (hmem 1), hout 3 (by decide) _ (hmem 3), outputsFormed, if_pos h]
  exact hmeasured

/-- Any other shows the model's (R214, R216). -/
theorem publishEstimate_modelled (hd : d < 16) (h : substituted (judgeFrame d s) d = false) (hk : k < 4) :
    ModelShown (judgeFrame d s) (publishEstimate d s) d k := by
  obtain ⟨tc, tm, vc, vm, vl, hout⟩ := get_publishEstimate_output hd s
  have hmodel : outputsFormed d tc tm vc vm vl (judgeFrame d s) = modelOutputs d tc tm vc vm vl (judgeFrame d s) := by
    rw [outputsFormed, if_neg (by simp [h])]
  exact (hmodel ▸ modelShown_modelOutputs hd hk).of_gets fun g hg => hmodel ▸ hout k hk g hg

end

end Sys2Proof.Machine

/-! SECOND_STAGE: the turns that the core takes (R242, R243). -/

namespace Sys2Proof.Machine

section

variable {s t u v : State} {d e k : Nat} {g : Field}

/-- What is shown of a model that the core computes with (R255). -/
def shownModel (d : Nat) (l : List Nat) : List (Field × Nat) :=
  [(R.EST_DIE_MODEL.ID d, leAt l 0x14 4), (R.EST_DIE_MVER.VER d, leAt l 0x18 4), (R.EST_DIE_SIZE.N_IN d, pkIn l),
   (R.EST_DIE_SIZE.N_HID d, pkHid l), (R.EST_DIE_SIZE.N_OUT d, pkOut l)]

theorem takeTurn_none (h : (estOf s d).turn = none) : takeTurn d s = s := by simp [takeTurn, h]

/-- A die as the core follows its switch, with pairs p and q. -/
def turnTaken (e : EstD) (p q : Pair) : EstD := { e with coreOn := true, core := e.active, turn := none, pair0 := p, pair1 := q }

theorem estOf_setLinkOld (o : Option (Nat × Int)) (s : State) (d : Nat) : estOf (setLinkOld o s) d = estOf s d := rfl

theorem get_setLinkOld (o : Option (Nat × Int)) (s : State) (g : Field) : get (setLinkOld o s) g = get s g := rfl

/-- The core follows a switch: what comes of the die, of the link pair and of the registers. -/
theorem takeTurn_due {w : Nat} (h : (estOf s d).turn = some w) (hw : w ≤ (estOf s d).due) :
    (∃ p q, estOf (takeTurn d s) d = turnTaken (estOf s d) p q) ∧ (takeTurn d s).estp = { s.estp with linkOld := none } ∧
    ∃ s', (∀ g, get s' g = get s g) ∧ ∀ g, get (takeTurn d s) g = get (putAll (shownModel d (model s d)) s') g := by
  let on : State := setEst d { estOf s d with coreOn := true, core := (estOf s d).active, turn := none } s
  have htake : takeTurn d s = setLinkOld none (activate d on) := by simp [takeTurn, h, hw, on]
  have hmodel : coreModel on d = model s d := by
    unfold coreModel bankPkg model
    rw [estOf_setEst]
    rfl
  obtain ⟨p, q, hactivate⟩ : ∃ p q, activate d on =
      putAll (shownModel d (coreModel on d)) (setEst d { estOf on d with pair0 := p, pair1 := q } on) := by
    unfold activate shownModel putAll
    exact ⟨_, _, rfl⟩
  rw [htake, hactivate, hmodel, estOf_setLinkOld, estOf_of (estd_putAll ..), estOf_setEst, estOf_setEst]
  refine ⟨⟨p, q, rfl⟩, ?_, setEst d { estOf on d with pair0 := p, pair1 := q } on, fun g => (get_setEst ..).trans (get_setEst ..),
    fun g => by rw [get_setLinkOld, estOf_setEst]⟩
  rw [setLinkOld, estp_putAll, setEst_estp, setEst_estp]

theorem takeTurn_idle (h : ∀ w, (estOf s d).turn = some w → ¬ w ≤ (estOf s d).due) : takeTurn d s = s := by
  cases hturn : (estOf s d).turn with
  | none => exact takeTurn_none hturn
  | some w => simp [takeTurn, hturn, h w hturn]

/-- A turn taken leaves everything of the die but its standing with the core and its pairs. -/
theorem estOf_takeTurn (d : Nat) (s : State) : ∃ on core turn p q, estOf (takeTurn d s) d =
    { estOf s d with coreOn := (estOf s d).coreOn || on, core := core, turn := turn, pair0 := p, pair1 := q } := by
  by_cases h : ∀ w, (estOf s d).turn = some w → ¬ w ≤ (estOf s d).due
  · exact ⟨false, _, _, _, _, by rw [takeTurn_idle h, Bool.or_false]⟩
  · push Not at h
    obtain ⟨w, hturn, hw⟩ := h
    obtain ⟨⟨p, q, hest⟩, -⟩ := takeTurn_due hturn hw
    exact ⟨true, (estOf s d).active, none, p, q, by rw [hest, Bool.or_true]; rfl⟩

theorem estp_takeTurn (d : Nat) (s : State) : (takeTurn d s).estp = s.estp ∨ (takeTurn d s).estp = { s.estp with linkOld := none } := by
  by_cases h : ∀ w, (estOf s d).turn = some w → ¬ w ≤ (estOf s d).due
  · exact .inl (by rw [takeTurn_idle h])
  · push Not at h
    obtain ⟨w, hturn, hw⟩ := h
    obtain ⟨-, hestp, -⟩ := takeTurn_due hturn hw
    exact .inr hestp

/-- The registers of die d that show the model the core computes with. -/
def modelFields (d : Nat) : List Field :=
  [R.EST_DIE_MODEL.ID d, R.EST_DIE_MVER.VER d, R.EST_DIE_SIZE.N_IN d, R.EST_DIE_SIZE.N_HID d, R.EST_DIE_SIZE.N_OUT d]

theorem fields_shownModel (d : Nat) (l : List Nat) : (shownModel d l).map Prod.fst = modelFields d := rfl

theorem get_takeTurn_ne (h : ∀ f ∈ modelFields d, fieldKey f ≠ fieldKey g) : get (takeTurn d s) g = get s g := by
  by_cases hidle : ∀ w, (estOf s d).turn = some w → ¬ w ≤ (estOf s d).due
  · rw [takeTurn_idle hidle]
  · push Not at hidle
    obtain ⟨w, hturn, hw⟩ := hidle
    obtain ⟨-, -, s', hget, hshown⟩ := takeTurn_due hturn hw
    rw [hshown, get_putAll_ne (fields_shownModel d _ ▸ h), hget]

end

end Sys2Proof.Machine

/-! SECOND_STAGE as one die sees it, for what its estimate is formed of (R214 to R226). -/

namespace Sys2Proof.Machine

section

variable {s t u v : State} {d e k : Nat} {g : Field}

theorem estp_judgeFrame (d : Nat) (s : State) : ∃ b, (judgeFrame d s).estp = { s.estp with link := { s.estp.link with spoiled := b } } := by
  obtain h | h | ⟨run, stale, h⟩ := judgeFrame_cases d s <;> rw [h]
  · exact ⟨_, rfl⟩
  · exact ⟨_, rfl⟩
  · rw [event, addSat, put_estp, put_estp]
    exact ⟨_, rfl⟩

theorem estp_outputsFormed {tc tm : Int} {vc vm vl : Nat} : ∃ x b, (outputsFormed d tc tm vc vm vl s).estp =
    { s.estp with link := { s.estp.link with xSum := x, spoiled := b } } := by
  unfold outputsFormed
  split
  · have hput : (putAll (shownMeasured s d) s).estp = s.estp := estp_putAll ..
    rw [measuredOutputs_eq]
    cases (estOf (putAll (shownMeasured s d) s) d).turn.isNone
    · exact ⟨_, _, hput⟩
    · refine ⟨s.estp.link.xSum, true, ?_⟩
      rw [← hput]
      rfl
  · obtain ⟨x, y, z, h⟩ := modelOutputs_eq (s := s) (d := d) tc tm vc vm vl
    have hkeep : ∀ (l : List Nat) (x : Nat → Int × Int) (c : Nat → Nat × Int) (w : State),
        (each l (fun o => outputShown d o (x o) (c o)) w).estp = w.estp := fun l x c w =>
      each_keeps (f := fun o => outputShown d o (x o) (c o)) (φ := State.estp) (fun o u => by
        rw [outputShown_eq_putAll, estp_putAll]) l w
    rw [h, linkCounted, setEst_estp, hkeep]
    exact ⟨_, _, rfl⟩

/-- A publication counts in the link pair's window and leaves its gain and offset (R228). -/
theorem estp_publishEstimate (d : Nat) (s : State) : ∃ x b, (publishEstimate d s).estp =
    { s.estp with link := { s.estp.link with xSum := x, spoiled := b } } := by
  obtain ⟨tc, tm, vc, vm, vl, h⟩ := publishEstimate_eq d s
  obtain ⟨b, hjudged⟩ := estp_judgeFrame d s
  obtain ⟨x, b', hformed⟩ := estp_outputsFormed (s := judgeFrame d s) (d := d) (tc := tc) (tm := tm) (vc := vc) (vm := vm) (vl := vl)
  refine ⟨x, b', ?_⟩
  rw [h, estimateShown, nextDue, showTrim, putB, addSat, setEst_estp, setEst_estp, put_estp, put_estp, estp_putAll, hformed, hjudged]

theorem late_judgeFrame (d : Nat) (h : bit (get s R.EST_EVENT) 6 = true) : bit (get (judgeFrame d s) R.EST_EVENT) 6 = true := by
  obtain hcase | hcase | ⟨run, stale, hcase⟩ := judgeFrame_cases d s <;> rw [hcase]
  · exact h
  · rwa [get_setEst]
  · exact bit_event_self (by nofun) (by decide) _

/-- From s to t also the gain and offset of the link pair are as before, and a late frame is still told of. -/
structure StageStays (d : Nat) (s t : State) : Prop extends DieStays d s t where
  codes : pairCodes t.estp.link = pairCodes s.estp.link
  old : s.estp.linkOld = none → t.estp.linkOld = none
  late : bit (get s R.EST_EVENT) 6 = true → bit (get t R.EST_EVENT) 6 = true

namespace StageStays

theorem refl (d : Nat) (s : State) : StageStays d s s := ⟨.refl d s, rfl, id, id⟩

theorem trans (h : StageStays d s t) (k : StageStays d t u) : StageStays d s u :=
  ⟨h.toDieStays.trans k.toDieStays, k.codes.trans h.codes, k.old ∘ h.old, k.late ∘ h.late⟩

theorem takeTurn (hd : d < 16) (he : e < 16) (hne : e ≠ d) (s : State) : StageStays d s (takeTurn e s) := by
  refine ⟨.takeTurn hd he hne s, ?_, ?_, ?_⟩
  · obtain h | h := estp_takeTurn e s <;> rw [h]
  · obtain h | h := estp_takeTurn e s <;> rw [h]
    · exact id
    · exact fun _ => rfl
  · have hevent : ∀ e < 16, ∀ f ∈ modelFields e, fieldKey f ≠ fieldKey R.EST_EVENT := by decide
    rw [get_takeTurn_ne (hevent e he)]
    exact id

theorem publishEstimate (hd : d < 16) (he : e < 16) (hne : e ≠ d) (s : State) : StageStays d s (publishEstimate e s) := by
  obtain ⟨x, b, h⟩ := estp_publishEstimate e s
  refine ⟨.publishEstimate hd he hne s, by rw [h]; rfl, by rw [h]; exact id, fun hlate => ?_⟩
  rw [get_publishEstimate_late he (.head _)]
  exact late_judgeFrame e hlate

end StageStays

/-- What SECOND_STAGE comes to for die d: the other dies' turns, its own, the other dies' publications, its own, what follows. -/
theorem secondStage_die (hclk : s.clk.started = true) (hd : isPresent s d = true) : ∃ v u w, exec .secondStage s = .next (cycleEnded w) ∧
    StageStays d s v ∧ StageStays d (takeTurn d v) u ∧ StageStays d (publishEstimate d u) w := by
  have hd16 := lt_of_present hd
  obtain ⟨v, hv, hturn⟩ := each_own (StageStays.refl d) (fun _ _ _ => StageStays.trans) (mem_dies hd) (nodup_dies s)
    (f := Machine.takeTurn) (fun e he hne => StageStays.takeTurn hd16 (lt_of_mem_dies he) hne) s
  obtain ⟨u, hu, hpublish⟩ := each_own (StageStays.refl d) (fun _ _ _ => StageStays.trans) (mem_dies hd) (nodup_dies s)
    (f := Machine.publishEstimate) (fun e he hne => StageStays.publishEstimate hd16 (lt_of_mem_dies he) hne) (each (dies s) Machine.takeTurn s)
  exact ⟨v, u, _, secondStage_eq hclk, hv, hturn.trans hu, hpublish⟩

/-- A register of die d's window after SECOND_STAGE is as its publication left it. -/
theorem get_stageEnd (h : StageStays d (publishEstimate d u) s) (hd : d < 16) (hg : InEst d g) :
    get (cycleEnded s) g = get (publishEstimate d u) g := by
  have hplace := hg
  simp only [InEst] at hplace
  rw [get_cycleEnded (by omega) (by omega), h.regs g (.inl hg)]

end

end Sys2Proof.Machine

/-! SECOND_STAGE publishes: the estimate of a die, its lateness, its trim and the model that the core follows (R214 to R226, R232, R242, R255). -/

namespace Sys2Proof.Machine

section

variable {s t u v w : State} {d e k : Nat} {g : Field}

/-- From s to u die d's turn has been taken: what else it publishes of is as before. -/
structure TurnOver (d : Nat) (s u : State) : Prop where
  link : linkOf u d = linkOf s d
  reset : dieInReset u d = dieInReset s d
  rails : u.rails = s.rails
  now : now u = now s
  est : ∃ on core turn p q, estOf u d = { estOf s d with coreOn := (estOf s d).coreOn || on, core := core, turn := turn, pair0 := p, pair1 := q }
  counts : ∀ g ∈ [R.EST_DIE_CNT.SKIP d, R.EST_DIE_CNT.LATE d], get u g = get s g

theorem apart_modelFields : ∀ d < 16, ∀ f ∈ modelFields d, ∀ g ∈ [R.EST_DIE_CNT.SKIP d, R.EST_DIE_CNT.LATE d, R.CLK_TIME.COUNT],
    fieldKey f ≠ fieldKey g := by
  decide

theorem inEst_shown : ∀ d < 16, ∀ g ∈ R.EST_DIE_CNT.LATE d :: R.EST_DIE_MODEL.ID d :: (inputFields d ++ trimFields d), InEst d g := by
  unfold InEst
  decide

theorem inEst_counts (hd : d < 16) (hg : g ∈ [R.EST_DIE_CNT.SKIP d, R.EST_DIE_CNT.LATE d]) : InEst d g := by
  simp only [List.mem_cons, List.not_mem_nil, or_false] at hg
  rcases hg with rfl | rfl <;> exact inEst_shown d hd _ (by simp [trimFields])

theorem TurnOver.of_stays (hd : d < 16) (hv : StageStays d s v) (hu : StageStays d (takeTurn d v) u) : TurnOver d s u := by
  have hfoot := foot_takeTurn (Names.any (d := d)) (Print.Sub.refl _) (Within.refl _ v)
  have hlinks : (takeTurn d v).links = v.links := hfoot.parts .links (by decide) (by decide)
  have hboot : (takeTurn d v).boot = v.boot := hfoot.parts .boot (by decide) (by decide)
  have hrails : (takeTurn d v).rails = v.rails := hfoot.parts .rails (by decide) (by decide)
  have hlink : linkOf (takeTurn d v) d = linkOf v d := linkOf_of hlinks d
  refine ⟨hu.link.trans (hlink.trans hv.link), hu.dieInReset.trans (.trans ?_ hv.dieInReset), hu.rails.trans (hrails.trans hv.rails),
    hu.now.trans (.trans ?_ hv.now), ?_, fun g hg => ?_⟩
  · rw [dieInReset, dieInReset, hboot, hlink]
  · exact get_takeTurn_ne fun f hf => apart_modelFields d hd f hf _ (by simp)
  · obtain ⟨on, core, turn, p, q, h⟩ := estOf_takeTurn d v
    exact ⟨on, core, turn, p, q, by rw [hu.est, h, hv.est]⟩
  · have hmem : g ∈ [R.EST_DIE_CNT.SKIP d, R.EST_DIE_CNT.LATE d, R.CLK_TIME.COUNT] := List.mem_append_left [R.CLK_TIME.COUNT] hg
    rw [hu.regs g (.inl (inEst_counts hd hg)), get_takeTurn_ne fun f hf => apart_modelFields d hd f hf g hmem, hv.regs g (.inl (inEst_counts hd hg))]

/-- What SECOND_STAGE comes to for die d once its turn is over. -/
theorem secondStage_publishes (hclk : s.clk.started = true) (hd : isPresent s d = true) : ∃ u w, exec .secondStage s = .next (cycleEnded w) ∧
    TurnOver d s u ∧ StageStays d (publishEstimate d u) w ∧ ((estOf s d).turn = none → StageStays d s u) := by
  obtain ⟨v, u, w, hexec, hv, hu, hw⟩ := secondStage_die hclk hd
  refine ⟨u, w, hexec, .of_stays (lt_of_present hd) hv hu, hw, fun hturn => ?_⟩
  have hidle : takeTurn d v = v := takeTurn_none (by rw [hv.est, hturn])
  exact hv.trans (hidle ▸ hu)

theorem inEst_output (hd : d < 16) (hk : k < 4) (hg : g ∈ outputFields d k) : InEst d g := by
  have h := place_outputFields hd hk hg
  simp only [InEst]
  omega

theorem substituted_judgeFrame (d : Nat) (s : State) :
    substituted (judgeFrame d s) d = (!(estOf s d).coreOn || (estOf (judgeFrame d s) d).stale || (linkOf s d).lost || dieInReset s d) := by
  obtain ⟨hlinks, hboot, -⟩ := judgeFrame_keeps d s
  obtain ⟨time, run, stale, p, q, h⟩ := estOf_judgeFrame (s := s) (d := d)
  have hlink : linkOf (judgeFrame d s) d = linkOf s d := linkOf_of hlinks d
  rw [substituted, hlink, dieInReset, dieInReset, hboot, hlink, h]

/-- A die without a model, without its link or in reset gives measured currents (R225). -/
theorem secondStage_measures (hclk : s.clk.started = true) (hd : isPresent s d = true)
    (h : (estOf s d).coreOn = false ∧ (estOf s d).turn = none ∨ (linkOf s d).lost = true ∨ dieInReset s d = true) :
    ∃ t, exec .secondStage s = .next t ∧ get t (R.EST_DIE_STAT.SUBST d) = 1 ∧ get t (R.EST_OUT.I d 0) = ofSigned 32 (irail s d) ∧
      get t (R.EST_OUT.I d 1) = ofSigned 32 (irail s (16 + d)) ∧ get t (R.EST_OUT.I d 3) = 0 ∧
      get t (R.EST_DIE_TS.TIME d) = now s % 2 ^ 64 := by
  have hd16 := lt_of_present hd
  obtain ⟨u, w, hexec, hu, hw, hnone⟩ := secondStage_publishes hclk hd
  have hsub : substituted (judgeFrame d u) d = true := by
    rw [substituted_judgeFrame, hu.link, hu.reset]
    rcases h with ⟨hoff, hturn⟩ | hlost | hreset
    · simp [(hnone hturn).est, hoff]
    · simp [hlost]
    · simp [hreset]
  have hout : ∀ k < 4, InEst d (R.EST_OUT.I d k) := fun k hk => inEst_output hd16 hk (by simp [outputFields])
  have hrail : ∀ r, irail u r = irail s r := fun r => by rw [irail, irail, railOf_of hu.rails]
  obtain ⟨hsubst, htime, -⟩ := publishEstimate_shows hd16 u
  obtain ⟨h0, h1, h3⟩ := publishEstimate_measured hd16 hsub
  refine ⟨_, hexec, ?_, ?_, ?_, ?_, ?_⟩
  · rw [get_stageEnd hw hd16 (inEst_shown d hd16 _ (by simp [inputFields])), hsubst, hsub]
    rfl
  · rw [get_stageEnd hw hd16 (hout 0 (by decide)), h0, hrail]
  · rw [get_stageEnd hw hd16 (hout 1 (by decide)), h1, hrail]
  · rw [get_stageEnd hw hd16 (hout 3 (by decide)), h3]
  · rw [get_stageEnd hw hd16 (inEst_shown d hd16 _ (by simp [inputFields])), htime, hu.now]

/-- The judging of a frame in time leaves what the model computes with. -/
theorem ModelShown.of_inTime (hstays : StageStays d s u) (hold : s.estp.linkOld = none) (e : EstD)
    (he : e.banks = (estOf s d).banks ∧ e.core = (estOf s d).core ∧ e.hCore = (estOf s d).hCore ∧ e.pair0 = (estOf s d).pair0 ∧
      e.pair1 = (estOf s d).pair1) (h : ModelShown (setEst d e u) t d k) : ModelShown s t d k := by
  obtain ⟨hbanks, hcore, hhidden, h0, h1⟩ := he
  have hmodel : coreModel (setEst d e u) d = coreModel s d := by
    rw [coreModel, bankPkg, estOf_setEst, hbanks, hcore]
    rfl
  have hdies : nDies (setEst d e u) = nDies u := rfl
  have htrim : trimOf (setEst d e u) d k = trimOf s d k := by
    unfold trimOf
    dsimp only
    rw [estOf_setEst, h0, h1, hmodel, setEst_estp, hstays.old hold, hold, Option.getD_none, Option.getD_none, hstays.codes, hdies, hstays.nDies]
  rw [ModelShown, hmodel, estOf_setEst, hhidden, htrim] at h
  exact h

/-- A die with a model and a frame in time gives the trimmed estimate (R214, R216, R223). -/
theorem secondStage_estimates (hclk : s.clk.started = true) (hd : isPresent s d = true) (hon : (estOf s d).coreOn = true)
    (hturn : (estOf s d).turn = none) (hold : s.estp.linkOld = none) (hlost : (linkOf s d).lost = false) (hreset : dieInReset s d = false)
    (htime : (estOf s d).inTime = true) :
    ∃ t, exec .secondStage s = .next t ∧ get t (R.EST_DIE_STAT.SUBST d) = 0 ∧ (estOf t d).inTime = false ∧ (estOf t d).lateRun = 0 ∧
      ∀ o < 4, ModelShown s t d o := by
  have hd16 := lt_of_present hd
  obtain ⟨u, w, hexec, hu, hw, hnone⟩ := secondStage_publishes hclk hd
  have hstays := hnone hturn
  have hjudged := judgeFrame_inTime (s := u) (d := d) (hstays.est ▸ hon) (hu.reset.trans hreset) (hstays.est ▸ htime)
  have hsub : substituted (judgeFrame d u) d = false := by
    rw [substituted_judgeFrame, hjudged, estOf_setEst, hstays.est, hu.link, hu.reset, hon, hlost, hreset]
    rfl
  obtain ⟨p, q, due, hest⟩ := estOf_publishEstimate (s := u) (d := d)
  have hend : estOf (cycleEnded w) d = estOf (publishEstimate d u) d := (estOf_cycleEnded w d).trans hw.est
  refine ⟨_, hexec, ?_, ?_, ?_, fun o ho => ?_⟩
  · rw [get_stageEnd hw hd16 (inEst_shown d hd16 _ (by simp [inputFields])), (publishEstimate_shows hd16 u).1, hsub]
    rfl
  · rw [hend, hest, hjudged, estOf_setEst]
  · rw [hend, hest, hjudged, estOf_setEst]
  · have hmodelled := publishEstimate_modelled hd16 hsub ho
    rw [hjudged] at hmodelled
    refine ModelShown.of_gets (.of_inTime hstays hold _ ?_ hmodelled) fun f hf => get_stageEnd hw hd16 (inEst_output hd16 ho hf)
    rw [hstays.est]
    exact ⟨rfl, rfl, rfl, rfl, rfl⟩

/-- A late frame is counted (R223). -/
theorem secondStage_counts_late (hclk : s.clk.started = true) (hd : isPresent s d = true) (hon : (estOf s d).coreOn = true)
    (hreset : dieInReset s d = false) (htime : (estOf s d).inTime = false) :
    ∃ t, exec .secondStage s = .next t ∧ get t (R.EST_DIE_CNT.LATE d) = min 65535 (get s (R.EST_DIE_CNT.LATE d) + 1) ∧
      (estOf t d).lateRun = min 4 ((estOf s d).lateRun + 1) ∧ bit (get t R.EST_EVENT) 6 = true := by
  have hd16 := lt_of_present hd
  obtain ⟨u, w, hexec, hu, hw, -⟩ := secondStage_publishes hclk hd
  obtain ⟨on, core, turn, p, q, hest⟩ := hu.est
  have hjudged := judgeFrame_late (s := u) (d := d) (by rw [hest, hon]; rfl) (hu.reset.trans hreset) (by rw [hest, htime])
  obtain ⟨p', q', due, hpub⟩ := estOf_publishEstimate (s := u) (d := d)
  have hne : fieldKey R.EST_EVENT ≠ fieldKey (R.EST_DIE_CNT.LATE d) :=
    key_ne_of_lt (by decide) (by simp only [R.EST_DIE_CNT.LATE]; omega) (by simp only [R.EST_EVENT, R.EST_DIE_CNT.LATE]; omega)
  refine ⟨_, hexec, ?_, ?_, ?_⟩
  · rw [get_stageEnd hw hd16 (inEst_shown d hd16 _ (.head _)), get_publishEstimate_late hd16 (.tail _ (.head _)), hjudged, get_event_ne hne,
      get_addSat_self (by nofun), get_spoilTrim, get_setEst, hu.counts _ (.tail _ (.head _))]
    rfl
  · rw [estOf_cycleEnded, hw.est, hpub]
    dsimp only
    rw [hjudged, estOf_lateCounted, lateRun_spoilTrim, estOf_setEst, hest]
  · have hset : bit (get (judgeFrame d u) R.EST_EVENT) 6 = true := by
      rw [hjudged]
      exact bit_event_self (by nofun) (by decide) _
    rw [get_cycleEnded (by decide) (by decide)]
    refine hw.late ?_
    rw [get_publishEstimate_late hd16 (.head _)]
    exact hset

/-- PREV_VALID tells of the other bank (R255). -/
theorem secondStage_shows_bank (hclk : s.clk.started = true) (hd : isPresent s d = true) :
    ∃ t, exec .secondStage s = .next t ∧ get t (R.EST_DIE_STAT.PREV_VALID d) = b2n (otherBank s d) := by
  have hd16 := lt_of_present hd
  obtain ⟨u, w, hexec, hu, hw, -⟩ := secondStage_publishes hclk hd
  obtain ⟨on, core, turn, p, q, hest⟩ := hu.est
  refine ⟨_, hexec, ?_⟩
  rw [get_stageEnd hw hd16 (inEst_shown d hd16 _ (by simp [inputFields])), (publishEstimate_shows hd16 u).2.2, otherBank, hest, otherBank]

/-- What the last trim window came to (R232, R255). -/
theorem secondStage_shows_trim (hclk : s.clk.started = true) (hd : isPresent s d = true) :
    ∃ t, exec .secondStage s = .next t ∧ get t (R.EST_DIE_STAT.TRIM_HOLD d) = b2n (estOf s d).hold ∧
      get t (R.EST_DIE_CNT.SKIP d) = min 65535 (get s (R.EST_DIE_CNT.SKIP d) + (estOf s d).skips) := by
  have hd16 := lt_of_present hd
  obtain ⟨u, w, hexec, hu, hw, -⟩ := secondStage_publishes hclk hd
  obtain ⟨on, core, turn, p, q, hest⟩ := hu.est
  obtain ⟨hhold, hskip⟩ := publishEstimate_shows_trim hd16 u
  refine ⟨_, hexec, ?_, ?_⟩
  · rw [get_stageEnd hw hd16 (inEst_shown d hd16 _ (by simp [trimFields])), hhold, hest]
  · rw [get_stageEnd hw hd16 (inEst_shown d hd16 _ (by simp [trimFields])), hskip, hest, hu.counts _ (.head _)]

theorem apart_model : ∀ d < 16, ∀ f ∈ R.EST_EVENT :: R.EST_DIE_CNT.LATE d :: (inputFields d ++ trimFields d),
    fieldKey f ≠ fieldKey (R.EST_DIE_MODEL.ID d) := by
  decide

theorem get_publishEstimate_model (hd : d < 16) : get (publishEstimate d s) (R.EST_DIE_MODEL.ID d) = get s (R.EST_DIE_MODEL.ID d) := by
  have hout : ∀ k < 4, ∀ f ∈ outputFields d k, fieldKey f ≠ fieldKey (R.EST_DIE_MODEL.ID d) := fun k hk f hf => by
    have h := place_outputFields hd hk hf
    exact key_ne_of_lt (by omega) (by simp only [R.EST_DIE_MODEL.ID]; omega) (by simp only [R.EST_DIE_MODEL.ID]; omega)
  rw [get_publishEstimate_judged (fun f hf => apart_model d hd f (.tail _ (.tail _ hf))) hout,
    get_judgeFrame (apart_model d hd _ (.tail _ (.head _))) (apart_model d hd _ (.head _))]

/-- The core follows a switch that its window has come to (R242, R243). -/
theorem secondStage_follows {n : Nat} (hclk : s.clk.started = true) (hd : isPresent s d = true) (hturn : (estOf s d).turn = some n)
    (hn : n ≤ (estOf s d).due) : ∃ t, exec .secondStage s = .next t ∧ (estOf t d).core = (estOf s d).active ∧ (estOf t d).coreOn = true ∧
      get t (R.EST_DIE_MODEL.ID d) = leAt (model s d) 0x14 4 % 2 ^ 32 := by
  have hd16 := lt_of_present hd
  obtain ⟨v, u, w, hexec, hv, hu, hw⟩ := secondStage_die hclk hd
  obtain ⟨⟨p, q, hest⟩, -, s', -, hshown⟩ := takeTurn_due (hv.est ▸ hturn) (hv.est ▸ hn)
  obtain ⟨p₁, q₁, due, hpub⟩ := estOf_publishEstimate (s := u) (d := d)
  obtain ⟨time, run, stale, p₂, q₂, hjudged⟩ := estOf_judgeFrame (s := u) (d := d)
  have hid : InEst d (R.EST_DIE_MODEL.ID d) := inEst_shown d hd16 _ (.tail _ (.head _))
  have hmodel : model v d = model s d := by rw [model, bankPkg, hv.est, model, bankPkg]
  refine ⟨_, hexec, ?_, ?_, ?_⟩
  · rw [estOf_cycleEnded, hw.est, hpub, hjudged, hu.est, hest, hv.est]
    rfl
  · rw [estOf_cycleEnded, hw.est, hpub, hjudged, hu.est, hest]
    rfl
  · rw [get_stageEnd hw hd16 hid, get_publishEstimate_model hd16, hu.regs _ (.inl hid), hshown, hmodel]
    exact get_putAll (fields_shownModel d _ ▸ (by decide : ∀ d < 16, (modelFields d).Pairwise fun f g => fieldKey g ≠ fieldKey f) d hd16)
      (.head _) (by nofun) s'

end

end Sys2Proof.Machine

namespace Sys2Proof.Machine

/-- Settles O10: each clause is a rule about the instruction. SECOND_STAGE is taken apart for one die: the other dies' turns, its own, the
other dies' publications, its own; nothing of what its estimate is formed of changes between. -/
theorem estimatorPublishes : Obligations.EstimatorPublishes := by
  unfold Obligations.EstimatorPublishes
  refine ⟨fun s d k v hclk hd hreset hk => counterLatch_latches hclk hd hreset hk v, fun s d => firstLayerDone_sends,
    fun s d fr hfr hlen => ?_, fun s d fr w hfr hw => ?_, fun s d => secondStage_measures, fun s d => secondStage_estimates,
    fun s d => secondStage_counts_late, fun s d => secondStage_shows_bank⟩
  · obtain ⟨t, hexec, hseq, hest⟩ := estimateFrame_accepted hfr (estOf s d).due
    rw [if_pos ⟨hlen, rfl⟩] at hest
    exact ⟨t, hexec, by rw [hest], by rw [hest], hseq⟩
  · obtain ⟨t, hexec, hseq, hest⟩ := estimateFrame_accepted hfr w
    rw [if_neg (by omega)] at hest
    exact ⟨t, hexec, hest, hseq⟩

end Sys2Proof.Machine

/-! Drift trim: windows that end, and pairs reset (R227 to R232, R252). -/

namespace Sys2Proof.Machine

section

variable {s t u v w : State} {d e k : Nat} {g : Field}

/-! The end of a pair's window (R227 to R232). -/

/-- One pair of die d at the end of its window: updated, or skipped. -/
def endPair (d : Nat) (on : Bool) (us : Nat) (p : Pair) (set : Pair → EstD → EstD) (s : State) : State :=
  match trimPair s on p with
  | some (q, c, r) => s |> setEst d (set (newWindow us q) (estOf s d)) |> trimEvents c r
  | none => setEst d (set (newWindow us p) { estOf s d with skips := (estOf s d).skips + 1, hold := true }) s

def withPair0 (p : Pair) (e : EstD) : EstD := { e with pair0 := p }
def withPair1 (p : Pair) (e : EstD) : EstD := { e with pair1 := p }

theorem trimDie_eq (hon : (estOf s d).coreOn = true) (hover : windowOver s (estOf s d).pair0 = true) : trimDie d s =
    (s |> setEst d { estOf s d with hold := false }
      |> endPair d (isOn s R.EST_CTRL.TRIM_EN) (windowEnd s (estOf s d).pair0) (estOf s d).pair0 withPair0
      |> endPair d (isOn s R.EST_CTRL.TRIM_EN) (windowEnd s (estOf s d).pair0) (estOf s d).pair1 withPair1) :=
  if_neg (by simp [hon, hover])

variable {on : Bool} {us : Nat} {p : Pair} {set : Pair → EstD → EstD}

theorem trimPair_good (hspoiled : p.spoiled = false) (hcycles : 0 < p.cycles) (hevals : 0 < p.evals) :
    trimPair s true p = some (updatePair s p) :=
  if_neg (by simp [hspoiled]; omega)

theorem trimPair_skip (h : on = false ∨ p.spoiled = true) : trimPair s on p = none :=
  if_pos (by rcases h with h | h <;> simp [h])

theorem estOf_trimEvents (c r : Bool) (s : State) (d : Nat) : estOf (trimEvents c r s) d = estOf s d :=
  estOf_of ((foot_trimEvents (Print.Sub.refl _) (Within.refl _ s)).parts .estd (by decide) (by decide)) d

theorem get_trimEvents (h : fieldKey R.EST_EVENT ≠ fieldKey g) (c r : Bool) (s : State) : get (trimEvents c r s) g = get s g :=
  (foot_trimEvents (Print.Sub.refl _) (Within.refl _ s)).get (by
    simp only [fp_trimEvents, Print.free_cons, Print.free_nil, Print.free_reg, and_true]
    exact h)

theorem estOf_endPair_good (h : trimPair s on p = some (updatePair s p)) :
    estOf (endPair d on us p set s) d = set (newWindow us (updatePair s p).1) (estOf s d) := by
  rw [endPair, h, estOf_trimEvents, estOf_setEst]

theorem estOf_endPair_skip (h : trimPair s on p = none) :
    estOf (endPair d on us p set s) d = set (newWindow us p) { estOf s d with skips := (estOf s d).skips + 1, hold := true } := by
  rw [endPair, h, estOf_setEst]

theorem get_endPair (h : fieldKey R.EST_EVENT ≠ fieldKey g) : get (endPair d on us p set s) g = get s g := by
  rw [endPair]
  split
  · exact (get_trimEvents h _ _ _).trans (get_setEst ..)
  · exact get_setEst ..

/-- The settings that an update reads (R228 to R231). -/
def trimSettings : List Field :=
  [R.EST_CTRL.FF, R.EST_TRIM_P0G.P0, R.EST_TRIM_P0O.P0, R.EST_TRIM_OFS.OFS_MAX, R.EST_TRIM_GAIN.GAIN_MIN, R.EST_TRIM_GAIN.GAIN_MAX,
   R.EST_TRIM_PMAX.PMAX]

theorem updatePair_of_settings (h : ∀ f ∈ trimSettings, get t f = get s f) (p : Pair) : updatePair t p = updatePair s p := by
  simp only [trimSettings, List.forall_mem_cons, List.not_mem_nil, false_implies, implies_true, and_true] at h
  obtain ⟨hff, hp0g, hp0o, hofs, hmin, hmax, hpmax⟩ := h
  simp only [updatePair, hff, hp0g, hp0o, hofs, hmin, hmax, hpmax]

theorem sparedBy_setting : ∀ f ∈ R.EST_CTRL.TRIM_EN :: trimSettings, SparedBy d f := by
  have hplace : ∀ f ∈ R.EST_CTRL.TRIM_EN :: trimSettings, f.off * 32 + f.lo < 0x060018 * 32 := by decide
  exact fun f hf => .inr (.inl (hplace f hf))

theorem event_ne_setting : ∀ f ∈ R.EST_CTRL.TRIM_EN :: trimSettings, fieldKey R.EST_EVENT ≠ fieldKey f := by decide

/-- Both pairs of a die are updated where both are good (R228 to R231). -/
theorem estOf_trimDie_good (hon : (estOf s d).coreOn = true) (hover : windowOver s (estOf s d).pair0 = true)
    (hen : isOn s R.EST_CTRL.TRIM_EN = true) (h0 : ∀ u, trimPair u true (estOf s d).pair0 = some (updatePair u (estOf s d).pair0))
    (h1 : ∀ u, trimPair u true (estOf s d).pair1 = some (updatePair u (estOf s d).pair1)) :
    estOf (trimDie d s) d =
      { estOf s d with pair0 := newWindow (windowEnd s (estOf s d).pair0) (updatePair s (estOf s d).pair0).1,
                       pair1 := newWindow (windowEnd s (estOf s d).pair0) (updatePair s (estOf s d).pair1).1, hold := false } := by
  have hset : ∀ e : EstD, ∀ f ∈ trimSettings, get (setEst d e s) f = get s f := fun _ _ _ => get_setEst ..
  have hstep : ∀ e : EstD, ∀ f ∈ trimSettings,
      get (endPair d true (windowEnd s (estOf s d).pair0) (estOf s d).pair0 withPair0 (setEst d e s)) f = get s f := fun e f hf =>
    (get_endPair (event_ne_setting f (.tail _ hf))).trans (hset e f hf)
  rw [trimDie_eq hon hover, hen, estOf_endPair_good (h1 _), estOf_endPair_good (h0 _), estOf_setEst, updatePair_of_settings (hset _),
    updatePair_of_settings (hstep _)]
  rfl

/-- Both are skipped where updates are off or both are spoiled (R232). -/
theorem estOf_trimDie_skip (hon : (estOf s d).coreOn = true) (hover : windowOver s (estOf s d).pair0 = true)
    (h : isOn s R.EST_CTRL.TRIM_EN = false ∨ (estOf s d).pair0.spoiled = true ∧ (estOf s d).pair1.spoiled = true) :
    estOf (trimDie d s) d =
      { estOf s d with pair0 := newWindow (windowEnd s (estOf s d).pair0) (estOf s d).pair0,
                       pair1 := newWindow (windowEnd s (estOf s d).pair0) (estOf s d).pair1, hold := true,
                       skips := (estOf s d).skips + 2 } := by
  rw [trimDie_eq hon hover, estOf_endPair_skip (trimPair_skip (h.imp_right And.right)),
    estOf_endPair_skip (trimPair_skip (h.imp_right And.left)), estOf_setEst]
  rfl

/-- The link pair's part of TRIM_UPDATE. -/
def linkTrimmed (s : State) : State :=
  if ((dies s).any fun d => (estOf s d).coreOn) && windowOver s s.estp.link then
    match trimPair s (isOn s R.EST_CTRL.LINK_TRIM_EN) s.estp.link with
    | some (q, c, r) => s |> setLinkPair (newWindow (windowEnd s s.estp.link) q) |> trimEvents c r
    | none => s |> setLinkPair (newWindow (windowEnd s s.estp.link) s.estp.link) |> addSat R.EST_LINK_TRIM.SKIP 1
  else s

theorem effTrimUpdate_eq (s : State) : effTrimUpdate s = linkTrimmed (each (dies s) trimDie s) := rfl

theorem estOf_setLinkPair (p : Pair) (s : State) (d : Nat) : estOf (setLinkPair p s) d = estOf s d :=
  estOf_of ((foot_setLinkPair (Print.Sub.refl _) (Within.refl _ s)).parts .estd (by decide) (by decide)) d

theorem estOf_linkTrimmed (s : State) (d : Nat) : estOf (linkTrimmed s) d = estOf s d := by
  unfold linkTrimmed
  split
  · split
    · rw [estOf_trimEvents, estOf_setLinkPair]
    · rw [addSat, estOf_of (put_estd ..), estOf_setLinkPair]
  · rfl

/-- TRIM_UPDATE as one die sees it. -/
theorem trimUpdate_die (hd : isPresent s d = true) :
    ∃ u t, exec .trimUpdate s = .next t ∧ DieStays d s u ∧ estOf t d = estOf (trimDie d u) d := by
  obtain ⟨u, hbefore, hafter⟩ := DieStays.each trimDie (mem_dies hd) (nodup_dies s)
    (fun e _ hne u => .trimDie (lt_of_present hd) hne u) s
  refine ⟨u, _, congrArg done (effTrimUpdate_eq s), hbefore, ?_⟩
  rw [estOf_finish, estOf_linkTrimmed, hafter.est]

theorem windowOver_of_stays (h : DieStays d s u) (p : Pair) : windowOver u p = windowOver s p ∧ windowEnd u p = windowEnd s p := by
  rw [windowOver, windowEnd, h.us]
  exact ⟨rfl, rfl⟩

/-- TRIM_UPDATE updates the pairs of a good window (R227 to R231). -/
theorem trimUpdate_updates (hd : isPresent s d = true) (hon : (estOf s d).coreOn = true) (hover : windowOver s (estOf s d).pair0 = true)
    (hen : isOn s R.EST_CTRL.TRIM_EN = true) (h0 : ∀ u, trimPair u true (estOf s d).pair0 = some (updatePair u (estOf s d).pair0))
    (h1 : ∀ u, trimPair u true (estOf s d).pair1 = some (updatePair u (estOf s d).pair1)) :
    ∃ t, exec .trimUpdate s = .next t ∧ estOf t d =
      { estOf s d with pair0 := newWindow (windowEnd s (estOf s d).pair0) (updatePair s (estOf s d).pair0).1,
                       pair1 := newWindow (windowEnd s (estOf s d).pair0) (updatePair s (estOf s d).pair1).1, hold := false } := by
  obtain ⟨u, t, hexec, hu, ht⟩ := trimUpdate_die hd
  obtain ⟨hover', hend⟩ := windowOver_of_stays hu (estOf s d).pair0
  have hen' : isOn u R.EST_CTRL.TRIM_EN = true := by rw [isOn, hu.regs _ (sparedBy_setting _ (.head _)), ← isOn, hen]
  have hgood := estOf_trimDie_good (s := u) (d := d) (hu.est ▸ hon) (by rw [hu.est, hover', hover]) hen' (hu.est ▸ h0) (hu.est ▸ h1)
  have hupdate := updatePair_of_settings fun f hf => hu.regs f (sparedBy_setting (d := d) f (.tail _ hf))
  rw [hu.est, hend, hupdate, hupdate] at hgood
  exact ⟨t, hexec, ht.trans hgood⟩

/-- TRIM_UPDATE skips the pairs of another (R232). -/
theorem trimUpdate_skips (hd : isPresent s d = true) (hon : (estOf s d).coreOn = true) (hover : windowOver s (estOf s d).pair0 = true)
    (h : get s R.EST_CTRL.TRIM_EN = 0 ∨ (estOf s d).pair0.spoiled = true ∧ (estOf s d).pair1.spoiled = true) :
    ∃ t, exec .trimUpdate s = .next t ∧ estOf t d =
      { estOf s d with pair0 := newWindow (windowEnd s (estOf s d).pair0) (estOf s d).pair0,
                       pair1 := newWindow (windowEnd s (estOf s d).pair0) (estOf s d).pair1, hold := true,
                       skips := (estOf s d).skips + 2 } := by
  obtain ⟨u, t, hexec, hu, ht⟩ := trimUpdate_die hd
  obtain ⟨hover', hend⟩ := windowOver_of_stays hu (estOf s d).pair0
  have hen : get u R.EST_CTRL.TRIM_EN = get s R.EST_CTRL.TRIM_EN := hu.regs _ (sparedBy_setting _ (.head _))
  have hskip := estOf_trimDie_skip (s := u) (d := d) (hu.est ▸ hon) (by rw [hu.est, hover', hover])
    (by rw [hu.est]; exact h.imp_left fun hoff => by simp [isOn, hen, hoff])
  rw [hu.est, hend] at hskip
  exact ⟨t, hexec, ht.trans hskip⟩

end

end Sys2Proof.Machine

/-! TRIM_RESET, and what a completion leaves of the estimator (R243, R252). -/

namespace Sys2Proof.Machine

section

variable {s t u v w : State} {d e m om k port tag : Nat} {g : Field} {fl : Flight}

theorem estOf_complete (fl : Flight) (st r0 r1 : Nat) (s : State) (d : Nat) : estOf (complete fl st r0 r1 s) d = estOf s d :=
  estOf_of ((foot_complete (Print.Sub.refl _) (Within.refl _ s)).parts .estd (by decide) (by decide)) d

theorem estp_complete (fl : Flight) (st r0 r1 : Nat) (s : State) : (complete fl st r0 r1 s).estp = s.estp :=
  (foot_complete (Print.Sub.refl _) (Within.refl _ s)).parts .estp (by decide) (by decide)

theorem estp_finish (s : State) : (finish s).estp = s.estp := (Within.finish s).parts .estp (by decide) (by decide)

/-- The lowest bit of a mask heads the list of its bits. -/
theorem headD_bitList {n : Nat} (hd : d < n) (h : bit m d = true) (hlow : ∀ e < d, bit m e = false) : (bitList n m).headD 0 = d := by
  have hfind : (List.range n).find? (bit m) = some d := by
    rw [List.find?_range_eq_some]
    exact ⟨h, List.mem_range.2 hd, fun e he => by simp [hlow e he]⟩
  rw [bitList, List.headD_eq_head?_getD, List.head?_filter, hfind]
  rfl

/-- The pairs of die d at the initial values of the core's model, for the outputs of a mask. -/
def resetPairs (om d : Nat) (s : State) : State :=
  let e := estOf s d
  let (g0, o0) := initTrim (coreModel s d) 0
  let (g1, o1) := initTrim (coreModel s d) 1
  setEst d { e with pair0 := if bit om 0 then freshPair s g0 o0 e.pair0 else e.pair0,
                    pair1 := if bit om 1 then freshPair s g1 o1 e.pair1 else e.pair1 } s

/-- The link pair at the initial values of the active model of die d, from the next cycle on. -/
def linkReset (d : Nat) (s : State) : State := s |> activateLink d |> setLinkOld none

/-- What TRIM_RESET does to the pairs of a list of dies, and of the link pair. -/
def pairsReset (ds : List Nat) (om : Nat) (s : State) : State := s |> each ds (resetPairs om) |> when (bit om 2) (linkReset (ds.headD 0))

theorem setLinkPair_eq (p : Pair) (s : State) : setLinkPair p s =
    put R.EST_LINK_OFS.OFS (ofSigned 32 (pairCodes p).2)
      (put R.EST_LINK_TRIM.GAIN (pairCodes p).1 { s with estp := { s.estp with link := p } }) := by
  unfold setLinkPair putI
  generalize pairCodes p = c
  obtain ⟨g, o⟩ := c
  rfl

theorem activateLink_eq (d : Nat) (s : State) : activateLink d s =
    setLinkPair (freshPair s (initTrim (model s d) 2).1 (initTrim (model s d) 2).2 s.estp.link) s := by
  unfold activateLink
  generalize initTrim (model s d) 2 = c
  obtain ⟨g, o⟩ := c
  rfl

theorem estp_setLinkOld (o : Option (Nat × Int)) (s : State) : (setLinkOld o s).estp = { s.estp with linkOld := o } := rfl

theorem estp_setLinkPair (p : Pair) (s : State) : (setLinkPair p s).estp = { s.estp with link := p } := by
  rw [setLinkPair_eq, put_estp, put_estp]

theorem estOf_linkReset (d e : Nat) (s : State) : estOf (linkReset d s) e = estOf s e := by
  rw [linkReset, estOf_setLinkOld, activateLink_eq, estOf_setLinkPair]

theorem estp_linkReset (d : Nat) (s : State) : (linkReset d s).estp =
    { s.estp with link := freshPair s (initTrim (model s d) 2).1 (initTrim (model s d) 2).2 s.estp.link, linkOld := none } := by
  rw [linkReset, estp_setLinkOld, activateLink_eq, estp_setLinkPair]

theorem estOf_resetPairs (om d : Nat) (s : State) : estOf (resetPairs om d s) d =
    { estOf s d with
      pair0 := if bit om 0 then freshPair s (initTrim (coreModel s d) 0).1 (initTrim (coreModel s d) 0).2 (estOf s d).pair0
        else (estOf s d).pair0
      pair1 := if bit om 1 then freshPair s (initTrim (coreModel s d) 1).1 (initTrim (coreModel s d) 1).2 (estOf s d).pair1
        else (estOf s d).pair1 } := estOf_setEst ..

theorem freshPair_of_stays (h : DieStays d s u) (g : Nat) (o : Int) (p : Pair) : freshPair u g o p = freshPair s g o p := by
  rw [freshPair, freshPair, h.regs _ (sparedBy_setting _ (by simp [trimSettings])), h.regs _ (sparedBy_setting _ (by simp [trimSettings]))]

/-- The pairs of a die of the list are reset (R252). -/
theorem estOf_each_resetPairs {ds : List Nat} (hd : d ∈ ds) (hds : ds.Nodup) (om : Nat) (s : State) :
    estOf (each ds (resetPairs om) s) d = estOf (resetPairs om d s) d := by
  obtain ⟨u, hbefore, hafter⟩ := DieStays.each (resetPairs om) hd hds (fun e _ hne u => .setEst hne _ u) s
  rw [hafter.est, estOf_resetPairs, estOf_resetPairs, freshPair_of_stays hbefore, freshPair_of_stays hbefore, coreModel, bankPkg, hbefore.est,
    ← bankPkg, ← coreModel]

theorem estOf_pairsReset (ds : List Nat) (om : Nat) (s : State) (d : Nat) :
    estOf (pairsReset ds om s) d = estOf (each ds (resetPairs om) s) d := by
  unfold pairsReset
  generalize each ds (resetPairs om) s = w
  cases bit om 2
  · rw [when_false]
  · rw [when_true, estOf_linkReset]

/-- The link pair is reset to the initial values of the model of the lowest die (R252). -/
theorem estp_pairsReset {ds : List Nat} (hhead : ds.headD 0 = d) (hd : d ∈ ds) (hds : ds.Nodup) (h : bit om 2 = true) (s : State) :
    (pairsReset ds om s).estp.link = freshPair s (initTrim (model s d) 2).1 (initTrim (model s d) 2).2 s.estp.link ∧
      (pairsReset ds om s).estp.linkOld = none := by
  have hestp : (each ds (resetPairs om) s).estp = s.estp := each_keeps (f := resetPairs om) (φ := State.estp) (fun _ _ => rfl) ds s
  have hregs : (each ds (resetPairs om) s).regs = s.regs := each_keeps (f := resetPairs om) (φ := State.regs) (fun _ _ => rfl) ds s
  have hmodel : model (each ds (resetPairs om) s) d = model s d := by
    rw [model, bankPkg, estOf_each_resetPairs hd hds, estOf_resetPairs, model, bankPkg]
  have hfresh : ∀ g o p, freshPair (each ds (resetPairs om) s) g o p = freshPair s g o p := fun g o p => by
    rw [freshPair, get_of_regs hregs, get_of_regs hregs, freshPair]
  rw [pairsReset, hhead, h, when_true, estp_linkReset, hfresh, hmodel, hestp]
  exact ⟨rfl, rfl⟩

theorem Unanswered.setLinkPair (p : Pair) (s : State) : Unanswered s (setLinkPair p s) := by
  rw [setLinkPair_eq]
  have hpair : Unanswered s { s with estp := { s.estp with link := p } } := .of_eq rfl rfl
  exact hpair.trans (.trans (.put (f := R.EST_LINK_TRIM.GAIN) (by decide) _ _) (.put (f := R.EST_LINK_OFS.OFS) (by decide) _ _))

theorem Unanswered.setLinkOld (o : Option (Nat × Int)) (s : State) : Unanswered s (setLinkOld o s) := .of_eq rfl rfl

theorem Unanswered.linkReset (d : Nat) (s : State) : Unanswered s (linkReset d s) := by
  rw [Machine.linkReset, activateLink_eq]
  exact (Unanswered.setLinkPair _ s).trans (.setLinkOld _ _)

theorem Unanswered.pairsReset (ds : List Nat) (om : Nat) (s : State) : Unanswered s (pairsReset ds om s) :=
  have hpairs : Unanswered s (Machine.each ds (resetPairs om) s) := .each (fun _ _ u => .of_eq (t := resetPairs om _ u) rfl rfl) s
  hpairs.trans (.when (.linkReset _ _) _)

theorem lt_of_bit {n : Nat} (h : m < 2 ^ n) (hd : bit m d = true) : d < n := by
  by_contra hge
  have hlt : m < 2 ^ d := h.trans_le (Nat.pow_le_pow_right (by decide) (Nat.le_of_not_lt hge))
  simp [bit, Nat.shiftRight_eq_div_pow, Nat.div_eq_of_lt hlt] at hd

theorem nDies_le (s : State) : nDies s ≤ 16 := Nat.min_le_left ..

/-- TRIM_RESET resets the pairs that its masks name (R252). -/
theorem trimReset_resets (hw : Waiting s 0x0406 port tag fl) (hpar : par fl 0 = m + om * 2 ^ 16) (hm : 0 < m) (hdies : m < 2 ^ nDies s)
    (hom : 0 < om) (hom16 : om < 16) (hactive : ∀ d, bit m d = true → isOn s (R.EST_DIE_STAT.ACTIVE d) = true) :
    exec (.trimReset port tag) s = .next (finish (complete fl sOK 0 0 (pairsReset (bitList 16 m) om s))) := by
  have hm16 : m < 2 ^ 16 := hdies.trans_le (Nat.pow_le_pow_right (by decide) (nDies_le s))
  have hmask : bits (par fl 0) 0 16 = m := by
    rw [hpar, bits, Nat.shiftRight_zero]
    omega
  have hout : bits (par fl 0) 16 4 = om := by
    rw [hpar, bits, Nat.shiftRight_eq_div_pow]
    omega
  have hgood : badMask s m = false := by
    simp only [badMask, Bool.or_eq_false_iff, decide_eq_false_iff_not]
    omega
  have hall : ((bitList 16 m).any fun d => !isOn s (R.EST_DIE_STAT.ACTIVE d)) = false := by
    simp only [List.any_eq_false, mem_bitList, Bool.not_eq_true']
    rintro d ⟨-, hd⟩
    simp [hactive d hd]
  refine congrArg done ((command_of hw ?_).trans ?_)
  · have hreserved : decide (par fl 0 / 2 ^ 20 ≠ 0) = false := decide_eq_false (by omega)
    have hnone : decide (om = 0) = false := decide_eq_false hom.ne'
    simp only [hreserved, hmask, hout, hgood, hnone, hall, firstFail, Bool.or_false, Bool.false_eq_true, if_false]
  · rw [hmask, hout]
    rfl

end

/-- Settles O11: the pairs of a die are read off its own step of TRIM_UPDATE, which the other dies' steps and the link pair's leave. -/
theorem trimUpdates : Obligations.TrimUpdates := by
  unfold Obligations.TrimUpdates
  refine ⟨fun s d hd hon hover hen hs0 hc0 he0 hs1 hc1 he1 => ?_, fun s d hd hon hover hskip => ?_, fun s d => secondStage_shows_trim,
    fun s port tag fl m om hw hpar hm hdies hom hom16 hactive => ?_⟩
  · obtain ⟨t, hexec, hest⟩ := trimUpdate_updates hd hon hover hen (fun _ => trimPair_good hs0 hc0 he0) (fun _ => trimPair_good hs1 hc1 he1)
    exact ⟨t, hexec, by rw [hest], by rw [hest], by rw [hest], by rw [hest]⟩
  · obtain ⟨t, hexec, hest⟩ := trimUpdate_skips hd hon hover hskip
    exact ⟨t, hexec, by rw [hest], by rw [hest], by rw [hest], by rw [hest]⟩
  · have hmem : ∀ d, bit m d = true → d ∈ bitList 16 m := fun d hd =>
      mem_bitList.2 ⟨(lt_of_bit hdies hd).trans_le (nDies_le s), hd⟩
    refine ⟨_, trimReset_resets hw hpar hm hdies hom hom16 hactive, (Unanswered.pairsReset ..).completed ..,
      fun d hd => ?_, fun d h2 hd hlow => ?_⟩
    · rw [estOf_finish, estOf_complete, estOf_pairsReset, estOf_each_resetPairs (hmem d hd) (nodup_bitList ..), estOf_resetPairs]
      exact ⟨rfl, rfl⟩
    · rw [estp_finish, estp_complete]
      exact estp_pairsReset (headD_bitList (mem_bitList.1 (hmem d hd)).1 hd hlow) (hmem d hd) (nodup_bitList ..) h2 s

end Sys2Proof.Machine

/-! The staging buffer: taken, written, released (R241, R247, R248, R250). -/

namespace Sys2Proof.Machine

/-- A key whose entries were removed reads its default. -/
theorem sget_filter_none {α : Type} (d : α) (k : Nat) (p : Nat × α → Bool) (l : List (Nat × α)) (h : ∀ v, p (k, v) = false) :
    sget d k (l.filter p) = d := by
  induction l with
  | nil => rfl
  | cons e l ih =>
    by_cases hp : p e = true
    · have hne : e.1 ≠ k := by
        rintro rfl
        exact absurd hp (by simp [h e.2])
      rw [List.filter_cons_of_pos hp, sget, if_neg hne, ih]
    · rw [List.filter_cons_of_neg hp, ih]

section

variable {s t u v w : State} {a b d k n o port tag : Nat} {g : Field} {fl : Flight}

/-! Memory (R14, R241). -/

theorem readByte_wipe_self {lo hi : Nat} (h : lo ≤ a ∧ a < hi) (ha : a < 48 * 2 ^ 22) (s : State) : readByte (wipe lo hi s) a = 0 := by
  have hgone : sget (memDefault a) a (wipe lo hi s).mem = memDefault a :=
    sget_filter_none _ a _ s.mem fun v => decide_eq_false (by simp only; omega)
  rw [readByte, hgone, memDefault, if_pos ha]
  rfl

theorem readWord32_of_bytes (h : ∀ i < 4, readByte t (a + i) = readByte s (a + i)) : readWord32 t a = readWord32 s a := by
  rw [readWord32, readWord32]
  exact congrArg leNat (List.map_congr_left fun i hi => h i (List.mem_range.1 hi))

theorem readWord32_writeWords_before {ws : List Nat} (h : b + 4 ≤ a) (s : State) : readWord32 (writeWords a ws s) b = readWord32 s b := by
  induction ws generalizing a s with
  | nil => rfl
  | cons x ws ih => rw [writeWords, ih (by omega), readWord32_writeWord32_ne (.inl h)]

/-- Words written one after the other read as they were written. -/
theorem readWord32_writeWords {ws : List Nat} (hk : k < ws.length) (a : Nat) (s : State) :
    readWord32 (writeWords a ws s) (a + 4 * k) = ws[k] % 2 ^ 32 := by
  induction ws generalizing a k s with
  | nil => exact absurd hk (Nat.not_lt_zero k)
  | cons x ws ih =>
    cases k with
    | zero =>
      rw [writeWords, List.getElem_cons_zero]
      exact (readWord32_writeWords_before le_rfl _).trans (readWord32_writeWord32_self a x s)
    | succ k =>
      have hplace : a + 4 * (k + 1) = a + 4 + 4 * k := by omega
      rw [writeWords, hplace, ih (Nat.lt_of_succ_lt_succ hk), List.getElem_cons_succ]

theorem get_writeWords (a : Nat) (ws : List Nat) (s : State) (g : Field) : get (writeWords a ws s) g = get s g := by
  induction ws generalizing a s with
  | nil => rfl
  | cons x ws ih => rw [writeWords, ih, get_writeWord32]

theorem estp_writeWords (a : Nat) (ws : List Nat) (s : State) : (writeWords a ws s).estp = s.estp :=
  (foot_writeWords (Print.Sub.refl _) (Within.refl _ s)).parts .estp (by decide) (by decide)

theorem stageArea_add (o i : Nat) : stageArea (o + i) = stageArea o + i := (Nat.add_assoc ..).symm

theorem not_inQueue_stageArea (o : Nat) : inQueue (stageArea o) = false :=
  decide_eq_false (by simp only [stageArea]; omega)

/-- A word of the staging buffer after a command that was answered. -/
theorem Completed.readWord32_stage {st r0 r1 : Nat} (h : Completed s t fl st r0 r1) (o : Nat) :
    readWord32 t (stageArea o) = readWord32 s (stageArea o) :=
  readWord32_of_bytes fun i _ => h.readByte (stageArea_add o i ▸ not_inQueue_stageArea (o + i))

/-! The registers of the buffer (R253). -/

theorem get_stage_complete (h : g.off * 32 + g.lo < 0x120000 * 32) (hlost : fieldKey R.REC_LOST.COUNT ≠ fieldKey g)
    (hevent : fieldKey R.REC_EVENT ≠ fieldKey g) (st r0 r1 : Nat) : get (finish (complete fl st r0 r1 s)) g = get s g := by
  rw [get_finish hlost hevent, get_complete h]

/-- The staging buffer given to a port for a length. -/
def stageTaken (port n : Nat) (s : State) : State :=
  s |> wipe (stageArea 0) (stageArea 294912) |> put R.EST_STAGE.OPEN 1 |> put R.EST_STAGE.OWNER port |> put R.EST_STAGE.LEN n |> touchStage

theorem get_touchStage (s : State) (g : Field) : get (touchStage s) g = get s g := rfl

theorem stageTaken_shows (hport : port < 10) (hn : n ≤ 294912) (s : State) : get (stageTaken port n s) R.EST_STAGE.OPEN = 1 ∧
    get (stageTaken port n s) R.EST_STAGE.OWNER = port ∧ get (stageTaken port n s) R.EST_STAGE.LEN = n := by
  rw [stageTaken, get_touchStage, get_touchStage, get_touchStage, get_put_ne (by decide), get_put_ne (by decide), get_put_self (by decide),
    get_put_ne (by decide), get_put_self (by decide), get_put_self (by decide)]
  exact ⟨rfl, Nat.mod_eq_of_lt (by simp only [R.EST_STAGE.OWNER]; omega), Nat.mod_eq_of_lt (by simp only [R.EST_STAGE.LEN]; omega)⟩

theorem get_stageTaken_tail (p : Nat) : get (stageTaken port n s) (R.CMD_CQ_TAIL.TAIL p) = get s (R.CMD_CQ_TAIL.TAIL p) := by
  have hne : ∀ f ∈ [R.EST_STAGE.OPEN, R.EST_STAGE.OWNER, R.EST_STAGE.LEN], fieldKey f ≠ fieldKey (R.CMD_CQ_TAIL.TAIL p) := by
    have hplace : ∀ f ∈ [R.EST_STAGE.OPEN, R.EST_STAGE.OWNER, R.EST_STAGE.LEN], f.off * 32 + f.lo < 0x120000 * 32 := by decide
    exact fun f hf => key_ne_of_lt (by have := hplace f hf; omega) (by simp only [R.CMD_CQ_TAIL.TAIL]; omega)
      (by have := hplace f hf; simp only [R.CMD_CQ_TAIL.TAIL]; omega)
  rw [stageTaken, get_touchStage, get_put_ne (hne _ (by simp)), get_put_ne (hne _ (by simp)), get_put_ne (hne _ (by simp)), get_wipe]

theorem readByte_stageTaken {i : Nat} (hi : i < 294912) : readByte (stageTaken port n s) (stageArea i) = 0 := by
  have hmem : (stageTaken port n s).mem = (wipe (stageArea 0) (stageArea 294912) s).mem := by
    rw [stageTaken, touchStage, put_mem, put_mem, put_mem]
  rw [readByte_of hmem, readByte_wipe_self]
  · simp only [stageArea]
    omega
  · simp only [stageArea]
    omega

/-- MODEL_OPEN takes the staging buffer and clears it (R241, R247). -/
theorem modelOpen_opens (hw : Waiting s 0x0401 port tag fl) (hport : port < 10) (hpar : par fl 0 = n) (hlo : 160 ≤ n) (hhi : n ≤ 294912)
    (height : n % 8 = 0) (hidle : loading s = false) (hfree : get s R.EST_STAGE.OPEN = 0 ∨ ownsStage s port = true) :
    ∃ t, exec (.modelOpen port tag) s = .next t ∧ Answered s t fl sOK 0 0 ∧ get t R.EST_STAGE.OPEN = 1 ∧ get t R.EST_STAGE.OWNER = port ∧
      get t R.EST_STAGE.LEN = n ∧ ∀ i < 294912, readByte t (stageArea i) = 0 := by
  have hrange : decide (n < 160 ∨ 294912 < n ∨ n % 8 ≠ 0) = false := decide_eq_false (by omega)
  have hbusy : (loading s || (isOn s R.EST_STAGE.OPEN && !ownsStage s port)) = false := by
    rcases hfree with h | h
    · simp [hidle, isOn, h]
    · simp [hidle, h]
  have hexec : exec (.modelOpen port tag) s = .next (finish (complete fl sOK 0 0 (stageTaken port n s))) := by
    refine congrArg done ((command_of hw ?_).trans ?_)
    · simp only [hpar, hrange, hbusy, firstFail, Bool.false_eq_true, if_false]
    · rw [hpar]
      rfl
  have hdone := (Unanswered.refl (stageTaken port n s)).completed fl sOK 0 0
  obtain ⟨hopen, howner, hlen⟩ := stageTaken_shows hport hhi s
  refine ⟨_, hexec, hdone.toAnswered.after fun p => get_stageTaken_tail p, ?_, ?_, ?_, fun i hi => ?_⟩
  · rw [get_stage_complete (by decide) (by decide) (by decide), hopen]
  · rw [get_stage_complete (by decide) (by decide) (by decide), howner]
  · rw [get_stage_complete (by decide) (by decide) (by decide), hlen]
  · rw [hdone.readByte (not_inQueue_stageArea i), readByte_stageTaken hi]

/-- The checks of MODEL_WRITE (R248). -/
def writeChecks (s : State) (port : Nat) (fl : Flight) : List (Bool × Nat) :=
  [(decide (par fl 0 / 2 ^ 20 ≠ 0), sRESERVED), (decide (fl.params.length - 1 = 0), sBAD_PARAM), (!ownsStage s port, sWRONG_STATE),
   (decide (par fl 0 % 4 ≠ 0 ∨ get s R.EST_STAGE.LEN < par fl 0 + 4 * (fl.params.length - 1)), sOUT_OF_RANGE)]

/-- The words of a MODEL_WRITE stored in the staging buffer, whose 10 s start anew (R241). -/
def wordsStaged (fl : Flight) (s : State) : State := writeWords (stageArea (par fl 0)) fl.params.tail (touchStage s)

theorem modelWrite_eq (hw : Waiting s 0x0402 port tag fl) (howns : ownsStage s port = true) : exec (.modelWrite port tag) s =
    done (match firstFail (writeChecks s port fl) with
      | some st => complete fl st 0 0 (touchStage s)
      | none => complete fl sOK 0 0 (wordsStaged fl s)) := by
  refine congrArg done ((command_of hw rfl).trans ?_)
  rw [howns, when_true]
  unfold writeChecks
  rw [howns]
  rfl

/-- MODEL_WRITE stores its words (R248). -/
theorem modelWrite_writes (hw : Waiting s 0x0402 port tag fl) (hpar : par fl 0 = o) (hlen : fl.params.length = n + 1) (hn : 0 < n)
    (ho : o < 2 ^ 20) (hfour : o % 4 = 0) (howns : ownsStage s port = true) (hfits : o + 4 * n ≤ get s R.EST_STAGE.LEN) :
    ∃ t, exec (.modelWrite port tag) s = .next t ∧ Answered s t fl sOK 0 0 ∧
      ∀ k < n, readWord32 t (stageArea (o + 4 * k)) = par fl (k + 1) % 2 ^ 32 := by
  have hgood : firstFail (writeChecks s port fl) = none := by
    have hsize : decide (o / 2 ^ 20 ≠ 0) = false := decide_eq_false (by omega)
    have hsome : decide (n = 0) = false := decide_eq_false hn.ne'
    have hrange : decide (o % 4 ≠ 0 ∨ get s R.EST_STAGE.LEN < o + 4 * n) = false := decide_eq_false (by omega)
    simp only [writeChecks, hpar, hlen, Nat.add_sub_cancel, hsize, hsome, hrange, howns, firstFail, Bool.not_true, Bool.false_eq_true, if_false]
  have hdone := (Unanswered.refl (wordsStaged fl s)).completed fl sOK 0 0
  refine ⟨_, by rw [modelWrite_eq hw howns, hgood]; rfl, hdone.toAnswered.after fun p => get_writeWords .., fun k hk => ?_⟩
  have htail : k < fl.params.tail.length := by
    rw [List.length_tail, hlen]
    exact hk
  have hword : fl.params.tail[k] = par fl (k + 1) := by
    rw [List.getElem_tail, par, nth, List.getD_eq_getElem _ _ (by omega)]
  rw [hdone.readWord32_stage, wordsStaged, hpar, stageArea_add, readWord32_writeWords htail, hword]

/-- A MODEL_WRITE of the owner starts the 10 s of the staging buffer anew, whether it fails or not (R241). -/
theorem modelWrite_touches (hw : Waiting s 0x0402 port tag fl) (howns : ownsStage s port = true) :
    ∃ t, exec (.modelWrite port tag) s = .next t ∧ t.estp.stageUs = s.us ∧ flightOf t port tag = none := by
  obtain ⟨rfl, rfl⟩ := flightOf_port hw.flight
  have hanswered : ∀ (st : Nat) (u : State), u.estp.stageUs = s.us →
      (finish (complete fl st 0 0 u)).estp.stageUs = s.us ∧ flightOf (finish (complete fl st 0 0 u)) fl.port fl.tag = none := fun st u hu =>
    ⟨by rw [estp_finish, estp_complete, hu], ((Unanswered.refl u).completed fl st 0 0).gone⟩
  rw [modelWrite_eq hw howns]
  cases firstFail (writeChecks s fl.port fl) with
  | some st => exact ⟨_, rfl, hanswered st _ rfl⟩
  | none => exact ⟨_, rfl, hanswered sOK _ (congrArg EstP.stageUs (estp_writeWords ..))⟩

theorem Unanswered.releaseStage (s : State) : Unanswered s (releaseStage s) :=
  .trans (.put (f := R.EST_STAGE.OPEN) (by decide) 0 s) (.trans (.put (f := R.EST_STAGE.OWNER) (by decide) 0 _)
    (.put (f := R.EST_STAGE.LEN) (by decide) 0 _))

theorem get_releaseStage_open (s : State) : get (releaseStage s) R.EST_STAGE.OPEN = 0 := by
  rw [releaseStage, get_put_ne (by decide), get_put_ne (by decide), get_put_self (by decide)]
  rfl

/-- MODEL_CLOSE releases the staging buffer (R250). -/
theorem modelClose_closes (hw : Waiting s 0x0404 port tag fl) (howns : ownsStage s port = true) :
    ∃ t, exec (.modelClose port tag) s = .next t ∧ Completed s t fl sOK 0 0 ∧ get t R.EST_STAGE.OPEN = 0 := by
  have hgood : firstFail [(!ownsStage s port, sWRONG_STATE)] = none := by
    rw [howns]
    rfl
  refine ⟨_, congrArg done (command_of hw hgood), (Unanswered.releaseStage s).completed .., ?_⟩
  rw [get_stage_complete (by decide) (by decide) (by decide), get_releaseStage_open]

/-- The staging buffer is released 10 s after the owner's last use (R241). -/
theorem stageTimeout_releases (hopen : isOn s R.EST_STAGE.OPEN = true) (hidle : loading s = false) (hus : 10000000 ≤ s.us - s.estp.stageUs) :
    ∃ t, exec .stageTimeout s = .next t ∧ get t R.EST_STAGE.OPEN = 0 ∧ bit (get t R.EST_EVENT) 3 = true := by
  have heff : (if isOn s R.EST_STAGE.OPEN ∧ !loading s ∧ 10000000 ≤ s.us - s.estp.stageUs then s |> releaseStage |> event R.EST_EVENT 3 else s) =
      event R.EST_EVENT 3 (releaseStage s) := if_pos ⟨hopen, by rw [hidle]; rfl, hus⟩
  refine ⟨_, congrArg done heff, ?_, ?_⟩
  · rw [get_finish (by decide) (by decide), get_event_ne (by decide), get_releaseStage_open]
  · rw [get_finish (by decide) (by decide)]
    exact bit_event_self (by decide) (by decide) _

end

end Sys2Proof.Machine

/-! Loads, reverts and the switch (R240, R242, R243, R249, R251). -/

namespace Sys2Proof.Machine

section

variable {s t u v : State} {d e m k port tag st : Nat} {g : Field} {fl : Flight} {w : SwitchH} {pkg : List Nat}

theorem estd_complete (fl : Flight) (st r0 r1 : Nat) (s : State) : (complete fl st r0 r1 s).estd = s.estd :=
  (foot_complete (Print.Sub.refl _) (Within.refl _ s)).parts .estd (by decide) (by decide)

theorem estd_finish (s : State) : (finish s).estd = s.estd := (Within.finish s).parts .estd (by decide) (by decide)

/-- The first of some checks that fails gives its status and its number. -/
theorem find_zipIdx_lt {l : List (Bool × Nat)} {statuses : List Nat} (hl : l.map Prod.snd = statuses) (hstatus : ∀ c ∈ statuses, c < 256)
    (hlen : statuses.length < 255) {p : (Bool × Nat) × Nat → Bool}
    (h : ((l.zipIdx 1).find? p).map (fun e => (e.1.2, e.2)) = some (st, k)) : st < 256 ∧ k < 256 := by
  obtain ⟨⟨c, i⟩, hfind, heq⟩ := Option.map_eq_some_iff.1 h
  obtain ⟨-, hi, hc⟩ := List.mem_zipIdx (List.mem_of_find?_eq_some hfind)
  obtain ⟨rfl, rfl⟩ := Prod.mk.inj heq
  have hsize : l.length = statuses.length := by rw [← hl, List.length_map]
  exact ⟨hstatus _ (hl ▸ List.mem_map_of_mem (hc ▸ List.getElem_mem _)), by omega⟩

/-- The statuses of checks 1 to 14 (R240). -/
def loadStatuses : List Nat :=
  [sBAD_PARAM, sBAD_PARAM, sINTEGRITY, sINTEGRITY, sRESERVED, sBAD_PARAM, sOUT_OF_RANGE, sBAD_PARAM, sRESERVED, sOUT_OF_RANGE, sBAD_PARAM,
   sBAD_PARAM, sNO_RESOURCE, sWRONG_STATE]

/-- A check that fails gives a status and a detail code that their fields hold (R240, R253). -/
theorem loadChecks_lt {l : List Nat} {n : Nat} (h : loadChecks s l n m = some (st, k)) : st < 256 ∧ k < 256 := by
  unfold loadChecks at h
  exact find_zipIdx_lt (statuses := loadStatuses) rfl (by decide) (by decide) h

theorem loadChecks_touchStage (l : List Nat) (n m : Nat) : loadChecks (touchStage s) l n m = loadChecks s l n m := rfl

/-! MODEL_LOAD (R240, R242, R249). -/

/-- The package that the staging buffer holds. -/
def stagedPkg (s : State) : List Nat := readBytes s (stageArea 0) (get s R.EST_STAGE.LEN)

/-- A load that passed its checks: the banks written, the command waiting for the switch. -/
def loadStarted (m port tag : Nat) (s : State) : State :=
  { s with estp := { s.estp with switch := some ⟨m, port, tag, false⟩ } } |> each (bitList 16 m) (writeBank (stagedPkg s)) |> markStarted port tag

theorem modelLoad_eq (hw : Waiting s 0x0403 port tag fl) (hpar : par fl 0 = m) (hm : m < 2 ^ 16) (howns : ownsStage s port = true)
    (hidle : s.estp.switch = none) : exec (.modelLoad port tag) s =
      done (match loadChecks s (stagedPkg s) (get s R.EST_STAGE.LEN) m with
        | some (st, k) => failLoad fl st k (touchStage s)
        | none => loadStarted m port tag (touchStage s)) := by
  have hsize : ¬ m / 2 ^ 16 ≠ 0 := by omega
  have htouched : ownsStage (touchStage s) port = true := howns
  have hswitch : ¬ (touchStage s).estp.switch.isSome = true := by
    rw [touchStage, hidle]
    nofun
  refine congrArg done ((command_of hw rfl).trans ?_)
  rw [howns, when_true, hpar, if_neg hsize, htouched, if_neg nofun, if_neg hswitch, loadChecks_touchStage]
  rfl

theorem DieStays.writeBank (hne : e ≠ d) (pkg : List Nat) (s : State) : DieStays d s (writeBank pkg e s) := by
  refine .within (foot_writeBank (Names.one (d := e)) (Print.Sub.refl _) (Within.refl _ s)) ?_ ?_ fun g _ => ?_
  · simp [fp_writeBank, fp_sendDown, fp_sendMsg, fp_sendFrame, Print.join, Print.row, Print.prt, Cell.part, hne]
  · simp [fp_writeBank, fp_sendDown, fp_sendMsg, fp_sendFrame, Print.join, Print.row, Print.prt]
  · simp [fp_writeBank, fp_sendDown, fp_sendMsg, fp_sendFrame, Print.free_cons, Print.free_nil, Print.free_prt, Print.free_row]

theorem estOf_writeBank (pkg : List Nat) (d : Nat) (s : State) : estOf (writeBank pkg d s) d =
    { estOf s d with banks := upd (estOf s d).banks (1 - (estOf s d).active) ⟨false, pkg⟩ } := by
  have hsent := foot_sendDown (ty := tySETTING) (content := pkg) (o := .model d (1 - (estOf s d).active)) (Names.any (d := d)) (Print.Sub.refl _)
    (Within.refl _ (setEst d { estOf s d with banks := upd (estOf s d).banks (1 - (estOf s d).active) ⟨false, pkg⟩ } s))
  rw [writeBank, estOf_of (hsent.parts .estd (by decide) (by decide)), estOf_setEst]

theorem writeBank_keeps (pkg : List Nat) (d : Nat) (s : State) : (writeBank pkg d s).host = s.host ∧ (writeBank pkg d s).estp = s.estp := by
  have h := foot_writeBank (pkg := pkg) (Names.any (d := d)) (Print.Sub.refl _) (Within.refl _ s)
  exact ⟨h.parts .host (by decide) (by decide), h.parts .estp (by decide) (by decide)⟩

/-- MODEL_LOAD waits for the switch with the banks of its dies written (R242). -/
theorem modelLoad_waits (hw : Waiting s 0x0403 port tag fl) (hpar : par fl 0 = m) (hm : m < 2 ^ 16) (howns : ownsStage s port = true)
    (hidle : s.estp.switch = none) (hgood : loadChecks s (stagedPkg s) (get s R.EST_STAGE.LEN) m = none) :
    ∃ t, exec (.modelLoad port tag) s = .next t ∧ flightOf t port tag = some { fl with started := true } ∧
      t.estp.switch = some ⟨m, port, tag, false⟩ ∧
      ∀ d < 16, bit m d = true → (estOf s d).banks.length = 2 → (estOf s d).active ≤ 1 → bankPkg t d (1 - (estOf s d).active) = stagedPkg s := by
  let waiting : State := { touchStage s with estp := { (touchStage s).estp with switch := some ⟨m, port, tag, false⟩ } }
  let banks : State := each (bitList 16 m) (writeBank (stagedPkg s)) waiting
  have hhost : banks.host = s.host := each_keeps (φ := State.host) (fun d u => (writeBank_keeps _ d u).1) (bitList 16 m) waiting
  have hestp : banks.estp = waiting.estp := each_keeps (φ := State.estp) (fun d u => (writeBank_keeps _ d u).2) (bitList 16 m) waiting
  have hexec : exec (.modelLoad port tag) s = done (markStarted port tag banks) := by
    rw [modelLoad_eq hw hpar hm howns hidle, hgood]
    rfl
  refine ⟨_, hexec, ?_, ?_, fun d hd hbit hbanks hactive => ?_⟩
  · rw [flightOf_of (host_finish _), flightOf_markStarted ((flightOf_of hhost port tag).trans hw.flight)]
  · rw [estp_finish, markStarted_estp, hestp]
  · obtain ⟨u, hbefore, hafter⟩ := DieStays.each (writeBank (stagedPkg s)) (mem_bitList.2 ⟨hd, hbit⟩) (nodup_bitList 16 m)
      (fun e _ hne u => .writeBank hne _ u) waiting
    have hest : estOf banks d = { estOf s d with banks := upd (estOf s d).banks (1 - (estOf s d).active) ⟨false, stagedPkg s⟩ } := by
      rw [hafter.est, estOf_writeBank, hbefore.est]
      rfl
    rw [bankPkg, estOf_finish, estOf_of (markStarted_estd ..), hest, upd, List.getD_eq_getElem _ _ (by rw [List.length_set]; omega),
      List.getElem_set_self]

/-- A package that fails a check ends the load with its status and detail (R240, R249). -/
theorem modelLoad_fails (hw : Waiting s 0x0403 port tag fl) (hpar : par fl 0 = m) (hm : m < 2 ^ 16) (howns : ownsStage s port = true)
    (hidle : s.estp.switch = none) (hbad : loadChecks s (stagedPkg s) (get s R.EST_STAGE.LEN) m = some (st, k)) :
    ∃ t, exec (.modelLoad port tag) s = .next t ∧ Completed s t fl st k 0 ∧ get t R.EST_LOAD_STAT.STATUS = st ∧
      get t R.EST_LOAD_STAT.DETAIL = k ∧ bit (get t R.EST_EVENT) 1 = true ∧ t.estd = s.estd := by
  obtain ⟨hst, hk⟩ := loadChecks_lt hbad
  let told : State := event R.EST_EVENT 1 (put R.EST_LOAD_STAT.DETAIL k (put R.EST_LOAD_STAT.STATUS st (touchStage s)))
  have htold : Unanswered s told :=
    have htouch : Unanswered s (touchStage s) := .of_eq rfl rfl
    htouch.trans (.trans (.put (f := R.EST_LOAD_STAT.STATUS) (by decide) st _)
      (.trans (.put (f := R.EST_LOAD_STAT.DETAIL) (by decide) k _) (.put (f := R.EST_EVENT) (by decide) _ _)))
  have hexec : exec (.modelLoad port tag) s = .next (finish (complete fl st k 0 told)) := by
    rw [modelLoad_eq hw hpar hm howns hidle, hbad]
    rfl
  refine ⟨_, hexec, htold.completed .., ?_, ?_, ?_, ?_⟩
  · rw [get_stage_complete (by decide) (by decide) (by decide), get_event_ne (by decide), get_put_ne (by decide), get_put_self (by decide)]
    exact Nat.mod_eq_of_lt hst
  · rw [get_stage_complete (by decide) (by decide) (by decide), get_event_ne (by decide), get_put_self (by decide)]
    exact Nat.mod_eq_of_lt hk
  · rw [get_stage_complete (by decide) (by decide) (by decide)]
    exact bit_event_self (by decide) (by decide) _
  · rw [estd_finish, estd_complete]
    exact (put_estd ..).trans ((put_estd ..).trans (put_estd ..))

/-- MODEL_REVERT waits for the switch (R251). -/
theorem modelRevert_waits (hw : Waiting s 0x0405 port tag fl) (hpar : par fl 0 = m) (hm : 0 < m) (hdies : m < 2 ^ nDies s)
    (hbanks : ∀ d, bit m d = true → isOn s (R.EST_DIE_STAT.PREV_VALID d) = true ∧ otherBank s d = true ∧ (linkOf s d).lost = false)
    (hidle : s.estp.switch = none) :
    ∃ t, exec (.modelRevert port tag) s = .next t ∧ flightOf t port tag = some { fl with started := true } ∧
      t.estp.switch = some ⟨m, port, tag, true⟩ := by
  have hm16 : m < 2 ^ 16 := hdies.trans_le (Nat.pow_le_pow_right (by decide) (nDies_le s))
  have hsize : decide (m / 2 ^ 16 ≠ 0) = false := decide_eq_false (by omega)
  have hmask : badMask s m = false := by
    simp only [badMask, Bool.or_eq_false_iff, decide_eq_false_iff_not]
    omega
  have hready : ((bitList 16 m).any fun d => !isOn s (R.EST_DIE_STAT.PREV_VALID d) || !otherBank s d || (linkOf s d).lost) = false := by
    rw [List.any_eq_false]
    intro d hd
    obtain ⟨hprev, hother, hlost⟩ := hbanks d (mem_bitList.1 hd).2
    simp [hprev, hother, hlost]
  have hexec : exec (.modelRevert port tag) s =
      done (markStarted port tag { s with estp := { s.estp with switch := some ⟨m, port, tag, true⟩ } }) := by
    refine congrArg done ((command_of hw ?_).trans ?_)
    · simp only [hpar, hsize, hmask, hready, hidle, firstFail, Option.isSome_none, Bool.false_eq_true, if_false]
    · rw [hpar]
  refine ⟨_, hexec, ?_, ?_⟩
  · rw [flightOf_of (host_finish _)]
    exact flightOf_markStarted hw.flight
  · rw [estp_finish, markStarted_estp]

end

end Sys2Proof.Machine

/-! MODEL_SWITCH (R242, R243, R249, R251). -/

namespace Sys2Proof.Machine

section

variable {s t u v : State} {d e port tag : Nat} {g : Field} {fl : Flight} {w : SwitchH}

/-! One die switches. -/

/-- A bank written whole, as it is sealed. -/
def sealedBank (s : State) (d : Nat) : Bank := ⟨(bankPkg s d (1 - (estOf s d).active)).length ≠ 0, bankPkg s d (1 - (estOf s d).active)⟩

theorem estOf_sealBank (d : Nat) (s : State) : estOf (sealBank d s) d =
    { estOf s d with banks := upd (estOf s d).banks (1 - (estOf s d).active) (sealedBank s d) } := estOf_setEst ..

theorem Unanswered.setEst (d : Nat) (v : EstD) (s : State) : Unanswered s (setEst d v s) := .of_eq rfl rfl

theorem switchDie_eq (h : otherBank s d = true) : ∃ p q, switchDie d s =
    (s |> setEst d { estOf s d with active := 1 - (estOf s d).active, turn := some (firstWindow s d), pair0 := p, pair1 := q }
      |> put (R.EST_DIE_STAT.ACTIVE d) 1
      |> putB (R.EST_DIE_STAT.PREV_VALID d) ((estOf s d).banks.getD (estOf s d).active ⟨false, []⟩).valid) :=
  ⟨_, _, if_pos h⟩

theorem estOf_switchDie (h : otherBank s d = true) : ∃ p q, estOf (switchDie d s) d =
    { estOf s d with active := 1 - (estOf s d).active, turn := some (firstWindow s d), pair0 := p, pair1 := q } := by
  obtain ⟨p, q, hswitch⟩ := switchDie_eq h
  exact ⟨p, q, by rw [hswitch, putB, estOf_of (put_estd ..), estOf_of (put_estd ..), estOf_setEst]⟩

theorem get_switchDie_active (hd : d < 16) (h : otherBank s d = true) : get (switchDie d s) (R.EST_DIE_STAT.ACTIVE d) = 1 := by
  have hne : ∀ d < 16, fieldKey (R.EST_DIE_STAT.PREV_VALID d) ≠ fieldKey (R.EST_DIE_STAT.ACTIVE d) := by decide
  obtain ⟨p, q, hswitch⟩ := switchDie_eq h
  rw [hswitch, putB, get_put_ne (hne d hd), get_put_self (by nofun)]
  rfl

theorem Unanswered.switchDie (d : Nat) (s : State) : Unanswered s (switchDie d s) := by
  cases h : otherBank s d
  · have hkeep : Machine.switchDie d s = s := if_neg (by simp [h])
    rw [hkeep]
    exact .refl s
  · obtain ⟨p, q, hswitch⟩ := switchDie_eq h
    rw [hswitch]
    exact .trans (.setEst d _ s) (.trans (.put (f := R.EST_DIE_STAT.ACTIVE d) (by simp only [R.EST_DIE_STAT.ACTIVE]; omega) 1 _)
      (.put (f := R.EST_DIE_STAT.PREV_VALID d) (by simp only [R.EST_DIE_STAT.PREV_VALID]; omega) _ _))

/-! The dies of a mask switch, and the link pair with them. -/

/-- The state in which the dies of a switch and the link pair have switched. -/
def diesSwitched (w : SwitchH) (s : State) : State :=
  s |> when (!w.revert) (each (bitList 16 w.mask) sealBank) |> each (bitList 16 w.mask) switchDie
    |> switchLink (bitList 16 w.mask) ((dies s).all fun d => !isOn s (R.EST_DIE_STAT.ACTIVE d))

/-- What LOAD_STAT tells of a load that the switch ends, and the staging buffer released (R241, R249). -/
def loadEnded (port : Nat) (s : State) : State :=
  s |> put R.EST_LOAD_STAT.STATUS sOK |> put R.EST_LOAD_STAT.DETAIL 0 |> when (ownsStage s port) releaseStage

/-- What is told of a switch that was made (R243, R249). -/
def switchTold (w : SwitchH) (s : State) : State :=
  { s with estp := { s.estp with switch := none } } |> event R.EST_EVENT 0 |> bumpGen |> when (!w.revert) (loadEnded w.port)

theorem effModelSwitch_eq (h : s.estp.switch = some w) : effModelSwitch s =
    completeAt w.port w.tag sOK 0 (if w.revert then 0 else now (diesSwitched w s) % 2 ^ 32) (switchTold w (diesSwitched w s)) := by
  unfold effModelSwitch
  rw [h]
  rfl

theorem Unanswered.switchLink (ds : List Nat) (first : Bool) (s : State) : Unanswered s (switchLink ds first s) := by
  unfold Machine.switchLink
  split
  · exact .refl s
  · rw [activateLink_eq]
    exact .trans (.of_eq rfl rfl) ((Unanswered.setLinkPair ..).trans (.setLinkOld ..))

theorem Unanswered.diesSwitched (w : SwitchH) (s : State) : Unanswered s (diesSwitched w s) :=
  have hseal : Unanswered s (Machine.when (!w.revert) (Machine.each (bitList 16 w.mask) sealBank) s) :=
    .when (.each (fun _ _ u => .of_eq (t := sealBank _ u) rfl rfl) s) _
  hseal.trans ((Unanswered.each (fun d _ u => .switchDie d u) _).trans (.switchLink ..))

theorem Unanswered.loadEnded (port : Nat) (s : State) : Unanswered s (loadEnded port s) :=
  .trans (.put (f := R.EST_LOAD_STAT.STATUS) (by decide) _ _) (.trans (.put (f := R.EST_LOAD_STAT.DETAIL) (by decide) _ _)
    (.when (.releaseStage _) _))

theorem Unanswered.switchTold (w : SwitchH) (s : State) : Unanswered s (switchTold w s) := by
  have hidle : Unanswered s { s with estp := { s.estp with switch := none } } := .of_eq rfl rfl
  have hbump : ∀ u, Unanswered u (bumpGen u) := fun u =>
    have hput : Unanswered u (addWrap R.RNG_GEN.GEN 1 u) := .put (by decide) _ u
    hput.trans (.of_eq rfl rfl)
  exact hidle.trans (.trans (.put (f := R.EST_EVENT) (by decide) _ _) ((hbump _).trans (.when (.loadEnded ..) _)))

/-- A die of the list whose other bank holds a model has switched to it. -/
theorem switchLink_each_switchDie {ds : List Nat} (hmem : d ∈ ds) (hds : ds.Nodup) (hlt : ∀ e ∈ ds, e < 16) (h : otherBank s d = true)
    (first : Bool) : (∃ p q, estOf (switchLink ds first (each ds switchDie s)) d =
        { estOf s d with active := 1 - (estOf s d).active, turn := some (firstWindow s d), pair0 := p, pair1 := q }) ∧
      get (switchLink ds first (each ds switchDie s)) (R.EST_DIE_STAT.ACTIVE d) = 1 := by
  have hd := hlt d hmem
  obtain ⟨u, hbefore, hafter⟩ := DieStays.each switchDie hmem hds (fun e he hne u => .switchDie hd (hlt e he) hne u) s
  have hother : otherBank u d = true := by rw [otherBank, hbefore.est, ← otherBank, h]
  have hlink := foot_switchLink (ds := ds) (first := first) (Print.Sub.refl _) (Within.refl _ (each ds switchDie s))
  have hplace : ∀ d < 16, InEst d (R.EST_DIE_STAT.ACTIVE d) := by
    unfold InEst
    decide
  have hne : ∀ d < 16, ∀ f ∈ [R.EST_LINK_TRIM.GAIN, R.EST_LINK_OFS.OFS], fieldKey f ≠ fieldKey (R.EST_DIE_STAT.ACTIVE d) := by decide
  have hfree : fp_switchLink.Free (R.EST_DIE_STAT.ACTIVE d) := by
    simp only [fp_switchLink, fp_activateLink, fp_setLinkPair, fp_setLinkOld, Print.free_cons, Print.free_nil, Print.free_reg, Print.free_prt,
      and_true, true_and]
    exact ⟨hne d hd _ (.head _), hne d hd _ (.tail _ (.head _))⟩
  refine ⟨?_, ?_⟩
  · obtain ⟨p, q, hest⟩ := estOf_switchDie hother
    refine ⟨p, q, ?_⟩
    rw [estOf_of (hlink.parts .estd (by decide) (by decide)), hafter.est, hest, firstWindow, hbefore.est, ← firstWindow]
  · rw [hlink.get hfree, hafter.regs _ (.inl (hplace d hd)), get_switchDie_active hd hother]

theorem switchDie_keeps (d : Nat) (s : State) : (switchDie d s).host = s.host ∧ now (switchDie d s) = now s := by
  have hfoot := foot_switchDie (Names.any (d := d)) (Print.Sub.refl _) (Within.refl _ s)
  have hfree : (fp_switchDie none).Free R.CLK_TIME.COUNT := by
    simp only [fp_switchDie, Print.free_cons, Print.free_nil, free_reg1_none, Print.free_row, and_true, true_and]
    refine ⟨fun k => key_ne ?_, fun k => key_ne ?_⟩ <;> simp only [R.EST_DIE_STAT.ACTIVE, R.EST_DIE_STAT.PREV_VALID, R.CLK_TIME.COUNT] <;> omega
  exact ⟨hfoot.parts .host (by decide) (by decide), hfoot.get hfree⟩

theorem switchLink_keeps (ds : List Nat) (first : Bool) (s : State) : (switchLink ds first s).host = s.host ∧
    now (switchLink ds first s) = now s := by
  have hfoot := foot_switchLink (ds := ds) (first := first) (Print.Sub.refl _) (Within.refl _ s)
  have hfree : fp_switchLink.Free R.CLK_TIME.COUNT := by
    simp only [fp_switchLink, fp_activateLink, fp_setLinkPair, fp_setLinkOld, Print.free_cons, Print.free_nil, Print.free_reg, Print.free_prt,
      and_true, true_and]
    decide
  exact ⟨hfoot.parts .host (by decide) (by decide), hfoot.get hfree⟩

theorem diesSwitched_keeps (w : SwitchH) (s : State) : (diesSwitched w s).host = s.host ∧ now (diesSwitched w s) = now s := by
  have hseal : ∀ u, (each (bitList 16 w.mask) sealBank u).host = u.host ∧ now (each (bitList 16 w.mask) sealBank u) = now u := fun u =>
    ⟨each_keeps (f := sealBank) (φ := State.host) (fun _ _ => rfl) _ u, each_keeps (f := sealBank) (φ := now) (fun _ _ => get_setEst ..) _ u⟩
  have hswitch : ∀ u, (each (bitList 16 w.mask) switchDie u).host = u.host ∧ now (each (bitList 16 w.mask) switchDie u) = now u := fun u =>
    ⟨each_keeps (φ := State.host) (fun d u => (switchDie_keeps d u).1) _ u, each_keeps (φ := now) (fun d u => (switchDie_keeps d u).2) _ u⟩
  unfold diesSwitched
  rw [(switchLink_keeps ..).1, (switchLink_keeps ..).2, (hswitch _).1, (hswitch _).2]
  cases w.revert
  · exact hseal s
  · exact ⟨rfl, rfl⟩

theorem loadEnded_keeps (port : Nat) (s : State) : (loadEnded port s).host = s.host ∧ (loadEnded port s).estd = s.estd ∧
    (loadEnded port s).estp = s.estp := by
  unfold loadEnded
  cases ownsStage s port <;> simp [releaseStage]

theorem switchTold_keeps (w : SwitchH) (s : State) : (switchTold w s).host = s.host ∧ (switchTold w s).estd = s.estd ∧
    (switchTold w s).estp.switch = none := by
  unfold switchTold
  cases w.revert
  · simp [loadEnded_keeps, event]
  · simp [event]

/-- The registers of a load that a switch ends. -/
def loadFields : List Field :=
  [R.EST_LOAD_STAT.STATUS, R.EST_LOAD_STAT.DETAIL, R.EST_STAGE.OPEN, R.EST_STAGE.OWNER, R.EST_STAGE.LEN]

theorem get_loadEnded (h : ∀ f ∈ loadFields, fieldKey f ≠ fieldKey g) (port : Nat) (s : State) : get (loadEnded port s) g = get s g := by
  simp only [loadFields, List.forall_mem_cons, List.not_mem_nil, false_implies, implies_true, and_true] at h
  obtain ⟨hstatus, hdetail, hopen, howner, hlen⟩ := h
  have hrelease : ∀ c u, get (when c releaseStage u) g = get u g := by
    rintro (_ | _) u
    · rfl
    · rw [when_true, releaseStage, get_put_ne hlen, get_put_ne howner, get_put_ne hopen]
  rw [loadEnded, hrelease, get_put_ne hdetail, get_put_ne hstatus]

theorem get_switchTold (h : ∀ f ∈ R.RNG_GEN.GEN :: loadFields, fieldKey f ≠ fieldKey g) (w : SwitchH) (s : State) :
    get (switchTold w s) g = get (event R.EST_EVENT 0 { s with estp := { s.estp with switch := none } }) g := by
  obtain ⟨hgen, hload⟩ := List.forall_mem_cons.1 h
  unfold switchTold
  cases w.revert
  · rw [Bool.not_false, when_true, get_loadEnded hload, get_bumpGen hgen]
  · rw [Bool.not_true, when_false, get_bumpGen hgen]

/-- MODEL_SWITCH once the command that waits for it is found: the dies switch, it is told, and the command completes (R242, R249, R251). -/
theorem modelSwitch_switches (hswitch : s.estp.switch = some w) (hflight : flightOf s w.port w.tag = some fl) :
    ∃ t, exec .modelSwitch s = .next t ∧ Completed s t fl sOK 0 (if w.revert then 0 else now s % 2 ^ 32) ∧ t.estp.switch = none ∧
      (∀ d, estOf t d = estOf (diesSwitched w s) d) ∧
      (∀ d < 16, get t (R.EST_DIE_STAT.ACTIVE d) = get (diesSwitched w s) (R.EST_DIE_STAT.ACTIVE d)) ∧ bit (get t R.EST_EVENT) 0 = true := by
  have hkept : (switchTold w (diesSwitched w s)).host = s.host := (switchTold_keeps ..).1.trans (diesSwitched_keeps w s).1
  have hexec : exec .modelSwitch s =
      .next (finish (complete fl sOK 0 (if w.revert then 0 else now s % 2 ^ 32) (switchTold w (diesSwitched w s)))) := by
    refine congrArg done ?_
    rw [effModelSwitch_eq hswitch, completeAt_of_flight ((flightOf_of hkept ..).trans hflight), (diesSwitched_keeps w s).2]
  refine ⟨_, hexec, ((Unanswered.diesSwitched w s).trans (.switchTold ..)).completed .., ?_, fun d => ?_, fun d hd => ?_, ?_⟩
  · rw [estp_finish, estp_complete, (switchTold_keeps ..).2.2]
  · rw [estOf_finish, estOf_complete, estOf_of (switchTold_keeps ..).2.1]
  · have hne : ∀ d < 16, ∀ f ∈ R.EST_EVENT :: R.RNG_GEN.GEN :: loadFields, fieldKey f ≠ fieldKey (R.EST_DIE_STAT.ACTIVE d) := by decide
    have hplace : ∀ d < 16, (R.EST_DIE_STAT.ACTIVE d).off * 32 + (R.EST_DIE_STAT.ACTIVE d).lo < 0x120000 * 32 ∧
        fieldKey R.REC_LOST.COUNT ≠ fieldKey (R.EST_DIE_STAT.ACTIVE d) ∧ fieldKey R.REC_EVENT ≠ fieldKey (R.EST_DIE_STAT.ACTIVE d) := by decide
    obtain ⟨hlow, hlost, hevent⟩ := hplace d hd
    obtain ⟨hfirst, htold⟩ := List.forall_mem_cons.1 (hne d hd)
    rw [get_stage_complete hlow hlost hevent, get_switchTold htold, get_event_ne hfirst]
    rfl
  · rw [get_stage_complete (by decide) (by decide) (by decide), get_switchTold (by decide)]
    exact bit_event_self (by decide) (by decide) _

theorem bankPkg_of_est {x : EstD} (h : estOf s d = x) (b : Nat) : bankPkg s d b = (x.banks.getD b ⟨false, []⟩).pkg := by rw [bankPkg, h]

/-- What a die of the mask is before it switches, with the bank that a load wrote sealed. -/
theorem sealed_die (hd : d < 16) (hbit : bit w.mask d = true) (hload : w.revert = false) (hbanks : (estOf s d).banks.length = 2)
    (hactive : (estOf s d).active ≤ 1) (hpkg : bankPkg s d (1 - (estOf s d).active) ≠ []) :
    ∃ u, (when (!w.revert) (each (bitList 16 w.mask) sealBank) s) = u ∧ otherBank u d = true ∧
      bankPkg u d (1 - (estOf s d).active) = bankPkg s d (1 - (estOf s d).active) ∧
      ∃ banks, estOf u d = { estOf s d with banks := banks } := by
  obtain ⟨v, hbefore, hafter⟩ := DieStays.each sealBank (mem_bitList.2 ⟨hd, hbit⟩) (nodup_bitList 16 w.mask)
    (fun e _ hne u => .setEst hne _ u) s
  have hsealed : sealedBank v d = ⟨true, bankPkg s d (1 - (estOf s d).active)⟩ := by
    have hlen : (bankPkg s d (1 - (estOf s d).active)).length ≠ 0 := fun h => hpkg (List.length_eq_zero_iff.1 h)
    rw [sealedBank, bankPkg, hbefore.est, ← bankPkg]
    simp only [hlen, ne_eq, not_false_eq_true, decide_true]
  have hest : estOf (each (bitList 16 w.mask) sealBank s) d =
      { estOf s d with banks := upd (estOf s d).banks (1 - (estOf s d).active) ⟨true, bankPkg s d (1 - (estOf s d).active)⟩ } := by
    rw [hafter.est, estOf_sealBank, hsealed, hbefore.est]
  have hget : (upd (estOf s d).banks (1 - (estOf s d).active) ⟨true, bankPkg s d (1 - (estOf s d).active)⟩).getD (1 - (estOf s d).active)
      ⟨false, []⟩ = ⟨true, bankPkg s d (1 - (estOf s d).active)⟩ := by
    rw [upd, List.getD_eq_getElem _ _ (by rw [List.length_set]; omega), List.getElem_set_self]
  rw [hload, Bool.not_false, when_true]
  refine ⟨_, rfl, ?_, ?_, _, hest⟩
  · rw [otherBank, hest]
    exact congrArg Bank.valid hget
  · exact (bankPkg_of_est hest _).trans (congrArg Bank.pkg hget :)

theorem lt_of_mem_bitList {n m : Nat} : ∀ e ∈ bitList n m, e < n := fun _ he => (mem_bitList.1 he).1

/-- MODEL_SWITCH after a load: the die computes with the package that the load wrote (R242, R243, R249). -/
theorem modelSwitch_loads (hswitch : s.estp.switch = some w) (hflight : flightOf s w.port w.tag = some fl) (hload : w.revert = false)
    (hd : d < 16) (hbit : bit w.mask d = true) (hbanks : (estOf s d).banks.length = 2) (hactive : (estOf s d).active ≤ 1)
    (hpkg : bankPkg s d (1 - (estOf s d).active) ≠ []) :
    ∃ t, exec .modelSwitch s = .next t ∧ t.estp.switch = none ∧ model t d = bankPkg s d (1 - (estOf s d).active) ∧
      (estOf t d).active = 1 - (estOf s d).active ∧ (estOf t d).core = (estOf s d).core ∧ (estOf t d).turn = some (firstWindow s d) ∧
      get t (R.EST_DIE_STAT.ACTIVE d) = 1 ∧ Completed s t fl sOK 0 (now s % 2 ^ 32) ∧ bit (get t R.EST_EVENT) 0 = true := by
  obtain ⟨t, hexec, hdone, hidle, hest, hshown, hevent⟩ := modelSwitch_switches hswitch hflight
  obtain ⟨u, hseal, hother, hpkgs, banks, hu⟩ := sealed_die hd hbit hload hbanks hactive hpkg
  obtain ⟨⟨p, q, hdie⟩, hon⟩ := switchLink_each_switchDie (mem_bitList.2 ⟨hd, hbit⟩) (nodup_bitList 16 w.mask) lt_of_mem_bitList hother
    ((dies s).all fun d => !isOn s (R.EST_DIE_STAT.ACTIVE d))
  have hswitched : diesSwitched w s =
      switchLink (bitList 16 w.mask) ((dies s).all fun d => !isOn s (R.EST_DIE_STAT.ACTIVE d)) (each (bitList 16 w.mask) switchDie u) := by
    rw [diesSwitched, hseal]
  rw [← hswitched, ← hest] at hdie
  rw [← hswitched, ← hshown d hd] at hon
  have hpkg' : bankPkg t d (1 - (estOf s d).active) = bankPkg u d (1 - (estOf s d).active) := by rw [bankPkg, hdie, bankPkg]
  have hfirst : firstWindow u d = firstWindow s d := by rw [firstWindow, hu, firstWindow]
  have hnow : (estOf t d).active = 1 - (estOf s d).active := by rw [hdie, hu]
  rw [hload, if_neg nofun] at hdone
  refine ⟨t, hexec, hidle, ?_, hnow, by rw [hdie, hu], by rw [hdie, hfirst], hon, hdone, hevent⟩
  rw [model, hnow, hpkg', hpkgs]

/-- MODEL_SWITCH after a revert: the die computes with its other bank again (R251). -/
theorem modelSwitch_reverts (hswitch : s.estp.switch = some w) (hflight : flightOf s w.port w.tag = some fl) (hrevert : w.revert = true)
    (hd : d < 16) (hbit : bit w.mask d = true) (hother : otherBank s d = true) :
    ∃ t, exec .modelSwitch s = .next t ∧ t.estp.switch = none ∧ (estOf t d).active = 1 - (estOf s d).active ∧
      (estOf t d).core = (estOf s d).core ∧ (estOf t d).turn = some (firstWindow s d) ∧ Completed s t fl sOK 0 0 := by
  obtain ⟨t, hexec, hdone, hidle, hest, -, -⟩ := modelSwitch_switches hswitch hflight
  obtain ⟨⟨p, q, hdie⟩, -⟩ := switchLink_each_switchDie (mem_bitList.2 ⟨hd, hbit⟩) (nodup_bitList 16 w.mask) lt_of_mem_bitList hother
    ((dies s).all fun d => !isOn s (R.EST_DIE_STAT.ACTIVE d))
  have hswitched : diesSwitched w s =
      switchLink (bitList 16 w.mask) ((dies s).all fun d => !isOn s (R.EST_DIE_STAT.ACTIVE d)) (each (bitList 16 w.mask) switchDie s) := by
    rw [diesSwitched, hrevert, Bool.not_true, when_false]
  rw [← hswitched, ← hest] at hdie
  rw [if_pos hrevert] at hdone
  exact ⟨t, hexec, hidle, by rw [hdie], by rw [hdie], by rw [hdie], hdone⟩

end

/-- Settles O12: a rule for each command. The switch is taken apart for one die of the mask: the other dies' steps leave it, and what is
told of the switch afterwards changes no die. -/
theorem modelsStagedAndSwitched : Obligations.ModelsStagedAndSwitched := by
  unfold Obligations.ModelsStagedAndSwitched
  exact ⟨fun s port tag fl n => modelOpen_opens, fun s port tag fl o n => modelWrite_writes, fun s port tag fl => modelWrite_touches,
    fun s port tag fl => modelClose_closes, fun s => stageTimeout_releases, fun s port tag fl m => modelLoad_waits,
    fun s port tag fl m st k => modelLoad_fails, fun s port tag fl m => modelRevert_waits, fun s w fl d => modelSwitch_loads,
    fun s w fl d => modelSwitch_reverts, fun s d w => secondStage_follows⟩

end Sys2Proof.Machine
